-- ==== Sys2Proof/Word.lean ====
section
/-!
DEFINITION. The words the FH-824 works in (R3, R7): a byte, a 32-bit register, a 64-byte descriptor.
-/
namespace Sys2Proof

/-- A byte of memory. -/
abbrev Byte := BitVec 8

/-- A register (R7). -/
abbrev Word := BitVec 32

/-- A ring descriptor, byte 0 in bits 7..0 (R4, R6). -/
abbrev DescBits := BitVec 512

end Sys2Proof
end

