-- ==== Sys2Proof/Syntax.lean ====
section
/-!
DEFINITION. The commands of the FH-824 block: one constructor per row of spec/opcode_table.json, with the operands each row carries.
-/
namespace Sys2Proof

/-- The width of a register or doorbell access (R8). -/
inductive AccWidth where
  | w8 | w16 | w32 | w64
  deriving DecidableEq, Repr

/-- The width in bytes. -/
def AccWidth.bytes : AccWidth → Nat
  | .w8 => 1
  | .w16 => 2
  | .w32 => 4
  | .w64 => 8

/-- The rings of 03_rings_and_doorbells.md. -/
inductive RingId where
  | job (k : Fin 4) | cmx | cam | mbxIn | evt | mbxOut
  deriving DecidableEq, Repr

/-- Ring ID of the ring table. -/
def RingId.num : RingId → Nat
  | .job k => k.val
  | .cmx => 4
  | .cam => 5
  | .mbxIn => 6
  | .evt => 8
  | .mbxOut => 9

/-- Host-to-device rings: IDs 0 to 6. -/
def RingId.isH2D : RingId → Bool
  | .evt => false
  | .mbxOut => false
  | _ => true

/-- The units with an enable bit (R14): rings, head ports, serial lanes, stepper axes, the web axis, the position inputs,
camera contexts, loop slots, light bars, network ports and the mirror port. -/
inductive UnitId where
  | ring (r : RingId)
  | port (p : Fin 24)
  | lane (l : Fin 52)
  | axis (a : Fin 16)
  | web
  | master (m : Fin 2)
  | quad (q : Fin 16)
  | serial (n : Fin 4)
  | ctx (c : Fin 16)
  | slot (l : Fin 32)
  | bar (b : Fin 8)
  | net (n : Fin 2)
  | mirror
  deriving DecidableEq, Repr

/-- How a read of host memory ends: its bytes, or a failure with the PCIe completion status (R81). -/
inductive FetchResult where
  | ok (d : DescBits)
  | failed (status : Nat)
  deriving DecidableEq, Repr

/-- How a data read of any length ends. -/
inductive ReadResult where
  | ok (bytes : List Byte)
  | failed (status : Nat)
  deriving DecidableEq, Repr

/-- The configuration-space bits that R98 and R99 read. -/
structure PcieIrqCfg where
  msiEnable : Bool
  msiMask : Bool
  intxDisable : Bool
  deriving DecidableEq, Repr


/-- A tile's answer to nothing but its header (R191, R203): the fields of a control packet's START and header, and whether
its CRC held. -/
structure CtlHdr where
  lsn : BitVec 12
  cseq : BitVec 8
  imm : Bool
  line : BitVec 24
  crcOk : Bool
  deriving DecidableEq, Repr

/-- The fields of a line packet's header a tile reads (R191). -/
structure LineHdr where
  lsn : BitVec 12
  line : BitVec 24
  last : Bool
  crcOk : Bool
  deriving DecidableEq, Repr

/-- The fields of a report packet's header (R191): return LSN, the tile's last tick, its identity and UNASSIGNED. -/
structure RepHdr where
  lsn : BitVec 12
  line : BitVec 24
  ident : BitVec 9
  unassigned : Bool
  deriving DecidableEq, Repr

/-- The sixteen echoes of one slot in the latency phase, RT - TAU of each in 1/16 ns (R205); slot 24 is the hub. -/
structure EchoSet where
  slot : Fin 25
  rtTau : List Nat
  deriving DecidableEq, Repr

/-- Who reads device DRAM (R452): a lane, a compression unit, BAR4, a core, a camera context, the correlator snapshot, the
pair journal, the patrol scrub. -/
inductive DramSrc where
  | lane (l : Fin 96) | engine (u : Fin 8) | bar4 (len : Nat) | firmware (core : Nat) | camera (c : Fin 16) | snapshot
  | journal (own : Bool) | scrub
  deriving DecidableEq, Repr

/-- One symbol that arrives wrong in a burst: codeword, symbol k, and the bits that differ (R447). -/
structure SymErr where
  cw : Fin 4
  k : Fin 20
  diff : Byte
  deriving DecidableEq, Repr

/-- What a sweep point reads back (R459): bursts of 16 beats of 40 bits, which the compare engine checks, or, for the kinds
that read the device's own training pattern, the mismatches per lane. -/
inductive SweepPoint where
  | bursts (bs : List (List (BitVec 40)))
  | lanes (errs : List Nat)
  deriving DecidableEq, Repr

/-- The header of a CSI-2 packet: good, one bit corrected, or beyond correction (R330). -/
inductive EccHeader where
  | good | corrected | failed
  deriving DecidableEq, Repr

/-- How a bar's chain answered the frames of one update (R360): confirmed; a block or SYNC mismatched and then confirmed when
sent again, with the errors counted; or not confirmed in time; or a block confirmed and the SYNC mismatched. -/
inductive ChainReply where
  | confirmed (errors : Nat) | unconfirmed (errors : Nat) | syncMismatch (errors : Nat)
  deriving DecidableEq, Repr

/-- The limits of a write during re-plan mode (R384). -/
inductive AxisLimit where
  | vmax | amax | dmax | jmax
  deriving DecidableEq, Repr

/-- The web-drive registers that R400 protects. -/
inductive WebParam where
  | scale | rampA | rampJ | backV
  deriving DecidableEq, Repr

/-- A journal record (R468): kinds 1 to 10. TRIM has its two forms, plane columns and the energy trims of a tile. -/
inductive JrnRec where
  | job (d : DescBits) (ring line : Nat)
  | page (d : DescBits) (ring first : Nat)
  | anchor (line jobLine clk : Nat) (c x16 : Int) (stamp : Nat)
  | mark (handed cleared : List Nat)
  | recov (typ s : Nat) (e : List Nat) (lRes b : Nat)
  | ledger (addr : Nat) (word : List Byte) (eff : Option Nat)
  | trims (plane col : Nat) (t : List Int)
  | energy (g first : Nat) (t : List Nat)
  | axis (axes : List (List Int)) (wmode : Nat)
  | retire (pageId status pflags : Nat)
  | ended (payload : List Nat)
  deriving DecidableEq, Repr

/-- What a mirror packet says of a full resync (R470, R471): the peer is UNSYNCED, its snapshot begins, or the snapshot and every live record
sent during it have come, after so many bytes and ms. -/
inductive PairNote where
  | unsynced
  | resyncStart
  | resyncEnd (bytes ms : Nat)
  deriving DecidableEq, Repr

/-- A message on the mirror port (R466): a journal record, a lease message, or the ledger regions of a full resync (R470), which count
as one message (DESIGN CHOICE, log 36). -/
inductive MirrorMsg where
  | record (r : JrnRec)
  | renew (epoch : Nat)
  | claim (epoch : Nat)
  | yielded
  | health (w : Word)
  | regions
  deriving DecidableEq, Repr

/-- A command: a register access, a ring or bus operation, or an event the spec lists as one step. -/
inductive Instr where
  | registerWrite (req : Fin 6) (off : Nat) (width : AccWidth) (value : BitVec 64)
  | rcRegisterRead (req : Fin 6) (off : Nat) (width : AccWidth)
  | loRegisterRead (req : Fin 6) (off : Nat) (width : AccWidth)
  | glbPressTimeRead (req : Fin 6) (width : AccWidth)
  | glbAccErrClr (req : Fin 6)
  | unitEnableWrite (req : Fin 6) (u : UnitId) (value : Word)
  | startActionsComplete (u : UnitId)
  | stopActionsComplete (u : UnitId) (sameCycle offCycle : Option Bool)
  | startTimeLimitExpired (u : UnitId)
  | unitFaultDetected (u : UnitId) (reason : Fin 16)
  | tallyWindowEnd (u : UnitId)
  | retirementCondition (u : UnitId)
  | doorbellWrite (page : Fin 16) (off : Fin 4096) (width : AccWidth) (value : BitVec 64)
  | evtDoorbellWrite (r : RingId) (off : Fin 4096) (width : AccWidth) (value : BitVec 64)
  | descriptorFetched (r : RingId) (res : FetchResult)
  | nop (r : RingId)
  | fence (r : RingId)
  | fenceRelease (r : RingId)
  | fenceStall (r : RingId)
  | evtQueueDrain
  | writeBackRecord (r : RingId)
  | msiCoalTimerExpired (cfg : PcieIrqCfg)
  | rearm (req : Fin 6)
  | coalUsWrite (req : Fin 6) (value : Word)
  | mbxInDescriptor
  | mbxDone (seq : BitVec 16) (result : Word)
  | mbxOutPost (entry : DescBits)
  | mbxOutSpaceFree
  | bar4Read (addr : Nat) (len : Nat)
  | bar4Write (addr : Nat) (data : List Byte)
  | pcieLinkDown
  | pcieLinkUp (speed width : Fin 16)
  | flr
  | hotReset
  | perst
  | pgpLinePeriodWrite (req : Fin 6) (value : Word)
  | applyAtPage (req : Fin 6)
  | clrHalt (req : Fin 6)
  | winEnWrite (req : Fin 6) (value : Word)
  | pressTick
  | masterEdge (m : Fin 2) (b r : Bool)
  | jobStart (k : Fin 4)
  | page (k : Fin 4)
  | jobEnd (k : Fin 4)
  | pageStreamFetched (refetch : Option (Fin 8 × Fin 16)) (res : ReadResult)
  | pageAreaRoom
  | jobRunupStart
  | laneAssignmentStart (lane : Fin 96) (checkOk : Bool)
  | laneAssignmentEnd (lane : Fin 96)
  | resumeLockingStart
  | resumeFirstTick
  | lockFail
  | jobEnded
  | keepwetCappedWrite (req : Fin 6) (q : Fin 8) (value : Word)
  | spitOffRetry (q : Fin 8)
  | compress (unit : Fin 8) (src st : ReadResult)
  | decompress (unit : Fin 8) (src st : ReadResult)
  | cmxDone (unit : Fin 8) (writeFail : Option (Nat × Nat))
  | portSignalDetected (p : Fin 24)
  | portBlockLock (p : Fin 24)
  | portAdaptDone (p : Fin 24)
  | portDeskewDone (p : Fin 24)
  | portLatencyDone (p : Fin 24) (echoes : List EchoSet)
  | portUp (p : Fin 24)
  | portDown (p : Fin 24) (lane : Fin 2) (lockLoss : Bool)
  | retrainTimeout (p : Fin 24)
  | ackReceived (p : Fin 24) (lsn : BitVec 12) (status : Fin 16) (slot : Fin 32) (checkOk : Bool)
  | ackTimeout (p : Fin 24) (lsn : BitVec 12)
  | linePacketDeadline (p : Fin 24) (lsn : BitVec 12)
  | tempReport (p : Fin 24) (slot : Fin 24) (h : RepHdr) (tMax tMean : BitVec 16) (flags duty : BitVec 8)
  | resResultReport (p : Fin 24) (slot : Fin 24) (h : RepHdr) (first : Nat) (codes : List Nat)
  | declareReport (p : Fin 24) (slot : Fin 32) (h : RepHdr) (decl : DescBits)
  | faultReport (p : Fin 24) (slot : Fin 32) (h : RepHdr) (code count : BitVec 16) (line : BitVec 24) (group : BitVec 8)
  | tempStale (p : Fin 24) (slot : Fin 24)
  | warmUpdate (p : Fin 24) (slot : Fin 24)
  | plnThermWrite (req : Fin 6) (q : Fin 8) (k : Fin 3) (value : Word)
  | plnFaultClear (req : Fin 6) (q : Fin 8) (value : Word)
  | maskLoad (p : Fin 24) (slot : Fin 32) (h : CtlHdr) (payload : List Byte)
  | trimLoad (p : Fin 24) (slot : Fin 32) (h : CtlHdr) (payload : List Byte)
  | fireParams (p : Fin 24) (slot : Fin 32) (h : CtlHdr) (payload : List Byte)
  | dropTable (p : Fin 24) (slot : Fin 32) (h : CtlHdr) (payload : List Byte)
  | warm (p : Fin 24) (slot : Fin 32) (h : CtlHdr) (payload : List Byte)
  | therm (p : Fin 24) (slot : Fin 32) (h : CtlHdr) (payload : List Byte)
  | resSweep (p : Fin 24) (slot : Fin 32) (h : CtlHdr) (payload : List Byte)
  | spit (p : Fin 24) (slot : Fin 32) (h : CtlHdr) (payload : List Byte)
  | lineCancel (p : Fin 24) (slot : Fin 32) (h : CtlHdr) (payload : List Byte)
  | setLine (p : Fin 24) (slot : Fin 32) (h : CtlHdr) (payload : List Byte)
  | tickDelay (p : Fin 24) (slot : Fin 32) (h : CtlHdr) (payload : List Byte)
  | assignId (p : Fin 24) (slot : Fin 32) (h : CtlHdr) (payload : List Byte)
  | declareReq (p : Fin 24) (slot : Fin 32) (h : CtlHdr) (payload : List Byte)
  | clearFault (p : Fin 24) (slot : Fin 32) (h : CtlHdr) (payload : List Byte)
  | echo (p : Fin 24) (slot : Fin 32) (nonce : BitVec 8)
  | linePacketReceive (p : Fin 24) (slot : Fin 32) (h : LineHdr) (payload : List Byte)
  | tickReceived (p : Fin 24) (slot : Fin 24) (line : BitVec 24) (phase : BitVec 8) (auth : Bool)
  | tileTickMissed (p : Fin 24) (slot : Fin 24)
  | tileAuthorityLost (p : Fin 24)
  | tileTempSample (p : Fin 24) (slot : Fin 24) (tMax tMean : BitVec 16)
  | tileWarmHoldExpired (p : Fin 24) (slot : Fin 24)
  | ldgCmdWrite (req : Fin 6) (value : Word)
  | setTemp
  | clearTemp
  | retire
  | restore
  | evidence
  | purgeDone
  | sweep
  | adopt
  | rebase
  | sweepRetry (p : Fin 24) (slot : Fin 24)
  | sweepEnd
  | heldMaskChangeRelease (p : Fin 24) (slot : Fin 24)
  | mramWriteBatch
  | ledgerLoadComplete (errs : List (Nat × Bool))
  | calTempCheck
  | calScheduleExpired (c : Fin 7)
  | calReq (req : Fin 6) (c : Fin 7)
  | calStart (req : Fin 6) (c : Fin 7)
  | calComplete (req : Fin 6) (c : Fin 7)
  | calAbandon (req : Fin 6) (c : Fin 7)
  | calAutoStart (c : Fin 7)
  | calTimeout (c : Fin 7)
  | calTrimDataWrite (req : Fin 6) (value : Word)
  | ptBandFinalise
  | probeClose (q : Fin 8) (c : Nat)
  | csi2LongPacket (port : Fin 4) (vc : Fin 16) (dt : Fin 64) (ecc : EccHeader) (crcOk : Bool) (pixels : List (BitVec 16))
      (room : Nat)
  | frameStart (port : Fin 6) (vc : Fin 16)
  | lineStart (port : Fin 6) (vc : Fin 16)
  | lineEnd (port : Fin 6) (vc : Fin 16) (pixels : List (BitVec 16)) (room : Nat)
  | frameEnd (port : Fin 6) (vc : Fin 16)
  | frameTimeout (x : Fin 16)
  | sharedPipelineTake (pipe : Fin 2)
  | pipelineLineDone (pipe : Fin 4)
  | regLost (q : Fin 8)
  | frameBuf
  | capture
  | camPipeSelWrite (req : Fin 6) (value : Word)
  | camTabDataWrite (req : Fin 6) (value : Word)
  | ledScanWrite (req : Fin 6) (value : Word)
  | ledUpdate (bar : Fin 8) (xa xb : Int) (reply : ChainReply)
  | ledStatusRead (bar : Fin 8) (lrtn : Bool)
  | ledSenseRead (bar : Fin 8)
  | ledBarClear (req : Fin 6) (bar : Fin 8)
  | driverWrite (bar : Fin 8) (frame : BitVec 64)
  | gsBlock (bar : Fin 8) (frame : BitVec 64) (payload : BitVec 768) (crc : BitVec 16)
  | driverRead (bar : Fin 8) (frame : BitVec 64)
  | driverSync (bar : Fin 8) (frame : BitVec 64)
  | driverClear (bar : Fin 8) (frame : BitVec 64)
  | lclkLoss (bar : Fin 8) (pos : Fin 4)
  | standstillTimeout (u : UnitId)
  | quadratureChange (q : Fin 16) (a b : Bool)
  | serialReadStart (n : Fin 4)
  | serialWordReceived (n : Fin 4) (timeout : Bool) (word : BitVec 64)
  | rowSlotStart (row : Fin 4) (opens shorts : List (Fin 8 × Fin 64)) (sense : List (Fin 8 × Fin 64 × Nat))
  | driverOtChange (bar : Fin 8) (pos : Fin 4) (hot : Bool)
  | plannerTick
  | comparatorTrip (axis : Fin 16) (phaseB : Bool)
  | chopperOffTimeEnd (axis : Fin 16) (phaseB : Bool)
  | limitInputChange (axis : Fin 16) (positive level : Bool)
  | push (req : Fin 6) (axis : Fin 16)
  | stop (req : Fin 6) (axis : Fin 16)
  | setPos (req : Fin 6) (axis : Fin 16)
  | gearPush (req : Fin 6) (axis : Fin 16)
  | motAxTargetWrite (req : Fin 6) (axis : Fin 16) (target : Word)
  | motAxModeWrite (req : Fin 6) (axis : Fin 16) (mode : Fin 4)
  | axisLimitWrite (req : Fin 6) (axis : Fin 16) (which : AxisLimit) (v : Word)
  | motWebTargetWrite (req : Fin 6) (lines : Word)
  | jogStop (req : Fin 6)
  | forceStopWrite (req : Fin 6) (force : Bool)
  | motWebParamWrite (req : Fin 6) (which : WebParam) (v : Word)
  | webMoveStandstill
  | driveReadyChange (level : Bool)
  | loopBaseTick
  | lpeIntegWrite (req : Fin 6) (slot : Fin 32) (v : Word)
  | lpeSpWrite (req : Fin 6) (slot : Fin 32) (v : Word)
  | pinPwmDutyWrite (req : Fin 6) (ch : Fin 16) (v : Word)
  | pwmPeriodStart
  | pinEdge (levels : Word)
  | dramRead (src : DramSrc) (addr : Nat) (errs : List SymErr)
  | dramWrite (addr : Nat) (data : List Byte) (errs : List SymErr)
  | eccWriteBack (addr : Nat)
  | rhTableClear
  | refreshDue (rank : Fin 2) (laneWaiting : Bool)
  | dmcLiveStep
  | mr4Poll (fields : List (Nat × Bool))
  | patrolScrubRead (errs : List SymErr)
  | driftCheck (counts : List Nat)
  | dmcInit (req : Fin 6)
  | dramInitDone (fail : Fin 4) (rfmSupported rfmRequired : Bool) (deviceId : Nat)
  | dmcOpen (req : Fin 6)
  | dramReady (fillMs : Nat)
  | dmcSweepGo (req : Fin 6)
  | dmcSweepAbort (req : Fin 6)
  | dmcSweepDone (points : List SweepPoint)
  | dmcDlyDataWrite (req : Fin 6) (value : Word)
  | claim (req : Fin 6)
  | yield (req : Fin 6)
  | handover (req : Fin 6)
  | resync (req : Fin 6)
  | autoYield (port : Option (Fin 24))
  | renewTimer
  | renewReceived (epoch : Word)
  | claimReceived (epoch : Word)
  | claimAckReceived
  | yieldReceived
  | leaseExpired
  | autoClaimDelayExpired
  | yieldTimeout
  | fireAuthRaise
  | fireAuthInChange (level : Bool)
  | splitSuspect
  | peerFenceEnd
  | takeoverReady (failStep : Option (Fin 8)) (posMismatch : Bool)
  | mirrorPacketReceived (lsn : BitVec 12) (crcOk : Bool) (health : Option Word) (note : Option PairNote)
  | journalRecordReceived (r : JrnRec)
  | mirrorAckTimeout
  | mirrorDown (lane : Fin 4)
  | mirrorUp
  | soloTimer
  | healthTimer (ports : BitVec 24)
  | standbySelfTest (test : Fin 3) (ok : Bool) (errs : List (Nat × Bool))
  | netLinkChange (p : Fin 2) (up fullGigabit : Bool)
  | netFrameReceived (p : Fin 2) (frame : List Byte) (fcsOk : Bool) (tIn tEg : BitVec 64)
  | netFrameTransmit (p : Fin 2) (frame : List Byte)
  | netDomOfsWrite (req : Fin 6) (d : Fin 2) (hi : Word)
  | netDomLostWrite (req : Fin 6) (d : Fin 2)
  | domainSlotExpired (d : Fin 2)
  | netPtStepWrite (req : Fin 6) (hi : Word)
  | pressTimeAdvance
  | powerOn (mode : Fin 4)
  | railDrop (core : Bool)
  | refClkFail
  | resetNAssert
  | peerFenceInAssert
  | watchdogKick (req : Fin 6) (v : Word)
  | watchdogExpire
  | softwareReset (req : Fin 6) (v : Word)
  | resetAssert (src : Fin 10) (islands : BitVec 17)
  | resetDeassert (src : Fin 10)
  | islandClockGood (k : Fin 17) (good : Bool) (mhz : BitVec 16)
  | islandClockTimeout (k : Fin 17)
  | optionBlockLoad (errs : List (Nat × Bool))
  | nvmOptCmd (req : Fin 6) (v : Word)
  | rstBootDataWrite (req : Fin 6) (v : Word)
  | go (req : Fin 6)
  | bootComplete (fail : Option (Fin 6)) (entry : Word)
  | clrCnt (req : Fin 6)
  | housekeepingSlowRound (die : List (BitVec 16)) (ext hk : List (BitVec 12))
  | dieFastRead (die : List (BitVec 16))
  | corePwrOffTimer
  | shutClr (req : Fin 6)
  | thmLevelWrite (req : Fin 6) (second : Bool) (v : Word)
  | vbatLoss
  | trainBlockReceived (lane : Fin 52) (body : BitVec 64)
  | rxSearchDone (lane : Fin 52) (ctle : Fin 16) (taps : List Int) (fom : BitVec 8)
  | laneEqStep (lane : Fin 52)
  | laneFomCheck (lane : Fin 52) (w h : Fin 128)
  | laneIdleWake (lane : Fin 52)
  | laneSignalDetect (lane : Fin 52)
  | loopWrite (req : Fin 6) (lane : Fin 52) (value : Word)
  | laneIdleEntry (lane : Fin 52)
  | prbsCheckerLock (lane : Fin 52) (lock : Bool) (errors mbits : Nat)
  | loopbackTestEnd (lane : Fin 52) (errors mbits : Nat)
  | tileReportTimer (p slot : Fin 24) (fault : Bool)
  | heaterDriveOrBufferFault (p slot : Fin 24) (buffer : Bool)
  | portAuthorised (p : Fin 24)
  | mirrorAckReceived (lsn : BitVec 12) (nak : Bool)
  | axisJournalTimer
  deriving DecidableEq, Repr

end Sys2Proof
end

