-- ==== Sys2Proof/Decode.lean ====
section
/-!
DEFINITION. The command a word spells. No row of spec/opcode_table.json gives bits: the block takes its commands over registers, rings
and events, and none is read from a word.
-/
namespace Sys2Proof

/-- The command that a word of the table's bits spells: none, because no row gives bits. -/
def decodeTableWord (_nbits _w : Nat) : Option Instr := none

end Sys2Proof
end

