-- ==== Sys2Proof/Machine/F32.lean ====
section
/-!
DEFINITION. IEEE 754 binary32 as the FH-824 computes it (R423): round to nearest, ties to even; subnormal operands and
results are zero of the same sign; no operation is fused. A value is its 32 bits.
-/
namespace Sys2Proof.Machine

/-- A binary32 value, by its bits. -/
abbrev F32 := BitVec 32

/-- Sign, exponent field and fraction field. -/
def f32Sign (x : F32) : Bool := bit x.toNat 31
def f32Exp (x : F32) : Nat := bits x.toNat 30 23
def f32Frac (x : F32) : Nat := bits x.toNat 22 0

/-- NaN, infinity, finite, zero (a subnormal is zero). -/
def f32NaN (x : F32) : Bool := f32Exp x == 255 && f32Frac x != 0
def f32Inf (x : F32) : Bool := f32Exp x == 255 && f32Frac x == 0
def f32Finite (x : F32) : Bool := f32Exp x != 255
def f32Zero (x : F32) : Bool := f32Exp x == 0

/-- Assemble sign, exponent field and fraction field. -/
def f32Mk (neg : Bool) (e m : Nat) : F32 := BitVec.ofNat 32 (b2n neg * 2 ^ 31 + e * 2 ^ 23 + m)

/-- The default quiet NaN. PRESUMED (log 19): the bits of a NaN result are IEEE 754's default. -/
def f32QNaN : F32 := 0x7FC00000#32

/-- The 24-bit significand of a finite value; 0 for a zero or subnormal. -/
def f32Sig (x : F32) : Nat := if f32Zero x then 0 else 2 ^ 23 + f32Frac x

/-- The significand scaled to units of 2^-149 and signed. -/
def f32Units (x : F32) : Int :=
  let m := f32Sig x * 2 ^ (f32Exp x - 1)
  if f32Sign x then -(m : Int) else m

/-- Floor of num / den / 2^e and its remainder test, for an exponent e = k - 400. -/
def scaledDiv (num den k : Nat) : Nat × Nat × Nat :=
  let n := if k ≤ 400 then num * 2 ^ (400 - k) else num
  let d := if k ≤ 400 then den else den * 2 ^ (k - 400)
  (n / d, n % d, d)

/-- Round num / den to binary32 (ties to even); den > 0. -/
def f32OfRat (neg : Bool) (num den : Nat) : F32 :=
  if num = 0 then f32Mk neg 0 0
  else
    let k0 := 400 + Nat.log2 num - Nat.log2 den - 23
    let k := if (scaledDiv num den k0).1 < 2 ^ 23 then k0 - 1 else k0
    let (q, r, d) := scaledDiv num den k
    let q1 := if d < 2 * r ∨ (2 * r = d ∧ q % 2 = 1) then q + 1 else q
    let k1 := if q1 = 2 ^ 24 then k + 1 else k
    let m := if q1 = 2 ^ 24 then 2 ^ 23 else q1
    -- biased exponent = (k1 - 400) + 150
    if 255 ≤ k1 + 150 - 400 then f32Mk neg 255 0
    else if k1 + 150 ≤ 400 then f32Mk neg 0 0
    else f32Mk neg (k1 + 150 - 400) (m - 2 ^ 23)

/-- Round a signed number of units of 2^-149 over a denominator. -/
def f32OfUnits (u : Int) (den : Nat) : F32 := f32OfRat (decide (u < 0)) u.natAbs (den * 2 ^ 149)

/-- Binary32 of an integer (R423). -/
def f32OfInt (i : Int) : F32 := f32OfRat (decide (i < 0)) i.natAbs 1

/-- Binary32 of a ratio of an integer and a positive number. -/
def f32Ratio (i : Int) (den : Nat) : F32 := f32OfRat (decide (i < 0)) i.natAbs den

/-- Negation. -/
def f32Neg (x : F32) : F32 := x ^^^ 0x80000000#32

/-- Absolute value. -/
def f32Abs (x : F32) : F32 := x &&& 0x7FFFFFFF#32

/-- Addition. -/
def f32Add (x y : F32) : F32 :=
  if f32NaN x ∨ f32NaN y then f32QNaN
  else if f32Inf x then (if f32Inf y ∧ f32Sign x ≠ f32Sign y then f32QNaN else x)
  else if f32Inf y then y
  else if f32Units x + f32Units y = 0 then f32Mk (f32Sign x && f32Sign y) 0 0
  else f32OfUnits (f32Units x + f32Units y) 1

/-- Subtraction. -/
def f32Sub (x y : F32) : F32 := f32Add x (f32Neg y)

/-- Multiplication. -/
def f32Mul (x y : F32) : F32 :=
  let neg := f32Sign x != f32Sign y
  if f32NaN x ∨ f32NaN y then f32QNaN
  else if f32Inf x ∨ f32Inf y then (if f32Zero x ∨ f32Zero y then f32QNaN else f32Mk neg 255 0)
  else f32OfRat neg ((f32Units x).natAbs * (f32Units y).natAbs) (2 ^ 298)

/-- Division. -/
def f32Div (x y : F32) : F32 :=
  let neg := f32Sign x != f32Sign y
  if f32NaN x ∨ f32NaN y then f32QNaN
  else if f32Inf x then (if f32Inf y then f32QNaN else f32Mk neg 255 0)
  else if f32Inf y then f32Mk neg 0 0
  else if f32Zero y then (if f32Zero x then f32QNaN else f32Mk neg 255 0)
  else f32OfRat neg (f32Units x).natAbs (f32Units y).natAbs

/-- The order key of a value that is no NaN: infinities beyond every finite value. -/
def f32Key (x : F32) : Int := if f32Inf x then (if f32Sign x then -(2 ^ 300 : Nat) else (2 ^ 300 : Nat)) else f32Units x

/-- x < y; false with a NaN. -/
def f32Lt (x y : F32) : Bool := !f32NaN x && !f32NaN y && decide (f32Key x < f32Key y)

/-- x ≤ y; false with a NaN. -/
def f32Le (x y : F32) : Bool := !f32NaN x && !f32NaN y && decide (f32Key x ≤ f32Key y)

/-- The greater and the lesser of two values. -/
def f32Max (x y : F32) : F32 := if f32Lt x y then y else x
def f32Min (x y : F32) : F32 := if f32Lt y x then y else x

/-- round(x × scale), halves up, of a finite value. -/
def f32Round (x : F32) (scale : Nat) : Int :=
  (2 * (f32Units x * (scale : Int)) + ((2 ^ 149 : Nat) : Int)) / ((2 ^ 150 : Nat) : Int)

/-- round(x × scale), halves away from zero. -/
def f32RoundAway (x : F32) (scale : Nat) : Int :=
  let m : Nat := (2 * ((f32Units x).natAbs * scale) + 2 ^ 149) / 2 ^ 150
  if f32Units x < 0 then -(m : Int) else m

end Sys2Proof.Machine
end

