-- ==== Sys2Proof/Machine/Fblc.lean ====
section
/-!
DEFINITION. The FBLC format (05_fblc.md): header, tokens, decoder state, decoder, encoder of tokens.
-/
namespace Sys2Proof.Machine

/-- A decoder's state, the fields of R163. `hist` lists the most recent symbols, newest first; a position beyond its
end holds symbol 0 (R160). `prev` is the previous line from column 0. `tokStart` is the bit offset of the first bit of
the open token, which the error report of R167 needs. -/
structure FblcState where
  symw : Nat
  width : Nat
  hist : List Nat
  hpos : Nat
  prev : List Nat
  inStream : Bool
  tokKind : Nat
  tokSym : Nat
  tokOff : Int
  tokLeft : Nat
  tokDist : Nat
  col : Nat
  line : Nat
  lines : Nat
  bitPos : Nat
  tokStart : Nat
  deriving DecidableEq, Repr

/-- The size of the history window (R156). -/
def hWin (symw : Nat) : Nat := if symw = 2 then 65536 else 16384

/-- The reset state (R160). -/
def FblcState.reset (symw width : Nat) : FblcState :=
  { symw := symw, width := width, hist := [], hpos := 0, prev := [], inStream := false, tokKind := 0, tokSym := 0,
    tokOff := 0, tokLeft := 0, tokDist := 0, col := 0, line := 0, lines := 0, bitPos := 0, tokStart := 0 }

/-- The header of a stream (R149). -/
structure FblcHeader where
  symw : Nat
  width : Nat
  histReset : Bool
  lines : Nat
  deriving DecidableEq, Repr

/-- The largest WIDTH of a symbol width (R149). -/
def widthLimit (symw : Nat) : Nat := if symw = 2 then 16384 else 4096

/-- The header check (R149, R167 details 1 to 5 and 13): the header, or the detail of the lowest error. -/
def parseHeader (bs : List Byte) : Except Nat FblcHeader :=
  if bs.length < 16 then .error 13
  else if leAt bs 0 1 ≠ 0x46 ∨ leAt bs 1 1 ≠ 0x42 ∨ leAt bs 2 1 ≠ 1 then .error 1
  else if leAt bs 3 1 ≠ 2 ∧ leAt bs 3 1 ≠ 8 then .error 2
  else if leAt bs 4 2 = 0 ∨ leAt bs 4 2 % 64 ≠ 0 ∨ widthLimit (leAt bs 3 1) < leAt bs 4 2 then .error 3
  else if leAt bs 8 4 = 0 ∨ 16777215 < leAt bs 8 4 then .error 4
  else if leAt bs 6 2 / 2 ≠ 0 ∨ leAt bs 12 4 ≠ 0 then .error 5
  else .ok { symw := leAt bs 3 1, width := leAt bs 4 2, histReset := bit (leAt bs 6 2) 0, lines := leAt bs 8 4 }

/-- The header's 16 bytes (R149). -/
def headerBytes (h : FblcHeader) : List Byte :=
  [0x46, 0x42, 0x01, BitVec.ofNat 8 h.symw] ++ leBytes 2 h.width ++ leBytes 2 (b2n h.histReset) ++
  leBytes 4 h.lines ++ leBytes 4 0

/-- The bits of a stream after its header, as one number, most significant bit first (R150). -/
structure BitStream where
  len : Nat
  val : Nat
  deriving DecidableEq, Repr

/-- The bit stream of a byte string (R5, R150). -/
def BitStream.ofBytes (bs : List Byte) : BitStream :=
  { len := 8 * bs.length, val := bs.foldl (fun a b => a * 256 + b.toNat) 0 }

/-- Bit `i` of the stream, none past its end. -/
def BitStream.get (s : BitStream) (i : Nat) : Option Bool :=
  if i < s.len then some (bit s.val (s.len - 1 - i)) else none

/-- `n` bits from `pos` as a number, most significant first; none when the data ends. -/
def BitStream.take (s : BitStream) (pos n : Nat) : Option Nat :=
  if pos + n ≤ s.len then some (s.val / 2 ^ (s.len - pos - n) % 2 ^ n) else none

/-- The detail of the first limit that a number passes, limits listed with the lowest detail first (R167). -/
def overLimit (limits : List (Nat × Nat)) (n : Nat) : Option Nat := (limits.find? (fun p => p.1 < n)).map (·.2)

/-- The value bits of a gamma code: `k` bits are left, `acc` holds those read. An error is certain as soon as the smallest
value still possible passes its limit (R153, R167). -/
def gammaValue (s : BitStream) (limits : List (Nat × Nat)) : Nat → Nat → Nat → Except Nat (Nat × Nat)
  | k, acc, pos =>
    match overLimit limits (acc * 2 ^ k) with
    | some e => .error e
    | none =>
      match k with
      | 0 => .ok (acc, pos)
      | k + 1 =>
        match s.get pos with
        | none => .error 12
        | some b => gammaValue s limits k (2 * acc + b2n b) (pos + 1)

/-- The zero bits of a gamma code, `z` read so far; 24 zeros are error 6 (R153). No limit is passed for certain while zeros
last, since a code of 24 zeros has no value (R167; DEDUCED, log 2). -/
def gammaZeros (s : BitStream) (limits : List (Nat × Nat)) : Nat → Nat → Nat → Except Nat (Nat × Nat)
  | 0, _, _ => .error 6
  | fuel + 1, z, pos =>
    match s.get pos with
    | none => .error 12
    | some true => gammaValue s limits z 1 (pos + 1)
    | some false => if 24 ≤ z + 1 then .error 6 else gammaZeros s limits fuel (z + 1) (pos + 1)

/-- A gamma code at `pos` held to limits (largest value, detail): value and next position, or the error's detail. -/
def gamma (s : BitStream) (limits : List (Nat × Nat)) (pos : Nat) : Except Nat (Nat × Nat) := gammaZeros s limits 24 0 pos

/-- What reading one token gives (R154). -/
inductive TokenRead where
  | token (st : FblcState)
  | endOfStream (bitPos : Nat)
  | error (detail : Nat)
  deriving DecidableEq, Repr

/-- Symbols of the open stream not yet produced (R151). -/
def FblcState.remaining (st : FblcState) : Nat := (st.lines - st.line) * st.width - st.col

/-- The bits of END after the last symbol, one by one: any other bit is error 10 (R158). -/
def readEnd (s : BitStream) : List Bool → Nat → TokenRead
  | [], pos => .endOfStream pos
  | w :: ws, pos =>
    match s.get pos with
    | none => .error 12
    | some b => if b = w then readEnd s ws (pos + 1) else .error 10

/-- The next token of an open stream (R154 to R158, errors by R167). -/
def readToken (s : BitStream) (st : FblcState) : TokenRead :=
  if st.remaining = 0 then readEnd s [true, false, true, true, true] st.bitPos
  else
    match s.take st.bitPos 2 with
    | none => .error 12
    | some 0 =>
      match gamma s [(st.remaining, 7)] (st.bitPos + 2) with
      | .error e => .error e
      | .ok (n, p) => .token { st with tokKind := 1, tokLeft := n, bitPos := p, tokStart := st.bitPos }
    | some 1 =>
      match s.take (st.bitPos + 2) st.symw with
      | none => .error 12
      | some v =>
        match gamma s [(st.remaining, 7)] (st.bitPos + 2 + st.symw) with
        | .error e => .error e
        | .ok (n, p) => .token { st with tokKind := 2, tokSym := v, tokLeft := n, bitPos := p, tokStart := st.bitPos }
    | some 2 =>
      match s.take (st.bitPos + 2) 3 with
      | none => .error 12
      | some 7 => .error 11
      | some v =>
        match gamma s [(st.remaining, 7), (st.width - st.col, 8)] (st.bitPos + 5) with
        | .error e => .error e
        | .ok (n, p) =>
          .token { st with tokKind := 3, tokOff := (v : Int) - 3, tokLeft := n, bitPos := p, tokStart := st.bitPos }
    | some _ =>
      match gamma s [(hWin st.symw, 9)] (st.bitPos + 2) with
      | .error e => .error e
      | .ok (d, p) =>
        match gamma s [(st.remaining, 7)] p with
        | .error e => .error e
        | .ok (n, p') => .token { st with tokKind := 4, tokDist := d, tokLeft := n, bitPos := p', tokStart := st.bitPos }

/-- The symbol VERTICAL reads at column `c` of the previous line, 0 outside the line (R155). -/
def verticalSym (st : FblcState) (c : Nat) (o : Int) : Nat :=
  if 0 ≤ (c : Int) + o ∧ (c : Int) + o < st.width then st.prev.getD ((c : Int) + o).toNat 0 else 0

/-- The symbol `d` positions back in the window (R156, R164). -/
def histSym (st : FblcState) (d : Nat) : Nat := st.hist.getD (d - 1) 0

/-- Append one produced symbol: window, column, and at the line's end the previous line (R164). -/
def pushSym (st : FblcState) (v : Nat) : FblcState :=
  if st.col + 1 = st.width then
    { st with hist := (v :: st.hist).take (hWin st.symw), hpos := (st.hpos + 1) % hWin st.symw,
              prev := ((v :: st.hist).take st.width).reverse, col := 0, line := st.line + 1 }
  else
    { st with hist := (v :: st.hist).take (hWin st.symw), hpos := (st.hpos + 1) % hWin st.symw, col := st.col + 1 }

/-- Count one symbol of the pending token as produced. -/
def tokenDown (st : FblcState) : FblcState :=
  if st.tokLeft ≤ 1 then { st with tokKind := 0, tokSym := 0, tokOff := 0, tokLeft := 0, tokDist := 0 }
  else { st with tokLeft := st.tokLeft - 1 }

/-- Close the stream at END (R165). -/
def closeStream (st : FblcState) : FblcState :=
  { st with inStream := false, tokKind := 0, tokSym := 0, tokOff := 0, tokLeft := 0, tokDist := 0,
            col := 0, line := 0, lines := 0, bitPos := 0, tokStart := 0 }

/-- What a run of the decoder ended with: it stopped where asked (`more`), it met END at a bit offset, or it found an
error (detail, bit offset of the token by R167). -/
inductive DecodeEnd where
  | more
  | ended (bits : Nat)
  | bad (detail bitOffset : Nat)
  deriving DecidableEq, Repr

/-- Run the decoder until `stopLine` lines are complete, END, or an error. The symbols produced are returned newest
first. `fuel` bounds the tokens and symbols together. -/
def decodeLoop (s : BitStream) (stopLine : Nat) : Nat → FblcState → List Nat → FblcState × List Nat × DecodeEnd
  | 0, st, out => (st, out, .more)
  | fuel + 1, st, out =>
    if st.tokKind = 0 then
      if stopLine ≤ st.line ∧ st.line < st.lines then (st, out, .more)
      else
        match readToken s st with
        | .error e => (st, out, .bad e st.bitPos)
        | .endOfStream p => (closeStream st, out, .ended p)
        | .token st' => decodeLoop s stopLine fuel st' out
    else if stopLine ≤ st.line then (st, out, .more)
    else
      match st.tokKind with
      | 1 =>
        match s.take st.bitPos st.symw with
        | none => (st, out, .bad 12 st.tokStart)
        | some v => decodeLoop s stopLine fuel (tokenDown (pushSym { st with bitPos := st.bitPos + st.symw } v)) (v :: out)
      | 2 => decodeLoop s stopLine fuel (tokenDown (pushSym st st.tokSym)) (st.tokSym :: out)
      | 3 =>
        decodeLoop s stopLine fuel (tokenDown (pushSym st (verticalSym st st.col st.tokOff)))
          (verticalSym st st.col st.tokOff :: out)
      | _ =>
        decodeLoop s stopLine fuel (tokenDown (pushSym st (histSym st st.tokDist))) (histSym st st.tokDist :: out)

/-- Open a stream on a state (R161): from the reset state when asked, else from the band's stream-boundary state. -/
def openStream (h : FblcHeader) (fromReset : Bool) (st : FblcState) : FblcState :=
  { (if fromReset then FblcState.reset h.symw h.width else st) with
    symw := h.symw, width := h.width, inStream := true, tokKind := 0, tokLeft := 0, col := 0, line := 0,
    lines := h.lines, bitPos := 0, tokStart := 0 }

/-- Symbols packed into bytes, least significant symbol first (R152). -/
def packSyms (symw : Nat) : List Nat → List Byte
  | [] => []
  | a :: b :: c :: d :: r =>
    if symw = 2 then BitVec.ofNat 8 (a % 4 + 4 * (b % 4) + 16 * (c % 4) + 64 * (d % 4)) :: packSyms symw r
    else [BitVec.ofNat 8 a, BitVec.ofNat 8 b, BitVec.ofNat 8 c, BitVec.ofNat 8 d] ++ packSyms symw r
  | a :: r =>
    if symw = 2 then [BitVec.ofNat 8 ((a :: r).reverse.foldl (fun x v => 4 * x + v % 4) 0)]
    else BitVec.ofNat 8 a :: r.map (BitVec.ofNat 8)

/-- The symbols of packed bytes (R152). -/
def unpackSyms (symw : Nat) : List Byte → List Nat
  | [] => []
  | b :: bs =>
    if symw = 2 then bits b.toNat 1 0 :: bits b.toNat 3 2 :: bits b.toNat 5 4 :: bits b.toNat 7 6 :: unpackSyms symw bs
    else b.toNat :: unpackSyms symw bs

/-- The circular window as HIST holds it, index 0 first (R163, R164). -/
def histArray (st : FblcState) : List Nat :=
  (List.range (hWin st.symw)).map (fun i => st.hist.getD ((st.hpos + hWin st.symw - 1 - i) % hWin st.symw) 0)

/-- Bytes 0 to 20,539 of the saved state (R163). -/
def stateBody (st : FblcState) : List Byte :=
  packSyms st.symw (histArray st) ++
  (packSyms st.symw ((List.range st.width).map (fun c => st.prev.getD c 0)) ++ List.replicate 4096 0).take 4096 ++
  [0x01, BitVec.ofNat 8 st.symw] ++ leBytes 2 st.width ++ leBytes 4 st.hpos ++
  [BitVec.ofNat 8 (b2n st.inStream + 2 * b2n (st.tokKind ≠ 0)), BitVec.ofNat 8 st.tokKind, BitVec.ofNat 8 st.tokSym,
   BitVec.ofInt 8 st.tokOff] ++ leBytes 4 st.tokLeft ++ leBytes 4 st.tokDist ++ leBytes 4 st.col ++ leBytes 4 st.line ++
  leBytes 4 st.lines ++ leBytes 8 st.bitPos ++ leBytes 20 0

/-- The saved state of 20,544 bytes with its CHECK (R163). -/
def stateBytes (st : FblcState) : List Byte := stateBody st ++ leBytes 4 (crc32c (stateBody st))

/-- The state in a 20,544-byte buffer (R163), when its CHECK and FORMAT hold; else the detail of R173. -/
def parseState (bs : List Byte) : Except Nat FblcState :=
  if leAt bs 20540 4 ≠ crc32c (slice bs 0 20540) then .error 1
  else if leAt bs 20480 1 ≠ 1 then .error 2
  else
    .ok { symw := leAt bs 20481 1, width := leAt bs 20482 2,
          hist := (List.range (hWin (leAt bs 20481 1))).map (fun k =>
            (unpackSyms (leAt bs 20481 1) (slice bs 0 16384)).getD
              ((leAt bs 20484 4 + hWin (leAt bs 20481 1) - 1 - k) % hWin (leAt bs 20481 1)) 0),
          hpos := leAt bs 20484 4,
          prev := (unpackSyms (leAt bs 20481 1) (slice bs 16384 4096)).take (leAt bs 20482 2),
          inStream := bit (leAt bs 20488 1) 0, tokKind := leAt bs 20489 1, tokSym := leAt bs 20490 1,
          tokOff := sgn 8 (leAt bs 20491 1), tokLeft := leAt bs 20492 4, tokDist := leAt bs 20496 4,
          col := leAt bs 20500 4, line := leAt bs 20504 4, lines := leAt bs 20508 4, bitPos := leAt bs 20512 8,
          tokStart := leAt bs 20512 8 }

/-- A token as an encoder emits it (R154). -/
inductive Token where
  | literal (syms : List Nat)
  | run (v n : Nat)
  | vertical (o : Int) (n : Nat)
  | history (d n : Nat)
  deriving DecidableEq, Repr

/-- The bits of a number, `n` of them, most significant first. -/
def bitsMsb : Nat → Nat → List Bool
  | 0, _ => []
  | n + 1, v => bit v n :: bitsMsb n v

/-- The gamma code of a number (R153). -/
def gammaBits (n : Nat) : List Bool := List.replicate (Nat.log2 n) false ++ bitsMsb (Nat.log2 n + 1) n

/-- The bits of a token (R154). -/
def tokenBits (symw : Nat) : Token → List Bool
  | .literal vs => [false, false] ++ gammaBits vs.length ++ vs.flatMap (bitsMsb symw)
  | .run v n => [false, true] ++ bitsMsb symw v ++ gammaBits n
  | .vertical o n => [true, false] ++ bitsMsb 3 (o + 3).toNat ++ gammaBits n
  | .history d n => [true, true] ++ gammaBits d ++ gammaBits n

/-- Bits packed into bytes, most significant first, the last byte filled with 0 (R5, R159). -/
def packBits : Nat → List Bool → List Byte
  | 0, _ => []
  | _, [] => []
  | fuel + 1, bs =>
    BitVec.ofNat 8 (((bs.take 8) ++ List.replicate (8 - (bs.take 8).length) false).foldl (fun a b => 2 * a + b2n b) 0) ::
      packBits fuel (bs.drop 8)

/-- The bytes of a stream: header, tokens, END, padding (R149, R154, R159). -/
def streamBytes (h : FblcHeader) (ts : List Token) : List Byte :=
  headerBytes h ++ packBits ((ts.flatMap (tokenBits h.symw)).length + 5)
    (ts.flatMap (tokenBits h.symw) ++ [true, false, true, true, true])

/-- Decode a whole stream body of `h.lines` lines from a state: the state at END, the symbols in order, and how it
ended. -/
def decodeAll (h : FblcHeader) (fromReset : Bool) (st : FblcState) (body : List Byte) : FblcState × List Nat × DecodeEnd :=
  let r := decodeLoop (BitStream.ofBytes body) (h.lines + 1) (2 * h.lines * h.width + 2) (openStream h fromReset st) []
  (r.1, r.2.1.reverse, r.2.2)

end Sys2Proof.Machine
end

