-- ==== Sys2Proof/Config.lean ====
section
/-!
DEFINITION. What the spec leaves open and the machine still computes with: free values. None has a body a proof can see.
-/
namespace Sys2Proof.Config

/-- Byte `k` of the PAYLOAD of an entry with this code and these payload fields, where the manual names the fields and not
their places (R82). Free value (log 5). -/
opaque payloadByte : Nat → List Nat → Nat → Byte

/-- Taps of write levelling that a move of the DQS oscillator count from a base to a value implies (R462). Free value
(log 6). -/
opaque oscTaps : Nat → Nat → Int

/-- Which of several widest runs of points without an error is the eye (R459). Free value (log 7). -/
opaque eyeTie : List Bool → Nat

/-- Which of several details or reasons that hold together is reported, where the manual gives no order. Free value (log 8). -/
opaque oneOf : List Nat → Nat

/-- The tokens a compression unit chooses for a raster: a function of SYMW, WIDTH, LINES, the starting state and the raster
(R175). Free value (log 9); the machine uses it only when it decodes to the raster. -/
opaque cmxTokens : Nat → Nat → Nat → Machine.FblcState → List Nat → List Machine.Token

/-- Byte `k` of a destination whose content is undefined after a failed job with this sequence number (R180), or of an MRAM word that
cannot be corrected (R522, log 45). Free value (log 10). -/
opaque undefByte : Nat → Nat → Byte

/-- BYTES_IN of a job that did not complete OK, by status and sequence number (R182). Free value (log 11). -/
opaque cmxBytesIn : Nat → Nat → Nat

/-- BIT_OFFSET of an error found in a stream header, which no token holds (R167, R182). Free value (log 12). -/
opaque headerErrBit : Nat → Nat

/-- Bytes of a journal record of a kind with so many entries (R466, R468 give no encoding). Free value (log 13). -/
opaque recordBytes : Nat → Nat → Nat

/-- The declaration of the tile fitted at a port and slot before any DECLARE report named it (R216). Free value (log 14). -/
opaque tileDecl : Nat → Nat → DescBits

/-- The thermal levels of a maker's own choice before the first THERM (R284): WARN, CLAMP, SHUT, HYST, FIRE_MIN by index.
Free value (log 15). -/
opaque makerTherm : Nat → Nat → Nat → Int

/-- Timed loads a tile queues beyond two of each opcode (R211). Free value (log 16). -/
opaque extraLoads : Nat → Nat → Nat

/-- A responder's own time TAU from ECHO to ECHO_RSP in 1/16 ns (R205), by port, slot and nonce. Free value (log 17). -/
opaque echoTau : Nat → Nat → Nat → Nat

/-- The first 64-column group that had not started when a tile stopped (R288), by port, slot and time. Free value (log 18). -/
opaque stopGroup : Nat → Nat → Nat → Nat

/-- log10 and the natural logarithm in binary32: the manual states no rounding for them (R319, R345, R423 on). Free value (log 20). -/
opaque log10 : BitVec 32 → BitVec 32
opaque ln : BitVec 32 → BitVec 32

/-- The age REG_LOST gives for a plane that never had a measurement (R346). Free value (log 22). -/
opaque noAge : Nat → Nat

/-- Byte `k` of a snapshot entry for a job line (R317, R318 give no layout). Free value (log 23). -/
opaque snapByte : Nat → Nat → Byte

/-- Whether a chain's drivers took a SYNC that came back mismatched (R360), by bar and update. Free value (log 24). -/
opaque syncTaken : Nat → Nat → Bool

/-- What a NaN, an infinity or a value beyond the destination's range becomes as an integer output of a loop slot (R429, R430, R435), by
destination. Free value (log 31). -/
opaque nonFinite : Nat → BitVec 32 → Int

end Sys2Proof.Config
end

