-- ==== Sys2Proof/Machine/Events.lean ====
section
/-!
DEFINITION. The event and completion codes of the manual (R13: block number in the high byte, code in the low byte), by name.
-/
namespace Sys2Proof.Machine.Ev

def ACCESS_ERROR : Nat := 0x0001
def RESET_DONE : Nat := 0x0101
def CLOCK_FAIL : Nat := 0x0102
def OPT_BAD : Nat := 0x0103
def VBAT_LOST : Nat := 0x0104
def BOOT_FAIL : Nat := 0x0105
def THM_WARN : Nat := 0x0201
def THM_THROTTLE : Nat := 0x0202
def THM_SHUTDOWN : Nat := 0x0203
def SENSOR_BROKEN : Nat := 0x0204
def SENSORS_LOST : Nat := 0x0205
def MRAM_WINDOW : Nat := 0x0206
def RING_FAULT : Nat := 0x0301
def PHASE_MISMATCH : Nat := 0x0302
def DOORBELL_INVALID : Nat := 0x0303
def DMA_ERROR : Nat := 0x0304
def FENCE_STALL : Nat := 0x0305
def EVT_LOST : Nat := 0x0306
def HOST_RESET_REPORT : Nat := 0x0307
def NOP_DONE : Nat := 0x0310
def FENCE_DONE : Nat := 0x0311
def DESC_BAD : Nat := 0x0312
def MBX_DONE : Nat := 0x0320
def JOB_STARTED : Nat := 0x0401
def JOB_REFUSED : Nat := 0x0402
def JOB_ENDED : Nat := 0x0403
def PAGE_COMMITTED : Nat := 0x0404
def PAGE_REFUSED : Nat := 0x0405
def PAGE_RETIRED : Nat := 0x0406
def RECOVERY_STOP : Nat := 0x0410
def WEB_PARKED : Nat := 0x0411
def RESUME_START : Nat := 0x0412
def RESUMED : Nat := 0x0413
def LOCK_FAIL : Nat := 0x0414
def RECOVERY_ABORT : Nat := 0x0415
def PERIOD_REFUSED : Nat := 0x0440
def PERIOD_APPLIED : Nat := 0x0441
def WEB_DEV_ENTER : Nat := 0x0442
def WEB_DEV_LEAVE : Nat := 0x0443
def WEB_STOP_TRIP : Nat := 0x0444
def DECODE_ERROR : Nat := 0x0501
def STREAM_POISON : Nat := 0x0502
def CMX_DONE : Nat := 0x0601
def CMX_DMA_FAIL : Nat := 0x0602
def GEOMETRY_INVALID : Nat := 0x0710
def TILE_WARN : Nat := 0x0720
def TILE_CLAMP_ENTER : Nat := 0x0721
def TILE_CLAMP_LEAVE : Nat := 0x0722
def TILE_COLD : Nat := 0x0723
def TEMP_STALE : Nat := 0x0724
def THERMAL_CLEARED : Nat := 0x0725
def PORT_UP : Nat := 0x0801
def PORT_DOWN : Nat := 0x0802
def PORT_FAULT : Nat := 0x0803
def PORT_RETIRED : Nat := 0x0804
def LINE_LOST : Nat := 0x0805
def CONTROL_REFUSED : Nat := 0x0806
def TILE_FAULT : Nat := 0x0807
def DECLARE_INVALID : Nat := 0x0808
def TILE_CHANGED : Nat := 0x0809
def FIRE_LATENCY_SHORT : Nat := 0x080A
def SWEEP_DONE : Nat := 0x0901
def NOZZLE_RETIRED : Nat := 0x0902
def COLUMN_DEAD : Nat := 0x0903
def COLUMN_REVIVED : Nat := 0x0904
def BASELINE : Nat := 0x0905
def TILE_ADOPTED : Nat := 0x0906
def TILE_UNADOPTED : Nat := 0x0907
def WRITE_HELD : Nat := 0x0908
def WRITE_FLUSHED : Nat := 0x0909
def SUSPECT_FULL : Nat := 0x090A
def LEDGER_CORRUPT : Nat := 0x090B
def CMD_REFUSED : Nat := 0x090C
def CAL_DUE : Nat := 0x0A01
def CAL_STARTED : Nat := 0x0A02
def CAL_DONE : Nat := 0x0A03
def CAL_FAILED : Nat := 0x0A04
def PT_RESULT : Nat := 0x0A10
def PT_SNAP_OVERRUN : Nat := 0x0A11
def PT_PROBE_FULL : Nat := 0x0A12
def PT_QUAL_ALARM : Nat := 0x0A13
def FRAME_BUF_DONE : Nat := 0x0B01
def CAPTURE_DONE : Nat := 0x0B02
def CAM_FRAME : Nat := 0x0B03
def STREAM_UNASSIGNED : Nat := 0x0B04
def NO_BUFFER : Nat := 0x0B05
def REG_LOST : Nat := 0x0B06
def CTX_FAULT : Nat := 0x0B07
def CAM_REFUSED : Nat := 0x0B08
def BAR_FAULT : Nat := 0x0C01
def LED_FAULT : Nat := 0x0C02
def LED_CUTOFF : Nat := 0x0C03
def LED_RESUMED : Nat := 0x0C04
def SYNC_MISSED : Nat := 0x0C05
def LIGHT_GAP_SEEN : Nat := 0x0C06
def AXIS_FAULT : Nat := 0x0D01
def LIMIT_STOP : Nat := 0x0D02
def AXIS_OVERSHOOT : Nat := 0x0D03
def GEAR_CHANGE : Nat := 0x0D04
def GEAR_OVERSPEED : Nat := 0x0D05
def WEB_DRIVE_LOST : Nat := 0x0D06
def WEB_RATE_LIMIT : Nat := 0x0D07
def WEB_PARK_FAIL : Nat := 0x0D08
def INPUT_FAULT : Nat := 0x0E01
def REF_FAULT : Nat := 0x0E02
def ILLEGAL_TRANSITION : Nat := 0x0E03
def MASTER_MISMATCH : Nat := 0x0E04
def MASTER_LOST : Nat := 0x0E05
def LOOP_FAULT : Nat := 0x0F01
def LOOP_INPUT_INVALID : Nat := 0x0F02
def DRAM_INIT_DONE : Nat := 0x1001
def DRAM_READY : Nat := 0x1002
def DRAM_UE : Nat := 0x1003
def DEVICE_SUSPECT : Nat := 0x1004
def DRAM_HOT : Nat := 0x1005
def INIT_FAIL : Nat := 0x1006
def LEASE_CLAIMED : Nat := 0x1101
def LEASE_LOST : Nat := 0x1102
def MIRROR_DOWN : Nat := 0x1103
def MIRROR_UP : Nat := 0x1104
def SPLIT_SUSPECT : Nat := 0x1105
def TAKEOVER_START : Nat := 0x1106
def TAKEOVER_READY : Nat := 0x1107
def TAKEOVER_FAIL : Nat := 0x1108
def FAILOVER : Nat := 0x1109
def HEALTH_CHANGE : Nat := 0x110A
def RESYNC_DONE : Nat := 0x110B
def NET_LINK : Nat := 0x1201
def DOMAIN_SWITCH : Nat := 0x1202
def HOLDOVER : Nat := 0x1203
def STEP_REFUSED : Nat := 0x1204
def LANE_FAULT : Nat := 0x1301
def LOW_FOM : Nat := 0x1302
def LOOP_FAIL : Nat := 0x1303
def LANE_TRAINED : Nat := 0x1304
def NVM_UE : Nat := 0x1401
def OPT_WRITTEN : Nat := 0x1402
def OPT_REFUSED : Nat := 0x1403
def PIN_EDGE : Nat := 0x1501

end Sys2Proof.Machine.Ev
end

