-- ==== Sys2Proof/Machine/Memory.lean ====
section
/-!
DEFINITION. Byte memories in canonical form: a list of cells, addresses strictly rising, no cell equal to what an unlisted
address reads as (0). Used for device DRAM, MRAM, firmware SRAM and the part's writes to host memory.
-/
namespace Sys2Proof.Machine

/-- A memory: its listed cells. -/
abbrev Memory := List Host.Cell

namespace Mem

/-- What an unlisted address reads as. DESIGN CHOICE (log 4): the spec gives no power-on contents. -/
def empty : Byte := 0

/-- The byte at an address. -/
def read (m : Memory) (a : Nat) : Byte :=
  match m with
  | [] => empty
  | c :: r => if c.1 = a then c.2 else read r a

/-- List a cell in address order, in place of the one at its address. -/
def ins (m : Memory) (a : Nat) (v : Byte) : Memory :=
  match m with
  | [] => [(a, v)]
  | c :: r => if c.1 < a then c :: ins r a v else if c.1 = a then (a, v) :: r else (a, v) :: c :: r

/-- Write one byte: a cell that takes the unlisted byte is not listed. -/
def write (m : Memory) (a : Nat) (v : Byte) : Memory :=
  if v = empty then m.filter (fun c => c.1 != a) else ins m a v

/-- Write a byte string from an address upwards. -/
def writes (m : Memory) (a : Nat) : List Byte → Memory
  | [] => m
  | v :: vs => writes (write m a v) (a + 1) vs

/-- Read `n` bytes from an address upwards. -/
def reads (m : Memory) (a : Nat) : Nat → List Byte
  | 0 => []
  | n + 1 => read m a :: reads m (a + 1) n

/-- Are all addresses of the list above `a`? -/
def above (a : Nat) : Memory → Bool
  | [] => true
  | c :: _ => Nat.blt a c.1

/-- The canonical form: addresses strictly rising, no cell holds the unlisted byte. -/
def wf : Memory → Bool
  | [] => true
  | c :: r => decide (c.2 ≠ empty) && above c.1 r && wf r

end Mem

/-- The canonical form of a memory. -/
abbrev Memory.wf (m : Memory) : Bool := Mem.wf m

end Sys2Proof.Machine

namespace Sys2Proof.Machine

/-- A sparse map by a number, keys strictly rising. -/
abbrev AMap (α : Type) := List (Nat × α)

namespace AMap

/-- The value at a key, or `d` where none is listed. -/
def get {α : Type} (m : AMap α) (k : Nat) (d : α) : α :=
  match m with
  | [] => d
  | e :: r => if e.1 = k then e.2 else get r k d

/-- Set the value at a key. -/
def set {α : Type} (m : AMap α) (k : Nat) (v : α) : AMap α :=
  match m with
  | [] => [(k, v)]
  | e :: r => if e.1 < k then e :: set r k v else if e.1 = k then (k, v) :: r else (k, v) :: e :: r

/-- Forget a key. -/
def del {α : Type} (m : AMap α) (k : Nat) : AMap α := m.filter (fun e => e.1 != k)

/-- Is a key listed? -/
def has {α : Type} (m : AMap α) (k : Nat) : Bool := m.any (fun e => e.1 == k)

end AMap
end Sys2Proof.Machine
end

