-- ==== Sys2Proof/Machine/RegMap.lean ====
section
/-!
DEFINITION. The register map of BAR0 (R557, R558) as data: for every register the manual's tables give, its name, its offset,
its fields, the access class of every bit (R11) and its reset value. One row stands for a whole array of a register and for
all units of its kind. The rows follow the register tables of the chapters; the masks are those of the fields' access codes.
-/
namespace Sys2Proof.Machine

/-- A field of a register (R3, R7): the register's BAR0 offset and the field's bit range [hi:lo]. -/
structure Fld where
  off : Nat
  hi : Nat
  lo : Nat
  deriving DecidableEq, Repr

/-- One register, or one array of registers with up to two strides: `off + s1 * i + s2 * j` for `i < n1`, `j < n2`.
`rw`: bits software writes (R11 RW, RWL); `w1c`: bits cleared by writing 1; `rc`: the register returns to its reset
value when read; `reset`: the value at reset. Bits of access RO belong to no mask, those of WO and W1S are not stored. -/
structure RegRow where
  off : Nat
  n1 : Nat
  s1 : Nat
  n2 : Nat
  s2 : Nat
  rw : Nat
  w1c : Nat
  rc : Bool
  reset : Nat
  deriving DecidableEq, Repr

/-- Does offset `a` fall on an element of the row's array? -/
def RegRow.hit (r : RegRow) (a : Nat) : Bool :=
  Nat.ble r.off a && Nat.blt ((a - r.off) / r.s1) r.n1 &&
  Nat.blt ((a - r.off) % r.s1 / r.s2) r.n2 && Nat.beq ((a - r.off) % r.s1 % r.s2) 0

def PGP_LINE_PERIOD : Nat := 0x40100
def PGP_LINE_PERIOD_PERIOD : Fld := ⟨PGP_LINE_PERIOD, 31, 0⟩
def PGP_PERIOD_ACTIVE : Nat := 0x40104
def PGP_PERIOD_ACTIVE_PERIOD : Fld := ⟨PGP_PERIOD_ACTIVE, 31, 0⟩
def PGP_CLK_CTRL : Nat := 0x40108
def PGP_CLK_CTRL_APPLY_AT_PAGE : Fld := ⟨PGP_CLK_CTRL, 0, 0⟩
def PGP_CLK_CTRL_WIN_EN : Fld := ⟨PGP_CLK_CTRL, 1, 1⟩
def PGP_CLK_CTRL_CLR_HALT : Fld := ⟨PGP_CLK_CTRL, 2, 2⟩
def PGP_CLK_STATUS : Nat := 0x4010C
def PGP_CLK_STATUS_CLK_STATE : Fld := ⟨PGP_CLK_STATUS, 1, 0⟩
def PGP_CLK_STATUS_PERIOD_PEND : Fld := ⟨PGP_CLK_STATUS, 2, 2⟩
def PGP_CLK_STATUS_APPLY_PEND : Fld := ⟨PGP_CLK_STATUS, 3, 3⟩
def PGP_CLK_STATUS_IN_DEV : Fld := ⟨PGP_CLK_STATUS, 4, 4⟩
def PGP_WEB_SCALE : Nat := 0x40110
def PGP_WEB_SCALE_SCALE : Fld := ⟨PGP_WEB_SCALE, 31, 0⟩
def PGP_WEB_DEV_WIN : Nat := 0x40114
def PGP_WEB_DEV_WIN_WIN : Fld := ⟨PGP_WEB_DEV_WIN, 15, 0⟩
def PGP_WEB_STOP_WIN : Nat := 0x40118
def PGP_WEB_STOP_WIN_WIN : Fld := ⟨PGP_WEB_STOP_WIN, 15, 0⟩
def PGP_WEB_ERR : Nat := 0x4011C
def PGP_WEB_ERR_ERR : Fld := ⟨PGP_WEB_ERR, 31, 0⟩
def PGP_WEB_ERR_PEAK : Nat := 0x40120
def PGP_WEB_ERR_PEAK_PEAK : Fld := ⟨PGP_WEB_ERR_PEAK, 31, 0⟩
def PGP_WEB_DEV_COUNT : Nat := 0x40124
def PGP_WEB_DEV_COUNT_COUNT : Fld := ⟨PGP_WEB_DEV_COUNT, 31, 0⟩
def PLN_GEOM (i : Nat) : Nat := 0x80000 + 0x2000 * i
def PLN_GEOM_TILES (i : Nat) : Fld := ⟨PLN_GEOM i, 6, 0⟩
def PLN_GEOM_BANDS (i : Nat) : Fld := ⟨PLN_GEOM i, 20, 16⟩
def PLN_DOWNWEB_INT (i : Nat) : Nat := 0x80004 + 0x2000 * i
def PLN_DOWNWEB_INT_INT (i : Nat) : Fld := ⟨PLN_DOWNWEB_INT i, 23, 0⟩
def PLN_DOWNWEB_FRAC (i : Nat) : Nat := 0x80008 + 0x2000 * i
def PLN_DOWNWEB_FRAC_FRAC (i : Nat) : Fld := ⟨PLN_DOWNWEB_FRAC i, 15, 0⟩
def PLN_OFFSET_LINES (i : Nat) : Nat := 0x8000C + 0x2000 * i
def PLN_OFFSET_LINES_LINES (i : Nat) : Fld := ⟨PLN_OFFSET_LINES i, 23, 0⟩
def PLN_OFFSET_DELAY (i : Nat) : Nat := 0x80010 + 0x2000 * i
def PLN_OFFSET_DELAY_DELAY (i : Nat) : Fld := ⟨PLN_OFFSET_DELAY i, 23, 0⟩
def PLN_STITCH_CTRL (i : Nat) : Nat := 0x80014 + 0x2000 * i
def PLN_STITCH_CTRL_ROUTE_DEAD (i : Nat) : Fld := ⟨PLN_STITCH_CTRL i, 0, 0⟩
def PLN_STITCH_MASK (u : Nat) (i : Nat) : Nat := 0x80100 + 0x2000 * u + 0x4 * i
def PLN_STITCH_MASK_MASK (u : Nat) (i : Nat) : Fld := ⟨PLN_STITCH_MASK u i, 31, 0⟩
def PLN_TILE_MAP (u : Nat) (i : Nat) : Nat := 0x80400 + 0x2000 * u + 0x4 * i
def PLN_TILE_MAP_PORT (u : Nat) (i : Nat) : Fld := ⟨PLN_TILE_MAP u i, 4, 0⟩
def PLN_TILE_MAP_SLOT (u : Nat) (i : Nat) : Fld := ⟨PLN_TILE_MAP u i, 12, 8⟩
def PLN_TILE_MAP_DWTRIM (u : Nat) (i : Nat) : Fld := ⟨PLN_TILE_MAP u i, 23, 16⟩
def PLN_TILE_MAP_VALID (u : Nat) (i : Nat) : Fld := ⟨PLN_TILE_MAP u i, 31, 31⟩
def HIF_RING_BASE_LO (i : Nat) : Nat := 0x30000 + 0x40 * i
def HIF_RING_BASE_LO_ADDR (i : Nat) : Fld := ⟨HIF_RING_BASE_LO i, 31, 12⟩
def HIF_RING_BASE_HI (i : Nat) : Nat := 0x30004 + 0x40 * i
def HIF_RING_BASE_HI_ADDR (i : Nat) : Fld := ⟨HIF_RING_BASE_HI i, 31, 0⟩
def HIF_RING_CFG (i : Nat) : Nat := 0x30008 + 0x40 * i
def HIF_RING_CFG_LOG2SIZE (i : Nat) : Fld := ⟨HIF_RING_CFG i, 4, 0⟩
def HIF_RING_CFG_ENABLE (i : Nat) : Fld := ⟨HIF_RING_CFG i, 8, 8⟩
def HIF_RING_WB_LO (i : Nat) : Nat := 0x3000C + 0x40 * i
def HIF_RING_WB_LO_ADDR (i : Nat) : Fld := ⟨HIF_RING_WB_LO i, 31, 4⟩
def HIF_RING_WB_HI (i : Nat) : Nat := 0x30010 + 0x40 * i
def HIF_RING_WB_HI_ADDR (i : Nat) : Fld := ⟨HIF_RING_WB_HI i, 31, 0⟩
def HIF_RING_STATUS (i : Nat) : Nat := 0x30014 + 0x40 * i
def HIF_RING_STATUS_STATE (i : Nat) : Fld := ⟨HIF_RING_STATUS i, 2, 0⟩
def HIF_RING_STATUS_PEND (i : Nat) : Fld := ⟨HIF_RING_STATUS i, 3, 3⟩
def HIF_RING_STATUS_PARKED (i : Nat) : Fld := ⟨HIF_RING_STATUS i, 4, 4⟩
def HIF_RING_STATUS_FENCE_WAIT (i : Nat) : Fld := ⟨HIF_RING_STATUS i, 5, 5⟩
def HIF_RING_STATUS_PHASE (i : Nat) : Fld := ⟨HIF_RING_STATUS i, 6, 6⟩
def HIF_RING_STATUS_INDEX (i : Nat) : Fld := ⟨HIF_RING_STATUS i, 31, 16⟩
def HIF_RING_DONE (i : Nat) : Nat := 0x30018 + 0x40 * i
def HIF_RING_DONE_DONE_SEQ (i : Nat) : Fld := ⟨HIF_RING_DONE i, 15, 0⟩
def HIF_RING_DONE_VALID (i : Nat) : Fld := ⟨HIF_RING_DONE i, 16, 16⟩
def HIF_RING_ERR (i : Nat) : Nat := 0x3001C + 0x40 * i
def HIF_RING_ERR_REASON (i : Nat) : Fld := ⟨HIF_RING_ERR i, 7, 0⟩
def HIF_RING_ERR_SEQ (i : Nat) : Fld := ⟨HIF_RING_ERR i, 31, 16⟩
def HIF_IRQ_CAUSE : Nat := 0x30400
def HIF_IRQ_CAUSE_EVT : Fld := ⟨HIF_IRQ_CAUSE, 0, 0⟩
def HIF_IRQ_CAUSE_MBX_OUT : Fld := ⟨HIF_IRQ_CAUSE, 1, 1⟩
def HIF_IRQ_CAUSE_RING_FAULT : Fld := ⟨HIF_IRQ_CAUSE, 2, 2⟩
def HIF_IRQ_CAUSE_EVT_LOST : Fld := ⟨HIF_IRQ_CAUSE, 3, 3⟩
def HIF_IRQ_CAUSE_DMA_ERROR : Fld := ⟨HIF_IRQ_CAUSE, 4, 4⟩
def HIF_IRQ_CAUSE_FENCE_STALL : Fld := ⟨HIF_IRQ_CAUSE, 5, 5⟩
def HIF_IRQ_CAUSE_DOORBELL_INVALID : Fld := ⟨HIF_IRQ_CAUSE, 6, 6⟩
def HIF_IRQ_CAUSE_PHASE_MISMATCH : Fld := ⟨HIF_IRQ_CAUSE, 7, 7⟩
def HIF_IRQ_CAUSE_EVT_PENDING : Fld := ⟨HIF_IRQ_CAUSE, 8, 8⟩
def HIF_IRQ_MASK : Nat := 0x30404
def HIF_IRQ_MASK_MASK : Fld := ⟨HIF_IRQ_MASK, 8, 0⟩
def HIF_MSI_CTRL : Nat := 0x30408
def HIF_MSI_CTRL_COAL_US : Fld := ⟨HIF_MSI_CTRL, 9, 0⟩
def HIF_MSI_CTRL_REARM : Fld := ⟨HIF_MSI_CTRL, 16, 16⟩
def HIF_MSI_CTRL_ARMED : Fld := ⟨HIF_MSI_CTRL, 17, 17⟩
def HIF_EVT_LOST : Nat := 0x3040C
def HIF_EVT_LOST_COUNT : Fld := ⟨HIF_EVT_LOST, 31, 0⟩
def HIF_FENCE_TIMEOUT : Nat := 0x30410
def HIF_FENCE_TIMEOUT_TIME : Fld := ⟨HIF_FENCE_TIMEOUT, 15, 0⟩
def HIF_WIN_BASE : Nat := 0x30414
def HIF_WIN_BASE_BASE : Fld := ⟨HIF_WIN_BASE, 7, 0⟩
def HIF_WIN_CTRL : Nat := 0x30418
def HIF_WIN_CTRL_WR_EN : Fld := ⟨HIF_WIN_CTRL, 0, 0⟩
def HIF_LINK_STATUS : Nat := 0x3041C
def HIF_LINK_STATUS_SPEED : Fld := ⟨HIF_LINK_STATUS, 2, 0⟩
def HIF_LINK_STATUS_WIDTH : Fld := ⟨HIF_LINK_STATUS, 7, 4⟩
def HIF_LINK_STATUS_DOWN_COUNT : Fld := ⟨HIF_LINK_STATUS, 31, 16⟩
def PGP_SCHED_STATUS : Nat := 0x40000
def PGP_SCHED_STATUS_JOB_STATE : Fld := ⟨PGP_SCHED_STATUS, 2, 0⟩
def PGP_SCHED_STATUS_RING : Fld := ⟨PGP_SCHED_STATUS, 5, 4⟩
def PGP_SCHED_STATUS_MODE : Fld := ⟨PGP_SCHED_STATUS, 7, 6⟩
def PGP_SCHED_STATUS_RECOV_PHASE : Fld := ⟨PGP_SCHED_STATUS, 10, 8⟩
def PGP_SCHED_STATUS_RECOV_TYPE : Fld := ⟨PGP_SCHED_STATUS, 13, 12⟩
def PGP_COMMIT_HORIZON : Nat := 0x40004
def PGP_COMMIT_HORIZON_LINES : Fld := ⟨PGP_COMMIT_HORIZON, 23, 0⟩
def PGP_PAGE_AREA_BASE : Nat := 0x40008
def PGP_PAGE_AREA_BASE_BASE : Fld := ⟨PGP_PAGE_AREA_BASE, 15, 0⟩
def PGP_PAGE_AREA_SIZE : Nat := 0x4000C
def PGP_PAGE_AREA_SIZE_SIZE : Fld := ⟨PGP_PAGE_AREA_SIZE, 15, 0⟩
def PGP_JOB_LINE_LO : Nat := 0x40010
def PGP_JOB_LINE_LO_LINE : Fld := ⟨PGP_JOB_LINE_LO, 31, 0⟩
def PGP_JOB_LINE_HI : Nat := 0x40014
def PGP_JOB_LINE_HI_LINE : Fld := ⟨PGP_JOB_LINE_HI, 7, 0⟩
def PGP_RECOV_CTRL : Nat := 0x40200
def PGP_RECOV_CTRL_HOLD : Fld := ⟨PGP_RECOV_CTRL, 0, 0⟩
def PGP_RECOV_CTRL_LOCK_TRIES : Fld := ⟨PGP_RECOV_CTRL, 7, 4⟩
def PGP_RECOV_LOCK : Nat := 0x40204
def PGP_RECOV_LOCK_LINES : Fld := ⟨PGP_RECOV_LOCK, 15, 0⟩
def PGP_RECOV_MARGIN : Nat := 0x40208
def PGP_RECOV_MARGIN_LINES : Fld := ⟨PGP_RECOV_MARGIN, 19, 0⟩
def PGP_RUNUP_LINES : Nat := 0x4020C
def PGP_RUNUP_LINES_LINES : Fld := ⟨PGP_RUNUP_LINES, 23, 0⟩
def PGP_BACKUP_MAX : Nat := 0x40210
def PGP_BACKUP_MAX_LINES : Fld := ⟨PGP_BACKUP_MAX, 23, 0⟩
def PGP_STOP_LINE_LO : Nat := 0x40214
def PGP_STOP_LINE_LO_LINE : Fld := ⟨PGP_STOP_LINE_LO, 31, 0⟩
def PGP_STOP_LINE_HI : Nat := 0x40218
def PGP_STOP_LINE_HI_LINE : Fld := ⟨PGP_STOP_LINE_HI, 7, 0⟩
def PGP_RESUME_LINE_LO : Nat := 0x4021C
def PGP_RESUME_LINE_LO_LINE : Fld := ⟨PGP_RESUME_LINE_LO, 31, 0⟩
def PGP_RESUME_LINE_HI : Nat := 0x40220
def PGP_RESUME_LINE_HI_LINE : Fld := ⟨PGP_RESUME_LINE_HI, 7, 0⟩
def PGP_BACKUP_LINES : Nat := 0x40224
def PGP_BACKUP_LINES_LINES : Fld := ⟨PGP_BACKUP_LINES, 23, 0⟩
def PGP_SEAM_ERR : Nat := 0x40228
def PGP_SEAM_ERR_ERR : Fld := ⟨PGP_SEAM_ERR, 31, 0⟩
def PGP_LOST_TIME : Nat := 0x4022C
def PGP_LOST_TIME_US : Fld := ⟨PGP_LOST_TIME, 31, 0⟩
def PGP_LATE_COUNT (i : Nat) : Nat := 0x40230 + 0x4 * i
def PGP_LATE_COUNT_COUNT (i : Nat) : Fld := ⟨PGP_LATE_COUNT i, 31, 0⟩
def PGP_PLANE_E (i : Nat) : Nat := 0x40240 + 0x4 * i
def PGP_PLANE_E_OFFSET (i : Nat) : Fld := ⟨PGP_PLANE_E i, 31, 0⟩
def PGP_IRQ_CAUSE : Nat := 0x40300
def PGP_IRQ_CAUSE_RECOVERY : Fld := ⟨PGP_IRQ_CAUSE, 0, 0⟩
def PGP_IRQ_CAUSE_RESUMED : Fld := ⟨PGP_IRQ_CAUSE, 1, 1⟩
def PGP_IRQ_CAUSE_LOCK_FAIL : Fld := ⟨PGP_IRQ_CAUSE, 2, 2⟩
def PGP_IRQ_CAUSE_RECOV_ABORT : Fld := ⟨PGP_IRQ_CAUSE, 3, 3⟩
def PGP_IRQ_CAUSE_PAGE_REFUSED : Fld := ⟨PGP_IRQ_CAUSE, 4, 4⟩
def PGP_IRQ_CAUSE_JOB_REFUSED : Fld := ⟨PGP_IRQ_CAUSE, 5, 5⟩
def PGP_IRQ_CAUSE_WEB_DEV : Fld := ⟨PGP_IRQ_CAUSE, 6, 6⟩
def PGP_IRQ_CAUSE_WEB_STOP_TRIP : Fld := ⟨PGP_IRQ_CAUSE, 7, 7⟩
def PGP_IRQ_CAUSE_PERIOD_REFUSED : Fld := ⟨PGP_IRQ_CAUSE, 8, 8⟩
def PGP_IRQ_CAUSE_WAIT_DATA : Fld := ⟨PGP_IRQ_CAUSE, 9, 9⟩
def PGP_IRQ_MASK : Nat := 0x40304
def PGP_IRQ_MASK_MASK : Fld := ⟨PGP_IRQ_MASK, 9, 0⟩
def PLN_KEEPWET (i : Nat) : Nat := 0x80018 + 0x2000 * i
def PLN_KEEPWET_CAPPED (i : Nat) : Fld := ⟨PLN_KEEPWET i, 0, 0⟩
def PLN_KEEPWET_SPITTING (i : Nat) : Fld := ⟨PLN_KEEPWET i, 1, 1⟩
def DCX_LANE_MASK (i : Nat) : Nat := 0x50000 + 0x4 * i
def DCX_LANE_MASK_MASK (i : Nat) : Fld := ⟨DCX_LANE_MASK i, 31, 0⟩
def DCX_STAGE_LINES : Nat := 0x5000C
def DCX_STAGE_LINES_A : Fld := ⟨DCX_STAGE_LINES, 8, 0⟩
def DCX_MIN_SLACK : Nat := 0x50010
def DCX_MIN_SLACK_SLACK : Fld := ⟨DCX_MIN_SLACK, 8, 0⟩
def DCX_POISON_COUNT : Nat := 0x50014
def DCX_POISON_COUNT_COUNT : Fld := ⟨DCX_POISON_COUNT, 31, 0⟩
def DCX_DECODE_ERR_COUNT : Nat := 0x50018
def DCX_DECODE_ERR_COUNT_COUNT : Fld := ⟨DCX_DECODE_ERR_COUNT, 31, 0⟩
def DCX_IRQ_CAUSE : Nat := 0x50100
def DCX_IRQ_CAUSE_DECODE_ERROR : Fld := ⟨DCX_IRQ_CAUSE, 0, 0⟩
def DCX_IRQ_CAUSE_POISON : Fld := ⟨DCX_IRQ_CAUSE, 1, 1⟩
def DCX_IRQ_MASK : Nat := 0x50104
def DCX_IRQ_MASK_MASK : Fld := ⟨DCX_IRQ_MASK, 1, 0⟩
def CMX_UNIT_MASK : Nat := 0x60000
def CMX_UNIT_MASK_MASK : Fld := ⟨CMX_UNIT_MASK, 7, 0⟩
def CMX_UNIT_STATUS : Nat := 0x60004
def CMX_UNIT_STATUS_BUSY : Fld := ⟨CMX_UNIT_STATUS, 7, 0⟩
def CMX_UNIT_SEQ (i : Nat) : Nat := 0x60010 + 0x4 * i
def CMX_UNIT_SEQ_SEQ (i : Nat) : Fld := ⟨CMX_UNIT_SEQ i, 15, 0⟩
def CMX_UNIT_SEQ_VALID (i : Nat) : Fld := ⟨CMX_UNIT_SEQ i, 16, 16⟩
def CMX_UNIT_SEQ_OP (i : Nat) : Fld := ⟨CMX_UNIT_SEQ i, 17, 17⟩
def CMX_JOB_COUNT : Nat := 0x60030
def CMX_JOB_COUNT_COUNT : Fld := ⟨CMX_JOB_COUNT, 31, 0⟩
def CMX_OVERFLOW_COUNT : Nat := 0x60034
def CMX_OVERFLOW_COUNT_COUNT : Fld := ⟨CMX_OVERFLOW_COUNT, 31, 0⟩
def CMX_NOGAIN_COUNT : Nat := 0x60038
def CMX_NOGAIN_COUNT_COUNT : Fld := ⟨CMX_NOGAIN_COUNT, 31, 0⟩
def CMX_ERROR_COUNT : Nat := 0x6003C
def CMX_ERROR_COUNT_COUNT : Fld := ⟨CMX_ERROR_COUNT, 31, 0⟩
def CMX_BYTES_IN : Nat := 0x60040
def CMX_BYTES_IN_KIB : Fld := ⟨CMX_BYTES_IN, 31, 0⟩
def CMX_BYTES_OUT : Nat := 0x60044
def CMX_BYTES_OUT_KIB : Fld := ⟨CMX_BYTES_OUT, 31, 0⟩
def CMX_IRQ_CAUSE : Nat := 0x60100
def CMX_IRQ_CAUSE_JOB_FAILED : Fld := ⟨CMX_IRQ_CAUSE, 0, 0⟩
def CMX_IRQ_CAUSE_DMA_FAIL : Fld := ⟨CMX_IRQ_CAUSE, 1, 1⟩
def CMX_IRQ_CAUSE_BUSY : Fld := ⟨CMX_IRQ_CAUSE, 2, 2⟩
def CMX_IRQ_MASK : Nat := 0x60104
def CMX_IRQ_MASK_MASK : Fld := ⟨CMX_IRQ_MASK, 2, 0⟩
def HLK_PORT_CFG (i : Nat) : Nat := 0xA0000 + 0x1000 * i
def HLK_PORT_CFG_ENABLE (i : Nat) : Fld := ⟨HLK_PORT_CFG i, 0, 0⟩
def HLK_PORT_CFG_RATE (i : Nat) : Fld := ⟨HLK_PORT_CFG i, 2, 1⟩
def HLK_PORT_STATUS (i : Nat) : Nat := 0xA0004 + 0x1000 * i
def HLK_PORT_STATUS_STATE (i : Nat) : Fld := ⟨HLK_PORT_STATUS i, 2, 0⟩
def HLK_PORT_STATUS_PEND (i : Nat) : Fld := ⟨HLK_PORT_STATUS i, 3, 3⟩
def HLK_PORT_STATUS_PHASE (i : Nat) : Fld := ⟨HLK_PORT_STATUS i, 6, 4⟩
def HLK_PORT_STATUS_LINK_UP (i : Nat) : Fld := ⟨HLK_PORT_STATUS i, 7, 7⟩
def HLK_PORT_STATUS_AUTH (i : Nat) : Fld := ⟨HLK_PORT_STATUS i, 8, 8⟩
def HLK_PORT_STATUS_RETIRE_PEND (i : Nat) : Fld := ⟨HLK_PORT_STATUS i, 9, 9⟩
def HLK_PORT_STATUS_RETRAIN_FAILS (i : Nat) : Fld := ⟨HLK_PORT_STATUS i, 11, 10⟩
def HLK_PORT_STATUS_REASON (i : Nat) : Fld := ⟨HLK_PORT_STATUS i, 19, 16⟩
def HLK_TALLY (i : Nat) : Nat := 0xA0008 + 0x1000 * i
def HLK_TALLY_COUNT (i : Nat) : Fld := ⟨HLK_TALLY i, 15, 0⟩
def HLK_TALLY_LAST (i : Nat) : Fld := ⟨HLK_TALLY i, 31, 16⟩
def HLK_TALLY_CFG (i : Nat) : Nat := 0xA000C + 0x1000 * i
def HLK_TALLY_CFG_LIMIT (i : Nat) : Fld := ⟨HLK_TALLY_CFG i, 15, 0⟩
def HLK_TALLY_CFG_WINDOW (i : Nat) : Fld := ⟨HLK_TALLY_CFG i, 31, 16⟩
def HLK_RETRY_COUNT (i : Nat) : Nat := 0xA0010 + 0x1000 * i
def HLK_RETRY_COUNT_COUNT (i : Nat) : Fld := ⟨HLK_RETRY_COUNT i, 31, 0⟩
def HLK_LOST_COUNT (i : Nat) : Nat := 0xA0014 + 0x1000 * i
def HLK_LOST_COUNT_COUNT (i : Nat) : Fld := ⟨HLK_LOST_COUNT i, 31, 0⟩
def HLK_NAK_COUNT (i : Nat) : Nat := 0xA0018 + 0x1000 * i
def HLK_NAK_COUNT_COUNT (i : Nat) : Fld := ⟨HLK_NAK_COUNT i, 31, 0⟩
def HLK_RX_ERR_COUNT (i : Nat) : Nat := 0xA001C + 0x1000 * i
def HLK_RX_ERR_COUNT_COUNT (i : Nat) : Fld := ⟨HLK_RX_ERR_COUNT i, 31, 0⟩
def HLK_DECL_SEL (i : Nat) : Nat := 0xA0020 + 0x1000 * i
def HLK_DECL_SEL_SLOT (i : Nat) : Fld := ⟨HLK_DECL_SEL i, 4, 0⟩
def HLK_DECL_DATA (u : Nat) (i : Nat) : Nat := 0xA0040 + 0x1000 * u + 0x4 * i
def HLK_DECL_DATA_DATA (u : Nat) (i : Nat) : Fld := ⟨HLK_DECL_DATA u i, 31, 0⟩
def HLK_SLOT_LAT (u : Nat) (i : Nat) : Nat := 0xA0100 + 0x1000 * u + 0x4 * i
def HLK_SLOT_LAT_LAT (u : Nat) (i : Nat) : Fld := ⟨HLK_SLOT_LAT u i, 23, 0⟩
def HLK_SLOT_LAT_VALID (u : Nat) (i : Nat) : Fld := ⟨HLK_SLOT_LAT u i, 31, 31⟩
def HLK_SLOT_STATUS (u : Nat) (i : Nat) : Nat := 0xA0200 + 0x1000 * u + 0x4 * i
def HLK_SLOT_STATUS_PRESENT (u : Nat) (i : Nat) : Fld := ⟨HLK_SLOT_STATUS u i, 0, 0⟩
def HLK_SLOT_STATUS_DECL_BAD (u : Nat) (i : Nat) : Fld := ⟨HLK_SLOT_STATUS u i, 1, 1⟩
def HLK_SLOT_STATUS_LOADED (u : Nat) (i : Nat) : Fld := ⟨HLK_SLOT_STATUS u i, 2, 2⟩
def HLK_SLOT_STATUS_FAULT (u : Nat) (i : Nat) : Fld := ⟨HLK_SLOT_STATUS u i, 3, 3⟩
def HLK_SLOT_STATUS_ID (u : Nat) (i : Nat) : Fld := ⟨HLK_SLOT_STATUS u i, 16, 8⟩
def HLK_SLOT_STATUS_ASSIGNED (u : Nat) (i : Nat) : Fld := ⟨HLK_SLOT_STATUS u i, 17, 17⟩
def HLK_FIRE_LATENCY : Nat := 0xB8000
def HLK_FIRE_LATENCY_NS : Fld := ⟨HLK_FIRE_LATENCY, 15, 0⟩
def HLK_ACK_TIMEOUT : Nat := 0xB8004
def HLK_ACK_TIMEOUT_NS : Fld := ⟨HLK_ACK_TIMEOUT, 15, 0⟩
def HLK_IRQ_CAUSE : Nat := 0xB8100
def HLK_IRQ_CAUSE_PORT_UP : Fld := ⟨HLK_IRQ_CAUSE, 0, 0⟩
def HLK_IRQ_CAUSE_PORT_DOWN : Fld := ⟨HLK_IRQ_CAUSE, 1, 1⟩
def HLK_IRQ_CAUSE_PORT_FAULT : Fld := ⟨HLK_IRQ_CAUSE, 2, 2⟩
def HLK_IRQ_CAUSE_PORT_RETIRED : Fld := ⟨HLK_IRQ_CAUSE, 3, 3⟩
def HLK_IRQ_CAUSE_LINE_LOST : Fld := ⟨HLK_IRQ_CAUSE, 4, 4⟩
def HLK_IRQ_CAUSE_CONTROL_REFUSED : Fld := ⟨HLK_IRQ_CAUSE, 5, 5⟩
def HLK_IRQ_CAUSE_TILE_FAULT : Fld := ⟨HLK_IRQ_CAUSE, 6, 6⟩
def HLK_IRQ_CAUSE_DECLARE : Fld := ⟨HLK_IRQ_CAUSE, 7, 7⟩
def HLK_IRQ_CAUSE_RETIRE_PEND : Fld := ⟨HLK_IRQ_CAUSE, 8, 8⟩
def HLK_IRQ_MASK : Nat := 0xB8104
def HLK_IRQ_MASK_MASK : Fld := ⟨HLK_IRQ_MASK, 8, 0⟩
def LDG_CTRL : Nat := 0xC0000
def LDG_CTRL_AUTO_ADOPT : Fld := ⟨LDG_CTRL, 0, 0⟩
def LDG_STATUS : Nat := 0xC0004
def LDG_STATUS_READY : Fld := ⟨LDG_STATUS, 0, 0⟩
def LDG_STATUS_IN_WINDOW : Fld := ⟨LDG_STATUS, 1, 1⟩
def LDG_STATUS_PENDING : Fld := ⟨LDG_STATUS, 2, 2⟩
def LDG_STATUS_SWEEP_BUSY : Fld := ⟨LDG_STATUS, 3, 3⟩
def LDG_STATUS_CORRUPT : Fld := ⟨LDG_STATUS, 4, 4⟩
def LDG_STATUS_UNADOPTED : Fld := ⟨LDG_STATUS, 31, 16⟩
def LDG_PENDING_COUNT : Nat := 0xC0008
def LDG_PENDING_COUNT_WORDS : Fld := ⟨LDG_PENDING_COUNT, 31, 0⟩
def LDG_LEAD : Nat := 0xC000C
def LDG_LEAD_LINES : Fld := ⟨LDG_LEAD, 12, 0⟩
def LDG_SUSPECT_CFG : Nat := 0xC0010
def LDG_SUSPECT_CFG_K : Fld := ⟨LDG_SUSPECT_CFG, 2, 0⟩
def LDG_SUSPECT_CFG_W : Fld := ⟨LDG_SUSPECT_CFG, 31, 8⟩
def LDG_TRIM_CFG : Nat := 0xC0014
def LDG_TRIM_CFG_STEP : Fld := ⟨LDG_TRIM_CFG, 4, 0⟩
def LDG_COMP_W1 : Nat := 0xC0018
def LDG_COMP_W1_CODE1 : Fld := ⟨LDG_COMP_W1, 7, 0⟩
def LDG_COMP_W1_CODE2 : Fld := ⟨LDG_COMP_W1, 15, 8⟩
def LDG_COMP_W1_CODE3 : Fld := ⟨LDG_COMP_W1, 23, 16⟩
def LDG_COMP_W2 : Nat := 0xC001C
def LDG_COMP_W2_CODE1 : Fld := ⟨LDG_COMP_W2, 7, 0⟩
def LDG_COMP_W2_CODE2 : Fld := ⟨LDG_COMP_W2, 15, 8⟩
def LDG_COMP_W2_CODE3 : Fld := ⟨LDG_COMP_W2, 23, 16⟩
def LDG_ODOMETER : Nat := 0xC0020
def LDG_ODOMETER_METRES : Fld := ⟨LDG_ODOMETER, 31, 0⟩
def LDG_ODO_STEP : Nat := 0xC0024
def LDG_ODO_STEP_METRES : Fld := ⟨LDG_ODO_STEP, 7, 0⟩
def LDG_CMD_ARG : Nat := 0xC0030
def LDG_CMD_ARG_ARG : Fld := ⟨LDG_CMD_ARG, 31, 0⟩
def LDG_CMD : Nat := 0xC0034
def LDG_CMD_OP : Fld := ⟨LDG_CMD, 7, 0⟩
def LDG_CMD_TILE : Fld := ⟨LDG_CMD, 16, 8⟩
def LDG_CMD_NOZZLE : Fld := ⟨LDG_CMD, 31, 17⟩
def LDG_CMD_STATUS : Nat := 0xC0038
def LDG_CMD_STATUS_DEPTH : Fld := ⟨LDG_CMD_STATUS, 6, 0⟩
def LDG_CMD_STATUS_RESULT : Fld := ⟨LDG_CMD_STATUS, 11, 8⟩
def LDG_CMD_STATUS_DONE : Fld := ⟨LDG_CMD_STATUS, 31, 16⟩
def LDG_SWEEP_STATUS : Nat := 0xC0040
def LDG_SWEEP_STATUS_PLANES : Fld := ⟨LDG_SWEEP_STATUS, 7, 0⟩
def LDG_SWEEP_STATUS_RUNNING : Fld := ⟨LDG_SWEEP_STATUS, 8, 8⟩
def LDG_SWEEP_STATUS_FAILED : Fld := ⟨LDG_SWEEP_STATUS, 31, 16⟩
def LDG_SWEEP_COUNT (i : Nat) : Nat := 0xC0044 + 0x4 * i
def LDG_SWEEP_COUNT_COUNT (i : Nat) : Fld := ⟨LDG_SWEEP_COUNT i, 31, 0⟩
def LDG_DEAD_COLS (i : Nat) : Nat := 0xC0060 + 0x4 * i
def LDG_DEAD_COLS_COUNT (i : Nat) : Fld := ⟨LDG_DEAD_COLS i, 17, 0⟩
def LDG_TILE_SEL : Nat := 0xC0080
def LDG_TILE_SEL_TILE : Fld := ⟨LDG_TILE_SEL, 8, 0⟩
def LDG_TILE_INFO (i : Nat) : Nat := 0xC0084 + 0x4 * i
def LDG_TILE_INFO_INFO (i : Nat) : Fld := ⟨LDG_TILE_INFO i, 31, 0⟩
def LDG_SUSPECT_FULL : Nat := 0xC00A0
def LDG_SUSPECT_FULL_COUNT : Fld := ⟨LDG_SUSPECT_FULL, 31, 0⟩
def LDG_EVID_IGNORED : Nat := 0xC00A4
def LDG_EVID_IGNORED_COUNT : Fld := ⟨LDG_EVID_IGNORED, 31, 0⟩
def LDG_IRQ_CAUSE : Nat := 0xC0100
def LDG_IRQ_CAUSE_SWEEP_DONE : Fld := ⟨LDG_IRQ_CAUSE, 0, 0⟩
def LDG_IRQ_CAUSE_COLUMN : Fld := ⟨LDG_IRQ_CAUSE, 1, 1⟩
def LDG_IRQ_CAUSE_NOZZLE_RETIRED : Fld := ⟨LDG_IRQ_CAUSE, 2, 2⟩
def LDG_IRQ_CAUSE_TILE : Fld := ⟨LDG_IRQ_CAUSE, 3, 3⟩
def LDG_IRQ_CAUSE_WRITE_HELD : Fld := ⟨LDG_IRQ_CAUSE, 4, 4⟩
def LDG_IRQ_CAUSE_SUSPECT_FULL : Fld := ⟨LDG_IRQ_CAUSE, 5, 5⟩
def LDG_IRQ_CAUSE_CORRUPT : Fld := ⟨LDG_IRQ_CAUSE, 6, 6⟩
def LDG_IRQ_CAUSE_CMD_REFUSED : Fld := ⟨LDG_IRQ_CAUSE, 7, 7⟩
def LDG_IRQ_CAUSE_PENDING : Fld := ⟨LDG_IRQ_CAUSE, 8, 8⟩
def LDG_IRQ_MASK : Nat := 0xC0104
def LDG_IRQ_MASK_MASK : Fld := ⟨LDG_IRQ_MASK, 8, 0⟩
def PLN_DROP_TABLE (i : Nat) : Nat := 0x80020 + 0x2000 * i
def PLN_DROP_TABLE_TABLE (i : Nat) : Fld := ⟨PLN_DROP_TABLE i, 15, 0⟩
def PLN_FIRE_PULSE0 (i : Nat) : Nat := 0x80024 + 0x2000 * i
def PLN_FIRE_PULSE0_PRE_NS (i : Nat) : Fld := ⟨PLN_FIRE_PULSE0 i, 15, 0⟩
def PLN_FIRE_PULSE0_DEAD_NS (i : Nat) : Fld := ⟨PLN_FIRE_PULSE0 i, 31, 16⟩
def PLN_FIRE_PULSE1 (i : Nat) : Nat := 0x80028 + 0x2000 * i
def PLN_FIRE_PULSE1_MAIN_NS (i : Nat) : Fld := ⟨PLN_FIRE_PULSE1 i, 15, 0⟩
def PLN_FIRE_PULSE1_GAP_NS (i : Nat) : Fld := ⟨PLN_FIRE_PULSE1 i, 31, 16⟩
def PLN_FIRE_SCALE (i : Nat) : Nat := 0x8002C + 0x2000 * i
def PLN_FIRE_SCALE_SCALE (i : Nat) : Fld := ⟨PLN_FIRE_SCALE i, 12, 0⟩
def PLN_FIRE_SCALE_OVERRIDE (i : Nat) : Fld := ⟨PLN_FIRE_SCALE i, 16, 16⟩
def PLN_FIRE_ACTIVE (i : Nat) : Nat := 0x80030 + 0x2000 * i
def PLN_FIRE_ACTIVE_SCALE (i : Nat) : Fld := ⟨PLN_FIRE_ACTIVE i, 12, 0⟩
def PLN_FIRE_ACTIVE_TRAIN_NS (i : Nat) : Fld := ⟨PLN_FIRE_ACTIVE i, 29, 16⟩
def PLN_THERM0 (i : Nat) : Nat := 0x80034 + 0x2000 * i
def PLN_THERM0_WARN (i : Nat) : Fld := ⟨PLN_THERM0 i, 15, 0⟩
def PLN_THERM0_CLAMP (i : Nat) : Fld := ⟨PLN_THERM0 i, 31, 16⟩
def PLN_THERM1 (i : Nat) : Nat := 0x80038 + 0x2000 * i
def PLN_THERM1_SHUT (i : Nat) : Fld := ⟨PLN_THERM1 i, 15, 0⟩
def PLN_THERM1_FIRE_MIN (i : Nat) : Fld := ⟨PLN_THERM1 i, 31, 16⟩
def PLN_THERM2 (i : Nat) : Nat := 0x8003C + 0x2000 * i
def PLN_THERM2_HYST (i : Nat) : Fld := ⟨PLN_THERM2 i, 15, 0⟩
def PLN_WARM_CTRL (i : Nat) : Nat := 0x80040 + 0x2000 * i
def PLN_WARM_CTRL_SRC (i : Nat) : Fld := ⟨PLN_WARM_CTRL i, 0, 0⟩
def PLN_WARM_CTRL_DUTY (i : Nat) : Fld := ⟨PLN_WARM_CTRL i, 15, 8⟩
def PLN_WARM_OFS (u : Nat) (i : Nat) : Nat := 0x80044 + 0x2000 * u + 0x4 * i
def PLN_WARM_OFS_OFS (u : Nat) (i : Nat) : Fld := ⟨PLN_WARM_OFS u i, 31, 0⟩
def PLN_SPIT (i : Nat) : Nat := 0x80084 + 0x2000 * i
def PLN_SPIT_RATE (i : Nat) : Fld := ⟨PLN_SPIT i, 12, 0⟩
def PLN_SPIT_SIZE (i : Nat) : Fld := ⟨PLN_SPIT i, 17, 16⟩
def PLN_TEMP_STATUS (i : Nat) : Nat := 0x80088 + 0x2000 * i
def PLN_TEMP_STATUS_T_MAX (i : Nat) : Fld := ⟨PLN_TEMP_STATUS i, 15, 0⟩
def PLN_TEMP_STATUS_T_MEAN (i : Nat) : Fld := ⟨PLN_TEMP_STATUS i, 31, 16⟩
def PLN_THERM_STATUS (i : Nat) : Nat := 0x8008C + 0x2000 * i
def PLN_THERM_STATUS_WARN (i : Nat) : Fld := ⟨PLN_THERM_STATUS i, 6, 0⟩
def PLN_THERM_STATUS_CLAMP (i : Nat) : Fld := ⟨PLN_THERM_STATUS i, 14, 8⟩
def PLN_THERM_STATUS_SHUT (i : Nat) : Fld := ⟨PLN_THERM_STATUS i, 22, 16⟩
def PLN_THERM_STATUS_COLD (i : Nat) : Fld := ⟨PLN_THERM_STATUS i, 30, 24⟩
def PLN_FAULT_CLEAR (i : Nat) : Nat := 0x80090 + 0x2000 * i
def PLN_FAULT_CLEAR_CODES (i : Nat) : Fld := ⟨PLN_FAULT_CLEAR i, 7, 0⟩
def PLN_FAULT_CLEAR_TILE (i : Nat) : Fld := ⟨PLN_FAULT_CLEAR i, 13, 8⟩
def PLN_CLAMP_COUNT (i : Nat) : Nat := 0x80094 + 0x2000 * i
def PLN_CLAMP_COUNT_COUNT (i : Nat) : Fld := ⟨PLN_CLAMP_COUNT i, 31, 0⟩
def PLN_THERM_CTRL (i : Nat) : Nat := 0x80098 + 0x2000 * i
def PLN_THERM_CTRL_AUTO_CLEAR (i : Nat) : Fld := ⟨PLN_THERM_CTRL i, 0, 0⟩
def PLN_THERM_CTRL_COLD_STOP (i : Nat) : Fld := ⟨PLN_THERM_CTRL i, 1, 1⟩
def PLN_TILE_TEMP (u : Nat) (i : Nat) : Nat := 0x80600 + 0x2000 * u + 0x4 * i
def PLN_TILE_TEMP_T_MAX (u : Nat) (i : Nat) : Fld := ⟨PLN_TILE_TEMP u i, 15, 0⟩
def PLN_TILE_TEMP_FLAGS (u : Nat) (i : Nat) : Fld := ⟨PLN_TILE_TEMP u i, 20, 16⟩
def PLN_TILE_TEMP_DUTY (u : Nat) (i : Nat) : Fld := ⟨PLN_TILE_TEMP u i, 31, 24⟩
def PLN_IRQ_CAUSE : Nat := 0x90000
def PLN_IRQ_CAUSE_GEOMETRY : Fld := ⟨PLN_IRQ_CAUSE, 0, 0⟩
def PLN_IRQ_CAUSE_WARN : Fld := ⟨PLN_IRQ_CAUSE, 1, 1⟩
def PLN_IRQ_CAUSE_CLAMP : Fld := ⟨PLN_IRQ_CAUSE, 2, 2⟩
def PLN_IRQ_CAUSE_COLD : Fld := ⟨PLN_IRQ_CAUSE, 3, 3⟩
def PLN_IRQ_CAUSE_TEMP_STALE : Fld := ⟨PLN_IRQ_CAUSE, 4, 4⟩
def PLN_IRQ_CAUSE_CLAMP_ACTIVE : Fld := ⟨PLN_IRQ_CAUSE, 5, 5⟩
def PLN_IRQ_MASK : Nat := 0x90004
def PLN_IRQ_MASK_MASK : Fld := ⟨PLN_IRQ_MASK, 5, 0⟩
def CAL_CH_CFG (i : Nat) : Nat := 0xD0000 + 0x20 * i
def CAL_CH_CFG_TEMP_EN (i : Nat) : Fld := ⟨CAL_CH_CFG i, 0, 0⟩
def CAL_CH_CFG_SCHED_EN (i : Nat) : Fld := ⟨CAL_CH_CFG i, 1, 1⟩
def CAL_CH_CFG_AUTO (i : Nat) : Fld := ⟨CAL_CH_CFG i, 2, 2⟩
def CAL_CH_CFG_CONT (i : Nat) : Fld := ⟨CAL_CH_CFG i, 3, 3⟩
def CAL_CH_CFG_TSRC (i : Nat) : Fld := ⟨CAL_CH_CFG i, 6, 4⟩
def CAL_CH_CFG_TSRC_IDX (i : Nat) : Fld := ⟨CAL_CH_CFG i, 15, 8⟩
def CAL_CH_CFG_DELTA (i : Nat) : Fld := ⟨CAL_CH_CFG i, 31, 16⟩
def CAL_CH_SCHED (i : Nat) : Nat := 0xD0004 + 0x20 * i
def CAL_CH_SCHED_INTERVAL (i : Nat) : Fld := ⟨CAL_CH_SCHED i, 31, 0⟩
def CAL_CH_TIMEOUT (i : Nat) : Nat := 0xD0008 + 0x20 * i
def CAL_CH_TIMEOUT_TIMEOUT (i : Nat) : Fld := ⟨CAL_CH_TIMEOUT i, 31, 0⟩
def CAL_CH_STATUS (i : Nat) : Nat := 0xD000C + 0x20 * i
def CAL_CH_STATUS_RUN_STATE (i : Nat) : Fld := ⟨CAL_CH_STATUS i, 1, 0⟩
def CAL_CH_STATUS_STALE (i : Nat) : Fld := ⟨CAL_CH_STATUS i, 2, 2⟩
def CAL_CH_STATUS_AGAIN (i : Nat) : Fld := ⟨CAL_CH_STATUS i, 3, 3⟩
def CAL_CH_STATUS_LAST (i : Nat) : Fld := ⟨CAL_CH_STATUS i, 6, 4⟩
def CAL_CH_STATUS_CMD_ERR (i : Nat) : Fld := ⟨CAL_CH_STATUS i, 7, 7⟩
def CAL_CH_STATUS_RUNS (i : Nat) : Fld := ⟨CAL_CH_STATUS i, 31, 16⟩
def CAL_CH_Q (i : Nat) : Nat := 0xD0010 + 0x20 * i
def CAL_CH_Q_Q0 (i : Nat) : Fld := ⟨CAL_CH_Q i, 15, 0⟩
def CAL_CH_Q_Q1 (i : Nat) : Fld := ⟨CAL_CH_Q i, 31, 16⟩
def CAL_CH_TREF (i : Nat) : Nat := 0xD0014 + 0x20 * i
def CAL_CH_TREF_TREF (i : Nat) : Fld := ⟨CAL_CH_TREF i, 15, 0⟩
def CAL_CH_TREF_VALID (i : Nat) : Fld := ⟨CAL_CH_TREF i, 16, 16⟩
def CAL_CH_CMD (i : Nat) : Nat := 0xD0018 + 0x20 * i
def CAL_CH_CMD_REQ (i : Nat) : Fld := ⟨CAL_CH_CMD i, 0, 0⟩
def CAL_CH_CMD_START (i : Nat) : Fld := ⟨CAL_CH_CMD i, 1, 1⟩
def CAL_CH_CMD_COMPLETE (i : Nat) : Fld := ⟨CAL_CH_CMD i, 2, 2⟩
def CAL_CH_CMD_ABANDON (i : Nat) : Fld := ⟨CAL_CH_CMD i, 3, 3⟩
def CAL_CH_FWQ (i : Nat) : Nat := 0xD001C + 0x20 * i
def CAL_CH_FWQ_Q0 (i : Nat) : Fld := ⟨CAL_CH_FWQ i, 15, 0⟩
def CAL_CH_FWQ_Q1 (i : Nat) : Fld := ⟨CAL_CH_FWQ i, 31, 16⟩
def CAL_PT_CTRL : Nat := 0xD1000
def CAL_PT_CTRL_DECIM : Fld := ⟨CAL_PT_CTRL, 3, 0⟩
def CAL_PT_CTRL_JIG : Fld := ⟨CAL_PT_CTRL, 4, 4⟩
def CAL_PT_CTRL_GAIN : Fld := ⟨CAL_PT_CTRL, 15, 8⟩
def CAL_PT_CTRL_RUN_STEP : Fld := ⟨CAL_PT_CTRL, 23, 16⟩
def CAL_PT_CTRL_CONF_FRAC : Fld := ⟨CAL_PT_CTRL, 31, 24⟩
def CAL_PT_CONF : Nat := 0xD1004
def CAL_PT_CONF_CONF : Fld := ⟨CAL_PT_CONF, 31, 0⟩
def CAL_PT_SNAP_BASE : Nat := 0xD1008
def CAL_PT_SNAP_BASE_VALUE : Fld := ⟨CAL_PT_SNAP_BASE, 31, 0⟩
def CAL_PT_SNAP_LINES : Nat := 0xD100C
def CAL_PT_SNAP_LINES_VALUE : Fld := ⟨CAL_PT_SNAP_LINES, 31, 0⟩
def CAL_PT_SNAP_STRIDE : Nat := 0xD1010
def CAL_PT_SNAP_STRIDE_VALUE : Fld := ⟨CAL_PT_SNAP_STRIDE, 31, 0⟩
def CAL_PT_DLIM : Nat := 0xD1014
def CAL_PT_DLIM_DMIN : Fld := ⟨CAL_PT_DLIM, 15, 0⟩
def CAL_PT_DLIM_DMAX : Fld := ⟨CAL_PT_DLIM, 31, 16⟩
def CAL_PT_MF : Nat := 0xD1018
def CAL_PT_MF_MF_RATIO : Fld := ⟨CAL_PT_MF, 7, 0⟩
def CAL_PT_MF_MF_MIN : Fld := ⟨CAL_PT_MF, 15, 8⟩
def CAL_PT_MF_PROBE_MIN : Fld := ⟨CAL_PT_MF, 23, 16⟩
def CAL_PT_STATUS : Nat := 0xD101C
def CAL_PT_STATUS_FOCUS : Fld := ⟨CAL_PT_STATUS, 3, 0⟩
def CAL_PT_STATUS_G_EFF : Fld := ⟨CAL_PT_STATUS, 15, 8⟩
def CAL_PT_STATUS_PROBES : Fld := ⟨CAL_PT_STATUS, 24, 16⟩
def CAL_PT_QLIMIT : Nat := 0xD1020
def CAL_PT_QLIMIT_RMS : Fld := ⟨CAL_PT_QLIMIT, 15, 0⟩
def CAL_PT_VOL (i : Nat) : Nat := 0xD1040 + 0x4 * i
def CAL_PT_VOL_VOL (i : Nat) : Fld := ⟨CAL_PT_VOL i, 31, 0⟩
def CAL_PT_DREF (i : Nat) : Nat := 0xD1060 + 0x4 * i
def CAL_PT_DREF_DREF (i : Nat) : Fld := ⟨CAL_PT_DREF i, 31, 0⟩
def CAL_PT_QUAL (i : Nat) : Nat := 0xD1080 + 0x4 * i
def CAL_PT_QUAL_RMS (i : Nat) : Fld := ⟨CAL_PT_QUAL i, 15, 0⟩
def CAL_PT_QUAL_MAX (i : Nat) : Fld := ⟨CAL_PT_QUAL i, 31, 16⟩
def CAL_PT_G (i : Nat) : Nat := 0xD1100 + 0x4 * i
def CAL_PT_G_G (i : Nat) : Fld := ⟨CAL_PT_G i, 31, 0⟩
def CAL_PT_SAMPLES : Nat := 0xD1300
def CAL_PT_SAMPLES_COUNT : Fld := ⟨CAL_PT_SAMPLES, 31, 0⟩
def CAL_PT_EXCLUDED : Nat := 0xD1304
def CAL_PT_EXCLUDED_COUNT : Fld := ⟨CAL_PT_EXCLUDED, 31, 0⟩
def CAL_PT_SNAP_LOST : Nat := 0xD1308
def CAL_PT_SNAP_LOST_COUNT : Fld := ⟨CAL_PT_SNAP_LOST, 31, 0⟩
def CAL_PT_PROBE_FULL : Nat := 0xD130C
def CAL_PT_PROBE_FULL_COUNT : Fld := ⟨CAL_PT_PROBE_FULL, 31, 0⟩
def CAL_PT_TRIM_LIMIT : Nat := 0xD1310
def CAL_PT_TRIM_LIMIT_COUNT : Fld := ⟨CAL_PT_TRIM_LIMIT, 31, 0⟩
def CAL_MF_COUNT : Nat := 0xD1314
def CAL_MF_COUNT_COUNT : Fld := ⟨CAL_MF_COUNT, 31, 0⟩
def CAL_TRIM_SEL : Nat := 0xD1400
def CAL_TRIM_SEL_COLUMN : Fld := ⟨CAL_TRIM_SEL, 17, 0⟩
def CAL_TRIM_SEL_PLANE : Fld := ⟨CAL_TRIM_SEL, 22, 20⟩
def CAL_TRIM_SEL_AUTO_INC : Fld := ⟨CAL_TRIM_SEL, 31, 31⟩
def CAL_TRIM_DATA : Nat := 0xD1404
def CAL_TRIM_DATA_TARGET : Fld := ⟨CAL_TRIM_DATA, 7, 0⟩
def CAL_TRIM_DATA_LIVE : Fld := ⟨CAL_TRIM_DATA, 15, 8⟩
def CAL_TRIM_DATA_SETTLED : Fld := ⟨CAL_TRIM_DATA, 16, 16⟩
def CAL_VIEW_CTRL (i : Nat) : Nat := 0xD2000 + 0x20 * i
def CAL_VIEW_CTRL_USE (i : Nat) : Fld := ⟨CAL_VIEW_CTRL i, 0, 0⟩
def CAL_VIEW_CTRL_NOREG (i : Nat) : Fld := ⟨CAL_VIEW_CTRL i, 1, 1⟩
def CAL_VIEW_COL0 (i : Nat) : Nat := 0xD2004 + 0x20 * i
def CAL_VIEW_COL0_COL0 (i : Nat) : Fld := ⟨CAL_VIEW_COL0 i, 31, 0⟩
def CAL_VIEW_PITCH (i : Nat) : Nat := 0xD2008 + 0x20 * i
def CAL_VIEW_PITCH_PITCH (i : Nat) : Fld := ⟨CAL_VIEW_PITCH i, 23, 0⟩
def CAL_VIEW_DOWNWEB_INT (i : Nat) : Nat := 0xD200C + 0x20 * i
def CAL_VIEW_DOWNWEB_INT_INT (i : Nat) : Fld := ⟨CAL_VIEW_DOWNWEB_INT i, 23, 0⟩
def CAL_VIEW_DOWNWEB_FRAC (i : Nat) : Nat := 0xD2010 + 0x20 * i
def CAL_VIEW_DOWNWEB_FRAC_FRAC (i : Nat) : Fld := ⟨CAL_VIEW_DOWNWEB_FRAC i, 15, 0⟩
def CAL_IRQ_CAUSE : Nat := 0xD0100
def CAL_IRQ_CAUSE_DUE : Fld := ⟨CAL_IRQ_CAUSE, 0, 0⟩
def CAL_IRQ_CAUSE_DONE : Fld := ⟨CAL_IRQ_CAUSE, 1, 1⟩
def CAL_IRQ_CAUSE_FAILED : Fld := ⟨CAL_IRQ_CAUSE, 2, 2⟩
def CAL_IRQ_CAUSE_SNAP_OVERRUN : Fld := ⟨CAL_IRQ_CAUSE, 3, 3⟩
def CAL_IRQ_CAUSE_PROBE_FULL : Fld := ⟨CAL_IRQ_CAUSE, 4, 4⟩
def CAL_IRQ_CAUSE_QUAL_ALARM : Fld := ⟨CAL_IRQ_CAUSE, 5, 5⟩
def CAL_IRQ_CAUSE_STALE : Fld := ⟨CAL_IRQ_CAUSE, 6, 6⟩
def CAL_IRQ_MASK : Nat := 0xD0104
def CAL_IRQ_MASK_MASK : Fld := ⟨CAL_IRQ_MASK, 6, 0⟩
def CAM_PORT_CFG (i : Nat) : Nat := 0xE0000 + 0x100 * i
def CAM_PORT_CFG_EN (i : Nat) : Fld := ⟨CAM_PORT_CFG i, 0, 0⟩
def CAM_PORT_CFG_LANES (i : Nat) : Fld := ⟨CAM_PORT_CFG i, 3, 1⟩
def CAM_PORT_CFG_EDGE (i : Nat) : Fld := ⟨CAM_PORT_CFG i, 4, 4⟩
def CAM_PORT_CFG_FV_POL (i : Nat) : Fld := ⟨CAM_PORT_CFG i, 5, 5⟩
def CAM_PORT_CFG_LV_POL (i : Nat) : Fld := ⟨CAM_PORT_CFG i, 6, 6⟩
def CAM_PORT_STATUS (i : Nat) : Nat := 0xE0004 + 0x100 * i
def CAM_PORT_STATUS_ACTIVE (i : Nat) : Fld := ⟨CAM_PORT_STATUS i, 0, 0⟩
def CAM_PORT_STATUS_DESKEWED (i : Nat) : Fld := ⟨CAM_PORT_STATUS i, 1, 1⟩
def CAM_ECC_CORR (i : Nat) : Nat := 0xE0010 + 0x100 * i
def CAM_ECC_CORR_COUNT (i : Nat) : Fld := ⟨CAM_ECC_CORR i, 31, 0⟩
def CAM_ECC_ERR (i : Nat) : Nat := 0xE0014 + 0x100 * i
def CAM_ECC_ERR_COUNT (i : Nat) : Fld := ⟨CAM_ECC_ERR i, 31, 0⟩
def CAM_DT_DROP (i : Nat) : Nat := 0xE0018 + 0x100 * i
def CAM_DT_DROP_COUNT (i : Nat) : Fld := ⟨CAM_DT_DROP i, 31, 0⟩
def CAM_UNASSIGNED (i : Nat) : Nat := 0xE001C + 0x100 * i
def CAM_UNASSIGNED_COUNT (i : Nat) : Fld := ⟨CAM_UNASSIGNED i, 31, 0⟩
def CAM_CTX_CFG (i : Nat) : Nat := 0xE1000 + 0x80 * i
def CAM_CTX_CFG_ENABLE (i : Nat) : Fld := ⟨CAM_CTX_CFG i, 0, 0⟩
def CAM_CTX_CFG_PORT (i : Nat) : Fld := ⟨CAM_CTX_CFG i, 3, 1⟩
def CAM_CTX_CFG_VC (i : Nat) : Fld := ⟨CAM_CTX_CFG i, 7, 4⟩
def CAM_CTX_CFG_DT (i : Nat) : Fld := ⟨CAM_CTX_CFG i, 10, 8⟩
def CAM_CTX_CFG_CFA (i : Nat) : Fld := ⟨CAM_CTX_CFG i, 11, 11⟩
def CAM_CTX_CFG_BLACK_EN (i : Nat) : Fld := ⟨CAM_CTX_CFG i, 12, 12⟩
def CAM_CTX_CFG_FLAT_EN (i : Nat) : Fld := ⟨CAM_CTX_CFG i, 13, 13⟩
def CAM_CTX_CFG_FLAT_REF (i : Nat) : Fld := ⟨CAM_CTX_CFG i, 14, 14⟩
def CAM_CTX_STATUS (i : Nat) : Nat := 0xE1004 + 0x80 * i
def CAM_CTX_STATUS_STATE (i : Nat) : Fld := ⟨CAM_CTX_STATUS i, 2, 0⟩
def CAM_CTX_STATUS_PEND (i : Nat) : Fld := ⟨CAM_CTX_STATUS i, 3, 3⟩
def CAM_CTX_STATUS_REASON (i : Nat) : Fld := ⟨CAM_CTX_STATUS i, 7, 4⟩
def CAM_CTX_STATUS_FRAME_NO (i : Nat) : Fld := ⟨CAM_CTX_STATUS i, 31, 16⟩
def CAM_CTX_SIZE (i : Nat) : Nat := 0xE1008 + 0x80 * i
def CAM_CTX_SIZE_WIDTH (i : Nat) : Fld := ⟨CAM_CTX_SIZE i, 13, 0⟩
def CAM_CTX_SIZE_LINES (i : Nat) : Fld := ⟨CAM_CTX_SIZE i, 29, 16⟩
def CAM_CTX_TIME (i : Nat) : Nat := 0xE100C + 0x80 * i
def CAM_CTX_TIME_LATE (i : Nat) : Fld := ⟨CAM_CTX_TIME i, 15, 0⟩
def CAM_CTX_TIME_TIMEOUT (i : Nat) : Fld := ⟨CAM_CTX_TIME i, 31, 16⟩
def CAM_CTX_EXPO (i : Nat) : Nat := 0xE1010 + 0x80 * i
def CAM_CTX_EXPO_EXPO_OFS (i : Nat) : Fld := ⟨CAM_CTX_EXPO i, 31, 0⟩
def CAM_CTX_OB (i : Nat) : Nat := 0xE1014 + 0x80 * i
def CAM_CTX_OB_OB_FIRST (i : Nat) : Fld := ⟨CAM_CTX_OB i, 13, 0⟩
def CAM_CTX_OB_OB_LINES (i : Nat) : Fld := ⟨CAM_CTX_OB i, 29, 16⟩
def CAM_CTX_GRID (i : Nat) : Nat := 0xE1018 + 0x80 * i
def CAM_CTX_GRID_SX (i : Nat) : Fld := ⟨CAM_CTX_GRID i, 3, 0⟩
def CAM_CTX_GRID_SY (i : Nat) : Fld := ⟨CAM_CTX_GRID i, 7, 4⟩
def CAM_CTX_DPC (i : Nat) : Nat := 0xE101C + 0x80 * i
def CAM_CTX_DPC_DYN_THR (i : Nat) : Fld := ⟨CAM_CTX_DPC i, 15, 0⟩
def CAM_CTX_BLACK (u : Nat) (i : Nat) : Nat := 0xE1020 + 0x80 * u + 0x4 * i
def CAM_CTX_BLACK_TARGET (u : Nat) (i : Nat) : Fld := ⟨CAM_CTX_BLACK u i, 15, 0⟩
def CAM_CTX_BLACK_ACTIVE (u : Nat) (i : Nat) : Fld := ⟨CAM_CTX_BLACK u i, 31, 16⟩
def CAM_CTX_CNT (u : Nat) (i : Nat) : Nat := 0xE1040 + 0x80 * u + 0x4 * i
def CAM_CTX_CNT_COUNT (u : Nat) (i : Nat) : Fld := ⟨CAM_CTX_CNT u i, 31, 0⟩
def CAM_PIPE_SEL : Nat := 0xE3000
def CAM_PIPE_SEL_CTX0 : Fld := ⟨CAM_PIPE_SEL, 3, 0⟩
def CAM_PIPE_SEL_VALID0 : Fld := ⟨CAM_PIPE_SEL, 7, 7⟩
def CAM_PIPE_SEL_CTX1 : Fld := ⟨CAM_PIPE_SEL, 11, 8⟩
def CAM_PIPE_SEL_VALID1 : Fld := ⟨CAM_PIPE_SEL, 15, 15⟩
def CAM_PIPE_SEL_SEL_ERR : Fld := ⟨CAM_PIPE_SEL, 16, 16⟩
def CAM_PIPE_STATUS : Nat := 0xE3004
def CAM_PIPE_STATUS_WAITING : Fld := ⟨CAM_PIPE_STATUS, 7, 0⟩
def CAM_PIPE_STATUS_BUSY : Fld := ⟨CAM_PIPE_STATUS, 15, 8⟩
def CAM_TAB_SEL : Nat := 0xE3008
def CAM_TAB_SEL_CTX : Fld := ⟨CAM_TAB_SEL, 3, 0⟩
def CAM_TAB_SEL_TABLE : Fld := ⟨CAM_TAB_SEL, 5, 4⟩
def CAM_TAB_SEL_INDEX : Fld := ⟨CAM_TAB_SEL, 26, 16⟩
def CAM_TAB_SEL_AUTO_INC : Fld := ⟨CAM_TAB_SEL, 31, 31⟩
def CAM_TAB_DATA : Nat := 0xE300C
def CAM_TAB_DATA_DATA : Fld := ⟨CAM_TAB_DATA, 31, 0⟩
def CAM_FLAT_N : Nat := 0xE3010
def CAM_FLAT_N_N : Fld := ⟨CAM_FLAT_N, 15, 0⟩
def CAM_REG_INVALID : Nat := 0xE3014
def CAM_REG_INVALID_COUNT : Fld := ⟨CAM_REG_INVALID, 31, 0⟩
def CAM_REG_CFG (i : Nat) : Nat := 0xE3100 + 0x20 * i
def CAM_REG_CFG_EN (i : Nat) : Fld := ⟨CAM_REG_CFG i, 0, 0⟩
def CAM_REG_CFG_CTX (i : Nat) : Fld := ⟨CAM_REG_CFG i, 4, 1⟩
def CAM_REG_CFG_PLANE (i : Nat) : Fld := ⟨CAM_REG_CFG i, 7, 5⟩
def CAM_REG_CFG_MIN_LINES (i : Nat) : Fld := ⟨CAM_REG_CFG i, 15, 8⟩
def CAM_REG_PIX (i : Nat) : Nat := 0xE3104 + 0x20 * i
def CAM_REG_PIX_X0 (i : Nat) : Fld := ⟨CAM_REG_PIX i, 13, 0⟩
def CAM_REG_PIX_X1 (i : Nat) : Fld := ⟨CAM_REG_PIX i, 29, 16⟩
def CAM_REG_CENTER (i : Nat) : Nat := 0xE3108 + 0x20 * i
def CAM_REG_CENTER_CENTER (i : Nat) : Fld := ⟨CAM_REG_CENTER i, 31, 0⟩
def CAM_REG_THR (i : Nat) : Nat := 0xE310C + 0x20 * i
def CAM_REG_THR_THR (i : Nat) : Fld := ⟨CAM_REG_THR i, 15, 0⟩
def CAM_REG_LAST (i : Nat) : Nat := 0xE3110 + 0x20 * i
def CAM_REG_LAST_DELTA (i : Nat) : Fld := ⟨CAM_REG_LAST i, 31, 0⟩
def CAM_REG_PLANE (i : Nat) : Nat := 0xE3400 + 0x4 * i
def CAM_REG_PLANE_DELTA (i : Nat) : Fld := ⟨CAM_REG_PLANE i, 23, 0⟩
def CAM_REG_PLANE_VALID (i : Nat) : Fld := ⟨CAM_REG_PLANE i, 31, 31⟩
def CAM_IRQ_CAUSE : Nat := 0xE3800
def CAM_IRQ_CAUSE_UNASSIGNED : Fld := ⟨CAM_IRQ_CAUSE, 0, 0⟩
def CAM_IRQ_CAUSE_NO_BUFFER : Fld := ⟨CAM_IRQ_CAUSE, 1, 1⟩
def CAM_IRQ_CAUSE_CTX_FAULT : Fld := ⟨CAM_IRQ_CAUSE, 2, 2⟩
def CAM_IRQ_CAUSE_REG_LOST : Fld := ⟨CAM_IRQ_CAUSE, 3, 3⟩
def CAM_IRQ_CAUSE_CORRUPT : Fld := ⟨CAM_IRQ_CAUSE, 4, 4⟩
def CAM_IRQ_CAUSE_OVERRUN : Fld := ⟨CAM_IRQ_CAUSE, 5, 5⟩
def CAM_IRQ_CAUSE_REG_INVALID : Fld := ⟨CAM_IRQ_CAUSE, 6, 6⟩
def CAM_IRQ_MASK : Nat := 0xE3804
def CAM_IRQ_MASK_MASK : Fld := ⟨CAM_IRQ_MASK, 6, 0⟩
def LED_SCAN : Nat := 0xF0000
def LED_SCAN_FREQ : Fld := ⟨LED_SCAN, 15, 0⟩
def LED_SCAN_KERF : Fld := ⟨LED_SCAN, 25, 16⟩
def LED_UPDATE : Nat := 0xF0004
def LED_UPDATE_MIN : Fld := ⟨LED_UPDATE, 3, 0⟩
def LED_UPDATE_U : Fld := ⟨LED_UPDATE, 11, 8⟩
def LED_CTRL : Nat := 0xF0008
def LED_CTRL_FORCE_BLANK : Fld := ⟨LED_CTRL, 0, 0⟩
def LED_CTRL_BLANK_OUT : Fld := ⟨LED_CTRL, 1, 1⟩
def LED_IRQ_CAUSE : Nat := 0xF0100
def LED_IRQ_CAUSE_BAR_FAULT : Fld := ⟨LED_IRQ_CAUSE, 0, 0⟩
def LED_IRQ_CAUSE_LED_FAULT : Fld := ⟨LED_IRQ_CAUSE, 1, 1⟩
def LED_IRQ_CAUSE_CUTOFF : Fld := ⟨LED_IRQ_CAUSE, 2, 2⟩
def LED_IRQ_CAUSE_SYNC_MISSED : Fld := ⟨LED_IRQ_CAUSE, 3, 3⟩
def LED_IRQ_CAUSE_GAP : Fld := ⟨LED_IRQ_CAUSE, 4, 4⟩
def LED_IRQ_CAUSE_SCAN_ERR : Fld := ⟨LED_IRQ_CAUSE, 5, 5⟩
def LED_IRQ_CAUSE_HOT : Fld := ⟨LED_IRQ_CAUSE, 6, 6⟩
def LED_IRQ_MASK : Nat := 0xF0104
def LED_IRQ_MASK_MASK : Fld := ⟨LED_IRQ_MASK, 6, 0⟩
def LED_BAR_CFG (i : Nat) : Nat := 0xF1000 + 0x200 * i
def LED_BAR_CFG_ENABLE (i : Nat) : Fld := ⟨LED_BAR_CFG i, 0, 0⟩
def LED_BAR_CFG_COMP (i : Nat) : Fld := ⟨LED_BAR_CFG i, 1, 1⟩
def LED_BAR_CFG_CAL_EN (i : Nat) : Fld := ⟨LED_BAR_CFG i, 2, 2⟩
def LED_BAR_CFG_TSRC (i : Nat) : Fld := ⟨LED_BAR_CFG i, 15, 8⟩
def LED_BAR_STATUS (i : Nat) : Nat := 0xF1004 + 0x200 * i
def LED_BAR_STATUS_STATE (i : Nat) : Fld := ⟨LED_BAR_STATUS i, 2, 0⟩
def LED_BAR_STATUS_PEND (i : Nat) : Fld := ⟨LED_BAR_STATUS i, 3, 3⟩
def LED_BAR_STATUS_REASON (i : Nat) : Fld := ⟨LED_BAR_STATUS i, 7, 4⟩
def LED_BAR_STATUS_EMIT (i : Nat) : Fld := ⟨LED_BAR_STATUS i, 8, 8⟩
def LED_BAR_STATUS_SPEED_BLANK (i : Nat) : Fld := ⟨LED_BAR_STATUS i, 9, 9⟩
def LED_BAR_STATUS_CUTOFF (i : Nat) : Fld := ⟨LED_BAR_STATUS i, 10, 10⟩
def LED_BAR_STATUS_DERATE (i : Nat) : Fld := ⟨LED_BAR_STATUS i, 11, 11⟩
def LED_BAR_CMD (i : Nat) : Nat := 0xF1008 + 0x200 * i
def LED_BAR_CMD_CLEAR (i : Nat) : Fld := ⟨LED_BAR_CMD i, 0, 0⟩
def LED_BAR_DIST_INT (i : Nat) : Nat := 0xF100C + 0x200 * i
def LED_BAR_DIST_INT_INT (i : Nat) : Fld := ⟨LED_BAR_DIST_INT i, 23, 0⟩
def LED_BAR_DIST_FRAC (i : Nat) : Nat := 0xF1010 + 0x200 * i
def LED_BAR_DIST_FRAC_FRAC (i : Nat) : Fld := ⟨LED_BAR_DIST_FRAC i, 15, 0⟩
def LED_ROW_PITCH (i : Nat) : Nat := 0xF1014 + 0x200 * i
def LED_ROW_PITCH_PITCH (i : Nat) : Fld := ⟨LED_ROW_PITCH i, 23, 0⟩
def LED_ZONE (i : Nat) : Nat := 0xF1018 + 0x200 * i
def LED_ZONE_COL0 (i : Nat) : Fld := ⟨LED_ZONE i, 17, 0⟩
def LED_ZONE_W (i : Nat) : Nat := 0xF101C + 0x200 * i
def LED_ZONE_W_ZW (i : Nat) : Fld := ⟨LED_ZONE_W i, 12, 0⟩
def LED_DOSE (i : Nat) : Nat := 0xF1020 + 0x200 * i
def LED_DOSE_BASE (i : Nat) : Fld := ⟨LED_DOSE i, 11, 0⟩
def LED_DOSE_GAIN (i : Nat) : Fld := ⟨LED_DOSE i, 31, 16⟩
def LED_CODE_VOL (i : Nat) : Nat := 0xF1024 + 0x200 * i
def LED_CODE_VOL_VOL (i : Nat) : Fld := ⟨LED_CODE_VOL i, 31, 0⟩
def LED_VMIN (i : Nat) : Nat := 0xF1028 + 0x200 * i
def LED_VMIN_MMPS (i : Nat) : Fld := ⟨LED_VMIN i, 15, 0⟩
def LED_DERATE0 (i : Nat) : Nat := 0xF102C + 0x200 * i
def LED_DERATE0_KNEE (i : Nat) : Fld := ⟨LED_DERATE0 i, 15, 0⟩
def LED_DERATE0_CUT (i : Nat) : Fld := ⟨LED_DERATE0 i, 31, 16⟩
def LED_DERATE1 (i : Nat) : Nat := 0xF1030 + 0x200 * i
def LED_DERATE1_SLOPE (i : Nat) : Fld := ⟨LED_DERATE1 i, 7, 0⟩
def LED_DERATE1_FLOOR (i : Nat) : Fld := ⟨LED_DERATE1 i, 15, 8⟩
def LED_DERATE1_HYST (i : Nat) : Fld := ⟨LED_DERATE1 i, 31, 16⟩
def LED_BOARD_T (i : Nat) : Nat := 0xF1034 + 0x200 * i
def LED_BOARD_T_T (i : Nat) : Fld := ⟨LED_BOARD_T i, 15, 0⟩
def LED_BOARD_T_F_T (i : Nat) : Fld := ⟨LED_BOARD_T i, 25, 16⟩
def LED_DOSE_MARK (i : Nat) : Nat := 0xF1038 + 0x200 * i
def LED_DOSE_MARK_X (i : Nat) : Fld := ⟨LED_DOSE_MARK i, 31, 0⟩
def LED_TALLY_CFG (i : Nat) : Nat := 0xF103C + 0x200 * i
def LED_TALLY_CFG_LIMIT (i : Nat) : Fld := ⟨LED_TALLY_CFG i, 15, 0⟩
def LED_TALLY_CFG_WINDOW (i : Nat) : Fld := ⟨LED_TALLY_CFG i, 31, 16⟩
def LED_OPEN (u : Nat) (i : Nat) : Nat := 0xF1040 + 0x200 * u + 0x4 * i
def LED_OPEN_ZONES (u : Nat) (i : Nat) : Fld := ⟨LED_OPEN u i, 31, 0⟩
def LED_SHORT (u : Nat) (i : Nat) : Nat := 0xF1060 + 0x200 * u + 0x4 * i
def LED_SHORT_ZONES (u : Nat) (i : Nat) : Fld := ⟨LED_SHORT u i, 31, 0⟩
def LED_CHAIN_ERR (i : Nat) : Nat := 0xF1080 + 0x200 * i
def LED_CHAIN_ERR_COUNT (i : Nat) : Fld := ⟨LED_CHAIN_ERR i, 31, 0⟩
def LED_GAP_COUNT (i : Nat) : Nat := 0xF1084 + 0x200 * i
def LED_GAP_COUNT_COUNT (i : Nat) : Fld := ⟨LED_GAP_COUNT i, 31, 0⟩
def LED_SYNC_MISS (i : Nat) : Nat := 0xF1088 + 0x200 * i
def LED_SYNC_MISS_COUNT (i : Nat) : Fld := ⟨LED_SYNC_MISS i, 31, 0⟩
def LED_DC (u : Nat) (i : Nat) : Nat := 0xF1100 + 0x200 * u + 0x4 * i
def LED_DC_TARGET (u : Nat) (i : Nat) : Fld := ⟨LED_DC u i, 31, 0⟩
def LED_DC_ACTIVE (u : Nat) (i : Nat) : Nat := 0xF1140 + 0x200 * u + 0x4 * i
def LED_DC_ACTIVE_ACTIVE (u : Nat) (i : Nat) : Fld := ⟨LED_DC_ACTIVE u i, 31, 0⟩
def MOT_AX_CFG (i : Nat) : Nat := 0x100000 + 0x400 * i
def MOT_AX_CFG_ENABLE (i : Nat) : Fld := ⟨MOT_AX_CFG i, 0, 0⟩
def MOT_AX_CFG_MODE (i : Nat) : Fld := ⟨MOT_AX_CFG i, 2, 1⟩
def MOT_AX_CFG_DIR_INV (i : Nat) : Fld := ⟨MOT_AX_CFG i, 3, 3⟩
def MOT_AX_CFG_ENC_SRC (i : Nat) : Fld := ⟨MOT_AX_CFG i, 8, 4⟩
def MOT_AX_CFG_GEAR_SRC (i : Nat) : Fld := ⟨MOT_AX_CFG i, 13, 9⟩
def MOT_AX_STATUS (i : Nat) : Nat := 0x100004 + 0x400 * i
def MOT_AX_STATUS_STATE (i : Nat) : Fld := ⟨MOT_AX_STATUS i, 2, 0⟩
def MOT_AX_STATUS_PEND (i : Nat) : Fld := ⟨MOT_AX_STATUS i, 3, 3⟩
def MOT_AX_STATUS_REASON (i : Nat) : Fld := ⟨MOT_AX_STATUS i, 7, 4⟩
def MOT_AX_STATUS_STANDSTILL (i : Nat) : Fld := ⟨MOT_AX_STATUS i, 8, 8⟩
def MOT_AX_STATUS_LIM_NEG (i : Nat) : Fld := ⟨MOT_AX_STATUS i, 9, 9⟩
def MOT_AX_STATUS_LIM_POS (i : Nat) : Fld := ⟨MOT_AX_STATUS i, 10, 10⟩
def MOT_AX_STATUS_LIM_HIT (i : Nat) : Fld := ⟨MOT_AX_STATUS i, 11, 11⟩
def MOT_AX_STATUS_OVERSHOOT (i : Nat) : Fld := ⟨MOT_AX_STATUS i, 12, 12⟩
def MOT_AX_STATUS_OVERSPEED (i : Nat) : Fld := ⟨MOT_AX_STATUS i, 13, 13⟩
def MOT_AX_STATUS_CMD_ERR (i : Nat) : Fld := ⟨MOT_AX_STATUS i, 14, 14⟩
def MOT_AX_STATUS_QDEPTH (i : Nat) : Fld := ⟨MOT_AX_STATUS i, 21, 16⟩
def MOT_AX_STATUS_GDEPTH (i : Nat) : Fld := ⟨MOT_AX_STATUS i, 25, 22⟩
def MOT_AX_CMD (i : Nat) : Nat := 0x100008 + 0x400 * i
def MOT_AX_CMD_PUSH (i : Nat) : Fld := ⟨MOT_AX_CMD i, 0, 0⟩
def MOT_AX_CMD_STOP (i : Nat) : Fld := ⟨MOT_AX_CMD i, 1, 1⟩
def MOT_AX_CMD_SET_POS (i : Nat) : Fld := ⟨MOT_AX_CMD i, 2, 2⟩
def MOT_AX_CMD_GEAR_PUSH (i : Nat) : Fld := ⟨MOT_AX_CMD i, 3, 3⟩
def MOT_AX_POS (i : Nat) : Nat := 0x10000C + 0x400 * i
def MOT_AX_POS_POS (i : Nat) : Fld := ⟨MOT_AX_POS i, 31, 0⟩
def MOT_AX_VEL (i : Nat) : Nat := 0x100010 + 0x400 * i
def MOT_AX_VEL_VEL (i : Nat) : Fld := ⟨MOT_AX_VEL i, 31, 0⟩
def MOT_AX_ENC_POS (i : Nat) : Nat := 0x100014 + 0x400 * i
def MOT_AX_ENC_POS_E (i : Nat) : Fld := ⟨MOT_AX_ENC_POS i, 31, 0⟩
def MOT_AX_SETPOS (i : Nat) : Nat := 0x100018 + 0x400 * i
def MOT_AX_SETPOS_POS (i : Nat) : Fld := ⟨MOT_AX_SETPOS i, 31, 0⟩
def MOT_AX_TARGET (i : Nat) : Nat := 0x10001C + 0x400 * i
def MOT_AX_TARGET_TARGET (i : Nat) : Fld := ⟨MOT_AX_TARGET i, 31, 0⟩
def MOT_AX_VMAX (i : Nat) : Nat := 0x100020 + 0x400 * i
def MOT_AX_VMAX_VMAX (i : Nat) : Fld := ⟨MOT_AX_VMAX i, 22, 0⟩
def MOT_AX_AMAX (i : Nat) : Nat := 0x100024 + 0x400 * i
def MOT_AX_AMAX_A (i : Nat) : Fld := ⟨MOT_AX_AMAX i, 31, 0⟩
def MOT_AX_DMAX (i : Nat) : Nat := 0x100028 + 0x400 * i
def MOT_AX_DMAX_A (i : Nat) : Fld := ⟨MOT_AX_DMAX i, 31, 0⟩
def MOT_AX_LIM_DMAX (i : Nat) : Nat := 0x10002C + 0x400 * i
def MOT_AX_LIM_DMAX_A (i : Nat) : Fld := ⟨MOT_AX_LIM_DMAX i, 31, 0⟩
def MOT_AX_JMAX (i : Nat) : Nat := 0x100030 + 0x400 * i
def MOT_AX_JMAX_J (i : Nat) : Fld := ⟨MOT_AX_JMAX i, 31, 0⟩
def MOT_AX_Q_TARGET (i : Nat) : Nat := 0x100034 + 0x400 * i
def MOT_AX_Q_TARGET_TARGET (i : Nat) : Fld := ⟨MOT_AX_Q_TARGET i, 31, 0⟩
def MOT_AX_Q_VEL (i : Nat) : Nat := 0x100038 + 0x400 * i
def MOT_AX_Q_VEL_VEL (i : Nat) : Fld := ⟨MOT_AX_Q_VEL i, 22, 0⟩
def MOT_AX_CHOP (i : Nat) : Nat := 0x10003C + 0x400 * i
def MOT_AX_CHOP_TOFF (i : Nat) : Fld := ⟨MOT_AX_CHOP i, 5, 0⟩
def MOT_AX_CHOP_TBLANK (i : Nat) : Fld := ⟨MOT_AX_CHOP i, 11, 8⟩
def MOT_AX_CHOP_FD (i : Nat) : Fld := ⟨MOT_AX_CHOP i, 16, 12⟩
def MOT_AX_CUR (i : Nat) : Nat := 0x100040 + 0x400 * i
def MOT_AX_CUR_RUN (i : Nat) : Fld := ⟨MOT_AX_CUR i, 7, 0⟩
def MOT_AX_CUR_HOLD (i : Nat) : Fld := ⟨MOT_AX_CUR i, 15, 8⟩
def MOT_AX_CUR_HOLD_DELAY (i : Nat) : Fld := ⟨MOT_AX_CUR i, 31, 16⟩
def MOT_AX_ELEC_OFS (i : Nat) : Nat := 0x100044 + 0x400 * i
def MOT_AX_ELEC_OFS_ELEC_OFS (i : Nat) : Fld := ⟨MOT_AX_ELEC_OFS i, 9, 0⟩
def MOT_AX_LIM (i : Nat) : Nat := 0x100048 + 0x400 * i
def MOT_AX_LIM_NEG_EN (i : Nat) : Fld := ⟨MOT_AX_LIM i, 0, 0⟩
def MOT_AX_LIM_NEG_POL (i : Nat) : Fld := ⟨MOT_AX_LIM i, 1, 1⟩
def MOT_AX_LIM_NEG_HARD (i : Nat) : Fld := ⟨MOT_AX_LIM i, 2, 2⟩
def MOT_AX_LIM_POS_EN (i : Nat) : Fld := ⟨MOT_AX_LIM i, 4, 4⟩
def MOT_AX_LIM_POS_POL (i : Nat) : Fld := ⟨MOT_AX_LIM i, 5, 5⟩
def MOT_AX_LIM_POS_HARD (i : Nat) : Fld := ⟨MOT_AX_LIM i, 6, 6⟩
def MOT_AX_LIM_DEB (i : Nat) : Fld := ⟨MOT_AX_LIM i, 15, 8⟩
def MOT_AX_STALL (i : Nat) : Nat := 0x10004C + 0x400 * i
def MOT_AX_STALL_WIN (i : Nat) : Fld := ⟨MOT_AX_STALL i, 15, 0⟩
def MOT_AX_STALL_TIME (i : Nat) : Fld := ⟨MOT_AX_STALL i, 31, 16⟩
def MOT_AX_ENC_RATIO (i : Nat) : Nat := 0x100050 + 0x400 * i
def MOT_AX_ENC_RATIO_RATIO (i : Nat) : Fld := ⟨MOT_AX_ENC_RATIO i, 31, 0⟩
def MOT_AX_GEAR_POS (i : Nat) : Nat := 0x100054 + 0x400 * i
def MOT_AX_GEAR_POS_P (i : Nat) : Fld := ⟨MOT_AX_GEAR_POS i, 31, 0⟩
def MOT_AX_GEAR_RATIO (i : Nat) : Nat := 0x100058 + 0x400 * i
def MOT_AX_GEAR_RATIO_RATIO (i : Nat) : Fld := ⟨MOT_AX_GEAR_RATIO i, 31, 0⟩
def MOT_AX_GEAR_NOW (i : Nat) : Nat := 0x10005C + 0x400 * i
def MOT_AX_GEAR_NOW_RATIO (i : Nat) : Fld := ⟨MOT_AX_GEAR_NOW i, 31, 0⟩
def MOT_AX_GEAR_OFS (i : Nat) : Nat := 0x100060 + 0x400 * i
def MOT_AX_GEAR_OFS_OFS (i : Nat) : Fld := ⟨MOT_AX_GEAR_OFS i, 31, 0⟩
def MOT_AX_STALL_COUNT (i : Nat) : Nat := 0x100080 + 0x400 * i
def MOT_AX_STALL_COUNT_COUNT (i : Nat) : Fld := ⟨MOT_AX_STALL_COUNT i, 31, 0⟩
def MOT_AX_LIMIT_COUNT (i : Nat) : Nat := 0x100084 + 0x400 * i
def MOT_AX_LIMIT_COUNT_COUNT (i : Nat) : Fld := ⟨MOT_AX_LIMIT_COUNT i, 31, 0⟩
def MOT_WEB_CFG : Nat := 0x104000
def MOT_WEB_CFG_ENABLE : Fld := ⟨MOT_WEB_CFG, 0, 0⟩
def MOT_WEB_CFG_DIR_INV : Fld := ⟨MOT_WEB_CFG, 1, 1⟩
def MOT_WEB_CFG_RDY_POL : Fld := ⟨MOT_WEB_CFG, 2, 2⟩
def MOT_WEB_CFG_STEP_W : Fld := ⟨MOT_WEB_CFG, 15, 8⟩
def MOT_WEB_CFG_DIR_SETUP : Fld := ⟨MOT_WEB_CFG, 23, 16⟩
def MOT_WEB_STATUS : Nat := 0x104004
def MOT_WEB_STATUS_STATE : Fld := ⟨MOT_WEB_STATUS, 2, 0⟩
def MOT_WEB_STATUS_PEND : Fld := ⟨MOT_WEB_STATUS, 3, 3⟩
def MOT_WEB_STATUS_REASON : Fld := ⟨MOT_WEB_STATUS, 7, 4⟩
def MOT_WEB_STATUS_WMODE : Fld := ⟨MOT_WEB_STATUS, 10, 8⟩
def MOT_WEB_STATUS_DRIVE_READY : Fld := ⟨MOT_WEB_STATUS, 12, 12⟩
def MOT_WEB_STATUS_WEB_STOP : Fld := ⟨MOT_WEB_STATUS, 13, 13⟩
def MOT_WEB_STATUS_STANDSTILL : Fld := ⟨MOT_WEB_STATUS, 14, 14⟩
def MOT_WEB_STATUS_RATE_LIMIT : Fld := ⟨MOT_WEB_STATUS, 15, 15⟩
def MOT_WEB_STATUS_CMD_ERR : Fld := ⟨MOT_WEB_STATUS, 16, 16⟩
def MOT_WEB_STATUS_PARK_TRIES : Fld := ⟨MOT_WEB_STATUS, 19, 17⟩
def MOT_WEB_SCALE : Nat := 0x104008
def MOT_WEB_SCALE_SCALE : Fld := ⟨MOT_WEB_SCALE, 31, 0⟩
def MOT_WEB_RAMP_A : Nat := 0x10400C
def MOT_WEB_RAMP_A_ACC : Fld := ⟨MOT_WEB_RAMP_A, 15, 0⟩
def MOT_WEB_RAMP_A_DEC : Fld := ⟨MOT_WEB_RAMP_A, 31, 16⟩
def MOT_WEB_RAMP_J : Nat := 0x104010
def MOT_WEB_RAMP_J_JERK : Fld := ⟨MOT_WEB_RAMP_J, 15, 0⟩
def MOT_WEB_BACK_V : Nat := 0x104014
def MOT_WEB_BACK_V_MMPS : Fld := ⟨MOT_WEB_BACK_V, 15, 0⟩
def MOT_WEB_TRIM_MAX : Nat := 0x104018
def MOT_WEB_TRIM_MAX_MAX : Fld := ⟨MOT_WEB_TRIM_MAX, 15, 0⟩
def MOT_WEB_TARGET : Nat := 0x10401C
def MOT_WEB_TARGET_LINES : Fld := ⟨MOT_WEB_TARGET, 31, 0⟩
def MOT_WEB_CTRL : Nat := 0x104020
def MOT_WEB_CTRL_FORCE_STOP : Fld := ⟨MOT_WEB_CTRL, 0, 0⟩
def MOT_WEB_CTRL_JOG_STOP : Fld := ⟨MOT_WEB_CTRL, 1, 1⟩
def MOT_WEB_RATE : Nat := 0x104024
def MOT_WEB_RATE_RATE : Fld := ⟨MOT_WEB_RATE, 31, 0⟩
def MOT_WEB_STEPS_LO : Nat := 0x104028
def MOT_WEB_STEPS_LO_STEPS : Fld := ⟨MOT_WEB_STEPS_LO, 31, 0⟩
def MOT_WEB_STEPS_HI : Nat := 0x10402C
def MOT_WEB_STEPS_HI_STEPS : Fld := ⟨MOT_WEB_STEPS_HI, 15, 0⟩
def MOT_WEB_PARK_ERR : Nat := 0x104030
def MOT_WEB_PARK_ERR_ERR : Fld := ⟨MOT_WEB_PARK_ERR, 31, 0⟩
def MOT_IRQ_CAUSE : Nat := 0x105000
def MOT_IRQ_CAUSE_AXIS_FAULT : Fld := ⟨MOT_IRQ_CAUSE, 0, 0⟩
def MOT_IRQ_CAUSE_LIMIT_STOP : Fld := ⟨MOT_IRQ_CAUSE, 1, 1⟩
def MOT_IRQ_CAUSE_OVERSHOOT : Fld := ⟨MOT_IRQ_CAUSE, 2, 2⟩
def MOT_IRQ_CAUSE_GEAR : Fld := ⟨MOT_IRQ_CAUSE, 3, 3⟩
def MOT_IRQ_CAUSE_WEB_DRIVE_LOST : Fld := ⟨MOT_IRQ_CAUSE, 4, 4⟩
def MOT_IRQ_CAUSE_WEB_RATE_LIMIT : Fld := ⟨MOT_IRQ_CAUSE, 5, 5⟩
def MOT_IRQ_CAUSE_WEB_PARK_FAIL : Fld := ⟨MOT_IRQ_CAUSE, 6, 6⟩
def MOT_IRQ_CAUSE_WEB_STOP : Fld := ⟨MOT_IRQ_CAUSE, 7, 7⟩
def MOT_IRQ_MASK : Nat := 0x105004
def MOT_IRQ_MASK_MASK : Fld := ⟨MOT_IRQ_MASK, 7, 0⟩
def ENC_M_CFG (i : Nat) : Nat := 0x110000 + 0x100 * i
def ENC_M_CFG_ENABLE (i : Nat) : Fld := ⟨ENC_M_CFG i, 0, 0⟩
def ENC_M_CFG_EDGE (i : Nat) : Fld := ⟨ENC_M_CFG i, 1, 1⟩
def ENC_M_CFG_DIR_SRC (i : Nat) : Fld := ⟨ENC_M_CFG i, 2, 2⟩
def ENC_M_CFG_DIR_INV (i : Nat) : Fld := ⟨ENC_M_CFG i, 3, 3⟩
def ENC_M_CFG_REF_KIND (i : Nat) : Fld := ⟨ENC_M_CFG i, 5, 4⟩
def ENC_M_CFG_GAP (i : Nat) : Fld := ⟨ENC_M_CFG i, 7, 6⟩
def ENC_M_CFG_TEETH (i : Nat) : Fld := ⟨ENC_M_CFG i, 20, 8⟩
def ENC_M_CFG_FILT (i : Nat) : Fld := ⟨ENC_M_CFG i, 31, 24⟩
def ENC_M_TIME (i : Nat) : Nat := 0x110004 + 0x100 * i
def ENC_M_TIME_MIN_INT (i : Nat) : Fld := ⟨ENC_M_TIME i, 15, 0⟩
def ENC_M_TIME_STILL_T (i : Nat) : Fld := ⟨ENC_M_TIME i, 31, 16⟩
def ENC_M_STATUS (i : Nat) : Nat := 0x110008 + 0x100 * i
def ENC_M_STATUS_STATE (i : Nat) : Fld := ⟨ENC_M_STATUS i, 2, 0⟩
def ENC_M_STATUS_PEND (i : Nat) : Fld := ⟨ENC_M_STATUS i, 3, 3⟩
def ENC_M_STATUS_REASON (i : Nat) : Fld := ⟨ENC_M_STATUS i, 7, 4⟩
def ENC_M_STATUS_STANDSTILL (i : Nat) : Fld := ⟨ENC_M_STATUS i, 8, 8⟩
def ENC_M_STATUS_LOCKED (i : Nat) : Fld := ⟨ENC_M_STATUS i, 9, 9⟩
def ENC_M_STATUS_TAU_VALID (i : Nat) : Fld := ⟨ENC_M_STATUS i, 10, 10⟩
def ENC_M_STATUS_DIR (i : Nat) : Fld := ⟨ENC_M_STATUS i, 11, 11⟩
def ENC_M_STATUS_INDEX (i : Nat) : Fld := ⟨ENC_M_STATUS i, 31, 12⟩
def ENC_M_POS_LO (i : Nat) : Nat := 0x11000C + 0x100 * i
def ENC_M_POS_LO_C (i : Nat) : Fld := ⟨ENC_M_POS_LO i, 31, 0⟩
def ENC_M_POS_HI (i : Nat) : Nat := 0x110010 + 0x100 * i
def ENC_M_POS_HI_C (i : Nat) : Fld := ⟨ENC_M_POS_HI i, 15, 0⟩
def ENC_M_SPEED (i : Nat) : Nat := 0x110014 + 0x100 * i
def ENC_M_SPEED_V (i : Nat) : Fld := ⟨ENC_M_SPEED i, 31, 0⟩
def ENC_M_EDGE_LO (i : Nat) : Nat := 0x110018 + 0x100 * i
def ENC_M_EDGE_LO_TIME (i : Nat) : Fld := ⟨ENC_M_EDGE_LO i, 31, 0⟩
def ENC_M_EDGE_HI (i : Nat) : Nat := 0x11001C + 0x100 * i
def ENC_M_EDGE_HI_TIME (i : Nat) : Fld := ⟨ENC_M_EDGE_HI i, 31, 0⟩
def ENC_M_SHORT_COUNT (i : Nat) : Nat := 0x110020 + 0x100 * i
def ENC_M_SHORT_COUNT_COUNT (i : Nat) : Fld := ⟨ENC_M_SHORT_COUNT i, 31, 0⟩
def ENC_M_TOOTH_COUNT (i : Nat) : Nat := 0x110024 + 0x100 * i
def ENC_M_TOOTH_COUNT_COUNT (i : Nat) : Fld := ⟨ENC_M_TOOTH_COUNT i, 31, 0⟩
def ENC_M_REF_COUNT (i : Nat) : Nat := 0x110028 + 0x100 * i
def ENC_M_REF_COUNT_COUNT (i : Nat) : Fld := ⟨ENC_M_REF_COUNT i, 31, 0⟩
def ENC_M_TALLY (i : Nat) : Nat := 0x11002C + 0x100 * i
def ENC_M_TALLY_COUNT (i : Nat) : Fld := ⟨ENC_M_TALLY i, 15, 0⟩
def ENC_M_TALLY_LAST (i : Nat) : Fld := ⟨ENC_M_TALLY i, 31, 16⟩
def ENC_M_TALLY_CFG (i : Nat) : Nat := 0x110030 + 0x100 * i
def ENC_M_TALLY_CFG_LIMIT (i : Nat) : Fld := ⟨ENC_M_TALLY_CFG i, 15, 0⟩
def ENC_M_TALLY_CFG_WINDOW (i : Nat) : Fld := ⟨ENC_M_TALLY_CFG i, 31, 16⟩
def ENC_Q_CFG (i : Nat) : Nat := 0x111000 + 0x40 * i
def ENC_Q_CFG_ENABLE (i : Nat) : Fld := ⟨ENC_Q_CFG i, 0, 0⟩
def ENC_Q_CFG_DIR_INV (i : Nat) : Fld := ⟨ENC_Q_CFG i, 1, 1⟩
def ENC_Q_CFG_FILT (i : Nat) : Fld := ⟨ENC_Q_CFG i, 15, 8⟩
def ENC_Q_CFG_STILL_T (i : Nat) : Fld := ⟨ENC_Q_CFG i, 31, 16⟩
def ENC_Q_STATUS (i : Nat) : Nat := 0x111004 + 0x40 * i
def ENC_Q_STATUS_STATE (i : Nat) : Fld := ⟨ENC_Q_STATUS i, 2, 0⟩
def ENC_Q_STATUS_PEND (i : Nat) : Fld := ⟨ENC_Q_STATUS i, 3, 3⟩
def ENC_Q_STATUS_REASON (i : Nat) : Fld := ⟨ENC_Q_STATUS i, 7, 4⟩
def ENC_Q_STATUS_STANDSTILL (i : Nat) : Fld := ⟨ENC_Q_STATUS i, 8, 8⟩
def ENC_Q_STATUS_DIR (i : Nat) : Fld := ⟨ENC_Q_STATUS i, 9, 9⟩
def ENC_Q_STATUS_ILLEGAL (i : Nat) : Fld := ⟨ENC_Q_STATUS i, 10, 10⟩
def ENC_Q_COUNT (i : Nat) : Nat := 0x111008 + 0x40 * i
def ENC_Q_COUNT_COUNT (i : Nat) : Fld := ⟨ENC_Q_COUNT i, 31, 0⟩
def ENC_Q_SPEED (i : Nat) : Nat := 0x11100C + 0x40 * i
def ENC_Q_SPEED_V (i : Nat) : Fld := ⟨ENC_Q_SPEED i, 31, 0⟩
def ENC_Q_ILLEGAL_COUNT (i : Nat) : Nat := 0x111010 + 0x40 * i
def ENC_Q_ILLEGAL_COUNT_COUNT (i : Nat) : Fld := ⟨ENC_Q_ILLEGAL_COUNT i, 31, 0⟩
def ENC_Q_TALLY (i : Nat) : Nat := 0x111014 + 0x40 * i
def ENC_Q_TALLY_COUNT (i : Nat) : Fld := ⟨ENC_Q_TALLY i, 15, 0⟩
def ENC_Q_TALLY_LAST (i : Nat) : Fld := ⟨ENC_Q_TALLY i, 31, 16⟩
def ENC_Q_TALLY_CFG (i : Nat) : Nat := 0x111018 + 0x40 * i
def ENC_Q_TALLY_CFG_LIMIT (i : Nat) : Fld := ⟨ENC_Q_TALLY_CFG i, 15, 0⟩
def ENC_Q_TALLY_CFG_WINDOW (i : Nat) : Fld := ⟨ENC_Q_TALLY_CFG i, 31, 16⟩
def ENC_S_CFG (i : Nat) : Nat := 0x112000 + 0x80 * i
def ENC_S_CFG_ENABLE (i : Nat) : Fld := ⟨ENC_S_CFG i, 0, 0⟩
def ENC_S_CFG_GRAY (i : Nat) : Fld := ⟨ENC_S_CFG i, 1, 1⟩
def ENC_S_CFG_ERR_EN (i : Nat) : Fld := ⟨ENC_S_CFG i, 2, 2⟩
def ENC_S_CFG_ERR_POL (i : Nat) : Fld := ⟨ENC_S_CFG i, 3, 3⟩
def ENC_S_CFG_CRC_INV (i : Nat) : Fld := ⟨ENC_S_CFG i, 4, 4⟩
def ENC_S_CFG_LEN (i : Nat) : Fld := ⟨ENC_S_CFG i, 14, 8⟩
def ENC_S_CFG_CRC_LEN (i : Nat) : Fld := ⟨ENC_S_CFG i, 20, 16⟩
def ENC_S_CFG_ERR_POS (i : Nat) : Fld := ⟨ENC_S_CFG i, 29, 24⟩
def ENC_S_FIELD (i : Nat) : Nat := 0x112004 + 0x80 * i
def ENC_S_FIELD_POS_LSB (i : Nat) : Fld := ⟨ENC_S_FIELD i, 5, 0⟩
def ENC_S_FIELD_POS_LEN (i : Nat) : Fld := ⟨ENC_S_FIELD i, 13, 8⟩
def ENC_S_CRC (i : Nat) : Nat := 0x112008 + 0x80 * i
def ENC_S_CRC_CRC_POLY (i : Nat) : Fld := ⟨ENC_S_CRC i, 15, 0⟩
def ENC_S_CRC_CRC_INIT (i : Nat) : Fld := ⟨ENC_S_CRC i, 31, 16⟩
def ENC_S_CLK (i : Nat) : Nat := 0x11200C + 0x80 * i
def ENC_S_CLK_DIV (i : Nat) : Fld := ⟨ENC_S_CLK i, 9, 0⟩
def ENC_S_CLK_DLY (i : Nat) : Fld := ⟨ENC_S_CLK i, 23, 16⟩
def ENC_S_TIME (i : Nat) : Nat := 0x112010 + 0x80 * i
def ENC_S_TIME_PERIOD (i : Nat) : Fld := ⟨ENC_S_TIME i, 15, 0⟩
def ENC_S_TIME_TIMEOUT (i : Nat) : Fld := ⟨ENC_S_TIME i, 31, 16⟩
def ENC_S_STATUS (i : Nat) : Nat := 0x112014 + 0x80 * i
def ENC_S_STATUS_STATE (i : Nat) : Fld := ⟨ENC_S_STATUS i, 2, 0⟩
def ENC_S_STATUS_PEND (i : Nat) : Fld := ⟨ENC_S_STATUS i, 3, 3⟩
def ENC_S_STATUS_REASON (i : Nat) : Fld := ⟨ENC_S_STATUS i, 7, 4⟩
def ENC_S_STATUS_STANDSTILL (i : Nat) : Fld := ⟨ENC_S_STATUS i, 8, 8⟩
def ENC_S_STATUS_DIR (i : Nat) : Fld := ⟨ENC_S_STATUS i, 9, 9⟩
def ENC_S_COUNT (i : Nat) : Nat := 0x112018 + 0x80 * i
def ENC_S_COUNT_COUNT (i : Nat) : Fld := ⟨ENC_S_COUNT i, 31, 0⟩
def ENC_S_SPEED (i : Nat) : Nat := 0x11201C + 0x80 * i
def ENC_S_SPEED_V (i : Nat) : Fld := ⟨ENC_S_SPEED i, 31, 0⟩
def ENC_S_RAW_LO (i : Nat) : Nat := 0x112020 + 0x80 * i
def ENC_S_RAW_LO_WORD (i : Nat) : Fld := ⟨ENC_S_RAW_LO i, 31, 0⟩
def ENC_S_RAW_HI (i : Nat) : Nat := 0x112024 + 0x80 * i
def ENC_S_RAW_HI_WORD (i : Nat) : Fld := ⟨ENC_S_RAW_HI i, 31, 0⟩
def ENC_S_TIMEOUT_COUNT (i : Nat) : Nat := 0x112028 + 0x80 * i
def ENC_S_TIMEOUT_COUNT_COUNT (i : Nat) : Fld := ⟨ENC_S_TIMEOUT_COUNT i, 31, 0⟩
def ENC_S_CRC_COUNT (i : Nat) : Nat := 0x11202C + 0x80 * i
def ENC_S_CRC_COUNT_COUNT (i : Nat) : Fld := ⟨ENC_S_CRC_COUNT i, 31, 0⟩
def ENC_S_ERRBIT_COUNT (i : Nat) : Nat := 0x112030 + 0x80 * i
def ENC_S_ERRBIT_COUNT_COUNT (i : Nat) : Fld := ⟨ENC_S_ERRBIT_COUNT i, 31, 0⟩
def ENC_S_TALLY (i : Nat) : Nat := 0x112034 + 0x80 * i
def ENC_S_TALLY_COUNT (i : Nat) : Fld := ⟨ENC_S_TALLY i, 15, 0⟩
def ENC_S_TALLY_LAST (i : Nat) : Fld := ⟨ENC_S_TALLY i, 31, 16⟩
def ENC_S_TALLY_CFG (i : Nat) : Nat := 0x112038 + 0x80 * i
def ENC_S_TALLY_CFG_LIMIT (i : Nat) : Fld := ⟨ENC_S_TALLY_CFG i, 15, 0⟩
def ENC_S_TALLY_CFG_WINDOW (i : Nat) : Fld := ⟨ENC_S_TALLY_CFG i, 31, 16⟩
def ENC_MASTER_SEL : Nat := 0x113000
def ENC_MASTER_SEL_SEL : Fld := ⟨ENC_MASTER_SEL, 0, 0⟩
def ENC_XCHK : Nat := 0x113004
def ENC_XCHK_EN : Fld := ⟨ENC_XCHK, 0, 0⟩
def ENC_XCHK_XSTOP : Fld := ⟨ENC_XCHK, 1, 1⟩
def ENC_XCHK_MISMATCH : Fld := ⟨ENC_XCHK, 2, 2⟩
def ENC_XCHK_XWIN : Fld := ⟨ENC_XCHK, 31, 16⟩
def ENC_XCHK_RATIO : Nat := 0x113008
def ENC_XCHK_RATIO_XRATIO : Fld := ⟨ENC_XCHK_RATIO, 31, 0⟩
def ENC_XCHK_D : Nat := 0x11300C
def ENC_XCHK_D_D : Fld := ⟨ENC_XCHK_D, 31, 0⟩
def ENC_IRQ_CAUSE : Nat := 0x113100
def ENC_IRQ_CAUSE_INPUT_FAULT : Fld := ⟨ENC_IRQ_CAUSE, 0, 0⟩
def ENC_IRQ_CAUSE_REF_FAULT : Fld := ⟨ENC_IRQ_CAUSE, 1, 1⟩
def ENC_IRQ_CAUSE_ILLEGAL : Fld := ⟨ENC_IRQ_CAUSE, 2, 2⟩
def ENC_IRQ_CAUSE_MISMATCH : Fld := ⟨ENC_IRQ_CAUSE, 3, 3⟩
def ENC_IRQ_CAUSE_MASTER_LOST : Fld := ⟨ENC_IRQ_CAUSE, 4, 4⟩
def ENC_IRQ_CAUSE_MISMATCH_NOW : Fld := ⟨ENC_IRQ_CAUSE, 5, 5⟩
def ENC_IRQ_MASK : Nat := 0x113104
def ENC_IRQ_MASK_MASK : Fld := ⟨ENC_IRQ_MASK, 5, 0⟩
def LPE_CFG (i : Nat) : Nat := 0x120000 + 0x100 * i
def LPE_CFG_ENABLE (i : Nat) : Fld := ⟨LPE_CFG i, 0, 0⟩
def LPE_CFG_HOLD (i : Nat) : Fld := ⟨LPE_CFG i, 1, 1⟩
def LPE_CFG_REARM (i : Nat) : Fld := ⟨LPE_CFG i, 2, 2⟩
def LPE_CFG_DIV (i : Nat) : Fld := ⟨LPE_CFG i, 14, 4⟩
def LPE_CFG_PHASE (i : Nat) : Fld := ⟨LPE_CFG i, 25, 16⟩
def LPE_SRC (i : Nat) : Nat := 0x120004 + 0x100 * i
def LPE_SRC_IN_SRC (i : Nat) : Fld := ⟨LPE_SRC i, 3, 0⟩
def LPE_SRC_IN_IDX (i : Nat) : Fld := ⟨LPE_SRC i, 8, 4⟩
def LPE_SRC_OUT_DST (i : Nat) : Fld := ⟨LPE_SRC i, 15, 12⟩
def LPE_SRC_OUT_IDX (i : Nat) : Fld := ⟨LPE_SRC i, 20, 16⟩
def LPE_STATUS (i : Nat) : Nat := 0x120008 + 0x100 * i
def LPE_STATUS_STATE (i : Nat) : Fld := ⟨LPE_STATUS i, 2, 0⟩
def LPE_STATUS_PEND (i : Nat) : Fld := ⟨LPE_STATUS i, 3, 3⟩
def LPE_STATUS_REASON (i : Nat) : Fld := ⟨LPE_STATUS i, 7, 4⟩
def LPE_STATUS_HELD (i : Nat) : Fld := ⟨LPE_STATUS i, 8, 8⟩
def LPE_STATUS_IN_INVALID (i : Nat) : Fld := ⟨LPE_STATUS i, 9, 9⟩
def LPE_STATUS_SAT (i : Nat) : Fld := ⟨LPE_STATUS i, 10, 10⟩
def LPE_STATUS_SP_LOCK (i : Nat) : Fld := ⟨LPE_STATUS i, 11, 11⟩
def LPE_STATUS_OUT_BLOCKED (i : Nat) : Fld := ⟨LPE_STATUS i, 12, 12⟩
def LPE_STATUS_CMD_ERR (i : Nat) : Fld := ⟨LPE_STATUS i, 13, 13⟩
def LPE_STATUS_SUP_COUNT (i : Nat) : Fld := ⟨LPE_STATUS i, 31, 16⟩
def LPE_IN_GAIN (i : Nat) : Nat := 0x120010 + 0x100 * i
def LPE_IN_GAIN_GAIN (i : Nat) : Fld := ⟨LPE_IN_GAIN i, 31, 0⟩
def LPE_IN_OFS (i : Nat) : Nat := 0x120014 + 0x100 * i
def LPE_IN_OFS_OFS (i : Nat) : Fld := ⟨LPE_IN_OFS i, 31, 0⟩
def LPE_B0 (i : Nat) : Nat := 0x120018 + 0x100 * i
def LPE_B0_COEF (i : Nat) : Fld := ⟨LPE_B0 i, 31, 0⟩
def LPE_B1 (i : Nat) : Nat := 0x12001C + 0x100 * i
def LPE_B1_COEF (i : Nat) : Fld := ⟨LPE_B1 i, 31, 0⟩
def LPE_B2 (i : Nat) : Nat := 0x120020 + 0x100 * i
def LPE_B2_COEF (i : Nat) : Fld := ⟨LPE_B2 i, 31, 0⟩
def LPE_A1 (i : Nat) : Nat := 0x120024 + 0x100 * i
def LPE_A1_COEF (i : Nat) : Fld := ⟨LPE_A1 i, 31, 0⟩
def LPE_A2 (i : Nat) : Nat := 0x120028 + 0x100 * i
def LPE_A2_COEF (i : Nat) : Fld := ⟨LPE_A2 i, 31, 0⟩
def LPE_SP (i : Nat) : Nat := 0x12002C + 0x100 * i
def LPE_SP_SP (i : Nat) : Fld := ⟨LPE_SP i, 31, 0⟩
def LPE_KP (i : Nat) : Nat := 0x120030 + 0x100 * i
def LPE_KP_GAIN (i : Nat) : Fld := ⟨LPE_KP i, 31, 0⟩
def LPE_KI (i : Nat) : Nat := 0x120034 + 0x100 * i
def LPE_KI_GAIN (i : Nat) : Fld := ⟨LPE_KI i, 31, 0⟩
def LPE_KD (i : Nat) : Nat := 0x120038 + 0x100 * i
def LPE_KD_GAIN (i : Nat) : Fld := ⟨LPE_KD i, 31, 0⟩
def LPE_KFF (i : Nat) : Nat := 0x12003C + 0x100 * i
def LPE_KFF_GAIN (i : Nat) : Fld := ⟨LPE_KFF i, 31, 0⟩
def LPE_BIAS (i : Nat) : Nat := 0x120040 + 0x100 * i
def LPE_BIAS_GAIN (i : Nat) : Fld := ⟨LPE_BIAS i, 31, 0⟩
def LPE_OUT_MIN (i : Nat) : Nat := 0x120044 + 0x100 * i
def LPE_OUT_MIN_VALUE (i : Nat) : Fld := ⟨LPE_OUT_MIN i, 31, 0⟩
def LPE_OUT_MAX (i : Nat) : Nat := 0x120048 + 0x100 * i
def LPE_OUT_MAX_VALUE (i : Nat) : Fld := ⟨LPE_OUT_MAX i, 31, 0⟩
def LPE_SAFE_OUT (i : Nat) : Nat := 0x12004C + 0x100 * i
def LPE_SAFE_OUT_VALUE (i : Nat) : Fld := ⟨LPE_SAFE_OUT i, 31, 0⟩
def LPE_M_GAIN (i : Nat) : Nat := 0x120050 + 0x100 * i
def LPE_M_GAIN_VALUE (i : Nat) : Fld := ⟨LPE_M_GAIN i, 31, 0⟩
def LPE_M_TAU (i : Nat) : Nat := 0x120054 + 0x100 * i
def LPE_M_TAU_VALUE (i : Nat) : Fld := ⟨LPE_M_TAU i, 31, 0⟩
def LPE_M_OFS (i : Nat) : Nat := 0x120058 + 0x100 * i
def LPE_M_OFS_VALUE (i : Nat) : Fld := ⟨LPE_M_OFS i, 31, 0⟩
def LPE_M_WIN (i : Nat) : Nat := 0x12005C + 0x100 * i
def LPE_M_WIN_VALUE (i : Nat) : Fld := ⟨LPE_M_WIN i, 31, 0⟩
def LPE_M_CFG (i : Nat) : Nat := 0x120060 + 0x100 * i
def LPE_M_CFG_DT (i : Nat) : Fld := ⟨LPE_M_CFG i, 5, 0⟩
def LPE_M_CFG_M_N (i : Nat) : Fld := ⟨LPE_M_CFG i, 31, 16⟩
def LPE_INTEG (i : Nat) : Nat := 0x120064 + 0x100 * i
def LPE_INTEG_I (i : Nat) : Fld := ⟨LPE_INTEG i, 31, 0⟩
def LPE_Y (i : Nat) : Nat := 0x120068 + 0x100 * i
def LPE_Y_VALUE (i : Nat) : Fld := ⟨LPE_Y i, 31, 0⟩
def LPE_ERR (i : Nat) : Nat := 0x12006C + 0x100 * i
def LPE_ERR_VALUE (i : Nat) : Fld := ⟨LPE_ERR i, 31, 0⟩
def LPE_OUT (i : Nat) : Nat := 0x120070 + 0x100 * i
def LPE_OUT_VALUE (i : Nat) : Fld := ⟨LPE_OUT i, 31, 0⟩
def LPE_MODEL (i : Nat) : Nat := 0x120074 + 0x100 * i
def LPE_MODEL_VALUE (i : Nat) : Fld := ⟨LPE_MODEL i, 31, 0⟩
def LPE_INVALID_COUNT (i : Nat) : Nat := 0x120078 + 0x100 * i
def LPE_INVALID_COUNT_COUNT (i : Nat) : Fld := ⟨LPE_INVALID_COUNT i, 31, 0⟩
def LPE_SW_IN (i : Nat) : Nat := 0x122000 + 0x4 * i
def LPE_SW_IN_VALUE (i : Nat) : Fld := ⟨LPE_SW_IN i, 31, 0⟩
def LPE_IRQ_CAUSE : Nat := 0x122100
def LPE_IRQ_CAUSE_FAULT : Fld := ⟨LPE_IRQ_CAUSE, 0, 0⟩
def LPE_IRQ_CAUSE_INVALID : Fld := ⟨LPE_IRQ_CAUSE, 1, 1⟩
def LPE_IRQ_CAUSE_SAT : Fld := ⟨LPE_IRQ_CAUSE, 2, 2⟩
def LPE_IRQ_MASK : Nat := 0x122104
def LPE_IRQ_MASK_MASK : Fld := ⟨LPE_IRQ_MASK, 2, 0⟩
def DMC_CFG : Nat := 0x130000
def DMC_CFG_CH2 : Fld := ⟨DMC_CFG, 0, 0⟩
def DMC_CFG_RANKS2 : Fld := ⟨DMC_CFG, 1, 1⟩
def DMC_CFG_D16 : Fld := ⟨DMC_CFG, 2, 2⟩
def DMC_CFG_RATE : Fld := ⟨DMC_CFG, 4, 3⟩
def DMC_CTRL : Nat := 0x130004
def DMC_CTRL_INIT : Fld := ⟨DMC_CTRL, 0, 0⟩
def DMC_CTRL_OPEN : Fld := ⟨DMC_CTRL, 1, 1⟩
def DMC_CTRL_ZERO_FILL : Fld := ⟨DMC_CTRL, 2, 2⟩
def DMC_CTRL_WB_ON_CE : Fld := ⟨DMC_CTRL, 3, 3⟩
def DMC_CTRL_DRIFT_EN : Fld := ⟨DMC_CTRL, 4, 4⟩
def DMC_STATUS : Nat := 0x130008
def DMC_STATUS_INIT_DONE : Fld := ⟨DMC_STATUS, 0, 0⟩
def DMC_STATUS_READY : Fld := ⟨DMC_STATUS, 1, 1⟩
def DMC_STATUS_FILLING : Fld := ⟨DMC_STATUS, 2, 2⟩
def DMC_STATUS_RFM_REQ : Fld := ⟨DMC_STATUS, 3, 3⟩
def DMC_STATUS_HOT : Fld := ⟨DMC_STATUS, 4, 4⟩
def DMC_STATUS_SIZE : Fld := ⟨DMC_STATUS, 15, 8⟩
def DMC_STATUS_INIT_ERR : Fld := ⟨DMC_STATUS, 19, 16⟩
def DMC_REF_CFG : Nat := 0x130010
def DMC_REF_CFG_SAME_BANK : Fld := ⟨DMC_REF_CFG, 0, 0⟩
def DMC_REF_CFG_POSTPONE : Fld := ⟨DMC_REF_CFG, 3, 1⟩
def DMC_SCRUB_CFG : Nat := 0x130014
def DMC_SCRUB_CFG_EN : Fld := ⟨DMC_SCRUB_CFG, 0, 0⟩
def DMC_SCRUB_CFG_HOURS : Fld := ⟨DMC_SCRUB_CFG, 15, 8⟩
def DMC_SCRUB_STATUS : Nat := 0x130018
def DMC_SCRUB_STATUS_PASSES : Fld := ⟨DMC_SCRUB_STATUS, 15, 0⟩
def DMC_SCRUB_STATUS_PROGRESS : Fld := ⟨DMC_SCRUB_STATUS, 31, 16⟩
def DMC_RH_CFG : Nat := 0x130020
def DMC_RH_CFG_THRESH : Fld := ⟨DMC_RH_CFG, 15, 0⟩
def DMC_RH_CFG_EN : Fld := ⟨DMC_RH_CFG, 16, 16⟩
def DMC_RH_CFG_NEIGH2 : Fld := ⟨DMC_RH_CFG, 17, 17⟩
def DMC_RH_CFG_RFM_EN : Fld := ⟨DMC_RH_CFG, 18, 18⟩
def DMC_RH_COUNT : Nat := 0x130024
def DMC_RH_COUNT_COUNT : Fld := ⟨DMC_RH_COUNT, 31, 0⟩
def DMC_CE_COUNT : Nat := 0x130030
def DMC_CE_COUNT_COUNT : Fld := ⟨DMC_CE_COUNT, 31, 0⟩
def DMC_UE_COUNT : Nat := 0x130034
def DMC_UE_COUNT_COUNT : Fld := ⟨DMC_UE_COUNT, 31, 0⟩
def DMC_POISON_WR_COUNT : Nat := 0x130038
def DMC_POISON_WR_COUNT_COUNT : Fld := ⟨DMC_POISON_WR_COUNT, 31, 0⟩
def DMC_WB_DROP_COUNT : Nat := 0x13003C
def DMC_WB_DROP_COUNT_COUNT : Fld := ⟨DMC_WB_DROP_COUNT, 31, 0⟩
def DMC_ERR_ADDR_LO : Nat := 0x130040
def DMC_ERR_ADDR_LO_ADDR : Fld := ⟨DMC_ERR_ADDR_LO, 31, 0⟩
def DMC_ERR_ADDR_HI : Nat := 0x130044
def DMC_ERR_ADDR_HI_ADDR : Fld := ⟨DMC_ERR_ADDR_HI, 3, 0⟩
def DMC_ERR_INFO : Nat := 0x130048
def DMC_ERR_INFO_SRC : Fld := ⟨DMC_ERR_INFO, 3, 0⟩
def DMC_ERR_INFO_CW : Fld := ⟨DMC_ERR_INFO, 7, 4⟩
def DMC_ERR_INFO_MARK : Fld := ⟨DMC_ERR_INFO, 8, 8⟩
def DMC_ERR_INFO_VALID : Fld := ⟨DMC_ERR_INFO, 9, 9⟩
def DMC_DEV_THR : Nat := 0x13004C
def DMC_DEV_THR_THR : Fld := ⟨DMC_DEV_THR, 15, 0⟩
def DMC_DEV_CE (i : Nat) : Nat := 0x130100 + 0x4 * i
def DMC_DEV_CE_COUNT (i : Nat) : Fld := ⟨DMC_DEV_CE i, 31, 0⟩
def DMC_TRAIN_CTRL : Nat := 0x130300
def DMC_TRAIN_CTRL_HOLD : Fld := ⟨DMC_TRAIN_CTRL, 3, 0⟩
def DMC_TRAIN_CTRL_BASE : Fld := ⟨DMC_TRAIN_CTRL, 31, 16⟩
def DMC_PAT_CFG : Nat := 0x130304
def DMC_PAT_CFG_MODE : Fld := ⟨DMC_PAT_CFG, 1, 0⟩
def DMC_PAT_CFG_SEED : Fld := ⟨DMC_PAT_CFG, 30, 8⟩
def DMC_SWEEP_CFG : Nat := 0x130308
def DMC_SWEEP_CFG_KIND : Fld := ⟨DMC_SWEEP_CFG, 2, 0⟩
def DMC_SWEEP_CFG_SUBCH : Fld := ⟨DMC_SWEEP_CFG, 4, 3⟩
def DMC_SWEEP_CFG_RANK : Fld := ⟨DMC_SWEEP_CFG, 5, 5⟩
def DMC_SWEEP_CFG_N : Fld := ⟨DMC_SWEEP_CFG, 23, 8⟩
def DMC_SWEEP_CFG_STEP : Fld := ⟨DMC_SWEEP_CFG, 31, 24⟩
def DMC_SWEEP_RANGE : Nat := 0x13030C
def DMC_SWEEP_RANGE_START : Fld := ⟨DMC_SWEEP_RANGE, 8, 0⟩
def DMC_SWEEP_RANGE_STOP : Fld := ⟨DMC_SWEEP_RANGE, 24, 16⟩
def DMC_SWEEP_CMD : Nat := 0x130310
def DMC_SWEEP_CMD_GO : Fld := ⟨DMC_SWEEP_CMD, 0, 0⟩
def DMC_SWEEP_CMD_ABORT : Fld := ⟨DMC_SWEEP_CMD, 1, 1⟩
def DMC_SWEEP_STATUS : Nat := 0x130314
def DMC_SWEEP_STATUS_BUSY : Fld := ⟨DMC_SWEEP_STATUS, 0, 0⟩
def DMC_SWEEP_STATUS_DONE : Fld := ⟨DMC_SWEEP_STATUS, 1, 1⟩
def DMC_SWEEP_STATUS_POINT : Fld := ⟨DMC_SWEEP_STATUS, 24, 16⟩
def DMC_LANE_MASK_LO : Nat := 0x130318
def DMC_LANE_MASK_LO_MASK : Fld := ⟨DMC_LANE_MASK_LO, 31, 0⟩
def DMC_LANE_MASK_HI : Nat := 0x13031C
def DMC_LANE_MASK_HI_MASK : Fld := ⟨DMC_LANE_MASK_HI, 7, 0⟩
def DMC_DLY_SEL : Nat := 0x130320
def DMC_DLY_SEL_KIND : Fld := ⟨DMC_DLY_SEL, 2, 0⟩
def DMC_DLY_SEL_SUBCH : Fld := ⟨DMC_DLY_SEL, 4, 3⟩
def DMC_DLY_SEL_RANK : Fld := ⟨DMC_DLY_SEL, 5, 5⟩
def DMC_DLY_SEL_LANE : Fld := ⟨DMC_DLY_SEL, 13, 8⟩
def DMC_DLY_SEL_AUTO_INC : Fld := ⟨DMC_DLY_SEL, 31, 31⟩
def DMC_DLY_DATA : Nat := 0x130324
def DMC_DLY_DATA_TARGET : Fld := ⟨DMC_DLY_DATA, 8, 0⟩
def DMC_DLY_DATA_LIVE : Fld := ⟨DMC_DLY_DATA, 24, 16⟩
def DMC_PAT_USER (i : Nat) : Nat := 0x130400 + 0x4 * i
def DMC_PAT_USER_LANES (i : Nat) : Fld := ⟨DMC_PAT_USER i, 31, 0⟩
def DMC_LANE_ERR (i : Nat) : Nat := 0x130600 + 0x4 * i
def DMC_LANE_ERR_ERR (i : Nat) : Fld := ⟨DMC_LANE_ERR i, 15, 0⟩
def DMC_EYE (i : Nat) : Nat := 0x130700 + 0x4 * i
def DMC_EYE_FIRST (i : Nat) : Fld := ⟨DMC_EYE i, 8, 0⟩
def DMC_EYE_LAST (i : Nat) : Fld := ⟨DMC_EYE i, 24, 16⟩
def DMC_EYE_VALID (i : Nat) : Fld := ⟨DMC_EYE i, 31, 31⟩
def DMC_IRQ_CAUSE : Nat := 0x130800
def DMC_IRQ_CAUSE_INIT : Fld := ⟨DMC_IRQ_CAUSE, 0, 0⟩
def DMC_IRQ_CAUSE_READY : Fld := ⟨DMC_IRQ_CAUSE, 1, 1⟩
def DMC_IRQ_CAUSE_UE : Fld := ⟨DMC_IRQ_CAUSE, 2, 2⟩
def DMC_IRQ_CAUSE_DEVICE : Fld := ⟨DMC_IRQ_CAUSE, 3, 3⟩
def DMC_IRQ_CAUSE_HOT : Fld := ⟨DMC_IRQ_CAUSE, 4, 4⟩
def DMC_IRQ_CAUSE_SWEEP : Fld := ⟨DMC_IRQ_CAUSE, 5, 5⟩
def DMC_IRQ_CAUSE_HELD : Fld := ⟨DMC_IRQ_CAUSE, 6, 6⟩
def DMC_IRQ_MASK : Nat := 0x130804
def DMC_IRQ_MASK_MASK : Fld := ⟨DMC_IRQ_MASK, 6, 0⟩
def PAR_CFG : Nat := 0x140000
def PAR_CFG_ROLE : Fld := ⟨PAR_CFG, 1, 0⟩
def PAR_CFG_MIRROR_EN : Fld := ⟨PAR_CFG, 2, 2⟩
def PAR_CFG_AUTO_CLAIM : Fld := ⟨PAR_CFG, 3, 3⟩
def PAR_CFG_AUTO_YIELD : Fld := ⟨PAR_CFG, 4, 4⟩
def PAR_CFG_FENCE_EN : Fld := ⟨PAR_CFG, 5, 5⟩
def PAR_CFG_FIRE_EN : Fld := ⟨PAR_CFG, 6, 6⟩
def PAR_STATUS : Nat := 0x140004
def PAR_STATUS_PSTATE : Fld := ⟨PAR_STATUS, 2, 0⟩
def PAR_STATUS_AUTH : Fld := ⟨PAR_STATUS, 3, 3⟩
def PAR_STATUS_PEER_AUTH : Fld := ⟨PAR_STATUS, 4, 4⟩
def PAR_STATUS_MIRROR_UP : Fld := ⟨PAR_STATUS, 5, 5⟩
def PAR_STATUS_SOLO : Fld := ⟨PAR_STATUS, 6, 6⟩
def PAR_STATUS_POS_MISMATCH : Fld := ⟨PAR_STATUS, 7, 7⟩
def PAR_STATUS_CMD_ERR : Fld := ⟨PAR_STATUS, 8, 8⟩
def PAR_STATUS_FENCED : Fld := ⟨PAR_STATUS, 9, 9⟩
def PAR_LEASE : Nat := 0x140008
def PAR_LEASE_HOLDER : Fld := ⟨PAR_LEASE, 1, 0⟩
def PAR_LEASE_AGE : Fld := ⟨PAR_LEASE, 31, 16⟩
def PAR_EPOCH : Nat := 0x14000C
def PAR_EPOCH_EPOCH : Fld := ⟨PAR_EPOCH, 31, 0⟩
def PAR_CMD : Nat := 0x140010
def PAR_CMD_CLAIM : Fld := ⟨PAR_CMD, 0, 0⟩
def PAR_CMD_YIELD : Fld := ⟨PAR_CMD, 1, 1⟩
def PAR_CMD_HANDOVER : Fld := ⟨PAR_CMD, 2, 2⟩
def PAR_CMD_RESYNC : Fld := ⟨PAR_CMD, 3, 3⟩
def PAR_AUTH_WAIT : Nat := 0x140014
def PAR_AUTH_WAIT_MS : Fld := ⟨PAR_AUTH_WAIT, 15, 0⟩
def PAR_JRN_BASE : Nat := 0x140018
def PAR_JRN_BASE_MIB : Fld := ⟨PAR_JRN_BASE, 15, 0⟩
def PAR_JRN_SIZE : Nat := 0x14001C
def PAR_JRN_SIZE_MIB : Fld := ⟨PAR_JRN_SIZE, 15, 0⟩
def PAR_JRN_LAG : Nat := 0x140020
def PAR_JRN_LAG_BYTES : Fld := ⟨PAR_JRN_LAG, 31, 0⟩
def PAR_ADOPT_RING : Nat := 0x140024
def PAR_ADOPT_RING_RING : Fld := ⟨PAR_ADOPT_RING, 1, 0⟩
def PAR_HEALTH : Nat := 0x140028
def PAR_HEALTH_READY : Fld := ⟨PAR_HEALTH, 0, 0⟩
def PAR_HEALTH_SRAM_OK : Fld := ⟨PAR_HEALTH, 1, 1⟩
def PAR_HEALTH_MRAM_OK : Fld := ⟨PAR_HEALTH, 2, 2⟩
def PAR_HEALTH_DRAM_OK : Fld := ⟨PAR_HEALTH, 3, 3⟩
def PAR_HEALTH_PORTS : Fld := ⟨PAR_HEALTH, 31, 8⟩
def PAR_PEER_HEALTH : Nat := 0x14002C
def PAR_PEER_HEALTH_READY : Fld := ⟨PAR_PEER_HEALTH, 0, 0⟩
def PAR_PEER_HEALTH_SRAM_OK : Fld := ⟨PAR_PEER_HEALTH, 1, 1⟩
def PAR_PEER_HEALTH_MRAM_OK : Fld := ⟨PAR_PEER_HEALTH, 2, 2⟩
def PAR_PEER_HEALTH_DRAM_OK : Fld := ⟨PAR_PEER_HEALTH, 3, 3⟩
def PAR_PEER_HEALTH_PORTS : Fld := ⟨PAR_PEER_HEALTH, 31, 8⟩
def PAR_TAKEOVER_LO : Nat := 0x140030
def PAR_TAKEOVER_LO_L_RES : Fld := ⟨PAR_TAKEOVER_LO, 31, 0⟩
def PAR_TAKEOVER_HI : Nat := 0x140034
def PAR_TAKEOVER_HI_L_RES : Fld := ⟨PAR_TAKEOVER_HI, 7, 0⟩
def PAR_RETRY_COUNT : Nat := 0x140040
def PAR_RETRY_COUNT_COUNT : Fld := ⟨PAR_RETRY_COUNT, 31, 0⟩
def PAR_RESYNC_COUNT : Nat := 0x140044
def PAR_RESYNC_COUNT_COUNT : Fld := ⟨PAR_RESYNC_COUNT, 31, 0⟩
def PAR_SPLIT_COUNT : Nat := 0x140048
def PAR_SPLIT_COUNT_COUNT : Fld := ⟨PAR_SPLIT_COUNT, 31, 0⟩
def PAR_IRQ_CAUSE : Nat := 0x140100
def PAR_IRQ_CAUSE_LEASE : Fld := ⟨PAR_IRQ_CAUSE, 0, 0⟩
def PAR_IRQ_CAUSE_MIRROR : Fld := ⟨PAR_IRQ_CAUSE, 1, 1⟩
def PAR_IRQ_CAUSE_SPLIT : Fld := ⟨PAR_IRQ_CAUSE, 2, 2⟩
def PAR_IRQ_CAUSE_TAKEOVER : Fld := ⟨PAR_IRQ_CAUSE, 3, 3⟩
def PAR_IRQ_CAUSE_FAILOVER : Fld := ⟨PAR_IRQ_CAUSE, 4, 4⟩
def PAR_IRQ_CAUSE_HEALTH : Fld := ⟨PAR_IRQ_CAUSE, 5, 5⟩
def PAR_IRQ_CAUSE_RESYNC : Fld := ⟨PAR_IRQ_CAUSE, 6, 6⟩
def PAR_IRQ_CAUSE_SOLO : Fld := ⟨PAR_IRQ_CAUSE, 7, 7⟩
def PAR_IRQ_MASK : Nat := 0x140104
def PAR_IRQ_MASK_MASK : Fld := ⟨PAR_IRQ_MASK, 7, 0⟩
def NET_PORT_CFG (i : Nat) : Nat := 0x150000 + 0x100 * i
def NET_PORT_CFG_ENABLE (i : Nat) : Fld := ⟨NET_PORT_CFG i, 0, 0⟩
def NET_PORT_STATUS (i : Nat) : Nat := 0x150004 + 0x100 * i
def NET_PORT_STATUS_STATE (i : Nat) : Fld := ⟨NET_PORT_STATUS i, 2, 0⟩
def NET_PORT_STATUS_PEND (i : Nat) : Fld := ⟨NET_PORT_STATUS i, 3, 3⟩
def NET_PORT_STATUS_LINK (i : Nat) : Fld := ⟨NET_PORT_STATUS i, 4, 4⟩
def NET_PORT_STATUS_AN_DONE (i : Nat) : Fld := ⟨NET_PORT_STATUS i, 5, 5⟩
def NET_PORT_STATUS_LINK_BAD (i : Nat) : Fld := ⟨NET_PORT_STATUS i, 6, 6⟩
def NET_PORT_LAT (i : Nat) : Nat := 0x150008 + 0x100 * i
def NET_PORT_LAT_RX_LAT (i : Nat) : Fld := ⟨NET_PORT_LAT i, 15, 0⟩
def NET_PORT_LAT_TX_LAT (i : Nat) : Fld := ⟨NET_PORT_LAT i, 31, 16⟩
def NET_RX_COUNT (i : Nat) : Nat := 0x150010 + 0x100 * i
def NET_RX_COUNT_COUNT (i : Nat) : Fld := ⟨NET_RX_COUNT i, 31, 0⟩
def NET_TX_COUNT (i : Nat) : Nat := 0x150014 + 0x100 * i
def NET_TX_COUNT_COUNT (i : Nat) : Fld := ⟨NET_TX_COUNT i, 31, 0⟩
def NET_DROP_COUNT (i : Nat) : Nat := 0x150018 + 0x100 * i
def NET_DROP_COUNT_COUNT (i : Nat) : Fld := ⟨NET_DROP_COUNT i, 31, 0⟩
def NET_MAC_LO : Nat := 0x151000
def NET_MAC_LO_MAC : Fld := ⟨NET_MAC_LO, 31, 0⟩
def NET_MAC_HI : Nat := 0x151004
def NET_MAC_HI_MAC : Fld := ⟨NET_MAC_HI, 15, 0⟩
def NET_TC_CTRL : Nat := 0x151008
def NET_TC_CTRL_EN : Fld := ⟨NET_TC_CTRL, 0, 0⟩
def NET_TC_COUNT : Nat := 0x15100C
def NET_TC_COUNT_COUNT : Fld := ⟨NET_TC_COUNT, 31, 0⟩
def NET_TC_IPV6 : Nat := 0x151010
def NET_TC_IPV6_COUNT : Fld := ⟨NET_TC_IPV6, 31, 0⟩
def NET_TC_OVF : Nat := 0x151014
def NET_TC_OVF_COUNT : Fld := ⟨NET_TC_OVF, 31, 0⟩
def NET_PT_RATE : Nat := 0x151018
def NET_PT_RATE_RATE : Fld := ⟨NET_PT_RATE, 31, 0⟩
def NET_PT_CTRL : Nat := 0x15101C
def NET_PT_CTRL_SLEW_MAX : Fld := ⟨NET_PT_CTRL, 7, 0⟩
def NET_PT_CTRL_HOLD : Fld := ⟨NET_PT_CTRL, 31, 16⟩
def NET_PT_STEP_LO : Nat := 0x151020
def NET_PT_STEP_LO_STEP : Fld := ⟨NET_PT_STEP_LO, 31, 0⟩
def NET_PT_STEP_HI : Nat := 0x151024
def NET_PT_STEP_HI_STEP : Fld := ⟨NET_PT_STEP_HI, 31, 0⟩
def NET_PT_STATUS : Nat := 0x151028
def NET_PT_STATUS_ACTIVE : Fld := ⟨NET_PT_STATUS, 0, 0⟩
def NET_PT_STATUS_ACT_VALID : Fld := ⟨NET_PT_STATUS, 1, 1⟩
def NET_PT_STATUS_SLEWING : Fld := ⟨NET_PT_STATUS, 2, 2⟩
def NET_PT_STATUS_HOLDOVER : Fld := ⟨NET_PT_STATUS, 3, 3⟩
def NET_PT_STATUS_CMD_ERR : Fld := ⟨NET_PT_STATUS, 4, 4⟩
def NET_PT_RESID : Nat := 0x15102C
def NET_PT_RESID_NS : Fld := ⟨NET_PT_RESID, 31, 0⟩
def NET_DOM_CFG (i : Nat) : Nat := 0x151040 + 0x10 * i
def NET_DOM_CFG_DOMAIN (i : Nat) : Fld := ⟨NET_DOM_CFG i, 7, 0⟩
def NET_DOM_CFG_VALID (i : Nat) : Fld := ⟨NET_DOM_CFG i, 8, 8⟩
def NET_DOM_CFG_LOST (i : Nat) : Fld := ⟨NET_DOM_CFG i, 9, 9⟩
def NET_DOM_OFS_LO (i : Nat) : Nat := 0x151044 + 0x10 * i
def NET_DOM_OFS_LO_OFS (i : Nat) : Fld := ⟨NET_DOM_OFS_LO i, 31, 0⟩
def NET_DOM_OFS_HI (i : Nat) : Nat := 0x151048 + 0x10 * i
def NET_DOM_OFS_HI_OFS (i : Nat) : Fld := ⟨NET_DOM_OFS_HI i, 31, 0⟩
def NET_DOM_AGE (i : Nat) : Nat := 0x15104C + 0x10 * i
def NET_DOM_AGE_MS (i : Nat) : Fld := ⟨NET_DOM_AGE i, 31, 0⟩
def NET_IRQ_CAUSE : Nat := 0x151100
def NET_IRQ_CAUSE_LINK : Fld := ⟨NET_IRQ_CAUSE, 0, 0⟩
def NET_IRQ_CAUSE_SWITCH : Fld := ⟨NET_IRQ_CAUSE, 1, 1⟩
def NET_IRQ_CAUSE_HOLDOVER : Fld := ⟨NET_IRQ_CAUSE, 2, 2⟩
def NET_IRQ_CAUSE_STEP_REFUSED : Fld := ⟨NET_IRQ_CAUSE, 3, 3⟩
def NET_IRQ_CAUSE_HOLDOVER_NOW : Fld := ⟨NET_IRQ_CAUSE, 4, 4⟩
def NET_IRQ_MASK : Nat := 0x151104
def NET_IRQ_MASK_MASK : Fld := ⟨NET_IRQ_MASK, 4, 0⟩
def RST_CAUSE : Nat := 0x10000
def RST_CAUSE_SRC : Fld := ⟨RST_CAUSE, 9, 0⟩
def RST_ISLAND (i : Nat) : Nat := 0x10040 + 0x4 * i
def RST_ISLAND_RSTATE (i : Nat) : Fld := ⟨RST_ISLAND i, 1, 0⟩
def RST_ISLAND_CLK_GOOD (i : Nat) : Fld := ⟨RST_ISLAND i, 2, 2⟩
def RST_ISLAND_FENCED (i : Nat) : Fld := ⟨RST_ISLAND i, 3, 3⟩
def RST_ISLAND_MHZ (i : Nat) : Fld := ⟨RST_ISLAND i, 31, 16⟩
def RST_CLK_TIMEOUT : Nat := 0x10084
def RST_CLK_TIMEOUT_MS : Fld := ⟨RST_CLK_TIMEOUT, 15, 0⟩
def RST_WDT_CFG : Nat := 0x10088
def RST_WDT_CFG_EN : Fld := ⟨RST_WDT_CFG, 0, 0⟩
def RST_WDT_CFG_SCOPE : Fld := ⟨RST_WDT_CFG, 1, 1⟩
def RST_WDT_CFG_TIMEOUT : Fld := ⟨RST_WDT_CFG, 31, 16⟩
def RST_WDT_KICK : Nat := 0x1008C
def RST_WDT_KICK_KICK : Fld := ⟨RST_WDT_KICK, 7, 0⟩
def RST_SW : Nat := 0x10090
def RST_SW_ISLANDS : Fld := ⟨RST_SW, 16, 0⟩
def RST_SW_KEY : Fld := ⟨RST_SW, 31, 24⟩
def RST_OPT (i : Nat) : Nat := 0x10100 + 0x4 * i
def RST_OPT_DATA (i : Nat) : Fld := ⟨RST_OPT i, 31, 0⟩
def RST_OPT_STATUS : Nat := 0x10140
def RST_OPT_STATUS_OPT_BAD : Fld := ⟨RST_OPT_STATUS, 0, 0⟩
def RST_OPT_STATUS_LOCK : Fld := ⟨RST_OPT_STATUS, 1, 1⟩
def RST_OPT_STATUS_BOOT_SRC : Fld := ⟨RST_OPT_STATUS, 2, 2⟩
def RST_OPT_STATUS_FIRE_BLOCK : Fld := ⟨RST_OPT_STATUS, 3, 3⟩
def RST_VBAT_CNT (i : Nat) : Nat := 0x10180 + 0x4 * i
def RST_VBAT_CNT_COUNT (i : Nat) : Fld := ⟨RST_VBAT_CNT i, 15, 0⟩
def RST_VBAT_CTRL : Nat := 0x101C0
def RST_VBAT_CTRL_CLR_CNT : Fld := ⟨RST_VBAT_CTRL, 0, 0⟩
def RST_VBAT_CTRL_VBAT_LOST : Fld := ⟨RST_VBAT_CTRL, 1, 1⟩
def RST_VBAT_CTRL_THERM_LATCH : Fld := ⟨RST_VBAT_CTRL, 2, 2⟩
def RST_BOOT_ADDR : Nat := 0x10200
def RST_BOOT_ADDR_ADDR : Fld := ⟨RST_BOOT_ADDR, 20, 2⟩
def RST_BOOT_DATA : Nat := 0x10204
def RST_BOOT_DATA_DATA : Fld := ⟨RST_BOOT_DATA, 31, 0⟩
def RST_BOOT_CTRL : Nat := 0x10208
def RST_BOOT_CTRL_GO : Fld := ⟨RST_BOOT_CTRL, 0, 0⟩
def RST_BOOT_CTRL_DONE : Fld := ⟨RST_BOOT_CTRL, 1, 1⟩
def RST_BOOT_CTRL_SIG_FAIL : Fld := ⟨RST_BOOT_CTRL, 2, 2⟩
def RST_IRQ_CAUSE : Nat := 0x10300
def RST_IRQ_CAUSE_RESET_DONE : Fld := ⟨RST_IRQ_CAUSE, 0, 0⟩
def RST_IRQ_CAUSE_CLOCK_FAIL : Fld := ⟨RST_IRQ_CAUSE, 1, 1⟩
def RST_IRQ_CAUSE_OPT_BAD : Fld := ⟨RST_IRQ_CAUSE, 2, 2⟩
def RST_IRQ_CAUSE_VBAT_LOST : Fld := ⟨RST_IRQ_CAUSE, 3, 3⟩
def RST_IRQ_CAUSE_BOOT_FAIL : Fld := ⟨RST_IRQ_CAUSE, 4, 4⟩
def RST_IRQ_MASK : Nat := 0x10304
def RST_IRQ_MASK_MASK : Fld := ⟨RST_IRQ_MASK, 4, 0⟩
def THM_LEVEL0 : Nat := 0x20000
def THM_LEVEL0_WARN : Fld := ⟨THM_LEVEL0, 15, 0⟩
def THM_LEVEL0_THROTTLE : Fld := ⟨THM_LEVEL0, 31, 16⟩
def THM_LEVEL1 : Nat := 0x20004
def THM_LEVEL1_SHUT : Fld := ⟨THM_LEVEL1, 15, 0⟩
def THM_LEVEL1_HYST : Fld := ⟨THM_LEVEL1, 31, 16⟩
def THM_CTRL : Nat := 0x20008
def THM_CTRL_SHUT_CLR : Fld := ⟨THM_CTRL, 0, 0⟩
def THM_CTRL_LOCK : Fld := ⟨THM_CTRL, 1, 1⟩
def THM_CTRL_CMD_ERR : Fld := ⟨THM_CTRL, 2, 2⟩
def THM_STATUS : Nat := 0x2000C
def THM_STATUS_LEVEL : Fld := ⟨THM_STATUS, 1, 0⟩
def THM_STATUS_FAST : Fld := ⟨THM_STATUS, 2, 2⟩
def THM_STATUS_IN_WINDOW : Fld := ⟨THM_STATUS, 3, 3⟩
def THM_STATUS_SENSORS_LOST : Fld := ⟨THM_STATUS, 4, 4⟩
def THM_STATUS_T_DIE : Fld := ⟨THM_STATUS, 31, 16⟩
def THM_THROTTLE_MS : Nat := 0x20010
def THM_THROTTLE_MS_MS : Fld := ⟨THM_THROTTLE_MS, 31, 0⟩
def THM_DIE (i : Nat) : Nat := 0x20100 + 0x4 * i
def THM_DIE_T (i : Nat) : Fld := ⟨THM_DIE i, 15, 0⟩
def THM_DIE_BROKEN (i : Nat) : Fld := ⟨THM_DIE i, 16, 16⟩
def THM_DIE_FAST (i : Nat) : Fld := ⟨THM_DIE i, 17, 17⟩
def THM_DIE_REASON (i : Nat) : Fld := ⟨THM_DIE i, 19, 18⟩
def THM_EXT (i : Nat) : Nat := 0x20200 + 0x4 * i
def THM_EXT_T (i : Nat) : Fld := ⟨THM_EXT i, 15, 0⟩
def THM_EXT_BROKEN (i : Nat) : Fld := ⟨THM_EXT i, 16, 16⟩
def THM_HK (i : Nat) : Nat := 0x20280 + 0x4 * i
def THM_HK_CODE (i : Nat) : Fld := ⟨THM_HK i, 11, 0⟩
def THM_HK_BROKEN (i : Nat) : Fld := ⟨THM_HK i, 16, 16⟩
def THM_EXT_CFG (i : Nat) : Nat := 0x20400 + 0x8 * i
def THM_EXT_CFG_B (i : Nat) : Fld := ⟨THM_EXT_CFG i, 15, 0⟩
def THM_EXT_CFG_R25 (i : Nat) : Fld := ⟨THM_EXT_CFG i, 31, 16⟩
def THM_EXT_BIAS (i : Nat) : Nat := 0x20404 + 0x8 * i
def THM_EXT_BIAS_R_BIAS (i : Nat) : Fld := ⟨THM_EXT_BIAS i, 15, 0⟩
def THM_IRQ_CAUSE : Nat := 0x20600
def THM_IRQ_CAUSE_WARN : Fld := ⟨THM_IRQ_CAUSE, 0, 0⟩
def THM_IRQ_CAUSE_THROTTLE : Fld := ⟨THM_IRQ_CAUSE, 1, 1⟩
def THM_IRQ_CAUSE_SHUT : Fld := ⟨THM_IRQ_CAUSE, 2, 2⟩
def THM_IRQ_CAUSE_BROKEN : Fld := ⟨THM_IRQ_CAUSE, 3, 3⟩
def THM_IRQ_CAUSE_LOST : Fld := ⟨THM_IRQ_CAUSE, 4, 4⟩
def THM_IRQ_CAUSE_WINDOW : Fld := ⟨THM_IRQ_CAUSE, 5, 5⟩
def THM_IRQ_CAUSE_HOT : Fld := ⟨THM_IRQ_CAUSE, 6, 6⟩
def THM_IRQ_MASK : Nat := 0x20604
def THM_IRQ_MASK_MASK : Fld := ⟨THM_IRQ_MASK, 6, 0⟩
def NVM_STATUS : Nat := 0x170000
def NVM_STATUS_IN_WINDOW : Fld := ⟨NVM_STATUS, 0, 0⟩
def NVM_STATUS_BUSY : Fld := ⟨NVM_STATUS, 1, 1⟩
def NVM_STATUS_LOG_HELD : Fld := ⟨NVM_STATUS, 31, 16⟩
def NVM_LOG_HEAD : Nat := 0x170004
def NVM_LOG_HEAD_INDEX : Fld := ⟨NVM_LOG_HEAD, 11, 0⟩
def NVM_OPT_STAGE (i : Nat) : Nat := 0x170040 + 0x4 * i
def NVM_OPT_STAGE_DATA (i : Nat) : Fld := ⟨NVM_OPT_STAGE i, 31, 0⟩
def NVM_OPT_CMD : Nat := 0x170080
def NVM_OPT_CMD_KEY : Fld := ⟨NVM_OPT_CMD, 7, 0⟩
def NVM_CE_COUNT : Nat := 0x170090
def NVM_CE_COUNT_COUNT : Fld := ⟨NVM_CE_COUNT, 31, 0⟩
def NVM_UE_COUNT : Nat := 0x170094
def NVM_UE_COUNT_COUNT : Fld := ⟨NVM_UE_COUNT, 31, 0⟩
def NVM_IRQ_CAUSE : Nat := 0x170100
def NVM_IRQ_CAUSE_UE : Fld := ⟨NVM_IRQ_CAUSE, 0, 0⟩
def NVM_IRQ_CAUSE_OPT_WRITTEN : Fld := ⟨NVM_IRQ_CAUSE, 1, 1⟩
def NVM_IRQ_CAUSE_OPT_REFUSED : Fld := ⟨NVM_IRQ_CAUSE, 2, 2⟩
def NVM_IRQ_MASK : Nat := 0x170104
def NVM_IRQ_MASK_MASK : Fld := ⟨NVM_IRQ_MASK, 2, 0⟩
def SDS_LANE_CFG (i : Nat) : Nat := 0x160000 + 0x400 * i
def SDS_LANE_CFG_TEST_EN (i : Nat) : Fld := ⟨SDS_LANE_CFG i, 0, 0⟩
def SDS_LANE_CFG_IDLE_PWR (i : Nat) : Fld := ⟨SDS_LANE_CFG i, 2, 1⟩
def SDS_LANE_CFG_LOOP (i : Nat) : Fld := ⟨SDS_LANE_CFG i, 5, 4⟩
def SDS_LANE_CFG_TEST_RATE (i : Nat) : Fld := ⟨SDS_LANE_CFG i, 9, 8⟩
def SDS_LANE_CFG_TX_INV (i : Nat) : Fld := ⟨SDS_LANE_CFG i, 10, 10⟩
def SDS_LANE_CFG_RX_INV (i : Nat) : Fld := ⟨SDS_LANE_CFG i, 11, 11⟩
def SDS_LANE_STATUS (i : Nat) : Nat := 0x160004 + 0x400 * i
def SDS_LANE_STATUS_STATE (i : Nat) : Fld := ⟨SDS_LANE_STATUS i, 2, 0⟩
def SDS_LANE_STATUS_PEND (i : Nat) : Fld := ⟨SDS_LANE_STATUS i, 3, 3⟩
def SDS_LANE_STATUS_REASON (i : Nat) : Fld := ⟨SDS_LANE_STATUS i, 7, 4⟩
def SDS_LANE_STATUS_PWR (i : Nat) : Fld := ⟨SDS_LANE_STATUS i, 9, 8⟩
def SDS_LANE_STATUS_SIG_DET (i : Nat) : Fld := ⟨SDS_LANE_STATUS i, 10, 10⟩
def SDS_LANE_STATUS_BLOCK_LOCK (i : Nat) : Fld := ⟨SDS_LANE_STATUS i, 11, 11⟩
def SDS_LANE_STATUS_PRBS_LOCK (i : Nat) : Fld := ⟨SDS_LANE_STATUS i, 12, 12⟩
def SDS_LANE_STATUS_CMD_ERR (i : Nat) : Fld := ⟨SDS_LANE_STATUS i, 13, 13⟩
def SDS_TX_FFE (i : Nat) : Nat := 0x160008 + 0x400 * i
def SDS_TX_FFE_PRE (i : Nat) : Fld := ⟨SDS_TX_FFE i, 3, 0⟩
def SDS_TX_FFE_MAIN (i : Nat) : Fld := ⟨SDS_TX_FFE i, 13, 8⟩
def SDS_TX_FFE_POST (i : Nat) : Fld := ⟨SDS_TX_FFE i, 20, 16⟩
def SDS_RX_CTLE (i : Nat) : Nat := 0x16000C + 0x400 * i
def SDS_RX_CTLE_TARGET (i : Nat) : Fld := ⟨SDS_RX_CTLE i, 3, 0⟩
def SDS_RX_CTLE_LIVE (i : Nat) : Fld := ⟨SDS_RX_CTLE i, 11, 8⟩
def SDS_RX_DFE_TARGET (i : Nat) : Nat := 0x160010 + 0x400 * i
def SDS_RX_DFE_TARGET_TAP1 (i : Nat) : Fld := ⟨SDS_RX_DFE_TARGET i, 5, 0⟩
def SDS_RX_DFE_TARGET_TAP2 (i : Nat) : Fld := ⟨SDS_RX_DFE_TARGET i, 11, 6⟩
def SDS_RX_DFE_TARGET_TAP3 (i : Nat) : Fld := ⟨SDS_RX_DFE_TARGET i, 17, 12⟩
def SDS_RX_DFE_TARGET_TAP4 (i : Nat) : Fld := ⟨SDS_RX_DFE_TARGET i, 23, 18⟩
def SDS_RX_DFE_TARGET_TAP5 (i : Nat) : Fld := ⟨SDS_RX_DFE_TARGET i, 29, 24⟩
def SDS_RX_DFE_LIVE (i : Nat) : Nat := 0x160014 + 0x400 * i
def SDS_RX_DFE_LIVE_TAP1 (i : Nat) : Fld := ⟨SDS_RX_DFE_LIVE i, 5, 0⟩
def SDS_RX_DFE_LIVE_TAP2 (i : Nat) : Fld := ⟨SDS_RX_DFE_LIVE i, 11, 6⟩
def SDS_RX_DFE_LIVE_TAP3 (i : Nat) : Fld := ⟨SDS_RX_DFE_LIVE i, 17, 12⟩
def SDS_RX_DFE_LIVE_TAP4 (i : Nat) : Fld := ⟨SDS_RX_DFE_LIVE i, 23, 18⟩
def SDS_RX_DFE_LIVE_TAP5 (i : Nat) : Fld := ⟨SDS_RX_DFE_LIVE i, 29, 24⟩
def SDS_EYE (i : Nat) : Nat := 0x160018 + 0x400 * i
def SDS_EYE_W (i : Nat) : Fld := ⟨SDS_EYE i, 6, 0⟩
def SDS_EYE_H (i : Nat) : Fld := ⟨SDS_EYE i, 14, 8⟩
def SDS_EYE_FOM (i : Nat) : Fld := ⟨SDS_EYE i, 23, 16⟩
def SDS_PRBS_CFG (i : Nat) : Nat := 0x160020 + 0x400 * i
def SDS_PRBS_CFG_GEN_EN (i : Nat) : Fld := ⟨SDS_PRBS_CFG i, 0, 0⟩
def SDS_PRBS_CFG_CHK_EN (i : Nat) : Fld := ⟨SDS_PRBS_CFG i, 1, 1⟩
def SDS_PRBS_CFG_PAT (i : Nat) : Fld := ⟨SDS_PRBS_CFG i, 3, 2⟩
def SDS_PRBS_USER_LO (i : Nat) : Nat := 0x160024 + 0x400 * i
def SDS_PRBS_USER_LO_WORD (i : Nat) : Fld := ⟨SDS_PRBS_USER_LO i, 31, 0⟩
def SDS_PRBS_USER_HI (i : Nat) : Nat := 0x160028 + 0x400 * i
def SDS_PRBS_USER_HI_WORD (i : Nat) : Fld := ⟨SDS_PRBS_USER_HI i, 31, 0⟩
def SDS_ERR_COUNT (i : Nat) : Nat := 0x16002C + 0x400 * i
def SDS_ERR_COUNT_COUNT (i : Nat) : Fld := ⟨SDS_ERR_COUNT i, 31, 0⟩
def SDS_BITS_CHECKED (i : Nat) : Nat := 0x160030 + 0x400 * i
def SDS_BITS_CHECKED_COUNT (i : Nat) : Fld := ⟨SDS_BITS_CHECKED i, 31, 0⟩
def SDS_LOCK_LOSS_COUNT (i : Nat) : Nat := 0x160034 + 0x400 * i
def SDS_LOCK_LOSS_COUNT_COUNT (i : Nat) : Fld := ⟨SDS_LOCK_LOSS_COUNT i, 31, 0⟩
def SDS_ADAPT_CFG : Nat := 0x16E000
def SDS_ADAPT_CFG_FOM_MIN : Fld := ⟨SDS_ADAPT_CFG, 7, 0⟩
def SDS_ADAPT_CFG_MAX_REQ : Fld := ⟨SDS_ADAPT_CFG, 15, 8⟩
def SDS_ADAPT_CFG_FOM_GAIN : Fld := ⟨SDS_ADAPT_CFG, 23, 16⟩
def SDS_IRQ_CAUSE : Nat := 0x16E100
def SDS_IRQ_CAUSE_LANE_FAULT : Fld := ⟨SDS_IRQ_CAUSE, 0, 0⟩
def SDS_IRQ_CAUSE_LOW_FOM : Fld := ⟨SDS_IRQ_CAUSE, 1, 1⟩
def SDS_IRQ_CAUSE_LOOP_FAIL : Fld := ⟨SDS_IRQ_CAUSE, 2, 2⟩
def SDS_IRQ_CAUSE_LOW_NOW : Fld := ⟨SDS_IRQ_CAUSE, 3, 3⟩
def SDS_IRQ_MASK : Nat := 0x16E104
def SDS_IRQ_MASK_MASK : Fld := ⟨SDS_IRQ_MASK, 3, 0⟩
def PIN_FUNC (i : Nat) : Nat := 0x180000 + 0x4 * i
def PIN_FUNC_FUNC0 (i : Nat) : Fld := ⟨PIN_FUNC i, 1, 0⟩
def PIN_FUNC_PD0 (i : Nat) : Fld := ⟨PIN_FUNC i, 2, 2⟩
def PIN_FUNC_FUNC1 (i : Nat) : Fld := ⟨PIN_FUNC i, 5, 4⟩
def PIN_FUNC_PD1 (i : Nat) : Fld := ⟨PIN_FUNC i, 6, 6⟩
def PIN_FUNC_FUNC2 (i : Nat) : Fld := ⟨PIN_FUNC i, 9, 8⟩
def PIN_FUNC_PD2 (i : Nat) : Fld := ⟨PIN_FUNC i, 10, 10⟩
def PIN_FUNC_FUNC3 (i : Nat) : Fld := ⟨PIN_FUNC i, 13, 12⟩
def PIN_FUNC_PD3 (i : Nat) : Fld := ⟨PIN_FUNC i, 14, 14⟩
def PIN_FUNC_FUNC4 (i : Nat) : Fld := ⟨PIN_FUNC i, 17, 16⟩
def PIN_FUNC_PD4 (i : Nat) : Fld := ⟨PIN_FUNC i, 18, 18⟩
def PIN_FUNC_FUNC5 (i : Nat) : Fld := ⟨PIN_FUNC i, 21, 20⟩
def PIN_FUNC_PD5 (i : Nat) : Fld := ⟨PIN_FUNC i, 22, 22⟩
def PIN_FUNC_FUNC6 (i : Nat) : Fld := ⟨PIN_FUNC i, 25, 24⟩
def PIN_FUNC_PD6 (i : Nat) : Fld := ⟨PIN_FUNC i, 26, 26⟩
def PIN_FUNC_FUNC7 (i : Nat) : Fld := ⟨PIN_FUNC i, 29, 28⟩
def PIN_FUNC_PD7 (i : Nat) : Fld := ⟨PIN_FUNC i, 30, 30⟩
def PIN_OUT : Nat := 0x180010
def PIN_OUT_OUT : Fld := ⟨PIN_OUT, 31, 0⟩
def PIN_IN : Nat := 0x180014
def PIN_IN_IN : Fld := ⟨PIN_IN, 31, 0⟩
def PIN_EDGE_EN : Nat := 0x180018
def PIN_EDGE_EN_EN : Fld := ⟨PIN_EDGE_EN, 31, 0⟩
def PIN_EDGE : Nat := 0x18001C
def PIN_EDGE_EDGE : Fld := ⟨PIN_EDGE, 31, 0⟩
def PIN_PWM_PERIOD : Nat := 0x180020
def PIN_PWM_PERIOD_PERIOD : Fld := ⟨PIN_PWM_PERIOD, 23, 0⟩
def PIN_PWM_DUTY (i : Nat) : Nat := 0x180040 + 0x4 * i
def PIN_PWM_DUTY_DUTY (i : Nat) : Fld := ⟨PIN_PWM_DUTY i, 16, 0⟩
def PIN_PWM_DUTY_LOOP (i : Nat) : Fld := ⟨PIN_PWM_DUTY i, 31, 31⟩
def PIN_IRQ_CAUSE : Nat := 0x180100
def PIN_IRQ_CAUSE_EDGE : Fld := ⟨PIN_IRQ_CAUSE, 0, 0⟩
def PIN_IRQ_MASK : Nat := 0x180104
def PIN_IRQ_MASK_MASK : Fld := ⟨PIN_IRQ_MASK, 0, 0⟩
def GLB_ID : Nat := 0x0
def GLB_ID_PART : Fld := ⟨GLB_ID, 15, 0⟩
def GLB_ID_VENDOR : Fld := ⟨GLB_ID, 31, 16⟩
def GLB_REV : Nat := 0x4
def GLB_REV_MINOR : Fld := ⟨GLB_REV, 7, 0⟩
def GLB_REV_MAJOR : Fld := ⟨GLB_REV, 15, 8⟩
def GLB_REV_MAP : Fld := ⟨GLB_REV, 23, 16⟩
def GLB_SCRATCH (i : Nat) : Nat := 0x10 + 0x4 * i
def GLB_SCRATCH_DATA (i : Nat) : Fld := ⟨GLB_SCRATCH i, 31, 0⟩
def GLB_IRQ_SUM : Nat := 0x20
def GLB_IRQ_SUM_SUM : Fld := ⟨GLB_IRQ_SUM, 21, 0⟩
def GLB_IRQ_EN : Nat := 0x24
def GLB_IRQ_EN_EN : Fld := ⟨GLB_IRQ_EN, 21, 0⟩
def GLB_PRESS_TIME_LO : Nat := 0x30
def GLB_PRESS_TIME_LO_NS : Fld := ⟨GLB_PRESS_TIME_LO, 31, 0⟩
def GLB_PRESS_TIME_HI : Nat := 0x34
def GLB_PRESS_TIME_HI_NS : Fld := ⟨GLB_PRESS_TIME_HI, 31, 0⟩
def GLB_LINE_LO : Nat := 0x38
def GLB_LINE_LO_LINE : Fld := ⟨GLB_LINE_LO, 31, 0⟩
def GLB_LINE_HI : Nat := 0x3C
def GLB_LINE_HI_LINE : Fld := ⟨GLB_LINE_HI, 7, 0⟩
def GLB_LINE_HI_VALID : Fld := ⟨GLB_LINE_HI, 31, 31⟩
def GLB_SNAP_LINE_LO : Nat := 0x40
def GLB_SNAP_LINE_LO_LINE : Fld := ⟨GLB_SNAP_LINE_LO, 31, 0⟩
def GLB_SNAP_LINE_HI : Nat := 0x44
def GLB_SNAP_LINE_HI_LINE : Fld := ⟨GLB_SNAP_LINE_HI, 7, 0⟩
def GLB_SNAP_LINE_HI_VALID : Fld := ⟨GLB_SNAP_LINE_HI, 31, 31⟩
def GLB_ACC_ERR : Nat := 0x50
def GLB_ACC_ERR_VALID : Fld := ⟨GLB_ACC_ERR, 0, 0⟩
def GLB_ACC_ERR_KIND : Fld := ⟨GLB_ACC_ERR, 2, 1⟩
def GLB_ACC_ERR_READ : Fld := ⟨GLB_ACC_ERR, 3, 3⟩
def GLB_ACC_ERR_REQ : Fld := ⟨GLB_ACC_ERR, 6, 4⟩
def GLB_ACC_ERR_CLR : Fld := ⟨GLB_ACC_ERR, 8, 8⟩
def GLB_ACC_ERR_COUNT : Fld := ⟨GLB_ACC_ERR, 31, 16⟩
def GLB_ACC_ADDR : Nat := 0x54
def GLB_ACC_ADDR_OFFSET : Fld := ⟨GLB_ACC_ADDR, 25, 0⟩
def GLB_IRQ_CAUSE : Nat := 0x100
def GLB_IRQ_CAUSE_ACC_ERR : Fld := ⟨GLB_IRQ_CAUSE, 0, 0⟩
def GLB_IRQ_MASK : Nat := 0x104
def GLB_IRQ_MASK_MASK : Fld := ⟨GLB_IRQ_MASK, 0, 0⟩

/-- The rows of block GLB. -/
def regRowsGLB : List RegRow :=
  [ ⟨0x0, 1, 0x4000000, 1, 0x4000000, 0x0, 0x0, false, 0x43440824⟩,
    ⟨0x4, 1, 0x4000000, 1, 0x4000000, 0x0, 0x0, false, 0x10100⟩,
    ⟨0x10, 4, 0x4, 1, 0x4, 0xFFFFFFFF, 0x0, false, 0x0⟩,
    ⟨0x20, 1, 0x4000000, 1, 0x4000000, 0x0, 0x0, false, 0x0⟩,
    ⟨0x24, 1, 0x4000000, 1, 0x4000000, 0x3FFFFF, 0x0, false, 0x0⟩,
    ⟨0x30, 1, 0x4000000, 1, 0x4000000, 0x0, 0x0, false, 0x0⟩,
    ⟨0x34, 1, 0x4000000, 1, 0x4000000, 0x0, 0x0, false, 0x0⟩,
    ⟨0x38, 1, 0x4000000, 1, 0x4000000, 0x0, 0x0, false, 0x0⟩,
    ⟨0x3C, 1, 0x4000000, 1, 0x4000000, 0x0, 0x0, false, 0x0⟩,
    ⟨0x40, 1, 0x4000000, 1, 0x4000000, 0x0, 0x0, false, 0x0⟩,
    ⟨0x44, 1, 0x4000000, 1, 0x4000000, 0x0, 0x0, false, 0x0⟩,
    ⟨0x50, 1, 0x4000000, 1, 0x4000000, 0x0, 0x0, false, 0x0⟩,
    ⟨0x54, 1, 0x4000000, 1, 0x4000000, 0x0, 0x0, false, 0x0⟩,
    ⟨0x100, 1, 0x4000000, 1, 0x4000000, 0x0, 0x1, false, 0x0⟩,
    ⟨0x104, 1, 0x4000000, 1, 0x4000000, 0x1, 0x0, false, 0x1⟩ ]

/-- The rows of block RST. -/
def regRowsRST : List RegRow :=
  [ ⟨0x10000, 1, 0x4000000, 1, 0x4000000, 0x0, 0x3FF, false, 0x1⟩,
    ⟨0x10040, 17, 0x4, 1, 0x4, 0x0, 0x0, false, 0x0⟩,
    ⟨0x10084, 1, 0x4000000, 1, 0x4000000, 0xFFFF, 0x0, false, 0xA⟩,
    ⟨0x10088, 1, 0x4000000, 1, 0x4000000, 0xFFFF0003, 0x0, false, 0x3E80000⟩,
    ⟨0x1008C, 1, 0x4000000, 1, 0x4000000, 0x0, 0x0, false, 0x0⟩,
    ⟨0x10090, 1, 0x4000000, 1, 0x4000000, 0x0, 0x0, false, 0x0⟩,
    ⟨0x10100, 16, 0x4, 1, 0x4, 0x0, 0x0, false, 0x0⟩,
    ⟨0x10140, 1, 0x4000000, 1, 0x4000000, 0x0, 0x0, false, 0x0⟩,
    ⟨0x10180, 10, 0x4, 1, 0x4, 0x0, 0x0, false, 0x0⟩,
    ⟨0x101C0, 1, 0x4000000, 1, 0x4000000, 0x0, 0x0, false, 0x0⟩,
    ⟨0x10200, 1, 0x4000000, 1, 0x4000000, 0x1FFFFC, 0x0, false, 0x0⟩,
    ⟨0x10204, 1, 0x4000000, 1, 0x4000000, 0x0, 0x0, false, 0x0⟩,
    ⟨0x10208, 1, 0x4000000, 1, 0x4000000, 0x0, 0x0, false, 0x0⟩,
    ⟨0x10300, 1, 0x4000000, 1, 0x4000000, 0x0, 0x1F, false, 0x0⟩,
    ⟨0x10304, 1, 0x4000000, 1, 0x4000000, 0x1F, 0x0, false, 0x1F⟩ ]

/-- The rows of block THM. -/
def regRowsTHM : List RegRow :=
  [ ⟨0x20000, 1, 0x4000000, 1, 0x4000000, 0xFFFFFFFF, 0x0, false, 0x1B801900⟩,
    ⟨0x20004, 1, 0x4000000, 1, 0x4000000, 0xFFFFFFFF, 0x0, false, 0x1401F40⟩,
    ⟨0x20008, 1, 0x4000000, 1, 0x4000000, 0x0, 0x4, false, 0x0⟩,
    ⟨0x2000C, 1, 0x4000000, 1, 0x4000000, 0x0, 0x0, false, 0x0⟩,
    ⟨0x20010, 1, 0x4000000, 1, 0x4000000, 0x0, 0x0, true, 0x0⟩,
    ⟨0x20100, 24, 0x4, 1, 0x4, 0x0, 0x0, false, 0x0⟩,
    ⟨0x20200, 32, 0x4, 1, 0x4, 0x0, 0x0, false, 0x0⟩,
    ⟨0x20280, 32, 0x4, 1, 0x4, 0x0, 0x0, false, 0x0⟩,
    ⟨0x20400, 32, 0x8, 1, 0x8, 0xFFFFFFFF, 0x0, false, 0x3E80F8C⟩,
    ⟨0x20404, 32, 0x8, 1, 0x8, 0xFFFF, 0x0, false, 0x3E8⟩,
    ⟨0x20600, 1, 0x4000000, 1, 0x4000000, 0x0, 0x3F, false, 0x0⟩,
    ⟨0x20604, 1, 0x4000000, 1, 0x4000000, 0x7F, 0x0, false, 0x7F⟩ ]

/-- The rows of block HIF. -/
def regRowsHIF : List RegRow :=
  [ ⟨0x30000, 7, 0x40, 1, 0x40, 0xFFFFF000, 0x0, false, 0x0⟩,
    ⟨0x30200, 2, 0x40, 1, 0x40, 0xFFFFF000, 0x0, false, 0x0⟩,
    ⟨0x30004, 7, 0x40, 1, 0x40, 0xFFFFFFFF, 0x0, false, 0x0⟩,
    ⟨0x30204, 2, 0x40, 1, 0x40, 0xFFFFFFFF, 0x0, false, 0x0⟩,
    ⟨0x30008, 7, 0x40, 1, 0x40, 0x11F, 0x0, false, 0x0⟩,
    ⟨0x30208, 2, 0x40, 1, 0x40, 0x11F, 0x0, false, 0x0⟩,
    ⟨0x3000C, 7, 0x40, 1, 0x40, 0xFFFFFFF0, 0x0, false, 0x0⟩,
    ⟨0x3020C, 2, 0x40, 1, 0x40, 0xFFFFFFF0, 0x0, false, 0x0⟩,
    ⟨0x30010, 7, 0x40, 1, 0x40, 0xFFFFFFFF, 0x0, false, 0x0⟩,
    ⟨0x30210, 2, 0x40, 1, 0x40, 0xFFFFFFFF, 0x0, false, 0x0⟩,
    ⟨0x30014, 7, 0x40, 1, 0x40, 0x0, 0x0, false, 0x40⟩,
    ⟨0x30214, 2, 0x40, 1, 0x40, 0x0, 0x0, false, 0x40⟩,
    ⟨0x30018, 7, 0x40, 1, 0x40, 0x0, 0x0, false, 0x0⟩,
    ⟨0x30218, 2, 0x40, 1, 0x40, 0x0, 0x0, false, 0x0⟩,
    ⟨0x3001C, 7, 0x40, 1, 0x40, 0x0, 0x0, false, 0x0⟩,
    ⟨0x3021C, 2, 0x40, 1, 0x40, 0x0, 0x0, false, 0x0⟩,
    ⟨0x30400, 1, 0x4000000, 1, 0x4000000, 0x0, 0xFF, false, 0x0⟩,
    ⟨0x30404, 1, 0x4000000, 1, 0x4000000, 0x1FF, 0x0, false, 0x1FF⟩,
    ⟨0x30408, 1, 0x4000000, 1, 0x4000000, 0x3FF, 0x0, false, 0x20000⟩,
    ⟨0x3040C, 1, 0x4000000, 1, 0x4000000, 0x0, 0x0, true, 0x0⟩,
    ⟨0x30410, 1, 0x4000000, 1, 0x4000000, 0xFFFF, 0x0, false, 0x3E8⟩,
    ⟨0x30414, 1, 0x4000000, 1, 0x4000000, 0xFF, 0x0, false, 0x0⟩,
    ⟨0x30418, 1, 0x4000000, 1, 0x4000000, 0x1, 0x0, false, 0x0⟩,
    ⟨0x3041C, 1, 0x4000000, 1, 0x4000000, 0x0, 0x0, false, 0x0⟩ ]

/-- The rows of block PGP. -/
def regRowsPGP : List RegRow :=
  [ ⟨0x40100, 1, 0x4000000, 1, 0x4000000, 0xFFFFFFFF, 0x0, false, 0x10894D⟩,
    ⟨0x40104, 1, 0x4000000, 1, 0x4000000, 0x0, 0x0, false, 0x10894D⟩,
    ⟨0x40108, 1, 0x4000000, 1, 0x4000000, 0x2, 0x0, false, 0x2⟩,
    ⟨0x4010C, 1, 0x4000000, 1, 0x4000000, 0x0, 0x0, false, 0x0⟩,
    ⟨0x40110, 1, 0x4000000, 1, 0x4000000, 0xFFFFFFFF, 0x0, false, 0x0⟩,
    ⟨0x40114, 1, 0x4000000, 1, 0x4000000, 0xFFFF, 0x0, false, 0x40⟩,
    ⟨0x40118, 1, 0x4000000, 1, 0x4000000, 0xFFFF, 0x0, false, 0x200⟩,
    ⟨0x4011C, 1, 0x4000000, 1, 0x4000000, 0x0, 0x0, false, 0x0⟩,
    ⟨0x40120, 1, 0x4000000, 1, 0x4000000, 0x0, 0x0, true, 0x0⟩,
    ⟨0x40124, 1, 0x4000000, 1, 0x4000000, 0x0, 0x0, true, 0x0⟩,
    ⟨0x40000, 1, 0x4000000, 1, 0x4000000, 0x0, 0x0, false, 0x0⟩,
    ⟨0x40004, 1, 0x4000000, 1, 0x4000000, 0xFFFFFF, 0x0, false, 0x5DC0⟩,
    ⟨0x40008, 1, 0x4000000, 1, 0x4000000, 0xFFFF, 0x0, false, 0x0⟩,
    ⟨0x4000C, 1, 0x4000000, 1, 0x4000000, 0xFFFF, 0x0, false, 0x1000⟩,
    ⟨0x40010, 1, 0x4000000, 1, 0x4000000, 0x0, 0x0, false, 0x0⟩,
    ⟨0x40014, 1, 0x4000000, 1, 0x4000000, 0x0, 0x0, false, 0x0⟩,
    ⟨0x40200, 1, 0x4000000, 1, 0x4000000, 0xF1, 0x0, false, 0x30⟩,
    ⟨0x40204, 1, 0x4000000, 1, 0x4000000, 0xFFFF, 0x0, false, 0x1000⟩,
    ⟨0x40208, 1, 0x4000000, 1, 0x4000000, 0xFFFFF, 0x0, false, 0x800⟩,
    ⟨0x4020C, 1, 0x4000000, 1, 0x4000000, 0x0, 0x0, false, 0x0⟩,
    ⟨0x40210, 1, 0x4000000, 1, 0x4000000, 0xFFFFFF, 0x0, false, 0x493E0⟩,
    ⟨0x40214, 1, 0x4000000, 1, 0x4000000, 0x0, 0x0, false, 0x0⟩,
    ⟨0x40218, 1, 0x4000000, 1, 0x4000000, 0x0, 0x0, false, 0x0⟩,
    ⟨0x4021C, 1, 0x4000000, 1, 0x4000000, 0x0, 0x0, false, 0x0⟩,
    ⟨0x40220, 1, 0x4000000, 1, 0x4000000, 0x0, 0x0, false, 0x0⟩,
    ⟨0x40224, 1, 0x4000000, 1, 0x4000000, 0x0, 0x0, false, 0x0⟩,
    ⟨0x40228, 1, 0x4000000, 1, 0x4000000, 0x0, 0x0, false, 0x0⟩,
    ⟨0x4022C, 1, 0x4000000, 1, 0x4000000, 0x0, 0x0, true, 0x0⟩,
    ⟨0x40230, 3, 0x4, 1, 0x4, 0x0, 0x0, true, 0x0⟩,
    ⟨0x40240, 8, 0x4, 1, 0x4, 0x0, 0x0, false, 0x0⟩,
    ⟨0x40300, 1, 0x4000000, 1, 0x4000000, 0x0, 0x1FF, false, 0x0⟩,
    ⟨0x40304, 1, 0x4000000, 1, 0x4000000, 0x3FF, 0x0, false, 0x3FF⟩ ]

/-- The rows of block DCX. -/
def regRowsDCX : List RegRow :=
  [ ⟨0x50000, 3, 0x4, 1, 0x4, 0xFFFFFFFF, 0x0, false, 0xFFFFFFFF⟩,
    ⟨0x5000C, 1, 0x4000000, 1, 0x4000000, 0x0, 0x0, false, 0x0⟩,
    ⟨0x50010, 1, 0x4000000, 1, 0x4000000, 0x0, 0x0, true, 0x1FF⟩,
    ⟨0x50014, 1, 0x4000000, 1, 0x4000000, 0x0, 0x0, true, 0x0⟩,
    ⟨0x50018, 1, 0x4000000, 1, 0x4000000, 0x0, 0x0, true, 0x0⟩,
    ⟨0x50100, 1, 0x4000000, 1, 0x4000000, 0x0, 0x3, false, 0x0⟩,
    ⟨0x50104, 1, 0x4000000, 1, 0x4000000, 0x3, 0x0, false, 0x3⟩ ]

/-- The rows of block CMX. -/
def regRowsCMX : List RegRow :=
  [ ⟨0x60000, 1, 0x4000000, 1, 0x4000000, 0xFF, 0x0, false, 0xFF⟩,
    ⟨0x60004, 1, 0x4000000, 1, 0x4000000, 0x0, 0x0, false, 0x0⟩,
    ⟨0x60010, 8, 0x4, 1, 0x4, 0x0, 0x0, false, 0x0⟩,
    ⟨0x60030, 1, 0x4000000, 1, 0x4000000, 0x0, 0x0, true, 0x0⟩,
    ⟨0x60034, 1, 0x4000000, 1, 0x4000000, 0x0, 0x0, true, 0x0⟩,
    ⟨0x60038, 1, 0x4000000, 1, 0x4000000, 0x0, 0x0, true, 0x0⟩,
    ⟨0x6003C, 1, 0x4000000, 1, 0x4000000, 0x0, 0x0, true, 0x0⟩,
    ⟨0x60040, 1, 0x4000000, 1, 0x4000000, 0x0, 0x0, true, 0x0⟩,
    ⟨0x60044, 1, 0x4000000, 1, 0x4000000, 0x0, 0x0, true, 0x0⟩,
    ⟨0x60100, 1, 0x4000000, 1, 0x4000000, 0x0, 0x3, false, 0x0⟩,
    ⟨0x60104, 1, 0x4000000, 1, 0x4000000, 0x7, 0x0, false, 0x7⟩ ]

/-- The rows of block PLN. -/
def regRowsPLN : List RegRow :=
  [ ⟨0x80000, 8, 0x2000, 1, 0x2000, 0x7F, 0x0, false, 0x0⟩,
    ⟨0x80004, 8, 0x2000, 1, 0x2000, 0xFFFFFF, 0x0, false, 0x0⟩,
    ⟨0x80008, 8, 0x2000, 1, 0x2000, 0xFFFF, 0x0, false, 0x0⟩,
    ⟨0x8000C, 8, 0x2000, 1, 0x2000, 0x0, 0x0, false, 0x0⟩,
    ⟨0x80010, 8, 0x2000, 1, 0x2000, 0x0, 0x0, false, 0x0⟩,
    ⟨0x80014, 8, 0x2000, 1, 0x2000, 0x1, 0x0, false, 0x1⟩,
    ⟨0x80100, 8, 0x2000, 128, 0x4, 0xFFFFFFFF, 0x0, false, 0x0⟩,
    ⟨0x80400, 8, 0x2000, 64, 0x4, 0x80FF1F1F, 0x0, false, 0x0⟩,
    ⟨0x80018, 8, 0x2000, 1, 0x2000, 0x1, 0x0, false, 0x0⟩,
    ⟨0x80020, 8, 0x2000, 1, 0x2000, 0xFFFF, 0x0, false, 0x3210⟩,
    ⟨0x80024, 8, 0x2000, 1, 0x2000, 0xFFFFFFFF, 0x0, false, 0x1F400FA⟩,
    ⟨0x80028, 8, 0x2000, 1, 0x2000, 0xFFFFFFFF, 0x0, false, 0x12C0320⟩,
    ⟨0x8002C, 8, 0x2000, 1, 0x2000, 0x11FFF, 0x0, false, 0x1000⟩,
    ⟨0x80030, 8, 0x2000, 1, 0x2000, 0x0, 0x0, false, 0x1000⟩,
    ⟨0x80034, 8, 0x2000, 1, 0x2000, 0xFFFFFFFF, 0x0, false, 0xF000DC0⟩,
    ⟨0x80038, 8, 0x2000, 1, 0x2000, 0xFFFFFFFF, 0x0, false, 0x6401180⟩,
    ⟨0x8003C, 8, 0x2000, 1, 0x2000, 0xFFFF, 0x0, false, 0x80⟩,
    ⟨0x80040, 8, 0x2000, 1, 0x2000, 0xFF01, 0x0, false, 0x0⟩,
    ⟨0x80044, 8, 0x2000, 16, 0x4, 0xFFFFFFFF, 0x0, false, 0x0⟩,
    ⟨0x80084, 8, 0x2000, 1, 0x2000, 0x31FFF, 0x0, false, 0x101F4⟩,
    ⟨0x80088, 8, 0x2000, 1, 0x2000, 0x0, 0x0, false, 0x0⟩,
    ⟨0x8008C, 8, 0x2000, 1, 0x2000, 0x0, 0x0, false, 0x0⟩,
    ⟨0x80090, 8, 0x2000, 1, 0x2000, 0x0, 0x0, false, 0x0⟩,
    ⟨0x80094, 8, 0x2000, 1, 0x2000, 0x0, 0x0, true, 0x0⟩,
    ⟨0x80098, 8, 0x2000, 1, 0x2000, 0x3, 0x0, false, 0x3⟩,
    ⟨0x80600, 8, 0x2000, 64, 0x4, 0x0, 0x0, false, 0x0⟩,
    ⟨0x90000, 1, 0x4000000, 1, 0x4000000, 0x0, 0x1F, false, 0x0⟩,
    ⟨0x90004, 1, 0x4000000, 1, 0x4000000, 0x3F, 0x0, false, 0x3F⟩ ]

/-- The rows of block HLK. -/
def regRowsHLK : List RegRow :=
  [ ⟨0xA0000, 24, 0x1000, 1, 0x1000, 0x7, 0x0, false, 0x4⟩,
    ⟨0xA0004, 24, 0x1000, 1, 0x1000, 0x0, 0x0, false, 0x0⟩,
    ⟨0xA0008, 24, 0x1000, 1, 0x1000, 0x0, 0x0, false, 0x0⟩,
    ⟨0xA000C, 24, 0x1000, 1, 0x1000, 0xFFFFFFFF, 0x0, false, 0x3E80040⟩,
    ⟨0xA0010, 24, 0x1000, 1, 0x1000, 0x0, 0x0, true, 0x0⟩,
    ⟨0xA0014, 24, 0x1000, 1, 0x1000, 0x0, 0x0, true, 0x0⟩,
    ⟨0xA0018, 24, 0x1000, 1, 0x1000, 0x0, 0x0, true, 0x0⟩,
    ⟨0xA001C, 24, 0x1000, 1, 0x1000, 0x0, 0x0, true, 0x0⟩,
    ⟨0xA0020, 24, 0x1000, 1, 0x1000, 0x1F, 0x0, false, 0x0⟩,
    ⟨0xA0040, 24, 0x1000, 16, 0x4, 0x0, 0x0, false, 0x0⟩,
    ⟨0xA0100, 24, 0x1000, 25, 0x4, 0x0, 0x0, false, 0x0⟩,
    ⟨0xA0200, 24, 0x1000, 24, 0x4, 0x0, 0x0, false, 0x1FF00⟩,
    ⟨0xB8000, 1, 0x4000000, 1, 0x4000000, 0xFFFF, 0x0, false, 0xFA0⟩,
    ⟨0xB8004, 1, 0x4000000, 1, 0x4000000, 0xFFFF, 0x0, false, 0xFA0⟩,
    ⟨0xB8100, 1, 0x4000000, 1, 0x4000000, 0x0, 0xFF, false, 0x0⟩,
    ⟨0xB8104, 1, 0x4000000, 1, 0x4000000, 0x1FF, 0x0, false, 0x1FF⟩ ]

/-- The rows of block LDG. -/
def regRowsLDG : List RegRow :=
  [ ⟨0xC0000, 1, 0x4000000, 1, 0x4000000, 0x1, 0x0, false, 0x1⟩,
    ⟨0xC0004, 1, 0x4000000, 1, 0x4000000, 0x0, 0x0, false, 0x0⟩,
    ⟨0xC0008, 1, 0x4000000, 1, 0x4000000, 0x0, 0x0, false, 0x0⟩,
    ⟨0xC000C, 1, 0x4000000, 1, 0x4000000, 0x1FFF, 0x0, false, 0x40⟩,
    ⟨0xC0010, 1, 0x4000000, 1, 0x4000000, 0xFFFFFF07, 0x0, false, 0x7D003⟩,
    ⟨0xC0014, 1, 0x4000000, 1, 0x4000000, 0x1F, 0x0, false, 0x4⟩,
    ⟨0xC0018, 1, 0x4000000, 1, 0x4000000, 0xFFFFFF, 0x0, false, 0xC08040⟩,
    ⟨0xC001C, 1, 0x4000000, 1, 0x4000000, 0xFFFFFF, 0x0, false, 0x0⟩,
    ⟨0xC0020, 1, 0x4000000, 1, 0x4000000, 0x0, 0x0, false, 0x0⟩,
    ⟨0xC0024, 1, 0x4000000, 1, 0x4000000, 0xFF, 0x0, false, 0xA⟩,
    ⟨0xC0030, 1, 0x4000000, 1, 0x4000000, 0xFFFFFFFF, 0x0, false, 0x0⟩,
    ⟨0xC0034, 1, 0x4000000, 1, 0x4000000, 0x0, 0x0, false, 0x0⟩,
    ⟨0xC0038, 1, 0x4000000, 1, 0x4000000, 0x0, 0x0, false, 0x0⟩,
    ⟨0xC0040, 1, 0x4000000, 1, 0x4000000, 0x0, 0x0, false, 0x0⟩,
    ⟨0xC0044, 4, 0x4, 1, 0x4, 0x0, 0x0, false, 0x0⟩,
    ⟨0xC0060, 8, 0x4, 1, 0x4, 0x0, 0x0, false, 0x0⟩,
    ⟨0xC0080, 1, 0x4000000, 1, 0x4000000, 0x1FF, 0x0, false, 0x0⟩,
    ⟨0xC0084, 4, 0x4, 1, 0x4, 0x0, 0x0, false, 0x0⟩,
    ⟨0xC00A0, 1, 0x4000000, 1, 0x4000000, 0x0, 0x0, true, 0x0⟩,
    ⟨0xC00A4, 1, 0x4000000, 1, 0x4000000, 0x0, 0x0, true, 0x0⟩,
    ⟨0xC0100, 1, 0x4000000, 1, 0x4000000, 0x0, 0xFF, false, 0x0⟩,
    ⟨0xC0104, 1, 0x4000000, 1, 0x4000000, 0x1FF, 0x0, false, 0x1FF⟩ ]

/-- The rows of block CAL. -/
def regRowsCAL : List RegRow :=
  [ ⟨0xD0000, 7, 0x20, 1, 0x20, 0xFFFFFF7F, 0x0, false, 0x5⟩,
    ⟨0xD0004, 7, 0x20, 1, 0x20, 0xFFFFFFFF, 0x0, false, 0x0⟩,
    ⟨0xD0008, 7, 0x20, 1, 0x20, 0xFFFFFFFF, 0x0, false, 0x0⟩,
    ⟨0xD000C, 7, 0x20, 1, 0x20, 0x0, 0x80, false, 0x5⟩,
    ⟨0xD0010, 7, 0x20, 1, 0x20, 0x0, 0x0, false, 0x0⟩,
    ⟨0xD0014, 7, 0x20, 1, 0x20, 0x0, 0x0, false, 0x0⟩,
    ⟨0xD0018, 7, 0x20, 1, 0x20, 0x0, 0x0, false, 0x0⟩,
    ⟨0xD001C, 7, 0x20, 1, 0x20, 0xFFFFFFFF, 0x0, false, 0x0⟩,
    ⟨0xD1000, 1, 0x4000000, 1, 0x4000000, 0xFFFFFF0F, 0x0, false, 0xFB106001⟩,
    ⟨0xD1004, 1, 0x4000000, 1, 0x4000000, 0xFFFFFFFF, 0x0, false, 0x200000⟩,
    ⟨0xD1008, 1, 0x4000000, 1, 0x4000000, 0xFFFFFFFF, 0x0, false, 0x0⟩,
    ⟨0xD100C, 1, 0x4000000, 1, 0x4000000, 0xFFFFFFFF, 0x0, false, 0x10000⟩,
    ⟨0xD1010, 1, 0x4000000, 1, 0x4000000, 0x0, 0x0, false, 0x0⟩,
    ⟨0xD1014, 1, 0x4000000, 1, 0x4000000, 0xFFFFFFFF, 0x0, false, 0x800000A⟩,
    ⟨0xD1018, 1, 0x4000000, 1, 0x4000000, 0xFFFFFF, 0x0, false, 0x40840⟩,
    ⟨0xD101C, 1, 0x4000000, 1, 0x4000000, 0x0, 0x0, false, 0x0⟩,
    ⟨0xD1020, 1, 0x4000000, 1, 0x4000000, 0xFFFF, 0x0, false, 0x14⟩,
    ⟨0xD1040, 8, 0x4, 1, 0x4, 0xFFFFFFFF, 0x0, false, 0xB0704000⟩,
    ⟨0xD1060, 8, 0x4, 1, 0x4, 0xFFFFFFFF, 0x0, false, 0x3F800000⟩,
    ⟨0xD1080, 8, 0x4, 1, 0x4, 0x0, 0x0, false, 0x0⟩,
    ⟨0xD1100, 128, 0x4, 1, 0x4, 0xFFFFFFFF, 0x0, false, 0x3C800000⟩,
    ⟨0xD1300, 1, 0x4000000, 1, 0x4000000, 0x0, 0x0, true, 0x0⟩,
    ⟨0xD1304, 1, 0x4000000, 1, 0x4000000, 0x0, 0x0, true, 0x0⟩,
    ⟨0xD1308, 1, 0x4000000, 1, 0x4000000, 0x0, 0x0, true, 0x0⟩,
    ⟨0xD130C, 1, 0x4000000, 1, 0x4000000, 0x0, 0x0, true, 0x0⟩,
    ⟨0xD1310, 1, 0x4000000, 1, 0x4000000, 0x0, 0x0, true, 0x0⟩,
    ⟨0xD1314, 1, 0x4000000, 1, 0x4000000, 0x0, 0x0, true, 0x0⟩,
    ⟨0xD1400, 1, 0x4000000, 1, 0x4000000, 0x8073FFFF, 0x0, false, 0x0⟩,
    ⟨0xD1404, 1, 0x4000000, 1, 0x4000000, 0xFF, 0x0, false, 0x10000⟩,
    ⟨0xD2000, 16, 0x20, 1, 0x20, 0x3, 0x0, false, 0x0⟩,
    ⟨0xD2004, 16, 0x20, 1, 0x20, 0xFFFFFFFF, 0x0, false, 0x0⟩,
    ⟨0xD2008, 16, 0x20, 1, 0x20, 0xFFFFFF, 0x0, false, 0x40000⟩,
    ⟨0xD200C, 16, 0x20, 1, 0x20, 0xFFFFFF, 0x0, false, 0x0⟩,
    ⟨0xD2010, 16, 0x20, 1, 0x20, 0xFFFF, 0x0, false, 0x0⟩,
    ⟨0xD0100, 1, 0x4000000, 1, 0x4000000, 0x0, 0x3F, false, 0x0⟩,
    ⟨0xD0104, 1, 0x4000000, 1, 0x4000000, 0x7F, 0x0, false, 0x7F⟩ ]

/-- The rows of block CAM. -/
def regRowsCAM : List RegRow :=
  [ ⟨0xE0000, 6, 0x100, 1, 0x100, 0x7F, 0x0, false, 0x8⟩,
    ⟨0xE0004, 6, 0x100, 1, 0x100, 0x0, 0x0, false, 0x0⟩,
    ⟨0xE0010, 6, 0x100, 1, 0x100, 0x0, 0x0, true, 0x0⟩,
    ⟨0xE0014, 6, 0x100, 1, 0x100, 0x0, 0x0, true, 0x0⟩,
    ⟨0xE0018, 6, 0x100, 1, 0x100, 0x0, 0x0, true, 0x0⟩,
    ⟨0xE001C, 6, 0x100, 1, 0x100, 0x0, 0x0, true, 0x0⟩,
    ⟨0xE1000, 16, 0x80, 1, 0x80, 0x7FFF, 0x0, false, 0x200⟩,
    ⟨0xE1004, 16, 0x80, 1, 0x80, 0x0, 0x0, false, 0x0⟩,
    ⟨0xE1008, 16, 0x80, 1, 0x80, 0x3FFF3FFF, 0x0, false, 0x1000400⟩,
    ⟨0xE100C, 16, 0x80, 1, 0x80, 0xFFFFFFFF, 0x0, false, 0x3E8C350⟩,
    ⟨0xE1010, 16, 0x80, 1, 0x80, 0xFFFFFFFF, 0x0, false, 0x0⟩,
    ⟨0xE1014, 16, 0x80, 1, 0x80, 0x3FFF3FFF, 0x0, false, 0x0⟩,
    ⟨0xE1018, 16, 0x80, 1, 0x80, 0xFF, 0x0, false, 0x58⟩,
    ⟨0xE101C, 16, 0x80, 1, 0x80, 0xFFFF, 0x0, false, 0x0⟩,
    ⟨0xE1020, 16, 0x80, 4, 0x4, 0xFFFF, 0x0, false, 0x0⟩,
    ⟨0xE1040, 16, 0x80, 9, 0x4, 0x0, 0x0, true, 0x0⟩,
    ⟨0xE3000, 1, 0x4000000, 1, 0x4000000, 0x8F8F, 0x10000, false, 0x0⟩,
    ⟨0xE3004, 1, 0x4000000, 1, 0x4000000, 0x0, 0x0, false, 0x0⟩,
    ⟨0xE3008, 1, 0x4000000, 1, 0x4000000, 0x87FF003F, 0x0, false, 0x0⟩,
    ⟨0xE300C, 1, 0x4000000, 1, 0x4000000, 0xFFFFFFFF, 0x0, false, 0x0⟩,
    ⟨0xE3010, 1, 0x4000000, 1, 0x4000000, 0xFFFF, 0x0, false, 0x1000⟩,
    ⟨0xE3014, 1, 0x4000000, 1, 0x4000000, 0x0, 0x0, true, 0x0⟩,
    ⟨0xE3100, 16, 0x20, 1, 0x20, 0xFFFF, 0x0, false, 0x400⟩,
    ⟨0xE3104, 16, 0x20, 1, 0x20, 0x3FFF3FFF, 0x0, false, 0x0⟩,
    ⟨0xE3108, 16, 0x20, 1, 0x20, 0xFFFFFFFF, 0x0, false, 0x0⟩,
    ⟨0xE310C, 16, 0x20, 1, 0x20, 0xFFFF, 0x0, false, 0x133⟩,
    ⟨0xE3110, 16, 0x20, 1, 0x20, 0x0, 0x0, false, 0x0⟩,
    ⟨0xE3400, 8, 0x4, 1, 0x4, 0x0, 0x0, false, 0x0⟩,
    ⟨0xE3800, 1, 0x4000000, 1, 0x4000000, 0x0, 0x3F, false, 0x0⟩,
    ⟨0xE3804, 1, 0x4000000, 1, 0x4000000, 0x7F, 0x0, false, 0x7F⟩ ]

/-- The rows of block LED. -/
def regRowsLED : List RegRow :=
  [ ⟨0xF0000, 1, 0x4000000, 1, 0x4000000, 0x3FFFFFF, 0x0, false, 0xC81F40⟩,
    ⟨0xF0004, 1, 0x4000000, 1, 0x4000000, 0xF, 0x0, false, 0x101⟩,
    ⟨0xF0008, 1, 0x4000000, 1, 0x4000000, 0x1, 0x0, false, 0x0⟩,
    ⟨0xF0100, 1, 0x4000000, 1, 0x4000000, 0x0, 0x3F, false, 0x0⟩,
    ⟨0xF0104, 1, 0x4000000, 1, 0x4000000, 0x7F, 0x0, false, 0x7F⟩,
    ⟨0xF1000, 8, 0x200, 1, 0x200, 0xFF07, 0x0, false, 0x2⟩,
    ⟨0xF1004, 8, 0x200, 1, 0x200, 0x0, 0x0, false, 0x0⟩,
    ⟨0xF1008, 8, 0x200, 1, 0x200, 0x0, 0x0, false, 0x0⟩,
    ⟨0xF100C, 8, 0x200, 1, 0x200, 0xFFFFFF, 0x0, false, 0x0⟩,
    ⟨0xF1010, 8, 0x200, 1, 0x200, 0xFFFF, 0x0, false, 0x0⟩,
    ⟨0xF1014, 8, 0x200, 1, 0x200, 0xFFFFFF, 0x0, false, 0x0⟩,
    ⟨0xF1018, 8, 0x200, 1, 0x200, 0x3FFFF, 0x0, false, 0x0⟩,
    ⟨0xF101C, 8, 0x200, 1, 0x200, 0x1FFF, 0x0, false, 0xCCD⟩,
    ⟨0xF1020, 8, 0x200, 1, 0x200, 0xFFFF0FFF, 0x0, false, 0x0⟩,
    ⟨0xF1024, 8, 0x200, 1, 0x200, 0xFFFFFFFF, 0x0, false, 0xFFAA5500⟩,
    ⟨0xF1028, 8, 0x200, 1, 0x200, 0xFFFF, 0x0, false, 0xC8⟩,
    ⟨0xF102C, 8, 0x200, 1, 0x200, 0xFFFFFFFF, 0x0, false, 0x17C00F00⟩,
    ⟨0xF1030, 8, 0x200, 1, 0x200, 0xFFFFFFFF, 0x0, false, 0x1401E14⟩,
    ⟨0xF1034, 8, 0x200, 1, 0x200, 0x0, 0x0, false, 0x0⟩,
    ⟨0xF1038, 8, 0x200, 1, 0x200, 0x0, 0x0, false, 0x0⟩,
    ⟨0xF103C, 8, 0x200, 1, 0x200, 0xFFFFFFFF, 0x0, false, 0x3E80010⟩,
    ⟨0xF1040, 8, 0x200, 8, 0x4, 0x0, 0x0, false, 0x0⟩,
    ⟨0xF1060, 8, 0x200, 8, 0x4, 0x0, 0x0, false, 0x0⟩,
    ⟨0xF1080, 8, 0x200, 1, 0x200, 0x0, 0x0, true, 0x0⟩,
    ⟨0xF1084, 8, 0x200, 1, 0x200, 0x0, 0x0, true, 0x0⟩,
    ⟨0xF1088, 8, 0x200, 1, 0x200, 0x0, 0x0, true, 0x0⟩,
    ⟨0xF1100, 8, 0x200, 16, 0x4, 0xFFFFFFFF, 0x0, false, 0x7F7F7F7F⟩,
    ⟨0xF1140, 8, 0x200, 16, 0x4, 0x0, 0x0, false, 0x7F7F7F7F⟩ ]

/-- The rows of block MOT. -/
def regRowsMOT : List RegRow :=
  [ ⟨0x100000, 16, 0x400, 1, 0x400, 0x3FFF, 0x0, false, 0x2⟩,
    ⟨0x100004, 16, 0x400, 1, 0x400, 0x0, 0x7800, false, 0x0⟩,
    ⟨0x100008, 16, 0x400, 1, 0x400, 0x0, 0x0, false, 0x0⟩,
    ⟨0x10000C, 16, 0x400, 1, 0x400, 0x0, 0x0, false, 0x0⟩,
    ⟨0x100010, 16, 0x400, 1, 0x400, 0x0, 0x0, false, 0x0⟩,
    ⟨0x100014, 16, 0x400, 1, 0x400, 0x0, 0x0, false, 0x0⟩,
    ⟨0x100018, 16, 0x400, 1, 0x400, 0xFFFFFFFF, 0x0, false, 0x0⟩,
    ⟨0x10001C, 16, 0x400, 1, 0x400, 0xFFFFFFFF, 0x0, false, 0x0⟩,
    ⟨0x100020, 16, 0x400, 1, 0x400, 0x7FFFFF, 0x0, false, 0xC800⟩,
    ⟨0x100024, 16, 0x400, 1, 0x400, 0xFFFFFFFF, 0x0, false, 0x7D000⟩,
    ⟨0x100028, 16, 0x400, 1, 0x400, 0xFFFFFFFF, 0x0, false, 0x7D000⟩,
    ⟨0x10002C, 16, 0x400, 1, 0x400, 0xFFFFFFFF, 0x0, false, 0x7D000⟩,
    ⟨0x100030, 16, 0x400, 1, 0x400, 0xFFFFFFFF, 0x0, false, 0x1E848⟩,
    ⟨0x100034, 16, 0x400, 1, 0x400, 0xFFFFFFFF, 0x0, false, 0x0⟩,
    ⟨0x100038, 16, 0x400, 1, 0x400, 0x7FFFFF, 0x0, false, 0x0⟩,
    ⟨0x10003C, 16, 0x400, 1, 0x400, 0x1FF3F, 0x0, false, 0x4410⟩,
    ⟨0x100040, 16, 0x400, 1, 0x400, 0xFFFFFFFF, 0x0, false, 0x644080⟩,
    ⟨0x100044, 16, 0x400, 1, 0x400, 0x3FF, 0x0, false, 0x0⟩,
    ⟨0x100048, 16, 0x400, 1, 0x400, 0xFF77, 0x0, false, 0xA00⟩,
    ⟨0x10004C, 16, 0x400, 1, 0x400, 0xFFFFFFFF, 0x0, false, 0x320000⟩,
    ⟨0x100050, 16, 0x400, 1, 0x400, 0xFFFFFFFF, 0x0, false, 0x10000⟩,
    ⟨0x100054, 16, 0x400, 1, 0x400, 0xFFFFFFFF, 0x0, false, 0x0⟩,
    ⟨0x100058, 16, 0x400, 1, 0x400, 0xFFFFFFFF, 0x0, false, 0x0⟩,
    ⟨0x10005C, 16, 0x400, 1, 0x400, 0x0, 0x0, false, 0x0⟩,
    ⟨0x100060, 16, 0x400, 1, 0x400, 0x0, 0x0, false, 0x0⟩,
    ⟨0x100080, 16, 0x400, 1, 0x400, 0x0, 0x0, true, 0x0⟩,
    ⟨0x100084, 16, 0x400, 1, 0x400, 0x0, 0x0, true, 0x0⟩,
    ⟨0x104000, 1, 0x4000000, 1, 0x4000000, 0xFFFF07, 0x0, false, 0x50200⟩,
    ⟨0x104004, 1, 0x4000000, 1, 0x4000000, 0x0, 0x18000, false, 0x6000⟩,
    ⟨0x104008, 1, 0x4000000, 1, 0x4000000, 0xFFFFFFFF, 0x0, false, 0x0⟩,
    ⟨0x10400C, 1, 0x4000000, 1, 0x4000000, 0xFFFFFFFF, 0x0, false, 0x3E803E8⟩,
    ⟨0x104010, 1, 0x4000000, 1, 0x4000000, 0xFFFF, 0x0, false, 0x3E8⟩,
    ⟨0x104014, 1, 0x4000000, 1, 0x4000000, 0xFFFF, 0x0, false, 0x7D0⟩,
    ⟨0x104018, 1, 0x4000000, 1, 0x4000000, 0xFFFF, 0x0, false, 0x1000⟩,
    ⟨0x10401C, 1, 0x4000000, 1, 0x4000000, 0x0, 0x0, false, 0x0⟩,
    ⟨0x104020, 1, 0x4000000, 1, 0x4000000, 0x1, 0x0, false, 0x0⟩,
    ⟨0x104024, 1, 0x4000000, 1, 0x4000000, 0x0, 0x0, false, 0x0⟩,
    ⟨0x104028, 1, 0x4000000, 1, 0x4000000, 0x0, 0x0, false, 0x0⟩,
    ⟨0x10402C, 1, 0x4000000, 1, 0x4000000, 0x0, 0x0, false, 0x0⟩,
    ⟨0x104030, 1, 0x4000000, 1, 0x4000000, 0x0, 0x0, false, 0x0⟩ ] ++
  [ ⟨0x105000, 1, 0x4000000, 1, 0x4000000, 0x0, 0x7F, false, 0x0⟩,
    ⟨0x105004, 1, 0x4000000, 1, 0x4000000, 0xFF, 0x0, false, 0xFF⟩ ]

/-- The rows of block ENC. -/
def regRowsENC : List RegRow :=
  [ ⟨0x110000, 2, 0x100, 1, 0x100, 0xFF1FFFFF, 0x0, false, 0x4040090⟩,
    ⟨0x110004, 2, 0x100, 1, 0x100, 0xFFFFFFFF, 0x0, false, 0x140100⟩,
    ⟨0x110008, 2, 0x100, 1, 0x100, 0x0, 0x0, false, 0x100⟩,
    ⟨0x11000C, 2, 0x100, 1, 0x100, 0x0, 0x0, false, 0x0⟩,
    ⟨0x110010, 2, 0x100, 1, 0x100, 0x0, 0x0, false, 0x0⟩,
    ⟨0x110014, 2, 0x100, 1, 0x100, 0x0, 0x0, false, 0x0⟩,
    ⟨0x110018, 2, 0x100, 1, 0x100, 0x0, 0x0, false, 0x0⟩,
    ⟨0x11001C, 2, 0x100, 1, 0x100, 0x0, 0x0, false, 0x0⟩,
    ⟨0x110020, 2, 0x100, 1, 0x100, 0x0, 0x0, true, 0x0⟩,
    ⟨0x110024, 2, 0x100, 1, 0x100, 0x0, 0x0, true, 0x0⟩,
    ⟨0x110028, 2, 0x100, 1, 0x100, 0x0, 0x0, true, 0x0⟩,
    ⟨0x11002C, 2, 0x100, 1, 0x100, 0x0, 0x0, false, 0x0⟩,
    ⟨0x110030, 2, 0x100, 1, 0x100, 0xFFFFFFFF, 0x0, false, 0x3E80020⟩,
    ⟨0x111000, 16, 0x40, 1, 0x40, 0xFFFFFF03, 0x0, false, 0x140400⟩,
    ⟨0x111004, 16, 0x40, 1, 0x40, 0x0, 0x400, false, 0x100⟩,
    ⟨0x111008, 16, 0x40, 1, 0x40, 0x0, 0x0, false, 0x0⟩,
    ⟨0x11100C, 16, 0x40, 1, 0x40, 0x0, 0x0, false, 0x0⟩,
    ⟨0x111010, 16, 0x40, 1, 0x40, 0x0, 0x0, true, 0x0⟩,
    ⟨0x111014, 16, 0x40, 1, 0x40, 0x0, 0x0, false, 0x0⟩,
    ⟨0x111018, 16, 0x40, 1, 0x40, 0xFFFFFFFF, 0x0, false, 0x3E80010⟩,
    ⟨0x112000, 4, 0x80, 1, 0x80, 0x3F1F7F1F, 0x0, false, 0x1900⟩,
    ⟨0x112004, 4, 0x80, 1, 0x80, 0x3F3F, 0x0, false, 0x1900⟩,
    ⟨0x112008, 4, 0x80, 1, 0x80, 0xFFFFFFFF, 0x0, false, 0x0⟩,
    ⟨0x11200C, 4, 0x80, 1, 0x80, 0xFF03FF, 0x0, false, 0xA⟩,
    ⟨0x112010, 4, 0x80, 1, 0x80, 0xFFFFFFFF, 0x0, false, 0x140032⟩,
    ⟨0x112014, 4, 0x80, 1, 0x80, 0x0, 0x0, false, 0x100⟩,
    ⟨0x112018, 4, 0x80, 1, 0x80, 0x0, 0x0, false, 0x0⟩,
    ⟨0x11201C, 4, 0x80, 1, 0x80, 0x0, 0x0, false, 0x0⟩,
    ⟨0x112020, 4, 0x80, 1, 0x80, 0x0, 0x0, false, 0x0⟩,
    ⟨0x112024, 4, 0x80, 1, 0x80, 0x0, 0x0, false, 0x0⟩,
    ⟨0x112028, 4, 0x80, 1, 0x80, 0x0, 0x0, true, 0x0⟩,
    ⟨0x11202C, 4, 0x80, 1, 0x80, 0x0, 0x0, true, 0x0⟩,
    ⟨0x112030, 4, 0x80, 1, 0x80, 0x0, 0x0, true, 0x0⟩,
    ⟨0x112034, 4, 0x80, 1, 0x80, 0x0, 0x0, false, 0x0⟩,
    ⟨0x112038, 4, 0x80, 1, 0x80, 0xFFFFFFFF, 0x0, false, 0x3E80010⟩,
    ⟨0x113000, 1, 0x4000000, 1, 0x4000000, 0x1, 0x0, false, 0x0⟩,
    ⟨0x113004, 1, 0x4000000, 1, 0x4000000, 0xFFFF0003, 0x4, false, 0x80000⟩,
    ⟨0x113008, 1, 0x4000000, 1, 0x4000000, 0xFFFFFFFF, 0x0, false, 0x10000⟩,
    ⟨0x11300C, 1, 0x4000000, 1, 0x4000000, 0x0, 0x0, false, 0x0⟩,
    ⟨0x113100, 1, 0x4000000, 1, 0x4000000, 0x0, 0x1F, false, 0x0⟩ ] ++
  [ ⟨0x113104, 1, 0x4000000, 1, 0x4000000, 0x3F, 0x0, false, 0x3F⟩ ]

/-- The rows of block LPE. -/
def regRowsLPE : List RegRow :=
  [ ⟨0x120000, 32, 0x100, 1, 0x100, 0x3FF7FF7, 0x0, false, 0x10⟩,
    ⟨0x120004, 32, 0x100, 1, 0x100, 0x1FF1FF, 0x0, false, 0x0⟩,
    ⟨0x120008, 32, 0x100, 1, 0x100, 0x0, 0x2000, false, 0x0⟩,
    ⟨0x120010, 32, 0x100, 1, 0x100, 0xFFFFFFFF, 0x0, false, 0x3F800000⟩,
    ⟨0x120014, 32, 0x100, 1, 0x100, 0xFFFFFFFF, 0x0, false, 0x0⟩,
    ⟨0x120018, 32, 0x100, 1, 0x100, 0xFFFFFFFF, 0x0, false, 0x3F800000⟩,
    ⟨0x12001C, 32, 0x100, 1, 0x100, 0xFFFFFFFF, 0x0, false, 0x0⟩,
    ⟨0x120020, 32, 0x100, 1, 0x100, 0xFFFFFFFF, 0x0, false, 0x0⟩,
    ⟨0x120024, 32, 0x100, 1, 0x100, 0xFFFFFFFF, 0x0, false, 0x0⟩,
    ⟨0x120028, 32, 0x100, 1, 0x100, 0xFFFFFFFF, 0x0, false, 0x0⟩,
    ⟨0x12002C, 32, 0x100, 1, 0x100, 0xFFFFFFFF, 0x0, false, 0x0⟩,
    ⟨0x120030, 32, 0x100, 1, 0x100, 0xFFFFFFFF, 0x0, false, 0x0⟩,
    ⟨0x120034, 32, 0x100, 1, 0x100, 0xFFFFFFFF, 0x0, false, 0x0⟩,
    ⟨0x120038, 32, 0x100, 1, 0x100, 0xFFFFFFFF, 0x0, false, 0x0⟩,
    ⟨0x12003C, 32, 0x100, 1, 0x100, 0xFFFFFFFF, 0x0, false, 0x0⟩,
    ⟨0x120040, 32, 0x100, 1, 0x100, 0xFFFFFFFF, 0x0, false, 0x0⟩,
    ⟨0x120044, 32, 0x100, 1, 0x100, 0xFFFFFFFF, 0x0, false, 0x0⟩,
    ⟨0x120048, 32, 0x100, 1, 0x100, 0xFFFFFFFF, 0x0, false, 0x0⟩,
    ⟨0x12004C, 32, 0x100, 1, 0x100, 0xFFFFFFFF, 0x0, false, 0x0⟩,
    ⟨0x120050, 32, 0x100, 1, 0x100, 0xFFFFFFFF, 0x0, false, 0x0⟩,
    ⟨0x120054, 32, 0x100, 1, 0x100, 0xFFFFFFFF, 0x0, false, 0x0⟩,
    ⟨0x120058, 32, 0x100, 1, 0x100, 0xFFFFFFFF, 0x0, false, 0x0⟩,
    ⟨0x12005C, 32, 0x100, 1, 0x100, 0xFFFFFFFF, 0x0, false, 0x0⟩,
    ⟨0x120060, 32, 0x100, 1, 0x100, 0xFFFF003F, 0x0, false, 0x0⟩,
    ⟨0x120064, 32, 0x100, 1, 0x100, 0xFFFFFFFF, 0x0, false, 0x0⟩,
    ⟨0x120068, 32, 0x100, 1, 0x100, 0x0, 0x0, false, 0x0⟩,
    ⟨0x12006C, 32, 0x100, 1, 0x100, 0x0, 0x0, false, 0x0⟩,
    ⟨0x120070, 32, 0x100, 1, 0x100, 0x0, 0x0, false, 0x0⟩,
    ⟨0x120074, 32, 0x100, 1, 0x100, 0x0, 0x0, false, 0x0⟩,
    ⟨0x120078, 32, 0x100, 1, 0x100, 0x0, 0x0, true, 0x0⟩,
    ⟨0x122000, 8, 0x4, 1, 0x4, 0xFFFFFFFF, 0x0, false, 0x0⟩,
    ⟨0x122100, 1, 0x4000000, 1, 0x4000000, 0x0, 0x3, false, 0x0⟩,
    ⟨0x122104, 1, 0x4000000, 1, 0x4000000, 0x7, 0x0, false, 0x7⟩ ]

/-- The rows of block DMC. -/
def regRowsDMC : List RegRow :=
  [ ⟨0x130000, 1, 0x4000000, 1, 0x4000000, 0x1F, 0x0, false, 0x15⟩,
    ⟨0x130004, 1, 0x4000000, 1, 0x4000000, 0x1C, 0x0, false, 0x1C⟩,
    ⟨0x130008, 1, 0x4000000, 1, 0x4000000, 0x0, 0x0, false, 0x0⟩,
    ⟨0x130010, 1, 0x4000000, 1, 0x4000000, 0xF, 0x0, false, 0x8⟩,
    ⟨0x130014, 1, 0x4000000, 1, 0x4000000, 0xFF01, 0x0, false, 0x1801⟩,
    ⟨0x130018, 1, 0x4000000, 1, 0x4000000, 0x0, 0x0, false, 0x0⟩,
    ⟨0x130020, 1, 0x4000000, 1, 0x4000000, 0x7FFFF, 0x0, false, 0x50800⟩,
    ⟨0x130024, 1, 0x4000000, 1, 0x4000000, 0x0, 0x0, true, 0x0⟩,
    ⟨0x130030, 1, 0x4000000, 1, 0x4000000, 0x0, 0x0, true, 0x0⟩,
    ⟨0x130034, 1, 0x4000000, 1, 0x4000000, 0x0, 0x0, true, 0x0⟩,
    ⟨0x130038, 1, 0x4000000, 1, 0x4000000, 0x0, 0x0, true, 0x0⟩,
    ⟨0x13003C, 1, 0x4000000, 1, 0x4000000, 0x0, 0x0, true, 0x0⟩,
    ⟨0x130040, 1, 0x4000000, 1, 0x4000000, 0x0, 0x0, false, 0x0⟩,
    ⟨0x130044, 1, 0x4000000, 1, 0x4000000, 0x0, 0x0, false, 0x0⟩,
    ⟨0x130048, 1, 0x4000000, 1, 0x4000000, 0x0, 0x0, false, 0x0⟩,
    ⟨0x13004C, 1, 0x4000000, 1, 0x4000000, 0xFFFF, 0x0, false, 0x100⟩,
    ⟨0x130100, 80, 0x4, 1, 0x4, 0x0, 0x0, true, 0x0⟩,
    ⟨0x130300, 1, 0x4000000, 1, 0x4000000, 0xFFFF000F, 0x0, false, 0x0⟩,
    ⟨0x130304, 1, 0x4000000, 1, 0x4000000, 0x7FFFFF03, 0x0, false, 0x100⟩,
    ⟨0x130308, 1, 0x4000000, 1, 0x4000000, 0xFFFFFF3F, 0x0, false, 0x1004000⟩,
    ⟨0x13030C, 1, 0x4000000, 1, 0x4000000, 0x1FF01FF, 0x0, false, 0x1FF0000⟩,
    ⟨0x130310, 1, 0x4000000, 1, 0x4000000, 0x0, 0x0, false, 0x0⟩,
    ⟨0x130314, 1, 0x4000000, 1, 0x4000000, 0x0, 0x2, false, 0x0⟩,
    ⟨0x130318, 1, 0x4000000, 1, 0x4000000, 0xFFFFFFFF, 0x0, false, 0xFFFFFFFF⟩,
    ⟨0x13031C, 1, 0x4000000, 1, 0x4000000, 0xFF, 0x0, false, 0xFF⟩,
    ⟨0x130320, 1, 0x4000000, 1, 0x4000000, 0x80003F3F, 0x0, false, 0x0⟩,
    ⟨0x130324, 1, 0x4000000, 1, 0x4000000, 0x1FF, 0x0, false, 0x1000100⟩,
    ⟨0x130400, 128, 0x4, 1, 0x4, 0xFFFFFFFF, 0x0, false, 0x0⟩,
    ⟨0x130600, 40, 0x4, 1, 0x4, 0x0, 0x0, false, 0x0⟩,
    ⟨0x130700, 40, 0x4, 1, 0x4, 0x0, 0x0, false, 0x0⟩,
    ⟨0x130800, 1, 0x4000000, 1, 0x4000000, 0x0, 0x3F, false, 0x0⟩,
    ⟨0x130804, 1, 0x4000000, 1, 0x4000000, 0x7F, 0x0, false, 0x7F⟩ ]

/-- The rows of block PAR. -/
def regRowsPAR : List RegRow :=
  [ ⟨0x140000, 1, 0x4000000, 1, 0x4000000, 0x7C, 0x0, false, 0x48⟩,
    ⟨0x140004, 1, 0x4000000, 1, 0x4000000, 0x0, 0x180, false, 0x0⟩,
    ⟨0x140008, 1, 0x4000000, 1, 0x4000000, 0x0, 0x0, false, 0x0⟩,
    ⟨0x14000C, 1, 0x4000000, 1, 0x4000000, 0x0, 0x0, false, 0x0⟩,
    ⟨0x140010, 1, 0x4000000, 1, 0x4000000, 0x0, 0x0, false, 0x0⟩,
    ⟨0x140014, 1, 0x4000000, 1, 0x4000000, 0xFFFF, 0x0, false, 0xC8⟩,
    ⟨0x140018, 1, 0x4000000, 1, 0x4000000, 0xFFFF, 0x0, false, 0x0⟩,
    ⟨0x14001C, 1, 0x4000000, 1, 0x4000000, 0xFFFF, 0x0, false, 0x100⟩,
    ⟨0x140020, 1, 0x4000000, 1, 0x4000000, 0x0, 0x0, false, 0x0⟩,
    ⟨0x140024, 1, 0x4000000, 1, 0x4000000, 0x3, 0x0, false, 0x0⟩,
    ⟨0x140028, 1, 0x4000000, 1, 0x4000000, 0x0, 0x0, false, 0x0⟩,
    ⟨0x14002C, 1, 0x4000000, 1, 0x4000000, 0x0, 0x0, false, 0x0⟩,
    ⟨0x140030, 1, 0x4000000, 1, 0x4000000, 0x0, 0x0, false, 0x0⟩,
    ⟨0x140034, 1, 0x4000000, 1, 0x4000000, 0x0, 0x0, false, 0x0⟩,
    ⟨0x140040, 1, 0x4000000, 1, 0x4000000, 0x0, 0x0, true, 0x0⟩,
    ⟨0x140044, 1, 0x4000000, 1, 0x4000000, 0x0, 0x0, true, 0x0⟩,
    ⟨0x140048, 1, 0x4000000, 1, 0x4000000, 0x0, 0x0, true, 0x0⟩,
    ⟨0x140100, 1, 0x4000000, 1, 0x4000000, 0x0, 0x7F, false, 0x0⟩,
    ⟨0x140104, 1, 0x4000000, 1, 0x4000000, 0xFF, 0x0, false, 0xFF⟩ ]

/-- The rows of block NET. -/
def regRowsNET : List RegRow :=
  [ ⟨0x150000, 2, 0x100, 1, 0x100, 0x1, 0x0, false, 0x0⟩,
    ⟨0x150004, 2, 0x100, 1, 0x100, 0x0, 0x0, false, 0x0⟩,
    ⟨0x150008, 2, 0x100, 1, 0x100, 0xFFFFFFFF, 0x0, false, 0x0⟩,
    ⟨0x150010, 2, 0x100, 1, 0x100, 0x0, 0x0, true, 0x0⟩,
    ⟨0x150014, 2, 0x100, 1, 0x100, 0x0, 0x0, true, 0x0⟩,
    ⟨0x150018, 2, 0x100, 1, 0x100, 0x0, 0x0, true, 0x0⟩,
    ⟨0x151000, 1, 0x4000000, 1, 0x4000000, 0xFFFFFFFF, 0x0, false, 0x0⟩,
    ⟨0x151004, 1, 0x4000000, 1, 0x4000000, 0xFFFF, 0x0, false, 0x0⟩,
    ⟨0x151008, 1, 0x4000000, 1, 0x4000000, 0x1, 0x0, false, 0x1⟩,
    ⟨0x15100C, 1, 0x4000000, 1, 0x4000000, 0x0, 0x0, true, 0x0⟩,
    ⟨0x151010, 1, 0x4000000, 1, 0x4000000, 0x0, 0x0, true, 0x0⟩,
    ⟨0x151014, 1, 0x4000000, 1, 0x4000000, 0x0, 0x0, true, 0x0⟩,
    ⟨0x151018, 1, 0x4000000, 1, 0x4000000, 0xFFFFFFFF, 0x0, false, 0x0⟩,
    ⟨0x15101C, 1, 0x4000000, 1, 0x4000000, 0xFFFF00FF, 0x0, false, 0xBB80064⟩,
    ⟨0x151020, 1, 0x4000000, 1, 0x4000000, 0xFFFFFFFF, 0x0, false, 0x0⟩,
    ⟨0x151024, 1, 0x4000000, 1, 0x4000000, 0xFFFFFFFF, 0x0, false, 0x0⟩,
    ⟨0x151028, 1, 0x4000000, 1, 0x4000000, 0x0, 0x10, false, 0x0⟩,
    ⟨0x15102C, 1, 0x4000000, 1, 0x4000000, 0x0, 0x0, false, 0x0⟩,
    ⟨0x151040, 2, 0x10, 1, 0x10, 0x1FF, 0x0, false, 0x0⟩,
    ⟨0x151044, 2, 0x10, 1, 0x10, 0xFFFFFFFF, 0x0, false, 0x0⟩,
    ⟨0x151048, 2, 0x10, 1, 0x10, 0xFFFFFFFF, 0x0, false, 0x0⟩,
    ⟨0x15104C, 2, 0x10, 1, 0x10, 0x0, 0x0, false, 0xFFFFFFFF⟩,
    ⟨0x151100, 1, 0x4000000, 1, 0x4000000, 0x0, 0xF, false, 0x0⟩,
    ⟨0x151104, 1, 0x4000000, 1, 0x4000000, 0x1F, 0x0, false, 0x1F⟩ ]

/-- The rows of block SDS. -/
def regRowsSDS : List RegRow :=
  [ ⟨0x160000, 52, 0x400, 1, 0x400, 0xF37, 0x0, false, 0x202⟩,
    ⟨0x160004, 52, 0x400, 1, 0x400, 0x0, 0x2000, false, 0x0⟩,
    ⟨0x160008, 52, 0x400, 1, 0x400, 0x0, 0x0, false, 0xA3203⟩,
    ⟨0x16000C, 52, 0x400, 1, 0x400, 0xF, 0x0, false, 0x0⟩,
    ⟨0x160010, 52, 0x400, 1, 0x400, 0x3FFFFFFF, 0x0, false, 0x0⟩,
    ⟨0x160014, 52, 0x400, 1, 0x400, 0x0, 0x0, false, 0x0⟩,
    ⟨0x160018, 52, 0x400, 1, 0x400, 0x0, 0x0, false, 0x0⟩,
    ⟨0x160020, 52, 0x400, 1, 0x400, 0xF, 0x0, false, 0x0⟩,
    ⟨0x160024, 52, 0x400, 1, 0x400, 0xFFFFFFFF, 0x0, false, 0x0⟩,
    ⟨0x160028, 52, 0x400, 1, 0x400, 0xFFFFFFFF, 0x0, false, 0x0⟩,
    ⟨0x16002C, 52, 0x400, 1, 0x400, 0x0, 0x0, true, 0x0⟩,
    ⟨0x160030, 52, 0x400, 1, 0x400, 0x0, 0x0, true, 0x0⟩,
    ⟨0x160034, 52, 0x400, 1, 0x400, 0x0, 0x0, true, 0x0⟩,
    ⟨0x16E000, 1, 0x4000000, 1, 0x4000000, 0xFFFFFF, 0x0, false, 0x24018⟩,
    ⟨0x16E100, 1, 0x4000000, 1, 0x4000000, 0x0, 0x7, false, 0x0⟩,
    ⟨0x16E104, 1, 0x4000000, 1, 0x4000000, 0xF, 0x0, false, 0xF⟩ ]

/-- The rows of block NVM. -/
def regRowsNVM : List RegRow :=
  [ ⟨0x170000, 1, 0x4000000, 1, 0x4000000, 0x0, 0x0, false, 0x0⟩,
    ⟨0x170004, 1, 0x4000000, 1, 0x4000000, 0x0, 0x0, false, 0x0⟩,
    ⟨0x170040, 16, 0x4, 1, 0x4, 0xFFFFFFFF, 0x0, false, 0x0⟩,
    ⟨0x170080, 1, 0x4000000, 1, 0x4000000, 0x0, 0x0, false, 0x0⟩,
    ⟨0x170090, 1, 0x4000000, 1, 0x4000000, 0x0, 0x0, true, 0x0⟩,
    ⟨0x170094, 1, 0x4000000, 1, 0x4000000, 0x0, 0x0, true, 0x0⟩,
    ⟨0x170100, 1, 0x4000000, 1, 0x4000000, 0x0, 0x7, false, 0x0⟩,
    ⟨0x170104, 1, 0x4000000, 1, 0x4000000, 0x7, 0x0, false, 0x7⟩ ]

/-- The rows of block PIN. -/
def regRowsPIN : List RegRow :=
  [ ⟨0x180000, 4, 0x4, 1, 0x4, 0x77777777, 0x0, false, 0x0⟩,
    ⟨0x180010, 1, 0x4000000, 1, 0x4000000, 0xFFFFFFFF, 0x0, false, 0x0⟩,
    ⟨0x180014, 1, 0x4000000, 1, 0x4000000, 0x0, 0x0, false, 0x0⟩,
    ⟨0x180018, 1, 0x4000000, 1, 0x4000000, 0xFFFFFFFF, 0x0, false, 0x0⟩,
    ⟨0x18001C, 1, 0x4000000, 1, 0x4000000, 0x0, 0xFFFFFFFF, false, 0x0⟩,
    ⟨0x180020, 1, 0x4000000, 1, 0x4000000, 0xFFFFFF, 0x0, false, 0x61A8⟩,
    ⟨0x180040, 16, 0x4, 1, 0x4, 0x1FFFF, 0x0, false, 0x0⟩,
    ⟨0x180100, 1, 0x4000000, 1, 0x4000000, 0x0, 0x1, false, 0x0⟩,
    ⟨0x180104, 1, 0x4000000, 1, 0x4000000, 0x1, 0x0, false, 0x1⟩ ]

/-- Block number of a BAR0 offset by the block map of R557; 22 stands for an offset outside every block (R558). -/
def blockOf (a : Nat) : Nat :=
  match a / 0x10000 with
  | 0 => 0
  | 1 => 1
  | 2 => 2
  | 3 => 3
  | 4 => 4
  | 5 => 5
  | 6 => 6
  | 7 => 6
  | 8 => 7
  | 9 => 7
  | 10 => 8
  | 11 => 8
  | 12 => 9
  | 13 => 10
  | 14 => 11
  | 15 => 12
  | 16 => 13
  | 17 => 14
  | 18 => 15
  | 19 => 16
  | 20 => 17
  | 21 => 18
  | 22 => 19
  | 23 => 20
  | 24 => 21
  | _ => 22

/-- The rows of a block, by its number (R13). -/
def blockRows (b : Nat) : List RegRow :=
  match b with
  | 0 => regRowsGLB
  | 1 => regRowsRST
  | 2 => regRowsTHM
  | 3 => regRowsHIF
  | 4 => regRowsPGP
  | 5 => regRowsDCX
  | 6 => regRowsCMX
  | 7 => regRowsPLN
  | 8 => regRowsHLK
  | 9 => regRowsLDG
  | 10 => regRowsCAL
  | 11 => regRowsCAM
  | 12 => regRowsLED
  | 13 => regRowsMOT
  | 14 => regRowsENC
  | 15 => regRowsLPE
  | 16 => regRowsDMC
  | 17 => regRowsPAR
  | 18 => regRowsNET
  | 19 => regRowsSDS
  | 20 => regRowsNVM
  | 21 => regRowsPIN
  | _ => []

/-- The register at a BAR0 offset, when the offset holds one (R9). Ring 7 is unused and has no registers. -/
def regRowAt (a : Nat) : Option RegRow :=
  if 0x301C0 ≤ a ∧ a < 0x30200 then none else (blockRows (blockOf a)).find? (fun r => r.hit a)

/-- Reset values that differ between the elements of an array: the calibration channels (R299) and the second
PTP domain (17_press_time.md). -/
def resetExceptions : List (Nat × Nat) :=
  [(0xD0000, 0x2800025), (0xD0008, 0x32), (0xD0020, 0x140002D), (0xD0028, 0x1F4), (0xD0040, 0x2800035), (0xD0048, 0x1388), (0xD0060, 0x2000011), (0xD0068, 0x7D0), (0xD0080, 0x2800015), (0xD0088, 0x64), (0xD00A0, 0x6), (0xD00A4, 0xE10), (0xD00A8, 0x2710), (0xD00C0, 0x6), (0xD00C4, 0xE10), (0xD00C8, 0x927C0), (0x151050, 0x18)]

/-- The default stitching mask of R42: bit (k, m) is 1 when k + ((37 m) mod 64) < 64; word i holds phase i / 2,
columns 32 (i mod 2) to 32 (i mod 2) + 31. -/
def stitchDefault (i : Nat) : Nat :=
  (List.range 32).foldl (fun acc j =>
    if 32 * (i % 2) + j + (37 * (i / 2)) % 64 < 64 then acc + 2 ^ j else acc) 0

/-- What an unlisted BAR0 offset reads as: the reset value the tables give, or 0 where no register lies (R9). -/
def resetOf (a : Nat) : BitVec 32 :=
  match regRowAt a with
  | none => 0
  | some r =>
    match resetExceptions.find? (fun e => Nat.beq e.1 a) with
    | some e => BitVec.ofNat 32 e.2
    | none =>
      if Nat.beq r.off 0x80100 then BitVec.ofNat 32 (stitchDefault ((a - 0x80100) % 0x2000 / 4))
      else BitVec.ofNat 32 r.reset

end Sys2Proof.Machine
end

