-- ==== Sys2Proof/Machine/State.lean ====
section
/-!
DEFINITION. The state of the FH-824 block as plain data: the register file, and beside it every piece of state the spec
gives that no register shows. A register has one home, `regs`; a unit's STATE and PEND live in its status register.
-/
namespace Sys2Proof.Machine

/-- Why the block stops with a fault. No command of this spec does: every case has an effect or is discarded. -/
inductive Fault where
  /-- Raised by no command. Safe: it would stop the run where the part goes on. -/
  | noEffect
  deriving DecidableEq, Repr

/-- Why the block refuses a command. -/
inductive Refusal where
  /-- The command has no meaning yet. Safe: a run stops there. -/
  | notModelled (mnemonic : String)
  deriving DecidableEq, Repr

/-- The register file: offsets of BAR0 with their values, offsets strictly rising, no entry equal to its reset value. -/
abbrev RegFile := List (Nat × Word)

/-- The value of the register at an offset. -/
def RegFile.get (r : RegFile) (a : Nat) : Word :=
  match r with
  | [] => resetOf a
  | e :: t => if e.1 = a then e.2 else RegFile.get t a

/-- List a register that does not hold its reset value, offsets kept rising. -/
def RegFile.ins (r : RegFile) (a : Nat) (v : Word) : RegFile :=
  match r with
  | [] => [(a, v)]
  | e :: t => if e.1 < a then e :: RegFile.ins t a v else if e.1 = a then (a, v) :: t else (a, v) :: e :: t

/-- Write the register at an offset, keeping the canonical form: a register that takes its reset value is not listed. -/
def RegFile.set (r : RegFile) (a : Nat) (v : Word) : RegFile :=
  if v = resetOf a then r.filter (fun e => e.1 != a) else RegFile.ins r a v

/-- Are all offsets of the list above `a`? -/
def RegFile.above (a : Nat) : RegFile → Bool
  | [] => true
  | e :: _ => Nat.blt a e.1

/-- The canonical form of a register file. -/
def RegFile.wf : RegFile → Bool
  | [] => true
  | e :: t => decide (e.2 ≠ resetOf e.1) && RegFile.above e.1 t && RegFile.wf t

/-- The states of a unit (R14). Values 6 and 7 of STATE are never shown. -/
inductive UState where
  | off | starting | on | stopping | fault | retired
  deriving DecidableEq, Repr

/-- The STATE encoding of R14. -/
def UState.code : UState → Nat
  | .off => 0
  | .starting => 1
  | .on => 2
  | .stopping => 3
  | .fault => 4
  | .retired => 5

/-- The state a STATE field shows. -/
def UState.ofCode : Nat → UState
  | 1 => .starting
  | 2 => .on
  | 3 => .stopping
  | 4 => .fault
  | 5 => .retired
  | _ => .off

/-- A fetched descriptor that has not left its ring's completion order (R73, R88). `taken`: its engine has it; `started`
by the engine's rule; `done`: completed; `stale`: fetched before a host-island reset (R104). -/
structure OpenDesc where
  seq : Nat
  bits : DescBits
  taken : Bool
  started : Bool
  done : Bool
  stale : Bool
  deriving DecidableEq, Repr

/-- A ring beside its registers (R69 to R76, R89, R93). `tail`: the index of the last doorbell taken (the consumer index on
EVT and MBX_OUT); `heldDb`: a doorbell written in STARTING; `expSeq`: the expected sequence number; `stalled`: stopped at a
phase mismatch; `fence`: the blocked fence's sequence number; `unread`: entries written and not returned; `written`:
entries written since enable; `wbDue`: the write-back record is out of date. -/
structure Ring where
  tail : Nat
  heldDb : Option Nat
  expSeq : Option Nat
  stalled : Bool
  opens : List OpenDesc
  fence : Option Nat
  fenceReported : Bool
  unread : Nat
  written : Nat
  wbDue : Bool
  deriving DecidableEq, Repr

/-- A ring that is OFF after reset. -/
def Ring.reset : Ring :=
  { tail := 0, heldDb := none, expSeq := none, stalled := false, opens := [], fence := none, fenceReported := false,
    unread := 0, written := 0, wbDue := false }

/-- An EVT entry (R82). -/
structure EvtEntry where
  typ : Nat
  lost : Bool
  seq : Nat
  code : Nat
  src : Nat
  status : Nat
  descSeq : Nat
  unit : Nat
  time : Nat
  line : Nat
  payload : List Nat
  deriving DecidableEq, Repr

/-- What HOST_RESET_REPORT keeps from the reset (R103). -/
structure HostReport where
  reason : Nat
  doneSeq : List Nat
  evtLost : Nat
  line : Nat
  hadJob : Bool
  lostJob : Bool
  deriving DecidableEq, Repr

/-- The host interface beside its registers: rings 0 to 9, the event queues of R75, the report of R103, the PCIe link,
the interrupt outputs, and what firmware has waiting for MBX_OUT (R76). -/
structure Hif where
  rings : List Ring
  evtQueue : List EvtEntry
  evtUnread : List EvtEntry
  evtNext : Nat
  lostFlag : Bool
  lostRun : Bool
  report : Option HostReport
  heldJobEnded : Option EvtEntry
  linkUp : Bool
  cfg : PcieIrqCfg
  coalSince : Option Nat
  msiSent : Nat
  inta : Bool
  mbxWait : List DescBits
  bar4Data : List Byte
  bar4Poison : Bool
  deriving DecidableEq, Repr

/-- The host interface after power-on. -/
def Hif.reset : Hif :=
  { rings := List.replicate 10 Ring.reset, evtQueue := [], evtUnread := [], evtNext := 0, lostFlag := false,
    lostRun := false, report := none, heldJobEnded := none, linkUp := true,
    cfg := { msiEnable := false, msiMask := false, intxDisable := false }, coalSince := none, msiSent := 0, inta := false,
    mbxWait := [], bar4Data := [], bar4Poison := false }

/-- The last completed register read (R8): its data, right aligned, and the latches of R560 by requester and offset. -/
structure ReadPort where
  data : BitVec 64
  latch : List (Nat × Nat × Word)
  deriving DecidableEq, Repr

/-- Time: reference cycles of 4 ns since power-on, PRESS_TIME in 2^-32 ns (R490), the press line counter (R53), and
the always-on mirror of it (R562). -/
structure TimeState where
  cyc : Nat
  pt : Nat
  line : Nat
  deriving DecidableEq, Repr

/-! ### The page path (04_page_path.md) -/

/-- What a prefetch does with one read (R116). `plane` and `band` name the read; `host` is its host address; `len` and
`crc` are the band table's; `dram` is the place in the page area once room was found (R118); `bad` when its second fetch after poison
failed before the band reached it (R127). -/
inductive ReadKind where
  | dir | table | stream
  deriving DecidableEq, Repr

/-- One stream of a page (R109, R116). -/
structure PageStream where
  plane : Nat
  band : Nat
  host : Nat
  len : Nat
  crc : Nat
  dram : Option Nat
  released : Bool
  bad : Bool
  deriving DecidableEq, Repr

/-- One read still to be made for a page. -/
structure PageRead where
  kind : ReadKind
  plane : Nat
  band : Nat
  host : Nat
  retried : Bool
  deriving DecidableEq, Repr

/-- The completion of a page, decided and not yet posted because an earlier page of the ring has none (R86). -/
structure PageDone where
  code : Nat
  status : Nat
  payload : List Nat
  deriving DecidableEq, Repr

/-- A page of the active job (R108 to R119, R147). `desc` is its descriptor; `first` is its first job line; `cleared` once every plane has
cleared it (R51); `retired` once its completion is decided, which is then posted in ring order: `due` until it is (R86). -/
structure PageRec where
  seq : Nat
  desc : DescBits
  pageId : Nat
  user : Nat
  first : Nat
  lines : Nat
  resetHist : Bool
  inspect : Bool
  calOk : Bool
  reads : List PageRead
  waitRoom : Bool
  streams : List PageStream
  committed : Bool
  started : Bool
  pflags : Nat
  seams : Nat
  seamErr : Nat
  waitMirror : Option Nat
  cleared : Bool
  retired : Bool
  due : Option PageDone
  deriving DecidableEq, Repr

/-- A band's decoder, cursor and staging ring (R121 to R127). `nextLine` is the next job line to decode or pass over,
`staged` the lines held (job line, symbols), `dead` the job line before which the band prints code 0 after a decode
error, `lane` the lane that has it, `histLost` the next page carries HISTORY_LOST, `resetNext` the next stream starts from
the reset state, `refetching` a poisoned stream is fetched again (R127), `refTried` once already without success. -/
structure BandState where
  plane : Nat
  band : Nat
  fb : FblcState
  nextLine : Nat
  staged : List (Nat × List Nat)
  dead : Nat
  lane : Option Nat
  histLost : Bool
  resetNext : Bool
  pageSeq : Option Nat
  refetching : Bool
  refTried : Bool
  deriving DecidableEq, Repr

/-- The registers of one plane as sampled at job take (R44, R281, R282). -/
structure PlaneCfg where
  tiles : Nat
  map : List Word
  mask : List Word
  routeDead : Bool
  dropTable : Nat
  pre : Nat
  dead : Nat
  mainNs : Nat
  gap : Nat
  scale : Nat
  deriving DecidableEq, Repr

/-- A recovery (R131 to R144). Web positions and distances are in 1/65,536 job line. -/
structure Recovery where
  typ : Nat
  plane : Option Nat
  s : Nat
  e : List Nat
  lRes : Nat
  phase : Nat
  tries : Nat
  plannedPt : Nat
  xd : Nat
  xb : Int
  b : Int
  deriving DecidableEq, Repr

/-- The active job (R106 to R115, R564, R565). `line` is the next job line of plane 0, `maxLine` the line after the
highest it reached; `endReason` why its printing ended or will end, `endLine` the line at which it ends; `jobEndSeq` the
fetched JOB_END; `closing` set when the job's printing is over; `hostLost` when a host-island reset covered it; `takeLine` the press
line at job take; `lastSent` per plane the line after the one whose packets carried LAST (R198); `runFrom` per plane its first line of the run (R133). -/
structure Job where
  ring : Nat
  seq : Nat
  desc : DescBits
  jobId : Nat
  mode : Nat
  horizon : Nat
  planes : List PlaneCfg
  webScale : Nat
  laneMask : List Word
  areaBase : Nat
  areaSize : Nat
  pages : List PageRec
  bands : List BandState
  line : Nat
  maxLine : Nat
  nextTake : List Nat
  started : Bool
  endReason : Option Nat
  endLine : Option Nat
  jobEndSeq : Option Nat
  closing : Bool
  hostLost : Bool
  ringLeft : Bool
  late : List Nat
  lostUs : Nat
  recovery : Option Recovery
  latencyShort : Bool
  firstTick : Nat
  takeLine : Nat
  lastSent : List Nat
  runFrom : List Nat
  deriving DecidableEq, Repr

/-- The print side beside its registers: the line clock's remainder (R52), web position and error history (R58 to R61,
R141), the job, the mode in force after it (R55). Positions are in 2^-20 fine line: `webPos` at the last master edge,
`webAtTick0` that of job line 0, `edges` the stamps (ns) and positions of the last edges, latest first; `velWeb` per `velNs` is the
last speed and `nextWeb` the pitch of the next edge (R335, R411, R412). -/
structure Press where
  rem256 : Nat
  lastTickPt : Nat
  edgeSince : Bool
  webPos : Int
  webAtTick0 : Int
  peak : Nat
  lockErrs : List Nat
  webLineSpeed : Bool
  edges : List (Nat × Int)
  velWeb : Int
  velNs : Nat
  nextWeb : Int
  lastFired : Nat
  job : Option Job
  lastMode : Nat
  deriving DecidableEq, Repr

def Press.reset : Press :=
  { rem256 := 0, lastTickPt := 0, edgeSince := false, webPos := 0, webAtTick0 := 0, peak := 0, lockErrs := [],
    webLineSpeed := false, edges := [], velWeb := 0, velNs := 1, nextWeb := 0, lastFired := 0, job := none, lastMode := 0 }

/-- A job in a compression unit (R169 to R182): the descriptor, the outcome to report, the bytes to write. -/
structure CmxJob where
  seq : Nat
  bits : DescBits
  status : Nat
  detail : Nat
  bytesIn : Nat
  bitOffset : Nat
  out : List Byte
  state : List Byte
  fail : Option (Nat × Nat)
  deriving DecidableEq, Repr

/-! ### The head link (06_laneb.md) -/

/-- What a packet in flight carries. -/
inductive PacketBody where
  | line (press : Nat) (plane jobLine : Nat) (codes : List Nat) (last : Bool)
  | ctl (op cseq : Nat) (imm : Bool) (line : Nat) (payload : List Byte) (jobLine : Option Nat)
  deriving DecidableEq, Repr

/-- A forward packet not yet done (R192, R200): its transmissions so far and the last STATUS heard. -/
structure Packet where
  lsn : Nat
  slot : Nat
  body : PacketBody
  sent : Nat
  lastStatus : Nat
  deriving DecidableEq, Repr

/-- A head port beside its registers: next LSN, packets outstanding and waiting, next return LSN expected, the hub's
declaration, and whether the hub's was received in this training. -/
structure Port where
  lsn : Nat
  outstanding : List Packet
  waiting : List Packet
  retLsn : Option Nat
  hubDecl : Option DescBits
  hubOk : Bool
  rate : Nat
  deriving DecidableEq, Repr

def Port.reset : Port :=
  { lsn := 0, outstanding := [], waiting := [], retLsn := none, hubDecl := none, hubOk := false, rate := 0 }

/-- What the FH-824 knows of one slot beside HLK_SLOT_STATUS and HLK_SLOT_LAT: declaration, CSEQ, the last TEMP report,
latched fault codes, CSEQs of job-start loads not yet acknowledged, the duty last acknowledged, clamp window start (tick t_a and first
job line), CSEQs of
SET_LINE and TICK_DELAY not yet acknowledged with the line packets held for them (R213), a LINE_CANCEL unconfirmed (press line
and job line of R134), the CSEQ of an automatic clear (R289), peak T_MAX of the clamp. -/
structure CtlSlot where
  decl : Option DescBits
  declSeen : Bool
  cseq : Nat
  tempAt : Option Nat
  tMax : Int
  tMean : Int
  flags : Nat
  faults : Nat
  count2 : Nat
  unacked : List Nat
  duty : Option Nat
  warmCyc : Option Nat
  clampFrom : Option Nat
  clampJob : Nat
  lastClear : Option Nat
  coldPosted : Bool
  stalePosted : Bool
  spitOff : Bool
  adopted : Bool
  shutDown : Bool
  setup : List Nat
  heldLines : List PacketBody
  cancel : Option (Nat × Nat)
  autoClear : Option Nat
  peak : Int
  deriving DecidableEq, Repr

def CtlSlot.reset : CtlSlot :=
  { decl := none, declSeen := false, cseq := 0, tempAt := none, tMax := 0, tMean := 0, flags := 0, faults := 0, count2 := 0,
    unacked := [], duty := none, warmCyc := none, clampFrom := none, clampJob := 0, lastClear := none, coldPosted := false,
    stalePosted := false, spitOff := false, adopted := false, shutDown := false,
    setup := [], heldLines := [], cancel := none, autoClear := none, peak := 0 }

/-! ### The tiles (06_laneb.md, 08_firing_and_head_heat.md) -/

/-- A line packet a tile holds (R196), with the row each column fires it from once its row-0 tick has come (R252). -/
structure HeldLine where
  line : Nat
  codes : List Nat
  last : Bool
  rows : Option (List Nat)
  deriving DecidableEq, Repr

/-- A MASK_LOAD or TRIM_LOAD a tile has taken: `line` is none when it applied on receipt (R210, R211). -/
structure TileLoad where
  line : Option Nat
  first : Nat
  data : List Nat
  deriving DecidableEq, Repr

/-- A drop fired at a tick: local column, row, image line, heaters (bit 0 A, bit 1 B), main widths of A and B in ns (R276). -/
structure Drop where
  col : Nat
  row : Nat
  line : Nat
  heaters : Nat
  widthA : Nat
  widthB : Nat
  second : Bool
  deriving DecidableEq, Repr

/-- An ACK block a module sends (R199). -/
structure AckOut where
  lsn : Nat
  status : Nat
  slot : Nat
  deriving DecidableEq, Repr

/-- A report a tile or hub sends (R216): kind and payload. -/
structure ReportOut where
  kind : Nat
  line : Nat
  ident : Nat
  unassigned : Bool
  payload : List Byte
  deriving DecidableEq, Repr

/-- A tile (R185, R195, R196, R203, R208 to R214, R252, R275 to R290, R296, R297). Loads are listed latest effect first;
`waiting` since SET_LINE no tick found its packet; `sweepEnd` the cycle at which a running sweep ends; faults are by code, with
count, LINE and group of each; `fired` are the drops of the last tick, `fireAt16` its instant after the TICK's arrival in
1/16 ns; `reports` those sent last. -/
structure Tile where
  present : Bool
  decl : Option DescBits
  ident : Nat
  assigned : Bool
  cur : Nat
  lastSeen : Bool
  waiting : Bool
  held : List HeldLine
  masks : List TileLoad
  trims : List TileLoad
  ptrs : List Nat
  pre : Nat
  dead : Nat
  mainNs : Nat
  scale : Nat
  gap : Nat
  rowK : Nat
  drops : List Nat
  duty : Nat
  thWarn : Int
  thClamp : Int
  thShut : Int
  thHyst : Int
  thMin : Int
  thermSet : Bool
  tMax : Int
  tMean : Int
  warn : Bool
  clamp : Bool
  clampEff : Bool
  shut : Bool
  below : Bool
  faults : Nat
  counts : List Nat
  faultLine : List Nat
  faultGroup : List Nat
  spitSize : Nat
  spitRate : Nat
  delay16 : Nat
  lastCseq : Option Nat
  missed : Nat
  authMiss : Nat
  ticks : List Nat
  lastDropCyc : Option Nat
  firing : Bool
  sweepEnd : Nat
  fired : List Drop
  fireAt16 : Int
  reports : List ReportOut
  deriving DecidableEq, Repr

/-- A tile after power-up (R185, R284): unassigned, identity 0x1FF. -/
def Tile.reset : Tile :=
  { present := true, decl := none, ident := 0x1FF, assigned := false, cur := 0, lastSeen := false, waiting := true, held := [],
    masks := [], trims := [], ptrs := [], pre := 0, dead := 0, mainNs := 0, scale := 0, gap := 0, rowK := 4,
    drops := [0, 0, 0, 0], duty := 0, thWarn := 0, thClamp := 0, thShut := 0, thHyst := 0, thMin := 0, thermSet := false,
    tMax := 0, tMean := 0, warn := false, clamp := false, clampEff := false, shut := false, below := false, faults := 0,
    counts := List.replicate 8 0, faultLine := List.replicate 8 0, faultGroup := List.replicate 8 0xFF, spitSize := 0,
    spitRate := 0, delay16 := 0, lastCseq := none, missed := 0, authMiss := 0, ticks := [], lastDropCyc := none,
    firing := false, sweepEnd := 0, fired := [], fireAt16 := 0, reports := [] }

/-- The head modules: per port whether its authority holds (R221), the tiles by port * 32 + slot, the hub's latched faults,
the last ACK and ECHO_RSP of each port. -/
structure Heads where
  auth : List Bool
  tiles : AMap Tile
  hubFaults : List Nat
  hubDecl : List DescBits
  hubReport : List (Option ReportOut)
  ack : List (Option AckOut)
  echo : List (Option (Nat × Nat × Nat))
  ports : List Port
  ctl : AMap CtlSlot
  deriving DecidableEq, Repr

def Heads.reset : Heads :=
  { auth := List.replicate 24 false, tiles := [], hubFaults := List.replicate 24 0, hubDecl := List.replicate 24 0, hubReport := List.replicate 24 none,
    ack := List.replicate 24 none, echo := List.replicate 24 none, ports := List.replicate 24 Port.reset, ctl := [] }

/-! ### The ledger (07_nozzle_ledger.md) -/

/-- A tile record (R266). -/
structure TileRec where
  used : Bool
  baseValid : Bool
  ident : Nat
  rNom : Nat
  base : Nat
  adopted : Nat
  sweeps : Nat
  opens : Nat
  shorts : Nat
  retired : Nat
  single : Nat
  suspicions : Nat
  deriving DecidableEq, Repr

def TileRec.reset : TileRec :=
  { used := false, baseValid := false, ident := 0, rNom := 0, base := 0, adopted := 0, sweeps := 0, opens := 0, shorts := 0,
    retired := 0, single := 0, suspicions := 0 }

/-- A suspect entry (R246). -/
structure Suspect where
  g : Nat
  n : Nat
  count : Nat
  first : Nat
  deriving DecidableEq, Repr

/-- An exception entry (R266): the retired heater of a single-heater nozzle and its cause. -/
structure Exc where
  g : Nat
  n : Nat
  heater : Nat
  cause : Nat
  deriving DecidableEq, Repr

/-- A run of changed masks on its way to a tile (R254 to R258): position, first column, new masks, effective press line and
job line; `sent` once its MASK_LOAD is out; `ret` the nozzles retired in it (with causes) that are reported when it is sent. -/
structure MaskChange where
  g : Nat
  first : Nat
  masks : List Nat
  lEff : Nat
  jobLine : Option Nat
  sent : Bool
  ret : List (Nat × Nat)
  deriving DecidableEq, Repr

/-- One tile of a sweep (R235, R236): position, port and slot, the ranges delivered (first, count), refusals, and whether it
failed. -/
structure SweepTile where
  g : Nat
  port : Nat
  slot : Nat
  got : List (Nat × Nat)
  naks : Nat
  failed : Bool
  deriving DecidableEq, Repr

/-- A sweep: planes, tiles, its counts, and the cycle of its start. -/
structure SweepRun where
  planes : Nat
  tiles : List SweepTile
  opens : Nat
  shorts : Nat
  drift : Nat
  limit : Nat
  start : Nat
  deriving DecidableEq, Repr

/-- A queued ledger command (R273), and whether the ledger was READY when it was issued (R274). -/
structure LdgCmd where
  ready : Bool
  op : Nat
  tile : Nat
  nozzle : Nat
  arg : Nat
  deriving DecidableEq, Repr

/-- The ledger's working copy and its queues. Nozzle states are keyed g * 32,768 + n; heaters (cause of retirement), trims and
last codes g * 65,536 + h; masks in force g * 4,096 + column. `need`: heaters each plane needs (R249, bit 0 A,
bit 1 B); `thin`: T_thin by position at the last rebuild; `seen`: positions swept since the load; `rowPtrs`: R253. -/
structure Ledger where
  nozzles : AMap Nat
  heaters : AMap Nat
  trims : AMap Int
  recs : AMap TileRec
  exc : AMap Exc
  sus : AMap Suspect
  susFull : Bool
  metres : Nat
  frac : Nat
  cmds : List LdgCmd
  purgeLine : List (Option Nat)
  changes : List MaskChange
  masks : AMap Nat
  need : List Nat
  sweep : Option SweepRun
  failedSweep : List Nat
  dirty : List Nat
  recDirty : AMap Nat
  writeHeld : Bool
  codes : AMap Nat
  thin : AMap Nat
  unadopted : List Nat
  seen : List Nat
  rowPtrs : AMap (List Nat)
  deriving DecidableEq, Repr

def Ledger.reset : Ledger :=
  { nozzles := [], heaters := [], trims := [], recs := [], exc := [], sus := [], susFull := false, metres := 0, frac := 0,
    cmds := [], purgeLine := List.replicate 8 none, changes := [], masks := [], need := List.replicate 8 3,
    sweep := none, failedSweep := [], dirty := [], recDirty := [], writeHeld := false,
    codes := [], thin := [], unadopted := [], seen := [], rowPtrs := [] }

/-- What the web axis is doing (R394 to R398): the modes of WMODE with their targets. Positions in 1/65,536 job line; the
FIRMWARE goal is in 2^-32 step. -/
inductive WebPlan where
  | idle
  | runup
  | follow
  | park (xb : Int)
  | decel
  | firmware (goal : Int)
  deriving DecidableEq, Repr

/-- Position, velocity and acceleration of an axis with 32 fractional bits: units of 2^-32 step, step/s, step/s². -/
structure Pva where
  p : Int
  v : Int
  a : Int
  deriving DecidableEq, Repr

/-- A phase of an S-curve: jerk in 2^-32 step/s³, time left in 2^-16 planner tick, and whether it belongs to a deceleration. -/
structure Seg where
  j : Int
  t : Nat
  dec : Bool
  deriving DecidableEq, Repr

/-- A planned profile: its phases, the position and velocity it ends at, and whether it passes its target and returns. -/
structure Traj where
  segs : List Seg
  goal : Option Int
  vEnd : Int
  passes : Bool
  deriving DecidableEq, Repr

/-- The web axis beside its registers: plan (`fresh` until the next planner tick has planned it), motion in steps, profile,
commanded rate in steps/s, WEB_RATE_LIMIT posted for this job or move, the level of DRIVE_READY, the web trim T of R396
(binary32), and the two outside reasons for WEB_STOP of R399. -/
structure Web where
  plan : WebPlan
  fresh : Bool
  mot : Pva
  traj : Option Traj
  vel : Int
  limitPosted : Bool
  rdy : Bool
  trim : Word
  resetStop : Bool
  thermStop : Bool
  deriving DecidableEq, Repr

def Web.reset : Web :=
  { plan := .idle, fresh := false, mot := { p := 0, v := 0, a := 0 }, traj := none, vel := 0, limitPosted := false, rdy := false, trim := 0,
    resetStop := false, thermStop := false }

/-! ### Calibration (09_calibration.md) -/

/-- A calibration channel beside its registers (R299 to R311): the cycle of its last run's end, the cycle and odometer at its
run's start, the source's values (by plane or bar) at the start of the last OK run and of the run under way, and JIG as the run took it. -/
structure CalChan where
  lastEnd : Option Nat
  start : Nat
  startM : Nat
  tref : AMap Int
  tstart : AMap Int
  jig : Bool
  deriving DecidableEq, Repr

def CalChan.reset : CalChan := { lastEnd := none, start := 0, startM := 0, tref := [], tstart := [], jig := false }

/-- A column's trims (R312 to R314). -/
structure CalCol where
  target : Int
  live : Int
  settle : Nat
  deriving DecidableEq, Repr

def CalCol.reset : CalCol := { target := 0, live := 0, settle := 0 }

/-- A pair of binary32 sums: predicted and attributed density. -/
structure Sums where
  p : BitVec 32
  e : BitVec 32
  deriving DecidableEq, Repr

def Sums.reset : Sums := { p := 0, e := 0 }

/-- One row of a probe's tile (R325, R326): its sums and the press line of the latest drop counted. -/
structure ProbeRow where
  sums : Sums
  last : Nat
  deriving DecidableEq, Repr

/-- A probe (R325): plane, column, rows of the tiles that can receive the column (position and eight rows), samples. -/
structure Probe where
  q : Nat
  c : Nat
  tiles : List (Nat × List ProbeRow)
  n : Nat
  deriving DecidableEq, Repr

/-- A sampled line in the snapshot ring (R317, R318): job line, focus band, codes by plane and first column, the dead columns
among them, planes excluded by R320 rule 2, the press line and the firing rows of each tile once its plane has fired it, and `addr`, its
place in DRAM. -/
structure Snap where
  line : Nat
  focus : Nat
  segs : List (Nat × Nat × List Nat)
  dead : List Nat
  bad : List Nat
  press : List Nat
  rows : AMap (List Nat)
  calOk : Bool
  addr : Nat
  deriving DecidableEq, Repr

/-- The calibration block beside its registers. Columns are keyed q * 2^18 + c. `prev`: the band whose visit has ended, and
J_sw (R321); `qual`: sum of squares, count and maximum of |d| per plane in units of 2^-149 (R323). -/
structure Cal where
  chans : List CalChan
  cols : AMap CalCol
  acc : AMap Sums
  pend : AMap Int
  qual : List (Nat × Nat × Nat)
  prev : Option (Nat × Nat)
  vol : List Word
  snaps : List Snap
  snapBase : Nat
  snapLines : Nat
  snapNext : Nat
  overrunPosted : Bool
  short : AMap Sums
  probes : List Probe
  probeFull : Bool
  seenJ : List (Option Nat)
  deriving DecidableEq, Repr

def Cal.reset : Cal :=
  { chans := List.replicate 7 CalChan.reset, cols := [], acc := [], pend := [], qual := List.replicate 8 (0, 0, 0),
    prev := none, vol := List.replicate 8 0xB0704000#32, snaps := [], snapBase := 0, snapLines := 0x10000, snapNext := 0, overrunPosted := false,
    short := [], probes := [], probeFull := false, seenJ := List.replicate 16 none }

/-! ### The cameras (10_cameras.md) -/

/-- A camera line (R335, R349): X in 1/65,536 job line, NOPOS, ns after the frame start, CRC and optical-black flags, pixels;
`usable`: it came before the frame became CORRUPT. -/
structure CamLine where
  x : Int
  nopos : Bool
  t : Int
  crc : Bool
  clean : Bool
  pixels : List Nat
  deriving DecidableEq, Repr

/-- The parameter set a frame fixes at its start (R333). -/
structure CamParams where
  cfg : Word
  size : Word
  time : Word
  expo : Word
  ob : Word
  grid : Word
  dpc : Word
  black : List Nat
  defects : AMap Word
  knots : AMap Nat
  flatRef : Bool
  deriving DecidableEq, Repr

/-- A frame (R334 to R339, R348): number, start in ns and press line, its lines, the line being received, flags, corrected
lines of those processed, the buffer it holds (FRAME_BUF and address and size), lines processed, its pipeline, and the CAPTUREs it is written for
(descriptor, slot, lines that fitted). -/
structure Frame where
  ctx : Nat
  no : Nat
  start : Nat
  press : Nat
  p : CamParams
  isOpen : Bool
  cur : Option CamLine
  overrun : Bool
  lines : List CamLine
  short : Bool
  long : Bool
  corrupt : Bool
  corruptProc : Bool
  late : Bool
  trunc : Bool
  inspect : Bool
  buf : Option (Nat × Nat × Nat)
  pipe : Option Nat
  done : Nat
  outs : List (List Nat)
  caps : List (Nat × Nat)
  deriving DecidableEq, Repr

/-- A FRAME_BUF descriptor in use (R348); `out`: its buffers not yet used and returned, by address. -/
structure BufDesc where
  seq : Nat
  count : Nat
  out : List Nat
  user : Nat
  deriving DecidableEq, Repr

/-- A CAPTURE in use (R348). -/
structure CapDesc where
  seq : Nat
  corrected : Bool
  inspect : Bool
  device : Bool
  count : Nat
  addr : Nat
  slot : Nat
  user : Nat
  evt : Bool
  next : Nat
  written : Nat
  deriving DecidableEq, Repr

/-- A context beside its registers: frame number, whether NO_BUFFER was posted, its free buffers (descriptor, address, size),
its FRAME_BUFs and its CAPTUREs. -/
structure CamCtx where
  no : Nat
  noBuf : Bool
  free : List (Nat × Nat × Nat)
  bufs : List BufDesc
  caps : List CapDesc
  deriving DecidableEq, Repr

def CamCtx.reset : CamCtx := { no := 0, noBuf := false, free := [], bufs := [], caps := [] }

/-- A registration window's mark (R345) and, per plane, the last valid measurement (R346). -/
structure Mark where
  sw : BitVec 32
  sx : BitVec 32
  n : Nat
  edges : Bool
  t : Int
  deriving DecidableEq, Repr

def Mark.reset : Mark := { sw := 0, sx := 0, n := 0, edges := true, t := 0 }

/-- One plane's δ_q: T_line of its mark in ns, columns as binary32 (REG_LAT), and whether REG_LOST was posted. -/
structure RegLat where
  t : Option Int
  lat : BitVec 32
  lost : Bool
  deriving DecidableEq, Repr

def RegLat.reset : RegLat := { t := none, lat := 0, lost := false }

/-- The cameras. Defects are keyed ctx * 512 + index, knots ctx * 1,156 + index, BLACK sums ctx * 4 + ph. -/
structure Cam where
  ctxs : List CamCtx
  frames : List Frame
  unassigned : List (Nat × Nat)
  defects : AMap Word
  knotTarget : AMap Nat
  knotLive : AMap Nat
  black : AMap (Nat × Nat)
  flat : AMap (Nat × Nat)
  blackStart : List Nat
  knotStart : AMap Nat
  marks : List Mark
  reg : List RegLat
  traffic : List (Option Nat)
  deriving DecidableEq, Repr

def Cam.reset : Cam :=
  { ctxs := List.replicate 16 CamCtx.reset, frames := [], unassigned := [], defects := [], knotTarget := [], knotLive := [],
    black := [], flat := [], blackStart := List.replicate 64 0, knotStart := [], marks := List.replicate 16 Mark.reset,
    reg := List.replicate 8 RegLat.reset, traffic := List.replicate 6 none }

/-! ### The light bars (11_pinning_light.md) -/

/-- A set of driver registers that SYNC latches (R354): dot correction, slot, kerf, MODE, 64 greyscales. -/
structure DriverRegs where
  dc : List Nat
  slot : Nat
  kerf : Nat
  mode : Nat
  gs : List Nat
  deriving DecidableEq, Repr

def DriverRegs.reset : DriverRegs :=
  { dc := List.replicate 16 0, slot := 0, kerf := 0, mode := 0, gs := List.replicate 64 0 }

/-- A light driver (R350 to R358): pending and active registers, latches, LATCH_CNT, SENSE sums and counts, whether a SYNC
waits for the frame edge, whether it is hot now, whether LCLK has stopped, the row it lights and the on times in it. -/
structure Driver where
  pend : DriverRegs
  act : DriverRegs
  opens : List Nat
  shorts : List Nat
  ot : Bool
  crcErr : Bool
  latchCnt : Nat
  sense : List (Nat × Nat)
  synced : Bool
  hot : Bool
  dark : Bool
  row : Option Nat
  on : List Nat
  deriving DecidableEq, Repr

def Driver.reset : Driver :=
  { pend := DriverRegs.reset, act := DriverRegs.reset, opens := List.replicate 4 0, shorts := List.replicate 4 0,
    ot := false, crcErr := false, latchCnt := 0, sense := List.replicate 64 (0, 0), synced := false, hot := false,
    dark := true, row := none, on := List.replicate 16 0 }

/-- A bar beside its registers: drivers, update number, successive misses, greyscales of the update in force (zone * 4 + row),
OT losses by position, coverage sums by job line (R362), dose mark in 1/65,536 line, chain errors of the window, sums of a LED
run, LED_CODE_VOL as sampled at job take, cycle of the last dot-correction step, and the frame last returned on LRTN. -/
structure Bar where
  drivers : List Driver
  k : Nat
  misses : Nat
  gs : List Nat
  otLost : List Bool
  cov : AMap (List Nat)
  mark : Option Int
  tally : Nat
  sums : AMap (Nat × Nat)
  vol : Nat
  dcAt : Nat
  lrtn : BitVec 64
  deriving DecidableEq, Repr

def Bar.reset : Bar :=
  { drivers := List.replicate 4 Driver.reset, k := 0, misses := 0, gs := List.replicate 256 0,
    otLost := List.replicate 4 false, cov := [], mark := none, tally := 0, sums := [], vol := 0xFFAA5500, dcAt := 0, lrtn := 0 }

/-! ### The serial lanes (19_serial_lanes.md) -/

/-- Equaliser settings of a receive path (R526): CTLE code and five signed taps. -/
structure Eq where
  ctle : Nat
  taps : List Int
  deriving DecidableEq, Repr

def Eq.reset : Eq := { ctle := 0, taps := List.replicate 5 0 }

/-- A lane beside its registers: monitor settings, the adaptation under way (R528: tap in work 0 post, 1 pre, 2 main,
whether it tries increments, whether an undo is due, a step kept in this pass, best FOM and settings, requests sent, request
out, far-end STAT, far-end coefficients), RX_READY, whether a LANE run covers it and its search result, the last FOM, LOW_FOM
posted, a self-test running, hold sent until STAT clears, its own STAT by pre, main and post, whether it
failed its last self-test, and the inversions as sampled. -/
structure Lane where
  best : Eq
  bestFom : Nat
  tap : Nat
  inc : Bool
  undo : Bool
  kept : Bool
  searched : Bool
  reqs : Nat
  req : Nat
  farStat : Nat
  far : List Nat
  rxReady : Bool
  covered : Bool
  result : Option (Eq × Nat)
  fom : Nat
  low : Bool
  testing : Bool
  hold : Bool
  stat : List Nat
  loopBad : Bool
  txInv : Bool
  rxInv : Bool
  deriving DecidableEq, Repr

def Lane.reset : Lane :=
  { best := Eq.reset, bestFom := 0, tap := 0, inc := true, undo := false, kept := false, searched := false, reqs := 0,
    req := 0, farStat := 0, far := [3, 50, 10], rxReady := false, covered := false, result := none, fom := 0, low := false,
    testing := false, hold := false, stat := [0, 0, 0], loopBad := false, txInv := false, rxInv := false }

/-! ### Position feedback (13_position_feedback.md) -/

/-- A master input beside its registers (R402 to R412): position C, index x, last edge's stamp in ns and direction, the last four
regular intervals (τ is valid with four), edges seen in this direction since standstill, speed in pitches per ns, the interval
of a short edge that waits for its pair, whether the last edge was the extra tooth. -/
structure MasterIn where
  pos : Int
  idx : Nat
  last : Option Nat
  back : Bool
  ints : List Nat
  runs : Nat
  vNum : Int
  vDen : Nat
  short : Option Nat
  atExtra : Bool
  deriving DecidableEq, Repr

def MasterIn.reset : MasterIn :=
  { pos := 0, idx := 0, last := none, back := false, ints := [], runs := 0, vNum := 0, vDen := 1, short := none, atExtra := false }

/-- A quadrature or serial input beside its registers: last stamp in ns, direction, edges in this direction, speed in counts per
ns; on a serial input also the last position, valid words in succession while starting, whether a count base is set, the stamp
of the word being read and the last word (R421). -/
structure CountIn where
  last : Option Nat
  back : Bool
  runs : Nat
  vNum : Int
  vDen : Nat
  a : Bool
  b : Bool
  pos : Option Nat
  good : Nat
  reading : Option Nat
  lastWord : Option Nat
  raw : Nat
  deriving DecidableEq, Repr

def CountIn.reset : CountIn :=
  { last := none, back := false, runs := 0, vNum := 0, vDen := 1, a := false, b := false, pos := none, good := 0, reading := none,
    lastWord := none, raw := 0 }

/-- The encoder block: inputs, the master in effect as sampled at job take (R414), and the positions of inputs 0 and 1 that the cross-check starts
from (R415). -/
structure Enc where
  masters : List MasterIn
  quads : List CountIn
  serials : List CountIn
  sel : Nat
  base : Int × Int
  deriving DecidableEq, Repr

def Enc.reset : Enc :=
  { masters := List.replicate 2 MasterIn.reset, quads := List.replicate 16 CountIn.reset,
    serials := List.replicate 4 CountIn.reset, sel := 0, base := (0, 0) }

/-! ### Motion and the loop engine (12_motion.md, 14_loop_engine.md) -/

/-- The chopper of a phase (R376): brake, on time since an instant in ns, off time since an instant. -/
inductive Chop where
  | brake
  | onTime (t : Nat)
  | offTime (t : Nat)
  deriving DecidableEq, Repr

/-- A phase of an axis: reference code, polarity (true: negative current), chopper, successive on times above 100 µs (R377), level of
its comparator. -/
structure Phase where
  code : Nat
  neg : Bool
  chop : Chop
  longs : Nat
  deriving DecidableEq, Repr

def Phase.reset : Phase := { code := 0, neg := false, chop := .brake, longs := 0 }

/-- Why a re-plan is due at the next planner tick: a new target, or a new limit (R383, R384). -/
inductive Replan where
  | no
  | target
  | limit
  deriving DecidableEq, Repr

/-- An axis beside its registers: motion, profile, due re-plan, limits sampled for the move in progress (AMAX, DMAX, JMAX in step
units; R382), queued moves with their cruise speeds (the move in progress first), queued gear changes (R393), gear reference
M_ref, last M and OFS (R392), encoder reference E_0 and count_0 (R391), ticks outside the stall window, peak speed of an open
overspeed excursion, the instant of standstill (none: HOLD at once), levels of the limit inputs,
phases. -/
structure Axis where
  mot : Pva
  traj : Option Traj
  replan : Replan
  lim : Nat × Nat × Nat
  moves : List (Int × Nat)
  gears : List (Nat × Int)
  mRef : Int
  mLast : Int
  ofs : Int
  e0 : Int
  cnt0 : Int
  stall : Nat
  excess : Option Nat
  stillAt : Option Nat
  negLevel : Bool
  posLevel : Bool
  phA : Phase
  phB : Phase
  deriving DecidableEq, Repr

def Axis.reset : Axis :=
  { mot := { p := 0, v := 0, a := 0 }, traj := none, replan := .no, lim := (512000, 512000, 32000000), moves := [], gears := [],
    mRef := 0, mLast := 0, ofs := 0, e0 := 0, cnt0 := 0, stall := 0, excess := none, stillAt := none, negLevel := false,
    posLevel := false, phA := Phase.reset, phB := Phase.reset }

/-- A loop slot beside its registers (R426 to R437), binary32 by its bits: z1, z2, yf_prev (none until the first yf), the last raw y,
whether the supervisor starts at the next sample, the history of u (latest first), the last target written (R430), and an open
invalid excursion. -/
structure Loop where
  z1 : Word
  z2 : Word
  yfPrev : Option Word
  y : Word
  supStart : Bool
  hist : List Word
  lastOut : Option Int
  invalid : Bool
  deriving DecidableEq, Repr

def Loop.reset : Loop :=
  { z1 := 0, z2 := 0, yfPrev := none, y := 0, supStart := true, hist := [], lastOut := none, invalid := false }

/-- The loop engine beside its registers: slots, base tick number, PLN_TEMP[q] and D[q] of R294 as last supplied. -/
structure Lpe where
  slots : List Loop
  tick : Nat
  temp : List Word
  warm : List Word
  deriving DecidableEq, Repr

def Lpe.reset : Lpe :=
  { slots := List.replicate 32 Loop.reset, tick := 0, temp := List.replicate 8 0, warm := List.replicate 8 0 }

/-- The PWM generator (R556): the period in force and the high time of each channel, in 4 ns cycles. -/
structure Pwm where
  period : Nat
  high : List Nat
  deriving DecidableEq, Repr

def Pwm.reset : Pwm := { period := 25000, high := List.replicate 16 0 }


/-! ### The memory controller (15_ddr5_memory.md) -/

/-- A DRAM request that waits because its subchannel is held (R458). -/
inductive DramReq where
  | write (addr : Nat) (data : List Byte)
  | bar4 (addr len : Nat)
  deriving DecidableEq, Repr

/-- One DQ or Vref setting: its target and its live value (R460, R461). -/
structure DlySet where
  target : Nat
  live : Nat
  deriving DecidableEq, Repr

/-- The memory controller beside its registers: DMC_CFG as sampled at INIT, bring-up steps under way, MR58 and MR4 answers,
open rows and row-disturb tables by bank (R444, R455), refreshes owed and issued per rank (R446), write-backs pending with
whether a newer write came (R453), devices reported suspect (R450), the scrub's next block (R454), delays by
((kind * 4 + subchannel) * 2 + rank) * 64 + lane (R459), the oscillator count and delay move of each rank (R462), requests
held (R458), the last row-guard action, and the core that took an access fault (R452). -/
structure Dmc where
  cfg : Option Word
  initBusy : Bool
  rfmSupported : Bool
  hot : List Bool
  openRows : AMap Nat
  rh : AMap (List (Nat × Nat))
  guard : Option (Nat × List Nat × Bool)
  owed : List Nat
  refs : List Nat
  wb : List (Nat × Bool)
  suspects : List Nat
  scrub : Nat
  dly : AMap DlySet
  adopting : Bool
  oscBase : List (Option Nat)
  drift : List (Option Int)
  held : List DramReq
  sweepAbort : Bool
  fwFault : Option Nat
  deriving DecidableEq, Repr

def Dmc.reset : Dmc :=
  { cfg := none, initBusy := false, rfmSupported := false, hot := [false, false], openRows := [], rh := [], guard := none,
    owed := [0, 0], refs := [0, 0], wb := [], suspects := [], scrub := 0, dly := [], adopting := false,
    oscBase := [none, none], drift := [none, none], held := [], sweepAbort := false, fwFault := none }

/-! ### The pair (16_pair_operation.md) -/

/-- The pair block beside its registers: LSNs and unacknowledged messages of the mirror port (R466), the lease (R474, R475),
when FIRE_AUTH_IN last went low (R477), the claim's time and trigger (R480), the journal kept by a standby (R469), the resync
under way (R470: last LSN of the snapshot, bytes, start), a planned or automatic yield (R483), self-test results (R484), the
FIRING_DROPPED lines of a lost active chip (R481), and what the peer was answered. Times are in reference cycles. -/
structure Par where
  txLsn : Nat
  rxLsn : Nat
  unacked : List (Nat × MirrorMsg)
  ackOut : Option (Nat × Nat)
  leaseOut : Option Nat
  epochSeen : Nat
  claim : Option Nat
  claimAt : Nat
  afterExpiry : Bool
  expired : Bool
  lastRenew : Option Nat
  authLow : Option Nat
  splitPosted : Bool
  downAt : Option Nat
  journal : List JrnRec
  resync : Option (Nat × Nat × Nat)
  handover : Bool
  yielding : Option Nat
  sramOk : Bool
  mramOk : Bool
  loopOk : Bool
  dramUe : Bool
  fireLines : AMap Nat
  activeAt : Nat
  takeover : Bool
  deriving DecidableEq, Repr

def Par.reset : Par :=
  { txLsn := 0, rxLsn := 0, unacked := [], ackOut := none, leaseOut := none, epochSeen := 0, claim := none, claimAt := 0,
    afterExpiry := false, expired := true, lastRenew := none, authLow := some 0, splitPosted := false, downAt := none,
    journal := [], resync := none, handover := false, yielding := none, sramOk := true, mramOk := true, loopOk := true,
    dramUe := false, fireLines := [], activeAt := 0, takeover := false }

/-! ### The network and steering of PRESS_TIME (17_press_time.md) -/

/-- The network block beside its registers: frames given to firmware (port, bytes), frames queued or sent on each port (port, the
PRESS_TIME at which they leave, bytes), transmit-done interrupts raised, O_d in 2^-32 ns with the reference cycle of its last
write, and whether that write has become too old (R485 to R493). -/
structure Net where
  rx : List (Nat × List Byte)
  out : List (Nat × Nat × List Byte)
  txDone : Nat
  ofs : List Int
  stamp : List (Option Nat)
  old : List Bool
  deriving DecidableEq, Repr

def Net.reset : Net :=
  { rx := [], out := [], txDone := 0, ofs := [0, 0], stamp := [none, none],
    old := [false, false] }

/-! ### Resets, boot and temperature (18_reset_clocks_thermal.md) -/

/-- Reset and boot beside their registers: sources asserted, islands that the reset in progress covers and those still to be
released or entered (R498, R499), islands a strap holds (R554), PIN_DEF not yet applied and the definitions in force (R504, R510),
CORE_PWR_EN, the cycle at which the watchdog's count started, firmware SRAM (R507), whether VBAT was lost since power-on, log entries
held outside the write window as code, sequence number, PRESS_TIME and payload, and the next sequence number (R521). -/
structure Rst where
  asserted : List Nat
  cover : List Nat
  todo : List Nat
  waitReset : List Nat
  strapHold : Bool
  pins : Bool
  pinDef : List Nat
  corePwr : Bool
  wdtFrom : Nat
  sram : Memory
  entry : Nat
  vbatGone : Bool
  log : List (Nat × Nat × Nat × List Byte)
  logSeq : Nat
  deriving DecidableEq, Repr

def Rst.reset : Rst :=
  { asserted := [], cover := [], todo := [], waitReset := [], strapHold := false, pins := false, pinDef := List.replicate 32 0,
    corePwr := true, wdtFrom := 0, sram := [], entry := 0, vbatGone := false, log := [], logSeq := 0 }

/-- A die sensor beside THM_DIE (R512 to R514): read since power-on, the cycle of its last change, the least and greatest readings of
each other sensor of its zone since then, clean slow rounds in succession. -/
structure DieS where
  seen : Bool
  since : Nat
  lo : List Int
  hi : List Int
  ok : Nat
  deriving DecidableEq, Repr

def DieS.reset : DieS := { seen := false, since := 0, lo := [], hi := [], ok := 0 }

/-- Temperature beside the THM registers: die sensors; bad and clean rounds in succession of thermistors and housekeeping inputs;
WARN, THROTTLE and SHUT; SENSORS_LOST under way; a shutdown found in the VBAT latch holds the islands
(R519). -/
structure Thm where
  die : List DieS
  ext : List (Nat × Nat)
  hk : List (Nat × Nat)
  warn : Bool
  throt : Bool
  shut : Bool
  lost : Bool
  latchHold : Bool
  deriving DecidableEq, Repr

def Thm.reset : Thm :=
  { die := List.replicate 24 DieS.reset, ext := List.replicate 32 (0, 0), hk := List.replicate 32 (0, 0), warn := false, throt := false,
    shut := false, lost := false, latchHold := false }

/-- The state of the block. `pending` is the queue of waiting commands, first in, first out. -/
structure State where
  pending : List Instr
  regs : RegFile
  read : ReadPort
  time : TimeState
  hif : Hif
  unitFaults : List (UnitId × Nat)
  mirrorUnit : Word
  hostMem : Memory
  dram : Memory
  poison : List Nat
  mram : Memory
  press : Press
  cmx : List (Option CmxJob)
  heads : Heads
  ldg : Ledger
  web : Web
  dmc : Dmc
  par : Par
  cal : Cal
  cam : Cam
  bars : List Bar
  lanes : List Lane
  enc : Enc
  axes : List Axis
  lpe : Lpe
  pwm : Pwm
  net : Net
  rst : Rst
  thm : Thm
  deriving DecidableEq, Repr

/-- The state right after power-on reset (R497, R543): every register at its reset value, nothing waiting. -/
def State.reset : State :=
  { pending := [], regs := [], read := { data := 0, latch := [] }, time := { cyc := 0, pt := 0, line := 0 },
    hif := Hif.reset, unitFaults := [], mirrorUnit := 0, hostMem := [], dram := [], poison := [], mram := [],
    press := Press.reset, cmx := List.replicate 8 none, heads := Heads.reset, ldg := Ledger.reset,
    web := Web.reset, dmc := Dmc.reset, par := Par.reset, cal := Cal.reset,
    cam := Cam.reset, bars := List.replicate 8 Bar.reset, lanes := List.replicate 52 Lane.reset, enc := Enc.reset,
    axes := List.replicate 16 Axis.reset, lpe := Lpe.reset, pwm := Pwm.reset, net := Net.reset, rst := Rst.reset,
    thm := Thm.reset }

end Sys2Proof.Machine
end

