-- ==== Sys2Proof/Machine/Ops.lean ====
section
/-!
DEFINITION. The named operations over the state: register fields, time, units (R14 to R19), events and completions
(R74, R75, R82, R88), and the interrupt condition's bookkeeping (R95 to R99).
-/
namespace Sys2Proof.Machine

/-! ### Register fields -/

/-- The register at an offset. -/
def State.rget (s : State) (a : Nat) : Word := s.regs.get a

/-- Write the register at an offset as a whole. -/
def State.rset (s : State) (a : Nat) (v : Word) : State := { s with regs := s.regs.set a v }

/-- The value of a field (R3). -/
def State.get (s : State) (f : Fld) : Nat := bits (s.rget f.off).toNat f.hi f.lo

/-- A word with one field replaced. -/
def setBits (v hi lo x : Nat) : Nat :=
  v - bits v hi lo * 2 ^ lo + x % 2 ^ (hi - lo + 1) * 2 ^ lo

/-- Write a field, the register's other bits unchanged. -/
def State.put (s : State) (f : Fld) (x : Nat) : State :=
  s.rset f.off (BitVec.ofNat 32 (setBits (s.rget f.off).toNat f.hi f.lo x))

/-- Is a one-bit field 1? -/
def State.on (s : State) (f : Fld) : Bool := s.get f == 1

/-- Write a one-bit field. -/
def State.putB (s : State) (f : Fld) (b : Bool) : State := s.put f (b2n b)

/-- The largest value of a field. -/
def Fld.max (f : Fld) : Nat := 2 ^ (f.hi - f.lo + 1) - 1

/-- Add to a counter that saturates at its largest value. -/
def State.addSat (s : State) (f : Fld) (n : Nat) : State := s.put f (min f.max (s.get f + n))

/-- A field as a signed number. -/
def State.getS (s : State) (f : Fld) : Int := sgn (f.hi - f.lo + 1) (s.get f)

/-- Write a signed number into a field. -/
def State.putS (s : State) (f : Fld) (x : Int) : State := s.put f (twos (f.hi - f.lo + 1) x)

/-! ### Time -/

/-- PRESS_TIME in ns, 64 bits (R490). -/
def State.now (s : State) : Nat := s.time.pt / 2 ^ 32 % 2 ^ 64

/-! ### Islands (R494) -/

/-- The island of a BAR0 offset (R557): planes have one each, their shared registers lie on the page island. -/
def islandOf (a : Nat) : Nat :=
  match blockOf a with
  | 3 => 1
  | 4 => 2
  | 5 => 2
  | 6 => 2
  | 7 => if a < 0x90000 then 3 + (a - 0x80000) / 0x2000 else 2
  | 8 => 11
  | 10 => 2
  | 11 => 14
  | 12 => 15
  | 13 => 15
  | 14 => 15
  | 15 => 15
  | 16 => 12
  | 17 => 13
  | 18 => 16
  | 19 => 11
  | _ => 0

/-- Does an island run: its RSTATE is RUN (0) and it is not fenced (R495)? -/
def State.islandRuns (s : State) (k : Nat) : Bool :=
  s.get (RST_ISLAND_RSTATE k) == 0 && s.get (RST_ISLAND_FENCED k) == 0

/-- A reset source asserts: RST_CAUSE shows it, with the sources of a reset in progress, and its VBAT counter adds 1 (R499, R511). -/
def State.noteSource (s : State) (src : Nat) : State :=
  let old := if s.rst.todo = [] ∧ s.rst.asserted = [] then 0 else s.get RST_CAUSE_SRC
  (s.put RST_CAUSE_SRC (setBits old src src 1)).addSat (RST_VBAT_CNT_COUNT src) 1

/-! ### Units (R14 to R19) -/

/-- The STATE field of a unit; the mirror port's is kept in `mirrorUnit`. -/
def stateFld : UnitId → Fld
  | .ring r => HIF_RING_STATUS_STATE r.num
  | .port p => HLK_PORT_STATUS_STATE p
  | .lane l => SDS_LANE_STATUS_STATE l
  | .axis a => MOT_AX_STATUS_STATE a
  | .web => MOT_WEB_STATUS_STATE
  | .master m => ENC_M_STATUS_STATE m
  | .quad q => ENC_Q_STATUS_STATE q
  | .serial n => ENC_S_STATUS_STATE n
  | .ctx c => CAM_CTX_STATUS_STATE c
  | .slot l => LPE_STATUS_STATE l
  | .bar b => LED_BAR_STATUS_STATE b
  | .net n => NET_PORT_STATUS_STATE n
  | .mirror => ⟨0x4000000, 2, 0⟩

/-- The enable bit of a unit. -/
def enableFld : UnitId → Fld
  | .ring r => HIF_RING_CFG_ENABLE r.num
  | .port p => HLK_PORT_CFG_ENABLE p
  | .lane l => SDS_LANE_CFG_TEST_EN l
  | .axis a => MOT_AX_CFG_ENABLE a
  | .web => MOT_WEB_CFG_ENABLE
  | .master m => ENC_M_CFG_ENABLE m
  | .quad q => ENC_Q_CFG_ENABLE q
  | .serial n => ENC_S_CFG_ENABLE n
  | .ctx c => CAM_CTX_CFG_ENABLE c
  | .slot l => LPE_CFG_ENABLE l
  | .bar b => LED_BAR_CFG_ENABLE b
  | .net n => NET_PORT_CFG_ENABLE n
  | .mirror => PAR_CFG_MIRROR_EN

/-- A unit's state. -/
def State.ust (s : State) (u : UnitId) : UState :=
  match u with
  | .mirror => UState.ofCode (bits s.mirrorUnit.toNat 2 0)
  | _ => UState.ofCode (s.get (stateFld u))

/-- Write a unit's STATE field. -/
def State.setUst (s : State) (u : UnitId) (x : UState) : State :=
  match u with
  | .mirror => { s with mirrorUnit := BitVec.ofNat 32 (setBits s.mirrorUnit.toNat 2 0 x.code) }
  | _ => s.put (stateFld u) x.code

/-- A unit's PEND bit. -/
def State.pend (s : State) (u : UnitId) : Bool :=
  match u with
  | .mirror => bit s.mirrorUnit.toNat 3
  | _ => s.on ⟨(stateFld u).off, 3, 3⟩

/-- Write a unit's PEND bit. -/
def State.setPend (s : State) (u : UnitId) (b : Bool) : State :=
  match u with
  | .mirror => { s with mirrorUnit := BitVec.ofNat 32 (setBits s.mirrorUnit.toNat 3 3 (b2n b)) }
  | _ => s.putB ⟨(stateFld u).off, 3, 3⟩ b

/-- The reason of the fault recorded while a unit stops (R16). -/
def State.faultRec (s : State) (u : UnitId) : Option Nat := s.unitFaults.lookup u

/-- Record a fault for a stopping unit. -/
def State.recordFault (s : State) (u : UnitId) (r : Nat) : State :=
  { s with unitFaults := (u, r) :: s.unitFaults.filter (fun e => e.1 ≠ u) }

/-- Drop the recorded fault of a unit. -/
def State.dropFault (s : State) (u : UnitId) : State :=
  { s with unitFaults := s.unitFaults.filter (fun e => e.1 ≠ u) }

/-! ### Causes and the interrupt condition -/

/-- The IRQ_CAUSE offset of each block (R557). -/
def causeOff : Nat → Nat
  | 0 => 0x100
  | 1 => 0x10300
  | 2 => 0x20600
  | 3 => 0x30400
  | 4 => 0x40300
  | 5 => 0x50100
  | 6 => 0x60100
  | 7 => 0x90000
  | 8 => 0xB8100
  | 9 => 0xC0100
  | 10 => 0xD0100
  | 11 => 0xE3800
  | 12 => 0xF0100
  | 13 => 0x105000
  | 14 => 0x113100
  | 15 => 0x122100
  | 16 => 0x130800
  | 17 => 0x140100
  | 18 => 0x151100
  | 19 => 0x16E100
  | 20 => 0x170100
  | _ => 0x180100

/-- Set an event cause bit (R96). -/
def State.cause (s : State) (f : Fld) : State := s.putB f true

/-! ### Rings -/

/-- A ring's record. -/
def State.ring (s : State) (n : Nat) : Ring := s.hif.rings.getD n Ring.reset

/-- Replace a ring's record. -/
def State.setRing (s : State) (n : Nat) (r : Ring) : State :=
  { s with hif := { s.hif with rings := s.hif.rings.set n r } }

/-- A ring's number of entries. -/
def State.ringSize (s : State) (n : Nat) : Nat := 2 ^ s.get (HIF_RING_CFG_LOG2SIZE n)

/-- A ring's base address in host memory (R67). -/
def State.ringBase (s : State) (n : Nat) : Nat :=
  s.get (HIF_RING_BASE_LO_ADDR n) * 4096 + s.get (HIF_RING_BASE_HI_ADDR n) * 2 ^ 32

/-- The address of a ring's write-back record (R77). -/
def State.ringWb (s : State) (n : Nat) : Nat :=
  s.get (HIF_RING_WB_LO_ADDR n) * 16 + s.get (HIF_RING_WB_HI_ADDR n) * 2 ^ 32

/-- Mark a ring's write-back record as due (R77). -/
def State.wbDue (s : State) (n : Nat) : State := s.setRing n { s.ring n with wbDue := true }

/-- Write a ring's write-back record (R77). -/
def State.writeBack (s : State) (n : Nat) : State :=
  { (s.setRing n { s.ring n with wbDue := false }) with
    hostMem := Mem.writes s.hostMem (s.ringWb n)
      (leBytes 2 (s.get (HIF_RING_STATUS_INDEX n)) ++ leBytes 2 (s.get (HIF_RING_DONE_DONE_SEQ n)) ++
       [BitVec.ofNat 8 (bits (s.rget (HIF_RING_STATUS n)).toNat 5 0)] ++ leBytes 3 0 ++ leBytes 8 s.now) }

/-- Advance a ring's INDEX by one entry; a wrap inverts the phase (R69, R74). -/
def State.advanceIndex (s : State) (n : Nat) : State :=
  if s.get (HIF_RING_STATUS_INDEX n) + 1 = s.ringSize n then
    ((s.put (HIF_RING_STATUS_INDEX n) 0).putB (HIF_RING_STATUS_PHASE n) (!s.on (HIF_RING_STATUS_PHASE n))).wbDue n
  else (s.put (HIF_RING_STATUS_INDEX n) (s.get (HIF_RING_STATUS_INDEX n) + 1)).wbDue n

/-! ### EVT entries (R74, R75, R82) -/

/-- Codes whose payload places the manual gives as bytes (R147, R182, R323): the payload is stored as given. -/
def payloadIsBytes (code : Nat) : Bool := code == Ev.PAGE_RETIRED || code == Ev.CMX_DONE || code == Ev.PT_RESULT

/-- The 32 payload bytes of an entry. -/
def payloadBytes (code : Nat) (p : List Nat) : List Byte :=
  if payloadIsBytes code then (p.map (BitVec.ofNat 8) ++ List.replicate 32 0).take 32
  else if p = [] then List.replicate 32 0
  else (List.range 32).map (Config.payloadByte code p)

/-- The 64 bytes of an entry with its producer phase (R82). -/
def EvtEntry.bytes (e : EvtEntry) (phase : Bool) : List Byte :=
  [BitVec.ofNat 8 e.typ, BitVec.ofNat 8 (128 * b2n phase + 64 * b2n e.lost)] ++ leBytes 2 e.seq ++ leBytes 2 e.code ++
  [BitVec.ofNat 8 e.src, BitVec.ofNat 8 e.status] ++ leBytes 2 e.descSeq ++ leBytes 2 e.unit ++ leBytes 4 0 ++
  leBytes 8 e.time ++ leBytes 5 e.line ++ leBytes 3 0 ++ payloadBytes e.code e.payload

/-- Can the part write an EVT entry now: ring ON, link up, and room (R74)? -/
def State.evtRoom (s : State) : Bool :=
  s.ust (.ring .evt) == .on && s.hif.linkUp && s.hif.evtUnread.length + 1 < s.ringSize 8

/-- What an entry reads as it is written: the flag LOST when drops preceded it (R75, R82); EVT_LOST carries HIF_EVT_LOST at the time
of writing. -/
def State.evtFinal (s : State) (e : EvtEntry) : EvtEntry :=
  { e with lost := s.hif.lostFlag, payload := if e.code = Ev.EVT_LOST then [s.get HIF_EVT_LOST_COUNT] else e.payload }

/-- Store an entry's 64 bytes at the ring's index in host memory; the driver has it to read. -/
def State.evtStore (s : State) (e : EvtEntry) : State :=
  { s with hostMem := Mem.writes s.hostMem (s.ringBase 8 + 64 * s.get (HIF_RING_STATUS_INDEX 8))
             (e.bytes (s.on (HIF_RING_STATUS_PHASE 8))),
           hif := { s.hif with evtUnread := s.hif.evtUnread ++ [e], lostFlag := false } }

/-- Write one entry to EVT: 64 bytes at the ring's index, which advances (R74, R75, R82). -/
def State.evtWrite (s : State) (e : EvtEntry) : State :=
  ((s.evtStore (s.evtFinal e)).advanceIndex 8).cause HIF_IRQ_CAUSE_EVT

/-- Take the next sequence number of the entries. -/
def State.evtTake (s : State) : State := { s with hif := { s.hif with evtNext := s.hif.evtNext + 1 } }

/-- Put an entry at the end of the internal queue (R75). -/
def State.evtEnqueue (s : State) (e : EvtEntry) : State := { s with hif := { s.hif with evtQueue := s.hif.evtQueue ++ [e] } }

/-- An entry is dropped with EVT and the internal queue full (R75). -/
def State.evtDrop (s : State) : State :=
  (({ s with hif := { s.hif with lostFlag := true, lostRun := true } }).addSat HIF_EVT_LOST_COUNT 1).cause HIF_IRQ_CAUSE_EVT_LOST

/-- Queue or write an entry, or drop it when EVT and the internal queue are full (R75). While the host island is in reset
it is not kept; while the link is down it is counted (R102). -/
def State.evtPost (s : State) (e : EvtEntry) : State :=
  if ¬ s.islandRuns 1 then s
  else if ¬ s.hif.linkUp then s.addSat HIF_EVT_LOST_COUNT 1
  else
    let e' : EvtEntry := { e with seq := s.hif.evtNext % 65536 }
    if s.evtRoom ∧ s.hif.evtQueue = [] then s.evtTake.evtWrite e'
    else if s.hif.evtQueue.length < 256 then s.evtTake.evtEnqueue e'
    else s.evtTake.evtDrop

/-- An entry as the part forms it at an instant. -/
def State.entry (s : State) (typ code src status descSeq unit : Nat) (p : List Nat) : EvtEntry :=
  { typ := typ, lost := false, seq := 0, code := code, src := src, status := status, descSeq := descSeq, unit := unit,
    time := s.now, line := s.time.line, payload := p }

/-- Post an event of a unit (R13, R82). -/
def State.event (s : State) (code unit : Nat) (p : List Nat) : State := s.evtPost (s.entry 1 code 0xFF 0 0 unit p)

/-- Post an event that names no unit. -/
def State.event' (s : State) (code : Nat) (p : List Nat) : State := s.event code 0xFFFF p

/-- After a run of drops, queue EVT_LOST as soon as the internal queue has room (R75). -/
def State.evtLostRun (s : State) : State :=
  if s.hif.lostRun ∧ s.hif.evtQueue.length < 256 then
    { s with hif := { s.hif with lostRun := false, evtNext := s.hif.evtNext + 1,
                                 evtQueue := s.hif.evtQueue ++
                                   [{ s.entry 1 Ev.EVT_LOST 0xFF 0 0 0xFFFF [] with seq := s.hif.evtNext % 65536 }] } }
  else s

/-- Write queued entries in order while EVT has room (R75). -/
def State.evtDrain (s : State) : Nat → State
  | 0 => s.evtLostRun
  | n + 1 =>
    match s.hif.evtQueue with
    | [] => s.evtLostRun
    | e :: r => if s.evtRoom then
        State.evtDrain (({ s with hif := { s.hif with evtQueue := r } }).evtWrite e).evtLostRun n
      else s.evtLostRun

/-! ### Access errors (R495, R558, R563) -/

/-- Record an access error (R563): the first is latched with its event, every one is counted. -/
def State.accessError (s : State) (req off kind : Nat) (read : Bool) : State :=
  let s1 := s.addSat GLB_ACC_ERR_COUNT 1
  if s.on GLB_ACC_ERR_VALID then s1
  else
    let s2 := ((((s1.putB GLB_ACC_ERR_VALID true).put GLB_ACC_ERR_KIND kind).putB GLB_ACC_ERR_READ read).put GLB_ACC_ERR_REQ req).put
      GLB_ACC_ADDR_OFFSET off
    (s2.event' Ev.ACCESS_ERROR [kind, b2n read, req, off]).cause GLB_IRQ_CAUSE_ACC_ERR

/-- Does a requester reach an offset: the housekeeping core (5) reaches GLB, RST, THM, NVM and PIN alone (R558)? -/
def reaches (req off : Nat) : Bool :=
  req != 5 || Nat.blt (blockOf off) 3 || blockOf off == 20 || blockOf off == 21

/-- A 32-bit write of a register by a requester: discarded with an access error while its island is in reset or fenced (R495). -/
def State.reqWrite (s : State) (req off : Nat) (f : State → State) : State :=
  if !reaches req off then s
  else if s.islandRuns (islandOf off) then f s
  else s.accessError req off 2 false

/-! ### MRAM words with errors (R522) -/

/-- Errors met while MRAM is read: an offset each, and whether the word is uncorrectable. A corrected word is counted; an uncorrectable
one is counted and posts NVM_UE. -/
def State.mramErrors (s : State) (errs : List (Nat × Bool)) : State :=
  errs.foldl (fun s e =>
    if e.2 then ((s.addSat NVM_UE_COUNT_COUNT 1).event' Ev.NVM_UE [e.1 / 8 * 8]).cause NVM_IRQ_CAUSE_UE else s.addSat NVM_CE_COUNT_COUNT 1) s

/-- MRAM as such a read sees it: an uncorrectable word holds free bytes (log 45), one of the odometer ring two halves that disagree. -/
def mramSeen (m : Memory) (errs : List (Nat × Bool)) : Memory :=
  (errs.filter (fun e => e.2)).foldl (fun m e =>
    let a := e.1 / 8 * 8
    Mem.writes m a (if 0x100 ≤ a ∧ a < 0x300 then List.replicate 8 0 else (List.range 8).map (Config.undefByte a))) m

/-- Is a word of a range uncorrectable? -/
def mramBad (errs : List (Nat × Bool)) (a b : Nat) : Bool := errs.any (fun e => e.2 && Nat.ble a (e.1 / 8 * 8) && Nat.blt (e.1 / 8 * 8) b)

/-! ### Completions (R73, R84, R88) -/

/-- Drop the completed descriptors at the front of a ring's order; the last of them is the watermark (R88). -/
def popDone : List OpenDesc → Option Nat → List OpenDesc × Option Nat
  | [], w => ([], w)
  | d :: r, w => if d.done then popDone r (some d.seq) else (d :: r, w)

/-- Show the watermark of a ring after a completion (R88). -/
def State.watermark (s : State) (n : Nat) : State :=
  match popDone (s.ring n).opens none with
  | (_, none) => s
  | (os, some w) =>
    (((s.setRing n { s.ring n with opens := os }).put (HIF_RING_DONE_DONE_SEQ n) w).putB (HIF_RING_DONE_VALID n) true).wbDue n

/-- Change the first open descriptor of a ring with a sequence number. -/
def updDesc (f : OpenDesc → OpenDesc) (seq : Nat) : List OpenDesc → List OpenDesc
  | [] => []
  | d :: r => if d.seq = seq ∧ ¬ d.done then f d :: r else d :: updDesc f seq r

/-- The open descriptor of a ring with a sequence number. -/
def State.desc (s : State) (n seq : Nat) : Option OpenDesc := (s.ring n).opens.find? (fun d => d.seq == seq && !d.done)

/-- The NOTIFY flag of a descriptor. -/
def OpenDesc.notify (d : OpenDesc) : Bool := bit (dfield d.bits 1 1) 6

/-- The opcode of a descriptor (R6). -/
def OpenDesc.op (d : OpenDesc) : Nat := dfield d.bits 0 1

/-- Complete a descriptor: the watermark moves, and an entry is posted when NOTIFY is 1 or the rule posts it anyway;
never for a descriptor fetched before a host-island reset (R73, R88, R104). -/
def State.complete (s : State) (n seq typ code status unit : Nat) (p : List Nat) (always : Bool) : State :=
  match s.desc n seq with
  | none => s
  | some d =>
    let s' := (s.setRing n { s.ring n with opens := updDesc (fun d => { d with done := true }) seq (s.ring n).opens }).watermark n
    if ¬ d.stale ∧ (always ∨ d.notify) then s'.evtPost (s.entry typ code n status seq unit p) else s'

/-- Mark a descriptor as taken by its engine. -/
def State.take (s : State) (n seq : Nat) : State :=
  s.setRing n { s.ring n with opens := updDesc (fun d => { d with taken := true }) seq (s.ring n).opens }

/-- Mark a descriptor as started (R73). -/
def State.startDesc (s : State) (n seq : Nat) : State :=
  s.setRing n { s.ring n with opens := updDesc (fun d => { d with taken := true, started := true }) seq (s.ring n).opens }

/-- The next descriptor of a ring that no engine has taken; none while the ring is blocked at a fence (R85, R89). -/
def State.head (s : State) (n : Nat) : Option OpenDesc :=
  if (s.ring n).fence.isSome then none else (s.ring n).opens.find? (fun d => !d.taken && !d.done && !d.stale)

/-- One of several details or reasons that hold together, where the manual gives no order (log 8). -/
def pickOf (ds : List Nat) : Option Nat := if ds = [] then none else ds[Config.oneOf ds % ds.length]?

/-- Statuses of R84. -/
def stOK : Nat := 0
def stREFUSED : Nat := 1
def stFAILED : Nat := 2
def stABORTED : Nat := 3
def stBAD_OPCODE : Nat := 4
def stBAD_FIELD : Nat := 5
def stBAD_TARGET : Nat := 6

end Sys2Proof.Machine
end

