-- ==== Sys2Proof/Machine/Flags.lean ====
section
/-!
DEFINITION. Flag computations: the level causes (R96), GLB_IRQ_SUM (R95, R561), the interrupt condition and its outputs
(R97 to R99), and the closing step every command's effect ends with.
-/
namespace Sys2Proof.Machine

/-- Is there an enabled registration window of a plane (R345)? -/
def State.regWindow (s : State) (q : Nat) : Bool :=
  (List.range 16).any (fun w => s.on (CAM_REG_CFG_EN w) && s.get (CAM_REG_CFG_PLANE w) == q)

/-- Has a plane a valid registration measurement: one whose T_line is at most 1 s old (R346)? -/
def State.regValid (s : State) (q : Nat) : Bool :=
  match (s.cam.reg.getD q RegLat.reset).t with
  | none => false
  | some t => decide ((s.now : Int) ≤ t + 1000000000)

/-- The level cause bits of a block that follow from the block's own registers and queues (R96). The level bits not listed
here are kept in the cause register itself by the operations that change their condition. -/
def State.levelBits (s : State) (b : Nat) : Nat :=
  match b with
  | 2 => 2 ^ 6 * b2n s.thm.throt
  | 3 => 2 ^ 8 * b2n (s.hif.evtUnread ≠ [])
  | 6 => 2 ^ 2 * b2n (s.get CMX_UNIT_STATUS_BUSY ≠ 0)
  | 7 => 2 ^ 5 * b2n ((List.range 8).any (fun p => s.get (PLN_THERM_STATUS_CLAMP p) ≠ 0))
  | 8 => 2 ^ 8 * b2n ((List.range 24).any (fun p => s.on (HLK_PORT_STATUS_RETIRE_PEND p)))
  | 9 => 2 ^ 8 * b2n (s.on LDG_STATUS_PENDING)
  | 10 => 2 ^ 6 * b2n ((List.range 7).any (fun c => s.on (CAL_CH_STATUS_STALE c)))
  | 11 => 2 ^ 6 * b2n ((List.range 8).any (fun q => s.regWindow q && !s.regValid q))
  | 13 => 2 ^ 7 * b2n (s.on MOT_WEB_STATUS_WEB_STOP)
  | 15 => 2 ^ 2 * b2n ((List.range 32).any (fun l => s.on (LPE_STATUS_SAT l) && s.get (LPE_STATUS_STATE l) == 2))
  | 16 => 2 ^ 6 * b2n (s.get DMC_TRAIN_CTRL_HOLD ≠ 0)
  | 17 => 2 ^ 7 * b2n (s.on PAR_STATUS_SOLO)
  | 18 => 2 ^ 4 * b2n (s.on NET_PT_STATUS_HOLDOVER)
  | _ => 0

/-- A block's CAUSE register as it reads (R96). -/
def State.causeNow (s : State) (b : Nat) : Nat := (s.rget (causeOff b)).toNat ||| s.levelBits b

/-- Bit `b` of GLB_IRQ_SUM (R95, R561). -/
def State.sumBit (s : State) (b : Nat) : Bool :=
  s.islandRuns (islandOf (causeOff b)) &&
    ((s.causeNow b) &&& ((s.rget (causeOff b + 4)).toNat ^^^ 0xFFFFFFFF)) != 0

/-- GLB_IRQ_SUM (R95). -/
def State.irqSum (s : State) : Nat := (List.range 22).foldl (fun a b => a + 2 ^ b * b2n (s.sumBit b)) 0

/-- The interrupt condition (R95). -/
def State.irqCond (s : State) : Bool := (List.range 22).any (fun b => bit (s.get GLB_IRQ_EN_EN) b && s.sumBit b)

/-- IRQ_N is driven low while the condition is true (R97). -/
def State.irqNLow (s : State) : Bool := s.irqCond

/-- Keep the start of the coalescing time and INTA in step with the condition (R98, R99). -/
def State.trackIrq (s : State) : State :=
  { s with hif := { s.hif with
      coalSince := if s.irqCond && s.on HIF_MSI_CTRL_ARMED then some (s.hif.coalSince.getD s.time.cyc) else none
      inta := s.hif.inta && s.irqCond } }

/-- How every command's effect ends: the next state, with the interrupt bookkeeping done. -/
def finish (s : State) : Host.Outcome State Fault Refusal := .next s.trackIrq

end Sys2Proof.Machine
end

