-- ==== Sys2Proof/Machine/Geometry.lean ====
section
/-!
DEFINITION. Print geometry (02_print_geometry.md): modes, plane columns, bands, offsets, tile timing, thin threshold,
ramps of R137, and the plane, tile and position that a port and slot serve.
-/
namespace Sys2Proof.Machine

/-- Lines per inch of a mode (R22, R25). -/
def lpiOf (mode : Nat) : Nat := if mode = 1 then 2400 else 1200

/-- The row pitch k in lines (R36). -/
def kOf (mode : Nat) : Nat := if mode = 1 then 8 else 4

/-- Fine lines per line of the mode (R48). -/
def fineOf (mode : Nat) : Nat := if mode = 1 then 1 else 2

/-- The smallest PGP_LINE_PERIOD of a mode (R22). -/
def minPeriod (mode : Nat) : Nat :=
  match mode with
  | 2 => 1642010
  | 3 => 1806234
  | _ => 1083725

/-- The default heater energy scale of a mode in 1/4,096 (R282). -/
def modeScale (mode : Nat) : Nat := if mode = 3 then 3768 else 4096

/-- Columns of a plane of N tiles (R38). -/
def planeWidth (tiles : Nat) : Nat := if tiles = 0 then 0 else 4032 * tiles + 64

/-- Bands of a plane (R45). -/
def bandCount (tiles : Nat) : Nat := ceilDiv (planeWidth tiles) 16384

/-- Columns of band `b` (R45). -/
def bandWidth (tiles b : Nat) : Nat := min (16384 * (b + 1)) (planeWidth tiles) - 16384 * b

/-- Bit (k, m) of a stitching mask held as 128 words (R41). -/
def stitchBit (mask : List Word) (k m : Nat) : Bool := bit (mask.getD (2 * m + k / 32) 0).toNat (k % 32)

/-- Fields of a PLN_TILE_MAP word. -/
def mapPort (w : Word) : Nat := bits w.toNat 4 0
def mapSlot (w : Word) : Nat := bits w.toNat 12 8
def mapTrim (w : Word) : Int := sgn 8 (bits w.toNat 23 16)
def mapValid (w : Word) : Bool := bit w.toNat 31

/-- One entry in use (R39): position g = 64 p + t, port, slot. -/
structure MapEntry where
  g : Nat
  port : Nat
  slot : Nat
  trim : Int
  deriving DecidableEq, Repr

/-- The entries in use of one plane's map. -/
def mapEntries (p tiles : Nat) (map : List Word) : List MapEntry :=
  (List.range tiles).map (fun t =>
    { g := 64 * p + t, port := mapPort (map.getD t 0), slot := mapSlot (map.getD t 0), trim := mapTrim (map.getD t 0) })

/-- A plane's map as written. -/
def State.planeMap (s : State) (p : Nat) : List Word := (List.range 64).map (fun t => s.rget (PLN_TILE_MAP p t))

/-- The entries in use: as sampled at job take while a job is active, else as currently written (R44). -/
def State.entries (s : State) : List MapEntry :=
  match s.press.job with
  | some j => ((List.range 8).map (fun p =>
      match j.planes[p]? with
      | some c => mapEntries p c.tiles c.map
      | none => [])).flatten
  | none => ((List.range 8).map (fun p => mapEntries p (s.get (PLN_GEOM_TILES p)) (s.planeMap p))).flatten

/-- The position served by a port and slot; the lower position applies when two entries name it (R44). -/
def State.posOf (s : State) (port slot : Nat) : Option Nat :=
  (s.entries.find? (fun e => e.port == port && e.slot == slot)).map (·.g)

/-- The entry of a position. -/
def State.entryAt (s : State) (g : Nat) : Option MapEntry := s.entries.find? (fun e => e.g == g)

/-- D_p in 1/65,536 fine line; plane 0's is 0 (R47). -/
def State.downWeb (s : State) (p : Nat) : Nat :=
  if p = 0 then 0 else s.get (PLN_DOWNWEB_INT_INT p) * 65536 + s.get (PLN_DOWNWEB_FRAC_FRAC p)

/-- I_p and F_p of R48 for an offset in 1/65,536 fine line, a mode and a period in 1/256 ns. -/
def offsetOf (d mode per : Nat) : Nat × Nat :=
  let unit := 65536 * fineOf mode
  let f := (roundDiv ((d % unit : Nat) * (per : Int)) (unit * 256)).toNat
  if per ≤ 256 * f then (d / unit + 1, 0) else (d / unit, f)

/-- The period R48 uses at job take: the pending one when PERIOD_PEND is 1, else the active one. -/
def State.jobPeriod (s : State) : Nat :=
  if s.on PGP_CLK_STATUS_PERIOD_PEND then s.get PGP_LINE_PERIOD_PERIOD else s.get PGP_PERIOD_ACTIVE_PERIOD

/-- Show I_p and F_p of every plane in use for a period (R48). -/
def State.showOffsets (s : State) (mode per : Nat) : State :=
  (List.range 8).foldl (fun s p =>
    if s.get (PLN_GEOM_TILES p) = 0 then s
    else (s.put (PLN_OFFSET_LINES_LINES p) (offsetOf (s.downWeb p) mode per).1).put (PLN_OFFSET_DELAY_DELAY p)
      (offsetOf (s.downWeb p) mode per).2) s

/-- I_p as shown (R48). -/
def State.offs (s : State) (p : Nat) : Nat := s.get (PLN_OFFSET_LINES_LINES p)

/-- The one-tick shift and the fractional delay d of a tile (R50), for F_p in ns, a trim and a period in 1/256 ns. -/
def tileTiming (f : Nat) (trim : Int) (per : Nat) : Int × Nat :=
  let d := (f : Int) + roundDiv (trim * per) 65536
  if d < 0 then (-1, ((256 * d + per + 128) / 256).toNat)
  else if (per : Int) ≤ 256 * d then (1, ((256 * d - per + 128) / 256).toNat)
  else (0, d.toNat)

/-- Shift and delay of the tile at a position under the shown offsets and the active period. -/
def State.tileTime (s : State) (e : MapEntry) : Int × Nat :=
  tileTiming (s.get (PLN_OFFSET_DELAY_DELAY (e.g / 64))) e.trim (s.get PGP_PERIOD_ACTIVE_PERIOD)

/-- The largest number of drops any entry of a drop table names (R27). -/
def dMax (table : Nat) : Nat :=
  if (List.range 4).any (fun c => bits table (4 * c + 1) (4 * c) ≠ 0 && bits table (4 * c + 3) (4 * c + 2) ≠ 0) then 2 else 1

/-- T_thin of R27: a period in 1/256 ns, the drops per code, the tile's F_MAX in 100 Hz. -/
def tThin (per d fMax : Nat) : Nat := ceilDiv (256 * 10 ^ 9 * d) (per * (100 * fMax))

/-- The mode in force: the job's, else the last job's (R55). -/
def State.mode (s : State) : Nat :=
  match s.press.job with
  | some j => j.mode
  | none => s.press.lastMode

/-- A distance v / 2 x (v / a + a / j), or v x sqrt(v / j) on a short ramp (R137), in 1/65,536 line, rounded down
(DESIGN CHOICE, log 21). v = 256e9 / per lines/s; a and j in 0.01 m/s² and 0.1 m/s³. -/
def dRamp (per mode acc jerk : Nat) : Nat :=
  -- lines per metre = lpi * 10000 / 254
  let k := lpiOf mode * 10000
  if per = 0 ∨ acc = 0 ∨ jerk = 0 then 0
  -- v >= a^2 / j, with a = acc k / 25400 and j = jerk k / 2540
  else if acc * acc * k * per ≤ 256 * 10 ^ 9 * jerk * 254000 then
    -- v^2 / (2 a) + v a / (2 j)
    65536 * (256 * 10 ^ 9) ^ 2 * 25400 / (2 * per ^ 2 * acc * k) + 65536 * 256 * 10 ^ 9 * acc / (2 * per * jerk * 10)
  else
    -- v * sqrt (v / j)
    Nat.sqrt (65536 ^ 2 * (256 * 10 ^ 9) ^ 3 * 2540 / (per ^ 3 * jerk * k))

/-- The CLK_STATE codes of R54. -/
def clkStopped : Nat := 0
def clkLocking : Nat := 1
def clkRunning : Nat := 2
def clkHalted : Nat := 3

/-- CLK_STATE. -/
def State.clk (s : State) : Nat := s.get PGP_CLK_STATUS_CLK_STATE

/-- JOB_STATE codes of PGP_SCHED_STATUS. -/
def jsIdle : Nat := 0
def jsCommit : Nat := 1
def jsRun : Nat := 2
def jsRecovery : Nat := 3
def jsEnding : Nat := 4

/-- Planes in use of the job. -/
def Job.used (j : Job) : List Nat := (List.range 8).filter (fun p => (j.planes.getD p { tiles := 0, map := [], mask := [], routeDead := false, dropTable := 0, pre := 0, dead := 0, mainNs := 0, gap := 0, scale := 0 }).tiles ≠ 0)

/-- One plane's sampled configuration. -/
def Job.cfg (j : Job) (p : Nat) : PlaneCfg :=
  j.planes.getD p { tiles := 0, map := [], mask := [], routeDead := false, dropTable := 0, pre := 0, dead := 0, mainNs := 0, gap := 0, scale := 0 }

/-- Replace the active job. -/
def State.setJob (s : State) (j : Job) : State := { s with press := { s.press with job := some j } }

/-- Change the active job. -/
def State.updJob (s : State) (f : Job → Job) : State :=
  match s.press.job with
  | none => s
  | some j => s.setJob (f j)

/-- The press line number of the tick at which plane 0 fires job line `x` (R107, R195): the next tick fires `line`. -/
def State.pressLineOf (s : State) (j : Job) (x : Int) : Int := (s.time.line : Int) + 1 + (x - j.line)

end Sys2Proof.Machine
end

