-- ==== Sys2Proof/Machine/Journal.lean ====
section
/-!
DEFINITION. The journal an active chip sends (16_pair_operation.md, R466 to R471): its records and the packets they wait in.
-/
namespace Sys2Proof.Machine

/-- The pair role: 0 single, 1 role A, 2 role B (R463). -/
def State.role (s : State) : Nat := s.get PAR_CFG_ROLE

/-- The pair states of R464. -/
def psUNSYNCED : Nat := 0
def psSTANDBY : Nat := 1
def psCLAIMED : Nat := 2
def psACTIVE : Nat := 3
def psYIELDING : Nat := 4

/-- The pair state. -/
def State.pstate (s : State) : Nat := s.get PAR_STATUS_PSTATE

/-- Does the chip send the journal: a pair chip in ACTIVE or YIELDING with the mirror link up (R464, R468)? -/
def State.journals (s : State) : Bool :=
  s.role != 0 && (s.pstate == psACTIVE || s.pstate == psYIELDING) && s.on PAR_STATUS_MIRROR_UP

/-- Put a message into the mirror port's sequence: it takes the next LSN and stays until acknowledged (R466). -/
def State.mirrorSend (s : State) (m : MirrorMsg) : State :=
  if s.on PAR_STATUS_MIRROR_UP then
    { s with par := { s.par with txLsn := (s.par.txLsn + 1) % 4096, unacked := s.par.unacked ++ [(s.par.txLsn, m)] } }
  else s

/-- The kind of a record (R468). -/
def recKind : JrnRec → Nat
  | .job _ _ _ => 1
  | .page _ _ _ => 2
  | .anchor _ _ _ _ _ _ => 3
  | .mark _ _ => 4
  | .recov _ _ _ _ _ => 5
  | .ledger _ _ _ => 6
  | .trims _ _ _ => 7
  | .energy _ _ _ => 7
  | .axis _ _ => 8
  | .retire _ _ _ => 9
  | .ended _ => 10

/-- How many entries a record carries, which its size in bytes follows. -/
def recEntries : JrnRec → Nat
  | .trims _ _ t => t.length
  | .energy _ _ t => t.length
  | .axis a _ => a.length
  | .mark h _ => h.length
  | .recov _ _ e _ _ => e.length
  | _ => 1

/-- Bytes of an unacknowledged message, counted for records only (PAR_JRN_LAG). -/
def msgBytes : MirrorMsg → Nat
  | .record r => Config.recordBytes (recKind r) (recEntries r)
  | _ => 0

/-- Unacknowledged record bytes (R466). -/
def State.jrnLag (s : State) : Nat := s.par.unacked.foldl (fun a m => a + msgBytes m.2) 0

/-- Has the journal fallen behind: more than 4 MiB unacknowledged (R471)? -/
def State.jrnBehind (s : State) : Bool := Nat.blt (4 * 2 ^ 20) s.jrnLag

/-- Journal a record (R468). -/
def State.jrn (s : State) (r : JrnRec) : State := if s.journals then s.mirrorSend (.record r) else s

/-- Must a page's PAGE_RETIRED wait for the standby: in a pair, unless SOLO is set (R472)? -/
def State.mustMirror (s : State) : Bool := s.role != 0 && !s.on PAR_STATUS_SOLO

end Sys2Proof.Machine
end

