-- ==== Sys2Proof/Machine/Link.lean ====
section
/-!
DEFINITION. Sending on the head link (R192, R199 to R203) and the records of ports, slots and tiles.
-/
namespace Sys2Proof.Machine

/-- The key of a port and slot. -/
def slotKey (p slot : Nat) : Nat := 32 * p + slot

/-- A port's record. -/
def State.port (s : State) (p : Nat) : Port := s.heads.ports.getD p Port.reset

/-- Replace a port's record. -/
def State.setPort (s : State) (p : Nat) (x : Port) : State :=
  { s with heads := { s.heads with ports := s.heads.ports.set p x } }

/-- What is known of a slot. -/
def State.ctl (s : State) (p slot : Nat) : CtlSlot := s.heads.ctl.get (slotKey p slot) CtlSlot.reset

/-- Replace what is known of a slot. -/
def State.setCtl (s : State) (p slot : Nat) (x : CtlSlot) : State :=
  { s with heads := { s.heads with ctl := s.heads.ctl.set (slotKey p slot) x } }

/-- A tile. -/
def State.tile (s : State) (p slot : Nat) : Tile := s.heads.tiles.get (slotKey p slot) Tile.reset

/-- Replace a tile. -/
def State.setTile (s : State) (p slot : Nat) (t : Tile) : State :=
  { s with heads := { s.heads with tiles := s.heads.tiles.set (slotKey p slot) t } }

/-- Is the port UP: ON with PHASE 6 (R226)? -/
def State.portUp (s : State) (p : Nat) : Bool := s.get (HLK_PORT_STATUS_STATE p) == 2 && s.get (HLK_PORT_STATUS_PHASE p) == 6

/-- Is a tile present at the slot, by the hub's declaration (HLK_SLOT_STATUS.PRESENT)? -/
def State.slotPresent (s : State) (p slot : Nat) : Bool := s.on (HLK_SLOT_STATUS_PRESENT p slot)

/-- Hand a packet to a port: it takes the next LSN and is sent, or it waits while 1,024 are unacknowledged (R192). On a port
that is not UP there is no packet traffic (R227). -/
def State.sendPacket (s : State) (p slot : Nat) (b : PacketBody) : State :=
  if ¬ s.portUp p then s
  else
    let q := s.port p
    let k : Packet := { lsn := q.lsn, slot := slot, body := b, sent := 1, lastStatus := 0 }
    if q.outstanding.length < 1024 then
      s.setPort p { q with lsn := (q.lsn + 1) % 4096, outstanding := q.outstanding ++ [k] }
    else s.setPort p { q with waiting := q.waiting ++ [k] }

/-- Send waiting packets while fewer than 1,024 are unacknowledged (R192). -/
def State.sendWaiting (s : State) (p : Nat) : Nat → State
  | 0 => s
  | n + 1 =>
    match (s.port p).waiting with
    | [] => s
    | k :: r =>
      if (s.port p).outstanding.length < 1024 then
        State.sendWaiting (s.setPort p { s.port p with lsn := ((s.port p).lsn + 1) % 4096, waiting := r,
                                                       outstanding := (s.port p).outstanding ++ [{ k with lsn := (s.port p).lsn }] }) p n
      else s

/-- Control opcodes (R210). -/
def opMASK_LOAD : Nat := 0x10
def opTRIM_LOAD : Nat := 0x11
def opFIRE_PARAMS : Nat := 0x12
def opDROP_TABLE : Nat := 0x13
def opWARM : Nat := 0x14
def opTHERM : Nat := 0x15
def opRES_SWEEP : Nat := 0x16
def opSPIT : Nat := 0x17
def opLINE_CANCEL : Nat := 0x18
def opSET_LINE : Nat := 0x19
def opTICK_DELAY : Nat := 0x1A
def opASSIGN_ID : Nat := 0x1B
def opDECLARE_REQ : Nat := 0x1C
def opCLEAR_FAULT : Nat := 0x1D

/-- Is the chip passive: in a pair, in neither ACTIVE nor YIELDING (R464)? -/
def State.passive (s : State) : Bool := s.role != 0 && s.pstate != psACTIVE && s.pstate != psYIELDING

/-- A passive chip sends DECLARE_REQ and CLEAR_FAULT only (R464). -/
def State.maySend (s : State) (op : Nat) : Bool := !s.passive || op == opDECLARE_REQ || op == opCLEAR_FAULT

/-- Send a control packet: CSEQ advances by 1 per new packet to the slot (R203). -/
def State.sendCtl (s : State) (p slot op : Nat) (imm : Bool) (line : Nat) (payload : List Byte) (jobLine : Option Nat) : State :=
  if ¬ s.portUp p ∨ s.maySend op = false then s
  else
    (s.setCtl p slot { s.ctl p slot with cseq := ((s.ctl p slot).cseq + 1) % 256 }).sendPacket p slot
      (.ctl op (s.ctl p slot).cseq imm (line % 2 ^ 24) payload jobLine)

/-- Send a control packet that applies on receipt (R210). -/
def State.sendNow (s : State) (p slot op : Nat) (payload : List Byte) : State := s.sendCtl p slot op true 0 payload none

/-- The entries in use of one plane. -/
def State.planeEntries (s : State) (q : Nat) : List MapEntry := s.entries.filter (fun e => e.g / 64 == q)

/-- Every port and slot that is present. -/
def State.presentSlots (s : State) : List (Nat × Nat) :=
  ((List.range 24).map (fun p => ((List.range 24).filter (fun k => s.slotPresent p k)).map (fun k => (p, k)))).flatten

/-- CLEAR_FAULT payload for a bit set of codes (R210). -/
def clearPayload (codes : Nat) : List Byte := leBytes 4 codes ++ leBytes 4 0

/-- The SPIT payload (R210). -/
def spitPayload (on : Bool) (size rate : Nat) : List Byte :=
  [BitVec.ofNat 8 (b2n on), BitVec.ofNat 8 size] ++ leBytes 2 rate ++ leBytes 4 0

/-- A tile's declaration fields (R216). -/
def declVersion (d : DescBits) : Nat := dfield d 0 1
def declKind (d : DescBits) : Nat := dfield d 1 1
def declIdent (d : DescBits) : Nat := dfield d 2 10
def declSerial (d : DescBits) : Nat := dfield d 6 6
def declFMax (d : DescBits) : Nat := dfield d 12 2
def declRNom (d : DescBits) : Nat := dfield d 14 2
def declTAbs (d : DescBits) : Int := sgn 16 (dfield d 16 2)
def declBuf (d : DescBits) : Nat := dfield d 18 2
def declRows (d : DescBits) : Nat := dfield d 20 1
def declCols (d : DescBits) : Nat := dfield d 21 1
def hubThisPort (d : DescBits) : Nat := dfield d 13 1
def hubSlots (d : DescBits) : Nat := dfield d 14 3
def hubAsym (d : DescBits) (slot : Nat) : Int := sgn 8 (dfield d (18 + slot) 1)

/-- The 64 bytes of a declaration. -/
def declBytes (d : DescBits) : List Byte := leBytes 64 d.toNat

/-- T_TXFIX, 38.0 ns in 1/16 ns (R204). -/
def tTxFix16 : Int := 608

/-- C_s in 1/16 ns (R206), from the λ_s shown. -/
def State.cLat16 (s : State) (p slot : Nat) : Int :=
  16 * (s.get HLK_FIRE_LATENCY_NS : Nat) - tTxFix16 - (s.get (HLK_SLOT_LAT_LAT p slot) : Nat)

/-- Does a tile permit firing (R291)? -/
def State.permits (s : State) (p slot : Nat) : Bool :=
  s.slotPresent p slot && !s.on (HLK_SLOT_STATUS_DECL_BAD p slot) && (s.ctl p slot).adopted &&
  (s.ctl p slot).unacked == [] && !(s.ctl p slot).shutDown &&
  !(bit (s.ctl p slot).faults 3 || bit (s.ctl p slot).faults 4 || bit (s.ctl p slot).faults 5 || bit (s.ctl p slot).faults 7) &&
  (match (s.ctl p slot).tempAt with
   | none => false
   | some t => s.now ≤ t + 2000000) &&
  !bit (s.ctl p slot).flags 3 && !bit (s.ctl p slot).flags 2

end Sys2Proof.Machine
end

