-- ==== Sys2Proof/Machine/Jobs.lean ====
section
/-!
DEFINITION. Pages, the ends of a job, the web's stop line, late data and recovery (R106 to R148, R564, R565) as operations
that several commands share.
-/
namespace Sys2Proof.Machine

/-! ### Web commands -/

/-- Is WEB_STOP asserted (R399)? -/
def State.webStopNow (s : State) : Bool :=
  s.clk == clkHalted || s.web.resetStop || s.web.thermStop ||
  (s.ust .web == .off || s.ust .web == .fault) || s.on MOT_WEB_CTRL_FORCE_STOP

/-- Put the web axis into a plan, to be planned at the next planner tick, and show its mode. -/
def State.webPlan (s : State) (m : Nat) (p : WebPlan) : State :=
  ({ s with web := { s.web with plan := p, fresh := true, traj := none } }).put MOT_WEB_STATUS_WMODE m

/-- Show WEB_STOP; while it is asserted no steps are issued and the commanded rate is 0 (R399). A firmware move and the motion of a
halted job end there; another plan goes on from standstill after the release. -/
def State.refreshWebStop (s : State) : State :=
  if s.webStopNow then
    let drop := s.clk == clkHalted || (match s.web.plan with | .firmware _ => true | _ => false)
    let s1 := if drop then s.webPlan 0 .idle else s
    ((({ s1 with web := { s1.web with fresh := true, traj := none, vel := 0, mot := { s1.web.mot with v := 0, a := 0 } } }).putB
      MOT_WEB_STATUS_WEB_STOP true).put MOT_WEB_RATE_RATE 0).putB MOT_WEB_STATUS_STANDSTILL true
  else s.putB MOT_WEB_STATUS_WEB_STOP false

/-- Command the web to a park target in RECOVERY mode (R139, R395). -/
def State.webPark (s : State) (xb : Int) : State := (s.webPlan 3 (.park xb)).put MOT_WEB_STATUS_PARK_TRIES 0

/-- Bring the web to standstill by the recovery ramp (R115). -/
def State.webDecel (s : State) : State := s.webPlan 3 .decel

/-! ### Web error windows -/

/-- The web error e as shown, in 1/65,536 line (R58). -/
def State.webErr (s : State) : Int := s.getS PGP_WEB_ERR_ERR

/-- Close an open excursion (R60). -/
def State.closeDev (s : State) : State :=
  if s.on PGP_CLK_STATUS_IN_DEV then
    (s.putB PGP_CLK_STATUS_IN_DEV false).event' Ev.WEB_DEV_LEAVE [s.press.peak, s.time.line]
  else s

/-- The ANCHOR record (R468): the last master edge's position. -/
def State.anchorRecord (s : State) (j : Job) : JrnRec :=
  .anchor s.time.line j.line s.clk (s.enc.masters.getD s.enc.sel MasterIn.reset).pos
    ((match s.press.edges with | e :: _ => e.2 - s.press.webAtTick0 | [] => 0) / (16 * fineOf j.mode))
    (match s.press.edges with | e :: _ => e.1 | [] => 0)

/-- The MARK record (R468): per plane the last job line handed to the link island and the last one cleared (R51). -/
def State.markRecord (s : State) (j : Job) : JrnRec :=
  .mark ((List.range 8).map (fun q => j.nextTake.getD q 0 - 1)) ((List.range 8).map (fun q => j.line - 2 - 7 * kOf j.mode - s.offs q))

/-- Change CLK_STATE (R54); leaving RUNNING ends an excursion (R60). A change is journalled with an ANCHOR, a stop with a MARK too (R468). -/
def State.setClk (s : State) (c : Nat) : State :=
  if s.clk = c then s
  else
    let s1 := ((if s.clk = clkRunning then s.closeDev else s).put PGP_CLK_STATUS_CLK_STATE c).refreshWebStop
    match s1.press.job with
    | none => s1
    | some j =>
      let s2 := s1.jrn (s1.anchorRecord j)
      if c = clkStopped ∨ c = clkHalted then s2.jrn (s2.markRecord j) else s2

/-! ### Pages -/

/-- The line after a page's last line. -/
def PageRec.stop (p : PageRec) : Nat := p.first + p.lines

/-- Does a page hold a job line? -/
def PageRec.holds (p : PageRec) (x : Nat) : Bool := Nat.ble p.first x && Nat.blt x p.stop

/-- PFLAGS bits (R147). -/
def pfDEFECTIVE : Nat := 0
def pfREG_DEV : Nat := 1
def pfSEAM : Nat := 2
def pfDECODE_ERR : Nat := 3
def pfHISTORY_LOST : Nat := 4
def pfLIGHT_GAP : Nat := 5
def pfTHERMAL_CLAMP : Nat := 6
def pfTRIP : Nat := 7

/-- Set a flag of a page. -/
def PageRec.flag (p : PageRec) (b : Nat) : PageRec := if bit p.pflags b then p else { p with pflags := p.pflags + 2 ^ b }

/-- Change every page that a test picks. -/
def Job.mapPages (j : Job) (t : PageRec → Bool) (f : PageRec → PageRec) : Job :=
  { j with pages := j.pages.map (fun p => if t p && !p.retired then f p else p) }

/-- Flag every page that holds a line from `a` to `b`. -/
def Job.flagLines (j : Job) (a b fl : Nat) : Job :=
  j.mapPages (fun p => Nat.ble p.first b && Nat.blt a p.stop) (fun p => p.flag fl)

/-- The page that holds a job line. -/
def Job.pageAt (j : Job) (x : Nat) : Option PageRec := j.pages.find? (fun p => p.holds x)

/-- The line after the last line of the last committed page; 0 before any (R132). -/
def Job.committedEnd (j : Job) : Nat := (j.pages.filter (·.committed)).foldl (fun a p => max a p.stop) 0

/-- The line at which the job's printing ends, once it is known: where a rule ended it (R112, R114), or after its last page when JOB_END
has been fetched (R115). -/
def Job.endOf (j : Job) : Option Nat :=
  match j.endLine with
  | some l => some l
  | none => if j.jobEndSeq.isSome && j.pages.all (fun p => p.committed || p.retired) then some j.committedEnd else none

/-- Is a page held for the seam of a recovery's resume (R148): does it hold line E_q - 1 of a plane in use? -/
def Job.seamDue (j : Job) (p : PageRec) : Bool :=
  match j.recovery with
  | none => false
  | some r => j.started && j.used.any (fun q => Nat.blt 0 (r.e.getD q 0) && p.holds (r.e.getD q 0 - 1))

/-- The committed data of R120 and R140: H lines beyond a job line, or everything up to the job's end. -/
def Job.dataReady (j : Job) (x : Nat) : Bool := Nat.ble (x + j.horizon) j.committedEnd ||
  (match j.endOf with
   | some l => j.pages.all (fun p => p.committed || p.retired || Nat.ble l p.first)
   | none => false)

/-- The line after the last page that plane 0 has started (R113); 0 before any. -/
def Job.startedEnd (j : Job) : Nat := (j.pages.filter (·.started)).foldl (fun a p => max a p.stop) 0

/-- The 32 payload bytes of PAGE_RETIRED (R147). -/
def PageRec.payload (p : PageRec) : List Nat :=
  (leBytes 4 p.pageId ++ leBytes 4 p.user ++ leBytes 5 p.first ++ leBytes 3 0 ++ leBytes 4 p.pflags ++ leBytes 2 p.seams ++
   leBytes 2 (min p.seamErr 65535) ++ leBytes 8 0).map BitVec.toNat

/-- The status a page retires with (R147). -/
def PageRec.status (p : PageRec) (aborted : Bool) : Nat :=
  if aborted then stABORTED else if bit p.pflags pfDEFECTIVE then 0x10 else stOK

/-- Change the page with a sequence number. -/
def Job.updPage (j : Job) (seq : Nat) (f : PageRec → PageRec) : Job :=
  { j with pages := j.pages.map (fun x => if x.seq = seq ∧ ¬ x.retired then f x else x) }

/-- Complete a PAGE with an entry that is posted whatever NOTIFY says. A page adopted at a take-over (its number is 65,536 above the
descriptor's) has no descriptor on this chip: its entry alone is posted (R482). -/
def State.completePage (s : State) (ring seq code status : Nat) (p : List Nat) : State :=
  if 65536 ≤ seq then s.evtPost (s.entry 2 code ring status (seq - 65536) 0xFFFF p) else s.complete ring seq 2 code status 0xFFFF p true

/-- Post, in ring order, the completions of the pages before the first whose completion is not decided (R86). -/
def State.postPages (s : State) : State :=
  match s.press.job with
  | none => s
  | some j =>
    let done := j.pages.takeWhile (·.retired)
    done.foldl (fun s p => match p.due with
        | some d => s.completePage j.ring p.seq d.code d.status d.payload
        | none => s)
      (s.setJob { j with pages := done.map (fun p => { p with due := none }) ++ j.pages.drop done.length })

/-- Decide the completion of a page: its room is given up, and the completion is posted as soon as every earlier page has its own (R86). -/
def State.decidePage (s : State) (seq : Nat) (d : PageDone) : State :=
  (s.updJob (fun j => j.updPage seq (fun x => { x with
    retired := true, due := some d, waitMirror := none, reads := []
    streams := x.streams.map (fun t => { t with released := true }) }))).postPages

/-- A page retires with a status (R147). -/
def State.postRetired (s : State) (p : PageRec) (status : Nat) : State := s.decidePage p.seq ⟨Ev.PAGE_RETIRED, status, p.payload⟩

/-- The first line of a page, by TARGET or ABUT (R110). -/
def pageFirst (d : DescBits) (prev : Nat) : Nat := if bit (dfield d 1 1) 2 then prev else dfield d 16 5

/-- The page of a PAGE descriptor. -/
def newPage (seq : Nat) (d : DescBits) (first : Nat) : PageRec :=
  { seq := seq, desc := d, pageId := dfield d 8 4, user := dfield d 12 4, first := first, lines := bits (dfield d 4 4) 17 0
    resetHist := bit (dfield d 1 1) 5, inspect := bit (dfield d 1 1) 4, calOk := bit (dfield d 1 1) 3
    reads := [{ kind := .dir, plane := 0xFF, band := 0xFF, host := dfield d 24 8, retried := false }], waitRoom := false, streams := []
    committed := false, started := false, pflags := 0, seams := 0, seamErr := 0, waitMirror := none, cleared := false, retired := false
    due := none }

/-- A page that retires inside a clamp window still open carries THERMAL_CLAMP (R287). -/
def State.clamped (s : State) (p : PageRec) : PageRec :=
  if s.entries.any (fun e => (s.ctl e.port e.slot).clampFrom.isSome && Nat.blt (s.ctl e.port e.slot).clampJob p.stop) then p.flag pfTHERMAL_CLAMP else p

/-- Retire a page: its RETIRE record is journalled, and in a pair PAGE_RETIRED of a page that was printed waits for the
standby's acknowledgement (R147, R468, R472). -/
def State.retirePage (s : State) (p0 : PageRec) (aborted : Bool) : State :=
  let p := if aborted then p0 else s.clamped p0
  let s1 := if p.committed then s.jrn (.retire p.pageId (p.status aborted) p.pflags) else s
  if ¬ aborted ∧ s.mustMirror then
    s1.updJob (fun j => j.updPage p.seq (fun x => { x with pflags := p.pflags, waitMirror := some (p.status aborted),
                                                           streams := x.streams.map (fun t => { t with released := true }) }))
  else s1.postRetired p (p.status aborted)

/-- Retire every cleared page in order, but those held for a seam (R147, R148). -/
def State.retireCleared (s : State) : State :=
  match s.press.job with
  | none => s
  | some j => (j.pages.filter (fun p => p.cleared && !p.retired && p.waitMirror.isNone && !j.seamDue p)).foldl
      (fun (s : State) (p : PageRec) => s.retirePage p false) s

/-- Complete ABORTED every page that a test picks (R114, R564). -/
def State.abortPages (s : State) (t : PageRec → Bool) : State :=
  match s.press.job with
  | none => s
  | some j => (j.pages.filter (fun p => t p && !p.retired && p.waitMirror.isNone)).foldl (fun s p => s.retirePage p true) s

/-! ### The end of a job -/

/-- JOB_ENDED's payload (R565): JOB_ID, job lines run, end reason, stops of Types 1 to 3, lost time in ms. -/
def Job.endPayload (j : Job) : List Nat :=
  [j.jobId, j.maxLine, j.endReason.getD 0, j.late.getD 0 0, j.late.getD 1 0, j.late.getD 2 0, j.lostUs / 1000]

/-- The job's printing is over: the clock stops and the web decelerates to standstill (R115); the job then closes by
JOB_ENDED. -/
def State.printOver (s : State) : State :=
  match s.press.job with
  | none => s
  | some j =>
    if j.closing then s
    else
      let s1 := s.setJob { j with closing := true, recovery := none }
      let s2 := (((s1.put PGP_SCHED_STATUS_JOB_STATE jsEnding).put PGP_SCHED_STATUS_RECOV_PHASE 0).putB PGP_IRQ_CAUSE_WAIT_DATA false).retireCleared
      if s2.clk = clkRunning ∨ s2.clk = clkLocking then (s2.setClk clkStopped).webDecel else s2

/-- Lines of a plane from `x` on that are not fired have coverage 0 at its light bar (R145, R362). -/
def State.dropCoverage (s : State) (q x : Nat) : State :=
  let b := s.bars.getD q Bar.reset
  { s with bars := s.bars.set q { b with cov := b.cov.filter (fun e => Nat.blt e.1 x) } }

/-- LINE_CANCEL to every tile of a plane, from the press line at which the plane would fire `x`; each waits for its ACK
(R134, R214). -/
def State.cancelPlane (s : State) (j : Job) (q x : Nat) : State :=
  (s.planeEntries q).foldl (fun s e =>
    (s.setCtl e.port e.slot { s.ctl e.port e.slot with
        heldLines := (s.ctl e.port e.slot).heldLines.filter (fun b => match b with | .line _ _ jl _ _ => Nat.blt jl x | _ => true)
        cancel := some ((s.pressLineOf j ((x + s.offs q : Nat) : Int)).toNat % 2 ^ 40, x) }).sendCtl e.port e.slot opLINE_CANCEL true
      ((s.pressLineOf j ((x + s.offs q : Nat) : Int) + (s.tileTime e).1) % 2 ^ 24).toNat [] none) (s.dropCoverage q x)

/-- Cancel the lines at or after a line that a plane has already handed over while the clock runs. -/
def State.cancelFrom (s : State) (j : Job) (x : Nat) : State :=
  if s.clk = clkRunning then (j.used.filter (fun q => Nat.blt x (j.nextTake.getD q 0))).foldl (fun s q => s.cancelPlane j q x) s else s

/-- End the job's printing at a line (R112, R114, R102, R104): pages from that line on complete ABORTED, and lines from there on that
were handed over are cancelled. Of several ends the earliest line counts, with the first end's reason (R564). While the clock is not RUNNING and no line is left to fire, the printing is over at once (R144). -/
def State.endJobAt (s : State) (reason line : Nat) : State :=
  match s.press.job with
  | none => s
  | some j =>
    if j.closing || (match j.endLine with | some l => Nat.ble l line | none => false) then s
    else
      let s1 := ((s.setJob { j with endReason := some (j.endReason.getD reason), endLine := some line }).abortPages (fun p => Nat.ble line p.first)).cancelFrom j line
      if s1.clk = clkRunning then s1
      else
        match j.recovery with
        | some r => if line ≤ r.lRes then s1.printOver else s1
        | none => if line ≤ j.line then s1.printOver else s1

/-- Plane 0's next page boundary (R114): the end of the last page it has started, or its next line when none is open. -/
def Job.boundary (j : Job) : Nat := max j.line j.startedEnd

/-- End the job at plane 0's next page boundary, as an FLR does (R104, R114). -/
def State.endJobAtBoundary (s : State) (reason : Nat) : State :=
  match s.press.job with
  | none => s
  | some j => s.endJobAt reason j.boundary

/-- End the job after the last committed page (R102, R112). -/
def State.endJobAtCommitted (s : State) (reason : Nat) : State :=
  match s.press.job with
  | none => s
  | some j =>
    if j.jobEndSeq.isSome ∧ j.pages.all (·.committed) then s else s.endJobAt reason (max j.line j.committedEnd)

/-- The web-stop trip (R61): no further line is fired, WEB_STOP is asserted, the clock is HALTED, every partly fired page
is defective with TRIP, and the job's printing ends with reason 6. -/
def State.webStopTrip (s : State) : State :=
  if s.clk = clkRunning ∨ s.clk = clkLocking then
    let s0 := s.setClk clkHalted
    let s1 := (s0.event' Ev.WEB_STOP_TRIP [twos 32 s.webErr, s.press.lastFired]).cause PGP_IRQ_CAUSE_WEB_STOP_TRIP
    match s1.press.job with
    | none => s1
    | some j =>
      let j1 : Job := (j.mapPages (fun p => p.started && !p.cleared) (fun p => (p.flag pfDEFECTIVE).flag pfTRIP))
      let s2 := s1.setJob { j1 with endReason := some (j1.endReason.getD 6), endLine := some j.line, closing := true, recovery := none }
      let s3 := j.used.foldl (fun s q => s.dropCoverage q ((j.line : Int) - s.offs q).toNat)
        ((s2.put PGP_SCHED_STATUS_JOB_STATE jsEnding).put PGP_SCHED_STATUS_RECOV_PHASE 0)
      ((j1.pages.filter (fun p => p.started && !p.retired && p.waitMirror.isNone)).foldl (fun s p => s.retirePage p false) s3).abortPages
        (fun p => !p.started)
  else s

/-! ### Recovery geometry and late data -/

/-- Planes in use with their I_p. -/
def State.planesI (s : State) (j : Job) : List (Nat × Nat) := j.used.map (fun q => (q, s.offs q))

/-- The recovery geometry of R137 for a recovery: D_run, and the recovery with X_d, X_b and B. -/
def State.geomOf (s : State) (j : Job) (r : Recovery) : Nat × Recovery :=
  let xd := (s.planesI j).foldl (fun a p => max a (r.e.getD p.1 0 + p.2)) 0 + 7 * kOf j.mode
  let dDec := dRamp (s.get PGP_PERIOD_ACTIVE_PERIOD) j.mode (s.get MOT_WEB_RAMP_A_DEC) (s.get MOT_WEB_RAMP_J_JERK)
  let dRun := ceilDiv (dRamp (s.get PGP_LINE_PERIOD_PERIOD) j.mode (s.get MOT_WEB_RAMP_A_ACC) (s.get MOT_WEB_RAMP_J_JERK)) 65536 +
    s.get PGP_RECOV_LOCK_LINES
  let xb : Int := 65536 * ((r.lRes : Int) - dRun - s.get PGP_RECOV_MARGIN_LINES)
  (dRun, { r with xd := xd, xb := xb, b := 65536 * (xd : Int) + dDec - xb })

/-- Compute the geometry and show D_run and B. -/
def State.geom (s : State) (j : Job) (r : Recovery) : State × Recovery :=
  let g := s.geomOf j r
  ((s.put PGP_RUNUP_LINES_LINES g.1).put PGP_BACKUP_LINES_LINES (g.2.b / 65536).toNat, g.2)

/-- Show S, L_res and every E_q - S of a recovery. -/
def State.showRecovery (s : State) (r : Recovery) : State :=
  (List.range 8).foldl (fun s q => s.put (PGP_PLANE_E_OFFSET q) (r.e.getD q r.s - r.s))
    ((((s.put PGP_STOP_LINE_LO_LINE (r.s % 2 ^ 32)).put PGP_STOP_LINE_HI_LINE (r.s / 2 ^ 32)).put PGP_RESUME_LINE_LO_LINE
      (r.lRes % 2 ^ 32)).put PGP_RESUME_LINE_HI_LINE (r.lRes / 2 ^ 32))

/-- L_res of R133: the least E_q + I_q. -/
def State.lResOf (s : State) (j : Job) (e : List Nat) : Nat :=
  match (s.planesI j).map (fun p => e.getD p.1 0 + p.2) with
  | [] => 0
  | x :: xs => xs.foldl min x

/-- E_q of R133 for a detection: S on the faulty plane and for planned and Type 1 stops, else max(S, U_q). -/
def Job.stopLines (j : Job) (typ : Nat) (plane : Option Nat) (x : Nat) : List Nat :=
  (List.range 8).map (fun q => if typ ≤ 1 ∨ plane = some q then x else max x (j.nextTake.getD q 0))

/-- A detection of late data, or a planned stop (type 0): type, faulty plane, job line, band, port and slot (0xFF: none). -/
structure Late where
  typ : Nat
  plane : Option Nat
  x : Nat
  band : Nat
  port : Nat
  slot : Nat
  deriving DecidableEq, Repr

/-- Of two detections, the one the event reports: the lower S, and on equal S the lower type (R136). -/
def Late.least (a b : Late) : Late := if b.x < a.x ∨ (b.x = a.x ∧ b.typ < a.typ) then b else a

/-- Post RECOVERY_STOP for a detection and journal the stop (R139, R468). -/
def State.postStop (s : State) (d : Late) (r : Recovery) : State :=
  ((s.event' Ev.RECOVERY_STOP [d.typ, d.plane.getD 0xFF, d.band, d.port, d.slot, r.s, r.lRes, (r.b / 65536).toNat]).cause
    PGP_IRQ_CAUSE_RECOVERY).jrn (.recov r.typ r.s r.e r.lRes (r.b / 65536).toNat)

/-- The PRESS_TIME, in 2^-32 ns, at which plane 0 would have fired a job line without a stop. -/
def State.plannedPt (s : State) (j : Job) (x : Nat) : Nat :=
  ((s.press.lastTickPt : Int) + ((x : Int) + 1 - j.line) * (s.get PGP_PERIOD_ACTIVE_PERIOD * 2 ^ 24 : Nat)).toNat

/-- Count a detection (R136). -/
def State.countLate (s : State) (d : Late) : State :=
  if d.typ = 0 then s
  else (s.addSat (PGP_LATE_COUNT_COUNT (d.typ - 1)) 1).updJob (fun j => { j with late := j.late.set (d.typ - 1) (j.late.getD (d.typ - 1) 0 + 1) })

/-- The recovery after detections while the clock is RUNNING: S and every E_q are the lesser of the old values and the new ones (R133,
R136). -/
def State.lowered (s : State) (j : Job) (ds : List Late) (d : Late) : Recovery :=
  let old : Recovery := j.recovery.getD { typ := d.typ, plane := d.plane, s := d.x, e := j.stopLines d.typ d.plane d.x, lRes := 0, phase := 1, tries := 0,
                                          plannedPt := 0, xd := 0, xb := 0, b := 0 }
  let e := (List.range 8).map (fun q => ds.foldl (fun a d => min a ((j.stopLines d.typ d.plane d.x).getD q 0)) (old.e.getD q 0))
  let take : Bool := decide (d.x < old.s) || (d.x == old.s && Nat.blt d.typ old.typ)
  { old with s := min old.s d.x, typ := if take then d.typ else old.typ, plane := if take then d.plane else old.plane, e := e
             lRes := s.lResOf j e, plannedPt := s.plannedPt j (s.lResOf j e) }

/-- Put a recovery into force and show it. -/
def State.setRecovery (s : State) (r : Recovery) (phase : Nat) : State :=
  (((s.updJob (fun j => { j with recovery := some { r with phase := phase } })).put PGP_SCHED_STATUS_JOB_STATE jsRecovery).put
    PGP_SCHED_STATUS_RECOV_PHASE phase).put PGP_SCHED_STATUS_RECOV_TYPE r.typ

/-- Late data of one tick, or a planned stop (R131 to R136, R143). A line at or after the job's end is never printed and stops nothing. -/
def State.lateAll (s : State) (all : List Late) : State :=
  match s.press.job with
  | none => s
  | some j =>
    match all.filter (fun d => match j.endOf with | some l => Nat.blt d.x l | none => true) with
    | [] => s
    | d0 :: ds0 =>
      let ds := d0 :: ds0
      let d := ds0.foldl Late.least d0
      if j.closing ∨ s.clk = clkHalted then s
      else if s.clk = clkRunning then
        let s0 := ds.foldl State.countLate s
        let g := s0.geom j (s.lowered j ds d)
        let s1 := (g.1.setRecovery g.2 1).showRecovery g.2
        let s2 := (ds.filter (fun d => d.typ == 3)).foldl (fun s d => match d.plane with | some q => s.cancelPlane j q d.x | none => s) s1
        s2.postStop d g.2
      else
        match j.recovery with
        | none => s
        | some r0 =>
          let r : Recovery := if j.started then r0 else { r0 with typ := d.typ, plane := d.plane }
          let s0 := ds.foldl State.countLate s
          if s.clk = clkLocking then (((s0.setRecovery r 2).setClk clkStopped).webPark r.xb).postStop d r
          else s0.postStop d r

/-- One detection. -/
def State.lateData (s : State) (typ : Nat) (plane : Option Nat) (x band port slot : Nat) : State :=
  s.lateAll [{ typ := typ, plane := plane, x := x, band := band, port := port, slot := slot }]

/-- End the job at S without a resume (R138, R142): pages wholly after S are ABORTED, the page that holds S is defective. -/
def State.recoveryAbort (s : State) (reason : Nat) : State :=
  match s.press.job with
  | none => s
  | some j =>
    match j.recovery with
    | none => s
    | some r =>
      let s1 := (s.event' Ev.RECOVERY_ABORT [reason, r.s]).cause PGP_IRQ_CAUSE_RECOV_ABORT
      let j1 := (j.mapPages (fun p => p.holds r.s && p.first ≠ r.s) (fun p => p.flag pfDEFECTIVE))
      let s2 := (s1.setJob { j1 with endReason := some (j1.endReason.getD 5), endLine := some r.s, closing := true, recovery := none })
      let s3 := ((s2.put PGP_SCHED_STATUS_JOB_STATE jsEnding).put PGP_SCHED_STATUS_RECOV_PHASE 0)
      let s4 := (if s3.clk = clkLocking then s3.setClk clkStopped else s3).webDecel
      (((j1.pages.filter (fun p => Nat.blt p.first r.s && p.committed && !p.retired && p.waitMirror.isNone)).foldl
        (fun s p => s.retirePage p false) s4).abortPages (fun p => Nat.ble r.s p.first || !p.committed)).putB PGP_IRQ_CAUSE_WAIT_DATA false

/-- Step 3 of R139: at the tick of X_d the clock goes to STOPPED, the geometry is computed again, R138 is checked and the
web is re-planned to X_b. -/
def State.recoveryClockStop (s : State) : State :=
  match s.press.job with
  | none => s
  | some j =>
    match j.recovery with
    | none => s
    | some r =>
      let s0 := s.setClk clkStopped
      let (s1, r1) := s0.geom j r
      let ended := match j.endOf with | some l => decide (l ≤ r1.lRes) | none => false
      if ended then (s1.setJob { j with recovery := some r1 }).printOver.webDecel
      else if 65536 * (s.get PGP_BACKUP_MAX_LINES : Int) < r1.b then (s1.setJob { j with recovery := some r1 }).recoveryAbort 1
      else (((s1.setJob { j with recovery := some { r1 with phase := 2 } }).webPark r1.xb).put
        PGP_SCHED_STATUS_RECOV_PHASE 2).putB PGP_CLK_STATUS_APPLY_PEND false

/-- The first line of the page after the one plane 0 is in, not before any line already handed over: S of a planned stop
(R56, R132). -/
def Job.plannedLine (j : Job) : Nat :=
  let u := j.nextTake.foldl max j.line
  match (j.pages.filter (fun p => p.committed && Nat.ble u p.first && Nat.blt 0 p.first)).map (·.first) with
  | [] => max u j.committedEnd
  | x :: xs => xs.foldl min x

/-- Request a planned stop at plane 0's next page boundary (R56, R231, R290): none while a recovery is under way or when the job ends
there. -/
def State.plannedStop (s : State) : State :=
  match s.press.job with
  | none => s
  | some j =>
    if j.recovery.isSome ∨ j.closing ∨ s.clk ≠ clkRunning then s
    else s.lateData 0 none j.plannedLine 0xFF 0xFF 0xFF

end Sys2Proof.Machine
end

