-- ==== Sys2Proof/Machine/Operands.lean ====
section
/-!
DEFINITION. Operand forms: descriptor layouts and their reserved fields (R79, R80, R89, R108, R169, R347), and the forms of
an access to a register or a doorbell (R8, R70).
-/
namespace Sys2Proof.Machine

/-- The mask of bytes `a` to `b` of a descriptor. -/
def byteMask (a b : Nat) : Nat := (2 ^ (8 * (b + 1 - a)) - 1) * 2 ^ (8 * a)

/-- The mask of bits [hi:lo] of descriptor byte `a`. -/
def bitMask (a hi lo : Nat) : Nat := (2 ^ (hi + 1 - lo) - 1) * 2 ^ (8 * a + lo)

/-- The reserved bits of a descriptor on a ring, by its opcode; none when the ring does not define the opcode. -/
def reservedMask (r : RingId) (op : Nat) : Option Nat :=
  match op with
  | 0x00 => some (bitMask 1 5 0 + byteMask 4 63)
  | 0x01 => some (bitMask 1 5 0 + byteMask 5 5 + byteMask 8 63)
  | _ =>
    match r with
    | .job _ =>
      match op with
      | 0x10 => some (bitMask 1 5 0 + bitMask 8 7 2 + byteMask 9 11 + byteMask 16 63)
      | 0x11 => some (bitMask 1 1 0 + bitMask 6 7 4 + byteMask 7 7 + byteMask 21 23 + byteMask 32 63)
      | 0x12 => some (bitMask 1 5 0 + byteMask 4 63)
      | _ => none
    | .cmx =>
      if op = 0x10 ∨ op = 0x11 then some (bitMask 1 2 0 + bitMask 4 7 3 + byteMask 38 39 + byteMask 60 63) else none
    | .cam =>
      match op with
      | 0x10 => some (bitMask 1 5 0 + byteMask 5 5 + byteMask 20 55 + byteMask 60 63)
      | 0x11 => some (bitMask 1 4 0 + bitMask 5 7 3 + byteMask 20 55 + byteMask 60 63)
      | _ => none
    | .mbxIn => if 0x10 ≤ op then some 0 else none
    | _ => none

/-- The first byte of a descriptor in which a mask finds a bit set. -/
def firstBadByte (d : DescBits) (mask : Nat) : Option Nat :=
  (List.range 64).find? (fun i => (dfield d i 1) &&& (mask / 2 ^ (8 * i) % 256) ≠ 0)

/-- What R80 finds wrong in a descriptor: the status and the byte offset of the first bad field. -/
def descBad (r : RingId) (d : DescBits) : Option (Nat × Nat) :=
  match reservedMask r (dfield d 0 1) with
  | none => some (stBAD_OPCODE, 0)
  | some m => (firstBadByte d m).map (fun i => (stBAD_FIELD, i))

/-- The code an ABORTED descriptor completes with, its entry type, and whether its engine posts it whatever NOTIFY says
(R73, R147, R182). -/
def abortCode (n op : Nat) : Nat × Nat × Bool :=
  if op = 0 then (Ev.NOP_DONE, 2, false)
  else if op = 1 then (Ev.FENCE_DONE, 3, false)
  else if n < 4 then
    (if op = 0x11 then (Ev.PAGE_RETIRED, 2, true) else if op = 0x10 then (Ev.JOB_STARTED, 2, false) else (Ev.JOB_ENDED, 2, false))
  else if n = 4 then (Ev.CMX_DONE, 2, true)
  else if n = 5 then (if op = 0x10 then (Ev.FRAME_BUF_DONE, 2, false) else (Ev.CAPTURE_DONE, 2, false))
  else (Ev.MBX_DONE, 2, false)

/-- The payload of an ABORTED descriptor. -/
def abortPayload (n : Nat) (d : DescBits) : List Nat :=
  let op := dfield d 0 1
  if op = 0 then []
  else if op = 1 then [dfield d 4 1, dfield d 6 2]
  else if n < 4 then
    (if op = 0x11 then
      (leBytes 4 (dfield d 8 4) ++ leBytes 4 (dfield d 12 4) ++ leBytes 5 (dfield d 16 5) ++ leBytes 19 0).map BitVec.toNat
     else if op = 0x10 then [dfield d 4 4, 0] else [0, 0, 0, 0, 0, 0, 0])
  else if n = 4 then (leBytes 24 0 ++ leBytes 4 (dfield d 56 4) ++ leBytes 4 0).map BitVec.toNat
  else if n = 5 then (if op = 0x10 then [0, 0, dfield d 56 4] else [0, dfield d 56 4])
  else [0]

/-- Complete ABORTED a PAGE that its open job never printed nor fetched: in ring order, behind the job's other pages (R86, R564). -/
def State.pageAborted (s : State) (n : Nat) (d : OpenDesc) : State :=
  (s.updJob (fun j => { j with pages := j.pages ++ [{ newPage d.seq d.bits 0 with
    lines := 0, reads := [], retired := true, due := some ⟨Ev.PAGE_RETIRED, stABORTED, abortPayload n d.bits⟩ }] })).postPages

/-- Complete ABORTED every descriptor of a ring whose engine has not started it (R73). The pages that the open job of the ring has taken
complete with the job: those it prints after a link loss retire, the others were aborted when its end was set (R102, R114). -/
def State.abortUnstarted (s : State) (n : Nat) : State :=
  ((s.ring n).opens.filter (fun d => !d.started && !d.done && !d.stale)).foldl (fun s d =>
    if d.op == 0x11 && (match s.press.job with | some j => j.ring == n | none => false) then (if d.taken then s else s.pageAborted n d)
    else s.complete n d.seq (abortCode n d.op).2.1 (abortCode n d.op).1 stABORTED 0xFFFF (abortPayload n d.bits)
      (abortCode n d.op).2.2) s

/-- A JOB ring leaves ON (R114, R564, R565): its job ends at plane 0's next page boundary, or closes at once when its
printing had ended and it waits for its JOB_END. -/
def State.jobRingLeft (s : State) (n : Nat) : State :=
  match s.press.job with
  | none => s
  | some j => if j.ring = n ∧ n < 4 then ((s.endJobAtBoundary 2).updJob (fun j => { j with ringLeft := true })) else s

/-- A ring leaves ON (R73, R93, R114): unstarted descriptors complete ABORTED, a fence's wait ends. -/
def State.ringLeaveOn (s : State) (n : Nat) : State :=
  let s1 := (s.jobRingLeft n).abortUnstarted n
  ((s1.setRing n { s1.ring n with fence := none, heldDb := none }).putB (HIF_RING_STATUS_FENCE_WAIT n) false).wbDue n

/-! ### Forms of an access -/

/-- The bytes of a register that a narrow read returns (R8). -/
def narrowRead (v : Word) (off : Nat) (w : AccWidth) : BitVec 64 :=
  match w with
  | .w8 => BitVec.ofNat 64 (v.toNat / 2 ^ (8 * (off % 4)) % 256)
  | .w16 => BitVec.ofNat 64 (v.toNat / 2 ^ (8 * (off % 4)) % 65536)
  | _ => BitVec.ofNat 64 v.toNat

/-- Does a doorbell write have any effect (R70 and the doorbell page): 32 bits, at offset 0x000, bits [31:16] 0? -/
def doorbellOk (off : Nat) (w : AccWidth) (v : BitVec 64) : Bool :=
  off == 0 && (match w with | .w32 => true | _ => false) && Nat.blt (v.toNat % 2 ^ 32) 65536

end Sys2Proof.Machine
end

