-- ==== Sys2Proof/Machine/Hif.lean ====
section
/-!
DEFINITION. The host interface (03_rings_and_doorbells.md): doorbells, descriptors, fences, EVT and MBX_OUT, the MSI, the
mailbox, link loss and the resets of the host island.
-/
namespace Sys2Proof.Machine

/-- What exec answers. -/
abbrev Out := Host.Outcome State Fault Refusal

/-! ### Doorbells (R70, R74) -/

/-- Post DOORBELL_INVALID (R70). -/
def State.doorbellInvalid (s : State) (n v : Nat) : State :=
  (s.event' Ev.DOORBELL_INVALID [n, v]).cause HIF_IRQ_CAUSE_DOORBELL_INVALID

/-- Apply a doorbell index to a ring that is ON (R70, R71, R74). -/
def State.applyDoorbell (s : State) (n v : Nat) : State :=
  if s.ringSize n ≤ v then s.doorbellInvalid n v
  else if n < 8 then s.setRing n { s.ring n with tail := v, stalled := false }
  else
    let k := (v + s.ringSize n - (s.ring n).tail) % s.ringSize n
    if (s.ring n).unread < k then s.doorbellInvalid n v
    else
      let s1 := s.setRing n { s.ring n with tail := v, unread := (s.ring n).unread - k }
      if n = 8 then { s1 with hif := { s1.hif with evtUnread := s1.hif.evtUnread.drop k } } else s1

/-- A doorbell write to a ring by its state: ON applies it, STARTING holds it, any other state ignores it (R70). -/
def State.doorbell (s : State) (r : RingId) (v : Nat) : State :=
  match s.ust (.ring r) with
  | .on => s.applyDoorbell r.num v
  | .starting => s.setRing r.num { s.ring r.num with heldDb := some v }
  | _ => s

/-- The ring of a doorbell page (ring table); pages 7 and 10 to 15 have none. -/
def ringOfPage (p : Nat) : Option RingId :=
  match p with
  | 0 => some (.job 0)
  | 1 => some (.job 1)
  | 2 => some (.job 2)
  | 3 => some (.job 3)
  | 4 => some .cmx
  | 5 => some .cam
  | 6 => some .mbxIn
  | 8 => some .evt
  | 9 => some .mbxOut
  | _ => none

def execDoorbellWrite (page : Fin 16) (off : Fin 4096) (w : AccWidth) (v : BitVec 64) (s : State) : Out :=
  finish (match ringOfPage page with
    | some r => if s.islandRuns 1 ∧ doorbellOk off w v then s.doorbell r (v.toNat % 65536) else s
    | none => s)

def execEvtDoorbellWrite (r : RingId) (off : Fin 4096) (w : AccWidth) (v : BitVec 64) (s : State) : Out :=
  finish (if s.islandRuns 1 ∧ doorbellOk off w v then s.doorbell r (v.toNat % 65536) else s)

/-! ### Ring faults and descriptors -/

/-- A ring enters FAULT (R67, R72, R81, R18); while it stops the fault is only recorded (R16). -/
def State.ringFault (s : State) (r : RingId) (reason found : Nat) (p : List Nat) : State :=
  let n := r.num
  let s0 := (s.put (HIF_RING_ERR_REASON n) reason).put (HIF_RING_ERR_SEQ n) found
  match s.ust (.ring r) with
  | .starting | .on =>
    (((((s0.setUst (.ring r) .fault).setPend (.ring r) false).ringLeaveOn n).event Ev.RING_FAULT n ([n, reason] ++ p)).cause
      HIF_IRQ_CAUSE_RING_FAULT)
  | .stopping => s0.recordFault (.ring r) reason
  | _ => s

/-- The descriptor enters the ring's order; a bad one completes at once (R80). -/
def State.descriptorIn (s : State) (r : RingId) (d : DescBits) : State :=
  let n := r.num
  let seq := dfield d 2 2
  let s1 := s.advanceIndex n
  let s2 := s1.setRing n { s1.ring n with
    expSeq := some ((seq + 1) % 65536),
    opens := (s1.ring n).opens ++ [{ seq := seq, bits := d, taken := false, started := false, done := false, stale := false }] }
  match descBad r d with
  | none => s2
  | some (st, at') => s2.complete n seq 2 Ev.DESC_BAD st 0xFFFF [dfield d 0 1, at'] true

/-- A descriptor read from host memory arrives (R71, R72, R80, R81): phase, sequence number, opcode and reserved fields. -/
def State.descriptorFetched (s : State) (r : RingId) (res : FetchResult) : State :=
  let n := r.num
  if ¬ (r.isH2D ∧ s.ust (.ring r) = .on ∧ s.hif.linkUp ∧ s.get (HIF_RING_STATUS_INDEX n) ≠ (s.ring n).tail ∧
        ¬ (s.ring n).stalled ∧ (s.ring n).fence = none) then s
  else
    match res with
    | .failed st =>
      ((s.event Ev.DMA_ERROR n [n, s.get (HIF_RING_STATUS_INDEX n), st]).cause HIF_IRQ_CAUSE_DMA_ERROR).ringFault r 2 0 [0, 0]
    | .ok d =>
      if bit (dfield d 1 1) 7 ≠ s.on (HIF_RING_STATUS_PHASE n) then
        ((s.setRing n { s.ring n with stalled := true }).event Ev.PHASE_MISMATCH n
          [n, s.get (HIF_RING_STATUS_INDEX n)]).cause HIF_IRQ_CAUSE_PHASE_MISMATCH
      else
        let seq := dfield d 2 2
        match (s.ring n).expSeq with
        | some e =>
          if seq ≠ e then s.ringFault r 3 seq [e, seq]
          else s.descriptorIn r d
        | none => s.descriptorIn r d
def execDescriptorFetched (r : RingId) (res : FetchResult) (s : State) : Out := finish (s.descriptorFetched r res)

def execNop (r : RingId) (s : State) : Out :=
  finish (match s.head r.num with
    | some d => if d.op = 0 then s.complete r.num d.seq 2 Ev.NOP_DONE stOK 0xFFFF [] false else s
    | none => s)

/-! ### Fences (R89 to R93) -/

/-- The ring a fence names, when the ID is used. -/
def fenceTarget (d : DescBits) : Option RingId := if 6 < dfield d 4 1 then none else ringOfPage (dfield d 4 1)

/-- Does a fence's condition hold (R89)? -/
def State.fenceHolds (s : State) (t seq : Nat) : Bool :=
  s.on (HIF_RING_DONE_VALID t) && Nat.blt ((s.get (HIF_RING_DONE_DONE_SEQ t) + 65536 - seq) % 65536) 32768

/-- Does a fence name no ring it may wait on (R90)? -/
def State.fenceBad (s : State) (n : Nat) (d : OpenDesc) : Bool :=
  match fenceTarget d.bits with
  | none => true
  | some t => s.ust (.ring t) != .on || (t.num == n && Nat.blt ((dfield d.bits 6 2 + 65536 - d.seq) % 65536) 32768)

/-- Complete a fence (R92). -/
def State.fenceDone (s : State) (n : Nat) (d : OpenDesc) (status : Nat) : State :=
  s.complete n d.seq 3 Ev.FENCE_DONE status 0xFFFF [dfield d.bits 4 1, dfield d.bits 6 2] false

def execFence (r : RingId) (s : State) : Out :=
  finish (match s.head r.num with
    | some d =>
      if d.op ≠ 1 then s
      else if s.fenceBad r.num d then s.fenceDone r.num d stBAD_TARGET
      else if s.fenceHolds (dfield d.bits 4 1) (dfield d.bits 6 2) then s.fenceDone r.num d stOK
      else
        ((s.take r.num d.seq).setRing r.num { (s.take r.num d.seq).ring r.num with fence := some d.seq, fenceReported := false }).putB
          (HIF_RING_STATUS_FENCE_WAIT r.num) true |>.wbDue r.num
    | none => s)

/-- The blocked fence of a ring. -/
def State.blockedFence (s : State) (n : Nat) : Option OpenDesc :=
  match (s.ring n).fence with
  | none => none
  | some q => s.desc n q

def execFenceRelease (r : RingId) (s : State) : Out :=
  finish (match s.blockedFence r.num with
    | some d =>
      if s.fenceHolds (dfield d.bits 4 1) (dfield d.bits 6 2) then
        (((s.setRing r.num { s.ring r.num with fence := none }).putB (HIF_RING_STATUS_FENCE_WAIT r.num) false).wbDue r.num).fenceDone
          r.num d stOK
      else s
    | none => s)

def execFenceStall (r : RingId) (s : State) : Out :=
  finish (match s.blockedFence r.num with
    | some d =>
      if (s.ring r.num).fenceReported ∨ s.get HIF_FENCE_TIMEOUT_TIME = 0 then s
      else
        ((s.setRing r.num { s.ring r.num with fenceReported := true }).event Ev.FENCE_STALL r.num
          [r.num, d.seq, dfield d.bits 4 1, dfield d.bits 6 2, s.get (HIF_RING_DONE_DONE_SEQ (dfield d.bits 4 1))]).cause
          HIF_IRQ_CAUSE_FENCE_STALL
    | none => s)

/-! ### EVT, write-back, MSI -/

def execEvtQueueDrain (s : State) : Out := finish (s.evtDrain 257)

def execWriteBackRecord (r : RingId) (s : State) : Out :=
  finish (if (s.ring r.num).wbDue ∧ s.hif.linkUp ∧ s.islandRuns 1 then s.writeBack r.num else s)

/-- Write every write-back record that is due (R94). -/
def State.writeBackAll (s : State) : State :=
  if s.hif.linkUp then
    [0, 1, 2, 3, 4, 5, 6, 8, 9].foldl (fun s n => if (s.ring n).wbDue then s.writeBack n else s) s
  else s

/-- The coalescing time has run out (R94, R98, R99): the MSI is sent and disarms, or INTA is asserted when MSI is disabled. -/
def State.msiFire (s : State) : State :=
  if ¬ (s.irqCond ∧ s.islandRuns 1) then s
  else if s.hif.cfg.msiEnable then
    if s.on HIF_MSI_CTRL_ARMED ∧ ¬ s.hif.cfg.msiMask ∧ s.hif.linkUp then
      let s1 := (s.writeBackAll).putB HIF_MSI_CTRL_ARMED false
      { s1 with hif := { s1.hif with msiSent := s1.hif.msiSent + 1 } }
    else s
  else if s.hif.cfg.intxDisable then s
  else { s with hif := { s.hif with inta := true } }

def execMsiCoalTimerExpired (cfg : PcieIrqCfg) (s : State) : Out :=
  finish ({ s with hif := { s.hif with cfg := cfg, inta := s.hif.inta && !cfg.msiEnable && !cfg.intxDisable } }).msiFire

/-- Re-arm the MSI; when the condition is true the coalescing time starts afresh (R98). -/
def State.rearm (s : State) : State :=
  let s1 := s.putB HIF_MSI_CTRL_ARMED true
  { s1 with hif := { s1.hif with coalSince := none } }

def execRearm (req : Fin 6) (s : State) : Out :=
  finish (s.reqWrite req (HIF_MSI_CTRL) (fun s => s.rearm))

/-- Write COAL_US; a value above 1,000 stores 1,000, and a timer that has run for the new value expires at once (R98). -/
def State.setCoalUs (s : State) (us : Nat) : State :=
  let s1 := s.put HIF_MSI_CTRL_COAL_US (min us 1000)
  match s.hif.coalSince with
  | some t => if t + 250 * min us 1000 ≤ s.time.cyc ∧ s.irqCond ∧ s.on HIF_MSI_CTRL_ARMED then s1.msiFire else s1
  | none => s1

/-- A write of HIF_MSI_CTRL: COAL_US, then REARM (R98). -/
def State.msiCtrlWrite (s : State) (v : Word) : State :=
  let s1 := s.setCoalUs (bits v.toNat 9 0)
  if bit v.toNat 16 then s1.rearm else s1

def execCoalUsWrite (req : Fin 6) (v : Word) (s : State) : Out :=
  finish (s.reqWrite req (HIF_MSI_CTRL) (fun s => s.msiCtrlWrite v))

/-! ### Mailbox (R76, R100, R101) -/

def execMbxInDescriptor (s : State) : Out :=
  finish (match s.head 6 with
    | some d => if 0x10 ≤ d.op then s.startDesc 6 d.seq else s
    | none => s)

def execMbxDone (seq : BitVec 16) (result : Word) (s : State) : Out :=
  finish (match s.desc 6 seq.toNat with
    | some d => if d.started then s.complete 6 seq.toNat 2 Ev.MBX_DONE stOK 0xFFFF [result.toNat] false else s
    | none => s)

/-- Can the part write an MBX_OUT entry now (R74)? -/
def State.mbxRoom (s : State) : Bool :=
  s.ust (.ring .mbxOut) == .on && s.hif.linkUp && (s.ring 9).unread + 1 < s.ringSize 9

/-- Write one MBX_OUT entry: byte 1 is PHASE, bytes 2 and 3 the entry count (R101). -/
def State.mbxWrite (s : State) (e : DescBits) : State :=
  let b := [BitVec.ofNat 8 (dfield e 0 1), BitVec.ofNat 8 (128 * b2n (s.on (HIF_RING_STATUS_PHASE 9)))] ++
    leBytes 2 ((s.ring 9).written % 65536) ++ leBytes 60 (dfield e 4 60)
  let s1 : State := { s with hostMem := Mem.writes s.hostMem (s.ringBase 9 + 64 * s.get (HIF_RING_STATUS_INDEX 9)) b }
  ((s1.setRing 9 { s1.ring 9 with written := (s1.ring 9).written + 1, unread := (s1.ring 9).unread + 1 }).advanceIndex 9).cause
    HIF_IRQ_CAUSE_MBX_OUT

/-- Write waiting MBX_OUT posts while there is room (R76). -/
def State.mbxDrain (s : State) : Nat → State
  | 0 => s
  | n + 1 =>
    match s.hif.mbxWait with
    | [] => s
    | e :: r => if s.mbxRoom then State.mbxDrain (({ s with hif := { s.hif with mbxWait := r } }).mbxWrite e) n else s

def execMbxOutPost (e : DescBits) (s : State) : Out :=
  finish (if s.mbxRoom ∧ s.hif.mbxWait = [] then s.mbxWrite e
    else { s with hif := { s.hif with mbxWait := s.hif.mbxWait ++ [e] } })

def execMbxOutSpaceFree (s : State) : Out := finish (s.mbxDrain s.hif.mbxWait.length)

/-! ### Link loss and the resets of the host island (R102 to R105) -/

/-- All rings. -/
def allRings : List RingId := [.job 0, .job 1, .job 2, .job 3, .cmx, .cam, .mbxIn, .evt, .mbxOut]

/-- Park one ring (R102): unstarted descriptors are aborted, PARKED is set, the ring passes to OFF and its ENABLE clears. -/
def State.parkRing (s : State) (r : RingId) : State :=
  let n := r.num
  let s1 := (s.setRing n { s.ring n with fence := none, heldDb := none }).abortUnstarted n
  (((((s1.putB (HIF_RING_STATUS_PARKED n) true).setUst (.ring r) .off).setPend (.ring r) false).putB
    (HIF_RING_CFG_ENABLE n) false).putB (HIF_RING_STATUS_FENCE_WAIT n) false).dropFault (.ring r)

/-- The data link goes down (R102). Entries that wait in the internal queue can no longer be written and are counted. -/
def State.linkDown (s : State) : State :=
  if ¬ s.hif.linkUp then s
  else
    let s0 := (({ s with hif := { s.hif with linkUp := false, evtQueue := [] } }).addSat HIF_LINK_STATUS_DOWN_COUNT 1).addSat
      HIF_EVT_LOST_COUNT s.hif.evtQueue.length
    let s1 := (s0.endJobAtCommitted 4).updJob (fun j => { j with ringLeft := true })
    allRings.foldl (fun s r => s.parkRing r) s1

def execPcieLinkDown (s : State) : Out := finish (if s.islandRuns 1 then s.linkDown else s)

/-- Does a register of the host interface survive a reset of the host island alone: HIF_RING_DONE (R104), and the link's own
status, whose DOWN_COUNT counts since power-on? -/
def hifKept (a : Nat) : Bool :=
  (Nat.blt a 0x30280 && a % 0x40 == 0x18) || a == HIF_LINK_STATUS

/-- Drop the values of a range of registers: they read their reset values. -/
def RegFile.drop (r : RegFile) (t : Nat → Bool) : RegFile := r.filter (fun e => !t e.1)

/-- Reset the host island alone (R103, R104, R561): HIF registers, rings, MSI state and event queues; HIF_RING_DONE stays, and
descriptors fetched before stay open without entries. -/
def State.hostReset (s : State) (reason : Nat) : State :=
  let rep : HostReport :=
    { reason := reason, doneSeq := (List.range 4).map (fun k => s.get (HIF_RING_DONE_DONE_SEQ k)),
      evtLost := s.get HIF_EVT_LOST_COUNT, line := s.time.line,
      hadJob := s.press.job.isSome || s.hif.heldJobEnded.isSome, lostJob := false }
  let s1 : State := { s with
    regs := s.regs.drop (fun a => (blockOf a == 3 && !hifKept a) || a == GLB_IRQ_EN)
    read := { s.read with latch := s.read.latch.filter (fun e => blockOf e.2.1 != 3) }
    unitFaults := s.unitFaults.filter (fun e => match e.1 with | .ring _ => false | _ => true)
    press := { s.press with job := s.press.job.map (fun j => { j with hostLost := true }) }
    hif := { s.hif with
      rings := s.hif.rings.map (fun r => { Ring.reset with
        opens := r.opens.map (fun d => { d with stale := true, done := d.done || !d.started }) })
      evtQueue := [], evtUnread := [], evtNext := 0, lostFlag := false, lostRun := false, report := some rep,
      coalSince := none, inta := false, mbxWait := [] } }
  (List.range 7).foldl (fun s n => s.watermark n) s1

/-- An FLR and the resets that act as one (R104): the job ends at plane 0's next page boundary. -/
def State.flr (s : State) (reason : Nat) : State := (s.endJobAtBoundary 3).hostReset reason

def execPcieLinkUp (speed width : Fin 16) (s : State) : Out :=
  finish (if s.hif.linkUp then (s.put HIF_LINK_STATUS_SPEED speed).put HIF_LINK_STATUS_WIDTH width
    else
      let s1 := (s.hostReset 1).put HIF_LINK_STATUS_SPEED speed |>.put HIF_LINK_STATUS_WIDTH width
      { s1 with hif := { s1.hif with linkUp := true } })

def execFlr (s : State) : Out := finish ((s.noteSource 5).flr 2)

def execHotReset (s : State) : Out := finish ((s.noteSource 4).flr 3)

end Sys2Proof.Machine
end

