-- ==== Sys2Proof/Machine/Dram.lean ====
section
/-!
DEFINITION. The memory controller (15_ddr5_memory.md): address mapping, the Reed-Solomon code, poison, the row-disturb guard,
refresh, scrub, bring-up and the training helpers; and the BAR4 window (R65).
-/
namespace Sys2Proof.Machine

/-! ### GF(2^8) and the code of R448 -/

/-- Multiply by x in GF(2^8) with x^8 + x^4 + x^3 + x^2 + 1. -/
def gfX (a : Nat) : Nat := if a < 128 then 2 * a else ((2 * a) ^^^ 0x11D) % 256

/-- Product in GF(2^8), over the lowest `n` bits of `b`. -/
def gfMulN (a b : Nat) : Nat → Nat
  | 0 => 0
  | n + 1 => (if bit b 0 then a else 0) ^^^ gfMulN (gfX a) (b / 2) n

/-- Product in GF(2^8). -/
def gfMul (a b : Nat) : Nat := gfMulN a b 8

/-- alpha to a power. -/
def gfPow : Nat → Nat
  | 0 => 1
  | n + 1 => gfX (gfPow n)

/-- Inverse in GF(2^8): a^254. -/
def gfInv (a : Nat) : Nat :=
  let a2 := gfMul a a
  let a4 := gfMul a2 a2
  let a8 := gfMul a4 a4
  let a16 := gfMul a8 a8
  let a32 := gfMul a16 a16
  let a64 := gfMul a32 a32
  let a128 := gfMul a64 a64
  gfMul a128 (gfMul a64 (gfMul a32 (gfMul a16 (gfMul a8 (gfMul a4 a2)))))

/-- g(x) without its leading 1, from x^3 down: (x + 1)(x + α)(x + α²)(x + α³). -/
def rsGen : List Nat := [0x0F, 0x36, 0x78, 0x40]

/-- One step of the division of m(x) x^4 by g(x): the remainder from x^3 down. -/
def rsStep (r : List Nat) (m : Nat) : List Nat :=
  let f := r.headD 0 ^^^ m
  List.zipWith (fun a g => a ^^^ gfMul f g) (r.drop 1 ++ [0]) rsGen

/-- The four check symbols of sixteen data symbols (R448). -/
def rsCheck (m : List Nat) : List Nat := m.foldl rsStep [0, 0, 0, 0]

/-- Syndrome `j` of a codeword: its value at α^j; symbol k is the coefficient of x^(19 - k). -/
def rsSyndrome (c : List Nat) (j : Nat) : Nat := c.foldl (fun a s => gfMul a (gfPow j) ^^^ s) 0

/-- The four syndromes. -/
def rsSyndromes (c : List Nat) : List Nat := [rsSyndrome c 0, rsSyndrome c 1, rsSyndrome c 2, rsSyndrome c 3]

/-- Is `e` at symbol k the error that gives these syndromes? -/
def rsOne (s : List Nat) (k : Nat) : Bool :=
  let x := gfPow (19 - k)
  let e := s.getD 0 0
  e != 0 && s == [e, gfMul e x, gfMul e (gfMul x x), gfMul e (gfMul x (gfMul x x))]

/-- The errors at symbols j and k that give these syndromes, when two non-zero ones do. -/
def rsTwo (s : List Nat) (j k : Nat) : Option (Nat × Nat) :=
  let x := gfPow (19 - j)
  let y := gfPow (19 - k)
  let ej := gfMul (s.getD 1 0 ^^^ gfMul (s.getD 0 0) y) (gfInv (x ^^^ y))
  let ek := s.getD 0 0 ^^^ ej
  let p (n : Nat) (a : Nat) : Nat := if n = 2 then gfMul a a else gfMul a (gfMul a a)
  if ej ≠ 0 ∧ ek ≠ 0 ∧ gfMul ej (p 2 x) ^^^ gfMul ek (p 2 y) = s.getD 2 0 ∧
     gfMul ej (p 3 x) ^^^ gfMul ek (p 3 y) = s.getD 3 0 then some (ej, ek) else none

/-- What the decoder finds in a codeword (R449): the symbols to correct, or none when it is uncorrectable. -/
def rsErrors (c : List Nat) : Option (List (Nat × Nat)) :=
  let s := rsSyndromes c
  if s = [0, 0, 0, 0] then some []
  else
    match (List.range 20).find? (rsOne s) with
    | some k => some [(k, s.getD 0 0)]
    | none =>
      (List.range 20).findSome? (fun j => (List.range j).findSome? (fun k =>
        (rsTwo s j k).map (fun e => [(j, e.1), (k, e.2)])))

/-- The symbols of codeword `i` of a stored block (R447); the poison mark is its check symbols XOR 0xFF (R451). -/
def codeword (blk : List Byte) (i : Nat) (mark : Bool) : List Nat :=
  let m := (slice blk (16 * i) 16).map BitVec.toNat
  m ++ (rsCheck m).map (fun c => if mark then c ^^^ 0xFF else c)

/-- The syndromes of the poison mark. -/
def markSyndromes : List Nat := rsSyndromes (List.replicate 16 0 ++ [0xFF, 0xFF, 0xFF, 0xFF])

/-- Codeword `i` as it arrives, with the symbols in error. -/
def arrives (blk : List Byte) (i : Nat) (mark : Bool) (errs : List SymErr) : List Nat :=
  errs.foldl (fun c e => if e.cw.val = i then c.set e.k.val ((c.getD e.k.val 0) ^^^ e.diff.toNat) else c) (codeword blk i mark)

/-- The device that delivers symbol k (R447). -/
def symDevice (k : Nat) : Nat := if k < 8 then k else if k < 16 then k - 8 else if k % 2 = 0 then 8 else 9

/-- A block read through the decoder (R449 to R451): its bytes, poisoned or not, the mask of uncorrectable codewords, whether
the poison mark was found, and the devices whose symbols were corrected. -/
structure EccRead where
  data : List Byte
  poisoned : Bool
  cw : Nat
  mark : Bool
  devices : List Nat
  deriving DecidableEq, Repr

/-- Decode a block. -/
def eccDecode (blk : List Byte) (mark : Bool) (errs : List SymErr) : EccRead :=
  let cs := (List.range 4).map (fun i => arrives blk i mark errs)
  let raw := (cs.map (fun c => (c.take 16).map (BitVec.ofNat 8))).flatten
  if cs.all (fun c => rsSyndromes c == markSyndromes) then
    { data := raw, poisoned := true, cw := 0xF, mark := true, devices := [] }
  else
    let es := cs.map rsErrors
    let bad := (List.range 4).foldl (fun a i => if (es.getD i none).isNone then a + 2 ^ i else a) 0
    if bad ≠ 0 then { data := raw, poisoned := true, cw := bad, mark := false, devices := [] }
    else
      { data := ((List.range 4).map (fun i =>
          (((es.getD i none).getD []).foldl (fun c e => c.set e.1 (c.getD e.1 0 ^^^ e.2)) (cs.getD i [])).take 16 |>.map
            (BitVec.ofNat 8))).flatten,
        poisoned := false, cw := 0, mark := false,
        devices := (List.range 10).filter (fun d => es.any (fun o => (o.getD []).any (fun e => symDevice e.1 == d))) }

/-! ### Addresses (R438, R441) -/

/-- The configuration in force: as sampled at INIT, else as written. -/
def State.dmcCfg (s : State) : Nat := (s.dmc.cfg.getD (s.rget DMC_CFG)).toNat

/-- Two channels, two ranks, 16 Gb devices (R438). -/
def cfgCh2 (c : Nat) : Bool := bit c 0
def cfgRanks2 (c : Nat) : Bool := bit c 1
def cfgD16 (c : Nat) : Bool := bit c 2
def cfgRate (c : Nat) : Nat := bits c 4 3

/-- Capacity in GiB of a configuration (R438). -/
def cfgGiB (c : Nat) : Nat :=
  16 * (if cfgCh2 c then 2 else 1) * (if cfgRanks2 c then 2 else 1) * (if cfgD16 c then 2 else 1)

/-- Is a configuration one of R438's, with a data rate of R439? -/
def cfgValid (c : Nat) : Bool := cfgGiB c != 128 && cfgRate c != 3

/-- Installed DRAM in bytes: 0 until READY (R457). -/
def State.dramSize (s : State) : Nat := s.get DMC_STATUS_SIZE * 2 ^ 30

/-- DRAM coordinates of a byte address (R441): rank, channel, subchannel, bank group, bank, row. -/
structure DramCoord where
  rank : Nat
  ch : Nat
  sc : Nat
  bg : Nat
  ba : Nat
  row : Nat
  col : Nat
  deriving DecidableEq, Repr

/-- The address mapping of R441. -/
def dramCoord (c a : Nat) : DramCoord :=
  let chw := b2n (cfgCh2 c)
  let baw := if cfgD16 c then 2 else 1
  let row := a / 2 ^ (17 + chw + baw) % 65536
  { rank := if cfgRanks2 c then a / 2 ^ (33 + chw + baw) % 2 else 0
    ch := if cfgCh2 c then a / 2 ^ 7 % 2 else 0
    sc := a / 2 ^ 6 % 2
    bg := (a / 2 ^ (7 + chw) % 8) ^^^ (row % 8)
    ba := (a / 2 ^ (17 + chw) % 2 ^ baw) ^^^ (row / 8 % 2 ^ baw)
    row := row
    col := a / 2 ^ (10 + chw) % 128 }

/-- A number for a bank of a rank and subchannel. -/
def DramCoord.bank (d : DramCoord) : Nat := ((d.rank * 4 + d.ch * 2 + d.sc) * 8 + d.bg) * 4 + d.ba

/-- 2 x channel + subchannel. -/
def DramCoord.subch (d : DramCoord) : Nat := 2 * d.ch + d.sc

/-- Is the subchannel of an address held (R458)? -/
def State.dramHeld (s : State) (a : Nat) : Bool := bit (s.get DMC_TRAIN_CTRL_HOLD) (dramCoord s.dmcCfg a).subch

/-- The addresses of the blocks that `len` bytes from `a` touch. -/
def blocksOf (a len : Nat) : List Nat :=
  if len = 0 then [] else (List.range ((a + len - 1) / 64 - a / 64 + 1)).map (fun i => 64 * (a / 64 + i))

/-- Is any block of a range on a held subchannel? -/
def State.rangeHeld (s : State) (a len : Nat) : Bool :=
  s.get DMC_TRAIN_CTRL_HOLD != 0 && (blocksOf a len).any (fun b => s.dramHeld b)

/-! ### Rows (R444, R455, R456) -/

/-- Count an activate of row `r` in a bank's table (R455). -/
def rhCount (t : List (Nat × Nat)) (r : Nat) : List (Nat × Nat) :=
  if t.any (fun e : Nat × Nat => e.1 == r) then t.map (fun e : Nat × Nat => if e.1 = r then (r, e.2 + 1) else e)
  else if t.length < 16 then t ++ [(r, 1)]
  else
    match t with
    | [] => [(r, 1)]
    | x :: xs =>
      let low := xs.foldl (fun (m : Nat × Nat) e => if e.2 < m.2 ∨ (e.2 = m.2 ∧ e.1 < m.1) then e else m) x
      t.map (fun e : Nat × Nat => if e.1 = low.1 then (r, low.2 + 1) else e)

/-- The rows the guard activates for row `r` (R456). -/
def guardRows (r : Nat) (two : Bool) : List Nat :=
  ((if 1 ≤ r then [r - 1] else []) ++ (if r + 1 ≤ 65535 then [r + 1] else [])) ++
  (if two then (if 2 ≤ r then [r - 2] else []) ++ (if r + 2 ≤ 65535 then [r + 2] else []) else [])

/-- The threshold THRESH; 0 acts as 1. -/
def State.rhThresh (s : State) : Nat := max 1 (s.get DMC_RH_CFG_THRESH)

/-- Activate the row of an access unless it is open; at THRESH the guard acts and closes the row (R444, R455, R456). -/
def State.dramAct (s : State) (a : Nat) : State :=
  let c := dramCoord s.dmcCfg a
  if s.dmc.openRows.has c.bank && s.dmc.openRows.get c.bank 0 == c.row then s
  else
    let t := rhCount (s.dmc.rh.get c.bank []) c.row
    let n := ((t.find? (fun e : Nat × Nat => e.1 == c.row)).map (·.2)).getD 0
    if s.on DMC_RH_CFG_EN ∧ s.rhThresh ≤ n then
      ({ s with dmc := { s.dmc with
          rh := s.dmc.rh.set c.bank (t.map (fun e : Nat × Nat => if e.1 = c.row then (c.row, 0) else e))
          openRows := s.dmc.openRows.del c.bank
          guard := some (c.bank, guardRows c.row (s.on DMC_RH_CFG_NEIGH2), s.on DMC_RH_CFG_RFM_EN && s.dmc.rfmSupported) } }).addSat
        DMC_RH_COUNT_COUNT 1
    else { s with dmc := { s.dmc with rh := s.dmc.rh.set c.bank t, openRows := s.dmc.openRows.set c.bank c.row } }

/-! ### Reads and writes of blocks (R449 to R453) -/

/-- Does a block carry the poison mark? -/
def State.poisoned (s : State) (b : Nat) : Bool := s.poison.contains (b / 64)

/-- Set or clear the poison mark of a block. -/
def State.setPoison (s : State) (b : Nat) (p : Bool) : State :=
  { s with poison := if p then b / 64 :: s.poison.filter (fun x => x != b / 64) else s.poison.filter (fun x => x != b / 64) }

/-- The index i of R450 for a device at an address. -/
def devIndex (c : DramCoord) (d : Nat) : Nat := 40 * c.rank + 20 * c.ch + 10 * c.sc + d

/-- Count a correction on one device (R450). -/
def State.devCe (s : State) (i : Nat) : State :=
  let s1 := s.addSat (DMC_DEV_CE_COUNT i) 1
  if max 1 (s.get DMC_DEV_THR_THR) ≤ s1.get (DMC_DEV_CE_COUNT i) ∧ i ∉ s.dmc.suspects then
    (({ s1 with dmc := { s1.dmc with suspects := i :: s1.dmc.suspects } }).event Ev.DEVICE_SUSPECT (i % 40 / 10)
      [i, s1.get (DMC_DEV_CE_COUNT i)]).cause DMC_IRQ_CAUSE_DEVICE
  else s1

/-- Latch a poisoned read and post DRAM_UE, except for the poison mark (R452). -/
def State.dramUe (s : State) (b src : Nat) (e : EccRead) : State :=
  let s0 := s.addSat DMC_UE_COUNT_COUNT 1
  let s1 := if s0.on DMC_ERR_INFO_VALID then s0
    else ((((((s0.put DMC_ERR_ADDR_LO_ADDR (b % 2 ^ 32)).put DMC_ERR_ADDR_HI_ADDR (b / 2 ^ 32)).put DMC_ERR_INFO_SRC src).put
      DMC_ERR_INFO_CW e.cw).putB DMC_ERR_INFO_MARK e.mark).putB DMC_ERR_INFO_VALID true)
  if e.mark then s1
  else (({ s1 with par := { s1.par with dramUe := true } }).event Ev.DRAM_UE (dramCoord s.dmcCfg b).subch [b, src, e.cw]).cause DMC_IRQ_CAUSE_UE

/-- Read one block for a requester: its row is activated, the decoder corrects or poisons, counters and the write-back of
R453 follow. -/
def State.readBlock (s : State) (b src : Nat) (errs : List SymErr) : State × EccRead :=
  let e := eccDecode (Mem.reads s.dram b 64) (s.poisoned b) errs
  let s1 := s.dramAct b
  if e.poisoned then (s1.dramUe b src e, e)
  else if e.devices = [] then (s1, e)
  else
    let s2 := e.devices.foldl (fun s d => s.devCe (devIndex (dramCoord s.dmcCfg b) d)) (s1.addSat DMC_CE_COUNT_COUNT 1)
    if s2.on DMC_CTRL_WB_ON_CE then
      ({ s2 with dmc := { s2.dmc with wb := s2.dmc.wb.filter (fun w => w.1 != b) ++ [(b, false)] } }, e)
    else (s2, e)

/-- A write to a block was accepted: a pending write-back of it will be dropped (R453). -/
def State.wbNewer (s : State) (b : Nat) : State :=
  { s with dmc := { s.dmc with wb := s.dmc.wb.map (fun w => if w.1 = b then (b, true) else w) } }

/-- Write part or all of one block (R451): a partial write reads and merges; a poisoned merge stores the poison mark. -/
def State.writeBlock (s : State) (b off : Nat) (data : List Byte) (errs : List SymErr) : State :=
  if data.length = 64 then
    let s1 := (s.dramAct b).wbNewer b
    ({ s1 with dram := Mem.writes s1.dram b data }).setPoison b false
  else
    let (s1, e) := s.readBlock b 9 errs
    let m := e.data.take off ++ data ++ e.data.drop (off + data.length)
    let s2 := s1.wbNewer b
    let s3 := ({ s2 with dram := Mem.writes s2.dram b m }).setPoison b e.poisoned
    if e.poisoned then s3.addSat DMC_POISON_WR_COUNT_COUNT 1 else s3

/-- Write bytes at an address, block by block in address order (R442, R451). -/
def State.dramPut (s : State) (a : Nat) (data : List Byte) (errs : List SymErr) : State :=
  (blocksOf a data.length).foldl (fun s b =>
    let lo := max a b
    let hi := min (a + data.length) (b + 64)
    s.writeBlock b (lo - b) (slice data (lo - a) (hi - lo)) errs) s

/-- Accept a write request: one to a held subchannel waits (R458); one before READY or beyond the installed DRAM reaches
nothing (R457). -/
def State.dramWrite (s : State) (a : Nat) (data : List Byte) (errs : List SymErr) : State :=
  if ¬ s.on DMC_STATUS_READY ∨ s.dramSize < a + data.length then s
  else if s.rangeHeld a data.length then { s with dmc := { s.dmc with held := s.dmc.held ++ [.write a data] } }
  else s.dramPut a data errs

/-- Read bytes for a requester, without symbol errors of their own: the bytes, and whether any block was poisoned. -/
def State.dramGet (s : State) (a len src : Nat) : State × List Byte × Bool :=
  let r := (blocksOf a len).foldl (fun (x : State × Bool) b =>
    let (s1, e) := x.1.readBlock b src []
    (s1, x.2 || e.poisoned)) (s, false)
  (r.1, Mem.reads s.dram a len, r.2)

/-! ### BAR4 (R65) -/

/-- The device DRAM address of a BAR4 offset. -/
def State.bar4Addr (s : State) (off : Nat) : Nat := s.get HIF_WIN_BASE_BASE * 2 ^ 28 + off

/-- A read through the window: zeros beyond the installed DRAM; a poisoned completion when ECC poisons the data. -/
def State.bar4Get (s : State) (a len : Nat) : State :=
  let inside := min len (s.dramSize - a)
  let r := s.dramGet a inside 3
  { r.1 with hif := { r.1.hif with bar4Data := r.2.1 ++ List.replicate (len - inside) 0, bar4Poison := r.2.2 } }

/-- Carry out a request that was held (R458). -/
def State.dramReq (s : State) (q : DramReq) : State :=
  match q with
  | .write a d => s.dramWrite a d []
  | .bar4 a n => if s.rangeHeld a (min n (s.dramSize - a)) then { s with dmc := { s.dmc with held := s.dmc.held ++ [q] } }
    else s.bar4Get a n

/-- After a write of DMC_TRAIN_CTRL, requests to subchannels no longer held go on, in order (R442, R458). -/
def State.dramRelease (s : State) : State :=
  s.dmc.held.foldl (fun s q => s.dramReq q) { s with dmc := { s.dmc with held := [] } }

def execBar4Read (addr len : Nat) (s : State) : Out :=
  finish (if s.islandRuns 1 ∧ addr + len ≤ 2 ^ 28 then s.dramReq (.bar4 (s.bar4Addr addr) len) else s)

def execBar4Write (addr : Nat) (data : List Byte) (s : State) : Out :=
  finish (if s.islandRuns 1 ∧ addr + data.length ≤ 2 ^ 28 ∧ s.on HIF_WIN_CTRL_WR_EN then
      s.dramWrite (s.bar4Addr addr) data []
    else s)

/-! ### Commands of the controller -/

def execDramWrite (addr : Nat) (data : List Byte) (errs : List SymErr) (s : State) : Out :=
  finish (s.dramWrite addr data errs)

/-- A write-back issues, or is dropped and counted when a newer write came (R453). -/
def State.eccWriteBack (s : State) (a : Nat) : State :=
  match s.dmc.wb.find? (fun w => w.1 == a) with
  | none => s
  | some w =>
    let s1 : State := { s with dmc := { s.dmc with wb := s.dmc.wb.filter (fun x => x.1 != a) } }
    if w.2 then s1.addSat DMC_WB_DROP_COUNT_COUNT 1 else s1.dramAct a

def execEccWriteBack (addr : Nat) (s : State) : Out := finish (s.eccWriteBack addr)

def execRhTableClear (s : State) : Out := finish { s with dmc := { s.dmc with rh := [] } }

/-- The number of a rank's refreshes that issue when one more becomes owed (R446). -/
def refreshIssues (owed postpone : Nat) (waiting : Bool) : Nat := if waiting then owed - postpone else owed

/-- One more refresh is owed to a rank; those issued close the rank's rows (R444, R446). -/
def State.refreshDue (s : State) (rank : Nat) (waiting : Bool) : State :=
  let owed := s.dmc.owed.getD rank 0 + 1
  let n := refreshIssues owed (s.get DMC_REF_CFG_POSTPONE) waiting
  { s with dmc := { s.dmc with
      owed := s.dmc.owed.set rank (owed - n)
      refs := s.dmc.refs.set rank (s.dmc.refs.getD rank 0 + n)
      openRows := if n = 0 then s.dmc.openRows else s.dmc.openRows.filter (fun e => e.1 / 128 != rank) } }

def execRefreshDue (rank : Fin 2) (laneWaiting : Bool) (s : State) : Out :=
  finish (if s.on DMC_STATUS_INIT_DONE ∧ (rank.val = 0 ∨ cfgRanks2 s.dmcCfg) then s.refreshDue rank laneWaiting else s)

/-- MR4 of every rank: tREFI is halved while any device reports the doubled rate (R439); DRAM_HOT when a rank begins to. -/
def State.mr4Poll (s : State) (fields : List (Nat × Bool)) : State :=
  let s1 := (List.range fields.length).foldl (fun s r =>
    if (fields.getD r (0, false)).2 ∧ ¬ s.dmc.hot.getD r false then
      (s.event' Ev.DRAM_HOT [r, (fields.getD r (0, false)).1]).cause DMC_IRQ_CAUSE_HOT
    else s) s
  ({ s1 with dmc := { s1.dmc with hot := (List.range 2).map (fun r => (fields.getD r (0, false)).2) } }).putB DMC_STATUS_HOT
    (fields.any (·.2))

def execMr4Poll (fields : List (Nat × Bool)) (s : State) : Out :=
  finish (if s.on DMC_STATUS_INIT_DONE then s.mr4Poll (fields.take 2) else s)

/-- The patrol scrub reads its next block; at the end of the DRAM a pass is complete (R454). -/
def State.patrolScrub (s : State) (errs : List SymErr) : State :=
  let blocks := s.dramSize / 64
  let s1 := (s.readBlock (64 * s.dmc.scrub) 8 errs).1
  if blocks ≤ s.dmc.scrub + 1 then
    (({ s1 with dmc := { s1.dmc with scrub := 0 } }).put DMC_SCRUB_STATUS_PASSES (s.get DMC_SCRUB_STATUS_PASSES + 1)).put
      DMC_SCRUB_STATUS_PROGRESS 0
  else ({ s1 with dmc := { s1.dmc with scrub := s.dmc.scrub + 1 } }).put DMC_SCRUB_STATUS_PROGRESS
    ((s.dmc.scrub + 1) * 65536 / blocks)

def execPatrolScrubRead (errs : List SymErr) (s : State) : Out :=
  finish (if s.on DMC_SCRUB_CFG_EN ∧ s.on DMC_STATUS_READY ∧ ¬ s.dramHeld (64 * s.dmc.scrub) then s.patrolScrub errs else s)

/-! ### Delays (R459 to R462) -/

/-- The key of a setting. -/
def dlyKey (kind sub rank lane : Nat) : Nat := ((kind * 4 + sub) * 2 + rank) * 64 + lane

/-- The reset value of a setting: 0x100 taps, or 0x40 for a Vref code. -/
def dlyReset (kind : Nat) : Nat := if kind = 4 ∨ kind = 5 then 0x40 else 0x100

/-- How many settings a kind has per subchannel and rank: 40 lanes or 10 devices (R459). -/
def dlyCount (kind : Nat) : Nat := if kind = 0 ∨ kind = 1 ∨ kind = 4 then 40 else if kind < 6 then 10 else 0

/-- A setting. -/
def State.dlyGet (s : State) (key : Nat) : DlySet :=
  s.dmc.dly.get key { target := dlyReset (key / 512), live := dlyReset (key / 512) }

/-- Change a setting. -/
def State.dlySet (s : State) (key : Nat) (d : DlySet) : State := { s with dmc := { s.dmc with dly := s.dmc.dly.set key d } }

/-- One step of a live value towards a goal. -/
def stepTowards (live goal : Int) : Int := if live < goal then live + 1 else if goal < live then live - 1 else live

/-- Every live setting moves one tap or code towards its target while an OK outcome is being adopted (R461); a write
levelling delay that drift moves follows its drifted position (R462). -/
def State.liveStep (s : State) : State :=
  let moved := s.dmc.dly.map (fun e =>
    if e.1 / 512 = 3 ∧ (s.dmc.drift.getD (e.1 / 64 % 2) none).isSome ∧ s.on DMC_CTRL_DRIFT_EN ∧
       ¬ bit (s.get DMC_TRAIN_CTRL_HOLD) (e.1 / 128 % 4) then
      (e.1, { e.2 with live := (stepTowards e.2.live ((e.2.target : Int) + ((s.dmc.drift.getD (e.1 / 64 % 2) none).getD 0))).toNat })
    else if s.dmc.adopting then (e.1, { e.2 with live := (stepTowards e.2.live e.2.target).toNat })
    else e)
  { s with dmc := { s.dmc with dly := moved, adopting := s.dmc.adopting && moved.any (fun e => e.2.live != e.2.target) } }

def execDmcLiveStep (s : State) : Out := finish s.liveStep

/-- Make the write levelling settings of a rank listed, so that drift can move them. -/
def State.listLevelling (s : State) (rank : Nat) : State :=
  (List.range 4).foldl (fun s sub => (List.range 10).foldl (fun s d =>
    s.dlySet (dlyKey 3 sub rank d) (s.dlyGet (dlyKey 3 sub rank d))) s) s

/-- The DQS oscillator of each rank (R462): the first count after an OK training is the base; a move of more than one tap's
worth from it moves the write levelling delays. -/
def State.driftCheck (s : State) (counts : List Nat) : State :=
  (List.range (min 2 counts.length)).foldl (fun s r =>
    match s.dmc.oscBase.getD r none with
    | none => { s with dmc := { s.dmc with oscBase := s.dmc.oscBase.set r (some (counts.getD r 0)) } }
    | some b =>
      let m := Config.oscTaps b (counts.getD r 0)
      if m.natAbs ≤ 1 then s
      else
        let s1 := s.listLevelling r
        { s1 with dmc := { s1.dmc with drift := s1.dmc.drift.set r (some m) } }) s

def execDriftCheck (counts : List Nat) (s : State) : Out :=
  finish (if s.on DMC_CTRL_DRIFT_EN ∧ s.get DMC_TRAIN_CTRL_HOLD = 0 ∧ s.on DMC_STATUS_INIT_DONE then s.driftCheck counts else s)

/-- A write of INIT samples DMC_CFG and starts bring-up (R457). -/
def State.dmcInit (s : State) : State :=
  if s.dmc.initBusy ∨ s.on DMC_STATUS_INIT_DONE then s
  else ({ s with dmc := { s.dmc with cfg := some (s.rget DMC_CFG), initBusy := true } }).put DMC_STATUS_INIT_ERR 0

def execDmcInit (req : Fin 6) (s : State) : Out :=
  finish (s.reqWrite req (DMC_CTRL) (fun s => s.dmcInit))

/-- Bring-up step 2 ends (R457): INIT_ERR 1 for a configuration outside R438, 2 for a failed read-back, 3 for failed ZQ. -/
def State.dramInitDone (s : State) (fail : Nat) (sup req : Bool) (dev : Nat) : State :=
  if ¬ s.dmc.initBusy then s
  else
    let s1 : State := { s with dmc := { s.dmc with initBusy := false, rfmSupported := sup } }
    let err := if ¬ cfgValid s.dmcCfg then 1 else if fail = 2 ∨ fail = 3 then fail else 0
    if err ≠ 0 then ((s1.put DMC_STATUS_INIT_ERR err).event' Ev.INIT_FAIL [err]).cause DMC_IRQ_CAUSE_INIT
    else (((s1.putB DMC_STATUS_INIT_DONE true).putB DMC_STATUS_RFM_REQ req).event' Ev.DRAM_INIT_DONE [b2n req, dev]).cause
      DMC_IRQ_CAUSE_INIT

def execDramInitDone (fail : Fin 4) (rfmSupported rfmRequired : Bool) (deviceId : Nat) (s : State) : Out :=
  finish (s.dramInitDone fail rfmSupported rfmRequired deviceId)

/-- READY and SIZE are set (R457). -/
def State.dramOpenDone (s : State) (ms : Nat) : State :=
  ((((s.putB DMC_STATUS_FILLING false).putB DMC_STATUS_READY true).put DMC_STATUS_SIZE (cfgGiB s.dmcCfg)).event' Ev.DRAM_READY
    [cfgGiB s.dmcCfg, ms]).cause DMC_IRQ_CAUSE_READY

/-- A write of OPEN (R457): no effect before INIT_DONE; the zero fill starts when ZERO_FILL is 1. -/
def State.dmcOpen (s : State) : State :=
  if ¬ s.on DMC_STATUS_INIT_DONE ∨ s.on DMC_STATUS_READY ∨ s.on DMC_STATUS_FILLING then s
  else if s.on DMC_CTRL_ZERO_FILL then s.putB DMC_STATUS_FILLING true
  else s.dramOpenDone 0

def execDmcOpen (req : Fin 6) (s : State) : Out :=
  finish (s.reqWrite req (DMC_CTRL) (fun s => s.dmcOpen))

def execDramReady (fillMs : Nat) (s : State) : Out :=
  finish (if s.on DMC_STATUS_FILLING then ({ s with dram := [], poison := [] }).dramOpenDone fillMs else s)

/-! ### Training helpers (R458, R459) -/

/-- GO: ignored unless HOLD of SUBCH is 1. -/
def State.sweepGo (s : State) : State :=
  if bit (s.get DMC_TRAIN_CTRL_HOLD) (s.get DMC_SWEEP_CFG_SUBCH) ∧ ¬ s.on DMC_SWEEP_STATUS_BUSY then
    (({ s with dmc := { s.dmc with sweepAbort := false } }).putB DMC_SWEEP_STATUS_BUSY true).put DMC_SWEEP_STATUS_POINT
      (s.get DMC_SWEEP_RANGE_START)
  else s

/-- ABORT: the running sweep stops at its present point. -/
def State.sweepAbortNow (s : State) : State :=
  if s.on DMC_SWEEP_STATUS_BUSY then { s with dmc := { s.dmc with sweepAbort := true } } else s

def execDmcSweepGo (req : Fin 6) (s : State) : Out :=
  finish (s.reqWrite req (DMC_SWEEP_CMD) (fun s => s.sweepGo))

def execDmcSweepAbort (req : Fin 6) (s : State) : Out :=
  finish (s.reqWrite req (DMC_SWEEP_CMD) (fun s => s.sweepAbortNow))

/-- One step of PRBS-23, x^23 + x^18 + 1: the bit out and the next register. -/
def prbs23Step (r : Nat) : Nat := (2 * r) % 2 ^ 23 + ((r / 2 ^ 22 + r / 2 ^ 17) % 2)

/-- The PRBS-23 register after n beats. -/
def prbs23 (seed : Nat) : Nat → Nat
  | 0 => seed
  | n + 1 => prbs23Step (prbs23 seed n)

/-- SEED rotated left by l bits within 23. -/
def rotl23 (x l : Nat) : Nat := (x * 2 ^ (l % 23) + x / 2 ^ (23 - l % 23)) % 2 ^ 23

/-- The bit that the pattern generator gives lane `l` in beat `b` of burst `n` (R459). -/
def State.patBit (s : State) (l n b : Nat) : Bool :=
  match s.get DMC_PAT_CFG_MODE with
  | 0 => bit (prbs23 (rotl23 (max 1 (s.get DMC_PAT_CFG_SEED)) l) (16 * n + b)) 22
  | 1 => (16 * n + b) % 40 == l
  | _ =>
    let e := (16 * n + b) % 64
    if l < 32 then bit (s.rget (DMC_PAT_USER (2 * e))).toNat l else bit (s.rget (DMC_PAT_USER (2 * e + 1))).toNat (l - 32)

/-- Mismatches per lane of one sweep point (R459). -/
def State.pointErrs (s : State) (p : SweepPoint) : List Nat :=
  match p with
  | .lanes e => (List.range 40).map (fun l => min 0xFFFF (e.getD l 0))
  | .bursts bs => (List.range 40).map (fun l => min 0xFFFF
      (((List.range bs.length).map (fun n => ((List.range 16).filter (fun b =>
        bit ((bs.getD n []).getD b 0).toNat l != s.patBit l n b)).length)).foldl (· + ·) 0))

/-- The points of a sweep, START, START + STEP and so on up to STOP. -/
def State.sweepPoints (s : State) : List Nat :=
  let step := max 1 (s.get DMC_SWEEP_CFG_STEP)
  let a := s.get DMC_SWEEP_RANGE_START
  let z := s.get DMC_SWEEP_RANGE_STOP
  if z < a then [] else (List.range ((z - a) / step + 1)).map (fun i => a + step * i)

/-- All runs of `true`: first index and length. -/
def runsOf (xs : List Bool) : List (Nat × Nat) :=
  (((xs.foldl (fun (st : Nat × Option (Nat × Nat) × List (Nat × Nat)) x =>
    if x then (st.1 + 1, some ((st.2.1.map (fun r => (r.1, r.2 + 1))).getD (st.1, 1)), st.2.2)
    else (st.1 + 1, none, st.2.2 ++ st.2.1.toList)) (0, none, [])) |> fun st => st.2.2 ++ st.2.1.toList))

/-- The widest run; which of several of one width is open (Config.eyeTie). -/
def widestRun (xs : List Bool) : Option (Nat × Nat) :=
  let rs := runsOf xs
  let w := rs.foldl (fun m r => max m r.2) 0
  let best := rs.filter (fun r => r.2 == w)
  if best = [] then none else best[Config.eyeTie xs % best.length]?

/-- Is a lane or device selected by DMC_LANE_MASK? -/
def State.laneSel (s : State) (l : Nat) : Bool :=
  if l < 32 then bit (s.rget DMC_LANE_MASK_LO).toNat l else bit (s.rget DMC_LANE_MASK_HI).toNat (l - 32)

/-- Does a sweep of a kind cover lane `l`: by its lane, or by its device for the per-device kinds (R459)? -/
def State.sweepLane (s : State) (kind l : Nat) : Bool := if dlyCount kind = 10 then s.laneSel (l / 4) else s.laneSel l

/-- A sweep ends (R459): LANE_ERR of the last point, the eye of every lane swept, DONE, and the swept setting at its last
point. -/
def State.sweepDone (s : State) (points : List SweepPoint) : State :=
  let pts := s.sweepPoints
  let n := min points.length pts.length
  if ¬ s.on DMC_SWEEP_STATUS_BUSY ∨ (n < pts.length ∧ ¬ s.dmc.sweepAbort) then s
  else
    let kind := s.get DMC_SWEEP_CFG_KIND
    let errs := (points.take n).map (fun p => s.pointErrs p)
    let last := pts.getD (n - 1) (s.get DMC_SWEEP_RANGE_START)
    let s1 := (List.range 40).foldl (fun s l =>
      if ¬ s.sweepLane kind l ∨ n = 0 then s
      else
        let e := s.put (DMC_LANE_ERR_ERR l) ((errs.getD (n - 1) []).getD l 0)
        match widestRun (errs.map (fun p => p.getD l 0 == 0)) with
        | none => e.putB (DMC_EYE_VALID l) false
        | some r => ((e.put (DMC_EYE_FIRST l) (pts.getD r.1 0)).put (DMC_EYE_LAST l) (pts.getD (r.1 + r.2 - 1) 0)).putB
            (DMC_EYE_VALID l) true) s
    let s2 := (List.range (dlyCount kind)).foldl (fun s l =>
      if s.laneSel l ∧ n ≠ 0 then
        let key := dlyKey kind (s.get DMC_SWEEP_CFG_SUBCH) (s.get DMC_SWEEP_CFG_RANK) l
        s.dlySet key { s.dlyGet key with live := last }
      else s) s1
    ((((({ s2 with dmc := { s2.dmc with sweepAbort := false } }).putB DMC_SWEEP_STATUS_BUSY false).putB DMC_SWEEP_STATUS_DONE
      true).put DMC_SWEEP_STATUS_POINT last).cause DMC_IRQ_CAUSE_SWEEP)

def execDmcSweepDone (points : List SweepPoint) (s : State) : Out := finish (s.sweepDone points)

/-- The setting DMC_DLY_SEL names, when there is one. -/
def State.dlySel (s : State) : Option Nat :=
  if s.get DMC_DLY_SEL_LANE < dlyCount (s.get DMC_DLY_SEL_KIND) then
    some (dlyKey (s.get DMC_DLY_SEL_KIND) (s.get DMC_DLY_SEL_SUBCH) (s.get DMC_DLY_SEL_RANK) (s.get DMC_DLY_SEL_LANE))
  else none

/-- LANE advances after a data access when AUTO_INC is 1. -/
def State.dlyInc (s : State) : State :=
  if s.on DMC_DLY_SEL_AUTO_INC then s.put DMC_DLY_SEL_LANE (s.get DMC_DLY_SEL_LANE + 1) else s

/-- A write of DMC_DLY_DATA: the target, and the live value only while HOLD of SUBCH is 1. -/
def State.dlyWrite (s : State) (v : Word) : State :=
  match s.dlySel with
  | none => s.dlyInc
  | some key =>
    (s.dlySet key { target := bits v.toNat 8 0,
                    live := if bit (s.get DMC_TRAIN_CTRL_HOLD) (s.get DMC_DLY_SEL_SUBCH) then bits v.toNat 24 16
                      else (s.dlyGet key).live }).dlyInc

def execDmcDlyDataWrite (req : Fin 6) (value : Word) (s : State) : Out :=
  finish (s.reqWrite req (DMC_DLY_DATA) (fun s => s.dlyWrite value))

/-- An OK training: live settings start to move, and the drift base is taken anew (R461, R462). -/
def State.dramTrained (s : State) : State :=
  { s with dmc := { s.dmc with adopting := true, oscBase := [none, none], drift := [none, none] } }

/-- A timeout or ABANDON of the DRAM channel: every target becomes its live value (R461). -/
def State.dramTrainLost (s : State) : State :=
  { s with dmc := { s.dmc with dly := s.dmc.dly.map (fun e => (e.1, { e.2 with target := e.2.live })), adopting := false } }

end Sys2Proof.Machine
end

