-- ==== Sys2Proof/Machine/Cmx.lean ====
section
/-!
DEFINITION. The compression engine (05_fblc.md, R169 to R182): the check of a descriptor, compression, decompression, and the
completion of a job.
-/
namespace Sys2Proof.Machine

/-- Statuses of R176. -/
def cmxOVERFLOW : Nat := 0x10
def cmxNO_GAIN : Nat := 0x11
def cmxSTREAM_ERROR : Nat := 0x12
def cmxSTATE_BAD : Nat := 0x13
def cmxDMA_FAIL : Nat := 0x14
def cmxPOISONED : Nat := 0x15

/-- Bytes of a saved state (R163). -/
def stateLen : Nat := 20544

/-! ### Descriptor fields (R169) -/

def cxOp (d : DescBits) : Nat := dfield d 0 1
def cxLoad (d : DescBits) : Bool := bit (dfield d 1 1) 5
def cxSave (d : DescBits) : Bool := bit (dfield d 1 1) 4
def cxHistReset (d : DescBits) : Bool := bit (dfield d 1 1) 3
def cxSrcDram (d : DescBits) : Bool := bit (dfield d 4 1) 0
def cxDstDram (d : DescBits) : Bool := bit (dfield d 4 1) 1
def cxStDram (d : DescBits) : Bool := bit (dfield d 4 1) 2
def cxSymw (d : DescBits) : Nat := dfield d 5 1
def cxWidth (d : DescBits) : Nat := dfield d 6 2
def cxLines (d : DescBits) : Nat := dfield d 8 4
def cxSrcLen (d : DescBits) : Nat := dfield d 12 4
def cxSrc (d : DescBits) : Nat := dfield d 16 8
def cxDst (d : DescBits) : Nat := dfield d 24 8
def cxCap (d : DescBits) : Nat := dfield d 32 4
def cxRatio (d : DescBits) : Nat := dfield d 36 2
def cxStIn (d : DescBits) : Nat := dfield d 40 8
def cxStOut (d : DescBits) : Nat := dfield d 48 8
def cxUser (d : DescBits) : Nat := dfield d 56 4

/-- Bytes of a raster (R152). -/
def rasterSize (symw width lines : Nat) : Nat := lines * width * symw / 8

/-- The details of R170 that hold for a descriptor, given the installed DRAM. -/
def cmxRefusals (d : DescBits) (size : Nat) : List Nat :=
  let comp := cxOp d == 0x10
  let tests : List (Nat × Bool) :=
    [ (1, comp && cxSymw d != 2 && cxSymw d != 8),
      (2, comp && (cxWidth d == 0 || cxWidth d % 64 != 0 || Nat.blt (widthLimit (cxSymw d)) (cxWidth d))),
      (3, comp && (cxLines d == 0 || Nat.blt 16777215 (cxLines d))),
      (4, comp && (cxSrcLen d != rasterSize (cxSymw d) (cxWidth d) (cxLines d) ||
            Nat.ble (2 ^ 32) (rasterSize (cxSymw d) (cxWidth d) (cxLines d)))),
      (5, comp && Nat.blt (cxCap d) 17),
      (6, (cxLoad d && cxStIn d % 64 != 0) || (cxSave d && cxStOut d % 64 != 0)),
      (7, !comp && (cxSymw d != 0 || cxWidth d != 0 || cxLines d != 0 || cxRatio d != 0 || cxHistReset d)),
      (8, (cxSrcDram d && Nat.blt size (cxSrc d + cxSrcLen d)) || (cxDstDram d && Nat.blt size (cxDst d + cxCap d)) ||
            (cxStDram d && ((cxLoad d && Nat.blt size (cxStIn d + stateLen)) ||
              (cxSave d && Nat.blt size (cxStOut d + stateLen))))) ]
  (tests.filter (·.2)).map (·.1)

/-! ### The outcome of a job -/

/-- A job that ends without output. -/
def cmxFail (d : DescBits) (status detail bitOffset bytesIn : Nat) (fail : Option (Nat × Nat)) : CmxJob :=
  { seq := dfield d 2 2, bits := d, status := status, detail := detail, bytesIn := bytesIn, bitOffset := bitOffset, out := [],
    state := [], fail := fail }

/-- A job that ends with a status other than OK and REFUSED: its BYTES_IN is open. -/
def cmxBad (d : DescBits) (status detail bitOffset : Nat) : CmxJob :=
  cmxFail d status detail bitOffset (Config.cmxBytesIn status (dfield d 2 2)) none

/-- A job whose PCIe read failed. -/
def cmxDma (d : DescBits) (addr st : Nat) : CmxJob :=
  cmxFail d cmxDMA_FAIL 0 0 (Config.cmxBytesIn cmxDMA_FAIL (dfield d 2 2)) (some (addr, st))

/-- The details of R173 that hold for a state buffer and the SYMW and WIDTH wanted. -/
def stateDetails (bs : List Byte) (symw width : Nat) : List Nat :=
  let tests : List (Nat × Bool) :=
    [ (1, leAt bs 20540 4 != crc32c (slice bs 0 20540)), (2, leAt bs 20480 1 != 1),
      (3, leAt bs 20481 1 != symw || leAt bs 20482 2 != width), (4, bit (leAt bs 20488 1) 0) ]
  (tests.filter (·.2)).map (·.1)

/-- Do tokens encode a raster from a starting state? -/
def tokensOk (h : FblcHeader) (st : FblcState) (syms : List Nat) (ts : List Token) : Bool :=
  let r := decodeAll h h.histReset st ((streamBytes h ts).drop 16)
  r.2.1 == syms && (match r.2.2 with | .ended _ => true | _ => false)

/-- A raster as LITERAL tokens. -/
def literalTokens : Nat → List Nat → List Token
  | 0, _ => []
  | n + 1, vs => if vs = [] then [] else .literal (vs.take 16777215) :: literalTokens n (vs.drop 16777215)

/-- The tokens of a COMPRESS job: the engine's choice (R175). -/
def chosenTokens (h : FblcHeader) (st : FblcState) (syms : List Nat) : List Token :=
  let ts := Config.cmxTokens h.symw h.width h.lines st syms
  if tokensOk h st syms ts then ts else literalTokens (syms.length + 1) syms

/-- G of R178. -/
def gainLimit (srcLen ratio : Nat) : Nat := if ratio = 0 then srcLen - 1 else min (srcLen - 1) (srcLen * 256 / ratio)

/-- Form the tokens one by one (R177, R178): the status the job ends with, given the bits written so far. -/
def emitTokens (symw cap g : Nat) : List Token → Nat → Nat
  | [], b => if g < 16 + ceilDiv (b + 5) 8 then cmxNO_GAIN else stOK
  | t :: ts, b =>
    let n := (tokenBits symw t).length
    if g < 16 + ceilDiv (b + n) 8 then cmxNO_GAIN
    else if cap < 16 + ceilDiv (b + n + 5) 8 then cmxOVERFLOW
    else emitTokens symw cap g ts (b + n)

/-- A COMPRESS job on its source bytes and starting state (R171, R174 to R178). -/
def compressJob (d : DescBits) (src : List Byte) (fromReset : Bool) (st : FblcState) : CmxJob :=
  let h : FblcHeader := { symw := cxSymw d, width := cxWidth d, histReset := fromReset, lines := cxLines d }
  let syms := (unpackSyms h.symw src).take (h.lines * h.width)
  let ts := chosenTokens h st syms
  let status := emitTokens h.symw (cxCap d) (gainLimit (cxSrcLen d) (cxRatio d)) ts 0
  if status ≠ stOK then cmxBad d status 0 0
  else
    let out := streamBytes h ts
    { cmxFail d stOK 0 0 (cxSrcLen d) none with
      out := out, state := if cxSave d then stateBytes (decodeAll h fromReset st (out.drop 16)).1 else [] }

/-- A DECOMPRESS job on its source bytes (R172, R174, R179). -/
def decompressJob (d : DescBits) (h : FblcHeader) (src : List Byte) (fromReset : Bool) (st : FblcState) : CmxJob :=
  let r := decodeAll h fromReset st (src.drop 16)
  match r.2.2 with
  | .ended bits =>
    { cmxFail d stOK 0 0 (16 + ceilDiv bits 8) none with
      out := packSyms h.symw r.2.1, state := if cxSave d then stateBytes r.1 else [] }
  | .bad detail off => cmxBad d cmxSTREAM_ERROR detail off
  | .more => cmxBad d cmxSTREAM_ERROR 12 0

/-! ### Reading and taking -/

/-- The source bytes of a job: from host memory as the read ended, or from device DRAM. `none` when poisoned. -/
def State.cmxRead (s : State) (dramSide : Bool) (addr len : Nat) (r : ReadResult) : State × Except (Option Nat) (List Byte) :=
  if dramSide then
    let x := s.dramGet addr len 2
    (x.1, if x.2.2 then .error none else .ok x.2.1)
  else
    match r with
    | .ok bs => (s, .ok (bs.take len))
    | .failed st => (s, .error (some st))

/-- A failed read as an outcome. -/
def cmxReadFail (d : DescBits) (addr : Nat) (e : Option Nat) : CmxJob :=
  match e with
  | none => cmxBad d cmxPOISONED 0 0
  | some st => cmxDma d addr st

/-- Read STATE_IN and check it (R173), then go on with the state. -/
def State.cmxWithState (s : State) (d : DescBits) (symw width : Nat) (st : ReadResult) (k : FblcState → CmxJob) :
    State × CmxJob :=
  match s.cmxRead (cxStDram d) (cxStIn d) stateLen st with
  | (s1, .error e) => (s1, cmxReadFail d (cxStIn d) e)
  | (s1, .ok bs) =>
    match pickOf (stateDetails bs symw width) with
    | some det => (s1, cmxBad d cmxSTATE_BAD det 0)
    | none =>
      match parseState bs with
      | .error det => (s1, cmxBad d cmxSTATE_BAD det 0)
      | .ok f => (s1, k f)

/-- What a COMPRESS job comes to. -/
def State.cmxCompress (s : State) (d : DescBits) (src st : ReadResult) : State × CmxJob :=
  match pickOf (cmxRefusals d s.dramSize) with
  | some det => (s, cmxFail d stREFUSED det 0 0 none)
  | none =>
    match s.cmxRead (cxSrcDram d) (cxSrc d) (cxSrcLen d) src with
    | (s1, .error e) => (s1, cmxReadFail d (cxSrc d) e)
    | (s1, .ok bs) =>
      if cxLoad d ∧ ¬ cxHistReset d then s1.cmxWithState d (cxSymw d) (cxWidth d) st (fun f => compressJob d bs false f)
      else (s1, compressJob d bs true (FblcState.reset (cxSymw d) (cxWidth d)))

/-- What a DECOMPRESS job comes to: the header first, then DST_CAP, then the state (R172, R173, R179). -/
def State.cmxDecompress (s : State) (d : DescBits) (src st : ReadResult) : State × CmxJob :=
  match pickOf (cmxRefusals d s.dramSize) with
  | some det => (s, cmxFail d stREFUSED det 0 0 none)
  | none =>
    match s.cmxRead (cxSrcDram d) (cxSrc d) (cxSrcLen d) src with
    | (s1, .error e) => (s1, cmxReadFail d (cxSrc d) e)
    | (s1, .ok bs) =>
      match parseHeader bs with
      | .error det => (s1, cmxBad d cmxSTREAM_ERROR det (Config.headerErrBit det))
      | .ok h =>
        if cxCap d < rasterSize h.symw h.width h.lines then (s1, cmxBad d cmxOVERFLOW 0 0)
        else if h.histReset ∨ ¬ cxLoad d then (s1, decompressJob d h bs true (FblcState.reset h.symw h.width))
        else s1.cmxWithState d h.symw h.width st (fun f => decompressJob d h bs false f)

/-- A unit takes the next descriptor of the CMX ring when it is of this opcode and the unit is idle and selected (R170). -/
def State.cmxTake (s : State) (u op : Nat) (job : State → DescBits → State × CmxJob) : State :=
  match s.head 4 with
  | none => s
  | some d =>
    if d.op ≠ op ∨ ¬ s.islandRuns 2 ∨ ¬ bit (s.get CMX_UNIT_MASK_MASK) u ∨ bit (s.get CMX_UNIT_STATUS_BUSY) u then s
    else
      let (s1, j) := job s d.bits
      let s2 := ({ s1 with cmx := s1.cmx.set u (some j) }).startDesc 4 d.seq
      (((s2.put CMX_UNIT_STATUS_BUSY (s.get CMX_UNIT_STATUS_BUSY + 2 ^ u)).put (CMX_UNIT_SEQ_SEQ u) d.seq).putB
        (CMX_UNIT_SEQ_VALID u) true).putB (CMX_UNIT_SEQ_OP u) (op == 0x11)

def execCompress (unit : Fin 8) (src st : ReadResult) (s : State) : Out :=
  finish (s.cmxTake unit 0x10 (fun s d => s.cmxCompress d src st))

def execDecompress (unit : Fin 8) (src st : ReadResult) (s : State) : Out :=
  finish (s.cmxTake unit 0x11 (fun s d => s.cmxDecompress d src st))

/-! ### Completion (R174, R176, R180, R182) -/

/-- Write a buffer of a job to host memory or device DRAM. -/
def State.cmxWrite (s : State) (dramSide : Bool) (addr : Nat) (bs : List Byte) : State :=
  if dramSide then s.dramWrite addr bs [] else { s with hostMem := Mem.writes s.hostMem addr bs }

/-- Statuses after which the destination up to DST_CAP is undefined (R180); a DECOMPRESS job that overflows has written nothing (R179). -/
def dstUndefined (op status : Nat) : Bool :=
  Nat.ble cmxOVERFLOW status && status != cmxSTATE_BAD && !(op == 0x11 && status == cmxOVERFLOW)

/-- The 32 payload bytes of CMX_DONE (R182). -/
def cmxPayload (u : Nat) (j : CmxJob) : List Nat :=
  (leBytes 4 j.out.length ++ leBytes 4 j.bytesIn ++ leBytes 4 (if j.status = stOK then crc32c j.out else 0) ++
   leBytes 1 u ++ leBytes 1 j.detail ++ leBytes 2 0 ++ leBytes 8 j.bitOffset ++ leBytes 4 (cxUser j.bits) ++ leBytes 4 0).map
    BitVec.toNat

/-- The counters of a completed job. -/
def State.cmxCount (s : State) (j : CmxJob) : State :=
  let s1 := s.addSat CMX_JOB_COUNT_COUNT 1
  if j.status = stOK then (s1.addSat CMX_BYTES_IN_KIB (j.bytesIn / 1024)).addSat CMX_BYTES_OUT_KIB (j.out.length / 1024)
  else if j.status = cmxOVERFLOW then s1.addSat CMX_OVERFLOW_COUNT_COUNT 1
  else if j.status = cmxNO_GAIN then s1.addSat CMX_NOGAIN_COUNT_COUNT 1
  else if cmxSTREAM_ERROR ≤ j.status then s1.addSat CMX_ERROR_COUNT_COUNT 1
  else s1

/-- The buffers a job writes: its output and state when OK, undefined bytes up to DST_CAP after a failure of R180. -/
def State.cmxBuffers (s : State) (j : CmxJob) : State :=
  if j.status = stOK then
    let s1 := s.cmxWrite (cxDstDram j.bits) (cxDst j.bits) j.out
    if cxSave j.bits then s1.cmxWrite (cxStDram j.bits) (cxStOut j.bits) j.state else s1
  else if dstUndefined (cxOp j.bits) j.status then
    s.cmxWrite (cxDstDram j.bits) (cxDst j.bits) ((List.range (cxCap j.bits)).map (Config.undefByte j.seq))
  else s

/-- A unit's job completes; a PCIe write that failed turns an OK outcome into DMA_FAIL. -/
def State.cmxDone (s : State) (u : Nat) (writeFail : Option (Nat × Nat)) : State :=
  match s.cmx.getD u none with
  | none => s
  | some j0 =>
    let j := match writeFail with
      | some f => if j0.status = stOK then
          { cmxFail j0.bits cmxDMA_FAIL 0 0 (Config.cmxBytesIn cmxDMA_FAIL j0.seq) (some f) with seq := j0.seq } else j0
      | none => j0
    let s1 := ({ s with cmx := s.cmx.set u none }).put CMX_UNIT_STATUS_BUSY (s.get CMX_UNIT_STATUS_BUSY - 2 ^ u)
    let s2 := (s1.cmxBuffers j).cmxCount j
    let s3 := match j.fail with
      | some f => (s2.event Ev.CMX_DMA_FAIL u [u, j.seq, f.1, f.2]).cause CMX_IRQ_CAUSE_DMA_FAIL
      | none => s2
    let s4 := if j.status = stOK ∨ j.status = cmxNO_GAIN then s3 else s3.cause CMX_IRQ_CAUSE_JOB_FAILED
    s4.complete 4 j.seq 2 Ev.CMX_DONE j.status u (cmxPayload u j) (j.status ≠ stOK)

def execCmxDone (unit : Fin 8) (writeFail : Option (Nat × Nat)) (s : State) : Out := finish (s.cmxDone unit writeFail)

end Sys2Proof.Machine
end

