-- ==== Sys2Proof/Machine/Tile.lean ====
section
/-!
DEFINITION. The tile and hub side of the head link (06_laneb.md, 08_firing_and_head_heat.md): what a module does with packets
and ticks, its thermal levels, its faults and its reports.
-/
namespace Sys2Proof.Machine

/-- ACK statuses of R199. -/
def akACK : Nat := 0
def akCRC : Nat := 1
def akWINDOW : Nat := 2
def akFULL : Nat := 3
def akAUTH : Nat := 4
def akREFUSED : Nat := 5
def akSLOT : Nat := 6

/-- Line distance (a - b) mod 2^24 (R195). -/
def lineDist (a b : Nat) : Nat := (a + 2 ^ 24 - b % 2 ^ 24) % 2 ^ 24

/-- The module sends an ACK block (R199). -/
def State.ackOut (s : State) (p lsn status slot : Nat) : State :=
  { s with heads := { s.heads with ack := s.heads.ack.set p (some { lsn := lsn, status := status, slot := slot }) } }

/-- Is a port authorised (R221)? -/
def State.authorised (s : State) (p : Nat) : Bool := s.heads.auth.getD p false

/-- The declaration of the tile at a slot. -/
def State.tileDecl (s : State) (p slot : Nat) : DescBits := ((s.tile p slot).decl).getD (Config.tileDecl p slot)

/-! ### Faults and reports (R216 to R219) -/

/-- Is a fault code latched in a tile? -/
def Tile.fault (t : Tile) (c : Nat) : Bool := bit t.faults c

/-- The FAULT report of a latched code (R218). -/
def Tile.faultReport (t : Tile) (c : Nat) : ReportOut :=
  { kind := 4, line := t.cur, ident := t.ident, unassigned := !t.assigned,
    payload := leBytes 2 c ++ leBytes 2 (t.counts.getD c 0) ++ leBytes 3 (t.faultLine.getD c 0) ++
      leBytes 1 (t.faultGroup.getD c 0xFF) ++ leBytes 8 0 }

/-- Raise a fault: it becomes latched, counts saturate, and its report is sent when it becomes latched (R216, R218). -/
def Tile.raise (t : Tile) (c group : Nat) : Tile :=
  let t1 : Tile := { t with
    faults := if t.fault c then t.faults else t.faults + 2 ^ c
    counts := t.counts.set c (min 0xFFFF (t.counts.getD c 0 + 1))
    faultLine := if t.fault c then t.faultLine else t.faultLine.set c t.cur
    faultGroup := if t.fault c then t.faultGroup else t.faultGroup.set c group }
  if t.fault c then t1 else { t1 with reports := t1.reports ++ [t1.faultReport c] }

/-- The TEMP report (R216). -/
def Tile.tempReport (t : Tile) : ReportOut :=
  { kind := 1, line := t.cur, ident := t.ident, unassigned := !t.assigned,
    payload := leBytes 2 (twos 16 t.tMax) ++ leBytes 2 (twos 16 t.tMean) ++
      leBytes 1 (b2n t.warn + 2 * b2n t.clamp + 4 * b2n t.shut + 8 * b2n t.below +
        16 * b2n (t.duty ≠ 0 ∧ ¬ t.clamp ∧ ¬ t.shut)) ++
      leBytes 1 (if t.clamp ∨ t.shut then 0 else t.duty) ++ leBytes 2 0 }

/-- Is a timed load still to take effect (R211)? -/
def Tile.pendingLoad (t : Tile) (l : TileLoad) : Bool :=
  match l.line with
  | none => false
  | some x => Nat.ble 1 (lineDist x t.cur) && Nat.blt (lineDist x t.cur) (2 ^ 23)

/-- Drop firing (R221): held line packets and queued timed loads go, spitting stops; masks, trims and parameters stay. -/
def Tile.dropFiring (t : Tile) (cyc : Nat) : Tile :=
  { t with lastDropCyc := if t.spitSize ≠ 0 then some cyc else t.lastDropCyc, held := [], masks := t.masks.filter (fun l => !t.pendingLoad l), trims := t.trims.filter (fun l => !t.pendingLoad l),
           spitSize := 0, firing := false }

/-- Is a tile idle at a cycle (R212): no line packet, not spitting, no drop for 100 µs? -/
def Tile.idle (t : Tile) (cyc : Nat) : Bool :=
  t.held == [] && t.spitSize == 0 && (match t.lastDropCyc with | none => true | some c => Nat.ble (c + 25000) cyc)

/-- Drop firing for a lost link or authority: code 3 is latched unless the tile is idle (R297). -/
def Tile.dropLink (t : Tile) (cyc group : Nat) : Tile :=
  if t.idle cyc then t.dropFiring cyc else (t.dropFiring cyc).raise 3 group

/-- Does a sweep run in the tile (R212)? -/
def Tile.sweeping (t : Tile) (cyc : Nat) : Bool := Nat.blt cyc t.sweepEnd

/-! ### Receiving a control packet (R193, R199, R203, R210, R222) -/

/-- Blocks a payload of `n` bytes makes: header, payload and CRC padded (R191). -/
def packetBlocks (n : Nat) : Nat := (n + 12 + 7) / 8

/-- What a tile decides on a control packet it may execute: a refusal status, or its new state. -/
abbrev TileAct := Tile → Except Nat Tile

/-- The tile's answer to a control packet addressed to it. `len` is the payload length of the opcode; `timed` opcodes may
carry IMM 0; `line` opcodes carry a LINE; `open'` opcodes execute on a port that is not authorised. -/
def State.ctlReceive (s : State) (p slot : Nat) (h : CtlHdr) (payload : List Byte) (len : Nat)
    (timed lineOp open' : Bool) (act : TileAct) : State :=
  let ack := fun (s : State) (st : Nat) => s.ackOut p h.lsn.toNat st slot
  if ¬ h.crcOk ∨ packetBlocks payload.length ≠ packetBlocks len ∨ payload.length < len then ack s akCRC
  else if ¬ s.authorised p ∧ ¬ open' then ack s akAUTH
  else if slot = 31 then ack s akREFUSED
  else if 24 ≤ slot ∨ ¬ (s.tile p slot).present then ack s akSLOT
  else if (s.tile p slot).lastCseq = some h.cseq.toNat then ack s akACK
  else if ¬ h.imm ∧ ¬ timed ∧ ¬ lineOp then ack s akREFUSED
  else if h.imm ∧ ¬ lineOp ∧ h.line ≠ 0 then ack s akREFUSED
  else
    match act { s.tile p slot with reports := [] } with
    | .error st => ack s st
    | .ok t => ack (s.setTile p slot { t with lastCseq := some h.cseq.toNat }) akACK

/-- A field of a payload. -/
def pf (b : List Byte) (at' n : Nat) : Nat := leAt b at' n

/-! ### Timed loads (R210, R211) -/

/-- Place a load in order of effect: timed ones among those pending by line, immediate ones behind all pending. -/
def placeLoad (t : Tile) (l : TileLoad) : List TileLoad → List TileLoad
  | [] => [l]
  | x :: xs =>
    let later := match l.line with
      | none => t.pendingLoad x
      | some a => match x.line with
        | none => false
        | some b => t.pendingLoad x && Nat.blt (lineDist a t.cur) (lineDist b t.cur)
    if later then x :: placeLoad t l xs else l :: x :: xs

/-- Take a MASK_LOAD or TRIM_LOAD (R211): refused outside the window of its line or when the queue is full. -/
def takeLoad (t : Tile) (p slot : Nat) (h : CtlHdr) (loads : List TileLoad) (first : Nat) (data : List Nat) :
    Except Nat (List TileLoad) :=
  if h.imm then .ok (placeLoad t { line := none, first := first, data := data } loads)
  else if lineDist h.line.toNat t.cur = 0 ∨ 2 ^ 23 ≤ lineDist h.line.toNat t.cur then .error akWINDOW
  else if 2 + Config.extraLoads p slot ≤ (loads.filter (fun l => t.pendingLoad l)).length then .error akFULL
  else .ok (placeLoad t { line := some h.line.toNat, first := first, data := data } loads)

/-- MASK_LOAD (R210, R211). -/
def State.tileMaskLoad (s : State) (p slot : Nat) (h : CtlHdr) (b : List Byte) : State :=
  let first := pf b 0 2
  let count := pf b 2 2
  s.ctlReceive p slot h b (8 + count) true false false (fun t =>
    if count = 0 ∨ 4096 < first + count ∨ pf b 4 4 ≠ 0 then .error akREFUSED
    else (takeLoad t p slot h t.masks first ((slice b 8 count).map BitVec.toNat)).map (fun l => { t with masks := l }))

def execMaskLoad (p : Fin 24) (slot : Fin 32) (h : CtlHdr) (b : List Byte) (s : State) : Out :=
  finish (s.tileMaskLoad p slot h b)

/-- TRIM_LOAD (R210, R211). -/
def State.tileTrimLoad (s : State) (p slot : Nat) (h : CtlHdr) (b : List Byte) : State :=
  let first := pf b 0 2
  let count := pf b 2 2
  s.ctlReceive p slot h b (8 + 12 * count) true false false (fun t =>
    if count = 0 ∨ 256 < count ∨ 4096 < first + count ∨ pf b 4 4 ≠ 0 then .error akREFUSED
    else (takeLoad t p slot h t.trims first ((List.range count).map (fun i => pf b (8 + 12 * i) 12))).map
      (fun l => { t with trims := l }))

def execTrimLoad (p : Fin 24) (slot : Fin 32) (h : CtlHdr) (b : List Byte) (s : State) : Out :=
  finish (s.tileTrimLoad p slot h b)

/-! ### Parameters -/

/-- FIRE_PARAMS within R277's ranges. -/
def fireParamsOk (b : List Byte) : Bool :=
  Nat.ble (pf b 0 2) 400 && Nat.ble (pf b 2 2) 800 && Nat.ble 200 (pf b 4 2) && Nat.ble (pf b 4 2) 1500 &&
  Nat.ble 3277 (pf b 6 2) && Nat.ble (pf b 6 2) 4506 && Nat.ble 100 (pf b 8 2) && Nat.ble (pf b 8 2) 2000 &&
  (pf b 10 1 == 4 || pf b 10 1 == 8) && pf b 11 5 == 0

/-- FIRE_PARAMS (R277). -/
def State.tileFireParams (s : State) (p slot : Nat) (h : CtlHdr) (b : List Byte) : State :=
  s.ctlReceive p slot h b 16 false false false (fun t =>
    if t.held ≠ [] ∨ ¬ fireParamsOk b then .error akREFUSED
    else .ok { t with pre := pf b 0 2, dead := pf b 2 2, mainNs := pf b 4 2, scale := pf b 6 2, gap := pf b 8 2, rowK := pf b 10 1 })

def execFireParams (p : Fin 24) (slot : Fin 32) (h : CtlHdr) (b : List Byte) (s : State) : Out :=
  finish (s.tileFireParams p slot h b)

/-- A drop table a tile accepts (R210, R281): entry 0 empty, no second drop without a first, reserved bits 0. -/
def dropTableOk (b : List Byte) : Bool :=
  pf b 0 1 == 0 && (List.range 4).all (fun c => pf b c 1 / 16 == 0 && (pf b c 1 % 4 != 0 || pf b c 1 / 4 == 0)) && pf b 4 4 == 0

/-- DROP_TABLE (R281). -/
def State.tileDropTable (s : State) (p slot : Nat) (h : CtlHdr) (b : List Byte) : State :=
  s.ctlReceive p slot h b 8 false false false (fun t =>
    if t.held ≠ [] ∨ ¬ dropTableOk b then .error akREFUSED
    else .ok { t with drops := (List.range 4).map (fun c => pf b c 1) })

def execDropTable (p : Fin 24) (slot : Fin 32) (h : CtlHdr) (b : List Byte) (s : State) : Out :=
  finish (s.tileDropTable p slot h b)

/-- WARM (R293). -/
def State.tileWarm (s : State) (p slot : Nat) (h : CtlHdr) (b : List Byte) : State :=
  s.ctlReceive p slot h b 8 false false false (fun t =>
    if pf b 1 7 ≠ 0 then .error akREFUSED else .ok { t with duty := pf b 0 1 })

def execWarm (p : Fin 24) (slot : Fin 32) (h : CtlHdr) (b : List Byte) (s : State) : Out := finish (s.tileWarm p slot h b)

/-- THERM: FIRE_MIN < WARN < CLAMP < SHUT ≤ T_ABS_MAX, HYST from 32 to 640 (R284). -/
def State.tileTherm (s : State) (p slot : Nat) (h : CtlHdr) (b : List Byte) : State :=
  let f := fun at' => sgn 16 (pf b at' 2)
  let tAbs := declTAbs (s.tileDecl p slot)
  s.ctlReceive p slot h b 16 false false false (fun t =>
    if f 8 < f 0 ∧ f 0 < f 2 ∧ f 2 < f 4 ∧ f 4 ≤ tAbs ∧ 32 ≤ f 6 ∧ f 6 ≤ 640 ∧ pf b 10 6 = 0 then
      .ok { t with thWarn := f 0, thClamp := f 2, thShut := f 4, thHyst := f 6, thMin := f 8, thermSet := true }
    else .error akREFUSED)

def execTherm (p : Fin 24) (slot : Fin 32) (h : CtlHdr) (b : List Byte) (s : State) : Out := finish (s.tileTherm p slot h b)

/-- RES_SWEEP (R212): only an idle tile; 16 heaters each 2 µs. -/
def State.tileResSweep (s : State) (p slot : Nat) (h : CtlHdr) (b : List Byte) : State :=
  let first := pf b 0 4
  let count := pf b 4 4
  s.ctlReceive p slot h b 8 false false false (fun t =>
    if ¬ t.idle s.time.cyc ∨ first % 16 ≠ 0 ∨ count % 16 ≠ 0 ∨ count = 0 ∨ 65536 < first + count then .error akREFUSED
    else .ok { t with sweepEnd := s.time.cyc + 500 * (count / 16) })

def execResSweep (p : Fin 24) (slot : Fin 32) (h : CtlHdr) (b : List Byte) (s : State) : Out :=
  finish (s.tileResSweep p slot h b)

/-- SPIT (R212, R295, R296). -/
def State.tileSpit (s : State) (p slot : Nat) (h : CtlHdr) (b : List Byte) : State :=
  let size := pf b 1 1
  let rate := pf b 2 2
  s.ctlReceive p slot h b 8 false false false (fun t =>
    if t.held ≠ [] ∨ t.sweeping s.time.cyc ∨ 1 < pf b 0 1 ∨ size = 0 ∨ 3 < size ∨ rate = 0 ∨ 5000 < rate ∨ pf b 4 4 ≠ 0 then
      .error akREFUSED
    else .ok { t with spitSize := if pf b 0 1 = 1 then size else 0, spitRate := rate,
                      lastDropCyc := if pf b 0 1 = 0 ∧ t.spitSize ≠ 0 then some s.time.cyc else t.lastDropCyc })

def execSpit (p : Fin 24) (slot : Fin 32) (h : CtlHdr) (b : List Byte) (s : State) : Out := finish (s.tileSpit p slot h b)

/-- LINE_CANCEL (R214): packets and loads from L to L + 2^23 - 1 go, and the tile goes on as after a LAST. -/
def State.tileLineCancel (s : State) (p slot : Nat) (h : CtlHdr) (b : List Byte) : State :=
  let gone := fun x => Nat.blt (lineDist x h.line.toNat) (2 ^ 23)
  let keep := fun (t : Tile) (l : TileLoad) => !(t.pendingLoad l && (match l.line with | some x => gone x | none => false))
  s.ctlReceive p slot h b 0 false true false (fun t =>
    .ok { t with held := t.held.filter (fun k => !gone k.line), masks := t.masks.filter (keep t),
                 trims := t.trims.filter (keep t), lastSeen := true })

def execLineCancel (p : Fin 24) (slot : Fin 32) (h : CtlHdr) (b : List Byte) (s : State) : Out :=
  finish (s.tileLineCancel p slot h b)

/-- Row pointers at SET_LINE: the first row chosen is at or after row c mod 8 (R252). -/
def startPtrs : List Nat := (List.range 4096).map (fun c => (c % 8 + 7) % 8)

/-- SET_LINE (R213): CUR, future packets and loads dropped, row pointers restarted. -/
def State.tileSetLine (s : State) (p slot : Nat) (h : CtlHdr) (b : List Byte) : State :=
  s.ctlReceive p slot h b 0 false true false (fun t0 =>
    let t : Tile := { t0 with cur := h.line.toNat }
    let future := fun x => Nat.ble 1 (lineDist x t.cur) && Nat.ble (lineDist x t.cur) (2 ^ 23)
    let keep := fun (l : TileLoad) => !(match l.line with | some x => future x | none => false)
    .ok { t with held := t.held.filter (fun k => !future k.line), masks := t.masks.filter keep, trims := t.trims.filter keep,
                 lastSeen := false, waiting := true, ptrs := startPtrs, firing := false })

def execSetLine (p : Fin 24) (slot : Fin 32) (h : CtlHdr) (b : List Byte) (s : State) : Out :=
  finish (s.tileSetLine p slot h b)

/-- TICK_DELAY (R206). -/
def State.tileTickDelay (s : State) (p slot : Nat) (h : CtlHdr) (b : List Byte) : State :=
  s.ctlReceive p slot h b 8 false false false (fun t =>
    if t.held ≠ [] ∨ pf b 4 4 ≠ 0 then .error akREFUSED else .ok { t with delay16 := pf b 0 4 })

def execTickDelay (p : Fin 24) (slot : Fin 32) (h : CtlHdr) (b : List Byte) (s : State) : Out :=
  finish (s.tileTickDelay p slot h b)

/-- ASSIGN_ID (R185). -/
def State.tileAssignId (s : State) (p slot : Nat) (h : CtlHdr) (b : List Byte) : State :=
  let w := pf b 0 2
  s.ctlReceive p slot h b 8 false false false (fun t =>
    if t.held ≠ [] ∨ w / 512 % 64 ≠ 0 ∨ pf b 2 6 ≠ 0 then .error akREFUSED
    else .ok { t with ident := w % 512, assigned := bit w 15 })

def execAssignId (p : Fin 24) (slot : Fin 32) (h : CtlHdr) (b : List Byte) (s : State) : Out :=
  finish (s.tileAssignId p slot h b)

/-! ### Declarations, faults and echoes, which every port answers (R222) -/

/-- The hub's part of a packet to slot 31 that it executes. -/
def State.hubReceive (s : State) (p : Nat) (h : CtlHdr) (b : List Byte) (len : Nat) (f : State → State) : State :=
  if ¬ h.crcOk ∨ packetBlocks b.length ≠ packetBlocks len ∨ b.length < len then s.ackOut p h.lsn.toNat akCRC 31
  else if ¬ h.imm ∨ h.line ≠ 0 then s.ackOut p h.lsn.toNat akREFUSED 31
  else (f s).ackOut p h.lsn.toNat akACK 31

/-- The DECLARE report of a tile (R216). -/
def Tile.declareReport (t : Tile) (d : DescBits) : ReportOut :=
  { kind := 3, line := t.cur, ident := t.ident, unassigned := !t.assigned, payload := declBytes d }

/-- Replace the modules' record. -/
def State.setHeads (s : State) (x : Heads) : State := { s with heads := x }

/-- The DECLARE report of a hub (R193, R216). -/
def State.hubDeclare (s : State) (p : Nat) : ReportOut :=
  { kind := 3, line := 0, ident := 0x1FF, unassigned := true, payload := declBytes (s.heads.hubDecl.getD p 0) }

/-- DECLARE_REQ to a tile or the hub (R216). -/
def State.tileDeclareReq (s : State) (p slot : Nat) (h : CtlHdr) (b : List Byte) : State :=
  if slot = 31 then
    s.hubReceive p h b 0 (fun s => s.setHeads { s.heads with hubReport := s.heads.hubReport.set p (some (s.hubDeclare p)) })
  else
    let d := s.tileDecl p slot
    s.ctlReceive p slot h b 0 false false true (fun t => .ok { t with reports := [t.declareReport d] })

def execDeclareReq (p : Fin 24) (slot : Fin 32) (h : CtlHdr) (b : List Byte) (s : State) : Out :=
  finish (s.tileDeclareReq p slot h b)

/-- The level SHUT or HYST in force: of the last THERM, else the maker's own (R284). -/
def Tile.level (t : Tile) (p slot k : Nat) : Int :=
  if t.thermSet then
    match k with
    | 0 => t.thWarn
    | 1 => t.thClamp
    | 2 => t.thShut
    | 3 => t.thHyst
    | _ => t.thMin
  else Config.makerTherm p slot k

/-- The fault codes of a bit set, taken away. -/
def clearCodes (faults codes : Nat) : Nat := (List.range 32).foldl (fun a c => if bit faults c && !bit codes c then a + 2 ^ c else a) 0

/-- CLEAR_FAULT (R219, R289): one that names code 4 is refused while T_MAX ≥ SHUT - HYST. -/
def State.tileClearFault (s : State) (p slot : Nat) (h : CtlHdr) (b : List Byte) : State :=
  let codes := pf b 0 4
  if slot = 31 then
    s.hubReceive p h b 8 (fun s =>
      s.setHeads { s.heads with hubFaults := s.heads.hubFaults.set p (clearCodes (s.heads.hubFaults.getD p 0) codes) })
  else
    s.ctlReceive p slot h b 8 false false true (fun t =>
      if pf b 4 4 ≠ 0 then .error akREFUSED
      else if bit codes 4 ∧ t.level p slot 2 - t.level p slot 3 ≤ t.tMax then .error akREFUSED
      else .ok { t with faults := clearCodes t.faults codes
                        counts := (List.range 8).map (fun c => if bit codes c then 0 else t.counts.getD c 0)
                        shut := t.shut && !bit codes 4 })

def execClearFault (p : Fin 24) (slot : Fin 32) (h : CtlHdr) (b : List Byte) (s : State) : Out :=
  finish (s.tileClearFault p slot h b)

def execEcho (p : Fin 24) (slot : Fin 32) (nonce : BitVec 8) (s : State) : Out :=
  finish (if slot.val = 31 ∨ (slot.val < 24 ∧ (s.tile p slot).present) then
      s.setHeads { s.heads with
        echo := s.heads.echo.set p (some (slot.val, nonce.toNat, Config.echoTau p slot nonce.toNat)) }
    else s)

/-! ### Line packets (R193, R196, R198, R212) -/

/-- A line packet at a tile. -/
def State.tileLine (s : State) (p slot : Nat) (h : LineHdr) (b : List Byte) : State :=
  let ack := fun (s : State) (st : Nat) => s.ackOut p h.lsn.toNat st slot
  if ¬ h.crcOk ∨ b.length ≠ 1024 then ack s akCRC
  else if ¬ s.authorised p then ack s akAUTH
  else if slot = 31 then ack s akREFUSED
  else if 24 ≤ slot ∨ ¬ (s.tile p slot).present then ack s akSLOT
  else
    let t := s.tile p slot
    let k : HeldLine := { line := h.line.toNat, codes := unpackSyms 2 b, last := h.last, rows := none }
    if t.sweeping s.time.cyc then ack s akREFUSED
    else if lineDist h.line.toNat t.cur = 0 ∨ 32 < lineDist h.line.toNat t.cur then ack s akWINDOW
    else if t.held.any (fun x => x.line == k.line) then
      ack (s.setTile p slot { t with held := t.held.map (fun x => if x.line = k.line then k else x),
                                     lastSeen := t.lastSeen || h.last }) akACK
    else if max 96 (declBuf (s.tileDecl p slot)) ≤ t.held.length then ack s akFULL
    else ack (s.setTile p slot { t with held := t.held ++ [k], lastSeen := t.lastSeen || h.last }) akACK

def execLinePacketReceive (p : Fin 24) (slot : Fin 32) (h : LineHdr) (b : List Byte) (s : State) : Out :=
  finish (s.tileLine p slot h b)

/-! ### Ticks (R195, R208, R209, R223, R252, R275 to R290) -/

/-- Does a load cover a column? -/
def TileLoad.covers (l : TileLoad) (c : Nat) : Bool := Nat.ble l.first c && Nat.blt c (l.first + l.data.length)

/-- The row-usable mask that governs a column at the current line: the latest load in effect that covers it (R211). -/
def Tile.maskOf (t : Tile) (c : Nat) : Nat :=
  match t.masks.find? (fun l => !t.pendingLoad l && l.covers c) with
  | none => 0
  | some l => l.data.getD (c - l.first) 0

/-- The trim of heater `h` (0 to 15) of a column in force (R210, R211). -/
def Tile.trimOf (t : Tile) (c h : Nat) : Int :=
  match t.trims.find? (fun l => !t.pendingLoad l && l.covers c) with
  | none => 0
  | some l => sgn 6 (bits (l.data.getD (c - l.first) 0) (6 * h + 5) (6 * h))

/-- The first usable row cyclically after `p` under a mask (R252). -/
def nextRow (mask p : Nat) : Option Nat := ((List.range 8).map (fun i => (p + 1 + i) % 8)).find? (fun r => bit mask r)

/-- The effective main width in ns (R276). -/
def effWidth (mainNs scale : Nat) (trim : Int) : Nat := (roundDiv ((mainNs * scale : Nat) * (160 + trim)) (4096 * 160)).toNat

/-- One drop of a size from a column and row (R275, R276, R286); none for size 0. -/
def Tile.mkDrop (t : Tile) (col row line size : Nat) (second : Bool) : List Drop :=
  let sz := if t.clampEff ∧ size = 3 then 2 else size
  if sz = 0 then []
  else [{ col := col, row := row, line := line, heaters := sz, second := second,
          widthA := if bit sz 0 then effWidth t.mainNs t.scale (t.trimOf col (2 * row)) else 0,
          widthB := if bit sz 1 then effWidth t.mainNs t.scale (t.trimOf col (2 * row + 1)) else 0 }]

/-- The drops that a held line fires at the current tick: those whose row's tick it is (R37, R279). -/
def Tile.lineDrops (t : Tile) (k : HeldLine) : List Drop :=
  match k.rows with
  | none => []
  | some rs =>
    let d := lineDist t.cur k.line
    if d % t.rowK ≠ 0 then []
    else
      let r := d / t.rowK
      ((List.range 4096).map (fun c =>
        if rs.getD c 8 = r then
          let e := t.drops.getD (k.codes.getD c 0) 0
          t.mkDrop c r k.line (e % 4) false ++ t.mkDrop c r k.line (e / 4 % 4) true
        else [])).flatten

/-- May the tile start a line (R185, R219, R284, R290): assigned, THERM taken, no code 3, 4, 5 or 7 latched, and not below FIRE_MIN unless
already firing? -/
def Tile.mayStart (t : Tile) : Bool :=
  t.assigned && t.thermSet && (!t.below || t.firing) && !(t.fault 3 || t.fault 4 || t.fault 5 || t.fault 7)

/-- Choose the rows of the line whose row-0 tick has come (R252): rows by column (8 for none) and the new pointers. -/
def Tile.chooseRows (t : Tile) : List Nat × List Nat :=
  let ps := if t.ptrs = [] then startPtrs else t.ptrs
  let rows := (List.range 4096).map (fun c => (nextRow (t.maskOf c) (ps.getD c 0)).getD 8)
  (rows, List.zipWith (fun r q => if r = 8 then q else r) rows ps)

/-- Loads that have taken effect no longer carry a line. -/
def Tile.settle (t : Tile) (l : TileLoad) : TileLoad := if t.pendingLoad l then l else { l with line := none }

/-- The tick of the current line at an authorised tile: loads take effect, the clamp state is applied, rows are chosen, drops
fire, and lines whose last row has fired leave (R211, R252, R286, R198). The wait of R213 ends at the first tick whose packet the tile
holds (DEDUCED, log 88). -/
def Tile.fireTick (t0 : Tile) (cyc : Nat) : Tile :=
  let t : Tile := { t0 with clampEff := t0.clamp, masks := t0.masks.map t0.settle, trims := t0.trims.map t0.settle }
  let now := t.held.find? (fun k => k.line == t.cur)
  let t1 : Tile := match now with
    | none => if ¬ t.waiting ∧ ¬ t.lastSeen then t.raise 1 0xFF else t
    | some k =>
      if t.mayStart then
        let (rows, ps) := t.chooseRows
        { t with ptrs := ps, firing := true, waiting := false,
                 held := t.held.map (fun x => if x.line = k.line then { x with rows := some rows } else x) }
      else { t with held := t.held.filter (fun x => x.line != k.line), waiting := false }
  let ds := (t1.held.map t1.lineDrops).flatten
  { t1 with fired := ds, lastDropCyc := if ds = [] then t1.lastDropCyc else some cyc,
            held := t1.held.filter (fun k => !(k.rows.isSome && Nat.ble (7 * t1.rowK) (lineDist t1.cur k.line))) }

/-- A tick at a tile. On a port that is not authorised nothing fires. -/
def State.tileTick (s : State) (p slot line phase : Nat) (auth : Bool) : State :=
  let t0 : Tile := { s.tile p slot with reports := [], fired := [] }
  let t1 : Tile := { t0 with cur := line }
  let t2 := if line = (t0.cur + 1) % 2 ^ 24 then t1 else t1.raise 2 0xFF
  let miss := if auth = s.authorised p then 0 else t2.authMiss + 1
  let t3 : Tile := { t2 with authMiss := miss, missed := 0, ticks := (s.time.cyc :: t2.ticks).take 9,
                             fireAt16 := (t2.delay16 : Int) - phase }
  let g := Config.stopGroup p slot s.time.cyc
  let t4 := if 2 ≤ miss then (t3.dropFiring s.time.cyc).raise 6 g else if s.authorised p then t3.fireTick s.time.cyc else t3
  let t5 : Tile := if line % 64 = 2 * slot then { t4 with reports := t4.reports ++ [t4.tempReport] } else t4
  s.setTile p slot t5

def execTickReceived (p : Fin 24) (slot : Fin 24) (line : BitVec 24) (phase : BitVec 8) (auth : Bool) (s : State) : Out :=
  finish (if (s.tile p slot).present then s.tileTick p slot line.toNat phase.toNat auth else s)

/-- A missed TICK (R209): it fires one mean period after the last; a second in succession drops firing. -/
def State.tileMissed (s : State) (p slot : Nat) : State :=
  let t0 : Tile := { s.tile p slot with reports := [], fired := [] }
  if 1 ≤ t0.missed then
    s.setTile p slot ((({ t0 with missed := t0.missed + 1 } : Tile).dropFiring s.time.cyc).raise 3 (Config.stopGroup p slot s.time.cyc))
  else
    let t1 := ({ t0 with cur := (t0.cur + 1) % 2 ^ 24, missed := 1 } : Tile).raise 2 0xFF
    s.setTile p slot (if s.authorised p then t1.fireTick s.time.cyc else t1)

def execTileTickMissed (p : Fin 24) (slot : Fin 24) (s : State) : Out :=
  finish (if (s.tile p slot).present then s.tileMissed p slot else s)

/-! ### Authority (R221, R297) -/

/-- Change every tile of a port's module. -/
def State.mapTiles (s : State) (p : Nat) (f : Nat → Tile → Tile) : State :=
  (List.range 24).foldl (fun s k => if (s.tile p k).present then s.setTile p k (f k (s.tile p k)) else s) s

/-- A port ceases to be authorised, or falls silent: every tile drops firing (R221, R297). -/
def State.authorityLost (s : State) (p : Nat) : State :=
  ({ s with heads := { s.heads with auth := s.heads.auth.set p false } }).mapTiles p
    (fun k t => ({ t with reports := [] } : Tile).dropLink s.time.cyc (Config.stopGroup p k s.time.cyc))

def execTileAuthorityLost (p : Fin 24) (s : State) : Out := finish (s.authorityLost p)

def execPortAuthorised (p : Fin 24) (s : State) : Out :=
  finish { s with heads := { s.heads with auth := s.heads.auth.set p true } }

/-! ### Temperature (R283 to R290) -/

/-- The flags after a sample, SHUT first, then CLAMP, then WARN (R285); a sample that reaches SHUT drops firing (R288). -/
def Tile.sample (t0 : Tile) (p slot cyc : Nat) (tMax tMean : Int) : Tile :=
  let t : Tile := { t0 with tMax := tMax, tMean := tMean }
  let hyst := t.level p slot 3
  let shutNow := decide (t.level p slot 2 ≤ tMax)
  let t1 : Tile := { t with
    shut := t.shut || shutNow
    clamp := shutNow || decide (t.level p slot 1 ≤ tMax) || (t.clamp && !decide (tMax < t.level p slot 1 - hyst))
    warn := shutNow || decide (t.level p slot 0 ≤ tMax) || (t.warn && !decide (tMax < t.level p slot 0 - hyst))
    below := decide (tMean < t.level p slot 4) || (t.below && !decide (t.level p slot 4 + hyst ≤ tMean)) }
  if shutNow ∧ ¬ t.fault 4 then
    (t1.dropFiring cyc).raise 4 (if t1.firing then Config.stopGroup p slot cyc else 0xFF)
  else t1

def execTileTempSample (p : Fin 24) (slot : Fin 24) (tMax tMean : BitVec 16) (s : State) : Out :=
  finish (if (s.tile p slot).present then
      s.setTile p slot (({ s.tile p slot with reports := [] } : Tile).sample p slot s.time.cyc tMax.toInt tMean.toInt)
    else s)

def execTileWarmHoldExpired (p : Fin 24) (slot : Fin 24) (s : State) : Out :=
  finish (if s.authorised p then s else s.setTile p slot { s.tile p slot with duty := 0 })

/-! ### Timers and faults of the module (R216, R218) -/

def execTileReportTimer (p : Fin 24) (slot : Fin 24) (fault : Bool) (s : State) : Out :=
  finish (
    let t := s.tile p slot
    if ¬ t.present then s
    else if fault then s.setTile p slot { t with reports := ((List.range 8).filter t.fault).map t.faultReport }
    else s.setTile p slot { t with reports := [t.tempReport] })

/-- Code 5 (drive stage) or 7 (corrupted packet): latched, firing dropped, reported (R218). -/
def State.tileBroken (s : State) (p slot : Nat) (buffer : Bool) : State :=
  let t : Tile := { s.tile p slot with reports := [] }
  s.setTile p slot ((t.dropFiring s.time.cyc).raise (if buffer then 7 else 5) (Config.stopGroup p slot s.time.cyc))

def execHeaterDriveOrBufferFault (p : Fin 24) (slot : Fin 24) (buffer : Bool) (s : State) : Out :=
  finish (if (s.tile p slot).present then s.tileBroken p slot buffer else s)

end Sys2Proof.Machine
end

