-- ==== Sys2Proof/Machine/Ledger.lean ====
section
/-!
DEFINITION. The nozzle ledger's working copy (07_nozzle_ledger.md): nozzle states, exceptions, suspects, masks and their
effective lines, thin and dead columns, MRAM words, adoption, and the start of a sweep.
-/
namespace Sys2Proof.Machine

/-- Replace the ledger. -/
def State.setLdg (s : State) (x : Ledger) : State := { s with ldg := x }

/-! ### Nozzles and heaters (R233, R243) -/

/-- Keys of a nozzle, a heater, a local column. -/
def nozKey (g n : Nat) : Nat := g * 32768 + n
def heatKey (g h : Nat) : Nat := g * 65536 + h
def colKey (g c : Nat) : Nat := g * 4096 + c

/-- Nozzle states (R243). -/
def nzOK : Nat := 0
def nzSUSPECT : Nat := 1
def nzTEMP : Nat := 2
def nzRETIRED : Nat := 3

/-- A nozzle's state. -/
def State.noz (s : State) (g n : Nat) : Nat := s.ldg.nozzles.get (nozKey g n) nzOK

/-- Why a heater is retired: 0 in service, 1 open, 2 short. -/
def State.heater (s : State) (g h : Nat) : Nat := s.ldg.heaters.get (heatKey g h) 0

/-- A tile record. -/
def State.trec (s : State) (g : Nat) : TileRec := s.ldg.recs.get g TileRec.reset

/-- A map without a key whose value is the default. -/
def AMap.put0 (m : AMap Nat) (k v : Nat) : AMap Nat := if v = 0 then m.del k else m.set k v

/-! ### MRAM words (R265, R266, R269, R270) -/

/-- Word address of a nozzle's state, an exception entry, a suspect entry, a tile record. -/
def nozWord (g n : Nat) : Nat := 0x300000 + 8192 * g + 8 * (n / 32)
def excWord (i : Nat) : Nat := 0x10000 + 8 * (i / 2)
def susWord (i : Nat) : Nat := 0x100000 + 8 * i
def recAddr (g : Nat) : Nat := 0x1000 + 64 * g

/-- The 32 bits of an exception entry (R266). -/
def excBits (x : Option Exc) : Nat :=
  match x with
  | none => 0
  | some e => e.g + 2 ^ 9 * e.n + 2 ^ 24 * e.heater + 2 ^ 25 * e.cause + 2 ^ 31

/-- The 64 bits of a suspect entry (R266). -/
def susBits (x : Option Suspect) : Nat :=
  match x with
  | none => 0
  | some e => e.g + 2 ^ 9 * e.n + 2 ^ 24 * e.count + 2 ^ 27 + 2 ^ 32 * e.first

/-- Nozzles of a position in a state. -/
def State.countNoz (s : State) (g st : Nat) : Nat := (s.ldg.nozzles.filter (fun e => e.1 / 32768 == g && e.2 == st)).length

/-- Is a nozzle a single-heater nozzle: exactly one of its heaters is retired? -/
def State.single (s : State) (g n : Nat) : Bool := (s.heater g (2 * n) != 0) != (s.heater g (2 * n + 1) != 0)

/-- Single-heater nozzles of a position: nozzles with exactly one retired heater. -/
def State.countSingle (s : State) (g : Nat) : Nat :=
  (s.ldg.heaters.filter (fun e => e.1 / 65536 == g && s.single g (e.1 % 65536 / 2))).length

/-- The 64 bytes of a tile record (R266); a position never used holds zeros. -/
def State.recImage (s : State) (g : Nat) : List Byte :=
  let r := s.trec g
  if ¬ r.used then List.replicate 64 0
  else
    let b := leBytes 1 1 ++ leBytes 1 (1 + 2 * b2n r.baseValid) ++ leBytes 10 r.ident ++ leBytes 2 r.rNom ++ leBytes 2 r.base ++
      leBytes 4 r.adopted ++ leBytes 4 r.sweeps ++ leBytes 2 r.opens ++ leBytes 2 r.shorts ++ leBytes 2 (s.countNoz g nzRETIRED) ++
      leBytes 2 (s.countSingle g) ++ leBytes 4 r.suspicions ++ leBytes 24 0
    b ++ leBytes 4 (crc32c b)

/-- The 64 bytes of the ledger header (R265). -/
def ledgerHeader : List Byte :=
  let b := leBytes 4 0x47444C4E ++ leBytes 4 1 ++ leBytes 2 512 ++ leBytes 50 0
  b ++ leBytes 4 (crc32c b)

/-- The odometer step (LDG_ODO_STEP; 0 acts as 1). -/
def State.odoStep (s : State) : Nat := max 1 (s.get LDG_ODO_STEP_METRES)

/-- The metres in word `k` of the odometer ring (R268): the latest multiple of the step that falls there. -/
def State.odoWord (s : State) (k : Nat) : Nat :=
  let q := s.ldg.metres / s.odoStep
  (q - (q + 64 - k % 64) % 64) * s.odoStep

/-- The 8 bytes of a ledger word as the working copy has them. -/
def State.wordImage (s : State) (a : Nat) : List Byte :=
  if a < 0x40 then slice ledgerHeader a 8
  else if 0x100 ≤ a ∧ a < 0x300 then
    leBytes 4 (s.odoWord ((a - 0x100) / 8)) ++ leBytes 4 (0xFFFFFFFF - s.odoWord ((a - 0x100) / 8) % 2 ^ 32)
  else if 0x1000 ≤ a ∧ a < 0x9000 then slice (s.recImage ((a - 0x1000) / 64)) (a % 64) 8
  else if 0x10000 ≤ a ∧ a < 0x50000 then
    let i := 2 * ((a - 0x10000) / 8)
    let f := fun k => excBits (if s.ldg.exc.has k then some (s.ldg.exc.get k { g := 0, n := 0, heater := 0, cause := 0 }) else none)
    leBytes 4 (f i) ++ leBytes 4 (f (i + 1))
  else if 0x100000 ≤ a ∧ a < 0x200000 then
    let i := (a - 0x100000) / 8
    leBytes 8 (susBits (if s.ldg.sus.has i then some (s.ldg.sus.get i { g := 0, n := 0, count := 0, first := 0 }) else none))
  else if 0x300000 ≤ a ∧ a < 0x700000 then
    let g := (a - 0x300000) / 8192
    let w := (a - 0x300000) % 8192 / 8
    leBytes 8 ((List.range 32).foldl (fun v k => v + s.noz g (32 * w + k) * 4 ^ k) 0)
  else leBytes 8 0

/-- Show the words held outside the write window (R270); WRITE_HELD is posted once. -/
def State.showHeld (s : State) : State :=
  if s.on LDG_STATUS_IN_WINDOW ∨ s.ldg.dirty = [] then s
  else
    let s1 := (s.putB LDG_STATUS_PENDING true).put LDG_PENDING_COUNT_WORDS s.ldg.dirty.length
    if s.ldg.writeHeld then s1
    else ((s1.setLdg { s1.ldg with writeHeld := true }).event' Ev.WRITE_HELD [s.get THM_STATUS_T_DIE]).cause LDG_IRQ_CAUSE_WRITE_HELD

/-- A ledger word has changed: it waits for MRAM, and its new content is journalled (R269, R468). -/
def State.touch (s : State) (a : Nat) (eff : Option Nat) : State :=
  ((if s.ldg.dirty.contains a then s else s.setLdg { s.ldg with dirty := s.ldg.dirty ++ [a] }).jrn
    (.ledger a (s.wordImage a) eff)).showHeld

/-- A tile record has changed. -/
def State.touchRec (s : State) (g : Nat) : State := (List.range 8).foldl (fun s i => s.touch (recAddr g + 8 * i) none) s

/-- Replace a tile record. -/
def State.setRec (s : State) (g : Nat) (r : TileRec) : State := (s.setLdg { s.ldg with recs := s.ldg.recs.set g r }).touchRec g

/-! ### Effective lines (R254, R256) -/

/-- The effective line of a change decided now. -/
def State.effLine (s : State) : Nat :=
  if s.clk = clkRunning ∨ s.clk = clkLocking then s.time.line + 1 + s.get LDG_LEAD_LINES else s.time.line + 1

/-- Is `a` at or after `b`, as 40-bit press lines (R53)? -/
def lineGe (a b : Nat) : Bool := Nat.blt ((a + 2 ^ 40 - b % 2 ^ 40) % 2 ^ 40) (2 ^ 39)

/-- The job line a plane fires at a press line. -/
def State.jobLineAt (s : State) (q line : Nat) : Option Nat :=
  match s.press.job with
  | none => none
  | some j => some (((j.line : Int) + ((line : Int) - s.time.line - 1) - s.offs q).toNat)

/-! ### Masks and dead columns (R249 to R262, R43) -/

/-- Is a nozzle usable (R250)? -/
def State.usable (s : State) (g n : Nat) : Bool :=
  s.noz g n == nzOK &&
  (match s.heater g (2 * n), s.heater g (2 * n + 1) with
   | 0, 0 => true
   | 0, _ => s.ldg.need.getD (g / 64) 3 == 1
   | _, 0 => s.ldg.need.getD (g / 64) 3 == 2
   | _, _ => false)

/-- The row-usable mask of a column by the working copy (R250). -/
def State.maskNow (s : State) (g c : Nat) : Nat :=
  (List.range 8).foldl (fun a r => a + 2 ^ r * b2n (s.usable g (8 * c + r))) 0

/-- Usable rows of a mask. -/
def rowsOf (mask : Nat) : Nat := ((List.range 8).filter (fun r => bit mask r)).length

/-- Does a pending change cover a column of a position? -/
def MaskChange.covers (x : MaskChange) (g c : Nat) : Bool := x.g == g && Nat.ble x.first c && Nat.blt c (x.first + x.masks.length)

/-- The mask of a column that governs the line fired at a press line: the last change that has taken effect by then. -/
def State.maskAt (s : State) (g c line : Nat) : Nat :=
  match (s.ldg.changes.filter (fun x => x.covers g c && x.sent && lineGe line x.lEff)).reverse.head? with
  | some x => x.masks.getD (c - x.first) 0xFF
  | none => s.ldg.masks.get (colKey g c) 0xFF

/-- The mask of a column as last decided. -/
def State.maskDecided (s : State) (g c : Nat) : Nat :=
  match (s.ldg.changes.filter (fun x => x.covers g c)).reverse.head? with
  | some x => x.masks.getD (c - x.first) 0xFF
  | none => s.ldg.masks.get (colKey g c) 0xFF

/-- The mask of a column by the loads sent so far. -/
def State.maskSent (s : State) (g c : Nat) : Nat :=
  match (s.ldg.changes.filter (fun x => x.covers g c && x.sent)).reverse.head? with
  | some x => x.masks.getD (c - x.first) 0xFF
  | none => s.ldg.masks.get (colKey g c) 0xFF

/-- T_thin of a position at the last rebuild. -/
def State.thinOf (s : State) (g : Nat) : Nat := s.ldg.thin.get g 0

/-- Is a tile column with a mask dead (R259)? -/
def State.deadMask (s : State) (g mask : Nat) : Bool := rowsOf mask == 0 || Nat.blt (rowsOf mask) (s.thinOf g)

/-- The tile columns of a plane column: tile index and local column; a dovetail column has two, its right tile first (R38). -/
def tileCols (tiles c : Nat) : List (Nat × Nat) :=
  (if c / 4032 < tiles then [(c / 4032, c % 4032)] else []) ++
  (if c % 4032 < 64 ∧ 0 < c / 4032 ∧ c / 4032 ≤ tiles then [(c / 4032 - 1, c % 4032 + 4032)] else [])

/-- Tiles of a plane and its ROUTE_DEAD: as sampled while a job is active, else as written (R44). -/
def State.planeTiles (s : State) (q : Nat) : Nat :=
  match s.press.job with
  | some j => (j.cfg q).tiles
  | none => s.get (PLN_GEOM_TILES q)
def State.routeDead (s : State) (q : Nat) : Bool :=
  match s.press.job with
  | some j => (j.cfg q).routeDead
  | none => s.on (PLN_STITCH_CTRL_ROUTE_DEAD q)

/-- Is a plane column dead for the line fired at a press line (R43, R259)? -/
def State.planeDead (s : State) (q c line : Nat) : Bool :=
  let d := fun (x : Nat × Nat) => s.deadMask (64 * q + x.1) (s.maskAt (64 * q + x.1) x.2 line)
  match tileCols (s.planeTiles q) c with
  | [x, y] => if s.routeDead q then d x && d y else d x || d y
  | [x] => d x
  | _ => false

/-- Dead plane columns of a plane in force (LDG_DEAD_COLS). -/
def State.deadCols (s : State) (q : Nat) : Nat :=
  ((List.range (planeWidth (s.planeTiles q))).filter (fun c => s.planeDead q c s.time.line)).length

/-- Key of a plane column's calibration data. -/
def pcKey (q c : Nat) : Nat := q * 2 ^ 18 + c

/-- Post COLUMN_DEAD or COLUMN_REVIVED of a tile column whose dead status changes; the plane column's accumulators are cleared
(R260, R324). -/
def State.columnEvent (s : State) (g c newMask : Nat) (oldDead : Bool) (eff : Nat) : State :=
  let dead := s.deadMask g newMask
  if dead = oldDead then s
  else
    let k := pcKey (g / 64) (4032 * (g % 64) + c)
    let s1 := (s.event (if dead then Ev.COLUMN_DEAD else Ev.COLUMN_REVIVED) g
      [c, 4032 * (g % 64) + c, rowsOf newMask, s.thinOf g, eff]).cause LDG_IRQ_CAUSE_COLUMN
    { s1 with cal := { s1.cal with acc := s1.cal.acc.del k, short := s1.cal.short.del k } }

/-- The changed columns of a list as contiguous runs (first column, masks). -/
def colRuns : List (Nat × Nat) → List (Nat × List Nat)
  | [] => []
  | (c, m) :: r =>
    match colRuns r with
    | [] => [(c, [m])]
    | (c', ms) :: t => if c + 1 = c' then (c, m :: ms) :: t else (c, [m]) :: (c', ms) :: t

/-- The MASK_LOAD payload (R210). -/
def maskPayload (first : Nat) (masks : List Nat) : List Byte :=
  leBytes 2 first ++ leBytes 2 masks.length ++ leBytes 4 0 ++ masks.map (BitVec.ofNat 8)

/-- Put masks into force. -/
def State.forceMasks (s : State) (g first : Nat) (masks : List Nat) : State :=
  s.setLdg { s.ldg with masks := (List.range masks.length).foldl (fun m i =>
    if masks.getD i 0xFF = 0xFF then m.del (colKey g (first + i)) else m.set (colKey g (first + i)) (masks.getD i 0xFF)) s.ldg.masks }

/-- Timed changes of a position that have not taken effect. -/
def State.sentChanges (s : State) (g : Nat) : List MaskChange := s.ldg.changes.filter (fun x => x.g == g && x.sent)

/-- Send a change's MASK_LOAD for its effective line, shifted by the tile's one-tick shift (R255). -/
def State.sendChange (s : State) (x : MaskChange) : State :=
  match s.entryAt x.g with
  | none => s
  | some e => s.sendCtl e.port e.slot opMASK_LOAD false (((x.lEff : Int) + (s.tileTime e).1) % 2 ^ 24).toNat
      (maskPayload x.first x.masks) x.jobLine

/-- Post NOZZLE_RETIRED. -/
def State.nozzleRetired (s : State) (g n cause eff : Nat) : State :=
  (s.event Ev.NOZZLE_RETIRED g [n, cause, eff]).cause LDG_IRQ_CAUSE_NOZZLE_RETIRED

/-- Post NOZZLE_RETIRED for a list of nozzles and causes. -/
def State.reportRetired (s : State) (g eff : Nat) (ret : List (Nat × Nat)) : State := ret.foldl (fun s x => s.nozzleRetired g x.1 x.2 eff) s

/-- What a run of changed masks brings at its effective line: the columns that become dead or stop being dead, and the nozzles retired
(R256, R260). -/
def State.runEvents (s : State) (g : Nat) (r : Nat × List Nat) (ret : List (Nat × Nat)) (eff : Nat) : State :=
  ((List.range r.2.length).foldl (fun s' i =>
    s'.columnEvent g (r.1 + i) (r.2.getD i 0xFF) (s.deadMask g (s.maskSent g (r.1 + i))) eff) s).reportRetired g eff ret

/-- Carry out one run of changed masks with the nozzles retired in it: at once with the clock stopped, else timed, or held behind two timed
loads until the effective line is chosen (R254 to R257). -/
def State.changeRun (s : State) (g : Nat) (r : Nat × List Nat) (ret : List (Nat × Nat)) : State :=
  if s.clk = clkRunning ∨ s.clk = clkLocking then
    let sent := Nat.blt (s.sentChanges g).length 2
    let x : MaskChange := { g := g, first := r.1, masks := r.2, lEff := s.effLine, jobLine := s.jobLineAt (g / 64) s.effLine,
                            sent := sent, ret := if sent then [] else ret }
    let s0 := if sent then s.runEvents g r ret x.lEff else s
    let s1 := s0.setLdg { s0.ldg with changes := s0.ldg.changes ++ [x] }
    if sent then s1.sendChange x else s1
  else
    let s1 := (s.runEvents g r ret s.effLine).forceMasks g r.1 r.2
    match s.entryAt g with
    | none => s1
    | some e => s1.sendNow e.port e.slot opMASK_LOAD (maskPayload r.1 r.2)

/-- The usability of some columns of a position may have changed, with nozzles retired and their causes: masks are decided, changes
reported, loads sent. -/
def State.remask (s : State) (g : Nat) (cols : List Nat) (ret : List (Nat × Nat)) : State :=
  let ch := (cols.filter (fun c => s.maskNow g c != s.maskDecided g c)).map (fun c => (c, s.maskNow g c))
  let s1 := s.reportRetired g s.effLine (ret.filter (fun x => !ch.any (fun c => c.1 == x.1 / 8)))
  (colRuns ch).foldl (fun s r =>
    s.changeRun g r (ret.filter (fun x => Nat.ble r.1 (x.1 / 8) && Nat.blt (x.1 / 8) (r.1 + r.2.length)))) s1

/-- Changes whose effective line is the press line just ticked come into force (R255). -/
def State.applyChanges (s : State) : State :=
  let due := s.ldg.changes.filter (fun x => x.sent && lineGe s.time.line x.lEff)
  due.foldl (fun s x => s.forceMasks x.g x.first x.masks)
    (s.setLdg { s.ldg with changes := s.ldg.changes.filter (fun x => !(x.sent && lineGe s.time.line x.lEff)) })

/-- Send the held changes of a position for which there is room, each with a new effective line (R257). -/
def State.releaseHeld (s : State) (g : Nat) : Nat → State
  | 0 => s
  | n + 1 =>
    match s.ldg.changes.find? (fun x => x.g == g && !x.sent) with
    | none => s
    | some x =>
      if 2 ≤ (s.sentChanges g).length then s
      else
        State.releaseHeld ((s.setLdg { s.ldg with changes := s.ldg.changes.filter (fun z => z != x) }).changeRun g (x.first, x.masks) x.ret) g n

/-- The heater need of a plane's drop table (R249): bit 0 A, bit 1 B. -/
def needOf (table : Nat) : Nat :=
  let sizes := (List.range 8).map (fun i => bits table (2 * i + 1) (2 * i))
  b2n (sizes.any (fun z => z == 1 || z == 3)) + 2 * b2n (sizes.any (fun z => z == 2 || z == 3))

/-! ### Nozzle changes (R244 to R248) -/

/-- Set a nozzle's state. -/
def State.setNoz (s : State) (g n st eff : Nat) : State :=
  (s.setLdg { s.ldg with nozzles := s.ldg.nozzles.put0 (nozKey g n) st }).touch (nozWord g n) (s.jobLineAt (g / 64) eff)

/-- The suspect entry of a nozzle: its index and content. -/
def State.suspectOf (s : State) (g n : Nat) : Option (Nat × Suspect) := s.ldg.sus.find? (fun e => e.2.g == g && e.2.n == n)

/-- Has a suspect entry's window expired (R246)? -/
def State.expired (s : State) (e : Suspect) : Bool := Nat.blt (e.first + s.get LDG_SUSPECT_CFG_W) s.ldg.metres

/-- The lowest index of a list of entries that is not used, from `i` on. -/
def firstGap {α : Type} : AMap α → Nat → Nat
  | [], i => i
  | e :: r, i => if e.1 = i then firstGap r (i + 1) else i

/-- A free suspect entry: the lowest that is unused or expired (R246); none when the table is full (R247). -/
def State.freeSuspect (s : State) : Option Nat :=
  let i := firstGap (s.ldg.sus.filter (fun e => !s.expired e.2)) 0
  if i < 131072 then some i else none

/-- Write or free a suspect entry. -/
def State.setSuspect (s : State) (i : Nat) (x : Option Suspect) : State :=
  (s.setLdg { s.ldg with sus := match x with | some e => s.ldg.sus.set i e | none => s.ldg.sus.del i }).touch (susWord i) none

/-- Free the suspect entry of a nozzle. -/
def State.dropSuspect (s : State) (g n : Nat) : State :=
  match s.suspectOf g n with
  | none => s
  | some (i, _) => s.setSuspect i none

/-- Put accepted evidence into the suspect table (R246, R247): the state and the count after it. -/
def State.suspect (s : State) (g n : Nat) : State × Nat :=
  let fresh : Suspect := { g := g, n := n, count := 1, first := s.ldg.metres }
  match s.suspectOf g n with
  | some (i, e) =>
    if s.expired e then (s.setSuspect i (some fresh), 1)
    else (s.setSuspect i (some { e with count := min 7 (e.count + 1) }), min 7 (e.count + 1))
  | none =>
    match s.freeSuspect with
    | some i => ((s.setLdg { s.ldg with susFull := false }).setSuspect i (some fresh), 1)
    | none =>
      let s1 := s.addSat LDG_SUSPECT_FULL_COUNT 1
      (if s.ldg.susFull then s1
       else ((s1.setLdg { s1.ldg with susFull := true }).event' Ev.SUSPECT_FULL [s.ldg.sus.length]).cause LDG_IRQ_CAUSE_SUSPECT_FULL, 0)

/-- K of R246 (0 acts as 1). -/
def State.suspectK (s : State) : Nat := max 1 (s.get LDG_SUSPECT_CFG_K)

/-- Does an observed line lie at or after the effective line of the plane's last PURGE_DONE (R245)? -/
def State.afterPurge (s : State) (g line : Nat) : Bool :=
  match s.ldg.purgeLine.getD (g / 64) none with
  | none => true
  | some l => lineGe line l

/-- Misfire evidence for a nozzle, with the press line of the observed line (R244, R245). -/
def State.evidence (s : State) (g n line : Nat) : State :=
  if s.noz g n != nzOK || !s.afterPurge g line then s.addSat LDG_EVID_IGNORED_COUNT 1
  else
    let eff := s.effLine
    let (s1, k) := s.suspect g n
    let s2 := s1.setRec g { s1.trec g with suspicions := min 0xFFFFFFFF ((s1.trec g).suspicions + 1) }
    if s.suspectK ≤ k then (s2.setNoz g n nzRETIRED eff).remask g [n / 8] [(n, 2)]
    else (s2.setNoz g n nzSUSPECT eff).remask g [n / 8] []

/-- The triggers of R244 that a command brings to one nozzle. -/
inductive NozTrigger where
  | purge | setTemp | clearTemp | retire | restore | secondHeater
  deriving DecidableEq, Repr

/-- One nozzle under a trigger; the masks are decided afterwards. -/
def State.nozzleTrigger (s : State) (t : NozTrigger) (g n : Nat) : State :=
  let st := s.noz g n
  let eff := s.effLine
  match t with
  | .purge => if st = nzSUSPECT then s.setNoz g n nzOK eff else s
  | .setTemp => if st = nzOK ∨ st = nzSUSPECT then s.setNoz g n nzTEMP eff else s
  | .clearTemp => if st = nzTEMP then s.setNoz g n nzOK eff else s
  | .retire | .secondHeater => if st ≠ nzRETIRED then s.setNoz g n nzRETIRED eff else s
  | .restore => if st = nzRETIRED then (s.setNoz g n nzOK eff).dropSuspect g n else s

/-- The nozzles of a list that a trigger retires, with the cause NOZZLE_RETIRED names (R244). -/
def State.retiredBy (s : State) (t : NozTrigger) (g : Nat) (ns : List Nat) : List (Nat × Nat) :=
  match t with
  | .retire => (ns.filter (fun n => s.noz g n != nzRETIRED)).map (fun n => (n, 3))
  | .secondHeater => (ns.filter (fun n => s.noz g n != nzRETIRED)).map (fun n => (n, 1))
  | _ => []

/-- A trigger for the nozzles of a range (R274). -/
def State.nozzleRange (s : State) (t : NozTrigger) (g first count : Nat) : State :=
  let ns := (List.range count).map (fun i => first + i)
  (ns.foldl (fun s n => s.nozzleTrigger t g n) s).remask g
    ((List.range ((first + count - 1) / 8 + 1 - first / 8)).map (fun i => first / 8 + i)) (s.retiredBy t g ns)

/-- PURGE_DONE for a plane (R244): every SUSPECT nozzle of the plane returns to OK at one effective line. -/
def State.purgePlane (s : State) (q eff : Nat) : State :=
  let ns := (s.ldg.nozzles.filter (fun e => e.1 / 32768 / 64 == q && e.2 == nzSUSPECT)).map (·.1)
  let s1 := s.setLdg { s.ldg with purgeLine := s.ldg.purgeLine.set q (some eff) }
  let s2 := ns.foldl (fun s k => s.nozzleTrigger .purge (k / 32768) (k % 32768)) s1
  ((ns.map (fun k => k / 32768)).eraseDups).foldl (fun s g =>
    s.remask g (((ns.filter (fun k => k / 32768 == g)).map (fun k => k % 32768 / 8)).eraseDups) []) s2

/-! ### Heaters (R238, R239, R267) -/

/-- A heater is found open (1) or shorted (2) and retires for good (R239): its nozzle becomes a single-heater nozzle in the
exception list, or RETIRED when its other heater is retired or the list is full. -/
def State.retireHeater (s : State) (g h cause : Nat) : State :=
  let n := h / 2
  let other := s.heater g (if h % 2 = 0 then h + 1 else h - 1)
  let r := s.trec g
  let s1 := (s.setLdg { s.ldg with heaters := s.ldg.heaters.set (heatKey g h) cause,
                                   trims := s.ldg.trims.del (heatKey g h) }).setRec g
    { r with opens := if cause = 1 then min 0xFFFF (r.opens + 1) else r.opens
             shorts := if cause = 2 then min 0xFFFF (r.shorts + 1) else r.shorts }
  let i := firstGap s1.ldg.exc 0
  if other ≠ 0 ∨ 65536 ≤ i then (s1.nozzleTrigger .secondHeater g n).remask g [n / 8] (s1.retiredBy .secondHeater g [n])
  else
    ((s1.setLdg { s1.ldg with exc := s1.ldg.exc.set i { g := g, n := n, heater := h % 2, cause := cause } }).touch (excWord i)
      (s1.jobLineAt (g / 64) s1.effLine)).remask g [n / 8] []

/-- The drift test of R238, in code × 16: |c - B| > 0.08 B. -/
def drifts (c base : Nat) : Bool := decide (8 * base < 100 * (16 * (c : Int) - base).natAbs)

/-- Count in a running sweep. -/
def State.sweepCount (s : State) (f : SweepRun → SweepRun) : State :=
  match s.ldg.sweep with
  | none => s
  | some w => s.setLdg { s.ldg with sweep := some (f w) }

/-- Classify one measured code (R238, R239). -/
def State.classify (s : State) (g h c : Nat) : State :=
  let s0 := s.setLdg { s.ldg with codes := s.ldg.codes.set (heatKey g h) c }
  let r := s.trec g
  if 3073 ≤ c then
    let s1 := s0.sweepCount (fun w => { w with opens := w.opens + 1 })
    if s.heater g h = 0 then s1.retireHeater g h 1 else s1
  else if c ≤ 1228 then
    let s1 := s0.sweepCount (fun w => { w with shorts := w.shorts + 1 })
    if s.heater g h = 0 then s1.retireHeater g h 2 else s1
  else if r.baseValid ∧ drifts c r.base then s0.sweepCount (fun w => { w with drift := w.drift + 1 })
  else s0

/-! ### Changed tiles (R263, R264) -/

/-- The declaration received since reset from the tile at a position. -/
def State.declAt (s : State) (g : Nat) : Option DescBits :=
  match s.entryAt g with
  | none => none
  | some e => if s.on (HLK_SLOT_STATUS_DECL_BAD e.port e.slot) then none else (s.ctl e.port e.slot).decl

/-- Zero the trims and clear the accumulators of the plane columns a tile covers (R315). -/
def State.zeroColumns (s : State) (g : Nat) : State :=
  let lo := pcKey (g / 64) (4032 * (g % 64))
  let out := fun (k : Nat) => Nat.blt k lo || Nat.ble (lo + 4096) k
  { s with cal := { s.cal with cols := s.cal.cols.filter (fun e => out e.1), acc := s.cal.acc.filter (fun e => out e.1),
                               short := s.cal.short.filter (fun e => out e.1), pend := s.cal.pend.filter (fun e => out e.1) } }

/-- ADOPT of a position with a declaration (R264, R315). -/
def State.adoptTile (s : State) (g : Nat) (d : DescBits) : State :=
  let inG := fun (k : Nat) => k / 32768 == g
  let nz := (s.ldg.nozzles.filter (fun e => inG e.1)).map (fun e => e.1 % 32768)
  let ex := (s.ldg.exc.filter (fun e => e.2.g == g)).map (·.1)
  let su := (s.ldg.sus.filter (fun e => e.2.g == g)).map (·.1)
  let old := (s.trec g).ident
  let s1 := s.setLdg { s.ldg with
    nozzles := s.ldg.nozzles.filter (fun e => !inG e.1)
    heaters := s.ldg.heaters.filter (fun e => !(e.1 / 65536 == g))
    trims := s.ldg.trims.filter (fun e => !(e.1 / 65536 == g))
    codes := s.ldg.codes.filter (fun e => !(e.1 / 65536 == g))
    exc := s.ldg.exc.filter (fun e => !(e.2.g == g))
    sus := s.ldg.sus.filter (fun e => !(e.2.g == g))
    unadopted := s.ldg.unadopted.filter (fun x => x != g) }
  let s2 := (((nz.map (fun n => nozWord g n)) ++ ex.map excWord ++ su.map susWord).eraseDups).foldl (fun s a => s.touch a none) s1
  let s3 := s2.setRec g { TileRec.reset with used := true, ident := declIdent d, rNom := declRNom d, adopted := s.ldg.metres }
  let s4 := (s3.remask g (List.range 4096) []).zeroColumns g
  let s5 := (s4.event Ev.TILE_ADOPTED g [old / 2 ^ 32, declSerial d]).cause LDG_IRQ_CAUSE_TILE
  let s6 := s5.put LDG_STATUS_UNADOPTED s5.ldg.unadopted.length
  match s.entryAt g with
  | none => s6
  | some e => s6.setCtl e.port e.slot { s6.ctl e.port e.slot with adopted := true }

/-- Compare a tile's declaration with its position's record (R263). -/
def State.checkTile (s : State) (e : MapEntry) : State :=
  match s.declAt e.g with
  | none => s
  | some d =>
    if (s.trec e.g).used ∧ (s.trec e.g).ident = declIdent d then
      let s1 := s.setLdg { s.ldg with unadopted := s.ldg.unadopted.filter (fun x => x != e.g) }
      (s1.put LDG_STATUS_UNADOPTED s1.ldg.unadopted.length).setCtl e.port e.slot { s1.ctl e.port e.slot with adopted := true }
    else if s.on LDG_CTRL_AUTO_ADOPT then s.adoptTile e.g d
    else
      let s1 := s.setCtl e.port e.slot { s.ctl e.port e.slot with adopted := false }
      let s2 := s1.setLdg { s1.ldg with unadopted := if s1.ldg.unadopted.contains e.g then s1.ldg.unadopted else s1.ldg.unadopted ++ [e.g] }
      ((s2.put LDG_STATUS_UNADOPTED s2.ldg.unadopted.length).event Ev.TILE_UNADOPTED e.g
        [(s.trec e.g).ident / 2 ^ 32, declSerial d]).cause LDG_IRQ_CAUSE_TILE

/-! ### The rebuild at job take and at LOCKING (R249, R260) -/

/-- T_thin of a position for a period (R27): its tile's F_MAX and its plane's drops per code. -/
def State.thinFor (s : State) (g per table : Nat) : Nat :=
  match s.declAt g with
  | none => 0
  | some d => if declFMax d = 0 then 0 else tThin per (dMax table) (declFMax d)

/-- Rebuild the dead-column list of every plane in use for a period (R260): T_thin anew and, at a job take, the heater need and
every mask by the job's drop tables (R249), which go out with the job-start loads. Every column whose status changes is
reported with the effective line N + 1. -/
def State.rebuildDead (s : State) (per : Nat) (take : Bool) : State :=
  let table := fun (q : Nat) => match s.press.job with
    | some j => (j.cfg q).dropTable
    | none => s.get (PLN_DROP_TABLE_TABLE q)
  let s0 := if take then s.setLdg { s.ldg with
      need := (List.range 8).map (fun q => if s.planeTiles q = 0 then s.ldg.need.getD q 3 else needOf (table q)) } else s
  let masks := fun (g : Nat) => (List.range 4096).map (fun c => if take then s0.maskNow g c else s0.maskDecided g c)
  let s1 := s.entries.foldl (fun a e =>
    let ms := masks e.g
    let a1 := a.setLdg { a.ldg with thin := a.ldg.thin.set e.g (s.thinFor e.g per (table (e.g / 64))) }
    (List.range 4096).foldl (fun a c =>
      a.columnEvent e.g c (ms.getD c 0xFF) (s.deadMask e.g (s.maskDecided e.g c)) (s.time.line + 1)) a1) s0
  if take then
    (s.entries.foldl (fun a e => a.forceMasks e.g 0 (masks e.g)) s1).setLdg
      { (s.entries.foldl (fun a e => a.forceMasks e.g 0 (masks e.g)) s1).ldg with changes := [] }
  else s1

/-! ### The odometer (R268) -/

/-- Plane 0 has advanced by one job line: 254 x (fine lines per line) in units of 1/24,000,000 m. -/
def State.odometer (s : State) (mode : Nat) : State :=
  let f := s.ldg.frac + 254 * fineOf mode
  if f < 24000000 then s.setLdg { s.ldg with frac := f }
  else
    let m := s.ldg.metres + 1
    let s1 := (s.setLdg { s.ldg with frac := f - 24000000, metres := m }).put LDG_ODOMETER_METRES m
    if m % s.odoStep = 0 then s1.touch (0x100 + 8 * (m / s.odoStep % 64)) none else s1

/-! ### The start of a sweep (R235) -/

/-- The RES_SWEEP payload of a full sweep (R210, R235). -/
def sweepPayload (first count : Nat) : List Byte := leBytes 4 first ++ leBytes 4 count

/-- Do the conditions of R235 hold for a set of planes? -/
def State.sweepOk (s : State) (planes : Nat) : Bool :=
  (s.clk == clkStopped || s.clk == clkHalted) &&
  (List.range 8).all (fun q => !bit planes q || !s.on (PLN_KEEPWET_CAPPED q)) &&
  (s.entries.filter (fun e => bit planes (e.g / 64))).all (fun e => s.ust (.port (Fin.ofNat 24 e.port)) == .on) &&
  s.ldg.sweep.isNone

/-- Start a sweep: RES_SWEEP goes to every tile that is present and not DECL_BAD. -/
def State.sweepStart (s : State) (planes : Nat) : State :=
  let es := s.entries.filter (fun e => bit planes (e.g / 64) && s.slotPresent e.port e.slot &&
    !s.on (HLK_SLOT_STATUS_DECL_BAD e.port e.slot))
  let s1 := s.setLdg { s.ldg with sweep := some { planes := planes, opens := 0, shorts := 0, drift := 0, limit := 0,
                                                  start := s.time.cyc,
                                                  tiles := es.map (fun e => { g := e.g, port := e.port, slot := e.slot, got := [], naks := 0, failed := false }) } }
  let s2 := ((s1.putB LDG_STATUS_SWEEP_BUSY true).put LDG_SWEEP_STATUS_PLANES planes).putB LDG_SWEEP_STATUS_RUNNING true
  es.foldl (fun s e => s.sendNow e.port e.slot opRES_SWEEP (sweepPayload 0 65536)) s2

/-- Codes a tile of a sweep has delivered. -/
def SweepTile.codes (t : SweepTile) : Nat := t.got.foldl (fun a r => a + r.2) 0

/-- Has every tile of a sweep delivered or failed (R236)? -/
def SweepRun.complete (w : SweepRun) : Bool := w.tiles.all (fun t => t.failed || t.codes == 65536)

end Sys2Proof.Machine
end

