-- ==== Sys2Proof/Machine/Cal.lean ====
section
/-!
DEFINITION. The calibration framework and print-through calibration (09_calibration.md): triggers, runs, their ends, column
trims, band visits, probes, and the end of a resistance sweep (R236 to R242).
-/
namespace Sys2Proof.Machine

/-! ### Channels -/

def chSWEEP : Nat := 0
def chPRINT : Nat := 1
def chLED : Nat := 2
def chDRAM : Nat := 3
def chLANE : Nat := 4
def chBLACK : Nat := 5
def chFLAT : Nat := 6

/-- RUN_STATE (R300). -/
def rsIDLE : Nat := 0
def rsDUE : Nat := 1
def rsRUNNING : Nat := 2

/-- Replace the calibration block's record. -/
def State.setCal (s : State) (x : Cal) : State := { s with cal := x }

/-- A channel's record. -/
def State.chan (s : State) (c : Nat) : CalChan := s.cal.chans.getD c CalChan.reset
def State.setChan (s : State) (c : Nat) (x : CalChan) : State := s.setCal { s.cal with chans := s.cal.chans.set c x }

/-- A channel's RUN_STATE. -/
def State.runState (s : State) (c : Nat) : Nat := s.get (CAL_CH_STATUS_RUN_STATE c)

/-- A channel's temperature source (R301): the values that are valid, by plane or bar. -/
def State.calTemps (s : State) (c : Nat) : AMap Int :=
  match s.get (CAL_CH_CFG_TSRC c) with
  | 1 => if s.on THM_STATUS_SENSORS_LOST then [] else [(0, s.getS THM_STATUS_T_DIE)]
  | 2 => ((List.range 8).filter (fun q => s.planeTiles q != 0)).map (fun q => (q, s.getS (PLN_TEMP_STATUS_T_MEAN q)))
  | 3 => ((List.range 8).filter (fun q => s.ust (.bar (Fin.ofNat 8 q)) != .off)).map (fun q => (q, s.getS (LED_BOARD_T_T q)))
  | 4 =>
    let i := s.get (CAL_CH_CFG_TSRC_IDX c)
    if s.on (THM_EXT_BROKEN i) then [] else [(0, s.getS (THM_EXT_T i))]
  | _ => []

/-- The moves of a channel's source that exceed DELTA (R301). -/
def State.calMoves (s : State) (c : Nat) : List Nat :=
  ((s.calTemps c).filterMap (fun e =>
    if (s.chan c).tref.has e.1 then some ((e.2 - (s.chan c).tref.get e.1 0).natAbs) else none)).filter
      (fun m => Nat.blt (s.get (CAL_CH_CFG_DELTA c)) m)

/-- A trigger (R300, R308): causes 1 temperature, 2 schedule, 3 request, 4 reset. -/
def State.calTrigger (s : State) (c code move : Nat) : State :=
  if s.runState c = rsIDLE then
    ((((s.put (CAL_CH_STATUS_RUN_STATE c) rsDUE).putB (CAL_CH_STATUS_STALE c) true).event Ev.CAL_DUE c [code, move])).cause
      CAL_IRQ_CAUSE_DUE
  else if s.runState c = rsRUNNING then
    (s.putB (CAL_CH_STATUS_AGAIN c) true).putB (CAL_CH_STATUS_STALE c) true
  else s

/-! ### Views and bands -/

/-- The plane columns a context's view spans, in 1/65,536 column: its first edge and its end (R316), without δ. -/
def State.viewSpan (s : State) (x : Nat) : Int × Int :=
  let c0 := 256 * s.getS (CAL_VIEW_COL0_COL0 x)
  (c0, c0 + (s.get (CAM_CTX_SIZE_WIDTH x) * s.get (CAL_VIEW_PITCH_PITCH x) : Nat))

/-- Is a plane column's centre inside some view in use? -/
def State.inView (s : State) (c : Nat) : Bool :=
  (List.range 16).any (fun x => s.on (CAL_VIEW_CTRL_USE x) &&
    decide ((s.viewSpan x).1 ≤ (65536 * c + 32768 : Nat)) && decide (((65536 * c + 32768 : Nat) : Int) < (s.viewSpan x).2))

/-- Columns of a band of a plane. -/
def State.bandCols (s : State) (q b : Nat) : List Nat :=
  ((List.range 16384).map (fun i => 16384 * b + i)).filter (fun c => Nat.blt c (planeWidth (s.planeTiles q)))

/-- Does some view cover a band on some plane in use (R321)? -/
def State.bandViewed (s : State) (b : Nat) : Bool :=
  (List.range 8).any (fun q => Nat.blt (16384 * b) (planeWidth (s.planeTiles q)) &&
    (List.range 16).any (fun x => s.on (CAL_VIEW_CTRL_USE x) &&
      decide ((s.viewSpan x).1 < ((65536 * min (16384 * (b + 1)) (planeWidth (s.planeTiles q)) : Nat) : Int)) &&
      decide (((65536 * (16384 * b) : Nat) : Int) < (s.viewSpan x).2)))

/-- The first viewed band at or after `b`. -/
def State.viewedFrom (s : State) (b : Nat) : Option Nat := ((List.range 16).filter (fun x => Nat.ble b x)).find? (fun x => s.bandViewed x)

/-- Make a band the focus. -/
def State.setFocus (s : State) (b : Nat) : State := s.put CAL_PT_STATUS_FOCUS b

/-- VOL_q as sampled at job take. -/
def State.volOf (s : State) (q k : Nat) : Nat := bits (s.cal.vol.getD q 0).toNat (8 * k + 7) (8 * k)

/-- Is VOL_q strictly increasing from 0 (R320 rule 9)? -/
def State.volOk (s : State) (q : Nat) : Bool :=
  s.volOf q 0 == 0 && Nat.blt (s.volOf q 0) (s.volOf q 1) && Nat.blt (s.volOf q 1) (s.volOf q 2) && Nat.blt (s.volOf q 2) (s.volOf q 3)

/-- The least of floor(n / r) over the ratios of r_max (R322, R327). -/
def State.volFloor (s : State) (q n : Nat) : Nat :=
  let v := s.volOf q
  let rs := [(v 2 - v 1, v 1), (v 3 - v 2, v 2), (v 1 - v 0, v 1), (v 2 - v 1, v 2), (v 3 - v 2, v 3)]
  rs.foldl (fun a r => min a (if r.1 = 0 then a else n * r.2 / r.1)) n

/-- G_eff of a plane (R322), or of a jig run (R327). -/
def State.gEff (s : State) (q : Nat) (jig : Bool) : Nat :=
  if jig then min 255 (s.volFloor q 230) else min (s.get CAL_PT_CTRL_GAIN) (s.volFloor q 128)

/-! ### Starting a run (R300, R304) -/

/-- Planes that a SWEEP run covers (R304): those in use, or every plane with valid tiles when no job is active. -/
def State.sweepPlanes (s : State) : Nat :=
  (List.range 8).foldl (fun a q => a + 2 ^ q * b2n (
    match s.press.job with
    | some j => (j.cfg q).tiles != 0
    | none => (s.planeEntries q).any (fun e => mapValid (s.rget (PLN_TILE_MAP q (e.g % 64)))))) 0

/-- Does a lane belong to a port in phase 6, or to the mirror port while it is up (R529)? -/
def State.laneUp (s : State) (l : Nat) : Bool :=
  if l < 48 then s.portUp (l / 2) else s.on PAR_STATUS_MIRROR_UP

/-- Does a channel's start condition hold (R304, R343, R372, R529)? -/
def State.calCanStart (s : State) (c : Nat) (auto : Bool) : Bool :=
  match c with
  | 0 => s.sweepOk s.sweepPlanes && (!auto || (match s.press.job with
      | none => true
      | some j => (match j.recovery with | some r => r.phase == 3 | none => false)))
  | 1 => true
  | 2 => (List.range 8).any (fun q => s.on (LED_BAR_CFG_CAL_EN q) && s.ust (.bar (Fin.ofNat 8 q)) == .on)
  | 3 => s.get PGP_SCHED_STATUS_JOB_STATE == jsIdle
  | 4 => (List.range 52).any (fun l => s.laneUp l)
  | 5 => (List.range 16).any (fun x => s.on (CAM_CTX_CFG_BLACK_EN x) && s.ust (.ctx (Fin.ofNat 16 x)) == .on)
  | _ => (List.range 16).any (fun x => s.on (CAM_CTX_CFG_FLAT_EN x) && s.ust (.ctx (Fin.ofNat 16 x)) == .on)

/-- The black levels in force of every context and phase. -/
def State.blackLive (s : State) : List Nat :=
  (List.range 64).map (fun i => s.get (CAM_CTX_BLACK_ACTIVE (i / 4) (i % 4)))

/-- What the runner of a channel does at the start of a run. -/
def State.calBegin (s : State) (c : Nat) : State :=
  match c with
  | 0 => s.sweepStart s.sweepPlanes
  | 1 =>
    (s.setCal { s.cal with acc := [], pend := [], prev := none, qual := List.replicate 8 (0, 0, 0) }).setFocus ((s.viewedFrom 0).getD 0)
  | 2 => { s with bars := s.bars.map (fun b => { b with sums := [] }) }
  | 4 => { s with lanes := (List.range 52).map (fun l =>
      let x := s.lanes.getD l Lane.reset
      { x with covered := s.laneUp l, result := none }) }
  | 5 => { s with cam := { s.cam with black := [], blackStart := s.blackLive } }
  | 6 => { s with cam := { s.cam with flat := [], knotStart := s.cam.knotLive } }
  | _ => s

/-- A channel enters RUNNING: the timeout starts, and the source's values are kept for T_ref (R300, R301). -/
def State.calEnter (s : State) (c : Nat) : State :=
  let x := s.chan c
  ((s.put (CAL_CH_STATUS_RUN_STATE c) rsRUNNING).setChan c { x with start := s.time.cyc, startM := s.ldg.metres, tstart := s.calTemps c,
                                                                    jig := c == chPRINT && s.on CAL_PT_CTRL_JIG }).calBegin c

/-- Start a DUE channel (R300). -/
def State.calStartRun (s : State) (c : Nat) (auto : Bool) : State :=
  (s.event Ev.CAL_STARTED c [b2n auto]).calEnter c

/-! ### Print-through results (R321 to R324) -/

/-- RMS of a plane in 0.001 density from its sums of squares (units of 2^-149), to nearest and at most 65,535. -/
def qualRms (q : Nat × Nat × Nat) : Nat :=
  if q.2.1 = 0 then 0 else min 65535 ((Nat.sqrt (4 * 10 ^ 6 * q.1 / q.2.1) / 2 ^ 149 + 1) / 2)

/-- Maximum of a plane in 0.001 density. -/
def qualMax (q : Nat × Nat × Nat) : Nat := min 65535 ((2000 * q.2.2 / 2 ^ 149 + 1) / 2)

/-- Q0 and Q1 of a PRINT run: the largest RMS and the largest maximum (R299). -/
def State.printQ (s : State) : Nat × Nat :=
  ((s.cal.qual.map qualRms).foldl max 0, (s.cal.qual.map qualMax).foldl max 0)

/-- At every PRINT run end the figures are shown and posted, alarms raised, accumulators and pending targets cleared, JIG
cleared and the focus restarted (R323, R324, R327). -/
def State.printRunEnd (s : State) : State :=
  let rms := (List.range 8).map (fun q => qualRms (s.cal.qual.getD q (0, 0, 0)))
  let mx := (List.range 8).map (fun q => qualMax (s.cal.qual.getD q (0, 0, 0)))
  let s1 := (List.range 8).foldl (fun s q => (s.put (CAL_PT_QUAL_RMS q) (rms.getD q 0)).put (CAL_PT_QUAL_MAX q) (mx.getD q 0)) s
  let s2 := s1.event Ev.PT_RESULT chPRINT ((rms ++ mx).map (fun v => [v % 256, v / 256])).flatten
  let s3 := ((List.range 8).filter (fun q => Nat.blt (s.get CAL_PT_QLIMIT_RMS) (rms.getD q 0))).foldl (fun s q =>
    (s.event Ev.PT_QUAL_ALARM chPRINT [q, rms.getD q 0, mx.getD q 0]).cause CAL_IRQ_CAUSE_QUAL_ALARM) s2
  ((s3.setCal { s3.cal with acc := [], pend := [], prev := none }).putB CAL_PT_CTRL_JIG false).setFocus ((s.viewedFrom 0).getD 0)

/-- Set a column's target trim; a live trim that already equals it keeps its settle line (R313). -/
def State.setTarget (s : State) (k : Nat) (t : Int) : State :=
  (s.setCal { s.cal with cols := s.cal.cols.set k { s.cal.cols.get k CalCol.reset with target := t } }).jrn
    (.trims (k / 2 ^ 18) (k % 2 ^ 18) [t])

/-- Adopt every pending target (R322). -/
def State.adoptTargets (s : State) : State := s.cal.pend.foldl (fun s e => s.setTarget e.1 e.2) s

/-! ### The end of a run (R300, R306 to R311) -/

def ocOK : Nat := 1
def ocTIMEOUT : Nat := 2
def ocABANDONED : Nat := 3

/-- What the runner of a channel drops at a failed end. -/
def State.calDrop (s : State) (c : Nat) : State :=
  match c with
  | 3 => s.dramTrainLost
  | 4 => { s with lanes := s.lanes.map (fun l => { l with covered := false, result := none }) }
  | _ => s

/-- Show T_ref (R301); which plane's or bar's value the register shows of several is open (log 8). -/
def State.showTref (s : State) (c : Nat) : State :=
  match pickOf ((s.chan c).tref.map (fun e => twos 16 e.2)) with
  | none => s.putB (CAL_CH_TREF_VALID c) false
  | some v => (s.put (CAL_CH_TREF_TREF c) v).putB (CAL_CH_TREF_VALID c) true

/-- A run ends with an outcome and its figures. -/
def State.calEnd (s : State) (c outcome q0 q1 : Nat) : State :=
  let x := s.chan c
  let len := if c = chPRINT then s.ldg.metres - x.startM else (s.time.cyc - x.start) / 250000
  let s1 := ((((s.put (CAL_CH_STATUS_LAST c) outcome).put (CAL_CH_STATUS_RUNS c) (s.get (CAL_CH_STATUS_RUNS c) + 1)).put
    (CAL_CH_Q_Q0 c) (min 65535 q0)).put (CAL_CH_Q_Q1 c) (min 65535 q1)).put (CAL_CH_STATUS_RUN_STATE c) rsIDLE
  let s2 := if outcome = ocOK then
      ((((if s.on (CAL_CH_STATUS_AGAIN c) then s1 else s1.putB (CAL_CH_STATUS_STALE c) false).setChan c
        { x with tref := x.tstart, lastEnd := some s.time.cyc }).showTref c).event Ev.CAL_DONE c [q0, q1, len]).cause CAL_IRQ_CAUSE_DONE
    else
      (((s1.setChan c { x with lastEnd := some s.time.cyc }).calDrop c).event Ev.CAL_FAILED c [outcome, q0, q1]).cause CAL_IRQ_CAUSE_FAILED
  let s3 := if c = chPRINT then (if outcome = ocOK then s2.adoptTargets.printRunEnd else s2.printRunEnd) else s2
  if s3.on (CAL_CH_STATUS_AGAIN c) then
    let s4 := (s3.putB (CAL_CH_STATUS_AGAIN c) false).put (CAL_CH_STATUS_RUN_STATE c) rsDUE
    if s4.on (CAL_CH_CFG_AUTO c) ∧ s4.calCanStart c true then s4.calStartRun c true else s4
  else if s3.on (CAL_CH_CFG_CONT c) ∧ s3.calCanStart c true then s3.calEnter c
  else s3

/-! ### The end of a sweep (R236 to R242, R307) -/

/-- The trims of a column's 16 heaters as TRIM_LOAD packs them (R210). -/
def State.trimWord (s : State) (g c : Nat) : Nat :=
  (List.range 16).foldl (fun a h => a + 2 ^ (6 * h) * twos 6 (s.ldg.trims.get (heatKey g (16 * c + h)) 0)) 0

/-- The TRIM_LOAD payload for `n` columns from `first` (R210). -/
def State.trimPayload (s : State) (g first n : Nat) : List Byte :=
  leBytes 2 first ++ leBytes 2 n ++ leBytes 4 0 ++ ((List.range n).map (fun i => leBytes 12 (s.trimWord g (first + i)))).flatten

/-- Send the trims of runs of changed columns, at most 256 columns a packet. -/
def State.sendTrims (s : State) (g : Nat) (cols : List Nat) : State :=
  match s.entryAt g with
  | none => s
  | some e =>
    (colRuns (cols.map (fun c => (c, 0)))).foldl (fun s r =>
      (List.range (ceilDiv r.2.length 256)).foldl (fun s i =>
        s.sendNow e.port e.slot opTRIM_LOAD (s.trimPayload g (r.1 + 256 * i) (min 256 (r.2.length - 256 * i)))) s) s

/-- Was a heater measured in a sweep? -/
def SweepTile.measured (t : SweepTile) (h : Nat) : Bool := t.got.any (fun r => Nat.ble r.1 h && Nat.blt h (r.1 + r.2))

/-- round(160 x (c - B) / B), halves away from zero, for a baseline in code × 16 (R241). -/
def trimTarget (c base : Nat) : Int :=
  let d : Int := 160 * (16 * (c : Int) - base)
  let m := (2 * d.natAbs + base) / (2 * base)
  if d < 0 then -(m : Int) else m

/-- Clamp to -32 .. +31. -/
def clampTrim (x : Int) : Int := max (-32) (min 31 x)

/-- A trim moved towards its target by at most `step` (0 no limit) (R242). -/
def trimStep (old target : Int) (step : Nat) : Int :=
  if step = 0 then target
  else if old + step < target then old + step
  else if target < old - step then old - step
  else target

/-- Set the baseline of a tile whose baseline is not valid (R240). -/
def State.baseline (s : State) (t : SweepTile) : State :=
  if (s.trec t.g).baseValid then s
  else
    let cs := ((List.range 65536).map (fun h => s.ldg.codes.get (heatKey t.g h) 0)).filter (fun c => Nat.ble 1639 c && Nat.ble c 2457)
    if cs.length < 32768 then
      (s.event Ev.BASELINE t.g [1, (s.trec t.g).base, cs.length]).cause LDG_IRQ_CAUSE_TILE
    else
      let b := (roundDiv (16 * (cs.foldl (· + ·) 0) : Nat) cs.length).toNat
      ((s.setRec t.g { s.trec t.g with base := b, baseValid := true }).event Ev.BASELINE t.g [0, b, cs.length]).cause LDG_IRQ_CAUSE_TILE

/-- Trims of the measured heaters of a tile (R241, R242); changed columns are sent and journalled. -/
def State.sweepTrims (s : State) (t : SweepTile) : State :=
  let r := s.trec t.g
  if ¬ r.baseValid ∨ r.base = 0 then s
  else
    let first := !(s.ldg.seen.contains t.g)
    let hs := (List.range 65536).filter (fun h => t.measured h && s.heater t.g h == 0)
    let want := fun h => trimTarget (s.ldg.codes.get (heatKey t.g h) 0) r.base
    let old := fun h => s.ldg.trims.get (heatKey t.g h) 0
    let new := fun h => if first then clampTrim (want h) else trimStep (old h) (clampTrim (want h)) (s.get LDG_TRIM_CFG_STEP)
    let lim := (hs.filter (fun h => clampTrim (want h) != want h)).length
    let ch := hs.filter (fun h => new h != old h)
    let s1 := (s.setLdg { s.ldg with trims := ch.foldl (fun m h => m.set (heatKey t.g h) (new h)) s.ldg.trims }).sweepCount
      (fun w => { w with limit := w.limit + lim })
    let cols := (ch.map (fun h => h / 16)).eraseDups
    (cols.foldl (fun s c => s.jrn (.energy t.g c [s.trimWord t.g c])) s1).sendTrims t.g cols

/-- A sweep ends: tiles that lack codes have failed, baselines and trims follow, and SWEEP_DONE is posted; a SWEEP run of the
framework ends with it (R236, R307). -/
def State.sweepFinish (s : State) : State :=
  match s.ldg.sweep with
  | none => s
  | some w =>
    let ts := w.tiles.map (fun t => { t with failed := t.failed || t.codes != 65536 })
    let ok := ts.filter (fun t => !t.failed)
    let failed := (ts.filter (fun t => t.failed)).map (fun t => t.g)
    let s1 := ok.foldl (fun s t => s.setRec t.g { s.trec t.g with sweeps := min 0xFFFFFFFF ((s.trec t.g).sweeps + 1) }) s
    let s2 := ok.foldl (fun s t => s.baseline t) s1
    let s3 := ts.foldl (fun s t => s.sweepTrims t) s2
    let w3 := s3.ldg.sweep.getD w
    let s4 := s3.setLdg { s3.ldg with sweep := none, seen := (s3.ldg.seen ++ ok.map (fun t => t.g)).eraseDups,
                                      failedSweep := (s3.ldg.failedSweep.filter (fun g => !(ok.map (fun t => t.g)).contains g) ++ failed).eraseDups }
    let s5 := (((s4.putB LDG_STATUS_SWEEP_BUSY false).putB LDG_SWEEP_STATUS_RUNNING false).put LDG_SWEEP_STATUS_FAILED failed.length)
    let s6 := (((s5.put (LDG_SWEEP_COUNT_COUNT 0) w3.opens).put (LDG_SWEEP_COUNT_COUNT 1) w3.shorts).put (LDG_SWEEP_COUNT_COUNT 2) w3.drift).put
      (LDG_SWEEP_COUNT_COUNT 3) w3.limit
    let s7 := (s6.event' Ev.SWEEP_DONE [w.planes, failed.length, w3.opens, w3.shorts, w3.drift, w3.limit, (s.time.cyc - w.start) / 250]).cause
      LDG_IRQ_CAUSE_SWEEP_DONE
    if s7.runState chSWEEP = rsRUNNING then
      s7.calEnd chSWEEP (if failed = [] then ocOK else ocTIMEOUT) failed.length w3.drift
    else s7

/-! ### Bands (R321 to R323) -/

/-- Is a column confident (R321)? -/
def State.confident (s : State) (x : Sums) : Bool := f32Le (f32Ratio (s.get CAL_PT_CONF_CONF : Nat) 256) x.p

/-- Clamp an integer. -/
def clampInt (lo hi x : Int) : Int := max lo (min hi x)

/-- The pending target of a confident column (R322) and its part of the quality sums (R323). -/
def State.finaliseColumn (s : State) (k : Nat) (x : Sums) : State :=
  let q := k / 2 ^ 18
  let eps := f32Div x.e x.p
  let jig := (s.chan chPRINT).jig
  let d := -(f32RoundAway (f32Mul (f32OfInt (s.gEff q jig : Nat)) eps) 1)
  let st : Int := (max 1 (s.get CAL_PT_CTRL_RUN_STEP) : Nat)
  let d1 := if jig then d else clampInt (-st) st d
  let old := (s.cal.cols.get k CalCol.reset).target
  let new := clampInt (-128) 127 (old + d1)
  let dens := (f32Units (f32Mul eps (s.rget (CAL_PT_DREF q)))).natAbs
  let a := s.cal.qual.getD q (0, 0, 0)
  let s1 := s.setCal { s.cal with pend := s.cal.pend.set k new,
                                  qual := s.cal.qual.set q (a.1 + dens * dens, a.2.1 + 1, max a.2.2 dens) }
  if d1 ≠ d ∨ new ≠ old + d1 then s1.addSat CAL_PT_TRIM_LIMIT_COUNT 1 else s1

/-- The camera has reached J_sw: band `b` is finalised, and after the last viewed band the run ends OK (R321, R322). -/
def State.finaliseBand (s : State) : State :=
  match s.cal.prev with
  | none => s
  | some (b, _) =>
    if s.runState chPRINT ≠ rsRUNNING then s
    else
      let xs := s.cal.acc.filter (fun e => e.1 % 2 ^ 18 / 16384 == b && s.confident e.2 && s.volOk (e.1 / 2 ^ 18))
      let s1 := xs.foldl (fun s e => s.finaliseColumn e.1 e.2) s
      let s2 := s1.setCal { s1.cal with prev := none, acc := s1.cal.acc.filter (fun e => !(e.1 % 2 ^ 18 / 16384 == b)) }
      match s2.viewedFrom (b + 1) with
      | some _ => s2
      | none => s2.calEnd chPRINT ocOK s2.printQ.1 s2.printQ.2

/-- Do enough columns of a band have confidence on every plane in use (R321)? -/
def State.visitDone (s : State) (b : Nat) : Bool :=
  (List.range 8).all (fun q =>
    !s.volOk q || (
    let cs := (s.bandCols q b).filter (fun c => s.inView c && !s.planeDead q c s.time.line)
    let n := (cs.filter (fun c => s.confident (s.cal.acc.get (pcKey q c) Sums.reset))).length
    Nat.ble (s.get CAL_PT_CTRL_CONF_FRAC * cs.length) (256 * n)))

/-! ### Probes (R325, R326) -/

/-- Has every row sum of a probe reached PROBE_MIN, or has it taken 4,096 samples? -/
def State.probeDone (s : State) (p : Probe) : Bool :=
  Nat.ble 4096 p.n || p.tiles.all (fun t => t.2.all (fun r => f32Le (f32OfInt (s.get CAL_PT_MF_PROBE_MIN : Nat)) r.sums.p))

/-- Close a probe: every weak row submits misfire evidence (R326, R245). -/
def State.closeProbe (s : State) (p : Probe) : State :=
  let s1 := s.setCal { s.cal with probes := s.cal.probes.filter (fun x => x != p), probeFull := false }
  p.tiles.foldl (fun s t =>
    (List.range 8).foldl (fun s r =>
      let row := t.2.getD r { sums := Sums.reset, last := 0 }
      if f32Le (f32OfInt (s.get CAL_PT_MF_PROBE_MIN : Nat)) row.sums.p ∧
          f32Lt row.sums.e (f32Mul (f32Ratio (s.get CAL_PT_MF_MF_RATIO : Nat) 256) row.sums.p) then
        (s.addSat CAL_MF_COUNT_COUNT 1).evidence t.1 (8 * (p.c - 4032 * (t.1 % 64)) + r) row.last
      else s) s) s1

/-! ### Trims through the window (R314) -/

/-- Advance the window after an access (CAL_TRIM_SEL.AUTO_INC). -/
def State.trimInc (s : State) : State :=
  if s.on CAL_TRIM_SEL_AUTO_INC then s.put CAL_TRIM_SEL_COLUMN (s.get CAL_TRIM_SEL_COLUMN + 1) else s

/-- The window's column. -/
def State.trimKey (s : State) : Nat := pcKey (s.get CAL_TRIM_SEL_PLANE) (s.get CAL_TRIM_SEL_COLUMN)

/-- CAL_TRIM_DATA as it reads. -/
def State.trimData (s : State) : Word :=
  let x := s.cal.cols.get s.trimKey CalCol.reset
  BitVec.ofNat 32 (twos 8 x.target + 256 * twos 8 x.live + 65536 * b2n (x.live = x.target))

/-- Write CAL_TRIM_DATA: the target, and with no job the live trim at once. -/
def State.trimWrite (s : State) (v : Word) : State :=
  let t := sgn 8 v.toNat
  let s1 := s.setTarget s.trimKey t
  (if s.get PGP_SCHED_STATUS_JOB_STATE = jsIdle then
    s1.setCal { s1.cal with cols := s1.cal.cols.set s.trimKey { s1.cal.cols.get s.trimKey CalCol.reset with live := t } }
   else s1).trimInc

end Sys2Proof.Machine
end

