-- ==== Sys2Proof/Machine/Corr.lean ====
section
/-!
DEFINITION. The print-through correlator (R316 to R326): which job line a camera line shows, the columns under a pixel, the
samples, and the probes they open.
-/
namespace Sys2Proof.Machine

/-- D_cam of a context in 1/65,536 fine line (R316). -/
def State.dCam (s : State) (x : Nat) : Nat :=
  s.get (CAL_VIEW_DOWNWEB_INT_INT x) * 65536 + s.get (CAL_VIEW_DOWNWEB_FRAC_FRAC x)

/-- J of R316 for a web position in 1/65,536 line, and whether it lies within 0.25 line. -/
def State.shownLine (s : State) (x : Nat) (pos : Int) : Int × Bool :=
  let f := fineOf s.mode
  let u := pos * f - s.dCam x
  let j := roundDiv u (65536 * f)
  (j, decide (4 * (u - j * (65536 * f : Nat)).natAbs ≤ 65536 * f))

/-- δ_q in 1/256 column for a context (R316, R320 rule 5): none when a measurement is due and none is valid. -/
def State.deltaOf (s : State) (x q : Nat) : Option Int :=
  if s.on (CAL_VIEW_CTRL_NOREG x) then some 0
  else if s.regValid q then some (s.getS (CAM_REG_PLANE_DELTA q))
  else none

/-- F_q(i) of R316: the columns of a plane under a pixel. -/
def State.colsUnder (s : State) (x q i : Nat) (delta : Int) : List Nat :=
  let lo := 256 * (s.getS (CAL_VIEW_COL0_COL0 x) + delta) + (i * s.get (CAL_VIEW_PITCH_PITCH x) : Nat)
  let hi := lo + (s.get (CAL_VIEW_PITCH_PITCH x) : Nat)
  -- least c with 65536 c + 32768 >= v
  let first := fun (v : Int) => (v + 32767) / 65536
  ((List.range (first hi - first lo).toNat).map (fun (k : Nat) => first lo + (k : Int))).filterMap (fun c =>
    if 0 ≤ c ∧ c < (planeWidth (s.planeTiles q) : Int) then some c.toNat else none)

/-- The snapshot code of a plane column. -/
def Snap.code (t : Snap) (q c : Nat) : Option Nat :=
  match t.segs.find? (fun g => g.1 == q && Nat.ble g.2.1 c && Nat.blt c (g.2.1 + g.2.2.length)) with
  | none => none
  | some g => g.2.2[c - g.2.1]?

/-- p_qc of R319. -/
def State.predicted (s : State) (x q code : Nat) : F32 := f32Mul (s.rget (CAL_PT_G (8 * x + q))) (f32OfInt (s.volOf q code : Nat))

/-- D_obs of R319 and d_i of R345: the density of a corrected pixel. -/
def density (out : Nat) : F32 := f32Neg (Config.log10 (f32Max (f32Ratio (out : Int) 16384) (f32Ratio 1 4096)))

/-- One column under a pixel: plane, column, p and a. -/
structure PtCol where
  q : Nat
  c : Nat
  p : F32
  a : F32
  deriving DecidableEq, Repr

/-- Add p and a to the run's sums (R319, R320 rule 8). -/
def State.ptRun (s : State) (t : Snap) (x : PtCol) : State :=
  let k := pcKey x.q x.c
  if s.runState chPRINT ≠ rsRUNNING ∨ !(x.c / 16384 == t.focus) ∨ !(f32Lt 0 x.p) ∨ t.line < (s.cal.cols.get k CalCol.reset).settle then s
  else
    let v := s.cal.acc.get k Sums.reset
    s.setCal { s.cal with acc := s.cal.acc.set k { p := f32Add v.p x.p, e := f32Add v.e x.a } }

/-- Open a probe for a column (R325). -/
def State.openProbe (s : State) (q c : Nat) : State :=
  if s.cal.probes.any (fun p => p.q == q && p.c == c) then s
  else if s.cal.probes.length < 256 then
    s.setCal { s.cal with probes := s.cal.probes ++ [{ q := q, c := c, n := 0, tiles := (tileCols (s.planeTiles q) c).map (fun e =>
      (64 * q + e.1, List.replicate 8 { sums := Sums.reset, last := 0 })) }] }
  else
    let s1 := s.addSat CAL_PT_PROBE_FULL_COUNT 1
    if s1.cal.probeFull then s1
    else ((s1.setCal { s1.cal with probeFull := true }).event' Ev.PT_PROBE_FULL [q, c]).cause CAL_IRQ_CAUSE_PROBE_FULL

/-- The short-term sums of a column of the focus band (R325). -/
def State.ptShort (s : State) (t : Snap) (x : PtCol) : State :=
  if !(x.c / 16384 == t.focus) then s
  else
    let k := pcKey x.q x.c
    let v := s.cal.short.get k Sums.reset
    let dec := fun (y : F32) => f32Sub y (f32Div y (f32OfInt 16))
    let v1 : Sums := { p := f32Add (dec v.p) x.p, e := f32Add (f32Add (dec v.e) x.p) x.a }
    let s1 := s.setCal { s.cal with short := s.cal.short.set k v1 }
    if f32Le (f32OfInt (s.get CAL_PT_MF_MF_MIN : Nat)) v1.p ∧ f32Lt v1.e (f32Mul (f32Ratio (s.get CAL_PT_MF_MF_RATIO : Nat) 256) v1.p) then
      s1.openProbe x.q x.c
    else s1

/-- Add a sample to a probe (R325): the row that fired the column in each tile that received it, and the press line at which it did: r x k
ticks after the tile's row-0 tick (R37, R50, R326). -/
def Probe.sample (p : Probe) (t : Snap) (x : PtCol) (shift : Nat → Int) (k : Nat) : Probe :=
  { p with n := p.n + 1, tiles := p.tiles.map (fun e =>
      let row := (t.rows.get e.1 []).getD (x.c - 4032 * (e.1 % 64)) 8
      (e.1, (List.range 8).map (fun r =>
        let v := e.2.getD r { sums := Sums.reset, last := 0 }
        if r = row ∧ f32Lt 0 x.p then
          { sums := { p := f32Add v.sums.p x.p, e := f32Add v.sums.e (f32Add x.p x.a) }
            last := ((t.press.getD x.q 0 : Int) + shift e.1 + k * r).toNat }
        else v))) }

/-- The probes a pixel feeds: those whose 64-column group holds its whole footprint (R325). -/
def State.ptProbes (s : State) (t : Snap) (xs : List PtCol) : State :=
  s.setCal { s.cal with probes := s.cal.probes.map (fun p =>
    match xs.find? (fun x => x.q == p.q && x.c == p.c) with
    | none => p
    | some x => if xs.all (fun y => y.c / 64 == p.c / 64) then
        p.sample t x (fun g => match s.entryAt g with | some e => (s.tileTime e).1 | none => 0) (kOf s.mode) else p) }

/-- One pixel of a used line (R319, R320). `clean` is false at and after CORRUPT or LATE. -/
def State.ptPixel (s : State) (x : Nat) (t : Snap) (clean : Bool) (i out : Nat) : State :=
  let qs := (List.range 8).filter (fun q => s.planeTiles q != 0 && s.volOk q)
  let under := qs.map (fun q => (q, s.colsUnder x q i ((s.deltaOf x q).getD 0)))
  let used := under.filter (fun e => e.2 != [])
  let codes := used.map (fun e => (e.1, e.2.map (fun c => (c, t.code e.1 c))))
  if used = [] ∨ codes.any (fun e => e.2.any (fun y => y.2.isNone)) then s
  else
    let ps := codes.map (fun e => (e.1, e.2.map (fun y => (y.1, s.predicted x e.1 (y.2.getD 0)))))
    let dPred := ps.foldl (fun a e => f32Add a (f32Div (e.2.foldl (fun b y => f32Add b y.2) 0) (f32OfInt (e.2.length : Nat)))) 0
    let drop := used.any (fun e => t.bad.contains e.1 || (s.deltaOf x e.1).isNone) || !clean ||
      s.on (CAL_CH_STATUS_STALE chBLACK) || s.on (CAL_CH_STATUS_STALE chFLAT) ||
      f32Lt dPred (f32Ratio (s.get CAL_PT_DLIM_DMIN : Nat) 1024) || f32Lt (f32Ratio (s.get CAL_PT_DLIM_DMAX : Nat) 1024) dPred
    if drop then s.addSat CAL_PT_EXCLUDED_COUNT 1
    else
      let r := f32Sub (density out) dPred
      let all := (ps.map (fun e => e.2.map (fun y => { q := e.1, c := y.1, p := y.2, a := f32Div (f32Mul r y.2) dPred : PtCol }))).flatten
      let xs := all.filter (fun y => !t.dead.contains (pcKey y.q y.c))
      let s1 := xs.foldl (fun s y => s.ptShort t y) s
      let s2 := s1.ptProbes t xs
      if t.calOk then (xs.foldl (fun s y => s.ptRun t y) s2).addSat CAL_PT_SAMPLES_COUNT 1
      else s2.addSat CAL_PT_EXCLUDED_COUNT 1

/-- The band visit ends once enough columns of the focus band are confident: J_sw is the line after the last that plane 0 has
taken, and the next viewed band becomes the focus (R321). -/
def State.visitEnd (s : State) : State :=
  let b := s.get CAL_PT_STATUS_FOCUS
  match s.press.job with
  | none => s
  | some j =>
    if s.runState chPRINT = rsRUNNING ∧ s.cal.prev = none ∧ s.bandViewed b ∧ s.visitDone b then
      (s.setCal { s.cal with prev := some (b, j.nextTake.getD 0 0) }).setFocus
        ((s.viewedFrom (b + 1)).getD ((s.viewedFrom 0).getD 0))
    else s

/-- A processed camera line feeds the correlator (R316 to R321). -/
def State.ptLine (s : State) (x : Nat) (pos : Int) (nopos clean : Bool) (outs : List Nat) : State :=
  if nopos ∨ s.on (CAL_VIEW_CTRL_USE x) = false then s
  else
    let j := s.shownLine x pos
    if j.1 < 0 then s
    else
      let s0 := s.setCal { s.cal with seenJ := s.cal.seenJ.set x (some j.1.toNat) }
      match s0.cal.snaps.find? (fun t => t.line == j.1.toNat), j.2 with
      | some t, true => ((outs.zipIdx).foldl (fun s e => s.ptPixel x t clean e.2 e.1) s0).visitEnd
      | _, _ => s0

end Sys2Proof.Machine
end

