-- ==== Sys2Proof/Machine/UnitOps.lean ====
section
/-!
DEFINITION. What every unit does on entry to FAULT and RETIRED (R15 to R18); each block adds its event and cause.
-/
namespace Sys2Proof.Machine

/-- The REASON field of a unit's status register: bits [7:4], of a port bits [19:16]. -/
def reasonFld (u : UnitId) : Fld :=
  match u with
  | .port p => HLK_PORT_STATUS_REASON p
  | _ => ⟨(stateFld u).off, 7, 4⟩

/-- Has a unit a REASON in its status register? A ring shows its reason in HIF_RING_ERR, a network and the mirror port none. -/
def hasReason (u : UnitId) : Bool :=
  match u with
  | .ring _ => false
  | .net _ => false
  | .mirror => false
  | _ => true

/-- Show a reason. -/
def State.setReason (s : State) (u : UnitId) (r : Nat) : State := if hasReason u then s.put (reasonFld u) r else s

/-- A fault is detected (R15, R16): in STARTING or ON the unit enters FAULT, PEND is cleared, and `f` follows; in STOPPING the
fault is recorded. -/
def State.faultUnit (s : State) (u : UnitId) (reason : Nat) (f : State → State) : State :=
  match s.ust u with
  | .starting => f (((s.setUst u .fault).setPend u false).setReason u reason)
  | .on => f (((s.setUst u .fault).setPend u false).setReason u reason)
  | .stopping => s.recordFault u reason
  | _ => s

/-- The retirement condition holds (R15): in FAULT, ON or STARTING the unit enters RETIRED, and `f` follows. -/
def State.retireUnit (s : State) (u : UnitId) (f : State → State) : State :=
  match s.ust u with
  | .starting => f ((s.setUst u .retired).setPend u false)
  | .on => f ((s.setUst u .retired).setPend u false)
  | .fault => f ((s.setUst u .retired).setPend u false)
  | _ => s

end Sys2Proof.Machine
end

