-- ==== Sys2Proof/Machine/Enc.lean ====
section
/-!
DEFINITION. Position feedback (13_position_feedback.md): master, quadrature and serial inputs, their speeds, tallies and
faults, and the cross-check.
-/
namespace Sys2Proof.Machine

/-! ### Records -/

def State.setEnc (s : State) (x : Enc) : State := { s with enc := x }
def State.minp (s : State) (m : Nat) : MasterIn := s.enc.masters.getD m MasterIn.reset
def State.setMinp (s : State) (m : Nat) (x : MasterIn) : State := s.setEnc { s.enc with masters := s.enc.masters.set m x }
def State.qinp (s : State) (q : Nat) : CountIn := s.enc.quads.getD q CountIn.reset
def State.setQinp (s : State) (q : Nat) (x : CountIn) : State := s.setEnc { s.enc with quads := s.enc.quads.set q x }
def State.sinp (s : State) (n : Nat) : CountIn := s.enc.serials.getD n CountIn.reset
def State.setSinp (s : State) (n : Nat) (x : CountIn) : State := s.setEnc { s.enc with serials := s.enc.serials.set n x }

/-- The master in effect: as sampled at job take, or as written since while no job was active (R414). -/
def State.masterSel (s : State) : Nat := s.enc.sel

/-- A write of ENC_MASTER_SEL has been stored: during a job it waits for the next job take (R414). -/
def State.selWritten (s : State) : State :=
  if s.press.job.isSome then s else s.setEnc { s.enc with sel := s.get ENC_MASTER_SEL_SEL }

/-- Is the master input faulted: not ON (R403)? -/
def State.masterFaulted (s : State) : Bool := s.ust (.master (Fin.ofNat 2 s.masterSel)) != .on

/-- "The master encoder reports standstill" (R413). -/
def State.masterStill (s : State) : Bool := !s.masterFaulted && s.on (ENC_M_STATUS_STANDSTILL s.masterSel)

/-- The number an input has in UNIT. -/
def inputNo (u : UnitId) : Nat :=
  match u with
  | .master m => m
  | .quad q => 16 + q.val
  | .serial n => 32 + n.val
  | _ => 0

/-! ### Faults and tallies (R402, R414) -/

/-- When the selected master is not ON while the clock is RUNNING or LOCKING, MASTER_LOST is posted and the web stop trips (R414). -/
def State.masterCheck (s : State) : State :=
  if s.masterFaulted ∧ (s.clk = clkRunning ∨ s.clk = clkLocking) then
    ((s.event Ev.MASTER_LOST s.masterSel [s.masterSel, (s.ust (.master (Fin.ofNat 2 s.masterSel))).code, s.clk]).cause
      ENC_IRQ_CAUSE_MASTER_LOST).webStopTrip
  else s

/-- An input enters FAULT. -/
def State.inputFault (s : State) (u : UnitId) (reason : Nat) : State :=
  s.faultUnit u reason (fun s => ((s.event Ev.INPUT_FAULT (inputNo u) [UState.fault.code, reason]).cause ENC_IRQ_CAUSE_INPUT_FAULT).masterCheck)

/-- TALLY and its limit of an input. -/
def tallyFld (u : UnitId) : Fld × Fld × Fld :=
  match u with
  | .master m => (ENC_M_TALLY_COUNT m, ENC_M_TALLY_LAST m, ENC_M_TALLY_CFG_LIMIT m)
  | .quad q => (⟨ENC_Q_TALLY q, 15, 0⟩, ⟨ENC_Q_TALLY q, 31, 16⟩, ⟨ENC_Q_TALLY_CFG q, 15, 0⟩)
  | .serial n => (⟨ENC_S_TALLY n, 15, 0⟩, ⟨ENC_S_TALLY n, 31, 16⟩, ⟨ENC_S_TALLY_CFG n, 15, 0⟩)
  | _ => (⟨0, 0, 0⟩, ⟨0, 0, 0⟩, ⟨0, 0, 0⟩)

/-- An input enters RETIRED (R15, R402). -/
def State.inputRetire (s : State) (u : UnitId) : State :=
  s.retireUnit u (fun s => ((s.event Ev.INPUT_FAULT (inputNo u) [UState.retired.code, s.get (tallyFld u).1]).cause
    ENC_IRQ_CAUSE_INPUT_FAULT).masterCheck)

/-- Add 1 to an input's tally; at LIMIT it retires (R402, R417). -/
def State.inputTally (s : State) (u : UnitId) : State :=
  let s1 := s.addSat (tallyFld u).1 1
  if max 1 (s1.get (tallyFld u).2.2) ≤ s1.get (tallyFld u).1 then s1.inputRetire u else s1

/-! ### Speeds (R412) -/

/-- Rule 4: a speed in pitches per ns, bounded by the next edge's pitch over the time since the last edge. -/
def speedNow (num : Int) (den : Nat) (next : Nat) (el : Nat) : Int × Nat :=
  if next * den < num.natAbs * el then ((if num < 0 then -(next : Int) else (next : Int)), max 1 el) else (num, max 1 den)

/-- A speed as shown: per second with 8 fractional bits, to nearest. -/
def speedReg (v : Int × Nat) : Word := BitVec.ofNat 32 (twos 32 (roundDiv (v.1 * 256000000000) v.2))

/-- GAP, REF_KIND and TEETH of a master input. -/
def State.refKind (s : State) (m : Nat) : Nat := s.get (ENC_M_CFG_REF_KIND m)
def State.gapOf (s : State) (m : Nat) : Nat := s.get (ENC_M_CFG_GAP m)
def State.teeth (s : State) (m : Nat) : Nat := max 1 (s.get (ENC_M_CFG_TEETH m))

/-- k_e of R408: pitches from the tooth of the previous edge to the next in a direction; from the extra tooth back to the tooth counted
before it there is none (DEDUCED, log 72). -/
def State.expectK (s : State) (m : Nat) (x : MasterIn) (back : Bool) : Nat :=
  let atRef := if back then x.idx == 0 else
    (if s.refKind m = 1 then x.idx + s.gapOf m + 1 == s.teeth m else x.idx + 1 == s.teeth m)
  let turned := x.atExtra && (if back then x.idx + 1 == s.teeth m else x.idx == 0)
  match s.refKind m with
  | 1 => if atRef then s.gapOf m + 1 else 1
  | 2 => if (atRef ∧ x.atExtra = false) ∨ turned then 0 else 1
  | _ => 1

/-- The pitch of the next edge at its expected place (R412 rule 4). -/
def State.nextPitch (s : State) (m : Nat) : Nat :=
  if s.on (ENC_M_STATUS_LOCKED m) then s.expectK m (s.minp m) (s.minp m).back else 1

/-- v of a master input in pitches per ns. -/
def State.masterV (s : State) (m : Nat) : Int × Nat :=
  let x := s.minp m
  if s.on (ENC_M_STATUS_STANDSTILL m) then (0, 1)
  else speedNow x.vNum x.vDen (s.nextPitch m) (s.now - x.last.getD s.now)

/-- The web's speed as the master reports it: 2^-20 fine line, and ns. -/
def State.webV (s : State) : Int × Nat :=
  let v := s.masterV s.masterSel
  (v.1 * (match s.press.job with
    | some j => j.webScale
    | none => s.get PGP_WEB_SCALE_SCALE : Nat), v.2)

/-- v of a quadrature input. -/
def State.quadV (s : State) (q : Nat) : Int × Nat :=
  let x := s.qinp q
  if s.on (ENC_Q_STATUS_STANDSTILL q) then (0, 1) else speedNow x.vNum x.vDen 1 (s.now - x.last.getD s.now)

/-- v of a serial input. -/
def State.serialV (s : State) (n : Nat) : Int × Nat :=
  if s.on (ENC_S_STATUS_STANDSTILL n) then (0, 1) else ((s.sinp n).vNum, max 1 (s.sinp n).vDen)

/-! ### Master edges (R404 to R411) -/

/-- The direction of an edge (R406): backward? With DIR_SRC 0 the web axis's command decides; at standstill of the command the last
direction stays (DESIGN CHOICE, log 73). -/
def State.edgeBack (s : State) (m : Nat) (b : Bool) : Bool :=
  if s.on (ENC_M_CFG_DIR_SRC m) then (if s.on (ENC_M_CFG_DIR_INV m) then b else !b)
  else match s.web.plan with
    | .runup => false
    | .follow => false
    | _ => if s.web.vel < 0 then true else if 0 < s.web.vel then false else (s.minp m).back

/-- What an edge measures: its k, whether it recognised a reference, the tooth faults found, the regular interval it adds, and
the short interval that waits. -/
structure EdgeClass where
  k : Nat
  ref : Bool
  faults : Nat
  reg : Option Nat
  short : Option Nat
  dt : Nat
  deriving DecidableEq, Repr

/-- R407 for an interval, with τ valid: `sum` is that of the last four regular intervals. -/
def State.classifyEdge (s : State) (m : Nat) (x : MasterIn) (d sum : Nat) : EdgeClass :=
  let lost := b2n x.short.isSome
  if 16 * d < 3 * sum then
    if s.refKind m = 2 then
      match x.short with
      | some d1 => { k := 1, ref := true, faults := 0, reg := some (d1 + d), short := none, dt := d1 + d }
      | none => { k := 0, ref := false, faults := 0, reg := none, short := some d, dt := d }
    else { k := 0, ref := false, faults := 1, reg := none, short := none, dt := d }
  else if 8 * d < 3 * sum then { k := 1, ref := false, faults := lost, reg := some d, short := none, dt := d }
  else
    let k := min 4 ((8 * d + sum) / (2 * max 1 sum))
    let r := s.refKind m == 1 && k == s.gapOf m + 1
    { k := k, ref := r, faults := lost + b2n (!r), reg := none, short := none, dt := d }

/-- R408 with τ invalid: k_e when locked, else 1; an interval of one whole pitch counts towards τ (DEDUCED, log 72). -/
def State.unclassified (s : State) (m : Nat) (x : MasterIn) (back : Bool) (d : Option Nat) : EdgeClass :=
  let k := if s.on (ENC_M_STATUS_LOCKED m) then s.expectK m x back else 1
  { k := k, ref := false, faults := 0, reg := if k = 1 ∧ x.atExtra = false then d else none, short := none, dt := d.getD 1 }

/-- Count tooth faults (R407). -/
def State.toothFaults (s : State) (m : Nat) : Nat → State
  | 0 => s
  | n + 1 => ((s.addSat (ENC_M_TOOTH_COUNT_COUNT m) 1).inputTally (.master (Fin.ofNat 2 m))).toothFaults m n

/-- A reference fault (R410): kind 1 misplaced, 2 missing. -/
def State.refFault (s : State) (m kind idx : Nat) : State :=
  ((((s.addSat (ENC_M_REF_COUNT_COUNT m) 1).event Ev.REF_FAULT m [kind, idx, twos 48 (s.minp m).pos]).cause ENC_IRQ_CAUSE_REF_FAULT)).inputTally
    (.master (Fin.ofNat 2 m))

/-- Show a master input's flags. -/
def State.showMaster (s : State) (m : Nat) : State :=
  let x := s.minp m
  ((s.putB (ENC_M_STATUS_TAU_VALID m) (x.ints.length == 4)).putB (ENC_M_STATUS_DIR m) x.back).put (ENC_M_STATUS_INDEX m) x.idx

/-- An accepted edge of a master input in its direction (R407 to R412). -/
def State.edgeCount (s : State) (m : Nat) (back : Bool) : State :=
  let x := s.minp m
  let still := s.on (ENC_M_STATUS_STANDSTILL m)
  let x0 : MasterIn := if still then { x with ints := [], runs := 0, short := none } else x
  -- an interval that holds a standstill has not been seen since it
  let d := if still then none else x.last.map (fun t => s.now - t)
  if x.last.isSome ∧ back ≠ x.back then
    -- R409
    ((s.setMinp m { x0 with back := back, last := some s.now, ints := [], runs := 1, vNum := 0, vDen := 1, short := none }).putB
      (ENC_M_STATUS_STANDSTILL m) false).showMaster m
  else
    let valid := x0.ints.length == 4
    let e := if valid then s.classifyEdge m x0 (d.getD 1) (x0.ints.foldl (· + ·) 0) else s.unclassified m x0 back d
    let locked := s.on (ENC_M_STATUS_LOCKED m)
    let t := s.teeth m
    let raw : Int := (x0.idx : Int) + (if back then -(e.k : Int) else (e.k : Int))
    let idx := (raw % t).toNat
    let at0 := if back then x0.idx == 0 else idx == 0
    let crosses := if back then decide (raw < 0) else decide ((t : Int) ≤ raw)
    let misplaced := locked && e.ref && !at0
    let missing := locked && valid && crosses && !e.ref
    -- a first reference sets the index (DEDUCED, log 72); a misplaced one sets it to 0
    let idx1 := if e.ref ∧ locked = false then (if back then t - e.k else 0) else if misplaced then 0 else idx
    let runs := x0.runs + 1
    let dir : Int := if back then -1 else 1
    let x1 : MasterIn :=
      { pos := sgn 48 (twos 48 (x0.pos + dir * e.k)), idx := idx1, last := some s.now, back := back
        ints := match e.reg with
          | some r => (x0.ints ++ [r]).drop ((x0.ints.length + 1) - 4)
          | none => x0.ints
        runs := runs, vNum := if 2 ≤ runs then dir * (e.k : Int) else 0, vDen := max 1 e.dt, short := e.short
        atExtra := s.refKind m == 2 && e.k == 0 && !x0.atExtra }
    let s1 := (s.setMinp m x1).putB (ENC_M_STATUS_STANDSTILL m) false
    let s2 := if e.ref then s1.putB (ENC_M_STATUS_LOCKED m) true else s1
    let s3 := (s2.showMaster m).toothFaults m e.faults
    if misplaced then s3.refFault m 1 idx else if missing then s3.refFault m 2 idx else s3

/-- An active edge at a master input (R405); false when it was ignored. -/
def State.masterInput (s : State) (m : Nat) (b : Bool) : State × Bool :=
  let short := match (s.minp m).last with
    | some t => Nat.blt (s.now - t) (4 * s.get (ENC_M_TIME_MIN_INT m))
    | none => false
  if short then ((s.addSat (ENC_M_SHORT_COUNT_COUNT m) 1).inputTally (.master (Fin.ofNat 2 m)), false)
  else (s.edgeCount m (s.edgeBack m b), true)

/-- D of R415. -/
def State.crossD (s : State) : Int :=
  let m := s.masterSel
  let c0 : Nat → Int := fun i => if i = 0 then s.enc.base.1 else s.enc.base.2
  let u := s.getS ENC_XCHK_RATIO_XRATIO * ((s.minp m).pos - c0 m)
  let r : Int := if u < 0 then -((((2 * u.natAbs + 65536) / 131072 : Nat)) : Int) else ((2 * u.natAbs + 65536) / 131072 : Nat)
  (s.minp (1 - m)).pos - c0 (1 - m) - r

/-- The cross-check at an edge of the cross-check input (R415). -/
def State.crossCheck (s : State) : State :=
  if ¬ s.on ENC_XCHK_EN ∨ s.ust (.master 0) != .on ∨ s.ust (.master 1) != .on then s
  else
    let d := s.crossD
    let s1 := s.putS ENC_XCHK_D_D d
    if s.get ENC_XCHK_XWIN < d.natAbs then
      if s.on ENC_IRQ_CAUSE_MISMATCH_NOW then s1
      else
        let trip := s.on ENC_XCHK_XSTOP && (s.clk == clkRunning || s.clk == clkLocking)
        let s2 := (((s1.putB ENC_XCHK_MISMATCH true).putB ENC_IRQ_CAUSE_MISMATCH_NOW true).event Ev.MASTER_MISMATCH (1 - s.masterSel)
          [twos 32 d, s.get ENC_XCHK_XWIN, b2n trip]).cause ENC_IRQ_CAUSE_MISMATCH
        if trip then s2.webStopTrip else s2
    else s1.putB ENC_IRQ_CAUSE_MISMATCH_NOW false

/-- Take the present positions as the cross-check's base (R415). -/
def State.crossBase (s : State) : State :=
  s.setEnc { s.enc with base := ((s.minp 0).pos, (s.minp 1).pos) }

/-! ### Standstill (R412 rule 1) -/

/-- An input enters standstill. -/
def State.inputStill (s : State) (u : UnitId) : State :=
  if s.ust u != .on then s
  else
    match u with
    | .master m => ((s.setMinp m { s.minp m with ints := [], runs := 0, vNum := 0, vDen := 1, short := none }).putB
        (ENC_M_STATUS_STANDSTILL m) true).showMaster m
    | .quad q => (s.setQinp q { s.qinp q with runs := 0, vNum := 0, vDen := 1 }).putB (ENC_Q_STATUS_STANDSTILL q) true
    | .serial n => (s.setSinp n { s.sinp n with runs := 0, vNum := 0, vDen := 1 }).putB (ENC_S_STATUS_STANDSTILL n) true
    | _ => s

def execStandstillTimeout (u : UnitId) (s : State) : Out := finish (s.inputStill u)

/-! ### Quadrature inputs (R416, R417) -/

/-- A change of the filtered pair. -/
def State.quadChange (s : State) (q : Nat) (a b : Bool) : State :=
  let x := s.qinp q
  let u : UnitId := .quad (Fin.ofNat 16 q)
  let s0 := s.setQinp q { x with a := a, b := b }
  if s.ust u != .on ∨ (a = x.a ∧ b = x.b) then s0
  else if a ≠ x.a ∧ b ≠ x.b then
    let s1 := s0.addSat (ENC_Q_ILLEGAL_COUNT_COUNT q) 1
    let s2 := if s.on (ENC_Q_STATUS_ILLEGAL q) then s1
      else ((s1.putB (ENC_Q_STATUS_ILLEGAL q) true).event Ev.ILLEGAL_TRANSITION (16 + q) [s.get (ENC_Q_COUNT_COUNT q), s.now]).cause
        ENC_IRQ_CAUSE_ILLEGAL
    s2.inputTally u
  else
    let up := (if a ≠ x.a then a != x.b else x.a == b) != s.on (ENC_Q_CFG_DIR_INV q)
    let back := !up
    let first := x.last.isNone || s.on (ENC_Q_STATUS_STANDSTILL q) || (back != x.back)
    let runs := if first then 1 else x.runs + 1
    let v : Int := if back then -1 else 1
    let x1 : CountIn := { x with a := a, b := b, last := some s.now, back := back, runs := runs
                                 vNum := if 2 ≤ runs then v else 0, vDen := max 1 (s.now - x.last.getD s.now) }
    (((s.setQinp q x1).putS (ENC_Q_COUNT_COUNT q) (s.getS (ENC_Q_COUNT_COUNT q) + v)).putB (ENC_Q_STATUS_STANDSTILL q) false).putB
      (ENC_Q_STATUS_DIR q) back

def execQuadratureChange (q : Fin 16) (a b : Bool) (s : State) : Out := finish (s.quadChange q a b)

/-! ### Serial absolute inputs (R418 to R422) -/

/-- Does a serial input read words: STARTING or ON? -/
def State.serialReads (s : State) (n : Nat) : Bool :=
  s.ust (.serial (Fin.ofNat 4 n)) == .on || s.ust (.serial (Fin.ofNat 4 n)) == .starting

def execSerialReadStart (n : Fin 4) (s : State) : Out :=
  finish (if s.serialReads n then s.setSinp n { s.sinp n with reading := some s.now } else s)

/-- One step of a CRC of a degree, most significant bit first. -/
def crcStep (deg poly : Nat) (c : Nat) (b : Bool) : Nat :=
  let top := bit c (deg - 1)
  let c1 := 2 * c % 2 ^ deg
  if top != b then c1 ^^^ (poly % 2 ^ deg) else c1

/-- The check of a word (R419): CRC over bits [LEN - 1:CRC_LEN]. -/
def State.serialCrc (s : State) (n w : Nat) : Nat :=
  let deg := s.get (ENC_S_CFG_CRC_LEN n)
  let len := s.get (ENC_S_CFG_LEN n)
  let c := (List.range (len - deg)).foldl (fun c i => crcStep deg (s.get (ENC_S_CRC_CRC_POLY n)) c (bit w (len - 1 - i)))
    (s.get (ENC_S_CRC_CRC_INIT n) % 2 ^ deg)
  if s.on (ENC_S_CFG_CRC_INV n) then c ^^^ (2 ^ deg - 1) else c

/-- Gray code to binary, `n` bits. -/
def grayDecode (v : Nat) : Nat → Nat
  | 0 => v
  | n + 1 => (grayDecode v n) ^^^ (v / 2 ^ (n + 1))

/-- The position a word carries (R419). -/
def State.serialPos (s : State) (n w : Nat) : Nat :=
  let len := s.get (ENC_S_FIELD_POS_LEN n)
  let v := w / 2 ^ s.get (ENC_S_FIELD_POS_LSB n) % 2 ^ len
  if s.on (ENC_S_CFG_GRAY n) then grayDecode v len else v

/-- A valid word (R421). -/
def State.serialValid (s : State) (n : Nat) (w stamp : Nat) : State :=
  let x := s.sinp n
  let p := s.serialPos n w
  let len := s.get (ENC_S_FIELD_POS_LEN n)
  match x.pos with
  | none =>
    (s.setSinp n { x with pos := some p, good := x.good + 1, lastWord := some stamp, vNum := 0, vDen := 1 }).put (ENC_S_COUNT_COUNT n) p
  | some p0 =>
    let d := sgn len (twos len ((p : Int) - p0))
    let back := decide (d < 0)
    let s1 := s.putS (ENC_S_COUNT_COUNT n) (s.getS (ENC_S_COUNT_COUNT n) + d)
    if d = 0 then s1.setSinp n { x with pos := some p, good := x.good + 1, lastWord := some stamp, vNum := 0, vDen := 1 }
    else
      let first := s.on (ENC_S_STATUS_STANDSTILL n) || x.runs == 0 || (back != x.back)
      let runs := if first then 1 else x.runs + 1
      let x1 : CountIn := { x with pos := some p, good := x.good + 1, lastWord := some stamp, last := some stamp, back := back, runs := runs
                                   vNum := if 2 ≤ runs then d else 0, vDen := max 1 (stamp - x.lastWord.getD stamp) }
      ((s1.setSinp n x1).putB (ENC_S_STATUS_STANDSTILL n) false).putB (ENC_S_STATUS_DIR n) back

/-- A word is discarded (R420). -/
def State.serialBad (s : State) (n : Nat) (f : Fld) : State :=
  ((s.setSinp n { s.sinp n with good := 0 }).addSat f 1).inputTally (.serial (Fin.ofNat 4 n))

/-- A word completes (R418 to R421). -/
def State.serialWord (s : State) (n : Nat) (timeout : Bool) (word : Nat) : State :=
  match (s.sinp n).reading with
  | none => s
  | some t =>
    if s.serialReads n = false then s
    else
      let len := s.get (ENC_S_CFG_LEN n)
      let w := word % 2 ^ len
      let deg := s.get (ENC_S_CFG_CRC_LEN n)
      let s1 := s.setSinp n { s.sinp n with reading := none, raw := if timeout then (s.sinp n).raw else w }
      if timeout then s1.serialBad n (ENC_S_TIMEOUT_COUNT_COUNT n)
      else if deg ≠ 0 ∧ s.serialCrc n w ≠ w % 2 ^ deg then s1.serialBad n (ENC_S_CRC_COUNT_COUNT n)
      else if s.on (ENC_S_CFG_ERR_EN n) ∧ bit w (s.get (ENC_S_CFG_ERR_POS n)) = s.on (ENC_S_CFG_ERR_POL n) then
        s1.serialBad n (ENC_S_ERRBIT_COUNT_COUNT n)
      else s1.serialValid n w t

def execSerialWordReceived (n : Fin 4) (timeout : Bool) (word : BitVec 64) (s : State) : Out :=
  finish (s.serialWord n timeout word.toNat)

/-! ### Starting an input (R402, R422) -/

/-- Is the configuration of an input invalid (reason 1)? -/
def State.inputBad (s : State) (u : UnitId) : Bool :=
  match u with
  | .master m => s.refKind m == 3 || Nat.blt (s.get (ENC_M_CFG_TEETH m)) 8 || Nat.blt 4096 (s.get (ENC_M_CFG_TEETH m)) ||
      (s.refKind m == 1 && s.gapOf m == 0)
  | .serial n =>
    let len := s.get (ENC_S_CFG_LEN n)
    let deg := s.get (ENC_S_CFG_CRC_LEN n)
    let lsb := s.get (ENC_S_FIELD_POS_LSB n)
    let pl := s.get (ENC_S_FIELD_POS_LEN n)
    let div := s.get (ENC_S_CLK_DIV n)
    let ep := s.get (ENC_S_CFG_ERR_POS n)
    Nat.blt len 8 || Nat.blt 64 len || Nat.blt 16 deg || pl == 0 || Nat.blt 32 pl || Nat.blt len (lsb + pl) || Nat.blt lsb deg ||
      (s.on (ENC_S_CFG_ERR_EN n) && (Nat.ble len ep || Nat.blt ep deg)) || Nat.blt div 10 || Nat.blt 1000 div ||
      Nat.blt (s.get (ENC_S_TIME_PERIOD n) * 1000) ((len + 1) * div * 10 + 2 * s.get (ENC_S_TIME_TIMEOUT n) * 1000)
  | _ => false

/-- The start actions of an input: position 0, standstill, tally cleared (R402). -/
def State.inputStart (s : State) (u : UnitId) : State :=
  let s1 := ((s.put (tallyFld u).1 0).put (tallyFld u).2.1 0)
  let s2 := match u with
    | .master m => ((((s1.setMinp m MasterIn.reset).putB (ENC_M_STATUS_STANDSTILL m) true).putB (ENC_M_STATUS_LOCKED m) false)).showMaster m
    | .quad q => ((s1.setQinp q { CountIn.reset with a := (s.qinp q).a, b := (s.qinp q).b }).put (ENC_Q_COUNT_COUNT q) 0).putB
        (ENC_Q_STATUS_STANDSTILL q) true
    | .serial n => ((s1.setSinp n CountIn.reset).put (ENC_S_COUNT_COUNT n) 0).putB (ENC_S_STATUS_STANDSTILL n) true
    | _ => s1
  if s.inputBad u then s2.inputFault u 1 else s2

end Sys2Proof.Machine
end

