-- ==== Sys2Proof/Machine/Cam.lean ====
section
/-!
DEFINITION. Inspection cameras (10_cameras.md): contexts, frames and lines, pipelines and corrections, BLACK and FLAT
calibration, the registration mark finder, and the CAM ring.
-/
namespace Sys2Proof.Machine

/-- Replace the cameras' record. -/
def State.setCam (s : State) (x : Cam) : State := { s with cam := x }

/-- A context's record. -/
def State.cctx (s : State) (x : Nat) : CamCtx := s.cam.ctxs.getD x CamCtx.reset
def State.setCctx (s : State) (x : Nat) (c : CamCtx) : State := s.setCam { s.cam with ctxs := s.cam.ctxs.set x c }

/-- Bits per pixel of a DT code. -/
def dtBits (dt : Nat) : Nat :=
  match dt with
  | 0 => 8
  | 1 => 10
  | 2 => 12
  | 3 => 14
  | _ => 16

/-- The parameters a frame fixed at its start (R333). -/
def CamParams.width (p : CamParams) : Nat := bits p.size.toNat 13 0
def CamParams.lines (p : CamParams) : Nat := bits p.size.toNat 29 16
def CamParams.cfa (p : CamParams) : Bool := bit p.cfg.toNat 11
def CamParams.nbits (p : CamParams) : Nat := dtBits (bits p.cfg.toNat 10 8)
def CamParams.sx (p : CamParams) : Nat := bits p.grid.toNat 3 0
def CamParams.sy (p : CamParams) : Nat := bits p.grid.toNat 7 4
def CamParams.ph (p : CamParams) (x y : Nat) : Nat := if p.cfa then 2 * (y % 2) + x % 2 else 0
def CamParams.stride (p : CamParams) : Nat := ceilDiv (16 + 2 * p.width) 64 * 64
/-- Is line `y` an optical-black line (R343)? -/
def CamParams.isOb (p : CamParams) (y : Nat) : Bool :=
  Nat.ble (bits p.ob.toNat 13 0) y && Nat.blt y (bits p.ob.toNat 13 0 + bits p.ob.toNat 29 16)

/-- The dedicated pipeline of a context (R337). -/
def State.dedicated (s : State) (x : Nat) : Option Nat :=
  if s.on CAM_PIPE_SEL_VALID0 ∧ s.get CAM_PIPE_SEL_CTX0 = x then some 0
  else if s.on CAM_PIPE_SEL_VALID1 ∧ s.get CAM_PIPE_SEL_CTX1 = x then some 1
  else none

/-- The context that names a port and virtual channel and is in STARTING, ON or STOPPING (R332). -/
def State.ctxOf (s : State) (port vc : Nat) : Option Nat :=
  (List.range 16).find? (fun x => s.get (CAM_CTX_CFG_PORT x) == port && s.get (CAM_CTX_CFG_VC x) == vc &&
    (match s.ust (.ctx (Fin.ofNat 16 x)) with
     | .starting => true
     | .on => true
     | .stopping => true
     | _ => false))

/-- Note traffic at a port (CAM_PORT_STATUS.ACTIVE). -/
def State.portTraffic (s : State) (p : Nat) : State := s.setCam { s.cam with traffic := s.cam.traffic.set p (some s.time.cyc) }

/-- Advance one of CAM_CTX_CNT. -/
def State.camCount (s : State) (x i n : Nat) : State := s.addSat (CAM_CTX_CNT_COUNT x i) n

/-- Show the pipelines' state in CAM_PIPE_STATUS. -/
def State.showPipes (s : State) : State :=
  (s.put CAM_PIPE_STATUS_WAITING ((s.cam.frames.filter (fun f => f.buf.isSome && f.pipe.isNone)).length)).put CAM_PIPE_STATUS_BUSY
    ((List.range 4).foldl (fun a p => a + 2 ^ p * b2n (s.cam.frames.any (fun f => f.pipe == some p))) 0)

/-- Change the frame of a context with a number. -/
def State.updFrame (s : State) (x no : Nat) (f : Frame → Frame) : State :=
  s.setCam { s.cam with frames := s.cam.frames.map (fun r => if r.ctx = x ∧ r.no = no then f r else r) }

/-- The open frame of a context. -/
def State.openFrame (s : State) (x : Nat) : Option Frame := s.cam.frames.find? (fun f => f.ctx == x && f.isOpen)

/-- A frame becomes CORRUPT (R330, R334, R337). -/
def State.corrupt (s : State) (x no : Nat) : State := (s.updFrame x no (fun f => { f with corrupt := true })).cause CAM_IRQ_CAUSE_CORRUPT

/-! ### Web position of a line (R335, R411) -/

/-- The position at an instant after the last edge: the last speed, bounded by the next edge's pitch. -/
def State.webAhead (s : State) (x0 : Int) (dt : Int) : Int :=
  let d := roundDiv (s.press.velWeb * dt) (max 1 s.press.velNs)
  if s.press.nextWeb.natAbs < d.natAbs then (if d < 0 then x0 - s.press.nextWeb.natAbs else x0 + s.press.nextWeb.natAbs) else x0 + d

/-- Interpolate between the edges on either side of an instant. -/
def webBetween (t : Int) : List (Nat × Int) → Option Int
  | a :: b :: r =>
    if (b.1 : Int) ≤ t then some (b.2 + roundDiv ((a.2 - b.2) * (t - b.1)) (max 1 (a.1 - b.1)))
    else webBetween t (b :: r)
  | [a] => some a.2
  | [] => none

/-- The web position at an instant in ns, in 2^-20 fine line. -/
def State.webAt (s : State) (t : Int) : Int :=
  match s.press.edges with
  | [] => s.press.webPos
  | e :: r => if (e.1 : Int) ≤ t then s.webAhead e.2 (t - e.1) else (webBetween t (e :: r)).getD s.press.webPos

/-- X of R335 in 1/65,536 plane-0 job line. -/
def State.webXAt (s : State) (t : Int) : Int := roundDiv (s.webAt t - s.press.webAtTick0) (16 * fineOf s.mode)

/-! ### The frame format (R349) -/

/-- The header flags of a frame. -/
def Frame.flags (f : Frame) (raw trunc : Bool) : Nat :=
  b2n (f.short || trunc) + 2 * b2n f.long + 4 * b2n (f.corrupt || f.corruptProc) + 8 * b2n f.late + 16 * b2n (f.trunc || trunc) +
    32 * b2n raw + 64 * b2n f.p.cfa + 128 * b2n f.inspect

/-- Bytes of a line record and pixels, filled to the stride. -/
def lineBytes (p : CamParams) (y : Nat) (l : CamLine) (px : List Nat) : List Byte :=
  let b := leBytes 8 (twos 64 l.x) ++ leBytes 4 (twos 32 l.t) ++
    [BitVec.ofNat 8 (b2n l.nopos + 2 * b2n l.crc + 4 * b2n (p.isOb y)), 0, 0, 0] ++ (px.map (fun v => leBytes 2 v)).flatten
  (b ++ List.replicate p.stride 0).take p.stride

/-- The header of a frame of `n` lines. -/
def Frame.header (f : Frame) (n : Nat) (raw trunc : Bool) : List Byte :=
  let b : List Byte := [0x46, 0x43, 0x01, BitVec.ofNat 8 f.ctx] ++ leBytes 2 (f.flags raw trunc) ++ leBytes 2 f.p.width ++ leBytes 2 n ++
    [BitVec.ofNat 8 f.p.nbits, 0] ++ leBytes 4 f.no ++ leBytes 8 f.start ++
    leBytes 8 (twos 64 ((f.lines.head?.map (fun l => l.x)).getD 0)) ++ leBytes 5 f.press ++ leBytes 3 0 ++ leBytes 4 f.p.stride
  (b ++ List.replicate f.p.stride 0).take f.p.stride

/-- Lines that fit in a buffer or slot. -/
def fitLines (size stride : Nat) : Nat := size / max 1 stride - 1

/-- A frame as written to a slot: header and the lines that fit. -/
def Frame.image (f : Frame) (size : Nat) (raw : Bool) : List Byte :=
  let n := min f.lines.length (fitLines size f.p.stride)
  f.header n raw (Nat.blt n f.lines.length) ++
    (((f.lines.take n).zipIdx).map (fun e => lineBytes f.p e.2 e.1 (if raw then e.1.pixels else f.outs.getD e.2 []))).flatten

/-! ### Buffers and captures (R348) -/

/-- The completion of a FRAME_BUF all of whose buffers were used and returned, or revoked. -/
def State.bufDone (s : State) (x : Nat) (b : BufDesc) (revoked : Nat) : State :=
  (s.setCctx x { s.cctx x with bufs := (s.cctx x).bufs.filter (fun d => d.seq != b.seq) }).complete 5 b.seq 2 Ev.FRAME_BUF_DONE stOK x
    [b.count - revoked, revoked, b.user] false

/-- A buffer returns to the pool, or leaves it when its context is no longer ON. -/
def State.bufReturn (s : State) (x : Nat) (e : Nat × Nat × Nat) : State :=
  let c := s.cctx x
  let on := s.ust (.ctx (Fin.ofNat 16 x)) == .on
  let s1 := s.setCctx x { c with free := if on then c.free ++ [e] else c.free,
                                 bufs := c.bufs.map (fun b => if b.seq = e.1 then { b with out := b.out.filter (fun a => a != e.2.1) } else b) }
  match (s1.cctx x).bufs.find? (fun b => b.seq == e.1 && b.out == []) with
  | some b => s1.bufDone x b 0
  | none => s1

/-- A CAPTURE completes. -/
def State.capDone (s : State) (x : Nat) (c : CapDesc) (status : Nat) : State :=
  (s.setCctx x { s.cctx x with caps := (s.cctx x).caps.filter (fun d => d.seq != c.seq) }).complete 5 c.seq 2 Ev.CAPTURE_DONE status x
    [c.written, c.user] false

/-- Write a frame into a slot of a CAPTURE (R348, R349). -/
def State.capWrite (s : State) (f : Frame) (seq slot : Nat) : State :=
  match (s.cctx f.ctx).caps.find? (fun c => c.seq == seq) with
  | none => s
  | some c =>
    let bs := f.image c.slot (!c.corrected)
    let at' := c.addr + slot * c.slot
    let n := min f.lines.length (fitLines c.slot f.p.stride)
    let s1 := if c.device then s.dramWrite at' bs [] else { s with hostMem := Mem.writes s.hostMem at' bs }
    let c1 := { c with written := c.written + 1 }
    let s2 := s1.setCctx f.ctx { s1.cctx f.ctx with caps := (s1.cctx f.ctx).caps.map (fun d => if d.seq = seq then c1 else d) }
    let s3 := if c.evt then s2.event Ev.CAM_FRAME f.ctx [slot, f.no, f.flags (!c.corrected) (Nat.blt n f.lines.length), n] else s2
    if c1.written = c1.count then s3.capDone f.ctx c1 stOK else s3

/-- Captures of a context that take a frame of a mode next: descriptor and slot. -/
def CamCtx.attach (c : CamCtx) (inspect : Bool) : List (Nat × Nat) × CamCtx :=
  let sel := c.caps.filter (fun d => d.inspect == inspect && Nat.blt d.next d.count)
  (sel.map (fun d => (d.seq, d.next)),
   { c with caps := c.caps.map (fun d => if d.inspect = inspect ∧ d.next < d.count then { d with next := d.next + 1 } else d) })

/-- Fail the CAPTUREs of a context that is not ON and whose frames under way no longer need them (R348). -/
def State.capsFail (s : State) (x : Nat) : State :=
  if s.ust (.ctx (Fin.ofNat 16 x)) == .on then s
  else ((s.cctx x).caps.filter (fun c => !s.cam.frames.any (fun f => f.ctx == x && f.caps.any (fun e => e.1 == c.seq)))).foldl
    (fun s c => s.capDone x c stFAILED) s

/-- What a context does when it leaves ON: its unused buffers are revoked and its CAPTUREs fail, those of frames under way once
the frame is done (R331, R348). -/
def State.camLeaveOn (s : State) (x : Nat) : State :=
  let free := (s.cctx x).free
  let s1 := s.setCctx x { s.cctx x with free := [] }
  let s2 := (s1.cctx x).bufs.foldl (fun s b =>
    let rev := (b.out.filter (fun a => free.any (fun e => e.1 == b.seq && e.2.1 == a)))
    let b1 := { b with out := b.out.filter (fun a => !rev.contains a) }
    let s' := s.setCctx x { s.cctx x with bufs := (s.cctx x).bufs.map (fun d => if d.seq = b.seq then b1 else d) }
    if b1.out = [] then s'.bufDone x b rev.length else s') s1
  s2.capsFail x

/-! ### The mark finder (R345, R346) -/

/-- A window's mark. -/
def State.mark (s : State) (w : Nat) : Mark := s.cam.marks.getD w Mark.reset
def State.setMark (s : State) (w : Nat) (m : Mark) : State := s.setCam { s.cam with marks := s.cam.marks.set w m }

/-- A valid measurement of a plane (R346). -/
def State.measured (s : State) (q : Nat) (t : Int) (delta : F32) : State :=
  let newer := match (s.cam.reg.getD q RegLat.reset).t with
    | none => true
    | some t0 => decide (t0 ≤ t)
  if newer then
    let s1 := s.setCam { s.cam with reg := s.cam.reg.set q { t := some t, lat := delta, lost := false } }
    s1.putS (CAM_REG_PLANE_DELTA q) (f32Round delta 256)
  else s

/-- The centre δ_w of a closed mark (R345). -/
def State.markDelta (s : State) (w : Nat) (m : Mark) : F32 :=
  let x := s.get (CAM_REG_CFG_CTX w)
  let c := f32Add (f32Ratio (s.getS (CAL_VIEW_COL0_COL0 x)) 256)
    (f32Mul (f32Div m.sx m.sw) (f32Ratio (s.get (CAL_VIEW_PITCH_PITCH x) : Nat) 65536))
  f32Sub (f32Ratio (s.getS (CAM_REG_CENTER_CENTER w)) 256) c

/-- Close a window's mark (R345). -/
def State.closeMark (s : State) (w : Nat) : State :=
  let m := s.mark w
  if m.n = 0 then s
  else
    let s1 := s.setMark w Mark.reset
    if s.get (CAM_REG_CFG_MIN_LINES w) ≤ m.n ∧ m.edges then
      let d := s.markDelta w m
      (s1.putS (CAM_REG_LAST_DELTA w) (f32Round d 256)).measured (s.get (CAM_REG_CFG_PLANE w)) m.t d
    else s1.addSat CAM_REG_INVALID_COUNT 1

/-- One line for one window (R345): T_line in ns. -/
def State.windowLine (s : State) (w : Nat) (t : Int) (outs : List Nat) : State :=
  let x0 := s.get (CAM_REG_PIX_X0 w)
  let x1 := s.get (CAM_REG_PIX_X1 w)
  let thr := f32Ratio (s.get (CAM_REG_THR_THR w) : Nat) 1024
  let ws := ((outs.zipIdx).filter (fun e => Nat.ble x0 e.2 && Nat.ble e.2 x1)).map (fun e => (e.2, f32Max 0 (f32Sub (density e.1) thr)))
  let sw := ws.foldl (fun a e => f32Add a e.2) 0
  if f32Lt 0 sw then
    let m := s.mark w
    let at0 := fun i => match ws.find? (fun (e : Nat × F32) => e.1 == i) with
      | some e => f32Zero e.2
      | none => true
    s.setMark w { sw := ws.foldl (fun a e => f32Add a e.2) m.sw
                  sx := ws.foldl (fun a e => f32Add a (f32Mul e.2 (f32Ratio (2 * e.1 + 1 : Nat) 2))) m.sx
                  n := m.n + 1, edges := m.edges && at0 x0 && at0 x1, t := t }
  else s.closeMark w

/-- The windows of a context. -/
def State.windowsOf (s : State) (x : Nat) : List Nat :=
  (List.range 16).filter (fun w => s.on (CAM_REG_CFG_EN w) && s.get (CAM_REG_CFG_CTX w) == x)

/-! ### Opening and closing frames (R333, R334, R338) -/

/-- Everything of a frame has been processed: it is delivered (R336, R338, R348). -/
def State.frameDone (s : State) (f : Frame) : State :=
  let s0 := (s.windowsOf f.ctx).foldl (fun s w => s.closeMark w) s
  let (ins, c1) := if f.inspect then (s0.cctx f.ctx).attach true else ([], s0.cctx f.ctx)
  let s1 := ((s0.setCctx f.ctx c1).camCount f.ctx 0 1).camCount f.ctx 7 (b2n f.late)
  let s2 := match f.buf with
    | some b => s1.dramWrite b.2.1 (f.header f.lines.length true false) []
    | none => s1
  let s3 := (f.caps ++ ins).foldl (fun s e => s.capWrite f e.1 e.2) s2
  let s4 := s3.setCam { s3.cam with frames := s3.cam.frames.filter (fun r => !(r.ctx == f.ctx && r.no == f.no)) }
  let s5 := match f.buf with
    | some b => s4.bufReturn f.ctx b
    | none => s4
  (s5.capsFail f.ctx).showPipes

/-- Deliver a frame of a context once it is closed and processed. -/
def State.frameCheck (s : State) (x no : Nat) : State :=
  match s.cam.frames.find? (fun f => f.ctx == x && f.no == no) with
  | some f => if ¬ f.isOpen ∧ f.done = f.lines.length then s.frameDone f else s
  | none => s

/-- The line of a context ends (R334): short lines are discarded, lines beyond LINES too; a shared context's line goes to its
buffer in device DRAM. -/
def State.lineDone (s : State) (x : Nat) : State :=
  match s.openFrame x with
  | none => s
  | some f =>
    match f.cur with
    | none => s
    | some l =>
      let s1 := s.updFrame x f.no (fun r => { r with cur := none, overrun := false })
      let n := f.lines.length
      let f1 := if l.crc then s1.corrupt x f.no else s1
      let f2 := if f.p.lines ≤ n then (f1.camCount x 2 1).updFrame x f.no (fun r => { r with long := true }) else f1
      if l.pixels.length < f.p.width then (f2.camCount x 4 1).corrupt x f.no
      else if f.p.lines ≤ n then f2
      else
        let extra := l.pixels.length - f.p.width
        let page := match s.press.job with
          | some j => (match j.pageAt (s.shownLine x l.x).1.toNat with
              | some p => p.inspect && decide (0 ≤ (s.shownLine x l.x).1)
              | none => false)
          | none => false
        let l1 := { l with pixels := l.pixels.take f.p.width, clean := !(f.corrupt || l.crc) }
        let fits := match f.buf with
          | some b => Nat.blt n (fitLines b.2.2 f.p.stride)
          | none => true
        let s2 := (f1.camCount x 2 extra).updFrame x f.no (fun r =>
          { r with long := r.long || Nat.blt 0 extra, inspect := r.inspect || (page && !l.nopos)
                   lines := if fits then r.lines ++ [l1] else r.lines
                   trunc := r.trunc || !fits, short := r.short || !fits })
        match f.buf, fits with
        | some b, true => s2.dramWrite (b.2.1 + (n + 1) * f.p.stride) (lineBytes f.p n l1 l1.pixels) []
        | _, _ => s2

/-- Close a context's open frame (R334). -/
def State.closeFrame (s : State) (x : Nat) : State :=
  let s0 := s.lineDone x
  match s0.openFrame x with
  | none => s0
  | some f =>
    let short := f.short || Nat.blt f.lines.length f.p.lines
    ((s0.camCount x 1 (b2n short)).updFrame x f.no (fun r => { r with isOpen := false, short := short })).frameCheck x f.no

/-- One step of a black level towards its target: 1 DN, which is 16 in 1/16 DN (R310). -/
def stepTo (live target step : Nat) : Nat :=
  if live + step < target then live + step else if target + step < live then live - step else target

/-- The gradual steps of black levels and knots at a frame start (R310, R344). -/
def State.camStep (s : State) (x : Nat) : State :=
  let s1 := (List.range 4).foldl (fun s ph =>
    s.put (CAM_CTX_BLACK_ACTIVE x ph) (stepTo (s.get (CAM_CTX_BLACK_ACTIVE x ph)) (s.get (CAM_CTX_BLACK_TARGET x ph)) 16)) s
  s1.setCam { s1.cam with knotLive := (s1.cam.knotTarget.filter (fun e => e.1 / 1156 == x)).foldl (fun m e =>
    m.set e.1 (stepTo (m.get e.1 0x1000) e.2 4)) s1.cam.knotLive }

/-- The parameter set of a context (R333). -/
def State.camParams (s : State) (x : Nat) : CamParams :=
  { cfg := s.rget (CAM_CTX_CFG x), size := s.rget (CAM_CTX_SIZE x), time := s.rget (CAM_CTX_TIME x), expo := s.rget (CAM_CTX_EXPO x)
    ob := s.rget (CAM_CTX_OB x), grid := s.rget (CAM_CTX_GRID x), dpc := s.rget (CAM_CTX_DPC x)
    black := (List.range 4).map (fun ph => s.get (CAM_CTX_BLACK_ACTIVE x ph))
    defects := (s.cam.defects.filter (fun e => e.1 / 512 == x)).map (fun e => (e.1 % 512, e.2))
    knots := (s.cam.knotLive.filter (fun e => e.1 / 1156 == x)).map (fun e => (e.1 % 1156, e.2))
    flatRef := s.on (CAM_CTX_CFG_FLAT_REF x) }

/-- Open a frame of a context that is ON (R333, R338). -/
def State.openNew (s : State) (x : Nat) (buf : Option (Nat × Nat × Nat)) : State :=
  let (caps, c1) := (s.cctx x).attach false
  let s1 := s.setCctx x c1
  let f : Frame :=
    { ctx := x, no := (s.cctx x).no, start := s.now, press := s.time.line, p := s.camParams x, isOpen := true, cur := none
      overrun := false, lines := [], short := false, long := false, corrupt := false, corruptProc := false, late := false
      trunc := false, inspect := false, buf := buf, pipe := s.dedicated x, done := 0, outs := [], caps := caps }
  (s1.setCam { s1.cam with frames := s1.cam.frames ++ [f] }).showPipes

/-- A frame start on an enabled port (R332 to R334, R338). -/
def State.frameStart (s : State) (port vc : Nat) : State :=
  match s.ctxOf port vc with
  | none =>
    let s1 := (s.addSat (CAM_UNASSIGNED_COUNT port) 1).cause CAM_IRQ_CAUSE_UNASSIGNED
    if s.cam.unassigned.contains (port, vc) then s1
    else (s1.setCam { s1.cam with unassigned := s1.cam.unassigned ++ [(port, vc)] }).event' Ev.STREAM_UNASSIGNED [port, vc]
  | some x =>
    let s0 := (s.setCam { s.cam with unassigned := s.cam.unassigned.filter (fun e => e != (port, vc)) }).closeFrame x
    let no := ((s0.cctx x).no + 1) % 2 ^ 32
    let s1 := (s0.setCctx x { s0.cctx x with no := no }).put (CAM_CTX_STATUS_FRAME_NO x) (no % 65536)
    if s1.ust (.ctx (Fin.ofNat 16 x)) != .on then s1
    else
      let s2 := s1.camStep x
      if (s2.dedicated x).isSome then s2.openNew x none
      else
        match (s2.cctx x).free with
        | b :: r => (s2.setCctx x { s2.cctx x with free := r }).openNew x (some b)
        | [] =>
          let s3 := s2.camCount x 6 1
          if (s3.cctx x).noBuf then s3
          else ((s3.setCctx x { s3.cctx x with noBuf := true }).event Ev.NO_BUFFER x [no]).cause CAM_IRQ_CAUSE_NO_BUFFER

def execFrameStart (port : Fin 6) (vc : Fin 16) (s : State) : Out :=
  finish (if s.on (CAM_PORT_CFG_EN port) then (s.portTraffic port).frameStart port vc else s)

/-- A line starts: it is stamped (R335). -/
def State.lineBegin (s : State) (x : Nat) : State :=
  let s0 := s.lineDone x
  match s0.openFrame x with
  | none => s0
  | some f =>
    let t : Int := (s.now : Int) - f.p.expo.toInt
    let l : CamLine := { x := s.webXAt t, nopos := s.press.job.isNone || s.masterFaulted, t := t - f.start, crc := false
                         clean := true, pixels := [] }
    s0.updFrame x f.no (fun r => { r with cur := some l, overrun := false })

def execLineStart (port : Fin 6) (vc : Fin 16) (s : State) : Out :=
  finish (if s.on (CAM_PORT_CFG_EN port) then
      match (s.portTraffic port).ctxOf port vc with
      | some x => (s.portTraffic port).lineBegin x
      | none => s.portTraffic port
    else s)

/-- Pixels join the line; a dedicated pipeline's full buffer takes only `room` of them (R337). -/
def State.pixelsIn (s : State) (x : Nat) (px : List Nat) (room : Nat) : State :=
  let s0 : State := match s.openFrame x with
    | some f => if f.cur.isNone then s.lineBegin x else s
    | none => s
  match s0.openFrame x with
  | none => s0
  | some f =>
    let past := (s0.dedicated x).isSome && (f.overrun || Nat.blt room px.length)
    let take := if past then (if f.overrun then [] else px.take room) else px
    let s1 := s0.updFrame x f.no (fun r => { r with overrun := past, cur := r.cur.map (fun l => { l with pixels := l.pixels ++ take }) })
    if past ∧ ¬ f.overrun then ((s1.camCount x 5 1).cause CAM_IRQ_CAUSE_OVERRUN).corrupt x f.no else s1

/-- A payload CRC failure (R330). -/
def State.lineCrc (s : State) (x : Nat) : State :=
  match s.openFrame x with
  | none => s
  | some f => ((s.camCount x 3 1).updFrame x f.no (fun r => { r with cur := r.cur.map (fun l => { l with crc := true }) })).corrupt x f.no

/-- A long packet (R328, R330). -/
def State.longPacket (s : State) (port vc dt : Nat) (ecc : EccHeader) (crcOk : Bool) (px : List Nat) (room : Nat) : State :=
  if ecc = .failed then s.addSat (CAM_ECC_ERR_COUNT port) 1
  else
    let s1 := if ecc = .corrected then s.addSat (CAM_ECC_CORR_COUNT port) 1 else s
    if dt = 0x10 ∨ dt = 0x11 ∨ dt = 0x12 then s1
    else if dt < 0x2A ∨ 0x2D < dt then s1.addSat (CAM_DT_DROP_COUNT port) 1
    else
      match s1.ctxOf port vc with
      | none => s1
      | some x =>
        if dt ≠ 0x2A + s1.get (CAM_CTX_CFG_DT x) then s1.addSat (CAM_DT_DROP_COUNT port) 1
        else if crcOk then s1.pixelsIn x px room
        else (s1.pixelsIn x px room).lineCrc x

def execCsi2LongPacket (port : Fin 4) (vc : Fin 16) (dt : Fin 64) (ecc : EccHeader) (crcOk : Bool) (pixels : List (BitVec 16))
    (room : Nat) (s : State) : Out :=
  finish (if s.on (CAM_PORT_CFG_EN port) then
      (s.portTraffic port).longPacket port vc dt ecc crcOk (pixels.map (fun p => p.toNat)) room
    else s)

/-- The pixels a parallel port takes with a line, PD[BITS - 1:0] (R329), then the line's end. -/
def State.lineEnd (s : State) (port vc : Nat) (px : List Nat) (room : Nat) : State :=
  match s.ctxOf port vc with
  | none => s
  | some x =>
    let w := dtBits (s.get (CAM_CTX_CFG_DT x))
    let s1 := if 4 ≤ port ∧ px ≠ [] then s.pixelsIn x (px.map (fun p => p % 2 ^ w)) room else s
    s1.lineDone x

def execLineEnd (port : Fin 6) (vc : Fin 16) (pixels : List (BitVec 16)) (room : Nat) (s : State) : Out :=
  finish (if s.on (CAM_PORT_CFG_EN port) then (s.portTraffic port).lineEnd port vc (pixels.map (fun p => p.toNat)) room else s)

def execFrameEnd (port : Fin 6) (vc : Fin 16) (s : State) : Out :=
  finish (if s.on (CAM_PORT_CFG_EN port) then
      match (s.portTraffic port).ctxOf port vc with
      | some x => (s.portTraffic port).closeFrame x
      | none => s.portTraffic port
    else s)

def execFrameTimeout (x : Fin 16) (s : State) : Out := finish (s.closeFrame x)

/-! ### Pipelines (R338 to R342) -/

/-- Is frame `f` before frame `g` in the order of R338? -/
def frameBefore (f g : Frame) : Bool := Nat.blt f.start g.start || (f.start == g.start && Nat.ble f.ctx g.ctx)

/-- A free shared pipeline takes the waiting frame with the earliest stamp (R338). -/
def State.pipeTake (s : State) (p : Nat) : State :=
  let w := s.cam.frames.filter (fun f => f.buf.isSome && f.pipe.isNone)
  let busy := fun k => s.cam.frames.any (fun f => f.pipe == some k)
  if busy p ∨ (p = 3 ∧ busy 2 = false) then s
  else
    match w.find? (fun f => w.all (fun g => frameBefore f g)) with
    | some f => ((s.updFrame f.ctx f.no (fun r => { r with pipe := some p })).showPipes).frameCheck f.ctx f.no
    | none => s

def execSharedPipelineTake (pipe : Fin 2) (s : State) : Out := finish (s.pipeTake (2 + pipe))

/-- b of R340. -/
def blackStage (p : CamParams) (y : Nat) (px : List Nat) : List Nat :=
  (px.zipIdx).map (fun e => 16 * e.1 - p.black.getD (p.ph e.2 y) 0)

/-- The pixels of line `y` that the defect list names. -/
def CamParams.listed (p : CamParams) (y : Nat) : List Nat :=
  (p.defects.filter (fun e => bit e.2.toNat 31 && bits e.2.toNat 29 16 == y)).map (fun e => bits e.2.toNat 13 0)

/-- The defective-pixel stage (R341): the line and the number of replacements. -/
def defectStage (p : CamParams) (y : Nat) (b : List Nat) : List Nat × Nat :=
  let a := b.toArray
  let ls := p.listed y
  let st := if p.cfa then 2 else 1
  let thr := bits p.dpc.toNat 15 0
  let nb := fun (i : Nat) => if i < a.size ∧ ¬ ls.contains i then a[i]? else none
  let r := (List.range a.size).map (fun i =>
    let v := a.getD i 0
    let l := if st ≤ i then nb (i - st) else none
    let h := nb (i + st)
    let dyn : Bool := match l, h with
      | some x, some z => thr != 0 && (Nat.blt (max x z + thr) v || Nat.blt (v + thr) (min x z))
      | _, _ => false
    if ls.contains i ∨ dyn then
      (match l, h with
       | some x, some z => (x + z + 1) / 2
       | some x, none => x
       | none, some z => z
       | none, none => v, 1)
    else (v, 0))
  (r.map (fun e => e.1), r.foldl (fun n e => n + e.2) 0)

/-- The lens shading stage (R342). -/
def shadeStage (p : CamParams) (y : Nat) (b : List Nat) : List Nat :=
  let kn := fun ph kx ky => p.knots.get (289 * ph + 17 * ky + kx) 0x1000
  (b.zipIdx).map (fun e =>
    let ph := p.ph e.2 y
    let wx := 2 ^ p.sx
    let wy := 2 ^ p.sy
    let kx := e.2 / wx
    let ky := y / wy
    let fx := e.2 % wx
    let fy := y % wy
    let g := ((kn ph kx ky * (wx - fx) + kn ph (kx + 1) ky * fx) * (wy - fy) +
      (kn ph kx (ky + 1) * (wx - fx) + kn ph (kx + 1) (ky + 1) * fx) * fy + wx * wy / 2) / (wx * wy)
    min 65535 ((e.1 * g * 2 ^ (16 - p.nbits) + 32768) / 65536))

/-- Does a channel's run cover a context now (R343, R344)? -/
def State.covered (s : State) (c x : Nat) : Bool :=
  s.on (if c = chBLACK then CAM_CTX_CFG_BLACK_EN x else CAM_CTX_CFG_FLAT_EN x) && s.ust (.ctx (Fin.ofNat 16 x)) == .on

/-- Add an optical-black line to a BLACK run (R343). -/
def State.blackLine (s : State) (x y : Nat) (p : CamParams) (px : List Nat) : State :=
  if s.runState chBLACK ≠ rsRUNNING ∨ s.covered chBLACK x = false then s
  else
    let ls := p.listed y
    s.setCam { s.cam with black := (px.zipIdx).foldl (fun m e =>
      if ls.contains e.2 then m
      else
        let k := 4 * x + p.ph e.2 y
        m.set k ((m.get k (0, 0)).1 + e.1, (m.get k (0, 0)).2 + 1)) s.cam.black }

/-- Phases a context uses. -/
def State.phases (s : State) (x : Nat) : Nat := if s.on (CAM_CTX_CFG_CFA x) then 4 else 1

/-- BL_target of a sum and count (R343); a value beyond the register's 16 bits stays at its largest (DESIGN CHOICE, log 68). -/
def blackTarget (v : Nat × Nat) : Nat := min 65535 ((32 * v.1 + v.2) / (2 * max 1 v.2))

/-- The largest of several figures with its context. -/
def bigQ (l : List (Nat × Nat)) : Nat × Nat := l.foldl (fun a e => if a.1 < e.1 then e else a) ((l.head?.map (fun e => (0, e.2))).getD (0, 0))

/-- Q0 and Q1 of a BLACK run over what it measured (R343, R311). -/
def State.blackQ (s : State) : Nat × Nat :=
  bigQ ((s.cam.black.filter (fun e => e.2.2 != 0)).map (fun e =>
    (((blackTarget e.2 : Int) - s.cam.blackStart.getD e.1 0).natAbs, e.1 / 4)))

/-- A BLACK run ends OK once every covered context that is ON is confident (R343). -/
def State.blackCheck (s : State) : State :=
  let xs := (List.range 16).filter (fun x => s.covered chBLACK x)
  if s.runState chBLACK = rsRUNNING ∧ xs ≠ [] ∧
      xs.all (fun x => (List.range (s.phases x)).all (fun ph => Nat.ble 65536 (s.cam.black.get (4 * x + ph) (0, 0)).2)) then
    let s1 := s.cam.black.foldl (fun s e =>
      if s.covered chBLACK (e.1 / 4) ∧ e.2.2 ≠ 0 then s.put (CAM_CTX_BLACK_TARGET (e.1 / 4) (e.1 % 4)) (blackTarget e.2) else s) s
    s1.calEnd chBLACK ocOK s.blackQ.1 s.blackQ.2
  else s

/-- Add a line to a FLAT run, after the defect stage (R344). -/
def State.flatLine (s : State) (x y : Nat) (p : CamParams) (b : List Nat) : State :=
  if s.runState chFLAT ≠ rsRUNNING ∨ s.covered chFLAT x = false ∨ p.flatRef = false then s
  else
    let near := fun (v sh : Nat) => (v + 2 ^ (sh - 1)) / 2 ^ sh
    s.setCam { s.cam with flat := (b.zipIdx).foldl (fun m e =>
      let k := 1156 * x + 289 * p.ph e.2 y + 17 * near y p.sy + near e.2 p.sx
      m.set k ((m.get k (0, 0)).1 + e.1 * 2 ^ (16 - p.nbits), (m.get k (0, 0)).2 + 1)) s.cam.flat }

/-- K_target of a knot (R344): sums are in 1/16. -/
def knotTarget (v : Nat × Nat) : Nat := if v.1 = 0 then 65535 else max 1 (min 65535 ((2 ^ 31 * v.2 + v.1) / (2 * v.1)))

/-- Q0 and Q1 of a FLAT run (R344, R311). -/
def State.flatQ (s : State) : Nat × Nat :=
  bigQ (s.cam.flat.map (fun e =>
    let den : Nat := 16 * e.2.2 * 2 ^ 26
    let num : Nat := e.2.1 * s.cam.knotStart.get e.1 0x1000
    ((2000 * ((num : Int) - (den : Int)).natAbs + den) / (2 * max 1 den), e.1 / 1156)))

/-- A FLAT run ends OK once every knot that received a pixel has CAM_FLAT_N samples (R344). -/
def State.flatCheck (s : State) : State :=
  let xs := (List.range 16).filter (fun x => s.covered chFLAT x)
  if s.runState chFLAT = rsRUNNING ∧ xs ≠ [] ∧ xs.all (fun x =>
      let ks := s.cam.flat.filter (fun e => e.1 / 1156 == x)
      ks != [] && ks.all (fun e => Nat.ble (s.get CAM_FLAT_N_N) e.2.2)) then
    let s1 := s.setCam { s.cam with knotTarget := s.cam.flat.foldl (fun m e =>
      if s.covered chFLAT (e.1 / 1156) then m.set e.1 (knotTarget e.2) else m) s.cam.knotTarget }
    s1.calEnd chFLAT ocOK s.flatQ.1 s.flatQ.2
  else s

/-- A pipeline finishes a line (R336, R339 to R346). -/
def State.pipeLine (s : State) (f : Frame) (l : CamLine) : State :=
  let y := f.done
  let lateUs := max 1 (bits f.p.time.toNat 15 0)
  let late := f.late || Nat.blt (f.start + 1000 * lateUs) s.now
  let clean := l.clean && !f.corruptProc
  let b := blackStage f.p y l.pixels
  let (d, repl) := defectStage f.p y b
  let outs := shadeStage f.p y d
  let ob := f.p.isOb y
  let s1 := (s.updFrame f.ctx f.no (fun r => { r with done := r.done + 1, outs := r.outs ++ [outs], late := late })).camCount f.ctx 8 repl
  let s2 := if clean ∧ ¬ late then
      (if ob then s1.blackLine f.ctx y f.p l.pixels else s1.flatLine f.ctx y f.p d)
    else s1
  let s3 := if clean ∧ ¬ l.nopos ∧ ¬ ob then
      (s2.windowsOf f.ctx).foldl (fun s w => s.windowLine w (f.start + l.t) outs) s2
    else s2
  let s4 := if ob then s3 else s3.ptLine f.ctx l.x l.nopos (clean && !late) outs
  (s4.frameCheck f.ctx f.no).blackCheck.flatCheck

def execPipelineLineDone (pipe : Fin 4) (s : State) : Out :=
  finish (match s.cam.frames.find? (fun f => f.pipe == some pipe.val && Nat.blt f.done f.lines.length) with
    | none => s
    | some f =>
      match f.lines[f.done]? with
      | some l => s.pipeLine f l
      | none => s)

/-- A plane with an enabled window has had no valid measurement for 1 s (R346). -/
def State.regLost (s : State) (q : Nat) : State :=
  let r := s.cam.reg.getD q RegLat.reset
  if s.regWindow q = false ∨ s.regValid q ∨ r.lost then s
  else
    let age := match r.t with
      | some t => ((s.now : Int) - t).toNat / 1000000
      | none => Config.noAge q
    ((s.setCam { s.cam with reg := s.cam.reg.set q { r with lost := true } }).event Ev.REG_LOST q [age]).cause CAM_IRQ_CAUSE_REG_LOST

def execRegLost (q : Fin 8) (s : State) : Out := finish (s.regLost q)

/-! ### The CAM ring (R347, R348) -/

/-- Buffers in a context's pool, free or holding a frame (R338, R347). -/
def State.poolSize (s : State) (x : Nat) : Nat :=
  (s.cctx x).free.length + (s.cam.frames.filter (fun f => f.ctx == x && f.buf.isSome)).length

/-- Details of R347 for a descriptor; `isBuf` bounds COUNT. -/
def State.camDetails (s : State) (d : DescBits) (isBuf : Bool) : List Nat :=
  let x := dfield d 4 1
  let count := dfield d 6 2
  let addr := dfield d 8 8
  let size := dfield d 16 4
  let bad := Nat.blt 15 x || addr % 64 != 0 || size % 64 != 0 || count == 0 || (isBuf && Nat.blt 256 count)
  let dev := isBuf || bit (dfield d 5 1) 2
  ([(1, bad), (2, dev && Nat.blt s.dramSize (addr + count * size)),
    (3, isBuf && ((s.dedicated x).isSome || Nat.blt 256 (s.poolSize x + count))),
    (4, Nat.blt 15 x || s.ust (.ctx (Fin.ofNat 16 x)) != .on)].filter (fun e => e.2)).map (fun e => e.1)

/-- Refuse a CAM descriptor. -/
def State.camRefuse (s : State) (d : OpenDesc) (det : Nat) : State :=
  (s.startDesc 5 d.seq).complete 5 d.seq 2 Ev.CAM_REFUSED stREFUSED (dfield d.bits 4 1) [d.op, det] false

def execFrameBuf (s : State) : Out :=
  finish (match s.head 5 with
    | none => s
    | some d =>
      if d.op ≠ 0x10 then s
      else
        match pickOf (s.camDetails d.bits true) with
        | some det => s.camRefuse d det
        | none =>
          let x := dfield d.bits 4 1
          let n := dfield d.bits 6 2
          let at' := fun i => dfield d.bits 8 8 + i * dfield d.bits 16 4
          let c := s.cctx x
          (s.startDesc 5 d.seq).setCctx x { c with
            noBuf := false
            free := c.free ++ (List.range n).map (fun i => (d.seq, at' i, dfield d.bits 16 4))
            bufs := c.bufs ++ [{ seq := d.seq, count := n, out := (List.range n).map at', user := dfield d.bits 56 4 }] })

def execCapture (s : State) : Out :=
  finish (match s.head 5 with
    | none => s
    | some d =>
      if d.op ≠ 0x11 then s
      else
        match pickOf (s.camDetails d.bits false) with
        | some det => s.camRefuse d det
        | none =>
          let x := dfield d.bits 4 1
          let c := s.cctx x
          let m := dfield d.bits 5 1
          if 4 ≤ c.caps.length then s
          else (s.startDesc 5 d.seq).setCctx x { c with caps := c.caps ++ [
            { seq := d.seq, corrected := bit m 0, inspect := bit m 1, device := bit m 2, count := dfield d.bits 6 2
              addr := dfield d.bits 8 8, slot := dfield d.bits 16 4, user := dfield d.bits 56 4
              evt := bit (dfield d.bits 1 1) 5, next := 0, written := 0 }] })

/-! ### Register writes of the cameras -/

/-- A write of CAM_PIPE_SEL (R337). -/
def State.pipeSelWrite (s : State) (v : Word) : State :=
  let s0 := if bit v.toNat 16 then s.putB CAM_PIPE_SEL_SEL_ERR false else s
  let off := fun (x : Nat) => s.ust (.ctx (Fin.ofNat 16 x)) == UState.off
  let sel := fun (w : Nat) (i : Nat) => if bit w (8 * i + 7) then some (bits w (8 * i + 3) (8 * i)) else none
  let old := (s.rget CAM_PIPE_SEL).toNat
  let changed := fun i => bits old (8 * i + 3) (8 * i) != bits v.toNat (8 * i + 3) (8 * i) || bit old (8 * i + 7) != bit v.toNat (8 * i + 7)
  let bad := fun i => changed i && !((sel old i).all off && (sel v.toNat i).all off)
  if bad 0 ∨ bad 1 then s0.putB CAM_PIPE_SEL_SEL_ERR true
  else (((s0.put CAM_PIPE_SEL_CTX0 (bits v.toNat 3 0)).putB CAM_PIPE_SEL_VALID0 (bit v.toNat 7)).put CAM_PIPE_SEL_CTX1
    (bits v.toNat 11 8)).putB CAM_PIPE_SEL_VALID1 (bit v.toNat 15)

/-- Advance the table window after an access. -/
def State.tabInc (s : State) : State :=
  if s.on CAM_TAB_SEL_AUTO_INC then s.put CAM_TAB_SEL_INDEX (s.get CAM_TAB_SEL_INDEX + 1) else s

/-- CAM_TAB_DATA as it reads. -/
def State.tabData (s : State) : Word :=
  let x := s.get CAM_TAB_SEL_CTX
  let i := s.get CAM_TAB_SEL_INDEX
  match s.get CAM_TAB_SEL_TABLE with
  | 0 => if i < 512 then s.cam.defects.get (512 * x + i) 0 else 0
  | 1 => if i < 1156 then BitVec.ofNat 32 (s.cam.knotTarget.get (1156 * x + i) 0x1000 + 65536 * s.cam.knotLive.get (1156 * x + i) 0x1000) else 0
  | _ => 0

/-- A write of CAM_TAB_DATA: a defect entry, or a knot's target and, while the context is OFF, its value in force (R344). -/
def State.tabWrite (s : State) (v : Word) : State :=
  let x := s.get CAM_TAB_SEL_CTX
  let i := s.get CAM_TAB_SEL_INDEX
  let k := bits v.toNat 15 0
  (match s.get CAM_TAB_SEL_TABLE with
   | 0 => if i < 512 then s.setCam { s.cam with defects := s.cam.defects.set (512 * x + i) (v &&& 0xBFFF3FFF#32) } else s
   | 1 => if i < 1156 then s.setCam { s.cam with
        knotTarget := s.cam.knotTarget.set (1156 * x + i) k
        knotLive := if s.ust (.ctx (Fin.ofNat 16 x)) == UState.off then s.cam.knotLive.set (1156 * x + i) k else s.cam.knotLive } else s
   | _ => s).tabInc

/-- A write of CAM_CTX_BLACK: the target and, while the context is OFF, the level in force (R344). -/
def State.blackWrite (s : State) (x ph : Nat) (v : Word) : State :=
  let s1 := s.put (CAM_CTX_BLACK_TARGET x ph) (bits v.toNat 15 0)
  if s.ust (.ctx (Fin.ofNat 16 x)) == .off then s1.put (CAM_CTX_BLACK_ACTIVE x ph) (bits v.toNat 15 0) else s1

def execCamPipeSelWrite (req : Fin 6) (v : Word) (s : State) : Out :=
  finish (s.reqWrite req (CAM_PIPE_SEL) (fun s => s.pipeSelWrite v))
def execCamTabDataWrite (req : Fin 6) (v : Word) (s : State) : Out :=
  finish (s.reqWrite req (CAM_TAB_DATA) (fun s => s.tabWrite v))

/-- The start check of a context (R331): the reasons that hold. -/
def State.ctxReasons (s : State) (x : Nat) : List Nat :=
  let w := s.get (CAM_CTX_SIZE_WIDTH x)
  let n := s.get (CAM_CTX_SIZE_LINES x)
  let sx := s.get (CAM_CTX_GRID_SX x)
  let sy := s.get (CAM_CTX_GRID_SY x)
  let dt := s.get (CAM_CTX_CFG_DT x)
  let port := s.get (CAM_CTX_CFG_PORT x)
  let vc := s.get (CAM_CTX_CFG_VC x)
  let r1 := w % 2 == 1 || Nat.blt w 16 || Nat.blt 8192 w || n == 0 || Nat.blt 16383 n || Nat.blt 4 dt || Nat.blt sx 3 || Nat.blt 9 sx ||
    Nat.blt sy 3 || Nat.blt 9 sy || Nat.blt (16 * 2 ^ sx) w || Nat.blt (16 * 2 ^ sy) n || (dt == 4 && Nat.blt port 4)
  let r2 := (List.range 16).any (fun y => y != x && s.get (CAM_CTX_CFG_PORT y) == port && s.get (CAM_CTX_CFG_VC y) == vc &&
    s.ust (.ctx (Fin.ofNat 16 y)) != .off)
  let r3 := Nat.blt 5 port || (Nat.ble 4 port && vc != 0)
  let r4 := Nat.blt 5 port || !s.on (CAM_PORT_CFG_EN port)
  ([(1, r1), (2, r2), (3, r3), (4, r4)].filter (fun e => e.2)).map (fun e => e.1)

end Sys2Proof.Machine
end

