-- ==== Sys2Proof/Machine/Led.lean ====
section
/-!
DEFINITION. Pinning and drying light (11_pinning_light.md): the driver chains, scan, updates, dose, derating, gaps, and LED
current calibration.
-/
namespace Sys2Proof.Machine

def State.bar (s : State) (q : Nat) : Bar := s.bars.getD q Bar.reset
def State.setBar (s : State) (q : Nat) (b : Bar) : State := { s with bars := s.bars.set q b }
def barUnit (q : Nat) : UnitId := .bar (Fin.ofNat 8 q)

/-- Change the driver at a position. -/
def State.updDriver (s : State) (q pos : Nat) (f : Driver → Driver) : State :=
  let b := s.bar q
  s.setBar q { b with drivers := b.drivers.set pos (f (b.drivers.getD pos Driver.reset)) }

/-! ### Scan and update length (R359, R360) -/

/-- T_s of a frame rate, in 5 ns ticks. -/
def slotTicks (f : Nat) : Nat := (2 * 200000000 + 4 * f) / (8 * max 1 f)

/-- U of R360: (70.72 µs + 5 µs) x F frames, at least MIN. -/
def State.ledU (s : State) : Nat := max (max 1 (s.get LED_UPDATE_MIN)) (ceilDiv (7572 * s.get LED_SCAN_FREQ) 100000000)

/-- Show U. -/
def State.showU (s : State) : State := s.put LED_UPDATE_U s.ledU

/-- A write of LED_SCAN (R359); F and KERF outside their ranges are refused too (DEDUCED, log 69). -/
def State.ledScanWrite (s : State) (v : Word) : State :=
  let f := bits v.toNat 15 0
  let k := bits v.toNat 25 16
  let ok := (List.range 8).all (fun q => s.ust (barUnit q) == .off) && Nat.ble 2000 f && Nat.ble f 32000 && Nat.ble 50 k && Nat.ble k 800 &&
    Nat.ble (2 * k + 200) (slotTicks f)
  if ok then ((s.put LED_SCAN_FREQ f).put LED_SCAN_KERF k).showU else s.cause LED_IRQ_CAUSE_SCAN_ERR

def execLedScanWrite (req : Fin 6) (v : Word) (s : State) : Out :=
  finish (s.reqWrite req (LED_SCAN) (fun s => s.ledScanWrite v))

/-- Is LED_BLANK driven high (R371, R509, R518)? -/
def State.blankHigh (s : State) : Bool :=
  !s.on LED_CTRL_FORCE_BLANK && !s.web.resetStop && !s.web.thermStop && (List.range 8).any (fun q => s.ust (barUnit q) == .on)

/-! ### Driver frames (R352 to R355) -/

/-- The CRC-8 of R187 over the top `n` bits of a 64-bit frame. -/
def frameCheck8 (v : Nat) : Nat := (List.range 56).foldl (fun c i => crcStep 8 0x07 c (bit v (63 - i))) 0

/-- The CRC-16 of a GS_BLOCK payload (R353). -/
def payloadCrc (v : Nat) : Nat := (List.range 768).foldl (fun c i => crcStep 16 0x1021 c (bit v (767 - i))) 0xFFFF

/-- Is a frame one that drivers act on: a known CMD, reserved bits 0, CHECK right (R353)? -/
def frameOk (f : Nat) : Bool :=
  bits f 63 60 == 0b1011 && Nat.ble 1 (bits f 59 56) && Nat.ble (bits f 59 56) 5 && bits f 52 48 == 0 && frameCheck8 f == bits f 7 0

/-- Is a frame addressed to a position? WRITE and CLEAR take BC; SYNC needs it; GS_BLOCK and READ take POS only. -/
def frameTo (f pos : Nat) : Bool :=
  match bits f 59 56 with
  | 1 => bit f 55 || bits f 54 53 == pos
  | 5 => bit f 55 || bits f 54 53 == pos
  | 4 => bit f 55
  | _ => !bit f 55 && bits f 54 53 == pos

/-- The value of a driver's register (R354). -/
def Driver.reg (d : Driver) (blank : Bool) (i : Nat) : Nat :=
  if i < 0x10 then d.act.dc.getD i 0
  else if i = 0x10 then d.act.slot
  else if i = 0x11 then d.act.kerf
  else if i = 0x12 then d.act.mode
  else if 0x20 ≤ i ∧ i < 0x24 then d.opens.getD (i - 0x20) 0
  else if 0x24 ≤ i ∧ i < 0x28 then d.shorts.getD (i - 0x24) 0
  else if i = 0x28 then b2n d.ot + 2 * b2n d.crcErr + 4 * d.latchCnt + 64 * b2n blank
  else if i = 0x29 then 0x46440001
  else if 0x40 ≤ i ∧ i < 0x80 then (d.sense.getD (i - 0x40) (0, 0)).1 + 2 ^ 24 * (d.sense.getD (i - 0x40) (0, 0)).2
  else 0

/-- A WRITE into a driver's pending copy (R354); other indexes hold nothing that WRITE changes. -/
def Driver.write (d : Driver) (i v : Nat) : Driver :=
  if i < 0x10 then { d with pend := { d.pend with dc := d.pend.dc.set i (v % 128) } }
  else if i = 0x10 then { d with pend := { d.pend with slot := v % 65536 } }
  else if i = 0x11 then { d with pend := { d.pend with kerf := v % 1024 } }
  else if i = 0x12 then { d with pend := { d.pend with mode := v % 2 } }
  else d

/-- CLEAR (R355). -/
def Driver.clear (d : Driver) (m : Nat) : Driver :=
  let d1 := if bit m 0 then { d with opens := List.replicate 4 0 } else d
  let d2 := if bit m 1 then { d1 with shorts := List.replicate 4 0 } else d1
  let d3 := if bit m 2 then { d2 with ot := d2.hot } else d2
  if bit m 3 then { d3 with crcErr := false } else d3

/-- What one driver does with a frame that reaches it. -/
def Driver.frame (d : Driver) (pos f : Nat) (payload : Option (Nat × Nat)) : Driver :=
  if d.dark then d
  else if ¬ frameOk f then { d with crcErr := true }
  else if ¬ frameTo f pos then d
  else
    match bits f 59 56 with
    | 1 => d.write (bits f 47 40) (bits f 39 8)
    | 2 => (match payload with
      | some (p, c) => if payloadCrc p = c then { d with pend := { d.pend with gs := (List.range 64).map (fun i => bits p (12 * i + 11) (12 * i)) } } else d
      | none => d)
    | 3 => if 0x40 ≤ bits f 47 40 ∧ bits f 47 40 < 0x80 then { d with sense := d.sense.set (bits f 47 40 - 0x40) (0, 0) } else d
    | 4 => { d with synced := true }
    | _ => d.clear (bits f 15 8)

/-- A frame runs down a bar's chain; a READ comes back on LRTN with the addressed register's value (R351, R355). -/
def State.chainFrame (s : State) (q f : Nat) (payload : Option (Nat × Nat)) : State :=
  let b := s.bar q
  let back := (List.range 4).foldl (fun (v : Nat) (pos : Nat) =>
    if bits f 59 56 = 3 ∧ frameOk f ∧ frameTo f pos ∧ (b.drivers.getD pos Driver.reset).dark = false then
      let v1 := setBits v 39 8 ((b.drivers.getD pos Driver.reset).reg s.blankHigh (bits f 47 40))
      setBits v1 7 0 (frameCheck8 v1)
    else v) f
  s.setBar q { b with lrtn := BitVec.ofNat 64 back, drivers := (b.drivers.zipIdx).map (fun e => e.1.frame e.2 f payload) }

def execDriverWrite (bar : Fin 8) (f : BitVec 64) (s : State) : Out := finish (s.chainFrame bar f.toNat none)
def execGsBlock (bar : Fin 8) (f : BitVec 64) (p : BitVec 768) (c : BitVec 16) (s : State) : Out :=
  finish (s.chainFrame bar f.toNat (some (p.toNat, c.toNat)))
def execDriverRead (bar : Fin 8) (f : BitVec 64) (s : State) : Out := finish (s.chainFrame bar f.toNat none)
def execDriverSync (bar : Fin 8) (f : BitVec 64) (s : State) : Out := finish (s.chainFrame bar f.toNat none)
def execDriverClear (bar : Fin 8) (f : BitVec 64) (s : State) : Out := finish (s.chainFrame bar f.toNat none)

/-- LCLK has stopped for 2 µs: a driver turns all sinks and rows off and keeps its registers (R351). -/
def execLclkLoss (bar : Fin 8) (pos : Fin 4) (s : State) : Out :=
  finish (s.updDriver bar pos (fun d => { d with dark := true, row := none, on := List.replicate 16 0 }))

/-- A driver's die crosses its own limit (R355). -/
def Driver.heat (d : Driver) (hot : Bool) : Driver :=
  if hot then { d with hot := true, ot := true, on := List.replicate 16 0 } else { d with hot := false }

def execDriverOtChange (bar : Fin 8) (pos : Fin 4) (hot : Bool) (s : State) : Out := finish (s.updDriver bar pos (fun d => d.heat hot))

/-! ### Row slots (R356 to R358) -/

/-- t_on of a channel in a row (R357). -/
def Driver.onTime (d : Driver) (ch r : Nat) : Nat := d.act.gs.getD (4 * ch + r) 0 * (d.act.slot - 2 * d.act.kerf) / 4096

/-- One driver at the start of row slot `r`: at a frame edge it latches; then it lights its row. -/
def Driver.slot (d : Driver) (pos r : Nat) (blank : Bool) (opens shorts : List Nat) (sense : List (Nat × Nat)) : Driver :=
  let d1 := if r = 0 ∧ d.synced ∧ d.dark = false then { d with act := d.pend, synced := false, latchCnt := (d.latchCnt + 1) % 16 } else d
  if d1.dark ∨ blank then { d1 with row := none, on := List.replicate 16 0 }
  else
    let on := (List.range 16).map (fun ch =>
      if d1.ot ∨ bit (d1.opens.getD r 0) ch ∨ bit (d1.shorts.getD r 0) ch then 0 else d1.onTime ch r)
    let lit := fun ch => Nat.blt 0 (on.getD ch 0)
    let latch := fun (l : List Nat) (z : List Nat) =>
      l.set r ((List.range 16).foldl (fun v ch => if lit ch ∧ z.contains (16 * pos + ch) ∧ bit v ch = false then v + 2 ^ ch else v) (l.getD r 0))
    let sen := (List.range 16).foldl (fun (l : List (Nat × Nat)) (ch : Nat) =>
      let g := d1.act.gs.getD (4 * ch + r) 0
      match sense.lookup (16 * pos + ch) with
      | some v =>
        if lit ch ∧ 1024 ≤ g then
          let o := l.getD (4 * ch + r) (0, 0)
          l.set (4 * ch + r) ((o.1 + v * 4096 / g) % 2 ^ 24, min 255 (o.2 + 1))
        else l
      | none => l) d1.sense
    { d1 with row := if d1.act.mode % 2 = 1 then some r else none, on := on, opens := latch d1.opens opens
              shorts := latch d1.shorts shorts, sense := sen }

/-- Every driver of every chain at the start of a row slot. -/
def State.rowSlot (s : State) (r : Nat) (opens shorts : List (Fin 8 × Fin 64)) (sense : List (Fin 8 × Fin 64 × Nat)) : State :=
  let z := fun (l : List (Fin 8 × Fin 64)) (q : Nat) => (l.filter (fun e => e.1.val == q)).map (fun e => e.2.val)
  { s with bars := (s.bars.zipIdx).map (fun e =>
      { e.1 with drivers := (e.1.drivers.zipIdx).map (fun d =>
          d.1.slot d.2 r (!s.blankHigh) (z opens e.2) (z shorts e.2)
            ((sense.filter (fun x => x.1.val == e.2)).map (fun x => (x.2.1.val, x.2.2)))) }) }

def execRowSlotStart (row : Fin 4) (opens shorts : List (Fin 8 × Fin 64)) (sense : List (Fin 8 × Fin 64 × Nat)) (s : State) : Out :=
  finish (s.rowSlot row opens shorts sense)

/-! ### The bar as a unit (R361, R370) -/

/-- A bar enters FAULT: LCLK stops (R370). -/
def State.barFault (s : State) (q reason pos : Nat) : State :=
  s.faultUnit (barUnit q) reason (fun s =>
    ((s.event Ev.BAR_FAULT q [reason, pos]).cause LED_IRQ_CAUSE_BAR_FAULT).putB (LED_BAR_STATUS_EMIT q) false)

/-- A bar enters RETIRED (R370); BAR_FAULT's reason for it is not stated and shows 0. -/
def State.barRetire (s : State) (q : Nat) : State :=
  s.retireUnit (barUnit q) (fun s =>
    ((s.event Ev.BAR_FAULT q [Config.oneOf [q, s.get (LED_BAR_STATUS_REASON q)], 0xFF]).cause LED_IRQ_CAUSE_BAR_FAULT).putB (LED_BAR_STATUS_EMIT q) false)

/-- Count chain errors (R360); at LIMIT within the window the bar retires. -/
def State.chainErrors (s : State) (q n : Nat) : State :=
  if n = 0 then s
  else
    let b := s.bar q
    let s1 := (s.addSat (LED_CHAIN_ERR_COUNT q) n).setBar q { b with tally := b.tally + n }
    if max 1 (s.get (LED_TALLY_CFG_LIMIT q)) ≤ b.tally + n then s1.barRetire q else s1

/-- Is the configuration of a bar invalid (reason 1)? -/
def State.barBad (s : State) (q : Nat) : Bool :=
  s.get (LED_ZONE_W_ZW q) == 0 || Nat.blt 4096 (s.get (LED_ZONE_W_ZW q)) || s.get (LED_CODE_VOL_VOL q) % 256 != 0 ||
    decide (s.getS (LED_DERATE0_CUT q) ≤ s.getS (LED_DERATE0_KNEE q))

/-- The start actions of a bar (R370): LCLK runs, SLOT, KERF, MODE, the DC targets and GS 0 are written, and a SYNC is sent. -/
def State.barStart (s : State) (q : Nat) : State :=
  let b := s.bar q
  if s.barBad q then (s.setBar q { b with drivers := b.drivers.map (fun d => { d with dark := false }) }).barFault q 1 0xFF
  else
  let dcs := (List.range 64).map (fun z => bits (s.rget (LED_DC q (z / 4))).toNat (8 * (z % 4) + 6) (8 * (z % 4)))
  let ds := (b.drivers.zipIdx).map (fun e =>
    { e.1 with dark := false, synced := true
               pend := { dc := (List.range 16).map (fun ch => dcs.getD (16 * e.2 + ch) 0), slot := slotTicks (s.get LED_SCAN_FREQ)
                         kerf := s.get LED_SCAN_KERF, mode := if e.2 = 0 then 1 else 0, gs := List.replicate 64 0 } })
  let s1 := (List.range 16).foldl (fun s i => s.rset (LED_DC_ACTIVE q i) (s.rget (LED_DC q i) &&& 0x7F7F7F7F#32)) s
  s1.setBar q { b with drivers := ds, misses := 0, gs := List.replicate 256 0, tally := 0, dcAt := s.time.cyc }

/-- The stop actions of a bar: GS 0 with a SYNC (R370). -/
def State.barStop (s : State) (q : Nat) : State :=
  let b := s.bar q
  (s.setBar q { b with gs := List.replicate 256 0, drivers := b.drivers.map (fun d =>
    if d.dark then d else { d with pend := { d.pend with gs := List.replicate 64 0 }, synced := true }) }).putB (LED_BAR_STATUS_EMIT q) false

/-! ### Derating and cut-off (R367) -/

/-- f_T of R367 below cut-off, as a ratio. -/
def State.fTOf (s : State) (q : Nat) (t : Int) : Nat × Nat :=
  let knee := s.getS (LED_DERATE0_KNEE q)
  if t ≤ knee then (1, 1)
  else
    let lin : Int := 64000 - (s.get (LED_DERATE1_SLOPE q) : Nat) * (t - knee)
    let fl : Int := 640 * (s.get (LED_DERATE1_FLOOR q) : Nat)
    ((max fl lin).toNat, 64000)

/-- Take the board temperature of a bar: T, f_T, and entry to and exit from cut-off (R367). -/
def State.boardTemp (s : State) (q : Nat) : State :=
  let i := s.get (LED_BAR_CFG_TSRC q)
  let broken := Nat.ble 32 i || s.on (THM_EXT_BROKEN i)
  let t := if Nat.ble 32 i then s.getS (LED_BOARD_T_T q) else s.getS (THM_EXT_T i)
  let was := s.on (LED_BAR_STATUS_CUTOFF q)
  let cut := if broken then true
    else if was then decide (s.getS (LED_DERATE0_CUT q) - (s.get (LED_DERATE1_HYST q) : Nat) ≤ t)
    else decide (s.getS (LED_DERATE0_CUT q) ≤ t)
  let f := s.fTOf q t
  let s1 := (s.putS (LED_BOARD_T_T q) t).putB (LED_BAR_STATUS_CUTOFF q) cut
  let s2 := if cut then s1 else (s1.put (LED_BOARD_T_F_T q) ((1024 * f.1 + f.2) / (2 * f.2))).putB (LED_BAR_STATUS_DERATE q) (Nat.blt f.1 f.2)
  let s3 := if cut ∧ ¬ was then (s2.event Ev.LED_CUTOFF q [twos 16 t, b2n broken]).cause LED_IRQ_CAUSE_CUTOFF
    else if was ∧ ¬ cut then s2.event Ev.LED_RESUMED q [twos 16 t] else s2
  s3.putB LED_IRQ_CAUSE_HOT ((List.range 8).any (fun r => s3.on (LED_BAR_STATUS_CUTOFF r)))

/-! ### Coverage and greyscale (R362 to R366) -/

/-- Sums of VOL over the zones of a plane's line after stage 3 (R362). -/
def State.zoneSums (s : State) (q : Nat) (codes : List Nat) : List Nat :=
  let a := codes.toArray
  let zw := s.get (LED_ZONE_W_ZW q)
  let c0 := s.get (LED_ZONE_COL0 q)
  let vol := fun k => bits (s.bar q).vol (8 * k + 7) (8 * k)
  (List.range 64).map (fun z => (List.range zw).foldl (fun t i =>
    let c := c0 + z * zw + i
    if c < a.size then t + vol (a.getD c 0) else t) 0)

/-- Stage 4 counts a line's coverage (R128, R362). -/
def State.coverage (s : State) (q j : Nat) (codes : List Nat) : State :=
  if s.ust (barUnit q) == .off then s else s.setBar q { s.bar q with cov := (s.bar q).cov.set j (s.zoneSums q codes) }

/-- The job line row `r` lights at a web position in 1/65,536 line (R363). -/
def State.litLine (s : State) (q r : Nat) (x : Int) : Int :=
  let f := fineOf s.mode
  let d := s.downWeb q + s.get (LED_BAR_DIST_INT_INT q) * 65536 + s.get (LED_BAR_DIST_FRAC_FRAC q) + r * s.get (LED_ROW_PITCH_PITCH q) * 256
  (x * f - d) / (65536 * f)

/-- The lines row `r` lights between two web positions: first and number. -/
def State.litLines (s : State) (q r : Nat) (xa xb : Int) : Int × Nat :=
  (s.litLine q r xa, (s.litLine q r xb - s.litLine q r xa).toNat + 1)

/-- The sum over lit lines of a zone's coverage. -/
def Bar.covSum (b : Bar) (z : Nat) (first : Int) (n : Nat) : Nat :=
  b.cov.foldl (fun a e => if first ≤ (e.1 : Int) ∧ (e.1 : Int) < first + n then a + e.2.getD z 0 else a) 0

/-- Is a zone's row without OPEN, SHORT or OT (R365, R368)? -/
def State.rowGood (s : State) (q z r : Nat) : Bool :=
  !bit (s.rget (LED_OPEN q (2 * r + z / 32))).toNat (z % 32) && !bit (s.rget (LED_SHORT q (2 * r + z / 32))).toNat (z % 32) &&
    !(s.bar q).otLost.getD (z / 16) false

/-- n_z. -/
def State.nGood (s : State) (q z : Nat) : Nat := ((List.range 4).filter (fun r => s.rowGood q z r)).length

/-- GS of a zone and row (R365), before R366. -/
def State.ledGs (s : State) (q z r : Nat) (xa xb : Int) : Nat :=
  let n := s.nGood q z
  let v := s.webV
  if n = 0 ∨ v.1 ≤ 0 then 0
  else
    let ls := s.litLines q r xa xb
    let den := ls.2 * 255 * s.get (LED_ZONE_W_ZW q)
    let c := (s.bar q).covSum z ls.1 ls.2
    let f := s.fTOf q (s.getS (LED_BOARD_T_T q))
    let g := if s.on (LED_BAR_CFG_COMP q) then (4, n) else (1, 1)
    -- (BASE + GAIN c) x v per / (fine 2^28) x f_T x g
    let num := (s.get (LED_DOSE_BASE q) * den + s.get (LED_DOSE_GAIN q) * c) * (v.1.toNat * s.get PGP_PERIOD_ACTIVE_PERIOD) * f.1 * g.1
    let d := den * (v.2 * fineOf s.mode * 2 ^ 28) * f.2 * g.2
    min 4095 ((2 * num + d) / (2 * max 1 d))

/-- Is v below LED_VMIN? -/
def State.belowVmin (s : State) (q : Nat) : Bool :=
  let v := s.webV
  decide (v.1 * (10 ^ 9 * 254 : Nat) < ((s.get (LED_VMIN_MMPS q) * v.2 * 2 ^ 20 * 24000 : Nat) : Int))

/-- The dose mark of a bar. -/
def Bar.doseMark (b : Bar) : Int := b.mark.getD 0

/-- Greyscales of an update (R365, R366): zone * 4 + row. -/
def State.updateGs (s : State) (q : Nat) (xa xb : Int) : List Nat :=
  if s.belowVmin q ∨ s.webV.1 < 0 ∨ xa ≤ (s.bar q).doseMark ∨ s.on (LED_BAR_STATUS_CUTOFF q) then List.replicate 256 0
  else (List.range 256).map (fun i => s.ledGs q (i / 4) (i % 4) xa xb)

/-! ### Gaps (R369) -/

/-- The cause of a gap in an update, when there is one: 1 speed, 2 cut-off, 3 zone lost, 4 LED_BLANK, 5 bar not ON, 6 SYNC. -/
def State.gapCause (s : State) (q : Nat) (xa xb : Int) (gs : List Nat) (missed : Bool) : Option Nat :=
  let b := s.bar q
  if s.webV.1 ≤ 0 ∨ xa ≤ b.doseMark then none
  else if s.ust (barUnit q) != .on then some 5
  else if s.blankHigh = false then some 4
  else if s.on (LED_BAR_STATUS_CUTOFF q) then some 2
  else if s.belowVmin q then some 1
  else if (List.range 64).any (fun z => s.nGood q z == 0 && (List.range 4).any (fun r =>
      b.covSum z (s.litLines q r xa xb).1 (s.litLines q r xa xb).2 != 0)) then some 3
  else if missed && (List.range 256).any (fun i => b.gs.getD i 0 == 0 && gs.getD i 0 != 0) then some 6
  else none

/-- Job lines under a bar in an update that lie in a page: pages flagged, and the first of them. -/
def State.lightGap (s : State) (q : Nat) (xa xb : Int) (cause : Nat) : State :=
  match s.press.job with
  | none => s
  | some j =>
    let rs := (List.range 4).map (fun r => s.litLines q r xa xb)
    let hit := fun (p : PageRec) => rs.any (fun e => decide (e.1 < (p.stop : Int)) && decide ((p.first : Int) < e.1 + e.2))
    if j.pages.any (fun p => hit p && !p.retired) then
      let first := (rs.map (fun e => e.1)).foldl min (rs.headD (0, 0)).1
      (((s.setJob (j.mapPages hit (fun p => p.flag pfLIGHT_GAP))).addSat (LED_GAP_COUNT_COUNT q) 1).event Ev.LIGHT_GAP_SEEN q
        [cause, twos 40 (max 0 first)]).cause LED_IRQ_CAUSE_GAP
    else s

/-! ### Updates (R360, R361) -/

/-- The gradual dot-correction step of R310: 1 code per channel per 100 ms, sent before the SYNC (R372). -/
def State.dcStep (s : State) (q : Nat) : State :=
  if s.time.cyc < (s.bar q).dcAt + 25000000 then s
  else
    let lane := fun (z : Nat) => (8 * (z % 4) + 6, 8 * (z % 4))
    let s1 := (List.range 64).foldl (fun s z =>
      let a := LED_DC_ACTIVE q (z / 4)
      let live := bits (s.rget a).toNat (lane z).1 (lane z).2
      let tgt := bits (s.rget (LED_DC q (z / 4))).toNat (lane z).1 (lane z).2
      s.rset a (BitVec.ofNat 32 (setBits (s.rget a).toNat (lane z).1 (lane z).2 (stepTo live tgt 1)))) s
    let b := s1.bar q
    s1.setBar q { b with dcAt := s.time.cyc, drivers := (b.drivers.zipIdx).map (fun e =>
      { e.1 with pend := { e.1.pend with dc := (List.range 16).map (fun ch =>
        bits (s1.rget (LED_DC_ACTIVE q ((16 * e.2 + ch) / 4))).toNat (8 * (ch % 4) + 6) (8 * (ch % 4))) } }) }

/-- A chain's drivers take the greyscales and the SYNC of an update. -/
def State.sendGs (s : State) (q : Nat) (gs : List Nat) : State :=
  let b := s.bar q
  s.setBar q { b with gs := gs, misses := 0, drivers := (b.drivers.zipIdx).map (fun e =>
    if e.1.dark then e.1
    else { e.1 with synced := true, pend := { e.1.pend with gs := (List.range 64).map (fun i => gs.getD (64 * e.2 + i) 0) } }) }

/-- A block could not be confirmed in time (R360, R361). -/
def State.syncMissed (s : State) (q : Nat) : State :=
  let b := s.bar q
  let s1 := (((s.setBar q { b with misses := b.misses + 1 }).addSat (LED_SYNC_MISS_COUNT q) 1).event Ev.SYNC_MISSED q
    [b.k, b.misses + 1]).cause LED_IRQ_CAUSE_SYNC_MISSED
  if 2 ≤ b.misses + 1 then s1.barFault q 5 0xFF else s1

/-- Errors and outcome of a chain's reply: errors counted, whether the SYNC was sent, whether the drivers took it. -/
def replyOf (q k : Nat) (r : ChainReply) : Nat × Bool × Bool :=
  match r with
  | .confirmed n => (n, true, true)
  | .unconfirmed n => (n, false, false)
  | .syncMismatch n => (n + 1, true, Config.syncTaken q k)

/-- Update `k` of a bar that is ON. -/
def State.ledOn (s : State) (q : Nat) (xa xb : Int) (reply : ChainReply) : State :=
  let s0 := (s.boardTemp q).dcStep q
  let gs := s0.updateGs q xa xb
  let r := replyOf q (s0.bar q).k reply
  let cause := s0.gapCause q xa xb gs (!r.2.1)
  let s1 := match cause with
    | some c => s0.lightGap q xa xb c
    | none => s0
  let s2 := if r.2.2 then s1.sendGs q gs else s1
  let emit := (s2.bar q).gs.any (fun g => g != 0) && s2.blankHigh
  let b := s2.bar q
  let mark := if emit ∧ b.doseMark < xb then some xb else b.mark
  let s3 := (((s2.setBar q { b with mark := mark, k := b.k + 1
                                    cov := b.cov.filter (fun e => decide (s0.litLine q 3 xa ≤ (e.1 : Int))) }).putB (LED_BAR_STATUS_EMIT q)
      (b.gs.any (fun g => g != 0))).putB (LED_BAR_STATUS_SPEED_BLANK q) (s0.belowVmin q || decide (s0.webV.1 < 0))).rset
      (LED_DOSE_MARK q) (BitVec.ofNat 32 (twos 32 (mark.getD 0 / 65536)))
  let s4 := if r.2.1 then s3 else s3.syncMissed q
  s4.chainErrors q r.1

/-- The update instant of a bar: nothing is sent on a bar that is not ON, and its lines may have a gap (R360, R369). -/
def State.ledUpdate (s : State) (q : Nat) (xa xb : Int) (reply : ChainReply) : State :=
  if s.ust (barUnit q) == .on then s.ledOn q xa xb reply
  else match s.gapCause q xa xb [] false with
    | some c => s.lightGap q xa xb c
    | none => s

def execLedUpdate (bar : Fin 8) (xa xb : Int) (reply : ChainReply) (s : State) : Out := finish (s.ledUpdate bar xa xb reply)

/-! ### Status reads (R368) -/

/-- New OPEN or SHORT bits of one driver and row are shown and posted. -/
def State.ledFaults (s : State) (q pos r kind : Nat) (mask : Nat) : State :=
  (List.range 16).foldl (fun s ch =>
    let z := 16 * pos + ch
    let a := if kind = 1 then LED_OPEN q (2 * r + z / 32) else LED_SHORT q (2 * r + z / 32)
    if bit mask ch ∧ bit (s.rget a).toNat (z % 32) = false then
      ((s.rset a (BitVec.ofNat 32 ((s.rget a).toNat + 2 ^ (z % 32)))).event Ev.LED_FAULT q [z, r, kind]).cause LED_IRQ_CAUSE_LED_FAULT
    else s) s

/-- Read MISC, OPEN and SHORT of a driver. -/
def State.driverStatus (s : State) (q pos : Nat) : State :=
  let d := (s.bar q).drivers.getD pos Driver.reset
  let s1 := (List.range 4).foldl (fun s r => (s.ledFaults q pos r 1 (d.opens.getD r 0)).ledFaults q pos r 2 (d.shorts.getD r 0)) s
  let b := s1.bar q
  if d.ot ∧ b.otLost.getD pos false = false then
    let z := (pickOf ((List.range 16).map (fun ch => 16 * pos + ch))).getD (16 * pos)
    let r := (pickOf [0, 1, 2, 3]).getD 0
    ((s1.setBar q { b with otLost := b.otLost.set pos true }).event Ev.LED_FAULT q [z, r, 3]).cause LED_IRQ_CAUSE_LED_FAULT
  else s1

/-- The status read of a bar; a frame that does not return on LRTN faults it with reason 2 (R370). -/
def State.ledStatus (s : State) (q : Nat) (lrtn : Bool) : State :=
  if s.ust (barUnit q) != .on then s
  else if lrtn then (List.range 4).foldl (fun s pos => s.driverStatus q pos) s
  else s.barFault q 2 0xFF

def execLedStatusRead (bar : Fin 8) (lrtn : Bool) (s : State) : Out := finish (s.ledStatus bar lrtn)

/-- A write of LED_BAR_CMD.CLEAR (R368). -/
def State.barClear (s : State) (q : Nat) : State :=
  let b := s.bar q
  let s1 := s.setBar q { b with otLost := List.replicate 4 false, drivers := b.drivers.map (fun d => if d.dark then d else d.clear 15) }
  (List.range 8).foldl (fun s i => (s.rset (LED_OPEN q i) 0).rset (LED_SHORT q i) 0) s1

def execLedBarClear (req : Fin 6) (bar : Fin 8) (s : State) : Out :=
  finish (s.reqWrite req (LED_BAR_CMD bar) (fun s => s.barClear bar))

/-! ### LED current calibration (R372) -/

/-- Is a bar covered by a LED run? -/
def State.ledCovered (s : State) (q : Nat) : Bool := s.on (LED_BAR_CFG_CAL_EN q) && s.ust (barUnit q) == .on

/-- DC in force of a zone. -/
def State.dcActive (s : State) (q z : Nat) : Nat := bits (s.rget (LED_DC_ACTIVE q (z / 4))).toNat (8 * (z % 4) + 6) (8 * (z % 4))

/-- η_z as a ratio: the mean over countable rows of sum / count / DC. -/
def State.eta (s : State) (q z : Nat) : Option (Nat × Nat) :=
  let rs := ((List.range 4).filter (fun r => s.rowGood q z r)).map (fun r => (s.bar q).sums.get (4 * z + r) (0, 0))
  let us := rs.filter (fun e => e.2 != 0)
  if us = [] ∨ s.dcActive q z = 0 then none
  else
    let t := us.foldl (fun (a : Nat × Nat) e => (a.1 * e.2 + e.1 * a.2, a.2 * e.2)) (0, 1)
    some (t.1, t.2 * us.length * s.dcActive q z)

/-- η of the zones that have one, with their mean. -/
def State.etas (s : State) (q : Nat) : List (Nat × Nat × Nat) × Nat × Nat :=
  let es := (List.range 64).filterMap (fun z => (s.eta q z).map (fun e => (z, e.1, e.2)))
  let t := es.foldl (fun (a : Nat × Nat) e => (a.1 * e.2.2 + e.2.1 * a.2, a.2 * e.2.2)) (0, 1)
  (es, t.1, t.2 * max 1 es.length)

/-- Q0 and Q1 of a LED run (R372, R311). -/
def State.ledQ (s : State) : Nat × Nat :=
  bigQ (((List.range 8).filter (fun q => s.ledCovered q)).map (fun q =>
    let (es, mn, md) := s.etas q
    es.map (fun e =>
      let a := e.2.1 * md
      let b := mn * e.2.2
      ((2000 * ((a : Int) - b).natAbs + b) / (2 * max 1 b), 64 * q + e.1)))).flatten

/-- Has every countable zone and row of a bar 256 samples? -/
def State.ledDone (s : State) (q : Nat) : Bool :=
  (List.range 64).all (fun z => (List.range 4).all (fun r => !s.rowGood q z r || Nat.ble 256 ((s.bar q).sums.get (4 * z + r) (0, 0)).2))

/-- The targets of a bar (R372). -/
def State.ledTargets (s : State) (q : Nat) : State :=
  let (es, mn, md) := s.etas q
  es.foldl (fun s e =>
    let num := s.dcActive q e.1 * mn * e.2.2
    let den := md * e.2.1
    let t := if den = 0 then 127 else max 1 (min 127 ((2 * num + den) / (2 * den)))
    s.rset (LED_DC q (e.1 / 4)) (BitVec.ofNat 32 (setBits (s.rget (LED_DC q (e.1 / 4))).toNat (8 * (e.1 % 4) + 6) (8 * (e.1 % 4)) t))) s

/-- Every SENSE register of a bar is read and accumulated; the run may end (R372). -/
def State.senseRead (s : State) (q : Nat) : State :=
  if s.runState chLED ≠ rsRUNNING ∨ s.ledCovered q = false then s
  else
    let b := s.bar q
    let sums := (b.drivers.zipIdx).foldl (fun (m : AMap (Nat × Nat)) e =>
      (e.1.sense.zipIdx).foldl (fun (m : AMap (Nat × Nat)) v =>
        if v.1.2 = 0 then m
        else
          let k := 64 * e.2 + v.2
          m.set k ((m.get k (0, 0)).1 + v.1.1, (m.get k (0, 0)).2 + v.1.2)) m) b.sums
    let s1 := s.setBar q { b with sums := sums, drivers := b.drivers.map (fun d => { d with sense := List.replicate 64 (0, 0) }) }
    let qs := (List.range 8).filter (fun q => s1.ledCovered q)
    if qs.all (fun q => s1.ledDone q) then
      let fig := s1.ledQ
      (qs.foldl (fun s q => s.ledTargets q) s1).calEnd chLED ocOK fig.1 fig.2
    else s1

def execLedSenseRead (bar : Fin 8) (s : State) : Out := finish (s.senseRead bar)

/-! ### Job take (R362, R364, R366) -/

/-- What a job take does to a bar: LED_CODE_VOL sampled, the dose mark one line before the first tick, and the distance check. -/
def State.barTake (s : State) (q mode per : Nat) : State :=
  let s1 := (s.setBar q { s.bar q with vol := s.get (LED_CODE_VOL_VOL q), mark := some (-65536), cov := [] }).rset (LED_DOSE_MARK q) 0xFFFFFFFF
  let b0 := s.get (LED_BAR_DIST_INT_INT q) * 65536 + s.get (LED_BAR_DIST_FRAC_FRAC q)
  let pf := per * s.get LED_SCAN_FREQ
  if s.ust (barUnit q) == .on ∧ b0 * pf < 65536 * fineOf mode * (2 * s.ledU * 256 * 10 ^ 9 + 32 * pf) then s1.barFault q 4 0xFF else s1

end Sys2Proof.Machine
end

