-- ==== Sys2Proof/Machine/LedgerCmds.lean ====
section
/-!
DEFINITION. The ledger's commands (R273, R274), the retry and end of a sweep, held mask changes, MRAM write batches (R269,
R270) and the load after a reset (R271, R272).
-/
namespace Sys2Proof.Machine

/-! ### The command queue (R273, R274) -/

/-- Results of LDG_CMD_STATUS. -/
def lrOK : Nat := 0
def lrBAD_RANGE : Nat := 2
def lrBUSY : Nat := 3
def lrNOT_READY : Nat := 4
def lrFULL : Nat := 5
def lrBAD_OP : Nat := 6
def lrNO_DECL : Nat := 7

/-- Show the queue's depth. -/
def State.ldgDepth (s : State) : State := s.put LDG_CMD_STATUS_DEPTH s.ldg.cmds.length

/-- The front command is over with a result: DONE advances; a refusal posts CMD_REFUSED and has no other effect. -/
def State.ldgDone (s : State) (c : LdgCmd) (res : Nat) : State :=
  let s1 := ((s.setLdg { s.ldg with cmds := s.ldg.cmds.drop 1 }).ldgDepth.put LDG_CMD_STATUS_RESULT res).put LDG_CMD_STATUS_DONE
    (s.get LDG_CMD_STATUS_DONE + 1)
  if res = lrOK then s1
  else (s1.event Ev.CMD_REFUSED c.tile [c.op, c.tile, c.nozzle, res]).cause LDG_IRQ_CAUSE_CMD_REFUSED

/-- Commands at the front that name no operation are refused (R274). -/
def State.ldgDrain (s : State) : Nat → State
  | 0 => s
  | n + 1 =>
    match s.ldg.cmds with
    | [] => s
    | c :: _ =>
      if 1 ≤ c.op ∧ c.op ≤ 9 then s
      else State.ldgDrain (s.ldgDone c ((pickOf ([lrBAD_OP] ++ if c.ready then [] else [lrNOT_READY])).getD lrBAD_OP)) n

/-- A write of LDG_CMD (R273). -/
def State.ldgWrite (s : State) (v : Word) : State :=
  if 64 ≤ s.ldg.cmds.length then s.put LDG_CMD_STATUS_RESULT lrFULL
  else
    let c : LdgCmd := { ready := s.on LDG_STATUS_READY, op := bits v.toNat 7 0, tile := bits v.toNat 16 8,
                        nozzle := bits v.toNat 31 17, arg := (s.rget LDG_CMD_ARG).toNat }
    (s.setLdg { s.ldg with cmds := s.ldg.cmds ++ [c] }).ldgDepth.ldgDrain 64

def execLdgCmdWrite (req : Fin 6) (value : Word) (s : State) : Out :=
  finish (s.reqWrite req (LDG_CMD) (fun s => s.ldgWrite value))

/-- Execute the front command when it has an operation: refused when a check finds a reason, else its action runs. -/
def State.ldgRun (s : State) (op : Nat) (checks : LdgCmd → List Nat) (act : State → LdgCmd → State) : State :=
  match s.ldg.cmds with
  | [] => s
  | c :: _ =>
    if c.op ≠ op then s
    else
      match pickOf ((if c.ready then [] else [lrNOT_READY]) ++ checks c) with
      | some r => (s.ldgDone c r).ldgDrain 64
      | none => ((act s c).ldgDone c lrOK).ldgDrain 64

/-- The range check of R274. -/
def rangeCheck (c : LdgCmd) : List Nat := if c.arg = 0 ∨ 32768 < c.nozzle + c.arg then [lrBAD_RANGE] else []

/-- A range command (R244, R274). -/
def State.ldgRange (s : State) (op : Nat) (t : NozTrigger) : State :=
  s.ldgRun op rangeCheck (fun s c => s.nozzleRange t c.tile c.nozzle c.arg)

def execSetTemp (s : State) : Out := finish (s.ldgRange 1 .setTemp)
def execClearTemp (s : State) : Out := finish (s.ldgRange 2 .clearTemp)
def execRetire (s : State) : Out := finish (s.ldgRange 3 .retire)
def execRestore (s : State) : Out := finish (s.ldgRange 4 .restore)

/-- The observed line of an EVIDENCE command: the latest press line, at or before the counter, with those low 24 bits (R245). -/
def State.observedLine (s : State) (low : Nat) : Nat :=
  (s.time.line + 2 ^ 40 - (s.time.line + 2 ^ 24 - low % 2 ^ 24) % 2 ^ 24) % 2 ^ 40

def execEvidence (s : State) : Out :=
  finish (s.ldgRun 5 (fun _ => []) (fun s c => s.evidence c.tile c.nozzle (s.observedLine c.arg)))

def execPurgeDone (s : State) : Out :=
  finish (s.ldgRun 6 (fun _ => []) (fun s c =>
    ((List.range 8).filter (fun q => bit c.arg q)).foldl (fun a q => a.purgePlane q s.effLine) s))

def execSweep (s : State) : Out :=
  finish (s.ldgRun 7 (fun c => if s.sweepOk (c.arg % 256) then [] else [lrBUSY]) (fun s c => s.sweepStart (c.arg % 256)))

def execAdopt (s : State) : Out :=
  finish (s.ldgRun 8
    (fun c => (if s.press.job.isSome then [lrBUSY] else []) ++ (if (s.declAt c.tile).isNone then [lrNO_DECL] else []))
    (fun s c => match s.declAt c.tile with | some d => s.adoptTile c.tile d | none => s))

/-- Mark a baseline invalid; every trim of the tile is 0 from then on (R240, R274). -/
def State.rebase (s : State) (g : Nat) : State :=
  let ks := (s.ldg.trims.filter (fun e => e.1 / 65536 == g && e.2 != 0)).map (fun e => e.1 % 65536 / 16)
  let s1 := s.setRec g { s.trec g with baseValid := false }
  (s1.setLdg { s1.ldg with trims := s1.ldg.trims.filter (fun e => !(e.1 / 65536 == g)) }).sendTrims g ks.eraseDups

def execRebase (s : State) : Out := finish (s.ldgRun 9 (fun _ => []) (fun s c => s.rebase c.tile))

/-! ### The sweep (R236) -/

def execSweepRetry (p : Fin 24) (slot : Fin 24) (s : State) : Out :=
  finish (match s.ldg.sweep with
    | none => s
    | some w =>
      match w.tiles.find? (fun t => t.port == p.val && t.slot == slot.val) with
      | none => s
      | some t => if t.failed ∨ t.naks = 0 ∨ 4 < t.naks then s else s.sendNow p.val slot.val opRES_SWEEP (sweepPayload 0 65536))

/-- 50 ms in reference cycles. -/
def sweepLimit : Nat := 12500000

def execSweepEnd (s : State) : Out :=
  finish (match s.ldg.sweep with
    | none => s
    | some w => if w.complete ∨ w.start + sweepLimit ≤ s.time.cyc then s.sweepFinish else s)

/-! ### Held mask changes (R257) -/

def execHeldMaskChangeRelease (p : Fin 24) (slot : Fin 24) (s : State) : Out :=
  finish (match s.posOf p.val slot.val with
    | none => s
    | some g => s.releaseHeld g (s.ldg.changes.length + 1))

/-! ### MRAM (R269 to R272) -/

/-- The place of a word in a batch (R269): header, state array, exceptions, suspects, tile records, odometer. -/
def wordRank (a : Nat) : Nat :=
  if a < 0x100 then 0
  else if a < 0x1000 then 5
  else if a < 0x10000 then 4
  else if a < 0x100000 then 2
  else if a < 0x300000 then 3
  else 1

/-- 60 s in reference cycles. -/
def recPeriod : Nat := 15000000000

/-- May a word be written now: a tile record at most once per 60 s (R269)? -/
def State.wordDue (s : State) (a : Nat) : Bool :=
  wordRank a != 4 || !(s.ldg.recDirty.has ((a - 0x1000) / 64)) || Nat.ble (s.ldg.recDirty.get ((a - 0x1000) / 64) 0 + recPeriod) s.time.cyc

/-- Write one dirty word; an MRAM word is written only when its content changes. -/
def State.writeWord (s : State) (a : Nat) : State :=
  { s with mram := if Mem.reads s.mram a 8 = s.wordImage a then s.mram else Mem.writes s.mram a (s.wordImage a) }

/-- Write every dirty word that is due, in the order of R269; after a hold, WRITE_FLUSHED follows (R270). -/
def State.writeBatch (s : State) : State :=
  let due := s.ldg.dirty.filter (fun a => s.wordDue a)
  let ordered := ((List.range 6).map (fun r => due.filter (fun a => wordRank a == r))).flatten
  let recs := ((due.filter (fun a => wordRank a == 4)).map (fun a => (a - 0x1000) / 64)).eraseDups
  let s1 := ordered.foldl (fun s a => s.writeWord a) s
  let s2 := s1.setLdg { s1.ldg with dirty := s1.ldg.dirty.filter (fun a => !due.contains a), writeHeld := false,
                                    recDirty := recs.foldl (fun m g => m.set g s.time.cyc) s1.ldg.recDirty }
  if s.ldg.writeHeld then
    ((s2.putB LDG_STATUS_PENDING false).put LDG_PENDING_COUNT_WORDS 0).event' Ev.WRITE_FLUSHED [ordered.length]
  else s2

def execMramWriteBatch (s : State) : Out := finish (if s.on LDG_STATUS_IN_WINDOW then s.writeBatch else s.showHeld)

/-- Cells of a memory from `a` to below `b`, addresses from `a`. -/
def cellsIn (m : Memory) (a b : Nat) : List (Nat × Nat) :=
  (m.filter (fun e => Nat.ble a e.1 && Nat.blt e.1 b)).map (fun e => (e.1 - a, e.2.toNat))

/-- The nozzle states of the state array (R266): byte `b` of a position holds nozzles 4 b to 4 b + 3. -/
def loadNozzles (m : Memory) : AMap Nat :=
  ((cellsIn m 0x300000 0x700000).map (fun e =>
    (List.range 4).filterMap (fun k =>
      let st := e.2 / 4 ^ k % 4
      if st = 0 then none else some (nozKey (e.1 / 8192) (4 * (e.1 % 8192) + k), st)))).flatten

/-- The valid exception entries in the list's order (R266). -/
def loadExceptions (m : Memory) : AMap Exc :=
  (cellsIn m 0x10000 0x50000).filterMap (fun e =>
    if e.1 % 4 = 3 ∧ 128 ≤ e.2 then
      let v := leNat (Mem.reads m (0x10000 + e.1 - 3) 4)
      some (e.1 / 4, { g := bits v 8 0, n := bits v 23 9, heater := bits v 24 24, cause := bits v 26 25 })
    else none)

/-- The valid suspect entries (R266). -/
def loadSuspects (m : Memory) : AMap Suspect :=
  (cellsIn m 0x100000 0x200000).filterMap (fun e =>
    if e.1 % 8 = 3 ∧ bit e.2 3 then
      let v := leNat (Mem.reads m (0x100000 + e.1 - 3) 8)
      some (e.1 / 8, { g := bits v 8 0, n := bits v 23 9, count := bits v 26 24, first := v / 2 ^ 32 })
    else none)

/-- A tile record as MRAM holds it: none when it fails its check. A record of zeros is one never used. -/
def loadRec (b : List Byte) : Option TileRec :=
  if b.all (fun x => x == 0) then some TileRec.reset
  else if crc32c (b.take 60) ≠ leAt b 60 4 ∨ leAt b 0 1 ≠ 1 then none
  else some { used := bit (leAt b 1 1) 0, baseValid := bit (leAt b 1 1) 1, ident := leAt b 2 10, rNom := leAt b 12 2,
              base := leAt b 14 2, adopted := leAt b 16 4, sweeps := leAt b 20 4, opens := leAt b 24 2, shorts := leAt b 26 2,
              retired := leAt b 28 2, single := leAt b 30 2, suspicions := leAt b 32 4 }

/-- The largest odometer value among the words whose halves agree (R268). -/
def loadOdometer (m : Memory) : Nat :=
  (List.range 64).foldl (fun a k =>
    let b := Mem.reads m (0x100 + 8 * k) 8
    if leAt b 0 4 + leAt b 4 4 = 0xFFFFFFFF then max a (leAt b 0 4) else a) 0

/-- Post LEDGER_CORRUPT for a region (R272). -/
def State.ledgerCorrupt (s : State) (region unit : Nat) : State :=
  ((s.putB LDG_STATUS_CORRUPT true).event Ev.LEDGER_CORRUPT unit [region]).cause LDG_IRQ_CAUSE_CORRUPT

/-- Load and repair the working copy (R271, R272). -/
def State.ledgerLoad (s : State) (errs : List (Nat × Bool)) : State :=
  let m := mramSeen s.mram errs
  let hdrOk := !mramBad errs 0 64 && Mem.reads m 0 64 == ledgerHeader
  let recs := (List.range 512).map (fun g =>
    (g, if mramBad errs (recAddr g) (recAddr g + 64) then none else loadRec (Mem.reads m (recAddr g) 64)))
  let bad := (recs.filter (fun e => e.2.isNone)).map (fun e => e.1)
  let ex := loadExceptions m
  let both := ex.filter (fun e => ex.any (fun f => f.2.g == e.2.g && f.2.n == e.2.n && f.2.heater != e.2.heater))
  let nz0 := loadNozzles m
  let nz := both.foldl (fun m e => m.set (nozKey e.2.g e.2.n) nzRETIRED) nz0
  let keep := ex.filter (fun e => nz.get (nozKey e.2.g e.2.n) 0 != nzRETIRED &&
    !ex.any (fun f => Nat.blt f.1 e.1 && f.2 == e.2))
  let dropped := ex.filter (fun e => !keep.contains e)
  let repaired := both.filter (fun e => nz0.get (nozKey e.2.g e.2.n) 0 != nzRETIRED)
  let l : Ledger := { Ledger.reset with
    nozzles := nz, exc := keep, sus := loadSuspects m,
    heaters := keep.foldl (fun m e => m.set (heatKey e.2.g (2 * e.2.n + e.2.heater)) e.2.cause) [],
    recs := if hdrOk then recs.filterMap (fun e => match e.2 with | some r => if r.used then some (e.1, r) else none | none => none) else [],
    metres := loadOdometer m, need := s.ldg.need, thin := s.ldg.thin, cmds := s.ldg.cmds, purgeLine := s.ldg.purgeLine }
  let s1 := (s.setLdg l).put LDG_ODOMETER_METRES l.metres
  let cols : List (Nat × Nat) := (nz.map (fun (e : Nat × Nat) => (e.1 / 32768, e.1 % 32768 / 8)) ++ keep.map (fun (e : Nat × Exc) => (e.2.g, e.2.n / 8))).eraseDups
  let s2 := cols.foldl (fun s x => s.forceMasks x.1 x.2 [s.maskNow x.1 x.2]) s1
  let words : List Nat := (dropped.map (fun (e : Nat × Exc) => excWord e.1) ++ repaired.map (fun (e : Nat × Exc) => nozWord e.2.g e.2.n)).eraseDups
  let s3 := words.foldl (fun s a => s.touch a none) s2
  let s4 := if hdrOk then s3 else ((List.range 8).foldl (fun s i => s.touch (8 * i) none) s3).ledgerCorrupt 1 0xFFFF
  (bad.foldl (fun s g => s.ledgerCorrupt 2 g) s4).putB LDG_STATUS_READY true

def execLedgerLoadComplete (errs : List (Nat × Bool)) (s : State) : Out :=
  finish (if s.on LDG_STATUS_READY then s else (s.mramErrors errs).ledgerLoad errs)

end Sys2Proof.Machine
end

