-- ==== Sys2Proof/Machine/HeadLink.lean ====
section
/-!
DEFINITION. The FH-824's side of the head link (06_laneb.md, 08_firing_and_head_heat.md): training, link loss, acknowledgement
and retry, losses, reports, and keep-wet spitting.
-/
namespace Sys2Proof.Machine

/-! ### Ports as units (R224 to R232) -/

/-- The unit of a port number. -/
def portUnit (p : Nat) : UnitId := .port (Fin.ofNat 24 p)

/-- Set a port's training phase; LINK_UP follows (HLK_PORT_STATUS). -/
def State.setPhase (s : State) (p ph : Nat) : State :=
  (s.put (HLK_PORT_STATUS_PHASE p) ph).putB (HLK_PORT_STATUS_LINK_UP p) (ph == 6)

/-- Is a port training: STARTING, or ON with its link down? -/
def State.portTraining (s : State) (p : Nat) : Bool :=
  (s.ust (portUnit p) == .starting || s.ust (portUnit p) == .on) && s.get (HLK_PORT_STATUS_PHASE p) != 6

/-- Does a port serve the active job: some tile of the job is on it? -/
def State.portServes (s : State) (p : Nat) : Bool := s.press.job.isSome && s.entries.any (fun e => e.port == p)

/-- SPITTING of a plane clears once no tile of it still waits for SPIT with ON = 0 (R295). -/
def State.refreshSpitting (s : State) (q : Nat) : State :=
  if s.on (PLN_KEEPWET_CAPPED q) then s
  else s.putB (PLN_KEEPWET_SPITTING q)
    ((s.planeEntries q).any (fun e => (s.ctl e.port e.slot).spitOff && s.portUp e.port && s.authorised e.port))

/-- The same for every plane. -/
def State.refreshAllSpitting (s : State) : State := (List.range 8).foldl (fun s q => s.refreshSpitting q) s

/-- A port has failed to start (R224): FAULT with a reason; while it stops the fault is only recorded (R16). -/
def State.portFault (s : State) (p reason : Nat) : State :=
  match s.ust (portUnit p) with
  | .starting | .on =>
    let ph := s.get (HLK_PORT_STATUS_PHASE p)
    (((((s.setUst (portUnit p) .fault).setPend (portUnit p) false).put (HLK_PORT_STATUS_REASON p) reason).setPhase p 0).event
      Ev.PORT_FAULT p [reason, ph]).cause HLK_IRQ_CAUSE_PORT_FAULT
  | .stopping => s.recordFault (portUnit p) reason
  | _ => s

/-! ### Losses (R201, R202) -/

/-- The 40-bit press line nearest the counter with given low 24 bits. -/
def State.nearLine (s : State) (low : Nat) : Nat := ((s.time.line : Int) + sgn 24 (low + 2 ^ 24 - s.time.line % 2 ^ 24)).toNat

/-- A packet's loss is counted and reported with its press line (R201). -/
def State.countLost (s : State) (p : Nat) (k : Packet) (low : Nat) : State :=
  ((s.addSat (HLK_LOST_COUNT_COUNT p) 1).event Ev.LINE_LOST p [k.slot, s.nearLine low, k.sent, k.lastStatus]).cause HLK_IRQ_CAUSE_LINE_LOST

/-- A line packet is lost (R201): counted, reported, and handled as late data of Type 3. -/
def State.lineLost (s : State) (p : Nat) (k : Packet) (low plane jobLine : Nat) : State :=
  (s.countLost p k low).lateData 3 (some plane) jobLine 0xFF p k.slot

/-- A timed load is lost as the line at its effective tick would be (R202). -/
def State.loadLost (s : State) (p : Nat) (k : Packet) (low : Nat) (jobLine : Option Nat) : State :=
  match jobLine, s.posOf p k.slot with
  | some x, some g => s.lineLost p k low (g / 64) x
  | _, _ => s.countLost p k low

/-- A control packet has failed (R202); a timed load is then lost too. -/
def State.ctlFailed (s : State) (p : Nat) (k : Packet) (op cseq : Nat) (imm : Bool) (low : Nat) (jobLine : Option Nat) : State :=
  let s1 := (s.event Ev.CONTROL_REFUSED p [k.slot, op, cseq, k.lastStatus]).cause HLK_IRQ_CAUSE_CONTROL_REFUSED
  if imm then s1 else s1.loadLost p k low jobLine

/-- A packet fails for good. -/
def State.packetFailed (s : State) (p : Nat) (k : Packet) : State :=
  match k.body with
  | .line low plane jobLine _ _ => s.lineLost p k low plane jobLine
  | .ctl op cseq imm line _ jobLine => s.ctlFailed p k op cseq imm line jobLine

/-- Take a packet out of a port's outstanding ones, and send waiting ones in its place (R192). -/
def State.dropPacket (s : State) (p lsn : Nat) : State :=
  (s.setPort p { s.port p with outstanding := (s.port p).outstanding.filter (fun k => k.lsn != lsn) }).sendWaiting p 1025

/-- Every packet of a port fails (R227). -/
def State.failAll (s : State) (p : Nat) : State :=
  let ks := (s.port p).outstanding ++ (s.port p).waiting
  ks.foldl (fun s k => s.packetFailed p k) (s.setPort p { s.port p with outstanding := [], waiting := [] })

/-- Add to a port's tally (R230); at the limit of a port that serves the job, RETIRE_PEND is set and a planned stop requested
(R231). The count does not pass its register's largest value. -/
def State.tally (s : State) (p n : Nat) : State :=
  let s1 := s.addSat (HLK_TALLY_COUNT p) n
  if max 1 (s.get (HLK_TALLY_CFG_LIMIT p)) ≤ s1.get (HLK_TALLY_COUNT p) ∧ s.portServes p ∧ s.ust (portUnit p) = .on ∧
      s.clk ≠ clkStopped ∧ ¬ s.on (HLK_PORT_STATUS_RETIRE_PEND p) then
    (s1.putB (HLK_PORT_STATUS_RETIRE_PEND p) true).plannedStop
  else s1

/-- A port enters RETIRED (R228, R231, R232): it sends nothing more, and its lanes sleep (R532). -/
def State.portRetire (s : State) (p reason : Nat) : State :=
  let s1 := (((s.setUst (portUnit p) .retired).setPend (portUnit p) false).put (HLK_PORT_STATUS_REASON p) reason).putB
    (HLK_PORT_STATUS_RETIRE_PEND p) false
  let s2 := ((((s1.setPhase p 0).put (SDS_LANE_STATUS_PWR (2 * p)) 2).put (SDS_LANE_STATUS_PWR (2 * p + 1)) 2).event Ev.PORT_RETIRED p
    [reason, s.get (HLK_TALLY_COUNT p)]).cause HLK_IRQ_CAUSE_PORT_RETIRED
  (s2.failAll p).refreshAllSpitting

/-! ### Training (R224 to R228) -/

/-- A signal on a lane: its detector shows it and the lane returns to ON (R532). -/
def State.laneSignal (s : State) (l : Nat) : State := (s.putB (SDS_LANE_STATUS_SIG_DET l) true).put (SDS_LANE_STATUS_PWR l) 0

/-- Phase 0 ends: signal on both receivers. -/
def State.signalDetected (s : State) (p : Nat) : State :=
  if s.portTraining p ∧ s.get (HLK_PORT_STATUS_PHASE p) = 0 then ((s.laneSignal (2 * p)).laneSignal (2 * p + 1)).setPhase p 1 else s

def execPortSignalDetected (p : Fin 24) (s : State) : Out := finish (s.signalDetected p.val)

/-- A lane's adaptation starts anew (R528 step 1): it requests preset. -/
def Lane.adapt (x : Lane) : Lane :=
  { x with bestFom := 0, tap := 0, inc := true, undo := false, kept := false, searched := false, reqs := 0, req := 3, hold := false,
           rxReady := false }

/-- Change a lane's record. -/
def State.updLane (s : State) (l : Nat) (f : Lane → Lane) : State :=
  { s with lanes := s.lanes.set l (f (s.lanes.getD l Lane.reset)) }

/-- Phase 1 ends: lock on the TRAIN blocks of both lanes. -/
def State.blockLock (s : State) (p : Nat) : State :=
  if s.portTraining p ∧ s.get (HLK_PORT_STATUS_PHASE p) = 1 then
    ((((s.putB (SDS_LANE_STATUS_BLOCK_LOCK (2 * p)) true).putB (SDS_LANE_STATUS_BLOCK_LOCK (2 * p + 1)) true).setPhase p 2).updLane
      (2 * p) Lane.adapt).updLane (2 * p + 1) Lane.adapt
  else s

def execPortBlockLock (p : Fin 24) (s : State) : Out := finish (s.blockLock p.val)

def execPortAdaptDone (p : Fin 24) (s : State) : Out :=
  finish (if s.portTraining p.val ∧ s.get (HLK_PORT_STATUS_PHASE p.val) = 2 then s.setPhase p.val 3 else s)

/-- A control packet of the training phases, which precedes normal traffic. -/
def State.sendTraining (s : State) (p slot op : Nat) : State :=
  let c := (s.ctl p slot).cseq
  let q := s.port p
  let k : Packet := { lsn := q.lsn, slot := slot, body := .ctl op c true 0 [] none, sent := 1, lastStatus := 0 }
  (s.setCtl p slot { s.ctl p slot with cseq := (c + 1) % 256 }).setPort p
    { q with lsn := (q.lsn + 1) % 4096, outstanding := q.outstanding ++ [k] }

/-- Phase 3 ends: the lanes are deskewed; the hub is asked for its declaration. -/
def State.deskewDone (s : State) (p : Nat) : State :=
  if s.portTraining p ∧ s.get (HLK_PORT_STATUS_PHASE p) = 3 then
    ((s.setPort p { s.port p with hubOk := false, retLsn := none }).setPhase p 4).sendTraining p 31 opDECLARE_REQ
  else s

def execPortDeskewDone (p : Fin 24) (s : State) : Out := finish (s.deskewDone p.val)

/-- The slots that the hub's declaration marks fitted. -/
def State.fitted (s : State) (p : Nat) : List Nat := (List.range 24).filter (fun k => s.slotPresent p k)

/-- λ of a set of 16 echoes in 1/16 ns (R205): mean of (RT - TAU - ASYM) / 2, to nearest, halves up. -/
def lambda16 (xs : List Nat) (asym : Int) : Nat := (roundDiv (((xs.foldl (· + ·) 0 : Nat) : Int) - 16 * asym) 32).toNat

/-- ASYM of a slot (R205, R216); the hub's is 0. -/
def State.asym (s : State) (p slot : Nat) : Int := if slot = 24 then 0 else hubAsym ((s.port p).hubDecl.getD 0) slot

/-- Does a set of echoes pass: 16 of them, spread at most 2.0 ns (R205)? -/
def echoesOk (xs : List Nat) : Bool :=
  xs.length == 16 && xs.all (fun a => xs.all (fun b => Nat.ble a (b + 32)))

/-- Is C_s negative for a slot (R206)? -/
def State.latNeg (s : State) (p slot : Nat) : Bool := decide (s.cLat16 p slot < 0)

/-- The latency phase (R205, R206): λ of the hub and of every fitted slot; a spread over 2.0 ns or a negative C_s fails it. -/
def State.latencyDone (s : State) (p : Nat) (echoes : List EchoSet) : State :=
  if ¬ (s.portTraining p ∧ s.get (HLK_PORT_STATUS_PHASE p) = 4 ∧ (s.port p).hubOk) then s
  else
    let slots := s.fitted p ++ [24]
    let xs : Nat → List Nat := fun k => match echoes.find? (fun e => e.slot.val == k) with | some e => e.rtTau | none => []
    if ¬ slots.all (fun k => echoesOk (xs k)) then s.portFault p 4
    else
      let s1 : State := slots.foldl (fun s k => (s.put (HLK_SLOT_LAT_LAT p k) (lambda16 (xs k) (s.asym p k))).putB (HLK_SLOT_LAT_VALID p k) true) s
      if (s.fitted p).any (fun k => s1.latNeg p k) then s1.portFault p 4
      else
        (s.fitted p).foldl (fun s k => (s.setCtl p k { s.ctl p k with declSeen := false }).sendTraining p k opDECLARE_REQ) (s1.setPhase p 5)

def execPortLatencyDone (p : Fin 24) (echoes : List EchoSet) (s : State) : Out := finish (s.latencyDone p.val echoes)

/-- Is C_s negative for some tile of the job (R207)? The first such entry. -/
def State.shortTile (s : State) : Option MapEntry := s.entries.find? (fun e => decide (s.cLat16 e.port e.slot < 0))

/-- Compute C_s of every tile of the job (R207): FIRE_LATENCY_SHORT is posted once while a start or resume waits on it. -/
def State.checkLatency (s : State) : State :=
  match s.press.job with
  | none => s
  | some j =>
    match s.shortTile with
    | none => s.setJob { j with latencyShort := false }
    | some e =>
      if j.latencyShort then s
      else (s.setJob { j with latencyShort := true }).event Ev.FIRE_LATENCY_SHORT e.port
        [e.slot, s.get (HLK_SLOT_LAT_LAT e.port e.slot), ceilDiv (608 + s.get (HLK_SLOT_LAT_LAT e.port e.slot)) 16]

/-- The link comes up (R226): PORT_UP, then changed tiles (R263) and latencies (R207) are looked at. -/
def State.portComesUp (s : State) (p : Nat) : State :=
  if ¬ (s.portTraining p ∧ s.get (HLK_PORT_STATUS_PHASE p) = 5 ∧ (s.fitted p).all (fun k => (s.ctl p k).declSeen)) then s
  else
    let s1 := ((s.setPhase p 6).setUst (portUnit p) .on).put (HLK_PORT_STATUS_RETRAIN_FAILS p) 0
    let map := (s.fitted p).foldl (fun a k => a + 2 ^ k) 0
    let s2 := (s1.event Ev.PORT_UP p [(s.port p).rate, s.get (HLK_SLOT_LAT_LAT p 24), map]).cause HLK_IRQ_CAUSE_PORT_UP
    ((s2.entries.filter (fun e => e.port == p)).foldl (fun s e => s.checkTile e) s2).checkLatency

def execPortUp (p : Fin 24) (s : State) : Out := finish (s.portComesUp p.val)

/-- Link loss (R227): phase 0, traffic stops, every outstanding packet fails. A loss of block lock counts in the tally. -/
def State.linkLost (s : State) (p lane : Nat) (lockLoss : Bool) : State :=
  if ¬ ((s.ust (portUnit p) = .on ∨ s.ust (portUnit p) = .starting) ∧ s.get (HLK_PORT_STATUS_PHASE p) ≠ 0) then s
  else
    let up := s.portUp p
    let s0 := if lockLoss then s.putB (SDS_LANE_STATUS_BLOCK_LOCK (2 * p + lane)) false else s.putB (SDS_LANE_STATUS_SIG_DET (2 * p + lane)) false
    let s1 := (if lockLoss then s0.tally p 1 else s0).setPhase p 0
    let s2 := if up then (s1.event Ev.PORT_DOWN p [2 * p + lane, b2n s.press.job.isSome]).cause HLK_IRQ_CAUSE_PORT_DOWN else s1
    let s3 := (s2.updLane (2 * p) (fun x => { x with covered := false })).updLane (2 * p + 1) (fun x => { x with covered := false })
    (s3.failAll p).refreshAllSpitting


/-- A retraining attempt fails; after three in succession the port enters RETIRED with reason 2 (R228). -/
def State.retrainFailed (s : State) (p : Nat) : State :=
  if s.ust (portUnit p) = .on ∧ s.get (HLK_PORT_STATUS_PHASE p) ≠ 0 ∧ s.get (HLK_PORT_STATUS_PHASE p) ≠ 6 then
    let n := s.get (HLK_PORT_STATUS_RETRAIN_FAILS p) + 1
    if 3 ≤ n then (s.put (HLK_PORT_STATUS_RETRAIN_FAILS p) 3).portRetire p 2
    else ((s.put (HLK_PORT_STATUS_RETRAIN_FAILS p) n).setPhase p 0).setPort p { s.port p with outstanding := [] }
  else s

def execRetrainTimeout (p : Fin 24) (s : State) : Out := finish (s.retrainFailed p.val)

/-! ### Acknowledgement and retry (R199 to R203) -/

/-- Line packets held for a tile go out once SET_LINE and TICK_DELAY are acknowledged (R213). -/
def State.flushHeld (s : State) (p slot : Nat) : State :=
  if (s.ctl p slot).setup = [] then
    (s.ctl p slot).heldLines.foldl (fun s b => s.sendPacket p slot b) (s.setCtl p slot { s.ctl p slot with heldLines := [] })
  else s

/-- Show LOADED and FAULT of a slot. -/
def State.showSlot (s : State) (p slot : Nat) : State :=
  if slot < 24 then
    (s.putB (HLK_SLOT_STATUS_LOADED p slot) ((s.ctl p slot).unacked == [])).putB (HLK_SLOT_STATUS_FAULT p slot) ((s.ctl p slot).faults != 0)
  else s

/-- What an acknowledged control packet brings. -/
def State.ctlAcked (s : State) (p slot op cseq : Nat) (payload : List Byte) : State :=
  let c := s.ctl p slot
  let c1 : CtlSlot := { c with unacked := c.unacked.filter (fun x => x != cseq), setup := c.setup.filter (fun x => x != cseq) }
  let s1 := s.setCtl p slot c1
  let s2 :=
    if op = opWARM then s1.setCtl p slot { c1 with duty := some (pf payload 0 1) }
    else if op = opLINE_CANCEL then s1.setCtl p slot { c1 with cancel := none }
    else if op = opSPIT then
      (if pf payload 0 1 = 0 then (s1.setCtl p slot { c1 with spitOff := false }).refreshAllSpitting else s1)
    else if op = opCLEAR_FAULT then
      let codes := pf payload 0 4
      let s2 := s1.setCtl p slot { c1 with faults := clearCodes c1.faults codes, count2 := if bit codes 2 then 0 else c1.count2,
                                           shutDown := c1.shutDown && !bit codes 6,
                                           autoClear := if c1.autoClear = some cseq then none else c1.autoClear }
      match c1.autoClear, s.posOf p slot with
      | some a, some g => if a = cseq then s2.event Ev.THERMAL_CLEARED g [twos 16 c.tMax] else s2
      | _, _ => s2
    else s1
  (s2.showSlot p slot).flushHeld p slot

/-- Send a packet again, or fail it after three retransmissions (R200 to R202). -/
def State.retry (s : State) (p : Nat) (k : Packet) : State :=
  if 4 ≤ k.sent then (s.dropPacket p k.lsn).packetFailed p k
  else
    (s.setPort p { s.port p with outstanding := (s.port p).outstanding.map (fun x =>
        if x.lsn = k.lsn then { x with sent := k.sent + 1, lastStatus := k.lastStatus } else x) }).addSat (HLK_RETRY_COUNT_COUNT p) 1

/-- RES_SWEEP was refused (R236): counted; the fifth refusal fails the tile. -/
def State.sweepRefused (s : State) (p slot : Nat) : State :=
  s.sweepCount (fun w => { w with tiles := w.tiles.map (fun t =>
    if t.port = p ∧ t.slot = slot then { t with naks := t.naks + 1, failed := t.failed || decide (5 ≤ t.naks + 1) } else t) })

/-- A final NAK (R201, R202). -/
def State.finalNak (s : State) (p : Nat) (k : Packet) : State :=
  let s1 := ((s.addSat (HLK_NAK_COUNT_COUNT p) 1).dropPacket p k.lsn).packetFailed p k
  match k.body with
  | .ctl op _ _ _ _ _ => if op = opRES_SWEEP ∧ k.lastStatus = akREFUSED then s1.sweepRefused p k.slot else s1
  | _ => s1

/-- An ACK block arrives (R199 to R203, R230). -/
def State.ackIn (s : State) (p lsn status : Nat) (checkOk : Bool) : State :=
  if ¬ checkOk ∨ 7 ≤ status then (s.addSat (HLK_RX_ERR_COUNT_COUNT p) 1).tally p 1
  else
    match (s.port p).outstanding.find? (fun k => k.lsn == lsn) with
    | none => s.addSat (HLK_NAK_COUNT_COUNT p) 1
    | some k0 =>
      let k : Packet := { k0 with lastStatus := status }
      if status = akACK then
        let s1 := s.dropPacket p lsn
        match k.body with
        | .line _ _ _ _ _ => s1
        | .ctl op cseq _ _ payload _ => s1.ctlAcked p k.slot op cseq payload
      else if status = akCRC then (s.tally p 1).retry p k
      else if status = akFULL then s.retry p k
      else s.finalNak p k

def execAckReceived (p : Fin 24) (lsn : BitVec 12) (status : Fin 16) (_slot : Fin 32) (checkOk : Bool) (s : State) : Out :=
  finish (s.ackIn p.val lsn.toNat status.val checkOk)

def execAckTimeout (p : Fin 24) (lsn : BitVec 12) (s : State) : Out :=
  finish (match (s.port p.val).outstanding.find? (fun k => k.lsn == lsn.toNat) with
    | none => s
    | some k => (s.tally p.val 1).retry p.val k)

/-- Six line periods before its tick a packet is still unacknowledged: a line is lost, and so is a timed load (R201, R202). -/
def State.deadline (s : State) (p lsn : Nat) : State :=
  match (s.port p).outstanding.find? (fun k => k.lsn == lsn) with
  | none => s
  | some k =>
    match k.body with
    | .line _ _ _ _ _ => (s.dropPacket p lsn).packetFailed p k
    | .ctl _ _ imm line _ jobLine => if imm then s else (s.dropPacket p lsn).loadLost p k line jobLine

def execLinePacketDeadline (p : Fin 24) (lsn : BitVec 12) (s : State) : Out := finish (s.deadline p.val lsn.toNat)

/-! ### Reports (R192, R216 to R219) -/

/-- The return LSN of a report; a gap counts in the tally (R192, R230). -/
def State.repIn (s : State) (p : Nat) (h : RepHdr) : State :=
  let gap := match (s.port p).retLsn with
    | none => false
    | some e => e != h.lsn.toNat
  let s1 := s.setPort p { s.port p with retLsn := some ((h.lsn.toNat + 1) % 4096) }
  if gap then s1.tally p 1 else s1

/-- The job line that the tile at a position fires with its row-0 tick at a press line (R50, R195). -/
def State.tileJobLine (s : State) (e : MapEntry) (press : Nat) : Nat :=
  match s.press.job with
  | none => 0
  | some j => ((j.line : Int) + ((press : Int) - (s.tileTime e).1 - s.time.line - 1) - s.offs (e.g / 64)).toNat

/-- Is a TEMP report fresh: at most 2 ms old (R291, R294)? -/
def State.fresh (s : State) (c : CtlSlot) : Bool := match c.tempAt with | none => false | some t => Nat.ble s.now (t + 2000000)

/-- Show the temperatures and flag counts of a plane (PLN_TEMP_STATUS, PLN_THERM_STATUS, R294). -/
def State.showPlaneTemp (s : State) (q : Nat) : State :=
  let cs := (s.planeEntries q).map (fun e => s.ctl e.port e.slot)
  let fs := cs.filter (fun c => s.fresh c)
  let n := fun (b : Nat) => (cs.filter (fun c => c.tempAt.isSome && bit c.flags b)).length
  let s1 := (((s.put (PLN_THERM_STATUS_WARN q) (n 0)).put (PLN_THERM_STATUS_CLAMP q) (n 1)).put (PLN_THERM_STATUS_SHUT q) (n 2)).put
    (PLN_THERM_STATUS_COLD q) (n 3)
  match fs with
  | [] => s1
  | c :: r => (s1.putS (PLN_TEMP_STATUS_T_MAX q) (r.foldl (fun a x => max a x.tMax) c.tMax)).putS (PLN_TEMP_STATUS_T_MEAN q)
      (roundDiv (fs.foldl (fun a x => a + x.tMean) 0) fs.length)

/-- Enter the clamp window of a tile (R287): t_a is the tick of the last report that showed CLAMP clear, else the tick before
the job's first, and the window starts 7 k lines before the line after it, or with the job. Lines of it that await the camera are no
samples (R320). -/
def State.clampEnter (s : State) (p slot : Nat) (e : MapEntry) (tMax : Int) : State :=
  let c := s.ctl p slot
  let ta := match c.lastClear with
    | some t => t
    | none => match s.press.job with | some j => j.firstTick - 1 | none => s.time.line
  let first := match c.lastClear, s.press.job with
    | some _, some j => s.tileJobLine e (ta + 1 - 7 * kOf j.mode)
    | _, _ => 0
  let s1 := s.setCtl p slot { c with clampFrom := some ta, clampJob := first, peak := tMax }
  let s2 := ((s1.event Ev.TILE_CLAMP_ENTER e.g [twos 16 tMax, ta]).cause PLN_IRQ_CAUSE_CLAMP).addSat (PLN_CLAMP_COUNT_COUNT (e.g / 64)) 1
  s2.setCal { s2.cal with snaps := s2.cal.snaps.map (fun t =>
    if first ≤ t.line ∧ t.line ≤ s.tileJobLine e s.time.line then { t with bad := (e.g / 64) :: t.bad } else t) }

/-- Leave the clamp window at t_b (R287): every page with a line in it carries THERMAL_CLAMP. -/
def State.clampLeave (s : State) (p slot : Nat) (e : MapEntry) (tMax : Int) (line : Nat) : State :=
  let c := s.ctl p slot
  ((s.setCtl p slot { c with clampFrom := none }).event Ev.TILE_CLAMP_LEAVE e.g [twos 16 (max c.peak tMax), line]).updJob
    (fun j => j.flagLines c.clampJob (s.tileJobLine e line) pfTHERMAL_CLAMP)

/-- CLEAR_FAULT for code 4 at the first report below SHUT - HYST (R289). -/
def State.autoClear (s : State) (p slot : Nat) (e : MapEntry) (tMax : Int) : State :=
  let q := e.g / 64
  let shut := match (s.ctl p slot).decl with
    | some d => min (s.getS (PLN_THERM1_SHUT q)) (declTAbs d)
    | none => s.getS (PLN_THERM1_SHUT q)
  if s.on (PLN_THERM_CTRL_AUTO_CLEAR q) ∧ bit (s.ctl p slot).faults 4 ∧ (s.ctl p slot).autoClear = none ∧
      tMax < shut - s.getS (PLN_THERM2_HYST q) ∧ s.portUp p then
    (s.setCtl p slot { s.ctl p slot with autoClear := some (s.ctl p slot).cseq }).sendNow p slot opCLEAR_FAULT (clearPayload 16)
  else s

/-- TILE_COLD, with its planned stop (R290). -/
def State.coldReport (s : State) (p slot : Nat) (e : MapEntry) (cold : Bool) : State :=
  let c := s.ctl p slot
  if ¬ cold then s.setCtl p slot { c with coldPosted := false }
  else if s.clk = clkRunning ∧ ¬ c.coldPosted then
    let q := e.g / 64
    let stop := s.on (PLN_THERM_CTRL_COLD_STOP q)
    let s1 := ((s.setCtl p slot { c with coldPosted := true }).event Ev.TILE_COLD e.g
      [twos 16 c.tMean, s.get (PLN_THERM1_FIRE_MIN q), b2n stop]).cause PLN_IRQ_CAUSE_COLD
    if stop then s1.plannedStop else s1
  else s

/-- A TEMP report (R216, R283 to R290). -/
def State.tempIn (s : State) (p slot : Nat) (h : RepHdr) (tMax tMean : Int) (flags duty : Nat) : State :=
  let c := s.ctl p slot
  let was := c.flags
  let line := s.nearLine h.line.toNat
  let s1 := (s.repIn p h).setCtl p slot { c with tempAt := some s.now, tMax := tMax, tMean := tMean, flags := flags, stalePosted := false }
  match s1.entries.find? (fun e => e.port == p && e.slot == slot) with
  | none => s1
  | some e =>
    let q := e.g / 64
    let s2 := (((s1.putS (PLN_TILE_TEMP_T_MAX q (e.g % 64)) tMax).put (PLN_TILE_TEMP_FLAGS q (e.g % 64)) flags).put
      (PLN_TILE_TEMP_DUTY q (e.g % 64)) duty).showPlaneTemp q
    let s3 := if bit flags 0 ∧ ¬ bit was 0 then
      (s2.event Ev.TILE_WARN e.g [twos 16 tMax, twos 16 tMean, s.time.line]).cause PLN_IRQ_CAUSE_WARN else s2
    let s4 :=
      if bit flags 1 then
        (if c.clampFrom.isNone then s3.clampEnter p slot e tMax else s3.setCtl p slot { s3.ctl p slot with peak := max c.peak tMax })
      else
        let s4 := if c.clampFrom.isSome then s3.clampLeave p slot e tMax line else s3
        s4.setCtl p slot { s4.ctl p slot with lastClear := some line }
    (s4.coldReport p slot e (bit flags 3)).autoClear p slot e tMax

def execTempReport (p : Fin 24) (slot : Fin 24) (h : RepHdr) (tMax tMean : BitVec 16) (flags duty : BitVec 8) (s : State) : Out :=
  finish (s.tempIn p.val slot.val h tMax.toInt tMean.toInt flags.toNat duty.toNat)

/-- RES_RESULT (R216, R236, R238): codes are classified; a range missed behind a gap is asked for again. -/
def State.resIn (s : State) (p slot : Nat) (h : RepHdr) (first : Nat) (codes : List Nat) : State :=
  let s0 := s.repIn p h
  match s0.ldg.sweep with
  | none => s0
  | some w =>
    match w.tiles.find? (fun t => t.port == p && t.slot == slot) with
    | none => s0
    | some t =>
      let next := t.got.foldl (fun a r => max a (r.1 + r.2)) 0
      let s1 := if next < first then s0.sendNow p slot opRES_SWEEP (sweepPayload next (first - next)) else s0
      let new := (List.range codes.length).filter (fun i => !t.measured (first + i))
      let s2 := s1.sweepCount (fun w => { w with tiles := w.tiles.map (fun x =>
        if x.g = t.g then { x with got := x.got ++ (colRuns (new.map (fun i => (first + i, 0)))).map (fun r => (r.1, r.2.length)) } else x) })
      new.foldl (fun s i => s.classify t.g (first + i) (codes.getD i 0)) s2

def execResResultReport (p : Fin 24) (slot : Fin 24) (h : RepHdr) (first : Nat) (codes : List Nat) (s : State) : Out :=
  finish (s.resIn p.val slot.val h first (codes.map (fun c => c % 4096)))

/-- The first field of a declaration that fails R217: 1 CRC, 2 VERSION or KIND, 3 F_MAX, 4 BUF_LINES, 5 ROWS or COLS_LOG2. -/
def declBad (d : DescBits) (hub : Bool) : Option Nat :=
  if crc32c ((declBytes d).take 60) ≠ dfield d 60 4 then some 1
  else if declVersion d ≠ 1 ∨ declKind d ≠ (if hub then 2 else 1) then some 2
  else if hub then none
  else if declFMax d < 480 then some 3
  else if declBuf d < 96 then some 4
  else if declRows d ≠ 8 ∨ declCols d ≠ 12 then some 5
  else none

/-- Post DECLARE_INVALID. -/
def State.declareInvalid (s : State) (p slot bad : Nat) : State :=
  (s.event Ev.DECLARE_INVALID p [slot, bad]).cause HLK_IRQ_CAUSE_DECLARE

/-- A hub's declaration: PRESENT of every slot, and whether the declare phase goes on (R217, R224 reasons 5 and 6). -/
def State.hubDeclared (s : State) (p : Nat) (d : DescBits) : State :=
  let starting := s.ust (portUnit p) == .starting
  let s0 := s.setPort p { s.port p with hubDecl := some d }
  match declBad d true with
  | some b => let s1 := s0.declareInvalid p 31 b; if starting then s1.portFault p 5 else s1
  | none =>
    if hubThisPort d ≠ (if s.role = 2 then 1 else 0) then (if starting then s0.portFault p 6 else s0)
    else (List.range 24).foldl (fun s k => s.putB (HLK_SLOT_STATUS_PRESENT p k) (bit (hubSlots d) k))
      (s0.setPort p { s0.port p with hubOk := true })

/-- A tile's declaration (R217). -/
def State.tileDeclared (s : State) (p slot : Nat) (d : DescBits) : State :=
  let c := s.ctl p slot
  let s1 := s.setCtl p slot { c with decl := some d, declSeen := true }
  let s2 := match declBad d false with
    | some b => (s1.putB (HLK_SLOT_STATUS_DECL_BAD p slot) true).declareInvalid p slot b
    | none => s1.putB (HLK_SLOT_STATUS_DECL_BAD p slot) false
  match c.decl with
  | none => s2
  | some o => if declSerial o = declSerial d then s2
    else (s2.event Ev.TILE_CHANGED p [slot, declSerial o, declSerial d]).cause HLK_IRQ_CAUSE_DECLARE

def execDeclareReport (p : Fin 24) (slot : Fin 32) (h : RepHdr) (decl : DescBits) (s : State) : Out :=
  finish (if slot.val = 31 then (s.repIn p.val h).hubDeclared p.val decl
    else if slot.val < 24 then (s.repIn p.val h).tileDeclared p.val slot.val decl
    else s.repIn p.val h)

/-- A tile shutdown (R132, R218, R289): Type 3 with S the line in progress; its page, and for code 4 the pages of the lines
whose later rows may be missing, are defective. -/
def State.tileShutdown (s : State) (e : MapEntry) (code line : Nat) : State :=
  match s.press.job with
  | none => s
  | some j =>
    let x := s.tileJobLine e (s.nearLine line)
    let s1 := s.setJob (j.flagLines (if code = 4 then x - 7 * kOf j.mode else x) x pfDEFECTIVE)
    s1.lateData 3 (some (e.g / 64)) x 0xFF e.port e.slot

/-- A report of LINE_MISSING makes the page that holds its line defective (R218). -/
def State.lineMissing (s : State) (p slot line : Nat) : State :=
  match s.entries.find? (fun e => e.port == p && e.slot == slot) with
  | none => s
  | some e => s.updJob (fun j => j.flagLines (s.tileJobLine e (s.nearLine line)) (s.tileJobLine e (s.nearLine line)) pfDEFECTIVE)

/-- What a fault code brings when it becomes latched (R218). -/
def State.faultAction (s : State) (p slot code line group : Nat) : State :=
  match s.entries.find? (fun e => e.port == p && e.slot == slot) with
  | none => s
  | some e =>
    if code = 3 ∨ code = 4 ∨ code = 5 ∨ code = 7 then s.tileShutdown e code line
    else if code = 6 ∧ group ≠ 0xFF then
      (s.setCtl p slot { s.ctl p slot with shutDown := true }).tileShutdown e code line
    else s

/-- On a passive chip, the line of a FIRING_DROPPED report is kept for its plane, the earliest of several (R481 step 3). -/
def State.noteDropped (s : State) (p slot code line : Nat) : State :=
  match s.posOf p slot with
  | none => s
  | some g =>
    let old := s.par.fireLines.get (g / 64) line
    if s.passive ∧ code = 3 then
      { s with par := { s.par with fireLines := s.par.fireLines.set (g / 64) (if lineDist line old < 2 ^ 23 then old else line) } }
    else s

/-- A FAULT report (R218, R219, R230). -/
def State.faultIn (s : State) (p slot : Nat) (h : RepHdr) (code count line group : Nat) : State :=
  let c := s.ctl p slot
  let first := !bit c.faults code
  let s0 := s.repIn p h
  let s1 := if code = 2 then (s0.tally p (if first then count else count - c.count2)) else s0
  let s2 := s1.setCtl p slot { s1.ctl p slot with faults := if first then c.faults + 2 ^ code else c.faults,
                                                  count2 := if code = 2 then count else c.count2 }
  let s3 := (if code = 1 then (s2.showSlot p slot).lineMissing p slot line else s2.showSlot p slot).noteDropped p slot code line
  if ¬ first then s3
  else
    ((s3.event Ev.TILE_FAULT p [slot, h.ident.toNat, code, line, group]).cause HLK_IRQ_CAUSE_TILE_FAULT).faultAction p slot code line group

def execFaultReport (p : Fin 24) (slot : Fin 32) (h : RepHdr) (code count : BitVec 16) (line : BitVec 24) (group : BitVec 8)
    (s : State) : Out :=
  finish (s.faultIn p.val slot.val h code.toNat count.toNat line.toNat group.toNat)

/-- No TEMP report for 2 ms from a tile of the active job (R298). -/
def State.tempStale (s : State) (p slot : Nat) : State :=
  let c := s.ctl p slot
  match s.posOf p slot with
  | none => s
  | some g =>
    if s.press.job.isSome ∧ ¬ s.fresh c ∧ ¬ c.stalePosted then
      ((s.setCtl p slot { c with stalePosted := true }).event Ev.TEMP_STALE g
        [(s.now - c.tempAt.getD 0) / 1000]).cause PLN_IRQ_CAUSE_TEMP_STALE
    else s

def execTempStale (p : Fin 24) (slot : Fin 24) (s : State) : Out := finish (s.tempStale p.val slot.val)

/-! ### Registers with an effect on the link (R219, R284, R292, R295) -/

/-- The THERM payload for a tile (R210, R284): SHUT is the smaller of the register's and the tile's T_ABS_MAX. -/
def State.thermPayload (s : State) (q : Nat) (d : Option DescBits) : List Byte :=
  let shut := match d with
    | some d => min (s.getS (PLN_THERM1_SHUT q)) (declTAbs d)
    | none => s.getS (PLN_THERM1_SHUT q)
  leBytes 2 (s.get (PLN_THERM0_WARN q)) ++ leBytes 2 (s.get (PLN_THERM0_CLAMP q)) ++ leBytes 2 (twos 16 shut) ++
  leBytes 2 (s.get (PLN_THERM2_HYST q)) ++ leBytes 2 (s.get (PLN_THERM1_FIRE_MIN q)) ++ leBytes 6 0

/-- Send THERM to every present tile of a plane (R284). -/
def State.sendTherm (s : State) (q : Nat) : State :=
  ((s.planeEntries q).filter (fun e => s.slotPresent e.port e.slot)).foldl (fun s e =>
    s.sendNow e.port e.slot opTHERM (s.thermPayload q (s.ctl e.port e.slot).decl)) s

/-- A write of PLN_THERM0, 1 or 2. -/
def State.thermWrite (s : State) (q k : Nat) (v : Word) : State :=
  (match k with
   | 0 => s.rset (PLN_THERM0 q) v
   | 1 => s.rset (PLN_THERM1 q) v
   | _ => s.put (PLN_THERM2_HYST q) v.toNat).sendTherm q

def execPlnThermWrite (req : Fin 6) (q : Fin 8) (k : Fin 3) (value : Word) (s : State) : Out :=
  finish (s.reqWrite req (PLN_THERM0 q) (fun s => s.thermWrite q.val k.val value))

/-- A write of PLN_FAULT_CLEAR: CLEAR_FAULT goes to the named tile (R219). -/
def State.faultClearWrite (s : State) (q : Nat) (v : Word) : State :=
  match s.entryAt (64 * q + bits v.toNat 13 8) with
  | none => s
  | some e => s.sendNow e.port e.slot opCLEAR_FAULT (clearPayload (bits v.toNat 7 0))

def execPlnFaultClear (req : Fin 6) (q : Fin 8) (value : Word) (s : State) : Out :=
  finish (s.reqWrite req (PLN_FAULT_CLEAR q) (fun s => s.faultClearWrite q.val value))

/-- CLEAR_FAULT for codes 1, 2, 3 and 6 to every tile of the job that has any of them latched (R292). -/
def State.clearJobFaults (s : State) : State :=
  s.entries.foldl (fun s e =>
    if (s.ctl e.port e.slot).faults &&& 0x4E ≠ 0 then
      s.sendNow e.port e.slot opCLEAR_FAULT (clearPayload ((s.ctl e.port e.slot).faults &&& 0x4E))
    else s) s

/-- May a tile be told to spit with a size: all its heaters lie in the plane's heater need (R251, R295)? -/
def State.spitSizeOk (s : State) (q size : Nat) : Bool := size &&& s.ldg.need.getD q 3 == size

/-- SPIT with ON = 0 to a tile, ahead of every other packet (R295). -/
def State.sendSpitOff (s : State) (q : Nat) (e : MapEntry) : State :=
  let s1 := s.setCtl e.port e.slot { s.ctl e.port e.slot with spitOff := true }
  s1.sendNow e.port e.slot opSPIT (spitPayload false (s.get (PLN_SPIT_SIZE q)) (s.get (PLN_SPIT_RATE q)))

/-- A write of PLN_KEEPWET.CAPPED (R146, R295). -/
def State.cappedWrite (s : State) (q : Nat) (v : Word) : State :=
  let on := bit v.toNat 0
  if on = s.on (PLN_KEEPWET_CAPPED q) then s
  else
    let s1 := s.putB (PLN_KEEPWET_CAPPED q) on
    if on then
      ((s1.planeEntries q).foldl (fun s e =>
        if s.spitSizeOk q (s.get (PLN_SPIT_SIZE q)) then
          (s.setCtl e.port e.slot { s.ctl e.port e.slot with spitOff := false }).sendNow e.port e.slot opSPIT
            (spitPayload true (s.get (PLN_SPIT_SIZE q)) (s.get (PLN_SPIT_RATE q)))
        else s) s1).putB (PLN_KEEPWET_SPITTING q) true
    else ((s1.planeEntries q).foldl (fun s e => s.sendSpitOff q e) s1).refreshSpitting q

def execKeepwetCappedWrite (req : Fin 6) (q : Fin 8) (value : Word) (s : State) : Out :=
  finish (s.reqWrite req (PLN_KEEPWET q) (fun s => s.cappedWrite q.val value))

/-- Every 1 ms SPIT with ON = 0 goes again to each tile that has not acknowledged it (R295). -/
def State.spitOffAgain (s : State) (q : Nat) : State :=
  if s.on (PLN_KEEPWET_CAPPED q) then s
  else
    ((s.planeEntries q).foldl (fun s e =>
      if (s.ctl e.port e.slot).spitOff ∧ s.portUp e.port ∧ s.authorised e.port then s.sendSpitOff q e else s) s).refreshSpitting q

def execSpitOffRetry (q : Fin 8) (s : State) : Out := finish (s.spitOffAgain q.val)

end Sys2Proof.Machine
end

