-- ==== Sys2Proof/Machine/Sds.lean ====
section
/-!
DEFINITION. Serial lanes (19_serial_lanes.md): the transmit FFE and its requests, adaptation at training, gradual equaliser
steps, the eye check, power states, loopbacks and the pattern checker.
-/
namespace Sys2Proof.Machine

def State.lane (s : State) (l : Nat) : Lane := s.lanes.getD l Lane.reset
def laneUnit (l : Nat) : UnitId := .lane (Fin.ofNat 52 l)

/-- The port unit that owns a lane (R523). -/
def ownerOf (l : Nat) : UnitId := if l < 48 then portUnit (l / 2) else .mirror

/-- Is a lane's port in phase 0 with its lanes running (R532)? The mirror port counts as in phase 0 while its link is down. -/
def State.lanePhase0 (s : State) (l : Nat) : Bool :=
  if l < 48 then s.get (HLK_PORT_STATUS_PHASE (l / 2)) == 0 && s.ust (ownerOf l) != .off
  else !s.on PAR_STATUS_MIRROR_UP && s.ust .mirror != .off

/-- The lanes of the port of a lane. -/
def portLanes (l : Nat) : List Nat := if l < 48 then [2 * (l / 2), 2 * (l / 2) + 1] else [48, 49, 50, 51]

/-! ### Equaliser settings (R526, R530) -/

/-- A DFE register word of five signed taps. -/
def dfeWord (t : List Int) : Nat := (List.range 5).foldl (fun a i => a + 2 ^ (6 * i) * twos 6 (t.getD i 0)) 0

/-- The taps of a DFE register word. -/
def dfeTaps (w : Nat) : List Int := (List.range 5).map (fun i => sgn 6 (bits w (6 * i + 5) (6 * i)))

def State.eqTarget (s : State) (l : Nat) : Eq := { ctle := s.get (SDS_RX_CTLE_TARGET l), taps := dfeTaps (s.rget (SDS_RX_DFE_TARGET l)).toNat }
def State.eqLive (s : State) (l : Nat) : Eq := { ctle := s.get (SDS_RX_CTLE_LIVE l), taps := dfeTaps (s.rget (SDS_RX_DFE_LIVE l)).toNat }
def State.setTargetEq (s : State) (l : Nat) (e : Eq) : State :=
  (s.put (SDS_RX_CTLE_TARGET l) e.ctle).rset (SDS_RX_DFE_TARGET l) (BitVec.ofNat 32 (dfeWord e.taps))
def State.setLiveEq (s : State) (l : Nat) (e : Eq) : State :=
  (s.put (SDS_RX_CTLE_LIVE l) e.ctle).rset (SDS_RX_DFE_LIVE l) (BitVec.ofNat 32 (dfeWord e.taps))

/-- One code towards a signed target. -/
def stepInt (live target : Int) : Int := if live < target then live + 1 else if target < live then live - 1 else live

/-- Live CTLE and taps move one code towards their targets (R530). -/
def State.eqStep (s : State) (l : Nat) : State :=
  let t := s.eqTarget l
  let v := s.eqLive l
  s.setLiveEq l { ctle := stepTo v.ctle t.ctle 1, taps := (List.range 5).map (fun i => stepInt (v.taps.getD i 0) (t.taps.getD i 0)) }

def execLaneEqStep (lane : Fin 52) (s : State) : Out := finish (s.eqStep lane)

/-- A firmware write to a target takes effect as an adopted result; while the port is not UP it sets the live value too (R530). -/
def State.ctleWrite (s : State) (l : Nat) (v : Word) : State :=
  let s1 := s.put (SDS_RX_CTLE_TARGET l) (bits v.toNat 3 0)
  if s.laneUp l then s1 else s1.put (SDS_RX_CTLE_LIVE l) (bits v.toNat 3 0)
def State.dfeWrite (s : State) (l : Nat) (v : Word) : State :=
  let s1 := s.rset (SDS_RX_DFE_TARGET l) (v &&& 0x3FFFFFFF#32)
  if s.laneUp l then s1 else s1.rset (SDS_RX_DFE_LIVE l) (v &&& 0x3FFFFFFF#32)

/-! ### The transmit FFE (R525) -/

/-- A request applied to one coefficient (0 pre, 1 main, 2 post) of [pre, main, post]: the coefficients and STAT. -/
def ffeStep (c : List Nat) (tap req : Nat) : List Nat × Nat :=
  let lo := if tap = 1 then 20 else 0
  let hi := if tap = 0 then 15 else if tap = 1 then 63 else 31
  let v := c.getD tap 0
  match req with
  | 1 => if v = hi ∨ 63 < c.foldl (· + ·) 0 + 1 then (c, 3) else (c.set tap (v + 1), 1)
  | 2 => if v = lo then (c, 2) else (c.set tap (v - 1), 1)
  | _ => (c, 0)

/-- The coefficients in force, [pre, main, post]. -/
def State.ffe (s : State) (l : Nat) : List Nat := [s.get (SDS_TX_FFE_PRE l), s.get (SDS_TX_FFE_MAIN l), s.get (SDS_TX_FFE_POST l)]
def State.setFfe (s : State) (l : Nat) (c : List Nat) : State :=
  ((s.put (SDS_TX_FFE_PRE l) (c.getD 0 0)).put (SDS_TX_FFE_MAIN l) (c.getD 1 0)).put (SDS_TX_FFE_POST l) (c.getD 2 0)

/-- The three requests of a TRAIN block are applied; a request is taken once, and STAT returns to 0 with a hold (R225, R525). -/
def State.applyReqs (s : State) (l : Nat) (reqs : List Nat) : State :=
  let x := s.lane l
  if reqs.any (fun r => r == 3) then
    if x.stat = [1, 1, 1] then s else (s.setFfe l [3, 50, 10]).updLane l (fun x => { x with stat := [1, 1, 1] })
  else
    let r := (List.range 3).foldl (fun (a : List Nat × List Nat) i =>
      let q := reqs.getD i 0
      if q = 0 then (a.1, a.2 ++ [0])
      else if x.stat.getD i 0 ≠ 0 then (a.1, a.2 ++ [x.stat.getD i 0])
      else ((ffeStep a.1 i q).1, a.2 ++ [(ffeStep a.1 i q).2])) (s.ffe l, [])
    (s.setFfe l r.1).updLane l (fun x => { x with stat := r.2 })

/-! ### Adaptation (R528) -/

/-- Index in [pre, main, post] of the tap in work: post, pre, main. -/
def tapIx (t : Nat) : Nat := if t = 0 then 2 else if t = 1 then 0 else 1

/-- MAX_REQ and FOM_GAIN, 0 acting as 1. -/
def State.maxReq (s : State) : Nat := max 1 (s.get SDS_ADAPT_CFG_MAX_REQ)
def State.fomGain (s : State) : Nat := max 1 (s.get SDS_ADAPT_CFG_FOM_GAIN)

/-- Send a new request for the tap in work. -/
def Lane.ask (x : Lane) (r : Nat) (undo : Bool) : Lane := { x with req := r, undo := undo, reqs := x.reqs + 1, hold := true }

/-- Adaptation ends: the best settings become live and target; with enough FOM RX_READY follows, else it starts again (R528). -/
def State.adaptEnd (s : State) (l : Nat) : State :=
  let x := s.lane l
  let s1 := (s.setLiveEq l x.best).setTargetEq l x.best
  if s.get SDS_ADAPT_CFG_FOM_MIN ≤ x.bestFom then
    (s1.updLane l (fun x => { x with rxReady := true, req := 0, fom := x.bestFom, covered := false })).event Ev.LANE_TRAINED l
      (x.far ++ [x.best.ctle] ++ x.best.taps.map (fun t => twos 8 t) ++ [x.bestFom, x.reqs])
  else s1.updLane l Lane.adapt

/-- The next direction, tap or pass (R528 steps 2 and 3). -/
def State.adaptNext (s : State) (l : Nat) : State :=
  let x := s.lane l
  if s.maxReq ≤ x.reqs then s.adaptEnd l
  else if x.inc then s.updLane l (fun x => { x with inc := false }.ask 2 false)
  else if x.tap < 2 then s.updLane l (fun x => { x with inc := true, tap := x.tap + 1 }.ask 1 false)
  else if x.kept then s.updLane l (fun x => { x with inc := true, tap := 0, kept := false }.ask 1 false)
  else s.adaptEnd l

/-- Is a lane adapting: its port in phase 2 (the mirror port: training), without RX_READY yet? -/
def State.adapting (s : State) (l : Nat) : Bool :=
  !(s.lane l).rxReady && (if l < 48 then s.portTraining (l / 2) && s.get (HLK_PORT_STATUS_PHASE (l / 2)) == 2
    else s.lanePhase0 l && s.ust .mirror != .off)

/-- May a lane's own transmit coefficients change: only in phase 2 of its port's training (R525)? The mirror port: while it trains. -/
def State.ffeTrains (s : State) (l : Nat) : Bool :=
  if l < 48 then s.portTraining (l / 2) && s.get (HLK_PORT_STATUS_PHASE (l / 2)) == 2 else s.lanePhase0 l

/-- STAT of the far end answers the request that is out (R528 step 2). -/
def State.farStat (s : State) (l : Nat) (stat : List Nat) : State :=
  let x := s.lane l
  let st := if x.req = 3 then (if stat.all (fun v => v == 1) then 1 else 0) else stat.getD (tapIx x.tap) 0
  let s1 := s.updLane l (fun x => { x with farStat := st })
  if x.req = 0 then s1
  else if x.hold then (if st = 0 then s1.updLane l (fun x => { x with hold := false }) else s1)
  else if st = 0 then s1
  else
    let moved := if x.req = 3 then [3, 50, 10]
      else if st = 1 then x.far.set (tapIx x.tap) (if x.req = 1 then x.far.getD (tapIx x.tap) 0 + 1 else x.far.getD (tapIx x.tap) 0 - 1)
      else x.far
    let s2 := s1.updLane l (fun x => { x with req := 0, hold := true, far := moved })
    -- a limit or a finished undo ends the direction; otherwise a search follows
    if x.req ≠ 3 ∧ (st ≠ 1 ∨ x.undo) then s2.adaptNext l else s2

/-- A TRAIN block (R187, R225, R525). -/
def State.trainBlock (s : State) (l v : Nat) : State :=
  if bits v 63 56 ≠ 0x2D then s
  else if frameCheck8' v ≠ bits v 7 0 then (if l < 48 then s.tally (l / 2) 1 else s)
  else
    let req := bits v 51 46
    let stat := bits v 45 40
    let rates := bits v 31 24
    let s1 := if s.ffeTrains l then
        s.applyReqs l [bits req 5 4, bits req 3 2, bits req 1 0] else s
    let s2 := if s1.adapting l then s1.farStat l [bits stat 5 4, bits stat 3 2, bits stat 1 0] else s1
    if l < 48 ∧ bit rates (s.get (HLK_PORT_CFG_RATE (l / 2))) = false ∧ s.ust (ownerOf l) = .starting then s2.portFault (l / 2) 1 else s2
where
  /-- CHECK of a control block body (R187). -/
  frameCheck8' (v : Nat) : Nat := (List.range 56).foldl (fun c i => crcStep 8 0x07 c (bit v (63 - i))) 0

def execTrainBlockReceived (lane : Fin 52) (body : BitVec 64) (s : State) : Out := finish (s.trainBlock lane body.toNat)

/-- A LANE run ends OK once every covered lane has its result (R529). -/
def State.laneRunCheck (s : State) : State :=
  let ls := (List.range 52).filter (fun l => (s.lane l).covered)
  if s.runState chLANE ≠ rsRUNNING ∨ ls.any (fun l => (s.lane l).result.isNone) then s
  else
    let rs := ls.filterMap (fun l => (s.lane l).result.map (fun r => (r.2, l)))
    let low := rs.foldl (fun (a : Nat × Nat) e => if e.1 < a.1 then e else a) (rs.headD (0, 0))
    let s1 := ls.foldl (fun s l => match (s.lane l).result with
      | some r => (s.setTargetEq l r.1).updLane l (fun x => { x with covered := false, result := none })
      | none => s) s
    s1.calEnd chLANE ocOK low.1 low.2

/-- Q0 and Q1 of a LANE run that does not end OK (R311): over the lanes that have finished. -/
def State.laneQ (s : State) : Nat × Nat :=
  let rs := (List.range 52).filterMap (fun l => (s.lane l).result.map (fun r => (r.2, l)))
  rs.foldl (fun (a : Nat × Nat) e => if e.1 < a.1 then e else a) (rs.headD (0, 0))

/-- A lane that leaves UP drops out of the run and keeps its old target (R529). -/
def State.laneDropOut (s : State) (l : Nat) : State :=
  if (s.lane l).covered then (s.updLane l (fun x => { x with covered := false, result := none })).laneRunCheck else s

/-- Link loss; a LANE run goes on without the port's lanes (R227, R529). -/
def execPortDown (p : Fin 24) (lane : Fin 2) (lockLoss : Bool) (s : State) : Out :=
  finish ((s.linkLost p.val lane.val lockLoss).laneRunCheck)

/-- A receiver search completes (R528, R529). -/
def State.searchDone (s : State) (l : Nat) (e : Eq) (fom : Nat) : State :=
  let x := s.lane l
  if s.adapting l then
    if x.req ≠ 0 then s
    else if x.searched = false then
      let s1 := s.updLane l (fun x => { x with searched := true, best := e, bestFom := fom, fom := fom, tap := 0, inc := true })
      if s.maxReq ≤ x.reqs then s1.adaptEnd l else s1.updLane l (fun x => x.ask 1 false)
    else if x.bestFom + s.fomGain ≤ fom then
      let s1 := s.updLane l (fun x => { x with best := e, bestFom := fom, fom := fom, kept := true })
      if s.maxReq ≤ x.reqs then s1.adaptEnd l else s1.updLane l (fun x => x.ask (if x.inc then 1 else 2) false)
    else s.updLane l (fun x => { x with fom := fom }.ask (if x.inc then 2 else 1) true)
  else if x.covered ∧ s.runState chLANE = rsRUNNING then
    (s.updLane l (fun x => { x with result := some (e, fom) })).laneRunCheck
  else s

def execRxSearchDone (lane : Fin 52) (ctle : Fin 16) (taps : List Int) (fom : BitVec 8) (s : State) : Out :=
  finish (s.searchDone lane { ctle := ctle, taps := taps } fom.toNat)

/-! ### The eye in service (R527, R531) -/

/-- FOM of R527. -/
def fomOf (w h : Nat) : Nat := min 255 (w * h / 32)

/-- The level LOW_NOW: some UP lane below FOM_MIN. -/
def State.showLow (s : State) : State :=
  s.putB SDS_IRQ_CAUSE_LOW_NOW ((List.range 52).any (fun l => s.laneUp l && (s.lane l).low))

/-- The 1 ms measurement of an UP lane that no run covers (R531). -/
def State.fomCheck (s : State) (l w h : Nat) : State :=
  if s.laneUp l = false ∨ (s.lane l).covered then s
  else
    let f := fomOf w h
    let m := s.get SDS_ADAPT_CFG_FOM_MIN
    let was := (s.lane l).low
    let s1 := (((s.put (SDS_EYE_W l) w).put (SDS_EYE_H l) h).put (SDS_EYE_FOM l) f).updLane l (fun x => { x with fom := f, low := Nat.blt f m })
    let s2 := s1.showLow
    if f < m ∧ ¬ was then ((s2.event Ev.LOW_FOM l [f, m, w, h]).cause SDS_IRQ_CAUSE_LOW_FOM).calTrigger chLANE 3 0 else s2

def execLaneFomCheck (lane : Fin 52) (w h : Fin 128) (s : State) : Out := finish (s.fomCheck lane w h)

/-! ### Power states (R532) -/

/-- Enter IDLE_PWR: the port is in phase 0 and none of its lanes has a signal. -/
def State.idleEntry (s : State) (l : Nat) : State :=
  let p := min 2 (s.get (SDS_LANE_CFG_IDLE_PWR l))
  if s.lanePhase0 l ∧ s.ust (laneUnit l) = .on ∧ (portLanes l).all (fun k => !s.on (SDS_LANE_STATUS_SIG_DET k)) ∧ p ≠ 0 then
    s.put (SDS_LANE_STATUS_PWR l) p
  else s

def execLaneIdleEntry (lane : Fin 52) (s : State) : Out := finish (s.idleEntry lane)

/-- An idle lane wakes for 1 ms. -/
def State.idleWake (s : State) (l : Nat) : State :=
  if s.lanePhase0 l ∧ s.ust (laneUnit l) = .on ∧ (s.get (SDS_LANE_STATUS_PWR l) = 1 ∨ s.get (SDS_LANE_STATUS_PWR l) = 2) then
    s.put (SDS_LANE_STATUS_PWR l) 0
  else s

def execLaneIdleWake (lane : Fin 52) (s : State) : Out := finish (s.idleWake lane)

/-- A signal on a lane: in phase 0 every lane of the port returns to ON; a self-test under way is abandoned (R532, R536). -/
def State.signalDetect (s : State) (l : Nat) : State :=
  let s1 := (s.putB (SDS_LANE_STATUS_SIG_DET l) true).updLane l (fun x => { x with testing := false })
  if s.lanePhase0 l then
    (portLanes l).foldl (fun s k => if s.ust (laneUnit k) = .on then s.put (SDS_LANE_STATUS_PWR k) 0 else s) s1
  else s1

def execLaneSignalDetect (lane : Fin 52) (s : State) : Out := finish (s.signalDetect lane)

/-! ### Loopbacks and the checker (R534 to R536) -/

/-- Is a lane ON through TEST_EN? -/
def State.testOn (s : State) (l : Nat) : Bool :=
  s.ust (laneUnit l) == .on && s.on (SDS_LANE_CFG_TEST_EN l) && s.ust (ownerOf l) == .off

/-- A write of LOOP (R534). -/
def State.loopWrite (s : State) (l : Nat) (v : Word) : State :=
  let k := bits v.toNat 5 4
  if k = 0 ∨ s.testOn l then s.put (SDS_LANE_CFG_LOOP l) k else s.putB (SDS_LANE_STATUS_CMD_ERR l) true

def execLoopWrite (req : Fin 6) (lane : Fin 52) (v : Word) (s : State) : Out :=
  finish (s.reqWrite req (SDS_LANE_CFG lane) (fun s => s.loopWrite lane v))

/-- The owning port leaves OFF: loopback, generator and checker stop (R534). -/
def State.endLoop (s : State) (l : Nat) : State :=
  (((s.put (SDS_LANE_CFG_LOOP l) 0).putB (SDS_PRBS_CFG_GEN_EN l) false).putB (SDS_PRBS_CFG_CHK_EN l) false).putB (SDS_LANE_STATUS_PRBS_LOCK l) false

/-- The checker locks, or loses lock; errors and bits seen while locked are counted (R535). -/
def State.prbs (s : State) (l : Nat) (lock : Bool) (errors mbits : Nat) : State :=
  if s.on (SDS_PRBS_CFG_CHK_EN l) = false then s
  else
    let was := s.on (SDS_LANE_STATUS_PRBS_LOCK l)
    let s1 := if was then (s.addSat (SDS_ERR_COUNT_COUNT l) errors).addSat (SDS_BITS_CHECKED_COUNT l) mbits else s
    let s2 := s1.putB (SDS_LANE_STATUS_PRBS_LOCK l) lock
    if was ∧ ¬ lock then s2.addSat (SDS_LOCK_LOSS_COUNT_COUNT l) 1 else s2

def execPrbsCheckerLock (lane : Fin 52) (lock : Bool) (errors mbits : Nat) (s : State) : Out := finish (s.prbs lane lock errors mbits)

/-- Is a lane's port in phase 0 with no signal on its lanes (R536)? -/
def State.loopQuiet (s : State) (l : Nat) : Bool :=
  s.lanePhase0 l && (portLanes l).all (fun k => !s.on (SDS_LANE_STATUS_SIG_DET k))

/-- Can a standby loopback test start on a lane: quiet, and in power state ON or STANDBY (R536)? -/
def State.loopTestable (s : State) (l : Nat) : Bool :=
  s.loopQuiet l && s.ust (laneUnit l) == .on && Nat.ble (s.get (SDS_LANE_STATUS_PWR l)) 1

/-- The standby loopback tests start, on every head-port lane that can be tested (R484, R536). -/
def State.loopTests (s : State) : State :=
  { s with lanes := s.lanes.mapIdx (fun l x => if Nat.blt l 48 && s.loopTestable l then { x with testing := true } else x) }

/-- READY of PAR_HEALTH is cleared at once, and HEALTH_CHANGE tells it (R484, R536). -/
def State.notReady (s : State) : State :=
  if s.on PAR_HEALTH_READY then
    let s1 := s.putB PAR_HEALTH_READY false
    (s1.event' Ev.HEALTH_CHANGE [(s1.rget PAR_HEALTH).toNat, 0]).cause PAR_IRQ_CAUSE_HEALTH
  else s

/-- A standby loopback test ends (R536): abandoned, without a result, when a signal has come; a failure stands until the lane next
passes. -/
def State.loopTestEnd (s : State) (l errors mbits : Nat) : State :=
  if (s.lane l).testing = false then s
  else if s.loopQuiet l = false then s.updLane l (fun x => { x with testing := false })
  else
    let s1 := s.updLane l (fun x => { x with testing := false, loopBad := errors != 0 })
    let bad := (List.range 52).any (fun k => (s1.lane k).loopBad)
    let s2 : State := { s1 with par := { s1.par with loopOk := !bad } }
    if errors = 0 then s2
    else ((s2.event Ev.LOOP_FAIL l [1, errors, mbits]).cause SDS_IRQ_CAUSE_LOOP_FAIL).notReady

def execLoopbackTestEnd (lane : Fin 52) (errors mbits : Nat) (s : State) : Out := finish (s.loopTestEnd lane errors mbits)

/-! ### A lane as a unit (R523) -/

/-- A lane enters FAULT: it shows loss of signal to its port. -/
def State.laneFault (s : State) (l reason : Nat) : State :=
  s.faultUnit (laneUnit l) reason (fun s =>
    ((((s.event Ev.LANE_FAULT l [reason]).cause SDS_IRQ_CAUSE_LANE_FAULT).putB (SDS_LANE_STATUS_SIG_DET l) false).put (SDS_LANE_STATUS_PWR l) 3))

/-- The start actions of a lane: settings loaded; a bad test rate faults it. -/
def State.laneStart (s : State) (l : Nat) : State :=
  let s1 := s.updLane l (fun x => { x with txInv := s.on (SDS_LANE_CFG_TX_INV l), rxInv := s.on (SDS_LANE_CFG_RX_INV l) })
  let byTest := s.ust (ownerOf l) == .off
  let r := s.get (SDS_LANE_CFG_TEST_RATE l)
  if byTest ∧ (r = 3 ∨ (48 ≤ l ∧ r ≠ 1)) then s1.laneFault l 1 else s1

end Sys2Proof.Machine
end

