-- ==== Sys2Proof/Machine/CalCmds.lean ====
section
/-!
DEFINITION. The commands of the calibration framework (09_calibration.md, R300 to R311) and of print-through calibration.
-/
namespace Sys2Proof.Machine

/-- Q0 and Q1 over what a run has measured so far (R311). -/
def State.calQ (s : State) (c : Nat) : Nat × Nat :=
  match c with
  | 0 => match s.ldg.sweep with
    | some w => ((w.tiles.filter (fun t => t.failed || t.codes != 65536)).length, w.drift)
    | none => (0, 0)
  | 1 => s.printQ
  | 2 => s.ledQ
  | 3 => (s.get (CAL_CH_FWQ_Q0 3), s.get (CAL_CH_FWQ_Q1 3))
  | 4 => s.laneQ
  | 5 => s.blackQ
  | _ => s.flatQ

/-- Set a channel's CMD_ERR (R304). -/
def State.calCmdErr (s : State) (c : Nat) : State := s.putB (CAL_CH_STATUS_CMD_ERR c) true

/-- REQ (R303). -/
def State.calReq (s : State) (c : Nat) : State := s.calTrigger c 3 0

/-- START (R300, R304). -/
def State.calStart (s : State) (c : Nat) : State :=
  if s.runState c = rsDUE ∧ s.calCanStart c false then s.calStartRun c false else s.calCmdErr c

/-- COMPLETE (R304, R305): firmware's figures, and the trained delays are adopted. -/
def State.calComplete (s : State) (c : Nat) : State :=
  if c = chDRAM ∧ s.runState c = rsRUNNING then (s.dramTrained).calEnd c ocOK (s.calQ c).1 (s.calQ c).2 else s.calCmdErr c

/-- ABANDON (R300): a SWEEP's tile sweeps are given up with it. -/
def State.calAbandon (s : State) (c : Nat) : State :=
  if s.runState c ≠ rsRUNNING then s
  else
    let q := s.calQ c
    let s1 := if c = chSWEEP then
        ((s.setLdg { s.ldg with sweep := none }).putB LDG_STATUS_SWEEP_BUSY false).putB LDG_SWEEP_STATUS_RUNNING false
      else s
    s1.calEnd c ocABANDONED q.1 q.2

/-- The timeout (R300, R307). -/
def State.calTimeout (s : State) (c : Nat) : State :=
  if s.runState c ≠ rsRUNNING then s
  else if c = chSWEEP ∧ s.ldg.sweep.isSome then s.sweepFinish
  else s.calEnd c ocTIMEOUT (s.calQ c).1 (s.calQ c).2

/-- The 10 ms comparison of every channel (R301); of several moves the event names one. -/
def State.calTempCheck (s : State) : State :=
  (List.range 7).foldl (fun s c =>
    if s.on (CAL_CH_CFG_TEMP_EN c) then
      match pickOf (s.calMoves c) with
      | some m => s.calTrigger c 1 m
      | none => s
    else s) s

/-- The schedule (R302). -/
def State.calSchedule (s : State) (c : Nat) : State :=
  if s.on (CAL_CH_CFG_SCHED_EN c) ∧ (s.chan c).lastEnd.isSome then s.calTrigger c 2 0 else s

/-- The automatic start (R300). -/
def State.calAuto (s : State) (c : Nat) : State :=
  if s.runState c = rsDUE ∧ s.on (CAL_CH_CFG_AUTO c) ∧ s.calCanStart c true then s.calStartRun c true else s

/-- A write of CAL_CH_CMD, its commands in bit order. -/
def State.calCmdWrite (s : State) (c : Nat) (v : Word) : State :=
  let s1 := if bit v.toNat 0 then s.calReq c else s
  let s2 := if bit v.toNat 1 then s1.calStart c else s1
  let s3 := if bit v.toNat 2 then s2.calComplete c else s2
  if bit v.toNat 3 then s3.calAbandon c else s3

def execCalTempCheck (s : State) : Out := finish s.calTempCheck
def execCalScheduleExpired (c : Fin 7) (s : State) : Out := finish (s.calSchedule c)
def execCalReq (req : Fin 6) (c : Fin 7) (s : State) : Out :=
  finish (s.reqWrite req (CAL_CH_CMD c) (fun s => s.calReq c))
def execCalStart (req : Fin 6) (c : Fin 7) (s : State) : Out :=
  finish (s.reqWrite req (CAL_CH_CMD c) (fun s => s.calStart c))
def execCalComplete (req : Fin 6) (c : Fin 7) (s : State) : Out :=
  finish (s.reqWrite req (CAL_CH_CMD c) (fun s => s.calComplete c))
def execCalAbandon (req : Fin 6) (c : Fin 7) (s : State) : Out :=
  finish (s.reqWrite req (CAL_CH_CMD c) (fun s => s.calAbandon c))
def execCalAutoStart (c : Fin 7) (s : State) : Out := finish (s.calAuto c)
def execCalTimeout (c : Fin 7) (s : State) : Out := finish (s.calTimeout c)
def execCalTrimDataWrite (req : Fin 6) (v : Word) (s : State) : Out :=
  finish (s.reqWrite req (CAL_TRIM_DATA) (fun s => s.trimWrite v))
def execPtBandFinalise (s : State) : Out := finish s.finaliseBand
def execProbeClose (q : Fin 8) (c : Nat) (s : State) : Out :=
  finish (match s.cal.probes.find? (fun p => p.q == q.val && p.c == c) with
    | some p => if s.probeDone p then s.closeProbe p else s
    | none => s)

end Sys2Proof.Machine
end

