-- ==== Sys2Proof/Machine/Scurve.lean ====
section
/-!
DEFINITION. Jerk-limited profiles (Profiles, R380 to R384, R395). DESIGN CHOICE (log 25): phases are computed in units of 2^-16
planner tick, results are rounded down, and a profile ends exactly on its target; the spec fixes the limits and the shape, not the
rounding.
-/
namespace Sys2Proof.Machine

/-- Time units (2^-16 planner tick of 2 µs) in a second, and in a planner tick. -/
def tsUnits : Nat := 32768000000
def tickUnits : Nat := 65536

/-- A number with 32 fractional bits. -/
def fx (x : Int) : Int := x * 4294967296

/-- Motion after `t` time units at jerk `j`. -/
def Pva.after (x : Pva) (j : Int) (t : Nat) : Pva :=
  { p := x.p + x.v * t / tsUnits + x.a * t * t / (2 * tsUnits ^ 2 : Nat) + j * t * t * t / (6 * tsUnits ^ 3 : Nat)
    v := x.v + x.a * t / tsUnits + j * t * t / (2 * tsUnits ^ 2 : Nat)
    a := x.a + j * t / tsUnits }

/-- Run `t` time units of a profile: the phases left and the motion. -/
def runFor : Nat → List Seg → Pva → List Seg × Pva
  | _, [], x => ([], x)
  | t, g :: r, x => if g.t ≤ t then runFor (t - g.t) r (x.after g.j g.t) else ({ g with t := g.t - t } :: r, x.after g.j t)

/-- Run all phases. -/
def runAll (gs : List Seg) (x : Pva) : Pva := gs.foldl (fun (x : Pva) (g : Seg) => x.after g.j g.t) x

/-- The greatest x in [lo, lo + 2^n) for which a test holds, given that it holds at lo. -/
def bisect (f : Nat → Bool) : Nat → Nat → Nat
  | 0, lo => lo
  | n + 1, lo => if f (lo + 2 ^ n) then bisect f n (lo + 2 ^ n) else bisect f n lo

/-- The integer square root of a number below 2^(2 n). -/
def isqrt (n m : Nat) : Nat := bisect (fun x => Nat.ble (x * x) m) n 0

/-- The phases that bring velocity and acceleration to `v1` and 0 within acceleration `A` at jerk `J` (both 2^-32 units, at least 1). -/
def ramp (v0 a0 v1 : Int) (A J : Nat) (dec : Bool) : List Seg :=
  let vz := v0 + a0 * a0.natAbs / (2 * J : Nat)
  let d : Int := if vz ≤ v1 then 1 else -1
  let b := d * a0
  let dv := d * (v1 - v0)
  -- J (u1 - u0) + b²/2 = peak²
  let pk : Nat := min A (isqrt 80 (J * dv + b * b / 2).toNat)
  let t1 := tsUnits * (b - pk).natAbs / J
  let dv1 : Int := if b ≤ pk then ((pk * pk : Nat) - b * b) / (2 * J : Nat) else (b * b - (pk * pk : Nat)) / (2 * J : Nat)
  let dv3 : Int := (pk * pk : Nat) / (2 * J : Nat)
  let t2 := if pk < A then 0 else (dv - dv1 - dv3).toNat * tsUnits / max 1 pk
  [⟨if b ≤ pk then d * J else -(d * J), t1, dec⟩, ⟨0, t2, dec⟩, ⟨-(d * J), tsUnits * pk / J, dec⟩]

/-- Limits in 2^-32 step units: speed, acceleration, deceleration, jerk. -/
structure Lim where
  v : Nat
  acc : Nat
  dec : Nat
  j : Nat

/-- The profile that brings an axis to standstill. -/
def stopTraj (l : Lim) (x : Pva) : Traj :=
  if x.v = 0 ∧ x.a = 0 then { segs := [], goal := none, vEnd := 0, passes := false }
  else { segs := ramp x.v x.a 0 l.dec l.j true, goal := none, vEnd := 0, passes := false }

/-- Where a profile leaves the axis. -/
def Traj.stop (t : Traj) (x : Pva) : Int := (t.goal).getD (runAll t.segs x).p

/-- The profile to a speed, held after it. -/
def speedTraj (l : Lim) (x : Pva) (v : Int) : Traj :=
  { segs := ramp x.v x.a v (if x.v.natAbs ≤ v.natAbs then l.acc else l.dec) l.j false, goal := none, vEnd := v, passes := false }

/-- The phases over a distance `D`, in its direction, from speed `v0` ≥ 0 and acceleration `a0`, ending at speed `vE` or less: cruise
speed by bisection, the rest of the distance at the cruise speed. -/
def onward (l : Lim) (v0 a0 : Int) (D : Nat) (vE : Nat) : List Seg × Nat :=
  let up : Nat → List Seg := fun vp => ramp v0 a0 vp (if v0 ≤ vp then l.acc else l.dec) l.j false
  let down : Nat → List Seg := fun vp => if min vE vp = vp then [] else ramp vp 0 (min vE vp : Nat) l.dec l.j true
  let dist : Nat → Int := fun vp => (runAll (up vp ++ down vp) ⟨0, v0, a0⟩).p
  let ok : Nat → Bool := fun v => Nat.ble v l.v && decide (dist v ≤ D)
  let vp := min l.v (bisect ok 56 (if ok v0.toNat then v0.toNat else 0))
  let rest := ((D : Int) - dist vp).toNat
  -- at speed 0 the axis waits where it is
  let t := if vp = 0 then (if l.v = 0 then 2 ^ 64 else 0) else rest * tsUnits / vp
  (up vp ++ [⟨0, t, false⟩] ++ down vp, min vE vp)

/-- The profile to a target (R380, R383): when the axis cannot stop before it, it stops, reverses and approaches it. -/
def planTo (l : Lim) (x : Pva) (goal : Int) (vEnd : Nat) : Traj :=
  let st := stopTraj l x
  let ps := st.stop x
  let pass := decide ((x.v ≠ 0 ∨ x.a ≠ 0) ∧ ((0 ≤ x.v ∧ goal < ps) ∨ (x.v ≤ 0 ∧ ps < goal ∧ x.v ≠ 0)))
  let y : Pva := if pass then ⟨ps, 0, 0⟩ else x
  let pre := if pass then st.segs else []
  let d : Int := if 0 < y.v then 1 else if y.v < 0 then -1 else if y.p ≤ goal then 1 else -1
  let o := onward l (d * y.v) (d * y.a) (goal - y.p).natAbs vEnd
  { segs := pre ++ o.1.map (fun (g : Seg) => { g with j := d * g.j }), goal := some goal, vEnd := d * o.2, passes := pass }

/-- Advance a profile by one planner tick: none once it has ended, on its target. -/
def Traj.tick (t : Traj) (x : Pva) : Option Traj × Pva :=
  match runFor tickUnits t.segs x with
  | ([], y) => (none, { p := t.goal.getD y.p, v := t.vEnd, a := 0 })
  | (r, y) => (some { t with segs := r }, y)

/-- Has a profile's deceleration begun (R381)? -/
def Traj.braking (t : Traj) : Bool :=
  match t.segs with
  | g :: _ => g.dec
  | [] => true

/-- Direction of a distance. -/
def dirOf (x : Int) : Int := if 0 < x then 1 else if x < 0 then -1 else 0

/-- The first move of a queue from a position: direction, cruise speed, and the greatest speed at which it may be entered so that every
later move reaches its end joint (R380). Speeds in 2^-32 units. -/
def entry (l : Lim) : Int → List (Int × Nat) → Int × Nat × Nat
  | _, [] => (0, 0, 0)
  | p, m :: r =>
    let nx := entry l m.1 r
    let d := dirOf (m.1 - p)
    let w := if d = nx.1 ∧ d ≠ 0 then min (min m.2 nx.2.1) nx.2.2 else 0
    let D := (m.1 - p).natAbs
    (d, m.2, max w (bisect (fun v => Nat.ble v w || decide ((runAll (ramp v 0 w l.dec l.j true) ⟨0, v, 0⟩).p ≤ D)) 56 0))

/-- The joint speed at the end of the first of some moves (R380). -/
def jointSpeed (l : Lim) (p : Int) (m : Int × Nat) (r : List (Int × Nat)) : Nat :=
  let nx := entry l m.1 r
  let d := dirOf (m.1 - p)
  if d = nx.1 ∧ d ≠ 0 then min (min m.2 nx.2.1) nx.2.2 else 0

end Sys2Proof.Machine
end

