-- ==== Sys2Proof/Machine/Mot.lean ====
section
/-!
DEFINITION. Motion: stepper axes, chopper, profiles, limits, stall, gearing, and the web axis (R373 to R401).
-/
namespace Sys2Proof.Machine

/-- Quotient rounded to nearest, halves away from zero. -/
def roundAway (x : Int) (d : Nat) : Int :=
  if x < 0 then -(((2 * x.natAbs + d) / (2 * d) : Nat) : Int) else ((2 * x.natAbs + d) / (2 * d) : Nat)

/-! ### State of an axis -/

def State.axis (s : State) (a : Nat) : Axis := s.axes.getD a Axis.reset
def State.setAxis (s : State) (a : Nat) (x : Axis) : State := { s with axes := s.axes.set a x }

/-- The integer part p of the commanded position. -/
def Axis.pos (x : Axis) : Int := x.mot.p / 4294967296

/-- Is the axis at standstill? -/
def Axis.still (x : Axis) : Bool := decide (x.mot.v = 0) && decide (x.mot.a = 0) && x.traj.isNone

/-- Show position, velocity, standstill, queue depths and gear offset. -/
def State.showAxis (s : State) (a : Nat) : State :=
  let x := s.axis a
  (((((s.putS (MOT_AX_POS_POS a) x.pos).putS (MOT_AX_VEL_VEL a) (roundDiv x.mot.v 4294967296)).putB (MOT_AX_STATUS_STANDSTILL a) x.still).put
    (MOT_AX_STATUS_QDEPTH a) x.moves.length).put (MOT_AX_STATUS_GDEPTH a) x.gears.length).putS (MOT_AX_GEAR_OFS_OFS a) x.ofs

/-- Change an axis and show it. -/
def State.updAxis (s : State) (a : Nat) (f : Axis → Axis) : State := (s.setAxis a (f (s.axis a))).showAxis a

/-- The encoder input of an axis as a unit (ENC_SRC). -/
def encUnit (src : Nat) : Option UnitId :=
  if src = 0 then none
  else if src ≤ 16 then some (.quad ⟨(src - 1) % 16, Nat.mod_lt _ (by decide)⟩)
  else if src ≤ 20 then some (.serial ⟨(src - 17) % 4, Nat.mod_lt _ (by decide)⟩)
  else none

/-- The count of an axis's encoder input. -/
def State.encCount (s : State) (a : Nat) : Int :=
  match encUnit (s.get (MOT_AX_CFG_ENC_SRC a)) with
  | some (.quad q) => s.getS (ENC_Q_COUNT_COUNT q)
  | some (.serial n) => s.getS (ENC_S_COUNT_COUNT n)
  | _ => 0

/-- The encoder position E (R388). -/
def State.axisE (s : State) (a : Nat) : Int :=
  if s.get (MOT_AX_CFG_ENC_SRC a) = 0 then 0
  else (s.axis a).e0 + roundAway (s.getS (MOT_AX_ENC_RATIO_RATIO a) * sgn 32 (twos 32 (s.encCount a - (s.axis a).cnt0))) 65536

/-- Reference the encoder to the commanded position (R391). -/
def State.referEnc (s : State) (a : Nat) : State := s.setAxis a { s.axis a with e0 := (s.axis a).pos, cnt0 := s.encCount a }

/-- The limits of an axis in force: of VMAX, AMAX, DMAX and JMAX. A limit of 0 written while the axis is ON acts as the smallest one
(DESIGN CHOICE, log 26); R394 refuses it only at start. -/
def State.axisLim (s : State) (a : Nat) : Lim :=
  { v := s.get (MOT_AX_VMAX_VMAX a) * 2 ^ 32, acc := max 1 (s.get (MOT_AX_AMAX_A a)) * 2 ^ 32,
    dec := max 1 (s.get (MOT_AX_DMAX_A a)) * 2 ^ 32, j := max 1 (s.get (MOT_AX_JMAX_J a)) * 2 ^ 40 }

/-! ### Phases and the chopper (R373 to R377) -/

/-- 2π/1,024 with 64 fractional bits. -/
def stepAngle : Nat := 113187804032455044

/-- The sine series' next terms: term · x² / (k (k + 1)), alternating. -/
def sineSum (x2 : Nat) : Nat → Nat → Nat → Int → Int
  | 0, _, _, s => s
  | n + 1, k, term, s =>
    let t := term * x2 / 2 ^ 64 / (k * (k + 1))
    sineSum x2 n (k + 2) t (if k % 4 = 2 then s - t else s + t)

/-- The 16-bit ROM table: 65,535 × sin(2πi/1,024), to nearest, for i from 0 to 256 (R375). DESIGN CHOICE (log 27): 65,535 stands for 1. -/
def sineRom (i : Nat) : Nat :=
  let x := i * stepAngle
  ((sineSum (x * x / 2 ^ 64) 10 2 x x) * 65535 + 2 ^ 63).toNat / 2 ^ 64

/-- |sin(2πm/1,024)| in the table's unit, and whether the sine is negative. -/
def sineOf (m : Nat) : Nat × Bool :=
  let h := m % 512
  (sineRom (if h ≤ 256 then h else 512 - h), Nat.ble 512 (m % 1024) && h != 0)

/-- I of R375: RUN while the axis moves and HOLD_DELAY after, then HOLD. -/
def State.axisI (s : State) (a : Nat) : Nat :=
  let x := s.axis a
  let run := if x.still then (match x.stillAt with
    | some t => decide (s.now < t + s.get (MOT_AX_CUR_HOLD_DELAY a) * 1000000)
    | none => false) else true
  if run then s.get (MOT_AX_CUR_RUN a) else s.get (MOT_AX_CUR_HOLD a)

/-- An on time ends: count it when it lasted longer than 100 µs (R377). -/
def Phase.endOn (p : Phase) (now : Nat) : Phase :=
  match p.chop with
  | .onTime t => { p with longs := if 100000 < now - t then p.longs + 1 else 0 }
  | _ => p

/-- A new code and polarity (R376): code 0 is slow decay; a new polarity, or the first code, starts a cycle. -/
def Phase.refer (p : Phase) (code : Nat) (neg : Bool) (now : Nat) : Phase :=
  if code = 0 then { p.endOn now with code := 0, neg := neg, chop := .brake }
  else if p.chop = .brake ∨ p.neg ≠ neg then { p.endOn now with code := code, neg := neg, chop := .onTime now }
  else { p with code := code }

/-- Outputs X1 and X2 of a phase (R373). -/
def State.bridge (s : State) (a : Nat) (p : Phase) : Bool × Bool :=
  match p.chop with
  | .brake => (false, false)
  | .onTime _ => (!p.neg, p.neg)
  | .offTime t =>
    let fast := s.get (MOT_AX_CHOP_TOFF a) * 500 * min 16 (s.get (MOT_AX_CHOP_FD a)) / 16 / 4 * 4
    if s.now < t + fast then (p.neg, !p.neg) else (false, false)

/-- Set the phase references from the commanded position (R375). -/
def State.phaseRefs (s : State) (a : Nat) : State :=
  let x := s.axis a
  let m := ((x.pos + s.get (MOT_AX_ELEC_OFS_ELEC_OFS a)) % 1024).toNat
  let sa := sineOf m
  let sb := sineOf (m + 256)
  let i := s.axisI a
  let code := fun (v : Nat) => (2 * i * v + 65535) / 131070
  s.setAxis a { x with phA := x.phA.refer (code sa.1) sa.2 s.now,
                       phB := x.phB.refer (code sb.1) (sb.2 != s.on (MOT_AX_CFG_DIR_INV a)) s.now }

/-! ### Faults and stops -/

/-- The axis stops moving for good: plan, queues and due re-plans are dropped, the safe output is driven (R374). -/
def Axis.safe (x : Axis) : Axis :=
  { x with mot := { x.mot with v := 0, a := 0 }, traj := none, replan := .no, moves := [], gears := [], stillAt := none, excess := none
           phA := { x.phA with code := 0, chop := .brake, longs := 0 }, phB := { x.phB with code := 0, chop := .brake, longs := 0 } }

/-- The axis enters FAULT (R394). -/
def State.axisFault (s : State) (a : Nat) (reason : Nat) : State :=
  if h : a < 16 then
    s.faultUnit (.axis ⟨a, h⟩) reason (fun s =>
      ((s.event Ev.AXIS_FAULT a [reason, twos 32 (s.axis a).pos, twos 32 (s.axisE a)]).cause MOT_IRQ_CAUSE_AXIS_FAULT).updAxis a Axis.safe)
  else s

/-- Is a limit input active (R386)? -/
def State.limActive (s : State) (a : Nat) (positive : Bool) : Bool :=
  if positive then s.on (MOT_AX_LIM_POS_EN a) && (s.axis a).posLevel == s.on (MOT_AX_LIM_POS_POL a)
  else s.on (MOT_AX_LIM_NEG_EN a) && (s.axis a).negLevel == s.on (MOT_AX_LIM_NEG_POL a)

/-- R387: a target beyond the present position towards an active limit is the present position. Positions with 32 fractional bits. -/
def State.clipTarget (s : State) (a : Nat) (t : Int) : Int :=
  let p := (s.axis a).mot.p
  if (s.limActive a true ∧ p < t) ∨ (s.limActive a false ∧ t < p) then p else t

/-- An overspeed excursion ends: GEAR_OVERSPEED with its peak (R392). -/
def State.closeOver (s : State) (a : Nat) : State :=
  match (s.axis a).excess with
  | none => s
  | some pk => ((s.setAxis a { s.axis a with excess := none }).event Ev.GEAR_OVERSPEED a [pk]).cause MOT_IRQ_CAUSE_GEAR

/-- Re-plan mode with the target at the position where a stop ends; queue and gear changes cleared (R385, R386). -/
def State.parkAxis (s : State) (a : Nat) (tr : Option Traj) : State :=
  let x := s.axis a
  let p := match tr with | some t => t.stop x.mot / 4294967296 | none => x.pos
  (((s.closeOver a).updAxis a (fun x => { x with traj := tr, replan := .no, moves := [], gears := [] })).put (MOT_AX_CFG_MODE a) 1).putS
    (MOT_AX_TARGET_TARGET a) p

/-- Decelerate at a limit (R385, R386, R394). -/
def State.axisDecel (s : State) (a : Nat) (dec : Nat) : Option Traj :=
  let x := s.axis a
  if x.mot.v = 0 ∧ x.mot.a = 0 then none else some (stopTraj { s.axisLim a with dec := max 1 dec * 2 ^ 32 } x.mot)

/-- A limit input has become active (R386, R387, R390). -/
def State.limitHit (s : State) (a : Nat) (positive : Bool) : State :=
  let s0 := s.putB (MOT_AX_STATUS_LIM_HIT a) true
  let v := (s.axis a).mot.v
  let towards := if positive then decide (0 < v) else decide (v < 0)
  let hard := if positive then s.on (MOT_AX_LIM_POS_HARD a) else s.on (MOT_AX_LIM_NEG_HARD a)
  if s.limActive a true ∧ s.limActive a false ∧ s.ust (.axis ⟨a % 16, Nat.mod_lt _ (by decide)⟩) = .on then s0.axisFault a 4
  else if towards then
    let s1 := if hard then
        (s0.updAxis a (fun x => { x with mot := { x.mot with v := 0, a := 0 }, traj := none, stillAt := none })).parkAxis a none
      else s0.parkAxis a (s0.axisDecel a (s.get (MOT_AX_LIM_DMAX_A a)))
    ((s1.event Ev.LIMIT_STOP a [b2n positive, b2n hard, s1.get (MOT_AX_TARGET_TARGET a)]).cause MOT_IRQ_CAUSE_LIMIT_STOP).addSat
      (MOT_AX_LIMIT_COUNT_COUNT a) 1
  else s0

/-- Levels or settings of the limit inputs have changed from `old`: show the levels, act on an input that became active. -/
def State.limitsChanged (old s : State) (a : Nat) : State :=
  let s0 := (s.putB (MOT_AX_STATUS_LIM_NEG a) (s.axis a).negLevel).putB (MOT_AX_STATUS_LIM_POS a) (s.axis a).posLevel
  let s1 := if s0.limActive a false && !old.limActive a false then s0.limitHit a false else s0
  if s1.limActive a true && !old.limActive a true then s1.limitHit a true else s1

def execLimitInputChange (a : Fin 16) (positive level : Bool) (s : State) : Out :=
  finish (State.limitsChanged s
    (s.setAxis a (if positive then { s.axis a with posLevel := level } else { s.axis a with negLevel := level })) a)

/-- Open winding: 16 long on times in succession (R377). -/
def State.windingCheck (s : State) (a : Nat) : State :=
  if 16 ≤ (s.axis a).phA.longs ∨ 16 ≤ (s.axis a).phB.longs then s.axisFault a 5 else s

/-- Is the axis driven: ON, or STOPPING before its stop actions end (R374)? -/
def State.driven (s : State) (a : Fin 16) : Bool := s.ust (.axis a) == .on || s.ust (.axis a) == .stopping

/-- The comparator reports above the reference: after TBLANK the on time ends (R376). -/
def Phase.trip (p : Phase) (now blank : Nat) : Phase :=
  match p.chop with
  | .onTime t => if now < t + blank then p else { p.endOn now with chop := .offTime now }
  | _ => p

def execComparatorTrip (a : Fin 16) (phaseB : Bool) (s : State) : Out :=
  finish (if s.driven a then
      let x := s.axis a
      let bl := s.get (MOT_AX_CHOP_TBLANK a) * 250
      (s.setAxis a (if phaseB then { x with phB := x.phB.trip s.now bl } else { x with phA := x.phA.trip s.now bl })).windingCheck a
    else s)

/-- The off time ends and the next on time begins (R376). -/
def Phase.offEnd (p : Phase) (now : Nat) : Phase :=
  match p.chop with
  | .offTime _ => { p with chop := .onTime now }
  | _ => p

def execChopperOffTimeEnd (a : Fin 16) (phaseB : Bool) (s : State) : Out :=
  finish (if s.driven a then
      let x := s.axis a
      s.setAxis a (if phaseB then { x with phB := x.phB.offEnd s.now } else { x with phA := x.phA.offEnd s.now })
    else s)

/-! ### Commands (R378 to R385, R393) -/

def State.axCmdErr (s : State) (a : Nat) : State := s.putB (MOT_AX_STATUS_CMD_ERR a) true

/-- Is the axis in mode `m` and ON? -/
def State.axMode (s : State) (a : Fin 16) (m : Nat) : Bool := s.ust (.axis a) == .on && s.get (MOT_AX_CFG_MODE a) == m

/-- Plan the move at the head of the queue from the present motion, joined to the moves after it (R380, R382). -/
def State.planMove (s : State) (a : Nat) : State :=
  let x := s.axis a
  match x.moves with
  | [] => s
  | m :: r =>
    let l : Lim := { v := m.2 * 2 ^ 32, acc := max 1 x.lim.1 * 2 ^ 32, dec := max 1 x.lim.2.1 * 2 ^ 32, j := max 1 x.lim.2.2 * 2 ^ 32 }
    let fxm := fun (e : Int × Nat) => ((fx e.1, e.2 * 2 ^ 32) : Int × Nat)
    let w := jointSpeed l x.mot.p (fxm m) (r.map fxm)
    s.setAxis a { x with traj := some (planTo l x.mot (s.clipTarget a (fx m.1)) w) }

/-- PUSH (R379, R381). -/
def State.axisPush (s : State) (a : Fin 16) : State :=
  let x := s.axis a
  let t := s.getS (MOT_AX_Q_TARGET_TARGET a)
  let v := min (s.get (MOT_AX_Q_VEL_VEL a)) (s.get (MOT_AX_VMAX_VMAX a))
  let endp := match x.moves.getLast? with | some m => m.1 | none => x.pos
  if !s.axMode a 0 || Nat.ble 32 x.moves.length then s.axCmdErr a
  else if t = endp then s
  else
    let s1 := s.updAxis a (fun x => { x with moves := x.moves ++ [(t, v)] })
    match x.traj with
    | some tr => if tr.braking ∨ x.moves = [] then s1 else s1.planMove a
    | none => s1

def execPush (req : Fin 6) (a : Fin 16) (s : State) : Out :=
  finish (s.reqWrite req (MOT_AX_CMD a) (fun s => (s.axisPush a)))

/-- STOP (R385). -/
def State.axisStopCmd (s : State) (a : Nat) : State := s.parkAxis a (s.axisDecel a (s.get (MOT_AX_DMAX_A a)))

def execStop (req : Fin 6) (a : Fin 16) (s : State) : Out :=
  finish (s.reqWrite req (MOT_AX_CMD a) (fun s => (s.axisStopCmd a)))

/-- M of R392 for a follower, with 16 fractional bits. -/
def State.masterPos (s : State) (a : Nat) : Int :=
  match s.get (MOT_AX_CFG_GEAR_SRC a) with
  | 0 => s.webAt s.now / 16
  | k + 1 => (s.axis k).pos * 65536

/-- Entry to gear mode, or a new position in it: OFS and M_ref (R378, R392). -/
def State.gearRef (s : State) (a : Nat) : State :=
  s.updAxis a (fun x => { x with mRef := s.masterPos a, mLast := s.masterPos a, ofs := x.pos })

def State.gearEnter (s : State) (a : Nat) : State :=
  ((s.updAxis a (fun x => { x with gears := [] })).gearRef a).put (MOT_AX_GEAR_NOW_RATIO a) 0

/-- SET_POS (R385). In gear mode the follower's reference moves with it (DESIGN CHOICE, log 28). -/
def State.axisSetPos (s : State) (a : Nat) : State :=
  if (s.axis a).still then
    let s1 := (s.updAxis a (fun x => { x with mot := { x.mot with p := fx (s.getS (MOT_AX_SETPOS_POS a)) } })).referEnc a
    if s.get (MOT_AX_CFG_MODE a) = 2 then s1.gearRef a else s1
  else s.axCmdErr a

def execSetPos (req : Fin 6) (a : Fin 16) (s : State) : Out :=
  finish (s.reqWrite req (MOT_AX_CMD a) (fun s => (s.axisSetPos a)))

/-- GEAR_PUSH (R393). -/
def State.axisGearPush (s : State) (a : Fin 16) : State :=
  if s.ust (.axis a) ≠ .on ∨ 8 ≤ (s.axis a).gears.length then s.axCmdErr a
  else s.updAxis a (fun x => { x with gears := x.gears ++ [(s.get (MOT_AX_GEAR_POS_P a), s.getS (MOT_AX_GEAR_RATIO_RATIO a))] })

def execGearPush (req : Fin 6) (a : Fin 16) (s : State) : Out :=
  finish (s.reqWrite req (MOT_AX_CMD a) (fun s => (s.axisGearPush a)))

/-- A write of MOT_AX_CMD: STOP first; what comes with it in the same cycle is discarded with CMD_ERR (R385). -/
def State.motCmdWrite (s : State) (a : Fin 16) (v : Nat) : State :=
  let s1 := if bit v 1 then (let t := s.axisStopCmd a; if bit v 0 || bit v 3 then t.axCmdErr a else t)
    else
      let t := if bit v 0 then s.axisPush a else s
      if bit v 3 then t.axisGearPush a else t
  if bit v 2 then s1.axisSetPos a else s1

/-- A write of MOT_AX_TARGET: in re-plan mode a new plan at the next tick (R383). -/
def State.axisTarget (s : State) (a : Fin 16) (t : Int) : State :=
  let s1 := s.putS (MOT_AX_TARGET_TARGET a) t
  if s.axMode a 1 then s1.setAxis a { s1.axis a with replan := .target } else s1

def execMotAxTargetWrite (req : Fin 6) (a : Fin 16) (v : Word) (s : State) : Out :=
  finish (s.reqWrite req (MOT_AX_TARGET a) (fun s => (s.axisTarget a v.toInt)))

/-- A write of MODE (R378). A write of the present mode changes nothing; mode 3 is never accepted (DEDUCED, log 29). -/
def State.axisMode (s : State) (a : Fin 16) (m : Nat) : State :=
  let x := s.axis a
  let old := s.get (MOT_AX_CFG_MODE a)
  let set := s.put (MOT_AX_CFG_MODE a) m
  if m = old then s
  else if m = 3 then s.axCmdErr a
  else if s.ust (.axis a) = .off then set
  else match old, m with
    | 0, 1 => (set.updAxis a (fun x => { x with moves := [], replan := .target }))
    | 1, 0 => if x.still then set.updAxis a (fun x => { x with moves := [], replan := .no }) else s.axCmdErr a
    | 0, 2 => if x.still ∧ x.moves = [] then set.gearEnter a else s.axCmdErr a
    | 1, 2 => if x.still ∧ x.moves = [] then (set.setAxis a { x with replan := .no }).gearEnter a else s.axCmdErr a
    | 2, 1 => (set.closeOver a).setAxis a { (set.closeOver a).axis a with replan := .target }
    | _, _ => s.axCmdErr a

def execMotAxModeWrite (req : Fin 6) (a : Fin 16) (m : Fin 4) (s : State) : Out :=
  finish (s.reqWrite req (MOT_AX_CFG a) (fun s => (s.axisMode a m)))

/-- The register field of a limit. -/
def limitFld (a : Nat) : AxisLimit → Fld
  | .vmax => MOT_AX_VMAX_VMAX a
  | .amax => MOT_AX_AMAX_A a
  | .dmax => MOT_AX_DMAX_A a
  | .jmax => MOT_AX_JMAX_J a

/-- A write of VMAX, AMAX, DMAX or JMAX: in re-plan mode it applies to the motion at the next tick (R384). -/
def State.axisLimitWrite (s : State) (a : Fin 16) (w : AxisLimit) (v : Nat) : State :=
  let s1 := s.put (limitFld a w) v
  if s.axMode a 1 ∧ (s.axis a).traj.isSome ∧ (s.axis a).replan = .no then s1.setAxis a { s1.axis a with replan := .limit } else s1

def execAxisLimitWrite (req : Fin 6) (a : Fin 16) (w : AxisLimit) (v : Word) (s : State) : Out :=
  finish (s.reqWrite req ((limitFld a w).off) (fun s => (s.axisLimitWrite a w v.toNat)))

/-! ### The planner tick -/

/-- The re-plan that is due (R383, R384); an overshoot that a new limit forces is flagged with its excursion. -/
def State.planDue (s : State) (a : Nat) : State :=
  let x := s.axis a
  if x.replan = .no then s
  else
    let t := s.clipTarget a (fx (s.getS (MOT_AX_TARGET_TARGET a)))
    let tr := planTo (s.axisLim a) x.mot t 0
    let s1 := s.setAxis a { x with traj := some tr, replan := .no }
    let was : Bool := match x.traj with | some o => o.passes | none => false
    if x.replan = .limit ∧ tr.passes = true ∧ was = false then
      let ps := (stopTraj (s.axisLim a) x.mot).stop x.mot
      (((s1.putB (MOT_AX_STATUS_OVERSHOOT a) true).event Ev.AXIS_OVERSHOOT a
        [s.get (MOT_AX_TARGET_TARGET a), ((ps - t).natAbs + 2 ^ 31) / 2 ^ 32]).cause MOT_IRQ_CAUSE_OVERSHOOT)
    else s1

/-- The first queued gear change takes effect when the master is at or after its position (R393). -/
def State.gearChange (s : State) (a : Nat) (m : Int) : Nat → State
  | 0 => s
  | n + 1 =>
    let x := s.axis a
    match x.gears with
    | [] => s
    | (p, r) :: rest =>
      let behind := ((m / 65536 - p) % 4294967296).toNat
      if 2 ^ 31 ≤ behind then s
      else
        let pm := (m / 65536 - behind) * 65536
        let ofs := x.ofs + roundAway (s.getS (MOT_AX_GEAR_NOW_RATIO a) * (pm - x.mRef)) 4294967296
        ((((s.setAxis a { x with gears := rest, mRef := pm, ofs := ofs }).putS (MOT_AX_GEAR_NOW_RATIO a) r).event Ev.GEAR_CHANGE a
          [p, twos 32 r, twos 32 ofs]).cause MOT_IRQ_CAUSE_GEAR).gearChange a m n

/-- The follower's position by the gear rule (R392), its speed, and the overspeed excursion. -/
def State.gearTick (s : State) (a : Nat) : State :=
  let m := s.masterPos a
  let s1 := s.gearChange a m 8
  let x := s1.axis a
  let r := s1.getS (MOT_AX_GEAR_NOW_RATIO a)
  let p := s1.clipTarget a (fx (x.ofs + roundAway (r * (m - x.mRef)) 4294967296))
  let v := if p = x.mot.p ∧ (s1.limActive a true ∨ s1.limActive a false) then 0 else r * (m - x.mLast) * 500000
  let sp := (v.natAbs + 2 ^ 31) / 2 ^ 32
  let s2 := s1.setAxis a { x with mot := { p := p, v := v, a := 0 }, mLast := m }
  if s1.get (MOT_AX_VMAX_VMAX a) * 2 ^ 32 < v.natAbs then
    (s2.setAxis a { s2.axis a with excess := some (max sp (x.excess.getD 0)) }).putB (MOT_AX_STATUS_OVERSPEED a) true
  else s2.closeOver a

/-- Move an axis by one planner tick. -/
def State.moveTick (s : State) (a : Fin 16) : State :=
  let on := s.ust (.axis a) == .on
  let s0 := if on && s.get (MOT_AX_CFG_MODE a) == 1 then s.planDue a else s
  let x0 := s0.axis a
  let s1 := if on ∧ s0.get (MOT_AX_CFG_MODE a) = 0 ∧ x0.traj = none ∧ x0.moves ≠ [] then
      (s0.setAxis a { x0 with lim := (s0.get (MOT_AX_AMAX_A a), s0.get (MOT_AX_DMAX_A a), s0.get (MOT_AX_JMAX_J a) * 256) }).planMove a
    else s0
  let x := s1.axis a
  match x.traj with
  | some t =>
    let r := t.tick x.mot
    let ended := r.1.isNone
    let queued := on && s1.get (MOT_AX_CFG_MODE a) == 0
    s1.setAxis a { x with mot := r.2, traj := r.1, moves := if ended && queued then x.moves.drop 1 else x.moves,
                          stillAt := if ended && decide (r.2.v = 0) then some s.now else x.stillAt }
  | none =>
    if on ∧ s1.get (MOT_AX_CFG_MODE a) = 2 then
      let s2 := s1.gearTick a
      if (s2.axis a).mot.v = 0 ∧ x.mot.v ≠ 0 then s2.setAxis a { s2.axis a with stillAt := some s.now } else s2
    else s1

/-- Stall detection (R388). -/
def State.stallCheck (s : State) (a : Nat) : State :=
  let win := s.get (MOT_AX_STALL_WIN a)
  if s.get (MOT_AX_CFG_ENC_SRC a) = 0 ∨ win = 0 then s
  else if ((s.axis a).pos - s.axisE a).natAbs ≤ win then s.setAxis a { s.axis a with stall := 0 }
  else
    let n := (s.axis a).stall + 1
    if max 1 (s.get (MOT_AX_STALL_TIME a)) * 50 ≤ n then
      ((s.setAxis a { s.axis a with stall := 0 }).addSat (MOT_AX_STALL_COUNT_COUNT a) 1).axisFault a 2
    else s.setAxis a { s.axis a with stall := n }

/-- Is the encoder input of an axis retired or faulted (R389)? -/
def State.encBad (s : State) (a : Nat) : Bool :=
  match encUnit (s.get (MOT_AX_CFG_ENC_SRC a)) with
  | some u => s.ust u == .retired || s.ust u == .fault
  | none => false

/-- One axis at a planner tick; faults come before limit stops (R390). -/
def State.axisTick (s : State) (a : Fin 16) : State :=
  if !s.driven a then s
  else if s.encBad a then s.axisFault a 3
  else if s.limActive a true ∧ s.limActive a false then s.axisFault a 4
  else
    let s1 := ((s.moveTick a).stallCheck a).showAxis a
    if s1.driven a then (s1.phaseRefs a).windingCheck a else s1

/-! ### An axis as a unit (R394) -/

/-- Is the configuration invalid (reason 1)? -/
def State.axisBad (s : State) (a : Nat) : Bool :=
  s.get (MOT_AX_VMAX_VMAX a) == 0 || s.get (MOT_AX_AMAX_A a) == 0 || s.get (MOT_AX_DMAX_A a) == 0 || s.get (MOT_AX_JMAX_J a) == 0 ||
  s.get (MOT_AX_LIM_DMAX_A a) == 0 || s.get (MOT_AX_CHOP_TOFF a) == 0 || s.get (MOT_AX_CHOP_TBLANK a) == 0 ||
  Nat.blt 8 (s.get (MOT_AX_CHOP_TBLANK a)) || Nat.blt 16 (s.get (MOT_AX_CHOP_FD a)) || Nat.blt 20 (s.get (MOT_AX_CFG_ENC_SRC a)) ||
  s.get (MOT_AX_CFG_GEAR_SRC a) == a + 1 || Nat.blt 16 (s.get (MOT_AX_CFG_GEAR_SRC a))

/-- The start actions: reference the encoder, take the last commanded position, energise at HOLD. -/
def State.axisStart (s : State) (a : Nat) : State :=
  if s.axisBad a then s.axisFault a 1
  else
    let s1 := (s.updAxis a (fun x => { x.safe with stall := 0, lim := (0, 0, 0) })).referEnc a
    let s2 := if s.get (MOT_AX_CFG_MODE a) = 2 then s1.gearEnter a else s1
    (s2.phaseRefs a).showAxis a

/-- The stop actions begin: queue and gear changes cleared, deceleration at DMAX. -/
def State.axisStop (s : State) (a : Nat) : State :=
  let tr := s.axisDecel a (s.get (MOT_AX_DMAX_A a))
  (s.closeOver a).updAxis a (fun x => { x with traj := tr, replan := .no, moves := [], gears := [] })

/-- The stop actions are complete: the safe output is driven (R374, R394). -/
def State.axisOff (s : State) (a : Nat) : State :=
  s.updAxis a (fun x => { x.safe with mot := match x.traj with | some t => ⟨t.stop x.mot, 0, 0⟩ | none => ⟨x.mot.p, 0, 0⟩ })

/-! ### The web axis (R395 to R401) -/

/-- The cap of 25,000,000 steps/s with 32 fractional bits. -/
def webCap : Nat := 25000000 * 2 ^ 32

/-- The ramp's limits in 2^-32 step units, and BACK_V before the cap. -/
def State.webBackV (s : State) : Nat := s.get MOT_WEB_BACK_V_MMPS * s.get MOT_WEB_SCALE_SCALE * 256 * 24000 / 254
def State.webLim (s : State) : Lim :=
  { v := min s.webBackV webCap
    acc := max 1 (s.get MOT_WEB_RAMP_A_ACC * s.get MOT_WEB_SCALE_SCALE * 256 * 240000 / 254)
    dec := max 1 (s.get MOT_WEB_RAMP_A_DEC * s.get MOT_WEB_SCALE_SCALE * 256 * 240000 / 254)
    j := max 1 (s.get MOT_WEB_RAMP_J_JERK * s.get MOT_WEB_SCALE_SCALE * 256 * 2400000 / 254) }

/-- T of R396 in 2^-32 fine line/s, limited to ±TRIM_MAX; a NaN is a free value. -/
def State.webTrim (s : State) : Int :=
  let lim : Int := fx (s.get MOT_WEB_TRIM_MAX_MAX)
  let t : Int := if f32NaN s.web.trim then Config.nonFinite 2 s.web.trim
    else if f32Inf s.web.trim then (if f32Sign s.web.trim then -lim else lim) else f32RoundAway s.web.trim (2 ^ 32)
  max (-lim) (min lim t)

/-- The step rate that matches the line clock plus a trim in 2^-32 fine line/s (R396), before its clamp. -/
def State.lineRate (s : State) (trim : Int) : Int :=
  let per := max 1 (s.get PGP_PERIOD_ACTIVE_PERIOD)
  ((256000000000 * fineOf s.mode * 2 ^ 32 / per : Nat) + trim) * (s.get MOT_WEB_SCALE_SCALE : Int) / 16777216

/-- The rate limit acts on a requested rate (R396). -/
def State.rateLimit (s : State) (v : Nat) : State :=
  if v ≤ webCap then s
  else
    let s1 := s.putB MOT_WEB_STATUS_RATE_LIMIT true
    if s.web.limitPosted then s1
    else (({ s1 with web := { s1.web with limitPosted := true } }).event Ev.WEB_RATE_LIMIT 16 [v / 2 ^ 32]).cause MOT_IRQ_CAUSE_WEB_RATE_LIMIT

/-- Give the web a profile. -/
def State.webTraj (s : State) (t : Traj) : State := { s with web := { s.web with traj := some t, fresh := false } }

/-- Plan the web's motion when its plan is new (R395, R398). -/
def State.webPlanDue (s : State) : State :=
  if !s.web.fresh then s
  else match s.web.plan with
    | .idle => { s with web := { s.web with fresh := false } }
    | .follow => { s with web := { s.web with fresh := false, traj := none } }
    | .runup => (s.rateLimit (s.lineRate 0).toNat).webTraj (speedTraj s.webLim s.web.mot (min (s.lineRate 0) webCap))
    | .park xb =>
      let d := (xb - s.webXAt s.now) * (fineOf s.mode * s.get MOT_WEB_SCALE_SCALE : Nat) / 256
      (s.rateLimit s.webBackV).webTraj (planTo s.webLim s.web.mot (s.web.mot.p + d) 0)
    | .decel => s.webTraj (stopTraj s.webLim s.web.mot)
    | .firmware g => (s.rateLimit s.webBackV).webTraj (planTo s.webLim s.web.mot g 0)

/-- Show the web's commanded rate and step count. -/
def State.showWeb (s : State) : State :=
  let v := roundDiv s.web.mot.v 4294967296
  ((({ s with web := { s.web with vel := v } }).putS MOT_WEB_RATE_RATE v).putB MOT_WEB_STATUS_STANDSTILL (decide (v = 0)))

/-- The web axis at a planner tick. -/
def State.webTick (s : State) : State :=
  if s.webStopNow ∨ (s.ust .web ≠ .on ∧ s.ust .web ≠ .stopping) then s
  else
    let s1 := s.webPlanDue
    let w := s1.web
    match w.plan with
    | .idle => s1.showWeb
    | .follow =>
      let f := s1.lineRate s1.webTrim
      let v := max 0 (min f webCap)
      (({ s1.rateLimit f.toNat with web := { (s1.rateLimit f.toNat).web with mot := { p := w.mot.p + v / 500000, v := v, a := 0 } } })).showWeb
    | .runup =>
      match w.traj with
      | some t =>
        let r := t.tick w.mot
        let s2 : State := { s1 with web := { w with mot := r.2, traj := r.1 } }
        (if r.1.isNone ∧ s1.lineRate 0 ≤ webCap then { s2 with press := { s2.press with webLineSpeed := true } } else s2).showWeb
      | none => ({ s1 with web := { w with mot := { w.mot with p := w.mot.p + w.mot.v / 500000 } } }).showWeb
    | p =>
      match w.traj with
      | some t =>
        let r := t.tick w.mot
        let s2 := ({ s1 with web := { w with mot := r.2, traj := r.1 } }).showWeb
        (match p with
          | .firmware _ => if r.1.isNone then s2.webPlan 0 .idle else s2
          | .decel => if r.1.isNone ∧ s2.get MOT_WEB_STATUS_WMODE = 4 then s2.webPlan 0 .idle else s2
          | _ => s2)
      | none => s1.showWeb

def execPlannerTick (s : State) : Out := finish (((List.finRange 16).foldl (fun s a => s.axisTick a) s).webTick)

/-- The web axis enters FAULT (R400). The event's positions are the step count and the web position in fine lines (DESIGN CHOICE, log 30). -/
def State.webFault (s : State) (reason : Nat) : State :=
  s.faultUnit .web reason (fun s =>
    ((s.event Ev.AXIS_FAULT 16 [reason, twos 32 (s.web.mot.p / 4294967296), twos 32 (s.press.webPos / 1048576)]).cause
      MOT_IRQ_CAUSE_AXIS_FAULT).refreshWebStop)

/-- The level of DRIVE_READY, or its polarity, has changed: a loss while ON is a fault, with a web stop while the clock runs (R401). -/
def State.driveReady (s : State) : State :=
  let now := s.web.rdy != s.on MOT_WEB_CFG_RDY_POL
  let was := s.on MOT_WEB_STATUS_DRIVE_READY
  let s1 := s.putB MOT_WEB_STATUS_DRIVE_READY now
  if was && !now && s.ust .web == .on then
    if s.clk = clkRunning ∨ s.clk = clkLocking then
      (((s1.event Ev.WEB_DRIVE_LOST 16 [s.clk, s.time.line]).cause MOT_IRQ_CAUSE_WEB_DRIVE_LOST).webStopTrip).webFault 3
    else s1.webFault 3
  else s1

def execDriveReadyChange (level : Bool) (s : State) : Out := finish ({ s with web := { s.web with rdy := level } }).driveReady

/-- A write of MOT_WEB_TARGET (R398). -/
def State.webTarget (s : State) (lines : Int) : State :=
  if s.get PGP_SCHED_STATUS_JOB_STATE = jsIdle ∧ s.ust .web = .on then
    ({ s with web := { s.web with limitPosted := false } }).webPlan 4 (.firmware (s.web.mot.p + lines * (s.get MOT_WEB_SCALE_SCALE : Int) * 256))
  else s.putB MOT_WEB_STATUS_CMD_ERR true

def execMotWebTargetWrite (req : Fin 6) (lines : Word) (s : State) : Out :=
  finish (s.reqWrite req (MOT_WEB_TARGET) (fun s => (s.webTarget lines.toInt)))

/-- JOG_STOP (R398). -/
def State.webJogStop (s : State) : State :=
  match s.web.plan with
  | .firmware _ => s.webPlan 4 .decel
  | _ => s

def execJogStop (req : Fin 6) (s : State) : Out :=
  finish (s.reqWrite req (MOT_WEB_CTRL) (fun s => s.webJogStop))

/-- FORCE_STOP (R399). -/
def State.forceStop (s : State) (b : Bool) : State := (s.putB MOT_WEB_CTRL_FORCE_STOP b).refreshWebStop

def execForceStopWrite (req : Fin 6) (force : Bool) (s : State) : Out :=
  finish (s.reqWrite req (MOT_WEB_CTRL) (fun s => (s.forceStop force)))

/-- A write of one field that R400 protects: 0 is ignored while the axis is not OFF. -/
def State.webParamFld (s : State) (f : Fld) (x : Nat) : State :=
  if x = 0 ∧ s.ust .web ≠ .off then s.putB MOT_WEB_STATUS_CMD_ERR true else s.put f x

/-- A write of SCALE or a ramp register (R400); a planned move follows it at the next planner tick (R384, R395). -/
def State.webParam (s : State) (w : WebParam) (v : Nat) : State :=
  let s1 := match w with
    | .scale => s.webParamFld MOT_WEB_SCALE_SCALE v
    | .rampA => (s.webParamFld MOT_WEB_RAMP_A_ACC (v % 65536)).webParamFld MOT_WEB_RAMP_A_DEC (v / 65536)
    | .rampJ => s.webParamFld MOT_WEB_RAMP_J_JERK (v % 65536)
    | .backV => s.webParamFld MOT_WEB_BACK_V_MMPS (v % 65536)
  if s.web.traj.isSome then { s1 with web := { s1.web with fresh := true } } else s1

def execMotWebParamWrite (req : Fin 6) (w : WebParam) (v : Word) (s : State) : Out :=
  finish (s.reqWrite req (MOT_WEB_SCALE) (fun s => (s.webParam w v.toNat)))

/-- A recovery or job-end move ends at standstill: the park error is checked, and corrected up to four times (R139, R397). -/
def State.webStandstill (s : State) : State :=
  let rest : State := { s with web := { s.web with traj := none, fresh := false, mot := match s.web.traj with
    | some t => ⟨t.stop s.web.mot, 0, 0⟩ | none => ⟨s.web.mot.p, 0, 0⟩ } }
  let s0 := rest.showWeb
  match s.web.plan with
  | .decel => s0.webPlan 0 .idle
  | .park xb =>
    let err := s.webXAt s.now - xb
    let s1 := s0.putS MOT_WEB_PARK_ERR_ERR (roundDiv err 256)
    let tries := s.get MOT_WEB_STATUS_PARK_TRIES
    if 4 * err.natAbs ≤ 65536 * s.get PGP_RECOV_MARGIN_LINES then
      let s2 := (s1.webPlan 0 .idle).event' Ev.WEB_PARKED [twos 32 (xb / 65536), twos 32 (roundDiv err 65536)]
      match s.press.job with
      | some j =>
        (match j.recovery with
          | some r => (s2.setJob { j with recovery := some { r with phase := 3 } }).put PGP_SCHED_STATUS_RECOV_PHASE 3
          | none => s2)
      | none => s2
    else if tries < 4 then (s1.webPlan 3 (.park xb)).put MOT_WEB_STATUS_PARK_TRIES (tries + 1)
    else ((s1.webPlan 0 .idle).event Ev.WEB_PARK_FAIL 16 [twos 32 (xb / 65536), twos 32 (roundDiv err 256)]).cause MOT_IRQ_CAUSE_WEB_PARK_FAIL
  | _ => s



/-- Is the web axis's configuration invalid (reason 1)? -/
def State.webBad (s : State) : Bool :=
  s.get MOT_WEB_SCALE_SCALE == 0 || s.get MOT_WEB_RAMP_A_ACC == 0 || s.get MOT_WEB_RAMP_A_DEC == 0 || s.get MOT_WEB_RAMP_J_JERK == 0 ||
  s.get MOT_WEB_BACK_V_MMPS == 0

end Sys2Proof.Machine
end

