-- ==== Sys2Proof/Machine/Lpe.lean ====
section
/-!
DEFINITION. The loop engine (R423 to R437) and the general pins with their PWM channels (R556).
-/
namespace Sys2Proof.Machine

/-! ### General pins (R556) -/

/-- Does a loop slot that is not OFF name a destination? -/
def State.loopNames (s : State) (dst idx : Nat) : Bool :=
  (List.finRange 32).any (fun (l : Fin 32) => s.ust (.slot l) != .off && s.get (LPE_SRC_OUT_DST l) == dst && s.get (LPE_SRC_OUT_IDX l) == idx)

/-- A firmware write of a PWM duty: ignored while a slot names the channel. -/
def State.pwmDuty (s : State) (c v : Nat) : State := if s.loopNames 5 c then s else s.put (PIN_PWM_DUTY_DUTY c) v

def execPinPwmDutyWrite (req : Fin 6) (c : Fin 16) (v : Word) (s : State) : Out :=
  finish (s.reqWrite req (PIN_PWM_DUTY c) (fun s => (s.pwmDuty c v.toNat)))

/-- A period starts: every channel takes its duty, round(D × PERIOD) cycles high. -/
def State.pwmStart (s : State) : State :=
  let per := max 25 (s.get PIN_PWM_PERIOD_PERIOD)
  { s with pwm := { period := per, high := (List.range 16).map (fun c => (min 65536 (s.get (PIN_PWM_DUTY_DUTY c)) * per + 32768) / 65536) } }

def execPwmPeriodStart (s : State) : Out := finish s.pwmStart

/-- The levels of the pins change: enabled changes are latched and posted. -/
def State.pinLevels (s : State) (v : Word) : State :=
  let hits := (v ^^^ s.rget PIN_IN) &&& s.rget PIN_EDGE_EN
  let s1 := s.rset PIN_IN v
  if hits = 0 then s1
  else
    let s2 := s1.rset PIN_EDGE (s1.rget PIN_EDGE ||| hits)
    (s2.event' Ev.PIN_EDGE [(s2.rget PIN_EDGE).toNat, v.toNat]).cause PIN_IRQ_CAUSE_EDGE

def execPinEdge (levels : Word) (s : State) : Out := finish (s.pinLevels levels)

/-! ### Slots -/

def State.loopS (s : State) (l : Nat) : Loop := s.lpe.slots.getD l Loop.reset
def State.setLoop (s : State) (l : Nat) (x : Loop) : State := { s with lpe := { s.lpe with slots := s.lpe.slots.set l x } }

/-- A binary32 register of the engine. -/
def State.f32 (s : State) (f : Fld) : F32 := BitVec.ofNat 32 (s.get f)
def State.setF32 (s : State) (f : Fld) (x : F32) : State := s.put f x.toNat

/-- Is the SP of a slot driven by a slot that is not OFF (R431)? -/
def State.spDriven (s : State) (l : Nat) : Bool := s.loopNames 4 l

/-- PLN_TEMP[q] (R294): the mean of T_MEAN over the tiles with a fresh report, or its last value. T_MEAN is in 1/64 °C. -/
def State.plnTemp (s : State) (q : Nat) : F32 :=
  let fs := ((s.planeEntries q).map (fun e => s.ctl e.port e.slot)).filter (fun c => s.fresh c)
  if fs = [] then s.lpe.temp.getD q 0 else f32Ratio (fs.foldl (fun (a : Int) (x : CtlSlot) => a + x.tMean) 0) (64 * fs.length)

/-- 1.8 and 4,096 in binary32. -/
def f32v18 : F32 := 0x3FE66666#32

/-- The input of a slot (R427): its value, none while invalid. -/
def State.loopIn (s : State) (l : Nat) : Option F32 :=
  let i := s.get (LPE_SRC_IN_IDX l)
  match s.get (LPE_SRC_IN_SRC l) with
  | 0 => some 0
  | 1 => if s.on (THM_HK_BROKEN i) then none else some (f32Div (f32Mul (f32OfInt (s.get (THM_HK_CODE i) : Nat)) f32v18) (f32OfInt 4096))
  | 2 => if s.on (THM_EXT_BROKEN i) then none else some (f32Ratio (s.getS (THM_EXT_T i)) 64)
  | 3 => match s.press.job with
    | some j => if j.used.contains i then some (s.lpe.temp.getD i 0) else none
    | none => if s.planeEntries i = [] then none else some (s.lpe.temp.getD i 0)
  | 4 => if s.clk = clkRunning then some (f32Ratio s.webErr 65536) else none
  | 5 => if s.regValid i then some (s.cam.reg.getD i RegLat.reset).lat else none
  | 6 => if s.ust (.axis ⟨i % 16, Nat.mod_lt _ (by decide)⟩) = .on then some (f32OfInt (s.axisE i)) else none
  | 7 => if s.ust (.slot ⟨i % 32, Nat.mod_lt _ (by decide)⟩) = .on then some (s.f32 (LPE_OUT_VALUE i)) else none
  | 8 => some (s.f32 (LPE_SW_IN_VALUE i))
  | _ => none

/-- The engine writes a value to a slot's destination (R429 to R431). -/
def State.loopOut (s : State) (l : Nat) (u : F32) : State :=
  let i := s.get (LPE_SRC_OUT_IDX l)
  match s.get (LPE_SRC_OUT_DST l) with
  | 1 => { s with lpe := { s.lpe with warm := s.lpe.warm.set i u } }
  | 2 => { s with web := { s.web with trim := u } }
  | 3 =>
    let a : Fin 16 := ⟨i % 16, Nat.mod_lt _ (by decide)⟩
    if s.axMode a 1 then
      let r := if f32Finite u then f32RoundAway u 1 else 2 ^ 40
      let t := if -2147483648 ≤ r ∧ r ≤ 2147483647 then r else Config.nonFinite 3 u
      let s1 := s.putB (LPE_STATUS_OUT_BLOCKED l) false
      if (s.loopS l).lastOut = some t then s1
      else (s1.setLoop l { s.loopS l with lastOut := some t }).axisTarget a t
    else (s.putB (LPE_STATUS_OUT_BLOCKED l) true).setLoop l { s.loopS l with lastOut := none }
  | 4 => s.setF32 (LPE_SP_SP i) u
  | 5 =>
    let d : Nat := if f32Le 0 u ∧ f32Le u 0x3F800000#32 then (f32Round u 65536).toNat
      else if f32Finite u ∧ f32Lt 0x3F800000#32 u then 65536 else (Config.nonFinite 5 u % 65537).toNat
    s.put (PIN_PWM_DUTY_DUTY i) d
  | _ => s

/-- A slot enters FAULT (R435): the event, then SAFE_OUT to the destination. -/
def State.loopFault (s : State) (l : Fin 32) (reason : Nat) : State :=
  s.faultUnit (.slot l) reason (fun s =>
    ((s.event Ev.LOOP_FAULT l [reason, (s.loopS l).y.toNat, s.get (LPE_MODEL_VALUE l), s.get (LPE_OUT_VALUE l),
      s.get (LPE_STATUS_SUP_COUNT l)]).cause LPE_IRQ_CAUSE_FAULT).loopOut l (s.f32 (LPE_SAFE_OUT_VALUE l)))

/-- Is an index of a source or destination out of its range? -/
def srcBad (src idx : Nat) : Bool :=
  Nat.blt 8 src || ((src == 3 || src == 5 || src == 8) && Nat.blt 7 idx) || (src == 6 && Nat.blt 15 idx)
def dstBad (dst idx : Nat) : Bool :=
  Nat.blt 5 dst || (dst == 1 && Nat.blt 7 idx) || ((dst == 3 || dst == 5) && Nat.blt 15 idx)

/-- Is the configuration invalid (R432)? -/
def State.loopBad (s : State) (l : Fin 32) : Bool :=
  let div := max 1 (s.get (LPE_CFG_DIV l))
  let dst := s.get (LPE_SRC_OUT_DST l)
  let di := s.get (LPE_SRC_OUT_IDX l)
  let lo := s.f32 (LPE_OUT_MIN_VALUE l)
  let hi := s.f32 (LPE_OUT_MAX_VALUE l)
  let within := fun (a b : F32) => f32Le a lo && f32Le hi b
  Nat.blt 1024 div || Nat.ble div (s.get (LPE_CFG_PHASE l)) || srcBad (s.get (LPE_SRC_IN_SRC l)) (s.get (LPE_SRC_IN_IDX l)) || dstBad dst di ||
  f32Lt hi lo || ((dst == 1 || dst == 5) && !within 0 0x3F800000#32) || (dst == 3 && !within 0xCF000000#32 (f32OfInt 2147483647)) ||
  (s.get (LPE_SRC_IN_SRC l) == 7 && s.get (LPE_SRC_IN_IDX l) == l.val) || (dst == 4 && di == l.val) ||
  (dst != 0 && (List.finRange 32).any (fun (k : Fin 32) => k != l && s.ust (.slot k) != .off && s.get (LPE_SRC_OUT_DST k) == dst &&
    s.get (LPE_SRC_OUT_IDX k) == di)) ||
  f32Lt (s.f32 (LPE_M_TAU_VALUE l)) 0

/-- The supervisor at a sample with measurement y and output u (R433, R434). -/
def State.supervise (s : State) (l : Fin 32) (y u : F32) : State :=
  let n := s.get (LPE_M_CFG_M_N l)
  let x := s.loopS l
  let s1 := s.setLoop l { x with supStart := false, hist := if x.supStart then List.replicate 64 u else (u :: x.hist).take 64 }
  let m0 := if x.supStart then y else s.f32 (LPE_MODEL_VALUE l)
  if n = 0 then (if x.supStart then s1.setF32 (LPE_MODEL_VALUE l) y else s1).put (LPE_STATUS_SUP_COUNT l) 0
  else
    let ts := f32Div (f32OfInt (max 1 (s.get (LPE_CFG_DIV l)) : Nat)) (f32OfInt 100000)
    let al := f32Div ts (f32Add (s.f32 (LPE_M_TAU_VALUE l)) ts)
    let uh := (s1.loopS l).hist.getD (s.get (LPE_M_CFG_DT l)) u
    let m := f32Add m0 (f32Mul al (f32Sub (f32Add (s.f32 (LPE_M_OFS_VALUE l)) (f32Mul (s.f32 (LPE_M_GAIN_VALUE l)) uh)) m0))
    let out := f32Lt (s.f32 (LPE_M_WIN_VALUE l)) (f32Abs (f32Sub y m))
    let c := if out then min 65535 (s.get (LPE_STATUS_SUP_COUNT l) + 1) else 0
    let s2 := (s1.setF32 (LPE_MODEL_VALUE l) m).put (LPE_STATUS_SUP_COUNT l) c
    if out ∧ n ≤ c then s2.loopFault l 2 else s2

/-- One sample of a slot with a valid input (R426, R437). -/
def State.loopSample (s : State) (l : Fin 32) (raw : F32) : State :=
  let y := f32Add (f32Mul (s.f32 (LPE_IN_GAIN_GAIN l)) raw) (s.f32 (LPE_IN_OFS_OFS l))
  let x := s.loopS l
  if s.on (LPE_CFG_HOLD l) then (s.setLoop l { x with y := y }).supervise l y (s.f32 (LPE_OUT_VALUE l))
  else
    let sp := s.f32 (LPE_SP_SP l)
    let yf := f32Add (f32Mul (s.f32 (LPE_B0_COEF l)) y) x.z1
    let z1 := f32Add (f32Sub (f32Mul (s.f32 (LPE_B1_COEF l)) y) (f32Mul (s.f32 (LPE_A1_COEF l)) yf)) x.z2
    let z2 := f32Sub (f32Mul (s.f32 (LPE_B2_COEF l)) y) (f32Mul (s.f32 (LPE_A2_COEF l)) yf)
    let e := f32Sub sp yf
    let p := f32Mul (s.f32 (LPE_KP_GAIN l)) e
    let d := f32Mul (s.f32 (LPE_KD_GAIN l)) (f32Sub (x.yfPrev.getD yf) yf)
    let ff := f32Add (f32Mul (s.f32 (LPE_KFF_GAIN l)) sp) (s.f32 (LPE_BIAS_GAIN l))
    let di := f32Mul (s.f32 (LPE_KI_GAIN l)) e
    let i0 := s.f32 (LPE_INTEG_I l)
    let lo := s.f32 (LPE_OUT_MIN_VALUE l)
    let hi := s.f32 (LPE_OUT_MAX_VALUE l)
    let uc := f32Add (f32Add (f32Add p (f32Add i0 di)) d) ff
    let hold := (f32Lt hi uc && f32Lt 0 di) || (f32Lt uc lo && f32Lt di 0)
    let i1 := if hold then i0 else f32Add i0 di
    let u0 := f32Add (f32Add (f32Add p i1) d) ff
    let u := if f32Lt u0 lo then lo else if f32Lt hi u0 then hi else u0
    if !([raw, y, yf, z1, z2, e, p, d, ff, di, uc, i1, u0, u].all f32Finite) then (s.setLoop l { x with y := y }).loopFault l 3
    else
      let s1 := s.setLoop l { x with z1 := z1, z2 := z2, yfPrev := some yf, y := y }
      let s2 := ((((s1.setF32 (LPE_INTEG_I l) i1).setF32 (LPE_Y_VALUE l) yf).setF32 (LPE_ERR_VALUE l) e).setF32 (LPE_OUT_VALUE l) u).putB
        (LPE_STATUS_SAT l) (f32Lt u0 lo || f32Lt hi u0)
      let s3 := s2.supervise l y u
      if s3.ust (.slot l) = .on then s3.loopOut l u else s3

/-- A due sample: a slot with an invalid input is skipped (R428); a slot in STARTING enters ON at its first sample (R436). -/
def State.loopRun (s : State) (l : Fin 32) : State :=
  match s.loopIn l with
  | none =>
    let s1 := (s.putB (LPE_STATUS_IN_INVALID l) true).addSat (LPE_INVALID_COUNT_COUNT l) 1
    if (s.loopS l).invalid then s1
    else ((s1.setLoop l { s.loopS l with invalid := true }).event Ev.LOOP_INPUT_INVALID l
      [s.get (LPE_SRC_IN_SRC l), s.get (LPE_SRC_IN_IDX l), s.get (LPE_OUT_VALUE l)]).cause LPE_IRQ_CAUSE_INVALID
  | some raw =>
    let x := s.loopS l
    let rearm := x.invalid && s.on (LPE_CFG_REARM l)
    let s1 := (s.setLoop l (if rearm then { x with invalid := false, z1 := 0, z2 := 0, yfPrev := none, supStart := true }
      else { x with invalid := false })).putB (LPE_STATUS_IN_INVALID l) false
    (if rearm then s1.put (LPE_INTEG_I l) 0 else s1).loopSample l raw

/-- The start actions of a slot (R436): check R432, clear the states, then ON. -/
def State.loopStart (s : State) (l : Fin 32) : State :=
  if s.loopBad l then s.loopFault l 1
  else ((((s.setLoop l Loop.reset).put (LPE_INTEG_I l) 0).put (LPE_STATUS_SUP_COUNT l) 0).setUst (.slot l) .on)

/-- The stop actions: SAFE_OUT to the destination. -/
def State.loopStop (s : State) (l : Fin 32) : State := s.loopOut l (s.f32 (LPE_SAFE_OUT_VALUE l))

/-- Is a slot due at a base tick (R424)? -/
def State.loopDue (s : State) (l n : Nat) : Bool := n % max 1 (s.get (LPE_CFG_DIV l)) == s.get (LPE_CFG_PHASE l)

/-- One slot at a base tick. -/
def State.loopTick (n : Nat) (s : State) (l : Fin 32) : State :=
  match s.ust (.slot l) with
  | .starting =>
    if s.loopBad l then s.loopFault l 1
    else if s.loopDue l n then (s.loopStart l).loopRun l else s
  | .on => if s.loopDue l n then s.loopRun l else s
  | _ => s

/-- A base tick: every due slot in increasing number (R424). -/
def State.baseTick (s : State) : State :=
  let n := s.lpe.tick
  let s1 : State := { s with lpe := { s.lpe with tick := n + 1, temp := (List.range 8).map s.plnTemp } }
  (List.finRange 32).foldl (fun s l => s.loopTick n l) s1

def execLoopBaseTick (s : State) : Out := finish s.baseTick

/-- A write of LPE_INTEG (R437). -/
def State.integWrite (s : State) (l v : Nat) : State :=
  if s.on (LPE_CFG_HOLD l) then s.put (LPE_INTEG_I l) v else s.putB (LPE_STATUS_CMD_ERR l) true

def execLpeIntegWrite (req : Fin 6) (l : Fin 32) (v : Word) (s : State) : Out :=
  finish (s.reqWrite req (LPE_INTEG l) (fun s => (s.integWrite l v.toNat)))

/-- A firmware write of LPE_SP (R431). -/
def State.spWrite (s : State) (l v : Nat) : State :=
  if s.spDriven l then s.putB (LPE_STATUS_CMD_ERR l) true else s.put (LPE_SP_SP l) v

def execLpeSpWrite (req : Fin 6) (l : Fin 32) (v : Word) (s : State) : Out :=
  finish (s.reqWrite req (LPE_SP l) (fun s => (s.spWrite l v.toNat)))

end Sys2Proof.Machine
end

