-- ==== Sys2Proof/Machine/Heat.lean ====
section
/-!
DEFINITION. Warming of the tiles by the FH-824 (R293, R294).
-/
namespace Sys2Proof.Machine

/-- round(256 × D[q]) + OFS_t, limited to 0 to 255 (R294). -/
def State.warmDuty (s : State) (g : Nat) : Nat :=
  let q := g / 64
  let t := g % 64
  let ofs := sgn 8 (bits (s.get (PLN_WARM_OFS_OFS q (t / 4))) (8 * (t % 4) + 7) (8 * (t % 4)))
  let d := s.lpe.warm.getD q 0
  let base : Int := if s.on (PLN_WARM_CTRL_SRC q) then (if f32Finite d then f32Round d 256 else Config.nonFinite 1 d)
    else s.get (PLN_WARM_CTRL_DUTY q)
  (max 0 (min 255 (base + ofs))).toNat

/-- The WARM payload of a position. -/
def State.warmPayload (s : State) (g : Nat) : List Byte := leBytes 8 (s.warmDuty g)

/-- Send WARM to a tile whose duty differs from the value it last acknowledged, at most once per 250 µs (R294). -/
def State.warmUpdate (s : State) (p slot : Nat) : State :=
  match s.posOf p slot with
  | none => s
  | some g =>
    let c := s.ctl p slot
    let early : Bool := match c.warmCyc with | some t => decide (s.time.cyc < t + 62500) | none => false
    if early ∨ c.duty = some (s.warmDuty g) ∨ ¬ s.slotPresent p slot ∨ ¬ s.portUp p then s
    else (s.setCtl p slot { c with warmCyc := some s.time.cyc }).sendNow p slot opWARM (s.warmPayload g)

def execWarmUpdate (p slot : Fin 24) (s : State) : Out := finish (s.warmUpdate p slot)

end Sys2Proof.Machine
end

