-- ==== Sys2Proof/Machine/Net.lean ====
section
/-!
DEFINITION. The network ports, the transparent clock, and the steering of PRESS_TIME (R485 to R493).
-/
namespace Sys2Proof.Machine

/-! ### Ports (R485) -/

/-- A port's link goes up or down; a PHY that reports no 1000 Mb/s full duplex keeps it down with LINK_BAD. -/
def State.netLink (s : State) (p : Nat) (up full : Bool) : State :=
  let link := up && full
  let bad := up && !full
  let s1 := ((s.putB (NET_PORT_STATUS_LINK p) link).putB (NET_PORT_STATUS_AN_DONE p) up).putB (NET_PORT_STATUS_LINK_BAD p) bad
  if link = s.on (NET_PORT_STATUS_LINK p) ∧ bad = s.on (NET_PORT_STATUS_LINK_BAD p) then s1
  else (s1.event Ev.NET_LINK p [b2n link, b2n bad]).cause NET_IRQ_CAUSE_LINK

def execNetLinkChange (p : Fin 2) (up full : Bool) (s : State) : Out := finish (s.netLink p up full)

/-- Does a port carry frames: ON with its link up? -/
def State.netUp (s : State) (p : Fin 2) : Bool := s.ust (.net p) == .on && s.on (NET_PORT_STATUS_LINK p)

/-! ### Frames (R486, R487) -/

/-- A big-endian number from a frame. -/
def beAt (f : List Byte) (o n : Nat) : Nat := ((f.drop o).take n).foldl (fun a b => a * 256 + b.toNat) 0

/-- A number as big-endian bytes. -/
def beBytes : Nat → Nat → List Byte
  | 0, _ => []
  | n + 1, v => beBytes n (v / 256) ++ [BitVec.ofNat 8 v]

/-- Replace bytes of a frame. -/
def setAt (f : List Byte) (o : Nat) (b : List Byte) : List Byte := f.take o ++ b ++ f.drop (o + b.length)

/-- The chip's MAC address. -/
def State.mac (s : State) : List Byte := leBytes 4 (s.get NET_MAC_LO_MAC) ++ leBytes 2 (s.get NET_MAC_HI_MAC)

/-- The reserved multicast addresses 01-80-C2-00-00-00 to 0F. -/
def reservedMac (f : List Byte) : Bool := beAt f 0 5 == 0x0180C20000 && Nat.ble (beAt f 5 1) 0x0F

/-- To firmware, and to the other port (R486). -/
def State.bridges (s : State) (f : List Byte) : Bool × Bool :=
  if f.take 6 = s.mac then (true, false)
  else if reservedMac f then (true, false)
  else if bit (beAt f 0 1) 0 then (true, true)
  else (false, true)

/-- Where a PTP message stands in a frame: its offset and the UDP header's offset. PRESUMED (log 32): the layouts of Ethernet, IPv4,
IPv6, UDP and IEEE 1588 that R487 names. -/
inductive PtpAt where
  | none
  | direct (o : Nat)
  | ipv4 (o udp : Nat)
  | ipv6

def ptpAt (f : List Byte) : PtpAt :=
  let h := if beAt f 12 2 = 0x8100 then 18 else 14
  match beAt f (h - 2) 2 with
  | 0x88F7 => .direct h
  | 0x0800 =>
    let u := h + 4 * (beAt f h 1 % 16)
    if beAt f (h + 9) 1 = 17 ∧ beAt f (u + 2) 2 = 319 then .ipv4 (u + 8) u else .none
  | 0x86DD => if beAt f (h + 6) 1 = 17 ∧ beAt f (h + 42) 2 = 319 then .ipv6 else .none
  | _ => .none

/-- The frame with RT added to its correctionField, and whether the addition overflows (R487, R488): Sync and Delay_Req only. -/
def correctAt (f : List Byte) (o : Nat) (rt : Int) : Option (List Byte) × Bool :=
  if 1 < beAt f o 1 % 16 then (none, false)
  else
    let c := sgn 64 (beAt f (o + 8) 8) + rt * 65536
    if c < -(2 ^ 63 : Nat) ∨ (2 ^ 63 : Nat) ≤ c then (none, true) else (some (setAt f (o + 8) (beBytes 8 (twos 64 c))), false)

/-- A forwarded frame as it leaves (R487), with the counts of NET_TC. -/
def State.transparent (s : State) (f : List Byte) (rt : Int) : State × List Byte :=
  if !s.on NET_TC_CTRL_EN then (s, f)
  else
    let done := fun (r : Option (List Byte) × Bool) (g : List Byte → List Byte) =>
      match r with
      | (some x, _) => (s.addSat NET_TC_COUNT_COUNT 1, g x)
      | (none, true) => (s.addSat NET_TC_OVF_COUNT 1, f)
      | (none, false) => (s, f)
    match ptpAt f with
    | .none => (s, f)
    | .ipv6 => (s.addSat NET_TC_IPV6_COUNT 1, f)
    | .direct o => done (correctAt f o rt) (fun x => x)
    | .ipv4 o u => done (correctAt f o rt) (fun x => setAt x (u + 6) [0, 0])

/-- Bytes still queued on a port: frames that have not left. -/
def State.egressBytes (s : State) (p : Nat) : Nat :=
  (s.net.out.filter (fun (e : Nat × Nat × List Byte) => e.1 == p && Nat.blt s.now e.2.1)).foldl (fun a e => a + e.2.2.length) 0

/-- Queue a frame on a port; a full queue of 32 KiB drops it (R486). Frames that have left are forgotten. -/
def State.egress (s : State) (p : Fin 2) (t : Nat) (f : List Byte) : State :=
  if !s.netUp p ∨ 32768 < s.egressBytes p + f.length then s.addSat (NET_DROP_COUNT_COUNT p) 1
  else ({ s with net := { s.net with
    out := s.net.out.filter (fun (e : Nat × Nat × List Byte) => Nat.blt s.now e.2.1) ++ [(p.val, t, f)] } }).addSat (NET_TX_COUNT_COUNT p) 1

/-- A received frame, without its FCS (R486 to R488): `tIn` and `tEg` are the PRESS_TIME at which its start crosses the SGMII boundary
on ingress and, when it is forwarded, on egress, at 8 ns resolution. -/
def State.netReceive (s : State) (p : Fin 2) (f : List Byte) (fcsOk : Bool) (tIn tEg : Nat) : State :=
  if !s.netUp p then s
  else if !fcsOk ∨ 1518 < f.length then s.addSat (NET_DROP_COUNT_COUNT p) 1
  else
    let q : Fin 2 := 1 - p
    let ways := s.bridges f
    let s1 := s.addSat (NET_RX_COUNT_COUNT p) 1
    let s2 := if ways.1 then { s1 with net := { s1.net with rx := s1.net.rx ++ [(p.val, f)] } } else s1
    if ways.2 then
      let rt : Int := ((tEg / 8 * 8 : Nat) : Int) + s.get (NET_PORT_LAT_TX_LAT q) - ((tIn / 8 * 8 : Nat) - s.get (NET_PORT_LAT_RX_LAT p) : Int)
      let r := s2.transparent f rt
      r.1.egress q tEg r.2
    else s2

def execNetFrameReceived (p : Fin 2) (f : List Byte) (fcsOk : Bool) (tIn tEg : BitVec 64) (s : State) : Out :=
  finish (s.netReceive p f fcsOk tIn.toNat tEg.toNat)

/-- Firmware sends a frame; the transmit-done interrupt follows (R486, R489). -/
def State.netTransmit (s : State) (p : Fin 2) (f : List Byte) : State :=
  if !s.netUp p then s
  else
    let s1 := s.egress p s.now f
    { s1 with net := { s1.net with txDone := s1.net.txDone + 1 } }

def execNetFrameTransmit (p : Fin 2) (f : List Byte) (s : State) : Out := finish (s.netTransmit p f)

/-! ### Domain slots (R491, R492) -/

def State.domOfs (s : State) (d : Nat) : Int := s.net.ofs.getD d 0

/-- Is a slot usable? -/
def State.domUsable (s : State) (d : Nat) : Bool :=
  s.on (NET_DOM_CFG_VALID d) && !s.on (NET_DOM_CFG_LOST d) && !s.net.old.getD d false && (match s.net.stamp.getD d none with
    | some t => decide (s.time.cyc ≤ t + max 1 (s.get NET_PT_CTRL_HOLD) * 250000)
    | none => false)

/-- The active slot. -/
def State.domActive (s : State) : Option Nat := if s.on NET_PT_STATUS_ACT_VALID then some (s.get NET_PT_STATUS_ACTIVE) else none

/-- The residual in 2^-32 ns: O_a of the active slot, 0 without one. -/
def State.residual (s : State) : Int := match s.domActive with | some a => s.domOfs a | none => 0

/-- Show the residual and SLEWING. -/
def State.showResid (s : State) : State :=
  let ns := roundDiv s.residual 4294967296
  (s.putS NET_PT_RESID_NS (max (-2147483648) (min 2147483647 ns))).putB NET_PT_STATUS_SLEWING (decide (s.residual ≠ 0))

/-- Choose the active slot (R492); `why` is DOMAIN_SWITCH's cause. -/
def State.domEval (s : State) (why : Nat) : State :=
  let act := fun (s : State) (d : Nat) => ((s.put NET_PT_STATUS_ACTIVE d).putB NET_PT_STATUS_ACT_VALID true).putB NET_PT_STATUS_HOLDOVER false
  match s.domActive with
  | none => if s.domUsable 0 then (act s 0).showResid else if s.domUsable 1 then (act s 1).showResid else s.showResid
  | some a =>
    let o := 1 - a
    if s.domUsable a then s.showResid
    else if s.domUsable o then
      (((act s o).showResid.event' Ev.DOMAIN_SWITCH [o, why, twos 64 (roundDiv (s.domOfs o) 4294967296)]).cause NET_IRQ_CAUSE_SWITCH)
    else ((((s.putB NET_PT_STATUS_ACT_VALID false).putB NET_PT_STATUS_HOLDOVER true).showResid.event' Ev.HOLDOVER
      [a, s.get NET_PT_RATE_RATE]).cause NET_IRQ_CAUSE_HOLDOVER)

/-- A write of NET_DOM_OFS_HI (R491): O_d from LO and HI, stamped; LOST clears. -/
def State.domWrite (s : State) (d : Nat) (hi : Nat) : State :=
  let v := sgn 64 (hi * 2 ^ 32 + s.get (NET_DOM_OFS_LO_OFS d))
  let s1 := (s.put (NET_DOM_OFS_HI_OFS d) hi).putB (NET_DOM_CFG_LOST d) false
  ({ s1 with net := { s1.net with ofs := s1.net.ofs.set d (v * 4294967296), stamp := s1.net.stamp.set d (some s1.time.cyc), old := s1.net.old.set d false } }).domEval 2

def execNetDomOfsWrite (req : Fin 6) (d : Fin 2) (hi : Word) (s : State) : Out :=
  finish (s.reqWrite req (NET_DOM_OFS_HI d) (fun s => (s.domWrite d hi.toNat)))

/-- A write of LOST (R492). -/
def State.domLost (s : State) (d : Nat) : State := (s.putB (NET_DOM_CFG_LOST d) true).domEval 1

def execNetDomLostWrite (req : Fin 6) (d : Fin 2) (s : State) : Out :=
  finish (s.reqWrite req (NET_DOM_CFG d) (fun s => (s.domLost d)))

/-- A slot's last write has become older than NET_PT_HOLD: it is usable no more (R492). -/
def State.domExpired (s : State) (d : Nat) : State :=
  ({ s with net := { s.net with old := s.net.old.set d true } }).domEval 2

def execDomainSlotExpired (d : Fin 2) (s : State) : Out := finish (s.domExpired d)

/-! ### PRESS_TIME (R490, R493) -/

/-- The slew of one cycle in 2^-32 ns, towards a residual of 0. A residual smaller than a cycle's slew ends at 0 exactly
(DESIGN CHOICE, log 33). -/
def State.slewNow (s : State) : Int :=
  let r := s.residual
  let m : Int := (max 1 (min 250 (s.get NET_PT_CTRL_SLEW_MAX)) * 1000 * 4 * 2 ^ 32 / 10 ^ 9 : Nat)
  if 0 < r then min m r else max (-m) r

/-- One reference cycle. -/
def State.advance (s : State) : State :=
  let sl := s.slewNow
  let rate : Int := max (-200000) (min 200000 (s.getS NET_PT_RATE_RATE))
  let d : Int := 4 * 4294967296 + 4 * 4294967296 * rate / 1000000000 + sl
  let s1 : State := { s with time := { s.time with cyc := s.time.cyc + 1, pt := (s.time.pt + d.toNat) % 2 ^ 96 }
                             net := { s.net with ofs := s.net.ofs.map (fun o => o - sl) } }
  s1.showResid

def execPressTimeAdvance (s : State) : Out := finish s.advance

/-- A write of NET_PT_STEP_HI (R493). -/
def State.ptStep (s : State) (hi : Nat) : State :=
  let s1 := s.put NET_PT_STEP_HI_STEP hi
  let v := sgn 64 (hi * 2 ^ 32 + s.get NET_PT_STEP_LO_STEP)
  if s.get PGP_SCHED_STATUS_JOB_STATE = 0 then
    ({ s1 with time := { s1.time with pt := (((s1.time.pt : Int) + v * 4294967296) % ((2 ^ 96 : Nat) : Int)).toNat }
               net := { s1.net with ofs := s1.net.ofs.map (fun o => o - v * 4294967296) } }).showResid
  else ((s1.putB NET_PT_STATUS_CMD_ERR true).event' Ev.STEP_REFUSED [twos 64 v, s.get PGP_SCHED_STATUS_JOB_STATE]).cause
    NET_IRQ_CAUSE_STEP_REFUSED

def execNetPtStepWrite (req : Fin 6) (hi : Word) (s : State) : Out :=
  finish (s.reqWrite req (NET_PT_STEP_HI) (fun s => (s.ptStep hi.toNat)))

/-- A write of NET_PT_RATE stores the nearest limit (R490). -/
def State.ptRate (s : State) (v : Int) : State := s.putS NET_PT_RATE_RATE (max (-200000) (min 200000 v))

end Sys2Proof.Machine
end

