-- ==== Sys2Proof/Machine/Rst.lean ====
section
/-!
DEFINITION. Reset sources, islands, option bytes, boot and the event log (R494 to R511, R521, R543 to R548, R554).
-/
namespace Sys2Proof.Machine

/-- Change the reset state. -/
def State.setRst (s : State) (r : Rst) : State := { s with rst := r }

/-! ### The event log (R521) -/

/-- Write held log entries, oldest first, while inside the write window; the latch clears with THM_SHUTDOWN's entry. -/
def State.flushLog (s : State) : State :=
  if s.on NVM_STATUS_IN_WINDOW then
    let s1 := s.rst.log.foldl (fun (s : State) (e : Nat × Nat × Nat × List Byte) =>
      let h := s.get NVM_LOG_HEAD_INDEX
      let b := leBytes 2 e.1 ++ leBytes 2 e.2.1 ++ leBytes 4 0 ++ leBytes 8 e.2.2.1 ++ (e.2.2.2 ++ List.replicate 16 0).take 16
      let w : State := { s with mram := Mem.writes s.mram (0x00701000 + 32 * h) b }
      let w1 := w.put NVM_LOG_HEAD_INDEX ((h + 1) % 4096)
      if e.1 = Ev.THM_SHUTDOWN then w1.putB RST_VBAT_CTRL_THERM_LATCH false else w1) s
    (s1.setRst { s1.rst with log := [] }).put NVM_STATUS_LOG_HELD 0
  else s.put NVM_STATUS_LOG_HELD s.rst.log.length

/-- Log an event. -/
def State.logBytes (s : State) (code time : Nat) (p : List Byte) : State :=
  (s.setRst { s.rst with log := s.rst.log ++ [(code, s.rst.logSeq, time, p)], logSeq := (s.rst.logSeq + 1) % 65536 }).flushLog

def State.logEvent (s : State) (code : Nat) (p : List Nat) : State := s.logBytes code s.now (payloadBytes code p)

/-! ### What a reset of an island clears (R494, R497) -/

/-- The island of a unit. -/
def unitIsland : UnitId → Nat
  | .ring _ => 1
  | .port _ => 11
  | .lane _ => 11
  | .mirror => 11
  | .ctx _ => 14
  | .net _ => 16
  | _ => 15

/-- Registers that a reset of their island keeps: the VBAT domain, RST_CAUSE, RST_ISLAND and what MRAM gives. -/
def resetKeeps (a : Nat) : Bool :=
  a == RST_CAUSE || (Nat.ble (RST_ISLAND 0) a && Nat.ble a (RST_ISLAND 16)) || (Nat.ble (RST_VBAT_CNT 0) a && Nat.ble a (RST_VBAT_CNT 9)) ||
  a == RST_VBAT_CTRL || a == NVM_LOG_HEAD

/-- A driver whose chain's clock has stopped is dark (R351, R510). -/
def Bar.dark (b : Bar) : Bar :=
  { Bar.reset with drivers := b.drivers.map (fun (d : Driver) => { d with dark := true, row := none, on := List.replicate 16 0 }) }

/-- Clear the state of an island beside its registers. What lies outside the chip stays: tiles, hubs, light drivers, pin levels. -/
def State.clearIsland (s : State) (k : Nat) : State :=
  match k with
  | 0 => { s with time := { s.time with pt := 0 }, ldg := Ledger.reset, thm := Thm.reset,
                  rst := { s.rst with pins := true, wdtFrom := s.time.cyc, log := [] } }
  | 1 => { s with hif := { Hif.reset with report := s.hif.report } }
  | 2 => ({ s with press := { Press.reset with webPos := s.press.webPos, edges := s.press.edges, velWeb := s.press.velWeb,
                                               velNs := s.press.velNs, nextWeb := s.press.nextWeb }
                   cmx := List.replicate 8 none, cal := Cal.reset, time := { s.time with line := 0 } }).webPlan 0 .idle
  | 11 =>
    let s1 := s.putB PAR_STATUS_MIRROR_UP false
    { s1 with
      heads := { s1.heads with ports := List.replicate 24 Port.reset, ctl := [], ack := List.replicate 24 none, echo := List.replicate 24 none }
      lanes := List.replicate 52 Lane.reset
      mirrorUnit := 0 }
  | 12 => { s with dmc := Dmc.reset, dram := [], poison := [] }
  | 13 => { s with par := { Par.reset with authLow := s.par.authLow }, rst := { s.rst with sram := [], entry := 0 } }
  | 14 => { s with cam := Cam.reset }
  | 15 => { s with axes := s.axes.map (fun (x : Axis) => { Axis.reset with negLevel := x.negLevel, posLevel := x.posLevel })
                   web := { Web.reset with rdy := s.web.rdy, resetStop := s.web.resetStop, thermStop := s.web.thermStop }
                   enc := { Enc.reset with quads := s.enc.quads.map (fun (q : CountIn) => { CountIn.reset with a := q.a, b := q.b }) }
                   lpe := Lpe.reset, pwm := Pwm.reset, bars := s.bars.map Bar.dark }
  | 16 => { s with net := { Net.reset with ofs := s.net.ofs.map (fun _ => 0) } }
  | _ => s

/-- Show an island's reset state (RST_ISLAND): 0 RUN, 1 IN_RESET, 2 WAIT_CLK, 3 CLOCK_FAIL. -/
def State.setIsland (s : State) (k rs : Nat) : State := (s.put (RST_ISLAND_RSTATE k) rs).putB (RST_ISLAND_FENCED k) (rs != 0)

/-- Clear an island: its registers read their reset values, its units are OFF, its other state is as after reset. The pair role stays
as loaded until the option block is read again (R504). -/
def State.wipeIsland (s : State) (k : Nat) : State :=
  let role := s.get PAR_CFG_ROLE
  let s1 := (if k = 2 then s.clearIsland 2 else s)
  let s2 : State := { s1 with
    regs := s1.regs.drop (fun a => (islandOf a == k && !resetKeeps a) || (k == 1 && a == GLB_IRQ_EN))
    read := { s1.read with latch := s1.read.latch.filter (fun e => islandOf e.2.1 != k) }
    unitFaults := s1.unitFaults.filter (fun e => unitIsland e.1 != k) }
  let s3 := if k = 2 then s2 else s2.clearIsland k
  if k = 13 then s3.put PAR_CFG_ROLE role else s3

/-! ### Jobs at a reset of the page island (R500) -/

/-- Every open JOB descriptor completes ABORTED, and the JOB rings pass to OFF with ENABLE cleared. -/
def State.jobRingsAbort (s : State) : State :=
  (List.finRange 4).foldl (fun (s : State) (k : Fin 4) =>
    let s1 := ((s.ring k).opens.filter (fun d => !d.done && !d.stale)).foldl (fun (s : State) (d : OpenDesc) =>
      s.complete k d.seq (abortCode k d.op).2.1 (abortCode k d.op).1 stABORTED 0xFFFF (abortPayload k d.bits) (abortCode k d.op).2.2) s
    ((((s1.setRing k { s1.ring k with fence := none, heldDb := none }).setUst (.ring (.job k)) .off).setPend (.ring (.job k)) false).putB
      (HIF_RING_CFG_ENABLE k) false).dropFault (.ring (.job k))) s

/-! ### Outputs (R508 to R510) -/

/-- Force FIRE_AUTH_OUT, LED_BLANK, WEB_STOP and the bridges to their safe states (R509). -/
def State.forceOutputs (s : State) : State :=
  ({ (s.putB PAR_STATUS_AUTH false) with web := { s.web with resetStop := true } }).refreshWebStop

/-- Release the forced outputs to their islands. -/
def State.freeOutputs (s : State) : State := ({ s with web := { s.web with resetStop := false } }).refreshWebStop

/-- What a general pin drives: none is high impedance (R508, R510, R556). The second value is the pull-down. -/
def State.gpDrive (s : State) (n : Nat) : Option Bool × Bool :=
  let nib := bits ((s.rget (PIN_FUNC (n / 8))).toNat) (4 * (n % 8) + 3) (4 * (n % 8))
  let pd := bit nib 2
  let byDef := fun (d : Nat) => ((if d = 2 then some false else if d = 3 then some true else none), d == 1)
  if s.rst.pins then (none, false)
  else match nib % 4 with
    | 1 => (some (bit (s.get PIN_OUT_OUT) n), pd)
    | 2 =>
      if 16 ≤ n then (none, pd)
      else if !s.islandRuns 15 then byDef (s.rst.pinDef.getD n 0)
      else (some (decide (s.now / 4 % max 1 s.pwm.period < s.pwm.high.getD n 0)), pd)
    | _ => (none, pd)

/-! ### Assertion and release (R497 to R499) -/

/-- PERST_WARM of the option block in use. -/
def State.perstWarm (s : State) : Bool := bit (s.get (RST_OPT_DATA 1)) 7

/-- The islands a source resets (R497); `arg` are those named in RST_SW. -/
def State.scopeOf (s : State) (src arg : Nat) : List Nat :=
  let all := List.range 17
  match src with
  | 0 => all
  | 1 => all
  | 2 => all.drop 1
  | 3 => if s.perstWarm then all.drop 1 else [1]
  | 4 => [1]
  | 5 => [1]
  | 6 => if s.on RST_WDT_CFG_SCOPE then all.filter (fun k => k != 0 && k != 12) else [13]
  | 7 => (all.drop 1).filter (fun k => bit arg k)
  | 8 => all.drop 2
  | _ => all.filter (fun k => k != 0 && k != 12)

/-- The release order of R498. -/
def releaseOrder : List Nat := [0, 12, 1, 2, 3, 4, 5, 6, 7, 8, 9, 10, 11, 13, 14, 15, 16]

/-- The page and plane islands stay in reset on a pair chip that is neither ACTIVE nor YIELDING (R464). -/
def State.printHeld (s : State) (k : Nat) : Bool := Nat.ble 2 k && Nat.ble k 10 && s.passive

/-- Is an island held in reset whatever the clocks do: by R464, or by a MODE strap (R554)? -/
def State.heldIsland (s : State) (k : Nat) : Bool := s.printHeld k || (s.rst.strapHold && k != 0)

/-- A reset ends: RESET_DONE, its log entry (R521), the forced outputs go back to their islands (R509). -/
def State.resetDone (s : State) : State :=
  let bm := fun (t : Nat → Bool) => (List.range 17).foldl (fun a k => a + 2 ^ k * b2n (t k)) 0
  let p := [s.get RST_CAUSE_SRC, bm (fun k => s.rst.cover.contains k), bm (fun k => s.get (RST_ISLAND_RSTATE k) == 3)]
  let s1 := (s.event' Ev.RESET_DONE p).cause RST_IRQ_CAUSE_RESET_DONE
  let logged := [1, 2, 6, 8, 9].any (fun b => bit (s.get RST_CAUSE_SRC) b)
  let s2 := if logged then s1.logEvent Ev.RESET_DONE p else s1
  (s2.setRst { s2.rst with cover := [] }).freeOutputs

/-- Release the islands in order while no source is asserted (R498): each once its clock is good; the always-on island runs from its
own oscillator (R494). -/
def State.release (s : State) : Nat → State
  | 0 => s
  | n + 1 =>
    if s.rst.asserted ≠ [] then s
    else match releaseOrder.find? (fun k => s.rst.todo.contains k) with
      | none => if s.rst.cover = [] then s else s.resetDone
      | some k =>
        let next := s.setRst { s.rst with todo := s.rst.todo.filter (fun x => x != k) }
        if s.heldIsland k then (next.setIsland k 1).release n
        else if k = 0 ∨ (s.on (RST_ISLAND_CLK_GOOD k) ∧ ¬ s.rst.waitReset.contains k) then (next.setIsland k 0).release n
        else s.setIsland k 2

/-- The fuel of a release: every island once, and the end. -/
def State.releaseAll (s : State) : State := s.release 18

/-- A source asserts (R498): outputs are forced, crossings fenced, and every island of the scope enters reset. An island whose clock is
not good waits; loss of power (sources 0 and 1) clears it all the same and restarts the clocks. -/
def State.assertSource (s : State) (src arg : Nat) : State :=
  let scope := s.scopeOf src arg
  let s1 := s.noteSource src
  let s2 := if scope.any (fun k => k != 1) then s1.forceOutputs else s1
  let s3 := if scope.contains 2 ∧ ¬ scope.contains 1 then s2.jobRingsAbort else s2
  let power := Nat.ble src 1
  let s4 := scope.foldl (fun (s : State) (k : Nat) =>
    if power then ((s.wipeIsland k).setIsland k 1).putB (RST_ISLAND_CLK_GOOD k) false
    else if s.on (RST_ISLAND_CLK_GOOD k) ∨ k = 0 then (s.wipeIsland k).setIsland k 1
    else (s.setIsland k 2).setRst { s.rst with waitReset := s.rst.waitReset ++ [k] }) s3
  s4.setRst { s4.rst with asserted := if s4.rst.asserted.contains src then s4.rst.asserted else s4.rst.asserted ++ [src]
                          cover := (s4.rst.cover ++ scope).eraseDups, todo := (s4.rst.todo ++ scope).eraseDups
                          waitReset := if power then [] else s4.rst.waitReset.eraseDups }

/-- A source deasserts: once none is asserted, the islands are released. Source 8 ends by R519 alone. -/
def State.deassertSource (s : State) (src : Nat) : State :=
  (s.setRst { s.rst with asserted := s.rst.asserted.filter (fun x => x != src) }).releaseAll

def execResetAssert (src : Fin 10) (islands : BitVec 17) (s : State) : Out := finish (s.assertSource src islands.toNat)

def execResetDeassert (src : Fin 10) (s : State) : Out :=
  finish (if src.val = 8 ∨ ¬ s.rst.asserted.contains src.val then s else s.deassertSource src)

def execResetNAssert (s : State) : Out := finish (s.assertSource 2 0)

def execPeerFenceInAssert (s : State) : Out := finish (s.assertSource 9 0)

/-- PERST# (R104, R497): an FLR's act with its own reason, or with PERST_WARM every island that RESET_N resets; the report's values are
kept and the job is lost. -/
def State.perstIn (s : State) : State :=
  if s.perstWarm then
    let rep : HostReport :=
      { reason := 4, doneSeq := (List.range 4).map (fun k => s.get (HIF_RING_DONE_DONE_SEQ k)),
        evtLost := s.get HIF_EVT_LOST_COUNT, line := s.time.line, hadJob := s.press.job.isSome, lostJob := s.press.job.isSome }
    ({ s with hif := { s.hif with report := some rep } }).assertSource 3 0
  else (s.noteSource 3).flr 4

def execPerst (s : State) : Out := finish s.perstIn

/-- RST_SW (R503). A reset of the host island alone acts as the other host-island resets do (R104, R509); R103 names no reason for it, so
it leaves no report (DEDUCED, log 34). -/
def State.rstSwWrite (s : State) (v : Nat) : State :=
  if bits v 31 24 ≠ 0xA5 then s
  else
    let isl := bits v 16 1 * 2
    if isl = 0 then s
    else if isl = 2 then
      let s1 := (s.noteSource 7).flr 0
      { s1 with hif := { s1.hif with report := s.hif.report } }
    else s.assertSource 7 isl

def execSoftwareReset (req : Fin 6) (v : Word) (s : State) : Out :=
  finish (s.reqWrite req (RST_SW) (fun s => (s.rstSwWrite v.toNat)))

/-- An island's clock becomes good, or is lost (R496): a waiting island enters its reset, or is released. -/
def State.clockGood (s : State) (k : Nat) (good : Bool) (mhz : Nat) : State :=
  let s1 := (s.putB (RST_ISLAND_CLK_GOOD k) good).put (RST_ISLAND_MHZ k) mhz
  if !good then s1
  else
    let s2 := if s1.rst.waitReset.contains k then
        ((s1.wipeIsland k).setIsland k 1).setRst { (s1.wipeIsland k).rst with waitReset := s1.rst.waitReset.filter (fun x => x != k) }
      else s1
    s2.releaseAll

def execIslandClockGood (k : Fin 17) (good : Bool) (mhz : BitVec 16) (s : State) : Out := finish (s.clockGood k good mhz.toNat)

/-- RST_CLK_TIMEOUT passes: the island shows CLOCK_FAIL, and the release goes on (R498). -/
def State.clockTimeout (s : State) (k : Nat) : State :=
  if s.rst.asserted = [] ∧ releaseOrder.find? (fun x => s.rst.todo.contains x) = some k ∧ ¬ s.on (RST_ISLAND_CLK_GOOD k) ∧ k ≠ 0 then
    let p := [k, s.get (RST_ISLAND_MHZ k)]
    let s1 := (((s.setRst { s.rst with todo := s.rst.todo.filter (fun x => x != k), waitReset := s.rst.waitReset.filter (fun x => x != k) }).setIsland
      k 3).event Ev.CLOCK_FAIL k p).cause RST_IRQ_CAUSE_CLOCK_FAIL
    (s1.logEvent Ev.CLOCK_FAIL p).releaseAll
  else s

def execIslandClockTimeout (k : Fin 17) (s : State) : Out := finish (s.clockTimeout k)

/-- Power-on reset completes (R543, R554): source 0 asserts unless a rail drop already did, and deasserts with source 1; VBAT_LOST
(R511) and a shutdown found in the latch (R519) show. -/
def State.powerUp (s : State) (mode : Nat) : State :=
  let s0 := if s.rst.asserted.contains 0 ∨ s.rst.asserted.contains 1 then s else s.assertSource 0 0
  let s1 := if s0.rst.vbatGone then
      ((((s0.setRst { s0.rst with vbatGone := false }).putB RST_VBAT_CTRL_VBAT_LOST true).event' Ev.VBAT_LOST []).cause
        RST_IRQ_CAUSE_VBAT_LOST).logEvent Ev.VBAT_LOST []
    else s0
  let latch := s1.on RST_VBAT_CTRL_THERM_LATCH
  let s2 : State := if latch then
      (({ s1 with thm := { s1.thm with latchHold := true } }).setRst { s1.rst with asserted := s1.rst.asserted ++ [8] }).logBytes Ev.THM_SHUTDOWN 0
        ((List.range 16).map (Config.undefByte 0x0203))
    else s1
  let s3 := s2.setRst { s2.rst with strapHold := mode != 0, corePwr := true, asserted := s2.rst.asserted.filter (fun x => Nat.blt 1 x) }
  if latch then (s3.setIsland 0 0).setRst { s3.rst with todo := s3.rst.todo.filter (fun x => x != 0) } else s3.releaseAll

def execPowerOn (mode : Fin 4) (s : State) : Out := finish (s.powerUp mode)

def execRailDrop (core : Bool) (s : State) : Out := finish (s.assertSource (if core then 1 else 0) 0)

def execRefClkFail (s : State) : Out := finish (s.assertSource 0 0)

/-! ### Watchdog and backup domain (R502, R511) -/

/-- The watchdog expires: source 6 asserts with SCOPE. -/
def State.wdtExpire (s : State) : State := (s.setRst { s.rst with wdtFrom := s.time.cyc }).assertSource 6 0

def execWatchdogExpire (s : State) : Out := finish (if s.on RST_WDT_CFG_EN then s.wdtExpire else s)

/-- A write of RST_WDT_KICK. -/
def State.wdtKick (s : State) (v : Nat) : State :=
  if v % 256 = 0x4B then s.setRst { s.rst with wdtFrom := s.time.cyc } else s.wdtExpire

def execWatchdogKick (req : Fin 6) (v : Word) (s : State) : Out :=
  finish (s.reqWrite req (RST_WDT_KICK) (fun s => (s.wdtKick v.toNat)))

def State.clrCnt (s : State) : State := (List.range 10).foldl (fun s k => s.put (RST_VBAT_CNT_COUNT k) 0) s

def execClrCnt (req : Fin 6) (s : State) : Out :=
  finish (s.reqWrite req (RST_VBAT_CTRL) (fun s => s.clrCnt))

/-- VBAT falls below 1.8 V: counters and latch are lost; VBAT_LOST shows at the next power-on. -/
def State.vbatOut (s : State) : State :=
  (s.clrCnt.putB RST_VBAT_CTRL_THERM_LATCH false).setRst { s.rst with vbatGone := true }

def execVbatLoss (s : State) : Out := finish s.vbatOut

/-! ### Option bytes and boot (R504 to R507) -/

/-- The defaults of R505 as a block. DESIGN CHOICE (log 35): bytes the rule does not fix are those of a valid block, trims 0x80. -/
def optDefaults : List Byte :=
  let b : List Byte := [0x4F, 0x50, 0x01, 0x00, 0x45, 0x00, 0x00, 0x00] ++ List.replicate 32 0 ++ List.replicate 8 0 ++ List.replicate 8 0x80 ++
    List.replicate 4 0
  b ++ leBytes 4 (crc32c b)

/-- The first failing field of an option block (OPT_BAD): 1 MAGIC, 2 FORMAT, 3 a reserved field or a value outside the table, 4 CRC. -/
def optFail (b : List Byte) : Option Nat :=
  let x := fun (i : Nat) => (b.getD i 0).toNat
  let pcieBad := Nat.blt 5 (x 4 % 8) || x 4 % 8 == 0 || !([1, 2, 4, 8].contains (bits (x 4) 6 3))
  if x 0 ≠ 0x4F ∨ x 1 ≠ 0x50 then some 1
  else if x 2 ≠ 1 then some 2
  else if 2 ≤ x 3 ∨ pcieBad ∨ 2 < x 5 ∨ 2 ≤ x 6 ∨ x 7 ≠ 0 ∨ leNat ((b.drop 56).take 4) ≠ 0 then some 3
  else if leNat ((b.drop 60).take 4) ≠ crc32c (b.take 60) then some 4
  else none

/-- Apply PIN_DEF (R508, R556). -/
def State.applyPins (s : State) (d : List Nat) : State :=
  let nib := fun (n : Nat) => let v := d.getD n 0; (if 2 ≤ v then 1 else 0) + (if v = 1 then 4 else 0)
  let s1 := (List.range 4).foldl (fun s i =>
    s.rset (PIN_FUNC i) (BitVec.ofNat 32 ((List.range 8).foldl (fun a j => a + nib (8 * i + j) * 16 ^ j) 0))) s
  (s1.put PIN_OUT_OUT ((List.range 32).foldl (fun a n => a + (if d.getD n 0 = 3 then 2 ^ n else 0)) 0)).setRst { s1.rst with pins := false, pinDef := d }

/-- The option block is read from MRAM (R504, R505). On a pair chip the page and plane islands then stay in reset (R464). -/
def State.optLoad (s : State) (errs : List (Nat × Bool)) : State :=
  let raw := Mem.reads (mramSeen s.mram errs) 0x00700000 64
  let bad := optFail raw
  let b := if bad.isSome then optDefaults else raw
  let x := fun (i : Nat) => (b.getD i 0).toNat
  let s1 := (List.range 16).foldl (fun s i => s.put (RST_OPT_DATA i) (leNat ((b.drop (4 * i)).take 4))) s
  let s2 := ((((s1.putB RST_OPT_STATUS_OPT_BAD bad.isSome).putB RST_OPT_STATUS_LOCK (bit (x 6) 0)).putB RST_OPT_STATUS_BOOT_SRC
    (bit (x 3) 0)).putB RST_OPT_STATUS_FIRE_BLOCK bad.isSome).put PAR_CFG_ROLE (x 5)
  let d := (List.range 32).map (fun n => x (40 + n / 4) / 4 ^ (n % 4) % 4)
  let s3 := if s2.rst.pins then s2.applyPins d else s2.setRst { s2.rst with pinDef := d }
  let s4 : State := match bad with
    | none => s3
    | some k => (((s3.putB PAR_STATUS_AUTH false).event' Ev.OPT_BAD [k]).cause RST_IRQ_CAUSE_OPT_BAD).logEvent Ev.OPT_BAD [k]
  if s4.passive ∧ s4.islandRuns 2 then
    (((List.range 9).map (· + 2)).foldl (fun (s : State) (k : Nat) => (s.wipeIsland k).setIsland k 1) s4.jobRingsAbort)
  else s4

def execOptionBlockLoad (errs : List (Nat × Bool)) (s : State) : Out := finish ((s.mramErrors errs).optLoad errs)

/-- NVM_OPT_CMD (R506). -/
def State.optCmd (s : State) (v : Nat) : State :=
  if v % 256 ≠ 0xC3 then s
  else
    let b := ((List.range 16).map (fun i => leBytes 4 (s.get (NVM_OPT_STAGE_DATA i)))).flatten
    let no := fun (k : Nat) => (s.event' Ev.OPT_REFUSED [k]).cause NVM_IRQ_CAUSE_OPT_REFUSED
    if s.on RST_OPT_STATUS_LOCK then no 1
    else if leNat (b.drop 60) ≠ crc32c (b.take 60) then no 2
    else if !s.on NVM_STATUS_IN_WINDOW then no 3
    else (({ s with mram := Mem.writes s.mram 0x00700000 b }).event' Ev.OPT_WRITTEN [leNat (b.drop 60)]).cause NVM_IRQ_CAUSE_OPT_WRITTEN

def execNvmOptCmd (req : Fin 6) (v : Word) (s : State) : Out :=
  finish (s.reqWrite req (NVM_OPT_CMD) (fun s => (s.optCmd v.toNat)))

/-- RST_BOOT_DATA (R507). -/
def State.bootData (s : State) (v : Nat) : State :=
  let a := s.get RST_BOOT_ADDR_ADDR
  (s.setRst { s.rst with sram := Mem.writes s.rst.sram (4 * a) (leBytes 4 v) }).put RST_BOOT_ADDR_ADDR ((a + 1) % 2 ^ 19)

def execRstBootDataWrite (req : Fin 6) (v : Word) (s : State) : Out :=
  finish (s.reqWrite req (RST_BOOT_DATA) (fun s => (s.bootData v.toNat)))

def State.bootGo (s : State) : State := s.putB RST_BOOT_CTRL_GO true

def execGo (req : Fin 6) (s : State) : Out :=
  finish (s.reqWrite req (RST_BOOT_CTRL) (fun s => s.bootGo))

/-- The boot ROM ends (R507): `fail` is BOOT_FAIL's reason as the ROM finds it; the checks 3 and 4 are made only when LOCK is 1. With host
push it runs only after GO. -/
def State.bootEnd (s : State) (fail : Option Nat) (entry : Nat) : State :=
  if !s.islandRuns 13 ∨ (!s.on RST_OPT_STATUS_BOOT_SRC ∧ !s.on RST_BOOT_CTRL_GO) ∨ s.on RST_BOOT_CTRL_DONE then s
  else
    let start := (s.putB RST_BOOT_CTRL_DONE true).setRst { s.rst with entry := entry }
    match fail with
    | none => start
    | some r =>
      let sig := r == 3 || r == 4
      if r = 0 ∨ (sig ∧ !s.on RST_OPT_STATUS_LOCK) then start
      else (((s.putB RST_BOOT_CTRL_SIG_FAIL sig).event' Ev.BOOT_FAIL [r]).cause RST_IRQ_CAUSE_BOOT_FAIL).logEvent Ev.BOOT_FAIL [r]

def execBootComplete (fail : Option (Fin 6)) (entry : Word) (s : State) : Out := finish (s.bootEnd (fail.map (·.val)) entry.toNat)

end Sys2Proof.Machine
end

