-- ==== Sys2Proof/Machine/Thm.lean ====
section
/-!
DEFINITION. Die and board temperature, the MRAM write window, thermal shutdown (R512 to R520).
-/
namespace Sys2Proof.Machine

def State.setThm (s : State) (t : Thm) : State := { s with thm := t }
def State.dieS (s : State) (i : Nat) : DieS := s.thm.die.getD i DieS.reset
def State.setDieS (s : State) (i : Nat) (d : DieS) : State := s.setThm { s.thm with die := s.thm.die.set i d }

/-- The reading of a die sensor in 1/64 °C. -/
def State.dieT (s : State) (i : Nat) : Int := s.getS (THM_DIE_T i)

/-- Thresholds in 1/64 °C. -/
def State.thrWarn (s : State) : Int := s.getS THM_LEVEL0_WARN
def State.thrThrottle (s : State) : Int := s.getS THM_LEVEL0_THROTTLE
def State.thrShut (s : State) : Int := s.getS THM_LEVEL1_SHUT
def State.thrHyst (s : State) : Int := s.getS THM_LEVEL1_HYST

/-! ### The write window (R520) -/

/-- Enter or leave the write window. -/
def State.setWindow (s : State) (b : Bool) (t : Int) : State :=
  let s1 := ((s.putB THM_STATUS_IN_WINDOW b).putB LDG_STATUS_IN_WINDOW b).putB NVM_STATUS_IN_WINDOW b
  ((s1.event' Ev.MRAM_WINDOW [b2n b, twos 16 t]).cause THM_IRQ_CAUSE_WINDOW).flushLog.showHeld

def State.evalWindow (s : State) (t : Int) : State :=
  let w := s.on THM_STATUS_IN_WINDOW
  if !w ∧ -1152 ≤ t ∧ t ≤ 6912 then s.setWindow true t
  else if w ∧ (7040 < t ∨ t < -1280) then s.setWindow false t
  else s

/-! ### Levels (R515 to R519) -/

/-- T_die: the highest reading among the valid sensors. -/
def State.tDie (s : State) : Option Int :=
  match (List.range 24).filter (fun i => (s.dieS i).seen && !s.on (THM_DIE_BROKEN i)) with
  | [] => none
  | i :: r => some (r.foldl (fun a k => max a (s.dieT k)) (s.dieT i))

/-- Show LEVEL. -/
def State.showLevel (s : State) : State :=
  s.put THM_STATUS_LEVEL (if s.thm.shut then 3 else if s.thm.throt then 2 else if s.thm.warn then 1 else 0)

/-- T_die reaches SHUT: source 8 asserts, the latch sets, THM_SHUTDOWN is posted and logged (R518). -/
def State.thermShut (s : State) (t : Int) (sensor : Nat) : State :=
  let p := [twos 16 t, sensor, s.time.line, s.now]
  let s1 := (s.setThm { s.thm with shut := true }).putB RST_VBAT_CTRL_THERM_LATCH true
  let s2 : State := ({ s1 with web := { s1.web with thermStop := true } }).assertSource 8 0
  (((s2.refreshWebStop.event' Ev.THM_SHUTDOWN p).cause THM_IRQ_CAUSE_SHUT).logEvent Ev.THM_SHUTDOWN p)

/-- Evaluate the levels after a reading of a die sensor (R515, R516). -/
def State.evalLevels (s : State) (sensor : Nat) : State :=
  match s.tDie with
  | none =>
    if s.thm.lost then s
    else (((s.setThm { s.thm with lost := true }).putB THM_STATUS_SENSORS_LOST true).event' Ev.SENSORS_LOST []).cause THM_IRQ_CAUSE_LOST
  | some t =>
    let s0 := ((s.setThm { s.thm with lost := false }).putB THM_STATUS_SENSORS_LOST false).putS THM_STATUS_T_DIE t
    let s1 := if !s0.thm.warn ∧ s.thrWarn ≤ t then
        ((s0.setThm { s0.thm with warn := true }).event' Ev.THM_WARN [twos 16 t, sensor]).cause THM_IRQ_CAUSE_WARN
      else if s0.thm.warn ∧ t < s.thrWarn - s.thrHyst then s0.setThm { s0.thm with warn := false } else s0
    let s2 := if !s1.thm.throt ∧ s.thrThrottle ≤ t then
        ((s1.setThm { s1.thm with throt := true }).event' Ev.THM_THROTTLE [1, 1, twos 16 t]).cause THM_IRQ_CAUSE_THROTTLE
      else if s1.thm.throt ∧ t < s.thrThrottle - s.thrHyst then
        ((s1.setThm { s1.thm with throt := false }).event' Ev.THM_THROTTLE [0, 0, twos 16 t]).cause THM_IRQ_CAUSE_THROTTLE
      else s1
    let s3 := if !s2.thm.shut ∧ s.thrShut ≤ t then s2.thermShut t sensor else s2
    let s4 := if s3.thm.latchHold ∧ t < s.thrShut - s.thrHyst then (s3.setThm { s3.thm with latchHold := false }).deassertSource 8 else s3
    (s4.evalWindow t).showLevel

/-! ### Die sensors (R512, R514) -/

/-- The condition of R514 that a die reading meets. -/
def State.dieCond (s : State) (i : Nat) (changed : Bool) : Option Nat :=
  let v := s.dieT i
  let z := i / 3 * 3
  let others := [z, z + 1, z + 2].filter (fun k => k != i)
  let d := s.dieS i
  let moved := others.any (fun k => decide (128 < d.hi.getD (k % 3) 0 - d.lo.getD (k % 3) 0))
  let far := fun (a b : Int) => decide (960 < (a - b).natAbs)
  if v < -3520 ∨ 9600 < v then some 1
  else if !changed ∧ d.since + 2500000000 ≤ s.time.cyc ∧ moved then some 2
  else match others with
    | [a, b] =>
      if (s.dieS a).seen ∧ (s.dieS b).seen ∧ far v (s.dieT a) ∧ far v (s.dieT b) ∧ far (s.dieT a) (s.dieT b) = false then some 3 else none
    | _ => none

/-- A reading of a die sensor. -/
def State.readDie (slow : Bool) (s : State) (e : BitVec 16 × Nat) : State :=
  let i := e.2
  let v := e.1.toInt
  let old := s.dieS i
  let changed := !old.seen || v != s.dieT i
  let s1 := s.putS (THM_DIE_T i) v
  let z := i / 3 * 3
  -- the other sensors of the zone see this reading; a change starts this sensor's own watch again
  let s2 := [z, z + 1, z + 2].foldl (fun (s : State) (k : Nat) =>
    let d := s.dieS k
    s.setDieS k { d with lo := if d.lo = [] then [] else d.lo.set (i % 3) (min v (d.lo.getD (i % 3) v))
                         hi := if d.hi = [] then [] else d.hi.set (i % 3) (max v (d.hi.getD (i % 3) v)) }) s1
  let now := [s2.dieT z, s2.dieT (z + 1), s2.dieT (z + 2)]
  let s3 := s2.setDieS i (if changed then { seen := true, since := s.time.cyc, lo := now, hi := now, ok := old.ok }
    else { s2.dieS i with seen := true })
  let s4 := match s3.dieCond i changed with
    | some r =>
      let s4 := s3.setDieS i { s3.dieS i with ok := 0 }
      if s4.on (THM_DIE_BROKEN i) then s4
      else (((s4.putB (THM_DIE_BROKEN i) true).put (THM_DIE_REASON i) r).event Ev.SENSOR_BROKEN i [0, r]).cause THM_IRQ_CAUSE_BROKEN
    | none =>
      if !s3.on (THM_DIE_BROKEN i) ∨ !slow then s3
      else
        let n := (s3.dieS i).ok + 1
        let s4 := s3.setDieS i { s3.dieS i with ok := n }
        if 1000 ≤ n then ((s4.setDieS i { s4.dieS i with ok := 0 }).putB (THM_DIE_BROKEN i) false).put (THM_DIE_REASON i) 0 else s4
  let thr := s4.thrThrottle
  let s5 := if thr - 320 ≤ v then s4.putB (THM_DIE_FAST i) true else if v < thr - 448 then s4.putB (THM_DIE_FAST i) false else s4
  (s5.putB THM_STATUS_FAST ((List.range 24).any (fun k => s5.on (THM_DIE_FAST k)))).evalLevels i

/-! ### Thermistors and housekeeping inputs (R513, R514) -/

/-- The binary32 constants 298.15 and 273.15. -/
def f32k298 : F32 := 0x43951333#32
def f32k273 : F32 := 0x43889333#32

/-- T of R513 in binary32, °C. The logarithm is a free value (log 20). -/
def State.extTemp (s : State) (i c : Nat) : F32 :=
  let r := f32Div (f32Mul (f32OfInt (s.get (THM_EXT_BIAS_R_BIAS i) * 10 : Nat)) (f32OfInt c)) (f32Sub (f32OfInt 4095) (f32OfInt c))
  let l := Config.ln (f32Div r (f32OfInt (s.get (THM_EXT_CFG_R25 i) * 10 : Nat)))
  f32Sub (f32Div (f32OfInt 1) (f32Add (f32Div (f32OfInt 1) f32k298) (f32Div l (f32OfInt (s.get (THM_EXT_CFG_B i) : Nat))))) f32k273

/-- Rounds in succession: bad or clean. The sensor is flagged after 8 bad rounds and admitted after 1,000 clean ones. -/
def State.adcRound (s : State) (c : Nat × Nat) (bad : Bool) (fld : Fld) (kind i : Nat) : State × (Nat × Nat) :=
  let n := if bad then (c.1 + 1, 0) else (0, c.2 + 1)
  if !s.on fld ∧ 8 ≤ n.1 then
    ((((s.putB fld true).event Ev.SENSOR_BROKEN i [kind, 1]).cause THM_IRQ_CAUSE_BROKEN), (n.1, 0))
  else if s.on fld ∧ 1000 ≤ n.2 then (s.putB fld false, (0, 0))
  else (s, (min 8 n.1, min 1000 n.2))

/-- A thermistor's code. -/
def State.readExt (s : State) (e : BitVec 12 × Nat) : State :=
  let c := e.1.toNat
  let t := s.extTemp e.2 c
  let v : Int := if f32Finite t then f32Round t 64 else Config.nonFinite 6 t
  let s1 := s.putS (THM_EXT_T e.2) (if -32768 ≤ v ∧ v ≤ 32767 then v else Config.nonFinite 6 t)
  let r := s1.adcRound (s1.thm.ext.getD e.2 (0, 0)) (Nat.ble c 15 || Nat.ble 4080 c) (THM_EXT_BROKEN e.2) 1 e.2
  r.1.setThm { r.1.thm with ext := r.1.thm.ext.set e.2 r.2 }

/-- A housekeeping input's code. -/
def State.readHk (s : State) (e : BitVec 12 × Nat) : State :=
  let c := e.1.toNat
  let s1 := s.put (THM_HK_CODE e.2) c
  let r := s1.adcRound (s1.thm.hk.getD e.2 (0, 0)) (c == 0 || c == 4095) (THM_HK_BROKEN e.2) 2 e.2
  r.1.setThm { r.1.thm with hk := r.1.thm.hk.set e.2 r.2 }

/-- The slow round (R512): the sensors in index order. Readings the command does not carry leave their sensors as they are. -/
def State.slowRound (s : State) (die : List (BitVec 16)) (ext hk : List (BitVec 12)) : State :=
  let s1 := (ext.take 32).zipIdx.foldl State.readExt s
  let s2 := (hk.take 32).zipIdx.foldl State.readHk s1
  let s3 := (die.take 24).zipIdx.foldl (State.readDie true) s2
  let s4 := if s3.thm.throt then s3.addSat THM_THROTTLE_MS_MS 1 else s3
  if s4.islandRuns 15 then (List.range 8).foldl (fun (s : State) (q : Nat) => s.boardTemp q) s4 else s4

/-- A fast read: the sensors of the fast group alone. -/
def State.fastRead (s : State) (die : List (BitVec 16)) : State :=
  ((die.take 24).zipIdx.filter (fun e => s.on (THM_DIE_FAST e.2))).foldl (State.readDie false) s

def execHousekeepingSlowRound (die : List (BitVec 16)) (ext hk : List (BitVec 12)) (s : State) : Out := finish (s.slowRound die ext hk)

def execDieFastRead (die : List (BitVec 16)) (s : State) : Out := finish (s.fastRead die)

/-! ### Leaving shutdown, levels (R516, R518, R519) -/

/-- 1 ms after the shutdown reading CORE_PWR_EN goes low. -/
def execCorePwrOffTimer (s : State) : Out := finish (if s.thm.shut then s.setRst { s.rst with corePwr := false } else s)

/-- SHUT_CLR. -/
def State.shutClr (s : State) : State :=
  let resume := s.thrShut - s.thrHyst
  let below := (s.tDie.map (fun t => decide (t < resume))).getD (decide (s.getS THM_STATUS_T_DIE < resume))
  if !below then s.putB THM_CTRL_CMD_ERR true
  else if !s.thm.shut then s
  else
    let s1 : State := (s.setThm { s.thm with shut := false }).setRst { s.rst with corePwr := true }
    (({ s1 with web := { s1.web with thermStop := false } }).deassertSource 8).refreshWebStop.showLevel

def execShutClr (req : Fin 6) (s : State) : Out :=
  finish (s.reqWrite req (THM_CTRL) (fun s => s.shutClr))

/-- A write of THM_LEVEL0, or of THM_LEVEL1 (`second`). -/
def State.levelWrite (s : State) (second : Bool) (v : Nat) : State :=
  let lo := sgn 16 v
  let hi := sgn 16 (v / 65536)
  let w := if second then s.thrWarn else lo
  let t := if second then s.thrThrottle else hi
  let sh := if second then lo else s.thrShut
  let hy := if second then hi else s.thrHyst
  if s.on THM_CTRL_LOCK then s
  else if w < t ∧ t < sh ∧ sh ≤ 8320 ∧ 64 ≤ hy ∧ hy ≤ 640 then
    s.rset (if second then THM_LEVEL1 else THM_LEVEL0) (BitVec.ofNat 32 v)
  else s.putB THM_CTRL_CMD_ERR true

def execThmLevelWrite (req : Fin 6) (second : Bool) (v : Word) (s : State) : Out :=
  finish (s.reqWrite req ((if second then THM_LEVEL1 else THM_LEVEL0)) (fun s => (s.levelWrite second v.toNat)))

end Sys2Proof.Machine
end

