-- ==== Sys2Proof/Machine/Par.lean ====
section
/-!
DEFINITION. The redundant pair: mirror port, journal, lease, fire interlock, yield and self-test (R463 to R484); the take-over's
adoption of a job is in Press.lean.
-/
namespace Sys2Proof.Machine

def State.setPar (s : State) (p : Par) : State := { s with par := p }
def State.epoch (s : State) : Nat := s.get PAR_EPOCH_EPOCH
def State.paired (s : State) : Bool := s.role != 0
def State.setPState (s : State) (x : Nat) : State := s.put PAR_STATUS_PSTATE x

/-! ### The islands of a passive chip (R464) -/

/-- The page and plane islands enter reset and the link island's transmit side is emptied: the chip is passive. -/
def State.goPassive (s : State) : State :=
  if s.passive ∧ s.islandRuns 2 then
    let s1 := ((List.range 9).map (· + 2)).foldl (fun (s : State) (k : Nat) => (s.wipeIsland k).setIsland k 1) s.jobRingsAbort
    { s1 with heads := { s1.heads with ports := s1.heads.ports.map (fun (p : Port) => { p with outstanding := [], waiting := [] }) } }
  else s

/-- The page and plane islands leave reset: the chip is active. -/
def State.goActive (s : State) : State :=
  ((List.range 9).map (· + 2)).foldl (fun (s : State) (k : Nat) =>
    if s.get (RST_ISLAND_RSTATE k) = 1 ∧ ¬ s.rst.todo.contains k then s.setIsland k 0 else s) s

/-! ### Lease (R474 to R476) -/

/-- A claim succeeds: CLAIMED; the peer may be fenced (R480). -/
def State.fencePeer (s : State) : State :=
  if s.on PAR_CFG_FENCE_EN ∧ ¬ s.on PAR_STATUS_PEER_AUTH ∧ s.par.afterExpiry then s.putB PAR_STATUS_FENCED true else s

def State.claimWon (s : State) (trig : Nat) : State :=
  let s1 := ((s.setPar { s.par with claim := none, claimAt := s.time.cyc, splitPosted := false }).setPState psCLAIMED).put PAR_LEASE_HOLDER 1
  ((s1.event' Ev.LEASE_CLAIMED [s1.epoch, trig]).cause PAR_IRQ_CAUSE_LEASE).fencePeer

/-- Claim the lease (R474): 1 CLAIM, 2 AUTO_CLAIM, 3 YIELD received. -/
def State.startClaim (s : State) (trig : Nat) : State :=
  let e := max s.epoch s.par.epochSeen + 1
  let s1 := (s.put PAR_EPOCH_EPOCH e).mirrorSend (.claim e)
  if s.on PAR_STATUS_MIRROR_UP then s1.setPar { s1.par with claim := some trig } else s1.claimWon trig

/-- May the chip claim: in a pair, passive without a claim, the lease expired or never held (R475)? -/
def State.mayClaim (s : State) : Bool :=
  s.paired && (s.pstate == psUNSYNCED || s.pstate == psSTANDBY) && s.par.claim.isNone && s.par.expired

def State.claimCmd (s : State) : State := if s.mayClaim then s.startClaim 1 else s.putB PAR_STATUS_CMD_ERR true

def execClaim (req : Fin 6) (s : State) : Out :=
  finish (s.reqWrite req (PAR_CMD) (fun s => s.claimCmd))

/-- RENEW every 25 ms from the holder. -/
def execRenewTimer (s : State) : Out :=
  finish (if s.paired ∧ s.get PAR_LEASE_HOLDER = 1 then s.mirrorSend (.renew s.epoch) else s)

def execRenewReceived (epoch : Word) (s : State) : Out :=
  finish (if ¬ s.paired then s
    else
      let s1 := s.setPar { s.par with epochSeen := max s.par.epochSeen epoch.toNat }
      if s.get PAR_LEASE_HOLDER = 1 then s1
      else (s1.setPar { s1.par with lastRenew := some s.time.cyc, expired := false }).put PAR_LEASE_HOLDER 2)

/-- A CLAIM from the peer (R474): acknowledged unless the chip holds the lease; of two that cross, the higher epoch wins, then role A. -/
def State.claimIn (s : State) (e : Nat) : State :=
  let s1 := s.setPar { s.par with epochSeen := max s.par.epochSeen e }
  let ok := fun (s : State) => (s.setPar { s.par with leaseOut := some e, lastRenew := some s.time.cyc, expired := false }).put PAR_LEASE_HOLDER 2
  if !s.paired ∨ s.get PAR_LEASE_HOLDER = 1 then s1
  else if s.par.claim.isSome then
    if s.epoch < e ∨ (s.epoch = e ∧ s.role = 2) then
      ok (((s1.setPar { s1.par with claim := none }).setPState psUNSYNCED).event' Ev.LEASE_LOST [s.epoch, 2] |>.cause PAR_IRQ_CAUSE_LEASE)
    else s1
  else ok s1

def execClaimReceived (epoch : Word) (s : State) : Out := finish (s.claimIn epoch.toNat)

def execClaimAckReceived (s : State) : Out :=
  finish (match s.par.claim with
    | some t => s.claimWon t
    | none => s)

/-- YIELD from the holder: the lease expires at once, and the chip claims (R474, R483). -/
def State.yieldIn (s : State) : State :=
  if !s.paired ∨ s.get PAR_LEASE_HOLDER = 1 then s
  else
    let s1 := (s.setPar { s.par with expired := true, afterExpiry := false, lastRenew := none }).put PAR_LEASE_HOLDER 0
    if s1.mayClaim then s1.startClaim 3 else s1

def execYieldReceived (s : State) : Out := finish s.yieldIn

/-- 100 ms without RENEW. -/
def execLeaseExpired (s : State) : Out :=
  finish (if ¬ s.paired ∨ s.get PAR_LEASE_HOLDER = 1 then s
    else (s.setPar { s.par with expired := true, afterExpiry := true, lastRenew := none }).put PAR_LEASE_HOLDER 0)

def execAutoClaimDelayExpired (s : State) : Out :=
  finish (if s.on PAR_CFG_AUTO_CLAIM ∧ s.mayClaim then s.startClaim 2 else s)

/-! ### Journal (R468 to R471) -/

/-- The AXIS record. -/
def State.axisRecord (s : State) : JrnRec :=
  .axis ((List.range 16).map (fun a => let x := s.axis a
    [x.pos, s.get (MOT_AX_CFG_MODE a), s.getS (MOT_AX_GEAR_NOW_RATIO a), x.ofs, x.mRef])) (s.get MOT_WEB_STATUS_WMODE)

/-- A full resync begins: the snapshot, then live records (R470). -/
def State.startResync (s : State) : State :=
  if !s.paired ∨ s.pstate ≠ psACTIVE ∨ ¬ s.on PAR_STATUS_MIRROR_UP then s
  else
    let s0 := (s.setPar { s.par with unacked := s.par.unacked.filter (fun e => match e.2 with | .record _ => false | .regions => false | _ => true) }).addSat
      PAR_RESYNC_COUNT_COUNT 1
    let s1 := s0.mirrorSend .regions
    let s2 := s1.cal.cols.foldl (fun (s : State) (e : Nat × CalCol) => s.jrn (.trims (e.1 / 2 ^ 18) (e.1 % 2 ^ 18) [e.2.target])) s1
    let cols : List Nat := (s2.ldg.trims.map (fun (e : Nat × Int) => e.1 / 16)).eraseDups
    let s3 := cols.foldl (fun (s : State) (k : Nat) => s.jrn (.energy (k / 4096) (k % 4096) [s.trimWord (k / 4096) (k % 4096)])) s2
    let s4 := s3.jrn s3.axisRecord
    let s5 : State := match s4.press.job with
      | none => s4
      | some j =>
        let s6 := (j.pages.filter (fun (p : PageRec) => p.committed && !p.retired)).foldl (fun (s : State) (p : PageRec) =>
          s.jrn (.page p.desc j.ring p.first)) (s4.jrn (.job j.desc j.ring j.takeLine))
        -- the RETIRE records that PAGE_RETIRED waits for go out again (R472)
        let s7 := (j.pages.filter (fun (p : PageRec) => p.waitMirror.isSome && !p.retired)).foldl (fun (s : State) (p : PageRec) =>
          s.jrn (.retire p.pageId (p.waitMirror.getD 0) p.pflags)) s6
        (s7.jrn (s7.anchorRecord j)).jrn (s7.markRecord j)
    s5.setPar { s5.par with resync := some (s5.par.txLsn, 0, s5.time.cyc) }

/-- The journal has fallen behind by more than 4 MiB: a full resync follows (R471). -/
def State.lagCheck (s : State) : State := if s.jrnBehind then s.startResync else s

def execResync (req : Fin 6) (s : State) : Out :=
  finish (s.reqWrite req (PAR_CMD) (fun s => s.startResync))

def execAxisJournalTimer (s : State) : Out := finish ((s.jrn s.axisRecord).lagCheck)

/-- A LEDGER record at the standby: its own working copy follows, and MRAM by R269 and R270 (R469). A tile record counts once its last
word has come. -/
def State.ledgerIn (s : State) (a : Nat) (w : List Byte) : State :=
  let v := leNat w
  if 0x300000 ≤ a ∧ a < 0x700000 then
    let g := (a - 0x300000) / 8192
    let n0 := 32 * ((a - 0x300000) % 8192 / 8)
    let m := (List.range 32).foldl (fun (m : AMap Nat) (k : Nat) => m.put0 (nozKey g (n0 + k)) (v / 4 ^ k % 4)) s.ldg.nozzles
    let s1 := s.setLdg { s.ldg with nozzles := m }
    ((List.range 4).foldl (fun (s : State) (k : Nat) => s.forceMasks g (n0 / 8 + k) [s.maskNow g (n0 / 8 + k)]) s1).touch a none
  else if 0x10000 ≤ a ∧ a < 0x50000 then
    let one := fun (s : State) (i x : Nat) =>
      if bit x 31 then
        let e : Exc := { g := bits x 8 0, n := bits x 23 9, heater := bits x 24 24, cause := bits x 26 25 }
        let s1 := s.setLdg { s.ldg with exc := s.ldg.exc.set i e, heaters := s.ldg.heaters.set (heatKey e.g (2 * e.n + e.heater)) e.cause }
        s1.forceMasks e.g (e.n / 8) [s1.maskNow e.g (e.n / 8)]
      else s.setLdg { s.ldg with exc := s.ldg.exc.del i }
    let i := 2 * ((a - 0x10000) / 8)
    (one (one s i (v % 2 ^ 32)) (i + 1) (v / 2 ^ 32)).touch a none
  else if 0x100000 ≤ a ∧ a < 0x200000 then
    let i := (a - 0x100000) / 8
    (if bit v 27 then s.setLdg { s.ldg with sus := s.ldg.sus.set i { g := bits v 8 0, n := bits v 23 9, count := bits v 26 24, first := v / 2 ^ 32 } }
      else s.setLdg { s.ldg with sus := s.ldg.sus.del i }).touch a none
  else if 0x1000 ≤ a ∧ a < 0x9000 then
    let g := (a - 0x1000) / 64
    let s1 := s.setPar { s.par with journal := s.par.journal ++ [.ledger a w none] }
    let word := fun (k : Nat) => ((s1.par.journal.filterMap (fun r => match r with
      | .ledger b x _ => if b = recAddr g + 8 * k then some x else none
      | _ => none)).getLast?).getD (List.replicate 8 0)
    if a % 64 ≠ 56 then s1
    else
      let s2 := s1.setPar { s1.par with journal := s1.par.journal.filter (fun r => match r with
        | .ledger b _ _ => (b - 0x1000) / 64 != g
        | _ => true) }
      match loadRec ((List.range 8).map word).flatten with
      | some r => s2.setRec g r
      | none => s2
  else if 0x100 ≤ a ∧ a < 0x300 then
    if v % 2 ^ 32 + v / 2 ^ 32 = 0xFFFFFFFF ∧ s.ldg.metres ≤ v % 2 ^ 32 then
      ((s.setLdg { s.ldg with metres := v % 2 ^ 32 }).put LDG_ODOMETER_METRES (v % 2 ^ 32)).touch a none
    else s
  else s

/-- A journal record at the standby (R469): a page's records go with its RETIRE and the job's END. -/
def State.recordIn (s : State) (r : JrnRec) : State :=
  if !s.paired ∨ (s.pstate ≠ psUNSYNCED ∧ s.pstate ≠ psSTANDBY) then s
  else match r with
    | .ledger a w _ => s.ledgerIn a w
    | .retire id _ _ =>
      s.setPar { s.par with journal := s.par.journal.filter (fun x => match x with
        | .page d _ _ => dfield d 8 4 != id
        | _ => true) ++ [r] }
    | .ended _ =>
      s.setPar { s.par with journal := s.par.journal.filter (fun x => match x with
        | .trims _ _ _ => true
        | .energy _ _ _ => true
        | .axis _ _ => true
        | _ => false) ++ [r] }
    | .anchor _ _ _ _ _ _ =>
      -- the two latest anchors serve the take-over (R481)
      let old := s.par.journal.filter (fun x => recKind x == 3)
      let rest := s.par.journal.filter (fun x => recKind x != 3)
      s.setPar { s.par with journal := rest ++ old.drop (old.length - 1) ++ [r] }
    | .mark _ _ => s.setPar { s.par with journal := s.par.journal.filter (fun x => recKind x != 4) ++ [r] }
    | .axis _ _ => s.setPar { s.par with journal := s.par.journal.filter (fun x => recKind x != 8) ++ [r] }
    | _ => s.setPar { s.par with journal := s.par.journal ++ [r] }

def execJournalRecordReceived (r : JrnRec) (s : State) : Out := finish (s.recordIn r)

/-! ### The mirror port (R465 to R467) -/

/-- READY of PAR_HEALTH (R484). -/
def State.ready (s : State) : Bool :=
  s.pstate == psSTANDBY && s.par.sramOk && s.par.mramOk && s.par.loopOk && !s.par.dramUe && !s.on PAR_STATUS_POS_MISMATCH

/-- PAR_HEALTH is written and sent (R484). -/
def State.health (s : State) (ports : Nat) : State :=
  let w := b2n s.ready + 2 * b2n s.par.sramOk + 4 * b2n s.par.mramOk + 8 * b2n (!s.par.dramUe) + 256 * ports
  let s1 := (s.rset PAR_HEALTH (BitVec.ofNat 32 w)).mirrorSend (.health (BitVec.ofNat 32 w))
  if s.ready = s.on PAR_HEALTH_READY then s1 else (s1.event' Ev.HEALTH_CHANGE [w, 0]).cause PAR_IRQ_CAUSE_HEALTH

def execHealthTimer (ports : BitVec 24) (s : State) : Out := finish (if s.paired then s.health ports.toNat else s)

/-- A self-test of R484: 0 the SRAM check ends, 1 the MRAM check ends, 2 the lane loopback tests start; each lane's own test ends with a
result of its own (R536). -/
def execStandbySelfTest (test : Fin 3) (ok : Bool) (errs : List (Nat × Bool)) (s : State) : Out :=
  finish (if s.pstate = psUNSYNCED ∨ s.pstate = psSTANDBY then
      (match test.val with
        | 0 => s.setPar { s.par with sramOk := ok }
        | 1 => (s.mramErrors errs).setPar { s.par with mramOk := ok }
        | _ => s.loopTests)
    else s)

/-- A mirror packet (R466): the next LSN is accepted, any other answered NAK_WINDOW (2), a bad CRC NAK_CRC (1). It may carry the peer's
health, or a note on a full resync (R464, R470, R471). -/
def State.mirrorIn (s : State) (lsn : Nat) (crcOk : Bool) (health : Option Word) (note : Option PairNote) : State :=
  if !s.paired ∨ ¬ s.on PAR_STATUS_MIRROR_UP then s
  else if !crcOk then s.setPar { s.par with ackOut := some (lsn, 1) }
  else if lsn ≠ s.par.rxLsn then s.setPar { s.par with ackOut := some (lsn, 2) }
  else
    let s1 := s.setPar { s.par with rxLsn := (s.par.rxLsn + 1) % 4096, ackOut := some (lsn, 0) }
    let s2 := match health with
      | some w =>
        let s2 := s1.rset PAR_PEER_HEALTH w
        if bit w.toNat 0 = s1.on PAR_PEER_HEALTH_READY then s2 else (s2.event' Ev.HEALTH_CHANGE [w.toNat, 1]).cause PAR_IRQ_CAUSE_HEALTH
      | none => s1
    match note with
    | some (.resyncEnd bytes ms) =>
      if s2.pstate = psUNSYNCED then
        (((s2.setPar { s2.par with dramUe := false }).setPState psSTANDBY).event' Ev.RESYNC_DONE [bytes, ms]).cause PAR_IRQ_CAUSE_RESYNC
      else s2
    | some .resyncStart => if s2.pstate = psSTANDBY then s2.setPState psUNSYNCED else s2
    | some .unsynced => if s2.par.resync.isNone then s2.startResync else s2
    | none => s2

def execMirrorPacketReceived (lsn : BitVec 12) (crcOk : Bool) (health : Option Word) (note : Option PairNote) (s : State) : Out :=
  finish (s.mirrorIn lsn.toNat crcOk health note)

/-- Everything unacknowledged is sent again, from the oldest packet (R466). -/
def State.mirrorResend (s : State) : State := s.addSat PAR_RETRY_COUNT_COUNT s.par.unacked.length

def execMirrorAckTimeout (s : State) : Out := finish s.mirrorResend

/-- Post the PAGE_RETIRED that waits for a page's RETIRE record (R472). -/
def State.releaseRetired (s : State) (t : PageRec → Bool) : State :=
  match s.press.job with
  | none => s
  | some j => (j.pages.filter (fun p => t p && p.waitMirror.isSome && !p.retired)).foldl
      (fun (s : State) (p : PageRec) => s.postRetired p (p.waitMirror.getD 0)) s

/-- 100 ms after the loss an active chip goes SOLO (R467, R472). -/
def execSoloTimer (s : State) : Out :=
  finish (if s.paired ∧ ¬ s.on PAR_STATUS_MIRROR_UP ∧ (s.pstate = psACTIVE ∨ s.pstate = psYIELDING) then
      (s.putB PAR_STATUS_SOLO true).releaseRetired (fun _ => true)
    else s)

/-- The mirror link is lost (R467). -/
def State.mirrorDown (s : State) (lane : Nat) : State :=
  if !s.on PAR_STATUS_MIRROR_UP then s
  else
    let s1 := (((s.putB PAR_STATUS_MIRROR_UP false).setPar { s.par with downAt := some s.time.cyc, resync := none }).event' Ev.MIRROR_DOWN
      [48 + lane, s.pstate]).cause PAR_IRQ_CAUSE_MIRROR
    if s.pstate = psSTANDBY then s1.setPState psUNSYNCED else s1

def execMirrorDown (lane : Fin 4) (s : State) : Out := finish (s.mirrorDown lane)

/-- The mirror link returns (R467): sequence numbers start again, and an active chip begins a full resync (R470). -/
def State.mirrorUp (s : State) : State :=
  if !s.paired ∨ s.on PAR_STATUS_MIRROR_UP then s
  else
    let s1 := ((s.putB PAR_STATUS_MIRROR_UP true).setPar { s.par with downAt := none, txLsn := 0, rxLsn := 0, unacked := [] }).event' Ev.MIRROR_UP []
    (s1.cause PAR_IRQ_CAUSE_MIRROR).startResync

def execMirrorUp (s : State) : Out := finish s.mirrorUp

/-! ### Fire interlock (R477 to R480) -/

/-- May the chip raise FIRE_AUTH_OUT now? -/
def State.mayRaise (s : State) : Bool :=
  (!s.paired || s.pstate == psCLAIMED || s.pstate == psACTIVE) && s.on PAR_CFG_FIRE_EN && !s.web.resetStop && !s.thm.shut &&
  !s.on RST_OPT_STATUS_FIRE_BLOCK && !s.on PAR_STATUS_PEER_AUTH

/-- The JOB record of a journalled job without an END. -/
def State.openJournal (s : State) : Option (DescBits × Nat × Nat) :=
  if s.par.journal.any (fun r => recKind r == 10) then
    (match (s.par.journal.dropWhile (fun r => recKind r != 10)).filterMap (fun r => match r with
      | .job d ring line => some (d, ring, line)
      | _ => none) with
    | x :: _ => some x
    | [] => none)
  else (s.par.journal.filterMap (fun r => match r with
    | .job d ring line => some (d, ring, line)
    | _ => none)).getLast?

/-- FIRE_AUTH_OUT rises (R477); a chip in CLAIMED becomes ACTIVE, brings its peer into sync (R470) and takes over an open journalled job (R481). -/
def State.authRaise (s : State) : State :=
  if !s.mayRaise ∨ s.on PAR_STATUS_AUTH then s
  else
    let s1 := s.putB PAR_STATUS_AUTH true
    if s.paired ∧ s.pstate = psCLAIMED then
      let s2 := ((s1.setPState psACTIVE).setPar { s1.par with activeAt := s.time.cyc }).goActive.startResync
      match s2.openJournal with
      | none => s2
      | some (d, _, _) =>
        ((s2.setPar { s2.par with takeover := true }).event' Ev.TAKEOVER_START [s2.epoch, dfield d 4 4]).cause PAR_IRQ_CAUSE_TAKEOVER
    else s1

def execFireAuthRaise (s : State) : Out := finish s.authRaise

/-- SPLIT_SUSPECT. -/
def State.splitEvent (s : State) (why : Nat) : State :=
  ((s.addSat PAR_SPLIT_COUNT_COUNT 1).event' Ev.SPLIT_SUSPECT [why, s.get PAR_STATUS_PEER_AUTH]).cause PAR_IRQ_CAUSE_SPLIT

/-- FIRE_AUTH_IN changes; role B with both lines high drops its own and returns to CLAIMED (R478). -/
def State.authIn (s : State) (level : Bool) : State :=
  let s1 := (s.putB PAR_STATUS_PEER_AUTH level).setPar { s.par with authLow := if level then none else some s.time.cyc }
  if level ∧ s.role = 2 ∧ s.on PAR_STATUS_AUTH then
    let s2 := (s1.putB PAR_STATUS_AUTH false).splitEvent 1
    (if s.pstate = psACTIVE then s2.setPState psCLAIMED else s2).goPassive
  else s1

def execFireAuthInChange (level : Bool) (s : State) : Out := finish (s.authIn level)

/-- PAR_AUTH_WAIT has passed in CLAIMED without authority (R480). -/
def execSplitSuspect (s : State) : Out :=
  finish (if s.paired ∧ s.pstate = psCLAIMED ∧ ¬ s.on PAR_STATUS_AUTH ∧ ¬ s.par.splitPosted then
      ((s.setPar { s.par with splitPosted := true }).splitEvent 2).fencePeer
    else s)

def execPeerFenceEnd (s : State) : Out := finish (s.putB PAR_STATUS_FENCED false)

/-! ### Yield (R483) -/

/-- The chip yields: final MARK and RECOV, FIRE_AUTH_OUT low, YIELD, FAILOVER. -/
def State.doYield (s : State) (reason port : Nat) : State :=
  let s1 := match s.press.job with
    | none => s
    | some j =>
      let s1 := s.jrn (s.markRecord j)
      let r := match j.recovery with
        | some r => s1.jrn (.recov r.typ r.s r.e r.lRes (r.b / 65536).toNat)
        | none => s1.jrn (.recov 3 j.line j.nextTake (s1.lResOf j j.nextTake) 0)
      if r.clk = clkRunning ∨ r.clk = clkLocking then (r.setClk clkStopped).webDecel else r
  let s2 := ((s1.putB PAR_STATUS_AUTH false).mirrorSend .yielded).setPar { (s1.mirrorSend .yielded).par with handover := false, yielding := some s.time.cyc }
  ((s2.setPState psYIELDING).event' Ev.FAILOVER [reason, port]).cause PAR_IRQ_CAUSE_FAILOVER

/-- The yield is complete: UNSYNCED (R464). -/
def State.yieldDone (s : State) : State :=
  if s.pstate ≠ psYIELDING then s
  else (((((s.setPar { s.par with yielding := none, expired := true, afterExpiry := false }).setPState psUNSYNCED).put PAR_LEASE_HOLDER 0).event'
    Ev.LEASE_LOST [s.epoch, 1]).cause PAR_IRQ_CAUSE_LEASE).goPassive

def State.yieldCmd (s : State) : State := if s.pstate = psACTIVE ∧ s.paired then s.doYield 1 0xFF else s

def execYield (req : Fin 6) (s : State) : Out :=
  finish (s.reqWrite req (PAR_CMD) (fun s => s.yieldCmd))

def execYieldTimeout (s : State) : Out := finish s.yieldDone

/-- A handover yields once the web is parked, or at once when no job runs. -/
def State.handoverCheck (s : State) : State :=
  if s.par.handover ∧ s.pstate = psACTIVE then
    match s.press.job with
    | none => s.doYield 2 0xFF
    | some j =>
      (match j.recovery with
        | some r => if r.phase = 3 then s.doYield 2 0xFF else s
        | none => if s.clk = clkStopped ∧ (j.closing ∨ ¬ j.started) then s.doYield 2 0xFF else s)
  else s

/-- HANDOVER: a planned stop, then yield when the web is parked. -/
def State.handoverCmd (s : State) : State :=
  if s.pstate = psACTIVE ∧ s.paired then ((s.setPar { s.par with handover := true }).plannedStop).handoverCheck else s

def execHandover (req : Fin 6) (s : State) : Out :=
  finish (s.reqWrite req (PAR_CMD) (fun s => s.handoverCmd))

/-- AUTO_YIELD: a retired port that the peer has trained (reason 3), or 10 s of throttle with the peer ready (reason 4). -/
def State.autoYield (s : State) (port : Option (Fin 24)) : State :=
  if s.pstate ≠ psACTIVE ∨ ¬ s.paired ∨ ¬ s.on PAR_CFG_AUTO_YIELD then s
  else match port with
    | some p => if s.ust (.port p) = .retired ∧ bit (s.rget PAR_PEER_HEALTH).toNat (8 + p) then s.doYield 3 p else s
    | none => if s.thm.throt ∧ s.on PAR_PEER_HEALTH_READY then s.doYield 4 0xFF else s

def execAutoYield (port : Option (Fin 24)) (s : State) : Out := finish (s.autoYield port)

/-! ### Acknowledgements -/

/-- Messages up to and with an LSN, and the rest. -/
def ackSplit (lsn : Nat) (u : List (Nat × MirrorMsg)) : List MirrorMsg × List (Nat × MirrorMsg) :=
  if u.any (fun e => e.1 == lsn) then
    let n := u.findIdx (fun e => e.1 == lsn) + 1
    ((u.take n).map (·.2), u.drop n)
  else ([], u)

/-- An ACK on the mirror port acknowledges every message up to its LSN; a NAK sends everything again (R466, R470, R472, R483). -/
def State.mirrorAck (s : State) (lsn : Nat) (nak : Bool) : State :=
  if nak then s.mirrorResend
  else
    let r := ackSplit lsn s.par.unacked
    let s1 := s.setPar { s.par with unacked := r.2 }
    let s2 := r.1.foldl (fun (s : State) (m : MirrorMsg) => match m with
      | .record (.retire id _ _) => s.releaseRetired (fun p => p.pageId == id)
      | .yielded => s.yieldDone
      | _ => s) s1
    let pendingSnap := match s2.par.resync with
      | some (last, _, _) => s2.par.unacked.any (fun e => e.1 == (last + 4095) % 4096)
      | none => true
    if s2.par.resync.isSome ∧ pendingSnap = false then (s2.setPar { s2.par with resync := none }).putB PAR_STATUS_SOLO false else s2

def execMirrorAckReceived (lsn : BitVec 12) (nak : Bool) (s : State) : Out := finish (s.mirrorAck lsn.toNat nak)

/-- WAIT_DATA: a recovery waits for the resume conditions and the committed data is not there (R140). -/
def State.refreshWaitData (s : State) : State :=
  s.putB PGP_IRQ_CAUSE_WAIT_DATA (match s.press.job with
    | some j => (match j.recovery with
      | some r => r.phase == 3 && !j.dataReady r.lRes
      | none => false)
    | none => false)

/-- The web is parked: CLEAR_FAULT goes out and the wait for the resume conditions begins (R139, R292). -/
def State.parked (s : State) : State :=
  match s.press.job with
  | some j => (match j.recovery with
    | some r => if r.phase = 3 then s.clearJobFaults.refreshWaitData else s
    | none => s)
  | none => s

/-- A recovery or job-end move reaches standstill (R397); a handover that waits for the park yields then (R483). -/
def execWebMoveStandstill (s : State) : Out :=
  finish (((s.webStandstill.jrn s.webStandstill.axisRecord).parked).handoverCheck)

end Sys2Proof.Machine
end

