-- ==== Sys2Proof/Machine/Pages.lean ====
section
/-!
DEFINITION. Jobs and pages (04_page_path.md, R106 to R127): the checks and loads of a job take, the three JOB descriptors, prefetch
and commit, and the decompression lanes.
-/
namespace Sys2Proof.Machine

/-! ### Job checks (R24, R31, R39, R47, R55, R62, R111, R280) -/

/-- The planes whose PLN_GEOM names tiles. -/
def State.geomPlanes (s : State) : List Nat := (List.range 8).filter (fun p => s.get (PLN_GEOM_TILES p) != 0)

/-- Is an entry of PLN_TILE_MAP bad, or a repeat of an earlier entry in use? -/
def mapBad (es : List (MapEntry × Bool)) : List (Nat × Nat × Nat) :=
  (es.zipIdx.filter (fun x => !x.1.2 || Nat.blt 23 x.1.1.port || Nat.blt 23 x.1.1.slot ||
    (es.take x.2).any (fun y => y.1.port == x.1.1.port && y.1.slot == x.1.1.slot))).map (fun x => (x.1.1.g / 64, x.1.1.g % 64, 1))

/-- The entries in use as written, with their VALID bits. -/
def State.mapEntriesValid (s : State) : List (MapEntry × Bool) :=
  (s.geomPlanes.map (fun p => (mapEntries p (min 64 (s.get (PLN_GEOM_TILES p))) (s.planeMap p)).map (fun e =>
    (e, mapValid (s.rget (PLN_TILE_MAP p (e.g % 64))))))).flatten

/-- What R39, R47, R55 and R62 find wrong: plane, tile index and reason of GEOMETRY_INVALID; 0xFF names none. -/
def State.geomBad (s : State) (mode : Nat) : List (Nat × Nat × Nat) :=
  let used := s.geomPlanes
  (if used = [] then [(0xFF, 0xFF, 5)] else []) ++
  ((used.filter (fun p => Nat.blt 64 (s.get (PLN_GEOM_TILES p)))).map (fun p => (p, 0xFF, 5))) ++
  ((used.filter (fun p => p != 0 && !used.contains (p - 1))).map (fun p => (p, 0xFF, (pickOf [1, 5]).getD 1))) ++
  mapBad s.mapEntriesValid ++
  ((used.filter (fun p => p != 0 && Nat.ble (s.downWeb p) (s.downWeb (p - 1)))).map (fun p => (p, 0xFF, 2))) ++
  (if s.get PGP_LINE_PERIOD_PERIOD < minPeriod mode then [(0xFF, 0xFF, 3)] else []) ++
  (if s.get PGP_WEB_SCALE_SCALE = 0 ∨ s.get PGP_WEB_STOP_WIN_WIN ≤ s.get PGP_WEB_DEV_WIN_WIN then [(0xFF, 0xFF, 4)] else [])

/-- SCALE of a plane (R282). -/
def State.fireScale (s : State) (q mode : Nat) : Nat :=
  if s.on (PLN_FIRE_SCALE_OVERRIDE q) then s.get (PLN_FIRE_SCALE_SCALE q) else modeScale mode

/-- Does a table name two drops in an entry (R280)? -/
def twoDrop (table : Nat) : Bool := dMax table == 2

/-- T_max of R280, in ns. -/
def tMaxNs (pre dead main scale : Nat) : Nat :=
  pre + (if pre = 0 then 0 else dead) + ceilDiv (main * scale * 119375) (4096 * 100000)

/-- T_max of a plane as its registers stand. -/
def State.planeTrain (s : State) (q mode : Nat) : Nat :=
  tMaxNs (s.get (PLN_FIRE_PULSE0_PRE_NS q)) (s.get (PLN_FIRE_PULSE0_DEAD_NS q)) (s.get (PLN_FIRE_PULSE1_MAIN_NS q)) (s.fireScale q mode)

/-- TRAIN_NS of a plane: T_max, or the two-drop train (PLN_FIRE_ACTIVE). -/
def State.trainNs (s : State) (q mode : Nat) : Nat :=
  if twoDrop (s.get (PLN_DROP_TABLE_TABLE q)) then 2 * s.planeTrain q mode + s.get (PLN_FIRE_PULSE1_GAP_NS q) else s.planeTrain q mode

/-- Does the mode permit a plane's drop table (R24, R280, R281)? -/
def State.tableOk (s : State) (q mode : Nat) : Bool :=
  let t := s.get (PLN_DROP_TABLE_TABLE q)
  bits t 3 0 == 0 &&
  (List.range 4).all (fun c => bits t (4 * c + 1) (4 * c) != 0 || bits t (4 * c + 3) (4 * c + 2) == 0) &&
  (!twoDrop t || (mode == 2 && Nat.ble (s.trainNs q mode) (3 * s.jobPeriod / 1024)))

/-- C_port of R31 in bit/s, by the port's trained rate. -/
def portCapacity (rate : Nat) : Nat := match rate with | 0 => 18700000000 | 1 => 46700000000 | _ => 51000000000

/-- The ports that fail R31. -/
def State.portsOver (s : State) : List Nat :=
  (List.range 24).filter (fun p =>
    let n := (s.mapEntriesValid.filter (fun e => e.1.port == p)).length
    n != 0 && Nat.blt (portCapacity (s.port p).rate * s.get PGP_LINE_PERIOD_PERIOD) (n * 8288 * 256000000000))

/-- The reasons of R111 but 6 that hold for a JOB_START. -/
def State.jobReasons (s : State) (d : DescBits) : List Nat :=
  let mode := bits (dfield d 8 1) 1 0
  let h := dfield d 12 4
  (if s.geomBad mode = [] then [] else [1]) ++
  (if s.geomPlanes.all (fun q => s.tableOk q mode) then [] else [2]) ++
  (if s.portsOver = [] then [] else [3]) ++
  (if 1 ≤ h ∧ h ≤ 255 then [4] else []) ++
  (if s.get PGP_PAGE_AREA_SIZE_SIZE = 0 ∨ s.dramSize < (s.get PGP_PAGE_AREA_BASE_BASE + s.get PGP_PAGE_AREA_SIZE_SIZE) * 2 ^ 20 then [5] else [])

/-- Post GEOMETRY_INVALID for a refused job (R39). -/
def State.geomEvent (s : State) (mode : Nat) : State :=
  match (pickOf (List.range (s.geomBad mode).length)).bind (fun i => (s.geomBad mode)[i]?) with
  | none => s
  | some (p, t, r) => (s.event' Ev.GEOMETRY_INVALID [p, t, r]).cause PLN_IRQ_CAUSE_GEOMETRY

/-- Refuse a JOB_START (R111). -/
def State.refuseJob (s : State) (k : Nat) (d : OpenDesc) (reason : Nat) : State :=
  let s1 := if reason = 6 then s else s.geomEvent (bits (dfield d.bits 8 1) 1 0)
  let port := if reason = 3 then (pickOf s.portsOver).getD 0xFF else 0xFF
  (s1.complete k d.seq 2 Ev.JOB_REFUSED stREFUSED 0xFFFF [dfield d.bits 4 4, reason, port] true).cause PGP_IRQ_CAUSE_JOB_REFUSED

/-! ### Job take (R26, R44, R48, R121, R125, R185, R215, R249, R260, R263, R281, R282) -/

/-- One plane's registers as sampled at job take. -/
def State.samplePlane (s : State) (q mode : Nat) : PlaneCfg :=
  { tiles := s.get (PLN_GEOM_TILES q), map := s.planeMap q, mask := (List.range 128).map (fun i => s.rget (PLN_STITCH_MASK q i))
    routeDead := s.on (PLN_STITCH_CTRL_ROUTE_DEAD q), dropTable := s.get (PLN_DROP_TABLE_TABLE q)
    pre := s.get (PLN_FIRE_PULSE0_PRE_NS q), dead := s.get (PLN_FIRE_PULSE0_DEAD_NS q), mainNs := s.get (PLN_FIRE_PULSE1_MAIN_NS q)
    gap := s.get (PLN_FIRE_PULSE1_GAP_NS q), scale := s.fireScale q mode }

/-- A band in the reset state, before the job's first stream (R124). -/
def BandState.fresh (q b width : Nat) : BandState :=
  { plane := q, band := b, fb := FblcState.reset 2 width, nextLine := 0, staged := [], dead := 0, lane := none, histLost := false,
    resetNext := false, pageSeq := none, refetching := false, refTried := false }

/-- The bands of the planes in use. -/
def bandsOf (planes : List PlaneCfg) : List BandState :=
  ((planes.zipIdx).map (fun x => (List.range (bandCount x.1.tiles)).map (fun b => BandState.fresh x.2 b (bandWidth x.1.tiles b)))).flatten

/-- A of R121. -/
def stageLines (planes : List PlaneCfg) : Nat := min 256 (31457280 / max 1 (planes.foldl (fun a c => a + planeWidth c.tiles / 4) 0))

/-- The snapshot stride of R318: focus bytes of every plane and 16 bytes a plane and probe, rounded up to 4 KiB. -/
def snapStride (planes : List PlaneCfg) : Nat :=
  let used := planes.filter (fun c => c.tiles != 0)
  ceilDiv (used.foldl (fun a c => a + min 16384 (planeWidth c.tiles) / 4) 0 + 16 * used.length * 256) 4096 * 4096

/-- The job of a JOB_START descriptor on a ring. -/
def State.newJob (s : State) (ring seq : Nat) (d : DescBits) : Job :=
  let mode := bits (dfield d 8 1) 1 0
  let planes := (List.range 8).map (fun q => s.samplePlane q mode)
  { ring := ring, seq := seq, desc := d, jobId := dfield d 4 4, mode := mode
    horizon := if dfield d 12 4 = 0 then s.get PGP_COMMIT_HORIZON_LINES else dfield d 12 4
    planes := planes, webScale := s.get PGP_WEB_SCALE_SCALE, laneMask := (List.range 3).map (fun i => s.rget (DCX_LANE_MASK i))
    areaBase := s.get PGP_PAGE_AREA_BASE_BASE * 2 ^ 20, areaSize := s.get PGP_PAGE_AREA_SIZE_SIZE * 2 ^ 20
    pages := [], bands := bandsOf planes, line := 0, maxLine := 0, nextTake := List.replicate 8 0, started := false, endReason := none
    endLine := none, jobEndSeq := none, closing := false, hostLost := false, ringLeft := false, late := [0, 0, 0], lostUs := 0
    recovery := none, latencyShort := false, firstTick := 0, takeLine := s.time.line
    lastSent := List.replicate 8 0, runFrom := List.replicate 8 0 }

/-- Send one job-start load and remember that its acknowledgement is due (R215); 256 stands for a load that could not be sent. -/
def State.sendLoad (s : State) (p slot op : Nat) (payload : List Byte) : State :=
  let c := s.ctl p slot
  if s.portUp p ∧ s.slotPresent p slot then (s.setCtl p slot { c with unacked := c.unacked ++ [c.cseq] }).sendNow p slot op payload
  else s.setCtl p slot { c with unacked := c.unacked ++ [256] }

/-- The FIRE_PARAMS and DROP_TABLE payloads of a plane (R210, R281, R282). -/
def PlaneCfg.fireParams (c : PlaneCfg) (mode : Nat) : List Byte :=
  leBytes 2 c.pre ++ leBytes 2 c.dead ++ leBytes 2 c.mainNs ++ leBytes 2 c.scale ++ leBytes 2 c.gap ++ leBytes 6 (kOf mode)
def dropPayload (table : Nat) : List Byte := ((List.range 4).map (fun c => BitVec.ofNat 8 (bits table (4 * c + 3) (4 * c)))) ++ leBytes 4 0

/-- ASSIGN_ID's payload (R210). -/
def assignPayload (ident : Nat) (assigned : Bool) : List Byte := leBytes 8 (ident + 32768 * b2n assigned)

/-- HLK_SLOT_STATUS shows the identity and the ASSIGNED flag as ASSIGN_ID sends them. -/
def State.showAssign (s : State) (p slot ident : Nat) (assigned : Bool) : State :=
  (s.put (HLK_SLOT_STATUS_ID p slot) (ident % 512)).putB (HLK_SLOT_STATUS_ASSIGNED p slot) assigned

/-- The job-start loads of one tile of the job. -/
def State.loadTile (s : State) (j : Job) (e : MapEntry) : State :=
  let q := e.g / 64
  let c := j.cfg q
  let s0 := s.setCtl e.port e.slot { s.ctl e.port e.slot with unacked := [], lastClear := none, clampJob := 0, setup := [], heldLines := [], cancel := none }
  let s1 := ((((s0.sendLoad e.port e.slot opASSIGN_ID (assignPayload e.g true)).showAssign e.port e.slot e.g true).sendLoad e.port e.slot opDROP_TABLE
    (dropPayload c.dropTable)).sendLoad e.port e.slot opFIRE_PARAMS (c.fireParams j.mode)).sendLoad e.port e.slot opTHERM
    (s.thermPayload q (s.ctl e.port e.slot).decl)
  let s2 := (s1.sendLoad e.port e.slot opWARM (s.warmPayload e.g)).sendLoad e.port e.slot opMASK_LOAD
    (maskPayload 0 ((List.range 4096).map (fun i => s.ldg.masks.get (colKey e.g i) 0xFF)))
  ((List.range 16).foldl (fun s i => s.sendLoad e.port e.slot opTRIM_LOAD (s.trimPayload e.g (256 * i) 256)) s2).showSlot e.port e.slot

/-- ASSIGN_ID with ASSIGNED = 0 to every present tile that no entry in use names (R185). -/
def State.unassignOthers (s : State) : State :=
  (s.presentSlots.filter (fun x => (s.posOf x.1 x.2).isNone)).foldl
    (fun s x => (s.sendNow x.1 x.2 opASSIGN_ID (assignPayload 0x1FF false)).showAssign x.1 x.2 0x1FF false) s

/-- What calibration samples at job take (R318, R320 rule 9). Snapshots and settle lines belong to the job they were made in (DEDUCED,
log 37). -/
def State.calTake (s : State) (planes : List PlaneCfg) : State :=
  (s.setCal { s.cal with
    vol := (List.range 8).map (fun q => s.rget (CAL_PT_VOL q)), snapBase := s.get CAL_PT_SNAP_BASE_VALUE * 2 ^ 20
    snapLines := s.get CAL_PT_SNAP_LINES_VALUE, snaps := [], snapNext := 0, overrunPosted := false, seenJ := List.replicate 16 none, prev := s.cal.prev.map (fun x => (x.1, 0))
    cols := s.cal.cols.map (fun e => (e.1, { e.2 with settle := 0 })) }).put CAL_PT_SNAP_STRIDE_VALUE (snapStride planes)

/-- Show the next job line of plane 0 (PGP_JOB_LINE). -/
def State.showLine (s : State) (x : Nat) : State := (s.put PGP_JOB_LINE_LO_LINE (x % 2 ^ 32)).put PGP_JOB_LINE_HI_LINE (x / 2 ^ 32)

/-- Open a job (R65, R106, R111): sample, show, check every tile against its record, rebuild the dead-column list and send the loads. -/
def State.openJob (s : State) (ring seq : Nat) (d : DescBits) : State :=
  let j := s.newJob ring seq d
  let s1 := ((((({ s with press := { s.press with lastMode := j.mode }, enc := { s.enc with sel := s.get ENC_MASTER_SEL_SEL }
                          web := { s.web with limitPosted := false } }).setJob j).put PGP_SCHED_STATUS_JOB_STATE jsCommit).put
    PGP_SCHED_STATUS_RING ring).put PGP_SCHED_STATUS_MODE j.mode).put PGP_SCHED_STATUS_RECOV_PHASE 0
  let s2 := (((s1.crossBase.putB HIF_WIN_CTRL_WR_EN false).put DCX_STAGE_LINES_A (stageLines j.planes)).calTake j.planes).showOffsets j.mode s.jobPeriod
  let s3 := j.used.foldl (fun s q => (s.put (PLN_FIRE_ACTIVE_SCALE q) (j.cfg q).scale).put (PLN_FIRE_ACTIVE_TRAIN_NS q) (s.trainNs q j.mode)) s2
  let s4 := (s3.entries.foldl (fun s e => s.checkTile e) s3).rebuildDead s.jobPeriod true
  let s5 := (s4.entries.foldl (fun s e => s.loadTile j e) s4).unassignOthers.clearJobFaults
  let s6 := (List.range 8).foldl (fun s q => s.barTake q j.mode s.jobPeriod) s5
  (s6.showLine 0).jrn (.job d ring s.time.line)

/-- Is a JOB ring ON and is its next descriptor a JOB_START (R106)? -/
def State.jobHead (s : State) (k : Nat) : Bool :=
  s.ust (.ring (.job (Fin.ofNat 4 k))) == .on && (match s.head k with | some d => d.op == 0x10 | none => false)

/-- A JOB_START at the head of a ring: the job is opened or refused (R106, R111); inside an open job of its own ring it is refused
with reason 6. No job is taken before the ledger is READY (R271). -/
def State.jobStart (s : State) (k : Nat) : State :=
  match s.head k with
  | none => s
  | some d =>
    if !s.jobHead k || !s.islandRuns 2 then s
    else match s.press.job with
      | some j => if j.ring = k ∧ j.jobEndSeq.isNone then (s.take k d.seq).refuseJob k d 6 else s
      | none =>
        if !s.on LDG_STATUS_READY || (List.range k).any (fun r => s.jobHead r) then s
        else match pickOf (s.jobReasons d.bits) with
          | some r => (s.take k d.seq).refuseJob k d r
          | none => (s.startDesc k d.seq).openJob k d.seq d.bits

def execJobStart (k : Fin 4) (s : State) : Out := finish (s.jobStart k)

/-! ### Commit and refusal (R112, R117) -/

/-- The stream of a band in a page. -/
def PageRec.stream (p : PageRec) (q b : Nat) : Option PageStream := p.streams.find? (fun t => t.plane == q && t.band == b)

/-- Change a band's stream in a page. -/
def PageRec.updStream (p : PageRec) (q b : Nat) (f : PageStream → PageStream) : PageRec :=
  { p with streams := p.streams.map (fun t => if t.plane = q ∧ t.band = b then f t else t) }

/-- Post PAGE_COMMITTED when NOTIFY is 1 (R147); the descriptor stays open. -/
def State.pageCommitted (s : State) (j : Job) (p : PageRec) : State :=
  match s.desc j.ring p.seq with
  | none => s
  | some d => if d.notify ∧ ¬ d.stale then s.evtPost (s.entry 2 Ev.PAGE_COMMITTED j.ring stOK p.seq 0xFFFF [p.pageId, p.user]) else s

/-- Commit, in order, every page whose streams are all resident and whose predecessors are committed (R117). -/
def State.commitPages (s : State) : List PageRec → State
  | [] => s
  | p :: r =>
    if p.retired ∨ p.committed then s.commitPages r
    else if p.reads = [] then
      match s.press.job with
      | none => s
      | some j =>
        (((s.setJob (j.updPage p.seq (fun x => { x with committed := true }))).jrn
          (.page p.desc j.ring p.first)).pageCommitted j p).commitPages r
    else s

/-- Commit what can be committed; a recovery may cease to wait for data. -/
def State.commit (s : State) : State :=
  match s.press.job with
  | none => s
  | some j => (s.commitPages j.pages).refreshWaitData

/-- The end of the pages before one. -/
def Job.endBefore (j : Job) (seq : Nat) : Nat :=
  (j.pages.takeWhile (fun x => x.retired || x.seq != seq)).foldl (fun a x => max a x.stop) 0

/-- Refuse a page that is in the job's list (R112): it completes, and the job ends at the line after the pages before it. -/
def State.refusePage (s : State) (p : PageRec) (reason plane band : Nat) : State :=
  match s.press.job with
  | none => s
  | some j =>
    let line := j.endBefore p.seq
    ((s.decidePage p.seq ⟨Ev.PAGE_REFUSED, stREFUSED, [p.pageId, reason, plane, band]⟩).cause PGP_IRQ_CAUSE_PAGE_REFUSED).endJobAt 1 line

/-! ### PAGE and JOB_END (R106, R110 to R114, R564) -/

/-- The reasons 1 to 3 of R112 that hold for a PAGE after a line. -/
def pageReasons (d : DescBits) (mode prev : Nat) : List Nat :=
  (if bits (dfield d 4 4) 19 18 = mode then [] else [1]) ++
  (if bits (dfield d 4 4) 17 0 = 0 then [2] else []) ++
  (if bit (dfield d 1 1) 2 then (if dfield d 16 5 = 0 then [] else [3]) else (if dfield d 16 5 < prev then [3] else []))

/-- A PAGE inside its open job. -/
def State.pageIn (s : State) (j : Job) (d : OpenDesc) : State :=
  let s1 := s.take j.ring d.seq
  if j.endReason.isSome then s1.pageAborted j.ring d
  else
    let prev := j.pages.foldl (fun a p => max a p.stop) 0
    let p := newPage d.seq d.bits (pageFirst d.bits prev)
    match pickOf (pageReasons d.bits j.mode prev) with
    | some r => (s1.setJob { j with pages := j.pages ++ [p] }).refusePage p r 0xFF 0xFF
    | none => s1.setJob { j with pages := j.pages ++ [p] }

/-- The descriptor at the head of a JOB ring that is ON, when it has an opcode. -/
def State.jobDesc (s : State) (k op : Nat) : Option OpenDesc :=
  if s.ust (.ring (.job (Fin.ofNat 4 k))) == .on && s.islandRuns 2 then (s.head k).filter (fun d => d.op == op) else none

/-- A PAGE at the head of a ring. -/
def State.page (s : State) (k : Nat) : State :=
  match s.jobDesc k 0x11 with
  | none => s
  | some d =>
    match s.press.job with
    | none => ((s.take k d.seq).complete k d.seq 2 Ev.PAGE_REFUSED stREFUSED 0xFFFF [dfield d.bits 8 4, 9, 0xFF, 0xFF] true).cause
        PGP_IRQ_CAUSE_PAGE_REFUSED
    | some j => if j.ring = k ∧ j.jobEndSeq.isNone then s.pageIn j d else s

def execPage (k : Fin 4) (s : State) : Out := finish (s.page k)

/-- A JOB_END at the head of a ring. -/
def State.jobEnd (s : State) (k : Nat) : State :=
  match s.jobDesc k 0x12 with
  | none => s
  | some d =>
    match s.press.job with
    | none => (s.take k d.seq).complete k d.seq 2 Ev.JOB_ENDED stREFUSED 0xFFFF [0, 0, 7, 0, 0, 0, 0] true
    | some j =>
      if j.ring = k ∧ j.jobEndSeq.isNone then
        ((s.startDesc k d.seq).setJob { j with jobEndSeq := some d.seq }).refreshWaitData
      else s

def execJobEnd (k : Fin 4) (s : State) : Out := finish (s.jobEnd k)

/-! ### Prefetch (R109, R116, R118, R119) -/

/-- The room a stream takes: whole 64-byte blocks (R443). -/
def streamRoom (len : Nat) : Nat := ceilDiv len 64 * 64

/-- A stream's bytes with the rest of its last block filled with 0 (R443). -/
def streamBlocks (bs : List Byte) : List Byte := bs ++ List.replicate (streamRoom bs.length - bs.length) 0

/-- The places in the page area that streams hold. -/
def Job.held (j : Job) : List (Nat × Nat) :=
  ((j.pages.map (fun p => p.streams.filterMap (fun t => if t.released then none else t.dram.map (fun a => (a, streamRoom t.len))))).flatten)

/-- The lowest 64-byte-aligned place in the page area with room for a stream (R443; DESIGN CHOICE, log 38). -/
def Job.place (j : Job) (bytes : Nat) : Option Nat :=
  let held := j.held
  let len := streamRoom bytes
  let fits := fun (a : Nat) => Nat.ble (a + len) (j.areaBase + j.areaSize) && held.all (fun h => Nat.ble (a + len) h.1 || Nat.ble (h.1 + h.2) a)
  match ((j.areaBase :: held.map (fun h => h.1 + h.2)).filter fits) with
  | [] => none
  | a :: r => some (r.foldl min a)

/-- The page whose prefetch is under way: the first with reads to make. -/
def Job.fetching (j : Job) : Option PageRec := j.pages.find? (fun p => !p.retired && p.reads != [])

/-- Give the next read of a page, when it is a stream, its place; without room prefetch waits (R118). -/
def State.seekRoom (s : State) (seq : Nat) : State :=
  s.updJob (fun j =>
    match (j.pages.find? (fun p => p.seq == seq && !p.retired)).bind (fun p => p.reads.head?.map (fun r => (p, r))) with
    | none => j
    | some (p, r) =>
      match r.kind with
      | .stream =>
        (match p.stream r.plane r.band with
          | none => j
          | some t =>
            if t.dram.isSome then j
            else match j.place t.len with
              | some a => j.updPage seq (fun p => { p.updStream r.plane r.band (fun t => { t with dram := some a }) with waitRoom := false })
              | none => j.updPage seq (fun p => { p with waitRoom := true }))
      | _ => j)

/-- A read failed or its data failed the CRC: it is made once more, and a second failure refuses the page (R116). -/
def State.readFailed (s : State) (p : PageRec) (r : PageRead) (reasons : List Nat) : State :=
  if r.retried then s.refusePage p ((pickOf reasons).getD 6) r.plane r.band
  else s.updJob (fun j => j.updPage p.seq (fun p => { p with reads := { r with retried := true } :: p.reads.drop 1 }))

/-- The planes whose band table address breaks R112 reason 8. -/
def dirBad (j : Job) (bs : List Byte) : List Nat := j.used.filter (fun q => leAt bs (8 * q) 8 == 0 || leAt bs (8 * q) 8 % 16 != 0)

/-- The band directory has come: the tables are read next. -/
def State.dirIn (s : State) (p : PageRec) (bs : List Byte) : State :=
  match s.press.job with
  | none => s
  | some j =>
    match dirBad j bs with
    | q :: _ => s.refusePage p 8 q 0xFF
    | [] => s.setJob (j.updPage p.seq (fun p => { p with reads := j.used.map (fun q =>
        { kind := .table, plane := q, band := 0xFF, host := leAt bs (8 * q) 8, retried := false }) }))

/-- The streams a band table names. -/
def tableStreams (q tiles : Nat) (bs : List Byte) : List PageStream :=
  (List.range (bandCount tiles)).map (fun b =>
    { plane := q, band := b, host := leAt bs (16 * b) 8, len := leAt bs (16 * b + 8) 4, crc := leAt bs (16 * b + 12) 4, dram := none, bad := false
      released := leAt bs (16 * b + 8) 4 == 0 })

/-- A band table has come; after the last of them the streams are read in order (R116). A page that needs more than the whole area is
refused (R118). -/
def State.tableIn (s : State) (p : PageRec) (r : PageRead) (bs : List Byte) : State :=
  match s.press.job with
  | none => s
  | some j =>
    let ts := p.streams ++ tableStreams r.plane (j.cfg r.plane).tiles bs
    if p.reads.length = 1 then
      if j.areaSize < ts.foldl (fun a t => a + streamRoom t.len) 0 then (s.setJob (j.updPage p.seq (fun p => { p with streams := ts }))).refusePage p 7 0xFF 0xFF
      else
        ((s.setJob (j.updPage p.seq (fun p => { p with streams := ts, reads := (ts.filter (fun t => t.len != 0)).map (fun t =>
          { kind := .stream, plane := t.plane, band := t.band, host := t.host, retried := false }) }))).seekRoom p.seq).commit
    else s.setJob (j.updPage p.seq (fun p => { p with streams := ts, reads := p.reads.drop 1 }))

/-- Does a stream's header pass the checks of R46, R112 and R149? -/
def streamOk (p : PageRec) (width : Nat) (bs : List Byte) : Bool :=
  match parseHeader bs with
  | .error _ => false
  | .ok h => h.symw == 2 && h.width == width && h.lines == p.lines

/-- What R116 finds in a stream's data: 4 the header, 5 the CRC. -/
def Job.streamFaults (j : Job) (p : PageRec) (t : PageStream) (bs : List Byte) : List Nat :=
  (if streamOk p (bandWidth (j.cfg t.plane).tiles t.band) bs then [] else [4]) ++ (if crc32c bs = t.crc then [] else [5])

/-- A stream has come: it goes into the page area, or is fetched again, or refuses the page (R116, R117). -/
def State.streamIn (s : State) (p : PageRec) (r : PageRead) (bs : List Byte) : State :=
  match s.press.job, p.stream r.plane r.band with
  | some j, some t =>
    match j.streamFaults p t (bs.take t.len) with
    | [] =>
      (((s.dramWrite (t.dram.getD 0) (streamBlocks (bs.take t.len)) []).setJob (j.updPage p.seq (fun p =>
        { p with reads := p.reads.drop 1 }))).seekRoom p.seq).commit
    | [4] => s.refusePage p 4 r.plane r.band
    | fs => s.readFailed p r fs
  | _, _ => s

/-- A read of prefetch ends (R116). -/
def State.fetched (s : State) (res : ReadResult) : State :=
  match s.press.job.bind Job.fetching with
  | none => s
  | some p =>
    match p.reads with
    | [] => s
    | r :: _ =>
      if p.waitRoom then s
      else match res with
        | .failed _ => s.readFailed p r [6]
        | .ok bs =>
          match r.kind with
          | .dir => s.dirIn p bs
          | .table => s.tableIn p r bs
          | .stream => s.streamIn p r bs

/-! ### Bands (R122 to R127, R166) -/

/-- Change one band. -/
def Job.updBand (j : Job) (q b : Nat) (f : BandState → BandState) : Job :=
  { j with bands := j.bands.map (fun x => if x.plane = q ∧ x.band = b then f x else x) }

/-- The pages whose data the lanes may use, in order. -/
def Job.livePages (j : Job) : List PageRec := j.pages.filter (fun p => p.committed && (!p.retired || p.cleared))

/-- Pass over what needs no decoding: pages before the next line, and pages in which the band is blank, after which the state is the
reset state (R124). -/
def BandState.pass (b : BandState) : List PageRec → BandState
  | [] => b
  | p :: r =>
    if p.stop ≤ b.nextLine then b.pass r
    else match p.stream b.plane b.band with
      | some t => if t.len = 0 then ({ b with nextLine := p.stop, resetNext := true, histLost := false }).pass r else b
      | none => b

/-- The page whose stream a band decodes next. -/
def BandState.nextPage (b : BandState) (ps : List PageRec) : Option PageRec := (ps.filter (fun p => Nat.blt b.nextLine p.stop)).head?

/-- Lines of a band that remain in the committed data. -/
def BandState.remaining (b : BandState) (ps : List PageRec) : Nat :=
  ps.foldl (fun a p => match p.stream b.plane b.band with
    | some t => if t.len = 0 ∨ p.stop ≤ b.nextLine then a else a + (p.stop - max p.first b.nextLine)
    | none => a) 0

/-- Is a band eligible for a lane (R123)? While a recovery waits with the clock stopped, any free line makes it so: R140 asks for A
staged lines, which the 32-line rule alone would leave out of reach (DEDUCED, log 39). -/
def BandState.eligible (b : BandState) (ps : List PageRec) (a : Nat) (waits : Bool) : Bool :=
  let free := a - b.staged.length
  b.lane.isNone && !b.refetching && free != 0 && (b.nextPage ps).isSome &&
  (Nat.ble 32 free || Nat.ble (b.remaining ps) free || waits)

/-- Slack of a band (R123). -/
def BandState.slack (b : BandState) (take : Nat) : Int := (b.nextLine : Int) - 1 - take

/-- The eligible band with the least slack; ties to the lower plane, then the lower band. -/
def Job.pickBand (j : Job) (a : Nat) (waits : Bool) : Option BandState :=
  match j.bands.filter (fun b => b.eligible j.livePages a waits) with
  | [] => none
  | b :: r => some (r.foldl (fun x y => if y.slack (j.nextTake.getD y.plane 0) < x.slack (j.nextTake.getD x.plane 0) then y else x) b)

/-- A decode error (R126): from the line of the fault to the end of the page the band prints code 0. -/
def State.decodeError (s : State) (q b : Nat) (p : PageRec) (line bitOff : Nat) : State :=
  ((((s.updJob (fun j => (j.updBand q b (fun x => { x with
      fb := FblcState.reset 2 x.fb.width, nextLine := p.stop, dead := p.stop, lane := none, histLost := true, resetNext := true
      refetching := false, refTried := false })).updPage p.seq (fun p =>
        ((p.flag pfDEFECTIVE).flag pfDECODE_ERR).updStream q b (fun t => { t with released := true })))).addSat DCX_DECODE_ERR_COUNT_COUNT 1).event'
    Ev.DECODE_ERROR [q, b, line, bitOff])).cause DCX_IRQ_CAUSE_DECODE_ERROR

/-- A poisoned read of page data (R127): the lines of the assignment are discarded, the saved state stays, and the stream is fetched
again. -/
def State.streamPoison (s : State) (q b : Nat) (p : PageRec) (addr : Nat) : State :=
  (((s.updJob (fun j => j.updBand q b (fun x => { x with lane := none, refetching := true, refTried := false, pageSeq := some p.seq }))).addSat
      DCX_POISON_COUNT_COUNT 1).event'
    Ev.STREAM_POISON [q, b, p.pageId, addr]).cause DCX_IRQ_CAUSE_POISON

/-- A stream is fetched again after poison (R127): once more on a failure, then a decode error at the first line not staged, when the band
reaches it. -/
def State.refetched (s : State) (q b : Nat) (res : ReadResult) : State :=
  match s.press.job with
  | none => s
  | some j =>
    match (j.bands.find? (fun x => x.plane == q && x.band == b && x.refetching)).bind (fun x =>
        (j.pages.find? (fun p => some p.seq == x.pageSeq && !p.retired)).bind (fun p => (p.stream q b).map (fun t => (x, p, t)))) with
    | none => s
    | some (x, p, t) =>
      let good := match res with
        | .failed _ => none
        | .ok bs => if j.streamFaults p t (bs.take t.len) = [] then some (bs.take t.len) else none
      match good with
      | some bs =>
        let j1 := j.updPage p.seq (fun p => p.updStream q b (fun t => { t with dram := none }))
        let a := (j1.place t.len).getD (t.dram.getD 0)
        (s.dramWrite a (streamBlocks bs) []).setJob ((j1.updPage p.seq (fun p => p.updStream q b (fun t => { t with dram := some a }))).updBand q b
          (fun x => { x with refetching := false, refTried := false }))
      | none =>
        if x.refTried then
          if (x.nextPage j.livePages).map (·.seq) = some p.seq then s.decodeError q b p (max x.nextLine p.first) x.fb.bitPos
          else s.setJob ((j.updPage p.seq (fun p => p.updStream q b (fun t => { t with bad := true }))).updBand q b
            (fun x => { x with refetching := false, refTried := false }))
        else s.setJob (j.updBand q b (fun x => { x with refTried := true }))

def execPageStreamFetched (refetch : Option (Fin 8 × Fin 16)) (res : ReadResult) (s : State) : Out :=
  finish (match refetch with
    | none => s.fetched res
    | some (q, b) => s.refetched q b res)

/-- Room was released in the page area: waiting prefetch goes on (R118). -/
def State.areaRoom (s : State) : State :=
  match s.press.job.bind Job.fetching with
  | none => s
  | some p => if p.waitRoom then s.seekRoom p.seq else s

def execPageAreaRoom (s : State) : Out := finish s.areaRoom

/-! ### Lanes (R123 to R125) -/

/-- May a lane take an assignment: selected at job start, and free? -/
def Job.laneFree (j : Job) (l : Nat) : Bool :=
  bit (j.laneMask.getD (l / 32) 0).toNat (l % 32) && j.bands.all (fun b => b.lane != some l)

/-- Is a recovery waiting with the clock stopped? -/
def State.recoveryWaits (s : State) (j : Job) : Bool := j.recovery.isSome && s.clk != clkRunning

/-- Pass every band of the job over blank pages. -/
def Job.passBlank (j : Job) : Job := { j with bands := j.bands.map (fun b => if b.lane.isSome ∨ b.fb.inStream then b else b.pass j.livePages) }

/-- A lane takes a band (R123, R124); a saved state whose CHECK fails is a decode error at its line (R166). -/
def State.laneTake (s : State) (l : Nat) (checkOk : Bool) : State :=
  match s.press.job with
  | none => s
  | some j0 =>
    let j := j0.passBlank
    if !s.islandRuns 2 || j.closing || !j.laneFree l then s
    else match j.pickBand (s.get DCX_STAGE_LINES_A) (s.recoveryWaits j) with
      | none => s
      | some b =>
        match checkOk, b.nextPage j.livePages with
        | false, some p => (s.setJob j).decodeError b.plane b.band p (p.first + b.fb.line) b.fb.bitPos
        | _, _ => s.setJob (j.updBand b.plane b.band (fun x => { x with lane := some l }))

def execLaneAssignmentStart (lane : Fin 96) (checkOk : Bool) (s : State) : Out := finish (s.laneTake lane checkOk)

/-- How a run of a lane on a band goes on: with the band as it is now; or it ended with a poisoned read or a decode error. -/
inductive LaneRun where
  | good (b : BandState)
  | poisoned (p : PageRec) (addr : Nat)
  | bad (b : BandState) (p : PageRec) (line bitOff : Nat)
  deriving DecidableEq, Repr

/-- The symbols of a decoder's output as whole lines, the first with a job line. -/
def asLines (width first n : Nat) (syms : List Nat) : List (Nat × List Nat) :=
  (List.range n).map (fun i => (first + i, (syms.drop (width * i)).take width))

/-- Stage decoded lines; at a take-over the lines that will not be fired again are dropped (R122, R481). -/
def BandState.stage (b : BandState) (from' : Nat) (ls : List (Nat × List Nat)) : BandState :=
  { b with staged := b.staged ++ ls.filter (fun x => Nat.ble from' x.1) }

/-- Open the band's next stream, when none is open (R124, R161): the decoder's state, whether the page carries HISTORY_LOST. -/
def BandState.openNext (b : BandState) (p : PageRec) (h : FblcHeader) : BandState × Bool :=
  if b.fb.inStream then (b, false)
  else
    let reset := h.histReset || p.resetHist
    ({ b with fb := openStream h (reset || b.resetNext) b.fb, nextLine := p.first, resetNext := false, histLost := false
              pageSeq := some p.seq }, b.histLost && !reset)

/-- Decode up to `room` lines of one stream: the header and the body are read from DRAM as requester 1 (R452). -/
def State.laneStream (s : State) (b0 : BandState) (p : PageRec) (t : PageStream) (room from' : Nat) : State × LaneRun × Bool :=
  if t.bad then (s, .bad b0 p (max b0.nextLine p.first) 0, false) else
  let a := t.dram.getD 0
  let hd := s.dramGet a (min 16 t.len) 1
  match hd.2.2, parseHeader hd.2.1 with
  | true, _ => (hd.1, .poisoned p a, false)
  | false, .error _ => (hd.1, .bad b0 p (p.first + b0.fb.line) b0.fb.bitPos, false)
  | false, .ok h =>
    let o := b0.openNext p h
    let b := o.1
    let r := decodeLoop (BitStream.ofBytes (Mem.reads s.dram (a + 16) (t.len - 16))) (b.fb.line + room) (2 * room * b.fb.width + 4) b.fb []
    let used := match r.2.2 with | .ended p => p | .bad _ _ => r.1.bitPos | .more => r.1.bitPos
    let body := hd.1.dramGet (a + 16 + b.fb.bitPos / 8) (min (t.len - 16) (ceilDiv used 8) - b.fb.bitPos / 8) 1
    if body.2.2 then (body.1, .poisoned p (a + 16 + b.fb.bitPos / 8), false)
    else
      let n := (match r.2.2 with | .ended _ => p.lines | _ => r.1.line) - b.fb.line
      let b1 := ({ b with fb := r.1, nextLine := p.first + b.fb.line + n }).stage from' (asLines b.fb.width (p.first + b.fb.line) n r.2.1.reverse)
      match r.2.2 with
      | .more => (body.1, .good b1, o.2)
      | .ended _ => (body.1, .good b1, o.2)
      | .bad _ bitOff => (body.1, .bad b1 p (p.first + b.fb.line + n) bitOff, o.2)

/-- Flag a page and release a finished stream after a run. -/
def State.afterStream (s : State) (b : BandState) (p : PageRec) (lost : Bool) : State :=
  s.updJob (fun j => j.updPage p.seq (fun p =>
    let p1 := if lost then p.flag pfHISTORY_LOST else p
    if p.stop ≤ b.nextLine then p1.updStream b.plane b.band (fun t => { t with released := true }) else p1))

/-- Run a lane over the streams of a band until a slab, the ring's room or the committed data ends (R123). The flag of a page that
carries HISTORY_LOST and the release of finished streams follow at the end. -/
def State.laneRun (s : State) (ps : List PageRec) (from' : Nat) : Nat → Nat → BandState → List (BandState × PageRec × Bool) →
    State × LaneRun × List (BandState × PageRec × Bool)
  | 0, _, b, acc => (s, .good b, acc)
  | fuel + 1, room, b0, acc =>
    let b := if b0.fb.inStream then b0 else b0.pass ps
    if room = 0 then (s, .good b, acc)
    else match (b.nextPage ps).bind (fun p => (p.stream b.plane b.band).map (fun t => (p, t))) with
      | none => (s, .good b, acc)
      | some (p, t) =>
        match s.laneStream b p t room from' with
        | (s1, .good b1, lost) => State.laneRun s1 ps from' fuel (room - (b1.nextLine - max b.nextLine p.first)) b1 (acc ++ [(b1, p, lost)])
        | (s1, .bad b1 p l o, lost) => (s1, .bad b1 p l o, acc ++ [(b1, p, lost)])
        | (s1, .poisoned p a, _) => (s1, .poisoned p a, acc)

/-- A lane ends its assignment (R123, R124, R126, R127). -/
def State.laneEnd (s : State) (l : Nat) : State :=
  match s.press.job with
  | none => s
  | some j =>
    match j.bands.find? (fun b => b.lane == some l) with
    | none => s
    | some b =>
      let from' := match j.recovery with | some r => r.e.getD b.plane 0 | none => j.runFrom.getD b.plane 0
      let r := s.laneRun j.livePages from' (j.livePages.length + 1) (min 128 (s.get DCX_STAGE_LINES_A - b.staged.length)) b []
      match r.2.1 with
      | .poisoned p a => r.1.streamPoison b.plane b.band p a
      | .good b1 =>
        r.2.2.foldl (fun s x => s.afterStream x.1 x.2.1 x.2.2) (r.1.updJob (fun j => j.updBand b.plane b.band (fun _ => { b1 with lane := none })))
      | .bad b1 p line off =>
        (r.2.2.foldl (fun s x => s.afterStream x.1 x.2.1 x.2.2)
          (r.1.updJob (fun j => j.updBand b.plane b.band (fun _ => { b1 with lane := none })))).decodeError b.plane b.band p line off

end Sys2Proof.Machine
end

