-- ==== Sys2Proof/Machine/DramCmds.lean ====
section
/-!
DEFINITION. A DRAM read as its requester sees it (R449 to R452).
-/
namespace Sys2Proof.Machine

/-- The SRC code of a requester in DMC_ERR_INFO and DRAM_UE. -/
def srcCode : DramSrc → Nat
  | .lane _ => 1
  | .engine _ => 2
  | .bar4 _ => 3
  | .firmware _ => 4
  | .camera _ => 5
  | .snapshot => 6
  | .journal _ => 7
  | .scrub => 8

/-- A lane's poisoned read (R127). -/
def State.lanePoison (s : State) (l addr : Nat) : State :=
  match s.press.job with
  | none => s
  | some j =>
    match (j.bands.find? (fun b => b.lane == some l)).bind (fun b => (b.nextPage j.livePages).map (fun p => (b, p))) with
    | none => s
    | some (b, p) => s.streamPoison b.plane b.band p addr

/-- A compression unit's poisoned read: its job completes POISONED (R176). -/
def State.enginePoison (s : State) (u : Nat) : State :=
  match s.cmx.getD u none with
  | none => s
  | some j => { s with cmx := s.cmx.set u (some (cmxBad j.bits cmxPOISONED 0 0)) }

/-- A shared pipeline's poisoned read: the frame being processed is CORRUPT from the line read (R336). -/
def State.cameraPoison (s : State) (c : Nat) : State :=
  match s.cam.frames.find? (fun f => f.ctx == c && f.pipe.isSome) with
  | none => s
  | some f => (s.updFrame c f.no (fun f => { f with corrupt := true, corruptProc := true })).cause CAM_IRQ_CAUSE_CORRUPT

/-- A poisoned read of the pair journal: an active chip starts a resync, a standby becomes UNSYNCED (R470). -/
def State.journalPoison (s : State) (own : Bool) : State :=
  if own then s.startResync else if s.pstate = psSTANDBY then s.setPState psUNSYNCED else s

/-- The correlator's poisoned read: the sampled line whose entry holds the address is not used, and its samples count as excluded when
the camera shows it (R452). -/
def State.snapPoison (s : State) (addr : Nat) : State :=
  s.setCal { s.cal with snaps := s.cal.snaps.map (fun t =>
    if t.addr ≤ addr ∧ addr < t.addr + s.get CAL_PT_SNAP_STRIDE_VALUE then { t with bad := List.range 8 } else t) }

/-- What each requester does with a poisoned read (R452). -/
def State.poisonAction (s : State) (src : DramSrc) (addr : Nat) : State :=
  match src with
  | .lane l => s.lanePoison l addr
  | .engine u => s.enginePoison u
  | .bar4 _ => s
  | .firmware core => { s with dmc := { s.dmc with fwFault := some core } }
  | .camera c => s.cameraPoison c
  | .snapshot => s.snapPoison addr
  | .journal own => s.journalPoison own
  | .scrub => s

/-- A BAR4 read shows its bytes, and whether the completion is poisoned (R65). -/
def State.bar4Show (s : State) (src : DramSrc) (addr : Nat) (e : EccRead) : State :=
  match src with
  | .bar4 len => { s with hif := { s.hif with bar4Data := slice e.data (addr % 64) len, bar4Poison := e.poisoned } }
  | _ => s

/-- One block is read for a requester. Before READY, beyond the installed DRAM and on a held subchannel no read completes (R457, R458). -/
def State.dramRead (s : State) (src : DramSrc) (addr : Nat) (errs : List SymErr) : State :=
  if ¬ s.on DMC_STATUS_READY ∨ s.dramSize ≤ addr ∨ s.dramHeld addr then s
  else
    let r := s.readBlock (addr / 64 * 64) (srcCode src) errs
    let s1 := r.1.bar4Show src addr r.2
    if r.2.poisoned then s1.poisonAction src addr else s1

def execDramRead (src : DramSrc) (addr : Nat) (errs : List SymErr) (s : State) : Out := finish (s.dramRead src addr errs)

end Sys2Proof.Machine
end

