-- ==== Sys2Proof/Machine/Press.lean ====
section
/-!
DEFINITION. The line clock and the press (02_print_geometry.md, 04_page_path.md): period and windows, the master edge, the plane
pipeline, the press tick, entry to LOCKING, first tick, the end of a job, and the adoption of a job at a take-over.
-/
namespace Sys2Proof.Machine

/-! ### Clock control (R23, R54 to R56, R60) -/

/-- A write of PGP_LINE_PERIOD (R23, R55). -/
def State.periodWrite (s : State) (v : Nat) : State :=
  if v < minPeriod s.mode then (s.event' Ev.PERIOD_REFUSED [v, s.mode]).cause PGP_IRQ_CAUSE_PERIOD_REFUSED
  else (s.put PGP_LINE_PERIOD_PERIOD v).putB PGP_CLK_STATUS_PERIOD_PEND (v != s.get PGP_PERIOD_ACTIVE_PERIOD)

def execPgpLinePeriodWrite (req : Fin 6) (value : Word) (s : State) : Out :=
  finish (s.reqWrite req (PGP_LINE_PERIOD) (fun s => s.periodWrite value.toNat))

/-- APPLY_AT_PAGE (R56): before a run's first tick the request is kept until it; while a recovery is under way or without a job or a
pending period it does nothing. -/
def State.applyAtPage (s : State) : State :=
  match s.press.job with
  | none => s
  | some j =>
    if ¬ s.on PGP_CLK_STATUS_PERIOD_PEND ∨ j.closing ∨ s.get PGP_SCHED_STATUS_JOB_STATE = jsRecovery then s
    else (s.putB PGP_CLK_STATUS_APPLY_PEND true).plannedStop

def execApplyAtPage (req : Fin 6) (s : State) : Out :=
  finish (s.reqWrite req (PGP_CLK_CTRL) (fun s => s.applyAtPage))

/-- CLR_HALT (R54). -/
def State.clrHalt (s : State) : State := if s.clk = clkHalted ∧ s.masterStill then s.setClk clkStopped else s

def execClrHalt (req : Fin 6) (s : State) : Out :=
  finish (s.reqWrite req (PGP_CLK_CTRL) (fun s => s.clrHalt))

/-- A write of WIN_EN; 0 ends an open excursion (R60). -/
def State.winEn (s : State) (b : Bool) : State := (if b then s else s.closeDev).putB PGP_CLK_CTRL_WIN_EN b

/-- A write of PGP_CLK_CTRL: its three bits. -/
def State.clkCtrlWrite (s : State) (v : Nat) : State :=
  let s1 := s.winEn (bit v 1)
  let s2 := if bit v 2 then s1.clrHalt else s1
  if bit v 0 then s2.applyAtPage else s2

def execWinEnWrite (req : Fin 6) (value : Word) (s : State) : Out :=
  finish (s.reqWrite req (PGP_CLK_CTRL) (fun s => s.clkCtrlWrite value.toNat))

/-! ### The web error (R57 to R61, R141) -/

/-- e of R58 in 1/65,536 line for a web position in 2^-20 fine line at the present time; plane 0 fired line `line - 1` at the last
tick. -/
def State.errAt (s : State) (j : Job) (pos : Int) : Int :=
  let per := s.get PGP_PERIOD_ACTIVE_PERIOD
  let f := fineOf j.mode
  roundDiv ((pos - s.press.webAtTick0) * (16 * per : Nat) - ((s.time.pt : Int) - s.press.lastTickPt) * (f : Int)) (256 * per * f) -
    65536 * ((j.line : Int) - 1)

/-- Show an error and judge it by the windows (R60, R61). -/
def State.judgeErr (s : State) (e : Int) : State :=
  let m := e.natAbs
  let s0 := (s.putS PGP_WEB_ERR_ERR e).put PGP_WEB_ERR_PEAK_PEAK (max (s.get PGP_WEB_ERR_PEAK_PEAK) m)
  if s.clk ≠ clkRunning ∨ ¬ s.on PGP_CLK_CTRL_WIN_EN then s0
  else
    let s1 :=
      if 256 * s.get PGP_WEB_DEV_WIN_WIN < m then
        (if s.on PGP_CLK_STATUS_IN_DEV then { s0 with press := { s0.press with peak := max s0.press.peak m } }
         else ((({ s0 with press := { s0.press with peak := m } }).putB PGP_CLK_STATUS_IN_DEV true).addSat PGP_WEB_DEV_COUNT_COUNT 1).event'
            Ev.WEB_DEV_ENTER [twos 32 e, s.time.line] |>.cause PGP_IRQ_CAUSE_WEB_DEV)
      else s0.closeDev
    if 256 * s.get PGP_WEB_STOP_WIN_WIN < m then s1.webStopTrip else s1

/-- The instant of the virtual tick before L_res, set from the first master edge at line speed so that virtual ticks fall at the web
positions of whole job lines (R141), in 2^-32 ns. -/
def State.virtualTick (s : State) (j : Job) : Nat :=
  let ahead : Int := ((j.line : Int) - 1) * 65536 - roundDiv (s.press.webPos - s.press.webAtTick0) (16 * fineOf j.mode)
  ((s.time.pt : Int) + ahead * (s.get PGP_PERIOD_ACTIVE_PERIOD * 256 : Nat)).toNat

/-- The error at an edge of the selected master (R58, R141). -/
def State.edgeErr (s : State) : State :=
  match s.press.job with
  | none => s
  | some j =>
    if s.clk = clkRunning then s.judgeErr (s.errAt j s.press.webPos)
    else if s.clk = clkLocking ∧ s.press.webLineSpeed then
      let s0 : State := if s.press.lockErrs = [] then { s with press := { s.press with lastTickPt := s.virtualTick j } } else s
      let e := s0.errAt j s0.press.webPos
      let s1 := s0.judgeErr e
      { s1 with press := { s1.press with lockErrs := (e.natAbs :: s1.press.lockErrs).take 16 } }
    else s

/-- PGP_WEB_SCALE as sampled at job start, else as written. -/
def State.webScale (s : State) : Nat := match s.press.job with | some j => j.webScale | none => s.get PGP_WEB_SCALE_SCALE

/-- An accepted edge of the selected master moves the web position (R335, R411). -/
def State.webEdge (s : State) (m : Nat) (dp : Int) : State :=
  let x := s.minp m
  let sc : Int := (s.webScale : Nat)
  let pos := s.press.webPos + dp * sc
  ({ s with press := { s.press with
      webPos := pos, edges := ((s.now, pos) :: s.press.edges).take 256, edgeSince := true, velWeb := x.vNum * sc, velNs := x.vDen
      nextWeb := (if x.back then -1 else 1) * (s.nextPitch m : Int) * sc } }).edgeErr

/-- An edge at a master input: it counts while the input is ON and the edge is the configured one (R404, R405). -/
def State.masterEdge (s : State) (m : Fin 2) (b r : Bool) : State :=
  if s.ust (.master m) != .on || r == s.on (ENC_M_CFG_EDGE m) then s
  else
    let old := (s.minp m).pos
    let x := s.masterInput m b
    if !x.2 then x.1
    else if m.val = s.masterSel then x.1.webEdge m (sgn 48 (twos 48 ((x.1.minp m).pos - old)))
    else x.1.crossCheck

def execMasterEdge (m : Fin 2) (b r : Bool) (s : State) : Out := finish (s.masterEdge m b r)

/-- At a tick without a master edge since the last one: the web lags for certain when even the last edge's position plus the next
pitch is behind (R59, R411). A position ahead proves nothing before the next edge (DEDUCED, log 40). -/
def State.errBetween (s : State) : State :=
  match s.press.job with
  | none => s
  | some j =>
    let e := s.errAt j (s.press.webPos + s.press.nextWeb)
    if s.press.edgeSince ∨ 0 ≤ e then s else s.judgeErr e

/-! ### Stage 1 and 2: trim and compensation (R129, R261, R262, R312, R313) -/

/-- z1 of R312. -/
def ditherTrim (c x : Nat) : Nat := ((113 * c + 71 * x) % 256) ^^^ ((c / 256 + 7 * (x / 256)) % 256)

/-- z of R262. -/
def ditherComp (c x side : Nat) : Nat := ((167 * c + 89 * x + 53 * side) % 256) ^^^ ((c / 256 + 3 * (x / 256)) % 256)

/-- A code after stage 1 for a live trim (R312). -/
def trimCode (t : Int) (z v : Nat) : Nat :=
  if 1 ≤ v ∧ v ≤ 2 ∧ 0 < t ∧ (z : Int) < t then v + 1 else if 1 ≤ v ∧ t < 0 ∧ (z : Int) < -t then v - 1 else v

/-- Stage 1 of a plane's line. -/
def State.stageTrim (s : State) (q x : Nat) (codes : List Nat) : List Nat :=
  codes.zipIdx.map (fun e => trimCode (s.cal.cols.get (pcKey q e.2) CalCol.reset).live (ditherTrim e.2 x) e.1)

/-- The live trims of a plane move one step towards their targets before a line that is a multiple of 256 (R313). -/
def State.trimStepLine (s : State) (q x : Nat) : State :=
  s.setCal { s.cal with cols := s.cal.cols.map (fun e =>
    if e.1 / 2 ^ 18 ≠ q ∨ e.2.live = e.2.target then e
    else
      let live := stepTowards e.2.live e.2.target
      (e.1, { e.2 with live := live, settle := if live = e.2.target then x else e.2.settle })) }

/-- The neighbour of a column at a side (R261). -/
def sideCol (c side : Nat) : Option Nat :=
  match side with
  | 0 => if 1 ≤ c then some (c - 1) else none
  | 1 => some (c + 1)
  | 2 => if 2 ≤ c then some (c - 2) else none
  | _ => some (c + 2)

/-- The weight of a side for a code (R261). -/
def State.compWeight (s : State) (side v : Nat) : Nat :=
  s.get (match side / 2, v with
    | 0, 1 => LDG_COMP_W1_CODE1
    | 0, 2 => LDG_COMP_W1_CODE2
    | 0, _ => LDG_COMP_W1_CODE3
    | _, 1 => LDG_COMP_W2_CODE1
    | _, 2 => LDG_COMP_W2_CODE2
    | _, _ => LDG_COMP_W2_CODE3)

/-- One dead column of stage 2: it becomes code 0 and its neighbours are promoted. -/
def State.compColumn (s : State) (dead : List Nat) (x : Nat) (codes : List Nat) (c : Nat) : List Nat :=
  let v := codes.getD c 0
  let l0 := codes.set c 0
  if v = 0 then l0
  else (List.range 4).foldl (fun l side =>
    match sideCol c side with
    | none => l
    | some n => if n < l.length ∧ ditherComp c x side < s.compWeight side v ∧ ¬ dead.contains n then l.set n (min 3 (l.getD n 0 + 1)) else l) l0

/-- Stage 2 of a plane's line with its dead columns in rising order (R261). -/
def State.stageComp (s : State) (dead : List Nat) (x : Nat) (codes : List Nat) : List Nat := dead.foldl (fun l c => s.compColumn dead x l c) codes

/-- The dead plane columns in force for the line fired at a press line. -/
def State.deadList (s : State) (q press : Nat) : List Nat := (List.range (planeWidth (s.planeTiles q))).filter (fun c => s.planeDead q c press)

/-! ### Stage 3 and 5: stitching and packet cut (R40 to R43, R128) -/

/-- Does a dovetail pixel go to the left tile: column `k` of the zone after tile `t`, line phase `m` (R40, R41, R43)? -/
def State.toLeft (s : State) (q t k m press : Nat) : Bool :=
  let d := fun (tile col : Nat) => s.deadMask (64 * q + tile) (s.maskAt (64 * q + tile) col press)
  let mask := match s.press.job with | some j => stitchBit (j.cfg q).mask k m | none => false
  if s.routeDead q && d t (4032 + k) != d (t + 1) k then d (t + 1) k else mask

/-- Does a tile receive the pixel of its local column `c` (R40)? -/
def State.receives (s : State) (q t m press c : Nat) : Bool :=
  if c < 64 ∧ t ≠ 0 then !s.toLeft q (t - 1) c m press
  else if 4032 ≤ c ∧ t + 1 < s.planeTiles q then s.toLeft q t (c - 4032) m press
  else true

/-- The 4,096 codes of a tile's packet. -/
def State.tileCodes (s : State) (q t m press : Nat) (codes : List Nat) : List Nat :=
  ((codes.drop (4032 * t)).take 4096).zipIdx.map (fun e => if s.receives q t m press e.2 then e.1 else 0)

/-- Hand a line packet to the link island: held until SET_LINE and TICK_DELAY are acknowledged (R213), and on a port that is not UP
it waits. A packet whose tick lies before the run is not sent (DEDUCED, log 41). -/
def State.handPacket (s : State) (e : MapEntry) (x press : Nat) (last : Bool) (codes : List Nat) : State :=
  let line : Int := (press : Int) + (s.tileTime e).1
  let c := s.ctl e.port e.slot
  let b : PacketBody := .line (line % 2 ^ 24).toNat (e.g / 64) x codes last
  if line ≤ s.time.line then s
  else if c.setup ≠ [] then s.setCtl e.port e.slot { c with heldLines := c.heldLines ++ [b] }
  else if s.portUp e.port then s.sendPacket e.port e.slot b
  else s.setPort e.port { s.port e.port with waiting := (s.port e.port).waiting ++ [{ lsn := 0, slot := e.slot, body := b, sent := 0, lastStatus := 0 }] }

/-- The entries of a plane, slots rising. -/
def State.entriesBySlot (s : State) (q : Nat) : List MapEntry :=
  ((List.range 24).map (fun k => (s.planeEntries q).filter (fun e => e.slot == k))).flatten

/-- Send a plane's line to all its tiles. -/
def State.handLine (s : State) (q x m press : Nat) (last : Bool) (codes : List Nat) : State :=
  (s.entriesBySlot q).foldl (fun s e => s.handPacket e x press last (s.tileCodes q (e.g % 64) m press codes)) s

/-! ### The snapshot (R317, R318) -/

/-- Is a job line sampled (R317)? -/
def State.sampled (s : State) (x : Nat) : Bool :=
  let d := s.get CAL_PT_CTRL_DECIM
  d == 0 || (x * 2654435761) % 2 ^ 32 / 2 ^ (32 - d) == 0

/-- Has the camera reached a snapshot line: has every context that looks at print shown it or a later one? -/
def State.reached (s : State) (x : Nat) : Bool :=
  let cs := (List.range 16).filter (fun c => s.on (CAL_VIEW_CTRL_USE c))
  cs != [] && cs.all (fun c => match s.cal.seenJ.getD c none with | some y => Nat.ble x y | none => false)

/-- Open the snapshot entry of a sampled line when plane 0 takes it, or drop the line when the ring is full (R318). What the entry's
bytes in DRAM are the spec leaves open. -/
def State.snapOpen (s : State) (x : Nat) (calOk : Bool) : State :=
  let old := s.cal.snaps.filter (fun t => t.line != x)
  if s.cal.snapLines ≤ (old.filter (fun t => !s.reached t.line)).length then
    let s1 := s.addSat CAL_PT_SNAP_LOST_COUNT 1
    if s.cal.overrunPosted then s1
    else ((s1.setCal { s1.cal with overrunPosted := true }).event' Ev.PT_SNAP_OVERRUN [s.cal.snapLines, x]).cause CAL_IRQ_CAUSE_SNAP_OVERRUN
  else
    let keep := if s.cal.snapLines ≤ old.length then old.drop 1 else old
    let stride := s.get CAL_PT_SNAP_STRIDE_VALUE
    let addr := s.cal.snapBase + s.cal.snapNext % max 1 s.cal.snapLines * stride
    (s.setCal { s.cal with
      snaps := keep ++ [{ line := x, focus := s.get CAL_PT_STATUS_FOCUS, segs := [], dead := [], bad := [], press := List.replicate 8 0, rows := []
                          calOk := calOk, addr := addr }]
      snapNext := s.cal.snapNext + 1 }).dramWrite addr ((List.range stride).map (Config.snapByte x)) []

/-- The column groups of a plane that a snapshot holds: the focus band, and the 64 columns around each open probe (R317). -/
def State.snapCols (s : State) (q focus : Nat) : List (Nat × Nat) :=
  (16384 * focus, 16384) :: (s.cal.probes.filter (fun p => p.q == q && p.c / 16384 != focus)).map (fun p => (p.c / 64 * 64, 64))

/-- Add a plane's codes after stage 2 to the line's snapshot. -/
def State.snapPlane (s : State) (q x : Nat) (codes dead : List Nat) : State :=
  s.setCal { s.cal with snaps := s.cal.snaps.map (fun t =>
    if t.line ≠ x then t
    else
      let cols := s.snapCols q t.focus
      { t with segs := t.segs.filter (fun g => g.1 != q) ++ cols.map (fun c => (q, c.1, (codes.drop c.1).take c.2))
               dead := t.dead.filter (fun k => k / 2 ^ 18 != q) ++ dead.map (pcKey q) }) }

/-! ### Taking a line (R128 to R130) -/

/-- The first line a plane does not fire, once a stop or the job's end is set (R133, R115). -/
def Job.stopAt (j : Job) (q : Nat) : Option Nat :=
  match j.recovery.map (fun r => r.e.getD q 0), j.endOf with
  | some a, some b => some (min a b)
  | some a, none => some a
  | none, b => b

/-- Is a plane's line before its stop? -/
def Job.beforeStop (j : Job) (q x : Nat) : Bool := match j.stopAt q with | some l => Nat.blt x l | none => true

/-- The committed page that holds a line. -/
def Job.committedAt (j : Job) (x : Nat) : Option PageRec := j.pages.find? (fun p => p.committed && p.holds x)

/-- The first band of a plane in which a line is missing: not staged, and neither a gap line nor in a blank band nor behind a decode
error (R126, R130, R131). -/
def Job.missing (j : Job) (q x : Nat) : Option Nat :=
  match j.committedAt x with
  | none => none
  | some p => ((j.bands.filter (fun b => b.plane == q)).find? (fun b =>
      (match p.stream q b.band with | some t => t.len != 0 | none => false) && !(b.staged.any (fun l => l.1 == x)) && Nat.ble b.dead x)).map (·.band)

/-- A plane's line as staged, code 0 where nothing is (R130). -/
def Job.rawLine (j : Job) (q x : Nat) : List Nat :=
  ((j.bands.filter (fun b => b.plane == q)).map (fun b => match b.staged.lookup x with
    | some c => c
    | none => List.replicate b.fb.width 0)).flatten

/-- The line phase of a line: its index within its page, modulo 64 (R41). -/
def Job.phase (j : Job) (x : Nat) : Nat := match j.committedAt x with | some p => (x - p.first) % 64 | none => 0

/-- Send a plane's line once more with LAST, when its stop was set after the line's packets were handed over (R198; DEDUCED, log 42). -/
def State.resendLast (s : State) (j : Job) (q : Nat) : State :=
  match j.stopAt q with
  | none => s
  | some l =>
    let press := (s.pressLineOf j ((l : Int) - 1 + s.offs q)).toNat
    if l = j.nextTake.getD q 0 ∧ j.lastSent.getD q 0 ≠ l ∧ j.runFrom.getD q 0 < l ∧ s.time.line + 6 < press then
      let x := l - 1
      ((s.handLine q x (j.phase x) press true (s.stageComp (s.deadList q press) x (s.stageTrim q x (j.rawLine q x)))).updJob
        (fun j => { j with lastSent := j.lastSent.set q l }))
    else s

/-- Plane q takes a line: stages 1 to 5, and its packets go to the link island. -/
def State.takeLine (s : State) (j : Job) (q x : Nat) : State :=
  let press := (s.pressLineOf j ((x : Int) + s.offs q)).toNat
  let s1 := if x % 256 = 0 then s.trimStepLine q x else s
  let dead := s1.deadList q press
  let codes := s1.stageComp dead x (s1.stageTrim q x (j.rawLine q x))
  let last := j.stopAt q == some (x + 1)
  let s2 := if s1.sampled x then
      (if q = 0 then s1.snapOpen x ((j.committedAt x).any (·.calOk)) else s1).snapPlane q x codes dead
    else s1
  ((s2.coverage q x codes).handLine q x (j.phase x) press last codes).updJob
    (fun j => { j with nextTake := j.nextTake.set q (x + 1), lastSent := if last then j.lastSent.set q (x + 1) else j.lastSent })

/-- Plane q takes lines up to the one that plane 0 reaches at job line `v`; at a missing line it stops, and that is late data of
Type 2 (R131). -/
def State.takeUpTo (s : State) (q : Nat) (v : Int) : Nat → State × Option Late
  | 0 => (s, none)
  | n + 1 =>
    match s.press.job with
    | none => (s, none)
    | some j =>
      let x := j.nextTake.getD q 0
      if v < (x : Int) + s.offs q ∨ j.beforeStop q x = false then (s, none)
      else match j.missing q x with
        | some b => (s, some { typ := 2, plane := some q, x := x, band := b, port := 0xFF, slot := 0xFF })
        | none => State.takeUpTo (s.takeLine j q x) q v n

/-- Every plane in use takes its lines. -/
def State.takeAll (s : State) (j : Job) (v : Int) : State × List Late :=
  j.used.foldl (fun x q => let r := x.1.takeUpTo q v 64; (r.1, x.2 ++ r.2.toList)) (s, [])

/-- Least slack seen (DCX_MIN_SLACK). -/
def State.minSlack (s : State) : State :=
  match s.press.job with
  | none => s
  | some j => j.bands.foldl (fun s b =>
      match b.staged.getLast? with
      | none => s
      | some l => s.put DCX_MIN_SLACK_SLACK (min (s.get DCX_MIN_SLACK_SLACK) (l.1 - j.nextTake.getD b.plane 0))) s

/-! ### Firing (R107, R253, R320) -/

/-- The row choice of a tile for a line fired at a press line, and its pointers after it (R252, R253). -/
def State.rowsOfTile (s : State) (g press : Nat) : List Nat × List Nat :=
  let ptrs := s.ldg.rowPtrs.get g startPtrs
  let rows := (List.range 4096).map (fun c => nextRow (s.maskAt g c press) (ptrs.getD c 0))
  (rows.map (fun r => r.getD 8), (rows.zipIdx).map (fun e => e.1.getD (ptrs.getD e.2 0)))

/-- The tiles of a plane fire a line: the rows are followed, and a snapshot of the line learns those of the pixels that each tile
received (R253, R325). -/
def State.fireRows (s : State) (q x : Nat) : State :=
  let m := match s.press.job with | some j => j.phase x | none => 0
  (s.planeEntries q).foldl (fun s e =>
    let r := s.rowsOfTile e.g s.time.line
    let s1 := s.setLdg { s.ldg with rowPtrs := s.ldg.rowPtrs.set e.g r.2 }
    let rows := (r.1.zipIdx).map (fun k => if s.receives q (e.g % 64) m s.time.line k.2 then k.1 else 8)
    s1.setCal { s1.cal with snaps := s1.cal.snaps.map (fun t =>
      if t.line = x then { t with rows := t.rows.set e.g rows } else t) }) s

/-- Plane q fires a line: page flags, the snapshot's exclusions, and its staged line is given up (R60, R122, R287, R320 rule 2). -/
def State.fireLine (s : State) (q x : Nat) : State :=
  let dev := s.on PGP_CLK_STATUS_IN_DEV
  let clamp := (s.planeEntries q).any (fun e => (s.ctl e.port e.slot).clampFrom.isSome)
  let s1 := s.fireRows q x
  let s2 := s1.setCal { s1.cal with snaps := s1.cal.snaps.map (fun t =>
    if t.line = x then { t with press := t.press.set q s.time.line, bad := if dev || clamp then q :: t.bad else t.bad } else t) }
  let s3 := s2.updJob (fun j => { (j.mapPages (fun p => p.holds x) (fun p =>
      if dev then p.flag pfREG_DEV else p)) with
        bands := j.bands.map (fun b => if b.plane = q then { b with staged := b.staged.filter (fun l => Nat.blt x l.1) } else b) })
  if q = 0 then { s3 with press := { s3.press with lastFired := x } } else s3

/-- Every plane fires its line of the tick at which plane 0 has reached job line `x`. -/
def State.fireAll (s : State) (j : Job) (x : Nat) : State :=
  j.used.foldl (fun s q =>
    let y := x - s.offs q
    if s.offs q ≤ x ∧ j.runFrom.getD q 0 ≤ y ∧ y < j.nextTake.getD q 0 ∧ j.beforeStop q y then s.fireLine q y else s) s

/-- Pages that plane 0 starts: at their first line, or the first gap line before it (R113). -/
def State.startPages (s : State) (j : Job) (x : Nat) : State :=
  if j.beforeStop 0 x = false then s
  else (j.pages.filter (fun p => p.committed && !p.started && !p.retired && Nat.ble (j.endBefore p.seq) x)).foldl (fun s p =>
    (s.updJob (fun j => j.updPage p.seq (fun p => { p with started := true }))).startDesc j.ring p.seq) s

/-! ### The press tick (R52, R53) -/

/-- Line packets still waiting or held 6 line periods before their tick are lost (R201, R213). -/
def State.dueSoon (s : State) (b : PacketBody) : Bool :=
  match b with
  | .line l _ _ _ _ => let d := (l + 2 ^ 24 - s.time.line % 2 ^ 24) % 2 ^ 24; Nat.ble d 6 || Nat.ble (2 ^ 23) d
  | _ => false

/-- Count and report one lost line packet, and the late data it is. -/
def State.lostLine (x : State × List Late) (p slot : Nat) (b : PacketBody) (sent status : Nat) : State × List Late :=
  match b with
  | .line l q jl _ _ =>
    (((x.1.addSat (HLK_LOST_COUNT_COUNT p) 1).event Ev.LINE_LOST p [slot, x.1.nearLine l, sent, status]).cause HLK_IRQ_CAUSE_LINE_LOST,
     x.2 ++ [{ typ := 3, plane := some q, x := jl, band := 0xFF, port := p, slot := slot }])
  | _ => x

/-- Lose every unsent line packet whose deadline has come. -/
def State.dropLate (s : State) : State × List Late :=
  let a := (List.range 24).foldl (fun (x : State × List Late) p =>
    let due := (x.1.port p).waiting.filter (fun k => x.1.dueSoon k.body)
    let s1 := x.1.setPort p { x.1.port p with waiting := (x.1.port p).waiting.filter (fun k => !x.1.dueSoon k.body) }
    due.foldl (fun y k => State.lostLine y p k.slot k.body k.sent k.lastStatus) (s1, x.2)) (s, [])
  a.1.entries.foldl (fun (x : State × List Late) e =>
    let c := x.1.ctl e.port e.slot
    let due := c.heldLines.filter (fun b => x.1.dueSoon b)
    if due = [] then x
    else due.foldl (fun y b => State.lostLine y e.port e.slot b 0 0)
      (x.1.setCtl e.port e.slot { c with heldLines := c.heldLines.filter (fun b => !x.1.dueSoon b) }, x.2)) a

/-- Type 1 (R131): plane 0 fires line S - H with no further page committed and JOB_END not fetched after the last. -/
def State.typeOne (_s : State) (j : Job) (x : Nat) : List Late :=
  if j.recovery.isNone ∧ j.endOf.isNone ∧ ¬ j.closing ∧ j.committedEnd ≤ x + j.horizon then
    [{ typ := 1, plane := none, x := max j.committedEnd (x + 1), band := 0xFF, port := 0xFF, slot := 0xFF }]
  else []

/-- A LINE_CANCEL not confirmed by its fire tick makes the page that holds S defective (R134). -/
def State.cancelDue (s : State) : State :=
  s.entries.foldl (fun s e =>
    match (s.ctl e.port e.slot).cancel with
    | some (l, x) =>
      if lineGe s.time.line l then
        (s.setCtl e.port e.slot { s.ctl e.port e.slot with cancel := none }).updJob (fun j => j.flagLines x x pfDEFECTIVE)
      else s
    | none => s) s

/-- The plane-0 line at whose tick every plane has cleared the lines before `l` (R51). -/
def State.clearAt (s : State) (j : Job) (l : Nat) : Nat := l + (s.planesI j).foldl (fun a p => max a p.2) 0 + 7 * kOf j.mode

/-- Pages cleared by every plane retire (R51, R147). -/
def State.clearPages (s : State) (x : Nat) : State :=
  match s.press.job with
  | none => s
  | some j =>
    (s.setJob (j.mapPages (fun p => p.started && !p.cleared && Nat.ble (s.clearAt j p.stop) x &&
      (match j.recovery with
        | some r => j.used.all (fun q => Nat.ble p.stop (r.e.getD q 0))
        | none => true)) (fun p => { p with cleared := true }))).retireCleared

/-- The tick of X_d of a recovery, or of a job's end (R115, R139). -/
def State.stopDue (s : State) (x : Nat) : State :=
  match s.press.job with
  | none => s
  | some j =>
    match j.recovery, j.endOf with
    | some r, _ => if r.phase = 1 ∧ r.xd ≤ x then s.recoveryClockStop else s
    | none, some l => if s.clearAt j l ≤ x then s.printOver else s
    | none, none => s

/-- ANCHOR and MARK every 128 ticks (R468). -/
def State.journalTick (s : State) : State :=
  match s.press.job with
  | none => s
  | some j => if s.time.line % 128 = 0 then (s.jrn (s.anchorRecord j)).jrn (s.markRecord j) else s

/-- The counters of a tick: press line, remainder, plane 0's job line (R52, R53, R107). -/
def State.countTick (s : State) (j : Job) : State :=
  (({ s with
      time := { s.time with line := (s.time.line + 1) % 2 ^ 40 }
      press := { s.press with rem256 := (s.press.rem256 + s.get PGP_PERIOD_ACTIVE_PERIOD) % 256, lastTickPt := s.time.pt } }).setJob
    { j with line := j.line + 1, maxLine := max j.maxLine (j.line + 1) }).showLine (j.line + 1)

/-- A TICK goes out on every port that is ON with its link up; its AUTH is FIRE_AUTH_OUT at the tick, which HLK_PORT_STATUS shows (R204). -/
def State.sendTicks (s : State) : State :=
  (List.range 24).foldl (fun (s : State) (p : Nat) =>
    if s.ust (portUnit p) = .on ∧ s.on (HLK_PORT_STATUS_LINK_UP p) then s.putB (HLK_PORT_STATUS_AUTH p) (s.on PAR_STATUS_AUTH) else s) s

/-- Everything a tick does, at which plane 0 reaches job line `j.line`. -/
def State.tickBody (s : State) : State :=
  match s.press.job with
  | none => s
  | some j =>
    let x := j.line
    let s1 := (((s.countTick j).sendTicks.applyChanges).odometer j.mode).startPages j x
    let s2 := s1.fireAll (s1.press.job.getD j) x
    let t := s2.takeAll (s2.press.job.getD j) (x + 24)
    let l := t.1.dropLate
    let j2 := l.1.press.job.getD j
    let s3 := (l.1.lateAll (t.2 ++ l.2 ++ l.1.typeOne j2 x)).minSlack.cancelDue
    let s4 := (s3.press.job.getD j2).used.foldl (fun s q => s.resendLast (s.press.job.getD j2) q) s3
    let s5 := ((s4.clearPages x).stopDue x).errBetween
    ({ s5 with press := { s5.press with edgeSince := false } }).journalTick

def execPressTick (s : State) : Out := finish (if s.clk = clkRunning ∧ s.islandRuns 2 then s.tickBody else s)

/-! ### Entry to LOCKING (R48, R55, R139 step 6, R206, R213, R258) -/

/-- A pending period comes into force (R55, R260). -/
def State.applyPeriod (s : State) : State :=
  let s0 := s.putB PGP_CLK_STATUS_APPLY_PEND false
  if s.on PGP_CLK_STATUS_PERIOD_PEND then
    let v := s.get PGP_LINE_PERIOD_PERIOD
    (((s0.put PGP_PERIOD_ACTIVE_PERIOD v).putB PGP_CLK_STATUS_PERIOD_PEND false).event' Ev.PERIOD_APPLIED [v, s.time.line]).rebuildDead v false
  else s0

/-- DELAY of a tile in 1/16 ns (R206). -/
def State.delay16 (s : State) (e : MapEntry) : Nat := (s.cLat16 e.port e.slot + 16 * ((s.tileTime e).2 : Int)).toNat

/-- One of the two packets whose acknowledgement the line packets wait for (R213). -/
def State.sendSetup (s : State) (e : MapEntry) (op line : Nat) (payload : List Byte) : State :=
  let c := s.ctl e.port e.slot
  if s.portUp e.port then
    (s.setCtl e.port e.slot { c with setup := c.setup ++ [c.cseq] }).sendCtl e.port e.slot op true line payload none
  else s.setCtl e.port e.slot { c with setup := [256] }

/-- A change put behind those of earlier job lines. -/
def MaskChange.place (x : MaskChange) : List MaskChange → List MaskChange
  | [] => [x]
  | y :: r => if x.jobLine.getD 0 < y.jobLine.getD 0 then x :: y :: r else y :: x.place r

/-- Send the timed loads of a tile again in the order of their job lines: for a job line still to be fired with its new press line, else
at once (R213, R258). -/
def State.resendLoads (s : State) (j : Job) (e : MapEntry) : State :=
  ((s.sentChanges e.g).foldl (fun l x => x.place l) []).foldl (fun s x =>
    let q := e.g / 64
    let rest := s.ldg.changes.filter (fun y => y != x)
    match x.jobLine with
    | some l =>
      if j.runFrom.getD q 0 ≤ l then
        let y : MaskChange := { x with lEff := (s.pressLineOf j ((l : Int) + s.offs q)).toNat }
        (s.setLdg { s.ldg with changes := rest ++ [y] }).sendChange y
      else ((s.setLdg { s.ldg with changes := rest }).forceMasks x.g x.first x.masks).sendNow e.port e.slot opMASK_LOAD (maskPayload x.first x.masks)
    | none => ((s.setLdg { s.ldg with changes := rest }).forceMasks x.g x.first x.masks).sendNow e.port e.slot opMASK_LOAD (maskPayload x.first x.masks)) s

/-- SET_LINE, TICK_DELAY and the timed loads of one tile; its row pointers start anew (R206, R213, R252). -/
def State.setupTile (s : State) (j : Job) (e : MapEntry) : State :=
  let s0 := s.setCtl e.port e.slot { s.ctl e.port e.slot with setup := [], heldLines := [], cancel := none }
  let s1 := (s0.sendSetup e opSET_LINE s.time.line []).sendSetup e opTICK_DELAY 0 (leBytes 4 (s.delay16 e) ++ leBytes 4 0)
  (s1.setLdg { s1.ldg with rowPtrs := s1.ldg.rowPtrs.set e.g startPtrs }).resendLoads j e

/-- Take the lines of the first 24 ticks as far as they are staged. -/
def State.prefill (s : State) : State :=
  match s.press.job with
  | none => s
  | some j => if s.clk = clkLocking then (s.takeAll j ((j.line : Int) + 23)).1 else s

/-- Enter LOCKING with a recovery (or with the start of a job): the period applies, offsets and L_res follow it, tiles are set up, the
web runs up. -/
def State.enterLocking (s : State) (r : Recovery) : State :=
  match s.press.job with
  | none => s
  | some j =>
    let s1 := s.applyPeriod
    let s2 := s1.showOffsets j.mode (s1.get PGP_PERIOD_ACTIVE_PERIOD)
    let r1 : Recovery := { r with lRes := s2.lResOf j r.e, phase := 4 }
    let j1 : Job := { j with recovery := some r1, line := r1.lRes, nextTake := r1.e, runFrom := r1.e, lastSent := List.replicate 8 0 }
    let s3 := (if j.started then (s2.showRecovery r1).put PGP_SCHED_STATUS_RECOV_PHASE 4 else s2).setJob j1
    let s4 := { s3 with press := { s3.press with lockErrs := [], webLineSpeed := false },
                        heads := { s3.heads with ports := s3.heads.ports.map (fun (p : Port) => { p with waiting := p.waiting.filter (fun k => match k.body with
                          | .line _ _ _ _ _ => false
                          | _ => true) }) } }
    ((s4.entries.foldl (fun s e => s.setupTile j1 e) (s4.setClk clkLocking)).webPlan 1 .runup).prefill

/-! ### Starts (R120, R140) -/

/-- Is a sweep running (R237)? -/
def State.sweeps (s : State) : Bool := s.ldg.sweep.isSome

/-- DRIVE_READY as R120 and R140 ask for it: deasserted while the web axis is not ON (R400). -/
def State.driveOn (s : State) : Bool := s.ust .web == .on && s.on MOT_WEB_STATUS_DRIVE_READY

/-- The conditions of R120 but for the latencies of R207. -/
def State.runupReady (s : State) (j : Job) : Bool :=
  s.islandRuns 2 && s.clk == clkStopped && !j.started && !j.closing && j.recovery.isNone && j.dataReady 0 && s.masterStill &&
  s.driveOn && !s.sweeps

/-- The recovery that stands for the start of a job: L_res = 0 (R120). -/
def Recovery.start : Recovery :=
  { typ := 0, plane := none, s := 0, e := List.replicate 8 0, lRes := 0, phase := 4, tries := 0, plannedPt := 0, xd := 0, xb := 0, b := 0 }

/-- The tiles whose job-start loads are not all acknowledged, and those not adopted or whose declaration is bad, count as shut down at job
line 0 (R215, R263; DEDUCED, log 88). -/
def State.unloaded (s : State) : List Late :=
  (s.entries.filter (fun e => (s.ctl e.port e.slot).unacked != [] || !(s.ctl e.port e.slot).adopted ||
      s.on (HLK_SLOT_STATUS_DECL_BAD e.port e.slot))).map (fun e =>
    { typ := 3, plane := some (e.g / 64), x := 0, band := 0xFF, port := e.port, slot := e.slot })

/-- The web runs up for a job's start: job line 0 lies D_run lines down-web (R120). -/
def State.runup (s0 : State) : State :=
  match s0.press.job with
  | none => s0
  | some j0 =>
    let s := s0.checkLatency
    if ¬ s0.runupReady j0 ∨ s.shortTile.isSome then (if s0.runupReady j0 then s else s0)
    else
      match s.press.job with
      | none => s
      | some j =>
        let g := s.geomOf j Recovery.start
        let s1 : State := { s with press := { s.press with webAtTick0 := s.press.webPos + (g.1 * 2 ^ 20 * fineOf j.mode : Nat) } }
        let s2 := (s1.put PGP_RUNUP_LINES_LINES g.1).enterLocking g.2
        match s2.unloaded with
        | [] => s2
        | l => (s2.updJob (fun j => j.flagLines 0 0 pfDEFECTIVE)).lateAll l

def execJobRunupStart (s : State) : Out := finish s.runup

/-- Does every band hold A staged lines, or all that is left of its committed data (R121, R140)? -/
def State.stagedReady (s : State) (j : Job) : Bool :=
  j.passBlank.bands.all (fun b => Nat.ble (s.get DCX_STAGE_LINES_A) b.staged.length || (!b.refetching && (b.nextPage j.livePages).isNone))

/-- The conditions of R140 but for the latencies of R207; after a take-over firmware must have cleared POS_MISMATCH (R481). -/
def State.resumeReady (s : State) (j : Job) (r : Recovery) : Bool :=
  s.islandRuns 2 && s.clk == clkStopped && r.phase == 3 && s.driveOn && s.masterStill && j.dataReady r.lRes && s.stagedReady j &&
  s.entries.all (fun e => s.portUp e.port) && s.entries.all (fun e => s.permits e.port e.slot) && !s.on PGP_RECOV_CTRL_HOLD &&
  (List.range 8).all (fun q => !s.on (PLN_KEEPWET_CAPPED q)) && !s.sweeps && !s.on PAR_STATUS_POS_MISMATCH

/-- A recovery enters LOCKING (R139 step 6, R140). -/
def State.resumeLocking (s0 : State) : State :=
  match s0.press.job with
  | none => s0
  | some j0 =>
    match j0.recovery with
    | none => s0
    | some r =>
      if ¬ s0.resumeReady j0 r then s0
      else
        let s := s0.checkLatency
        if s.shortTile.isSome then s
        else
          let s1 := (s.putB PGP_IRQ_CAUSE_WAIT_DATA false).enterLocking r
          s1.event' Ev.RESUME_START [(match s1.press.job.bind (·.recovery) with | some x => x.lRes | none => r.lRes), r.tries + 1]

def execResumeLockingStart (s : State) : Out := finish s.resumeLocking

/-! ### First tick and lock failure (R141, R142, R148) -/

/-- Has |e| been within 0.25 line at each of the last 16 master edges (R141)? -/
def State.locked (s : State) : Bool := s.press.lockErrs.length == 16 && s.press.lockErrs.all (fun e => Nat.ble e 16384)

/-- The pages a resume's seam touches, marked (R148). -/
def Job.seam (j : Job) (r : Recovery) (e : Nat) : Job :=
  j.mapPages (fun p => j.used.any (fun q => Nat.blt 0 (r.e.getD q 0) && (p.holds (r.e.getD q 0 - 1) || p.holds (r.e.getD q 0))))
    (fun p => { p.flag pfSEAM with seams := p.seams + 1, seamErr := max p.seamErr e })

/-- The first tick of a job: JOB_STARTED (R120). -/
def State.jobStarted (s : State) (j : Job) : State :=
  ((s.setJob { j with started := true, recovery := none, firstTick := s.time.line + 1 }).complete j.ring j.seq 2 Ev.JOB_STARTED stOK 0xFFFF
    [j.jobId, s.time.line + 1] false)

/-- The first tick after a recovery: seams, lost time, RESUMED (R139, R148). -/
def State.resumed (s : State) (j : Job) (r : Recovery) : State :=
  let e := s.webErr
  let lost := (s.time.pt - r.plannedPt) / (1000 * 2 ^ 32)
  let s1 := ((s.setJob { (j.seam r e.natAbs) with recovery := none, lostUs := j.lostUs + lost }).putS PGP_SEAM_ERR_ERR e).addSat PGP_LOST_TIME_US lost
  ((s1.event' Ev.RESUMED [r.lRes, twos 32 e, lost]).cause PGP_IRQ_CAUSE_RESUMED).retireCleared

/-- The first tick of a run at L_res (R139 step 7, R141). A line that was never staged is late data of Type 2 instead. -/
def State.firstTick (s0 : State) : State :=
  if s0.clk ≠ clkLocking ∨ ¬ s0.locked then s0
  else
    match s0.press.job with
    | none => s0
    | some j0 =>
      let t := s0.takeAll j0 ((j0.line : Int) + 23)
      if t.2 ≠ [] then t.1.lateAll t.2
      else
        match t.1.press.job with
        | none => t.1
        | some j =>
          match j.recovery with
          | none => t.1
          | some r =>
            let s1 := (if j.started then t.1.resumed j r else t.1.jobStarted j)
            let s2 := (((s1.setClk clkRunning).put PGP_SCHED_STATUS_JOB_STATE jsRun).put PGP_SCHED_STATUS_RECOV_PHASE 0).webPlan 2 .follow
            let s3 := s2.tickBody
            if s3.on PGP_CLK_STATUS_APPLY_PEND then s3.plannedStop else s3

def execResumeFirstTick (s : State) : Out := finish s.firstTick

/-- Lock is not reached by the virtual tick of L_res - 1 (R142). -/
def State.lockFailed (s : State) : State :=
  match s.press.job with
  | none => s
  | some j =>
    match j.recovery with
    | none => s
    | some r =>
      if s.clk ≠ clkLocking ∨ s.locked then s
      else
        let n := r.tries + 1
        let s1 := (s.event' Ev.LOCK_FAIL [n, s.press.lockErrs.foldl max 0]).cause PGP_IRQ_CAUSE_LOCK_FAIL
        let s2 := s1.setRecovery { r with tries := n } 2
        if max 1 (s.get PGP_RECOV_CTRL_LOCK_TRIES) ≤ n then s2.recoveryAbort 2 else (s2.setClk clkStopped).webPark r.xb

def execLockFail (s : State) : Out := finish s.lockFailed

/-- A lane ends its assignment; during a run-up the newly staged lines are taken (R124, R128). -/
def execLaneAssignmentEnd (lane : Fin 96) (s : State) : Out := finish (s.laneEnd lane).prefill

/-! ### The end of a job (R115, R564, R565) -/

/-- Post JOB_ENDED as an event, or hold it until the report of a host-island reset has been written (R565). -/
def State.jobEndedEvent (s : State) (j : Job) : State :=
  let e := s.entry 1 Ev.JOB_ENDED 0xFF 0 0 j.ring j.endPayload
  if s.hif.report.isSome ∨ ¬ s.hif.linkUp then { s with hif := { s.hif with heldJobEnded := some e } } else s.evtPost e

/-- A job that came from the journal has its JOB_ENDED here: the journal holds no job to take over any more (R481). -/
def State.endOwnJournal (s : State) (j : Job) : State :=
  if s.par.journal.any (fun r => recKind r == 1) then { s with par := { s.par with journal := s.par.journal ++ [.ended j.endPayload] } } else s

/-- The job closes. -/
def State.jobClose (s : State) : State :=
  match s.press.job with
  | none => s
  | some j =>
    if ¬ (j.closing ∧ s.on MOT_WEB_STATUS_STANDSTILL ∧ j.pages.all (·.retired) ∧ (j.jobEndSeq.isSome ∨ j.ringLeft ∨ j.hostLost)) then s
    else
      let status := if j.endReason.getD 0 = 0 then stOK else stFAILED
      let s1 := if j.started then s else s.complete j.ring j.seq 2 Ev.JOB_STARTED stFAILED 0xFFFF [j.jobId, s.time.line] false
      let s2 := match j.jobEndSeq with
        | some q => s1.complete j.ring q 2 Ev.JOB_ENDED status 0xFFFF j.endPayload false
        | none => s1
      let s3 := if j.jobEndSeq.isNone ∨ j.hostLost then s2.jobEndedEvent j else s2
      let s4 := ((s3.jrn (.ended j.endPayload)).put PGP_SCHED_STATUS_JOB_STATE jsIdle).put PGP_SCHED_STATUS_RECOV_PHASE 0
      (({ s4.endOwnJournal j with press := { s4.press with job := none } }).showLine j.maxLine).putB PGP_CLK_STATUS_APPLY_PEND false |>.handoverCheck

def execJobEnded (s : State) : Out := finish s.jobClose

/-! ### Take-over (R481, R482) -/

/-- The latest ANCHOR of the journal: press line, job line, X with 16 fractional bits, stamp. -/
def lastAnchor (jr : List JrnRec) : Option (Nat × Nat × Int × Nat) :=
  (jr.filterMap (fun r => match r with
    | .anchor l jl _ _ x t => some (l, jl, x, t)
    | _ => none)).getLast?

/-- The lines handed over by the latest MARK. -/
def lastMark (jr : List JrnRec) : List Nat :=
  ((jr.filterMap (fun r => match r with | .mark h _ => some h | _ => none)).getLast?).getD []

/-- E_q of step 3: the line in progress that the plane's FIRING_DROPPED reports give, else the line after the MARK's. -/
def State.adoptedE (s : State) (j : Job) (anchor : Nat × Nat × Int × Nat) (q : Nat) : Nat :=
  if j.used.contains q then
    match s.par.fireLines.find? (fun e => e.1 == q) with
    | some e => ((anchor.2.1 : Int) - 1 + sgn 24 ((e.2 + 2 ^ 24 - anchor.1 % 2 ^ 24) % 2 ^ 24) - s.offs q).toNat
    | none => (lastMark s.par.journal).getD q 0 + 1
  else 0

/-- E_q of a handover (R483): the peer yielded after a planned stop, whose RECOV record gives every E_q, and the clock has not run since. -/
def State.handedE (s : State) : Option (List Nat) :=
  let clk := ((s.par.journal.filterMap (fun r => match r with | .anchor _ _ c _ _ _ => some c | _ => none)).getLast?).getD clkStopped
  if s.par.afterExpiry ∨ clk = clkRunning ∨ clk = clkLocking then none
  else match (s.par.journal.filterMap (fun r => match r with | .recov typ _ e _ _ => some (typ, e) | _ => none)).getLast? with
    | some (0, e) => some e
    | _ => none

/-- The journalled pages of the job that are not retired, in order, as pages to fetch again (R473); a later resync may have sent a page
once more. -/
def adoptedPages (jr0 : List JrnRec) : List PageRec :=
  let jr := jr0.foldl (fun (l : List JrnRec) r => match r with
    | .page d _ _ => l.filter (fun x => match x with | .page e _ _ => dfield e 8 4 != dfield d 8 4 | _ => true) ++ [r]
    | _ => l ++ [r]) []
  let gone := jr.filterMap (fun r => match r with | .retire id _ _ => some id | _ => none)
  (jr.filterMap (fun r => match r with
    | .page d _ first => if gone.contains (dfield d 8 4) then none else some (newPage (65536 + dfield d 2 2) d first)
    | _ => none))

/-- Apply the journalled trims (R468, R481). -/
def State.adoptTrims (s : State) : State :=
  s.par.journal.foldl (fun s r => match r with
    | .trims q c ts => ts.zipIdx.foldl (fun s e =>
        s.setCal { s.cal with cols := s.cal.cols.set (pcKey q (c + e.2)) { s.cal.cols.get (pcKey q (c + e.2)) CalCol.reset with target := e.1 } }) s
    | .energy g c ws => s.setLdg { s.ldg with trims := (List.range (16 * ws.length)).foldl (fun m i =>
        m.set (heatKey g (16 * c + i)) (sgn 6 (ws.getD (i / 16) 0 / 2 ^ (6 * (i % 16)) % 64))) s.ldg.trims }
    | _ => s) s

/-- The web position that corresponds to the anchor's edge: this chip's edge whose stamp is within half an edge interval, else its last
position (step 2). -/
def State.anchorEdge (s : State) (stamp : Nat) : Int :=
  match s.press.edges.find? (fun e => match s.press.edges with
      | a :: b :: _ => Nat.ble (2 * ((e.1 : Int) - stamp).natAbs) (a.1 - b.1)
      | _ => e.1 == stamp) with
  | some e => e.2
  | none => s.press.webPos

/-- Steps 2 to 5: the job is adopted, its pages are to be fetched again, and its recovery begins from step 3 of R139. -/
def State.adopt (s : State) (d : DescBits) (mismatch : Bool) : State :=
  let a := (lastAnchor s.par.journal).getD (s.time.line, 0, 0, s.now)
  let last := ((s.par.journal.filterMap (fun r => match r with | .page d _ _ => some (dfield d 8 4) | _ => none)).getLast?).getD 0
  let s1 := (s.adoptTrims).openJob (s.get PAR_ADOPT_RING_RING) (65536 + dfield d 2 2) d
  match s1.press.job with
  | none => s1
  | some j =>
    let hand := s.handedE
    let es := (List.range 8).map (fun q => match hand with | some e => e.getD q 0 | none => s1.adoptedE j a q)
    let k := 7 * kOf j.mode
    let anyRetired := s.par.journal.any (fun r => recKind r == 9)
    let pages := (adoptedPages s.par.journal).map (fun p =>
      let p1 : PageRec := { p with started := j.used.any (fun q => Nat.blt p.first (es.getD q 0)) }
      if hand.isNone && j.used.any (fun q => Nat.ble p.first (es.getD q 0) && Nat.blt (es.getD q 0 - k) p.stop) then p1.flag pfDEFECTIVE else p1)
    let lRes := s1.lResOf j es
    let planned := ((a.2.2.2 * 2 ^ 32 : Nat) : Int) + ((lRes : Int) * 65536 - a.2.2.1) * (s1.get PGP_PERIOD_ACTIVE_PERIOD * 256 : Nat)
    let r : Recovery := { typ := 3, plane := none, s := j.used.foldl (fun m q => min m (es.getD q 0)) (es.getD 0 0), e := es, lRes := lRes, phase := 2
                          tries := 0, plannedPt := planned.toNat, xd := 0, xb := 0, b := 0 }
    let s1w : State := { s1 with press := { s1.press with webAtTick0 := s1.anchorEdge a.2.2.2 - a.2.2.1 * (16 * fineOf j.mode : Nat) } }
    let s2 := s1w.setJob
      { j with pages := pages, started := true, line := lRes, maxLine := es.getD 0 0, nextTake := es, runFrom := es
               bands := j.bands.map (fun b => { b with histLost := anyRetired }) }
    let s3 := ((s2.setRecovery r 2).showRecovery r).setPar { s2.par with takeover := false, fireLines := [] }
    let s4 := ((s3.put PAR_TAKEOVER_LO_L_RES (lRes % 2 ^ 32)).put PAR_TAKEOVER_HI_L_RES (lRes / 2 ^ 32)).event' Ev.TAKEOVER_READY
      ([lRes] ++ es.map (fun (e : Nat) => twos 32 ((e : Int) - (lRes : Int))) ++ [last, (s.time.cyc - s.par.activeAt) / 250000])
    let s5 := s4.cause PAR_IRQ_CAUSE_TAKEOVER
    if mismatch then s5.putB PAR_STATUS_POS_MISMATCH true else s5.recoveryClockStop

/-- The take-over completes, or fails at a step (R481). -/
def State.takeover (s : State) (fail : Option Nat) (mismatch : Bool) : State :=
  if !s.par.takeover || s.press.job.isSome then s
  else match fail, s.openJournal with
    | some k, _ => ((s.setPar { s.par with takeover := false }).event' Ev.TAKEOVER_FAIL [k]).cause PAR_IRQ_CAUSE_TAKEOVER
    | none, some (d, _, _) => s.adopt d mismatch
    | none, none => s

def execTakeoverReady (failStep : Option (Fin 8)) (posMismatch : Bool) (s : State) : Out :=
  finish (s.takeover (failStep.map (·.val)) posMismatch)

/-- Firmware clears POS_MISMATCH: a recovery that waited for it goes on from step 3 of R139 (R481). -/
def State.posCleared (s : State) : State :=
  let s1 := s.putB PAR_STATUS_POS_MISMATCH false
  match s1.press.job.bind (·.recovery) with
  | some r => if s.on PAR_STATUS_POS_MISMATCH ∧ r.phase = 2 ∧ s1.web.plan = .idle then s1.recoveryClockStop else s1
  | none => s1

end Sys2Proof.Machine
end

