-- ==== Sys2Proof/Machine/Units.lean ====
section
/-!
DEFINITION. The unit state machine (R14 to R19) over every unit with an enable bit: what each unit does when it starts, stops,
faults and retires.
-/
namespace Sys2Proof.Machine

/-! ### Host rings (R67, R73, R103, R104) -/

/-- A ring enters STARTING: the configuration is checked, INDEX is 0 and the expected phase 1; PARKED and VALID clear at enable. -/
def State.ringStart (s : State) (r : RingId) : State :=
  let n := r.num
  let s1 := (((s.put (HIF_RING_STATUS_INDEX n) 0).putB (HIF_RING_STATUS_PHASE n) true).putB (HIF_RING_STATUS_PARKED n) false).rset
    (HIF_RING_DONE n) 0
  let s2 := s1.setRing n { Ring.reset with opens := (s.ring n).opens.filter (fun d => !d.stale), wbDue := true }
  if s.get (HIF_RING_CFG_LOG2SIZE n) < 4 ∨ 16 < s.get (HIF_RING_CFG_LOG2SIZE n) then s2.ringFault r 1 0 [0, 0] else s2

/-- The job outcome of HOST_RESET_REPORT, as taken when the report is written (R103). -/
def State.jobOutcome (s : State) (r : HostReport) : Nat :=
  if r.lostJob then 2 else if !r.hadJob then 3 else if s.press.job.isSome then 0 else 1

/-- EVT enters ON: the report of a host-island reset comes first, then a JOB_ENDED held for it, then what was queued; the entries
are counted from 0 (R82, R103, R565). -/
def State.evtStart (s : State) : State :=
  let rep := match s.hif.report with
    | some r => [s.entry 1 Ev.HOST_RESET_REPORT 0xFF 0 0 0xFFFF ([r.reason] ++ r.doneSeq ++ [r.evtLost, r.line, s.jobOutcome r])]
    | none => []
  let held := match s.hif.heldJobEnded with | some e => [e] | none => []
  let q := ((rep ++ held ++ s.hif.evtQueue).zipIdx).map (fun (e : EvtEntry × Nat) => { e.1 with seq := e.2 % 65536 })
  ({ s with hif := { s.hif with report := none, heldJobEnded := none, evtQueue := q, evtNext := q.length, evtUnread := [] } }).evtDrain 258

/-- A ring enters ON: its write-back record is written, a held doorbell is applied (R67, R70). -/
def State.ringOn (s : State) (r : RingId) : State :=
  let n := r.num
  let s1 := (s.setUst (.ring r) .on).writeBack n
  let s2 := match (s1.ring n).heldDb with
    | some v => (s1.setRing n { s1.ring n with heldDb := none }).applyDoorbell n v
    | none => s1
  match r with
  | .evt => s2.evtStart
  | .mbxOut => s2.mbxDrain s2.hif.mbxWait.length
  | _ => s2

/-! ### Faults of each unit (R15, R18) -/

/-- A context enters FAULT (R331). -/
def State.ctxFault (s : State) (c : Fin 16) (reason : Nat) : State :=
  s.faultUnit (.ctx c) reason (fun s => ((s.event Ev.CTX_FAULT c [reason]).cause CAM_IRQ_CAUSE_CTX_FAULT).camLeaveOn c)

/-- The mirror port enters FAULT: its link is lost (R467). The catalogue has no event of its own for it (log 43). -/
def State.mirrorFault (s : State) : State :=
  s.faultUnit .mirror 0 (fun s =>
    let lane := Config.oneOf [48, 49, 50, 51] % 4
    if s.on PAR_STATUS_MIRROR_UP then s.mirrorDown lane
    else (s.event' Ev.MIRROR_DOWN [48 + lane, s.pstate]).cause PAR_IRQ_CAUSE_MIRROR)

/-- A port enters FAULT: what it still had to send fails. -/
def State.portFaulted (s : State) (p reason : Nat) : State :=
  let s1 := s.portFault p reason
  if s1.ust (portUnit p) = .fault then ((s1.failAll p).refreshAllSpitting).laneRunCheck else s1

/-- A fault with a reason is detected in a unit. A network port never faults (R485). -/
def State.unitFault (s : State) (u : UnitId) (reason : Nat) : State :=
  match u with
  | .ring r => s.ringFault r reason 0 [0, 0]
  | .port p => s.portFaulted p reason
  | .lane l => s.laneFault l reason
  | .axis a => s.axisFault a reason
  | .web => s.webFault reason
  | .master _ => s.inputFault u reason
  | .quad _ => s.inputFault u reason
  | .serial _ => s.inputFault u reason
  | .ctx c => s.ctxFault c reason
  | .slot l => s.loopFault l reason
  | .bar b => s.barFault b reason 0xFF
  | .net _ => s
  | .mirror => s.mirrorFault

/-- The fault reasons a unit has. -/
def faultReasons : UnitId → Nat
  | .ring _ => 3
  | .port _ => 7
  | .lane _ => 2
  | .axis _ => 5
  | .web => 3
  | .ctx _ => 4
  | .slot _ => 3
  | .bar _ => 5
  | .net _ => 0
  | .mirror => 15
  | _ => 2

/-! ### Starting and stopping -/

/-- The two or four lanes a port owns. -/
def ownLanes : UnitId → List (Fin 52)
  | .port p => [Fin.ofNat 52 (2 * p.val), Fin.ofNat 52 (2 * p.val + 1)]
  | .mirror => [48, 49, 50, 51]
  | _ => []

/-- A port enters STARTING at phase 0; a rate of 0b11 faults (R224). -/
def State.portStart (s : State) (p : Fin 24) : State :=
  let r := s.get (HLK_PORT_CFG_RATE p)
  let s1 := (s.setPort p { Port.reset with rate := r }).setPhase p 0
  if r = 3 then s1.portFault p 1 else s1

/-- A port leaves ON or STARTING by its enable: packet traffic ends (R224). -/
def State.portStop (s : State) (p : Fin 24) : State :=
  let s1 := (s.putB (HLK_PORT_STATUS_RETIRE_PEND p) false).setPhase p 0
  let s2 := (s1.failAll p).refreshAllSpitting
  (s2.laneDropOut (2 * p.val)).laneDropOut (2 * p.val + 1)

/-- A unit has entered STARTING: its start actions begin, and an invalid configuration faults it. -/
def State.unitStart (s : State) (u : UnitId) : State :=
  match u with
  | .ring r => s.ringStart r
  | .port p => s.portStart p
  | .lane l => s.laneStart l
  | .axis a => if s.axisBad a then s.axisFault a 1 else s
  | .web => if s.webBad then s.webFault 1 else s.refreshWebStop
  | .master _ => s.inputStart u
  | .quad _ => s.inputStart u
  | .serial _ => s.inputStart u
  | .ctx c => match pickOf (s.ctxReasons c) with | some r => s.ctxFault c r | none => s
  | .slot l => if s.loopBad l then s.loopFault l 1 else s
  | .bar b => s.barStart b
  | .net _ => s
  | .mirror => s

/-- A unit has entered STOPPING: its stop actions begin. -/
def State.unitStop (s : State) (u : UnitId) : State :=
  match u with
  | .ring r => s.ringLeaveOn r.num
  | .port p => s.portStop p
  | .lane l => s.put (SDS_LANE_STATUS_PWR l) 3
  | .axis a => s.axisStop a
  | .web => s.webPlan 3 .decel
  | .master _ => s.masterCheck
  | .quad _ => s
  | .serial _ => s
  | .ctx c => s.camLeaveOn c
  | .slot l => s.loopStop l
  | .bar b => s.barStop b
  | .net _ => s
  | .mirror => if s.on PAR_STATUS_MIRROR_UP then s.mirrorDown 0 else s

/-- What follows when a unit is OFF again. -/
def State.unitOff (s : State) (u : UnitId) : State :=
  match u with
  | .ring r => s.wbDue r.num
  | .web => s.refreshWebStop
  | _ => s

/-- A write of one unit's enable bit (R15 to R17). -/
def State.enableOne (s : State) (u : UnitId) (b : Bool) : State :=
  match s.ust u, b with
  | .off, true => (s.setUst u .starting).unitStart u
  | .starting, false => (s.setUst u .stopping).unitStop u
  | .on, false => (s.setUst u .stopping).unitStop u
  | .stopping, _ => s.setPend u b
  | .fault, false => (s.setUst u .off).unitOff u
  | _, _ => s

/-- A write of a unit's enable bit; the lanes of a port follow their port, and a port that leaves OFF ends the loopback of its
lanes (R523, R534). -/
def State.enableWrite (s : State) (u : UnitId) (b : Bool) : State :=
  match s.ust u, b with
  | .off, false => s
  | .off, true =>
    let s1 := (ownLanes u).foldl (fun s l => s.endLoop l) s
    (ownLanes u).foldl (fun s l => s.enableOne (.lane l) true) (s1.enableOne u true)
  | _, _ => (ownLanes u).foldl (fun s l => s.enableOne (.lane l) b) (s.enableOne u b)

/-- Are the start actions of a unit complete, as far as the state shows? -/
def State.startReady (s : State) (u : UnitId) : Bool :=
  s.ust u == .starting && (match u with
    | .ring _ => s.hif.linkUp
    | .web => s.on MOT_WEB_STATUS_DRIVE_READY
    | .serial n => Nat.ble 3 (s.sinp n).good
    | .bar b => (s.bar b).drivers.all (fun d => !d.synced)
    | _ => true)

/-- A unit enters ON. -/
def State.unitOn (s : State) (u : UnitId) : State :=
  match u with
  | .ring r => s.ringOn r
  | .port p => s.portComesUp p.val
  | .lane l => (s.setUst u .on).put (SDS_LANE_STATUS_PWR l) 0
  | .axis a => (s.setUst u .on).axisStart a
  | .web => (s.setUst u .on).refreshWebStop
  | .slot l => s.loopStart l
  | _ => s.setUst u .on

def execStartActionsComplete (u : UnitId) (s : State) : Out := finish (if s.startReady u then s.unitOn u else s)

/-- Are the stop actions of a unit complete, as far as the state shows: a context's frames are processed (R331), a bar's blanking
update is latched (R370)? -/
def State.stopReady (s : State) (u : UnitId) : Bool :=
  s.ust u == .stopping && (match u with
    | .ctx c => s.cam.frames.all (fun f => f.ctx != c.val)
    | .bar b => (s.bar b).drivers.all (fun d => !d.synced || d.dark)
    | _ => true)

/-- The stop actions end: final write-back record, bridges braked, PLL off. -/
def State.unitStopped (s : State) (u : UnitId) : State :=
  match u with
  | .ring r => s.wbDue r.num
  | .axis a => s.axisOff a
  | .web => ({ s with web := { s.web with traj := none, mot := ⟨s.web.mot.p, 0, 0⟩ } }).webPlan 0 .idle
  | _ => s

/-- The stop actions are complete (R15, R16, R19). `same`: an enable write in the same cycle, which counts as made in STOPPING;
`off`: one in the OFF cycle of a restart. -/
def State.stopComplete (s : State) (u : UnitId) (same off : Option Bool) : State :=
  if ¬ s.stopReady u then s
  else
    let s0 := match same with | some b => s.setPend u b | none => s
    let s1 := s0.unitStopped u
    match s1.faultRec u with
    | some r => (((s1.dropFault u).setPend u false).setUst u .starting).unitFault u r
    | none =>
      let s2 := ((s1.setPend u false).setUst u .off).unitOff u
      if s1.pend u ∧ off ≠ some false then (s2.setUst u .starting).unitStart u else s2

def execStopActionsComplete (u : UnitId) (same off : Option Bool) (s : State) : Out := finish (s.stopComplete u same off)

/-- The reason a start time limit records: of a port by its phase (R224), of a web axis, a lane and a serial input 2; the others'
is not stated (log 44). -/
def State.limitReason (s : State) (u : UnitId) : Nat :=
  match u with
  | .port p => let ph := s.get (HLK_PORT_STATUS_PHASE p); if 1 ≤ ph ∧ ph ≤ 3 then ph else 7
  | .lane _ => 2
  | .web => 2
  | .serial _ => 2
  | _ => Config.oneOf [s.time.cyc, (stateFld u).off] % 16

/-- Has a unit a start time limit that runs now? That of a port runs from the end of phase 0 (R224); inputs but serial ones,
contexts and network ports have none. -/
def State.limitRuns (s : State) (u : UnitId) : Bool :=
  s.ust u == .starting && (match u with
    | .port p => s.get (HLK_PORT_STATUS_PHASE p) != 0
    | .master _ => false
    | .quad _ => false
    | .ctx _ => false
    | .net _ => false
    | _ => true)

/-- The start time limit runs out (R15, R16): the start is abandoned, the stop actions run, the fault is recorded. -/
def execStartTimeLimitExpired (u : UnitId) (s : State) : Out :=
  finish (if s.limitRuns u then ((s.recordFault u (s.limitReason u)).setUst u .stopping).unitStop u else s)

/-- A fault of the unit's own table is detected (R15, R16). -/
def execUnitFaultDetected (u : UnitId) (reason : Fin 16) (s : State) : Out :=
  finish (if 1 ≤ reason.val ∧ reason.val ≤ faultReasons u then s.unitFault u reason else s)

/-! ### Tallies and retirement (R230 to R232, R370, R402) -/

/-- A window ends: the tally restarts, and the last window's count is kept where a register shows it. -/
def State.tallyEnd (s : State) (u : UnitId) : State :=
  match u with
  | .port p => (s.put (HLK_TALLY_LAST p) (s.get (HLK_TALLY_COUNT p))).put (HLK_TALLY_COUNT p) 0
  | .bar b => s.setBar b { s.bar b with tally := 0 }
  | .master _ => (s.put (tallyFld u).2.1 (s.get (tallyFld u).1)).put (tallyFld u).1 0
  | .quad _ => (s.put (tallyFld u).2.1 (s.get (tallyFld u).1)).put (tallyFld u).1 0
  | .serial _ => (s.put (tallyFld u).2.1 (s.get (tallyFld u).1)).put (tallyFld u).1 0
  | _ => s

def execTallyWindowEnd (u : UnitId) (s : State) : Out := finish (s.tallyEnd u)

/-- Does a unit's retirement condition hold (R230, R231, R370, R402)? -/
def State.retireDue (s : State) (u : UnitId) : Bool :=
  match u with
  | .port p => (s.on (HLK_PORT_STATUS_RETIRE_PEND p) ||
      Nat.ble (max 1 (s.get (HLK_TALLY_CFG_LIMIT p))) (s.get (HLK_TALLY_COUNT p))) && (!s.portServes p || s.clk == clkStopped)
  | .bar b => Nat.ble (max 1 (s.get (LED_TALLY_CFG_LIMIT b))) (s.bar b).tally
  | .master _ => Nat.ble (max 1 (s.get (tallyFld u).2.2)) (s.get (tallyFld u).1)
  | .quad _ => Nat.ble (max 1 (s.get (tallyFld u).2.2)) (s.get (tallyFld u).1)
  | .serial _ => Nat.ble (max 1 (s.get (tallyFld u).2.2)) (s.get (tallyFld u).1)
  | _ => false

/-- A unit enters RETIRED (R15); units that never do are unchanged. -/
def State.unitRetire (s : State) (u : UnitId) : State :=
  match u with
  | .port p => match s.ust u with
    | .starting | .on | .fault => (s.portRetire p 1).laneRunCheck
    | _ => s
  | .bar b => s.barRetire b
  | .master _ => s.inputRetire u
  | .quad _ => s.inputRetire u
  | .serial _ => s.inputRetire u
  | _ => s

def execRetirementCondition (u : UnitId) (s : State) : Out := finish (if s.retireDue u then s.unitRetire u else s)

end Sys2Proof.Machine
end

