-- ==== Sys2Proof/Machine/Regs.lean ====
section
/-!
DEFINITION. Register accesses (R8 to R12, R495, R557 to R563): what every register shows, what a read does, and what a write does.
-/
namespace Sys2Proof.Machine

/-! ### What a register shows -/

/-- The mirror of the press line counter in the always-on island (R562). -/
def State.lineMirror (s : State) : Nat := if s.islandRuns 2 then s.time.line else 0

/-- The mirror's high word with VALID. -/
def State.lineMirrorHi (s : State) : Nat := s.lineMirror / 2 ^ 32 % 256 + 2 ^ 31 * b2n (s.islandRuns 2)

/-- LDG_TILE_INFO of the selected position. -/
def State.tileInfo (s : State) (i : Nat) : Nat :=
  let g := s.get LDG_TILE_SEL_TILE
  match i with
  | 0 => s.countNoz g nzRETIRED % 65536 + 65536 * (s.countSingle g % 65536)
  | 1 => s.countNoz g nzSUSPECT % 65536 + 65536 * (s.countNoz g nzTEMP % 65536)
  | 2 => ((List.range 4096).filter (fun c => s.deadMask g (s.maskAt g c s.time.line))).length % 8192 + 65536 * (s.trec g).base
  | _ => b2n (s.trec g).baseValid + 2 * b2n (s.ldg.unadopted.contains g) + 4 * b2n (s.ldg.failedSweep.contains g)

/-- HLK_DECL_DATA of a port: word `i` of the declaration of the selected slot, or of the hub (31). -/
def State.declWord (s : State) (p i : Nat) : Nat :=
  let k := s.get (HLK_DECL_SEL_SLOT p)
  let d : DescBits := if k = 31 then (s.port p).hubDecl.getD 0 else if k < 24 then (s.ctl p k).decl.getD 0 else 0
  dfield d (4 * i) 4

/-- CAL_PT_STATUS.G_EFF: the smallest G_eff over the planes in use. -/
def State.gEffShown (s : State) : Nat :=
  match s.press.job with
  | none => 0
  | some j => match j.used.map (fun q => s.gEff q false) with
    | [] => 0
    | x :: r => r.foldl min x

/-- Milliseconds since a reference cycle. -/
def State.msSince (s : State) (t : Nat) : Nat := (s.time.cyc - t) / 250000

/-- A word with the bits of a field replaced. -/
def withFld (v : Word) (f : Fld) (x : Nat) : Word := BitVec.ofNat 32 (setBits v.toNat f.hi f.lo x)

/-- A register as it stands, without the latches of R560: `b` is the base offset of its row, `i` and `j` its indexes. -/
def State.viewRow (s : State) (b i j off : Nat) : Word :=
  let v := s.rget off
  let w := fun (n : Nat) => BitVec.ofNat 32 n
  if off = causeOff (blockOf off) then w (s.causeNow (blockOf off))
  else if b = 0x20 then w s.irqSum
  else if b = 0x30 then w s.now
  else if b = 0x34 then w (s.now / 2 ^ 32)
  else if b = 0x38 then w s.lineMirror
  else if b = 0x3C then w s.lineMirrorHi
  else if b = 0x40 then w s.lineMirror
  else if b = 0x44 then w s.lineMirrorHi
  else if b = PLN_GEOM 0 then withFld v (PLN_GEOM_BANDS i) (ceilDiv (planeWidth (s.get (PLN_GEOM_TILES i))) 16384)
  else if b = HLK_DECL_DATA 0 0 then w (s.declWord i j)
  else if b = LDG_DEAD_COLS 0 then w (s.deadCols i)
  else if b = LDG_TILE_INFO 0 then w (s.tileInfo i)
  else if b = CAL_PT_STATUS then withFld (withFld v CAL_PT_STATUS_G_EFF s.gEffShown) CAL_PT_STATUS_PROBES s.cal.probes.length
  else if b = CAL_TRIM_DATA then s.trimData
  else if b = CAM_PORT_STATUS 0 then
    withFld v (CAM_PORT_STATUS_ACTIVE i) (b2n (match s.cam.traffic.getD i none with | some t => Nat.ble s.time.cyc (t + 250000) | none => false))
  else if b = CAM_TAB_DATA then s.tabData
  else if b = CAM_REG_PLANE 0 then withFld v (CAM_REG_PLANE_VALID i) (b2n (s.regValid i))
  else if b = LED_CTRL then withFld v LED_CTRL_BLANK_OUT (b2n s.blankHigh)
  else if b = MOT_AX_ENC_POS 0 then w (twos 32 (s.axisE i))
  else if b = MOT_WEB_STEPS_LO then w (twos 48 (s.web.mot.p / 4294967296))
  else if b = MOT_WEB_STEPS_HI then w (twos 48 (s.web.mot.p / 4294967296) / 2 ^ 32)
  else if b = ENC_M_POS_LO 0 then w (twos 48 (s.minp i).pos)
  else if b = ENC_M_POS_HI 0 then w (twos 48 (s.minp i).pos / 2 ^ 32)
  else if b = ENC_M_SPEED 0 then speedReg (s.masterV i)
  else if b = ENC_M_EDGE_LO 0 then w ((s.minp i).last.getD 0)
  else if b = ENC_M_EDGE_HI 0 then w ((s.minp i).last.getD 0 / 2 ^ 32)
  else if b = ENC_Q_SPEED 0 then speedReg (s.quadV i)
  else if b = ENC_S_SPEED 0 then speedReg (s.serialV i)
  else if b = ENC_S_RAW_LO 0 then w (s.sinp i).raw
  else if b = ENC_S_RAW_HI 0 then w ((s.sinp i).raw / 2 ^ 32)
  else if b = LPE_STATUS 0 then
    withFld (withFld v (LPE_STATUS_HELD i) (s.get (LPE_CFG_HOLD i))) (LPE_STATUS_SP_LOCK i) (b2n (s.spDriven i))
  else if b = DMC_DLY_DATA then
    match s.dlySel with
    | some key => w ((s.dlyGet key).target % 512 + 65536 * ((s.dlyGet key).live % 512))
    | none => 0
  else if b = PAR_LEASE then
    withFld v PAR_LEASE_AGE (match s.par.lastRenew with | some t => min 65535 (s.msSince t) | none => 65535)
  else if b = PAR_JRN_LAG then w (min 0xFFFFFFFF s.jrnLag)
  else if b = NET_DOM_OFS_LO 0 then w (twos 64 (roundDiv (s.domOfs i) 4294967296))
  else if b = NET_DOM_OFS_HI 0 then w (twos 64 (roundDiv (s.domOfs i) 4294967296) / 2 ^ 32)
  else if b = NET_DOM_AGE 0 then w (match s.net.stamp.getD i none with | some t => min 0xFFFFFFFF (s.msSince t) | none => 0xFFFFFFFF)
  else if b = PIN_PWM_DUTY 0 then withFld v (PIN_PWM_DUTY_LOOP i) (b2n (s.loopNames 5 i))
  else v

/-- The indexes of an offset in a row. -/
def RegRow.ix (r : RegRow) (off : Nat) : Nat × Nat := ((off - r.off) / r.s1, (off - r.off) % r.s1 / r.s2)

/-- The register at an offset as it stands; 0 where there is none (R9). -/
def State.view (s : State) (off : Nat) : Word :=
  match regRowAt off with
  | none => 0
  | some r => s.viewRow r.off (r.ix off).1 (r.ix off).2 off

/-! ### Reads -/

/-- The registers that a read of a LO register latches (R560, R562, R452), by its row's base and index. -/
def latchTargets (b i : Nat) : List Nat :=
  if b = 0x30 then [0x34, 0x40, 0x44]
  else if b = 0x38 then [0x3C]
  else if b = PGP_JOB_LINE_LO then [PGP_JOB_LINE_HI]
  else if b = PGP_STOP_LINE_LO then [PGP_STOP_LINE_HI]
  else if b = PGP_RESUME_LINE_LO then [PGP_RESUME_LINE_HI]
  else if b = MOT_WEB_STEPS_LO then [MOT_WEB_STEPS_HI]
  else if b = ENC_M_POS_LO 0 then [ENC_M_POS_HI i, ENC_M_EDGE_LO i, ENC_M_EDGE_HI i]
  else if b = ENC_S_RAW_LO 0 then [ENC_S_RAW_HI i]
  else if b = DMC_ERR_ADDR_LO then [DMC_ERR_ADDR_HI, DMC_ERR_INFO]
  else if b = PAR_TAKEOVER_LO then [PAR_TAKEOVER_HI]
  else if b = NET_DOM_OFS_LO 0 then [NET_DOM_OFS_HI i]
  else []

/-- Is a register, by its row's base, one that such a read latches? -/
def isLatched (b : Nat) : Bool :=
  [0x34, 0x40, 0x44, 0x3C, PGP_JOB_LINE_HI, PGP_STOP_LINE_HI, PGP_RESUME_LINE_HI, MOT_WEB_STEPS_HI, ENC_M_POS_HI 0, ENC_M_EDGE_LO 0,
   ENC_M_EDGE_HI 0, ENC_S_RAW_HI 0, DMC_ERR_ADDR_HI, DMC_ERR_INFO, PAR_TAKEOVER_HI, NET_DOM_OFS_HI 0].contains b

/-- The value in a requester's latch, 0 when it has read no LO register since the block's reset (R560). -/
def State.latched (s : State) (req off : Nat) : Word :=
  match s.read.latch.find? (fun e => e.1 == req && e.2.1 == off) with
  | some e => e.2.2
  | none => 0

/-- Fill a requester's latch of one register. -/
def State.setLatch (s : State) (req off : Nat) (v : Word) : State :=
  { s with read := { s.read with latch := (req, off, v) :: s.read.latch.filter (fun e => !(e.1 == req && e.2.1 == off)) } }

/-- What a read of a register does besides returning it: an RC register returns to its reset value, a window advances, a LO register
fills the latches, and the read of DMC_ERR_ADDR_LO releases its latch. -/
def State.readEffect (s : State) (req : Nat) (r : RegRow) (off : Nat) : State :=
  let s1 := (latchTargets r.off (r.ix off).1).foldl (fun (x : State) (t : Nat) => x.setLatch req t (s.view t)) s
  if r.rc then s1.rset off (resetOf off)
  else if r.off = DMC_ERR_ADDR_LO then s1.putB DMC_ERR_INFO_VALID false
  else if r.off = CAL_TRIM_DATA then s1.trimInc
  else if r.off = CAM_TAB_DATA then s1.tabInc
  else if r.off = DMC_DLY_DATA then s1.dlyInc
  else s1

/-- One 32-bit read by a requester, or the read of the whole register that a narrower one makes (R8, R9, R495, R558). -/
def State.readWord (s : State) (req off : Nat) : State × Word :=
  match regRowAt off with
  | none => (s, 0)
  | some r =>
    if !reaches req off then (s, 0)
    else if !s.islandRuns (islandOf off) then (s.accessError req off 2 true, 0)
    else (s.readEffect req r off, if isLatched r.off then s.latched req off else s.view off)

/-- A register read of any width (R8); its data stand in `read.data`. -/
def State.readAccess (s : State) (req off : Nat) (w : AccWidth) : State :=
  let done := fun (x : State) (d : BitVec 64) => { x with read := { x.read with data := d } }
  match w with
  | .w64 =>
    if off % 4 ≠ 0 then done s 0
    else
      let a := s.readWord req off
      let b := a.1.readWord req (off + 4)
      done b.1 (b.2 ++ a.2)
  | .w32 => if off % 4 ≠ 0 then done s 0 else (let a := s.readWord req off; done a.1 (BitVec.ofNat 64 a.2.toNat))
  | _ => let a := s.readWord req (off / 4 * 4); done a.1 (narrowRead a.2 off w)

def execRcRegisterRead (req : Fin 6) (off : Nat) (w : AccWidth) (s : State) : Out := finish (s.readAccess req off w)

def execLoRegisterRead (req : Fin 6) (off : Nat) (w : AccWidth) (s : State) : Out := finish (s.readAccess req off w)

/-- A read of GLB_PRESS_TIME_LO (R562); 64 bits wide it returns both words. -/
def execGlbPressTimeRead (req : Fin 6) (w : AccWidth) (s : State) : Out := finish (s.readAccess req GLB_PRESS_TIME_LO w)

/-! ### Writes -/

/-- Store a write by the access type of each bit (R11). -/
def State.storeReg (s : State) (r : RegRow) (off : Nat) (v : Word) : State :=
  let old := s.rget off
  let rw := BitVec.ofNat 32 r.rw
  s.rset off (((old &&& ~~~rw) ||| (v &&& rw)) &&& ~~~(v &&& BitVec.ofNat 32 r.w1c))

/-- Store a write with one field forced. -/
def State.storeWith (s : State) (r : RegRow) (off : Nat) (v : Word) (f : Fld) (x : Nat) : State := (s.storeReg r off v).put f x

/-- Write the error latch's CLR (R563). -/
def State.accClr (s : State) : State := (s.rset GLB_ACC_ERR 0).rset GLB_ACC_ADDR 0

def execGlbAccErrClr (_req : Fin 6) (s : State) : Out := finish s.accClr

/-- Writes of GLB, RST and NVM. -/
def State.writeTop (s : State) (r : RegRow) (off : Nat) (v : Word) : State :=
  if off = GLB_ACC_ERR then (if bit v.toNat 8 then s.accClr else s)
  else if off = RST_WDT_CFG then
    let s1 := s.storeReg r off v
    if bit v.toNat 0 ∧ ¬ s.on RST_WDT_CFG_EN then s1.setRst { s1.rst with wdtFrom := s1.time.cyc } else s1
  else if off = RST_WDT_KICK then s.wdtKick v.toNat
  else if off = RST_SW then s.rstSwWrite v.toNat
  else if off = RST_VBAT_CTRL then (if bit v.toNat 0 then s.clrCnt else s)
  else if off = RST_BOOT_DATA then s.bootData v.toNat
  else if off = RST_BOOT_CTRL then (if bit v.toNat 0 then s.bootGo else s)
  else if off = NVM_OPT_CMD then s.optCmd v.toNat
  else s.storeReg r off v

/-- Writes of THM. -/
def State.writeThm (s : State) (r : RegRow) (off : Nat) (v : Word) : State :=
  if off = THM_LEVEL0 then s.levelWrite false v.toNat
  else if off = THM_LEVEL1 then s.levelWrite true v.toNat
  else if off = THM_CTRL then
    let s1 := s.storeReg r off v
    let s2 := if bit v.toNat 1 then s1.putB THM_CTRL_LOCK true else s1
    if bit v.toNat 0 then s2.shutClr else s2
  else s.storeReg r off v

/-- The ring whose registers hold an offset of HIF. -/
def ringOfOffset (off : Nat) : Option RingId := if off < HIF_RING_BASE_LO 10 then ringOfPage ((off - HIF_RING_BASE_LO 0) / 0x40) else none

/-- Writes of HIF (R68, R98). -/
def State.writeHif (s : State) (r : RegRow) (off : Nat) (v : Word) : State :=
  match ringOfOffset off with
  | some ring =>
    let n := ring.num
    let isOff := s.ust (.ring ring) == .off
    if off = HIF_RING_CFG n then
      (if isOff then s.put (HIF_RING_CFG_LOG2SIZE n) v.toNat else s).putB (HIF_RING_CFG_ENABLE n) (bit v.toNat 8) |>.enableWrite (.ring ring)
        (bit v.toNat 8)
    else if off = HIF_RING_BASE_LO n ∨ off = HIF_RING_BASE_HI n ∨ off = HIF_RING_WB_LO n ∨ off = HIF_RING_WB_HI n then
      (if isOff then s.storeReg r off v else s)
    else s.storeReg r off v
  | none => if off = HIF_MSI_CTRL then s.msiCtrlWrite v else s.storeReg r off v

/-- Writes of PGP. -/
def State.writePgp (s : State) (r : RegRow) (off : Nat) (v : Word) : State :=
  if off = PGP_COMMIT_HORIZON then s.put PGP_COMMIT_HORIZON_LINES (max 256 (v.toNat % 2 ^ 24))
  else if off = PGP_LINE_PERIOD then s.periodWrite v.toNat
  else if off = PGP_CLK_CTRL then s.clkCtrlWrite v.toNat
  else if off = PGP_RECOV_LOCK then s.put PGP_RECOV_LOCK_LINES (max 64 (v.toNat % 65536))
  else s.storeReg r off v

/-- The nearest value in a range. -/
def clampNat (lo hi x : Nat) : Nat := max lo (min hi x)

/-- Writes of PLN: plane 0 has no offset (R47), and firing parameters store the nearest limit (R277). -/
def State.writePln (s : State) (r : RegRow) (q off : Nat) (v : Word) : State :=
  let n := v.toNat
  if r.off = PLN_DOWNWEB_INT 0 ∨ r.off = PLN_DOWNWEB_FRAC 0 then (if q = 0 then s else s.storeReg r off v)
  else if r.off = PLN_KEEPWET 0 then s.cappedWrite q v
  else if r.off = PLN_FIRE_PULSE0 0 then
    (s.put (PLN_FIRE_PULSE0_PRE_NS q) (min 400 (n % 65536))).put (PLN_FIRE_PULSE0_DEAD_NS q) (min 800 (n / 65536))
  else if r.off = PLN_FIRE_PULSE1 0 then
    (s.put (PLN_FIRE_PULSE1_MAIN_NS q) (clampNat 200 1500 (n % 65536))).put (PLN_FIRE_PULSE1_GAP_NS q) (clampNat 100 2000 (n / 65536))
  else if r.off = PLN_FIRE_SCALE 0 then
    (s.storeReg r off v).put (PLN_FIRE_SCALE_SCALE q) (clampNat 3277 4506 (n % 8192))
  else if r.off = PLN_THERM0 0 then s.thermWrite q 0 v
  else if r.off = PLN_THERM1 0 then s.thermWrite q 1 v
  else if r.off = PLN_THERM2 0 then s.thermWrite q 2 v
  else if r.off = PLN_FAULT_CLEAR 0 then s.faultClearWrite q v
  else s.storeReg r off v

/-- Writes of HLK, LDG and CAL. -/
def State.writeHlk (s : State) (r : RegRow) (i off : Nat) (v : Word) : State :=
  if r.off = HLK_PORT_CFG 0 then (s.storeReg r off v).enableWrite (portUnit i) (bit v.toNat 0)
  else if off = HLK_FIRE_LATENCY then (s.storeReg r off v).checkLatency
  else s.storeReg r off v

def State.writeCal (s : State) (r : RegRow) (i off : Nat) (v : Word) : State :=
  if r.off = CAL_CH_CMD 0 then s.calCmdWrite i v
  else if off = CAL_PT_CTRL then
    let s1 := s.storeReg r off v
    if bit v.toNat 4 then s1.putB CAL_PT_CTRL_JIG true else s1
  else if off = CAL_TRIM_DATA then s.trimWrite v
  else s.storeReg r off v

/-- Writes of CAM; a port that is disabled reports its unassigned streams anew (R332). -/
def State.writeCam (s : State) (r : RegRow) (i j off : Nat) (v : Word) : State :=
  if r.off = CAM_PORT_CFG 0 then
    let s1 := s.storeReg r off v
    if bit v.toNat 0 then s1 else s1.setCam { s1.cam with unassigned := s1.cam.unassigned.filter (fun e => e.1 != i) }
  else if r.off = CAM_CTX_CFG 0 then (s.storeReg r off v).enableWrite (.ctx (Fin.ofNat 16 i)) (bit v.toNat 0)
  else if r.off = CAM_CTX_BLACK 0 0 then s.blackWrite i j v
  else if off = CAM_PIPE_SEL then s.pipeSelWrite v
  else if off = CAM_TAB_DATA then s.tabWrite v
  else s.storeReg r off v

/-- Writes of LED. -/
def State.writeLed (s : State) (r : RegRow) (i off : Nat) (v : Word) : State :=
  if off = LED_SCAN then s.ledScanWrite v
  else if off = LED_UPDATE then (s.storeReg r off v).showU
  else if r.off = LED_BAR_CFG 0 then (s.storeReg r off v).enableWrite (barUnit i) (bit v.toNat 0)
  else if r.off = LED_BAR_CMD 0 then (if bit v.toNat 0 then s.barClear i else s)
  else s.storeReg r off v

/-- Writes of an axis's registers. -/
def State.writeAxis (s : State) (r : RegRow) (a : Fin 16) (off : Nat) (v : Word) : State :=
  let n := v.toNat
  if r.off = MOT_AX_CFG 0 then
    ((s.storeWith r off v (MOT_AX_CFG_MODE a) (s.get (MOT_AX_CFG_MODE a))).axisMode a (bits n 2 1)).enableWrite (.axis a) (bit n 0)
  else if r.off = MOT_AX_CMD 0 then s.motCmdWrite a n
  else if r.off = MOT_AX_TARGET 0 then s.axisTarget a v.toInt
  else if r.off = MOT_AX_VMAX 0 then s.axisLimitWrite a .vmax (n % 2 ^ 23)
  else if r.off = MOT_AX_AMAX 0 then s.axisLimitWrite a .amax n
  else if r.off = MOT_AX_DMAX 0 then s.axisLimitWrite a .dmax n
  else if r.off = MOT_AX_JMAX 0 then s.axisLimitWrite a .jmax n
  else if r.off = MOT_AX_LIM 0 then s.limitsChanged (s.storeReg r off v) a
  else s.storeReg r off v

/-- Writes of the web axis's registers. -/
def State.writeWeb (s : State) (r : RegRow) (off : Nat) (v : Word) : State :=
  let n := v.toNat
  if off = MOT_WEB_CFG then (s.storeReg r off v).driveReady.enableWrite .web (bit n 0)
  else if off = MOT_WEB_SCALE then s.webParam .scale n
  else if off = MOT_WEB_RAMP_A then s.webParam .rampA n
  else if off = MOT_WEB_RAMP_J then s.webParam .rampJ n
  else if off = MOT_WEB_BACK_V then s.webParam .backV n
  else if off = MOT_WEB_TARGET then s.webTarget v.toInt
  else if off = MOT_WEB_CTRL then
    let s1 := s.forceStop (bit n 0)
    if bit n 1 then s1.webJogStop else s1
  else s.storeReg r off v

/-- Writes of ENC. -/
def State.writeEnc (s : State) (r : RegRow) (i off : Nat) (v : Word) : State :=
  if r.off = ENC_M_CFG 0 then (s.storeReg r off v).enableWrite (.master (Fin.ofNat 2 i)) (bit v.toNat 0)
  else if r.off = ENC_Q_CFG 0 then (s.storeReg r off v).enableWrite (.quad (Fin.ofNat 16 i)) (bit v.toNat 0)
  else if r.off = ENC_S_CFG 0 then (s.storeReg r off v).enableWrite (.serial (Fin.ofNat 4 i)) (bit v.toNat 0)
  else if off = ENC_XCHK then (s.storeReg r off v).crossBase
  else if off = ENC_MASTER_SEL then (s.storeReg r off v).selWritten
  else s.storeReg r off v

/-- Writes of LPE. -/
def State.writeLpe (s : State) (r : RegRow) (i off : Nat) (v : Word) : State :=
  if r.off = LPE_CFG 0 then (s.storeReg r off v).enableWrite (.slot (Fin.ofNat 32 i)) (bit v.toNat 0)
  else if r.off = LPE_SP 0 then s.spWrite i v.toNat
  else if r.off = LPE_INTEG 0 then s.integWrite i v.toNat
  else s.storeReg r off v

/-- Writes of DMC. -/
def State.writeDmc (s : State) (r : RegRow) (off : Nat) (v : Word) : State :=
  if off = DMC_CTRL then
    let s1 := s.storeReg r off v
    let s2 := if bit v.toNat 0 then s1.dmcInit else s1
    if bit v.toNat 1 then s2.dmcOpen else s2
  else if off = DMC_TRAIN_CTRL then (s.storeReg r off v).dramRelease
  else if off = DMC_SWEEP_CMD then
    let s1 := if bit v.toNat 0 then s.sweepGo else s
    if bit v.toNat 1 then s1.sweepAbortNow else s1
  else if off = DMC_DLY_DATA then s.dlyWrite v
  else s.storeReg r off v

/-- Writes of PAR; clearing FIRE_EN drives FIRE_AUTH_OUT low (R477). -/
def State.writePar (s : State) (r : RegRow) (off : Nat) (v : Word) : State :=
  let n := v.toNat
  if off = PAR_CFG then
    let s1 := s.storeReg r off v
    let s2 := if s1.on PAR_CFG_FIRE_EN then s1 else s1.putB PAR_STATUS_AUTH false
    s2.enableWrite .mirror (bit n 2)
  else if off = PAR_STATUS then
    let s1 := s.storeReg r off (v &&& ~~~0x80#32)
    if bit n 7 ∧ s.on PAR_STATUS_POS_MISMATCH then s1.posCleared else s1
  else if off = PAR_CMD then
    let s1 := if bit n 0 then s.claimCmd else s
    let s2 := if bit n 1 then s1.yieldCmd else s1
    let s3 := if bit n 2 then s2.handoverCmd else s2
    if bit n 3 then s3.startResync else s3
  else s.storeReg r off v

/-- Writes of NET; a change of VALID is looked at at once (R492). -/
def State.writeNet (s : State) (r : RegRow) (i off : Nat) (v : Word) : State :=
  if r.off = NET_PORT_CFG 0 then (s.storeReg r off v).enableWrite (.net (Fin.ofNat 2 i)) (bit v.toNat 0)
  else if off = NET_PT_RATE then s.ptRate v.toInt
  else if off = NET_PT_STEP_HI then s.ptStep v.toNat
  else if r.off = NET_DOM_CFG 0 then
    let s1 := s.storeReg r off v
    if bit v.toNat 9 then s1.domLost i
    else if s.on (NET_DOM_CFG_VALID i) = bit v.toNat 8 then s1 else s1.domEval 2
  else if r.off = NET_DOM_OFS_HI 0 then s.domWrite i v.toNat
  else s.storeReg r off v

/-- Writes of SDS (R523, R530, R534). -/
def State.writeSds (s : State) (r : RegRow) (l off : Nat) (v : Word) : State :=
  if r.off = SDS_LANE_CFG 0 then
    let s1 := (s.storeWith r off v (SDS_LANE_CFG_LOOP l) (s.get (SDS_LANE_CFG_LOOP l))).loopWrite l v
    if s1.ust (ownerOf l) = .off then s1.enableOne (laneUnit l) (bit v.toNat 0) else s1
  else if r.off = SDS_RX_CTLE 0 then s.ctleWrite l v
  else if r.off = SDS_RX_DFE_TARGET 0 then s.dfeWrite l v
  else s.storeReg r off v

/-- Write a register of an island that runs. -/
def State.writeReg (s : State) (off : Nat) (v : Word) : State :=
  match regRowAt off with
  | none => s
  | some r =>
    let i := (r.ix off).1
    let j := (r.ix off).2
    match blockOf off with
    | 0 => s.writeTop r off v
    | 1 => s.writeTop r off v
    | 2 => s.writeThm r off v
    | 3 => s.writeHif r off v
    | 4 => s.writePgp r off v
    | 7 => s.writePln r i off v
    | 8 => s.writeHlk r i off v
    | 9 => if off = LDG_CMD then s.ldgWrite v else s.storeReg r off v
    | 10 => s.writeCal r i off v
    | 11 => s.writeCam r i j off v
    | 12 => s.writeLed r i off v
    | 13 => if off < MOT_WEB_CFG then s.writeAxis r (Fin.ofNat 16 i) off v else s.writeWeb r off v
    | 14 => s.writeEnc r i off v
    | 15 => s.writeLpe r i off v
    | 16 => s.writeDmc r off v
    | 17 => s.writePar r off v
    | 18 => s.writeNet r i off v
    | 19 => s.writeSds r i off v
    | 20 => s.writeTop r off v
    | 21 => if r.off = PIN_PWM_DUTY 0 then s.pwmDuty i v.toNat else s.storeReg r off v
    | _ => s.storeReg r off v

/-- One 32-bit write by a requester (R9, R495, R558). -/
def State.busWrite (s : State) (req off : Nat) (v : Word) : State :=
  match regRowAt off with
  | none => s
  | some _ => s.reqWrite req off (fun s => s.writeReg off v)

/-- A register write of any width (R8): one narrower than 32 bits is discarded with an access error. -/
def State.writeAccess (s : State) (req off : Nat) (w : AccWidth) (v : BitVec 64) : State :=
  match w with
  | .w64 =>
    if off % 4 ≠ 0 then s
    else (s.busWrite req off (v.setWidth 32)).busWrite req (off + 4) ((v >>> 32).setWidth 32)
  | .w32 => if off % 4 ≠ 0 then s else s.busWrite req off (v.setWidth 32)
  | _ =>
    let a := off / 4 * 4
    if (regRowAt a).isNone || !reaches req a then s
    else if s.islandRuns (islandOf a) then s.accessError req off 1 false
    else s.accessError req off 2 false

def execRegisterWrite (req : Fin 6) (off : Nat) (w : AccWidth) (v : BitVec 64) (s : State) : Out := finish (s.writeAccess req off w v)

/-- A 32-bit write of the register that holds a unit's enable bit (R15). -/
def execUnitEnableWrite (req : Fin 6) (u : UnitId) (v : Word) (s : State) : Out := finish (s.busWrite req (enableFld u).off v)

end Sys2Proof.Machine
end

