-- ==== Sys2Proof/Machine/Dispatch.lean ====
section
/-!
DEFINITION. The dispatch of a command to its meaning: one arm per row of the command table, in the table's order.
-/
namespace Sys2Proof.Machine

def exec (i : Instr) (s : State) : Host.Outcome State Fault Refusal :=
  match i with
  | .registerWrite req off width value => Sys2Proof.Machine.execRegisterWrite req off width value s
  | .rcRegisterRead req off width => Sys2Proof.Machine.execRcRegisterRead req off width s
  | .loRegisterRead req off width => Sys2Proof.Machine.execLoRegisterRead req off width s
  | .glbPressTimeRead req width => Sys2Proof.Machine.execGlbPressTimeRead req width s
  | .glbAccErrClr req => Sys2Proof.Machine.execGlbAccErrClr req s
  | .unitEnableWrite req u value => Sys2Proof.Machine.execUnitEnableWrite req u value s
  | .startActionsComplete u => Sys2Proof.Machine.execStartActionsComplete u s
  | .stopActionsComplete u sameCycle offCycle => Sys2Proof.Machine.execStopActionsComplete u sameCycle offCycle s
  | .startTimeLimitExpired u => Sys2Proof.Machine.execStartTimeLimitExpired u s
  | .unitFaultDetected u reason => Sys2Proof.Machine.execUnitFaultDetected u reason s
  | .tallyWindowEnd u => Sys2Proof.Machine.execTallyWindowEnd u s
  | .retirementCondition u => Sys2Proof.Machine.execRetirementCondition u s
  | .doorbellWrite page off width value => Sys2Proof.Machine.execDoorbellWrite page off width value s
  | .evtDoorbellWrite r off width value => Sys2Proof.Machine.execEvtDoorbellWrite r off width value s
  | .descriptorFetched r res => Sys2Proof.Machine.execDescriptorFetched r res s
  | .nop r => Sys2Proof.Machine.execNop r s
  | .fence r => Sys2Proof.Machine.execFence r s
  | .fenceRelease r => Sys2Proof.Machine.execFenceRelease r s
  | .fenceStall r => Sys2Proof.Machine.execFenceStall r s
  | .evtQueueDrain => Sys2Proof.Machine.execEvtQueueDrain s
  | .writeBackRecord r => Sys2Proof.Machine.execWriteBackRecord r s
  | .msiCoalTimerExpired cfg => Sys2Proof.Machine.execMsiCoalTimerExpired cfg s
  | .rearm req => Sys2Proof.Machine.execRearm req s
  | .coalUsWrite req value => Sys2Proof.Machine.execCoalUsWrite req value s
  | .mbxInDescriptor => Sys2Proof.Machine.execMbxInDescriptor s
  | .mbxDone seq result => Sys2Proof.Machine.execMbxDone seq result s
  | .mbxOutPost entry => Sys2Proof.Machine.execMbxOutPost entry s
  | .mbxOutSpaceFree => Sys2Proof.Machine.execMbxOutSpaceFree s
  | .bar4Read addr len => Sys2Proof.Machine.execBar4Read addr len s
  | .bar4Write addr data => Sys2Proof.Machine.execBar4Write addr data s
  | .pcieLinkDown => Sys2Proof.Machine.execPcieLinkDown s
  | .pcieLinkUp speed width => Sys2Proof.Machine.execPcieLinkUp speed width s
  | .flr => Sys2Proof.Machine.execFlr s
  | .hotReset => Sys2Proof.Machine.execHotReset s
  | .perst => Sys2Proof.Machine.execPerst s
  | .pgpLinePeriodWrite req value => Sys2Proof.Machine.execPgpLinePeriodWrite req value s
  | .applyAtPage req => Sys2Proof.Machine.execApplyAtPage req s
  | .clrHalt req => Sys2Proof.Machine.execClrHalt req s
  | .winEnWrite req value => Sys2Proof.Machine.execWinEnWrite req value s
  | .pressTick => Sys2Proof.Machine.execPressTick s
  | .masterEdge m b r => Sys2Proof.Machine.execMasterEdge m b r s
  | .jobStart k => Sys2Proof.Machine.execJobStart k s
  | .page k => Sys2Proof.Machine.execPage k s
  | .jobEnd k => Sys2Proof.Machine.execJobEnd k s
  | .pageStreamFetched refetch res => Sys2Proof.Machine.execPageStreamFetched refetch res s
  | .pageAreaRoom => Sys2Proof.Machine.execPageAreaRoom s
  | .jobRunupStart => Sys2Proof.Machine.execJobRunupStart s
  | .laneAssignmentStart lane checkOk => Sys2Proof.Machine.execLaneAssignmentStart lane checkOk s
  | .laneAssignmentEnd lane => Sys2Proof.Machine.execLaneAssignmentEnd lane s
  | .resumeLockingStart => Sys2Proof.Machine.execResumeLockingStart s
  | .resumeFirstTick => Sys2Proof.Machine.execResumeFirstTick s
  | .lockFail => Sys2Proof.Machine.execLockFail s
  | .jobEnded => Sys2Proof.Machine.execJobEnded s
  | .keepwetCappedWrite req q value => Sys2Proof.Machine.execKeepwetCappedWrite req q value s
  | .spitOffRetry q => Sys2Proof.Machine.execSpitOffRetry q s
  | .compress unit src st => Sys2Proof.Machine.execCompress unit src st s
  | .decompress unit src st => Sys2Proof.Machine.execDecompress unit src st s
  | .cmxDone unit writeFail => Sys2Proof.Machine.execCmxDone unit writeFail s
  | .portSignalDetected p => Sys2Proof.Machine.execPortSignalDetected p s
  | .portBlockLock p => Sys2Proof.Machine.execPortBlockLock p s
  | .portAdaptDone p => Sys2Proof.Machine.execPortAdaptDone p s
  | .portDeskewDone p => Sys2Proof.Machine.execPortDeskewDone p s
  | .portLatencyDone p echoes => Sys2Proof.Machine.execPortLatencyDone p echoes s
  | .portUp p => Sys2Proof.Machine.execPortUp p s
  | .portDown p lane lockLoss => Sys2Proof.Machine.execPortDown p lane lockLoss s
  | .retrainTimeout p => Sys2Proof.Machine.execRetrainTimeout p s
  | .ackReceived p lsn status slot checkOk => Sys2Proof.Machine.execAckReceived p lsn status slot checkOk s
  | .ackTimeout p lsn => Sys2Proof.Machine.execAckTimeout p lsn s
  | .linePacketDeadline p lsn => Sys2Proof.Machine.execLinePacketDeadline p lsn s
  | .tempReport p slot h tMax tMean flags duty => Sys2Proof.Machine.execTempReport p slot h tMax tMean flags duty s
  | .resResultReport p slot h first codes => Sys2Proof.Machine.execResResultReport p slot h first codes s
  | .declareReport p slot h decl => Sys2Proof.Machine.execDeclareReport p slot h decl s
  | .faultReport p slot h code count line group => Sys2Proof.Machine.execFaultReport p slot h code count line group s
  | .tempStale p slot => Sys2Proof.Machine.execTempStale p slot s
  | .warmUpdate p slot => Sys2Proof.Machine.execWarmUpdate p slot s
  | .plnThermWrite req q k value => Sys2Proof.Machine.execPlnThermWrite req q k value s
  | .plnFaultClear req q value => Sys2Proof.Machine.execPlnFaultClear req q value s
  | .maskLoad p slot h payload => Sys2Proof.Machine.execMaskLoad p slot h payload s
  | .trimLoad p slot h payload => Sys2Proof.Machine.execTrimLoad p slot h payload s
  | .fireParams p slot h payload => Sys2Proof.Machine.execFireParams p slot h payload s
  | .dropTable p slot h payload => Sys2Proof.Machine.execDropTable p slot h payload s
  | .warm p slot h payload => Sys2Proof.Machine.execWarm p slot h payload s
  | .therm p slot h payload => Sys2Proof.Machine.execTherm p slot h payload s
  | .resSweep p slot h payload => Sys2Proof.Machine.execResSweep p slot h payload s
  | .spit p slot h payload => Sys2Proof.Machine.execSpit p slot h payload s
  | .lineCancel p slot h payload => Sys2Proof.Machine.execLineCancel p slot h payload s
  | .setLine p slot h payload => Sys2Proof.Machine.execSetLine p slot h payload s
  | .tickDelay p slot h payload => Sys2Proof.Machine.execTickDelay p slot h payload s
  | .assignId p slot h payload => Sys2Proof.Machine.execAssignId p slot h payload s
  | .declareReq p slot h payload => Sys2Proof.Machine.execDeclareReq p slot h payload s
  | .clearFault p slot h payload => Sys2Proof.Machine.execClearFault p slot h payload s
  | .echo p slot nonce => Sys2Proof.Machine.execEcho p slot nonce s
  | .linePacketReceive p slot h payload => Sys2Proof.Machine.execLinePacketReceive p slot h payload s
  | .tickReceived p slot line phase auth => Sys2Proof.Machine.execTickReceived p slot line phase auth s
  | .tileTickMissed p slot => Sys2Proof.Machine.execTileTickMissed p slot s
  | .tileAuthorityLost p => Sys2Proof.Machine.execTileAuthorityLost p s
  | .tileTempSample p slot tMax tMean => Sys2Proof.Machine.execTileTempSample p slot tMax tMean s
  | .tileWarmHoldExpired p slot => Sys2Proof.Machine.execTileWarmHoldExpired p slot s
  | .ldgCmdWrite req value => Sys2Proof.Machine.execLdgCmdWrite req value s
  | .setTemp => Sys2Proof.Machine.execSetTemp s
  | .clearTemp => Sys2Proof.Machine.execClearTemp s
  | .retire => Sys2Proof.Machine.execRetire s
  | .restore => Sys2Proof.Machine.execRestore s
  | .evidence => Sys2Proof.Machine.execEvidence s
  | .purgeDone => Sys2Proof.Machine.execPurgeDone s
  | .sweep => Sys2Proof.Machine.execSweep s
  | .adopt => Sys2Proof.Machine.execAdopt s
  | .rebase => Sys2Proof.Machine.execRebase s
  | .sweepRetry p slot => Sys2Proof.Machine.execSweepRetry p slot s
  | .sweepEnd => Sys2Proof.Machine.execSweepEnd s
  | .heldMaskChangeRelease p slot => Sys2Proof.Machine.execHeldMaskChangeRelease p slot s
  | .mramWriteBatch => Sys2Proof.Machine.execMramWriteBatch s
  | .ledgerLoadComplete errs => Sys2Proof.Machine.execLedgerLoadComplete errs s
  | .calTempCheck => Sys2Proof.Machine.execCalTempCheck s
  | .calScheduleExpired c => Sys2Proof.Machine.execCalScheduleExpired c s
  | .calReq req c => Sys2Proof.Machine.execCalReq req c s
  | .calStart req c => Sys2Proof.Machine.execCalStart req c s
  | .calComplete req c => Sys2Proof.Machine.execCalComplete req c s
  | .calAbandon req c => Sys2Proof.Machine.execCalAbandon req c s
  | .calAutoStart c => Sys2Proof.Machine.execCalAutoStart c s
  | .calTimeout c => Sys2Proof.Machine.execCalTimeout c s
  | .calTrimDataWrite req value => Sys2Proof.Machine.execCalTrimDataWrite req value s
  | .ptBandFinalise => Sys2Proof.Machine.execPtBandFinalise s
  | .probeClose q c => Sys2Proof.Machine.execProbeClose q c s
  | .csi2LongPacket port vc dt ecc crcOk pixels room => Sys2Proof.Machine.execCsi2LongPacket port vc dt ecc crcOk pixels room s
  | .frameStart port vc => Sys2Proof.Machine.execFrameStart port vc s
  | .lineStart port vc => Sys2Proof.Machine.execLineStart port vc s
  | .lineEnd port vc pixels room => Sys2Proof.Machine.execLineEnd port vc pixels room s
  | .frameEnd port vc => Sys2Proof.Machine.execFrameEnd port vc s
  | .frameTimeout x => Sys2Proof.Machine.execFrameTimeout x s
  | .sharedPipelineTake pipe => Sys2Proof.Machine.execSharedPipelineTake pipe s
  | .pipelineLineDone pipe => Sys2Proof.Machine.execPipelineLineDone pipe s
  | .regLost q => Sys2Proof.Machine.execRegLost q s
  | .frameBuf => Sys2Proof.Machine.execFrameBuf s
  | .capture => Sys2Proof.Machine.execCapture s
  | .camPipeSelWrite req value => Sys2Proof.Machine.execCamPipeSelWrite req value s
  | .camTabDataWrite req value => Sys2Proof.Machine.execCamTabDataWrite req value s
  | .ledScanWrite req value => Sys2Proof.Machine.execLedScanWrite req value s
  | .ledUpdate bar xa xb reply => Sys2Proof.Machine.execLedUpdate bar xa xb reply s
  | .ledStatusRead bar lrtn => Sys2Proof.Machine.execLedStatusRead bar lrtn s
  | .ledSenseRead bar => Sys2Proof.Machine.execLedSenseRead bar s
  | .ledBarClear req bar => Sys2Proof.Machine.execLedBarClear req bar s
  | .driverWrite bar frame => Sys2Proof.Machine.execDriverWrite bar frame s
  | .gsBlock bar frame payload crc => Sys2Proof.Machine.execGsBlock bar frame payload crc s
  | .driverRead bar frame => Sys2Proof.Machine.execDriverRead bar frame s
  | .driverSync bar frame => Sys2Proof.Machine.execDriverSync bar frame s
  | .driverClear bar frame => Sys2Proof.Machine.execDriverClear bar frame s
  | .lclkLoss bar pos => Sys2Proof.Machine.execLclkLoss bar pos s
  | .plannerTick => Sys2Proof.Machine.execPlannerTick s
  | .comparatorTrip axis phaseB => Sys2Proof.Machine.execComparatorTrip axis phaseB s
  | .chopperOffTimeEnd axis phaseB => Sys2Proof.Machine.execChopperOffTimeEnd axis phaseB s
  | .limitInputChange axis positive level => Sys2Proof.Machine.execLimitInputChange axis positive level s
  | .push req axis => Sys2Proof.Machine.execPush req axis s
  | .stop req axis => Sys2Proof.Machine.execStop req axis s
  | .setPos req axis => Sys2Proof.Machine.execSetPos req axis s
  | .gearPush req axis => Sys2Proof.Machine.execGearPush req axis s
  | .motAxTargetWrite req axis target => Sys2Proof.Machine.execMotAxTargetWrite req axis target s
  | .motAxModeWrite req axis mode => Sys2Proof.Machine.execMotAxModeWrite req axis mode s
  | .axisLimitWrite req axis which v => Sys2Proof.Machine.execAxisLimitWrite req axis which v s
  | .motWebTargetWrite req lines => Sys2Proof.Machine.execMotWebTargetWrite req lines s
  | .jogStop req => Sys2Proof.Machine.execJogStop req s
  | .forceStopWrite req force => Sys2Proof.Machine.execForceStopWrite req force s
  | .motWebParamWrite req which v => Sys2Proof.Machine.execMotWebParamWrite req which v s
  | .webMoveStandstill => Sys2Proof.Machine.execWebMoveStandstill s
  | .driveReadyChange level => Sys2Proof.Machine.execDriveReadyChange level s
  | .standstillTimeout u => Sys2Proof.Machine.execStandstillTimeout u s
  | .quadratureChange q a b => Sys2Proof.Machine.execQuadratureChange q a b s
  | .serialReadStart n => Sys2Proof.Machine.execSerialReadStart n s
  | .serialWordReceived n timeout word => Sys2Proof.Machine.execSerialWordReceived n timeout word s
  | .loopBaseTick => Sys2Proof.Machine.execLoopBaseTick s
  | .lpeIntegWrite req slot v => Sys2Proof.Machine.execLpeIntegWrite req slot v s
  | .lpeSpWrite req slot v => Sys2Proof.Machine.execLpeSpWrite req slot v s
  | .pinPwmDutyWrite req ch v => Sys2Proof.Machine.execPinPwmDutyWrite req ch v s
  | .pwmPeriodStart => Sys2Proof.Machine.execPwmPeriodStart s
  | .pinEdge levels => Sys2Proof.Machine.execPinEdge levels s
  | .dramRead src addr errs => Sys2Proof.Machine.execDramRead src addr errs s
  | .dramWrite addr data errs => Sys2Proof.Machine.execDramWrite addr data errs s
  | .eccWriteBack addr => Sys2Proof.Machine.execEccWriteBack addr s
  | .rhTableClear => Sys2Proof.Machine.execRhTableClear s
  | .refreshDue rank laneWaiting => Sys2Proof.Machine.execRefreshDue rank laneWaiting s
  | .dmcLiveStep => Sys2Proof.Machine.execDmcLiveStep s
  | .mr4Poll fields => Sys2Proof.Machine.execMr4Poll fields s
  | .patrolScrubRead errs => Sys2Proof.Machine.execPatrolScrubRead errs s
  | .driftCheck counts => Sys2Proof.Machine.execDriftCheck counts s
  | .dmcInit req => Sys2Proof.Machine.execDmcInit req s
  | .dramInitDone fail rfmSupported rfmRequired deviceId => Sys2Proof.Machine.execDramInitDone fail rfmSupported rfmRequired deviceId s
  | .dmcOpen req => Sys2Proof.Machine.execDmcOpen req s
  | .dramReady fillMs => Sys2Proof.Machine.execDramReady fillMs s
  | .dmcSweepGo req => Sys2Proof.Machine.execDmcSweepGo req s
  | .dmcSweepAbort req => Sys2Proof.Machine.execDmcSweepAbort req s
  | .dmcSweepDone points => Sys2Proof.Machine.execDmcSweepDone points s
  | .dmcDlyDataWrite req value => Sys2Proof.Machine.execDmcDlyDataWrite req value s
  | .claim req => Sys2Proof.Machine.execClaim req s
  | .yield req => Sys2Proof.Machine.execYield req s
  | .handover req => Sys2Proof.Machine.execHandover req s
  | .resync req => Sys2Proof.Machine.execResync req s
  | .autoYield port => Sys2Proof.Machine.execAutoYield port s
  | .renewTimer => Sys2Proof.Machine.execRenewTimer s
  | .renewReceived epoch => Sys2Proof.Machine.execRenewReceived epoch s
  | .claimReceived epoch => Sys2Proof.Machine.execClaimReceived epoch s
  | .claimAckReceived => Sys2Proof.Machine.execClaimAckReceived s
  | .yieldReceived => Sys2Proof.Machine.execYieldReceived s
  | .leaseExpired => Sys2Proof.Machine.execLeaseExpired s
  | .autoClaimDelayExpired => Sys2Proof.Machine.execAutoClaimDelayExpired s
  | .yieldTimeout => Sys2Proof.Machine.execYieldTimeout s
  | .fireAuthRaise => Sys2Proof.Machine.execFireAuthRaise s
  | .fireAuthInChange level => Sys2Proof.Machine.execFireAuthInChange level s
  | .splitSuspect => Sys2Proof.Machine.execSplitSuspect s
  | .peerFenceEnd => Sys2Proof.Machine.execPeerFenceEnd s
  | .takeoverReady failStep posMismatch => Sys2Proof.Machine.execTakeoverReady failStep posMismatch s
  | .mirrorPacketReceived lsn crcOk health note => Sys2Proof.Machine.execMirrorPacketReceived lsn crcOk health note s
  | .journalRecordReceived r => Sys2Proof.Machine.execJournalRecordReceived r s
  | .mirrorAckTimeout => Sys2Proof.Machine.execMirrorAckTimeout s
  | .mirrorDown lane => Sys2Proof.Machine.execMirrorDown lane s
  | .mirrorUp => Sys2Proof.Machine.execMirrorUp s
  | .soloTimer => Sys2Proof.Machine.execSoloTimer s
  | .healthTimer ports => Sys2Proof.Machine.execHealthTimer ports s
  | .standbySelfTest test ok errs => Sys2Proof.Machine.execStandbySelfTest test ok errs s
  | .netLinkChange p up fullGigabit => Sys2Proof.Machine.execNetLinkChange p up fullGigabit s
  | .netFrameReceived p frame fcsOk tIn tEg => Sys2Proof.Machine.execNetFrameReceived p frame fcsOk tIn tEg s
  | .netFrameTransmit p frame => Sys2Proof.Machine.execNetFrameTransmit p frame s
  | .netDomOfsWrite req d hi => Sys2Proof.Machine.execNetDomOfsWrite req d hi s
  | .netDomLostWrite req d => Sys2Proof.Machine.execNetDomLostWrite req d s
  | .domainSlotExpired d => Sys2Proof.Machine.execDomainSlotExpired d s
  | .netPtStepWrite req hi => Sys2Proof.Machine.execNetPtStepWrite req hi s
  | .powerOn mode => Sys2Proof.Machine.execPowerOn mode s
  | .railDrop core => Sys2Proof.Machine.execRailDrop core s
  | .refClkFail => Sys2Proof.Machine.execRefClkFail s
  | .resetNAssert => Sys2Proof.Machine.execResetNAssert s
  | .peerFenceInAssert => Sys2Proof.Machine.execPeerFenceInAssert s
  | .watchdogKick req v => Sys2Proof.Machine.execWatchdogKick req v s
  | .watchdogExpire => Sys2Proof.Machine.execWatchdogExpire s
  | .softwareReset req v => Sys2Proof.Machine.execSoftwareReset req v s
  | .resetAssert src islands => Sys2Proof.Machine.execResetAssert src islands s
  | .resetDeassert src => Sys2Proof.Machine.execResetDeassert src s
  | .islandClockTimeout k => Sys2Proof.Machine.execIslandClockTimeout k s
  | .optionBlockLoad errs => Sys2Proof.Machine.execOptionBlockLoad errs s
  | .nvmOptCmd req v => Sys2Proof.Machine.execNvmOptCmd req v s
  | .rstBootDataWrite req v => Sys2Proof.Machine.execRstBootDataWrite req v s
  | .go req => Sys2Proof.Machine.execGo req s
  | .bootComplete fail entry => Sys2Proof.Machine.execBootComplete fail entry s
  | .clrCnt req => Sys2Proof.Machine.execClrCnt req s
  | .housekeepingSlowRound die ext hk => Sys2Proof.Machine.execHousekeepingSlowRound die ext hk s
  | .dieFastRead die => Sys2Proof.Machine.execDieFastRead die s
  | .corePwrOffTimer => Sys2Proof.Machine.execCorePwrOffTimer s
  | .shutClr req => Sys2Proof.Machine.execShutClr req s
  | .thmLevelWrite req second v => Sys2Proof.Machine.execThmLevelWrite req second v s
  | .vbatLoss => Sys2Proof.Machine.execVbatLoss s
  | .trainBlockReceived lane body => Sys2Proof.Machine.execTrainBlockReceived lane body s
  | .rxSearchDone lane ctle taps fom => Sys2Proof.Machine.execRxSearchDone lane ctle taps fom s
  | .laneEqStep lane => Sys2Proof.Machine.execLaneEqStep lane s
  | .laneFomCheck lane w h => Sys2Proof.Machine.execLaneFomCheck lane w h s
  | .laneIdleWake lane => Sys2Proof.Machine.execLaneIdleWake lane s
  | .laneSignalDetect lane => Sys2Proof.Machine.execLaneSignalDetect lane s
  | .loopWrite req lane value => Sys2Proof.Machine.execLoopWrite req lane value s
  | .rowSlotStart row opens shorts sense => Sys2Proof.Machine.execRowSlotStart row opens shorts sense s
  | .driverOtChange bar pos hot => Sys2Proof.Machine.execDriverOtChange bar pos hot s
  | .pressTimeAdvance => Sys2Proof.Machine.execPressTimeAdvance s
  | .islandClockGood k good mhz => Sys2Proof.Machine.execIslandClockGood k good mhz s
  | .laneIdleEntry lane => Sys2Proof.Machine.execLaneIdleEntry lane s
  | .prbsCheckerLock lane lock errors mbits => Sys2Proof.Machine.execPrbsCheckerLock lane lock errors mbits s
  | .loopbackTestEnd lane errors mbits => Sys2Proof.Machine.execLoopbackTestEnd lane errors mbits s
  | .tileReportTimer p slot fault => Sys2Proof.Machine.execTileReportTimer p slot fault s
  | .heaterDriveOrBufferFault p slot buffer => Sys2Proof.Machine.execHeaterDriveOrBufferFault p slot buffer s
  | .portAuthorised p => Sys2Proof.Machine.execPortAuthorised p s
  | .mirrorAckReceived lsn nak => Sys2Proof.Machine.execMirrorAckReceived lsn nak s
  | .axisJournalTimer => Sys2Proof.Machine.execAxisJournalTimer s

end Sys2Proof.Machine
end

