-- ==== Sys2Proof/Safety.lean ====
section
/-!
DEFINITION. What counts as a sound state, and the terms the statements use: what a command leaves alone, what it posts, and how it
completes a descriptor.
-/
namespace Sys2Proof.Machine

/-- The register file and the byte memories are in canonical form. -/
def State.wfMem (s : State) : Bool :=
  s.regs.wf && Memory.wf s.hostMem && Memory.wf s.dram && Memory.wf s.mram && Memory.wf s.rst.sram

/-- The interrupt bookkeeping agrees with the interrupt condition (R97 to R99): the coalescing time runs exactly while the condition
holds and the MSI is armed, and INTA is not asserted without the condition. -/
abbrev State.irqSound (s : State) : Prop :=
  s.hif.coalSince.isSome = (s.irqCond && s.on HIF_MSI_CTRL_ARMED) ∧ (s.hif.inta = true → s.irqCond = true)

/-- The state beside the register file, the host interface and host memory: all that an event or a completion cannot touch. -/
def State.hidden (s : State) : State := { s with regs := [], hif := Hif.reset, hostMem := [] }

/-- The registers that posting an event can change: EVT's status, the count of lost events, and HIF's causes (R74, R75). -/
def evtRegs : List Nat := [HIF_RING_STATUS 8, HIF_EVT_LOST, HIF_IRQ_CAUSE]

/-- The registers that completing a descriptor of ring `n` can change: the watermark and those of the entry posted (R73, R88). -/
def doneRegs (n : Nat) : List Nat := HIF_RING_DONE n :: evtRegs

/-- Every register but the listed ones holds what it held. -/
def Keeps (s t : State) (offs : List Nat) : Prop := ∀ a, a ∉ offs → t.rget a = s.rget a

/-- Nothing changes but the listed registers and the interrupt bookkeeping of R97 to R99; no event is posted. -/
def Silent (s t : State) (offs : List Nat) : Prop :=
  t = { s with regs := t.regs, hif := { s.hif with coalSince := t.hif.coalSince, inta := t.hif.inta } } ∧ Keeps s t offs

/-- Nothing changes but the listed registers and what posting events changes: EVT with its registers, its internal queue and host
memory. -/
def Touches (s t : State) (offs : List Nat) : Prop := t.hidden = s.hidden ∧ Keeps s t (offs ++ evtRegs)

/-- Nothing changes but the listed registers, the interrupt bookkeeping of R97 to R99, and what `u` gives another value than `s`; no event
is posted. -/
def Alters (s t u : State) (offs : List Nat) : Prop :=
  t = { u with regs := t.regs, hif := { s.hif with coalSince := t.hif.coalSince, inta := t.hif.inta } } ∧ Keeps s t offs

/-- Nothing changes but the listed registers, what posting events changes, and what `u` gives another value than `s`. -/
def AltersPosting (s t u : State) (offs : List Nat) : Prop := t.hidden = u.hidden ∧ Keeps s t (offs ++ evtRegs)

/-- The units whose enable bit is the whole effect of a write of bit 0 of their configuration register: encoder inputs, camera
contexts, loop slots, LED bars and network ports. -/
def plainUnit : UnitId → Bool
  | .master _ => true
  | .quad _ => true
  | .serial _ => true
  | .ctx _ => true
  | .slot _ => true
  | .bar _ => true
  | .net _ => true
  | _ => false

/-- Can an event be kept now: the host island runs, the PCIe link is up and the internal queue has room (R75, R102)? -/
abbrev State.takesEvents (s : State) : Prop := s.islandRuns 1 = true ∧ s.hif.linkUp = true ∧ s.hif.evtQueue.length < 256

/-- The entries that are on their way to the driver, in order: written to EVT and not returned, then queued inside (R75). -/
def State.evtEntries (s : State) : List EvtEntry := s.hif.evtUnread ++ s.hif.evtQueue

/-- An event with a code, a unit and a payload is among the entries after the command, with the next sequence number and the time of
the command (R82), provided that an event can be kept at all. -/
def Posts (s t : State) (code unit : Nat) (p : List Nat) : Prop :=
  s.takesEvents → ∃ e ∈ t.evtEntries, e.typ = 1 ∧ e.code = code ∧ e.unit = unit ∧ e.payload = p ∧ e.seq = s.hif.evtNext % 65536 ∧
    e.time = s.now

/-- An event with a code and a unit is among the entries after the command, with a sequence number that the command took, provided that
no entry had to be dropped. -/
def PostsSome (s t : State) (code unit : Nat) : Prop :=
  s.islandRuns 1 = true → s.hif.linkUp = true → t.hif.evtQueue.length < 256 → ∃ e ∈ t.evtEntries, e.typ = 1 ∧ e.code = code ∧ e.unit = unit ∧
    ∃ k, s.hif.evtNext ≤ k ∧ k < t.hif.evtNext ∧ e.seq = k % 65536

/-- A descriptor of ring `n` is completed with an entry of a type, a code, a status, a unit and a payload (R73, R82), provided that an
entry can be kept at all. -/
def Completes (s t : State) (n seq typ code status unit : Nat) (p : List Nat) : Prop :=
  s.takesEvents → ∃ e ∈ t.evtEntries, e.typ = typ ∧ e.code = code ∧ e.src = n ∧ e.status = status ∧ e.descSeq = seq ∧ e.unit = unit ∧
    e.payload = p ∧ e.time = s.now

/-- A control packet that the tile at a slot executes: it is whole, the port is authorised, the tile is there and has not taken this number
yet (R193, R199, R203, R221). -/
abbrev State.takesCtl (s : State) (p slot : Nat) (h : CtlHdr) (b : List Byte) (len : Nat) : Prop :=
  h.crcOk = true ∧ packetBlocks b.length = packetBlocks len ∧ len ≤ b.length ∧ s.authorised p = true ∧ slot < 24 ∧
    (s.tile p slot).present = true ∧ (s.tile p slot).lastCseq ≠ some h.cseq.toNat

/-- A module answers a packet with an acknowledgement, and nothing but the tile at that slot changes. -/
def Answers (s t : State) (p slot lsn status : Nat) : Prop :=
  t.heads = { s.heads with tiles := t.heads.tiles, ack := s.heads.ack.set p (some { lsn := lsn, status := status, slot := slot }) } ∧
    (∀ q k, k < 32 → (q ≠ p ∨ k ≠ slot) → t.tile q k = s.tile q k) ∧ Alters s t { s with heads := t.heads } []

/-- Nothing but the tile at a slot changes. -/
def OnlyTile (s t : State) (p slot : Nat) : Prop :=
  t.heads = { s.heads with tiles := t.heads.tiles } ∧ (∀ q k, k < 32 → (q ≠ p ∨ k ≠ slot) → t.tile q k = s.tile q k) ∧
    Alters s t { s with heads := t.heads } []

/-- The descriptor with which an engine goes on: the ring's next one, not stale, alone with its sequence number among the open ones. -/
abbrev State.isHead (s : State) (n : Nat) (d : OpenDesc) : Prop := s.head n = some d ∧ s.desc n d.seq = some d ∧ d.stale = false

/-- y of R426: the raw input with gain and offset. -/
def State.loopY (s : State) (l : Nat) (raw : F32) : F32 := f32Add (f32Mul (s.f32 (LPE_IN_GAIN_GAIN l)) raw) (s.f32 (LPE_IN_OFS_OFS l))

/-- The filtered value, and the filter's two states after it (R426). -/
def State.loopYf (s : State) (l : Nat) (raw : F32) : F32 := f32Add (f32Mul (s.f32 (LPE_B0_COEF l)) (s.loopY l raw)) (s.loopS l).z1
def State.loopZ1 (s : State) (l : Nat) (raw : F32) : F32 :=
  f32Add (f32Sub (f32Mul (s.f32 (LPE_B1_COEF l)) (s.loopY l raw)) (f32Mul (s.f32 (LPE_A1_COEF l)) (s.loopYf l raw))) (s.loopS l).z2
def State.loopZ2 (s : State) (l : Nat) (raw : F32) : F32 :=
  f32Sub (f32Mul (s.f32 (LPE_B2_COEF l)) (s.loopY l raw)) (f32Mul (s.f32 (LPE_A2_COEF l)) (s.loopYf l raw))

/-- e, and the terms of the controller: proportional, derivative, feed-forward with bias, and the integral's increment (R426). -/
def State.loopE (s : State) (l : Nat) (raw : F32) : F32 := f32Sub (s.f32 (LPE_SP_SP l)) (s.loopYf l raw)
def State.loopP (s : State) (l : Nat) (raw : F32) : F32 := f32Mul (s.f32 (LPE_KP_GAIN l)) (s.loopE l raw)
def State.loopD (s : State) (l : Nat) (raw : F32) : F32 :=
  f32Mul (s.f32 (LPE_KD_GAIN l)) (f32Sub ((s.loopS l).yfPrev.getD (s.loopYf l raw)) (s.loopYf l raw))
def State.loopFf (s : State) (l : Nat) : F32 := f32Add (f32Mul (s.f32 (LPE_KFF_GAIN l)) (s.f32 (LPE_SP_SP l))) (s.f32 (LPE_BIAS_GAIN l))
def State.loopDi (s : State) (l : Nat) (raw : F32) : F32 := f32Mul (s.f32 (LPE_KI_GAIN l)) (s.loopE l raw)

/-- The controller's sum with an integral `i` (R426). -/
def State.loopSum (s : State) (l : Nat) (raw i : F32) : F32 := f32Add (f32Add (f32Add (s.loopP l raw) i) (s.loopD l raw)) (s.loopFf l)

/-- The integral with its increment, and the integral after the sample: it stays when it would drive the output further out of range
(R426). -/
def State.loopI1 (s : State) (l : Nat) (raw : F32) : F32 := f32Add (s.f32 (LPE_INTEG_I l)) (s.loopDi l raw)
def State.loopI (s : State) (l : Nat) (raw : F32) : F32 :=
  if (f32Lt (s.f32 (LPE_OUT_MAX_VALUE l)) (s.loopSum l raw (s.loopI1 l raw)) = true ∧ f32Lt 0 (s.loopDi l raw) = true) ∨
      (f32Lt (s.loopSum l raw (s.loopI1 l raw)) (s.f32 (LPE_OUT_MIN_VALUE l)) = true ∧ f32Lt (s.loopDi l raw) 0 = true)
  then s.f32 (LPE_INTEG_I l) else s.loopI1 l raw

/-- u: the sum limited to OUT_MIN to OUT_MAX (R426). -/
def State.loopU (s : State) (l : Nat) (raw : F32) : F32 :=
  if f32Lt (s.loopSum l raw (s.loopI l raw)) (s.f32 (LPE_OUT_MIN_VALUE l)) = true then s.f32 (LPE_OUT_MIN_VALUE l)
  else if f32Lt (s.f32 (LPE_OUT_MAX_VALUE l)) (s.loopSum l raw (s.loopI l raw)) = true then s.f32 (LPE_OUT_MAX_VALUE l)
  else s.loopSum l raw (s.loopI l raw)

/-- Every value of the sample is a finite number (R426). -/
def State.loopFinite (s : State) (l : Nat) (raw : F32) : Bool :=
  [raw, s.loopY l raw, s.loopYf l raw, s.loopZ1 l raw, s.loopZ2 l raw, s.loopE l raw, s.loopP l raw, s.loopD l raw, s.loopFf l, s.loopDi l raw,
    s.loopSum l raw (s.loopI1 l raw), s.loopI l raw, s.loopSum l raw (s.loopI l raw), s.loopU l raw].all f32Finite

end Sys2Proof.Machine
end

