-- ==== Sys2Proof/Certificates/Slice0/Obligations.lean ====
section
/-!
DEFINITION. The statements of this model, for the provers. A statement of several clauses names a group of commands; each clause says, under
hypotheses on the state and the operands alone, that the command answers a next state, what that state holds, and what it leaves as it
was (Silent, Touches, Alters and AltersPosting of Safety.lean are the frames).
-/
open Sys2Proof Sys2Proof.Machine

/-- A step takes the command at the front of the queue and is its effect with the queue's rest. On an empty queue the block idles
(the model's choice, log 1). -/
def Obligations.StepRunsTheFrontCommand : Prop :=
  (∀ (c : Instr) (s : State), step { s with pending := c :: s.pending } = exec c s) ∧
  (∀ s : State, s.pending = [] → step s = .next s)

/-- After reset: no command waits, every register holds its value of the reset table, no entry is on its way to the driver, the
canonical forms hold, and the interrupt bookkeeping agrees with the interrupt condition. That a byte of memory that nothing has
written reads 0 is the model's choice (log 4), and so are the reset values that log 48 names. -/
def Obligations.StateAfterReset : Prop :=
  State.reset.pending = [] ∧ (∀ a, State.reset.rget a = resetOf a) ∧ State.reset.evtEntries = [] ∧
  (∀ a, Mem.read State.reset.dram a = 0 ∧ Mem.read State.reset.hostMem a = 0 ∧ Mem.read State.reset.mram a = 0) ∧
  State.reset.wfMem = true ∧ State.reset.irqSound

/-- R97 to R99 as an invariant of every step: the coalescing time runs exactly while the interrupt condition holds and the MSI is armed,
and INTA is asserted only while the condition holds. -/
def Obligations.InterruptBookkeepingHolds : Prop :=
  ∀ s t : State, s.irqSound → step s = .next t → t.irqSound

/-- No command ends in a fault or a refusal: each answers a next state, whatever the state, and that state has its interrupt bookkeeping
in order. -/
def Obligations.EveryCommandCompletes : Prop :=
  ∀ (c : Instr) (s : State), ∃ t, exec c s = .next t ∧ t.irqSound

/-- Accesses to registers. A 32-bit write of a register of DCX or CMX stores the writable bits and clears the bits of W1C written 1
(R11). A read of 8 to 32 bits of an RC register returns the addressed bytes and returns the whole register to its reset value (R8,
R11). A read of a LO register fills the reader's latches with the registers it latches, and no other requester's (R560). A 64-bit
read of GLB_PRESS_TIME_LO returns PRESS_TIME (R8, R562). CLR of GLB_ACC_ERR clears the error latch (R563). -/
def Obligations.RegisterAccesses : Prop :=
  (∀ (s : State) (req : Fin 6) (off : Nat) (r : RegRow) (v : BitVec 64),
    req ≠ 5 → off % 4 = 0 → regRowAt off = some r → blockOf off = 5 ∨ blockOf off = 6 → s.islandRuns 2 = true →
    ∃ t, exec (.registerWrite req off .w32 v) s = .next t ∧
      t.rget off = ((s.rget off &&& ~~~BitVec.ofNat 32 r.rw) ||| (v.setWidth 32 &&& BitVec.ofNat 32 r.rw)) &&&
        ~~~(v.setWidth 32 &&& BitVec.ofNat 32 r.w1c) ∧
      Silent s t [off]) ∧
  (∀ (s : State) (req : Fin 6) (off : Nat) (r : RegRow) (w : AccWidth),
    w ≠ .w64 → off % 4 = 0 → regRowAt off = some r → r.rc = true → reaches req off = true → s.islandRuns (islandOf off) = true →
    ∃ t, exec (.rcRegisterRead req off w) s = .next t ∧ t.read.data = narrowRead (s.view off) off w ∧ t.rget off = resetOf off ∧
      Keeps s t [off] ∧ t.hidden = { s.hidden with read := t.read }) ∧
  (∀ (s : State) (req : Fin 6) (off : Nat) (r : RegRow),
    off % 4 = 0 → regRowAt off = some r → latchTargets r.off (r.ix off).1 ≠ [] → isLatched r.off = false → reaches req off = true →
    s.islandRuns (islandOf off) = true →
    ∃ t, exec (.loRegisterRead req off .w32) s = .next t ∧ t.read.data = BitVec.ofNat 64 (s.view off).toNat ∧
      (∀ a ∈ latchTargets r.off (r.ix off).1, t.latched req a = s.view a) ∧
      (∀ (q a : Nat), q ≠ req → t.latched q a = s.latched q a)) ∧
  (∀ (s : State) (req : Fin 6), s.islandRuns 0 = true →
    ∃ t, exec (.glbPressTimeRead req .w64) s = .next t ∧ t.read.data = BitVec.ofNat 64 s.now ∧
      t.latched req GLB_SNAP_LINE_LO = s.view GLB_SNAP_LINE_LO ∧ Keeps s t []) ∧
  (∀ (s : State) (req : Fin 6),
    ∃ t, exec (.glbAccErrClr req) s = .next t ∧ t.on GLB_ACC_ERR_VALID = false ∧ t.get GLB_ACC_ERR_COUNT = 0 ∧
      t.rget GLB_ACC_ADDR = 0 ∧ Silent s t [GLB_ACC_ERR, GLB_ACC_ADDR])

/-- Accesses that are no plain read or write of a register. Where no register lies a read returns 0 and a write has no effect, whatever
the width and the island (R9). A narrow write to a register of a running island, and any access to one whose island is in reset or
fenced, is discarded (a read returns 0) and recorded with kind 1 or 2; the first error since the last clear is latched and
posts ACCESS_ERROR (R8, R495, R563). The housekeeping core reaches nothing outside GLB, RST, THM, NVM and PIN (R558). -/
def Obligations.AccessErrors : Prop :=
  (∀ (s : State) (req : Fin 6) (off : Nat) (v : BitVec 64), regRowAt off = none →
    (∃ t, exec (.registerWrite req off .w32 v) s = .next t ∧ Silent s t []) ∧
    (∃ t, exec (.rcRegisterRead req off .w32) s = .next t ∧ t.read.data = 0 ∧ Keeps s t [])) ∧
  (∀ (s : State) (req : Fin 6) (off : Nat) (r : RegRow) (v : BitVec 64),
    regRowAt (off / 4 * 4) = some r → reaches req (off / 4 * 4) = true → s.islandRuns (islandOf (off / 4 * 4)) = true →
    s.on GLB_ACC_ERR_VALID = false →
    ∃ t, exec (.registerWrite req off .w8 v) s = .next t ∧ t.on GLB_ACC_ERR_VALID = true ∧ t.get GLB_ACC_ERR_KIND = 1 ∧
      t.on GLB_ACC_ERR_READ = false ∧ t.get GLB_ACC_ERR_REQ = req.val ∧
      Posts s t Ev.ACCESS_ERROR 0xFFFF [1, 0, req.val, off] ∧
      Touches s t [GLB_ACC_ERR, GLB_ACC_ADDR, GLB_IRQ_CAUSE]) ∧
  (∀ (s : State) (req : Fin 6) (off : Nat) (r : RegRow) (v : BitVec 64),
    off % 4 = 0 → regRowAt off = some r → reaches req off = true → s.islandRuns (islandOf off) = false →
    s.on GLB_ACC_ERR_VALID = false →
    ∃ t, exec (.registerWrite req off .w32 v) s = .next t ∧ t.on GLB_ACC_ERR_VALID = true ∧ t.get GLB_ACC_ERR_KIND = 2 ∧
      t.on GLB_ACC_ERR_READ = false ∧ t.get GLB_ACC_ERR_REQ = req.val ∧
      Posts s t Ev.ACCESS_ERROR 0xFFFF [2, 0, req.val, off] ∧ Touches s t [GLB_ACC_ERR, GLB_ACC_ADDR, GLB_IRQ_CAUSE]) ∧
  (∀ (s : State) (off : Nat) (v : BitVec 64), off % 4 = 0 → reaches 5 off = false →
    ∃ t, exec (.registerWrite 5 off .w32 v) s = .next t ∧ Silent s t [])

/-- The unit state machine under enable writes (R15). A unit that is STOPPING keeps the last enable written as PEND; a unit in FAULT whose
enable is written 0 is OFF; a network port goes from OFF to STARTING and from ON to STOPPING. -/
def Obligations.UnitEnableWrites : Prop :=
  (∀ (s : State) (req : Fin 6) (u : UnitId) (v : Word),
    plainUnit u = true → req ≠ 5 → s.islandRuns (islandOf (enableFld u).off) = true → s.ust u = .stopping →
    ∃ t, exec (.unitEnableWrite req u v) s = .next t ∧ t.ust u = .stopping ∧ t.pend u = bit v.toNat 0) ∧
  (∀ (s : State) (req : Fin 6) (u : UnitId) (v : Word),
    plainUnit u = true → req ≠ 5 → s.islandRuns (islandOf (enableFld u).off) = true → s.ust u = .fault → bit v.toNat 0 = false →
    ∃ t, exec (.unitEnableWrite req u v) s = .next t ∧ t.ust u = .off ∧ Silent s t [(enableFld u).off, (stateFld u).off]) ∧
  (∀ (s : State) (req : Fin 6) (n : Fin 2) (v : Word),
    req ≠ 5 → s.islandRuns 16 = true → s.ust (.net n) = .off → bit v.toNat 0 = true →
    ∃ t, exec (.unitEnableWrite req (.net n) v) s = .next t ∧ t.ust (.net n) = .starting ∧ Silent s t [NET_PORT_CFG n, NET_PORT_STATUS n]) ∧
  (∀ (s : State) (req : Fin 6) (n : Fin 2) (v : Word),
    req ≠ 5 → s.islandRuns 16 = true → s.ust (.net n) = .on → bit v.toNat 0 = false →
    ∃ t, exec (.unitEnableWrite req (.net n) v) s = .next t ∧ t.ust (.net n) = .stopping ∧ Silent s t [NET_PORT_CFG n, NET_PORT_STATUS n])

/-- The unit state machine under its own events (R15, R16). The start actions of a lane, an input, a context, a bar or a network port end in
ON. A stop without a recorded fault and without PEND ends in OFF; a lane whose fault was recorded enters FAULT with its reason. A start
time limit of a serial input or a lane leads to STOPPING with the fault recorded. A fault of a lane in STARTING or ON leads to FAULT,
clears PEND, shows the reason and posts LANE_FAULT (R15, R18). -/
def Obligations.UnitStateEvents : Prop :=
  (∀ (s : State) (u : UnitId), (plainUnit u = true ∧ (∀ l, u ≠ .slot l)) ∨ (∃ l, u = .lane l) → s.startReady u = true →
    ∃ t, exec (.startActionsComplete u) s = .next t ∧ t.ust u = .on ∧ Silent s t [(stateFld u).off]) ∧
  (∀ (s : State) (u : UnitId), plainUnit u = true ∨ (∃ l, u = .lane l) → s.stopReady u = true → s.faultRec u = none → s.pend u = false →
    ∃ t, exec (.stopActionsComplete u none none) s = .next t ∧ t.ust u = .off ∧ t.pend u = false ∧ Silent s t [(stateFld u).off]) ∧
  (∀ (s : State) (l : Fin 52) (r : Fin 16), s.stopReady (.lane l) = true → s.faultRec (.lane l) = some r.val →
    ∃ t, exec (.stopActionsComplete (.lane l) none none) s = .next t ∧ t.ust (.lane l) = .fault ∧
      t.get (SDS_LANE_STATUS_REASON l) = r.val ∧ t.faultRec (.lane l) = none) ∧
  (∀ (s : State) (u : UnitId), (∃ l, u = .lane l) ∨ (∃ n, u = .serial n) → s.limitRuns u = true →
    ∃ t, exec (.startTimeLimitExpired u) s = .next t ∧ t.ust u = .stopping ∧ t.faultRec u = some 2 ∧
      t.hidden = { s.hidden with unitFaults := t.unitFaults } ∧ Keeps s t [(stateFld u).off]) ∧
  (∀ (s : State) (l : Fin 52) (reason : Fin 16), reason = 1 ∨ reason = 2 → s.ust (.lane l) = .starting ∨ s.ust (.lane l) = .on →
    ∃ t, exec (.unitFaultDetected (.lane l) reason) s = .next t ∧ t.ust (.lane l) = .fault ∧ t.pend (.lane l) = false ∧
      t.get (SDS_LANE_STATUS_REASON l) = reason.val ∧ Posts s t Ev.LANE_FAULT l [reason.val] ∧
      Touches s t [SDS_LANE_STATUS l, SDS_IRQ_CAUSE]) ∧
  (∀ (s : State) (u : UnitId) (reason : Fin 16), plainUnit u = true → 1 ≤ reason.val → reason.val ≤ faultReasons u → (∀ n, u ≠ .net n) →
    s.ust u = .stopping →
    ∃ t, exec (.unitFaultDetected u reason) s = .next t ∧ t.ust u = .stopping ∧ t.faultRec u = some reason.val)

/-- Tallies and retirement. The end of a tally window of a port or an encoder input shows the window's count and restarts it from 0; that of
a bar restarts its tally alone (R230, R402, R370). An input whose tally has reached its limit enters RETIRED and posts
INPUT_FAULT with the tally (R15, R402), here while the line clock does not run on the master encoder. -/
def Obligations.TalliesAndRetirement : Prop :=
  (∀ (s : State) (p : Fin 24), ∃ t, exec (.tallyWindowEnd (.port p)) s = .next t ∧ t.get (HLK_TALLY_COUNT p) = 0 ∧
    t.get (HLK_TALLY_LAST p) = s.get (HLK_TALLY_COUNT p) ∧ Silent s t [HLK_TALLY p]) ∧
  (∀ (s : State) (q : Fin 16), ∃ t, exec (.tallyWindowEnd (.quad q)) s = .next t ∧ t.get (tallyFld (.quad q)).1 = 0 ∧
    t.get (tallyFld (.quad q)).2.1 = s.get (tallyFld (.quad q)).1 ∧ Silent s t [ENC_Q_TALLY q]) ∧
  (∀ (s : State) (b : Fin 8), ∃ t, exec (.tallyWindowEnd (.bar b)) s = .next t ∧ Keeps s t [] ∧
    t.bars = s.bars.set b { s.bar b with tally := 0 } ∧ t.hidden = { s.hidden with bars := t.bars }) ∧
  (∀ (s : State) (q : Fin 16), s.retireDue (.quad q) = true → s.ust (.quad q) = .starting ∨ s.ust (.quad q) = .on ∨ s.ust (.quad q) = .fault →
    s.clk ≠ clkRunning → s.clk ≠ clkLocking →
    ∃ t, exec (.retirementCondition (.quad q)) s = .next t ∧ t.ust (.quad q) = .retired ∧ t.pend (.quad q) = false ∧
      Posts s t Ev.INPUT_FAULT (inputNo (.quad q)) [5, s.get (tallyFld (.quad q)).1] ∧ Touches s t [ENC_Q_STATUS q, ENC_IRQ_CAUSE])

/-- Doorbells. A doorbell write to a host-to-device ring that is ON takes the new index as the ring's tail when it is below the ring's size;
a larger one changes nothing on the ring and posts DOORBELL_INVALID; one to a ring in STARTING is held (R70). The driver's doorbell
on EVT returns as many entries as the index has moved (R74). -/
def Obligations.Doorbells : Prop :=
  (∀ (s : State) (page : Fin 16) (r : RingId) (v : BitVec 64),
    ringOfPage page = some r → r.num < 8 → s.islandRuns 1 = true → v.toNat < 65536 → s.ust (.ring r) = .on → v.toNat < s.ringSize r.num →
    ∃ t, exec (.doorbellWrite page 0 .w32 v) s = .next t ∧
      t.hif.rings = s.hif.rings.set r.num { s.ring r.num with tail := v.toNat, stalled := false } ∧ t.evtEntries = s.evtEntries ∧
      t.hidden = s.hidden ∧ Keeps s t []) ∧
  (∀ (s : State) (page : Fin 16) (r : RingId) (v : BitVec 64),
    ringOfPage page = some r → r.num < 8 → s.islandRuns 1 = true → v.toNat < 65536 → s.ust (.ring r) = .on → s.ringSize r.num ≤ v.toNat →
    ∃ t, exec (.doorbellWrite page 0 .w32 v) s = .next t ∧ Posts s t Ev.DOORBELL_INVALID 0xFFFF [r.num, v.toNat] ∧
      Touches s t [HIF_IRQ_CAUSE]) ∧
  (∀ (s : State) (page : Fin 16) (r : RingId) (v : BitVec 64),
    ringOfPage page = some r → s.islandRuns 1 = true → v.toNat < 65536 → s.ust (.ring r) = .starting →
    ∃ t, exec (.doorbellWrite page 0 .w32 v) s = .next t ∧
      t.hif.rings = s.hif.rings.set r.num { s.ring r.num with heldDb := some v.toNat } ∧ t.hidden = s.hidden ∧ Keeps s t []) ∧
  (∀ (s : State) (v : BitVec 64), s.islandRuns 1 = true → v.toNat < 65536 → s.ust (.ring .evt) = .on → v.toNat < s.ringSize 8 →
    (v.toNat + s.ringSize 8 - (s.ring 8).tail) % s.ringSize 8 ≤ (s.ring 8).unread →
    ∃ t, exec (.evtDoorbellWrite .evt 0 .w32 v) s = .next t ∧
      t.hif.evtUnread = s.hif.evtUnread.drop ((v.toNat + s.ringSize 8 - (s.ring 8).tail) % s.ringSize 8) ∧
      t.hif.evtQueue = s.hif.evtQueue ∧ t.hidden = s.hidden ∧ Keeps s t [])

/-- Descriptors that no engine needs. A descriptor fetched into a running ring with the expected phase and no defect enters the ring's order
and moves INDEX (R71, R72); NOP completes OK when asked to notify (R89); a fence whose condition holds completes OK, one whose
condition does not blocks its ring and shows FENCE_WAIT (R89, R91); a blocked fence is released when the condition holds (R91), and its
stall is reported once (R93). -/
def Obligations.DescriptorsAndFences : Prop :=
  (∀ (s : State) (r : RingId) (d : DescBits),
    r.isH2D = true → s.ust (.ring r) = .on → s.hif.linkUp = true → s.get (HIF_RING_STATUS_INDEX r.num) ≠ (s.ring r.num).tail →
    (s.ring r.num).stalled = false → (s.ring r.num).fence = none → bit (dfield d 1 1) 7 = s.on (HIF_RING_STATUS_PHASE r.num) →
    (s.ring r.num).expSeq = none ∨ (s.ring r.num).expSeq = some (dfield d 2 2) → descBad r d = none →
    s.get (HIF_RING_STATUS_INDEX r.num) + 1 < s.ringSize r.num → s.ringSize r.num ≤ 65536 → r.num < s.hif.rings.length →
    ∃ t, exec (.descriptorFetched r (.ok d)) s = .next t ∧
      t.get (HIF_RING_STATUS_INDEX r.num) = s.get (HIF_RING_STATUS_INDEX r.num) + 1 ∧
      (t.ring r.num).opens = (s.ring r.num).opens ++
        [{ seq := dfield d 2 2, bits := d, taken := false, started := false, done := false, stale := false }] ∧
      (t.ring r.num).expSeq = some ((dfield d 2 2 + 1) % 65536) ∧ t.hidden = s.hidden ∧ Keeps s t [HIF_RING_STATUS r.num]) ∧
  (∀ (s : State) (r : RingId) (d : OpenDesc), s.isHead r.num d → d.op = 0 → d.notify = true →
    ∃ t, exec (.nop r) s = .next t ∧ Completes s t r.num d.seq 2 Ev.NOP_DONE stOK 0xFFFF [] ∧ t.hidden = s.hidden ∧
      Keeps s t (doneRegs r.num)) ∧
  (∀ (s : State) (r : RingId) (d : OpenDesc), r.isH2D = true → s.isHead r.num d → d.op = 1 → d.notify = true → s.fenceBad r.num d = false →
    s.fenceHolds (dfield d.bits 4 1) (dfield d.bits 6 2) = true →
    ∃ t, exec (.fence r) s = .next t ∧
      Completes s t r.num d.seq 3 Ev.FENCE_DONE stOK 0xFFFF [dfield d.bits 4 1, dfield d.bits 6 2] ∧ t.hidden = s.hidden ∧
      Keeps s t (doneRegs r.num)) ∧
  (∀ (s : State) (r : RingId) (d : OpenDesc), r.isH2D = true → s.isHead r.num d → d.op = 1 → s.fenceBad r.num d = false → r.num < s.hif.rings.length →
    s.fenceHolds (dfield d.bits 4 1) (dfield d.bits 6 2) = false →
    ∃ t, exec (.fence r) s = .next t ∧ t.on (HIF_RING_STATUS_FENCE_WAIT r.num) = true ∧ (t.ring r.num).fence = some d.seq ∧
      t.evtEntries = s.evtEntries ∧ t.hidden = s.hidden ∧ Keeps s t [HIF_RING_STATUS r.num]) ∧
  (∀ (s : State) (r : RingId) (d : OpenDesc), r.isH2D = true → s.blockedFence r.num = some d → d.stale = false → d.notify = true →
    s.desc r.num d.seq = some d → r.num < s.hif.rings.length →
    s.fenceHolds (dfield d.bits 4 1) (dfield d.bits 6 2) = true →
    ∃ t, exec (.fenceRelease r) s = .next t ∧ t.on (HIF_RING_STATUS_FENCE_WAIT r.num) = false ∧
      Completes s t r.num d.seq 3 Ev.FENCE_DONE stOK 0xFFFF [dfield d.bits 4 1, dfield d.bits 6 2] ∧ t.hidden = s.hidden ∧ Keeps s t (HIF_RING_STATUS r.num :: doneRegs r.num)) ∧
  (∀ (s : State) (r : RingId) (d : OpenDesc), r.isH2D = true → s.blockedFence r.num = some d → (s.ring r.num).fenceReported = false →
    s.get HIF_FENCE_TIMEOUT_TIME ≠ 0 →
    ∃ t, exec (.fenceStall r) s = .next t ∧
      Posts s t Ev.FENCE_STALL r.num [r.num, d.seq, dfield d.bits 4 1, dfield d.bits 6 2,
        s.get (HIF_RING_DONE_DONE_SEQ (dfield d.bits 4 1))] ∧
      Touches s t [HIF_IRQ_CAUSE])

/-- Entries and interrupts. With room in EVT the oldest queued entry is written first (R75). A write-back record that is due is written at
its address with the index, the watermark, the status and PRESS_TIME, and no other byte of host memory changes (R77). The MSI is sent
and disarms; without MSI and with INTx allowed INTA is asserted (R98, R99). REARM arms the MSI and starts the coalescing
time afresh; COAL_US stores at most 1,000 (R98). -/
def Obligations.EntriesAndInterrupts : Prop :=
  (∀ (s : State) (e : EvtEntry) (q : List EvtEntry), s.hif.evtQueue = e :: q → s.evtRoom = true →
    ∃ t, exec .evtQueueDrain s = .next t ∧ (∃ l, t.hif.evtUnread = s.hif.evtUnread ++ s.evtFinal e :: l) ∧ t.hidden = s.hidden) ∧
  (∀ (s : State) (r : RingId), (s.ring r.num).wbDue = true → s.hif.linkUp = true → s.islandRuns 1 = true →
    ∃ t, exec (.writeBackRecord r) s = .next t ∧
      Mem.reads t.hostMem (s.ringWb r.num) 16 =
        leBytes 2 (s.get (HIF_RING_STATUS_INDEX r.num)) ++ leBytes 2 (s.get (HIF_RING_DONE_DONE_SEQ r.num)) ++
          [BitVec.ofNat 8 (bits (s.rget (HIF_RING_STATUS r.num)).toNat 5 0)] ++ leBytes 3 0 ++ leBytes 8 s.now ∧
      (∀ a, a < s.ringWb r.num ∨ s.ringWb r.num + 16 ≤ a → Mem.read t.hostMem a = Mem.read s.hostMem a) ∧
      t.hif.rings = s.hif.rings.set r.num { s.ring r.num with wbDue := false } ∧ t.hidden = s.hidden ∧ Keeps s t []) ∧
  (∀ (s : State) (cfg : PcieIrqCfg), s.irqCond = true → s.islandRuns 1 = true → s.hif.linkUp = true → cfg.msiEnable = true →
    cfg.msiMask = false → s.on HIF_MSI_CTRL_ARMED = true →
    ∃ t, exec (.msiCoalTimerExpired cfg) s = .next t ∧ t.hif.msiSent = s.hif.msiSent + 1 ∧ t.on HIF_MSI_CTRL_ARMED = false ∧
      t.hif.coalSince = none ∧ t.hidden = s.hidden ∧ Keeps s t [HIF_MSI_CTRL]) ∧
  (∀ (s : State) (cfg : PcieIrqCfg), s.irqCond = true → s.islandRuns 1 = true → cfg.msiEnable = false → cfg.intxDisable = false →
    ∃ t, exec (.msiCoalTimerExpired cfg) s = .next t ∧ t.hif.inta = true ∧ t.hif.msiSent = s.hif.msiSent ∧ t.hidden = s.hidden ∧
      Keeps s t []) ∧
  (∀ (s : State) (req : Fin 6), req ≠ 5 → s.islandRuns 1 = true →
    ∃ t, exec (.rearm req) s = .next t ∧ t.on HIF_MSI_CTRL_ARMED = true ∧
      t.hif.coalSince = (if s.irqCond = true then some s.time.cyc else none) ∧ t.evtEntries = s.evtEntries ∧ t.hidden = s.hidden ∧
      Keeps s t [HIF_MSI_CTRL]) ∧
  (∀ (s : State) (req : Fin 6) (v : Word), req ≠ 5 → s.islandRuns 1 = true → s.hif.coalSince = none → bit v.toNat 16 = false →
    ∃ t, exec (.coalUsWrite req v) s = .next t ∧ t.get HIF_MSI_CTRL_COAL_US = min (bits v.toNat 9 0) 1000 ∧ Silent s t [HIF_MSI_CTRL])

/-- The mailboxes and the BAR4 window. A firmware descriptor is handed over and started; its completion posts MBX_DONE with the result (R76,
R100). A message for the host is written to MBX_OUT when there is room and none waits, and waits otherwise; space that the
host returns lets the waiting messages be written in order (R76, R101). A read of the window returns the bytes of DRAM at the window's
address, zeros beyond the installed DRAM (R65); a write of one whole block stores it, clears its poison mark and changes no other byte
(R65, R451). -/
def Obligations.MailboxesAndWindow : Prop :=
  (∀ (s : State) (d : OpenDesc), s.head 6 = some d → 0x10 ≤ d.op →
    ∃ t, exec .mbxInDescriptor s = .next t ∧
      t.hif.rings = s.hif.rings.set 6 { s.ring 6 with opens := updDesc (fun d => { d with taken := true, started := true }) d.seq (s.ring 6).opens } ∧
      t.evtEntries = s.evtEntries ∧ t.hidden = s.hidden ∧ Keeps s t []) ∧
  (∀ (s : State) (seq : BitVec 16) (result : Word) (d : OpenDesc), s.desc 6 seq.toNat = some d → d.started = true → d.stale = false →
    d.notify = true →
    ∃ t, exec (.mbxDone seq result) s = .next t ∧ Completes s t 6 seq.toNat 2 Ev.MBX_DONE stOK 0xFFFF [result.toNat] ∧
      t.hidden = s.hidden ∧ Keeps s t (doneRegs 6)) ∧
  (∀ (s : State) (e : DescBits), s.mbxRoom = true → s.hif.mbxWait = [] → s.get (HIF_RING_STATUS_INDEX 9) + 1 < s.ringSize 9 →
    s.ringSize 9 ≤ 65536 →
    ∃ t, exec (.mbxOutPost e) s = .next t ∧ t.on HIF_IRQ_CAUSE_MBX_OUT = true ∧
      t.get (HIF_RING_STATUS_INDEX 9) = s.get (HIF_RING_STATUS_INDEX 9) + 1 ∧
      Mem.reads t.hostMem (s.ringBase 9 + 64 * s.get (HIF_RING_STATUS_INDEX 9) + 4) 60 = leBytes 60 (dfield e 4 60) ∧
      t.hidden = s.hidden ∧ Keeps s t [HIF_IRQ_CAUSE, HIF_RING_STATUS 9]) ∧
  (∀ (s : State) (e : DescBits), s.mbxRoom = false →
    ∃ t, exec (.mbxOutPost e) s = .next t ∧ t.hif.mbxWait = s.hif.mbxWait ++ [e] ∧ t.hidden = s.hidden ∧ Keeps s t []) ∧
  (∀ (s : State) (e : DescBits), s.hif.mbxWait = [e] → s.mbxRoom = true → s.get (HIF_RING_STATUS_INDEX 9) + 1 < s.ringSize 9 →
    s.ringSize 9 ≤ 65536 →
    ∃ t, exec .mbxOutSpaceFree s = .next t ∧ t.hif.mbxWait = [] ∧ t.on HIF_IRQ_CAUSE_MBX_OUT = true ∧
      t.get (HIF_RING_STATUS_INDEX 9) = s.get (HIF_RING_STATUS_INDEX 9) + 1 ∧ t.hidden = s.hidden ∧
      Keeps s t [HIF_IRQ_CAUSE, HIF_RING_STATUS 9]) ∧
  (∀ (s : State) (addr len : Nat), s.islandRuns 1 = true → addr + len ≤ 2 ^ 28 →
    s.rangeHeld (s.bar4Addr addr) (min len (s.dramSize - s.bar4Addr addr)) = false →
    ∃ t, exec (.bar4Read addr len) s = .next t ∧
      t.hif.bar4Data = Mem.reads s.dram (s.bar4Addr addr) (min len (s.dramSize - s.bar4Addr addr)) ++
        List.replicate (len - min len (s.dramSize - s.bar4Addr addr)) 0 ∧
      t.dram = s.dram) ∧
  (∀ (s : State) (addr : Nat) (data : List Byte), s.islandRuns 1 = true → addr + 64 ≤ 2 ^ 28 → s.on HIF_WIN_CTRL_WR_EN = true →
    s.on DMC_STATUS_READY = true → data.length = 64 → addr % 64 = 0 → s.bar4Addr addr + 64 ≤ s.dramSize →
    s.rangeHeld (s.bar4Addr addr) 64 = false →
    ∃ t, exec (.bar4Write addr data) s = .next t ∧ Mem.reads t.dram (s.bar4Addr addr) 64 = data ∧
      (∀ a, a < s.bar4Addr addr ∨ s.bar4Addr addr + 64 ≤ a → Mem.read t.dram a = Mem.read s.dram a) ∧
      t.poisoned (s.bar4Addr addr) = false)

/-- Loss and return of the PCIe link and the resets of the host island. Link loss without an active job counts, parks every ring (OFF, PARKED,
ENABLE 0) and keeps the rest (R102). A link that comes up is shown; after a loss it resets the host island with reason 1 in the
report (R103). FLR, hot reset and PERST# reset the host island: what was queued for the driver is gone, the report holds the
reason, every ring is OFF and the watermarks stay (R103, R104). -/
def Obligations.LinkAndHostResets : Prop :=
  (∀ s : State, s.islandRuns 1 = true → s.hif.linkUp = true → s.press.job = none → s.get HIF_LINK_STATUS_DOWN_COUNT < 65535 →
    ∃ t, exec .pcieLinkDown s = .next t ∧ t.hif.linkUp = false ∧
      t.get HIF_LINK_STATUS_DOWN_COUNT = s.get HIF_LINK_STATUS_DOWN_COUNT + 1 ∧
      (∀ r ∈ allRings, t.ust (.ring r) = .off ∧ t.on (HIF_RING_STATUS_PARKED r.num) = true ∧ t.on (HIF_RING_CFG_ENABLE r.num) = false) ∧
      t.hidden = { s.hidden with unitFaults := t.unitFaults }) ∧
  (∀ (s : State) (speed width : Fin 16), s.hif.linkUp = true → speed.val < 8 →
    ∃ t, exec (.pcieLinkUp speed width) s = .next t ∧ t.get HIF_LINK_STATUS_SPEED = speed.val ∧ t.get HIF_LINK_STATUS_WIDTH = width.val ∧
      Silent s t [HIF_LINK_STATUS]) ∧
  (∀ (s : State) (speed width : Fin 16), s.hif.linkUp = false → speed.val < 8 →
    ∃ t, exec (.pcieLinkUp speed width) s = .next t ∧ t.hif.linkUp = true ∧ t.get HIF_LINK_STATUS_SPEED = speed.val ∧
      t.get HIF_LINK_STATUS_WIDTH = width.val ∧ t.hif.report.map (·.reason) = some 1 ∧ t.evtEntries = []) ∧
  (∀ s : State,
    ∃ t, exec .flr s = .next t ∧ t.evtEntries = [] ∧ t.hif.report.map (·.reason) = some 2 ∧ (∀ r ∈ allRings, t.ust (.ring r) = .off)) ∧
  (∀ s : State,
    ∃ t, exec .hotReset s = .next t ∧ t.evtEntries = [] ∧ t.hif.report.map (·.reason) = some 3 ∧
      (∀ r ∈ allRings, t.ust (.ring r) = .off)) ∧
  (∀ s : State, s.perstWarm = false →
    ∃ t, exec .perst s = .next t ∧ t.evtEntries = [] ∧ t.hif.report.map (·.reason) = some 4 ∧
      (∀ r ∈ allRings, t.ust (.ring r) = .off))

/-- R405. An active edge less than MIN_INT × 4 ns after the last accepted one is ignored: no position moves. It adds 1 to the short edges and
to the input's tally. -/
def Obligations.ShortEdgesAreIgnored : Prop :=
  ∀ (s : State) (m : Fin 2) (b r : Bool) (t0 : Nat), s.ust (.master m) = .on → r ≠ s.on (ENC_M_CFG_EDGE m) → (s.minp m).last = some t0 →
    s.now - t0 < 4 * s.get (ENC_M_TIME_MIN_INT m) →
    ∃ t, exec (.masterEdge m b r) s = .next t ∧
      t.get (ENC_M_SHORT_COUNT_COUNT m) = min (2 ^ 32 - 1) (s.get (ENC_M_SHORT_COUNT_COUNT m) + 1) ∧
      t.get (ENC_M_TALLY_COUNT m) = min 65535 (s.get (ENC_M_TALLY_COUNT m) + 1) ∧ t.enc = s.enc ∧ t.press.webPos = s.press.webPos ∧
      t.press.edges = s.press.edges

/-- R68. While a ring is not OFF, a write of its base address or of its write-back address changes nothing at all, and a write of its
configuration leaves LOG2SIZE as it is. -/
def Obligations.RingSetupIsLocked : Prop :=
  (∀ (s : State) (req : Fin 6) (r : RingId) (off : Nat) (v : BitVec 64), req ≠ 5 → s.islandRuns 1 = true → s.ust (.ring r) ≠ .off →
    off = HIF_RING_BASE_LO r.num ∨ off = HIF_RING_BASE_HI r.num ∨ off = HIF_RING_WB_LO r.num ∨ off = HIF_RING_WB_HI r.num →
    ∃ t, exec (.registerWrite req off .w32 v) s = .next t ∧ Silent s t []) ∧
  (∀ (s : State) (req : Fin 6) (r : RingId) (v : BitVec 64), req ≠ 5 → s.islandRuns 1 = true → s.ust (.ring r) ≠ .off →
    ∃ t, exec (.registerWrite req (HIF_RING_CFG r.num) .w32 v) s = .next t ∧
      t.get (HIF_RING_CFG_LOG2SIZE r.num) = s.get (HIF_RING_CFG_LOG2SIZE r.num)) ∧
  (∀ (s : State) (req : Fin 6) (r : RingId) (v : Word), req ≠ 5 → s.islandRuns 1 = true → s.ust (.ring r) ≠ .off →
    ∃ t, exec (.unitEnableWrite req (.ring r) v) s = .next t ∧
      t.get (HIF_RING_CFG_LOG2SIZE r.num) = s.get (HIF_RING_CFG_LOG2SIZE r.num))

/-- R23. A value of PGP_LINE_PERIOD below the minimum of the mode in force leaves the register as it is and posts PERIOD_REFUSED; any other
value is taken. So the register never comes to hold less than the minimum. -/
def Obligations.LinePeriodFloor : Prop :=
  (∀ (s : State) (req : Fin 6) (v : Word), req ≠ 5 → s.islandRuns 2 = true → v.toNat < minPeriod s.mode →
    ∃ t, exec (.pgpLinePeriodWrite req v) s = .next t ∧ t.get PGP_LINE_PERIOD_PERIOD = s.get PGP_LINE_PERIOD_PERIOD ∧
      Posts s t Ev.PERIOD_REFUSED 0xFFFF [v.toNat, s.mode] ∧ t.on PGP_IRQ_CAUSE_PERIOD_REFUSED = true ∧ Touches s t [PGP_IRQ_CAUSE]) ∧
  (∀ (s : State) (req : Fin 6) (v : Word), req ≠ 5 → s.islandRuns 2 = true → minPeriod s.mode ≤ v.toNat →
    ∃ t, exec (.pgpLinePeriodWrite req v) s = .next t ∧ t.get PGP_LINE_PERIOD_PERIOD = v.toNat ∧
      t.on PGP_CLK_STATUS_PERIOD_PEND = (v.toNat != s.get PGP_PERIOD_ACTIVE_PERIOD) ∧ Silent s t [PGP_LINE_PERIOD, PGP_CLK_STATUS]) ∧
  (∀ (s : State) (req : Fin 6) (v : Word), minPeriod s.mode ≤ s.get PGP_LINE_PERIOD_PERIOD → s.islandRuns 2 = true →
    ∃ t, exec (.pgpLinePeriodWrite req v) s = .next t ∧ minPeriod s.mode ≤ t.get PGP_LINE_PERIOD_PERIOD)

/-- The line clock's registers. APPLY_AT_PAGE marks the period for the next entry to LOCKING while the clock does not
run, and does nothing without a job (R56). CLR_HALT at standstill leaves HALTED (R54). WIN_EN opens the windows; written 0 it ends
an excursion (R60). -/
def Obligations.LineClockRegisters : Prop :=
  (∀ (s : State) (req : Fin 6) (j : Job), req ≠ 5 → s.islandRuns 2 = true → s.press.job = some j → j.closing = false →
    s.on PGP_CLK_STATUS_PERIOD_PEND = true → s.get PGP_SCHED_STATUS_JOB_STATE ≠ jsRecovery → s.clk ≠ clkRunning →
    ∃ t, exec (.applyAtPage req) s = .next t ∧ t.on PGP_CLK_STATUS_APPLY_PEND = true ∧ Silent s t [PGP_CLK_STATUS]) ∧
  (∀ (s : State) (req : Fin 6), req ≠ 5 → s.islandRuns 2 = true → s.press.job = none →
    ∃ t, exec (.applyAtPage req) s = .next t ∧ Silent s t []) ∧
  (∀ (s : State) (req : Fin 6), req ≠ 5 → s.islandRuns 2 = true → s.clk = clkHalted → s.masterStill = true → s.press.job = none →
    ∃ t, exec (.clrHalt req) s = .next t ∧ t.clk = clkStopped ∧
      Alters s t { s with web := t.web } [PGP_CLK_STATUS, MOT_WEB_STATUS, MOT_WEB_RATE]) ∧
  (∀ (s : State) (req : Fin 6) (v : Word), req ≠ 5 → s.islandRuns 2 = true → bits v.toNat 2 0 = 2 →
    ∃ t, exec (.winEnWrite req v) s = .next t ∧ t.on PGP_CLK_CTRL_WIN_EN = true ∧ Silent s t [PGP_CLK_CTRL]) ∧
  (∀ (s : State) (req : Fin 6) (v : Word), req ≠ 5 → s.islandRuns 2 = true → bits v.toNat 2 0 = 0 → s.on PGP_CLK_STATUS_IN_DEV = true →
    ∃ t, exec (.winEnWrite req v) s = .next t ∧ t.on PGP_CLK_CTRL_WIN_EN = false ∧ t.on PGP_CLK_STATUS_IN_DEV = false ∧
      Posts s t Ev.WEB_DEV_LEAVE 0xFFFF [s.press.peak, s.time.line] ∧ Touches s t [PGP_CLK_CTRL, PGP_CLK_STATUS])

/-- A press tick moves the press line on by exactly one, modulo 2^40, whatever else it does, and so does the first tick of a run; while the
clock does not run a tick changes nothing (R52, R53, R54, R107). -/
def Obligations.TicksAdvanceThePressLine : Prop :=
  (∀ (s : State) (j : Job), s.clk = clkRunning → s.islandRuns 2 = true → s.press.job = some j →
    ∃ t, exec .pressTick s = .next t ∧ t.time.line = (s.time.line + 1) % 2 ^ 40) ∧
  (∀ (s : State) (j : Job) (r : Recovery), s.clk = clkLocking → s.locked = true → s.press.job = some j → j.recovery = some r →
    (s.takeAll j ((j.line : Int) + 23)).2 = [] →
    ∃ t, exec .resumeFirstTick s = .next t ∧ t.time.line = (s.time.line + 1) % 2 ^ 40) ∧
  (∀ s : State, s.clk ≠ clkRunning → ∃ t, exec .pressTick s = .next t ∧ Silent s t [])

/-- The job commands. JOB_START with no reason against it opens the job of its descriptor, which then waits for data; inside the open job
of its own ring it is refused with reason 6 (R106, R111). PAGE adds its page to the open job, and is refused with reason 9 without one
(R106, R110, R112). JOB_END is remembered by the open job, and without one is refused with end reason 7 (R106, R115). The job is over once
it closes, the web stands still and every page is retired (R115, R565). -/
def Obligations.JobCommands : Prop :=
  (∀ (s : State) (k : Fin 4) (d : OpenDesc), s.islandRuns 2 = true → s.press.job = none → s.on LDG_STATUS_READY = true →
    s.jobHead k = true → s.head k = some d →
    (∀ r, r < k.val → s.jobHead r = false) → s.jobReasons d.bits = [] →
    ∃ t, exec (.jobStart k) s = .next t ∧ ∃ j, t.press.job = some j ∧ j.jobId = dfield d.bits 4 4 ∧ j.mode = bits (dfield d.bits 8 1) 1 0 ∧
      j.ring = k ∧ j.seq = d.seq ∧ j.started = false) ∧
  (∀ (s : State) (k : Fin 4) (d : OpenDesc) (j : Job), s.islandRuns 2 = true → s.press.job = some j → j.ring = k → j.jobEndSeq = none →
    s.jobHead k = true → s.isHead k d →
    ∃ t, exec (.jobStart k) s = .next t ∧ t.on PGP_IRQ_CAUSE_JOB_REFUSED = true ∧ t.hidden = s.hidden ∧
      Completes s t k d.seq 2 Ev.JOB_REFUSED stREFUSED 0xFFFF [dfield d.bits 4 4, 6, 0xFF] ∧
      Keeps s t (PGP_IRQ_CAUSE :: doneRegs k)) ∧
  (∀ (s : State) (k : Fin 4) (d : OpenDesc) (j : Job), s.press.job = some j → j.ring = k → j.jobEndSeq = none → j.endReason = none →
    s.jobDesc k 0x11 = some d → pageReasons d.bits j.mode (j.pages.foldl (fun a p => max a p.stop) 0) = [] →
    ∃ t, exec (.page k) s = .next t ∧
      t.press.job = some { j with pages := j.pages ++ [newPage d.seq d.bits (pageFirst d.bits (j.pages.foldl (fun a p => max a p.stop) 0))] } ∧
      t.hidden = { s.hidden with press := t.press } ∧ t.evtEntries = s.evtEntries ∧ Keeps s t []) ∧
  (∀ (s : State) (k : Fin 4) (d : OpenDesc), s.press.job = none → s.jobDesc k 0x11 = some d → s.isHead k d →
    ∃ t, exec (.page k) s = .next t ∧
      Completes s t k d.seq 2 Ev.PAGE_REFUSED stREFUSED 0xFFFF [dfield d.bits 8 4, 9, 0xFF, 0xFF] ∧
      t.on PGP_IRQ_CAUSE_PAGE_REFUSED = true ∧ t.hidden = s.hidden ∧ Keeps s t (PGP_IRQ_CAUSE :: doneRegs k)) ∧
  (∀ (s : State) (k : Fin 4) (d : OpenDesc) (j : Job), s.press.job = some j → j.ring = k → j.jobEndSeq = none →
    s.jobDesc k 0x12 = some d →
    ∃ t, exec (.jobEnd k) s = .next t ∧ t.press.job = some { j with jobEndSeq := some d.seq } ∧
      t.hidden = { s.hidden with press := t.press } ∧ t.evtEntries = s.evtEntries ∧ Keeps s t [PGP_IRQ_CAUSE]) ∧
  (∀ (s : State) (k : Fin 4) (d : OpenDesc), s.press.job = none → s.jobDesc k 0x12 = some d → s.isHead k d →
    ∃ t, exec (.jobEnd k) s = .next t ∧ Completes s t k d.seq 2 Ev.JOB_ENDED stREFUSED 0xFFFF [0, 0, 7, 0, 0, 0, 0] ∧
      t.hidden = s.hidden ∧ Keeps s t (doneRegs k)) ∧
  (∀ (s : State) (j : Job), s.press.job = some j → j.closing = true → s.on MOT_WEB_STATUS_STANDSTILL = true →
    j.pages.all (·.retired) = true → j.jobEndSeq ≠ none → s.par.handover = false →
    ∃ t, exec .jobEnded s = .next t ∧ t.press.job = none ∧ t.get PGP_SCHED_STATUS_JOB_STATE = jsIdle ∧
      t.get PGP_SCHED_STATUS_RECOV_PHASE = 0 ∧ t.dram = s.dram ∧ t.heads = s.heads ∧ t.ldg = s.ldg)

/-- Prefetch and the lanes. A read that fails for the first time is marked to be made once more (R116); a directory whose table addresses
are good leads to the reads of the tables (R109, R116); a stream that waits for room gets the lowest place that has it (R118; the place is
the model's choice, log 38). A free lane takes the band of least slack, and at its end no band is on it (R123, R124). -/
def Obligations.PrefetchAndLanes : Prop :=
  (∀ (s : State) (j : Job) (p : PageRec) (r : PageRead) (rs : List PageRead) (n : Nat), s.press.job = some j → j.fetching = some p →
    p.reads = r :: rs → p.waitRoom = false → r.retried = false →
    ∃ t, exec (.pageStreamFetched none (.failed n)) s = .next t ∧
      t.press.job = some (j.updPage p.seq (fun p => { p with reads := { r with retried := true } :: p.reads.drop 1 })) ∧
      Alters s t { s with press := t.press } []) ∧
  (∀ (s : State) (j : Job) (p : PageRec) (r : PageRead) (rs : List PageRead) (bs : List Byte), s.press.job = some j → j.fetching = some p →
    p.reads = r :: rs → p.waitRoom = false → r.kind = .dir → dirBad j bs = [] →
    ∃ t, exec (.pageStreamFetched none (.ok bs)) s = .next t ∧
      t.press.job = some (j.updPage p.seq (fun p => { p with reads := j.used.map (fun q => { kind := .table, plane := q, band := 0xFF, host := leAt bs (8 * q) 8, retried := false }) })) ∧
      Alters s t { s with press := t.press } []) ∧
  (∀ (s : State) (j : Job) (p : PageRec) (r : PageRead) (rs : List PageRead) (x : PageStream) (a : Nat), s.press.job = some j →
    j.fetching = some p → j.pages.find? (fun y => y.seq == p.seq && !y.retired) = some p → p.reads = r :: rs → p.waitRoom = true →
    r.kind = .stream → p.stream r.plane r.band = some x → x.dram = none → j.place x.len = some a →
    ∃ t, exec .pageAreaRoom s = .next t ∧
      t.press.job = some (j.updPage p.seq (fun p =>
        { p.updStream r.plane r.band (fun t => { t with dram := some a }) with waitRoom := false })) ∧
      Alters s t { s with press := t.press } []) ∧
  (∀ (s : State) (j : Job) (l : Fin 96) (b : BandState), s.islandRuns 2 = true → s.press.job = some j → j.closing = false →
    j.passBlank.laneFree l = true → j.passBlank.pickBand (s.get DCX_STAGE_LINES_A) (s.recoveryWaits j.passBlank) = some b →
    ∃ t, exec (.laneAssignmentStart l true) s = .next t ∧
      t.press.job = some (j.passBlank.updBand b.plane b.band (fun x => { x with lane := some l.val })) ∧
      Alters s t { s with press := t.press } []) ∧
  (∀ (s : State) (j : Job) (l : Fin 96) (b : BandState), s.press.job = some j → j.bands.find? (fun b => b.lane == some l.val) = some b →
    (∀ x ∈ j.bands, x.lane = some l.val → x.plane = b.plane ∧ x.band = b.band) → s.clk ≠ clkLocking →
    ∃ t, exec (.laneAssignmentEnd l) s = .next t ∧ ∃ j', t.press.job = some j' ∧ ∀ x ∈ j'.bands, x.lane ≠ some l.val)

/-- Starting and resuming a run. Under the conditions of R120 the web runs up for the job's start, under those of R140 a recovery enters
LOCKING and RESUME_START is posted; CLK_STATE is LOCKING then (R54, R120, R139). A lock failure that leaves attempts posts LOCK_FAIL,
returns the clock to STOPPED and counts the attempt (R142). -/
def Obligations.StartsAndResumes : Prop :=
  (∀ (s : State) (j : Job), s.press.job = some j → s.runupReady j = true → s.shortTile = none →
    (∀ e ∈ s.entries, (s.ctl e.port e.slot).unacked = []) →
    ∃ t, exec .jobRunupStart s = .next t ∧ t.clk = clkLocking ∧ t.time = s.time) ∧
  (∀ (s : State) (j : Job) (r : Recovery), s.press.job = some j → j.recovery = some r → s.resumeReady j r = true → s.shortTile = none →
    j.started = true →
    ∃ t, exec .resumeLockingStart s = .next t ∧ t.clk = clkLocking ∧ PostsSome s t Ev.RESUME_START 0xFFFF ∧ t.time = s.time) ∧
  (∀ (s : State) (j : Job) (r : Recovery), s.press.job = some j → j.recovery = some r → s.clk = clkLocking → s.locked = false →
    r.tries + 1 < max 1 (s.get PGP_RECOV_CTRL_LOCK_TRIES) →
    ∃ t, exec .lockFail s = .next t ∧ t.clk = clkStopped ∧
      Posts s t Ev.LOCK_FAIL 0xFFFF [r.tries + 1, s.press.lockErrs.foldl max 0] ∧
      t.press.job = some { j with recovery := some { r with tries := r.tries + 1, phase := 2 } } ∧ t.time = s.time ∧ t.dram = s.dram ∧
      t.heads = s.heads)

/-- Spitting. Setting CAPPED on a plane shows CAPPED and SPITTING and sends SPIT to its tiles; clearing it clears CAPPED and sends SPIT off,
again every millisecond to a tile that has not acknowledged; SPITTING falls once no tile is left (R146, R295). Nothing but the plane's
register and the traffic with the tiles changes. -/
def Obligations.KeepWet : Prop :=
  (∀ (s : State) (req : Fin 6) (q : Fin 8) (v : Word), req ≠ 5 → s.islandRuns (3 + q) = true → bit v.toNat 0 = true →
    s.on (PLN_KEEPWET_CAPPED q) = false →
    ∃ t, exec (.keepwetCappedWrite req q v) s = .next t ∧ t.on (PLN_KEEPWET_CAPPED q) = true ∧ t.on (PLN_KEEPWET_SPITTING q) = true ∧
      Alters s t { s with heads := t.heads } [PLN_KEEPWET q]) ∧
  (∀ (s : State) (req : Fin 6) (q : Fin 8) (v : Word), req ≠ 5 → s.islandRuns (3 + q) = true → bit v.toNat 0 = false →
    s.on (PLN_KEEPWET_CAPPED q) = true →
    ∃ t, exec (.keepwetCappedWrite req q v) s = .next t ∧ t.on (PLN_KEEPWET_CAPPED q) = false ∧
      Alters s t { s with heads := t.heads } [PLN_KEEPWET q]) ∧
  (∀ (s : State) (q : Fin 8), s.on (PLN_KEEPWET_CAPPED q) = false →
    (∀ e ∈ s.planeEntries q, (s.ctl e.port e.slot).spitOff = false) →
    ∃ t, exec (.spitOffRetry q) s = .next t ∧ t.on (PLN_KEEPWET_SPITTING q) = false ∧ Silent s t [PLN_KEEPWET q]) ∧
  (∀ (s : State) (q : Fin 8) (e : MapEntry), s.on (PLN_KEEPWET_CAPPED q) = false → s.planeEntries q = [e] →
    (s.ctl e.port e.slot).spitOff = true → s.portUp e.port = true → s.authorised e.port = true → s.passive = false → e.port < 24 →
    (s.port e.port).outstanding.length < 1024 → s.heads.ports.length = 24 →
    ∃ t, exec (.spitOffRetry q) s = .next t ∧ t.on (PLN_KEEPWET_SPITTING q) = true ∧
      (t.port e.port).outstanding.length = (s.port e.port).outstanding.length + 1 ∧
      Alters s t { s with heads := t.heads } [PLN_KEEPWET q])

/-- The compression engine. An idle, selected unit takes the COMPRESS or DECOMPRESS descriptor next in the ring, shows it as its own, and
works on the source bytes as read (R170, R171, R172, R179). A job that ended OK gives its output to the destination, frees its unit, is
counted and completes with its payload; one that ended with NO_GAIN is counted as such and completes whatever NOTIFY says (R174 to R182).
What a COMPRESS with a free choice of tokens writes is open (R175, a free value). -/
def Obligations.CompressionCommands : Prop :=
  (∀ (s : State) (u : Fin 8) (d : OpenDesc) (bs : List Byte) (x : ReadResult), s.islandRuns 2 = true → s.head 4 = some d → d.op = 0x10 →
    s.cmx.length = 8 → bit (s.get CMX_UNIT_MASK_MASK) u = true → bit (s.get CMX_UNIT_STATUS_BUSY) u = false →
    cmxRefusals d.bits s.dramSize = [] → cxSrcDram d.bits = false → cxLoad d.bits = false →
    ∃ t, exec (.compress u (.ok bs) x) s = .next t ∧
      t.cmx.getD u none = some (compressJob d.bits (bs.take (cxSrcLen d.bits)) true (FblcState.reset (cxSymw d.bits) (cxWidth d.bits))) ∧
      bit (t.get CMX_UNIT_STATUS_BUSY) u = true ∧ t.get (CMX_UNIT_SEQ_SEQ u) = d.seq % 65536 ∧ t.on (CMX_UNIT_SEQ_VALID u) = true ∧
      t.hidden = { s.hidden with cmx := t.cmx } ∧ t.evtEntries = s.evtEntries ∧ Keeps s t [CMX_UNIT_STATUS, CMX_UNIT_SEQ u]) ∧
  (∀ (s : State) (u : Fin 8) (d : OpenDesc) (bs : List Byte) (h : FblcHeader) (x : ReadResult), s.islandRuns 2 = true → s.head 4 = some d →
    d.op = 0x11 → s.cmx.length = 8 → bit (s.get CMX_UNIT_MASK_MASK) u = true → bit (s.get CMX_UNIT_STATUS_BUSY) u = false →
    cmxRefusals d.bits s.dramSize = [] → cxSrcDram d.bits = false → (parseHeader (bs.take (cxSrcLen d.bits))).toOption = some h →
    rasterSize h.symw h.width h.lines ≤ cxCap d.bits → cxLoad d.bits = false →
    ∃ t, exec (.decompress u (.ok bs) x) s = .next t ∧
      t.cmx.getD u none = some (decompressJob d.bits h (bs.take (cxSrcLen d.bits)) true (FblcState.reset h.symw h.width)) ∧
      bit (t.get CMX_UNIT_STATUS_BUSY) u = true ∧ t.get (CMX_UNIT_SEQ_SEQ u) = d.seq % 65536 ∧ t.on (CMX_UNIT_SEQ_VALID u) = true ∧
      t.hidden = { s.hidden with cmx := t.cmx } ∧ t.evtEntries = s.evtEntries ∧ Keeps s t [CMX_UNIT_STATUS, CMX_UNIT_SEQ u]) ∧
  (∀ (s : State) (u : Fin 8) (j : CmxJob) (d : OpenDesc), s.cmx.length = 8 → s.cmx.getD u none = some j → j.status = stOK → j.fail = none →
    cxDstDram j.bits = false → cxSave j.bits = false → s.get CMX_UNIT_STATUS_BUSY < 256 → bit (s.get CMX_UNIT_STATUS_BUSY) u = true →
    s.desc 4 j.seq = some d → d.stale = false → d.notify = true →
    ∃ t, exec (.cmxDone u none) s = .next t ∧ t.cmx = s.cmx.set u none ∧
      t.get CMX_UNIT_STATUS_BUSY = s.get CMX_UNIT_STATUS_BUSY - 2 ^ u.val ∧
      t.get CMX_JOB_COUNT_COUNT = min CMX_JOB_COUNT_COUNT.max (s.get CMX_JOB_COUNT_COUNT + 1) ∧
      Completes s t 4 j.seq 2 Ev.CMX_DONE stOK u (cmxPayload u j) ∧
      t.hidden = { s.hidden with cmx := t.cmx } ∧
      Keeps s t (CMX_UNIT_STATUS :: CMX_JOB_COUNT :: CMX_BYTES_IN :: CMX_BYTES_OUT :: doneRegs 4)) ∧
  (∀ (s : State) (u : Fin 8) (j : CmxJob) (d : OpenDesc), s.cmx.length = 8 → s.cmx.getD u none = some j → j.status = cmxNO_GAIN →
    j.fail = none → cxDstDram j.bits = false → s.desc 4 j.seq = some d → d.stale = false →
    ∃ t, exec (.cmxDone u none) s = .next t ∧ t.cmx = s.cmx.set u none ∧
      t.get CMX_NOGAIN_COUNT_COUNT = min CMX_NOGAIN_COUNT_COUNT.max (s.get CMX_NOGAIN_COUNT_COUNT + 1) ∧
      Completes s t 4 j.seq 2 Ev.CMX_DONE cmxNO_GAIN u (cmxPayload u j) ∧ t.hidden = { s.hidden with cmx := t.cmx } ∧
      Keeps s t (CMX_UNIT_STATUS :: CMX_JOB_COUNT :: CMX_NOGAIN_COUNT :: doneRegs 4))

/-- The training of a head-link port (R224 to R226). Signal, block lock, adaptation, deskew, the latency measurement and the declarations
take a training port from phase 0 to phase 6, in which it is ON and PORT_UP has been posted. The latency of the hub and of each fitted slot is
shown when its sixteen echoes lie within 2 ns and its compensation is not negative (R205, R206). -/
def Obligations.PortTraining : Prop :=
  (∀ (s : State) (p : Fin 24), s.portTraining p = true → s.get (HLK_PORT_STATUS_PHASE p) = 0 →
    ∃ t, exec (.portSignalDetected p) s = .next t ∧ t.get (HLK_PORT_STATUS_PHASE p) = 1 ∧ t.on (SDS_LANE_STATUS_SIG_DET (2 * p)) = true ∧
      t.on (SDS_LANE_STATUS_SIG_DET (2 * p + 1)) = true ∧
      Silent s t [HLK_PORT_STATUS p, SDS_LANE_STATUS (2 * p), SDS_LANE_STATUS (2 * p + 1)]) ∧
  (∀ (s : State) (p : Fin 24), s.portTraining p = true → s.get (HLK_PORT_STATUS_PHASE p) = 1 →
    ∃ t, exec (.portBlockLock p) s = .next t ∧ t.get (HLK_PORT_STATUS_PHASE p) = 2 ∧ t.on (SDS_LANE_STATUS_BLOCK_LOCK (2 * p)) = true ∧
      t.on (SDS_LANE_STATUS_BLOCK_LOCK (2 * p + 1)) = true ∧
      Alters s t { s with lanes := t.lanes } [HLK_PORT_STATUS p, SDS_LANE_STATUS (2 * p), SDS_LANE_STATUS (2 * p + 1)]) ∧
  (∀ (s : State) (p : Fin 24), s.portTraining p = true → s.get (HLK_PORT_STATUS_PHASE p) = 2 →
    ∃ t, exec (.portAdaptDone p) s = .next t ∧ t.get (HLK_PORT_STATUS_PHASE p) = 3 ∧ Silent s t [HLK_PORT_STATUS p]) ∧
  (∀ (s : State) (p : Fin 24), s.portTraining p = true → s.get (HLK_PORT_STATUS_PHASE p) = 3 → s.heads.ports.length = 24 →
    ∃ t, exec (.portDeskewDone p) s = .next t ∧ t.get (HLK_PORT_STATUS_PHASE p) = 4 ∧
      (t.port p).outstanding = (s.port p).outstanding ++ [{ lsn := (s.port p).lsn, slot := 31, body := .ctl opDECLARE_REQ (s.ctl p 31).cseq true 0 [] none, sent := 1, lastStatus := 0 }] ∧
      Alters s t { s with heads := t.heads } [HLK_PORT_STATUS p]) ∧
  (∀ (s : State) (p : Fin 24) (es : List EchoSet) (xs : Nat → List Nat), s.portTraining p = true → s.get (HLK_PORT_STATUS_PHASE p) = 4 →
    (s.port p).hubOk = true →
    (∀ k : Fin 25, xs k = ((es.find? (fun e => e.slot == k)).map (·.rtTau)).getD []) →
    (∀ k ∈ s.fitted p ++ [24], echoesOk (xs k) = true ∧ lambda16 (xs k) (s.asym p k) < 2 ^ 24) →
    (∀ k ∈ s.fitted p, 608 + lambda16 (xs k) (s.asym p k) ≤ 16 * s.get HLK_FIRE_LATENCY_NS) →
    ∃ t, exec (.portLatencyDone p es) s = .next t ∧ t.get (HLK_PORT_STATUS_PHASE p) = 5 ∧
      (∀ k ∈ s.fitted p ++ [24], t.get (HLK_SLOT_LAT_LAT p k) = lambda16 (xs k) (s.asym p k) ∧ t.on (HLK_SLOT_LAT_VALID p k) = true) ∧
      t.hidden = { s.hidden with heads := t.heads } ∧ t.evtEntries = s.evtEntries) ∧
  (∀ (s : State) (p : Fin 24), s.portTraining p = true → s.get (HLK_PORT_STATUS_PHASE p) = 5 →
    (∀ k ∈ s.fitted p, (s.ctl p k).declSeen = true) →
    ∃ t, exec (.portUp p) s = .next t ∧ t.portUp p = true ∧ t.get (HLK_PORT_STATUS_RETRAIN_FAILS p) = 0 ∧
      t.on HLK_IRQ_CAUSE_PORT_UP = true ∧
      Posts s t Ev.PORT_UP p [(s.port p).rate, s.get (HLK_SLOT_LAT_LAT p 24), (s.fitted p).foldl (fun a k => a + 2 ^ k) 0])

/-- Loss of a port's link, failed retraining and authority. Loss of signal on a port that is up returns it to phase 0, posts PORT_DOWN and
fails every packet it still held (R227). A failed retraining is counted; the third in succession retires the port with reason 2 and
its lanes sleep (R228, R532). A port that is authorised to its module is shown so to its tiles (R221). -/
def Obligations.PortLossAndRetirement : Prop :=
  (∀ (s : State) (p : Fin 24) (l : Fin 2), s.portUp p = true → s.press.job = none → s.heads.ports.length = 24 →
    ∃ t, exec (.portDown p l false) s = .next t ∧ t.get (HLK_PORT_STATUS_PHASE p) = 0 ∧
      t.on (SDS_LANE_STATUS_SIG_DET (2 * p + l)) = false ∧ Posts s t Ev.PORT_DOWN p [2 * p + l, 0] ∧
      (t.port p).outstanding = [] ∧ (t.port p).waiting = []) ∧
  (∀ (s : State) (p : Fin 24), s.ust (.port p) = .on → s.get (HLK_PORT_STATUS_PHASE p) ≠ 0 → s.get (HLK_PORT_STATUS_PHASE p) ≠ 6 →
    s.get (HLK_PORT_STATUS_RETRAIN_FAILS p) < 2 → s.heads.ports.length = 24 →
    ∃ t, exec (.retrainTimeout p) s = .next t ∧
      t.get (HLK_PORT_STATUS_RETRAIN_FAILS p) = s.get (HLK_PORT_STATUS_RETRAIN_FAILS p) + 1 ∧ t.get (HLK_PORT_STATUS_PHASE p) = 0 ∧
      (t.port p).outstanding = [] ∧ Alters s t { s with heads := t.heads } [HLK_PORT_STATUS p]) ∧
  (∀ (s : State) (p : Fin 24), s.ust (.port p) = .on → s.get (HLK_PORT_STATUS_PHASE p) ≠ 0 → s.get (HLK_PORT_STATUS_PHASE p) ≠ 6 →
    2 ≤ s.get (HLK_PORT_STATUS_RETRAIN_FAILS p) → s.press.job = none →
    ∃ t, exec (.retrainTimeout p) s = .next t ∧ t.ust (.port p) = .retired ∧ t.get (HLK_PORT_STATUS_REASON p) = 2 ∧
      t.get (SDS_LANE_STATUS_PWR (2 * p)) = 2 ∧ t.get (SDS_LANE_STATUS_PWR (2 * p + 1)) = 2 ∧
      Posts s t Ev.PORT_RETIRED p [2, s.get (HLK_TALLY_COUNT p)]) ∧
  (∀ (s : State) (p : Fin 24),
    ∃ t, exec (.portAuthorised p) s = .next t ∧ t.heads = { s.heads with auth := s.heads.auth.set p true } ∧
      Alters s t { s with heads := t.heads } [])

/-- Acknowledgements of the head link. An ACK of a line packet ends it; an ACK of WARM also tells the duty the tile has (R199, R294). A bad
block is counted in the receive errors and the tally (R230). A packet whose acknowledgement is late is sent again and counted (R200). A
line packet still unacknowledged six periods before its tick is lost, counted and reported (R201). -/
def Obligations.Acknowledgements : Prop :=
  (∀ (s : State) (p : Fin 24) (lsn : BitVec 12) (slot : Fin 32) (k : Packet) (a b c : Nat) (l : List Nat) (last : Bool),
    (s.port p).outstanding.find? (fun k => k.lsn == lsn.toNat) = some k → k.body = .line a b c l last → (s.port p).waiting = [] →
    s.heads.ports.length = 24 →
    ∃ t, exec (.ackReceived p lsn 0 slot true) s = .next t ∧
      t.heads = { s.heads with ports := s.heads.ports.set p { s.port p with outstanding := (s.port p).outstanding.filter (fun k => k.lsn != lsn.toNat) } } ∧
      Alters s t { s with heads := t.heads } []) ∧
  (∀ (s : State) (p : Fin 24) (lsn : BitVec 12) (slot : Fin 32) (k : Packet) (cs line : Nat) (imm : Bool) (pl : List Byte) (jl : Option Nat),
    (s.port p).outstanding.find? (fun k => k.lsn == lsn.toNat) = some k → k.body = .ctl opWARM cs imm line pl jl → k.slot < 24 →
    (s.port p).waiting = [] → (s.ctl p k.slot).heldLines = [] →
    ∃ t, exec (.ackReceived p lsn 0 slot true) s = .next t ∧ (t.ctl p k.slot).duty = some (pf pl 0 1) ∧
      Alters s t { s with heads := t.heads } [HLK_SLOT_STATUS p k.slot]) ∧
  (∀ (s : State) (p : Fin 24) (lsn : BitVec 12) (status : Fin 16) (slot : Fin 32), s.portServes p = false →
    ∃ t, exec (.ackReceived p lsn status slot false) s = .next t ∧
      t.get (HLK_RX_ERR_COUNT_COUNT p) = min (HLK_RX_ERR_COUNT_COUNT p).max (s.get (HLK_RX_ERR_COUNT_COUNT p) + 1) ∧
      t.get (HLK_TALLY_COUNT p) = min (HLK_TALLY_COUNT p).max (s.get (HLK_TALLY_COUNT p) + 1) ∧
      Silent s t [HLK_RX_ERR_COUNT p, HLK_TALLY p]) ∧
  (∀ (s : State) (p : Fin 24) (lsn : BitVec 12) (k : Packet), (s.port p).outstanding.find? (fun k => k.lsn == lsn.toNat) = some k →
    k.sent < 4 → s.portServes p = false → s.heads.ports.length = 24 →
    ∃ t, exec (.ackTimeout p lsn) s = .next t ∧
      t.get (HLK_RETRY_COUNT_COUNT p) = min (HLK_RETRY_COUNT_COUNT p).max (s.get (HLK_RETRY_COUNT_COUNT p) + 1) ∧
      t.get (HLK_TALLY_COUNT p) = min (HLK_TALLY_COUNT p).max (s.get (HLK_TALLY_COUNT p) + 1) ∧
      (∀ x ∈ (t.port p).outstanding, x.lsn = lsn.toNat → x.sent = k.sent + 1) ∧
      Alters s t { s with heads := t.heads } [HLK_RETRY_COUNT p, HLK_TALLY p]) ∧
  (∀ (s : State) (p : Fin 24) (lsn : BitVec 12) (k : Packet) (a b c : Nat) (l : List Nat) (last : Bool),
    (s.port p).outstanding.find? (fun k => k.lsn == lsn.toNat) = some k → k.body = .line a b c l last → (s.port p).waiting = [] →
    s.press.job = none →
    ∃ t, exec (.linePacketDeadline p lsn) s = .next t ∧
      t.get (HLK_LOST_COUNT_COUNT p) = min (HLK_LOST_COUNT_COUNT p).max (s.get (HLK_LOST_COUNT_COUNT p) + 1) ∧
      Posts s t Ev.LINE_LOST p [k.slot, a, k.sent, k.lastStatus] ∧
      AltersPosting s t { s with heads := t.heads } [HLK_LOST_COUNT p, HLK_IRQ_CAUSE])

/-- Reports of the tiles and hubs. A TEMP report shows the temperatures, flags and duty of the tile; the first with WARN posts TILE_WARN
(R216, R283, R285). A sound declaration of a tile is kept and clears DECL_BAD, a hub's shows which slots are fitted (R217). A fault code
that becomes latched is kept and posts TILE_FAULT (R218). A tile of the job that has been silent for over 2 ms posts TEMP_STALE once
(R298). The reports come in sequence here. -/
def Obligations.TileReports : Prop :=
  (∀ (s : State) (p slot : Fin 24) (h : RepHdr) (a b : BitVec 16) (duty : BitVec 8) (e : MapEntry),
    (s.port p).retLsn = none ∨ (s.port p).retLsn = some h.lsn.toNat →
    s.entries.find? (fun e => e.port == p.val && e.slot == slot.val) = some e → e.g < 512 → (s.ctl p slot).clampFrom = none →
    s.on (PLN_THERM_CTRL_AUTO_CLEAR (e.g / 64)) = false →
    ∃ t, exec (.tempReport p slot h a b 0 duty) s = .next t ∧ t.getS (PLN_TILE_TEMP_T_MAX (e.g / 64) (e.g % 64)) = a.toInt ∧
      t.get (PLN_TILE_TEMP_FLAGS (e.g / 64) (e.g % 64)) = 0 ∧ t.get (PLN_TILE_TEMP_DUTY (e.g / 64) (e.g % 64)) = duty.toNat ∧
      (t.ctl p slot).tempAt = some s.now ∧ (t.ctl p slot).tMean = b.toInt ∧
      Alters s t { s with heads := t.heads } [PLN_TILE_TEMP (e.g / 64) (e.g % 64), PLN_THERM_STATUS (e.g / 64), PLN_TEMP_STATUS (e.g / 64)]) ∧
  (∀ (s : State) (p slot : Fin 24) (h : RepHdr) (a b : BitVec 16) (duty : BitVec 8) (e : MapEntry),
    (s.port p).retLsn = none ∨ (s.port p).retLsn = some h.lsn.toNat →
    s.entries.find? (fun e => e.port == p.val && e.slot == slot.val) = some e → e.g < 512 → (s.ctl p slot).clampFrom = none →
    (s.ctl p slot).flags = 0 → s.on (PLN_THERM_CTRL_AUTO_CLEAR (e.g / 64)) = false →
    ∃ t, exec (.tempReport p slot h a b 1 duty) s = .next t ∧ t.get (PLN_TILE_TEMP_FLAGS (e.g / 64) (e.g % 64)) = 1 ∧
      Posts s t Ev.TILE_WARN e.g [twos 16 a.toInt, twos 16 b.toInt, s.time.line] ∧ t.on PLN_IRQ_CAUSE_WARN = true ∧
      AltersPosting s t { s with heads := t.heads }
        [PLN_TILE_TEMP (e.g / 64) (e.g % 64), PLN_THERM_STATUS (e.g / 64), PLN_TEMP_STATUS (e.g / 64), PLN_IRQ_CAUSE]) ∧
  (∀ (s : State) (p : Fin 24) (slot : Fin 32) (h : RepHdr) (d : DescBits),
    (s.port p).retLsn = none ∨ (s.port p).retLsn = some h.lsn.toNat → slot.val < 24 → declBad d false = none → (s.ctl p slot).decl = none →
    ∃ t, exec (.declareReport p slot h d) s = .next t ∧ (t.ctl p slot).decl = some d ∧ (t.ctl p slot).declSeen = true ∧
      t.on (HLK_SLOT_STATUS_DECL_BAD p slot) = false ∧ Alters s t { s with heads := t.heads } [HLK_SLOT_STATUS p slot]) ∧
  (∀ (s : State) (p : Fin 24) (h : RepHdr) (d : DescBits),
    (s.port p).retLsn = none ∨ (s.port p).retLsn = some h.lsn.toNat → declBad d true = none → s.heads.ports.length = 24 →
    hubThisPort d = (if s.role = 2 then 1 else 0) →
    ∃ t, exec (.declareReport p 31 h d) s = .next t ∧ (t.port p).hubOk = true ∧ (t.port p).hubDecl = some d ∧
      (∀ k : Fin 24, t.slotPresent p k = bit (hubSlots d) k) ∧
      Alters s t { s with heads := t.heads } ((List.range 24).map (HLK_SLOT_STATUS p))) ∧
  (∀ (s : State) (p : Fin 24) (slot : Fin 32) (h : RepHdr) (code count : BitVec 16) (line : BitVec 24) (group : BitVec 8),
    (s.port p).retLsn = none ∨ (s.port p).retLsn = some h.lsn.toNat → code ≠ 2 → code.toNat < 8 →
    bit (s.ctl p slot).faults code.toNat = false → s.posOf p slot = none →
    ∃ t, exec (.faultReport p slot h code count line group) s = .next t ∧
      (t.ctl p slot).faults = (s.ctl p slot).faults + 2 ^ code.toNat ∧
      Posts s t Ev.TILE_FAULT p [slot, h.ident.toNat, code.toNat, line.toNat, group.toNat] ∧
      AltersPosting s t { s with heads := t.heads } [HLK_SLOT_STATUS p slot, HLK_IRQ_CAUSE]) ∧
  (∀ (s : State) (p slot : Fin 24) (g : Nat), s.posOf p slot = some g → s.press.job ≠ none → s.fresh (s.ctl p slot) = false →
    (s.ctl p slot).stalePosted = false →
    ∃ t, exec (.tempStale p slot) s = .next t ∧ (t.ctl p slot).stalePosted = true ∧
      Posts s t Ev.TEMP_STALE g [(s.now - (s.ctl p slot).tempAt.getD 0) / 1000] ∧
      AltersPosting s t { s with heads := t.heads } [PLN_IRQ_CAUSE])

/-- What the FH-824 sends to a tile on its own or by a register. WARM goes to a tile whose duty differs from the one it last acknowledged, at
most once per 250 µs (R294). Writes of the thermal levels store them and send nothing to a plane without tiles; a write of PLN_FAULT_CLEAR
sends CLEAR_FAULT to the tile it names (R219, R284). -/
def Obligations.TileCommandsSent : Prop :=
  (∀ (s : State) (p slot : Fin 24) (g : Nat), s.posOf p slot = some g → (s.ctl p slot).warmCyc = none →
    (s.ctl p slot).duty ≠ some (s.warmDuty g) → s.slotPresent p slot = true → s.portUp p = true → s.passive = false →
    (s.port p).outstanding.length < 1024 → s.heads.ports.length = 24 →
    ∃ t, exec (.warmUpdate p slot) s = .next t ∧ (t.ctl p slot).warmCyc = some s.time.cyc ∧
      (t.port p).outstanding = (s.port p).outstanding ++ [{ lsn := (s.port p).lsn, slot := slot, body := .ctl opWARM (s.ctl p slot).cseq true 0 (leBytes 8 (s.warmDuty g)) none, sent := 1, lastStatus := 0 }] ∧
      Alters s t { s with heads := t.heads } []) ∧
  (∀ (s : State) (p slot : Fin 24) (g c : Nat), s.posOf p slot = some g → (s.ctl p slot).warmCyc = some c → s.time.cyc < c + 62500 →
    ∃ t, exec (.warmUpdate p slot) s = .next t ∧ Silent s t []) ∧
  (∀ (s : State) (req : Fin 6) (q : Fin 8) (v : Word), req ≠ 5 → s.islandRuns (3 + q) = true →
    ∃ t, exec (.plnThermWrite req q 0 v) s = .next t ∧ t.rget (PLN_THERM0 q) = v ∧ Alters s t { s with heads := t.heads } [PLN_THERM0 q]) ∧
  (∀ (s : State) (req : Fin 6) (q : Fin 8) (v : Word), req ≠ 5 → s.islandRuns (3 + q) = true →
    ∃ t, exec (.plnThermWrite req q 1 v) s = .next t ∧ t.rget (PLN_THERM1 q) = v ∧ Alters s t { s with heads := t.heads } [PLN_THERM1 q]) ∧
  (∀ (s : State) (req : Fin 6) (q : Fin 8) (v : Word), req ≠ 5 → s.islandRuns (3 + q) = true → s.planeEntries q = [] →
    ∃ t, exec (.plnThermWrite req q 2 v) s = .next t ∧ t.get (PLN_THERM2_HYST q) = v.toNat % 65536 ∧ Silent s t [PLN_THERM2 q]) ∧
  (∀ (s : State) (req : Fin 6) (q : Fin 8) (v : Word) (e : MapEntry), req ≠ 5 → s.islandRuns (3 + q) = true →
    s.entryAt (64 * q + bits v.toNat 13 8) = some e → s.portUp e.port = true → (s.port e.port).outstanding.length < 1024 →
    e.port < s.heads.ports.length →
    ∃ t, exec (.plnFaultClear req q v) s = .next t ∧
      (t.port e.port).outstanding = (s.port e.port).outstanding ++ [{ lsn := (s.port e.port).lsn, slot := e.slot, body := .ctl opCLEAR_FAULT (s.ctl e.port e.slot).cseq true 0 (leBytes 4 (bits v.toNat 7 0) ++ leBytes 4 0) none, sent := 1, lastStatus := 0 }] ∧
      Alters s t { s with heads := t.heads } [])

/-- Loads of a tile (R210, R211). A MASK_LOAD that applies at once governs the columns it covers, and a TRIM_LOAD the heaters of its
columns; every other column keeps what it had. A timed load outside its window is answered with WINDOW and changes no tile. -/
def Obligations.TileLoads : Prop :=
  (∀ (s : State) (p : Fin 24) (slot : Fin 32) (h : CtlHdr) (b : List Byte), s.takesCtl p slot h b (8 + pf b 2 2) →
    h.imm = true → h.line = 0 → 0 < pf b 2 2 → pf b 0 2 + pf b 2 2 ≤ 4096 → pf b 4 4 = 0 →
    ∃ t, exec (.maskLoad p slot h b) s = .next t ∧ Answers s t p slot h.lsn.toNat akACK ∧
      (∀ c, (t.tile p slot).maskOf c = if pf b 0 2 ≤ c ∧ c < pf b 0 2 + pf b 2 2 then (b.getD (8 + (c - pf b 0 2)) 0).toNat
        else (s.tile p slot).maskOf c) ∧
      t.tile p slot = { s.tile p slot with reports := [], masks := (t.tile p slot).masks, lastCseq := some h.cseq.toNat }) ∧
  (∀ (s : State) (p : Fin 24) (slot : Fin 32) (h : CtlHdr) (b : List Byte), s.takesCtl p slot h b (8 + 12 * pf b 2 2) →
    h.imm = true → h.line = 0 → 0 < pf b 2 2 → pf b 2 2 ≤ 256 → pf b 0 2 + pf b 2 2 ≤ 4096 → pf b 4 4 = 0 →
    ∃ t, exec (.trimLoad p slot h b) s = .next t ∧ Answers s t p slot h.lsn.toNat akACK ∧
      (∀ c k, (t.tile p slot).trimOf c k = if pf b 0 2 ≤ c ∧ c < pf b 0 2 + pf b 2 2 then
          sgn 6 (bits (pf b (8 + 12 * (c - pf b 0 2)) 12) (6 * k + 5) (6 * k))
        else (s.tile p slot).trimOf c k) ∧
      t.tile p slot = { s.tile p slot with reports := [], trims := (t.tile p slot).trims, lastCseq := some h.cseq.toNat }) ∧
  (∀ (s : State) (p : Fin 24) (slot : Fin 32) (h : CtlHdr) (b : List Byte), s.takesCtl p slot h b (8 + pf b 2 2) →
    h.imm = false → 0 < pf b 2 2 → pf b 0 2 + pf b 2 2 ≤ 4096 → pf b 4 4 = 0 →
    lineDist h.line.toNat (s.tile p slot).cur = 0 ∨ 2 ^ 23 ≤ lineDist h.line.toNat (s.tile p slot).cur →
    ∃ t, exec (.maskLoad p slot h b) s = .next t ∧ Answers s t p slot h.lsn.toNat akWINDOW ∧ t.heads.tiles = s.heads.tiles)

/-- Parameters of a tile (R206, R210, R277, R281, R284, R293). FIRE_PARAMS, DROP_TABLE, WARM, THERM, TICK_DELAY and ASSIGN_ID within their
ranges, at a tile that holds no line packet, store their values and are acknowledged; nothing else of the tile changes. -/
def Obligations.TileParameters : Prop :=
  (∀ (s : State) (p : Fin 24) (slot : Fin 32) (h : CtlHdr) (b : List Byte), s.takesCtl p slot h b 16 → h.imm = true → h.line = 0 →
    (s.tile p slot).held = [] → fireParamsOk b = true →
    ∃ t, exec (.fireParams p slot h b) s = .next t ∧ Answers s t p slot h.lsn.toNat akACK ∧
      t.tile p slot = { s.tile p slot with reports := [], pre := pf b 0 2, dead := pf b 2 2, mainNs := pf b 4 2, scale := pf b 6 2, gap := pf b 8 2, rowK := pf b 10 1, lastCseq := some h.cseq.toNat }) ∧
  (∀ (s : State) (p : Fin 24) (slot : Fin 32) (h : CtlHdr) (b : List Byte), s.takesCtl p slot h b 8 → h.imm = true → h.line = 0 →
    (s.tile p slot).held = [] → dropTableOk b = true →
    ∃ t, exec (.dropTable p slot h b) s = .next t ∧ Answers s t p slot h.lsn.toNat akACK ∧
      t.tile p slot = { s.tile p slot with reports := [], drops := [pf b 0 1, pf b 1 1, pf b 2 1, pf b 3 1], lastCseq := some h.cseq.toNat }) ∧
  (∀ (s : State) (p : Fin 24) (slot : Fin 32) (h : CtlHdr) (b : List Byte), s.takesCtl p slot h b 8 → h.imm = true → h.line = 0 →
    pf b 1 7 = 0 →
    ∃ t, exec (.warm p slot h b) s = .next t ∧ Answers s t p slot h.lsn.toNat akACK ∧
      t.tile p slot = { s.tile p slot with reports := [], duty := pf b 0 1, lastCseq := some h.cseq.toNat }) ∧
  (∀ (s : State) (p : Fin 24) (slot : Fin 32) (h : CtlHdr) (b : List Byte), s.takesCtl p slot h b 16 → h.imm = true → h.line = 0 →
    sgn 16 (pf b 8 2) < sgn 16 (pf b 0 2) → sgn 16 (pf b 0 2) < sgn 16 (pf b 2 2) → sgn 16 (pf b 2 2) < sgn 16 (pf b 4 2) →
    sgn 16 (pf b 4 2) ≤ declTAbs (s.tileDecl p slot) → 32 ≤ sgn 16 (pf b 6 2) → sgn 16 (pf b 6 2) ≤ 640 → pf b 10 6 = 0 →
    ∃ t, exec (.therm p slot h b) s = .next t ∧ Answers s t p slot h.lsn.toNat akACK ∧
      t.tile p slot = { s.tile p slot with reports := [], thWarn := sgn 16 (pf b 0 2), thClamp := sgn 16 (pf b 2 2), thShut := sgn 16 (pf b 4 2), thHyst := sgn 16 (pf b 6 2), thMin := sgn 16 (pf b 8 2), thermSet := true, lastCseq := some h.cseq.toNat }) ∧
  (∀ (s : State) (p : Fin 24) (slot : Fin 32) (h : CtlHdr) (b : List Byte), s.takesCtl p slot h b 8 → h.imm = true → h.line = 0 →
    (s.tile p slot).held = [] → pf b 4 4 = 0 →
    ∃ t, exec (.tickDelay p slot h b) s = .next t ∧ Answers s t p slot h.lsn.toNat akACK ∧
      t.tile p slot = { s.tile p slot with reports := [], delay16 := pf b 0 4, lastCseq := some h.cseq.toNat }) ∧
  (∀ (s : State) (p : Fin 24) (slot : Fin 32) (h : CtlHdr) (b : List Byte), s.takesCtl p slot h b 8 → h.imm = true → h.line = 0 →
    (s.tile p slot).held = [] → pf b 0 2 / 512 % 64 = 0 → pf b 2 6 = 0 →
    ∃ t, exec (.assignId p slot h b) s = .next t ∧ Answers s t p slot h.lsn.toNat akACK ∧
      t.tile p slot = { s.tile p slot with reports := [], ident := pf b 0 2 % 512, assigned := bit (pf b 0 2) 15, lastCseq := some h.cseq.toNat })

/-- Actions of a tile. RES_SWEEP runs at an idle tile for 2 µs per 16 heaters (R212); SPIT sets size and rate, or ends spitting (R295, R296);
LINE_CANCEL takes away the lines from L on (R214); SET_LINE sets the line counter and starts afresh (R213); DECLARE_REQ brings the declaration
(R216); CLEAR_FAULT unlatches the codes it names, here code 4 not among them (R219, R289); ECHO is answered with its nonce (R205; the time is
a free value). -/
def Obligations.TileActions : Prop :=
  (∀ (s : State) (p : Fin 24) (slot : Fin 32) (h : CtlHdr) (b : List Byte), s.takesCtl p slot h b 8 → h.imm = true → h.line = 0 →
    (s.tile p slot).idle s.time.cyc = true → pf b 0 4 % 16 = 0 → pf b 4 4 % 16 = 0 → pf b 4 4 ≠ 0 → pf b 0 4 + pf b 4 4 ≤ 65536 →
    ∃ t, exec (.resSweep p slot h b) s = .next t ∧ Answers s t p slot h.lsn.toNat akACK ∧
      t.tile p slot = { s.tile p slot with reports := [], sweepEnd := s.time.cyc + 500 * (pf b 4 4 / 16), lastCseq := some h.cseq.toNat }) ∧
  (∀ (s : State) (p : Fin 24) (slot : Fin 32) (h : CtlHdr) (b : List Byte), s.takesCtl p slot h b 8 → h.imm = true → h.line = 0 →
    (s.tile p slot).held = [] → (s.tile p slot).sweeping s.time.cyc = false → pf b 0 1 = 1 → 1 ≤ pf b 1 1 → pf b 1 1 ≤ 3 →
    1 ≤ pf b 2 2 → pf b 2 2 ≤ 5000 → pf b 4 4 = 0 →
    ∃ t, exec (.spit p slot h b) s = .next t ∧ Answers s t p slot h.lsn.toNat akACK ∧
      t.tile p slot = { s.tile p slot with reports := [], spitSize := pf b 1 1, spitRate := pf b 2 2, lastCseq := some h.cseq.toNat }) ∧
  (∀ (s : State) (p : Fin 24) (slot : Fin 32) (h : CtlHdr), s.takesCtl p slot h [] 0 →
    ∃ t, exec (.lineCancel p slot h []) s = .next t ∧ Answers s t p slot h.lsn.toNat akACK ∧ (t.tile p slot).lastSeen = true ∧
      (t.tile p slot).held = (s.tile p slot).held.filter (fun k => !Nat.blt (lineDist k.line h.line.toNat) (2 ^ 23)) ∧
      (t.tile p slot).cur = (s.tile p slot).cur) ∧
  (∀ (s : State) (p : Fin 24) (slot : Fin 32) (h : CtlHdr), s.takesCtl p slot h [] 0 →
    ∃ t, exec (.setLine p slot h []) s = .next t ∧ Answers s t p slot h.lsn.toNat akACK ∧ (t.tile p slot).cur = h.line.toNat ∧
      (t.tile p slot).waiting = true ∧ (t.tile p slot).lastSeen = false ∧ (t.tile p slot).ptrs = startPtrs ∧
      (∀ k ∈ (t.tile p slot).held, lineDist k.line h.line.toNat = 0 ∨ 2 ^ 23 < lineDist k.line h.line.toNat)) ∧
  (∀ (s : State) (p : Fin 24) (slot : Fin 32) (h : CtlHdr), s.takesCtl p slot h [] 0 → h.imm = true → h.line = 0 →
    ∃ t, exec (.declareReq p slot h []) s = .next t ∧ Answers s t p slot h.lsn.toNat akACK ∧
      (t.tile p slot).reports.map (·.payload) = [declBytes (s.tileDecl p slot)]) ∧
  (∀ (s : State) (p : Fin 24) (slot : Fin 32) (h : CtlHdr) (b : List Byte), s.takesCtl p slot h b 8 → h.imm = true → h.line = 0 →
    pf b 4 4 = 0 → bit (pf b 0 4) 4 = false →
    ∃ t, exec (.clearFault p slot h b) s = .next t ∧ Answers s t p slot h.lsn.toNat akACK ∧
      (∀ c, c < 32 → (t.tile p slot).fault c = ((s.tile p slot).fault c && !bit (pf b 0 4) c)) ∧
      (t.tile p slot).held = (s.tile p slot).held) ∧
  (∀ (s : State) (p : Fin 24) (slot : Fin 32) (nonce : BitVec 8), slot.val < 24 → (s.tile p slot).present = true →
    ∃ t, exec (.echo p slot nonce) s = .next t ∧
      t.heads = { s.heads with echo := s.heads.echo.set p (some (slot.val, nonce.toNat, Config.echoTau p slot nonce.toNat)) } ∧
      Alters s t { s with heads := t.heads } [])

/-- Line packets and ticks at a tile. A whole line packet inside the window joins the held ones; one outside it is answered with WINDOW
(R193, R196, R198). At a tick the line counter takes the tick's line; where nothing is held nothing fires and no fault is latched (R195,
R209). A clamped tile fires no drop of both heaters, and one without authority fires none (R221, R286). A missed tick moves the counter on and
latches code 2; a second in succession drops firing and latches code 3 (R209, R297). -/
def Obligations.TileLinesAndTicks : Prop :=
  (∀ (s : State) (p : Fin 24) (slot : Fin 32) (h : LineHdr) (b : List Byte), h.crcOk = true → b.length = 1024 → s.authorised p = true →
    slot.val < 24 → (s.tile p slot).present = true → (s.tile p slot).sweeping s.time.cyc = false →
    1 ≤ lineDist h.line.toNat (s.tile p slot).cur → lineDist h.line.toNat (s.tile p slot).cur ≤ 32 →
    (∀ k ∈ (s.tile p slot).held, k.line ≠ h.line.toNat) → (s.tile p slot).held.length < 96 →
    ∃ t, exec (.linePacketReceive p slot h b) s = .next t ∧ Answers s t p slot h.lsn.toNat akACK ∧
      t.tile p slot = { s.tile p slot with held := (s.tile p slot).held ++ [{ line := h.line.toNat, codes := unpackSyms 2 b, last := h.last, rows := none }], lastSeen := (s.tile p slot).lastSeen || h.last }) ∧
  (∀ (s : State) (p : Fin 24) (slot : Fin 32) (h : LineHdr) (b : List Byte), h.crcOk = true → b.length = 1024 → s.authorised p = true →
    slot.val < 24 → (s.tile p slot).present = true → (s.tile p slot).sweeping s.time.cyc = false →
    lineDist h.line.toNat (s.tile p slot).cur = 0 ∨ 32 < lineDist h.line.toNat (s.tile p slot).cur →
    ∃ t, exec (.linePacketReceive p slot h b) s = .next t ∧ Answers s t p slot h.lsn.toNat akWINDOW ∧ t.heads.tiles = s.heads.tiles) ∧
  (∀ (s : State) (p slot : Fin 24) (line : BitVec 24) (phase : BitVec 8), (s.tile p slot).present = true → s.authorised p = true →
    line.toNat = ((s.tile p slot).cur + 1) % 2 ^ 24 → (s.tile p slot).held = [] →
    (s.tile p slot).waiting = true ∨ (s.tile p slot).lastSeen = true →
    ∃ t, exec (.tickReceived p slot line phase true) s = .next t ∧ OnlyTile s t p slot ∧ (t.tile p slot).cur = line.toNat ∧
      (t.tile p slot).fired = [] ∧ (t.tile p slot).faults = (s.tile p slot).faults ∧ (t.tile p slot).missed = 0 ∧
      (t.tile p slot).authMiss = 0) ∧
  (∀ (s : State) (p slot : Fin 24) (line : BitVec 24) (phase : BitVec 8) (auth : Bool), (s.tile p slot).present = true →
    ∃ t, exec (.tickReceived p slot line phase auth) s = .next t ∧ OnlyTile s t p slot ∧ (t.tile p slot).cur = line.toNat ∧
      (∀ d ∈ (t.tile p slot).fired, s.authorised p = true ∧ ((s.tile p slot).clamp = true → d.heaters ≠ 3))) ∧
  (∀ (s : State) (p slot : Fin 24), (s.tile p slot).present = true → s.authorised p = false → (s.tile p slot).missed = 0 →
    ∃ t, exec (.tileTickMissed p slot) s = .next t ∧ OnlyTile s t p slot ∧ (t.tile p slot).cur = ((s.tile p slot).cur + 1) % 2 ^ 24 ∧
      (t.tile p slot).missed = 1 ∧ (t.tile p slot).fault 2 = true ∧ (t.tile p slot).fired = []) ∧
  (∀ (s : State) (p slot : Fin 24), (s.tile p slot).present = true → 1 ≤ (s.tile p slot).missed →
    ∃ t, exec (.tileTickMissed p slot) s = .next t ∧ OnlyTile s t p slot ∧ (t.tile p slot).held = [] ∧ (t.tile p slot).spitSize = 0 ∧
      (t.tile p slot).firing = false ∧ (t.tile p slot).fault 3 = true)

/-- Authority, heat and faults of a tile. A port that loses authority drops firing on every tile of its module and on no other (R221, R297). A
temperature sample is kept; one at or above SHUT shuts the tile down and latches code 4 (R285, R288). Without authority the warming hold ends
in duty 0 (R293). The report timer reports the temperature or the latched faults (R216, R218). A fault of the drive stage or of the packet
buffer latches code 5 or 7 and drops firing (R218). -/
def Obligations.TileProtection : Prop :=
  (∀ (s : State) (p : Fin 24),
    ∃ t, exec (.tileAuthorityLost p) s = .next t ∧ t.authorised p = false ∧
      (∀ k : Fin 24, (s.tile p k).present = true →
        (t.tile p k).held = [] ∧ (t.tile p k).spitSize = 0 ∧ (t.tile p k).firing = false ∧ (t.tile p k).cur = (s.tile p k).cur) ∧
      (∀ q k, k < 32 → q ≠ p.val → t.tile q k = s.tile q k) ∧ Alters s t { s with heads := t.heads } []) ∧
  (∀ (s : State) (p slot : Fin 24) (a b : BitVec 16), (s.tile p slot).present = true → a.toInt < (s.tile p slot).level p slot 2 →
    ∃ t, exec (.tileTempSample p slot a b) s = .next t ∧ OnlyTile s t p slot ∧ (t.tile p slot).tMax = a.toInt ∧
      (t.tile p slot).tMean = b.toInt ∧ (t.tile p slot).shut = (s.tile p slot).shut ∧ (t.tile p slot).faults = (s.tile p slot).faults ∧
      (t.tile p slot).held = (s.tile p slot).held) ∧
  (∀ (s : State) (p slot : Fin 24) (a b : BitVec 16), (s.tile p slot).present = true → (s.tile p slot).level p slot 2 ≤ a.toInt →
    (s.tile p slot).fault 4 = false →
    ∃ t, exec (.tileTempSample p slot a b) s = .next t ∧ OnlyTile s t p slot ∧ (t.tile p slot).shut = true ∧
      (t.tile p slot).clamp = true ∧ (t.tile p slot).fault 4 = true ∧ (t.tile p slot).held = [] ∧ (t.tile p slot).spitSize = 0) ∧
  (∀ (s : State) (p slot : Fin 24), s.authorised p = false →
    ∃ t, exec (.tileWarmHoldExpired p slot) s = .next t ∧ OnlyTile s t p slot ∧ t.tile p slot = { s.tile p slot with duty := 0 }) ∧
  (∀ (s : State) (p slot : Fin 24), (s.tile p slot).present = true →
    ∃ t, exec (.tileReportTimer p slot false) s = .next t ∧ OnlyTile s t p slot ∧
      t.tile p slot = { s.tile p slot with reports := [(s.tile p slot).tempReport] }) ∧
  (∀ (s : State) (p slot : Fin 24), (s.tile p slot).present = true →
    ∃ t, exec (.tileReportTimer p slot true) s = .next t ∧ OnlyTile s t p slot ∧
      t.tile p slot = { s.tile p slot with reports := ((List.range 8).filter (s.tile p slot).fault).map (s.tile p slot).faultReport }) ∧
  (∀ (s : State) (p slot : Fin 24) (buffer : Bool), (s.tile p slot).present = true →
    ∃ t, exec (.heaterDriveOrBufferFault p slot buffer) s = .next t ∧ OnlyTile s t p slot ∧
      (t.tile p slot).fault (if buffer = true then 7 else 5) = true ∧ (t.tile p slot).held = [] ∧ (t.tile p slot).spitSize = 0)

/-- The ledger's command queue. A write of LDG_CMD puts its command into a queue with room (R273); one that names no operation, alone in the
queue, is refused with BAD_OP and reported (R274). SET_TEMP, CLEAR_TEMP, RETIRE and RESTORE change exactly the nozzles of their range that are in
a state they act on (R243, R244, R274), and end with RESULT OK; the commands behind them move up. -/
def Obligations.LedgerRangeCommands : Prop :=
  (∀ (s : State) (req : Fin 6) (v : Word), req ≠ 5 → s.islandRuns 0 = true → s.ldg.cmds.length < 64 →
    1 ≤ bits v.toNat 7 0 → bits v.toNat 7 0 ≤ 9 → (∀ c ∈ s.ldg.cmds, 1 ≤ c.op ∧ c.op ≤ 9) →
    ∃ t, exec (.ldgCmdWrite req v) s = .next t ∧
      t.ldg = { s.ldg with cmds := s.ldg.cmds ++ [{ ready := s.on LDG_STATUS_READY, op := bits v.toNat 7 0, tile := bits v.toNat 16 8, nozzle := bits v.toNat 31 17, arg := (s.rget LDG_CMD_ARG).toNat }] } ∧
      t.get LDG_CMD_STATUS_DEPTH = s.ldg.cmds.length + 1 ∧ Alters s t { s with ldg := t.ldg } [LDG_CMD_STATUS]) ∧
  (∀ (s : State) (req : Fin 6) (v : Word), req ≠ 5 → s.islandRuns 0 = true → s.ldg.cmds = [] → s.on LDG_STATUS_READY = true →
    bits v.toNat 7 0 = 0 ∨ 9 < bits v.toNat 7 0 →
    ∃ t, exec (.ldgCmdWrite req v) s = .next t ∧ t.ldg = s.ldg ∧ t.get LDG_CMD_STATUS_RESULT = lrBAD_OP ∧
      t.get LDG_CMD_STATUS_DONE = (s.get LDG_CMD_STATUS_DONE + 1) % 65536 ∧
      Posts s t Ev.CMD_REFUSED (bits v.toNat 16 8) [bits v.toNat 7 0, bits v.toNat 16 8, bits v.toNat 31 17, lrBAD_OP] ∧
      Touches s t [LDG_CMD_STATUS, LDG_IRQ_CAUSE]) ∧
  (∀ (s : State) (c : LdgCmd) (cs : List LdgCmd), s.ldg.cmds = c :: cs → c.op = 1 → c.ready = true → 1 ≤ c.arg → c.nozzle + c.arg ≤ 32768 →
    (∀ x ∈ cs, 1 ≤ x.op ∧ x.op ≤ 9) →
    ∃ t, exec .setTemp s = .next t ∧ t.ldg.cmds = cs ∧ t.get LDG_CMD_STATUS_RESULT = lrOK ∧
      (∀ g n, n < 32768 → t.noz g n = if g = c.tile ∧ c.nozzle ≤ n ∧ n < c.nozzle + c.arg ∧ (s.noz g n = nzOK ∨ s.noz g n = nzSUSPECT)
        then nzTEMP else s.noz g n)) ∧
  (∀ (s : State) (c : LdgCmd) (cs : List LdgCmd), s.ldg.cmds = c :: cs → c.op = 2 → c.ready = true → 1 ≤ c.arg → c.nozzle + c.arg ≤ 32768 →
    (∀ x ∈ cs, 1 ≤ x.op ∧ x.op ≤ 9) →
    ∃ t, exec .clearTemp s = .next t ∧ t.ldg.cmds = cs ∧ t.get LDG_CMD_STATUS_RESULT = lrOK ∧
      (∀ g n, n < 32768 → t.noz g n = if g = c.tile ∧ c.nozzle ≤ n ∧ n < c.nozzle + c.arg ∧ s.noz g n = nzTEMP then nzOK else s.noz g n)) ∧
  (∀ (s : State) (c : LdgCmd) (cs : List LdgCmd), s.ldg.cmds = c :: cs → c.op = 3 → c.ready = true → 1 ≤ c.arg → c.nozzle + c.arg ≤ 32768 →
    (∀ x ∈ cs, 1 ≤ x.op ∧ x.op ≤ 9) →
    ∃ t, exec .retire s = .next t ∧ t.ldg.cmds = cs ∧ t.get LDG_CMD_STATUS_RESULT = lrOK ∧
      (∀ g n, n < 32768 → t.noz g n = if g = c.tile ∧ c.nozzle ≤ n ∧ n < c.nozzle + c.arg then nzRETIRED else s.noz g n)) ∧
  (∀ (s : State) (c : LdgCmd) (cs : List LdgCmd), s.ldg.cmds = c :: cs → c.op = 4 → c.ready = true → 1 ≤ c.arg → c.nozzle + c.arg ≤ 32768 →
    (∀ x ∈ cs, 1 ≤ x.op ∧ x.op ≤ 9) →
    ∃ t, exec .restore s = .next t ∧ t.ldg.cmds = cs ∧ t.get LDG_CMD_STATUS_RESULT = lrOK ∧
      (∀ g n, n < 32768 → t.noz g n = if g = c.tile ∧ c.nozzle ≤ n ∧ n < c.nozzle + c.arg ∧ s.noz g n = nzRETIRED then nzOK else s.noz g n))

/-- Evidence, purges, sweeps and adoption. Evidence against an OK nozzle that opens its suspect entry makes it SUSPECT, other evidence is counted as
ignored (R244 to R246). PURGE_DONE returns every SUSPECT nozzle of its planes to OK and no other (R244). SWEEP under the conditions of
R235 starts and is shown; ADOPT makes the declared tile the position's, all its nozzles OK (R264); REBASE takes the position's trims away (R240,
R274). -/
def Obligations.LedgerCommands : Prop :=
  (∀ (s : State) (c : LdgCmd) (i : Nat), s.ldg.cmds = [c] → c.op = 5 → c.ready = true → c.nozzle < 32768 → s.noz c.tile c.nozzle = nzOK →
    s.afterPurge c.tile (s.observedLine c.arg) = true → s.suspectOf c.tile c.nozzle = none → s.freeSuspect = some i → 2 ≤ s.suspectK →
    ∃ t, exec .evidence s = .next t ∧ t.ldg.cmds = [] ∧ t.get LDG_CMD_STATUS_RESULT = lrOK ∧
      (∀ g n, n < 32768 → t.noz g n = if g = c.tile ∧ n = c.nozzle then nzSUSPECT else s.noz g n)) ∧
  (∀ (s : State) (c : LdgCmd), s.ldg.cmds = [c] → c.op = 5 → c.ready = true → s.noz c.tile c.nozzle ≠ nzOK →
    ∃ t, exec .evidence s = .next t ∧ t.ldg = { s.ldg with cmds := [] } ∧
      t.get LDG_EVID_IGNORED_COUNT = min LDG_EVID_IGNORED_COUNT.max (s.get LDG_EVID_IGNORED_COUNT + 1) ∧
      Alters s t { s with ldg := t.ldg } [LDG_EVID_IGNORED, LDG_CMD_STATUS]) ∧
  (∀ (s : State) (c : LdgCmd), s.ldg.cmds = [c] → c.op = 6 → c.ready = true →
    ∃ t, exec .purgeDone s = .next t ∧ t.ldg.cmds = [] ∧ t.get LDG_CMD_STATUS_RESULT = lrOK ∧
      (∀ g n, g < 512 → n < 32768 → t.noz g n = if bit c.arg (g / 64) = true ∧ s.noz g n = nzSUSPECT then nzOK else s.noz g n)) ∧
  (∀ (s : State) (c : LdgCmd), s.ldg.cmds = [c] → c.op = 7 → c.ready = true → s.sweepOk (c.arg % 256) = true →
    ∃ t, exec .sweep s = .next t ∧ t.ldg.cmds = [] ∧ t.get LDG_CMD_STATUS_RESULT = lrOK ∧ t.on LDG_STATUS_SWEEP_BUSY = true ∧
      t.on LDG_SWEEP_STATUS_RUNNING = true ∧ t.get LDG_SWEEP_STATUS_PLANES = c.arg % 256 ∧
      t.ldg.sweep.map (·.start) = some s.time.cyc ∧
      Alters s t { s with ldg := t.ldg, heads := t.heads } [LDG_STATUS, LDG_SWEEP_STATUS, LDG_CMD_STATUS]) ∧
  (∀ (s : State) (c : LdgCmd) (d : DescBits), s.ldg.cmds = [c] → c.op = 8 → c.ready = true → s.press.job = none → s.declAt c.tile = some d →
    ∃ t, exec .adopt s = .next t ∧ t.ldg.cmds = [] ∧ t.get LDG_CMD_STATUS_RESULT = lrOK ∧ (t.trec c.tile).used = true ∧
      (t.trec c.tile).ident = declIdent d ∧ (∀ n, n < 32768 → t.noz c.tile n = nzOK) ∧
      (∀ g n, g ≠ c.tile → n < 32768 → t.noz g n = s.noz g n) ∧ PostsSome s t Ev.TILE_ADOPTED c.tile) ∧
  (∀ (s : State) (c : LdgCmd), s.ldg.cmds = [c] → c.op = 9 → c.ready = true →
    ∃ t, exec .rebase s = .next t ∧ t.ldg.cmds = [] ∧ t.get LDG_CMD_STATUS_RESULT = lrOK ∧ (t.trec c.tile).baseValid = false ∧
      (∀ e ∈ t.ldg.trims, e.1 / 65536 ≠ c.tile))

/-- The course of a sweep, held changes and MRAM. A tile that refused RES_SWEEP up to four times is asked again (R236); an open code from a
tile in the sweep retires its heater (R238, R239); a sweep whose tiles have all delivered or failed ends, and so does one after 50 ms (R236). A
held mask change goes out when there is room (R257). In the write window every changed word that is due goes to MRAM and no other (R269);
outside it the words are held and shown (R270). After a reset the ledger loads once, with the odometer of the greatest agreeing word
(R268, R271). -/
def Obligations.SweepsAndMram : Prop :=
  (∀ (s : State) (p slot : Fin 24) (w : SweepRun) (x : SweepTile), s.ldg.sweep = some w →
    w.tiles.find? (fun t => t.port == p.val && t.slot == slot.val) = some x → x.failed = false → 1 ≤ x.naks → x.naks ≤ 4 →
    s.portUp p = true → s.passive = false → (s.port p).outstanding.length < 1024 → s.heads.ports.length = 24 →
    ∃ t, exec (.sweepRetry p slot) s = .next t ∧
      (t.port p).outstanding = (s.port p).outstanding ++ [{ lsn := (s.port p).lsn, slot := slot, body := .ctl opRES_SWEEP (s.ctl p slot).cseq true 0 (sweepPayload 0 65536) none, sent := 1, lastStatus := 0 }] ∧
      Alters s t { s with heads := t.heads } []) ∧
  (∀ (s : State) (p slot : Fin 24) (h : RepHdr) (w : SweepRun) (x : SweepTile) (c : Nat), s.ldg.sweep = some w →
    w.tiles.find? (fun t => t.port == p.val && t.slot == slot.val) = some x → x.got = [] → 3073 ≤ c → c < 4096 → s.heater x.g 0 = 0 →
    (s.port p).retLsn = none ∨ (s.port p).retLsn = some h.lsn.toNat →
    ∃ t, exec (.resResultReport p slot h 0 [c]) s = .next t ∧ t.heater x.g 0 = 1 ∧ t.ldg.codes.get (heatKey x.g 0) 0 = c ∧
      t.ldg.sweep.map (·.opens) = some (w.opens + 1)) ∧
  (∀ (s : State) (w : SweepRun), s.ldg.sweep = some w → w.complete = true ∨ w.start + sweepLimit ≤ s.time.cyc →
    s.runState chSWEEP ≠ rsRUNNING →
    ∃ t, exec .sweepEnd s = .next t ∧ t.ldg.sweep = none ∧ t.on LDG_STATUS_SWEEP_BUSY = false ∧
      t.on LDG_SWEEP_STATUS_RUNNING = false ∧ PostsSome s t Ev.SWEEP_DONE 0xFFFF) ∧
  (∀ (s : State) (p slot : Fin 24) (g : Nat) (x : MaskChange), s.posOf p slot = some g → s.ldg.changes = [x] → x.g = g → x.sent = false →
    s.clk = clkRunning →
    ∃ t, exec (.heldMaskChangeRelease p slot) s = .next t ∧
      t.ldg = { s.ldg with changes := [{ x with sent := true, lEff := s.effLine, jobLine := s.jobLineAt (g / 64) s.effLine, ret := [] }] } ∧
      (x.ret = [] → (∀ i, i < x.masks.length →
          s.deadMask g (x.masks.getD i 0xFF) = s.deadMask g (s.ldg.masks.get (colKey g (x.first + i)) 0xFF)) →
        Alters s t { s with ldg := t.ldg, heads := t.heads } [])) ∧
  (∀ s : State, s.on LDG_STATUS_IN_WINDOW = true → s.ldg.writeHeld = false → (∀ a ∈ s.ldg.dirty, a % 8 = 0 ∧ wordRank a ≠ 4) →
    ∃ t, exec .mramWriteBatch s = .next t ∧ t.ldg.dirty = [] ∧ (∀ a ∈ s.ldg.dirty, Mem.reads t.mram a 8 = s.wordImage a) ∧
      (∀ a, a / 8 * 8 ∉ s.ldg.dirty → Mem.read t.mram a = Mem.read s.mram a) ∧
      Alters s t { s with ldg := t.ldg, mram := t.mram } []) ∧
  (∀ s : State, s.on LDG_STATUS_IN_WINDOW = false → s.ldg.dirty ≠ [] → s.ldg.writeHeld = false →
    ∃ t, exec .mramWriteBatch s = .next t ∧ t.on LDG_STATUS_PENDING = true ∧ t.ldg = { s.ldg with writeHeld := true } ∧ t.mram = s.mram ∧
      Posts s t Ev.WRITE_HELD 0xFFFF [s.get THM_STATUS_T_DIE] ∧
      AltersPosting s t { s with ldg := t.ldg } [LDG_STATUS, LDG_PENDING_COUNT, LDG_IRQ_CAUSE]) ∧
  (∀ s : State, s.on LDG_STATUS_READY = false →
    ∃ t, exec (.ledgerLoadComplete []) s = .next t ∧ t.on LDG_STATUS_READY = true ∧ t.ldg.metres = loadOdometer s.mram ∧ t.mram = s.mram) ∧
  (∀ (s : State) (errs : List (Nat × Bool)), s.on LDG_STATUS_READY = true →
    ∃ t, exec (.ledgerLoadComplete errs) s = .next t ∧ Silent s t [])

/-- The calibration framework. A request makes an idle channel DUE and STALE with CAL_DUE, and marks a running one AGAIN (R300, R303, R308); so do the
schedule and a temperature that has moved (R301, R302). START and the automatic start let a DUE channel run (R300, R304). A run ends by
COMPLETE, the timeout or ABANDON, here without AGAIN and CONT, with its outcome shown and reported, and the channel is idle (R300, R304, R305,
R307). A START that cannot be obeyed sets CMD_ERR (R304). -/
def Obligations.CalibrationRuns : Prop :=
  (∀ (s : State) (req : Fin 6) (c : Fin 7), req ≠ 5 → s.islandRuns 2 = true → s.runState c = rsIDLE →
    ∃ t, exec (.calReq req c) s = .next t ∧ t.runState c = rsDUE ∧ t.on (CAL_CH_STATUS_STALE c) = true ∧ Posts s t Ev.CAL_DUE c [3, 0] ∧
      Touches s t [CAL_CH_STATUS c, CAL_IRQ_CAUSE]) ∧
  (∀ (s : State) (req : Fin 6) (c : Fin 7), req ≠ 5 → s.islandRuns 2 = true → s.runState c = rsRUNNING →
    ∃ t, exec (.calReq req c) s = .next t ∧ t.runState c = rsRUNNING ∧ t.on (CAL_CH_STATUS_AGAIN c) = true ∧
      t.on (CAL_CH_STATUS_STALE c) = true ∧ Silent s t [CAL_CH_STATUS c]) ∧
  (∀ (s : State) (c : Fin 7), s.runState c = rsIDLE → s.on (CAL_CH_CFG_SCHED_EN c) = true → (s.chan c).lastEnd ≠ none →
    ∃ t, exec (.calScheduleExpired c) s = .next t ∧ t.runState c = rsDUE ∧ Posts s t Ev.CAL_DUE c [2, 0] ∧
      Touches s t [CAL_CH_STATUS c, CAL_IRQ_CAUSE]) ∧
  (∀ s : State, ∃ t, exec .calTempCheck s = .next t ∧
    (∀ c : Fin 7, s.on (CAL_CH_CFG_TEMP_EN c) = true → s.calMoves c ≠ [] → s.runState c = rsIDLE →
      t.runState c = rsDUE ∧ t.on (CAL_CH_STATUS_STALE c) = true) ∧
    (∀ c : Fin 7, s.on (CAL_CH_CFG_TEMP_EN c) = false ∨ s.calMoves c = [] → t.rget (CAL_CH_STATUS c) = s.rget (CAL_CH_STATUS c)) ∧
    Touches s t (CAL_IRQ_CAUSE :: (List.range 7).map CAL_CH_STATUS)) ∧
  (∀ (s : State) (req : Fin 6) (c : Fin 7), req ≠ 5 → s.islandRuns 2 = true → s.runState c = rsDUE → s.calCanStart c false = true →
    s.cal.chans.length = 7 →
    ∃ t, exec (.calStart req c) s = .next t ∧ t.runState c = rsRUNNING ∧ (t.chan c).start = s.time.cyc ∧ Posts s t Ev.CAL_STARTED c [0]) ∧
  (∀ (s : State) (req : Fin 6) (c : Fin 7), req ≠ 5 → s.islandRuns 2 = true → s.runState c ≠ rsDUE →
    ∃ t, exec (.calStart req c) s = .next t ∧ t.on (CAL_CH_STATUS_CMD_ERR c) = true ∧ t.runState c = s.runState c ∧
      Silent s t [CAL_CH_STATUS c]) ∧
  (∀ (s : State) (c : Fin 7), s.runState c = rsDUE → s.on (CAL_CH_CFG_AUTO c) = true → s.calCanStart c true = true →
    s.cal.chans.length = 7 →
    ∃ t, exec (.calAutoStart c) s = .next t ∧ t.runState c = rsRUNNING ∧ (t.chan c).start = s.time.cyc ∧ Posts s t Ev.CAL_STARTED c [1]) ∧
  (∀ (s : State) (req : Fin 6), req ≠ 5 → s.islandRuns 2 = true → s.runState 3 = rsRUNNING → s.on (CAL_CH_STATUS_AGAIN 3) = false →
    s.on (CAL_CH_CFG_CONT 3) = false →
    ∃ t, exec (.calComplete req 3) s = .next t ∧ t.runState 3 = rsIDLE ∧ t.get (CAL_CH_STATUS_LAST 3) = ocOK ∧
      t.get (CAL_CH_Q_Q0 3) = min 65535 (s.get (CAL_CH_FWQ_Q0 3)) ∧ t.get (CAL_CH_Q_Q1 3) = min 65535 (s.get (CAL_CH_FWQ_Q1 3)) ∧
      PostsSome s t Ev.CAL_DONE 3) ∧
  (∀ (s : State) (c : Fin 7), s.runState c = rsRUNNING → c ≠ 0 → s.on (CAL_CH_STATUS_AGAIN c) = false → s.on (CAL_CH_CFG_CONT c) = false →
    ∃ t, exec (.calTimeout c) s = .next t ∧ t.runState c = rsIDLE ∧ t.get (CAL_CH_STATUS_LAST c) = ocTIMEOUT ∧
      PostsSome s t Ev.CAL_FAILED c) ∧
  (∀ (s : State) (req : Fin 6) (c : Fin 7), req ≠ 5 → s.islandRuns 2 = true → s.runState c = rsRUNNING →
    s.on (CAL_CH_STATUS_AGAIN c) = false → s.on (CAL_CH_CFG_CONT c) = false →
    ∃ t, exec (.calAbandon req c) s = .next t ∧ t.runState c = rsIDLE ∧ t.get (CAL_CH_STATUS_LAST c) = ocABANDONED ∧
      (c = 0 → t.ldg.sweep = none) ∧ PostsSome s t Ev.CAL_FAILED c)

/-- Trims, bands and probes of print-through calibration. A write of CAL_TRIM_DATA sets the target of the window's column, and with no job its live
trim too (R313, R314). When the camera has reached the switch line the band of the visit is finalised: its confident columns get pending
targets and its sums are dropped (R321, R322). A probe that has enough is closed (R325, R326). -/
def Obligations.PrintThrough : Prop :=
  (∀ (s : State) (req : Fin 6) (v : Word), req ≠ 5 → s.islandRuns 2 = true → s.get PGP_SCHED_STATUS_JOB_STATE = jsIdle →
    s.on CAL_TRIM_SEL_AUTO_INC = false →
    ∃ t, exec (.calTrimDataWrite req v) s = .next t ∧
      (t.cal.cols.get s.trimKey CalCol.reset).target = sgn 8 v.toNat ∧ (t.cal.cols.get s.trimKey CalCol.reset).live = sgn 8 v.toNat ∧
      (∀ k, k ≠ s.trimKey → t.cal.cols.get k CalCol.reset = s.cal.cols.get k CalCol.reset) ∧
      Alters s t { s with cal := t.cal, par := t.par } []) ∧
  (∀ (s : State) (req : Fin 6) (v : Word), req ≠ 5 → s.islandRuns 2 = true → s.get PGP_SCHED_STATUS_JOB_STATE ≠ jsIdle →
    s.on CAL_TRIM_SEL_AUTO_INC = true →
    ∃ t, exec (.calTrimDataWrite req v) s = .next t ∧
      t.cal.cols.get s.trimKey CalCol.reset = { s.cal.cols.get s.trimKey CalCol.reset with target := sgn 8 v.toNat } ∧
      t.get CAL_TRIM_SEL_COLUMN = (s.get CAL_TRIM_SEL_COLUMN + 1) % (CAL_TRIM_SEL_COLUMN.max + 1) ∧
      Alters s t { s with cal := t.cal, par := t.par } [CAL_TRIM_SEL]) ∧
  (∀ (s : State) (b x n : Nat), s.cal.prev = some (b, x) → s.runState chPRINT = rsRUNNING → s.viewedFrom (b + 1) = some n →
    ∃ t, exec .ptBandFinalise s = .next t ∧ t.cal.prev = none ∧ (∀ e ∈ t.cal.acc, e.1 % 2 ^ 18 / 16384 ≠ b) ∧
      (∀ e ∈ s.cal.acc, e.1 % 2 ^ 18 / 16384 = b → s.confident e.2 = true → s.volOk (e.1 / 2 ^ 18) = true → t.cal.pend.has e.1 = true) ∧
      Alters s t { s with cal := t.cal } [CAL_PT_TRIM_LIMIT]) ∧
  (∀ (s : State) (q : Fin 8) (c : Nat) (p : Probe), s.cal.probes.find? (fun p => p.q == q.val && p.c == c) = some p → s.probeDone p = true →
    ∃ t, exec (.probeClose q c) s = .next t ∧ t.cal.probes = s.cal.probes.filter (fun x => x != p) ∧ t.cal.probeFull = false)

/-- Streams of a camera port that is enabled. A frame start that no context takes is counted and posted once (R332). A frame start of a context that is
ON, here of one with a dedicated pipeline, opens a frame with the next number and the parameters of that moment (R333, R337, R338). A line
start stamps a line (R335); pixels of a packet join it, and a packet with an uncorrectable header is counted and dropped (R328,
R330); a dedicated pipeline whose buffer is full takes what there is room for and the frame is CORRUPT (R337). -/
def Obligations.CameraStreams : Prop :=
  (∀ (s : State) (port : Fin 6) (vc : Fin 16), s.on (CAM_PORT_CFG_EN port) = true → s.ctxOf port vc = none →
    s.cam.unassigned.contains (port.val, vc.val) = false →
    ∃ t, exec (.frameStart port vc) s = .next t ∧
      t.get (CAM_UNASSIGNED_COUNT port) = min (2 ^ 32 - 1) (s.get (CAM_UNASSIGNED_COUNT port) + 1) ∧
      t.cam = { s.cam with traffic := s.cam.traffic.set port (some s.time.cyc), unassigned := s.cam.unassigned ++ [(port.val, vc.val)] } ∧
      Posts s t Ev.STREAM_UNASSIGNED 0xFFFF [port, vc] ∧
      AltersPosting s t { s with cam := t.cam } [CAM_UNASSIGNED port, CAM_IRQ_CAUSE]) ∧
  (∀ (s : State) (port : Fin 6) (vc : Fin 16) (x : Fin 16) (p : Nat), s.on (CAM_PORT_CFG_EN port) = true → s.ctxOf port vc = some x.val →
    s.ust (.ctx x) = .on → s.dedicated x = some p → s.openFrame x = none → s.cam.ctxs.length = 16 →
    ∃ t, exec (.frameStart port vc) s = .next t ∧ t.get (CAM_CTX_STATUS_FRAME_NO x) = ((s.cctx x).no + 1) % 65536 ∧
      (t.openFrame x).map (fun f => (f.no, f.start, f.press)) = some (((s.cctx x).no + 1) % 2 ^ 32, s.now, s.time.line) ∧
      (t.openFrame x).map (fun f => (f.lines.length, f.cur.isSome, f.pipe, f.buf.isSome)) = some (0, false, some p, false) ∧
      (t.openFrame x).map (fun f => (f.p.cfg, f.p.size, f.p.expo)) =
        some (s.rget (CAM_CTX_CFG x), s.rget (CAM_CTX_SIZE x), s.rget (CAM_CTX_EXPO x)) ∧
      t.cam.frames.take s.cam.frames.length = s.cam.frames ∧ t.cam.frames.length = s.cam.frames.length + 1 ∧
      Alters s t { s with cam := t.cam } (CAM_CTX_STATUS x :: CAM_PIPE_STATUS :: (List.range 4).map (CAM_CTX_BLACK x))) ∧
  (∀ (s : State) (port : Fin 6) (vc : Fin 16) (x : Nat) (f : Frame), s.on (CAM_PORT_CFG_EN port) = true → s.ctxOf port vc = some x →
    s.openFrame x = some f → f.cur = none →
    ∃ t, exec (.lineStart port vc) s = .next t ∧
      t.cam.frames = s.cam.frames.map (fun r => if r.ctx = x ∧ r.no = f.no then { r with cur := some { x := s.webXAt ((s.now : Int) - f.p.expo.toInt), nopos := s.press.job.isNone || s.masterFaulted, t := (s.now : Int) - f.p.expo.toInt - f.start, crc := false, clean := true, pixels := [] }, overrun := false } else r) ∧
      Alters s t { s with cam := t.cam } []) ∧
  (∀ (s : State) (port : Fin 4) (vc : Fin 16) (dt : Fin 64) (x : Nat) (f : Frame) (px : List (BitVec 16)) (room : Nat),
    s.on (CAM_PORT_CFG_EN port) = true → s.ctxOf port vc = some x → dt.val = 0x2A + s.get (CAM_CTX_CFG_DT x) → dt.val ≤ 0x2D →
    s.dedicated x = none → s.openFrame x = some f → f.cur ≠ none →
    ∃ t, exec (.csi2LongPacket port vc dt .good true px room) s = .next t ∧
      t.cam.frames = s.cam.frames.map (fun r => if r.ctx = x ∧ r.no = f.no then { r with overrun := false, cur := r.cur.map (fun l => { l with pixels := l.pixels ++ px.map (fun p => p.toNat) }) } else r) ∧
      Alters s t { s with cam := t.cam } []) ∧
  (∀ (s : State) (port : Fin 4) (vc : Fin 16) (dt : Fin 64) (ok : Bool) (px : List (BitVec 16)) (room : Nat),
    s.on (CAM_PORT_CFG_EN port) = true →
    ∃ t, exec (.csi2LongPacket port vc dt .failed ok px room) s = .next t ∧
      t.get (CAM_ECC_ERR_COUNT port) = min (2 ^ 32 - 1) (s.get (CAM_ECC_ERR_COUNT port) + 1) ∧
      Alters s t { s with cam := { s.cam with traffic := s.cam.traffic.set port (some s.time.cyc) } } [CAM_ECC_ERR port]) ∧
  (∀ (s : State) (port : Fin 4) (vc : Fin 16) (dt : Fin 64) (x : Nat) (f : Frame) (px : List (BitVec 16)) (room : Nat),
    s.on (CAM_PORT_CFG_EN port) = true → s.ctxOf port vc = some x → dt.val = 0x2A + s.get (CAM_CTX_CFG_DT x) → dt.val ≤ 0x2D →
    s.dedicated x ≠ none → s.openFrame x = some f → f.cur ≠ none → f.overrun = false → room < px.length →
    ∃ t, exec (.csi2LongPacket port vc dt .good true px room) s = .next t ∧
      t.get (CAM_CTX_CNT_COUNT x 5) = min (2 ^ 32 - 1) (s.get (CAM_CTX_CNT_COUNT x 5) + 1) ∧
      t.cam.frames = s.cam.frames.map (fun r => if r.ctx = x ∧ r.no = f.no then { r with overrun := true, corrupt := true, cur := r.cur.map (fun l => { l with pixels := l.pixels ++ (px.map (fun p => p.toNat)).take room }) } else r) ∧
      t.on CAM_IRQ_CAUSE_OVERRUN = true ∧ t.on CAM_IRQ_CAUSE_CORRUPT = true ∧
      Alters s t { s with cam := t.cam } [CAM_CTX_CNT x 5, CAM_IRQ_CAUSE])

/-- Ends of lines and frames (R334). A line of the full width joins its frame; one that is too short is discarded, counted, and its frame is
CORRUPT. A frame end, and the timeout, close the frame, SHORT when lines are missing; a closed frame with all its lines processed is
delivered and counted (R336). -/
def Obligations.LinesAndFrames : Prop :=
  (∀ (s : State) (port : Fin 6) (vc : Fin 16) (x : Nat) (f : Frame) (l : CamLine) (room : Nat), s.on (CAM_PORT_CFG_EN port) = true →
    s.ctxOf port vc = some x → s.openFrame x = some f → f.cur = some l → l.crc = false → l.pixels.length = f.p.width →
    f.lines.length < f.p.lines → f.buf = none → s.press.job = none →
    ∃ t, exec (.lineEnd port vc [] room) s = .next t ∧
      t.cam.frames = s.cam.frames.map (fun r => if r.ctx = x ∧ r.no = f.no then { r with cur := none, overrun := false, lines := r.lines ++ [{ l with clean := !f.corrupt }] } else r) ∧
      Alters s t { s with cam := t.cam } []) ∧
  (∀ (s : State) (port : Fin 6) (vc : Fin 16) (x : Nat) (f : Frame) (l : CamLine) (room : Nat), s.on (CAM_PORT_CFG_EN port) = true →
    s.ctxOf port vc = some x → s.openFrame x = some f → f.cur = some l → l.pixels.length < f.p.width →
    ∃ t, exec (.lineEnd port vc [] room) s = .next t ∧
      t.cam.frames = s.cam.frames.map (fun r => if r.ctx = x ∧ r.no = f.no then { r with cur := none, overrun := false, corrupt := true } else r) ∧
      t.get (CAM_CTX_CNT_COUNT x 4) = min (2 ^ 32 - 1) (s.get (CAM_CTX_CNT_COUNT x 4) + 1) ∧ t.on CAM_IRQ_CAUSE_CORRUPT = true ∧
      Alters s t { s with cam := t.cam } [CAM_CTX_CNT x 4, CAM_IRQ_CAUSE]) ∧
  (∀ (s : State) (port : Fin 6) (vc : Fin 16) (x : Nat) (f : Frame), s.on (CAM_PORT_CFG_EN port) = true → s.ctxOf port vc = some x →
    s.openFrame x = some f → f.cur = none → f.done ≠ f.lines.length →
    (∀ r ∈ s.cam.frames, r.ctx = x → r.no = f.no → r = f) →
    ∃ t, exec (.frameEnd port vc) s = .next t ∧
      t.cam.frames = s.cam.frames.map (fun r => if r = f then { r with isOpen := false, short := f.short || decide (f.lines.length < f.p.lines) } else r) ∧
      t.get (CAM_CTX_CNT_COUNT x 1) = min (2 ^ 32 - 1) (s.get (CAM_CTX_CNT_COUNT x 1) +
        (if f.short = true ∨ f.lines.length < f.p.lines then 1 else 0)) ∧
      Alters s t { s with cam := t.cam } [CAM_CTX_CNT x 1]) ∧
  (∀ (s : State) (x : Fin 16) (f : Frame), s.openFrame x = some f → f.cur = none → f.done ≠ f.lines.length →
    (∀ r ∈ s.cam.frames, r.ctx = x → r.no = f.no → r = f) →
    ∃ t, exec (.frameTimeout x) s = .next t ∧
      t.cam.frames = s.cam.frames.map (fun r => if r = f then { r with isOpen := false, short := f.short || decide (f.lines.length < f.p.lines) } else r) ∧
      Alters s t { s with cam := t.cam } [CAM_CTX_CNT x 1]) ∧
  (∀ (s : State) (x : Fin 16) (f : Frame), s.cam.frames = [f] → f.ctx = x.val → f.isOpen = true → f.cur = none → f.done = f.lines.length →
    f.buf = none → f.caps = [] → f.inspect = false → f.late = false → s.windowsOf x = [] → s.ust (.ctx x) = .on →
    ∃ t, exec (.frameTimeout x) s = .next t ∧ t.cam.frames = [] ∧
      t.get (CAM_CTX_CNT_COUNT x 0) = min (2 ^ 32 - 1) (s.get (CAM_CTX_CNT_COUNT x 0) + 1) ∧
      Alters s t { s with cam := t.cam } [CAM_CTX_CNT x 0, CAM_CTX_CNT x 1, CAM_PIPE_STATUS])

/-- Pipelines, the CAM ring and the cameras' registers. A free shared pipeline takes the waiting frame that started first (R338); a pipeline
corrects a line by black level, defects and shading (R339 to R342). A registration plane without a measurement for 1 s is lost
(R346). FRAME_BUF and CAPTURE take effect on a context that is ON, and a descriptor that breaks one rule is refused with that detail
(R347, R348). A dedicated pipeline changes only between contexts that are OFF (R337); the table window stores defects and knots, a
knot's value in force only while the context is OFF (R341, R344). -/
def Obligations.PipelinesAndBuffers : Prop :=
  (∀ (s : State) (f : Frame), f ∈ s.cam.frames → f.buf ≠ none → f.pipe = none → f.isOpen = true → (∀ g ∈ s.cam.frames, g.pipe ≠ some 2) →
    (∀ g ∈ s.cam.frames, g.buf ≠ none → g.pipe = none → g ≠ f → f.start < g.start) →
    (∀ r ∈ s.cam.frames, r.ctx = f.ctx → r.no = f.no → r = f) →
    ∃ t, exec (.sharedPipelineTake 0) s = .next t ∧
      t.cam.frames = s.cam.frames.map (fun r => if r = f then { r with pipe := some 2 } else r) ∧
      Alters s t { s with cam := t.cam } [CAM_PIPE_STATUS]) ∧
  (∀ (s : State) (pipe : Fin 4) (f : Frame) (l : CamLine), s.cam.frames = [f] → f.pipe = some pipe.val → f.isOpen = true →
    f.lines[f.done]? = some l → s.windowsOf f.ctx = [] → s.on (CAL_VIEW_CTRL_USE f.ctx) = false → s.runState chBLACK ≠ rsRUNNING →
    s.runState chFLAT ≠ rsRUNNING →
    ∃ t, exec (.pipelineLineDone pipe) s = .next t ∧
      t.cam.frames = [{ f with done := f.done + 1, outs := f.outs ++ [shadeStage f.p f.done (defectStage f.p f.done (blackStage f.p f.done l.pixels)).1], late := f.late || decide (f.start + 1000 * max 1 (bits f.p.time.toNat 15 0) < s.now) }] ∧
      t.get (CAM_CTX_CNT_COUNT f.ctx 8) = min (2 ^ 32 - 1) (s.get (CAM_CTX_CNT_COUNT f.ctx 8) +
        (defectStage f.p f.done (blackStage f.p f.done l.pixels)).2) ∧
      Alters s t { s with cam := t.cam } [CAM_CTX_CNT f.ctx 8]) ∧
  (∀ (s : State) (q : Fin 8) (r : RegLat) (t0 : Int), s.regWindow q = true → s.regValid q = false → s.cam.reg[q.val]? = some r → r.lost = false →
    r.t = some t0 →
    ∃ t, exec (.regLost q) s = .next t ∧ t.cam = { s.cam with reg := s.cam.reg.set q { r with lost := true } } ∧
      Posts s t Ev.REG_LOST q [((s.now : Int) - t0).toNat / 1000000] ∧ t.on CAM_IRQ_CAUSE_REG_LOST = true ∧
      AltersPosting s t { s with cam := t.cam } [CAM_IRQ_CAUSE]) ∧
  (∀ (s : State) (d : OpenDesc), s.isHead 5 d → d.op = 0x10 → s.camDetails d.bits true = [] → s.cam.ctxs.length = 16 →
    ∃ t, exec .frameBuf s = .next t ∧
      t.cctx (dfield d.bits 4 1) = { s.cctx (dfield d.bits 4 1) with noBuf := false, free := (s.cctx (dfield d.bits 4 1)).free ++ (List.range (dfield d.bits 6 2)).map (fun i => (d.seq, dfield d.bits 8 8 + i * dfield d.bits 16 4, dfield d.bits 16 4)), bufs := (s.cctx (dfield d.bits 4 1)).bufs ++ [{ seq := d.seq, count := dfield d.bits 6 2, out := (List.range (dfield d.bits 6 2)).map (fun i => dfield d.bits 8 8 + i * dfield d.bits 16 4), user := dfield d.bits 56 4 }] } ∧
      t.hidden = { s.hidden with cam := t.cam } ∧ Keeps s t []) ∧
  (∀ (s : State) (d : OpenDesc), s.isHead 5 d → d.op = 0x11 → s.camDetails d.bits false = [] → s.cam.ctxs.length = 16 →
    (s.cctx (dfield d.bits 4 1)).caps.length < 4 →
    ∃ t, exec .capture s = .next t ∧
      t.cctx (dfield d.bits 4 1) = { s.cctx (dfield d.bits 4 1) with caps := (s.cctx (dfield d.bits 4 1)).caps ++ [ { seq := d.seq, corrected := bit (dfield d.bits 5 1) 0, inspect := bit (dfield d.bits 5 1) 1, device := bit (dfield d.bits 5 1) 2, count := dfield d.bits 6 2, addr := dfield d.bits 8 8, slot := dfield d.bits 16 4, user := dfield d.bits 56 4, evt := bit (dfield d.bits 1 1) 5, next := 0, written := 0 }] } ∧
      t.hidden = { s.hidden with cam := t.cam } ∧ Keeps s t []) ∧
  (∀ (s : State) (d : OpenDesc) (det : Nat), s.isHead 5 d → d.op = 0x10 → s.camDetails d.bits true = [det] → d.notify = true →
    ∃ t, exec .frameBuf s = .next t ∧ Completes s t 5 d.seq 2 Ev.CAM_REFUSED stREFUSED (dfield d.bits 4 1) [d.op, det] ∧
      t.hidden = s.hidden ∧ Keeps s t (doneRegs 5)) ∧
  (∀ (s : State) (d : OpenDesc) (det : Nat), s.isHead 5 d → d.op = 0x11 → s.camDetails d.bits false = [det] → d.notify = true →
    ∃ t, exec .capture s = .next t ∧ Completes s t 5 d.seq 2 Ev.CAM_REFUSED stREFUSED (dfield d.bits 4 1) [d.op, det] ∧
      t.hidden = s.hidden ∧ Keeps s t (doneRegs 5)) ∧
  (∀ (s : State) (req : Fin 6) (v : Word), req ≠ 5 → s.islandRuns 14 = true → (∀ x : Fin 16, s.ust (.ctx x) = .off) →
    ∃ t, exec (.camPipeSelWrite req v) s = .next t ∧ t.get CAM_PIPE_SEL_CTX0 = bits v.toNat 3 0 ∧ t.on CAM_PIPE_SEL_VALID0 = bit v.toNat 7 ∧
      t.get CAM_PIPE_SEL_CTX1 = bits v.toNat 11 8 ∧ t.on CAM_PIPE_SEL_VALID1 = bit v.toNat 15 ∧
      (bit v.toNat 16 = true → t.on CAM_PIPE_SEL_SEL_ERR = false) ∧ Silent s t [CAM_PIPE_SEL]) ∧
  (∀ (s : State) (req : Fin 6) (v : Word) (x : Fin 16), req ≠ 5 → s.islandRuns 14 = true → bit v.toNat 7 = true → bits v.toNat 3 0 = x.val →
    s.ust (.ctx x) ≠ .off → s.get CAM_PIPE_SEL_CTX0 ≠ x.val →
    ∃ t, exec (.camPipeSelWrite req v) s = .next t ∧ t.on CAM_PIPE_SEL_SEL_ERR = true ∧ t.get CAM_PIPE_SEL_CTX0 = s.get CAM_PIPE_SEL_CTX0 ∧
      Silent s t [CAM_PIPE_SEL]) ∧
  (∀ (s : State) (req : Fin 6) (v : Word), req ≠ 5 → s.islandRuns 14 = true → s.get CAM_TAB_SEL_TABLE = 0 → s.get CAM_TAB_SEL_INDEX < 512 →
    s.on CAM_TAB_SEL_AUTO_INC = false →
    ∃ t, exec (.camTabDataWrite req v) s = .next t ∧
      t.cam.defects.get (512 * s.get CAM_TAB_SEL_CTX + s.get CAM_TAB_SEL_INDEX) 0 = v &&& 0xBFFF3FFF#32 ∧
      (∀ k, k ≠ 512 * s.get CAM_TAB_SEL_CTX + s.get CAM_TAB_SEL_INDEX → t.cam.defects.get k 0 = s.cam.defects.get k 0) ∧
      Alters s t { s with cam := { s.cam with defects := t.cam.defects } } []) ∧
  (∀ (s : State) (req : Fin 6) (v : Word) (x : Fin 16), req ≠ 5 → s.islandRuns 14 = true → s.get CAM_TAB_SEL_TABLE = 1 →
    s.get CAM_TAB_SEL_INDEX < 1156 → s.on CAM_TAB_SEL_AUTO_INC = false → s.get CAM_TAB_SEL_CTX = x.val →
    ∃ t, exec (.camTabDataWrite req v) s = .next t ∧
      t.cam.knotTarget.get (1156 * x.val + s.get CAM_TAB_SEL_INDEX) 0x1000 = bits v.toNat 15 0 ∧
      t.cam.knotLive.get (1156 * x.val + s.get CAM_TAB_SEL_INDEX) 0x1000 = (if s.ust (.ctx x) = .off then bits v.toNat 15 0
        else s.cam.knotLive.get (1156 * x.val + s.get CAM_TAB_SEL_INDEX) 0x1000) ∧
      Alters s t { s with cam := { s.cam with knotTarget := t.cam.knotTarget, knotLive := t.cam.knotLive } } [])

/-- Updates, status and calibration of the light bars. LED_SCAN changes only while every bar is OFF, to values in range, and shows U (R359, R360).
An update of a bar that is ON gives its drivers the greyscales of R365 and R366 and a SYNC; while the web stands they are 0; a block
that could not be confirmed leaves the greyscales in force and posts SYNC_MISSED (R361, R366). A status read shows the OPEN and SHORT
latches of the drivers; a frame that does not return faults the bar (R368, R370). CLEAR clears them (R368). During a LED run SENSE is
read, added up and cleared (R372). -/
def Obligations.LightBars : Prop :=
  (∀ (s : State) (req : Fin 6) (v : Word), req ≠ 5 → s.islandRuns 15 = true → (∀ q : Fin 8, s.ust (.bar q) = .off) →
    2000 ≤ bits v.toNat 15 0 → bits v.toNat 15 0 ≤ 32000 → 50 ≤ bits v.toNat 25 16 → bits v.toNat 25 16 ≤ 800 →
    2 * bits v.toNat 25 16 + 200 ≤ slotTicks (bits v.toNat 15 0) →
    ∃ t, exec (.ledScanWrite req v) s = .next t ∧ t.get LED_SCAN_FREQ = bits v.toNat 15 0 ∧ t.get LED_SCAN_KERF = bits v.toNat 25 16 ∧
      t.get LED_UPDATE_U = max (max 1 (s.get LED_UPDATE_MIN)) (ceilDiv (7572 * bits v.toNat 15 0) 100000000) ∧
      Silent s t [LED_SCAN, LED_UPDATE]) ∧
  (∀ (s : State) (req : Fin 6) (v : Word) (q : Fin 8), req ≠ 5 → s.islandRuns 15 = true → s.ust (.bar q) ≠ .off →
    ∃ t, exec (.ledScanWrite req v) s = .next t ∧ t.on LED_IRQ_CAUSE_SCAN_ERR = true ∧ Silent s t [LED_IRQ_CAUSE]) ∧
  (∀ (s : State) (q : Fin 8) (xa xb : Int), s.ust (.bar q) = .on → s.press.job = none → s.bars.length = 8 →
    ∃ t, exec (.ledUpdate q xa xb (.confirmed 0)) s = .next t ∧
      (t.bar q).gs = ((s.boardTemp q).dcStep q).updateGs q xa xb ∧ (t.bar q).k = (s.bar q).k + 1 ∧ (t.bar q).misses = 0 ∧
      (∀ pos : Fin 4, ((s.bar q).drivers.getD pos Driver.reset).dark = false → pos.val < (s.bar q).drivers.length →
        ((t.bar q).drivers.getD pos Driver.reset).synced = true ∧
        ((t.bar q).drivers.getD pos Driver.reset).pend.gs = (List.range 64).map (fun i => (t.bar q).gs.getD (64 * pos.val + i) 0)) ∧
      AltersPosting s t { s with bars := t.bars } (LED_BOARD_T q :: LED_BAR_STATUS q :: LED_DOSE_MARK q :: LED_IRQ_CAUSE ::
        (List.range 16).map (LED_DC_ACTIVE q))) ∧
  (∀ (s : State) (q : Fin 8) (xa xb : Int), s.ust (.bar q) = .on → s.bars.length = 8 → s.webV.1 ≤ 0 →
    ∃ t, exec (.ledUpdate q xa xb (.confirmed 0)) s = .next t ∧ (t.bar q).gs = List.replicate 256 0 ∧ (t.bar q).mark = (s.bar q).mark ∧
      t.on (LED_BAR_STATUS_EMIT q) = false) ∧
  (∀ (s : State) (q : Fin 8) (xa xb : Int), s.ust (.bar q) = .on → s.press.job = none → s.bars.length = 8 → (s.bar q).misses = 0 →
    ∃ t, exec (.ledUpdate q xa xb (.unconfirmed 0)) s = .next t ∧ (t.bar q).gs = (s.bar q).gs ∧ (t.bar q).misses = 1 ∧
      t.get (LED_SYNC_MISS_COUNT q) = min (2 ^ 32 - 1) (s.get (LED_SYNC_MISS_COUNT q) + 1) ∧ PostsSome s t Ev.SYNC_MISSED q) ∧
  (∀ (s : State) (q : Fin 8), s.ust (.bar q) = .on →
    ∃ t, exec (.ledStatusRead q true) s = .next t ∧
      (∀ (pos r : Fin 4) (ch : Fin 16), bit (((s.bar q).drivers.getD pos Driver.reset).opens.getD r 0) ch = true →
        bit (t.rget (LED_OPEN q (2 * r + (16 * pos + ch) / 32))).toNat ((16 * pos + ch) % 32) = true) ∧
      (∀ (pos r : Fin 4) (ch : Fin 16), bit (((s.bar q).drivers.getD pos Driver.reset).shorts.getD r 0) ch = true →
        bit (t.rget (LED_SHORT q (2 * r + (16 * pos + ch) / 32))).toNat ((16 * pos + ch) % 32) = true) ∧
      AltersPosting s t { s with bars := t.bars } (LED_IRQ_CAUSE :: ((List.range 8).map (LED_OPEN q) ++ (List.range 8).map (LED_SHORT q)))) ∧
  (∀ (s : State) (q : Fin 8), s.ust (.bar q) = .on →
    ∃ t, exec (.ledStatusRead q false) s = .next t ∧ t.ust (.bar q) = .fault ∧ t.get (LED_BAR_STATUS_REASON q) = 2 ∧
      t.on (LED_BAR_STATUS_EMIT q) = false ∧ Posts s t Ev.BAR_FAULT q [2, 0xFF] ∧ Touches s t [LED_BAR_STATUS q, LED_IRQ_CAUSE]) ∧
  (∀ (s : State) (req : Fin 6) (q : Fin 8), req ≠ 5 → s.islandRuns 15 = true → s.bars.length = 8 →
    ∃ t, exec (.ledBarClear req q) s = .next t ∧ (∀ i : Fin 8, t.rget (LED_OPEN q i) = 0 ∧ t.rget (LED_SHORT q i) = 0) ∧
      (t.bar q).otLost = List.replicate 4 false ∧
      (t.bar q).drivers = (s.bar q).drivers.map (fun d => if d.dark = true then d else
        { d with opens := List.replicate 4 0, shorts := List.replicate 4 0, ot := d.hot, crcErr := false }) ∧
      Alters s t { s with bars := t.bars } ((List.range 8).map (LED_OPEN q) ++ (List.range 8).map (LED_SHORT q))) ∧
  (∀ (s : State) (q r : Fin 8), s.runState chLED = rsRUNNING → s.ledCovered q = true → r ≠ q → s.ledCovered r = true →
    s.ledDone r = false → s.bars.length = 8 →
    ∃ t, exec (.ledSenseRead q) s = .next t ∧
      (t.bar q).drivers = (s.bar q).drivers.map (fun d => { d with sense := List.replicate 64 (0, 0) }) ∧
      (∀ (pos : Fin 4) (i : Fin 64) (v n : Nat), (s.bar q).drivers.length = 4 →
        ((s.bar q).drivers.getD pos Driver.reset).sense[i.val]? = some (v, n) → n ≠ 0 →
        (∀ d ∈ (s.bar q).drivers, d.sense.length ≤ 64) →
        (t.bar q).sums.get (64 * pos.val + i.val) (0, 0) =
          (((s.bar q).sums.get (64 * pos.val + i.val) (0, 0)).1 + v, ((s.bar q).sums.get (64 * pos.val + i.val) (0, 0)).2 + n)) ∧
      Alters s t { s with bars := t.bars } [])

/-- The drivers of a chain. A frame that is right changes the pending copy, latches a greyscale block whose CRC is right, comes back with a
register's value, marks a SYNC, or clears what CLEAR names; a frame that is wrong sets CRC_ERR in every driver that has a clock and does nothing
else (R352 to R355). A driver without LCLK is dark (R351). At the frame edge a driver that took a SYNC applies its pending copy, and
lights the row for the on time of R357; with LED_BLANK low it lights nothing (R356, R371). Its own limit turns its sinks off (R355). -/
def Obligations.LightDrivers : Prop :=
  (∀ (s : State) (q : Fin 8) (f : BitVec 64) (pos : Fin 4) (d : Driver), s.bars.length = 8 → (s.bar q).drivers[pos.val]? = some d →
    d.dark = false → frameOk f.toNat = true → bits f.toNat 59 56 = 1 → frameTo f.toNat pos = true →
    ∃ t, exec (.driverWrite q f) s = .next t ∧
      (t.bar q).drivers[pos.val]? = some (d.write (bits f.toNat 47 40) (bits f.toNat 39 8)) ∧ Alters s t { s with bars := t.bars } []) ∧
  (∀ (s : State) (q : Fin 8) (f : BitVec 64), s.bars.length = 8 → frameOk f.toNat = false →
    ∃ t, exec (.driverWrite q f) s = .next t ∧
      (t.bar q).drivers = (s.bar q).drivers.map (fun d => if d.dark = true then d else { d with crcErr := true }) ∧
      Alters s t { s with bars := t.bars } []) ∧
  (∀ (s : State) (q : Fin 8) (f : BitVec 64) (p : BitVec 768) (c : BitVec 16) (pos : Fin 4) (d : Driver), s.bars.length = 8 →
    (s.bar q).drivers[pos.val]? = some d → d.dark = false → frameOk f.toNat = true → bits f.toNat 59 56 = 2 → frameTo f.toNat pos = true →
    ∃ t, exec (.gsBlock q f p c) s = .next t ∧
      (t.bar q).drivers[pos.val]? = some (if payloadCrc p.toNat = c.toNat then
        { d with pend := { d.pend with gs := (List.range 64).map (fun i => bits p.toNat (12 * i + 11) (12 * i)) } } else d) ∧
      Alters s t { s with bars := t.bars } []) ∧
  (∀ (s : State) (q : Fin 8) (f : BitVec 64) (pos : Fin 4) (d : Driver), s.bars.length = 8 → (s.bar q).drivers[pos.val]? = some d →
    d.dark = false → frameOk f.toNat = true → bits f.toNat 59 56 = 3 → frameTo f.toNat pos = true →
    ∃ t, exec (.driverRead q f) s = .next t ∧
      bits (t.bar q).lrtn.toNat 39 8 = d.reg s.blankHigh (bits f.toNat 47 40) % 2 ^ 32 ∧
      bits (t.bar q).lrtn.toNat 63 40 = bits f.toNat 63 40 ∧ frameCheck8 (t.bar q).lrtn.toNat = bits (t.bar q).lrtn.toNat 7 0 ∧
      (0x40 ≤ bits f.toNat 47 40 → bits f.toNat 47 40 < 0x80 →
        (t.bar q).drivers[pos.val]? = some { d with sense := d.sense.set (bits f.toNat 47 40 - 0x40) (0, 0) }) ∧
      Alters s t { s with bars := t.bars } []) ∧
  (∀ (s : State) (q : Fin 8) (f : BitVec 64), s.bars.length = 8 → frameOk f.toNat = true → bits f.toNat 59 56 = 4 → bit f.toNat 55 = true →
    ∃ t, exec (.driverSync q f) s = .next t ∧
      (t.bar q).drivers = (s.bar q).drivers.map (fun d => if d.dark = true then d else { d with synced := true }) ∧
      Alters s t { s with bars := t.bars } []) ∧
  (∀ (s : State) (q : Fin 8) (f : BitVec 64), s.bars.length = 8 → frameOk f.toNat = true → bits f.toNat 59 56 = 5 → bit f.toNat 55 = true →
    ∃ t, exec (.driverClear q f) s = .next t ∧
      (t.bar q).drivers = (s.bar q).drivers.map (fun d => if d.dark = true then d else { d with opens := if bit f.toNat 8 = true then List.replicate 4 0 else d.opens, shorts := if bit f.toNat 9 = true then List.replicate 4 0 else d.shorts, ot := if bit f.toNat 10 = true then d.hot else d.ot, crcErr := if bit f.toNat 11 = true then false else d.crcErr }) ∧
      Alters s t { s with bars := t.bars } []) ∧
  (∀ (s : State) (q : Fin 8) (pos : Fin 4) (d : Driver), s.bars.length = 8 → (s.bar q).drivers[pos.val]? = some d →
    ∃ t, exec (.lclkLoss q pos) s = .next t ∧
      t.bars = s.bars.set q { s.bar q with drivers := (s.bar q).drivers.set pos { d with dark := true, row := none, on := List.replicate 16 0 } } ∧
      Alters s t { s with bars := t.bars } []) ∧
  (∀ (s : State) (q : Fin 8) (pos : Fin 4) (d : Driver), s.bars.length = 8 → (s.bar q).drivers[pos.val]? = some d → d.dark = false →
    d.synced = true → s.blankHigh = true →
    ∃ t, exec (.rowSlotStart 0 [] [] []) s = .next t ∧
      ((t.bar q).drivers[pos.val]?).map (fun e => (e.act, e.pend, e.synced, e.latchCnt)) =
        some (d.pend, d.pend, false, (d.latchCnt + 1) % 16) ∧
      ((t.bar q).drivers[pos.val]?).map (fun e => e.row) = some (if d.pend.mode % 2 = 1 then some 0 else none) ∧
      ((t.bar q).drivers[pos.val]?).map (fun e => e.on) = some ((List.range 16).map (fun ch =>
        if d.ot = true ∨ bit (d.opens.getD 0 0) ch = true ∨ bit (d.shorts.getD 0 0) ch = true then 0
        else d.pend.gs.getD (4 * ch) 0 * (d.pend.slot - 2 * d.pend.kerf) / 4096)) ∧
      Alters s t { s with bars := t.bars } []) ∧
  (∀ (s : State) (r : Fin 4) (q : Fin 8) (pos : Fin 4), s.bars.length = 8 → pos.val < (s.bar q).drivers.length → s.blankHigh = false →
    ∃ t, exec (.rowSlotStart r [] [] []) s = .next t ∧
      ((t.bar q).drivers[pos.val]?).map (fun e => (e.row, e.on)) = some (none, List.replicate 16 0) ∧
      Alters s t { s with bars := t.bars } []) ∧
  (∀ (s : State) (q : Fin 8) (pos : Fin 4) (d : Driver), s.bars.length = 8 → (s.bar q).drivers[pos.val]? = some d →
    ∃ t, exec (.driverOtChange q pos true) s = .next t ∧
      t.bars = s.bars.set q { s.bar q with drivers := (s.bar q).drivers.set pos { d with hot := true, ot := true, on := List.replicate 16 0 } } ∧
      Alters s t { s with bars := t.bars } []) ∧
  (∀ (s : State) (q : Fin 8) (pos : Fin 4) (d : Driver), s.bars.length = 8 → (s.bar q).drivers[pos.val]? = some d →
    ∃ t, exec (.driverOtChange q pos false) s = .next t ∧
      t.bars = s.bars.set q { s.bar q with drivers := (s.bar q).drivers.set pos { d with hot := false } } ∧
      Alters s t { s with bars := t.bars } [])

/-- Commands of a stepper axis. PUSH appends a move in queue mode, its speed limited to VMAX, and is refused in another mode (R379); STOP ends the plan, clears
the queues and leaves re-plan mode with the position as target (R385); SET_POS references the axis and its encoder at standstill and is refused
while it moves (R385, R391); GEAR_PUSH queues a gear change (R393). A write of TARGET re-plans in re-plan mode (R383), a change of mode follows
R378, and a write of a limit re-plans the motion under way (R384). -/
def Obligations.AxisCommands : Prop :=
  (∀ (s : State) (req : Fin 6) (a : Fin 16), req ≠ 5 → s.islandRuns 15 = true → s.axes.length = 16 → s.axMode a 0 = true →
    (s.axis a).moves.length < 32 → (s.axis a).traj = none →
    s.getS (MOT_AX_Q_TARGET_TARGET a) ≠ ((s.axis a).moves.getLast?.map (fun m => m.1)).getD (s.axis a).pos →
    ∃ t, exec (.push req a) s = .next t ∧
      t.axis a = { s.axis a with moves := (s.axis a).moves ++ [(s.getS (MOT_AX_Q_TARGET_TARGET a), min (s.get (MOT_AX_Q_VEL_VEL a)) (s.get (MOT_AX_VMAX_VMAX a)))] } ∧
      t.get (MOT_AX_STATUS_QDEPTH a) = (s.axis a).moves.length + 1 ∧
      Alters s t { s with axes := s.axes.set a (t.axis a) } [MOT_AX_POS a, MOT_AX_VEL a, MOT_AX_STATUS a, MOT_AX_GEAR_OFS a]) ∧
  (∀ (s : State) (req : Fin 6) (a : Fin 16), req ≠ 5 → s.islandRuns 15 = true → s.axMode a 0 = false →
    ∃ t, exec (.push req a) s = .next t ∧ t.on (MOT_AX_STATUS_CMD_ERR a) = true ∧ Silent s t [MOT_AX_STATUS a]) ∧
  (∀ (s : State) (req : Fin 6) (a : Fin 16), req ≠ 5 → s.islandRuns 15 = true → s.axes.length = 16 → (s.axis a).excess = none →
    ∃ t, exec (.stop req a) s = .next t ∧ (t.axis a).moves = [] ∧ (t.axis a).gears = [] ∧ (t.axis a).mot = (s.axis a).mot ∧
      (t.axis a).traj = (if (s.axis a).mot.v = 0 ∧ (s.axis a).mot.a = 0 then none else
        some (stopTraj { s.axisLim a with dec := max 1 (s.get (MOT_AX_DMAX_A a)) * 2 ^ 32 } (s.axis a).mot)) ∧
      t.get (MOT_AX_CFG_MODE a) = 1 ∧
      ((s.axis a).mot.v = 0 → (s.axis a).mot.a = 0 → t.get (MOT_AX_TARGET_TARGET a) = twos 32 (s.axis a).pos) ∧
      Alters s t { s with axes := s.axes.set a (t.axis a) }
        [MOT_AX_POS a, MOT_AX_VEL a, MOT_AX_STATUS a, MOT_AX_GEAR_OFS a, MOT_AX_CFG a, MOT_AX_TARGET a]) ∧
  (∀ (s : State) (req : Fin 6) (a : Fin 16), req ≠ 5 → s.islandRuns 15 = true → s.axes.length = 16 → (s.axis a).still = true →
    s.get (MOT_AX_CFG_MODE a) ≠ 2 → s.get (MOT_AX_CFG_ENC_SRC a) ≠ 0 →
    ∃ t, exec (.setPos req a) s = .next t ∧ (t.axis a).pos = s.getS (MOT_AX_SETPOS_POS a) ∧ t.axisE a = s.getS (MOT_AX_SETPOS_POS a) ∧
      t.getS (MOT_AX_POS_POS a) = s.getS (MOT_AX_SETPOS_POS a) ∧
      Alters s t { s with axes := s.axes.set a (t.axis a) } [MOT_AX_POS a, MOT_AX_VEL a, MOT_AX_STATUS a, MOT_AX_GEAR_OFS a]) ∧
  (∀ (s : State) (req : Fin 6) (a : Fin 16), req ≠ 5 → s.islandRuns 15 = true → (s.axis a).still = false →
    ∃ t, exec (.setPos req a) s = .next t ∧ t.on (MOT_AX_STATUS_CMD_ERR a) = true ∧ Silent s t [MOT_AX_STATUS a]) ∧
  (∀ (s : State) (req : Fin 6) (a : Fin 16), req ≠ 5 → s.islandRuns 15 = true → s.axes.length = 16 → s.ust (.axis a) = .on →
    (s.axis a).gears.length < 8 →
    ∃ t, exec (.gearPush req a) s = .next t ∧
      t.axis a = { s.axis a with gears := (s.axis a).gears ++ [(s.get (MOT_AX_GEAR_POS_P a), s.getS (MOT_AX_GEAR_RATIO_RATIO a))] } ∧
      t.get (MOT_AX_STATUS_GDEPTH a) = (s.axis a).gears.length + 1 ∧
      Alters s t { s with axes := s.axes.set a (t.axis a) } [MOT_AX_POS a, MOT_AX_VEL a, MOT_AX_STATUS a, MOT_AX_GEAR_OFS a]) ∧
  (∀ (s : State) (req : Fin 6) (a : Fin 16) (v : Word), req ≠ 5 → s.islandRuns 15 = true →
    ∃ t, exec (.motAxTargetWrite req a v) s = .next t ∧ t.rget (MOT_AX_TARGET a) = v ∧
      Alters s t { s with axes := if s.axMode a 1 = true then s.axes.set a { s.axis a with replan := .target } else s.axes } [MOT_AX_TARGET a]) ∧
  (∀ (s : State) (req : Fin 6) (a : Fin 16) (m : Fin 4), req ≠ 5 → s.islandRuns 15 = true → s.ust (.axis a) = .off → m ≠ 3 →
    ∃ t, exec (.motAxModeWrite req a m) s = .next t ∧ t.get (MOT_AX_CFG_MODE a) = m ∧ Silent s t [MOT_AX_CFG a]) ∧
  (∀ (s : State) (req : Fin 6) (a : Fin 16), req ≠ 5 → s.islandRuns 15 = true → s.axes.length = 16 → s.axMode a 0 = true →
    ∃ t, exec (.motAxModeWrite req a 1) s = .next t ∧ t.get (MOT_AX_CFG_MODE a) = 1 ∧
      t.axis a = { s.axis a with moves := [], replan := .target } ∧
      Alters s t { s with axes := s.axes.set a (t.axis a) }
        [MOT_AX_CFG a, MOT_AX_POS a, MOT_AX_VEL a, MOT_AX_STATUS a, MOT_AX_GEAR_OFS a]) ∧
  (∀ (s : State) (req : Fin 6) (a : Fin 16) (m : Fin 4), req ≠ 5 → s.islandRuns 15 = true → s.axMode a 0 = true → (s.axis a).still = false →
    m = 2 ∨ m = 3 →
    ∃ t, exec (.motAxModeWrite req a m) s = .next t ∧ t.on (MOT_AX_STATUS_CMD_ERR a) = true ∧ Silent s t [MOT_AX_STATUS a]) ∧
  (∀ (s : State) (req : Fin 6) (a : Fin 16) (w : AxisLimit) (v : Word), req ≠ 5 → s.islandRuns 15 = true →
    ∃ t, exec (.axisLimitWrite req a w v) s = .next t ∧ t.get (limitFld a w) = v.toNat % ((limitFld a w).max + 1) ∧
      Alters s t { s with axes := if s.axMode a 1 = true ∧ (s.axis a).traj.isSome = true ∧ (s.axis a).replan = .no then s.axes.set a { s.axis a with replan := .limit } else s.axes } [(limitFld a w).off])

/-- What a stepper axis does by itself. At a planner tick it moves along its profile (R380, R383), starts the move at the head of its queue with the limits
of that moment (R380, R382), or follows its master by the gear rule (R392), and the new position is shown. The comparator ends an on time after
TBLANK and an off time ends with the next on time (R376, R377). A limit input that becomes active in the direction of motion stops the
axis by its deceleration, or at once, and reports it (R386). -/
def Obligations.AxisMotion : Prop :=
  (∀ (s : State) (a : Fin 16) (tr : Traj), s.axes.length = 16 → (∀ b : Fin 16, b ≠ a → s.driven b = false) → s.axMode a 1 = true →
    s.get (MOT_AX_CFG_ENC_SRC a) = 0 → s.limActive a true = false → (s.axis a).replan = .no → (s.axis a).traj = some tr →
    (s.axis a).phA.longs < 15 → (s.axis a).phB.longs < 15 → s.ust .web = .off →
    ∃ t, exec .plannerTick s = .next t ∧ (t.axis a).mot = (tr.tick (s.axis a).mot).2 ∧ (t.axis a).traj = (tr.tick (s.axis a).mot).1 ∧
      t.get (MOT_AX_POS_POS a) = twos 32 ((tr.tick (s.axis a).mot).2.p / 4294967296) ∧
      Alters s t { s with axes := s.axes.set a (t.axis a) } [MOT_AX_POS a, MOT_AX_VEL a, MOT_AX_STATUS a, MOT_AX_GEAR_OFS a]) ∧
  (∀ (s : State) (a : Fin 16) (m : Int × Nat), s.axes.length = 16 → (∀ b : Fin 16, b ≠ a → s.driven b = false) → s.axMode a 0 = true →
    s.get (MOT_AX_CFG_ENC_SRC a) = 0 → s.limActive a true = false → s.limActive a false = false → (s.axis a).traj = none →
    (s.axis a).moves = [m] → (s.axis a).phA.longs < 15 → (s.axis a).phB.longs < 15 → s.ust .web = .off →
    ∃ t, exec .plannerTick s = .next t ∧
      (t.axis a).lim = (s.get (MOT_AX_AMAX_A a), s.get (MOT_AX_DMAX_A a), s.get (MOT_AX_JMAX_J a) * 256) ∧
      (t.axis a).mot = ((planTo { v := m.2 * 2 ^ 32, acc := max 1 (s.get (MOT_AX_AMAX_A a)) * 2 ^ 32, dec := max 1 (s.get (MOT_AX_DMAX_A a)) * 2 ^ 32, j := max 1 (s.get (MOT_AX_JMAX_J a) * 256) * 2 ^ 32 }
        (s.axis a).mot (fx m.1) 0).tick (s.axis a).mot).2 ∧
      Alters s t { s with axes := s.axes.set a (t.axis a) } [MOT_AX_POS a, MOT_AX_VEL a, MOT_AX_STATUS a, MOT_AX_GEAR_OFS a]) ∧
  (∀ (s : State) (a : Fin 16), s.axes.length = 16 → (∀ b : Fin 16, b ≠ a → s.driven b = false) → s.axMode a 2 = true →
    s.get (MOT_AX_CFG_ENC_SRC a) = 0 → s.limActive a true = false → s.limActive a false = false → (s.axis a).traj = none →
    (s.axis a).gears = [] → (s.axis a).excess = none →
    (s.getS (MOT_AX_GEAR_NOW_RATIO a) * (s.masterPos a - (s.axis a).mLast) * 500000).natAbs ≤ s.get (MOT_AX_VMAX_VMAX a) * 2 ^ 32 →
    (s.axis a).phA.longs < 15 → (s.axis a).phB.longs < 15 → s.ust .web = .off →
    ∃ t, exec .plannerTick s = .next t ∧
      (t.axis a).mot = { p := fx ((s.axis a).ofs + roundAway (s.getS (MOT_AX_GEAR_NOW_RATIO a) * (s.masterPos a - (s.axis a).mRef)) 4294967296), v := s.getS (MOT_AX_GEAR_NOW_RATIO a) * (s.masterPos a - (s.axis a).mLast) * 500000, a := 0 } ∧
      (t.axis a).mLast = s.masterPos a ∧
      Alters s t { s with axes := s.axes.set a (t.axis a) } [MOT_AX_POS a, MOT_AX_VEL a, MOT_AX_STATUS a, MOT_AX_GEAR_OFS a]) ∧
  (∀ (s : State) (a : Fin 16) (t0 : Nat), s.axes.length = 16 → s.driven a = true → (s.axis a).phA.chop = .onTime t0 →
    t0 + s.get (MOT_AX_CHOP_TBLANK a) * 250 ≤ s.now → (s.axis a).phA.longs < 15 → (s.axis a).phB.longs < 16 →
    ∃ t, exec (.comparatorTrip a false) s = .next t ∧
      t.axis a = { s.axis a with phA := { (s.axis a).phA with chop := .offTime s.now, longs := if 100000 < s.now - t0 then (s.axis a).phA.longs + 1 else 0 } } ∧
      Alters s t { s with axes := s.axes.set a (t.axis a) } []) ∧
  (∀ (s : State) (a : Fin 16) (t0 : Nat), s.axes.length = 16 → s.driven a = true → (s.axis a).phB.chop = .onTime t0 →
    s.now < t0 + s.get (MOT_AX_CHOP_TBLANK a) * 250 → (s.axis a).phA.longs < 16 → (s.axis a).phB.longs < 16 →
    ∃ t, exec (.comparatorTrip a true) s = .next t ∧ Silent s t []) ∧
  (∀ (s : State) (a : Fin 16) (t0 : Nat), s.axes.length = 16 → s.driven a = true → (s.axis a).phB.chop = .offTime t0 →
    ∃ t, exec (.chopperOffTimeEnd a true) s = .next t ∧
      t.axis a = { s.axis a with phB := { (s.axis a).phB with chop := .onTime s.now } } ∧
      Alters s t { s with axes := s.axes.set a (t.axis a) } []) ∧
  (∀ (s : State) (a : Fin 16) (level : Bool), s.axes.length = 16 → s.on (MOT_AX_LIM_POS_EN a) = true → level = s.on (MOT_AX_LIM_POS_POL a) →
    s.limActive a true = false → s.limActive a false = false → 0 < (s.axis a).mot.v → (s.axis a).excess = none →
    s.on (MOT_AX_LIM_POS_HARD a) = false →
    ∃ t, exec (.limitInputChange a true level) s = .next t ∧ t.on (MOT_AX_STATUS_LIM_POS a) = level ∧ t.on (MOT_AX_STATUS_LIM_HIT a) = true ∧
      (t.axis a).traj = some (stopTraj { s.axisLim a with dec := max 1 (s.get (MOT_AX_LIM_DMAX_A a)) * 2 ^ 32 } (s.axis a).mot) ∧
      (t.axis a).moves = [] ∧ t.get (MOT_AX_CFG_MODE a) = 1 ∧ t.on MOT_IRQ_CAUSE_LIMIT_STOP = true ∧
      t.get (MOT_AX_LIMIT_COUNT_COUNT a) = min (2 ^ 32 - 1) (s.get (MOT_AX_LIMIT_COUNT_COUNT a) + 1) ∧
      Posts s t Ev.LIMIT_STOP a [1, 0, t.get (MOT_AX_TARGET_TARGET a)] ∧
      AltersPosting s t { s with axes := s.axes.set a (t.axis a) }
        [MOT_AX_POS a, MOT_AX_VEL a, MOT_AX_STATUS a, MOT_AX_GEAR_OFS a, MOT_AX_CFG a, MOT_AX_TARGET a, MOT_AX_LIMIT_COUNT a, MOT_IRQ_CAUSE]) ∧
  (∀ (s : State) (a : Fin 16) (level : Bool), s.axes.length = 16 → s.on (MOT_AX_LIM_NEG_EN a) = true → level = s.on (MOT_AX_LIM_NEG_POL a) →
    s.limActive a true = false → s.limActive a false = false → (s.axis a).mot.v < 0 → (s.axis a).excess = none →
    s.on (MOT_AX_LIM_NEG_HARD a) = true →
    ∃ t, exec (.limitInputChange a false level) s = .next t ∧ (t.axis a).mot = { p := (s.axis a).mot.p, v := 0, a := 0 } ∧
      (t.axis a).traj = none ∧ t.get (MOT_AX_TARGET_TARGET a) = twos 32 (s.axis a).pos ∧
      Posts s t Ev.LIMIT_STOP a [0, 1, twos 32 (s.axis a).pos])

/-- The web axis. MOT_WEB_TARGET starts a firmware move by a distance while no job is active and the axis is ON, else CMD_ERR is set; JOG_STOP ends it
by the ramp (R398). FORCE_STOP asserts WEB_STOP and holds the web; released, WEB_STOP falls (R399). SCALE and the ramp registers
are stored; 0 is refused while the axis is not OFF (R384, R400). A park move that ends within the margin is done, one outside it is corrected up to four times
and then fails (R397). DRIVE_READY is shown, and its loss while ON is a fault (R401). -/
def Obligations.WebAxis : Prop :=
  (∀ (s : State) (req : Fin 6) (v : Word), req ≠ 5 → s.islandRuns 15 = true → s.get PGP_SCHED_STATUS_JOB_STATE = jsIdle → s.ust .web = .on →
    ∃ t, exec (.motWebTargetWrite req v) s = .next t ∧
      t.web = { s.web with limitPosted := false, plan := .firmware (s.web.mot.p + v.toInt * (s.get MOT_WEB_SCALE_SCALE : Int) * 256), fresh := true, traj := none } ∧
      t.get MOT_WEB_STATUS_WMODE = 4 ∧ Alters s t { s with web := t.web } [MOT_WEB_STATUS]) ∧
  (∀ (s : State) (req : Fin 6) (v : Word), req ≠ 5 → s.islandRuns 15 = true → s.get PGP_SCHED_STATUS_JOB_STATE ≠ jsIdle →
    ∃ t, exec (.motWebTargetWrite req v) s = .next t ∧ t.on MOT_WEB_STATUS_CMD_ERR = true ∧ Silent s t [MOT_WEB_STATUS]) ∧
  (∀ (s : State) (req : Fin 6) (g : Int), req ≠ 5 → s.islandRuns 15 = true → s.web.plan = .firmware g →
    ∃ t, exec (.jogStop req) s = .next t ∧
      t.get MOT_WEB_STATUS_WMODE = 4 ∧ Alters s t { s with web := { s.web with plan := .decel, fresh := true, traj := none } } [MOT_WEB_STATUS]) ∧
  (∀ (s : State) (req : Fin 6), req ≠ 5 → s.islandRuns 15 = true →
    ∃ t, exec (.forceStopWrite req true) s = .next t ∧ t.on MOT_WEB_CTRL_FORCE_STOP = true ∧ t.on MOT_WEB_STATUS_WEB_STOP = true ∧
      t.on MOT_WEB_STATUS_STANDSTILL = true ∧ t.get MOT_WEB_RATE_RATE = 0 ∧ t.web.mot = { p := s.web.mot.p, v := 0, a := 0 } ∧ t.web.traj = none ∧
      Alters s t { s with web := t.web } [MOT_WEB_CTRL, MOT_WEB_STATUS, MOT_WEB_RATE]) ∧
  (∀ (s : State) (req : Fin 6), req ≠ 5 → s.islandRuns 15 = true → s.clk ≠ clkHalted → s.web.resetStop = false → s.web.thermStop = false →
    s.ust .web = .on →
    ∃ t, exec (.forceStopWrite req false) s = .next t ∧ t.on MOT_WEB_CTRL_FORCE_STOP = false ∧ t.on MOT_WEB_STATUS_WEB_STOP = false ∧
      Silent s t [MOT_WEB_CTRL, MOT_WEB_STATUS]) ∧
  (∀ (s : State) (req : Fin 6) (v : Word), req ≠ 5 → s.islandRuns 15 = true → v ≠ 0 →
    ∃ t, exec (.motWebParamWrite req .scale v) s = .next t ∧ t.rget MOT_WEB_SCALE = v ∧
      Alters s t { s with web := { s.web with fresh := s.web.fresh || s.web.traj.isSome } } [MOT_WEB_SCALE]) ∧
  (∀ (s : State) (req : Fin 6) (v : Word), req ≠ 5 → s.islandRuns 15 = true → s.ust .web = .off →
    ∃ t, exec (.motWebParamWrite req .rampA v) s = .next t ∧ t.rget MOT_WEB_RAMP_A = v ∧
      Alters s t { s with web := { s.web with fresh := s.web.fresh || s.web.traj.isSome } } [MOT_WEB_RAMP_A]) ∧
  (∀ (s : State) (req : Fin 6) (v : Word), req ≠ 5 → s.islandRuns 15 = true → s.ust .web = .off →
    ∃ t, exec (.motWebParamWrite req .rampJ v) s = .next t ∧ t.get MOT_WEB_RAMP_J_JERK = v.toNat % 65536 ∧
      Alters s t { s with web := { s.web with fresh := s.web.fresh || s.web.traj.isSome } } [MOT_WEB_RAMP_J]) ∧
  (∀ (s : State) (req : Fin 6) (v : Word), req ≠ 5 → s.islandRuns 15 = true → s.ust .web = .off →
    ∃ t, exec (.motWebParamWrite req .backV v) s = .next t ∧ t.get MOT_WEB_BACK_V_MMPS = v.toNat % 65536 ∧
      Alters s t { s with web := { s.web with fresh := s.web.fresh || s.web.traj.isSome } } [MOT_WEB_BACK_V]) ∧
  (∀ (s : State) (req : Fin 6), req ≠ 5 → s.islandRuns 15 = true → s.ust .web ≠ .off →
    ∃ t, exec (.motWebParamWrite req .scale 0) s = .next t ∧ t.on MOT_WEB_STATUS_CMD_ERR = true ∧ t.rget MOT_WEB_SCALE = s.rget MOT_WEB_SCALE) ∧
  (∀ (s : State) (xb : Int), s.web.plan = .park xb → s.press.job = none → s.journals = false → s.par.handover = false →
    4 * (s.webXAt s.now - xb).natAbs ≤ 65536 * s.get PGP_RECOV_MARGIN_LINES →
    ∃ t, exec .webMoveStandstill s = .next t ∧ t.web.plan = .idle ∧ t.web.traj = none ∧ t.web.mot.v = 0 ∧
      t.get MOT_WEB_PARK_ERR_ERR = twos 32 (roundDiv (s.webXAt s.now - xb) 256) ∧
      Posts s t Ev.WEB_PARKED 0xFFFF [twos 32 (xb / 65536), twos 32 (roundDiv (s.webXAt s.now - xb) 65536)] ∧
      AltersPosting s t { s with web := t.web } [MOT_WEB_RATE, MOT_WEB_STATUS, MOT_WEB_PARK_ERR]) ∧
  (∀ (s : State) (xb : Int), s.web.plan = .park xb → s.press.job = none → s.journals = false → s.par.handover = false →
    65536 * s.get PGP_RECOV_MARGIN_LINES < 4 * (s.webXAt s.now - xb).natAbs → s.get MOT_WEB_STATUS_PARK_TRIES < 4 →
    ∃ t, exec .webMoveStandstill s = .next t ∧ t.web.plan = .park xb ∧ t.web.fresh = true ∧
      t.get MOT_WEB_STATUS_PARK_TRIES = s.get MOT_WEB_STATUS_PARK_TRIES + 1 ∧
      Alters s t { s with web := t.web } [MOT_WEB_RATE, MOT_WEB_STATUS, MOT_WEB_PARK_ERR]) ∧
  (∀ (s : State) (xb : Int), s.web.plan = .park xb → s.press.job = none → s.journals = false → s.par.handover = false →
    65536 * s.get PGP_RECOV_MARGIN_LINES < 4 * (s.webXAt s.now - xb).natAbs → 4 ≤ s.get MOT_WEB_STATUS_PARK_TRIES →
    ∃ t, exec .webMoveStandstill s = .next t ∧ t.web.plan = .idle ∧ t.on MOT_IRQ_CAUSE_WEB_PARK_FAIL = true ∧
      Posts s t Ev.WEB_PARK_FAIL 16 [twos 32 (xb / 65536), twos 32 (roundDiv (s.webXAt s.now - xb) 256)]) ∧
  (∀ (s : State) (level : Bool), level ≠ s.on MOT_WEB_CFG_RDY_POL →
    ∃ t, exec (.driveReadyChange level) s = .next t ∧ t.on MOT_WEB_STATUS_DRIVE_READY = true ∧
      Alters s t { s with web := { s.web with rdy := level } } [MOT_WEB_STATUS]) ∧
  (∀ (s : State) (level : Bool), level = s.on MOT_WEB_CFG_RDY_POL → s.on MOT_WEB_STATUS_DRIVE_READY = true → s.ust .web = .on →
    s.clk ≠ clkRunning → s.clk ≠ clkLocking →
    ∃ t, exec (.driveReadyChange level) s = .next t ∧ t.on MOT_WEB_STATUS_DRIVE_READY = false ∧ t.ust .web = .fault ∧
      t.get MOT_WEB_STATUS_REASON = 3 ∧ t.on MOT_WEB_STATUS_WEB_STOP = true ∧
      Posts s t Ev.AXIS_FAULT 16 [3, twos 32 (s.web.mot.p / 4294967296), twos 32 (s.press.webPos / 1048576)] ∧
      AltersPosting s t { s with web := t.web } [MOT_WEB_STATUS, MOT_WEB_RATE, MOT_IRQ_CAUSE])

/-- Position feedback. The first edge of a master input after standstill, on an input that is ON and not locked, moves its position by one tooth in its
direction and ends standstill (R404 to R412); on the selected master the web position moves with it (R411). An edge too soon after the last one
is counted and ignored (R405). One changed line of a quadrature input counts up or down, a change of both is illegal, counted and
posted once (R416, R417). A serial input takes the stamp of a read, a first valid word as its count, a later one by its difference, and
discards a word that timed out (R418 to R421). An input that has been still reports standstill (R412). -/
def Obligations.PositionFeedback : Prop :=
  (∀ (s : State) (m : Fin 2) (b r : Bool), s.ust (.master m) = .on → r ≠ s.on (ENC_M_CFG_EDGE m) → s.enc.masters.length = 2 →
    (s.minp m).last = none → s.on (ENC_M_STATUS_STANDSTILL m) = true → s.on (ENC_M_STATUS_LOCKED m) = false → m.val ≠ s.masterSel →
    s.on ENC_XCHK_EN = false →
    ∃ t, exec (.masterEdge m b r) s = .next t ∧
      (t.minp m).pos = sgn 48 (twos 48 ((s.minp m).pos + (if s.edgeBack m b = true then -1 else 1))) ∧
      (t.minp m).last = some s.now ∧ (t.minp m).back = s.edgeBack m b ∧ t.on (ENC_M_STATUS_STANDSTILL m) = false ∧
      Alters s t { s with enc := t.enc } [ENC_M_STATUS m]) ∧
  (∀ (s : State) (m : Fin 2) (b r : Bool), s.ust (.master m) = .on → r ≠ s.on (ENC_M_CFG_EDGE m) → s.enc.masters.length = 2 →
    (s.minp m).last = none → s.on (ENC_M_STATUS_STANDSTILL m) = true → s.on (ENC_M_STATUS_LOCKED m) = false → m.val = s.masterSel →
    s.press.job = none →
    ∃ t, exec (.masterEdge m b r) s = .next t ∧
      t.press.webPos = s.press.webPos + (if s.edgeBack m b = true then -1 else 1) * (s.get PGP_WEB_SCALE_SCALE : Int) ∧
      t.press.edges.head? = some (s.now, t.press.webPos) ∧ t.press.edgeSince = true ∧
      Alters s t { s with enc := t.enc, press := t.press } [ENC_M_STATUS m]) ∧
  (∀ (s : State) (m : Fin 2) (b r : Bool) (t0 : Nat), s.ust (.master m) = .on → r ≠ s.on (ENC_M_CFG_EDGE m) → (s.minp m).last = some t0 →
    s.now - t0 < 4 * s.get (ENC_M_TIME_MIN_INT m) → s.get (ENC_M_TALLY_COUNT m) + 1 < s.get (ENC_M_TALLY_CFG_LIMIT m) →
    ∃ t, exec (.masterEdge m b r) s = .next t ∧
      t.get (ENC_M_SHORT_COUNT_COUNT m) = min (2 ^ 32 - 1) (s.get (ENC_M_SHORT_COUNT_COUNT m) + 1) ∧
      t.get (ENC_M_TALLY_COUNT m) = s.get (ENC_M_TALLY_COUNT m) + 1 ∧ Silent s t [ENC_M_SHORT_COUNT m, ENC_M_TALLY m]) ∧
  (∀ (s : State) (m : Fin 2) (b r : Bool), s.ust (.master m) ≠ .on ∨ r = s.on (ENC_M_CFG_EDGE m) →
    ∃ t, exec (.masterEdge m b r) s = .next t ∧ Silent s t []) ∧
  (∀ (s : State) (q : Fin 16) (a b : Bool), s.ust (.quad q) = .on → s.enc.quads.length = 16 → a ≠ (s.qinp q).a → b = (s.qinp q).b →
    ∃ t, exec (.quadratureChange q a b) s = .next t ∧ (t.qinp q).a = a ∧ (t.qinp q).b = b ∧ (t.qinp q).last = some s.now ∧
      t.getS (ENC_Q_COUNT_COUNT q) = sgn 32 (twos 32 (s.getS (ENC_Q_COUNT_COUNT q) +
        (if xor (xor a b) (s.on (ENC_Q_CFG_DIR_INV q)) = true then 1 else -1))) ∧
      t.on (ENC_Q_STATUS_STANDSTILL q) = false ∧ Alters s t { s with enc := t.enc } [ENC_Q_COUNT q, ENC_Q_STATUS q]) ∧
  (∀ (s : State) (q : Fin 16) (a b : Bool), s.ust (.quad q) = .on → s.enc.quads.length = 16 → a ≠ (s.qinp q).a → b ≠ (s.qinp q).b →
    s.on (ENC_Q_STATUS_ILLEGAL q) = false → s.get (ENC_Q_TALLY_COUNT q) + 1 < s.get (ENC_Q_TALLY_CFG_LIMIT q) →
    ∃ t, exec (.quadratureChange q a b) s = .next t ∧ t.on (ENC_Q_STATUS_ILLEGAL q) = true ∧
      t.get (ENC_Q_ILLEGAL_COUNT_COUNT q) = min (2 ^ 32 - 1) (s.get (ENC_Q_ILLEGAL_COUNT_COUNT q) + 1) ∧
      t.get (ENC_Q_TALLY_COUNT q) = s.get (ENC_Q_TALLY_COUNT q) + 1 ∧
      Posts s t Ev.ILLEGAL_TRANSITION (16 + q) [s.get (ENC_Q_COUNT_COUNT q), s.now] ∧
      AltersPosting s t { s with enc := t.enc } [ENC_Q_STATUS q, ENC_Q_ILLEGAL_COUNT q, ENC_Q_TALLY q, ENC_IRQ_CAUSE]) ∧
  (∀ (s : State) (n : Fin 4), s.serialReads n = true → s.enc.serials.length = 4 →
    ∃ t, exec (.serialReadStart n) s = .next t ∧ t.sinp n = { s.sinp n with reading := some s.now } ∧
      Alters s t { s with enc := t.enc } []) ∧
  (∀ (s : State) (n : Fin 4) (w : BitVec 64) (at0 : Nat), s.serialReads n = true → s.enc.serials.length = 4 →
    (s.sinp n).reading = some at0 → s.get (ENC_S_CFG_CRC_LEN n) = 0 → s.on (ENC_S_CFG_ERR_EN n) = false → (s.sinp n).pos = none →
    ∃ t, exec (.serialWordReceived n false w) s = .next t ∧
      (t.sinp n).pos = some (s.serialPos n (w.toNat % 2 ^ s.get (ENC_S_CFG_LEN n))) ∧ (t.sinp n).reading = none ∧
      (t.sinp n).lastWord = some at0 ∧
      t.get (ENC_S_COUNT_COUNT n) = s.serialPos n (w.toNat % 2 ^ s.get (ENC_S_CFG_LEN n)) % 2 ^ 32 ∧
      Alters s t { s with enc := t.enc } [ENC_S_COUNT n]) ∧
  (∀ (s : State) (n : Fin 4) (w : BitVec 64) (at0 p0 : Nat), s.serialReads n = true → s.enc.serials.length = 4 →
    (s.sinp n).reading = some at0 → s.get (ENC_S_CFG_CRC_LEN n) = 0 → s.on (ENC_S_CFG_ERR_EN n) = false → (s.sinp n).pos = some p0 →
    ∃ t, exec (.serialWordReceived n false w) s = .next t ∧
      (t.sinp n).pos = some (s.serialPos n (w.toNat % 2 ^ s.get (ENC_S_CFG_LEN n))) ∧
      t.getS (ENC_S_COUNT_COUNT n) = sgn 32 (twos 32 (s.getS (ENC_S_COUNT_COUNT n) + sgn (s.get (ENC_S_FIELD_POS_LEN n))
        (twos (s.get (ENC_S_FIELD_POS_LEN n)) ((s.serialPos n (w.toNat % 2 ^ s.get (ENC_S_CFG_LEN n)) : Int) - p0)))) ∧
      Alters s t { s with enc := t.enc } [ENC_S_COUNT n, ENC_S_STATUS n]) ∧
  (∀ (s : State) (n : Fin 4) (w : BitVec 64) (at0 : Nat), s.serialReads n = true → s.enc.serials.length = 4 →
    (s.sinp n).reading = some at0 → s.get (ENC_S_TALLY_COUNT n) + 1 < s.get (ENC_S_TALLY_CFG_LIMIT n) →
    ∃ t, exec (.serialWordReceived n true w) s = .next t ∧ t.sinp n = { s.sinp n with reading := none, good := 0 } ∧
      t.get (ENC_S_TIMEOUT_COUNT_COUNT n) = min (2 ^ 32 - 1) (s.get (ENC_S_TIMEOUT_COUNT_COUNT n) + 1) ∧
      Alters s t { s with enc := t.enc } [ENC_S_TIMEOUT_COUNT n, ENC_S_TALLY n]) ∧
  (∀ (s : State) (q : Fin 16), s.ust (.quad q) = .on → s.enc.quads.length = 16 →
    ∃ t, exec (.standstillTimeout (.quad q)) s = .next t ∧ t.on (ENC_Q_STATUS_STANDSTILL q) = true ∧ t.quadV q = (0, 1) ∧
      Alters s t { s with enc := t.enc } [ENC_Q_STATUS q]) ∧
  (∀ (s : State) (m : Fin 2), s.ust (.master m) = .on → s.enc.masters.length = 2 →
    ∃ t, exec (.standstillTimeout (.master m)) s = .next t ∧ t.on (ENC_M_STATUS_STANDSTILL m) = true ∧ t.masterV m = (0, 1) ∧
      (t.minp m).pos = (s.minp m).pos ∧ (t.minp m).ints = [] ∧ Alters s t { s with enc := t.enc } [ENC_M_STATUS m])

/-- The loop engine and the general pins. At a base tick a slot that is ON and due runs one sample: filter, controller, anti-windup and limits, in binary32
(R423 to R426); while its input is invalid it runs no part of it, and says so once (R428). LPE_INTEG is written only under HOLD (R437), LPE_SP
only while no slot drives it (R431). A PWM duty is firmware's while no slot names the channel, and every channel takes its duty when a
period starts; an enabled change of a pin is latched and posted (R556). -/
def Obligations.LoopsAndPins : Prop :=
  (∀ (s : State) (l : Fin 32) (i : Nat) (raw : F32), (∀ k : Fin 32, k ≠ l → s.ust (.slot k) = .off) → s.ust (.slot l) = .on →
    s.loopDue l s.lpe.tick = true → s.lpe.slots.length = 32 → s.get (LPE_SRC_IN_SRC l) = 8 → s.get (LPE_SRC_IN_IDX l) = i →
    raw = s.f32 (LPE_SW_IN_VALUE i) → (s.loopS l).invalid = false → (s.loopS l).supStart = false → s.on (LPE_CFG_HOLD l) = false →
    s.get (LPE_M_CFG_M_N l) = 0 → s.get (LPE_SRC_OUT_DST l) = 0 → s.loopFinite l raw = true →
    ∃ t, exec .loopBaseTick s = .next t ∧ t.f32 (LPE_Y_VALUE l) = s.loopYf l raw ∧ t.f32 (LPE_ERR_VALUE l) = s.loopE l raw ∧
      t.f32 (LPE_INTEG_I l) = s.loopI l raw ∧ t.f32 (LPE_OUT_VALUE l) = s.loopU l raw ∧ (t.loopS l).z1 = s.loopZ1 l raw ∧
      (t.loopS l).z2 = s.loopZ2 l raw ∧ (t.loopS l).yfPrev = some (s.loopYf l raw) ∧ t.lpe.tick = s.lpe.tick + 1 ∧
      Alters s t { s with lpe := t.lpe } [LPE_STATUS l, LPE_INTEG l, LPE_Y l, LPE_ERR l, LPE_OUT l]) ∧
  (∀ (s : State) (l : Fin 32), (∀ k : Fin 32, k ≠ l → s.ust (.slot k) = .off) → s.ust (.slot l) = .on →
    s.loopDue l s.lpe.tick = true → s.lpe.slots.length = 32 → s.get (LPE_SRC_IN_SRC l) = 5 → s.regValid (s.get (LPE_SRC_IN_IDX l)) = false →
    (s.loopS l).invalid = false →
    ∃ t, exec .loopBaseTick s = .next t ∧ t.on (LPE_STATUS_IN_INVALID l) = true ∧
      t.get (LPE_INVALID_COUNT_COUNT l) = min (2 ^ 32 - 1) (s.get (LPE_INVALID_COUNT_COUNT l) + 1) ∧
      t.loopS l = { s.loopS l with invalid := true } ∧
      Posts s t Ev.LOOP_INPUT_INVALID l [5, s.get (LPE_SRC_IN_IDX l), s.get (LPE_OUT_VALUE l)] ∧
      AltersPosting s t { s with lpe := t.lpe } [LPE_STATUS l, LPE_INVALID_COUNT l, LPE_IRQ_CAUSE]) ∧
  (∀ (s : State) (req : Fin 6) (l : Fin 32) (v : Word), req ≠ 5 → s.islandRuns 15 = true → s.on (LPE_CFG_HOLD l) = true →
    ∃ t, exec (.lpeIntegWrite req l v) s = .next t ∧ t.rget (LPE_INTEG l) = v ∧ Silent s t [LPE_INTEG l]) ∧
  (∀ (s : State) (req : Fin 6) (l : Fin 32) (v : Word), req ≠ 5 → s.islandRuns 15 = true → s.on (LPE_CFG_HOLD l) = false →
    ∃ t, exec (.lpeIntegWrite req l v) s = .next t ∧ t.on (LPE_STATUS_CMD_ERR l) = true ∧ Silent s t [LPE_STATUS l]) ∧
  (∀ (s : State) (req : Fin 6) (l : Fin 32) (v : Word), req ≠ 5 → s.islandRuns 15 = true → s.spDriven l = false →
    ∃ t, exec (.lpeSpWrite req l v) s = .next t ∧ t.rget (LPE_SP l) = v ∧ Silent s t [LPE_SP l]) ∧
  (∀ (s : State) (req : Fin 6) (l : Fin 32) (v : Word), req ≠ 5 → s.islandRuns 15 = true → s.spDriven l = true →
    ∃ t, exec (.lpeSpWrite req l v) s = .next t ∧ t.on (LPE_STATUS_CMD_ERR l) = true ∧ Silent s t [LPE_STATUS l]) ∧
  (∀ (s : State) (req : Fin 6) (c : Fin 16) (v : Word), req ≠ 5 → s.islandRuns 0 = true → s.loopNames 5 c = false →
    ∃ t, exec (.pinPwmDutyWrite req c v) s = .next t ∧ t.get (PIN_PWM_DUTY_DUTY c) = v.toNat % 2 ^ 17 ∧ Silent s t [PIN_PWM_DUTY c]) ∧
  (∀ (s : State) (req : Fin 6) (c : Fin 16) (v : Word), req ≠ 5 → s.islandRuns 0 = true → s.loopNames 5 c = true →
    ∃ t, exec (.pinPwmDutyWrite req c v) s = .next t ∧ Silent s t []) ∧
  (∀ s : State, ∃ t, exec .pwmPeriodStart s = .next t ∧
    Alters s t { s with pwm := { period := max 25 (s.get PIN_PWM_PERIOD_PERIOD), high := (List.range 16).map (fun c => (min 65536 (s.get (PIN_PWM_DUTY_DUTY c)) * max 25 (s.get PIN_PWM_PERIOD_PERIOD) + 32768) / 65536) } } []) ∧
  (∀ (s : State) (v : Word), (v ^^^ s.rget PIN_IN) &&& s.rget PIN_EDGE_EN ≠ 0 →
    ∃ t, exec (.pinEdge v) s = .next t ∧ t.rget PIN_IN = v ∧
      t.rget PIN_EDGE = s.rget PIN_EDGE ||| ((v ^^^ s.rget PIN_IN) &&& s.rget PIN_EDGE_EN) ∧
      Posts s t Ev.PIN_EDGE 0xFFFF [(t.rget PIN_EDGE).toNat, v.toNat] ∧ t.on PIN_IRQ_CAUSE_EDGE = true ∧
      Touches s t [PIN_IN, PIN_EDGE, PIN_IRQ_CAUSE]) ∧
  (∀ (s : State) (v : Word), (v ^^^ s.rget PIN_IN) &&& s.rget PIN_EDGE_EN = 0 →
    ∃ t, exec (.pinEdge v) s = .next t ∧ t.rget PIN_IN = v ∧ Silent s t [PIN_IN])

/-- Accesses of the DRAM. A read that decodes without error shows its bytes to the requester (here BAR4); one that cannot be decoded counts, latches
the error, posts DRAM_UE and is a fault of the requester (here a firmware core) (R449, R452). A write of a whole block stores it and clears
its poison (R451); before READY it reaches nothing (R457). A write-back issues, or is dropped after a newer write (R453); an activate that reaches the
threshold makes the guard act on the neighbours (R455, R456). The patrol scrub reads its next block (R454), and refreshes owed
issue at once unless lanes wait and the postponement allows it (R446). -/
def Obligations.DramAccesses : Prop :=
  (∀ (s : State) (addr n : Nat) (errs : List SymErr) (e : EccRead), s.on DMC_STATUS_READY = true → addr < s.dramSize →
    s.dramHeld addr = false → e = eccDecode (Mem.reads s.dram (addr / 64 * 64) 64) (s.poisoned (addr / 64 * 64)) errs →
    e.poisoned = false → e.devices = [] →
    ∃ t, exec (.dramRead (.bar4 n) addr errs) s = .next t ∧ t.hif.bar4Data = slice e.data (addr % 64) n ∧ t.hif.bar4Poison = false ∧
      t.hidden = { s.hidden with dmc := t.dmc } ∧ Keeps s t [DMC_RH_COUNT]) ∧
  (∀ (s : State) (addr core : Nat) (errs : List SymErr) (e : EccRead), s.on DMC_STATUS_READY = true → addr < s.dramSize →
    s.dramHeld addr = false → e = eccDecode (Mem.reads s.dram (addr / 64 * 64) 64) (s.poisoned (addr / 64 * 64)) errs →
    e.poisoned = true → e.mark = false → s.on DMC_ERR_INFO_VALID = false →
    ∃ t, exec (.dramRead (.firmware core) addr errs) s = .next t ∧
      t.get DMC_UE_COUNT_COUNT = min (2 ^ 32 - 1) (s.get DMC_UE_COUNT_COUNT + 1) ∧ t.get DMC_ERR_ADDR_LO_ADDR = addr / 64 * 64 % 2 ^ 32 ∧
      t.get DMC_ERR_INFO_SRC = 4 ∧ t.on DMC_ERR_INFO_VALID = true ∧ t.dmc.fwFault = some core ∧ t.par = { s.par with dramUe := true } ∧
      Posts s t Ev.DRAM_UE (dramCoord s.dmcCfg (addr / 64 * 64)).subch [addr / 64 * 64, 4, e.cw] ∧
      AltersPosting s t { s with dmc := t.dmc, par := t.par }
        [DMC_RH_COUNT, DMC_UE_COUNT, DMC_ERR_ADDR_LO, DMC_ERR_ADDR_HI, DMC_ERR_INFO, DMC_IRQ_CAUSE]) ∧
  (∀ (s : State) (addr : Nat) (data : List Byte), s.on DMC_STATUS_READY = true → addr % 64 = 0 → data.length = 64 →
    addr + 64 ≤ s.dramSize → s.rangeHeld addr 64 = false →
    ∃ t, exec (.dramWrite addr data []) s = .next t ∧ Mem.reads t.dram addr 64 = data ∧ t.poisoned addr = false ∧
      (∀ a, a < addr ∨ addr + 64 ≤ a → Mem.read t.dram a = Mem.read s.dram a) ∧
      (∀ b, b / 64 ≠ addr / 64 → t.poisoned b = s.poisoned b) ∧
      Alters s t { s with dmc := t.dmc, dram := t.dram, poison := t.poison } [DMC_RH_COUNT]) ∧
  (∀ (s : State) (addr : Nat) (data : List Byte) (errs : List SymErr), s.on DMC_STATUS_READY = false →
    ∃ t, exec (.dramWrite addr data errs) s = .next t ∧ Silent s t []) ∧
  (∀ (s : State) (a : Nat), s.dmc.wb.find? (fun w => w.1 == a) = some (a, true) →
    ∃ t, exec (.eccWriteBack a) s = .next t ∧ t.get DMC_WB_DROP_COUNT_COUNT = min (2 ^ 32 - 1) (s.get DMC_WB_DROP_COUNT_COUNT + 1) ∧
      Alters s t { s with dmc := { s.dmc with wb := s.dmc.wb.filter (fun x => x.1 != a) } } [DMC_WB_DROP_COUNT]) ∧
  (∀ (s : State) (a n : Nat) (c : DramCoord), s.dmc.wb.find? (fun w => w.1 == a) = some (a, false) → c = dramCoord s.dmcCfg a →
    s.dmc.openRows.has c.bank = false → s.dmc.rh.get c.bank [] = [(c.row, n)] → s.on DMC_RH_CFG_EN = true → s.rhThresh ≤ n + 1 →
    ∃ t, exec (.eccWriteBack a) s = .next t ∧ t.get DMC_RH_COUNT_COUNT = min (2 ^ 32 - 1) (s.get DMC_RH_COUNT_COUNT + 1) ∧
      t.dmc.wb = s.dmc.wb.filter (fun x => x.1 != a) ∧
      t.dmc.guard = some (c.bank, guardRows c.row (s.on DMC_RH_CFG_NEIGH2), s.on DMC_RH_CFG_RFM_EN && s.dmc.rfmSupported) ∧
      t.dmc.rh.get c.bank [] = [(c.row, 0)] ∧ Alters s t { s with dmc := t.dmc } [DMC_RH_COUNT]) ∧
  (∀ s : State, ∃ t, exec .rhTableClear s = .next t ∧ Alters s t { s with dmc := { s.dmc with rh := [] } } []) ∧
  (∀ (s : State) (errs : List SymErr) (e : EccRead), s.on DMC_SCRUB_CFG_EN = true → s.on DMC_STATUS_READY = true →
    s.dramHeld (64 * s.dmc.scrub) = false → e = eccDecode (Mem.reads s.dram (64 * s.dmc.scrub) 64) (s.poisoned (64 * s.dmc.scrub)) errs →
    e.poisoned = false → e.devices = [] → s.dmc.scrub + 1 < s.dramSize / 64 →
    ∃ t, exec (.patrolScrubRead errs) s = .next t ∧ t.dmc.scrub = s.dmc.scrub + 1 ∧
      t.get DMC_SCRUB_STATUS_PROGRESS = (s.dmc.scrub + 1) * 65536 / (s.dramSize / 64) ∧
      Alters s t { s with dmc := t.dmc } [DMC_RH_COUNT, DMC_SCRUB_STATUS]) ∧
  (∀ (s : State) (errs : List SymErr) (e : EccRead), s.on DMC_SCRUB_CFG_EN = true → s.on DMC_STATUS_READY = true →
    s.dramHeld (64 * s.dmc.scrub) = false → e = eccDecode (Mem.reads s.dram (64 * s.dmc.scrub) 64) (s.poisoned (64 * s.dmc.scrub)) errs →
    e.poisoned = false → e.devices = [] → s.dramSize / 64 = s.dmc.scrub + 1 →
    ∃ t, exec (.patrolScrubRead errs) s = .next t ∧ t.dmc.scrub = 0 ∧ t.get DMC_SCRUB_STATUS_PROGRESS = 0 ∧
      t.get DMC_SCRUB_STATUS_PASSES = (s.get DMC_SCRUB_STATUS_PASSES + 1) % 65536 ∧
      Alters s t { s with dmc := t.dmc } [DMC_RH_COUNT, DMC_SCRUB_STATUS]) ∧
  (∀ (s : State) (rank : Fin 2), s.on DMC_STATUS_INIT_DONE = true → rank.val = 0 ∨ cfgRanks2 s.dmcCfg = true →
    ∃ t, exec (.refreshDue rank false) s = .next t ∧
      Alters s t { s with dmc := { s.dmc with owed := s.dmc.owed.set rank 0, refs := s.dmc.refs.set rank (s.dmc.refs.getD rank 0 + (s.dmc.owed.getD rank 0 + 1)), openRows := s.dmc.openRows.filter (fun e => e.1 / 128 != rank.val) } } []) ∧
  (∀ (s : State) (rank : Fin 2), s.on DMC_STATUS_INIT_DONE = true → rank.val = 0 ∨ cfgRanks2 s.dmcCfg = true →
    s.dmc.owed.getD rank 0 + 1 ≤ s.get DMC_REF_CFG_POSTPONE → s.dmc.refs.length = 2 →
    ∃ t, exec (.refreshDue rank true) s = .next t ∧
      Alters s t { s with dmc := { s.dmc with owed := s.dmc.owed.set rank (s.dmc.owed.getD rank 0 + 1) } } [])

/-- Bring-up, training helpers and the slow work of the controller. INIT samples the configuration and starts (R457); it ends with INIT_DONE and its
event, or with the error (R457). OPEN makes the DRAM ready at once, or after the zero fill (R457). MR4 shows and reports a hot rank (R439).
GO and ABORT of a sweep, its end with the errors and eye of each lane (R458, R459); a delay's target, and its live value only under HOLD (R459);
the live values step to their targets while an outcome is adopted (R461), and the oscillator's move from its base becomes the
drift (R462). -/
def Obligations.DramBringUp : Prop :=
  (∀ (s : State) (req : Fin 6), req ≠ 5 → s.islandRuns 12 = true → s.dmc.initBusy = false → s.on DMC_STATUS_INIT_DONE = false →
    ∃ t, exec (.dmcInit req) s = .next t ∧ t.get DMC_STATUS_INIT_ERR = 0 ∧
      Alters s t { s with dmc := { s.dmc with cfg := some (s.rget DMC_CFG), initBusy := true } } [DMC_STATUS]) ∧
  (∀ (s : State) (sup rq : Bool) (dev : Nat), s.dmc.initBusy = true → cfgValid s.dmcCfg = true →
    ∃ t, exec (.dramInitDone 0 sup rq dev) s = .next t ∧ t.on DMC_STATUS_INIT_DONE = true ∧ t.on DMC_STATUS_RFM_REQ = rq ∧
      Posts s t Ev.DRAM_INIT_DONE 0xFFFF [b2n rq, dev] ∧
      AltersPosting s t { s with dmc := { s.dmc with initBusy := false, rfmSupported := sup } } [DMC_STATUS, DMC_IRQ_CAUSE]) ∧
  (∀ (s : State) (fail : Fin 4) (sup rq : Bool) (dev : Nat), s.dmc.initBusy = true → cfgValid s.dmcCfg = true → fail = 2 ∨ fail = 3 →
    ∃ t, exec (.dramInitDone fail sup rq dev) s = .next t ∧ t.get DMC_STATUS_INIT_ERR = fail ∧
      t.on DMC_STATUS_INIT_DONE = s.on DMC_STATUS_INIT_DONE ∧ Posts s t Ev.INIT_FAIL 0xFFFF [fail] ∧
      AltersPosting s t { s with dmc := { s.dmc with initBusy := false, rfmSupported := sup } } [DMC_STATUS, DMC_IRQ_CAUSE]) ∧
  (∀ (s : State) (req : Fin 6), req ≠ 5 → s.islandRuns 12 = true → s.on DMC_STATUS_INIT_DONE = true → s.on DMC_STATUS_READY = false →
    s.on DMC_STATUS_FILLING = false → s.on DMC_CTRL_ZERO_FILL = false →
    ∃ t, exec (.dmcOpen req) s = .next t ∧ t.on DMC_STATUS_READY = true ∧ t.get DMC_STATUS_SIZE = cfgGiB s.dmcCfg ∧
      Posts s t Ev.DRAM_READY 0xFFFF [cfgGiB s.dmcCfg, 0] ∧ Touches s t [DMC_STATUS, DMC_IRQ_CAUSE]) ∧
  (∀ (s : State) (req : Fin 6), req ≠ 5 → s.islandRuns 12 = true → s.on DMC_STATUS_INIT_DONE = true → s.on DMC_STATUS_READY = false →
    s.on DMC_STATUS_FILLING = false → s.on DMC_CTRL_ZERO_FILL = true →
    ∃ t, exec (.dmcOpen req) s = .next t ∧ t.on DMC_STATUS_FILLING = true ∧ t.on DMC_STATUS_READY = false ∧ Silent s t [DMC_STATUS]) ∧
  (∀ (s : State) (ms : Nat), s.on DMC_STATUS_FILLING = true →
    ∃ t, exec (.dramReady ms) s = .next t ∧ t.on DMC_STATUS_READY = true ∧ t.on DMC_STATUS_FILLING = false ∧
      t.get DMC_STATUS_SIZE = cfgGiB s.dmcCfg ∧ Posts s t Ev.DRAM_READY 0xFFFF [cfgGiB s.dmcCfg, ms] ∧
      AltersPosting s t { s with dram := [], poison := [] } [DMC_STATUS, DMC_IRQ_CAUSE]) ∧
  (∀ (s : State) (c : Nat), s.on DMC_STATUS_INIT_DONE = true → s.dmc.hot.getD 0 false = false →
    ∃ t, exec (.mr4Poll [(c, true)]) s = .next t ∧ t.on DMC_STATUS_HOT = true ∧ Posts s t Ev.DRAM_HOT 0xFFFF [0, c] ∧
      AltersPosting s t { s with dmc := { s.dmc with hot := [true, false] } } [DMC_STATUS, DMC_IRQ_CAUSE]) ∧
  (∀ (s : State) (req : Fin 6), req ≠ 5 → s.islandRuns 12 = true → bit (s.get DMC_TRAIN_CTRL_HOLD) (s.get DMC_SWEEP_CFG_SUBCH) = true →
    s.on DMC_SWEEP_STATUS_BUSY = false →
    ∃ t, exec (.dmcSweepGo req) s = .next t ∧ t.on DMC_SWEEP_STATUS_BUSY = true ∧
      t.get DMC_SWEEP_STATUS_POINT = s.get DMC_SWEEP_RANGE_START ∧
      Alters s t { s with dmc := { s.dmc with sweepAbort := false } } [DMC_SWEEP_STATUS]) ∧
  (∀ (s : State) (req : Fin 6), req ≠ 5 → s.islandRuns 12 = true → bit (s.get DMC_TRAIN_CTRL_HOLD) (s.get DMC_SWEEP_CFG_SUBCH) = false →
    ∃ t, exec (.dmcSweepGo req) s = .next t ∧ Silent s t []) ∧
  (∀ (s : State) (req : Fin 6), req ≠ 5 → s.islandRuns 12 = true → s.on DMC_SWEEP_STATUS_BUSY = true →
    ∃ t, exec (.dmcSweepAbort req) s = .next t ∧ Alters s t { s with dmc := { s.dmc with sweepAbort := true } } []) ∧
  (∀ (s : State) (p : SweepPoint), s.on DMC_SWEEP_STATUS_BUSY = true → s.get DMC_SWEEP_RANGE_START = s.get DMC_SWEEP_RANGE_STOP →
    ∃ t, exec (.dmcSweepDone [p]) s = .next t ∧ t.on DMC_SWEEP_STATUS_BUSY = false ∧ t.on DMC_SWEEP_STATUS_DONE = true ∧
      t.get DMC_SWEEP_STATUS_POINT = s.get DMC_SWEEP_RANGE_START ∧ t.on DMC_IRQ_CAUSE_SWEEP = true ∧
      (∀ l : Fin 40, s.sweepLane (s.get DMC_SWEEP_CFG_KIND) l = true →
        t.get (DMC_LANE_ERR_ERR l) = (s.pointErrs p).getD l 0 ∧ t.on (DMC_EYE_VALID l) = ((s.pointErrs p).getD l 0 == 0) ∧
        ((s.pointErrs p).getD l 0 = 0 → t.get (DMC_EYE_FIRST l) = s.get DMC_SWEEP_RANGE_START ∧
          t.get (DMC_EYE_LAST l) = s.get DMC_SWEEP_RANGE_START)) ∧
      (∀ l : Fin 40, s.sweepLane (s.get DMC_SWEEP_CFG_KIND) l = false →
        t.rget (DMC_LANE_ERR l) = s.rget (DMC_LANE_ERR l) ∧ t.rget (DMC_EYE l) = s.rget (DMC_EYE l))) ∧
  (∀ (s : State) (req : Fin 6) (v : Word) (key : Nat), req ≠ 5 → s.islandRuns 12 = true → s.dlySel = some key →
    s.on DMC_DLY_SEL_AUTO_INC = false →
    ∃ t, exec (.dmcDlyDataWrite req v) s = .next t ∧
      t.dlyGet key = { target := bits v.toNat 8 0, live := if bit (s.get DMC_TRAIN_CTRL_HOLD) (s.get DMC_DLY_SEL_SUBCH) = true then bits v.toNat 24 16 else (s.dlyGet key).live } ∧
      (∀ k, k ≠ key → t.dlyGet k = s.dlyGet k) ∧ Alters s t { s with dmc := { s.dmc with dly := t.dmc.dly } } []) ∧
  (∀ s : State, s.dmc.adopting = true → s.dmc.drift = [none, none] →
    ∃ t, exec .dmcLiveStep s = .next t ∧
      t.dmc.dly = s.dmc.dly.map (fun e => (e.1, { e.2 with live := (stepTowards e.2.live e.2.target).toNat })) ∧
      t.dmc.adopting = t.dmc.dly.any (fun e => e.2.live != e.2.target) ∧
      Alters s t { s with dmc := { s.dmc with dly := t.dmc.dly, adopting := t.dmc.adopting } } []) ∧
  (∀ (s : State) (c : Nat), s.on DMC_CTRL_DRIFT_EN = true → s.get DMC_TRAIN_CTRL_HOLD = 0 → s.on DMC_STATUS_INIT_DONE = true →
    s.dmc.oscBase = [none, none] →
    ∃ t, exec (.driftCheck [c]) s = .next t ∧ Alters s t { s with dmc := { s.dmc with oscBase := [some c, none] } } []) ∧
  (∀ (s : State) (b c : Nat), s.on DMC_CTRL_DRIFT_EN = true → s.get DMC_TRAIN_CTRL_HOLD = 0 → s.on DMC_STATUS_INIT_DONE = true →
    s.dmc.oscBase = [some b, none] → s.dmc.drift.length = 2 →
    ∃ t, exec (.driftCheck [c]) s = .next t ∧
      t.dmc.drift.getD 0 none = (if (Config.oscTaps b c).natAbs ≤ 1 then s.dmc.drift.getD 0 none else some (Config.oscTaps b c)) ∧
      Alters s t { s with dmc := { s.dmc with dly := t.dmc.dly, drift := t.dmc.drift } } [])

/-- The lease of a pair. A chip that may claim takes the next epoch and claims: at once while the mirror link is down, else when the peer
acknowledges (R474); a claim that is not allowed sets CMD_ERR (R475). The holder renews; a chip that hears RENEW or CLAIM shows the peer as holder
and answers; of two crossed claims the lower epoch loses (R474). Without RENEW for 100 ms, or after YIELD, the lease is free, and AUTO_CLAIM
or the yield makes the chip claim (R474, R475, R483). -/
def Obligations.PairLease : Prop :=
  (∀ (s : State) (req : Fin 6), req ≠ 5 → s.islandRuns 13 = true → s.mayClaim = true → s.on PAR_STATUS_MIRROR_UP = false →
    s.on PAR_CFG_FENCE_EN = false → max s.epoch s.par.epochSeen + 1 < 2 ^ 32 →
    ∃ t, exec (.claim req) s = .next t ∧ t.pstate = psCLAIMED ∧ t.get PAR_LEASE_HOLDER = 1 ∧ t.epoch = max s.epoch s.par.epochSeen + 1 ∧
      Posts s t Ev.LEASE_CLAIMED 0xFFFF [t.epoch, 1] ∧
      AltersPosting s t { s with par := { s.par with claim := none, claimAt := s.time.cyc, splitPosted := false } }
        [PAR_STATUS, PAR_LEASE, PAR_EPOCH, PAR_IRQ_CAUSE]) ∧
  (∀ (s : State) (req : Fin 6), req ≠ 5 → s.islandRuns 13 = true → s.mayClaim = true → s.on PAR_STATUS_MIRROR_UP = true →
    max s.epoch s.par.epochSeen + 1 < 2 ^ 32 →
    ∃ t, exec (.claim req) s = .next t ∧ t.epoch = max s.epoch s.par.epochSeen + 1 ∧
      Alters s t { s with par := { s.par with claim := some 1, txLsn := (s.par.txLsn + 1) % 4096, unacked := s.par.unacked ++ [(s.par.txLsn, .claim t.epoch)] } } [PAR_EPOCH]) ∧
  (∀ (s : State) (req : Fin 6), req ≠ 5 → s.islandRuns 13 = true → s.mayClaim = false →
    ∃ t, exec (.claim req) s = .next t ∧ t.on PAR_STATUS_CMD_ERR = true ∧ Silent s t [PAR_STATUS]) ∧
  (∀ (s : State) (trig : Nat), s.par.claim = some trig → s.on PAR_CFG_FENCE_EN = false →
    ∃ t, exec .claimAckReceived s = .next t ∧ t.pstate = psCLAIMED ∧ t.get PAR_LEASE_HOLDER = 1 ∧
      Posts s t Ev.LEASE_CLAIMED 0xFFFF [s.epoch, trig] ∧
      AltersPosting s t { s with par := { s.par with claim := none, claimAt := s.time.cyc, splitPosted := false } }
        [PAR_STATUS, PAR_LEASE, PAR_IRQ_CAUSE]) ∧
  (∀ s : State, s.paired = true → s.get PAR_LEASE_HOLDER = 1 → s.on PAR_STATUS_MIRROR_UP = true →
    ∃ t, exec .renewTimer s = .next t ∧ Alters s t { s with par := { s.par with txLsn := (s.par.txLsn + 1) % 4096, unacked := s.par.unacked ++ [(s.par.txLsn, .renew s.epoch)] } } []) ∧
  (∀ (s : State) (e : Word), s.paired = true → s.get PAR_LEASE_HOLDER ≠ 1 →
    ∃ t, exec (.renewReceived e) s = .next t ∧ t.get PAR_LEASE_HOLDER = 2 ∧
      Alters s t { s with par := { s.par with epochSeen := max s.par.epochSeen e.toNat, lastRenew := some s.time.cyc, expired := false } }
        [PAR_LEASE]) ∧
  (∀ (s : State) (e : Word), s.paired = true → s.get PAR_LEASE_HOLDER ≠ 1 → s.par.claim = none →
    ∃ t, exec (.claimReceived e) s = .next t ∧ t.get PAR_LEASE_HOLDER = 2 ∧
      Alters s t { s with par := { s.par with epochSeen := max s.par.epochSeen e.toNat, leaseOut := some e.toNat, lastRenew := some s.time.cyc, expired := false } } [PAR_LEASE]) ∧
  (∀ (s : State) (e : Word), s.paired = true → s.get PAR_LEASE_HOLDER = 1 →
    ∃ t, exec (.claimReceived e) s = .next t ∧
      Alters s t { s with par := { s.par with epochSeen := max s.par.epochSeen e.toNat } } []) ∧
  (∀ (s : State) (e : Word), s.paired = true → s.get PAR_LEASE_HOLDER ≠ 1 → s.par.claim ≠ none →
    s.epoch < e.toNat ∨ (s.epoch = e.toNat ∧ s.role = 2) →
    ∃ t, exec (.claimReceived e) s = .next t ∧ t.pstate = psUNSYNCED ∧ t.get PAR_LEASE_HOLDER = 2 ∧ t.par.claim = none ∧
      t.par.leaseOut = some e.toNat ∧ Posts s t Ev.LEASE_LOST 0xFFFF [s.epoch, 2] ∧
      AltersPosting s t { s with par := t.par } [PAR_STATUS, PAR_LEASE, PAR_IRQ_CAUSE]) ∧
  (∀ s : State, s.paired = true → s.get PAR_LEASE_HOLDER ≠ 1 → s.pstate = psSTANDBY → s.par.claim = none → s.on PAR_STATUS_MIRROR_UP = true →
    max s.epoch s.par.epochSeen + 1 < 2 ^ 32 →
    ∃ t, exec .yieldReceived s = .next t ∧ t.get PAR_LEASE_HOLDER = 0 ∧ t.epoch = max s.epoch s.par.epochSeen + 1 ∧
      Alters s t { s with par := { s.par with expired := true, afterExpiry := false, lastRenew := none, claim := some 3, txLsn := (s.par.txLsn + 1) % 4096, unacked := s.par.unacked ++ [(s.par.txLsn, .claim t.epoch)] } } [PAR_LEASE, PAR_EPOCH]) ∧
  (∀ s : State, s.paired = true → s.get PAR_LEASE_HOLDER ≠ 1 →
    ∃ t, exec .leaseExpired s = .next t ∧ t.get PAR_LEASE_HOLDER = 0 ∧
      Alters s t { s with par := { s.par with expired := true, afterExpiry := true, lastRenew := none } } [PAR_LEASE]) ∧
  (∀ s : State, s.on PAR_CFG_AUTO_CLAIM = true → s.mayClaim = true → s.on PAR_STATUS_MIRROR_UP = true →
    max s.epoch s.par.epochSeen + 1 < 2 ^ 32 →
    ∃ t, exec .autoClaimDelayExpired s = .next t ∧ t.epoch = max s.epoch s.par.epochSeen + 1 ∧
      Alters s t { s with par := { s.par with claim := some 2, txLsn := (s.par.txLsn + 1) % 4096, unacked := s.par.unacked ++ [(s.par.txLsn, .claim t.epoch)] } } [PAR_EPOCH])

/-- Authority, yield and take-over. FIRE_AUTH_OUT rises only under the conditions of R477; in CLAIMED the chip becomes ACTIVE and its page and plane islands
leave reset (R464). With both lines high role B drops its own and returns to CLAIMED (R478). An authority that does not come is suspected
once, and fences the peer when allowed (R480). A yield, by command, by handover without a job, or by itself, drops the line and posts
FAILOVER (R483); when it is complete the chip is UNSYNCED, its islands in reset (R464). A take-over fails at a step, or adopts the journalled job,
and stops at a position mismatch (R481). -/
def Obligations.PairAuthority : Prop :=
  (∀ s : State, s.paired = false → s.mayRaise = true → s.on PAR_STATUS_AUTH = false →
    ∃ t, exec .fireAuthRaise s = .next t ∧ t.on PAR_STATUS_AUTH = true ∧ Silent s t [PAR_STATUS]) ∧
  (∀ s : State, s.paired = true → s.pstate = psCLAIMED → s.mayRaise = true → s.on PAR_STATUS_AUTH = false → s.par.journal = [] →
    s.on PAR_STATUS_MIRROR_UP = false →
    ∃ t, exec .fireAuthRaise s = .next t ∧ t.on PAR_STATUS_AUTH = true ∧ t.pstate = psACTIVE ∧ t.par = { s.par with activeAt := s.time.cyc } ∧
      (∀ k : Fin 17, 2 ≤ k.val → k.val ≤ 10 → s.get (RST_ISLAND_RSTATE k) = 1 → k.val ∉ s.rst.todo → t.islandRuns k = true) ∧
      Alters s t { s with par := t.par } (PAR_STATUS :: (List.range 17).map RST_ISLAND)) ∧
  (∀ s : State, s.paired = true → s.pstate = psCLAIMED → s.mayRaise = true → s.on PAR_STATUS_AUTH = false → s.par.journal = [] →
    s.on PAR_STATUS_MIRROR_UP = true → s.cal.cols = [] → s.ldg.trims = [] → s.press.job = none →
    ∃ t, exec .fireAuthRaise s = .next t ∧ t.on PAR_STATUS_AUTH = true ∧ t.pstate = psACTIVE ∧ t.par.resync.isSome = true ∧
      t.get PAR_RESYNC_COUNT_COUNT = min (2 ^ 32 - 1) (s.get PAR_RESYNC_COUNT_COUNT + 1)) ∧
  (∀ s : State, s.mayRaise = false →
    ∃ t, exec .fireAuthRaise s = .next t ∧ Silent s t []) ∧
  (∀ (s : State) (level : Bool), s.role ≠ 2 ∨ s.on PAR_STATUS_AUTH = false →
    ∃ t, exec (.fireAuthInChange level) s = .next t ∧ t.on PAR_STATUS_PEER_AUTH = level ∧
      Alters s t { s with par := { s.par with authLow := if level = true then none else some s.time.cyc } } [PAR_STATUS]) ∧
  (∀ s : State, s.role = 2 → s.on PAR_STATUS_AUTH = true → s.pstate = psACTIVE →
    ∃ t, exec (.fireAuthInChange true) s = .next t ∧ t.on PAR_STATUS_AUTH = false ∧ t.on PAR_STATUS_PEER_AUTH = true ∧
      t.pstate = psCLAIMED ∧ t.get PAR_SPLIT_COUNT_COUNT = min (2 ^ 32 - 1) (s.get PAR_SPLIT_COUNT_COUNT + 1) ∧
      Posts s t Ev.SPLIT_SUSPECT 0xFFFF [1, 1]) ∧
  (∀ s : State, s.paired = true → s.pstate = psCLAIMED → s.on PAR_STATUS_AUTH = false → s.par.splitPosted = false →
    ∃ t, exec .splitSuspect s = .next t ∧ t.par = { s.par with splitPosted := true } ∧
      t.get PAR_SPLIT_COUNT_COUNT = min (2 ^ 32 - 1) (s.get PAR_SPLIT_COUNT_COUNT + 1) ∧
      t.on PAR_STATUS_FENCED = (s.on PAR_STATUS_FENCED || (s.on PAR_CFG_FENCE_EN && !s.on PAR_STATUS_PEER_AUTH && s.par.afterExpiry)) ∧
      Posts s t Ev.SPLIT_SUSPECT 0xFFFF [2, s.get PAR_STATUS_PEER_AUTH] ∧
      AltersPosting s t { s with par := t.par } [PAR_STATUS, PAR_SPLIT_COUNT, PAR_IRQ_CAUSE]) ∧
  (∀ s : State, ∃ t, exec .peerFenceEnd s = .next t ∧ t.on PAR_STATUS_FENCED = false ∧ Silent s t [PAR_STATUS]) ∧
  (∀ (s : State) (req : Fin 6), req ≠ 5 → s.islandRuns 13 = true → s.pstate = psACTIVE → s.paired = true → s.press.job = none →
    ∃ t, exec (.yield req) s = .next t ∧ t.on PAR_STATUS_AUTH = false ∧ t.pstate = psYIELDING ∧ t.par.yielding = some s.time.cyc ∧
      (s.on PAR_STATUS_MIRROR_UP = true → t.par.unacked = s.par.unacked ++ [(s.par.txLsn, .yielded)]) ∧
      Posts s t Ev.FAILOVER 0xFFFF [1, 0xFF] ∧ AltersPosting s t { s with par := t.par } [PAR_STATUS, PAR_IRQ_CAUSE]) ∧
  (∀ (s : State) (req : Fin 6), req ≠ 5 → s.islandRuns 13 = true → s.pstate = psACTIVE → s.paired = true → s.press.job = none →
    ∃ t, exec (.handover req) s = .next t ∧ t.on PAR_STATUS_AUTH = false ∧ t.pstate = psYIELDING ∧
      Posts s t Ev.FAILOVER 0xFFFF [2, 0xFF] ∧ AltersPosting s t { s with par := t.par } [PAR_STATUS, PAR_IRQ_CAUSE]) ∧
  (∀ (s : State) (p : Fin 24), s.pstate = psACTIVE → s.paired = true → s.on PAR_CFG_AUTO_YIELD = true → s.ust (.port p) = .retired →
    bit (s.rget PAR_PEER_HEALTH).toNat (8 + p) = true → s.press.job = none →
    ∃ t, exec (.autoYield (some p)) s = .next t ∧ t.pstate = psYIELDING ∧ Posts s t Ev.FAILOVER 0xFFFF [3, p] ∧
      AltersPosting s t { s with par := t.par } [PAR_STATUS, PAR_IRQ_CAUSE]) ∧
  (∀ s : State, s.pstate = psYIELDING → s.paired = true →
    ∃ t, exec .yieldTimeout s = .next t ∧ t.pstate = psUNSYNCED ∧ t.get PAR_LEASE_HOLDER = 0 ∧
      Posts s t Ev.LEASE_LOST 0xFFFF [s.epoch, 1] ∧
      (s.islandRuns 2 = true → ∀ k : Fin 17, 2 ≤ k.val → k.val ≤ 10 → t.get (RST_ISLAND_RSTATE k) = 1)) ∧
  (∀ (s : State) (k : Fin 8), s.par.takeover = true → s.press.job = none →
    ∃ t, exec (.takeoverReady (some k) false) s = .next t ∧ Posts s t Ev.TAKEOVER_FAIL 0xFFFF [k] ∧
      AltersPosting s t { s with par := { s.par with takeover := false } } [PAR_IRQ_CAUSE]) ∧
  (∀ (s : State) (d : DescBits) (ring line : Nat), s.par.takeover = true → s.press.job = none → s.openJournal = some (d, ring, line) →
    ∃ t, exec (.takeoverReady none true) s = .next t ∧ t.par.takeover = false ∧ t.on PAR_STATUS_POS_MISMATCH = true ∧
      t.press.job.map (fun j => (j.jobId, j.started)) = some (dfield d 4 4, true) ∧ PostsSome s t Ev.TAKEOVER_READY 0xFFFF)

/-- The mirror port and the journal. A packet whose CRC is right and whose LSN is the next one is accepted, any other answered with the NAK of its kind (R466);
the end of a resync makes the receiver STANDBY (R470). A record goes into the standby's journal, a page's record out of it with its
RETIRE (R469). A timeout or NAK sends everything again, an ACK releases what it covers (R466). The link's loss and return are shown and
reported, and an active chip goes SOLO after 100 ms (R467). A resync sends the snapshot (R470). Health and self-tests are kept and
sent (R484); the AXIS record goes out every 10 ms (R468). -/
def Obligations.MirrorAndJournal : Prop :=
  (∀ (s : State) (lsn : BitVec 12), s.paired = true → s.on PAR_STATUS_MIRROR_UP = true → lsn.toNat = s.par.rxLsn →
    ∃ t, exec (.mirrorPacketReceived lsn true none none) s = .next t ∧
      Alters s t { s with par := { s.par with rxLsn := (s.par.rxLsn + 1) % 4096, ackOut := some (lsn.toNat, 0) } } []) ∧
  (∀ (s : State) (lsn : BitVec 12) (ok : Bool) (h : Option Word) (e : Option PairNote), s.paired = true →
    s.on PAR_STATUS_MIRROR_UP = true → ok = false ∨ lsn.toNat ≠ s.par.rxLsn →
    ∃ t, exec (.mirrorPacketReceived lsn ok h e) s = .next t ∧
      Alters s t { s with par := { s.par with ackOut := some (lsn.toNat, if ok = true then 2 else 1) } } []) ∧
  (∀ (s : State) (lsn : BitVec 12) (bytes ms : Nat), s.paired = true → s.on PAR_STATUS_MIRROR_UP = true → lsn.toNat = s.par.rxLsn →
    s.pstate = psUNSYNCED →
    ∃ t, exec (.mirrorPacketReceived lsn true none (some (.resyncEnd bytes ms))) s = .next t ∧ t.pstate = psSTANDBY ∧
      Posts s t Ev.RESYNC_DONE 0xFFFF [bytes, ms] ∧ AltersPosting s t { s with par := t.par } [PAR_STATUS, PAR_IRQ_CAUSE]) ∧
  (∀ (s : State) (lsn : BitVec 12), s.paired = true → s.on PAR_STATUS_MIRROR_UP = true → lsn.toNat = s.par.rxLsn → s.pstate = psSTANDBY →
    ∃ t, exec (.mirrorPacketReceived lsn true none (some .resyncStart)) s = .next t ∧ t.pstate = psUNSYNCED ∧
      Alters s t { s with par := t.par } [PAR_STATUS]) ∧
  (∀ (s : State) (d : DescBits) (ring first : Nat), s.paired = true → s.pstate = psSTANDBY →
    ∃ t, exec (.journalRecordReceived (.page d ring first)) s = .next t ∧
      Alters s t { s with par := { s.par with journal := s.par.journal ++ [.page d ring first] } } []) ∧
  (∀ (s : State) (id st fl : Nat), s.paired = true → s.pstate = psSTANDBY →
    ∃ t, exec (.journalRecordReceived (.retire id st fl)) s = .next t ∧ JrnRec.retire id st fl ∈ t.par.journal ∧
      (∀ r ∈ t.par.journal, r = .retire id st fl ∨ r ∈ s.par.journal) ∧
      (∀ r ∈ t.par.journal, recKind r = 2 → r ∈ s.par.journal) ∧
      Alters s t { s with par := { s.par with journal := t.par.journal } } []) ∧
  (∀ s : State, ∃ t, exec .mirrorAckTimeout s = .next t ∧
    t.get PAR_RETRY_COUNT_COUNT = min (2 ^ 32 - 1) (s.get PAR_RETRY_COUNT_COUNT + s.par.unacked.length) ∧ Silent s t [PAR_RETRY_COUNT]) ∧
  (∀ (s : State) (lsn : BitVec 12), ∃ t, exec (.mirrorAckReceived lsn true) s = .next t ∧
    t.get PAR_RETRY_COUNT_COUNT = min (2 ^ 32 - 1) (s.get PAR_RETRY_COUNT_COUNT + s.par.unacked.length) ∧ Silent s t [PAR_RETRY_COUNT]) ∧
  (∀ (s : State) (lsn : BitVec 12) (w : Word) (u : List (Nat × MirrorMsg)), s.par.unacked = (lsn.toNat, .health w) :: u → s.par.resync = none →
    ∃ t, exec (.mirrorAckReceived lsn false) s = .next t ∧ Alters s t { s with par := { s.par with unacked := u } } []) ∧
  (∀ (s : State) (lane : Fin 4), s.on PAR_STATUS_MIRROR_UP = true → s.pstate = psSTANDBY →
    ∃ t, exec (.mirrorDown lane) s = .next t ∧ t.on PAR_STATUS_MIRROR_UP = false ∧ t.pstate = psUNSYNCED ∧
      Posts s t Ev.MIRROR_DOWN 0xFFFF [48 + lane, psSTANDBY] ∧
      AltersPosting s t { s with par := { s.par with downAt := some s.time.cyc, resync := none } } [PAR_STATUS, PAR_IRQ_CAUSE]) ∧
  (∀ s : State, s.paired = true → s.on PAR_STATUS_MIRROR_UP = false → s.pstate ≠ psACTIVE →
    ∃ t, exec .mirrorUp s = .next t ∧ t.on PAR_STATUS_MIRROR_UP = true ∧ Posts s t Ev.MIRROR_UP 0xFFFF [] ∧
      AltersPosting s t { s with par := { s.par with downAt := none, txLsn := 0, rxLsn := 0, unacked := [] } } [PAR_STATUS, PAR_IRQ_CAUSE]) ∧
  (∀ s : State, s.paired = true → s.on PAR_STATUS_MIRROR_UP = false → s.pstate = psACTIVE → s.press.job = none →
    ∃ t, exec .soloTimer s = .next t ∧ t.on PAR_STATUS_SOLO = true ∧ Silent s t [PAR_STATUS]) ∧
  (∀ (s : State) (req : Fin 6), req ≠ 5 → s.islandRuns 13 = true → s.paired = true → s.pstate = psACTIVE → s.on PAR_STATUS_MIRROR_UP = true →
    s.cal.cols = [] → s.ldg.trims = [] → s.press.job = none → s.par.unacked = [] →
    ∃ t, exec (.resync req) s = .next t ∧ t.get PAR_RESYNC_COUNT_COUNT = min (2 ^ 32 - 1) (s.get PAR_RESYNC_COUNT_COUNT + 1) ∧
      t.par.unacked = [(s.par.txLsn, .regions), ((s.par.txLsn + 1) % 4096, .record s.axisRecord)] ∧ t.par.resync.isSome = true ∧
      Alters s t { s with par := t.par } [PAR_RESYNC_COUNT]) ∧
  (∀ (s : State) (ports : BitVec 24), s.paired = true → s.ready = s.on PAR_HEALTH_READY → s.on PAR_STATUS_MIRROR_UP = true →
    ∃ t, exec (.healthTimer ports) s = .next t ∧
      (t.rget PAR_HEALTH).toNat = b2n s.ready + 2 * b2n s.par.sramOk + 4 * b2n s.par.mramOk + 8 * b2n (!s.par.dramUe) + 256 * ports.toNat ∧
      t.par.unacked = s.par.unacked ++ [(s.par.txLsn, .health (t.rget PAR_HEALTH))] ∧ Alters s t { s with par := t.par } [PAR_HEALTH]) ∧
  (∀ (s : State) (ok : Bool), s.pstate = psSTANDBY →
    ∃ t, exec (.standbySelfTest 0 ok []) s = .next t ∧ Alters s t { s with par := { s.par with sramOk := ok } } []) ∧
  (∀ (s : State) (ok : Bool), s.pstate = psSTANDBY →
    ∃ t, exec (.standbySelfTest 1 ok []) s = .next t ∧ Alters s t { s with par := { s.par with mramOk := ok } } []) ∧
  (∀ (s : State) (ok : Bool), s.pstate = psSTANDBY →
    s.lanes.length = 52 →
    ∃ t, exec (.standbySelfTest 2 ok []) s = .next t ∧ Alters s t { s with lanes := t.lanes } [] ∧
      (∀ l : Fin 52, t.lane l = if l.val < 48 ∧ s.loopTestable l = true then { s.lane l with testing := true } else s.lane l)) ∧
  (∀ s : State, s.journals = true →
    ∃ t, exec .axisJournalTimer s = .next t ∧
      ((s.jrn s.axisRecord).jrnBehind = false → Alters s t { s with par := { s.par with txLsn := (s.par.txLsn + 1) % 4096, unacked := s.par.unacked ++ [(s.par.txLsn, .record s.axisRecord)] } } []))

/-- The network ports and the steering of PRESS_TIME. A link change shows and is reported (R485); a frame of a port that is not up is nothing, a bad or
long one is dropped and counted, others go to firmware, to the other port, or to both, with a PTP event message corrected by the time it
spent in the chip (R486, R487). A slot's offset is taken with its HI half, a lost or old slot leaves the other active or the clock in
holdover (R491, R492); a step applies at once without a job and is refused with one (R493); a reference cycle adds 4 ns at the rate, and
the slew (R490, R493). That a residual smaller than a cycle's slew ends at exactly 0 is the model's choice (log 33). -/
def Obligations.NetworkAndTime : Prop :=
  (∀ (s : State) (p : Fin 2) (up full : Bool), s.on (NET_PORT_STATUS_LINK p) ≠ (up && full) →
    ∃ t, exec (.netLinkChange p up full) s = .next t ∧ t.on (NET_PORT_STATUS_LINK p) = (up && full) ∧
      t.on (NET_PORT_STATUS_AN_DONE p) = up ∧ t.on (NET_PORT_STATUS_LINK_BAD p) = (up && !full) ∧
      Posts s t Ev.NET_LINK p [b2n (up && full), b2n (up && !full)] ∧ Touches s t [NET_PORT_STATUS p, NET_IRQ_CAUSE]) ∧
  (∀ (s : State) (p : Fin 2) (f : List Byte) (ok : Bool) (a b : BitVec 64), s.netUp p = false →
    ∃ t, exec (.netFrameReceived p f ok a b) s = .next t ∧ Silent s t []) ∧
  (∀ (s : State) (p : Fin 2) (f : List Byte) (ok : Bool) (a b : BitVec 64), s.netUp p = true → ok = false ∨ 1518 < f.length →
    ∃ t, exec (.netFrameReceived p f ok a b) s = .next t ∧
      t.get (NET_DROP_COUNT_COUNT p) = min (2 ^ 32 - 1) (s.get (NET_DROP_COUNT_COUNT p) + 1) ∧ Silent s t [NET_DROP_COUNT p]) ∧
  (∀ (s : State) (p : Fin 2) (f : List Byte) (a b : BitVec 64), s.netUp p = true → f.length ≤ 1518 → f.take 6 = s.mac →
    ∃ t, exec (.netFrameReceived p f true a b) s = .next t ∧
      t.get (NET_RX_COUNT_COUNT p) = min (2 ^ 32 - 1) (s.get (NET_RX_COUNT_COUNT p) + 1) ∧
      Alters s t { s with net := { s.net with rx := s.net.rx ++ [(p.val, f)] } } [NET_RX_COUNT p]) ∧
  (∀ (s : State) (p : Fin 2) (f : List Byte) (a b : BitVec 64), s.netUp p = true → f.length ≤ 1518 → f.take 6 ≠ s.mac →
    bit (beAt f 0 1) 0 = false → s.on NET_TC_CTRL_EN = false → s.netUp (1 - p) = true →
    s.egressBytes (1 - p : Fin 2) + f.length ≤ 32768 →
    ∃ t, exec (.netFrameReceived p f true a b) s = .next t ∧
      t.get (NET_RX_COUNT_COUNT p) = min (2 ^ 32 - 1) (s.get (NET_RX_COUNT_COUNT p) + 1) ∧
      t.get (NET_TX_COUNT_COUNT (1 - p : Fin 2)) = min (2 ^ 32 - 1) (s.get (NET_TX_COUNT_COUNT (1 - p : Fin 2)) + 1) ∧
      Alters s t { s with net := { s.net with out := s.net.out.filter (fun e => Nat.blt s.now e.2.1) ++ [((1 - p : Fin 2).val, b.toNat, f)] } }
        [NET_RX_COUNT p, NET_TX_COUNT (1 - p : Fin 2)]) ∧
  (∀ (s : State) (p : Fin 2) (f : List Byte) (a b : BitVec 64) (rt : Int), s.netUp p = true → f.length ≤ 1518 → f.take 6 ≠ s.mac →
    bit (beAt f 0 1) 0 = false → s.on NET_TC_CTRL_EN = true → s.netUp (1 - p) = true →
    s.egressBytes (1 - p : Fin 2) + f.length ≤ 32768 → 24 ≤ f.length →
    beAt f 12 2 = 0x88F7 → beAt f 14 1 % 16 ≤ 1 →
    rt = ((b.toNat / 8 * 8 : Nat) : Int) + s.get (NET_PORT_LAT_TX_LAT (1 - p : Fin 2)) - ((a.toNat / 8 * 8 : Nat) - s.get (NET_PORT_LAT_RX_LAT p) : Int) →
    -(2 ^ 63 : Int) ≤ sgn 64 (beAt f 22 8) + rt * 65536 → sgn 64 (beAt f 22 8) + rt * 65536 < (2 ^ 63 : Int) →
    ∃ t, exec (.netFrameReceived p f true a b) s = .next t ∧
      t.get NET_TC_COUNT_COUNT = min (2 ^ 32 - 1) (s.get NET_TC_COUNT_COUNT + 1) ∧
      Alters s t { s with net := { s.net with out := s.net.out.filter (fun e => Nat.blt s.now e.2.1) ++ [((1 - p : Fin 2).val, b.toNat, setAt f 22 (beBytes 8 (twos 64 (sgn 64 (beAt f 22 8) + rt * 65536))))] } }
        [NET_RX_COUNT p, NET_TX_COUNT (1 - p : Fin 2), NET_TC_COUNT]) ∧
  (∀ (s : State) (p : Fin 2) (f : List Byte), s.netUp p = true → s.egressBytes p + f.length ≤ 32768 →
    ∃ t, exec (.netFrameTransmit p f) s = .next t ∧
      t.get (NET_TX_COUNT_COUNT p) = min (2 ^ 32 - 1) (s.get (NET_TX_COUNT_COUNT p) + 1) ∧
      Alters s t { s with net := { s.net with out := s.net.out.filter (fun e => Nat.blt s.now e.2.1) ++ [(p.val, s.now, f)], txDone := s.net.txDone + 1 } } [NET_TX_COUNT p]) ∧
  (∀ (s : State) (req : Fin 6) (d : Fin 2) (hi : Word), req ≠ 5 → s.islandRuns 16 = true → s.on NET_PT_STATUS_ACT_VALID = true →
    s.domUsable (s.get NET_PT_STATUS_ACTIVE) = true → s.net.ofs.length = 2 → s.net.stamp.length = 2 → s.net.old.length = 2 →
    ∃ t, exec (.netDomOfsWrite req d hi) s = .next t ∧ t.get (NET_DOM_OFS_HI_OFS d) = hi.toNat ∧ t.on (NET_DOM_CFG_LOST d) = false ∧
      t.net = { s.net with ofs := s.net.ofs.set d (sgn 64 (hi.toNat * 2 ^ 32 + s.get (NET_DOM_OFS_LO_OFS d)) * 4294967296), stamp := s.net.stamp.set d (some s.time.cyc), old := s.net.old.set d false } ∧
      Alters s t { s with net := t.net } [NET_DOM_OFS_HI d, NET_DOM_CFG d, NET_PT_RESID, NET_PT_STATUS]) ∧
  (∀ (s : State) (req : Fin 6) (d : Fin 2), req ≠ 5 → s.islandRuns 16 = true → s.domActive = some d.val → s.domUsable (1 - d.val) = true →
    ∃ t, exec (.netDomLostWrite req d) s = .next t ∧ t.domActive = some (1 - d.val) ∧ t.on (NET_DOM_CFG_LOST d) = true ∧
      Posts s t Ev.DOMAIN_SWITCH 0xFFFF [1 - d.val, 1, twos 64 (roundDiv (s.domOfs (1 - d.val)) 4294967296)] ∧
      Touches s t [NET_DOM_CFG d, NET_PT_STATUS, NET_PT_RESID, NET_IRQ_CAUSE]) ∧
  (∀ (s : State) (req : Fin 6) (d : Fin 2), req ≠ 5 → s.islandRuns 16 = true → s.domActive = some d.val → s.domUsable (1 - d.val) = false →
    ∃ t, exec (.netDomLostWrite req d) s = .next t ∧ t.domActive = none ∧ t.on NET_PT_STATUS_HOLDOVER = true ∧
      Posts s t Ev.HOLDOVER 0xFFFF [d, s.get NET_PT_RATE_RATE] ∧ Touches s t [NET_DOM_CFG d, NET_PT_STATUS, NET_PT_RESID, NET_IRQ_CAUSE]) ∧
  (∀ (s : State) (d : Fin 2), s.domActive = some d.val → s.domUsable (1 - d.val) = true → s.net.old.length = 2 →
    ∃ t, exec (.domainSlotExpired d) s = .next t ∧ t.domActive = some (1 - d.val) ∧ t.net = { s.net with old := s.net.old.set d true } ∧
      Posts s t Ev.DOMAIN_SWITCH 0xFFFF [1 - d.val, 2, twos 64 (roundDiv (s.domOfs (1 - d.val)) 4294967296)] ∧
      AltersPosting s t { s with net := t.net } [NET_PT_STATUS, NET_PT_RESID, NET_IRQ_CAUSE]) ∧
  (∀ (s : State) (req : Fin 6) (hi : Word) (v : Int), req ≠ 5 → s.islandRuns 16 = true → s.get PGP_SCHED_STATUS_JOB_STATE = 0 →
    v = sgn 64 (hi.toNat * 2 ^ 32 + s.get NET_PT_STEP_LO_STEP) →
    ∃ t, exec (.netPtStepWrite req hi) s = .next t ∧
      Alters s t { s with time := { s.time with pt := (((s.time.pt : Int) + v * 4294967296) % ((2 ^ 96 : Nat) : Int)).toNat }, net := { s.net with ofs := s.net.ofs.map (fun o => o - v * 4294967296) } } [NET_PT_STEP_HI, NET_PT_RESID, NET_PT_STATUS]) ∧
  (∀ (s : State) (req : Fin 6) (hi : Word), req ≠ 5 → s.islandRuns 16 = true → s.get PGP_SCHED_STATUS_JOB_STATE ≠ 0 →
    ∃ t, exec (.netPtStepWrite req hi) s = .next t ∧ t.on NET_PT_STATUS_CMD_ERR = true ∧
      Posts s t Ev.STEP_REFUSED 0xFFFF [twos 64 (sgn 64 (hi.toNat * 2 ^ 32 + s.get NET_PT_STEP_LO_STEP)), s.get PGP_SCHED_STATUS_JOB_STATE] ∧
      Touches s t [NET_PT_STEP_HI, NET_PT_STATUS, NET_IRQ_CAUSE]) ∧
  (∀ (s : State) (sl rate : Int), sl = s.slewNow → rate = s.getS NET_PT_RATE_RATE → -200000 ≤ rate → rate ≤ 200000 →
    ∃ t, exec .pressTimeAdvance s = .next t ∧ t.net = { s.net with ofs := s.net.ofs.map (fun o => o - sl) } ∧
      t.time = { s.time with cyc := s.time.cyc + 1, pt := (s.time.pt + (4 * 4294967296 + 4 * 4294967296 * rate / 1000000000 + sl).toNat) % 2 ^ 96 } ∧
      Alters s t { s with time := t.time, net := t.net } [NET_PT_RESID, NET_PT_STATUS])

/-- Reset sources. A reset shows its source, forces the outputs safe, and holds the islands it covers: RESET_N every island but the
always-on one, the peer's fence and the watchdog with SCOPE every one but that and the DRAM controller, the watchdog without SCOPE firmware's
core; a supply or reference clock lost clears all and their clocks (R497, R498, R502, R509). A source that deasserts while another stands
changes nothing else; the last one releases the islands whose clocks are good and reports it (R498). An island without a clock waits, and
shows CLOCK_FAIL when its time is over (R496, R498). RST_SW needs its key (R503); the backup counters clear by command and with VBAT (R511). -/
def Obligations.ResetSources : Prop :=
  (∀ s : State, ∃ t, exec .resetNAssert s = .next t ∧ bit (t.get RST_CAUSE_SRC) 2 = true ∧ t.on PAR_STATUS_AUTH = false ∧
    t.web.resetStop = true ∧ 2 ∈ t.rst.asserted ∧
    (∀ k : Fin 17, k.val ≠ 0 → k.val ∈ t.rst.todo ∧ t.on (RST_ISLAND_FENCED k) = true ∧
      t.get (RST_ISLAND_RSTATE k) = if s.on (RST_ISLAND_CLK_GOOD k) = true then 1 else 2) ∧
    t.get (RST_ISLAND_RSTATE 0) = s.get (RST_ISLAND_RSTATE 0)) ∧
  (∀ s : State, ∃ t, exec .peerFenceInAssert s = .next t ∧ bit (t.get RST_CAUSE_SRC) 9 = true ∧ t.on PAR_STATUS_AUTH = false ∧
    t.web.resetStop = true ∧ 9 ∈ t.rst.asserted ∧
    (∀ k : Fin 17, k.val ≠ 0 → k.val ≠ 12 → k.val ∈ t.rst.todo ∧ t.on (RST_ISLAND_FENCED k) = true ∧
      t.get (RST_ISLAND_RSTATE k) = if s.on (RST_ISLAND_CLK_GOOD k) = true then 1 else 2) ∧
    (∀ k : Fin 17, k.val = 0 ∨ k.val = 12 → t.get (RST_ISLAND_RSTATE k) = s.get (RST_ISLAND_RSTATE k))) ∧
  (∀ (s : State) (src : Fin 10) (isl : BitVec 17), 2 ≤ src.val →
    ∃ t, exec (.resetAssert src isl) s = .next t ∧ bit (t.get RST_CAUSE_SRC) src = true ∧ src.val ∈ t.rst.asserted ∧
      (∀ k : Fin 17, k.val ∈ s.scopeOf src isl.toNat → k.val ∈ t.rst.todo ∧ t.on (RST_ISLAND_FENCED k) = true) ∧
      (∀ k : Fin 17, k.val ∉ s.scopeOf src isl.toNat → t.get (RST_ISLAND_RSTATE k) = s.get (RST_ISLAND_RSTATE k))) ∧
  (∀ (s : State) (core : Bool), ∃ t, exec (.railDrop core) s = .next t ∧ b2n core ∈ t.rst.asserted ∧ t.time.pt = 0 ∧
    t.on PAR_STATUS_AUTH = false ∧
    (∀ k : Fin 17, t.get (RST_ISLAND_RSTATE k) = 1 ∧ t.on (RST_ISLAND_CLK_GOOD k) = false ∧ k.val ∈ t.rst.todo)) ∧
  (∀ s : State, ∃ t, exec .refClkFail s = .next t ∧ 0 ∈ t.rst.asserted ∧ t.time.pt = 0 ∧ t.on PAR_STATUS_AUTH = false ∧
    (∀ k : Fin 17, t.get (RST_ISLAND_RSTATE k) = 1 ∧ t.on (RST_ISLAND_CLK_GOOD k) = false ∧ k.val ∈ t.rst.todo)) ∧
  (∀ (s : State) (src : Fin 10), src.val ≠ 8 → src.val ∈ s.rst.asserted → s.rst.asserted.filter (fun x => x != src.val) ≠ [] →
    ∃ t, exec (.resetDeassert src) s = .next t ∧
      Alters s t { s with rst := { s.rst with asserted := s.rst.asserted.filter (fun x => x != src.val) } } []) ∧
  (∀ (s : State) (src : Fin 10), src.val ≠ 8 → s.rst.asserted = [src.val] → s.rst.cover ≠ [] → s.rst.strapHold = false → s.paired = false →
    s.rst.waitReset = [] → (∀ k : Fin 17, k.val ∈ s.rst.todo → k.val = 0 ∨ s.on (RST_ISLAND_CLK_GOOD k) = true) →
    ∃ t, exec (.resetDeassert src) s = .next t ∧ t.rst.asserted = [] ∧ t.rst.cover = [] ∧ t.web.resetStop = false ∧
      (∀ k : Fin 17, k.val ∉ t.rst.todo) ∧ (∀ k : Fin 17, k.val ∈ s.rst.todo → t.islandRuns k = true) ∧
      (∀ k : Fin 17, k.val ∉ s.rst.todo → t.islandRuns k = s.islandRuns k) ∧ PostsSome s t Ev.RESET_DONE 0xFFFF) ∧
  (∀ (s : State) (k : Fin 17), s.rst.asserted = [] → s.rst.todo = [k.val] → k.val ≠ 0 → s.on (RST_ISLAND_CLK_GOOD k) = false →
    s.islandRuns k = false →
    ∃ t, exec (.islandClockTimeout k) s = .next t ∧ t.get (RST_ISLAND_RSTATE k) = 3 ∧ t.on (RST_ISLAND_FENCED k) = true ∧ t.rst.todo = [] ∧
      Posts s t Ev.CLOCK_FAIL k [k, s.get (RST_ISLAND_MHZ k)]) ∧
  (∀ (s : State) (k : Fin 17) (mhz : BitVec 16), ∃ t, exec (.islandClockGood k false mhz) s = .next t ∧
    t.on (RST_ISLAND_CLK_GOOD k) = false ∧ t.get (RST_ISLAND_MHZ k) = mhz.toNat ∧ t.islandRuns k = s.islandRuns k ∧ Silent s t [RST_ISLAND k]) ∧
  (∀ (s : State) (k : Fin 17) (mhz : BitVec 16), k.val ≠ 0 → s.rst.waitReset = [k.val] → s.rst.asserted ≠ [] →
    ∃ t, exec (.islandClockGood k true mhz) s = .next t ∧ t.on (RST_ISLAND_CLK_GOOD k) = true ∧ t.get (RST_ISLAND_MHZ k) = mhz.toNat ∧
      t.get (RST_ISLAND_RSTATE k) = 1 ∧ t.rst.waitReset = []) ∧
  (∀ s : State, s.on RST_WDT_CFG_EN = true →
    ∃ t, exec .watchdogExpire s = .next t ∧ bit (t.get RST_CAUSE_SRC) 6 = true ∧ 6 ∈ t.rst.asserted ∧ t.web.resetStop = true ∧
      t.islandRuns 13 = false ∧ (s.on RST_WDT_CFG_SCOPE = true → ∀ k : Fin 17, k.val ≠ 0 → k.val ≠ 12 → t.islandRuns k = false) ∧
      (s.on RST_WDT_CFG_SCOPE = false → ∀ k : Fin 17, k.val ≠ 13 → t.islandRuns k = s.islandRuns k)) ∧
  (∀ s : State, s.on RST_WDT_CFG_EN = false → ∃ t, exec .watchdogExpire s = .next t ∧ Silent s t []) ∧
  (∀ (s : State) (req : Fin 6) (v : Word), req ≠ 5 → s.islandRuns 0 = true → v.toNat % 256 = 0x4B →
    ∃ t, exec (.watchdogKick req v) s = .next t ∧ Alters s t { s with rst := { s.rst with wdtFrom := s.time.cyc } } []) ∧
  (∀ (s : State) (req : Fin 6) (v : Word), req ≠ 5 → s.islandRuns 0 = true → v.toNat % 256 ≠ 0x4B →
    ∃ t, exec (.watchdogKick req v) s = .next t ∧ bit (t.get RST_CAUSE_SRC) 6 = true ∧ 6 ∈ t.rst.asserted ∧ t.islandRuns 13 = false) ∧
  (∀ (s : State) (req : Fin 6) (v : Word), req ≠ 5 → s.islandRuns 0 = true → bits v.toNat 31 24 ≠ 0xA5 →
    ∃ t, exec (.softwareReset req v) s = .next t ∧ Silent s t []) ∧
  (∀ (s : State) (req : Fin 6) (v : Word), req ≠ 5 → s.islandRuns 0 = true → bits v.toNat 31 24 = 0xA5 → bits v.toNat 16 2 ≠ 0 →
    ∃ t, exec (.softwareReset req v) s = .next t ∧ bit (t.get RST_CAUSE_SRC) 7 = true ∧ t.web.resetStop = true ∧
      (∀ k : Fin 17, k.val ≠ 0 → bit v.toNat k = true → t.on (RST_ISLAND_FENCED k) = true ∧ k.val ∈ t.rst.todo) ∧
      (∀ k : Fin 17, k.val = 0 ∨ bit v.toNat k = false → t.get (RST_ISLAND_RSTATE k) = s.get (RST_ISLAND_RSTATE k))) ∧
  (∀ (s : State) (req : Fin 6), req ≠ 5 → s.islandRuns 0 = true →
    ∃ t, exec (.clrCnt req) s = .next t ∧ (∀ k : Fin 10, t.get (RST_VBAT_CNT_COUNT k) = 0) ∧ Silent s t ((List.range 10).map RST_VBAT_CNT)) ∧
  (∀ s : State, ∃ t, exec .vbatLoss s = .next t ∧ (∀ k : Fin 10, t.get (RST_VBAT_CNT_COUNT k) = 0) ∧ t.on RST_VBAT_CTRL_THERM_LATCH = false ∧
    Alters s t { s with rst := { s.rst with vbatGone := true } } (RST_VBAT_CTRL :: (List.range 10).map RST_VBAT_CNT))

/-- Power-on, option bytes and boot. After power-on with the MODE straps at 0 the always-on island runs and the first island of the release
order waits for its clock; with another mode the islands stay in reset (R498, R543, R554). A good option block is taken over, a bad
one replaced by the defaults, blocks firing and is reported with its first failing field (R504, R505). A new block is refused
under LOCK, with a bad CRC, or outside the write window, and is written otherwise (R506). Boot data goes to SRAM, and the ROM's end starts the
core or posts BOOT_FAIL (R507). -/
def Obligations.BootAndOptions : Prop :=
  (∀ s : State, s.rst.asserted = [1] → s.on RST_VBAT_CTRL_THERM_LATCH = false → s.rst.vbatGone = false → 0 ∈ s.rst.todo → 12 ∈ s.rst.todo →
    s.on (RST_ISLAND_CLK_GOOD 12) = false →
    ∃ t, exec (.powerOn 0) s = .next t ∧ t.islandRuns 0 = true ∧ t.get (RST_ISLAND_RSTATE 12) = 2 ∧
      Alters s t { s with rst := { s.rst with strapHold := false, corePwr := true, asserted := [], todo := s.rst.todo.filter (fun x => x != 0) } }
        [RST_ISLAND 0, RST_ISLAND 12]) ∧
  (∀ (s : State) (mode : Fin 4), mode ≠ 0 → s.rst.asserted = [1] → s.on RST_VBAT_CTRL_THERM_LATCH = false → s.rst.vbatGone = false →
    s.rst.cover ≠ [] → (∀ k : Fin 17, k.val ∈ s.rst.todo) →
    ∃ t, exec (.powerOn mode) s = .next t ∧ t.rst.strapHold = true ∧ t.rst.corePwr = true ∧ t.islandRuns 0 = true ∧
      (∀ k : Fin 17, k.val ≠ 0 → t.get (RST_ISLAND_RSTATE k) = 1)) ∧
  (∀ (s : State) (b : List Byte), b = Mem.reads s.mram 0x00700000 64 → optFail b = none → (b.getD 5 0).toNat = 0 →
    ∃ t, exec (.optionBlockLoad []) s = .next t ∧ t.on RST_OPT_STATUS_OPT_BAD = false ∧ t.on RST_OPT_STATUS_FIRE_BLOCK = false ∧
      t.on RST_OPT_STATUS_LOCK = bit (b.getD 6 0).toNat 0 ∧ t.on RST_OPT_STATUS_BOOT_SRC = bit (b.getD 3 0).toNat 0 ∧ t.get PAR_CFG_ROLE = 0 ∧
      (∀ i : Fin 16, t.get (RST_OPT_DATA i) = leNat ((b.drop (4 * i)).take 4)) ∧ t.rst.pins = false ∧
      Alters s t { s with rst := t.rst } ((List.range 16).map RST_OPT ++ (List.range 4).map PIN_FUNC ++ [PIN_OUT, RST_OPT_STATUS, PAR_CFG])) ∧
  (∀ (s : State) (b : List Byte), b = Mem.reads s.mram 0x00700000 64 → optFail b = none → 0 < (b.getD 5 0).toNat →
    s.pstate ≠ psACTIVE → s.pstate ≠ psYIELDING → s.islandRuns 2 = true →
    ∃ t, exec (.optionBlockLoad []) s = .next t ∧ t.get PAR_CFG_ROLE = (b.getD 5 0).toNat ∧
      (∀ k : Fin 17, 2 ≤ k.val → k.val ≤ 10 → t.get (RST_ISLAND_RSTATE k) = 1)) ∧
  (∀ (s : State) (f : Nat), optFail (Mem.reads s.mram 0x00700000 64) = some f →
    ∃ t, exec (.optionBlockLoad []) s = .next t ∧ t.on RST_OPT_STATUS_OPT_BAD = true ∧ t.on RST_OPT_STATUS_FIRE_BLOCK = true ∧
      t.on PAR_STATUS_AUTH = false ∧ t.get PAR_CFG_ROLE = 0 ∧ t.on RST_OPT_STATUS_LOCK = false ∧ t.on RST_OPT_STATUS_BOOT_SRC = false ∧
      Posts s t Ev.OPT_BAD 0xFFFF [f] ∧
      AltersPosting s t { s with rst := t.rst, mram := t.mram } ((List.range 16).map RST_OPT ++ (List.range 4).map PIN_FUNC ++
        [PIN_OUT, RST_OPT_STATUS, PAR_CFG, PAR_STATUS, RST_IRQ_CAUSE, NVM_STATUS, NVM_LOG_HEAD, RST_VBAT_CTRL])) ∧
  (∀ (s : State) (req : Fin 6) (v : Word), req ≠ 5 → s.islandRuns 0 = true → v.toNat % 256 ≠ 0xC3 →
    ∃ t, exec (.nvmOptCmd req v) s = .next t ∧ Silent s t []) ∧
  (∀ (s : State) (req : Fin 6) (v : Word) (b : List Byte) (why : Nat), req ≠ 5 → s.islandRuns 0 = true → v.toNat % 256 = 0xC3 →
    b = ((List.range 16).map (fun i => leBytes 4 (s.get (NVM_OPT_STAGE_DATA i)))).flatten →
    why = (if s.on RST_OPT_STATUS_LOCK = true then 1 else if leNat (b.drop 60) ≠ crc32c (b.take 60) then 2 else 3) →
    s.on RST_OPT_STATUS_LOCK = true ∨ leNat (b.drop 60) ≠ crc32c (b.take 60) ∨ s.on NVM_STATUS_IN_WINDOW = false →
    ∃ t, exec (.nvmOptCmd req v) s = .next t ∧ Posts s t Ev.OPT_REFUSED 0xFFFF [why] ∧ Touches s t [NVM_IRQ_CAUSE]) ∧
  (∀ (s : State) (req : Fin 6) (v : Word) (b : List Byte), req ≠ 5 → s.islandRuns 0 = true → v.toNat % 256 = 0xC3 →
    b = ((List.range 16).map (fun i => leBytes 4 (s.get (NVM_OPT_STAGE_DATA i)))).flatten → s.on RST_OPT_STATUS_LOCK = false →
    leNat (b.drop 60) = crc32c (b.take 60) → s.on NVM_STATUS_IN_WINDOW = true →
    ∃ t, exec (.nvmOptCmd req v) s = .next t ∧ Posts s t Ev.OPT_WRITTEN 0xFFFF [leNat (b.drop 60)] ∧
      AltersPosting s t { s with mram := Mem.writes s.mram 0x00700000 b } [NVM_IRQ_CAUSE]) ∧
  (∀ (s : State) (req : Fin 6) (v : Word), req ≠ 5 → s.islandRuns 0 = true →
    ∃ t, exec (.rstBootDataWrite req v) s = .next t ∧ t.get RST_BOOT_ADDR_ADDR = (s.get RST_BOOT_ADDR_ADDR + 1) % 2 ^ 19 ∧
      Alters s t { s with rst := { s.rst with sram := Mem.writes s.rst.sram (4 * s.get RST_BOOT_ADDR_ADDR) (leBytes 4 v.toNat) } } [RST_BOOT_ADDR]) ∧
  (∀ (s : State) (req : Fin 6), req ≠ 5 → s.islandRuns 0 = true →
    ∃ t, exec (.go req) s = .next t ∧ t.on RST_BOOT_CTRL_GO = true ∧ Silent s t [RST_BOOT_CTRL]) ∧
  (∀ (s : State) (entry : Word), s.islandRuns 13 = true → s.on RST_OPT_STATUS_BOOT_SRC = true ∨ s.on RST_BOOT_CTRL_GO = true →
    s.on RST_BOOT_CTRL_DONE = false →
    ∃ t, exec (.bootComplete none entry) s = .next t ∧ t.on RST_BOOT_CTRL_DONE = true ∧
      Alters s t { s with rst := { s.rst with entry := entry.toNat } } [RST_BOOT_CTRL]) ∧
  (∀ (s : State) (entry : Word) (f : Fin 6), s.islandRuns 13 = true → s.on RST_OPT_STATUS_BOOT_SRC = true ∨ s.on RST_BOOT_CTRL_GO = true →
    s.on RST_BOOT_CTRL_DONE = false → f = 3 ∨ f = 4 → s.on RST_OPT_STATUS_LOCK = true →
    ∃ t, exec (.bootComplete (some f) entry) s = .next t ∧ t.on RST_BOOT_CTRL_DONE = false ∧ t.on RST_BOOT_CTRL_SIG_FAIL = true ∧
      Posts s t Ev.BOOT_FAIL 0xFFFF [f])

/-- Temperatures and the thermal shutdown. A level write takes effect only with WARN < THROTTLE < SHUT ≤ 130 °C and a hysteresis
of 1 °C to 10 °C, and not under LOCK (R516). A slow round takes every reading, a fast one those of the fast group (R512); one out of
range breaks its sensor (R514); a reading at WARN posts THM_WARN, at SHUT it forces the shutdown, which resets every island but the always-on one and the host's (R515,
R518). CORE_PWR_EN goes low 1 ms later (R518); SHUT_CLR ends the shutdown once the temperature is below SHUT less the
hysteresis, else it sets CMD_ERR (R519). -/
def Obligations.ThermalShutdown : Prop :=
  (∀ (s : State) (req : Fin 6) (v : Word), req ≠ 5 → s.islandRuns 0 = true → s.on THM_CTRL_LOCK = false → sgn 16 v.toNat < sgn 16 (v.toNat / 65536) →
    sgn 16 (v.toNat / 65536) < s.thrShut → s.thrShut ≤ 8320 → 64 ≤ s.thrHyst → s.thrHyst ≤ 640 →
    ∃ t, exec (.thmLevelWrite req false v) s = .next t ∧ t.rget THM_LEVEL0 = v ∧ Silent s t [THM_LEVEL0]) ∧
  (∀ (s : State) (req : Fin 6) (v : Word), req ≠ 5 → s.islandRuns 0 = true → s.on THM_CTRL_LOCK = false → s.thrWarn < s.thrThrottle →
    s.thrThrottle < sgn 16 v.toNat → sgn 16 v.toNat ≤ 8320 → 64 ≤ sgn 16 (v.toNat / 65536) → sgn 16 (v.toNat / 65536) ≤ 640 →
    ∃ t, exec (.thmLevelWrite req true v) s = .next t ∧ t.rget THM_LEVEL1 = v ∧ Silent s t [THM_LEVEL1]) ∧
  (∀ (s : State) (req : Fin 6) (v : Word), req ≠ 5 → s.islandRuns 0 = true → s.on THM_CTRL_LOCK = false →
    s.thrThrottle ≥ sgn 16 v.toNat ∨ 8320 < sgn 16 v.toNat ∨ sgn 16 (v.toNat / 65536) < 64 ∨ 640 < sgn 16 (v.toNat / 65536) →
    ∃ t, exec (.thmLevelWrite req true v) s = .next t ∧ t.on THM_CTRL_CMD_ERR = true ∧ Silent s t [THM_CTRL]) ∧
  (∀ (s : State) (req : Fin 6) (second : Bool) (v : Word), req ≠ 5 → s.islandRuns 0 = true → s.on THM_CTRL_LOCK = true →
    ∃ t, exec (.thmLevelWrite req second v) s = .next t ∧ Silent s t []) ∧
  (∀ (s : State) (die : List (BitVec 16)) (ext hk : List (BitVec 12)), die.length = 24 → ext.length = 32 → hk.length = 32 →
    ∃ t, exec (.housekeepingSlowRound die ext hk) s = .next t ∧ (∀ k : Fin 24, t.dieT k = (die.getD k 0).toInt) ∧
      (∀ k : Fin 32, t.get (THM_HK_CODE k) = (hk.getD k 0).toNat)) ∧
  (∀ (s : State) (die : List (BitVec 16)) (ext hk : List (BitVec 12)) (k : Fin 24), die.length = 24 → ext.length = 32 → hk.length = 32 →
    s.thm.die.length = 24 → (die.getD k 0).toInt < -3520 ∨ 9600 < (die.getD k 0).toInt → s.on (THM_DIE_BROKEN k) = false →
    s.thm.latchHold = false →
    ∃ t, exec (.housekeepingSlowRound die ext hk) s = .next t ∧ t.on (THM_DIE_BROKEN k) = true ∧ t.get (THM_DIE_REASON k) = 1 ∧
      PostsSome s t Ev.SENSOR_BROKEN k) ∧
  (∀ (s : State) (die : List (BitVec 16)) (ext hk : List (BitVec 12)), die.length = 24 → ext.length = 32 → hk.length = 32 →
    s.thm.ext.length = 32 → (s.thm.ext.getD 0 (0, 0)).1 = 7 → (ext.getD 0 0).toNat ≤ 15 ∨ 4080 ≤ (ext.getD 0 0).toNat →
    s.on (THM_EXT_BROKEN 0) = false →
    ∃ t, exec (.housekeepingSlowRound die ext hk) s = .next t ∧ t.on (THM_EXT_BROKEN 0) = true ∧ Posts s t Ev.SENSOR_BROKEN 0 [1, 1]) ∧
  (∀ (s : State) (v : BitVec 16) (ext hk : List (BitVec 12)), ext.length = 32 → hk.length = 32 → s.thm.throt = true →
    s.thm.die.length = 24 → (∀ k : Fin 24, (s.dieS k).seen = false) → s.thrThrottle - s.thrHyst ≤ v.toInt →
    ∃ t, exec (.housekeepingSlowRound (List.replicate 24 v) ext hk) s = .next t ∧
      t.get THM_THROTTLE_MS_MS = min (2 ^ 32 - 1) (s.get THM_THROTTLE_MS_MS + 1)) ∧
  (∀ (s : State) (v : BitVec 16) (ext hk : List (BitVec 12)), ext.length = 32 → hk.length = 32 → s.thm.die.length = 24 →
    (∀ k : Fin 24, (s.dieS k).seen = false) → s.on (THM_DIE_BROKEN 0) = false → s.thm.warn = false → -3520 ≤ v.toInt → v.toInt ≤ 9600 →
    s.thrWarn ≤ v.toInt → v.toInt < s.thrShut → 0 ≤ s.thrHyst →
    ∃ t, exec (.housekeepingSlowRound (List.replicate 24 v) ext hk) s = .next t ∧ t.getS THM_STATUS_T_DIE = v.toInt ∧ t.thm.warn = true ∧
      PostsSome s t Ev.THM_WARN 0xFFFF) ∧
  (∀ (s : State) (v : BitVec 16) (ext hk : List (BitVec 12)), ext.length = 32 → hk.length = 32 → s.thm.die.length = 24 →
    (∀ k : Fin 24, (s.dieS k).seen = false) → s.on (THM_DIE_BROKEN 0) = false → s.thm.shut = false → s.thm.latchHold = false →
    -3520 ≤ v.toInt → v.toInt ≤ 9600 → s.thrShut ≤ v.toInt →
    ∃ t, exec (.housekeepingSlowRound (List.replicate 24 v) ext hk) s = .next t ∧ t.thm.shut = true ∧ t.get THM_STATUS_LEVEL = 3 ∧
      8 ∈ t.rst.asserted ∧ t.on PAR_STATUS_AUTH = false ∧ t.web.thermStop = true ∧ (∀ k : Fin 17, 2 ≤ k.val → t.islandRuns k = false) ∧
      PostsSome s t Ev.THM_SHUTDOWN 0xFFFF) ∧
  (∀ (s : State) (die : List (BitVec 16)), (∀ k : Fin 24, s.on (THM_DIE_FAST k) = false) →
    ∃ t, exec (.dieFastRead die) s = .next t ∧ Silent s t []) ∧
  (∀ (s : State) (die : List (BitVec 16)), die.length = 24 → s.thm.die.length = 24 → s.on (THM_DIE_FAST 0) = true →
    (die.getD 0 0).toInt < -3520 ∨ 9600 < (die.getD 0 0).toInt → s.on (THM_DIE_BROKEN 0) = false →
    ∃ t, exec (.dieFastRead die) s = .next t ∧ (∀ k : Fin 24, s.on (THM_DIE_FAST k) = true → t.dieT k = (die.getD k 0).toInt) ∧
      (∀ k : Fin 24, s.on (THM_DIE_FAST k) = false → t.dieT k = s.dieT k) ∧ t.on (THM_DIE_BROKEN 0) = true ∧
      t.get (THM_DIE_REASON 0) = 1 ∧ Posts s t Ev.SENSOR_BROKEN 0 [0, 1]) ∧
  (∀ s : State, s.thm.shut = true →
    ∃ t, exec .corePwrOffTimer s = .next t ∧ Alters s t { s with rst := { s.rst with corePwr := false } } []) ∧
  (∀ (s : State) (req : Fin 6) (d : Int), req ≠ 5 → s.islandRuns 0 = true → s.tDie = some d → s.thrShut - s.thrHyst ≤ d →
    ∃ t, exec (.shutClr req) s = .next t ∧ t.on THM_CTRL_CMD_ERR = true ∧ Silent s t [THM_CTRL]) ∧
  (∀ (s : State) (req : Fin 6) (d : Int), req ≠ 5 → s.islandRuns 0 = true → s.tDie = some d → d < s.thrShut - s.thrHyst → s.thm.shut = true →
    s.rst.asserted = [8] →
    ∃ t, exec (.shutClr req) s = .next t ∧ t.thm.shut = false ∧ t.rst.asserted = [] ∧ t.rst.corePwr = true ∧ t.web.thermStop = false)

/-- Serial lanes: settings, tests, idle power. Each step brings the live equaliser one code nearer its target, taps included (R530). The lane of a
port that is UP is measured every millisecond, and a figure of merit below the minimum is shown and reported once (R531). In phase 0 an idle
port's lanes take the power state chosen and wake for signal or for a probe (R532). LOOP takes effect only on a lane that is ON by TEST_EN
(R534). The checker counts errors and bits while locked, and a lost lock (R535); a standby loopback test that fails posts LOOP_FAIL
and takes READY away (R536). -/
def Obligations.LaneSettings : Prop :=
  (∀ (s : State) (l : Fin 52), ∃ t, exec (.laneEqStep l) s = .next t ∧
    (s.get (SDS_RX_CTLE_LIVE l) < s.get (SDS_RX_CTLE_TARGET l) → t.get (SDS_RX_CTLE_LIVE l) = s.get (SDS_RX_CTLE_LIVE l) + 1) ∧
    (s.get (SDS_RX_CTLE_TARGET l) < s.get (SDS_RX_CTLE_LIVE l) → t.get (SDS_RX_CTLE_LIVE l) = s.get (SDS_RX_CTLE_LIVE l) - 1) ∧
    (s.get (SDS_RX_CTLE_TARGET l) = s.get (SDS_RX_CTLE_LIVE l) → t.get (SDS_RX_CTLE_LIVE l) = s.get (SDS_RX_CTLE_LIVE l)) ∧
    t.get (SDS_RX_CTLE_TARGET l) = s.get (SDS_RX_CTLE_TARGET l) ∧
    (∀ i : Fin 5, (t.eqLive l).taps.getD i 0 = stepInt ((s.eqLive l).taps.getD i 0) ((s.eqTarget l).taps.getD i 0)) ∧
    Silent s t [SDS_RX_CTLE l, SDS_RX_DFE_LIVE l]) ∧
  (∀ (s : State) (l : Fin 52) (w h : Fin 128), s.laneUp l = false ∨ (s.lane l).covered = true →
    ∃ t, exec (.laneFomCheck l w h) s = .next t ∧ Silent s t []) ∧
  (∀ (s : State) (l : Fin 52) (w h : Fin 128), s.laneUp l = true → (s.lane l).covered = false → s.lanes.length = 52 →
    min 255 (w.val * h.val / 32) < s.get SDS_ADAPT_CFG_FOM_MIN → (s.lane l).low = false →
    ∃ t, exec (.laneFomCheck l w h) s = .next t ∧ t.get (SDS_EYE_W l) = w ∧ t.get (SDS_EYE_H l) = h ∧
      t.get (SDS_EYE_FOM l) = min 255 (w.val * h.val / 32) ∧ t.on SDS_IRQ_CAUSE_LOW_NOW = true ∧ (t.lane l).low = true ∧
      Posts s t Ev.LOW_FOM l [min 255 (w.val * h.val / 32), s.get SDS_ADAPT_CFG_FOM_MIN, w, h]) ∧
  (∀ (s : State) (l : Fin 52) (w h : Fin 128), s.laneUp l = true → (s.lane l).covered = false →
    s.get SDS_ADAPT_CFG_FOM_MIN ≤ min 255 (w.val * h.val / 32) →
    ∃ t, exec (.laneFomCheck l w h) s = .next t ∧ t.get (SDS_EYE_FOM l) = min 255 (w.val * h.val / 32) ∧
      Alters s t { s with lanes := s.lanes.set l { s.lane l with fom := min 255 (w.val * h.val / 32), low := false } } [SDS_EYE l, SDS_IRQ_CAUSE]) ∧
  (∀ (s : State) (l : Fin 52), s.lanePhase0 l = true → s.ust (.lane l) = .on →
    (portLanes l).all (fun k => !s.on (SDS_LANE_STATUS_SIG_DET k)) = true → 0 < s.get (SDS_LANE_CFG_IDLE_PWR l) →
    ∃ t, exec (.laneIdleEntry l) s = .next t ∧ t.get (SDS_LANE_STATUS_PWR l) = min 2 (s.get (SDS_LANE_CFG_IDLE_PWR l)) ∧
      Silent s t [SDS_LANE_STATUS l]) ∧
  (∀ (s : State) (l : Fin 52), s.lanePhase0 l = true → s.ust (.lane l) = .on →
    s.get (SDS_LANE_STATUS_PWR l) = 1 ∨ s.get (SDS_LANE_STATUS_PWR l) = 2 →
    ∃ t, exec (.laneIdleWake l) s = .next t ∧ t.get (SDS_LANE_STATUS_PWR l) = 0 ∧ Silent s t [SDS_LANE_STATUS l]) ∧
  (∀ (s : State) (l : Fin 52), s.lanePhase0 l = true → s.ust (.lane l) = .on →
    ∃ t, exec (.laneSignalDetect l) s = .next t ∧ t.on (SDS_LANE_STATUS_SIG_DET l) = true ∧ t.get (SDS_LANE_STATUS_PWR l) = 0 ∧
      Alters s t { s with lanes := s.lanes.set l { s.lane l with testing := false } } ((portLanes l).map SDS_LANE_STATUS)) ∧
  (∀ (s : State) (req : Fin 6) (l : Fin 52) (v : Word), req ≠ 5 → s.islandRuns 11 = true → bits v.toNat 5 4 = 0 ∨ s.testOn l = true →
    ∃ t, exec (.loopWrite req l v) s = .next t ∧ t.get (SDS_LANE_CFG_LOOP l) = bits v.toNat 5 4 ∧ Silent s t [SDS_LANE_CFG l]) ∧
  (∀ (s : State) (req : Fin 6) (l : Fin 52) (v : Word), req ≠ 5 → s.islandRuns 11 = true → bits v.toNat 5 4 ≠ 0 → s.testOn l = false →
    ∃ t, exec (.loopWrite req l v) s = .next t ∧ t.on (SDS_LANE_STATUS_CMD_ERR l) = true ∧ Silent s t [SDS_LANE_STATUS l]) ∧
  (∀ (s : State) (l : Fin 52) (errors mbits : Nat), s.on (SDS_PRBS_CFG_CHK_EN l) = true → s.on (SDS_LANE_STATUS_PRBS_LOCK l) = false →
    ∃ t, exec (.prbsCheckerLock l true errors mbits) s = .next t ∧ t.on (SDS_LANE_STATUS_PRBS_LOCK l) = true ∧ Silent s t [SDS_LANE_STATUS l]) ∧
  (∀ (s : State) (l : Fin 52) (errors mbits : Nat), s.on (SDS_PRBS_CFG_CHK_EN l) = true → s.on (SDS_LANE_STATUS_PRBS_LOCK l) = true →
    ∃ t, exec (.prbsCheckerLock l false errors mbits) s = .next t ∧ t.on (SDS_LANE_STATUS_PRBS_LOCK l) = false ∧
      t.get (SDS_ERR_COUNT_COUNT l) = min (2 ^ 32 - 1) (s.get (SDS_ERR_COUNT_COUNT l) + errors) ∧
      t.get (SDS_BITS_CHECKED_COUNT l) = min (2 ^ 32 - 1) (s.get (SDS_BITS_CHECKED_COUNT l) + mbits) ∧
      t.get (SDS_LOCK_LOSS_COUNT_COUNT l) = min (2 ^ 32 - 1) (s.get (SDS_LOCK_LOSS_COUNT_COUNT l) + 1) ∧
      Silent s t [SDS_LANE_STATUS l, SDS_ERR_COUNT l, SDS_BITS_CHECKED l, SDS_LOCK_LOSS_COUNT l]) ∧
  (∀ (s : State) (l : Fin 52) (mbits : Nat), (s.lane l).testing = true → s.loopQuiet l = true → (∀ k : Fin 52, k ≠ l → (s.lane k).loopBad = false) →
    s.lanes.length = 52 →
    ∃ t, exec (.loopbackTestEnd l 0 mbits) s = .next t ∧
      Alters s t { s with lanes := s.lanes.set l { s.lane l with testing := false, loopBad := false }, par := { s.par with loopOk := true } } []) ∧
  (∀ (s : State) (l : Fin 52) (errors mbits : Nat), (s.lane l).testing = true → s.loopQuiet l = true → 0 < errors → s.lanes.length = 52 →
    ∃ t, exec (.loopbackTestEnd l errors mbits) s = .next t ∧ t.on PAR_HEALTH_READY = false ∧ Posts s t Ev.LOOP_FAIL l [1, errors, mbits] ∧
      (s.on PAR_HEALTH_READY = true → PostsSome s t Ev.HEALTH_CHANGE 0xFFFF) ∧
      AltersPosting s t { s with lanes := s.lanes.set l { s.lane l with testing := false, loopBad := true }, par := { s.par with loopOk := false } }
        [SDS_IRQ_CAUSE, PAR_HEALTH, PAR_IRQ_CAUSE]) ∧
  (∀ (s : State) (l : Fin 52) (errors mbits : Nat), (s.lane l).testing = true → s.loopQuiet l = false →
    ∃ t, exec (.loopbackTestEnd l errors mbits) s = .next t ∧
      Alters s t { s with lanes := s.lanes.set l { s.lane l with testing := false } } [])

/-- Training of the serial lanes. A block that is no TRAIN block, or whose check is wrong, changes no setting. A request of the far end moves one
coefficient, the preset sets 3, 50 and 10, and the answer stands until the request is withdrawn (R525). The first receiver
search of an adapting lane is the best so far and starts with a request to raise the post-cursor tap (R528); while a LANE run covers a lane
that is UP, its search result is kept for the run (R529). -/
def Obligations.LaneTraining : Prop :=
  (∀ (s : State) (l : Fin 52) (v : BitVec 64), bits v.toNat 63 56 ≠ 0x2D → ∃ t, exec (.trainBlockReceived l v) s = .next t ∧ Silent s t []) ∧
  (∀ (s : State) (l : Fin 52) (v : BitVec 64), 48 ≤ l.val → bits v.toNat 63 56 = 0x2D →
    State.trainBlock.frameCheck8' v.toNat ≠ bits v.toNat 7 0 → ∃ t, exec (.trainBlockReceived l v) s = .next t ∧ Silent s t []) ∧
  (∀ (s : State) (l : Fin 52) (v : BitVec 64), 48 ≤ l.val → bits v.toNat 63 56 = 0x2D →
    State.trainBlock.frameCheck8' v.toNat = bits v.toNat 7 0 → s.lanePhase0 l = true → s.adapting l = false → bits v.toNat 51 46 = 1 →
    (s.lane l).stat = [0, 0, 0] → s.get (SDS_TX_FFE_POST l) < 31 →
    s.get (SDS_TX_FFE_PRE l) + s.get (SDS_TX_FFE_MAIN l) + s.get (SDS_TX_FFE_POST l) < 63 →
    ∃ t, exec (.trainBlockReceived l v) s = .next t ∧ t.ffe l = [s.get (SDS_TX_FFE_PRE l), s.get (SDS_TX_FFE_MAIN l), s.get (SDS_TX_FFE_POST l) + 1] ∧
      Alters s t { s with lanes := s.lanes.set l { s.lane l with stat := [0, 0, 1] } } [SDS_TX_FFE l]) ∧
  (∀ (s : State) (l : Fin 52) (v : BitVec 64), 48 ≤ l.val → bits v.toNat 63 56 = 0x2D →
    State.trainBlock.frameCheck8' v.toNat = bits v.toNat 7 0 → s.lanePhase0 l = true → s.adapting l = false → bits v.toNat 51 46 = 3 →
    (s.lane l).stat ≠ [1, 1, 1] →
    ∃ t, exec (.trainBlockReceived l v) s = .next t ∧ t.ffe l = [3, 50, 10] ∧
      Alters s t { s with lanes := s.lanes.set l { s.lane l with stat := [1, 1, 1] } } [SDS_TX_FFE l]) ∧
  (∀ (s : State) (l : Fin 52) (v : BitVec 64), 48 ≤ l.val → bits v.toNat 63 56 = 0x2D →
    State.trainBlock.frameCheck8' v.toNat = bits v.toNat 7 0 → s.lanePhase0 l = true → s.adapting l = false → bits v.toNat 51 46 = 0 →
    ∃ t, exec (.trainBlockReceived l v) s = .next t ∧
      Alters s t { s with lanes := s.lanes.set l { s.lane l with stat := [0, 0, 0] } } [SDS_TX_FFE l] ∧ t.ffe l = s.ffe l) ∧
  (∀ (s : State) (l : Fin 52) (v : BitVec 64), l.val < 48 → bits v.toNat 63 56 = 0x2D →
    State.trainBlock.frameCheck8' v.toNat = bits v.toNat 7 0 → s.get (HLK_PORT_STATUS_PHASE (l / 2)) ≠ 2 →
    bit (bits v.toNat 31 24) (s.get (HLK_PORT_CFG_RATE (l / 2))) = true → ∃ t, exec (.trainBlockReceived l v) s = .next t ∧ Silent s t []) ∧
  (∀ (s : State) (l : Fin 52) (c : Fin 16) (taps : List Int) (fom : BitVec 8), s.adapting l = true → (s.lane l).req = 0 →
    (s.lane l).searched = false → (s.lane l).reqs < s.maxReq → s.lanes.length = 52 →
    ∃ t, exec (.rxSearchDone l c taps fom) s = .next t ∧ (t.lane l).best = { ctle := c.val, taps := taps } ∧ (t.lane l).bestFom = fom.toNat ∧
      (t.lane l).req = 1 ∧ (t.lane l).tap = 0 ∧ (t.lane l).reqs = (s.lane l).reqs + 1 ∧
      Alters s t { s with lanes := s.lanes.set l (t.lane l) } []) ∧
  (∀ (s : State) (l k : Fin 52) (c : Fin 16) (taps : List Int) (fom : BitVec 8), s.adapting l = false → (s.lane l).covered = true →
    s.runState chLANE = rsRUNNING → k ≠ l → (s.lane k).covered = true → (s.lane k).result = none →
    ∃ t, exec (.rxSearchDone l c taps fom) s = .next t ∧
      Alters s t { s with lanes := s.lanes.set l { s.lane l with result := some ({ ctle := c.val, taps := taps }, fom.toNat) } } [])
end

