-- ==== Sys2Proof/Laws/State.lean ====
section
/-!
SUPPORT. What each update of the state leaves alone: one lemma per field and update, each true by unfolding the record update.
-/
namespace Sys2Proof.Machine

variable (s : State)

/-! ### State.rset -/
@[simp] theorem State.rset_pending (a : Nat) (v : Word) : (s.rset a v).pending = s.pending := by cases s; rfl
@[simp] theorem State.rset_read (a : Nat) (v : Word) : (s.rset a v).read = s.read := by cases s; rfl
@[simp] theorem State.rset_time (a : Nat) (v : Word) : (s.rset a v).time = s.time := by cases s; rfl
@[simp] theorem State.rset_hif (a : Nat) (v : Word) : (s.rset a v).hif = s.hif := by cases s; rfl
@[simp] theorem State.rset_unitFaults (a : Nat) (v : Word) : (s.rset a v).unitFaults = s.unitFaults := by cases s; rfl
@[simp] theorem State.rset_mirrorUnit (a : Nat) (v : Word) : (s.rset a v).mirrorUnit = s.mirrorUnit := by cases s; rfl
@[simp] theorem State.rset_hostMem (a : Nat) (v : Word) : (s.rset a v).hostMem = s.hostMem := by cases s; rfl
@[simp] theorem State.rset_dram (a : Nat) (v : Word) : (s.rset a v).dram = s.dram := by cases s; rfl
@[simp] theorem State.rset_poison (a : Nat) (v : Word) : (s.rset a v).poison = s.poison := by cases s; rfl
@[simp] theorem State.rset_mram (a : Nat) (v : Word) : (s.rset a v).mram = s.mram := by cases s; rfl
@[simp] theorem State.rset_press (a : Nat) (v : Word) : (s.rset a v).press = s.press := by cases s; rfl
@[simp] theorem State.rset_cmx (a : Nat) (v : Word) : (s.rset a v).cmx = s.cmx := by cases s; rfl
@[simp] theorem State.rset_heads (a : Nat) (v : Word) : (s.rset a v).heads = s.heads := by cases s; rfl
@[simp] theorem State.rset_ldg (a : Nat) (v : Word) : (s.rset a v).ldg = s.ldg := by cases s; rfl
@[simp] theorem State.rset_web (a : Nat) (v : Word) : (s.rset a v).web = s.web := by cases s; rfl
@[simp] theorem State.rset_dmc (a : Nat) (v : Word) : (s.rset a v).dmc = s.dmc := by cases s; rfl
@[simp] theorem State.rset_par (a : Nat) (v : Word) : (s.rset a v).par = s.par := by cases s; rfl
@[simp] theorem State.rset_cal (a : Nat) (v : Word) : (s.rset a v).cal = s.cal := by cases s; rfl
@[simp] theorem State.rset_cam (a : Nat) (v : Word) : (s.rset a v).cam = s.cam := by cases s; rfl
@[simp] theorem State.rset_bars (a : Nat) (v : Word) : (s.rset a v).bars = s.bars := by cases s; rfl
@[simp] theorem State.rset_lanes (a : Nat) (v : Word) : (s.rset a v).lanes = s.lanes := by cases s; rfl
@[simp] theorem State.rset_enc (a : Nat) (v : Word) : (s.rset a v).enc = s.enc := by cases s; rfl
@[simp] theorem State.rset_axes (a : Nat) (v : Word) : (s.rset a v).axes = s.axes := by cases s; rfl
@[simp] theorem State.rset_lpe (a : Nat) (v : Word) : (s.rset a v).lpe = s.lpe := by cases s; rfl
@[simp] theorem State.rset_pwm (a : Nat) (v : Word) : (s.rset a v).pwm = s.pwm := by cases s; rfl
@[simp] theorem State.rset_net (a : Nat) (v : Word) : (s.rset a v).net = s.net := by cases s; rfl
@[simp] theorem State.rset_rst (a : Nat) (v : Word) : (s.rset a v).rst = s.rst := by cases s; rfl
@[simp] theorem State.rset_thm (a : Nat) (v : Word) : (s.rset a v).thm = s.thm := by cases s; rfl

/-! ### State.put -/
@[simp] theorem State.put_pending (f : Fld) (x : Nat) : (s.put f x).pending = s.pending := by cases s; rfl
@[simp] theorem State.put_read (f : Fld) (x : Nat) : (s.put f x).read = s.read := by cases s; rfl
@[simp] theorem State.put_time (f : Fld) (x : Nat) : (s.put f x).time = s.time := by cases s; rfl
@[simp] theorem State.put_hif (f : Fld) (x : Nat) : (s.put f x).hif = s.hif := by cases s; rfl
@[simp] theorem State.put_unitFaults (f : Fld) (x : Nat) : (s.put f x).unitFaults = s.unitFaults := by cases s; rfl
@[simp] theorem State.put_mirrorUnit (f : Fld) (x : Nat) : (s.put f x).mirrorUnit = s.mirrorUnit := by cases s; rfl
@[simp] theorem State.put_hostMem (f : Fld) (x : Nat) : (s.put f x).hostMem = s.hostMem := by cases s; rfl
@[simp] theorem State.put_dram (f : Fld) (x : Nat) : (s.put f x).dram = s.dram := by cases s; rfl
@[simp] theorem State.put_poison (f : Fld) (x : Nat) : (s.put f x).poison = s.poison := by cases s; rfl
@[simp] theorem State.put_mram (f : Fld) (x : Nat) : (s.put f x).mram = s.mram := by cases s; rfl
@[simp] theorem State.put_press (f : Fld) (x : Nat) : (s.put f x).press = s.press := by cases s; rfl
@[simp] theorem State.put_cmx (f : Fld) (x : Nat) : (s.put f x).cmx = s.cmx := by cases s; rfl
@[simp] theorem State.put_heads (f : Fld) (x : Nat) : (s.put f x).heads = s.heads := by cases s; rfl
@[simp] theorem State.put_ldg (f : Fld) (x : Nat) : (s.put f x).ldg = s.ldg := by cases s; rfl
@[simp] theorem State.put_web (f : Fld) (x : Nat) : (s.put f x).web = s.web := by cases s; rfl
@[simp] theorem State.put_dmc (f : Fld) (x : Nat) : (s.put f x).dmc = s.dmc := by cases s; rfl
@[simp] theorem State.put_par (f : Fld) (x : Nat) : (s.put f x).par = s.par := by cases s; rfl
@[simp] theorem State.put_cal (f : Fld) (x : Nat) : (s.put f x).cal = s.cal := by cases s; rfl
@[simp] theorem State.put_cam (f : Fld) (x : Nat) : (s.put f x).cam = s.cam := by cases s; rfl
@[simp] theorem State.put_bars (f : Fld) (x : Nat) : (s.put f x).bars = s.bars := by cases s; rfl
@[simp] theorem State.put_lanes (f : Fld) (x : Nat) : (s.put f x).lanes = s.lanes := by cases s; rfl
@[simp] theorem State.put_enc (f : Fld) (x : Nat) : (s.put f x).enc = s.enc := by cases s; rfl
@[simp] theorem State.put_axes (f : Fld) (x : Nat) : (s.put f x).axes = s.axes := by cases s; rfl
@[simp] theorem State.put_lpe (f : Fld) (x : Nat) : (s.put f x).lpe = s.lpe := by cases s; rfl
@[simp] theorem State.put_pwm (f : Fld) (x : Nat) : (s.put f x).pwm = s.pwm := by cases s; rfl
@[simp] theorem State.put_net (f : Fld) (x : Nat) : (s.put f x).net = s.net := by cases s; rfl
@[simp] theorem State.put_rst (f : Fld) (x : Nat) : (s.put f x).rst = s.rst := by cases s; rfl
@[simp] theorem State.put_thm (f : Fld) (x : Nat) : (s.put f x).thm = s.thm := by cases s; rfl

/-! ### State.putB -/
@[simp] theorem State.putB_pending (f : Fld) (b : Bool) : (s.putB f b).pending = s.pending := by cases s; rfl
@[simp] theorem State.putB_read (f : Fld) (b : Bool) : (s.putB f b).read = s.read := by cases s; rfl
@[simp] theorem State.putB_time (f : Fld) (b : Bool) : (s.putB f b).time = s.time := by cases s; rfl
@[simp] theorem State.putB_hif (f : Fld) (b : Bool) : (s.putB f b).hif = s.hif := by cases s; rfl
@[simp] theorem State.putB_unitFaults (f : Fld) (b : Bool) : (s.putB f b).unitFaults = s.unitFaults := by cases s; rfl
@[simp] theorem State.putB_mirrorUnit (f : Fld) (b : Bool) : (s.putB f b).mirrorUnit = s.mirrorUnit := by cases s; rfl
@[simp] theorem State.putB_hostMem (f : Fld) (b : Bool) : (s.putB f b).hostMem = s.hostMem := by cases s; rfl
@[simp] theorem State.putB_dram (f : Fld) (b : Bool) : (s.putB f b).dram = s.dram := by cases s; rfl
@[simp] theorem State.putB_poison (f : Fld) (b : Bool) : (s.putB f b).poison = s.poison := by cases s; rfl
@[simp] theorem State.putB_mram (f : Fld) (b : Bool) : (s.putB f b).mram = s.mram := by cases s; rfl
@[simp] theorem State.putB_press (f : Fld) (b : Bool) : (s.putB f b).press = s.press := by cases s; rfl
@[simp] theorem State.putB_cmx (f : Fld) (b : Bool) : (s.putB f b).cmx = s.cmx := by cases s; rfl
@[simp] theorem State.putB_heads (f : Fld) (b : Bool) : (s.putB f b).heads = s.heads := by cases s; rfl
@[simp] theorem State.putB_ldg (f : Fld) (b : Bool) : (s.putB f b).ldg = s.ldg := by cases s; rfl
@[simp] theorem State.putB_web (f : Fld) (b : Bool) : (s.putB f b).web = s.web := by cases s; rfl
@[simp] theorem State.putB_dmc (f : Fld) (b : Bool) : (s.putB f b).dmc = s.dmc := by cases s; rfl
@[simp] theorem State.putB_par (f : Fld) (b : Bool) : (s.putB f b).par = s.par := by cases s; rfl
@[simp] theorem State.putB_cal (f : Fld) (b : Bool) : (s.putB f b).cal = s.cal := by cases s; rfl
@[simp] theorem State.putB_cam (f : Fld) (b : Bool) : (s.putB f b).cam = s.cam := by cases s; rfl
@[simp] theorem State.putB_bars (f : Fld) (b : Bool) : (s.putB f b).bars = s.bars := by cases s; rfl
@[simp] theorem State.putB_lanes (f : Fld) (b : Bool) : (s.putB f b).lanes = s.lanes := by cases s; rfl
@[simp] theorem State.putB_enc (f : Fld) (b : Bool) : (s.putB f b).enc = s.enc := by cases s; rfl
@[simp] theorem State.putB_axes (f : Fld) (b : Bool) : (s.putB f b).axes = s.axes := by cases s; rfl
@[simp] theorem State.putB_lpe (f : Fld) (b : Bool) : (s.putB f b).lpe = s.lpe := by cases s; rfl
@[simp] theorem State.putB_pwm (f : Fld) (b : Bool) : (s.putB f b).pwm = s.pwm := by cases s; rfl
@[simp] theorem State.putB_net (f : Fld) (b : Bool) : (s.putB f b).net = s.net := by cases s; rfl
@[simp] theorem State.putB_rst (f : Fld) (b : Bool) : (s.putB f b).rst = s.rst := by cases s; rfl
@[simp] theorem State.putB_thm (f : Fld) (b : Bool) : (s.putB f b).thm = s.thm := by cases s; rfl

/-! ### State.putS -/
@[simp] theorem State.putS_pending (f : Fld) (x : Int) : (s.putS f x).pending = s.pending := by cases s; rfl
@[simp] theorem State.putS_read (f : Fld) (x : Int) : (s.putS f x).read = s.read := by cases s; rfl
@[simp] theorem State.putS_time (f : Fld) (x : Int) : (s.putS f x).time = s.time := by cases s; rfl
@[simp] theorem State.putS_hif (f : Fld) (x : Int) : (s.putS f x).hif = s.hif := by cases s; rfl
@[simp] theorem State.putS_unitFaults (f : Fld) (x : Int) : (s.putS f x).unitFaults = s.unitFaults := by cases s; rfl
@[simp] theorem State.putS_mirrorUnit (f : Fld) (x : Int) : (s.putS f x).mirrorUnit = s.mirrorUnit := by cases s; rfl
@[simp] theorem State.putS_hostMem (f : Fld) (x : Int) : (s.putS f x).hostMem = s.hostMem := by cases s; rfl
@[simp] theorem State.putS_dram (f : Fld) (x : Int) : (s.putS f x).dram = s.dram := by cases s; rfl
@[simp] theorem State.putS_poison (f : Fld) (x : Int) : (s.putS f x).poison = s.poison := by cases s; rfl
@[simp] theorem State.putS_mram (f : Fld) (x : Int) : (s.putS f x).mram = s.mram := by cases s; rfl
@[simp] theorem State.putS_press (f : Fld) (x : Int) : (s.putS f x).press = s.press := by cases s; rfl
@[simp] theorem State.putS_cmx (f : Fld) (x : Int) : (s.putS f x).cmx = s.cmx := by cases s; rfl
@[simp] theorem State.putS_heads (f : Fld) (x : Int) : (s.putS f x).heads = s.heads := by cases s; rfl
@[simp] theorem State.putS_ldg (f : Fld) (x : Int) : (s.putS f x).ldg = s.ldg := by cases s; rfl
@[simp] theorem State.putS_web (f : Fld) (x : Int) : (s.putS f x).web = s.web := by cases s; rfl
@[simp] theorem State.putS_dmc (f : Fld) (x : Int) : (s.putS f x).dmc = s.dmc := by cases s; rfl
@[simp] theorem State.putS_par (f : Fld) (x : Int) : (s.putS f x).par = s.par := by cases s; rfl
@[simp] theorem State.putS_cal (f : Fld) (x : Int) : (s.putS f x).cal = s.cal := by cases s; rfl
@[simp] theorem State.putS_cam (f : Fld) (x : Int) : (s.putS f x).cam = s.cam := by cases s; rfl
@[simp] theorem State.putS_bars (f : Fld) (x : Int) : (s.putS f x).bars = s.bars := by cases s; rfl
@[simp] theorem State.putS_lanes (f : Fld) (x : Int) : (s.putS f x).lanes = s.lanes := by cases s; rfl
@[simp] theorem State.putS_enc (f : Fld) (x : Int) : (s.putS f x).enc = s.enc := by cases s; rfl
@[simp] theorem State.putS_axes (f : Fld) (x : Int) : (s.putS f x).axes = s.axes := by cases s; rfl
@[simp] theorem State.putS_lpe (f : Fld) (x : Int) : (s.putS f x).lpe = s.lpe := by cases s; rfl
@[simp] theorem State.putS_pwm (f : Fld) (x : Int) : (s.putS f x).pwm = s.pwm := by cases s; rfl
@[simp] theorem State.putS_net (f : Fld) (x : Int) : (s.putS f x).net = s.net := by cases s; rfl
@[simp] theorem State.putS_rst (f : Fld) (x : Int) : (s.putS f x).rst = s.rst := by cases s; rfl
@[simp] theorem State.putS_thm (f : Fld) (x : Int) : (s.putS f x).thm = s.thm := by cases s; rfl

/-! ### State.addSat -/
@[simp] theorem State.addSat_pending (f : Fld) (n : Nat) : (s.addSat f n).pending = s.pending := by cases s; rfl
@[simp] theorem State.addSat_read (f : Fld) (n : Nat) : (s.addSat f n).read = s.read := by cases s; rfl
@[simp] theorem State.addSat_time (f : Fld) (n : Nat) : (s.addSat f n).time = s.time := by cases s; rfl
@[simp] theorem State.addSat_hif (f : Fld) (n : Nat) : (s.addSat f n).hif = s.hif := by cases s; rfl
@[simp] theorem State.addSat_unitFaults (f : Fld) (n : Nat) : (s.addSat f n).unitFaults = s.unitFaults := by cases s; rfl
@[simp] theorem State.addSat_mirrorUnit (f : Fld) (n : Nat) : (s.addSat f n).mirrorUnit = s.mirrorUnit := by cases s; rfl
@[simp] theorem State.addSat_hostMem (f : Fld) (n : Nat) : (s.addSat f n).hostMem = s.hostMem := by cases s; rfl
@[simp] theorem State.addSat_dram (f : Fld) (n : Nat) : (s.addSat f n).dram = s.dram := by cases s; rfl
@[simp] theorem State.addSat_poison (f : Fld) (n : Nat) : (s.addSat f n).poison = s.poison := by cases s; rfl
@[simp] theorem State.addSat_mram (f : Fld) (n : Nat) : (s.addSat f n).mram = s.mram := by cases s; rfl
@[simp] theorem State.addSat_press (f : Fld) (n : Nat) : (s.addSat f n).press = s.press := by cases s; rfl
@[simp] theorem State.addSat_cmx (f : Fld) (n : Nat) : (s.addSat f n).cmx = s.cmx := by cases s; rfl
@[simp] theorem State.addSat_heads (f : Fld) (n : Nat) : (s.addSat f n).heads = s.heads := by cases s; rfl
@[simp] theorem State.addSat_ldg (f : Fld) (n : Nat) : (s.addSat f n).ldg = s.ldg := by cases s; rfl
@[simp] theorem State.addSat_web (f : Fld) (n : Nat) : (s.addSat f n).web = s.web := by cases s; rfl
@[simp] theorem State.addSat_dmc (f : Fld) (n : Nat) : (s.addSat f n).dmc = s.dmc := by cases s; rfl
@[simp] theorem State.addSat_par (f : Fld) (n : Nat) : (s.addSat f n).par = s.par := by cases s; rfl
@[simp] theorem State.addSat_cal (f : Fld) (n : Nat) : (s.addSat f n).cal = s.cal := by cases s; rfl
@[simp] theorem State.addSat_cam (f : Fld) (n : Nat) : (s.addSat f n).cam = s.cam := by cases s; rfl
@[simp] theorem State.addSat_bars (f : Fld) (n : Nat) : (s.addSat f n).bars = s.bars := by cases s; rfl
@[simp] theorem State.addSat_lanes (f : Fld) (n : Nat) : (s.addSat f n).lanes = s.lanes := by cases s; rfl
@[simp] theorem State.addSat_enc (f : Fld) (n : Nat) : (s.addSat f n).enc = s.enc := by cases s; rfl
@[simp] theorem State.addSat_axes (f : Fld) (n : Nat) : (s.addSat f n).axes = s.axes := by cases s; rfl
@[simp] theorem State.addSat_lpe (f : Fld) (n : Nat) : (s.addSat f n).lpe = s.lpe := by cases s; rfl
@[simp] theorem State.addSat_pwm (f : Fld) (n : Nat) : (s.addSat f n).pwm = s.pwm := by cases s; rfl
@[simp] theorem State.addSat_net (f : Fld) (n : Nat) : (s.addSat f n).net = s.net := by cases s; rfl
@[simp] theorem State.addSat_rst (f : Fld) (n : Nat) : (s.addSat f n).rst = s.rst := by cases s; rfl
@[simp] theorem State.addSat_thm (f : Fld) (n : Nat) : (s.addSat f n).thm = s.thm := by cases s; rfl

/-! ### State.cause -/
@[simp] theorem State.cause_pending (f : Fld) : (s.cause f).pending = s.pending := by cases s; rfl
@[simp] theorem State.cause_read (f : Fld) : (s.cause f).read = s.read := by cases s; rfl
@[simp] theorem State.cause_time (f : Fld) : (s.cause f).time = s.time := by cases s; rfl
@[simp] theorem State.cause_hif (f : Fld) : (s.cause f).hif = s.hif := by cases s; rfl
@[simp] theorem State.cause_unitFaults (f : Fld) : (s.cause f).unitFaults = s.unitFaults := by cases s; rfl
@[simp] theorem State.cause_mirrorUnit (f : Fld) : (s.cause f).mirrorUnit = s.mirrorUnit := by cases s; rfl
@[simp] theorem State.cause_hostMem (f : Fld) : (s.cause f).hostMem = s.hostMem := by cases s; rfl
@[simp] theorem State.cause_dram (f : Fld) : (s.cause f).dram = s.dram := by cases s; rfl
@[simp] theorem State.cause_poison (f : Fld) : (s.cause f).poison = s.poison := by cases s; rfl
@[simp] theorem State.cause_mram (f : Fld) : (s.cause f).mram = s.mram := by cases s; rfl
@[simp] theorem State.cause_press (f : Fld) : (s.cause f).press = s.press := by cases s; rfl
@[simp] theorem State.cause_cmx (f : Fld) : (s.cause f).cmx = s.cmx := by cases s; rfl
@[simp] theorem State.cause_heads (f : Fld) : (s.cause f).heads = s.heads := by cases s; rfl
@[simp] theorem State.cause_ldg (f : Fld) : (s.cause f).ldg = s.ldg := by cases s; rfl
@[simp] theorem State.cause_web (f : Fld) : (s.cause f).web = s.web := by cases s; rfl
@[simp] theorem State.cause_dmc (f : Fld) : (s.cause f).dmc = s.dmc := by cases s; rfl
@[simp] theorem State.cause_par (f : Fld) : (s.cause f).par = s.par := by cases s; rfl
@[simp] theorem State.cause_cal (f : Fld) : (s.cause f).cal = s.cal := by cases s; rfl
@[simp] theorem State.cause_cam (f : Fld) : (s.cause f).cam = s.cam := by cases s; rfl
@[simp] theorem State.cause_bars (f : Fld) : (s.cause f).bars = s.bars := by cases s; rfl
@[simp] theorem State.cause_lanes (f : Fld) : (s.cause f).lanes = s.lanes := by cases s; rfl
@[simp] theorem State.cause_enc (f : Fld) : (s.cause f).enc = s.enc := by cases s; rfl
@[simp] theorem State.cause_axes (f : Fld) : (s.cause f).axes = s.axes := by cases s; rfl
@[simp] theorem State.cause_lpe (f : Fld) : (s.cause f).lpe = s.lpe := by cases s; rfl
@[simp] theorem State.cause_pwm (f : Fld) : (s.cause f).pwm = s.pwm := by cases s; rfl
@[simp] theorem State.cause_net (f : Fld) : (s.cause f).net = s.net := by cases s; rfl
@[simp] theorem State.cause_rst (f : Fld) : (s.cause f).rst = s.rst := by cases s; rfl
@[simp] theorem State.cause_thm (f : Fld) : (s.cause f).thm = s.thm := by cases s; rfl

/-! ### State.trackIrq -/
@[simp] theorem State.trackIrq_pending : (s.trackIrq).pending = s.pending := by cases s; rfl
@[simp] theorem State.trackIrq_regs : (s.trackIrq).regs = s.regs := by cases s; rfl
@[simp] theorem State.trackIrq_read : (s.trackIrq).read = s.read := by cases s; rfl
@[simp] theorem State.trackIrq_time : (s.trackIrq).time = s.time := by cases s; rfl
@[simp] theorem State.trackIrq_unitFaults : (s.trackIrq).unitFaults = s.unitFaults := by cases s; rfl
@[simp] theorem State.trackIrq_mirrorUnit : (s.trackIrq).mirrorUnit = s.mirrorUnit := by cases s; rfl
@[simp] theorem State.trackIrq_hostMem : (s.trackIrq).hostMem = s.hostMem := by cases s; rfl
@[simp] theorem State.trackIrq_dram : (s.trackIrq).dram = s.dram := by cases s; rfl
@[simp] theorem State.trackIrq_poison : (s.trackIrq).poison = s.poison := by cases s; rfl
@[simp] theorem State.trackIrq_mram : (s.trackIrq).mram = s.mram := by cases s; rfl
@[simp] theorem State.trackIrq_press : (s.trackIrq).press = s.press := by cases s; rfl
@[simp] theorem State.trackIrq_cmx : (s.trackIrq).cmx = s.cmx := by cases s; rfl
@[simp] theorem State.trackIrq_heads : (s.trackIrq).heads = s.heads := by cases s; rfl
@[simp] theorem State.trackIrq_ldg : (s.trackIrq).ldg = s.ldg := by cases s; rfl
@[simp] theorem State.trackIrq_web : (s.trackIrq).web = s.web := by cases s; rfl
@[simp] theorem State.trackIrq_dmc : (s.trackIrq).dmc = s.dmc := by cases s; rfl
@[simp] theorem State.trackIrq_par : (s.trackIrq).par = s.par := by cases s; rfl
@[simp] theorem State.trackIrq_cal : (s.trackIrq).cal = s.cal := by cases s; rfl
@[simp] theorem State.trackIrq_cam : (s.trackIrq).cam = s.cam := by cases s; rfl
@[simp] theorem State.trackIrq_bars : (s.trackIrq).bars = s.bars := by cases s; rfl
@[simp] theorem State.trackIrq_lanes : (s.trackIrq).lanes = s.lanes := by cases s; rfl
@[simp] theorem State.trackIrq_enc : (s.trackIrq).enc = s.enc := by cases s; rfl
@[simp] theorem State.trackIrq_axes : (s.trackIrq).axes = s.axes := by cases s; rfl
@[simp] theorem State.trackIrq_lpe : (s.trackIrq).lpe = s.lpe := by cases s; rfl
@[simp] theorem State.trackIrq_pwm : (s.trackIrq).pwm = s.pwm := by cases s; rfl
@[simp] theorem State.trackIrq_net : (s.trackIrq).net = s.net := by cases s; rfl
@[simp] theorem State.trackIrq_rst : (s.trackIrq).rst = s.rst := by cases s; rfl
@[simp] theorem State.trackIrq_thm : (s.trackIrq).thm = s.thm := by cases s; rfl

/-! ### State.recordFault -/
@[simp] theorem State.recordFault_pending (u : UnitId) (r : Nat) : (s.recordFault u r).pending = s.pending := by cases s; rfl
@[simp] theorem State.recordFault_regs (u : UnitId) (r : Nat) : (s.recordFault u r).regs = s.regs := by cases s; rfl
@[simp] theorem State.recordFault_read (u : UnitId) (r : Nat) : (s.recordFault u r).read = s.read := by cases s; rfl
@[simp] theorem State.recordFault_time (u : UnitId) (r : Nat) : (s.recordFault u r).time = s.time := by cases s; rfl
@[simp] theorem State.recordFault_hif (u : UnitId) (r : Nat) : (s.recordFault u r).hif = s.hif := by cases s; rfl
@[simp] theorem State.recordFault_mirrorUnit (u : UnitId) (r : Nat) : (s.recordFault u r).mirrorUnit = s.mirrorUnit := by cases s; rfl
@[simp] theorem State.recordFault_hostMem (u : UnitId) (r : Nat) : (s.recordFault u r).hostMem = s.hostMem := by cases s; rfl
@[simp] theorem State.recordFault_dram (u : UnitId) (r : Nat) : (s.recordFault u r).dram = s.dram := by cases s; rfl
@[simp] theorem State.recordFault_poison (u : UnitId) (r : Nat) : (s.recordFault u r).poison = s.poison := by cases s; rfl
@[simp] theorem State.recordFault_mram (u : UnitId) (r : Nat) : (s.recordFault u r).mram = s.mram := by cases s; rfl
@[simp] theorem State.recordFault_press (u : UnitId) (r : Nat) : (s.recordFault u r).press = s.press := by cases s; rfl
@[simp] theorem State.recordFault_cmx (u : UnitId) (r : Nat) : (s.recordFault u r).cmx = s.cmx := by cases s; rfl
@[simp] theorem State.recordFault_heads (u : UnitId) (r : Nat) : (s.recordFault u r).heads = s.heads := by cases s; rfl
@[simp] theorem State.recordFault_ldg (u : UnitId) (r : Nat) : (s.recordFault u r).ldg = s.ldg := by cases s; rfl
@[simp] theorem State.recordFault_web (u : UnitId) (r : Nat) : (s.recordFault u r).web = s.web := by cases s; rfl
@[simp] theorem State.recordFault_dmc (u : UnitId) (r : Nat) : (s.recordFault u r).dmc = s.dmc := by cases s; rfl
@[simp] theorem State.recordFault_par (u : UnitId) (r : Nat) : (s.recordFault u r).par = s.par := by cases s; rfl
@[simp] theorem State.recordFault_cal (u : UnitId) (r : Nat) : (s.recordFault u r).cal = s.cal := by cases s; rfl
@[simp] theorem State.recordFault_cam (u : UnitId) (r : Nat) : (s.recordFault u r).cam = s.cam := by cases s; rfl
@[simp] theorem State.recordFault_bars (u : UnitId) (r : Nat) : (s.recordFault u r).bars = s.bars := by cases s; rfl
@[simp] theorem State.recordFault_lanes (u : UnitId) (r : Nat) : (s.recordFault u r).lanes = s.lanes := by cases s; rfl
@[simp] theorem State.recordFault_enc (u : UnitId) (r : Nat) : (s.recordFault u r).enc = s.enc := by cases s; rfl
@[simp] theorem State.recordFault_axes (u : UnitId) (r : Nat) : (s.recordFault u r).axes = s.axes := by cases s; rfl
@[simp] theorem State.recordFault_lpe (u : UnitId) (r : Nat) : (s.recordFault u r).lpe = s.lpe := by cases s; rfl
@[simp] theorem State.recordFault_pwm (u : UnitId) (r : Nat) : (s.recordFault u r).pwm = s.pwm := by cases s; rfl
@[simp] theorem State.recordFault_net (u : UnitId) (r : Nat) : (s.recordFault u r).net = s.net := by cases s; rfl
@[simp] theorem State.recordFault_rst (u : UnitId) (r : Nat) : (s.recordFault u r).rst = s.rst := by cases s; rfl
@[simp] theorem State.recordFault_thm (u : UnitId) (r : Nat) : (s.recordFault u r).thm = s.thm := by cases s; rfl

/-! ### State.dropFault -/
@[simp] theorem State.dropFault_pending (u : UnitId) : (s.dropFault u).pending = s.pending := by cases s; rfl
@[simp] theorem State.dropFault_regs (u : UnitId) : (s.dropFault u).regs = s.regs := by cases s; rfl
@[simp] theorem State.dropFault_read (u : UnitId) : (s.dropFault u).read = s.read := by cases s; rfl
@[simp] theorem State.dropFault_time (u : UnitId) : (s.dropFault u).time = s.time := by cases s; rfl
@[simp] theorem State.dropFault_hif (u : UnitId) : (s.dropFault u).hif = s.hif := by cases s; rfl
@[simp] theorem State.dropFault_mirrorUnit (u : UnitId) : (s.dropFault u).mirrorUnit = s.mirrorUnit := by cases s; rfl
@[simp] theorem State.dropFault_hostMem (u : UnitId) : (s.dropFault u).hostMem = s.hostMem := by cases s; rfl
@[simp] theorem State.dropFault_dram (u : UnitId) : (s.dropFault u).dram = s.dram := by cases s; rfl
@[simp] theorem State.dropFault_poison (u : UnitId) : (s.dropFault u).poison = s.poison := by cases s; rfl
@[simp] theorem State.dropFault_mram (u : UnitId) : (s.dropFault u).mram = s.mram := by cases s; rfl
@[simp] theorem State.dropFault_press (u : UnitId) : (s.dropFault u).press = s.press := by cases s; rfl
@[simp] theorem State.dropFault_cmx (u : UnitId) : (s.dropFault u).cmx = s.cmx := by cases s; rfl
@[simp] theorem State.dropFault_heads (u : UnitId) : (s.dropFault u).heads = s.heads := by cases s; rfl
@[simp] theorem State.dropFault_ldg (u : UnitId) : (s.dropFault u).ldg = s.ldg := by cases s; rfl
@[simp] theorem State.dropFault_web (u : UnitId) : (s.dropFault u).web = s.web := by cases s; rfl
@[simp] theorem State.dropFault_dmc (u : UnitId) : (s.dropFault u).dmc = s.dmc := by cases s; rfl
@[simp] theorem State.dropFault_par (u : UnitId) : (s.dropFault u).par = s.par := by cases s; rfl
@[simp] theorem State.dropFault_cal (u : UnitId) : (s.dropFault u).cal = s.cal := by cases s; rfl
@[simp] theorem State.dropFault_cam (u : UnitId) : (s.dropFault u).cam = s.cam := by cases s; rfl
@[simp] theorem State.dropFault_bars (u : UnitId) : (s.dropFault u).bars = s.bars := by cases s; rfl
@[simp] theorem State.dropFault_lanes (u : UnitId) : (s.dropFault u).lanes = s.lanes := by cases s; rfl
@[simp] theorem State.dropFault_enc (u : UnitId) : (s.dropFault u).enc = s.enc := by cases s; rfl
@[simp] theorem State.dropFault_axes (u : UnitId) : (s.dropFault u).axes = s.axes := by cases s; rfl
@[simp] theorem State.dropFault_lpe (u : UnitId) : (s.dropFault u).lpe = s.lpe := by cases s; rfl
@[simp] theorem State.dropFault_pwm (u : UnitId) : (s.dropFault u).pwm = s.pwm := by cases s; rfl
@[simp] theorem State.dropFault_net (u : UnitId) : (s.dropFault u).net = s.net := by cases s; rfl
@[simp] theorem State.dropFault_rst (u : UnitId) : (s.dropFault u).rst = s.rst := by cases s; rfl
@[simp] theorem State.dropFault_thm (u : UnitId) : (s.dropFault u).thm = s.thm := by cases s; rfl

/-! ### State.setRing -/
@[simp] theorem State.setRing_pending (n : Nat) (r : Ring) : (s.setRing n r).pending = s.pending := by cases s; rfl
@[simp] theorem State.setRing_regs (n : Nat) (r : Ring) : (s.setRing n r).regs = s.regs := by cases s; rfl
@[simp] theorem State.setRing_read (n : Nat) (r : Ring) : (s.setRing n r).read = s.read := by cases s; rfl
@[simp] theorem State.setRing_time (n : Nat) (r : Ring) : (s.setRing n r).time = s.time := by cases s; rfl
@[simp] theorem State.setRing_unitFaults (n : Nat) (r : Ring) : (s.setRing n r).unitFaults = s.unitFaults := by cases s; rfl
@[simp] theorem State.setRing_mirrorUnit (n : Nat) (r : Ring) : (s.setRing n r).mirrorUnit = s.mirrorUnit := by cases s; rfl
@[simp] theorem State.setRing_hostMem (n : Nat) (r : Ring) : (s.setRing n r).hostMem = s.hostMem := by cases s; rfl
@[simp] theorem State.setRing_dram (n : Nat) (r : Ring) : (s.setRing n r).dram = s.dram := by cases s; rfl
@[simp] theorem State.setRing_poison (n : Nat) (r : Ring) : (s.setRing n r).poison = s.poison := by cases s; rfl
@[simp] theorem State.setRing_mram (n : Nat) (r : Ring) : (s.setRing n r).mram = s.mram := by cases s; rfl
@[simp] theorem State.setRing_press (n : Nat) (r : Ring) : (s.setRing n r).press = s.press := by cases s; rfl
@[simp] theorem State.setRing_cmx (n : Nat) (r : Ring) : (s.setRing n r).cmx = s.cmx := by cases s; rfl
@[simp] theorem State.setRing_heads (n : Nat) (r : Ring) : (s.setRing n r).heads = s.heads := by cases s; rfl
@[simp] theorem State.setRing_ldg (n : Nat) (r : Ring) : (s.setRing n r).ldg = s.ldg := by cases s; rfl
@[simp] theorem State.setRing_web (n : Nat) (r : Ring) : (s.setRing n r).web = s.web := by cases s; rfl
@[simp] theorem State.setRing_dmc (n : Nat) (r : Ring) : (s.setRing n r).dmc = s.dmc := by cases s; rfl
@[simp] theorem State.setRing_par (n : Nat) (r : Ring) : (s.setRing n r).par = s.par := by cases s; rfl
@[simp] theorem State.setRing_cal (n : Nat) (r : Ring) : (s.setRing n r).cal = s.cal := by cases s; rfl
@[simp] theorem State.setRing_cam (n : Nat) (r : Ring) : (s.setRing n r).cam = s.cam := by cases s; rfl
@[simp] theorem State.setRing_bars (n : Nat) (r : Ring) : (s.setRing n r).bars = s.bars := by cases s; rfl
@[simp] theorem State.setRing_lanes (n : Nat) (r : Ring) : (s.setRing n r).lanes = s.lanes := by cases s; rfl
@[simp] theorem State.setRing_enc (n : Nat) (r : Ring) : (s.setRing n r).enc = s.enc := by cases s; rfl
@[simp] theorem State.setRing_axes (n : Nat) (r : Ring) : (s.setRing n r).axes = s.axes := by cases s; rfl
@[simp] theorem State.setRing_lpe (n : Nat) (r : Ring) : (s.setRing n r).lpe = s.lpe := by cases s; rfl
@[simp] theorem State.setRing_pwm (n : Nat) (r : Ring) : (s.setRing n r).pwm = s.pwm := by cases s; rfl
@[simp] theorem State.setRing_net (n : Nat) (r : Ring) : (s.setRing n r).net = s.net := by cases s; rfl
@[simp] theorem State.setRing_rst (n : Nat) (r : Ring) : (s.setRing n r).rst = s.rst := by cases s; rfl
@[simp] theorem State.setRing_thm (n : Nat) (r : Ring) : (s.setRing n r).thm = s.thm := by cases s; rfl

/-! ### State.wbDue -/
@[simp] theorem State.wbDue_pending (n : Nat) : (s.wbDue n).pending = s.pending := by cases s; rfl
@[simp] theorem State.wbDue_regs (n : Nat) : (s.wbDue n).regs = s.regs := by cases s; rfl
@[simp] theorem State.wbDue_read (n : Nat) : (s.wbDue n).read = s.read := by cases s; rfl
@[simp] theorem State.wbDue_time (n : Nat) : (s.wbDue n).time = s.time := by cases s; rfl
@[simp] theorem State.wbDue_unitFaults (n : Nat) : (s.wbDue n).unitFaults = s.unitFaults := by cases s; rfl
@[simp] theorem State.wbDue_mirrorUnit (n : Nat) : (s.wbDue n).mirrorUnit = s.mirrorUnit := by cases s; rfl
@[simp] theorem State.wbDue_hostMem (n : Nat) : (s.wbDue n).hostMem = s.hostMem := by cases s; rfl
@[simp] theorem State.wbDue_dram (n : Nat) : (s.wbDue n).dram = s.dram := by cases s; rfl
@[simp] theorem State.wbDue_poison (n : Nat) : (s.wbDue n).poison = s.poison := by cases s; rfl
@[simp] theorem State.wbDue_mram (n : Nat) : (s.wbDue n).mram = s.mram := by cases s; rfl
@[simp] theorem State.wbDue_press (n : Nat) : (s.wbDue n).press = s.press := by cases s; rfl
@[simp] theorem State.wbDue_cmx (n : Nat) : (s.wbDue n).cmx = s.cmx := by cases s; rfl
@[simp] theorem State.wbDue_heads (n : Nat) : (s.wbDue n).heads = s.heads := by cases s; rfl
@[simp] theorem State.wbDue_ldg (n : Nat) : (s.wbDue n).ldg = s.ldg := by cases s; rfl
@[simp] theorem State.wbDue_web (n : Nat) : (s.wbDue n).web = s.web := by cases s; rfl
@[simp] theorem State.wbDue_dmc (n : Nat) : (s.wbDue n).dmc = s.dmc := by cases s; rfl
@[simp] theorem State.wbDue_par (n : Nat) : (s.wbDue n).par = s.par := by cases s; rfl
@[simp] theorem State.wbDue_cal (n : Nat) : (s.wbDue n).cal = s.cal := by cases s; rfl
@[simp] theorem State.wbDue_cam (n : Nat) : (s.wbDue n).cam = s.cam := by cases s; rfl
@[simp] theorem State.wbDue_bars (n : Nat) : (s.wbDue n).bars = s.bars := by cases s; rfl
@[simp] theorem State.wbDue_lanes (n : Nat) : (s.wbDue n).lanes = s.lanes := by cases s; rfl
@[simp] theorem State.wbDue_enc (n : Nat) : (s.wbDue n).enc = s.enc := by cases s; rfl
@[simp] theorem State.wbDue_axes (n : Nat) : (s.wbDue n).axes = s.axes := by cases s; rfl
@[simp] theorem State.wbDue_lpe (n : Nat) : (s.wbDue n).lpe = s.lpe := by cases s; rfl
@[simp] theorem State.wbDue_pwm (n : Nat) : (s.wbDue n).pwm = s.pwm := by cases s; rfl
@[simp] theorem State.wbDue_net (n : Nat) : (s.wbDue n).net = s.net := by cases s; rfl
@[simp] theorem State.wbDue_rst (n : Nat) : (s.wbDue n).rst = s.rst := by cases s; rfl
@[simp] theorem State.wbDue_thm (n : Nat) : (s.wbDue n).thm = s.thm := by cases s; rfl

/-! ### State.setCal -/
@[simp] theorem State.setCal_pending (x : Cal) : (s.setCal x).pending = s.pending := by cases s; rfl
@[simp] theorem State.setCal_regs (x : Cal) : (s.setCal x).regs = s.regs := by cases s; rfl
@[simp] theorem State.setCal_read (x : Cal) : (s.setCal x).read = s.read := by cases s; rfl
@[simp] theorem State.setCal_time (x : Cal) : (s.setCal x).time = s.time := by cases s; rfl
@[simp] theorem State.setCal_hif (x : Cal) : (s.setCal x).hif = s.hif := by cases s; rfl
@[simp] theorem State.setCal_unitFaults (x : Cal) : (s.setCal x).unitFaults = s.unitFaults := by cases s; rfl
@[simp] theorem State.setCal_mirrorUnit (x : Cal) : (s.setCal x).mirrorUnit = s.mirrorUnit := by cases s; rfl
@[simp] theorem State.setCal_hostMem (x : Cal) : (s.setCal x).hostMem = s.hostMem := by cases s; rfl
@[simp] theorem State.setCal_dram (x : Cal) : (s.setCal x).dram = s.dram := by cases s; rfl
@[simp] theorem State.setCal_poison (x : Cal) : (s.setCal x).poison = s.poison := by cases s; rfl
@[simp] theorem State.setCal_mram (x : Cal) : (s.setCal x).mram = s.mram := by cases s; rfl
@[simp] theorem State.setCal_press (x : Cal) : (s.setCal x).press = s.press := by cases s; rfl
@[simp] theorem State.setCal_cmx (x : Cal) : (s.setCal x).cmx = s.cmx := by cases s; rfl
@[simp] theorem State.setCal_heads (x : Cal) : (s.setCal x).heads = s.heads := by cases s; rfl
@[simp] theorem State.setCal_ldg (x : Cal) : (s.setCal x).ldg = s.ldg := by cases s; rfl
@[simp] theorem State.setCal_web (x : Cal) : (s.setCal x).web = s.web := by cases s; rfl
@[simp] theorem State.setCal_dmc (x : Cal) : (s.setCal x).dmc = s.dmc := by cases s; rfl
@[simp] theorem State.setCal_par (x : Cal) : (s.setCal x).par = s.par := by cases s; rfl
@[simp] theorem State.setCal_cam (x : Cal) : (s.setCal x).cam = s.cam := by cases s; rfl
@[simp] theorem State.setCal_bars (x : Cal) : (s.setCal x).bars = s.bars := by cases s; rfl
@[simp] theorem State.setCal_lanes (x : Cal) : (s.setCal x).lanes = s.lanes := by cases s; rfl
@[simp] theorem State.setCal_enc (x : Cal) : (s.setCal x).enc = s.enc := by cases s; rfl
@[simp] theorem State.setCal_axes (x : Cal) : (s.setCal x).axes = s.axes := by cases s; rfl
@[simp] theorem State.setCal_lpe (x : Cal) : (s.setCal x).lpe = s.lpe := by cases s; rfl
@[simp] theorem State.setCal_pwm (x : Cal) : (s.setCal x).pwm = s.pwm := by cases s; rfl
@[simp] theorem State.setCal_net (x : Cal) : (s.setCal x).net = s.net := by cases s; rfl
@[simp] theorem State.setCal_rst (x : Cal) : (s.setCal x).rst = s.rst := by cases s; rfl
@[simp] theorem State.setCal_thm (x : Cal) : (s.setCal x).thm = s.thm := by cases s; rfl

/-! ### State.setCam -/
@[simp] theorem State.setCam_pending (x : Cam) : (s.setCam x).pending = s.pending := by cases s; rfl
@[simp] theorem State.setCam_regs (x : Cam) : (s.setCam x).regs = s.regs := by cases s; rfl
@[simp] theorem State.setCam_read (x : Cam) : (s.setCam x).read = s.read := by cases s; rfl
@[simp] theorem State.setCam_time (x : Cam) : (s.setCam x).time = s.time := by cases s; rfl
@[simp] theorem State.setCam_hif (x : Cam) : (s.setCam x).hif = s.hif := by cases s; rfl
@[simp] theorem State.setCam_unitFaults (x : Cam) : (s.setCam x).unitFaults = s.unitFaults := by cases s; rfl
@[simp] theorem State.setCam_mirrorUnit (x : Cam) : (s.setCam x).mirrorUnit = s.mirrorUnit := by cases s; rfl
@[simp] theorem State.setCam_hostMem (x : Cam) : (s.setCam x).hostMem = s.hostMem := by cases s; rfl
@[simp] theorem State.setCam_dram (x : Cam) : (s.setCam x).dram = s.dram := by cases s; rfl
@[simp] theorem State.setCam_poison (x : Cam) : (s.setCam x).poison = s.poison := by cases s; rfl
@[simp] theorem State.setCam_mram (x : Cam) : (s.setCam x).mram = s.mram := by cases s; rfl
@[simp] theorem State.setCam_press (x : Cam) : (s.setCam x).press = s.press := by cases s; rfl
@[simp] theorem State.setCam_cmx (x : Cam) : (s.setCam x).cmx = s.cmx := by cases s; rfl
@[simp] theorem State.setCam_heads (x : Cam) : (s.setCam x).heads = s.heads := by cases s; rfl
@[simp] theorem State.setCam_ldg (x : Cam) : (s.setCam x).ldg = s.ldg := by cases s; rfl
@[simp] theorem State.setCam_web (x : Cam) : (s.setCam x).web = s.web := by cases s; rfl
@[simp] theorem State.setCam_dmc (x : Cam) : (s.setCam x).dmc = s.dmc := by cases s; rfl
@[simp] theorem State.setCam_par (x : Cam) : (s.setCam x).par = s.par := by cases s; rfl
@[simp] theorem State.setCam_cal (x : Cam) : (s.setCam x).cal = s.cal := by cases s; rfl
@[simp] theorem State.setCam_bars (x : Cam) : (s.setCam x).bars = s.bars := by cases s; rfl
@[simp] theorem State.setCam_lanes (x : Cam) : (s.setCam x).lanes = s.lanes := by cases s; rfl
@[simp] theorem State.setCam_enc (x : Cam) : (s.setCam x).enc = s.enc := by cases s; rfl
@[simp] theorem State.setCam_axes (x : Cam) : (s.setCam x).axes = s.axes := by cases s; rfl
@[simp] theorem State.setCam_lpe (x : Cam) : (s.setCam x).lpe = s.lpe := by cases s; rfl
@[simp] theorem State.setCam_pwm (x : Cam) : (s.setCam x).pwm = s.pwm := by cases s; rfl
@[simp] theorem State.setCam_net (x : Cam) : (s.setCam x).net = s.net := by cases s; rfl
@[simp] theorem State.setCam_rst (x : Cam) : (s.setCam x).rst = s.rst := by cases s; rfl
@[simp] theorem State.setCam_thm (x : Cam) : (s.setCam x).thm = s.thm := by cases s; rfl

/-! ### State.setEnc -/
@[simp] theorem State.setEnc_pending (x : Enc) : (s.setEnc x).pending = s.pending := by cases s; rfl
@[simp] theorem State.setEnc_regs (x : Enc) : (s.setEnc x).regs = s.regs := by cases s; rfl
@[simp] theorem State.setEnc_read (x : Enc) : (s.setEnc x).read = s.read := by cases s; rfl
@[simp] theorem State.setEnc_time (x : Enc) : (s.setEnc x).time = s.time := by cases s; rfl
@[simp] theorem State.setEnc_hif (x : Enc) : (s.setEnc x).hif = s.hif := by cases s; rfl
@[simp] theorem State.setEnc_unitFaults (x : Enc) : (s.setEnc x).unitFaults = s.unitFaults := by cases s; rfl
@[simp] theorem State.setEnc_mirrorUnit (x : Enc) : (s.setEnc x).mirrorUnit = s.mirrorUnit := by cases s; rfl
@[simp] theorem State.setEnc_hostMem (x : Enc) : (s.setEnc x).hostMem = s.hostMem := by cases s; rfl
@[simp] theorem State.setEnc_dram (x : Enc) : (s.setEnc x).dram = s.dram := by cases s; rfl
@[simp] theorem State.setEnc_poison (x : Enc) : (s.setEnc x).poison = s.poison := by cases s; rfl
@[simp] theorem State.setEnc_mram (x : Enc) : (s.setEnc x).mram = s.mram := by cases s; rfl
@[simp] theorem State.setEnc_press (x : Enc) : (s.setEnc x).press = s.press := by cases s; rfl
@[simp] theorem State.setEnc_cmx (x : Enc) : (s.setEnc x).cmx = s.cmx := by cases s; rfl
@[simp] theorem State.setEnc_heads (x : Enc) : (s.setEnc x).heads = s.heads := by cases s; rfl
@[simp] theorem State.setEnc_ldg (x : Enc) : (s.setEnc x).ldg = s.ldg := by cases s; rfl
@[simp] theorem State.setEnc_web (x : Enc) : (s.setEnc x).web = s.web := by cases s; rfl
@[simp] theorem State.setEnc_dmc (x : Enc) : (s.setEnc x).dmc = s.dmc := by cases s; rfl
@[simp] theorem State.setEnc_par (x : Enc) : (s.setEnc x).par = s.par := by cases s; rfl
@[simp] theorem State.setEnc_cal (x : Enc) : (s.setEnc x).cal = s.cal := by cases s; rfl
@[simp] theorem State.setEnc_cam (x : Enc) : (s.setEnc x).cam = s.cam := by cases s; rfl
@[simp] theorem State.setEnc_bars (x : Enc) : (s.setEnc x).bars = s.bars := by cases s; rfl
@[simp] theorem State.setEnc_lanes (x : Enc) : (s.setEnc x).lanes = s.lanes := by cases s; rfl
@[simp] theorem State.setEnc_axes (x : Enc) : (s.setEnc x).axes = s.axes := by cases s; rfl
@[simp] theorem State.setEnc_lpe (x : Enc) : (s.setEnc x).lpe = s.lpe := by cases s; rfl
@[simp] theorem State.setEnc_pwm (x : Enc) : (s.setEnc x).pwm = s.pwm := by cases s; rfl
@[simp] theorem State.setEnc_net (x : Enc) : (s.setEnc x).net = s.net := by cases s; rfl
@[simp] theorem State.setEnc_rst (x : Enc) : (s.setEnc x).rst = s.rst := by cases s; rfl
@[simp] theorem State.setEnc_thm (x : Enc) : (s.setEnc x).thm = s.thm := by cases s; rfl

/-! ### State.setLdg -/
@[simp] theorem State.setLdg_pending (x : Ledger) : (s.setLdg x).pending = s.pending := by cases s; rfl
@[simp] theorem State.setLdg_regs (x : Ledger) : (s.setLdg x).regs = s.regs := by cases s; rfl
@[simp] theorem State.setLdg_read (x : Ledger) : (s.setLdg x).read = s.read := by cases s; rfl
@[simp] theorem State.setLdg_time (x : Ledger) : (s.setLdg x).time = s.time := by cases s; rfl
@[simp] theorem State.setLdg_hif (x : Ledger) : (s.setLdg x).hif = s.hif := by cases s; rfl
@[simp] theorem State.setLdg_unitFaults (x : Ledger) : (s.setLdg x).unitFaults = s.unitFaults := by cases s; rfl
@[simp] theorem State.setLdg_mirrorUnit (x : Ledger) : (s.setLdg x).mirrorUnit = s.mirrorUnit := by cases s; rfl
@[simp] theorem State.setLdg_hostMem (x : Ledger) : (s.setLdg x).hostMem = s.hostMem := by cases s; rfl
@[simp] theorem State.setLdg_dram (x : Ledger) : (s.setLdg x).dram = s.dram := by cases s; rfl
@[simp] theorem State.setLdg_poison (x : Ledger) : (s.setLdg x).poison = s.poison := by cases s; rfl
@[simp] theorem State.setLdg_mram (x : Ledger) : (s.setLdg x).mram = s.mram := by cases s; rfl
@[simp] theorem State.setLdg_press (x : Ledger) : (s.setLdg x).press = s.press := by cases s; rfl
@[simp] theorem State.setLdg_cmx (x : Ledger) : (s.setLdg x).cmx = s.cmx := by cases s; rfl
@[simp] theorem State.setLdg_heads (x : Ledger) : (s.setLdg x).heads = s.heads := by cases s; rfl
@[simp] theorem State.setLdg_web (x : Ledger) : (s.setLdg x).web = s.web := by cases s; rfl
@[simp] theorem State.setLdg_dmc (x : Ledger) : (s.setLdg x).dmc = s.dmc := by cases s; rfl
@[simp] theorem State.setLdg_par (x : Ledger) : (s.setLdg x).par = s.par := by cases s; rfl
@[simp] theorem State.setLdg_cal (x : Ledger) : (s.setLdg x).cal = s.cal := by cases s; rfl
@[simp] theorem State.setLdg_cam (x : Ledger) : (s.setLdg x).cam = s.cam := by cases s; rfl
@[simp] theorem State.setLdg_bars (x : Ledger) : (s.setLdg x).bars = s.bars := by cases s; rfl
@[simp] theorem State.setLdg_lanes (x : Ledger) : (s.setLdg x).lanes = s.lanes := by cases s; rfl
@[simp] theorem State.setLdg_enc (x : Ledger) : (s.setLdg x).enc = s.enc := by cases s; rfl
@[simp] theorem State.setLdg_axes (x : Ledger) : (s.setLdg x).axes = s.axes := by cases s; rfl
@[simp] theorem State.setLdg_lpe (x : Ledger) : (s.setLdg x).lpe = s.lpe := by cases s; rfl
@[simp] theorem State.setLdg_pwm (x : Ledger) : (s.setLdg x).pwm = s.pwm := by cases s; rfl
@[simp] theorem State.setLdg_net (x : Ledger) : (s.setLdg x).net = s.net := by cases s; rfl
@[simp] theorem State.setLdg_rst (x : Ledger) : (s.setLdg x).rst = s.rst := by cases s; rfl
@[simp] theorem State.setLdg_thm (x : Ledger) : (s.setLdg x).thm = s.thm := by cases s; rfl

/-! ### State.setPar -/
@[simp] theorem State.setPar_pending (x : Par) : (s.setPar x).pending = s.pending := by cases s; rfl
@[simp] theorem State.setPar_regs (x : Par) : (s.setPar x).regs = s.regs := by cases s; rfl
@[simp] theorem State.setPar_read (x : Par) : (s.setPar x).read = s.read := by cases s; rfl
@[simp] theorem State.setPar_time (x : Par) : (s.setPar x).time = s.time := by cases s; rfl
@[simp] theorem State.setPar_hif (x : Par) : (s.setPar x).hif = s.hif := by cases s; rfl
@[simp] theorem State.setPar_unitFaults (x : Par) : (s.setPar x).unitFaults = s.unitFaults := by cases s; rfl
@[simp] theorem State.setPar_mirrorUnit (x : Par) : (s.setPar x).mirrorUnit = s.mirrorUnit := by cases s; rfl
@[simp] theorem State.setPar_hostMem (x : Par) : (s.setPar x).hostMem = s.hostMem := by cases s; rfl
@[simp] theorem State.setPar_dram (x : Par) : (s.setPar x).dram = s.dram := by cases s; rfl
@[simp] theorem State.setPar_poison (x : Par) : (s.setPar x).poison = s.poison := by cases s; rfl
@[simp] theorem State.setPar_mram (x : Par) : (s.setPar x).mram = s.mram := by cases s; rfl
@[simp] theorem State.setPar_press (x : Par) : (s.setPar x).press = s.press := by cases s; rfl
@[simp] theorem State.setPar_cmx (x : Par) : (s.setPar x).cmx = s.cmx := by cases s; rfl
@[simp] theorem State.setPar_heads (x : Par) : (s.setPar x).heads = s.heads := by cases s; rfl
@[simp] theorem State.setPar_ldg (x : Par) : (s.setPar x).ldg = s.ldg := by cases s; rfl
@[simp] theorem State.setPar_web (x : Par) : (s.setPar x).web = s.web := by cases s; rfl
@[simp] theorem State.setPar_dmc (x : Par) : (s.setPar x).dmc = s.dmc := by cases s; rfl
@[simp] theorem State.setPar_cal (x : Par) : (s.setPar x).cal = s.cal := by cases s; rfl
@[simp] theorem State.setPar_cam (x : Par) : (s.setPar x).cam = s.cam := by cases s; rfl
@[simp] theorem State.setPar_bars (x : Par) : (s.setPar x).bars = s.bars := by cases s; rfl
@[simp] theorem State.setPar_lanes (x : Par) : (s.setPar x).lanes = s.lanes := by cases s; rfl
@[simp] theorem State.setPar_enc (x : Par) : (s.setPar x).enc = s.enc := by cases s; rfl
@[simp] theorem State.setPar_axes (x : Par) : (s.setPar x).axes = s.axes := by cases s; rfl
@[simp] theorem State.setPar_lpe (x : Par) : (s.setPar x).lpe = s.lpe := by cases s; rfl
@[simp] theorem State.setPar_pwm (x : Par) : (s.setPar x).pwm = s.pwm := by cases s; rfl
@[simp] theorem State.setPar_net (x : Par) : (s.setPar x).net = s.net := by cases s; rfl
@[simp] theorem State.setPar_rst (x : Par) : (s.setPar x).rst = s.rst := by cases s; rfl
@[simp] theorem State.setPar_thm (x : Par) : (s.setPar x).thm = s.thm := by cases s; rfl

/-! ### State.setRst -/
@[simp] theorem State.setRst_pending (x : Rst) : (s.setRst x).pending = s.pending := by cases s; rfl
@[simp] theorem State.setRst_regs (x : Rst) : (s.setRst x).regs = s.regs := by cases s; rfl
@[simp] theorem State.setRst_read (x : Rst) : (s.setRst x).read = s.read := by cases s; rfl
@[simp] theorem State.setRst_time (x : Rst) : (s.setRst x).time = s.time := by cases s; rfl
@[simp] theorem State.setRst_hif (x : Rst) : (s.setRst x).hif = s.hif := by cases s; rfl
@[simp] theorem State.setRst_unitFaults (x : Rst) : (s.setRst x).unitFaults = s.unitFaults := by cases s; rfl
@[simp] theorem State.setRst_mirrorUnit (x : Rst) : (s.setRst x).mirrorUnit = s.mirrorUnit := by cases s; rfl
@[simp] theorem State.setRst_hostMem (x : Rst) : (s.setRst x).hostMem = s.hostMem := by cases s; rfl
@[simp] theorem State.setRst_dram (x : Rst) : (s.setRst x).dram = s.dram := by cases s; rfl
@[simp] theorem State.setRst_poison (x : Rst) : (s.setRst x).poison = s.poison := by cases s; rfl
@[simp] theorem State.setRst_mram (x : Rst) : (s.setRst x).mram = s.mram := by cases s; rfl
@[simp] theorem State.setRst_press (x : Rst) : (s.setRst x).press = s.press := by cases s; rfl
@[simp] theorem State.setRst_cmx (x : Rst) : (s.setRst x).cmx = s.cmx := by cases s; rfl
@[simp] theorem State.setRst_heads (x : Rst) : (s.setRst x).heads = s.heads := by cases s; rfl
@[simp] theorem State.setRst_ldg (x : Rst) : (s.setRst x).ldg = s.ldg := by cases s; rfl
@[simp] theorem State.setRst_web (x : Rst) : (s.setRst x).web = s.web := by cases s; rfl
@[simp] theorem State.setRst_dmc (x : Rst) : (s.setRst x).dmc = s.dmc := by cases s; rfl
@[simp] theorem State.setRst_par (x : Rst) : (s.setRst x).par = s.par := by cases s; rfl
@[simp] theorem State.setRst_cal (x : Rst) : (s.setRst x).cal = s.cal := by cases s; rfl
@[simp] theorem State.setRst_cam (x : Rst) : (s.setRst x).cam = s.cam := by cases s; rfl
@[simp] theorem State.setRst_bars (x : Rst) : (s.setRst x).bars = s.bars := by cases s; rfl
@[simp] theorem State.setRst_lanes (x : Rst) : (s.setRst x).lanes = s.lanes := by cases s; rfl
@[simp] theorem State.setRst_enc (x : Rst) : (s.setRst x).enc = s.enc := by cases s; rfl
@[simp] theorem State.setRst_axes (x : Rst) : (s.setRst x).axes = s.axes := by cases s; rfl
@[simp] theorem State.setRst_lpe (x : Rst) : (s.setRst x).lpe = s.lpe := by cases s; rfl
@[simp] theorem State.setRst_pwm (x : Rst) : (s.setRst x).pwm = s.pwm := by cases s; rfl
@[simp] theorem State.setRst_net (x : Rst) : (s.setRst x).net = s.net := by cases s; rfl
@[simp] theorem State.setRst_thm (x : Rst) : (s.setRst x).thm = s.thm := by cases s; rfl

/-! ### State.setThm -/
@[simp] theorem State.setThm_pending (x : Thm) : (s.setThm x).pending = s.pending := by cases s; rfl
@[simp] theorem State.setThm_regs (x : Thm) : (s.setThm x).regs = s.regs := by cases s; rfl
@[simp] theorem State.setThm_read (x : Thm) : (s.setThm x).read = s.read := by cases s; rfl
@[simp] theorem State.setThm_time (x : Thm) : (s.setThm x).time = s.time := by cases s; rfl
@[simp] theorem State.setThm_hif (x : Thm) : (s.setThm x).hif = s.hif := by cases s; rfl
@[simp] theorem State.setThm_unitFaults (x : Thm) : (s.setThm x).unitFaults = s.unitFaults := by cases s; rfl
@[simp] theorem State.setThm_mirrorUnit (x : Thm) : (s.setThm x).mirrorUnit = s.mirrorUnit := by cases s; rfl
@[simp] theorem State.setThm_hostMem (x : Thm) : (s.setThm x).hostMem = s.hostMem := by cases s; rfl
@[simp] theorem State.setThm_dram (x : Thm) : (s.setThm x).dram = s.dram := by cases s; rfl
@[simp] theorem State.setThm_poison (x : Thm) : (s.setThm x).poison = s.poison := by cases s; rfl
@[simp] theorem State.setThm_mram (x : Thm) : (s.setThm x).mram = s.mram := by cases s; rfl
@[simp] theorem State.setThm_press (x : Thm) : (s.setThm x).press = s.press := by cases s; rfl
@[simp] theorem State.setThm_cmx (x : Thm) : (s.setThm x).cmx = s.cmx := by cases s; rfl
@[simp] theorem State.setThm_heads (x : Thm) : (s.setThm x).heads = s.heads := by cases s; rfl
@[simp] theorem State.setThm_ldg (x : Thm) : (s.setThm x).ldg = s.ldg := by cases s; rfl
@[simp] theorem State.setThm_web (x : Thm) : (s.setThm x).web = s.web := by cases s; rfl
@[simp] theorem State.setThm_dmc (x : Thm) : (s.setThm x).dmc = s.dmc := by cases s; rfl
@[simp] theorem State.setThm_par (x : Thm) : (s.setThm x).par = s.par := by cases s; rfl
@[simp] theorem State.setThm_cal (x : Thm) : (s.setThm x).cal = s.cal := by cases s; rfl
@[simp] theorem State.setThm_cam (x : Thm) : (s.setThm x).cam = s.cam := by cases s; rfl
@[simp] theorem State.setThm_bars (x : Thm) : (s.setThm x).bars = s.bars := by cases s; rfl
@[simp] theorem State.setThm_lanes (x : Thm) : (s.setThm x).lanes = s.lanes := by cases s; rfl
@[simp] theorem State.setThm_enc (x : Thm) : (s.setThm x).enc = s.enc := by cases s; rfl
@[simp] theorem State.setThm_axes (x : Thm) : (s.setThm x).axes = s.axes := by cases s; rfl
@[simp] theorem State.setThm_lpe (x : Thm) : (s.setThm x).lpe = s.lpe := by cases s; rfl
@[simp] theorem State.setThm_pwm (x : Thm) : (s.setThm x).pwm = s.pwm := by cases s; rfl
@[simp] theorem State.setThm_net (x : Thm) : (s.setThm x).net = s.net := by cases s; rfl
@[simp] theorem State.setThm_rst (x : Thm) : (s.setThm x).rst = s.rst := by cases s; rfl

/-! ### State.setHeads -/
@[simp] theorem State.setHeads_pending (x : Heads) : (s.setHeads x).pending = s.pending := by cases s; rfl
@[simp] theorem State.setHeads_regs (x : Heads) : (s.setHeads x).regs = s.regs := by cases s; rfl
@[simp] theorem State.setHeads_read (x : Heads) : (s.setHeads x).read = s.read := by cases s; rfl
@[simp] theorem State.setHeads_time (x : Heads) : (s.setHeads x).time = s.time := by cases s; rfl
@[simp] theorem State.setHeads_hif (x : Heads) : (s.setHeads x).hif = s.hif := by cases s; rfl
@[simp] theorem State.setHeads_unitFaults (x : Heads) : (s.setHeads x).unitFaults = s.unitFaults := by cases s; rfl
@[simp] theorem State.setHeads_mirrorUnit (x : Heads) : (s.setHeads x).mirrorUnit = s.mirrorUnit := by cases s; rfl
@[simp] theorem State.setHeads_hostMem (x : Heads) : (s.setHeads x).hostMem = s.hostMem := by cases s; rfl
@[simp] theorem State.setHeads_dram (x : Heads) : (s.setHeads x).dram = s.dram := by cases s; rfl
@[simp] theorem State.setHeads_poison (x : Heads) : (s.setHeads x).poison = s.poison := by cases s; rfl
@[simp] theorem State.setHeads_mram (x : Heads) : (s.setHeads x).mram = s.mram := by cases s; rfl
@[simp] theorem State.setHeads_press (x : Heads) : (s.setHeads x).press = s.press := by cases s; rfl
@[simp] theorem State.setHeads_cmx (x : Heads) : (s.setHeads x).cmx = s.cmx := by cases s; rfl
@[simp] theorem State.setHeads_ldg (x : Heads) : (s.setHeads x).ldg = s.ldg := by cases s; rfl
@[simp] theorem State.setHeads_web (x : Heads) : (s.setHeads x).web = s.web := by cases s; rfl
@[simp] theorem State.setHeads_dmc (x : Heads) : (s.setHeads x).dmc = s.dmc := by cases s; rfl
@[simp] theorem State.setHeads_par (x : Heads) : (s.setHeads x).par = s.par := by cases s; rfl
@[simp] theorem State.setHeads_cal (x : Heads) : (s.setHeads x).cal = s.cal := by cases s; rfl
@[simp] theorem State.setHeads_cam (x : Heads) : (s.setHeads x).cam = s.cam := by cases s; rfl
@[simp] theorem State.setHeads_bars (x : Heads) : (s.setHeads x).bars = s.bars := by cases s; rfl
@[simp] theorem State.setHeads_lanes (x : Heads) : (s.setHeads x).lanes = s.lanes := by cases s; rfl
@[simp] theorem State.setHeads_enc (x : Heads) : (s.setHeads x).enc = s.enc := by cases s; rfl
@[simp] theorem State.setHeads_axes (x : Heads) : (s.setHeads x).axes = s.axes := by cases s; rfl
@[simp] theorem State.setHeads_lpe (x : Heads) : (s.setHeads x).lpe = s.lpe := by cases s; rfl
@[simp] theorem State.setHeads_pwm (x : Heads) : (s.setHeads x).pwm = s.pwm := by cases s; rfl
@[simp] theorem State.setHeads_net (x : Heads) : (s.setHeads x).net = s.net := by cases s; rfl
@[simp] theorem State.setHeads_rst (x : Heads) : (s.setHeads x).rst = s.rst := by cases s; rfl
@[simp] theorem State.setHeads_thm (x : Heads) : (s.setHeads x).thm = s.thm := by cases s; rfl

/-! ### State.setJob -/
@[simp] theorem State.setJob_pending (j : Job) : (s.setJob j).pending = s.pending := by cases s; rfl
@[simp] theorem State.setJob_regs (j : Job) : (s.setJob j).regs = s.regs := by cases s; rfl
@[simp] theorem State.setJob_read (j : Job) : (s.setJob j).read = s.read := by cases s; rfl
@[simp] theorem State.setJob_time (j : Job) : (s.setJob j).time = s.time := by cases s; rfl
@[simp] theorem State.setJob_hif (j : Job) : (s.setJob j).hif = s.hif := by cases s; rfl
@[simp] theorem State.setJob_unitFaults (j : Job) : (s.setJob j).unitFaults = s.unitFaults := by cases s; rfl
@[simp] theorem State.setJob_mirrorUnit (j : Job) : (s.setJob j).mirrorUnit = s.mirrorUnit := by cases s; rfl
@[simp] theorem State.setJob_hostMem (j : Job) : (s.setJob j).hostMem = s.hostMem := by cases s; rfl
@[simp] theorem State.setJob_dram (j : Job) : (s.setJob j).dram = s.dram := by cases s; rfl
@[simp] theorem State.setJob_poison (j : Job) : (s.setJob j).poison = s.poison := by cases s; rfl
@[simp] theorem State.setJob_mram (j : Job) : (s.setJob j).mram = s.mram := by cases s; rfl
@[simp] theorem State.setJob_cmx (j : Job) : (s.setJob j).cmx = s.cmx := by cases s; rfl
@[simp] theorem State.setJob_heads (j : Job) : (s.setJob j).heads = s.heads := by cases s; rfl
@[simp] theorem State.setJob_ldg (j : Job) : (s.setJob j).ldg = s.ldg := by cases s; rfl
@[simp] theorem State.setJob_web (j : Job) : (s.setJob j).web = s.web := by cases s; rfl
@[simp] theorem State.setJob_dmc (j : Job) : (s.setJob j).dmc = s.dmc := by cases s; rfl
@[simp] theorem State.setJob_par (j : Job) : (s.setJob j).par = s.par := by cases s; rfl
@[simp] theorem State.setJob_cal (j : Job) : (s.setJob j).cal = s.cal := by cases s; rfl
@[simp] theorem State.setJob_cam (j : Job) : (s.setJob j).cam = s.cam := by cases s; rfl
@[simp] theorem State.setJob_bars (j : Job) : (s.setJob j).bars = s.bars := by cases s; rfl
@[simp] theorem State.setJob_lanes (j : Job) : (s.setJob j).lanes = s.lanes := by cases s; rfl
@[simp] theorem State.setJob_enc (j : Job) : (s.setJob j).enc = s.enc := by cases s; rfl
@[simp] theorem State.setJob_axes (j : Job) : (s.setJob j).axes = s.axes := by cases s; rfl
@[simp] theorem State.setJob_lpe (j : Job) : (s.setJob j).lpe = s.lpe := by cases s; rfl
@[simp] theorem State.setJob_pwm (j : Job) : (s.setJob j).pwm = s.pwm := by cases s; rfl
@[simp] theorem State.setJob_net (j : Job) : (s.setJob j).net = s.net := by cases s; rfl
@[simp] theorem State.setJob_rst (j : Job) : (s.setJob j).rst = s.rst := by cases s; rfl
@[simp] theorem State.setJob_thm (j : Job) : (s.setJob j).thm = s.thm := by cases s; rfl

/-! ### State.setAxis -/
@[simp] theorem State.setAxis_pending (a : Nat) (x : Axis) : (s.setAxis a x).pending = s.pending := by cases s; rfl
@[simp] theorem State.setAxis_regs (a : Nat) (x : Axis) : (s.setAxis a x).regs = s.regs := by cases s; rfl
@[simp] theorem State.setAxis_read (a : Nat) (x : Axis) : (s.setAxis a x).read = s.read := by cases s; rfl
@[simp] theorem State.setAxis_time (a : Nat) (x : Axis) : (s.setAxis a x).time = s.time := by cases s; rfl
@[simp] theorem State.setAxis_hif (a : Nat) (x : Axis) : (s.setAxis a x).hif = s.hif := by cases s; rfl
@[simp] theorem State.setAxis_unitFaults (a : Nat) (x : Axis) : (s.setAxis a x).unitFaults = s.unitFaults := by cases s; rfl
@[simp] theorem State.setAxis_mirrorUnit (a : Nat) (x : Axis) : (s.setAxis a x).mirrorUnit = s.mirrorUnit := by cases s; rfl
@[simp] theorem State.setAxis_hostMem (a : Nat) (x : Axis) : (s.setAxis a x).hostMem = s.hostMem := by cases s; rfl
@[simp] theorem State.setAxis_dram (a : Nat) (x : Axis) : (s.setAxis a x).dram = s.dram := by cases s; rfl
@[simp] theorem State.setAxis_poison (a : Nat) (x : Axis) : (s.setAxis a x).poison = s.poison := by cases s; rfl
@[simp] theorem State.setAxis_mram (a : Nat) (x : Axis) : (s.setAxis a x).mram = s.mram := by cases s; rfl
@[simp] theorem State.setAxis_press (a : Nat) (x : Axis) : (s.setAxis a x).press = s.press := by cases s; rfl
@[simp] theorem State.setAxis_cmx (a : Nat) (x : Axis) : (s.setAxis a x).cmx = s.cmx := by cases s; rfl
@[simp] theorem State.setAxis_heads (a : Nat) (x : Axis) : (s.setAxis a x).heads = s.heads := by cases s; rfl
@[simp] theorem State.setAxis_ldg (a : Nat) (x : Axis) : (s.setAxis a x).ldg = s.ldg := by cases s; rfl
@[simp] theorem State.setAxis_web (a : Nat) (x : Axis) : (s.setAxis a x).web = s.web := by cases s; rfl
@[simp] theorem State.setAxis_dmc (a : Nat) (x : Axis) : (s.setAxis a x).dmc = s.dmc := by cases s; rfl
@[simp] theorem State.setAxis_par (a : Nat) (x : Axis) : (s.setAxis a x).par = s.par := by cases s; rfl
@[simp] theorem State.setAxis_cal (a : Nat) (x : Axis) : (s.setAxis a x).cal = s.cal := by cases s; rfl
@[simp] theorem State.setAxis_cam (a : Nat) (x : Axis) : (s.setAxis a x).cam = s.cam := by cases s; rfl
@[simp] theorem State.setAxis_bars (a : Nat) (x : Axis) : (s.setAxis a x).bars = s.bars := by cases s; rfl
@[simp] theorem State.setAxis_lanes (a : Nat) (x : Axis) : (s.setAxis a x).lanes = s.lanes := by cases s; rfl
@[simp] theorem State.setAxis_enc (a : Nat) (x : Axis) : (s.setAxis a x).enc = s.enc := by cases s; rfl
@[simp] theorem State.setAxis_lpe (a : Nat) (x : Axis) : (s.setAxis a x).lpe = s.lpe := by cases s; rfl
@[simp] theorem State.setAxis_pwm (a : Nat) (x : Axis) : (s.setAxis a x).pwm = s.pwm := by cases s; rfl
@[simp] theorem State.setAxis_net (a : Nat) (x : Axis) : (s.setAxis a x).net = s.net := by cases s; rfl
@[simp] theorem State.setAxis_rst (a : Nat) (x : Axis) : (s.setAxis a x).rst = s.rst := by cases s; rfl
@[simp] theorem State.setAxis_thm (a : Nat) (x : Axis) : (s.setAxis a x).thm = s.thm := by cases s; rfl

/-! ### State.setBar -/
@[simp] theorem State.setBar_pending (q : Nat) (b : Bar) : (s.setBar q b).pending = s.pending := by cases s; rfl
@[simp] theorem State.setBar_regs (q : Nat) (b : Bar) : (s.setBar q b).regs = s.regs := by cases s; rfl
@[simp] theorem State.setBar_read (q : Nat) (b : Bar) : (s.setBar q b).read = s.read := by cases s; rfl
@[simp] theorem State.setBar_time (q : Nat) (b : Bar) : (s.setBar q b).time = s.time := by cases s; rfl
@[simp] theorem State.setBar_hif (q : Nat) (b : Bar) : (s.setBar q b).hif = s.hif := by cases s; rfl
@[simp] theorem State.setBar_unitFaults (q : Nat) (b : Bar) : (s.setBar q b).unitFaults = s.unitFaults := by cases s; rfl
@[simp] theorem State.setBar_mirrorUnit (q : Nat) (b : Bar) : (s.setBar q b).mirrorUnit = s.mirrorUnit := by cases s; rfl
@[simp] theorem State.setBar_hostMem (q : Nat) (b : Bar) : (s.setBar q b).hostMem = s.hostMem := by cases s; rfl
@[simp] theorem State.setBar_dram (q : Nat) (b : Bar) : (s.setBar q b).dram = s.dram := by cases s; rfl
@[simp] theorem State.setBar_poison (q : Nat) (b : Bar) : (s.setBar q b).poison = s.poison := by cases s; rfl
@[simp] theorem State.setBar_mram (q : Nat) (b : Bar) : (s.setBar q b).mram = s.mram := by cases s; rfl
@[simp] theorem State.setBar_press (q : Nat) (b : Bar) : (s.setBar q b).press = s.press := by cases s; rfl
@[simp] theorem State.setBar_cmx (q : Nat) (b : Bar) : (s.setBar q b).cmx = s.cmx := by cases s; rfl
@[simp] theorem State.setBar_heads (q : Nat) (b : Bar) : (s.setBar q b).heads = s.heads := by cases s; rfl
@[simp] theorem State.setBar_ldg (q : Nat) (b : Bar) : (s.setBar q b).ldg = s.ldg := by cases s; rfl
@[simp] theorem State.setBar_web (q : Nat) (b : Bar) : (s.setBar q b).web = s.web := by cases s; rfl
@[simp] theorem State.setBar_dmc (q : Nat) (b : Bar) : (s.setBar q b).dmc = s.dmc := by cases s; rfl
@[simp] theorem State.setBar_par (q : Nat) (b : Bar) : (s.setBar q b).par = s.par := by cases s; rfl
@[simp] theorem State.setBar_cal (q : Nat) (b : Bar) : (s.setBar q b).cal = s.cal := by cases s; rfl
@[simp] theorem State.setBar_cam (q : Nat) (b : Bar) : (s.setBar q b).cam = s.cam := by cases s; rfl
@[simp] theorem State.setBar_lanes (q : Nat) (b : Bar) : (s.setBar q b).lanes = s.lanes := by cases s; rfl
@[simp] theorem State.setBar_enc (q : Nat) (b : Bar) : (s.setBar q b).enc = s.enc := by cases s; rfl
@[simp] theorem State.setBar_axes (q : Nat) (b : Bar) : (s.setBar q b).axes = s.axes := by cases s; rfl
@[simp] theorem State.setBar_lpe (q : Nat) (b : Bar) : (s.setBar q b).lpe = s.lpe := by cases s; rfl
@[simp] theorem State.setBar_pwm (q : Nat) (b : Bar) : (s.setBar q b).pwm = s.pwm := by cases s; rfl
@[simp] theorem State.setBar_net (q : Nat) (b : Bar) : (s.setBar q b).net = s.net := by cases s; rfl
@[simp] theorem State.setBar_rst (q : Nat) (b : Bar) : (s.setBar q b).rst = s.rst := by cases s; rfl
@[simp] theorem State.setBar_thm (q : Nat) (b : Bar) : (s.setBar q b).thm = s.thm := by cases s; rfl

/-! ### State.setLoop -/
@[simp] theorem State.setLoop_pending (l : Nat) (x : Loop) : (s.setLoop l x).pending = s.pending := by cases s; rfl
@[simp] theorem State.setLoop_regs (l : Nat) (x : Loop) : (s.setLoop l x).regs = s.regs := by cases s; rfl
@[simp] theorem State.setLoop_read (l : Nat) (x : Loop) : (s.setLoop l x).read = s.read := by cases s; rfl
@[simp] theorem State.setLoop_time (l : Nat) (x : Loop) : (s.setLoop l x).time = s.time := by cases s; rfl
@[simp] theorem State.setLoop_hif (l : Nat) (x : Loop) : (s.setLoop l x).hif = s.hif := by cases s; rfl
@[simp] theorem State.setLoop_unitFaults (l : Nat) (x : Loop) : (s.setLoop l x).unitFaults = s.unitFaults := by cases s; rfl
@[simp] theorem State.setLoop_mirrorUnit (l : Nat) (x : Loop) : (s.setLoop l x).mirrorUnit = s.mirrorUnit := by cases s; rfl
@[simp] theorem State.setLoop_hostMem (l : Nat) (x : Loop) : (s.setLoop l x).hostMem = s.hostMem := by cases s; rfl
@[simp] theorem State.setLoop_dram (l : Nat) (x : Loop) : (s.setLoop l x).dram = s.dram := by cases s; rfl
@[simp] theorem State.setLoop_poison (l : Nat) (x : Loop) : (s.setLoop l x).poison = s.poison := by cases s; rfl
@[simp] theorem State.setLoop_mram (l : Nat) (x : Loop) : (s.setLoop l x).mram = s.mram := by cases s; rfl
@[simp] theorem State.setLoop_press (l : Nat) (x : Loop) : (s.setLoop l x).press = s.press := by cases s; rfl
@[simp] theorem State.setLoop_cmx (l : Nat) (x : Loop) : (s.setLoop l x).cmx = s.cmx := by cases s; rfl
@[simp] theorem State.setLoop_heads (l : Nat) (x : Loop) : (s.setLoop l x).heads = s.heads := by cases s; rfl
@[simp] theorem State.setLoop_ldg (l : Nat) (x : Loop) : (s.setLoop l x).ldg = s.ldg := by cases s; rfl
@[simp] theorem State.setLoop_web (l : Nat) (x : Loop) : (s.setLoop l x).web = s.web := by cases s; rfl
@[simp] theorem State.setLoop_dmc (l : Nat) (x : Loop) : (s.setLoop l x).dmc = s.dmc := by cases s; rfl
@[simp] theorem State.setLoop_par (l : Nat) (x : Loop) : (s.setLoop l x).par = s.par := by cases s; rfl
@[simp] theorem State.setLoop_cal (l : Nat) (x : Loop) : (s.setLoop l x).cal = s.cal := by cases s; rfl
@[simp] theorem State.setLoop_cam (l : Nat) (x : Loop) : (s.setLoop l x).cam = s.cam := by cases s; rfl
@[simp] theorem State.setLoop_bars (l : Nat) (x : Loop) : (s.setLoop l x).bars = s.bars := by cases s; rfl
@[simp] theorem State.setLoop_lanes (l : Nat) (x : Loop) : (s.setLoop l x).lanes = s.lanes := by cases s; rfl
@[simp] theorem State.setLoop_enc (l : Nat) (x : Loop) : (s.setLoop l x).enc = s.enc := by cases s; rfl
@[simp] theorem State.setLoop_axes (l : Nat) (x : Loop) : (s.setLoop l x).axes = s.axes := by cases s; rfl
@[simp] theorem State.setLoop_pwm (l : Nat) (x : Loop) : (s.setLoop l x).pwm = s.pwm := by cases s; rfl
@[simp] theorem State.setLoop_net (l : Nat) (x : Loop) : (s.setLoop l x).net = s.net := by cases s; rfl
@[simp] theorem State.setLoop_rst (l : Nat) (x : Loop) : (s.setLoop l x).rst = s.rst := by cases s; rfl
@[simp] theorem State.setLoop_thm (l : Nat) (x : Loop) : (s.setLoop l x).thm = s.thm := by cases s; rfl

/-! ### State.setPort -/
@[simp] theorem State.setPort_pending (p : Nat) (x : Port) : (s.setPort p x).pending = s.pending := by cases s; rfl
@[simp] theorem State.setPort_regs (p : Nat) (x : Port) : (s.setPort p x).regs = s.regs := by cases s; rfl
@[simp] theorem State.setPort_read (p : Nat) (x : Port) : (s.setPort p x).read = s.read := by cases s; rfl
@[simp] theorem State.setPort_time (p : Nat) (x : Port) : (s.setPort p x).time = s.time := by cases s; rfl
@[simp] theorem State.setPort_hif (p : Nat) (x : Port) : (s.setPort p x).hif = s.hif := by cases s; rfl
@[simp] theorem State.setPort_unitFaults (p : Nat) (x : Port) : (s.setPort p x).unitFaults = s.unitFaults := by cases s; rfl
@[simp] theorem State.setPort_mirrorUnit (p : Nat) (x : Port) : (s.setPort p x).mirrorUnit = s.mirrorUnit := by cases s; rfl
@[simp] theorem State.setPort_hostMem (p : Nat) (x : Port) : (s.setPort p x).hostMem = s.hostMem := by cases s; rfl
@[simp] theorem State.setPort_dram (p : Nat) (x : Port) : (s.setPort p x).dram = s.dram := by cases s; rfl
@[simp] theorem State.setPort_poison (p : Nat) (x : Port) : (s.setPort p x).poison = s.poison := by cases s; rfl
@[simp] theorem State.setPort_mram (p : Nat) (x : Port) : (s.setPort p x).mram = s.mram := by cases s; rfl
@[simp] theorem State.setPort_press (p : Nat) (x : Port) : (s.setPort p x).press = s.press := by cases s; rfl
@[simp] theorem State.setPort_cmx (p : Nat) (x : Port) : (s.setPort p x).cmx = s.cmx := by cases s; rfl
@[simp] theorem State.setPort_ldg (p : Nat) (x : Port) : (s.setPort p x).ldg = s.ldg := by cases s; rfl
@[simp] theorem State.setPort_web (p : Nat) (x : Port) : (s.setPort p x).web = s.web := by cases s; rfl
@[simp] theorem State.setPort_dmc (p : Nat) (x : Port) : (s.setPort p x).dmc = s.dmc := by cases s; rfl
@[simp] theorem State.setPort_par (p : Nat) (x : Port) : (s.setPort p x).par = s.par := by cases s; rfl
@[simp] theorem State.setPort_cal (p : Nat) (x : Port) : (s.setPort p x).cal = s.cal := by cases s; rfl
@[simp] theorem State.setPort_cam (p : Nat) (x : Port) : (s.setPort p x).cam = s.cam := by cases s; rfl
@[simp] theorem State.setPort_bars (p : Nat) (x : Port) : (s.setPort p x).bars = s.bars := by cases s; rfl
@[simp] theorem State.setPort_lanes (p : Nat) (x : Port) : (s.setPort p x).lanes = s.lanes := by cases s; rfl
@[simp] theorem State.setPort_enc (p : Nat) (x : Port) : (s.setPort p x).enc = s.enc := by cases s; rfl
@[simp] theorem State.setPort_axes (p : Nat) (x : Port) : (s.setPort p x).axes = s.axes := by cases s; rfl
@[simp] theorem State.setPort_lpe (p : Nat) (x : Port) : (s.setPort p x).lpe = s.lpe := by cases s; rfl
@[simp] theorem State.setPort_pwm (p : Nat) (x : Port) : (s.setPort p x).pwm = s.pwm := by cases s; rfl
@[simp] theorem State.setPort_net (p : Nat) (x : Port) : (s.setPort p x).net = s.net := by cases s; rfl
@[simp] theorem State.setPort_rst (p : Nat) (x : Port) : (s.setPort p x).rst = s.rst := by cases s; rfl
@[simp] theorem State.setPort_thm (p : Nat) (x : Port) : (s.setPort p x).thm = s.thm := by cases s; rfl

/-! ### State.setCtl -/
@[simp] theorem State.setCtl_pending (p slot : Nat) (x : CtlSlot) : (s.setCtl p slot x).pending = s.pending := by cases s; rfl
@[simp] theorem State.setCtl_regs (p slot : Nat) (x : CtlSlot) : (s.setCtl p slot x).regs = s.regs := by cases s; rfl
@[simp] theorem State.setCtl_read (p slot : Nat) (x : CtlSlot) : (s.setCtl p slot x).read = s.read := by cases s; rfl
@[simp] theorem State.setCtl_time (p slot : Nat) (x : CtlSlot) : (s.setCtl p slot x).time = s.time := by cases s; rfl
@[simp] theorem State.setCtl_hif (p slot : Nat) (x : CtlSlot) : (s.setCtl p slot x).hif = s.hif := by cases s; rfl
@[simp] theorem State.setCtl_unitFaults (p slot : Nat) (x : CtlSlot) : (s.setCtl p slot x).unitFaults = s.unitFaults := by cases s; rfl
@[simp] theorem State.setCtl_mirrorUnit (p slot : Nat) (x : CtlSlot) : (s.setCtl p slot x).mirrorUnit = s.mirrorUnit := by cases s; rfl
@[simp] theorem State.setCtl_hostMem (p slot : Nat) (x : CtlSlot) : (s.setCtl p slot x).hostMem = s.hostMem := by cases s; rfl
@[simp] theorem State.setCtl_dram (p slot : Nat) (x : CtlSlot) : (s.setCtl p slot x).dram = s.dram := by cases s; rfl
@[simp] theorem State.setCtl_poison (p slot : Nat) (x : CtlSlot) : (s.setCtl p slot x).poison = s.poison := by cases s; rfl
@[simp] theorem State.setCtl_mram (p slot : Nat) (x : CtlSlot) : (s.setCtl p slot x).mram = s.mram := by cases s; rfl
@[simp] theorem State.setCtl_press (p slot : Nat) (x : CtlSlot) : (s.setCtl p slot x).press = s.press := by cases s; rfl
@[simp] theorem State.setCtl_cmx (p slot : Nat) (x : CtlSlot) : (s.setCtl p slot x).cmx = s.cmx := by cases s; rfl
@[simp] theorem State.setCtl_ldg (p slot : Nat) (x : CtlSlot) : (s.setCtl p slot x).ldg = s.ldg := by cases s; rfl
@[simp] theorem State.setCtl_web (p slot : Nat) (x : CtlSlot) : (s.setCtl p slot x).web = s.web := by cases s; rfl
@[simp] theorem State.setCtl_dmc (p slot : Nat) (x : CtlSlot) : (s.setCtl p slot x).dmc = s.dmc := by cases s; rfl
@[simp] theorem State.setCtl_par (p slot : Nat) (x : CtlSlot) : (s.setCtl p slot x).par = s.par := by cases s; rfl
@[simp] theorem State.setCtl_cal (p slot : Nat) (x : CtlSlot) : (s.setCtl p slot x).cal = s.cal := by cases s; rfl
@[simp] theorem State.setCtl_cam (p slot : Nat) (x : CtlSlot) : (s.setCtl p slot x).cam = s.cam := by cases s; rfl
@[simp] theorem State.setCtl_bars (p slot : Nat) (x : CtlSlot) : (s.setCtl p slot x).bars = s.bars := by cases s; rfl
@[simp] theorem State.setCtl_lanes (p slot : Nat) (x : CtlSlot) : (s.setCtl p slot x).lanes = s.lanes := by cases s; rfl
@[simp] theorem State.setCtl_enc (p slot : Nat) (x : CtlSlot) : (s.setCtl p slot x).enc = s.enc := by cases s; rfl
@[simp] theorem State.setCtl_axes (p slot : Nat) (x : CtlSlot) : (s.setCtl p slot x).axes = s.axes := by cases s; rfl
@[simp] theorem State.setCtl_lpe (p slot : Nat) (x : CtlSlot) : (s.setCtl p slot x).lpe = s.lpe := by cases s; rfl
@[simp] theorem State.setCtl_pwm (p slot : Nat) (x : CtlSlot) : (s.setCtl p slot x).pwm = s.pwm := by cases s; rfl
@[simp] theorem State.setCtl_net (p slot : Nat) (x : CtlSlot) : (s.setCtl p slot x).net = s.net := by cases s; rfl
@[simp] theorem State.setCtl_rst (p slot : Nat) (x : CtlSlot) : (s.setCtl p slot x).rst = s.rst := by cases s; rfl
@[simp] theorem State.setCtl_thm (p slot : Nat) (x : CtlSlot) : (s.setCtl p slot x).thm = s.thm := by cases s; rfl

/-! ### State.setTile -/
@[simp] theorem State.setTile_pending (p slot : Nat) (x : Tile) : (s.setTile p slot x).pending = s.pending := by cases s; rfl
@[simp] theorem State.setTile_regs (p slot : Nat) (x : Tile) : (s.setTile p slot x).regs = s.regs := by cases s; rfl
@[simp] theorem State.setTile_read (p slot : Nat) (x : Tile) : (s.setTile p slot x).read = s.read := by cases s; rfl
@[simp] theorem State.setTile_time (p slot : Nat) (x : Tile) : (s.setTile p slot x).time = s.time := by cases s; rfl
@[simp] theorem State.setTile_hif (p slot : Nat) (x : Tile) : (s.setTile p slot x).hif = s.hif := by cases s; rfl
@[simp] theorem State.setTile_unitFaults (p slot : Nat) (x : Tile) : (s.setTile p slot x).unitFaults = s.unitFaults := by cases s; rfl
@[simp] theorem State.setTile_mirrorUnit (p slot : Nat) (x : Tile) : (s.setTile p slot x).mirrorUnit = s.mirrorUnit := by cases s; rfl
@[simp] theorem State.setTile_hostMem (p slot : Nat) (x : Tile) : (s.setTile p slot x).hostMem = s.hostMem := by cases s; rfl
@[simp] theorem State.setTile_dram (p slot : Nat) (x : Tile) : (s.setTile p slot x).dram = s.dram := by cases s; rfl
@[simp] theorem State.setTile_poison (p slot : Nat) (x : Tile) : (s.setTile p slot x).poison = s.poison := by cases s; rfl
@[simp] theorem State.setTile_mram (p slot : Nat) (x : Tile) : (s.setTile p slot x).mram = s.mram := by cases s; rfl
@[simp] theorem State.setTile_press (p slot : Nat) (x : Tile) : (s.setTile p slot x).press = s.press := by cases s; rfl
@[simp] theorem State.setTile_cmx (p slot : Nat) (x : Tile) : (s.setTile p slot x).cmx = s.cmx := by cases s; rfl
@[simp] theorem State.setTile_ldg (p slot : Nat) (x : Tile) : (s.setTile p slot x).ldg = s.ldg := by cases s; rfl
@[simp] theorem State.setTile_web (p slot : Nat) (x : Tile) : (s.setTile p slot x).web = s.web := by cases s; rfl
@[simp] theorem State.setTile_dmc (p slot : Nat) (x : Tile) : (s.setTile p slot x).dmc = s.dmc := by cases s; rfl
@[simp] theorem State.setTile_par (p slot : Nat) (x : Tile) : (s.setTile p slot x).par = s.par := by cases s; rfl
@[simp] theorem State.setTile_cal (p slot : Nat) (x : Tile) : (s.setTile p slot x).cal = s.cal := by cases s; rfl
@[simp] theorem State.setTile_cam (p slot : Nat) (x : Tile) : (s.setTile p slot x).cam = s.cam := by cases s; rfl
@[simp] theorem State.setTile_bars (p slot : Nat) (x : Tile) : (s.setTile p slot x).bars = s.bars := by cases s; rfl
@[simp] theorem State.setTile_lanes (p slot : Nat) (x : Tile) : (s.setTile p slot x).lanes = s.lanes := by cases s; rfl
@[simp] theorem State.setTile_enc (p slot : Nat) (x : Tile) : (s.setTile p slot x).enc = s.enc := by cases s; rfl
@[simp] theorem State.setTile_axes (p slot : Nat) (x : Tile) : (s.setTile p slot x).axes = s.axes := by cases s; rfl
@[simp] theorem State.setTile_lpe (p slot : Nat) (x : Tile) : (s.setTile p slot x).lpe = s.lpe := by cases s; rfl
@[simp] theorem State.setTile_pwm (p slot : Nat) (x : Tile) : (s.setTile p slot x).pwm = s.pwm := by cases s; rfl
@[simp] theorem State.setTile_net (p slot : Nat) (x : Tile) : (s.setTile p slot x).net = s.net := by cases s; rfl
@[simp] theorem State.setTile_rst (p slot : Nat) (x : Tile) : (s.setTile p slot x).rst = s.rst := by cases s; rfl
@[simp] theorem State.setTile_thm (p slot : Nat) (x : Tile) : (s.setTile p slot x).thm = s.thm := by cases s; rfl

/-! ### What a whole-component update leaves -/
@[simp] theorem State.setCal_cal (x : Cal) : (s.setCal x).cal = x := by cases s; rfl
@[simp] theorem State.setCam_cam (x : Cam) : (s.setCam x).cam = x := by cases s; rfl
@[simp] theorem State.setEnc_enc (x : Enc) : (s.setEnc x).enc = x := by cases s; rfl
@[simp] theorem State.setLdg_ldg (x : Ledger) : (s.setLdg x).ldg = x := by cases s; rfl
@[simp] theorem State.setPar_par (x : Par) : (s.setPar x).par = x := by cases s; rfl
@[simp] theorem State.setRst_rst (x : Rst) : (s.setRst x).rst = x := by cases s; rfl
@[simp] theorem State.setThm_thm (x : Thm) : (s.setThm x).thm = x := by cases s; rfl
@[simp] theorem State.setHeads_heads (x : Heads) : (s.setHeads x).heads = x := by cases s; rfl
@[simp] theorem State.setAxis_axes (a : Nat) (x : Axis) : (s.setAxis a x).axes = s.axes.set a x := rfl
@[simp] theorem State.setBar_bars (q : Nat) (b : Bar) : (s.setBar q b).bars = s.bars.set q b := rfl
@[simp] theorem State.setJob_job (j : Job) : (s.setJob j).press.job = some j := rfl
@[simp] theorem State.rset_regs (a : Nat) (v : Word) : (s.rset a v).regs = s.regs.set a v := rfl

/-! ### Updates of a unit's state: the mirror port has its own word, every other unit its status register -/
@[simp] theorem State.setUst_pending (u : UnitId) (x : UState) : (s.setUst u x).pending = s.pending := by cases u <;> rfl
@[simp] theorem State.setUst_read (u : UnitId) (x : UState) : (s.setUst u x).read = s.read := by cases u <;> rfl
@[simp] theorem State.setUst_time (u : UnitId) (x : UState) : (s.setUst u x).time = s.time := by cases u <;> rfl
@[simp] theorem State.setUst_hif (u : UnitId) (x : UState) : (s.setUst u x).hif = s.hif := by cases u <;> rfl
@[simp] theorem State.setUst_unitFaults (u : UnitId) (x : UState) : (s.setUst u x).unitFaults = s.unitFaults := by cases u <;> rfl
@[simp] theorem State.setUst_hostMem (u : UnitId) (x : UState) : (s.setUst u x).hostMem = s.hostMem := by cases u <;> rfl
@[simp] theorem State.setUst_dram (u : UnitId) (x : UState) : (s.setUst u x).dram = s.dram := by cases u <;> rfl
@[simp] theorem State.setUst_poison (u : UnitId) (x : UState) : (s.setUst u x).poison = s.poison := by cases u <;> rfl
@[simp] theorem State.setUst_mram (u : UnitId) (x : UState) : (s.setUst u x).mram = s.mram := by cases u <;> rfl
@[simp] theorem State.setUst_press (u : UnitId) (x : UState) : (s.setUst u x).press = s.press := by cases u <;> rfl
@[simp] theorem State.setUst_cmx (u : UnitId) (x : UState) : (s.setUst u x).cmx = s.cmx := by cases u <;> rfl
@[simp] theorem State.setUst_heads (u : UnitId) (x : UState) : (s.setUst u x).heads = s.heads := by cases u <;> rfl
@[simp] theorem State.setUst_ldg (u : UnitId) (x : UState) : (s.setUst u x).ldg = s.ldg := by cases u <;> rfl
@[simp] theorem State.setUst_web (u : UnitId) (x : UState) : (s.setUst u x).web = s.web := by cases u <;> rfl
@[simp] theorem State.setUst_dmc (u : UnitId) (x : UState) : (s.setUst u x).dmc = s.dmc := by cases u <;> rfl
@[simp] theorem State.setUst_par (u : UnitId) (x : UState) : (s.setUst u x).par = s.par := by cases u <;> rfl
@[simp] theorem State.setUst_cal (u : UnitId) (x : UState) : (s.setUst u x).cal = s.cal := by cases u <;> rfl
@[simp] theorem State.setUst_cam (u : UnitId) (x : UState) : (s.setUst u x).cam = s.cam := by cases u <;> rfl
@[simp] theorem State.setUst_bars (u : UnitId) (x : UState) : (s.setUst u x).bars = s.bars := by cases u <;> rfl
@[simp] theorem State.setUst_lanes (u : UnitId) (x : UState) : (s.setUst u x).lanes = s.lanes := by cases u <;> rfl
@[simp] theorem State.setUst_enc (u : UnitId) (x : UState) : (s.setUst u x).enc = s.enc := by cases u <;> rfl
@[simp] theorem State.setUst_axes (u : UnitId) (x : UState) : (s.setUst u x).axes = s.axes := by cases u <;> rfl
@[simp] theorem State.setUst_lpe (u : UnitId) (x : UState) : (s.setUst u x).lpe = s.lpe := by cases u <;> rfl
@[simp] theorem State.setUst_pwm (u : UnitId) (x : UState) : (s.setUst u x).pwm = s.pwm := by cases u <;> rfl
@[simp] theorem State.setUst_net (u : UnitId) (x : UState) : (s.setUst u x).net = s.net := by cases u <;> rfl
@[simp] theorem State.setUst_rst (u : UnitId) (x : UState) : (s.setUst u x).rst = s.rst := by cases u <;> rfl
@[simp] theorem State.setUst_thm (u : UnitId) (x : UState) : (s.setUst u x).thm = s.thm := by cases u <;> rfl
@[simp] theorem State.setPend_pending (u : UnitId) (b : Bool) : (s.setPend u b).pending = s.pending := by cases u <;> rfl
@[simp] theorem State.setPend_read (u : UnitId) (b : Bool) : (s.setPend u b).read = s.read := by cases u <;> rfl
@[simp] theorem State.setPend_time (u : UnitId) (b : Bool) : (s.setPend u b).time = s.time := by cases u <;> rfl
@[simp] theorem State.setPend_hif (u : UnitId) (b : Bool) : (s.setPend u b).hif = s.hif := by cases u <;> rfl
@[simp] theorem State.setPend_unitFaults (u : UnitId) (b : Bool) : (s.setPend u b).unitFaults = s.unitFaults := by cases u <;> rfl
@[simp] theorem State.setPend_hostMem (u : UnitId) (b : Bool) : (s.setPend u b).hostMem = s.hostMem := by cases u <;> rfl
@[simp] theorem State.setPend_dram (u : UnitId) (b : Bool) : (s.setPend u b).dram = s.dram := by cases u <;> rfl
@[simp] theorem State.setPend_poison (u : UnitId) (b : Bool) : (s.setPend u b).poison = s.poison := by cases u <;> rfl
@[simp] theorem State.setPend_mram (u : UnitId) (b : Bool) : (s.setPend u b).mram = s.mram := by cases u <;> rfl
@[simp] theorem State.setPend_press (u : UnitId) (b : Bool) : (s.setPend u b).press = s.press := by cases u <;> rfl
@[simp] theorem State.setPend_cmx (u : UnitId) (b : Bool) : (s.setPend u b).cmx = s.cmx := by cases u <;> rfl
@[simp] theorem State.setPend_heads (u : UnitId) (b : Bool) : (s.setPend u b).heads = s.heads := by cases u <;> rfl
@[simp] theorem State.setPend_ldg (u : UnitId) (b : Bool) : (s.setPend u b).ldg = s.ldg := by cases u <;> rfl
@[simp] theorem State.setPend_web (u : UnitId) (b : Bool) : (s.setPend u b).web = s.web := by cases u <;> rfl
@[simp] theorem State.setPend_dmc (u : UnitId) (b : Bool) : (s.setPend u b).dmc = s.dmc := by cases u <;> rfl
@[simp] theorem State.setPend_par (u : UnitId) (b : Bool) : (s.setPend u b).par = s.par := by cases u <;> rfl
@[simp] theorem State.setPend_cal (u : UnitId) (b : Bool) : (s.setPend u b).cal = s.cal := by cases u <;> rfl
@[simp] theorem State.setPend_cam (u : UnitId) (b : Bool) : (s.setPend u b).cam = s.cam := by cases u <;> rfl
@[simp] theorem State.setPend_bars (u : UnitId) (b : Bool) : (s.setPend u b).bars = s.bars := by cases u <;> rfl
@[simp] theorem State.setPend_lanes (u : UnitId) (b : Bool) : (s.setPend u b).lanes = s.lanes := by cases u <;> rfl
@[simp] theorem State.setPend_enc (u : UnitId) (b : Bool) : (s.setPend u b).enc = s.enc := by cases u <;> rfl
@[simp] theorem State.setPend_axes (u : UnitId) (b : Bool) : (s.setPend u b).axes = s.axes := by cases u <;> rfl
@[simp] theorem State.setPend_lpe (u : UnitId) (b : Bool) : (s.setPend u b).lpe = s.lpe := by cases u <;> rfl
@[simp] theorem State.setPend_pwm (u : UnitId) (b : Bool) : (s.setPend u b).pwm = s.pwm := by cases u <;> rfl
@[simp] theorem State.setPend_net (u : UnitId) (b : Bool) : (s.setPend u b).net = s.net := by cases u <;> rfl
@[simp] theorem State.setPend_rst (u : UnitId) (b : Bool) : (s.setPend u b).rst = s.rst := by cases u <;> rfl
@[simp] theorem State.setPend_thm (u : UnitId) (b : Bool) : (s.setPend u b).thm = s.thm := by cases u <;> rfl

end Sys2Proof.Machine
end

