-- ==== Sys2Proof/Laws/Store.lean ====
section
/-!
SUPPORT. Laws of the register file and of byte memories: a read after a write, and that every write keeps the canonical form.
-/
namespace Sys2Proof.Machine

/-! ### The register file -/

theorem RegFile.get_filter_ne (r : RegFile) (a b : Nat) (h : a ≠ b) :
    RegFile.get (r.filter (fun e => e.1 != a)) b = RegFile.get r b := by
  induction r with
  | nil => rfl
  | cons e t ih =>
    by_cases he : e.1 = a
    · have : e.1 ≠ b := he ▸ h
      simp [RegFile.get, he, ih, h]
    · simp [RegFile.get, he, ih]

theorem RegFile.get_filter_same (r : RegFile) (a : Nat) :
    RegFile.get (r.filter (fun e => e.1 != a)) a = resetOf a := by
  induction r with
  | nil => rfl
  | cons e t ih => by_cases he : e.1 = a <;> simp [RegFile.get, he, ih]

theorem RegFile.get_ins_same (r : RegFile) (a : Nat) (v : Word) : RegFile.get (RegFile.ins r a v) a = v := by
  induction r with
  | nil => simp [RegFile.ins, RegFile.get]
  | cons e t ih =>
    simp only [RegFile.ins]
    split
    · have : e.1 ≠ a := by omega
      simp [RegFile.get, this, ih]
    · split <;> simp [RegFile.get]

theorem RegFile.get_ins_ne (r : RegFile) (a b : Nat) (v : Word) (h : a ≠ b) :
    RegFile.get (RegFile.ins r a v) b = RegFile.get r b := by
  induction r with
  | nil => simp [RegFile.ins, RegFile.get, h]
  | cons e t ih =>
    simp only [RegFile.ins]
    split
    · simp only [RegFile.get, ih]
    · split
      · have : e.1 ≠ b := by omega
        simp [RegFile.get, h, this]
      · simp [RegFile.get, h]

/-- A register reads what was written to it. -/
@[simp] theorem RegFile.get_set_same (r : RegFile) (a : Nat) (v : Word) : RegFile.get (RegFile.set r a v) a = v := by
  unfold RegFile.set
  split
  · rw [RegFile.get_filter_same, ‹v = _›]
  · exact RegFile.get_ins_same r a v

/-- A write leaves every other register alone. -/
theorem RegFile.get_set_ne (r : RegFile) (a b : Nat) (v : Word) (h : a ≠ b) :
    RegFile.get (RegFile.set r a v) b = RegFile.get r b := by
  unfold RegFile.set
  split
  · exact RegFile.get_filter_ne r a b h
  · exact RegFile.get_ins_ne r a b v h

theorem RegFile.above_mono (a b : Nat) (h : a ≤ b) (r : RegFile) (hb : RegFile.above b r = true) : RegFile.above a r = true := by
  cases r with
  | nil => rfl
  | cons e t => simp [RegFile.above, Nat.blt_eq] at *; omega

theorem RegFile.above_filter (a : Nat) (p : Nat × Word → Bool) (r : RegFile) (h : RegFile.above a r = true)
    (hw : RegFile.wf r = true) : RegFile.above a (r.filter p) = true := by
  induction r with
  | nil => rfl
  | cons e t ih =>
    simp only [RegFile.wf, Bool.and_eq_true] at hw
    have he : a < e.1 := by simpa [RegFile.above, Nat.blt_eq] using h
    by_cases hp : p e = true
    · simpa [hp, RegFile.above, Nat.blt_eq] using he
    · simp only [List.filter_cons, hp]
      exact ih (RegFile.above_mono a e.1 (by omega) t hw.1.2) hw.2

theorem RegFile.wf_filter (p : Nat × Word → Bool) (r : RegFile) (hw : RegFile.wf r = true) :
    RegFile.wf (r.filter p) = true := by
  induction r with
  | nil => rfl
  | cons e t ih =>
    simp only [RegFile.wf, Bool.and_eq_true] at hw
    by_cases hp : p e = true
    · simp only [List.filter_cons, hp, if_true, RegFile.wf, Bool.and_eq_true]
      exact ⟨⟨hw.1.1, RegFile.above_filter _ _ _ hw.1.2 hw.2⟩, ih hw.2⟩
    · simp only [List.filter_cons, hp]
      exact ih hw.2

theorem RegFile.above_ins (a b : Nat) (v : Word) (r : RegFile) (h : RegFile.above b r = true) (hab : b < a) :
    RegFile.above b (RegFile.ins r a v) = true := by
  cases r with
  | nil => simpa [RegFile.ins, RegFile.above, Nat.blt_eq] using hab
  | cons e t =>
    simp only [RegFile.ins]
    split
    · exact h
    · split <;> simpa [RegFile.above, Nat.blt_eq] using hab

theorem RegFile.wf_ins (r : RegFile) (a : Nat) (v : Word) (hv : v ≠ resetOf a) (hw : RegFile.wf r = true) :
    RegFile.wf (RegFile.ins r a v) = true := by
  induction r with
  | nil => simp [RegFile.ins, RegFile.wf, RegFile.above, hv]
  | cons e t ih =>
    have hw' := hw
    simp only [RegFile.wf, Bool.and_eq_true] at hw
    simp only [RegFile.ins]
    split
    · simp only [RegFile.wf, Bool.and_eq_true]
      exact ⟨⟨hw.1.1, RegFile.above_ins _ _ _ _ hw.1.2 ‹_›⟩, ih hw.2⟩
    · split
      · subst_vars
        simp only [RegFile.wf, Bool.and_eq_true]
        exact ⟨⟨by simpa using hv, hw.1.2⟩, hw.2⟩
      · simp only [RegFile.wf, Bool.and_eq_true] at hw' ⊢
        exact ⟨⟨by simpa using hv, by simp [RegFile.above, Nat.blt_eq]; omega⟩, hw'⟩

/-- Every write of a register keeps the canonical form. -/
theorem RegFile.wf_set (r : RegFile) (a : Nat) (v : Word) (hw : RegFile.wf r = true) :
    RegFile.wf (RegFile.set r a v) = true := by
  unfold RegFile.set
  split
  · exact RegFile.wf_filter _ r hw
  · exact RegFile.wf_ins r a v ‹_› hw

/-! ### Byte memories -/

theorem Mem.read_filter_ne (m : Memory) (a b : Nat) (h : a ≠ b) :
    Mem.read (m.filter (fun c => c.1 != a)) b = Mem.read m b := by
  induction m with
  | nil => rfl
  | cons c t ih =>
    by_cases hc : c.1 = a
    · have : c.1 ≠ b := hc ▸ h
      simp [Mem.read, hc, ih, h]
    · simp [Mem.read, hc, ih]

theorem Mem.read_filter_same (m : Memory) (a : Nat) : Mem.read (m.filter (fun c => c.1 != a)) a = Mem.empty := by
  induction m with
  | nil => rfl
  | cons c t ih => by_cases hc : c.1 = a <;> simp [Mem.read, hc, ih]

theorem Mem.read_ins_same (m : Memory) (a : Nat) (v : Byte) : Mem.read (Mem.ins m a v) a = v := by
  induction m with
  | nil => simp [Mem.ins, Mem.read]
  | cons c t ih =>
    simp only [Mem.ins]
    split
    · have : c.1 ≠ a := by omega
      simp [Mem.read, this, ih]
    · split <;> simp [Mem.read]

theorem Mem.read_ins_ne (m : Memory) (a b : Nat) (v : Byte) (h : a ≠ b) :
    Mem.read (Mem.ins m a v) b = Mem.read m b := by
  induction m with
  | nil => simp [Mem.ins, Mem.read, h]
  | cons c t ih =>
    simp only [Mem.ins]
    split
    · simp only [Mem.read, ih]
    · split
      · have : c.1 ≠ b := by omega
        simp [Mem.read, h, this]
      · simp [Mem.read, h]

/-- A byte reads what was written to it. -/
@[simp] theorem Mem.read_write_same (m : Memory) (a : Nat) (v : Byte) : Mem.read (Mem.write m a v) a = v := by
  unfold Mem.write
  split
  · rw [Mem.read_filter_same, ‹v = _›]
  · exact Mem.read_ins_same m a v

/-- A write leaves every other byte alone. -/
theorem Mem.read_write_ne (m : Memory) (a b : Nat) (v : Byte) (h : a ≠ b) :
    Mem.read (Mem.write m a v) b = Mem.read m b := by
  unfold Mem.write
  split
  · exact Mem.read_filter_ne m a b h
  · exact Mem.read_ins_ne m a b v h

/-- A write of a byte string leaves every byte outside it alone. -/
theorem Mem.read_writes_outside (vs : List Byte) (m : Memory) (a b : Nat) (h : b < a ∨ a + vs.length ≤ b) :
    Mem.read (Mem.writes m a vs) b = Mem.read m b := by
  induction vs generalizing m a with
  | nil => rfl
  | cons v t ih =>
    simp only [List.length_cons] at h
    rw [Mem.writes, ih _ _ (by omega), Mem.read_write_ne _ _ _ _ (by omega)]

/-- A byte string reads back byte by byte. -/
theorem Mem.read_writes_inside (vs : List Byte) (m : Memory) (a i : Nat) (h : i < vs.length) :
    Mem.read (Mem.writes m a vs) (a + i) = vs[i] := by
  induction vs generalizing m a i with
  | nil => simp at h
  | cons v t ih =>
    cases i with
    | zero => simp [Mem.writes, Mem.read_writes_outside t _ (a + 1) a (by omega)]
    | succ i =>
      have := ih (Mem.write m a v) (a + 1) i (by simpa using h)
      simpa [Mem.writes, Nat.add_assoc, Nat.add_comm 1 i] using this

theorem Mem.above_mono (a b : Nat) (h : a ≤ b) (m : Memory) (hb : Mem.above b m = true) : Mem.above a m = true := by
  cases m with
  | nil => rfl
  | cons c t => simp [Mem.above, Nat.blt_eq] at *; omega

theorem Mem.above_filter (a : Nat) (p : Host.Cell → Bool) (m : Memory) (h : Mem.above a m = true)
    (hw : Mem.wf m = true) : Mem.above a (m.filter p) = true := by
  induction m with
  | nil => rfl
  | cons c t ih =>
    simp only [Mem.wf, Bool.and_eq_true] at hw
    have he : a < c.1 := by simpa [Mem.above, Nat.blt_eq] using h
    by_cases hp : p c = true
    · simpa [hp, Mem.above, Nat.blt_eq] using he
    · simp only [List.filter_cons, hp]
      exact ih (Mem.above_mono a c.1 (by omega) t hw.1.2) hw.2

theorem Mem.wf_filter (p : Host.Cell → Bool) (m : Memory) (hw : Mem.wf m = true) : Mem.wf (m.filter p) = true := by
  induction m with
  | nil => rfl
  | cons c t ih =>
    simp only [Mem.wf, Bool.and_eq_true] at hw
    by_cases hp : p c = true
    · simp only [List.filter_cons, hp, if_true, Mem.wf, Bool.and_eq_true]
      exact ⟨⟨hw.1.1, Mem.above_filter _ _ _ hw.1.2 hw.2⟩, ih hw.2⟩
    · simp only [List.filter_cons, hp]
      exact ih hw.2

theorem Mem.above_ins (a b : Nat) (v : Byte) (m : Memory) (h : Mem.above b m = true) (hab : b < a) :
    Mem.above b (Mem.ins m a v) = true := by
  cases m with
  | nil => simpa [Mem.ins, Mem.above, Nat.blt_eq] using hab
  | cons c t =>
    simp only [Mem.ins]
    split
    · exact h
    · split <;> simpa [Mem.above, Nat.blt_eq] using hab

theorem Mem.wf_ins (m : Memory) (a : Nat) (v : Byte) (hv : v ≠ Mem.empty) (hw : Mem.wf m = true) :
    Mem.wf (Mem.ins m a v) = true := by
  induction m with
  | nil => simp [Mem.ins, Mem.wf, Mem.above, hv]
  | cons c t ih =>
    have hw' := hw
    simp only [Mem.wf, Bool.and_eq_true] at hw
    simp only [Mem.ins]
    split
    · simp only [Mem.wf, Bool.and_eq_true]
      exact ⟨⟨hw.1.1, Mem.above_ins _ _ _ _ hw.1.2 ‹_›⟩, ih hw.2⟩
    · split
      · subst_vars
        simp only [Mem.wf, Bool.and_eq_true]
        exact ⟨⟨by simpa using hv, hw.1.2⟩, hw.2⟩
      · simp only [Mem.wf, Bool.and_eq_true] at hw' ⊢
        exact ⟨⟨by simpa using hv, by simp [Mem.above, Nat.blt_eq]; omega⟩, hw'⟩

/-- Every write of a byte keeps the canonical form. -/
theorem Mem.wf_write (m : Memory) (a : Nat) (v : Byte) (hw : Mem.wf m = true) : Mem.wf (Mem.write m a v) = true := by
  unfold Mem.write
  split
  · exact Mem.wf_filter _ m hw
  · exact Mem.wf_ins m a v ‹_› hw

/-- Every write of a byte string keeps the canonical form. -/
theorem Mem.wf_writes (vs : List Byte) (m : Memory) (a : Nat) (hw : Mem.wf m = true) : Mem.wf (Mem.writes m a vs) = true := by
  induction vs generalizing m a with
  | nil => exact hw
  | cons v t ih => exact ih _ _ (Mem.wf_write m a v hw)

/-! ### Sparse maps -/

theorem AMap.get_set_same {α : Type} (m : AMap α) (k : Nat) (v d : α) : AMap.get (AMap.set m k v) k d = v := by
  induction m with
  | nil => simp [AMap.set, AMap.get]
  | cons e t ih =>
    simp only [AMap.set]
    split
    · have : e.1 ≠ k := by omega
      simp [AMap.get, this, ih]
    · split <;> simp [AMap.get]

theorem AMap.get_set_ne {α : Type} (m : AMap α) (k j : Nat) (v d : α) (h : k ≠ j) :
    AMap.get (AMap.set m k v) j d = AMap.get m j d := by
  induction m with
  | nil => simp [AMap.set, AMap.get, h]
  | cons e t ih =>
    simp only [AMap.set]
    split
    · simp only [AMap.get, ih]
    · split
      · have : e.1 ≠ j := by omega
        simp [AMap.get, h, this]
      · simp [AMap.get, h]

end Sys2Proof.Machine
end

