-- ==== Sys2Proof/Laws/Fields.lean ====
section
/-!
SUPPORT. Laws of register fields: what a field reads after a write of the same field, of another field of its register, and of
another register.
-/
namespace Sys2Proof.Machine

/-! ### Numbers -/

@[simp] theorem b2n_true : b2n true = 1 := rfl
@[simp] theorem b2n_false : b2n false = 0 := rfl
theorem b2n_lt_two (b : Bool) : b2n b < 2 := by cases b <;> decide

theorem setBits_decomp (v hi lo x : Nat) :
    setBits v hi lo x = v % 2 ^ lo + 2 ^ lo * (x % 2 ^ (hi - lo + 1)) + 2 ^ lo * 2 ^ (hi - lo + 1) * (v / 2 ^ lo / 2 ^ (hi - lo + 1)) := by
  have h1 : v = v % 2 ^ lo + 2 ^ lo * (v / 2 ^ lo) := (Nat.mod_add_div v (2 ^ lo)).symm
  have h2 : v / 2 ^ lo = v / 2 ^ lo % 2 ^ (hi - lo + 1) + 2 ^ (hi - lo + 1) * (v / 2 ^ lo / 2 ^ (hi - lo + 1)) :=
    (Nat.mod_add_div _ _).symm
  unfold setBits bits
  generalize v / 2 ^ lo % 2 ^ (hi - lo + 1) = b at *
  generalize v / 2 ^ lo / 2 ^ (hi - lo + 1) = c at *
  generalize v % 2 ^ lo = a at *
  rw [h2] at h1
  have h3 : v = a + b * 2 ^ lo + 2 ^ lo * 2 ^ (hi - lo + 1) * c := by rw [h1]; ring
  rw [Nat.mul_comm (2 ^ lo) (x % _)]
  omega

/-- A field reads the low bits of what was written to it. -/
theorem bits_setBits_same (v hi lo x : Nat) : bits (setBits v hi lo x) hi lo = x % 2 ^ (hi - lo + 1) := by
  rw [setBits_decomp]
  unfold bits
  have hp : 0 < 2 ^ lo := Nat.two_pow_pos lo
  have h : (v % 2 ^ lo + 2 ^ lo * (x % 2 ^ (hi - lo + 1)) + 2 ^ lo * 2 ^ (hi - lo + 1) * (v / 2 ^ lo / 2 ^ (hi - lo + 1))) / 2 ^ lo
      = x % 2 ^ (hi - lo + 1) + 2 ^ (hi - lo + 1) * (v / 2 ^ lo / 2 ^ (hi - lo + 1)) := by
    rw [Nat.add_assoc, Nat.mul_assoc, ← Nat.mul_add, Nat.add_mul_div_left _ _ hp, Nat.div_eq_of_lt (Nat.mod_lt _ hp), Nat.zero_add]
  rw [h, Nat.add_mul_mod_self_left, Nat.mod_mod]

theorem setBits_testBit (v hi lo x i : Nat) :
    (setBits v hi lo x).testBit i = if lo ≤ i ∧ i < lo + (hi - lo + 1) then x.testBit (i - lo) else v.testBit i := by
  have e : setBits v hi lo x = v % 2 ^ lo + 2 ^ lo * (x % 2 ^ (hi - lo + 1) + 2 ^ (hi - lo + 1) * (v / 2 ^ lo / 2 ^ (hi - lo + 1))) := by
    rw [setBits_decomp]; ring
  rw [e, Nat.add_comm, Nat.testBit_two_pow_mul_add _ (Nat.mod_lt _ (Nat.two_pow_pos lo))]
  by_cases h : i < lo
  · have : ¬ lo ≤ i := by omega
    simp [h, this, Nat.testBit_mod_two_pow]
  · have hlo : lo ≤ i := by omega
    simp only [h, if_false]
    rw [Nat.add_comm, Nat.testBit_two_pow_mul_add _ (Nat.mod_lt _ (Nat.two_pow_pos _))]
    by_cases h2 : i - lo < hi - lo + 1
    · have h3 : i < lo + (hi - lo + 1) := by omega
      simp only [h2, hlo, h3, and_self, if_true, Nat.testBit_mod_two_pow, decide_true, Bool.true_and]
    · have h3 : ¬ i < lo + (hi - lo + 1) := by omega
      simp only [h2, if_false, hlo, h3, and_false]
      rw [Nat.testBit_div_two_pow, Nat.testBit_div_two_pow]
      congr 1
      omega

theorem bits_testBit (v hi lo i : Nat) : (bits v hi lo).testBit i = (decide (i < hi - lo + 1) && v.testBit (lo + i)) := by
  unfold bits
  rw [Nat.testBit_mod_two_pow, Nat.testBit_div_two_pow, Nat.add_comm i lo]

/-- A field keeps its value when a field apart from it is written. -/
theorem bits_setBits_apart (v hi lo x h2 l2 : Nat) (h : h2 < lo ∧ l2 ≤ h2 ∨ hi < l2 ∧ lo ≤ hi) :
    bits (setBits v hi lo x) h2 l2 = bits v h2 l2 := by
  apply Nat.eq_of_testBit_eq
  intro i
  rw [bits_testBit, bits_testBit, setBits_testBit]
  by_cases hi' : i < h2 - l2 + 1
  · have : ¬ (lo ≤ l2 + i ∧ l2 + i < lo + (hi - lo + 1)) := by omega
    simp [this]
  · simp [hi']

theorem setBits_lt (v hi lo x : Nat) (hv : v < 2 ^ 32) (h : lo ≤ hi) (h2 : hi < 32) : setBits v hi lo x < 2 ^ 32 := by
  apply Nat.lt_pow_two_of_testBit
  intro i hi'
  rw [setBits_testBit]
  have : ¬ (lo ≤ i ∧ i < lo + (hi - lo + 1)) := by omega
  simp only [this, if_false]
  exact Nat.testBit_lt_two_pow (lt_of_lt_of_le hv (Nat.pow_le_pow_right (by omega) hi'))

/-! ### Registers -/

/-- Is a field within a 32-bit register? -/
def Fld.ok (f : Fld) : Bool := Nat.ble f.lo f.hi && Nat.blt f.hi 32

/-- Are two fields apart: in different registers, or without a common bit? -/
abbrev Fld.apart (f g : Fld) : Prop := f.off ≠ g.off ∨ f.hi < g.lo ∧ f.lo ≤ f.hi ∨ g.hi < f.lo ∧ g.lo ≤ g.hi

@[simp] theorem State.rget_rset_same (s : State) (a : Nat) (v : Word) : (s.rset a v).rget a = v := by
  simp [State.rget, State.rset]

theorem State.rget_rset_ne (s : State) (a b : Nat) (v : Word) (h : a ≠ b) : (s.rset a v).rget b = s.rget b := by
  simp [State.rget, State.rset, RegFile.get_set_ne _ _ _ _ h]

theorem State.rget_put_ne (s : State) (f : Fld) (x b : Nat) (h : f.off ≠ b) : (s.put f x).rget b = s.rget b :=
  State.rget_rset_ne s f.off b _ h

theorem State.rget_putB_ne (s : State) (f : Fld) (x : Bool) (b : Nat) (h : f.off ≠ b) : (s.putB f x).rget b = s.rget b :=
  State.rget_put_ne s f _ b h

theorem State.rget_putS_ne (s : State) (f : Fld) (x : Int) (b : Nat) (h : f.off ≠ b) : (s.putS f x).rget b = s.rget b :=
  State.rget_put_ne s f _ b h

theorem State.rget_addSat_ne (s : State) (f : Fld) (n b : Nat) (h : f.off ≠ b) : (s.addSat f n).rget b = s.rget b :=
  State.rget_put_ne s f _ b h

theorem State.rget_cause_ne (s : State) (f : Fld) (b : Nat) (h : f.off ≠ b) : (s.cause f).rget b = s.rget b :=
  State.rget_put_ne s f _ b h

theorem State.toNat_put (s : State) (f : Fld) (x : Nat) (h : f.ok = true) :
    ((s.put f x).rget f.off).toNat = setBits (s.rget f.off).toNat f.hi f.lo x := by
  simp only [Fld.ok, Bool.and_eq_true, Nat.blt_eq, Nat.ble_eq] at h
  simp only [State.put, State.rget_rset_same, BitVec.toNat_ofNat]
  exact Nat.mod_eq_of_lt (setBits_lt _ _ _ _ (s.rget f.off).isLt h.1 h.2)

/-- A field reads the low bits of what was written to it. -/
theorem State.get_put_same (s : State) (f : Fld) (x : Nat) (h : f.ok = true) :
    (s.put f x).get f = x % 2 ^ (f.hi - f.lo + 1) := by
  unfold State.get
  rw [State.toNat_put s f x h, bits_setBits_same]

/-- A field apart from the written one keeps its value. -/
theorem State.get_put_apart (s : State) (f g : Fld) (x : Nat) (h : f.ok = true) (ha : f.apart g) :
    (s.put f x).get g = s.get g := by
  by_cases he : f.off = g.off
  · unfold State.get
    rw [← he, State.toNat_put s f x h, bits_setBits_apart]
    simp only [Fld.apart] at ha
    omega
  · unfold State.get
    rw [State.rget_put_ne s f x g.off he]

/-- The state of another register's field after a write of a whole register. -/
theorem State.get_rset_ne (s : State) (a : Nat) (v : Word) (g : Fld) (h : a ≠ g.off) : (s.rset a v).get g = s.get g := by
  unfold State.get
  rw [State.rget_rset_ne s a g.off v h]

theorem State.get_putB_same (s : State) (f : Fld) (b : Bool) (h : f.ok = true) : (s.putB f b).get f = b2n b := by
  unfold State.putB
  rw [State.get_put_same s f _ h, Nat.mod_eq_of_lt]
  calc b2n b < 2 ^ 1 := b2n_lt_two b
    _ ≤ _ := Nat.pow_le_pow_right (by omega) (by omega)

theorem State.on_putB_same (s : State) (f : Fld) (b : Bool) (h : f.ok = true) : (s.putB f b).on f = b := by
  unfold State.on
  rw [State.get_putB_same s f b h]
  cases b <;> rfl

/-- The registers that `regs` updates leave alone, in the terms of the frame statements. -/
theorem State.get_eq_of_rget (s t : State) (f : Fld) (h : t.rget f.off = s.rget f.off) : t.get f = s.get f := by
  unfold State.get
  rw [h]

theorem State.get_lt (s : State) (f : Fld) : s.get f < 2 ^ (f.hi - f.lo + 1) := Nat.mod_lt _ (Nat.two_pow_pos _)

end Sys2Proof.Machine
end

