-- ==== Sys2Proof/Laws/Events.lean ====
section
/-!
SUPPORT. Laws of events, causes and completions: what posting an entry can change (EVT, its queue, host memory, three registers), and
that the entry is there afterwards; what completing a descriptor can change; what the closing interrupt bookkeeping leaves alone.
-/
namespace Sys2Proof.Machine

variable (s : State)

/-! ### The state beside registers, host interface and host memory -/

@[simp] theorem State.rset_hidden (a : Nat) (v : Word) : (s.rset a v).hidden = s.hidden := by cases s; rfl
@[simp] theorem State.put_hidden (f : Fld) (x : Nat) : (s.put f x).hidden = s.hidden := by cases s; rfl
@[simp] theorem State.putB_hidden (f : Fld) (b : Bool) : (s.putB f b).hidden = s.hidden := by cases s; rfl
@[simp] theorem State.putS_hidden (f : Fld) (x : Int) : (s.putS f x).hidden = s.hidden := by cases s; rfl
@[simp] theorem State.addSat_hidden (f : Fld) (n : Nat) : (s.addSat f n).hidden = s.hidden := by cases s; rfl
@[simp] theorem State.cause_hidden (f : Fld) : (s.cause f).hidden = s.hidden := by cases s; rfl
@[simp] theorem State.setRing_hidden (n : Nat) (r : Ring) : (s.setRing n r).hidden = s.hidden := by cases s; rfl
@[simp] theorem State.wbDue_hidden (n : Nat) : (s.wbDue n).hidden = s.hidden := by cases s; rfl
@[simp] theorem State.trackIrq_hidden : (s.trackIrq).hidden = s.hidden := by cases s; rfl

/-- Whatever the registers, the host interface and host memory become, the rest is the same. -/
theorem State.hidden_with (r : RegFile) (h : Hif) (m : Memory) : ({ s with regs := r, hif := h, hostMem := m }).hidden = s.hidden := rfl

@[simp] theorem State.writeBack_hidden (n : Nat) : (s.writeBack n).hidden = s.hidden := by cases s; rfl

theorem State.hidden_congr (s t : State) (h : t.hidden = s.hidden) {α : Type} (f : State → α) : f t.hidden = f s.hidden := congrArg f h

@[simp] theorem State.advanceIndex_hidden (n : Nat) : (s.advanceIndex n).hidden = s.hidden := by
  unfold State.advanceIndex; split <;> simp only [State.wbDue_hidden, State.putB_hidden, State.put_hidden]

@[simp] theorem State.evtStore_hidden (e : EvtEntry) : (s.evtStore e).hidden = s.hidden := by cases s; rfl

@[simp] theorem State.evtTake_hidden : s.evtTake.hidden = s.hidden := by cases s; rfl
@[simp] theorem State.evtEnqueue_hidden (e : EvtEntry) : (s.evtEnqueue e).hidden = s.hidden := by cases s; rfl
@[simp] theorem State.evtDrop_hidden : s.evtDrop.hidden = s.hidden := by
  rw [State.evtDrop, State.cause_hidden, State.addSat_hidden]; cases s; rfl

@[simp] theorem State.evtWrite_hidden (e : EvtEntry) : (s.evtWrite e).hidden = s.hidden := by
  simp only [State.evtWrite, State.cause_hidden, State.advanceIndex_hidden, State.evtStore_hidden]

@[simp] theorem State.evtPost_hidden (e : EvtEntry) : (s.evtPost e).hidden = s.hidden := by
  unfold State.evtPost
  split
  · rfl
  · split
    · rfl
    · dsimp only
      split
      · simp
      · split <;> simp

@[simp] theorem State.event_hidden (c u : Nat) (p : List Nat) : (s.event c u p).hidden = s.hidden := s.evtPost_hidden _
@[simp] theorem State.event'_hidden (c : Nat) (p : List Nat) : (s.event' c p).hidden = s.hidden := s.evtPost_hidden _

@[simp] theorem State.watermark_hidden (n : Nat) : (s.watermark n).hidden = s.hidden := by
  unfold State.watermark; split <;> simp only [State.wbDue_hidden, State.putB_hidden, State.put_hidden, State.setRing_hidden]

@[simp] theorem State.complete_hidden (n seq typ code status unit : Nat) (p : List Nat) (a : Bool) :
    (s.complete n seq typ code status unit p a).hidden = s.hidden := by
  unfold State.complete
  split
  · rfl
  · dsimp only; split <;> simp

@[simp] theorem State.take_hidden (n seq : Nat) : (s.take n seq).hidden = s.hidden := by cases s; rfl
@[simp] theorem State.startDesc_hidden (n seq : Nat) : (s.startDesc n seq).hidden = s.hidden := by cases s; rfl

/-! ### What State.event leaves -/
@[simp] theorem State.event_pending (c u : Nat) (p : List Nat) : (s.event c u p).pending = s.pending := by
  have h := congrArg State.pending (s.event_hidden c u p); exact h
@[simp] theorem State.event_read (c u : Nat) (p : List Nat) : (s.event c u p).read = s.read := by
  have h := congrArg State.read (s.event_hidden c u p); exact h
@[simp] theorem State.event_time (c u : Nat) (p : List Nat) : (s.event c u p).time = s.time := by
  have h := congrArg State.time (s.event_hidden c u p); exact h
@[simp] theorem State.event_unitFaults (c u : Nat) (p : List Nat) : (s.event c u p).unitFaults = s.unitFaults := by
  have h := congrArg State.unitFaults (s.event_hidden c u p); exact h
@[simp] theorem State.event_mirrorUnit (c u : Nat) (p : List Nat) : (s.event c u p).mirrorUnit = s.mirrorUnit := by
  have h := congrArg State.mirrorUnit (s.event_hidden c u p); exact h
@[simp] theorem State.event_dram (c u : Nat) (p : List Nat) : (s.event c u p).dram = s.dram := by
  have h := congrArg State.dram (s.event_hidden c u p); exact h
@[simp] theorem State.event_poison (c u : Nat) (p : List Nat) : (s.event c u p).poison = s.poison := by
  have h := congrArg State.poison (s.event_hidden c u p); exact h
@[simp] theorem State.event_mram (c u : Nat) (p : List Nat) : (s.event c u p).mram = s.mram := by
  have h := congrArg State.mram (s.event_hidden c u p); exact h
@[simp] theorem State.event_press (c u : Nat) (p : List Nat) : (s.event c u p).press = s.press := by
  have h := congrArg State.press (s.event_hidden c u p); exact h
@[simp] theorem State.event_cmx (c u : Nat) (p : List Nat) : (s.event c u p).cmx = s.cmx := by
  have h := congrArg State.cmx (s.event_hidden c u p); exact h
@[simp] theorem State.event_heads (c u : Nat) (p : List Nat) : (s.event c u p).heads = s.heads := by
  have h := congrArg State.heads (s.event_hidden c u p); exact h
@[simp] theorem State.event_ldg (c u : Nat) (p : List Nat) : (s.event c u p).ldg = s.ldg := by
  have h := congrArg State.ldg (s.event_hidden c u p); exact h
@[simp] theorem State.event_web (c u : Nat) (p : List Nat) : (s.event c u p).web = s.web := by
  have h := congrArg State.web (s.event_hidden c u p); exact h
@[simp] theorem State.event_dmc (c u : Nat) (p : List Nat) : (s.event c u p).dmc = s.dmc := by
  have h := congrArg State.dmc (s.event_hidden c u p); exact h
@[simp] theorem State.event_par (c u : Nat) (p : List Nat) : (s.event c u p).par = s.par := by
  have h := congrArg State.par (s.event_hidden c u p); exact h
@[simp] theorem State.event_cal (c u : Nat) (p : List Nat) : (s.event c u p).cal = s.cal := by
  have h := congrArg State.cal (s.event_hidden c u p); exact h
@[simp] theorem State.event_cam (c u : Nat) (p : List Nat) : (s.event c u p).cam = s.cam := by
  have h := congrArg State.cam (s.event_hidden c u p); exact h
@[simp] theorem State.event_bars (c u : Nat) (p : List Nat) : (s.event c u p).bars = s.bars := by
  have h := congrArg State.bars (s.event_hidden c u p); exact h
@[simp] theorem State.event_lanes (c u : Nat) (p : List Nat) : (s.event c u p).lanes = s.lanes := by
  have h := congrArg State.lanes (s.event_hidden c u p); exact h
@[simp] theorem State.event_enc (c u : Nat) (p : List Nat) : (s.event c u p).enc = s.enc := by
  have h := congrArg State.enc (s.event_hidden c u p); exact h
@[simp] theorem State.event_axes (c u : Nat) (p : List Nat) : (s.event c u p).axes = s.axes := by
  have h := congrArg State.axes (s.event_hidden c u p); exact h
@[simp] theorem State.event_lpe (c u : Nat) (p : List Nat) : (s.event c u p).lpe = s.lpe := by
  have h := congrArg State.lpe (s.event_hidden c u p); exact h
@[simp] theorem State.event_pwm (c u : Nat) (p : List Nat) : (s.event c u p).pwm = s.pwm := by
  have h := congrArg State.pwm (s.event_hidden c u p); exact h
@[simp] theorem State.event_net (c u : Nat) (p : List Nat) : (s.event c u p).net = s.net := by
  have h := congrArg State.net (s.event_hidden c u p); exact h
@[simp] theorem State.event_rst (c u : Nat) (p : List Nat) : (s.event c u p).rst = s.rst := by
  have h := congrArg State.rst (s.event_hidden c u p); exact h
@[simp] theorem State.event_thm (c u : Nat) (p : List Nat) : (s.event c u p).thm = s.thm := by
  have h := congrArg State.thm (s.event_hidden c u p); exact h

/-! ### What State.event' leaves -/
@[simp] theorem State.event'_pending (c : Nat) (p : List Nat) : (s.event' c p).pending = s.pending := by
  have h := congrArg State.pending (s.event'_hidden c p); exact h
@[simp] theorem State.event'_read (c : Nat) (p : List Nat) : (s.event' c p).read = s.read := by
  have h := congrArg State.read (s.event'_hidden c p); exact h
@[simp] theorem State.event'_time (c : Nat) (p : List Nat) : (s.event' c p).time = s.time := by
  have h := congrArg State.time (s.event'_hidden c p); exact h
@[simp] theorem State.event'_unitFaults (c : Nat) (p : List Nat) : (s.event' c p).unitFaults = s.unitFaults := by
  have h := congrArg State.unitFaults (s.event'_hidden c p); exact h
@[simp] theorem State.event'_mirrorUnit (c : Nat) (p : List Nat) : (s.event' c p).mirrorUnit = s.mirrorUnit := by
  have h := congrArg State.mirrorUnit (s.event'_hidden c p); exact h
@[simp] theorem State.event'_dram (c : Nat) (p : List Nat) : (s.event' c p).dram = s.dram := by
  have h := congrArg State.dram (s.event'_hidden c p); exact h
@[simp] theorem State.event'_poison (c : Nat) (p : List Nat) : (s.event' c p).poison = s.poison := by
  have h := congrArg State.poison (s.event'_hidden c p); exact h
@[simp] theorem State.event'_mram (c : Nat) (p : List Nat) : (s.event' c p).mram = s.mram := by
  have h := congrArg State.mram (s.event'_hidden c p); exact h
@[simp] theorem State.event'_press (c : Nat) (p : List Nat) : (s.event' c p).press = s.press := by
  have h := congrArg State.press (s.event'_hidden c p); exact h
@[simp] theorem State.event'_cmx (c : Nat) (p : List Nat) : (s.event' c p).cmx = s.cmx := by
  have h := congrArg State.cmx (s.event'_hidden c p); exact h
@[simp] theorem State.event'_heads (c : Nat) (p : List Nat) : (s.event' c p).heads = s.heads := by
  have h := congrArg State.heads (s.event'_hidden c p); exact h
@[simp] theorem State.event'_ldg (c : Nat) (p : List Nat) : (s.event' c p).ldg = s.ldg := by
  have h := congrArg State.ldg (s.event'_hidden c p); exact h
@[simp] theorem State.event'_web (c : Nat) (p : List Nat) : (s.event' c p).web = s.web := by
  have h := congrArg State.web (s.event'_hidden c p); exact h
@[simp] theorem State.event'_dmc (c : Nat) (p : List Nat) : (s.event' c p).dmc = s.dmc := by
  have h := congrArg State.dmc (s.event'_hidden c p); exact h
@[simp] theorem State.event'_par (c : Nat) (p : List Nat) : (s.event' c p).par = s.par := by
  have h := congrArg State.par (s.event'_hidden c p); exact h
@[simp] theorem State.event'_cal (c : Nat) (p : List Nat) : (s.event' c p).cal = s.cal := by
  have h := congrArg State.cal (s.event'_hidden c p); exact h
@[simp] theorem State.event'_cam (c : Nat) (p : List Nat) : (s.event' c p).cam = s.cam := by
  have h := congrArg State.cam (s.event'_hidden c p); exact h
@[simp] theorem State.event'_bars (c : Nat) (p : List Nat) : (s.event' c p).bars = s.bars := by
  have h := congrArg State.bars (s.event'_hidden c p); exact h
@[simp] theorem State.event'_lanes (c : Nat) (p : List Nat) : (s.event' c p).lanes = s.lanes := by
  have h := congrArg State.lanes (s.event'_hidden c p); exact h
@[simp] theorem State.event'_enc (c : Nat) (p : List Nat) : (s.event' c p).enc = s.enc := by
  have h := congrArg State.enc (s.event'_hidden c p); exact h
@[simp] theorem State.event'_axes (c : Nat) (p : List Nat) : (s.event' c p).axes = s.axes := by
  have h := congrArg State.axes (s.event'_hidden c p); exact h
@[simp] theorem State.event'_lpe (c : Nat) (p : List Nat) : (s.event' c p).lpe = s.lpe := by
  have h := congrArg State.lpe (s.event'_hidden c p); exact h
@[simp] theorem State.event'_pwm (c : Nat) (p : List Nat) : (s.event' c p).pwm = s.pwm := by
  have h := congrArg State.pwm (s.event'_hidden c p); exact h
@[simp] theorem State.event'_net (c : Nat) (p : List Nat) : (s.event' c p).net = s.net := by
  have h := congrArg State.net (s.event'_hidden c p); exact h
@[simp] theorem State.event'_rst (c : Nat) (p : List Nat) : (s.event' c p).rst = s.rst := by
  have h := congrArg State.rst (s.event'_hidden c p); exact h
@[simp] theorem State.event'_thm (c : Nat) (p : List Nat) : (s.event' c p).thm = s.thm := by
  have h := congrArg State.thm (s.event'_hidden c p); exact h

/-! ### What State.evtPost leaves -/
@[simp] theorem State.evtPost_pending (e : EvtEntry) : (s.evtPost e).pending = s.pending := by
  have h := congrArg State.pending (s.evtPost_hidden e); exact h
@[simp] theorem State.evtPost_read (e : EvtEntry) : (s.evtPost e).read = s.read := by
  have h := congrArg State.read (s.evtPost_hidden e); exact h
@[simp] theorem State.evtPost_time (e : EvtEntry) : (s.evtPost e).time = s.time := by
  have h := congrArg State.time (s.evtPost_hidden e); exact h
@[simp] theorem State.evtPost_unitFaults (e : EvtEntry) : (s.evtPost e).unitFaults = s.unitFaults := by
  have h := congrArg State.unitFaults (s.evtPost_hidden e); exact h
@[simp] theorem State.evtPost_mirrorUnit (e : EvtEntry) : (s.evtPost e).mirrorUnit = s.mirrorUnit := by
  have h := congrArg State.mirrorUnit (s.evtPost_hidden e); exact h
@[simp] theorem State.evtPost_dram (e : EvtEntry) : (s.evtPost e).dram = s.dram := by
  have h := congrArg State.dram (s.evtPost_hidden e); exact h
@[simp] theorem State.evtPost_poison (e : EvtEntry) : (s.evtPost e).poison = s.poison := by
  have h := congrArg State.poison (s.evtPost_hidden e); exact h
@[simp] theorem State.evtPost_mram (e : EvtEntry) : (s.evtPost e).mram = s.mram := by
  have h := congrArg State.mram (s.evtPost_hidden e); exact h
@[simp] theorem State.evtPost_press (e : EvtEntry) : (s.evtPost e).press = s.press := by
  have h := congrArg State.press (s.evtPost_hidden e); exact h
@[simp] theorem State.evtPost_cmx (e : EvtEntry) : (s.evtPost e).cmx = s.cmx := by
  have h := congrArg State.cmx (s.evtPost_hidden e); exact h
@[simp] theorem State.evtPost_heads (e : EvtEntry) : (s.evtPost e).heads = s.heads := by
  have h := congrArg State.heads (s.evtPost_hidden e); exact h
@[simp] theorem State.evtPost_ldg (e : EvtEntry) : (s.evtPost e).ldg = s.ldg := by
  have h := congrArg State.ldg (s.evtPost_hidden e); exact h
@[simp] theorem State.evtPost_web (e : EvtEntry) : (s.evtPost e).web = s.web := by
  have h := congrArg State.web (s.evtPost_hidden e); exact h
@[simp] theorem State.evtPost_dmc (e : EvtEntry) : (s.evtPost e).dmc = s.dmc := by
  have h := congrArg State.dmc (s.evtPost_hidden e); exact h
@[simp] theorem State.evtPost_par (e : EvtEntry) : (s.evtPost e).par = s.par := by
  have h := congrArg State.par (s.evtPost_hidden e); exact h
@[simp] theorem State.evtPost_cal (e : EvtEntry) : (s.evtPost e).cal = s.cal := by
  have h := congrArg State.cal (s.evtPost_hidden e); exact h
@[simp] theorem State.evtPost_cam (e : EvtEntry) : (s.evtPost e).cam = s.cam := by
  have h := congrArg State.cam (s.evtPost_hidden e); exact h
@[simp] theorem State.evtPost_bars (e : EvtEntry) : (s.evtPost e).bars = s.bars := by
  have h := congrArg State.bars (s.evtPost_hidden e); exact h
@[simp] theorem State.evtPost_lanes (e : EvtEntry) : (s.evtPost e).lanes = s.lanes := by
  have h := congrArg State.lanes (s.evtPost_hidden e); exact h
@[simp] theorem State.evtPost_enc (e : EvtEntry) : (s.evtPost e).enc = s.enc := by
  have h := congrArg State.enc (s.evtPost_hidden e); exact h
@[simp] theorem State.evtPost_axes (e : EvtEntry) : (s.evtPost e).axes = s.axes := by
  have h := congrArg State.axes (s.evtPost_hidden e); exact h
@[simp] theorem State.evtPost_lpe (e : EvtEntry) : (s.evtPost e).lpe = s.lpe := by
  have h := congrArg State.lpe (s.evtPost_hidden e); exact h
@[simp] theorem State.evtPost_pwm (e : EvtEntry) : (s.evtPost e).pwm = s.pwm := by
  have h := congrArg State.pwm (s.evtPost_hidden e); exact h
@[simp] theorem State.evtPost_net (e : EvtEntry) : (s.evtPost e).net = s.net := by
  have h := congrArg State.net (s.evtPost_hidden e); exact h
@[simp] theorem State.evtPost_rst (e : EvtEntry) : (s.evtPost e).rst = s.rst := by
  have h := congrArg State.rst (s.evtPost_hidden e); exact h
@[simp] theorem State.evtPost_thm (e : EvtEntry) : (s.evtPost e).thm = s.thm := by
  have h := congrArg State.thm (s.evtPost_hidden e); exact h

/-! ### What State.complete leaves -/
@[simp] theorem State.complete_pending (n seq typ code status unit : Nat) (p : List Nat) (b : Bool) : (s.complete n seq typ code status unit p b).pending = s.pending := by
  have h := congrArg State.pending (s.complete_hidden n seq typ code status unit p b); exact h
@[simp] theorem State.complete_read (n seq typ code status unit : Nat) (p : List Nat) (b : Bool) : (s.complete n seq typ code status unit p b).read = s.read := by
  have h := congrArg State.read (s.complete_hidden n seq typ code status unit p b); exact h
@[simp] theorem State.complete_time (n seq typ code status unit : Nat) (p : List Nat) (b : Bool) : (s.complete n seq typ code status unit p b).time = s.time := by
  have h := congrArg State.time (s.complete_hidden n seq typ code status unit p b); exact h
@[simp] theorem State.complete_unitFaults (n seq typ code status unit : Nat) (p : List Nat) (b : Bool) : (s.complete n seq typ code status unit p b).unitFaults = s.unitFaults := by
  have h := congrArg State.unitFaults (s.complete_hidden n seq typ code status unit p b); exact h
@[simp] theorem State.complete_mirrorUnit (n seq typ code status unit : Nat) (p : List Nat) (b : Bool) : (s.complete n seq typ code status unit p b).mirrorUnit = s.mirrorUnit := by
  have h := congrArg State.mirrorUnit (s.complete_hidden n seq typ code status unit p b); exact h
@[simp] theorem State.complete_dram (n seq typ code status unit : Nat) (p : List Nat) (b : Bool) : (s.complete n seq typ code status unit p b).dram = s.dram := by
  have h := congrArg State.dram (s.complete_hidden n seq typ code status unit p b); exact h
@[simp] theorem State.complete_poison (n seq typ code status unit : Nat) (p : List Nat) (b : Bool) : (s.complete n seq typ code status unit p b).poison = s.poison := by
  have h := congrArg State.poison (s.complete_hidden n seq typ code status unit p b); exact h
@[simp] theorem State.complete_mram (n seq typ code status unit : Nat) (p : List Nat) (b : Bool) : (s.complete n seq typ code status unit p b).mram = s.mram := by
  have h := congrArg State.mram (s.complete_hidden n seq typ code status unit p b); exact h
@[simp] theorem State.complete_press (n seq typ code status unit : Nat) (p : List Nat) (b : Bool) : (s.complete n seq typ code status unit p b).press = s.press := by
  have h := congrArg State.press (s.complete_hidden n seq typ code status unit p b); exact h
@[simp] theorem State.complete_cmx (n seq typ code status unit : Nat) (p : List Nat) (b : Bool) : (s.complete n seq typ code status unit p b).cmx = s.cmx := by
  have h := congrArg State.cmx (s.complete_hidden n seq typ code status unit p b); exact h
@[simp] theorem State.complete_heads (n seq typ code status unit : Nat) (p : List Nat) (b : Bool) : (s.complete n seq typ code status unit p b).heads = s.heads := by
  have h := congrArg State.heads (s.complete_hidden n seq typ code status unit p b); exact h
@[simp] theorem State.complete_ldg (n seq typ code status unit : Nat) (p : List Nat) (b : Bool) : (s.complete n seq typ code status unit p b).ldg = s.ldg := by
  have h := congrArg State.ldg (s.complete_hidden n seq typ code status unit p b); exact h
@[simp] theorem State.complete_web (n seq typ code status unit : Nat) (p : List Nat) (b : Bool) : (s.complete n seq typ code status unit p b).web = s.web := by
  have h := congrArg State.web (s.complete_hidden n seq typ code status unit p b); exact h
@[simp] theorem State.complete_dmc (n seq typ code status unit : Nat) (p : List Nat) (b : Bool) : (s.complete n seq typ code status unit p b).dmc = s.dmc := by
  have h := congrArg State.dmc (s.complete_hidden n seq typ code status unit p b); exact h
@[simp] theorem State.complete_par (n seq typ code status unit : Nat) (p : List Nat) (b : Bool) : (s.complete n seq typ code status unit p b).par = s.par := by
  have h := congrArg State.par (s.complete_hidden n seq typ code status unit p b); exact h
@[simp] theorem State.complete_cal (n seq typ code status unit : Nat) (p : List Nat) (b : Bool) : (s.complete n seq typ code status unit p b).cal = s.cal := by
  have h := congrArg State.cal (s.complete_hidden n seq typ code status unit p b); exact h
@[simp] theorem State.complete_cam (n seq typ code status unit : Nat) (p : List Nat) (b : Bool) : (s.complete n seq typ code status unit p b).cam = s.cam := by
  have h := congrArg State.cam (s.complete_hidden n seq typ code status unit p b); exact h
@[simp] theorem State.complete_bars (n seq typ code status unit : Nat) (p : List Nat) (b : Bool) : (s.complete n seq typ code status unit p b).bars = s.bars := by
  have h := congrArg State.bars (s.complete_hidden n seq typ code status unit p b); exact h
@[simp] theorem State.complete_lanes (n seq typ code status unit : Nat) (p : List Nat) (b : Bool) : (s.complete n seq typ code status unit p b).lanes = s.lanes := by
  have h := congrArg State.lanes (s.complete_hidden n seq typ code status unit p b); exact h
@[simp] theorem State.complete_enc (n seq typ code status unit : Nat) (p : List Nat) (b : Bool) : (s.complete n seq typ code status unit p b).enc = s.enc := by
  have h := congrArg State.enc (s.complete_hidden n seq typ code status unit p b); exact h
@[simp] theorem State.complete_axes (n seq typ code status unit : Nat) (p : List Nat) (b : Bool) : (s.complete n seq typ code status unit p b).axes = s.axes := by
  have h := congrArg State.axes (s.complete_hidden n seq typ code status unit p b); exact h
@[simp] theorem State.complete_lpe (n seq typ code status unit : Nat) (p : List Nat) (b : Bool) : (s.complete n seq typ code status unit p b).lpe = s.lpe := by
  have h := congrArg State.lpe (s.complete_hidden n seq typ code status unit p b); exact h
@[simp] theorem State.complete_pwm (n seq typ code status unit : Nat) (p : List Nat) (b : Bool) : (s.complete n seq typ code status unit p b).pwm = s.pwm := by
  have h := congrArg State.pwm (s.complete_hidden n seq typ code status unit p b); exact h
@[simp] theorem State.complete_net (n seq typ code status unit : Nat) (p : List Nat) (b : Bool) : (s.complete n seq typ code status unit p b).net = s.net := by
  have h := congrArg State.net (s.complete_hidden n seq typ code status unit p b); exact h
@[simp] theorem State.complete_rst (n seq typ code status unit : Nat) (p : List Nat) (b : Bool) : (s.complete n seq typ code status unit p b).rst = s.rst := by
  have h := congrArg State.rst (s.complete_hidden n seq typ code status unit p b); exact h
@[simp] theorem State.complete_thm (n seq typ code status unit : Nat) (p : List Nat) (b : Bool) : (s.complete n seq typ code status unit p b).thm = s.thm := by
  have h := congrArg State.thm (s.complete_hidden n seq typ code status unit p b); exact h

/-! ### Registers -/

@[simp] theorem State.rget_wbDue (n a : Nat) : (s.wbDue n).rget a = s.rget a := rfl
@[simp] theorem State.rget_setRing (n a : Nat) (r : Ring) : (s.setRing n r).rget a = s.rget a := rfl

theorem State.rget_advanceIndex (n a : Nat) (h : a ≠ HIF_RING_STATUS n) : (s.advanceIndex n).rget a = s.rget a := by
  have h1 : (HIF_RING_STATUS_INDEX n).off ≠ a := fun e => h (e.symm.trans rfl)
  have h2 : (HIF_RING_STATUS_PHASE n).off ≠ a := fun e => h (e.symm.trans rfl)
  unfold State.advanceIndex
  split
  · rw [State.rget_wbDue, State.rget_putB_ne _ _ _ _ h2, State.rget_put_ne _ _ _ _ h1]
  · rw [State.rget_wbDue, State.rget_put_ne _ _ _ _ h1]

theorem State.regs_with (h : Hif) (m : Memory) : ({ s with hif := h, hostMem := m }).regs = s.regs := rfl
theorem State.evtStore_regs (e : EvtEntry) : (s.evtStore e).regs = s.regs := s.regs_with _ _

theorem State.rget_evtWrite (e : EvtEntry) (a : Nat) (h : a ∉ evtRegs) : (s.evtWrite e).rget a = s.rget a := by
  simp only [evtRegs, List.mem_cons, List.not_mem_nil, or_false, not_or] at h
  unfold State.evtWrite
  rw [State.rget_cause_ne _ _ _ (fun e => h.2.2 (e.symm.trans rfl)), State.rget_advanceIndex _ _ _ h.1]
  exact congrArg (fun r => RegFile.get r a) (s.evtStore_regs e)

/-- Posting an entry changes three registers at most. -/
theorem State.rget_evtPost (e : EvtEntry) (a : Nat) (h : a ∉ evtRegs) : (s.evtPost e).rget a = s.rget a := by
  have h' := h
  simp only [evtRegs, List.mem_cons, List.not_mem_nil, or_false, not_or] at h'
  have hl : HIF_EVT_LOST_COUNT.off ≠ a := fun e => h'.2.1 (e.symm.trans rfl)
  have hc : HIF_IRQ_CAUSE_EVT_LOST.off ≠ a := fun e => h'.2.2 (e.symm.trans rfl)
  unfold State.evtPost
  split
  · rfl
  · split
    · exact State.rget_addSat_ne _ _ _ _ hl
    · dsimp only
      split
      · rw [State.rget_evtWrite _ _ a h]; rfl
      · split
        · rfl
        · unfold State.evtDrop
          rw [State.rget_cause_ne _ _ _ hc, State.rget_addSat_ne _ _ _ _ hl]
          rfl

theorem State.rget_event (c u : Nat) (p : List Nat) (a : Nat) (h : a ∉ evtRegs) : (s.event c u p).rget a = s.rget a :=
  s.rget_evtPost _ a h

theorem State.rget_event' (c : Nat) (p : List Nat) (a : Nat) (h : a ∉ evtRegs) : (s.event' c p).rget a = s.rget a :=
  s.rget_evtPost _ a h

theorem State.get_event (c u : Nat) (p : List Nat) (f : Fld) (h : f.off ∉ evtRegs) : (s.event c u p).get f = s.get f :=
  State.get_eq_of_rget _ _ _ (s.rget_evtPost _ _ h)

theorem State.get_event' (c : Nat) (p : List Nat) (f : Fld) (h : f.off ∉ evtRegs) : (s.event' c p).get f = s.get f :=
  State.get_eq_of_rget _ _ _ (s.rget_evtPost _ _ h)

theorem State.rget_watermark (n a : Nat) (h : a ≠ HIF_RING_DONE n) : (s.watermark n).rget a = s.rget a := by
  have h1 : (HIF_RING_DONE_DONE_SEQ n).off ≠ a := fun e => h (e.symm.trans rfl)
  have h2 : (HIF_RING_DONE_VALID n).off ≠ a := fun e => h (e.symm.trans rfl)
  unfold State.watermark
  split
  · rfl
  · rw [State.rget_wbDue, State.rget_putB_ne _ _ _ _ h2, State.rget_put_ne _ _ _ _ h1, State.rget_setRing]

/-- Completing a descriptor changes the ring's watermark register and what the posted entry changes. -/
theorem State.rget_complete (n seq typ code status unit : Nat) (p : List Nat) (b : Bool) (a : Nat) (h : a ∉ doneRegs n) :
    (s.complete n seq typ code status unit p b).rget a = s.rget a := by
  simp only [doneRegs, List.mem_cons, not_or] at h
  unfold State.complete
  split
  · rfl
  · dsimp only
    split
    · rw [State.rget_evtPost _ _ _ h.2, State.rget_watermark _ _ _ h.1]; rfl
    · rw [State.rget_watermark _ _ _ h.1]; rfl

@[simp] theorem State.rget_trackIrq (a : Nat) : s.trackIrq.rget a = s.rget a := rfl
@[simp] theorem State.get_trackIrq (f : Fld) : s.trackIrq.get f = s.get f := rfl
@[simp] theorem State.on_trackIrq (f : Fld) : s.trackIrq.on f = s.on f := rfl
@[simp] theorem State.getS_trackIrq (f : Fld) : s.trackIrq.getS f = s.getS f := rfl
@[simp] theorem State.ust_trackIrq (u : UnitId) : s.trackIrq.ust u = s.ust u := by cases u <;> rfl
@[simp] theorem State.pend_trackIrq (u : UnitId) : s.trackIrq.pend u = s.pend u := by cases u <;> rfl
@[simp] theorem State.irqCond_trackIrq : s.trackIrq.irqCond = s.irqCond := rfl
@[simp] theorem State.evtEntries_trackIrq : s.trackIrq.evtEntries = s.evtEntries := rfl
@[simp] theorem State.evtNext_trackIrq : s.trackIrq.hif.evtNext = s.hif.evtNext := rfl

/-! ### The entries -/

theorem State.advanceIndex_hif (n : Nat) : (s.advanceIndex n).hif = (s.wbDue n).hif := by
  unfold State.advanceIndex
  split <;> simp only [State.wbDue, State.setRing, State.ring, State.putB_hif, State.put_hif]

theorem State.wbDue_unread (n : Nat) : (s.wbDue n).hif.evtUnread = s.hif.evtUnread := rfl
theorem State.wbDue_queue (n : Nat) : (s.wbDue n).hif.evtQueue = s.hif.evtQueue := rfl
theorem State.wbDue_next (n : Nat) : (s.wbDue n).hif.evtNext = s.hif.evtNext := rfl

@[simp] theorem State.wbDue_linkUp (n : Nat) : (s.wbDue n).hif.linkUp = s.hif.linkUp := rfl

theorem State.hif_with (h : Hif) (m : Memory) : ({ s with hif := h, hostMem := m }).hif = h := rfl
theorem State.evtStore_hif (e : EvtEntry) :
    (s.evtStore e).hif = { s.hif with evtUnread := s.hif.evtUnread ++ [e], lostFlag := false } := s.hif_with _ _

theorem State.evtWrite_unread (e : EvtEntry) : (s.evtWrite e).hif.evtUnread = s.hif.evtUnread ++ [s.evtFinal e] := by
  rw [State.evtWrite, State.cause_hif, State.advanceIndex_hif, State.wbDue_unread, State.evtStore_hif]

theorem State.evtWrite_queue (e : EvtEntry) : (s.evtWrite e).hif.evtQueue = s.hif.evtQueue := by
  rw [State.evtWrite, State.cause_hif, State.advanceIndex_hif, State.wbDue_queue, State.evtStore_hif]

theorem State.evtWrite_next (e : EvtEntry) : (s.evtWrite e).hif.evtNext = s.hif.evtNext := by
  rw [State.evtWrite, State.cause_hif, State.advanceIndex_hif, State.wbDue_next, State.evtStore_hif]

/-- Posting an entry keeps those that are there. -/
theorem State.mem_evtPost (e x : EvtEntry) (h : x ∈ s.evtEntries) : x ∈ (s.evtPost e).evtEntries := by
  simp only [State.evtEntries] at *
  unfold State.evtPost
  split
  · exact h
  · split
    · exact h
    · dsimp only
      split
      · rw [State.evtWrite_unread, State.evtWrite_queue]
        exact (List.mem_append.mp h).elim (fun h => List.mem_append_left _ (List.mem_append_left _ h)) (fun h => List.mem_append_right _ h)
      · split
        · exact (List.mem_append.mp h).elim (fun h => List.mem_append_left _ h)
            (fun h => List.mem_append_right _ (List.mem_append_left _ h))
        · exact h

/-- With room for it, a posted entry is there afterwards, with the next sequence number. -/
theorem State.evtPost_mem (e : EvtEntry) (h : s.takesEvents) (hc : e.code ≠ Ev.EVT_LOST) :
    ∃ x ∈ (s.evtPost e).evtEntries, x.typ = e.typ ∧ x.code = e.code ∧ x.unit = e.unit ∧ x.payload = e.payload ∧
      x.seq = s.hif.evtNext % 65536 ∧ x.time = e.time := by
  obtain ⟨h1, h2, h3⟩ := h
  simp only [State.evtEntries]
  unfold State.evtPost
  simp only [h1, h2, h3, not_true_eq_false, if_false, if_true]
  split
  · rw [State.evtWrite_unread]
    refine ⟨_, List.mem_append_left _ (List.mem_append_right _ (List.mem_singleton.mpr rfl)), ?_⟩
    simp [State.evtFinal, hc]
  · refine ⟨{ e with seq := s.hif.evtNext % 65536 }, ?_, ?_⟩
    · exact List.mem_append_right _ (List.mem_append_right _ (List.mem_singleton.mpr rfl))
    · simp

theorem State.mem_event (c u : Nat) (p : List Nat) (x : EvtEntry) (h : x ∈ s.evtEntries) : x ∈ (s.event c u p).evtEntries :=
  s.mem_evtPost _ x h

/-- Posting an entry takes one sequence number at most, and none is given back. -/
theorem State.evtPost_next (e : EvtEntry) :
    (s.evtPost e).hif.evtNext = if s.islandRuns 1 = true ∧ s.hif.linkUp = true then s.hif.evtNext + 1 else s.hif.evtNext := by
  unfold State.evtPost
  by_cases h1 : s.islandRuns 1 = true
  · by_cases h2 : s.hif.linkUp = true
    · simp only [h1, h2, not_true_eq_false, if_false, and_self, if_true]
      split
      · rw [State.evtWrite_next]; rfl
      · split <;> rfl
    · simp [h1, h2]
  · simp [h1]

/-- Posting an entry leaves every ring's record but EVT's alone. -/
theorem State.evtPost_linkUp (e : EvtEntry) : (s.evtPost e).hif.linkUp = s.hif.linkUp := by
  unfold State.evtPost
  split
  · rfl
  · split
    · rfl
    · dsimp only
      split
      · rw [State.evtWrite, State.cause_hif, State.advanceIndex_hif, State.wbDue_linkUp, State.evtStore_hif]; rfl
      · split <;> rfl

/-- What an entry posted with room reads (R82). -/
theorem State.evtPost_mem' (e : EvtEntry) (h : s.takesEvents) (hc : e.code ≠ Ev.EVT_LOST) :
    ∃ x ∈ (s.evtPost e).evtEntries, x.typ = e.typ ∧ x.code = e.code ∧ x.src = e.src ∧ x.status = e.status ∧ x.descSeq = e.descSeq ∧
      x.unit = e.unit ∧ x.payload = e.payload ∧ x.time = e.time := by
  obtain ⟨h1, h2, h3⟩ := h
  simp only [State.evtEntries]
  unfold State.evtPost
  simp only [h1, h2, h3, not_true_eq_false, if_false, if_true]
  split
  · rw [State.evtWrite_unread]
    refine ⟨_, List.mem_append_left _ (List.mem_append_right _ (List.mem_singleton.mpr rfl)), ?_⟩
    simp [State.evtFinal, hc]
  · refine ⟨{ e with seq := s.hif.evtNext % 65536 }, ?_, ?_⟩
    · exact List.mem_append_right _ (List.mem_append_right _ (List.mem_singleton.mpr rfl))
    · simp

theorem State.watermark_hif (n : Nat) : (s.watermark n).hif.evtQueue = s.hif.evtQueue ∧ (s.watermark n).hif.evtUnread = s.hif.evtUnread ∧
    (s.watermark n).hif.linkUp = s.hif.linkUp ∧ (s.watermark n).hif.evtNext = s.hif.evtNext := by
  unfold State.watermark
  split
  · exact ⟨rfl, rfl, rfl, rfl⟩
  · simp only [State.wbDue, State.setRing, State.putB_hif, State.put_hif, and_self]

theorem State.islandRuns_congr (s s1 : State) (k : Nat) (h : s1.rget (RST_ISLAND k) = s.rget (RST_ISLAND k)) :
    s1.islandRuns k = s.islandRuns k := by
  unfold State.islandRuns
  rw [State.get_eq_of_rget s s1 (RST_ISLAND_RSTATE k) h, State.get_eq_of_rget s s1 (RST_ISLAND_FENCED k) h]

/-- The event of a command is posted when what went before it left the host interface, the time and the host island alone. -/
theorem Posts.of_event_gen (s s1 : State) (c u : Nat) (p : List Nat) (hq : s1.hif.evtQueue = s.hif.evtQueue)
    (hl : s1.hif.linkUp = s.hif.linkUp) (hn : s1.hif.evtNext = s.hif.evtNext) (ht : s1.time = s.time)
    (hr : s1.rget (RST_ISLAND 1) = s.rget (RST_ISLAND 1)) (hc : c ≠ Ev.EVT_LOST) : Posts s (s1.event c u p) c u p := by
  intro h
  have h' : s1.takesEvents := by
    unfold State.takesEvents at *
    rw [State.islandRuns_congr s s1 1 hr, hq, hl]
    exact h
  obtain ⟨x, hx, h1, h2, h3, h4, h5, h6⟩ := s1.evtPost_mem (s1.entry 1 c 0xFF 0 0 u p) h' hc
  refine ⟨x, hx, h1, h2, h3, h4, hn ▸ h5, h6.trans ?_⟩
  simp only [State.entry, State.now, ht]

theorem Posts.of_event (s s1 : State) (c u : Nat) (p : List Nat) (hh : s1.hif = s.hif) (ht : s1.time = s.time)
    (hr : s1.rget (RST_ISLAND 1) = s.rget (RST_ISLAND 1)) (hc : c ≠ Ev.EVT_LOST) : Posts s (s1.event c u p) c u p :=
  Posts.of_event_gen s s1 c u p (by rw [hh]) (by rw [hh]) (by rw [hh]) ht hr hc

/-- What comes after leaves a posted event posted, as long as it drops no entry. -/
theorem Posts.after {s t t' : State} {c u : Nat} {p : List Nat} (h : Posts s t c u p)
    (hk : ∀ x ∈ t.evtEntries, x ∈ t'.evtEntries) : Posts s t' c u p := by
  intro hr
  obtain ⟨x, hx, h⟩ := h hr
  exact ⟨x, hk x hx, h⟩

theorem Posts.congr {s t t' : State} {c u : Nat} {p : List Nat} (h : Posts s t c u p) (he : t'.evtEntries = t.evtEntries) :
    Posts s t' c u p := h.after (fun _ hx => he ▸ hx)

/-- A completion that posts an entry has it there afterwards, when what went before it left the host interface, the time and the host
island alone. -/
theorem Completes.of_complete_gen (s s1 : State) (n seq typ code status unit : Nat) (p : List Nat) (b : Bool) (d : OpenDesc)
    (hq : s1.hif.evtQueue = s.hif.evtQueue) (hl : s1.hif.linkUp = s.hif.linkUp) (ht : s1.time = s.time)
    (hr : s1.rget (RST_ISLAND 1) = s.rget (RST_ISLAND 1)) (hd : s1.desc n seq = some d) (hs : d.stale = false)
    (hb : b = true ∨ d.notify = true) (hc : code ≠ Ev.EVT_LOST) (hn : HIF_RING_DONE n ≠ RST_ISLAND 1) :
    Completes s (s1.complete n seq typ code status unit p b) n seq typ code status unit p := by
  intro h
  unfold State.complete
  rw [hd]
  simp only [hs, Bool.false_eq_true, not_false_eq_true, true_and, hb, if_true]
  generalize hx : (s1.setRing n _).watermark n = x
  have hq' : x.hif.evtQueue = s.hif.evtQueue ∧ x.hif.linkUp = s.hif.linkUp := by
    rw [← hx, (State.watermark_hif _ n).1, (State.watermark_hif _ n).2.2.1, ← hq, ← hl]; exact ⟨rfl, rfl⟩
  have hi : x.rget (RST_ISLAND 1) = s.rget (RST_ISLAND 1) := by
    rw [← hx, State.rget_watermark _ _ _ (Ne.symm hn), ← hr]; rfl
  have h' : x.takesEvents := by
    unfold State.takesEvents at *
    rw [State.islandRuns_congr s x 1 hi, hq'.1, hq'.2]
    exact h
  obtain ⟨y, hy, h1, h2, h3, h4, h5, h6, h7, h8⟩ := x.evtPost_mem' (s1.entry typ code n status seq unit p) h' hc
  refine ⟨y, hy, h1, h2, h3, h4, h5, h6, h7, h8.trans ?_⟩
  simp only [State.entry, State.now, ht]

theorem State.desc_of_hif (s s1 : State) (hh : s1.hif = s.hif) (n seq : Nat) : s1.desc n seq = s.desc n seq := by
  unfold State.desc State.ring; rw [hh]

theorem Completes.of_complete (s s1 : State) (n seq typ code status unit : Nat) (p : List Nat) (b : Bool) (d : OpenDesc)
    (hh : s1.hif = s.hif) (ht : s1.time = s.time) (hr : s1.rget (RST_ISLAND 1) = s.rget (RST_ISLAND 1))
    (hd : s.desc n seq = some d) (hs : d.stale = false) (hb : b = true ∨ d.notify = true) (hc : code ≠ Ev.EVT_LOST)
    (hn : HIF_RING_DONE n ≠ RST_ISLAND 1) :
    Completes s (s1.complete n seq typ code status unit p b) n seq typ code status unit p :=
  Completes.of_complete_gen s s1 n seq typ code status unit p b d (by rw [hh]) (by rw [hh]) ht hr
    ((State.desc_of_hif s s1 hh n seq).trans hd) hs hb hc hn

theorem Completes.after {s t t' : State} {n seq typ code status unit : Nat} {p : List Nat}
    (h : Completes s t n seq typ code status unit p) (hk : ∀ x ∈ t.evtEntries, x ∈ t'.evtEntries) :
    Completes s t' n seq typ code status unit p := by
  intro hr
  obtain ⟨x, hx, h⟩ := h hr
  exact ⟨x, hk x hx, h⟩

/-! ### Frames -/

theorem Keeps.refl (l : List Nat) : Keeps s s l := fun _ _ => rfl

theorem Keeps.trans {s t u : State} {l : List Nat} (h1 : Keeps s t l) (h2 : Keeps t u l) : Keeps s u l :=
  fun a ha => (h2 a ha).trans (h1 a ha)

theorem Keeps.mono {s t : State} {l m : List Nat} (h : Keeps s t l) (hm : ∀ a ∈ l, a ∈ m) : Keeps s t m :=
  fun a ha => h a (fun hl => ha (hm a hl))

theorem Touches.of_eq {s t : State} {l : List Nat} (hh : t.hidden = s.hidden) (hk : ∀ a, a ∉ l → a ∉ evtRegs → t.rget a = s.rget a) :
    Touches s t l := ⟨hh, fun a ha => by
      simp only [List.mem_append, not_or] at ha
      exact hk a ha.1 ha.2⟩

end Sys2Proof.Machine
end

