-- ==== Sys2Proof/Laws/Frames.lean ====
section
/-!
SUPPORT. Laws of frames: how the frame of a command is put together from the frames of the operations it is made of.
-/
namespace Sys2Proof.Machine

/-! ### Commands that write registers alone -/

/-- Only registers differ. -/
def RegsOnly (s x : State) : Prop := x = { s with regs := x.regs }

theorem RegsOnly.refl (s : State) : RegsOnly s s := by cases s; rfl

theorem RegsOnly.rset {s x : State} (h : RegsOnly s x) (a : Nat) (v : Word) : RegsOnly s (x.rset a v) := by
  unfold RegsOnly at *; rw [h]; rfl

theorem RegsOnly.put {s x : State} (h : RegsOnly s x) (f : Fld) (v : Nat) : RegsOnly s (x.put f v) := h.rset _ _
theorem RegsOnly.putB {s x : State} (h : RegsOnly s x) (f : Fld) (v : Bool) : RegsOnly s (x.putB f v) := h.put _ _
theorem RegsOnly.putS {s x : State} (h : RegsOnly s x) (f : Fld) (v : Int) : RegsOnly s (x.putS f v) := h.put _ _
theorem RegsOnly.addSat {s x : State} (h : RegsOnly s x) (f : Fld) (v : Nat) : RegsOnly s (x.addSat f v) := h.put _ _
theorem RegsOnly.cause {s x : State} (h : RegsOnly s x) (f : Fld) : RegsOnly s (x.cause f) := h.putB _ _

/-- A command whose effect is on registers alone is silent. -/
theorem Silent.of_regsOnly {s x : State} {offs : List Nat} (h : RegsOnly s x) (hk : Keeps s x offs) : Silent s x.trackIrq offs := by
  refine ⟨?_, fun a ha => hk a ha⟩
  simp only [State.trackIrq]
  rw [h]

theorem Silent.refl (s : State) : Silent s s.trackIrq [] := Silent.of_regsOnly (RegsOnly.refl s) (Keeps.refl s [])

/-! ### Registers left alone -/

theorem Keeps.rset {s x : State} {l : List Nat} (h : Keeps s x l) (a : Nat) (v : Word) (ha : a ∈ l) : Keeps s (x.rset a v) l :=
  fun b hb => (State.rget_rset_ne x a b v (fun e => hb (e ▸ ha))).trans (h b hb)

theorem Keeps.put {s x : State} {l : List Nat} (h : Keeps s x l) (f : Fld) (v : Nat) (ha : f.off ∈ l) : Keeps s (x.put f v) l :=
  h.rset _ _ ha

theorem Keeps.putB {s x : State} {l : List Nat} (h : Keeps s x l) (f : Fld) (v : Bool) (ha : f.off ∈ l) : Keeps s (x.putB f v) l :=
  h.rset _ _ ha

theorem Keeps.putS {s x : State} {l : List Nat} (h : Keeps s x l) (f : Fld) (v : Int) (ha : f.off ∈ l) : Keeps s (x.putS f v) l :=
  h.rset _ _ ha

theorem Keeps.addSat {s x : State} {l : List Nat} (h : Keeps s x l) (f : Fld) (v : Nat) (ha : f.off ∈ l) : Keeps s (x.addSat f v) l :=
  h.rset _ _ ha

theorem Keeps.cause {s x : State} {l : List Nat} (h : Keeps s x l) (f : Fld) (ha : f.off ∈ l) : Keeps s (x.cause f) l :=
  h.rset _ _ ha

theorem Keeps.evtPost {s x : State} {l : List Nat} (h : Keeps s x l) (e : EvtEntry) (ha : ∀ a ∈ evtRegs, a ∈ l) : Keeps s (x.evtPost e) l :=
  fun b hb => (State.rget_evtPost x e b (fun hm => hb (ha b hm))).trans (h b hb)

theorem Keeps.event {s x : State} {l : List Nat} (h : Keeps s x l) (c u : Nat) (p : List Nat) (ha : ∀ a ∈ evtRegs, a ∈ l) :
    Keeps s (x.event c u p) l := h.evtPost _ ha

theorem Keeps.event' {s x : State} {l : List Nat} (h : Keeps s x l) (c : Nat) (p : List Nat) (ha : ∀ a ∈ evtRegs, a ∈ l) :
    Keeps s (x.event' c p) l := h.evtPost _ ha

theorem Keeps.complete {s x : State} {l : List Nat} (h : Keeps s x l) (n seq typ code status unit : Nat) (p : List Nat) (b : Bool)
    (ha : ∀ a ∈ doneRegs n, a ∈ l) : Keeps s (x.complete n seq typ code status unit p b) l :=
  fun c hc => (State.rget_complete x n seq typ code status unit p b c (fun hm => hc (ha c hm))).trans (h c hc)

theorem Keeps.trackIrq {s x : State} {l : List Nat} (h : Keeps s x l) : Keeps s x.trackIrq l := h

/-- What posts events and writes registers touches nothing else. -/
theorem Touches.mk' {s x : State} {l : List Nat} (hh : x.hidden = s.hidden) (hk : Keeps s x (l ++ evtRegs)) : Touches s x.trackIrq l :=
  ⟨hh, hk⟩

theorem evtRegs_sub_right (l : List Nat) : ∀ a ∈ evtRegs, a ∈ l ++ evtRegs := fun _ h => List.mem_append_right _ h

/-! ### Fields -/

theorem State.on_eq_of_get (s t : State) (f : Fld) (h : t.get f = s.get f) : t.on f = s.on f := by
  unfold State.on; rw [h]

theorem State.get_putB_apart (s : State) (f g : Fld) (x : Bool) (h : f.ok = true) (ha : f.apart g) :
    (s.putB f x).get g = s.get g := s.get_put_apart f g _ h ha

theorem State.get_putS_apart (s : State) (f g : Fld) (x : Int) (h : f.ok = true) (ha : f.apart g) :
    (s.putS f x).get g = s.get g := s.get_put_apart f g _ h ha

theorem State.get_addSat_apart (s : State) (f g : Fld) (x : Nat) (h : f.ok = true) (ha : f.apart g) :
    (s.addSat f x).get g = s.get g := s.get_put_apart f g _ h ha

theorem State.get_cause_apart (s : State) (f g : Fld) (h : f.ok = true) (ha : f.apart g) :
    (s.cause f).get g = s.get g := s.get_put_apart f g _ h ha

theorem State.on_put_apart (s : State) (f g : Fld) (x : Nat) (h : f.ok = true) (ha : f.apart g) : (s.put f x).on g = s.on g :=
  State.on_eq_of_get _ _ _ (s.get_put_apart f g x h ha)

theorem State.on_putB_apart (s : State) (f g : Fld) (x : Bool) (h : f.ok = true) (ha : f.apart g) : (s.putB f x).on g = s.on g :=
  State.on_eq_of_get _ _ _ (s.get_put_apart f g _ h ha)

theorem State.on_cause_apart (s : State) (f g : Fld) (h : f.ok = true) (ha : f.apart g) : (s.cause f).on g = s.on g :=
  State.on_eq_of_get _ _ _ (s.get_put_apart f g _ h ha)

theorem State.on_cause_same (s : State) (f : Fld) (h : f.ok = true) : (s.cause f).on f = true := s.on_putB_same f true h

theorem State.on_event (s : State) (c u : Nat) (p : List Nat) (f : Fld) (h : f.off ∉ evtRegs) : (s.event c u p).on f = s.on f :=
  State.on_eq_of_get _ _ _ (s.get_event c u p f h)

theorem State.on_event' (s : State) (c : Nat) (p : List Nat) (f : Fld) (h : f.off ∉ evtRegs) : (s.event' c p).on f = s.on f :=
  State.on_eq_of_get _ _ _ (s.get_event' c p f h)

theorem State.get_evtPost (s : State) (e : EvtEntry) (f : Fld) (h : f.off ∉ evtRegs) : (s.evtPost e).get f = s.get f :=
  State.get_eq_of_rget _ _ _ (s.rget_evtPost e _ h)

theorem State.get_complete (s : State) (n seq typ code status unit : Nat) (p : List Nat) (b : Bool) (f : Fld) (h : f.off ∉ doneRegs n) :
    (s.complete n seq typ code status unit p b).get f = s.get f :=
  State.get_eq_of_rget _ _ _ (s.rget_complete n seq typ code status unit p b _ h)

theorem State.getS_putS_same (s : State) (f : Fld) (x : Int) (h : f.ok = true) :
    (s.putS f x).getS f = sgn (f.hi - f.lo + 1) (twos (f.hi - f.lo + 1) x) := by
  unfold State.getS State.putS
  rw [s.get_put_same f _ h]
  unfold sgn
  simp only [Nat.mod_mod]

/-! ### Units -/

/-- The STATE field of every unit but the mirror port is that of its status register. -/
theorem State.ust_eq (s : State) (u : UnitId) (h : u ≠ .mirror) : s.ust u = UState.ofCode (s.get (stateFld u)) := by
  cases u <;> first | rfl | exact absurd rfl h

theorem UState.ofCode_code (x : UState) : UState.ofCode x.code = x := by cases x <;> rfl

theorem stateFld_ok (u : UnitId) : (stateFld u).ok = true := by cases u <;> rfl

/-- A unit reads the state that was written to it. -/
theorem State.ust_setUst_same (s : State) (u : UnitId) (x : UState) : (s.setUst u x).ust u = x := by
  by_cases h : u = .mirror
  · subst h
    have hlt : setBits s.mirrorUnit.toNat 2 0 x.code < 2 ^ 32 := setBits_lt _ _ _ _ s.mirrorUnit.isLt (by decide) (by decide)
    simp only [State.setUst, State.ust, BitVec.toNat_ofNat, Nat.mod_eq_of_lt hlt, bits_setBits_same]
    cases x <;> rfl
  · have hs : s.setUst u x = s.put (stateFld u) x.code := by cases u <;> first | rfl | exact absurd rfl h
    have hw : x.code % 2 ^ ((stateFld u).hi - (stateFld u).lo + 1) = x.code := by
      have : (stateFld u).hi - (stateFld u).lo + 1 = 3 := by cases u <;> rfl
      rw [this]; cases x <;> rfl
    rw [hs, State.ust_eq _ _ h, State.get_put_same _ _ _ (stateFld_ok u), hw, UState.ofCode_code]

theorem State.ust_of_rget (s t : State) (u : UnitId) (hu : u ≠ .mirror) (h : t.rget (stateFld u).off = s.rget (stateFld u).off) :
    t.ust u = s.ust u := by
  rw [State.ust_eq t u hu, State.ust_eq s u hu, State.get_eq_of_rget s t _ h]

theorem State.pend_eq (s : State) (u : UnitId) (hu : u ≠ .mirror) : s.pend u = s.on ⟨(stateFld u).off, 3, 3⟩ := by
  cases u <;> first | rfl | exact absurd rfl hu

theorem State.pend_of_rget (s t : State) (u : UnitId) (hu : u ≠ .mirror) (h : t.rget (stateFld u).off = s.rget (stateFld u).off) :
    t.pend u = s.pend u := by
  rw [State.pend_eq t u hu, State.pend_eq s u hu]
  exact State.on_eq_of_get _ _ _ (State.get_eq_of_rget s t ⟨(stateFld u).off, 3, 3⟩ h)

theorem State.setUst_eq (s : State) (u : UnitId) (x : UState) (hu : u ≠ .mirror) : s.setUst u x = s.put (stateFld u) x.code := by
  cases u <;> first | rfl | exact absurd rfl hu

theorem State.setPend_eq (s : State) (u : UnitId) (b : Bool) (hu : u ≠ .mirror) :
    s.setPend u b = s.putB ⟨(stateFld u).off, 3, 3⟩ b := by
  cases u <;> first | rfl | exact absurd rfl hu

theorem State.rget_setUst_ne (s : State) (u : UnitId) (x : UState) (a : Nat) (h : (stateFld u).off ≠ a) :
    (s.setUst u x).rget a = s.rget a := by
  by_cases hu : u = .mirror
  · subst hu; rfl
  · rw [State.setUst_eq _ _ _ hu, State.rget_put_ne _ _ _ _ h]

theorem State.rget_setPend_ne (s : State) (u : UnitId) (b : Bool) (a : Nat) (h : (stateFld u).off ≠ a) :
    (s.setPend u b).rget a = s.rget a := by
  by_cases hu : u = .mirror
  · subst hu; rfl
  · rw [State.setPend_eq _ _ _ hu]; exact State.rget_putB_ne _ _ _ _ h

theorem stateFld_bits (u : UnitId) : (stateFld u).hi = 2 ∧ (stateFld u).lo = 0 := by cases u <;> exact ⟨rfl, rfl⟩

/-- Writing PEND leaves STATE alone. -/
theorem State.ust_setPend (s : State) (u : UnitId) (b : Bool) : (s.setPend u b).ust u = s.ust u := by
  by_cases hu : u = .mirror
  · subst hu
    have hlt : setBits s.mirrorUnit.toNat 3 3 (b2n b) < 2 ^ 32 := setBits_lt _ _ _ _ s.mirrorUnit.isLt (by decide) (by decide)
    simp only [State.setPend, State.ust, BitVec.toNat_ofNat, Nat.mod_eq_of_lt hlt]
    rw [bits_setBits_apart _ _ _ _ _ _ (by omega)]
  · rw [State.setPend_eq _ _ _ hu, State.ust_eq _ _ hu, State.ust_eq _ _ hu, State.get_putB_apart _ _ _ _ rfl]
    right; right
    have := stateFld_bits u
    simp only [this.1, this.2]; omega

theorem State.pend_setPend (s : State) (u : UnitId) (b : Bool) (hu : u ≠ .mirror) : (s.setPend u b).pend u = b := by
  rw [State.pend_eq _ _ hu, State.setPend_eq _ _ _ hu, State.on_putB_same _ _ _ rfl]

theorem State.pend_setUst (s : State) (u : UnitId) (x : UState) (hu : u ≠ .mirror) : (s.setUst u x).pend u = s.pend u := by
  rw [State.pend_eq _ _ hu, State.pend_eq _ _ hu, State.setUst_eq _ _ _ hu, State.on_put_apart _ _ _ _ (stateFld_ok u)]
  right; left
  have := stateFld_bits u
  simp only [this.1, this.2]; omega

@[simp] theorem State.setUst_hidden (s : State) (u : UnitId) (x : UState) (hu : u ≠ .mirror) : (s.setUst u x).hidden = s.hidden := by
  rw [State.setUst_eq _ _ _ hu, State.put_hidden]

@[simp] theorem State.setPend_hidden (s : State) (u : UnitId) (b : Bool) (hu : u ≠ .mirror) : (s.setPend u b).hidden = s.hidden := by
  rw [State.setPend_eq _ _ _ hu, State.putB_hidden]

theorem RegsOnly.setUst {s x : State} (h : RegsOnly s x) (u : UnitId) (v : UState) (hu : u ≠ .mirror) : RegsOnly s (x.setUst u v) := by
  rw [State.setUst_eq _ _ _ hu]; exact h.put _ _

theorem RegsOnly.setPend {s x : State} (h : RegsOnly s x) (u : UnitId) (b : Bool) (hu : u ≠ .mirror) : RegsOnly s (x.setPend u b) := by
  rw [State.setPend_eq _ _ _ hu]; exact h.putB _ _

theorem Keeps.setUst {s x : State} {l : List Nat} (h : Keeps s x l) (u : UnitId) (v : UState) (ha : (stateFld u).off ∈ l) :
    Keeps s (x.setUst u v) l :=
  fun b hb => (State.rget_setUst_ne x u v b (fun e => hb (e ▸ ha))).trans (h b hb)

theorem Keeps.setPend {s x : State} {l : List Nat} (h : Keeps s x l) (u : UnitId) (v : Bool) (ha : (stateFld u).off ∈ l) :
    Keeps s (x.setPend u v) l :=
  fun b hb => (State.rget_setPend_ne x u v b (fun e => hb (e ▸ ha))).trans (h b hb)

/-! ### What follows a posted event -/

variable {s x : State} {c u : Nat} {p : List Nat}

theorem Posts.rset (h : Posts s x c u p) (a : Nat) (v : Word) : Posts s (x.rset a v) c u p := h.after (fun _ hx => hx)
theorem Posts.put (h : Posts s x c u p) (f : Fld) (v : Nat) : Posts s (x.put f v) c u p := h.rset _ _
theorem Posts.putB (h : Posts s x c u p) (f : Fld) (v : Bool) : Posts s (x.putB f v) c u p := h.rset _ _
theorem Posts.putS (h : Posts s x c u p) (f : Fld) (v : Int) : Posts s (x.putS f v) c u p := h.rset _ _
theorem Posts.addSat (h : Posts s x c u p) (f : Fld) (v : Nat) : Posts s (x.addSat f v) c u p := h.rset _ _
theorem Posts.cause (h : Posts s x c u p) (f : Fld) : Posts s (x.cause f) c u p := h.rset _ _
theorem Posts.trackIrq (h : Posts s x c u p) : Posts s x.trackIrq c u p := h.after (fun _ hx => hx)
theorem Posts.evtPost (h : Posts s x c u p) (e : EvtEntry) : Posts s (x.evtPost e) c u p := h.after (fun y hy => x.mem_evtPost e y hy)
theorem Posts.event (h : Posts s x c u p) (k v : Nat) (q : List Nat) : Posts s (x.event k v q) c u p := h.evtPost _
theorem Posts.event' (h : Posts s x c u p) (k : Nat) (q : List Nat) : Posts s (x.event' k q) c u p := h.evtPost _

/-! ### Requests of registers -/

/-- A write that reaches a register of a running island has its effect (R495, R558). -/
theorem State.reqWrite_runs (s : State) (req off : Nat) (f : State → State) (hr : reaches req off = true)
    (hi : s.islandRuns (islandOf off) = true) : s.reqWrite req off f = f s := by
  simp [State.reqWrite, hr, hi]

/-- Every requester but the housekeeping core reaches every register. -/
theorem reaches_of_ne {req : Fin 6} (h : req ≠ 5) (off : Nat) : reaches req off = true := by
  have : (req : Nat) ≠ 5 := fun e => h (Fin.ext e)
  simp [reaches, this]

end Sys2Proof.Machine
end

