-- ==== Sys2Proof/Laws/Rings.lean ====
section
/-!
SUPPORT. Laws of the ring records: what the operations on a ring's record leave alone, and what they write.
-/
namespace Sys2Proof.Machine

variable (s : State)

/-- A ring's record reads what was written to it. -/
theorem State.ring_setRing_same (n : Nat) (r : Ring) (h : n < s.hif.rings.length) : (s.setRing n r).ring n = r := by
  simp [State.ring, State.setRing, List.getD_eq_getElem?_getD, h]

/-- A ring's record follows from the list of records alone. -/
theorem State.ring_of_hif (t : State) (h : t.hif.rings = s.hif.rings) (n : Nat) : t.ring n = s.ring n := by
  unfold State.ring; rw [h]

@[simp] theorem State.ring_trackIrq (n : Nat) : s.trackIrq.ring n = s.ring n := rfl
@[simp] theorem State.rget_take (n q a : Nat) : (s.take n q).rget a = s.rget a := rfl
@[simp] theorem State.rget_startDesc (n q a : Nat) : (s.startDesc n q).rget a = s.rget a := rfl

@[simp] theorem State.evtEntries_rset (a : Nat) (v : Word) : (s.rset a v).evtEntries = s.evtEntries := by cases s; rfl
@[simp] theorem State.evtEntries_put (f : Fld) (x : Nat) : (s.put f x).evtEntries = s.evtEntries := by cases s; rfl
@[simp] theorem State.evtEntries_putB (f : Fld) (b : Bool) : (s.putB f b).evtEntries = s.evtEntries := by cases s; rfl
@[simp] theorem State.evtEntries_putS (f : Fld) (x : Int) : (s.putS f x).evtEntries = s.evtEntries := by cases s; rfl
@[simp] theorem State.evtEntries_addSat (f : Fld) (n : Nat) : (s.addSat f n).evtEntries = s.evtEntries := by cases s; rfl
@[simp] theorem State.evtEntries_cause (f : Fld) : (s.cause f).evtEntries = s.evtEntries := by cases s; rfl
@[simp] theorem State.evtEntries_setRing (n : Nat) (r : Ring) : (s.setRing n r).evtEntries = s.evtEntries := by cases s; rfl
@[simp] theorem State.evtEntries_wbDue (n : Nat) : (s.wbDue n).evtEntries = s.evtEntries := by cases s; rfl
@[simp] theorem State.evtEntries_take (n q : Nat) : (s.take n q).evtEntries = s.evtEntries := by cases s; rfl
@[simp] theorem State.evtEntries_startDesc (n q : Nat) : (s.startDesc n q).evtEntries = s.evtEntries := by cases s; rfl
@[simp] theorem State.ring_rset (a : Nat) (v : Word) (m : Nat) : (s.rset a v).ring m = s.ring m := by cases s; rfl
@[simp] theorem State.ring_put (f : Fld) (x : Nat) (m : Nat) : (s.put f x).ring m = s.ring m := by cases s; rfl
@[simp] theorem State.ring_putB (f : Fld) (b : Bool) (m : Nat) : (s.putB f b).ring m = s.ring m := by cases s; rfl
@[simp] theorem State.ring_putS (f : Fld) (x : Int) (m : Nat) : (s.putS f x).ring m = s.ring m := by cases s; rfl
@[simp] theorem State.ring_addSat (f : Fld) (n : Nat) (m : Nat) : (s.addSat f n).ring m = s.ring m := by cases s; rfl
@[simp] theorem State.ring_cause (f : Fld) (m : Nat) : (s.cause f).ring m = s.ring m := by cases s; rfl
@[simp] theorem State.setRing_evtQueue (n : Nat) (r : Ring) : (s.setRing n r).hif.evtQueue = s.hif.evtQueue := by cases s; rfl
@[simp] theorem State.setRing_evtUnread (n : Nat) (r : Ring) : (s.setRing n r).hif.evtUnread = s.hif.evtUnread := by cases s; rfl
@[simp] theorem State.setRing_linkUp (n : Nat) (r : Ring) : (s.setRing n r).hif.linkUp = s.hif.linkUp := by cases s; rfl
@[simp] theorem State.setRing_evtNext (n : Nat) (r : Ring) : (s.setRing n r).hif.evtNext = s.hif.evtNext := by cases s; rfl
@[simp] theorem State.setRing_coalSince (n : Nat) (r : Ring) : (s.setRing n r).hif.coalSince = s.hif.coalSince := by cases s; rfl
@[simp] theorem State.setRing_length (n : Nat) (r : Ring) : (s.setRing n r).hif.rings.length = s.hif.rings.length := List.length_set ..
@[simp] theorem State.get_setRing (n : Nat) (r : Ring) (f : Fld) : (s.setRing n r).get f = s.get f := by cases s; rfl
@[simp] theorem State.on_setRing (n : Nat) (r : Ring) (f : Fld) : (s.setRing n r).on f = s.on f := by cases s; rfl
@[simp] theorem State.wbDue_evtQueue (n : Nat) : (s.wbDue n).hif.evtQueue = s.hif.evtQueue := by cases s; rfl
@[simp] theorem State.wbDue_evtUnread (n : Nat) : (s.wbDue n).hif.evtUnread = s.hif.evtUnread := by cases s; rfl
@[simp] theorem State.wbDue_evtNext (n : Nat) : (s.wbDue n).hif.evtNext = s.hif.evtNext := by cases s; rfl
@[simp] theorem State.wbDue_coalSince (n : Nat) : (s.wbDue n).hif.coalSince = s.hif.coalSince := by cases s; rfl
@[simp] theorem State.wbDue_length (n : Nat) : (s.wbDue n).hif.rings.length = s.hif.rings.length := List.length_set ..
@[simp] theorem State.get_wbDue (n : Nat) (f : Fld) : (s.wbDue n).get f = s.get f := by cases s; rfl
@[simp] theorem State.on_wbDue (n : Nat) (f : Fld) : (s.wbDue n).on f = s.on f := by cases s; rfl
@[simp] theorem State.take_evtQueue (n q : Nat) : (s.take n q).hif.evtQueue = s.hif.evtQueue := by cases s; rfl
@[simp] theorem State.take_evtUnread (n q : Nat) : (s.take n q).hif.evtUnread = s.hif.evtUnread := by cases s; rfl
@[simp] theorem State.take_linkUp (n q : Nat) : (s.take n q).hif.linkUp = s.hif.linkUp := by cases s; rfl
@[simp] theorem State.take_evtNext (n q : Nat) : (s.take n q).hif.evtNext = s.hif.evtNext := by cases s; rfl
@[simp] theorem State.take_coalSince (n q : Nat) : (s.take n q).hif.coalSince = s.hif.coalSince := by cases s; rfl
@[simp] theorem State.take_length (n q : Nat) : (s.take n q).hif.rings.length = s.hif.rings.length := List.length_set ..
@[simp] theorem State.get_take (n q : Nat) (f : Fld) : (s.take n q).get f = s.get f := by cases s; rfl
@[simp] theorem State.on_take (n q : Nat) (f : Fld) : (s.take n q).on f = s.on f := by cases s; rfl
@[simp] theorem State.startDesc_evtQueue (n q : Nat) : (s.startDesc n q).hif.evtQueue = s.hif.evtQueue := by cases s; rfl
@[simp] theorem State.startDesc_evtUnread (n q : Nat) : (s.startDesc n q).hif.evtUnread = s.hif.evtUnread := by cases s; rfl
@[simp] theorem State.startDesc_linkUp (n q : Nat) : (s.startDesc n q).hif.linkUp = s.hif.linkUp := by cases s; rfl
@[simp] theorem State.startDesc_evtNext (n q : Nat) : (s.startDesc n q).hif.evtNext = s.hif.evtNext := by cases s; rfl
@[simp] theorem State.startDesc_coalSince (n q : Nat) : (s.startDesc n q).hif.coalSince = s.hif.coalSince := by cases s; rfl
@[simp] theorem State.startDesc_length (n q : Nat) : (s.startDesc n q).hif.rings.length = s.hif.rings.length := List.length_set ..
@[simp] theorem State.get_startDesc (n q : Nat) (f : Fld) : (s.startDesc n q).get f = s.get f := by cases s; rfl
@[simp] theorem State.on_startDesc (n q : Nat) (f : Fld) : (s.startDesc n q).on f = s.on f := by cases s; rfl
theorem Keeps.setRing {s x : State} {l : List Nat} (h : Keeps s x l) (n : Nat) (r : Ring) : Keeps s (x.setRing n r) l := h
theorem Keeps.wbDue {s x : State} {l : List Nat} (h : Keeps s x l) (n : Nat) : Keeps s (x.wbDue n) l := h
theorem Keeps.take {s x : State} {l : List Nat} (h : Keeps s x l) (n q : Nat) : Keeps s (x.take n q) l := h
theorem Keeps.startDesc {s x : State} {l : List Nat} (h : Keeps s x l) (n q : Nat) : Keeps s (x.startDesc n q) l := h

end Sys2Proof.Machine
end

