-- ==== Sys2Proof/WellFormed.lean ====
section
/-!
DEFINITION. Well-formed commands: the bounds that the types of a command's operands do not carry. The block gives an ill-formed command
a meaning as well (it reads what is missing as absent); a well-formed one is a command that the interface it comes by can carry.
-/
namespace Sys2Proof

/-- Are the operands of a command within what its interface carries? Offsets lie in BAR0's 64 MiB (R557) and accesses of BAR4 in its
256 MiB window (R65); payloads of control packets are at most 4,128 bytes long (R190); a read block has at most 80 wrong symbols (R447);
rounds of the sensors carry every sensor (R512, R513). Every other command's operand types already bound it. -/
def Instr.wf : Instr → Bool
  | .registerWrite _ off _ _ => Nat.blt off (2 ^ 26)
  | .rcRegisterRead _ off _ => Nat.blt off (2 ^ 26)
  | .loRegisterRead _ off _ => Nat.blt off (2 ^ 26)
  | .bar4Read addr len => Nat.ble (addr + len) (2 ^ 28)
  | .bar4Write addr data => Nat.ble (addr + data.length) (2 ^ 28)
  | .portLatencyDone _ es => es.all (fun e => e.rtTau.length == 16)
  | .resResultReport _ _ _ first codes => Nat.ble (first + codes.length) (2 ^ 16)
  | .maskLoad _ _ _ p => Nat.ble p.length 4128
  | .trimLoad _ _ _ p => Nat.ble p.length 4128
  | .ledgerLoadComplete es => es.all (fun e => Nat.blt e.1 0x00800000)
  | .optionBlockLoad es => es.all (fun e => Nat.blt e.1 0x00800000)
  | .standbySelfTest _ _ es => es.all (fun e => Nat.blt e.1 0x00800000)
  | .probeClose _ c => Nat.blt c (2 ^ 18)
  | .csi2LongPacket _ _ _ _ _ px _ => Nat.ble px.length 8192
  | .lineEnd _ _ px _ => Nat.ble px.length 8192
  | .ledUpdate _ xa xb _ => decide (-(2 : Int) ^ 63 ≤ xa ∧ xa < 2 ^ 63 ∧ -(2 : Int) ^ 63 ≤ xb ∧ xb < 2 ^ 63)
  | .rowSlotStart _ opens shorts _ => Nat.ble (opens.length + shorts.length) 512
  | .dramRead _ addr es => Nat.blt addr (2 ^ 36) && Nat.ble es.length 80
  | .dramWrite addr data es => Nat.ble (addr + data.length) (2 ^ 36) && Nat.ble es.length 80
  | .eccWriteBack addr => Nat.blt addr (2 ^ 36)
  | .mr4Poll fs => Nat.ble fs.length 2 && fs.all (fun f => Nat.blt f.1 8)
  | .patrolScrubRead es => Nat.ble es.length 80
  | .driftCheck cs => Nat.ble cs.length 2
  | .netFrameReceived _ f _ _ _ => Nat.ble f.length 16384
  | .netFrameTransmit _ f => Nat.ble f.length 16384
  | .housekeepingSlowRound die ext hk => die.length == 24 && ext.length == 32 && hk.length == 32
  | .dieFastRead die => die.length == 24
  | .rxSearchDone _ _ taps _ => taps.length == 5 && taps.all (fun t => decide (-32 ≤ t ∧ t ≤ 31))
  | _ => true

end Sys2Proof
end

