-- ==== Sys2Proof/Tests/Slice0.lean ====
section
/-!
SUPPORT. Tests: ill-formed terms that well-formedness refuses, values that the specification gives, single steps, and for every statement
with hypotheses a state and operands that meet them.
-/
namespace Sys2Proof.Tests
open Sys2Proof Sys2Proof.Machine

set_option linter.unusedVariables false
set_option Elab.async false

/-! ### Small states -/

def up : State := { State.reset with hif := { State.reset.hif with linkUp := true } }
def dsc (l : List (Nat × Nat × Nat)) : DescBits := BitVec.ofNat 512 (l.foldl (fun a e => a + e.2.2 * 256 ^ e.1) 0)
def od (seq : Nat) (b : DescBits) : OpenDesc := { seq := seq, bits := b, taken := false, started := false, done := false, stale := false }
def withDesc (s : State) (n : Nat) (d : OpenDesc) : State := s.setRing n { s.ring n with opens := [d] }
def ready : State :=
  (((((((((up.put DMC_STATUS_SIZE 8).put (PLN_GEOM_TILES 0) 1).rset (PLN_TILE_MAP 0 0) 0x80000000).put PGP_WEB_SCALE_SCALE 1000).put PGP_WEB_STOP_WIN_WIN 10).put PGP_WEB_DEV_WIN_WIN 5).put PGP_PAGE_AREA_SIZE_SIZE 16).put PGP_LINE_PERIOD_PERIOD 2000000).put PGP_PERIOD_ACTIVE_PERIOD 2000000)
def pln (n : Nat) : List PlaneCfg := (List.range 8).map (fun q => { tiles := if q = 0 then n else 0, map := if q = 0 then [0x80000000] else [], mask := [], routeDead := false, dropTable := 0, pre := 0, dead := 0, mainNs := 0, gap := 0, scale := 0 })
def slim (n : Nat) (j : Job) : Job := { j with planes := pln n, bands := bandsOf (pln n), laneMask := [0, 0, 0] }
def jA : Job := slim 0 (up.newJob 0 1 0)
def sJ : State := { up with press := { up.press with job := some jA } }
def dJ : OpenDesc := od 1 (dsc [(0,1,0x10),(1,1,0x40),(4,4,77),(2,2,1)])
def dP : OpenDesc := od 3 (dsc [(0,1,0x11),(1,1,0x44),(4,4,100),(2,2,3),(8,4,55)])
def dE : OpenDesc := od 4 (dsc [(0,1,0x12),(1,1,0x40),(2,2,4)])
def onR (s : State) (n : Fin 4) : State := s.setUst (.ring (.job n)) .on
def sJS : State := withDesc (onR ready 0) 0 dJ
def jR : Job := slim 1 (ready.newJob 0 1 dJ.bits)
def inJob (s : State) (j : Job) : State := { s with press := { s.press with job := some j } }
def recA : Recovery := { Recovery.start with phase := 4 }
def rh : RepHdr := { lsn := 5, line := 100, ident := 0, unassigned := false }
def e00 : MapEntry := { g := 0, port := 0, slot := 0, trim := 0 }
def dOk : DescBits := let b := dsc [(0,1,1),(1,1,1),(12,2,480),(18,2,96),(20,1,8),(21,1,12)]; b ||| (BitVec.ofNat 512 (crc32c ((declBytes b).take 60)) <<< 480)
def dHub : DescBits := let b := dsc [(0,1,1),(1,1,2),(14,3,5)]; b ||| (BitVec.ofNat 512 (crc32c ((declBytes b).take 60)) <<< 480)
def up0 : State := (((ready.setUst (.port 0) .on).put (HLK_PORT_STATUS_PHASE 0) 6).putB (HLK_SLOT_STATUS_PRESENT 0 0) true)
def late0 : State := { inJob ready jR with time := { ready.time with pt := 10000000 * 2 ^ 32 } }
def ch : CtlHdr := { lsn := 3, cseq := 4, imm := true, line := 0, crcOk := true }
def cht : CtlHdr := { lsn := 3, cseq := 4, imm := false, line := 0, crcOk := true }
def aut : State := { up with heads := { up.heads with auth := up.heads.auth.set 0 true } }
def autT : State := { aut with time := { aut.time with cyc := 1000000 } }
def le (l : List (Nat × Nat)) : List Byte := (l.map (fun e => leBytes e.1 e.2)).flatten
def dC : OpenDesc := od 5 (dsc [(0,1,0x10),(1,1,0x40),(2,2,5),(5,1,2),(6,2,64),(8,4,1),(12,4,16),(32,4,17)])
def dD : OpenDesc := od 6 (dsc [(0,1,0x11),(1,1,0x40),(2,2,6),(12,4,64),(32,4,1000)])
def hdr : List Byte := streamBytes { symw := 2, width := 64, histReset := true, lines := 1 } [.literal (List.replicate 64 1)]
def cmxS (d : OpenDesc) : State := (withDesc ready 4 d).put CMX_UNIT_MASK_MASK 255
def jC (st : Nat) : CmxJob := { cmxFail dC.bits st 0 0 16 none with out := hdr }
def cmxB (j : CmxJob) : State := { (cmxS dC).put CMX_UNIT_STATUS_BUSY 2 with cmx := (cmxS dC).cmx.set 1 (some j) }
def tr (ph : Nat) : State := ((ready.put HLK_FIRE_LATENCY_NS 2000).setUst (.port 3) .starting).put (HLK_PORT_STATUS_PHASE 3) ph
def trH (ph : Nat) : State := ((tr ph).setPort 3 { (tr ph).port 3 with hubOk := true }).putB (HLK_SLOT_STATUS_PRESENT 3 2) true
def es3 : List EchoSet := [{ slot := 2, rtTau := List.replicate 16 1000 }, { slot := 24, rtTau := List.replicate 16 900 }]
def xs3 (k : Nat) : List Nat := ((es3.find? (fun e => e.slot.val == k)).map (·.rtTau)).getD []
def upP : State := ((ready.setUst (.port 3) .on).put (HLK_PORT_STATUS_PHASE 3) 6)
def pk (b : PacketBody) : Packet := { lsn := 7, slot := 2, body := b, sent := 1, lastStatus := 0 }
def upK (b : PacketBody) : State := upP.setPort 3 { upP.port 3 with outstanding := [pk b] }
def bL : PacketBody := .line 100 0 3 [1,2] false
def bW : PacketBody := .ctl opWARM 4 true 0 (leBytes 8 77) none
def lc (op tile noz arg : Nat) : LdgCmd := { ready := true, op := op, tile := tile, nozzle := noz, arg := arg }
def lq (s : State) (cs : List LdgCmd) : State := s.setLdg { s.ldg with cmds := cs }
def nzS (st : Nat) : State := ready.setLdg { ready.ldg with nozzles := [(10, st), (12, st), (100, st), (32768 * 70 + 5, st)] }
def swT : SweepTile := { g := 0, port := 0, slot := 0, got := [], naks := 1, failed := true }
def swR (f : Bool) : SweepRun := { planes := 1, opens := 0, shorts := 0, drift := 0, limit := 0, start := 0, tiles := [{ swT with failed := f }] }
def upS (f : Bool) : State := up0.setLdg { up0.ldg with sweep := some (swR f) }
def mc1 : MaskChange := { g := 0, first := 3, masks := [5], lEff := 7, jobLine := none, sent := false, ret := [] }
def swT' (f : Bool) : SweepTile := { swT with failed := f }
def camS : State := ((up.putB (CAM_PORT_CFG_EN 0) true).setUst (.ctx 0) .on).put (CAM_CTX_CFG_DT 0) 1
def camD : State := (camS.put CAM_PIPE_SEL_CTX0 0).putB CAM_PIPE_SEL_VALID0 true
def cpar : CamParams := { cfg := 0x100, size := 0x00020002#32, time := 1, expo := 100, ob := 0, grid := 0x33, dpc := 0, black := [16, 0, 0, 0], defects := [], knots := [], flatRef := false }
def cln (n : Nat) : CamLine := { x := 5, nopos := true, t := 0, crc := false, clean := true, pixels := List.replicate n 300 }
def cfr (cur : Option CamLine) (ls : List CamLine) (p : Option Nat) (b : Option (Nat × Nat × Nat)) : Frame :=
  { ctx := 0, no := 3, start := 0, press := 0, p := cpar, isOpen := true, cur := cur, overrun := false, lines := ls, short := false, long := false,
    corrupt := false, corruptProc := false, late := false, trunc := false, inspect := false, buf := b, pipe := p, done := 0, outs := [], caps := [] }
def camF (s : State) (fs : List Frame) : State := s.setCam { s.cam with frames := fs }
def fb (cnt : Nat) : OpenDesc := od 7 (dsc [(0,1,0x10),(1,1,0x40),(6,2,cnt),(8,8,0x1000),(16,4,0x400),(56,4,77)])
def cp (cnt : Nat) : OpenDesc := od 7 (dsc [(0,1,0x11),(1,1,0x40),(6,2,cnt),(8,8,0x1000),(16,4,0x400),(56,4,77)])
def camB : State := camS.put DMC_STATUS_SIZE 8
def drv (b : Bool) : Driver := { Driver.reset with dark := false, synced := b, opens := [5, 0, 0, 2], shorts := [0, 9, 0, 0], hot := b, ot := true, sense := List.replicate 64 (100, 3) }
def barS (b : Bool) : State := (up.setUst (.bar 2) .on).setBar 2 { Bar.reset with drivers := [drv b, drv b, Driver.reset, drv b], gs := List.replicate 256 7, otLost := [true, false, false, false] }
def mkf (cmd addr idx v : Nat) : BitVec 64 := let f := 0xB * 2^60 + cmd * 2^56 + addr * 2^53 + idx * 2^40 + v * 2^8; BitVec.ofNat 64 (f + frameCheck8 f)
def ledS : State := (((barS true).put (CAL_CH_STATUS_RUN_STATE chLED) rsRUNNING).putB (LED_BAR_CFG_CAL_EN 2) true).putB (LED_BAR_CFG_CAL_EN 3) true |>.setUst (.bar 3) .on
def blk (s : State) : State := { s.putB LED_CTRL_FORCE_BLANK false with web := { s.web with resetStop := false, thermStop := false } }
def axS (m : Nat) (x : Axis) : State := ((((up.setUst (.axis 3) .on).put (MOT_AX_CFG_MODE 3) m).put (MOT_AX_Q_TARGET_TARGET 3) 5000).put (MOT_AX_Q_VEL_VEL 3) 700) |>.setAxis 3 x
def axM : Axis := { Axis.reset with mot := { p := 100 * 2 ^ 32, v := 1000 * 2 ^ 32, a := 0 } }
def axT : Traj := planTo { v := 1000 * 2 ^ 32, acc := 512000 * 2 ^ 32, dec := 512000 * 2 ^ 32, j := 32000000 * 2 ^ 32 } axM.mot (fx 500) 0
def axG : State := ((axS 2 { Axis.reset with mRef := 0, mLast := 65535999 }).setAxis 0 { Axis.reset with mot := { p := 1000 * 2 ^ 32, v := 0, a := 0 }, mLast := 0 }).put (MOT_AX_CFG_GEAR_SRC 3) 1 |>.put (MOT_AX_GEAR_NOW_RATIO 3) 65536
def axC (b : Bool) : Axis := { Axis.reset with phA := { Phase.reset with chop := .onTime 0 }, phB := { Phase.reset with chop := if b then .onTime 0 else .offTime 0 } }
def axL : State := ((axS 1 axM).putB (MOT_AX_LIM_POS_EN 3) true).putB (MOT_AX_LIM_POS_POL 3) true
def axN : State := (((axS 1 { axM with mot := { p := 100 * 2 ^ 32, v := -1000 * 2 ^ 32, a := 0 } }).putB (MOT_AX_LIM_NEG_EN 3) true).putB (MOT_AX_LIM_NEG_POL 3) true).putB (MOT_AX_LIM_NEG_HARD 3) true
def wbS (p : WebPlan) : State := let s := up.setUst .web .on; { s with web := { s.web with plan := p } }
def later (n : Nat) (s : State) : State := { s with time := { s.time with cyc := n, pt := n * 2 ^ 32 } }
def enS (u : UnitId) : State := (up.setUst u .on)
def mS : State := (((enS (.master 1)).putB (ENC_M_STATUS_STANDSTILL 1) true).putB (ENC_M_CFG_EDGE 1) true).putB ENC_XCHK_EN false
def sS (x : CountIn) : State := ((((enS (.serial 2)).setSinp 2 x).put (ENC_S_CFG_LEN 2) 20).put (ENC_S_FIELD_POS_LEN 2) 16 |>.put (ENC_S_CFG_CRC_LEN 2) 0).putB (ENC_S_CFG_ERR_EN 2) false
def lS : State := ((((((((enS (.slot 4)).put (LPE_SRC_IN_SRC 4) 8).put (LPE_SRC_IN_IDX 4) 2).put (LPE_SW_IN_VALUE 2) 0x41200000).put (LPE_IN_GAIN_GAIN 4) 0x3F800000).put (LPE_B0_COEF 4) 0x3F800000).put (LPE_KP_GAIN 4) 0x3F000000).put (LPE_KI_GAIN 4) 0x3DCCCCCD).put (LPE_OUT_MAX_VALUE 4) 0x42C80000 |>.setLoop 4 { Loop.reset with supStart := false }
def dmS : State := up.put DMC_STATUS_SIZE 16 |>.putB DMC_STATUS_READY true |>.putB DMC_STATUS_INIT_DONE true
def dmD (s : State) (f : Dmc → Dmc) : State := { s with dmc := f s.dmc }
def blk64 : List Byte := (List.range 64).map (fun i => BitVec.ofNat 8 (3 * i + 1))
def dmW : State := { dmS with dram := Mem.writes [] 128 blk64 }
def er0 : EccRead := eccDecode blk64 false []
def bad3 : List SymErr := [⟨0, 1, 5⟩, ⟨0, 7, 9⟩, ⟨0, 12, 77⟩]
def er3 : EccRead := eccDecode blk64 false bad3
def erZ : EccRead := eccDecode (List.replicate 64 0) false []
def cc : DramCoord := dramCoord dmS.dmcCfg 4096
def prS (ps : Nat) : State := ((up.put PAR_CFG_ROLE 1).setPState ps).putB PAR_STATUS_MIRROR_UP true
def prM (ps : Nat) : State := ((up.put PAR_CFG_ROLE 2).setPState ps).putB PAR_CFG_FIRE_EN true
def pq (s : State) (f : Par → Par) : State := s.setPar (f s.par)
def actS : State := ((prS 3).put PAR_LEASE_HOLDER 1).putB PAR_STATUS_AUTH true
def ntS : State := [0, 1].foldl (fun s k => (s.setUst (.net (Fin.ofNat 2 k)) .on).putB (NET_PORT_STATUS_LINK k) true) (up.putB NET_TC_CTRL_EN false)
def frmA : List Byte := [2, 0, 0, 0, 0, 7] ++ List.replicate 54 3
def frmP : List Byte := [2, 0, 0, 0, 0, 7] ++ List.replicate 6 3 ++ [0x88, 0xF7, 0x10] ++ List.replicate 40 0
def dmA (n : Nat) : State := let s := (((ntS.putB NET_PT_STATUS_ACT_VALID true).put NET_PT_STATUS_ACTIVE 0).putB (NET_DOM_CFG_VALID 0) true).putB (NET_DOM_CFG_VALID 1) true
  { s with net := { s.net with ofs := [5 * 4294967296, -7 * 4294967296], stamp := [some 0, if n = 2 then some 0 else none], old := [false, false] } }
def rsS : State := let s := (List.range 17).foldl (fun s k => (s.put (RST_ISLAND_RSTATE k) 1).put (RST_ISLAND_FENCED k) 1) up
  { s with rst := { s.rst with asserted := [1], todo := List.range 17, cover := List.range 17 } }
def clkS (s : State) : State := (List.range 17).foldl (fun s k => s.putB (RST_ISLAND_CLK_GOOD k) true) s
def okBlk : List Byte := optDefaults
def optS (s : State) (b : List Byte) : State := { s with mram := Mem.writes s.mram 0x00700000 b, rst := { s.rst with pins := true } }
def blkRole : List Byte := let b := (optDefaults.take 5) ++ [1#8] ++ (optDefaults.drop 6).take 54; b ++ leBytes 4 (crc32c b)
def stg : State := (List.range 16).foldl (fun s i => s.put (NVM_OPT_STAGE_DATA i) (leNat ((optDefaults.drop (4 * i)).take 4))) (up.putB NVM_STATUS_IN_WINDOW true)
def no15 : State := up.setIsland 15 1
def bt : State := (up.putB RST_BOOT_CTRL_GO true).putB RST_OPT_STATUS_LOCK true
def lv : State := ((((no15.putS THM_LEVEL0_WARN 6400).putS THM_LEVEL0_THROTTLE 7000).putS THM_LEVEL1_SHUT 8000).putS THM_LEVEL1_HYST 320)
def shS : State := { lv with thm := { lv.thm with shut := true, die := lv.thm.die.set 3 { DieS.reset with seen := true } }, rst := { lv.rst with asserted := [8] } }
def d24 (v : BitVec 16) : List (BitVec 16) := List.replicate 24 v
def e32 : List (BitVec 12) := List.replicate 32 2000
def h32 : List (BitVec 12) := List.replicate 32 77
def ln (s : State) (l : Nat) (f : Lane → Lane) : State := { s with lanes := s.lanes.set l (f (s.lane l)) }
def mUp : State := (up.putB PAR_STATUS_MIRROR_UP true).put SDS_ADAPT_CFG_FOM_MIN 40
def idl : State := (((up.setUst .mirror .on).setUst (.lane 48) .on).setUst (.lane 49) .on).put (SDS_LANE_CFG_IDLE_PWR 48) 3
def tst : State := (up.setUst (.lane 4) .on).putB (SDS_LANE_CFG_TEST_EN 4) true
def trb (req : Nat) : Nat := let v := 0x2D * 2 ^ 56 + req * 2 ^ 46 ; v + State.trainBlock.frameCheck8' v
def trS : State := ln (idl.setFfe 48 [3, 50, 9]) 48 (fun x => { x with rxReady := true })
def trr (req : Nat) : Nat := let v := 0x2D * 2 ^ 56 + req * 2 ^ 46 + 7 * 2 ^ 24 ; v + State.trainBlock.frameCheck8' v
def seS : State := { ((up.setUst (.master 1) .on).put (ENC_M_TIME_MIN_INT 1) 100).put (ENC_M_TALLY_COUNT 1) 65535 with
  enc := { up.enc with masters := up.enc.masters.map (fun x => { x with last := some 0 }) } }
def rgO (r : RingId) : State := (up.setUst (.ring r) .on).put (HIF_RING_CFG_LOG2SIZE r.num) 4
def rwOf (a : Nat) : RegRow := (regRowAt a).getD ⟨0, 0, 0, 0, 0, 0, 0, false, 0⟩
def rgS (r : RingId) : State := (up.setUst (.ring r) .on).put (HIF_RING_CFG_LOG2SIZE r.num) 4
def nopD : OpenDesc := od 5 (dsc [(1,1,0x40),(2,2,5)])
def fenD : OpenDesc := od 5 (dsc [(0,1,1),(1,1,0x40),(2,2,5),(4,1,4),(6,2,9)])
def fenS (b : Bool) : State := withDesc (((((rgS (.job 1)).setUst (.ring .cmx) .on).putB (HIF_RING_DONE_VALID 4) b).put (HIF_RING_DONE_DONE_SEQ 4) 9)) 1 fenD
def fenB (b : Bool) : State := (fenS b).setRing 1 { (fenS b).ring 1 with fence := some 5 }
def fetD : DescBits := dsc [(1,1,0xC0),(2,2,5)]
def evE : EvtEntry := { typ := 1, lost := false, seq := 3, code := Ev.MIRROR_UP, src := 0, status := 0, descSeq := 0, unit := 0xFFFF, time := 0, line := 0, payload := [] }
def irqS : State := ((up.put GLB_IRQ_EN_EN 8).put HIF_IRQ_MASK_MASK 0).putB HIF_IRQ_CAUSE_EVT_LOST true
def setHif (s : State) (f : Hif → Hif) : State := { s with hif := f s.hif }
def evtS : State := setHif ((rgS .evt).setRing 8 { (rgS .evt).ring 8 with unread := 1 }) (fun h => { h with evtUnread := [evE] })
def fetS : State := ((rgS .mbxIn).setRing 6 { (rgS .mbxIn).ring 6 with tail := 3 }).putB (HIF_RING_STATUS_PHASE 6) true
def qS : State := setHif (rgS .evt) (fun h => { h with evtQueue := [evE] })
def mbD : OpenDesc := od 5 (dsc [(0,1,0x10),(1,1,0x40),(2,2,5)])
def outS : State := rgS .mbxOut
def drS : State := ((up.putB DMC_STATUS_READY true).put DMC_STATUS_SIZE 8).putB HIF_WIN_CTRL_WR_EN true
def jF (r : PageRead) (w : Bool) : Job := { jR with pages := [{ newPage 3 dP.bits 0 with reads := [r], waitRoom := w, streams := [{ plane := 0, band := 0, host := 64, len := 100, crc := 0, dram := none, released := false, bad := false }] }] }
def rdDir : PageRead := { kind := .dir, plane := 0xFF, band := 0xFF, host := 0, retried := false }
def rdStr : PageRead := { kind := .stream, plane := 0, band := 0, host := 0, retried := false }
def pg (r : PageRead) (w : Bool) : PageRec := (jF r w).pages.headD (newPage 3 dP.bits 0)
def dirB : List Byte := leBytes 8 4096 ++ List.replicate 56 0
def jL (l : Option Nat) : Job := { jF rdStr false with laneMask := [3#32, 0#32, 0#32], bands := (jR.bands.map (fun b => { b with lane := l })), pages := (jF rdStr false).pages.map (fun p => { p with committed := true, reads := [] }) }
def sR2 : State := ((((((inJob ready { jR with pages := [], jobEndSeq := some 4 }).setUst (.master 0) .on).setUst .web .on).putB (ENC_M_STATUS_STANDSTILL 0) true).putB MOT_WEB_STATUS_DRIVE_READY true).put HLK_FIRE_LATENCY_NS 1000)
def jNT : Job := { ({ jR with pages := [], jobEndSeq := some 4, started := true }) with planes := [], bands := [], recovery := some { recA with phase := 3 } }
def sRes : State := inJob sR2 jNT
def sSp : State := ((((((ready.putB (PLN_KEEPWET_CAPPED 0) false).put (HLK_PORT_STATUS_STATE 0) 2).put (HLK_PORT_STATUS_PHASE 0) 6).setCtl 0 0 { CtlSlot.reset with spitOff := true })))
def sSp2 : State := { sSp with heads := { sSp.heads with auth := sSp.heads.auth.set 0 true } }
def lh (l : BitVec 24) : LineHdr := { lsn := 3, line := l, last := false, crcOk := true }
def hotT : Tile := { Tile.reset with thermSet := true, thWarn := 100, thClamp := 200, thShut := 300, thHyst := 40, thMin := 10, clamp := true, assigned := true, rowK := 4, mainNs := 500, scale := 4096, drops := [0,1,2,3], masks := [{ line := none, first := 0, data := List.replicate 16 255 }], held := [{ line := 1, codes := List.replicate 16 3, last := true, rows := none }] }
def chS (c : Nat) (st : Nat) : State := ready.put (CAL_CH_STATUS_RUN_STATE c) st
def calOff (c : Nat) (st : Nat) : State := (chS c st).putB (CAL_CH_CFG_CONT c) false
def prb : Probe := { q := 0, c := 5, n := 5000, tiles := [(0, List.replicate 8 { sums := Sums.reset, last := 0 })] }
def fin : State := let s := (((((((chS 1 rsRUNNING).putB (CAL_VIEW_CTRL_USE 0) true).putB (CAL_VIEW_CTRL_USE 1) true).putS (CAL_VIEW_COL0_COL0 1) (20000 * 256)).put (CAM_CTX_SIZE_WIDTH 0) 8000).put (CAL_VIEW_PITCH_PITCH 0) 65535).put (CAM_CTX_SIZE_WIDTH 1) 8000 |>.put (CAL_VIEW_PITCH_PITCH 1) 65535 |>.put (PLN_GEOM_TILES 0) 20); s.setCal { s.cal with prev := some (0, 100), vol := [0x40200A00#32], acc := [(7, { p := 0x7F7FFFFF, e := 0 }), (20000, { p := 0x7F7FFFFF, e := 0 })] }

/-- The next state of an outcome. -/
def nextOf (o : Host.Outcome State Fault Refusal) : State := match o with | .next t => t | _ => State.reset

/-! ### Well-formedness: a term that each check refuses -/

theorem test_wf_register_offset : (Instr.registerWrite 1 (2 ^ 26) .w32 0).wf = false := by decide
theorem test_wf_read_offset :
    (Instr.rcRegisterRead 1 (2 ^ 26) .w32).wf = false ∧ (Instr.loRegisterRead 1 (2 ^ 26) .w32).wf = false := by decide
theorem test_wf_window :
    (Instr.bar4Read (2 ^ 28) 1).wf = false ∧ (Instr.bar4Write (2 ^ 28) [1]).wf = false := by decide
theorem test_wf_echoes : (Instr.portLatencyDone 0 [{ slot := 0, rtTau := [1] }]).wf = false := by decide
theorem test_wf_res_result :
    (Instr.resResultReport 0 0 { lsn := 0, line := 0, ident := 0, unassigned := false } (2 ^ 16) [1]).wf = false := by decide
theorem test_wf_payloads :
    (Instr.maskLoad 0 0 { lsn := 0, cseq := 0, imm := true, line := 0, crcOk := true } (List.replicate 4129 0)).wf = false ∧
    (Instr.trimLoad 0 0 { lsn := 0, cseq := 0, imm := true, line := 0, crcOk := true } (List.replicate 4129 0)).wf = false := by
  decide +kernel
theorem test_wf_mram :
    (Instr.ledgerLoadComplete [(0x00800000, true)]).wf = false ∧ (Instr.optionBlockLoad [(0x00800000, true)]).wf = false ∧
    (Instr.standbySelfTest 1 true [(0x00800000, true)]).wf = false := by decide
theorem test_wf_probe : (Instr.probeClose 0 (2 ^ 18)).wf = false := by decide
theorem test_wf_pixels :
    (Instr.lineEnd 0 0 (List.replicate 8193 0) 0).wf = false ∧
    (Instr.csi2LongPacket 0 0 0 .good true (List.replicate 8193 0) 0).wf = false := by decide +kernel
theorem test_wf_led : (Instr.ledUpdate 0 (2 ^ 63) 0 (.confirmed 0)).wf = false := by decide +kernel
theorem test_wf_row_slot : (Instr.rowSlotStart 0 (List.replicate 513 (0, 0)) [] []).wf = false := by decide +kernel
theorem test_wf_dram :
    (Instr.dramRead (.bar4 4) (2 ^ 36) []).wf = false ∧ (Instr.dramWrite (2 ^ 36) [1] []).wf = false ∧
    (Instr.eccWriteBack (2 ^ 36)).wf = false ∧ (Instr.patrolScrubRead (List.replicate 81 ⟨0, 0, 1⟩)).wf = false := by decide +kernel
theorem test_wf_mr4 : (Instr.mr4Poll [(8, true)]).wf = false ∧ (Instr.driftCheck [1, 2, 3]).wf = false := by decide
theorem test_wf_frames :
    (Instr.netFrameReceived 0 (List.replicate 16385 0) true 0 0).wf = false ∧
    (Instr.netFrameTransmit 0 (List.replicate 16385 0)).wf = false := by decide +kernel
theorem test_wf_rounds : (Instr.housekeepingSlowRound [] [] []).wf = false ∧ (Instr.dieFastRead []).wf = false := by decide
theorem test_wf_taps : (Instr.rxSearchDone 0 0 [32, 0, 0, 0, 0] 0).wf = false := by decide

/-! ### Values of the specification -/

/-- The stream of the worked encoding in 05_fblc.md. -/
def bandStream : List Byte :=
  [0x46, 0x42, 0x01, 0x02, 0x40, 0x00, 0x01, 0x00, 0x04, 0x00, 0x00, 0x00, 0x00, 0x00, 0x00, 0x00,
   0x40, 0xA0, 0x46, 0xE4, 0x05, 0x12, 0x02, 0x06, 0x02, 0x00, 0x30, 0x80, 0x68, 0xB8]

/-- Its header. -/
def bandHeader : FblcHeader := { symw := 2, width := 64, histReset := true, lines := 4 }

/-- Its raster by R152: lines 0 and 2 hold 0xB9 in byte 5, line 1 0xE4 in byte 5 and 0x02 in byte 6. -/
def bandRaster : List Byte :=
  let l0 : List Byte := List.replicate 5 0 ++ [0xB9] ++ List.replicate 10 0
  let l1 : List Byte := List.replicate 5 0 ++ [0xE4, 0x02] ++ List.replicate 9 0
  l0 ++ l1 ++ l0 ++ List.replicate 16 0

/-- The worked encoding's header is read as the text gives it. -/
theorem test_worked_header : (match parseHeader bandStream with | .ok h => decide (h = bandHeader) | .error _ => false) = true := by
  decide +kernel

/-- The worked encoding decodes to the raster the text gives, and ends. -/
theorem test_worked_decoding :
    packSyms 2 (decodeAll bandHeader true (FblcState.reset 2 64) (bandStream.drop 16)).2.1 = bandRaster ∧
    (decodeAll bandHeader true (FblcState.reset 2 64) (bandStream.drop 16)).2.2 = .ended 109 := by decide +kernel

/-- The seven tokens of the worked encoding give its bytes. -/
theorem test_worked_tokens :
    streamBytes bandHeader [.run 0 20, .literal [1, 2, 3, 2], .run 0 40, .vertical (-1) 64, .history 128 24, .run 0 104] = bandStream := by
  decide +kernel

/-- R14's encoding of STATE. -/
theorem test_state_codes :
    [UState.off, .starting, .on, .stopping, .fault, .retired].map UState.code = [0, 1, 2, 3, 4, 5] := by decide

/-- The minimum line periods of the mode table of R22. -/
theorem test_min_periods : [0, 1, 2, 3].map minPeriod = [1083725, 1083725, 1642010, 1806234] := by decide

/-- Two's complement fields keep their sign. -/
theorem test_sign : sgn 16 0xFFFF = -1 ∧ twos 16 (-1) = 0xFFFF ∧ sgn 6 0x20 = -32 := by decide

/-- The preset of R525 is 3, 50, 10, and a request at a limit changes nothing. -/
theorem test_ffe_limits : ffeStep [15, 40, 8] 0 1 = ([15, 40, 8], 3) ∧ ffeStep [3, 50, 10] 2 2 = ([3, 50, 9], 1) := by decide

/-- The figure of merit of R527 is limited to 255. -/
theorem test_fom : fomOf 127 127 = 255 ∧ fomOf 32 39 = 39 := by decide

/-! ### One step -/

/-- A write reaches the register file, and a read of it returns the value. -/
theorem test_write_read :
    (nextOf (exec (.registerWrite 1 DCX_IRQ_MASK .w32 3) up)).rget DCX_IRQ_MASK = 3#32 ∧
    (nextOf (exec (.registerWrite 1 DCX_IRQ_MASK .w32 3) up)).view DCX_IRQ_MASK = 3#32 := by decide +kernel

/-- EVT has its own registers: its enable starts EVT and no other ring (R67). -/
theorem test_evt_enable :
    (nextOf (exec (.unitEnableWrite 1 (.ring .evt) 0x106) up)).ust (.ring .evt) = .starting ∧
    (nextOf (exec (.unitEnableWrite 1 (.ring .evt) 0x106) up)).ust (.ring (.job 0)) = .off ∧
    (nextOf (exec (.unitEnableWrite 1 (.ring .evt) 0x106) up)).ringSize 8 = 64 := by decide +kernel

/-- An empty queue idles; the front command runs on the queue's rest. -/
theorem test_step_idle : step State.reset = .next State.reset := rfl

/-- The housekeeping core cannot write a register of DCX (R558). -/
theorem test_housekeeping_reach :
    (nextOf (exec (.registerWrite 5 DCX_IRQ_MASK .w32 3) up)).rget DCX_IRQ_MASK = up.rget DCX_IRQ_MASK := by decide +kernel

/-! ### States and operands that meet the hypotheses of the statements -/

theorem wit_StepRunsTheFrontCommand : ∃ s : State, s.pending = [] := ⟨State.reset, rfl⟩

theorem wit_InterruptBookkeepingHolds : ∃ s t : State, s.irqSound ∧ step s = .next t :=
  ⟨State.reset, State.reset, by decide +kernel, rfl⟩

theorem wit_RegisterAccesses :
    (∃ (s : State) (req : Fin 6) (off : Nat) (r : RegRow) (v : BitVec 64), req ≠ 5 ∧ off % 4 = 0 ∧ regRowAt off = some r ∧ (blockOf off = 5 ∨ blockOf off = 6) ∧ s.islandRuns 2 = true) ∧
    (∃ (s : State) (req : Fin 6) (off : Nat) (r : RegRow) (w : AccWidth), w ≠ .w64 ∧ off % 4 = 0 ∧ regRowAt off = some r ∧ r.rc = true ∧ reaches req off = true ∧ s.islandRuns (islandOf off) = true) ∧
    (∃ (s : State) (req : Fin 6) (off : Nat) (r : RegRow), off % 4 = 0 ∧ regRowAt off = some r ∧ latchTargets r.off (r.ix off).1 ≠ [] ∧ isLatched r.off = false ∧ reaches req off = true ∧ s.islandRuns (islandOf off) = true) ∧
    (∃ (s : State) (req : Fin 6), s.islandRuns 0 = true) :=
  ⟨⟨up, 0, DCX_IRQ_MASK, rwOf DCX_IRQ_MASK, 0xFFFFFFFF, by decide +kernel⟩,
   ⟨up.put NET_TC_COUNT_COUNT 9, 1, NET_TC_COUNT, rwOf NET_TC_COUNT, .w8, by decide +kernel⟩,
   ⟨up, 1, PGP_JOB_LINE_LO, rwOf PGP_JOB_LINE_LO, by decide +kernel⟩,
   ⟨up, 2, by decide +kernel⟩⟩

theorem wit_AccessErrors :
    (∃ (s : State) (req : Fin 6) (off : Nat) (v : BitVec 64), regRowAt off = none) ∧
    (∃ (s : State) (req : Fin 6) (off : Nat) (r : RegRow) (v : BitVec 64), regRowAt (off / 4 * 4) = some r ∧ reaches req (off / 4 * 4) = true ∧ s.islandRuns (islandOf (off / 4 * 4)) = true ∧ s.on GLB_ACC_ERR_VALID = false) ∧
    (∃ (s : State) (req : Fin 6) (off : Nat) (r : RegRow) (v : BitVec 64), off % 4 = 0 ∧ regRowAt off = some r ∧ reaches req off = true ∧ s.islandRuns (islandOf off) = false ∧ s.on GLB_ACC_ERR_VALID = false) ∧
    (∃ (s : State) (off : Nat) (v : BitVec 64), off % 4 = 0 ∧ reaches 5 off = false) :=
  ⟨⟨up, 1, 0xFFFF0, 7, by decide +kernel⟩,
   ⟨up, 1, DCX_IRQ_MASK + 1, rwOf DCX_IRQ_MASK, 7, by decide +kernel⟩,
   ⟨up.setIsland 2 1, 1, DCX_IRQ_MASK, rwOf DCX_IRQ_MASK, 7, by decide +kernel⟩,
   ⟨up, DCX_IRQ_MASK, 7, by decide +kernel⟩⟩

theorem wit_UnitEnableWrites :
    (∃ (s : State) (req : Fin 6) (u : UnitId) (v : Word), plainUnit u = true ∧ req ≠ 5 ∧ s.islandRuns (islandOf (enableFld u).off) = true ∧ s.ust u = .stopping) ∧
    (∃ (s : State) (req : Fin 6) (u : UnitId) (v : Word), plainUnit u = true ∧ req ≠ 5 ∧ s.islandRuns (islandOf (enableFld u).off) = true ∧ s.ust u = .fault ∧ bit v.toNat 0 = false) ∧
    (∃ (s : State) (req : Fin 6) (n : Fin 2) (v : Word), req ≠ 5 ∧ s.islandRuns 16 = true ∧ s.ust (.net n) = .off ∧ bit v.toNat 0 = true) ∧
    (∃ (s : State) (req : Fin 6) (n : Fin 2) (v : Word), req ≠ 5 ∧ s.islandRuns 16 = true ∧ s.ust (.net n) = .on ∧ bit v.toNat 0 = false) :=
  ⟨⟨up.setUst (.bar 2) .stopping, 1, .bar 2, 1, by decide +kernel⟩,
   ⟨up.setUst (.quad 2) .fault, 1, .quad 2, 0, by decide +kernel⟩,
   ⟨up, 1, 1, 1, by decide +kernel⟩,
   ⟨up.setUst (.net 0) .on, 1, 0, 0, by decide +kernel⟩⟩

theorem wit_UnitStateEvents :
    (∃ (s : State) (u : UnitId), ((plainUnit u = true ∧ (∀ l, u ≠ .slot l)) ∨ (∃ l, u = .lane l)) ∧ s.startReady u = true) ∧
    (∃ (s : State) (u : UnitId), (plainUnit u = true ∨ (∃ l, u = .lane l)) ∧ s.stopReady u = true ∧ s.faultRec u = none ∧ s.pend u = false) ∧
    (∃ (s : State) (l : Fin 52) (r : Fin 16), s.stopReady (.lane l) = true ∧ s.faultRec (.lane l) = some r.val) ∧
    (∃ (s : State) (u : UnitId), ((∃ l, u = .lane l) ∨ (∃ n, u = .serial n)) ∧ s.limitRuns u = true) ∧
    (∃ (s : State) (l : Fin 52) (reason : Fin 16), (reason = 1 ∨ reason = 2) ∧ (s.ust (.lane l) = .starting ∨ s.ust (.lane l) = .on)) ∧
    (∃ (s : State) (u : UnitId) (reason : Fin 16), plainUnit u = true ∧ 1 ≤ reason.val ∧ reason.val ≤ faultReasons u ∧ ((∀ n, u ≠ .net n)) ∧ s.ust u = .stopping) :=
  ⟨⟨up.setUst (.lane 7) .starting, .lane 7, by decide +kernel⟩,
   ⟨up.setUst (.ctx 7) .stopping, .ctx 7, by decide +kernel⟩,
   ⟨(up.setUst (.lane 7) .stopping).recordFault (.lane 7) 2, 7, 2, by decide +kernel⟩,
   ⟨up.setUst (.serial 1) .starting, .serial 1, by decide +kernel⟩,
   ⟨up.setUst (.lane 7) .starting, 7, 2, by decide +kernel⟩,
   ⟨up.setUst (.slot 7) .stopping, .slot 7, 2, by decide +kernel⟩⟩

theorem wit_TalliesAndRetirement : ∃ (s : State) (q : Fin 16), s.retireDue (.quad q) = true ∧ (s.ust (.quad q) = .starting ∨ s.ust (.quad q) = .on ∨ s.ust (.quad q) = .fault) ∧ s.clk ≠ clkRunning ∧ s.clk ≠ clkLocking :=
  ⟨(up.put (tallyFld (.quad 3)).1 60000).setUst (.quad 3) .on, 3, by decide +kernel⟩

theorem wit_Doorbells :
    (∃ (s : State) (page : Fin 16) (r : RingId) (v : BitVec 64), ringOfPage page = some r ∧ r.num < 8 ∧ s.islandRuns 1 = true ∧ v.toNat < 65536 ∧ s.ust (.ring r) = .on ∧ v.toNat < s.ringSize r.num) ∧
    (∃ (s : State) (page : Fin 16) (r : RingId) (v : BitVec 64), ringOfPage page = some r ∧ r.num < 8 ∧ s.islandRuns 1 = true ∧ v.toNat < 65536 ∧ s.ust (.ring r) = .on ∧ s.ringSize r.num ≤ v.toNat) ∧
    (∃ (s : State) (page : Fin 16) (r : RingId) (v : BitVec 64), ringOfPage page = some r ∧ s.islandRuns 1 = true ∧ v.toNat < 65536 ∧ s.ust (.ring r) = .starting) ∧
    (∃ (s : State) (v : BitVec 64), s.islandRuns 1 = true ∧ v.toNat < 65536 ∧ s.ust (.ring .evt) = .on ∧ v.toNat < s.ringSize 8 ∧ (v.toNat + s.ringSize 8 - (s.ring 8).tail) % s.ringSize 8 ≤ (s.ring 8).unread) :=
  ⟨⟨rgS .cmx, 4, .cmx, 7, by decide +kernel⟩,
   ⟨rgS .cmx, 4, .cmx, 16, by decide +kernel⟩,
   ⟨up.setUst (.ring .cmx) .starting, 4, .cmx, 7, by decide +kernel⟩,
   ⟨evtS, 1, by decide +kernel⟩⟩

theorem wit_DescriptorsAndFences :
    (∃ (s : State) (r : RingId) (d : DescBits), r.isH2D = true ∧ s.ust (.ring r) = .on ∧ s.hif.linkUp = true ∧ s.get (HIF_RING_STATUS_INDEX r.num) ≠ (s.ring r.num).tail ∧ (s.ring r.num).stalled = false ∧ (s.ring r.num).fence = none ∧ bit (dfield d 1 1) 7 = s.on (HIF_RING_STATUS_PHASE r.num) ∧ ((s.ring r.num).expSeq = none ∨ (s.ring r.num).expSeq = some (dfield d 2 2)) ∧ descBad r d = none ∧ s.get (HIF_RING_STATUS_INDEX r.num) + 1 < s.ringSize r.num ∧ s.ringSize r.num ≤ 65536 ∧ r.num < s.hif.rings.length) ∧
    (∃ (s : State) (r : RingId) (d : OpenDesc), s.isHead r.num d ∧ d.op = 0 ∧ d.notify = true) ∧
    (∃ (s : State) (r : RingId) (d : OpenDesc), r.isH2D = true ∧ s.isHead r.num d ∧ d.op = 1 ∧ d.notify = true ∧ s.fenceBad r.num d = false ∧ s.fenceHolds (dfield d.bits 4 1) (dfield d.bits 6 2) = true) ∧
    (∃ (s : State) (r : RingId) (d : OpenDesc), r.isH2D = true ∧ s.isHead r.num d ∧ d.op = 1 ∧ s.fenceBad r.num d = false ∧ r.num < s.hif.rings.length ∧ s.fenceHolds (dfield d.bits 4 1) (dfield d.bits 6 2) = false) ∧
    (∃ (s : State) (r : RingId) (d : OpenDesc), r.isH2D = true ∧ s.blockedFence r.num = some d ∧ d.stale = false ∧ d.notify = true ∧ s.desc r.num d.seq = some d ∧ r.num < s.hif.rings.length ∧ s.fenceHolds (dfield d.bits 4 1) (dfield d.bits 6 2) = true) ∧
    (∃ (s : State) (r : RingId) (d : OpenDesc), r.isH2D = true ∧ s.blockedFence r.num = some d ∧ (s.ring r.num).fenceReported = false ∧ s.get HIF_FENCE_TIMEOUT_TIME ≠ 0) :=
  ⟨⟨fetS, .mbxIn, fetD, by decide +kernel⟩,
   ⟨withDesc (rgS (.job 1)) 1 nopD, .job 1, nopD, by decide +kernel⟩,
   ⟨fenS true, .job 1, fenD, by decide +kernel⟩,
   ⟨fenS false, .job 1, fenD, by decide +kernel⟩,
   ⟨(fenB true).putB (HIF_RING_STATUS_FENCE_WAIT 1) true, .job 1, fenD, by decide +kernel⟩,
   ⟨(fenB false).put HIF_FENCE_TIMEOUT_TIME 9, .job 1, fenD, by decide +kernel⟩⟩

theorem wit_EntriesAndInterrupts :
    (∃ (s : State) (e : EvtEntry) (q : List EvtEntry), s.hif.evtQueue = e :: q ∧ s.evtRoom = true) ∧
    (∃ (s : State) (r : RingId), (s.ring r.num).wbDue = true ∧ s.hif.linkUp = true ∧ s.islandRuns 1 = true) ∧
    (∃ (s : State) (cfg : PcieIrqCfg), s.irqCond = true ∧ s.islandRuns 1 = true ∧ s.hif.linkUp = true ∧ cfg.msiEnable = true ∧ cfg.msiMask = false ∧ s.on HIF_MSI_CTRL_ARMED = true) ∧
    (∃ (s : State) (cfg : PcieIrqCfg), s.irqCond = true ∧ s.islandRuns 1 = true ∧ cfg.msiEnable = false ∧ cfg.intxDisable = false) ∧
    (∃ (s : State) (req : Fin 6), req ≠ 5 ∧ s.islandRuns 1 = true) ∧
    (∃ (s : State) (req : Fin 6) (v : Word), req ≠ 5 ∧ s.islandRuns 1 = true ∧ s.hif.coalSince = none ∧ bit v.toNat 16 = false) :=
  ⟨⟨qS, evE, [], by decide +kernel⟩,
   ⟨((rgS .cmx).wbDue 4).put (HIF_RING_WB_LO_ADDR 4) 5, .cmx, by decide +kernel⟩,
   ⟨irqS.putB HIF_MSI_CTRL_ARMED true, ⟨true, false, false⟩, by decide +kernel⟩,
   ⟨irqS, ⟨false, false, false⟩, by decide +kernel⟩,
   ⟨up, 1, by decide +kernel⟩,
   ⟨up, 1, 2000, by decide +kernel⟩⟩

theorem wit_MailboxesAndWindow :
    (∃ (s : State) (d : OpenDesc), s.head 6 = some d ∧ 0x10 ≤ d.op) ∧
    (∃ (s : State) (seq : BitVec 16) (result : Word) (d : OpenDesc), s.desc 6 seq.toNat = some d ∧ d.started = true ∧ d.stale = false ∧ d.notify = true) ∧
    (∃ (s : State) (e : DescBits), s.mbxRoom = true ∧ s.hif.mbxWait = [] ∧ s.get (HIF_RING_STATUS_INDEX 9) + 1 < s.ringSize 9 ∧ s.ringSize 9 ≤ 65536) ∧
    (∃ (s : State) (e : DescBits), s.mbxRoom = false) ∧
    (∃ (s : State) (e : DescBits), s.hif.mbxWait = [e] ∧ s.mbxRoom = true ∧ s.get (HIF_RING_STATUS_INDEX 9) + 1 < s.ringSize 9 ∧ s.ringSize 9 ≤ 65536) ∧
    (∃ (s : State) (addr len : Nat), s.islandRuns 1 = true ∧ addr + len ≤ 2 ^ 28 ∧ s.rangeHeld (s.bar4Addr addr) (min len (s.dramSize - s.bar4Addr addr)) = false) ∧
    (∃ (s : State) (addr : Nat) (data : List Byte), s.islandRuns 1 = true ∧ addr + 64 ≤ 2 ^ 28 ∧ s.on HIF_WIN_CTRL_WR_EN = true ∧ s.on DMC_STATUS_READY = true ∧ data.length = 64 ∧ addr % 64 = 0 ∧ s.bar4Addr addr + 64 ≤ s.dramSize ∧ s.rangeHeld (s.bar4Addr addr) 64 = false) :=
  ⟨⟨withDesc (rgS .mbxIn) 6 mbD, mbD, by decide +kernel⟩,
   ⟨withDesc (rgS .mbxIn) 6 { mbD with started := true, taken := true }, 5, 99, { mbD with started := true, taken := true }, by decide +kernel⟩,
   ⟨outS, dsc [(5,2,700)], by decide +kernel⟩,
   ⟨up, dsc [(5,2,700)], by decide +kernel⟩,
   ⟨setHif outS (fun h => { h with mbxWait := [dsc [(5,2,700)]] }), dsc [(5,2,700)], by decide +kernel⟩,
   ⟨drS, 2 ^ 28 - 3, 3, by decide +kernel⟩,
   ⟨{ drS with poison := [1] }, 64, List.replicate 64 9, by decide +kernel⟩⟩

theorem wit_LinkAndHostResets :
    (∃ (s : State), s.islandRuns 1 = true ∧ s.hif.linkUp = true ∧ s.press.job = none ∧ s.get HIF_LINK_STATUS_DOWN_COUNT < 65535) ∧
    (∃ (s : State) (speed width : Fin 16), s.hif.linkUp = true ∧ speed.val < 8) ∧
    (∃ (s : State) (speed width : Fin 16), s.hif.linkUp = false ∧ speed.val < 8) ∧
    (∃ (s : State), s.perstWarm = false) :=
  ⟨⟨rgS .cmx, by decide +kernel⟩,
   ⟨up, 3, 8, by decide +kernel⟩,
   ⟨setHif up (fun h => { h with linkUp := false }), 3, 8, by decide +kernel⟩,
   ⟨rgS .cmx, by decide +kernel⟩⟩

theorem wit_ShortEdgesAreIgnored : ∃ (s : State) (m : Fin 2) (b r : Bool) (t0 : Nat), s.ust (.master m) = .on ∧ r ≠ s.on (ENC_M_CFG_EDGE m) ∧ (s.minp m).last = some t0 ∧ s.now - t0 < 4 * s.get (ENC_M_TIME_MIN_INT m) :=
  ⟨seS, 1, true, true, 0, by decide +kernel⟩

theorem wit_RingSetupIsLocked :
    (∃ (s : State) (req : Fin 6) (r : RingId) (off : Nat) (v : BitVec 64), req ≠ 5 ∧ s.islandRuns 1 = true ∧ s.ust (.ring r) ≠ .off ∧ (off = HIF_RING_BASE_LO r.num ∨ off = HIF_RING_BASE_HI r.num ∨ off = HIF_RING_WB_LO r.num ∨ off = HIF_RING_WB_HI r.num)) ∧
    (∃ (s : State) (req : Fin 6) (r : RingId) (v : BitVec 64), req ≠ 5 ∧ s.islandRuns 1 = true ∧ s.ust (.ring r) ≠ .off) ∧
    (∃ (s : State) (req : Fin 6) (r : RingId) (v : Word), req ≠ 5 ∧ s.islandRuns 1 = true ∧ s.ust (.ring r) ≠ .off) :=
  ⟨⟨rgO .evt, 1, .evt, HIF_RING_WB_HI 8, 7, by decide +kernel⟩,
   ⟨rgO (.job 2), 1, .job 2, 0x109, by decide +kernel⟩,
   ⟨rgO (.job 2), 1, .job 2, 9, by decide +kernel⟩⟩

theorem wit_LinePeriodFloor :
    (∃ (s : State) (req : Fin 6) (v : Word), req ≠ 5 ∧ s.islandRuns 2 = true ∧ v.toNat < minPeriod s.mode) ∧
    (∃ (s : State) (req : Fin 6) (v : Word), req ≠ 5 ∧ s.islandRuns 2 = true ∧ minPeriod s.mode ≤ v.toNat) ∧
    (∃ (s : State) (req : Fin 6) (v : Word), minPeriod s.mode ≤ s.get PGP_LINE_PERIOD_PERIOD ∧ s.islandRuns 2 = true) :=
  ⟨⟨up.put PGP_LINE_PERIOD_PERIOD 1083725, 1, 1083724, by decide +kernel⟩,
   ⟨up.put PGP_LINE_PERIOD_PERIOD 1083725, 1, 1083725, by decide +kernel⟩,
   ⟨up.put PGP_LINE_PERIOD_PERIOD 1083725, 1, 1083724, by decide +kernel⟩⟩

theorem wit_LineClockRegisters :
    (∃ (s : State) (req : Fin 6) (j : Job), req ≠ 5 ∧ s.islandRuns 2 = true ∧ s.press.job = some j ∧ j.closing = false ∧ s.on PGP_CLK_STATUS_PERIOD_PEND = true ∧ s.get PGP_SCHED_STATUS_JOB_STATE ≠ jsRecovery ∧ s.clk ≠ clkRunning) ∧
    (∃ (s : State) (req : Fin 6), req ≠ 5 ∧ s.islandRuns 2 = true ∧ s.press.job = none) ∧
    (∃ (s : State) (req : Fin 6), req ≠ 5 ∧ s.islandRuns 2 = true ∧ s.clk = clkHalted ∧ s.masterStill = true ∧ s.press.job = none) ∧
    (∃ (s : State) (req : Fin 6) (v : Word), req ≠ 5 ∧ s.islandRuns 2 = true ∧ bits v.toNat 2 0 = 2) ∧
    (∃ (s : State) (req : Fin 6) (v : Word), req ≠ 5 ∧ s.islandRuns 2 = true ∧ bits v.toNat 2 0 = 0 ∧ s.on PGP_CLK_STATUS_IN_DEV = true) :=
  ⟨⟨sJ.putB PGP_CLK_STATUS_PERIOD_PEND true, 0, jA, by decide +kernel⟩,
   ⟨up, 0, by decide +kernel⟩,
   ⟨((up.put PGP_CLK_STATUS_CLK_STATE clkHalted).putB (ENC_M_STATUS_STANDSTILL 0) true).setUst (.master 0) .on, 0, by decide +kernel⟩,
   ⟨up, 0, 2#32, by decide +kernel⟩,
   ⟨up.putB PGP_CLK_STATUS_IN_DEV true, 0, 8#32, by decide +kernel⟩⟩

theorem wit_TicksAdvanceThePressLine :
    (∃ (s : State) (j : Job), s.clk = clkRunning ∧ s.islandRuns 2 = true ∧ s.press.job = some j) ∧
    (∃ (s : State) (j : Job) (r : Recovery), s.clk = clkLocking ∧ s.locked = true ∧ s.press.job = some j ∧ j.recovery = some r ∧ (s.takeAll j ((j.line : Int) + 23)).2 = []) ∧
    (∃ (s : State), s.clk ≠ clkRunning) :=
  ⟨⟨inJob (up.put PGP_CLK_STATUS_CLK_STATE clkRunning) jA, jA, by decide +kernel⟩,
   ⟨{ inJob (up.put PGP_CLK_STATUS_CLK_STATE clkLocking) { jA with recovery := some recA } with press := { up.press with lockErrs := List.replicate 16 5, job := some { jA with recovery := some recA } } }, { jA with recovery := some recA }, recA, by decide +kernel⟩,
   ⟨up, by decide +kernel⟩⟩

theorem wit_JobCommands :
    (∃ (s : State) (k : Fin 4) (d : OpenDesc), s.islandRuns 2 = true ∧ s.press.job = none ∧ s.on LDG_STATUS_READY = true ∧ s.jobHead k = true ∧ s.head k = some d ∧ ((∀ r, r < k.val → s.jobHead r = false)) ∧ s.jobReasons d.bits = []) ∧
    (∃ (s : State) (k : Fin 4) (d : OpenDesc) (j : Job), s.islandRuns 2 = true ∧ s.press.job = some j ∧ j.ring = k ∧ j.jobEndSeq = none ∧ s.jobHead k = true ∧ s.isHead k d) ∧
    (∃ (s : State) (k : Fin 4) (d : OpenDesc) (j : Job), s.press.job = some j ∧ j.ring = k ∧ j.jobEndSeq = none ∧ j.endReason = none ∧ s.jobDesc k 0x11 = some d ∧ pageReasons d.bits j.mode (j.pages.foldl (fun a p => max a p.stop) 0) = []) ∧
    (∃ (s : State) (k : Fin 4) (d : OpenDesc), s.press.job = none ∧ s.jobDesc k 0x11 = some d ∧ s.isHead k d) ∧
    (∃ (s : State) (k : Fin 4) (d : OpenDesc) (j : Job), s.press.job = some j ∧ j.ring = k ∧ j.jobEndSeq = none ∧ s.jobDesc k 0x12 = some d) ∧
    (∃ (s : State) (k : Fin 4) (d : OpenDesc), s.press.job = none ∧ s.jobDesc k 0x12 = some d ∧ s.isHead k d) ∧
    (∃ (s : State) (j : Job), s.press.job = some j ∧ j.closing = true ∧ s.on MOT_WEB_STATUS_STANDSTILL = true ∧ j.pages.all (·.retired) = true ∧ j.jobEndSeq ≠ none ∧ s.par.handover = false) :=
  ⟨⟨sJS.putB LDG_STATUS_READY true, 0, dJ, by decide +kernel⟩,
   ⟨inJob sJS jR, 0, dJ, jR, by decide +kernel⟩,
   ⟨withDesc (inJob (onR ready 0) jR) 0 dP, 0, dP, jR, by decide +kernel⟩,
   ⟨withDesc (onR ready 0) 0 dP, 0, dP, by decide +kernel⟩,
   ⟨withDesc (inJob (onR ready 0) jR) 0 dE, 0, dE, jR, by decide +kernel⟩,
   ⟨withDesc (onR ready 0) 0 dE, 0, dE, by decide +kernel⟩,
   ⟨(inJob (onR ready 0) { jR with closing := true, jobEndSeq := some 4 }).putB MOT_WEB_STATUS_STANDSTILL true, { jR with closing := true, jobEndSeq := some 4 }, by decide +kernel⟩⟩

theorem wit_PrefetchAndLanes :
    (∃ (s : State) (j : Job) (p : PageRec) (r : PageRead) (rs : List PageRead) (n : Nat), s.press.job = some j ∧ j.fetching = some p ∧ p.reads = r :: rs ∧ p.waitRoom = false ∧ r.retried = false) ∧
    (∃ (s : State) (j : Job) (p : PageRec) (r : PageRead) (rs : List PageRead) (bs : List Byte), s.press.job = some j ∧ j.fetching = some p ∧ p.reads = r :: rs ∧ p.waitRoom = false ∧ r.kind = .dir ∧ dirBad j bs = []) ∧
    (∃ (s : State) (j : Job) (p : PageRec) (r : PageRead) (rs : List PageRead) (x : PageStream) (a : Nat), s.press.job = some j ∧ j.fetching = some p ∧ j.pages.find? (fun y => y.seq == p.seq && !y.retired) = some p ∧ p.reads = r :: rs ∧ p.waitRoom = true ∧ r.kind = .stream ∧ p.stream r.plane r.band = some x ∧ x.dram = none ∧ j.place x.len = some a) ∧
    (∃ (s : State) (j : Job) (l : Fin 96) (b : BandState), s.islandRuns 2 = true ∧ s.press.job = some j ∧ j.closing = false ∧ j.passBlank.laneFree l = true ∧ j.passBlank.pickBand (s.get DCX_STAGE_LINES_A) (s.recoveryWaits j.passBlank) = some b) ∧
    (∃ (s : State) (j : Job) (l : Fin 96) (b : BandState), s.press.job = some j ∧ j.bands.find? (fun b => b.lane == some l.val) = some b ∧ ((∀ x ∈ j.bands, x.lane = some l.val → x.plane = b.plane ∧ x.band = b.band)) ∧ s.clk ≠ clkLocking) :=
  ⟨⟨inJob up (jF rdDir false), jF rdDir false, pg rdDir false, rdDir, [], 3, by decide +kernel⟩,
   ⟨inJob up (jF rdDir false), jF rdDir false, pg rdDir false, rdDir, [], dirB, by decide +kernel⟩,
   ⟨inJob up (jF rdStr true), jF rdStr true, pg rdStr true, rdStr, [], (pg rdStr true).streams.headD { plane := 0, band := 0, host := 64, len := 100, crc := 0, dram := none, released := false, bad := false }, 0, by decide +kernel⟩,
   ⟨(inJob up (jL none)).put DCX_STAGE_LINES_A 256, jL none, 1, (jL none).bands.headD (BandState.fresh 0 0 0), by decide +kernel⟩,
   ⟨inJob up (jL (some 1)), jL (some 1), 1, (jL (some 1)).bands.headD (BandState.fresh 0 0 0), by decide +kernel⟩⟩

theorem wit_StartsAndResumes :
    (∃ (s : State) (j : Job), s.press.job = some j ∧ s.runupReady j = true ∧ s.shortTile = none ∧ ((∀ e ∈ s.entries, (s.ctl e.port e.slot).unacked = []))) ∧
    (∃ (s : State) (j : Job) (r : Recovery), s.press.job = some j ∧ j.recovery = some r ∧ s.resumeReady j r = true ∧ s.shortTile = none ∧ j.started = true) ∧
    (∃ (s : State) (j : Job) (r : Recovery), s.press.job = some j ∧ j.recovery = some r ∧ s.clk = clkLocking ∧ s.locked = false ∧ r.tries + 1 < max 1 (s.get PGP_RECOV_CTRL_LOCK_TRIES)) :=
  ⟨⟨sR2, { jR with pages := [], jobEndSeq := some 4 }, by decide +kernel⟩,
   ⟨sRes, jNT, { recA with phase := 3 }, by decide +kernel⟩,
   ⟨(inJob (up.put PGP_CLK_STATUS_CLK_STATE clkLocking) { jR with recovery := some recA }).put PGP_RECOV_CTRL_LOCK_TRIES 3, { jR with recovery := some recA }, recA, by decide +kernel⟩⟩

theorem wit_KeepWet :
    (∃ (s : State) (req : Fin 6) (q : Fin 8) (v : Word), req ≠ 5 ∧ s.islandRuns (3 + q) = true ∧ bit v.toNat 0 = true ∧ s.on (PLN_KEEPWET_CAPPED q) = false) ∧
    (∃ (s : State) (req : Fin 6) (q : Fin 8) (v : Word), req ≠ 5 ∧ s.islandRuns (3 + q) = true ∧ bit v.toNat 0 = false ∧ s.on (PLN_KEEPWET_CAPPED q) = true) ∧
    (∃ (s : State) (q : Fin 8), s.on (PLN_KEEPWET_CAPPED q) = false ∧ ((∀ e ∈ s.planeEntries q, (s.ctl e.port e.slot).spitOff = false))) ∧
    (∃ (s : State) (q : Fin 8) (e : MapEntry), s.on (PLN_KEEPWET_CAPPED q) = false ∧ s.planeEntries q = [e] ∧ (s.ctl e.port e.slot).spitOff = true ∧ s.portUp e.port = true ∧ s.authorised e.port = true ∧ s.passive = false ∧ e.port < 24 ∧ (s.port e.port).outstanding.length < 1024 ∧ s.heads.ports.length = 24) :=
  ⟨⟨ready, 0, 0, 1#32, by decide +kernel⟩,
   ⟨ready.putB (PLN_KEEPWET_CAPPED 0) true, 0, 0, 0#32, by decide +kernel⟩,
   ⟨ready, 0, by decide +kernel⟩,
   ⟨sSp2, 0, { g := 0, port := 0, slot := 0, trim := 0 }, by decide +kernel⟩⟩

theorem wit_CompressionCommands :
    (∃ (s : State) (u : Fin 8) (d : OpenDesc) (bs : List Byte) (x : ReadResult), s.islandRuns 2 = true ∧ s.head 4 = some d ∧ d.op = 0x10 ∧ s.cmx.length = 8 ∧ bit (s.get CMX_UNIT_MASK_MASK) u = true ∧ bit (s.get CMX_UNIT_STATUS_BUSY) u = false ∧ cmxRefusals d.bits s.dramSize = [] ∧ cxSrcDram d.bits = false ∧ cxLoad d.bits = false) ∧
    (∃ (s : State) (u : Fin 8) (d : OpenDesc) (bs : List Byte) (h : FblcHeader) (x : ReadResult), s.islandRuns 2 = true ∧ s.head 4 = some d ∧ d.op = 0x11 ∧ s.cmx.length = 8 ∧ bit (s.get CMX_UNIT_MASK_MASK) u = true ∧ bit (s.get CMX_UNIT_STATUS_BUSY) u = false ∧ cmxRefusals d.bits s.dramSize = [] ∧ cxSrcDram d.bits = false ∧ (parseHeader (bs.take (cxSrcLen d.bits))).toOption = some h ∧ rasterSize h.symw h.width h.lines ≤ cxCap d.bits ∧ cxLoad d.bits = false) ∧
    (∃ (s : State) (u : Fin 8) (j : CmxJob) (d : OpenDesc), s.cmx.length = 8 ∧ s.cmx.getD u none = some j ∧ j.status = stOK ∧ j.fail = none ∧ cxDstDram j.bits = false ∧ cxSave j.bits = false ∧ s.get CMX_UNIT_STATUS_BUSY < 256 ∧ bit (s.get CMX_UNIT_STATUS_BUSY) u = true ∧ s.desc 4 j.seq = some d ∧ d.stale = false ∧ d.notify = true) ∧
    (∃ (s : State) (u : Fin 8) (j : CmxJob) (d : OpenDesc), s.cmx.length = 8 ∧ s.cmx.getD u none = some j ∧ j.status = cmxNO_GAIN ∧ j.fail = none ∧ cxDstDram j.bits = false ∧ s.desc 4 j.seq = some d ∧ d.stale = false) :=
  ⟨⟨cmxS dC, 1, dC, List.replicate 16 5, .ok [], by decide +kernel⟩,
   ⟨cmxS dD, 1, dD, hdr, { symw := 2, width := 64, histReset := true, lines := 1 }, .ok [], by decide +kernel⟩,
   ⟨cmxB (jC stOK), 1, jC stOK, dC, by decide +kernel⟩,
   ⟨cmxB (jC cmxNO_GAIN), 1, jC cmxNO_GAIN, dC, by decide +kernel⟩⟩

theorem wit_PortTraining :
    (∃ (s : State) (p : Fin 24), s.portTraining p = true ∧ s.get (HLK_PORT_STATUS_PHASE p) = 0) ∧
    (∃ (s : State) (p : Fin 24), s.portTraining p = true ∧ s.get (HLK_PORT_STATUS_PHASE p) = 1) ∧
    (∃ (s : State) (p : Fin 24), s.portTraining p = true ∧ s.get (HLK_PORT_STATUS_PHASE p) = 2) ∧
    (∃ (s : State) (p : Fin 24), s.portTraining p = true ∧ s.get (HLK_PORT_STATUS_PHASE p) = 3 ∧ s.heads.ports.length = 24) ∧
    (∃ (s : State) (p : Fin 24) (es : List EchoSet) (xs : Nat → List Nat), s.portTraining p = true ∧ s.get (HLK_PORT_STATUS_PHASE p) = 4 ∧ (s.port p).hubOk = true ∧ ((∀ k : Fin 25, xs k = ((es.find? (fun e => e.slot == k)).map (·.rtTau)).getD [])) ∧ ((∀ k ∈ s.fitted p ++ [24], echoesOk (xs k) = true ∧ lambda16 (xs k) (s.asym p k) < 2 ^ 24)) ∧ ((∀ k ∈ s.fitted p, 608 + lambda16 (xs k) (s.asym p k) ≤ 16 * s.get HLK_FIRE_LATENCY_NS))) ∧
    (∃ (s : State) (p : Fin 24), s.portTraining p = true ∧ s.get (HLK_PORT_STATUS_PHASE p) = 5 ∧ ((∀ k ∈ s.fitted p, (s.ctl p k).declSeen = true))) :=
  ⟨⟨tr 0, 3, by decide +kernel⟩,
   ⟨tr 1, 3, by decide +kernel⟩,
   ⟨tr 2, 3, by decide +kernel⟩,
   ⟨tr 3, 3, by decide +kernel⟩,
   ⟨trH 4, 3, es3, xs3, by decide +kernel⟩,
   ⟨(trH 5).setCtl 3 2 { CtlSlot.reset with declSeen := true }, 3, by decide +kernel⟩⟩

theorem wit_PortLossAndRetirement :
    (∃ (s : State) (p : Fin 24) (l : Fin 2), s.portUp p = true ∧ s.press.job = none ∧ s.heads.ports.length = 24) ∧
    (∃ (s : State) (p : Fin 24), s.ust (.port p) = .on ∧ s.get (HLK_PORT_STATUS_PHASE p) ≠ 0 ∧ s.get (HLK_PORT_STATUS_PHASE p) ≠ 6 ∧ s.get (HLK_PORT_STATUS_RETRAIN_FAILS p) < 2 ∧ s.heads.ports.length = 24) ∧
    (∃ (s : State) (p : Fin 24), s.ust (.port p) = .on ∧ s.get (HLK_PORT_STATUS_PHASE p) ≠ 0 ∧ s.get (HLK_PORT_STATUS_PHASE p) ≠ 6 ∧ 2 ≤ s.get (HLK_PORT_STATUS_RETRAIN_FAILS p) ∧ s.press.job = none) :=
  ⟨⟨upK bL, 3, 1, by decide +kernel⟩,
   ⟨(tr 2).setUst (.port 3) .on, 3, by decide +kernel⟩,
   ⟨((tr 2).setUst (.port 3) .on).put (HLK_PORT_STATUS_RETRAIN_FAILS 3) 2, 3, by decide +kernel⟩⟩

theorem wit_Acknowledgements :
    (∃ (s : State) (p : Fin 24) (lsn : BitVec 12) (slot : Fin 32) (k : Packet) (a b c : Nat) (l : List Nat) (last : Bool), (s.port p).outstanding.find? (fun k => k.lsn == lsn.toNat) = some k ∧ k.body = .line a b c l last ∧ (s.port p).waiting = [] ∧ s.heads.ports.length = 24) ∧
    (∃ (s : State) (p : Fin 24) (lsn : BitVec 12) (slot : Fin 32) (k : Packet) (cs line : Nat) (imm : Bool) (pl : List Byte) (jl : Option Nat), (s.port p).outstanding.find? (fun k => k.lsn == lsn.toNat) = some k ∧ k.body = .ctl opWARM cs imm line pl jl ∧ k.slot < 24 ∧ (s.port p).waiting = [] ∧ (s.ctl p k.slot).heldLines = []) ∧
    (∃ (s : State) (p : Fin 24) (lsn : BitVec 12) (status : Fin 16) (slot : Fin 32), s.portServes p = false) ∧
    (∃ (s : State) (p : Fin 24) (lsn : BitVec 12) (k : Packet), (s.port p).outstanding.find? (fun k => k.lsn == lsn.toNat) = some k ∧ k.sent < 4 ∧ s.portServes p = false ∧ s.heads.ports.length = 24) ∧
    (∃ (s : State) (p : Fin 24) (lsn : BitVec 12) (k : Packet) (a b c : Nat) (l : List Nat) (last : Bool), (s.port p).outstanding.find? (fun k => k.lsn == lsn.toNat) = some k ∧ k.body = .line a b c l last ∧ (s.port p).waiting = [] ∧ s.press.job = none) :=
  ⟨⟨upK bL, 3, 7, 0, pk bL, 100, 0, 3, [1,2], false, by decide +kernel⟩,
   ⟨upK bW, 3, 7, 0, pk bW, 4, 0, true, leBytes 8 77, none, by decide +kernel⟩,
   ⟨upK bL, 3, 7, 0, 0, by decide +kernel⟩,
   ⟨upK bW, 3, 7, pk bW, by decide +kernel⟩,
   ⟨upK bL, 3, 7, pk bL, 100, 0, 3, [1,2], false, by decide +kernel⟩⟩

theorem wit_TileReports :
    (∃ (s : State) (p slot : Fin 24) (h : RepHdr) (a b : BitVec 16) (duty : BitVec 8) (e : MapEntry), ((s.port p).retLsn = none ∨ (s.port p).retLsn = some h.lsn.toNat) ∧ s.entries.find? (fun e => e.port == p.val && e.slot == slot.val) = some e ∧ e.g < 512 ∧ (s.ctl p slot).clampFrom = none ∧ s.on (PLN_THERM_CTRL_AUTO_CLEAR (e.g / 64)) = false) ∧
    (∃ (s : State) (p slot : Fin 24) (h : RepHdr) (a b : BitVec 16) (duty : BitVec 8) (e : MapEntry), ((s.port p).retLsn = none ∨ (s.port p).retLsn = some h.lsn.toNat) ∧ s.entries.find? (fun e => e.port == p.val && e.slot == slot.val) = some e ∧ e.g < 512 ∧ (s.ctl p slot).clampFrom = none ∧ (s.ctl p slot).flags = 0 ∧ s.on (PLN_THERM_CTRL_AUTO_CLEAR (e.g / 64)) = false) ∧
    (∃ (s : State) (p : Fin 24) (slot : Fin 32) (h : RepHdr) (d : DescBits), ((s.port p).retLsn = none ∨ (s.port p).retLsn = some h.lsn.toNat) ∧ slot.val < 24 ∧ declBad d false = none ∧ (s.ctl p slot).decl = none) ∧
    (∃ (s : State) (p : Fin 24) (h : RepHdr) (d : DescBits), ((s.port p).retLsn = none ∨ (s.port p).retLsn = some h.lsn.toNat) ∧ declBad d true = none ∧ s.heads.ports.length = 24 ∧ hubThisPort d = (if s.role = 2 then 1 else 0)) ∧
    (∃ (s : State) (p : Fin 24) (slot : Fin 32) (h : RepHdr) (code count : BitVec 16) (line : BitVec 24) (group : BitVec 8), ((s.port p).retLsn = none ∨ (s.port p).retLsn = some h.lsn.toNat) ∧ code ≠ 2 ∧ code.toNat < 8 ∧ bit (s.ctl p slot).faults code.toNat = false ∧ s.posOf p slot = none) ∧
    (∃ (s : State) (p slot : Fin 24) (g : Nat), s.posOf p slot = some g ∧ s.press.job ≠ none ∧ s.fresh (s.ctl p slot) = false ∧ (s.ctl p slot).stalePosted = false) :=
  ⟨⟨ready.putB (PLN_THERM_CTRL_AUTO_CLEAR 0) false, 0, 0, rh, 1000, 900, 12, e00, by decide +kernel⟩,
   ⟨ready.putB (PLN_THERM_CTRL_AUTO_CLEAR 0) false, 0, 0, rh, 1000, 900, 12, e00, by decide +kernel⟩,
   ⟨ready, 0, 2, rh, dOk, by decide +kernel⟩,
   ⟨ready, 0, rh, dHub, by decide +kernel⟩,
   ⟨ready, 0, 5, rh, 3, 1, 100, 7, by decide +kernel⟩,
   ⟨late0, 0, 0, 0, by decide +kernel⟩⟩

theorem wit_TileCommandsSent :
    (∃ (s : State) (p slot : Fin 24) (g : Nat), s.posOf p slot = some g ∧ (s.ctl p slot).warmCyc = none ∧ (s.ctl p slot).duty ≠ some (s.warmDuty g) ∧ s.slotPresent p slot = true ∧ s.portUp p = true ∧ s.passive = false ∧ (s.port p).outstanding.length < 1024 ∧ s.heads.ports.length = 24) ∧
    (∃ (s : State) (p slot : Fin 24) (g c : Nat), s.posOf p slot = some g ∧ (s.ctl p slot).warmCyc = some c ∧ s.time.cyc < c + 62500) ∧
    (∃ (s : State) (req : Fin 6) (q : Fin 8) (v : Word), req ≠ 5 ∧ s.islandRuns (3 + q) = true) ∧
    (∃ (s : State) (req : Fin 6) (q : Fin 8) (v : Word), req ≠ 5 ∧ s.islandRuns (3 + q) = true) ∧
    (∃ (s : State) (req : Fin 6) (q : Fin 8) (v : Word), req ≠ 5 ∧ s.islandRuns (3 + q) = true ∧ s.planeEntries q = []) ∧
    (∃ (s : State) (req : Fin 6) (q : Fin 8) (v : Word) (e : MapEntry), req ≠ 5 ∧ s.islandRuns (3 + q) = true ∧ s.entryAt (64 * q + bits v.toNat 13 8) = some e ∧ s.portUp e.port = true ∧ (s.port e.port).outstanding.length < 1024 ∧ e.port < s.heads.ports.length) :=
  ⟨⟨up0, 0, 0, 0, by decide +kernel⟩,
   ⟨up0.setCtl 0 0 { CtlSlot.reset with warmCyc := some 0 }, 0, 0, 0, 0, by decide +kernel⟩,
   ⟨up0, 0, 0, 0x12345678#32, by decide +kernel⟩,
   ⟨up0, 0, 0, 0x12345678#32, by decide +kernel⟩,
   ⟨up0, 0, 1, 0x12345678#32, by decide +kernel⟩,
   ⟨up0, 0, 0, 0x12#32, e00, by decide +kernel⟩⟩

theorem wit_TileLoads :
    (∃ (s : State) (p : Fin 24) (slot : Fin 32) (h : CtlHdr) (b : List Byte), s.takesCtl p slot h b (8 + pf b 2 2) ∧ h.imm = true ∧ h.line = 0 ∧ 0 < pf b 2 2 ∧ pf b 0 2 + pf b 2 2 ≤ 4096 ∧ pf b 4 4 = 0) ∧
    (∃ (s : State) (p : Fin 24) (slot : Fin 32) (h : CtlHdr) (b : List Byte), s.takesCtl p slot h b (8 + 12 * pf b 2 2) ∧ h.imm = true ∧ h.line = 0 ∧ 0 < pf b 2 2 ∧ pf b 2 2 ≤ 256 ∧ pf b 0 2 + pf b 2 2 ≤ 4096 ∧ pf b 4 4 = 0) ∧
    (∃ (s : State) (p : Fin 24) (slot : Fin 32) (h : CtlHdr) (b : List Byte), s.takesCtl p slot h b (8 + pf b 2 2) ∧ h.imm = false ∧ 0 < pf b 2 2 ∧ pf b 0 2 + pf b 2 2 ≤ 4096 ∧ pf b 4 4 = 0 ∧ (lineDist h.line.toNat (s.tile p slot).cur = 0 ∨ 2 ^ 23 ≤ lineDist h.line.toNat (s.tile p slot).cur)) :=
  ⟨⟨aut, 0, 3, ch, le [(2,10),(2,4),(4,0),(4,0x04030201)], by decide +kernel⟩,
   ⟨aut, 0, 3, ch, le [(2,10),(2,1),(4,0),(12,0x123456789ABCDEF)], by decide +kernel⟩,
   ⟨aut, 0, 3, cht, le [(2,10),(2,4),(4,0),(4,0x04030201)], by decide +kernel⟩⟩

theorem wit_TileParameters :
    (∃ (s : State) (p : Fin 24) (slot : Fin 32) (h : CtlHdr) (b : List Byte), s.takesCtl p slot h b 16 ∧ h.imm = true ∧ h.line = 0 ∧ (s.tile p slot).held = [] ∧ fireParamsOk b = true) ∧
    (∃ (s : State) (p : Fin 24) (slot : Fin 32) (h : CtlHdr) (b : List Byte), s.takesCtl p slot h b 8 ∧ h.imm = true ∧ h.line = 0 ∧ (s.tile p slot).held = [] ∧ dropTableOk b = true) ∧
    (∃ (s : State) (p : Fin 24) (slot : Fin 32) (h : CtlHdr) (b : List Byte), s.takesCtl p slot h b 8 ∧ h.imm = true ∧ h.line = 0 ∧ pf b 1 7 = 0) ∧
    (∃ (s : State) (p : Fin 24) (slot : Fin 32) (h : CtlHdr) (b : List Byte), s.takesCtl p slot h b 16 ∧ h.imm = true ∧ h.line = 0 ∧ sgn 16 (pf b 8 2) < sgn 16 (pf b 0 2) ∧ sgn 16 (pf b 0 2) < sgn 16 (pf b 2 2) ∧ sgn 16 (pf b 2 2) < sgn 16 (pf b 4 2) ∧ sgn 16 (pf b 4 2) ≤ declTAbs (s.tileDecl p slot) ∧ 32 ≤ sgn 16 (pf b 6 2) ∧ sgn 16 (pf b 6 2) ≤ 640 ∧ pf b 10 6 = 0) ∧
    (∃ (s : State) (p : Fin 24) (slot : Fin 32) (h : CtlHdr) (b : List Byte), s.takesCtl p slot h b 8 ∧ h.imm = true ∧ h.line = 0 ∧ (s.tile p slot).held = [] ∧ pf b 4 4 = 0) ∧
    (∃ (s : State) (p : Fin 24) (slot : Fin 32) (h : CtlHdr) (b : List Byte), s.takesCtl p slot h b 8 ∧ h.imm = true ∧ h.line = 0 ∧ (s.tile p slot).held = [] ∧ pf b 0 2 / 512 % 64 = 0 ∧ pf b 2 6 = 0) :=
  ⟨⟨aut, 0, 3, ch, le [(2,100),(2,200),(2,500),(2,4096),(2,200),(6,4)], by decide +kernel⟩,
   ⟨aut, 0, 3, ch, le [(1,0),(1,1),(1,2),(1,3),(4,0)], by decide +kernel⟩,
   ⟨aut, 0, 3, ch, le [(8,77)], by decide +kernel⟩,
   ⟨(aut.setTile 0 3 { Tile.reset with decl := some (dsc [(16,2,1000)]) }), 0, 3, ch, le [(2,100),(2,200),(2,300),(2,40),(2,50),(6,0)], by decide +kernel⟩,
   ⟨aut, 0, 3, ch, le [(4,12345),(4,0)], by decide +kernel⟩,
   ⟨aut, 0, 3, ch, le [(8,0x8011)], by decide +kernel⟩⟩

theorem wit_TileActions :
    (∃ (s : State) (p : Fin 24) (slot : Fin 32) (h : CtlHdr) (b : List Byte), s.takesCtl p slot h b 8 ∧ h.imm = true ∧ h.line = 0 ∧ (s.tile p slot).idle s.time.cyc = true ∧ pf b 0 4 % 16 = 0 ∧ pf b 4 4 % 16 = 0 ∧ pf b 4 4 ≠ 0 ∧ pf b 0 4 + pf b 4 4 ≤ 65536) ∧
    (∃ (s : State) (p : Fin 24) (slot : Fin 32) (h : CtlHdr) (b : List Byte), s.takesCtl p slot h b 8 ∧ h.imm = true ∧ h.line = 0 ∧ (s.tile p slot).held = [] ∧ (s.tile p slot).sweeping s.time.cyc = false ∧ pf b 0 1 = 1 ∧ 1 ≤ pf b 1 1 ∧ pf b 1 1 ≤ 3 ∧ 1 ≤ pf b 2 2 ∧ pf b 2 2 ≤ 5000 ∧ pf b 4 4 = 0) ∧
    (∃ (s : State) (p : Fin 24) (slot : Fin 32) (h : CtlHdr), s.takesCtl p slot h [] 0) ∧
    (∃ (s : State) (p : Fin 24) (slot : Fin 32) (h : CtlHdr), s.takesCtl p slot h [] 0) ∧
    (∃ (s : State) (p : Fin 24) (slot : Fin 32) (h : CtlHdr), s.takesCtl p slot h [] 0 ∧ h.imm = true ∧ h.line = 0) ∧
    (∃ (s : State) (p : Fin 24) (slot : Fin 32) (h : CtlHdr) (b : List Byte), s.takesCtl p slot h b 8 ∧ h.imm = true ∧ h.line = 0 ∧ pf b 4 4 = 0 ∧ bit (pf b 0 4) 4 = false) ∧
    (∃ (s : State) (p : Fin 24) (slot : Fin 32) (nonce : BitVec 8), slot.val < 24 ∧ (s.tile p slot).present = true) :=
  ⟨⟨autT, 0, 3, ch, le [(4,16),(4,32)], by decide +kernel⟩,
   ⟨aut, 0, 3, ch, le [(1,1),(1,2),(2,100),(4,0)], by decide +kernel⟩,
   ⟨aut.setTile 0 3 { Tile.reset with held := [{ line := 5, codes := [], last := false, rows := none }] }, 0, 3, cht, by decide +kernel⟩,
   ⟨aut.setTile 0 3 { Tile.reset with held := [{ line := 5, codes := [], last := false, rows := none }] }, 0, 3, cht, by decide +kernel⟩,
   ⟨aut, 0, 3, ch, by decide +kernel⟩,
   ⟨aut.setTile 0 3 { Tile.reset with faults := 0x1A }, 0, 3, ch, le [(4,2),(4,0)], by decide +kernel⟩,
   ⟨aut, 0, 3, 9, by decide +kernel⟩⟩

theorem wit_TileLinesAndTicks :
    (∃ (s : State) (p : Fin 24) (slot : Fin 32) (h : LineHdr) (b : List Byte), h.crcOk = true ∧ b.length = 1024 ∧ s.authorised p = true ∧ slot.val < 24 ∧ (s.tile p slot).present = true ∧ (s.tile p slot).sweeping s.time.cyc = false ∧ 1 ≤ lineDist h.line.toNat (s.tile p slot).cur ∧ lineDist h.line.toNat (s.tile p slot).cur ≤ 32 ∧ ((∀ k ∈ (s.tile p slot).held, k.line ≠ h.line.toNat)) ∧ (s.tile p slot).held.length < 96) ∧
    (∃ (s : State) (p : Fin 24) (slot : Fin 32) (h : LineHdr) (b : List Byte), h.crcOk = true ∧ b.length = 1024 ∧ s.authorised p = true ∧ slot.val < 24 ∧ (s.tile p slot).present = true ∧ (s.tile p slot).sweeping s.time.cyc = false ∧ (lineDist h.line.toNat (s.tile p slot).cur = 0 ∨ 32 < lineDist h.line.toNat (s.tile p slot).cur)) ∧
    (∃ (s : State) (p slot : Fin 24) (line : BitVec 24) (phase : BitVec 8), (s.tile p slot).present = true ∧ s.authorised p = true ∧ line.toNat = ((s.tile p slot).cur + 1) % 2 ^ 24 ∧ (s.tile p slot).held = [] ∧ ((s.tile p slot).waiting = true ∨ (s.tile p slot).lastSeen = true)) ∧
    (∃ (s : State) (p slot : Fin 24) (line : BitVec 24) (phase : BitVec 8) (auth : Bool), (s.tile p slot).present = true) ∧
    (∃ (s : State) (p slot : Fin 24), (s.tile p slot).present = true ∧ s.authorised p = false ∧ (s.tile p slot).missed = 0) ∧
    (∃ (s : State) (p slot : Fin 24), (s.tile p slot).present = true ∧ 1 ≤ (s.tile p slot).missed) :=
  ⟨⟨aut, 0, 3, lh 5, List.replicate 1024 0x1B, by decide +kernel⟩,
   ⟨aut, 0, 3, lh 100, List.replicate 1024 0x1B, by decide +kernel⟩,
   ⟨aut, 0, 3, 1, 5, by decide +kernel⟩,
   ⟨aut.setTile 0 3 hotT, 0, 3, 1, 5, true, by decide +kernel⟩,
   ⟨up, 0, 3, by decide +kernel⟩,
   ⟨up.setTile 0 3 { Tile.reset with missed := 1 }, 0, 3, by decide +kernel⟩⟩

theorem wit_TileProtection :
    (∃ (s : State) (p slot : Fin 24) (a b : BitVec 16), (s.tile p slot).present = true ∧ a.toInt < (s.tile p slot).level p slot 2) ∧
    (∃ (s : State) (p slot : Fin 24) (a b : BitVec 16), (s.tile p slot).present = true ∧ (s.tile p slot).level p slot 2 ≤ a.toInt ∧ (s.tile p slot).fault 4 = false) ∧
    (∃ (s : State) (p slot : Fin 24), s.authorised p = false) ∧
    (∃ (s : State) (p slot : Fin 24), (s.tile p slot).present = true) ∧
    (∃ (s : State) (p slot : Fin 24), (s.tile p slot).present = true) ∧
    (∃ (s : State) (p slot : Fin 24) (buffer : Bool), (s.tile p slot).present = true) :=
  ⟨⟨up.setTile 0 3 hotT, 0, 3, 250, 100, by decide +kernel⟩,
   ⟨up.setTile 0 3 hotT, 0, 3, 350, 100, by decide +kernel⟩,
   ⟨up, 0, 3, by decide +kernel⟩,
   ⟨up, 0, 3, by decide +kernel⟩,
   ⟨up.setTile 0 3 { hotT with faults := 6 }, 0, 3, by decide +kernel⟩,
   ⟨up.setTile 0 3 hotT, 0, 3, true, by decide +kernel⟩⟩

theorem wit_LedgerRangeCommands :
    (∃ (s : State) (req : Fin 6) (v : Word), req ≠ 5 ∧ s.islandRuns 0 = true ∧ s.ldg.cmds.length < 64 ∧ 1 ≤ bits v.toNat 7 0 ∧ bits v.toNat 7 0 ≤ 9 ∧ ((∀ c ∈ s.ldg.cmds, 1 ≤ c.op ∧ c.op ≤ 9))) ∧
    (∃ (s : State) (req : Fin 6) (v : Word), req ≠ 5 ∧ s.islandRuns 0 = true ∧ s.ldg.cmds = [] ∧ s.on LDG_STATUS_READY = true ∧ (bits v.toNat 7 0 = 0 ∨ 9 < bits v.toNat 7 0)) ∧
    (∃ (s : State) (c : LdgCmd) (cs : List LdgCmd), s.ldg.cmds = c :: cs ∧ c.op = 1 ∧ c.ready = true ∧ 1 ≤ c.arg ∧ c.nozzle + c.arg ≤ 32768 ∧ ((∀ x ∈ cs, 1 ≤ x.op ∧ x.op ≤ 9))) ∧
    (∃ (s : State) (c : LdgCmd) (cs : List LdgCmd), s.ldg.cmds = c :: cs ∧ c.op = 2 ∧ c.ready = true ∧ 1 ≤ c.arg ∧ c.nozzle + c.arg ≤ 32768 ∧ ((∀ x ∈ cs, 1 ≤ x.op ∧ x.op ≤ 9))) ∧
    (∃ (s : State) (c : LdgCmd) (cs : List LdgCmd), s.ldg.cmds = c :: cs ∧ c.op = 3 ∧ c.ready = true ∧ 1 ≤ c.arg ∧ c.nozzle + c.arg ≤ 32768 ∧ ((∀ x ∈ cs, 1 ≤ x.op ∧ x.op ≤ 9))) ∧
    (∃ (s : State) (c : LdgCmd) (cs : List LdgCmd), s.ldg.cmds = c :: cs ∧ c.op = 4 ∧ c.ready = true ∧ 1 ≤ c.arg ∧ c.nozzle + c.arg ≤ 32768 ∧ ((∀ x ∈ cs, 1 ≤ x.op ∧ x.op ≤ 9))) :=
  ⟨⟨lq ready [lc 9 1 1 1], 0, 0x00020301#32, by decide +kernel⟩,
   ⟨ready.putB LDG_STATUS_READY true, 0, 0x0002030A#32, by decide +kernel⟩,
   ⟨lq (nzS 1) [lc 1 0 10 5, lc 9 1 1 1], lc 1 0 10 5, [lc 9 1 1 1], by decide +kernel⟩,
   ⟨lq (nzS 2) [lc 2 0 10 5], lc 2 0 10 5, [], by decide +kernel⟩,
   ⟨lq (nzS 1) [lc 3 0 10 5], lc 3 0 10 5, [], by decide +kernel⟩,
   ⟨lq (nzS 3) [lc 4 0 10 5], lc 4 0 10 5, [], by decide +kernel⟩⟩

theorem wit_LedgerCommands :
    (∃ (s : State) (c : LdgCmd) (i : Nat), s.ldg.cmds = [c] ∧ c.op = 5 ∧ c.ready = true ∧ c.nozzle < 32768 ∧ s.noz c.tile c.nozzle = nzOK ∧ s.afterPurge c.tile (s.observedLine c.arg) = true ∧ s.suspectOf c.tile c.nozzle = none ∧ s.freeSuspect = some i ∧ 2 ≤ s.suspectK) ∧
    (∃ (s : State) (c : LdgCmd), s.ldg.cmds = [c] ∧ c.op = 5 ∧ c.ready = true ∧ s.noz c.tile c.nozzle ≠ nzOK) ∧
    (∃ (s : State) (c : LdgCmd), s.ldg.cmds = [c] ∧ c.op = 6 ∧ c.ready = true) ∧
    (∃ (s : State) (c : LdgCmd), s.ldg.cmds = [c] ∧ c.op = 7 ∧ c.ready = true ∧ s.sweepOk (c.arg % 256) = true) ∧
    (∃ (s : State) (c : LdgCmd) (d : DescBits), s.ldg.cmds = [c] ∧ c.op = 8 ∧ c.ready = true ∧ s.press.job = none ∧ s.declAt c.tile = some d) ∧
    (∃ (s : State) (c : LdgCmd), s.ldg.cmds = [c] ∧ c.op = 9 ∧ c.ready = true) :=
  ⟨⟨(lq ready [lc 5 0 77 0]).put LDG_SUSPECT_CFG_K 3, lc 5 0 77 0, 0, by decide +kernel⟩,
   ⟨lq (nzS 1) [lc 5 0 10 0], lc 5 0 10 0, by decide +kernel⟩,
   ⟨lq (nzS 1) [lc 6 0 0 1], lc 6 0 0 1, by decide +kernel⟩,
   ⟨lq up0 [lc 7 0 0 1], lc 7 0 0 1, by decide +kernel⟩,
   ⟨(lq (nzS 1) [lc 8 0 0 0]).setCtl 0 0 { CtlSlot.reset with decl := some dOk }, lc 8 0 0 0, dOk, by decide +kernel⟩,
   ⟨lq (ready.setLdg { ready.ldg with trims := [(heatKey 0 5, 3), (heatKey 1 5, 3)] }) [lc 9 0 0 0], lc 9 0 0 0, by decide +kernel⟩⟩

theorem wit_SweepsAndMram :
    (∃ (s : State) (p slot : Fin 24) (w : SweepRun) (x : SweepTile), s.ldg.sweep = some w ∧ w.tiles.find? (fun t => t.port == p.val && t.slot == slot.val) = some x ∧ x.failed = false ∧ 1 ≤ x.naks ∧ x.naks ≤ 4 ∧ s.portUp p = true ∧ s.passive = false ∧ (s.port p).outstanding.length < 1024 ∧ s.heads.ports.length = 24) ∧
    (∃ (s : State) (p slot : Fin 24) (h : RepHdr) (w : SweepRun) (x : SweepTile) (c : Nat), s.ldg.sweep = some w ∧ w.tiles.find? (fun t => t.port == p.val && t.slot == slot.val) = some x ∧ x.got = [] ∧ 3073 ≤ c ∧ c < 4096 ∧ s.heater x.g 0 = 0 ∧ ((s.port p).retLsn = none ∨ (s.port p).retLsn = some h.lsn.toNat)) ∧
    (∃ (s : State) (w : SweepRun), s.ldg.sweep = some w ∧ (w.complete = true ∨ w.start + sweepLimit ≤ s.time.cyc) ∧ s.runState chSWEEP ≠ rsRUNNING) ∧
    (∃ (s : State) (p slot : Fin 24) (g : Nat) (x : MaskChange), s.posOf p slot = some g ∧ s.ldg.changes = [x] ∧ x.g = g ∧ x.sent = false ∧ s.clk = clkRunning) ∧
    (∃ (s : State), s.on LDG_STATUS_IN_WINDOW = true ∧ s.ldg.writeHeld = false ∧ ((∀ a ∈ s.ldg.dirty, a % 8 = 0 ∧ wordRank a ≠ 4))) ∧
    (∃ (s : State), s.on LDG_STATUS_IN_WINDOW = false ∧ s.ldg.dirty ≠ [] ∧ s.ldg.writeHeld = false) ∧
    (∃ (s : State), s.on LDG_STATUS_READY = false) ∧
    (∃ (s : State) (errs : List (Nat × Bool)), s.on LDG_STATUS_READY = true) :=
  ⟨⟨upS false, 0, 0, swR false, swT' false, by decide +kernel⟩,
   ⟨upS false, 0, 0, rh, swR false, swT' false, 4000, by decide +kernel⟩,
   ⟨upS true, swR true, by decide +kernel⟩,
   ⟨(ready.put PGP_CLK_STATUS_CLK_STATE clkRunning).setLdg { ready.ldg with changes := [mc1] }, 0, 0, 0, mc1, by decide +kernel⟩,
   ⟨(ready.putB LDG_STATUS_IN_WINDOW true).setLdg { (nzS 1).ldg with dirty := [nozWord 0 10, nozWord 70 5] }, by decide +kernel⟩,
   ⟨(ready.putB LDG_STATUS_IN_WINDOW false).setLdg { (nzS 1).ldg with dirty := [nozWord 0 10] }, by decide +kernel⟩,
   ⟨ready.putB LDG_STATUS_READY false, by decide +kernel⟩,
   ⟨ready.putB LDG_STATUS_READY true, [], by decide +kernel⟩⟩

theorem wit_CalibrationRuns :
    (∃ (s : State) (req : Fin 6) (c : Fin 7), req ≠ 5 ∧ s.islandRuns 2 = true ∧ s.runState c = rsIDLE) ∧
    (∃ (s : State) (req : Fin 6) (c : Fin 7), req ≠ 5 ∧ s.islandRuns 2 = true ∧ s.runState c = rsRUNNING) ∧
    (∃ (s : State) (c : Fin 7), s.runState c = rsIDLE ∧ s.on (CAL_CH_CFG_SCHED_EN c) = true ∧ (s.chan c).lastEnd ≠ none) ∧
    (∃ (s : State) (req : Fin 6) (c : Fin 7), req ≠ 5 ∧ s.islandRuns 2 = true ∧ s.runState c = rsDUE ∧ s.calCanStart c false = true ∧ s.cal.chans.length = 7) ∧
    (∃ (s : State) (req : Fin 6) (c : Fin 7), req ≠ 5 ∧ s.islandRuns 2 = true ∧ s.runState c ≠ rsDUE) ∧
    (∃ (s : State) (c : Fin 7), s.runState c = rsDUE ∧ s.on (CAL_CH_CFG_AUTO c) = true ∧ s.calCanStart c true = true ∧ s.cal.chans.length = 7) ∧
    (∃ (s : State) (req : Fin 6), req ≠ 5 ∧ s.islandRuns 2 = true ∧ s.runState 3 = rsRUNNING ∧ s.on (CAL_CH_STATUS_AGAIN 3) = false ∧ s.on (CAL_CH_CFG_CONT 3) = false) ∧
    (∃ (s : State) (c : Fin 7), s.runState c = rsRUNNING ∧ c ≠ 0 ∧ s.on (CAL_CH_STATUS_AGAIN c) = false ∧ s.on (CAL_CH_CFG_CONT c) = false) ∧
    (∃ (s : State) (req : Fin 6) (c : Fin 7), req ≠ 5 ∧ s.islandRuns 2 = true ∧ s.runState c = rsRUNNING ∧ s.on (CAL_CH_STATUS_AGAIN c) = false ∧ s.on (CAL_CH_CFG_CONT c) = false) :=
  ⟨⟨chS 2 rsIDLE, 0, 2, by decide +kernel⟩,
   ⟨chS 2 rsRUNNING, 0, 2, by decide +kernel⟩,
   ⟨((chS 2 rsIDLE).putB (CAL_CH_CFG_SCHED_EN 2) true).setChan 2 { CalChan.reset with lastEnd := some 0 }, 2, by decide +kernel⟩,
   ⟨chS 1 rsDUE, 0, 1, by decide +kernel⟩,
   ⟨chS 1 rsIDLE, 0, 1, by decide +kernel⟩,
   ⟨(chS 1 rsDUE).putB (CAL_CH_CFG_AUTO 1) true, 1, by decide +kernel⟩,
   ⟨calOff 3 rsRUNNING, 0, by decide +kernel⟩,
   ⟨calOff 5 rsRUNNING, 5, by decide +kernel⟩,
   ⟨calOff 0 rsRUNNING, 0, 0, by decide +kernel⟩⟩

theorem wit_PrintThrough :
    (∃ (s : State) (req : Fin 6) (v : Word), req ≠ 5 ∧ s.islandRuns 2 = true ∧ s.get PGP_SCHED_STATUS_JOB_STATE = jsIdle ∧ s.on CAL_TRIM_SEL_AUTO_INC = false) ∧
    (∃ (s : State) (req : Fin 6) (v : Word), req ≠ 5 ∧ s.islandRuns 2 = true ∧ s.get PGP_SCHED_STATUS_JOB_STATE ≠ jsIdle ∧ s.on CAL_TRIM_SEL_AUTO_INC = true) ∧
    (∃ (s : State) (b x n : Nat), s.cal.prev = some (b, x) ∧ s.runState chPRINT = rsRUNNING ∧ s.viewedFrom (b + 1) = some n) ∧
    (∃ (s : State) (q : Fin 8) (c : Nat) (p : Probe), s.cal.probes.find? (fun p => p.q == q.val && p.c == c) = some p ∧ s.probeDone p = true) :=
  ⟨⟨ready, 0, 0x12F0#32, by decide +kernel⟩,
   ⟨(ready.put PGP_SCHED_STATUS_JOB_STATE 2).putB CAL_TRIM_SEL_AUTO_INC true, 0, 0x12F0#32, by decide +kernel⟩,
   ⟨fin, 0, 100, 1, by decide +kernel⟩,
   ⟨ready.setCal { ready.cal with probes := [prb] }, 0, 5, prb, by decide +kernel⟩⟩

theorem wit_CameraStreams :
    (∃ (s : State) (port : Fin 6) (vc : Fin 16), s.on (CAM_PORT_CFG_EN port) = true ∧ s.ctxOf port vc = none ∧ s.cam.unassigned.contains (port.val, vc.val) = false) ∧
    (∃ (s : State) (port : Fin 6) (vc : Fin 16) (x : Fin 16) (p : Nat), s.on (CAM_PORT_CFG_EN port) = true ∧ s.ctxOf port vc = some x.val ∧ s.ust (.ctx x) = .on ∧ s.dedicated x = some p ∧ s.openFrame x = none ∧ s.cam.ctxs.length = 16) ∧
    (∃ (s : State) (port : Fin 6) (vc : Fin 16) (x : Nat) (f : Frame), s.on (CAM_PORT_CFG_EN port) = true ∧ s.ctxOf port vc = some x ∧ s.openFrame x = some f ∧ f.cur = none) ∧
    (∃ (s : State) (port : Fin 4) (vc : Fin 16) (dt : Fin 64) (x : Nat) (f : Frame) (px : List (BitVec 16)) (room : Nat), s.on (CAM_PORT_CFG_EN port) = true ∧ s.ctxOf port vc = some x ∧ dt.val = 0x2A + s.get (CAM_CTX_CFG_DT x) ∧ dt.val ≤ 0x2D ∧ s.dedicated x = none ∧ s.openFrame x = some f ∧ f.cur ≠ none) ∧
    (∃ (s : State) (port : Fin 4) (vc : Fin 16) (dt : Fin 64) (ok : Bool) (px : List (BitVec 16)) (room : Nat), s.on (CAM_PORT_CFG_EN port) = true) ∧
    (∃ (s : State) (port : Fin 4) (vc : Fin 16) (dt : Fin 64) (x : Nat) (f : Frame) (px : List (BitVec 16)) (room : Nat), s.on (CAM_PORT_CFG_EN port) = true ∧ s.ctxOf port vc = some x ∧ dt.val = 0x2A + s.get (CAM_CTX_CFG_DT x) ∧ dt.val ≤ 0x2D ∧ s.dedicated x ≠ none ∧ s.openFrame x = some f ∧ f.cur ≠ none ∧ f.overrun = false ∧ room < px.length) :=
  ⟨⟨up.putB (CAM_PORT_CFG_EN 2) true, 2, 3, by decide +kernel⟩,
   ⟨camD, 0, 0, 0, 0, by decide +kernel⟩,
   ⟨camF camS [cfr none [] none none], 0, 0, 0, cfr none [] none none, by decide +kernel⟩,
   ⟨camF camS [cfr (some (cln 1)) [] none none], 0, 0, 0x2B, 0, cfr (some (cln 1)) [] none none, [1,2], 0, by decide +kernel⟩,
   ⟨camS, 0, 0, 0x2B, true, [1,2], 0, by decide +kernel⟩,
   ⟨camF camD [cfr (some (cln 1)) [] none none], 0, 0, 0x2B, 0, cfr (some (cln 1)) [] none none, [1,2], 1, by decide +kernel⟩⟩

theorem wit_LinesAndFrames :
    (∃ (s : State) (port : Fin 6) (vc : Fin 16) (x : Nat) (f : Frame) (l : CamLine) (room : Nat), s.on (CAM_PORT_CFG_EN port) = true ∧ s.ctxOf port vc = some x ∧ s.openFrame x = some f ∧ f.cur = some l ∧ l.crc = false ∧ l.pixels.length = f.p.width ∧ f.lines.length < f.p.lines ∧ f.buf = none ∧ s.press.job = none) ∧
    (∃ (s : State) (port : Fin 6) (vc : Fin 16) (x : Nat) (f : Frame) (l : CamLine) (room : Nat), s.on (CAM_PORT_CFG_EN port) = true ∧ s.ctxOf port vc = some x ∧ s.openFrame x = some f ∧ f.cur = some l ∧ l.pixels.length < f.p.width) ∧
    (∃ (s : State) (port : Fin 6) (vc : Fin 16) (x : Nat) (f : Frame), s.on (CAM_PORT_CFG_EN port) = true ∧ s.ctxOf port vc = some x ∧ s.openFrame x = some f ∧ f.cur = none ∧ f.done ≠ f.lines.length ∧ ((∀ r ∈ s.cam.frames, r.ctx = x → r.no = f.no → r = f))) ∧
    (∃ (s : State) (x : Fin 16) (f : Frame), s.openFrame x = some f ∧ f.cur = none ∧ f.done ≠ f.lines.length ∧ ((∀ r ∈ s.cam.frames, r.ctx = x → r.no = f.no → r = f))) ∧
    (∃ (s : State) (x : Fin 16) (f : Frame), s.cam.frames = [f] ∧ f.ctx = x.val ∧ f.isOpen = true ∧ f.cur = none ∧ f.done = f.lines.length ∧ f.buf = none ∧ f.caps = [] ∧ f.inspect = false ∧ f.late = false ∧ s.windowsOf x = [] ∧ s.ust (.ctx x) = .on) :=
  ⟨⟨camF camS [cfr (some (cln 2)) [] none none], 0, 0, 0, cfr (some (cln 2)) [] none none, cln 2, 0, by decide +kernel⟩,
   ⟨camF camS [cfr (some (cln 1)) [] none none], 0, 0, 0, cfr (some (cln 1)) [] none none, cln 1, 0, by decide +kernel⟩,
   ⟨camF camS [cfr none [cln 2] none none], 0, 0, 0, cfr none [cln 2] none none, by decide +kernel⟩,
   ⟨camF camS [cfr none [cln 2] none none], 0, cfr none [cln 2] none none, by decide +kernel⟩,
   ⟨camF camS [cfr none [] none none], 0, cfr none [] none none, by decide +kernel⟩⟩

theorem wit_PipelinesAndBuffers :
    (∃ (s : State) (f : Frame), f ∈ s.cam.frames ∧ f.buf ≠ none ∧ f.pipe = none ∧ f.isOpen = true ∧ ((∀ g ∈ s.cam.frames, g.pipe ≠ some 2)) ∧ ((∀ g ∈ s.cam.frames, g.buf ≠ none → g.pipe = none → g ≠ f → f.start < g.start)) ∧ ((∀ r ∈ s.cam.frames, r.ctx = f.ctx → r.no = f.no → r = f))) ∧
    (∃ (s : State) (pipe : Fin 4) (f : Frame) (l : CamLine), s.cam.frames = [f] ∧ f.pipe = some pipe.val ∧ f.isOpen = true ∧ f.lines[f.done]? = some l ∧ s.windowsOf f.ctx = [] ∧ s.on (CAL_VIEW_CTRL_USE f.ctx) = false ∧ s.runState chBLACK ≠ rsRUNNING ∧ s.runState chFLAT ≠ rsRUNNING) ∧
    (∃ (s : State) (q : Fin 8) (r : RegLat) (t0 : Int), s.regWindow q = true ∧ s.regValid q = false ∧ s.cam.reg[q.val]? = some r ∧ r.lost = false ∧ r.t = some t0) ∧
    (∃ (s : State) (d : OpenDesc), s.isHead 5 d ∧ d.op = 0x10 ∧ s.camDetails d.bits true = [] ∧ s.cam.ctxs.length = 16) ∧
    (∃ (s : State) (d : OpenDesc), s.isHead 5 d ∧ d.op = 0x11 ∧ s.camDetails d.bits false = [] ∧ s.cam.ctxs.length = 16 ∧ (s.cctx (dfield d.bits 4 1)).caps.length < 4) ∧
    (∃ (s : State) (d : OpenDesc) (det : Nat), s.isHead 5 d ∧ d.op = 0x10 ∧ s.camDetails d.bits true = [det] ∧ d.notify = true) ∧
    (∃ (s : State) (d : OpenDesc) (det : Nat), s.isHead 5 d ∧ d.op = 0x11 ∧ s.camDetails d.bits false = [det] ∧ d.notify = true) ∧
    (∃ (s : State) (req : Fin 6) (v : Word), req ≠ 5 ∧ s.islandRuns 14 = true ∧ ((∀ x : Fin 16, s.ust (.ctx x) = .off))) ∧
    (∃ (s : State) (req : Fin 6) (v : Word) (x : Fin 16), req ≠ 5 ∧ s.islandRuns 14 = true ∧ bit v.toNat 7 = true ∧ bits v.toNat 3 0 = x.val ∧ s.ust (.ctx x) ≠ .off ∧ s.get CAM_PIPE_SEL_CTX0 ≠ x.val) ∧
    (∃ (s : State) (req : Fin 6) (v : Word), req ≠ 5 ∧ s.islandRuns 14 = true ∧ s.get CAM_TAB_SEL_TABLE = 0 ∧ s.get CAM_TAB_SEL_INDEX < 512 ∧ s.on CAM_TAB_SEL_AUTO_INC = false) ∧
    (∃ (s : State) (req : Fin 6) (v : Word) (x : Fin 16), req ≠ 5 ∧ s.islandRuns 14 = true ∧ s.get CAM_TAB_SEL_TABLE = 1 ∧ s.get CAM_TAB_SEL_INDEX < 1156 ∧ s.on CAM_TAB_SEL_AUTO_INC = false ∧ s.get CAM_TAB_SEL_CTX = x.val) :=
  ⟨⟨camF camS [cfr none [] none (some (7,0,64))], cfr none [] none (some (7,0,64)), by decide +kernel⟩,
   ⟨camF camS [cfr none [cln 2] (some 1) none], 1, cfr none [cln 2] (some 1) none, cln 2, by decide +kernel⟩,
   ⟨{ (((camS.putB (CAM_REG_CFG_EN 0) true).put (CAM_REG_CFG_PLANE 0) 2).setCam { camS.cam with reg := camS.cam.reg.set 2 { RegLat.reset with t := some (-2000000000) } }) with pending := [] }, 2, { RegLat.reset with t := some (-2000000000) }, -2000000000, by decide +kernel⟩,
   ⟨withDesc camB 5 (fb 2), fb 2, by decide +kernel⟩,
   ⟨withDesc camB 5 (cp 2), cp 2, by decide +kernel⟩,
   ⟨withDesc camB 5 (fb 0), fb 0, 1, by decide +kernel⟩,
   ⟨withDesc camB 5 (cp 0), cp 0, 1, by decide +kernel⟩,
   ⟨up, 0, 0x8582#32, by decide +kernel⟩,
   ⟨camS.put CAM_PIPE_SEL_CTX0 5, 0, 0x80#32, 0, by decide +kernel⟩,
   ⟨up, 0, 0xFFFFFFFF#32, by decide +kernel⟩,
   ⟨up.put CAM_TAB_SEL_TABLE 1, 0, 0xFFFFFFFF#32, 0, by decide +kernel⟩⟩

theorem wit_LightBars :
    (∃ (s : State) (req : Fin 6) (v : Word), req ≠ 5 ∧ s.islandRuns 15 = true ∧ ((∀ q : Fin 8, s.ust (.bar q) = .off)) ∧ 2000 ≤ bits v.toNat 15 0 ∧ bits v.toNat 15 0 ≤ 32000 ∧ 50 ≤ bits v.toNat 25 16 ∧ bits v.toNat 25 16 ≤ 800 ∧ 2 * bits v.toNat 25 16 + 200 ≤ slotTicks (bits v.toNat 15 0)) ∧
    (∃ (s : State) (req : Fin 6) (v : Word) (q : Fin 8), req ≠ 5 ∧ s.islandRuns 15 = true ∧ s.ust (.bar q) ≠ .off) ∧
    (∃ (s : State) (q : Fin 8) (xa xb : Int), s.ust (.bar q) = .on ∧ s.press.job = none ∧ s.bars.length = 8) ∧
    (∃ (s : State) (q : Fin 8) (xa xb : Int), s.ust (.bar q) = .on ∧ s.bars.length = 8 ∧ s.webV.1 ≤ 0) ∧
    (∃ (s : State) (q : Fin 8) (xa xb : Int), s.ust (.bar q) = .on ∧ s.press.job = none ∧ s.bars.length = 8 ∧ (s.bar q).misses = 0) ∧
    (∃ (s : State) (q : Fin 8), s.ust (.bar q) = .on) ∧
    (∃ (s : State) (q : Fin 8), s.ust (.bar q) = .on) ∧
    (∃ (s : State) (req : Fin 6) (q : Fin 8), req ≠ 5 ∧ s.islandRuns 15 = true ∧ s.bars.length = 8) ∧
    (∃ (s : State) (q r : Fin 8), s.runState chLED = rsRUNNING ∧ s.ledCovered q = true ∧ r ≠ q ∧ s.ledCovered r = true ∧ s.ledDone r = false ∧ s.bars.length = 8) :=
  ⟨⟨up, 0, 0x01900FA0#32, by decide +kernel⟩,
   ⟨barS true, 0, 0x01900FA0#32, 2, by decide +kernel⟩,
   ⟨barS true, 2, -5, 100, by decide +kernel⟩,
   ⟨barS true, 2, -5, 100, by decide +kernel⟩,
   ⟨barS true, 2, -5, 100, by decide +kernel⟩,
   ⟨barS true, 2, by decide +kernel⟩,
   ⟨barS true, 2, by decide +kernel⟩,
   ⟨barS false, 0, 2, by decide +kernel⟩,
   ⟨ledS, 2, 3, by decide +kernel⟩⟩

theorem wit_LightDrivers :
    (∃ (s : State) (q : Fin 8) (f : BitVec 64) (pos : Fin 4) (d : Driver), s.bars.length = 8 ∧ (s.bar q).drivers[pos.val]? = some d ∧ d.dark = false ∧ frameOk f.toNat = true ∧ bits f.toNat 59 56 = 1 ∧ frameTo f.toNat pos = true) ∧
    (∃ (s : State) (q : Fin 8) (f : BitVec 64), s.bars.length = 8 ∧ frameOk f.toNat = false) ∧
    (∃ (s : State) (q : Fin 8) (f : BitVec 64) (p : BitVec 768) (c : BitVec 16) (pos : Fin 4) (d : Driver), s.bars.length = 8 ∧ (s.bar q).drivers[pos.val]? = some d ∧ d.dark = false ∧ frameOk f.toNat = true ∧ bits f.toNat 59 56 = 2 ∧ frameTo f.toNat pos = true) ∧
    (∃ (s : State) (q : Fin 8) (f : BitVec 64) (pos : Fin 4) (d : Driver), s.bars.length = 8 ∧ (s.bar q).drivers[pos.val]? = some d ∧ d.dark = false ∧ frameOk f.toNat = true ∧ bits f.toNat 59 56 = 3 ∧ frameTo f.toNat pos = true) ∧
    (∃ (s : State) (q : Fin 8) (f : BitVec 64), s.bars.length = 8 ∧ frameOk f.toNat = true ∧ bits f.toNat 59 56 = 4 ∧ bit f.toNat 55 = true) ∧
    (∃ (s : State) (q : Fin 8) (f : BitVec 64), s.bars.length = 8 ∧ frameOk f.toNat = true ∧ bits f.toNat 59 56 = 5 ∧ bit f.toNat 55 = true) ∧
    (∃ (s : State) (q : Fin 8) (pos : Fin 4) (d : Driver), s.bars.length = 8 ∧ (s.bar q).drivers[pos.val]? = some d) ∧
    (∃ (s : State) (q : Fin 8) (pos : Fin 4) (d : Driver), s.bars.length = 8 ∧ (s.bar q).drivers[pos.val]? = some d ∧ d.dark = false ∧ d.synced = true ∧ s.blankHigh = true) ∧
    (∃ (s : State) (r : Fin 4) (q : Fin 8) (pos : Fin 4), s.bars.length = 8 ∧ pos.val < (s.bar q).drivers.length ∧ s.blankHigh = false) ∧
    (∃ (s : State) (q : Fin 8) (pos : Fin 4) (d : Driver), s.bars.length = 8 ∧ (s.bar q).drivers[pos.val]? = some d) ∧
    (∃ (s : State) (q : Fin 8) (pos : Fin 4) (d : Driver), s.bars.length = 8 ∧ (s.bar q).drivers[pos.val]? = some d) :=
  ⟨⟨barS false, 2, mkf 1 1 5 100, 1, drv false, by decide +kernel⟩,
   ⟨barS false, 2, mkf 1 1 5 100 ^^^ 1, by decide +kernel⟩,
   ⟨barS false, 2, mkf 2 1 0 0, 0x123456, 0, 1, drv false, by decide +kernel⟩,
   ⟨barS false, 2, mkf 3 1 0x45 0, 1, drv false, by decide +kernel⟩,
   ⟨barS false, 2, mkf 4 4 0 0, by decide +kernel⟩,
   ⟨barS true, 2, mkf 5 4 0 0x5, by decide +kernel⟩,
   ⟨barS true, 2, 1, drv true, by decide +kernel⟩,
   ⟨blk (barS true), 2, 1, drv true, by decide +kernel⟩,
   ⟨barS true |>.putB LED_CTRL_FORCE_BLANK true, 0, 2, 1, by decide +kernel⟩,
   ⟨barS true, 2, 1, drv true, by decide +kernel⟩,
   ⟨barS true, 2, 1, drv true, by decide +kernel⟩⟩

theorem wit_AxisCommands :
    (∃ (s : State) (req : Fin 6) (a : Fin 16), req ≠ 5 ∧ s.islandRuns 15 = true ∧ s.axes.length = 16 ∧ s.axMode a 0 = true ∧ (s.axis a).moves.length < 32 ∧ (s.axis a).traj = none ∧ s.getS (MOT_AX_Q_TARGET_TARGET a) ≠ ((s.axis a).moves.getLast?.map (fun m => m.1)).getD (s.axis a).pos) ∧
    (∃ (s : State) (req : Fin 6) (a : Fin 16), req ≠ 5 ∧ s.islandRuns 15 = true ∧ s.axMode a 0 = false) ∧
    (∃ (s : State) (req : Fin 6) (a : Fin 16), req ≠ 5 ∧ s.islandRuns 15 = true ∧ s.axes.length = 16 ∧ (s.axis a).excess = none) ∧
    (∃ (s : State) (req : Fin 6) (a : Fin 16), req ≠ 5 ∧ s.islandRuns 15 = true ∧ s.axes.length = 16 ∧ (s.axis a).still = true ∧ s.get (MOT_AX_CFG_MODE a) ≠ 2 ∧ s.get (MOT_AX_CFG_ENC_SRC a) ≠ 0) ∧
    (∃ (s : State) (req : Fin 6) (a : Fin 16), req ≠ 5 ∧ s.islandRuns 15 = true ∧ (s.axis a).still = false) ∧
    (∃ (s : State) (req : Fin 6) (a : Fin 16), req ≠ 5 ∧ s.islandRuns 15 = true ∧ s.axes.length = 16 ∧ s.ust (.axis a) = .on ∧ (s.axis a).gears.length < 8) ∧
    (∃ (s : State) (req : Fin 6) (a : Fin 16) (v : Word), req ≠ 5 ∧ s.islandRuns 15 = true) ∧
    (∃ (s : State) (req : Fin 6) (a : Fin 16) (m : Fin 4), req ≠ 5 ∧ s.islandRuns 15 = true ∧ s.ust (.axis a) = .off ∧ m ≠ 3) ∧
    (∃ (s : State) (req : Fin 6) (a : Fin 16), req ≠ 5 ∧ s.islandRuns 15 = true ∧ s.axes.length = 16 ∧ s.axMode a 0 = true) ∧
    (∃ (s : State) (req : Fin 6) (a : Fin 16) (m : Fin 4), req ≠ 5 ∧ s.islandRuns 15 = true ∧ s.axMode a 0 = true ∧ (s.axis a).still = false ∧ (m = 2 ∨ m = 3)) ∧
    (∃ (s : State) (req : Fin 6) (a : Fin 16) (w : AxisLimit) (v : Word), req ≠ 5 ∧ s.islandRuns 15 = true) :=
  ⟨⟨axS 0 Axis.reset, 0, 3, by decide +kernel⟩,
   ⟨axS 1 Axis.reset, 0, 3, by decide +kernel⟩,
   ⟨axS 0 axM, 0, 3, by decide +kernel⟩,
   ⟨(axS 0 Axis.reset).put (MOT_AX_CFG_ENC_SRC 3) 2 |>.put (MOT_AX_SETPOS_POS 3) 0xFFFFFF00, 0, 3, by decide +kernel⟩,
   ⟨axS 0 axM, 0, 3, by decide +kernel⟩,
   ⟨axS 0 axM, 0, 3, by decide +kernel⟩,
   ⟨axS 1 axM, 0, 3, 0xFFFFFF00#32, by decide +kernel⟩,
   ⟨up, 0, 3, 2, by decide +kernel⟩,
   ⟨axS 0 { axM with moves := [(1,2)] }, 0, 3, by decide +kernel⟩,
   ⟨axS 0 axM, 0, 3, 2, by decide +kernel⟩,
   ⟨axS 1 { axM with traj := some axT }, 0, 3, .vmax, 0xFFFFFF00#32, by decide +kernel⟩⟩

theorem wit_AxisMotion :
    (∃ (s : State) (a : Fin 16) (tr : Traj), s.axes.length = 16 ∧ ((∀ b : Fin 16, b ≠ a → s.driven b = false)) ∧ s.axMode a 1 = true ∧ s.get (MOT_AX_CFG_ENC_SRC a) = 0 ∧ s.limActive a true = false ∧ (s.axis a).replan = .no ∧ (s.axis a).traj = some tr ∧ (s.axis a).phA.longs < 15 ∧ (s.axis a).phB.longs < 15 ∧ s.ust .web = .off) ∧
    (∃ (s : State) (a : Fin 16) (m : Int × Nat), s.axes.length = 16 ∧ ((∀ b : Fin 16, b ≠ a → s.driven b = false)) ∧ s.axMode a 0 = true ∧ s.get (MOT_AX_CFG_ENC_SRC a) = 0 ∧ s.limActive a true = false ∧ s.limActive a false = false ∧ (s.axis a).traj = none ∧ (s.axis a).moves = [m] ∧ (s.axis a).phA.longs < 15 ∧ (s.axis a).phB.longs < 15 ∧ s.ust .web = .off) ∧
    (∃ (s : State) (a : Fin 16), s.axes.length = 16 ∧ ((∀ b : Fin 16, b ≠ a → s.driven b = false)) ∧ s.axMode a 2 = true ∧ s.get (MOT_AX_CFG_ENC_SRC a) = 0 ∧ s.limActive a true = false ∧ s.limActive a false = false ∧ (s.axis a).traj = none ∧ (s.axis a).gears = [] ∧ (s.axis a).excess = none ∧ (s.getS (MOT_AX_GEAR_NOW_RATIO a) * (s.masterPos a - (s.axis a).mLast) * 500000).natAbs ≤ s.get (MOT_AX_VMAX_VMAX a) * 2 ^ 32 ∧ (s.axis a).phA.longs < 15 ∧ (s.axis a).phB.longs < 15 ∧ s.ust .web = .off) ∧
    (∃ (s : State) (a : Fin 16) (t0 : Nat), s.axes.length = 16 ∧ s.driven a = true ∧ (s.axis a).phA.chop = .onTime t0 ∧ t0 + s.get (MOT_AX_CHOP_TBLANK a) * 250 ≤ s.now ∧ (s.axis a).phA.longs < 15 ∧ (s.axis a).phB.longs < 16) ∧
    (∃ (s : State) (a : Fin 16) (t0 : Nat), s.axes.length = 16 ∧ s.driven a = true ∧ (s.axis a).phB.chop = .onTime t0 ∧ s.now < t0 + s.get (MOT_AX_CHOP_TBLANK a) * 250 ∧ (s.axis a).phA.longs < 16 ∧ (s.axis a).phB.longs < 16) ∧
    (∃ (s : State) (a : Fin 16) (t0 : Nat), s.axes.length = 16 ∧ s.driven a = true ∧ (s.axis a).phB.chop = .offTime t0) ∧
    (∃ (s : State) (a : Fin 16) (level : Bool), s.axes.length = 16 ∧ s.on (MOT_AX_LIM_POS_EN a) = true ∧ level = s.on (MOT_AX_LIM_POS_POL a) ∧ s.limActive a true = false ∧ s.limActive a false = false ∧ 0 < (s.axis a).mot.v ∧ (s.axis a).excess = none ∧ s.on (MOT_AX_LIM_POS_HARD a) = false) ∧
    (∃ (s : State) (a : Fin 16) (level : Bool), s.axes.length = 16 ∧ s.on (MOT_AX_LIM_NEG_EN a) = true ∧ level = s.on (MOT_AX_LIM_NEG_POL a) ∧ s.limActive a true = false ∧ s.limActive a false = false ∧ (s.axis a).mot.v < 0 ∧ (s.axis a).excess = none ∧ s.on (MOT_AX_LIM_NEG_HARD a) = true) :=
  ⟨⟨axS 1 { axM with traj := some axT }, 3, axT, by decide +kernel⟩,
   ⟨axS 0 { Axis.reset with moves := [(500, 1000)] }, 3, (500, 1000), by decide +kernel⟩,
   ⟨axG, 3, by decide +kernel⟩,
   ⟨later 100000 (axS 1 (axC true)), 3, 0, by decide +kernel⟩,
   ⟨(axS 1 (axC true)).put (MOT_AX_CHOP_TBLANK 3) 5, 3, 0, by decide +kernel⟩,
   ⟨later 1000 (axS 1 (axC false)), 3, 0, by decide +kernel⟩,
   ⟨axL, 3, true, by decide +kernel⟩,
   ⟨axN, 3, true, by decide +kernel⟩⟩

theorem wit_WebAxis :
    (∃ (s : State) (req : Fin 6) (v : Word), req ≠ 5 ∧ s.islandRuns 15 = true ∧ s.get PGP_SCHED_STATUS_JOB_STATE = jsIdle ∧ s.ust .web = .on) ∧
    (∃ (s : State) (req : Fin 6) (v : Word), req ≠ 5 ∧ s.islandRuns 15 = true ∧ s.get PGP_SCHED_STATUS_JOB_STATE ≠ jsIdle) ∧
    (∃ (s : State) (req : Fin 6) (g : Int), req ≠ 5 ∧ s.islandRuns 15 = true ∧ s.web.plan = .firmware g) ∧
    (∃ (s : State) (req : Fin 6), req ≠ 5 ∧ s.islandRuns 15 = true) ∧
    (∃ (s : State) (req : Fin 6), req ≠ 5 ∧ s.islandRuns 15 = true ∧ s.clk ≠ clkHalted ∧ s.web.resetStop = false ∧ s.web.thermStop = false ∧ s.ust .web = .on) ∧
    (∃ (s : State) (req : Fin 6) (v : Word), req ≠ 5 ∧ s.islandRuns 15 = true ∧ v ≠ 0) ∧
    (∃ (s : State) (req : Fin 6) (v : Word), req ≠ 5 ∧ s.islandRuns 15 = true ∧ s.ust .web = .off) ∧
    (∃ (s : State) (req : Fin 6) (v : Word), req ≠ 5 ∧ s.islandRuns 15 = true ∧ s.ust .web = .off) ∧
    (∃ (s : State) (req : Fin 6) (v : Word), req ≠ 5 ∧ s.islandRuns 15 = true ∧ s.ust .web = .off) ∧
    (∃ (s : State) (req : Fin 6), req ≠ 5 ∧ s.islandRuns 15 = true ∧ s.ust .web ≠ .off) ∧
    (∃ (s : State) (xb : Int), s.web.plan = .park xb ∧ s.press.job = none ∧ s.journals = false ∧ s.par.handover = false ∧ 4 * (s.webXAt s.now - xb).natAbs ≤ 65536 * s.get PGP_RECOV_MARGIN_LINES) ∧
    (∃ (s : State) (xb : Int), s.web.plan = .park xb ∧ s.press.job = none ∧ s.journals = false ∧ s.par.handover = false ∧ 65536 * s.get PGP_RECOV_MARGIN_LINES < 4 * (s.webXAt s.now - xb).natAbs ∧ s.get MOT_WEB_STATUS_PARK_TRIES < 4) ∧
    (∃ (s : State) (xb : Int), s.web.plan = .park xb ∧ s.press.job = none ∧ s.journals = false ∧ s.par.handover = false ∧ 65536 * s.get PGP_RECOV_MARGIN_LINES < 4 * (s.webXAt s.now - xb).natAbs ∧ 4 ≤ s.get MOT_WEB_STATUS_PARK_TRIES) ∧
    (∃ (s : State) (level : Bool), level ≠ s.on MOT_WEB_CFG_RDY_POL) ∧
    (∃ (s : State) (level : Bool), level = s.on MOT_WEB_CFG_RDY_POL ∧ s.on MOT_WEB_STATUS_DRIVE_READY = true ∧ s.ust .web = .on ∧ s.clk ≠ clkRunning ∧ s.clk ≠ clkLocking) :=
  ⟨⟨wbS .idle, 0, 0xFFFFFF00#32, by decide +kernel⟩,
   ⟨(wbS .idle).put PGP_SCHED_STATUS_JOB_STATE 3, 0, 0xFFFFFF00#32, by decide +kernel⟩,
   ⟨wbS (.firmware 5), 0, 5, by decide +kernel⟩,
   ⟨wbS (.firmware 5), 0, by decide +kernel⟩,
   ⟨wbS (.firmware 5), 0, by decide +kernel⟩,
   ⟨wbS .idle, 0, 0x12345#32, by decide +kernel⟩,
   ⟨up, 0, 0x12345#32, by decide +kernel⟩,
   ⟨up, 0, 0x12345#32, by decide +kernel⟩,
   ⟨up, 0, 0x12345#32, by decide +kernel⟩,
   ⟨wbS .idle, 0, by decide +kernel⟩,
   ⟨wbS (.park 0), 0, by decide +kernel⟩,
   ⟨wbS (.park 10000000000), 10000000000, by decide +kernel⟩,
   ⟨(wbS (.park 10000000000)).put MOT_WEB_STATUS_PARK_TRIES 4, 10000000000, by decide +kernel⟩,
   ⟨wbS .idle, true, by decide +kernel⟩,
   ⟨(wbS .idle).putB MOT_WEB_STATUS_DRIVE_READY true, false, by decide +kernel⟩⟩

theorem wit_PositionFeedback :
    (∃ (s : State) (m : Fin 2) (b r : Bool), s.ust (.master m) = .on ∧ r ≠ s.on (ENC_M_CFG_EDGE m) ∧ s.enc.masters.length = 2 ∧ (s.minp m).last = none ∧ s.on (ENC_M_STATUS_STANDSTILL m) = true ∧ s.on (ENC_M_STATUS_LOCKED m) = false ∧ m.val ≠ s.masterSel ∧ s.on ENC_XCHK_EN = false) ∧
    (∃ (s : State) (m : Fin 2) (b r : Bool), s.ust (.master m) = .on ∧ r ≠ s.on (ENC_M_CFG_EDGE m) ∧ s.enc.masters.length = 2 ∧ (s.minp m).last = none ∧ s.on (ENC_M_STATUS_STANDSTILL m) = true ∧ s.on (ENC_M_STATUS_LOCKED m) = false ∧ m.val = s.masterSel ∧ s.press.job = none) ∧
    (∃ (s : State) (m : Fin 2) (b r : Bool) (t0 : Nat), s.ust (.master m) = .on ∧ r ≠ s.on (ENC_M_CFG_EDGE m) ∧ (s.minp m).last = some t0 ∧ s.now - t0 < 4 * s.get (ENC_M_TIME_MIN_INT m) ∧ s.get (ENC_M_TALLY_COUNT m) + 1 < s.get (ENC_M_TALLY_CFG_LIMIT m)) ∧
    (∃ (s : State) (m : Fin 2) (b r : Bool), (s.ust (.master m) ≠ .on ∨ r = s.on (ENC_M_CFG_EDGE m))) ∧
    (∃ (s : State) (q : Fin 16) (a b : Bool), s.ust (.quad q) = .on ∧ s.enc.quads.length = 16 ∧ a ≠ (s.qinp q).a ∧ b = (s.qinp q).b) ∧
    (∃ (s : State) (q : Fin 16) (a b : Bool), s.ust (.quad q) = .on ∧ s.enc.quads.length = 16 ∧ a ≠ (s.qinp q).a ∧ b ≠ (s.qinp q).b ∧ s.on (ENC_Q_STATUS_ILLEGAL q) = false ∧ s.get (ENC_Q_TALLY_COUNT q) + 1 < s.get (ENC_Q_TALLY_CFG_LIMIT q)) ∧
    (∃ (s : State) (n : Fin 4), s.serialReads n = true ∧ s.enc.serials.length = 4) ∧
    (∃ (s : State) (n : Fin 4) (w : BitVec 64) (at0 : Nat), s.serialReads n = true ∧ s.enc.serials.length = 4 ∧ (s.sinp n).reading = some at0 ∧ s.get (ENC_S_CFG_CRC_LEN n) = 0 ∧ s.on (ENC_S_CFG_ERR_EN n) = false ∧ (s.sinp n).pos = none) ∧
    (∃ (s : State) (n : Fin 4) (w : BitVec 64) (at0 p0 : Nat), s.serialReads n = true ∧ s.enc.serials.length = 4 ∧ (s.sinp n).reading = some at0 ∧ s.get (ENC_S_CFG_CRC_LEN n) = 0 ∧ s.on (ENC_S_CFG_ERR_EN n) = false ∧ (s.sinp n).pos = some p0) ∧
    (∃ (s : State) (n : Fin 4) (w : BitVec 64) (at0 : Nat), s.serialReads n = true ∧ s.enc.serials.length = 4 ∧ (s.sinp n).reading = some at0 ∧ s.get (ENC_S_TALLY_COUNT n) + 1 < s.get (ENC_S_TALLY_CFG_LIMIT n)) ∧
    (∃ (s : State) (q : Fin 16), s.ust (.quad q) = .on ∧ s.enc.quads.length = 16) ∧
    (∃ (s : State) (m : Fin 2), s.ust (.master m) = .on ∧ s.enc.masters.length = 2) :=
  ⟨⟨mS, 1, true, false, by decide +kernel⟩,
   ⟨((mS.put ENC_MASTER_SEL_SEL 1).selWritten).put PGP_WEB_SCALE_SCALE 1000, 1, true, false, by decide +kernel⟩,
   ⟨later 10 ((mS.setMinp 1 { MasterIn.reset with last := some 0 }).put (ENC_M_TIME_MIN_INT 1) 500 |>.put (ENC_M_TALLY_CFG_LIMIT 1) 5), 1, true, false, 0, by decide +kernel⟩,
   ⟨mS, 1, true, true, by decide +kernel⟩,
   ⟨(enS (.quad 3)).put (ENC_Q_COUNT_COUNT 3) 0x7FFFFFFF, 3, true, false, by decide +kernel⟩,
   ⟨(enS (.quad 3)).put (ENC_Q_TALLY_CFG_LIMIT 3) 5, 3, true, true, by decide +kernel⟩,
   ⟨sS CountIn.reset, 2, by decide +kernel⟩,
   ⟨sS { CountIn.reset with reading := some 5 }, 2, 0x12345, 5, by decide +kernel⟩,
   ⟨sS { CountIn.reset with reading := some 5, pos := some 0xFFFF }, 2, 0x12345, 5, 0xFFFF, by decide +kernel⟩,
   ⟨(sS { CountIn.reset with reading := some 5, good := 3 }).put (ENC_S_TALLY_CFG_LIMIT 2) 5, 2, 0, 5, by decide +kernel⟩,
   ⟨enS (.quad 3), 3, by decide +kernel⟩,
   ⟨enS (.master 1), 1, by decide +kernel⟩⟩

theorem wit_LoopsAndPins :
    (∃ (s : State) (l : Fin 32) (i : Nat) (raw : F32), ((∀ k : Fin 32, k ≠ l → s.ust (.slot k) = .off)) ∧ s.ust (.slot l) = .on ∧ s.loopDue l s.lpe.tick = true ∧ s.lpe.slots.length = 32 ∧ s.get (LPE_SRC_IN_SRC l) = 8 ∧ s.get (LPE_SRC_IN_IDX l) = i ∧ raw = s.f32 (LPE_SW_IN_VALUE i) ∧ (s.loopS l).invalid = false ∧ (s.loopS l).supStart = false ∧ s.on (LPE_CFG_HOLD l) = false ∧ s.get (LPE_M_CFG_M_N l) = 0 ∧ s.get (LPE_SRC_OUT_DST l) = 0 ∧ s.loopFinite l raw = true) ∧
    (∃ (s : State) (l : Fin 32), ((∀ k : Fin 32, k ≠ l → s.ust (.slot k) = .off)) ∧ s.ust (.slot l) = .on ∧ s.loopDue l s.lpe.tick = true ∧ s.lpe.slots.length = 32 ∧ s.get (LPE_SRC_IN_SRC l) = 5 ∧ s.regValid (s.get (LPE_SRC_IN_IDX l)) = false ∧ (s.loopS l).invalid = false) ∧
    (∃ (s : State) (req : Fin 6) (l : Fin 32) (v : Word), req ≠ 5 ∧ s.islandRuns 15 = true ∧ s.on (LPE_CFG_HOLD l) = true) ∧
    (∃ (s : State) (req : Fin 6) (l : Fin 32) (v : Word), req ≠ 5 ∧ s.islandRuns 15 = true ∧ s.on (LPE_CFG_HOLD l) = false) ∧
    (∃ (s : State) (req : Fin 6) (l : Fin 32) (v : Word), req ≠ 5 ∧ s.islandRuns 15 = true ∧ s.spDriven l = false) ∧
    (∃ (s : State) (req : Fin 6) (l : Fin 32) (v : Word), req ≠ 5 ∧ s.islandRuns 15 = true ∧ s.spDriven l = true) ∧
    (∃ (s : State) (req : Fin 6) (c : Fin 16) (v : Word), req ≠ 5 ∧ s.islandRuns 0 = true ∧ s.loopNames 5 c = false) ∧
    (∃ (s : State) (req : Fin 6) (c : Fin 16) (v : Word), req ≠ 5 ∧ s.islandRuns 0 = true ∧ s.loopNames 5 c = true) ∧
    (∃ (s : State) (v : Word), (v ^^^ s.rget PIN_IN) &&& s.rget PIN_EDGE_EN ≠ 0) ∧
    (∃ (s : State) (v : Word), (v ^^^ s.rget PIN_IN) &&& s.rget PIN_EDGE_EN = 0) :=
  ⟨⟨lS, 4, 2, 0x41200000#32, by decide +kernel⟩,
   ⟨lS.put (LPE_SRC_IN_SRC 4) 5, 4, by decide +kernel⟩,
   ⟨up.putB (LPE_CFG_HOLD 4) true, 0, 4, 0x12345678#32, by decide +kernel⟩,
   ⟨up, 0, 4, 0x12345678#32, by decide +kernel⟩,
   ⟨up, 0, 4, 0x12345678#32, by decide +kernel⟩,
   ⟨(enS (.slot 4)).put (LPE_SRC_OUT_DST 4) 4 |>.put (LPE_SRC_OUT_IDX 4) 7, 0, 7, 0x12345678#32, by decide +kernel⟩,
   ⟨up, 0, 4, 0x12345678#32, by decide +kernel⟩,
   ⟨(enS (.slot 4)).put (LPE_SRC_OUT_DST 4) 5 |>.put (LPE_SRC_OUT_IDX 4) 7, 0, 7, 0x12345678#32, by decide +kernel⟩,
   ⟨up.rset PIN_EDGE_EN 6, 5, by decide +kernel⟩,
   ⟨up.rset PIN_EDGE_EN 2, 5, by decide +kernel⟩⟩

theorem wit_DramAccesses :
    (∃ (s : State) (addr n : Nat) (errs : List SymErr) (e : EccRead), s.on DMC_STATUS_READY = true ∧ addr < s.dramSize ∧ s.dramHeld addr = false ∧ e = eccDecode (Mem.reads s.dram (addr / 64 * 64) 64) (s.poisoned (addr / 64 * 64)) errs ∧ e.poisoned = false ∧ e.devices = []) ∧
    (∃ (s : State) (addr core : Nat) (errs : List SymErr) (e : EccRead), s.on DMC_STATUS_READY = true ∧ addr < s.dramSize ∧ s.dramHeld addr = false ∧ e = eccDecode (Mem.reads s.dram (addr / 64 * 64) 64) (s.poisoned (addr / 64 * 64)) errs ∧ e.poisoned = true ∧ e.mark = false ∧ s.on DMC_ERR_INFO_VALID = false) ∧
    (∃ (s : State) (addr : Nat) (data : List Byte), s.on DMC_STATUS_READY = true ∧ addr % 64 = 0 ∧ data.length = 64 ∧ addr + 64 ≤ s.dramSize ∧ s.rangeHeld addr 64 = false) ∧
    (∃ (s : State) (addr : Nat) (data : List Byte) (errs : List SymErr), s.on DMC_STATUS_READY = false) ∧
    (∃ (s : State) (a : Nat), s.dmc.wb.find? (fun w => w.1 == a) = some (a, true)) ∧
    (∃ (s : State) (a n : Nat) (c : DramCoord), s.dmc.wb.find? (fun w => w.1 == a) = some (a, false) ∧ c = dramCoord s.dmcCfg a ∧ s.dmc.openRows.has c.bank = false ∧ s.dmc.rh.get c.bank [] = [(c.row, n)] ∧ s.on DMC_RH_CFG_EN = true ∧ s.rhThresh ≤ n + 1) ∧
    (∃ (s : State) (errs : List SymErr) (e : EccRead), s.on DMC_SCRUB_CFG_EN = true ∧ s.on DMC_STATUS_READY = true ∧ s.dramHeld (64 * s.dmc.scrub) = false ∧ e = eccDecode (Mem.reads s.dram (64 * s.dmc.scrub) 64) (s.poisoned (64 * s.dmc.scrub)) errs ∧ e.poisoned = false ∧ e.devices = [] ∧ s.dmc.scrub + 1 < s.dramSize / 64) ∧
    (∃ (s : State) (errs : List SymErr) (e : EccRead), s.on DMC_SCRUB_CFG_EN = true ∧ s.on DMC_STATUS_READY = true ∧ s.dramHeld (64 * s.dmc.scrub) = false ∧ e = eccDecode (Mem.reads s.dram (64 * s.dmc.scrub) 64) (s.poisoned (64 * s.dmc.scrub)) errs ∧ e.poisoned = false ∧ e.devices = [] ∧ s.dramSize / 64 = s.dmc.scrub + 1) ∧
    (∃ (s : State) (rank : Fin 2), s.on DMC_STATUS_INIT_DONE = true ∧ (rank.val = 0 ∨ cfgRanks2 s.dmcCfg = true)) ∧
    (∃ (s : State) (rank : Fin 2), s.on DMC_STATUS_INIT_DONE = true ∧ (rank.val = 0 ∨ cfgRanks2 s.dmcCfg = true) ∧ s.dmc.owed.getD rank 0 + 1 ≤ s.get DMC_REF_CFG_POSTPONE ∧ s.dmc.refs.length = 2) :=
  ⟨⟨dmW, 130, 4, [], er0, by decide +kernel⟩,
   ⟨dmW, 130, 4, bad3, er3, by decide +kernel⟩,
   ⟨{ dmW with poison := [2, 5] }, 128, blk64.map (fun b => b + 1), by decide +kernel⟩,
   ⟨up, 128, blk64, [], by decide +kernel⟩,
   ⟨dmD dmS (fun d => { d with wb := [(64, true)] }), 64, by decide +kernel⟩,
   ⟨(dmD dmS (fun d => { d with wb := [(4096, false)], rh := [(cc.bank, [(cc.row, 4)])] })).put DMC_RH_CFG_THRESH 5 |>.putB DMC_RH_CFG_EN true, 4096, 4, cc, by decide +kernel⟩,
   ⟨(dmW.putB DMC_SCRUB_CFG_EN true), [], erZ, by decide +kernel⟩,
   ⟨dmD (dmW.putB DMC_SCRUB_CFG_EN true) (fun d => { d with scrub := 268435455 }), [], erZ, by decide +kernel⟩,
   ⟨dmD dmS (fun d => { d with owed := [3, 0] }), 0, by decide +kernel⟩,
   ⟨(dmD dmS (fun d => { d with owed := [2, 0] })).put DMC_REF_CFG_POSTPONE 4, 0, by decide +kernel⟩⟩

theorem wit_DramBringUp :
    (∃ (s : State) (req : Fin 6), req ≠ 5 ∧ s.islandRuns 12 = true ∧ s.dmc.initBusy = false ∧ s.on DMC_STATUS_INIT_DONE = false) ∧
    (∃ (s : State) (sup rq : Bool) (dev : Nat), s.dmc.initBusy = true ∧ cfgValid s.dmcCfg = true) ∧
    (∃ (s : State) (fail : Fin 4) (sup rq : Bool) (dev : Nat), s.dmc.initBusy = true ∧ cfgValid s.dmcCfg = true ∧ (fail = 2 ∨ fail = 3)) ∧
    (∃ (s : State) (req : Fin 6), req ≠ 5 ∧ s.islandRuns 12 = true ∧ s.on DMC_STATUS_INIT_DONE = true ∧ s.on DMC_STATUS_READY = false ∧ s.on DMC_STATUS_FILLING = false ∧ s.on DMC_CTRL_ZERO_FILL = false) ∧
    (∃ (s : State) (req : Fin 6), req ≠ 5 ∧ s.islandRuns 12 = true ∧ s.on DMC_STATUS_INIT_DONE = true ∧ s.on DMC_STATUS_READY = false ∧ s.on DMC_STATUS_FILLING = false ∧ s.on DMC_CTRL_ZERO_FILL = true) ∧
    (∃ (s : State) (ms : Nat), s.on DMC_STATUS_FILLING = true) ∧
    (∃ (s : State) (c : Nat), s.on DMC_STATUS_INIT_DONE = true ∧ s.dmc.hot.getD 0 false = false) ∧
    (∃ (s : State) (req : Fin 6), req ≠ 5 ∧ s.islandRuns 12 = true ∧ bit (s.get DMC_TRAIN_CTRL_HOLD) (s.get DMC_SWEEP_CFG_SUBCH) = true ∧ s.on DMC_SWEEP_STATUS_BUSY = false) ∧
    (∃ (s : State) (req : Fin 6), req ≠ 5 ∧ s.islandRuns 12 = true ∧ bit (s.get DMC_TRAIN_CTRL_HOLD) (s.get DMC_SWEEP_CFG_SUBCH) = false) ∧
    (∃ (s : State) (req : Fin 6), req ≠ 5 ∧ s.islandRuns 12 = true ∧ s.on DMC_SWEEP_STATUS_BUSY = true) ∧
    (∃ (s : State) (p : SweepPoint), s.on DMC_SWEEP_STATUS_BUSY = true ∧ s.get DMC_SWEEP_RANGE_START = s.get DMC_SWEEP_RANGE_STOP) ∧
    (∃ (s : State) (req : Fin 6) (v : Word) (key : Nat), req ≠ 5 ∧ s.islandRuns 12 = true ∧ s.dlySel = some key ∧ s.on DMC_DLY_SEL_AUTO_INC = false) ∧
    (∃ (s : State), s.dmc.adopting = true ∧ s.dmc.drift = [none, none]) ∧
    (∃ (s : State) (c : Nat), s.on DMC_CTRL_DRIFT_EN = true ∧ s.get DMC_TRAIN_CTRL_HOLD = 0 ∧ s.on DMC_STATUS_INIT_DONE = true ∧ s.dmc.oscBase = [none, none]) ∧
    (∃ (s : State) (b c : Nat), s.on DMC_CTRL_DRIFT_EN = true ∧ s.get DMC_TRAIN_CTRL_HOLD = 0 ∧ s.on DMC_STATUS_INIT_DONE = true ∧ s.dmc.oscBase = [some b, none] ∧ s.dmc.drift.length = 2) :=
  ⟨⟨up, 0, by decide +kernel⟩,
   ⟨dmD up (fun d => { d with initBusy := true, cfg := some 0 }), true, true, 7, by decide +kernel⟩,
   ⟨dmD up (fun d => { d with initBusy := true, cfg := some 0 }), 2, true, true, 7, by decide +kernel⟩,
   ⟨(up.putB DMC_STATUS_INIT_DONE true).putB DMC_CTRL_ZERO_FILL false, 0, by decide +kernel⟩,
   ⟨(up.putB DMC_STATUS_INIT_DONE true).putB DMC_CTRL_ZERO_FILL true, 0, by decide +kernel⟩,
   ⟨{ dmW.putB DMC_STATUS_FILLING true with poison := [3] }, 12, by decide +kernel⟩,
   ⟨dmS, 3, by decide +kernel⟩,
   ⟨(dmS.put DMC_TRAIN_CTRL_HOLD 1).put DMC_SWEEP_RANGE_START 5, 0, by decide +kernel⟩,
   ⟨dmS, 0, by decide +kernel⟩,
   ⟨dmS.putB DMC_SWEEP_STATUS_BUSY true, 0, by decide +kernel⟩,
   ⟨((dmS.putB DMC_SWEEP_STATUS_BUSY true).put DMC_SWEEP_RANGE_START 5).put DMC_SWEEP_RANGE_STOP 5 |>.put DMC_LANE_MASK_LO_MASK 0xFF, .lanes [0, 3, 0], by decide +kernel⟩,
   ⟨(dmS.put DMC_TRAIN_CTRL_HOLD 1).put DMC_DLY_SEL_LANE 4, 0, 0x00450023#32, 4, by decide +kernel⟩,
   ⟨dmD dmS (fun d => { d with adopting := true, dly := [(3, ⟨5, 9⟩), (7, ⟨5, 5⟩)] }), by decide +kernel⟩,
   ⟨dmS.putB DMC_CTRL_DRIFT_EN true, 77, by decide +kernel⟩,
   ⟨dmD (dmS.putB DMC_CTRL_DRIFT_EN true) (fun d => { d with oscBase := [some 5, none] }), 5, 77, by decide +kernel⟩⟩

theorem wit_PairLease :
    (∃ (s : State) (req : Fin 6), req ≠ 5 ∧ s.islandRuns 13 = true ∧ s.mayClaim = true ∧ s.on PAR_STATUS_MIRROR_UP = false ∧ s.on PAR_CFG_FENCE_EN = false ∧ max s.epoch s.par.epochSeen + 1 < 2 ^ 32) ∧
    (∃ (s : State) (req : Fin 6), req ≠ 5 ∧ s.islandRuns 13 = true ∧ s.mayClaim = true ∧ s.on PAR_STATUS_MIRROR_UP = true ∧ max s.epoch s.par.epochSeen + 1 < 2 ^ 32) ∧
    (∃ (s : State) (req : Fin 6), req ≠ 5 ∧ s.islandRuns 13 = true ∧ s.mayClaim = false) ∧
    (∃ (s : State) (trig : Nat), s.par.claim = some trig ∧ s.on PAR_CFG_FENCE_EN = false) ∧
    (∃ (s : State), s.paired = true ∧ s.get PAR_LEASE_HOLDER = 1 ∧ s.on PAR_STATUS_MIRROR_UP = true) ∧
    (∃ (s : State) (e : Word), s.paired = true ∧ s.get PAR_LEASE_HOLDER ≠ 1) ∧
    (∃ (s : State) (e : Word), s.paired = true ∧ s.get PAR_LEASE_HOLDER ≠ 1 ∧ s.par.claim = none) ∧
    (∃ (s : State) (e : Word), s.paired = true ∧ s.get PAR_LEASE_HOLDER = 1) ∧
    (∃ (s : State) (e : Word), s.paired = true ∧ s.get PAR_LEASE_HOLDER ≠ 1 ∧ s.par.claim ≠ none ∧ (s.epoch < e.toNat ∨ (s.epoch = e.toNat ∧ s.role = 2))) ∧
    (∃ (s : State), s.paired = true ∧ s.get PAR_LEASE_HOLDER ≠ 1 ∧ s.pstate = psSTANDBY ∧ s.par.claim = none ∧ s.on PAR_STATUS_MIRROR_UP = true ∧ max s.epoch s.par.epochSeen + 1 < 2 ^ 32) ∧
    (∃ (s : State), s.paired = true ∧ s.get PAR_LEASE_HOLDER ≠ 1) ∧
    (∃ (s : State), s.on PAR_CFG_AUTO_CLAIM = true ∧ s.mayClaim = true ∧ s.on PAR_STATUS_MIRROR_UP = true ∧ max s.epoch s.par.epochSeen + 1 < 2 ^ 32) :=
  ⟨⟨(prS 0).putB PAR_STATUS_MIRROR_UP false, 1, by decide +kernel⟩,
   ⟨prS 1, 1, by decide +kernel⟩,
   ⟨pq (prS 1) (fun p => { p with expired := false }), 1, by decide +kernel⟩,
   ⟨pq (prS 1) (fun p => { p with claim := some 2 }), 2, by decide +kernel⟩,
   ⟨actS, by decide +kernel⟩,
   ⟨prS 1, 7, by decide +kernel⟩,
   ⟨prS 1, 9, by decide +kernel⟩,
   ⟨actS, 9, by decide +kernel⟩,
   ⟨pq (prS 1) (fun p => { p with claim := some 2 }), 9, by decide +kernel⟩,
   ⟨pq ((prS 1).put PAR_LEASE_HOLDER 2) (fun p => { p with expired := false, epochSeen := 6 }), by decide +kernel⟩,
   ⟨pq ((prS 1).put PAR_LEASE_HOLDER 2) (fun p => { p with expired := false, epochSeen := 6 }), by decide +kernel⟩,
   ⟨(prS 0).putB PAR_CFG_AUTO_CLAIM true, by decide +kernel⟩⟩

theorem wit_PairAuthority :
    (∃ (s : State), s.paired = false ∧ s.mayRaise = true ∧ s.on PAR_STATUS_AUTH = false) ∧
    (∃ (s : State), s.paired = true ∧ s.pstate = psCLAIMED ∧ s.mayRaise = true ∧ s.on PAR_STATUS_AUTH = false ∧ s.par.journal = [] ∧ s.on PAR_STATUS_MIRROR_UP = false) ∧
    (∃ (s : State), s.paired = true ∧ s.pstate = psCLAIMED ∧ s.mayRaise = true ∧ s.on PAR_STATUS_AUTH = false ∧ s.par.journal = [] ∧ s.on PAR_STATUS_MIRROR_UP = true ∧ s.cal.cols = [] ∧ s.ldg.trims = [] ∧ s.press.job = none) ∧
    (∃ (s : State), s.mayRaise = false) ∧
    (∃ (s : State) (level : Bool), (s.role ≠ 2 ∨ s.on PAR_STATUS_AUTH = false)) ∧
    (∃ (s : State), s.role = 2 ∧ s.on PAR_STATUS_AUTH = true ∧ s.pstate = psACTIVE) ∧
    (∃ (s : State), s.paired = true ∧ s.pstate = psCLAIMED ∧ s.on PAR_STATUS_AUTH = false ∧ s.par.splitPosted = false) ∧
    (∃ (s : State) (req : Fin 6), req ≠ 5 ∧ s.islandRuns 13 = true ∧ s.pstate = psACTIVE ∧ s.paired = true ∧ s.press.job = none) ∧
    (∃ (s : State) (req : Fin 6), req ≠ 5 ∧ s.islandRuns 13 = true ∧ s.pstate = psACTIVE ∧ s.paired = true ∧ s.press.job = none) ∧
    (∃ (s : State) (p : Fin 24), s.pstate = psACTIVE ∧ s.paired = true ∧ s.on PAR_CFG_AUTO_YIELD = true ∧ s.ust (.port p) = .retired ∧ bit (s.rget PAR_PEER_HEALTH).toNat (8 + p) = true ∧ s.press.job = none) ∧
    (∃ (s : State), s.pstate = psYIELDING ∧ s.paired = true) ∧
    (∃ (s : State) (k : Fin 8), s.par.takeover = true ∧ s.press.job = none) ∧
    (∃ (s : State) (d : DescBits) (ring line : Nat), s.par.takeover = true ∧ s.press.job = none ∧ s.openJournal = some (d, ring, line)) :=
  ⟨⟨(up.putB PAR_CFG_FIRE_EN true).setPState 0, by decide +kernel⟩,
   ⟨(List.range 9).foldl (fun s k => s.setIsland (k + 2) 1) (prM 2), by decide +kernel⟩,
   ⟨((List.range 9).foldl (fun s k => s.setIsland (k + 2) 1) (prM 2)).putB PAR_STATUS_MIRROR_UP true, by decide +kernel⟩,
   ⟨prS 1, by decide +kernel⟩,
   ⟨prS 3, true, by decide +kernel⟩,
   ⟨(prM 3).putB PAR_STATUS_AUTH true, by decide +kernel⟩,
   ⟨pq ((prS 2).putB PAR_CFG_FENCE_EN true) (fun p => { p with afterExpiry := true }), by decide +kernel⟩,
   ⟨actS, 1, by decide +kernel⟩,
   ⟨actS, 1, by decide +kernel⟩,
   ⟨((actS.putB PAR_CFG_AUTO_YIELD true).setUst (.port 2) .retired).rset PAR_PEER_HEALTH 0x400, 2, by decide +kernel⟩,
   ⟨actS.setPState 4, by decide +kernel⟩,
   ⟨pq actS (fun p => { p with takeover := true }), 4, by decide +kernel⟩,
   ⟨pq actS (fun p => { p with takeover := true, journal := [.job dJ.bits 0 5] }), dJ.bits, 0, 5, by decide +kernel⟩⟩

theorem wit_MirrorAndJournal :
    (∃ (s : State) (lsn : BitVec 12), s.paired = true ∧ s.on PAR_STATUS_MIRROR_UP = true ∧ lsn.toNat = s.par.rxLsn) ∧
    (∃ (s : State) (lsn : BitVec 12) (ok : Bool) (h : Option Word) (e : Option PairNote), s.paired = true ∧ s.on PAR_STATUS_MIRROR_UP = true ∧ (ok = false ∨ lsn.toNat ≠ s.par.rxLsn)) ∧
    (∃ (s : State) (lsn : BitVec 12) (bytes ms : Nat), s.paired = true ∧ s.on PAR_STATUS_MIRROR_UP = true ∧ lsn.toNat = s.par.rxLsn ∧ s.pstate = psUNSYNCED) ∧
    (∃ (s : State) (lsn : BitVec 12), s.paired = true ∧ s.on PAR_STATUS_MIRROR_UP = true ∧ lsn.toNat = s.par.rxLsn ∧ s.pstate = psSTANDBY) ∧
    (∃ (s : State) (d : DescBits) (ring first : Nat), s.paired = true ∧ s.pstate = psSTANDBY) ∧
    (∃ (s : State) (id st fl : Nat), s.paired = true ∧ s.pstate = psSTANDBY) ∧
    (∃ (s : State) (lsn : BitVec 12) (w : Word) (u : List (Nat × MirrorMsg)), s.par.unacked = (lsn.toNat, .health w) :: u ∧ s.par.resync = none) ∧
    (∃ (s : State) (lane : Fin 4), s.on PAR_STATUS_MIRROR_UP = true ∧ s.pstate = psSTANDBY) ∧
    (∃ (s : State), s.paired = true ∧ s.on PAR_STATUS_MIRROR_UP = false ∧ s.pstate ≠ psACTIVE) ∧
    (∃ (s : State), s.paired = true ∧ s.on PAR_STATUS_MIRROR_UP = false ∧ s.pstate = psACTIVE ∧ s.press.job = none) ∧
    (∃ (s : State) (req : Fin 6), req ≠ 5 ∧ s.islandRuns 13 = true ∧ s.paired = true ∧ s.pstate = psACTIVE ∧ s.on PAR_STATUS_MIRROR_UP = true ∧ s.cal.cols = [] ∧ s.ldg.trims = [] ∧ s.press.job = none ∧ s.par.unacked = []) ∧
    (∃ (s : State) (ports : BitVec 24), s.paired = true ∧ s.ready = s.on PAR_HEALTH_READY ∧ s.on PAR_STATUS_MIRROR_UP = true) ∧
    (∃ (s : State) (ok : Bool), s.pstate = psSTANDBY) ∧
    (∃ (s : State) (ok : Bool), s.pstate = psSTANDBY) ∧
    (∃ (s : State) (ok : Bool), s.pstate = psSTANDBY ∧ s.lanes.length = 52) ∧
    (∃ (s : State), s.journals = true) :=
  ⟨⟨pq (prS 1) (fun p => { p with rxLsn := 4095 }), 4095, by decide +kernel⟩,
   ⟨prS 1, 5, true, none, none, by decide +kernel⟩,
   ⟨prS 0, 0, 100, 7, by decide +kernel⟩,
   ⟨prS 1, 0, by decide +kernel⟩,
   ⟨prS 1, dP.bits, 1, 30, by decide +kernel⟩,
   ⟨pq (prS 1) (fun p => { p with journal := [.page dP.bits 1 30, .retire 7 1 0, .page dJ.bits 1 30] }), 100, 1, 0, by decide +kernel⟩,
   ⟨pq (prS 1) (fun p => { p with unacked := [(3, .health 5), (4, .regions)] }), 3, 5, [(4, .regions)], by decide +kernel⟩,
   ⟨prS 1, 2, by decide +kernel⟩,
   ⟨(prS 1).putB PAR_STATUS_MIRROR_UP false, by decide +kernel⟩,
   ⟨(prS 3).putB PAR_STATUS_MIRROR_UP false, by decide +kernel⟩,
   ⟨actS, 0, by decide +kernel⟩,
   ⟨pq (prS 0) (fun p => { p with sramOk := false }), 0xA00001, by decide +kernel⟩,
   ⟨prS 1, false, by decide +kernel⟩,
   ⟨prS 1, false, by decide +kernel⟩,
   ⟨prS 1, false, by decide +kernel⟩,
   ⟨actS, by decide +kernel⟩⟩

theorem wit_NetworkAndTime :
    (∃ (s : State) (p : Fin 2) (up full : Bool), s.on (NET_PORT_STATUS_LINK p) ≠ (up && full)) ∧
    (∃ (s : State) (p : Fin 2) (f : List Byte) (ok : Bool) (a b : BitVec 64), s.netUp p = false) ∧
    (∃ (s : State) (p : Fin 2) (f : List Byte) (ok : Bool) (a b : BitVec 64), s.netUp p = true ∧ (ok = false ∨ 1518 < f.length)) ∧
    (∃ (s : State) (p : Fin 2) (f : List Byte) (a b : BitVec 64), s.netUp p = true ∧ f.length ≤ 1518 ∧ f.take 6 = s.mac) ∧
    (∃ (s : State) (p : Fin 2) (f : List Byte) (a b : BitVec 64), s.netUp p = true ∧ f.length ≤ 1518 ∧ f.take 6 ≠ s.mac ∧ bit (beAt f 0 1) 0 = false ∧ s.on NET_TC_CTRL_EN = false ∧ s.netUp (1 - p) = true ∧ s.egressBytes (1 - p : Fin 2) + f.length ≤ 32768) ∧
    (∃ (s : State) (p : Fin 2) (f : List Byte) (a b : BitVec 64) (rt : Int), s.netUp p = true ∧ f.length ≤ 1518 ∧ f.take 6 ≠ s.mac ∧ bit (beAt f 0 1) 0 = false ∧ s.on NET_TC_CTRL_EN = true ∧ s.netUp (1 - p) = true ∧ s.egressBytes (1 - p : Fin 2) + f.length ≤ 32768 ∧ 24 ≤ f.length ∧ beAt f 12 2 = 0x88F7 ∧ beAt f 14 1 % 16 ≤ 1 ∧ rt = ((b.toNat / 8 * 8 : Nat) : Int) + s.get (NET_PORT_LAT_TX_LAT (1 - p : Fin 2)) - ((a.toNat / 8 * 8 : Nat) - s.get (NET_PORT_LAT_RX_LAT p) : Int) ∧ -(2 ^ 63 : Int) ≤ sgn 64 (beAt f 22 8) + rt * 65536 ∧ sgn 64 (beAt f 22 8) + rt * 65536 < (2 ^ 63 : Int)) ∧
    (∃ (s : State) (p : Fin 2) (f : List Byte), s.netUp p = true ∧ s.egressBytes p + f.length ≤ 32768) ∧
    (∃ (s : State) (req : Fin 6) (d : Fin 2) (hi : Word), req ≠ 5 ∧ s.islandRuns 16 = true ∧ s.on NET_PT_STATUS_ACT_VALID = true ∧ s.domUsable (s.get NET_PT_STATUS_ACTIVE) = true ∧ s.net.ofs.length = 2 ∧ s.net.stamp.length = 2 ∧ s.net.old.length = 2) ∧
    (∃ (s : State) (req : Fin 6) (d : Fin 2), req ≠ 5 ∧ s.islandRuns 16 = true ∧ s.domActive = some d.val ∧ s.domUsable (1 - d.val) = true) ∧
    (∃ (s : State) (req : Fin 6) (d : Fin 2), req ≠ 5 ∧ s.islandRuns 16 = true ∧ s.domActive = some d.val ∧ s.domUsable (1 - d.val) = false) ∧
    (∃ (s : State) (d : Fin 2), s.domActive = some d.val ∧ s.domUsable (1 - d.val) = true ∧ s.net.old.length = 2) ∧
    (∃ (s : State) (req : Fin 6) (hi : Word) (v : Int), req ≠ 5 ∧ s.islandRuns 16 = true ∧ s.get PGP_SCHED_STATUS_JOB_STATE = 0 ∧ v = sgn 64 (hi.toNat * 2 ^ 32 + s.get NET_PT_STEP_LO_STEP)) ∧
    (∃ (s : State) (req : Fin 6) (hi : Word), req ≠ 5 ∧ s.islandRuns 16 = true ∧ s.get PGP_SCHED_STATUS_JOB_STATE ≠ 0) ∧
    (∃ (s : State) (sl rate : Int), sl = s.slewNow ∧ rate = s.getS NET_PT_RATE_RATE ∧ -200000 ≤ rate ∧ rate ≤ 200000) :=
  ⟨⟨up, 1, true, true, by decide +kernel⟩,
   ⟨up, 1, frmA, true, 1, 2, by decide +kernel⟩,
   ⟨ntS, 1, frmA, false, 1, 2, by decide +kernel⟩,
   ⟨ntS, 1, List.replicate 64 0, 1, 2, by decide +kernel⟩,
   ⟨ntS, 1, frmA, 1, 2000, by decide +kernel⟩,
   ⟨ntS.putB NET_TC_CTRL_EN true, 0, frmP, 1000, 2000, 1000, by decide +kernel⟩,
   ⟨ntS, 0, frmA, by decide +kernel⟩,
   ⟨dmA 2, 1, 1, 0xFFFFFFFF, by decide +kernel⟩,
   ⟨dmA 2, 1, 0, by decide +kernel⟩,
   ⟨dmA 1, 1, 0, by decide +kernel⟩,
   ⟨dmA 2, 0, by decide +kernel⟩,
   ⟨(dmA 2).put NET_PT_STEP_LO_STEP 100, 0, 0xFFFFFFFF, -4294967196, by decide +kernel⟩,
   ⟨(dmA 2).put PGP_SCHED_STATUS_JOB_STATE 2, 0, 0xFFFFFFFF, by decide +kernel⟩,
   ⟨dmA 2, (dmA 2).slewNow, 0, by decide +kernel⟩⟩

theorem wit_ResetSources :
    (∃ (s : State) (src : Fin 10) (isl : BitVec 17), 2 ≤ src.val) ∧
    (∃ (s : State) (src : Fin 10), src.val ≠ 8 ∧ src.val ∈ s.rst.asserted ∧ s.rst.asserted.filter (fun x => x != src.val) ≠ []) ∧
    (∃ (s : State) (src : Fin 10), src.val ≠ 8 ∧ s.rst.asserted = [src.val] ∧ s.rst.cover ≠ [] ∧ s.rst.strapHold = false ∧ s.paired = false ∧ s.rst.waitReset = [] ∧ ((∀ k : Fin 17, k.val ∈ s.rst.todo → k.val = 0 ∨ s.on (RST_ISLAND_CLK_GOOD k) = true))) ∧
    (∃ (s : State) (k : Fin 17), s.rst.asserted = [] ∧ s.rst.todo = [k.val] ∧ k.val ≠ 0 ∧ s.on (RST_ISLAND_CLK_GOOD k) = false ∧ s.islandRuns k = false) ∧
    (∃ (s : State) (k : Fin 17) (mhz : BitVec 16), k.val ≠ 0 ∧ s.rst.waitReset = [k.val] ∧ s.rst.asserted ≠ []) ∧
    (∃ (s : State), s.on RST_WDT_CFG_EN = true) ∧
    (∃ (s : State), s.on RST_WDT_CFG_EN = false) ∧
    (∃ (s : State) (req : Fin 6) (v : Word), req ≠ 5 ∧ s.islandRuns 0 = true ∧ v.toNat % 256 = 0x4B) ∧
    (∃ (s : State) (req : Fin 6) (v : Word), req ≠ 5 ∧ s.islandRuns 0 = true ∧ v.toNat % 256 ≠ 0x4B) ∧
    (∃ (s : State) (req : Fin 6) (v : Word), req ≠ 5 ∧ s.islandRuns 0 = true ∧ bits v.toNat 31 24 ≠ 0xA5) ∧
    (∃ (s : State) (req : Fin 6) (v : Word), req ≠ 5 ∧ s.islandRuns 0 = true ∧ bits v.toNat 31 24 = 0xA5 ∧ bits v.toNat 16 2 ≠ 0) ∧
    (∃ (s : State) (req : Fin 6), req ≠ 5 ∧ s.islandRuns 0 = true) :=
  ⟨⟨clkS up, 7, 0xFF00, by decide +kernel⟩,
   ⟨{ rsS with rst := { rsS.rst with asserted := [1, 2] } }, 2, by decide +kernel⟩,
   ⟨clkS ((rsS.setIsland 1 0).setRst { rsS.rst with asserted := [2], todo := (List.range 17).drop 2 }), 2, by decide +kernel⟩,
   ⟨(rsS.setIsland 1 0).setRst { rsS.rst with asserted := [], todo := [12] }, 12, by decide +kernel⟩,
   ⟨(rsS.setIsland 13 2).setRst { rsS.rst with waitReset := [13] }, 13, 200, by decide +kernel⟩,
   ⟨clkS (up.putB RST_WDT_CFG_EN true), by decide +kernel⟩,
   ⟨up, by decide +kernel⟩,
   ⟨up, 1, 0x14B, by decide +kernel⟩,
   ⟨clkS up, 1, 0x4C, by decide +kernel⟩,
   ⟨up, 1, 0xA4FFFFFF, by decide +kernel⟩,
   ⟨clkS up, 1, 0xA5000C06, by decide +kernel⟩,
   ⟨up.put (RST_VBAT_CNT_COUNT 3) 9, 1, by decide +kernel⟩⟩

theorem wit_BootAndOptions :
    (∃ (s : State), s.rst.asserted = [1] ∧ s.on RST_VBAT_CTRL_THERM_LATCH = false ∧ s.rst.vbatGone = false ∧ 0 ∈ s.rst.todo ∧ 12 ∈ s.rst.todo ∧ s.on (RST_ISLAND_CLK_GOOD 12) = false) ∧
    (∃ (s : State) (mode : Fin 4), mode ≠ 0 ∧ s.rst.asserted = [1] ∧ s.on RST_VBAT_CTRL_THERM_LATCH = false ∧ s.rst.vbatGone = false ∧ s.rst.cover ≠ [] ∧ ((∀ k : Fin 17, k.val ∈ s.rst.todo))) ∧
    (∃ (s : State) (b : List Byte), b = Mem.reads s.mram 0x00700000 64 ∧ optFail b = none ∧ (b.getD 5 0).toNat = 0) ∧
    (∃ (s : State) (b : List Byte), b = Mem.reads s.mram 0x00700000 64 ∧ optFail b = none ∧ 0 < (b.getD 5 0).toNat ∧ s.pstate ≠ psACTIVE ∧ s.pstate ≠ psYIELDING ∧ s.islandRuns 2 = true) ∧
    (∃ (s : State) (f : Nat), optFail (Mem.reads s.mram 0x00700000 64) = some f) ∧
    (∃ (s : State) (req : Fin 6) (v : Word), req ≠ 5 ∧ s.islandRuns 0 = true ∧ v.toNat % 256 ≠ 0xC3) ∧
    (∃ (s : State) (req : Fin 6) (v : Word) (b : List Byte) (why : Nat), req ≠ 5 ∧ s.islandRuns 0 = true ∧ v.toNat % 256 = 0xC3 ∧ b = ((List.range 16).map (fun i => leBytes 4 (s.get (NVM_OPT_STAGE_DATA i)))).flatten ∧ why = (if s.on RST_OPT_STATUS_LOCK = true then 1 else if leNat (b.drop 60) ≠ crc32c (b.take 60) then 2 else 3) ∧ (s.on RST_OPT_STATUS_LOCK = true ∨ leNat (b.drop 60) ≠ crc32c (b.take 60) ∨ s.on NVM_STATUS_IN_WINDOW = false)) ∧
    (∃ (s : State) (req : Fin 6) (v : Word) (b : List Byte), req ≠ 5 ∧ s.islandRuns 0 = true ∧ v.toNat % 256 = 0xC3 ∧ b = ((List.range 16).map (fun i => leBytes 4 (s.get (NVM_OPT_STAGE_DATA i)))).flatten ∧ s.on RST_OPT_STATUS_LOCK = false ∧ leNat (b.drop 60) = crc32c (b.take 60) ∧ s.on NVM_STATUS_IN_WINDOW = true) ∧
    (∃ (s : State) (req : Fin 6) (v : Word), req ≠ 5 ∧ s.islandRuns 0 = true) ∧
    (∃ (s : State) (req : Fin 6), req ≠ 5 ∧ s.islandRuns 0 = true) ∧
    (∃ (s : State) (entry : Word), s.islandRuns 13 = true ∧ (s.on RST_OPT_STATUS_BOOT_SRC = true ∨ s.on RST_BOOT_CTRL_GO = true) ∧ s.on RST_BOOT_CTRL_DONE = false) ∧
    (∃ (s : State) (entry : Word) (f : Fin 6), s.islandRuns 13 = true ∧ (s.on RST_OPT_STATUS_BOOT_SRC = true ∨ s.on RST_BOOT_CTRL_GO = true) ∧ s.on RST_BOOT_CTRL_DONE = false ∧ (f = 3 ∨ f = 4) ∧ s.on RST_OPT_STATUS_LOCK = true) :=
  ⟨⟨rsS, by decide +kernel⟩,
   ⟨rsS, 2, by decide +kernel⟩,
   ⟨optS up okBlk, okBlk, by decide +kernel⟩,
   ⟨optS up blkRole, blkRole, by decide +kernel⟩,
   ⟨optS up (okBlk.set 60 9), 4, by decide +kernel⟩,
   ⟨stg, 1, 5, by decide +kernel⟩,
   ⟨stg.putB NVM_STATUS_IN_WINDOW false, 1, 0xC3, optDefaults, 3, by decide +kernel⟩,
   ⟨stg, 1, 0xC3, optDefaults, by decide +kernel⟩,
   ⟨up.put RST_BOOT_ADDR_ADDR 524287, 1, 0xDEADBEEF, by decide +kernel⟩,
   ⟨up, 1, by decide +kernel⟩,
   ⟨bt, 64, by decide +kernel⟩,
   ⟨bt, 64, 4, by decide +kernel⟩⟩

theorem wit_ThermalShutdown :
    (∃ (s : State) (req : Fin 6) (v : Word), req ≠ 5 ∧ s.islandRuns 0 = true ∧ s.on THM_CTRL_LOCK = false ∧ sgn 16 v.toNat < sgn 16 (v.toNat / 65536) ∧ sgn 16 (v.toNat / 65536) < s.thrShut ∧ s.thrShut ≤ 8320 ∧ 64 ≤ s.thrHyst ∧ s.thrHyst ≤ 640) ∧
    (∃ (s : State) (req : Fin 6) (v : Word), req ≠ 5 ∧ s.islandRuns 0 = true ∧ s.on THM_CTRL_LOCK = false ∧ s.thrWarn < s.thrThrottle ∧ s.thrThrottle < sgn 16 v.toNat ∧ sgn 16 v.toNat ≤ 8320 ∧ 64 ≤ sgn 16 (v.toNat / 65536) ∧ sgn 16 (v.toNat / 65536) ≤ 640) ∧
    (∃ (s : State) (req : Fin 6) (v : Word), req ≠ 5 ∧ s.islandRuns 0 = true ∧ s.on THM_CTRL_LOCK = false ∧ (s.thrThrottle ≥ sgn 16 v.toNat ∨ 8320 < sgn 16 v.toNat ∨ sgn 16 (v.toNat / 65536) < 64 ∨ 640 < sgn 16 (v.toNat / 65536))) ∧
    (∃ (s : State) (req : Fin 6) (second : Bool) (v : Word), req ≠ 5 ∧ s.islandRuns 0 = true ∧ s.on THM_CTRL_LOCK = true) ∧
    (∃ (s : State) (die : List (BitVec 16)) (ext hk : List (BitVec 12)), die.length = 24 ∧ ext.length = 32 ∧ hk.length = 32) ∧
    (∃ (s : State) (die : List (BitVec 16)) (ext hk : List (BitVec 12)) (k : Fin 24), die.length = 24 ∧ ext.length = 32 ∧ hk.length = 32 ∧ s.thm.die.length = 24 ∧ ((die.getD k 0).toInt < -3520 ∨ 9600 < (die.getD k 0).toInt) ∧ s.on (THM_DIE_BROKEN k) = false ∧ s.thm.latchHold = false) ∧
    (∃ (s : State) (die : List (BitVec 16)) (ext hk : List (BitVec 12)), die.length = 24 ∧ ext.length = 32 ∧ hk.length = 32 ∧ s.thm.ext.length = 32 ∧ (s.thm.ext.getD 0 (0, 0)).1 = 7 ∧ ((ext.getD 0 0).toNat ≤ 15 ∨ 4080 ≤ (ext.getD 0 0).toNat) ∧ s.on (THM_EXT_BROKEN 0) = false) ∧
    (∃ (s : State) (v : BitVec 16) (ext hk : List (BitVec 12)), ext.length = 32 ∧ hk.length = 32 ∧ s.thm.throt = true ∧ s.thm.die.length = 24 ∧ ((∀ k : Fin 24, (s.dieS k).seen = false)) ∧ s.thrThrottle - s.thrHyst ≤ v.toInt) ∧
    (∃ (s : State) (v : BitVec 16) (ext hk : List (BitVec 12)), ext.length = 32 ∧ hk.length = 32 ∧ s.thm.die.length = 24 ∧ ((∀ k : Fin 24, (s.dieS k).seen = false)) ∧ s.on (THM_DIE_BROKEN 0) = false ∧ s.thm.warn = false ∧ -3520 ≤ v.toInt ∧ v.toInt ≤ 9600 ∧ s.thrWarn ≤ v.toInt ∧ v.toInt < s.thrShut ∧ 0 ≤ s.thrHyst) ∧
    (∃ (s : State) (v : BitVec 16) (ext hk : List (BitVec 12)), ext.length = 32 ∧ hk.length = 32 ∧ s.thm.die.length = 24 ∧ ((∀ k : Fin 24, (s.dieS k).seen = false)) ∧ s.on (THM_DIE_BROKEN 0) = false ∧ s.thm.shut = false ∧ s.thm.latchHold = false ∧ -3520 ≤ v.toInt ∧ v.toInt ≤ 9600 ∧ s.thrShut ≤ v.toInt) ∧
    (∃ (s : State) (die : List (BitVec 16)), ((∀ k : Fin 24, s.on (THM_DIE_FAST k) = false))) ∧
    (∃ (s : State) (die : List (BitVec 16)), die.length = 24 ∧ s.thm.die.length = 24 ∧ s.on (THM_DIE_FAST 0) = true ∧ ((die.getD 0 0).toInt < -3520 ∨ 9600 < (die.getD 0 0).toInt) ∧ s.on (THM_DIE_BROKEN 0) = false) ∧
    (∃ (s : State), s.thm.shut = true) ∧
    (∃ (s : State) (req : Fin 6) (d : Int), req ≠ 5 ∧ s.islandRuns 0 = true ∧ s.tDie = some d ∧ s.thrShut - s.thrHyst ≤ d) ∧
    (∃ (s : State) (req : Fin 6) (d : Int), req ≠ 5 ∧ s.islandRuns 0 = true ∧ s.tDie = some d ∧ d < s.thrShut - s.thrHyst ∧ s.thm.shut = true ∧ s.rst.asserted = [8]) :=
  ⟨⟨lv, 1, 0x1B581900, by decide +kernel⟩,
   ⟨lv, 1, 0x01402000, by decide +kernel⟩,
   ⟨lv, 1, 0x01402081, by decide +kernel⟩,
   ⟨lv.putB THM_CTRL_LOCK true, 1, true, 0x01402000, by decide +kernel⟩,
   ⟨lv, d24 6000, e32, h32, by decide +kernel⟩,
   ⟨lv, (d24 6000).set 7 9601, e32, h32, 7, by decide +kernel⟩,
   ⟨{ lv with thm := { lv.thm with ext := lv.thm.ext.set 0 (7, 0) } }, d24 6000, e32.set 0 15, h32, by decide +kernel⟩,
   ⟨{ lv with thm := { lv.thm with throt := true } }, 6900, e32, h32, by decide +kernel⟩,
   ⟨lv, 6400, e32, h32, by decide +kernel⟩,
   ⟨lv, 8000, e32, h32, by decide +kernel⟩,
   ⟨lv, d24 5, by decide +kernel⟩,
   ⟨lv.putB (THM_DIE_FAST 0) true, d24 9601, by decide +kernel⟩,
   ⟨shS, by decide +kernel⟩,
   ⟨shS.putS (THM_DIE_T 3) 7680, 1, 7680, by decide +kernel⟩,
   ⟨shS.putS (THM_DIE_T 3) 7679, 1, 7679, by decide +kernel⟩⟩

theorem wit_LaneSettings :
    (∃ (s : State) (l : Fin 52) (w h : Fin 128), (s.laneUp l = false ∨ (s.lane l).covered = true)) ∧
    (∃ (s : State) (l : Fin 52) (w h : Fin 128), s.laneUp l = true ∧ (s.lane l).covered = false ∧ s.lanes.length = 52 ∧ min 255 (w.val * h.val / 32) < s.get SDS_ADAPT_CFG_FOM_MIN ∧ (s.lane l).low = false) ∧
    (∃ (s : State) (l : Fin 52) (w h : Fin 128), s.laneUp l = true ∧ (s.lane l).covered = false ∧ s.get SDS_ADAPT_CFG_FOM_MIN ≤ min 255 (w.val * h.val / 32)) ∧
    (∃ (s : State) (l : Fin 52), s.lanePhase0 l = true ∧ s.ust (.lane l) = .on ∧ (portLanes l).all (fun k => !s.on (SDS_LANE_STATUS_SIG_DET k)) = true ∧ 0 < s.get (SDS_LANE_CFG_IDLE_PWR l)) ∧
    (∃ (s : State) (l : Fin 52), s.lanePhase0 l = true ∧ s.ust (.lane l) = .on ∧ (s.get (SDS_LANE_STATUS_PWR l) = 1 ∨ s.get (SDS_LANE_STATUS_PWR l) = 2)) ∧
    (∃ (s : State) (l : Fin 52), s.lanePhase0 l = true ∧ s.ust (.lane l) = .on) ∧
    (∃ (s : State) (req : Fin 6) (l : Fin 52) (v : Word), req ≠ 5 ∧ s.islandRuns 11 = true ∧ (bits v.toNat 5 4 = 0 ∨ s.testOn l = true)) ∧
    (∃ (s : State) (req : Fin 6) (l : Fin 52) (v : Word), req ≠ 5 ∧ s.islandRuns 11 = true ∧ bits v.toNat 5 4 ≠ 0 ∧ s.testOn l = false) ∧
    (∃ (s : State) (l : Fin 52) (errors mbits : Nat), s.on (SDS_PRBS_CFG_CHK_EN l) = true ∧ s.on (SDS_LANE_STATUS_PRBS_LOCK l) = false) ∧
    (∃ (s : State) (l : Fin 52) (errors mbits : Nat), s.on (SDS_PRBS_CFG_CHK_EN l) = true ∧ s.on (SDS_LANE_STATUS_PRBS_LOCK l) = true) ∧
    (∃ (s : State) (l : Fin 52) (mbits : Nat), (s.lane l).testing = true ∧ s.loopQuiet l = true ∧ ((∀ k : Fin 52, k ≠ l → (s.lane k).loopBad = false)) ∧ s.lanes.length = 52) ∧
    (∃ (s : State) (l : Fin 52) (errors mbits : Nat), (s.lane l).testing = true ∧ s.loopQuiet l = true ∧ 0 < errors ∧ s.lanes.length = 52) ∧
    (∃ (s : State) (l : Fin 52) (errors mbits : Nat), (s.lane l).testing = true ∧ s.loopQuiet l = false) :=
  ⟨⟨up, 48, 3, 100, by decide +kernel⟩,
   ⟨mUp, 48, 32, 39, by decide +kernel⟩,
   ⟨ln mUp 48 (fun x => { x with low := true }), 48, 127, 127, by decide +kernel⟩,
   ⟨idl, 48, by decide +kernel⟩,
   ⟨idl.put (SDS_LANE_STATUS_PWR 48) 2, 48, by decide +kernel⟩,
   ⟨(idl.put (SDS_LANE_STATUS_PWR 48) 2).put (SDS_LANE_STATUS_PWR 49) 1, 49, by decide +kernel⟩,
   ⟨tst, 1, 4, 0x20, by decide +kernel⟩,
   ⟨up, 1, 4, 0x20, by decide +kernel⟩,
   ⟨up.putB (SDS_PRBS_CFG_CHK_EN 2) true, 2, 5, 7, by decide +kernel⟩,
   ⟨(up.putB (SDS_PRBS_CFG_CHK_EN 2) true).putB (SDS_LANE_STATUS_PRBS_LOCK 2) true, 2, 5, 7, by decide +kernel⟩,
   ⟨ln idl 50 (fun x => { x with testing := true, loopBad := true }), 50, 9, by decide +kernel⟩,
   ⟨(ln idl 50 (fun x => { x with testing := true })).putB PAR_HEALTH_READY true, 50, 3, 9, by decide +kernel⟩,
   ⟨(ln idl 50 (fun x => { x with testing := true })).putB (SDS_LANE_STATUS_SIG_DET 51) true, 50, 3, 9, by decide +kernel⟩⟩

theorem wit_LaneTraining :
    (∃ (s : State) (l : Fin 52) (v : BitVec 64), bits v.toNat 63 56 ≠ 0x2D) ∧
    (∃ (s : State) (l : Fin 52) (v : BitVec 64), 48 ≤ l.val ∧ bits v.toNat 63 56 = 0x2D ∧ State.trainBlock.frameCheck8' v.toNat ≠ bits v.toNat 7 0) ∧
    (∃ (s : State) (l : Fin 52) (v : BitVec 64), 48 ≤ l.val ∧ bits v.toNat 63 56 = 0x2D ∧ State.trainBlock.frameCheck8' v.toNat = bits v.toNat 7 0 ∧ s.lanePhase0 l = true ∧ s.adapting l = false ∧ bits v.toNat 51 46 = 1 ∧ (s.lane l).stat = [0, 0, 0] ∧ s.get (SDS_TX_FFE_POST l) < 31 ∧ s.get (SDS_TX_FFE_PRE l) + s.get (SDS_TX_FFE_MAIN l) + s.get (SDS_TX_FFE_POST l) < 63) ∧
    (∃ (s : State) (l : Fin 52) (v : BitVec 64), 48 ≤ l.val ∧ bits v.toNat 63 56 = 0x2D ∧ State.trainBlock.frameCheck8' v.toNat = bits v.toNat 7 0 ∧ s.lanePhase0 l = true ∧ s.adapting l = false ∧ bits v.toNat 51 46 = 3 ∧ (s.lane l).stat ≠ [1, 1, 1]) ∧
    (∃ (s : State) (l : Fin 52) (v : BitVec 64), 48 ≤ l.val ∧ bits v.toNat 63 56 = 0x2D ∧ State.trainBlock.frameCheck8' v.toNat = bits v.toNat 7 0 ∧ s.lanePhase0 l = true ∧ s.adapting l = false ∧ bits v.toNat 51 46 = 0) ∧
    (∃ (s : State) (l : Fin 52) (v : BitVec 64), l.val < 48 ∧ bits v.toNat 63 56 = 0x2D ∧ State.trainBlock.frameCheck8' v.toNat = bits v.toNat 7 0 ∧ s.get (HLK_PORT_STATUS_PHASE (l / 2)) ≠ 2 ∧ bit (bits v.toNat 31 24) (s.get (HLK_PORT_CFG_RATE (l / 2))) = true) ∧
    (∃ (s : State) (l : Fin 52) (c : Fin 16) (taps : List Int) (fom : BitVec 8), s.adapting l = true ∧ (s.lane l).req = 0 ∧ (s.lane l).searched = false ∧ (s.lane l).reqs < s.maxReq ∧ s.lanes.length = 52) ∧
    (∃ (s : State) (l k : Fin 52) (c : Fin 16) (taps : List Int) (fom : BitVec 8), s.adapting l = false ∧ (s.lane l).covered = true ∧ s.runState chLANE = rsRUNNING ∧ k ≠ l ∧ (s.lane k).covered = true ∧ (s.lane k).result = none) :=
  ⟨⟨idl, 48, 7, by decide +kernel⟩,
   ⟨idl, 48, BitVec.ofNat 64 (trb 1 + 1), by decide +kernel⟩,
   ⟨trS, 48, BitVec.ofNat 64 (trb 1), by decide +kernel⟩,
   ⟨trS, 48, BitVec.ofNat 64 (trb 3), by decide +kernel⟩,
   ⟨ln trS 48 (fun x => { x with stat := [0, 0, 1] }), 48, BitVec.ofNat 64 (trb 0), by decide +kernel⟩,
   ⟨up.setUst (.port 1) .starting, 3, BitVec.ofNat 64 (trr 1), by decide +kernel⟩,
   ⟨idl, 48, 3, [1, -2, 0, 0, 0], 200, by decide +kernel⟩,
   ⟨(ln (ln mUp 48 (fun x => { x with covered := true, rxReady := true })) 49 (fun x => { x with covered := true })).put (CAL_CH_STATUS_RUN_STATE chLANE) rsRUNNING, 48, 49, 3, [1, -2, 0, 0, 0], 200, by decide +kernel⟩⟩

end Sys2Proof.Tests
end

namespace Sys2Proof.Machine

/-! ### Rows of the register map -/

/-- What every row of every block's table satisfies holds of the row at any offset. -/
theorem regRowAt_all {p : RegRow → Bool} (h : (List.range 22).all (fun b => (blockRows b).all p) = true) {off : Nat} {r : RegRow}
    (hr : regRowAt off = some r) : p r = true := by
  have hmem : r ∈ blockRows (blockOf off) := by
    unfold regRowAt at hr
    split at hr
    · cases hr
    · exact List.mem_of_find?_eq_some hr
  by_cases hb : blockOf off < 22
  · exact List.all_eq_true.mp (List.all_eq_true.mp h _ (List.mem_range.mpr hb)) r hmem
  · obtain ⟨n, hn⟩ : ∃ n, blockOf off = n + 22 := ⟨blockOf off - 22, by omega⟩
    rw [hn] at hmem
    cases hmem

/-- A register that returns to its reset value when read is not one that a LO register latches. -/
theorem isLatched_of_rc {off : Nat} {r : RegRow} (hr : regRowAt off = some r) (hrc : r.rc = true) : isLatched r.off = false := by
  have h : (!r.rc || !isLatched r.off) = true := regRowAt_all (p := fun r => !r.rc || !isLatched r.off) (by decide +kernel) hr
  simpa [hrc] using h

/-! ### Writes by a requester (R8, R9, R495, R558) -/

section Writes
variable {s : State} {req off : Nat} {r : RegRow}

/-- Where no register lies a write has no effect (R9). -/
theorem State.busWrite_none (v : Word) (hr : regRowAt off = none) : s.busWrite req off v = s := by
  simp only [State.busWrite, hr]

theorem State.busWrite_some (v : Word) (hr : regRowAt off = some r) :
    s.busWrite req off v = s.reqWrite req off (fun s => s.writeReg off v) := by
  simp only [State.busWrite, hr]

/-- A write to a register of a running island that the requester reaches writes that register. -/
theorem State.busWrite_runs (v : Word) (hr : regRowAt off = some r) (hq : reaches req off = true)
    (hi : s.islandRuns (islandOf off) = true) : s.busWrite req off v = s.writeReg off v := by
  rw [State.busWrite_some v hr, State.reqWrite_runs _ _ _ _ hq hi]

/-- A write that its requester does not reach has no effect (R558). -/
theorem State.busWrite_unreached (v : Word) (hq : reaches req off = false) : s.busWrite req off v = s := by
  cases hr : regRowAt off with
  | none => exact State.busWrite_none v hr
  | some r => rw [State.busWrite_some v hr]; simp [State.reqWrite, hq]

/-- A write to a register whose island is in reset or fenced is an access error of kind 2 (R495). -/
theorem State.busWrite_halted (v : Word) (hr : regRowAt off = some r) (hq : reaches req off = true)
    (hi : s.islandRuns (islandOf off) = false) : s.busWrite req off v = s.accessError req off 2 false := by
  rw [State.busWrite_some v hr]
  simp [State.reqWrite, hq, hi]

theorem State.writeAccess_w32 (v : BitVec 64) (ha : off % 4 = 0) :
    s.writeAccess req off .w32 v = s.busWrite req off (v.setWidth 32) := by
  simp [State.writeAccess, ha]

theorem State.writeAccess_w32_none (v : BitVec 64) (hr : regRowAt off = none) : s.writeAccess req off .w32 v = s := by
  by_cases ha : off % 4 = 0
  · rw [State.writeAccess_w32 v ha, State.busWrite_none _ hr]
  · simp [State.writeAccess, ha]

/-- A byte write to a register of a running island is an access error of kind 1 (R8). -/
theorem State.writeAccess_w8_runs (v : BitVec 64) (hr : regRowAt (off / 4 * 4) = some r) (hq : reaches req (off / 4 * 4) = true)
    (hi : s.islandRuns (islandOf (off / 4 * 4)) = true) : s.writeAccess req off .w8 v = s.accessError req off 1 false := by
  simp [State.writeAccess, hr, hq, hi]

/-- The registers of DCX and CMX are all plain: a write stores by the access type of each bit (R11). -/
theorem State.writeReg_plain (v : Word) (hr : regRowAt off = some r) (hb : blockOf off = 5 ∨ blockOf off = 6) :
    s.writeReg off v = s.storeReg r off v := by
  rcases hb with hb | hb <;> simp only [State.writeReg, hr, hb]

theorem islandOf_plain (hb : blockOf off = 5 ∨ blockOf off = 6) : islandOf off = 2 := by
  rcases hb with hb | hb <;> simp only [islandOf, hb]

theorem RegsOnly.storeReg {x : State} (h : RegsOnly s x) (r : RegRow) (a : Nat) (v : Word) : RegsOnly s (x.storeReg r a v) := h.rset _ _

theorem Keeps.storeReg {x : State} {l : List Nat} (h : Keeps s x l) (r : RegRow) (a : Nat) (v : Word) (ha : a ∈ l) :
    Keeps s (x.storeReg r a v) l := h.rset _ _ ha

theorem State.rget_storeReg_ne (r : RegRow) (a b : Nat) (v : Word) (h : a ≠ b) : (s.storeReg r a v).rget b = s.rget b :=
  s.rget_rset_ne _ _ _ h

end Writes

/-! ### Latches of the LO registers (R560) -/

section Latches
variable (s : State)

theorem State.latched_congr {s x : State} (h : x.read = s.read) (q a : Nat) : x.latched q a = s.latched q a := by
  simp only [State.latched, h]

theorem State.latched_setLatch_same (req a : Nat) (v : Word) : (s.setLatch req a v).latched req a = v := by
  simp [State.latched, State.setLatch]

theorem State.latched_setLatch_ne (req a : Nat) (v : Word) {q b : Nat} (h : q ≠ req ∨ b ≠ a) :
    (s.setLatch req a v).latched q b = s.latched q b := by
  have hhead : (req == q && a == b) = false := by
    simp only [Bool.and_eq_false_imp, beq_iff_eq, beq_eq_false_iff_ne]
    omega
  have hkeep : ∀ e : Nat × Nat × Word, (!(e.1 == req && e.2.1 == a) && (e.1 == q && e.2.1 == b)) = (e.1 == q && e.2.1 == b) := by
    intro e
    rcases h with h | h <;> grind
  simp only [State.latched, State.setLatch, List.find?_cons, hhead, List.find?_filter]
  congr 2
  grind

/-- Fill a requester's latches of several registers with what they show in `s`. -/
def State.latchAll (s : State) (req : Nat) (ts : List Nat) (x : State) : State :=
  ts.foldl (fun x t => x.setLatch req t (s.view t)) x

theorem State.latchAll_eq (req : Nat) (ts : List Nat) (x : State) : s.latchAll req ts x = { x with read := (s.latchAll req ts x).read } := by
  induction ts generalizing x with
  | nil => rfl
  | cons t ts ih => exact ih (x.setLatch req t (s.view t))

theorem State.latched_latchAll_ne (req : Nat) (ts : List Nat) (x : State) {q a : Nat} (h : q ≠ req ∨ a ∉ ts) :
    (s.latchAll req ts x).latched q a = x.latched q a := by
  induction ts generalizing x with
  | nil => rfl
  | cons t ts ih =>
    have ht : q ≠ req ∨ a ≠ t := h.imp_right fun h e => h (e ▸ List.mem_cons_self)
    exact (ih (x.setLatch req t (s.view t)) (h.imp_right fun h e => h (List.mem_cons_of_mem _ e))).trans
      (x.latched_setLatch_ne req t _ ht)

theorem State.latched_latchAll_mem (req : Nat) (ts : List Nat) (x : State) {a : Nat} (h : a ∈ ts) :
    (s.latchAll req ts x).latched req a = s.view a := by
  induction ts generalizing x with
  | nil => cases h
  | cons t ts ih =>
    by_cases ha : a ∈ ts
    · exact ih (x.setLatch req t (s.view t)) ha
    · obtain rfl : a = t := (List.mem_cons.mp h).resolve_right ha
      exact (s.latched_latchAll_ne req ts _ (.inr ha)).trans (x.latched_setLatch_same req a _)

end Latches

/-! ### Reads by a requester (R8, R9, R11) -/

/-- Show the data of a read. -/
def State.showData (s : State) (d : BitVec 64) : State := { s with read := { s.read with data := d } }

section Reads
variable {s : State} {req off : Nat} {r : RegRow}

theorem State.readWord_none (hr : regRowAt off = none) : s.readWord req off = (s, 0) := by
  simp only [State.readWord, hr]

/-- A read of a register of a running island that the requester reaches. -/
theorem State.readWord_runs (hr : regRowAt off = some r) (hq : reaches req off = true) (hi : s.islandRuns (islandOf off) = true) :
    s.readWord req off = (s.readEffect req r off, if isLatched r.off then s.latched req off else s.view off) := by
  simp [State.readWord, hr, hq, hi]

/-- A read of an RC register fills what it latches and returns the register to its reset value (R11). -/
theorem State.readEffect_rc (hrc : r.rc = true) :
    s.readEffect req r off = (s.latchAll req (latchTargets r.off (r.ix off).1) s).rset off (resetOf off) := by
  simp only [State.readEffect, hrc, if_true]
  rfl

/-- A read of a LO register fills the latches (R560). -/
theorem State.readEffect_read (hl : latchTargets r.off (r.ix off).1 ≠ []) :
    (s.readEffect req r off).read = (s.latchAll req (latchTargets r.off (r.ix off).1) s).read := by
  have hne : ∀ b, (∀ i, latchTargets b i = []) → r.off ≠ b := fun b hb e => hl (e ▸ hb _)
  have htrim := hne CAL_TRIM_DATA fun _ => rfl
  have htab := hne CAM_TAB_DATA fun _ => rfl
  have hdly := hne DMC_DLY_DATA fun _ => rfl
  simp only [State.readEffect, htrim, htab, hdly, if_false]
  split
  · exact State.rset_read ..
  · split
    · exact State.putB_read ..
    · rfl

theorem State.readAccess_narrow {w : AccWidth} (ha : off % 4 = 0) (hw : w ≠ .w64) :
    s.readAccess req off w = (s.readWord req off).1.showData (narrowRead (s.readWord req off).2 off w) := by
  have hoff : off / 4 * 4 = off := by omega
  cases w with
  | w8 => simp only [State.readAccess, hoff]; rfl
  | w16 => simp only [State.readAccess, hoff]; rfl
  | w32 => simp only [State.readAccess, ha, ne_eq, not_true_eq_false, if_false]; rfl
  | w64 => exact absurd rfl hw

theorem State.readAccess_w64 (ha : off % 4 = 0) :
    s.readAccess req off .w64 = ((s.readWord req off).1.readWord req (off + 4)).1.showData
      (((s.readWord req off).1.readWord req (off + 4)).2 ++ (s.readWord req off).2) := by
  simp only [State.readAccess, ha, ne_eq, not_true_eq_false, if_false]
  rfl

theorem State.readAccess_w32_none (hr : regRowAt off = none) : s.readAccess req off .w32 = s.showData 0 := by
  by_cases ha : off % 4 = 0
  · rw [State.readAccess_narrow ha (by simp), State.readWord_none hr]
    rfl
  · simp only [State.readAccess, ha, ne_eq, not_false_eq_true, if_true]
    rfl

end Reads

end Sys2Proof.Machine

namespace Sys2Proof.Machine

/-! ### Register accesses: the statement -/

/-- The two halves of a 64-bit number in two registers are that number (R8). -/
theorem ofNat_halves (n : Nat) : (BitVec.ofNat 32 (n / 2 ^ 32) ++ BitVec.ofNat 32 n : BitVec 64) = BitVec.ofNat 64 n := by
  apply BitVec.eq_of_toNat_eq
  rw [BitVec.toNat_append, Nat.shiftLeft_eq, Nat.mul_comm, ← Nat.two_pow_add_eq_or_of_lt (BitVec.isLt _)]
  simp only [BitVec.toNat_ofNat]
  omega

theorem State.get_of_rget_zero {s : State} {f : Fld} (h : s.rget f.off = 0) : s.get f = 0 := by
  simp [State.get, h, bits]

theorem State.on_of_rget_zero {s : State} {f : Fld} (h : s.rget f.off = 0) : s.on f = false := by
  simp [State.on, State.get_of_rget_zero h]

/-- CLR empties the error latch (R563). -/
theorem State.rget_accClr (s : State) : s.accClr.rget GLB_ACC_ERR = 0 ∧ s.accClr.rget GLB_ACC_ADDR = 0 :=
  ⟨(State.rget_rset_ne _ _ _ _ (by decide)).trans (State.rget_rset_same ..), State.rget_rset_same ..⟩

theorem State.writeAccess_plain (s : State) (req : Fin 6) (off : Nat) (r : RegRow) (v : BitVec 64) (hreq : req ≠ 5) (ha : off % 4 = 0)
    (hr : regRowAt off = some r) (hb : blockOf off = 5 ∨ blockOf off = 6) (hi : s.islandRuns 2 = true) :
    s.writeAccess req off .w32 v = s.storeReg r off (v.setWidth 32) := by
  rw [State.writeAccess_w32 v ha, State.busWrite_runs _ hr (reaches_of_ne hreq off) (by rwa [islandOf_plain hb]),
    State.writeReg_plain _ hr hb]

/-- A narrow or 32-bit read of an RC register. -/
theorem State.readAccess_rc (s : State) (req off : Nat) (r : RegRow) (w : AccWidth) (hw : w ≠ .w64) (ha : off % 4 = 0)
    (hr : regRowAt off = some r) (hrc : r.rc = true) (hq : reaches req off = true) (hi : s.islandRuns (islandOf off) = true) :
    s.readAccess req off w =
      ((s.latchAll req (latchTargets r.off (r.ix off).1) s).rset off (resetOf off)).showData (narrowRead (s.view off) off w) := by
  rw [State.readAccess_narrow ha hw, State.readWord_runs hr hq hi, State.readEffect_rc hrc, isLatched_of_rc hr hrc]
  rfl

theorem State.latchAll_hidden (s : State) (req : Nat) (ts : List Nat) (x : State) :
    (s.latchAll req ts x).hidden = { x.hidden with read := (s.latchAll req ts x).read } := by
  rw [State.latchAll_eq]; rfl

theorem State.rget_latchAll (s : State) (req : Nat) (ts : List Nat) (x : State) (a : Nat) : (s.latchAll req ts x).rget a = x.rget a := by
  rw [State.latchAll_eq]; rfl

/-- A 64-bit read of PRESS_TIME latches its high word with the line snapshot and returns both words (R560, R562). -/
theorem State.readAccess_pressTime (s : State) (req : Fin 6) (hi : s.islandRuns 0 = true) :
    s.readAccess req GLB_PRESS_TIME_LO .w64 = (s.latchAll req [0x34, 0x40, 0x44] s).showData (BitVec.ofNat 64 s.now) := by
  have hq : reaches req GLB_PRESS_TIME_LO = true := by revert req; decide
  have hq' : reaches req (GLB_PRESS_TIME_LO + 4) = true := by revert req; decide
  have hlo : s.readWord req GLB_PRESS_TIME_LO = (s.latchAll req [0x34, 0x40, 0x44] s, BitVec.ofNat 32 s.now) := 
    State.readWord_runs (r := ⟨0x30, 1, 0x4000000, 1, 0x4000000, 0x0, 0x0, false, 0x0⟩) (by decide) hq hi
  have hlatch : (s.latchAll req [0x34, 0x40, 0x44] s).latched req 0x34 = BitVec.ofNat 32 (s.now / 2 ^ 32) :=
    s.latched_latchAll_mem req _ s (by decide)
  have hi' : (s.latchAll req [0x34, 0x40, 0x44] s).islandRuns 0 = true := by
    rw [State.islandRuns_congr s _ 0 (State.rget_latchAll ..)]; exact hi
  have hhi : (s.latchAll req [0x34, 0x40, 0x44] s).readWord req (GLB_PRESS_TIME_LO + 4) =
      (s.latchAll req [0x34, 0x40, 0x44] s, BitVec.ofNat 32 (s.now / 2 ^ 32)) := by
    rw [State.readWord_runs (r := ⟨0x34, 1, 0x4000000, 1, 0x4000000, 0x0, 0x0, false, 0x0⟩) (by decide) hq' hi', ← hlatch]
    rfl
  rw [State.readAccess_w64 (by decide), hlo, hhi, ofNat_halves]

/-- Settles O5: each access is the write or read of its register that `State.writeAccess_plain`, `State.readAccess_rc`, `State.readEffect_read` and
`State.readAccess_pressTime` give, with the laws of the register file and of the latches. -/
theorem registerAccesses : Obligations.RegisterAccesses := by
  refine ⟨?_, ?_, ?_, ?_, ?_⟩
  · intro s req off r v hreq ha hr hb hi
    refine ⟨(s.storeReg r off (v.setWidth 32)).trackIrq,
      congrArg finish (State.writeAccess_plain s req off r v hreq ha hr hb hi), ?_, ?_⟩
    · exact s.rget_rset_same _ _
    · exact Silent.of_regsOnly ((RegsOnly.refl s).storeReg ..) ((Keeps.refl s _).storeReg _ _ _ (by simp))
  · intro s req off r w hw ha hr hrc hq hi
    refine ⟨_, congrArg finish (State.readAccess_rc s req off r w hw ha hr hrc hq hi), rfl, ?_, ?_, ?_⟩
    · exact State.rget_rset_same _ _ _
    · exact Keeps.rset (fun a _ => State.rget_latchAll ..) off _ (by simp)
    · rw [State.latchAll_eq]; rfl
  · intro s req off r ha hr hl hnl hq hi
    have hacc : s.readAccess req off .w32 = (s.readEffect req r off).showData (BitVec.ofNat 64 (s.view off).toNat) := by
      rw [State.readAccess_narrow ha (by simp), State.readWord_runs hr hq hi, hnl]
      rfl
    have hlatched : ∀ q a, (s.readEffect req r off).latched q a = (s.latchAll req (latchTargets r.off (r.ix off).1) s).latched q a :=
      State.latched_congr (State.readEffect_read hl)
    refine ⟨_, congrArg finish hacc, rfl, ?_, ?_⟩
    · exact fun a h => (hlatched req a).trans (s.latched_latchAll_mem req _ s h)
    · exact fun q a h => (hlatched q a).trans (s.latched_latchAll_ne req _ s (.inl h))
  · intro s req hi
    refine ⟨_, congrArg finish (State.readAccess_pressTime s req hi), rfl, ?_, ?_⟩
    · exact s.latched_latchAll_mem req _ s (by decide)
    · exact fun a _ => State.rget_latchAll ..
  · intro s req
    obtain ⟨herr, haddr⟩ := s.rget_accClr
    refine ⟨s.accClr.trackIrq, rfl, State.on_of_rget_zero herr, State.get_of_rget_zero herr, haddr, ?_⟩
    · exact Silent.of_regsOnly (((RegsOnly.refl s).rset _ _).rset _ _)
        (((Keeps.refl s _).rset _ _ (by decide)).rset _ _ (by decide))
end Sys2Proof.Machine

namespace Sys2Proof.Machine

/-! ### Access errors (R8, R495, R563) -/

theorem RegsOnly.hidden {s x : State} (h : RegsOnly s x) : x.hidden = s.hidden := by
  rw [h]; rfl

section AccessError
variable {s : State}

/-- The error latch as the first error fills it. -/
def State.latchAccessError (s : State) (req off kind : Nat) (read : Bool) : State :=
  (((((s.addSat GLB_ACC_ERR_COUNT 1).putB GLB_ACC_ERR_VALID true).put GLB_ACC_ERR_KIND kind).putB GLB_ACC_ERR_READ read).put
    GLB_ACC_ERR_REQ req).put GLB_ACC_ADDR_OFFSET off

theorem State.accessError_first (req off kind : Nat) (read : Bool) (hv : s.on GLB_ACC_ERR_VALID = false) :
    s.accessError req off kind read =
      ((s.latchAccessError req off kind read).event' Ev.ACCESS_ERROR [kind, b2n read, req, off]).cause GLB_IRQ_CAUSE_ACC_ERR := by
  simp [State.accessError, hv, State.latchAccessError]

theorem RegsOnly.latchAccessError (s : State) (req off kind : Nat) (read : Bool) :
    RegsOnly s (s.latchAccessError req off kind read) :=
  ((((((RegsOnly.refl s).addSat _ _).putB _ _).put _ _).putB _ _).put _ _).put _ _

theorem Keeps.latchAccessError (s : State) (req off kind : Nat) (read : Bool) :
    Keeps s (s.latchAccessError req off kind read) [GLB_ACC_ERR, GLB_ACC_ADDR] :=
  ((((((Keeps.refl s _).addSat _ _ (by decide)).putB _ _ (by decide)).put _ _ (by decide)).putB _ _ (by decide)).put _ _
    (by decide)).put _ _ (by decide)

/-- An event and a cause leave the other fields. -/
theorem State.get_reported (y : State) (c : Nat) (p : List Nat) (g f : Fld) (he : f.off ∉ evtRegs) (hg : g.ok = true)
    (ha : g.apart f) : ((y.event' c p).cause g).trackIrq.get f = y.get f := by
  rw [State.get_trackIrq, State.get_cause_apart _ _ _ hg ha, State.get_event' _ _ _ _ he]

theorem State.on_reported (y : State) (c : Nat) (p : List Nat) (g f : Fld) (he : f.off ∉ evtRegs) (hg : g.ok = true)
    (ha : g.apart f) : ((y.event' c p).cause g).trackIrq.on f = y.on f := by
  rw [State.on_trackIrq, State.on_cause_apart _ _ _ hg ha, State.on_event' _ _ _ _ he]

/-- What the error latch shows of the first error (R563). -/
theorem State.latchAccessError_shows (req : Fin 6) (off kind : Nat) (read : Bool) (hk : kind < 4) :
    let y := s.latchAccessError req off kind read
    y.on GLB_ACC_ERR_VALID = true ∧ y.get GLB_ACC_ERR_KIND = kind ∧ y.on GLB_ACC_ERR_READ = read ∧
      y.get GLB_ACC_ERR_REQ = req.val := by
  have hreq : req.val % 2 ^ 3 = req.val := Nat.mod_eq_of_lt (by omega)
  refine ⟨?_, ?_, ?_, ?_⟩
  · simp (disch := decide) only [State.latchAccessError, State.on_put_apart, State.on_putB_apart, State.on_putB_same]
  · simp (disch := decide) only [State.latchAccessError, State.get_put_apart, State.get_putB_apart, State.get_put_same]
    exact Nat.mod_eq_of_lt hk
  · simp (disch := decide) only [State.latchAccessError, State.on_put_apart, State.on_putB_same]
  · simp (disch := decide) only [State.latchAccessError, State.get_put_apart, State.get_put_same]
    exact hreq

/-- The first access error is latched with its kind, direction and requester, and posts ACCESS_ERROR (R563). -/
theorem State.accessError_latches (req : Fin 6) (off kind : Nat) (read : Bool) (hk : kind < 4) (hv : s.on GLB_ACC_ERR_VALID = false) :
    let t := (s.accessError req off kind read).trackIrq
    t.on GLB_ACC_ERR_VALID = true ∧ t.get GLB_ACC_ERR_KIND = kind ∧ t.on GLB_ACC_ERR_READ = read ∧ t.get GLB_ACC_ERR_REQ = req.val ∧
      Posts s t Ev.ACCESS_ERROR 0xFFFF [kind, b2n read, req.val, off] ∧ Touches s t [GLB_ACC_ERR, GLB_ACC_ADDR, GLB_IRQ_CAUSE] := by
  have hregs := RegsOnly.latchAccessError s req off kind read
  have hkeeps := Keeps.latchAccessError s req off kind read
  obtain ⟨hvalid, hkind, hread, hreq⟩ := State.latchAccessError_shows (s := s) req off kind read hk
  rw [State.accessError_first _ _ _ _ hv]
  generalize s.latchAccessError req off kind read = y at hregs hkeeps hvalid hkind hread hreq
  refine ⟨?_, ?_, ?_, ?_, ?_, ?_⟩
  · exact (State.on_reported y _ _ _ _ (by decide) (by decide) (by decide)).trans hvalid
  · exact (State.get_reported y _ _ _ _ (by decide) (by decide) (by decide)).trans hkind
  · exact (State.on_reported y _ _ _ _ (by decide) (by decide) (by decide)).trans hread
  · exact (State.get_reported y _ _ _ _ (by decide) (by decide) (by decide)).trans hreq
  · refine ((Posts.of_event s y _ _ _ ?_ ?_ (hkeeps _ (by decide)) (by decide)).cause _).trackIrq
    · rw [hregs]
    · rw [hregs]
  · refine Touches.mk' ?_ ?_
    · rw [State.cause_hidden, State.event'_hidden, hregs.hidden]
    · exact ((hkeeps.mono (by decide)).event' _ _ (by decide)).cause _ (by decide)

end AccessError

/-- Settles O6: what is not reached has no effect, and what is discarded is the access error of `State.accessError_latches`. -/
theorem accessErrors : Obligations.AccessErrors := by
  refine ⟨?_, ?_, ?_, ?_⟩
  · intro s req off v hr
    exact ⟨⟨_, congrArg finish (State.writeAccess_w32_none v hr), Silent.refl s⟩,
      ⟨_, congrArg finish (State.readAccess_w32_none hr), rfl, fun _ _ => rfl⟩⟩
  · intro s req off r v hr hq hi hv
    exact ⟨_, congrArg finish (State.writeAccess_w8_runs v hr hq hi), State.accessError_latches req off 1 false (by decide) hv⟩
  · intro s req off r v ha hr hq hi hv
    exact ⟨_, congrArg finish ((State.writeAccess_w32 v ha).trans (State.busWrite_halted _ hr hq hi)),
      State.accessError_latches req off 2 false (by decide) hv⟩
  · intro s off v ha hq
    exact ⟨_, congrArg finish ((State.writeAccess_w32 v ha).trans (State.busWrite_unreached _ hq)), Silent.refl s⟩
end Sys2Proof.Machine

namespace Sys2Proof.Machine

/-! ### Plain units: their configuration registers (R15) -/

/-- The row of the configuration register of a plain unit, its block and the unit's number in it. -/
def plainCfgRow : UnitId → RegRow
  | .master _ => ⟨0x110000, 2, 0x100, 1, 0x100, 0xFF1FFFFF, 0x0, false, 0x4040090⟩
  | .quad _ => ⟨0x111000, 16, 0x40, 1, 0x40, 0xFFFFFF03, 0x0, false, 0x140400⟩
  | .serial _ => ⟨0x112000, 4, 0x80, 1, 0x80, 0x3F1F7F1F, 0x0, false, 0x1900⟩
  | .ctx _ => ⟨0xE1000, 16, 0x80, 1, 0x80, 0x7FFF, 0x0, false, 0x200⟩
  | .slot _ => ⟨0x120000, 32, 0x100, 1, 0x100, 0x3FF7FF7, 0x0, false, 0x10⟩
  | .bar _ => ⟨0xF1000, 8, 0x200, 1, 0x200, 0xFF07, 0x0, false, 0x2⟩
  | _ => ⟨0x150000, 2, 0x100, 1, 0x100, 0x1, 0x0, false, 0x0⟩

def plainBlock : UnitId → Nat
  | .master _ => 14
  | .quad _ => 14
  | .serial _ => 14
  | .ctx _ => 11
  | .slot _ => 15
  | .bar _ => 12
  | _ => 18

def plainNo : UnitId → Nat
  | .master m => m
  | .quad q => q
  | .serial n => n
  | .ctx c => c
  | .slot l => l
  | .bar b => b
  | .net n => n
  | _ => 0

section PlainUnits
variable {u : UnitId}

/-- The configuration register of a plain unit in the register map. -/
theorem regRowAt_plain (h : plainUnit u = true) : regRowAt (enableFld u).off = some (plainCfgRow u) ∧
    blockOf (enableFld u).off = plainBlock u ∧ ((plainCfgRow u).ix (enableFld u).off).1 = plainNo u := by
  cases u with
  | master m => clear h; revert m; decide +kernel
  | quad q => clear h; revert q; decide +kernel
  | serial n => clear h; revert n; decide +kernel
  | ctx c => clear h; revert c; decide +kernel
  | slot l => clear h; revert l; decide +kernel
  | bar b => clear h; revert b; decide +kernel
  | net n => clear h; revert n; decide +kernel
  | ring _ | port _ | lane _ | axis _ | web | mirror => cases h

/-- A write of the configuration register of a plain unit stores it and is an enable write of the unit. -/
theorem State.writeReg_plainUnit (s : State) (v : Word) (h : plainUnit u = true) :
    s.writeReg (enableFld u).off v = (s.storeReg (plainCfgRow u) (enableFld u).off v).enableWrite u (bit v.toNat 0) := by
  obtain ⟨hrow, hblock, hno⟩ := regRowAt_plain h
  cases u with
  | master m =>
    simp only [State.writeReg, hrow, hblock, hno, plainNo, plainBlock, State.writeEnc, Fin.ofNat_val_eq_self]; rfl
  | quad q => simp only [State.writeReg, hrow, hblock, hno, plainNo, plainBlock, State.writeEnc, Fin.ofNat_val_eq_self]; rfl
  | serial n => simp only [State.writeReg, hrow, hblock, hno, plainNo, plainBlock, State.writeEnc, Fin.ofNat_val_eq_self]; rfl
  | ctx c => simp only [State.writeReg, hrow, hblock, hno, plainNo, plainBlock, State.writeCam, Fin.ofNat_val_eq_self]; rfl
  | slot l => simp only [State.writeReg, hrow, hblock, hno, plainNo, plainBlock, State.writeLpe, Fin.ofNat_val_eq_self]; rfl
  | bar b =>
    have hscan : (enableFld (.bar b)).off ≠ LED_SCAN := by simp only [enableFld, LED_BAR_CFG_ENABLE, LED_BAR_CFG, LED_SCAN]; omega
    have hupd : (enableFld (.bar b)).off ≠ LED_UPDATE := by simp only [enableFld, LED_BAR_CFG_ENABLE, LED_BAR_CFG, LED_UPDATE]; omega
    simp only [State.writeReg, hrow, hblock, hno, plainNo, plainBlock, State.writeLed, hscan, hupd, if_false, barUnit,
      Fin.ofNat_val_eq_self]
    rfl
  | net n => simp only [State.writeReg, hrow, hblock, hno, plainNo, plainBlock, State.writeNet, Fin.ofNat_val_eq_self]; rfl
  | ring _ | port _ | lane _ | axis _ | web | mirror => cases h

theorem plainUnit_ne_mirror (h : plainUnit u = true) : u ≠ .mirror := by
  rintro rfl
  cases h

/-- The status register of a plain unit is not its configuration register. -/
theorem stateFld_off_ne_enableFld (h : plainUnit u = true) : (enableFld u).off ≠ (stateFld u).off := by
  cases u with
  | master m => exact Nat.ne_of_lt (Nat.add_lt_add_right (by decide) _)
  | quad q => exact Nat.ne_of_lt (Nat.add_lt_add_right (by decide) _)
  | serial n => exact Nat.ne_of_lt (Nat.add_lt_add_right (by decide) _)
  | ctx c => exact Nat.ne_of_lt (Nat.add_lt_add_right (by decide) _)
  | slot l => exact Nat.ne_of_lt (Nat.add_lt_add_right (by decide) _)
  | bar b => exact Nat.ne_of_lt (Nat.add_lt_add_right (by decide) _)
  | net n => exact Nat.ne_of_lt (Nat.add_lt_add_right (by decide) _)
  | ring _ | port _ | lane _ | axis _ | web | mirror => cases h

theorem ownLanes_plain (h : plainUnit u = true) : ownLanes u = [] := by
  cases u with
  | master _ | quad _ | serial _ | ctx _ | slot _ | bar _ | net _ => rfl
  | ring _ | port _ | lane _ | axis _ | web | mirror => cases h

/-- What a plain unit does on its way to OFF and back needs no further action. -/
theorem State.unitOff_plain (s : State) (h : plainUnit u = true) : s.unitOff u = s := by
  cases u with
  | master _ | quad _ | serial _ | ctx _ | slot _ | bar _ | net _ => rfl
  | ring _ | port _ | lane _ | axis _ | web | mirror => cases h

theorem State.unitStopped_plain (s : State) (h : plainUnit u = true) : s.unitStopped u = s := by
  cases u with
  | master _ | quad _ | serial _ | ctx _ | slot _ | bar _ | net _ => rfl
  | ring _ | port _ | lane _ | axis _ | web | mirror => cases h

/-! ### The unit state machine (R15 to R17) -/

/-- A write of the enable bit of a unit that owns no lanes. -/
theorem State.enableWrite_noLanes (s : State) (b : Bool) (h : ownLanes u = []) : s.enableWrite u b = s.enableOne u b := by
  unfold State.enableWrite
  split
  · next hu => simp only [State.enableOne, hu]
  · simp only [h, List.foldl_nil]
  · simp only [h, List.foldl_nil]

/-- The enable write of a plain unit by a requester that its running island takes it from (R15). -/
theorem State.busWrite_plainUnit {s : State} {req : Fin 6} (v : Word) (h : plainUnit u = true) (hreq : req ≠ 5)
    (hi : s.islandRuns (islandOf (enableFld u).off) = true) :
    s.busWrite req (enableFld u).off v = (s.storeReg (plainCfgRow u) (enableFld u).off v).enableOne u (bit v.toNat 0) := by
  rw [State.busWrite_runs v (regRowAt_plain h).1 (reaches_of_ne hreq _) hi, State.writeReg_plainUnit s v h,
    State.enableWrite_noLanes _ _ (ownLanes_plain h)]

/-- Storing the configuration of a plain unit leaves its STATE alone. -/
theorem State.ust_storeCfg (s : State) (r : RegRow) (v : Word) (h : plainUnit u = true) :
    (s.storeReg r (enableFld u).off v).ust u = s.ust u :=
  State.ust_of_rget _ _ _ (plainUnit_ne_mirror h) (State.rget_storeReg_ne _ _ _ _ (stateFld_off_ne_enableFld h))

section EnableOne
variable {s : State} {b : Bool}

theorem State.enableOne_stopping (h : s.ust u = .stopping) : s.enableOne u b = s.setPend u b := by
  simp only [State.enableOne, h]

theorem State.enableOne_fault (h : s.ust u = .fault) : s.enableOne u false = (s.setUst u .off).unitOff u := by
  simp only [State.enableOne, h]

theorem State.enableOne_off (h : s.ust u = .off) : s.enableOne u true = (s.setUst u .starting).unitStart u := by
  simp only [State.enableOne, h]

theorem State.enableOne_on (h : s.ust u = .on) : s.enableOne u false = (s.setUst u .stopping).unitStop u := by
  simp only [State.enableOne, h]

end EnableOne

/-- A change of a plain unit's STATE after its configuration is stored shows the state, in those two registers alone. -/
theorem State.storeCfg_setUst (s : State) (r : RegRow) (v : Word) (x : UState) (h : plainUnit u = true) :
    ((s.storeReg r (enableFld u).off v).setUst u x).trackIrq.ust u = x ∧
      Silent s ((s.storeReg r (enableFld u).off v).setUst u x).trackIrq [(enableFld u).off, (stateFld u).off] := by
  refine ⟨by rw [State.ust_trackIrq, State.ust_setUst_same], ?_⟩
  exact Silent.of_regsOnly (((RegsOnly.refl s).storeReg ..).setUst _ _ (plainUnit_ne_mirror h))
    (((Keeps.refl s _).storeReg _ _ _ (by simp)).setUst _ _ (by simp))

end PlainUnits

/-- Settles O7: the enable write of a plain unit is `State.busWrite_plainUnit`, and R15's transition follows from the unit's STATE. -/
theorem unitEnableWrites : Obligations.UnitEnableWrites := by
  have hisland : ∀ n : Fin 2, islandOf (enableFld (.net n)).off = 16 := by decide
  refine ⟨?_, ?_, ?_, ?_⟩
  · intro s req u v hu hreq hi hs
    refine ⟨_, congrArg finish (State.busWrite_plainUnit v hu hreq hi), ?_⟩
    rw [State.enableOne_stopping ((State.ust_storeCfg s _ v hu).trans hs), State.ust_trackIrq, State.pend_trackIrq, State.ust_setPend,
      State.pend_setPend _ _ _ (plainUnit_ne_mirror hu), State.ust_storeCfg s _ v hu]
    exact ⟨hs, rfl⟩
  · intro s req u v hu hreq hi hs hb
    refine ⟨_, congrArg finish (State.busWrite_plainUnit v hu hreq hi), ?_⟩
    rw [hb, State.enableOne_fault ((State.ust_storeCfg s _ v hu).trans hs), State.unitOff_plain _ hu]
    exact State.storeCfg_setUst s _ v .off hu
  · intro s req n v hreq hi hs hb
    refine ⟨_, congrArg finish (State.busWrite_plainUnit (u := .net n) v rfl hreq (by rwa [hisland])), ?_⟩
    rw [hb, State.enableOne_off ((State.ust_storeCfg s _ v rfl).trans hs)]
    exact State.storeCfg_setUst (u := .net n) s _ v .starting rfl
  · intro s req n v hreq hi hs hb
    refine ⟨_, congrArg finish (State.busWrite_plainUnit (u := .net n) v rfl hreq (by rwa [hisland])), ?_⟩
    rw [hb, State.enableOne_on ((State.ust_storeCfg s _ v rfl).trans hs)]
    exact State.storeCfg_setUst (u := .net n) s _ v .stopping rfl

end Sys2Proof.Machine

namespace Sys2Proof.Machine

/-! ### Own events of the units (R15, R16) -/

section UnitEvents
variable {s : State} {u : UnitId}

theorem State.ust_of_startReady (h : s.startReady u = true) : s.ust u = .starting := by
  simp only [State.startReady, Bool.and_eq_true, beq_iff_eq] at h
  exact h.1

theorem State.ust_of_stopReady (h : s.stopReady u = true) : s.ust u = .stopping := by
  simp only [State.stopReady, Bool.and_eq_true, beq_iff_eq] at h
  exact h.1

theorem State.ust_of_limitRuns (h : s.limitRuns u = true) : s.ust u = .starting := by
  simp only [State.limitRuns, Bool.and_eq_true, beq_iff_eq] at h
  exact h.1

/-- A plain unit but a loop slot enters ON without further action. -/
theorem State.unitOn_plain (h : plainUnit u = true) (hs : ∀ l, u ≠ .slot l) : s.unitOn u = s.setUst u .on := by
  cases u with
  | master _ | quad _ | serial _ | ctx _ | bar _ | net _ => rfl
  | slot l => exact absurd rfl (hs l)
  | ring _ | port _ | lane _ | axis _ | web | mirror => cases h

/-- The units of R15 whose stop actions leave nothing to do at their end: plain units and lanes. -/
theorem State.stops_plain_or_lane (s : State) (h : plainUnit u = true ∨ ∃ l, u = .lane l) :
    s.unitStopped u = s ∧ s.unitOff u = s ∧ u ≠ .mirror := by
  rcases h with h | ⟨l, rfl⟩
  · exact ⟨s.unitStopped_plain h, s.unitOff_plain h, plainUnit_ne_mirror h⟩
  · exact ⟨rfl, rfl, by simp⟩

/-- A stop without a recorded fault and without PEND ends in OFF (R15). -/
theorem State.stopComplete_off (h : plainUnit u = true ∨ ∃ l, u = .lane l) (hr : s.stopReady u = true) (hf : s.faultRec u = none)
    (hp : s.pend u = false) : s.stopComplete u none none = (s.setPend u false).setUst u .off := by
  obtain ⟨hstopped, -, -⟩ := s.stops_plain_or_lane h
  obtain ⟨-, hoff, -⟩ := ((s.setPend u false).setUst u .off).stops_plain_or_lane h
  simp [State.stopComplete, hr, hstopped, hf, hp, hoff]

/-- A stop with a recorded fault enters FAULT with its reason (R16). -/
theorem State.stopComplete_fault {r : Nat} (h : plainUnit u = true ∨ ∃ l, u = .lane l) (hr : s.stopReady u = true)
    (hf : s.faultRec u = some r) :
    s.stopComplete u none none = (((s.dropFault u).setPend u false).setUst u .starting).unitFault u r := by
  obtain ⟨hstopped, -, -⟩ := s.stops_plain_or_lane h
  unfold State.stopComplete
  rw [if_neg (by simp [hr])]
  dsimp only
  rw [hstopped, hf]

/-! ### Faults -/

theorem State.faultRec_congr {s x : State} (h : x.unitFaults = s.unitFaults) (u : UnitId) : x.faultRec u = s.faultRec u := by
  rw [State.faultRec, State.faultRec, h]

theorem State.faultRec_recordFault (s : State) (u : UnitId) (r : Nat) : (s.recordFault u r).faultRec u = some r := by
  simp [State.faultRec, State.recordFault]

theorem State.faultRec_dropFault (s : State) (u : UnitId) : (s.dropFault u).faultRec u = none := by
  simp only [State.faultRec, State.dropFault, List.lookup_eq_none_iff]
  intro e he
  exact bne_iff_ne.mpr (Ne.symm (of_decide_eq_true (List.mem_filter.mp he).2))

theorem State.ust_recordFault (s : State) (u v : UnitId) (r : Nat) : (s.recordFault u r).ust v = s.ust v := by
  cases v <;> rfl

theorem State.faultUnit_starting_or_on (reason : Nat) (f : State → State) (h : s.ust u = .starting ∨ s.ust u = .on) :
    s.faultUnit u reason f = f (((s.setUst u .fault).setPend u false).setReason u reason) := by
  rcases h with h | h <;> simp only [State.faultUnit, h]

theorem State.faultUnit_stopping (reason : Nat) (f : State → State) (h : s.ust u = .stopping) :
    s.faultUnit u reason f = s.recordFault u reason := by
  simp only [State.faultUnit, h]

/-- A fault that a plain unit detects while it stops is recorded (R16). -/
theorem State.unitFault_stopping (reason : Nat) (h : plainUnit u = true) (hn : ∀ n, u ≠ .net n) (hs : s.ust u = .stopping) :
    s.unitFault u reason = s.recordFault u reason := by
  cases u with
  | master _ | quad _ | serial _ => rw [State.unitFault, State.inputFault, State.faultUnit_stopping _ _ hs]
  | ctx c => rw [State.unitFault, State.ctxFault, State.faultUnit_stopping _ _ hs]
  | slot l => rw [State.unitFault, State.loopFault, State.faultUnit_stopping _ _ hs]
  | bar b =>
    have hb : barUnit b = .bar b := by rw [barUnit, Fin.ofNat_val_eq_self]
    rw [State.unitFault, State.barFault, hb, State.faultUnit_stopping _ _ hs]
  | net n => exact absurd rfl (hn n)
  | ring _ | port _ | lane _ | axis _ | web | mirror => cases h

/-- The status of a lane that enters FAULT, before its event. -/
def State.laneFaulted (s : State) (l : Fin 52) (reason : Nat) : State :=
  ((s.setUst (.lane l) .fault).setPend (.lane l) false).put (SDS_LANE_STATUS_REASON l) reason

/-- A lane in STARTING or ON enters FAULT and posts LANE_FAULT (R15, R18). -/
theorem State.laneFault_eq (l : Fin 52) (reason : Nat) (h : s.ust (.lane l) = .starting ∨ s.ust (.lane l) = .on) :
    s.laneFault l reason = ((((s.laneFaulted l reason).event Ev.LANE_FAULT l [reason]).cause SDS_IRQ_CAUSE_LANE_FAULT).putB
      (SDS_LANE_STATUS_SIG_DET l) false).put (SDS_LANE_STATUS_PWR l) 3 := by
  have hl : laneUnit l = .lane l := by rw [laneUnit, Fin.ofNat_val_eq_self]
  rw [State.laneFault, hl, State.faultUnit_starting_or_on _ _ h]
  rfl

theorem lane_off_notMem_evtRegs (l : Fin 52) : SDS_LANE_STATUS l ∉ evtRegs := by
  revert l; decide

theorem lane_off_ne_irqCause (l : Fin 52) : SDS_IRQ_CAUSE ≠ SDS_LANE_STATUS l := by
  revert l; decide

theorem lane_off_ne_island (l : Fin 52) : RST_ISLAND 1 ∉ [SDS_LANE_STATUS l] := by
  revert l; decide

/-- The fields of a lane's status below PWR are as the fault left them before its event. -/
theorem State.get_laneFault (s : State) (l : Fin 52) (reason : Nat) (h : s.ust (.lane l) = .starting ∨ s.ust (.lane l) = .on) (g : Fld)
    (hoff : g.off = SDS_LANE_STATUS l) (hlt : g.hi < 8) (hle : g.lo ≤ g.hi) :
    (s.laneFault l reason).get g = (s.laneFaulted l reason).get g := by
  have hpwr : (SDS_LANE_STATUS_PWR l).apart g := .inr (.inr ⟨hlt, hle⟩)
  have hsig : (SDS_LANE_STATUS_SIG_DET l).apart g := .inr (.inr ⟨show g.hi < 10 by omega, hle⟩)
  have hirq : SDS_IRQ_CAUSE_LANE_FAULT.apart g := .inl (hoff ▸ lane_off_ne_irqCause l)
  rw [State.laneFault_eq l reason h, State.get_put_apart _ _ _ _ rfl hpwr, State.get_putB_apart _ _ _ _ rfl hsig,
    State.get_cause_apart _ _ _ rfl hirq, State.get_event _ _ _ _ _ (hoff ▸ lane_off_notMem_evtRegs l)]

/-- A lane that enters FAULT shows it with its reason, clears PEND and posts LANE_FAULT (R15, R18). -/
theorem State.laneFault_shows (s : State) (l : Fin 52) (reason : Nat) (hr : reason < 16)
    (h : s.ust (.lane l) = .starting ∨ s.ust (.lane l) = .on) :
    let t := (s.laneFault l reason).trackIrq
    t.ust (.lane l) = .fault ∧ t.pend (.lane l) = false ∧ t.get (SDS_LANE_STATUS_REASON l) = reason ∧
      Posts s t Ev.LANE_FAULT l [reason] ∧ Touches s t [SDS_LANE_STATUS l, SDS_IRQ_CAUSE] := by
  have hregs : RegsOnly s (s.laneFaulted l reason) := (((RegsOnly.refl s).setUst _ _ (by simp)).setPend _ _ (by simp)).put _ _
  have hkeeps : Keeps s (s.laneFaulted l reason) [SDS_LANE_STATUS l] :=
    (((Keeps.refl s _).setUst (.lane l) _ List.mem_cons_self).setPend (.lane l) _ List.mem_cons_self).put _ _ List.mem_cons_self
  have hpend : (s.laneFaulted l reason).get (SDS_LANE_STATUS_PEND l) = 0 := by
    rw [State.laneFaulted, State.get_put_apart _ _ _ _ rfl (.inr (.inr ⟨show 3 < 4 by decide, le_refl 3⟩))]
    exact State.get_putB_same _ _ _ rfl
  have hstate : (s.laneFaulted l reason).get (SDS_LANE_STATUS_STATE l) = 4 := by
    rw [State.laneFaulted, State.get_put_apart _ _ _ _ rfl (.inr (.inr ⟨show 2 < 4 by decide, Nat.zero_le 2⟩))]
    refine (State.get_putB_apart _ _ _ _ rfl (.inr (.inr ⟨show 2 < 3 by decide, Nat.zero_le 2⟩))).trans ?_
    exact State.get_put_same _ _ _ rfl
  have hget := State.get_laneFault s l reason h
  refine ⟨?_, ?_, ?_, ?_, ?_⟩
  · show UState.ofCode ((s.laneFault l reason).get (SDS_LANE_STATUS_STATE l)) = .fault
    rw [hget _ rfl (by show 2 < 8; decide) (Nat.zero_le 2), hstate]
    rfl
  · show ((s.laneFault l reason).get (SDS_LANE_STATUS_PEND l) == 1) = false
    rw [hget _ rfl (by show 3 < 8; decide) (le_refl 3), hpend]
    rfl
  · rw [State.get_trackIrq, hget _ rfl (by show 7 < 8; decide) (by show 4 ≤ 7; decide), State.laneFaulted, State.get_put_same _ _ _ rfl]
    exact Nat.mod_eq_of_lt hr
  · rw [State.laneFault_eq l reason h]
    refine (((Posts.of_event s _ _ _ _ ?_ ?_ (hkeeps _ ?_) (by decide)).cause _).putB _ _).put _ _ |>.trackIrq
    · rw [hregs]
    · rw [hregs]
    · exact lane_off_ne_island l
  · rw [State.laneFault_eq l reason h]
    refine Touches.mk' ?_ ?_
    · rw [State.put_hidden, State.putB_hidden, State.cause_hidden, State.event_hidden, hregs.hidden]
    · exact ((((hkeeps.mono (by simp)).event _ _ _ (evtRegs_sub_right _)).cause _ (by simp [SDS_IRQ_CAUSE_LANE_FAULT])).putB _ _
        (by simp [SDS_LANE_STATUS_SIG_DET])).put _ _ (by simp [SDS_LANE_STATUS_PWR])

/-- The start actions of a lane end in ON at full power. -/
theorem State.ust_unitOn_lane (s : State) (l : Fin 52) : (s.unitOn (.lane l)).ust (.lane l) = .on := by
  show UState.ofCode (((s.setUst (.lane l) .on).put (SDS_LANE_STATUS_PWR l) 0).get (SDS_LANE_STATUS_STATE l)) = .on
  rw [State.get_put_apart _ _ _ _ rfl (.inr (.inr ⟨show 2 < 8 by decide, Nat.zero_le 2⟩))]
  exact s.ust_setUst_same (.lane l) .on

/-- A unit whose start time limit runs out is STOPPING with the fault recorded (R15, R16). -/
theorem State.limitExpired (s : State) (h : (∃ l, u = .lane l) ∨ ∃ n, u = .serial n) :
    let x := ((s.recordFault u (s.limitReason u)).setUst u .stopping).unitStop u
    x.ust u = .stopping ∧ x.unitFaults = (s.recordFault u 2).unitFaults ∧ RegsOnly (s.recordFault u 2) x ∧
      Keeps s x [(stateFld u).off] := by
  rcases h with ⟨l, rfl⟩ | ⟨n, rfl⟩
  · refine ⟨?_, by simp [State.unitStop, State.limitReason], ?_, ?_⟩
    · show UState.ofCode ((((s.recordFault (.lane l) 2).setUst (.lane l) .stopping).put (SDS_LANE_STATUS_PWR l) 3).get
        (SDS_LANE_STATUS_STATE l)) = .stopping
      rw [State.get_put_apart _ _ _ _ rfl (.inr (.inr ⟨show 2 < 8 by decide, Nat.zero_le 2⟩))]
      exact State.ust_setUst_same _ (.lane l) .stopping
    · exact ((RegsOnly.refl _).setUst _ _ (by simp)).put _ _
    · exact (((Keeps.refl s _) : Keeps s (s.recordFault _ 2) _).setUst (.lane l) _ List.mem_cons_self).put _ _ List.mem_cons_self
  · refine ⟨State.ust_setUst_same _ (.serial n) .stopping, by simp [State.unitStop, State.limitReason], ?_, ?_⟩
    · exact (RegsOnly.refl _).setUst (.serial n) _ (by simp)
    · exact ((Keeps.refl s _) : Keeps s (s.recordFault _ 2) _).setUst (.serial n) _ List.mem_cons_self

end UnitEvents


/-- Settles O8: each event is one transition of R15, which the lemma cited in its clause states for the unit. -/
theorem unitStateEvents : Obligations.UnitStateEvents := by
  refine ⟨?_, ?_, ?_, ?_, ?_, ?_⟩
  · intro s u hu hr
    refine ⟨(s.unitOn u).trackIrq, congrArg finish (if_pos hr), ?_⟩
    rcases hu with ⟨hu, hslot⟩ | ⟨l, rfl⟩
    · have hne := plainUnit_ne_mirror hu
      rw [State.unitOn_plain hu hslot, State.ust_trackIrq]
      exact ⟨s.ust_setUst_same u .on,
        Silent.of_regsOnly ((RegsOnly.refl s).setUst _ _ hne) ((Keeps.refl s _).setUst _ _ List.mem_cons_self)⟩
    · rw [State.ust_trackIrq]
      exact ⟨s.ust_unitOn_lane l, Silent.of_regsOnly (((RegsOnly.refl s).setUst _ _ (by simp)).put _ _)
        (((Keeps.refl s _).setUst (.lane l) _ List.mem_cons_self).put _ _ List.mem_cons_self)⟩
  · intro s u hu hr hf hp
    obtain ⟨-, -, hne⟩ := s.stops_plain_or_lane hu
    refine ⟨_, congrArg finish (State.stopComplete_off hu hr hf hp), ?_, ?_, ?_⟩
    · rw [State.ust_trackIrq, State.ust_setUst_same]
    · rw [State.pend_trackIrq, State.pend_setUst _ _ _ hne, State.pend_setPend _ _ _ hne]
    · exact Silent.of_regsOnly (((RegsOnly.refl s).setPend _ _ hne).setUst _ _ hne)
        (((Keeps.refl s _).setPend _ _ List.mem_cons_self).setUst _ _ List.mem_cons_self)
  · intro s l r hr hf
    have hstart := State.ust_setUst_same ((s.dropFault (.lane l)).setPend (.lane l) false) (.lane l) .starting
    obtain ⟨hust, -, hreason, -, hhidden, -⟩ := State.laneFault_shows _ l r r.isLt (.inl hstart)
    refine ⟨_, congrArg finish (State.stopComplete_fault (.inr ⟨l, rfl⟩) hr hf), hust, hreason, ?_⟩
    refine (State.faultRec_congr ?_ _).trans (s.faultRec_dropFault (.lane l))
    exact (congrArg State.unitFaults hhidden).trans (by simp [State.hidden])
  · intro s u hu hl
    obtain ⟨hust, hfaults, hregs, hkeeps⟩ := s.limitExpired hu
    refine ⟨_, congrArg finish (if_pos hl), ?_, ?_, ?_, hkeeps⟩
    · rw [State.ust_trackIrq]; exact hust
    · exact (State.faultRec_congr hfaults u).trans (s.faultRec_recordFault u 2)
    · rw [State.trackIrq_hidden, hregs.hidden]
      exact congrArg (fun f => { s.hidden with unitFaults := f }) hfaults.symm
  · intro s l reason hr hs
    have hreason : reason.val < 16 := reason.isLt
    have hrange : 1 ≤ reason.val ∧ reason.val ≤ faultReasons (.lane l) := by
      show 1 ≤ reason.val ∧ reason.val ≤ 2
      rcases hr with rfl | rfl <;> decide
    exact ⟨_, congrArg finish (if_pos hrange), s.laneFault_shows l reason hreason hs⟩
  · intro s u reason hu h1 h2 hn hs
    refine ⟨_, congrArg finish ((if_pos ⟨h1, h2⟩).trans (State.unitFault_stopping reason hu hn hs)), ?_, s.faultRec_recordFault u reason⟩
    rw [State.ust_trackIrq, State.ust_recordFault, hs]
end Sys2Proof.Machine

namespace Sys2Proof.Machine

/-! ### Byte strings in memory -/

theorem Mem.length_reads (m : Memory) (a n : Nat) : (Mem.reads m a n).length = n := by
  induction n generalizing a with
  | zero => rfl
  | succ n ih => simp [Mem.reads, ih]

theorem Mem.getElem_reads (m : Memory) (a n i : Nat) (h : i < (Mem.reads m a n).length) : (Mem.reads m a n)[i] = Mem.read m (a + i) := by
  induction n generalizing a i with
  | zero => simp [Mem.reads] at h
  | succ n ih =>
    cases i with
    | zero => rfl
    | succ i =>
      refine (ih (a + 1) i (by simpa [Mem.length_reads] using h)).trans ?_
      rw [Nat.add_assoc, Nat.add_comm 1 i]

/-- A byte string reads back as it was written. -/
theorem Mem.reads_writes_same (m : Memory) (a : Nat) (vs : List Byte) : Mem.reads (Mem.writes m a vs) a vs.length = vs := by
  refine List.ext_getElem (Mem.length_reads ..) fun i h hi => ?_
  rw [Mem.getElem_reads, Mem.read_writes_inside vs m a i hi]

theorem Mem.writes_append (m : Memory) (a : Nat) (xs ys : List Byte) :
    Mem.writes m a (xs ++ ys) = Mem.writes (Mem.writes m a xs) (a + xs.length) ys := by
  induction xs generalizing m a with
  | nil => rfl
  | cons x xs ih =>
    refine (ih (Mem.write m a x) (a + 1)).trans ?_
    rw [List.length_cons, Nat.add_assoc, Nat.add_comm 1]
    rfl

theorem length_leBytes (n v : Nat) : (leBytes n v).length = n := by
  induction n generalizing v with
  | zero => rfl
  | succ n ih => simp [leBytes, ih]

/-! ### Row activation (R444, R455, R456) -/

section Dram
variable {s : State}

/-- A state that differs from another in registers and the memory controller's record alone. -/
theorem RegsOnly.dramAct (s : State) (a : Nat) : RegsOnly { s with dmc := (s.dramAct a).dmc } (s.dramAct a) := by
  unfold State.dramAct
  dsimp only
  split
  · exact RegsOnly.refl s
  · split
    · exact (RegsOnly.refl _).addSat _ _
    · exact RegsOnly.refl _

theorem Keeps.dramAct (s : State) (a : Nat) : Keeps s (s.dramAct a) [DMC_RH_COUNT] := by
  unfold State.dramAct
  dsimp only
  split
  · exact Keeps.refl s _
  · split
    · exact Keeps.addSat (fun _ _ => rfl) _ _ (by decide)
    · exact fun _ _ => rfl

theorem State.dramAct_cfg (s : State) (a : Nat) : (s.dramAct a).dmc.cfg = s.dmc.cfg := by
  unfold State.dramAct
  dsimp only
  split
  · rfl
  · split
    · rw [State.addSat_dmc]
    · rfl

@[simp] theorem State.dramAct_hif (s : State) (a : Nat) : (s.dramAct a).hif = s.hif := by rw [RegsOnly.dramAct]
@[simp] theorem State.dramAct_dram (s : State) (a : Nat) : (s.dramAct a).dram = s.dram := by rw [RegsOnly.dramAct]
@[simp] theorem State.dramAct_poison (s : State) (a : Nat) : (s.dramAct a).poison = s.poison := by rw [RegsOnly.dramAct]

theorem State.dmcCfg_dramAct (s : State) (a : Nat) : (s.dramAct a).dmcCfg = s.dmcCfg := by
  rw [State.dmcCfg, State.dmcCfg, State.dramAct_cfg, Keeps.dramAct s a DMC_CFG (by decide)]

/-! ### Reads of blocks (R449 to R452) -/

section ReadBlock
variable {b src : Nat} {errs : List SymErr} {e : EccRead}

/-- A read without errors only activates its row. -/
theorem State.readBlock_clean (he : e = eccDecode (Mem.reads s.dram b 64) (s.poisoned b) errs) (hp : e.poisoned = false)
    (hd : e.devices = []) : s.readBlock b src errs = (s.dramAct b, e) := by
  simp only [State.readBlock, ← he, hp, hd, Bool.false_eq_true, if_false, if_true]

/-- A read that cannot be decoded activates its row and is an uncorrectable error. -/
theorem State.readBlock_poisoned (he : e = eccDecode (Mem.reads s.dram b 64) (s.poisoned b) errs) (hp : e.poisoned = true) :
    s.readBlock b src errs = ((s.dramAct b).dramUe b src e, e) := by
  simp only [State.readBlock, ← he, hp, if_true]

theorem State.dramUe_dram (s : State) (b src : Nat) (e : EccRead) : (s.dramUe b src e).dram = s.dram := by
  unfold State.dramUe
  dsimp only
  split_ifs <;> simp

theorem State.devCe_dram (s : State) (i : Nat) : (s.devCe i).dram = s.dram := by
  unfold State.devCe
  dsimp only
  split <;> simp

theorem State.foldl_devCe_dram (g : State → Nat → Nat) (ds : List Nat) (s : State) :
    (ds.foldl (fun s d => s.devCe (g s d)) s).dram = s.dram :=
  List.foldlRecOn (motive := fun x : State => x.dram = s.dram) ds _ rfl
    fun x hx _ _ => (State.devCe_dram x _).trans hx

/-- No read changes what the DRAM holds. -/
theorem State.readBlock_dram (s : State) (b src : Nat) (errs : List SymErr) : (s.readBlock b src errs).1.dram = s.dram := by
  have hfold := State.foldl_devCe_dram (fun s d => devIndex (dramCoord s.dmcCfg b) d)
  unfold State.readBlock
  dsimp only
  split
  · rw [State.dramUe_dram, State.dramAct_dram]
  · split
    · exact State.dramAct_dram s b
    · split <;> simp only [hfold, State.addSat_dram, State.dramAct_dram]

theorem State.dramGet_dram (s : State) (a len src : Nat) : (s.dramGet a len src).1.dram = s.dram := by
  refine List.foldlRecOn (motive := fun x : State × Bool => x.1.dram = s.dram) (blocksOf a len) _ rfl fun x hx b _ => ?_
  have hblock := State.readBlock_dram x.1 b src []
  dsimp only
  generalize State.readBlock x.1 b src [] = p at hblock
  exact hblock.trans hx

end ReadBlock

/-! ### Writes of whole blocks (R451) -/

theorem blocksOf_block {a : Nat} (ha : a % 64 = 0) : blocksOf a 64 = [a] := by
  have hcount : (a + 64 - 1) / 64 - a / 64 + 1 = 1 := by omega
  have haddr : 64 * (a / 64) = a := by omega
  rw [blocksOf, if_neg (by decide), hcount]
  simp [haddr]

section WriteBlock
variable {b : Nat} {data : List Byte} {errs : List SymErr}

/-- A write of one whole block of the installed DRAM that no training holds. -/
theorem State.dramWrite_block (hready : s.on DMC_STATUS_READY = true) (ha : b % 64 = 0) (hlen : data.length = 64)
    (hsize : b + 64 ≤ s.dramSize) (hheld : s.rangeHeld b 64 = false) : s.dramWrite b data errs = s.writeBlock b 0 data errs := by
  have hslice : slice data 0 64 = data := by simp [slice, ← hlen]
  have hin : ¬ s.dramSize < b + 64 := by omega
  simp [State.dramWrite, hready, hlen, hin, hheld, State.dramPut, blocksOf_block ha, hslice]

theorem State.writeBlock_full (off : Nat) (hlen : data.length = 64) :
    s.writeBlock b off data errs =
      ({ (s.dramAct b).wbNewer b with dram := Mem.writes s.dram b data }).setPoison b false := by
  simp only [State.writeBlock, hlen, if_true, State.wbNewer, State.dramAct_dram]

theorem State.poisoned_setPoison_same (s : State) (b : Nat) : (s.setPoison b false).poisoned b = false := by
  simp [State.poisoned, State.setPoison]

theorem State.poisoned_setPoison_ne (s : State) {b c : Nat} (h : c / 64 ≠ b / 64) : (s.setPoison b false).poisoned c = s.poisoned c := by
  simp [State.poisoned, State.setPoison, h]

/-- A write of a whole block stores it, clears its poison mark, and changes no other byte and no other mark. -/
theorem State.writeBlock_stores (off : Nat) (hlen : data.length = 64) :
    let t := s.writeBlock b off data errs
    Mem.reads t.dram b 64 = data ∧ t.poisoned b = false ∧
      (∀ a, a < b ∨ b + 64 ≤ a → Mem.read t.dram a = Mem.read s.dram a) ∧
      (∀ c, c / 64 ≠ b / 64 → t.poisoned c = s.poisoned c) := by
  rw [State.writeBlock_full off hlen]
  refine ⟨?_, State.poisoned_setPoison_same _ b, fun a h => ?_, fun c h => ?_⟩
  · exact hlen ▸ Mem.reads_writes_same s.dram b data
  · exact Mem.read_writes_outside data s.dram b a (by omega)
  · refine (State.poisoned_setPoison_ne _ h).trans ?_
    simp only [State.poisoned, State.wbNewer, State.dramAct_poison]

/-- It changes nothing besides but the memory controller's record and the count of guarded rows. -/
theorem State.writeBlock_frame (off : Nat) (hlen : data.length = 64) :
    let t := s.writeBlock b off data errs
    RegsOnly { s with dmc := t.dmc, dram := t.dram, poison := t.poison } t ∧ Keeps s t [DMC_RH_COUNT] := by
  rw [State.writeBlock_full off hlen]
  refine ⟨?_, Keeps.dramAct s b⟩
  rw [RegsOnly.dramAct s b]
  rfl

end WriteBlock

end Dram
end Sys2Proof.Machine

namespace Sys2Proof.Machine

/-! ### Mailboxes (R76, R100, R101) -/

section Mailboxes
variable {s : State}

/-- An index that does not reach the ring's end advances by one (R69, R74). -/
theorem State.get_advanceIndex (n : Nat) (h : s.get (HIF_RING_STATUS_INDEX n) + 1 < s.ringSize n) (hsize : s.ringSize n ≤ 65536) :
    (s.advanceIndex n).get (HIF_RING_STATUS_INDEX n) = s.get (HIF_RING_STATUS_INDEX n) + 1 := by
  rw [State.advanceIndex, if_neg (by omega), State.get_wbDue, State.get_put_same _ _ _ rfl]
  exact Nat.mod_eq_of_lt (show _ < 2 ^ 16 by omega)

theorem Keeps.advanceIndex {x : State} {l : List Nat} (h : Keeps s x l) (n : Nat) (hn : HIF_RING_STATUS n ∈ l) :
    Keeps s (x.advanceIndex n) l :=
  fun a ha => (State.rget_advanceIndex x n a fun e => ha (e ▸ hn)).trans (h a ha)

@[simp] theorem State.advanceIndex_hostMem (s : State) (n : Nat) : (s.advanceIndex n).hostMem = s.hostMem := by
  unfold State.advanceIndex
  split <;> simp only [State.wbDue, State.setRing, State.putB_hostMem, State.put_hostMem]

@[simp] theorem State.advanceIndex_mbxWait (s : State) (n : Nat) : (s.advanceIndex n).hif.mbxWait = s.hif.mbxWait := by
  rw [State.advanceIndex_hif]; rfl

/-- The bytes of MBX_OUT's first word (R101). -/
def State.mbxHead (s : State) (e : DescBits) : List Byte :=
  [BitVec.ofNat 8 (dfield e 0 1), BitVec.ofNat 8 (128 * b2n (s.on (HIF_RING_STATUS_PHASE 9)))] ++ leBytes 2 ((s.ring 9).written % 65536)

theorem State.mbxWrite_hostMem (s : State) (e : DescBits) : (s.mbxWrite e).hostMem =
    Mem.writes s.hostMem (s.ringBase 9 + 64 * s.get (HIF_RING_STATUS_INDEX 9)) (s.mbxHead e ++ leBytes 60 (dfield e 4 60)) := by
  rw [State.mbxWrite, State.cause_hostMem, State.advanceIndex_hostMem]
  rfl

/-- An entry of MBX_OUT carries the message behind its first word (R101). -/
theorem State.mbxWrite_payload (s : State) (e : DescBits) :
    Mem.reads (s.mbxWrite e).hostMem (s.ringBase 9 + 64 * s.get (HIF_RING_STATUS_INDEX 9) + 4) 60 = leBytes 60 (dfield e 4 60) := by
  rw [State.mbxWrite_hostMem, Mem.writes_append]
  exact (length_leBytes 60 (dfield e 4 60)) ▸ Mem.reads_writes_same _ _ _

/-- Writing an entry advances the index, sets the cause and changes no other register. -/
theorem State.mbxWrite_shows (s : State) (e : DescBits) (h : s.get (HIF_RING_STATUS_INDEX 9) + 1 < s.ringSize 9)
    (hsize : s.ringSize 9 ≤ 65536) :
    (s.mbxWrite e).on HIF_IRQ_CAUSE_MBX_OUT = true ∧
      (s.mbxWrite e).get (HIF_RING_STATUS_INDEX 9) = s.get (HIF_RING_STATUS_INDEX 9) + 1 ∧
      (s.mbxWrite e).hif.mbxWait = s.hif.mbxWait ∧ (s.mbxWrite e).hidden = s.hidden ∧
      Keeps s (s.mbxWrite e) [HIF_IRQ_CAUSE, HIF_RING_STATUS 9] := by
  unfold State.mbxWrite
  dsimp only
  refine ⟨State.on_cause_same _ _ rfl, ?_, ?_, ?_, ?_⟩
  · rw [State.get_cause_apart _ _ _ rfl (by decide)]
    exact State.get_advanceIndex (s := State.setRing _ _ _) 9 h hsize
  · rw [State.cause_hif, State.advanceIndex_mbxWait]; rfl
  · rw [State.cause_hidden, State.advanceIndex_hidden, State.setRing_hidden]; rfl
  · exact Keeps.cause (Keeps.advanceIndex (fun _ _ => rfl) 9 (by decide)) _ (by decide)

end Mailboxes

/-! ### The BAR4 window (R65) -/

theorem State.bar4Addr_mod (s : State) {addr : Nat} (h : addr % 64 = 0) : s.bar4Addr addr % 64 = 0 := by
  unfold State.bar4Addr
  omega

/-- A read through the window shows the DRAM's bytes, zeros beyond it, and leaves the DRAM alone (R65). -/
theorem State.bar4Get_data (s : State) (a len : Nat) : (s.bar4Get a len).hif.bar4Data =
    Mem.reads s.dram a (min len (s.dramSize - a)) ++ List.replicate (len - min len (s.dramSize - a)) 0 := rfl

theorem State.bar4Get_dram (s : State) (a len : Nat) : (s.bar4Get a len).dram = s.dram := by
  have h := s.dramGet_dram a (min len (s.dramSize - a)) 3
  unfold State.bar4Get
  dsimp only
  generalize s.dramGet a (min len (s.dramSize - a)) 3 = r at h
  exact h

/-- Settles O13: descriptors and messages follow `State.mbxWrite_shows`, the window the block reads and writes of the DRAM. -/
theorem mailboxesAndWindow : Obligations.MailboxesAndWindow := by
  refine ⟨?_, ?_, ?_, ?_, ?_, ?_, ?_⟩
  · intro s d hd hop
    have heff : execMbxInDescriptor s = finish (s.startDesc 6 d.seq) := by
      simp only [execMbxInDescriptor, hd, hop, if_true]
    exact ⟨_, heff, rfl, rfl, rfl, fun _ _ => rfl⟩
  · intro s seq result d hd hstart hstale hnotify
    have heff : execMbxDone seq result s =
        finish (s.complete 6 seq.toNat 2 Ev.MBX_DONE stOK 0xFFFF [result.toNat] false) := by
      simp only [execMbxDone, hd, hstart, if_true]
    refine ⟨_, heff, ?_, State.complete_hidden .., (Keeps.refl s _).complete _ _ _ _ _ _ _ _ fun _ h => h⟩
    exact (Completes.of_complete s s _ _ _ _ _ _ _ _ d rfl rfl rfl hd hstale (.inr hnotify) (by decide) (by decide)).after fun _ h => h
  · intro s e hroom hwait hidx hsize
    have heff : execMbxOutPost e s = finish (s.mbxWrite e) := by
      simp only [execMbxOutPost, hroom, hwait, and_self, if_true]
    obtain ⟨hcause, hindex, -, hhidden, hkeeps⟩ := s.mbxWrite_shows e hidx hsize
    exact ⟨_, heff, hcause, hindex, s.mbxWrite_payload e, hhidden, hkeeps⟩
  · intro s e hroom
    have heff : execMbxOutPost e s = finish { s with hif := { s.hif with mbxWait := s.hif.mbxWait ++ [e] } } := by
      simp only [execMbxOutPost, hroom, Bool.false_eq_true, false_and, if_false]
    exact ⟨_, heff, rfl, rfl, fun _ _ => rfl⟩
  · intro s e hwait hroom hidx hsize
    have heff : execMbxOutSpaceFree s = finish (({ s with hif := { s.hif with mbxWait := [] } } : State).mbxWrite e) := by
      simp only [execMbxOutSpaceFree, hwait, List.length_cons, List.length_nil, State.mbxDrain, hroom, if_true]
    obtain ⟨hcause, hindex, hempty, hhidden, hkeeps⟩ :=
      ({ s with hif := { s.hif with mbxWait := [] } } : State).mbxWrite_shows e hidx hsize
    exact ⟨_, heff, hempty, hcause, hindex, hhidden, hkeeps⟩
  · intro s addr len hi hwin hheld
    have heff : execBar4Read addr len s = finish (s.bar4Get (s.bar4Addr addr) len) := by
      simp only [execBar4Read, hi, hwin, and_self, if_true, State.dramReq, hheld, Bool.false_eq_true, if_false]
    exact ⟨_, heff, s.bar4Get_data _ _, s.bar4Get_dram _ _⟩
  · intro s addr data hi hwin hwr hready hlen ha hsize hheld
    have heff : execBar4Write addr data s = finish (s.writeBlock (s.bar4Addr addr) 0 data []) := by
      simp only [execBar4Write, hi, hlen, hwin, hwr, and_self, if_true,
        State.dramWrite_block hready (s.bar4Addr_mod ha) hlen hsize hheld]
    obtain ⟨hstored, hclean, hother, -⟩ := State.writeBlock_stores (s := s) (b := s.bar4Addr addr) (errs := []) 0 hlen
    exact ⟨_, heff, hstored, hother, hclean⟩
end Sys2Proof.Machine

namespace Sys2Proof.Machine

section DramAccesses
variable {s : State}

/-- A command that gives `u` and changes registers besides. -/
theorem Alters.of_regsOnly {u x : State} {offs : List Nat} (hu : u.hif = s.hif) (h : RegsOnly u x) (hk : Keeps s x offs) :
    Alters s x.trackIrq u offs := by
  refine ⟨?_, hk⟩
  rw [← hu]
  simp only [State.trackIrq]
  rw [h]

theorem State.get_addSat_same (s : State) (f : Fld) (n : Nat) (h : f.ok = true) : (s.addSat f n).get f = min f.max (s.get f + n) := by
  have hmax : f.max < 2 ^ (f.hi - f.lo + 1) := Nat.sub_lt (Nat.two_pow_pos _) Nat.one_pos
  rw [State.addSat, State.get_put_same _ _ _ h]
  exact Nat.mod_eq_of_lt (lt_of_le_of_lt (min_le_left _ _) hmax)

/-! ### Uncorrectable errors (R452) -/

/-- The error latch as the first uncorrectable read of block `b` fills it. -/
def State.latchUe (s : State) (b src : Nat) (e : EccRead) : State :=
  ((((((s.addSat DMC_UE_COUNT_COUNT 1).put DMC_ERR_ADDR_LO_ADDR (b % 2 ^ 32)).put DMC_ERR_ADDR_HI_ADDR (b / 2 ^ 32)).put
    DMC_ERR_INFO_SRC src).put DMC_ERR_INFO_CW e.cw).putB DMC_ERR_INFO_MARK e.mark).putB DMC_ERR_INFO_VALID true

/-- Note for the pair that the DRAM had an uncorrectable error. -/
def State.markUe (s : State) : State := { s with par := { s.par with dramUe := true } }

theorem State.get_markUe (s : State) (f : Fld) : s.markUe.get f = s.get f := rfl
theorem State.on_markUe (s : State) (f : Fld) : s.markUe.on f = s.on f := rfl

theorem State.hidden_markUe (s : State) : s.markUe.hidden = s.hidden.markUe := rfl
theorem Keeps.markUe {x : State} {l : List Nat} (h : Keeps s x l) : Keeps s x.markUe l := h

theorem State.dramUe_first (b src : Nat) (e : EccRead) (hm : e.mark = false) (hv : s.on DMC_ERR_INFO_VALID = false) :
    s.dramUe b src e = (((s.latchUe b src e).markUe.event Ev.DRAM_UE (dramCoord s.dmcCfg b).subch [b, src, e.cw]).cause
      DMC_IRQ_CAUSE_UE) := by
  have hv' : (s.addSat DMC_UE_COUNT_COUNT 1).on DMC_ERR_INFO_VALID = false :=
    (State.on_put_apart _ _ _ _ rfl (by decide)).trans hv
  simp only [State.dramUe, hv', hm, Bool.false_eq_true, if_false]
  rw [State.latchUe, hm]
  rfl

/-- The registers of the first uncorrectable error. -/
def ueRegs : List Nat := [DMC_UE_COUNT, DMC_ERR_ADDR_LO, DMC_ERR_ADDR_HI, DMC_ERR_INFO, DMC_IRQ_CAUSE]

theorem RegsOnly.latchUe (s : State) (b src : Nat) (e : EccRead) : RegsOnly s (s.latchUe b src e) :=
  ((((((((RegsOnly.refl s).addSat _ _).put _ _).put _ _).put _ _).put _ _).putB _ _).putB _ _)

theorem Keeps.latchUe (s : State) (b src : Nat) (e : EccRead) : Keeps s (s.latchUe b src e) (ueRegs ++ evtRegs) :=
  (((((((Keeps.refl s _).addSat _ _ (by decide)).put _ _ (by decide)).put _ _ (by decide)).put _ _ (by decide)).put _ _
    (by decide)).putB _ _ (by decide)).putB _ _ (by decide)

/-- The first uncorrectable read counts, is latched with its address and requester, and posts DRAM_UE (R452). -/
theorem State.dramUe_shows (b : Nat) (e : EccRead) (hm : e.mark = false) (hv : s.on DMC_ERR_INFO_VALID = false) :
    let t := s.dramUe b 4 e
    t.get DMC_UE_COUNT_COUNT = min (2 ^ 32 - 1) (s.get DMC_UE_COUNT_COUNT + 1) ∧ t.get DMC_ERR_ADDR_LO_ADDR = b % 2 ^ 32 ∧
      t.get DMC_ERR_INFO_SRC = 4 ∧ t.on DMC_ERR_INFO_VALID = true ∧
      Posts s t Ev.DRAM_UE (dramCoord s.dmcCfg b).subch [b, 4, e.cw] ∧
      t.hidden = s.markUe.hidden ∧ Keeps s t (ueRegs ++ evtRegs) := by
  have hregs := RegsOnly.latchUe s b 4 e
  have hkeeps := Keeps.latchUe s b 4 e
  rw [State.dramUe_first b 4 e hm hv]
  refine ⟨?_, ?_, ?_, ?_, ?_, ?_, ?_⟩
  · simp (disch := decide) only [State.get_cause_apart, State.get_event, State.get_markUe, State.latchUe, State.get_putB_apart,
      State.get_put_apart, State.get_addSat_same]
    rfl
  · simp (disch := decide) only [State.get_cause_apart, State.get_event, State.get_markUe, State.latchUe, State.get_putB_apart,
      State.get_put_apart, State.get_put_same]
    exact Nat.mod_mod _ _
  · simp (disch := decide) only [State.get_cause_apart, State.get_event, State.get_markUe, State.latchUe, State.get_putB_apart,
      State.get_put_apart, State.get_put_same]
    rfl
  · simp (disch := decide) only [State.on_cause_apart, State.on_event, State.on_markUe, State.latchUe, State.on_putB_same]
  · generalize s.latchUe b 4 e = y at hregs hkeeps
    have hhif : y.markUe.hif = s.hif := by rw [hregs]; rfl
    have htime : y.markUe.time = s.time := by rw [hregs]; rfl
    exact (Posts.of_event s y.markUe _ _ _ hhif htime (hkeeps (RST_ISLAND 1) (by decide)) (by decide)).cause _
  · rw [State.cause_hidden, State.event_hidden, State.hidden_markUe, hregs.hidden, State.hidden_markUe]
  · exact (hkeeps.markUe.event _ _ _ (evtRegs_sub_right _)).cause _ (by decide)

/-- A posted event is posted from any state with the same host interface, time and host island. -/
theorem Posts.of_start {s1 t : State} {c u : Nat} {p : List Nat} (h : Posts s1 t c u p) (hh : s1.hif = s.hif) (ht : s1.time = s.time)
    (hr : s1.rget (RST_ISLAND 1) = s.rget (RST_ISLAND 1)) : Posts s t c u p := by
  intro htakes
  have htakes1 : s1.takesEvents := by
    unfold State.takesEvents at *
    rwa [State.islandRuns_congr s s1 1 hr, hh]
  obtain ⟨x, hx, h1, h2, h3, h4, h5, h6⟩ := h htakes1
  refine ⟨x, hx, h1, h2, h3, h4, hh ▸ h5, ?_⟩
  rw [h6, State.now, State.now, ht]

/-- A firmware core's fault after a poisoned read (R452). -/
def State.coreFault (s : State) (core : Nat) : State := { s with dmc := { s.dmc with fwFault := some core } }

/-- A firmware core's read that cannot be decoded activates the row, is the uncorrectable error, and is a fault of the core. -/
theorem State.firmwareUe_shows (b core : Nat) (e : EccRead) (hm : e.mark = false) (hv : s.on DMC_ERR_INFO_VALID = false) :
    let t := (((s.dramAct b).dramUe b 4 e).coreFault core).trackIrq
    t.get DMC_UE_COUNT_COUNT = min (2 ^ 32 - 1) (s.get DMC_UE_COUNT_COUNT + 1) ∧ t.get DMC_ERR_ADDR_LO_ADDR = b % 2 ^ 32 ∧
      t.get DMC_ERR_INFO_SRC = 4 ∧ t.on DMC_ERR_INFO_VALID = true ∧ t.dmc.fwFault = some core ∧ t.par = { s.par with dramUe := true } ∧
      Posts s t Ev.DRAM_UE (dramCoord s.dmcCfg b).subch [b, 4, e.cw] ∧
      AltersPosting s t { s with dmc := t.dmc, par := t.par } (DMC_RH_COUNT :: ueRegs) := by
  have hkeeps := Keeps.dramAct s b
  have hkept : ∀ f : Fld, f.off ≠ DMC_RH_COUNT → (s.dramAct b).get f = s.get f := fun f hf =>
    State.get_eq_of_rget _ _ _ (hkeeps f.off (by simpa using hf))
  have hv' : (s.dramAct b).on DMC_ERR_INFO_VALID = false := (State.on_eq_of_get _ _ _ (hkept _ (by decide))).trans hv
  obtain ⟨hcount, haddr, hsrc, hvalid, hposts, hhidden, hkeeps'⟩ := State.dramUe_shows b e hm hv'
  rw [hkept _ (by decide)] at hcount
  rw [State.dmcCfg_dramAct] at hposts
  have hposts' := hposts.of_start (s.dramAct_hif b) (by rw [RegsOnly.dramAct]) (hkeeps _ (by decide))
  have hhidden' : ((s.dramAct b).dramUe b 4 e).hidden = ({ s.markUe with dmc := (s.dramAct b).dmc } : State).hidden := by
    rw [hhidden, RegsOnly.dramAct]
    rfl
  generalize (s.dramAct b).dramUe b 4 e = y at *
  have hpar : y.par = { s.par with dramUe := true } := congrArg State.par hhidden'
  refine ⟨hcount, haddr, hsrc, hvalid, rfl, hpar, hposts'.after fun _ h => h, ?_, ?_⟩
  · show ({ y.hidden with dmc := (y.coreFault core).dmc } : State) = { s.hidden with dmc := (y.coreFault core).dmc, par := y.par }
    rw [hhidden', hpar]
    rfl
  · exact (hkeeps.mono (by decide)).trans (hkeeps'.mono fun _ => List.mem_cons_of_mem _)

/-! ### The row-disturb guard (R455, R456) -/

theorem rhCount_single (row n : Nat) : rhCount [(row, n)] row = [(row, n + 1)] := by
  simp [rhCount]

/-- The memory controller's record after the guard acted for a row. -/
def State.guardRow (s : State) (c : DramCoord) : Dmc :=
  { s.dmc with
    rh := s.dmc.rh.set c.bank [(c.row, 0)]
    openRows := s.dmc.openRows.del c.bank
    guard := some (c.bank, guardRows c.row (s.on DMC_RH_CFG_NEIGH2), s.on DMC_RH_CFG_RFM_EN && s.dmc.rfmSupported) }

/-- An activate that brings a row's count to THRESH makes the guard act on its neighbours. -/
theorem State.dramAct_guards {a n : Nat} {c : DramCoord} (hc : c = dramCoord s.dmcCfg a) (hopen : s.dmc.openRows.has c.bank = false)
    (hrh : s.dmc.rh.get c.bank [] = [(c.row, n)]) (hen : s.on DMC_RH_CFG_EN = true) (hthresh : s.rhThresh ≤ n + 1) :
    s.dramAct a = ({ s with dmc := s.guardRow c } : State).addSat DMC_RH_COUNT_COUNT 1 := by
  simp [State.dramAct, ← hc, hopen, hrh, rhCount_single, hen, hthresh, State.guardRow]

/-! ### Patrol scrub and refresh (R446, R454) -/

/-- Move the patrol scrub to a block. -/
def State.setScrub (s : State) (n : Nat) : State := { s with dmc := { s.dmc with scrub := n } }

/-- The scrub of a clean block activates its row; before the end of the DRAM it shows the progress. -/
theorem State.patrolScrub_next {errs : List SymErr} {e : EccRead}
    (he : e = eccDecode (Mem.reads s.dram (64 * s.dmc.scrub) 64) (s.poisoned (64 * s.dmc.scrub)) errs) (hp : e.poisoned = false)
    (hd : e.devices = []) (hnext : s.dmc.scrub + 1 < s.dramSize / 64) :
    s.patrolScrub errs = ((s.dramAct (64 * s.dmc.scrub)).setScrub (s.dmc.scrub + 1)).put DMC_SCRUB_STATUS_PROGRESS
      ((s.dmc.scrub + 1) * 65536 / (s.dramSize / 64)) := by
  simp only [State.patrolScrub, State.readBlock_clean he hp hd, if_neg (Nat.not_le.mpr hnext)]
  rfl

/-- At the end of the DRAM a pass is complete. -/
theorem State.patrolScrub_pass {errs : List SymErr} {e : EccRead}
    (he : e = eccDecode (Mem.reads s.dram (64 * s.dmc.scrub) 64) (s.poisoned (64 * s.dmc.scrub)) errs) (hp : e.poisoned = false)
    (hd : e.devices = []) (hlast : s.dramSize / 64 = s.dmc.scrub + 1) :
    s.patrolScrub errs = (((s.dramAct (64 * s.dmc.scrub)).setScrub 0).put DMC_SCRUB_STATUS_PASSES
      (s.get DMC_SCRUB_STATUS_PASSES + 1)).put DMC_SCRUB_STATUS_PROGRESS 0 := by
  simp only [State.patrolScrub, State.readBlock_clean he hp hd, if_pos (le_of_eq hlast)]
  rfl

theorem RegsOnly.setScrub (s : State) (b n : Nat) :
    RegsOnly { s with dmc := ((s.dramAct b).setScrub n).dmc } ((s.dramAct b).setScrub n) := by
  rw [RegsOnly.dramAct s b]
  rfl

theorem Keeps.setScrub (s : State) (b n : Nat) : Keeps s ((s.dramAct b).setScrub n) [DMC_RH_COUNT, DMC_SCRUB_STATUS] :=
  fun a ha => Keeps.dramAct s b a (fun h => ha (List.mem_cons.mpr (.inl (List.mem_singleton.mp h))))

/-- The share of the DRAM that is scrubbed fits its field. -/
theorem scrubProgress_lt {k n : Nat} (h : k < n) : k * 65536 / n < 65536 :=
  Nat.div_lt_of_lt_mul (Nat.mul_lt_mul_of_pos_right h (by decide))

end DramAccesses

/-- Settles O50: reads and writes of blocks, row activation and uncorrectable errors by their lemmas above, the rest by its definition. -/
theorem dramAccesses : Obligations.DramAccesses := by
  refine ⟨?_, ?_, ?_, ?_, ?_, ?_, ?_, ?_, ?_, ?_, ?_⟩
  · intro s addr n errs e hready hsize hheld he hp hd
    have hsize' : ¬ s.dramSize ≤ addr := by omega
    have heff : execDramRead (.bar4 n) addr errs s = finish ((s.dramAct (addr / 64 * 64)).bar4Show (.bar4 n) addr e) := by
      simp only [execDramRead, State.dramRead, hready, hsize', hheld, Bool.false_eq_true, not_true_eq_false, or_self, if_false,
        State.readBlock_clean he hp hd, hp]
    have hhidden := (RegsOnly.dramAct s (addr / 64 * 64)).hidden
    have hkeeps := Keeps.dramAct s (addr / 64 * 64)
    generalize s.dramAct (addr / 64 * 64) = x at heff hhidden hkeeps
    exact ⟨_, heff, rfl, hp, hhidden, hkeeps⟩
  · intro s addr core errs e hready hsize hheld he hp hm hv
    have hsize' : ¬ s.dramSize ≤ addr := by omega
    have heff : execDramRead (.firmware core) addr errs s =
        finish (((s.dramAct (addr / 64 * 64)).dramUe (addr / 64 * 64) 4 e).coreFault core) := by
      simp only [execDramRead, State.dramRead, hready, hsize', hheld, Bool.false_eq_true, not_true_eq_false, or_self, if_false,
        State.readBlock_poisoned he hp, hp, if_true]
      rfl
    exact ⟨_, heff, State.firmwareUe_shows (addr / 64 * 64) core e hm hv⟩
  · intro s addr data hready ha hlen hsize hheld
    obtain ⟨hstored, hclean, hother, hmarks⟩ := State.writeBlock_stores (s := s) (b := addr) (errs := []) 0 hlen
    obtain ⟨hregs, hkeeps⟩ := State.writeBlock_frame (s := s) (b := addr) (errs := []) 0 hlen
    exact ⟨_, congrArg finish (State.dramWrite_block hready ha hlen hsize hheld), hstored, hclean, hother, hmarks,
      Alters.of_regsOnly rfl hregs hkeeps⟩
  · intro s addr data errs hready
    have heff : s.dramWrite addr data errs = s := by simp [State.dramWrite, hready]
    exact ⟨_, congrArg finish heff, Silent.refl s⟩
  · intro s a hwb
    have heff : s.eccWriteBack a =
        ({ s with dmc := { s.dmc with wb := s.dmc.wb.filter (fun x => x.1 != a) } } : State).addSat DMC_WB_DROP_COUNT_COUNT 1 := by
      simp only [State.eccWriteBack, hwb, if_true]
    refine ⟨_, congrArg finish heff, ?_, ?_⟩
    · rw [State.get_trackIrq, State.get_addSat_same _ _ _ rfl]; rfl
    · exact Alters.of_regsOnly rfl ((RegsOnly.refl _).addSat _ _) (Keeps.addSat (fun _ _ => rfl) _ _ (by decide))
  · intro s a n c hwb hc hopen hrh hen hthresh
    have hguard : s.eccWriteBack a = ({ s with dmc := { s.guardRow c with wb := s.dmc.wb.filter (fun x => x.1 != a) } } : State).addSat
        DMC_RH_COUNT_COUNT 1 := by
      simp only [State.eccWriteBack, hwb, Bool.false_eq_true, if_false]
      exact State.dramAct_guards (s := { s with dmc := { s.dmc with wb := s.dmc.wb.filter (fun x => x.1 != a) } }) hc hopen hrh hen hthresh
    refine ⟨_, congrArg finish hguard, ?_, rfl, rfl, AMap.get_set_same .., ?_⟩
    · rw [State.get_trackIrq, State.get_addSat_same _ _ _ rfl]; rfl
    · exact Alters.of_regsOnly rfl ((RegsOnly.refl _).addSat _ _) (Keeps.addSat (fun _ _ => rfl) _ _ (by decide))
  · intro s
    exact ⟨_, rfl, Alters.of_regsOnly rfl (RegsOnly.refl _) fun _ _ => rfl⟩
  · intro s errs e hen hready hheld he hp hd hnext
    have heff : execPatrolScrubRead errs s = finish (s.patrolScrub errs) := by
      simp only [execPatrolScrubRead, hen, hready, hheld, Bool.false_eq_true, not_false_eq_true, and_self, if_true]
    rw [State.patrolScrub_next he hp hd hnext] at heff
    refine ⟨_, heff, rfl, ?_, ?_⟩
    · rw [State.get_trackIrq, State.get_put_same _ _ _ rfl]
      exact Nat.mod_eq_of_lt (scrubProgress_lt hnext)
    · exact Alters.of_regsOnly rfl ((RegsOnly.setScrub s _ _).put _ _) ((Keeps.setScrub s _ _).put _ _ (by decide))
  · intro s errs e hen hready hheld he hp hd hlast
    have heff : execPatrolScrubRead errs s = finish (s.patrolScrub errs) := by
      simp only [execPatrolScrubRead, hen, hready, hheld, Bool.false_eq_true, not_false_eq_true, and_self, if_true]
    rw [State.patrolScrub_pass he hp hd hlast] at heff
    refine ⟨_, heff, rfl, ?_, ?_, ?_⟩
    · rw [State.get_trackIrq, State.get_put_same _ _ _ rfl, Nat.zero_mod]
    · rw [State.get_trackIrq, State.get_put_apart _ _ _ _ rfl (by decide), State.get_put_same _ _ _ rfl]
      rfl
    · exact Alters.of_regsOnly rfl (((RegsOnly.setScrub s _ _).put _ _).put _ _)
        (((Keeps.setScrub s _ _).put _ _ (by decide)).put _ _ (by decide))
  · intro s rank hdone hrank
    have heff : execRefreshDue rank false s = finish (s.refreshDue rank false) := by
      simp only [execRefreshDue, hdone, hrank, and_self, if_true]
    refine ⟨_, heff, Alters.of_regsOnly rfl ?_ fun _ _ => rfl⟩
    simp only [State.refreshDue, refreshIssues, Bool.false_eq_true, if_false, Nat.sub_self, Nat.succ_ne_zero]
    exact RegsOnly.refl _
  · intro s rank hdone hrank howed hlen
    have heff : execRefreshDue rank true s = finish (s.refreshDue rank true) := by
      simp only [execRefreshDue, hdone, hrank, and_self, if_true]
    have hissues : refreshIssues (s.dmc.owed.getD rank 0 + 1) (s.get DMC_REF_CFG_POSTPONE) true = 0 := Nat.sub_eq_zero_of_le howed
    have hrefs : s.dmc.refs.set rank (s.dmc.refs.getD rank 0) = s.dmc.refs := by
      rw [List.getD_eq_getElem _ _ (by omega), List.set_getElem_self]
    refine ⟨_, heff, Alters.of_regsOnly rfl ?_ fun _ _ => rfl⟩
    simp only [State.refreshDue, hissues, Nat.sub_zero, Nat.add_zero, hrefs, if_true]
    exact RegsOnly.refl _

end Sys2Proof.Machine

namespace Sys2Proof.Machine

/-! ### PGP_LINE_PERIOD and the minimum of the mode (R22, R23, R55) -/

section LinePeriod
variable {s : State} {v : Nat}

theorem State.periodWrite_below (h : v < minPeriod s.mode) :
    s.periodWrite v = (s.event' Ev.PERIOD_REFUSED [v, s.mode]).cause PGP_IRQ_CAUSE_PERIOD_REFUSED :=
  if_pos h

theorem State.periodWrite_taken (h : minPeriod s.mode ≤ v) :
    s.periodWrite v =
      (s.put PGP_LINE_PERIOD_PERIOD v).putB PGP_CLK_STATUS_PERIOD_PEND (v != s.get PGP_PERIOD_ACTIVE_PERIOD) :=
  if_neg (Nat.not_lt.mpr h)

/-- A refused period leaves the register as it is. -/
theorem State.get_linePeriod_below (h : v < minPeriod s.mode) :
    (s.periodWrite v).get PGP_LINE_PERIOD_PERIOD = s.get PGP_LINE_PERIOD_PERIOD := by
  rw [State.periodWrite_below h, State.get_cause_apart _ _ _ (by decide) (by decide), State.get_event' _ _ _ _ (by decide)]

/-- A period that is not refused is what the register holds: its field is the whole register. -/
theorem State.get_linePeriod_taken (h : minPeriod s.mode ≤ v) (hv : v < 2 ^ 32) :
    (s.periodWrite v).get PGP_LINE_PERIOD_PERIOD = v := by
  rw [State.periodWrite_taken h, State.get_putB_apart _ _ _ _ (by decide) (by decide), State.get_put_same _ _ _ (by decide)]
  exact Nat.mod_eq_of_lt hv

/-- The register does not come below the minimum by a write, whatever is written (R23). -/
theorem State.minPeriod_le_linePeriod (hs : minPeriod s.mode ≤ s.get PGP_LINE_PERIOD_PERIOD) (hv : v < 2 ^ 32) :
    minPeriod s.mode ≤ (s.periodWrite v).get PGP_LINE_PERIOD_PERIOD := by
  rcases Nat.lt_or_ge v (minPeriod s.mode) with hlow | htaken
  · rwa [State.get_linePeriod_below hlow]
  · rwa [State.get_linePeriod_taken htaken hv]

/-- The line period lies on the page island. -/
theorem execPgpLinePeriodWrite_runs {req : Fin 6} (w : Word) (hq : reaches req PGP_LINE_PERIOD = true)
    (hi : s.islandRuns 2 = true) : execPgpLinePeriodWrite req w s = finish (s.periodWrite w.toNat) :=
  congrArg finish (State.reqWrite_runs s req PGP_LINE_PERIOD _ hq hi)

/-- The write of a requester that does not reach the line period has no effect (R558). -/
theorem execPgpLinePeriodWrite_unreached {req : Fin 6} (w : Word) (hq : reaches req PGP_LINE_PERIOD = false) :
    execPgpLinePeriodWrite req w s = finish s := by
  simp [execPgpLinePeriodWrite, State.reqWrite, hq]

end LinePeriod

/-- Settles O17: a write is refused or taken by the minimum of the mode in force, and neither brings the register below it. -/
theorem linePeriodFloor : Obligations.LinePeriodFloor := by
  refine ⟨?refused, ?taken, ?floor⟩
  case refused =>
    intro s req v hreq hi hlow
    refine ⟨_, execPgpLinePeriodWrite_runs v (reaches_of_ne hreq _) hi, ?_, ?_, ?_, ?_⟩
    · rw [State.get_trackIrq, State.get_linePeriod_below hlow]
    · rw [State.periodWrite_below hlow]
      exact ((Posts.of_event s s _ _ _ rfl rfl rfl (by decide)).cause _).trackIrq
    · rw [State.on_trackIrq, State.periodWrite_below hlow, State.on_cause_same _ _ (by decide)]
    · rw [State.periodWrite_below hlow]
      refine Touches.mk' ?_ (((Keeps.refl s _).event' _ _ (by decide)).cause _ (by decide))
      rw [State.cause_hidden, State.event'_hidden]
  case taken =>
    intro s req v hreq hi htaken
    refine ⟨_, execPgpLinePeriodWrite_runs v (reaches_of_ne hreq _) hi, ?_, ?_, ?_⟩
    · rw [State.get_trackIrq, State.get_linePeriod_taken htaken v.isLt]
    · rw [State.on_trackIrq, State.periodWrite_taken htaken, State.on_putB_same _ _ _ (by decide)]
    · rw [State.periodWrite_taken htaken]
      exact Silent.of_regsOnly (((RegsOnly.refl s).put _ _).putB _ _)
        (((Keeps.refl s _).put _ _ (by decide)).putB _ _ (by decide))
  case floor =>
    intro s req v hs hi
    cases hq : reaches req PGP_LINE_PERIOD with
    | false => exact ⟨_, execPgpLinePeriodWrite_unreached v hq, hs⟩
    | true => exact ⟨_, execPgpLinePeriodWrite_runs v hq hi, State.minPeriod_le_linePeriod hs v.isLt⟩

end Sys2Proof.Machine

namespace Sys2Proof.Machine

/-! ### What a tick leaves alone: PRESS_TIME with the press line, and the press record -/

/-- A projection that every step of a fold keeps is kept by the fold. -/
theorem foldl_keeps {σ α β : Type} (π : σ → β) {f : σ → α → σ} (h : ∀ x a, π (f x a) = π x) (l : List α) (x : σ) :
    π (l.foldl f x) = π x :=
  List.foldlRecOn (motive := fun y => π y = π x) l f rfl fun y hy a _ => (h y a).trans hy

/-- The clocks with the press line, and the record of the press and its job. -/
def State.pressSide (s : State) : TimeState × Press := (s.time, s.press)

/-- The clocks with the press line, and whether a job is open. -/
def jobOpen (x : TimeState × Press) : TimeState × Bool := (x.1, x.2.job.isSome)

/-- The clocks with the press line, and the recovery of an open job. -/
def jobResume (x : TimeState × Press) : TimeState × Option (Option Recovery) := (x.1, x.2.job.map (·.recovery))

theorem jobOpen_of_jobResume {x y : TimeState × Press} (h : jobResume x = jobResume y) : jobOpen x = jobOpen y := by
  obtain ⟨htime, hjob⟩ := Prod.mk.inj h
  have hsome := congrArg Option.isSome hjob
  rw [Option.isSome_map, Option.isSome_map] at hsome
  exact Prod.ext htime hsome

section PressSide
variable (s : State)

theorem State.pressSide_of_hidden {s x : State} (h : x.hidden = s.hidden) : x.pressSide = s.pressSide := by
  have hside := congrArg State.pressSide h
  exact hside

/-! #### Records and registers -/

@[simp] theorem State.put_pressSide (f : Fld) (x : Nat) : (s.put f x).pressSide = s.pressSide := rfl
@[simp] theorem State.putB_pressSide (f : Fld) (b : Bool) : (s.putB f b).pressSide = s.pressSide := rfl
@[simp] theorem State.putS_pressSide (f : Fld) (x : Int) : (s.putS f x).pressSide = s.pressSide := rfl
@[simp] theorem State.addSat_pressSide (f : Fld) (n : Nat) : (s.addSat f n).pressSide = s.pressSide := rfl
@[simp] theorem State.cause_pressSide (f : Fld) : (s.cause f).pressSide = s.pressSide := rfl
@[simp] theorem State.setCal_pressSide (x : Cal) : (s.setCal x).pressSide = s.pressSide := rfl
@[simp] theorem State.setLdg_pressSide (x : Ledger) : (s.setLdg x).pressSide = s.pressSide := rfl
@[simp] theorem State.setBar_pressSide (q : Nat) (b : Bar) : (s.setBar q b).pressSide = s.pressSide := rfl
@[simp] theorem State.setPort_pressSide (p : Nat) (x : Port) : (s.setPort p x).pressSide = s.pressSide := rfl
@[simp] theorem State.setCtl_pressSide (p slot : Nat) (x : CtlSlot) : (s.setCtl p slot x).pressSide = s.pressSide := rfl
@[simp] theorem State.startDesc_pressSide (n seq : Nat) : (s.startDesc n seq).pressSide = s.pressSide := rfl
@[simp] theorem State.evtPost_pressSide (e : EvtEntry) : (s.evtPost e).pressSide = s.pressSide :=
  State.pressSide_of_hidden (s.evtPost_hidden e)
@[simp] theorem State.event_pressSide (c u : Nat) (p : List Nat) : (s.event c u p).pressSide = s.pressSide := s.evtPost_pressSide _
@[simp] theorem State.event'_pressSide (c : Nat) (p : List Nat) : (s.event' c p).pressSide = s.pressSide := s.evtPost_pressSide _
@[simp] theorem State.complete_pressSide (n seq typ code status unit : Nat) (p : List Nat) (a : Bool) :
    (s.complete n seq typ code status unit p a).pressSide = s.pressSide :=
  State.pressSide_of_hidden (s.complete_hidden n seq typ code status unit p a)
@[simp] theorem State.showLine_pressSide (x : Nat) : (s.showLine x).pressSide = s.pressSide := rfl
@[simp] theorem State.webPlan_pressSide (m : Nat) (p : WebPlan) : (s.webPlan m p).pressSide = s.pressSide := rfl
@[simp] theorem State.webPark_pressSide (x : Int) : (s.webPark x).pressSide = s.pressSide := by
  rw [State.webPark, State.put_pressSide, State.webPlan_pressSide]
@[simp] theorem State.webDecel_pressSide : s.webDecel.pressSide = s.pressSide := s.webPlan_pressSide 3 _
@[simp] theorem State.dropCoverage_pressSide (q x : Nat) : (s.dropCoverage q x).pressSide = s.pressSide := rfl
@[simp] theorem State.forceMasks_pressSide (g first : Nat) (ms : List Nat) : (s.forceMasks g first ms).pressSide = s.pressSide := rfl
@[simp] theorem State.trimStepLine_pressSide (q x : Nat) : (s.trimStepLine q x).pressSide = s.pressSide := rfl
@[simp] theorem State.snapPlane_pressSide (q x : Nat) (codes dead : List Nat) :
    (s.snapPlane q x codes dead).pressSide = s.pressSide := rfl

/-! #### The journal, the ledger and the head link -/

@[simp] theorem State.mirrorSend_pressSide (m : MirrorMsg) : (s.mirrorSend m).pressSide = s.pressSide := by
  unfold State.mirrorSend; split <;> rfl

@[simp] theorem State.jrn_pressSide (r : JrnRec) : (s.jrn r).pressSide = s.pressSide := by
  unfold State.jrn; split <;> simp

@[simp] theorem State.showHeld_pressSide : s.showHeld.pressSide = s.pressSide := by
  unfold State.showHeld; dsimp only; split_ifs <;> simp

@[simp] theorem State.touch_pressSide (a : Nat) (eff : Option Nat) : (s.touch a eff).pressSide = s.pressSide := by
  unfold State.touch; split <;> simp

@[simp] theorem State.odometer_pressSide (mode : Nat) : (s.odometer mode).pressSide = s.pressSide := by
  unfold State.odometer; dsimp only; split_ifs <;> simp

@[simp] theorem State.applyChanges_pressSide : s.applyChanges.pressSide = s.pressSide :=
  foldl_keeps State.pressSide (fun _ _ => State.forceMasks_pressSide ..) _ _

@[simp] theorem State.sendTicks_pressSide : s.sendTicks.pressSide = s.pressSide :=
  foldl_keeps State.pressSide (fun x p => by split <;> simp) _ _

@[simp] theorem State.sendPacket_pressSide (p slot : Nat) (b : PacketBody) : (s.sendPacket p slot b).pressSide = s.pressSide := by
  unfold State.sendPacket; dsimp only; split_ifs <;> simp

@[simp] theorem State.sendCtl_pressSide (p slot op : Nat) (imm : Bool) (line : Nat) (payload : List Byte) (jl : Option Nat) :
    (s.sendCtl p slot op imm line payload jl).pressSide = s.pressSide := by
  unfold State.sendCtl; split <;> simp

@[simp] theorem State.handPacket_pressSide (e : MapEntry) (x press : Nat) (last : Bool) (codes : List Nat) :
    (s.handPacket e x press last codes).pressSide = s.pressSide := by
  unfold State.handPacket; dsimp only; split_ifs <;> simp

@[simp] theorem State.handLine_pressSide (q x m press : Nat) (last : Bool) (codes : List Nat) :
    (s.handLine q x m press last codes).pressSide = s.pressSide :=
  foldl_keeps State.pressSide (fun _ _ => State.handPacket_pressSide ..) _ _

@[simp] theorem State.cancelPlane_pressSide (j : Job) (q x : Nat) : (s.cancelPlane j q x).pressSide = s.pressSide :=
  (foldl_keeps State.pressSide (fun _ _ => by simp) _ _).trans (s.dropCoverage_pressSide q x)

@[simp] theorem State.lostLine_pressSide (x : State × List Late) (p slot : Nat) (b : PacketBody) (sent status : Nat) :
    (State.lostLine x p slot b sent status).1.pressSide = x.1.pressSide := by
  unfold State.lostLine; split <;> simp

/-! #### Device DRAM and the snapshot -/

@[simp] theorem State.dramAct_pressSide (a : Nat) : (s.dramAct a).pressSide = s.pressSide := by rw [RegsOnly.dramAct]; rfl
@[simp] theorem State.setPoison_pressSide (b : Nat) (p : Bool) : (s.setPoison b p).pressSide = s.pressSide := rfl
@[simp] theorem State.wbNewer_pressSide (b : Nat) : (s.wbNewer b).pressSide = s.pressSide := rfl

@[simp] theorem State.devCe_pressSide (i : Nat) : (s.devCe i).pressSide = s.pressSide := by
  unfold State.devCe
  dsimp only
  split
  · rw [State.cause_pressSide, State.event_pressSide]; rfl
  · exact s.addSat_pressSide ..

@[simp] theorem State.dramUe_pressSide (b src : Nat) (e : EccRead) : (s.dramUe b src e).pressSide = s.pressSide := by
  have hmark : ∀ x : State, ({ x with par := { x.par with dramUe := true } }).pressSide = x.pressSide := fun _ => rfl
  unfold State.dramUe
  dsimp only
  split
  · split <;> simp
  · rw [State.cause_pressSide, State.event_pressSide, hmark]
    split <;> simp

@[simp] theorem State.readBlock_pressSide (b src : Nat) (errs : List SymErr) :
    (s.readBlock b src errs).1.pressSide = s.pressSide := by
  have hce := foldl_keeps State.pressSide (fun (x : State) d => x.devCe_pressSide (devIndex (dramCoord x.dmcCfg b) d))
  have hwb : ∀ (x : State) (d : Dmc), ({ x with dmc := d }).pressSide = x.pressSide := fun _ _ => rfl
  have hread := (hce (eccDecode (Mem.reads s.dram b 64) (s.poisoned b) errs).devices ((s.dramAct b).addSat DMC_CE_COUNT_COUNT 1)).trans
    ((State.addSat_pressSide ..).trans (s.dramAct_pressSide b))
  unfold State.readBlock
  dsimp only
  split
  · simp
  · split
    · simp
    · split
      · exact (hwb _ _).trans hread
      · exact hread

@[simp] theorem State.writeBlock_pressSide (b off : Nat) (data : List Byte) (errs : List SymErr) :
    (s.writeBlock b off data errs).pressSide = s.pressSide := by
  have hdram : ∀ (x : State) (m : Memory), ({ x with dram := m }).pressSide = x.pressSide := fun _ _ => rfl
  unfold State.writeBlock
  dsimp only
  split_ifs <;> simp [hdram]

@[simp] theorem State.dramWrite_pressSide (a : Nat) (data : List Byte) (errs : List SymErr) :
    (s.dramWrite a data errs).pressSide = s.pressSide := by
  have hput : (s.dramPut a data errs).pressSide = s.pressSide :=
    foldl_keeps State.pressSide (fun _ _ => State.writeBlock_pressSide ..) _ _
  unfold State.dramWrite
  split_ifs
  · rfl
  · rfl
  · exact hput

@[simp] theorem State.snapOpen_pressSide (x : Nat) (calOk : Bool) : (s.snapOpen x calOk).pressSide = s.pressSide := by
  unfold State.snapOpen; dsimp only; split_ifs <;> simp

@[simp] theorem State.coverage_pressSide (q x : Nat) (codes : List Nat) : (s.coverage q x codes).pressSide = s.pressSide := by
  unfold State.coverage; split <;> simp

@[simp] theorem State.fireRows_pressSide (q x : Nat) : (s.fireRows q x).pressSide = s.pressSide :=
  foldl_keeps State.pressSide (fun _ _ => by simp) _ _

/-! #### The clock, the web and what a recovery shows -/

@[simp] theorem State.closeDev_pressSide : s.closeDev.pressSide = s.pressSide := by
  unfold State.closeDev; split <;> simp

@[simp] theorem State.refreshWebStop_pressSide : s.refreshWebStop.pressSide = s.pressSide := by
  have hweb : ∀ (x : State) (w : Web), ({ x with web := w }).pressSide = x.pressSide := fun _ _ => rfl
  unfold State.refreshWebStop
  dsimp only
  split_ifs <;> simp [hweb]

@[simp] theorem State.setClk_pressSide (c : Nat) : (s.setClk c).pressSide = s.pressSide := by
  unfold State.setClk
  split
  · rfl
  · dsimp only
    split <;> split_ifs <;> simp

@[simp] theorem State.showRecovery_pressSide (r : Recovery) : (s.showRecovery r).pressSide = s.pressSide :=
  foldl_keeps State.pressSide (fun _ _ => State.put_pressSide ..) _ _

@[simp] theorem State.geom_pressSide (j : Job) (r : Recovery) : (s.geom j r).1.pressSide = s.pressSide := rfl

@[simp] theorem State.postStop_pressSide (d : Late) (r : Recovery) : (s.postStop d r).pressSide = s.pressSide := by
  simp [State.postStop]

@[simp] theorem State.completePage_pressSide (ring seq code status : Nat) (p : List Nat) :
    (s.completePage ring seq code status p).pressSide = s.pressSide := by
  unfold State.completePage; split <;> simp

@[simp] theorem State.minSlack_pressSide : s.minSlack.pressSide = s.pressSide := by
  unfold State.minSlack
  split
  · rfl
  · exact foldl_keeps State.pressSide (fun _ _ => by split <;> simp) _ _

@[simp] theorem State.journalTick_pressSide : s.journalTick.pressSide = s.pressSide := by
  unfold State.journalTick
  split
  · rfl
  · split <;> simp

@[simp] theorem State.dropLate_pressSide : s.dropLate.1.pressSide = s.pressSide := by
  have hlost {α : Type} (p slot sent status : α → Nat) (b : α → PacketBody) (l : List α) (x : State × List Late) :
      (l.foldl (fun y a => State.lostLine y (p a) (slot a) (b a) (sent a) (status a)) x).1.pressSide = x.1.pressSide :=
    foldl_keeps (fun y : State × List Late => y.1.pressSide) (fun _ _ => State.lostLine_pressSide ..) l x
  unfold State.dropLate
  refine (foldl_keeps (fun x : State × List Late => x.1.pressSide) (fun x e => ?held) _ _).trans
    (foldl_keeps (fun x : State × List Late => x.1.pressSide) (fun x p => ?waiting) _ _)
  case held =>
    dsimp only
    split
    · rfl
    · exact (hlost ..).trans (State.setCtl_pressSide ..)
  case waiting => exact (hlost ..).trans (State.setPort_pressSide ..)

end PressSide
end Sys2Proof.Machine

namespace Sys2Proof.Machine

/-! ### The open job stays open -/

section JobOpen
variable (s : State)

theorem State.jobOpen_of_job {s : State} {j : Job} (h : s.press.job = some j) : jobOpen s.pressSide = (s.pressSide.1, true) := by
  simp [jobOpen, State.pressSide, h]

/-- A change of the press record that keeps a job where one was. -/
theorem State.jobOpen_with_press (p : Press) (h : p.job.isSome = s.press.job.isSome) :
    jobOpen ({ s with press := p }).pressSide = jobOpen s.pressSide := Prod.ext rfl h

@[simp] theorem State.setJob_jobOpen (j : Job) : jobOpen (s.setJob j).pressSide = (s.pressSide.1, true) := rfl

@[simp] theorem State.updJob_jobOpen (f : Job → Job) : jobOpen (s.updJob f).pressSide = jobOpen s.pressSide := by
  unfold State.updJob
  split
  · rfl
  next j h => rw [State.setJob_jobOpen, State.jobOpen_of_job h]

/-- Replacing the job of a state that has one. -/
theorem State.setJob_jobOpen_of_job {j : Job} (h : s.press.job = some j) (k : Job) :
    jobOpen (s.setJob k).pressSide = jobOpen s.pressSide := by
  rw [State.setJob_jobOpen, State.jobOpen_of_job h]

theorem foldl_jobOpen {α : Type} {f : State → α → State} (h : ∀ x a, jobOpen (f x a).pressSide = jobOpen x.pressSide)
    (l : List α) (x : State) : jobOpen (l.foldl f x).pressSide = jobOpen x.pressSide := foldl_keeps (fun y : State => jobOpen y.pressSide) h l x

/-! #### Pages -/

@[simp] theorem State.postPages_jobOpen : jobOpen s.postPages.pressSide = jobOpen s.pressSide := by
  unfold State.postPages
  split
  · rfl
  next j h =>
    refine (foldl_jobOpen (fun _ _ => ?_) _ _).trans (s.setJob_jobOpen_of_job h _)
    split <;> simp

@[simp] theorem State.decidePage_jobOpen (seq : Nat) (d : PageDone) : jobOpen (s.decidePage seq d).pressSide = jobOpen s.pressSide := by
  simp [State.decidePage]

@[simp] theorem State.retirePage_jobOpen (p : PageRec) (aborted : Bool) :
    jobOpen (s.retirePage p aborted).pressSide = jobOpen s.pressSide := by
  unfold State.retirePage State.postRetired
  dsimp only
  split_ifs <;> simp

theorem State.foldl_retirePage_jobOpen (aborted : Bool) (ps : List PageRec) (x : State) :
    jobOpen (ps.foldl (fun s p => s.retirePage p aborted) x).pressSide = jobOpen x.pressSide :=
  foldl_jobOpen (fun _ _ => State.retirePage_jobOpen ..) ps x

@[simp] theorem State.retireCleared_jobOpen : jobOpen s.retireCleared.pressSide = jobOpen s.pressSide := by
  unfold State.retireCleared
  split
  · rfl
  · exact State.foldl_retirePage_jobOpen ..

@[simp] theorem State.abortPages_jobOpen (t : PageRec → Bool) : jobOpen (s.abortPages t).pressSide = jobOpen s.pressSide := by
  unfold State.abortPages
  split
  · rfl
  · exact State.foldl_retirePage_jobOpen ..

@[simp] theorem State.startPages_jobOpen (j : Job) (x : Nat) : jobOpen (s.startPages j x).pressSide = jobOpen s.pressSide := by
  unfold State.startPages
  split
  · rfl
  · exact foldl_jobOpen (fun _ _ => by simp) _ _

@[simp] theorem State.clearPages_jobOpen (x : Nat) : jobOpen (s.clearPages x).pressSide = jobOpen s.pressSide := by
  unfold State.clearPages
  split
  · rfl
  next j h => rw [State.retireCleared_jobOpen, s.setJob_jobOpen_of_job h]

/-! #### Lines -/

@[simp] theorem State.fireLine_jobOpen (q x : Nat) : jobOpen (s.fireLine q x).pressSide = jobOpen s.pressSide := by
  unfold State.fireLine
  dsimp only
  split
  · refine (State.jobOpen_with_press _ _ rfl).trans ?_
    simp
  · simp

@[simp] theorem State.fireAll_jobOpen (j : Job) (x : Nat) : jobOpen (s.fireAll j x).pressSide = jobOpen s.pressSide :=
  foldl_jobOpen (fun _ _ => by dsimp only; split <;> simp) _ _

@[simp] theorem State.resendLast_jobOpen (j : Job) (q : Nat) : jobOpen (s.resendLast j q).pressSide = jobOpen s.pressSide := by
  unfold State.resendLast
  split
  · rfl
  · dsimp only; split <;> simp

@[simp] theorem State.cancelDue_jobOpen : jobOpen s.cancelDue.pressSide = jobOpen s.pressSide :=
  foldl_jobOpen (fun _ _ => by
    split
    · split <;> simp
    · rfl) _ _

/-! #### The end of a job, late data and recoveries -/

@[simp] theorem State.printOver_jobOpen : jobOpen s.printOver.pressSide = jobOpen s.pressSide := by
  unfold State.printOver
  split
  · rfl
  next j h =>
    have hset := s.setJob_jobOpen_of_job h { j with closing := true, recovery := none }
    split
    · rfl
    · dsimp only; split <;> simpa using hset

@[simp] theorem State.countLate_jobOpen (d : Late) : jobOpen (s.countLate d).pressSide = jobOpen s.pressSide := by
  unfold State.countLate; split <;> simp

@[simp] theorem State.setRecovery_jobOpen (r : Recovery) (phase : Nat) :
    jobOpen (s.setRecovery r phase).pressSide = jobOpen s.pressSide := by simp [State.setRecovery]

@[simp] theorem State.lateAll_jobOpen (ds : List Late) : jobOpen (s.lateAll ds).pressSide = jobOpen s.pressSide := by
  have hcount : ∀ ds : List Late, jobOpen (ds.foldl State.countLate s).pressSide = jobOpen s.pressSide :=
    fun ds => foldl_jobOpen State.countLate_jobOpen ds s
  unfold State.lateAll
  split
  · rfl
  · split
    · rfl
    · dsimp only
      split
      · rfl
      · split
        · refine (congrArg jobOpen ((State.postStop_pressSide ..).trans (foldl_keeps State.pressSide (fun _ _ => ?cancel) _ _))).trans ?_
          case cancel => split <;> simp
          rw [State.showRecovery_pressSide, State.setRecovery_jobOpen, State.geom_pressSide, hcount]
        · split
          · rfl
          · split <;> simp [-List.foldl_cons, hcount]

@[simp] theorem State.plannedStop_jobOpen : jobOpen s.plannedStop.pressSide = jobOpen s.pressSide := by
  unfold State.plannedStop State.lateData
  split
  · rfl
  · split <;> simp

@[simp] theorem State.recoveryAbort_jobOpen (reason : Nat) : jobOpen (s.recoveryAbort reason).pressSide = jobOpen s.pressSide := by
  unfold State.recoveryAbort
  split
  · rfl
  next j h =>
    split
    · rfl
    · dsimp only
      split <;> simp [State.foldl_retirePage_jobOpen, State.jobOpen_of_job h]

@[simp] theorem State.recoveryClockStop_jobOpen : jobOpen s.recoveryClockStop.pressSide = jobOpen s.pressSide := by
  unfold State.recoveryClockStop
  split
  · rfl
  next j h =>
    split
    · rfl
    · dsimp only
      split_ifs <;> simp [State.jobOpen_of_job h]

@[simp] theorem State.stopDue_jobOpen (x : Nat) : jobOpen (s.stopDue x).pressSide = jobOpen s.pressSide := by
  unfold State.stopDue
  split
  · rfl
  · split
    · split <;> simp
    · split <;> simp
    · rfl

@[simp] theorem State.webStopTrip_jobOpen : jobOpen s.webStopTrip.pressSide = jobOpen s.pressSide := by
  have hdrop : ∀ (j : Job) (qs : List Nat) (x : State),
      (qs.foldl (fun s q => s.dropCoverage q ((j.line : Int) - s.offs q).toNat) x).pressSide = x.pressSide :=
    fun _ => foldl_keeps State.pressSide fun _ _ => State.dropCoverage_pressSide ..
  unfold State.webStopTrip
  split
  · dsimp only
    split
    · simp
    next j h =>
      rw [State.abortPages_jobOpen, State.foldl_retirePage_jobOpen, hdrop, State.put_pressSide, State.put_pressSide]
      refine (State.setJob_jobOpen_of_job _ h _).trans ?_
      simp
  · rfl

@[simp] theorem State.judgeErr_jobOpen (e : Int) : jobOpen (s.judgeErr e).pressSide = jobOpen s.pressSide := by
  have hpeak : ∀ (x : State) (n : Nat), jobOpen ({ x with press := { x.press with peak := n } }).pressSide = jobOpen x.pressSide :=
    fun x _ => x.jobOpen_with_press _ rfl
  unfold State.judgeErr
  dsimp only
  have hshown : ((s.putS PGP_WEB_ERR_ERR e).put PGP_WEB_ERR_PEAK_PEAK
      (max (s.get PGP_WEB_ERR_PEAK_PEAK) e.natAbs)).pressSide = s.pressSide := rfl
  generalize (s.putS PGP_WEB_ERR_ERR e).put PGP_WEB_ERR_PEAK_PEAK (max (s.get PGP_WEB_ERR_PEAK_PEAK) e.natAbs) = x at hshown ⊢
  rw [← hshown]
  split
  · rfl
  · split_ifs <;> simp [hpeak]

@[simp] theorem State.errBetween_jobOpen : jobOpen s.errBetween.pressSide = jobOpen s.pressSide := by
  unfold State.errBetween
  split
  · rfl
  · dsimp only; split <;> simp

end JobOpen

/-! #### Taking lines keeps the recovery -/

section JobResume
variable (s : State)

/-- A change of the job that leaves its recovery alone. -/
theorem State.updJob_jobResume {f : Job → Job} (hf : ∀ j, (f j).recovery = j.recovery) :
    jobResume (s.updJob f).pressSide = jobResume s.pressSide := by
  unfold State.updJob
  split
  · rfl
  next j h => simp [jobResume, State.pressSide, State.setJob, h, hf]

theorem State.takeLine_jobResume (j : Job) (q x : Nat) : jobResume (s.takeLine j q x).pressSide = jobResume s.pressSide := by
  unfold State.takeLine
  dsimp only
  rw [State.updJob_jobResume, State.handLine_pressSide, State.coverage_pressSide]
  · split_ifs <;> simp
  · exact fun _ => rfl

theorem State.takeUpTo_jobResume (q : Nat) (v : Int) (n : Nat) : jobResume (s.takeUpTo q v n).1.pressSide = jobResume s.pressSide := by
  induction n generalizing s with
  | zero => rfl
  | succ n ih =>
    unfold State.takeUpTo
    split
    · rfl
    next j _ =>
      dsimp only
      split
      · rfl
      · split
        · rfl
        · exact (ih _).trans (s.takeLine_jobResume j q _)

theorem State.takeAll_jobResume (j : Job) (v : Int) : jobResume (s.takeAll j v).1.pressSide = jobResume s.pressSide :=
  foldl_keeps (fun x : State × List Late => jobResume x.1.pressSide) (fun x q => x.1.takeUpTo_jobResume q v 64) _ _

@[simp] theorem State.takeAll_jobOpen (j : Job) (v : Int) : jobOpen (s.takeAll j v).1.pressSide = jobOpen s.pressSide :=
  jobOpen_of_jobResume (s.takeAll_jobResume j v)

end JobResume

/-! ### The tick -/

section Tick
variable {s : State} {j : Job}

/-- The counters of a tick move the press line by one and keep the job (R52). -/
theorem State.countTick_jobOpen (s : State) (j : Job) :
    jobOpen (s.countTick j).pressSide = ({ s.time with line := (s.time.line + 1) % 2 ^ 40 }, true) := rfl

/-- Nothing that follows the counters in a tick moves the press line or takes the job away. -/
theorem State.tickBody_jobOpen (hj : s.press.job = some j) : jobOpen s.tickBody.pressSide = jobOpen (s.countTick j).pressSide := by
  have hresend : ∀ (k : Job) (qs : List Nat) (x : State),
      jobOpen (qs.foldl (fun s q => s.resendLast (s.press.job.getD k) q) x).pressSide = jobOpen x.pressSide :=
    fun _ => foldl_jobOpen fun _ _ => State.resendLast_jobOpen ..
  have hedge : ∀ x : State, jobOpen ({ x with press := { x.press with edgeSince := false } }).pressSide = jobOpen x.pressSide :=
    fun x => x.jobOpen_with_press _ rfl
  unfold State.tickBody
  rw [hj]
  dsimp only
  rw [State.journalTick_pressSide, hedge]
  simp [hresend]

theorem State.tickBody_line (hj : s.press.job = some j) : s.tickBody.time.line = (s.time.line + 1) % 2 ^ 40 :=
  congrArg (fun x => x.1.line) ((State.tickBody_jobOpen hj).trans (s.countTick_jobOpen j))

/-- The start of a job and the resume after a recovery keep the job open and the press line where it is. -/
theorem State.jobStarted_jobOpen (h : s.press.job = some j) (k : Job) : jobOpen (s.jobStarted k).pressSide = jobOpen s.pressSide := by
  rw [State.jobStarted, State.complete_pressSide, s.setJob_jobOpen_of_job h]

theorem State.resumed_jobOpen (h : s.press.job = some j) (k : Job) (r : Recovery) :
    jobOpen (s.resumed k r).pressSide = jobOpen s.pressSide := by
  simp [State.resumed, State.jobOpen_of_job h]

end Tick
end Sys2Proof.Machine

namespace Sys2Proof.Machine

/-! ### The first tick of a run (R139, R141) -/

section FirstTick
variable {s : State} {j : Job}

theorem State.job_of_jobResume {x : State} {r : Option Recovery} (h : jobResume x.pressSide = jobResume s.pressSide)
    (hj : s.press.job = some j) (hr : j.recovery = r) : ∃ k, x.press.job = some k ∧ k.recovery = r := by
  have hjob : x.press.job.map (·.recovery) = s.press.job.map (·.recovery) := congrArg Prod.snd h
  rw [hj, Option.map_some, hr] at hjob
  exact Option.map_eq_some_iff.mp hjob

theorem State.job_of_jobOpen {x : State} (h : jobOpen x.pressSide = jobOpen s.pressSide) (hj : s.press.job = some j) :
    ∃ k, x.press.job = some k :=
  Option.isSome_iff_exists.mp ((congrArg Prod.snd h).trans (congrArg Option.isSome hj))

theorem State.line_of_jobOpen {x : State} (h : jobOpen x.pressSide = jobOpen s.pressSide) : x.time.line = s.time.line :=
  congrArg (fun p => p.1.line) h

/-- The state in which the first tick of a run happens, after the lines of the run-up have been taken (R139, R141). -/
def State.released (s : State) (j : Job) (r : Recovery) : State :=
  (((((if j.started then s.resumed j r else s.jobStarted j).setClk clkRunning).put PGP_SCHED_STATUS_JOB_STATE jsRun).put
    PGP_SCHED_STATUS_RECOV_PHASE 0).webPlan 2 .follow)

theorem State.released_jobOpen (h : s.press.job = some j) (k : Job) (r : Recovery) :
    jobOpen (s.released k r).pressSide = jobOpen s.pressSide := by
  unfold State.released
  split <;> simp [State.resumed_jobOpen h, State.jobStarted_jobOpen h]

/-- The first tick of a run whose lines are all staged: the clock is released and ticks, and a pending period may stop it again. -/
theorem State.firstTick_eq {k : Job} {r : Recovery} (hclk : s.clk = clkLocking) (hlock : s.locked = true) (hj : s.press.job = some j)
    (hlate : (s.takeAll j ((j.line : Int) + 23)).2 = []) (hk : (s.takeAll j ((j.line : Int) + 23)).1.press.job = some k)
    (hr : k.recovery = some r) :
    s.firstTick = (let t := ((s.takeAll j ((j.line : Int) + 23)).1.released k r).tickBody
      if t.on PGP_CLK_STATUS_APPLY_PEND then t.plannedStop else t) := by
  have hready : ¬ (s.clk ≠ clkLocking ∨ ¬ s.locked) := by simp [hclk, hlock]
  simp only [State.firstTick, hready, if_false, hj, hlate, ne_eq, not_true_eq_false, hk, hr]
  rfl

theorem State.firstTick_line {r : Recovery} (hclk : s.clk = clkLocking) (hlock : s.locked = true) (hj : s.press.job = some j)
    (hr : j.recovery = some r) (hlate : (s.takeAll j ((j.line : Int) + 23)).2 = []) :
    s.firstTick.time.line = (s.time.line + 1) % 2 ^ 40 := by
  have htake := s.takeAll_jobResume j ((j.line : Int) + 23)
  obtain ⟨k, hk, hkr⟩ := State.job_of_jobResume htake hj hr
  have hreleased := (State.released_jobOpen hk k r).trans (jobOpen_of_jobResume htake)
  obtain ⟨i, hi⟩ := State.job_of_jobOpen hreleased hj
  have htick := State.tickBody_line hi
  rw [State.line_of_jobOpen hreleased] at htick
  rw [State.firstTick_eq hclk hlock hj hlate hk hkr, ← htick]
  dsimp only
  split
  · exact State.line_of_jobOpen (State.plannedStop_jobOpen _)
  · rfl

end FirstTick

theorem execPressTick_runs {s : State} (hclk : s.clk = clkRunning) (hi : s.islandRuns 2 = true) : execPressTick s = finish s.tickBody := by
  rw [execPressTick, if_pos ⟨hclk, hi⟩]

theorem execPressTick_idle {s : State} (hclk : s.clk ≠ clkRunning) : execPressTick s = finish s := by
  rw [execPressTick, if_neg fun h => hclk h.1]

/-- Settles O19: the counters of a tick advance the press line (`State.countTick_jobOpen`), and nothing else in a tick or before
the first tick of a run moves it (`State.tickBody_line`, `State.firstTick_line`). -/
theorem ticksAdvanceThePressLine : Obligations.TicksAdvanceThePressLine := by
  refine ⟨?tick, ?first, ?idle⟩
  case tick =>
    intro s j hclk hi hj
    exact ⟨_, execPressTick_runs hclk hi, State.tickBody_line hj⟩
  case first =>
    intro s j r hclk hlock hj hr hlate
    exact ⟨_, rfl, State.firstTick_line hclk hlock hj hr hlate⟩
  case idle =>
    intro s hclk
    exact ⟨_, execPressTick_idle hclk, Silent.refl s⟩

end Sys2Proof.Machine

namespace Sys2Proof.Machine

/-! ### The registers of the line clock (R54, R56, R60) -/

section LineClock
variable {s : State}

/-- The control register of the line clock lies on the page island. -/
theorem State.reqWrite_clkCtrl {req : Fin 6} (f : State → State) (hreq : req ≠ 5) (hi : s.islandRuns 2 = true) :
    s.reqWrite req PGP_CLK_CTRL f = f s :=
  State.reqWrite_runs s req PGP_CLK_CTRL f (reaches_of_ne hreq _) hi

/-- While the clock does not run a planned stop is not requested (R56). -/
theorem State.plannedStop_idle (h : s.clk ≠ clkRunning) : s.plannedStop = s := by
  unfold State.plannedStop
  split
  · rfl
  · rw [if_pos (.inr (.inr h))]

/-- APPLY_AT_PAGE before a run marks the pending period (R56). -/
theorem State.applyAtPage_idle {j : Job} (hj : s.press.job = some j) (hclosing : j.closing = false)
    (hpend : s.on PGP_CLK_STATUS_PERIOD_PEND = true) (hrec : s.get PGP_SCHED_STATUS_JOB_STATE ≠ jsRecovery)
    (hclk : s.clk ≠ clkRunning) :
    s.applyAtPage = s.putB PGP_CLK_STATUS_APPLY_PEND true := by
  have hidle : (s.putB PGP_CLK_STATUS_APPLY_PEND true).clk ≠ clkRunning := by
    rwa [State.clk, State.get_putB_apart _ _ _ _ rfl (by decide)]
  simp only [State.applyAtPage, hj, hpend, hclosing, hrec]
  simpa using State.plannedStop_idle hidle

theorem State.applyAtPage_noJob (hj : s.press.job = none) : s.applyAtPage = s := by
  simp only [State.applyAtPage, hj]

/-! #### Leaving HALTED (R54, R399) -/

/-- Nothing but registers and the web axis changes. -/
def WebOnly (s x : State) : Prop := x = { s with regs := x.regs, web := x.web }

theorem WebOnly.refl (s : State) : WebOnly s s := rfl

theorem WebOnly.put {x : State} (h : WebOnly s x) (f : Fld) (v : Nat) : WebOnly s (x.put f v) := by
  unfold WebOnly at *; rw [h]; rfl

theorem WebOnly.putB {x : State} (h : WebOnly s x) (f : Fld) (b : Bool) : WebOnly s (x.putB f b) := h.put _ _

theorem WebOnly.withWeb {x : State} (h : WebOnly s x) (w : Web) : WebOnly s { x with web := w } := by
  unfold WebOnly at *; rw [h]

theorem Keeps.withWeb {x : State} {l : List Nat} (h : Keeps s x l) (w : Web) : Keeps s { x with web := w } l := h

/-- A command that changes registers and the web axis. -/
theorem Alters.of_webOnly {x : State} {l : List Nat} (h : WebOnly s x) (hk : Keeps s x l) :
    Alters s x.trackIrq { s with web := x.web } l := by
  refine ⟨?_, hk⟩
  simp only [State.trackIrq]
  rw [h]

theorem WebOnly.webPlan {x : State} (h : WebOnly s x) (m : Nat) (p : WebPlan) : WebOnly s (x.webPlan m p) := (h.withWeb _).put _ _

theorem Keeps.webPlan {x : State} {l : List Nat} (h : Keeps s x l) (m : Nat) (p : WebPlan) (hs : MOT_WEB_STATUS ∈ l) :
    Keeps s (x.webPlan m p) l := (h.withWeb _).put _ _ hs

theorem WebOnly.refreshWebStop {x : State} (h : WebOnly s x) : WebOnly s x.refreshWebStop := by
  have hdrop : ∀ b : Bool, WebOnly s (if b then x.webPlan 0 .idle else x) := by
    rintro (_ | _)
    · exact h
    · exact h.webPlan _ _
  unfold State.refreshWebStop
  dsimp only
  split
  · exact ((((hdrop _).withWeb _).putB _ _).put _ _).putB _ _
  · exact h.putB _ _

theorem Keeps.refreshWebStop {x : State} {l : List Nat} (h : Keeps s x l) (hs : MOT_WEB_STATUS ∈ l) (hr : MOT_WEB_RATE ∈ l) :
    Keeps s x.refreshWebStop l := by
  have hdrop : ∀ b : Bool, Keeps s (if b then x.webPlan 0 .idle else x) l := by
    rintro (_ | _)
    · exact h
    · exact h.webPlan _ _ hs
  unfold State.refreshWebStop
  dsimp only
  split
  · exact ((((hdrop _).withWeb _).putB _ _ hs).put _ _ hr).putB _ _ hs
  · exact h.putB _ _ hs

/-- Without a job a halted clock that goes to STOPPED shows it, and WEB_STOP follows. -/
theorem State.setClk_of_halted (hclk : s.clk = clkHalted) (hj : s.press.job = none) :
    s.setClk clkStopped = (s.put PGP_CLK_STATUS_CLK_STATE clkStopped).refreshWebStop := by
  have hjob : ((s.put PGP_CLK_STATUS_CLK_STATE clkStopped).refreshWebStop).press.job = none :=
    (congrArg (fun x : TimeState × Press => x.2.job) (State.refreshWebStop_pressSide _)).trans hj
  have hstopped : s.clk ≠ clkStopped := by rw [hclk]; decide
  have hrunning : s.clk ≠ clkRunning := by rw [hclk]; decide
  simp only [State.setClk, hstopped, hrunning, if_false, hjob]

theorem State.clrHalt_halted (hclk : s.clk = clkHalted) (hstill : s.masterStill = true) : s.clrHalt = s.setClk clkStopped := by
  rw [State.clrHalt, if_pos ⟨hclk, hstill⟩]

/-! #### The windows (R60) -/

/-- A bit of a register's low three bits (R60). -/
theorem bit_eq_of_bits {v n : Nat} (h : bits v 2 0 = n) {i : Nat} (hi : i < 3) : bit v i = n.testBit i := by
  rw [← h, bits_testBit, decide_eq_true hi, Bool.true_and, Nat.zero_add, Nat.testBit_eq_decide_div_mod_eq]
  rfl

/-- A write of PGP_CLK_CTRL with CLR_HALT and APPLY_AT_PAGE 0 is a write of WIN_EN (R60). -/
theorem State.clkCtrlWrite_winEn {v n : Nat} (hv : bits v 2 0 = n) (hhalt : n.testBit 2 = false) (happly : n.testBit 0 = false) :
    s.clkCtrlWrite v = s.winEn (n.testBit 1) := by
  simp [State.clkCtrlWrite, bit_eq_of_bits hv, hhalt, happly]

theorem State.winEn_true : s.winEn true = s.putB PGP_CLK_CTRL_WIN_EN true := by simp [State.winEn]

/-- Closing the windows in an excursion ends it (R60). -/
theorem State.winEn_false_inDev (h : s.on PGP_CLK_STATUS_IN_DEV = true) :
    s.winEn false =
      ((s.putB PGP_CLK_STATUS_IN_DEV false).event' Ev.WEB_DEV_LEAVE [s.press.peak, s.time.line]).putB PGP_CLK_CTRL_WIN_EN false := by
  simp [State.winEn, State.closeDev, h]

end LineClock

/-- Settles O18: each clause is one write of PGP_CLK_CTRL, which the lemma cited for it reduces to writes of fields, the look at
WEB_STOP or the end of the excursion. -/
theorem lineClockRegisters : Obligations.LineClockRegisters := by
  refine ⟨?mark, ?noJob, ?halt, ?openWindows, ?closeWindows⟩
  case mark =>
    intro s req j hreq hi hj hclosing hpend hrec hclk
    refine ⟨_, congrArg finish ((State.reqWrite_clkCtrl _ hreq hi).trans (State.applyAtPage_idle hj hclosing hpend hrec hclk)), ?_, ?_⟩
    · rw [State.on_trackIrq, State.on_putB_same _ _ _ rfl]
    · exact Silent.of_regsOnly ((RegsOnly.refl s).putB _ _) ((Keeps.refl s _).putB _ _ (by decide))
  case noJob =>
    intro s req hreq hi hj
    exact ⟨_, congrArg finish ((State.reqWrite_clkCtrl _ hreq hi).trans (State.applyAtPage_noJob hj)), Silent.refl s⟩
  case halt =>
    intro s req hreq hi hclk hstill hj
    have hkeeps : Keeps (s.put PGP_CLK_STATUS_CLK_STATE clkStopped) (s.put PGP_CLK_STATUS_CLK_STATE clkStopped).refreshWebStop
        [MOT_WEB_STATUS, MOT_WEB_RATE] := (Keeps.refl _ _).refreshWebStop (by decide) (by decide)
    refine ⟨_, congrArg finish ((State.reqWrite_clkCtrl _ hreq hi).trans ((State.clrHalt_halted hclk hstill).trans
      (State.setClk_of_halted hclk hj))), ?_, ?_⟩
    · rw [State.clk, State.get_trackIrq, State.get_eq_of_rget _ _ _ (hkeeps _ (by decide)), State.get_put_same _ _ _ rfl]
      rfl
    · exact Alters.of_webOnly ((WebOnly.refl s).put _ _).refreshWebStop
        (((Keeps.refl s _).put _ _ (by decide)).refreshWebStop (by decide) (by decide))
  case openWindows =>
    intro s req v hreq hi hv
    have hwin : s.clkCtrlWrite v.toNat = s.putB PGP_CLK_CTRL_WIN_EN true := (State.clkCtrlWrite_winEn hv rfl rfl).trans State.winEn_true
    refine ⟨_, congrArg finish ((State.reqWrite_clkCtrl _ hreq hi).trans hwin), ?_, ?_⟩
    · rw [State.on_trackIrq, State.on_putB_same _ _ _ rfl]
    · exact Silent.of_regsOnly ((RegsOnly.refl s).putB _ _) ((Keeps.refl s _).putB _ _ (by decide))
  case closeWindows =>
    intro s req v hreq hi hv hdev
    have hwin := (State.clkCtrlWrite_winEn hv rfl rfl).trans (State.winEn_false_inDev hdev)
    refine ⟨_, congrArg finish ((State.reqWrite_clkCtrl _ hreq hi).trans hwin), ?_, ?_, ?_, ?_⟩
    · rw [State.on_trackIrq, State.on_putB_same _ _ _ rfl]
    · rw [State.on_trackIrq, State.on_putB_apart _ _ _ _ rfl (by decide), State.on_event' _ _ _ _ (by decide),
        State.on_putB_same _ _ _ rfl]
    · have hposted := Posts.of_event s (s.putB PGP_CLK_STATUS_IN_DEV false) Ev.WEB_DEV_LEAVE 0xFFFF [s.press.peak, s.time.line] rfl rfl
        (State.rget_putB_ne _ _ _ _ (by decide)) (by decide)
      exact (hposted.putB _ _).trackIrq
    · refine Touches.mk' ?_ ((((Keeps.refl s _).putB _ _ (by decide)).event' _ _ (by decide)).putB _ _ (by decide))
      rw [State.putB_hidden, State.event'_hidden, State.putB_hidden]

end Sys2Proof.Machine

namespace Sys2Proof.Machine

/-! ### Every command ends in the interrupt bookkeeping (R97 to R99) -/

/-- The bookkeeping leaves the coalescing time and INTA in agreement with the interrupt condition, whatever the state was. -/
theorem State.irqSound_trackIrq (s : State) : s.trackIrq.irqSound := by
  refine ⟨?coal, ?inta⟩
  case coal =>
    rw [State.irqCond_trackIrq, State.on_trackIrq]
    show Option.isSome (if s.irqCond && s.on HIF_MSI_CTRL_ARMED then _ else _) = _
    split
    next h => exact h.symm
    next h => exact (Bool.eq_false_of_not_eq_true h).symm
  case inta =>
    intro h
    exact (Bool.and_eq_true_iff.mp h).2

/-- What a command answers: a next state, with the interrupt bookkeeping done on it. -/
def Finishes (o : Out) : Prop := ∃ x, o = finish x

theorem Finishes.answers {o : Out} (h : Finishes o) : ∃ t, o = .next t ∧ t.irqSound := by
  obtain ⟨x, rfl⟩ := h
  exact ⟨x.trackIrq, rfl, x.irqSound_trackIrq⟩

/-- Every arm of the dispatch ends in the bookkeeping; none answers a fault or a refusal. -/
theorem exec_finishes (c : Instr) (s : State) : Finishes (exec c s) := by
  cases c <;> exact ⟨_, rfl⟩

/-- A step idles on an empty queue and otherwise is the effect of the command at its front. -/
theorem step_cases {s t : State} (h : step s = .next t) : t = s ∨ ∃ c r, exec c { s with pending := r } = .next t := by
  unfold step at h
  split at h
  next => exact .inl (Host.Outcome.next.inj h).symm
  next c r _ => exact .inr ⟨c, r, h⟩

/-- Settles O4: every arm of the dispatch ends in the bookkeeping (`exec_finishes`), which leaves it sound. -/
theorem everyCommandCompletes : Obligations.EveryCommandCompletes :=
  fun c s => (exec_finishes c s).answers

/-- Settles O3: a step that idles keeps the state, and a command leaves the bookkeeping sound whatever it was before. -/
theorem interruptBookkeepingHolds : Obligations.InterruptBookkeepingHolds := by
  intro s t hs hstep
  rcases step_cases hstep with rfl | ⟨c, r, hexec⟩
  · exact hs
  · obtain ⟨u, hu, hsound⟩ := everyCommandCompletes c { s with pending := r }
    obtain rfl : u = t := Host.Outcome.next.inj (hu.symm.trans hexec)
    exact hsound

/-- After reset no interrupt is enabled, so the interrupt condition does not hold (R95). -/
theorem State.irqCond_reset : State.reset.irqCond = false := by
  have hen : State.reset.get GLB_IRQ_EN_EN = 0 := by decide
  refine List.any_eq_false.mpr fun b _ => ?_
  simp [hen, bit]

/-- Settles O2: the register file of the reset state lists nothing, and the condition does not hold (`State.irqCond_reset`). -/
theorem stateAfterReset : Obligations.StateAfterReset := by
  refine ⟨rfl, fun _ => rfl, rfl, fun _ => ⟨rfl, rfl, rfl⟩, rfl, ?_, ?_⟩
  · rw [State.irqCond_reset]; rfl
  · exact fun h => absurd h Bool.false_ne_true

end Sys2Proof.Machine

namespace Sys2Proof.Machine

/-! ### Doorbells (R70, R74) -/

section Doorbells
variable {s : State} {r : RingId} {n v : Nat}

theorem doorbellOk_w32 {v : BitVec 64} (hv : v.toNat < 65536) : doorbellOk 0 .w32 v = true := by
  have hlow : v.toNat % 2 ^ 32 < 65536 := lt_of_le_of_lt (Nat.mod_le _ _) hv
  simpa [doorbellOk, Nat.blt_eq] using hlow

/-- A whole doorbell on a ring's page is the ring's doorbell. -/
theorem execDoorbellWrite_ring {page : Fin 16} {v : BitVec 64} (hpage : ringOfPage page = some r) (hi : s.islandRuns 1 = true)
    (hv : v.toNat < 65536) : execDoorbellWrite page 0 .w32 v s = finish (s.doorbell r v.toNat) := by
  have hok : doorbellOk (0 : Fin 4096) .w32 v = true := doorbellOk_w32 hv
  simp only [execDoorbellWrite, hpage, hi, hok, and_self, if_true, Nat.mod_eq_of_lt hv]

theorem execEvtDoorbellWrite_ring {v : BitVec 64} (hi : s.islandRuns 1 = true) (hv : v.toNat < 65536) :
    execEvtDoorbellWrite r 0 .w32 v s = finish (s.doorbell r v.toNat) := by
  have hok : doorbellOk (0 : Fin 4096) .w32 v = true := doorbellOk_w32 hv
  simp only [execEvtDoorbellWrite, hi, hok, and_self, if_true, Nat.mod_eq_of_lt hv]

theorem State.doorbell_on (h : s.ust (.ring r) = .on) : s.doorbell r v = s.applyDoorbell r.num v := by
  simp only [State.doorbell, h]

theorem State.doorbell_starting (h : s.ust (.ring r) = .starting) :
    s.doorbell r v = s.setRing r.num { s.ring r.num with heldDb := some v } := by
  simp only [State.doorbell, h]

/-- An index beyond the ring is refused (R70). -/
theorem State.applyDoorbell_large (h : s.ringSize n ≤ v) : s.applyDoorbell n v = s.doorbellInvalid n v := if_pos h

/-- An index on a host-to-device ring is its tail (R70, R71). -/
theorem State.applyDoorbell_h2d (h : v < s.ringSize n) (hn : n < 8) :
    s.applyDoorbell n v = s.setRing n { s.ring n with tail := v, stalled := false } := by
  rw [State.applyDoorbell, if_neg (Nat.not_le.mpr h), if_pos hn]

/-- An index on EVT returns the entries it has moved over, when that many are unread (R74). -/
theorem State.applyDoorbell_evt (h : v < s.ringSize 8) (hk : (v + s.ringSize 8 - (s.ring 8).tail) % s.ringSize 8 ≤ (s.ring 8).unread) :
    s.applyDoorbell 8 v =
      (let k := (v + s.ringSize 8 - (s.ring 8).tail) % s.ringSize 8
       let x := s.setRing 8 { s.ring 8 with tail := v, unread := (s.ring 8).unread - k }
       { x with hif := { x.hif with evtUnread := x.hif.evtUnread.drop k } }) := by
  rw [State.applyDoorbell, if_neg (Nat.not_le.mpr h), if_neg (by decide)]
  exact if_neg (Nat.not_lt.mpr hk)

end Doorbells

/-- Settles O10: a doorbell is `State.applyDoorbell` on a ring that is ON, by the index it brings, and is held in STARTING. -/
theorem doorbells : Obligations.Doorbells := by
  refine ⟨?taken, ?refused, ?held, ?returned⟩
  case taken =>
    intro s page r v hpage hnum hi hv hon hsize
    have heff := (State.doorbell_on hon).trans (State.applyDoorbell_h2d hsize hnum)
    exact ⟨_, (execDoorbellWrite_ring hpage hi hv).trans (congrArg finish heff), rfl, rfl, rfl, fun _ _ => rfl⟩
  case refused =>
    intro s page r v hpage hnum hi hv hon hsize
    have heff := (State.doorbell_on hon).trans (State.applyDoorbell_large hsize)
    refine ⟨_, (execDoorbellWrite_ring hpage hi hv).trans (congrArg finish heff), ?_, ?_⟩
    · exact ((Posts.of_event s s _ _ _ rfl rfl rfl (by decide)).cause _).trackIrq
    · refine Touches.mk' ?_ (((Keeps.refl s _).event' _ _ (evtRegs_sub_right _)).cause _ (by decide))
      rw [State.doorbellInvalid, State.cause_hidden, State.event'_hidden]
  case held =>
    intro s page r v hpage hi hv hstart
    exact ⟨_, (execDoorbellWrite_ring hpage hi hv).trans (congrArg finish (State.doorbell_starting hstart)), rfl, rfl, fun _ _ => rfl⟩
  case returned =>
    intro s v hi hv hon hsize hk
    have heff := (State.doorbell_on hon).trans (State.applyDoorbell_evt hsize hk)
    exact ⟨_, (execEvtDoorbellWrite_ring hi hv).trans (congrArg finish heff), rfl, rfl, rfl, fun _ _ => rfl⟩

end Sys2Proof.Machine

namespace Sys2Proof.Machine

/-! ### Descriptors and fences (R71, R72, R89 to R93) -/

section Descriptors
variable {s : State} {r : RingId}

/-- A ring's INDEX advances in its own record: the write-back record becomes due (R69, R77). -/
theorem State.ring_advanceIndex {n : Nat} (h : n < s.hif.rings.length) : (s.advanceIndex n).ring n = { s.ring n with wbDue := true } := by
  rw [State.ring_of_hif (s.wbDue n) _ (congrArg Hif.rings (s.advanceIndex_hif n))]
  exact s.ring_setRing_same n _ h

theorem State.advanceIndex_length (s : State) (n : Nat) : (s.advanceIndex n).hif.rings.length = s.hif.rings.length := by
  rw [State.advanceIndex_hif, State.wbDue_length]

/-- An open descriptor as it enters the ring's order (R73). -/
def freshDesc (d : DescBits) : OpenDesc :=
  { seq := dfield d 2 2, bits := d, taken := false, started := false, done := false, stale := false }

/-- A descriptor with the expected phase and sequence number enters the order of a running ring (R71, R72). -/
theorem State.descriptorFetched_in {d : DescBits} (hr : r.isH2D = true) (hon : s.ust (.ring r) = .on) (hlink : s.hif.linkUp = true)
    (htail : s.get (HIF_RING_STATUS_INDEX r.num) ≠ (s.ring r.num).tail) (hstall : (s.ring r.num).stalled = false)
    (hfence : (s.ring r.num).fence = none) (hphase : bit (dfield d 1 1) 7 = s.on (HIF_RING_STATUS_PHASE r.num))
    (hseq : (s.ring r.num).expSeq = none ∨ (s.ring r.num).expSeq = some (dfield d 2 2)) :
    s.descriptorFetched r (.ok d) = s.descriptorIn r d := by
  rcases hseq with hseq | hseq <;> simp [State.descriptorFetched, hr, hon, hlink, htail, hstall, hfence, hphase, hseq]

/-- A descriptor without a defect is the last of the ring's order, and the next number is expected (R71, R72). -/
theorem State.descriptorIn_good {d : DescBits} (hd : descBad r d = none) :
    s.descriptorIn r d = (s.advanceIndex r.num).setRing r.num { (s.advanceIndex r.num).ring r.num with
      expSeq := some ((dfield d 2 2 + 1) % 65536), opens := ((s.advanceIndex r.num).ring r.num).opens ++ [freshDesc d] } := by
  simp only [State.descriptorIn, hd]
  rfl

theorem ringDone_ne_island (n : Nat) : HIF_RING_DONE n ≠ RST_ISLAND 1 := by
  simp only [HIF_RING_DONE, RST_ISLAND]
  omega

/-- The status register of a host-to-device ring is none of those that a completion on it changes. -/
theorem ringStatus_notMem_doneRegs (h : r.isH2D = true) : HIF_RING_STATUS r.num ∉ doneRegs r.num := by
  cases r with
  | job k => clear h; revert k; decide
  | cmx | cam | mbxIn => decide
  | evt | mbxOut => cases h

/-- The completion of a descriptor with NOTIFY: its entry, and nothing but it and the watermark (R73, R88). -/
theorem State.complete_notified (s : State) {n : Nat} {d : OpenDesc} (typ code status : Nat) (p : List Nat)
    (hdesc : s.desc n d.seq = some d) (hstale : d.stale = false) (hnotify : d.notify = true) (hcode : code ≠ Ev.EVT_LOST) :
    let t := (s.complete n d.seq typ code status 0xFFFF p false).trackIrq
    Completes s t n d.seq typ code status 0xFFFF p ∧ t.hidden = s.hidden ∧ Keeps s t (doneRegs n) := by
  refine ⟨?_, State.complete_hidden .., (Keeps.refl s _).complete _ _ _ _ _ _ _ _ fun _ h => h⟩
  exact (Completes.of_complete s s n d.seq typ code status 0xFFFF p false d rfl rfl rfl hdesc hstale (.inr hnotify) hcode
    (ringDone_ne_island n)).after fun _ h => h

/-- A ring blocked at its fence (R89). -/
def State.fenceBlocked (s : State) (n : Nat) (d : OpenDesc) : State :=
  (((s.take n d.seq).setRing n { (s.take n d.seq).ring n with fence := some d.seq, fenceReported := false }).putB
    (HIF_RING_STATUS_FENCE_WAIT n) true).wbDue n

/-- A ring whose blocked fence is released, before the fence completes (R91). -/
def State.fenceReleased (s : State) (n : Nat) : State :=
  ((s.setRing n { s.ring n with fence := none }).putB (HIF_RING_STATUS_FENCE_WAIT n) false).wbDue n

/-- A ring whose blocked fence's stall has been reported (R93). -/
def State.fenceStalled (s : State) (n : Nat) : State := s.setRing n { s.ring n with fenceReported := true }

/-- A fence at the head that may wait on the ring it names: it completes or blocks by its condition (R89). -/
theorem execFence_head {d : OpenDesc} (hhead : s.head r.num = some d) (hop : d.op = 1) (hbad : s.fenceBad r.num d = false) :
    execFence r s = finish (if s.fenceHolds (dfield d.bits 4 1) (dfield d.bits 6 2) then s.fenceDone r.num d stOK
      else s.fenceBlocked r.num d) := by
  simp only [execFence, hhead, hop, hbad, ne_eq, not_true_eq_false, Bool.false_eq_true, if_false]
  rfl

theorem State.fenceBlocked_shows (s : State) (d : OpenDesc) {n : Nat} (hn : n < s.hif.rings.length) :
    let t := (s.fenceBlocked n d).trackIrq
    t.on (HIF_RING_STATUS_FENCE_WAIT n) = true ∧ (t.ring n).fence = some d.seq ∧ t.evtEntries = s.evtEntries ∧ t.hidden = s.hidden ∧
      Keeps s t [HIF_RING_STATUS n] := by
  refine ⟨?_, ?_, ?_, ?_, ?_⟩
  · rw [State.on_trackIrq, State.fenceBlocked, State.on_wbDue, State.on_putB_same _ _ _ rfl]
  · simp [State.fenceBlocked, State.wbDue, State.ring_setRing_same, hn]
  · simp [State.fenceBlocked]
  · simp [State.fenceBlocked]
  · exact (((((Keeps.refl s _).take n d.seq).setRing n _).putB _ _ List.mem_cons_self).wbDue n).trackIrq

/-- The open descriptors of a ring stay when its fence is released. -/
theorem State.desc_fenceReleased {n : Nat} (hn : n < s.hif.rings.length) (q : Nat) : (s.fenceReleased n).desc n q = s.desc n q := by
  simp [State.desc, State.fenceReleased, State.wbDue, State.ring_setRing_same, hn]

/-- A released fence completes OK and its ring no longer waits (R91, R92). -/
theorem State.fenceReleased_done {d : OpenDesc} (hr : r.isH2D = true) (hn : r.num < s.hif.rings.length)
    (hdesc : s.desc r.num d.seq = some d) (hstale : d.stale = false) (hnotify : d.notify = true) :
    let t := ((s.fenceReleased r.num).fenceDone r.num d stOK).trackIrq
    t.on (HIF_RING_STATUS_FENCE_WAIT r.num) = false ∧
      Completes s t r.num d.seq 3 Ev.FENCE_DONE stOK 0xFFFF [dfield d.bits 4 1, dfield d.bits 6 2] ∧ t.hidden = s.hidden ∧
      Keeps s t (HIF_RING_STATUS r.num :: doneRegs r.num) := by
  have hkeeps : Keeps s (s.fenceReleased r.num) [HIF_RING_STATUS r.num] :=
    (((Keeps.refl s _).setRing r.num _).putB (HIF_RING_STATUS_FENCE_WAIT r.num) _ List.mem_cons_self).wbDue r.num
  have hisland : (s.fenceReleased r.num).rget (RST_ISLAND 1) = s.rget (RST_ISLAND 1) := hkeeps _ <| by
    simp only [List.mem_singleton, RST_ISLAND, HIF_RING_STATUS]
    omega
  refine ⟨?_, ?_, ?_, ?_⟩
  · have hwait : (s.fenceReleased r.num).on (HIF_RING_STATUS_FENCE_WAIT r.num) = false := by
      rw [State.fenceReleased, State.on_wbDue, State.on_putB_same _ _ _ rfl]
    rw [State.on_trackIrq, ← hwait]
    exact State.on_eq_of_get _ _ _ (State.get_complete _ _ _ _ _ _ _ _ _ _ (ringStatus_notMem_doneRegs hr))
  · exact (Completes.of_complete_gen s (s.fenceReleased r.num) r.num d.seq 3 Ev.FENCE_DONE stOK 0xFFFF _ false d rfl rfl rfl hisland
      ((State.desc_fenceReleased hn _).trans hdesc) hstale (.inr hnotify) (by decide) (ringDone_ne_island _)).after fun _ h => h
  · rw [State.trackIrq_hidden, State.fenceDone, State.complete_hidden, State.fenceReleased, State.wbDue_hidden, State.putB_hidden,
      State.setRing_hidden]
  · exact (hkeeps.mono (by simp)).complete _ _ _ _ _ _ _ _ fun _ h => List.mem_cons_of_mem _ h

end Descriptors

/-- Settles O11: a descriptor enters by `State.descriptorIn_good`, NOP and a fence that holds complete by `State.complete_notified`,
and a fence that does not hold blocks its ring until `State.fenceReleased_done`. -/
theorem descriptorsAndFences : Obligations.DescriptorsAndFences := by
  refine ⟨?fetched, ?nop, ?holds, ?blocks, ?released, ?stall⟩
  case fetched =>
    intro s r d hr hon hlink htail hstall hfence hphase hseq hgood hindex hsize hlen
    have heff := (State.descriptorFetched_in hr hon hlink htail hstall hfence hphase hseq).trans (State.descriptorIn_good hgood)
    have hring := State.ring_advanceIndex hlen
    have hlen' : r.num < (s.advanceIndex r.num).hif.rings.length := (s.advanceIndex_length r.num).symm ▸ hlen
    refine ⟨_, congrArg finish heff, ?_, ?_, ?_, ?_, ?_⟩
    · exact s.get_advanceIndex r.num hindex hsize
    · rw [State.ring_trackIrq, State.ring_setRing_same _ _ _ hlen', hring]
      rfl
    · rw [State.ring_trackIrq, State.ring_setRing_same _ _ _ hlen']
    · rw [State.trackIrq_hidden, State.setRing_hidden, State.advanceIndex_hidden]
    · exact Keeps.trackIrq (Keeps.setRing ((Keeps.refl s _).advanceIndex r.num List.mem_cons_self) _ _)
  case nop =>
    intro s r d hhead hop hnotify
    obtain ⟨hhead, hdesc, hstale⟩ := hhead
    have heff : execNop r s = finish (s.complete r.num d.seq 2 Ev.NOP_DONE stOK 0xFFFF [] false) := by
      simp only [execNop, hhead, hop, if_true]
    exact ⟨_, heff, s.complete_notified 2 Ev.NOP_DONE stOK [] hdesc hstale hnotify (by decide)⟩
  case holds =>
    intro s r d hr hhead hop hnotify hbad hholds
    obtain ⟨hhead, hdesc, hstale⟩ := hhead
    have heff : execFence r s = finish (s.complete r.num d.seq 3 Ev.FENCE_DONE stOK 0xFFFF
        [dfield d.bits 4 1, dfield d.bits 6 2] false) := by
      rw [execFence_head hhead hop hbad, if_pos hholds, State.fenceDone]
    exact ⟨_, heff, s.complete_notified 3 Ev.FENCE_DONE stOK _ hdesc hstale hnotify (by decide)⟩
  case blocks =>
    intro s r d hr hhead hop hbad hlen hholds
    have heff : execFence r s = finish (s.fenceBlocked r.num d) := by
      rw [execFence_head hhead.1 hop hbad, if_neg (Bool.eq_false_iff.mp hholds)]
    exact ⟨_, heff, s.fenceBlocked_shows d hlen⟩
  case released =>
    intro s r d hr hblocked hstale hnotify hdesc hlen hholds
    have heff : execFenceRelease r s = finish ((s.fenceReleased r.num).fenceDone r.num d stOK) := by
      simp only [execFenceRelease, hblocked, hholds, if_true]
      rfl
    exact ⟨_, heff, State.fenceReleased_done hr hlen hdesc hstale hnotify⟩
  case stall =>
    intro s r d hr hblocked hreported htime
    have heff : execFenceStall r s = finish (((s.fenceStalled r.num).event Ev.FENCE_STALL r.num [r.num, d.seq, dfield d.bits 4 1,
        dfield d.bits 6 2, s.get (HIF_RING_DONE_DONE_SEQ (dfield d.bits 4 1))]).cause HIF_IRQ_CAUSE_FENCE_STALL) := by
      simp only [execFenceStall, hblocked, hreported, htime, Bool.false_eq_true, or_self, if_false]
      rfl
    refine ⟨_, heff, ?_, ?_⟩
    · exact ((Posts.of_event_gen s (s.fenceStalled r.num) _ _ _ rfl rfl rfl rfl rfl (by decide)).cause _).trackIrq
    · refine Touches.mk' ?_ ((((Keeps.refl s _).setRing r.num _).event _ _ _ (evtRegs_sub_right _)).cause _ (by decide))
      rw [State.cause_hidden, State.event_hidden, State.fenceStalled, State.setRing_hidden]

end Sys2Proof.Machine

namespace Sys2Proof.Machine

/-! ### The interrupt condition and HIF_MSI_CTRL (R95, R98) -/

section MsiCtrl
variable {s x : State}

/-- The registers of a block's interrupt, its island's among them, are not HIF_MSI_CTRL. -/
theorem irqRegs_ne_msiCtrl : ∀ b < 22, causeOff b ≠ HIF_MSI_CTRL ∧ causeOff b + 4 ≠ HIF_MSI_CTRL ∧
    RST_ISLAND (islandOf (causeOff b)) ≠ HIF_MSI_CTRL := by decide

theorem State.regValid_of_hidden (h : x.hidden = s.hidden) (q : Nat) : x.regValid q = s.regValid q := by
  have hcam : x.cam = s.cam := State.hidden_congr s x h State.cam
  have htime : x.time = s.time := State.hidden_congr s x h State.time
  unfold State.regValid State.now
  rw [hcam, htime]

variable (hk : Keeps s x [HIF_MSI_CTRL])
include hk

theorem Keeps.get_of_ne {f : Fld} (hf : f.off ≠ HIF_MSI_CTRL) : x.get f = s.get f :=
  State.get_eq_of_rget _ _ _ (hk _ (by simpa using hf))

theorem Keeps.on_of_ne {f : Fld} (hf : f.off ≠ HIF_MSI_CTRL) : x.on f = s.on f := State.on_eq_of_get _ _ _ (hk.get_of_ne hf)

/-- A field of an array of registers that lies above HIF_MSI_CTRL. -/
theorem Keeps.get_of_above {f : Fld} (b k : Nat) (hf : f.off = b + k) (hb : HIF_MSI_CTRL < b) : x.get f = s.get f :=
  hk.get_of_ne (Nat.ne_of_gt (hf ▸ Nat.lt_add_right k hb))

theorem Keeps.on_of_above {f : Fld} (b k : Nat) (hf : f.off = b + k) (hb : HIF_MSI_CTRL < b) : x.on f = s.on f :=
  State.on_eq_of_get _ _ _ (hk.get_of_above b k hf hb)

variable (hunread : x.hif.evtUnread = s.hif.evtUnread) (hhidden : x.hidden = s.hidden)
include hunread hhidden

/-- The level causes do not depend on HIF_MSI_CTRL (R96). -/
theorem State.levelBits_of_msiCtrl (b : Nat) : x.levelBits b = s.levelBits b := by
  have hthm : x.thm = s.thm := State.hidden_congr s x hhidden State.thm
  have hvalid : ∀ q, x.regValid q = s.regValid q := State.regValid_of_hidden hhidden
  have hclamp : ∀ p, x.get (PLN_THERM_STATUS_CLAMP p) = s.get (PLN_THERM_STATUS_CLAMP p) := fun p => hk.get_of_above _ _ rfl (by decide)
  have hretire : ∀ p, x.on (HLK_PORT_STATUS_RETIRE_PEND p) = s.on (HLK_PORT_STATUS_RETIRE_PEND p) := fun p =>
    hk.on_of_above _ _ rfl (by decide)
  have hstale : ∀ c, x.on (CAL_CH_STATUS_STALE c) = s.on (CAL_CH_STATUS_STALE c) := fun c => hk.on_of_above _ _ rfl (by decide)
  have hen : ∀ w, x.on (CAM_REG_CFG_EN w) = s.on (CAM_REG_CFG_EN w) := fun w => hk.on_of_above _ _ rfl (by decide)
  have hplane : ∀ w, x.get (CAM_REG_CFG_PLANE w) = s.get (CAM_REG_CFG_PLANE w) := fun w => hk.get_of_above _ _ rfl (by decide)
  have hsat : ∀ l, x.on (LPE_STATUS_SAT l) = s.on (LPE_STATUS_SAT l) := fun l => hk.on_of_above _ _ rfl (by decide)
  have hslot : ∀ l, x.get (LPE_STATUS_STATE l) = s.get (LPE_STATUS_STATE l) := fun l => hk.get_of_above _ _ rfl (by decide)
  unfold State.levelBits
  split <;> simp (disch := decide) only [hunread, hthm, hvalid, hclamp, hretire, hstale, hen, hplane, hsat, hslot, State.regWindow,
    hk.get_of_ne, hk.on_of_ne]

/-- The interrupt condition does not depend on HIF_MSI_CTRL. -/
theorem State.irqCond_of_msiCtrl : x.irqCond = s.irqCond := by
  have hsum : ∀ b < 22, x.sumBit b = s.sumBit b := by
    intro b hb
    obtain ⟨hcause, hmask, hisland⟩ := irqRegs_ne_msiCtrl b hb
    have hreg : ∀ {a}, a ≠ HIF_MSI_CTRL → x.rget a = s.rget a := fun ha => hk _ (by simpa using ha)
    rw [State.sumBit, State.sumBit, State.causeNow, State.causeNow, hreg hcause, hreg hmask,
      State.islandRuns_congr s x _ (hreg hisland), State.levelBits_of_msiCtrl hk hunread hhidden]
  have hen : x.get GLB_IRQ_EN_EN = s.get GLB_IRQ_EN_EN := hk.get_of_ne (by decide)
  unfold State.irqCond
  rw [Bool.eq_iff_iff, List.any_eq_true, List.any_eq_true, hen]
  exact exists_congr fun b => and_congr_right fun hb => by rw [hsum b (List.mem_range.mp hb)]

end MsiCtrl

/-! ### EVT and the write-back records (R75, R77) -/

section Entries
variable (s : State)

theorem State.evtLostRun_unread : s.evtLostRun.hif.evtUnread = s.hif.evtUnread := by
  unfold State.evtLostRun; split <;> rfl

theorem State.evtLostRun_hidden : s.evtLostRun.hidden = s.hidden := by
  unfold State.evtLostRun; split <;> rfl

/-- Draining the internal queue takes no entry from those written. -/
theorem State.evtDrain_unread (n : Nat) : ∃ l, (s.evtDrain n).hif.evtUnread = s.hif.evtUnread ++ l := by
  have hstop : ∃ l, s.evtLostRun.hif.evtUnread = s.hif.evtUnread ++ l := ⟨[], by rw [s.evtLostRun_unread, List.append_nil]⟩
  induction n generalizing s with
  | zero => exact hstop
  | succ n ih =>
    unfold State.evtDrain
    split
    · exact hstop
    next e q hq =>
      split
      · obtain ⟨l, hl⟩ := ih (({ s with hif := { s.hif with evtQueue := q } } : State).evtWrite e).evtLostRun
          ⟨[], by rw [State.evtLostRun_unread _, List.append_nil]⟩
        rw [hl, State.evtLostRun_unread, State.evtWrite_unread, List.append_assoc]
        exact ⟨_, rfl⟩
      · exact hstop

theorem State.evtDrain_hidden (n : Nat) : (s.evtDrain n).hidden = s.hidden := by
  induction n generalizing s with
  | zero => exact s.evtLostRun_hidden
  | succ n ih =>
    unfold State.evtDrain
    split
    · exact s.evtLostRun_hidden
    · split
      · rw [ih, State.evtLostRun_hidden, State.evtWrite_hidden]
        rfl
      · exact s.evtLostRun_hidden

/-- With room the oldest queued entry is written, and draining goes on behind it (R75). -/
theorem State.evtDrain_room {e : EvtEntry} {q : List EvtEntry} (n : Nat) (hq : s.hif.evtQueue = e :: q) (hroom : s.evtRoom = true) :
    s.evtDrain (n + 1) = (({ s with hif := { s.hif with evtQueue := q } } : State).evtWrite e).evtLostRun.evtDrain n := by
  simp only [State.evtDrain, hq, hroom, if_true]

/-- The 16 bytes of a write-back record (R77). -/
def State.wbBytes (n : Nat) : List Byte :=
  leBytes 2 (s.get (HIF_RING_STATUS_INDEX n)) ++ leBytes 2 (s.get (HIF_RING_DONE_DONE_SEQ n)) ++
    [BitVec.ofNat 8 (bits (s.rget (HIF_RING_STATUS n)).toNat 5 0)] ++ leBytes 3 0 ++ leBytes 8 s.now

theorem State.length_wbBytes (n : Nat) : (s.wbBytes n).length = 16 := by
  simp only [State.wbBytes, List.length_append, length_leBytes, List.length_cons, List.length_nil]

/-- A write-back record stands at its address, and no other byte of host memory changes. -/
theorem State.writeBack_hostMem (n : Nat) :
    Mem.reads (s.writeBack n).hostMem (s.ringWb n) 16 = s.wbBytes n ∧
      ∀ a, a < s.ringWb n ∨ s.ringWb n + 16 ≤ a → Mem.read (s.writeBack n).hostMem a = Mem.read s.hostMem a := by
  have hmem : (s.writeBack n).hostMem = Mem.writes s.hostMem (s.ringWb n) (s.wbBytes n) := rfl
  rw [hmem]
  refine ⟨?_, fun a h => Mem.read_writes_outside _ _ _ _ (by rwa [s.length_wbBytes])⟩
  exact s.length_wbBytes n ▸ Mem.reads_writes_same _ _ _

/-- Write-back records change neither a register nor the count of MSIs sent, and nothing outside the host interface. -/
theorem State.writeBackAll_keeps : (s.writeBackAll.regs, s.writeBackAll.hif.msiSent, s.writeBackAll.hidden) =
    (s.regs, s.hif.msiSent, s.hidden) := by
  unfold State.writeBackAll
  split
  · exact foldl_keeps (fun y : State => (y.regs, y.hif.msiSent, y.hidden)) (fun y n => by split <;> rfl) _ _
  · rfl

end Entries

/-! ### MSI and INTx (R98, R99) -/

section Irq
variable {s : State}

/-- The interrupt configuration of the PCIe function as a poll of it finds it: INTA is deasserted where it is not allowed (R99). -/
def State.pollIrq (s : State) (cfg : PcieIrqCfg) : State :=
  { s with hif := { s.hif with cfg := cfg, inta := s.hif.inta && !cfg.msiEnable && !cfg.intxDisable } }

/-- Count an MSI sent (R98). -/
def State.countMsi (s : State) : State := { s with hif := { s.hif with msiSent := s.hif.msiSent + 1 } }

/-- Stop the coalescing time (R98). -/
def State.stopCoal (s : State) : State := { s with hif := { s.hif with coalSince := none } }

/-- The MSI is sent: the write-back records that are due go before it, and it disarms (R94, R98). -/
def State.sendMsi (s : State) : State := (s.writeBackAll.putB HIF_MSI_CTRL_ARMED false).countMsi

theorem State.rearm_eq (s : State) : s.rearm = (s.putB HIF_MSI_CTRL_ARMED true).stopCoal := rfl

theorem State.inta_trackIrq (s : State) : s.trackIrq.hif.inta = (s.hif.inta && s.irqCond) := rfl
theorem State.msiSent_trackIrq (s : State) : s.trackIrq.hif.msiSent = s.hif.msiSent := rfl
theorem State.msiSent_countMsi (s : State) : s.countMsi.hif.msiSent = s.hif.msiSent + 1 := rfl
theorem State.evtEntries_stopCoal (s : State) : s.stopCoal.evtEntries = s.evtEntries := rfl
theorem State.evtUnread_stopCoal (s : State) : s.stopCoal.hif.evtUnread = s.hif.evtUnread := rfl
theorem State.coalSince_stopCoal (s : State) : s.stopCoal.hif.coalSince = none := rfl
theorem State.time_stopCoal (s : State) : s.stopCoal.time = s.time := rfl
theorem State.on_countMsi (s : State) (f : Fld) : s.countMsi.on f = s.on f := rfl
theorem State.on_stopCoal (s : State) (f : Fld) : s.stopCoal.on f = s.on f := rfl
theorem State.countMsi_hidden (s : State) : s.countMsi.hidden = s.hidden := rfl
theorem State.stopCoal_hidden (s : State) : s.stopCoal.hidden = s.hidden := rfl
theorem Keeps.countMsi {x : State} {l : List Nat} (h : Keeps s x l) : Keeps s x.countMsi l := h
theorem Keeps.stopCoal {x : State} {l : List Nat} (h : Keeps s x l) : Keeps s x.stopCoal l := h

/-- INTA is asserted (R99). -/
def State.raiseInta (s : State) : State := { s with hif := { s.hif with inta := true } }

theorem State.msiFire_msi (hcond : s.irqCond = true) (hi : s.islandRuns 1 = true) (hen : s.hif.cfg.msiEnable = true)
    (harmed : s.on HIF_MSI_CTRL_ARMED = true) (hmask : s.hif.cfg.msiMask = false) (hlink : s.hif.linkUp = true) :
    s.msiFire = s.sendMsi := by
  simp only [State.msiFire, hcond, hi, hen, harmed, hmask, hlink, and_self, not_true_eq_false, Bool.false_eq_true, not_false_eq_true,
    if_false, if_true]
  rfl

theorem State.msiFire_intx (hcond : s.irqCond = true) (hi : s.islandRuns 1 = true) (hen : s.hif.cfg.msiEnable = false)
    (hdis : s.hif.cfg.intxDisable = false) : s.msiFire = s.raiseInta := by
  simp only [State.msiFire, hcond, hi, hen, hdis, and_self, not_true_eq_false, Bool.false_eq_true, if_false]
  rfl

theorem State.coalSince_trackIrq (s : State) : s.trackIrq.hif.coalSince =
    if s.irqCond && s.on HIF_MSI_CTRL_ARMED then some (s.hif.coalSince.getD s.time.cyc) else none := rfl

/-- The coalescing time does not run while the MSI is not armed. -/
theorem State.coalSince_disarmed (h : s.on HIF_MSI_CTRL_ARMED = false) : s.trackIrq.hif.coalSince = none := by
  rw [State.coalSince_trackIrq, h, Bool.and_false]
  rfl

/-- Sending the MSI counts it, disarms it and changes nothing else but the write-back records. -/
theorem State.sendMsi_shows (s : State) :
    let t := s.sendMsi.trackIrq
    t.hif.msiSent = s.hif.msiSent + 1 ∧ t.on HIF_MSI_CTRL_ARMED = false ∧ t.hif.coalSince = none ∧ t.hidden = s.hidden ∧
      Keeps s t [HIF_MSI_CTRL] := by
  obtain ⟨hregs, hsent, hhidden⟩ : s.writeBackAll.regs = s.regs ∧ s.writeBackAll.hif.msiSent = s.hif.msiSent ∧
      s.writeBackAll.hidden = s.hidden := by simpa only [Prod.mk.injEq] using s.writeBackAll_keeps
  have hkeeps : Keeps s s.writeBackAll [HIF_MSI_CTRL] := fun a _ => congrArg (fun r => RegFile.get r a) hregs
  have hdisarmed : s.sendMsi.on HIF_MSI_CTRL_ARMED = false := by rw [State.sendMsi, State.on_countMsi, State.on_putB_same _ _ _ rfl]
  refine ⟨?_, ?_, State.coalSince_disarmed hdisarmed, ?_, ((hkeeps.putB _ _ (by decide)).countMsi).trackIrq⟩
  · rw [State.msiSent_trackIrq, State.sendMsi, State.msiSent_countMsi, State.putB_hif, hsent]
  · rw [State.on_trackIrq, hdisarmed]
  · rw [State.trackIrq_hidden, State.sendMsi, State.countMsi_hidden, State.putB_hidden, hhidden]

/-- Asserting INTA changes nothing else (R99). -/
theorem State.raiseInta_shows (s : State) (hcond : s.irqCond = true) :
    let t := s.raiseInta.trackIrq
    t.hif.inta = true ∧ t.hif.msiSent = s.hif.msiSent ∧ t.hidden = s.hidden ∧ Keeps s t [] := by
  have hraised : s.raiseInta.irqCond = s.irqCond := rfl
  refine ⟨?_, rfl, rfl, fun _ _ => rfl⟩
  rw [State.inta_trackIrq, hraised, hcond]
  rfl

/-- Arming the MSI leaves the interrupt condition, and starts the coalescing time when it holds (R98). -/
theorem State.rearm_shows (s : State) : s.rearm.trackIrq.on HIF_MSI_CTRL_ARMED = true ∧
    s.rearm.trackIrq.hif.coalSince = (if s.irqCond = true then some s.time.cyc else none) ∧
    s.rearm.trackIrq.evtEntries = s.evtEntries ∧ s.rearm.trackIrq.hidden = s.hidden ∧ Keeps s s.rearm.trackIrq [HIF_MSI_CTRL] := by
  rw [State.rearm_eq]
  have harmed : (s.putB HIF_MSI_CTRL_ARMED true).stopCoal.on HIF_MSI_CTRL_ARMED = true :=
    (State.on_stopCoal ..).trans (State.on_putB_same _ _ _ rfl)
  have hkeeps : Keeps s (s.putB HIF_MSI_CTRL_ARMED true).stopCoal [HIF_MSI_CTRL] := ((Keeps.refl s _).putB _ _ (by decide)).stopCoal
  have hhidden : (s.putB HIF_MSI_CTRL_ARMED true).stopCoal.hidden = s.hidden := (State.stopCoal_hidden _).trans (State.putB_hidden ..)
  have hunread : (s.putB HIF_MSI_CTRL_ARMED true).stopCoal.hif.evtUnread = s.hif.evtUnread := by
    rw [State.evtUnread_stopCoal, State.putB_hif]
  refine ⟨(State.on_trackIrq ..).trans harmed, ?_, ?_, (State.trackIrq_hidden _).trans hhidden, hkeeps.trackIrq⟩
  · rw [State.coalSince_trackIrq, State.irqCond_of_msiCtrl hkeeps hunread hhidden, harmed, Bool.and_true, State.coalSince_stopCoal,
      State.time_stopCoal, State.putB_time, Option.getD_none]
  · rw [State.evtEntries_trackIrq, State.evtEntries_stopCoal, State.evtEntries_putB]

theorem State.reqWrite_msiCtrl {req : Fin 6} (f : State → State) (hreq : req ≠ 5) (hi : s.islandRuns 1 = true) :
    s.reqWrite req HIF_MSI_CTRL f = f s :=
  State.reqWrite_runs s req HIF_MSI_CTRL f (reaches_of_ne hreq _) hi

/-- A write of HIF_MSI_CTRL without REARM while no coalescing time runs stores COAL_US alone (R98). -/
theorem State.msiCtrlWrite_coalUs {v : Word} (hcoal : s.hif.coalSince = none) (hv : bit v.toNat 16 = false) :
    s.msiCtrlWrite v = s.put HIF_MSI_CTRL_COAL_US (min (bits v.toNat 9 0) 1000) := by
  simp only [State.msiCtrlWrite, hv, State.setCoalUs, hcoal, Bool.false_eq_true, if_false]

end Irq

/-- Settles O12: entries by `State.evtDrain_room`, records by `State.writeBack_hostMem`, the interrupt outputs by the two cases of
`State.msiFire`, and HIF_MSI_CTRL by the write of its fields. -/
theorem entriesAndInterrupts : Obligations.EntriesAndInterrupts := by
  refine ⟨?drain, ?record, ?msi, ?intx, ?rearm, ?coalUs⟩
  case drain =>
    intro s e q hq hroom
    refine ⟨_, congrArg finish (s.evtDrain_room 256 hq hroom), ?_, ?_⟩
    · obtain ⟨l, hl⟩ := State.evtDrain_unread (({ s with hif := { s.hif with evtQueue := q } } : State).evtWrite e).evtLostRun 256
      rw [State.evtLostRun_unread, State.evtWrite_unread, List.append_assoc] at hl
      exact ⟨l, hl⟩
    · rw [State.trackIrq_hidden, State.evtDrain_hidden, State.evtLostRun_hidden, State.evtWrite_hidden]
      rfl
  case record =>
    intro s r hdue hlink hi
    have heff : execWriteBackRecord r s = finish (s.writeBack r.num) := congrArg finish (if_pos ⟨hdue, hlink, hi⟩)
    obtain ⟨hrecord, hother⟩ := s.writeBack_hostMem r.num
    exact ⟨_, heff, hrecord, hother, rfl, s.writeBack_hidden r.num, fun _ _ => rfl⟩
  case msi =>
    intro s cfg hcond hi hlink hen hmask harmed
    have heff : execMsiCoalTimerExpired cfg s = finish (s.pollIrq cfg).sendMsi :=
      congrArg finish (State.msiFire_msi (s := s.pollIrq cfg) hcond hi hen harmed hmask hlink)
    exact ⟨_, heff, (s.pollIrq cfg).sendMsi_shows⟩
  case intx =>
    intro s cfg hcond hi hen hdis
    have heff : execMsiCoalTimerExpired cfg s = finish (s.pollIrq cfg).raiseInta :=
      congrArg finish (State.msiFire_intx (s := s.pollIrq cfg) hcond hi hen hdis)
    exact ⟨_, heff, (s.pollIrq cfg).raiseInta_shows hcond⟩
  case rearm =>
    intro s req hreq hi
    exact ⟨_, congrArg finish (State.reqWrite_msiCtrl _ hreq hi), s.rearm_shows⟩
  case coalUs =>
    intro s req v hreq hi hcoal hv
    refine ⟨_, congrArg finish ((State.reqWrite_msiCtrl _ hreq hi).trans (State.msiCtrlWrite_coalUs hcoal hv)), ?_, ?_⟩
    · rw [State.get_trackIrq, State.get_put_same _ _ _ rfl]
      exact Nat.mod_eq_of_lt (lt_of_le_of_lt (Nat.min_le_right _ _) (by decide))
    · exact Silent.of_regsOnly ((RegsOnly.refl s).put _ _) ((Keeps.refl s _).put _ _ (by decide))

end Sys2Proof.Machine

namespace Sys2Proof.Machine

/-! ### Parking the rings at a link loss (R102) -/

section Park
variable {s x : State}

theorem ringOfPage_num (r : RingId) : ringOfPage r.num = some r := by
  cases r with
  | job k => revert k; decide
  | cmx | cam | mbxIn | evt | mbxOut => rfl

theorem RingId.num_injective {q r : RingId} (h : q.num = r.num) : q = r :=
  Option.some.inj ((ringOfPage_num q).symm.trans ((congrArg ringOfPage h).trans (ringOfPage_num r)))

/-- The registers that parking ring `n` can change while the link is down. -/
def parkRegs (n : Nat) : List Nat := [HIF_RING_STATUS n, HIF_RING_CFG n, HIF_RING_DONE n, HIF_EVT_LOST]

/-- The registers of another ring are not among them. -/
theorem ring_notMem_parkRegs {m n : Nat} (h : m ≠ n) : HIF_RING_STATUS m ∉ parkRegs n ∧ HIF_RING_CFG m ∉ parkRegs n := by
  simp only [parkRegs, List.mem_cons, List.not_mem_nil, or_false, HIF_RING_STATUS, HIF_RING_CFG, HIF_RING_DONE, HIF_EVT_LOST]
  constructor <;> omega

theorem linkStatus_notMem_parkRegs (n : Nat) : HIF_LINK_STATUS ∉ parkRegs n := by
  simp only [parkRegs, List.mem_cons, List.not_mem_nil, or_false, HIF_LINK_STATUS, HIF_RING_STATUS, HIF_RING_CFG, HIF_RING_DONE,
    HIF_EVT_LOST]
  omega

/-- Nothing but registers of the list and rings changes, while the link is down. -/
def OffLink (s x : State) (l : List Nat) : Prop := x.hif.linkUp = false ∧ x.hidden = s.hidden ∧ Keeps s x l

theorem OffLink.trans {y : State} {l : List Nat} (h : OffLink s x l) (h' : OffLink x y l) : OffLink s y l := by
  obtain ⟨-, hhidden, hkeeps⟩ := h
  obtain ⟨hlink, hhidden', hkeeps'⟩ := h'
  exact ⟨hlink, hhidden'.trans hhidden, hkeeps.trans hkeeps'⟩

/-- While the link is down an entry is only counted (R102). -/
theorem OffLink.evtPost (e : EvtEntry) {l : List Nat} (h : OffLink s x l) (hl : HIF_EVT_LOST ∈ l) : OffLink s (x.evtPost e) l := by
  obtain ⟨hlink, hhidden, hkeeps⟩ := h
  refine ⟨(x.evtPost_linkUp e).trans hlink, (x.evtPost_hidden e).trans hhidden, ?_⟩
  unfold State.evtPost
  split
  · exact hkeeps
  · rw [if_pos (by simp [hlink])]
    exact hkeeps.addSat _ _ hl

theorem OffLink.complete (n seq typ code status unit : Nat) (p : List Nat) (b : Bool) (hlink : s.hif.linkUp = false) :
    OffLink s (s.complete n seq typ code status unit p b) (parkRegs n) := by
  have hmarked : ∀ r : Ring, OffLink s ((s.setRing n r).watermark n) (parkRegs n) := by
    intro r
    obtain ⟨-, -, hl, -⟩ := (s.setRing n r).watermark_hif n
    refine ⟨hl.trans hlink, (State.watermark_hidden ..).trans (s.setRing_hidden n r), fun a ha => ?_⟩
    exact State.rget_watermark _ _ _ fun e => ha (by simp [parkRegs, e])
  unfold State.complete
  split
  · exact ⟨hlink, rfl, Keeps.refl s _⟩
  · dsimp only
    split
    · exact (hmarked _).evtPost _ (by simp [parkRegs])
    · exact hmarked _

/-- Without a job, aborting what a ring has not started completes its descriptors. -/
theorem OffLink.abortUnstarted (n : Nat) (hlink : s.hif.linkUp = false) (hjob : s.press.job = none) :
    OffLink s (s.abortUnstarted n) (parkRegs n) := by
  refine List.foldlRecOn (motive := fun x : State => OffLink s x (parkRegs n)) _ _ ⟨hlink, rfl, Keeps.refl s _⟩ fun x hx d _ => ?_
  have hpress : x.press = s.press := State.hidden_congr s x hx.2.1 State.press
  rw [hpress, hjob, Bool.and_false, if_neg Bool.false_ne_true]
  exact hx.trans (OffLink.complete _ _ _ _ _ _ _ _ hx.1)

/-- A parked ring: OFF, with PARKED set and ENABLE clear (R102). -/
def State.Parked (s : State) (r : RingId) : Prop :=
  s.ust (.ring r) = .off ∧ s.on (HIF_RING_STATUS_PARKED r.num) = true ∧ s.on (HIF_RING_CFG_ENABLE r.num) = false

/-- Whether a ring is parked shows in two registers. -/
theorem State.Parked.congr {r : RingId} (h : s.Parked r) (hstatus : x.rget (HIF_RING_STATUS r.num) = s.rget (HIF_RING_STATUS r.num))
    (hcfg : x.rget (HIF_RING_CFG r.num) = s.rget (HIF_RING_CFG r.num)) : x.Parked r := by
  obtain ⟨hust, hparked, hen⟩ := h
  refine ⟨(State.ust_of_rget s x (.ring r) (by simp) hstatus).trans hust, ?_, ?_⟩
  · exact (State.on_eq_of_get _ _ _ (State.get_eq_of_rget s x _ hstatus)).trans hparked
  · exact (State.on_eq_of_get _ _ _ (State.get_eq_of_rget s x _ hcfg)).trans hen

/-- The registers of a ring as parking writes them. -/
def State.showParked (s : State) (r : RingId) : State :=
  ((((s.putB (HIF_RING_STATUS_PARKED r.num) true).setUst (.ring r) .off).setPend (.ring r) false).putB
    (HIF_RING_CFG_ENABLE r.num) false).putB (HIF_RING_STATUS_FENCE_WAIT r.num) false

theorem State.showParked_parked (s : State) (r : RingId) : (s.showParked r).Parked r := by
  have hcfg : HIF_RING_CFG r.num ≠ HIF_RING_STATUS r.num := by
    simp only [HIF_RING_CFG, HIF_RING_STATUS]
    omega
  have hwait : ∀ (y : State) (g : Fld), g.hi < 5 → g.lo ≤ g.hi → (y.putB (HIF_RING_STATUS_FENCE_WAIT r.num) false).get g = y.get g :=
    fun y g hhi hlo => State.get_putB_apart _ _ _ _ rfl (.inr (.inr ⟨hhi, hlo⟩))
  have hen : ∀ (y : State) (g : Fld), g.off = HIF_RING_STATUS r.num → (y.putB (HIF_RING_CFG_ENABLE r.num) false).get g = y.get g :=
    fun y g hg => State.get_putB_apart _ _ _ _ rfl (.inl fun e => hcfg (e.trans hg))
  refine ⟨?_, ?_, ?_⟩
  · show UState.ofCode ((s.showParked r).get (HIF_RING_STATUS_STATE r.num)) = .off
    rw [State.showParked, hwait _ _ (show 2 < 5 by decide) (Nat.zero_le 2), hen _ _ rfl]
    exact (State.ust_setPend _ (.ring r) false).trans (State.ust_setUst_same _ (.ring r) .off)
  · refine (State.on_eq_of_get _ _ _ ((hwait _ _ (show 4 < 5 by decide) (le_refl 4)).trans (hen _ _ rfl))).trans ?_
    refine (State.on_putB_apart _ _ _ _ rfl (.inr (.inl ⟨show 3 < 4 by decide, le_refl 3⟩))).trans ?_
    exact (State.on_put_apart _ _ _ _ rfl (.inr (.inl ⟨show 2 < 4 by decide, Nat.zero_le 2⟩))).trans (State.on_putB_same _ _ _ rfl)
  · refine (State.on_putB_apart _ _ _ _ rfl (.inl hcfg.symm)).trans (State.on_putB_same _ _ _ rfl)

theorem RegsOnly.showParked (s : State) (r : RingId) : RegsOnly s (s.showParked r) :=
  (((((RegsOnly.refl s).putB _ _).setUst _ _ (by simp)).setPend _ _ (by simp)).putB _ _).putB _ _

theorem Keeps.showParked (s : State) (r : RingId) : Keeps s (s.showParked r) (parkRegs r.num) := by
  have hs : HIF_RING_STATUS r.num ∈ parkRegs r.num := List.mem_cons_self
  have hc : HIF_RING_CFG r.num ∈ parkRegs r.num := List.mem_cons_of_mem _ List.mem_cons_self
  have hust := ((Keeps.refl s _).putB (HIF_RING_STATUS_PARKED r.num) true hs).setUst (.ring r) .off hs
  exact ((hust.setPend (.ring r) false hs).putB (HIF_RING_CFG_ENABLE r.num) false hc).putB (HIF_RING_STATUS_FENCE_WAIT r.num) false hs

theorem State.parkRing_eq (s : State) (r : RingId) : s.parkRing r =
    (((s.setRing r.num { s.ring r.num with fence := none, heldDb := none }).abortUnstarted r.num).showParked r).dropFault (.ring r) := rfl

/-- Drop the recorded faults of units. -/
def State.withFaults (s : State) (fs : List (UnitId × Nat)) : State := { s with unitFaults := fs }

@[simp] theorem State.withFaults_press (s : State) (fs : List (UnitId × Nat)) : (s.withFaults fs).press = s.press := rfl

theorem State.withFaults_self (s : State) : s.hidden = s.hidden.withFaults s.unitFaults := rfl

theorem State.withFaults_withFaults (s : State) (fs gs : List (UnitId × Nat)) : (s.withFaults fs).withFaults gs = s.withFaults gs := rfl

theorem State.hidden_press (s : State) : s.hidden.press = s.press := rfl

theorem State.dropFault_hidden (s : State) (u : UnitId) :
    (s.dropFault u).hidden = s.hidden.withFaults (s.dropFault u).unitFaults := rfl

theorem Keeps.dropFault {l : List Nat} (h : Keeps s x l) (u : UnitId) : Keeps s (x.dropFault u) l := h

theorem State.Parked.dropFault {r : RingId} (h : s.Parked r) (u : UnitId) : (s.dropFault u).Parked r := h.congr rfl rfl

theorem RegsOnly.hif (h : RegsOnly s x) : x.hif = s.hif := by
  unfold RegsOnly at h
  rw [h]

/-- Parking a ring while the link is down and no job is open changes its own registers, and forgets its recorded fault. -/
theorem State.parkRing_shows (r : RingId) (hlink : s.hif.linkUp = false) (hjob : s.press.job = none) :
    (s.parkRing r).Parked r ∧ (s.parkRing r).hif.linkUp = false ∧
      (s.parkRing r).hidden = s.hidden.withFaults (s.parkRing r).unitFaults ∧ Keeps s (s.parkRing r) (parkRegs r.num) := by
  rw [State.parkRing_eq]
  obtain ⟨hl, hhidden, hkeeps⟩ := OffLink.abortUnstarted (s := s.setRing r.num { s.ring r.num with fence := none, heldDb := none }) r.num
    hlink hjob
  generalize (s.setRing r.num { s.ring r.num with fence := none, heldDb := none }).abortUnstarted r.num = y at hl hhidden hkeeps
  have hregs := RegsOnly.showParked y r
  have hshown : Keeps s (y.showParked r) (parkRegs r.num) := Keeps.trans hkeeps (Keeps.showParked y r)
  refine ⟨(y.showParked_parked r).dropFault _, ?_, ?_, hshown.dropFault _⟩
  · rw [State.dropFault_hif, hregs.hif, hl]
  · rw [State.dropFault_hidden, hregs.hidden, hhidden, State.setRing_hidden]

/-- A parked ring stays so while others are parked. -/
theorem State.Parked.parkRing {q : RingId} (r : RingId) (hlink : s.hif.linkUp = false) (hjob : s.press.job = none) (hq : s.Parked q) :
    (s.parkRing r).Parked q := by
  obtain ⟨hparked, -, -, hkeeps⟩ := State.parkRing_shows r hlink hjob
  by_cases h : q = r
  · rw [h]
    exact hparked
  · obtain ⟨hstatus, hcfg⟩ := ring_notMem_parkRegs fun e => h (RingId.num_injective e)
    exact hq.congr (hkeeps _ hstatus) (hkeeps _ hcfg)

/-- All rings of a list are parked in turn (R102). -/
theorem State.parkRings_shows (rs : List RingId) (hlink : s.hif.linkUp = false) (hjob : s.press.job = none) :
    let t := rs.foldl (fun s r => s.parkRing r) s
    (∀ r, r ∈ rs ∨ s.Parked r → t.Parked r) ∧ t.hif.linkUp = false ∧ t.hidden = s.hidden.withFaults t.unitFaults ∧
      t.rget HIF_LINK_STATUS = s.rget HIF_LINK_STATUS := by
  induction rs generalizing s with
  | nil => exact ⟨fun r hr => hr.resolve_left List.not_mem_nil, hlink, s.withFaults_self, rfl⟩
  | cons q rs ih =>
    obtain ⟨hparked, hlink', hhidden, hkeeps⟩ := State.parkRing_shows q hlink hjob
    have hjob' : (s.parkRing q).press.job = none := by
      rw [← State.hidden_press, hhidden, State.withFaults_press, State.hidden_press, hjob]
    obtain ⟨hall, hl, hh, hstatus⟩ := ih hlink' hjob'
    refine ⟨fun r hr => hall r ?_, hl, ?_, hstatus.trans (hkeeps _ (linkStatus_notMem_parkRegs _))⟩
    · rcases hr with hr | hr
      · rcases List.mem_cons.mp hr with rfl | hr
        · exact .inr hparked
        · exact .inl hr
      · exact .inr (hr.parkRing q hlink hjob)
    · rw [List.foldl_cons, hh, hhidden, State.withFaults_withFaults]

/-- The state at a link loss, before the rings are parked: the loss is counted, and so are the entries that can no longer be written. -/
def State.linkGone (s : State) : State :=
  (({ s with hif := { s.hif with linkUp := false, evtQueue := [] } } : State).addSat HIF_LINK_STATUS_DOWN_COUNT 1).addSat
    HIF_EVT_LOST_COUNT s.hif.evtQueue.length

theorem State.linkGone_hidden (s : State) : s.linkGone.hidden = s.hidden := by
  rw [State.linkGone, State.addSat_hidden, State.addSat_hidden]
  rfl

theorem State.linkGone_job (h : s.press.job = none) : s.linkGone.press.job = none := by
  rw [State.linkGone, State.addSat_press, State.addSat_press, h]

theorem State.linkGone_linkUp (s : State) : s.linkGone.hif.linkUp = false := by rw [State.linkGone, State.addSat_hif, State.addSat_hif]

theorem State.linkDown_eq (s : State) : s.linkDown = if ¬ s.hif.linkUp then s else
    allRings.foldl (fun s r => s.parkRing r) ((s.linkGone.endJobAtCommitted 4).updJob fun j => { j with ringLeft := true }) := rfl

/-- A link loss without an active job parks every ring (R102). -/
theorem State.linkDown_noJob (hlink : s.hif.linkUp = true) (hjob : s.press.job = none) :
    s.linkDown = allRings.foldl (fun s r => s.parkRing r) s.linkGone := by
  have hjob' : s.linkGone.press.job = none := State.linkGone_job hjob
  have hend : (s.linkGone.endJobAtCommitted 4).updJob (fun j => { j with ringLeft := true }) = s.linkGone := by
    rw [State.endJobAtCommitted, hjob', State.updJob, hjob']
  rw [State.linkDown_eq, if_neg (not_not_intro hlink), hend]

theorem State.linkGone_downCount (s : State) (h : s.get HIF_LINK_STATUS_DOWN_COUNT < 65535) :
    s.linkGone.get HIF_LINK_STATUS_DOWN_COUNT = s.get HIF_LINK_STATUS_DOWN_COUNT + 1 := by
  rw [State.linkGone, State.get_addSat_apart _ _ _ _ rfl (by decide), State.get_addSat_same _ _ _ rfl]
  exact min_eq_right h

end Park

/-! ### Resets of the host island (R103, R104) -/

section HostReset
variable {s : State}

theorem RegFile.get_drop (r : RegFile) {t : Nat → Bool} {a : Nat} (h : t a = true) : RegFile.get (r.drop t) a = resetOf a := by
  induction r with
  | nil => rfl
  | cons e r ih =>
    unfold RegFile.drop at *
    by_cases he : t e.1 = true
    · simpa [he] using ih
    · have hne : e.1 ≠ a := fun e' => he (e' ▸ h)
      simpa [he, RegFile.get, hne] using ih

/-- The status register of a ring does not survive the reset, and its reset value shows OFF. -/
theorem ringStatus_resets (r : RingId) :
    (blockOf (HIF_RING_STATUS r.num) == 3 && !hifKept (HIF_RING_STATUS r.num)) = true ∧
      UState.ofCode (bits (resetOf (HIF_RING_STATUS r.num)).toNat 2 0) = .off := by
  cases r with
  | job k => revert k; decide
  | cmx | cam | mbxIn | evt | mbxOut => decide

theorem State.watermark_report (s : State) (n : Nat) : (s.watermark n).hif.report = s.hif.report := by
  unfold State.watermark
  split
  · rfl
  · simp only [State.wbDue, State.setRing, State.putB_hif, State.put_hif]

theorem State.watermark_evtEntries (s : State) (n : Nat) : (s.watermark n).evtEntries = s.evtEntries := by
  obtain ⟨hqueue, hunread, -, -⟩ := s.watermark_hif n
  rw [State.evtEntries, State.evtEntries, hqueue, hunread]

/-- The watermarks of the host-to-device rings are shown. -/
def State.watermarks (s : State) : State := (List.range 7).foldl State.watermark s

theorem State.watermarks_report (s : State) : s.watermarks.hif.report = s.hif.report := by
  rw [State.watermarks]
  exact foldl_keeps (f := State.watermark) (fun x : State => x.hif.report) State.watermark_report _ s

theorem State.watermarks_evtEntries (s : State) : s.watermarks.evtEntries = s.evtEntries := by
  rw [State.watermarks]
  exact foldl_keeps (f := State.watermark) State.evtEntries State.watermark_evtEntries _ s

theorem State.rget_watermarks (s : State) {a : Nat} (h : ∀ n, a ≠ HIF_RING_DONE n) : s.watermarks.rget a = s.rget a := by
  rw [State.watermarks]
  exact foldl_keeps (f := State.watermark) (fun x : State => x.rget a) (fun x n => x.rget_watermark n a (h n)) _ s

/-- A reset of the host island drops what was queued for the driver, reports its reason and has every ring OFF (R103, R104). -/
theorem State.hostReset_shows (s : State) (reason : Nat) :
    (s.hostReset reason).evtEntries = [] ∧ (s.hostReset reason).hif.report.map (·.reason) = some reason ∧
      ∀ r, (s.hostReset reason).ust (.ring r) = .off := by
  obtain ⟨y, hy, hreport, hentries, hregs⟩ : ∃ y : State, s.hostReset reason = y.watermarks ∧ y.hif.report.map (·.reason) = some reason ∧
      y.evtEntries = [] ∧ y.regs = s.regs.drop (fun a => (blockOf a == 3 && !hifKept a) || a == GLB_IRQ_EN) :=
    ⟨_, rfl, rfl, rfl, rfl⟩
  rw [hy]
  refine ⟨y.watermarks_evtEntries.trans hentries, by rw [State.watermarks_report, hreport], fun r => ?_⟩
  obtain ⟨hdropped, hoff⟩ := ringStatus_resets r
  have hdone : ∀ n, HIF_RING_STATUS r.num ≠ HIF_RING_DONE n := fun n => by
    simp only [HIF_RING_STATUS, HIF_RING_DONE]
    omega
  have hstatus : y.watermarks.rget (HIF_RING_STATUS r.num) = resetOf (HIF_RING_STATUS r.num) := by
    rw [State.rget_watermarks _ hdone, State.rget, hregs]
    exact RegFile.get_drop _ (by rw [hdropped, Bool.true_or])
  show UState.ofCode (bits (y.watermarks.rget (HIF_RING_STATUS r.num)).toNat 2 0) = .off
  rw [hstatus, hoff]

/-- The speed and the width that a link comes up with. -/
def State.showLink (s : State) (speed width : Nat) : State := (s.put HIF_LINK_STATUS_SPEED speed).put HIF_LINK_STATUS_WIDTH width

/-- The link is up. -/
def State.raiseLink (s : State) : State := { s with hif := { s.hif with linkUp := true } }

theorem State.showLink_shows (s : State) (speed width : Fin 16) (hspeed : speed.val < 8) :
    (s.showLink speed width).get HIF_LINK_STATUS_SPEED = speed.val ∧ (s.showLink speed width).get HIF_LINK_STATUS_WIDTH = width.val := by
  refine ⟨?_, ?_⟩
  · rw [State.showLink, State.get_put_apart _ _ _ _ rfl (by decide), State.get_put_same _ _ _ rfl]
    exact Nat.mod_eq_of_lt hspeed
  · rw [State.showLink, State.get_put_same _ _ _ rfl]
    exact Nat.mod_eq_of_lt width.isLt

end HostReset

end Sys2Proof.Machine

namespace Sys2Proof.Machine

/-! ### What the interrupt bookkeeping and a raised link leave -/

section HostSide
variable {s : State}

theorem State.report_trackIrq (s : State) : s.trackIrq.hif.report = s.hif.report := rfl
theorem State.linkUp_trackIrq (s : State) : s.trackIrq.hif.linkUp = s.hif.linkUp := rfl
theorem State.linkUp_raiseLink (s : State) : s.raiseLink.hif.linkUp = true := rfl
theorem State.report_raiseLink (s : State) : s.raiseLink.hif.report = s.hif.report := rfl
theorem State.evtEntries_raiseLink (s : State) : s.raiseLink.evtEntries = s.evtEntries := rfl
theorem State.get_raiseLink (s : State) (f : Fld) : s.raiseLink.get f = s.get f := rfl
theorem State.hif_showLink (s : State) (speed width : Nat) : (s.showLink speed width).hif = s.hif := rfl
theorem State.evtEntries_showLink (s : State) (speed width : Nat) : (s.showLink speed width).evtEntries = s.evtEntries := rfl

theorem State.pcieLinkUp_up (speed width : Fin 16) (h : s.hif.linkUp = true) :
    execPcieLinkUp speed width s = finish (s.showLink speed width) := congrArg finish (if_pos h)

theorem State.pcieLinkUp_down (speed width : Fin 16) (h : s.hif.linkUp = false) :
    execPcieLinkUp speed width s = finish ((s.hostReset 1).showLink speed width).raiseLink :=
  congrArg finish (if_neg (by simp [h]))

/-- What the driver finds after any reset of the host island that leaves a report. -/
theorem State.hostReset_found (s : State) (reason : Nat) :
    (s.hostReset reason).trackIrq.evtEntries = [] ∧ (s.hostReset reason).trackIrq.hif.report.map (·.reason) = some reason ∧
      ∀ r ∈ allRings, (s.hostReset reason).trackIrq.ust (.ring r) = .off := by
  obtain ⟨hentries, hreport, hoff⟩ := s.hostReset_shows reason
  refine ⟨(State.evtEntries_trackIrq _).trans hentries, ?_, fun r _ => (State.ust_trackIrq _ _).trans (hoff r)⟩
  rw [State.report_trackIrq, hreport]

/-- A reset that first ends the job at the page boundary is found alike. -/
theorem State.flr_found (s : State) (reason : Nat) :
    (s.flr reason).trackIrq.evtEntries = [] ∧ (s.flr reason).trackIrq.hif.report.map (·.reason) = some reason ∧
      ∀ r ∈ allRings, (s.flr reason).trackIrq.ust (.ring r) = .off := by
  rw [State.flr]
  exact State.hostReset_found _ reason

theorem State.perstIn_cold (h : s.perstWarm = false) : s.perstIn = (s.noteSource 3).flr 4 := if_neg (by simp [h])

end HostSide

/-- Settles O14: a link loss parks the rings (`State.parkRings_shows`), and each reset of the host island is `State.hostReset_shows`. -/
theorem linkAndHostResets : Obligations.LinkAndHostResets := by
  refine ⟨?lost, ?shown, ?back, ?flr, ?hot, ?perst⟩
  case lost =>
    intro s hi hlink hjob hcount
    have heff : execPcieLinkDown s = finish (allRings.foldl (fun s r => s.parkRing r) s.linkGone) :=
      congrArg finish ((if_pos hi).trans (State.linkDown_noJob hlink hjob))
    obtain ⟨hparked, hdown, hhidden, hstatus⟩ := State.parkRings_shows allRings s.linkGone_linkUp (State.linkGone_job hjob)
    generalize allRings.foldl (fun s r => s.parkRing r) s.linkGone = t at heff hparked hdown hhidden hstatus
    refine ⟨t.trackIrq, heff, (State.linkUp_trackIrq t).trans hdown, ?_, fun r hr => hparked r (.inl hr), ?_⟩
    · rw [State.get_trackIrq, State.get_eq_of_rget _ _ _ hstatus, s.linkGone_downCount hcount]
    · rw [State.trackIrq_hidden, State.trackIrq_unitFaults, hhidden, State.linkGone_hidden, State.withFaults]
  case shown =>
    intro s speed width hlink hspeed
    obtain ⟨hs, hw⟩ := s.showLink_shows speed width hspeed
    exact ⟨_, State.pcieLinkUp_up speed width hlink, hs, hw, Silent.of_regsOnly (((RegsOnly.refl s).put _ _).put _ _)
      (((Keeps.refl s _).put _ _ (by decide)).put _ _ (by decide))⟩
  case back =>
    intro s speed width hlink hspeed
    obtain ⟨hs, hw⟩ := (s.hostReset 1).showLink_shows speed width hspeed
    obtain ⟨hentries, hreport, -⟩ := s.hostReset_shows 1
    refine ⟨_, State.pcieLinkUp_down speed width hlink, ?_, ?_, ?_, ?_, ?_⟩
    · rw [State.linkUp_trackIrq, State.linkUp_raiseLink]
    · rw [State.get_trackIrq, State.get_raiseLink, hs]
    · rw [State.get_trackIrq, State.get_raiseLink, hw]
    · rw [State.report_trackIrq, State.report_raiseLink, State.hif_showLink, hreport]
    · rw [State.evtEntries_trackIrq, State.evtEntries_raiseLink, State.evtEntries_showLink, hentries]
  case flr => exact fun s => ⟨_, rfl, State.flr_found _ 2⟩
  case hot => exact fun s => ⟨_, rfl, State.flr_found _ 3⟩
  case perst => exact fun s hcold => ⟨_, congrArg finish (State.perstIn_cold hcold), State.flr_found _ 4⟩

end Sys2Proof.Machine

namespace Sys2Proof.Machine

/-! ### The configuration of a ring, which a ring that leaves ON keeps (R68) -/

/-- The configuration register of a ring. -/
def State.ringCfg (s : State) (r : RingId) : Word := s.rget (HIF_RING_CFG r.num)

/-- Does a field lie outside the registers of the rings? -/
def Fld.offRings (f : Fld) : Bool := Nat.blt f.off (HIF_RING_BASE_LO 0) || Nat.ble (HIF_RING_BASE_LO 10) f.off

section RingCfg
variable (s : State) (r : RingId)

theorem RingId.num_lt (r : RingId) : r.num < 10 := by
  cases r with
  | job k => exact k.isLt.trans (by decide)
  | cmx | cam | mbxIn | evt | mbxOut => decide

theorem Fld.offRings_ne {f : Fld} (h : f.offRings = true) : f.off ≠ HIF_RING_CFG r.num := by
  have hr := RingId.num_lt r
  simp only [Fld.offRings, HIF_RING_BASE_LO, Bool.or_eq_true, Nat.blt_eq, Nat.ble_eq] at h
  simp only [HIF_RING_CFG]
  omega

theorem ringCfg_ne_status (n : Nat) : HIF_RING_STATUS n ≠ HIF_RING_CFG r.num := by
  simp only [HIF_RING_STATUS, HIF_RING_CFG]
  omega

theorem ringCfg_notMem_doneRegs (n : Nat) : HIF_RING_CFG r.num ∉ doneRegs n := by
  have hr := RingId.num_lt r
  simp only [doneRegs, evtRegs, List.mem_cons, List.not_mem_nil, or_false, HIF_RING_CFG, HIF_RING_DONE, HIF_RING_STATUS, HIF_EVT_LOST,
    HIF_IRQ_CAUSE]
  omega

/-! #### Registers and records -/

@[simp] theorem State.put_ringCfg (f : Fld) (x : Nat) (h : f.offRings = true) : (s.put f x).ringCfg r = s.ringCfg r :=
  State.rget_put_ne _ _ _ _ (Fld.offRings_ne r h)
@[simp] theorem State.putB_ringCfg (f : Fld) (b : Bool) (h : f.offRings = true) : (s.putB f b).ringCfg r = s.ringCfg r :=
  State.rget_putB_ne _ _ _ _ (Fld.offRings_ne r h)
@[simp] theorem State.setRing_ringCfg (n : Nat) (x : Ring) : (s.setRing n x).ringCfg r = s.ringCfg r := rfl
@[simp] theorem State.wbDue_ringCfg (n : Nat) : (s.wbDue n).ringCfg r = s.ringCfg r := rfl
@[simp] theorem State.setJob_ringCfg (j : Job) : (s.setJob j).ringCfg r = s.ringCfg r := rfl
@[simp] theorem State.setPort_ringCfg (p : Nat) (x : Port) : (s.setPort p x).ringCfg r = s.ringCfg r := rfl
@[simp] theorem State.setCtl_ringCfg (p slot : Nat) (x : CtlSlot) : (s.setCtl p slot x).ringCfg r = s.ringCfg r := rfl
@[simp] theorem State.dropCoverage_ringCfg (q x : Nat) : (s.dropCoverage q x).ringCfg r = s.ringCfg r := rfl
@[simp] theorem State.setUst_ringCfg (q : RingId) (x : UState) : (s.setUst (.ring q) x).ringCfg r = s.ringCfg r :=
  State.rget_setUst_ne _ _ _ _ (ringCfg_ne_status r q.num)
@[simp] theorem State.setPend_ringCfg (q : RingId) (b : Bool) : (s.setPend (.ring q) b).ringCfg r = s.ringCfg r :=
  State.rget_setPend_ne _ _ _ _ (ringCfg_ne_status r q.num)
@[simp] theorem State.fenceWait_ringCfg (n : Nat) (b : Bool) : (s.putB (HIF_RING_STATUS_FENCE_WAIT n) b).ringCfg r = s.ringCfg r :=
  State.rget_putB_ne _ _ _ _ (ringCfg_ne_status r n)
@[simp] theorem State.complete_ringCfg (n seq typ code status unit : Nat) (p : List Nat) (a : Bool) :
    (s.complete n seq typ code status unit p a).ringCfg r = s.ringCfg r :=
  State.rget_complete _ _ _ _ _ _ _ _ _ _ (ringCfg_notMem_doneRegs r n)
@[simp] theorem State.evtPost_ringCfg (e : EvtEntry) : (s.evtPost e).ringCfg r = s.ringCfg r :=
  State.rget_evtPost _ _ _ fun h => ringCfg_notMem_doneRegs r 0 (List.mem_cons_of_mem _ h)
@[simp] theorem State.event'_ringCfg (c : Nat) (p : List Nat) : (s.event' c p).ringCfg r = s.ringCfg r := s.evtPost_ringCfg r _

@[simp] theorem State.updJob_ringCfg (f : Job → Job) : (s.updJob f).ringCfg r = s.ringCfg r := by
  unfold State.updJob
  split
  · rfl
  · exact s.setJob_ringCfg r _

theorem foldl_ringCfg {α : Type} {f : State → α → State} (h : ∀ x a, (f x a).ringCfg r = x.ringCfg r) (l : List α) (x : State) :
    (l.foldl f x).ringCfg r = x.ringCfg r := foldl_keeps (fun y : State => y.ringCfg r) h l x

/-! #### The journal, the head link, the web axis and the clock -/

@[simp] theorem State.mirrorSend_ringCfg (m : MirrorMsg) : (s.mirrorSend m).ringCfg r = s.ringCfg r := by
  unfold State.mirrorSend; split <;> rfl

@[simp] theorem State.jrn_ringCfg (x : JrnRec) : (s.jrn x).ringCfg r = s.ringCfg r := by
  unfold State.jrn; split <;> simp

@[simp] theorem State.sendPacket_ringCfg (p slot : Nat) (b : PacketBody) : (s.sendPacket p slot b).ringCfg r = s.ringCfg r := by
  unfold State.sendPacket; dsimp only; split_ifs <;> simp

@[simp] theorem State.sendCtl_ringCfg (p slot op : Nat) (imm : Bool) (line : Nat) (payload : List Byte) (jl : Option Nat) :
    (s.sendCtl p slot op imm line payload jl).ringCfg r = s.ringCfg r := by
  unfold State.sendCtl; split <;> simp

@[simp] theorem State.cancelPlane_ringCfg (j : Job) (q x : Nat) : (s.cancelPlane j q x).ringCfg r = s.ringCfg r :=
  (foldl_ringCfg r (fun _ _ => by simp) _ _).trans (s.dropCoverage_ringCfg r q x)

@[simp] theorem State.cancelFrom_ringCfg (j : Job) (x : Nat) : (s.cancelFrom j x).ringCfg r = s.ringCfg r := by
  unfold State.cancelFrom
  split
  · exact foldl_ringCfg r (fun _ _ => State.cancelPlane_ringCfg ..) _ _
  · rfl

theorem State.withWeb_ringCfg (w : Web) : ({ s with web := w } : State).ringCfg r = s.ringCfg r := rfl

@[simp] theorem State.webPlan_ringCfg (m : Nat) (p : WebPlan) : (s.webPlan m p).ringCfg r = s.ringCfg r :=
  (State.put_ringCfg _ r _ _ (by decide)).trans (s.withWeb_ringCfg r _)

@[simp] theorem State.refreshWebStop_ringCfg : s.refreshWebStop.ringCfg r = s.ringCfg r := by
  unfold State.refreshWebStop
  dsimp only
  split_ifs <;> simp (disch := decide) [State.withWeb_ringCfg]

@[simp] theorem State.closeDev_ringCfg : s.closeDev.ringCfg r = s.ringCfg r := by
  unfold State.closeDev; split <;> simp (disch := decide)

@[simp] theorem State.setClk_ringCfg (c : Nat) : (s.setClk c).ringCfg r = s.ringCfg r := by
  unfold State.setClk
  split
  · rfl
  · dsimp only
    split <;> split_ifs <;> simp (disch := decide)

/-! #### Pages, and the end of the job -/

@[simp] theorem State.completePage_ringCfg (ring seq code status : Nat) (p : List Nat) :
    (s.completePage ring seq code status p).ringCfg r = s.ringCfg r := by
  unfold State.completePage; split <;> simp

@[simp] theorem State.postPages_ringCfg : s.postPages.ringCfg r = s.ringCfg r := by
  unfold State.postPages
  split
  · rfl
  · refine (foldl_ringCfg r (fun _ _ => ?_) _ _).trans (s.setJob_ringCfg r _)
    split <;> simp

@[simp] theorem State.retirePage_ringCfg (p : PageRec) (aborted : Bool) : (s.retirePage p aborted).ringCfg r = s.ringCfg r := by
  unfold State.retirePage State.postRetired State.decidePage
  dsimp only
  split_ifs <;> simp

@[simp] theorem State.retireCleared_ringCfg : s.retireCleared.ringCfg r = s.ringCfg r := by
  unfold State.retireCleared
  split
  · rfl
  · exact foldl_ringCfg r (fun _ _ => State.retirePage_ringCfg ..) _ _

@[simp] theorem State.abortPages_ringCfg (t : PageRec → Bool) : (s.abortPages t).ringCfg r = s.ringCfg r := by
  unfold State.abortPages
  split
  · rfl
  · exact foldl_ringCfg r (fun _ _ => State.retirePage_ringCfg ..) _ _

@[simp] theorem State.printOver_ringCfg : s.printOver.ringCfg r = s.ringCfg r := by
  unfold State.printOver State.webDecel
  dsimp only
  split
  · rfl
  · split_ifs <;> simp (disch := decide)

@[simp] theorem State.endJobAt_ringCfg (reason line : Nat) : (s.endJobAt reason line).ringCfg r = s.ringCfg r := by
  unfold State.endJobAt
  split
  · rfl
  next j _ =>
    dsimp only
    cases j.recovery with
    | none => dsimp only; split_ifs <;> simp
    | some x => dsimp only; split_ifs <;> simp

@[simp] theorem State.jobRingLeft_ringCfg (n : Nat) : (s.jobRingLeft n).ringCfg r = s.ringCfg r := by
  unfold State.jobRingLeft State.endJobAtBoundary
  split
  · rfl
  · split_ifs
    · split <;> simp
    · rfl

@[simp] theorem State.abortUnstarted_ringCfg (n : Nat) : (s.abortUnstarted n).ringCfg r = s.ringCfg r := by
  refine foldl_ringCfg r (fun x d => ?_) _ _
  dsimp only [State.pageAborted]
  split_ifs <;> simp

/-- A ring that leaves ON keeps the configuration of every ring. -/
@[simp] theorem State.ringLeaveOn_ringCfg (n : Nat) : (s.ringLeaveOn n).ringCfg r = s.ringCfg r := by
  simp [State.ringLeaveOn]

/-- A write of the enable bit of a ring that is not OFF keeps the configuration of every ring. -/
theorem State.enableOne_ringCfg (q : RingId) (b : Bool) (h : s.ust (.ring q) ≠ .off) :
    (s.enableOne (.ring q) b).ringCfg r = s.ringCfg r := by
  unfold State.enableOne
  split
  case h_1 hoff => exact absurd hoff h
  case h_2 | h_3 => simp [State.unitStop]
  case h_4 => simp
  case h_5 => simp [State.unitOff]
  case h_6 => rfl

end RingCfg

/-! ### Writes of a ring's setup registers (R68) -/

section RingSetup
variable {s : State} {r : RingId} {off : Nat}

/-- The registers that set a ring up. -/
def ringSetup (n : Nat) : List Nat := [HIF_RING_CFG n, HIF_RING_BASE_LO n, HIF_RING_BASE_HI n, HIF_RING_WB_LO n, HIF_RING_WB_HI n]

/-- They are registers of the host interface, in the host island. -/
theorem ringSetup_mapped (r : RingId) :
    ∀ off ∈ ringSetup r.num, (regRowAt off).isSome = true ∧ blockOf off = 3 ∧ islandOf off = 1 ∧ off % 4 = 0 := by
  cases r with
  | job k => revert k; decide +kernel
  | cmx | cam | mbxIn | evt | mbxOut => decide +kernel

theorem ringOfOffset_ringSetup (h : off ∈ ringSetup r.num) : ringOfOffset off = some r := by
  have hr := RingId.num_lt r
  have hoff : off < HIF_RING_BASE_LO 10 ∧ (off - HIF_RING_BASE_LO 0) / 0x40 = r.num := by
    simp only [ringSetup, List.mem_cons, List.not_mem_nil, or_false, HIF_RING_CFG, HIF_RING_BASE_LO, HIF_RING_BASE_HI, HIF_RING_WB_LO,
      HIF_RING_WB_HI] at h ⊢
    omega
  obtain ⟨hlt, hpage⟩ := hoff
  rw [ringOfOffset, if_pos hlt, hpage, ringOfPage_num]

theorem State.busWrite_ringSetup {req : Fin 6} (v : Word) (hreq : req ≠ 5) (hi : s.islandRuns 1 = true) (h : off ∈ ringSetup r.num) :
    ∃ row, s.busWrite req off v = s.writeHif row off v := by
  obtain ⟨hrow, hblock, hisland, -⟩ := ringSetup_mapped r off h
  obtain ⟨row, hrow⟩ := Option.isSome_iff_exists.mp hrow
  refine ⟨row, ?_⟩
  rw [State.busWrite_runs v hrow (reaches_of_ne hreq _) (by rwa [hisland])]
  simp only [State.writeReg, hrow, hblock]

/-- The addresses of a ring that is not OFF are locked. -/
theorem State.writeHif_locked (row : RegRow) (v : Word) (hoff : s.ust (.ring r) ≠ .off)
    (h : off = HIF_RING_BASE_LO r.num ∨ off = HIF_RING_BASE_HI r.num ∨ off = HIF_RING_WB_LO r.num ∨ off = HIF_RING_WB_HI r.num) :
    s.writeHif row off v = s := by
  have hmem : off ∈ ringSetup r.num := by simpa [ringSetup] using Or.inr h
  have hcfg : off ≠ HIF_RING_CFG r.num := by
    simp only [HIF_RING_CFG, HIF_RING_BASE_LO, HIF_RING_BASE_HI, HIF_RING_WB_LO, HIF_RING_WB_HI] at h ⊢
    omega
  simp only [State.writeHif, ringOfOffset_ringSetup hmem, if_neg hcfg, if_pos h, beq_eq_false_iff_ne.mpr hoff, Bool.false_eq_true, if_false]

/-- Of the configuration of a ring that is not OFF only the enable bit is written. -/
theorem State.writeHif_cfg (row : RegRow) (v : Word) (hoff : s.ust (.ring r) ≠ .off) :
    s.writeHif row (HIF_RING_CFG r.num) v =
      (s.putB (HIF_RING_CFG_ENABLE r.num) (bit v.toNat 8)).enableOne (.ring r) (bit v.toNat 8) := by
  simp only [State.writeHif, ringOfOffset_ringSetup (r := r) List.mem_cons_self, if_true, beq_eq_false_iff_ne.mpr hoff,
    Bool.false_eq_true, if_false]
  exact State.enableWrite_noLanes _ _ rfl

theorem State.log2size_of_ringCfg {x : State} (h : x.ringCfg r = s.ringCfg r) :
    x.get (HIF_RING_CFG_LOG2SIZE r.num) = s.get (HIF_RING_CFG_LOG2SIZE r.num) := State.get_eq_of_rget s x _ h

/-- So a write of the configuration keeps LOG2SIZE. -/
theorem State.log2size_busWrite {req : Fin 6} (v : Word) (hreq : req ≠ 5) (hi : s.islandRuns 1 = true) (hoff : s.ust (.ring r) ≠ .off) :
    (s.busWrite req (HIF_RING_CFG r.num) v).get (HIF_RING_CFG_LOG2SIZE r.num) = s.get (HIF_RING_CFG_LOG2SIZE r.num) := by
  obtain ⟨row, hrow⟩ := State.busWrite_ringSetup (s := s) (r := r) v hreq hi List.mem_cons_self
  have hust : (s.putB (HIF_RING_CFG_ENABLE r.num) (bit v.toNat 8)).ust (.ring r) = s.ust (.ring r) :=
    State.ust_of_rget _ _ _ (by simp) (State.rget_putB_ne _ _ _ _ (ringCfg_ne_status r r.num).symm)
  rw [hrow, State.writeHif_cfg row v hoff, State.log2size_of_ringCfg (State.enableOne_ringCfg _ r r _ (by rwa [hust])),
    State.get_putB_apart _ _ _ _ rfl (.inr (.inr ⟨show 4 < 8 by decide, Nat.zero_le 4⟩))]

end RingSetup

/-- Settles O16: the addresses are locked by `State.writeHif_locked`; the enable bit's write keeps LOG2SIZE (`State.log2size_busWrite`). -/
theorem ringSetupIsLocked : Obligations.RingSetupIsLocked := by
  refine ⟨?addresses, ?config, ?enable⟩
  case addresses =>
    intro s req r off v hreq hi hoff haddr
    have hmem : off ∈ ringSetup r.num := by simpa [ringSetup] using Or.inr haddr
    obtain ⟨-, -, -, halign⟩ := ringSetup_mapped r off hmem
    obtain ⟨row, hrow⟩ := State.busWrite_ringSetup (v.setWidth 32) hreq hi hmem
    have heff : execRegisterWrite req off .w32 v s = finish s := by
      rw [execRegisterWrite, State.writeAccess_w32 v halign, hrow, State.writeHif_locked row _ hoff haddr]
    exact ⟨_, heff, Silent.refl s⟩
  case config =>
    intro s req r v hreq hi hoff
    obtain ⟨-, -, -, halign⟩ := ringSetup_mapped r _ List.mem_cons_self
    exact ⟨_, congrArg finish (State.writeAccess_w32 v halign), State.log2size_busWrite _ hreq hi hoff⟩
  case enable => exact fun s req r v hreq hi hoff => ⟨_, rfl, State.log2size_busWrite v hreq hi hoff⟩

end Sys2Proof.Machine

namespace Sys2Proof.Machine

/-! ### Traffic with the tiles (R192, R203) -/

/-- Only the head link differs. -/
def HeadOnly (s x : State) : Prop := x = s.setHeads x.heads

section HeadLink
variable {s x : State}

theorem HeadOnly.refl (s : State) : HeadOnly s s := rfl

theorem HeadOnly.trans {y : State} (h : HeadOnly s x) (h' : HeadOnly x y) : HeadOnly s y := by
  unfold HeadOnly at *
  rw [h', h]
  rfl

theorem HeadOnly.regs (h : HeadOnly s x) : x.regs = s.regs := by rw [h]; rfl
theorem HeadOnly.press (h : HeadOnly s x) : x.press = s.press := by rw [h]; rfl
theorem HeadOnly.rget (h : HeadOnly s x) (a : Nat) : x.rget a = s.rget a := by rw [h]; rfl
theorem HeadOnly.on (h : HeadOnly s x) (f : Fld) : x.on f = s.on f := by rw [h]; rfl
theorem HeadOnly.planeEntries (h : HeadOnly s x) (q : Nat) : x.planeEntries q = s.planeEntries q := by rw [h]; rfl

theorem HeadOnly.foldl {α : Type} {f : State → α → State} (hf : ∀ y a, HeadOnly y (f y a)) (l : List α) (s : State) :
    HeadOnly s (l.foldl f s) :=
  List.foldlRecOn (motive := HeadOnly s) l f (HeadOnly.refl s) fun y hy a _ => hy.trans (hf y a)

theorem HeadOnly.setPort (s : State) (p : Nat) (q : Port) : HeadOnly s (s.setPort p q) := rfl
theorem HeadOnly.setCtl (s : State) (p slot : Nat) (c : CtlSlot) : HeadOnly s (s.setCtl p slot c) := rfl

theorem HeadOnly.sendPacket (s : State) (p slot : Nat) (b : PacketBody) : HeadOnly s (s.sendPacket p slot b) := by
  unfold State.sendPacket
  dsimp only
  split_ifs
  · exact HeadOnly.setPort ..
  · exact HeadOnly.setPort ..
  · exact HeadOnly.refl s

theorem HeadOnly.sendCtl (s : State) (p slot op : Nat) (imm : Bool) (line : Nat) (payload : List Byte) (jl : Option Nat) :
    HeadOnly s (s.sendCtl p slot op imm line payload jl) := by
  unfold State.sendCtl
  split
  · exact HeadOnly.refl s
  · exact (HeadOnly.setCtl ..).trans (HeadOnly.sendPacket ..)

theorem HeadOnly.sendNow (s : State) (p slot op : Nat) (payload : List Byte) : HeadOnly s (s.sendNow p slot op payload) :=
  HeadOnly.sendCtl ..

/-- Packets sent after writes of registers. -/
theorem HeadOnly.regsOnly {y : State} (h : HeadOnly x y) (hr : RegsOnly s x) : RegsOnly { s with heads := y.heads } y := by
  unfold RegsOnly HeadOnly at *
  rw [h, hr]
  rfl

theorem HeadOnly.keeps {y : State} {l : List Nat} (h : HeadOnly x y) (hk : Keeps s x l) : Keeps s y l :=
  fun a ha => (h.rget a).trans (hk a ha)

/-! #### What a packet sent shows -/

theorem State.ctl_setPort (s : State) (p : Nat) (q : Port) (k slot : Nat) : (s.setPort p q).ctl k slot = s.ctl k slot := rfl

theorem State.port_setPort_same (q : Port) {p : Nat} (h : p < s.heads.ports.length) : (s.setPort p q).port p = q := by
  simp [State.port, State.setPort, h]

theorem State.ctl_setCtl_same (s : State) (p slot : Nat) (c : CtlSlot) : (s.setCtl p slot c).ctl p slot = c := AMap.get_set_same ..

theorem State.maySend_of_active (op : Nat) (h : s.passive = false) : s.maySend op = true := by simp [State.maySend, h]

/-- A packet on a port that is UP and has room takes the slot's next CSEQ and stays outstanding (R192, R203). -/
theorem State.sendNow_sent {p slot op : Nat} (payload : List Byte) (hup : s.portUp p = true) (hactive : s.passive = false)
    (hroom : (s.port p).outstanding.length < 1024) (hp : p < s.heads.ports.length) :
    let t := s.sendNow p slot op payload
    t.ctl p slot = { s.ctl p slot with cseq := ((s.ctl p slot).cseq + 1) % 256 } ∧
      (t.port p).outstanding.length = (s.port p).outstanding.length + 1 ∧ t.heads.auth = s.heads.auth := by
  have hup' : ∀ c : CtlSlot, (s.setCtl p slot c).portUp p = true := fun _ => hup
  have hroom' : ∀ c : CtlSlot, ((s.setCtl p slot c).port p).outstanding.length < 1024 := fun _ => hroom
  simp only [State.sendNow, State.sendCtl, State.sendPacket, hup, hup', hroom', State.maySend_of_active op hactive, not_true_eq_false,
    Bool.true_eq_false, or_self, if_false, if_true]
  refine ⟨State.ctl_setCtl_same .., ?_, rfl⟩
  rw [State.port_setPort_same _ (by exact hp), List.length_append]
  rfl

end HeadLink
end Sys2Proof.Machine

namespace Sys2Proof.Machine

/-! ### Keep-wet spitting (R146, R295) -/

section KeepWet
variable {s : State}

/-- PLN_KEEPWET lies on its plane's island. -/
theorem State.reqWrite_keepwet {req : Fin 6} (q : Fin 8) (f : State → State) (hreq : req ≠ 5) (hi : s.islandRuns (3 + q) = true) :
    s.reqWrite req (PLN_KEEPWET q) f = f s := by
  have hisland : ∀ q : Fin 8, islandOf (PLN_KEEPWET q) = 3 + q := by decide
  exact State.reqWrite_runs s req _ f (reaches_of_ne hreq _) (by rwa [hisland q])

/-- The two bits of PLN_KEEPWET are apart. -/
theorem keepwet_apart (q : Nat) : (PLN_KEEPWET_SPITTING q).apart (PLN_KEEPWET_CAPPED q) :=
  .inr (.inr ⟨Nat.zero_lt_one, Nat.le_refl 0⟩)

/-- SPIT with ON = 1 goes to every tile of the plane (R295). -/
def State.spitAll (s : State) (q : Nat) : State :=
  (s.planeEntries q).foldl (fun s e =>
    if s.spitSizeOk q (s.get (PLN_SPIT_SIZE q)) then
      (s.setCtl e.port e.slot { s.ctl e.port e.slot with spitOff := false }).sendNow e.port e.slot opSPIT
        (spitPayload true (s.get (PLN_SPIT_SIZE q)) (s.get (PLN_SPIT_RATE q)))
    else s) s

theorem HeadOnly.spitAll (s : State) (q : Nat) : HeadOnly s (s.spitAll q) :=
  HeadOnly.foldl (fun y e => by
    dsimp only
    split
    · exact (HeadOnly.setCtl ..).trans (HeadOnly.sendNow ..)
    · exact HeadOnly.refl y) _ s

theorem HeadOnly.sendSpitOff (s : State) (q : Nat) (e : MapEntry) : HeadOnly s (s.sendSpitOff q e) :=
  (HeadOnly.setCtl ..).trans (HeadOnly.sendNow ..)

theorem State.cappedWrite_set {q : Nat} {v : Word} (hv : bit v.toNat 0 = true) (hc : s.on (PLN_KEEPWET_CAPPED q) = false) :
    s.cappedWrite q v = ((s.putB (PLN_KEEPWET_CAPPED q) true).spitAll q).putB (PLN_KEEPWET_SPITTING q) true := by
  simp [State.cappedWrite, State.spitAll, hv, hc]

theorem State.cappedWrite_clear {q : Nat} {v : Word} (hv : bit v.toNat 0 = false) (hc : s.on (PLN_KEEPWET_CAPPED q) = true) :
    s.cappedWrite q v = (((s.putB (PLN_KEEPWET_CAPPED q) false).planeEntries q).foldl (fun s e => s.sendSpitOff q e)
      (s.putB (PLN_KEEPWET_CAPPED q) false)).refreshSpitting q := by
  simp [State.cappedWrite, hv, hc]

theorem State.refreshSpitting_uncapped {q : Nat} (hc : s.on (PLN_KEEPWET_CAPPED q) = false) :
    s.refreshSpitting q = s.putB (PLN_KEEPWET_SPITTING q)
      ((s.planeEntries q).any fun e => (s.ctl e.port e.slot).spitOff && s.portUp e.port && s.authorised e.port) := by
  simp [State.refreshSpitting, hc]

/-- The packets of a plane's tiles between two writes of its PLN_KEEPWET change nothing else. -/
theorem Alters.of_spit {x y : State} {q : Nat} (b : Bool) (hr : RegsOnly s x) (hk : Keeps s x [PLN_KEEPWET q]) (h : HeadOnly x y) :
    Alters s (y.putB (PLN_KEEPWET_SPITTING q) b).trackIrq { s with heads := y.heads } [PLN_KEEPWET q] :=
  Alters.of_regsOnly rfl ((h.regsOnly hr).putB _ _) ((h.keeps hk).putB _ _ List.mem_cons_self)

/-- SPITTING leaves CAPPED alone. -/
theorem State.capped_putB_spitting (s : State) (q : Nat) (b : Bool) :
    (s.putB (PLN_KEEPWET_SPITTING q) b).on (PLN_KEEPWET_CAPPED q) = s.on (PLN_KEEPWET_CAPPED q) :=
  s.on_putB_apart _ _ b rfl (keepwet_apart q)

/-- While no tile of an uncapped plane waits for SPIT with ON = 0, nothing goes out (R295). -/
theorem State.spitOffAgain_idle {q : Nat} (hc : s.on (PLN_KEEPWET_CAPPED q) = false)
    (hoff : ∀ e ∈ s.planeEntries q, (s.ctl e.port e.slot).spitOff = false) :
    s.spitOffAgain q = s.putB (PLN_KEEPWET_SPITTING q) false := by
  have hsend : ∀ l : List MapEntry, (∀ e ∈ l, (s.ctl e.port e.slot).spitOff = false) → l.foldl (fun s e =>
      if (s.ctl e.port e.slot).spitOff ∧ s.portUp e.port ∧ s.authorised e.port then s.sendSpitOff q e else s) s = s := by
    intro l hl
    induction l with
    | nil => rfl
    | cons e l ih =>
      rw [List.foldl_cons, hl e List.mem_cons_self, if_neg (by simp)]
      exact ih fun e he => hl e (List.mem_cons_of_mem _ he)
  have hany : (s.planeEntries q).any (fun e => (s.ctl e.port e.slot).spitOff && s.portUp e.port && s.authorised e.port) = false :=
    List.any_eq_false.mpr fun e he => by simp [hoff e he]
  rw [State.spitOffAgain, hc, if_neg Bool.false_ne_true, hsend _ hoff, State.refreshSpitting_uncapped hc, hany]

/-- The one tile of an uncapped plane that has not acknowledged SPIT with ON = 0 gets it again (R295). -/
theorem State.spitOffAgain_single {q : Nat} {e : MapEntry} (hc : s.on (PLN_KEEPWET_CAPPED q) = false) (he : s.planeEntries q = [e])
    (hoff : (s.ctl e.port e.slot).spitOff = true) (hup : s.portUp e.port = true) (hauth : s.authorised e.port = true)
    (hactive : s.passive = false) (hroom : (s.port e.port).outstanding.length < 1024) (hp : e.port < s.heads.ports.length) :
    s.spitOffAgain q = (s.sendSpitOff q e).putB (PLN_KEEPWET_SPITTING q) true ∧
      ((s.sendSpitOff q e).port e.port).outstanding.length = (s.port e.port).outstanding.length + 1 := by
  have hsent := HeadOnly.sendSpitOff s q e
  obtain ⟨hctl, hport, hkeys⟩ := State.sendNow_sent (s := s.setCtl e.port e.slot { s.ctl e.port e.slot with spitOff := true })
    (slot := e.slot) (op := opSPIT) (spitPayload false (s.get (PLN_SPIT_SIZE q)) (s.get (PLN_SPIT_RATE q))) hup hactive hroom hp
  have hwaits : ((s.sendSpitOff q e).ctl e.port e.slot).spitOff = true :=
    (congrArg CtlSlot.spitOff hctl).trans (congrArg CtlSlot.spitOff (s.ctl_setCtl_same ..))
  have hup' : (s.sendSpitOff q e).portUp e.port = true := by rw [hsent]; exact hup
  have hauth' : (s.sendSpitOff q e).authorised e.port = true := (congrArg (fun l => l.getD e.port false) hkeys).trans hauth
  refine ⟨?_, hport⟩
  rw [State.spitOffAgain, hc, if_neg Bool.false_ne_true, he, List.foldl_cons, List.foldl_nil, if_pos ⟨hoff, hup, hauth⟩,
    State.refreshSpitting_uncapped ((hsent.on _).trans hc), hsent.planeEntries, he]
  simp [hwaits, hup', hauth']

end KeepWet

/-- Settles O23: each clause is a write of CAPPED or SPITTING with packets to the plane's tiles around it, which change the head
link alone (`HeadOnly.spitAll`, `HeadOnly.sendSpitOff`). -/
theorem keepWet : Obligations.KeepWet := by
  refine ⟨?cap, ?uncap, ?idle, ?again⟩
  case cap =>
    intro s req q v hreq hi hv hc
    have heff := (State.reqWrite_keepwet q (fun s => s.cappedWrite q v) hreq hi).trans (State.cappedWrite_set hv hc)
    have hspit := HeadOnly.spitAll (s.putB (PLN_KEEPWET_CAPPED q) true) q
    refine ⟨_, congrArg finish heff, ?_, ?_, ?_⟩
    · rw [State.on_trackIrq, State.capped_putB_spitting, hspit.on, State.on_putB_same _ _ _ rfl]
    · rw [State.on_trackIrq, State.on_putB_same _ _ _ rfl]
    · exact Alters.of_spit true ((RegsOnly.refl s).putB _ _) ((Keeps.refl s _).putB _ _ List.mem_cons_self) hspit
  case uncap =>
    intro s req q v hreq hi hv hc
    have hspit := HeadOnly.foldl (fun y e => HeadOnly.sendSpitOff y q e) ((s.putB (PLN_KEEPWET_CAPPED q) false).planeEntries q)
      (s.putB (PLN_KEEPWET_CAPPED q) false)
    have huncapped := (hspit.on (PLN_KEEPWET_CAPPED q)).trans (State.on_putB_same _ _ _ rfl)
    have heff := (State.reqWrite_keepwet q (fun s => s.cappedWrite q v) hreq hi).trans
      ((State.cappedWrite_clear hv hc).trans (State.refreshSpitting_uncapped huncapped))
    refine ⟨_, congrArg finish heff, ?_, ?_⟩
    · rw [State.on_trackIrq, State.capped_putB_spitting, huncapped]
    · exact Alters.of_spit _ ((RegsOnly.refl s).putB _ _) ((Keeps.refl s _).putB _ _ List.mem_cons_self) hspit
  case idle =>
    intro s q hc hoff
    refine ⟨_, congrArg finish (State.spitOffAgain_idle hc hoff), ?_, ?_⟩
    · rw [State.on_trackIrq, State.on_putB_same _ _ _ rfl]
    · exact Silent.of_regsOnly ((RegsOnly.refl s).putB _ _) ((Keeps.refl s _).putB _ _ List.mem_cons_self)
  case again =>
    intro s q e hc he hoff hup hauth hactive hp hroom hports
    obtain ⟨heff, hsent⟩ := State.spitOffAgain_single hc he hoff hup hauth hactive hroom (by omega)
    refine ⟨_, congrArg finish heff, ?_, hsent, ?_⟩
    · rw [State.on_trackIrq, State.on_putB_same _ _ _ rfl]
    · exact Alters.of_spit true (RegsOnly.refl s) (Keeps.refl s _) (HeadOnly.sendSpitOff s q e)

end Sys2Proof.Machine

namespace Sys2Proof.Machine

/-! ### A start with a tile that is not adopted (R120, R215, R263) -/

/-- A press with one tile in plane 0, at port 0 and slot 0, whose latency is in order; nobody has adopted the tile. The web axis and the
master input are ON and at standstill. -/
def unadoptedPress : State :=
  ((((((State.reset.put (PLN_GEOM_TILES 0) 1).put HLK_FIRE_LATENCY_NS 1000).setUst (.master 0) .on).setUst .web .on).putB
    (ENC_M_STATUS_STANDSTILL 0) true).putB MOT_WEB_STATUS_DRIVE_READY true)

/-- A PAGE descriptor of 100 lines at job line 0. -/
def page100 : DescBits := BitVec.ofNat 512 (100 * 256 ^ 4)

/-- A job with one committed page of 100 lines, which covers its horizon of 50 lines. -/
def unadoptedJob : Job :=
  { unadoptedPress.newJob 0 1 0 with horizon := 50, pages := [{ newPage 3 page100 0 with committed := true, reads := [] }] }

/-- The press with the job, which waits for its start. -/
def unadoptedStart : State := unadoptedPress.setJob unadoptedJob

/-- The start meets every condition of R120, and no job-start load waits for its acknowledgement. -/
theorem unadoptedStart_ready : unadoptedStart.runupReady unadoptedJob = true ∧ unadoptedStart.shortTile = none ∧
    ∀ e ∈ unadoptedStart.entries, (unadoptedStart.ctl e.port e.slot).unacked = [] := by decide +kernel

/-- The tile that is not adopted counts as shut down at job line 0: late data of Type 3, which stops the clock as soon as it is in
LOCKING (R215, R263). -/
theorem clk_unadoptedStart_runup : unadoptedStart.runup.clk = clkStopped := by decide +kernel

theorem clk_of_jobRunupStart {s t : State} (h : exec .jobRunupStart s = .next t) : t.clk = s.runup.clk := by
  obtain rfl : s.runup.trackIrq = t := Host.Outcome.next.inj h
  rfl

/-- Refutes O22: R120's conditions and acknowledged loads do not suffice for a start. A tile of the job that is not adopted
(`unadoptedStart`) is late data of Type 3 at job line 0, so the run-up ends in STOPPED and not in LOCKING. -/
theorem not_startsAndResumes : ¬ Obligations.StartsAndResumes := by
  rintro ⟨hstart, -, -⟩
  obtain ⟨hready, hlatency, hloads⟩ := unadoptedStart_ready
  obtain ⟨t, hexec, hclk, -⟩ := hstart unadoptedStart unadoptedJob rfl hready hlatency hloads
  rw [clk_of_jobRunupStart hexec, clk_unadoptedStart_runup] at hclk
  exact absurd hclk (by decide)

end Sys2Proof.Machine

namespace Sys2Proof.Machine

/-! ### Prefetch (R109, R116, R118) -/

section Prefetch
variable {s : State} {j : Job} {p : PageRec} {r : PageRead} {rs : List PageRead}

theorem State.updJob_eq (hj : s.press.job = some j) (f : Job → Job) : s.updJob f = s.setJob (f j) := by
  simp only [State.updJob, hj]

/-- A command that changes the job and nothing else. -/
theorem Alters.setJob (s : State) (j : Job) :
    Alters s (s.setJob j).trackIrq { s with press := (s.setJob j).trackIrq.press } [] :=
  Alters.of_regsOnly rfl (RegsOnly.refl (s.setJob j)) (Keeps.refl s _)

/-- The read that ends is the first of those of the page in prefetch. -/
theorem State.fetched_failed (n : Nat) (hj : s.press.job = some j) (hp : j.fetching = some p) (hr : p.reads = r :: rs)
    (hroom : p.waitRoom = false) : s.fetched (.failed n) = s.readFailed p r [6] := by
  simp only [State.fetched, hj, Option.bind_some, hp, hr, hroom, Bool.false_eq_true, if_false]

theorem State.fetched_dir (bs : List Byte) (hj : s.press.job = some j) (hp : j.fetching = some p) (hr : p.reads = r :: rs)
    (hroom : p.waitRoom = false) (hkind : r.kind = .dir) : s.fetched (.ok bs) = s.dirIn p bs := by
  simp only [State.fetched, hj, Option.bind_some, hp, hr, hroom, Bool.false_eq_true, if_false, hkind]

theorem State.readFailed_first (reasons : List Nat) (hj : s.press.job = some j) (hr : r.retried = false) :
    s.readFailed p r reasons = s.setJob (j.updPage p.seq fun p => { p with reads := { r with retried := true } :: p.reads.drop 1 }) := by
  rw [State.readFailed, hr, if_neg Bool.false_ne_true, State.updJob_eq hj]

theorem State.dirIn_good {bs : List Byte} (hj : s.press.job = some j) (hgood : dirBad j bs = []) :
    s.dirIn p bs = s.setJob (j.updPage p.seq fun p => { p with
      reads := j.used.map fun q => { kind := .table, plane := q, band := 0xFF, host := leAt bs (8 * q) 8, retried := false } }) := by
  simp only [State.dirIn, hj, hgood]

theorem State.areaRoom_waiting (hj : s.press.job = some j) (hp : j.fetching = some p) (hroom : p.waitRoom = true) :
    s.areaRoom = s.seekRoom p.seq := by
  simp only [State.areaRoom, hj, Option.bind_some, hp, hroom, if_true]

/-- A stream without a place gets the one that the page area has for it (R118). -/
theorem State.seekRoom_place {x : PageStream} {a seq : Nat} (hj : s.press.job = some j)
    (hp : j.pages.find? (fun y => y.seq == seq && !y.retired) = some p) (hr : p.reads = r :: rs) (hkind : r.kind = .stream)
    (hx : p.stream r.plane r.band = some x) (hdram : x.dram = none) (ha : j.place x.len = some a) :
    s.seekRoom seq = s.setJob (j.updPage seq fun p =>
      { p.updStream r.plane r.band (fun t => { t with dram := some a }) with waitRoom := false }) := by
  rw [State.seekRoom, State.updJob_eq hj]
  simp [hp, hr, hkind, hx, hdram, ha]

end Prefetch

/-! ### Lanes (R123, R124) -/

section Lanes
variable {s : State} {j : Job} {l : Nat} {b : BandState}

theorem State.laneTake_band (hi : s.islandRuns 2 = true) (hj : s.press.job = some j) (hclosing : j.closing = false)
    (hfree : j.passBlank.laneFree l = true)
    (hb : j.passBlank.pickBand (s.get DCX_STAGE_LINES_A) (s.recoveryWaits j.passBlank) = some b) :
    s.laneTake l true = s.setJob (j.passBlank.updBand b.plane b.band fun x => { x with lane := some l }) := by
  have hopen : j.passBlank.closing = false := hclosing
  simp [State.laneTake, hi, hj, hopen, hfree, hb]

/-! #### A lane's run keeps the job and the clock -/

theorem State.clk_of_rget {x : State} (h : x.rget PGP_CLK_STATUS = s.rget PGP_CLK_STATUS) : x.clk = s.clk :=
  State.get_eq_of_rget s x PGP_CLK_STATUS_CLK_STATE h

theorem State.clk_put (s : State) (f : Fld) (v : Nat) (h : f.off ≠ PGP_CLK_STATUS) : (s.put f v).clk = s.clk :=
  State.clk_of_rget (s.rget_put_ne f v _ h)

theorem State.clk_putB (s : State) (f : Fld) (v : Bool) (h : f.off ≠ PGP_CLK_STATUS) : (s.putB f v).clk = s.clk := s.clk_put f _ h
theorem State.clk_addSat (s : State) (f : Fld) (n : Nat) (h : f.off ≠ PGP_CLK_STATUS) : (s.addSat f n).clk = s.clk := s.clk_put f _ h
theorem State.clk_cause (s : State) (f : Fld) (h : f.off ≠ PGP_CLK_STATUS) : (s.cause f).clk = s.clk := s.clk_put f _ h

theorem State.clk_event (s : State) (c u : Nat) (p : List Nat) : (s.event c u p).clk = s.clk :=
  State.clk_of_rget (s.rget_event c u p _ (by decide))

theorem State.clk_event' (s : State) (c : Nat) (p : List Nat) : (s.event' c p).clk = s.clk := s.clk_event c _ p

theorem State.clk_dramAct (s : State) (a : Nat) : (s.dramAct a).clk = s.clk :=
  State.clk_of_rget (Keeps.dramAct s a _ (by decide))

theorem State.clk_devCe (s : State) (i : Nat) : (s.devCe i).clk = s.clk := by
  have hdev : (DMC_DEV_CE_COUNT i).off ≠ PGP_CLK_STATUS := by
    simp only [DMC_DEV_CE_COUNT, DMC_DEV_CE, PGP_CLK_STATUS]
    omega
  have hcount := s.clk_addSat (DMC_DEV_CE_COUNT i) 1 hdev
  unfold State.devCe
  dsimp only
  split
  · rw [State.clk_cause _ _ (by decide), State.clk_event]
    exact hcount
  · exact hcount

theorem State.clk_dramUe (s : State) (a src : Nat) (e : EccRead) : (s.dramUe a src e).clk = s.clk := by
  have hlatch : (if (s.addSat DMC_UE_COUNT_COUNT 1).on DMC_ERR_INFO_VALID then s.addSat DMC_UE_COUNT_COUNT 1
      else s.latchUe a src e).clk = s.clk := by
    split
    · exact s.clk_addSat _ _ (by decide)
    · exact State.clk_of_rget (Keeps.latchUe s a src e _ (by decide))
  unfold State.dramUe
  dsimp only
  split
  · exact hlatch
  · rw [State.clk_cause _ _ (by decide), State.clk_event]
    exact hlatch

theorem State.clk_readBlock (s : State) (a src : Nat) (errs : List SymErr) : (s.readBlock a src errs).1.clk = s.clk := by
  have hce := foldl_keeps State.clk fun (x : State) d => x.clk_devCe (devIndex (dramCoord x.dmcCfg a) d)
  have hwb : ∀ (x : State) (d : Dmc), ({ x with dmc := d } : State).clk = x.clk := fun _ _ => rfl
  unfold State.readBlock
  dsimp only
  split
  · rw [State.clk_dramUe, State.clk_dramAct]
  · split
    · exact s.clk_dramAct a
    · split <;> simp only [hwb, hce, State.clk_addSat _ DMC_CE_COUNT_COUNT _ (by decide), State.clk_dramAct]

/-- What every read of a block keeps, a lane's reads keep. -/
theorem State.dramGet_keeps {β : Type} {π : State → β} (hπ : ∀ (s : State) a src errs, π (s.readBlock a src errs).1 = π s)
    (s : State) (a len src : Nat) : π (s.dramGet a len src).1 = π s := by
  refine List.foldlRecOn (motive := fun x : State × Bool => π x.1 = π s) (blocksOf a len) _ rfl fun x hx b _ => ?_
  have hblock := hπ x.1 b src []
  dsimp only
  generalize State.readBlock x.1 b src [] = y at hblock
  exact hblock.trans hx

theorem State.laneStream_keeps {β : Type} {π : State → β} (hπ : ∀ (s : State) a src errs, π (s.readBlock a src errs).1 = π s)
    (s : State) (b : BandState) (p : PageRec) (t : PageStream) (room first : Nat) : π (s.laneStream b p t room first).1 = π s := by
  have hget := State.dramGet_keeps hπ
  unfold State.laneStream
  split
  · rfl
  extract_lets a head
  have hhead : π head.1 = π s := hget ..
  split
  · exact hhead
  · exact hhead
  · extract_lets o b' r used body
    have hbody : π body.1 = π s := (hget ..).trans hhead
    clear_value body r
    split
    · exact hbody
    · split <;> exact hbody

theorem State.laneRun_keeps {β : Type} {π : State → β} (hπ : ∀ (s : State) a src errs, π (s.readBlock a src errs).1 = π s)
    (ps : List PageRec) (first fuel room : Nat) (b : BandState) (acc : List (BandState × PageRec × Bool)) (s : State) :
    π (s.laneRun ps first fuel room b acc).1 = π s := by
  induction fuel generalizing s room b acc with
  | zero => rfl
  | succ fuel ih =>
    unfold State.laneRun
    extract_lets b'
    split
    · rfl
    split
    · rfl
    next p t _ =>
      have hstream := State.laneStream_keeps hπ s b' p t room first
      generalize s.laneStream b' p t room first = y at hstream
      obtain ⟨x, run, lost⟩ := y
      cases run with
      | good b => exact (ih ..).trans hstream
      | bad b p line off => exact hstream
      | poisoned p a => exact hstream

theorem State.laneRun_job (s : State) (ps : List PageRec) (first fuel room : Nat) (b : BandState)
    (acc : List (BandState × PageRec × Bool)) : (s.laneRun ps first fuel room b acc).1.press.job = s.press.job :=
  congrArg (fun x : TimeState × Press => x.2.job)
    (State.laneRun_keeps (π := State.pressSide) State.readBlock_pressSide ps first fuel room b acc s)

/-! #### At its end a lane has no band (R124) -/

/-- No band of the open job is on a lane. -/
def State.laneIdle (s : State) (l : Nat) : Prop := ∃ j, s.press.job = some j ∧ ∀ x ∈ j.bands, x.lane ≠ some l

theorem State.laneIdle_updJob {f : Job → Job} (h : s.laneIdle l)
    (hf : ∀ j : Job, (∀ x ∈ j.bands, x.lane ≠ some l) → ∀ x ∈ (f j).bands, x.lane ≠ some l) : (s.updJob f).laneIdle l := by
  obtain ⟨j, hj, hidle⟩ := h
  exact ⟨f j, by rw [State.updJob_eq hj]; rfl, hf j hidle⟩

/-- Taking a band from its lane frees the lane, when the lane has no other band. -/
theorem Job.updBand_idle {f : BandState → BandState} {q k : Nat} (hf : ∀ x, (f x).lane = none)
    (hown : ∀ x ∈ j.bands, x.lane = some l → x.plane = q ∧ x.band = k) : ∀ x ∈ (j.updBand q k f).bands, x.lane ≠ some l := by
  intro x hx
  obtain ⟨y, hy, rfl⟩ := List.mem_map.mp hx
  split
  · simp [hf]
  next hne => exact fun hl => hne (hown y hy hl)

theorem State.afterStream_idle (h : s.laneIdle l) (p : PageRec) (lost : Bool) : (s.afterStream b p lost).laneIdle l :=
  State.laneIdle_updJob h fun _ hj => hj

theorem State.foldl_afterStream_idle (h : s.laneIdle l) (xs : List (BandState × PageRec × Bool)) :
    (xs.foldl (fun s x => s.afterStream x.1 x.2.1 x.2.2) s).laneIdle l :=
  List.foldlRecOn (motive := fun y : State => y.laneIdle l) xs _ h fun _ hy x _ => State.afterStream_idle hy x.2.1 x.2.2

theorem State.decodeError_idle (h : s.laneIdle l) (q k : Nat) (p : PageRec) (line off : Nat) :
    (s.decodeError q k p line off).laneIdle l := by
  rw [State.laneIdle, State.decodeError, State.cause_press, State.event'_press, State.addSat_press]
  exact State.laneIdle_updJob h fun j hj => Job.updBand_idle (fun _ => rfl) fun x hx hl => absurd hl (hj x hx)

theorem State.streamPoison_idle (hj : s.press.job = some j) {q k : Nat}
    (hown : ∀ x ∈ j.bands, x.lane = some l → x.plane = q ∧ x.band = k) (p : PageRec) (a : Nat) :
    (s.streamPoison q k p a).laneIdle l := by
  refine ⟨j.updBand q k fun x => { x with lane := none, refetching := true, refTried := false, pageSeq := some p.seq }, ?_,
    Job.updBand_idle (fun _ => rfl) hown⟩
  rw [State.streamPoison, State.cause_press, State.event'_press, State.addSat_press, State.updJob_eq hj]
  rfl

theorem State.clk_updJob (s : State) (f : Job → Job) : (s.updJob f).clk = s.clk := by
  unfold State.updJob; split <;> rfl

theorem State.clk_afterStream (s : State) (b : BandState) (p : PageRec) (lost : Bool) : (s.afterStream b p lost).clk = s.clk :=
  s.clk_updJob _

theorem State.clk_foldl_afterStream (s : State) (xs : List (BandState × PageRec × Bool)) :
    (xs.foldl (fun s x => s.afterStream x.1 x.2.1 x.2.2) s).clk = s.clk :=
  List.foldlRecOn (motive := fun y : State => y.clk = s.clk) xs _ rfl fun y hy x _ =>
    (y.clk_afterStream x.1 x.2.1 x.2.2).trans hy

theorem State.clk_decodeError (s : State) (q k : Nat) (p : PageRec) (line off : Nat) : (s.decodeError q k p line off).clk = s.clk := by
  rw [State.decodeError, State.clk_cause _ _ (by decide), State.clk_event', State.clk_addSat _ _ _ (by decide), State.clk_updJob]

theorem State.clk_streamPoison (s : State) (q k : Nat) (p : PageRec) (a : Nat) : (s.streamPoison q k p a).clk = s.clk := by
  rw [State.streamPoison, State.clk_cause _ _ (by decide), State.clk_event', State.clk_addSat _ _ _ (by decide), State.clk_updJob]

/-- However its run ended, at its end a lane has no band, and the clock is as it was (R123, R124, R126, R127). -/
theorem State.laneEnd_idle (hj : s.press.job = some j) (hb : j.bands.find? (fun b => b.lane == some l) = some b)
    (hown : ∀ x ∈ j.bands, x.lane = some l → x.plane = b.plane ∧ x.band = b.band) :
    (s.laneEnd l).laneIdle l ∧ (s.laneEnd l).clk = s.clk := by
  unfold State.laneEnd
  split
  next hnone => cases hnone.symm.trans hj
  next k hk =>
  obtain rfl := Option.some.inj (hk.symm.trans hj)
  split
  next hnone => cases hnone.symm.trans hb
  next c hc =>
  obtain rfl := Option.some.inj (hc.symm.trans hb)
  extract_lets first r
  have hjob : r.1.press.job = some k := (s.laneRun_job ..).trans hk
  have hclk : r.1.clk = s.clk := State.laneRun_keeps State.clk_readBlock ..
  clear_value r
  obtain ⟨x, run, streams⟩ := r
  have hgood : ∀ b1 : BandState, (x.updJob fun j => j.updBand c.plane c.band fun _ => { b1 with lane := none }).laneIdle l := by
    intro b1
    exact ⟨_, by rw [State.updJob_eq hjob]; rfl, Job.updBand_idle (fun _ => rfl) hown⟩
  cases run with
  | good b1 => exact ⟨State.foldl_afterStream_idle (hgood b1) streams, (State.clk_foldl_afterStream ..).trans ((x.clk_updJob _).trans hclk)⟩
  | poisoned p a => exact ⟨State.streamPoison_idle hjob hown p a, (x.clk_streamPoison ..).trans hclk⟩
  | bad b1 p line off =>
    exact ⟨State.decodeError_idle (State.foldl_afterStream_idle (hgood b1) streams) ..,
      (State.clk_decodeError ..).trans ((State.clk_foldl_afterStream ..).trans ((x.clk_updJob _).trans hclk))⟩

/-- Outside LOCKING no lines are taken ahead (R128). -/
theorem State.prefill_idle (h : s.clk ≠ clkLocking) : s.prefill = s := by
  unfold State.prefill
  split
  · rfl
  · rw [if_neg h]

end Lanes

/-- Settles O21: each clause is one change of the open job, and at its end a lane is free however its run ended
(`State.laneEnd_idle`). -/
theorem prefetchAndLanes : Obligations.PrefetchAndLanes := by
  refine ⟨?failed, ?directory, ?room, ?assign, ?release⟩
  case failed =>
    intro s j p r rs n hj hp hr hroom hfirst
    have heff := (State.fetched_failed n hj hp hr hroom).trans (State.readFailed_first (p := p) [6] hj hfirst)
    exact ⟨_, congrArg finish heff, rfl, Alters.setJob s _⟩
  case directory =>
    intro s j p r rs bs hj hp hr hroom hkind hgood
    have heff := (State.fetched_dir bs hj hp hr hroom hkind).trans (State.dirIn_good hj hgood)
    exact ⟨_, congrArg finish heff, rfl, Alters.setJob s _⟩
  case room =>
    intro s j p r rs x a hj hp hfind hr hroom hkind hx hdram ha
    have heff := (State.areaRoom_waiting hj hp hroom).trans (State.seekRoom_place hj hfind hr hkind hx hdram ha)
    exact ⟨_, congrArg finish heff, rfl, Alters.setJob s _⟩
  case assign =>
    intro s j l b hi hj hclosing hfree hb
    exact ⟨_, congrArg finish (State.laneTake_band hi hj hclosing hfree hb), rfl, Alters.setJob s _⟩
  case release =>
    intro s j l b hj hb hown hclk
    obtain ⟨hidle, hclk'⟩ := State.laneEnd_idle hj hb hown
    have heff := State.prefill_idle (s := s.laneEnd l) (by rwa [hclk'])
    exact ⟨_, congrArg finish heff, hidle⟩

end Sys2Proof.Machine

namespace Sys2Proof.Machine

/-! ### A descriptor that its engine takes (R73, R88) -/

section Taken
variable {s : State} {n : Nat} {d : OpenDesc}

/-- A change of the open descriptor with a sequence number that keeps it open is a change of the one that is found. -/
theorem find?_updDesc {f : OpenDesc → OpenDesc} (hseq : ∀ d, (f d).seq = d.seq) (hdone : ∀ d, (f d).done = d.done) (q : Nat)
    (l : List OpenDesc) :
    (updDesc f q l).find? (fun d => d.seq == q && !d.done) = (l.find? fun d => d.seq == q && !d.done).map f := by
  induction l with
  | nil => rfl
  | cons d l ih =>
    rw [updDesc]
    split
    next h => simp [hseq, hdone, h]
    next h =>
      have hmiss : (d.seq == q && !d.done) = false := by simpa using h
      rw [List.find?_cons_of_neg (by simp [hmiss]), List.find?_cons_of_neg (by simp [hmiss]), ih]

theorem State.length_of_desc {q : Nat} (h : s.desc n q = some d) : n < s.hif.rings.length := by
  by_contra hn
  have hring : s.ring n = Ring.reset := by simp [State.ring, List.getD_eq_getElem?_getD, List.getElem?_eq_none (Nat.le_of_not_lt hn)]
  rw [State.desc, hring] at h
  cases h

/-- A descriptor taken is open with the same content. -/
theorem State.desc_take {q : Nat} (h : s.desc n q = some d) : (s.take n q).desc n q = some { d with taken := true } := by
  rw [State.desc, State.take, State.ring_setRing_same _ _ _ (State.length_of_desc h)]
  refine (find?_updDesc (f := fun d => { d with taken := true }) (fun _ => rfl) (fun _ => rfl) q (s.ring n).opens).trans ?_
  rw [show (s.ring n).opens.find? (fun d => d.seq == q && !d.done) = some d from h]
  rfl

/-- A descriptor taken and completed with an entry whatever NOTIFY says: its entry, and nothing but it and the watermark. -/
theorem State.take_complete (code status : Nat) (p : List Nat) (hdesc : s.desc n d.seq = some d) (hstale : d.stale = false)
    (hcode : code ≠ Ev.EVT_LOST) :
    let t := (s.take n d.seq).complete n d.seq 2 code status 0xFFFF p true
    Completes s t n d.seq 2 code status 0xFFFF p ∧ t.hidden = s.hidden ∧ Keeps s t (doneRegs n) := by
  refine ⟨?_, ?_, ?_⟩
  · exact Completes.of_complete_gen s (s.take n d.seq) n d.seq 2 code status 0xFFFF p true _ (s.take_evtQueue ..) (s.take_linkUp ..) rfl
      (s.rget_take ..) (State.desc_take hdesc) hstale (.inl rfl) hcode (ringDone_ne_island n)
  · rw [State.complete_hidden, State.take_hidden]
  · exact ((Keeps.refl s _).take n d.seq).complete _ _ _ _ _ _ _ _ fun _ h => h

/-- A cause set after a completion leaves the completion's entry where it is and shows itself. -/
theorem Completes.cause {x : State} {q code status unit : Nat} {p : List Nat} {l : List Nat} (f : Fld) (hf : f.ok = true)
    (hdone : Completes s x n q 2 code status unit p) (hhidden : x.hidden = s.hidden) (hkeeps : Keeps s x l) :
    let t := (x.cause f).trackIrq
    Completes s t n q 2 code status unit p ∧ t.on f = true ∧ t.hidden = s.hidden ∧ Keeps s t (f.off :: l) := by
  refine ⟨hdone.after fun e he => ?_, ?_, ?_, ?_⟩
  · rwa [State.evtEntries_trackIrq, State.evtEntries_cause]
  · rw [State.on_trackIrq]
    exact State.on_cause_same _ _ hf
  · rw [State.trackIrq_hidden, State.cause_hidden, hhidden]
  · exact ((hkeeps.mono fun _ h => List.mem_cons_of_mem _ h).cause f List.mem_cons_self).trackIrq

end Taken
end Sys2Proof.Machine

namespace Sys2Proof.Machine

/-! ### What a job take leaves alone: the press record (R111) -/

section JobTake
variable (s : State)

@[simp] theorem State.rset_pressSide (a : Nat) (v : Word) : (s.rset a v).pressSide = s.pressSide := rfl
@[simp] theorem State.setUst_pressSide (u : UnitId) (x : UState) : (s.setUst u x).pressSide = s.pressSide := by cases u <;> rfl
@[simp] theorem State.setPend_pressSide (u : UnitId) (b : Bool) : (s.setPend u b).pressSide = s.pressSide := by cases u <;> rfl
@[simp] theorem State.recordFault_pressSide (u : UnitId) (r : Nat) : (s.recordFault u r).pressSide = s.pressSide := rfl
@[simp] theorem State.crossBase_pressSide : s.crossBase.pressSide = s.pressSide := rfl
@[simp] theorem State.calTake_pressSide (ps : List PlaneCfg) : (s.calTake ps).pressSide = s.pressSide := rfl
@[simp] theorem State.zeroColumns_pressSide (g : Nat) : (s.zeroColumns g).pressSide = s.pressSide := rfl
@[simp] theorem State.showAssign_pressSide (p slot ident : Nat) (b : Bool) : (s.showAssign p slot ident b).pressSide = s.pressSide := rfl

@[simp] theorem State.setReason_pressSide (u : UnitId) (r : Nat) : (s.setReason u r).pressSide = s.pressSide := by
  unfold State.setReason; split <;> rfl

@[simp] theorem State.showSlot_pressSide (p slot : Nat) : (s.showSlot p slot).pressSide = s.pressSide := by
  unfold State.showSlot; split <;> rfl

@[simp] theorem State.showOffsets_pressSide (mode per : Nat) : (s.showOffsets mode per).pressSide = s.pressSide :=
  foldl_keeps State.pressSide (fun _ _ => by split <;> rfl) _ _

@[simp] theorem State.sendNow_pressSide (p slot op : Nat) (b : List Byte) : (s.sendNow p slot op b).pressSide = s.pressSide :=
  s.sendCtl_pressSide ..

@[simp] theorem State.sendLoad_pressSide (p slot op : Nat) (b : List Byte) : (s.sendLoad p slot op b).pressSide = s.pressSide := by
  unfold State.sendLoad; dsimp only; split <;> simp

@[simp] theorem State.sendChange_pressSide (x : MaskChange) : (s.sendChange x).pressSide = s.pressSide := by
  unfold State.sendChange; split <;> simp

@[simp] theorem State.columnEvent_pressSide (g c m : Nat) (b : Bool) (eff : Nat) : (s.columnEvent g c m b eff).pressSide = s.pressSide := by
  have hcal : ∀ (x : State) (c : Cal), ({ x with cal := c } : State).pressSide = x.pressSide := fun _ _ => rfl
  unfold State.columnEvent
  dsimp only
  split
  · rfl
  · refine (hcal _ _).trans ?_
    rw [State.cause_pressSide, State.event_pressSide]

@[simp] theorem State.nozzleRetired_pressSide (g n c eff : Nat) : (s.nozzleRetired g n c eff).pressSide = s.pressSide := by
  simp [State.nozzleRetired]

@[simp] theorem State.reportRetired_pressSide (g eff : Nat) (ret : List (Nat × Nat)) :
    (s.reportRetired g eff ret).pressSide = s.pressSide := foldl_keeps State.pressSide (fun _ _ => State.nozzleRetired_pressSide ..) _ _

@[simp] theorem State.runEvents_pressSide (g : Nat) (r : Nat × List Nat) (ret : List (Nat × Nat)) (eff : Nat) :
    (s.runEvents g r ret eff).pressSide = s.pressSide :=
  (State.reportRetired_pressSide ..).trans (foldl_keeps State.pressSide (fun _ _ => State.columnEvent_pressSide ..) _ _)

@[simp] theorem State.changeRun_pressSide (g : Nat) (r : Nat × List Nat) (ret : List (Nat × Nat)) :
    (s.changeRun g r ret).pressSide = s.pressSide := by
  unfold State.changeRun
  dsimp only
  split
  · split_ifs <;> simp
  · split <;> simp

@[simp] theorem State.remask_pressSide (g : Nat) (cols : List Nat) (ret : List (Nat × Nat)) :
    (s.remask g cols ret).pressSide = s.pressSide :=
  (foldl_keeps State.pressSide (fun _ _ => State.changeRun_pressSide ..) _ _).trans (State.reportRetired_pressSide ..)

@[simp] theorem State.setRec_pressSide (g : Nat) (r : TileRec) : (s.setRec g r).pressSide = s.pressSide :=
  (foldl_keeps State.pressSide (fun _ _ => State.touch_pressSide ..) _ _).trans (State.setLdg_pressSide ..)

@[simp] theorem State.adoptTile_pressSide (g : Nat) (d : DescBits) : (s.adoptTile g d).pressSide = s.pressSide := by
  have htouch := foldl_keeps State.pressSide (f := fun (s : State) a => s.touch a none) (fun _ _ => State.touch_pressSide ..)
  unfold State.adoptTile
  dsimp only
  split <;> simp [htouch]

@[simp] theorem State.checkTile_pressSide (e : MapEntry) : (s.checkTile e).pressSide = s.pressSide := by
  unfold State.checkTile
  split
  · rfl
  · dsimp only; split_ifs <;> simp

@[simp] theorem State.rebuildDead_pressSide (per : Nat) (take : Bool) : (s.rebuildDead per take).pressSide = s.pressSide := by
  have hcolumns : ∀ (a : State) (g : Nat) (m : Nat → Nat) (b : Nat → Bool) (eff : Nat),
      ((List.range 4096).foldl (fun a c => a.columnEvent g c (m c) (b c) eff) a).pressSide = a.pressSide := fun a g m b eff =>
    foldl_keeps State.pressSide (f := fun a c => a.columnEvent g c (m c) (b c) eff) (fun _ _ => State.columnEvent_pressSide ..) _ _
  have htiles : ∀ (m : Nat → List Nat) (a : State),
      (s.entries.foldl (fun (a : State) (e : MapEntry) => a.forceMasks e.g 0 (m e.g)) a).pressSide = a.pressSide :=
    fun m a => foldl_keeps State.pressSide (f := fun (a : State) (e : MapEntry) => a.forceMasks e.g 0 (m e.g)) (fun _ _ => rfl) _ _
  unfold State.rebuildDead
  extract_lets table l s0 masks s1
  have hs0 : s0.pressSide = s.pressSide := by
    unfold s0; split <;> rfl
  have hs1 : s1.pressSide = s.pressSide := by
    refine Eq.trans (List.foldlRecOn (motive := fun a : State => a.pressSide = s0.pressSide) s.entries _ rfl ?_) hs0
    exact fun a ha e _ => (hcolumns _ ..).trans ha
  clear_value s1 masks
  split
  · exact (htiles masks s1).trans hs1
  · exact hs1

@[simp] theorem State.loadTile_pressSide (j : Job) (e : MapEntry) : (s.loadTile j e).pressSide = s.pressSide := by
  have htrims := foldl_keeps State.pressSide
    (f := fun (s : State) i => s.sendLoad e.port e.slot opTRIM_LOAD (s.trimPayload e.g (256 * i) 256)) fun _ _ => State.sendLoad_pressSide ..
  simp [State.loadTile, htrims]

@[simp] theorem State.unassignOthers_pressSide : s.unassignOthers.pressSide = s.pressSide :=
  foldl_keeps State.pressSide (fun _ _ => by simp) _ _

@[simp] theorem State.clearJobFaults_pressSide : s.clearJobFaults.pressSide = s.pressSide :=
  foldl_keeps State.pressSide (fun _ _ => by split <;> simp) _ _

@[simp] theorem State.barFault_pressSide (q reason pos : Nat) : (s.barFault q reason pos).pressSide = s.pressSide := by
  unfold State.barFault State.faultUnit
  split <;> simp

@[simp] theorem State.barTake_pressSide (q mode per : Nat) : (s.barTake q mode per).pressSide = s.pressSide := by
  unfold State.barTake; dsimp only; split <;> simp

end JobTake
end Sys2Proof.Machine

namespace Sys2Proof.Machine

section JobTake
variable {s : State} {k : Nat} {d : OpenDesc} {j : Job}

/-! ### The job that a JOB_START opens (R106, R111) -/

/-- Opening a job shows, loads and journals what the job needs; the job itself is the one of its descriptor. -/
theorem State.openJob_job (s : State) (ring seq : Nat) (d : DescBits) :
    (s.openJob ring seq d).press.job = some (s.newJob ring seq d) := by
  have hfire : ∀ (m : Nat → Nat) (l : List Nat) (x : State) (mode : Nat), (l.foldl (fun (s : State) q =>
      (s.put (PLN_FIRE_ACTIVE_SCALE q) (m q)).put (PLN_FIRE_ACTIVE_TRAIN_NS q) (s.trainNs q mode)) x).pressSide = x.pressSide :=
    fun m l x mode => foldl_keeps State.pressSide (f := fun (s : State) q =>
      (s.put (PLN_FIRE_ACTIVE_SCALE q) (m q)).put (PLN_FIRE_ACTIVE_TRAIN_NS q) (s.trainNs q mode)) (fun _ _ => rfl) l x
  have hcheck : ∀ (l : List MapEntry) (x : State), (l.foldl (fun s e => s.checkTile e) x).pressSide = x.pressSide := fun l x =>
    foldl_keeps State.pressSide (f := fun s e => s.checkTile e) (fun _ _ => State.checkTile_pressSide ..) l x
  have hload : ∀ (j : Job) (l : List MapEntry) (x : State), (l.foldl (fun s e => s.loadTile j e) x).pressSide = x.pressSide :=
    fun j l x => foldl_keeps State.pressSide (f := fun s e => s.loadTile j e) (fun _ _ => State.loadTile_pressSide ..) l x
  have hbars : ∀ (mode : Nat) (per : State → Nat) (l : List Nat) (x : State),
      (l.foldl (fun s q => s.barTake q mode (per s)) x).pressSide = x.pressSide := fun mode per l x =>
    foldl_keeps State.pressSide (f := fun s q => s.barTake q mode (per s)) (fun _ _ => State.barTake_pressSide ..) l x
  unfold State.openJob
  extract_lets j press enc web s1 s2 s3 s4 s5 s6
  have h1 : s1.pressSide.2.job = some j := rfl
  have h2 : s2.pressSide = s1.pressSide := by
    rw [State.showOffsets_pressSide, State.calTake_pressSide, State.put_pressSide, State.putB_pressSide, State.crossBase_pressSide]
  have h3 : s3.pressSide = s2.pressSide := hfire ..
  have h4 : s4.pressSide = s3.pressSide := (State.rebuildDead_pressSide ..).trans (hcheck ..)
  have h5 : s5.pressSide = s4.pressSide := by
    rw [State.clearJobFaults_pressSide, State.unassignOthers_pressSide, hload]
  have h6 : s6.pressSide = s5.pressSide := hbars _ State.jobPeriod ..
  have hend : ((s6.showLine 0).jrn (.job d ring s.time.line)).pressSide = s6.pressSide := by
    rw [State.jrn_pressSide, State.showLine_pressSide]
  have hside : ((s6.showLine 0).jrn (.job d ring s.time.line)).pressSide = s1.pressSide := by
    rw [hend, h6, h5, h4, h3, h2]
  exact (congrArg (fun x => x.2.job) hside).trans h1

/-- A JOB_START that stands first and that no reason forbids opens its job (R106, R111). -/
theorem State.jobStart_opens (hi : s.islandRuns 2 = true) (hnone : s.press.job = none) (hready : s.on LDG_STATUS_READY = true)
    (hhead : s.jobHead k = true) (hd : s.head k = some d) (hfirst : ∀ r, r < k → s.jobHead r = false) (hok : s.jobReasons d.bits = []) :
    s.jobStart k = (s.startDesc k d.seq).openJob k d.seq d.bits := by
  have hany : (List.range k).any (fun r => s.jobHead r) = false := by
    simpa using hfirst
  unfold State.jobStart
  simp only [hd, hhead, hi, hnone, hready, hany, hok, pickOf]
  rfl

/-- A JOB_START inside the open job of its own ring is refused with reason 6 (R106, R111). -/
theorem State.jobStart_inside (hi : s.islandRuns 2 = true) (hj : s.press.job = some j) (hring : j.ring = k)
    (hopen : j.jobEndSeq = none) (hhead : s.jobHead k = true) (hd : s.head k = some d) :
    s.jobStart k = ((s.take k d.seq).complete k d.seq 2 Ev.JOB_REFUSED stREFUSED 0xFFFF [dfield d.bits 4 4, 6, 0xFF] true).cause
      PGP_IRQ_CAUSE_JOB_REFUSED := by
  unfold State.jobStart
  simp only [hd, hhead, hi, hj, hring, hopen]
  rfl

/-! ### PAGE and JOB_END at the head of a ring (R106, R110, R112, R115) -/

/-- A PAGE that no reason forbids becomes the last page of the open job (R106, R110). -/
theorem State.page_added (hj : s.press.job = some j) (hring : j.ring = k) (hopen : j.jobEndSeq = none) (hend : j.endReason = none)
    (hd : s.jobDesc k 0x11 = some d) (hok : pageReasons d.bits j.mode (j.pages.foldl (fun a p => max a p.stop) 0) = []) :
    s.page k = (s.take k d.seq).setJob
      { j with pages := j.pages ++ [newPage d.seq d.bits (pageFirst d.bits (j.pages.foldl (fun a p => max a p.stop) 0))] } := by
  subst hring
  unfold State.page
  rw [hd, hj]
  dsimp only
  rw [if_pos ⟨rfl, by simp [hopen]⟩, State.pageIn, if_neg (by simp [hend])]
  dsimp only
  rw [hok]
  rfl

/-- A PAGE without an open job is refused with reason 9 (R106, R112). -/
theorem State.page_outside (hnone : s.press.job = none) (hd : s.jobDesc k 0x11 = some d) :
    s.page k = ((s.take k d.seq).complete k d.seq 2 Ev.PAGE_REFUSED stREFUSED 0xFFFF [dfield d.bits 8 4, 9, 0xFF, 0xFF] true).cause
      PGP_IRQ_CAUSE_PAGE_REFUSED := by
  unfold State.page
  simp only [hd, hnone]

/-- The open job remembers its JOB_END, and whether data are waited for is shown anew (R115, R140). -/
theorem State.jobEnd_inside (hj : s.press.job = some j) (hring : j.ring = k) (hopen : j.jobEndSeq = none)
    (hd : s.jobDesc k 0x12 = some d) :
    ∃ b, s.jobEnd k = ((s.startDesc k d.seq).setJob { j with jobEndSeq := some d.seq }).putB PGP_IRQ_CAUSE_WAIT_DATA b := by
  unfold State.jobEnd
  simp only [hd, hj, hring, hopen]
  exact ⟨_, rfl⟩

/-- A JOB_END without an open job is refused with end reason 7 (R106, R115). -/
theorem State.jobEnd_outside (hnone : s.press.job = none) (hd : s.jobDesc k 0x12 = some d) :
    s.jobEnd k = (s.take k d.seq).complete k d.seq 2 Ev.JOB_ENDED stREFUSED 0xFFFF [0, 0, 7, 0, 0, 0, 0] true := by
  unfold State.jobEnd
  simp only [hd, hnone]

/-! ### The end of a job (R115, R565) -/

/-- What the end of a job reports: JOB_STARTED when the job never started, JOB_ENDED at its descriptor, and JOB_ENDED as an event when there
is no descriptor or the host lost the ring. -/
def State.jobReported (s : State) (j : Job) : State :=
  let s1 := if j.started then s else s.complete j.ring j.seq 2 Ev.JOB_STARTED stFAILED 0xFFFF [j.jobId, s.time.line] false
  let s2 := match j.jobEndSeq with
    | some q => s1.complete j.ring q 2 Ev.JOB_ENDED (if j.endReason.getD 0 = 0 then stOK else stFAILED) 0xFFFF j.endPayload false
    | none => s1
  if j.jobEndSeq.isNone ∨ j.hostLost then s2.jobEndedEvent j else s2

/-- What the end of a job clears: the job, what shows its state, and a period that waits for its pages. -/
def State.jobCleared (s : State) (j : Job) : State :=
  let s1 := ((s.jrn (.ended j.endPayload)).put PGP_SCHED_STATUS_JOB_STATE jsIdle).put PGP_SCHED_STATUS_RECOV_PHASE 0
  ({ s1.endOwnJournal j with press := { s1.press with job := none } }.showLine j.maxLine).putB PGP_CLK_STATUS_APPLY_PEND false

theorem State.jobClose_over (hj : s.press.job = some j) (hclosing : j.closing = true) (hstill : s.on MOT_WEB_STATUS_STANDSTILL = true)
    (hretired : j.pages.all (·.retired) = true) (hend : j.jobEndSeq ≠ none) :
    s.jobClose = ((s.jobReported j).jobCleared j).handoverCheck := by
  have hsome : j.jobEndSeq.isSome = true := Option.isSome_iff_ne_none.mpr hend
  unfold State.jobClose
  simp only [hj]
  rw [if_neg (by simp [hclosing, hstill, hsome, -List.all_eq_true, hretired])]
  rfl

theorem State.jobEndedEvent_hidden (s : State) (j : Job) : (s.jobEndedEvent j).hidden = s.hidden := by
  unfold State.jobEndedEvent
  dsimp only
  split
  · rfl
  · exact State.evtPost_hidden ..

/-- The reports are events and completions. -/
theorem State.jobReported_hidden (s : State) (j : Job) : (s.jobReported j).hidden = s.hidden := by
  unfold State.jobReported
  extract_lets s1 s2
  have h1 : s1.hidden = s.hidden := by
    unfold s1; split <;> simp
  have h2 : s2.hidden = s1.hidden := by
    unfold s2; split <;> simp
  clear_value s2
  split
  · rw [State.jobEndedEvent_hidden, h2, h1]
  · rw [h2, h1]

/-- A journalled record changes the pair's record alone, and no handover. -/
theorem State.jrn_par (s : State) (r : JrnRec) : ∃ p, s.jrn r = { s with par := p } ∧ p.handover = s.par.handover := by
  unfold State.jrn State.mirrorSend
  split
  · split
    · exact ⟨_, rfl, rfl⟩
    · exact ⟨s.par, rfl, rfl⟩
  · exact ⟨s.par, rfl, rfl⟩

theorem State.endOwnJournal_par (s : State) (j : Job) : ∃ p, s.endOwnJournal j = { s with par := p } ∧ p.handover = s.par.handover := by
  unfold State.endOwnJournal
  split
  · exact ⟨_, rfl, rfl⟩
  · exact ⟨s.par, rfl, rfl⟩

/-- After the end there is no job, its state is IDLE without a recovery, and no handover comes of it. -/
theorem State.jobCleared_idle {t : State} (ht : s.jobCleared j = t) :
    t.press.job = none ∧ t.get PGP_SCHED_STATUS_JOB_STATE = jsIdle ∧ t.get PGP_SCHED_STATUS_RECOV_PHASE = 0 ∧
      t.par.handover = s.par.handover ∧ t.dram = s.dram ∧ t.heads = s.heads ∧ t.ldg = s.ldg := by
  have hshow : ∀ (x y : State) (f : Fld), x.regs = y.regs → PGP_JOB_LINE_LO_LINE.apart f → PGP_JOB_LINE_HI_LINE.apart f →
      PGP_CLK_STATUS_APPLY_PEND.apart f → ((x.showLine j.maxLine).putB PGP_CLK_STATUS_APPLY_PEND false).get f = y.get f := by
    intro x y f hregs hlo hhi hpend
    rw [State.get_putB_apart _ _ _ _ (by decide) hpend, State.showLine, State.get_put_apart _ _ _ _ (by decide) hhi,
      State.get_put_apart _ _ _ _ (by decide) hlo, State.get, State.rget, hregs]
    rfl
  obtain ⟨p, hjrn, hp⟩ := s.jrn_par (.ended j.endPayload)
  obtain ⟨x, hx⟩ : ∃ x, x = (({ s with par := p } : State).put PGP_SCHED_STATUS_JOB_STATE jsIdle).put PGP_SCHED_STATUS_RECOV_PHASE 0 :=
    ⟨_, rfl⟩
  obtain ⟨q, hown, hq⟩ := x.endOwnJournal_par j
  have heff : s.jobCleared j = (({ x with par := q, press := { x.press with job := none } } : State).showLine j.maxLine).putB
      PGP_CLK_STATUS_APPLY_PEND false := by
    unfold State.jobCleared
    dsimp only
    rw [hjrn, ← hx, hown]
  obtain rfl := heff.symm.trans ht
  have hstate : x.get PGP_SCHED_STATUS_JOB_STATE = jsIdle := by
    rw [hx, State.get_put_apart _ _ _ _ (by decide) (by decide), State.get_put_same _ _ _ (by decide)]
    decide
  have hphase : x.get PGP_SCHED_STATUS_RECOV_PHASE = 0 := by
    rw [hx, State.get_put_same _ _ _ (by decide), Nat.zero_mod]
  have hrest : x.dram = s.dram ∧ x.heads = s.heads ∧ x.ldg = s.ldg := by
    rw [hx]
    exact ⟨rfl, rfl, rfl⟩
  refine ⟨rfl, (hshow _ x _ rfl (by decide) (by decide) (by decide)).trans hstate,
    (hshow _ x _ rfl (by decide) (by decide) (by decide)).trans hphase, ?_, hrest⟩
  exact hq.trans ((congrArg (fun y : State => y.par.handover) hx).trans hp)

theorem State.handoverCheck_idle (h : s.par.handover = false) : s.handoverCheck = s := by
  unfold State.handoverCheck
  rw [if_neg (by simp [h])]

end JobTake

/-- Settles O20: each clause is the one branch of its command that its premises leave. -/
theorem jobCommands : Obligations.JobCommands := by
  refine ⟨?start, ?startInside, ?page, ?pageOutside, ?stop, ?stopOutside, ?close⟩
  case start =>
    intro s k d hi hnone hready hhead hd hfirst hok
    have heff := State.jobStart_opens hi hnone hready hhead hd hfirst hok
    exact ⟨_, congrArg finish heff, _, State.openJob_job .., rfl, rfl, rfl, rfl, rfl⟩
  case startInside =>
    intro s k d j hi hj hring hopen hhead ⟨hd, hdesc, hstale⟩
    obtain ⟨hdone, hhidden, hkeeps⟩ :=
      State.take_complete Ev.JOB_REFUSED stREFUSED [dfield d.bits 4 4, 6, 0xFF] hdesc hstale (by decide)
    obtain ⟨hdone, hon, hhidden, hkeeps⟩ := hdone.cause PGP_IRQ_CAUSE_JOB_REFUSED (by decide) hhidden hkeeps
    exact ⟨_, congrArg finish (State.jobStart_inside hi hj hring hopen hhead hd), hon, hhidden, hdone, hkeeps⟩
  case page =>
    intro s k d j hj hring hopen hend hd hok
    have heff := State.page_added hj hring hopen hend hd hok
    exact ⟨_, congrArg finish heff, rfl, rfl, s.evtEntries_take k d.seq, fun _ _ => rfl⟩
  case pageOutside =>
    intro s k d hnone hjob ⟨_, hdesc, hstale⟩
    obtain ⟨hdone, hhidden, hkeeps⟩ :=
      State.take_complete Ev.PAGE_REFUSED stREFUSED [dfield d.bits 8 4, 9, 0xFF, 0xFF] hdesc hstale (by decide)
    obtain ⟨hdone, hon, hhidden, hkeeps⟩ := hdone.cause PGP_IRQ_CAUSE_PAGE_REFUSED (by decide) hhidden hkeeps
    exact ⟨_, congrArg finish (State.page_outside hnone hjob), hdone, hon, hhidden, hkeeps⟩
  case stop =>
    intro s k d j hj hring hopen hd
    obtain ⟨b, heff⟩ := State.jobEnd_inside hj hring hopen hd
    refine ⟨_, congrArg finish heff, rfl, rfl, ?_, ?_⟩
    · rw [State.evtEntries_trackIrq, State.evtEntries_putB]
      exact s.evtEntries_startDesc k d.seq
    · exact Keeps.putB (x := (s.startDesc k d.seq).setJob { j with jobEndSeq := some d.seq }) (fun _ _ => rfl) _ b List.mem_cons_self
  case stopOutside =>
    intro s k d hnone hjob ⟨_, hdesc, hstale⟩
    obtain ⟨hdone, hhidden, hkeeps⟩ :=
      State.take_complete Ev.JOB_ENDED stREFUSED [0, 0, 7, 0, 0, 0, 0] hdesc hstale (by decide)
    exact ⟨_, congrArg finish (State.jobEnd_outside hnone hjob), hdone, hhidden, hkeeps⟩
  case close =>
    intro s j hj hclosing hstill hretired hend hstay
    have hhidden := s.jobReported_hidden j
    obtain ⟨hnone, hidle, hphase, hhandover, hdram, hheads, hldg⟩ := State.jobCleared_idle (s := s.jobReported j) (j := j) rfl
    have hstay' : ((s.jobReported j).jobCleared j).par.handover = false :=
      hhandover.trans ((congrArg (fun x : State => x.par.handover) hhidden).trans hstay)
    have heff := (State.jobClose_over hj hclosing hstill hretired hend).trans (State.handoverCheck_idle hstay')
    have hdram' := congrArg State.dram hhidden
    have hheads' := congrArg State.heads hhidden
    have hldg' := congrArg State.ldg hhidden
    exact ⟨_, congrArg finish heff, hnone, hidle, hphase, hdram.trans hdram', hheads.trans hheads', hldg.trans hldg'⟩

end Sys2Proof.Machine

namespace Sys2Proof.Machine

/-! ### A unit takes a descriptor of the CMX ring (R170 to R172, R179) -/

section CmxTake
variable {s : State} {u op : Nat} {d : DescBits}

theorem bit_eq_testBit (v i : Nat) : bit v i = v.testBit i := by
  rw [Nat.testBit_eq_decide_div_mod_eq]
  rfl

/-- Adding the weight of a clear bit sets that bit, and the field it lies in is wide enough to show it. -/
theorem bit_add_two_pow {v i n : Nat} (hi : i < n) (hclear : bit v i = false) : bit ((v + 2 ^ i) % 2 ^ n) i = true := by
  rw [bit_eq_testBit] at hclear ⊢
  rw [Nat.testBit_mod_two_pow, Nat.add_comm, Nat.testBit_two_pow_add_eq, hclear, decide_eq_true hi]
  rfl

/-- A descriptor without a defect whose state is that of a reset compresses its source bytes as read (R171). -/
theorem State.cmxCompress_fromReset (bs : List Byte) (x : ReadResult) (hok : cmxRefusals d s.dramSize = [])
    (hsrc : cxSrcDram d = false) (hload : cxLoad d = false) :
    s.cmxCompress d (.ok bs) x =
      (s, compressJob d (bs.take (cxSrcLen d)) true (FblcState.reset (cxSymw d) (cxWidth d))) := by
  simp [State.cmxCompress, State.cmxRead, hok, pickOf, hsrc, hload]

/-- A stream with a good header and room for its raster is decompressed from a reset state (R172, R179). -/
theorem State.cmxDecompress_fromReset {bs : List Byte} {h : FblcHeader} (x : ReadResult) (hok : cmxRefusals d s.dramSize = [])
    (hsrc : cxSrcDram d = false) (hhead : parseHeader (bs.take (cxSrcLen d)) = .ok h)
    (hroom : rasterSize h.symw h.width h.lines ≤ cxCap d) (hload : cxLoad d = false) :
    s.cmxDecompress d (.ok bs) x =
      (s, decompressJob d h (bs.take (cxSrcLen d)) true (FblcState.reset h.symw h.width)) := by
  simp [State.cmxDecompress, State.cmxRead, hok, pickOf, hsrc, hhead, Nat.not_lt.mpr hroom, hload]

/-- Unit `u` works on a job, and shows the descriptor as its own. -/
def State.cmxBegun (s : State) (u op seq : Nat) (j : CmxJob) : State :=
  ((((({ s with cmx := s.cmx.set u (some j) } : State).startDesc 4 seq).put CMX_UNIT_STATUS_BUSY
    (s.get CMX_UNIT_STATUS_BUSY + 2 ^ u)).put (CMX_UNIT_SEQ_SEQ u) seq).putB (CMX_UNIT_SEQ_VALID u) true).putB
    (CMX_UNIT_SEQ_OP u) (op == 0x11)

/-- An idle, selected unit takes the descriptor next in the ring when it is of its command's opcode (R170). -/
theorem State.cmxTake_idle {d : OpenDesc} {j : CmxJob} {job : State → DescBits → State × CmxJob} (hi : s.islandRuns 2 = true)
    (hhead : s.head 4 = some d) (hop : d.op = op) (hmask : bit (s.get CMX_UNIT_MASK_MASK) u = true)
    (hidle : bit (s.get CMX_UNIT_STATUS_BUSY) u = false) (hjob : job s d.bits = (s, j)) :
    s.cmxTake u op job = s.cmxBegun u op d.seq j := by
  simp only [State.cmxTake, hhead, hop, hi, hmask, hidle, hjob, ne_eq, not_true_eq_false, Bool.false_eq_true, or_self, if_false]
  rfl

theorem State.cmxBegun_cmx (s : State) (u op seq : Nat) (j : CmxJob) : (s.cmxBegun u op seq j).cmx = s.cmx.set u (some j) := by
  rw [State.cmxBegun, State.putB_cmx, State.putB_cmx, State.put_cmx, State.put_cmx]
  rfl

theorem State.cmxBegun_hidden (s : State) (u op seq : Nat) (j : CmxJob) :
    (s.cmxBegun u op seq j).hidden = ({ s with cmx := s.cmx.set u (some j) } : State).hidden := by
  rw [State.cmxBegun, State.putB_hidden, State.putB_hidden, State.put_hidden, State.put_hidden, State.startDesc_hidden]

theorem State.cmxBegun_evtEntries (s : State) (u op seq : Nat) (j : CmxJob) : (s.cmxBegun u op seq j).evtEntries = s.evtEntries := by
  rw [State.cmxBegun, State.evtEntries_putB, State.evtEntries_putB, State.evtEntries_put, State.evtEntries_put,
    State.evtEntries_startDesc]
  rfl

theorem Keeps.cmxBegun (s : State) (u op seq : Nat) (j : CmxJob) :
    Keeps s (s.cmxBegun u op seq j) [CMX_UNIT_STATUS, CMX_UNIT_SEQ u] := by
  have hseq : CMX_UNIT_SEQ u ∈ [CMX_UNIT_STATUS, CMX_UNIT_SEQ u] := List.mem_cons_of_mem _ List.mem_cons_self
  have hheld : Keeps s ({ s with cmx := s.cmx.set u (some j) } : State) [CMX_UNIT_STATUS, CMX_UNIT_SEQ u] := fun _ _ => rfl
  exact ((((hheld.startDesc 4 seq).put CMX_UNIT_STATUS_BUSY _ List.mem_cons_self).put (CMX_UNIT_SEQ_SEQ u) _ hseq).putB
    (CMX_UNIT_SEQ_VALID u) _ hseq).putB (CMX_UNIT_SEQ_OP u) _ hseq

/-- The fields of a unit's shown descriptor lie side by side. -/
theorem cmxUnitSeq_apart (u : Nat) : (CMX_UNIT_SEQ_VALID u).apart (CMX_UNIT_SEQ_SEQ u) ∧
    (CMX_UNIT_SEQ_OP u).apart (CMX_UNIT_SEQ_SEQ u) ∧ (CMX_UNIT_SEQ_OP u).apart (CMX_UNIT_SEQ_VALID u) := by
  simp [Fld.apart, CMX_UNIT_SEQ_SEQ, CMX_UNIT_SEQ_VALID, CMX_UNIT_SEQ_OP]

theorem State.cmxBegun_busy (s : State) (u : Fin 8) (op seq : Nat) (j : CmxJob) (hidle : bit (s.get CMX_UNIT_STATUS_BUSY) u = false) :
    bit ((s.cmxBegun u op seq j).get CMX_UNIT_STATUS_BUSY) u = true := by
  have hother : CMX_UNIT_SEQ u ≠ CMX_UNIT_STATUS := by
    simp only [CMX_UNIT_SEQ, CMX_UNIT_STATUS]
    omega
  have hkept : ∀ (x : State) (v : Nat) (b c : Bool), (((x.put (CMX_UNIT_SEQ_SEQ u) v).putB (CMX_UNIT_SEQ_VALID u) b).putB
      (CMX_UNIT_SEQ_OP u) c).get CMX_UNIT_STATUS_BUSY = x.get CMX_UNIT_STATUS_BUSY := fun x v b c =>
    (State.get_putB_apart _ _ _ _ rfl (.inl hother)).trans ((State.get_putB_apart _ _ _ _ rfl (.inl hother)).trans
      (State.get_put_apart _ _ _ _ rfl (.inl hother)))
  rw [State.cmxBegun, hkept, State.get_put_same _ _ _ (by decide)]
  exact bit_add_two_pow u.isLt hidle

theorem State.cmxBegun_seq (s : State) (u op seq : Nat) (j : CmxJob) :
    (s.cmxBegun u op seq j).get (CMX_UNIT_SEQ_SEQ u) = seq % 65536 := by
  obtain ⟨hvalidSeq, hopSeq, -⟩ := cmxUnitSeq_apart u
  rw [State.cmxBegun, State.get_putB_apart _ _ _ _ rfl hopSeq, State.get_putB_apart _ _ _ _ rfl hvalidSeq,
    State.get_put_same _ _ _ rfl]
  simp [CMX_UNIT_SEQ_SEQ]

theorem State.cmxBegun_valid (s : State) (u op seq : Nat) (j : CmxJob) : (s.cmxBegun u op seq j).on (CMX_UNIT_SEQ_VALID u) = true := by
  obtain ⟨-, -, hopValid⟩ := cmxUnitSeq_apart u
  rw [State.cmxBegun, State.on_putB_apart _ _ _ _ rfl hopValid, State.on_putB_same _ _ _ rfl]

/-- What the start of a job shows, and what it leaves alone (R170). -/
theorem State.cmxBegun_shows (s : State) (u : Fin 8) (op seq : Nat) (j : CmxJob) (hlen : s.cmx.length = 8)
    (hidle : bit (s.get CMX_UNIT_STATUS_BUSY) u = false) :
    let t := (s.cmxBegun u op seq j).trackIrq
    t.cmx.getD u none = some j ∧ bit (t.get CMX_UNIT_STATUS_BUSY) u = true ∧ t.get (CMX_UNIT_SEQ_SEQ u) = seq % 65536 ∧
      t.on (CMX_UNIT_SEQ_VALID u) = true ∧ t.hidden = { s.hidden with cmx := t.cmx } ∧ t.evtEntries = s.evtEntries ∧
      Keeps s t [CMX_UNIT_STATUS, CMX_UNIT_SEQ u] := by
  have hcmx : (s.cmxBegun u op seq j).trackIrq.cmx = s.cmx.set u (some j) := (State.trackIrq_cmx _).trans (s.cmxBegun_cmx ..)
  refine ⟨?_, ?_, (State.get_trackIrq ..).trans (s.cmxBegun_seq ..), (State.on_trackIrq ..).trans (s.cmxBegun_valid ..), ?_,
    (State.evtEntries_trackIrq _).trans (s.cmxBegun_evtEntries ..), (Keeps.cmxBegun s u op seq j).trackIrq⟩
  · rw [hcmx, List.getD_eq_getElem?_getD, List.getElem?_set_self (hlen.symm ▸ u.isLt)]
    rfl
  · rw [State.get_trackIrq]
    exact s.cmxBegun_busy u op seq j hidle
  · rw [State.trackIrq_hidden, State.cmxBegun_hidden, hcmx]
    rfl

end CmxTake

/-! ### A unit's job completes (R174 to R182) -/

section CmxDone
variable {s x : State} {u : Nat} {j : CmxJob}

/-- Unit `u` is free again. -/
def State.cmxFreed (s : State) (u : Nat) : State :=
  ({ s with cmx := s.cmx.set u none } : State).put CMX_UNIT_STATUS_BUSY (s.get CMX_UNIT_STATUS_BUSY - 2 ^ u)

/-- Bytes stand at the destination of a job in host memory. -/
def State.cmxToHost (s : State) (j : CmxJob) (bs : List Byte) : State :=
  { s with hostMem := Mem.writes s.hostMem (cxDst j.bits) bs }

/-- A job that ended OK or with NO_GAIN and whose accesses succeeded frees its unit, writes its buffers, is counted and completes; it
posts neither a failure nor a cause (R176, R182). -/
theorem State.cmxDone_ended (hj : s.cmx.getD u none = some j) (hfail : j.fail = none)
    (hstatus : j.status = stOK ∨ j.status = cmxNO_GAIN) :
    s.cmxDone u none = (((s.cmxFreed u).cmxBuffers j).cmxCount j).complete 4 j.seq 2 Ev.CMX_DONE j.status u (cmxPayload u j)
      (j.status ≠ stOK) := by
  simp only [State.cmxDone, hj, hfail, hstatus, if_true]
  rfl

/-- A job that ended OK gives its output to the destination in host memory (R174, R180). -/
theorem State.cmxBuffers_ok (hok : j.status = stOK) (hdst : cxDstDram j.bits = false) (hsave : cxSave j.bits = false) :
    s.cmxBuffers j = s.cmxToHost j j.out := by
  simp [State.cmxBuffers, hok, State.cmxWrite, hdst, hsave, State.cmxToHost]

/-- After NO_GAIN the destination is undefined up to DST_CAP (R180). -/
theorem State.cmxBuffers_noGain (hng : j.status = cmxNO_GAIN) (hdst : cxDstDram j.bits = false) :
    s.cmxBuffers j = s.cmxToHost j ((List.range (cxCap j.bits)).map (Config.undefByte j.seq)) := by
  have hundef : dstUndefined (cxOp j.bits) cmxNO_GAIN = true := by simp [dstUndefined, cmxNO_GAIN, cmxOVERFLOW, cmxSTATE_BAD]
  simp [State.cmxBuffers, hng, hundef, show cmxNO_GAIN ≠ stOK by decide, State.cmxWrite, hdst, State.cmxToHost]

/-- Unit `u` is free, what its job wrote stands in host memory, and the job is counted as completed. -/
def State.cmxEnded (s : State) (u : Nat) (j : CmxJob) (bs : List Byte) : State :=
  ((s.cmxFreed u).cmxToHost j bs).addSat CMX_JOB_COUNT_COUNT 1

/-- The end of a job that is OK: its output is at the destination, and its bytes are counted. -/
def State.cmxEndedOk (s : State) (u : Nat) (j : CmxJob) : State :=
  ((s.cmxEnded u j j.out).addSat CMX_BYTES_IN_KIB (j.bytesIn / 1024)).addSat CMX_BYTES_OUT_KIB (j.out.length / 1024)

/-- The end of a job with NO_GAIN: its destination is undefined, and it is counted as such. -/
def State.cmxEndedNoGain (s : State) (u : Nat) (j : CmxJob) : State :=
  (s.cmxEnded u j ((List.range (cxCap j.bits)).map (Config.undefByte j.seq))).addSat CMX_NOGAIN_COUNT_COUNT 1

theorem State.cmxDone_ok (hj : s.cmx.getD u none = some j) (hfail : j.fail = none) (hok : j.status = stOK)
    (hdst : cxDstDram j.bits = false) (hsave : cxSave j.bits = false) :
    s.cmxDone u none = (s.cmxEndedOk u j).complete 4 j.seq 2 Ev.CMX_DONE stOK u (cmxPayload u j) false := by
  rw [State.cmxDone_ended hj hfail (.inl hok), State.cmxBuffers_ok hok hdst hsave, State.cmxCount, if_pos hok, hok]
  rfl

theorem State.cmxDone_noGain (hj : s.cmx.getD u none = some j) (hfail : j.fail = none) (hng : j.status = cmxNO_GAIN)
    (hdst : cxDstDram j.bits = false) :
    s.cmxDone u none = (s.cmxEndedNoGain u j).complete 4 j.seq 2 Ev.CMX_DONE cmxNO_GAIN u (cmxPayload u j) true := by
  have hcount : ∀ x : State, x.cmxCount j = (x.addSat CMX_JOB_COUNT_COUNT 1).addSat CMX_NOGAIN_COUNT_COUNT 1 := by
    intro x
    rw [State.cmxCount, hng, if_neg (by decide), if_neg (by decide), if_pos rfl]
  rw [State.cmxDone_ended hj hfail (.inr hng), State.cmxBuffers_noGain hng hdst, hcount, hng]
  rfl

/-! #### The state in which a job completes -/

theorem State.cmxEnded_hif (s : State) (u : Nat) (j : CmxJob) (bs : List Byte) : (s.cmxEnded u j bs).hif = s.hif := rfl

theorem State.cmxEnded_hidden (s : State) (u : Nat) (j : CmxJob) (bs : List Byte) :
    (s.cmxEnded u j bs).hidden = ({ s with cmx := s.cmx.set u none } : State).hidden := rfl

theorem Keeps.cmxEnded (s : State) (u : Nat) (j : CmxJob) (bs : List Byte) :
    Keeps s (s.cmxEnded u j bs) [CMX_UNIT_STATUS, CMX_JOB_COUNT] := by
  have hfreed : Keeps s (s.cmxFreed u) [CMX_UNIT_STATUS, CMX_JOB_COUNT] :=
    Keeps.put (x := { s with cmx := s.cmx.set u none }) (fun _ _ => rfl) _ _ List.mem_cons_self
  have hwritten : Keeps s ((s.cmxFreed u).cmxToHost j bs) [CMX_UNIT_STATUS, CMX_JOB_COUNT] := hfreed
  exact hwritten.addSat _ _ (by decide)

theorem State.get_cmxFreed_apart (f : Fld) (hf : CMX_UNIT_STATUS_BUSY.apart f) : (s.cmxFreed u).get f = s.get f :=
  State.get_put_apart { s with cmx := s.cmx.set u none } _ _ _ (by decide) hf

theorem State.cmxEnded_busy (s : State) (u : Nat) (j : CmxJob) (bs : List Byte) :
    (s.cmxEnded u j bs).get CMX_UNIT_STATUS_BUSY = s.get CMX_UNIT_STATUS_BUSY - 2 ^ u := by
  have hlt : s.get CMX_UNIT_STATUS_BUSY - 2 ^ u < 2 ^ 8 := lt_of_le_of_lt (Nat.sub_le _ _) (s.get_lt CMX_UNIT_STATUS_BUSY)
  have hfreed : (s.cmxFreed u).get CMX_UNIT_STATUS_BUSY = s.get CMX_UNIT_STATUS_BUSY - 2 ^ u :=
    (State.get_put_same _ _ _ (by decide)).trans (Nat.mod_eq_of_lt hlt)
  exact (State.get_addSat_apart ((s.cmxFreed u).cmxToHost j bs) _ _ _ (by decide) (by decide)).trans hfreed

theorem State.cmxEnded_jobCount (s : State) (u : Nat) (j : CmxJob) (bs : List Byte) :
    (s.cmxEnded u j bs).get CMX_JOB_COUNT_COUNT = min CMX_JOB_COUNT_COUNT.max (s.get CMX_JOB_COUNT_COUNT + 1) := by
  have hfreed : ((s.cmxFreed u).cmxToHost j bs).get CMX_JOB_COUNT_COUNT = s.get CMX_JOB_COUNT_COUNT :=
    State.get_cmxFreed_apart _ (by decide)
  rw [State.cmxEnded, State.get_addSat_same _ _ _ (by decide), hfreed]

/-- What holds after the completion of a job in a state `x` that differs from the one before it in the engine's jobs, host memory and
registers alone. -/
theorem State.cmx_completed {d : OpenDesc} {always : Bool} {l : List Nat} (u status : Nat) (p : List Nat) (hhif : x.hif = s.hif)
    (hhidden : x.hidden = ({ s with cmx := s.cmx.set u none } : State).hidden) (hkeeps : Keeps s x l) (hisland : RST_ISLAND 1 ∉ l)
    (hdesc : s.desc 4 j.seq = some d) (hstale : d.stale = false) (hentry : always = true ∨ d.notify = true) :
    let t := (x.complete 4 j.seq 2 Ev.CMX_DONE status u p always).trackIrq
    t.cmx = s.cmx.set u none ∧ Completes s t 4 j.seq 2 Ev.CMX_DONE status u p ∧ t.hidden = { s.hidden with cmx := t.cmx } ∧
      Keeps s t (l ++ doneRegs 4) ∧ ∀ f : Fld, f.off ∉ doneRegs 4 → t.get f = x.get f := by
  have hcmx : x.cmx = s.cmx.set u none := State.hidden_congr _ _ hhidden State.cmx
  have htime : x.time = s.time := State.hidden_congr _ _ hhidden State.time
  refine ⟨?_, ?_, ?_, ?_, ?_⟩
  · rw [State.trackIrq_cmx, State.complete_cmx, hcmx]
  · exact (Completes.of_complete s x 4 j.seq 2 Ev.CMX_DONE status u p always d hhif htime (hkeeps _ hisland) hdesc hstale hentry
      (by decide) (ringDone_ne_island 4)).after fun _ h => h
  · rw [State.trackIrq_hidden, State.complete_hidden, State.trackIrq_cmx, State.complete_cmx, hhidden, hcmx]
    rfl
  · exact ((hkeeps.mono fun _ h => List.mem_append_left _ h).complete _ _ _ _ _ _ _ _ fun _ h => List.mem_append_right _ h).trackIrq
  · exact fun f hf => State.get_complete x _ _ _ _ _ _ _ _ f hf

/-- The completion of a job that ended OK. -/
theorem State.cmxEndedOk_completed {d : OpenDesc} (u : Nat) (hdesc : s.desc 4 j.seq = some d) (hstale : d.stale = false)
    (hnotify : d.notify = true) :
    let t := ((s.cmxEndedOk u j).complete 4 j.seq 2 Ev.CMX_DONE stOK u (cmxPayload u j) false).trackIrq
    t.cmx = s.cmx.set u none ∧ t.get CMX_UNIT_STATUS_BUSY = s.get CMX_UNIT_STATUS_BUSY - 2 ^ u ∧
      t.get CMX_JOB_COUNT_COUNT = min CMX_JOB_COUNT_COUNT.max (s.get CMX_JOB_COUNT_COUNT + 1) ∧
      Completes s t 4 j.seq 2 Ev.CMX_DONE stOK u (cmxPayload u j) ∧ t.hidden = { s.hidden with cmx := t.cmx } ∧
      Keeps s t (CMX_UNIT_STATUS :: CMX_JOB_COUNT :: CMX_BYTES_IN :: CMX_BYTES_OUT :: doneRegs 4) := by
  have hkeeps : Keeps s (s.cmxEndedOk u j) [CMX_UNIT_STATUS, CMX_JOB_COUNT, CMX_BYTES_IN, CMX_BYTES_OUT] :=
    (((Keeps.cmxEnded s u j j.out).mono (by decide)).addSat _ _ (by decide)).addSat _ _ (by decide)
  have hhif : (s.cmxEndedOk u j).hif = s.hif := by
    rw [State.cmxEndedOk, State.addSat_hif, State.addSat_hif, State.cmxEnded_hif]
  have hhidden : (s.cmxEndedOk u j).hidden = ({ s with cmx := s.cmx.set u none } : State).hidden := by
    rw [State.cmxEndedOk, State.addSat_hidden, State.addSat_hidden, State.cmxEnded_hidden]
  have hget : ∀ f : Fld, CMX_BYTES_IN_KIB.apart f → CMX_BYTES_OUT_KIB.apart f →
      (s.cmxEndedOk u j).get f = (s.cmxEnded u j j.out).get f := fun f hin hout =>
    (State.get_addSat_apart _ _ _ _ (by decide) hout).trans (State.get_addSat_apart _ _ _ _ (by decide) hin)
  obtain ⟨hcmx, hdone, hhidden, hkeeps, hkept⟩ := State.cmx_completed u stOK (cmxPayload u j) hhif hhidden hkeeps (by decide)
    hdesc hstale (.inr hnotify)
  refine ⟨hcmx, ?_, ?_, hdone, hhidden, hkeeps⟩
  · rw [hkept _ (by decide), hget _ (by decide) (by decide), State.cmxEnded_busy]
  · rw [hkept _ (by decide), hget _ (by decide) (by decide), State.cmxEnded_jobCount]

/-- The completion of a job that ended with NO_GAIN. -/
theorem State.cmxEndedNoGain_completed {d : OpenDesc} (u : Nat) (hdesc : s.desc 4 j.seq = some d) (hstale : d.stale = false) :
    let t := ((s.cmxEndedNoGain u j).complete 4 j.seq 2 Ev.CMX_DONE cmxNO_GAIN u (cmxPayload u j) true).trackIrq
    t.cmx = s.cmx.set u none ∧ t.get CMX_NOGAIN_COUNT_COUNT = min CMX_NOGAIN_COUNT_COUNT.max (s.get CMX_NOGAIN_COUNT_COUNT + 1) ∧
      Completes s t 4 j.seq 2 Ev.CMX_DONE cmxNO_GAIN u (cmxPayload u j) ∧ t.hidden = { s.hidden with cmx := t.cmx } ∧
      Keeps s t (CMX_UNIT_STATUS :: CMX_JOB_COUNT :: CMX_NOGAIN_COUNT :: doneRegs 4) := by
  have hended := Keeps.cmxEnded s u j ((List.range (cxCap j.bits)).map (Config.undefByte j.seq))
  have hkeeps : Keeps s (s.cmxEndedNoGain u j) [CMX_UNIT_STATUS, CMX_JOB_COUNT, CMX_NOGAIN_COUNT] :=
    (hended.mono (by decide)).addSat _ _ (by decide)
  have hhif : (s.cmxEndedNoGain u j).hif = s.hif := by rw [State.cmxEndedNoGain, State.addSat_hif, State.cmxEnded_hif]
  have hhidden : (s.cmxEndedNoGain u j).hidden = ({ s with cmx := s.cmx.set u none } : State).hidden := by
    rw [State.cmxEndedNoGain, State.addSat_hidden, State.cmxEnded_hidden]
  have hcount := State.get_eq_of_rget _ _ CMX_NOGAIN_COUNT_COUNT (hended _ (by decide))
  obtain ⟨hcmx, hdone, hhidden, hkeeps, hkept⟩ := State.cmx_completed u cmxNO_GAIN (cmxPayload u j) hhif hhidden hkeeps
    (by decide) hdesc hstale (.inl rfl)
  refine ⟨hcmx, ?_, hdone, hhidden, hkeeps⟩
  rw [hkept _ (by decide), State.cmxEndedNoGain, State.get_addSat_same _ _ _ (by decide), hcount]

end CmxDone

/-- Settles O24: a job begins by `State.cmxBegun_shows`, and ends by the completions of `State.cmxEndedOk` and `State.cmxEndedNoGain`. -/
theorem compressionCommands : Obligations.CompressionCommands := by
  refine ⟨?compress, ?decompress, ?ok, ?noGain⟩
  case compress =>
    intro s u d bs x hi hhead hop hlen hmask hidle hok hsrc hload
    have heff := State.cmxTake_idle (job := fun s d => s.cmxCompress d (.ok bs) x) hi hhead hop hmask hidle
      (State.cmxCompress_fromReset bs x hok hsrc hload)
    exact ⟨_, congrArg finish heff, s.cmxBegun_shows u _ d.seq _ hlen hidle⟩
  case decompress =>
    intro s u d bs h x hi hhead hop hlen hmask hidle hok hsrc hheader hroom hload
    have hparse : parseHeader (bs.take (cxSrcLen d.bits)) = .ok h := by
      cases hp : parseHeader (bs.take (cxSrcLen d.bits)) with
      | error e => rw [hp] at hheader; cases hheader
      | ok k => rw [hp] at hheader; exact congrArg Except.ok (Option.some.inj hheader)
    have heff := State.cmxTake_idle (job := fun s d => s.cmxDecompress d (.ok bs) x) hi hhead hop hmask hidle
      (State.cmxDecompress_fromReset x hok hsrc hparse hroom hload)
    exact ⟨_, congrArg finish heff, s.cmxBegun_shows u _ d.seq _ hlen hidle⟩
  case ok =>
    intro s u j d _ hj hok hfail hdst hsave _ _ hdesc hstale hnotify
    exact ⟨_, congrArg finish (State.cmxDone_ok hj hfail hok hdst hsave), State.cmxEndedOk_completed u hdesc hstale hnotify⟩
  case noGain =>
    intro s u j d _ hj hng hfail hdst hdesc hstale
    exact ⟨_, congrArg finish (State.cmxDone_noGain hj hfail hng hdst), State.cmxEndedNoGain_completed u hdesc hstale⟩

end Sys2Proof.Machine

namespace Sys2Proof.Machine

/-! ### Tiles: records, acknowledgements and what a tile answers (R199, R203) -/

section Tiles
variable {s : State} {p slot : Nat}

theorem slotKey_ne {q k : Nat} (hslot : slot < 32) (hk : k < 32) (h : q ≠ p ∨ k ≠ slot) : slotKey p slot ≠ slotKey q k := by
  unfold slotKey
  omega

theorem State.tile_setTile_same (s : State) (p slot : Nat) (t : Tile) : (s.setTile p slot t).tile p slot = t := AMap.get_set_same ..

theorem State.tile_setTile_ne (s : State) (t : Tile) {q k : Nat} (hslot : slot < 32) (hk : k < 32) (h : q ≠ p ∨ k ≠ slot) :
    (s.setTile p slot t).tile q k = s.tile q k := AMap.get_set_ne _ _ _ _ _ (slotKey_ne hslot hk h)

@[simp] theorem State.tile_setTile_finished (s : State) (p slot : Nat) (t : Tile) : (s.setTile p slot t).trackIrq.tile p slot = t :=
  s.tile_setTile_same p slot t

theorem HeadOnly.setTile (s : State) (p slot : Nat) (t : Tile) : HeadOnly s (s.setTile p slot t) := rfl
theorem HeadOnly.ackOut (s : State) (p lsn status slot : Nat) : HeadOnly s (s.ackOut p lsn status slot) := rfl
theorem HeadOnly.setHeads (s : State) (x : Heads) : HeadOnly s (s.setHeads x) := rfl

/-- A command that changes the head link alone. -/
theorem Alters.of_headOnly {x : State} (h : HeadOnly s x) : Alters s x.trackIrq { s with heads := x.heads } [] :=
  Alters.of_regsOnly rfl (h.regsOnly (RegsOnly.refl s)) (h.keeps (Keeps.refl s []))

/-- Replacing a tile's record leaves every other tile and the rest of the head link alone. -/
theorem OnlyTile.setTile (s : State) (p : Nat) {slot : Nat} (t : Tile) (hslot : slot < 32) :
    OnlyTile s (s.setTile p slot t).trackIrq p slot :=
  ⟨rfl, fun _ _ hk h => s.tile_setTile_ne t hslot hk h, Alters.of_headOnly (HeadOnly.setTile ..)⟩

theorem Answers.ackOut (s : State) (p lsn status slot : Nat) : Answers s (s.ackOut p lsn status slot).trackIrq p slot lsn status :=
  ⟨rfl, fun _ _ _ _ => rfl, Alters.of_headOnly (HeadOnly.ackOut ..)⟩

theorem Answers.setTile (s : State) (p lsn status : Nat) {slot : Nat} (t : Tile) (hslot : slot < 32) :
    Answers s ((s.setTile p slot t).ackOut p lsn status slot).trackIrq p slot lsn status :=
  ⟨rfl, fun _ _ hk h => s.tile_setTile_ne t hslot hk h, Alters.of_headOnly ((HeadOnly.setTile ..).trans (HeadOnly.ackOut ..))⟩

/-- IMM and LINE of a header suit an opcode: a line opcode takes any, else IMM comes with LINE 0, and IMM 0 only with a timed opcode
(R210). -/
def headerSuits (h : CtlHdr) (timed lineOp : Bool) : Prop :=
  lineOp = true ∨ h.imm = true ∧ h.line = 0 ∨ h.imm = false ∧ timed = true

/-- What a tile answers, and what becomes of it, when its action has decided on a control packet (R199, R203). -/
def State.ctlAnswer (s : State) (p slot : Nat) (h : CtlHdr) : Except Nat Tile → State
  | .error st => s.ackOut p h.lsn.toNat st slot
  | .ok t => (s.setTile p slot { t with lastCseq := some h.cseq.toNat }).ackOut p h.lsn.toNat akACK slot

section Control
variable {h : CtlHdr} {b : List Byte} {len : Nat} {timed lineOp open' : Bool} {act : TileAct}

/-- A whole packet that a tile has not taken yet is decided by its action (R193, R203, R221). -/
theorem State.ctlReceive_takes (ht : s.takesCtl p slot h b len) (hh : headerSuits h timed lineOp) :
    s.ctlReceive p slot h b len timed lineOp open' act = s.ctlAnswer p slot h (act { s.tile p slot with reports := [] }) := by
  obtain ⟨hcrc, hblocks, hlen, hauth, hslot, hpresent, hcseq⟩ := ht
  have htimed : ¬(¬h.imm = true ∧ ¬timed = true ∧ ¬lineOp = true) := by
    rcases hh with hh | ⟨hi, -⟩ | ⟨-, hh⟩ <;> simp [*]
  have hline : ¬(h.imm = true ∧ ¬lineOp = true ∧ h.line ≠ 0) := by
    rcases hh with hh | ⟨-, hl⟩ | ⟨hi, -⟩ <;> simp [*]
  unfold State.ctlReceive
  rw [if_neg (by simp [hcrc, hblocks, hlen]), if_neg (by simp [hauth]), if_neg (by omega), if_neg (by simp [hpresent, hslot]),
    if_neg hcseq, if_neg htimed, if_neg hline]
  rfl

/-- A control packet that a tile executes is acknowledged, and the tile becomes what its action makes of it. -/
theorem State.ctlReceive_executes {x y : Tile} (ht : s.takesCtl p slot h b len) (hh : headerSuits h timed lineOp)
    (hact : act { s.tile p slot with reports := [] } = .ok x) (hy : { x with lastCseq := some h.cseq.toNat } = y) :
    ∃ t, finish (s.ctlReceive p slot h b len timed lineOp open' act) = .next t ∧ Answers s t p slot h.lsn.toNat akACK ∧
      t.tile p slot = y := by
  rw [State.ctlReceive_takes ht hh, hact, ← hy]
  obtain ⟨-, -, -, -, hslot, -, -⟩ := ht
  exact ⟨_, rfl, Answers.setTile s p _ _ _ (by omega), State.tile_setTile_same ..⟩

/-- A control packet that a tile's action does not take is answered with the reason, and no tile changes. -/
theorem State.ctlReceive_refuses {st : Nat} (ht : s.takesCtl p slot h b len) (hh : headerSuits h timed lineOp)
    (hact : act { s.tile p slot with reports := [] } = .error st) :
    ∃ t, finish (s.ctlReceive p slot h b len timed lineOp open' act) = .next t ∧ Answers s t p slot h.lsn.toNat st ∧
      t.heads.tiles = s.heads.tiles := by
  rw [State.ctlReceive_takes ht hh, hact]
  exact ⟨_, rfl, Answers.ackOut .., rfl⟩

end Control
end Tiles

/-- Settles O31: each parameter packet is one that the tile executes (`State.ctlReceive_executes`), its ranges being those the tile
checks. -/
theorem tileParameters : Obligations.TileParameters := by
  have himm : ∀ {h : CtlHdr}, h.imm = true → h.line = 0 → headerSuits h false false := fun hi hl => .inr (.inl ⟨hi, hl⟩)
  refine ⟨?fire, ?drops, ?warm, ?therm, ?delay, ?ident⟩
  case fire =>
    intro s p slot h b ht hi hl hheld hok
    exact State.ctlReceive_executes ht (himm hi hl) (if_neg (by simp [hheld, hok])) rfl
  case drops =>
    intro s p slot h b ht hi hl hheld hok
    exact State.ctlReceive_executes ht (himm hi hl) (if_neg (by simp [hheld, hok])) rfl
  case warm =>
    intro s p slot h b ht hi hl hzero
    exact State.ctlReceive_executes ht (himm hi hl) (if_neg (by simp [hzero])) rfl
  case therm =>
    intro s p slot h b ht hi hl hmin hwarn hclamp hshut hlo hhi hzero
    exact State.ctlReceive_executes ht (himm hi hl) (if_pos ⟨hmin, hwarn, hclamp, hshut, hlo, hhi, hzero⟩) rfl
  case delay =>
    intro s p slot h b ht hi hl hheld hzero
    exact State.ctlReceive_executes ht (himm hi hl) (if_neg (by simp [hheld, hzero])) rfl
  case ident =>
    intro s p slot h b ht hi hl hheld hbits hzero
    exact State.ctlReceive_executes ht (himm hi hl) (if_neg (by simp [hheld, hbits, hzero])) rfl

end Sys2Proof.Machine

namespace Sys2Proof.Machine

/-! ### Loads of a tile (R210, R211) -/

/-- A load that applies at once. -/
def loadNow (first : Nat) (data : List Nat) : TileLoad := { line := none, first := first, data := data }

/-- The load in effect that governs a column (R211). -/
def Tile.inForce (t : Tile) (loads : List TileLoad) (c : Nat) : Option TileLoad :=
  loads.find? (fun l => !t.pendingLoad l && l.covers c)

section Loads
variable {t u : Tile} {p slot : Nat} {h : CtlHdr} {loads : List TileLoad} {first : Nat} {data : List Nat}

theorem takeLoad_now (hi : h.imm = true) : takeLoad t p slot h loads first data = .ok (placeLoad t (loadNow first data) loads) :=
  if_pos hi

/-- A timed load outside the window of its line is refused (R211). -/
theorem takeLoad_window (hi : h.imm = false) (hw : lineDist h.line.toNat t.cur = 0 ∨ 2 ^ 23 ≤ lineDist h.line.toNat t.cur) :
    takeLoad t p slot h loads first data = .error akWINDOW :=
  (if_neg (by simp [hi])).trans (if_pos hw)

theorem Tile.maskOf_eq (t : Tile) (c : Nat) :
    t.maskOf c = ((t.inForce t.masks c).map fun l => l.data.getD (c - l.first) 0).getD 0 := by
  unfold Tile.maskOf Tile.inForce
  cases t.masks.find? (fun l => !t.pendingLoad l && l.covers c) <;> rfl

theorem Tile.trimOf_eq (t : Tile) (c k : Nat) :
    t.trimOf c k = ((t.inForce t.trims c).map fun l => sgn 6 (bits (l.data.getD (c - l.first) 0) (6 * k + 5) (6 * k))).getD 0 := by
  unfold Tile.trimOf Tile.inForce
  cases t.trims.find? (fun l => !t.pendingLoad l && l.covers c) <;> rfl

/-- Which loads are in effect follows from the line counter alone. -/
theorem Tile.inForce_congr (hcur : u.cur = t.cur) (loads : List TileLoad) (c : Nat) : u.inForce loads c = t.inForce loads c := by
  simp only [Tile.inForce, Tile.pendingLoad, hcur]

theorem loadNow_covers (first : Nat) (data : List Nat) (c : Nat) :
    (loadNow first data).covers c = decide (first ≤ c ∧ c < first + data.length) := by
  rw [TileLoad.covers, Bool.eq_iff_iff]
  simp [loadNow, Nat.blt_eq]

/-- A load that applies at once governs the columns it covers; every other column keeps the load it had (R211). -/
theorem Tile.inForce_placeLoad (t : Tile) (loads : List TileLoad) (c : Nat) :
    t.inForce (placeLoad t (loadNow first data) loads) c =
      if first ≤ c ∧ c < first + data.length then some (loadNow first data) else t.inForce loads c := by
  have hnow : t.pendingLoad (loadNow first data) = false := rfl
  have hgoverns : ∀ xs, t.inForce (loadNow first data :: xs) c =
      if first ≤ c ∧ c < first + data.length then some (loadNow first data) else t.inForce xs c := by
    intro xs
    rw [Tile.inForce, List.find?_cons, hnow, loadNow_covers]
    split_ifs with hc <;> simp [hc, Tile.inForce]
  induction loads with
  | nil => exact hgoverns []
  | cons x xs ih =>
    by_cases hx : t.pendingLoad x = true
    · have hskip : ∀ ys, t.inForce (x :: ys) c = t.inForce ys c := fun ys => by simp [Tile.inForce, hx]
      rw [show placeLoad t (loadNow first data) (x :: xs) = x :: placeLoad t (loadNow first data) xs from if_pos hx, hskip, hskip, ih]
    · rw [show placeLoad t (loadNow first data) (x :: xs) = loadNow first data :: x :: xs from if_neg hx, hgoverns]

/-- The row-usable mask of a tile after a MASK_LOAD that applies at once (R211). -/
theorem Tile.maskOf_now {x : Tile} (hm : x.masks = placeLoad { t with reports := [] } (loadNow first data) t.masks)
    (hcur : x.cur = t.cur) (c : Nat) :
    x.maskOf c = if first ≤ c ∧ c < first + data.length then data.getD (c - first) 0 else t.maskOf c := by
  rw [Tile.maskOf_eq, hm, Tile.inForce_congr (t := { t with reports := [] }) hcur, Tile.inForce_placeLoad, Tile.maskOf_eq t]
  split_ifs <;> rfl

/-- The trims of a tile after a TRIM_LOAD that applies at once (R211). -/
theorem Tile.trimOf_now {x : Tile} (hm : x.trims = placeLoad { t with reports := [] } (loadNow first data) t.trims)
    (hcur : x.cur = t.cur) (c k : Nat) :
    x.trimOf c k =
      if first ≤ c ∧ c < first + data.length then sgn 6 (bits (data.getD (c - first) 0) (6 * k + 5) (6 * k)) else t.trimOf c k := by
  rw [Tile.trimOf_eq, hm, Tile.inForce_congr (t := { t with reports := [] }) hcur, Tile.inForce_placeLoad, Tile.trimOf_eq t]
  split_ifs <;> rfl

theorem length_slice {b : List Byte} {at' n : Nat} (hb : at' + n ≤ b.length) : (slice b at' n).length = n := by
  simp only [slice, List.length_take, List.length_drop]
  omega

/-- Byte `i` of the data of a MASK_LOAD. -/
theorem getD_slice_toNat (b : List Byte) {at' n i : Nat} (hi : i < n) :
    ((slice b at' n).map BitVec.toNat).getD i 0 = (b.getD (at' + i) 0).toNat := by
  simp only [slice, List.getD_eq_getElem?_getD, List.getElem?_map, List.getElem?_take_of_lt hi, List.getElem?_drop]
  cases b[at' + i]? <;> rfl

theorem getD_map_range (f : Nat → Nat) {n i : Nat} (hi : i < n) : ((List.range n).map f).getD i 0 = f i := by
  simp [List.getD_eq_getElem?_getD, hi]

end Loads

section LoadPackets
variable {s : State} {p slot : Nat} {h : CtlHdr} {b : List Byte}

/-- A MASK_LOAD that applies at once (R210, R211). -/
theorem State.tileMaskLoad_now (ht : s.takesCtl p slot h b (8 + pf b 2 2)) (hi : h.imm = true) (hl : h.line = 0) (hcount : 0 < pf b 2 2)
    (hroom : pf b 0 2 + pf b 2 2 ≤ 4096) (hzero : pf b 4 4 = 0) :
    ∃ t, finish (s.tileMaskLoad p slot h b) = .next t ∧ Answers s t p slot h.lsn.toNat akACK ∧
      t.tile p slot = { s.tile p slot with
        reports := [], lastCseq := some h.cseq.toNat
        masks := placeLoad { s.tile p slot with reports := [] } (loadNow (pf b 0 2) ((slice b 8 (pf b 2 2)).map BitVec.toNat))
          (s.tile p slot).masks } :=
  State.ctlReceive_executes ht (.inr (.inl ⟨hi, hl⟩)) ((if_neg (by omega)).trans (congrArg (Except.map _) (takeLoad_now hi))) rfl

/-- A TRIM_LOAD that applies at once (R210, R211). -/
theorem State.tileTrimLoad_now (ht : s.takesCtl p slot h b (8 + 12 * pf b 2 2)) (hi : h.imm = true) (hl : h.line = 0)
    (hcount : 0 < pf b 2 2) (hmax : pf b 2 2 ≤ 256) (hroom : pf b 0 2 + pf b 2 2 ≤ 4096) (hzero : pf b 4 4 = 0) :
    ∃ t, finish (s.tileTrimLoad p slot h b) = .next t ∧ Answers s t p slot h.lsn.toNat akACK ∧
      t.tile p slot = { s.tile p slot with
        reports := [], lastCseq := some h.cseq.toNat
        trims := placeLoad { s.tile p slot with reports := [] }
          (loadNow (pf b 0 2) ((List.range (pf b 2 2)).map (fun i => pf b (8 + 12 * i) 12))) (s.tile p slot).trims } :=
  State.ctlReceive_executes ht (.inr (.inl ⟨hi, hl⟩)) ((if_neg (by omega)).trans (congrArg (Except.map _) (takeLoad_now hi))) rfl

/-- A timed MASK_LOAD outside the window of its line (R211). -/
theorem State.tileMaskLoad_window (ht : s.takesCtl p slot h b (8 + pf b 2 2)) (hi : h.imm = false) (hcount : 0 < pf b 2 2)
    (hroom : pf b 0 2 + pf b 2 2 ≤ 4096) (hzero : pf b 4 4 = 0)
    (hw : lineDist h.line.toNat (s.tile p slot).cur = 0 ∨ 2 ^ 23 ≤ lineDist h.line.toNat (s.tile p slot).cur) :
    ∃ t, finish (s.tileMaskLoad p slot h b) = .next t ∧ Answers s t p slot h.lsn.toNat akWINDOW ∧ t.heads.tiles = s.heads.tiles :=
  State.ctlReceive_refuses ht (.inr (.inr ⟨hi, rfl⟩)) ((if_neg (by omega)).trans 
    (congrArg (Except.map _) (takeLoad_window (t := { s.tile p slot with reports := [] }) hi hw)))

end LoadPackets

/-- Settles O30: the load in effect that governs a column is the one that applies at once, if it covers the column, else the one before
(`Tile.maskOf_now`, `Tile.trimOf_now`). -/
theorem tileLoads : Obligations.TileLoads := by
  refine ⟨?mask, ?trim, ?window⟩
  case mask =>
    intro s p slot h b ht hi hl hcount hroom hzero
    obtain ⟨t, hexec, hans, htile⟩ := State.tileMaskLoad_now ht hi hl hcount hroom hzero
    obtain ⟨-, -, hlen, -⟩ := ht
    refine ⟨t, hexec, hans, fun c => ?_, by rw [htile]⟩
    rw [htile]
    refine (Tile.maskOf_now (t := s.tile p slot) (by rfl) (by rfl) c).trans ?_
    rw [List.length_map, length_slice hlen]
    exact ite_congr rfl (fun hc => getD_slice_toNat b (by omega)) fun _ => rfl
  case trim =>
    intro s p slot h b ht hi hl hcount hmax hroom hzero
    obtain ⟨t, hexec, hans, htile⟩ := State.tileTrimLoad_now ht hi hl hcount hmax hroom hzero
    refine ⟨t, hexec, hans, fun c k => ?_, by rw [htile]⟩
    rw [htile]
    refine (Tile.trimOf_now (t := s.tile p slot) (by rfl) (by rfl) c k).trans ?_
    rw [List.length_map, List.length_range]
    exact ite_congr rfl (fun hc => by rw [getD_map_range _ (by omega)]) fun _ => rfl
  case window =>
    intro s p slot h b ht hi hcount hroom hzero hw
    exact State.tileMaskLoad_window ht hi hcount hroom hzero hw

end Sys2Proof.Machine

namespace Sys2Proof.Machine

/-! ### Actions of a tile (R205, R212 to R219, R289, R295) -/

/-- A number put together from the bits that a test names: below 2^n, with just those bits. -/
theorem foldl_range_bits (f : Nat → Bool) (n : Nat) :
    (List.range n).foldl (fun a c => if f c then a + 2 ^ c else a) 0 < 2 ^ n ∧
      ∀ i, ((List.range n).foldl (fun a c => if f c then a + 2 ^ c else a) 0).testBit i = (decide (i < n) && f i) := by
  induction n with
  | zero => simp
  | succ n ih =>
    obtain ⟨hlt, hbit⟩ := ih
    rw [List.range_succ, List.foldl_append, List.foldl_cons, List.foldl_nil]
    generalize (List.range n).foldl (fun a c => if f c then a + 2 ^ c else a) 0 = a at hlt hbit
    refine ⟨by split_ifs <;> omega, fun i => ?_⟩
    rcases Nat.lt_trichotomy i n with hi | rfl | hi
    · have hset : (a + 2 ^ n).testBit i = a.testBit i := by rw [Nat.add_comm, Nat.testBit_two_pow_add_gt hi]
      split_ifs <;> simp [hset, hbit, hi, Nat.lt_succ_of_lt hi]
    · have hset : (a + 2 ^ i).testBit i = true := by
        rw [Nat.add_comm, Nat.testBit_two_pow_add_eq, Nat.testBit_lt_two_pow hlt, Bool.not_false]
      split_ifs with hf <;> simp [hset, hbit, hf]
    · have hle : ∀ x, x < 2 ^ (n + 1) → x.testBit i = false := fun x hx =>
        Nat.testBit_lt_two_pow (lt_of_lt_of_le hx (Nat.pow_le_pow_right (by decide) hi))
      have hi' : ¬i < n + 1 := by omega
      rw [hle _ (by split_ifs <;> omega)]
      simp [hi']

/-- CLEAR_FAULT takes the named codes away and no other (R219). -/
theorem bit_clearCodes (faults codes : Nat) {c : Nat} (hc : c < 32) :
    bit (clearCodes faults codes) c = (bit faults c && !bit codes c) := by
  rw [bit_eq_testBit]
  exact ((foldl_range_bits (fun c => bit faults c && !bit codes c) 32).2 c).trans (by simp [hc])

/-- Settles O32: each action is one that the tile executes (`State.ctlReceive_executes`); the hub's part of it is not concerned, since
the slot is a tile's. -/
theorem tileActions : Obligations.TileActions := by
  have himm : ∀ {h : CtlHdr}, h.imm = true → h.line = 0 → headerSuits h false false := fun hi hl => .inr (.inl ⟨hi, hl⟩)
  have htileSlot : ∀ {s : State} {p slot : Nat} {h : CtlHdr} {b : List Byte} {len : Nat}, s.takesCtl p slot h b len → slot ≠ 31 := by
    rintro s p slot h b len ⟨-, -, -, -, hslot, -⟩ rfl
    omega
  refine ⟨?sweep, ?spit, ?cancel, ?line, ?declare, ?clear, ?echo⟩
  case sweep =>
    intro s p slot h b ht hi hl hidle hfirst hcount hpos hroom
    have hidle' : ({ s.tile p slot with reports := [] } : Tile).idle s.time.cyc = true := hidle
    exact State.ctlReceive_executes ht (himm hi hl) (if_neg (by simp [hidle', hfirst, hcount, hpos]; omega)) rfl
  case spit =>
    intro s p slot h b ht hi hl hheld hsweep hon hsize hmax hrate hrmax hzero
    have hranges : ¬(pf b 1 1 = 0 ∨ 3 < pf b 1 1 ∨ pf b 2 2 = 0 ∨ 5000 < pf b 2 2 ∨ pf b 4 4 ≠ 0) := by omega
    exact State.ctlReceive_executes ht (himm hi hl)
      (if_neg (not_or.mpr ⟨not_not.mpr hheld, not_or.mpr ⟨Bool.eq_false_iff.mp hsweep, not_or.mpr ⟨by omega, hranges⟩⟩⟩)) (by simp [hon])
  case cancel =>
    intro s p slot h ht
    obtain ⟨t, hexec, hans, htile⟩ : ∃ t, finish (s.tileLineCancel p slot h []) = .next t ∧ Answers s t p slot h.lsn.toNat akACK ∧
      t.tile p slot = _ := State.ctlReceive_executes ht (.inl rfl) rfl rfl
    refine ⟨t, hexec, hans, ?_⟩
    rw [htile]
    exact ⟨rfl, rfl, rfl⟩
  case line =>
    intro s p slot h ht
    obtain ⟨t, hexec, hans, htile⟩ : ∃ t, finish (s.tileSetLine p slot h []) = .next t ∧ Answers s t p slot h.lsn.toNat akACK ∧
      t.tile p slot = _ := State.ctlReceive_executes ht (.inl rfl) rfl rfl
    refine ⟨t, hexec, hans, ?_⟩
    rw [htile]
    refine ⟨rfl, rfl, rfl, by dsimp only, fun k hk => ?_⟩
    have hpast : ¬(1 ≤ lineDist k.line h.line.toNat ∧ lineDist k.line h.line.toNat ≤ 2 ^ 23) := by
      rw [← Nat.ble_eq, ← Nat.ble_eq, ← Bool.and_eq_true, Bool.not_eq_true, ← Bool.not_eq_true']
      exact (List.mem_filter.mp hk).2
    omega
  case declare =>
    intro s p slot h ht hi hl
    obtain ⟨t, hexec, hans, htile⟩ : ∃ t, finish (s.tileDeclareReq p slot h []) = .next t ∧ Answers s t p slot h.lsn.toNat akACK ∧
        t.tile p slot = _ := by
      rw [State.tileDeclareReq, if_neg (htileSlot ht)]
      exact State.ctlReceive_executes ht (himm hi hl) rfl rfl
    exact ⟨t, hexec, hans, by rw [htile]; rfl⟩
  case clear =>
    intro s p slot h b ht hi hl hzero hcode
    obtain ⟨t, hexec, hans, htile⟩ : ∃ t, finish (s.tileClearFault p slot h b) = .next t ∧ Answers s t p slot h.lsn.toNat akACK ∧
        t.tile p slot = _ := by
      rw [State.tileClearFault, if_neg (htileSlot ht)]
      exact State.ctlReceive_executes ht (himm hi hl) ((if_neg (by simp [hzero])).trans (if_neg (by simp [hcode]))) rfl
    refine ⟨t, hexec, hans, ?_⟩
    rw [htile]
    exact ⟨fun c hc => bit_clearCodes _ _ hc, rfl⟩
  case echo =>
    intro s p slot nonce hslot hpresent
    refine ⟨_, congrArg finish (if_pos (.inr ⟨hslot, hpresent⟩)), rfl, ?_⟩
    exact Alters.of_headOnly (HeadOnly.setHeads ..)

end Sys2Proof.Machine

namespace Sys2Proof.Machine

/-! ### Tiles: faults, dropped firing and ticks (R195, R209, R218, R221, R286, R297) -/

section TileOps
variable {t : Tile} {c group cyc : Nat}

/-! #### What raising a fault leaves alone -/

@[simp] theorem Tile.raise_cur : (t.raise c group).cur = t.cur := by unfold Tile.raise; dsimp only; split <;> rfl
@[simp] theorem Tile.raise_held : (t.raise c group).held = t.held := by unfold Tile.raise; dsimp only; split <;> rfl
@[simp] theorem Tile.raise_fired : (t.raise c group).fired = t.fired := by unfold Tile.raise; dsimp only; split <;> rfl
@[simp] theorem Tile.raise_clamp : (t.raise c group).clamp = t.clamp := by unfold Tile.raise; dsimp only; split <;> rfl
@[simp] theorem Tile.raise_clampEff : (t.raise c group).clampEff = t.clampEff := by unfold Tile.raise; dsimp only; split <;> rfl
@[simp] theorem Tile.raise_shut : (t.raise c group).shut = t.shut := by unfold Tile.raise; dsimp only; split <;> rfl
@[simp] theorem Tile.raise_missed : (t.raise c group).missed = t.missed := by unfold Tile.raise; dsimp only; split <;> rfl
@[simp] theorem Tile.raise_spitSize : (t.raise c group).spitSize = t.spitSize := by unfold Tile.raise; dsimp only; split <;> rfl
@[simp] theorem Tile.raise_firing : (t.raise c group).firing = t.firing := by unfold Tile.raise; dsimp only; split <;> rfl

/-- A fault that is raised is latched (R218). -/
@[simp] theorem Tile.fault_raise : (t.raise c group).fault c = true := by
  have hfaults : (t.raise c group).faults = if t.fault c then t.faults else t.faults + 2 ^ c := by
    unfold Tile.raise; dsimp only; split <;> rfl
  rw [Tile.fault, hfaults]
  split_ifs with hc
  · exact hc
  · rw [Tile.fault, bit_eq_testBit] at hc
    rw [bit_eq_testBit, Nat.add_comm, Nat.testBit_two_pow_add_eq]
    simpa using hc

/-! #### Drops of a line -/

/-- A clamped tile fires no drop of both heaters (R286). -/
theorem Tile.mkDrop_heaters {col row line size : Nat} {second : Bool} {d : Drop} (hclamp : t.clampEff = true)
    (hd : d ∈ t.mkDrop col row line size second) : d.heaters ≠ 3 := by
  simp only [Tile.mkDrop, hclamp, true_and] at hd
  generalize hz : (if size = 3 then 2 else size) = z at hd
  have hz3 : z ≠ 3 := by split_ifs at hz <;> omega
  split at hd
  · cases hd
  · rw [List.mem_singleton.mp hd]
    exact hz3

theorem Tile.lineDrops_heaters {k : HeldLine} {d : Drop} (hclamp : t.clampEff = true) (hd : d ∈ t.lineDrops k) : d.heaters ≠ 3 := by
  unfold Tile.lineDrops at hd
  split at hd
  · cases hd
  · dsimp only at hd
    split at hd
    · cases hd
    · obtain ⟨l, hl, hdl⟩ := List.mem_flatten.mp hd
      obtain ⟨col, -, rfl⟩ := List.mem_map.mp hl
      split at hdl
      · rcases List.mem_append.mp hdl with h | h <;> exact Tile.mkDrop_heaters hclamp h
      · cases hdl

/-! #### The tick of an authorised tile -/

/-- A tile at its tick: the clamp state is applied and loads take effect (R211, R286). -/
def Tile.settled (t : Tile) : Tile := { t with clampEff := t.clamp, masks := t.masks.map t.settle, trims := t.trims.map t.settle }

/-- The line of the tick starts, is dropped, or is missing (R198, R218, R252). -/
def Tile.startLine (t : Tile) : Tile :=
  match t.held.find? (fun k => k.line == t.cur) with
  | none => if ¬t.waiting ∧ ¬t.lastSeen then t.raise 1 0xFF else t
  | some k =>
    if t.mayStart then
      { t with ptrs := t.chooseRows.2, firing := true, waiting := false,
               held := t.held.map (fun x => if x.line = k.line then { x with rows := some t.chooseRows.1 } else x) }
    else { t with held := t.held.filter (fun x => x.line != k.line), waiting := false }

/-- The drops that fire at a tick. -/
def Tile.dropsNow (t : Tile) : List Drop := (t.held.map t.lineDrops).flatten

theorem Tile.fireTick_eq (t : Tile) (cyc : Nat) : t.fireTick cyc =
    { t.settled.startLine with
      fired := t.settled.startLine.dropsNow
      lastDropCyc := if t.settled.startLine.dropsNow = [] then t.settled.startLine.lastDropCyc else some cyc
      held := t.settled.startLine.held.filter (fun k =>
        !(k.rows.isSome && Nat.ble (7 * t.settled.startLine.rowK) (lineDist t.settled.startLine.cur k.line))) } := by
  unfold Tile.fireTick Tile.startLine
  generalize Tile.chooseRows = rows
  rfl

theorem Tile.startLine_cur (t : Tile) : t.startLine.cur = t.cur := by
  unfold Tile.startLine
  split <;> split_ifs <;> simp

theorem Tile.startLine_clampEff (t : Tile) : t.startLine.clampEff = t.clampEff := by
  unfold Tile.startLine
  split <;> split_ifs <;> simp

theorem Tile.fireTick_cur (t : Tile) (cyc : Nat) : (t.fireTick cyc).cur = t.cur := by
  rw [Tile.fireTick_eq]
  exact t.settled.startLine_cur

theorem Tile.fireTick_heaters {d : Drop} (hclamp : t.clamp = true) (hd : d ∈ (t.fireTick cyc).fired) : d.heaters ≠ 3 := by
  rw [Tile.fireTick_eq] at hd
  obtain ⟨l, hl, hdl⟩ := List.mem_flatten.mp hd
  obtain ⟨k, -, rfl⟩ := List.mem_map.mp hl
  exact Tile.lineDrops_heaters (t.settled.startLine_clampEff.trans hclamp) hdl

/-- A tile that holds no line and waits for none fires nothing (R209, R213). -/
theorem Tile.fireTick_nothing (cyc : Nat) (hheld : t.held = []) (hwait : t.waiting = true ∨ t.lastSeen = true) :
    t.fireTick cyc = { t.settled with fired := [] } := by
  have hheld' : t.settled.held = [] := hheld
  have hstart : t.settled.startLine = t.settled := by
    rw [Tile.startLine, hheld']
    exact if_neg (by simpa [Tile.settled, Decidable.or_iff_not_imp_left] using hwait)
  have hdrops : t.settled.dropsNow = [] := by rw [Tile.dropsNow, hheld']; rfl
  rw [Tile.fireTick_eq, hstart, hdrops, if_pos rfl, hheld', List.filter_nil, ← hheld']

end TileOps
end Sys2Proof.Machine

namespace Sys2Proof.Machine

/-! ### Line packets and ticks at a tile -/

section Ticks
variable {s : State} {p slot : Nat}

/-- A line packet that a tile may take: it is whole, and the tile is there, authorised and without a running sweep (R193, R212, R221). -/
def State.takesLine (s : State) (p slot : Nat) (h : LineHdr) (b : List Byte) : Prop :=
  h.crcOk = true ∧ b.length = 1024 ∧ s.authorised p = true ∧ slot < 24 ∧ (s.tile p slot).present = true ∧
    (s.tile p slot).sweeping s.time.cyc = false

/-- The line packet as the tile holds it (R196). -/
def heldLine (h : LineHdr) (b : List Byte) : HeldLine := { line := h.line.toNat, codes := unpackSyms 2 b, last := h.last, rows := none }

/-- A line packet outside the window is refused (R195). -/
theorem State.tileLine_window {h : LineHdr} {b : List Byte} (ht : s.takesLine p slot h b)
    (hw : lineDist h.line.toNat (s.tile p slot).cur = 0 ∨ 32 < lineDist h.line.toNat (s.tile p slot).cur) :
    s.tileLine p slot h b = s.ackOut p h.lsn.toNat akWINDOW slot := by
  obtain ⟨hcrc, hlen, hauth, hslot, hpresent, hsweep⟩ := ht
  unfold State.tileLine
  dsimp only
  rw [if_neg (by simp [hcrc, hlen]), if_neg (by simp [hauth]), if_neg (by omega), if_neg (by simp [hpresent, hslot]),
    if_neg (by simp [hsweep]), if_pos hw]

/-- A line packet inside the window, of a line that the tile does not hold, joins the held ones (R196, R198). -/
theorem State.tileLine_joins {h : LineHdr} {b : List Byte} (ht : s.takesLine p slot h b)
    (hlo : 1 ≤ lineDist h.line.toNat (s.tile p slot).cur) (hhi : lineDist h.line.toNat (s.tile p slot).cur ≤ 32)
    (hnew : ∀ k ∈ (s.tile p slot).held, k.line ≠ h.line.toNat) (hroom : (s.tile p slot).held.length < 96) :
    s.tileLine p slot h b = (s.setTile p slot { s.tile p slot with
      held := (s.tile p slot).held ++ [heldLine h b], lastSeen := (s.tile p slot).lastSeen || h.last }).ackOut p h.lsn.toNat akACK slot := by
  obtain ⟨hcrc, hlen, hauth, hslot, hpresent, hsweep⟩ := ht
  unfold State.tileLine
  dsimp only
  rw [if_neg (by simp [hcrc, hlen]), if_neg (by simp [hauth]), if_neg (by omega), if_neg (by simp [hpresent, hslot]),
    if_neg (by simp [hsweep]), if_neg (by omega), if_neg (by simpa using hnew), if_neg (by omega)]
  rfl

/-! #### A tick -/

/-- A tile as the tick finds it: the counter takes the tick's line, a gap latches code 2, and the authority bit is compared (R195, R209,
R221). -/
def State.tickSeen (s : State) (p slot line phase : Nat) (auth : Bool) : Tile :=
  let t0 : Tile := { s.tile p slot with reports := [], fired := [] }
  let t1 : Tile := { t0 with cur := line }
  let t2 := if line = (t0.cur + 1) % 2 ^ 24 then t1 else t1.raise 2 0xFF
  { t2 with authMiss := if auth = s.authorised p then 0 else t2.authMiss + 1, missed := 0, ticks := (s.time.cyc :: t2.ticks).take 9,
            fireAt16 := (t2.delay16 : Int) - phase }

/-- What the tile does at the tick: it drops firing on a repeated lack of authority, else it fires while it is authorised. -/
def State.tickDone (s : State) (p slot line phase : Nat) (auth : Bool) : Tile :=
  let t := s.tickSeen p slot line phase auth
  if 2 ≤ t.authMiss then (t.dropFiring s.time.cyc).raise 6 (Config.stopGroup p slot s.time.cyc)
  else if s.authorised p then t.fireTick s.time.cyc else t

/-- The tile's own report slot among the ticks (R216). -/
def Tile.report (t : Tile) (due : Prop) [Decidable due] : Tile := if due then { t with reports := t.reports ++ [t.tempReport] } else t

theorem State.tileTick_eq (s : State) (p slot line phase : Nat) (auth : Bool) :
    s.tileTick p slot line phase auth = s.setTile p slot ((s.tickDone p slot line phase auth).report (line % 64 = 2 * slot)) := rfl

@[simp] theorem Tile.report_cur (t : Tile) (due : Prop) [Decidable due] : (t.report due).cur = t.cur := by unfold Tile.report; split <;> rfl
@[simp] theorem Tile.report_fired (t : Tile) (due : Prop) [Decidable due] : (t.report due).fired = t.fired := by unfold Tile.report; split <;> rfl
@[simp] theorem Tile.report_faults (t : Tile) (due : Prop) [Decidable due] : (t.report due).faults = t.faults := by unfold Tile.report; split <;> rfl
@[simp] theorem Tile.report_missed (t : Tile) (due : Prop) [Decidable due] : (t.report due).missed = t.missed := by unfold Tile.report; split <;> rfl
@[simp] theorem Tile.report_authMiss (t : Tile) (due : Prop) [Decidable due] : (t.report due).authMiss = t.authMiss := by
  unfold Tile.report; split <;> rfl

theorem State.tickSeen_shows (s : State) (p slot line phase : Nat) (auth : Bool) :
    (s.tickSeen p slot line phase auth).cur = line ∧ (s.tickSeen p slot line phase auth).fired = [] ∧
      (s.tickSeen p slot line phase auth).clamp = (s.tile p slot).clamp := by
  unfold State.tickSeen
  dsimp only
  split_ifs <;> simp

/-- Every tick sets the line counter (R195). -/
theorem State.tickDone_cur (s : State) (p slot line phase : Nat) (auth : Bool) : (s.tickDone p slot line phase auth).cur = line := by
  obtain ⟨hcur, -, -⟩ := s.tickSeen_shows p slot line phase auth
  unfold State.tickDone
  dsimp only
  split_ifs
  · rw [Tile.raise_cur]; exact hcur
  · rw [Tile.fireTick_cur, hcur]
  · exact hcur

/-- A tile fires at a tick only while it is authorised, and under the clamp no drop of both heaters (R221, R286). -/
theorem State.tickDone_fired {line phase : Nat} {auth : Bool} {d : Drop} (hd : d ∈ (s.tickDone p slot line phase auth).fired) :
    s.authorised p = true ∧ ((s.tile p slot).clamp = true → d.heaters ≠ 3) := by
  obtain ⟨-, hfired, hclamp⟩ := s.tickSeen_shows p slot line phase auth
  unfold State.tickDone at hd
  dsimp only at hd
  split_ifs at hd with hmiss hauth
  · rw [Tile.raise_fired] at hd
    exact absurd (hfired ▸ hd) List.not_mem_nil
  · exact ⟨hauth, fun hc => Tile.fireTick_heaters (hclamp.trans hc) hd⟩
  · exact absurd (hfired ▸ hd) List.not_mem_nil

/-- The tick in order at an authorised tile that holds no line and waits for none (R209). -/
theorem State.tickDone_nothing {line phase : Nat} (hauth : s.authorised p = true) (hline : line = ((s.tile p slot).cur + 1) % 2 ^ 24)
    (hheld : (s.tile p slot).held = []) (hwait : (s.tile p slot).waiting = true ∨ (s.tile p slot).lastSeen = true) :
    let t := s.tickDone p slot line phase true
    t.fired = [] ∧ t.faults = (s.tile p slot).faults ∧ t.missed = 0 ∧ t.authMiss = 0 := by
  have hseen : s.tickSeen p slot line phase true = { s.tile p slot with
      reports := [], fired := [], cur := line, authMiss := 0, missed := 0, ticks := (s.time.cyc :: (s.tile p slot).ticks).take 9
      fireAt16 := ((s.tile p slot).delay16 : Int) - phase } := by
    unfold State.tickSeen
    dsimp only
    rw [if_pos hline, if_pos hauth.symm]
  have hdone : s.tickDone p slot line phase true = { (s.tickSeen p slot line phase true).settled with fired := [] } := by
    unfold State.tickDone
    rw [hseen, if_neg (by simp), if_pos hauth]
    exact Tile.fireTick_nothing _ hheld hwait
  rw [hdone, hseen]
  exact ⟨rfl, rfl, rfl, rfl⟩

/-! #### A missed tick (R209) -/

theorem State.tileMissed_first (hauth : s.authorised p = false) (hmissed : (s.tile p slot).missed = 0) :
    s.tileMissed p slot = s.setTile p slot (({ s.tile p slot with
      reports := [], fired := [], cur := ((s.tile p slot).cur + 1) % 2 ^ 24, missed := 1 } : Tile).raise 2 0xFF) := by
  unfold State.tileMissed
  dsimp only
  rw [if_neg (by omega), if_neg (by simp [hauth])]

theorem State.tileMissed_again (hmissed : 1 ≤ (s.tile p slot).missed) :
    s.tileMissed p slot = s.setTile p slot ((({ s.tile p slot with
      reports := [], fired := [], missed := (s.tile p slot).missed + 1 } : Tile).dropFiring s.time.cyc).raise 3
        (Config.stopGroup p slot s.time.cyc)) := if_pos hmissed

end Ticks

/-- Settles O33: a line packet joins the held ones or is refused (`State.tileLine_joins`, `State.tileLine_window`); a tick is
`State.tickDone`, which fires by `State.tickDone_fired`; a missed tick raises code 2, a second one drops firing and raises code 3. -/
theorem tileLinesAndTicks : Obligations.TileLinesAndTicks := by
  refine ⟨?join, ?window, ?nothing, ?tick, ?missed, ?again⟩
  case join =>
    intro s p slot h b hcrc hlen hauth hslot hpresent hsweep hlo hhi hnew hroom
    exact ⟨_, congrArg finish (State.tileLine_joins ⟨hcrc, hlen, hauth, hslot, hpresent, hsweep⟩ hlo hhi hnew hroom),
      Answers.setTile s p _ _ _ slot.isLt, State.tile_setTile_same ..⟩
  case window =>
    intro s p slot h b hcrc hlen hauth hslot hpresent hsweep hw
    exact ⟨_, congrArg finish (State.tileLine_window ⟨hcrc, hlen, hauth, hslot, hpresent, hsweep⟩ hw), Answers.ackOut .., rfl⟩
  case nothing =>
    intro s p slot line phase hpresent hauth hline hheld hwait
    obtain ⟨hfired, hfaults, hmissed, hmiss⟩ := State.tickDone_nothing (phase := phase.toNat) hauth hline hheld hwait
    refine ⟨_, congrArg finish ((if_pos hpresent).trans (s.tileTick_eq ..)), OnlyTile.setTile s p _ (by omega), ?_⟩
    simp only [State.tile_setTile_finished, Tile.report_cur, Tile.report_fired, Tile.report_faults, Tile.report_missed,
      Tile.report_authMiss]
    exact ⟨State.tickDone_cur .., hfired, hfaults, hmissed, hmiss⟩
  case tick =>
    intro s p slot line phase auth hpresent
    refine ⟨_, congrArg finish ((if_pos hpresent).trans (s.tileTick_eq ..)), OnlyTile.setTile s p _ (by omega), ?_⟩
    simp only [State.tile_setTile_finished, Tile.report_cur, Tile.report_fired]
    exact ⟨State.tickDone_cur .., fun d hd => State.tickDone_fired hd⟩
  case missed =>
    intro s p slot hpresent hauth hmissed
    refine ⟨_, congrArg finish ((if_pos hpresent).trans (State.tileMissed_first hauth hmissed)), OnlyTile.setTile s p _ (by omega), ?_⟩
    simp
  case again =>
    intro s p slot hpresent hmissed
    refine ⟨_, congrArg finish ((if_pos hpresent).trans (State.tileMissed_again hmissed)), OnlyTile.setTile s p _ (by omega), ?_⟩
    simp [Tile.dropFiring]

end Sys2Proof.Machine

namespace Sys2Proof.Machine

/-! ### Authority, heat and faults of a tile (R216, R218, R221, R285 to R297) -/

section MapTiles
variable {p : Nat} {f : Nat → Tile → Tile}

/-- One tile of a module changed, if it is there. -/
def State.mapTile (s : State) (p : Nat) (f : Nat → Tile → Tile) (k : Nat) : State :=
  if (s.tile p k).present then s.setTile p k (f k (s.tile p k)) else s

theorem State.mapTiles_eq (s : State) (p : Nat) (f : Nat → Tile → Tile) :
    s.mapTiles p f = (List.range 24).foldl (fun s k => s.mapTile p f k) s := rfl

theorem State.mapTile_tile_ne (s : State) {j q k : Nat} (hj : j < 32) (hk : k < 32) (h : q ≠ p ∨ k ≠ j) :
    (s.mapTile p f j).tile q k = s.tile q k := by
  unfold State.mapTile
  split
  · exact s.tile_setTile_ne _ hj hk h
  · rfl

theorem State.mapTile_tile (s : State) {k : Nat} (h : (s.tile p k).present = true) : (s.mapTile p f k).tile p k = f k (s.tile p k) := by
  rw [State.mapTile, if_pos h, State.tile_setTile_same]

theorem HeadOnly.mapTile (s : State) (k : Nat) : HeadOnly s (s.mapTile p f k) := by
  unfold State.mapTile
  split
  · exact HeadOnly.setTile ..
  · exact HeadOnly.refl s

theorem State.mapTile_auth (s : State) (k : Nat) : (s.mapTile p f k).heads.auth = s.heads.auth := by
  unfold State.mapTile
  split <;> rfl

theorem HeadOnly.mapTiles (s : State) (p : Nat) (f : Nat → Tile → Tile) : HeadOnly s (s.mapTiles p f) := by
  rw [State.mapTiles_eq]
  exact HeadOnly.foldl (fun y k => HeadOnly.mapTile y k) _ s

theorem State.mapTiles_auth (s : State) : (s.mapTiles p f).heads.auth = s.heads.auth := by
  rw [State.mapTiles_eq]
  exact foldl_keeps (fun x : State => x.heads.auth) (fun x k => x.mapTile_auth k) _ s

/-- A tile that none of the changed slots names stays. -/
theorem State.foldl_mapTile_ne {q k : Nat} (hk : k < 32) (l : List Nat) (s : State) (hl : ∀ j ∈ l, j < 32 ∧ (q ≠ p ∨ k ≠ j)) :
    (l.foldl (fun s j => s.mapTile p f j) s).tile q k = s.tile q k :=
  List.foldlRecOn (motive := fun x : State => x.tile q k = s.tile q k) l _ rfl fun x hx j hj =>
    (x.mapTile_tile_ne (hl j hj).1 hk (hl j hj).2).trans hx

/-- A change of every tile of a module reaches each tile that is there. -/
theorem State.mapTiles_tile (s : State) {k : Nat} (hk : k < 24) (h : (s.tile p k).present = true) :
    (s.mapTiles p f).tile p k = f k (s.tile p k) := by
  obtain ⟨before, after, hsplit⟩ := List.append_of_mem (List.mem_range.mpr hk)
  have hnodup : (before ++ k :: after).Nodup := hsplit ▸ List.nodup_range
  have hrange : ∀ j ∈ before ++ k :: after, j < 32 := fun j hj => by
    have := List.mem_range.mp (hsplit ▸ hj)
    omega
  obtain ⟨-, hafter, hdisj⟩ := List.nodup_append.mp hnodup
  obtain ⟨hnotin, -⟩ := List.nodup_cons.mp hafter
  have hfirst : (before.foldl (fun s j => s.mapTile p f j) s).tile p k = s.tile p k :=
    State.foldl_mapTile_ne (by omega) before s fun j hj =>
      ⟨hrange j (List.mem_append_left _ hj), .inr fun e => hdisj j hj k List.mem_cons_self e.symm⟩
  have hlast := fun x => State.foldl_mapTile_ne (p := p) (f := f) (q := p) (k := k) (by omega) after x fun j hj =>
    ⟨hrange j (List.mem_append_right _ (List.mem_cons_of_mem _ hj)), .inr fun e => hnotin (by rw [e]; exact hj)⟩
  rw [State.mapTiles_eq, hsplit, List.foldl_append, List.foldl_cons, hlast, State.mapTile_tile _ (by rw [hfirst]; exact h), hfirst]

/-- A change of every tile of a module leaves the tiles of the others alone. -/
theorem State.mapTiles_others (s : State) {q k : Nat} (hk : k < 32) (hq : q ≠ p) : (s.mapTiles p f).tile q k = s.tile q k := by
  rw [State.mapTiles_eq]
  exact State.foldl_mapTile_ne hk _ s fun j hj => ⟨by have := List.mem_range.mp hj; omega, .inl hq⟩

end MapTiles

/-- A module without authority: firing drops on each of its tiles (R221, R297). -/
def State.unauthorised (s : State) (p : Nat) : State := s.setHeads { s.heads with auth := s.heads.auth.set p false }

theorem HeadOnly.unauthorised (s : State) (p : Nat) : HeadOnly s (s.unauthorised p) := HeadOnly.setHeads ..

theorem State.authorityLost_eq (s : State) (p : Nat) : s.authorityLost p =
    (s.unauthorised p).mapTiles p (fun k t => ({ t with reports := [] } : Tile).dropLink s.time.cyc (Config.stopGroup p k s.time.cyc)) := rfl

theorem State.authorised_unauthorised (s : State) (p : Nat) : (s.unauthorised p).authorised p = false := by
  simp [State.authorised, State.unauthorised, State.setHeads, List.getD_eq_getElem?_getD, List.getElem?_set]
  split <;> rfl

section Protection
variable {t : Tile} {p slot cyc : Nat}

/-- Dropping firing for a lost link takes the held lines and ends spitting; the line counter stays (R221, R297). -/
theorem Tile.dropLink_shows (t : Tile) (cyc group : Nat) :
    (t.dropLink cyc group).held = [] ∧ (t.dropLink cyc group).spitSize = 0 ∧ (t.dropLink cyc group).firing = false ∧
      (t.dropLink cyc group).cur = t.cur := by
  unfold Tile.dropLink
  split <;> simp [Tile.dropFiring]

/-- A tile with a sample and the flags that it sets (R285). -/
def Tile.flagged (t : Tile) (p slot : Nat) (tMax tMean : Int) : Tile :=
  let shutNow := decide (t.level p slot 2 ≤ tMax)
  let hyst := t.level p slot 3
  { t with
    tMax := tMax
    tMean := tMean
    shut := t.shut || shutNow
    clamp := shutNow || decide (t.level p slot 1 ≤ tMax) || (t.clamp && !decide (tMax < t.level p slot 1 - hyst))
    warn := shutNow || decide (t.level p slot 0 ≤ tMax) || (t.warn && !decide (tMax < t.level p slot 0 - hyst))
    below := decide (tMean < t.level p slot 4) || (t.below && !decide (t.level p slot 4 + hyst ≤ tMean)) }

/-- Below SHUT a sample sets the flags alone (R285). -/
theorem Tile.sample_below {tMax tMean : Int} (h : tMax < t.level p slot 2) :
    t.sample p slot cyc tMax tMean = t.flagged p slot tMax tMean :=
  if_neg fun hshut => by
    have := of_decide_eq_true hshut.1
    exact absurd (show t.level p slot 2 ≤ tMax from this) (by omega)

/-- At SHUT a sample shuts the tile down: firing drops and code 4 is latched (R288). -/
theorem Tile.sample_shut {tMax tMean : Int} (h : t.level p slot 2 ≤ tMax) (hfault : t.fault 4 = false) :
    t.sample p slot cyc tMax tMean = ((t.flagged p slot tMax tMean).dropFiring cyc).raise 4
      (if (t.flagged p slot tMax tMean).firing then Config.stopGroup p slot cyc else 0xFF) :=
  if_pos ⟨decide_eq_true (show t.level p slot 2 ≤ tMax from h), Bool.eq_false_iff.mp hfault⟩

/-- A sample at SHUT leaves the tile shut down and clamped, with code 4 latched and nothing to fire (R288). -/
theorem Tile.sample_shut_shows {tMax tMean : Int} (h : t.level p slot 2 ≤ tMax) (hfault : t.fault 4 = false) :
    (t.sample p slot cyc tMax tMean).shut = true ∧ (t.sample p slot cyc tMax tMean).clamp = true ∧
      (t.sample p slot cyc tMax tMean).fault 4 = true ∧ (t.sample p slot cyc tMax tMean).held = [] ∧
      (t.sample p slot cyc tMax tMean).spitSize = 0 := by
  have hflags : (t.flagged p slot tMax tMean).shut = true ∧ (t.flagged p slot tMax tMean).clamp = true := by
    simp [Tile.flagged, h]
  obtain ⟨hshut, hclamp⟩ := hflags
  rw [Tile.sample_shut h hfault]
  generalize t.flagged p slot tMax tMean = z at hshut hclamp
  simp [Tile.dropFiring, hshut, hclamp]

end Protection

theorem HeadOnly.authorityLost (s : State) (p : Nat) : HeadOnly s (s.authorityLost p) := by
  rw [State.authorityLost_eq]
  exact (HeadOnly.unauthorised s p).trans (HeadOnly.mapTiles ..)

/-- A lost authority drops firing on the tiles of its module and on no other (R221, R297). -/
theorem State.authorityLost_tile (s : State) (p k : Nat) (hk : k < 24) (hthere : (s.tile p k).present = true) :
    ((s.authorityLost p).tile p k).held = [] ∧ ((s.authorityLost p).tile p k).spitSize = 0 ∧
      ((s.authorityLost p).tile p k).firing = false ∧ ((s.authorityLost p).tile p k).cur = (s.tile p k).cur := by
  rw [State.authorityLost_eq, State.mapTiles_tile _ hk (show ((s.unauthorised p).tile p k).present = true from hthere)]
  exact Tile.dropLink_shows ..

theorem State.authorityLost_others (s : State) {p q k : Nat} (hk : k < 32) (hq : q ≠ p) :
    (s.authorityLost p).tile q k = s.tile q k := by
  rw [State.authorityLost_eq, State.mapTiles_others _ hk hq]
  rfl

theorem State.authorityLost_unauthorised (s : State) (p : Nat) : (s.authorityLost p).authorised p = false := by
  rw [State.authorityLost_eq, State.authorised, State.mapTiles_auth]
  exact s.authorised_unauthorised p

/-- Settles O34: each event changes one tile (`OnlyTile.setTile`) by dropping firing, setting flags, latching a fault or reporting; a lost
authority does so for every tile of the module (`State.mapTiles_tile`) and for no other (`State.mapTiles_others`). -/
theorem tileProtection : Obligations.TileProtection := by
  refine ⟨?authority, ?sample, ?shut, ?warm, ?report, ?faults, ?broken⟩
  case authority =>
    intro s p
    have hauth := s.authorityLost_unauthorised p
    have htile := s.authorityLost_tile p
    have hothers := fun q k (hk : k < 32) (hq : q ≠ p.val) => s.authorityLost_others hk hq
    have hheads := HeadOnly.authorityLost s p
    refine ⟨_, (rfl : _ = finish (s.authorityLost p)), ?_⟩
    generalize s.authorityLost p = x at hauth htile hothers hheads ⊢
    exact ⟨hauth, fun k => htile k k.isLt, hothers, Alters.of_headOnly hheads⟩
  case sample =>
    intro s p slot a b hpresent hbelow
    refine ⟨_, congrArg finish ((if_pos hpresent).trans (congrArg (s.setTile p slot) (Tile.sample_below hbelow))),
      OnlyTile.setTile s p _ (by omega), ?_⟩
    have hnot : ¬(s.tile p slot).level p slot 2 ≤ a.toInt := by omega
    rw [State.tile_setTile_finished]
    refine ⟨rfl, rfl, ?_, rfl, rfl⟩
    exact (congrArg _ (decide_eq_false hnot)).trans (Bool.or_false _)
  case shut =>
    intro s p slot a b hpresent hshut hfault
    refine ⟨_, congrArg finish (if_pos hpresent), OnlyTile.setTile s p _ (by omega), ?_⟩
    rw [State.tile_setTile_finished]
    exact Tile.sample_shut_shows hshut hfault
  case warm =>
    intro s p slot hauth
    exact ⟨_, congrArg finish (if_neg (by simp [hauth])), OnlyTile.setTile s p _ (by omega), State.tile_setTile_finished ..⟩
  case report =>
    intro s p slot hpresent
    exact ⟨_, congrArg finish ((if_neg (by simp [hpresent])).trans (if_neg (by decide))), OnlyTile.setTile s p _ (by omega),
      State.tile_setTile_finished ..⟩
  case faults =>
    intro s p slot hpresent
    exact ⟨_, congrArg finish ((if_neg (by simp [hpresent])).trans (if_pos rfl)), OnlyTile.setTile s p _ (by omega),
      State.tile_setTile_finished ..⟩
  case broken =>
    intro s p slot buffer hpresent
    refine ⟨_, congrArg finish (if_pos hpresent), OnlyTile.setTile s p _ (by omega), ?_⟩
    rw [State.tileBroken, State.tile_setTile_finished]
    simp [Tile.dropFiring]

end Sys2Proof.Machine

namespace Sys2Proof.Machine

/-! ### The press line of a lost line packet (R201) -/

/-- A packet of press line 2^24 + 8 on port 0. It carries the low 24 bits of its line, as `State.handPacket` writes them. -/
def latePacket : Packet := { lsn := 7, slot := 2, body := .line 8 0 0 [] false, sent := 4, lastStatus := 0 }

/-- The press at line 2^24 with the packet outstanding and the link to the driver up. -/
def lateLine : State :=
  let s := State.reset.setPort 0 { State.reset.port 0 with outstanding := [latePacket] }
  { s with time := { s.time with line := 2 ^ 24 }, hif := { s.hif with linkUp := true } }

theorem lateLine_takesEvents : lateLine.takesEvents := by decide +kernel

/-- The report gives the packet's press line, not the 24 bits of it in the packet. -/
theorem lateLine_reported : ∀ e ∈ (lateLine.deadline 0 7).trackIrq.evtEntries, e.payload ≠ [2, 8, 4, 0] := by decide +kernel

/-- Refutes O27 in its fifth clause: LINE_LOST reports the 40-bit press line that the packet's 24-bit line stands for (R201,
`State.nearLine`), which the clause takes for the 24 bits themselves. At press line 2^24 the loss of the packet of line 2^24 + 8
(`lateLine`) posts that line and not 8. -/
theorem not_acknowledgements : ¬ Obligations.Acknowledgements := by
  rintro ⟨-, -, -, -, hlost⟩
  obtain ⟨t, hexec, -, hposts, -⟩ := hlost lateLine 0 7 latePacket 8 0 0 [] false (by decide +kernel) rfl (by decide +kernel) rfl
  obtain rfl : (lateLine.deadline 0 7).trackIrq = t := Host.Outcome.next.inj hexec
  obtain ⟨e, he, -, -, -, hpayload, -⟩ := hposts lateLine_takesEvents
  exact lateLine_reported e he hpayload

end Sys2Proof.Machine

namespace Sys2Proof.Machine

/-! ### Tally windows and retired inputs (R15, R230, R370, R402) -/

section Tally
variable {s : State}

/-- The end of a tally window: the count moves to the last window's field and restarts from 0. -/
def State.windowEnd (s : State) (count last : Fld) : State := (s.put last (s.get count)).put count 0

/-- A tally register holds its count and the last window's in two fields of 16 bits. -/
theorem State.windowEnd_shows (s : State) (off : Nat) :
    (s.windowEnd ⟨off, 15, 0⟩ ⟨off, 31, 16⟩).trackIrq.get ⟨off, 15, 0⟩ = 0 ∧
      (s.windowEnd ⟨off, 15, 0⟩ ⟨off, 31, 16⟩).trackIrq.get ⟨off, 31, 16⟩ = s.get ⟨off, 15, 0⟩ ∧
      Silent s (s.windowEnd ⟨off, 15, 0⟩ ⟨off, 31, 16⟩).trackIrq [off] := by
  refine ⟨?_, ?_, ?_⟩
  · rw [State.get_trackIrq]
    exact State.get_put_same _ _ _ rfl
  · rw [State.get_trackIrq, State.windowEnd, State.get_put_apart _ _ _ _ rfl (.inr (.inl ⟨show 15 < 16 by decide, Nat.zero_le 15⟩)),
      State.get_put_same _ _ _ rfl]
    exact Nat.mod_eq_of_lt (s.get_lt ⟨off, 15, 0⟩)
  · exact Silent.of_regsOnly (((RegsOnly.refl s).put _ _).put _ _)
      (((Keeps.refl s [off]).put _ _ List.mem_cons_self).put _ _ List.mem_cons_self)

/-- The status of an input that enters RETIRED, before its event. -/
def State.inputRetired (s : State) (q : Fin 16) : State := (s.setUst (.quad q) .retired).setPend (.quad q) false

theorem State.retireUnit_of_live {u : UnitId} {f : State → State} (h : s.ust u = .starting ∨ s.ust u = .on ∨ s.ust u = .fault) :
    s.retireUnit u f = f ((s.setUst u .retired).setPend u false) := by
  rcases h with h | h | h <;> simp only [State.retireUnit, h]

theorem quad_off_notMem_evtRegs (q : Fin 16) : ENC_Q_STATUS q ∉ evtRegs := by revert q; decide
theorem quad_off_ne_irqCause (q : Fin 16) : ENC_IRQ_CAUSE ≠ ENC_Q_STATUS q := by revert q; decide
theorem quad_off_ne_island (q : Fin 16) : RST_ISLAND 1 ∉ [ENC_Q_STATUS q] := by revert q; decide
theorem quad_off_ne_clk (q : Fin 16) : PGP_CLK_STATUS ∉ [ENC_Q_STATUS q] := by revert q; decide
theorem quad_off_ne_tally (q : Fin 16) : ENC_Q_TALLY q ∉ [ENC_Q_STATUS q] := by revert q; decide

theorem RegsOnly.inputRetired (s : State) (q : Fin 16) : RegsOnly s (s.inputRetired q) :=
  ((RegsOnly.refl s).setUst _ _ (by simp)).setPend _ _ (by simp)

theorem Keeps.inputRetired (s : State) (q : Fin 16) : Keeps s (s.inputRetired q) [ENC_Q_STATUS q] :=
  ((Keeps.refl s _).setUst (.quad q) _ List.mem_cons_self).setPend (.quad q) _ List.mem_cons_self

/-- Without a running press clock a retired master trips nothing (R414). -/
theorem State.masterCheck_of_idle (hrun : s.clk ≠ clkRunning) (hlock : s.clk ≠ clkLocking) : s.masterCheck = s :=
  if_neg fun h => h.2.elim hrun hlock

/-- An input that retires while the press clock is idle posts INPUT_FAULT with its tally (R15, R402). -/
theorem State.inputRetire_eq {q : Fin 16} (hlive : s.ust (.quad q) = .starting ∨ s.ust (.quad q) = .on ∨ s.ust (.quad q) = .fault)
    (hrun : s.clk ≠ clkRunning) (hlock : s.clk ≠ clkLocking) :
    s.inputRetire (.quad q) = ((s.inputRetired q).event Ev.INPUT_FAULT (inputNo (.quad q)) [5, s.get (tallyFld (.quad q)).1]).cause
      ENC_IRQ_CAUSE_INPUT_FAULT := by
  have htally : (s.inputRetired q).get (tallyFld (.quad q)).1 = s.get (tallyFld (.quad q)).1 :=
    State.get_eq_of_rget _ _ _ (Keeps.inputRetired s q _ (quad_off_ne_tally q))
  have hclk : (((s.inputRetired q).event Ev.INPUT_FAULT (inputNo (.quad q)) [5, s.get (tallyFld (.quad q)).1]).cause
      ENC_IRQ_CAUSE_INPUT_FAULT).clk = s.clk := by
    rw [State.clk_cause _ _ (by decide), State.clk_event, State.clk_of_rget (Keeps.inputRetired s q _ (quad_off_ne_clk q))]
  rw [State.inputRetire, State.retireUnit_of_live hlive, ← State.inputRetired, htally]
  exact State.masterCheck_of_idle (hclk ▸ hrun) (hclk ▸ hlock)

theorem State.inputRetired_shows (s : State) (q : Fin 16) :
    (s.inputRetired q).ust (.quad q) = .retired ∧ (s.inputRetired q).pend (.quad q) = false :=
  ⟨by rw [State.inputRetired, State.ust_setPend, State.ust_setUst_same], State.pend_setPend _ _ _ (by simp)⟩

end Tally

/-- Settles O9: the windows of a port and an input are one register each (`State.windowEnd_shows`); an input that retires shows RETIRED and
posts its tally (`State.inputRetire_eq`). -/
theorem talliesAndRetirement : Obligations.TalliesAndRetirement := by
  refine ⟨?port, ?quad, ?bar, ?retire⟩
  case port => exact fun s p => ⟨_, rfl, s.windowEnd_shows (HLK_TALLY p)⟩
  case quad => exact fun s q => ⟨_, rfl, s.windowEnd_shows (ENC_Q_TALLY q)⟩
  case bar => exact fun s b => ⟨_, rfl, fun _ _ => rfl, rfl, rfl⟩
  case retire =>
    intro s q hdue hlive hrun hlock
    have hregs := RegsOnly.inputRetired s q
    have hkeeps := Keeps.inputRetired s q
    obtain ⟨hretired, hpend⟩ := s.inputRetired_shows q
    have hstatus : ∀ x n p, (((x : State).event Ev.INPUT_FAULT n p).cause ENC_IRQ_CAUSE_INPUT_FAULT).rget (ENC_Q_STATUS q) =
        x.rget (ENC_Q_STATUS q) := fun x n p => by
      rw [State.rget_cause_ne _ _ _ (quad_off_ne_irqCause q), State.rget_event _ _ _ _ _ (quad_off_notMem_evtRegs q)]
    refine ⟨_, congrArg finish ((if_pos hdue).trans (State.inputRetire_eq hlive hrun hlock)), ?_, ?_, ?_, ?_⟩
    · rw [State.ust_trackIrq, State.ust_of_rget _ _ _ (by simp) (hstatus ..), hretired]
    · rw [State.pend_trackIrq, State.pend_of_rget _ _ _ (by simp) (hstatus ..), hpend]
    · refine (Posts.of_event s _ _ _ _ ?_ ?_ (hkeeps _ (quad_off_ne_island q)) (by decide)).cause _ |>.trackIrq
      · rw [hregs]
      · rw [hregs]
    · refine Touches.mk' ?_ ?_
      · rw [State.cause_hidden, State.event_hidden, hregs.hidden]
      · exact ((hkeeps.mono (by simp)).event _ _ _ (evtRegs_sub_right _)).cause _ (by simp [ENC_IRQ_CAUSE_INPUT_FAULT])

end Sys2Proof.Machine

namespace Sys2Proof.Machine

/-! ### Commands that change the head link and registers (R216 to R218) -/

/-- Only the head link and registers differ. -/
def HeadRegs (s x : State) : Prop := x = { s with regs := x.regs, heads := x.heads }

/-- Only the head link, registers and the host interface differ. -/
def HeadSide (s x : State) : Prop := x.hidden = ({ s with heads := x.heads } : State).hidden

section HeadRegs
variable {s x y : State}

theorem HeadRegs.trans (h : HeadRegs s x) (h' : HeadRegs x y) : HeadRegs s y := by
  unfold HeadRegs at *
  rw [h', h]

theorem HeadRegs.of_headOnly (h : HeadOnly s x) : HeadRegs s x := by
  unfold HeadRegs HeadOnly at *
  rw [h]
  rfl

theorem HeadRegs.of_regsOnly (h : RegsOnly s x) : HeadRegs s x := by
  unfold HeadRegs RegsOnly at *
  rw [h]

theorem RegsOnly.heads (h : RegsOnly s x) : x.heads = s.heads := by rw [h]
theorem RegsOnly.port (h : RegsOnly s x) (p : Nat) : x.port p = s.port p := by rw [State.port, h.heads, ← State.port]
theorem RegsOnly.ctl (h : RegsOnly s x) (p slot : Nat) : x.ctl p slot = s.ctl p slot := by rw [State.ctl, h.heads, ← State.ctl]

theorem HeadRegs.time (h : HeadRegs s x) : x.time = s.time := by rw [h]
theorem HeadRegs.press (h : HeadRegs s x) : x.press = s.press := by rw [h]
theorem HeadRegs.hif (h : HeadRegs s x) : x.hif = s.hif := by rw [h]

theorem HeadRegs.headSide (h : HeadRegs s x) : HeadSide s x := by
  unfold HeadRegs HeadSide at *
  rw [h]
  rfl

theorem HeadSide.trans (h : HeadSide s x) (h' : HeadSide x y) : HeadSide s y := by
  unfold HeadSide at *
  have hheads : ∀ z : State, ({ z with heads := y.heads } : State).hidden = { z.hidden with heads := y.heads } := fun _ => rfl
  rw [h', hheads, h]
  rfl

theorem HeadSide.event (s : State) (c u : Nat) (p : List Nat) : HeadSide s (s.event c u p) := by
  unfold HeadSide
  rw [State.event_hidden, State.event_heads]

theorem HeadSide.cause (s : State) (f : Fld) : HeadSide s (s.cause f) := (HeadRegs.of_regsOnly ((RegsOnly.refl s).cause f)).headSide

theorem HeadOnly.evtEntries (h : HeadOnly s x) : x.evtEntries = s.evtEntries := by
  rw [h]
  rfl

theorem Posts.headOnly {c u : Nat} {p : List Nat} (h : Posts s x c u p) (hy : HeadOnly x y) : Posts s y c u p := h.congr hy.evtEntries
theorem Keeps.headOnly {l : List Nat} (h : Keeps s x l) (hy : HeadOnly x y) : Keeps s y l := hy.keeps h

/-- An event with its interrupt cause. -/
def State.report (s : State) (c u : Nat) (p : List Nat) (f : Fld) : State := (s.event c u p).cause f

section Report
variable (c u : Nat) (p : List Nat) (f : Fld)

theorem State.heads_report (s : State) : (s.report c u p f).heads = s.heads := by rw [State.report, State.cause_heads, State.event_heads]
theorem State.press_report (s : State) : (s.report c u p f).press = s.press := by rw [State.report, State.cause_press, State.event_press]

theorem State.ctl_report (s : State) (q k : Nat) : (s.report c u p f).ctl q k = s.ctl q k := by
  rw [State.ctl, State.heads_report, ← State.ctl]

theorem HeadSide.report (s : State) : HeadSide s (s.report c u p f) := (HeadSide.event ..).trans (HeadSide.cause ..)

theorem Keeps.report {l : List Nat} (h : Keeps s x (l ++ evtRegs)) (hf : f.off ∈ l) : Keeps s (x.report c u p f) (l ++ evtRegs) :=
  (h.event _ _ _ (evtRegs_sub_right _)).cause _ (List.mem_append_left _ hf)

theorem Posts.report (h : HeadRegs s x) (hr : x.rget (RST_ISLAND 1) = s.rget (RST_ISLAND 1)) (hc : c ≠ Ev.EVT_LOST) :
    Posts s (x.report c u p f) c u p :=
  (Posts.of_event s x _ _ _ h.hif h.time hr hc).cause _

end Report

/-- A command that changes the head link and registers. -/
theorem Alters.of_headRegs {offs : List Nat} (h : HeadRegs s x) (hk : Keeps s x offs) :
    Alters s x.trackIrq { s with heads := x.heads } offs :=
  Alters.of_regsOnly rfl h hk

/-- A command that changes the head link and registers and posts events. -/
theorem AltersPosting.of_headSide {offs : List Nat} (h : HeadSide s x) (hk : Keeps s x (offs ++ evtRegs)) :
    AltersPosting s x.trackIrq { s with heads := x.heads } offs := ⟨h, hk⟩

end HeadRegs

/-! ### The map of the tiles -/

/-- The registers of the planes hold what they held. -/
def KeepsPlanes (s x : State) : Prop := ∀ a, 0x80000 ≤ a → a < 0x90000 → x.rget a = s.rget a

section Map
variable {s x : State}

theorem Keeps.planes {l : List Nat} (h : Keeps s x l) (hl : ∀ a ∈ l, a < 0x80000 ∨ 0x90000 ≤ a) : KeepsPlanes s x :=
  fun a hlow hhigh => h a fun hmem => by
    have := hl a hmem
    omega

theorem State.planeMap_of_planes (h : KeepsPlanes s x) {p : Nat} (hp : p < 8) : x.planeMap p = s.planeMap p :=
  List.map_congr_left fun t ht => by
    have ht := List.mem_range.mp ht
    exact h _ (by simp only [PLN_TILE_MAP]; omega) (by simp only [PLN_TILE_MAP]; omega)

/-- The entries in use rest on the planes' registers and the job (R44). -/
theorem State.entries_of_planes (h : KeepsPlanes s x) (hpress : x.press = s.press) : x.entries = s.entries := by
  unfold State.entries
  rw [hpress]
  split
  · rfl
  · refine congrArg List.flatten (List.map_congr_left fun p hp => ?_)
    have hp := List.mem_range.mp hp
    have hgeom : x.get (PLN_GEOM_TILES p) = s.get (PLN_GEOM_TILES p) :=
      State.get_eq_of_rget _ _ _ (h _ (by simp only [PLN_GEOM_TILES, PLN_GEOM]; omega) (by simp only [PLN_GEOM_TILES, PLN_GEOM]; omega))
    rw [hgeom, State.planeMap_of_planes h hp]

end Map

theorem State.posOf_of_planes {s x : State} (h : KeepsPlanes s x) (hpress : x.press = s.press) (p slot : Nat) :
    x.posOf p slot = s.posOf p slot := by
  rw [State.posOf, State.entries_of_planes h hpress, ← State.posOf]

/-! ### Temperature reports (R216, R283, R285) -/

section TempReport
variable {s x : State} {p slot : Nat} {h : RepHdr} {e : MapEntry}

/-- A report in sequence moves the return LSN alone (R192). -/
theorem State.repIn_inSequence (hseq : (s.port p).retLsn = none ∨ (s.port p).retLsn = some h.lsn.toNat) :
    s.repIn p h = s.setPort p { s.port p with retLsn := some ((h.lsn.toNat + 1) % 4096) } := by
  rcases hseq with hseq | hseq <;> simp [State.repIn, hseq]

theorem HeadOnly.repIn (hseq : (s.port p).retLsn = none ∨ (s.port p).retLsn = some h.lsn.toNat) : HeadOnly s (s.repIn p h) := by
  rw [State.repIn_inSequence hseq]
  exact HeadOnly.setPort ..

theorem State.ctl_repIn (hseq : (s.port p).retLsn = none ∨ (s.port p).retLsn = some h.lsn.toNat) (q k : Nat) :
    (s.repIn p h).ctl q k = s.ctl q k := by
  rw [State.repIn_inSequence hseq]
  exact State.ctl_setPort ..

/-- What the slot knows after a TEMP report. -/
def CtlSlot.withTemp (c : CtlSlot) (now : Nat) (tMax tMean : Int) (flags : Nat) : CtlSlot :=
  { c with tempAt := some now, tMax := tMax, tMean := tMean, flags := flags, stalePosted := false }

def State.tempHeard (s : State) (p slot : Nat) (h : RepHdr) (tMax tMean : Int) (flags : Nat) : State :=
  (s.repIn p h).setCtl p slot ((s.ctl p slot).withTemp s.now tMax tMean flags)

/-- The registers of a position and its plane after a TEMP report. -/
def State.tempShown (s : State) (g : Nat) (tMax : Int) (flags duty : Nat) : State :=
  (((s.putS (PLN_TILE_TEMP_T_MAX (g / 64) (g % 64)) tMax).put (PLN_TILE_TEMP_FLAGS (g / 64) (g % 64)) flags).put
    (PLN_TILE_TEMP_DUTY (g / 64) (g % 64)) duty).showPlaneTemp (g / 64)

def State.tempWarned (s : State) (g : Nat) (tMax tMean : Int) (line : Nat) : State :=
  s.report Ev.TILE_WARN g [twos 16 tMax, twos 16 tMean, line] PLN_IRQ_CAUSE_WARN

/-- A warning is posted when the report is the first with WARN (R285). -/
def State.tempJudged (s : State) (was : CtlSlot) (g : Nat) (tMax tMean : Int) (flags line : Nat) : State :=
  if bit flags 0 ∧ ¬bit was.flags 0 then s.tempWarned g tMax tMean line else s

/-- What a report without CLAMP and COLD leaves in the slot (R287, R290). -/
def State.notClamped (s : State) (p slot line : Nat) : State :=
  (s.setCtl p slot { s.ctl p slot with lastClear := some line }).setCtl p slot
    { (s.setCtl p slot { s.ctl p slot with lastClear := some line }).ctl p slot with coldPosted := false }

/-- The registers that a TEMP report of a position can change. -/
def tempRegs (g : Nat) : List Nat := [PLN_TILE_TEMP (g / 64) (g % 64), PLN_THERM_STATUS (g / 64), PLN_TEMP_STATUS (g / 64)]

theorem HeadOnly.tempHeard (hseq : (s.port p).retLsn = none ∨ (s.port p).retLsn = some h.lsn.toNat) (slot : Nat) (a b : Int) (flags : Nat) :
    HeadOnly s (s.tempHeard p slot h a b flags) :=
  (HeadOnly.repIn hseq).trans (HeadOnly.setCtl ..)

theorem HeadOnly.notClamped (s : State) (p slot line : Nat) : HeadOnly s (s.notClamped p slot line) :=
  (HeadOnly.setCtl ..).trans (HeadOnly.setCtl ..)

theorem RegsOnly.showPlaneTemp (h : RegsOnly s x) (q : Nat) : RegsOnly s (x.showPlaneTemp q) := by
  unfold State.showPlaneTemp
  dsimp only
  split
  · exact (((h.put _ _).put _ _).put _ _).put _ _
  · exact (((((h.put _ _).put _ _).put _ _).put _ _).putS _ _).putS _ _

theorem Keeps.showPlaneTemp {l : List Nat} (h : Keeps s x l) {q : Nat} (htherm : PLN_THERM_STATUS q ∈ l) (htemp : PLN_TEMP_STATUS q ∈ l) :
    Keeps s (x.showPlaneTemp q) l := by
  have hput : ∀ f ∈ [PLN_THERM_STATUS_WARN q, PLN_THERM_STATUS_CLAMP q, PLN_THERM_STATUS_SHUT q, PLN_THERM_STATUS_COLD q], f.off ∈ l := by
    simpa [PLN_THERM_STATUS_WARN, PLN_THERM_STATUS_CLAMP, PLN_THERM_STATUS_SHUT, PLN_THERM_STATUS_COLD] using htherm
  have hcounts : ∀ a b c d, Keeps s ((((x.put (PLN_THERM_STATUS_WARN q) a).put (PLN_THERM_STATUS_CLAMP q) b).put
      (PLN_THERM_STATUS_SHUT q) c).put (PLN_THERM_STATUS_COLD q) d) l := fun a b c d =>
    (((h.put _ _ (hput _ (by simp))).put _ _ (hput _ (by simp))).put _ _ (hput _ (by simp))).put _ _ (hput _ (by simp))
  unfold State.showPlaneTemp
  dsimp only
  split
  · exact hcounts _ _ _ _
  · exact ((hcounts _ _ _ _).putS _ _ htemp).putS _ _ htemp

theorem RegsOnly.tempShown (s : State) (g : Nat) (tMax : Int) (flags duty : Nat) : RegsOnly s (s.tempShown g tMax flags duty) :=
  ((((RegsOnly.refl s).putS _ _).put _ _).put _ _).showPlaneTemp _

theorem Keeps.tempShown (s : State) (g : Nat) (tMax : Int) (flags duty : Nat) : Keeps s (s.tempShown g tMax flags duty) (tempRegs g) := by
  have htile : PLN_TILE_TEMP (g / 64) (g % 64) ∈ tempRegs g := List.mem_cons_self
  exact ((((Keeps.refl s _).putS _ _ htile).put _ _ htile).put _ _ htile).showPlaneTemp (by simp [tempRegs]) (by simp [tempRegs])

theorem sgn_twos_toInt (a : BitVec 16) : sgn 16 (twos 16 a.toInt) = a.toInt := by
  have hlow := a.le_toInt
  have hhigh := a.toInt_lt
  unfold sgn twos
  split <;> omega

/-- The position shows the report. -/
theorem State.tempShown_shows (s : State) (g : Nat) (a : BitVec 16) {flags : Nat} (duty : BitVec 8) (hflags : flags < 32) :
    (s.tempShown g a.toInt flags duty.toNat).getS (PLN_TILE_TEMP_T_MAX (g / 64) (g % 64)) = a.toInt ∧
      (s.tempShown g a.toInt flags duty.toNat).get (PLN_TILE_TEMP_FLAGS (g / 64) (g % 64)) = flags ∧
      (s.tempShown g a.toInt flags duty.toNat).get (PLN_TILE_TEMP_DUTY (g / 64) (g % 64)) = duty.toNat := by
  have hplane : ∀ (z : State) (f : Fld), f.off = PLN_TILE_TEMP (g / 64) (g % 64) → (z.showPlaneTemp (g / 64)).get f = z.get f :=
    fun z f hf => by
      refine State.get_eq_of_rget _ _ _ ((Keeps.refl z [PLN_THERM_STATUS (g / 64), PLN_TEMP_STATUS (g / 64)]).showPlaneTemp
        (by simp) (by simp) _ ?_)
      simp only [hf, PLN_TILE_TEMP, PLN_THERM_STATUS, PLN_TEMP_STATUS, List.mem_cons, List.not_mem_nil, or_false]
      omega
  refine ⟨?_, ?_, ?_⟩
  · rw [State.getS, State.tempShown, hplane _ _ rfl, State.get_put_apart _ _ _ _ rfl (.inr (.inr ⟨show 15 < 24 by decide, Nat.zero_le 15⟩)),
      State.get_put_apart _ _ _ _ rfl (.inr (.inr ⟨show 15 < 16 by decide, Nat.zero_le 15⟩))]
    exact (State.getS_putS_same _ _ _ rfl).trans (sgn_twos_toInt a)
  · rw [State.tempShown, hplane _ _ rfl, State.get_put_apart _ _ _ _ rfl (.inr (.inr ⟨show 20 < 24 by decide, show 16 ≤ 20 by decide⟩)),
      State.get_put_same _ _ _ rfl]
    exact Nat.mod_eq_of_lt hflags
  · rw [State.tempShown, hplane _ _ rfl, State.get_put_same _ _ _ rfl]
    exact Nat.mod_eq_of_lt duty.isLt

theorem State.notClamped_ctl (s : State) (p slot line : Nat) :
    (s.notClamped p slot line).ctl p slot = { s.ctl p slot with lastClear := some line, coldPosted := false } := by
  rw [State.notClamped, State.ctl_setCtl_same, State.ctl_setCtl_same]

theorem State.autoClear_off {a : Int} (hoff : s.on (PLN_THERM_CTRL_AUTO_CLEAR (e.g / 64)) = false) : s.autoClear p slot e a = s :=
  if_neg (by simp [hoff])

/-- What follows from a shown TEMP report: entering and leaving the clamp window, TILE_COLD, the automatic CLEAR_FAULT (R287 to R290). -/
def State.tempFollowed (s : State) (was : CtlSlot) (p slot : Nat) (e : MapEntry) (tMax : Int) (flags line : Nat) : State :=
  let s4 :=
    if bit flags 1 then
      (if was.clampFrom.isNone then s.clampEnter p slot e tMax else s.setCtl p slot { s.ctl p slot with peak := max was.peak tMax })
    else
      let s4 := if was.clampFrom.isSome then s.clampLeave p slot e tMax line else s
      s4.setCtl p slot { s4.ctl p slot with lastClear := some line }
  (s4.coldReport p slot e (bit flags 3)).autoClear p slot e tMax

/-- A TEMP report of a position is heard, shown, judged and followed. -/
theorem State.tempIn_eq {a b : Int} {flags : Nat} (duty : Nat)
    (hentry : (s.tempHeard p slot h a b flags).entries.find? (fun e => e.port == p && e.slot == slot) = some e) :
    s.tempIn p slot h a b flags duty =
      (((s.tempHeard p slot h a b flags).tempShown e.g a flags duty).tempJudged (s.ctl p slot) e.g a b flags s.time.line).tempFollowed
        (s.ctl p slot) p slot e a flags (s.nearLine h.line.toNat) := by
  unfold State.tempIn
  dsimp only
  split
  next hnone => exact absurd (hentry.symm.trans hnone) (by simp)
  next e' he =>
  obtain rfl : e = e' := Option.some.inj (hentry.symm.trans he)
  rfl

/-- A report without CLAMP and COLD from a tile that was not clamped leaves a note of its line (R287). -/
theorem State.tempFollowed_eq {was : CtlSlot} {a : Int} {flags : Nat} (line : Nat) (hclamp : bit flags 1 = false)
    (hcold : bit flags 3 = false) (hfrom : was.clampFrom = none) (hauto : s.on (PLN_THERM_CTRL_AUTO_CLEAR (e.g / 64)) = false) :
    s.tempFollowed was p slot e a flags line = s.notClamped p slot line := by
  unfold State.tempFollowed
  rw [if_neg (by simp [hclamp]), hfrom, hcold]
  exact State.autoClear_off hauto

theorem State.tempHeard_entries (hseq : (s.port p).retLsn = none ∨ (s.port p).retLsn = some h.lsn.toNat) (slot : Nat) (a b : Int) (flags : Nat) :
    (s.tempHeard p slot h a b flags).entries = s.entries :=
  State.entries_of_planes (fun a _ _ => (HeadOnly.tempHeard hseq ..).rget a) (HeadOnly.tempHeard hseq ..).press

/-- What a position shows and its slot knows once a TEMP report has been shown (R216, R283). -/
def State.Reported (s x : State) (p slot g : Nat) (a b : BitVec 16) (flags : Nat) (duty : BitVec 8) : Prop :=
  x.getS (PLN_TILE_TEMP_T_MAX (g / 64) (g % 64)) = a.toInt ∧ x.get (PLN_TILE_TEMP_FLAGS (g / 64) (g % 64)) = flags ∧
    x.get (PLN_TILE_TEMP_DUTY (g / 64) (g % 64)) = duty.toNat ∧ (x.ctl p slot).tempAt = some s.now ∧ (x.ctl p slot).tMean = b.toInt

theorem State.Reported.congr {x y : State} {g : Nat} {a b : BitVec 16} {flags : Nat} {duty : BitVec 8} (h : s.Reported x p slot g a b flags duty)
    (hr : y.rget (PLN_TILE_TEMP (g / 64) (g % 64)) = x.rget (PLN_TILE_TEMP (g / 64) (g % 64)))
    (ht : (y.ctl p slot).tempAt = (x.ctl p slot).tempAt) (hm : (y.ctl p slot).tMean = (x.ctl p slot).tMean) :
    s.Reported y p slot g a b flags duty := by
  have hget : ∀ f : Fld, f.off = PLN_TILE_TEMP (g / 64) (g % 64) → y.get f = x.get f := fun f hf =>
    State.get_eq_of_rget _ _ _ (by rw [hf, hr])
  unfold State.Reported State.getS at *
  rwa [hget _ rfl, hget _ rfl, hget _ rfl, ht, hm]

/-- The state after a TEMP report is heard and shown. -/
theorem State.reported_shown (p slot : Nat) (h : RepHdr) (g : Nat) (a b : BitVec 16) {flags : Nat} (duty : BitVec 8) (hflags : flags < 32) :
    s.Reported ((s.tempHeard p slot h a.toInt b.toInt flags).tempShown g a.toInt flags duty.toNat) p slot g a b flags duty := by
  obtain ⟨hmax, hshown, hduty⟩ := (s.tempHeard p slot h a.toInt b.toInt flags).tempShown_shows g a duty hflags
  have hctl : ((s.tempHeard p slot h a.toInt b.toInt flags).tempShown g a.toInt flags duty.toNat).ctl p slot =
      (s.ctl p slot).withTemp s.now a.toInt b.toInt flags := by
    rw [(RegsOnly.tempShown ..).ctl]
    exact State.ctl_setCtl_same ..
  refine ⟨hmax, hshown, hduty, ?_, ?_⟩ <;> rw [hctl] <;> rfl

theorem State.Reported.notClamped {x : State} {g : Nat} {a b : BitVec 16} {flags : Nat} {duty : BitVec 8} (h : s.Reported x p slot g a b flags duty)
    (line : Nat) : s.Reported (x.notClamped p slot line) p slot g a b flags duty :=
  h.congr ((HeadOnly.notClamped ..).rget _) (by rw [State.notClamped_ctl]) (by rw [State.notClamped_ctl])

theorem State.Reported.tempWarned {x : State} {g : Nat} {a b : BitVec 16} {flags : Nat} {duty : BitVec 8} (h : s.Reported x p slot g a b flags duty)
    (hg : g < 512) (i j : Int) (line : Nat) : s.Reported (x.tempWarned g i j line) p slot g a b flags duty := by
  have hctl : (x.tempWarned g i j line).ctl p slot = x.ctl p slot := State.ctl_report ..
  refine h.congr ?_ (by rw [hctl]) (by rw [hctl])
  have hq : g / 64 < 8 := by omega
  rw [State.tempWarned, State.report, State.rget_cause_ne, State.rget_event]
  · simp only [PLN_TILE_TEMP, evtRegs, HIF_RING_STATUS, HIF_EVT_LOST, HIF_IRQ_CAUSE, List.mem_cons, List.not_mem_nil, or_false]
    omega
  · simp only [PLN_TILE_TEMP, PLN_IRQ_CAUSE_WARN, PLN_IRQ_CAUSE]
    omega

theorem State.on_tempWarned (s : State) (g : Nat) (a b : Int) (line : Nat) : (s.tempWarned g a b line).on PLN_IRQ_CAUSE_WARN = true :=
  State.on_cause_same _ _ rfl

theorem HeadSide.tempWarned (s : State) (g : Nat) (a b : Int) (line : Nat) : HeadSide s (s.tempWarned g a b line) :=
  HeadSide.report ..

theorem Keeps.tempWarned {l : List Nat} (h : Keeps s x (l ++ evtRegs)) (g : Nat) (a b : Int) (line : Nat) (hl : PLN_IRQ_CAUSE ∈ l) :
    Keeps s (x.tempWarned g a b line) (l ++ evtRegs) :=
  h.report _ _ _ _ hl

theorem Posts.tempWarned (h : HeadRegs s x) (hr : x.rget (RST_ISLAND 1) = s.rget (RST_ISLAND 1)) (g : Nat) (a b : Int) (line : Nat) :
    Posts s (x.tempWarned g a b line) Ev.TILE_WARN g [twos 16 a, twos 16 b, line] :=
  Posts.report _ _ _ _ h hr (by decide)

/-- The control of the thermal rules is none of the registers that a report can change. -/
theorem Keeps.on_thermCtrl {g : Nat} (h : Keeps s x ((tempRegs g ++ [PLN_IRQ_CAUSE]) ++ evtRegs)) :
    x.on (PLN_THERM_CTRL_AUTO_CLEAR (g / 64)) = s.on (PLN_THERM_CTRL_AUTO_CLEAR (g / 64)) := by
  refine State.on_eq_of_get _ _ _ (State.get_eq_of_rget _ _ _ (h _ ?_))
  simp only [tempRegs, PLN_THERM_CTRL_AUTO_CLEAR, PLN_THERM_CTRL, PLN_TILE_TEMP, PLN_THERM_STATUS, PLN_TEMP_STATUS, PLN_IRQ_CAUSE, evtRegs,
    HIF_RING_STATUS, HIF_EVT_LOST, HIF_IRQ_CAUSE, List.mem_append, List.mem_cons, List.not_mem_nil, or_false]
  omega

theorem island_notMem_tempRegs (g : Nat) : RST_ISLAND 1 ∉ tempRegs g := by
  simp only [tempRegs, PLN_TILE_TEMP, PLN_THERM_STATUS, PLN_TEMP_STATUS, RST_ISLAND, List.mem_cons, List.not_mem_nil, or_false]
  omega

/-- A TEMP report in sequence of a tile in the map is heard and shown before anything follows from it. -/
theorem State.tempReported {flags : Nat} (a b : BitVec 16) (duty : BitVec 8)
    (hseq : (s.port p).retLsn = none ∨ (s.port p).retLsn = some h.lsn.toNat)
    (hentry : s.entries.find? (fun e => e.port == p && e.slot == slot) = some e) (hflags : flags < 32) :
    ∃ x, HeadRegs s x ∧ Keeps s x (tempRegs e.g) ∧ s.Reported x p slot e.g a b flags duty ∧
      s.tempIn p slot h a.toInt b.toInt flags duty.toNat = (x.tempJudged (s.ctl p slot) e.g a.toInt b.toInt flags s.time.line).tempFollowed
        (s.ctl p slot) p slot e a.toInt flags (s.nearLine h.line.toNat) := by
  have hheard := HeadOnly.tempHeard (h := h) hseq slot a.toInt b.toInt flags
  have hentries := State.tempHeard_entries (h := h) hseq slot a.toInt b.toInt flags
  exact ⟨_, (HeadRegs.of_headOnly hheard).trans (HeadRegs.of_regsOnly (RegsOnly.tempShown _ e.g a.toInt flags duty.toNat)),
    fun i hi => (Keeps.tempShown _ e.g a.toInt flags duty.toNat i hi).trans (hheard.rget i), s.reported_shown p slot h e.g a b duty hflags,
    State.tempIn_eq duty.toNat ((congrArg _ hentries).trans hentry)⟩

end TempReport

/-! ### Declarations and faults (R217, R218) -/

section Declarations
variable {s : State} {p slot : Nat}

/-- A sound declaration of a tile that had none is kept and clears DECL_BAD (R217). -/
theorem State.tileDeclared_eq {d : DescBits} (hgood : declBad d false = none) (hfirst : (s.ctl p slot).decl = none) :
    s.tileDeclared p slot d = (s.setCtl p slot { s.ctl p slot with decl := some d, declSeen := true }).putB
      (HLK_SLOT_STATUS_DECL_BAD p slot) false := by
  unfold State.tileDeclared
  dsimp only
  rw [hgood, hfirst]

/-- The slots that a hub's declaration shows (R217). -/
def State.showFitted (s : State) (p : Nat) (d : DescBits) : State :=
  (List.range 24).foldl (fun s k => s.putB (HLK_SLOT_STATUS_PRESENT p k) (bit (hubSlots d) k)) s

def Port.withHub (q : Port) (d : DescBits) : Port := { q with hubDecl := some d, hubOk := true }

/-- A sound declaration of the hub for this port is kept and shows the slots (R217). -/
theorem State.hubDeclared_eq {d : DescBits} (hgood : declBad d true = none) (hport : hubThisPort d = if s.role = 2 then 1 else 0)
    (hp : p < s.heads.ports.length) :
    ∃ x, HeadOnly s x ∧ x.port p = (s.port p).withHub d ∧ s.hubDeclared p d = x.showFitted p d := by
  have hkept : (s.setPort p { s.port p with hubDecl := some d }).port p = { s.port p with hubDecl := some d } :=
    State.port_setPort_same _ hp
  refine ⟨(s.setPort p { s.port p with hubDecl := some d }).setPort p
    { (s.setPort p { s.port p with hubDecl := some d }).port p with hubOk := true },
    (HeadOnly.setPort ..).trans (HeadOnly.setPort ..), ?_, ?_⟩
  · rw [State.port_setPort_same _ (by simpa [State.setPort] using hp), hkept]
    rfl
  · unfold State.hubDeclared
    rw [hgood]
    exact if_neg (not_not_intro hport)

theorem RegsOnly.showFitted (s : State) (p : Nat) (d : DescBits) : RegsOnly s (s.showFitted p d) :=
  List.foldlRecOn (motive := RegsOnly s) _ _ (RegsOnly.refl s) fun _ hx _ _ => hx.putB _ _

theorem Keeps.showFitted (s : State) (p : Nat) (d : DescBits) : Keeps s (s.showFitted p d) ((List.range 24).map (HLK_SLOT_STATUS p)) :=
  List.foldlRecOn (motive := fun x => Keeps s x _) _ _ (Keeps.refl s _) fun _ hx _ hk => hx.putB _ _ (List.mem_map_of_mem hk)

/-- A flag per slot, written from a list of slots: those of the list show it, and those that showed it before still do. -/
theorem State.slotPresent_foldl (f : Nat → Bool) (k : Nat) (l : List Nat) (s : State) (h : k ∈ l ∨ s.slotPresent p k = f k) :
    (l.foldl (fun s k => s.putB (HLK_SLOT_STATUS_PRESENT p k) (f k)) s).slotPresent p k = f k := by
  induction l generalizing s with
  | nil => exact h.resolve_left List.not_mem_nil
  | cons j l ih =>
    rw [List.foldl_cons]
    refine ih _ ?_
    by_cases hjk : j = k
    · rw [hjk]
      exact .inr (State.on_putB_same _ _ _ rfl)
    · refine h.imp (fun hmem => (List.mem_cons.mp hmem).resolve_left (Ne.symm hjk)) fun hold => ?_
      refine Eq.trans ?_ hold
      refine State.on_eq_of_get _ _ _ (State.get_putB_apart _ _ _ _ rfl (.inl ?_))
      simp only [HLK_SLOT_STATUS_PRESENT, HLK_SLOT_STATUS]
      omega

theorem State.slotPresent_showFitted (s : State) (p : Nat) (d : DescBits) {k : Nat} (hk : k < 24) :
    (s.showFitted p d).slotPresent p k = bit (hubSlots d) k :=
  State.slotPresent_foldl _ k _ s (.inl (List.mem_range.mpr hk))

/-- What a fault code that becomes latched leaves in its slot, shown in the slot's status (R218). -/
def State.faultShown (s : State) (p slot code : Nat) : State :=
  (s.setCtl p slot { s.ctl p slot with faults := (s.ctl p slot).faults + 2 ^ code }).showSlot p slot

theorem RegsOnly.showSlot (s : State) (p slot : Nat) : RegsOnly s (s.showSlot p slot) := by
  unfold State.showSlot
  split
  · exact ((RegsOnly.refl s).putB _ _).putB _ _
  · exact RegsOnly.refl s

theorem Keeps.showSlot (s : State) (p slot : Nat) : Keeps s (s.showSlot p slot) [HLK_SLOT_STATUS p slot] := by
  unfold State.showSlot
  split
  · exact ((Keeps.refl s _).putB _ _ List.mem_cons_self).putB _ _ List.mem_cons_self
  · exact Keeps.refl s _

theorem HeadRegs.faultShown (s : State) (p slot code : Nat) : HeadRegs s (s.faultShown p slot code) :=
  (HeadRegs.of_headOnly (HeadOnly.setCtl ..)).trans (HeadRegs.of_regsOnly (RegsOnly.showSlot ..))

theorem Keeps.faultShown (s : State) (p slot code : Nat) : Keeps s (s.faultShown p slot code) [HLK_SLOT_STATUS p slot] :=
  (HeadOnly.setCtl s ..).keeps (Keeps.refl s _) |>.trans (Keeps.showSlot _ p slot)

theorem State.ctl_faultShown (s : State) (p slot code : Nat) :
    (s.faultShown p slot code).ctl p slot = { s.ctl p slot with faults := (s.ctl p slot).faults + 2 ^ code } := by
  rw [State.faultShown, (RegsOnly.showSlot ..).ctl, State.ctl_setCtl_same]

theorem slotStatus_above (p slot : Nat) : 0xA0000 ≤ HLK_SLOT_STATUS p slot := by
  simp only [HLK_SLOT_STATUS]
  omega

theorem faultRegs_planes (p slot : Nat) : ∀ a ∈ [HLK_SLOT_STATUS p slot, HLK_IRQ_CAUSE] ++ evtRegs, a < 0x80000 ∨ 0x90000 ≤ a := by
  have hslot := slotStatus_above p slot
  simp only [evtRegs, HLK_IRQ_CAUSE, HIF_RING_STATUS, HIF_EVT_LOST, HIF_IRQ_CAUSE, List.cons_append, List.nil_append, List.mem_cons,
    List.not_mem_nil, or_false, forall_eq_or_imp, forall_eq]
  omega

theorem island_notMem_slotStatus (p slot : Nat) : RST_ISLAND 1 ∉ [HLK_SLOT_STATUS p slot] := by
  have hslot := slotStatus_above p slot
  simp only [RST_ISLAND, List.mem_singleton]
  omega

/-- No position of the map names the slot. -/
theorem State.posOf_eq_none : s.posOf p slot = none ↔ s.entries.find? (fun e => e.port == p && e.slot == slot) = none :=
  Option.map_eq_none_iff

/-- A new fault code of a slot that the map does not name is latched, shown and reported, and brings nothing else (R218). -/
theorem State.faultIn_unmapped {h : RepHdr} {code : Nat} (count line group : Nat) (hcode : code ≠ 2)
    (hclear : bit (s.ctl p slot).faults code = false)
    (hctl : (s.repIn p h).ctl p slot = s.ctl p slot)
    (hshown : ((s.repIn p h).faultShown p slot code).posOf p slot = none)
    (hposted : (((s.repIn p h).faultShown p slot code).report Ev.TILE_FAULT p [slot, h.ident.toNat, code, line, group]
      HLK_IRQ_CAUSE_TILE_FAULT).posOf p slot = none) :
    s.faultIn p slot h code count line group =
      ((s.repIn p h).faultShown p slot code).report Ev.TILE_FAULT p [slot, h.ident.toNat, code, line, group]
        HLK_IRQ_CAUSE_TILE_FAULT := by
  have hmissing : ((s.repIn p h).faultShown p slot code).lineMissing p slot line = (s.repIn p h).faultShown p slot code := by
    rw [State.lineMissing, State.posOf_eq_none.mp hshown]
  have hnoted : ((s.repIn p h).faultShown p slot code).noteDropped p slot code line = (s.repIn p h).faultShown p slot code := by
    rw [State.noteDropped, hshown]
  have hnone : ∀ z : State, z.posOf p slot = none → z.faultAction p slot code line group = z := fun z hz => by
    rw [State.faultAction, State.posOf_eq_none.mp hz]
  unfold State.faultIn
  dsimp only
  rw [if_neg hcode, if_neg hcode, hclear, if_pos (Bool.not_false), if_neg (by decide), ← hctl]
  have hshow : ∀ z : State, z.lineMissing p slot line = z → (if code = 1 then z.lineMissing p slot line else z) = z := fun z hz => by
    rw [hz, ite_self]
  refine (congrArg (fun z : State => ((z.noteDropped p slot code line).report Ev.TILE_FAULT p [slot, h.ident.toNat, code, line, group]
    HLK_IRQ_CAUSE_TILE_FAULT).faultAction p slot code line group) (hshow _ hmissing)).trans ?_
  rw [hnoted, hnone _ hposted]

end Declarations

/-- Settles O28: a report in sequence moves the return LSN alone (`State.repIn_inSequence`); what it tells is then kept, shown and reported
(`State.tempReported`, `State.tileDeclared_eq`, `State.hubDeclared_eq`, `State.faultIn_unmapped`). -/
theorem tileReports : Obligations.TileReports := by
  refine ⟨?shown, ?warned, ?declared, ?hub, ?fault, ?stale⟩
  case shown =>
    intro s p slot h a b duty e hseq hentry _ hfrom hauto
    obtain ⟨x, hregs, hkeeps, hreported, heff⟩ := State.tempReported (slot := slot) (flags := 0) a b duty hseq hentry (by decide)
    have hauto' : x.on (PLN_THERM_CTRL_AUTO_CLEAR (e.g / 64)) = false :=
      ((hkeeps.mono fun i hi => List.mem_append_left _ (List.mem_append_left _ hi)).on_thermCtrl).trans hauto
    rw [State.tempJudged, if_neg (fun hwarn => absurd hwarn.1 (by decide)), State.tempFollowed_eq _ (by decide) (by decide) hfrom hauto'] at heff
    obtain ⟨hmax, hflags, hduty, hat, hmean⟩ := hreported.notClamped (s.nearLine h.line.toNat)
    exact ⟨_, congrArg finish heff, hmax, hflags, hduty, hat, hmean,
      Alters.of_headRegs (hregs.trans (HeadRegs.of_headOnly (HeadOnly.notClamped ..))) (hkeeps.headOnly (HeadOnly.notClamped ..))⟩
  case warned =>
    intro s p slot h a b duty e hseq hentry hg hfrom hflags hauto
    obtain ⟨x, hregs, hkeeps, hreported, heff⟩ := State.tempReported (slot := slot) (flags := 1) a b duty hseq hentry (by decide)
    have hkeeps' := (hkeeps.mono fun i hi => List.mem_append_left _ (List.mem_append_left [PLN_IRQ_CAUSE] hi)).tempWarned e.g a.toInt
      b.toInt s.time.line (by simp)
    have hauto' := hkeeps'.on_thermCtrl.trans hauto
    rw [State.tempJudged, if_pos ⟨rfl, by rw [hflags]; decide⟩, State.tempFollowed_eq _ (by decide) (by decide) hfrom hauto'] at heff
    obtain ⟨-, hshown, -⟩ := (hreported.tempWarned hg a.toInt b.toInt s.time.line).notClamped (s.nearLine h.line.toNat)
    have hpost := Posts.tempWarned hregs (hkeeps _ (island_notMem_tempRegs e.g)) e.g a.toInt b.toInt s.time.line
    have hnoted := HeadOnly.notClamped (x.tempWarned e.g a.toInt b.toInt s.time.line) p slot (s.nearLine h.line.toNat)
    exact ⟨_, congrArg finish heff, hshown, (hpost.headOnly hnoted).trackIrq, (hnoted.on _).trans (State.on_tempWarned ..),
      AltersPosting.of_headSide ((hregs.headSide.trans (HeadSide.tempWarned ..)).trans (HeadRegs.of_headOnly hnoted).headSide)
        (hkeeps'.headOnly hnoted)⟩
  case declared =>
    intro s p slot h d hseq hslot hgood hfirst
    have heard := HeadOnly.repIn (h := h) hseq
    have hctl := State.ctl_repIn (h := h) hseq p slot
    have heff : execDeclareReport p slot h d s = finish (((s.repIn p h).setCtl p slot
        { s.ctl p slot with decl := some d, declSeen := true }).putB (HLK_SLOT_STATUS_DECL_BAD p slot) false) := by
      rw [execDeclareReport, if_neg (by omega), if_pos hslot, State.tileDeclared_eq hgood (by rw [hctl, hfirst]), hctl]
    have hkept := heard.trans (HeadOnly.setCtl _ p slot { s.ctl p slot with decl := some d, declSeen := true })
    have hnow := State.ctl_setCtl_same (s.repIn p h) p slot { s.ctl p slot with decl := some d, declSeen := true }
    generalize (s.repIn p h).setCtl p slot { s.ctl p slot with decl := some d, declSeen := true } = x at heff hkept hnow
    have hoff := x.on_putB_same (HLK_SLOT_STATUS_DECL_BAD p slot) false rfl
    have hregs := (HeadRegs.of_headOnly hkept).trans (HeadRegs.of_regsOnly ((RegsOnly.refl x).putB (HLK_SLOT_STATUS_DECL_BAD p slot) false))
    have hkeeps := (hkept.keeps (Keeps.refl s [HLK_SLOT_STATUS p slot])).putB (HLK_SLOT_STATUS_DECL_BAD p slot) false List.mem_cons_self
    exact ⟨_, heff, congrArg CtlSlot.decl hnow, congrArg CtlSlot.declSeen hnow, hoff, Alters.of_headRegs hregs hkeeps⟩
  case hub =>
    intro s p h d hseq hgood hlen hport
    have hheard := HeadOnly.repIn (h := h) hseq
    have hrole : (s.repIn p h).role = s.role := by
      rw [State.repIn_inSequence hseq]
      rfl
    have hlen' : p.val < (s.repIn p h).heads.ports.length := by
      rw [State.repIn_inSequence hseq, State.setPort]
      simp [hlen]
    obtain ⟨x, hhub, hnow, heff⟩ := State.hubDeclared_eq hgood (by rw [hrole, hport]) hlen'
    have hkept := hheard.trans hhub
    have hshown := RegsOnly.showFitted x p d
    have hport' := (hshown.port p).trans hnow
    have hregs := (HeadRegs.of_headOnly hkept).trans (HeadRegs.of_regsOnly hshown)
    have hkeeps := (hkept.keeps (Keeps.refl s _)).trans (Keeps.showFitted x p d)
    have hslots := fun k : Fin 24 => x.slotPresent_showFitted p d k.isLt
    generalize x.showFitted p d = y at heff hport' hregs hkeeps hslots
    exact ⟨_, congrArg finish heff, congrArg Port.hubOk hport', congrArg Port.hubDecl hport', hslots, Alters.of_headRegs hregs hkeeps⟩
  case fault =>
    intro s p slot h code count line group hseq hcode _ hclear hpos
    have hheard := HeadOnly.repIn (h := h) hseq
    have hctl := State.ctl_repIn (h := h) hseq p slot
    have hne : code.toNat ≠ 2 := fun heq => hcode (BitVec.eq_of_toNat_eq heq)
    have hregs := (HeadRegs.of_headOnly hheard).trans (HeadRegs.faultShown _ p slot code.toNat)
    have hkeeps := (hheard.keeps (Keeps.refl s _)).trans (Keeps.faultShown (s.repIn p h) p slot code.toNat)
    have hnow := State.ctl_faultShown (s.repIn p h) p slot code.toNat
    have heff := State.faultIn_unmapped (h := h) count.toNat line.toNat group.toNat hne hclear hctl
    generalize (s.repIn p h).faultShown p slot code.toNat = x at hregs hkeeps hnow heff
    have hkeeps' := (hkeeps.mono (m := [HLK_SLOT_STATUS p slot, HLK_IRQ_CAUSE] ++ evtRegs) (by simp)).report Ev.TILE_FAULT p
      [slot, h.ident.toNat, code.toNat, line.toNat, group.toNat] HLK_IRQ_CAUSE_TILE_FAULT (by simp [HLK_IRQ_CAUSE_TILE_FAULT])
    have hposted := (State.posOf_of_planes (hkeeps'.planes (faultRegs_planes p slot)) ((State.press_report ..).trans hregs.press) p slot).trans hpos
    have hshown := (State.posOf_of_planes (hkeeps.planes fun a ha => faultRegs_planes p slot a (by simp [List.mem_singleton.mp ha])) hregs.press p slot).trans hpos
    have hfaults := congrArg CtlSlot.faults ((State.ctl_report Ev.TILE_FAULT p [slot, h.ident.toNat, code.toNat, line.toNat, group.toNat]
      HLK_IRQ_CAUSE_TILE_FAULT x p slot).trans (hnow.trans (by rw [hctl])))
    exact ⟨_, congrArg finish (heff hshown hposted), hfaults,
      (Posts.report _ _ _ _ hregs (hkeeps _ (island_notMem_slotStatus p slot)) (by decide)).trackIrq,
      AltersPosting.of_headSide (hregs.headSide.trans (HeadSide.report ..)) hkeeps'⟩
  case stale =>
    intro s p slot g hpos hjob hfresh hposted
    have heff : s.tempStale p slot = (s.setCtl p slot { s.ctl p slot with stalePosted := true }).report Ev.TEMP_STALE g
        [(s.now - (s.ctl p slot).tempAt.getD 0) / 1000] PLN_IRQ_CAUSE_TEMP_STALE := by
      rw [State.tempStale, hpos]
      exact if_pos ⟨Option.isSome_iff_ne_none.mpr hjob, by simp [hfresh], by simp [hposted]⟩
    have hkept := HeadOnly.setCtl s p slot { s.ctl p slot with stalePosted := true }
    have hnow := s.ctl_setCtl_same p slot { s.ctl p slot with stalePosted := true }
    generalize s.setCtl p slot { s.ctl p slot with stalePosted := true } = x at heff hkept hnow
    have hregs := HeadRegs.of_headOnly hkept
    exact ⟨_, congrArg finish heff, congrArg CtlSlot.stalePosted ((State.ctl_report _ _ _ PLN_IRQ_CAUSE_TEMP_STALE _ _ _).trans hnow),
      (Posts.report _ _ _ _ hregs (hkept.rget _) (by decide)).trackIrq,
      AltersPosting.of_headSide (hregs.headSide.trans (HeadSide.report ..))
        ((hkept.keeps (Keeps.refl s _)).report _ _ _ _ List.mem_cons_self)⟩

end Sys2Proof.Machine

namespace Sys2Proof.Machine

/-! ### What a change leaves of the registers and of the entries for the driver -/

/-- Registers that `W` does not hold of keep what they held, and every entry on its way to the driver is still there (R75). -/
structure Extends (W : Nat → Prop) (s x : State) : Prop where
  rget : ∀ a, ¬W a → x.rget a = s.rget a
  entries : ∀ e ∈ s.evtEntries, e ∈ x.evtEntries

section Extends
variable {W : Nat → Prop} {s x y : State}

theorem Extends.refl (s : State) : Extends W s s := ⟨fun _ _ => rfl, fun _ h => h⟩

theorem Extends.trans (h : Extends W s x) (h' : Extends W x y) : Extends W s y :=
  ⟨fun a ha => (h'.rget a ha).trans (h.rget a ha), fun e he => h'.entries e (h.entries e he)⟩

theorem Extends.foldl {α : Type} {f : State → α → State} (l : List α) (hf : ∀ y, ∀ a ∈ l, Extends W y (f y a)) (s : State) :
    Extends W s (l.foldl f s) :=
  List.foldlRecOn (motive := Extends W s) l f (Extends.refl s) fun y hy a ha => hy.trans (hf y a ha)

/-- A change of records alone. -/
theorem Extends.of_records (hr : x.regs = s.regs) (hh : x.hif = s.hif) : Extends W s x :=
  ⟨fun a _ => by rw [State.rget, hr, ← State.rget], fun e he => by rwa [State.evtEntries, hh, ← State.evtEntries]⟩

theorem Extends.of_headOnly (h : HeadOnly s x) : Extends W s x := Extends.of_records h.regs (HeadRegs.of_headOnly h).hif

theorem Extends.rset (h : Extends W s x) (a : Nat) (v : Word) (ha : W a) : Extends W s (x.rset a v) :=
  ⟨fun b hb => (State.rget_rset_ne x a b v fun e => hb (e ▸ ha)).trans (h.rget b hb), h.entries⟩

theorem Extends.put (h : Extends W s x) (f : Fld) (v : Nat) (hf : W f.off) : Extends W s (x.put f v) := h.rset _ _ hf
theorem Extends.putB (h : Extends W s x) (f : Fld) (v : Bool) (hf : W f.off) : Extends W s (x.putB f v) := h.put _ _ hf
theorem Extends.addSat (h : Extends W s x) (f : Fld) (n : Nat) (hf : W f.off) : Extends W s (x.addSat f n) := h.put _ _ hf
theorem Extends.cause (h : Extends W s x) (f : Fld) (hf : W f.off) : Extends W s (x.cause f) := h.putB _ _ hf

theorem Extends.event (h : Extends W s x) (c u : Nat) (p : List Nat) (hevt : ∀ a ∈ evtRegs, W a) : Extends W s (x.event c u p) :=
  ⟨fun b hb => (State.rget_event x c u p b fun hm => hb (hevt b hm)).trans (h.rget b hb),
    fun e he => x.mem_evtPost _ e (h.entries e he)⟩

theorem Extends.report (h : Extends W s x) (c u : Nat) (p : List Nat) (f : Fld) (hevt : ∀ a ∈ evtRegs, W a) (hf : W f.off) :
    Extends W s (x.report c u p f) := (h.event c u p hevt).cause f hf

theorem Extends.get (h : Extends W s x) (f : Fld) (hf : ¬W f.off) : x.get f = s.get f := State.get_eq_of_rget _ _ _ (h.rget _ hf)
theorem Extends.on (h : Extends W s x) (f : Fld) (hf : ¬W f.off) : x.on f = s.on f := State.on_eq_of_get _ _ _ (h.get f hf)

theorem Posts.extends {c u : Nat} {p : List Nat} (hp : Posts s x c u p) (h : Extends W x y) : Posts s y c u p := hp.after h.entries

end Extends

/-! ### Lost packets without a job (R201, R202, R227) -/

/-- The registers that the loss of packets can write: counts of lost packets, head-link causes, keep-wet spitting, and the events'. -/
def lossWrites (a : Nat) : Prop := a ∈ evtRegs ∨ (∃ p, a = HLK_LOST_COUNT p) ∨ a = HLK_IRQ_CAUSE ∨ ∃ q, a = PLN_KEEPWET q

section Loss
variable {s x : State} {p : Nat} {k : Packet}

theorem lossWrites.evt : ∀ a ∈ evtRegs, lossWrites a := fun _ h => .inl h

/-- Without a job no data is late. -/
theorem State.lateData_noJob (hjob : s.press.job = none) (typ : Nat) (plane : Option Nat) (line band port slot : Nat) :
    s.lateData typ plane line band port slot = s := by
  rw [State.lateData, State.lateAll, hjob]

theorem State.job_of_hidden (h : x.hidden = s.hidden) : x.press.job = s.press.job := by
  have hjob := congrArg (fun z : State => z.press.job) h
  exact hjob

theorem State.heads_of_hidden (h : x.hidden = s.hidden) : x.heads = s.heads := by
  have heads := congrArg State.heads h
  exact heads

theorem State.countLost_hidden (s : State) (p : Nat) (k : Packet) (low : Nat) : (s.countLost p k low).hidden = s.hidden := by
  rw [State.countLost, State.cause_hidden, State.event_hidden, State.addSat_hidden]

theorem Extends.countLost (s : State) (p : Nat) (k : Packet) (low : Nat) : Extends lossWrites s (s.countLost p k low) :=
  ((Extends.refl s).addSat _ _ (.inr (.inl ⟨p, rfl⟩))).report _ _ _ _ lossWrites.evt (.inr (.inr (.inl rfl)))

/-- The loss of a line packet or of a timed load is counted and reported. -/
theorem State.lineLost_noJob (hjob : s.press.job = none) (low plane line : Nat) : s.lineLost p k low plane line = s.countLost p k low :=
  State.lateData_noJob ((State.job_of_hidden (s.countLost_hidden p k low)).trans hjob) ..

theorem State.loadLost_noJob (hjob : s.press.job = none) (low : Nat) (line : Option Nat) : s.loadLost p k low line = s.countLost p k low := by
  unfold State.loadLost
  split
  · exact State.lineLost_noJob hjob ..
  · rfl

/-- Without a job a failed packet writes registers and posts events. -/
theorem State.packetFailed_noJob (hjob : s.press.job = none) (p : Nat) (k : Packet) :
    (s.packetFailed p k).hidden = s.hidden ∧ Extends lossWrites s (s.packetFailed p k) := by
  have hrefused : ∀ l : List Nat, Extends lossWrites s (s.report Ev.CONTROL_REFUSED p l HLK_IRQ_CAUSE_CONTROL_REFUSED) := fun l =>
    (Extends.refl s).report _ _ _ _ lossWrites.evt (.inr (.inr (.inl rfl)))
  have hhidden : ∀ l : List Nat, (s.report Ev.CONTROL_REFUSED p l HLK_IRQ_CAUSE_CONTROL_REFUSED).hidden = s.hidden := fun l => by
    rw [State.report, State.cause_hidden, State.event_hidden]
  cases hbody : k.body with
  | line low plane line codes last =>
    rw [State.packetFailed, hbody]
    dsimp only
    rw [State.lineLost_noJob hjob]
    exact ⟨s.countLost_hidden .., Extends.countLost ..⟩
  | ctl op cseq imm low payload line =>
    rw [State.packetFailed, hbody]
    dsimp only
    rw [State.ctlFailed, ← State.report]
    cases imm with
    | true => exact ⟨hhidden _, hrefused _⟩
    | false =>
      rw [if_neg (by decide), State.loadLost_noJob ((State.job_of_hidden (hhidden _)).trans hjob)]
      exact ⟨(State.countLost_hidden ..).trans (hhidden _), (hrefused _).trans (Extends.countLost ..)⟩

/-- A port without packets. -/
def State.emptied (s : State) (p : Nat) : State := s.setPort p { s.port p with outstanding := [], waiting := [] }

/-- The failure of every packet of a port empties it (R227). -/
theorem State.failAll_noJob (hjob : s.press.job = none) (p : Nat) :
    (s.failAll p).hidden = (s.emptied p).hidden ∧ Extends lossWrites s (s.failAll p) := by
  refine List.foldlRecOn (motive := fun x : State => x.hidden = (s.emptied p).hidden ∧ Extends lossWrites s x) _ _
    ⟨rfl, Extends.of_headOnly (HeadOnly.setPort ..)⟩ fun x hx k _ => ?_
  obtain ⟨hhidden, hextends⟩ := hx
  obtain ⟨hfailed, hlost⟩ := State.packetFailed_noJob ((State.job_of_hidden hhidden).trans hjob) p k
  exact ⟨hfailed.trans hhidden, hextends.trans hlost⟩

theorem State.refreshAllSpitting_hidden (s : State) : s.refreshAllSpitting.hidden = s.hidden :=
  foldl_keeps State.hidden (fun x q => by unfold State.refreshSpitting; split <;> simp) _ _

theorem Extends.refreshAllSpitting (s : State) : Extends lossWrites s s.refreshAllSpitting :=
  Extends.foldl _ (fun x q _ => by
    unfold State.refreshSpitting
    split
    · exact Extends.refl x
    · exact (Extends.refl x).putB _ _ (.inr (.inr (.inr ⟨q, rfl⟩)))) s

/-- What a port does that stops its traffic (R227, R228). -/
def State.silenced (s : State) (p : Nat) : State := (s.failAll p).refreshAllSpitting

theorem State.silenced_noJob (hjob : s.press.job = none) (p : Nat) :
    (s.silenced p).hidden = (s.emptied p).hidden ∧ Extends lossWrites s (s.silenced p) := by
  obtain ⟨hhidden, hextends⟩ := State.failAll_noJob hjob p
  exact ⟨(State.refreshAllSpitting_hidden _).trans hhidden, hextends.trans (Extends.refreshAllSpitting _)⟩

/-- The status of ports and lanes is none of the registers that lost packets write. -/
theorem lossWrites.not_of_mod {a : Nat} (hmod : a % 0x400 = 4) (hlow : 0xA0000 ≤ a) (hirq : a ≠ HLK_IRQ_CAUSE) : ¬lossWrites a := by
  rintro (h | ⟨q, h⟩ | h | ⟨q, h⟩)
  · revert h
    simp only [evtRegs, HIF_RING_STATUS, HIF_EVT_LOST, HIF_IRQ_CAUSE, List.mem_cons, List.not_mem_nil, or_false]
    omega
  · simp only [HLK_LOST_COUNT] at h
    omega
  · exact hirq h
  · simp only [PLN_KEEPWET] at h
    omega

end Loss

/-! ### The end of a LANE run (R527, R529) -/

/-- The registers that the end of a LANE run can write: the calibration's, and the lanes' equalization targets. -/
def laneRunWrites (a : Nat) : Prop := a ∈ evtRegs ∨ 0xD0000 ≤ a ∧ a < 0xE0000 ∨ ∃ l, a = SDS_RX_CTLE l ∨ a = SDS_RX_DFE_TARGET l

section LaneRun
variable {s : State}

theorem laneRunWrites.evt : ∀ a ∈ evtRegs, laneRunWrites a := fun _ h => .inl h

/-- The calibration's registers lie in one block. -/
theorem laneRunWrites.cal {a : Nat} (h : 0xD0000 ≤ a ∧ a < 0xE0000) : laneRunWrites a := .inr (.inl h)

/-- What a LANE run changes besides registers and events: not the head link. -/
def LaneRunOnly (s x : State) : Prop := x.heads = s.heads ∧ Extends laneRunWrites s x

theorem LaneRunOnly.refl (s : State) : LaneRunOnly s s := ⟨rfl, Extends.refl s⟩
theorem LaneRunOnly.trans {x y : State} (h : LaneRunOnly s x) (h' : LaneRunOnly x y) : LaneRunOnly s y := ⟨h'.1.trans h.1, h.2.trans h'.2⟩

theorem LaneRunOnly.put {x : State} (h : LaneRunOnly s x) (f : Fld) (v : Nat) (hf : laneRunWrites f.off) : LaneRunOnly s (x.put f v) :=
  ⟨h.1, h.2.put f v hf⟩

theorem LaneRunOnly.putB {x : State} (h : LaneRunOnly s x) (f : Fld) (v : Bool) (hf : laneRunWrites f.off) : LaneRunOnly s (x.putB f v) :=
  h.put f _ hf

theorem LaneRunOnly.event {x : State} (h : LaneRunOnly s x) (c u : Nat) (p : List Nat) : LaneRunOnly s (x.event c u p) :=
  ⟨(x.event_heads c u p).trans h.1, h.2.event c u p laneRunWrites.evt⟩

theorem LaneRunOnly.setChan {x : State} (h : LaneRunOnly s x) (c : Nat) (k : CalChan) : LaneRunOnly s (x.setChan c k) :=
  h.trans ⟨rfl, Extends.of_records rfl rfl⟩

theorem LaneRunOnly.withLanes {x : State} (h : LaneRunOnly s x) (l : List Lane) : LaneRunOnly s { x with lanes := l } :=
  h.trans ⟨rfl, Extends.of_records rfl rfl⟩

theorem LaneRunOnly.calEnter {x : State} (h : LaneRunOnly s x) : LaneRunOnly s (x.calEnter chLANE) :=
  ((h.put _ _ (laneRunWrites.cal (by decide))).setChan _ _).withLanes _

theorem LaneRunOnly.showTref {x : State} (h : LaneRunOnly s x) : LaneRunOnly s (x.showTref chLANE) := by
  unfold State.showTref
  split
  · exact h.putB _ _ (laneRunWrites.cal (by decide))
  · exact (h.put _ _ (laneRunWrites.cal (by decide))).putB _ _ (laneRunWrites.cal (by decide))

/-- The figures of a run that has ended OK, its time and T_ref, and its event (R300, R301). -/
theorem LaneRunOnly.calEnd {x : State} (h : LaneRunOnly s x) (q0 q1 : Nat) : LaneRunOnly s (x.calEnd chLANE ocOK q0 q1) := by
  have hstale : ∀ {y : State}, LaneRunOnly s y →
      LaneRunOnly s (if x.on (CAL_CH_STATUS_AGAIN chLANE) then y else y.putB (CAL_CH_STATUS_STALE chLANE) false) := fun hy => by
    split
    · exact hy
    · exact hy.putB _ _ (laneRunWrites.cal (by decide))
  have hnext : ∀ {y : State}, LaneRunOnly s y → LaneRunOnly s
      (if y.on (CAL_CH_STATUS_AGAIN chLANE) then
        let z := (y.putB (CAL_CH_STATUS_AGAIN chLANE) false).put (CAL_CH_STATUS_RUN_STATE chLANE) rsDUE
        if z.on (CAL_CH_CFG_AUTO chLANE) ∧ z.calCanStart chLANE true then z.calStartRun chLANE true else z
      else if y.on (CAL_CH_CFG_CONT chLANE) ∧ y.calCanStart chLANE true then y.calEnter chLANE else y) := fun {y} hy => by
    have hdue : LaneRunOnly s ((y.putB (CAL_CH_STATUS_AGAIN chLANE) false).put (CAL_CH_STATUS_RUN_STATE chLANE) rsDUE) :=
      (hy.putB _ _ (laneRunWrites.cal (by decide))).put _ _ (laneRunWrites.cal (by decide))
    dsimp only
    split_ifs
    · exact (hdue.event _ _ _).calEnter
    · exact hdue
    · exact hy.calEnter
    · exact hy
  unfold State.calEnd
  refine hnext ?_
  refine ((((hstale ?_).setChan _ _).showTref).event _ _ _).putB _ _ (laneRunWrites.cal (by decide))
  exact ((((h.put _ _ (laneRunWrites.cal (by decide))).put _ _ (laneRunWrites.cal (by decide))).put _ _
    (laneRunWrites.cal (by decide))).put _ _ (laneRunWrites.cal (by decide))).put _ _ (laneRunWrites.cal (by decide))

theorem LaneRunOnly.updLane {x : State} (h : LaneRunOnly s x) (l : Nat) (f : Lane → Lane) : LaneRunOnly s (x.updLane l f) := h.withLanes _

theorem LaneRunOnly.setTargetEq {x : State} (h : LaneRunOnly s x) (l : Nat) (e : Eq) : LaneRunOnly s (x.setTargetEq l e) :=
  ⟨h.1, (h.2.put _ _ (.inr (.inr ⟨l, .inl rfl⟩))).rset _ _ (.inr (.inr ⟨l, .inr rfl⟩))⟩

theorem LaneRunOnly.laneRunCheck (s : State) : LaneRunOnly s s.laneRunCheck := by
  unfold State.laneRunCheck
  extract_lets ls rs low s1
  split
  · exact LaneRunOnly.refl s
  · refine LaneRunOnly.calEnd ?_ _ _
    refine List.foldlRecOn (motive := LaneRunOnly s) _ _ (LaneRunOnly.refl s) fun x hx l _ => ?_
    split
    · exact (hx.setTargetEq ..).updLane _ _
    · exact hx

/-- The status of ports and lanes is none of the registers that the end of a LANE run writes. -/
theorem laneRunWrites.not_of_mod {a : Nat} (hmod : a % 0x400 = 4) (hplace : 0xA0000 ≤ a ∧ a < 0xD0000 ∨ 0xE0000 ≤ a) : ¬laneRunWrites a := by
  rintro (h | h | ⟨l, h | h⟩)
  · revert h
    simp only [evtRegs, HIF_RING_STATUS, HIF_EVT_LOST, HIF_IRQ_CAUSE, List.mem_cons, List.not_mem_nil, or_false]
    omega
  · omega
  · simp only [SDS_RX_CTLE] at h
    omega
  · simp only [SDS_RX_DFE_TARGET] at h
    omega

end LaneRun
/-! ### Loss, failed retraining and authority (R221, R227, R228) -/

section PortLoss
variable {s x : State} {p : Nat}

/-- The status registers of ports and lanes. -/
def statusReg (a : Nat) : Prop := (∃ p, p < 24 ∧ a = HLK_PORT_STATUS p) ∨ ∃ l, l < 52 ∧ a = SDS_LANE_STATUS l

theorem statusReg.not_lossWrites {a : Nat} (h : statusReg a) : ¬lossWrites a := by
  rcases h with ⟨p, hp, rfl⟩ | ⟨l, hl, rfl⟩ <;>
  refine lossWrites.not_of_mod ?_ ?_ ?_ <;> simp only [HLK_PORT_STATUS, SDS_LANE_STATUS, HLK_IRQ_CAUSE] <;> omega

theorem statusReg.not_laneRunWrites {a : Nat} (h : statusReg a) : ¬laneRunWrites a := by
  rcases h with ⟨p, hp, rfl⟩ | ⟨l, hl, rfl⟩ <;>
  refine laneRunWrites.not_of_mod ?_ ?_ <;> simp only [HLK_PORT_STATUS, SDS_LANE_STATUS] <;> omega

theorem statusReg.port (p : Fin 24) : statusReg (HLK_PORT_STATUS p) := .inl ⟨p, p.isLt, rfl⟩
theorem statusReg.lane {l : Nat} (h : l < 52) : statusReg (SDS_LANE_STATUS l) := .inr ⟨l, h, rfl⟩

theorem portUnit_val (p : Fin 24) : portUnit p = .port p := by rw [portUnit, Fin.ofNat_val_eq_self]

/-- A port that is UP is ON in phase 6 (R226). -/
theorem State.portUp_iff {p : Fin 24} : s.portUp p = true ↔ s.get (HLK_PORT_STATUS_STATE p) = 2 ∧ s.get (HLK_PORT_STATUS_PHASE p) = 6 := by
  simp [State.portUp]

theorem State.ust_of_portUp {p : Fin 24} (h : s.portUp p = true) : s.ust (portUnit p) = .on := by
  obtain ⟨hstate, -⟩ := State.portUp_iff.mp h
  rw [portUnit_val, State.ust_eq _ _ (by simp)]
  exact congrArg UState.ofCode hstate

/-- The fields of a port's status that a new phase does not write. -/
theorem State.get_setPhase_apart (s : State) (p ph : Nat) {f : Fld} (hphase : (HLK_PORT_STATUS_PHASE p).apart f)
    (hup : (HLK_PORT_STATUS_LINK_UP p).apart f) : (s.setPhase p ph).get f = s.get f := by
  rw [State.setPhase, State.get_putB_apart _ _ _ _ rfl hup, State.get_put_apart _ _ _ _ rfl hphase]

theorem State.get_setPhase (s : State) (p : Nat) {ph : Nat} (h : ph < 8) : (s.setPhase p ph).get (HLK_PORT_STATUS_PHASE p) = ph := by
  rw [State.setPhase, State.get_putB_apart _ _ _ _ rfl (.inr (.inr ⟨show 6 < 7 by decide, show 4 ≤ 6 by decide⟩)),
    State.get_put_same _ _ _ rfl]
  exact Nat.mod_eq_of_lt h

theorem RegsOnly.setPhase (h : RegsOnly s x) (p ph : Nat) : RegsOnly s (x.setPhase p ph) := (h.put _ _).putB _ _

theorem Keeps.setPhase {l : List Nat} (h : Keeps s x l) (p ph : Nat) (hp : HLK_PORT_STATUS p ∈ l) : Keeps s (x.setPhase p ph) l :=
  (h.put _ _ hp).putB _ _ hp

/-- What an emptied port shows. -/
theorem State.port_of_emptied {y : State} (h : y.heads = (x.emptied p).heads) (hp : p < x.heads.ports.length) :
    (y.port p).outstanding = [] ∧ (y.port p).waiting = [] := by
  have hport : y.port p = { x.port p with outstanding := [], waiting := [] } := by
    rw [State.port, h, ← State.port]
    exact State.port_setPort_same _ hp
  rw [hport]
  exact ⟨rfl, rfl⟩

/-- Loss of signal on a lane of a port that was UP, before its packets fail: the detector, the phase, PORT_DOWN and the lanes' coverage. -/
def State.signalLost (s : State) (p l : Nat) : State := (s.putB (SDS_LANE_STATUS_SIG_DET (2 * p + l)) false).setPhase p 0

def State.portsDown (s : State) (p l : Nat) : State :=
  (((s.signalLost p l).report Ev.PORT_DOWN p [2 * p + l, 0] HLK_IRQ_CAUSE_PORT_DOWN).updLane (2 * p)
    (fun x => { x with covered := false })).updLane (2 * p + 1) (fun x => { x with covered := false })

theorem State.linkLost_up {p : Fin 24} (l : Fin 2) (hup : s.portUp p = true) (hjob : s.press.job = none) :
    s.linkLost p l false = (s.portsDown p l).silenced p := by
  obtain ⟨-, hphase⟩ := State.portUp_iff.mp hup
  unfold State.linkLost
  rw [if_neg (by simp [State.ust_of_portUp hup, hphase])]
  dsimp only
  rw [hup, hjob]
  rfl

theorem State.signalLost_shows (s : State) (p l : Nat) (hp : p < 24) :
    (s.signalLost p l).get (HLK_PORT_STATUS_PHASE p) = 0 ∧ (s.signalLost p l).on (SDS_LANE_STATUS_SIG_DET (2 * p + l)) = false := by
  refine ⟨State.get_setPhase _ _ (by decide), ?_⟩
  have hoff : HLK_PORT_STATUS p ≠ (SDS_LANE_STATUS_SIG_DET (2 * p + l)).off := by
    simp only [HLK_PORT_STATUS, SDS_LANE_STATUS_SIG_DET, SDS_LANE_STATUS]
    omega
  refine (State.on_eq_of_get _ _ _ (State.get_setPhase_apart _ p 0 (.inl hoff) (.inl hoff))).trans ?_
  exact State.on_putB_same _ _ _ rfl

theorem RegsOnly.signalLost (s : State) (p l : Nat) : RegsOnly s (s.signalLost p l) := ((RegsOnly.refl s).putB _ _).setPhase _ _

theorem State.heads_updLane (s : State) (l : Nat) (f : Lane → Lane) : (s.updLane l f).heads = s.heads := rfl
theorem State.press_updLane (s : State) (l : Nat) (f : Lane → Lane) : (s.updLane l f).press = s.press := rfl

theorem State.heads_portsDown (s : State) (p l : Nat) : (s.portsDown p l).heads = s.heads := by
  rw [State.portsDown, State.heads_updLane, State.heads_updLane, State.heads_report, (RegsOnly.signalLost s p l).heads]

theorem State.press_portsDown (s : State) (p l : Nat) : (s.portsDown p l).press = s.press := by
  rw [State.portsDown, State.press_updLane, State.press_updLane, State.press_report,
    (HeadRegs.of_regsOnly (RegsOnly.signalLost s p l)).press]

theorem Extends.updLane (s : State) (l : Nat) (f : Lane → Lane) {W : Nat → Prop} : Extends W s (s.updLane l f) :=
  Extends.of_records rfl rfl

theorem Extends.portsDown (s : State) (p l : Nat) : Extends lossWrites (s.signalLost p l) (s.portsDown p l) :=
  (((Extends.refl _).report _ _ _ _ lossWrites.evt (.inr (.inr (.inl rfl)))).trans (Extends.updLane ..)).trans (Extends.updLane ..)

theorem Posts.portsDown (s : State) (p : Fin 24) (l : Nat) : Posts s (s.portsDown p l) Ev.PORT_DOWN p [2 * p + l, 0] := by
  have hregs := RegsOnly.signalLost s p l
  have hkeeps : Keeps s (s.signalLost p l) [SDS_LANE_STATUS (2 * p + l), HLK_PORT_STATUS p] :=
    ((Keeps.refl s _).putB _ _ List.mem_cons_self).setPhase _ _ (by simp)
  have hisland : RST_ISLAND 1 ∉ [SDS_LANE_STATUS (2 * p + l), HLK_PORT_STATUS p] := by
    simp only [RST_ISLAND, SDS_LANE_STATUS, HLK_PORT_STATUS, List.mem_cons, List.not_mem_nil, or_false]
    omega
  exact (Posts.report Ev.PORT_DOWN p [2 * p + l, 0] HLK_IRQ_CAUSE_PORT_DOWN (HeadRegs.of_regsOnly hregs) (hkeeps _ hisland)
    (by decide)).extends (W := lossWrites) ((Extends.updLane ..).trans (Extends.updLane ..))

/-- A failed retraining is counted, and the port is back in phase 0 (R228). -/
def State.retrainCounted (s : State) (p n : Nat) : State := (s.put (HLK_PORT_STATUS_RETRAIN_FAILS p) n).setPhase p 0

theorem RegsOnly.retrainCounted (s : State) (p n : Nat) : RegsOnly s (s.retrainCounted p n) := ((RegsOnly.refl s).put _ _).setPhase _ _

theorem Keeps.retrainCounted (s : State) (p n : Nat) : Keeps s (s.retrainCounted p n) [HLK_PORT_STATUS p] :=
  ((Keeps.refl s _).put _ _ List.mem_cons_self).setPhase _ _ List.mem_cons_self

theorem State.retrainCounted_shows (s : State) (p : Nat) {n : Nat} (hn : n < 4) :
    (s.retrainCounted p n).get (HLK_PORT_STATUS_RETRAIN_FAILS p) = n ∧ (s.retrainCounted p n).get (HLK_PORT_STATUS_PHASE p) = 0 := by
  refine ⟨?_, State.get_setPhase _ _ (by decide)⟩
  rw [State.retrainCounted, State.get_setPhase_apart _ _ _ (f := HLK_PORT_STATUS_RETRAIN_FAILS p)
    (.inr (.inl ⟨show 6 < 10 by decide, show 4 ≤ 6 by decide⟩)) (.inr (.inl ⟨show 7 < 10 by decide, le_refl 7⟩)), State.get_put_same _ _ _ rfl]
  exact Nat.mod_eq_of_lt hn

/-- A failed retraining before the third in succession (R228). -/
theorem State.retrainFailed_again {p : Fin 24} (hon : s.ust (.port p) = .on) (hstart : s.get (HLK_PORT_STATUS_PHASE p) ≠ 0)
    (hup : s.get (HLK_PORT_STATUS_PHASE p) ≠ 6) (hfew : s.get (HLK_PORT_STATUS_RETRAIN_FAILS p) < 2) :
    s.retrainFailed p = (s.retrainCounted p (s.get (HLK_PORT_STATUS_RETRAIN_FAILS p) + 1)).setPort p { s.port p with outstanding := [] } := by
  rw [State.retrainFailed, if_pos ⟨by rw [portUnit_val, hon], hstart, hup⟩]
  exact if_neg (by omega)

/-- The third failed retraining in succession retires the port (R228). -/
theorem State.retrainFailed_third {p : Fin 24} (hon : s.ust (.port p) = .on) (hstart : s.get (HLK_PORT_STATUS_PHASE p) ≠ 0)
    (hup : s.get (HLK_PORT_STATUS_PHASE p) ≠ 6) (hmany : 2 ≤ s.get (HLK_PORT_STATUS_RETRAIN_FAILS p)) :
    s.retrainFailed p = (s.put (HLK_PORT_STATUS_RETRAIN_FAILS p) 3).portRetire p 2 := by
  rw [State.retrainFailed, if_pos ⟨by rw [portUnit_val, hon], hstart, hup⟩]
  exact if_pos (by omega)

/-- The status of a port that enters RETIRED and of its lanes, before its event. -/
def State.portRetired (s : State) (p : Fin 24) (reason : Nat) : State :=
  ((((((s.setUst (.port p) .retired).setPend (.port p) false).put (HLK_PORT_STATUS_REASON p) reason).putB (HLK_PORT_STATUS_RETIRE_PEND p)
    false).setPhase p 0).put (SDS_LANE_STATUS_PWR (2 * p)) 2).put (SDS_LANE_STATUS_PWR (2 * p + 1)) 2

theorem State.portRetire_eq (s : State) (p : Fin 24) (reason : Nat) :
    s.portRetire p reason = ((s.portRetired p reason).report Ev.PORT_RETIRED p [reason, s.get (HLK_TALLY_COUNT p)]
      HLK_IRQ_CAUSE_PORT_RETIRED).silenced p := by
  unfold State.portRetire
  dsimp only
  rw [portUnit_val, State.silenced, State.report, State.portRetired]

theorem RegsOnly.portRetired (s : State) (p : Fin 24) (reason : Nat) : RegsOnly s (s.portRetired p reason) :=
  ((((((RegsOnly.refl s).setUst _ _ (by simp)).setPend _ _ (by simp)).put _ _).putB _ _).setPhase _ _ |>.put _ _).put _ _

theorem Keeps.portRetired (s : State) (p : Fin 24) (reason : Nat) :
    Keeps s (s.portRetired p reason) [HLK_PORT_STATUS p, SDS_LANE_STATUS (2 * p), SDS_LANE_STATUS (2 * p + 1)] := by
  have hport := List.mem_cons_self (a := HLK_PORT_STATUS p) (l := [SDS_LANE_STATUS (2 * p), SDS_LANE_STATUS (2 * p + 1)])
  have hust := ((Keeps.refl s _).setUst (.port p) .retired hport).setPend (.port p) false hport
  have hphase := ((hust.put (HLK_PORT_STATUS_REASON p) reason hport).putB (HLK_PORT_STATUS_RETIRE_PEND p) false hport).setPhase p 0 hport
  exact (hphase.put (SDS_LANE_STATUS_PWR (2 * p)) 2 (by simp [SDS_LANE_STATUS_PWR])).put (SDS_LANE_STATUS_PWR (2 * p + 1)) 2
    (by simp [SDS_LANE_STATUS_PWR])

theorem portStatus_ne_laneStatus (p : Fin 24) (l : Nat) : SDS_LANE_STATUS l ≠ HLK_PORT_STATUS p := by
  simp only [HLK_PORT_STATUS, SDS_LANE_STATUS]
  omega

/-- The power state of the lanes is apart from the port's status. -/
theorem State.get_portRetired (s : State) (p : Fin 24) (reason : Nat) {f : Fld} (hoff : f.off = HLK_PORT_STATUS p)
    (hpend : (HLK_PORT_STATUS_RETIRE_PEND p).apart f) (hphase : (HLK_PORT_STATUS_PHASE p).apart f) (hup : (HLK_PORT_STATUS_LINK_UP p).apart f) :
    (s.portRetired p reason).get f =
      (((s.setUst (.port p) .retired).setPend (.port p) false).put (HLK_PORT_STATUS_REASON p) reason).get f := by
  have hlane : ∀ l, (SDS_LANE_STATUS_PWR l).apart f := fun l => .inl (hoff ▸ portStatus_ne_laneStatus p l)
  rw [State.portRetired, State.get_put_apart _ _ _ _ rfl (hlane _), State.get_put_apart _ _ _ _ rfl (hlane _),
    State.get_setPhase_apart _ _ _ hphase hup, State.get_putB_apart _ _ _ _ rfl hpend]

/-- A port that enters RETIRED shows it with its reason, and its lanes sleep (R228, R532). -/
theorem State.portRetired_shows (s : State) (p : Fin 24) {reason : Nat} (hreason : reason < 16) :
    (s.portRetired p reason).ust (.port p) = .retired ∧ (s.portRetired p reason).get (HLK_PORT_STATUS_REASON p) = reason ∧
      (s.portRetired p reason).get (SDS_LANE_STATUS_PWR (2 * p)) = 2 ∧
      (s.portRetired p reason).get (SDS_LANE_STATUS_PWR (2 * p + 1)) = 2 := by
  refine ⟨?_, ?_, ?_, ?_⟩
  · have hstate : (s.portRetired p reason).get (HLK_PORT_STATUS_STATE p) =
        ((s.setUst (.port p) .retired).setPend (.port p) false).get (HLK_PORT_STATUS_STATE p) := by
      rw [State.get_portRetired _ _ _ rfl (.inr (.inr ⟨show 2 < 9 by decide, Nat.zero_le 2⟩))
        (.inr (.inr ⟨show 2 < 4 by decide, Nat.zero_le 2⟩)) (.inr (.inr ⟨show 2 < 7 by decide, Nat.zero_le 2⟩)),
        State.get_put_apart _ _ _ _ rfl (.inr (.inr ⟨show 2 < 16 by decide, Nat.zero_le 2⟩))]
    have hust := (State.ust_setPend (s.setUst (.port p) .retired) (.port p) false).trans (s.ust_setUst_same (.port p) .retired)
    rw [State.ust_eq _ _ (by simp)] at hust ⊢
    exact (congrArg UState.ofCode hstate).trans hust
  · rw [State.get_portRetired _ _ _ (f := HLK_PORT_STATUS_REASON p) rfl (.inr (.inl ⟨show 9 < 16 by decide, le_refl 9⟩))
      (.inr (.inl ⟨show 6 < 16 by decide, show 4 ≤ 6 by decide⟩)) (.inr (.inl ⟨show 7 < 16 by decide, le_refl 7⟩)),
      State.get_put_same _ _ _ rfl]
    exact Nat.mod_eq_of_lt hreason
  · have hlane : SDS_LANE_STATUS (2 * p + 1) ≠ SDS_LANE_STATUS (2 * p) := by
      simp only [SDS_LANE_STATUS]
      omega
    rw [State.portRetired, State.get_put_apart _ _ _ _ rfl (.inl hlane)]
    exact State.get_put_same _ _ _ rfl
  · exact State.get_put_same _ _ _ rfl

/-- A port that retires while there is no job (R228, R532): what it shows stands, and its event is posted before its packets fail. -/
theorem State.portRetire_noJob (p : Fin 24) {reason : Nat} (hreason : reason < 16) (hjob : s.press.job = none) :
    (s.portRetire p reason).ust (.port p) = .retired ∧ (s.portRetire p reason).get (HLK_PORT_STATUS_REASON p) = reason ∧
      (s.portRetire p reason).get (SDS_LANE_STATUS_PWR (2 * p)) = 2 ∧
      (s.portRetire p reason).get (SDS_LANE_STATUS_PWR (2 * p + 1)) = 2 ∧
      Posts s (s.portRetire p reason) Ev.PORT_RETIRED p [reason, s.get (HLK_TALLY_COUNT p)] := by
  have hregs := RegsOnly.portRetired s p reason
  have hisland : RST_ISLAND 1 ∉ [HLK_PORT_STATUS p, SDS_LANE_STATUS (2 * p), SDS_LANE_STATUS (2 * p + 1)] := by
    simp only [RST_ISLAND, SDS_LANE_STATUS, HLK_PORT_STATUS, List.mem_cons, List.not_mem_nil, or_false]
    omega
  have hrget := Keeps.portRetired s p reason _ hisland
  obtain ⟨hust, hshown, hfirst, hsecond⟩ := s.portRetired_shows p hreason
  rw [State.portRetire_eq]
  generalize s.portRetired p reason = x at *
  generalize s.get (HLK_TALLY_COUNT p) = tally
  have hpost := Posts.report Ev.PORT_RETIRED p [reason, tally] HLK_IRQ_CAUSE_PORT_RETIRED (HeadRegs.of_regsOnly hregs) hrget (by decide)
  have hreport := (Extends.refl x).report Ev.PORT_RETIRED p [reason, tally] HLK_IRQ_CAUSE_PORT_RETIRED lossWrites.evt (.inr (.inr (.inl rfl)))
  have hjob' : (x.report Ev.PORT_RETIRED p [reason, tally] HLK_IRQ_CAUSE_PORT_RETIRED).press.job = none := by
    rw [State.press_report, (HeadRegs.of_regsOnly hregs).press, hjob]
  obtain ⟨-, hsilenced⟩ := State.silenced_noJob hjob' p
  have hafter := hreport.trans hsilenced
  have hstatus := fun (f : Fld) (hf : statusReg f.off) => hafter.get f hf.not_lossWrites
  exact ⟨(State.ust_of_rget _ _ (.port p) (by simp) (hafter.rget (HLK_PORT_STATUS p) (statusReg.port p).not_lossWrites)).trans hust,
    (hstatus _ (statusReg.port p)).trans hshown, (hstatus _ (statusReg.lane (by omega))).trans hfirst,
    (hstatus _ (statusReg.lane (by omega))).trans hsecond, hpost.extends hsilenced⟩

end PortLoss

/-- Settles O26: the status and the event of a lost or retired port stand before its packets fail, and what fails them without a job
(`State.silenced_noJob`) and the end of a LANE run (`LaneRunOnly.laneRunCheck`) leave both alone. -/
theorem portLossAndRetirement : Obligations.PortLossAndRetirement := by
  refine ⟨?down, ?failed, ?retired, ?authorised⟩
  case down =>
    intro s p l hup hjob hlen
    obtain ⟨hphase, hsig⟩ := s.signalLost_shows p l p.isLt
    obtain ⟨hhidden, hsilenced⟩ := State.silenced_noJob (s := s.portsDown p l) (by rw [s.press_portsDown, hjob]) p
    obtain ⟨hrun, hends⟩ := LaneRunOnly.laneRunCheck ((s.portsDown p l).silenced p)
    obtain ⟨hout, hwait⟩ := State.port_of_emptied (hrun.trans (State.heads_of_hidden hhidden))
      (by rw [s.heads_portsDown, hlen]; exact p.isLt)
    have hstatus : ∀ f : Fld, statusReg f.off → ((s.portsDown p l).silenced p).laneRunCheck.get f = (s.signalLost p l).get f :=
      fun f hf => (hends.get f hf.not_laneRunWrites).trans (((Extends.portsDown s p l).trans hsilenced).get f hf.not_lossWrites)
    have heff := congrArg (fun x : State => finish x.laneRunCheck) (State.linkLost_up l hup hjob)
    have hposts := ((Posts.portsDown s p l).extends hsilenced).extends hends
    generalize ((s.portsDown p l).silenced p).laneRunCheck = z at *
    exact ⟨_, heff, (hstatus _ (statusReg.port p)).trans hphase,
      (State.on_eq_of_get _ _ _ (hstatus _ (statusReg.lane (by omega)))).trans hsig, hposts.trackIrq, hout, hwait⟩
  case failed =>
    intro s p hon hstart hup hfew hlen
    have heff := State.retrainFailed_again hon hstart hup hfew
    have hregs := RegsOnly.retrainCounted s p (s.get (HLK_PORT_STATUS_RETRAIN_FAILS p) + 1)
    have hkeeps := Keeps.retrainCounted s p (s.get (HLK_PORT_STATUS_RETRAIN_FAILS p) + 1)
    obtain ⟨hfails, hphase⟩ := s.retrainCounted_shows p (n := s.get (HLK_PORT_STATUS_RETRAIN_FAILS p) + 1) (by omega)
    generalize s.retrainCounted p (s.get (HLK_PORT_STATUS_RETRAIN_FAILS p) + 1) = x at *
    have hkept := HeadOnly.setPort x p { s.port p with outstanding := [] }
    have hport := x.port_setPort_same { s.port p with outstanding := [] } (p := p) (by rw [hregs.heads, hlen]; exact p.isLt)
    generalize x.setPort p { s.port p with outstanding := [] } = y at *
    exact ⟨_, congrArg finish heff, (State.get_eq_of_rget _ _ _ (hkept.rget _)).trans hfails,
      (State.get_eq_of_rget _ _ _ (hkept.rget _)).trans hphase, congrArg Port.outstanding hport,
      Alters.of_headRegs ((HeadRegs.of_regsOnly hregs).trans (HeadRegs.of_headOnly hkept)) (hkeeps.headOnly hkept)⟩
  case retired =>
    intro s p hon hstart hup hmany hjob
    have heff := State.retrainFailed_third hon hstart hup hmany
    have hcounted := HeadRegs.of_regsOnly ((RegsOnly.refl s).put (HLK_PORT_STATUS_RETRAIN_FAILS p) 3)
    have hkept := (Keeps.refl s [HLK_PORT_STATUS p]).put (HLK_PORT_STATUS_RETRAIN_FAILS p) 3 List.mem_cons_self
    have htally : (s.put (HLK_PORT_STATUS_RETRAIN_FAILS p) 3).get (HLK_TALLY_COUNT p) = s.get (HLK_TALLY_COUNT p) := by
      refine State.get_eq_of_rget _ _ _ (hkept _ ?_)
      simp only [HLK_TALLY_COUNT, HLK_PORT_STATUS, HLK_TALLY, List.mem_singleton]
      omega
    have hisland := hkept (RST_ISLAND 1) (by simp only [RST_ISLAND, HLK_PORT_STATUS, List.mem_singleton]; omega)
    generalize s.put (HLK_PORT_STATUS_RETRAIN_FAILS p) 3 = x at *
    obtain ⟨hust, hreason, hfirst, hsecond, hposts⟩ := State.portRetire_noJob (s := x) p (reason := 2) (by decide) (by rw [hcounted.press, hjob])
    rw [htally] at hposts
    generalize x.portRetire p 2 = y at *
    exact ⟨_, congrArg finish heff, (State.ust_trackIrq ..).trans hust, (State.get_trackIrq ..).trans hreason,
      (State.get_trackIrq ..).trans hfirst, (State.get_trackIrq ..).trans hsecond,
      (hposts.of_start hcounted.hif hcounted.time hisland).trackIrq⟩
  case authorised =>
    exact fun s p => ⟨_, rfl, rfl, Alters.of_headOnly (HeadOnly.setHeads s _)⟩

end Sys2Proof.Machine

namespace Sys2Proof.Machine

/-! ### The check of a tile against its record writes the ledger's registers (R263, R264) -/

/-- The registers that the check of a tile can write: the ledger's and those of events. -/
def ledgerWrites (a : Nat) : Prop := a ∈ evtRegs ∨ 0xC0000 ≤ a ∧ a < 0xD0000

section TileCheck
variable {s x : State}

theorem ledgerWrites.evt : ∀ a ∈ evtRegs, ledgerWrites a := fun _ h => .inl h

theorem Extends.ledgerReport (h : Extends ledgerWrites s x) (c u : Nat) (p : List Nat) {f : Fld} (hf : 0xC0000 ≤ f.off ∧ f.off < 0xD0000) :
    Extends ledgerWrites s (x.report c u p f) := h.report c u p f ledgerWrites.evt (.inr hf)

theorem Extends.setLdg (h : Extends ledgerWrites s x) (l : Ledger) : Extends ledgerWrites s (x.setLdg l) :=
  h.trans (Extends.of_records rfl rfl)

theorem Extends.headOnly {W : Nat → Prop} (h : Extends W s x) {y : State} (hy : HeadOnly x y) : Extends W s y :=
  h.trans (Extends.of_headOnly hy)

theorem Extends.jrn (h : Extends ledgerWrites s x) (r : JrnRec) : Extends ledgerWrites s (x.jrn r) := by
  unfold State.jrn State.mirrorSend
  split
  · split
    · exact h.trans (Extends.of_records rfl rfl)
    · exact h
  · exact h

theorem Extends.showHeld (h : Extends ledgerWrites s x) : Extends ledgerWrites s x.showHeld := by
  have hpending := (h.putB LDG_STATUS_PENDING true (.inr (by decide))).put LDG_PENDING_COUNT_WORDS x.ldg.dirty.length (.inr (by decide))
  unfold State.showHeld
  split
  · exact h
  · dsimp only
    split
    · exact hpending
    · exact (hpending.setLdg _).ledgerReport Ev.WRITE_HELD 0xFFFF _ (by decide)

theorem Extends.touch (h : Extends ledgerWrites s x) (a : Nat) (eff : Option Nat) : Extends ledgerWrites s (x.touch a eff) := by
  unfold State.touch
  refine Extends.showHeld (Extends.jrn ?_ _)
  split
  · exact h
  · exact h.setLdg _

theorem Extends.touchAll (h : Extends ledgerWrites s x) (l : List Nat) :
    Extends ledgerWrites s (l.foldl (fun s a => s.touch a none) x) :=
  h.trans (Extends.foldl l (fun y a _ => (Extends.refl y).touch a none) x)

theorem Extends.setRec (h : Extends ledgerWrites s x) (g : Nat) (r : TileRec) : Extends ledgerWrites s (x.setRec g r) :=
  (h.setLdg _).trans (Extends.foldl _ (fun y i _ => (Extends.refl y).touch (recAddr g + 8 * i) none) _)

theorem Extends.columnEvent (h : Extends ledgerWrites s x) (g c m : Nat) (dead : Bool) (eff : Nat) :
    Extends ledgerWrites s (x.columnEvent g c m dead eff) := by
  unfold State.columnEvent
  dsimp only
  split
  · exact h
  · exact (h.ledgerReport _ g _ (f := LDG_IRQ_CAUSE_COLUMN) (by decide)).trans (Extends.of_records rfl rfl)

theorem Extends.reportRetired (h : Extends ledgerWrites s x) (g eff : Nat) (ret : List (Nat × Nat)) :
    Extends ledgerWrites s (x.reportRetired g eff ret) :=
  h.trans (Extends.foldl ret (fun y _ _ => (Extends.refl y).ledgerReport _ _ _ (by decide)) x)

theorem Extends.runEvents (h : Extends ledgerWrites s x) (g : Nat) (r : Nat × List Nat) (ret : List (Nat × Nat)) (eff : Nat) :
    Extends ledgerWrites s (x.runEvents g r ret eff) :=
  (h.trans (Extends.foldl _ (fun y _ _ => (Extends.refl y).columnEvent ..) x)).reportRetired ..

theorem HeadOnly.sendChange (s : State) (c : MaskChange) : HeadOnly s (s.sendChange c) := by
  unfold State.sendChange
  split
  · exact HeadOnly.refl s
  · exact HeadOnly.sendCtl ..

theorem Extends.changeRun (h : Extends ledgerWrites s x) (g : Nat) (r : Nat × List Nat) (ret : List (Nat × Nat)) :
    Extends ledgerWrites s (x.changeRun g r ret) := by
  unfold State.changeRun
  dsimp only
  split
  · split_ifs
    · exact ((h.runEvents ..).setLdg _).headOnly (HeadOnly.sendChange ..)
    · exact h.setLdg _
  · have hforced := (h.runEvents g r ret x.effLine).setLdg ((x.runEvents g r ret x.effLine).forceMasks g r.1 r.2).ldg
    split
    · exact hforced
    · exact hforced.headOnly (HeadOnly.sendNow ..)

theorem Extends.remask (h : Extends ledgerWrites s x) (g : Nat) (cols : List Nat) (ret : List (Nat × Nat)) :
    Extends ledgerWrites s (x.remask g cols ret) :=
  (h.reportRetired ..).trans (Extends.foldl _ (fun y _ _ => (Extends.refl y).changeRun ..) _)

theorem Extends.zeroColumns (h : Extends ledgerWrites s x) (g : Nat) : Extends ledgerWrites s (x.zeroColumns g) :=
  h.trans (Extends.of_records rfl rfl)

/-- The count of unadopted positions, and what it is told with (R263, R264). -/
theorem Extends.showUnadopted (h : Extends ledgerWrites s x) (n : Nat) : Extends ledgerWrites s (x.put LDG_STATUS_UNADOPTED n) :=
  h.put _ _ (.inr (by decide))

theorem Extends.adoptTile (h : Extends ledgerWrites s x) (g : Nat) (d : DescBits) : Extends ledgerWrites s (x.adoptTile g d) := by
  have hshown : ∀ (l : Ledger) (as : List Nat) (r : TileRec) (cols : List Nat) (p : List Nat) (n : Nat), Extends ledgerWrites s
      ((((((as.foldl (fun s a => s.touch a none) (x.setLdg l)).setRec g r).remask g cols []).zeroColumns g).report Ev.TILE_ADOPTED g p
        LDG_IRQ_CAUSE_TILE).put LDG_STATUS_UNADOPTED n) := fun l as r cols p n =>
    ((((((h.setLdg l).touchAll as).setRec g r).remask g cols []).zeroColumns g).ledgerReport _ _ _ (by decide)).showUnadopted n
  unfold State.adoptTile
  dsimp only
  split
  · exact hshown ..
  · exact (hshown ..).headOnly (HeadOnly.setCtl ..)

theorem Extends.checkTile (h : Extends ledgerWrites s x) (e : MapEntry) : Extends ledgerWrites s (x.checkTile e) := by
  unfold State.checkTile
  split
  · exact h
  · split
    · exact ((h.setLdg _).showUnadopted _).headOnly (HeadOnly.setCtl ..)
    · split
      · exact h.adoptTile ..
      · exact (((h.headOnly (HeadOnly.setCtl ..)).setLdg _).showUnadopted _).ledgerReport _ _ _ (by decide)

theorem Extends.checkLatency (h : Extends ledgerWrites s x) : Extends ledgerWrites s x.checkLatency := by
  have hjob : ∀ j : Job, Extends ledgerWrites s (x.setJob j) := fun j => h.trans (Extends.of_records rfl rfl)
  unfold State.checkLatency
  split
  · exact h
  · split
    · exact hjob _
    · split
      · exact h
      · exact (hjob _).event _ _ _ ledgerWrites.evt

end TileCheck
end Sys2Proof.Machine

namespace Sys2Proof.Machine

/-! ### The training of a head-link port (R224 to R226) -/

section Training
variable {s x : State} {p : Fin 24}

/-- A new phase writes the port's status alone. -/
theorem State.on_setPhase_lane (s : State) (p : Fin 24) (ph : Nat) {f : Fld} {l : Nat} (hf : f.off = SDS_LANE_STATUS l) :
    (s.setPhase p ph).on f = s.on f := by
  have hoff : HLK_PORT_STATUS p ≠ f.off := fun h => portStatus_ne_laneStatus p l (hf.symm.trans h.symm)
  exact State.on_eq_of_get _ _ _ (State.get_setPhase_apart _ _ _ (.inl hoff) (.inl hoff))

theorem laneStatus_ne {l : Nat} : SDS_LANE_STATUS (l + 1) ≠ SDS_LANE_STATUS l := by
  simp only [SDS_LANE_STATUS]
  omega

theorem State.on_laneSignal (s : State) (l : Nat) : (s.laneSignal l).on (SDS_LANE_STATUS_SIG_DET l) = true := by
  refine (State.on_eq_of_get _ _ _ (State.get_put_apart _ _ _ _ rfl (.inr (.inl ⟨show 9 < 10 by decide, show 8 ≤ 9 by decide⟩)))).trans ?_
  exact State.on_putB_same _ _ _ rfl

theorem RegsOnly.laneSignal (h : RegsOnly s x) (l : Nat) : RegsOnly s (x.laneSignal l) := (h.putB _ _).put _ _

theorem Keeps.laneSignal {r : List Nat} (h : Keeps s x r) (l : Nat) (hl : SDS_LANE_STATUS l ∈ r) : Keeps s (x.laneSignal l) r :=
  (h.putB _ _ hl).put _ _ hl

/-- A signal on both receivers ends phase 0. -/
def State.signalled (s : State) (p : Nat) : State := ((s.laneSignal (2 * p)).laneSignal (2 * p + 1)).setPhase p 1

theorem State.signalDetected_eq (htrains : s.portTraining p = true) (hphase : s.get (HLK_PORT_STATUS_PHASE p) = 0) :
    s.signalDetected p = s.signalled p := if_pos ⟨htrains, hphase⟩

/-- The status registers of a port and its two lanes. -/
def trainingRegs (p : Nat) : List Nat := [HLK_PORT_STATUS p, SDS_LANE_STATUS (2 * p), SDS_LANE_STATUS (2 * p + 1)]

theorem RegsOnly.signalled (s : State) (p : Nat) : RegsOnly s (s.signalled p) :=
  (((RegsOnly.refl s).laneSignal _).laneSignal _).setPhase _ _

theorem Keeps.signalled (s : State) (p : Nat) : Keeps s (s.signalled p) (trainingRegs p) :=
  (((Keeps.refl s _).laneSignal _ (by simp [trainingRegs])).laneSignal _ (by simp [trainingRegs])).setPhase _ _ (by simp [trainingRegs])

theorem State.signalled_shows (s : State) (p : Fin 24) :
    (s.signalled p).get (HLK_PORT_STATUS_PHASE p) = 1 ∧ (s.signalled p).on (SDS_LANE_STATUS_SIG_DET (2 * p)) = true ∧
      (s.signalled p).on (SDS_LANE_STATUS_SIG_DET (2 * p + 1)) = true := by
  have hkept : ∀ x : State, Keeps x (x.laneSignal (2 * p + 1)) [SDS_LANE_STATUS (2 * p + 1)] := fun x =>
    (Keeps.refl x _).laneSignal _ List.mem_cons_self
  have hfirst : ((s.laneSignal (2 * p)).laneSignal (2 * p + 1)).on (SDS_LANE_STATUS_SIG_DET (2 * p)) =
      (s.laneSignal (2 * p)).on (SDS_LANE_STATUS_SIG_DET (2 * p)) :=
    State.on_eq_of_get _ _ _ (State.get_eq_of_rget _ _ _ (hkept _ _ fun h => laneStatus_ne (List.mem_singleton.mp h).symm))
  refine ⟨State.get_setPhase _ _ (by decide), ?_, ?_⟩
  · rw [State.signalled, State.on_setPhase_lane _ p 1 (l := 2 * p) rfl, hfirst, State.on_laneSignal]
  · rw [State.signalled, State.on_setPhase_lane _ p 1 (l := 2 * p + 1) rfl, State.on_laneSignal]

/-- Lock on both receivers ends phase 1. -/
def State.blockLocked (s : State) (p : Nat) : State :=
  ((s.putB (SDS_LANE_STATUS_BLOCK_LOCK (2 * p)) true).putB (SDS_LANE_STATUS_BLOCK_LOCK (2 * p + 1)) true).setPhase p 2

theorem RegsOnly.blockLocked (s : State) (p : Nat) : RegsOnly s (s.blockLocked p) :=
  (((RegsOnly.refl s).putB _ _).putB _ _).setPhase _ _

theorem Keeps.blockLocked (s : State) (p : Nat) : Keeps s (s.blockLocked p) (trainingRegs p) :=
  (((Keeps.refl s _).putB (SDS_LANE_STATUS_BLOCK_LOCK (2 * p)) true (by simp [trainingRegs, SDS_LANE_STATUS_BLOCK_LOCK])).putB
    (SDS_LANE_STATUS_BLOCK_LOCK (2 * p + 1)) true (by simp [trainingRegs, SDS_LANE_STATUS_BLOCK_LOCK])).setPhase _ _ (by simp [trainingRegs])

theorem State.blockLocked_shows (s : State) (p : Fin 24) :
    (s.blockLocked p).get (HLK_PORT_STATUS_PHASE p) = 2 ∧ (s.blockLocked p).on (SDS_LANE_STATUS_BLOCK_LOCK (2 * p)) = true ∧
      (s.blockLocked p).on (SDS_LANE_STATUS_BLOCK_LOCK (2 * p + 1)) = true := by
  have hfirst : ((s.putB (SDS_LANE_STATUS_BLOCK_LOCK (2 * p)) true).putB (SDS_LANE_STATUS_BLOCK_LOCK (2 * p + 1)) true).on
      (SDS_LANE_STATUS_BLOCK_LOCK (2 * p)) = (s.putB (SDS_LANE_STATUS_BLOCK_LOCK (2 * p)) true).on (SDS_LANE_STATUS_BLOCK_LOCK (2 * p)) :=
    State.on_eq_of_get _ _ _ (State.get_putB_apart _ _ _ _ rfl (.inl laneStatus_ne))
  refine ⟨State.get_setPhase _ _ (by decide), ?_, ?_⟩
  · rw [State.blockLocked, State.on_setPhase_lane _ p 2 (l := 2 * p) rfl, hfirst, State.on_putB_same _ _ _ rfl]
  · rw [State.blockLocked, State.on_setPhase_lane _ p 2 (l := 2 * p + 1) rfl, State.on_putB_same _ _ _ rfl]

theorem State.blockLock_eq (htrains : s.portTraining p = true) (hphase : s.get (HLK_PORT_STATUS_PHASE p) = 1) :
    s.blockLock p = ((s.blockLocked p).updLane (2 * p) Lane.adapt).updLane (2 * p + 1) Lane.adapt := if_pos ⟨htrains, hphase⟩

/-- Changes of lanes after writes of registers. -/
theorem RegsOnly.updLanes (h : RegsOnly s x) (j k : Nat) (f g : Lane → Lane) :
    RegsOnly { s with lanes := ((x.updLane j f).updLane k g).lanes } ((x.updLane j f).updLane k g) := by
  unfold RegsOnly at *
  rw [h]
  rfl

/-- The packet of a training phase (R224). -/
def trainingPacket (q : Port) (slot op cseq : Nat) : Packet :=
  { lsn := q.lsn, slot := slot, body := .ctl op cseq true 0 [] none, sent := 1, lastStatus := 0 }

theorem HeadOnly.sendTraining (s : State) (p slot op : Nat) : HeadOnly s (s.sendTraining p slot op) :=
  (HeadOnly.setCtl ..).trans (HeadOnly.setPort ..)

theorem State.sendTraining_sent (s : State) {p : Nat} (slot op : Nat) (hp : p < s.heads.ports.length) :
    ((s.sendTraining p slot op).port p).outstanding =
      (s.port p).outstanding ++ [trainingPacket (s.port p) slot op (s.ctl p slot).cseq] := by
  rw [State.sendTraining, State.port_setPort_same _ (by exact hp)]
  rfl

/-- Deskew ends phase 3 and asks the hub for its declaration. -/
theorem State.deskewDone_eq (htrains : s.portTraining p = true) (hphase : s.get (HLK_PORT_STATUS_PHASE p) = 3) :
    s.deskewDone p = ((s.setPort p { s.port p with hubOk := false, retLsn := none }).setPhase p 4).sendTraining p 31 opDECLARE_REQ :=
  if_pos ⟨htrains, hphase⟩

end Training

/-! ### The latency phase (R205, R206) -/

section Latency
variable {s x : State} {p : Nat}

/-- The echoes of a slot. -/
def echoTimes (es : List EchoSet) (k : Nat) : List Nat :=
  match es.find? (fun e => e.slot.val == k) with
  | some e => e.rtTau
  | none => []

theorem echoTimes_eq (es : List EchoSet) (k : Fin 25) : echoTimes es k = ((es.find? (fun e => e.slot == k)).map (·.rtTau)).getD [] := by
  have hpred : (fun e : EchoSet => e.slot.val == k.val) = fun e => e.slot == k := by
    funext e
    exact Bool.eq_iff_iff.mpr (by simp [Fin.ext_iff])
  rw [echoTimes, hpred]
  cases es.find? (fun e => e.slot == k) <;> rfl

/-- A slot's λ is shown (HLK_SLOT_LAT). -/
def State.showLat (s : State) (p k v : Nat) : State := (s.put (HLK_SLOT_LAT_LAT p k) v).putB (HLK_SLOT_LAT_VALID p k) true

/-- The λ of each of some slots is shown. -/
def State.showLats (s : State) (p : Nat) (v : Nat → Nat) (ks : List Nat) : State := ks.foldl (fun s k => s.showLat p k (v k)) s

theorem State.showLats_nil (s : State) (p : Nat) (v : Nat → Nat) : s.showLats p v [] = s := List.foldl_nil

theorem State.showLats_cons (s : State) (p : Nat) (v : Nat → Nat) (j : Nat) (ks : List Nat) :
    s.showLats p v (j :: ks) = (s.showLat p j (v j)).showLats p v ks := List.foldl_cons ..

theorem RegsOnly.showLats (s : State) (p : Nat) (v : Nat → Nat) (ks : List Nat) : RegsOnly s (s.showLats p v ks) :=
  List.foldlRecOn (motive := RegsOnly s) ks _ (RegsOnly.refl s) fun _ hx _ _ => (hx.put _ _).putB _ _

/-- The registers of the latencies of a port's slots. -/
theorem Keeps.showLats (s : State) (p : Nat) (v : Nat → Nat) (ks : List Nat) : Keeps s (s.showLats p v ks) (ks.map (HLK_SLOT_LAT p)) :=
  List.foldlRecOn (motive := fun x => Keeps s x _) ks _ (Keeps.refl s _) fun _ hx _ hk =>
    (hx.put _ _ (List.mem_map_of_mem hk)).putB _ _ (List.mem_map_of_mem hk)

/-- What a slot's latency register shows. -/
def State.latShown (s : State) (p k v : Nat) : Prop := s.get (HLK_SLOT_LAT_LAT p k) = v ∧ s.on (HLK_SLOT_LAT_VALID p k) = true

theorem State.latShown_of_rget {v k : Nat} (h : s.latShown p k v) (hr : x.rget (HLK_SLOT_LAT p k) = s.rget (HLK_SLOT_LAT p k)) :
    x.latShown p k v :=
  ⟨(State.get_eq_of_rget _ _ _ hr).trans h.1, (State.on_eq_of_get _ _ _ (State.get_eq_of_rget _ _ _ hr)).trans h.2⟩

theorem State.showLat_shown (s : State) (p k : Nat) {v : Nat} (hv : v < 2 ^ 24) : (s.showLat p k v).latShown p k v := by
  refine ⟨?_, State.on_putB_same _ _ _ rfl⟩
  rw [State.showLat, State.get_putB_apart _ _ _ _ rfl (.inr (.inr ⟨show 23 < 31 by decide, Nat.zero_le 23⟩)), State.get_put_same _ _ _ rfl]
  exact Nat.mod_eq_of_lt hv

/-- The slots of the list show their λ, and those that showed it before still do. -/
theorem State.showLats_shown {v : Nat → Nat} {k : Nat} (hv : v k < 2 ^ 24) (ks : List Nat) (s : State)
    (h : k ∈ ks ∨ s.latShown p k (v k)) : (s.showLats p v ks).latShown p k (v k) := by
  induction ks generalizing s with
  | nil => exact h.resolve_left List.not_mem_nil
  | cons j ks ih =>
    rw [State.showLats_cons]
    refine ih _ ?_
    by_cases hjk : j = k
    · rw [hjk]
      exact .inr (s.showLat_shown p k hv)
    · refine h.imp (fun hmem => (List.mem_cons.mp hmem).resolve_left (Ne.symm hjk)) fun hold => State.latShown_of_rget hold ?_
      have hoff : HLK_SLOT_LAT p j ≠ HLK_SLOT_LAT p k := by
        simp only [HLK_SLOT_LAT]
        omega
      rw [State.showLat, State.rget_putB_ne _ _ _ _ hoff, State.rget_put_ne _ _ _ _ hoff]

theorem State.asym_of_heads (h : x.heads = s.heads) (p k : Nat) : x.asym p k = s.asym p k := by
  rw [State.asym, State.port, h, ← State.port, ← State.asym]

/-- The λ of a slot from its echoes (R205). -/
def State.lambdaOf (s : State) (p : Nat) (es : List EchoSet) (k : Nat) : Nat := lambda16 (echoTimes es k) (s.asym p k)

/-- The λ of each of some slots is computed and shown in turn. -/
def State.showLambdas (s : State) (p : Nat) (es : List EchoSet) (ks : List Nat) : State :=
  ks.foldl (fun (s : State) k => s.showLat p k (s.lambdaOf p es k)) s

/-- Showing a λ does not change the next one. -/
theorem State.showLambdas_eq (es : List EchoSet) (ks : List Nat) (h : x.heads = s.heads) :
    x.showLambdas p es ks = x.showLats p (s.lambdaOf p es) ks := by
  unfold State.showLambdas
  induction ks generalizing x with
  | nil => rw [List.foldl_nil, State.showLats_nil]
  | cons j ks ih =>
    have hlambda : x.lambdaOf p es j = s.lambdaOf p es j := by rw [State.lambdaOf, State.asym_of_heads h, ← State.lambdaOf]
    have heads : (x.showLat p j (s.lambdaOf p es j)).heads = s.heads :=
      (((RegsOnly.refl x).put _ _).putB _ _).heads.trans h
    rw [List.foldl_cons, hlambda, State.showLats_cons, ih heads]

theorem fireLatency_notMem (p : Fin 24) {ks : List Nat} (h : ∀ k ∈ ks, k < 25) : HLK_FIRE_LATENCY ∉ ks.map (HLK_SLOT_LAT p) := by
  rintro hmem
  obtain ⟨k, hk, heq⟩ := List.mem_map.mp hmem
  have := h k hk
  simp only [HLK_SLOT_LAT, HLK_FIRE_LATENCY] at heq
  omega

theorem slotLat_ne_portStatus (p k : Nat) : HLK_SLOT_LAT p k ≠ HLK_PORT_STATUS p := by
  simp only [HLK_SLOT_LAT, HLK_PORT_STATUS]
  omega

/-- The tiles of some slots are asked for their declarations (R224). -/
def State.askDecls (s : State) (p : Nat) (ks : List Nat) : State :=
  ks.foldl (fun s k => (s.setCtl p k { s.ctl p k with declSeen := false }).sendTraining p k opDECLARE_REQ) s

theorem HeadOnly.askDecls (s : State) (p : Nat) (ks : List Nat) : HeadOnly s (s.askDecls p ks) :=
  HeadOnly.foldl (fun _ _ => (HeadOnly.setCtl ..).trans (HeadOnly.sendTraining ..)) ks s

/-- The latency phase over the λ of the hub and of the fitted slots. -/
theorem State.latencyDone_def (s : State) (p : Nat) (es : List EchoSet) : s.latencyDone p es =
    if ¬(s.portTraining p ∧ s.get (HLK_PORT_STATUS_PHASE p) = 4 ∧ (s.port p).hubOk) then s
    else if ¬(s.fitted p ++ [24]).all (fun k => echoesOk (echoTimes es k)) then s.portFault p 4
    else if (s.fitted p).any (fun k => (s.showLambdas p es (s.fitted p ++ [24])).latNeg p k) then
      (s.showLambdas p es (s.fitted p ++ [24])).portFault p 4
    else ((s.showLambdas p es (s.fitted p ++ [24])).setPhase p 5).askDecls p (s.fitted p) := by
  unfold State.latencyDone State.showLambdas State.askDecls
  rfl

theorem State.mem_fitted {k : Nat} (h : k ∈ s.fitted p ++ [24]) : k < 25 := by
  rcases List.mem_append.mp h with h | h
  · have := List.mem_range.mp (List.mem_filter.mp h).1
    omega
  · have := List.mem_singleton.mp h
    omega

/-- Sound echoes and compensations that are not negative end phase 4 (R205, R206). -/
theorem State.latencyDone_eq (es : List EchoSet) (htrains : s.portTraining p = true) (hphase : s.get (HLK_PORT_STATUS_PHASE p) = 4)
    (hhub : (s.port p).hubOk = true) (hechoes : ∀ k ∈ s.fitted p ++ [24], echoesOk (echoTimes es k) = true)
    (hroom : ∀ k ∈ s.fitted p, (s.showLats p (s.lambdaOf p es) (s.fitted p ++ [24])).latNeg p k = false) :
    s.latencyDone p es = ((s.showLats p (s.lambdaOf p es) (s.fitted p ++ [24])).setPhase p 5).askDecls p (s.fitted p) := by
  rw [State.latencyDone_def, if_neg (not_not_intro ⟨htrains, hphase, hhub⟩), if_neg (not_not_intro (List.all_eq_true.mpr hechoes)),
    State.showLambdas_eq es _ rfl, if_neg]
  rw [Bool.not_eq_true, List.any_eq_false]
  exact fun k hk => Bool.eq_false_iff.mp (hroom k hk)

/-- A slot's compensation from the λ shown is not negative when the firing latency covers it (R206). -/
theorem State.latNeg_of_room {k v : Nat} (hshown : s.latShown p k v) (hroom : 608 + v ≤ 16 * s.get HLK_FIRE_LATENCY_NS) :
    s.latNeg p k = false := by
  obtain ⟨hlat, -⟩ := hshown
  have hfix : tTxFix16 = 608 := rfl
  rw [State.latNeg, State.cLat16, hlat, hfix, decide_eq_false_iff_not]
  omega

end Latency
/-! ### The link comes up (R226) -/

section ComesUp
variable {s : State}

/-- The status of a port that comes up, before its event. -/
def State.cameUp (s : State) (p : Fin 24) : State :=
  ((s.setPhase p 6).setUst (.port p) .on).put (HLK_PORT_STATUS_RETRAIN_FAILS p) 0

theorem RegsOnly.cameUp (s : State) (p : Fin 24) : RegsOnly s (s.cameUp p) :=
  (((RegsOnly.refl s).setPhase _ _).setUst _ _ (by simp)).put _ _

theorem Keeps.cameUp (s : State) (p : Fin 24) : Keeps s (s.cameUp p) [HLK_PORT_STATUS p] :=
  (((Keeps.refl s _).setPhase _ _ List.mem_cons_self).setUst (.port p) _ List.mem_cons_self).put _ _ List.mem_cons_self

theorem State.cameUp_shows (s : State) (p : Fin 24) :
    (s.cameUp p).portUp p = true ∧ (s.cameUp p).get (HLK_PORT_STATUS_RETRAIN_FAILS p) = 0 := by
  refine ⟨State.portUp_iff.mpr ⟨?_, ?_⟩, State.get_put_same _ _ _ rfl⟩
  · rw [State.cameUp, State.get_put_apart _ _ _ _ rfl (.inr (.inr ⟨show 2 < 10 by decide, Nat.zero_le 2⟩)), State.setUst_eq _ _ _ (by simp)]
    exact State.get_put_same _ _ _ rfl
  · rw [State.cameUp, State.get_put_apart _ _ _ _ rfl (.inr (.inr ⟨show 6 < 10 by decide, show 4 ≤ 6 by decide⟩)),
      State.setUst_eq _ _ _ (by simp)]
    exact (State.get_put_apart _ _ _ _ rfl (.inr (.inl ⟨show 2 < 4 by decide, Nat.zero_le 2⟩))).trans (State.get_setPhase _ _ (by decide))

/-- What PORT_UP tells: the rate, the hub's latency and the slots fitted. -/
def State.upFigures (s : State) (p : Nat) : List Nat :=
  [(s.port p).rate, s.get (HLK_SLOT_LAT_LAT p 24), (s.fitted p).foldl (fun a k => a + 2 ^ k) 0]

/-- The tiles of a port are compared with their records, then the latencies are looked at (R207, R263). -/
def State.checked (s : State) (p : Nat) : State :=
  ((s.entries.filter (fun e => e.port == p)).foldl (fun s e => s.checkTile e) s).checkLatency

theorem Extends.checked (s : State) (p : Nat) : Extends ledgerWrites s (s.checked p) :=
  (Extends.foldl _ (fun y e _ => (Extends.refl y).checkTile e) s).checkLatency

theorem State.portComesUp_eq {p : Fin 24} (htrains : s.portTraining p = true) (hphase : s.get (HLK_PORT_STATUS_PHASE p) = 5)
    (hdecl : ∀ k ∈ s.fitted p, (s.ctl p k).declSeen = true) :
    s.portComesUp p = ((s.cameUp p).report Ev.PORT_UP p (s.upFigures p) HLK_IRQ_CAUSE_PORT_UP).checked p := by
  rw [State.portComesUp, if_neg (not_not_intro ⟨htrains, hphase, List.all_eq_true.mpr hdecl⟩), portUnit_val]
  rfl

theorem ledgerWrites.not_headLink {a : Nat} (h : 0xA0000 ≤ a ∧ a < 0xC0000) : ¬ledgerWrites a := by
  rintro (hevt | hledger)
  · revert hevt
    simp only [evtRegs, HIF_RING_STATUS, HIF_EVT_LOST, HIF_IRQ_CAUSE, List.mem_cons, List.not_mem_nil, or_false]
    omega
  · omega

theorem portStatus_headLink (p : Fin 24) : 0xA0000 ≤ HLK_PORT_STATUS p ∧ HLK_PORT_STATUS p < 0xC0000 := by
  simp only [HLK_PORT_STATUS]
  omega

end ComesUp

/-- Settles O25: each phase ends with writes of the port's status (`State.setPhase`); the latencies are shown one after the other
(`State.showLats_shown`), and what follows PORT_UP writes the ledger's registers alone (`Extends.checked`). -/
theorem portTraining : Obligations.PortTraining := by
  refine ⟨?signal, ?lock, ?adapt, ?deskew, ?latency, ?up⟩
  case signal =>
    intro s p htrains hphase
    have heff := State.signalDetected_eq htrains hphase
    have hregs := RegsOnly.signalled s p
    have hkeeps := Keeps.signalled s p
    obtain ⟨hnow, hfirst, hsecond⟩ := s.signalled_shows p
    generalize s.signalled p = x at *
    exact ⟨_, congrArg finish heff, hnow, hfirst, hsecond, Silent.of_regsOnly hregs hkeeps⟩
  case lock =>
    intro s p htrains hphase
    have heff := State.blockLock_eq htrains hphase
    have hregs := (RegsOnly.blockLocked s p).updLanes (2 * p) (2 * p + 1) Lane.adapt Lane.adapt
    have hkeeps := Keeps.blockLocked s p
    obtain ⟨hnow, hfirst, hsecond⟩ := s.blockLocked_shows p
    generalize s.blockLocked p = x at *
    exact ⟨_, congrArg finish heff, hnow, hfirst, hsecond, Alters.of_regsOnly rfl hregs hkeeps⟩
  case adapt =>
    intro s p htrains hphase
    have hnow := s.get_setPhase p (show 3 < 8 by decide)
    have hregs := (RegsOnly.refl s).setPhase p 3
    have hkeeps := (Keeps.refl s [HLK_PORT_STATUS p]).setPhase p 3 List.mem_cons_self
    have heff : execPortAdaptDone p s = finish (s.setPhase p 3) := congrArg finish (if_pos ⟨htrains, hphase⟩)
    generalize s.setPhase p 3 = x at *
    exact ⟨_, heff, hnow, Silent.of_regsOnly hregs hkeeps⟩
  case deskew =>
    intro s p htrains hphase hlen
    have heff := State.deskewDone_eq htrains hphase
    have hhub := HeadOnly.setPort s p { s.port p with hubOk := false, retLsn := none }
    have hport := s.port_setPort_same { s.port p with hubOk := false, retLsn := none } (p := p) (by omega)
    have hctl := s.ctl_setPort p { s.port p with hubOk := false, retLsn := none } p 31
    have hlen' : (s.setPort p { s.port p with hubOk := false, retLsn := none }).heads.ports.length = 24 :=
      (List.length_set ..).trans hlen
    generalize s.setPort p { s.port p with hubOk := false, retLsn := none } = x at *
    have hregs := (RegsOnly.refl x).setPhase p 4
    have hkeeps := (Keeps.refl x [HLK_PORT_STATUS p]).setPhase p 4 List.mem_cons_self
    have hnow := x.get_setPhase p (show 4 < 8 by decide)
    generalize x.setPhase p 4 = y at *
    have hsent := y.sendTraining_sent 31 opDECLARE_REQ (p := p) (by rw [hregs.heads, hlen']; exact p.isLt)
    have hsend := HeadOnly.sendTraining y p 31 opDECLARE_REQ
    rw [hregs.port, hregs.ctl, hport, hctl] at hsent
    generalize y.sendTraining p 31 opDECLARE_REQ = z at *
    exact ⟨_, congrArg finish heff, (State.get_eq_of_rget _ _ _ (hsend.rget _)).trans hnow, hsent,
      Alters.of_headRegs (((HeadRegs.of_headOnly hhub).trans (HeadRegs.of_regsOnly hregs)).trans (HeadRegs.of_headOnly hsend))
        (((hhub.keeps (Keeps.refl s _)).trans hkeeps).headOnly hsend)⟩
  case latency =>
    intro s p es xs htrains hphase hhub hxs hechoes hroom
    have htimes : ∀ k ∈ s.fitted p ++ [24], echoTimes es k = xs k := fun k hk =>
      (echoTimes_eq es ⟨k, State.mem_fitted hk⟩).trans (hxs ⟨k, State.mem_fitted hk⟩).symm
    have hlambda : ∀ k ∈ s.fitted p ++ [24], s.lambdaOf p es k = lambda16 (xs k) (s.asym p k) := fun k hk => by
      rw [State.lambdaOf, htimes k hk]
    have hlats : ∀ k ∈ s.fitted p ++ [24],
        (s.showLats p (s.lambdaOf p es) (s.fitted p ++ [24])).latShown p k (lambda16 (xs k) (s.asym p k)) := fun k hk => by
      obtain ⟨-, hwidth⟩ := hechoes k hk
      rw [← hlambda k hk] at hwidth ⊢
      exact State.showLats_shown hwidth _ s (.inl hk)
    have hregs := RegsOnly.showLats s p (s.lambdaOf p es) (s.fitted p ++ [24])
    have hkeeps := Keeps.showLats s p (s.lambdaOf p es) (s.fitted p ++ [24])
    have heff := State.latencyDone_eq es htrains hphase hhub fun k hk => by
      obtain ⟨hsound, -⟩ := hechoes k hk
      rwa [htimes k hk]
    generalize s.showLats p (s.lambdaOf p es) (s.fitted p ++ [24]) = x at *
    have hlatency : x.get HLK_FIRE_LATENCY_NS = s.get HLK_FIRE_LATENCY_NS :=
      State.get_eq_of_rget _ _ _ (hkeeps _ (fireLatency_notMem p fun k hk => State.mem_fitted hk))
    have hready := heff fun k hk =>
      State.latNeg_of_room (hlats k (List.mem_append_left _ hk)) (by rw [hlatency]; exact hroom k hk)
    have hphases := (RegsOnly.refl x).setPhase p 5
    have hstatus := (Keeps.refl x [HLK_PORT_STATUS p]).setPhase p 5 List.mem_cons_self
    have hnow := x.get_setPhase p (show 5 < 8 by decide)
    generalize x.setPhase p 5 = y at *
    have hasked := HeadOnly.askDecls y p (s.fitted p)
    generalize y.askDecls p (s.fitted p) = z at *
    have hside := ((HeadRegs.of_regsOnly hregs).trans (HeadRegs.of_regsOnly hphases)).trans (HeadRegs.of_headOnly hasked)
    have hshown : ∀ k ∈ s.fitted p ++ [24], z.latShown p k (lambda16 (xs k) (s.asym p k)) := fun k hk =>
      State.latShown_of_rget (hlats k hk) ((hasked.rget _).trans (hstatus _ fun h => slotLat_ne_portStatus p k (List.mem_singleton.mp h)))
    exact ⟨_, congrArg finish hready, (State.get_eq_of_rget _ _ _ (hasked.rget _)).trans hnow, hshown, hside.headSide,
      by rw [State.evtEntries_trackIrq, State.evtEntries, hside.hif, ← State.evtEntries]⟩
  case up =>
    intro s p htrains hphase hdecl
    have heff := State.portComesUp_eq htrains hphase hdecl
    have hregs := RegsOnly.cameUp s p
    have hkeeps := Keeps.cameUp s p
    obtain ⟨hup, hfails⟩ := s.cameUp_shows p
    generalize s.cameUp p = x at *
    have hpost := Posts.report Ev.PORT_UP p (s.upFigures p) HLK_IRQ_CAUSE_PORT_UP (HeadRegs.of_regsOnly hregs)
      (hkeeps _ (by simp only [RST_ISLAND, HLK_PORT_STATUS, List.mem_singleton]; omega)) (by decide)
    have hreport := (Extends.refl x).report Ev.PORT_UP p (s.upFigures p) HLK_IRQ_CAUSE_PORT_UP lossWrites.evt (.inr (.inr (.inl rfl)))
    have hcause : (x.report Ev.PORT_UP p (s.upFigures p) HLK_IRQ_CAUSE_PORT_UP).on HLK_IRQ_CAUSE_PORT_UP = true := State.on_cause_same _ _ rfl
    generalize x.report Ev.PORT_UP p (s.upFigures p) HLK_IRQ_CAUSE_PORT_UP = y at *
    have hchecked := Extends.checked y p
    generalize y.checked p = z at *
    have hstatus : ∀ f : Fld, f.off = HLK_PORT_STATUS p → z.get f = x.get f := fun f hf =>
      (hchecked.get f (hf ▸ ledgerWrites.not_headLink (portStatus_headLink p))).trans (hreport.get f (hf ▸ (statusReg.port p).not_lossWrites))
    have hlink : z.portUp p = true := by
      rw [State.portUp, hstatus _ rfl, hstatus _ rfl, ← State.portUp, hup]
    exact ⟨_, congrArg finish heff, hlink, (hstatus _ rfl).trans hfails, (hchecked.on _ (ledgerWrites.not_headLink (by decide))).trans hcause,
      (hpost.extends hchecked).trackIrq⟩

end Sys2Proof.Machine

namespace Sys2Proof.Machine

/-! ### The ledger's book and its upkeep (R254 to R260, R265 to R270) -/

/-- The ledger without what waits for MRAM and for the tiles: changed words, the hold outside the write window, mask changes, and masks in
force. -/
def Ledger.book (l : Ledger) : Ledger := { l with dirty := [], writeHeld := false, changes := [], masks := [] }

/-- The PCIe link stays as it is, and sequence numbers of entries are only taken (R75). -/
structure GoesOn (s x : State) : Prop where
  linkUp : x.hif.linkUp = s.hif.linkUp
  next : s.hif.evtNext ≤ x.hif.evtNext

/-- What follows a change of the ledger: its book and MRAM stay. -/
structure Upkeep (s x : State) : Prop extends GoesOn s x where
  book : x.ldg.book = s.ldg.book
  mram : x.mram = s.mram

section Upkeep
variable {s x y : State}

theorem GoesOn.refl (s : State) : GoesOn s s := ⟨rfl, le_refl _⟩
theorem GoesOn.trans (h : GoesOn s x) (h' : GoesOn x y) : GoesOn s y := ⟨h'.linkUp.trans h.linkUp, h.next.trans h'.next⟩
theorem GoesOn.of_hif (h : x.hif = s.hif) : GoesOn s x := ⟨congrArg Hif.linkUp h, le_of_eq (congrArg Hif.evtNext h.symm)⟩

theorem GoesOn.evtPost (s : State) (e : EvtEntry) : GoesOn s (s.evtPost e) := by
  refine ⟨s.evtPost_linkUp e, ?_⟩
  rw [State.evtPost_next]
  split_ifs <;> omega

theorem GoesOn.event (h : GoesOn s x) (c u : Nat) (p : List Nat) : GoesOn s (x.event c u p) := h.trans (GoesOn.evtPost x _)
theorem GoesOn.report (h : GoesOn s x) (c u : Nat) (p : List Nat) (f : Fld) : GoesOn s (x.report c u p f) :=
  (h.event c u p).trans (GoesOn.of_hif rfl)

theorem GoesOn.foldl {α : Type} {f : State → α → State} (l : List α) (hf : ∀ y, ∀ a ∈ l, GoesOn y (f y a)) (s : State) :
    GoesOn s (l.foldl f s) :=
  List.foldlRecOn (motive := GoesOn s) l f (GoesOn.refl s) fun y hy a ha => hy.trans (hf y a ha)

theorem Upkeep.refl (s : State) : Upkeep s s := ⟨GoesOn.refl s, rfl, rfl⟩

theorem Upkeep.trans (h : Upkeep s x) (h' : Upkeep x y) : Upkeep s y :=
  ⟨h.toGoesOn.trans h'.toGoesOn, h'.book.trans h.book, h'.mram.trans h.mram⟩

theorem Upkeep.foldl {α : Type} {f : State → α → State} (hf : ∀ y a, Upkeep y (f y a)) (l : List α) (s : State) :
    Upkeep s (l.foldl f s) :=
  List.foldlRecOn (motive := Upkeep s) l f (Upkeep.refl s) fun y hy a _ => hy.trans (hf y a)

/-- A change of other records and of registers. -/
theorem Upkeep.of_records (hl : x.ldg.book = s.ldg.book) (hm : x.mram = s.mram) (hh : x.hif = s.hif) : Upkeep s x :=
  ⟨GoesOn.of_hif hh, hl, hm⟩

theorem Upkeep.headOnly (h : Upkeep s x) (hy : HeadOnly x y) : Upkeep s y :=
  h.trans (by rw [hy]; exact Upkeep.of_records rfl rfl rfl)

/-- A new ledger with the same book. -/
theorem Upkeep.setLdg (h : Upkeep s x) (l : Ledger) (hl : l.book = x.ldg.book := by rfl) : Upkeep s (x.setLdg l) :=
  h.trans (Upkeep.of_records hl rfl rfl)

theorem Upkeep.put (h : Upkeep s x) (f : Fld) (v : Nat) : Upkeep s (x.put f v) := h.trans (Upkeep.of_records rfl rfl rfl)
theorem Upkeep.putB (h : Upkeep s x) (f : Fld) (b : Bool) : Upkeep s (x.putB f b) := h.put f _

theorem Upkeep.report (h : Upkeep s x) (c u : Nat) (p : List Nat) (f : Fld) : Upkeep s (x.report c u p f) :=
  ⟨h.toGoesOn.report c u p f, by rw [State.report, State.cause_ldg, State.event_ldg]; exact h.book,
    by rw [State.report, State.cause_mram, State.event_mram, h.mram]⟩

theorem Upkeep.jrn (s : State) (r : JrnRec) : Upkeep s (s.jrn r) := by
  obtain ⟨p, hp, -⟩ := s.jrn_par r
  rw [hp]
  exact Upkeep.of_records rfl rfl rfl

theorem Upkeep.showHeld (h : Upkeep s x) : Upkeep s x.showHeld := by
  have hpending := (h.putB LDG_STATUS_PENDING true).put LDG_PENDING_COUNT_WORDS x.ldg.dirty.length
  unfold State.showHeld
  split
  · exact h
  · dsimp only
    split
    · exact hpending
    · exact (hpending.setLdg _).report ..

theorem Upkeep.touch (s : State) (a : Nat) (eff : Option Nat) : Upkeep s (s.touch a eff) := by
  unfold State.touch
  refine Upkeep.showHeld (Upkeep.trans ?_ (Upkeep.jrn ..))
  split
  · exact Upkeep.refl s
  · exact (Upkeep.refl s).setLdg _

theorem Upkeep.touchAll (l : List Nat) (s : State) : Upkeep s (l.foldl (fun s a => s.touch a none) s) :=
  Upkeep.foldl (fun _ _ => Upkeep.touch ..) l s

theorem Upkeep.columnEvent (s : State) (g c m : Nat) (dead : Bool) (eff : Nat) : Upkeep s (s.columnEvent g c m dead eff) := by
  unfold State.columnEvent
  dsimp only
  split
  · exact Upkeep.refl s
  · exact ((Upkeep.refl s).report _ _ _ LDG_IRQ_CAUSE_COLUMN).trans (Upkeep.of_records rfl rfl rfl)

theorem Upkeep.reportRetired (s : State) (g eff : Nat) (ret : List (Nat × Nat)) : Upkeep s (s.reportRetired g eff ret) :=
  Upkeep.foldl (fun y _ => (Upkeep.refl y).report ..) ret s

theorem Upkeep.runEvents (s : State) (g : Nat) (r : Nat × List Nat) (ret : List (Nat × Nat)) (eff : Nat) :
    Upkeep s (s.runEvents g r ret eff) :=
  (Upkeep.foldl (fun _ _ => Upkeep.columnEvent ..) _ s).trans (Upkeep.reportRetired ..)

theorem Upkeep.forceMasks (s : State) (g first : Nat) (masks : List Nat) : Upkeep s (s.forceMasks g first masks) :=
  Upkeep.of_records rfl rfl rfl

theorem Upkeep.changeRun (s : State) (g : Nat) (r : Nat × List Nat) (ret : List (Nat × Nat)) : Upkeep s (s.changeRun g r ret) := by
  unfold State.changeRun
  dsimp only
  split
  · split_ifs
    · exact ((Upkeep.runEvents ..).setLdg _).headOnly (HeadOnly.sendChange ..)
    · exact (Upkeep.refl s).setLdg _
  · have hforced := (Upkeep.runEvents s g r ret s.effLine).trans (Upkeep.forceMasks _ g r.1 r.2)
    split
    · exact hforced
    · exact hforced.headOnly (HeadOnly.sendNow ..)

theorem Upkeep.remask (s : State) (g : Nat) (cols : List Nat) (ret : List (Nat × Nat)) : Upkeep s (s.remask g cols ret) :=
  (Upkeep.reportRetired ..).trans (Upkeep.foldl (fun _ _ => Upkeep.changeRun ..) _ _)

/-- A field of the book, after upkeep. -/
theorem Upkeep.field {β : Type} (h : Upkeep s x) (f : Ledger → β) : f x.ldg.book = f s.ldg.book := congrArg f h.book

theorem Upkeep.nozzles (h : Upkeep s x) : x.ldg.nozzles = s.ldg.nozzles := h.field Ledger.nozzles
theorem Upkeep.heaters (h : Upkeep s x) : x.ldg.heaters = s.ldg.heaters := h.field Ledger.heaters
theorem Upkeep.trims (h : Upkeep s x) : x.ldg.trims = s.ldg.trims := h.field Ledger.trims
theorem Upkeep.recs (h : Upkeep s x) : x.ldg.recs = s.ldg.recs := h.field Ledger.recs
theorem Upkeep.cmds (h : Upkeep s x) : x.ldg.cmds = s.ldg.cmds := h.field Ledger.cmds
theorem Upkeep.codes (h : Upkeep s x) : x.ldg.codes = s.ldg.codes := h.field Ledger.codes
theorem Upkeep.sweep (h : Upkeep s x) : x.ldg.sweep = s.ldg.sweep := h.field Ledger.sweep
theorem Upkeep.metres (h : Upkeep s x) : x.ldg.metres = s.ldg.metres := h.field Ledger.metres

/-- A report leaves a field apart from the events' registers and from its cause. -/
theorem State.get_report (s : State) (c u : Nat) (p : List Nat) {f k : Fld} (hf : f.ok = true) (hoff : f.off ≠ k.off)
    (hevt : k.off ∉ evtRegs) : (s.report c u p f).get k = s.get k := by
  rw [State.report, State.get_cause_apart _ _ _ hf (.inl hoff), State.get_event _ _ _ _ _ hevt]

theorem State.ldg_report (s : State) (c u : Nat) (p : List Nat) (f : Fld) : (s.report c u p f).ldg = s.ldg := by
  rw [State.report, State.cause_ldg, State.event_ldg]

theorem State.hidden_report (s : State) (c u : Nat) (p : List Nat) (f : Fld) : (s.report c u p f).hidden = s.hidden := by
  rw [State.report, State.cause_hidden, State.event_hidden]

theorem State.noz_of_nozzles (h : x.ldg.nozzles = s.ldg.nozzles) (g n : Nat) : x.noz g n = s.noz g n := by
  rw [State.noz, h, ← State.noz]

theorem State.trec_of_recs (h : x.ldg.recs = s.ldg.recs) (g : Nat) : x.trec g = s.trec g := by rw [State.trec, h, ← State.trec]

theorem State.heater_of_heaters (h : x.ldg.heaters = s.ldg.heaters) (g n : Nat) : x.heater g n = s.heater g n := by
  rw [State.heater, h, ← State.heater]

/-! #### Changes of the ledger, of the head link and of registers alone -/

/-- Only the ledger, the head link and registers differ. -/
def LedgerSide (s x : State) : Prop := x = { s with regs := x.regs, heads := x.heads, ldg := x.ldg }

theorem LedgerSide.trans (h : LedgerSide s x) (h' : LedgerSide x y) : LedgerSide s y := by
  unfold LedgerSide at *
  rw [h', h]

theorem LedgerSide.of_headRegs (h : HeadRegs s x) : LedgerSide s x := by
  unfold LedgerSide HeadRegs at *
  rw [h]

theorem LedgerSide.of_regsOnly (h : RegsOnly s x) : LedgerSide s x := LedgerSide.of_headRegs (HeadRegs.of_regsOnly h)
theorem LedgerSide.setLdg (s : State) (l : Ledger) : LedgerSide s (s.setLdg l) := rfl

theorem LedgerSide.regsOnly (h : LedgerSide s x) (hh : x.heads = s.heads) (hl : x.ldg = s.ldg) : RegsOnly s x := by
  unfold LedgerSide at h
  rw [hh, hl] at h
  exact h

theorem LedgerSide.alters {l : List Nat} (h : LedgerSide s x) (hk : Keeps s x l) :
    Alters s x.trackIrq { s with ldg := x.trackIrq.ldg, heads := x.trackIrq.heads } l := by
  rw [State.trackIrq_ldg, State.trackIrq_heads]
  exact Alters.of_regsOnly rfl h hk

theorem LedgerSide.alters_ledger {l : List Nat} (h : LedgerSide s x) (hh : x.heads = s.heads) (hk : Keeps s x l) :
    Alters s x.trackIrq { s with ldg := x.trackIrq.ldg } l := by
  have hall := h.alters hk
  rw [State.trackIrq_heads, hh] at hall
  exact hall

/-! #### Changes of the book -/

/-- The book's new text for a nozzle's state, a suspect entry, a tile record. -/
theorem Upkeep.setNoz (s : State) (g n st eff : Nat) :
    Upkeep (s.setLdg { s.ldg with nozzles := s.ldg.nozzles.put0 (nozKey g n) st }) (s.setNoz g n st eff) := Upkeep.touch ..

theorem Upkeep.setSuspect (s : State) (i : Nat) (x : Option Suspect) :
    Upkeep (s.setLdg { s.ldg with sus := match x with | some e => s.ldg.sus.set i e | none => s.ldg.sus.del i }) (s.setSuspect i x) :=
  Upkeep.touch ..

theorem Upkeep.setRec (s : State) (g : Nat) (r : TileRec) :
    Upkeep (s.setLdg { s.ldg with recs := s.ldg.recs.set g r }) (s.setRec g r) := Upkeep.foldl (fun _ _ => Upkeep.touch ..) _ _

end Upkeep
end Sys2Proof.Machine

namespace Sys2Proof.Machine

/-! ### The ledger's command queue (R273, R274) -/

section Queue
variable {s : State}

/-- A queue of commands that all have an operation is left as it is. -/
theorem State.ldgDrain_named (h : ∀ c ∈ s.ldg.cmds, 1 ≤ c.op ∧ c.op ≤ 9) (n : Nat) : s.ldgDrain n = s := by
  cases n with
  | zero => rfl
  | succ n =>
    unfold State.ldgDrain
    split
    · rfl
    · next c cs hq => exact if_pos (h c (hq ▸ List.mem_cons_self))

/-- The front command leaves the queue and its result is shown. -/
def State.ldgEnded (s : State) (res : Nat) : State :=
  ((s.setLdg { s.ldg with cmds := s.ldg.cmds.drop 1 }).ldgDepth.put LDG_CMD_STATUS_RESULT res).put LDG_CMD_STATUS_DONE
    (s.get LDG_CMD_STATUS_DONE + 1)

theorem State.ldgDone_ok (s : State) (c : LdgCmd) : s.ldgDone c lrOK = s.ldgEnded lrOK := by
  rw [State.ldgDone]
  exact if_pos rfl

theorem State.ldgDone_refused (s : State) (c : LdgCmd) {res : Nat} (h : res ≠ lrOK) : s.ldgDone c res =
    (s.ldgEnded res).report Ev.CMD_REFUSED c.tile [c.op, c.tile, c.nozzle, res] LDG_IRQ_CAUSE_CMD_REFUSED := if_neg h

@[simp] theorem State.ldgEnded_ldg (s : State) (res : Nat) : (s.ldgEnded res).ldg = { s.ldg with cmds := s.ldg.cmds.drop 1 } := by
  rw [State.ldgEnded, State.put_ldg, State.put_ldg, State.ldgDepth, State.put_ldg, State.setLdg_ldg]

@[simp] theorem State.ldgEnded_heads (s : State) (res : Nat) : (s.ldgEnded res).heads = s.heads := by
  rw [State.ldgEnded, State.put_heads, State.put_heads, State.ldgDepth, State.put_heads, State.setLdg_heads]

@[simp] theorem State.ldgEnded_hif (s : State) (res : Nat) : (s.ldgEnded res).hif = s.hif := by
  rw [State.ldgEnded, State.put_hif, State.put_hif, State.ldgDepth, State.put_hif, State.setLdg_hif]

theorem State.noz_ldgEnded (s : State) (res g n : Nat) : (s.ldgEnded res).trackIrq.noz g n = s.noz g n :=
  State.noz_of_nozzles (by rw [State.trackIrq_ldg, State.ldgEnded_ldg]) g n

theorem State.trec_ldgEnded (s : State) (res g : Nat) : (s.ldgEnded res).trackIrq.trec g = s.trec g :=
  State.trec_of_recs (by rw [State.trackIrq_ldg, State.ldgEnded_ldg]) g

theorem LedgerSide.ldgEnded (s : State) (res : Nat) : LedgerSide s (s.ldgEnded res) :=
  (LedgerSide.setLdg s { s.ldg with cmds := s.ldg.cmds.drop 1 }).trans
    (LedgerSide.of_regsOnly ((((RegsOnly.refl _).put _ _).put _ _).put _ _))

theorem Keeps.ldgEnded {l : List Nat} {x : State} (h : Keeps s x l) (res : Nat) (hl : LDG_CMD_STATUS ∈ l) : Keeps s (x.ldgEnded res) l :=
  (((show Keeps s (x.setLdg { x.ldg with cmds := x.ldg.cmds.drop 1 }) l from h).put LDG_CMD_STATUS_DEPTH _ hl).put
    LDG_CMD_STATUS_RESULT _ hl).put LDG_CMD_STATUS_DONE _ hl

theorem State.rget_ldgEnded (s : State) (res : Nat) {a : Nat} (h : a ≠ LDG_CMD_STATUS) : (s.ldgEnded res).rget a = s.rget a :=
  (Keeps.refl s [LDG_CMD_STATUS]).ldgEnded res List.mem_cons_self a (by simpa using h)

theorem State.get_ldgEnded (s : State) (res : Nat) {f : Fld} (h : f.off ≠ LDG_CMD_STATUS) : (s.ldgEnded res).get f = s.get f :=
  State.get_eq_of_rget _ _ _ (s.rget_ldgEnded res h)

theorem State.ldgEnded_result (s : State) {res : Nat} (h : res < 16) : (s.ldgEnded res).get LDG_CMD_STATUS_RESULT = res := by
  rw [State.ldgEnded, State.get_put_apart _ _ _ _ rfl (by decide), State.get_put_same _ _ _ rfl]
  exact Nat.mod_eq_of_lt h

theorem State.ldgEnded_ok (s : State) : (s.ldgEnded lrOK).trackIrq.get LDG_CMD_STATUS_RESULT = lrOK :=
  (State.get_trackIrq ..).trans (s.ldgEnded_result (by decide))

theorem State.ldgEnded_count (s : State) (res : Nat) :
    (s.ldgEnded res).get LDG_CMD_STATUS_DONE = (s.get LDG_CMD_STATUS_DONE + 1) % 65536 := State.get_put_same _ _ _ rfl

/-- A command that nothing refuses is carried out and ends with OK; the commands behind it move up. -/
theorem State.ldgRun_done {op : Nat} {checks : LdgCmd → List Nat} {act : State → LdgCmd → State} {c : LdgCmd} {cs : List LdgCmd} {y : State}
    (hact : act s c = y) (hq : s.ldg.cmds = c :: cs) (hop : c.op = op) (hready : c.ready = true) (hchecks : checks c = [])
    (hnamed : ∀ x ∈ cs, 1 ≤ x.op ∧ x.op ≤ 9) (hkept : y.ldg.cmds = s.ldg.cmds) :
    s.ldgRun op checks act = y.ldgEnded lrOK ∧ (y.ldgEnded lrOK).trackIrq.ldg.cmds = cs := by
  have hcs : (y.ldgEnded lrOK).ldg.cmds = cs := by rw [State.ldgEnded_ldg, hkept, hq]; rfl
  have hrun : s.ldgRun op checks act = (y.ldgDone c lrOK).ldgDrain 64 := by
    simp [State.ldgRun, hq, hop, hready, hchecks, pickOf, hact]
  refine ⟨?_, (congrArg Ledger.cmds (State.trackIrq_ldg _)).trans hcs⟩
  rw [hrun, State.ldgDone_ok, State.ldgDrain_named]
  rw [hcs]
  exact hnamed

/-- The command that a write of LDG_CMD brings (R273). -/
def State.ldgCommand (s : State) (v : Word) : LdgCmd :=
  { ready := s.on LDG_STATUS_READY, op := bits v.toNat 7 0, tile := bits v.toNat 16 8, nozzle := bits v.toNat 31 17,
    arg := (s.rget LDG_CMD_ARG).toNat }

/-- A command at the end of the queue. -/
def State.ldgQueued (s : State) (c : LdgCmd) : State := (s.setLdg { s.ldg with cmds := s.ldg.cmds ++ [c] }).ldgDepth

@[simp] theorem State.ldgQueued_ldg (s : State) (c : LdgCmd) : (s.ldgQueued c).ldg = { s.ldg with cmds := s.ldg.cmds ++ [c] } := by
  rw [State.ldgQueued, State.ldgDepth, State.put_ldg, State.setLdg_ldg]

@[simp] theorem State.ldgQueued_heads (s : State) (c : LdgCmd) : (s.ldgQueued c).heads = s.heads := by
  rw [State.ldgQueued, State.ldgDepth, State.put_heads, State.setLdg_heads]

theorem State.ldgWrite_room (v : Word) (h : s.ldg.cmds.length < 64) : s.ldgWrite v = (s.ldgQueued (s.ldgCommand v)).ldgDrain 64 :=
  if_neg (Nat.not_le.mpr h)

/-- A command without an operation, alone in the queue, is refused. -/
theorem State.ldgWrite_badOp {v : Word} (hempty : s.ldg.cmds = []) (hready : s.on LDG_STATUS_READY = true)
    (hop : ¬(1 ≤ (s.ldgCommand v).op ∧ (s.ldgCommand v).op ≤ 9)) :
    s.ldgWrite v = (s.ldgQueued (s.ldgCommand v)).ldgDone (s.ldgCommand v) lrBAD_OP := by
  have hqueue : (s.ldgQueued (s.ldgCommand v)).ldg.cmds = [s.ldgCommand v] := by
    rw [State.ldgQueued_ldg]
    exact congrArg (· ++ [s.ldgCommand v]) hempty
  have hpick : (pickOf ([lrBAD_OP] ++ if (s.ldgCommand v).ready then [] else [lrNOT_READY])).getD lrBAD_OP = lrBAD_OP := by
    simp [State.ldgCommand, hready, pickOf, Nat.mod_one]
  have hgone : ((s.ldgQueued (s.ldgCommand v)).ldgDone (s.ldgCommand v) lrBAD_OP).ldg.cmds = [] := by
    rw [State.ldgDone_refused _ _ (by decide), State.ldg_report, State.ldgEnded_ldg, hqueue]
    rfl
  rw [State.ldgWrite_room v (by simp [hempty]), State.ldgDrain, hqueue]
  dsimp only
  rw [if_neg hop, hpick, State.ldgDrain_named]
  simp [hgone]

theorem LedgerSide.ldgQueued (s : State) (c : LdgCmd) : LedgerSide s (s.ldgQueued c) :=
  (LedgerSide.setLdg s { s.ldg with cmds := s.ldg.cmds ++ [c] }).trans (LedgerSide.of_regsOnly ((RegsOnly.refl _).put _ _))

/-- A refused command leaves the ledger as it was. -/
theorem RegsOnly.ldgRefused (hempty : s.ldg.cmds = []) (c : LdgCmd) (res : Nat) : RegsOnly s ((s.ldgQueued c).ldgEnded res) := by
  have hcmds : (s.ldg.cmds ++ [c]).drop 1 = s.ldg.cmds := by rw [hempty]; rfl
  have hldg : ((s.ldgQueued c).ldgEnded res).ldg = s.ldg := by
    rw [State.ldgEnded_ldg, State.ldgQueued_ldg]
    dsimp only
    rw [hcmds]
  exact ((LedgerSide.ldgQueued s c).trans (LedgerSide.ldgEnded ..)).regsOnly (by rw [State.ldgEnded_heads, State.ldgQueued_heads]) hldg

theorem Keeps.ldgQueued (s : State) (c : LdgCmd) (l : List Nat) (hl : LDG_CMD_STATUS ∈ l) : Keeps s (s.ldgQueued c) l :=
  (show Keeps s (s.setLdg { s.ldg with cmds := s.ldg.cmds ++ [c] }) l from Keeps.refl s l).put LDG_CMD_STATUS_DEPTH _ hl

end Queue
end Sys2Proof.Machine

namespace Sys2Proof.Machine

/-! ### Sparse maps of nozzle states (R243) -/

section Maps
variable {α : Type}

theorem AMap.get_filter {m : AMap α} {p : Nat × α → Bool} {k : Nat} (d : α) (h : ∀ v, p (k, v) = true) :
    AMap.get (m.filter p) k d = AMap.get m k d := by
  induction m with
  | nil => rfl
  | cons e r ih =>
    by_cases he : e.1 = k
    · have hp : p e = true := by subst he; exact h e.2
      simp [hp, AMap.get, he]
    · rw [List.filter_cons]
      split <;> simp [AMap.get, he, ih]

theorem AMap.get_filter_none {m : AMap α} {p : Nat × α → Bool} {k : Nat} (d : α) (h : ∀ v, p (k, v) = false) :
    AMap.get (m.filter p) k d = d := by
  induction m with
  | nil => rfl
  | cons e r ih =>
    rw [List.filter_cons]
    split
    · next hp =>
      have he : e.1 ≠ k := fun he => by
        have hnot := h e.2
        rw [← he] at hnot
        exact absurd hp (by simp [hnot])
      simp [AMap.get, he, ih]
    · exact ih

/-- A value that is not the default stands in the map. -/
theorem AMap.mem_of_get {m : AMap α} {k : Nat} {d : α} (h : AMap.get m k d ≠ d) : (k, AMap.get m k d) ∈ m := by
  induction m with
  | nil => exact absurd rfl h
  | cons e r ih =>
    by_cases he : e.1 = k
    · have hget : AMap.get (e :: r) k d = e.2 := by simp [AMap.get, he]
      rw [hget, ← he]
      exact List.mem_cons_self
    · have hget : AMap.get (e :: r) k d = AMap.get r k d := by simp [AMap.get, he]
      rw [hget] at h ⊢
      exact List.mem_cons_of_mem _ (ih h)

theorem AMap.get_put0 (m : AMap Nat) (k v j : Nat) : AMap.get (m.put0 k v) j 0 = if j = k then v else AMap.get m j 0 := by
  unfold AMap.put0 AMap.del
  by_cases hj : j = k
  · subst hj
    split
    · next hv => simp [AMap.get_filter_none (m := m) (p := fun e => e.1 != j) (k := j) 0 (by simp), hv]
    · simp [AMap.get_set_same]
  · rw [if_neg hj]
    split
    · exact AMap.get_filter 0 (by simp [hj])
    · exact AMap.get_set_ne _ _ _ _ _ (Ne.symm hj)

end Maps

theorem nozKey_div {g n : Nat} (hn : n < 32768) : nozKey g n / 32768 = g := by unfold nozKey; omega
theorem nozKey_mod {g n : Nat} (hn : n < 32768) : nozKey g n % 32768 = n := by unfold nozKey; omega

theorem nozKey_eq_iff {g n h m : Nat} (hn : n < 32768) (hm : m < 32768) : nozKey g n = nozKey h m ↔ g = h ∧ n = m := by
  unfold nozKey; omega

/-! ### Triggers of nozzles (R243, R244) -/

/-- The state that a trigger brings a nozzle to. -/
def NozTrigger.after (t : NozTrigger) (st : Nat) : Nat :=
  match t with
  | .purge => if st = nzSUSPECT then nzOK else st
  | .setTemp => if st = nzOK ∨ st = nzSUSPECT then nzTEMP else st
  | .clearTemp => if st = nzTEMP then nzOK else st
  | .retire | .secondHeater => nzRETIRED
  | .restore => if st = nzRETIRED then nzOK else st

theorem NozTrigger.after_after (t : NozTrigger) (st : Nat) : t.after (t.after st) = t.after st := by
  cases t <;> simp only [NozTrigger.after] <;> split_ifs <;> simp_all [nzOK, nzSUSPECT, nzTEMP, nzRETIRED]

/-- The book without the marks of single nozzles: their states and suspect entries. -/
def Ledger.unmarked (l : Ledger) : Ledger := { l.book with nozzles := [], sus := [] }

section Triggers
variable {s x : State} {g n h m : Nat}

theorem cmds_of_unmarked {l k : Ledger} (h : l.unmarked = k.unmarked) : l.cmds = k.cmds := by
  have hcmds := congrArg Ledger.cmds h
  exact hcmds

theorem Upkeep.unmarked (hu : Upkeep s x) : x.ldg.unmarked = s.ldg.unmarked :=
  hu.field fun l => { l with nozzles := [], sus := [] }

theorem State.noz_setNoz (s : State) (g st eff : Nat) (hn : n < 32768) (hm : m < 32768) :
    (s.setNoz g n st eff).noz h m = if h = g ∧ m = n then st else s.noz h m := by
  rw [State.noz_of_nozzles (Upkeep.setNoz s g n st eff).nozzles]
  refine (AMap.get_put0 ..).trans ?_
  simp only [nozKey_eq_iff hm hn]
  rfl

theorem State.dropSuspect_noz (s : State) (g n : Nat) : (s.dropSuspect g n).noz h m = s.noz h m := by
  unfold State.dropSuspect
  split
  · rfl
  · exact State.noz_of_nozzles (Upkeep.setSuspect ..).nozzles ..

theorem State.setNoz_unmarked (s : State) (g n st eff : Nat) : (s.setNoz g n st eff).ldg.unmarked = s.ldg.unmarked :=
  (Upkeep.setNoz ..).unmarked

theorem State.dropSuspect_unmarked (s : State) (g n : Nat) : (s.dropSuspect g n).ldg.unmarked = s.ldg.unmarked := by
  unfold State.dropSuspect
  split
  · rfl
  · exact (Upkeep.setSuspect ..).unmarked

/-- A nozzle in a state that a trigger acts on takes its new state; any other nozzle stays as it is. -/
theorem State.noz_setNozIf {p : Prop} [Decidable p] (s : State) (g st eff : Nat) (hn : n < 32768) (hm : m < 32768) :
    (if p then s.setNoz g n st eff else s).noz h m = if h = g ∧ m = n then (if p then st else s.noz g n) else s.noz h m := by
  split
  · exact s.noz_setNoz g st eff hn hm
  · split
    · next heq => rw [heq.1, heq.2]
    · rfl

theorem State.noz_nozzleTrigger (s : State) (t : NozTrigger) (g : Nat) (hn : n < 32768) (hm : m < 32768) :
    (s.nozzleTrigger t g n).noz h m = if h = g ∧ m = n then t.after (s.noz g n) else s.noz h m := by
  have hretired : (if s.noz g n ≠ nzRETIRED then nzRETIRED else s.noz g n) = nzRETIRED := by
    split
    · rfl
    · next hst => exact not_not.mp hst
  cases t with
  | purge => exact State.noz_setNozIf s g _ _ hn hm
  | setTemp => exact State.noz_setNozIf s g _ _ hn hm
  | clearTemp => exact State.noz_setNozIf s g _ _ hn hm
  | retire => exact (State.noz_setNozIf s g _ _ hn hm).trans (by rw [hretired]; rfl)
  | secondHeater => exact (State.noz_setNozIf s g _ _ hn hm).trans (by rw [hretired]; rfl)
  | restore =>
    refine Eq.trans ?_ (State.noz_setNozIf (p := s.noz g n = nzRETIRED) s g nzOK s.effLine hn hm)
    unfold State.nozzleTrigger
    dsimp only
    split
    · exact State.dropSuspect_noz ..
    · rfl

theorem State.nozzleTrigger_unmarked (s : State) (t : NozTrigger) (g n : Nat) :
    (s.nozzleTrigger t g n).ldg.unmarked = s.ldg.unmarked := by
  cases t <;> simp only [State.nozzleTrigger] <;> split <;> simp only [State.dropSuspect_unmarked, State.setNoz_unmarked]

/-- A trigger for one nozzle after another. -/
def State.triggerAll (s : State) (t : NozTrigger) (l : List (Nat × Nat)) : State := l.foldl (fun s x => s.nozzleTrigger t x.1 x.2) s

theorem State.noz_triggerAll (t : NozTrigger) {l : List (Nat × Nat)} (hl : ∀ x ∈ l, x.2 < 32768) (hn : n < 32768) (s : State) :
    (s.triggerAll t l).noz g n = if (g, n) ∈ l then t.after (s.noz g n) else s.noz g n := by
  induction l generalizing s with
  | nil => rfl
  | cons x l ih =>
    have hx := hl x List.mem_cons_self
    refine (ih (fun y hy => hl y (List.mem_cons_of_mem _ hy)) (s.nozzleTrigger t x.1 x.2)).trans ?_
    rw [State.noz_nozzleTrigger s t x.1 hx hn]
    by_cases heq : g = x.1 ∧ n = x.2
    · have hmem : (g, n) ∈ x :: l := by rw [heq.1, heq.2]; exact List.mem_cons_self
      rw [if_pos heq, if_pos hmem, heq.1, heq.2, NozTrigger.after_after, ite_self]
    · have hne : (g, n) ≠ x := fun e => heq ⟨congrArg Prod.fst e, congrArg Prod.snd e⟩
      simp only [if_neg heq, List.mem_cons, hne, false_or]

theorem State.triggerAll_unmarked (s : State) (t : NozTrigger) (l : List (Nat × Nat)) :
    (s.triggerAll t l).ldg.unmarked = s.ldg.unmarked :=
  foldl_keeps (fun x : State => x.ldg.unmarked) (fun x _ => x.nozzleTrigger_unmarked ..) l s

theorem State.triggerAll_cmds (s : State) (t : NozTrigger) (l : List (Nat × Nat)) : (s.triggerAll t l).ldg.cmds = s.ldg.cmds :=
  cmds_of_unmarked (s.triggerAll_unmarked t l)

/-! #### A range of nozzles (R274) -/

theorem Upkeep.nozzleRange (s : State) (t : NozTrigger) (g first count : Nat) :
    Upkeep (s.triggerAll t (((List.range count).map (fun i => first + i)).map (fun n => (g, n)))) (s.nozzleRange t g first count) := by
  unfold State.nozzleRange State.triggerAll
  rw [List.foldl_map]
  exact Upkeep.remask ..

theorem State.noz_nozzleRange (s : State) (t : NozTrigger) {first count : Nat} (hrange : first + count ≤ 32768) (hn : n < 32768) :
    (s.nozzleRange t h first count).noz g n =
      if g = h ∧ first ≤ n ∧ n < first + count then t.after (s.noz g n) else s.noz g n := by
  have hmem : (g, n) ∈ ((List.range count).map (fun i => first + i)).map (fun n => (h, n)) ↔ g = h ∧ first ≤ n ∧ n < first + count := by
    simp only [List.mem_map, List.mem_range, Prod.mk.injEq]
    constructor
    · rintro ⟨_, ⟨i, hi, rfl⟩, rfl, rfl⟩
      omega
    · rintro ⟨rfl, hlow, hhigh⟩
      exact ⟨n, ⟨n - first, by omega, by omega⟩, rfl, rfl⟩
  rw [State.noz_of_nozzles (Upkeep.nozzleRange ..).nozzles, State.noz_triggerAll t ?_ hn]
  · simp only [hmem]
  · simp only [List.mem_map, List.mem_range]
    rintro x ⟨_, ⟨i, hi, rfl⟩, rfl⟩
    dsimp only
    omega

theorem State.nozzleRange_cmds (s : State) (t : NozTrigger) (g first count : Nat) :
    (s.nozzleRange t g first count).ldg.cmds = s.ldg.cmds :=
  (Upkeep.nozzleRange ..).cmds.trans (s.triggerAll_cmds ..)

/-- A range command (R244, R274). -/
theorem State.ldgRange_done {op : Nat} {c : LdgCmd} {cs : List LdgCmd} (t : NozTrigger) (hq : s.ldg.cmds = c :: cs) (hop : c.op = op)
    (hready : c.ready = true) (harg : 1 ≤ c.arg) (hrange : c.nozzle + c.arg ≤ 32768) (hnamed : ∀ x ∈ cs, 1 ≤ x.op ∧ x.op ≤ 9) :
    ∃ y : State, s.ldgRange op t = y ∧ y.trackIrq.ldg.cmds = cs ∧ y.trackIrq.get LDG_CMD_STATUS_RESULT = lrOK ∧
      ∀ g n, n < 32768 → y.trackIrq.noz g n =
        if g = c.tile ∧ c.nozzle ≤ n ∧ n < c.nozzle + c.arg then t.after (s.noz g n) else s.noz g n := by
  have hchecks : rangeCheck c = [] := if_neg (by omega)
  have hkept := s.nozzleRange_cmds t c.tile c.nozzle c.arg
  have hnoz := fun g n (hn : n < 32768) => s.noz_nozzleRange (g := g) (h := c.tile) t hrange hn
  generalize hact : s.nozzleRange t c.tile c.nozzle c.arg = y at *
  obtain ⟨hrun, hcs⟩ := State.ldgRun_done (act := fun s c => s.nozzleRange t c.tile c.nozzle c.arg) hact hq hop hready hchecks hnamed hkept
  exact ⟨_, hrun, hcs, y.ldgEnded_ok, fun g n hn => (y.noz_ldgEnded lrOK g n).trans (hnoz g n hn)⟩

end Triggers

/-- Settles O35: a write of LDG_CMD is queued (`State.ldgWrite_room`) or refused (`State.ldgWrite_badOp`), and a range command brings the
nozzles of its range to the states of its trigger (`State.ldgRange_done`). -/
theorem ledgerRangeCommands : Obligations.LedgerRangeCommands := by
  refine ⟨?queued, ?badOp, ?setTemp, ?clearTemp, ?retire, ?restore⟩
  case queued =>
    intro s req v hreq hrun hroom hlow hhigh hnamed
    have hnamed' : ∀ c ∈ (s.ldgQueued (s.ldgCommand v)).ldg.cmds, 1 ≤ c.op ∧ c.op ≤ 9 := by
      intro c hc
      rw [State.ldgQueued_ldg] at hc
      rcases List.mem_append.mp hc with hc | hc
      · exact hnamed c hc
      · rw [List.mem_singleton.mp hc]
        exact ⟨hlow, hhigh⟩
    have heff : s.reqWrite req LDG_CMD (fun s => s.ldgWrite v) = s.ldgQueued (s.ldgCommand v) := by
      rw [State.reqWrite_runs s req LDG_CMD _ (reaches_of_ne hreq _) hrun, State.ldgWrite_room v hroom, State.ldgDrain_named hnamed']
    have hdepth : (s.ldgQueued (s.ldgCommand v)).get LDG_CMD_STATUS_DEPTH = s.ldg.cmds.length + 1 := by
      refine (State.get_put_same _ _ _ rfl).trans ?_
      rw [State.setLdg_ldg, List.length_append, List.length_singleton]
      exact Nat.mod_eq_of_lt (show _ < 128 by omega)
    have hside := LedgerSide.ldgQueued s (s.ldgCommand v)
    have hkeeps := Keeps.ldgQueued s (s.ldgCommand v) [LDG_CMD_STATUS] List.mem_cons_self
    exact ⟨_, congrArg finish heff, (State.trackIrq_ldg ..).trans (s.ldgQueued_ldg _), (State.get_trackIrq ..).trans hdepth,
      hside.alters_ledger (s.ldgQueued_heads _) hkeeps⟩
  case badOp =>
    intro s req v hreq hrun hempty hready hop
    have hnone : ¬(1 ≤ (s.ldgCommand v).op ∧ (s.ldgCommand v).op ≤ 9) := by
      dsimp only [State.ldgCommand]
      omega
    have heff : s.reqWrite req LDG_CMD (fun s => s.ldgWrite v) = (s.ldgQueued (s.ldgCommand v)).ldgDone (s.ldgCommand v) lrBAD_OP := by
      rw [State.reqWrite_runs s req LDG_CMD _ (reaches_of_ne hreq _) hrun, State.ldgWrite_badOp hempty hready hnone]
    rw [State.ldgDone_refused _ _ (by decide)] at heff
    have hregs := RegsOnly.ldgRefused hempty (s.ldgCommand v) lrBAD_OP
    have hkeeps := (Keeps.ldgQueued s (s.ldgCommand v) ([LDG_CMD_STATUS, LDG_IRQ_CAUSE] ++ evtRegs) (by simp)).ldgEnded lrBAD_OP (by simp)
    have hres := (s.ldgQueued (s.ldgCommand v)).ldgEnded_result (res := lrBAD_OP) (by decide)
    have hcount : ((s.ldgQueued (s.ldgCommand v)).ldgEnded lrBAD_OP).get LDG_CMD_STATUS_DONE = (s.get LDG_CMD_STATUS_DONE + 1) % 65536 :=
      (State.ldgEnded_count ..).trans (by rw [State.ldgQueued, State.ldgDepth, State.get_put_apart _ _ _ _ rfl (by decide)]; rfl)
    generalize (s.ldgQueued (s.ldgCommand v)).ldgEnded lrBAD_OP = x at *
    refine ⟨_, congrArg finish heff, ?_, ?_, ?_, ?_, Touches.mk' ?_ ?_⟩
    · rw [State.trackIrq_ldg, State.ldg_report, hregs]
    · rw [State.get_trackIrq, State.get_report _ _ _ _ rfl (by decide) (by decide), hres]
    · rw [State.get_trackIrq, State.get_report _ _ _ _ rfl (by decide) (by decide), hcount]
    · exact (Posts.report _ _ _ _ (HeadRegs.of_regsOnly hregs) (hkeeps _ (by decide)) (by decide)).trackIrq
    · rw [State.hidden_report, hregs.hidden]
    · exact hkeeps.report _ _ _ _ (by simp [LDG_IRQ_CAUSE_CMD_REFUSED])
  case setTemp =>
    intro s c cs hq hop hready harg hrange hnamed
    obtain ⟨y, heff, hcs, hres, hnoz⟩ := State.ldgRange_done .setTemp hq hop hready harg hrange hnamed
    exact ⟨_, congrArg finish heff, hcs, hres, fun g n hn => (hnoz g n hn).trans (by simp only [NozTrigger.after, ite_and])⟩
  case clearTemp =>
    intro s c cs hq hop hready harg hrange hnamed
    obtain ⟨y, heff, hcs, hres, hnoz⟩ := State.ldgRange_done .clearTemp hq hop hready harg hrange hnamed
    exact ⟨_, congrArg finish heff, hcs, hres, fun g n hn => (hnoz g n hn).trans (by simp only [NozTrigger.after, ite_and])⟩
  case retire =>
    intro s c cs hq hop hready harg hrange hnamed
    obtain ⟨y, heff, hshows⟩ := State.ldgRange_done .retire hq hop hready harg hrange hnamed
    exact ⟨_, congrArg finish heff, hshows⟩
  case restore =>
    intro s c cs hq hop hready harg hrange hnamed
    obtain ⟨y, heff, hcs, hres, hnoz⟩ := State.ldgRange_done .restore hq hop hready harg hrange hnamed
    exact ⟨_, congrArg finish heff, hcs, hres, fun g n hn => (hnoz g n hn).trans (by simp only [NozTrigger.after, ite_and])⟩

end Sys2Proof.Machine

namespace Sys2Proof.Machine

/-! ### An event among what a command posts (R75, R82) -/

section PostsSome
variable {s x y : State} {c u : Nat}

/-- With the internal queue full an entry is dropped. -/
theorem State.evtPost_full (e : EvtEntry) (hrun : s.islandRuns 1 = true) (hlink : s.hif.linkUp = true)
    (hfull : 256 ≤ s.hif.evtQueue.length) : (s.evtPost e).hif.evtQueue = s.hif.evtQueue := by
  have hne : s.hif.evtQueue ≠ [] := fun h => by simp [h] at hfull
  unfold State.evtPost
  rw [if_neg (not_not_intro hrun), if_neg (not_not_intro hlink)]
  dsimp only
  rw [if_neg fun h => hne h.2, if_neg (by omega), State.evtDrop, State.cause_hif, State.addSat_hif]
  rfl

/-- An event after which the host interface stays as it is. -/
theorem PostsSome.of_event (p : List Nat) (hgo : GoesOn s x) (hisland : x.rget (RST_ISLAND 1) = s.rget (RST_ISLAND 1))
    (hc : c ≠ Ev.EVT_LOST) (hy : y.hif = (x.event c u p).hif) : PostsSome s y c u := by
  intro hrun hlink hroom
  have hrun' : x.islandRuns 1 = true := (State.islandRuns_congr s x 1 hisland).trans hrun
  have hlink' : x.hif.linkUp = true := hgo.linkUp.trans hlink
  have hqueue : x.hif.evtQueue.length < 256 := by
    by_contra hfull
    rw [hy, State.event, State.evtPost_full _ hrun' hlink' (by omega)] at hroom
    exact hfull hroom
  obtain ⟨e, he, htyp, hcode, hunit, -, hseq, -⟩ := x.evtPost_mem (x.entry 1 c 0xFF 0 0 u p) ⟨hrun', hlink', hqueue⟩ hc
  have hnext : y.hif.evtNext = x.hif.evtNext + 1 := by rw [hy, State.event, State.evtPost_next, if_pos ⟨hrun', hlink'⟩]
  refine ⟨e, ?_, htyp, hcode, hunit, _, hgo.next, by omega, hseq⟩
  rwa [State.evtEntries, hy]

theorem PostsSome.trackIrq (h : PostsSome s y c u) : PostsSome s y.trackIrq c u := h

end PostsSome

/-! ### Evidence and purges (R244 to R246) -/

section Evidence
variable {s : State} {g n i : Nat}

/-- A nozzle's first evidence: its suspect entry, counted in its tile's record. -/
def State.firstSuspicion (s : State) (g n i : Nat) : State :=
  let s1 := (s.setLdg { s.ldg with susFull := false }).setSuspect i (some { g := g, n := n, count := 1, first := s.ldg.metres })
  s1.setRec g { s1.trec g with suspicions := min 0xFFFFFFFF ((s1.trec g).suspicions + 1) }

theorem State.evidence_first {line : Nat} (hok : s.noz g n = nzOK) (hafter : s.afterPurge g line = true)
    (hnone : s.suspectOf g n = none) (hfree : s.freeSuspect = some i) (hk : 2 ≤ s.suspectK) :
    s.evidence g n line = ((s.firstSuspicion g n i).setNoz g n nzSUSPECT s.effLine).remask g [n / 8] [] := by
  have hsuspect : s.suspect g n =
      ((s.setLdg { s.ldg with susFull := false }).setSuspect i (some { g := g, n := n, count := 1, first := s.ldg.metres }), 1) := by
    unfold State.suspect
    rw [hnone, hfree]
  unfold State.evidence
  rw [if_neg (by simp [hok, hafter]), hsuspect]
  exact if_neg (show ¬s.suspectK ≤ 1 by omega)

theorem State.firstSuspicion_kept (s : State) (g n i : Nat) :
    (s.firstSuspicion g n i).ldg.nozzles = s.ldg.nozzles ∧ (s.firstSuspicion g n i).ldg.cmds = s.ldg.cmds := by
  have hentry := Upkeep.setSuspect (s.setLdg { s.ldg with susFull := false }) i
    (some { g := g, n := n, count := 1, first := s.ldg.metres })
  unfold State.firstSuspicion
  generalize (s.setLdg { s.ldg with susFull := false }).setSuspect i _ = x at *
  have hrec := Upkeep.setRec x g { x.trec g with suspicions := min 0xFFFFFFFF ((x.trec g).suspicions + 1) }
  exact ⟨hrec.nozzles.trans hentry.nozzles, hrec.cmds.trans hentry.cmds⟩

/-- Evidence that opens a nozzle's suspect entry makes the nozzle SUSPECT. -/
theorem State.evidence_suspects {line : Nat} (hn : n < 32768) (hok : s.noz g n = nzOK) (hafter : s.afterPurge g line = true)
    (hnone : s.suspectOf g n = none) (hfree : s.freeSuspect = some i) (hk : 2 ≤ s.suspectK) :
    (s.evidence g n line).ldg.cmds = s.ldg.cmds ∧
      ∀ h m, m < 32768 → (s.evidence g n line).noz h m = if h = g ∧ m = n then nzSUSPECT else s.noz h m := by
  obtain ⟨hnozzles, hcmds⟩ := s.firstSuspicion_kept g n i
  rw [State.evidence_first hok hafter hnone hfree hk]
  generalize s.firstSuspicion g n i = x at *
  have hmarked := Upkeep.setNoz x g n nzSUSPECT s.effLine
  have hnoz := fun h m (hm : m < 32768) => x.noz_setNoz (h := h) g nzSUSPECT s.effLine hn hm
  generalize x.setNoz g n nzSUSPECT s.effLine = y at *
  have hmasked := Upkeep.remask y g [n / 8] []
  refine ⟨hmasked.cmds.trans (hmarked.cmds.trans hcmds), fun h m hm => ?_⟩
  rw [State.noz_of_nozzles hmasked.nozzles, hnoz h m hm, State.noz_of_nozzles hnozzles]

/-- The keys of a plane's SUSPECT nozzles. -/
def State.suspectKeys (s : State) (q : Nat) : List Nat :=
  (s.ldg.nozzles.filter (fun e => e.1 / 32768 / 64 == q && e.2 == nzSUSPECT)).map (·.1)

theorem State.mem_suspectKeys {q : Nat} (hn : n < 32768) (hq : g / 64 = q) (hst : s.noz g n = nzSUSPECT) : nozKey g n ∈ s.suspectKeys q := by
  have hget : AMap.get s.ldg.nozzles (nozKey g n) nzOK = nzSUSPECT := hst
  have hmem : (nozKey g n, nzSUSPECT) ∈ s.ldg.nozzles := hget ▸ AMap.mem_of_get (d := nzOK) (by rw [hget]; decide)
  refine List.mem_map.mpr ⟨_, List.mem_filter.mpr ⟨hmem, ?_⟩, rfl⟩
  simp [nozKey_div hn, hq]

theorem State.plane_of_suspectKeys {q k : Nat} (h : k ∈ s.suspectKeys q) : k / 32768 / 64 = q := by
  obtain ⟨e, he, rfl⟩ := List.mem_map.mp h
  have hcond := (List.mem_filter.mp he).2
  simp only [Bool.and_eq_true, beq_iff_eq] at hcond
  exact hcond.1

/-- The effective line of a plane's PURGE_DONE. -/
def State.purgedAt (s : State) (q eff : Nat) : State := s.setLdg { s.ldg with purgeLine := s.ldg.purgeLine.set q (some eff) }

theorem Upkeep.purgePlane (s : State) (q eff : Nat) :
    Upkeep ((s.purgedAt q eff).triggerAll .purge ((s.suspectKeys q).map (fun k => (k / 32768, k % 32768)))) (s.purgePlane q eff) := by
  unfold State.purgePlane State.triggerAll
  rw [List.foldl_map]
  exact Upkeep.foldl (fun _ _ => Upkeep.remask ..) _ _

theorem State.noz_purgePlane (s : State) (q eff : Nat) (hn : n < 32768) :
    (s.purgePlane q eff).noz g n = if g / 64 = q then NozTrigger.purge.after (s.noz g n) else s.noz g n := by
  have hmem : (g, n) ∈ (s.suspectKeys q).map (fun k => (k / 32768, k % 32768)) → g / 64 = q := fun h => by
    obtain ⟨k, hk, hkey⟩ := List.mem_map.mp h
    obtain ⟨rfl, -⟩ := Prod.mk.inj hkey
    exact State.plane_of_suspectKeys hk
  have hmiss : g / 64 = q → (g, n) ∉ (s.suspectKeys q).map (fun k => (k / 32768, k % 32768)) →
      NozTrigger.purge.after (s.noz g n) = s.noz g n := fun hq hnot => by
    refine if_neg fun hst => hnot (List.mem_map.mpr ⟨_, State.mem_suspectKeys hn hq hst, ?_⟩)
    rw [nozKey_div hn, nozKey_mod hn]
  have hkeys : ∀ x ∈ (s.suspectKeys q).map (fun k => (k / 32768, k % 32768)), x.2 < 32768 := fun x hx => by
    obtain ⟨k, -, rfl⟩ := List.mem_map.mp hx
    exact Nat.mod_lt _ (by decide)
  have hsame : (s.purgedAt q eff).noz g n = s.noz g n := rfl
  rw [State.noz_of_nozzles (Upkeep.purgePlane s q eff).nozzles, State.noz_triggerAll _ hkeys hn, hsame]
  split
  · next hin => rw [if_pos (hmem hin)]
  · next hout =>
    split
    · next hq => exact (hmiss hq hout).symm
    · rfl

theorem State.purgePlane_cmds (s : State) (q eff : Nat) : (s.purgePlane q eff).ldg.cmds = s.ldg.cmds :=
  (Upkeep.purgePlane s q eff).cmds.trans ((s.purgedAt q eff).triggerAll_cmds ..)

theorem State.noz_purgePlanes (eff : Nat) (hn : n < 32768) (l : List Nat) (s : State) :
    (l.foldl (fun a q => a.purgePlane q eff) s).noz g n = if g / 64 ∈ l then NozTrigger.purge.after (s.noz g n) else s.noz g n := by
  induction l generalizing s with
  | nil => rfl
  | cons q l ih =>
    refine (ih (s.purgePlane q eff)).trans ?_
    rw [State.noz_purgePlane s q eff hn]
    by_cases hq : g / 64 = q
    · rw [if_pos hq, NozTrigger.after_after, ite_self, if_pos (List.mem_cons.mpr (.inl hq))]
    · rw [if_neg hq]
      simp only [List.mem_cons, hq, false_or]

end Evidence

/-! ### A tile's record -/

theorem State.trec_setRec (s : State) (g : Nat) (r : TileRec) : (s.setRec g r).trec g = r := by
  rw [State.trec_of_recs (Upkeep.setRec s g r).recs]
  exact AMap.get_set_same ..

/-! ### Sweeps, adoption and baselines (R235, R240, R264) -/

section Tiles
variable {s : State} {g : Nat}

/-- A sweep that has started, as it is shown. -/
def State.sweepShown (s : State) (w : SweepRun) (planes : Nat) : State :=
  (((s.setLdg { s.ldg with sweep := some w }).putB LDG_STATUS_SWEEP_BUSY true).put LDG_SWEEP_STATUS_PLANES planes).putB
    LDG_SWEEP_STATUS_RUNNING true

/-- The tiles that a sweep of some planes asks: those present whose declaration is good. -/
def State.sweepTargets (s : State) (planes : Nat) : List MapEntry :=
  s.entries.filter (fun e => bit planes (e.g / 64) && s.slotPresent e.port e.slot && !s.on (HLK_SLOT_STATUS_DECL_BAD e.port e.slot))

/-- A sweep at its start. -/
def State.sweepRecord (s : State) (planes : Nat) : SweepRun :=
  { planes := planes, opens := 0, shorts := 0, drift := 0, limit := 0, start := s.time.cyc,
    tiles := (s.sweepTargets planes).map (fun e => { g := e.g, port := e.port, slot := e.slot, got := [], naks := 0, failed := false }) }

theorem HeadOnly.sweepStart (s : State) (planes : Nat) :
    HeadOnly (s.sweepShown (s.sweepRecord planes) planes) (s.sweepStart planes) :=
  HeadOnly.foldl (fun y (e : MapEntry) => HeadOnly.sendNow y e.port e.slot opRES_SWEEP (sweepPayload 0 65536)) (s.sweepTargets planes) _

theorem LedgerSide.sweepShown (s : State) (w : SweepRun) (planes : Nat) : LedgerSide s (s.sweepShown w planes) :=
  (LedgerSide.setLdg s { s.ldg with sweep := some w }).trans (LedgerSide.of_regsOnly ((((RegsOnly.refl _).putB _ _).put _ _).putB _ _))

theorem Keeps.sweepShown (s : State) (w : SweepRun) (planes : Nat) : Keeps s (s.sweepShown w planes) [LDG_STATUS, LDG_SWEEP_STATUS] :=
  (((show Keeps s (s.setLdg { s.ldg with sweep := some w }) _ from Keeps.refl s _).putB LDG_STATUS_SWEEP_BUSY true (by decide)).put
    LDG_SWEEP_STATUS_PLANES planes (by decide)).putB LDG_SWEEP_STATUS_RUNNING true (by decide)

theorem State.sweepShown_ldg (s : State) (w : SweepRun) (planes : Nat) : (s.sweepShown w planes).ldg = { s.ldg with sweep := some w } := by
  rw [State.sweepShown, State.putB_ldg, State.put_ldg, State.putB_ldg, State.setLdg_ldg]

theorem State.sweepShown_shows (s : State) (w : SweepRun) {planes : Nat} (hplanes : planes < 256) :
    (s.sweepShown w planes).on LDG_STATUS_SWEEP_BUSY = true ∧ (s.sweepShown w planes).on LDG_SWEEP_STATUS_RUNNING = true ∧
      (s.sweepShown w planes).get LDG_SWEEP_STATUS_PLANES = planes := by
  unfold State.sweepShown
  refine ⟨?_, State.on_putB_same _ _ _ rfl, ?_⟩
  · rw [State.on_putB_apart _ _ _ _ rfl (by decide), State.on_put_apart _ _ _ _ rfl (by decide), State.on_putB_same _ _ _ rfl]
  · rw [State.get_putB_apart _ _ _ _ rfl (by decide), State.get_put_same _ _ _ rfl]
    exact Nat.mod_eq_of_lt hplanes

theorem HeadOnly.sendTrims (s : State) (g : Nat) (cols : List Nat) : HeadOnly s (s.sendTrims g cols) := by
  unfold State.sendTrims
  split
  · exact HeadOnly.refl s
  · exact HeadOnly.foldl (fun _ _ => HeadOnly.foldl (fun _ _ => HeadOnly.sendNow ..) _ _) _ _

/-- After REBASE the tile's baseline is not valid and it has no trims. -/
theorem State.rebase_shows (s : State) (g : Nat) :
    (s.rebase g).ldg.cmds = s.ldg.cmds ∧ ((s.rebase g).trec g).baseValid = false ∧ ∀ e ∈ (s.rebase g).ldg.trims, e.1 / 65536 ≠ g := by
  have hrec := Upkeep.setRec s g { s.trec g with baseValid := false }
  have hnow := State.trec_setRec s g { s.trec g with baseValid := false }
  unfold State.rebase
  dsimp only
  generalize s.setRec g { s.trec g with baseValid := false } = x at *
  have hsend := (Upkeep.refl _).headOnly
    (HeadOnly.sendTrims (x.setLdg { x.ldg with trims := x.ldg.trims.filter (fun e => !(e.1 / 65536 == g)) }) g
      ((s.ldg.trims.filter (fun e => e.1 / 65536 == g && e.2 != 0)).map (fun e => e.1 % 65536 / 16)).eraseDups)
  generalize (x.setLdg _).sendTrims g _ = y at *
  refine ⟨hsend.cmds.trans hrec.cmds, ?_, fun e he => ?_⟩
  · rw [State.trec_of_recs (s := x) hsend.recs, hnow]
  · rw [hsend.trims] at he
    simpa using (List.mem_filter.mp he).2

/-! #### Adoption -/

/-- The ledger without the marks, heaters, trims and codes of a position's old tile. -/
def Ledger.vacated (l : Ledger) (g : Nat) : Ledger :=
  { l with
    nozzles := l.nozzles.filter (fun e => !(e.1 / 32768 == g))
    heaters := l.heaters.filter (fun e => !(e.1 / 65536 == g))
    trims := l.trims.filter (fun e => !(e.1 / 65536 == g))
    codes := l.codes.filter (fun e => !(e.1 / 65536 == g))
    exc := l.exc.filter (fun e => !(e.2.g == g))
    sus := l.sus.filter (fun e => !(e.2.g == g))
    unadopted := l.unadopted.filter (fun x => x != g) }

/-- The record of an adopted tile. -/
def adoptedRec (d : DescBits) (metres : Nat) : TileRec :=
  { TileRec.reset with used := true, ident := declIdent d, rNom := declRNom d, adopted := metres }

/-- An adoption up to its event: the position is vacated, the words `as` of the ledger change, the tile's record and the masks of its columns
are new. -/
def State.adopting (s : State) (g : Nat) (d : DescBits) (as cols : List Nat) : State :=
  (((as.foldl (fun s a => s.touch a none) (s.setLdg (s.ldg.vacated g))).setRec g (adoptedRec d s.ldg.metres)).remask g cols []).zeroColumns g

theorem State.adoptTile_eq (s : State) (g : Nat) (d : DescBits) : ∃ (as cols p : List Nat) (n : Nat),
    HeadOnly (((s.adopting g d as cols).report Ev.TILE_ADOPTED g p LDG_IRQ_CAUSE_TILE).put LDG_STATUS_UNADOPTED n) (s.adoptTile g d) := by
  unfold State.adoptTile
  generalize List.range 4096 = cols
  extract_lets inG nz ex su old l s1 s2 r s3 s4 s5 s6
  refine ⟨_, cols, _, _, show HeadOnly s6 _ from ?_⟩
  split
  · exact HeadOnly.refl s6
  · exact HeadOnly.setCtl ..

theorem Upkeep.zeroColumns (s : State) (g : Nat) : Upkeep s (s.zeroColumns g) := Upkeep.of_records rfl rfl rfl

/-- An adoption before the tile's record is new. -/
theorem Upkeep.adopting (s : State) (g : Nat) (d : DescBits) (as cols : List Nat) :
    ∃ x, Upkeep (s.setLdg (s.ldg.vacated g)) x ∧ Upkeep (x.setLdg { x.ldg with recs := x.ldg.recs.set g (adoptedRec d s.ldg.metres) })
      (s.adopting g d as cols) :=
  ⟨_, Upkeep.touchAll as _, ((Upkeep.setRec ..).trans (Upkeep.remask ..)).trans (Upkeep.zeroColumns ..)⟩

theorem State.adopting_shows (s : State) (g : Nat) (d : DescBits) (as cols : List Nat) :
    (s.adopting g d as cols).ldg.cmds = s.ldg.cmds ∧ (s.adopting g d as cols).trec g = adoptedRec d s.ldg.metres ∧
      (s.adopting g d as cols).ldg.nozzles = s.ldg.nozzles.filter (fun e => !(e.1 / 32768 == g)) := by
  obtain ⟨x, hvacated, hnew⟩ := Upkeep.adopting s g d as cols
  refine ⟨hnew.cmds.trans hvacated.cmds, ?_, hnew.nozzles.trans hvacated.nozzles⟩
  rw [State.trec_of_recs hnew.recs]
  exact AMap.get_set_same ..

theorem GoesOn.adopting (s : State) (g : Nat) (d : DescBits) (as cols : List Nat) : GoesOn s (s.adopting g d as cols) := by
  obtain ⟨x, hvacated, hnew⟩ := Upkeep.adopting s g d as cols
  have hrec := (GoesOn.of_hif (State.setLdg_hif x _)).trans hnew.toGoesOn
  exact ((GoesOn.of_hif (State.setLdg_hif s _)).trans hvacated.toGoesOn).trans hrec

theorem Extends.adopting (s : State) (g : Nat) (d : DescBits) (as cols : List Nat) : Extends ledgerWrites s (s.adopting g d as cols) :=
  (((((Extends.refl s).setLdg _).touchAll as).setRec g _).remask g cols []).zeroColumns g

theorem ledgerWrites.not_island : ¬ledgerWrites (RST_ISLAND 1) := by
  rintro (hevt | hledger)
  · exact absurd hevt (by decide)
  · exact absurd hledger (by decide)

/-- The declared tile is the position's: its record is new, its nozzles are all OK, and no other position changes. -/
theorem State.adoptTile_shows (s : State) (g : Nat) (d : DescBits) :
    (s.adoptTile g d).ldg.cmds = s.ldg.cmds ∧ (s.adoptTile g d).trec g = adoptedRec d s.ldg.metres ∧
      (∀ n, n < 32768 → (s.adoptTile g d).noz g n = nzOK) ∧
      (∀ h n, h ≠ g → n < 32768 → (s.adoptTile g d).noz h n = s.noz h n) ∧
      ∀ y : State, y.hif = (s.adoptTile g d).hif → PostsSome s y Ev.TILE_ADOPTED g := by
  obtain ⟨as, cols, p, n, hhead⟩ := s.adoptTile_eq g d
  obtain ⟨hcmds, htrec, hnozzles⟩ := s.adopting_shows g d as cols
  have hgo := GoesOn.adopting s g d as cols
  have hisland := (Extends.adopting s g d as cols).rget _ ledgerWrites.not_island
  generalize s.adopting g d as cols = x at *
  generalize s.adoptTile g d = t at *
  have hldg : t.ldg = x.ldg := by rw [hhead, State.setHeads_ldg, State.put_ldg, State.ldg_report]
  have hhif : t.hif = (x.event Ev.TILE_ADOPTED g p).hif := by
    rw [hhead, State.setHeads_hif, State.put_hif, State.report, State.cause_hif]
  have hnoz : ∀ h m, t.noz h m = AMap.get (s.ldg.nozzles.filter (fun e => !(e.1 / 32768 == g))) (nozKey h m) nzOK := fun h m => by
    rw [State.noz, hldg, hnozzles]
  refine ⟨by rw [hldg, hcmds], ?_, fun m hm => ?_, fun h m hh hm => ?_, fun y hy => ?_⟩
  · rw [State.trec_of_recs (congrArg Ledger.recs hldg), htrec]
  · rw [hnoz, AMap.get_filter_none]
    simp [nozKey_div hm]
  · rw [hnoz, AMap.get_filter _ (by simp [nozKey_div hm, hh]), ← State.noz]
  · exact PostsSome.of_event p hgo hisland (by decide) (hy.trans hhif)

end Tiles

/-- Settles O36: each command is its action on the book (`State.evidence_suspects`, `State.noz_purgePlanes`, `State.sweepShown_shows`,
`State.adoptTile_shows`, `State.rebase_shows`) and ends as `State.ldgRun_done` says. -/
theorem ledgerCommands : Obligations.LedgerCommands := by
  refine ⟨?suspected, ?ignored, ?purged, ?swept, ?adopted, ?rebased⟩
  case suspected =>
    intro s c i hq hop hready hn hok hafter hnone hfree hk
    obtain ⟨hcmds, hnoz⟩ := State.evidence_suspects hn hok hafter hnone hfree hk
    generalize hact : s.evidence c.tile c.nozzle (s.observedLine c.arg) = y at *
    obtain ⟨hrun, hcs⟩ := State.ldgRun_done (act := fun s c => s.evidence c.tile c.nozzle (s.observedLine c.arg)) (checks := fun _ => [])
      hact hq hop hready rfl (by simp) hcmds
    exact ⟨_, congrArg finish hrun, hcs, y.ldgEnded_ok,
      fun g n hn => (y.noz_ldgEnded lrOK g n).trans (hnoz g n hn)⟩
  case ignored =>
    intro s c hq hop hready hbad
    have hact : s.evidence c.tile c.nozzle (s.observedLine c.arg) = s.addSat LDG_EVID_IGNORED_COUNT 1 := if_pos (by simp [hbad])
    have hcount := s.get_addSat_same LDG_EVID_IGNORED_COUNT 1 rfl
    have hregs := (RegsOnly.refl s).addSat LDG_EVID_IGNORED_COUNT 1
    have hkeeps := (Keeps.refl s [LDG_EVID_IGNORED, LDG_CMD_STATUS]).addSat LDG_EVID_IGNORED_COUNT 1 List.mem_cons_self
    generalize s.addSat LDG_EVID_IGNORED_COUNT 1 = x at *
    obtain ⟨hrun, -⟩ := State.ldgRun_done (act := fun s c => s.evidence c.tile c.nozzle (s.observedLine c.arg)) (checks := fun _ => [])
      hact hq hop hready rfl (by simp) (by rw [hregs])
    have hldg : (x.ldgEnded lrOK).trackIrq.ldg = { s.ldg with cmds := [] } := by
      rw [State.trackIrq_ldg, State.ldgEnded_ldg, hregs, hq]
      rfl
    exact ⟨_, congrArg finish hrun, hldg, (State.get_trackIrq ..).trans ((x.get_ldgEnded lrOK (by decide)).trans hcount),
      ((LedgerSide.of_regsOnly hregs).trans (LedgerSide.ldgEnded ..)).alters_ledger (by rw [State.ldgEnded_heads, hregs])
        (hkeeps.ldgEnded lrOK (by decide))⟩
  case purged =>
    intro s c hq hop hready
    have hcmds : (((List.range 8).filter (fun q => bit c.arg q)).foldl (fun a q => a.purgePlane q s.effLine) s).ldg.cmds = s.ldg.cmds :=
      foldl_keeps (fun x : State => x.ldg.cmds) (fun x q => x.purgePlane_cmds q s.effLine) _ s
    have hnoz := fun g n (hn : n < 32768) =>
      State.noz_purgePlanes (g := g) s.effLine hn ((List.range 8).filter (fun q => bit c.arg q)) s
    generalize hact : ((List.range 8).filter (fun q => bit c.arg q)).foldl (fun a q => a.purgePlane q s.effLine) s = y at *
    obtain ⟨hrun, hcs⟩ := State.ldgRun_done (checks := fun _ => []) (act := fun s c =>
      ((List.range 8).filter (fun q => bit c.arg q)).foldl (fun a q => a.purgePlane q s.effLine) s) hact hq hop hready rfl (by simp) hcmds
    refine ⟨_, congrArg finish hrun, hcs, y.ldgEnded_ok, fun g n hg hn => ?_⟩
    have hplane : g / 64 ∈ (List.range 8).filter (fun q => bit c.arg q) ↔ bit c.arg (g / 64) = true := by
      rw [List.mem_filter, List.mem_range, and_iff_right (show g / 64 < 8 by omega)]
    refine ((y.noz_ldgEnded lrOK g n).trans (hnoz g n hn)).trans ?_
    simp only [hplane, NozTrigger.after, ite_and]
  case swept =>
    intro s c hq hop hready hok
    have hhead := HeadOnly.sweepStart s (c.arg % 256)
    have hstart : (s.sweepRecord (c.arg % 256)).start = s.time.cyc := rfl
    generalize s.sweepRecord (c.arg % 256) = w at *
    obtain ⟨hbusy, hrunning, hplanes⟩ := s.sweepShown_shows w (Nat.mod_lt c.arg (show 0 < 256 by decide))
    have hldg := s.sweepShown_ldg w (c.arg % 256)
    have hside := LedgerSide.sweepShown s w (c.arg % 256)
    have hkeeps := Keeps.sweepShown s w (c.arg % 256)
    generalize s.sweepShown w (c.arg % 256) = x at *
    have hldg' : (s.sweepStart (c.arg % 256)).ldg = { s.ldg with sweep := some w } := by rw [hhead]; exact hldg
    generalize hact : s.sweepStart (c.arg % 256) = y at *
    obtain ⟨hrun, hcs⟩ := State.ldgRun_done (act := fun s c => s.sweepStart (c.arg % 256))
      (checks := fun c => if s.sweepOk (c.arg % 256) then [] else [lrBUSY]) hact hq hop hready (if_pos hok) (by simp) (by rw [hldg'])
    have hshown : ∀ f : Fld, f.off ≠ LDG_CMD_STATUS → (y.ldgEnded lrOK).trackIrq.get f = x.get f := fun f hf =>
      (State.get_trackIrq ..).trans ((y.get_ldgEnded lrOK hf).trans (State.get_eq_of_rget _ _ _ (hhead.rget _)))
    have hsweep : (y.ldgEnded lrOK).trackIrq.ldg.sweep.map (·.start) = some s.time.cyc := by
      rw [State.trackIrq_ldg, State.ldgEnded_ldg, hldg']
      exact congrArg some hstart
    exact ⟨_, congrArg finish hrun, hcs, y.ldgEnded_ok,
      (State.on_eq_of_get _ _ _ (hshown _ (by decide))).trans hbusy, (State.on_eq_of_get _ _ _ (hshown _ (by decide))).trans hrunning,
      (hshown _ (by decide)).trans hplanes, hsweep,
      ((hside.trans (LedgerSide.of_headRegs (HeadRegs.of_headOnly hhead))).trans (LedgerSide.ldgEnded ..)).alters
        (((hhead.keeps hkeeps).mono (by simp)).ldgEnded lrOK (by decide))⟩
  case adopted =>
    intro s c d hq hop hready hjob hdecl
    obtain ⟨hcmds, htrec, hown, hothers, hposts⟩ := s.adoptTile_shows c.tile d
    generalize hadopt : s.adoptTile c.tile d = y at *
    obtain ⟨hrun, hcs⟩ := State.ldgRun_done (y := y)
      (act := fun s c => match s.declAt c.tile with | some d => s.adoptTile c.tile d | none => s)
      (checks := fun c => (if s.press.job.isSome then [lrBUSY] else []) ++ (if (s.declAt c.tile).isNone then [lrNO_DECL] else []))
      (by rw [hdecl]; exact hadopt) hq hop hready (by simp [hjob, hdecl]) (by simp) hcmds
    have hnew := (y.trec_ldgEnded lrOK c.tile).trans htrec
    exact ⟨_, congrArg finish hrun, hcs, y.ldgEnded_ok, congrArg TileRec.used hnew,
      congrArg TileRec.ident hnew, fun n hn => (y.noz_ldgEnded lrOK _ n).trans (hown n hn),
      fun g n hg hn => (y.noz_ldgEnded lrOK g n).trans (hothers g n hg hn), (hposts _ (y.ldgEnded_hif lrOK)).trackIrq⟩
  case rebased =>
    intro s c hq hop hready
    obtain ⟨hcmds, htrec, htrims⟩ := s.rebase_shows c.tile
    generalize hact : s.rebase c.tile = y at *
    obtain ⟨hrun, hcs⟩ := State.ldgRun_done (act := fun s c => s.rebase c.tile) (checks := fun _ => []) hact hq hop hready rfl (by simp) hcmds
    refine ⟨_, congrArg finish hrun, hcs, y.ldgEnded_ok, ?_, ?_⟩
    · rw [State.trec_ldgEnded, htrec]
    · rw [State.trackIrq_ldg, State.ldgEnded_ldg]
      exact htrims

end Sys2Proof.Machine

namespace Sys2Proof.Machine

/-! ### The course of a sweep (R236, R238, R239) -/

section Course
variable {s x : State}

/-- A packet on a port that is UP and has room is the last outstanding one (R192, R203). -/
theorem State.sendNow_outstanding {p slot op : Nat} (payload : List Byte) (hup : s.portUp p = true) (hactive : s.passive = false)
    (hroom : (s.port p).outstanding.length < 1024) (hp : p < s.heads.ports.length) :
    ((s.sendNow p slot op payload).port p).outstanding = (s.port p).outstanding ++
      [{ lsn := (s.port p).lsn, slot := slot, body := .ctl op (s.ctl p slot).cseq true 0 payload none, sent := 1, lastStatus := 0 }] := by
  have hup' : ∀ c : CtlSlot, (s.setCtl p slot c).portUp p = true := fun _ => hup
  have hroom' : ∀ c : CtlSlot, ((s.setCtl p slot c).port p).outstanding.length < 1024 := fun _ => hroom
  simp only [State.sendNow, State.sendCtl, State.sendPacket, hup, hup', hroom', State.maySend_of_active op hactive, not_true_eq_false,
    Bool.true_eq_false, or_self, if_false, if_true]
  rw [State.port_setPort_same _ (by exact hp)]
  rfl

/-! #### A code of a heater -/

/-- What the ledger knows by measurement: retired heaters, codes, and the running sweep. -/
def Ledger.measured (l : Ledger) : AMap Nat × AMap Nat × Option SweepRun := (l.heaters, l.codes, l.sweep)

theorem Upkeep.measured (h : Upkeep s x) : x.ldg.measured = s.ldg.measured := h.field Ledger.measured

theorem State.nozzleTrigger_measured (s : State) (t : NozTrigger) (g n : Nat) : (s.nozzleTrigger t g n).ldg.measured = s.ldg.measured := by
  have hmeasured := congrArg Ledger.measured (s.nozzleTrigger_unmarked t g n)
  exact hmeasured

/-- A heater that retires stays so, whatever becomes of its nozzle. -/
theorem State.retireHeater_measured (s : State) (g h cause : Nat) :
    (s.retireHeater g h cause).ldg.measured = (s.ldg.heaters.set (heatKey g h) cause, s.ldg.codes, s.ldg.sweep) := by
  unfold State.retireHeater
  extract_lets n other r old s1 i
  have hrec : s1.ldg.measured = (s.ldg.heaters.set (heatKey g h) cause, s.ldg.codes, s.ldg.sweep) := (Upkeep.setRec ..).measured
  rw [← hrec]
  split_ifs
  · exact (Upkeep.remask ..).measured.trans (s1.nozzleTrigger_measured ..)
  · exact ((Upkeep.touch ..).trans (Upkeep.remask ..)).measured

/-- An open code of a heater in service is counted, and the heater retires. -/
theorem State.classify_open {w : SweepRun} {g h c : Nat} (hsweep : s.ldg.sweep = some w) (hc : 3073 ≤ c) (hservice : s.heater g h = 0) :
    (s.classify g h c).ldg.measured =
      (s.ldg.heaters.set (heatKey g h) 1, s.ldg.codes.set (heatKey g h) c, some { w with opens := w.opens + 1 }) := by
  have hcount : ((s.setLdg { s.ldg with codes := s.ldg.codes.set (heatKey g h) c }).sweepCount fun w => { w with opens := w.opens + 1 }).ldg =
      { s.ldg with codes := s.ldg.codes.set (heatKey g h) c, sweep := some { w with opens := w.opens + 1 } } := by
    simp [State.sweepCount, hsweep]
  unfold State.classify
  dsimp only
  rw [if_pos hc, if_pos hservice, State.retireHeater_measured, hcount]

/-- A tile's first code is classified once its tile has the range; the sweep's counts are as before. -/
theorem State.resIn_first {p slot : Nat} {h : RepHdr} {w : SweepRun} {x : SweepTile} (c : Nat) (hsweep : (s.repIn p h).ldg.sweep = some w)
    (hfind : w.tiles.find? (fun t => t.port == p && t.slot == slot) = some x) (hgot : x.got = []) :
    ∃ tiles : SweepRun → List SweepTile,
      s.resIn p slot h 0 [c] = ((s.repIn p h).sweepCount fun w => { w with tiles := tiles w }).classify x.g 0 c := by
  have hnew : (List.range [c].length).filter (fun i => !x.measured (0 + i)) = [0] := by simp [SweepTile.measured, hgot]
  refine ⟨fun w => w.tiles.map (fun y => if y.g = x.g then
    { y with got := y.got ++ (colRuns ([0].map (fun i => (0 + i, 0)))).map (fun r => (r.1, r.2.length)) } else y), ?_⟩
  unfold State.resIn
  simp only [hsweep, hfind, hnew, Nat.not_lt_zero, if_false]
  rfl

/-- The first code of a tile in the sweep shows an open heater. -/
theorem State.resIn_open {p slot : Nat} {h : RepHdr} {w : SweepRun} {x : SweepTile} {c : Nat}
    (hseq : (s.port p).retLsn = none ∨ (s.port p).retLsn = some h.lsn.toNat) (hsweep : s.ldg.sweep = some w)
    (hfind : w.tiles.find? (fun t => t.port == p && t.slot == slot) = some x) (hgot : x.got = []) (hc : 3073 ≤ c)
    (hservice : s.heater x.g 0 = 0) :
    (s.resIn p slot h 0 [c]).heater x.g 0 = 1 ∧ (s.resIn p slot h 0 [c]).ldg.codes.get (heatKey x.g 0) 0 = c ∧
      (s.resIn p slot h 0 [c]).ldg.sweep.map (·.opens) = some (w.opens + 1) := by
  have hldg : (s.repIn p h).ldg = s.ldg := by rw [HeadOnly.repIn hseq, State.setHeads_ldg]
  obtain ⟨tiles, heq⟩ := State.resIn_first (s := s) c (hldg ▸ hsweep) hfind hgot
  have hcount : ((s.repIn p h).sweepCount fun w => { w with tiles := tiles w }).ldg =
      { s.ldg with sweep := some { w with tiles := tiles w } } := by
    simp [State.sweepCount, hldg, hsweep]
  rw [heq]
  generalize (s.repIn p h).sweepCount _ = y at *
  have hmeasured := State.classify_open (s := y) (g := x.g) (h := 0) (congrArg Ledger.sweep hcount) hc
    ((State.heater_of_heaters (s := s) (by rw [hcount]) x.g 0).trans hservice)
  obtain ⟨hheaters, hrest⟩ := Prod.mk.inj hmeasured
  obtain ⟨hcodes, hnow⟩ := Prod.mk.inj hrest
  refine ⟨?_, ?_, ?_⟩
  · rw [State.heater, hheaters, AMap.get_set_same]
  · rw [hcodes, AMap.get_set_same]
  · rw [hnow]
    rfl

/-! #### The end of a sweep -/

/-- What the ledger does on its own: its registers and events alone, and the link stays as it is. -/
structure LedgerActs (s x : State) : Prop extends GoesOn s x, Extends ledgerWrites s x

theorem LedgerActs.refl (s : State) : LedgerActs s s := ⟨GoesOn.refl s, Extends.refl s⟩

theorem LedgerActs.trans {y : State} (h : LedgerActs s x) (h' : LedgerActs x y) : LedgerActs s y :=
  ⟨h.toGoesOn.trans h'.toGoesOn, h.toExtends.trans h'.toExtends⟩

theorem LedgerActs.foldl {α : Type} {f : State → α → State} (hf : ∀ y a, LedgerActs y (f y a)) (l : List α) (s : State) :
    LedgerActs s (l.foldl f s) :=
  List.foldlRecOn (motive := LedgerActs s) l f (LedgerActs.refl s) fun y hy a _ => hy.trans (hf y a)

theorem LedgerActs.setLdg (s : State) (l : Ledger) : LedgerActs s (s.setLdg l) := ⟨GoesOn.of_hif rfl, (Extends.refl s).setLdg l⟩

theorem LedgerActs.setRec (s : State) (g : Nat) (r : TileRec) : LedgerActs s (s.setRec g r) :=
  ⟨(GoesOn.of_hif (s.setLdg_hif _)).trans (Upkeep.setRec s g r).toGoesOn, (Extends.refl s).setRec g r⟩

theorem LedgerActs.headOnly (h : HeadOnly s x) : LedgerActs s x := ⟨GoesOn.of_hif (HeadRegs.of_headOnly h).hif, Extends.of_headOnly h⟩

theorem LedgerActs.jrn (s : State) (r : JrnRec) : LedgerActs s (s.jrn r) := ⟨(Upkeep.jrn s r).toGoesOn, (Extends.refl s).jrn r⟩

theorem LedgerActs.report (s : State) (c u : Nat) (p : List Nat) {f : Fld} (hf : 0xC0000 ≤ f.off ∧ f.off < 0xD0000) :
    LedgerActs s (s.report c u p f) := ⟨(GoesOn.refl s).report c u p f, (Extends.refl s).ledgerReport c u p hf⟩

theorem LedgerActs.put (s : State) (f : Fld) (v : Nat) (hf : 0xC0000 ≤ f.off ∧ f.off < 0xD0000) : LedgerActs s (s.put f v) :=
  ⟨GoesOn.of_hif rfl, (Extends.refl s).put f v (.inr hf)⟩

theorem LedgerActs.sweepCount (s : State) (f : SweepRun → SweepRun) : LedgerActs s (s.sweepCount f) := by
  unfold State.sweepCount
  split
  · exact LedgerActs.refl s
  · exact LedgerActs.setLdg ..

theorem LedgerActs.baseline (s : State) (t : SweepTile) : LedgerActs s (s.baseline t) := by
  unfold State.baseline
  generalize List.range 65536 = heaters
  dsimp only
  split_ifs
  · exact LedgerActs.refl s
  · exact LedgerActs.report s _ _ _ (f := LDG_IRQ_CAUSE_TILE) (by decide)
  · exact (LedgerActs.setRec ..).trans (LedgerActs.report _ _ _ _ (f := LDG_IRQ_CAUSE_TILE) (by decide))

theorem LedgerActs.sweepTrims (s : State) (t : SweepTile) : LedgerActs s (s.sweepTrims t) := by
  unfold State.sweepTrims
  generalize List.range 65536 = heaters
  dsimp only
  split
  · exact LedgerActs.refl s
  · exact (((LedgerActs.setLdg ..).trans (LedgerActs.sweepCount ..)).trans
      (LedgerActs.foldl (fun _ _ => LedgerActs.jrn ..) _ _)).trans (LedgerActs.headOnly (HeadOnly.sendTrims ..))

/-- The registers of a sweep that has ended: `failed` tiles, and the counts of the run. -/
def State.sweepClosed (s : State) (failed : Nat) (w : SweepRun) : State :=
  ((((((s.putB LDG_STATUS_SWEEP_BUSY false).putB LDG_SWEEP_STATUS_RUNNING false).put LDG_SWEEP_STATUS_FAILED failed).put
    (LDG_SWEEP_COUNT_COUNT 0) w.opens).put (LDG_SWEEP_COUNT_COUNT 1) w.shorts).put (LDG_SWEEP_COUNT_COUNT 2) w.drift).put
    (LDG_SWEEP_COUNT_COUNT 3) w.limit

theorem LedgerActs.sweepClosed (s : State) (failed : Nat) (w : SweepRun) : LedgerActs s (s.sweepClosed failed w) :=
  ((((((LedgerActs.put s _ _ (by decide)).trans (LedgerActs.put _ _ _ (by decide))).trans (LedgerActs.put _ _ _ (by decide))).trans
    (LedgerActs.put _ _ _ (by decide))).trans (LedgerActs.put _ _ _ (by decide))).trans (LedgerActs.put _ _ _ (by decide))).trans
    (LedgerActs.put _ _ _ (by decide))

theorem State.sweepClosed_ldg (s : State) (failed : Nat) (w : SweepRun) : (s.sweepClosed failed w).ldg = s.ldg := by
  simp only [State.sweepClosed, State.put_ldg, State.putB_ldg]

/-- The counts and the number of failed tiles lie apart from a flag of the sweep. -/
theorem State.on_sweepClosed_flag (s : State) (failed : Nat) (w : SweepRun) {f : Fld} (hfailed : LDG_SWEEP_STATUS_FAILED.apart f)
    (hcounts : ∀ i < 4, (LDG_SWEEP_COUNT_COUNT i).apart f) : (s.sweepClosed failed w).on f =
      ((s.putB LDG_STATUS_SWEEP_BUSY false).putB LDG_SWEEP_STATUS_RUNNING false).on f := by
  unfold State.sweepClosed
  rw [State.on_put_apart _ _ _ _ rfl (hcounts 3 (by decide)), State.on_put_apart _ _ _ _ rfl (hcounts 2 (by decide)),
    State.on_put_apart _ _ _ _ rfl (hcounts 1 (by decide)), State.on_put_apart _ _ _ _ rfl (hcounts 0 (by decide)),
    State.on_put_apart _ _ _ _ rfl hfailed]

theorem State.sweepClosed_shows (s : State) (failed : Nat) (w : SweepRun) :
    (s.sweepClosed failed w).on LDG_STATUS_SWEEP_BUSY = false ∧ (s.sweepClosed failed w).on LDG_SWEEP_STATUS_RUNNING = false := by
  constructor
  · rw [State.on_sweepClosed_flag s failed w (by decide) (by decide), State.on_putB_apart _ _ _ _ rfl (by decide), State.on_putB_same _ _ _ rfl]
  · rw [State.on_sweepClosed_flag s failed w (by decide) (by decide), State.on_putB_same _ _ _ rfl]

/-- With no SWEEP run of the framework a sweep ends with its event. -/
theorem State.sweepFinish_eq {w : SweepRun} (hsweep : s.ldg.sweep = some w) (hcal : s.runState chSWEEP ≠ rsRUNNING) :
    ∃ (x : State) (l : Ledger) (failed : Nat) (w' : SweepRun) (p : List Nat), LedgerActs s x ∧ l.sweep = none ∧
      s.sweepFinish = ((x.setLdg l).sweepClosed failed w').report Ev.SWEEP_DONE 0xFFFF p LDG_IRQ_CAUSE_SWEEP_DONE := by
  unfold State.sweepFinish
  simp -zeta only [hsweep]
  extract_lets ts ok failed s1 s2 s3 w3 old s4 s5 s6 s7
  have hacts : LedgerActs s s3 := ((LedgerActs.foldl (fun _ _ => LedgerActs.setRec ..) _ s).trans
    (LedgerActs.foldl (fun _ _ => LedgerActs.baseline ..) _ _)).trans (LedgerActs.foldl (fun _ _ => LedgerActs.sweepTrims ..) _ _)
  have hclosed : LedgerActs s s7 := ((hacts.trans (LedgerActs.setLdg s3 _)).trans (LedgerActs.sweepClosed s4 failed.length w3)).trans
    (LedgerActs.report s6 _ _ _ (f := LDG_IRQ_CAUSE_SWEEP_DONE) (by decide))
  have hidle : s7.runState chSWEEP ≠ rsRUNNING := by
    rw [State.runState, hclosed.get _ (by rintro (h | h) <;> exact absurd h (by decide)), ← State.runState]
    exact hcal
  rw [if_neg hidle]
  refine ⟨s3, _, failed.length, w3, _, hacts, ?_, rfl⟩
  rfl

/-- A sweep that ends is over, shown so, and reported. -/
theorem State.sweepFinish_shows {w : SweepRun} (hsweep : s.ldg.sweep = some w) (hcal : s.runState chSWEEP ≠ rsRUNNING) :
    s.sweepFinish.ldg.sweep = none ∧ s.sweepFinish.on LDG_STATUS_SWEEP_BUSY = false ∧
      s.sweepFinish.on LDG_SWEEP_STATUS_RUNNING = false ∧ PostsSome s s.sweepFinish Ev.SWEEP_DONE 0xFFFF := by
  obtain ⟨x, l, failed, w', p, hacts, hl, heq⟩ := State.sweepFinish_eq hsweep hcal
  obtain ⟨hbusy, hrunning⟩ := (x.setLdg l).sweepClosed_shows failed w'
  have hclosed := (hacts.trans (LedgerActs.setLdg x l)).trans (LedgerActs.sweepClosed _ failed w')
  have hldg := ((x.setLdg l).sweepClosed_ldg failed w').trans (x.setLdg_ldg l)
  rw [heq]
  generalize (x.setLdg l).sweepClosed failed w' = y at *
  have hon : ∀ f : Fld, LDG_IRQ_CAUSE_SWEEP_DONE.off ≠ f.off → f.off ∉ evtRegs → y.on f = false →
      (y.report Ev.SWEEP_DONE 0xFFFF p LDG_IRQ_CAUSE_SWEEP_DONE).on f = false := fun f hoff hevt hf =>
    (State.on_eq_of_get _ _ _ (y.get_report _ _ _ rfl hoff hevt)).trans hf
  refine ⟨?_, hon _ (by decide) (by decide) hbusy, hon _ (by decide) (by decide) hrunning, ?_⟩
  · rw [State.ldg_report, hldg, hl]
  · exact PostsSome.of_event p hclosed.toGoesOn (hclosed.rget _ ledgerWrites.not_island) (by decide) (State.cause_hif ..)

end Course
end Sys2Proof.Machine

namespace Sys2Proof.Machine

/-! ### Held mask changes (R257) -/

section Held
variable {s : State} {x : MaskChange}

theorem State.columnEvent_ldg (s : State) (g c m : Nat) (dead : Bool) (eff : Nat) : (s.columnEvent g c m dead eff).ldg = s.ldg := by
  unfold State.columnEvent
  dsimp only
  split
  · rfl
  · exact s.ldg_report _ _ _ LDG_IRQ_CAUSE_COLUMN

theorem State.runEvents_ldg (s : State) (g : Nat) (r : Nat × List Nat) (ret : List (Nat × Nat)) (eff : Nat) :
    (s.runEvents g r ret eff).ldg = s.ldg :=
  (foldl_keeps State.ldg (fun y _ => y.ldg_report ..) ret _).trans (foldl_keeps State.ldg (fun y _ => y.columnEvent_ldg ..) _ s)

/-- Masks that leave every column dead or alive as it was bring no event. -/
theorem State.runEvents_none {g : Nat} {r : Nat × List Nat} {eff : Nat}
    (hsame : ∀ i < r.2.length, s.deadMask g (r.2.getD i 0xFF) = s.deadMask g (s.maskSent g (r.1 + i))) : s.runEvents g r [] eff = s :=
  List.foldlRecOn (motive := (· = s)) (List.range r.2.length) _ rfl fun y hy i hi => by
    rw [hy]
    exact if_pos (hsame i (List.mem_range.mp hi))

/-- A change as it goes out now, its effective line chosen; what it retires is reported apart. -/
def State.changeNow (s : State) (x : MaskChange) : MaskChange :=
  { x with sent := true, lEff := s.effLine, jobLine := s.jobLineAt (x.g / 64) s.effLine, ret := [] }

/-- With the clock running and room behind the timed loads a run of masks goes out. -/
theorem State.changeRun_sends (hclk : s.clk = clkRunning) (hroom : (s.sentChanges x.g).length < 2) :
    s.changeRun x.g (x.first, x.masks) x.ret = ((s.runEvents x.g (x.first, x.masks) x.ret s.effLine).setLdg
      { s.ldg with changes := s.ldg.changes ++ [s.changeNow x] }).sendChange (s.changeNow x) := by
  have hsent : Nat.blt (s.sentChanges x.g).length 2 = true := Nat.blt_eq.mpr hroom
  unfold State.changeRun
  simp only [hclk, hsent, true_or, if_true, State.runEvents_ldg]
  rfl

/-- The ledger with no change waiting. -/
def State.withoutChanges (s : State) : State := s.setLdg { s.ldg with changes := [] }

/-- The one held change of a position goes out. -/
def State.heldSent (s : State) (x : MaskChange) : State :=
  ((s.withoutChanges.runEvents x.g (x.first, x.masks) x.ret s.effLine).setLdg { s.ldg with changes := [s.changeNow x] }).sendChange
    (s.changeNow x)

theorem State.heldSent_ldg (s : State) (x : MaskChange) : (s.heldSent x).ldg = { s.ldg with changes := [s.changeNow x] } := by
  rw [State.heldSent, HeadOnly.sendChange, State.setHeads_ldg, State.setLdg_ldg]

theorem State.releaseHeld_one (hchanges : s.ldg.changes = [x]) (hheld : x.sent = false) (hclk : s.clk = clkRunning) :
    s.releaseHeld x.g (s.ldg.changes.length + 1) = s.heldSent x := by
  have hfind : s.ldg.changes.find? (fun y => y.g == x.g && !y.sent) = some x := by simp [hchanges, hheld]
  have hsent : s.sentChanges x.g = [] := by simp [State.sentChanges, hchanges, hheld]
  have hrest : s.ldg.changes.filter (fun z => z != x) = [] := by simp [hchanges]
  have hgone : ∀ y : State, y.ldg.changes = [s.changeNow x] → y.releaseHeld x.g 1 = y := fun y hy => by
    simp [State.releaseHeld, hy, State.changeNow]
  have hrun : s.withoutChanges.changeRun x.g (x.first, x.masks) x.ret = s.heldSent x :=
    State.changeRun_sends (s := s.withoutChanges) hclk (by simp [State.sentChanges, State.withoutChanges])
  rw [hchanges, List.length_singleton, State.releaseHeld, hfind]
  simp only [hsent, hrest]
  rw [if_neg (by decide)]
  refine (congrArg (fun y => State.releaseHeld y x.g 1) hrun).trans (hgone _ ?_)
  rw [State.heldSent_ldg]

/-- A held change that retires nothing and leaves every column dead or alive as it was only goes out. -/
theorem LedgerSide.heldSent (hret : x.ret = []) (hsame : ∀ i, i < x.masks.length →
      s.deadMask x.g (x.masks.getD i 0xFF) = s.deadMask x.g (s.ldg.masks.get (colKey x.g (x.first + i)) 0xFF)) :
    LedgerSide s (s.heldSent x) ∧ Keeps s (s.heldSent x) [] := by
  have hnone : s.withoutChanges.runEvents x.g (x.first, x.masks) x.ret s.effLine = s.withoutChanges := by
    rw [hret]
    exact State.runEvents_none (s := s.withoutChanges) hsame
  rw [State.heldSent, hnone]
  have hhead := HeadOnly.sendChange (s.withoutChanges.setLdg { s.ldg with changes := [s.changeNow x] }) (s.changeNow x)
  exact ⟨((LedgerSide.setLdg s _).trans (LedgerSide.setLdg _ _)).trans (LedgerSide.of_headRegs (HeadRegs.of_headOnly hhead)),
    hhead.keeps (Keeps.refl s [])⟩

/-- A change of the ledger and of registers, seen without registers. -/
theorem LedgerSide.hidden {x : State} (h : LedgerSide s x) (hh : x.heads = s.heads) :
    x.hidden = ({ s with ldg := x.ldg } : State).hidden := by
  unfold LedgerSide at h
  rw [hh] at h
  rw [h]
  rfl

end Held

/-! ### Ledger words in MRAM (R265, R269, R270) -/

/-- A word is written when its content changes. -/
def Mem.putWord (img : Nat → List Byte) (m : Memory) (a : Nat) : Memory := if Mem.reads m a 8 = img a then m else Mem.writes m a (img a)

section Words
variable {img : Nat → List Byte} {m : Memory} {a b : Nat}

theorem Mem.reads_congr {m m' : Memory} {a n : Nat} (h : ∀ i < n, Mem.read m (a + i) = Mem.read m' (a + i)) :
    Mem.reads m a n = Mem.reads m' a n := by
  refine List.ext_getElem (by rw [Mem.length_reads, Mem.length_reads]) fun i hi hi' => ?_
  rw [Mem.getElem_reads, Mem.getElem_reads, h i (by rwa [Mem.length_reads] at hi)]

theorem Mem.reads_putWord (hlen : (img a).length = 8) : Mem.reads (Mem.putWord img m a) a 8 = img a := by
  unfold Mem.putWord
  split
  · next hsame => exact hsame
  · conv_lhs => rw [← hlen]
    exact Mem.reads_writes_same ..

theorem Mem.read_putWord (hlen : (img a).length = 8) (hb : b < a ∨ a + 8 ≤ b) : Mem.read (Mem.putWord img m a) b = Mem.read m b := by
  unfold Mem.putWord
  split
  · rfl
  · exact Mem.read_writes_outside _ _ _ _ (by rwa [hlen])

/-- Words written one after another: every other byte stays. -/
theorem Mem.read_putWords {l : List Nat} (hl : ∀ a ∈ l, a % 8 = 0 ∧ (img a).length = 8) (hb : b / 8 * 8 ∉ l) (m : Memory) :
    Mem.read (l.foldl (Mem.putWord img) m) b = Mem.read m b := by
  induction l generalizing m with
  | nil => rfl
  | cons a l ih =>
    obtain ⟨hba, hbl⟩ := not_or.mp (mt List.mem_cons.mpr hb)
    obtain ⟨halign, hlen⟩ := hl a List.mem_cons_self
    exact (ih (fun c hc => hl c (List.mem_cons_of_mem _ hc)) hbl _).trans (Mem.read_putWord hlen (by omega))

/-- Every word written holds its content. -/
theorem Mem.reads_putWords {l : List Nat} (hl : ∀ a ∈ l, a % 8 = 0 ∧ (img a).length = 8) (ha : a ∈ l) (m : Memory) :
    Mem.reads (l.foldl (Mem.putWord img) m) a 8 = img a := by
  induction l generalizing m with
  | nil => exact absurd ha List.not_mem_nil
  | cons c l ih =>
    have hrest := fun d hd => hl d (List.mem_cons_of_mem c hd)
    by_cases hal : a ∈ l
    · exact ih hrest hal _
    · obtain rfl : a = c := (List.mem_cons.mp ha).resolve_right hal
      obtain ⟨halign, hlen⟩ := hl a List.mem_cons_self
      have hkept := Mem.reads_congr (n := 8) fun i hi =>
        Mem.read_putWords hrest (b := a + i) (by rwa [show (a + i) / 8 * 8 = a by omega]) (Mem.putWord img m a)
      exact hkept.trans (Mem.reads_putWord hlen)

end Words

section Batch
variable {s : State} {a : Nat}

theorem length_ledgerHeader : ledgerHeader.length = 64 := by
  simp only [ledgerHeader, List.length_append, length_leBytes]

/-- A word outside the tile records has 8 bytes. -/
theorem State.length_wordImage (s : State) (halign : a % 8 = 0) (hrank : wordRank a ≠ 4) : (s.wordImage a).length = 8 := by
  have hrec : ¬(0x1000 ≤ a ∧ a < 0x9000) := fun h => hrank (by
    unfold wordRank
    rw [if_neg (by omega), if_neg (by omega), if_pos (by omega)])
  unfold State.wordImage
  rw [if_neg hrec]
  split_ifs
  · exact length_slice (by rw [length_ledgerHeader]; omega)
  all_goals simp only [List.length_append, length_leBytes]

/-- MRAM after words are written. -/
theorem State.writeWords_eq (l : List Nat) (s : State) :
    l.foldl (fun s a => s.writeWord a) s = { s with mram := l.foldl (Mem.putWord s.wordImage) s.mram } := by
  induction l generalizing s with
  | nil => rfl
  | cons a l ih => exact ih (s.writeWord a)

/-- The words of a batch in its order (R269). -/
def batchOrder (l : List Nat) : List Nat := ((List.range 6).map (fun r => l.filter (fun a => wordRank a == r))).flatten

theorem wordRank_lt (a : Nat) : wordRank a < 6 := by
  unfold wordRank
  split_ifs <;> decide

theorem mem_batchOrder {l : List Nat} : a ∈ batchOrder l ↔ a ∈ l := by
  simp only [batchOrder, List.mem_flatten, List.mem_map, List.mem_range]
  constructor
  · rintro ⟨_, ⟨r, -, rfl⟩, ha⟩
    exact (List.mem_filter.mp ha).1
  · exact fun ha => ⟨_, ⟨wordRank a, wordRank_lt a, rfl⟩, List.mem_filter.mpr ⟨ha, beq_self_eq_true _⟩⟩

/-- A batch with no words held and every changed word due writes them all. -/
theorem State.writeBatch_all (hheld : s.ldg.writeHeld = false) (hdue : ∀ a ∈ s.ldg.dirty, wordRank a ≠ 4) : s.writeBatch =
    { s with ldg := { s.ldg with dirty := [] }, mram := (batchOrder s.ldg.dirty).foldl (Mem.putWord s.wordImage) s.mram } := by
  have hall : s.ldg.dirty.filter (fun a => s.wordDue a) = s.ldg.dirty :=
    List.filter_eq_self.mpr fun a ha => by simp [State.wordDue, hdue a ha]
  have hrecs : s.ldg.dirty.filter (fun a => wordRank a == 4) = [] := List.filter_eq_nil_iff.mpr fun a ha => by simp [hdue a ha]
  have hnone : s.ldg.dirty.filter (fun a => !s.ldg.dirty.contains a) = [] := List.filter_eq_nil_iff.mpr fun a ha => by simp [ha]
  unfold State.writeBatch
  simp only [hall, hrecs, State.writeWords_eq, hnone, hheld, Bool.false_eq_true, if_false]
  rw [← hheld]
  rfl

/-- Changed words are shown as held. -/
def State.wordsHeld (s : State) : State :=
  ((s.putB LDG_STATUS_PENDING true).put LDG_PENDING_COUNT_WORDS s.ldg.dirty.length).setLdg { s.ldg with writeHeld := true }

/-- Outside the write window changed words are held, shown, and reported once. -/
theorem State.showHeld_first (hwindow : s.on LDG_STATUS_IN_WINDOW = false) (hdirty : s.ldg.dirty ≠ []) (hheld : s.ldg.writeHeld = false) :
    s.showHeld = s.wordsHeld.report Ev.WRITE_HELD 0xFFFF [s.get THM_STATUS_T_DIE] LDG_IRQ_CAUSE_WRITE_HELD := by
  unfold State.showHeld
  rw [if_neg (by simp [hwindow, hdirty])]
  simp only [hheld, Bool.false_eq_true, if_false, State.put_ldg, State.putB_ldg]
  rfl

theorem LedgerSide.wordsHeld (s : State) : LedgerSide s s.wordsHeld :=
  (LedgerSide.of_regsOnly (((RegsOnly.refl s).putB _ _).put _ _)).trans (LedgerSide.setLdg ..)

theorem Keeps.wordsHeld (s : State) : Keeps s s.wordsHeld [LDG_STATUS, LDG_PENDING_COUNT] :=
  ((Keeps.refl s [LDG_STATUS, LDG_PENDING_COUNT]).putB LDG_STATUS_PENDING true (by decide)).put LDG_PENDING_COUNT_WORDS
    s.ldg.dirty.length (by decide)

theorem State.on_wordsHeld (s : State) : s.wordsHeld.on LDG_STATUS_PENDING = true := by
  have hsame : ∀ (x : State) (l : Ledger) (f : Fld), (x.setLdg l).on f = x.on f := fun _ _ _ => rfl
  rw [State.wordsHeld, hsame, State.on_put_apart _ _ _ _ rfl (by decide), State.on_putB_same _ _ _ rfl]

theorem State.wordsHeld_heads (s : State) : s.wordsHeld.heads = s.heads := by
  rw [State.wordsHeld, State.setLdg_heads, State.put_heads, State.putB_heads]

theorem State.wordsHeld_ldg (s : State) : s.wordsHeld.ldg = { s.ldg with writeHeld := true } := State.setLdg_ldg ..

end Batch

/-! ### The load of the ledger (R268, R271) -/

theorem Upkeep.ledgerCorrupt (s : State) (region unit : Nat) : Upkeep s (s.ledgerCorrupt region unit) :=
  ((Upkeep.refl s).putB LDG_STATUS_CORRUPT true).report Ev.LEDGER_CORRUPT unit [region] LDG_IRQ_CAUSE_CORRUPT

/-- A loaded ledger is ready, with the odometer of MRAM; what it repairs is left to later batches. -/
theorem State.ledgerLoad_shows (s : State) (errs : List (Nat × Bool)) :
    (s.ledgerLoad errs).on LDG_STATUS_READY = true ∧ (s.ledgerLoad errs).ldg.metres = loadOdometer (mramSeen s.mram errs) ∧
      (s.ledgerLoad errs).mram = s.mram := by
  unfold State.ledgerLoad
  extract_lets m hdrOk recs bad ex both nz0 nz keep dropped repaired old l s1 cols s2 words s3 s4
  have hmetres : l.metres = loadOdometer m := by simp only [l]
  clear_value l words cols bad hdrOk
  have hloaded : Upkeep (s.setLdg l) s1 := (Upkeep.refl _).put LDG_ODOMETER_METRES l.metres
  have hmasks : Upkeep s1 s2 := Upkeep.foldl (fun _ _ => Upkeep.forceMasks ..) cols s1
  have hwords : Upkeep s2 s3 := Upkeep.touchAll words s2
  have hheader : Upkeep s3 s4 := by
    unfold s4
    split
    · exact Upkeep.refl s3
    · exact Upkeep.trans (Upkeep.foldl (fun _ _ => Upkeep.touch ..) _ s3) (Upkeep.ledgerCorrupt ..)
  have hbad : Upkeep s4 (bad.foldl (fun s g => s.ledgerCorrupt 2 g) s4) := Upkeep.foldl (fun _ _ => Upkeep.ledgerCorrupt ..) bad s4
  have hall := (((hloaded.trans hmasks).trans hwords).trans hheader).trans hbad
  generalize bad.foldl (fun s g => s.ledgerCorrupt 2 g) s4 = x at *
  refine ⟨State.on_putB_same _ _ _ rfl, ?_, ?_⟩
  · rw [State.putB_ldg, hall.metres, State.setLdg_ldg, hmetres]
  · rw [State.putB_mram, hall.mram, State.setLdg_mram]

/-- Settles O37: packets and codes of a sweep (`State.sendNow_outstanding`, `State.resIn_open`), its end (`State.sweepFinish_shows`), a held
change (`State.releaseHeld_one`), batches of ledger words (`State.writeBatch_all`, `State.showHeld_first`) and the load
(`State.ledgerLoad_shows`). -/
theorem sweepsAndMram : Obligations.SweepsAndMram := by
  refine ⟨?asked, ?opened, ?ended, ?released, ?written, ?held, ?loaded, ?ready⟩
  case asked =>
    intro s p slot w x hsweep hfind hfailed hnak hnaks hup hactive hroom hports
    have heff : exec (.sweepRetry p slot) s = finish (s.sendNow p slot opRES_SWEEP (sweepPayload 0 65536)) := by
      refine congrArg finish ?_
      simp only [hsweep, hfind]
      exact if_neg (by simp [hfailed]; omega)
    refine ⟨_, heff, ?_, Alters.of_headOnly (HeadOnly.sendNow ..)⟩
    exact State.sendNow_outstanding _ hup hactive hroom (by rw [hports]; exact p.isLt)
  case opened =>
    intro s p slot h w x c hsweep hfind hgot hlow hhigh hservice hseq
    obtain ⟨hheater, hcode, hopens⟩ := State.resIn_open hseq hsweep hfind hgot hlow hservice
    have hcodes : [c].map (fun c => c % 4096) = [c] := by simp [Nat.mod_eq_of_lt hhigh]
    rw [← hcodes] at hheater hcode hopens
    refine ⟨_, rfl, ?_, ?_, ?_⟩
    · exact (State.heater_of_heaters (by rw [State.trackIrq_ldg]) _ _).trans hheater
    · rw [State.trackIrq_ldg, hcode]
    · rw [State.trackIrq_ldg, hopens]
  case ended =>
    intro s w hsweep hover hcal
    obtain ⟨hgone, hbusy, hrunning, hposts⟩ := State.sweepFinish_shows hsweep hcal
    have heff : exec .sweepEnd s = finish s.sweepFinish := by
      refine congrArg finish ?_
      simp only [hsweep]
      exact if_pos hover
    generalize s.sweepFinish = y at *
    refine ⟨_, heff, ?_, (State.on_trackIrq ..).trans hbusy, (State.on_trackIrq ..).trans hrunning, hposts.trackIrq⟩
    rw [State.trackIrq_ldg, hgone]
  case released =>
    intro s p slot g x hpos hchanges hg hheld hclk
    subst hg
    have heff : exec (.heldMaskChangeRelease p slot) s = finish (s.heldSent x) := by
      refine congrArg finish ?_
      simp only [hpos]
      exact State.releaseHeld_one hchanges hheld hclk
    refine ⟨_, heff, ?_, fun hret hsame => ?_⟩
    · rw [State.trackIrq_ldg, State.heldSent_ldg]
      rfl
    · obtain ⟨hside, hkeeps⟩ := LedgerSide.heldSent hret hsame
      exact hside.alters hkeeps
  case written =>
    intro s hwindow hheld hdue
    have heff : exec .mramWriteBatch s = finish s.writeBatch := congrArg finish (if_pos hwindow)
    have hwords : ∀ a ∈ batchOrder s.ldg.dirty, a % 8 = 0 ∧ (s.wordImage a).length = 8 := fun a ha =>
      have haligned := hdue a (mem_batchOrder.mp ha)
      ⟨haligned.1, s.length_wordImage haligned.1 haligned.2⟩
    rw [State.writeBatch_all hheld fun a ha => (hdue a ha).2] at heff
    refine ⟨_, heff, ?_, fun a ha => ?_, fun a ha => ?_, ?_⟩
    · rw [State.trackIrq_ldg]
    · rw [State.trackIrq_mram]
      exact Mem.reads_putWords hwords (mem_batchOrder.mpr ha) s.mram
    · rw [State.trackIrq_mram]
      exact Mem.read_putWords hwords (mt mem_batchOrder.mp ha) s.mram
    · rw [State.trackIrq_ldg, State.trackIrq_mram]
      exact Alters.of_regsOnly rfl (RegsOnly.refl _) (Keeps.refl s [])
  case held =>
    intro s hwindow hdirty hheld
    have heff : exec .mramWriteBatch s = finish s.showHeld := congrArg finish (if_neg (by simp [hwindow]))
    rw [State.showHeld_first hwindow hdirty hheld] at heff
    have hside := LedgerSide.wordsHeld s
    have hkeeps := Keeps.wordsHeld s
    have hpending := s.on_wordsHeld
    have hldg := s.wordsHeld_ldg
    have hheads := s.wordsHeld_heads
    generalize s.wordsHeld = x at *
    have hisland : x.rget (RST_ISLAND 1) = s.rget (RST_ISLAND 1) := hkeeps _ (by decide)
    refine ⟨_, heff, ?_, ?_, ?_, ?_, ?_⟩
    · rw [State.on_trackIrq, State.on_eq_of_get _ _ _ (State.get_report _ _ _ _ rfl (by decide) (by decide)), hpending]
    · rw [State.trackIrq_ldg, State.ldg_report, hldg]
    · rw [State.trackIrq_mram, State.report, State.cause_mram, State.event_mram, hside]
    · refine ((Posts.of_event s x _ _ _ ?_ ?_ hisland (by decide)).cause _).trackIrq <;> rw [hside]
    · refine ⟨?_, ((hkeeps.mono (by simp)).report _ _ _ _ (by decide)).trackIrq⟩
      rw [State.trackIrq_ldg, State.ldg_report, State.trackIrq_hidden, State.hidden_report, hside.hidden hheads]
  case loaded =>
    intro s hready
    obtain ⟨hshown, hmetres, hmram⟩ := s.ledgerLoad_shows []
    have heff : exec (.ledgerLoadComplete []) s = finish (s.ledgerLoad []) := congrArg finish (if_neg (by simp [hready]))
    generalize s.ledgerLoad [] = y at *
    refine ⟨_, heff, (State.on_trackIrq ..).trans hshown, ?_, ?_⟩
    · rw [State.trackIrq_ldg, hmetres]
      rfl
    · rw [State.trackIrq_mram, hmram]
  case ready =>
    intro s errs hready
    exact ⟨_, congrArg finish (if_pos hready), Silent.refl s⟩

end Sys2Proof.Machine

namespace Sys2Proof.Machine

/-! ### Packets to a tile by a register or on the chip's own (R192, R219, R284, R294, R464) -/

section TilePackets
variable {s x : State} {p slot : Nat}

/-- A packet that the chip may send, on a port that is UP and has room, takes the port's next LSN and the slot's next CSEQ
(R192, R203). -/
theorem State.sendNow_eq {op : Nat} (payload : List Byte) (hup : s.portUp p = true) (hmay : s.maySend op = true)
    (hroom : (s.port p).outstanding.length < 1024) :
    s.sendNow p slot op payload = (s.setCtl p slot { s.ctl p slot with cseq := ((s.ctl p slot).cseq + 1) % 256 }).setPort p
      { s.port p with lsn := ((s.port p).lsn + 1) % 4096, outstanding := (s.port p).outstanding ++
        [{ lsn := (s.port p).lsn, slot := slot, body := .ctl op (s.ctl p slot).cseq true 0 payload none, sent := 1, lastStatus := 0 }] } := by
  have hup' : ∀ c : CtlSlot, (s.setCtl p slot c).portUp p = true := fun _ => hup
  have hroom' : ∀ c : CtlSlot, ((s.setCtl p slot c).port p).outstanding.length < 1024 := fun _ => hroom
  rw [State.sendNow, State.sendCtl, if_neg (by simp [hup, hmay]), State.sendPacket, if_neg (by simp [hup'])]
  exact if_pos (hroom' _)

/-- CLEAR_FAULT goes out on a passive chip too (R464). -/
theorem State.maySend_clearFault (s : State) : s.maySend opCLEAR_FAULT = true := by simp [State.maySend]

/-! #### WARM -/

/-- The chip remembers when it sent WARM to a slot (R294). -/
def State.warmStamped (s : State) (p slot : Nat) : State := s.setCtl p slot { s.ctl p slot with warmCyc := some s.time.cyc }

theorem State.ctl_warmStamped (s : State) (p slot : Nat) :
    (s.warmStamped p slot).ctl p slot = { s.ctl p slot with warmCyc := some s.time.cyc } := State.ctl_setCtl_same ..

/-- WARM goes to a present tile on a port that is UP when none went before and the duty is another than the acknowledged one
(R294). -/
theorem State.warmUpdate_due {g : Nat} (hpos : s.posOf p slot = some g) (hnever : (s.ctl p slot).warmCyc = none)
    (hduty : (s.ctl p slot).duty ≠ some (s.warmDuty g)) (hpresent : s.slotPresent p slot = true) (hup : s.portUp p = true) :
    s.warmUpdate p slot = (s.warmStamped p slot).sendNow p slot opWARM (s.warmPayload g) := by
  simp [State.warmUpdate, State.warmStamped, hpos, hnever, hduty, hpresent, hup]

/-- Within 250 µs of a WARM no other goes to the tile (R294). -/
theorem State.warmUpdate_early {g c : Nat} (hpos : s.posOf p slot = some g) (hsent : (s.ctl p slot).warmCyc = some c)
    (hearly : s.time.cyc < c + 62500) : s.warmUpdate p slot = s := by
  simp [State.warmUpdate, hpos, hsent, hearly]

/-! #### THERM -/

/-- The entries in use rest on the planes' numbers of tiles, their maps and the job (R44). -/
theorem State.entries_congr (hgeom : ∀ q < 8, x.rget (PLN_GEOM q) = s.rget (PLN_GEOM q))
    (hmap : ∀ q < 8, x.planeMap q = s.planeMap q) (hpress : x.press = s.press) : x.entries = s.entries := by
  unfold State.entries
  rw [hpress]
  split
  · rfl
  · refine congrArg List.flatten (List.map_congr_left fun q hq => ?_)
    have hq := List.mem_range.mp hq
    rw [State.get_eq_of_rget _ _ (PLN_GEOM_TILES q) (hgeom q hq), hmap q hq]

/-- A write of PLN_THERM2 leaves the entries in use alone. -/
theorem State.planeEntries_therm2 (s : State) (r q v : Nat) : (s.put (PLN_THERM2_HYST r) v).planeEntries q = s.planeEntries q := by
  have hentries : (s.put (PLN_THERM2_HYST r) v).entries = s.entries :=
    State.entries_congr
      (fun k _ => s.rget_put_ne _ _ _ (by simp only [PLN_THERM2_HYST, PLN_THERM2, PLN_GEOM]; omega))
      (fun k _ => List.map_congr_left fun t ht => by
        have ht := List.mem_range.mp ht
        exact s.rget_put_ne _ _ _ (by simp only [PLN_THERM2_HYST, PLN_THERM2, PLN_TILE_MAP]; omega))
      rfl
  rw [State.planeEntries, hentries, ← State.planeEntries]

theorem HeadOnly.sendTherm (s : State) (q : Nat) : HeadOnly s (s.sendTherm q) := HeadOnly.foldl (fun _ _ => HeadOnly.sendNow ..) _ s

/-- A plane without tiles gets no THERM (R284). -/
theorem State.sendTherm_noTiles {q : Nat} (hnone : s.planeEntries q = []) : s.sendTherm q = s := by
  rw [State.sendTherm, hnone]
  rfl

/-- A level register written before THERM goes out holds what was written, and only the head link changes besides (R284). -/
theorem State.sendTherm_rset_shows (s : State) (a q : Nat) (v : Word) :
    ((s.rset a v).sendTherm q).trackIrq.rget a = v ∧
      Alters s ((s.rset a v).sendTherm q).trackIrq { s with heads := ((s.rset a v).sendTherm q).heads } [a] := by
  have hsent := HeadOnly.sendTherm (s.rset a v) q
  have hregs := (RegsOnly.refl s).rset a v
  have hkeeps := (Keeps.refl s [a]).rset a v List.mem_cons_self
  exact ⟨(hsent.rget a).trans (s.rget_rset_same a v), Alters.of_regsOnly rfl (hsent.regsOnly hregs) (hsent.keeps hkeeps)⟩

/-! #### Writes by a requester -/

theorem islandOf_therm0 : ∀ q : Fin 8, islandOf (PLN_THERM0 q) = 3 + q := by decide
theorem islandOf_faultClear : ∀ q : Fin 8, islandOf (PLN_FAULT_CLEAR q) = 3 + q := by decide

/-- A write of a register of a plane whose island runs takes effect. -/
theorem State.reqWrite_plane {req : Fin 6} {a : Nat} {q : Fin 8} (f : State → State) (hisland : islandOf a = 3 + q) (hreq : req ≠ 5)
    (hrun : s.islandRuns (3 + q) = true) : s.reqWrite req a f = f s :=
  State.reqWrite_runs s req a f (reaches_of_ne hreq a) (by rwa [hisland])

/-- A write of PLN_FAULT_CLEAR that names a position in use sends CLEAR_FAULT to its tile (R219). -/
theorem State.faultClearWrite_entry {q : Nat} {v : Word} {e : MapEntry} (he : s.entryAt (64 * q + bits v.toNat 13 8) = some e) :
    s.faultClearWrite q v = s.sendNow e.port e.slot opCLEAR_FAULT (clearPayload (bits v.toNat 7 0)) := by
  rw [State.faultClearWrite, he]

end TilePackets

/-- Settles O29: each command is the packet it sends after the records and registers it writes; a packet changes the head link
alone. -/
theorem tileCommandsSent : Obligations.TileCommandsSent := by
  unfold Obligations.TileCommandsSent
  refine ⟨?warm, ?early, ?therm0, ?therm1, ?therm2, ?clear⟩
  case warm =>
    intro s p slot g hpos hnever hduty hpresent hup hactive hroom hports
    have hp : p.val < s.heads.ports.length := p.isLt.trans_eq hports.symm
    have heff : exec (.warmUpdate p slot) s = finish ((s.warmStamped p slot).sendNow p slot opWARM (s.warmPayload g)) :=
      congrArg finish (State.warmUpdate_due hpos hnever hduty hpresent hup)
    have hstamped := s.ctl_warmStamped p slot
    have houtstanding := State.sendNow_outstanding (s := s.warmStamped p slot) (slot := slot) (op := opWARM) (s.warmPayload g)
      hup hactive hroom hp
    obtain ⟨hctl, -, -⟩ := State.sendNow_sent (s := s.warmStamped p slot) (slot := slot) (op := opWARM) (s.warmPayload g)
      hup hactive hroom hp
    rw [hstamped] at hctl houtstanding
    exact ⟨_, heff, congrArg CtlSlot.warmCyc hctl, houtstanding,
      Alters.of_headOnly ((HeadOnly.setCtl ..).trans (HeadOnly.sendNow ..))⟩
  case early =>
    intro s p slot g c hpos hsent hearly
    exact ⟨_, congrArg finish (State.warmUpdate_early hpos hsent hearly), Silent.refl s⟩
  case therm0 =>
    intro s req q v hreq hrun
    exact ⟨_, congrArg finish (State.reqWrite_plane _ (islandOf_therm0 q) hreq hrun), s.sendTherm_rset_shows (PLN_THERM0 q) q v⟩
  case therm1 =>
    intro s req q v hreq hrun
    exact ⟨_, congrArg finish (State.reqWrite_plane _ (islandOf_therm0 q) hreq hrun), s.sendTherm_rset_shows (PLN_THERM1 q) q v⟩
  case therm2 =>
    intro s req q v hreq hrun hnone
    have heff := (State.reqWrite_plane (fun s => s.thermWrite q 2 v) (islandOf_therm0 q) hreq hrun).trans
      (State.sendTherm_noTiles ((s.planeEntries_therm2 q q v.toNat).trans hnone))
    exact ⟨_, congrArg finish heff, State.get_put_same s (PLN_THERM2_HYST q) v.toNat rfl,
      Silent.of_regsOnly ((RegsOnly.refl s).put _ _) ((Keeps.refl s _).put _ _ List.mem_cons_self)⟩
  case clear =>
    intro s req q v e hreq hrun he hup hroom hp
    have heff := (State.reqWrite_plane (fun s => s.faultClearWrite q v) (islandOf_faultClear q) hreq hrun).trans
      (State.faultClearWrite_entry he)
    have hsent := State.sendNow_eq (slot := e.slot) (clearPayload (bits v.toNat 7 0)) hup s.maySend_clearFault hroom
    refine ⟨_, congrArg finish heff, ?_, Alters.of_headOnly (HeadOnly.sendNow ..)⟩
    rw [State.port, State.trackIrq_heads, ← State.port, hsent, State.port_setPort_same _ (by exact hp)]
    rfl

end Sys2Proof.Machine

namespace Sys2Proof.Machine

/-! ### Fields of one register -/

/-- Do the bits of two fields not overlap? -/
def Fld.bitsApart (f g : Fld) : Bool := Nat.blt f.hi g.lo && Nat.ble f.lo f.hi || Nat.blt g.hi f.lo && Nat.ble g.lo g.hi

theorem Fld.apart_of_bits {f g : Fld} (h : f.bitsApart g = true) : f.apart g := by
  simp only [Fld.bitsApart, Bool.or_eq_true, Bool.and_eq_true, Nat.blt_eq, Nat.ble_eq] at h
  exact .inr h

theorem Touches.refl (s : State) (l : List Nat) : Touches s s l := ⟨rfl, Keeps.refl s _⟩

theorem Touches.trans {s x y : State} {l : List Nat} (h : Touches s x l) (h' : Touches x y l) : Touches s y l :=
  ⟨h'.1.trans h.1, h.2.trans h'.2⟩

theorem Touches.mono {s x : State} {l m : List Nat} (h : Touches s x l) (hm : l ⊆ m) : Touches s x m :=
  ⟨h.1, h.2.mono fun _ ha => List.mem_append.mpr ((List.mem_append.mp ha).imp_left (hm ·))⟩

theorem Touches.rget {s x : State} {l : List Nat} (h : Touches s x l) {a : Nat} (ha : a ∉ l) (hevt : a ∉ evtRegs) : x.rget a = s.rget a :=
  h.2 a fun hmem => (List.mem_append.mp hmem).elim ha hevt

/-! ### Triggers of a channel (R300, R303, R308) -/

section Trigger
variable {s x : State}

/-- A channel is due and stale. -/
def State.dueShown (s : State) (c : Nat) : State := (s.put (CAL_CH_STATUS_RUN_STATE c) rsDUE).putB (CAL_CH_STATUS_STALE c) true

/-- A run under way is to be repeated, and the channel is stale. -/
def State.againShown (s : State) (c : Nat) : State := (s.putB (CAL_CH_STATUS_AGAIN c) true).putB (CAL_CH_STATUS_STALE c) true

theorem State.calTrigger_idle {c : Nat} (code move : Nat) (hidle : s.runState c = rsIDLE) :
    s.calTrigger c code move = (s.dueShown c).report Ev.CAL_DUE c [code, move] CAL_IRQ_CAUSE_DUE := if_pos hidle

theorem State.calTrigger_running {c : Nat} (code move : Nat) (hrunning : s.runState c = rsRUNNING) :
    s.calTrigger c code move = s.againShown c := by
  rw [State.calTrigger, hrunning]
  rfl

theorem RegsOnly.dueShown (s : State) (c : Nat) : RegsOnly s (s.dueShown c) := ((RegsOnly.refl s).put _ _).putB _ _
theorem RegsOnly.againShown (s : State) (c : Nat) : RegsOnly s (s.againShown c) := ((RegsOnly.refl s).putB _ _).putB _ _

theorem Keeps.dueShown (s : State) (c : Nat) : Keeps s (s.dueShown c) [CAL_CH_STATUS c] :=
  ((Keeps.refl s _).put _ _ List.mem_cons_self).putB _ _ List.mem_cons_self

theorem Keeps.againShown (s : State) (c : Nat) : Keeps s (s.againShown c) [CAL_CH_STATUS c] :=
  ((Keeps.refl s _).putB _ _ List.mem_cons_self).putB _ _ List.mem_cons_self

theorem State.dueShown_shows (s : State) (c : Nat) :
    (s.dueShown c).runState c = rsDUE ∧ (s.dueShown c).on (CAL_CH_STATUS_STALE c) = true := by
  refine ⟨?_, State.on_putB_same _ _ _ rfl⟩
  rw [State.runState, State.dueShown, State.get_putB_apart _ _ _ _ rfl (Fld.apart_of_bits rfl), State.get_put_same _ _ _ rfl]
  rfl

theorem State.againShown_shows (s : State) (c : Nat) :
    (s.againShown c).runState c = s.runState c ∧ (s.againShown c).on (CAL_CH_STATUS_AGAIN c) = true ∧
      (s.againShown c).on (CAL_CH_STATUS_STALE c) = true := by
  refine ⟨?_, ?_, State.on_putB_same _ _ _ rfl⟩
  · rw [State.runState, State.againShown, State.get_putB_apart _ _ _ _ rfl (Fld.apart_of_bits rfl),
      State.get_putB_apart _ _ _ _ rfl (Fld.apart_of_bits rfl), ← State.runState]
  · rw [State.againShown, State.on_putB_apart _ _ _ _ rfl (Fld.apart_of_bits rfl), State.on_putB_same _ _ _ rfl]

/-! #### Where a channel's registers lie -/

theorem chanStatus_notMem_evtRegs (c : Fin 7) : CAL_CH_STATUS c ∉ evtRegs := by revert c; decide
theorem calCause_ne_chanStatus (c : Fin 7) : CAL_IRQ_CAUSE ≠ CAL_CH_STATUS c := by revert c; decide
theorem island_notMem_chanStatus (c : Fin 7) : RST_ISLAND 1 ∉ [CAL_CH_STATUS c] := by revert c; decide
theorem islandOf_chanCmd : ∀ c : Fin 7, islandOf (CAL_CH_CMD c) = 2 := by decide

/-- A command of a channel reaches it while its island runs. -/
theorem State.reqWrite_chan {req : Fin 6} (c : Fin 7) (f : State → State) (hreq : req ≠ 5) (hrun : s.islandRuns 2 = true) :
    s.reqWrite req (CAL_CH_CMD c) f = f s :=
  State.reqWrite_runs s req _ f (reaches_of_ne hreq _) (by rwa [islandOf_chanCmd])

/-- The registers a trigger can write. -/
theorem Touches.calTrigger (s : State) (c code move : Nat) : Touches s (s.calTrigger c code move) [CAL_CH_STATUS c, CAL_IRQ_CAUSE] := by
  unfold State.calTrigger
  split_ifs
  · refine ⟨?_, Keeps.cause (Keeps.event ((Keeps.dueShown s c).mono (by simp)) _ _ _ (evtRegs_sub_right _)) _ (by simp [CAL_IRQ_CAUSE_DUE])⟩
    rw [State.cause_hidden, State.event_hidden, State.putB_hidden, State.put_hidden]
  · exact ⟨(RegsOnly.againShown s c).hidden, (Keeps.againShown s c).mono (by simp)⟩
  · exact Touches.refl s _

/-- An idle channel becomes due, stale and reported. -/
theorem State.calTrigger_due (c : Fin 7) (code move : Nat) (hidle : s.runState c = rsIDLE) :
    (s.calTrigger c code move).runState c = rsDUE ∧ (s.calTrigger c code move).on (CAL_CH_STATUS_STALE c) = true ∧
      Posts s (s.calTrigger c code move) Ev.CAL_DUE c [code, move] := by
  obtain ⟨hdue, hstale⟩ := s.dueShown_shows c
  have hregs := RegsOnly.dueShown s c
  have hisland := Keeps.dueShown s c _ (island_notMem_chanStatus c)
  rw [State.calTrigger_idle code move hidle]
  generalize s.dueShown c = x at *
  have hkept : ∀ f : Fld, f.off = CAL_CH_STATUS c → (x.report Ev.CAL_DUE c [code, move] CAL_IRQ_CAUSE_DUE).get f = x.get f := fun f hf =>
    State.get_report _ _ _ _ rfl (hf ▸ calCause_ne_chanStatus c) (hf ▸ chanStatus_notMem_evtRegs c)
  refine ⟨(hkept _ rfl).trans hdue, (State.on_eq_of_get _ _ _ (hkept _ rfl)).trans hstale, Posts.cause ?_ _⟩
  exact Posts.of_event s x _ _ _ hregs.hif (by rw [hregs]) hisland (by decide)

end Trigger

/-! ### The comparison of temperatures (R301) -/

section Temps
variable {s x : State}

theorem pickOf_nil : pickOf [] = none := rfl

theorem pickOf_some {ds : List Nat} (h : ds ≠ []) : ∃ m, pickOf ds = some m := by
  have hlt : Config.oneOf ds % ds.length < ds.length := Nat.mod_lt _ (List.length_pos_iff.mpr h)
  exact ⟨_, (if_neg h).trans (List.getElem?_eq_getElem hlt)⟩

/-- One channel's part of the comparison. -/
def State.tempTrigger (s : State) (c : Nat) : State :=
  if s.on (CAL_CH_CFG_TEMP_EN c) then (pickOf (s.calMoves c)).elim s (s.calTrigger c 1) else s

theorem State.calTempCheck_eq (s : State) : s.calTempCheck = (List.range 7).foldl State.tempTrigger s := by
  unfold State.calTempCheck
  congr 1
  funext y c
  unfold State.tempTrigger
  cases pickOf (y.calMoves c) <;> rfl

theorem State.tempTrigger_none {c : Nat} (h : s.on (CAL_CH_CFG_TEMP_EN c) = false ∨ s.calMoves c = []) : s.tempTrigger c = s := by
  unfold State.tempTrigger
  rcases h with hoff | hnone
  · rw [hoff]
    rfl
  · rw [hnone, pickOf_nil]
    exact ite_self s

theorem State.tempTrigger_moved {c : Nat} (hen : s.on (CAL_CH_CFG_TEMP_EN c) = true) (hmoves : s.calMoves c ≠ []) :
    ∃ m, s.tempTrigger c = s.calTrigger c 1 m := by
  obtain ⟨m, hm⟩ := pickOf_some hmoves
  exact ⟨m, by rw [State.tempTrigger, if_pos hen, hm, Option.elim_some]⟩

theorem Touches.tempTrigger (s : State) (c : Nat) : Touches s (s.tempTrigger c) [CAL_CH_STATUS c, CAL_IRQ_CAUSE] := by
  by_cases h : s.on (CAL_CH_CFG_TEMP_EN c) = true ∧ s.calMoves c ≠ []
  · obtain ⟨m, hm⟩ := State.tempTrigger_moved h.1 h.2
    exact hm ▸ Touches.calTrigger s c 1 m
  · rw [State.tempTrigger_none (by rwa [not_and_or, not_not, Bool.not_eq_true] at h)]
    exact Touches.refl s _

theorem Touches.tempTriggers (l : List Nat) (s : State) :
    Touches s (l.foldl State.tempTrigger s) (CAL_IRQ_CAUSE :: l.map CAL_CH_STATUS) :=
  List.foldlRecOn (motive := fun x => Touches s x _) l _ (Touches.refl s _) fun x hx c hc =>
    hx.trans ((Touches.tempTrigger x c).mono (by simp [List.mem_map_of_mem hc]))

/-- The registers that the comparison can write, beside those of events. -/
def compareRegs : List Nat := CAL_IRQ_CAUSE :: (List.range 7).map CAL_CH_STATUS

theorem notMem_compareRegs {a : Nat} (h : a < 0x30000 ∨ 0x40000 ≤ a ∧ a % 0x20 ≠ 12 ∧ a ≠ 0xD0100 ∨ 0xD0100 < a) :
    a ∉ compareRegs ++ evtRegs := fun hmem => by
  have hplace : ∀ b ∈ compareRegs ++ evtRegs, 0x30000 ≤ b ∧ b < 0x40000 ∨ b % 0x20 = 12 ∧ 0xD0000 < b ∧ b < 0xD0100 ∨ b = 0xD0100 := by
    decide
  have := hplace a hmem
  omega

theorem chanCfg_notMem_compareRegs (c : Fin 7) : CAL_CH_CFG c ∉ compareRegs ++ evtRegs :=
  notMem_compareRegs (by unfold CAL_CH_CFG; omega)

/-- A channel's source does not depend on the registers that the comparison writes (R301). -/
theorem Touches.calMoves (h : Touches s x compareRegs) (c : Fin 7) : x.calMoves c = s.calMoves c := by
  have hget : ∀ f : Fld, f.off ∉ compareRegs ++ evtRegs → x.get f = s.get f := fun f hf => State.get_eq_of_rget _ _ _ (h.2 _ hf)
  have hgetS : ∀ f : Fld, f.off ∉ compareRegs ++ evtRegs → x.getS f = s.getS f := fun f hf => by rw [State.getS, hget f hf, ← State.getS]
  have hon : ∀ f : Fld, f.off ∉ compareRegs ++ evtRegs → x.on f = s.on f := fun f hf => State.on_eq_of_get _ _ _ (hget f hf)
  have hcfg := chanCfg_notMem_compareRegs c
  have hplane : ∀ q, x.planeTiles q = s.planeTiles q := fun q => by
    rw [State.planeTiles, State.job_of_hidden h.1, hget (PLN_GEOM_TILES q) (notMem_compareRegs (a := PLN_GEOM q) (by unfold PLN_GEOM; omega)),
      ← State.planeTiles]
  have hmean : ∀ q, x.getS (PLN_TEMP_STATUS_T_MEAN q) = s.getS (PLN_TEMP_STATUS_T_MEAN q) := fun q =>
    hgetS _ (notMem_compareRegs (a := PLN_TEMP_STATUS q) (by unfold PLN_TEMP_STATUS; omega))
  have hbar : ∀ b : Fin 8, x.ust (.bar b) = s.ust (.bar b) := fun b =>
    State.ust_of_rget _ _ _ (by simp) (h.2 _ (notMem_compareRegs (a := LED_BAR_STATUS b) (by unfold LED_BAR_STATUS; omega)))
  have hboard : ∀ q, x.getS (LED_BOARD_T_T q) = s.getS (LED_BOARD_T_T q) := fun q =>
    hgetS _ (notMem_compareRegs (a := LED_BOARD_T q) (by unfold LED_BOARD_T; omega))
  have hext : ∀ i < 256, THM_EXT i ∉ compareRegs ++ evtRegs := fun i hi => notMem_compareRegs (by unfold THM_EXT; omega)
  have hidx : s.get (CAL_CH_CFG_TSRC_IDX c) < 256 := s.get_lt (CAL_CH_CFG_TSRC_IDX c)
  have hchan : x.chan c = s.chan c := by
    have hcal := congrArg State.cal h.1
    rw [State.chan, show x.cal = s.cal from hcal, ← State.chan]
  have htemps : x.calTemps c = s.calTemps c := by
    simp only [State.calTemps, hget (CAL_CH_CFG_TSRC c) hcfg, hget (CAL_CH_CFG_TSRC_IDX c) hcfg, hon THM_STATUS_SENSORS_LOST (by decide),
      hgetS THM_STATUS_T_DIE (by decide), hplane, hmean, hbar, hboard, hon (THM_EXT_BROKEN _) (hext _ hidx),
      hgetS (THM_EXT_T _) (hext _ hidx)]
  simp only [State.calMoves, htemps, hchan, hget (CAL_CH_CFG_DELTA c) hcfg]

/-- The comparison reaches each channel with what it began with, and leaves what it made of it. -/
theorem State.calTempCheck_channel (s : State) (c : Fin 7) : ∃ x, Touches s x compareRegs ∧ x.rget (CAL_CH_STATUS c) = s.rget (CAL_CH_STATUS c) ∧
    s.calTempCheck.rget (CAL_CH_STATUS c) = (x.tempTrigger c).rget (CAL_CH_STATUS c) := by
  obtain ⟨l, r, hsplit⟩ := List.append_of_mem (List.mem_range.mpr c.isLt)
  have hnodup := List.nodup_range (n := 7)
  have hsub : l ⊆ List.range 7 := hsplit ▸ List.subset_append_left ..
  rw [hsplit, List.nodup_middle, List.nodup_cons, List.mem_append, not_or] at hnodup
  obtain ⟨⟨hl, hr⟩, -⟩ := hnodup
  have hstatus : ∀ (y : State) (m : List Nat), c.val ∉ m → (m.foldl State.tempTrigger y).rget (CAL_CH_STATUS c) = y.rget (CAL_CH_STATUS c) :=
    fun y m hm => (Touches.tempTriggers m y).rget (by
      simp only [List.mem_cons, List.mem_map, not_or, not_exists, not_and]
      exact ⟨(calCause_ne_chanStatus c).symm, fun k hk he => hm (by simp only [CAL_CH_STATUS] at he; rwa [show k = c.val by omega] at hk)⟩)
      (chanStatus_notMem_evtRegs c)
  refine ⟨l.foldl State.tempTrigger s, (Touches.tempTriggers l s).mono ?_, hstatus s l hl, ?_⟩
  · exact List.cons_subset_cons _ (List.map_subset _ hsub)
  · rw [State.calTempCheck_eq, hsplit, List.foldl_append, List.foldl_cons, hstatus _ r hr]

end Temps
end Sys2Proof.Machine

namespace Sys2Proof.Machine

/-! ### The start of a run (R300, R304) -/

/-- The registers of a channel that its runner leaves to the framework, and the host island's state, on which events depend. -/
def chanRegs (c : Nat) : List Nat := [CAL_CH_CFG c, CAL_CH_STATUS c, CAL_CH_Q c, RST_ISLAND 1]

section RunStart
variable {s x y : State} {c : Fin 7}

/-- The channels' registers lie after the head link's and the ledger's and before the causes. -/
theorem notMem_chanRegs {a : Nat} (h : 0x20000 ≤ a ∧ a < 0xD0000 ∨ 0xD0100 ≤ a) : a ∉ chanRegs c := by
  simp only [chanRegs, CAL_CH_CFG, CAL_CH_STATUS, CAL_CH_Q, RST_ISLAND, List.mem_cons, List.not_mem_nil, or_false]
  omega

theorem Extends.setCal {W : Nat → Prop} (s : State) (k : Cal) : Extends W s (s.setCal k) := Extends.of_records rfl rfl

/-- A sweep of the framework writes the ledger's registers and the head link. -/
theorem Extends.sweepStart (s : State) (planes : Nat) : Extends (· ∉ chanRegs c) s (s.sweepStart planes) := by
  have hshown : Extends (· ∉ chanRegs c) s (s.sweepShown (s.sweepRecord planes) planes) :=
    (((Extends.of_records rfl rfl : Extends _ s (s.setLdg { s.ldg with sweep := some (s.sweepRecord planes) })).putB LDG_STATUS_SWEEP_BUSY true
      (notMem_chanRegs (by decide))).put LDG_SWEEP_STATUS_PLANES planes (notMem_chanRegs (by decide))).putB LDG_SWEEP_STATUS_RUNNING true
      (notMem_chanRegs (by decide))
  exact hshown.trans (Extends.of_headOnly (HeadOnly.sweepStart s planes))

theorem State.sweepStart_cal (s : State) (planes : Nat) : (s.sweepStart planes).cal = s.cal := by
  rw [HeadOnly.sweepStart, State.setHeads_cal, State.sweepShown, State.putB_cal, State.put_cal, State.putB_cal, State.setLdg_cal]

/-- What a runner does at the start of its run leaves the channel's registers and every channel's record. -/
theorem State.calBegin_keeps (s : State) (c : Fin 7) :
    Extends (· ∉ chanRegs c) s (s.calBegin c) ∧ (s.calBegin c).cal.chans = s.cal.chans := by
  unfold State.calBegin
  split
  · exact ⟨Extends.sweepStart s _, by rw [State.sweepStart_cal]⟩
  · exact ⟨(Extends.setCal s _).put CAL_PT_STATUS_FOCUS _ (notMem_chanRegs (by decide)), rfl⟩
  · exact ⟨Extends.of_records rfl rfl, rfl⟩
  · exact ⟨Extends.of_records rfl rfl, rfl⟩
  · exact ⟨Extends.of_records rfl rfl, rfl⟩
  · exact ⟨Extends.of_records rfl rfl, rfl⟩
  · exact ⟨Extends.refl s, rfl⟩

theorem State.chan_setChan_same {n : Nat} (k : CalChan) (hn : n < s.cal.chans.length) : (s.setChan n k).chan n = k := by
  simp [State.chan, State.setChan, hn]

/-- A channel's record at the start of its run (R300, R301). -/
def State.runRecord (s : State) (c : Nat) : CalChan :=
  { s.chan c with start := s.time.cyc, startM := s.ldg.metres, tstart := s.calTemps c, jig := c == chPRINT && s.on CAL_PT_CTRL_JIG }

theorem State.calEnter_eq (s : State) (c : Nat) :
    s.calEnter c = ((s.put (CAL_CH_STATUS_RUN_STATE c) rsRUNNING).setChan c (s.runRecord c)).calBegin c := rfl

/-- A run that starts is shown RUNNING, and its time counts from now (R300). -/
theorem State.calEnter_shows (c : Fin 7) (hchans : s.cal.chans.length = 7) :
    (s.calEnter c).runState c = rsRUNNING ∧ ((s.calEnter c).chan c).start = s.time.cyc ∧
      ∀ e ∈ s.evtEntries, e ∈ (s.calEnter c).evtEntries := by
  have hrun : (s.put (CAL_CH_STATUS_RUN_STATE c) rsRUNNING).runState c = rsRUNNING := State.get_put_same _ _ _ rfl
  have hlen : c.val < (s.put (CAL_CH_STATUS_RUN_STATE c) rsRUNNING).cal.chans.length := by
    rw [State.put_cal, hchans]
    exact c.isLt
  obtain ⟨hkeeps, hchan⟩ := ((s.put (CAL_CH_STATUS_RUN_STATE c) rsRUNNING).setChan c (s.runRecord c)).calBegin_keeps c
  rw [State.calEnter_eq]
  refine ⟨?_, ?_, fun e he => hkeeps.entries e he⟩
  · exact (hkeeps.get _ (by simp [CAL_CH_STATUS_RUN_STATE, chanRegs])).trans hrun
  · rw [State.chan, hchan, ← State.chan, State.chan_setChan_same _ hlen]
    rfl

/-- A command that cannot be obeyed shows CMD_ERR and nothing else (R304). -/
theorem State.calCmdErr_shows (s : State) (k : Nat) :
    (s.calCmdErr k).trackIrq.on (CAL_CH_STATUS_CMD_ERR k) = true ∧ (s.calCmdErr k).trackIrq.runState k = s.runState k ∧
      Silent s (s.calCmdErr k).trackIrq [CAL_CH_STATUS k] := by
  have herr := s.on_putB_same (CAL_CH_STATUS_CMD_ERR k) true rfl
  have hstate := s.get_putB_apart (CAL_CH_STATUS_CMD_ERR k) (CAL_CH_STATUS_RUN_STATE k) true rfl (Fld.apart_of_bits rfl)
  have hsilent := Silent.of_regsOnly ((RegsOnly.refl s).putB (CAL_CH_STATUS_CMD_ERR k) true)
    ((Keeps.refl s [CAL_CH_STATUS k]).putB _ _ List.mem_cons_self)
  unfold State.calCmdErr
  generalize s.putB (CAL_CH_STATUS_CMD_ERR k) true = x at *
  exact ⟨herr, hstate, hsilent⟩

theorem State.calStartRun_shows (c : Fin 7) (auto : Bool) (hchans : s.cal.chans.length = 7) :
    (s.calStartRun c auto).runState c = rsRUNNING ∧ ((s.calStartRun c auto).chan c).start = s.time.cyc ∧
      Posts s (s.calStartRun c auto) Ev.CAL_STARTED c [b2n auto] := by
  obtain ⟨hrun, hstart, hentries⟩ := State.calEnter_shows (s := s.event Ev.CAL_STARTED c [b2n auto]) c (by rw [State.event_cal, hchans])
  rw [State.event_time] at hstart
  exact ⟨hrun, hstart, (Posts.of_event s s Ev.CAL_STARTED c [b2n auto] rfl rfl rfl (by decide)).after hentries⟩

end RunStart

/-! ### The end of a run (R300, R306 to R311) -/

/-- What the end of a run brings besides its figures: the channel's own registers and the ledger stay as they are, and entries are only
added (R75). -/
structure RunActs (c : Nat) (s x : State) : Prop extends GoesOn s x, Extends (· ∉ chanRegs c) s x where
  queue : s.hif.evtQueue.length ≤ x.hif.evtQueue.length
  ledger : x.ldg = s.ldg

section RunActs
variable {s x y : State} {c : Fin 7}

theorem RunActs.refl (s : State) : RunActs c s s := ⟨GoesOn.refl s, Extends.refl s, le_refl _, rfl⟩

theorem RunActs.trans (h : RunActs c s x) (h' : RunActs c x y) : RunActs c s y :=
  ⟨h.toGoesOn.trans h'.toGoesOn, h.toExtends.trans h'.toExtends, h.queue.trans h'.queue, h'.ledger.trans h.ledger⟩

theorem RunActs.foldl {α : Type} {f : State → α → State} (hf : ∀ y a, RunActs c y (f y a)) (l : List α) (s : State) :
    RunActs c s (l.foldl f s) :=
  List.foldlRecOn (motive := RunActs c s) l f (RunActs.refl s) fun y hy a _ => hy.trans (hf y a)

/-- A change of other records. -/
theorem RunActs.of_records (hregs : x.regs = s.regs) (hhif : x.hif = s.hif) (hldg : x.ldg = s.ldg) : RunActs c s x :=
  ⟨GoesOn.of_hif hhif, Extends.of_records hregs hhif, by rw [hhif], hldg⟩

theorem RunActs.put (h : RunActs c s x) (f : Fld) (v : Nat) (hf : f.off ∉ chanRegs c) : RunActs c s (x.put f v) :=
  ⟨h.toGoesOn.trans (GoesOn.of_hif (x.put_hif f v)), h.toExtends.put f v hf, by rw [State.put_hif]; exact h.queue,
    (x.put_ldg f v).trans h.ledger⟩

theorem RunActs.putB (h : RunActs c s x) (f : Fld) (b : Bool) (hf : f.off ∉ chanRegs c) : RunActs c s (x.putB f b) := h.put f _ hf

/-- Posting an entry takes none out of the internal queue (R75). -/
theorem State.evtPost_queue (s : State) (e : EvtEntry) : s.hif.evtQueue.length ≤ (s.evtPost e).hif.evtQueue.length := by
  unfold State.evtPost
  split
  · exact le_refl _
  · split
    · rw [State.addSat_hif]
    · dsimp only
      split_ifs
      · rw [State.evtWrite_queue]
        exact le_refl _
      · simp [State.evtEnqueue, State.evtTake]
      · rw [State.evtDrop, State.cause_hif, State.addSat_hif]
        exact le_refl _

theorem RunActs.event (h : RunActs c s x) (code u : Nat) (p : List Nat) : RunActs c s (x.event code u p) :=
  ⟨h.toGoesOn.event code u p, h.toExtends.event code u p fun a ha => notMem_chanRegs (.inl (by revert a; decide)),
    h.queue.trans (x.evtPost_queue _), (x.event_ldg code u p).trans h.ledger⟩

theorem RunActs.report (h : RunActs c s x) (code u : Nat) (p : List Nat) (f : Fld) (hf : 0xD0100 ≤ f.off) :
    RunActs c s (x.report code u p f) := (h.event code u p).putB f true (notMem_chanRegs (.inr hf))

theorem RunActs.setCal (s : State) (k : Cal) : RunActs c s (s.setCal k) := RunActs.of_records rfl rfl rfl
theorem RunActs.setChan (s : State) (k : Nat) (r : CalChan) : RunActs c s (s.setChan k r) := RunActs.setCal s _

theorem RunActs.jrn (s : State) (r : JrnRec) : RunActs c s (s.jrn r) := by
  obtain ⟨p, hp, -⟩ := s.jrn_par r
  rw [hp]
  exact RunActs.of_records rfl rfl rfl

theorem chanTref_notMem_chanRegs (c : Fin 7) : CAL_CH_TREF c ∉ chanRegs c := by
  simp only [chanRegs, CAL_CH_CFG, CAL_CH_STATUS, CAL_CH_Q, CAL_CH_TREF, RST_ISLAND, List.mem_cons, List.not_mem_nil, or_false]
  omega

theorem RunActs.showTref (s : State) : RunActs c s (s.showTref c) := by
  unfold State.showTref
  split
  · exact (RunActs.refl s).putB _ _ (chanTref_notMem_chanRegs c)
  · exact ((RunActs.refl s).put _ _ (chanTref_notMem_chanRegs c)).putB _ _ (chanTref_notMem_chanRegs c)

theorem RunActs.calDrop (s : State) (k : Nat) : RunActs c s (s.calDrop k) := by
  unfold State.calDrop
  split <;> exact RunActs.of_records rfl rfl rfl

theorem RunActs.adoptTargets (s : State) : RunActs c s s.adoptTargets :=
  RunActs.foldl (fun y _ => (RunActs.setCal y _).trans (RunActs.jrn _ _)) s.cal.pend s

/-- The figures of each plane are shown and alarms raised (R323, R324). -/
theorem RunActs.printRunEnd (s : State) : RunActs c s s.printRunEnd := by
  have hqual : ∀ q, CAL_PT_QUAL q ∉ chanRegs c := fun q => notMem_chanRegs (.inr (by unfold CAL_PT_QUAL; omega))
  unfold State.printRunEnd
  extract_lets rms mx s1 s2 s3
  have hshown : RunActs c s s1 := RunActs.foldl (fun y q => ((RunActs.refl y).put _ _ (hqual q)).put _ _ (hqual q)) _ s
  have hposted : RunActs c s s2 := hshown.event Ev.PT_RESULT chPRINT _
  have halarms : RunActs c s2 s3 := RunActs.foldl (fun y q => (RunActs.refl y).report _ _ _ CAL_IRQ_CAUSE_QUAL_ALARM (by decide)) _ s2
  exact (((hposted.trans halarms).trans (RunActs.setCal s3 _)).putB CAL_PT_CTRL_JIG _ (notMem_chanRegs (by decide))).put CAL_PT_STATUS_FOCUS _
    (notMem_chanRegs (by decide))

/-- An event that is among the entries stays there. -/
theorem PostsSome.onward {code u : Nat} (h : PostsSome s x code u) (hacts : RunActs c x y) : PostsSome s y code u := by
  intro hrun hlink hroom
  obtain ⟨e, he, htyp, hcode, hunit, k, hfrom, hto, hseq⟩ := h hrun hlink (hacts.queue.trans_lt hroom)
  exact ⟨e, hacts.entries e he, htyp, hcode, hunit, k, hfrom, hto.trans_le hacts.next, hseq⟩

/-- An event of a command's later part is the command's. -/
theorem PostsSome.since {code u : Nat} (hgo : GoesOn s x) (hisland : x.rget (RST_ISLAND 1) = s.rget (RST_ISLAND 1))
    (h : PostsSome x y code u) : PostsSome s y code u := by
  intro hrun hlink hroom
  obtain ⟨e, he, htyp, hcode, hunit, k, hfrom, hto, hseq⟩ :=
    h ((State.islandRuns_congr s x 1 hisland).trans hrun) (hgo.linkUp.trans hlink) hroom
  exact ⟨e, he, htyp, hcode, hunit, k, hgo.next.trans hfrom, hto, hseq⟩

end RunActs

/-! #### What an ended run shows -/

/-- A channel shows its run ended with an outcome and two figures; its settings and the ledger are as before (R300, R306). -/
structure RunEnded (c outcome q0 q1 : Nat) (s x : State) : Prop extends GoesOn s x where
  island : x.rget (RST_ISLAND 1) = s.rget (RST_ISLAND 1)
  idle : x.runState c = rsIDLE
  last : x.get (CAL_CH_STATUS_LAST c) = outcome
  first : x.get (CAL_CH_Q_Q0 c) = min 65535 q0
  second : x.get (CAL_CH_Q_Q1 c) = min 65535 q1
  again : x.on (CAL_CH_STATUS_AGAIN c) = s.on (CAL_CH_STATUS_AGAIN c)
  cont : x.on (CAL_CH_CFG_CONT c) = s.on (CAL_CH_CFG_CONT c)
  ledger : x.ldg = s.ldg

section RunEnd
variable {s x y : State} {c : Fin 7} {outcome q0 q1 : Nat}

theorem RunEnded.acts (h : RunEnded c outcome q0 q1 s x) (hacts : RunActs c x y) : RunEnded c outcome q0 q1 s y where
  toGoesOn := h.toGoesOn.trans hacts.toGoesOn
  island := (hacts.rget _ (by simp [chanRegs])).trans h.island
  idle := (hacts.get _ (by simp [chanRegs, CAL_CH_STATUS_RUN_STATE])).trans h.idle
  last := (hacts.get _ (by simp [chanRegs, CAL_CH_STATUS_LAST])).trans h.last
  first := (hacts.get _ (by simp [chanRegs, CAL_CH_Q_Q0])).trans h.first
  second := (hacts.get _ (by simp [chanRegs, CAL_CH_Q_Q1])).trans h.second
  again := (hacts.on _ (by simp [chanRegs, CAL_CH_STATUS_AGAIN])).trans h.again
  cont := (hacts.on _ (by simp [chanRegs, CAL_CH_CFG_CONT])).trans h.cont
  ledger := hacts.ledger.trans h.ledger

/-- The outcome and the figures of a run, and its channel idle. -/
def State.runFigures (s : State) (c outcome q0 q1 : Nat) : State :=
  ((((s.put (CAL_CH_STATUS_LAST c) outcome).put (CAL_CH_STATUS_RUNS c) (s.get (CAL_CH_STATUS_RUNS c) + 1)).put
    (CAL_CH_Q_Q0 c) (min 65535 q0)).put (CAL_CH_Q_Q1 c) (min 65535 q1)).put (CAL_CH_STATUS_RUN_STATE c) rsIDLE

theorem chanRegs_distinct (c : Fin 7) : CAL_CH_Q c ≠ CAL_CH_STATUS c ∧ CAL_CH_Q c ≠ CAL_CH_CFG c ∧ CAL_CH_STATUS c ≠ CAL_CH_CFG c ∧
    CAL_CH_Q c ≠ RST_ISLAND 1 ∧ CAL_CH_STATUS c ≠ RST_ISLAND 1 := by
  simp only [CAL_CH_CFG, CAL_CH_STATUS, CAL_CH_Q, RST_ISLAND]
  omega

theorem State.get_runFigures (s : State) (k outcome q0 q1 : Nat) {f : Fld} (hlast : (CAL_CH_STATUS_LAST k).apart f)
    (hruns : (CAL_CH_STATUS_RUNS k).apart f) (hrun : (CAL_CH_STATUS_RUN_STATE k).apart f) (hq : CAL_CH_Q k ≠ f.off) :
    (s.runFigures k outcome q0 q1).get f = s.get f := by
  rw [State.runFigures, State.get_put_apart _ _ _ _ rfl hrun, State.get_put_apart _ _ _ _ rfl (.inl hq),
    State.get_put_apart _ _ _ _ rfl (.inl hq), State.get_put_apart _ _ _ _ rfl hruns, State.get_put_apart _ _ _ _ rfl hlast]

theorem min_figure_mod (q : Nat) : min 65535 q % 2 ^ 16 = min 65535 q := Nat.mod_eq_of_lt (by omega)

theorem RunEnded.runFigures (s : State) (c : Fin 7) (q0 q1 : Nat) (hout : outcome < 8) :
    RunEnded c outcome q0 q1 s (s.runFigures c outcome q0 q1) := by
  obtain ⟨hqs, hqcfg, hscfg, hqisl, hsisl⟩ := chanRegs_distinct c
  refine ⟨GoesOn.of_hif (by simp only [State.runFigures, State.put_hif]), ?_, State.get_put_same _ _ _ rfl, ?_, ?_, ?_, ?_, ?_, ?_⟩
  · rw [State.runFigures, State.rget_put_ne _ _ _ _ hsisl, State.rget_put_ne _ _ _ _ hqisl, State.rget_put_ne _ _ _ _ hqisl,
      State.rget_put_ne _ _ _ _ hsisl, State.rget_put_ne _ _ _ _ hsisl]
  · rw [State.runFigures, State.get_put_apart _ _ _ _ rfl (Fld.apart_of_bits rfl), State.get_put_apart _ _ _ _ rfl (.inl hqs),
      State.get_put_apart _ _ _ _ rfl (.inl hqs), State.get_put_apart _ _ _ _ rfl (Fld.apart_of_bits rfl), State.get_put_same _ _ _ rfl]
    exact Nat.mod_eq_of_lt hout
  · rw [State.runFigures, State.get_put_apart _ _ _ _ rfl (.inl hqs.symm), State.get_put_apart _ _ _ _ rfl (Fld.apart_of_bits rfl),
      State.get_put_same _ _ _ rfl]
    exact min_figure_mod q0
  · rw [State.runFigures, State.get_put_apart _ _ _ _ rfl (.inl hqs.symm), State.get_put_same _ _ _ rfl]
    exact min_figure_mod q1
  · exact State.on_eq_of_get _ _ _
      (s.get_runFigures c outcome q0 q1 (Fld.apart_of_bits rfl) (Fld.apart_of_bits rfl) (Fld.apart_of_bits rfl) hqs)
  · exact State.on_eq_of_get _ _ _ (s.get_runFigures c outcome q0 q1 (.inl hscfg) (.inl hscfg) (.inl hscfg) hqcfg)
  · simp only [State.runFigures, State.put_ldg]

/-- STALE is none of what shows a run's end. -/
theorem RunEnded.stale (h : RunEnded c outcome q0 q1 s x) (b : Bool) : RunEnded c outcome q0 q1 s (x.putB (CAL_CH_STATUS_STALE c) b) := by
  obtain ⟨hqs, -, hscfg, -, hsisl⟩ := chanRegs_distinct c
  exact
  { toGoesOn := h.toGoesOn.trans (GoesOn.of_hif (x.putB_hif ..))
    island := (State.rget_putB_ne _ _ _ _ hsisl).trans h.island
    idle := (State.get_putB_apart _ _ _ _ rfl (Fld.apart_of_bits rfl)).trans h.idle
    last := (State.get_putB_apart _ _ _ _ rfl (Fld.apart_of_bits rfl)).trans h.last
    first := (State.get_putB_apart _ _ _ _ rfl (.inl hqs.symm)).trans h.first
    second := (State.get_putB_apart _ _ _ _ rfl (.inl hqs.symm)).trans h.second
    again := (State.on_putB_apart _ _ _ _ rfl (Fld.apart_of_bits rfl)).trans h.again
    cont := (State.on_putB_apart _ _ _ _ rfl (.inl hscfg)).trans h.cont
    ledger := (x.putB_ldg ..).trans h.ledger }

/-- An ended run is reported. -/
theorem RunEnded.reported (h : RunEnded c outcome q0 q1 s x) {code : Nat} (p : List Nat) {f : Fld} (hf : 0xD0100 ≤ f.off)
    (hcode : code ≠ Ev.EVT_LOST) :
    RunEnded c outcome q0 q1 s (x.report code c p f) ∧ PostsSome s (x.report code c p f) code c :=
  ⟨h.acts ((RunActs.refl x).report code c p f hf), PostsSome.of_event p h.toGoesOn h.island hcode (State.cause_hif ..)⟩

/-- The event of a run's end. -/
def endEvent (outcome : Nat) : Nat := if outcome = ocOK then Ev.CAL_DONE else Ev.CAL_FAILED

/-- A run that is not asked for again, and whose channel does not run on, ends with its outcome, its figures and its event. -/
theorem State.calEnd_shows (q0 q1 : Nat) (hout : outcome < 8) (hagain : s.on (CAL_CH_STATUS_AGAIN c) = false)
    (hcont : s.on (CAL_CH_CFG_CONT c) = false) :
    RunEnded c outcome q0 q1 s (s.calEnd c outcome q0 q1) ∧ PostsSome s (s.calEnd c outcome q0 q1) (endEvent outcome) c := by
  unfold State.calEnd
  extract_lets k len s1 s2 s3 s4
  have hfigures : RunEnded c outcome q0 q1 s s1 := RunEnded.runFigures s c q0 q1 hout
  have hreported : RunEnded c outcome q0 q1 s s2 ∧ PostsSome s s2 (endEvent outcome) c := by
    unfold s2 endEvent
    split
    · have hstale : RunEnded c outcome q0 q1 s
          (if s.on (CAL_CH_STATUS_AGAIN c) then s1 else s1.putB (CAL_CH_STATUS_STALE c) false) := by
        rw [if_neg (by rw [hagain]; decide)]
        exact hfigures.stale false
      exact ((hstale.acts (RunActs.setChan ..)).acts (RunActs.showTref _)).reported _ (f := CAL_IRQ_CAUSE_DONE) (by decide) (by decide)
    · exact ((hfigures.acts (RunActs.setChan ..)).acts (RunActs.calDrop ..)).reported _ (f := CAL_IRQ_CAUSE_FAILED) (by decide) (by decide)
  have hprint : RunActs c s2 s3 := by
    unfold s3
    split_ifs
    · exact (RunActs.adoptTargets s2).trans (RunActs.printRunEnd _)
    · exact RunActs.printRunEnd s2
    · exact RunActs.refl s2
  obtain ⟨hended, hposted⟩ := hreported
  have hlast := hended.acts hprint
  rw [if_neg (by rw [hlast.again, hagain]; decide), if_neg (by rw [hlast.cont, hcont]; exact fun h => absurd h.1 (by decide))]
  exact ⟨hlast, hposted.onward hprint⟩

/-! #### The commands that end a run (R304, R305, R307) -/

/-- COMPLETE ends a DRAM run with firmware's figures (R305). -/
theorem State.calComplete_dram (hrun : s.runState 3 = rsRUNNING) :
    s.calComplete 3 = s.dramTrained.calEnd 3 ocOK (s.get (CAL_CH_FWQ_Q0 3)) (s.get (CAL_CH_FWQ_Q1 3)) := if_pos ⟨rfl, hrun⟩

theorem State.calTimeout_run {k : Nat} (hrun : s.runState k = rsRUNNING) (hk : k ≠ chSWEEP) :
    s.calTimeout k = s.calEnd k ocTIMEOUT (s.calQ k).1 (s.calQ k).2 := by
  rw [State.calTimeout, if_neg (not_not_intro hrun), if_neg fun h => hk h.1]

/-- What ABANDON gives up before the run ends: a SWEEP's tile sweeps. -/
def State.sweepAbandoned (s : State) (c : Nat) : State :=
  if c = chSWEEP then ((s.setLdg { s.ldg with sweep := none }).putB LDG_STATUS_SWEEP_BUSY false).putB LDG_SWEEP_STATUS_RUNNING false else s

theorem State.calAbandon_run {k : Nat} (hrun : s.runState k = rsRUNNING) :
    s.calAbandon k = (s.sweepAbandoned k).calEnd k ocABANDONED (s.calQ k).1 (s.calQ k).2 := if_neg (not_not_intro hrun)

theorem State.sweepAbandoned_keeps (s : State) (c : Fin 7) :
    GoesOn s (s.sweepAbandoned c) ∧ Extends (· ∉ chanRegs c) s (s.sweepAbandoned c) ∧
      (c.val = chSWEEP → (s.sweepAbandoned c).ldg.sweep = none) := by
  unfold State.sweepAbandoned
  split
  · exact ⟨GoesOn.of_hif rfl, ((Extends.of_records rfl rfl : Extends _ s (s.setLdg { s.ldg with sweep := none })).putB LDG_STATUS_SWEEP_BUSY false
      (notMem_chanRegs (by decide))).putB LDG_SWEEP_STATUS_RUNNING false (notMem_chanRegs (by decide)), fun _ => rfl⟩
  · next hother => exact ⟨GoesOn.refl s, Extends.refl s, fun h => absurd h hother⟩

end RunEnd

/-- Settles O38: a trigger shows a channel due or the run to be repeated (`State.calTrigger_due`, `State.againShown_shows`), the comparison of
temperatures being one trigger per channel (`State.calTempCheck_channel`); a run starts by `State.calStartRun_shows` and ends by
`State.calEnd_shows`. -/
theorem calibrationRuns : Obligations.CalibrationRuns := by
  unfold Obligations.CalibrationRuns
  refine ⟨?requested, ?repeated, ?scheduled, ?compared, ?started, ?refused, ?auto, ?completed, ?timedOut, ?abandoned⟩
  case requested =>
    intro s req c hreq hrun hidle
    obtain ⟨hdue, hstale, hposts⟩ := State.calTrigger_due c 3 0 hidle
    exact ⟨_, congrArg finish (State.reqWrite_chan c (fun s => s.calReq c) hreq hrun), hdue, hstale, hposts.trackIrq,
      Touches.calTrigger s c 3 0⟩
  case repeated =>
    intro s req c hreq hrun hrunning
    have heff := (State.reqWrite_chan c (fun s => s.calReq c) hreq hrun).trans (State.calTrigger_running 3 0 hrunning)
    obtain ⟨hstate, hagain, hstale⟩ := s.againShown_shows c
    have hsilent := Silent.of_regsOnly (RegsOnly.againShown s c) (Keeps.againShown s c)
    generalize s.againShown c = x at *
    exact ⟨_, congrArg finish heff, hstate.trans hrunning, hagain, hstale, hsilent⟩
  case scheduled =>
    intro s c hidle hen hended
    have heff : s.calSchedule c = s.calTrigger c 2 0 := if_pos ⟨hen, Option.isSome_iff_ne_none.mpr hended⟩
    obtain ⟨hdue, -, hposts⟩ := State.calTrigger_due c 2 0 hidle
    exact ⟨_, congrArg finish heff, hdue, hposts.trackIrq, Touches.calTrigger s c 2 0⟩
  case compared =>
    intro s
    refine ⟨_, rfl, fun c hen hmoves hidle => ?_, fun c hnone => ?_, ?_⟩
    · obtain ⟨x, hbefore, hown, hafter⟩ := s.calTempCheck_channel c
      obtain ⟨m, hm⟩ := State.tempTrigger_moved (s := x) (c := c)
        ((State.on_eq_of_get _ _ _ (State.get_eq_of_rget _ _ _ (hbefore.2 _ (chanCfg_notMem_compareRegs c)))).trans hen)
        (by rwa [hbefore.calMoves])
      obtain ⟨hdue, hstale, -⟩ := State.calTrigger_due (s := x) c 1 m ((State.get_eq_of_rget _ _ _ hown).trans hidle)
      rw [hm] at hafter
      exact ⟨(State.get_eq_of_rget _ _ _ hafter).trans hdue, (State.on_eq_of_get _ _ _ (State.get_eq_of_rget _ _ _ hafter)).trans hstale⟩
    · obtain ⟨x, hbefore, hown, hafter⟩ := s.calTempCheck_channel c
      rw [State.tempTrigger_none (s := x), hown] at hafter
      · exact hafter
      · rwa [State.on_eq_of_get _ _ _ (State.get_eq_of_rget _ _ _ (hbefore.2 _ (chanCfg_notMem_compareRegs c))), hbefore.calMoves]
    · rw [State.calTempCheck_eq]
      exact Touches.tempTriggers _ s
  case started =>
    intro s req c hreq hrun hdue hcan hchans
    have heff := (State.reqWrite_chan c (fun s => s.calStart c) hreq hrun).trans (if_pos ⟨hdue, hcan⟩)
    obtain ⟨hrunning, hstart, hposts⟩ := State.calStartRun_shows c false hchans
    exact ⟨_, congrArg finish heff, hrunning, hstart, hposts.trackIrq⟩
  case refused =>
    intro s req c hreq hrun hdue
    have heff : s.reqWrite req (CAL_CH_CMD c) (fun s => s.calStart c) = s.calCmdErr c :=
      (State.reqWrite_chan c (fun s => s.calStart c) hreq hrun).trans (if_neg fun h => hdue h.1)
    obtain ⟨herr, hstate, hsilent⟩ := s.calCmdErr_shows c
    exact ⟨_, congrArg finish heff, herr, hstate, hsilent⟩
  case auto =>
    intro s c hdue hauto hcan hchans
    have heff : s.calAuto c = s.calStartRun c true := if_pos ⟨hdue, hauto, hcan⟩
    obtain ⟨hrunning, hstart, hposts⟩ := State.calStartRun_shows c true hchans
    exact ⟨_, congrArg finish heff, hrunning, hstart, hposts.trackIrq⟩
  case completed =>
    intro s req hreq hrun hrunning hagain hcont
    have heff := (State.reqWrite_chan 3 (fun s => s.calComplete 3) hreq hrun).trans (State.calComplete_dram hrunning)
    obtain ⟨hended, hposts⟩ := State.calEnd_shows (s := s.dramTrained) (c := 3) (outcome := ocOK) (s.get (CAL_CH_FWQ_Q0 3))
      (s.get (CAL_CH_FWQ_Q1 3)) (by decide) hagain hcont
    exact ⟨_, congrArg finish heff, hended.idle, hended.last, hended.first, hended.second, hposts.trackIrq⟩
  case timedOut =>
    intro s c hrunning hother hagain hcont
    have heff := State.calTimeout_run hrunning fun h => hother (Fin.ext h)
    obtain ⟨hended, hposts⟩ := State.calEnd_shows (outcome := ocTIMEOUT) (s.calQ c).1 (s.calQ c).2 (by decide) hagain hcont
    exact ⟨_, congrArg finish heff, hended.idle, hended.last, hposts.trackIrq⟩
  case abandoned =>
    intro s req c hreq hrun hrunning hagain hcont
    have heff := (State.reqWrite_chan c (fun s => s.calAbandon c) hreq hrun).trans (State.calAbandon_run hrunning)
    obtain ⟨hgo, hkeeps, hsweep⟩ := s.sweepAbandoned_keeps c
    obtain ⟨hended, hposts⟩ := State.calEnd_shows (s := s.sweepAbandoned c) (c := c) (outcome := ocABANDONED) (s.calQ c).1 (s.calQ c).2 (by decide)
      ((hkeeps.on _ (by simp [chanRegs, CAL_CH_STATUS_AGAIN])).trans hagain) ((hkeeps.on _ (by simp [chanRegs, CAL_CH_CFG_CONT])).trans hcont)
    refine ⟨_, congrArg finish heff, hended.idle, hended.last, fun hzero => ?_, ?_⟩
    · rw [State.trackIrq_ldg, hended.ledger]
      exact hsweep (congrArg Fin.val hzero)
    · exact (PostsSome.since hgo (hkeeps.rget _ (by simp [chanRegs])) hposts).trackIrq

end Sys2Proof.Machine

namespace Sys2Proof.Machine

/-! ### Trims through the window (R313, R314) -/

section TrimWindow
variable {s x : State}

/-- A column's new target in the calibration's record. -/
def Cal.retarget (k : Cal) (key : Nat) (t : Int) : Cal := { k with cols := k.cols.set key { k.cols.get key CalCol.reset with target := t } }

/-- A column's new live trim. -/
def Cal.relive (k : Cal) (key : Nat) (t : Int) : Cal := { k with cols := k.cols.set key { k.cols.get key CalCol.reset with live := t } }

theorem Cal.retarget_same (k : Cal) (key : Nat) (t : Int) :
    (k.retarget key t).cols.get key CalCol.reset = { k.cols.get key CalCol.reset with target := t } := AMap.get_set_same ..

theorem Cal.relive_retarget (k : Cal) (key : Nat) (t : Int) :
    ((k.retarget key t).relive key t).cols.get key CalCol.reset = { k.cols.get key CalCol.reset with target := t, live := t } ∧
      ∀ j, j ≠ key → ((k.retarget key t).relive key t).cols.get j CalCol.reset = k.cols.get j CalCol.reset := by
  refine ⟨(AMap.get_set_same ..).trans ?_, fun j hj => ?_⟩
  · rw [Cal.retarget_same]
  · exact (AMap.get_set_ne _ _ _ _ _ hj.symm).trans (AMap.get_set_ne _ _ _ _ _ hj.symm)

/-- A new target is journalled. -/
theorem State.setTarget_par (s : State) (key : Nat) (t : Int) : ∃ p, s.setTarget key t = { s with cal := s.cal.retarget key t, par := p } := by
  obtain ⟨p, hp, -⟩ := (s.setCal (s.cal.retarget key t)).jrn_par (.trims (key / 2 ^ 18) (key % 2 ^ 18) [t])
  exact ⟨p, hp⟩

/-- Without a job the live trim follows the target at once. -/
theorem State.trimWrite_idle {v : Word} (hidle : s.get PGP_SCHED_STATUS_JOB_STATE = jsIdle) (hinc : s.on CAL_TRIM_SEL_AUTO_INC = false) :
    ∃ p, s.trimWrite v =
      { s with cal := (s.cal.retarget s.trimKey (sgn 8 v.toNat)).relive s.trimKey (sgn 8 v.toNat), par := p } := by
  obtain ⟨p, hp⟩ := s.setTarget_par s.trimKey (sgn 8 v.toNat)
  refine ⟨p, ?_⟩
  unfold State.trimWrite
  dsimp only
  rw [hp, if_pos hidle]
  exact if_neg (by rw [Bool.not_eq_true]; exact hinc)

/-- With a job the target alone is written, and the window may move on. -/
theorem State.trimWrite_job {v : Word} (hjob : s.get PGP_SCHED_STATUS_JOB_STATE ≠ jsIdle) (hinc : s.on CAL_TRIM_SEL_AUTO_INC = true) :
    ∃ p, s.trimWrite v = ({ s with cal := s.cal.retarget s.trimKey (sgn 8 v.toNat), par := p } : State).put CAL_TRIM_SEL_COLUMN
      (s.get CAL_TRIM_SEL_COLUMN + 1) := by
  obtain ⟨p, hp⟩ := s.setTarget_par s.trimKey (sgn 8 v.toNat)
  refine ⟨p, ?_⟩
  unfold State.trimWrite
  dsimp only
  rw [hp, if_neg hjob]
  exact if_pos hinc

/-- A write of CAL_TRIM_DATA by a requester takes effect while the page island runs. -/
theorem State.reqWrite_trimData {req : Fin 6} (f : State → State) (hreq : req ≠ 5) (hrun : s.islandRuns 2 = true) :
    s.reqWrite req CAL_TRIM_DATA f = f s :=
  State.reqWrite_runs s req _ f (reaches_of_ne hreq _) hrun

end TrimWindow

/-! ### The end of a band's visit (R321, R322) -/

theorem AMap.has_set_same {α : Type} (m : AMap α) (k : Nat) (v : α) : (m.set k v).has k = true := by
  induction m with
  | nil => simp [AMap.set, AMap.has]
  | cons e r ih =>
    unfold AMap.set
    split_ifs
    · exact (Bool.or_eq_true ..).mpr (.inr ih)
    · simp [AMap.has]
    · simp [AMap.has]

theorem AMap.has_set {α : Type} {m : AMap α} {j : Nat} (k : Nat) (v : α) (h : m.has j = true) : (m.set k v).has j = true := by
  induction m with
  | nil => exact absurd h (by simp [AMap.has])
  | cons e r ih =>
    have hj : e.1 = j ∨ AMap.has r j = true := by simpa [AMap.has] using h
    unfold AMap.set
    split_ifs with hlt heq
    · exact (Bool.or_eq_true ..).mpr (hj.imp (by simp) ih)
    · rw [← heq]
      simpa [AMap.has] using hj
    · exact (Bool.or_eq_true ..).mpr (.inr h)

/-- What finalising columns leaves: pending targets are only added, and of the record only they and the quality sums change. -/
structure Finalises (s x : State) : Prop where
  only : x = { s with regs := x.regs, cal := { s.cal with pend := x.cal.pend, qual := x.cal.qual } }
  keeps : Keeps s x [CAL_PT_TRIM_LIMIT]
  pending : ∀ k, s.cal.pend.has k = true → x.cal.pend.has k = true

section Band
variable {s x y : State}

theorem Finalises.refl (s : State) : Finalises s s := ⟨rfl, Keeps.refl s _, fun _ h => h⟩

theorem Finalises.trans (h : Finalises s x) (h' : Finalises x y) : Finalises s y := by
  refine ⟨?_, h.keeps.trans h'.keeps, fun k hk => h'.pending k (h.pending k hk)⟩
  rw [h'.only, h.only]

theorem Finalises.addSat (h : Finalises s x) (n : Nat) : Finalises s (x.addSat CAL_PT_TRIM_LIMIT_COUNT n) := by
  refine ⟨?_, h.keeps.addSat _ _ List.mem_cons_self, fun k hk => h.pending k hk⟩
  rw [h.only]
  rfl

/-- Beside the calibration's record, finalising columns changes the count of limited trims alone. -/
theorem Finalises.alters (h : Finalises s x) (k : Cal) :
    Alters s (x.setCal k).trackIrq { s with cal := k } [CAL_PT_TRIM_LIMIT] := by
  refine Alters.of_regsOnly rfl ?_ h.keeps
  rw [RegsOnly, h.only]
  rfl

/-- A confident column has a pending target (R322). -/
theorem State.finaliseColumn_finalises (s : State) (k : Nat) (a : Sums) :
    Finalises s (s.finaliseColumn k a) ∧ (s.finaliseColumn k a).cal.pend.has k = true := by
  unfold State.finaliseColumn
  extract_lets q eps jig d st d1 old new dens sums book s1
  have hcolumn : Finalises s s1 := ⟨rfl, Keeps.refl s _, fun j hj => AMap.has_set k new hj⟩
  have hpending : s1.cal.pend.has k = true := AMap.has_set_same ..
  split
  · exact ⟨hcolumn.addSat 1, hpending⟩
  · exact ⟨hcolumn, hpending⟩

theorem State.finaliseColumns_finalise (l : List (Nat × Sums)) (s : State) :
    Finalises s (l.foldl (fun s e => s.finaliseColumn e.1 e.2) s) ∧
      ∀ e ∈ l, (l.foldl (fun s e => s.finaliseColumn e.1 e.2) s).cal.pend.has e.1 = true := by
  induction l generalizing s with
  | nil => exact ⟨Finalises.refl s, fun e he => absurd he List.not_mem_nil⟩
  | cons e l ih =>
    obtain ⟨hfirst, hpending⟩ := s.finaliseColumn_finalises e.1 e.2
    obtain ⟨hrest, hothers⟩ := ih (s.finaliseColumn e.1 e.2)
    refine ⟨hfirst.trans hrest, fun f hf => ?_⟩
    rcases List.mem_cons.mp hf with rfl | hf
    · exact hrest.pending _ hpending
    · exact hothers f hf

/-- Which bands are viewed does not depend on the count of limited trims. -/
theorem Finalises.viewedFrom (h : Finalises s x) (b : Nat) : x.viewedFrom b = s.viewedFrom b := by
  have hget : ∀ f : Fld, f.off ≠ CAL_PT_TRIM_LIMIT → x.get f = s.get f := fun f hf =>
    State.get_eq_of_rget _ _ _ (h.keeps _ (by simpa using hf))
  have huse : ∀ c, x.on (CAL_VIEW_CTRL_USE c) = s.on (CAL_VIEW_CTRL_USE c) := fun c =>
    State.on_eq_of_get _ _ _ (hget _ (show CAL_VIEW_CTRL c ≠ CAL_PT_TRIM_LIMIT by simp only [CAL_VIEW_CTRL, CAL_PT_TRIM_LIMIT]; omega))
  have hspan : ∀ c, x.viewSpan c = s.viewSpan c := fun c => by
    have hcol : CAL_VIEW_COL0 c ≠ CAL_PT_TRIM_LIMIT := by simp only [CAL_VIEW_COL0, CAL_PT_TRIM_LIMIT]; omega
    have hwidth : CAM_CTX_SIZE c ≠ CAL_PT_TRIM_LIMIT := by simp only [CAM_CTX_SIZE, CAL_PT_TRIM_LIMIT]; omega
    have hpitch : CAL_VIEW_PITCH c ≠ CAL_PT_TRIM_LIMIT := by simp only [CAL_VIEW_PITCH, CAL_PT_TRIM_LIMIT]; omega
    simp only [State.viewSpan, State.getS, hget (CAL_VIEW_COL0_COL0 c) hcol, hget (CAM_CTX_SIZE_WIDTH c) hwidth,
      hget (CAL_VIEW_PITCH_PITCH c) hpitch]
  have htiles : ∀ q, x.planeTiles q = s.planeTiles q := fun q => by
    have hpress : x.press = s.press := by rw [h.only]
    have hgeom : PLN_GEOM q ≠ CAL_PT_TRIM_LIMIT := by simp only [PLN_GEOM, CAL_PT_TRIM_LIMIT]; omega
    rw [State.planeTiles, hpress, hget (PLN_GEOM_TILES q) hgeom, ← State.planeTiles]
  simp only [State.viewedFrom, State.bandViewed, huse, hspan, htiles]

/-- The sums of a band that count: those of its confident columns, on planes whose drop volumes are in order (R321). -/
def State.bandSums (s : State) (b : Nat) : List (Nat × Sums) :=
  s.cal.acc.filter (fun e => e.1 % 2 ^ 18 / 16384 == b && s.confident e.2 && s.volOk (e.1 / 2 ^ 18))

/-- A band's columns have their targets. -/
def State.bandDone (s : State) (b : Nat) : State := (s.bandSums b).foldl (fun s e => s.finaliseColumn e.1 e.2) s

/-- A record without the visit that has ended and its band's sums. -/
def Cal.leaveBand (k : Cal) (b : Nat) : Cal := { k with prev := none, acc := k.acc.filter (fun e => !(e.1 % 2 ^ 18 / 16384 == b)) }

/-- With a viewed band to follow, a band is finalised and the run goes on. -/
theorem State.finaliseBand_next {b j n : Nat} (hprev : s.cal.prev = some (b, j)) (hrun : s.runState chPRINT = rsRUNNING)
    (hnext : s.viewedFrom (b + 1) = some n) : s.finaliseBand = (s.bandDone b).setCal ((s.bandDone b).cal.leaveBand b) := by
  have hviewed : ((s.bandDone b).setCal ((s.bandDone b).cal.leaveBand b)).viewedFrom (b + 1) = some n :=
    ((State.finaliseColumns_finalise _ s).1.viewedFrom (b + 1)).trans hnext
  unfold State.finaliseBand
  rw [hprev]
  dsimp only
  rw [if_neg (not_not_intro hrun)]
  unfold State.bandDone Cal.leaveBand State.bandSums at *
  rw [hviewed]

end Band

/-! ### Misfire evidence leaves the probes (R325, R326) -/

/-- The probes, and whether PROBE_FULL was told since one closed. -/
def State.probeBook (s : State) : List Probe × Bool := (s.cal.probes, s.cal.probeFull)

section Probes
variable {s x : State}

theorem State.probeBook_of_hidden (h : x.hidden = s.hidden) : x.probeBook = s.probeBook := by
  have hbook := congrArg State.probeBook h
  exact hbook

theorem HeadOnly.probeBook (h : HeadOnly s x) : x.probeBook = s.probeBook := by rw [h]; rfl

@[simp] theorem State.setLdg_probeBook (s : State) (l : Ledger) : (s.setLdg l).probeBook = s.probeBook := rfl
@[simp] theorem State.put_probeBook (s : State) (f : Fld) (v : Nat) : (s.put f v).probeBook = s.probeBook := rfl
@[simp] theorem State.putB_probeBook (s : State) (f : Fld) (b : Bool) : (s.putB f b).probeBook = s.probeBook := rfl
@[simp] theorem State.addSat_probeBook (s : State) (f : Fld) (n : Nat) : (s.addSat f n).probeBook = s.probeBook := rfl
@[simp] theorem State.cause_probeBook (s : State) (f : Fld) : (s.cause f).probeBook = s.probeBook := rfl
@[simp] theorem State.event_probeBook (s : State) (c u : Nat) (p : List Nat) : (s.event c u p).probeBook = s.probeBook :=
  State.probeBook_of_hidden (s.event_hidden c u p)
@[simp] theorem State.event'_probeBook (s : State) (c : Nat) (p : List Nat) : (s.event' c p).probeBook = s.probeBook :=
  State.probeBook_of_hidden (s.event'_hidden c p)

@[simp] theorem State.jrn_probeBook (s : State) (r : JrnRec) : (s.jrn r).probeBook = s.probeBook := by
  obtain ⟨p, hp, -⟩ := s.jrn_par r
  rw [hp]
  rfl

@[simp] theorem State.showHeld_probeBook (s : State) : s.showHeld.probeBook = s.probeBook := by
  unfold State.showHeld
  dsimp only
  split_ifs <;> simp

@[simp] theorem State.touch_probeBook (s : State) (a : Nat) (eff : Option Nat) : (s.touch a eff).probeBook = s.probeBook := by
  unfold State.touch
  split <;> simp

theorem State.setRec_probeBook (s : State) (g : Nat) (r : TileRec) : (s.setRec g r).probeBook = s.probeBook :=
  foldl_keeps State.probeBook (fun _ _ => State.touch_probeBook ..) _ _

theorem State.setNoz_probeBook (s : State) (g n st eff : Nat) : (s.setNoz g n st eff).probeBook = s.probeBook := State.touch_probeBook ..

@[simp] theorem State.setSuspect_probeBook (s : State) (i : Nat) (e : Option Suspect) : (s.setSuspect i e).probeBook = s.probeBook :=
  State.touch_probeBook ..

/-- Suspicion is the ledger's. -/
theorem State.suspect_probeBook (s : State) (g n : Nat) : (s.suspect g n).1.probeBook = s.probeBook := by
  unfold State.suspect
  dsimp only
  split
  · split <;> simp
  · split
    · simp
    · split <;> simp

/-- A column that dies loses its sums, not its probe (R324). -/
theorem State.columnEvent_probeBook (s : State) (g c m : Nat) (dead : Bool) (eff : Nat) :
    (s.columnEvent g c m dead eff).probeBook = s.probeBook := by
  unfold State.columnEvent
  extract_lets dies key s1
  have hevent : s1.probeBook = s.probeBook := State.event_probeBook ..
  split
  · rfl
  · exact hevent

theorem State.nozzleRetired_probeBook (s : State) (g n cause eff : Nat) : (s.nozzleRetired g n cause eff).probeBook = s.probeBook :=
  State.event_probeBook ..

theorem State.reportRetired_probeBook (s : State) (g eff : Nat) (ret : List (Nat × Nat)) : (s.reportRetired g eff ret).probeBook = s.probeBook :=
  foldl_keeps State.probeBook (fun _ _ => State.nozzleRetired_probeBook ..) ret s

theorem State.runEvents_probeBook (s : State) (g : Nat) (r : Nat × List Nat) (ret : List (Nat × Nat)) (eff : Nat) :
    (s.runEvents g r ret eff).probeBook = s.probeBook :=
  (State.reportRetired_probeBook ..).trans (foldl_keeps State.probeBook (fun _ _ => State.columnEvent_probeBook ..) _ s)

theorem State.changeRun_probeBook (s : State) (g : Nat) (r : Nat × List Nat) (ret : List (Nat × Nat)) :
    (s.changeRun g r ret).probeBook = s.probeBook := by
  unfold State.changeRun
  dsimp only
  split
  · split_ifs
    · exact (HeadOnly.sendChange ..).probeBook.trans (State.runEvents_probeBook ..)
    · rfl
  · split
    · exact State.runEvents_probeBook ..
    · exact (HeadOnly.sendNow ..).probeBook.trans (State.runEvents_probeBook ..)

theorem State.remask_probeBook (s : State) (g : Nat) (cols : List Nat) (ret : List (Nat × Nat)) : (s.remask g cols ret).probeBook = s.probeBook :=
  (foldl_keeps State.probeBook (fun _ _ => State.changeRun_probeBook ..) _ _).trans (State.reportRetired_probeBook ..)

theorem State.evidence_probeBook (s : State) (g n line : Nat) : (s.evidence g n line).probeBook = s.probeBook := by
  have hsuspect := s.suspect_probeBook g n
  unfold State.evidence
  generalize s.suspect g n = r at *
  obtain ⟨y, k⟩ := r
  dsimp only at hsuspect ⊢
  split_ifs
  · rfl
  · rw [State.remask_probeBook, State.setNoz_probeBook, State.setRec_probeBook, hsuspect]
  · rw [State.remask_probeBook, State.setNoz_probeBook, State.setRec_probeBook, hsuspect]

/-- A closed probe is gone, and there is room for the next (R326). -/
theorem State.closeProbe_probeBook (s : State) (p : Probe) : (s.closeProbe p).probeBook = (s.cal.probes.filter (fun x => x != p), false) := by
  refine (foldl_keeps State.probeBook (fun y t => foldl_keeps State.probeBook (fun z r => ?_) _ y) p.tiles _).trans rfl
  dsimp only
  split
  · exact State.evidence_probeBook ..
  · rfl

end Probes

/-- Settles O39: a write of the window is `State.trimWrite_idle` or `State.trimWrite_job`, a finalised band's columns are those of
`State.finaliseColumns_finalise`, and a closed probe's evidence leaves the other probes (`State.closeProbe_probeBook`). -/
theorem printThrough : Obligations.PrintThrough := by
  unfold Obligations.PrintThrough
  refine ⟨?idle, ?job, ?band, ?probe⟩
  case idle =>
    intro s req v hreq hrun hidle hinc
    obtain ⟨p, hp⟩ := State.trimWrite_idle (v := v) hidle hinc
    have heff := (State.reqWrite_trimData (fun s => s.trimWrite v) hreq hrun).trans hp
    obtain ⟨hcol, hothers⟩ := s.cal.relive_retarget s.trimKey (sgn 8 v.toNat)
    generalize (s.cal.retarget s.trimKey (sgn 8 v.toNat)).relive s.trimKey (sgn 8 v.toNat) = k at *
    exact ⟨_, congrArg finish heff, congrArg CalCol.target hcol, congrArg CalCol.live hcol, hothers,
      Alters.of_regsOnly rfl (RegsOnly.refl _) (Keeps.refl s [])⟩
  case job =>
    intro s req v hreq hrun hjob hinc
    obtain ⟨p, hp⟩ := State.trimWrite_job (v := v) hjob hinc
    have heff := (State.reqWrite_trimData (fun s => s.trimWrite v) hreq hrun).trans hp
    have hcol := s.cal.retarget_same s.trimKey (sgn 8 v.toNat)
    generalize s.cal.retarget s.trimKey (sgn 8 v.toNat) = k at *
    refine ⟨_, congrArg finish heff, hcol, (State.get_trackIrq _ _).trans ((State.get_put_same _ _ _ rfl).trans ?_),
      Alters.of_regsOnly rfl ((RegsOnly.refl _).put _ _) ((Keeps.refl s _).put _ _ List.mem_cons_self)⟩
    exact congrArg ((s.get CAL_TRIM_SEL_COLUMN + 1) % ·) (by decide)
  case band =>
    intro s b j n hprev hrun hnext
    obtain ⟨hfinal, hpending⟩ := State.finaliseColumns_finalise (s.bandSums b) s
    refine ⟨_, congrArg finish (State.finaliseBand_next hprev hrun hnext), rfl, fun e he => ?_, fun e he hb hconf hvol => ?_, ?_⟩
    · simpa using (List.mem_filter.mp he).2
    · exact hpending e (List.mem_filter.mpr ⟨he, by simp only [hb, hconf, hvol, beq_self_eq_true, Bool.and_self]⟩)
    · exact hfinal.alters _
  case probe =>
    intro s q c p hfind hdone
    have heff : exec (.probeClose q c) s = finish (s.closeProbe p) := by
      rw [show exec (.probeClose q c) s = execProbeClose q c s from rfl, execProbeClose, hfind]
      exact congrArg finish (if_pos hdone)
    obtain ⟨hprobes, hfull⟩ := Prod.mk.inj (s.closeProbe_probeBook p)
    exact ⟨_, heff, hprobes, hfull⟩

end Sys2Proof.Machine

namespace Sys2Proof.Machine

/-! ### The cameras' record (R332 to R338) -/

/-- Only the cameras' record and registers differ. -/
def CamRegs (s x : State) : Prop := x = { s with regs := x.regs, cam := x.cam }

/-- The registers that a frame start of a context writes: its status and the levels in force. -/
def frameStartRegs (x : Nat) : List Nat := CAM_CTX_STATUS x :: (List.range 4).map (CAM_CTX_BLACK x)

section Cameras
variable {s x y : State}

theorem CamRegs.refl (s : State) : CamRegs s s := rfl

theorem CamRegs.trans (h : CamRegs s x) (h' : CamRegs x y) : CamRegs s y := by
  unfold CamRegs at *
  rw [h', h]

theorem CamRegs.of_regsOnly (h : RegsOnly s x) : CamRegs s x := by
  unfold CamRegs RegsOnly at *
  rw [h]

theorem CamRegs.put (h : CamRegs s x) (f : Fld) (v : Nat) : CamRegs s (x.put f v) := h.trans (.of_regsOnly ((RegsOnly.refl x).put f v))
theorem CamRegs.addSat (h : CamRegs s x) (f : Fld) (n : Nat) : CamRegs s (x.addSat f n) := h.put _ _
theorem CamRegs.cause (h : CamRegs s x) (f : Fld) : CamRegs s (x.cause f) := h.put _ _
theorem CamRegs.setCam (h : CamRegs s x) (c : Cam) : CamRegs s (x.setCam c) := h.trans rfl
theorem CamRegs.setCctx (h : CamRegs s x) (k : Nat) (c : CamCtx) : CamRegs s (x.setCctx k c) := h.setCam _
theorem CamRegs.showPipes (h : CamRegs s x) : CamRegs s x.showPipes := (h.put _ _).put _ _
theorem CamRegs.time (h : CamRegs s x) : x.time = s.time := by rw [h]
theorem CamRegs.hif (h : CamRegs s x) : x.hif = s.hif := by rw [h]
theorem CamRegs.hidden (h : CamRegs s x) : x.hidden = ({ s with cam := x.cam } : State).hidden := by rw [h]; rfl

theorem CamRegs.alters {l : List Nat} (h : CamRegs s x) (hk : Keeps s x l) : Alters s x.trackIrq { s with cam := x.trackIrq.cam } l :=
  Alters.of_regsOnly rfl h hk

theorem Keeps.setCam {l : List Nat} (h : Keeps s x l) (c : Cam) : Keeps s (x.setCam c) l := h

/-- The pipelines' state is shown in one register, and changes no record. -/
theorem Keeps.showPipes {l : List Nat} (h : Keeps s x l) (hl : CAM_PIPE_STATUS ∈ l) : Keeps s x.showPipes l := (h.put _ _ hl).put _ _ hl

/-- Which context has a dedicated pipeline is read from CAM_PIPE_SEL (R337). -/
theorem State.dedicated_of_rget (h : x.rget CAM_PIPE_SEL = s.rget CAM_PIPE_SEL) (k : Nat) : x.dedicated k = s.dedicated k := by
  have hget (f : Fld) (hf : f.off = CAM_PIPE_SEL) : x.get f = s.get f := State.get_eq_of_rget s x f (hf ▸ h)
  have hon (f : Fld) (hf : f.off = CAM_PIPE_SEL) : x.on f = s.on f := State.on_eq_of_get s x f (hget f hf)
  simp only [State.dedicated, hon CAM_PIPE_SEL_VALID0 rfl, hget CAM_PIPE_SEL_CTX0 rfl, hon CAM_PIPE_SEL_VALID1 rfl,
    hget CAM_PIPE_SEL_CTX1 rfl]

theorem State.cctx_setCctx_same (s : State) {k : Nat} (c : CamCtx) (hk : k < s.cam.ctxs.length) : (s.setCctx k c).cctx k = c := by
  simp [State.cctx, State.setCctx, List.getD_eq_getElem?_getD, hk]

theorem State.get_setCam (s : State) (c : Cam) (f : Fld) : (s.setCam c).get f = s.get f := rfl
theorem State.get_updFrame (s : State) (k no : Nat) (g : Frame → Frame) (f : Fld) : (s.updFrame k no g).get f = s.get f := rfl
theorem State.updFrame_frames (s : State) (k no : Nat) (g : Frame → Frame) :
    (s.updFrame k no g).cam.frames = s.cam.frames.map (fun r => if r.ctx = k ∧ r.no = no then g r else r) := rfl
theorem State.openFrame_of_cam (h : x.cam = s.cam) (k : Nat) : x.openFrame k = s.openFrame k := by rw [State.openFrame, h, ← State.openFrame]
theorem State.on_updFrame (s : State) (k no : Nat) (g : Frame → Frame) (f : Fld) : (s.updFrame k no g).on f = s.on f := rfl

theorem State.get_camCount_same (s : State) (k i n : Nat) :
    (s.camCount k i n).get (CAM_CTX_CNT_COUNT k i) = min (2 ^ 32 - 1) (s.get (CAM_CTX_CNT_COUNT k i) + n) :=
  State.get_addSat_same _ _ _ rfl

theorem camCause_ne_ctxCnt (k : Nat) {i : Nat} (hi : i < 16) : CAM_IRQ_CAUSE ≠ CAM_CTX_CNT k i := by
  unfold CAM_IRQ_CAUSE CAM_CTX_CNT
  omega

theorem RegsOnly.cam (h : RegsOnly s x) : x.cam = s.cam := by rw [h]

/-! ### The commands of a port that is enabled -/

theorem execFrameStart_on {port : Fin 6} (vc : Fin 16) (h : s.on (CAM_PORT_CFG_EN port) = true) :
    execFrameStart port vc s = finish ((s.portTraffic port).frameStart port vc) := congrArg finish (if_pos h)

theorem execLineStart_on {port : Fin 6} {vc : Fin 16} {k : Nat} (h : s.on (CAM_PORT_CFG_EN port) = true) (hctx : s.ctxOf port vc = some k) :
    execLineStart port vc s = finish ((s.portTraffic port).lineBegin k) := by
  have htraffic : (s.portTraffic port).ctxOf port vc = some k := hctx
  rw [execLineStart, if_pos h, htraffic]

theorem execCsi2LongPacket_on {port : Fin 4} (vc : Fin 16) (dt : Fin 64) (ecc : EccHeader) (ok : Bool) (px : List (BitVec 16)) (room : Nat)
    (h : s.on (CAM_PORT_CFG_EN port) = true) :
    execCsi2LongPacket port vc dt ecc ok px room s =
      finish ((s.portTraffic port).longPacket port vc dt ecc ok (px.map (fun p => p.toNat)) room) := congrArg finish (if_pos h)

/-! ### Lines and packets (R328, R330, R335, R337) -/

variable {k : Nat} {f : Frame}

theorem State.lineDone_noFrame (h : s.openFrame k = none) : s.lineDone k = s := by rw [State.lineDone, h]

theorem State.lineDone_noLine (h : s.openFrame k = some f) (hcur : f.cur = none) : s.lineDone k = s := by
  simp only [State.lineDone, h, hcur]

theorem State.closeFrame_noFrame (h : s.openFrame k = none) : s.closeFrame k = s := by
  simp only [State.closeFrame, State.lineDone_noFrame h, h]

/-- The stamp of a line of a frame that starts now (R335). -/
def State.stampLine (s : State) (f : Frame) : CamLine :=
  { x := s.webXAt ((s.now : Int) - f.p.expo.toInt), nopos := s.press.job.isNone || s.masterFaulted
    t := (s.now : Int) - f.p.expo.toInt - f.start, crc := false, clean := true, pixels := [] }

/-- A line start stamps the line that its frame receives from now on. -/
theorem State.lineBegin_stamps (h : s.openFrame k = some f) (hcur : f.cur = none) :
    s.lineBegin k = s.updFrame k f.no (fun r => { r with cur := some (s.stampLine f), overrun := false }) := by
  simp only [State.lineBegin, State.lineDone_noLine h hcur, h]
  rfl

theorem State.longPacket_failed (port vc dt : Nat) (ok : Bool) (px : List Nat) (room : Nat) :
    s.longPacket port vc dt .failed ok px room = s.addSat (CAM_ECC_ERR_COUNT port) 1 := if_pos rfl

/-- A whole packet of the data type of its context brings its pixels. -/
theorem State.longPacket_good {port vc dt : Nat} (px : List Nat) (room : Nat) (hctx : s.ctxOf port vc = some k)
    (hdt : dt = 0x2A + s.get (CAM_CTX_CFG_DT k)) (hraw : dt ≤ 0x2D) :
    s.longPacket port vc dt .good true px room = s.pixelsIn k px room := by
  have hnull : ¬(dt = 0x10 ∨ dt = 0x11 ∨ dt = 0x12) := by omega
  have hrange : ¬(dt < 0x2A ∨ 0x2D < dt) := by omega
  have hsame : ¬dt ≠ 0x2A + s.get (CAM_CTX_CFG_DT k) := not_not.mpr hdt
  simp only [State.longPacket, reduceCtorEq, if_false, hnull, hrange, hctx, hsame, if_true]

/-- A frame whose line takes pixels, with or without room for all that came. -/
def Frame.takePixels (past : Bool) (px : List Nat) (r : Frame) : Frame :=
  { r with overrun := past, cur := r.cur.map (fun l => { l with pixels := l.pixels ++ px }) }

theorem State.pixelsIn_shared (px : List Nat) (room : Nat) (h : s.openFrame k = some f) (hcur : f.cur ≠ none) (hded : s.dedicated k = none) :
    s.pixelsIn k px room = s.updFrame k f.no (Frame.takePixels false px) := by
  have hline : f.cur.isNone = false := Option.isNone_eq_false_iff.mpr (Option.isSome_iff_ne_none.mpr hcur)
  simp only [State.pixelsIn, h, hline, hded, Bool.false_eq_true, if_false, Option.isSome_none, Bool.false_and, false_and]
  rfl

/-- A dedicated pipeline whose buffer is full takes what there is room for (R337). -/
theorem State.pixelsIn_overrun {px : List Nat} {room : Nat} (h : s.openFrame k = some f) (hcur : f.cur ≠ none) (hded : s.dedicated k ≠ none)
    (hover : f.overrun = false) (hroom : room < px.length) :
    s.pixelsIn k px room =
      (((s.updFrame k f.no (Frame.takePixels true (px.take room))).camCount k 5 1).cause CAM_IRQ_CAUSE_OVERRUN).corrupt k f.no := by
  have hline : f.cur.isNone = false := Option.isNone_eq_false_iff.mpr (Option.isSome_iff_ne_none.mpr hcur)
  have hsome : (s.dedicated k).isSome = true := Option.isSome_iff_ne_none.mpr hded
  have hfull : Nat.blt room px.length = true := Nat.blt_eq.mpr hroom
  simp only [State.pixelsIn, h, hline, hsome, hover, hfull, Bool.false_eq_true, if_false, Bool.or_true, Bool.and_true, if_true,
    not_false_eq_true, and_self]
  rfl

/-- Two changes of one frame in turn, the first of which keeps its context and its number. -/
theorem map_frame_map_frame {no : Nat} {g h : Frame → Frame} (hctx : ∀ r, (g r).ctx = r.ctx) (hno : ∀ r, (g r).no = r.no) (l : List Frame) :
    (l.map (fun r => if r.ctx = k ∧ r.no = no then g r else r)).map (fun r => if r.ctx = k ∧ r.no = no then h r else r) =
      l.map (fun r => if r.ctx = k ∧ r.no = no then h (g r) else r) := by
  rw [List.map_map]
  refine List.map_congr_left fun r _ => ?_
  by_cases hr : r.ctx = k ∧ r.no = no
  · simp [hctx, hno, hr]
  · simp [hr]

/-! ### Frame starts (R332, R333, R338) -/

/-- A frame start that no context takes is counted, and posted the first time (R332). -/
theorem State.frameStart_unassigned {port vc : Nat} (hctx : s.ctxOf port vc = none) (hfirst : s.cam.unassigned.contains (port, vc) = false) :
    s.frameStart port vc = (((s.addSat (CAM_UNASSIGNED_COUNT port) 1).cause CAM_IRQ_CAUSE_UNASSIGNED).setCam
      { s.cam with unassigned := s.cam.unassigned ++ [(port, vc)] }).event' Ev.STREAM_UNASSIGNED [port, vc] := by
  rw [State.frameStart, hctx]
  exact if_neg (by rw [hfirst]; exact Bool.false_ne_true)

/-- The frame that a frame start opens (R333). -/
def State.newFrame (s : State) (k : Nat) (buf : Option (Nat × Nat × Nat)) : Frame :=
  { ctx := k, no := (s.cctx k).no, start := s.now, press := s.time.line, p := s.camParams k, isOpen := true, cur := none
    overrun := false, lines := [], short := false, long := false, corrupt := false, corruptProc := false, late := false
    trunc := false, inspect := false, buf := buf, pipe := s.dedicated k, done := 0, outs := [], caps := ((s.cctx k).attach false).1 }

theorem State.openNew_frames (s : State) (k : Nat) (buf : Option (Nat × Nat × Nat)) :
    (s.openNew k buf).cam.frames = s.cam.frames ++ [s.newFrame k buf] := rfl

theorem CamRegs.openNew (h : CamRegs s x) (k : Nat) (buf : Option (Nat × Nat × Nat)) : CamRegs s (x.openNew k buf) :=
  ((h.setCctx k _).setCam _).showPipes

theorem Keeps.openNew {l : List Nat} (h : Keeps s x l) (k : Nat) (buf : Option (Nat × Nat × Nat)) (hl : CAM_PIPE_STATUS ∈ l) :
    Keeps s (x.openNew k buf) l := Keeps.showPipes (x := (x.setCctx k _).setCam _) h hl

/-- The frame opened is the open frame of a context that had none. -/
theorem State.openFrame_openNew (buf : Option (Nat × Nat × Nat)) (h : s.openFrame k = none) :
    (s.openNew k buf).openFrame k = some (s.newFrame k buf) := by
  rw [State.openFrame, State.openNew_frames, List.find?_append, show s.cam.frames.find? _ = none from h]
  simp [State.newFrame]

/-- A context with the next frame number (R333). -/
def State.numbered (s : State) (k : Nat) : State :=
  (s.setCctx k { s.cctx k with no := ((s.cctx k).no + 1) % 2 ^ 32 }).put (CAM_CTX_STATUS_FRAME_NO k) (((s.cctx k).no + 1) % 2 ^ 32 % 65536)

/-- The levels in force of a context, each a step on (R310, R344). -/
def State.stepLevel (s : State) (k ph : Nat) : State :=
  s.put (CAM_CTX_BLACK_ACTIVE k ph) (stepTo (s.get (CAM_CTX_BLACK_ACTIVE k ph)) (s.get (CAM_CTX_BLACK_TARGET k ph)) 16)
def State.stepLevels (s : State) (k : Nat) : State := (List.range 4).foldl (fun y ph => y.stepLevel k ph) s

/-- The knots in force of a context, each a step on (R344). -/
def Cam.stepKnots (c : Cam) (k : Nat) : Cam :=
  { c with knotLive := (c.knotTarget.filter (fun e => e.1 / 1156 == k)).foldl (fun m e =>
      m.set e.1 (stepTo (m.get e.1 0x1000) e.2 4)) c.knotLive }

theorem State.camStep_eq (s : State) (k : Nat) : s.camStep k = (s.stepLevels k).setCam ((s.stepLevels k).cam.stepKnots k) := rfl

theorem RegsOnly.stepLevels (s : State) (k : Nat) : RegsOnly s (s.stepLevels k) :=
  List.foldlRecOn (motive := RegsOnly s) (List.range 4) _ (RegsOnly.refl s) fun _ hy _ _ => hy.put _ _

theorem Keeps.stepLevels (s : State) (k : Nat) : Keeps s (s.stepLevels k) ((List.range 4).map (CAM_CTX_BLACK k)) :=
  List.foldlRecOn (motive := fun y => Keeps s y ((List.range 4).map (CAM_CTX_BLACK k))) (List.range 4) _ (Keeps.refl s _)
    fun _ hy _ hi => hy.put _ _ (List.mem_map_of_mem hi)

theorem State.camStep_cam (s : State) (k : Nat) : (s.camStep k).cam = s.cam.stepKnots k := by
  rw [State.camStep_eq, State.setCam_cam, (RegsOnly.stepLevels s k).cam]

theorem CamRegs.camStep (h : CamRegs s x) (k : Nat) : CamRegs s (x.camStep k) :=
  (h.trans (.of_regsOnly (RegsOnly.stepLevels x k))).setCam _

theorem Keeps.camStep (s : State) (k : Nat) : Keeps s (s.camStep k) ((List.range 4).map (CAM_CTX_BLACK k)) :=
  Keeps.setCam (Keeps.stepLevels s k) _

theorem State.numbered_cam (s : State) (k : Nat) : (s.numbered k).cam =
    { s.cam with ctxs := s.cam.ctxs.set k { s.cctx k with no := ((s.cctx k).no + 1) % 2 ^ 32 } } := by
  rw [State.numbered, State.put_cam, State.setCctx, State.setCam_cam]

/-- A context at a frame start that it takes: numbered, with its levels and knots a step on. -/
def State.atFrameStart (s : State) (k : Nat) : State := (s.numbered k).camStep k

theorem CamRegs.atFrameStart (s : State) (k : Nat) : CamRegs s (s.atFrameStart k) := (((CamRegs.refl s).setCctx k _).put _ _).camStep k

theorem Keeps.atFrameStart (s : State) (k : Nat) : Keeps s (s.atFrameStart k) (frameStartRegs k) :=
  ((Keeps.setCam (Keeps.refl s _) _).put _ _ List.mem_cons_self).trans ((Keeps.camStep _ k).mono fun _ h => List.mem_cons_of_mem _ h)

theorem notMem_frameStartRegs {a k : Nat} (h : a < 0xE1000 ∨ 0xE2000 ≤ a ∨ a % 0x80 < 4 ∨ 4 < a % 0x80 ∧ a % 0x80 < 0x20) (hk : k < 16) :
    a ∉ frameStartRegs k := by
  simp only [frameStartRegs, List.mem_cons, List.mem_map, List.mem_range, CAM_CTX_STATUS, CAM_CTX_BLACK]
  rintro (rfl | ⟨i, hi, rfl⟩) <;> omega

theorem State.atFrameStart_frames (s : State) (k : Nat) : (s.atFrameStart k).cam.frames = s.cam.frames := by
  rw [State.atFrameStart, State.camStep_cam, State.numbered_cam]
  rfl

theorem State.atFrameStart_no (hk : k < s.cam.ctxs.length) : ((s.atFrameStart k).cctx k).no = ((s.cctx k).no + 1) % 2 ^ 32 := by
  rw [State.cctx, State.atFrameStart, State.camStep_cam, State.numbered_cam]
  simp [Cam.stepKnots, List.getD_eq_getElem?_getD, hk]

/-- The number shown (R333). -/
theorem State.atFrameStart_shows (s : State) (k : Nat) : (s.atFrameStart k).get (CAM_CTX_STATUS_FRAME_NO k) = ((s.cctx k).no + 1) % 65536 := by
  have hstatus : CAM_CTX_STATUS k ∉ (List.range 4).map (CAM_CTX_BLACK k) := by
    simp only [List.mem_map, List.mem_range, CAM_CTX_STATUS, CAM_CTX_BLACK]
    rintro ⟨i, hi, h⟩
    omega
  calc (s.atFrameStart k).get (CAM_CTX_STATUS_FRAME_NO k)
      = (s.numbered k).get (CAM_CTX_STATUS_FRAME_NO k) := State.get_eq_of_rget _ _ _ (Keeps.camStep _ k _ hstatus)
    _ = ((s.cctx k).no + 1) % 2 ^ 32 % 65536 % 2 ^ 16 := State.get_put_same _ _ _ rfl
    _ = ((s.cctx k).no + 1) % 65536 := by omega

/-- A frame start of a context that is ON with a dedicated pipeline and without an open frame opens one (R333, R338). -/
theorem State.frameStart_opens {port vc : Nat} {c : Fin 16} {p : Nat} (hctx : s.ctxOf port vc = some c.val) (hon : s.ust (.ctx c) = .on)
    (hded : s.dedicated c = some p) (hfree : s.openFrame c = none) :
    s.frameStart port vc =
      ((s.setCam { s.cam with unassigned := s.cam.unassigned.filter (fun e => e != (port, vc)) }).atFrameStart c).openNew c none := by
  generalize hx : s.setCam { s.cam with unassigned := s.cam.unassigned.filter (fun e => e != (port, vc)) } = x
  have hclosed : x.closeFrame c = x := State.closeFrame_noFrame (by rw [← hx]; exact hfree)
  have hstate : (x.numbered c).ust (.ctx c) = .on := by
    rw [← hon, State.ust_eq _ _ (by simp), State.ust_eq _ _ (by simp), ← hx]
    exact congrArg UState.ofCode (State.get_put_apart _ _ _ _ rfl (.inr (.inr ⟨show 2 < 16 by decide, show 0 ≤ 2 by decide⟩)))
  have hpipe : ((x.atFrameStart c).dedicated c).isSome = true := by
    rw [State.dedicated_of_rget (Keeps.atFrameStart x c _ (notMem_frameStartRegs (by decide) c.isLt)), ← hx]
    exact (congrArg Option.isSome hded).trans rfl
  simp only [State.frameStart, hctx, hx, hclosed, Fin.ofNat_val_eq_self]
  rw [← State.numbered, hstate, ← State.atFrameStart, hpipe]
  rfl

end Cameras

end Sys2Proof.Machine

namespace Sys2Proof.Machine

section CameraStreams
variable {s : State}

/-- What a frame start that opens a frame shows (R333, R335, R337, R338). -/
theorem State.frameOpened_shows {c : Fin 16} {p : Nat} (hded : s.dedicated c = some p) (hfree : s.openFrame c = none)
    (hctxs : s.cam.ctxs.length = 16) :
    let t := ((s.atFrameStart c).openNew c none).trackIrq
    t.get (CAM_CTX_STATUS_FRAME_NO c) = ((s.cctx c).no + 1) % 65536 ∧
      (t.openFrame c).map (fun f => (f.no, f.start, f.press)) = some (((s.cctx c).no + 1) % 2 ^ 32, s.now, s.time.line) ∧
      (t.openFrame c).map (fun f => (f.lines.length, f.cur.isSome, f.pipe, f.buf.isSome)) = some (0, false, some p, false) ∧
      (t.openFrame c).map (fun f => (f.p.cfg, f.p.size, f.p.expo)) =
        some (s.rget (CAM_CTX_CFG c), s.rget (CAM_CTX_SIZE c), s.rget (CAM_CTX_EXPO c)) ∧
      t.cam.frames.take s.cam.frames.length = s.cam.frames ∧ t.cam.frames.length = s.cam.frames.length + 1 := by
  have hkeeps := Keeps.atFrameStart s c
  have hframes := s.atFrameStart_frames c
  have hno := State.atFrameStart_no (s := s) (hctxs.symm ▸ c.isLt : c.val < s.cam.ctxs.length)
  have hshown := s.atFrameStart_shows c
  have htime := (CamRegs.atFrameStart s c).time
  generalize s.atFrameStart c = y at *
  have hopen : (y.openNew c none).openFrame c = some (y.newFrame c none) :=
    State.openFrame_openNew none (by rw [State.openFrame, hframes]; exact hfree)
  have hpipe : y.dedicated c = some p := by
    rw [State.dedicated_of_rget (hkeeps _ (notMem_frameStartRegs (by decide) c.isLt)), hded]
  have hparam (a : Nat) (ha : a = CAM_CTX_CFG c ∨ a = CAM_CTX_SIZE c ∨ a = CAM_CTX_EXPO c) : y.rget a = s.rget a := by
    refine hkeeps a (notMem_frameStartRegs ?_ c.isLt)
    unfold CAM_CTX_CFG CAM_CTX_SIZE CAM_CTX_EXPO at ha
    omega
  have hopened : (y.openNew c none).trackIrq.openFrame c = some (y.newFrame c none) :=
    (State.openFrame_of_cam (State.trackIrq_cam _) c).trans hopen
  have hlist : (y.openNew c none).trackIrq.cam.frames = s.cam.frames ++ [y.newFrame c none] := by
    rw [State.trackIrq_cam, State.openNew_frames, hframes]
  refine ⟨?_, ?_, ?_, ?_, ?_, ?_⟩
  · rw [State.get_trackIrq, ← hshown]
    refine State.get_eq_of_rget _ _ _ (Keeps.openNew (Keeps.refl y [CAM_PIPE_STATUS]) c none List.mem_cons_self _ ?_)
    simp only [List.mem_singleton, CAM_CTX_STATUS_FRAME_NO, CAM_CTX_STATUS, CAM_PIPE_STATUS]
    omega
  · rw [hopened, ← hno]
    simp only [Option.map_some, State.newFrame, State.now, htime]
  · rw [hopened, ← hpipe]
    rfl
  · rw [hopened, ← hparam _ (.inl rfl), ← hparam _ (.inr (.inl rfl)), ← hparam _ (.inr (.inr rfl))]
    rfl
  · rw [hlist, List.take_left]
  · rw [hlist, List.length_append, List.length_singleton]

theorem Alters.frameOpened (s : State) (c : Nat) :
    let t := ((s.atFrameStart c).openNew c none).trackIrq
    Alters s t { s with cam := t.cam } (CAM_CTX_STATUS c :: CAM_PIPE_STATUS :: (List.range 4).map (CAM_CTX_BLACK c)) := by
  refine CamRegs.alters ((CamRegs.atFrameStart s c).openNew c none) (Keeps.openNew ?_ c none (by simp))
  exact (Keeps.atFrameStart s c).mono fun a ha => by
    rw [frameStartRegs, List.mem_cons] at ha
    exact ha.elim (fun h => h ▸ List.mem_cons_self) fun h => List.mem_cons_of_mem _ (List.mem_cons_of_mem _ h)

/-- What a line shows whose pixels did not all find room: the count, the causes, and the frame (R337). -/
theorem State.overrun_shows (s : State) (k : Nat) (f : Frame) (px : List Nat) :
    let t := ((((s.updFrame k f.no (Frame.takePixels true px)).camCount k 5 1).cause CAM_IRQ_CAUSE_OVERRUN).corrupt k f.no).trackIrq
    t.get (CAM_CTX_CNT_COUNT k 5) = min (2 ^ 32 - 1) (s.get (CAM_CTX_CNT_COUNT k 5) + 1) ∧
      t.cam.frames = s.cam.frames.map (fun r => if r.ctx = k ∧ r.no = f.no then { Frame.takePixels true px r with corrupt := true } else r) ∧
      t.on CAM_IRQ_CAUSE_OVERRUN = true ∧ t.on CAM_IRQ_CAUSE_CORRUPT = true ∧
      Alters s t { s with cam := t.cam } [CAM_CTX_CNT k 5, CAM_IRQ_CAUSE] := by
  have hcount (g : Fld) (hg : g.off = CAM_IRQ_CAUSE) : g.off ≠ (CAM_CTX_CNT_COUNT k 5).off := hg ▸ camCause_ne_ctxCnt k (by decide)
  refine ⟨?_, ?_, ?_, ?_, ?_⟩
  · rw [State.get_trackIrq, State.corrupt, State.get_cause_apart _ _ _ rfl (.inl (hcount _ rfl)), State.get_updFrame,
      State.get_cause_apart _ _ _ rfl (.inl (hcount _ rfl)), State.get_camCount_same, State.get_updFrame]
  · rw [State.trackIrq_cam, State.corrupt, State.cause_cam, State.updFrame_frames, State.cause_cam, State.camCount, State.addSat_cam,
      State.updFrame_frames]
    exact map_frame_map_frame (g := Frame.takePixels true px) (fun _ => rfl) (fun _ => rfl) s.cam.frames
  · rw [State.on_trackIrq, State.corrupt, State.on_cause_apart _ _ _ rfl (by decide), State.on_updFrame,
      State.on_cause_same _ _ rfl]
  · rw [State.on_trackIrq, State.corrupt, State.on_cause_same _ _ rfl]
  · refine CamRegs.alters (((((CamRegs.refl s).setCam _).addSat _ _).cause _).setCam _ |>.cause _) ?_
    have hcounted : Keeps s ((s.updFrame k f.no (Frame.takePixels true px)).camCount k 5 1) [CAM_CTX_CNT k 5, CAM_IRQ_CAUSE] :=
      (Keeps.setCam (Keeps.refl s _) _).addSat _ _ List.mem_cons_self
    exact (Keeps.setCam (hcounted.cause CAM_IRQ_CAUSE_OVERRUN (by simp [CAM_IRQ_CAUSE_OVERRUN])) _).cause _ (by simp [CAM_IRQ_CAUSE_CORRUPT])

theorem unassigned_off_notMem (port : Fin 6) : CAM_UNASSIGNED port ∉ evtRegs ∧ CAM_IRQ_CAUSE ≠ CAM_UNASSIGNED port ∧
    RST_ISLAND 1 ∉ [CAM_UNASSIGNED port, CAM_IRQ_CAUSE] := by
  revert port
  decide

/-- What a frame start that no context takes shows the first time (R332). -/
theorem State.unassigned_shows (s : State) (port : Fin 6) (c : Cam) (p : List Nat) :
    let t := ((((s.addSat (CAM_UNASSIGNED_COUNT port) 1).cause CAM_IRQ_CAUSE_UNASSIGNED).setCam c).event' Ev.STREAM_UNASSIGNED p).trackIrq
    t.get (CAM_UNASSIGNED_COUNT port) = min (2 ^ 32 - 1) (s.get (CAM_UNASSIGNED_COUNT port) + 1) ∧ t.cam = c ∧
      Posts s t Ev.STREAM_UNASSIGNED 0xFFFF p ∧ AltersPosting s t { s with cam := t.cam } [CAM_UNASSIGNED port, CAM_IRQ_CAUSE] := by
  obtain ⟨hevt, hcause, hisland⟩ := unassigned_off_notMem port
  have hrecs : CamRegs s (((s.addSat (CAM_UNASSIGNED_COUNT port) 1).cause CAM_IRQ_CAUSE_UNASSIGNED).setCam c) :=
    (((CamRegs.refl s).addSat _ _).cause _).setCam c
  have hkeeps : Keeps s (((s.addSat (CAM_UNASSIGNED_COUNT port) 1).cause CAM_IRQ_CAUSE_UNASSIGNED).setCam c)
      [CAM_UNASSIGNED port, CAM_IRQ_CAUSE] :=
    Keeps.setCam (((Keeps.refl s _).addSat _ _ List.mem_cons_self).cause _ (by simp [CAM_IRQ_CAUSE_UNASSIGNED])) c
  have hcount : (((s.addSat (CAM_UNASSIGNED_COUNT port) 1).cause CAM_IRQ_CAUSE_UNASSIGNED).setCam c).get (CAM_UNASSIGNED_COUNT port) =
      min (2 ^ 32 - 1) (s.get (CAM_UNASSIGNED_COUNT port) + 1) := by
    rw [State.get_setCam, State.get_cause_apart _ _ _ rfl (.inl hcause), State.get_addSat_same _ _ _ rfl]
    rfl
  have hcam := State.setCam_cam ((s.addSat (CAM_UNASSIGNED_COUNT port) 1).cause CAM_IRQ_CAUSE_UNASSIGNED) c
  generalize ((s.addSat (CAM_UNASSIGNED_COUNT port) 1).cause CAM_IRQ_CAUSE_UNASSIGNED).setCam c = y at *
  have hkept : (y.event' Ev.STREAM_UNASSIGNED p).trackIrq.cam = y.cam := by rw [State.trackIrq_cam, State.event', State.event_cam]
  refine ⟨?_, hkept.trans hcam, ?_, ?_, ?_⟩
  · rw [State.get_trackIrq, State.get_event' _ _ _ _ hevt, hcount]
  · exact (Posts.of_event s y _ _ _ hrecs.hif hrecs.time (hkeeps _ hisland) (by decide)).trackIrq
  · rw [State.trackIrq_hidden, State.event'_hidden, hkept]
    exact hrecs.hidden
  · exact (hkeeps.mono fun _ h => List.mem_append_left _ h).event' _ _ (evtRegs_sub_right _)

end CameraStreams

/-- Settles O40: the frame starts are those of `State.unassigned_shows` and `State.frameOpened_shows`, a line start is
`State.lineBegin_stamps`, and pixels join their line by `State.pixelsIn_shared`, or as `State.overrun_shows` says. -/
theorem cameraStreams : Obligations.CameraStreams := by
  unfold Obligations.CameraStreams
  refine ⟨?unassigned, ?opens, ?line, ?joins, ?header, ?overrun⟩
  case unassigned =>
    intro s port vc hen hctx hfirst
    have heff := (execFrameStart_on vc hen).trans (congrArg finish (State.frameStart_unassigned (s := s.portTraffic port) hctx hfirst))
    obtain ⟨hcount, hcam, hposts, hhidden, hkeeps⟩ := (s.portTraffic port).unassigned_shows port
      { (s.portTraffic port).cam with unassigned := s.cam.unassigned ++ [(port.val, vc.val)] } [port, vc]
    exact ⟨_, heff, hcount, hcam, hposts.of_start rfl rfl rfl, hhidden, hkeeps⟩
  case opens =>
    intro s port vc c p hen hctx hon hded hfree hctxs
    have heff := (execFrameStart_on vc hen).trans (congrArg finish (State.frameStart_opens (s := s.portTraffic port) hctx hon hded hfree))
    generalize hstart : (s.portTraffic port).setCam _ = x at heff
    obtain ⟨hshown, hstamp, hempty, hparams, hold, hlength⟩ := State.frameOpened_shows (s := x) (c := c) (p := p) (hstart ▸ hded)
      (hstart ▸ hfree) (hstart ▸ hctxs)
    have halters := Alters.frameOpened x c
    subst hstart
    exact ⟨_, heff, hshown, hstamp, hempty, hparams, hold, hlength, halters⟩
  case line =>
    intro s port vc k f hen hctx hopen hcur
    have heff := (execLineStart_on hen hctx).trans (congrArg finish (State.lineBegin_stamps (s := s.portTraffic port) hopen hcur))
    exact ⟨_, heff, rfl, CamRegs.alters rfl (Keeps.refl s [])⟩
  case joins =>
    intro s port vc dt k f px room hen hctx hdt hraw hded hopen hcur
    have hpacket := (State.longPacket_good (s := s.portTraffic port) (px.map (fun p => p.toNat)) room hctx hdt hraw).trans
      (State.pixelsIn_shared _ _ hopen hcur hded)
    exact ⟨_, (execCsi2LongPacket_on vc dt _ _ px room hen).trans (congrArg finish hpacket), rfl, CamRegs.alters rfl (Keeps.refl s [])⟩
  case header =>
    intro s port vc dt ok px room hen
    have heff := (execCsi2LongPacket_on vc dt .failed ok px room hen).trans (congrArg finish (State.longPacket_failed ..))
    refine ⟨_, heff, (State.get_trackIrq _ _).trans (State.get_addSat_same _ _ _ rfl), ?_⟩
    exact Alters.of_regsOnly rfl ((RegsOnly.refl _).addSat _ _) ((Keeps.setCam (Keeps.refl s _) _).addSat _ _ List.mem_cons_self)
  case overrun =>
    intro s port vc dt k f px room hen hctx hdt hraw hded hopen hcur hover hroom
    have hpacket := (State.longPacket_good (s := s.portTraffic port) (px.map (fun p => p.toNat)) room hctx hdt hraw).trans
      (State.pixelsIn_overrun hopen hcur hded hover ((List.length_map _).symm ▸ hroom))
    obtain ⟨hcount, hframes, hoverrun, hcorrupt, halters⟩ :=
      (s.portTraffic port).overrun_shows k f ((px.map (fun p => p.toNat)).take room)
    exact ⟨_, (execCsi2LongPacket_on vc dt _ _ px room hen).trans (congrArg finish hpacket), hcount, hframes, hoverrun, hcorrupt, halters⟩

end Sys2Proof.Machine

namespace Sys2Proof.Machine

section Pipelines
variable {s x y : State} {k no : Nat} {f : Frame} {l : CamLine}

/-! ### Open frames stay with their pipeline (R336, R338) -/

theorem find?_eq_of_unique {α : Type} {l : List α} {p : α → Bool} {a : α} (hmem : a ∈ l) (hp : p a = true)
    (hone : ∀ b ∈ l, p b = true → b = a) : l.find? p = some a := by
  obtain ⟨b, hb⟩ := Option.isSome_iff_exists.mp (List.find?_isSome.mpr ⟨a, hmem, hp⟩)
  rw [hb, hone b (List.mem_of_find?_eq_some hb) (List.find?_some hb)]

/-- Every frame of a context with a number is open. -/
def State.openAll (s : State) (k no : Nat) : Prop := ∀ r ∈ s.cam.frames, r.ctx = k → r.no = no → r.isOpen = true

/-- An open frame is not delivered yet. -/
theorem State.frameCheck_open (h : s.openAll k no) : s.frameCheck k no = s := by
  unfold State.frameCheck
  split
  next r hr =>
    have hkey := List.find?_some hr
    simp only [Bool.and_eq_true, beq_iff_eq] at hkey
    exact if_neg fun hdone => hdone.1 (h r (List.mem_of_find?_eq_some hr) hkey.1 hkey.2)
  next => rfl

theorem State.openAll_updFrame {g : Frame → Frame} (hopen : ∀ r, (g r).isOpen = r.isOpen) (h : s.openAll k no) :
    (s.updFrame k no g).openAll k no := by
  intro r hr
  obtain ⟨q, hq, rfl⟩ := List.mem_map.mp hr
  split
  next hkey => exact fun _ _ => (hopen q).trans (h q hq hkey.1 hkey.2)
  next => exact h q hq

/-- Before itself and all that start later: the order of R338 at the frame that started first. -/
theorem frameBefore_first {w : List Frame} (hfirst : ∀ g ∈ w, g ≠ f → f.start < g.start) :
    w.all (fun g => frameBefore f g) = true := by
  refine List.all_eq_true.mpr fun g hg => ?_
  by_cases heq : g = f
  · simp [frameBefore, heq]
  · simp [frameBefore, hfirst g hg heq]

/-- A free shared pipeline takes the waiting frame that started first, and the frame stays open (R338). -/
theorem State.pipeTake_first (hmem : f ∈ s.cam.frames) (hbuf : f.buf ≠ none) (hpipe : f.pipe = none) (hopen : f.isOpen = true)
    (hfree : ∀ g ∈ s.cam.frames, g.pipe ≠ some 2)
    (hfirst : ∀ g ∈ s.cam.frames, g.buf ≠ none → g.pipe = none → g ≠ f → f.start < g.start)
    (hone : ∀ r ∈ s.cam.frames, r.ctx = f.ctx → r.no = f.no → r = f) :
    s.pipeTake 2 = (s.updFrame f.ctx f.no (fun r => { r with pipe := some 2 })).showPipes := by
  have hbusy : s.cam.frames.any (fun g => g.pipe == some 2) = false := by
    simpa [List.any_eq_false] using hfree
  have hwaits (g : Frame) : g ∈ s.cam.frames.filter (fun g => g.buf.isSome && g.pipe.isNone) ↔
      g ∈ s.cam.frames ∧ g.buf ≠ none ∧ g.pipe = none := by
    simp [Option.isSome_iff_ne_none]
  have htaken : (s.cam.frames.filter (fun g => g.buf.isSome && g.pipe.isNone)).find?
      (fun g => (s.cam.frames.filter (fun g => g.buf.isSome && g.pipe.isNone)).all (fun h => frameBefore g h)) = some f := by
    have hin := (hwaits f).mpr ⟨hmem, hbuf, hpipe⟩
    refine find?_eq_of_unique hin (frameBefore_first fun g hg => ?_) fun g hg hbefore => ?_
    · obtain ⟨hg, hgbuf, hgpipe⟩ := (hwaits g).mp hg
      exact hfirst g hg hgbuf hgpipe
    · by_contra hne
      obtain ⟨hg, hgbuf, hgpipe⟩ := (hwaits g).mp hg
      have hlater := hfirst g hg hgbuf hgpipe hne
      have hgf := List.all_eq_true.mp hbefore f hin
      simp only [frameBefore, Bool.or_eq_true, Nat.blt_eq, Bool.and_eq_true, beq_iff_eq] at hgf
      omega
  have hstays : (s.updFrame f.ctx f.no (fun r => { r with pipe := some 2 })).showPipes.openAll f.ctx f.no :=
    State.openAll_updFrame (fun _ => rfl) fun r hr hctx hno => hone r hr hctx hno ▸ hopen
  simp only [State.pipeTake, hbusy, Bool.false_eq_true, false_or, Nat.reduceEqDiff, false_and, if_false, htaken]
  exact State.frameCheck_open hstays

/-! ### A line through a pipeline (R339 to R346) -/

theorem State.blackLine_idle (n : Nat) (p : CamParams) (px : List Nat) (h : s.runState chBLACK ≠ rsRUNNING) : s.blackLine k n p px = s :=
  if_pos (.inl h)

theorem State.flatLine_idle (n : Nat) (p : CamParams) (px : List Nat) (h : s.runState chFLAT ≠ rsRUNNING) : s.flatLine k n p px = s :=
  if_pos (.inl h)

theorem State.blackCheck_idle (h : s.runState chBLACK ≠ rsRUNNING) : s.blackCheck = s := if_neg fun hrun => h hrun.1
theorem State.flatCheck_idle (h : s.runState chFLAT ≠ rsRUNNING) : s.flatCheck = s := if_neg fun hrun => h hrun.1

theorem State.ptLine_unused (pos : Int) (nopos clean : Bool) (outs : List Nat) (h : s.on (CAL_VIEW_CTRL_USE k) = false) :
    s.ptLine k pos nopos clean outs = s := if_pos (.inr h)

/-- A window names one of the sixteen contexts (R345). -/
theorem State.windowsOf_large (h : 16 ≤ k) : s.windowsOf k = [] := by
  refine List.filter_eq_nil_iff.mpr fun w _ hw => ?_
  have hlt : s.get (CAM_REG_CFG_CTX w) < 16 := s.get_lt _
  simp only [Bool.and_eq_true, beq_iff_eq] at hw
  omega

theorem State.windowsOf_camCount (s : State) (k n : Nat) {i : Nat} (hi : i < 16) : (s.camCount k i n).windowsOf k = s.windowsOf k := by
  by_cases hk : k < 16
  · refine List.filter_congr fun w _ => ?_
    have hoff : (CAM_CTX_CNT_COUNT k i).off ≠ CAM_REG_CFG w := by
      simp only [CAM_CTX_CNT_COUNT, CAM_CTX_CNT, CAM_REG_CFG]
      omega
    have hget (g : Fld) (hg : g.off = CAM_REG_CFG w) : (s.camCount k i n).get g = s.get g :=
      State.get_addSat_apart _ _ _ _ rfl (.inl (hg ▸ hoff))
    rw [State.on, State.on, hget (CAM_REG_CFG_EN w) rfl, hget (CAM_REG_CFG_CTX w) rfl]
  · rw [State.windowsOf_large (by omega), State.windowsOf_large (by omega)]

/-- Counts of the cameras lie above the registers of the calibrations. -/
theorem State.get_camCount_cal (s : State) (k i n : Nat) {g : Fld} (hg : g.off < 0xE1040 + 0x80 * k) : (s.camCount k i n).get g = s.get g :=
  State.get_addSat_apart _ _ _ _ rfl (.inl (by simp only [CAM_CTX_CNT_COUNT, CAM_CTX_CNT]; omega))

/-- A line of a frame before the shading stage, with the number of its replaced pixels (R340, R341), and as it leaves the pipeline (R342). -/
def Frame.defectsDone (f : Frame) (l : CamLine) : List Nat × Nat := defectStage f.p f.done (blackStage f.p f.done l.pixels)
def Frame.shaded (f : Frame) (l : CamLine) : List Nat := shadeStage f.p f.done (f.defectsDone l).1

/-- Is a frame late at an instant (R336)? -/
def Frame.lateAt (f : Frame) (now : Nat) : Bool := f.late || Nat.blt (f.start + 1000 * max 1 (bits f.p.time.toNat 15 0)) now

/-- A frame with one more line processed. -/
def Frame.processed (f : Frame) (l : CamLine) (now : Nat) (r : Frame) : Frame :=
  { r with done := r.done + 1, outs := r.outs ++ [f.shaded l], late := f.lateAt now }

/-- The effects of a line on its frame, on calibration runs, on the windows' marks and on the print-through view, in this order. -/
def State.lineStored (s : State) (f : Frame) (l : CamLine) : State :=
  (s.updFrame f.ctx f.no (f.processed l s.now)).camCount f.ctx 8 (f.defectsDone l).2
def State.lineSummed (s : State) (f : Frame) (l : CamLine) (late : Bool) : State :=
  if (l.clean && !f.corruptProc) ∧ ¬late then
    (if f.p.isOb f.done then s.blackLine f.ctx f.done f.p l.pixels else s.flatLine f.ctx f.done f.p (f.defectsDone l).1)
  else s
def State.lineMarked (s : State) (f : Frame) (l : CamLine) : State :=
  if (l.clean && !f.corruptProc) ∧ ¬l.nopos ∧ ¬f.p.isOb f.done then
    (s.windowsOf f.ctx).foldl (fun y w => y.windowLine w (f.start + l.t) (f.shaded l)) s
  else s
def State.lineViewed (s : State) (f : Frame) (l : CamLine) (late : Bool) : State :=
  if f.p.isOb f.done then s else s.ptLine f.ctx l.x l.nopos ((l.clean && !f.corruptProc) && !late) (f.shaded l)

theorem State.pipeLine_eq (s : State) (f : Frame) (l : CamLine) :
    s.pipeLine f l = (((((s.lineStored f l).lineSummed f l (f.lateAt s.now)).lineMarked f l).lineViewed f l (f.lateAt s.now)).frameCheck
      f.ctx f.no).blackCheck.flatCheck := rfl

theorem State.lineSummed_idle (late : Bool) (hblack : s.runState chBLACK ≠ rsRUNNING) (hflat : s.runState chFLAT ≠ rsRUNNING) :
    s.lineSummed f l late = s := by
  rw [State.lineSummed, State.blackLine_idle _ _ _ hblack, State.flatLine_idle _ _ _ hflat, ite_self, ite_self]

theorem State.lineMarked_none (h : s.windowsOf f.ctx = []) : s.lineMarked f l = s := by
  rw [State.lineMarked, h, List.foldl_nil, ite_self]

theorem State.lineViewed_unused (late : Bool) (h : s.on (CAL_VIEW_CTRL_USE f.ctx) = false) : s.lineViewed f l late = s := by
  rw [State.lineViewed, State.ptLine_unused _ _ _ _ h, ite_self]

/-- A line of an open frame whose context has no window, no calibration run and no print-through view has its effect on the frame and on
the count of replaced pixels alone. -/
theorem State.pipeLine_quiet (hopen : s.openAll f.ctx f.no) (hwin : s.windowsOf f.ctx = []) (huse : s.on (CAL_VIEW_CTRL_USE f.ctx) = false)
    (hblack : s.runState chBLACK ≠ rsRUNNING) (hflat : s.runState chFLAT ≠ rsRUNNING) : s.pipeLine f l = s.lineStored f l := by
  have hcal (g : Fld) (hg : g.off < 0xE0000) : (s.lineStored f l).get g = s.get g := State.get_camCount_cal _ _ _ _ (by omega)
  have hblack' : (s.lineStored f l).runState chBLACK ≠ rsRUNNING := by rwa [State.runState, hcal _ (by decide)]
  have hflat' : (s.lineStored f l).runState chFLAT ≠ rsRUNNING := by rwa [State.runState, hcal _ (by decide)]
  have huse' : (s.lineStored f l).on (CAL_VIEW_CTRL_USE f.ctx) = false := by
    rwa [State.on, State.lineStored, State.get_camCount_cal _ _ _ _ (by simp only [CAL_VIEW_CTRL_USE, CAL_VIEW_CTRL]; omega)]
  have hwin' : (s.lineStored f l).windowsOf f.ctx = [] := (State.windowsOf_camCount _ _ _ (by decide)).trans hwin
  have hcheck : (s.lineStored f l).frameCheck f.ctx f.no = s.lineStored f l :=
    State.frameCheck_open (State.openAll_updFrame (g := f.processed l s.now) (fun _ => rfl) hopen)
  rw [State.pipeLine_eq, State.lineSummed_idle _ hblack' hflat', State.lineMarked_none hwin', State.lineViewed_unused _ huse', hcheck,
    State.blackCheck_idle hblack', State.flatCheck_idle hflat']

theorem blt_eq_decide (a b : Nat) : Nat.blt a b = decide (a < b) := by
  rw [Bool.eq_iff_iff, Nat.blt_eq, decide_eq_true_iff]

/-- The pipeline of the only frame takes its next line. -/
theorem execPipelineLineDone_single {pipe : Fin 4} (hframes : s.cam.frames = [f]) (hpipe : f.pipe = some pipe.val)
    (hline : f.lines[f.done]? = some l) : execPipelineLineDone pipe s = finish (s.pipeLine f l) := by
  have hmore : Nat.blt f.done f.lines.length = true := Nat.blt_eq.mpr (List.getElem?_eq_some_iff.mp hline).1
  have hfound : s.cam.frames.find? (fun f => f.pipe == some pipe.val && Nat.blt f.done f.lines.length) = some f := by
    rw [hframes]
    exact List.find?_cons_of_pos (by rw [hpipe, hmore, beq_self_eq_true, Bool.and_self])
  simp only [execPipelineLineDone, hfound, hline]

/-! ### Registration marks that stay away (R346) -/

/-- A plane's measurement marked lost. -/
def Cam.loseReg (c : Cam) (q : Nat) (r : RegLat) : Cam := { c with reg := c.reg.set q { r with lost := true } }

/-- An event with its cause after a change of the cameras' record. -/
theorem CamRegs.report_shows {c u : Nat} {p : List Nat} {g : Fld} (h : CamRegs s x) (hk : Keeps s x []) (hg : g.ok = true)
    (hc : c ≠ Ev.EVT_LOST) :
    let t := (x.report c u p g).trackIrq
    t.cam = x.cam ∧ Posts s t c u p ∧ t.on g = true ∧ AltersPosting s t { s with cam := t.cam } [g.off] := by
  have hcam : (x.report c u p g).trackIrq.cam = x.cam := by rw [State.trackIrq_cam, State.report, State.cause_cam, State.event_cam]
  refine ⟨hcam, ?_, ?_, ?_, ?_⟩
  · exact ((Posts.of_event s x c u p h.hif h.time (hk _ List.not_mem_nil) hc).cause g).trackIrq
  · rw [State.on_trackIrq, State.report, State.on_cause_same _ _ hg]
  · rw [State.trackIrq_hidden, State.hidden_report, hcam]
    exact h.hidden
  · exact Keeps.report c u p g (hk.mono fun _ h => absurd h List.not_mem_nil) List.mem_cons_self

/-- A plane without a measurement for 1 s is lost, with the age of its last one. -/
theorem State.regLost_reports {q : Nat} {r : RegLat} {t0 : Int} (hwin : s.regWindow q = true) (hvalid : s.regValid q = false)
    (hr : s.cam.reg[q]? = some r) (hlost : r.lost = false) (ht : r.t = some t0) :
    s.regLost q = (s.setCam (s.cam.loseReg q r)).report Ev.REG_LOST q
      [((s.now : Int) - t0).toNat / 1000000] CAM_IRQ_CAUSE_REG_LOST := by
  obtain ⟨t, lat, lost⟩ := r
  cases ht
  cases hlost
  have hget : s.cam.reg.getD q RegLat.reset = ⟨some t0, lat, false⟩ := by rw [List.getD_eq_getElem?_getD, hr, Option.getD_some]
  simp only [State.regLost, hget, hwin, hvalid, Bool.true_eq_false, Bool.false_eq_true, or_self, if_false]
  rfl

end Pipelines

section CamRing
variable {s : State} {d : OpenDesc} {det : Nat} {b : Bool}

/-! ### The CAM ring (R347, R348) -/

/-- A context with the buffers of a FRAME_BUF descriptor. -/
def CamCtx.withBuffers (c : CamCtx) (d : OpenDesc) : CamCtx :=
  { c with noBuf := false
           free := c.free ++ (List.range (dfield d.bits 6 2)).map
             (fun i => (d.seq, dfield d.bits 8 8 + i * dfield d.bits 16 4, dfield d.bits 16 4))
           bufs := c.bufs ++ [{ seq := d.seq, count := dfield d.bits 6 2
                                out := (List.range (dfield d.bits 6 2)).map (fun i => dfield d.bits 8 8 + i * dfield d.bits 16 4)
                                user := dfield d.bits 56 4 }] }

/-- A context with the capture of a CAPTURE descriptor. -/
def CamCtx.withCapture (c : CamCtx) (d : OpenDesc) : CamCtx :=
  { c with caps := c.caps ++ [
      { seq := d.seq, corrected := bit (dfield d.bits 5 1) 0, inspect := bit (dfield d.bits 5 1) 1, device := bit (dfield d.bits 5 1) 2
        count := dfield d.bits 6 2, addr := dfield d.bits 8 8, slot := dfield d.bits 16 4, user := dfield d.bits 56 4
        evt := bit (dfield d.bits 1 1) 5, next := 0, written := 0 }] }

/-- A descriptor of the CAM ring in use, its context changed. -/
def State.camTaken (s : State) (d : OpenDesc) (g : CamCtx → CamCtx) : State :=
  (s.startDesc 5 d.seq).setCctx (dfield d.bits 4 1) (g (s.cctx (dfield d.bits 4 1)))

theorem pickOf_single (n : Nat) : pickOf [n] = some n := by simp [pickOf, Nat.mod_one]

theorem execFrameBuf_taken (hhead : s.head 5 = some d) (hop : d.op = 0x10) (hok : s.camDetails d.bits true = []) :
    execFrameBuf s = finish (s.camTaken d (CamCtx.withBuffers · d)) := by
  simp only [execFrameBuf, hhead, hop, hok, pickOf_nil, ne_eq, not_true_eq_false, if_false]
  rfl

theorem execFrameBuf_refused (hhead : s.head 5 = some d) (hop : d.op = 0x10) (hbad : s.camDetails d.bits true = [det]) :
    execFrameBuf s = finish (s.camRefuse d det) := by
  simp only [execFrameBuf, hhead, hop, hbad, pickOf_single, ne_eq, not_true_eq_false, if_false]

theorem execCapture_taken (hhead : s.head 5 = some d) (hop : d.op = 0x11) (hok : s.camDetails d.bits false = [])
    (hroom : (s.cctx (dfield d.bits 4 1)).caps.length < 4) : execCapture s = finish (s.camTaken d (CamCtx.withCapture · d)) := by
  simp only [execCapture, hhead, hop, hok, pickOf_nil, ne_eq, not_true_eq_false, if_false, Nat.not_le.mpr hroom]
  rfl

theorem execCapture_refused (hhead : s.head 5 = some d) (hop : d.op = 0x11) (hbad : s.camDetails d.bits false = [det]) :
    execCapture s = finish (s.camRefuse d det) := by
  simp only [execCapture, hhead, hop, hbad, pickOf_single, ne_eq, not_true_eq_false, if_false]

/-- A descriptor without a fault names one of the sixteen contexts (R347). -/
theorem State.camDetails_ctx {d : DescBits} (h : s.camDetails d b = []) : dfield d 4 1 < 16 := by
  by_contra hctx
  have hlarge : Nat.blt 15 (dfield d 4 1) = true := Nat.blt_eq.mpr (by omega)
  simp [State.camDetails, hlarge] at h

theorem State.camTaken_shows (g : CamCtx → CamCtx) (hok : s.camDetails d.bits b = []) (hctxs : s.cam.ctxs.length = 16) :
    let t := (s.camTaken d g).trackIrq
    t.cctx (dfield d.bits 4 1) = g (s.cctx (dfield d.bits 4 1)) ∧ t.hidden = { s.hidden with cam := t.cam } ∧ Keeps s t [] :=
  ⟨State.cctx_setCctx_same (s.startDesc 5 d.seq) _ (hctxs ▸ State.camDetails_ctx hok), rfl, fun _ _ => rfl⟩

/-- A descriptor started is open with the same content. -/
theorem State.desc_startDesc {n q : Nat} (h : s.desc n q = some d) :
    (s.startDesc n q).desc n q = some { d with taken := true, started := true } := by
  rw [State.desc, State.startDesc, State.ring_setRing_same _ _ _ (State.length_of_desc h)]
  refine (find?_updDesc (f := fun d => { d with taken := true, started := true }) (fun _ => rfl) (fun _ => rfl) q (s.ring n).opens).trans ?_
  rw [show (s.ring n).opens.find? (fun d => d.seq == q && !d.done) = some d from h]
  rfl

/-- A refused descriptor with NOTIFY completes with its detail, and nothing but its entry and the watermark changes (R347). -/
theorem State.camRefuse_shows (det : Nat) (hdesc : s.desc 5 d.seq = some d) (hstale : d.stale = false) (hnotify : d.notify = true) :
    let t := (s.camRefuse d det).trackIrq
    Completes s t 5 d.seq 2 Ev.CAM_REFUSED stREFUSED (dfield d.bits 4 1) [d.op, det] ∧ t.hidden = s.hidden ∧ Keeps s t (doneRegs 5) := by
  refine ⟨?_, ?_, ?_⟩
  · exact (Completes.of_complete_gen s (s.startDesc 5 d.seq) 5 d.seq 2 Ev.CAM_REFUSED stREFUSED _ _ false _ (s.startDesc_evtQueue ..)
      (s.startDesc_linkUp ..) rfl (s.rget_startDesc ..) (State.desc_startDesc hdesc) hstale (.inr hnotify) (by decide)
      (ringDone_ne_island 5)).after fun _ h => h
  · rw [State.trackIrq_hidden, State.camRefuse, State.complete_hidden, State.startDesc_hidden]
  · exact ((Keeps.refl s _).startDesc 5 d.seq).complete _ _ _ _ _ _ _ _ fun _ h => h

end CamRing

section CamRegisters
variable {s : State} {req : Fin 6} {v : Word}

/-! ### CAM_PIPE_SEL (R337) -/

/-- A write of a register of the cameras by a requester takes effect while their island runs. -/
theorem State.reqWrite_cam (f : State → State) (hreq : req ≠ 5) (hrun : s.islandRuns 14 = true) {a : Nat} (ha : islandOf a = 14) :
    s.reqWrite req a f = f s := State.reqWrite_runs s req a f (reaches_of_ne hreq _) (ha ▸ hrun)

/-- The error flag after a write that clears it or not. -/
def State.selErrCleared (s : State) (v : Word) : State := if bit v.toNat 16 then s.putB CAM_PIPE_SEL_SEL_ERR false else s

theorem State.get_selErrCleared (s : State) (v : Word) : (s.selErrCleared v).get CAM_PIPE_SEL_CTX0 = s.get CAM_PIPE_SEL_CTX0 := by
  unfold State.selErrCleared
  split
  · exact State.get_putB_apart _ _ _ _ rfl (by decide)
  · rfl

/-- Both selections as written. -/
def State.pipesSelected (s : State) (v : Word) : State :=
  ((((s.selErrCleared v).put CAM_PIPE_SEL_CTX0 (bits v.toNat 3 0)).putB CAM_PIPE_SEL_VALID0 (bit v.toNat 7)).put CAM_PIPE_SEL_CTX1
    (bits v.toNat 11 8)).putB CAM_PIPE_SEL_VALID1 (bit v.toNat 15)

theorem RegsOnly.selErrCleared (s : State) (v : Word) : RegsOnly s (s.selErrCleared v) := by
  unfold State.selErrCleared
  split
  · exact (RegsOnly.refl s).putB _ _
  · exact RegsOnly.refl s

theorem Keeps.selErrCleared (s : State) (v : Word) : Keeps s (s.selErrCleared v) [CAM_PIPE_SEL] := by
  unfold State.selErrCleared
  split
  · exact (Keeps.refl s _).putB _ _ List.mem_cons_self
  · exact Keeps.refl s _

/-- While every context is OFF a write is taken (R337). -/
theorem State.pipeSelWrite_taken (hoff : ∀ c : Fin 16, s.ust (.ctx c) = .off) : s.pipeSelWrite v = s.pipesSelected v := by
  have hall (o : Option Nat) : o.all (fun k => s.ust (.ctx (Fin.ofNat 16 k)) == UState.off) = true := by
    cases o with
    | none => rfl
    | some k => simp [hoff]
  simp only [State.pipeSelWrite, hall, Bool.and_self, Bool.not_true, Bool.and_false, Bool.false_eq_true, or_self, if_false]
  rfl

/-- A write that gives pipeline 0 another context, one that is not OFF, is refused (R337). -/
theorem State.pipeSelWrite_refused {c : Fin 16} (hvalid : bit v.toNat 7 = true) (hctx : bits v.toNat 3 0 = c.val) (hoff : s.ust (.ctx c) ≠ .off)
    (hold : s.get CAM_PIPE_SEL_CTX0 ≠ c.val) : s.pipeSelWrite v = (s.selErrCleared v).putB CAM_PIPE_SEL_SEL_ERR true := by
  have hother : bits (s.rget CAM_PIPE_SEL).toNat 3 0 ≠ c.val := hold
  refine if_pos (.inl ?_)
  simp [hvalid, hctx, hother, hoff]

theorem State.pipesSelected_shows (s : State) (v : Word) :
    let y := s.pipesSelected v
    y.get CAM_PIPE_SEL_CTX0 = bits v.toNat 3 0 ∧ y.on CAM_PIPE_SEL_VALID0 = bit v.toNat 7 ∧ y.get CAM_PIPE_SEL_CTX1 = bits v.toNat 11 8 ∧
      y.on CAM_PIPE_SEL_VALID1 = bit v.toNat 15 ∧ (bit v.toNat 16 = true → y.on CAM_PIPE_SEL_SEL_ERR = false) ∧
      RegsOnly s y ∧ Keeps s y [CAM_PIPE_SEL] := by
  refine ⟨?_, ?_, ?_, ?_, fun hclear => ?_, ?_, ?_⟩
  · simp (disch := decide) only [State.pipesSelected, State.get_putB_apart, State.get_put_apart, State.get_put_same]
    exact Nat.mod_mod _ _
  · simp (disch := decide) only [State.pipesSelected, State.on_putB_apart, State.on_put_apart, State.on_putB_same]
  · simp (disch := decide) only [State.pipesSelected, State.get_putB_apart, State.get_put_same]
    exact Nat.mod_mod _ _
  · simp (disch := decide) only [State.pipesSelected, State.on_putB_same]
  · simp (disch := decide) only [State.pipesSelected, State.selErrCleared, hclear, if_true, State.on_putB_apart, State.on_put_apart,
      State.on_putB_same]
  · exact ((((RegsOnly.selErrCleared s v).put _ _).putB _ _).put _ _).putB _ _
  · exact ((((Keeps.selErrCleared s v).put _ _ List.mem_cons_self).putB _ _ List.mem_cons_self).put _ _ List.mem_cons_self).putB _ _
      List.mem_cons_self

/-! ### CAM_TAB_DATA (R341, R344) -/

theorem State.tabInc_off (h : s.on CAM_TAB_SEL_AUTO_INC = false) : s.tabInc = s := if_neg (by rw [h]; exact Bool.false_ne_true)

/-- A defect entry with a new content (R341). -/
def Cam.withDefect (c : Cam) (key : Nat) (v : Word) : Cam := { c with defects := c.defects.set key v }

theorem State.tabWrite_defect (htable : s.get CAM_TAB_SEL_TABLE = 0) (hindex : s.get CAM_TAB_SEL_INDEX < 512)
    (hinc : s.on CAM_TAB_SEL_AUTO_INC = false) :
    s.tabWrite v = s.setCam (s.cam.withDefect (512 * s.get CAM_TAB_SEL_CTX + s.get CAM_TAB_SEL_INDEX) (v &&& 0xBFFF3FFF#32)) := by
  simp only [State.tabWrite, htable, hindex, if_true]
  exact State.tabInc_off hinc

/-- A knot with a new target, which is in force at once or not (R344). -/
def Cam.withKnot (c : Cam) (key v : Nat) (now : Bool) : Cam :=
  { c with knotTarget := c.knotTarget.set key v, knotLive := if now then c.knotLive.set key v else c.knotLive }

theorem State.tabWrite_knot {c : Fin 16} (htable : s.get CAM_TAB_SEL_TABLE = 1) (hindex : s.get CAM_TAB_SEL_INDEX < 1156)
    (hinc : s.on CAM_TAB_SEL_AUTO_INC = false) (hctx : s.get CAM_TAB_SEL_CTX = c.val) :
    s.tabWrite v = s.setCam (s.cam.withKnot (1156 * c.val + s.get CAM_TAB_SEL_INDEX) (bits v.toNat 15 0) (s.ust (.ctx c) == .off)) := by
  simp only [State.tabWrite, htable, hindex, if_true, hctx, Fin.ofNat_val_eq_self]
  exact State.tabInc_off hinc

end CamRegisters

/-- Settles O42: a pipeline takes a frame by `State.pipeTake_first` and finishes a line by `State.pipeLine_quiet`, a descriptor's effect is
that of `State.camTaken_shows` or `State.camRefuse_shows`, and the register writes are those of `State.pipeSelWrite_taken` and
`State.tabWrite_defect` with their siblings. -/
theorem pipelinesAndBuffers : Obligations.PipelinesAndBuffers := by
  unfold Obligations.PipelinesAndBuffers
  refine ⟨?takes, ?line, ?lost, ?buffers, ?capture, ?refusedBuf, ?refusedCapture, ?select, ?selectRefused, ?defect, ?knot⟩
  case takes =>
    intro s f hmem hbuf hpipe hopen hfree hfirst hone
    refine ⟨_, congrArg finish (State.pipeTake_first hmem hbuf hpipe hopen hfree hfirst hone), ?_, ?_⟩
    · refine List.map_congr_left fun r hr => ?_
      have hkey : (r.ctx = f.ctx ∧ r.no = f.no) ↔ r = f := ⟨fun h => hone r hr h.1 h.2, fun h => h ▸ ⟨rfl, rfl⟩⟩
      simp only [hkey]
    · exact CamRegs.alters rfl (Keeps.showPipes (Keeps.setCam (Keeps.refl s _) _) List.mem_cons_self)
  case line =>
    intro s pipe f l hframes hpipe hopen hline hwin huse hblack hflat
    have hfree : s.openAll f.ctx f.no := fun r hr _ _ => by
      rw [hframes, List.mem_singleton] at hr
      exact hr ▸ hopen
    refine ⟨_, (execPipelineLineDone_single hframes hpipe hline).trans (congrArg finish
      (State.pipeLine_quiet hfree hwin huse hblack hflat)), ?_, ?_, ?_⟩
    · rw [State.trackIrq_cam, State.lineStored, State.camCount, State.addSat_cam, State.updFrame_frames, hframes]
      simp [Frame.processed, Frame.shaded, Frame.defectsDone, Frame.lateAt, blt_eq_decide]
    · rw [State.get_trackIrq, State.lineStored, State.get_camCount_same, State.get_updFrame]
      rfl
    · exact CamRegs.alters (((CamRegs.refl s).setCam _).addSat _ _) ((Keeps.setCam (Keeps.refl s _) _).addSat _ _ List.mem_cons_self)
  case lost =>
    intro s q r t0 hwin hvalid hr hlost ht
    have hshows := ((CamRegs.refl s).setCam (s.cam.loseReg q r)).report_shows (c := Ev.REG_LOST) (u := q)
      (p := [((s.now : Int) - t0).toNat / 1000000]) (g := CAM_IRQ_CAUSE_REG_LOST) (Keeps.refl s []) rfl (by decide)
    exact ⟨_, congrArg finish (State.regLost_reports hwin hvalid hr hlost ht), hshows⟩
  case buffers =>
    rintro s d ⟨hhead, -, -⟩ hop hok hctxs
    exact ⟨_, execFrameBuf_taken hhead hop hok, State.camTaken_shows _ hok hctxs⟩
  case capture =>
    rintro s d ⟨hhead, -, -⟩ hop hok hctxs hroom
    exact ⟨_, execCapture_taken hhead hop hok hroom, State.camTaken_shows _ hok hctxs⟩
  case refusedBuf =>
    rintro s d det ⟨hhead, hdesc, hstale⟩ hop hbad hnotify
    exact ⟨_, execFrameBuf_refused hhead hop hbad, State.camRefuse_shows det hdesc hstale hnotify⟩
  case refusedCapture =>
    rintro s d det ⟨hhead, hdesc, hstale⟩ hop hbad hnotify
    exact ⟨_, execCapture_refused hhead hop hbad, State.camRefuse_shows det hdesc hstale hnotify⟩
  case select =>
    intro s req v hreq hrun hoff
    have heff := (State.reqWrite_cam (a := CAM_PIPE_SEL) (fun s => s.pipeSelWrite v) hreq hrun (by decide)).trans (State.pipeSelWrite_taken hoff)
    obtain ⟨hctx0, hvalid0, hctx1, hvalid1, herr, hregs, hkeeps⟩ := s.pipesSelected_shows v
    exact ⟨_, congrArg finish heff, hctx0, hvalid0, hctx1, hvalid1, herr, Silent.of_regsOnly hregs hkeeps⟩
  case selectRefused =>
    intro s req v c hreq hrun hvalid hctx hoff hold
    have heff := (State.reqWrite_cam (a := CAM_PIPE_SEL) (fun s => s.pipeSelWrite v) hreq hrun (by decide)).trans
      (State.pipeSelWrite_refused hvalid hctx hoff hold)
    refine ⟨_, congrArg finish heff, (State.on_trackIrq _ _).trans (State.on_putB_same _ _ _ rfl), ?_,
      Silent.of_regsOnly ((RegsOnly.selErrCleared s v).putB _ _)
        ((Keeps.selErrCleared s v).putB _ _ List.mem_cons_self)⟩
    rw [State.get_trackIrq, State.get_putB_apart _ _ _ _ rfl (by decide), State.get_selErrCleared]
  case defect =>
    intro s req v hreq hrun htable hindex hinc
    have heff := (State.reqWrite_cam (a := CAM_TAB_DATA) (fun s => s.tabWrite v) hreq hrun (by decide)).trans
      (State.tabWrite_defect htable hindex hinc)
    exact ⟨_, congrArg finish heff, AMap.get_set_same .., fun k hk => AMap.get_set_ne _ _ _ _ _ (Ne.symm hk),
      Alters.of_regsOnly rfl (RegsOnly.refl _) (Keeps.refl s [])⟩
  case knot =>
    intro s req v c hreq hrun htable hindex hinc hctx
    have heff := (State.reqWrite_cam (a := CAM_TAB_DATA) (fun s => s.tabWrite v) hreq hrun (by decide)).trans
      (State.tabWrite_knot htable hindex hinc hctx)
    refine ⟨_, congrArg finish heff, AMap.get_set_same .., ?_, Alters.of_regsOnly rfl (RegsOnly.refl _) (Keeps.refl s [])⟩
    by_cases hoff : s.ust (.ctx c) = .off
    · rw [if_pos hoff, State.trackIrq_cam, State.setCam_cam, hoff]
      exact AMap.get_set_same ..
    · rw [if_neg hoff, State.trackIrq_cam, State.setCam_cam, beq_eq_false_iff_ne.mpr hoff]
      rfl

end Sys2Proof.Machine

namespace Sys2Proof.Machine

/-! ### A step of the queue -/

/-- A command at the front of the queue runs with the queue's rest. -/
theorem step_cons (c : Instr) (s : State) : step { s with pending := c :: s.pending } = exec c s := rfl

/-- On an empty queue the block idles. -/
theorem step_nil {s : State} (h : s.pending = []) : step s = .next s := by
  unfold step
  split
  · rfl
  next c r hcons => exact absurd (h.symm.trans hcons) (List.cons_ne_nil c r).symm

/-- Settles O1: the two cases of the queue. -/
theorem stepRunsTheFrontCommand : Obligations.StepRunsTheFrontCommand := ⟨step_cons, fun _ => step_nil⟩

end Sys2Proof.Machine

namespace Sys2Proof.Machine

/-! ### What the retirement of a master, with its web-stop trip, leaves of the position feedback (R61, R402, R414) -/

/-- The registers that it can write: those of the rings' completions and of the press, the web axis's status and rate, and a master's
status with the encoders' causes. -/
def tripWrites (a : Nat) : Prop :=
  a ∈ evtRegs ∨ (∃ n, a = HIF_RING_DONE n) ∨ (0x40000 ≤ a ∧ a < 0x50000) ∨ a = MOT_WEB_STATUS ∨ a = MOT_WEB_RATE ∨
    (∃ m, a = ENC_M_STATUS m) ∨ a = ENC_IRQ_CAUSE

/-- It writes those registers, and leaves the encoder block's record, the web position and its edges. -/
structure TripActs (s x : State) : Prop extends Extends tripWrites s x where
  enc : x.enc = s.enc
  webPos : x.press.webPos = s.press.webPos
  edges : x.press.edges = s.press.edges

section TripActs
variable {s x y : State}

theorem TripActs.refl (s : State) : TripActs s s := ⟨Extends.refl s, rfl, rfl, rfl⟩

theorem TripActs.trans (h : TripActs s x) (h' : TripActs x y) : TripActs s y :=
  ⟨h.toExtends.trans h'.toExtends, h'.enc.trans h.enc, h'.webPos.trans h.webPos, h'.edges.trans h.edges⟩

theorem TripActs.foldl {α : Type} {f : State → α → State} (hf : ∀ y a, TripActs y (f y a)) (l : List α) (s : State) :
    TripActs s (l.foldl f s) :=
  List.foldlRecOn (motive := TripActs s) l f (TripActs.refl s) fun y hy a _ => hy.trans (hf y a)

theorem TripActs.ite {c : Prop} [Decidable c] (hx : TripActs s x) (hy : TripActs s y) : TripActs s (if c then x else y) := by
  split
  · exact hx
  · exact hy

/-- A change of records that this says nothing of. -/
theorem TripActs.of_records (hr : x.regs = s.regs) (hh : x.evtEntries = s.evtEntries) (he : x.enc = s.enc)
    (hp : x.press.webPos = s.press.webPos) (hs : x.press.edges = s.press.edges) : TripActs s x :=
  ⟨⟨fun a _ => by rw [State.rget, hr, ← State.rget], fun e h => hh ▸ h⟩, he, hp, hs⟩

theorem TripActs.put (h : TripActs s x) (f : Fld) (v : Nat) (hf : tripWrites f.off) : TripActs s (x.put f v) :=
  h.trans ⟨(Extends.refl x).put f v hf, rfl, rfl, rfl⟩

theorem TripActs.putB (h : TripActs s x) (f : Fld) (b : Bool) (hf : tripWrites f.off) : TripActs s (x.putB f b) := h.put f _ hf
theorem TripActs.cause (h : TripActs s x) (f : Fld) (hf : tripWrites f.off) : TripActs s (x.cause f) := h.put f _ hf

theorem TripActs.of_hidden (h : x.hidden = s.hidden) (he : Extends tripWrites s x) : TripActs s x := by
  have henc := congrArg State.enc h
  have hpress := congrArg State.press h
  exact ⟨he, henc, congrArg Press.webPos hpress, congrArg Press.edges hpress⟩

theorem TripActs.evtPost (s : State) (e : EvtEntry) : TripActs s (s.evtPost e) :=
  TripActs.of_hidden (s.evtPost_hidden e)
    ⟨fun a ha => s.rget_evtPost e a fun hm => ha (.inl hm), s.mem_evtPost e⟩

theorem TripActs.event (h : TripActs s x) (c u : Nat) (p : List Nat) : TripActs s (x.event c u p) := h.trans (TripActs.evtPost ..)
theorem TripActs.event' (h : TripActs s x) (c : Nat) (p : List Nat) : TripActs s (x.event' c p) := h.trans (TripActs.evtPost ..)

theorem doneRegs_tripWrites {n a : Nat} (h : a ∈ doneRegs n) : tripWrites a :=
  (List.mem_cons.mp h).elim (fun e => .inr (.inl ⟨n, e⟩)) .inl

theorem State.mem_complete (s : State) (n seq typ code status unit : Nat) (p : List Nat) (b : Bool) (e : EvtEntry) (h : e ∈ s.evtEntries) :
    e ∈ (s.complete n seq typ code status unit p b).evtEntries := by
  have hmark (r : Ring) : e ∈ ((s.setRing n r).watermark n).evtEntries := by
    rwa [State.watermark_evtEntries, State.evtEntries_setRing]
  unfold State.complete
  split
  · exact h
  · dsimp only
    split
    · exact State.mem_evtPost _ _ e (hmark _)
    · exact hmark _

theorem TripActs.complete (s : State) (n seq typ code status unit : Nat) (p : List Nat) (b : Bool) :
    TripActs s (s.complete n seq typ code status unit p b) :=
  TripActs.of_hidden (s.complete_hidden ..)
    ⟨fun a ha => s.rget_complete _ _ _ _ _ _ _ _ a fun hm => ha (doneRegs_tripWrites hm), s.mem_complete n seq typ code status unit p b⟩

theorem TripActs.setJob (h : TripActs s x) (j : Job) : TripActs s (x.setJob j) := h.trans (TripActs.of_records rfl rfl rfl rfl rfl)

theorem TripActs.updJob (s : State) (f : Job → Job) : TripActs s (s.updJob f) := by
  unfold State.updJob
  split
  · exact TripActs.refl s
  · exact (TripActs.refl s).setJob _

theorem TripActs.jrn (s : State) (r : JrnRec) : TripActs s (s.jrn r) := by
  obtain ⟨p, hp, -⟩ := s.jrn_par r
  rw [hp]
  exact TripActs.of_records rfl rfl rfl rfl rfl

theorem TripActs.dropCoverage (s : State) (q x : Nat) : TripActs s (s.dropCoverage q x) := TripActs.of_records rfl rfl rfl rfl rfl
theorem TripActs.withWeb (s : State) (w : Web) : TripActs s { s with web := w } := TripActs.of_records rfl rfl rfl rfl rfl

theorem webStatus_tripWrites : tripWrites MOT_WEB_STATUS := .inr (.inr (.inr (.inl rfl)))
theorem webRate_tripWrites : tripWrites MOT_WEB_RATE := .inr (.inr (.inr (.inr (.inl rfl))))
theorem masterStatus_tripWrites (m : Nat) : tripWrites (ENC_M_STATUS m) := .inr (.inr (.inr (.inr (.inr (.inl ⟨m, rfl⟩)))))
theorem encCause_tripWrites : tripWrites ENC_IRQ_CAUSE := .inr (.inr (.inr (.inr (.inr (.inr rfl)))))
theorem press_tripWrites {a : Nat} (h : 0x40000 ≤ a ∧ a < 0x50000) : tripWrites a := .inr (.inr (.inl h))

/-! #### The clock and the web -/

theorem TripActs.webPlan (s : State) (m : Nat) (p : WebPlan) : TripActs s (s.webPlan m p) :=
  (TripActs.withWeb s _).put _ _ webStatus_tripWrites

theorem TripActs.refreshWebStop (s : State) : TripActs s s.refreshWebStop := by
  have hstop (x : State) (w : Web) (h : TripActs s x) : TripActs s (((({ x with web := w }).putB MOT_WEB_STATUS_WEB_STOP true).put
      MOT_WEB_RATE_RATE 0).putB MOT_WEB_STATUS_STANDSTILL true) :=
    (((h.trans (TripActs.withWeb x w)).putB _ _ webStatus_tripWrites).put _ _ webRate_tripWrites).putB _ _ webStatus_tripWrites
  unfold State.refreshWebStop
  dsimp only
  split
  · exact hstop _ _ (TripActs.ite (TripActs.webPlan ..) (TripActs.refl s))
  · exact (TripActs.refl s).putB _ _ webStatus_tripWrites

theorem TripActs.closeDev (s : State) : TripActs s s.closeDev := by
  unfold State.closeDev
  split
  · exact ((TripActs.refl s).putB _ _ (press_tripWrites (by decide))).event' _ _
  · exact TripActs.refl s

theorem TripActs.setClk (s : State) (c : Nat) : TripActs s (s.setClk c) := by
  have hclosed : TripActs s (if s.clk = clkRunning then s.closeDev else s) := TripActs.ite (TripActs.closeDev s) (TripActs.refl s)
  have hshown := (hclosed.put PGP_CLK_STATUS_CLK_STATE c (press_tripWrites (by decide))).trans (TripActs.refreshWebStop _)
  unfold State.setClk
  split
  · exact TripActs.refl s
  · dsimp only
    split
    · exact hshown
    · exact TripActs.ite ((hshown.trans (TripActs.jrn ..)).trans (TripActs.jrn ..)) (hshown.trans (TripActs.jrn ..))

/-! #### Pages -/

theorem TripActs.completePage (s : State) (ring seq code status : Nat) (p : List Nat) : TripActs s (s.completePage ring seq code status p) := by
  unfold State.completePage
  split
  · exact TripActs.evtPost ..
  · exact TripActs.complete ..

theorem TripActs.postPages (s : State) : TripActs s s.postPages := by
  unfold State.postPages
  split
  · exact TripActs.refl s
  · refine ((TripActs.refl s).setJob _).trans (TripActs.foldl (fun y p => ?_) _ _)
    split
    · exact TripActs.completePage ..
    · exact TripActs.refl y

theorem TripActs.postRetired (s : State) (p : PageRec) (status : Nat) : TripActs s (s.postRetired p status) :=
  (TripActs.updJob ..).trans (TripActs.postPages _)

theorem TripActs.retirePage (s : State) (p : PageRec) (aborted : Bool) : TripActs s (s.retirePage p aborted) := by
  have hjrn (r : JrnRec) (c : Prop) [Decidable c] : TripActs s (if c then s.jrn r else s) := TripActs.ite (TripActs.jrn ..) (TripActs.refl s)
  exact TripActs.ite ((hjrn ..).trans (TripActs.updJob ..)) ((hjrn ..).trans (TripActs.postRetired ..))

theorem TripActs.abortPages (s : State) (t : PageRec → Bool) : TripActs s (s.abortPages t) := by
  unfold State.abortPages
  split
  · exact TripActs.refl s
  · exact TripActs.foldl (fun _ _ => TripActs.retirePage ..) _ _

/-- The trip of R61. -/
theorem TripActs.webStopTrip (s : State) : TripActs s s.webStopTrip := by
  have htold := ((TripActs.setClk s clkHalted).event' Ev.WEB_STOP_TRIP [twos 32 s.webErr, s.press.lastFired]).cause
    PGP_IRQ_CAUSE_WEB_STOP_TRIP (press_tripWrites (by decide))
  unfold State.webStopTrip
  split
  · dsimp only
    split
    · exact htold
    · have hshown (j : Job) := ((htold.setJob j).put PGP_SCHED_STATUS_JOB_STATE jsEnding (press_tripWrites (by decide))).put
        PGP_SCHED_STATUS_RECOV_PHASE 0 (press_tripWrites (by decide))
      exact (((hshown _).trans (TripActs.foldl (fun _ _ => TripActs.dropCoverage ..) _ _)).trans
        (TripActs.foldl (fun _ _ => TripActs.retirePage ..) _ _)).trans (TripActs.abortPages ..)
  · exact TripActs.refl s

/-- A selected master that is lost trips the web (R414). -/
theorem TripActs.masterCheck (s : State) : TripActs s s.masterCheck :=
  TripActs.ite ((((TripActs.refl s).event _ _ _).cause ENC_IRQ_CAUSE_MASTER_LOST encCause_tripWrites).trans (TripActs.webStopTrip _))
    (TripActs.refl s)

/-- A master that retires (R402). -/
theorem TripActs.inputRetire (s : State) (m : Fin 2) : TripActs s (s.inputRetire (.master m)) := by
  have hretired : TripActs s ((s.setUst (.master m) .retired).setPend (.master m) false) :=
    ((TripActs.refl s).put _ _ (masterStatus_tripWrites m)).putB _ _ (masterStatus_tripWrites m)
  have htold := ((hretired.event Ev.INPUT_FAULT (inputNo (.master m)) [UState.retired.code,
    ((s.setUst (.master m) .retired).setPend (.master m) false).get (tallyFld (.master m)).1]).cause ENC_IRQ_CAUSE_INPUT_FAULT
    encCause_tripWrites).trans (TripActs.masterCheck _)
  unfold State.inputRetire State.retireUnit
  split
  · exact htold
  · exact htold
  · exact htold
  · exact TripActs.refl s

/-- The counts of a master input are no registers that its retirement writes. -/
theorem masterCounts_notTripped (m : Fin 2) : ¬tripWrites (ENC_M_SHORT_COUNT m) ∧ ¬tripWrites (ENC_M_TALLY m) := by
  have hfree (a : Nat) (ha : a = ENC_M_SHORT_COUNT m ∨ a = ENC_M_TALLY m) : ¬tripWrites a := by
    have hm := m.isLt
    simp only [ENC_M_SHORT_COUNT, ENC_M_TALLY] at ha
    simp only [tripWrites, evtRegs, List.mem_cons, List.not_mem_nil, or_false, HIF_RING_STATUS, HIF_EVT_LOST, HIF_IRQ_CAUSE, HIF_RING_DONE,
      MOT_WEB_STATUS, MOT_WEB_RATE, ENC_M_STATUS, ENC_IRQ_CAUSE]
    rintro (h | ⟨n, h⟩ | h | h | h | ⟨n, h⟩ | h) <;> omega
  exact ⟨hfree _ (.inl rfl), hfree _ (.inr rfl)⟩

/-- An input's tally adds 1, and a master that reaches its limit retires (R402, R405). -/
theorem State.inputTally_shows (s : State) (m : Fin 2) :
    let x := s.inputTally (.master m)
    x.get (ENC_M_TALLY_COUNT m) = min 65535 (s.get (ENC_M_TALLY_COUNT m) + 1) ∧
      TripActs (s.addSat (ENC_M_TALLY_COUNT m) 1) x := by
  have hacts : TripActs (s.addSat (ENC_M_TALLY_COUNT m) 1) (s.inputTally (.master m)) :=
    TripActs.ite (TripActs.inputRetire _ m) (TripActs.refl _)
  exact ⟨(hacts.get _ (masterCounts_notTripped m).2).trans (State.get_addSat_same _ _ _ rfl), hacts⟩

end TripActs

/-! ### Edges of a master input (R404, R405) -/

section MasterEdge
variable {s : State} {m : Fin 2} {b r : Bool}

/-- An edge counts while the input is ON and the edge is the configured one. -/
theorem State.masterEdge_active (hon : s.ust (.master m) = .on) (hedge : r ≠ s.on (ENC_M_CFG_EDGE m)) :
    s.masterEdge m b r =
      if !(s.masterInput m b).2 then (s.masterInput m b).1
      else if m.val = s.masterSel then
        (s.masterInput m b).1.webEdge m (sgn 48 (twos 48 (((s.masterInput m b).1.minp m).pos - (s.minp m).pos)))
      else (s.masterInput m b).1.crossCheck := by
  refine if_neg ?_
  simpa [hon] using hedge

/-- Another edge, or one of an input that is not ON, is nothing. -/
theorem State.masterEdge_inactive (h : s.ust (.master m) ≠ .on ∨ r = s.on (ENC_M_CFG_EDGE m)) : s.masterEdge m b r = s := by
  refine if_pos ?_
  simpa using h

/-- An edge too soon after the last accepted one is counted (R405). -/
theorem State.masterEdge_short {t0 : Nat} (hon : s.ust (.master m) = .on) (hedge : r ≠ s.on (ENC_M_CFG_EDGE m))
    (hlast : (s.minp m).last = some t0) (hshort : s.now - t0 < 4 * s.get (ENC_M_TIME_MIN_INT m)) :
    s.masterEdge m b r = (s.addSat (ENC_M_SHORT_COUNT_COUNT m) 1).inputTally (.master m) := by
  have hinput : s.masterInput m b = ((s.addSat (ENC_M_SHORT_COUNT_COUNT m) 1).inputTally (.master m), false) := by
    have hblt : Nat.blt (s.now - t0) (4 * s.get (ENC_M_TIME_MIN_INT m)) = true := Nat.blt_eq.mpr hshort
    simp only [State.masterInput, hlast, hblt, if_true, Fin.ofNat_val_eq_self]
  rw [State.masterEdge_active hon hedge, hinput]
  rfl

/-- The short edges and the tally are two registers of the input. -/
theorem shortCount_ne_tally (m : Fin 2) : ENC_M_SHORT_COUNT m ≠ ENC_M_TALLY m := by revert m; decide

end MasterEdge

/-- Settles O15: the edge adds to two counts, and what follows when the tally reaches its limit leaves both, the encoders and the web position
(`State.inputTally_shows`). -/
theorem shortEdgesAreIgnored : Obligations.ShortEdgesAreIgnored := by
  unfold Obligations.ShortEdgesAreIgnored
  intro s m b r t0 hon hedge hlast hshort
  obtain ⟨htally, hacts⟩ := (s.addSat (ENC_M_SHORT_COUNT_COUNT m) 1).inputTally_shows m
  have hne := shortCount_ne_tally m
  refine ⟨_, congrArg finish (State.masterEdge_short hon hedge hlast hshort), ?_, ?_, ?_, hacts.webPos, hacts.edges⟩
  · rw [State.get_trackIrq, hacts.get _ (masterCounts_notTripped m).1, State.get_addSat_apart _ _ _ _ rfl (.inl hne.symm)]
    exact State.get_addSat_same _ _ _ rfl
  · rw [State.get_trackIrq, htally, State.get_addSat_apart _ _ _ _ rfl (.inl hne)]
  · exact hacts.enc

end Sys2Proof.Machine

namespace Sys2Proof.Machine

/-! ### Fields of one register, and changes of a record with registers -/

section Fields
variable {s x : State}

theorem State.get_put_bits (s : State) (f g : Fld) (v : Nat) (h : f.ok = true) (hb : f.bitsApart g = true) : (s.put f v).get g = s.get g :=
  s.get_put_apart f g v h (Fld.apart_of_bits hb)
theorem State.get_putB_bits (s : State) (f g : Fld) (v : Bool) (h : f.ok = true) (hb : f.bitsApart g = true) : (s.putB f v).get g = s.get g :=
  s.get_put_bits f g _ h hb
theorem State.on_put_bits (s : State) (f g : Fld) (v : Nat) (h : f.ok = true) (hb : f.bitsApart g = true) : (s.put f v).on g = s.on g :=
  State.on_eq_of_get _ _ _ (s.get_put_bits f g v h hb)
theorem State.on_putB_bits (s : State) (f g : Fld) (v : Bool) (h : f.ok = true) (hb : f.bitsApart g = true) : (s.putB f v).on g = s.on g :=
  s.on_put_bits f g _ h hb

theorem RegsOnly.setEnc (h : RegsOnly s x) (e : Enc) : RegsOnly (s.setEnc e) (x.setEnc e) := by
  unfold RegsOnly at *
  rw [h]
  rfl

/-- Only registers and the encoders' record differ. -/
theorem RegsOnly.withEnc {e : Enc} (h : RegsOnly (s.setEnc e) x) : RegsOnly { s with enc := x.enc } x := by
  have henc : x.enc = e := by rw [h]; rfl
  rw [henc]
  exact h

theorem RegsOnly.time (h : RegsOnly s x) : x.time = s.time := by rw [h]

/-- A change of records alone keeps every register. -/
theorem Keeps.of_regs {l : List Nat} (h : x.regs = s.regs) : Keeps s x l := fun a _ => by rw [State.rget, h, ← State.rget]

theorem Keeps.get {l : List Nat} (h : Keeps s x l) (f : Fld) (hf : f.off ∉ l) : x.get f = s.get f := State.get_eq_of_rget _ _ _ (h _ hf)
theorem Keeps.on {l : List Nat} (h : Keeps s x l) (f : Fld) (hf : f.off ∉ l) : x.on f = s.on f := State.on_eq_of_get _ _ _ (h.get f hf)

end Fields

/-! ### What a command that posts events changes beside one record -/

section Posting
variable {s x : State} {offs : List Nat}

theorem AltersPosting.of_enc {e : Enc} (h : x.hidden = (s.setEnc e).hidden) (hk : Keeps s x (offs ++ evtRegs)) :
    AltersPosting s x.trackIrq { s with enc := x.trackIrq.enc } offs := by
  have henc : x.enc = e := congrArg State.enc h
  refine ⟨?_, hk⟩
  rw [State.trackIrq_hidden, State.trackIrq_enc, henc, h]
  rfl

/-- A command that changes the encoders' record and registers. -/
theorem Alters.of_enc {e : Enc} (h : RegsOnly (s.setEnc e) x) (hk : Keeps s x offs) :
    Alters s x.trackIrq { s with enc := x.trackIrq.enc } offs := by
  rw [State.trackIrq_enc]
  exact Alters.of_regsOnly rfl h.withEnc hk

end Posting

/-! ### Numbers of a width (R3) -/

/-- A number and its two's complement agree modulo the width. -/
theorem sgn_twos_emod (w : Nat) (x : Int) : sgn w (twos w x) % ((2 ^ w : Nat) : Int) = x % ((2 ^ w : Nat) : Int) := by
  have hpos : (0 : Int) < ((2 ^ w : Nat) : Int) := by exact_mod_cast Nat.two_pow_pos w
  have htwos : ((twos w x : Nat) : Int) = x % ((2 ^ w : Nat) : Int) := Int.toNat_of_nonneg (Int.emod_nonneg _ hpos.ne')
  unfold sgn
  split
  · rw [Int.natCast_mod, Int.emod_emod, htwos, Int.emod_emod]
  · rw [Int.sub_emod_right, Int.natCast_mod, Int.emod_emod, htwos, Int.emod_emod]

theorem twos_congr {w : Nat} {x y : Int} (h : x % ((2 ^ w : Nat) : Int) = y % ((2 ^ w : Nat) : Int)) : twos w x = twos w y := by
  rw [twos, h, ← twos]

/-- The step between a position and the position shown one step on is that step. -/
theorem sgn_twos_step (w : Nat) (p d : Int) : sgn w (twos w (sgn w (twos w (p + d)) - p)) = sgn w (twos w d) := by
  congr 1
  apply twos_congr
  rw [Int.sub_emod, sgn_twos_emod, ← Int.sub_emod]
  congr 1
  ring

/-! ### Records of the inputs -/

section Inputs
variable {s : State}

theorem State.minp_setMinp_same {m : Fin 2} (x : MasterIn) (h : s.enc.masters.length = 2) : (s.setMinp m x).minp m = x := by
  have hm : m.val < s.enc.masters.length := h.symm ▸ m.isLt
  simp [State.minp, State.setMinp, List.getD_eq_getElem?_getD, hm]

theorem State.qinp_setQinp_same {q : Fin 16} (x : CountIn) (h : s.enc.quads.length = 16) : (s.setQinp q x).qinp q = x := by
  have hq : q.val < s.enc.quads.length := h.symm ▸ q.isLt
  simp [State.qinp, State.setQinp, List.getD_eq_getElem?_getD, hq]

theorem State.sinp_setSinp_same {n : Fin 4} (x : CountIn) (h : s.enc.serials.length = 4) : (s.setSinp n x).sinp n = x := by
  have hn : n.val < s.enc.serials.length := h.symm ▸ n.isLt
  simp [State.sinp, State.setSinp, List.getD_eq_getElem?_getD, hn]

theorem Keeps.setMinp {x : State} {l : List Nat} (h : Keeps s x l) (m : Nat) (y : MasterIn) : Keeps s (x.setMinp m y) l := h
theorem Keeps.setQinp {x : State} {l : List Nat} (h : Keeps s x l) (q : Nat) (y : CountIn) : Keeps s (x.setQinp q y) l := h
theorem Keeps.setSinp {x : State} {l : List Nat} (h : Keeps s x l) (n : Nat) (y : CountIn) : Keeps s (x.setSinp n y) l := h

theorem State.minp_of_enc {x : State} (h : x.enc = s.enc) (m : Nat) : x.minp m = s.minp m := by rw [State.minp, h, ← State.minp]
theorem State.qinp_of_enc {x : State} (h : x.enc = s.enc) (q : Nat) : x.qinp q = s.qinp q := by rw [State.qinp, h, ← State.qinp]
theorem State.minp_trackIrq (s : State) (m : Nat) : s.trackIrq.minp m = s.minp m := rfl
theorem State.qinp_trackIrq (s : State) (q : Nat) : s.trackIrq.qinp q = s.qinp q := rfl
theorem State.sinp_trackIrq (s : State) (n : Nat) : s.trackIrq.sinp n = s.sinp n := rfl
theorem State.sinp_put (s : State) (f : Fld) (v n : Nat) : (s.put f v).sinp n = s.sinp n := rfl
theorem State.sinp_putB (s : State) (f : Fld) (b : Bool) (n : Nat) : (s.putB f b).sinp n = s.sinp n := rfl

theorem State.sinp_of_enc {x : State} (h : x.enc = s.enc) (n : Nat) : x.sinp n = s.sinp n := by rw [State.sinp, h, ← State.sinp]

end Inputs

/-! ### The first edge of a master after standstill (R404 to R412) -/

section FirstEdge
variable {s : State} {m : Fin 2} {b r : Bool}

/-- The record of an input of `t` teeth after its first edge in a direction. -/
def MasterIn.firstEdge (x : MasterIn) (back : Bool) (t now : Nat) : MasterIn :=
  { pos := sgn 48 (twos 48 (x.pos + if back = true then -1 else 1)), idx := (((x.idx : Int) + if back = true then -1 else 1) % t).toNat
    last := some now, back := back, ints := [], runs := 1, vNum := 0, vDen := 1, short := none, atExtra := false }

/-- The flags of a master with another record, moving. -/
def State.masterMoved (s : State) (m : Nat) (x : MasterIn) : State :=
  ((s.setMinp m x).putB (ENC_M_STATUS_STANDSTILL m) false).showMaster m

theorem State.edgeCount_first (back : Bool) (hlast : (s.minp m).last = none) (hstill : s.on (ENC_M_STATUS_STANDSTILL m) = true)
    (hlock : s.on (ENC_M_STATUS_LOCKED m) = false) :
    s.edgeCount m back = s.masterMoved m ((s.minp m).firstEdge back (s.teeth m) s.now) := by
  cases back <;>
    simp [State.edgeCount, hlast, hstill, hlock, State.unclassified, State.toothFaults, MasterIn.firstEdge, State.masterMoved]

theorem State.masterInput_first (hlast : (s.minp m).last = none) (hstill : s.on (ENC_M_STATUS_STANDSTILL m) = true)
    (hlock : s.on (ENC_M_STATUS_LOCKED m) = false) :
    s.masterInput m b = (s.masterMoved m ((s.minp m).firstEdge (s.edgeBack m b) (s.teeth m) s.now), true) := by
  simp only [State.masterInput, hlast, Bool.false_eq_true, if_false, State.edgeCount_first _ hlast hstill hlock]

theorem RegsOnly.showMaster {x : State} (h : RegsOnly s x) (m : Nat) : RegsOnly s (x.showMaster m) := ((h.putB _ _).putB _ _).put _ _

theorem Keeps.showMaster {x : State} {l : List Nat} (h : Keeps s x l) (m : Nat) (hl : ENC_M_STATUS m ∈ l) : Keeps s (x.showMaster m) l :=
  ((h.putB _ _ hl).putB _ _ hl).put _ _ hl

/-- TAU_VALID, DIR and INDEX lie apart from STANDSTILL. -/
theorem State.standstill_showMaster (s : State) (m : Nat) :
    (s.showMaster m).on (ENC_M_STATUS_STANDSTILL m) = s.on (ENC_M_STATUS_STANDSTILL m) := by
  rw [State.showMaster, State.on_put_bits _ _ _ _ rfl rfl, State.on_putB_bits _ _ _ _ rfl rfl, State.on_putB_bits _ _ _ _ rfl rfl]

theorem RegsOnly.masterMoved (s : State) (m : Nat) (x : MasterIn) : RegsOnly (s.setMinp m x) (s.masterMoved m x) :=
  RegsOnly.showMaster (RegsOnly.putB (RegsOnly.refl _) _ _) m

theorem Keeps.masterMoved (s : State) (m : Nat) (x : MasterIn) : Keeps s (s.masterMoved m x) [ENC_M_STATUS m] :=
  (((Keeps.refl s _).setMinp m x).putB _ _ List.mem_cons_self).showMaster m List.mem_cons_self

theorem State.showMaster_enc (s : State) (m : Nat) : (s.showMaster m).enc = s.enc := by
  rw [State.showMaster, State.put_enc, State.putB_enc, State.putB_enc]

theorem State.masterMoved_enc (s : State) (m : Nat) (x : MasterIn) : (s.masterMoved m x).enc = (s.setMinp m x).enc := by
  rw [State.masterMoved, State.showMaster_enc, State.putB_enc]

theorem State.minp_masterMoved {x : MasterIn} (h : s.enc.masters.length = 2) : (s.masterMoved m x).minp m = x :=
  (State.minp_of_enc (s.masterMoved_enc m x) m).trans (State.minp_setMinp_same x h)

theorem State.masterMoved_standstill (s : State) (m : Nat) (x : MasterIn) :
    (s.masterMoved m x).on (ENC_M_STATUS_STANDSTILL m) = false :=
  (State.standstill_showMaster _ m).trans (State.on_putB_same _ _ _ rfl)

/-- The cross-check is off (R415). -/
theorem State.crossCheck_off (h : s.on ENC_XCHK_EN = false) : s.crossCheck = s := if_pos (.inl (by simp [h]))

theorem encRegs_ne_masterStatus (m : Fin 2) : ENC_XCHK ∉ [ENC_M_STATUS m] ∧ PGP_WEB_SCALE ∉ [ENC_M_STATUS m] := by
  revert m
  decide

/-- An edge of the selected master without a job moves the web position by the master's scale (R411). -/
theorem State.webEdge_noJob (m : Nat) (dp : Int) (hjob : s.press.job = none) :
    let t := s.webEdge m dp
    t.press.webPos = s.press.webPos + dp * (s.get PGP_WEB_SCALE_SCALE : Int) ∧ t.press.edges.head? = some (s.now, t.press.webPos) ∧
      t.press.edgeSince = true ∧ t.regs = s.regs ∧ t = { s with press := t.press } := by
  have hedge : s.webEdge m dp = { s with press := (s.webEdge m dp).press } := by
    simp only [State.webEdge, State.edgeErr, hjob]
  refine ⟨?_, ?_, ?_, by rw [hedge], hedge⟩ <;> simp only [State.webEdge, State.edgeErr, hjob, State.webScale]
  rfl

end FirstEdge

/-! ### Quadrature inputs (R416, R417) -/

section Quad
variable {s : State} {q : Fin 16} {a b : Bool}

/-- The record of an input after one line of its pair changed. -/
def CountIn.moved (x : CountIn) (a b still back : Bool) (now : Nat) : CountIn :=
  let runs := if (x.last.isNone || still || (back != x.back)) = true then 1 else x.runs + 1
  { x with a := a, b := b, last := some now, back := back, runs := runs
           vNum := if 2 ≤ runs then (if back = true then -1 else 1) else 0, vDen := max 1 (now - x.last.getD now) }

/-- The count and the flags of an input that counts in a direction. -/
def State.quadMoved (s : State) (q : Nat) (x : CountIn) (back : Bool) : State :=
  (((s.setQinp q x).putS (ENC_Q_COUNT_COUNT q) (s.getS (ENC_Q_COUNT_COUNT q) + if back = true then -1 else 1)).putB
    (ENC_Q_STATUS_STANDSTILL q) false).putB (ENC_Q_STATUS_DIR q) back

/-- A change of the first line counts in the direction that both lines give (R416). -/
theorem State.quadChange_first (hon : s.ust (.quad q) = .on) (ha : a ≠ (s.qinp q).a) (hb : b = (s.qinp q).b) :
    let back := !xor (xor a b) (s.on (ENC_Q_CFG_DIR_INV q))
    s.quadChange q a b = s.quadMoved q ((s.qinp q).moved a b (s.on (ENC_Q_STATUS_STANDSTILL q)) back s.now) back := by
  subst hb
  have hdir : (a != (s.qinp q).b) = xor a (s.qinp q).b := rfl
  simp [State.quadChange, hon, ha, State.quadMoved, CountIn.moved]

theorem quadStatus_ne_count (q : Fin 16) : ENC_Q_STATUS q ≠ ENC_Q_COUNT q := by revert q; decide

theorem Keeps.quadMoved (s : State) (q : Nat) (x : CountIn) (back : Bool) : Keeps s (s.quadMoved q x back) [ENC_Q_COUNT q, ENC_Q_STATUS q] :=
  ((((Keeps.refl s _).setQinp q x).putS _ _ List.mem_cons_self).putB _ _ (List.mem_cons_of_mem _ List.mem_cons_self)).putB _ _
    (List.mem_cons_of_mem _ List.mem_cons_self)

theorem RegsOnly.quadMoved (s : State) (q : Nat) (x : CountIn) (back : Bool) : RegsOnly (s.setQinp q x) (s.quadMoved q x back) :=
  (((RegsOnly.refl (s.setQinp q x)).putS _ _).putB _ _).putB _ _

theorem State.qinp_quadMoved {x : CountIn} {back : Bool} (h : s.enc.quads.length = 16) : (s.quadMoved q x back).qinp q = x := by
  have henc : (s.quadMoved q x back).enc = (s.setQinp q x).enc := by
    rw [State.quadMoved, State.putB_enc, State.putB_enc, State.putS_enc]
  rw [State.qinp_of_enc henc, State.qinp_setQinp_same x h]

/-- The count moves by one step in its direction, and the input is not at standstill. -/
theorem State.quadMoved_shows (s : State) (q : Fin 16) (x : CountIn) (back : Bool) :
    (s.quadMoved q x back).getS (ENC_Q_COUNT_COUNT q) =
        sgn 32 (twos 32 (s.getS (ENC_Q_COUNT_COUNT q) + if back = true then -1 else 1)) ∧
      (s.quadMoved q x back).on (ENC_Q_STATUS_STANDSTILL q) = false := by
  have hne := quadStatus_ne_count q
  constructor
  · rw [State.getS, State.quadMoved, State.get_putB_apart _ _ _ _ rfl (.inl hne), State.get_putB_apart _ _ _ _ rfl (.inl hne), ← State.getS,
      State.getS_putS_same _ _ _ rfl]
    rfl
  · rw [State.quadMoved, State.on_putB_bits _ _ _ _ rfl rfl, State.on_putB_same _ _ _ rfl]

/-- An illegal transition is counted and shown (R417). -/
def State.illegalMarked (s : State) (q : Nat) (x : CountIn) : State :=
  ((s.setQinp q x).addSat (ENC_Q_ILLEGAL_COUNT_COUNT q) 1).putB (ENC_Q_STATUS_ILLEGAL q) true

/-- An illegal transition that is shown for the first time, with its event. -/
def State.illegalShown (s : State) (q : Nat) (x : CountIn) (p : List Nat) : State :=
  (s.illegalMarked q x).report Ev.ILLEGAL_TRANSITION (16 + q) p ENC_IRQ_CAUSE_ILLEGAL

/-- The tally of an input below its limit only counts (R402). -/
theorem State.inputTally_below {u : UnitId} (h : max 1 ((s.addSat (tallyFld u).1 1).get (tallyFld u).2.2) > (s.addSat (tallyFld u).1 1).get (tallyFld u).1) :
    s.inputTally u = s.addSat (tallyFld u).1 1 := if_neg (Nat.not_le.mpr h)

end Quad

/-! ### Tallies below their limit (R402) -/

section Tallies
variable {s : State}

/-- A tally below its limit counts one more, and stays below it. -/
theorem State.tally_below {c l : Fld} (hc : c.ok = true) (hmax : c.max = 65535) (hl : l.hi - l.lo = 15) (hne : c.off ≠ l.off)
    (h : s.get c + 1 < s.get l) :
    (s.addSat c 1).get c = s.get c + 1 ∧ max 1 ((s.addSat c 1).get l) > (s.addSat c 1).get c := by
  have hlimit := s.get_lt l
  rw [hl] at hlimit
  have hcount : (s.addSat c 1).get c = s.get c + 1 := by
    rw [State.get_addSat_same _ _ _ hc, hmax]
    omega
  refine ⟨hcount, ?_⟩
  rw [hcount, State.get_addSat_apart _ _ _ _ hc (.inl hne)]
  omega

theorem masterTally_ne_limit (m : Fin 2) : ENC_M_TALLY m ≠ ENC_M_TALLY_CFG m := by revert m; decide
theorem quadTally_ne_limit (q : Fin 16) : ENC_Q_TALLY q ≠ ENC_Q_TALLY_CFG q := by revert q; decide
theorem serialTally_ne_limit (n : Fin 4) : ENC_S_TALLY n ≠ ENC_S_TALLY_CFG n := by revert n; decide

theorem State.masterTally_below {m : Fin 2} (h : s.get (ENC_M_TALLY_COUNT m) + 1 < s.get (ENC_M_TALLY_CFG_LIMIT m)) :
    s.inputTally (.master m) = s.addSat (ENC_M_TALLY_COUNT m) 1 ∧
      (s.addSat (ENC_M_TALLY_COUNT m) 1).get (ENC_M_TALLY_COUNT m) = s.get (ENC_M_TALLY_COUNT m) + 1 := by
  obtain ⟨hcount, hbelow⟩ := State.tally_below rfl rfl rfl (masterTally_ne_limit m) h
  exact ⟨State.inputTally_below (u := .master m) hbelow, hcount⟩

theorem State.quadTally_below {q : Fin 16} (h : s.get (ENC_Q_TALLY_COUNT q) + 1 < s.get (ENC_Q_TALLY_CFG_LIMIT q)) :
    s.inputTally (.quad q) = s.addSat (ENC_Q_TALLY_COUNT q) 1 ∧
      (s.addSat (ENC_Q_TALLY_COUNT q) 1).get (ENC_Q_TALLY_COUNT q) = s.get (ENC_Q_TALLY_COUNT q) + 1 := by
  obtain ⟨hcount, hbelow⟩ := State.tally_below rfl rfl rfl (quadTally_ne_limit q) h
  exact ⟨State.inputTally_below (u := .quad q) hbelow, hcount⟩

theorem State.serialTally_below {n : Fin 4} (h : s.get (ENC_S_TALLY_COUNT n) + 1 < s.get (ENC_S_TALLY_CFG_LIMIT n)) :
    s.inputTally (.serial n) = s.addSat (ENC_S_TALLY_COUNT n) 1 := by
  obtain ⟨-, hbelow⟩ := State.tally_below rfl rfl rfl (serialTally_ne_limit n) h
  exact State.inputTally_below (u := .serial n) hbelow

end Tallies

/-! ### Illegal transitions (R417) -/

section Illegal
variable {s : State} {q : Fin 16} {a b : Bool}

/-- A change of both lines, the first since ILLEGAL was cleared, is shown and counted. -/
theorem State.quadChange_illegal (hon : s.ust (.quad q) = .on) (ha : a ≠ (s.qinp q).a) (hb : b ≠ (s.qinp q).b)
    (hfirst : s.on (ENC_Q_STATUS_ILLEGAL q) = false) :
    s.quadChange q a b = (s.illegalShown q { s.qinp q with a := a, b := b } [s.get (ENC_Q_COUNT_COUNT q), s.now]).inputTally (.quad q) := by
  simp [State.quadChange, hon, ha, hb, hfirst, State.illegalShown, State.illegalMarked, State.report]

theorem encCause_ne_quad (q : Fin 16) : ENC_IRQ_CAUSE ≠ ENC_Q_STATUS q ∧ ENC_IRQ_CAUSE ≠ ENC_Q_ILLEGAL_COUNT q ∧ ENC_IRQ_CAUSE ≠ ENC_Q_TALLY q ∧
    ENC_IRQ_CAUSE ≠ ENC_Q_TALLY_CFG q := by
  revert q
  decide

theorem quadRegs_notMem_evtRegs (q : Fin 16) : ENC_Q_STATUS q ∉ evtRegs ∧ ENC_Q_ILLEGAL_COUNT q ∉ evtRegs ∧ ENC_Q_TALLY q ∉ evtRegs ∧
    ENC_Q_TALLY_CFG q ∉ evtRegs := by
  revert q
  decide

theorem quadRegs_apart (q : Fin 16) : ENC_Q_STATUS q ≠ ENC_Q_ILLEGAL_COUNT q ∧ ENC_Q_STATUS q ≠ ENC_Q_TALLY q ∧
    ENC_Q_STATUS q ≠ ENC_Q_TALLY_CFG q ∧ ENC_Q_ILLEGAL_COUNT q ≠ ENC_Q_TALLY q ∧ ENC_Q_ILLEGAL_COUNT q ≠ ENC_Q_TALLY_CFG q ∧
    RST_ISLAND 1 ≠ ENC_Q_STATUS q ∧ RST_ISLAND 1 ≠ ENC_Q_ILLEGAL_COUNT q := by
  revert q
  decide

theorem State.illegalShown_shows (s : State) (q : Fin 16) (x : CountIn) (p : List Nat) :
    let t := s.illegalShown q x p
    t.on (ENC_Q_STATUS_ILLEGAL q) = true ∧
      t.get (ENC_Q_ILLEGAL_COUNT_COUNT q) = min (2 ^ 32 - 1) (s.get (ENC_Q_ILLEGAL_COUNT_COUNT q) + 1) ∧
      t.get (ENC_Q_TALLY_COUNT q) = s.get (ENC_Q_TALLY_COUNT q) ∧ t.get (ENC_Q_TALLY_CFG_LIMIT q) = s.get (ENC_Q_TALLY_CFG_LIMIT q) ∧
      Posts s t Ev.ILLEGAL_TRANSITION (16 + q) p ∧ t.hidden = (s.setQinp q x).hidden ∧
      Keeps s t ([ENC_Q_STATUS q, ENC_Q_ILLEGAL_COUNT q, ENC_Q_TALLY q, ENC_IRQ_CAUSE] ++ evtRegs) := by
  obtain ⟨cstatus, ccount, ctally, climit⟩ := encCause_ne_quad q
  obtain ⟨estatus, ecount, etally, elimit⟩ := quadRegs_notMem_evtRegs q
  obtain ⟨hcount, htally, hlimit, hct, hcl, his, hic⟩ := quadRegs_apart q
  have hkept (f : Fld) (hc : ENC_IRQ_CAUSE ≠ f.off) (he : f.off ∉ evtRegs) (hs : (ENC_Q_STATUS_ILLEGAL q).apart f) :
      (s.illegalShown q x p).get f = (s.addSat (ENC_Q_ILLEGAL_COUNT_COUNT q) 1).get f := by
    rw [State.illegalShown, State.get_report _ _ _ _ rfl hc he, State.illegalMarked, State.get_putB_apart _ _ _ _ rfl hs]
    rfl
  have hregs : RegsOnly (s.setQinp q x) (s.illegalMarked q x) := ((RegsOnly.refl (s.setQinp q x)).addSat _ _).putB _ _
  have hmarked : Keeps s (s.illegalMarked q x) [ENC_Q_STATUS q, ENC_Q_ILLEGAL_COUNT q] :=
    (((Keeps.refl s _).setQinp q x).addSat _ _ (by simp [ENC_Q_ILLEGAL_COUNT_COUNT])).putB _ _ List.mem_cons_self
  refine ⟨?_, ?_, ?_, ?_, ?_, ?_, ?_⟩
  · rw [State.illegalShown, State.on_eq_of_get _ _ _ (State.get_report _ _ _ _ rfl cstatus estatus), State.illegalMarked,
      State.on_putB_same _ _ _ rfl]
  · exact (hkept (ENC_Q_ILLEGAL_COUNT_COUNT q) ccount ecount (.inl hcount)).trans (State.get_addSat_same _ _ _ rfl)
  · exact (hkept (ENC_Q_TALLY_COUNT q) ctally etally (.inl htally)).trans (State.get_addSat_apart _ _ _ _ rfl (.inl hct))
  · exact (hkept (ENC_Q_TALLY_CFG_LIMIT q) climit elimit (.inl hlimit)).trans (State.get_addSat_apart _ _ _ _ rfl (.inl hcl))
  · exact (Posts.of_event s (s.illegalMarked q x) _ _ _ hregs.hif hregs.time (hmarked _ (by simp [his, hic])) (by decide)).cause _
  · rw [State.illegalShown, State.hidden_report, State.illegalMarked, State.putB_hidden, State.addSat_hidden]
  · exact (hmarked.mono (by simp)).report _ _ _ _ (by simp [ENC_IRQ_CAUSE_ILLEGAL])

end Illegal

/-! ### Serial words (R418 to R421) -/

section Serial
variable {s : State} {n : Fin 4} {w t0 : Nat}

/-- The record of an input when a read ends, with the word read. -/
def CountIn.ended (x : CountIn) (raw : Nat) : CountIn := { x with reading := none, raw := raw }

/-- The record of an input with its first valid word, and with a later one that carries the same position. -/
def CountIn.atRest (x : CountIn) (p stamp : Nat) : CountIn :=
  { x with pos := some p, good := x.good + 1, lastWord := some stamp, vNum := 0, vDen := 1 }

/-- A word whose check and error bit are off is valid when it did not time out (R419, R420). -/
theorem State.serialWord_valid (hreads : s.serialReads n = true) (hreading : (s.sinp n).reading = some t0)
    (hcrc : s.get (ENC_S_CFG_CRC_LEN n) = 0) (herr : s.on (ENC_S_CFG_ERR_EN n) = false) :
    s.serialWord n false w = (s.setSinp n ((s.sinp n).ended (w % 2 ^ s.get (ENC_S_CFG_LEN n)))).serialValid n
      (w % 2 ^ s.get (ENC_S_CFG_LEN n)) t0 := by
  simp [State.serialWord, hreading, hreads, hcrc, herr, CountIn.ended]

/-- A word that timed out is discarded (R420). -/
theorem State.serialWord_timeout (hreads : s.serialReads n = true) (hreading : (s.sinp n).reading = some t0) :
    s.serialWord n true w = (s.setSinp n ((s.sinp n).ended (s.sinp n).raw)).serialBad n (ENC_S_TIMEOUT_COUNT_COUNT n) := by
  simp [State.serialWord, hreading, hreads, CountIn.ended]

/-- The first valid word is the count (R421). -/
theorem State.serialValid_first {x : CountIn} (hx : s.sinp n = x) (hpos : x.pos = none) :
    s.serialValid n w t0 = (s.setSinp n (x.atRest (s.serialPos n w) t0)).put (ENC_S_COUNT_COUNT n) (s.serialPos n w) := by
  subst hx
  simp only [State.serialValid, hpos]
  rfl

/-- The step from one position of an input to the next, within the position's width. -/
def State.serialStep (s : State) (n p0 p : Nat) : Int :=
  sgn (s.get (ENC_S_FIELD_POS_LEN n)) (twos (s.get (ENC_S_FIELD_POS_LEN n)) ((p : Int) - p0))

/-- A later valid word moves the count by the difference, and writes nothing else but the status (R421). -/
theorem State.serialValid_later {x : CountIn} {p0 : Nat} (hx : s.sinp n = x) (hlen : s.enc.serials.length = 4) (hpos : x.pos = some p0) :
    let t := s.serialValid n w t0
    (t.sinp n).pos = some (s.serialPos n w) ∧
      t.getS (ENC_S_COUNT_COUNT n) = sgn 32 (twos 32 (s.getS (ENC_S_COUNT_COUNT n) + s.serialStep n p0 (s.serialPos n w))) ∧
      RegsOnly { s with enc := t.enc } t ∧ Keeps s t [ENC_S_COUNT n, ENC_S_STATUS n] := by
  subst hx
  have hne : ENC_S_STATUS n ≠ ENC_S_COUNT n := by clear hpos; revert n; decide
  have hcount (v : Int) : (s.putS (ENC_S_COUNT_COUNT n) v).getS (ENC_S_COUNT_COUNT n) = sgn 32 (twos 32 v) := State.getS_putS_same _ _ _ rfl
  have hputs (v : Int) : Keeps s (s.putS (ENC_S_COUNT_COUNT n) v) [ENC_S_COUNT n, ENC_S_STATUS n] :=
    (Keeps.refl s _).putS _ _ List.mem_cons_self
  have hstatus : ENC_S_STATUS n ∈ [ENC_S_COUNT n, ENC_S_STATUS n] := List.mem_cons_of_mem _ List.mem_cons_self
  have hrecord (v : Int) (y : CountIn) : ((s.putS (ENC_S_COUNT_COUNT n) v).setSinp n y).sinp n = y := State.sinp_setSinp_same y hlen
  have hregs (v : Int) (e : Enc) : RegsOnly (s.setEnc e) ((s.putS (ENC_S_COUNT_COUNT n) v).setEnc e) :=
    ((RegsOnly.refl s).putS _ _).setEnc e
  simp only [State.serialValid, hpos]
  split
  · exact ⟨by rw [hrecord], hcount _, (hregs _ _).withEnc, hputs _⟩
  · refine ⟨by rw [State.sinp_putB, State.sinp_putB, hrecord], ?_, ?_, ?_⟩
    · rw [State.getS, State.get_putB_apart _ _ _ _ rfl (.inl hne), State.get_putB_apart _ _ _ _ rfl (.inl hne)]
      exact hcount _
    · exact (((hregs _ _).putB _ _).putB _ _).withEnc
    · exact (((hputs _).setSinp n _).putB _ _ hstatus).putB _ _ hstatus

end Serial

end Sys2Proof.Machine

namespace Sys2Proof.Machine

/-! ### Standstill (R412) -/

section Standstill
variable {s : State}

/-- The record of a quadrature or serial input at standstill. -/
def CountIn.still (x : CountIn) : CountIn := { x with runs := 0, vNum := 0, vDen := 1 }

/-- The record of a master input at standstill. -/
def MasterIn.still (x : MasterIn) : MasterIn := { x with ints := [], runs := 0, vNum := 0, vDen := 1, short := none }

/-- A master with another record, at standstill. -/
def State.masterStopped (s : State) (m : Nat) (x : MasterIn) : State :=
  ((s.setMinp m x).putB (ENC_M_STATUS_STANDSTILL m) true).showMaster m

theorem State.inputStill_quad {q : Fin 16} (h : s.ust (.quad q) = .on) :
    s.inputStill (.quad q) = (s.setQinp q (s.qinp q).still).putB (ENC_Q_STATUS_STANDSTILL q) true := if_neg (by simp [h])

theorem State.inputStill_quad_shows {q : Fin 16} (hon : s.ust (.quad q) = .on) :
    let t := s.inputStill (.quad q)
    t.on (ENC_Q_STATUS_STANDSTILL q) = true ∧ RegsOnly (s.setQinp q (s.qinp q).still) t ∧ Keeps s t [ENC_Q_STATUS q] := by
  rw [State.inputStill_quad hon]
  exact ⟨State.on_putB_same _ _ _ rfl, (RegsOnly.refl (s.setQinp q _)).putB _ _,
    ((Keeps.refl s _).setQinp q _).putB _ _ List.mem_cons_self⟩

theorem State.inputStill_master {m : Fin 2} (h : s.ust (.master m) = .on) : s.inputStill (.master m) = s.masterStopped m (s.minp m).still :=
  if_neg (by simp [h])

theorem State.minp_masterStopped {m : Fin 2} {x : MasterIn} (h : s.enc.masters.length = 2) : (s.masterStopped m x).minp m = x :=
  (State.minp_of_enc (by rw [State.masterStopped, State.showMaster_enc, State.putB_enc]) m).trans (State.minp_setMinp_same x h)

theorem State.inputStill_master_shows {m : Fin 2} (hon : s.ust (.master m) = .on) (hlen : s.enc.masters.length = 2) :
    let t := s.inputStill (.master m)
    t.on (ENC_M_STATUS_STANDSTILL m) = true ∧ t.minp m = (s.minp m).still ∧ RegsOnly (s.setMinp m (s.minp m).still) t ∧
      Keeps s t [ENC_M_STATUS m] := by
  rw [State.inputStill_master hon]
  exact ⟨(State.standstill_showMaster _ m).trans (State.on_putB_same _ _ _ rfl), State.minp_masterStopped hlen,
    ((RegsOnly.refl (s.setMinp m _)).putB _ _).showMaster m,
    (((Keeps.refl s _).setMinp m _).putB _ _ List.mem_cons_self).showMaster m List.mem_cons_self⟩

theorem State.quadV_still {q : Nat} (h : s.on (ENC_Q_STATUS_STANDSTILL q) = true) : s.quadV q = (0, 1) := if_pos h
theorem State.masterV_still {m : Nat} (h : s.on (ENC_M_STATUS_STANDSTILL m) = true) : s.masterV m = (0, 1) := if_pos h

end Standstill

/-! ### Position feedback: the statement -/

section Clauses
variable {s : State}

/-- The first edge moves a master by one tooth. -/
theorem MasterIn.firstEdge_pos (x : MasterIn) (back : Bool) (t now : Nat) :
    (x.firstEdge back t now).pos = sgn 48 (twos 48 (x.pos + if back = true then -1 else 1)) := rfl

theorem sgn_twos_unit (back : Bool) : sgn 48 (twos 48 (if back = true then -1 else 1)) = if back = true then -1 else 1 := by
  cases back <;> decide

theorem State.setSinp_serials_length (s : State) (n : Nat) (x : CountIn) : (s.setSinp n x).enc.serials.length = s.enc.serials.length :=
  List.length_set

/-- The first edge of a master that is not selected. -/
theorem State.masterEdge_first {m : Fin 2} {b r : Bool} {x : MasterIn} (hx : (s.minp m).firstEdge (s.edgeBack m b) (s.teeth m) s.now = x)
    (hon : s.ust (.master m) = .on) (hedge : r ≠ s.on (ENC_M_CFG_EDGE m)) (hlast : (s.minp m).last = none)
    (hstill : s.on (ENC_M_STATUS_STANDSTILL m) = true) (hlock : s.on (ENC_M_STATUS_LOCKED m) = false) (hsel : m.val ≠ s.masterSel)
    (hcheck : s.on ENC_XCHK_EN = false) : s.masterEdge m b r = s.masterMoved m x := by
  rw [State.masterEdge_active hon hedge, State.masterInput_first hlast hstill hlock, hx]
  exact (if_neg hsel).trans (State.crossCheck_off (((Keeps.masterMoved s m x).on _ (encRegs_ne_masterStatus m).1).trans hcheck))

/-- The first edge of the selected master without a job. -/
theorem State.masterEdge_firstWeb {m : Fin 2} {b r : Bool} {x : MasterIn} (hx : (s.minp m).firstEdge (s.edgeBack m b) (s.teeth m) s.now = x)
    (hon : s.ust (.master m) = .on) (hedge : r ≠ s.on (ENC_M_CFG_EDGE m)) (hlen : s.enc.masters.length = 2) (hlast : (s.minp m).last = none)
    (hstill : s.on (ENC_M_STATUS_STANDSTILL m) = true) (hlock : s.on (ENC_M_STATUS_LOCKED m) = false) (hsel : m.val = s.masterSel) :
    s.masterEdge m b r = (s.masterMoved m x).webEdge m (if s.edgeBack m b = true then -1 else 1) := by
  rw [State.masterEdge_active hon hedge, State.masterInput_first hlast hstill hlock, hx]
  refine (if_pos hsel).trans ?_
  rw [State.minp_masterMoved hlen, ← hx, MasterIn.firstEdge_pos, sgn_twos_step, sgn_twos_unit]

/-- The web position that an edge of the selected master gives, from the state before the edge. -/
theorem State.webEdge_masterMoved {m : Fin 2} {x : MasterIn} {d : Int} (hjob : s.press.job = none) :
    let t := (s.masterMoved m x).webEdge m d
    t.press.webPos = s.press.webPos + d * (s.get PGP_WEB_SCALE_SCALE : Int) ∧ t.press.edges.head? = some (s.now, t.press.webPos) ∧
      t.press.edgeSince = true ∧ RegsOnly { s with enc := t.enc, press := t.press } t ∧ Keeps s t [ENC_M_STATUS m] := by
  have hmoved := Keeps.masterMoved s m x
  have hregs := RegsOnly.masterMoved s m x
  generalize s.masterMoved m x = u at hmoved hregs
  have hpress : u.press = s.press := by rw [hregs]; rfl
  have hnow : u.now = s.now := by rw [State.now, hregs.time]; rfl
  obtain ⟨hpos, hhead, hsince, hsame, honly⟩ := u.webEdge_noJob m d (by rw [hpress, hjob])
  rw [hpress, hmoved.get PGP_WEB_SCALE_SCALE (encRegs_ne_masterStatus m).2] at hpos
  rw [hnow] at hhead
  refine ⟨hpos, hhead, hsince, ?_, fun a ha => (congrArg (RegFile.get · a) hsame).trans (hmoved a ha)⟩
  generalize (u.webEdge m d).press = y at honly
  unfold RegsOnly
  rw [honly, hregs]
  rfl

/-- The first valid word of a serial input, shown. -/
theorem State.serialValid_first_shows {n : Fin 4} {w t0 : Nat} (y : CountIn) (hlen : s.enc.serials.length = 4) (hpos : y.pos = none) :
    let t := (s.setSinp n y).serialValid n w t0
    t.sinp n = y.atRest (s.serialPos n w) t0 ∧ t.get (ENC_S_COUNT_COUNT n) = s.serialPos n w % 2 ^ 32 ∧
      RegsOnly { s with enc := t.enc } t ∧ Keeps s t [ENC_S_COUNT n] := by
  have hserials : (s.setSinp n y).enc.serials.length = 4 := (s.setSinp_serials_length n y).trans hlen
  have hfirst := State.serialValid_first (w := w) (t0 := t0) (State.sinp_setSinp_same (n := n) y hlen) hpos
  generalize hp : (s.setSinp n y).serialPos n w = p at hfirst
  rw [show s.serialPos n w = p from hp]
  rw [hfirst]
  refine ⟨?_, State.get_put_same _ _ _ rfl, ?_, ?_⟩
  · rw [State.sinp_put]
    exact State.sinp_setSinp_same _ hserials
  · generalize hu : (s.setSinp n y).setSinp n (y.atRest p t0) = u
    have hregs : RegsOnly (s.setEnc u.enc) u := by rw [← hu]; exact RegsOnly.refl _
    exact (hregs.put (ENC_S_COUNT_COUNT n) p).withEnc
  · exact (((Keeps.refl s _).setSinp n _).setSinp n _).put _ _ List.mem_cons_self

theorem serialTimeout_ne_tally (n : Fin 4) : ENC_S_TIMEOUT_COUNT n ≠ ENC_S_TALLY n ∧ ENC_S_TIMEOUT_COUNT n ≠ ENC_S_TALLY_CFG n := by
  revert n
  decide

/-- A read that timed out counts twice and ends the run of good words (R420). -/
theorem State.serialBad_below {n : Fin 4} (y : CountIn) (hlen : s.enc.serials.length = 4)
    (h : s.get (ENC_S_TALLY_COUNT n) + 1 < s.get (ENC_S_TALLY_CFG_LIMIT n)) :
    let t := (s.setSinp n y).serialBad n (ENC_S_TIMEOUT_COUNT_COUNT n)
    t.sinp n = { y with good := 0 } ∧
      t.get (ENC_S_TIMEOUT_COUNT_COUNT n) = min (2 ^ 32 - 1) (s.get (ENC_S_TIMEOUT_COUNT_COUNT n) + 1) ∧
      RegsOnly { s with enc := t.enc } t ∧ Keeps s t [ENC_S_TIMEOUT_COUNT n, ENC_S_TALLY n] := by
  obtain ⟨htally, hlimit⟩ := serialTimeout_ne_tally n
  have hserials : (s.setSinp n y).enc.serials.length = 4 := (s.setSinp_serials_length n y).trans hlen
  have hbad : (s.setSinp n y).serialBad n (ENC_S_TIMEOUT_COUNT_COUNT n) =
      (((s.setSinp n y).setSinp n { y with good := 0 }).addSat (ENC_S_TIMEOUT_COUNT_COUNT n) 1).inputTally (.serial n) := by
    rw [State.serialBad, State.sinp_setSinp_same y hlen, Fin.ofNat_eq_cast, Fin.cast_val_eq_self]
  generalize hu : (s.setSinp n y).setSinp n { y with good := 0 } = u at hbad
  have hget (f : Fld) : u.get f = s.get f := by rw [← hu]; rfl
  have hregs : RegsOnly (s.setEnc u.enc) u := by rw [← hu]; exact RegsOnly.refl _
  have hkeeps : Keeps s u [ENC_S_TIMEOUT_COUNT n, ENC_S_TALLY n] := by rw [← hu]; exact ((Keeps.refl s _).setSinp n _).setSinp n _
  have hrec : u.sinp n = { y with good := 0 } := by rw [← hu]; exact State.sinp_setSinp_same _ hserials
  have hapart (f : Fld) (hf : ENC_S_TIMEOUT_COUNT n ≠ f.off) : (u.addSat (ENC_S_TIMEOUT_COUNT_COUNT n) 1).get f = s.get f :=
    (State.get_addSat_apart _ _ _ _ rfl (.inl hf)).trans (hget f)
  rw [← hapart (ENC_S_TALLY_COUNT n) htally, ← hapart (ENC_S_TALLY_CFG_LIMIT n) hlimit] at h
  rw [hbad, State.serialTally_below h]
  refine ⟨?_, ?_, ((hregs.addSat _ _).addSat _ _).withEnc, ?_⟩
  · rw [← hrec]
    exact State.sinp_of_enc ((State.addSat_enc _ _ _).trans (State.addSat_enc _ _ _)) n
  · rw [State.get_addSat_apart _ _ _ _ rfl (.inl htally.symm), State.get_addSat_same _ _ _ rfl, hget]
    rfl
  · exact (hkeeps.addSat _ _ List.mem_cons_self).addSat _ _ (List.mem_cons_of_mem _ List.mem_cons_self)

end Clauses

theorem shortCount_ne_limit (m : Fin 2) : ENC_M_SHORT_COUNT m ≠ ENC_M_TALLY_CFG m := by revert m; decide

/-- Settles O48: an edge is the first (`State.masterInput_first`), too short, or inactive; a quadrature change is a count
(`State.quadMoved_shows`) or illegal (`State.illegalShown_shows`); a serial word is the first, a later one, or discarded; and standstill writes
the input's status. -/
theorem positionFeedback : Obligations.PositionFeedback := by
  unfold Obligations.PositionFeedback
  refine ⟨?first, ?web, ?short, ?inactive, ?quad, ?illegal, ?read, ?word, ?later, ?timeout, ?quadStill, ?masterStill⟩
  case first =>
    intro s m b r hon hedge hlen hlast hstill hlock hsel hcheck
    generalize hx : (s.minp m).firstEdge (s.edgeBack m b) (s.teeth m) s.now = x
    have heff := State.masterEdge_first hx hon hedge hlast hstill hlock hsel hcheck
    have hrec := State.minp_masterMoved (m := m) (x := x) hlen
    have hstand := s.masterMoved_standstill m x
    have hregs := RegsOnly.masterMoved s m x
    have hkeeps := Keeps.masterMoved s m x
    generalize s.masterMoved m x = t at *
    rw [← State.minp_trackIrq] at hrec
    refine ⟨_, congrArg finish heff, ?_, ?_, ?_, hstand, Alters.of_enc hregs hkeeps⟩
    · rw [hrec, ← hx, MasterIn.firstEdge_pos]
    · rw [hrec, ← hx]; rfl
    · rw [hrec, ← hx]; rfl
  case web =>
    intro s m b r hon hedge hlen hlast hstill hlock hsel hjob
    obtain ⟨hpos, hhead, hsince, hregs, hkeeps⟩ := State.webEdge_masterMoved (m := m)
      (x := (s.minp m).firstEdge (s.edgeBack m b) (s.teeth m) s.now) (d := if s.edgeBack m b = true then -1 else 1) hjob
    have heff := State.masterEdge_firstWeb (b := b) rfl hon hedge hlen hlast hstill hlock hsel
    generalize State.webEdge _ _ _ = t at *
    exact ⟨_, congrArg finish heff, hpos, hhead, hsince,
      Alters.of_regsOnly rfl hregs hkeeps⟩
  case short =>
    intro s m b r t0 hon hedge hlast hshort hlimit
    have hne := shortCount_ne_tally m
    have hcfg := shortCount_ne_limit m
    have hkept (f : Fld) (hf : ENC_M_SHORT_COUNT m ≠ f.off) : (s.addSat (ENC_M_SHORT_COUNT_COUNT m) 1).get f = s.get f :=
      State.get_addSat_apart _ _ _ _ rfl (.inl hf)
    rw [← hkept (ENC_M_TALLY_COUNT m) hne, ← hkept (ENC_M_TALLY_CFG_LIMIT m) hcfg] at hlimit
    obtain ⟨heff, hcount⟩ := State.masterTally_below hlimit
    refine ⟨_, congrArg finish ((State.masterEdge_short hon hedge hlast hshort).trans heff), ?_, hcount.trans ?_, ?_⟩
    · rw [State.get_trackIrq, State.get_addSat_apart _ _ _ _ rfl (.inl hne.symm)]
      exact State.get_addSat_same _ _ _ rfl
    · rw [hkept (ENC_M_TALLY_COUNT m) hne]
    · exact Silent.of_regsOnly (((RegsOnly.refl s).addSat _ _).addSat _ _)
        (((Keeps.refl s _).addSat _ _ List.mem_cons_self).addSat _ _ (List.mem_cons_of_mem _ List.mem_cons_self))
  case inactive => exact fun s m b r h => ⟨_, congrArg finish (State.masterEdge_inactive h), Silent.refl s⟩
  case quad =>
    intro s q a b hon hlen ha hb
    have heff := State.quadChange_first hon ha hb
    dsimp only at heff
    generalize hback : (!xor (xor a b) (s.on (ENC_Q_CFG_DIR_INV q))) = back at heff
    generalize hx : (s.qinp q).moved a b (s.on (ENC_Q_STATUS_STANDSTILL q)) back s.now = x at heff
    have hrec := State.qinp_quadMoved (q := q) (x := x) (back := back) hlen
    obtain ⟨hcount, hstill⟩ := s.quadMoved_shows q x back
    have hregs := RegsOnly.quadMoved s q x back
    have hkeeps := Keeps.quadMoved s q x back
    generalize s.quadMoved q x back = t at *
    rw [← State.qinp_trackIrq] at hrec
    refine ⟨_, congrArg finish heff, ?_, ?_, ?_, ?_, hstill, Alters.of_enc hregs hkeeps⟩
    · rw [hrec, ← hx]; rfl
    · rw [hrec, ← hx]; rfl
    · rw [hrec, ← hx]; rfl
    · rw [State.getS_trackIrq, hcount, ← hback]
      cases xor (xor a b) (s.on (ENC_Q_CFG_DIR_INV q)) <;> rfl
  case illegal =>
    intro s q a b hon hlen ha hb hfirst hlimit
    have heff := State.quadChange_illegal hon ha hb hfirst
    obtain ⟨hshown, hcount, htally, hcfg, hposts, hhidden, hkeeps⟩ :=
      s.illegalShown_shows q { s.qinp q with a := a, b := b } [s.get (ENC_Q_COUNT_COUNT q), s.now]
    obtain ⟨-, hst, -, hct, -⟩ := quadRegs_apart q
    rw [← htally, ← hcfg] at hlimit
    obtain ⟨hadd, htold⟩ := State.quadTally_below hlimit
    refine ⟨_, congrArg finish (heff.trans hadd), ?_, ?_, htold.trans (by rw [htally]), (hposts.addSat _ _).trackIrq, ?_⟩
    · rw [State.on_trackIrq, State.on_eq_of_get _ _ _ (State.get_addSat_apart _ _ _ _ rfl (.inl hst.symm)), hshown]
    · rw [State.get_trackIrq, State.get_addSat_apart _ _ _ _ rfl (.inl hct.symm), hcount]
    · refine AltersPosting.of_enc (e := (s.setQinp q { s.qinp q with a := a, b := b }).enc) ?_ (hkeeps.addSat _ _ (by simp [ENC_Q_TALLY_COUNT]))
      rw [State.addSat_hidden, hhidden]
      rfl
  case read =>
    intro s n hreads hlen
    exact ⟨_, congrArg finish (if_pos hreads), State.sinp_setSinp_same _ hlen, Alters.of_enc (RegsOnly.refl _) (Keeps.refl s [])⟩
  case word =>
    intro s n w t0 hreads hlen hreading hcrc herr hpos
    obtain ⟨hrec, hcount, hregs, hkeeps⟩ := State.serialValid_first_shows (w := w.toNat % 2 ^ s.get (ENC_S_CFG_LEN n)) (t0 := t0)
      ((s.sinp n).ended (w.toNat % 2 ^ s.get (ENC_S_CFG_LEN n))) hlen hpos
    have heff := State.serialWord_valid (w := w.toNat) hreads hreading hcrc herr
    generalize State.serialValid _ _ _ _ = t at *
    rw [← State.sinp_trackIrq] at hrec
    refine ⟨_, congrArg finish heff, ?_, ?_, ?_, hcount, Alters.of_regsOnly rfl hregs hkeeps⟩
    · rw [hrec]; rfl
    · rw [hrec]; rfl
    · rw [hrec]; rfl
  case later =>
    intro s n w t0 p0 hreads hlen hreading hcrc herr hpos
    obtain ⟨hshown, hcount, hregs, hkeeps⟩ := State.serialValid_later (w := w.toNat % 2 ^ s.get (ENC_S_CFG_LEN n)) (t0 := t0)
      (State.sinp_setSinp_same ((s.sinp n).ended (w.toNat % 2 ^ s.get (ENC_S_CFG_LEN n))) hlen)
      ((s.setSinp_serials_length n _).trans hlen) hpos
    have heff := State.serialWord_valid (w := w.toNat) hreads hreading hcrc herr
    generalize State.serialValid _ _ _ _ = t at *
    exact ⟨_, congrArg finish heff, hshown, hcount, Alters.of_regsOnly rfl hregs hkeeps⟩
  case timeout =>
    intro s n w t0 hreads hlen hreading hlimit
    obtain ⟨hrec, hcount, hregs, hkeeps⟩ := State.serialBad_below ((s.sinp n).ended (s.sinp n).raw) hlen hlimit
    have heff := State.serialWord_timeout (w := w.toNat) hreads hreading
    generalize State.serialBad _ _ _ = t at *
    exact ⟨_, congrArg finish heff, hrec, hcount, Alters.of_regsOnly rfl hregs hkeeps⟩
  case quadStill =>
    intro s q hon hlen
    obtain ⟨hstill, hregs, hkeeps⟩ := State.inputStill_quad_shows hon
    have hexec : exec (.standstillTimeout (.quad q)) s = finish (s.inputStill (.quad q)) := rfl
    generalize s.inputStill (.quad q) = t at *
    exact ⟨_, hexec, hstill, State.quadV_still hstill, Alters.of_enc hregs hkeeps⟩
  case masterStill =>
    intro s m hon hlen
    obtain ⟨hstill, hrec, hregs, hkeeps⟩ := State.inputStill_master_shows hon hlen
    have hexec : exec (.standstillTimeout (.master m)) s = finish (s.inputStill (.master m)) := rfl
    generalize s.inputStill (.master m) = t at *
    rw [← State.minp_trackIrq] at hrec
    refine ⟨_, hexec, hstill, State.masterV_still hstill, ?_, ?_, Alters.of_enc hregs hkeeps⟩
    · rw [hrec]; rfl
    · rw [hrec]; rfl

end Sys2Proof.Machine

namespace Sys2Proof.Machine

/-! ### The loop engine (R423 to R437): what its commands change -/

section LoopFrames
variable {s x : State}

/-- Only registers and the loop engine's record differ. -/
abbrev LpeOnly (s x : State) : Prop := RegsOnly { s with lpe := x.lpe } x

theorem LpeOnly.setLoop (h : LpeOnly s x) (l : Nat) (y : Loop) : LpeOnly s (x.setLoop l y) := by
  unfold LpeOnly RegsOnly at *
  rw [h]
  rfl

theorem LpeOnly.put (h : LpeOnly s x) (f : Fld) (v : Nat) : LpeOnly s (x.put f v) := RegsOnly.put h f v

theorem LpeOnly.putB (h : LpeOnly s x) (f : Fld) (v : Bool) : LpeOnly s (x.putB f v) := RegsOnly.putB h f v
theorem LpeOnly.addSat (h : LpeOnly s x) (f : Fld) (v : Nat) : LpeOnly s (x.addSat f v) := RegsOnly.addSat h f v
theorem LpeOnly.refl (s : State) : LpeOnly s s := RegsOnly.refl s

theorem Keeps.setLoop {r : List Nat} (h : Keeps s x r) (l : Nat) (y : Loop) : Keeps s (x.setLoop l y) r := h
theorem Keeps.setF32 {r : List Nat} (h : Keeps s x r) (f : Fld) (v : F32) (hf : f.off ∈ r) : Keeps s (x.setF32 f v) r := h.put f _ hf
theorem RegsOnly.setF32 (h : RegsOnly s x) (f : Fld) (v : F32) : RegsOnly s (x.setF32 f v) := h.put f _

theorem State.get_setLoop (s : State) (l : Nat) (y : Loop) (f : Fld) : (s.setLoop l y).get f = s.get f := rfl
theorem State.on_setLoop (s : State) (l : Nat) (y : Loop) (f : Fld) : (s.setLoop l y).on f = s.on f := rfl

theorem State.loopS_of_lpe (h : x.lpe = s.lpe) (l : Nat) : x.loopS l = s.loopS l := by rw [State.loopS, h, ← State.loopS]

theorem State.loopS_setLoop_same {l : Fin 32} (y : Loop) (h : s.lpe.slots.length = 32) : (s.setLoop l y).loopS l = y := by
  have hl : l.val < s.lpe.slots.length := h.symm ▸ l.isLt
  simp [State.loopS, State.setLoop, List.getD_eq_getElem?_getD, hl]

theorem State.f32_of_get {f : Fld} (h : x.get f = s.get f) : x.f32 f = s.f32 f := by rw [State.f32, h, ← State.f32]

/-- A register of the engine holds the number written. -/
theorem State.f32_setF32_same (s : State) {f : Fld} (v : F32) (hok : f.ok = true) (hw : f.hi - f.lo = 31) : (s.setF32 f v).f32 f = v := by
  rw [State.f32, State.setF32, State.get_put_same _ _ _ hok, hw, Nat.mod_eq_of_lt v.isLt, BitVec.ofNat_toNat, BitVec.setWidth_eq]

theorem State.f32_setF32_ne (s : State) {f g : Fld} (v : F32) (hok : f.ok = true) (h : f.off ≠ g.off) : (s.setF32 f v).f32 g = s.f32 g :=
  State.f32_of_get (State.get_put_apart _ _ _ _ hok (.inl h))

end LoopFrames

/-! ### A base tick at which one slot runs (R424) -/

/-- A fold of steps of which only one does anything. -/
theorem foldl_only {α β : Type} {f : α → β → α} {P : α → Prop} {b : β} (hid : ∀ a c, P a → c ≠ b → f a c = a) :
    ∀ (l : List β) (a : α), l.Nodup → b ∈ l → P a → P (f a b) → l.foldl f a = f a b
  | [], _, _, hb, _, _ => absurd hb List.not_mem_nil
  | c :: l, a, hnodup, hb, ha, hfa => by
    obtain ⟨hc, hl⟩ := List.nodup_cons.mp hnodup
    have hrest (l : List β) : ∀ x, b ∉ l → P x → l.foldl f x = x := by
      induction l with
      | nil => intros; rfl
      | cons d l ih =>
        intro x hbl hx
        have hd : d ≠ b := fun e => hbl (e ▸ List.mem_cons_self)
        rw [List.foldl_cons, hid x d hx hd, ih x (fun e => hbl (List.mem_cons_of_mem _ e)) hx]
    rcases List.mem_cons.mp hb with rfl | hb
    · exact hrest l _ hc hfa
    · rw [List.foldl_cons, hid a c ha (fun h => hc (h ▸ hb)), foldl_only hid l a hl hb ha hfa]

section BaseTick
variable {s : State} {l : Fin 32}

/-- The state in which the slots of a base tick run. -/
def State.ticked (s : State) : State := { s with lpe := { s.lpe with tick := s.lpe.tick + 1, temp := (List.range 8).map s.plnTemp } }

/-- A base tick is the run of the one slot that is ON and due. -/
theorem State.baseTick_one (hoff : ∀ k : Fin 32, k ≠ l → s.ust (.slot k) = .off) (hon : s.ust (.slot l) = .on)
    (hdue : s.loopDue l s.lpe.tick = true) (hafter : ∀ k : Fin 32, k ≠ l → (s.ticked.loopRun l).ust (.slot k) = .off) :
    s.baseTick = s.ticked.loopRun l := by
  have hrun : s.ticked.loopTick s.lpe.tick l = s.ticked.loopRun l := by
    have hon' : s.ticked.ust (.slot l) = .on := hon
    have hdue' : s.ticked.loopDue l s.lpe.tick = true := hdue
    rw [State.loopTick, hon']
    exact if_pos hdue'
  rw [← hrun]
  refine foldl_only (f := State.loopTick s.lpe.tick) (P := fun x : State => ∀ k : Fin 32, k ≠ l → x.ust (.slot k) = .off) ?_ _ _
    (List.nodup_finRange 32) (List.mem_finRange l) hoff
    (fun k hk => (congrArg (fun y : State => y.ust (.slot k)) hrun).trans (hafter k hk))
  intro x k hx hk
  rw [State.loopTick, hx k hk]

theorem slotStatus_ne {k l : Fin 32} (h : k ≠ l) : ∀ a ∈ [LPE_STATUS l, LPE_INTEG l, LPE_Y l, LPE_ERR l, LPE_OUT l, LPE_INVALID_COUNT l, LPE_IRQ_CAUSE],
    LPE_STATUS k ≠ a := by
  have hval : k.val ≠ l.val := fun e => h (Fin.ext e)
  have hk := k.isLt
  have hl := l.isLt
  simp only [LPE_STATUS, LPE_INTEG, LPE_Y, LPE_ERR, LPE_OUT, LPE_INVALID_COUNT, LPE_IRQ_CAUSE, List.mem_cons, List.not_mem_nil, or_false]
  rintro a (rfl | rfl | rfl | rfl | rfl | rfl | rfl) <;> omega

theorem slotStatus_notMem_evtRegs (k : Fin 32) : LPE_STATUS k ∉ evtRegs := by revert k; decide

/-- The registers of one slot are apart. -/
theorem slotRegs_apart (l : Fin 32) : LPE_STATUS l ≠ LPE_INTEG l ∧ LPE_STATUS l ≠ LPE_Y l ∧ LPE_STATUS l ≠ LPE_ERR l ∧ LPE_STATUS l ≠ LPE_OUT l ∧
    LPE_INTEG l ≠ LPE_Y l ∧ LPE_INTEG l ≠ LPE_ERR l ∧ LPE_INTEG l ≠ LPE_OUT l ∧ LPE_Y l ≠ LPE_ERR l ∧ LPE_Y l ≠ LPE_OUT l ∧ LPE_ERR l ≠ LPE_OUT l := by
  revert l
  decide

/-- The registers that a sample reads. -/
def sampleRegs (l : Nat) : List Nat :=
  [LPE_CFG l, LPE_SRC l, LPE_IN_GAIN l, LPE_IN_OFS l, LPE_B0 l, LPE_B1 l, LPE_B2 l, LPE_A1 l, LPE_A2 l, LPE_SP l, LPE_KP l, LPE_KI l, LPE_KD l, LPE_KFF l,
    LPE_BIAS l, LPE_OUT_MIN l, LPE_OUT_MAX l, LPE_M_CFG l, LPE_INTEG l]

theorem slotStatus_notMem_sampleRegs (l : Fin 32) : LPE_STATUS l ∉ sampleRegs l := by revert l; decide
theorem mcfg_notMem_sampleWritten (l : Fin 32) : LPE_M_CFG l ∉ [LPE_STATUS l, LPE_INTEG l, LPE_Y l, LPE_ERR l, LPE_OUT l] ∧
    LPE_SRC l ∉ [LPE_STATUS l, LPE_INTEG l, LPE_Y l, LPE_ERR l, LPE_OUT l] := by
  revert l
  decide

end BaseTick

/-! ### One sample (R426) -/

section Sample
variable {s x : State} {l : Fin 32} {raw : F32}

/-- Two states with the same registers of a slot and the same record agree on every term of a sample. -/
theorem State.sample_congr (hregs : ∀ a ∈ sampleRegs l, x.rget a = s.rget a) (hrec : x.loopS l = s.loopS l) :
    x.loopYf l raw = s.loopYf l raw ∧ x.loopZ1 l raw = s.loopZ1 l raw ∧ x.loopZ2 l raw = s.loopZ2 l raw ∧ x.loopE l raw = s.loopE l raw ∧
      x.loopI l raw = s.loopI l raw ∧ x.loopU l raw = s.loopU l raw ∧ x.loopFinite l raw = s.loopFinite l raw := by
  have hf (f : Fld) (h : f.off ∈ sampleRegs l) : x.f32 f = s.f32 f := State.f32_of_get (State.get_eq_of_rget _ _ _ (hregs _ h))
  have hy : x.loopY l raw = s.loopY l raw := by
    rw [State.loopY, hf (LPE_IN_GAIN_GAIN l) (by simp [sampleRegs, LPE_IN_GAIN_GAIN]), hf (LPE_IN_OFS_OFS l) (by simp [sampleRegs, LPE_IN_OFS_OFS]), ← State.loopY]
  have hyf : x.loopYf l raw = s.loopYf l raw := by
    rw [State.loopYf, hf (LPE_B0_COEF l) (by simp [sampleRegs, LPE_B0_COEF]), hy, hrec, ← State.loopYf]
  have hz1 : x.loopZ1 l raw = s.loopZ1 l raw := by
    rw [State.loopZ1, hf (LPE_B1_COEF l) (by simp [sampleRegs, LPE_B1_COEF]), hf (LPE_A1_COEF l) (by simp [sampleRegs, LPE_A1_COEF]), hy, hyf, hrec, ← State.loopZ1]
  have hz2 : x.loopZ2 l raw = s.loopZ2 l raw := by
    rw [State.loopZ2, hf (LPE_B2_COEF l) (by simp [sampleRegs, LPE_B2_COEF]), hf (LPE_A2_COEF l) (by simp [sampleRegs, LPE_A2_COEF]), hy, hyf, ← State.loopZ2]
  have hsp := hf (LPE_SP_SP l) (by simp [sampleRegs, LPE_SP_SP])
  have he : x.loopE l raw = s.loopE l raw := by rw [State.loopE, hsp, hyf, ← State.loopE]
  have hp : x.loopP l raw = s.loopP l raw := by rw [State.loopP, hf (LPE_KP_GAIN l) (by simp [sampleRegs, LPE_KP_GAIN]), he, ← State.loopP]
  have hd : x.loopD l raw = s.loopD l raw := by
    rw [State.loopD, hf (LPE_KD_GAIN l) (by simp [sampleRegs, LPE_KD_GAIN]), hyf, hrec, ← State.loopD]
  have hff : x.loopFf l = s.loopFf l := by
    rw [State.loopFf, hf (LPE_KFF_GAIN l) (by simp [sampleRegs, LPE_KFF_GAIN]), hf (LPE_BIAS_GAIN l) (by simp [sampleRegs, LPE_BIAS_GAIN]), hsp, ← State.loopFf]
  have hdi : x.loopDi l raw = s.loopDi l raw := by rw [State.loopDi, hf (LPE_KI_GAIN l) (by simp [sampleRegs, LPE_KI_GAIN]), he, ← State.loopDi]
  have hinteg := hf (LPE_INTEG_I l) (by simp [sampleRegs, LPE_INTEG_I])
  have hmax := hf (LPE_OUT_MAX_VALUE l) (by simp [sampleRegs, LPE_OUT_MAX_VALUE])
  have hmin := hf (LPE_OUT_MIN_VALUE l) (by simp [sampleRegs, LPE_OUT_MIN_VALUE])
  have hsum (i : F32) : x.loopSum l raw i = s.loopSum l raw i := by rw [State.loopSum, hp, hd, hff, ← State.loopSum]
  have hi1 : x.loopI1 l raw = s.loopI1 l raw := by rw [State.loopI1, hinteg, hdi, ← State.loopI1]
  have hi : x.loopI l raw = s.loopI l raw := by rw [State.loopI, hmax, hmin, hsum, hi1, hdi, hinteg, ← State.loopI]
  have hu : x.loopU l raw = s.loopU l raw := by rw [State.loopU, hmax, hmin, hsum, hi, ← State.loopU]
  exact ⟨hyf, hz1, hz2, he, hi, hu, by rw [State.loopFinite, hy, hyf, hz1, hz2, he, hp, hd, hff, hdi, hi1, hsum, hi, hsum, hu, ← State.loopFinite]⟩

/-- The record of a slot after a sample, and after the supervisor's part of it. -/
def State.loopFiltered (s : State) (l : Nat) (raw : F32) : Loop :=
  { s.loopS l with z1 := s.loopZ1 l raw, z2 := s.loopZ2 l raw, yfPrev := some (s.loopYf l raw), y := s.loopY l raw }
def State.loopSampled (s : State) (l : Nat) (raw : F32) : Loop :=
  { s.loopFiltered l raw with supStart := false, hist := (s.loopU l raw :: (s.loopS l).hist).take 64 }

/-- Is the controller's sum outside the limits? -/
def State.loopSat (s : State) (l : Nat) (raw : F32) : Bool :=
  f32Lt (s.loopSum l raw (s.loopI l raw)) (s.f32 (LPE_OUT_MIN_VALUE l)) || f32Lt (s.f32 (LPE_OUT_MAX_VALUE l)) (s.loopSum l raw (s.loopI l raw))

/-- The registers and the record that a sample writes before the supervisor's part. -/
def State.controlled (s : State) (l : Nat) (raw : F32) : State :=
  (((((s.setLoop l (s.loopFiltered l raw)).setF32 (LPE_INTEG_I l) (s.loopI l raw)).setF32 (LPE_Y_VALUE l) (s.loopYf l raw)).setF32 (LPE_ERR_VALUE l)
    (s.loopE l raw)).setF32 (LPE_OUT_VALUE l) (s.loopU l raw)).putB (LPE_STATUS_SAT l) (s.loopSat l raw)

theorem State.loopI_eq (s : State) (l : Nat) (raw : F32) :
    s.loopI l raw = if (f32Lt (s.f32 (LPE_OUT_MAX_VALUE l)) (s.loopSum l raw (s.loopI1 l raw)) && f32Lt 0 (s.loopDi l raw) ||
      f32Lt (s.loopSum l raw (s.loopI1 l raw)) (s.f32 (LPE_OUT_MIN_VALUE l)) && f32Lt (s.loopDi l raw) 0) = true
    then s.f32 (LPE_INTEG_I l) else s.loopI1 l raw := by
  simp only [State.loopI, Bool.or_eq_true, Bool.and_eq_true]

/-- A sample whose values are finite, of a slot without HOLD, is the controller's writes and the supervisor's. -/
theorem State.loopSample_controlled (hhold : s.on (LPE_CFG_HOLD l) = false) (hfinite : s.loopFinite l raw = true) :
    s.loopSample l raw =
      let t := (s.controlled l raw).supervise l (s.loopY l raw) (s.loopU l raw)
      if t.ust (.slot l) = .on then t.loopOut l (s.loopU l raw) else t := by
  have hall : (!s.loopFinite l raw) = false := by rw [hfinite]; rfl
  rw [State.loopFinite, State.loopU, State.loopI_eq] at hall
  rw [State.controlled, State.loopFiltered, State.loopSat, State.loopU, State.loopI_eq]
  refine (if_neg (by rw [hhold]; decide)).trans ?_
  refine (if_neg ?_).trans rfl
  exact fun h => by
    have hno := hall.symm.trans h
    cases hno

/-- Without a model the supervisor only keeps the history of outputs and its count at 0 (R433). -/
theorem State.supervise_off {y u : F32} (hn : s.get (LPE_M_CFG_M_N l) = 0) (hsup : (s.loopS l).supStart = false) :
    s.supervise l y u = (s.setLoop l { s.loopS l with supStart := false, hist := (u :: (s.loopS l).hist).take 64 }).put (LPE_STATUS_SUP_COUNT l) 0 := by
  simp [State.supervise, hn, hsup]

/-- A slot without a destination drives nothing (R427). -/
theorem State.loopOut_none {u : F32} (hdst : s.get (LPE_SRC_OUT_DST l) = 0) : s.loopOut l u = s := by
  rw [State.loopOut, hdst]
  rfl

/-- The registers of a slot that a sample writes. -/
def sampleWritten (l : Nat) : List Nat := [LPE_STATUS l, LPE_INTEG l, LPE_Y l, LPE_ERR l, LPE_OUT l]

/-- What the controller's part of a sample shows. -/
theorem State.controlled_shows (s : State) (l : Fin 32) (raw : F32) (hlen : s.lpe.slots.length = 32) :
    let t := s.controlled l raw
    t.f32 (LPE_Y_VALUE l) = s.loopYf l raw ∧ t.f32 (LPE_ERR_VALUE l) = s.loopE l raw ∧ t.f32 (LPE_INTEG_I l) = s.loopI l raw ∧
      t.f32 (LPE_OUT_VALUE l) = s.loopU l raw ∧ t.loopS l = s.loopFiltered l raw ∧ t.ust (.slot l) = s.ust (.slot l) ∧
      t.lpe = (s.setLoop l (s.loopFiltered l raw)).lpe ∧ LpeOnly s t ∧ Keeps s t (sampleWritten l) := by
  obtain ⟨si, sy, se, so, iy, ie, io, ye, yo, eo⟩ := slotRegs_apart l
  have hsat {f : Fld} (x : State) (h : LPE_STATUS l ≠ f.off) : (x.putB (LPE_STATUS_SAT l) (s.loopSat l raw)).f32 f = x.f32 f :=
    State.f32_of_get (State.get_putB_apart _ _ _ _ rfl (.inl h))
  have hlpe : (s.controlled l raw).lpe = (s.setLoop l (s.loopFiltered l raw)).lpe := rfl
  refine ⟨?_, ?_, ?_, ?_, ?_, ?_, hlpe, ?_, ?_⟩
  · rw [State.controlled, hsat _ sy, State.f32_setF32_ne _ _ rfl (Ne.symm yo), State.f32_setF32_ne _ _ rfl (Ne.symm ye),
      State.f32_setF32_same _ _ rfl rfl]
  · rw [State.controlled, hsat _ se, State.f32_setF32_ne _ _ rfl (Ne.symm eo), State.f32_setF32_same _ _ rfl rfl]
  · rw [State.controlled, hsat _ si, State.f32_setF32_ne _ _ rfl (Ne.symm io), State.f32_setF32_ne _ _ rfl (Ne.symm ie),
      State.f32_setF32_ne _ _ rfl (Ne.symm iy), State.f32_setF32_same _ _ rfl rfl]
  · rw [State.controlled, hsat _ so, State.f32_setF32_same _ _ rfl rfl]
  · exact (State.loopS_of_lpe hlpe l).trans (State.loopS_setLoop_same _ hlen)
  · have hstate {f : Fld} (x : State) (v : F32) (hok : f.ok = true) (h : f.off ≠ LPE_STATUS l) :
        (x.setF32 f v).get (LPE_STATUS_STATE l) = x.get (LPE_STATUS_STATE l) := State.get_put_apart _ _ _ _ hok (.inl h)
    rw [State.ust_eq _ _ (by simp), State.ust_eq _ _ (by simp)]
    refine congrArg UState.ofCode ?_
    show State.get (State.controlled s l raw) (LPE_STATUS_STATE l) = s.get (LPE_STATUS_STATE l)
    rw [State.controlled, State.get_putB_bits _ _ _ _ rfl rfl, hstate _ _ rfl (Ne.symm so), hstate _ _ rfl (Ne.symm se), hstate _ _ rfl (Ne.symm sy),
      hstate _ _ rfl (Ne.symm si)]
    rfl
  · exact ((((LpeOnly.setLoop (RegsOnly.refl s) l (s.loopFiltered l raw)).setF32 _ _).setF32 _ _).setF32 _ _ |>.setF32 _ _).putB _ _
  · exact ((((((Keeps.refl s _).setLoop l _).setF32 _ _ (by simp [sampleWritten, LPE_INTEG_I])).setF32 _ _ (by simp [sampleWritten, LPE_Y_VALUE])).setF32 _ _
      (by simp [sampleWritten, LPE_ERR_VALUE])).setF32 _ _ (by simp [sampleWritten, LPE_OUT_VALUE])).putB _ _ List.mem_cons_self

/-- The supervisor's part of a sample without a model. -/
def State.supervised (s : State) (l : Nat) (y : Loop) : State := (s.setLoop l y).put (LPE_STATUS_SUP_COUNT l) 0

theorem State.supervised_shows (s : State) (l : Fin 32) (y : Loop) (hlen : s.lpe.slots.length = 32) :
    let t := s.supervised l y
    (∀ f : Fld, LPE_STATUS l ≠ f.off → t.f32 f = s.f32 f) ∧ t.loopS l = y ∧ t.ust (.slot l) = s.ust (.slot l) ∧ t.lpe.tick = s.lpe.tick := by
  refine ⟨fun f h => State.f32_of_get (State.get_put_apart _ _ f _ rfl (.inl h)), ?_, ?_, ?_⟩
  · exact (State.loopS_of_lpe (State.put_lpe _ _ _) l).trans (State.loopS_setLoop_same _ hlen)
  · rw [State.ust_eq _ _ (by simp), State.ust_eq _ _ (by simp)]
    exact congrArg UState.ofCode (State.get_put_bits (s.setLoop l y) (LPE_STATUS_SUP_COUNT l) (LPE_STATUS_STATE l) 0 rfl rfl)
  · rw [State.supervised, State.put_lpe]
    rfl

theorem LpeOnly.supervised (h : LpeOnly s x) (l : Nat) (y : Loop) : LpeOnly s (x.supervised l y) := LpeOnly.put (h.setLoop l y) _ _
theorem Keeps.supervised {r : List Nat} (h : Keeps s x r) (l : Nat) (y : Loop) (hl : LPE_STATUS l ∈ r) : Keeps s (x.supervised l y) r :=
  (h.setLoop l y).put _ _ hl

/-- A sample of a slot without a model and a destination is the controller's writes and the history's. -/
theorem State.loopSample_eq (hlen : s.lpe.slots.length = 32) (hhold : s.on (LPE_CFG_HOLD l) = false) (hfinite : s.loopFinite l raw = true)
    (hn : s.get (LPE_M_CFG_M_N l) = 0) (hdst : s.get (LPE_SRC_OUT_DST l) = 0) (hsup : (s.loopS l).supStart = false) :
    s.loopSample l raw = (s.controlled l raw).supervised l (s.loopSampled l raw) := by
  obtain ⟨nm, nsrc⟩ := mcfg_notMem_sampleWritten l
  obtain ⟨-, -, -, -, hrec, -, -, -, hkeeps⟩ := s.controlled_shows l raw hlen
  rw [State.loopSample_controlled hhold hfinite]
  generalize s.controlled l raw = x at *
  have hx : x.supervise l (s.loopY l raw) (s.loopU l raw) = x.supervised l (s.loopSampled l raw) := by
    rw [State.supervise_off ((hkeeps.get (LPE_M_CFG_M_N l) nm).trans hn) (by rw [hrec]; exact hsup), hrec]
    rfl
  have hdst' := ((hkeeps.supervised l (s.loopSampled l raw) List.mem_cons_self).get (LPE_SRC_OUT_DST l) nsrc).trans hdst
  simp only [hx, State.loopOut_none hdst', ite_self]

/-- What a sample of a slot without a model and a destination shows. -/
theorem State.loopSample_shows (hlen : s.lpe.slots.length = 32) (hhold : s.on (LPE_CFG_HOLD l) = false) (hfinite : s.loopFinite l raw = true)
    (hn : s.get (LPE_M_CFG_M_N l) = 0) (hdst : s.get (LPE_SRC_OUT_DST l) = 0) (hsup : (s.loopS l).supStart = false) :
    let t := s.loopSample l raw
    t.f32 (LPE_Y_VALUE l) = s.loopYf l raw ∧ t.f32 (LPE_ERR_VALUE l) = s.loopE l raw ∧ t.f32 (LPE_INTEG_I l) = s.loopI l raw ∧
      t.f32 (LPE_OUT_VALUE l) = s.loopU l raw ∧ t.loopS l = s.loopSampled l raw ∧ t.lpe.tick = s.lpe.tick ∧ LpeOnly s t ∧
      Keeps s t (sampleWritten l) := by
  obtain ⟨si, sy, se, so, -⟩ := slotRegs_apart l
  obtain ⟨hyf, he, hi, hu, -, -, hlpe, honly, hkeeps⟩ := s.controlled_shows l raw hlen
  rw [State.loopSample_eq hlen hhold hfinite hn hdst hsup]
  generalize s.controlled l raw = x at *
  have hxlen : x.lpe.slots.length = 32 := by rw [hlpe]; exact List.length_set.trans hlen
  obtain ⟨hf, hrec, -, htick⟩ := x.supervised_shows l (s.loopSampled l raw) hxlen
  exact ⟨(hf _ sy).trans hyf, (hf _ se).trans he, (hf _ si).trans hi, (hf _ so).trans hu, hrec, htick.trans (by rw [hlpe]; rfl),
    honly.supervised l _, hkeeps.supervised l _ List.mem_cons_self⟩

end Sample

end Sys2Proof.Machine

namespace Sys2Proof.Machine

/-! ### Runs of a slot (R427, R428) -/

section Runs
variable {s : State} {l : Fin 32} {raw : F32}

/-- The state in which a slot with a valid input samples. -/
def State.inputValid (s : State) (l : Nat) : State := (s.setLoop l (s.loopS l)).putB (LPE_STATUS_IN_INVALID l) false

theorem State.loopRun_valid (hin : s.loopIn l = some raw) (hvalid : (s.loopS l).invalid = false) :
    s.loopRun l = (s.inputValid l).loopSample l raw := by
  have hrec : { s.loopS l with invalid := false } = s.loopS l := by rw [← hvalid]
  simp only [State.loopRun, hin, hvalid, Bool.false_and, Bool.false_eq_true, if_false]
  rw [State.inputValid, ← hrec]

/-- A software input is its register (R427). -/
theorem State.loopIn_software {i : Nat} (hsrc : s.get (LPE_SRC_IN_SRC l) = 8) (hidx : s.get (LPE_SRC_IN_IDX l) = i) :
    s.loopIn l = some (s.f32 (LPE_SW_IN_VALUE i)) := by
  subst hidx
  rw [State.loopIn, hsrc]
  rfl

/-- A register sensor without a valid measurement has no value (R427). -/
theorem State.loopIn_noMeasurement (hsrc : s.get (LPE_SRC_IN_SRC l) = 5) (hreg : s.regValid (s.get (LPE_SRC_IN_IDX l)) = false) : s.loopIn l = none := by
  rw [State.loopIn, hsrc]
  exact if_neg (by rw [hreg]; decide)

theorem State.inputValid_keeps (s : State) (l : Nat) : Keeps s (s.inputValid l) [LPE_STATUS l] :=
  ((Keeps.refl s _).setLoop l _).putB _ _ List.mem_cons_self

theorem LpeOnly.inputValid (s : State) (l : Nat) : LpeOnly s (s.inputValid l) := ((LpeOnly.refl s).setLoop l _).putB _ _

/-- What a run of a slot with a software input shows, without a model and a destination. -/
theorem State.loopRun_shows (hlen : s.lpe.slots.length = 32) (hin : s.loopIn l = some raw) (hvalid : (s.loopS l).invalid = false)
    (hhold : s.on (LPE_CFG_HOLD l) = false) (hfinite : s.loopFinite l raw = true) (hn : s.get (LPE_M_CFG_M_N l) = 0)
    (hdst : s.get (LPE_SRC_OUT_DST l) = 0) (hsup : (s.loopS l).supStart = false) :
    let t := s.loopRun l
    t.f32 (LPE_Y_VALUE l) = s.loopYf l raw ∧ t.f32 (LPE_ERR_VALUE l) = s.loopE l raw ∧ t.f32 (LPE_INTEG_I l) = s.loopI l raw ∧
      t.f32 (LPE_OUT_VALUE l) = s.loopU l raw ∧ (t.loopS l).z1 = s.loopZ1 l raw ∧ (t.loopS l).z2 = s.loopZ2 l raw ∧
      (t.loopS l).yfPrev = some (s.loopYf l raw) ∧ t.lpe.tick = s.lpe.tick ∧ LpeOnly s t ∧ Keeps s t (sampleWritten l) := by
  have hkeeps := s.inputValid_keeps l
  have honly := LpeOnly.inputValid s l
  have hlpe : (s.inputValid l).lpe = (s.setLoop l (s.loopS l)).lpe := State.putB_lpe _ _ _
  have hrec : (s.inputValid l).loopS l = s.loopS l := (State.loopS_of_lpe hlpe l).trans (State.loopS_setLoop_same _ hlen)
  have htick : (s.inputValid l).lpe.tick = s.lpe.tick := by rw [hlpe]; rfl
  have hlen' : (s.inputValid l).lpe.slots.length = 32 := by rw [hlpe]; exact List.length_set.trans hlen
  rw [State.loopRun_valid hin hvalid]
  generalize s.inputValid l = x at *
  have hget (f : Fld) (h : f.off ∈ sampleRegs l) : x.get f = s.get f :=
    hkeeps.get f (fun e => slotStatus_notMem_sampleRegs l (List.mem_singleton.mp e ▸ h))
  have hparam : ∀ a ∈ sampleRegs l, x.rget a = s.rget a :=
    fun a h => hkeeps a (fun e => slotStatus_notMem_sampleRegs l (List.mem_singleton.mp e ▸ h))
  obtain ⟨eyf, ez1, ez2, ee, ei, eu, efin⟩ := State.sample_congr (raw := raw) hparam hrec
  obtain ⟨hyf, he, hi, hu, hrec', htick', honly', hkeeps'⟩ := State.loopSample_shows hlen'
    ((State.on_eq_of_get _ _ _ (hget (LPE_CFG_HOLD l) (by simp [sampleRegs, LPE_CFG_HOLD]))).trans hhold) (efin.trans hfinite)
    ((hget (LPE_M_CFG_M_N l) (by simp [sampleRegs, LPE_M_CFG_M_N])).trans hn)
    ((hget (LPE_SRC_OUT_DST l) (by simp [sampleRegs, LPE_SRC_OUT_DST])).trans hdst) (hrec ▸ hsup)
  generalize x.loopSample l raw = t at *
  refine ⟨hyf.trans eyf, he.trans ee, hi.trans ei, hu.trans eu, ?_, ?_, ?_, htick'.trans htick, ?_, ?_⟩
  · rw [hrec', ← ez1]; rfl
  · rw [hrec', ← ez2]; rfl
  · rw [hrec', ← eyf]; rfl
  · unfold LpeOnly RegsOnly at *
    rw [honly', honly]
  · exact (hkeeps.mono (by simp [sampleWritten])).trans hkeeps'

/-- A run of a slot whose input becomes invalid (R428). -/
def State.inputLost (s : State) (l : Nat) : State :=
  (((s.putB (LPE_STATUS_IN_INVALID l) true).addSat (LPE_INVALID_COUNT_COUNT l) 1).setLoop l { s.loopS l with invalid := true })

theorem State.loopRun_invalid (hin : s.loopIn l = none) (hvalid : (s.loopS l).invalid = false) :
    s.loopRun l = (s.inputLost l).report Ev.LOOP_INPUT_INVALID l
      [s.get (LPE_SRC_IN_SRC l), s.get (LPE_SRC_IN_IDX l), s.get (LPE_OUT_VALUE l)] LPE_IRQ_CAUSE_INVALID := by
  simp only [State.loopRun, hin, hvalid, Bool.false_eq_true, if_false]
  rfl

theorem invalidRegs_apart (l : Fin 32) : LPE_INVALID_COUNT l ≠ LPE_STATUS l ∧ LPE_IRQ_CAUSE ≠ LPE_STATUS l ∧ LPE_IRQ_CAUSE ≠ LPE_INVALID_COUNT l ∧
    LPE_INVALID_COUNT l ∉ evtRegs ∧ RST_ISLAND 1 ∉ [LPE_STATUS l, LPE_INVALID_COUNT l] := by
  revert l
  decide

/-- What the loss of an input shows. -/
theorem State.loopRun_invalid_shows (hlen : s.lpe.slots.length = 32) (hin : s.loopIn l = none) (hvalid : (s.loopS l).invalid = false) :
    let t := s.loopRun l
    t.on (LPE_STATUS_IN_INVALID l) = true ∧ t.get (LPE_INVALID_COUNT_COUNT l) = min (2 ^ 32 - 1) (s.get (LPE_INVALID_COUNT_COUNT l) + 1) ∧
      t.loopS l = { s.loopS l with invalid := true } ∧
      Posts s t Ev.LOOP_INPUT_INVALID l [s.get (LPE_SRC_IN_SRC l), s.get (LPE_SRC_IN_IDX l), s.get (LPE_OUT_VALUE l)] ∧
      t.hidden = { s with lpe := t.lpe }.hidden ∧ Keeps s t ([LPE_STATUS l, LPE_INVALID_COUNT l, LPE_IRQ_CAUSE] ++ evtRegs) := by
  obtain ⟨hcs, hqs, hqc, hevt, hisland⟩ := invalidRegs_apart l
  have honly : LpeOnly s (s.inputLost l) :=
    (((LpeOnly.refl s).putB _ _).addSat _ _).setLoop l _
  have hkeeps : Keeps s (s.inputLost l) [LPE_STATUS l, LPE_INVALID_COUNT l] :=
    (((Keeps.refl s _).putB _ _ List.mem_cons_self).addSat _ _ (List.mem_cons_of_mem _ List.mem_cons_self)).setLoop l _
  have hon : (s.inputLost l).on (LPE_STATUS_IN_INVALID l) = true := by
    rw [State.inputLost, State.on_setLoop, State.on_eq_of_get _ _ _ (State.get_addSat_apart _ _ _ _ rfl (.inl hcs)), State.on_putB_same _ _ _ rfl]
  have hcount : (s.inputLost l).get (LPE_INVALID_COUNT_COUNT l) = min (2 ^ 32 - 1) (s.get (LPE_INVALID_COUNT_COUNT l) + 1) := by
    rw [State.inputLost, State.get_setLoop, State.get_addSat_same _ _ _ rfl, State.get_putB_apart _ _ _ _ rfl (.inl hcs.symm)]
    rfl
  have hrec : (s.inputLost l).loopS l = { s.loopS l with invalid := true } :=
    State.loopS_setLoop_same (s := (s.putB (LPE_STATUS_IN_INVALID l) true).addSat (LPE_INVALID_COUNT_COUNT l) 1) _ hlen
  rw [State.loopRun_invalid hin hvalid]
  generalize s.inputLost l = x at *
  have hlpe (p : List Nat) : (x.report Ev.LOOP_INPUT_INVALID l p LPE_IRQ_CAUSE_INVALID).lpe = x.lpe :=
    State.hidden_congr x _ (x.hidden_report _ _ p LPE_IRQ_CAUSE_INVALID) (fun y => y.lpe)
  refine ⟨?_, ?_, ?_, ?_, ?_, ?_⟩
  · rw [State.on_eq_of_get _ _ _ (State.get_report _ _ _ _ (k := LPE_STATUS_IN_INVALID l) rfl hqs (slotStatus_notMem_evtRegs l)), hon]
  · rw [State.get_report _ _ _ _ (k := LPE_INVALID_COUNT_COUNT l) rfl hqc hevt, hcount]
  · rw [State.loopS_of_lpe (hlpe _), hrec]
  · exact (Posts.of_event s x _ _ _ honly.hif honly.time (hkeeps _ hisland) (by decide)).cause _
  · rw [State.hidden_report, hlpe]
    exact honly.hidden
  · exact (hkeeps.mono (by simp)).report _ _ _ _ (by simp [LPE_IRQ_CAUSE_INVALID])

end Runs

/-! ### Registers of the engine and the pins (R431, R437, R556) -/

section Registers
variable {s x : State}

/-- A register whose one field is the whole word holds the word written. -/
theorem State.rget_put_word (s : State) (a : Nat) (v : Word) : (s.put ⟨a, 31, 0⟩ v.toNat).rget a = v := by
  have h := State.get_put_same s ⟨a, 31, 0⟩ v.toNat rfl
  rw [State.get, bits, Nat.pow_zero, Nat.div_one] at h
  exact BitVec.eq_of_toNat_eq ((Nat.mod_eq_of_lt (BitVec.isLt _)).symm.trans (h.trans (Nat.mod_eq_of_lt v.isLt)))

theorem State.reqWrite_island {req : Fin 6} {a i : Nat} (f : State → State) (ha : islandOf a = i) (hreq : req ≠ 5) (hrun : s.islandRuns i = true) :
    s.reqWrite req a f = f s := State.reqWrite_runs s req a f (reaches_of_ne hreq a) (ha ▸ hrun)

theorem islandOf_integ : ∀ l : Fin 32, islandOf (LPE_INTEG l) = 15 := by decide
theorem islandOf_sp : ∀ l : Fin 32, islandOf (LPE_SP l) = 15 := by decide
theorem islandOf_pwmDuty : ∀ c : Fin 16, islandOf (PIN_PWM_DUTY c) = 0 := by decide

/-- A write of one field of one register. -/
theorem Silent.put (s : State) (f : Fld) (v : Nat) : Silent s (s.put f v).trackIrq [f.off] :=
  Silent.of_regsOnly ((RegsOnly.refl s).put f v) ((Keeps.refl s _).put f v List.mem_cons_self)

/-- A report sets its cause. -/
theorem State.on_report (s : State) (c u : Nat) (p : List Nat) {f : Fld} (hok : f.ok = true) : (s.report c u p f).on f = true :=
  State.on_cause_same _ _ hok
theorem State.rget_report (s : State) (c u : Nat) (p : List Nat) {f : Fld} {a : Nat} (hf : f.off ≠ a) (hevt : a ∉ evtRegs) :
    (s.report c u p f).rget a = s.rget a := (State.rget_cause_ne _ _ _ hf).trans (State.rget_event _ _ _ _ _ hevt)

/-- A command whose effect is a write of one field. -/
theorem nextPut {c : Instr} {f : Fld} {v : Nat} (h : exec c s = finish (s.put f v)) (hok : f.ok = true) :
    ∃ t, exec c s = .next t ∧ t.get f = v % 2 ^ (f.hi - f.lo + 1) ∧ Silent s t [f.off] :=
  ⟨_, h, (State.get_trackIrq _ _).trans (State.get_put_same _ _ _ hok), Silent.put s f v⟩

theorem nextPutB {c : Instr} {f : Fld} (h : exec c s = finish (s.putB f true)) (hok : f.ok = true) :
    ∃ t, exec c s = .next t ∧ t.on f = true ∧ Silent s t [f.off] :=
  ⟨_, h, (State.on_trackIrq _ _).trans (State.on_putB_same _ _ _ hok), Silent.put s f _⟩

/-- A command whose effect is a write of a register of one field. -/
theorem nextPutWord {c : Instr} {a : Nat} {v : Word} (h : exec c s = finish (s.put ⟨a, 31, 0⟩ v.toNat)) :
    ∃ t, exec c s = .next t ∧ t.rget a = v ∧ Silent s t [a] :=
  ⟨_, h, (State.rget_trackIrq _ _).trans (State.rget_put_word s a v), Silent.put s ⟨a, 31, 0⟩ _⟩

/-- A change of pins of which none is enabled, and one of which some are. -/
theorem State.pinLevels_none {v : Word} (h : (v ^^^ s.rget PIN_IN) &&& s.rget PIN_EDGE_EN = 0) : s.pinLevels v = s.rset PIN_IN v := if_pos h

/-- The levels and the latched edges after a change of pins. -/
def State.edgesLatched (s : State) (v : Word) : State :=
  (s.rset PIN_IN v).rset PIN_EDGE (s.rget PIN_EDGE ||| ((v ^^^ s.rget PIN_IN) &&& s.rget PIN_EDGE_EN))

theorem State.pinLevels_some {v : Word} (h : (v ^^^ s.rget PIN_IN) &&& s.rget PIN_EDGE_EN ≠ 0) :
    s.pinLevels v = (s.edgesLatched v).report Ev.PIN_EDGE 0xFFFF [((s.edgesLatched v).rget PIN_EDGE).toNat, v.toNat] PIN_IRQ_CAUSE_EDGE := by
  have hedge : (s.rset PIN_IN v).rget PIN_EDGE = s.rget PIN_EDGE := State.rget_rset_ne _ _ _ _ (by decide)
  refine (if_neg h).trans ?_
  simp only [hedge]
  rfl

end Registers

/-- Settles O49: a base tick is the run of its one due slot (`State.baseTick_one`), which samples (`State.loopRun_shows`) or reports a lost
input (`State.loopRun_invalid_shows`); the other clauses are single writes. -/
theorem loopsAndPins : Obligations.LoopsAndPins := by
  unfold Obligations.LoopsAndPins
  refine ⟨?sample, ?lost, ?integ, ?integHeld, ?sp, ?spDriven, ?duty, ?dutyDriven, ?period, ?edge, ?noEdge⟩
  case sample =>
    intro s l i raw hoff hon hdue hlen hsrc hidx hraw hvalid hsup hhold hn hdst hfinite
    have hin : s.ticked.loopIn l = some raw := (State.loopIn_software (s := s.ticked) hsrc hidx).trans (congrArg some hraw.symm)
    obtain ⟨hyf, he, hi, hu, hz1, hz2, hprev, htick, honly, hkeeps⟩ := State.loopRun_shows (s := s.ticked) hlen hin hvalid hhold hfinite hn hdst hsup
    have heff := State.baseTick_one hoff hon hdue fun k hk => ?other
    case other =>
      have hne := slotStatus_ne hk
      have hstate : (s.ticked.loopRun l).rget (LPE_STATUS k) = s.rget (LPE_STATUS k) :=
        hkeeps _ (fun hmem => hne _ (List.mem_append_left [LPE_INVALID_COUNT l, LPE_IRQ_CAUSE] hmem) rfl)
      exact (State.ust_of_rget s _ (.slot k) (by simp) hstate).trans (hoff k hk)
    generalize s.ticked.loopRun l = t at *
    exact ⟨_, congrArg finish heff, hyf, he, hi, hu, hz1, hz2, hprev, htick, Alters.of_regsOnly rfl honly hkeeps⟩
  case lost =>
    intro s l hoff hon hdue hlen hsrc hreg hvalid
    have hin : s.ticked.loopIn l = none := State.loopIn_noMeasurement (s := s.ticked) hsrc hreg
    obtain ⟨hshown, hcount, hrec, hposts, hhidden, hkeeps⟩ := State.loopRun_invalid_shows (s := s.ticked) hlen hin hvalid
    have heff := State.baseTick_one hoff hon hdue fun k hk => ?other
    case other =>
      have hne := slotStatus_ne hk
      have hstate : (s.ticked.loopRun l).rget (LPE_STATUS k) = s.rget (LPE_STATUS k) := by
        refine hkeeps _ (fun hmem => ?_)
        rcases List.mem_append.mp hmem with hmem | hmem
        · refine hne _ ?_ rfl
          simp only [List.mem_cons, List.not_mem_nil, or_false] at hmem ⊢
          tauto
        · exact slotStatus_notMem_evtRegs k hmem
      exact (State.ust_of_rget s _ (.slot k) (by simp) hstate).trans (hoff k hk)
    rw [show s.ticked.get (LPE_SRC_IN_SRC l) = 5 from hsrc] at hposts
    generalize s.ticked.loopRun l = t at *
    exact ⟨_, congrArg finish heff, hshown, hcount, hrec, hposts.trackIrq, hhidden, hkeeps⟩
  case integ =>
    intro s req l v hreq hrun hhold
    have heff := State.reqWrite_island (s := s) (fun s => s.integWrite l v.toNat) (islandOf_integ l) hreq hrun
    exact nextPutWord (congrArg finish (heff.trans (if_pos hhold)))
  case integHeld =>
    intro s req l v hreq hrun hhold
    have heff := State.reqWrite_island (s := s) (fun s => s.integWrite l v.toNat) (islandOf_integ l) hreq hrun
    exact nextPutB (congrArg finish (heff.trans (if_neg (by simp [hhold])))) rfl
  case sp =>
    intro s req l v hreq hrun hfree
    have heff := State.reqWrite_island (s := s) (fun s => s.spWrite l v.toNat) (islandOf_sp l) hreq hrun
    exact nextPutWord (congrArg finish (heff.trans (if_neg (by simp [hfree]))))
  case spDriven =>
    intro s req l v hreq hrun hdriven
    have heff := State.reqWrite_island (s := s) (fun s => s.spWrite l v.toNat) (islandOf_sp l) hreq hrun
    exact nextPutB (congrArg finish (heff.trans (if_pos hdriven))) rfl
  case duty =>
    intro s req c v hreq hrun hfree
    have heff := State.reqWrite_island (s := s) (fun s => s.pwmDuty c v.toNat) (islandOf_pwmDuty c) hreq hrun
    exact nextPut (congrArg finish (heff.trans (if_neg (by simp [hfree])))) rfl
  case dutyDriven =>
    intro s req c v hreq hrun hdriven
    have heff := State.reqWrite_island (s := s) (fun s => s.pwmDuty c v.toNat) (islandOf_pwmDuty c) hreq hrun
    exact ⟨_, congrArg finish (heff.trans (if_pos hdriven)), Silent.refl s⟩
  case period => exact fun s => ⟨_, rfl, Alters.of_regsOnly rfl (RegsOnly.refl s.pwmStart) (Keeps.refl s [])⟩
  case edge =>
    intro s v hhits
    have heff := State.pinLevels_some hhits
    have hregs : RegsOnly s (s.edgesLatched v) := ((RegsOnly.refl s).rset _ _).rset _ _
    have hkeeps : Keeps s (s.edgesLatched v) [PIN_IN, PIN_EDGE] :=
      ((Keeps.refl s _).rset _ _ List.mem_cons_self).rset _ _ (List.mem_cons_of_mem _ List.mem_cons_self)
    have hin : (s.edgesLatched v).rget PIN_IN = v := (State.rget_rset_ne _ _ _ _ (by decide)).trans (State.rget_rset_same _ _ _)
    have hedge : (s.edgesLatched v).rget PIN_EDGE = s.rget PIN_EDGE ||| ((v ^^^ s.rget PIN_IN) &&& s.rget PIN_EDGE_EN) := State.rget_rset_same _ _ _
    generalize s.edgesLatched v = x at *
    have hafter (p : List Nat) (a : Nat) (ha : PIN_IRQ_CAUSE ≠ a) (hevt : a ∉ evtRegs) :
        (x.report Ev.PIN_EDGE 0xFFFF p PIN_IRQ_CAUSE_EDGE).trackIrq.rget a = x.rget a :=
      (State.rget_trackIrq _ _).trans (State.rget_report _ _ _ _ ha hevt)
    refine ⟨_, congrArg finish heff, (hafter _ _ (by decide) (by decide)).trans hin, (hafter _ _ (by decide) (by decide)).trans hedge, ?_,
      (State.on_trackIrq _ _).trans (State.on_report _ _ _ _ rfl), Touches.mk' ?_ ?_⟩
    · rw [hafter _ _ (by decide) (by decide)]
      exact ((Posts.of_event s x _ _ _ hregs.hif hregs.time (hkeeps _ (by decide)) (by decide)).cause _).trackIrq
    · rw [State.hidden_report, hregs.hidden]
    · exact (hkeeps.mono (by simp)).report _ _ _ _ (by decide)
  case noEdge =>
    intro s v hnone
    exact ⟨_, congrArg finish (State.pinLevels_none hnone), State.rget_rset_same s PIN_IN v,
      Silent.of_regsOnly ((RegsOnly.refl s).rset _ _) ((Keeps.refl s _).rset _ _ List.mem_cons_self)⟩

end Sys2Proof.Machine

namespace Sys2Proof.Machine

/-! ### Lists with positions -/

section Lists
variable {α β : Type}

theorem zipIdx_map_getElem? (l : List α) (g : α × Nat → β) (i : Nat) : (l.zipIdx.map g)[i]? = l[i]?.map (fun d => g (d, i)) := by
  rw [List.getElem?_map, List.getElem?_zipIdx, Option.map_map]
  rcases l[i]? with _ | d
  · rfl
  · simp

/-- A map over elements with positions that uses no position. -/
theorem zipIdx_map_eq_map {l : List α} {g : α × Nat → β} {h : α → β} (hg : ∀ d i, g (d, i) = h d) : l.zipIdx.map g = l.map h := by
  refine List.ext_getElem? (fun i => ?_)
  rw [zipIdx_map_getElem?, List.getElem?_map]
  simp only [hg]

end Lists

/-! ### Bars and their chains (R351 to R355) -/

section Chains
variable {s x : State} {q : Fin 8} {pos : Fin 4} {f : Nat} {d : Driver} {payload : Option (Nat × Nat)}

/-- Only registers and the bars differ. -/
abbrev BarsOnly (s x : State) : Prop := RegsOnly { s with bars := x.bars } x

theorem BarsOnly.refl (s : State) : BarsOnly s s := RegsOnly.refl s

theorem BarsOnly.setBar (h : BarsOnly s x) (q : Nat) (b : Bar) : BarsOnly s (x.setBar q b) := by
  unfold BarsOnly RegsOnly at *
  rw [h]
  rfl

theorem Keeps.setBar {r : List Nat} (h : Keeps s x r) (q : Nat) (b : Bar) : Keeps s (x.setBar q b) r := h

theorem State.bar_of_bars (h : x.bars = s.bars) (q : Nat) : x.bar q = s.bar q := by rw [State.bar, h, ← State.bar]

theorem State.bar_setBar_same {b : Bar} (h : s.bars.length = 8) : (s.setBar q b).bar q = b := by
  have hq : q.val < s.bars.length := h.symm ▸ q.isLt
  simp [State.bar, State.setBar, List.getD_eq_getElem?_getD, hq]

/-- A command that changes one bar. -/
theorem Alters.setBar (s : State) (q : Nat) (b : Bar) : Alters s (s.setBar q b).trackIrq { s with bars := (s.setBar q b).trackIrq.bars } [] :=
  Alters.of_regsOnly rfl (RegsOnly.refl (s.setBar q b)) (Keeps.refl s _)

/-- What every driver of a chain does with a frame, and what else changes. -/
theorem State.chainFrame_shows (payload : Option (Nat × Nat)) (f : Nat) (h : s.bars.length = 8) :
    let t := (s.chainFrame q f payload).trackIrq
    (t.bar q).drivers = (s.bar q).drivers.zipIdx.map (fun e => e.1.frame e.2 f payload) ∧ Alters s t { s with bars := t.bars } [] :=
  ⟨congrArg Bar.drivers (State.bar_setBar_same h), Alters.setBar s q _⟩

/-- A right WRITE, GS_BLOCK and READ at a driver with a clock that they address (R353, R354). -/
theorem Driver.frame_write (hdark : d.dark = false) (hok : frameOk f = true) (hto : frameTo f pos = true) (hcmd : bits f 59 56 = 1) :
    d.frame pos f payload = d.write (bits f 47 40) (bits f 39 8) := by
  simp [Driver.frame, hdark, hok, hto, hcmd]

theorem Driver.frame_block {p c : Nat} (hdark : d.dark = false) (hok : frameOk f = true) (hto : frameTo f pos = true) (hcmd : bits f 59 56 = 2) :
    d.frame pos f (some (p, c)) =
      if payloadCrc p = c then { d with pend := { d.pend with gs := (List.range 64).map (fun i => bits p (12 * i + 11) (12 * i)) } } else d := by
  simp [Driver.frame, hdark, hok, hto, hcmd]

theorem Driver.frame_read (hdark : d.dark = false) (hok : frameOk f = true) (hto : frameTo f pos = true) (hcmd : bits f 59 56 = 3) :
    d.frame pos f payload =
      if 0x40 ≤ bits f 47 40 ∧ bits f 47 40 < 0x80 then { d with sense := d.sense.set (bits f 47 40 - 0x40) (0, 0) } else d := by
  simp [Driver.frame, hdark, hok, hto, hcmd]

/-- The driver at a position after a right frame for it. -/
theorem State.driver_frame (h : s.bars.length = 8) (hd : (s.bar q).drivers[pos.val]? = some d) :
    ((s.chainFrame q f payload).trackIrq.bar q).drivers[pos.val]? = some (d.frame pos f payload) := by
  obtain ⟨hdrivers, -⟩ := State.chainFrame_shows (q := q) payload f h
  rw [hdrivers, zipIdx_map_getElem?, hd]
  rfl

/-- A wrong frame sets CRC_ERR (R353, R355). -/
theorem Driver.frame_wrong (n : Nat) (hok : frameOk f = false) : d.frame n f payload = if d.dark = true then d else { d with crcErr := true } := by
  unfold Driver.frame
  congr 1
  exact if_pos (by simp [hok])

/-- A broadcast reaches every driver with a clock. -/
theorem Driver.frame_sync (n : Nat) (hok : frameOk f = true) (hcmd : bits f 59 56 = 4) (hbc : bit f 55 = true) :
    d.frame n f payload = if d.dark = true then d else { d with synced := true } := by
  have hto : frameTo f n = true := by rw [frameTo, hcmd]; exact hbc
  simp [Driver.frame, hok, hto, hcmd]

/-- What CLEAR with a mask leaves of a driver (R355). -/
def Driver.cleared (d : Driver) (f : Nat) : Driver :=
  { d with opens := if bit f 8 = true then List.replicate 4 0 else d.opens, shorts := if bit f 9 = true then List.replicate 4 0 else d.shorts
           ot := if bit f 10 = true then d.hot else d.ot, crcErr := if bit f 11 = true then false else d.crcErr }

theorem bit_bits {hi lo i : Nat} (v : Nat) (hi' : i < hi - lo + 1) : bit (bits v hi lo) i = bit v (lo + i) := by
  rw [bit_eq_testBit, bits_testBit, decide_eq_true hi', Bool.true_and, bit_eq_testBit]

theorem Driver.clear_eq (d : Driver) (f : Nat) : d.clear (bits f 15 8) = d.cleared f := by
  simp only [Driver.clear, Driver.cleared, bit_bits (hi := 15) (lo := 8) f (by decide : 0 < 15 - 8 + 1),
    bit_bits (hi := 15) (lo := 8) f (by decide : 1 < 15 - 8 + 1), bit_bits (hi := 15) (lo := 8) f (by decide : 2 < 15 - 8 + 1),
    bit_bits (hi := 15) (lo := 8) f (by decide : 3 < 15 - 8 + 1)]
  rcases hopen : bit f 8 <;> rcases hshort : bit f 9 <;> rcases hot : bit f 10 <;> rcases hcrc : bit f 11 <;> rfl

theorem Driver.frame_clear (n : Nat) (hok : frameOk f = true) (hcmd : bits f 59 56 = 5) (hbc : bit f 55 = true) :
    d.frame n f payload = if d.dark = true then d else d.cleared f := by
  have hto : frameTo f n = true := by rw [frameTo, hcmd]; exact (congrArg (· || _) hbc).trans (Bool.true_or _)
  simp [Driver.frame, hok, hto, hcmd, Driver.clear_eq]

/-- One driver of a chain changes. -/
theorem State.updDriver_shows (g : Driver → Driver) (hd : (s.bar q).drivers[pos.val]? = some d) :
    let t := (s.updDriver q pos g).trackIrq
    t.bars = s.bars.set q { s.bar q with drivers := (s.bar q).drivers.set pos (g d) } ∧ Alters s t { s with bars := t.bars } [] := by
  refine ⟨?_, Alters.setBar s q _⟩
  have hget : (s.bar q).drivers.getD pos Driver.reset = d := by rw [List.getD_eq_getElem?_getD, hd]; rfl
  show s.bars.set q _ = _
  rw [hget]

end Chains

/-! ### The answer of a READ (R353, R355) -/

section Answer
variable {s : State} {q : Fin 8} {pos : Fin 4} {f v w : Nat} {d : Driver}

theorem crcStep8_lt (poly c : Nat) (b : Bool) : crcStep 8 poly c b < 256 := by
  have hshift : 2 * c % 2 ^ 8 < 2 ^ 8 := Nat.mod_lt _ (by decide)
  unfold crcStep
  dsimp only
  split
  · exact Nat.xor_lt_two_pow (n := 8) hshift (Nat.mod_lt _ (by decide))
  · exact hshift

/-- A check is a byte. -/
theorem frameCheck8_lt (v : Nat) : frameCheck8 v < 256 := by
  unfold frameCheck8
  rw [List.range_succ, List.foldl_append]
  exact crcStep8_lt _ _ _

/-- The check covers the bits from 8 up (R353). -/
theorem frameCheck8_congr (h : ∀ i, 8 ≤ i → i < 64 → v.testBit i = w.testBit i) : frameCheck8 v = frameCheck8 w := by
  unfold frameCheck8
  refine List.foldl_ext _ _ _ (fun c i hi => ?_)
  rw [List.mem_range] at hi
  rw [bit_eq_testBit, bit_eq_testBit, h (63 - i) (by omega) (by omega)]

theorem bits_congr {hi lo : Nat} (h : ∀ i, lo ≤ i → i < lo + (hi - lo + 1) → v.testBit i = w.testBit i) : bits v hi lo = bits w hi lo := by
  refine Nat.eq_of_testBit_eq (fun i => ?_)
  rw [bits_testBit, bits_testBit]
  by_cases hi' : i < hi - lo + 1
  · rw [h (lo + i) (by omega) (by omega)]
  · simp [hi']

/-- The frame that comes back: the register's value in the data bits, and the check of the whole. -/
def answerOf (f v : Nat) : Nat := setBits (setBits f 39 8 v) 7 0 (frameCheck8 (setBits f 39 8 v))

/-- Only the addressed driver answers a READ. -/
theorem State.chainFrame_lrtn {payload : Option (Nat × Nat)} (h : s.bars.length = 8) (hd : (s.bar q).drivers[pos.val]? = some d) (hdark : d.dark = false)
    (hok : frameOk f = true) (hcmd : bits f 59 56 = 3) (hto : frameTo f pos = true) :
    ((s.chainFrame q f payload).trackIrq.bar q).lrtn = BitVec.ofNat 64 (answerOf f (d.reg s.blankHigh (bits f 47 40))) := by
  have hget : (s.bar q).drivers.getD pos Driver.reset = d := by rw [List.getD_eq_getElem?_getD, hd]; rfl
  refine (congrArg Bar.lrtn (State.bar_setBar_same h)).trans ?_
  refine congrArg (BitVec.ofNat 64) ?_
  refine (foldl_only (P := fun _ => True) (b := pos.val) (fun v n _ hn => if_neg ?_) _ f List.nodup_range (List.mem_range.mpr pos.isLt) trivial trivial).trans ?_
  · rintro ⟨-, -, hother, -⟩
    simp only [frameTo, hcmd, Bool.and_eq_true, beq_iff_eq] at hto hother
    exact hn (hother.2.symm.trans hto.2)
  · rw [hget]
    exact if_pos ⟨hcmd, hok, hto, hdark⟩

/-- What a frame that comes back carries. -/
theorem answerOf_shows (f v : Nat) :
    let b := (BitVec.ofNat 64 (answerOf f v)).toNat
    bits b 39 8 = v % 2 ^ 32 ∧ bits b 63 40 = bits f 63 40 ∧ frameCheck8 b = bits b 7 0 := by
  have hbit (i : Nat) (hi : i < 64) : (BitVec.ofNat 64 (answerOf f v)).toNat.testBit i = (answerOf f v).testBit i := by
    rw [BitVec.toNat_ofNat, Nat.testBit_mod_two_pow, decide_eq_true hi, Bool.true_and]
  have hbits (hi lo : Nat) (h : lo + (hi - lo + 1) ≤ 64) : bits (BitVec.ofNat 64 (answerOf f v)).toNat hi lo = bits (answerOf f v) hi lo :=
    bits_congr (fun i _ hi => hbit i (by omega))
  have hhigh (i : Nat) (hi : 8 ≤ i) : (answerOf f v).testBit i = (setBits f 39 8 v).testBit i := by
    rw [answerOf, setBits_testBit, if_neg (by omega)]
  refine ⟨?_, ?_, ?_⟩
  · rw [hbits _ _ (by decide), answerOf, bits_setBits_apart _ _ _ _ _ _ (by decide), bits_setBits_same]
  · rw [hbits _ _ (by decide), answerOf, bits_setBits_apart _ _ _ _ _ _ (by decide), bits_setBits_apart _ _ _ _ _ _ (by decide)]
  · rw [hbits _ _ (by decide), frameCheck8_congr (w := setBits f 39 8 v) (fun i h1 h2 => (hbit i h2).trans (hhigh i h1)), answerOf, bits_setBits_same]
    exact (Nat.mod_eq_of_lt (frameCheck8_lt _)).symm

end Answer

/-! ### Row slots (R356 to R358) -/

section RowSlots
variable {s : State} {q : Fin 8} {pos : Fin 4} {d : Driver} {r : Nat}

/-- The driver at a position after a row slot without new faults and samples. -/
theorem State.driver_rowSlot (h : s.bars.length = 8) (hd : (s.bar q).drivers[pos.val]? = some d) :
    ((s.rowSlot r [] [] []).trackIrq.bar q).drivers[pos.val]? = some (d.slot pos r (!s.blankHigh) [] [] []) := by
  have hq : q.val < s.bars.length := h.symm ▸ q.isLt
  have hbar : s.bars[q.val]? = some (s.bar q) := by
    rw [State.bar, List.getD_eq_getElem?_getD, List.getElem?_eq_getElem hq, Option.getD_some]
  have hslot : ((s.rowSlot r [] [] []).bar q).drivers = (s.bar q).drivers.zipIdx.map (fun e => e.1.slot e.2 r (!s.blankHigh) [] [] []) := by
    rw [State.bar, State.rowSlot, List.getD_eq_getElem?_getD, zipIdx_map_getElem?, hbar]
    rfl
  show ((s.rowSlot r [] [] []).bar q).drivers[pos.val]? = _
  rw [hslot, zipIdx_map_getElem?, hd]
  rfl

theorem Alters.rowSlot (s : State) (r : Nat) (o z : List (Fin 8 × Fin 64)) (e : List (Fin 8 × Fin 64 × Nat)) :
    Alters s (s.rowSlot r o z e).trackIrq { s with bars := (s.rowSlot r o z e).trackIrq.bars } [] :=
  Alters.of_regsOnly rfl (RegsOnly.refl (s.rowSlot r o z e)) (Keeps.refl s _)

/-- A driver with LED_BLANK low lights nothing (R371). -/
theorem Driver.slot_blank {n : Nat} : let e := d.slot n r true [] [] []; e.row = none ∧ e.on = List.replicate 16 0 := by
  have h : d.slot n r true [] [] [] = { d.slot n r true [] [] [] with row := none, on := List.replicate 16 0 } := by
    simp [Driver.slot]
  exact ⟨congrArg Driver.row h, congrArg Driver.on h⟩

/-- A driver that took a SYNC, at the frame edge. -/
def Driver.latched (d : Driver) : Driver := { d with act := d.pend, synced := false, latchCnt := (d.latchCnt + 1) % 16 }

/-- At the frame edge a driver that took a SYNC applies its pending copy and lights row 0 (R356, R357). -/
theorem Driver.slot_edge {n : Nat} (hdark : d.dark = false) (hsync : d.synced = true) :
    let e := d.slot n 0 false [] [] []
    (e.act, e.pend, e.synced, e.latchCnt) = (d.pend, d.pend, false, (d.latchCnt + 1) % 16) ∧
      e.row = (if d.pend.mode % 2 = 1 then some 0 else none) ∧
      e.on = (List.range 16).map (fun ch => if d.ot = true ∨ bit (d.opens.getD 0 0) ch = true ∨ bit (d.shorts.getD 0 0) ch = true then 0
        else d.pend.gs.getD (4 * ch) 0 * (d.pend.slot - 2 * d.pend.kerf) / 4096) := by
  simp only [Driver.slot, hdark, hsync, and_self, if_true, Bool.false_eq_true, or_self, if_false, Driver.onTime, Nat.add_zero]

end RowSlots

/-- Settles O44: every frame is `Driver.frame` at each position of the chain (`State.chainFrame_shows`), a READ returns `answerOf`, a row slot is
`Driver.slot` of each driver (`State.driver_rowSlot`). -/
theorem lightDrivers : Obligations.LightDrivers := by
  unfold Obligations.LightDrivers
  refine ⟨?write, ?wrong, ?block, ?read, ?sync, ?clear, ?clock, ?edge, ?blank, ?hot, ?cool⟩
  case write =>
    intro s q f pos d hlen hd hdark hok hcmd hto
    exact ⟨_, rfl, (State.driver_frame hlen hd).trans (congrArg some (Driver.frame_write hdark hok hto hcmd)),
      (State.chainFrame_shows none f.toNat hlen).2⟩
  case wrong =>
    intro s q f hlen hok
    obtain ⟨hdrivers, halters⟩ := State.chainFrame_shows (q := q) none f.toNat hlen
    exact ⟨_, rfl, hdrivers.trans (zipIdx_map_eq_map (fun d i => Driver.frame_wrong i hok)), halters⟩
  case block =>
    intro s q f p c pos d hlen hd hdark hok hcmd hto
    exact ⟨_, rfl, (State.driver_frame hlen hd).trans (congrArg some (Driver.frame_block hdark hok hto hcmd)),
      (State.chainFrame_shows _ f.toNat hlen).2⟩
  case read =>
    intro s q f pos d hlen hd hdark hok hcmd hto
    obtain ⟨hdata, hhead, hcheck⟩ := answerOf_shows f.toNat (d.reg s.blankHigh (bits f.toNat 47 40))
    rw [← State.chainFrame_lrtn (payload := none) hlen hd hdark hok hcmd hto] at hdata hhead hcheck
    refine ⟨_, rfl, hdata, hhead, hcheck, fun hlow hhigh => (State.driver_frame hlen hd).trans (congrArg some ?_),
      (State.chainFrame_shows none f.toNat hlen).2⟩
    rw [Driver.frame_read hdark hok hto hcmd]
    exact if_pos ⟨hlow, hhigh⟩
  case sync =>
    intro s q f hlen hok hcmd hbc
    obtain ⟨hdrivers, halters⟩ := State.chainFrame_shows (q := q) none f.toNat hlen
    exact ⟨_, rfl, hdrivers.trans (zipIdx_map_eq_map (fun d i => Driver.frame_sync i hok hcmd hbc)), halters⟩
  case clear =>
    intro s q f hlen hok hcmd hbc
    obtain ⟨hdrivers, halters⟩ := State.chainFrame_shows (q := q) none f.toNat hlen
    exact ⟨_, rfl, hdrivers.trans (zipIdx_map_eq_map (fun d i => Driver.frame_clear i hok hcmd hbc)), halters⟩
  case clock =>
    intro s q pos d _ hd
    exact ⟨_, rfl, State.updDriver_shows (fun d => { d with dark := true, row := none, on := List.replicate 16 0 }) hd⟩
  case edge =>
    intro s q pos d hlen hd hdark hsync hblank
    obtain ⟨hregs, hrow, hon⟩ := Driver.slot_edge (n := pos) hdark hsync
    have hslot := State.driver_rowSlot (r := 0) hlen hd
    rw [hblank, Bool.not_true] at hslot
    refine ⟨_, rfl, ?_, ?_, ?_, Alters.rowSlot s 0 [] [] []⟩
    · rw [show ((0 : Fin 4).val) = 0 from rfl, hslot, Option.map_some, hregs]
    · rw [show ((0 : Fin 4).val) = 0 from rfl, hslot, Option.map_some, hrow]
    · rw [show ((0 : Fin 4).val) = 0 from rfl, hslot, Option.map_some, hon]
  case blank =>
    intro s r q pos hlen hpos hblank
    obtain ⟨hrow, hon⟩ := Driver.slot_blank (d := (s.bar q).drivers[pos.val]) (r := r) (n := pos)
    have hslot := State.driver_rowSlot (r := r) hlen (List.getElem?_eq_getElem hpos)
    rw [hblank, Bool.not_false] at hslot
    refine ⟨_, rfl, ?_, Alters.rowSlot s r [] [] []⟩
    rw [hslot, Option.map_some, hrow, hon]
  case hot => exact fun s q pos d _ hd => ⟨_, rfl, State.updDriver_shows (fun d => d.heat true) hd⟩
  case cool => exact fun s q pos d _ hd => ⟨_, rfl, State.updDriver_shows (fun d => d.heat false) hd⟩

end Sys2Proof.Machine

namespace Sys2Proof.Machine

/-! ### The redundant pair: what changes (R463 to R484) -/

section ParFrames
variable {s x y : State} {p : Par}

/-- Only registers and the pair's record differ. -/
abbrev ParOnly (s x : State) : Prop := RegsOnly { s with par := x.par } x

theorem ParOnly.refl (s : State) : ParOnly s s := RegsOnly.refl s
theorem ParOnly.put (h : ParOnly s x) (f : Fld) (v : Nat) : ParOnly s (x.put f v) := RegsOnly.put h f v
theorem ParOnly.putB (h : ParOnly s x) (f : Fld) (v : Bool) : ParOnly s (x.putB f v) := RegsOnly.putB h f v
theorem ParOnly.addSat (h : ParOnly s x) (f : Fld) (v : Nat) : ParOnly s (x.addSat f v) := RegsOnly.addSat h f v
theorem ParOnly.rset (h : ParOnly s x) (a : Nat) (v : Word) : ParOnly s (x.rset a v) := RegsOnly.rset h a v

theorem ParOnly.setPar (h : ParOnly s x) (p : Par) : ParOnly s (x.setPar p) := by
  unfold ParOnly RegsOnly at *
  rw [h]
  rfl

theorem ParOnly.withPar (h : ParOnly s x) (p : Par) : RegsOnly { s with par := p } (x.setPar p) := by
  unfold ParOnly RegsOnly at *
  rw [h]
  rfl

theorem State.par_report (s : State) (c u : Nat) (l : List Nat) (f : Fld) : (s.report c u l f).par = s.par :=
  State.hidden_congr s (s.report c u l f) (s.hidden_report c u l f) (fun y => y.par)
theorem ParOnly.trans (h : ParOnly s x) (h' : RegsOnly { x with par := p } y) : RegsOnly { s with par := p } y := by
  unfold ParOnly RegsOnly at *
  rw [h', h]

theorem Keeps.setPar {l : List Nat} (h : Keeps s x l) (p : Par) : Keeps s (x.setPar p) l := h
theorem State.get_setPar (s : State) (p : Par) (f : Fld) : (s.setPar p).get f = s.get f := rfl
theorem State.on_setPar (s : State) (p : Par) (f : Fld) : (s.setPar p).on f = s.on f := rfl
theorem State.hidden_setPar (s : State) (p : Par) : (s.setPar p).hidden = s.hidden.setPar p := rfl

theorem Posts.setPar {c u : Nat} {l : List Nat} (h : Posts s x c u l) (p : Par) : Posts s (x.setPar p) c u l := h.after (fun _ h => h)

/-- A message in the mirror port's sequence. -/
def Par.sent (p : Par) (m : MirrorMsg) : Par := { p with txLsn := (p.txLsn + 1) % 4096, unacked := p.unacked ++ [(p.txLsn, m)] }

theorem State.mirrorSend_up {m : MirrorMsg} (h : s.on PAR_STATUS_MIRROR_UP = true) : s.mirrorSend m = s.setPar (s.par.sent m) := if_pos h
theorem State.mirrorSend_down {m : MirrorMsg} (h : s.on PAR_STATUS_MIRROR_UP = false) : s.mirrorSend m = s := if_neg (by simp [h])

/-- A command whose effect is a write of the pair's record. -/
theorem nextSetPar {c : Instr} (h : exec c s = finish (s.setPar p)) : ∃ t, exec c s = .next t ∧ Alters s t { s with par := p } [] :=
  ⟨_, h, Alters.of_regsOnly rfl (RegsOnly.refl (s.setPar p)) (Keeps.refl s _)⟩

theorem islandOf_parCmd : islandOf PAR_CMD = 13 := by decide

end ParFrames

/-! ### The lease (R474 to R476) -/

section Lease
variable {s : State} {trig e : Nat}

/-- The epoch with which a chip claims (R474). -/
def State.nextEpoch (s : State) : Nat := max s.epoch s.par.epochSeen + 1

theorem State.epoch_put (h : e < 2 ^ 32) : (s.put PAR_EPOCH_EPOCH e).epoch = e := by
  rw [State.epoch, State.get_put_same _ _ _ rfl]
  exact Nat.mod_eq_of_lt h

theorem State.epoch_setPar (s : State) (p : Par) : (s.setPar p).epoch = s.epoch := rfl

/-- The state in which a claim is on its way. -/
def State.claimSent (s : State) (trig : Nat) : State :=
  (s.put PAR_EPOCH_EPOCH s.nextEpoch).setPar { s.par.sent (.claim s.nextEpoch) with claim := some trig }

theorem State.startClaim_up (hup : s.on PAR_STATUS_MIRROR_UP = true) : s.startClaim trig = s.claimSent trig := by
  have hput : (s.put PAR_EPOCH_EPOCH s.nextEpoch).on PAR_STATUS_MIRROR_UP = true := (s.on_put_apart _ _ _ rfl (.inl (by decide))).trans hup
  refine (if_pos hup).trans ?_
  rw [show max s.epoch s.par.epochSeen + 1 = s.nextEpoch from rfl, State.mirrorSend_up hput]
  rfl

/-- What a claim shows that waits for the peer's acknowledgement. -/
theorem State.claimSent_shows (h : s.nextEpoch < 2 ^ 32) :
    let t := s.claimSent trig
    t.epoch = s.nextEpoch ∧ t.get PAR_LEASE_HOLDER = s.get PAR_LEASE_HOLDER ∧
      RegsOnly { s with par := { s.par with claim := some trig, txLsn := (s.par.txLsn + 1) % 4096, unacked := s.par.unacked ++ [(s.par.txLsn, .claim t.epoch)] } } t ∧
      Keeps s t [PAR_EPOCH] := by
  have hepoch : (s.claimSent trig).epoch = s.nextEpoch := (State.epoch_setPar _ _).trans (State.epoch_put h)
  refine ⟨hepoch, ?_, ?_, ((Keeps.refl s _).put _ _ (by decide)).setPar _⟩
  · exact State.get_put_apart s _ _ _ rfl (.inl (by decide))
  · rw [hepoch]
    exact ((ParOnly.refl s).put PAR_EPOCH_EPOCH s.nextEpoch).withPar
      { s.par with claim := some trig, txLsn := (s.par.txLsn + 1) % 4096, unacked := s.par.unacked ++ [(s.par.txLsn, .claim s.nextEpoch)] }

/-- A claim that wins, before its event. -/
def State.claimShown (s : State) : State :=
  ((s.setPar { s.par with claim := none, claimAt := s.time.cyc, splitPosted := false }).setPState psCLAIMED).put PAR_LEASE_HOLDER 1

theorem State.fencePeer_off (h : s.on PAR_CFG_FENCE_EN = false) : s.fencePeer = s := if_neg (by simp [h])

/-- Without FENCE_EN a claim that wins is shown and reported (R474, R480). -/
theorem State.claimWon_eq (h : s.on PAR_CFG_FENCE_EN = false) :
    s.claimWon trig = s.claimShown.report Ev.LEASE_CLAIMED 0xFFFF [s.claimShown.epoch, trig] PAR_IRQ_CAUSE_LEASE := by
  refine State.fencePeer_off ?_
  simp (disch := decide) only [State.on_cause_apart, State.on_event', State.setPState, State.on_put_apart, State.on_setPar, h]

/-- What a claim that wins shows. -/
theorem State.claimWon_shows (trig : Nat) (h : s.on PAR_CFG_FENCE_EN = false) :
    let t := s.claimWon trig
    t.pstate = psCLAIMED ∧ t.get PAR_LEASE_HOLDER = 1 ∧ t.epoch = s.epoch ∧ Posts s t Ev.LEASE_CLAIMED 0xFFFF [s.epoch, trig] ∧
      t.hidden = { s with par := { s.par with claim := none, claimAt := s.time.cyc, splitPosted := false } }.hidden ∧
      Keeps s t ([PAR_STATUS, PAR_LEASE, PAR_IRQ_CAUSE] ++ evtRegs) := by
  have hregs : ParOnly s s.claimShown := (((ParOnly.refl s).setPar _).put _ _).put _ _
  have hkeeps : Keeps s s.claimShown [PAR_STATUS, PAR_LEASE] := (((Keeps.refl s _).setPar _).put _ _ (by decide)).put _ _ (by decide)
  have hepoch : s.claimShown.epoch = s.epoch := hkeeps.get PAR_EPOCH_EPOCH (by decide)
  have hpstate : s.claimShown.pstate = psCLAIMED := by
    simp (disch := decide) only [State.claimShown, State.pstate, State.get_put_apart, State.setPState, State.get_put_same]
    rfl
  have hholder : s.claimShown.get PAR_LEASE_HOLDER = 1 := State.get_put_same _ _ _ rfl
  have hhidden : s.claimShown.hidden = { s with par := { s.par with claim := none, claimAt := s.time.cyc, splitPosted := false } }.hidden := by
    rw [State.claimShown, State.put_hidden, State.setPState, State.put_hidden]
    rfl
  rw [State.claimWon_eq h, hepoch]
  generalize s.claimShown = x at *
  refine ⟨?_, ?_, ?_, ?_, ?_, ?_⟩
  · rw [State.pstate, State.get_report _ _ _ _ rfl (by decide) (by decide)]
    exact hpstate
  · rw [State.get_report _ _ _ _ rfl (by decide) (by decide), hholder]
  · rw [State.epoch, State.get_report _ _ _ _ rfl (by decide) (by decide)]
    exact hepoch
  · exact (Posts.of_event s x _ _ _ hregs.hif hregs.time (hkeeps _ (by decide)) (by decide)).cause _
  · rw [State.hidden_report, hhidden]
  · exact (hkeeps.mono (by simp)).report _ _ _ _ (by decide)

/-- A chip that hears a CLAIM answers and shows the peer as holder. -/
def State.claimHeard (s : State) (e : Nat) : State :=
  (s.setPar { s.par with leaseOut := some e, lastRenew := some s.time.cyc, expired := false }).put PAR_LEASE_HOLDER 2

/-- A write of the holder beside one of the pair's record. -/
theorem State.setPar_holder {c : Instr} {p : Par} {v : Nat} (h : exec c s = finish ((s.setPar p).put PAR_LEASE_HOLDER v)) (hv : v < 4) :
    ∃ t, exec c s = .next t ∧ t.get PAR_LEASE_HOLDER = v ∧ Alters s t { s with par := p } [PAR_LEASE] := by
  refine ⟨_, h, ?_, Alters.of_regsOnly rfl ((RegsOnly.refl (s.setPar p)).put _ _) (((Keeps.refl s _).setPar p).put _ _ (by decide))⟩
  rw [State.get_trackIrq, State.get_put_same _ _ _ rfl]
  exact Nat.mod_eq_of_lt hv

/-- The claim of a chip that hears a stronger one is gone (R474). -/
def State.claimDropped (s : State) (e : Nat) : State :=
  (s.setPar { s.par with epochSeen := max s.par.epochSeen e, claim := none }).setPState psUNSYNCED

theorem State.claimIn_crossed (hpaired : s.paired = true) (hholder : s.get PAR_LEASE_HOLDER ≠ 1) (hclaim : s.par.claim ≠ none)
    (hwins : s.epoch < e ∨ (s.epoch = e ∧ s.role = 2)) :
    s.claimIn e = ((s.claimDropped e).report Ev.LEASE_LOST 0xFFFF [s.epoch, 2] PAR_IRQ_CAUSE_LEASE).claimHeard e := by
  have hsome : s.par.claim.isSome = true := Option.ne_none_iff_isSome.mp hclaim
  exact (if_neg (by simp [hpaired, hholder])).trans ((if_pos hsome).trans (if_pos hwins))

/-- What a chip shows whose claim lost. -/
theorem State.claimIn_crossed_shows (hpaired : s.paired = true) (hholder : s.get PAR_LEASE_HOLDER ≠ 1) (hclaim : s.par.claim ≠ none)
    (hwins : s.epoch < e ∨ (s.epoch = e ∧ s.role = 2)) :
    let t := s.claimIn e
    t.pstate = psUNSYNCED ∧ t.get PAR_LEASE_HOLDER = 2 ∧ t.par.claim = none ∧ t.par.leaseOut = some e ∧
      Posts s t Ev.LEASE_LOST 0xFFFF [s.epoch, 2] ∧ t.hidden = { s with par := t.par }.hidden ∧
      Keeps s t ([PAR_STATUS, PAR_LEASE, PAR_IRQ_CAUSE] ++ evtRegs) := by
  have hregs : ParOnly s (s.claimDropped e) := ((ParOnly.refl s).setPar _).put _ _
  have hkeeps : Keeps s (s.claimDropped e) [PAR_STATUS] := ((Keeps.refl s _).setPar _).put _ _ (by decide)
  have hpstate : (s.claimDropped e).pstate = psUNSYNCED := State.get_put_same _ _ _ rfl
  have hpar : (s.claimDropped e).par.claim = none := by rw [State.claimDropped, State.setPState, State.put_par]; rfl
  rw [State.claimIn_crossed hpaired hholder hclaim hwins]
  generalize s.claimDropped e = x at *
  have hpost := (Posts.of_event s x Ev.LEASE_LOST 0xFFFF [s.epoch, 2] hregs.hif hregs.time (hkeeps _ (by decide)) (by decide)).cause
    PAR_IRQ_CAUSE_LEASE
  have hkept := (hkeeps.mono (m := [PAR_STATUS, PAR_LEASE, PAR_IRQ_CAUSE] ++ evtRegs) (by decide)).report Ev.LEASE_LOST 0xFFFF [s.epoch, 2]
    (f := PAR_IRQ_CAUSE_LEASE) (by decide)
  have hhidden := x.hidden_report Ev.LEASE_LOST 0xFFFF [s.epoch, 2] PAR_IRQ_CAUSE_LEASE
  have hstatus : (x.report Ev.LEASE_LOST 0xFFFF [s.epoch, 2] PAR_IRQ_CAUSE_LEASE).get PAR_STATUS_PSTATE = psUNSYNCED :=
    (State.get_report _ _ _ _ rfl (by decide) (by decide)).trans hpstate
  have hsame := x.par_report Ev.LEASE_LOST 0xFFFF [s.epoch, 2] PAR_IRQ_CAUSE_LEASE
  rw [← State.report] at hpost
  generalize x.report Ev.LEASE_LOST 0xFFFF [s.epoch, 2] PAR_IRQ_CAUSE_LEASE = r at *
  refine ⟨?_, State.get_put_same _ _ _ rfl, ?_, ?_, ?_, ?_, (hkept.setPar _).put _ _ (by decide)⟩
  · rw [State.pstate, State.claimHeard, State.get_put_apart _ _ _ _ rfl (.inl (by decide)), State.get_setPar, hstatus]
  · rw [State.claimHeard, State.put_par]
    exact (congrArg Par.claim hsame).trans hpar
  · rw [State.claimHeard, State.put_par]
    rfl
  · exact (hpost.setPar _).put _ _
  · rw [State.claimHeard, State.put_par, State.put_hidden, State.hidden_setPar, hhidden, hregs.hidden]
    rfl

end Lease

/-- Settles O52: a claim either waits (`State.claimSent_shows`) or wins (`State.claimWon_shows`); the other clauses write the holder and the
pair's record. -/
theorem pairLease : Obligations.PairLease := by
  unfold Obligations.PairLease
  refine ⟨?alone, ?sent, ?refused, ?acked, ?renew, ?renewed, ?claimed, ?kept, ?crossed, ?yielded, ?expired, ?auto⟩
  case alone =>
    intro s req hreq hrun hmay hdown hfence hepoch
    have heff : s.claimCmd = (s.put PAR_EPOCH_EPOCH s.nextEpoch).claimWon 1 := by
      refine (if_pos hmay).trans ((if_neg (by simp [hdown])).trans ?_)
      rw [State.mirrorSend_down ((s.on_put_apart _ _ _ rfl (.inl (by decide))).trans hdown)]
      rfl
    obtain ⟨hpstate, hholder, hown, hposts, hhidden, hkeeps⟩ := State.claimWon_shows (s := s.put PAR_EPOCH_EPOCH s.nextEpoch) 1
      ((s.on_put_apart _ _ _ rfl (.inl (by decide))).trans hfence)
    have hstart : Keeps s (s.put PAR_EPOCH_EPOCH s.nextEpoch) [PAR_EPOCH] := (Keeps.refl s _).put _ _ (by decide)
    have hhif : (s.put PAR_EPOCH_EPOCH s.nextEpoch).hif = s.hif := State.put_hif _ _ _
    have htime : (s.put PAR_EPOCH_EPOCH s.nextEpoch).time = s.time := State.put_time _ _ _
    have hpar : (s.put PAR_EPOCH_EPOCH s.nextEpoch).par = s.par := State.put_par _ _ _
    rw [State.epoch_put (s := s) (e := s.nextEpoch) hepoch] at hown hposts
    have hcmd := (State.reqWrite_island (fun s => s.claimCmd) islandOf_parCmd hreq hrun).trans heff
    generalize (s.put PAR_EPOCH_EPOCH s.nextEpoch).claimWon 1 = t at *
    refine ⟨_, congrArg finish hcmd, hpstate, hholder, hown, ?_, ?_, ?_⟩
    · rw [State.epoch, State.get_trackIrq, ← State.epoch, hown]
      exact (Posts.of_start hposts hhif htime (hstart _ (by decide))).trackIrq
    · rw [State.trackIrq_hidden, hhidden, hpar, htime]
      exact rfl
    · exact ((hstart.mono (by decide)).trans (hkeeps.mono (by decide))).trackIrq
  case sent =>
    intro s req hreq hrun hmay hup hepoch
    obtain ⟨hown, -, hregs, hkeeps⟩ := State.claimSent_shows (trig := 1) hepoch
    have hcmd := (State.reqWrite_island (fun s => s.claimCmd) islandOf_parCmd hreq hrun).trans ((if_pos hmay).trans (State.startClaim_up hup))
    generalize s.claimSent 1 = t at *
    exact ⟨_, congrArg finish hcmd, hown, Alters.of_regsOnly rfl hregs hkeeps⟩
  case refused =>
    intro s req hreq hrun hmay
    exact nextPutB (congrArg finish ((State.reqWrite_island (fun s => s.claimCmd) islandOf_parCmd hreq hrun).trans (if_neg (by simp [hmay])))) rfl
  case acked =>
    intro s trig hclaim hfence
    obtain ⟨hpstate, hholder, -, hposts, hhidden, hkeeps⟩ := State.claimWon_shows trig hfence
    have hexec : exec .claimAckReceived s = finish (s.claimWon trig) := by
      show finish _ = _
      rw [hclaim]
    generalize s.claimWon trig = t at *
    exact ⟨_, hexec, hpstate, hholder, hposts.trackIrq, hhidden, hkeeps⟩
  case renew =>
    intro s hpaired hholder hup
    exact nextSetPar (congrArg finish ((if_pos ⟨hpaired, hholder⟩).trans (State.mirrorSend_up hup)))
  case renewed =>
    intro s e hpaired hholder
    exact State.setPar_holder (congrArg finish ((if_neg (by simp [hpaired])).trans (if_neg hholder))) (by decide)
  case claimed =>
    intro s e hpaired hholder hclaim
    have hnone : ¬ s.par.claim.isSome = true := by simp [hclaim]
    exact State.setPar_holder (congrArg finish ((if_neg (by simp [hpaired, hholder])).trans (if_neg hnone))) (by decide)
  case kept =>
    intro s e hpaired hholder
    exact nextSetPar (congrArg finish (if_pos (by simp [hholder])))
  case crossed =>
    intro s e hpaired hholder hclaim hwins
    obtain ⟨hpstate, hpeer, hdropped, hout, hposts, hhidden, hkeeps⟩ := State.claimIn_crossed_shows hpaired hholder hclaim hwins
    have hexec : exec (.claimReceived e) s = finish (s.claimIn e.toNat) := rfl
    generalize s.claimIn e.toNat = t at *
    exact ⟨_, hexec, hpstate, hpeer, hdropped, hout, hposts.trackIrq, hhidden, hkeeps⟩
  case yielded =>
    intro s hpaired hholder hpstate hclaim hup hepoch
    generalize hx : (s.setPar { s.par with expired := true, afterExpiry := false, lastRenew := none }).put PAR_LEASE_HOLDER 0 = x
    have honly : ParOnly s x := by rw [← hx]; exact ((ParOnly.refl s).setPar _).put _ _
    have hkept : Keeps s x [PAR_LEASE] := by rw [← hx]; exact ((Keeps.refl s _).setPar _).put _ _ (by decide)
    have hpar : x.par = { s.par with expired := true, afterExpiry := false, lastRenew := none } := by rw [← hx, State.put_par]; rfl
    have hzero : x.get PAR_LEASE_HOLDER = 0 := by rw [← hx]; exact State.get_put_same _ _ _ rfl
    have hmay : x.mayClaim = true := by
      have hpair : x.paired = true := by rw [State.paired, State.role, hkept.get _ (by decide)]; exact hpaired
      have hstate : x.pstate = psSTANDBY := (hkept.get PAR_STATUS_PSTATE (by decide)).trans hpstate
      simp [State.mayClaim, hpair, hstate, hpar, hclaim]
    have hnext : x.nextEpoch = max s.epoch s.par.epochSeen + 1 := by
      rw [State.nextEpoch, State.epoch, hkept.get _ (by decide), hpar, ← State.epoch]
    obtain ⟨hown, hholder', hregs, hkeeps⟩ := State.claimSent_shows (s := x) (trig := 3) (hnext ▸ hepoch)
    have heff : s.yieldIn = x.claimSent 3 := by
      refine (if_neg (by simp [hpaired, hholder])).trans ?_
      rw [hx]
      exact (if_pos hmay).trans (State.startClaim_up ((hkept.on _ (by decide)).trans hup))
    generalize x.claimSent 3 = t at *
    rw [hpar] at hregs
    exact ⟨_, congrArg finish heff, hholder'.trans hzero, hown.trans hnext, Alters.of_regsOnly rfl (honly.trans hregs)
      ((hkept.mono (by decide)).trans (hkeeps.mono (by decide)))⟩
  case expired =>
    intro s hpaired hholder
    exact State.setPar_holder (congrArg finish (if_neg (by simp [hpaired, hholder]))) (by decide)
  case auto =>
    intro s hauto hmay hup hepoch
    obtain ⟨hown, -, hregs, hkeeps⟩ := State.claimSent_shows (trig := 2) hepoch
    have heff : (if s.on PAR_CFG_AUTO_CLAIM = true ∧ s.mayClaim = true then s.startClaim 2 else s) = s.claimSent 2 :=
      (if_pos ⟨hauto, hmay⟩).trans (State.startClaim_up hup)
    generalize s.claimSent 2 = t at *
    exact ⟨_, congrArg finish heff, hown, Alters.of_regsOnly rfl hregs hkeeps⟩

end Sys2Proof.Machine

namespace Sys2Proof.Machine

/-! ### A resync without a job, corrections and trims (R470) -/

section Resync
variable {s : State}

/-- The state in which a snapshot is sent, with the messages that stay unacknowledged: no record, and no older snapshot. -/
def State.resyncCounted (s : State) (u : List (Nat × MirrorMsg)) : State := (s.setPar { s.par with unacked := u }).addSat PAR_RESYNC_COUNT_COUNT 1

theorem State.axisRecord_congr {x : State} (haxes : x.axes = s.axes) (hregs : ∀ a, a ≠ PAR_RESYNC_COUNT → x.rget a = s.rget a) :
    x.axisRecord = s.axisRecord := by
  have hget (f : Fld) (h : f.off ≠ PAR_RESYNC_COUNT) : x.get f = s.get f := State.get_eq_of_rget _ _ _ (hregs _ h)
  have haxis (a : Nat) : x.axis a = s.axis a := by rw [State.axis, haxes, ← State.axis]
  have hreg (a : Nat) (ha : a < 16) : MOT_AX_CFG a ≠ PAR_RESYNC_COUNT ∧ MOT_AX_GEAR_NOW a ≠ PAR_RESYNC_COUNT := by
    unfold MOT_AX_CFG MOT_AX_GEAR_NOW PAR_RESYNC_COUNT
    omega
  unfold State.axisRecord
  rw [hget _ (by decide)]
  congr 1
  refine List.map_congr_left (fun a ha => ?_)
  obtain ⟨hcfg, hgear⟩ := hreg a (List.mem_range.mp ha)
  rw [haxis, hget (MOT_AX_CFG_MODE a) hcfg, State.getS, hget (MOT_AX_GEAR_NOW_RATIO a) hgear, ← State.getS]

/-- A record of a chip that journals is sent (R468). -/
theorem State.jrn_sends {r : JrnRec} (h : s.journals = true) : s.jrn r = s.setPar (s.par.sent (.record r)) := by
  have hup : s.on PAR_STATUS_MIRROR_UP = true := by
    unfold State.journals at h
    exact ((Bool.and_eq_true _ _).mp h).2
  exact (if_pos h).trans (State.mirrorSend_up hup)

/-- The pair's record after a bare snapshot: the regions, then the AXIS record. -/
def State.resyncPar (s : State) (u : List (Nat × MirrorMsg)) : Par :=
  let p := ({ s.par with unacked := u }.sent .regions).sent (.record s.axisRecord)
  { p with resync := some (p.txLsn, 0, s.time.cyc) }

/-- The state in which a snapshot is sent differs in the unacknowledged messages and the count. -/
theorem State.resyncCounted_shows (s : State) (u : List (Nat × MirrorMsg)) :
    ParOnly s (s.resyncCounted u) ∧ Keeps s (s.resyncCounted u) [PAR_RESYNC_COUNT] ∧ (s.resyncCounted u).par = { s.par with unacked := u } ∧
      (s.resyncCounted u).axisRecord = s.axisRecord := by
  have hkept : Keeps s (s.resyncCounted u) [PAR_RESYNC_COUNT] := ((Keeps.refl s _).setPar _).addSat _ _ (by decide)
  refine ⟨((ParOnly.refl s).setPar _).addSat _ _, hkept, ?_, ?_⟩
  · rw [State.resyncCounted, State.addSat_par, State.setPar_par]
  · refine State.axisRecord_congr ?_ (fun a ha => hkept a (List.mem_singleton.not.mpr ha))
    rw [State.resyncCounted, State.addSat_axes, State.setPar_axes]

/-- A resync without a job, corrections and trims sends the regions and the AXIS record. -/
theorem State.startResync_bare (hpaired : s.paired = true) (hpstate : s.pstate = psACTIVE) (hup : s.on PAR_STATUS_MIRROR_UP = true)
    (hcols : s.cal.cols = []) (htrims : s.ldg.trims = []) (hjob : s.press.job = none) :
    ∃ u, u.Sublist s.par.unacked ∧ s.startResync = (s.resyncCounted u).setPar (s.resyncPar u) := by
  have hguard : ¬ ((!s.paired) = true ∨ s.pstate ≠ psACTIVE ∨ ¬ s.on PAR_STATUS_MIRROR_UP = true) := by simp [hpaired, hpstate, hup]
  simp only [State.startResync, if_neg hguard]
  generalize hu : List.filter _ s.par.unacked = u
  refine ⟨u, hu ▸ List.filter_sublist, ?_⟩
  obtain ⟨honly, hkept, hpar, hrec⟩ := s.resyncCounted_shows u
  generalize hx : State.addSat _ PAR_RESYNC_COUNT_COUNT 1 = x
  rw [show s.resyncCounted u = x from hx] at honly hkept hpar hrec ⊢
  have hup' : x.on PAR_STATUS_MIRROR_UP = true := (hkept.on _ (by decide)).trans hup
  have hjournals : x.journals = true := by
    have hrole : (x.role != 0) = true := by rw [State.role, hkept.get PAR_CFG_ROLE (by decide)]; exact hpaired
    have hstate : x.pstate = psACTIVE := (hkept.get PAR_STATUS_PSTATE (by decide)).trans hpstate
    rw [State.journals, hrole, hstate, hup']
    rfl
  have hjrn (p : Par) (r : JrnRec) : (x.setPar p).jrn r = (x.setPar p).setPar (p.sent (.record r)) :=
    State.jrn_sends (s := x.setPar p) hjournals
  have haxis (p : Par) : (x.setPar p).axisRecord = s.axisRecord := hrec
  have hcols' : x.cal.cols = [] := by rw [honly]; exact hcols
  have htrims' : x.ldg.trims = [] := by rw [honly]; exact htrims
  have hjob' : x.press.job = none := by rw [honly]; exact hjob
  simp only [State.mirrorSend_up hup', State.setPar_cal, hcols', List.foldl_nil, State.setPar_ldg, htrims', List.map_nil, List.eraseDups_nil,
    haxis, hjrn, State.setPar_press, hjob', State.setPar_par, State.setPar_time, hpar, honly.time]
  rfl

end Resync

/-! ### The mirror port (R465 to R472) -/

section Mirror
variable {s x : State} {p : Par}

/-- A command that writes the pair's record and registers. -/
theorem Alters.of_par (h : ParOnly s x) {offs : List Nat} (hk : Keeps s x offs) : Alters s x.trackIrq { s with par := x.trackIrq.par } offs := by
  rw [State.trackIrq_par]
  exact Alters.of_regsOnly rfl h hk

/-- A report after a change of the pair's record and registers. -/
theorem ParOnly.reported (h : ParOnly s x) {offs : List Nat} (hk : Keeps s x offs) (hisland : RST_ISLAND 1 ∉ offs) (c : Nat) (l : List Nat) (f : Fld)
    (hc : c ≠ Ev.EVT_LOST) :
    let t := x.report c 0xFFFF l f
    Posts s t c 0xFFFF l ∧ t.hidden = { s with par := x.par }.hidden ∧ Keeps s t ((offs ++ [f.off]) ++ evtRegs) :=
  ⟨(Posts.of_event s x _ _ _ h.hif h.time (hk _ hisland) hc).cause _, (x.hidden_report _ _ _ _).trans h.hidden,
    (hk.mono (by simp +contextual)).report _ _ _ _ (by simp)⟩

theorem State.rget_setPar (s : State) (p : Par) (a : Nat) : (s.setPar p).rget a = s.rget a := rfl

/-- A packet of the peer that is taken (R466). -/
def Par.took (p : Par) (lsn : Nat) : Par := { p with rxLsn := (p.rxLsn + 1) % 4096, ackOut := some (lsn, 0) }

theorem State.mirrorIn_plain {lsn : Nat} (hpaired : s.paired = true) (hup : s.on PAR_STATUS_MIRROR_UP = true) (hlsn : lsn = s.par.rxLsn) :
    s.mirrorIn lsn true none none = s.setPar (s.par.took lsn) :=
  (if_neg (by simp [hpaired, hup])).trans ((if_neg (by decide)).trans (if_neg (by simp [hlsn])))

/-- The end of a resync makes an unsynchronised chip the standby (R470). -/
theorem State.mirrorIn_end {lsn bytes ms : Nat} (hpaired : s.paired = true) (hup : s.on PAR_STATUS_MIRROR_UP = true) (hlsn : lsn = s.par.rxLsn)
    (hpstate : s.pstate = psUNSYNCED) :
    s.mirrorIn lsn true none (some (.resyncEnd bytes ms)) =
      ((s.setPar { s.par.took lsn with dramUe := false }).setPState psSTANDBY).report Ev.RESYNC_DONE 0xFFFF [bytes, ms] PAR_IRQ_CAUSE_RESYNC :=
  (if_neg (by simp [hpaired, hup])).trans ((if_neg (by decide)).trans ((if_neg (by simp [hlsn])).trans (if_pos hpstate)))

/-- The start of a resync makes the standby unsynchronised. -/
theorem State.mirrorIn_start {lsn : Nat} (hpaired : s.paired = true) (hup : s.on PAR_STATUS_MIRROR_UP = true) (hlsn : lsn = s.par.rxLsn)
    (hpstate : s.pstate = psSTANDBY) :
    s.mirrorIn lsn true none (some .resyncStart) = (s.setPar (s.par.took lsn)).setPState psUNSYNCED :=
  (if_neg (by simp [hpaired, hup])).trans ((if_neg (by decide)).trans ((if_neg (by simp [hlsn])).trans (if_pos hpstate)))

/-- A packet that is not the next one, or whose CRC is wrong, is answered with a NAK (R466). -/
theorem State.mirrorIn_nak {lsn : Nat} {ok : Bool} {h : Option Word} {e : Option PairNote} (hpaired : s.paired = true)
    (hup : s.on PAR_STATUS_MIRROR_UP = true) (hbad : ok = false ∨ lsn ≠ s.par.rxLsn) :
    s.mirrorIn lsn ok h e = s.setPar { s.par with ackOut := some (lsn, if ok = true then 2 else 1) } := by
  refine (if_neg (by simp [hpaired, hup])).trans ?_
  cases ok with
  | false => exact if_pos (by decide)
  | true => exact (if_neg (by decide)).trans (if_pos (hbad.resolve_left (by decide)))

/-- A record of a journal that some records left and one joined. -/
theorem mem_of_kept {l : List JrnRec} {f : JrnRec → Bool} {r y : JrnRec} (h : y ∈ l.filter f ++ [r]) : y = r ∨ y ∈ l := by
  rcases List.mem_append.mp h with h | h
  · exact .inr (List.mem_filter.mp h).1
  · exact .inl (List.mem_singleton.mp h)

/-- A shown state beside a change of the pair's record. -/
theorem State.pstate_setPState (s : State) {n : Nat} (h : n < 8) : (s.setPState n).pstate = n := by
  rw [State.pstate, State.setPState, State.get_put_same _ _ _ rfl]
  exact Nat.mod_eq_of_lt h

theorem State.pstate_report (s : State) (c u : Nat) (l : List Nat) {f : Fld} (hok : f.ok = true) (hf : f.off ≠ PAR_STATUS) :
    (s.report c u l f).pstate = s.pstate := State.get_report _ _ _ _ hok hf (by decide)

/-- Without a job no PAGE_RETIRED waits. -/
theorem State.releaseRetired_none (h : s.press.job = none) (t : PageRec → Bool) : s.releaseRetired t = s := by rw [State.releaseRetired, h]

/-- An ACK of the oldest message, one without an effect, outside a resync. -/
theorem State.mirrorAck_health {lsn : Nat} {w : Word} {u : List (Nat × MirrorMsg)} (hun : s.par.unacked = (lsn, .health w) :: u)
    (hresync : s.par.resync = none) : s.mirrorAck lsn false = s.setPar { s.par with unacked := u } := by
  have hsplit : ackSplit lsn ((lsn, .health w) :: u) = ([.health w], u) := by simp [ackSplit, List.findIdx_cons]
  simp [State.mirrorAck, hun, hsplit, hresync]

/-- A lane after the standby loopback tests start (R484, R536). -/
theorem State.lane_loopTests (l : Fin 52) (hlen : s.lanes.length = 52) :
    s.loopTests.lane l = if l.val < 48 ∧ s.loopTestable l = true then { s.lane l with testing := true } else s.lane l := by
  have hl : l.val < s.lanes.length := hlen.symm ▸ l.isLt
  simp [State.lane, State.loopTests, List.getD_eq_getElem?_getD, hl]

/-- The mirror link of a standby is lost (R467). -/
def State.mirrorLost (s : State) : State := (s.putB PAR_STATUS_MIRROR_UP false).setPar { s.par with downAt := some s.time.cyc, resync := none }

theorem State.mirrorDown_standby {lane : Nat} (hup : s.on PAR_STATUS_MIRROR_UP = true) (hpstate : s.pstate = psSTANDBY) :
    s.mirrorDown lane = (s.mirrorLost.report Ev.MIRROR_DOWN 0xFFFF [48 + lane, psSTANDBY] PAR_IRQ_CAUSE_MIRROR).setPState psUNSYNCED := by
  refine (if_neg (by simp [hup])).trans ((if_pos hpstate).trans ?_)
  rw [hpstate]
  rfl

/-- Only an active chip of a pair begins a resync (R470). -/
theorem State.startResync_passive (h : s.pstate ≠ psACTIVE) : s.startResync = s := if_pos (.inr (.inl h))

/-- The mirror link returns (R467). -/
def State.mirrorBack (s : State) : State :=
  (s.putB PAR_STATUS_MIRROR_UP true).setPar { s.par with downAt := none, txLsn := 0, rxLsn := 0, unacked := [] }

theorem State.mirrorUp_passive (hpaired : s.paired = true) (hdown : s.on PAR_STATUS_MIRROR_UP = false) (hpstate : s.pstate ≠ psACTIVE) :
    s.mirrorUp = s.mirrorBack.report Ev.MIRROR_UP 0xFFFF [] PAR_IRQ_CAUSE_MIRROR := by
  refine (if_neg (by simp [hpaired, hdown])).trans (State.startResync_passive (s := s.mirrorBack.report Ev.MIRROR_UP 0xFFFF [] PAR_IRQ_CAUSE_MIRROR) ?_)
  rw [State.pstate_report _ _ _ _ rfl (by decide)]
  refine ne_of_eq_of_ne ?_ hpstate
  exact State.get_putB_apart s _ _ _ rfl (.inr (by decide))

/-- A health word without a change of READY (R484). -/
def State.healthWord (s : State) (ports : Nat) : Nat :=
  b2n s.ready + 2 * b2n s.par.sramOk + 4 * b2n s.par.mramOk + 8 * b2n (!s.par.dramUe) + 256 * ports

theorem State.healthWord_lt {ports : Nat} (h : ports < 2 ^ 24) : s.healthWord ports < 2 ^ 32 := by
  have hb (b : Bool) : b2n b ≤ 1 := by cases b <;> decide
  have h1 := hb s.ready
  have h2 := hb s.par.sramOk
  have h3 := hb s.par.mramOk
  have h4 := hb (!s.par.dramUe)
  unfold State.healthWord
  omega

theorem State.health_same {ports : Nat} (hready : s.ready = s.on PAR_HEALTH_READY) (hup : s.on PAR_STATUS_MIRROR_UP = true) :
    s.health ports = (s.rset PAR_HEALTH (BitVec.ofNat 32 (s.healthWord ports))).setPar (s.par.sent (.health (BitVec.ofNat 32 (s.healthWord ports)))) := by
  have hup' : (s.rset PAR_HEALTH (BitVec.ofNat 32 (s.healthWord ports))).on PAR_STATUS_MIRROR_UP = true :=
    (State.on_eq_of_get _ _ _ (State.get_eq_of_rget _ _ _ (State.rget_rset_ne _ _ _ _ (by decide)))).trans hup
  exact (if_pos hready).trans (State.mirrorSend_up hup')

end Mirror

/-- Settles O54: a packet is taken (`State.mirrorIn_plain`, `State.mirrorIn_end`, `State.mirrorIn_start`) or answered with a NAK
(`State.mirrorIn_nak`); a resync sends the snapshot (`State.startResync_bare`); the other clauses write the pair's record. -/
theorem mirrorAndJournal : Obligations.MirrorAndJournal := by
  unfold Obligations.MirrorAndJournal
  refine ⟨?took, ?nak, ?resynced, ?unsynced, ?page, ?retire, ?timeout, ?nakIn, ?ack, ?down, ?up, ?solo, ?resync, ?health, ?sram, ?mram, ?lanes, ?axis⟩
  case took => exact fun s lsn hpaired hup hlsn => nextSetPar (congrArg finish (State.mirrorIn_plain hpaired hup hlsn))
  case nak => exact fun s lsn ok h e hpaired hup hbad => nextSetPar (congrArg finish (State.mirrorIn_nak hpaired hup hbad))
  case resynced =>
    intro s lsn bytes ms hpaired hup hlsn hpstate
    have heff := State.mirrorIn_end (bytes := bytes) (ms := ms) hpaired hup hlsn hpstate
    have hstate := ((s.setPar { s.par.took lsn.toNat with dramUe := false }).pstate_setPState (n := psSTANDBY) (by decide))
    have honly : ParOnly s ((s.setPar { s.par.took lsn.toNat with dramUe := false }).setPState psSTANDBY) := ((ParOnly.refl s).setPar _).put _ _
    have hkeeps : Keeps s ((s.setPar { s.par.took lsn.toNat with dramUe := false }).setPState psSTANDBY) [PAR_STATUS] :=
      ((Keeps.refl s _).setPar _).put _ _ (by decide)
    generalize State.setPState _ psSTANDBY = x at *
    obtain ⟨hposts, hhidden, hkept⟩ := honly.reported hkeeps (by decide) Ev.RESYNC_DONE [bytes, ms] PAR_IRQ_CAUSE_RESYNC (by decide)
    rw [← x.par_report Ev.RESYNC_DONE 0xFFFF [bytes, ms] PAR_IRQ_CAUSE_RESYNC] at hhidden
    exact ⟨_, congrArg finish heff, (x.pstate_report _ _ _ rfl (by decide)).trans hstate, hposts.trackIrq, hhidden, hkept⟩
  case unsynced =>
    intro s lsn hpaired hup hlsn hpstate
    have heff := State.mirrorIn_start hpaired hup hlsn hpstate
    have hstate := (s.setPar (s.par.took lsn.toNat)).pstate_setPState (n := psUNSYNCED) (by decide)
    exact ⟨_, congrArg finish heff, hstate, Alters.of_par (((ParOnly.refl s).setPar _).put _ _) (((Keeps.refl s _).setPar _).put _ _ (by decide))⟩
  case page =>
    intro s d ring first hpaired hpstate
    exact nextSetPar (congrArg finish (if_neg (by simp [hpaired, hpstate])))
  case retire =>
    intro s id st fl hpaired hpstate
    have hguard : ¬ ((!s.paired) = true ∨ s.pstate ≠ psUNSYNCED ∧ s.pstate ≠ psSTANDBY) := by simp [hpaired, hpstate]
    refine ⟨_, congrArg finish (if_neg hguard), List.mem_append_right _ (List.mem_singleton_self _), fun r hr => mem_of_kept hr, ?_, ?_⟩
    · intro r hr hkind
      refine (mem_of_kept hr).resolve_left ?_
      rintro rfl
      cases hkind
    · exact Alters.of_regsOnly rfl (RegsOnly.refl (s.setPar _)) (Keeps.refl s _)
  case timeout => exact fun s => ⟨_, rfl, State.get_addSat_same s _ _ rfl, Silent.of_regsOnly ((RegsOnly.refl s).addSat _ _) ((Keeps.refl s _).addSat _ _ (by decide))⟩
  case nakIn => exact fun s lsn => ⟨_, rfl, State.get_addSat_same s _ _ rfl, Silent.of_regsOnly ((RegsOnly.refl s).addSat _ _) ((Keeps.refl s _).addSat _ _ (by decide))⟩
  case ack => exact fun s lsn w u hun hresync => nextSetPar (congrArg finish (State.mirrorAck_health hun hresync))
  case down =>
    intro s lane hup hpstate
    have heff := State.mirrorDown_standby (lane := lane) hup hpstate
    have honly : ParOnly s s.mirrorLost := ((ParOnly.refl s).putB _ _).setPar _
    have hkeeps : Keeps s s.mirrorLost [PAR_STATUS] := ((Keeps.refl s _).putB _ _ (by decide)).setPar _
    have hlost : s.mirrorLost.on PAR_STATUS_MIRROR_UP = false := State.on_putB_same s _ _ rfl
    have hpar : s.mirrorLost.par = { s.par with downAt := some s.time.cyc, resync := none } := State.setPar_par _ _
    generalize s.mirrorLost = x at *
    obtain ⟨hposts, hhidden, hkept⟩ := honly.reported hkeeps (by decide) Ev.MIRROR_DOWN [48 + lane, psSTANDBY] PAR_IRQ_CAUSE_MIRROR (by decide)
    have hoff : (x.report Ev.MIRROR_DOWN 0xFFFF [48 + lane, psSTANDBY] PAR_IRQ_CAUSE_MIRROR).on PAR_STATUS_MIRROR_UP = false :=
      (State.on_eq_of_get _ _ _ (State.get_report _ _ _ _ rfl (by decide) (by decide))).trans hlost
    generalize x.report Ev.MIRROR_DOWN 0xFFFF [48 + lane, psSTANDBY] PAR_IRQ_CAUSE_MIRROR = r at *
    refine ⟨_, congrArg finish heff, ?_, r.pstate_setPState (by decide), (hposts.put _ _).trackIrq, ?_, (hkept.put _ _ (by decide)).trackIrq⟩
    · exact (State.on_put_apart r _ _ _ rfl (.inr (by decide))).trans hoff
    · rw [State.trackIrq_hidden, State.setPState, State.put_hidden, hhidden, hpar]
  case up =>
    intro s hpaired hdown hpstate
    have heff := State.mirrorUp_passive hpaired hdown hpstate
    have honly : ParOnly s s.mirrorBack := ((ParOnly.refl s).putB _ _).setPar _
    have hkeeps : Keeps s s.mirrorBack [PAR_STATUS] := ((Keeps.refl s _).putB _ _ (by decide)).setPar _
    have hback : s.mirrorBack.on PAR_STATUS_MIRROR_UP = true := State.on_putB_same s _ _ rfl
    have hpar : s.mirrorBack.par = { s.par with downAt := none, txLsn := 0, rxLsn := 0, unacked := [] } := State.setPar_par _ _
    generalize s.mirrorBack = x at *
    obtain ⟨hposts, hhidden, hkept⟩ := honly.reported hkeeps (by decide) Ev.MIRROR_UP [] PAR_IRQ_CAUSE_MIRROR (by decide)
    refine ⟨_, congrArg finish heff, ?_, hposts.trackIrq, ?_, hkept⟩
    · exact (State.on_eq_of_get _ _ _ (State.get_report _ _ _ _ rfl (by decide) (by decide))).trans hback
    · rw [State.trackIrq_hidden, hhidden, hpar]
  case solo =>
    intro s hpaired hdown hpstate hjob
    have hrelease : (s.putB PAR_STATUS_SOLO true).releaseRetired (fun _ => true) = s.putB PAR_STATUS_SOLO true :=
      State.releaseRetired_none ((congrArg Press.job (State.putB_press _ _ _)).trans hjob) _
    exact nextPutB (congrArg finish ((if_pos ⟨hpaired, by simp [hdown], .inl hpstate⟩).trans hrelease)) rfl
  case resync =>
    intro s req hreq hrun hpaired hpstate hup hcols htrims hjob hun
    obtain ⟨u, hu, heff⟩ := State.startResync_bare hpaired hpstate hup hcols htrims hjob
    rw [hun, List.sublist_nil] at hu
    subst hu
    obtain ⟨honly, hkept, -, -⟩ := s.resyncCounted_shows []
    have hcount : (s.resyncCounted []).get PAR_RESYNC_COUNT_COUNT = min (2 ^ 32 - 1) (s.get PAR_RESYNC_COUNT_COUNT + 1) := State.get_addSat_same _ _ _ rfl
    have hcmd := (State.reqWrite_island (fun s => s.startResync) islandOf_parCmd hreq hrun).trans heff
    generalize s.resyncCounted [] = x at *
    exact ⟨_, congrArg finish hcmd, hcount, rfl, rfl, Alters.of_par (honly.setPar _) (hkept.setPar _)⟩
  case health =>
    intro s ports hpaired hready hup
    have hword : ((s.rset PAR_HEALTH (BitVec.ofNat 32 (s.healthWord ports.toNat))).rget PAR_HEALTH) = BitVec.ofNat 32 (s.healthWord ports.toNat) :=
      State.rget_rset_same _ _ _
    have hkeeps : Keeps s (s.rset PAR_HEALTH (BitVec.ofNat 32 (s.healthWord ports.toNat))) [PAR_HEALTH] := (Keeps.refl s _).rset _ _ (by decide)
    have honly : ParOnly s (s.rset PAR_HEALTH (BitVec.ofNat 32 (s.healthWord ports.toNat))) := (ParOnly.refl s).rset _ _
    have heff : (if s.paired = true then s.health ports.toNat else s) = _ := (if_pos hpaired).trans (State.health_same hready hup)
    generalize State.rset _ PAR_HEALTH _ = x at *
    refine ⟨_, congrArg finish heff, ?_, ?_, Alters.of_par (honly.setPar _) (hkeeps.setPar _)⟩
    · rw [State.rget_trackIrq]
      exact (congrArg BitVec.toNat hword).trans (Nat.mod_eq_of_lt (State.healthWord_lt ports.isLt))
    · rw [State.rget_trackIrq, State.rget_setPar, hword]
      rfl
  case sram => exact fun s ok hpstate => nextSetPar (congrArg finish (if_pos (.inr hpstate)))
  case mram => exact fun s ok hpstate => nextSetPar (congrArg finish (if_pos (.inr hpstate)))
  case lanes =>
    intro s ok hpstate hlen
    exact ⟨_, congrArg finish (if_pos (.inr hpstate)), Alters.of_regsOnly rfl (RegsOnly.refl s.loopTests) (Keeps.refl s _),
      fun l => State.lane_loopTests l hlen⟩
  case axis =>
    intro s hjournals
    refine ⟨_, rfl, fun hlag => ?_⟩
    have heff : (s.jrn s.axisRecord).lagCheck = s.setPar (s.par.sent (.record s.axisRecord)) := by
      rw [State.lagCheck, hlag, State.jrn_sends hjournals]
      rfl
    rw [heff]
    exact Alters.of_regsOnly rfl (RegsOnly.refl (s.setPar _)) (Keeps.refl s _)

end Sys2Proof.Machine

namespace Sys2Proof.Machine

/-! ### What RST_ISLAND shows (R494, R495) -/

/-- The fields of RST_ISLAND. -/
structure IslandShows where
  rstate : Nat
  fenced : Bool
  clk : Bool
  mhz : Nat

/-- What an island shows. -/
def State.island (s : State) (k : Nat) : IslandShows :=
  ⟨s.get (RST_ISLAND_RSTATE k), s.on (RST_ISLAND_FENCED k), s.on (RST_ISLAND_CLK_GOOD k), s.get (RST_ISLAND_MHZ k)⟩

section Shows
variable {s x : State} {j k rs : Nat}

theorem State.island_of_rget (h : x.rget (RST_ISLAND k) = s.rget (RST_ISLAND k)) : x.island k = s.island k := by
  have hget (f : Fld) (hf : f.off = RST_ISLAND k) : x.get f = s.get f := State.get_eq_of_rget _ _ _ (hf ▸ h)
  simp only [State.island, State.on, hget (RST_ISLAND_RSTATE k) rfl, hget (RST_ISLAND_FENCED k) rfl, hget (RST_ISLAND_CLK_GOOD k) rfl,
    hget (RST_ISLAND_MHZ k) rfl]

theorem State.islandRuns_eq (s : State) (k : Nat) : s.islandRuns k = ((s.island k).rstate == 0 && !(s.island k).fenced) := by
  have hlt : s.get (RST_ISLAND_FENCED k) < 2 := State.get_lt _ _
  have hbit : (s.get (RST_ISLAND_FENCED k) == 0) = !(s.get (RST_ISLAND_FENCED k) == 1) := by
    rcases Nat.lt_succ_iff_lt_or_eq.mp hlt with h | h
    · rw [Nat.lt_one_iff.mp h]; rfl
    · rw [h]; rfl
  exact congrArg (s.get (RST_ISLAND_RSTATE k) == 0 && ·) hbit

theorem State.islandRuns_of_island (h : x.island k = s.island k) : x.islandRuns k = s.islandRuns k := by
  rw [State.islandRuns_eq, State.islandRuns_eq, h]

theorem rstIsland_ne (h : j ≠ k) : RST_ISLAND j ≠ RST_ISLAND k := by
  unfold RST_ISLAND
  omega

theorem State.rget_setIsland_ne (s : State) (rs : Nat) {a : Nat} (h : RST_ISLAND k ≠ a) : (s.setIsland k rs).rget a = s.rget a := by
  rw [State.setIsland, State.rget_putB_ne _ _ _ _ h, State.rget_put_ne _ _ _ _ h]

theorem State.island_setIsland_ne (s : State) (rs : Nat) (h : j ≠ k) : (s.setIsland k rs).island j = s.island j :=
  State.island_of_rget (s.rget_setIsland_ne rs (rstIsland_ne h.symm))

theorem State.island_setIsland_same (s : State) (k : Nat) (h : rs < 4) :
    (s.setIsland k rs).island k = { s.island k with rstate := rs, fenced := rs != 0 } := by
  have hrs : ((s.put (RST_ISLAND_RSTATE k) rs).putB (RST_ISLAND_FENCED k) (rs != 0)).get (RST_ISLAND_RSTATE k) = rs := by
    rw [State.get_putB_apart _ _ _ _ rfl (Fld.apart_of_bits rfl), State.get_put_same _ _ _ rfl]
    exact Nat.mod_eq_of_lt h
  simp only [State.setIsland, State.island, hrs, State.on_putB_same _ (RST_ISLAND_FENCED k) _ rfl]
  rw [State.on_putB_apart _ _ (RST_ISLAND_CLK_GOOD k) _ rfl (Fld.apart_of_bits rfl), State.on_put_apart _ _ _ _ rfl (Fld.apart_of_bits rfl),
    State.get_putB_apart _ _ (RST_ISLAND_MHZ k) _ rfl (Fld.apart_of_bits rfl), State.get_put_apart _ _ _ _ rfl (Fld.apart_of_bits rfl)]

theorem State.island_clkLost (s : State) (k : Nat) :
    (s.putB (RST_ISLAND_CLK_GOOD k) false).island k = { s.island k with clk := false } := by
  simp only [State.island, State.on_putB_same _ (RST_ISLAND_CLK_GOOD k) _ rfl]
  rw [State.get_putB_apart _ _ (RST_ISLAND_RSTATE k) _ rfl (Fld.apart_of_bits rfl),
    State.on_putB_apart _ _ (RST_ISLAND_FENCED k) _ rfl (Fld.apart_of_bits rfl),
    State.get_putB_apart _ _ (RST_ISLAND_MHZ k) _ rfl (Fld.apart_of_bits rfl)]

theorem RegsOnly.setIsland (h : RegsOnly s x) (k rs : Nat) : RegsOnly s (x.setIsland k rs) := (h.put _ _).putB _ _

theorem Keeps.setIsland {l : List Nat} (h : Keeps s x l) (k rs : Nat) (hk : RST_ISLAND k ∈ l) : Keeps s (x.setIsland k rs) l :=
  (h.put _ _ hk).putB _ _ hk

end Shows

/-- A fold of which only the step at an index changes what that index shows. -/
theorem foldl_at {α β : Type} {π : α → β} {f : α → Nat → α} {g : β → β} {P : α → Prop} {L : List Nat} {j : Nat}
    (hother : ∀ y, ∀ k ∈ L, k ≠ j → π (f y k) = π y) (hsame : ∀ y, P y → π (f y j) = g (π y)) (hP : ∀ y, ∀ k ∈ L, P y → P (f y k))
    (hL : L.Nodup) (a : α) (ha : P a) : π (L.foldl f a) = if j ∈ L then g (π a) else π a := by
  induction L generalizing a with
  | nil => rfl
  | cons k L ih =>
    obtain ⟨hk, hL⟩ := List.nodup_cons.mp hL
    have hrest := ih (fun y i hi => hother y i (List.mem_cons_of_mem _ hi)) (fun y i hi => hP y i (List.mem_cons_of_mem _ hi)) hL (f a k)
      (hP a k List.mem_cons_self ha)
    rw [List.foldl_cons, hrest]
    by_cases hj : k = j
    · subst hj
      rw [if_neg hk, if_pos List.mem_cons_self, hsame a ha]
    · rw [hother a k List.mem_cons_self hj]
      simp only [List.mem_cons, Ne.symm hj, false_or]

/-! ### What a reset of an island leaves (R494, R497) -/

/-- The record of resets in progress, and the holds of WEB_STOP. -/
structure ResetView where
  asserted : List Nat
  cover : List Nat
  todo : List Nat
  strapHold : Bool
  corePwr : Bool
  resetStop : Bool
  thermStop : Bool

def State.resetView (s : State) : ResetView :=
  ⟨s.rst.asserted, s.rst.cover, s.rst.todo, s.rst.strapHold, s.rst.corePwr, s.web.resetStop, s.web.thermStop⟩

/-- The registers that a reset of an island writes. -/
def wipeWrites (k a : Nat) : Prop :=
  (islandOf a = k ∧ resetKeeps a = false) ∨ (k = 1 ∧ a = GLB_IRQ_EN) ∨ (k = 2 ∧ a = MOT_WEB_STATUS) ∨ (k = 11 ∧ a = PAR_STATUS)

section Wipe
variable {s x : State} {k a : Nat}

theorem RegFile.get_drop_ne (r : RegFile) {t : Nat → Bool} (h : t a = false) : RegFile.get (r.drop t) a = RegFile.get r a := by
  induction r with
  | nil => rfl
  | cons e r ih =>
    unfold RegFile.drop at *
    by_cases he : e.1 = a
    · simp [he, h, RegFile.get]
    · cases ht : t e.1 with
      | true => simpa [ht, RegFile.get, he] using ih
      | false => simpa [ht, RegFile.get, he] using ih

/-- The registers that read their reset values after a reset of an island. -/
def dropped (k a : Nat) : Bool := (islandOf a == k && !resetKeeps a) || (k == 1 && a == GLB_IRQ_EN)

/-- What a reset drops of the registers, of reads in progress and of the recorded faults. -/
def State.dropIsland (s : State) (k : Nat) : State :=
  { s with
    regs := s.regs.drop (dropped k)
    read := { s.read with latch := s.read.latch.filter (fun e => islandOf e.2.1 != k) }
    unitFaults := s.unitFaults.filter (fun e => unitIsland e.1 != k) }

theorem State.rget_dropIsland_kept (s : State) (h : dropped k a = false) : (s.dropIsland k).rget a = s.rget a := RegFile.get_drop_ne s.regs h
theorem State.rget_dropIsland_reset (s : State) (h : dropped k a = true) : (s.dropIsland k).rget a = resetOf a := RegFile.get_drop s.regs h

theorem State.wipeIsland_page (s : State) : s.wipeIsland 2 = (s.clearIsland 2).dropIsland 2 := rfl
theorem State.wipeIsland_pair (s : State) : s.wipeIsland 13 = ((s.dropIsland 13).clearIsland 13).put PAR_CFG_ROLE (s.get PAR_CFG_ROLE) := rfl

theorem State.wipeIsland_other (s : State) (h : k ≠ 2) (h' : k ≠ 13) : s.wipeIsland k = (s.dropIsland k).clearIsland k := by
  simp only [State.wipeIsland, h, h', if_false]
  rfl

/-- A projection that neither part of a reset changes, and no write of a register. -/
theorem State.wipeIsland_keeps {β : Type} (π : State → β) (hdrop : ∀ y, π (y.dropIsland k) = π y) (hclear : ∀ y, π (y.clearIsland k) = π y)
    (hput : ∀ y f v, π (State.put y f v) = π y) : π (s.wipeIsland k) = π s := by
  by_cases h2 : k = 2
  · subst h2
    rw [State.wipeIsland_page, hdrop, hclear]
  · by_cases h13 : k = 13
    · subst h13
      rw [State.wipeIsland_pair, hput, hclear, hdrop]
    · rw [State.wipeIsland_other s h2 h13, hclear, hdrop]

theorem State.rget_clearIsland (s : State) (h : ¬(k = 2 ∧ a = MOT_WEB_STATUS)) (h' : ¬(k = 11 ∧ a = PAR_STATUS)) :
    (s.clearIsland k).rget a = s.rget a := by
  unfold State.clearIsland
  split
  case h_3 => exact State.rget_put_ne _ _ _ _ fun e => h ⟨rfl, e.symm⟩
  case h_4 => exact State.rget_putB_ne _ _ _ _ fun e => h' ⟨rfl, e.symm⟩
  all_goals rfl

theorem State.rget_dropIsland (s : State) (h : ¬(islandOf a = k ∧ resetKeeps a = false)) (h' : ¬(k = 1 ∧ a = GLB_IRQ_EN)) :
    (s.dropIsland k).rget a = s.rget a := by
  refine s.rget_dropIsland_kept (Bool.eq_false_iff.mpr fun hdrop => ?_)
  simp only [dropped, Bool.or_eq_true, Bool.and_eq_true, beq_iff_eq, Bool.not_eq_true'] at hdrop
  exact hdrop.elim h h'

theorem State.rget_wipeIsland (s : State) (h : ¬wipeWrites k a) : (s.wipeIsland k).rget a = s.rget a := by
  simp only [wipeWrites, not_or] at h
  obtain ⟨hdrop, hirq, hweb, hpar⟩ := h
  have hclear (y : State) : (y.clearIsland k).rget a = y.rget a := y.rget_clearIsland hweb hpar
  have hdropped (y : State) : (y.dropIsland k).rget a = y.rget a := y.rget_dropIsland hdrop hirq
  by_cases h2 : k = 2
  · subst h2
    rw [State.wipeIsland_page, hdropped, hclear]
  · by_cases h13 : k = 13
    · subst h13
      rw [State.wipeIsland_pair, State.rget_put_ne, hclear, hdropped]
      rintro rfl
      exact hdrop (by decide)
    · rw [State.wipeIsland_other s h2 h13, hclear, hdropped]

/-- RST_ISLAND survives every reset. -/
theorem island_not_wiped (j : Fin 17) : ¬wipeWrites k (RST_ISLAND j) := by
  have hkeeps : ∀ j : Fin 17, resetKeeps (RST_ISLAND j) = true ∧ RST_ISLAND j ≠ GLB_IRQ_EN ∧ RST_ISLAND j ≠ MOT_WEB_STATUS ∧ RST_ISLAND j ≠ PAR_STATUS := by
    decide
  obtain ⟨h, hirq, hweb, hpar⟩ := hkeeps j
  simp [wipeWrites, h, hirq, hweb, hpar]

theorem State.island_wipeIsland (s : State) (k : Nat) (j : Fin 17) : (s.wipeIsland k).island j = s.island j :=
  State.island_of_rget (s.rget_wipeIsland (island_not_wiped j))

theorem State.resetView_wipeIsland (s : State) (k : Nat) : (s.wipeIsland k).resetView = s.resetView := by
  refine State.wipeIsland_keeps State.resetView (fun y => rfl) (fun y => ?_) (fun y f v => rfl)
  unfold State.clearIsland
  split <;> rfl

theorem State.hif_wipeIsland (s : State) (hk : k ≠ 1) : (s.wipeIsland k).hif = s.hif := by
  refine State.wipeIsland_keeps (fun y => y.hif) (fun y => rfl) (fun y => ?_) (fun y f v => rfl)
  unfold State.clearIsland
  split
  case h_2 => exact absurd rfl hk
  all_goals rfl

theorem State.thm_wipeIsland (s : State) (hk : k ≠ 0) : (s.wipeIsland k).thm = s.thm := by
  refine State.wipeIsland_keeps (fun y => y.thm) (fun y => rfl) (fun y => ?_) (fun y f v => rfl)
  unfold State.clearIsland
  split
  case h_1 => exact absurd rfl hk
  all_goals rfl

theorem State.pt_wipeIsland (s : State) (k : Nat) : (s.wipeIsland k).time.pt = if k = 0 then 0 else s.time.pt := by
  by_cases hk : k = 0
  · subst hk; rfl
  · rw [if_neg hk]
    refine State.wipeIsland_keeps (fun y => y.time.pt) (fun y => rfl) (fun y => ?_) (fun y f v => rfl)
    unfold State.clearIsland
    split
    case h_1 => exact absurd rfl hk
    all_goals rfl

/-- A line of authority that is low stays low. -/
theorem State.auth_wipeIsland (k : Nat) (h : s.on PAR_STATUS_AUTH = false) : (s.wipeIsland k).on PAR_STATUS_AUTH = false := by
  by_cases h11 : k = 11
  · subst h11
    rw [State.wipeIsland_other s (by decide) (by decide)]
    refine Eq.trans (State.on_putB_apart (s.dropIsland 11) PAR_STATUS_MIRROR_UP PAR_STATUS_AUTH false rfl (Fld.apart_of_bits rfl)) ?_
    exact (State.on_eq_of_get _ _ _ (State.get_eq_of_rget _ _ _ (s.rget_dropIsland (by decide) (by decide)))).trans h
  · by_cases h13 : k = 13
    · subst h13
      rw [State.wipeIsland_pair, State.on_put_apart _ _ _ _ rfl (.inl (by decide))]
      have hdropped : (s.dropIsland 13).rget PAR_STATUS = resetOf PAR_STATUS := s.rget_dropIsland_reset (by decide)
      have hword := ((s.dropIsland 13).rget_clearIsland (k := 13) (a := PAR_STATUS) (by decide) (by decide)).trans hdropped
      rw [State.on, State.get, show PAR_STATUS_AUTH.off = PAR_STATUS from rfl, hword]
      decide
    · refine (State.on_eq_of_get _ _ _ (State.get_eq_of_rget _ _ _ (s.rget_wipeIsland ?_))).trans h
      have hisland : islandOf PAR_STATUS = 13 := by decide
      simp only [wipeWrites, show PAR_STATUS_AUTH.off = PAR_STATUS from rfl, hisland]
      rintro (⟨e, -⟩ | ⟨-, e⟩ | ⟨-, e⟩ | ⟨e, -⟩)
      · exact h13 e.symm
      · exact absurd e (by decide)
      · exact absurd e (by decide)
      · exact h11 e

end Wipe

end Sys2Proof.Machine

namespace Sys2Proof.Machine

/-! ### Changes that only add entries (R75) -/

/-- Registers that `W` does not hold of stay, the link stays as it is, and entries are only added. -/
structure Acts (W : Nat → Prop) (s x : State) : Prop extends GoesOn s x, Extends W s x where
  queue : s.hif.evtQueue.length ≤ x.hif.evtQueue.length

section Acts
variable {W V : Nat → Prop} {s x y : State}

theorem Acts.refl (s : State) : Acts W s s := ⟨GoesOn.refl s, Extends.refl s, le_refl _⟩

theorem Acts.trans (h : Acts W s x) (h' : Acts W x y) : Acts W s y :=
  ⟨h.toGoesOn.trans h'.toGoesOn, h.toExtends.trans h'.toExtends, h.queue.trans h'.queue⟩

theorem Acts.mono (h : Acts W s x) (hWV : ∀ a, W a → V a) : Acts V s x :=
  ⟨h.toGoesOn, ⟨fun a ha => h.rget a fun hw => ha (hWV a hw), h.entries⟩, h.queue⟩

theorem Acts.foldl {α : Type} {f : State → α → State} (l : List α) (hf : ∀ y, ∀ a ∈ l, Acts W y (f y a)) (s : State) : Acts W s (l.foldl f s) :=
  List.foldlRecOn (motive := Acts W s) l f (Acts.refl s) fun y hy a ha => hy.trans (hf y a ha)

/-- A change beside the host interface. -/
theorem Acts.of_hif (hh : x.hif = s.hif) (hr : ∀ a, ¬W a → x.rget a = s.rget a) : Acts W s x :=
  ⟨GoesOn.of_hif hh, ⟨hr, fun e he => by rwa [State.evtEntries, hh, ← State.evtEntries]⟩, by rw [hh]⟩

theorem Acts.of_records (hr : x.regs = s.regs) (hh : x.hif = s.hif) : Acts W s x :=
  Acts.of_hif hh fun a _ => by rw [State.rget, hr, ← State.rget]

theorem Acts.put (h : Acts W s x) (f : Fld) (v : Nat) (hf : W f.off) : Acts W s (x.put f v) :=
  h.trans (Acts.of_hif (x.put_hif f v) fun _ ha => State.rget_put_ne _ _ _ _ fun e => ha (e ▸ hf))

theorem Acts.putB (h : Acts W s x) (f : Fld) (b : Bool) (hf : W f.off) : Acts W s (x.putB f b) := h.put _ _ hf
theorem Acts.putS (h : Acts W s x) (f : Fld) (v : Int) (hf : W f.off) : Acts W s (x.putS f v) := h.put _ _ hf
theorem Acts.addSat (h : Acts W s x) (f : Fld) (n : Nat) (hf : W f.off) : Acts W s (x.addSat f n) := h.put _ _ hf
theorem Acts.cause (h : Acts W s x) (f : Fld) (hf : W f.off) : Acts W s (x.cause f) := h.put _ _ hf

theorem Acts.evtPost (h : Acts W s x) (e : EvtEntry) (hevt : ∀ a ∈ evtRegs, W a) : Acts W s (x.evtPost e) :=
  h.trans ⟨GoesOn.evtPost x e, ⟨fun _ hb => State.rget_evtPost _ _ _ fun hm => hb (hevt _ hm), fun _ => State.mem_evtPost _ _ _⟩,
    x.evtPost_queue e⟩

theorem Acts.event (h : Acts W s x) (c u : Nat) (p : List Nat) (hevt : ∀ a ∈ evtRegs, W a) : Acts W s (x.event c u p) := h.evtPost _ hevt

theorem Acts.report (h : Acts W s x) (c u : Nat) (p : List Nat) (f : Fld) (hevt : ∀ a ∈ evtRegs, W a) (hf : W f.off) :
    Acts W s (x.report c u p f) := (h.event c u p hevt).cause f hf

theorem Acts.watermark (s : State) (n : Nat) (hn : W (HIF_RING_DONE n)) : Acts W s (s.watermark n) := by
  obtain ⟨hqueue, -, hlink, hnext⟩ := s.watermark_hif n
  exact ⟨⟨hlink, hnext.ge⟩, ⟨fun a ha => s.rget_watermark n a fun e => ha (e ▸ hn), fun e he => (s.watermark_evtEntries n).symm ▸ he⟩,
    (congrArg List.length hqueue).ge⟩

theorem Acts.setRing (h : Acts W s x) (n : Nat) (r : Ring) : Acts W s (x.setRing n r) :=
  h.trans ⟨⟨rfl, le_refl _⟩, ⟨fun _ _ => rfl, fun _ he => he⟩, le_refl _⟩

theorem Acts.setUst (h : Acts W s x) (u : UnitId) (v : UState) (hu : u ≠ .mirror) (hw : W (stateFld u).off) : Acts W s (x.setUst u v) := by
  rw [State.setUst_eq _ _ _ hu]
  exact h.put _ _ hw

theorem Acts.setPend (h : Acts W s x) (u : UnitId) (b : Bool) (hu : u ≠ .mirror) (hw : W (stateFld u).off) : Acts W s (x.setPend u b) := by
  rw [State.setPend_eq _ _ _ hu]
  exact h.putB _ _ hw

theorem Acts.dropFault (h : Acts W s x) (u : UnitId) : Acts W s (x.dropFault u) := h.trans (Acts.of_records rfl rfl)

theorem Acts.complete (s : State) (n seq typ code status unit : Nat) (p : List Nat) (b : Bool) (hn : ∀ a ∈ doneRegs n, W a) :
    Acts W s (s.complete n seq typ code status unit p b) := by
  have hevt : ∀ a ∈ evtRegs, W a := fun a ha => hn a (List.mem_cons_of_mem _ ha)
  have hmark (r : Ring) : Acts W s ((s.setRing n r).watermark n) :=
    ((Acts.refl s).setRing n r).trans (Acts.watermark _ n (hn _ List.mem_cons_self))
  unfold State.complete
  split
  · exact Acts.refl s
  · dsimp only
    split
    · exact (hmark _).evtPost _ hevt
    · exact hmark _

/-- An event that is among the entries stays there. -/
theorem PostsSome.acts {code u : Nat} (h : PostsSome s x code u) (hacts : Acts W x y) : PostsSome s y code u := by
  intro hrun hlink hroom
  obtain ⟨e, he, htyp, hcode, hunit, k, hfrom, hto, hseq⟩ := h hrun hlink (hacts.queue.trans_lt hroom)
  exact ⟨e, hacts.entries e he, htyp, hcode, hunit, k, hfrom, hto.trans_le hacts.next, hseq⟩

/-- An event of a command's later part, while the host's island runs, is the command's. -/
theorem PostsSome.later {code u : Nat} (hgo : GoesOn s x) (hisland : s.islandRuns 1 = true → x.islandRuns 1 = true)
    (h : PostsSome x y code u) : PostsSome s y code u := by
  intro hrun hlink hroom
  obtain ⟨e, he, htyp, hcode, hunit, k, hfrom, hto, hseq⟩ := h (hisland hrun) (hgo.linkUp.trans hlink) hroom
  exact ⟨e, he, htyp, hcode, hunit, k, hgo.next.trans hfrom, hto, hseq⟩

theorem PostsSome.report (s : State) (c u : Nat) (p : List Nat) (f : Fld) (hc : c ≠ Ev.EVT_LOST) : PostsSome s (s.report c u p f) c u :=
  PostsSome.of_event p (GoesOn.refl s) rfl hc (State.cause_hif ..)

end Acts

/-! ### A source asserts: before the islands (R497 to R500, R509) -/

/-- The registers of the host interface. -/
def hostWrites (a : Nat) : Prop := 0x30000 ≤ a ∧ a < 0x40000

section Assert
variable {s x : State}

theorem hostWrites_evt : ∀ a ∈ evtRegs, hostWrites a := by
  unfold hostWrites
  decide

theorem hostWrites_job (k : Fin 4) : hostWrites (HIF_RING_DONE k) ∧ hostWrites (HIF_RING_STATUS k) ∧ hostWrites (HIF_RING_CFG k) := by
  unfold hostWrites
  revert k
  decide

/-- The open JOB descriptors of a ring complete ABORTED (R500). -/
def State.jobsAbort (s : State) (k : Fin 4) : State :=
  ((s.ring k).opens.filter (fun d => !d.done && !d.stale)).foldl (fun (s : State) (d : OpenDesc) =>
    s.complete k d.seq (abortCode k d.op).2.1 (abortCode k d.op).1 stABORTED 0xFFFF (abortPayload k d.bits) (abortCode k d.op).2.2) s

/-- A JOB ring passes to OFF. -/
def State.jobRingOff (s : State) (k : Fin 4) : State :=
  ((((s.setRing k { s.ring k with fence := none, heldDb := none }).setUst (.ring (.job k)) .off).setPend (.ring (.job k)) false).putB
    (HIF_RING_CFG_ENABLE k) false).dropFault (.ring (.job k))

theorem Acts.jobsAbort (s : State) (k : Fin 4) : Acts hostWrites s (s.jobsAbort k) :=
  Acts.foldl _ (fun z _ _ => Acts.complete z _ _ _ _ _ _ _ _ (List.forall_mem_cons.mpr ⟨(hostWrites_job k).1, hostWrites_evt⟩)) s

theorem Acts.jobRingOff (s : State) (k : Fin 4) : Acts hostWrites s (s.jobRingOff k) := by
  obtain ⟨-, hstatus, hcfg⟩ := hostWrites_job k
  exact (((((Acts.refl s).setRing _ _).setUst (.ring (.job k)) .off (by simp) hstatus).setPend (.ring (.job k)) false (by simp) hstatus).putB
    (HIF_RING_CFG_ENABLE k) false hcfg).dropFault _

theorem Acts.jobRingsAbort (s : State) : Acts hostWrites s s.jobRingsAbort :=
  Acts.foldl _ (fun y k _ => (Acts.jobsAbort y k).trans (Acts.jobRingOff _ k)) s

theorem State.jobsAbort_hidden (s : State) (k : Fin 4) : (s.jobsAbort k).hidden = s.hidden :=
  foldl_keeps State.hidden (fun z _ => z.complete_hidden ..) _ s

theorem State.jobRingOff_hidden (s : State) (k : Fin 4) : (s.jobRingOff k).hidden.withFaults [] = s.hidden.withFaults [] := by
  rw [State.jobRingOff, State.dropFault_hidden, State.withFaults_withFaults, State.putB_hidden, State.setPend_hidden _ _ _ (by simp),
    State.setUst_hidden _ _ _ (by simp)]
  rfl

theorem State.jobRingsAbort_hidden (s : State) : s.jobRingsAbort.hidden.withFaults [] = s.hidden.withFaults [] := by
  refine foldl_keeps (fun y => y.hidden.withFaults []) (fun y k => ?_) _ s
  exact (State.jobRingOff_hidden _ k).trans (congrArg (State.withFaults · []) (y.jobsAbort_hidden k))

theorem State.refreshWebStop_view (s : State) : s.refreshWebStop.resetView = s.resetView := by
  have hdrop (b : Bool) : (if b = true then s.webPlan 0 .idle else s).resetView = s.resetView := by cases b <;> rfl
  have hput (x : State) (f : Fld) (v : Nat) : (x.put f v).resetView = x.resetView := rfl
  unfold State.refreshWebStop
  split
  · dsimp only [State.putB]
    rw [hput, hput, hput]
    exact hdrop _
  · exact hput _ _ _

/-- The registers that forced outputs write. -/
def forceRegs : List Nat := [PAR_STATUS, MOT_WEB_STATUS, MOT_WEB_RATE]

theorem Keeps.forceOutputs (s : State) : Keeps s s.forceOutputs forceRegs :=
  Keeps.refreshWebStop (((Keeps.refl s _).putB _ _ (by decide)).withWeb _) (by decide) (by decide)

theorem State.forceOutputs_hif (s : State) : s.forceOutputs.hif = s.hif := by
  have h : WebOnly (s.putB PAR_STATUS_AUTH false) s.forceOutputs := ((WebOnly.refl _).withWeb _).refreshWebStop
  exact (congrArg State.hif h).trans (s.putB_hif PAR_STATUS_AUTH false)

theorem State.forceOutputs_view (s : State) : s.forceOutputs.resetView = { s.resetView with resetStop := true } := State.refreshWebStop_view _

theorem State.forceOutputs_auth (s : State) : s.forceOutputs.on PAR_STATUS_AUTH = false := by
  have hkeeps : Keeps (s.putB PAR_STATUS_AUTH false) s.forceOutputs [MOT_WEB_STATUS, MOT_WEB_RATE] :=
    Keeps.refreshWebStop ((Keeps.refl _ _).withWeb _) (by decide) (by decide)
  rw [hkeeps.on PAR_STATUS_AUTH (by decide)]
  exact State.on_putB_same _ _ _ rfl

/-! ### A source asserts: the islands (R497, R498) -/

/-- A reset of one island: one whose clock is not good waits, loss of power restarts the clock. -/
def State.resetIsland (power : Bool) (s : State) (k : Nat) : State :=
  if power then ((s.wipeIsland k).setIsland k 1).putB (RST_ISLAND_CLK_GOOD k) false
  else if s.on (RST_ISLAND_CLK_GOOD k) ∨ k = 0 then (s.wipeIsland k).setIsland k 1
  else (s.setIsland k 2).setRst { s.rst with waitReset := s.rst.waitReset ++ [k] }

/-- What an island shows in reset. -/
def IslandShows.reset (power : Bool) (k : Nat) (v : IslandShows) : IslandShows :=
  if power then { v with rstate := 1, fenced := true, clk := false }
  else { v with rstate := if v.clk = true ∨ k = 0 then 1 else 2, fenced := true }

theorem IslandShows.reset_clocked {v : IslandShows} {k : Nat} (h : v.clk = true ∨ k = 0) : v.reset false k = { v with rstate := 1, fenced := true } := by
  simp only [IslandShows.reset, Bool.false_eq_true, if_false, if_pos h]
theorem IslandShows.reset_waits {v : IslandShows} {k : Nat} (h : ¬(v.clk = true ∨ k = 0)) :
    v.reset false k = { v with rstate := 2, fenced := true } := by
  simp only [IslandShows.reset, Bool.false_eq_true, if_false, if_neg h]

/-- The registers that a reset of an island writes, RST_ISLAND included. -/
def resetWrites (k a : Nat) : Prop := wipeWrites k a ∨ a = RST_ISLAND k

variable {power : Bool} {k a : Nat}

/-- An island waits for its clock before it is reset. -/
def State.islandWaits (s : State) (k : Nat) : State := (s.setIsland k 2).setRst { s.rst with waitReset := s.rst.waitReset ++ [k] }

theorem State.resetIsland_power (s : State) (k : Nat) :
    s.resetIsland true k = ((s.wipeIsland k).setIsland k 1).putB (RST_ISLAND_CLK_GOOD k) false := rfl
theorem State.resetIsland_clocked (h : (s.island k).clk = true ∨ k = 0) : s.resetIsland false k = (s.wipeIsland k).setIsland k 1 := if_pos h
theorem State.resetIsland_waits (h : ¬((s.island k).clk = true ∨ k = 0)) : s.resetIsland false k = s.islandWaits k := if_neg h

theorem State.get_islandWaits (s : State) (k : Nat) (f : Fld) : (s.islandWaits k).get f = (s.setIsland k 2).get f := rfl
theorem State.on_islandWaits (s : State) (k : Nat) (f : Fld) : (s.islandWaits k).on f = (s.setIsland k 2).on f := rfl
theorem State.island_islandWaits (s : State) (j k : Nat) : (s.islandWaits k).island j = (s.setIsland k 2).island j := by
  simp only [State.island, State.on_islandWaits, State.get_islandWaits]
theorem State.rget_islandWaits (s : State) (k a : Nat) : (s.islandWaits k).rget a = (s.setIsland k 2).rget a := rfl
theorem State.setIsland_rst (s : State) (k rs : Nat) : (s.setIsland k rs).rst = s.rst := by rw [State.setIsland, State.putB_rst, State.put_rst]

/-- What holds of an island's state after its reset: after loss of power, with a good clock, and while it waits. -/
theorem State.resetIsland_cases {P : State → Prop} (hlost : P (((s.wipeIsland k).setIsland k 1).putB (RST_ISLAND_CLK_GOOD k) false))
    (hreset : P ((s.wipeIsland k).setIsland k 1)) (hwaits : P (s.islandWaits k)) : P (s.resetIsland power k) := by
  cases power with
  | true => exact hlost
  | false =>
    by_cases h : (s.island k).clk = true ∨ k = 0
    · rw [State.resetIsland_clocked h]
      exact hreset
    · rw [State.resetIsland_waits h]
      exact hwaits

theorem State.rget_resetIsland (s : State) (h : ¬resetWrites k a) : (s.resetIsland power k).rget a = s.rget a := by
  obtain ⟨hw, hk⟩ := not_or.mp h
  have hset (y : State) (rs : Nat) : (y.setIsland k rs).rget a = y.rget a := y.rget_setIsland_ne rs (Ne.symm hk)
  refine State.resetIsland_cases (P := fun y => y.rget a = s.rget a) ?_ ?_ ?_
  · rw [State.rget_putB_ne _ _ _ _ (Ne.symm hk), hset, State.rget_wipeIsland _ hw]
  · rw [hset, State.rget_wipeIsland _ hw]
  · rw [State.rget_islandWaits, hset]

/-- A projection that neither RST_ISLAND nor the list of waiting islands is in. -/
theorem State.resetIsland_keeps {β : Type} (π : State → β) (hput : ∀ y f v, π (State.put y f v) = π y)
    (hrst : ∀ (y : State) w, π (y.setRst { y.rst with waitReset := w }) = π y) (hwipe : π (s.wipeIsland k) = π s) :
    π (s.resetIsland power k) = π s := by
  have hset (y : State) (rs : Nat) : π (y.setIsland k rs) = π y := (hput _ _ _).trans (hput _ _ _)
  refine State.resetIsland_cases (P := fun y => π y = π s) ((hput _ _ _).trans ((hset _ _).trans hwipe)) ((hset _ _).trans hwipe) ?_
  rw [State.islandWaits, ← s.setIsland_rst k 2, hrst, hset]

theorem State.resetView_resetIsland (s : State) (k : Nat) : (s.resetIsland power k).resetView = s.resetView :=
  State.resetIsland_keeps State.resetView (fun _ _ _ => rfl) (fun _ _ => rfl) (s.resetView_wipeIsland k)

theorem State.hif_resetIsland (s : State) (hk : k ≠ 1) : (s.resetIsland power k).hif = s.hif :=
  State.resetIsland_keeps (fun y => y.hif) (fun _ _ _ => rfl) (fun _ _ => rfl) (s.hif_wipeIsland hk)

theorem State.thm_resetIsland (s : State) (hk : k ≠ 0) : (s.resetIsland power k).thm = s.thm :=
  State.resetIsland_keeps (fun y => y.thm) (fun _ _ _ => rfl) (fun _ _ => rfl) (s.thm_wipeIsland hk)

theorem State.pt_resetIsland_zero (s : State) : (s.resetIsland true 0).time.pt = 0 := rfl

theorem State.pt_resetIsland (k : Nat) (h : s.time.pt = 0) : (s.resetIsland power k).time.pt = 0 := by
  refine (State.resetIsland_keeps (fun y => y.time.pt) (fun _ _ _ => rfl) (fun _ _ => rfl) ?_).trans h
  rw [State.pt_wipeIsland, h, ite_self]

theorem State.auth_resetIsland (k : Fin 17) (h : s.on PAR_STATUS_AUTH = false) : (s.resetIsland power k).on PAR_STATUS_AUTH = false := by
  have hne : RST_ISLAND k ≠ PAR_STATUS := by
    simp only [RST_ISLAND, PAR_STATUS]
    omega
  have hset (y : State) (rs : Nat) : (y.setIsland k rs).on PAR_STATUS_AUTH = y.on PAR_STATUS_AUTH :=
    State.on_eq_of_get _ _ _ (State.get_eq_of_rget _ _ _ (y.rget_setIsland_ne rs hne))
  refine State.resetIsland_cases (P := fun y => y.on PAR_STATUS_AUTH = false) ?_ ?_ ?_
  · rw [State.on_putB_apart _ _ _ _ rfl (.inl hne), hset, State.auth_wipeIsland _ h]
  · rw [hset, State.auth_wipeIsland _ h]
  · rw [State.on_islandWaits, hset, h]

theorem State.island_resetIsland_ne (s : State) (j : Fin 17) (h : k ≠ j) : (s.resetIsland power k).island j = s.island j :=
  State.island_of_rget (s.rget_resetIsland (not_or.mpr ⟨island_not_wiped j, rstIsland_ne (Ne.symm h)⟩))

theorem State.island_resetIsland_same (s : State) (j : Fin 17) : (s.resetIsland power j).island j = (s.island j).reset power j := by
  cases power with
  | true => rw [State.resetIsland_power, State.island_clkLost, State.island_setIsland_same _ _ (by decide), State.island_wipeIsland]; rfl
  | false =>
    by_cases h : (s.island j).clk = true ∨ j.val = 0
    · rw [State.resetIsland_clocked h, State.island_setIsland_same _ _ (by decide), State.island_wipeIsland, IslandShows.reset_clocked h]
      rfl
    · rw [State.resetIsland_waits h, IslandShows.reset_waits h, State.island_islandWaits, State.island_setIsland_same _ _ (by decide)]
      rfl

end Assert

end Sys2Proof.Machine

namespace Sys2Proof.Machine

/-! ### A source asserts: the whole (R497 to R500, R509) -/

section Sources
variable {s x : State} {src arg : Nat}

/-- A source before the islands enter reset: it is noted, the outputs are forced, and the jobs end. -/
def State.sourceNoted (s : State) (src arg : Nat) : State :=
  let scope := s.scopeOf src arg
  let s1 := s.noteSource src
  let s2 := if scope.any (fun k => k != 1) then s1.forceOutputs else s1
  if scope.contains 2 ∧ ¬ scope.contains 1 then s2.jobRingsAbort else s2

/-- The islands of a source enter reset. -/
def State.scopeReset (s : State) (src arg : Nat) : State :=
  (s.scopeOf src arg).foldl (State.resetIsland (Nat.ble src 1)) (s.sourceNoted src arg)

/-- The record of a source that stands. -/
def Rst.stands (r : Rst) (src : Nat) (scope : List Nat) : Rst :=
  { r with asserted := if r.asserted.contains src then r.asserted else r.asserted ++ [src]
           cover := (r.cover ++ scope).eraseDups, todo := (r.todo ++ scope).eraseDups
           waitReset := if Nat.ble src 1 then [] else r.waitReset.eraseDups }

theorem State.assertSource_eq (s : State) (src arg : Nat) :
    s.assertSource src arg = (s.scopeReset src arg).setRst ((s.scopeReset src arg).rst.stands src (s.scopeOf src arg)) := rfl

theorem State.island_setRst (s : State) (r : Rst) (j : Nat) : (s.setRst r).island j = s.island j := State.island_of_rget rfl
theorem State.rst_setRst (s : State) (r : Rst) : (s.setRst r).rst = r := rfl

theorem scopeOf_sublist (s : State) (src arg : Nat) : (s.scopeOf src arg).Sublist (List.range 17) := by
  have hone : [1].Sublist (List.range 17) := by decide
  unfold State.scopeOf
  dsimp only
  split
  · exact List.Sublist.refl _
  · exact List.Sublist.refl _
  · exact List.drop_sublist _ _
  · split
    · exact List.drop_sublist _ _
    · exact hone
  · exact hone
  · exact hone
  · split
    · exact List.filter_sublist
    · decide
  · exact List.filter_sublist.trans (List.drop_sublist _ _)
  · exact List.drop_sublist _ _
  · exact List.filter_sublist

theorem scopeOf_nodup (s : State) (src arg : Nat) : (s.scopeOf src arg).Nodup := List.nodup_range.sublist (scopeOf_sublist s src arg)
theorem scopeOf_lt {k : Nat} (h : k ∈ s.scopeOf src arg) : k < 17 := List.mem_range.mp ((scopeOf_sublist s src arg).subset h)

/-- The registers that a source writes before the islands enter reset. -/
def noteWrites (src a : Nat) : Prop := a = RST_CAUSE ∨ a = RST_VBAT_CNT src ∨ a ∈ forceRegs ∨ hostWrites a

theorem Keeps.noteSource (s : State) (src : Nat) : Keeps s (s.noteSource src) [RST_CAUSE, RST_VBAT_CNT src] :=
  ((Keeps.refl s _).put RST_CAUSE_SRC _ List.mem_cons_self).addSat (RST_VBAT_CNT_COUNT src) 1 (List.mem_cons_of_mem _ List.mem_cons_self)

theorem State.noteSource_cause (s : State) (h : src < 10) : bit ((s.noteSource src).get RST_CAUSE_SRC) src = true := by
  have hne : RST_VBAT_CNT src ≠ RST_CAUSE := by
    simp only [RST_VBAT_CNT, RST_CAUSE]
    omega
  have hbit (v : Nat) : bit (setBits v src src 1 % 2 ^ 10) src = true := by
    rw [bit_eq_testBit, Nat.testBit_mod_two_pow, setBits_testBit]
    simp [h]
  unfold State.noteSource
  dsimp only
  rw [State.get_addSat_apart _ _ _ _ rfl (.inl hne), State.get_put_same _ _ _ rfl]
  exact hbit _

theorem Acts.sourceNoted (s : State) (src arg : Nat) : Acts (noteWrites src) s (s.sourceNoted src arg) := by
  have hnoted : Acts (noteWrites src) s (s.noteSource src) :=
    ((Acts.refl s).put RST_CAUSE_SRC _ (.inl rfl)).addSat (RST_VBAT_CNT_COUNT src) 1 (.inr (.inl rfl))
  have hforced (y : State) : Acts (noteWrites src) y y.forceOutputs :=
    Acts.of_hif y.forceOutputs_hif fun a ha => Keeps.forceOutputs y a fun hm => ha (.inr (.inr (.inl hm)))
  have habort (y : State) : Acts (noteWrites src) y y.jobRingsAbort := (Acts.jobRingsAbort y).mono fun _ h => .inr (.inr (.inr h))
  unfold State.sourceNoted
  dsimp only
  split_ifs
  · exact (hnoted.trans (hforced _)).trans (habort _)
  · exact hnoted.trans (habort _)
  · exact hnoted.trans (hforced _)
  · exact hnoted

theorem State.jobRingsAbort_view (s : State) : s.jobRingsAbort.resetView = s.resetView := by
  have hside (y : State) : (y.hidden.withFaults []).resetView = y.resetView := rfl
  exact (hside _).symm.trans ((congrArg State.resetView s.jobRingsAbort_hidden).trans (hside s))

/-- What the noting of a source shows: RST_CAUSE, the forced outputs. -/
theorem State.sourceNoted_shows (s : State) (hsrc : src < 10) :
    let t := s.sourceNoted src arg
    bit (t.get RST_CAUSE_SRC) src = true ∧ (∀ j : Fin 17, t.island j = s.island j) ∧
      t.resetView = (if (s.scopeOf src arg).any (fun k => k != 1) = true then { s.resetView with resetStop := true } else s.resetView) ∧
      ((s.scopeOf src arg).any (fun k => k != 1) = true → t.on PAR_STATUS_AUTH = false) := by
  have hnot (a : Nat) (h : a < 0x30000 ∨ 0x40000 ≤ a) : ¬hostWrites a := by unfold hostWrites; omega
  have habort (y : State) (f : Fld) (h : f.off < 0x30000 ∨ 0x40000 ≤ f.off) : y.jobRingsAbort.get f = y.get f :=
    (Acts.jobRingsAbort y).get f (hnot _ h)
  have hforced (y : State) : y.forceOutputs.get RST_CAUSE_SRC = y.get RST_CAUSE_SRC := (Keeps.forceOutputs y).get _ (by decide)
  have hcause := s.noteSource_cause hsrc
  have hview : (s.noteSource src).resetView = s.resetView := rfl
  refine ⟨?_, fun j => State.island_of_rget ((Acts.sourceNoted s src arg).rget _ ?_), ?_, fun hany => ?_⟩
  · unfold State.sourceNoted
    dsimp only
    split_ifs
    · rwa [habort _ _ (by decide), hforced]
    · rwa [habort _ _ (by decide)]
    · rwa [hforced]
    · exact hcause
  · have hregs : RST_ISLAND j ∉ forceRegs := by revert j; decide
    have hrange : RST_ISLAND j ≠ RST_CAUSE ∧ RST_ISLAND j ≠ RST_VBAT_CNT src ∧ RST_ISLAND j < 0x30000 := by
      simp only [RST_ISLAND, RST_CAUSE, RST_VBAT_CNT]
      omega
    obtain ⟨hcause, hcnt, hlt⟩ := hrange
    simp [noteWrites, hregs, hcause, hcnt, hnot _ (.inl hlt)]
  · unfold State.sourceNoted
    dsimp only
    split_ifs
    · rw [State.jobRingsAbort_view, State.forceOutputs_view, hview]
    · rw [State.jobRingsAbort_view, hview]
    · rw [State.forceOutputs_view, hview]
    · exact hview
  · unfold State.sourceNoted
    dsimp only
    rw [if_pos hany]
    split_ifs
    · exact (State.on_eq_of_get _ _ _ (habort _ _ (by decide))).trans (State.forceOutputs_auth _)
    · exact State.forceOutputs_auth _

/-- RST_CAUSE survives every reset. -/
theorem cause_not_reset (k : Nat) : ¬resetWrites k RST_CAUSE := by
  have hkeeps : resetKeeps RST_CAUSE = true ∧ RST_CAUSE ≠ GLB_IRQ_EN ∧ RST_CAUSE ≠ MOT_WEB_STATUS ∧ RST_CAUSE ≠ PAR_STATUS := by decide
  have hne : RST_CAUSE ≠ RST_ISLAND k := by
    simp only [RST_CAUSE, RST_ISLAND]
    omega
  simp [resetWrites, wipeWrites, hkeeps, hne]

/-- What the islands of a source show, and what their reset leaves. -/
theorem State.scopeReset_shows (s : State) (hsrc : src < 10) :
    let t := s.scopeReset src arg
    bit (t.get RST_CAUSE_SRC) src = true ∧
      (∀ j : Fin 17, t.island j = if j.val ∈ s.scopeOf src arg then (s.island j).reset (Nat.ble src 1) j else s.island j) ∧
      t.resetView = (if (s.scopeOf src arg).any (fun k => k != 1) = true then { s.resetView with resetStop := true } else s.resetView) ∧
      ((s.scopeOf src arg).any (fun k => k != 1) = true → t.on PAR_STATUS_AUTH = false) := by
  obtain ⟨hcause, hislands, hview, hauth⟩ := s.sourceNoted_shows (arg := arg) hsrc
  refine ⟨?_, fun j => ?_, ?_, fun hany => ?_⟩
  · rw [State.scopeReset, foldl_keeps (fun y : State => y.get RST_CAUSE_SRC)
      (fun y k => State.get_eq_of_rget _ _ _ (y.rget_resetIsland (cause_not_reset k)))]
    exact hcause
  · rw [State.scopeReset, foldl_at (π := fun y : State => y.island j) (P := fun _ => True) (fun y k _ hk => y.island_resetIsland_ne j hk)
      (fun y _ => y.island_resetIsland_same j) (fun _ _ _ _ => trivial) (scopeOf_nodup s src arg) _ trivial, hislands]
  · rw [State.scopeReset, foldl_keeps State.resetView (fun y k => y.resetView_resetIsland k)]
    exact hview
  · exact List.foldlRecOn (motive := fun y : State => y.on PAR_STATUS_AUTH = false) _ _ (hauth hany)
      fun y hy k hk => State.auth_resetIsland ⟨k, scopeOf_lt hk⟩ hy

/-- What a source that asserts shows. -/
theorem State.assertSource_shows (s : State) (hsrc : src < 10) :
    let t := s.assertSource src arg
    bit (t.get RST_CAUSE_SRC) src = true ∧ src ∈ t.rst.asserted ∧ (∀ j ∈ s.scopeOf src arg, j ∈ t.rst.todo) ∧
      (∀ j : Fin 17, t.island j = if j.val ∈ s.scopeOf src arg then (s.island j).reset (Nat.ble src 1) j else s.island j) ∧
      t.web.thermStop = s.web.thermStop ∧ t.rst.corePwr = s.rst.corePwr ∧
      ((s.scopeOf src arg).any (fun k => k != 1) = true → t.on PAR_STATUS_AUTH = false ∧ t.web.resetStop = true) := by
  obtain ⟨hcause, hislands, hview, hauth⟩ := s.scopeReset_shows (arg := arg) hsrc
  rw [State.assertSource_eq]
  generalize s.scopeReset src arg = y at *
  generalize s.scopeOf src arg = scope at *
  have htherm := congrArg ResetView.thermStop hview
  have hpwr := congrArg ResetView.corePwr hview
  rw [apply_ite ResetView.thermStop] at htherm
  rw [apply_ite ResetView.corePwr] at hpwr
  refine ⟨hcause, ?_, fun j hj => ?_, fun j => (State.island_setRst _ _ _).trans (hislands j), ?_, ?_, fun hany => ⟨hauth hany, ?_⟩⟩
  · rw [State.rst_setRst]
    unfold Rst.stands
    dsimp only
    split_ifs with h
    · exact List.contains_iff_mem.mp h
    · exact List.mem_append_right _ (List.mem_singleton_self _)
  · rw [State.rst_setRst]
    exact List.mem_eraseDups.mpr (List.mem_append_right _ hj)
  · exact htherm.trans (ite_self _)
  · exact hpwr.trans (ite_self _)
  · rw [if_pos hany] at hview
    exact congrArg ResetView.resetStop hview

end Sources

end Sys2Proof.Machine

namespace Sys2Proof.Machine

/-! ### The event log (R521) -/

/-- Only registers, MRAM and the held entries of the log differ. -/
def LogOnly (s x : State) : Prop :=
  x = { s with regs := x.regs, mram := x.mram, rst := { s.rst with log := x.rst.log, logSeq := x.rst.logSeq } }

/-- The registers that show the log. -/
def logRegs : List Nat := [NVM_STATUS, NVM_LOG_HEAD, RST_VBAT_CTRL]

section Log
variable {s x y : State}

theorem LogOnly.refl (s : State) : LogOnly s s := rfl
theorem LogOnly.put (h : LogOnly s x) (f : Fld) (v : Nat) : LogOnly s (x.put f v) := by
  unfold LogOnly at *
  rw [h]
  rfl

theorem LogOnly.putB (h : LogOnly s x) (f : Fld) (b : Bool) : LogOnly s (x.putB f b) := h.put f _

theorem LogOnly.withMram (h : LogOnly s x) (m : Memory) : LogOnly s { x with mram := m } := by
  unfold LogOnly at *
  rw [h]

theorem LogOnly.withLog (h : LogOnly s x) (l : List (Nat × Nat × Nat × List Byte)) (n : Nat) :
    LogOnly s (x.setRst { x.rst with log := l, logSeq := n }) := by
  unfold LogOnly at *
  rw [h]
  rfl

theorem LogOnly.trans (h : LogOnly s x) (h' : LogOnly x y) : LogOnly s y := by
  unfold LogOnly at *
  rw [h', h]

theorem LogOnly.foldl {α : Type} {f : State → α → State} (hf : ∀ y a, LogOnly y (f y a)) (l : List α) (s : State) : LogOnly s (l.foldl f s) :=
  List.foldlRecOn (motive := LogOnly s) l f (LogOnly.refl s) fun y hy a _ => hy.trans (hf y a)

theorem Keeps.setRst {l : List Nat} (h : Keeps s x l) (r : Rst) : Keeps s (x.setRst r) l := h

/-- One entry of the log is written. -/
def State.writeLog (s : State) (e : Nat × Nat × Nat × List Byte) : State :=
  let h := s.get NVM_LOG_HEAD_INDEX
  let b := leBytes 2 e.1 ++ leBytes 2 e.2.1 ++ leBytes 4 0 ++ leBytes 8 e.2.2.1 ++ (e.2.2.2 ++ List.replicate 16 0).take 16
  let w : State := { s with mram := Mem.writes s.mram (0x00701000 + 32 * h) b }
  let w1 := w.put NVM_LOG_HEAD_INDEX ((h + 1) % 4096)
  if e.1 = Ev.THM_SHUTDOWN then w1.putB RST_VBAT_CTRL_THERM_LATCH false else w1

theorem State.flushLog_eq (s : State) : s.flushLog =
    if s.on NVM_STATUS_IN_WINDOW = true then
      ((s.rst.log.foldl State.writeLog s).setRst { (s.rst.log.foldl State.writeLog s).rst with log := [] }).put NVM_STATUS_LOG_HELD 0
    else s.put NVM_STATUS_LOG_HELD s.rst.log.length := rfl

theorem LogOnly.writeLog (s : State) (e : Nat × Nat × Nat × List Byte) : LogOnly s (s.writeLog e) := by
  unfold State.writeLog
  extract_lets h b w w1
  have hw1 : LogOnly s w1 := ((LogOnly.refl s).withMram _).put _ _
  split
  · exact hw1.putB _ _
  · exact hw1

theorem Keeps.writeLog (s : State) (e : Nat × Nat × Nat × List Byte) : Keeps s (s.writeLog e) logRegs := by
  unfold State.writeLog
  extract_lets h b w w1
  have hw : Keeps s w logRegs := fun _ _ => rfl
  have hw1 : Keeps s w1 logRegs := hw.put _ _ (by decide)
  split
  · exact hw1.putB _ _ (by decide)
  · exact hw1

theorem LogOnly.flushLog (s : State) : LogOnly s s.flushLog := by
  rw [State.flushLog_eq]
  split
  · exact ((LogOnly.foldl LogOnly.writeLog _ s).withLog [] _).put _ _
  · exact (LogOnly.refl s).put _ _

theorem Keeps.flushLog (s : State) : Keeps s s.flushLog logRegs := by
  rw [State.flushLog_eq]
  split
  · have hwritten : Keeps s (s.rst.log.foldl State.writeLog s) logRegs :=
      List.foldlRecOn (motive := fun y => Keeps s y logRegs) _ _ (Keeps.refl s _) fun y hy e _ => hy.trans (Keeps.writeLog y e)
    exact (hwritten.setRst _).put _ _ (by decide)
  · exact (Keeps.refl s _).put _ _ (by decide)

theorem LogOnly.logBytes (s : State) (code time : Nat) (p : List Byte) : LogOnly s (s.logBytes code time p) :=
  ((LogOnly.refl s).withLog _ _).trans (LogOnly.flushLog _)

theorem Keeps.logBytes (s : State) (code time : Nat) (p : List Byte) : Keeps s (s.logBytes code time p) logRegs :=
  ((Keeps.refl s logRegs).setRst _).trans (Keeps.flushLog _)

theorem LogOnly.logEvent (s : State) (code : Nat) (p : List Nat) : LogOnly s (s.logEvent code p) := LogOnly.logBytes ..
theorem Keeps.logEvent (s : State) (code : Nat) (p : List Nat) : Keeps s (s.logEvent code p) logRegs :=
  Keeps.logBytes s code s.now (payloadBytes code p)

theorem LogOnly.hif (h : LogOnly s x) : x.hif = s.hif := by
  unfold LogOnly at h
  rw [h]

theorem LogOnly.view (h : LogOnly s x) : x.resetView = s.resetView := by
  unfold LogOnly at h
  rw [h]
  rfl

theorem LogOnly.thm (h : LogOnly s x) : x.thm = s.thm := by
  unfold LogOnly at h
  rw [h]

theorem LogOnly.waitReset (h : LogOnly s x) : x.rst.waitReset = s.rst.waitReset := by
  unfold LogOnly at h
  rw [h]

theorem LogOnly.hidden (h : LogOnly s x) : x.hidden = { s with mram := x.mram, rst := x.rst }.hidden := by
  unfold LogOnly at h
  rw [h]
  rfl

end Log

/-! ### The end of a reset (R498, R509, R521) -/

/-- The registers that the end of a reset writes. -/
def doneWrites (a : Nat) : Prop := a ∈ evtRegs ∨ a = RST_IRQ_CAUSE ∨ a ∈ logRegs ∨ a = MOT_WEB_STATUS ∨ a = MOT_WEB_RATE

section Done
variable {s x : State}

/-- The payload of RESET_DONE. -/
def State.resetPayload (s : State) : List Nat :=
  let bm := fun (t : Nat → Bool) => (List.range 17).foldl (fun a k => a + 2 ^ k * b2n (t k)) 0
  [s.get RST_CAUSE_SRC, bm (fun k => s.rst.cover.contains k), bm (fun k => s.get (RST_ISLAND_RSTATE k) == 3)]

/-- RESET_DONE is posted, and logged for the sources that R521 names. -/
def State.doneLogged (s : State) : State :=
  let s1 := s.report Ev.RESET_DONE 0xFFFF s.resetPayload RST_IRQ_CAUSE_RESET_DONE
  if [1, 2, 6, 8, 9].any (fun b => bit (s.get RST_CAUSE_SRC) b) then s1.logEvent Ev.RESET_DONE s.resetPayload else s1

theorem State.resetDone_eq (s : State) : s.resetDone = (s.doneLogged.setRst { s.doneLogged.rst with cover := [] }).freeOutputs := rfl

theorem State.report_view (s : State) (c u : Nat) (l : List Nat) (f : Fld) : (s.report c u l f).resetView = s.resetView :=
  State.hidden_congr s (s.report c u l f) (s.hidden_report c u l f) State.resetView

theorem Acts.logEvent (s : State) (code : Nat) (p : List Nat) : Acts doneWrites s (s.logEvent code p) :=
  Acts.of_hif (LogOnly.logEvent s code p).hif fun a ha => Keeps.logEvent s code p a fun hm => ha (.inr (.inr (.inl hm)))

theorem WebOnly.hif (h : WebOnly s x) : x.hif = s.hif := by
  unfold WebOnly at h
  rw [h]

theorem WebOnly.thm (h : WebOnly s x) : x.thm = s.thm := by
  unfold WebOnly at h
  rw [h]

theorem Acts.freeOutputs (s : State) : Acts doneWrites s s.freeOutputs := by
  have hweb : WebOnly s s.freeOutputs := ((WebOnly.refl s).withWeb _).refreshWebStop
  have hkeeps : Keeps s s.freeOutputs [MOT_WEB_STATUS, MOT_WEB_RATE] :=
    Keeps.refreshWebStop ((Keeps.refl s _).withWeb _) (by decide) (by decide)
  refine Acts.of_hif hweb.hif fun a ha => hkeeps a fun hm => ha ?_
  rw [List.mem_cons, List.mem_singleton] at hm
  exact .inr (.inr (.inr hm))

theorem doneWrites_evt : ∀ a ∈ evtRegs, doneWrites a := fun _ h => .inl h

theorem State.freeOutputs_view (s : State) : s.freeOutputs.resetView = { s.resetView with resetStop := false } := State.refreshWebStop_view _

/-- What the end of a reset brings: RESET_DONE, and the outputs are free. -/
theorem State.resetDone_shows (s : State) :
    let t := s.resetDone
    Acts doneWrites s t ∧ t.resetView = { s.resetView with cover := [], resetStop := false } ∧ PostsSome s t Ev.RESET_DONE 0xFFFF ∧
      t.thm = s.thm := by
  have hreport : Acts doneWrites s (s.report Ev.RESET_DONE 0xFFFF s.resetPayload RST_IRQ_CAUSE_RESET_DONE) :=
    (Acts.refl s).report _ _ _ _ doneWrites_evt (.inr (.inl rfl))
  have hposts := PostsSome.report s Ev.RESET_DONE 0xFFFF s.resetPayload RST_IRQ_CAUSE_RESET_DONE (by decide)
  have hview := s.report_view Ev.RESET_DONE 0xFFFF s.resetPayload RST_IRQ_CAUSE_RESET_DONE
  have hthm : (s.report Ev.RESET_DONE 0xFFFF s.resetPayload RST_IRQ_CAUSE_RESET_DONE).thm = s.thm :=
    State.hidden_congr s (s.report Ev.RESET_DONE 0xFFFF s.resetPayload RST_IRQ_CAUSE_RESET_DONE) (s.hidden_report ..) (fun y => y.thm)
  have hlogged : Acts doneWrites s s.doneLogged ∧ s.doneLogged.resetView = s.resetView ∧ PostsSome s s.doneLogged Ev.RESET_DONE 0xFFFF ∧
      s.doneLogged.thm = s.thm := by
    unfold State.doneLogged
    generalize s.report Ev.RESET_DONE 0xFFFF s.resetPayload RST_IRQ_CAUSE_RESET_DONE = y at *
    dsimp only
    split
    · have hlog := LogOnly.logEvent y Ev.RESET_DONE s.resetPayload
      exact ⟨hreport.trans (Acts.logEvent y _ _), hlog.view.trans hview, hposts.acts (Acts.logEvent y _ _), hlog.thm.trans hthm⟩
    · exact ⟨hreport, hview, hposts, hthm⟩
  obtain ⟨hacts, hview, hposts, hthm⟩ := hlogged
  rw [State.resetDone_eq]
  generalize s.doneLogged = y at *
  have hclosed : Acts doneWrites y (y.setRst { y.rst with cover := [] }) := Acts.of_records rfl rfl
  have hweb : WebOnly (y.setRst { y.rst with cover := [] }) (y.setRst { y.rst with cover := [] }).freeOutputs :=
    ((WebOnly.refl _).withWeb _).refreshWebStop
  refine ⟨(hacts.trans hclosed).trans (Acts.freeOutputs _), ?_, hposts.acts (hclosed.trans (Acts.freeOutputs _)), ?_⟩
  · rw [State.freeOutputs_view, ← hview]
    rfl
  · exact hweb.thm.trans hthm

end Done

/-! ### The release (R498) -/

section Release
variable {s x : State} {k n : Nat} {l : List Nat}

/-- The islands that wait for their release, in its order. -/
def State.releaseList (s : State) : List Nat := releaseOrder.filter (fun k => s.rst.todo.contains k)

/-- An island is released, or kept in reset. -/
def State.releaseIsland (s : State) (k : Nat) : State :=
  (s.setRst { s.rst with todo := s.rst.todo.filter (fun x => x != k) }).setIsland k (if s.heldIsland k = true then 1 else 0)

/-- Does the release pass an island without waiting? -/
def State.passes (s : State) (k : Nat) : Prop :=
  s.heldIsland k = true ∨ k = 0 ∨ (s.on (RST_ISLAND_CLK_GOOD k) = true ∧ ¬s.rst.waitReset.contains k = true)

theorem State.find_releaseList (s : State) : releaseOrder.find? (fun k => s.rst.todo.contains k) = s.releaseList.head? :=
  (List.head?_filter ..).symm

theorem State.release_step (hasserted : s.rst.asserted = []) (hlist : s.releaseList = k :: l) (hpass : s.passes k) :
    s.release (n + 1) = (s.releaseIsland k).release n := by
  have hfind : releaseOrder.find? (fun k => s.rst.todo.contains k) = some k := by rw [State.find_releaseList, hlist]; rfl
  rw [State.release, if_neg (by simp [hasserted])]
  simp only [hfind]
  unfold State.releaseIsland
  by_cases hheld : s.heldIsland k = true
  · rw [if_pos hheld, if_pos hheld]
  · rw [if_neg hheld, if_neg hheld, if_pos (hpass.resolve_left hheld)]

theorem State.release_waits (hasserted : s.rst.asserted = []) (hlist : s.releaseList = k :: l) (hpass : ¬s.passes k) :
    s.release (n + 1) = s.setIsland k 2 := by
  have hfind : releaseOrder.find? (fun k => s.rst.todo.contains k) = some k := by rw [State.find_releaseList, hlist]; rfl
  obtain ⟨hheld, hclk⟩ := not_or.mp hpass
  rw [State.release, if_neg (by simp [hasserted])]
  simp only [hfind]
  rw [if_neg hheld, if_neg hclk]

theorem State.release_end (hasserted : s.rst.asserted = []) (hlist : s.releaseList = []) :
    s.release (n + 1) = if s.rst.cover = [] then s else s.resetDone := by
  have hfind : releaseOrder.find? (fun k => s.rst.todo.contains k) = none := by rw [State.find_releaseList, hlist]; rfl
  rw [State.release, if_neg (by simp [hasserted])]
  simp only [hfind]

/-- Nothing is released while a source stands. -/
theorem State.release_asserted (h : s.rst.asserted ≠ []) : s.release n = s := by
  cases n with
  | zero => rfl
  | succ n => rw [State.release, if_pos h]

theorem releaseOrder_nodup : releaseOrder.Nodup := by decide
theorem releaseList_nodup (s : State) : s.releaseList.Nodup := releaseOrder_nodup.filter _
theorem releaseOrder_lt : ∀ k ∈ releaseOrder, k < 17 := by decide
theorem releaseList_lt (h : k ∈ s.releaseList) : k < 17 := releaseOrder_lt k (List.mem_of_mem_filter h)

theorem mem_releaseList (j : Fin 17) : j.val ∈ s.releaseList ↔ j.val ∈ s.rst.todo := by
  have hall : ∀ j : Fin 17, j.val ∈ releaseOrder := by decide
  simp [State.releaseList, hall j]

theorem State.releaseIsland_todo (s : State) (k : Nat) : (s.releaseIsland k).rst.todo = s.rst.todo.filter (fun x => x != k) := by
  rw [State.releaseIsland, State.setIsland_rst]
  rfl

theorem State.releaseIsland_view (s : State) (k : Nat) :
    (s.releaseIsland k).resetView = { s.resetView with todo := s.rst.todo.filter (fun x => x != k) } := by
  have hput (x : State) (f : Fld) (v : Nat) : (x.put f v).resetView = x.resetView := rfl
  rw [State.releaseIsland, State.setIsland, State.putB, hput, hput]
  rfl

theorem State.releaseIsland_waitReset (s : State) (k : Nat) : (s.releaseIsland k).rst.waitReset = s.rst.waitReset := by
  rw [State.releaseIsland, State.setIsland_rst]
  rfl

theorem State.releaseIsland_list (hlist : s.releaseList = k :: l) : (s.releaseIsland k).releaseList = l := by
  have hk : k ∉ l := (List.nodup_cons.mp (hlist ▸ releaseList_nodup s)).1
  have hfilter : (s.releaseIsland k).releaseList = s.releaseList.filter (fun x => x != k) := by
    simp only [State.releaseList, State.releaseIsland_todo, List.filter_filter]
    refine List.filter_congr fun x _ => ?_
    rw [Bool.eq_iff_iff]
    simp [and_comm]
  rw [hfilter, hlist, List.filter_cons_of_neg (by simp)]
  exact List.filter_eq_self.mpr fun x hx => by simpa using fun e : x = k => hk (e ▸ hx)

theorem State.rget_releaseIsland (s : State) {a : Nat} (h : RST_ISLAND k ≠ a) : (s.releaseIsland k).rget a = s.rget a :=
  State.rget_setIsland_ne _ _ h

theorem State.heldIsland_congr (hrole : x.rget PAR_CFG = s.rget PAR_CFG) (hpstate : x.rget PAR_STATUS = s.rget PAR_STATUS)
    (hstrap : x.rst.strapHold = s.rst.strapHold) (j : Nat) : x.heldIsland j = s.heldIsland j := by
  have hr : x.role = s.role := State.get_eq_of_rget _ _ _ hrole
  have hp : x.pstate = s.pstate := State.get_eq_of_rget _ _ _ hpstate
  simp only [State.heldIsland, State.printHeld, State.passive, hr, hp, hstrap]

theorem rstIsland_ne_par (h : k < 17) : RST_ISLAND k ≠ PAR_CFG ∧ RST_ISLAND k ≠ PAR_STATUS := by
  simp only [RST_ISLAND, PAR_CFG, PAR_STATUS]
  omega

theorem State.heldIsland_releaseIsland (s : State) (h : k < 17) (j : Nat) : (s.releaseIsland k).heldIsland j = s.heldIsland j :=
  State.heldIsland_congr (s.rget_releaseIsland (rstIsland_ne_par h).1) (s.rget_releaseIsland (rstIsland_ne_par h).2)
    (congrArg ResetView.strapHold (s.releaseIsland_view k)) j

theorem State.passes_releaseIsland {j : Nat} (h : k < 17) (hne : j ≠ k) : (s.releaseIsland k).passes j ↔ s.passes j := by
  have hclk : (s.releaseIsland k).on (RST_ISLAND_CLK_GOOD j) = s.on (RST_ISLAND_CLK_GOOD j) :=
    State.on_eq_of_get _ _ _ (State.get_eq_of_rget _ _ _ (s.rget_releaseIsland (rstIsland_ne hne.symm)))
  rw [State.passes, State.passes, State.heldIsland_releaseIsland _ h, hclk, State.releaseIsland_waitReset]

/-- With every waiting island passing, the release runs to its end. -/
theorem State.release_passes (hasserted : s.rst.asserted = []) (hlist : s.releaseList = l) (hpass : ∀ k ∈ l, s.passes k) (hn : l.length < n) :
    s.release n = if (l.foldl State.releaseIsland s).rst.cover = [] then l.foldl State.releaseIsland s else (l.foldl State.releaseIsland s).resetDone := by
  induction l generalizing s n with
  | nil =>
    obtain ⟨n, rfl⟩ := Nat.exists_eq_add_of_lt hn
    exact State.release_end hasserted hlist
  | cons k l ih =>
    obtain ⟨n, rfl⟩ : ∃ m, n = m + 1 := ⟨n - 1, by rw [List.length_cons] at hn; omega⟩
    have hk : k ∉ l := (List.nodup_cons.mp (hlist ▸ releaseList_nodup s)).1
    have hlt : k < 17 := releaseList_lt (s := s) (hlist ▸ List.mem_cons_self)
    rw [State.release_step hasserted hlist (hpass k List.mem_cons_self), List.foldl_cons]
    refine ih ?_ (State.releaseIsland_list hlist) (fun j hj => ?_) (by rw [List.length_cons] at hn; omega)
    · exact (congrArg ResetView.asserted (s.releaseIsland_view k)).trans hasserted
    · exact (State.passes_releaseIsland hlt fun e => hk (e ▸ hj)).mpr (hpass j (List.mem_cons_of_mem _ hj))

theorem releaseList_length (s : State) : s.releaseList.length < 18 := Nat.lt_succ_of_le (List.length_filter_le _ releaseOrder)

/-- The islands after a release that runs to its end. -/
theorem State.released_shows (s : State) :
    let t := s.releaseList.foldl State.releaseIsland s
    (∀ j : Fin 17, j.val ∈ s.rst.todo → t.island j = { s.island j with rstate := if s.heldIsland j = true then 1 else 0, fenced := s.heldIsland j }) ∧
      (∀ j : Fin 17, j.val ∉ s.rst.todo → t.island j = s.island j) ∧ (∀ j : Fin 17, j.val ∉ t.rst.todo) ∧
      t.resetView = { s.resetView with todo := t.rst.todo } ∧ t.hif = s.hif ∧ t.thm = s.thm := by
  have hisland (j : Fin 17) := foldl_at (π := fun y : State => y.island j) (f := State.releaseIsland) (L := s.releaseList) (j := j)
    (g := fun v => { v with rstate := if s.heldIsland j = true then 1 else 0, fenced := s.heldIsland j })
    (P := fun y => y.heldIsland j = s.heldIsland j)
    (fun y k _ hk => State.island_of_rget (y.rget_releaseIsland (rstIsland_ne hk)))
    (fun y hy => by
      have hrs : (if y.heldIsland j = true then 1 else 0) < 4 := by split <;> decide
      have hfenced : ((if y.heldIsland j = true then 1 else 0 : Nat) != 0) = y.heldIsland j := by cases y.heldIsland j <;> rfl
      simp only [State.releaseIsland, State.island_setIsland_same _ _ hrs, hfenced, State.island_setRst]
      rw [hy])
    (fun y k hk hy => (State.heldIsland_releaseIsland y (releaseList_lt hk) j).trans hy) (releaseList_nodup s) s rfl
  refine ⟨fun j hj => ?_, fun j hj => ?_, fun j hj => ?_, ?_, ?_, ?_⟩
  · rw [hisland, if_pos ((mem_releaseList j).mpr hj)]
  · rw [hisland, if_neg fun h => hj ((mem_releaseList j).mp h)]
  · have htodo := foldl_at (π := fun y : State => y.rst.todo.contains j) (f := State.releaseIsland) (L := s.releaseList) (j := j) (g := fun _ => false)
      (P := fun _ => True)
      (fun y k _ hk => by
        rw [Bool.eq_iff_iff]
        simp [State.releaseIsland_todo, Ne.symm hk])
      (fun y _ => by simp [State.releaseIsland_todo])
      (fun _ _ _ _ => trivial) (releaseList_nodup s) s trivial
    have hmem := List.contains_iff_mem.mpr hj
    rw [htodo] at hmem
    split_ifs at hmem with h
    exact h ((mem_releaseList j).mpr (List.contains_iff_mem.mp hmem))
  · exact List.foldlRecOn (motive := fun y : State => y.resetView = { s.resetView with todo := y.rst.todo }) _ State.releaseIsland rfl
      fun y hy k _ => by rw [State.releaseIsland_view, hy, State.releaseIsland_todo]
  · exact foldl_keeps (fun y : State => y.hif) (f := State.releaseIsland) (fun y k => by
      rw [State.releaseIsland, State.setIsland, State.putB_hif, State.put_hif]
      rfl) _ s
  · exact foldl_keeps (fun y : State => y.thm) (f := State.releaseIsland) (fun y k => by
      rw [State.releaseIsland, State.setIsland, State.putB_thm, State.put_thm]
      rfl) _ s

end Release

end Sys2Proof.Machine

namespace Sys2Proof.Machine

/-! ### Reset sources (R497 to R503, R509, R511) -/

section ResetSources
variable {s x : State} {src arg : Nat} {k : Fin 17}

theorem State.get_of_island {k : Nat} {v : IslandShows} (h : x.island k = v) : x.get (RST_ISLAND_RSTATE k) = v.rstate := congrArg IslandShows.rstate h
theorem State.fenced_of_island {k : Nat} {v : IslandShows} (h : x.island k = v) : x.on (RST_ISLAND_FENCED k) = v.fenced := congrArg IslandShows.fenced h

theorem IslandShows.reset_fenced (v : IslandShows) (power : Bool) (k : Nat) : (v.reset power k).fenced = true := by
  unfold IslandShows.reset
  split <;> rfl

theorem IslandShows.reset_rstate (v : IslandShows) {k : Nat} (hk : k ≠ 0) : (v.reset false k).rstate = if v.clk = true then 1 else 2 := by
  simp [IslandShows.reset, hk]

/-- An island in the scope of a source does not run, one outside it runs as before. -/
theorem State.assertSource_runs (s : State) (hsrc : src < 10) (k : Fin 17) :
    (s.assertSource src arg).islandRuns k = (!decide (k.val ∈ s.scopeOf src arg) && s.islandRuns k) := by
  obtain ⟨-, -, -, hislands, -⟩ := s.assertSource_shows (arg := arg) hsrc
  rw [State.islandRuns_eq, State.islandRuns_eq, hislands k]
  by_cases hk : k.val ∈ s.scopeOf src arg
  · simp [hk, IslandShows.reset_fenced]
  · simp [hk]

/-- A source that is not loss of power: the islands in its scope. -/
theorem State.assertSource_scope (s : State) (hsrc : src < 10) (hpower : 2 ≤ src) (k : Fin 17) (hk : k.val ∈ s.scopeOf src arg) :
    let t := s.assertSource src arg
    k.val ∈ t.rst.todo ∧ t.on (RST_ISLAND_FENCED k) = true ∧
      (k.val ≠ 0 → t.get (RST_ISLAND_RSTATE k) = if s.on (RST_ISLAND_CLK_GOOD k) = true then 1 else 2) := by
  obtain ⟨-, -, htodo, hislands, -⟩ := s.assertSource_shows (arg := arg) hsrc
  have hshown := (hislands k).trans (if_pos hk)
  have hble : Nat.ble src 1 = false := by
    rw [Bool.eq_false_iff, ne_eq, Nat.ble_eq]
    omega
  rw [hble] at hshown
  refine ⟨htodo k hk, (State.fenced_of_island hshown).trans (IslandShows.reset_fenced ..), fun h0 => ?_⟩
  exact (State.get_of_island hshown).trans (IslandShows.reset_rstate _ h0)

theorem State.assertSource_outside (s : State) (hsrc : src < 10) (k : Fin 17) (hk : k.val ∉ s.scopeOf src arg) :
    (s.assertSource src arg).get (RST_ISLAND_RSTATE k) = s.get (RST_ISLAND_RSTATE k) := by
  obtain ⟨-, -, -, hislands, -⟩ := s.assertSource_shows (arg := arg) hsrc
  exact State.get_of_island ((hislands k).trans (if_neg hk))

/-- A source that resets more than the host's island: what shows, and the islands of its scope. -/
theorem State.assertSource_resets {scope : List Nat} (s : State) (hscope : s.scopeOf src arg = scope) (hsrc : src < 10) (hpower : 2 ≤ src)
    (hany : scope.any (fun k => k != 1) = true) :
    let t := s.assertSource src arg
    bit (t.get RST_CAUSE_SRC) src = true ∧ t.on PAR_STATUS_AUTH = false ∧ t.web.resetStop = true ∧ src ∈ t.rst.asserted ∧
      (∀ k : Fin 17, k.val ∈ scope → k.val ∈ t.rst.todo ∧ t.on (RST_ISLAND_FENCED k) = true ∧
        (k.val ≠ 0 → t.get (RST_ISLAND_RSTATE k) = if s.on (RST_ISLAND_CLK_GOOD k) = true then 1 else 2)) ∧
      (∀ k : Fin 17, k.val ∉ scope → t.get (RST_ISLAND_RSTATE k) = s.get (RST_ISLAND_RSTATE k)) ∧
      ∀ k : Fin 17, t.islandRuns k = (!decide (k.val ∈ scope) && s.islandRuns k) := by
  subst hscope
  obtain ⟨hcause, hasserted, -, -, -, -, hforced⟩ := s.assertSource_shows (arg := arg) hsrc
  exact ⟨hcause, (hforced hany).1, (hforced hany).2, hasserted, fun k hk => s.assertSource_scope hsrc hpower k hk,
    fun k hk => s.assertSource_outside hsrc k hk, fun k => s.assertSource_runs hsrc k⟩

/-- The islands of the watchdog's source (R502). -/
theorem State.scopeOf_watchdog (s : State) : s.scopeOf 6 0 =
    if s.on RST_WDT_CFG_SCOPE = true then (List.range 17).filter (fun k => k != 0 && k != 12) else [13] := rfl

/-- The watchdog expires (R502). -/
theorem State.wdtExpire_shows (s : State) :
    let t := s.wdtExpire
    bit (t.get RST_CAUSE_SRC) 6 = true ∧ 6 ∈ t.rst.asserted ∧ t.web.resetStop = true ∧ t.islandRuns 13 = false ∧
      (s.on RST_WDT_CFG_SCOPE = true → ∀ k : Fin 17, k.val ≠ 0 → k.val ≠ 12 → t.islandRuns k = false) ∧
      (s.on RST_WDT_CFG_SCOPE = false → ∀ k : Fin 17, k.val ≠ 13 → t.islandRuns k = s.islandRuns k) := by
  have hwide : ∀ k : Fin 17, k.val ≠ 0 → k.val ≠ 12 → k.val ∈ (List.range 17).filter (fun k => k != 0 && k != 12) := by decide
  have hruns (k : Fin 17) : (s.setRst { s.rst with wdtFrom := s.time.cyc }).islandRuns k = s.islandRuns k := rfl
  have hset : (s.setRst { s.rst with wdtFrom := s.time.cyc }).on RST_WDT_CFG_SCOPE = s.on RST_WDT_CFG_SCOPE := rfl
  have hscope := (s.setRst { s.rst with wdtFrom := s.time.cyc }).scopeOf_watchdog
  rw [hset] at hscope
  rw [State.wdtExpire]
  cases hwdt : s.on RST_WDT_CFG_SCOPE with
  | true =>
    obtain ⟨hcause, -, hstop, hasserted, -, -, hislands⟩ :=
      State.assertSource_resets _ (hscope.trans (if_pos hwdt)) (by decide) (by decide) (by decide)
    exact ⟨hcause, hasserted, hstop, (hislands 13).trans (by rw [decide_eq_true (hwide 13 (by decide) (by decide))]; rfl),
      fun _ k h0 h12 => (hislands k).trans (by rw [decide_eq_true (hwide k h0 h12)]; rfl), fun h => absurd h (by decide)⟩
  | false =>
    obtain ⟨hcause, -, hstop, hasserted, -, -, hislands⟩ :=
      State.assertSource_resets _ (hscope.trans (if_neg (by simp [hwdt]))) (by decide) (by decide) (by decide)
    refine ⟨hcause, hasserted, hstop, hislands 13, fun h => absurd h (by decide), fun _ k hk => (hislands k).trans ?_⟩
    rw [decide_eq_false (fun h => hk (List.mem_singleton.mp h)), hruns]
    rfl

/-- Loss of power (R497, R498): every island is in reset without its clock, and PRESS_TIME is 0. -/
theorem State.assertSource_power (s : State) (hsrc : src ≤ 1) :
    let t := s.assertSource src 0
    src ∈ t.rst.asserted ∧ t.time.pt = 0 ∧ t.on PAR_STATUS_AUTH = false ∧
      ∀ k : Fin 17, t.get (RST_ISLAND_RSTATE k) = 1 ∧ t.on (RST_ISLAND_CLK_GOOD k) = false ∧ k.val ∈ t.rst.todo := by
  have hscope : s.scopeOf src 0 = List.range 17 := by
    interval_cases src <;> rfl
  have hble : Nat.ble src 1 = true := Nat.ble_eq.mpr hsrc
  obtain ⟨-, hasserted, htodo, hislands, -, -, hauth⟩ := s.assertSource_shows (src := src) (arg := 0) (by omega)
  rw [hscope] at htodo hislands hauth
  refine ⟨hasserted, ?_, (hauth (by decide)).1, fun k => ?_⟩
  · rw [State.assertSource_eq]
    show (s.scopeReset src 0).time.pt = 0
    rw [State.scopeReset, hscope, hble, List.range_succ_eq_map, List.foldl_cons]
    exact List.foldlRecOn (motive := fun y : State => y.time.pt = 0) _ _ (State.pt_resetIsland_zero _) fun y hy k _ => State.pt_resetIsland k hy
  · have hk : k.val ∈ List.range 17 := List.mem_range.mpr k.isLt
    have hshown := (hislands k).trans (if_pos hk)
    rw [hble] at hshown
    exact ⟨State.get_of_island hshown, congrArg IslandShows.clk hshown, htodo _ hk⟩

/-- The last source deasserts, with every waiting island passing (R498): the islands run, and the end is reported. -/
theorem State.deassert_last (hasserted : s.rst.asserted.filter (fun x => x != src) = []) (hcover : s.rst.cover ≠ []) (hstrap : s.rst.strapHold = false)
    (hpaired : s.paired = false) (hwait : s.rst.waitReset = []) (hclk : ∀ k : Fin 17, k.val ∈ s.rst.todo → k.val = 0 ∨ s.on (RST_ISLAND_CLK_GOOD k) = true) :
    let t := s.deassertSource src
    t.rst.asserted = [] ∧ t.rst.cover = [] ∧ t.web.resetStop = false ∧ (∀ k : Fin 17, k.val ∉ t.rst.todo) ∧
      (∀ k : Fin 17, k.val ∈ s.rst.todo → t.islandRuns k = true) ∧ (∀ k : Fin 17, k.val ∉ s.rst.todo → t.islandRuns k = s.islandRuns k) ∧
      PostsSome s t Ev.RESET_DONE 0xFFFF := by
  have hheld (j : Nat) : s.heldIsland j = false := by
    have hrole : (s.role != 0) = false := hpaired
    simp only [State.heldIsland, State.printHeld, State.passive, hrole, hstrap, Bool.false_and, Bool.and_false, Bool.or_false]
  have hstart : s.deassertSource src = (s.setRst { s.rst with asserted := [] }).release 18 := by rw [← hasserted]; rfl
  have hisland (j : Nat) : (s.setRst { s.rst with asserted := [] }).island j = s.island j := State.island_setRst _ _ _
  have hheld' (j : Nat) : (s.setRst { s.rst with asserted := [] }).heldIsland j = false := hheld j
  have hpasses : ∀ k ∈ (s.setRst { s.rst with asserted := [] }).releaseList, (s.setRst { s.rst with asserted := [] }).passes k := fun k hk => by
    have hk' := (mem_releaseList ⟨k, releaseList_lt hk⟩).mp hk
    refine .inr ((hclk ⟨k, releaseList_lt hk⟩ hk').imp_right fun h => ⟨h, ?_⟩)
    rw [State.rst_setRst]
    simp [hwait]
  obtain ⟨hreleased, hkept, htodo, hview, hhif, -⟩ := (s.setRst { s.rst with asserted := [] }).released_shows
  have heff := State.release_passes rfl rfl hpasses (releaseList_length _)
  generalize List.foldl State.releaseIsland _ _ = x at *
  have hcover' : x.rst.cover ≠ [] := fun h => hcover ((congrArg ResetView.cover hview).symm.trans h)
  obtain ⟨hacts, hdone, hposts, -⟩ := x.resetDone_shows
  have hruns (j : Fin 17) : x.resetDone.islandRuns j = x.islandRuns j := by
    have hnot : ∀ j : Fin 17, RST_ISLAND j ∉ evtRegs ∧ RST_ISLAND j ≠ RST_IRQ_CAUSE ∧ RST_ISLAND j ∉ logRegs ∧ RST_ISLAND j ≠ MOT_WEB_STATUS ∧
        RST_ISLAND j ≠ MOT_WEB_RATE := by decide
    obtain ⟨hevt, hirq, hlog, hweb, hrate⟩ := hnot j
    exact State.islandRuns_congr _ _ _ (hacts.rget _ (by simp [doneWrites, hevt, hirq, hlog, hweb, hrate]))
  have hopen (j : Fin 17) (hj : j.val ∈ s.rst.todo) : x.islandRuns j = true := by
    rw [State.islandRuns_eq, hreleased j hj, hheld']
    rfl
  have hsame (j : Fin 17) (hj : j.val ∉ s.rst.todo) : x.islandRuns j = s.islandRuns j :=
    State.islandRuns_of_island ((hkept j hj).trans (hisland j))
  rw [hstart, heff, if_neg hcover']
  refine ⟨?_, congrArg ResetView.cover hdone, congrArg ResetView.resetStop hdone, fun j => ?_, fun j hj => (hruns j).trans (hopen j hj),
    fun j hj => (hruns j).trans (hsame j hj), ?_⟩
  · exact (congrArg ResetView.asserted hdone).trans (congrArg ResetView.asserted hview)
  · have htodo' : x.resetDone.rst.todo = x.rst.todo := congrArg ResetView.todo hdone
    rw [htodo']
    exact htodo j
  · refine hposts.later (GoesOn.of_hif hhif) fun h1 => ?_
    by_cases hmem : 1 ∈ s.rst.todo
    · exact hopen 1 hmem
    · exact (hsame 1 hmem).trans h1

/-- An island waits for its release alone. -/
theorem State.find_todo_one (k : Fin 17) (h : s.rst.todo = [k.val]) : releaseOrder.find? (fun x => s.rst.todo.contains x) = some k.val := by
  have hall : ∀ k : Fin 17, releaseOrder.find? (fun x => [k.val].contains x) = some k.val := by decide
  rw [h]
  exact hall k

/-- The state in which the clock of an island is found to have failed (R496, R498). -/
def State.clockFailed (s : State) (k : Nat) : State :=
  (s.setRst { s.rst with todo := s.rst.todo.filter (fun x => x != k), waitReset := s.rst.waitReset.filter (fun x => x != k) }).setIsland k 3

theorem State.clockTimeout_eq (hasserted : s.rst.asserted = []) (htodo : s.rst.todo = [k.val]) (hk : k.val ≠ 0)
    (hclk : s.on (RST_ISLAND_CLK_GOOD k) = false) :
    s.clockTimeout k = (((s.clockFailed k).report Ev.CLOCK_FAIL k [k, s.get (RST_ISLAND_MHZ k)] RST_IRQ_CAUSE_CLOCK_FAIL).logEvent Ev.CLOCK_FAIL
      [k, s.get (RST_ISLAND_MHZ k)]).releaseAll :=
  if_pos ⟨hasserted, State.find_todo_one k htodo, by simp [hclk], hk⟩

/-- The end of a release in which no island waits, if it ends a reset. -/
theorem State.releaseAll_none (hasserted : s.rst.asserted = []) (htodo : s.rst.todo = []) :
    Acts doneWrites s s.releaseAll ∧ s.releaseAll.rst.todo = [] := by
  have hlist : s.releaseList = [] := by rw [State.releaseList, htodo]; rfl
  rw [State.releaseAll, State.release_end hasserted hlist]
  split_ifs
  · exact ⟨Acts.refl s, htodo⟩
  · obtain ⟨hacts, hview, -⟩ := s.resetDone_shows
    exact ⟨hacts, (congrArg ResetView.todo hview).trans htodo⟩

theorem island_not_done (j : Fin 17) : ¬doneWrites (RST_ISLAND j) := by
  have hnot : ∀ j : Fin 17, RST_ISLAND j ∉ evtRegs ∧ RST_ISLAND j ≠ RST_IRQ_CAUSE ∧ RST_ISLAND j ∉ logRegs ∧ RST_ISLAND j ≠ MOT_WEB_STATUS ∧
      RST_ISLAND j ≠ MOT_WEB_RATE := by decide
  obtain ⟨hevt, hirq, hlog, hweb, hrate⟩ := hnot j
  simp [doneWrites, hevt, hirq, hlog, hweb, hrate]

/-- An island whose clock did not come shows CLOCK_FAIL, and the release goes on. -/
theorem State.clockTimeout_shows (hasserted : s.rst.asserted = []) (htodo : s.rst.todo = [k.val]) (hk : k.val ≠ 0)
    (hclk : s.on (RST_ISLAND_CLK_GOOD k) = false) (hruns : s.islandRuns k = false) :
    let t := s.clockTimeout k
    t.get (RST_ISLAND_RSTATE k) = 3 ∧ t.on (RST_ISLAND_FENCED k) = true ∧ t.rst.todo = [] ∧
      Posts s t Ev.CLOCK_FAIL k [k, s.get (RST_ISLAND_MHZ k)] := by
  rw [State.clockTimeout_eq hasserted htodo hk hclk]
  have hisland : (s.clockFailed k).island k = { s.island k with rstate := 3, fenced := true } :=
    (State.island_setIsland_same _ _ (by decide)).trans (by rw [State.island_setRst]; rfl)
  have hrst : (s.clockFailed k).rst.todo = [] ∧ (s.clockFailed k).rst.asserted = [] := by
    rw [State.clockFailed, State.setIsland_rst, State.rst_setRst, htodo]
    exact ⟨by simp, hasserted⟩
  have hhif : (s.clockFailed k).hif = s.hif := by rw [State.clockFailed, State.setIsland, State.putB_hif, State.put_hif]; rfl
  have htime : (s.clockFailed k).time = s.time := by rw [State.clockFailed, State.setIsland, State.putB_time, State.put_time]; rfl
  have hposts : Posts s ((s.clockFailed k).report Ev.CLOCK_FAIL k [k, s.get (RST_ISLAND_MHZ k)] RST_IRQ_CAUSE_CLOCK_FAIL) Ev.CLOCK_FAIL k
      [k, s.get (RST_ISLAND_MHZ k)] := by
    by_cases hone : k.val = 1
    · intro htakes
      rw [hone] at hruns
      exact absurd htakes.1 (by simp [hruns])
    · exact (Posts.of_event s _ _ _ _ hhif htime (State.rget_setIsland_ne _ _ (rstIsland_ne hone)) (by decide)).cause _
  have hreport : Acts doneWrites (s.clockFailed k) ((s.clockFailed k).report Ev.CLOCK_FAIL k [k, s.get (RST_ISLAND_MHZ k)] RST_IRQ_CAUSE_CLOCK_FAIL) :=
    (Acts.refl _).report _ _ _ _ doneWrites_evt (.inr (.inl rfl))
  have hview := (s.clockFailed k).report_view Ev.CLOCK_FAIL k [k, s.get (RST_ISLAND_MHZ k)] RST_IRQ_CAUSE_CLOCK_FAIL
  generalize s.clockFailed k = x at *
  generalize x.report Ev.CLOCK_FAIL k [k, s.get (RST_ISLAND_MHZ k)] RST_IRQ_CAUSE_CLOCK_FAIL = y at *
  have hlog := Acts.logEvent y Ev.CLOCK_FAIL [k, s.get (RST_ISLAND_MHZ k)]
  have hlogged := (LogOnly.logEvent y Ev.CLOCK_FAIL [k, s.get (RST_ISLAND_MHZ k)]).view.trans hview
  generalize y.logEvent Ev.CLOCK_FAIL [k, s.get (RST_ISLAND_MHZ k)] = z at *
  obtain ⟨hend, htodo'⟩ := State.releaseAll_none (s := z) ((congrArg ResetView.asserted hlogged).trans hrst.2)
    ((congrArg ResetView.todo hlogged).trans hrst.1)
  have hacts := (hreport.trans hlog).trans hend
  have hshown := (State.island_of_rget (hacts.rget _ (island_not_done k))).trans hisland
  exact ⟨State.get_of_island hshown, State.fenced_of_island hshown, htodo', hposts.extends (hlog.trans hend).toExtends⟩

/-- The state in which an island's clock is shown. -/
def State.clockShown (s : State) (k : Nat) (good : Bool) (mhz : Nat) : State := (s.putB (RST_ISLAND_CLK_GOOD k) good).put (RST_ISLAND_MHZ k) mhz

theorem State.island_clockShown (s : State) (k : Nat) (good : Bool) (mhz : BitVec 16) :
    (s.clockShown k good mhz.toNat).island k = { s.island k with clk := good, mhz := mhz.toNat } := by
  have hmhz : (s.clockShown k good mhz.toNat).get (RST_ISLAND_MHZ k) = mhz.toNat :=
    (State.get_put_same _ _ _ rfl).trans (Nat.mod_eq_of_lt mhz.isLt)
  have hclk : (s.clockShown k good mhz.toNat).on (RST_ISLAND_CLK_GOOD k) = good := by
    rw [State.clockShown, State.on_put_apart _ _ _ _ rfl (Fld.apart_of_bits rfl), State.on_putB_same _ _ _ rfl]
  have hget (f : Fld) (h1 : (RST_ISLAND_MHZ k).apart f) (h2 : (RST_ISLAND_CLK_GOOD k).apart f) :
      (s.clockShown k good mhz.toNat).get f = s.get f := by
    rw [State.clockShown, State.get_put_apart _ _ _ _ rfl h1, State.get_putB_apart _ _ _ _ rfl h2]
  simp only [State.island, hmhz, hclk, hget (RST_ISLAND_RSTATE k) (Fld.apart_of_bits rfl) (Fld.apart_of_bits rfl),
    State.on_eq_of_get _ _ _ (hget (RST_ISLAND_FENCED k) (Fld.apart_of_bits rfl) (Fld.apart_of_bits rfl))]

/-- A waiting island whose clock comes enters its reset. -/
def State.resetNow (s : State) (k : Nat) : State :=
  ((s.wipeIsland k).setIsland k 1).setRst { (s.wipeIsland k).rst with waitReset := s.rst.waitReset.filter (fun x => x != k) }

theorem State.clockGood_good (s : State) (k mhz : Nat) : s.clockGood k true mhz =
    State.releaseAll (if (s.clockShown k true mhz).rst.waitReset.contains k = true then (s.clockShown k true mhz).resetNow k
      else s.clockShown k true mhz) := by
  unfold State.clockGood
  simp only [Bool.not_true, Bool.false_eq_true, if_false]
  rfl

theorem State.clockGood_waiting (s : State) (mhz : BitVec 16) (hwait : s.rst.waitReset = [k.val]) (hasserted : s.rst.asserted ≠ []) :
    s.clockGood k true mhz.toNat = (s.clockShown k true mhz.toNat).resetNow k := by
  have hrst : (s.clockShown k true mhz.toNat).rst = s.rst := by rw [State.clockShown, State.put_rst, State.putB_rst]
  have hcontains : (s.clockShown k true mhz.toNat).rst.waitReset.contains k.val = true := by rw [hrst, hwait]; simp
  have hstands : ((s.clockShown k true mhz.toNat).resetNow k).rst.asserted ≠ [] := by
    have hview := (s.clockShown k true mhz.toNat).resetView_wipeIsland k
    refine ne_of_eq_of_ne ((congrArg ResetView.asserted hview).trans ?_) hasserted
    exact congrArg Rst.asserted hrst
  rw [State.clockGood_good, if_pos hcontains]
  exact State.release_asserted hstands

/-- RST_SW names an island (R503). -/
theorem bit_named {v k : Nat} (h1 : 1 ≤ k) (h16 : k ≤ 16) : bit (bits v 16 1 * 2) k = bit v k := by
  rw [bit_eq_testBit, bit_eq_testBit, show bits v 16 1 * 2 = bits v 16 1 * 2 ^ 1 from rfl, Nat.testBit_mul_two_pow, bits_testBit]
  simp [h1, show k - 1 < 16 by omega, show 1 + (k - 1) = k by omega]

/-- RST_SW names an island beside the host's. -/
theorem soft_scope {v : Nat} (h : bits v 16 2 ≠ 0) : bits v 16 1 * 2 ≠ 0 ∧ bits v 16 1 * 2 ≠ 2 ∧
    (((List.range 17).drop 1).filter (fun k => bit (bits v 16 1 * 2) k)).any (fun k => k != 1) = true := by
  obtain ⟨i, hi⟩ := Nat.exists_testBit_of_ne_zero h
  rw [bits_testBit, Bool.and_eq_true, decide_eq_true_eq] at hi
  obtain ⟨hlt, hbit⟩ := hi
  have hlarge : 2 ≤ bits v 16 1 := by
    simp only [bits] at h ⊢
    omega
  refine ⟨by omega, by omega, List.any_eq_true.mpr ⟨2 + i, List.mem_filter.mpr ⟨?_, ?_⟩, ?_⟩⟩
  · rw [List.range_eq_range', List.drop_range', List.mem_range'_1]
    omega
  · rw [bit_named (by omega) (by omega), bit_eq_testBit, hbit]
  · simp
    omega

theorem mem_soft_scope (v : Nat) (k : Fin 17) :
    k.val ∈ ((List.range 17).drop 1).filter (fun k => bit (bits v 16 1 * 2) k) ↔ k.val ≠ 0 ∧ bit v k = true := by
  have hdrop : ∀ k : Fin 17, k.val ∈ (List.range 17).drop 1 ↔ k.val ≠ 0 := by decide
  rw [List.mem_filter, hdrop k]
  refine and_congr_right fun hk => ?_
  rw [bit_named (by omega) (by omega)]

theorem vbatCnt_ne {i j : Nat} (h : i ≠ j) : RST_VBAT_CNT i ≠ RST_VBAT_CNT j := by
  unfold RST_VBAT_CNT
  omega

/-- Every backup counter is cleared (R511). -/
theorem State.clrCnt_shows (s : State) : (∀ k : Fin 10, s.clrCnt.get (RST_VBAT_CNT_COUNT k) = 0) ∧ RegsOnly s s.clrCnt ∧
    Keeps s s.clrCnt ((List.range 10).map RST_VBAT_CNT) := by
  refine ⟨fun k => ?_, ?_, ?_⟩
  · have hcleared := foldl_at (π := fun y : State => y.get (RST_VBAT_CNT_COUNT k)) (f := fun s k => s.put (RST_VBAT_CNT_COUNT k) 0) (g := fun _ => 0)
      (L := List.range 10) (P := fun _ => True) (fun y j _ hj => State.get_put_apart y _ _ 0 rfl (.inl (vbatCnt_ne hj)))
      (fun y _ => State.get_put_same y (RST_VBAT_CNT_COUNT k) 0 rfl) (fun _ _ _ _ => trivial) List.nodup_range s trivial
    exact hcleared.trans (if_pos (List.mem_range.mpr k.isLt))
  · exact List.foldlRecOn (motive := RegsOnly s) _ _ (RegsOnly.refl s) fun y hy k _ => hy.put _ _
  · exact List.foldlRecOn (motive := fun y => Keeps s y ((List.range 10).map RST_VBAT_CNT)) _ _ (Keeps.refl s _)
      fun y hy k hk => hy.put (RST_VBAT_CNT_COUNT k) 0 (List.mem_map_of_mem hk)

end ResetSources

/-- Settles O56: a source that asserts is `State.assertSource_shows` (with `State.assertSource_scope`, `State.assertSource_power`), the last
one that deasserts `State.deassert_last`, a clock that fails or comes `State.clockTimeout_shows` and `State.clockGood_waiting`. -/
theorem resetSources : Obligations.ResetSources := by
  unfold Obligations.ResetSources
  refine ⟨?resetN, ?fence, ?assert, ?rail, ?refClk, ?deassert, ?last, ?timeout, ?clkLost, ?clkGood, ?expire, ?disabled, ?kick, ?badKick, ?badKey, ?soft,
    ?clear, ?vbat⟩
  case resetN =>
    intro s
    have hin : ∀ k : Fin 17, k.val ≠ 0 → k.val ∈ (List.range 17).drop 1 := by decide
    obtain ⟨hcause, hauth, hstop, hasserted, hscope, hout, -⟩ := s.assertSource_resets (src := 2) (arg := 0) (scope := (List.range 17).drop 1) rfl (by decide) (by decide) (by decide)
    have hexec : exec .resetNAssert s = finish (s.assertSource 2 0) := rfl
    generalize s.assertSource 2 0 = t at *
    refine ⟨_, hexec, hcause, hauth, hstop, hasserted, fun k hk => ?_, hout 0 (by decide)⟩
    obtain ⟨htodo, hfenced, hrstate⟩ := hscope k (hin k hk)
    exact ⟨htodo, hfenced, hrstate hk⟩
  case fence =>
    intro s
    have hin : ∀ k : Fin 17, k.val ≠ 0 → k.val ≠ 12 → k.val ∈ (List.range 17).filter (fun k => k != 0 && k != 12) := by decide
    have hnot : ∀ k : Fin 17, k.val = 0 ∨ k.val = 12 → k.val ∉ (List.range 17).filter (fun k => k != 0 && k != 12) := by decide
    obtain ⟨hcause, hauth, hstop, hasserted, hscope, hout, -⟩ := s.assertSource_resets (src := 9) (arg := 0)
      (scope := (List.range 17).filter (fun k => k != 0 && k != 12)) rfl (by decide) (by decide) (by decide)
    have hexec : exec .peerFenceInAssert s = finish (s.assertSource 9 0) := rfl
    generalize s.assertSource 9 0 = t at *
    refine ⟨_, hexec, hcause, hauth, hstop, hasserted, fun k h0 h12 => ?_, fun k hk => hout k (hnot k hk)⟩
    obtain ⟨htodo, hfenced, hrstate⟩ := hscope k (hin k h0 h12)
    exact ⟨htodo, hfenced, hrstate h0⟩
  case assert =>
    intro s src isl hpower
    obtain ⟨hcause, hasserted, -⟩ := s.assertSource_shows (src := src) (arg := isl.toNat) src.isLt
    have hin (k : Fin 17) (hk : k.val ∈ s.scopeOf src isl.toNat) := s.assertSource_scope src.isLt hpower k hk
    have hout (k : Fin 17) (hk : k.val ∉ s.scopeOf src isl.toNat) := s.assertSource_outside src.isLt k hk
    have hexec : exec (.resetAssert src isl) s = finish (s.assertSource src isl.toNat) := rfl
    generalize s.assertSource src isl.toNat = t at *
    exact ⟨_, hexec, hcause, hasserted, fun k hk => ⟨(hin k hk).1, (hin k hk).2.1⟩, hout⟩
  case rail =>
    intro s core
    have hsrc : (if core = true then 1 else 0) = b2n core := by cases core <;> rfl
    obtain ⟨hasserted, hpt, hauth, hislands⟩ := s.assertSource_power (src := b2n core) (by cases core <;> decide)
    have hexec : exec (.railDrop core) s = finish (s.assertSource (b2n core) 0) := by rw [← hsrc]; rfl
    generalize s.assertSource (b2n core) 0 = t at *
    exact ⟨_, hexec, hasserted, hpt, hauth, hislands⟩
  case refClk =>
    intro s
    obtain ⟨hasserted, hpt, hauth, hislands⟩ := s.assertSource_power (src := 0) (by decide)
    have hexec : exec .refClkFail s = finish (s.assertSource 0 0) := rfl
    generalize s.assertSource 0 0 = t at *
    exact ⟨_, hexec, hasserted, hpt, hauth, hislands⟩
  case deassert =>
    intro s src hthermal hmem hothers
    have heff : s.deassertSource src = s.setRst { s.rst with asserted := s.rst.asserted.filter (fun x => x != src.val) } :=
      State.release_asserted (s := s.setRst { s.rst with asserted := s.rst.asserted.filter (fun x => x != src.val) }) hothers
    exact ⟨_, congrArg finish ((if_neg (by simp [hthermal, hmem])).trans heff), Alters.of_regsOnly rfl (RegsOnly.refl (s.setRst _)) (Keeps.refl s _)⟩
  case last =>
    intro s src hthermal hasserted hcover hstrap hpaired hwait hclk
    obtain ⟨hnone, hclosed, hstop, htodo, hruns, hsame, hposts⟩ :=
      State.deassert_last (src := src) (by simp [hasserted]) hcover hstrap hpaired hwait hclk
    have hexec : exec (.resetDeassert src) s = finish (s.deassertSource src) := congrArg finish (if_neg (by simp [hthermal, hasserted]))
    generalize s.deassertSource src = t at *
    exact ⟨_, hexec, hnone, hclosed, hstop, htodo, hruns, hsame, hposts.trackIrq⟩
  case timeout =>
    intro s k hasserted htodo hk hclk hruns
    obtain ⟨hrstate, hfenced, hnone, hposts⟩ := State.clockTimeout_shows hasserted htodo hk hclk hruns
    have hexec : exec (.islandClockTimeout k) s = finish (s.clockTimeout k) := rfl
    generalize s.clockTimeout k = t at *
    exact ⟨_, hexec, hrstate, hfenced, hnone, hposts.trackIrq⟩
  case clkLost =>
    intro s k mhz
    have hisland := s.island_clockShown k false mhz
    have hexec : exec (.islandClockGood k false mhz) s = finish (s.clockShown k false mhz.toNat) := rfl
    have honly : RegsOnly s (s.clockShown k false mhz.toNat) := ((RegsOnly.refl s).putB _ _).put _ _
    have hkeeps : Keeps s (s.clockShown k false mhz.toNat) [RST_ISLAND k] :=
      ((Keeps.refl s _).putB _ _ List.mem_cons_self).put _ _ List.mem_cons_self
    generalize s.clockShown k false mhz.toNat = t at *
    refine ⟨_, hexec, congrArg IslandShows.clk hisland, congrArg IslandShows.mhz hisland, ?_, Silent.of_regsOnly honly hkeeps⟩
    have hruns : t.islandRuns k = s.islandRuns k := by rw [State.islandRuns_eq, State.islandRuns_eq, hisland]
    exact hruns
  case clkGood =>
    intro s k mhz hk hwait hasserted
    have heff := s.clockGood_waiting mhz hwait hasserted
    have hisland : ((s.clockShown k true mhz.toNat).resetNow k).island k = { s.island k with rstate := 1, fenced := true, clk := true, mhz := mhz.toNat } := by
      rw [State.resetNow, State.island_setRst, State.island_setIsland_same _ _ (by decide), State.island_wipeIsland, State.island_clockShown]
      rfl
    have hnone : ((s.clockShown k true mhz.toNat).resetNow k).rst.waitReset = [] := by
      rw [State.resetNow, State.rst_setRst, State.clockShown, State.put_rst, State.putB_rst, hwait]
      simp
    generalize (s.clockShown k true mhz.toNat).resetNow k = t at *
    exact ⟨_, congrArg finish heff, congrArg IslandShows.clk hisland, congrArg IslandShows.mhz hisland, State.get_of_island hisland, hnone⟩
  case expire =>
    intro s hen
    have hshows := s.wdtExpire_shows
    have hexec : exec .watchdogExpire s = finish s.wdtExpire := congrArg finish (if_pos hen)
    generalize s.wdtExpire = t at *
    exact ⟨_, hexec, hshows⟩
  case disabled => exact fun s hen => ⟨_, congrArg finish (if_neg (by simp [hen])), Silent.refl s⟩
  case kick =>
    intro s req v hreq hrun hkey
    have heff := State.reqWrite_island (s := s) (fun s => s.wdtKick v.toNat) (a := RST_WDT_KICK) (by decide) hreq hrun
    exact ⟨_, congrArg finish (heff.trans (if_pos hkey)), Alters.of_regsOnly rfl (RegsOnly.refl (s.setRst _)) (Keeps.refl s _)⟩
  case badKick =>
    intro s req v hreq hrun hkey
    have heff := State.reqWrite_island (s := s) (fun s => s.wdtKick v.toNat) (a := RST_WDT_KICK) (by decide) hreq hrun
    obtain ⟨hcause, hasserted, -, hruns, -⟩ := s.wdtExpire_shows
    have hexec : exec (.watchdogKick req v) s = finish s.wdtExpire := congrArg finish (heff.trans (if_neg hkey))
    generalize s.wdtExpire = t at *
    exact ⟨_, hexec, hcause, hasserted, hruns⟩
  case badKey =>
    intro s req v hreq hrun hkey
    have heff := State.reqWrite_island (s := s) (fun s => s.rstSwWrite v.toNat) (a := RST_SW) (by decide) hreq hrun
    exact ⟨_, congrArg finish (heff.trans (if_pos hkey)), Silent.refl s⟩
  case soft =>
    intro s req v hreq hrun hkey hnamed
    have heff := State.reqWrite_island (s := s) (fun s => s.rstSwWrite v.toNat) (a := RST_SW) (by decide) hreq hrun
    obtain ⟨hsome, hhost, hany⟩ := soft_scope hnamed
    have hassert : s.rstSwWrite v.toNat = s.assertSource 7 (bits v.toNat 16 1 * 2) :=
      (if_neg (not_not_intro hkey)).trans ((if_neg hsome).trans (if_neg hhost))
    obtain ⟨hcause, -, hstop, -, hscope, hout, -⟩ := s.assertSource_resets (src := 7) (arg := bits v.toNat 16 1 * 2)
      (scope := ((List.range 17).drop 1).filter (fun k => bit (bits v.toNat 16 1 * 2) k)) rfl (by decide) (by decide) hany
    rw [← hassert] at hcause hstop hscope hout
    generalize s.rstSwWrite v.toNat = t at *
    refine ⟨_, congrArg finish heff, hcause, hstop, fun k hk hbit => ?_, fun k hk => hout k fun hmem => ?_⟩
    · obtain ⟨htodo, hfenced, -⟩ := hscope k ((mem_soft_scope v.toNat k).mpr ⟨hk, hbit⟩)
      exact ⟨hfenced, htodo⟩
    · obtain ⟨h0, hbit⟩ := (mem_soft_scope v.toNat k).mp hmem
      exact hk.elim h0 fun h => absurd hbit (by simp [h])
  case clear =>
    intro s req hreq hrun
    have heff := State.reqWrite_island (s := s) (fun s => s.clrCnt) (a := RST_VBAT_CTRL) (by decide) hreq hrun
    obtain ⟨hcnt, honly, hkeeps⟩ := s.clrCnt_shows
    generalize s.clrCnt = t at *
    exact ⟨_, congrArg finish heff, hcnt, Silent.of_regsOnly honly hkeeps⟩
  case vbat =>
    intro s
    obtain ⟨hcnt, honly, hkeeps⟩ := s.clrCnt_shows
    have hexec : exec .vbatLoss s = finish ((s.clrCnt.putB RST_VBAT_CTRL_THERM_LATCH false).setRst { s.rst with vbatGone := true }) := rfl
    have hne : ∀ k : Fin 10, RST_VBAT_CTRL ≠ RST_VBAT_CNT k := by decide
    have hcnt' (k : Fin 10) : (s.clrCnt.putB RST_VBAT_CTRL_THERM_LATCH false).get (RST_VBAT_CNT_COUNT k) = 0 :=
      (State.get_putB_apart _ _ _ _ rfl (.inl (hne k))).trans (hcnt k)
    have hlatch : (s.clrCnt.putB RST_VBAT_CTRL_THERM_LATCH false).on RST_VBAT_CTRL_THERM_LATCH = false := State.on_putB_same _ _ _ rfl
    have honly' := honly.putB RST_VBAT_CTRL_THERM_LATCH false
    have hkeeps' := (hkeeps.mono (fun _ => List.mem_cons_of_mem RST_VBAT_CTRL)).putB RST_VBAT_CTRL_THERM_LATCH false List.mem_cons_self
    generalize s.clrCnt.putB RST_VBAT_CTRL_THERM_LATCH false = t at *
    refine ⟨_, hexec, hcnt', hlatch, Alters.of_regsOnly rfl ?_ (hkeeps'.setRst _)⟩
    unfold RegsOnly at *
    rw [honly']
    rfl

end Sys2Proof.Machine

namespace Sys2Proof.Machine

/-! ### What a job take leaves of the host's side (R106, R111) -/

/-- RST_ISLAND of the host's island and the link stay, and sequence numbers of entries are only taken. -/
structure HostStays (s x : State) : Prop extends GoesOn s x where
  island : x.rget (RST_ISLAND 1) = s.rget (RST_ISLAND 1)

section HostStays
variable {s x y : State}

theorem HostStays.refl (s : State) : HostStays s s := ⟨GoesOn.refl s, rfl⟩
theorem HostStays.trans (h : HostStays s x) (h' : HostStays x y) : HostStays s y :=
  ⟨h.toGoesOn.trans h'.toGoesOn, h'.island.trans h.island⟩
theorem HostStays.of_records (hr : x.regs = s.regs) (hh : x.hif = s.hif) : HostStays s x :=
  ⟨GoesOn.of_hif hh, by rw [State.rget, hr, ← State.rget]⟩
theorem HostStays.foldl {α : Type} {f : State → α → State} (hf : ∀ y a, HostStays y (f y a)) (l : List α) (s : State) : HostStays s (l.foldl f s) :=
  List.foldlRecOn (motive := HostStays s) l f (HostStays.refl s) fun y hy a _ => hy.trans (hf y a)

theorem HostStays.rset (h : HostStays s x) (a : Nat) (v : Word) (ha : a ≠ RST_ISLAND 1) : HostStays s (x.rset a v) :=
  ⟨h.toGoesOn.trans (GoesOn.of_hif rfl), (State.rget_rset_ne _ _ _ _ ha).trans h.island⟩
theorem HostStays.put (h : HostStays s x) (f : Fld) (v : Nat) (hf : f.off ≠ RST_ISLAND 1) : HostStays s (x.put f v) := h.rset _ _ hf
theorem HostStays.putB (h : HostStays s x) (f : Fld) (b : Bool) (hf : f.off ≠ RST_ISLAND 1) : HostStays s (x.putB f b) := h.put f _ hf
theorem HostStays.setUst (h : HostStays s x) (u : UnitId) (v : UState) (hu : u ≠ .mirror) (hf : (stateFld u).off ≠ RST_ISLAND 1) :
    HostStays s (x.setUst u v) := by
  rw [State.setUst_eq _ _ _ hu]
  exact h.put _ _ hf
theorem HostStays.setPend (h : HostStays s x) (u : UnitId) (b : Bool) (hu : u ≠ .mirror) (hf : (stateFld u).off ≠ RST_ISLAND 1) :
    HostStays s (x.setPend u b) := by
  rw [State.setPend_eq _ _ _ hu]
  exact h.putB _ _ hf

theorem HostStays.report (h : HostStays s x) (c u : Nat) (p : List Nat) (f : Fld) (hf : f.off ≠ RST_ISLAND 1) : HostStays s (x.report c u p f) :=
  ⟨h.toGoesOn.report c u p f, (x.rget_report c u p hf (by decide)).trans h.island⟩

theorem HostStays.headOnly (h : HostStays s x) (hy : HeadOnly x y) : HostStays s y :=
  h.trans (HostStays.of_records hy.regs (HeadRegs.of_headOnly hy).hif)

theorem HostStays.jrn (h : HostStays s x) (r : JrnRec) : HostStays s (x.jrn r) := by
  obtain ⟨p, hp, -⟩ := x.jrn_par r
  rw [hp]
  exact h.trans (HostStays.of_records rfl rfl)

theorem HostStays.of_ledger (hgo : GoesOn s x) (h : Extends ledgerWrites s x) : HostStays s x := ⟨hgo, h.rget _ ledgerWrites.not_island⟩

theorem HostStays.adoptTile (s : State) (g : Nat) (d : DescBits) : HostStays s (s.adoptTile g d) := by
  obtain ⟨as, cols, p, n, hhead⟩ := s.adoptTile_eq g d
  exact (((HostStays.of_ledger (GoesOn.adopting s g d as cols) (Extends.adopting s g d as cols)).report _ _ _ LDG_IRQ_CAUSE_TILE (by decide)).put
    LDG_STATUS_UNADOPTED n (by decide)).headOnly hhead

theorem HostStays.setLdg (h : HostStays s x) (l : Ledger) : HostStays s (x.setLdg l) := h.trans (HostStays.of_records rfl rfl)

theorem HostStays.checkTile (s : State) (e : MapEntry) : HostStays s (s.checkTile e) := by
  unfold State.checkTile
  split
  · exact HostStays.refl s
  · split
    · exact (((HostStays.refl s).setLdg _).put _ _ (by decide)).headOnly (HeadOnly.setCtl ..)
    · split
      · exact HostStays.adoptTile ..
      · exact ((((HostStays.refl s).headOnly (HeadOnly.setCtl ..)).setLdg _).put _ _ (by decide)).report _ _ _ LDG_IRQ_CAUSE_TILE (by decide)

theorem HostStays.columnEvent (s : State) (g c m : Nat) (dead : Bool) (eff : Nat) : HostStays s (s.columnEvent g c m dead eff) :=
  HostStays.of_ledger (Upkeep.columnEvent ..).toGoesOn ((Extends.refl s).columnEvent ..)

theorem HostStays.rebuildDead (s : State) (per : Nat) (take : Bool) : HostStays s (s.rebuildDead per take) := by
  have hcolumns (g : Nat) (m : Nat → Nat) (b : Nat → Bool) (eff : Nat) (y : State) :
      HostStays y ((List.range 4096).foldl (fun a c => a.columnEvent g c (m c) (b c) eff) y) :=
    HostStays.foldl (fun z c => HostStays.columnEvent z ..) _ y
  have htiles (m : Nat → List Nat) (y : State) : HostStays y (s.entries.foldl (fun (a : State) (e : MapEntry) => a.forceMasks e.g 0 (m e.g)) y) :=
    HostStays.foldl (f := fun (a : State) (e : MapEntry) => a.forceMasks e.g 0 (m e.g)) (fun _ _ => HostStays.of_records rfl rfl) _ y
  unfold State.rebuildDead
  extract_lets table l s0 masks s1
  have hs0 : HostStays s s0 := by
    unfold s0
    split
    · exact (HostStays.refl s).setLdg _
    · exact HostStays.refl s
  have hs1 : HostStays s s1 := hs0.trans (HostStays.foldl (fun y e => ((HostStays.refl y).setLdg _).trans (hcolumns ..)) _ s0)
  clear_value s1 masks
  split
  · exact (hs1.trans (htiles masks s1)).setLdg _
  · exact hs1

theorem HeadOnly.sendLoad (s : State) (p slot op : Nat) (payload : List Byte) : HeadOnly s (s.sendLoad p slot op payload) := by
  unfold State.sendLoad
  dsimp only
  split
  · exact (HeadOnly.setCtl ..).trans (HeadOnly.sendNow ..)
  · exact HeadOnly.setCtl ..

theorem slotStatus_ne_island (p slot : Nat) : HLK_SLOT_STATUS p slot ≠ RST_ISLAND 1 := by
  unfold HLK_SLOT_STATUS RST_ISLAND
  omega

theorem HostStays.showAssign (h : HostStays s x) (p slot ident : Nat) (b : Bool) : HostStays s (x.showAssign p slot ident b) :=
  (h.put (HLK_SLOT_STATUS_ID p slot) _ (slotStatus_ne_island p slot)).putB (HLK_SLOT_STATUS_ASSIGNED p slot) b (slotStatus_ne_island p slot)

theorem HostStays.showSlot (h : HostStays s x) (p slot : Nat) : HostStays s (x.showSlot p slot) := by
  unfold State.showSlot
  split
  · exact (h.putB (HLK_SLOT_STATUS_LOADED p slot) _ (slotStatus_ne_island p slot)).putB (HLK_SLOT_STATUS_FAULT p slot) _ (slotStatus_ne_island p slot)
  · exact h

theorem HostStays.sendLoad (h : HostStays s x) (p slot op : Nat) (payload : List Byte) : HostStays s (x.sendLoad p slot op payload) :=
  h.headOnly (HeadOnly.sendLoad ..)

theorem HostStays.loadTile (s : State) (j : Job) (e : MapEntry) : HostStays s (s.loadTile j e) := by
  unfold State.loadTile
  extract_lets q c ctl s0 s1 s2
  have hs0 : HostStays s s0 := (HostStays.refl s).headOnly (HeadOnly.setCtl ..)
  have hs1 : HostStays s s1 := ((((hs0.sendLoad ..).showAssign ..).sendLoad ..).sendLoad ..).sendLoad ..
  have hs2 : HostStays s s2 := (hs1.sendLoad ..).sendLoad ..
  exact (hs2.trans (HostStays.foldl (fun y i => (HostStays.refl y).sendLoad ..) _ s2)).showSlot ..

theorem HostStays.unassignOthers (s : State) : HostStays s s.unassignOthers :=
  HostStays.foldl (fun y _ => ((HostStays.refl y).headOnly (HeadOnly.sendNow ..)).showAssign ..) _ s

theorem HostStays.clearJobFaults (s : State) : HostStays s s.clearJobFaults := by
  refine HostStays.foldl (fun y e => ?_) _ s
  split
  · exact (HostStays.refl y).headOnly (HeadOnly.sendNow ..)
  · exact HostStays.refl y

theorem barRegs_ne_island (q : Nat) : LED_BAR_STATUS q ≠ RST_ISLAND 1 ∧ LED_DOSE_MARK q ≠ RST_ISLAND 1 := by
  unfold LED_BAR_STATUS LED_DOSE_MARK RST_ISLAND
  omega

theorem HostStays.barFault (h : HostStays s x) (q : Fin 8) (reason pos : Nat) : HostStays s (x.barFault q reason pos) := by
  obtain ⟨hstatus, -⟩ := barRegs_ne_island q
  have hbar : stateFld (barUnit q) = LED_BAR_STATUS_STATE q := by revert q; decide
  have hmirror : barUnit q ≠ .mirror := by simp [barUnit]
  have hoff : (stateFld (barUnit q)).off ≠ RST_ISLAND 1 := hbar ▸ hstatus
  have hshown : HostStays s (((x.setUst (barUnit q) .fault).setPend (barUnit q) false).setReason (barUnit q) reason) := by
    have hset := (h.setUst (barUnit q) .fault hmirror hoff).setPend (barUnit q) false hmirror hoff
    unfold State.setReason
    split
    · exact hset.put _ _ hoff
    · exact hset
  have hreported := (hshown.report Ev.BAR_FAULT q [reason, pos] LED_IRQ_CAUSE_BAR_FAULT (by decide)).putB (LED_BAR_STATUS_EMIT q) false hstatus
  unfold State.barFault State.faultUnit
  split
  · exact hreported
  · exact hreported
  · exact h.trans (HostStays.of_records rfl rfl)
  · exact h

theorem HostStays.barTake (s : State) (q : Fin 8) (mode per : Nat) : HostStays s (s.barTake q mode per) := by
  unfold State.barTake
  extract_lets b s1 b0 pf
  have hbar (b : Bar) : HostStays s (s.setBar q b) := HostStays.of_records rfl rfl
  have hs1 : HostStays s s1 := (hbar _).rset _ _ (barRegs_ne_island q).2
  split
  · exact hs1.barFault q _ _
  · exact hs1

theorem planeRegs_ne_island (q : Nat) : PLN_FIRE_ACTIVE q ≠ RST_ISLAND 1 ∧ PLN_OFFSET_LINES q ≠ RST_ISLAND 1 ∧ PLN_OFFSET_DELAY q ≠ RST_ISLAND 1 ∧
    PGP_PLANE_E q ≠ RST_ISLAND 1 := by
  unfold PLN_FIRE_ACTIVE PLN_OFFSET_LINES PLN_OFFSET_DELAY PGP_PLANE_E RST_ISLAND
  omega

theorem HostStays.showOffsets (s : State) (mode per : Nat) : HostStays s (s.showOffsets mode per) := by
  refine HostStays.foldl (fun y q => ?_) _ s
  obtain ⟨-, hlines, hdelay, -⟩ := planeRegs_ne_island q
  split
  · exact HostStays.refl y
  · exact ((HostStays.refl y).put _ _ hlines).put _ _ hdelay

/-- Opening a job shows, loads and reports, and leaves the host's island and link (R111). -/
theorem HostStays.openJob (s : State) (ring seq : Nat) (d : DescBits) : HostStays s (s.openJob ring seq d) := by
  have hfire (m : Nat → Nat) (l : List Nat) (y : State) (mode : Nat) : HostStays y (l.foldl (fun (s : State) q =>
      (s.put (PLN_FIRE_ACTIVE_SCALE q) (m q)).put (PLN_FIRE_ACTIVE_TRAIN_NS q) (s.trainNs q mode)) y) :=
    HostStays.foldl (fun z q => ((HostStays.refl z).put _ _ (planeRegs_ne_island q).1).put _ _ (planeRegs_ne_island q).1) l y
  have hbars (mode : Nat) (per : State → Nat) (y : State) : HostStays y ((List.range 8).foldl (fun s q => s.barTake q mode (per s)) y) :=
    List.foldlRecOn (motive := HostStays y) _ _ (HostStays.refl y)
      fun z hz q hq => hz.trans (HostStays.barTake z ⟨q, List.mem_range.mp hq⟩ mode _)
  unfold State.openJob
  extract_lets j press enc web s1 s2 s3 s4 s5 s6
  have hjob (pr : Press) (en : Enc) (we : Web) : HostStays s (({ s with press := pr, enc := en, web := we } : State).setJob j) :=
    HostStays.of_records rfl rfl
  have h1 : HostStays s s1 :=
    ((((hjob _ _ _).put PGP_SCHED_STATUS_JOB_STATE _ (by decide)).put PGP_SCHED_STATUS_RING _ (by decide)).put PGP_SCHED_STATUS_MODE _
      (by decide)).put PGP_SCHED_STATUS_RECOV_PHASE _ (by decide)
  have hcross : HostStays s s1.crossBase := h1.trans (HostStays.of_records rfl rfl)
  have htake (y : State) : HostStays y (y.calTake j.planes) := by
    have hcal (c : Cal) : HostStays y (y.setCal c) := HostStays.of_records rfl rfl
    unfold State.calTake
    exact (hcal _).put _ _ (by decide)
  have h2 : HostStays s s2 :=
    (((hcross.putB HIF_WIN_CTRL_WR_EN _ (by decide)).put DCX_STAGE_LINES_A _ (by decide)).trans (htake _)).trans (HostStays.showOffsets ..)
  have h3 : HostStays s s3 := h2.trans (hfire ..)
  have h4 : HostStays s s4 := (h3.trans (HostStays.foldl (fun y e => HostStays.checkTile y e) _ s3)).trans (HostStays.rebuildDead ..)
  have h5 : HostStays s s5 :=
    ((h4.trans (HostStays.foldl (fun y e => HostStays.loadTile y j e) _ s4)).trans (HostStays.unassignOthers _)).trans (HostStays.clearJobFaults _)
  have h6 : HostStays s s6 := h5.trans (hbars _ State.jobPeriod s5)
  exact ((h6.put PGP_JOB_LINE_LO_LINE _ (by decide)).put PGP_JOB_LINE_HI_LINE _ (by decide)).jrn _

end HostStays

end Sys2Proof.Machine

namespace Sys2Proof.Machine

/-! ### A take-over that finds its position changed (R481) -/

section TakeOver
variable {s x : State} {d : DescBits}

theorem HostStays.setPar (h : HostStays s x) (p : Par) : HostStays s (x.setPar p) := h.trans (HostStays.of_records rfl rfl)

theorem HostStays.adoptTrims (s : State) : HostStays s s.adoptTrims := by
  refine HostStays.foldl (fun y r => ?_) _ s
  split
  · refine HostStays.foldl (fun z e => ?_) _ y
    exact HostStays.of_records rfl rfl
  · exact HostStays.of_records rfl rfl
  · exact HostStays.refl y

theorem HostStays.showRecovery (h : HostStays s x) (r : Recovery) : HostStays s (x.showRecovery r) := by
  have hstart := (((h.put PGP_STOP_LINE_LO_LINE (r.s % 2 ^ 32) (by decide)).put PGP_STOP_LINE_HI_LINE (r.s / 2 ^ 32) (by decide)).put
    PGP_RESUME_LINE_LO_LINE (r.lRes % 2 ^ 32) (by decide)).put PGP_RESUME_LINE_HI_LINE (r.lRes / 2 ^ 32) (by decide)
  exact hstart.trans (HostStays.foldl (fun y q => (HostStays.refl y).put _ _ (planeRegs_ne_island q).2.2.2) _ _)

theorem HostStays.setRecovery (h : HostStays s x) (r : Recovery) (n : Nat) : HostStays s (x.setRecovery r n) := by
  have hupd (f : Job → Job) : HostStays s (x.updJob f) := by
    unfold State.updJob
    split
    · exact h
    · exact h.trans (HostStays.of_records rfl rfl)
  exact (((hupd _).put PGP_SCHED_STATUS_JOB_STATE _ (by decide)).put PGP_SCHED_STATUS_RECOV_PHASE _ (by decide)).put PGP_SCHED_STATUS_RECOV_TYPE _
    (by decide)

theorem State.setRecovery_press {j : Job} (h : s.press.job = some j) (r : Recovery) (n : Nat) :
    (s.setRecovery r n).press.job = some { j with recovery := some { r with phase := n } } := by
  rw [State.setRecovery, State.put_press, State.put_press, State.put_press, State.updJob, h]
  rfl

theorem State.showRecovery_press (s : State) (r : Recovery) : (s.showRecovery r).press = s.press := by
  unfold State.showRecovery
  rw [foldl_keeps (fun y : State => y.press) (fun y q => State.put_press y _ _)]
  rw [State.put_press, State.put_press, State.put_press, State.put_press]

/-- A take-over with a changed position ends with its report, after which only POS_MISMATCH changes. -/
theorem State.adopt_eq (s : State) (d : DescBits) : ∃ (x : State) (p : List Nat), HostStays s x ∧ x.par.takeover = false ∧
    x.press.job.map (fun j => (j.jobId, j.started)) = some (dfield d 4 4, true) ∧
    s.adopt d true = (x.report Ev.TAKEOVER_READY 0xFFFF p PAR_IRQ_CAUSE_TAKEOVER).putB PAR_STATUS_POS_MISMATCH true := by
  have hjob := s.adoptTrims.openJob_job (s.get PAR_ADOPT_RING_RING) (65536 + dfield d 2 2) d
  have hopened := (HostStays.adoptTrims s).trans (HostStays.openJob s.adoptTrims (s.get PAR_ADOPT_RING_RING) (65536 + dfield d 2 2) d)
  unfold State.adopt
  extract_lets a last s1
  have hjob1 : s1.press.job = some (s.adoptTrims.newJob (s.get PAR_ADOPT_RING_RING) (65536 + dfield d 2 2) d) := hjob
  have hs1 : HostStays s s1 := hopened
  clear_value s1 a last
  split
  case h_1 hnone => exact absurd (hnone.symm.trans hjob1) (by simp)
  case h_2 j hj =>
    have hid : j.jobId = dfield d 4 4 := congrArg Job.jobId (Option.some.inj (hj.symm.trans hjob1))
    extract_lets es k pages lRes planned r s1w s2 ofs s3 s4 s5
    have hs2 : HostStays s s2 := hs1.trans (HostStays.of_records rfl rfl)
    have hs3 : HostStays s s3 := ((hs2.setRecovery r 2).showRecovery r).setPar _
    have hpress : s3.press.job.map (fun j => (j.jobId, j.started)) = some (dfield d 4 4, true) := by
      have hset : s3.press = ((s2.setRecovery r 2).showRecovery r).press := State.setPar_press _ _
      rw [hset, State.showRecovery_press, State.setRecovery_press rfl, ← hid]
      rfl
    have htake : s3.par.takeover = false := rfl
    clear_value s3
    refine ⟨(s3.put PAR_TAKEOVER_LO_L_RES (lRes % 2 ^ 32)).put PAR_TAKEOVER_HI_L_RES (lRes / 2 ^ 32), _,
      (hs3.put _ _ (by decide)).put _ _ (by decide), ?_, ?_, if_pos rfl⟩
    · rw [State.put_par, State.put_par, htake]
    · rw [State.put_press, State.put_press, hpress]

/-- The job that a take-over adopts, with a changed position: it waits for firmware. -/
theorem State.adopt_shows (s : State) (d : DescBits) :
    let t := s.adopt d true
    t.par.takeover = false ∧ t.on PAR_STATUS_POS_MISMATCH = true ∧
      t.press.job.map (fun j => (j.jobId, j.started)) = some (dfield d 4 4, true) ∧ PostsSome s t Ev.TAKEOVER_READY 0xFFFF := by
  obtain ⟨x, p, hstays, htake, hjob, heff⟩ := s.adopt_eq d
  have hposts : PostsSome s (x.report Ev.TAKEOVER_READY 0xFFFF p PAR_IRQ_CAUSE_TAKEOVER) Ev.TAKEOVER_READY 0xFFFF :=
    PostsSome.of_event p hstays.toGoesOn hstays.island (by decide) (State.cause_hif ..)
  have hpar := x.par_report Ev.TAKEOVER_READY 0xFFFF p PAR_IRQ_CAUSE_TAKEOVER
  have hpress : (x.report Ev.TAKEOVER_READY 0xFFFF p PAR_IRQ_CAUSE_TAKEOVER).press = x.press :=
    State.hidden_congr x _ (x.hidden_report Ev.TAKEOVER_READY 0xFFFF p PAR_IRQ_CAUSE_TAKEOVER) (fun y => y.press)
  rw [heff]
  generalize x.report Ev.TAKEOVER_READY 0xFFFF p PAR_IRQ_CAUSE_TAKEOVER = y at *
  refine ⟨?_, State.on_putB_same _ _ _ rfl, ?_, hposts.acts ((Acts.refl y).putB (W := fun _ => True) _ _ trivial)⟩
  · rw [State.putB_par, hpar, htake]
  · rw [State.putB_press, hpress, hjob]

end TakeOver

end Sys2Proof.Machine

namespace Sys2Proof.Machine

/-! ### The islands of a passive and of an active chip (R464) -/

section Authority
variable {s x : State} {k : Nat}

/-- The page and plane islands. -/
def printIslands : List Nat := (List.range 9).map (· + 2)

theorem mem_printIslands : ∀ k : Fin 17, k.val ∈ printIslands ↔ 2 ≤ k.val ∧ k.val ≤ 10 := by decide
theorem printIslands_nodup : printIslands.Nodup := by decide
theorem printIslands_range : ∀ k ∈ printIslands, 2 ≤ k ∧ k ≤ 10 := by decide

/-- An island in reset that waits for no release leaves reset. -/
def State.activeIsland (s : State) (k : Nat) : State :=
  if s.get (RST_ISLAND_RSTATE k) = 1 ∧ ¬ s.rst.todo.contains k then s.setIsland k 0 else s

theorem State.goActive_eq (s : State) : s.goActive = printIslands.foldl State.activeIsland s := rfl

theorem RegsOnly.activeIsland (h : RegsOnly s x) (k : Nat) : RegsOnly s (x.activeIsland k) := by
  unfold State.activeIsland
  split
  · exact h.setIsland k 0
  · exact h

theorem Keeps.activeIsland {l : List Nat} (h : Keeps s x l) (k : Nat) (hk : RST_ISLAND k ∈ l) : Keeps s (x.activeIsland k) l := by
  unfold State.activeIsland
  split
  · exact h.setIsland k 0 hk
  · exact h

theorem RegsOnly.goActive (s : State) : RegsOnly s s.goActive := by
  rw [State.goActive_eq]
  exact List.foldlRecOn (motive := RegsOnly s) _ _ (RegsOnly.refl s) fun y hy k _ => hy.activeIsland k

theorem Keeps.goActive (s : State) : Keeps s s.goActive ((List.range 17).map RST_ISLAND) := by
  rw [State.goActive_eq]
  refine List.foldlRecOn (motive := fun y => Keeps s y ((List.range 17).map RST_ISLAND)) _ _ (Keeps.refl s _) fun y hy k hk => hy.activeIsland k ?_
  exact List.mem_map_of_mem (List.mem_range.mpr (by have := printIslands_range k hk; omega))

/-- The page and plane islands of an active chip run. -/
theorem State.goActive_runs (s : State) (k : Fin 17) (h2 : 2 ≤ k.val) (h10 : k.val ≤ 10) (hreset : s.get (RST_ISLAND_RSTATE k) = 1)
    (htodo : k.val ∉ s.rst.todo) : s.goActive.islandRuns k = true := by
  have hisland := foldl_at (π := fun y : State => y.island k) (f := State.activeIsland) (j := k.val) (L := printIslands)
    (g := fun v => if v.rstate = 1 then { v with rstate := 0, fenced := false } else v) (P := fun y => y.rst.todo = s.rst.todo)
    (fun y i _ hi => by
      unfold State.activeIsland
      split
      · exact y.island_setIsland_ne 0 (Ne.symm hi)
      · rfl)
    (fun y hy => by
      unfold State.activeIsland
      have hwait : (y.rst.todo.contains k.val) = false := by rw [hy]; simpa using htodo
      rw [hwait]
      by_cases h : y.get (RST_ISLAND_RSTATE k) = 1
      · rw [if_pos ⟨h, by decide⟩, State.island_setIsland_same _ _ (by decide)]
        exact (if_pos h).symm
      · rw [if_neg fun hand => h hand.1]
        exact (if_neg h).symm)
    (fun y i _ hy => (congrArg (fun z : State => z.rst.todo) ((RegsOnly.refl y).activeIsland i)).trans hy) printIslands_nodup s rfl
  have hshown := hisland.trans ((if_pos ((mem_printIslands k).mpr ⟨h2, h10⟩)).trans (if_pos hreset))
  rw [State.islandRuns_eq, State.goActive_eq, hshown]
  rfl

/-- The page and plane islands enter reset. -/
def State.printReset (s : State) : State := printIslands.foldl (fun (s : State) (k : Nat) => (s.wipeIsland k).setIsland k 1) s.jobRingsAbort

/-- The registers that the reset of the page and plane islands writes. -/
def passiveWrites (a : Nat) : Prop := hostWrites a ∨ (∃ k ∈ printIslands, resetWrites k a)

theorem Acts.printReset (s : State) : Acts passiveWrites s s.printReset := by
  refine ((Acts.jobRingsAbort s).mono fun _ h => .inl h).trans (Acts.foldl _ (fun y k hk => ?_) _)
  have hone : k ≠ 1 := by have := printIslands_range k hk; omega
  refine Acts.of_hif ?_ fun a ha => ?_
  · rw [State.setIsland, State.putB_hif, State.put_hif, State.hif_wipeIsland y hone]
  · have hnot : ¬resetWrites k a := fun h => ha (.inr ⟨k, hk, h⟩)
    obtain ⟨hw, hisland⟩ := not_or.mp hnot
    exact (State.rget_setIsland_ne _ _ (Ne.symm hisland)).trans (y.rget_wipeIsland hw)

theorem State.printReset_rstate (s : State) (k : Fin 17) (h2 : 2 ≤ k.val) (h10 : k.val ≤ 10) : s.printReset.get (RST_ISLAND_RSTATE k) = 1 := by
  have hisland := foldl_at (π := fun y : State => y.island k) (f := fun (s : State) (k : Nat) => (s.wipeIsland k).setIsland k 1) (j := k.val)
    (L := printIslands) (g := fun v => { v with rstate := 1, fenced := true }) (P := fun _ => True)
    (fun y i _ hi => ((y.wipeIsland i).island_setIsland_ne 1 (Ne.symm hi)).trans (y.island_wipeIsland i k))
    (fun y _ => by rw [State.island_setIsland_same _ _ (by decide), State.island_wipeIsland]; rfl)
    (fun _ _ _ _ => trivial) printIslands_nodup s.jobRingsAbort trivial
  exact State.get_of_island (hisland.trans (if_pos ((mem_printIslands k).mpr ⟨h2, h10⟩)))

/-- Registers outside the page and plane islands, the host's and RST_ISLAND are not written when a chip becomes passive. -/
theorem not_passiveWrites {a : Nat} (hhost : a < 0x30000 ∨ 0x40000 ≤ a) (hisland : islandOf a < 2 ∨ 10 < islandOf a) (hweb : a ≠ MOT_WEB_STATUS)
    (hrst : ∀ k ∈ printIslands, a ≠ RST_ISLAND k) : ¬passiveWrites a := by
  rintro (h | ⟨k, hk, (⟨he, -⟩ | ⟨hone, -⟩ | ⟨-, he⟩ | ⟨h11, -⟩) | h⟩)
  · unfold hostWrites at h
    omega
  · have := printIslands_range k hk
    omega
  · have := printIslands_range k hk
    omega
  · exact hweb he
  · have := printIslands_range k hk
    omega
  · exact hrst k hk h

/-- The registers of the pair block stay when a chip becomes passive. -/
theorem parRegs_kept : ∀ a ∈ [PAR_STATUS, PAR_LEASE, PAR_SPLIT_COUNT, PAR_EPOCH], ¬passiveWrites a := by
  have hall : ∀ a ∈ [PAR_STATUS, PAR_LEASE, PAR_SPLIT_COUNT, PAR_EPOCH], (a < 0x30000 ∨ 0x40000 ≤ a) ∧ (islandOf a < 2 ∨ 10 < islandOf a) ∧
      a ≠ MOT_WEB_STATUS ∧ ∀ k ∈ printIslands, a ≠ RST_ISLAND k := by decide
  intro a ha
  obtain ⟨hhost, hisland, hweb, hrst⟩ := hall a ha
  exact not_passiveWrites hhost hisland hweb hrst

theorem Acts.withHeads {W : Nat → Prop} (h : Acts W s x) (hd : Heads) : Acts W s { x with heads := hd } := h.trans (Acts.of_records rfl rfl)
theorem State.get_withHeads (s : State) (hd : Heads) (f : Fld) : ({ s with heads := hd } : State).get f = s.get f := rfl

/-- What a chip that becomes passive keeps and shows (R464). -/
theorem State.goPassive_shows (s : State) :
    Acts passiveWrites s s.goPassive ∧
      (s.passive = true → s.islandRuns 2 = true → ∀ k : Fin 17, 2 ≤ k.val → k.val ≤ 10 → s.goPassive.get (RST_ISLAND_RSTATE k) = 1) := by
  have hreset : ∀ h : Heads, Acts passiveWrites s { s.printReset with heads := h } := (Acts.printReset s).withHeads
  have hshown (k : Fin 17) (h2 : 2 ≤ k.val) (h10 : k.val ≤ 10) (h : Heads) :
      ({ s.printReset with heads := h } : State).get (RST_ISLAND_RSTATE k) = 1 :=
    (State.get_withHeads _ _ _).trans (s.printReset_rstate k h2 h10)
  by_cases hpassive : s.passive = true ∧ s.islandRuns 2 = true
  · have heff : s.goPassive = { s.printReset with heads := { s.printReset.heads with
        ports := s.printReset.heads.ports.map (fun (p : Port) => { p with outstanding := [], waiting := [] }) } } := if_pos hpassive
    rw [heff]
    exact ⟨hreset _, fun _ _ k h2 h10 => hshown k h2 h10 _⟩
  · have heff : s.goPassive = s := if_neg hpassive
    rw [heff]
    exact ⟨Acts.refl s, fun h h2 => absurd ⟨h, h2⟩ hpassive⟩

/-! ### Yield (R483) -/

/-- The pair's record of a chip that yields. -/
def Par.yield (p : Par) (up : Bool) (now : Nat) : Par :=
  { (if up = true then p.sent .yielded else p) with handover := false, yielding := some now }

/-- A chip without a job that yields, before its event. -/
def State.yieldShown (s : State) : State :=
  ((s.putB PAR_STATUS_AUTH false).setPar (s.par.yield (s.on PAR_STATUS_MIRROR_UP) s.time.cyc)).setPState psYIELDING

theorem State.doYield_noJob (hjob : s.press.job = none) (reason port : Nat) :
    s.doYield reason port = s.yieldShown.report Ev.FAILOVER 0xFFFF [reason, port] PAR_IRQ_CAUSE_FAILOVER := by
  have hup : (s.putB PAR_STATUS_AUTH false).on PAR_STATUS_MIRROR_UP = s.on PAR_STATUS_MIRROR_UP :=
    State.on_putB_apart s _ _ _ rfl (.inr (by decide))
  unfold State.doYield
  rw [hjob]
  dsimp only
  unfold State.yieldShown Par.yield
  cases hlink : s.on PAR_STATUS_MIRROR_UP with
  | true =>
    rw [State.mirrorSend_up (hup.trans hlink), State.mirrorSend_up hlink]
    rfl
  | false =>
    rw [State.mirrorSend_down (hup.trans hlink), State.mirrorSend_down hlink]
    rfl

/-- What a yield without a job shows. -/
theorem State.doYield_shows (hjob : s.press.job = none) (reason port : Nat) :
    let t := s.doYield reason port
    t.on PAR_STATUS_AUTH = false ∧ t.pstate = psYIELDING ∧ t.par = s.par.yield (s.on PAR_STATUS_MIRROR_UP) s.time.cyc ∧
      Posts s t Ev.FAILOVER 0xFFFF [reason, port] ∧ t.hidden = { s with par := t.par }.hidden ∧ Keeps s t ([PAR_STATUS, PAR_IRQ_CAUSE] ++ evtRegs) := by
  have honly : ParOnly s s.yieldShown := (((ParOnly.refl s).putB _ _).setPar _).put _ _
  have hkeeps : Keeps s s.yieldShown [PAR_STATUS] := (((Keeps.refl s _).putB _ _ (by decide)).setPar _).put _ _ (by decide)
  have hstate : s.yieldShown.pstate = psYIELDING := State.pstate_setPState _ (by decide)
  have hauth : s.yieldShown.on PAR_STATUS_AUTH = false := by
    rw [State.yieldShown, State.setPState, State.on_put_apart _ _ _ _ rfl (.inr (by decide)), State.on_setPar]
    exact State.on_putB_same s _ _ rfl
  have hpar : s.yieldShown.par = s.par.yield (s.on PAR_STATUS_MIRROR_UP) s.time.cyc := State.put_par _ _ _
  rw [State.doYield_noJob hjob]
  generalize s.yieldShown = x at *
  obtain ⟨hposts, hhidden, hkept⟩ := honly.reported hkeeps (by decide) Ev.FAILOVER [reason, port] PAR_IRQ_CAUSE_FAILOVER (by decide)
  have hpar' := x.par_report Ev.FAILOVER 0xFFFF [reason, port] PAR_IRQ_CAUSE_FAILOVER
  rw [← hpar'] at hhidden
  exact ⟨(State.on_eq_of_get _ _ _ (State.get_report _ _ _ _ rfl (by decide) (by decide))).trans hauth,
    (x.pstate_report _ _ _ rfl (by decide)).trans hstate, hpar'.trans hpar, hposts, hhidden, hkept⟩

/-! ### The fire interlock (R477 to R480) -/

/-- A chip in CLAIMED that takes authority, before it brings its peer into sync. -/
def State.activated (s : State) : State :=
  (((s.putB PAR_STATUS_AUTH true).setPState psACTIVE).setPar { s.par with activeAt := s.time.cyc }).goActive

/-- Only RST_ISLAND differs from the state that takes authority. -/
theorem State.activated_shows (s : State) :
    let t := s.activated
    t.on PAR_STATUS_AUTH = true ∧ t.pstate = psACTIVE ∧ t.par = { s.par with activeAt := s.time.cyc } ∧ ParOnly s t ∧
      Keeps s t (PAR_STATUS :: (List.range 17).map RST_ISLAND) ∧ t.on PAR_STATUS_MIRROR_UP = s.on PAR_STATUS_MIRROR_UP ∧
      ∀ k : Fin 17, 2 ≤ k.val → k.val ≤ 10 → s.get (RST_ISLAND_RSTATE k) = 1 → k.val ∉ s.rst.todo → t.islandRuns k = true := by
  have honly : ParOnly s (((s.putB PAR_STATUS_AUTH true).setPState psACTIVE).setPar { s.par with activeAt := s.time.cyc }) :=
    (((ParOnly.refl s).putB _ _).put _ _).setPar _
  have hkeeps : Keeps s (((s.putB PAR_STATUS_AUTH true).setPState psACTIVE).setPar { s.par with activeAt := s.time.cyc }) [PAR_STATUS] :=
    (((Keeps.refl s _).putB _ _ (by decide)).put _ _ (by decide)).setPar _
  have hauth : (((s.putB PAR_STATUS_AUTH true).setPState psACTIVE).setPar { s.par with activeAt := s.time.cyc }).on PAR_STATUS_AUTH = true := by
    rw [State.on_setPar, State.setPState, State.on_put_apart _ _ _ _ rfl (.inr (by decide)), State.on_putB_same _ _ _ rfl]
  have hstate : (((s.putB PAR_STATUS_AUTH true).setPState psACTIVE).setPar { s.par with activeAt := s.time.cyc }).pstate = psACTIVE :=
    (State.get_setPar _ _ _).trans (State.pstate_setPState _ (by decide))
  have hlink : (((s.putB PAR_STATUS_AUTH true).setPState psACTIVE).setPar { s.par with activeAt := s.time.cyc }).on PAR_STATUS_MIRROR_UP =
      s.on PAR_STATUS_MIRROR_UP := by
    rw [State.on_setPar, State.setPState, State.on_put_apart _ _ _ _ rfl (.inr (by decide)), State.on_putB_apart _ _ _ _ rfl (.inr (by decide))]
  have hpar : (((s.putB PAR_STATUS_AUTH true).setPState psACTIVE).setPar { s.par with activeAt := s.time.cyc }).par =
    { s.par with activeAt := s.time.cyc } := State.setPar_par _ _
  unfold State.activated
  generalize State.setPar _ { s.par with activeAt := s.time.cyc } = x at *
  have hregs := RegsOnly.goActive x
  have hkept := Keeps.goActive x
  have hruns := x.goActive_runs
  generalize x.goActive = t at *
  have hstatus : PAR_STATUS ∉ (List.range 17).map RST_ISLAND := by decide
  have hpar' : t.par = x.par := State.hidden_congr x t hregs.hidden (fun y => y.par)
  refine ⟨(hkept.on _ hstatus).trans hauth, (hkept.get PAR_STATUS_PSTATE hstatus).trans hstate, hpar'.trans hpar, ?_, ?_,
    (hkept.on _ hstatus).trans hlink, fun k h2 h10 hk htodo => ?_⟩
  · unfold ParOnly RegsOnly at *
    rw [hregs, honly]
  · exact (hkeeps.mono (by simp)).trans (hkept.mono fun _ h => List.mem_cons_of_mem _ h)
  · have hislands : ∀ k : Fin 17, RST_ISLAND k ∉ [PAR_STATUS] := by decide
    have hisland := hislands k
    have hrst : x.rst = s.rst := by rw [honly]
    exact hruns k h2 h10 ((hkeeps.get (RST_ISLAND_RSTATE k) hisland).trans hk) (hrst ▸ htodo)

theorem State.openJournal_nil (h : s.par.journal = []) : s.openJournal = none := by rw [State.openJournal, h]; rfl

/-- FIRE_AUTH_OUT of a chip in CLAIMED without a journalled job. -/
theorem State.authRaise_claimed (hpaired : s.paired = true) (hpstate : s.pstate = psCLAIMED) (hmay : s.mayRaise = true)
    (hauth : s.on PAR_STATUS_AUTH = false) (hjournal : s.activated.startResync.par.journal = []) : s.authRaise = s.activated.startResync := by
  have hguard : ¬ ((!s.mayRaise) = true ∨ s.on PAR_STATUS_AUTH = true) := by simp [hmay, hauth]
  have hnone := State.openJournal_nil hjournal
  have heff : s.authRaise = (match s.activated.startResync.openJournal with
      | none => s.activated.startResync
      | some (d, _, _) => ((s.activated.startResync.setPar { s.activated.startResync.par with takeover := true }).event' Ev.TAKEOVER_START
          [s.activated.startResync.epoch, dfield d 4 4]).cause PAR_IRQ_CAUSE_TAKEOVER) := (if_neg hguard).trans (if_pos ⟨hpaired, hpstate⟩)
  rw [heff, hnone]

/-- Without the mirror link there is no resync (R470). -/
theorem State.startResync_down (h : s.on PAR_STATUS_MIRROR_UP = false) : s.startResync = s := if_pos (.inr (.inr (by simp [h])))

/-- Both lines are high (R478, R480), before the event. -/
def State.splitCounted (s : State) : State := s.addSat PAR_SPLIT_COUNT_COUNT 1

theorem State.splitEvent_eq (s : State) (why : Nat) :
    s.splitEvent why = s.splitCounted.report Ev.SPLIT_SUSPECT 0xFFFF [why, s.get PAR_STATUS_PEER_AUTH] PAR_IRQ_CAUSE_SPLIT := rfl

/-- What SPLIT_SUSPECT shows. -/
theorem State.splitEvent_shows (s : State) (why : Nat) :
    let t := s.splitEvent why
    t.get PAR_SPLIT_COUNT_COUNT = min (2 ^ 32 - 1) (s.get PAR_SPLIT_COUNT_COUNT + 1) ∧
      Posts s t Ev.SPLIT_SUSPECT 0xFFFF [why, s.get PAR_STATUS_PEER_AUTH] ∧ t.hidden = s.hidden ∧
      Keeps s t ([PAR_SPLIT_COUNT, PAR_IRQ_CAUSE] ++ evtRegs) := by
  have hcount : s.splitCounted.get PAR_SPLIT_COUNT_COUNT = min (2 ^ 32 - 1) (s.get PAR_SPLIT_COUNT_COUNT + 1) := State.get_addSat_same _ _ _ rfl
  have hkeeps : Keeps s s.splitCounted [PAR_SPLIT_COUNT] := (Keeps.refl s _).addSat _ _ (by decide)
  have honly : ParOnly s s.splitCounted := (ParOnly.refl s).addSat _ _
  have hpar : s.splitCounted.par = s.par := State.addSat_par _ _ _
  rw [State.splitEvent_eq]
  generalize s.splitCounted = x at *
  obtain ⟨hposts, hhidden, hkept⟩ := honly.reported hkeeps (by decide) Ev.SPLIT_SUSPECT [why, s.get PAR_STATUS_PEER_AUTH] PAR_IRQ_CAUSE_SPLIT (by decide)
  refine ⟨(State.get_report _ _ _ _ rfl (by decide) (by decide)).trans hcount, hposts, ?_, hkept⟩
  rw [hhidden, hpar]

/-- FIRE_AUTH_IN is shown. -/
def State.peerShown (s : State) (level : Bool) : State :=
  (s.putB PAR_STATUS_PEER_AUTH level).setPar { s.par with authLow := if level = true then none else some s.time.cyc }

/-- Role B with both lines high, before it becomes passive (R478). -/
def State.splitDropped (s : State) : State := (((s.peerShown true).putB PAR_STATUS_AUTH false).splitEvent 1).setPState psCLAIMED

theorem State.authIn_split (hrole : s.role = 2) (hauth : s.on PAR_STATUS_AUTH = true) (hpstate : s.pstate = psACTIVE) :
    s.authIn true = s.splitDropped.goPassive := (if_pos ⟨rfl, hrole, hauth⟩).trans (congrArg State.goPassive (if_pos hpstate))

/-- What role B shows when it drops its line. -/
theorem State.splitDropped_shows (s : State) :
    let t := s.splitDropped
    t.on PAR_STATUS_AUTH = false ∧ t.on PAR_STATUS_PEER_AUTH = true ∧ t.pstate = psCLAIMED ∧
      t.get PAR_SPLIT_COUNT_COUNT = min (2 ^ 32 - 1) (s.get PAR_SPLIT_COUNT_COUNT + 1) ∧ Posts s t Ev.SPLIT_SUSPECT 0xFFFF [1, 1] := by
  have hauth : ((s.peerShown true).putB PAR_STATUS_AUTH false).on PAR_STATUS_AUTH = false := State.on_putB_same _ _ _ rfl
  have hpeer : ((s.peerShown true).putB PAR_STATUS_AUTH false).get PAR_STATUS_PEER_AUTH = 1 := by
    rw [State.get_putB_apart _ _ _ _ rfl (.inr (by decide)), State.peerShown, State.get_setPar, State.get_putB_same _ _ _ rfl]
    rfl
  have hkeeps : Keeps s ((s.peerShown true).putB PAR_STATUS_AUTH false) [PAR_STATUS] :=
    (((Keeps.refl s _).putB _ _ (by decide)).setPar _).putB _ _ (by decide)
  have honly : ParOnly s ((s.peerShown true).putB PAR_STATUS_AUTH false) := (((ParOnly.refl s).putB _ _).setPar _).putB _ _
  unfold State.splitDropped
  generalize State.putB _ PAR_STATUS_AUTH false = x at *
  obtain ⟨hcount, hposts, -, hkept⟩ := x.splitEvent_shows 1
  rw [hpeer] at hposts
  have hposts' := Posts.of_start hposts honly.hif honly.time (hkeeps _ (by decide))
  generalize x.splitEvent 1 = y at *
  have hon (f : Fld) (hf : f.off ∉ [PAR_SPLIT_COUNT, PAR_IRQ_CAUSE] ++ evtRegs) : y.on f = x.on f := hkept.on f hf
  refine ⟨?_, ?_, State.pstate_setPState _ (by decide), ?_, hposts'.put _ _⟩
  · rw [State.setPState, State.on_put_apart _ _ _ _ rfl (.inr (by decide)), hon _ (by decide), hauth]
  · rw [State.setPState, State.on_put_apart _ _ _ _ rfl (.inr (by decide)), hon _ (by decide), State.on, hpeer]
    rfl
  · rw [State.setPState, State.get_put_apart _ _ _ _ rfl (.inl (by decide)), hcount, hkeeps.get _ (by decide)]

/-- A fence of the peer (R480) sets FENCED when it is allowed. -/
theorem State.fencePeer_shows (s : State) :
    s.fencePeer.on PAR_STATUS_FENCED = (s.on PAR_STATUS_FENCED || (s.on PAR_CFG_FENCE_EN && !s.on PAR_STATUS_PEER_AUTH && s.par.afterExpiry)) ∧
      RegsOnly s s.fencePeer ∧ Keeps s s.fencePeer [PAR_STATUS] := by
  unfold State.fencePeer
  by_cases h : s.on PAR_CFG_FENCE_EN = true ∧ ¬s.on PAR_STATUS_PEER_AUTH = true ∧ s.par.afterExpiry = true
  · obtain ⟨hen, hpeer, hexpiry⟩ := h
    rw [if_pos ⟨hen, hpeer, hexpiry⟩]
    refine ⟨?_, (RegsOnly.refl s).putB _ _, (Keeps.refl s _).putB _ _ (by decide)⟩
    rw [State.on_putB_same _ _ _ rfl, hen, hexpiry, Bool.eq_false_iff.mpr hpeer]
    simp
  · rw [if_neg h]
    refine ⟨?_, RegsOnly.refl s, Keeps.refl s _⟩
    have hoff : (s.on PAR_CFG_FENCE_EN && !s.on PAR_STATUS_PEER_AUTH && s.par.afterExpiry) = false := by
      simpa [and_assoc] using h
    rw [hoff, Bool.or_false]

theorem State.handoverCmd_noJob (hpstate : s.pstate = psACTIVE) (hpaired : s.paired = true) (hjob : s.press.job = none) :
    s.handoverCmd = (s.setPar { s.par with handover := true }).doYield 2 0xFF := by
  have hjob' : (s.setPar { s.par with handover := true }).press.job = none := hjob
  have hstop : (s.setPar { s.par with handover := true }).plannedStop = s.setPar { s.par with handover := true } := by rw [State.plannedStop, hjob']
  refine (if_pos ⟨hpstate, hpaired⟩).trans ?_
  rw [hstop]
  refine (if_pos ⟨rfl, hpstate⟩).trans ?_
  rw [hjob']

/-- A chip whose yield is complete, before it becomes passive (R464, R483). -/
def State.yieldedShown (s : State) : State :=
  (((s.setPar { s.par with yielding := none, expired := true, afterExpiry := false }).setPState psUNSYNCED).put PAR_LEASE_HOLDER 0)

theorem State.yieldDone_eq (hpstate : s.pstate = psYIELDING) :
    s.yieldDone = (s.yieldedShown.report Ev.LEASE_LOST 0xFFFF [s.epoch, 1] PAR_IRQ_CAUSE_LEASE).goPassive := if_neg (not_not_intro hpstate)

/-- What a yield that is complete shows. -/
theorem State.yieldDone_shows (hpstate : s.pstate = psYIELDING) (hpaired : s.paired = true) :
    let t := s.yieldDone
    t.pstate = psUNSYNCED ∧ t.get PAR_LEASE_HOLDER = 0 ∧ Posts s t Ev.LEASE_LOST 0xFFFF [s.epoch, 1] ∧
      (s.islandRuns 2 = true → ∀ k : Fin 17, 2 ≤ k.val → k.val ≤ 10 → t.get (RST_ISLAND_RSTATE k) = 1) := by
  have honly : ParOnly s s.yieldedShown := (((ParOnly.refl s).setPar _).put _ _).put _ _
  have hkeeps : Keeps s s.yieldedShown [PAR_STATUS, PAR_LEASE] := (((Keeps.refl s _).setPar _).put _ _ (by decide)).put _ _ (by decide)
  have hholder : s.yieldedShown.get PAR_LEASE_HOLDER = 0 := State.get_put_same _ _ _ rfl
  have hstate : s.yieldedShown.pstate = psUNSYNCED := by
    rw [State.pstate, State.yieldedShown, State.get_put_apart _ _ _ _ rfl (.inl (by decide))]
    exact State.pstate_setPState _ (by decide)
  rw [State.yieldDone_eq hpstate]
  generalize s.yieldedShown = x at *
  obtain ⟨hposts, -, hkept⟩ := honly.reported hkeeps (by decide) Ev.LEASE_LOST [s.epoch, 1] PAR_IRQ_CAUSE_LEASE (by decide)
  have hstate' := (x.pstate_report Ev.LEASE_LOST 0xFFFF [s.epoch, 1] (f := PAR_IRQ_CAUSE_LEASE) rfl (by decide)).trans hstate
  have hholder' := (State.get_report x Ev.LEASE_LOST 0xFFFF [s.epoch, 1] (f := PAR_IRQ_CAUSE_LEASE) (k := PAR_LEASE_HOLDER) rfl (by decide)
    (by decide)).trans hholder
  generalize x.report Ev.LEASE_LOST 0xFFFF [s.epoch, 1] PAR_IRQ_CAUSE_LEASE = y at *
  obtain ⟨hacts, hreset⟩ := y.goPassive_shows
  have hpassive : y.passive = true := by
    have hrole : (y.role != 0) = true := by
      rw [State.role, hkept.get PAR_CFG_ROLE (by decide)]
      exact hpaired
    rw [State.passive, hrole, hstate']
    rfl
  have hruns : y.islandRuns 2 = s.islandRuns 2 := State.islandRuns_congr _ _ _ (hkept _ (by decide))
  exact ⟨(hacts.get PAR_STATUS_PSTATE (parRegs_kept _ (by decide))).trans hstate', (hacts.get PAR_LEASE_HOLDER (parRegs_kept _ (by decide))).trans hholder',
    hposts.extends hacts.toExtends, fun h => hreset hpassive (hruns.trans h)⟩

end Authority

/-- Settles O53: an authority that rises is `State.activated_shows`, one that is dropped `State.splitDropped_shows` or `State.doYield_shows`, a chip
that becomes passive `State.goPassive_shows`, and an adopted job `State.adopt_shows`. -/
theorem pairAuthority : Obligations.PairAuthority := by
  unfold Obligations.PairAuthority
  refine ⟨?single, ?alone, ?synced, ?refused, ?peer, ?split, ?suspect, ?fenceEnd, ?yield, ?handover, ?auto, ?yielded, ?failed, ?adopted⟩
  case single =>
    intro s hpaired hmay hauth
    have heff : s.authRaise = s.putB PAR_STATUS_AUTH true := (if_neg (by simp [hmay, hauth])).trans (if_neg (by simp [hpaired]))
    exact nextPutB (congrArg finish heff) rfl
  case alone =>
    intro s hpaired hpstate hmay hauth hjournal hdown
    obtain ⟨hraised, hactive, hpar, honly, hkeeps, hlink, hruns⟩ := s.activated_shows
    have hsame : s.activated.startResync = s.activated := State.startResync_down (hlink.trans hdown)
    have heff := State.authRaise_claimed hpaired hpstate hmay hauth (by rw [hsame, hpar]; exact hjournal)
    rw [hsame] at heff
    generalize s.activated = t at *
    exact ⟨_, congrArg finish heff, hraised, hactive, hpar, hruns, Alters.of_par honly hkeeps⟩
  case synced =>
    intro s hpaired hpstate hmay hauth hjournal hup hcols htrims hjob
    obtain ⟨hraised, hactive, hpar, honly, hkeeps, hlink, -⟩ := s.activated_shows
    have hauthRaise := State.authRaise_claimed hpaired hpstate hmay hauth
    generalize s.activated = x at *
    have hrole : x.paired = true := by
      rw [State.paired, State.role, hkeeps.get PAR_CFG_ROLE (by decide)]
      exact hpaired
    have hcount := hkeeps.get PAR_RESYNC_COUNT_COUNT (by decide)
    obtain ⟨u, -, hresync⟩ := State.startResync_bare (s := x) hrole hactive (hlink.trans hup) (by rw [honly]; exact hcols) (by rw [honly]; exact htrims)
      (by rw [honly]; exact hjob)
    obtain ⟨-, hkept, -, -⟩ := x.resyncCounted_shows u
    have hcounted : (x.resyncCounted u).get PAR_RESYNC_COUNT_COUNT = min (2 ^ 32 - 1) (x.get PAR_RESYNC_COUNT_COUNT + 1) := State.get_addSat_same _ _ _ rfl
    rw [hresync] at hauthRaise
    generalize x.resyncCounted u = y at *
    have heff := hauthRaise (by rw [State.setPar_par]; exact (congrArg Par.journal hpar).trans hjournal)
    exact ⟨_, congrArg finish heff, (hkept.on PAR_STATUS_AUTH (by decide)).trans hraised, (hkept.get PAR_STATUS_PSTATE (by decide)).trans hactive, rfl,
      hcounted.trans (by rw [hcount])⟩
  case refused => exact fun s hmay => ⟨_, congrArg finish (if_pos (.inl (by simp [hmay]))), Silent.refl s⟩
  case peer =>
    intro s level hlow
    have heff : s.authIn level = s.peerShown level := by
      refine if_neg fun h => ?_
      obtain ⟨-, hrole, hauth⟩ := h
      exact hlow.elim (fun h => h hrole) fun h => absurd hauth (by simp [h])
    have hlevel : (s.peerShown level).on PAR_STATUS_PEER_AUTH = level := State.on_putB_same s _ _ rfl
    have honly : RegsOnly { s with par := { s.par with authLow := if level = true then none else some s.time.cyc } } (s.peerShown level) :=
      ((ParOnly.refl s).putB _ _).withPar _
    have hkeeps : Keeps s (s.peerShown level) [PAR_STATUS] := ((Keeps.refl s _).putB _ _ (by decide)).setPar _
    generalize s.peerShown level = t at *
    exact ⟨_, congrArg finish heff, hlevel, Alters.of_regsOnly rfl honly hkeeps⟩
  case split =>
    intro s hrole hauth hpstate
    have heff := State.authIn_split hrole hauth hpstate
    obtain ⟨hlow, hpeer, hclaimed, hcount, hposts⟩ := s.splitDropped_shows
    obtain ⟨hacts, -⟩ := s.splitDropped.goPassive_shows
    generalize s.splitDropped = x at *
    have hon (f : Fld) (h : f.off = PAR_STATUS) : x.goPassive.get f = x.get f := hacts.get f (h ▸ parRegs_kept _ (by decide))
    have hsplit := hacts.get PAR_SPLIT_COUNT_COUNT (parRegs_kept _ (by decide))
    have hposts' := hposts.extends hacts.toExtends
    have hauth' := State.on_eq_of_get _ _ _ (hon PAR_STATUS_AUTH rfl)
    have hpeer' := State.on_eq_of_get _ _ _ (hon PAR_STATUS_PEER_AUTH rfl)
    have hstate' := hon PAR_STATUS_PSTATE rfl
    generalize x.goPassive = t at *
    exact ⟨_, congrArg finish heff, hauth'.trans hlow, hpeer'.trans hpeer, hstate'.trans hclaimed, hsplit.trans hcount, hposts'.trackIrq⟩
  case suspect =>
    intro s hpaired hpstate hauth hposted
    have hexec : exec .splitSuspect s = finish ((s.setPar { s.par with splitPosted := true }).splitEvent 2).fencePeer :=
      congrArg finish (if_pos ⟨hpaired, hpstate, by simp [hauth], by simp [hposted]⟩)
    obtain ⟨hcount, hposts, hhidden, hkeeps⟩ := (s.setPar { s.par with splitPosted := true }).splitEvent_shows 2
    have hpar : ((s.setPar { s.par with splitPosted := true }).splitEvent 2).par = { s.par with splitPosted := true } :=
      State.hidden_congr (s.setPar { s.par with splitPosted := true }) _ hhidden (fun y => y.par)
    generalize (s.setPar { s.par with splitPosted := true }).splitEvent 2 = x at *
    obtain ⟨hfenced, honly, hkept⟩ := x.fencePeer_shows
    have hon (f : Fld) (hf : f.off ∉ [PAR_SPLIT_COUNT, PAR_IRQ_CAUSE] ++ evtRegs) : x.on f = s.on f := hkeeps.on f hf
    rw [hon PAR_STATUS_FENCED (by decide), hon PAR_CFG_FENCE_EN (by decide), hon PAR_STATUS_PEER_AUTH (by decide), hpar] at hfenced
    generalize x.fencePeer = t at *
    have hpar' : t.par = { s.par with splitPosted := true } := (State.hidden_congr x t honly.hidden (fun y => y.par)).trans hpar
    refine ⟨_, hexec, hpar', (hkept.get PAR_SPLIT_COUNT_COUNT (by decide)).trans hcount, hfenced, ?_, ?_, ?_⟩
    · exact ((Posts.of_start hposts rfl rfl rfl).extends (Acts.of_hif (W := (· ∈ [PAR_STATUS])) honly.hif hkept).toExtends).trackIrq
    · rw [State.trackIrq_hidden, State.trackIrq_par, honly.hidden, hhidden, hpar']
      rfl
    · have hkeeps' : Keeps s x ([PAR_SPLIT_COUNT, PAR_IRQ_CAUSE] ++ evtRegs) := hkeeps
      exact ((hkeeps'.mono (by decide)).trans (hkept.mono (by decide))).trackIrq
  case fenceEnd =>
    exact fun s => ⟨_, rfl, State.on_putB_same s _ _ rfl, Silent.put s PAR_STATUS_FENCED _⟩
  case yield =>
    intro s req hreq hrun hpstate hpaired hjob
    have hcmd := (State.reqWrite_island (s := s) (fun s => s.yieldCmd) islandOf_parCmd hreq hrun).trans (if_pos ⟨hpstate, hpaired⟩)
    obtain ⟨hlow, hstate, hpar, hposts, hhidden, hkeeps⟩ := State.doYield_shows hjob 1 0xFF
    generalize s.doYield 1 0xFF = t at *
    refine ⟨_, congrArg finish hcmd, hlow, hstate, congrArg Par.yielding hpar, fun hup => ?_, hposts.trackIrq, hhidden, hkeeps⟩
    refine (congrArg Par.unacked hpar).trans ?_
    rw [hup]
    rfl
  case handover =>
    intro s req hreq hrun hpstate hpaired hjob
    have hcmd := (State.reqWrite_island (s := s) (fun s => s.handoverCmd) islandOf_parCmd hreq hrun).trans (State.handoverCmd_noJob hpstate hpaired hjob)
    obtain ⟨hlow, hstate, -, hposts, hhidden, hkeeps⟩ := State.doYield_shows (s := s.setPar { s.par with handover := true }) hjob 2 0xFF
    generalize State.doYield _ 2 0xFF = t at *
    exact ⟨_, congrArg finish hcmd, hlow, hstate, (Posts.of_start hposts rfl rfl rfl).trackIrq, hhidden, hkeeps⟩
  case auto =>
    intro s p hpstate hpaired hen hretired hpeer hjob
    have heff : s.autoYield (some p) = s.doYield 3 p := (if_neg (by simp [hpstate, hpaired, hen])).trans (if_pos ⟨hretired, hpeer⟩)
    obtain ⟨-, hstate, -, hposts, hhidden, hkeeps⟩ := State.doYield_shows hjob 3 p
    generalize s.doYield 3 p = t at *
    exact ⟨_, congrArg finish heff, hstate, hposts.trackIrq, hhidden, hkeeps⟩
  case yielded =>
    intro s hpstate hpaired
    obtain ⟨hstate, hholder, hposts, hreset⟩ := State.yieldDone_shows hpstate hpaired
    have hexec : exec .yieldTimeout s = finish s.yieldDone := rfl
    generalize s.yieldDone = t at *
    exact ⟨_, hexec, hstate, hholder, hposts.trackIrq, hreset⟩
  case failed =>
    intro s k htake hjob
    have heff : s.takeover (some k.val) false =
        (s.setPar { s.par with takeover := false }).report Ev.TAKEOVER_FAIL 0xFFFF [k] PAR_IRQ_CAUSE_TAKEOVER := if_neg (by simp [htake, hjob])
    obtain ⟨hposts, hhidden, hkeeps⟩ := ((ParOnly.refl s).setPar { s.par with takeover := false }).reported ((Keeps.refl s []).setPar _) (by decide)
      Ev.TAKEOVER_FAIL [k] PAR_IRQ_CAUSE_TAKEOVER (by decide)
    generalize State.report _ Ev.TAKEOVER_FAIL 0xFFFF _ PAR_IRQ_CAUSE_TAKEOVER = t at *
    exact ⟨_, congrArg finish heff, hposts.trackIrq, hhidden, hkeeps⟩
  case adopted =>
    intro s d ring line htake hjob hopen
    have heff : s.takeover none true = s.adopt d true := by
      refine (if_neg (by simp [htake, hjob])).trans ?_
      rw [hopen]
    obtain ⟨htake', hmismatch, hid, hposts⟩ := s.adopt_shows d
    generalize s.adopt d true = t at *
    exact ⟨_, congrArg finish heff, htake', hmismatch, hid, hposts.trackIrq⟩

end Sys2Proof.Machine

namespace Sys2Proof.Machine

/-! ### The option block (R504 to R506, R508) -/

/-- Only registers and the reset record differ. -/
def RstOnly (s x : State) : Prop := x = { s with regs := x.regs, rst := x.rst }

section Options
variable {s x y : State} {b : List Byte}

theorem RstOnly.refl (s : State) : RstOnly s s := rfl
theorem RstOnly.rset (h : RstOnly s x) (a : Nat) (v : Word) : RstOnly s (x.rset a v) := by
  unfold RstOnly at *
  rw [h]
  rfl
theorem RstOnly.put (h : RstOnly s x) (f : Fld) (v : Nat) : RstOnly s (x.put f v) := h.rset _ _
theorem RstOnly.putB (h : RstOnly s x) (f : Fld) (v : Bool) : RstOnly s (x.putB f v) := h.put f _
theorem RstOnly.setRst (h : RstOnly s x) (r : Rst) : RstOnly s (x.setRst r) := by
  unfold RstOnly at *
  rw [h]
  rfl
theorem RstOnly.trans (h : RstOnly s x) (h' : RstOnly x y) : RstOnly s y := by
  unfold RstOnly at *
  rw [h', h]
theorem RstOnly.foldl {α : Type} {f : State → α → State} (hf : ∀ y a, RstOnly y (f y a)) (l : List α) (s : State) : RstOnly s (l.foldl f s) :=
  List.foldlRecOn (motive := RstOnly s) l f (RstOnly.refl s) fun y hy a _ => hy.trans (hf y a)

theorem RstOnly.hif (h : RstOnly s x) : x.hif = s.hif := by
  unfold RstOnly at h
  rw [h]
theorem RstOnly.time (h : RstOnly s x) : x.time = s.time := by
  unfold RstOnly at h
  rw [h]
theorem RstOnly.hidden (h : RstOnly s x) : x.hidden = { s with rst := x.rst }.hidden := by
  unfold RstOnly at h
  rw [h]
  rfl
theorem RstOnly.mram (h : RstOnly s x) : x.mram = s.mram := by
  unfold RstOnly at h
  rw [h]

/-- A command that changes registers and the reset record. -/
theorem Alters.of_rstOnly (h : RstOnly s x) {l : List Nat} (hk : Keeps s x l) : Alters s x.trackIrq { s with rst := x.trackIrq.rst } l := by
  rw [State.trackIrq_rst]
  refine Alters.of_regsOnly (rfl : ({ s with rst := x.rst } : State).hif = s.hif) ?_ hk
  unfold RegsOnly RstOnly at *
  rw [h]

/-- The registers that the option block is shown in. -/
def optRegs : List Nat := (List.range 16).map RST_OPT ++ (List.range 4).map PIN_FUNC ++ [PIN_OUT, RST_OPT_STATUS, PAR_CFG]

/-- The words of a block are shown. -/
def State.optWords (s : State) (b : List Byte) : State :=
  (List.range 16).foldl (fun s i => s.put (RST_OPT_DATA i) (leNat ((b.drop (4 * i)).take 4))) s

/-- A block is shown: its words, and what they say. -/
def State.optShown (s : State) (b : List Byte) (bad : Bool) : State :=
  (((((s.optWords b).putB RST_OPT_STATUS_OPT_BAD bad).putB RST_OPT_STATUS_LOCK (bit (b.getD 6 0).toNat 0)).putB RST_OPT_STATUS_BOOT_SRC
    (bit (b.getD 3 0).toNat 0)).putB RST_OPT_STATUS_FIRE_BLOCK bad).put PAR_CFG_ROLE (b.getD 5 0).toNat

/-- The pins of a block. -/
def optPinDef (b : List Byte) : List Nat := (List.range 32).map (fun n => (b.getD (40 + n / 4) 0).toNat / 4 ^ (n % 4) % 4)

/-- Its pins are applied, if they were not since power-on. -/
def State.optPins (s : State) (d : List Nat) : State := if s.rst.pins = true then s.applyPins d else s.setRst { s.rst with pinDef := d }

/-- A block that is in force, beside what a passive chip resets. -/
def State.optTaken (s : State) (b : List Byte) (bad : Bool) : State := (s.optShown b bad).optPins (optPinDef b)

/-- On a passive chip the page and plane islands stay in reset (R464). -/
def State.optPassive (s : State) : State := if s.passive = true ∧ s.islandRuns 2 = true then s.printReset else s

theorem State.optLoad_good (h : optFail (Mem.reads s.mram 0x00700000 64) = none) :
    s.optLoad [] = (s.optTaken (Mem.reads s.mram 0x00700000 64) false).optPassive := by
  simp only [State.optLoad, show mramSeen s.mram [] = s.mram from rfl, h, Option.isSome_none, Bool.false_eq_true, if_false]
  rfl

theorem State.optLoad_bad {f : Nat} (h : optFail (Mem.reads s.mram 0x00700000 64) = some f) :
    s.optLoad [] = ((((s.optTaken optDefaults true).putB PAR_STATUS_AUTH false).report Ev.OPT_BAD 0xFFFF [f] RST_IRQ_CAUSE_OPT_BAD).logEvent
      Ev.OPT_BAD [f]).optPassive := by
  simp only [State.optLoad, show mramSeen s.mram [] = s.mram from rfl, h, Option.isSome_some, if_true]
  rfl

theorem RstOnly.applyPins (s : State) (d : List Nat) : RstOnly s (s.applyPins d) :=
  ((RstOnly.foldl (fun y i => (RstOnly.refl y).rset (PIN_FUNC i) _) _ s).put PIN_OUT_OUT _).setRst _

/-- The registers of the pins' functions and outputs. -/
def pinRegs : List Nat := (List.range 4).map PIN_FUNC ++ [PIN_OUT]

theorem Keeps.applyPins (s : State) (d : List Nat) : Keeps s (s.applyPins d) pinRegs := by
  have hfunc : ∀ i ∈ List.range 4, PIN_FUNC i ∈ pinRegs := by decide
  refine Keeps.setRst (Keeps.put ?_ _ _ (by decide)) _
  exact List.foldlRecOn (motive := fun y => Keeps s y pinRegs) _ _ (Keeps.refl s _) fun y hy i hi => hy.rset _ _ (hfunc i hi)

theorem RstOnly.optPins (s : State) (d : List Nat) : RstOnly s (s.optPins d) := by
  unfold State.optPins
  split
  · exact RstOnly.applyPins s d
  · exact (RstOnly.refl s).setRst _

theorem Keeps.optPins (s : State) (d : List Nat) : Keeps s (s.optPins d) pinRegs := by
  unfold State.optPins
  split
  · exact Keeps.applyPins s d
  · exact (Keeps.refl s _).setRst _

theorem State.optPins_pins (s : State) (d : List Nat) : (s.optPins d).rst.pins = false := by
  unfold State.optPins
  split
  · rfl
  · next h => exact Bool.eq_false_iff.mpr h

theorem leNat_lt (l : List Byte) : leNat l < 256 ^ l.length := by
  induction l with
  | nil => exact Nat.one_pos
  | cons b l ih =>
    have hb : b.toNat < 256 := b.isLt
    rw [leNat, List.length_cons, pow_succ]
    omega

theorem optWord_lt (b : List Byte) (i : Nat) : leNat ((b.drop (4 * i)).take 4) < 2 ^ 32 :=
  calc leNat ((b.drop (4 * i)).take 4) < 256 ^ ((b.drop (4 * i)).take 4).length := leNat_lt _
    _ ≤ 256 ^ 4 := Nat.pow_le_pow_right (by decide) (List.length_take_le _ _)

theorem rstOpt_ne {i j : Nat} (h : i ≠ j) : RST_OPT i ≠ RST_OPT j := by
  unfold RST_OPT
  omega

theorem State.optWords_shows (s : State) (b : List Byte) : RstOnly s (s.optWords b) ∧ Keeps s (s.optWords b) ((List.range 16).map RST_OPT) ∧
    ∀ i : Fin 16, (s.optWords b).get (RST_OPT_DATA i) = leNat ((b.drop (4 * i)).take 4) := by
  refine ⟨RstOnly.foldl (fun y i => (RstOnly.refl y).put _ _) _ s, ?_, fun i => ?_⟩
  · exact List.foldlRecOn (motive := fun y => Keeps s y ((List.range 16).map RST_OPT)) _ _ (Keeps.refl s _)
      fun y hy i hi => hy.put (RST_OPT_DATA i) _ (List.mem_map_of_mem hi)
  · have hword := foldl_at (π := fun y : State => y.get (RST_OPT_DATA i)) (f := fun s i => s.put (RST_OPT_DATA i) (leNat ((b.drop (4 * i)).take 4)))
      (g := fun _ => leNat ((b.drop (4 * i)).take 4)) (L := List.range 16) (P := fun _ => True)
      (fun y j _ hj => State.get_put_apart y _ _ _ rfl (.inl (rstOpt_ne hj)))
      (fun y _ => (State.get_put_same y (RST_OPT_DATA i) _ rfl).trans (Nat.mod_eq_of_lt (optWord_lt b i))) (fun _ _ _ _ => trivial) List.nodup_range s
      trivial
    exact hword.trans (if_pos (List.mem_range.mpr i.isLt))

/-- What a block that is taken over shows (R504, R505, R508). -/
theorem State.optTaken_shows (s : State) (bad : Bool) (hrole : (b.getD 5 0).toNat < 4) :
    let t := s.optTaken b bad
    t.on RST_OPT_STATUS_OPT_BAD = bad ∧ t.on RST_OPT_STATUS_FIRE_BLOCK = bad ∧ t.on RST_OPT_STATUS_LOCK = bit (b.getD 6 0).toNat 0 ∧
      t.on RST_OPT_STATUS_BOOT_SRC = bit (b.getD 3 0).toNat 0 ∧ t.get PAR_CFG_ROLE = (b.getD 5 0).toNat ∧
      (∀ i : Fin 16, t.get (RST_OPT_DATA i) = leNat ((b.drop (4 * i)).take 4)) ∧ t.rst.pins = false ∧ RstOnly s t ∧ Keeps s t optRegs := by
  obtain ⟨honly, hkeeps, hwords⟩ := s.optWords_shows b
  have hne : ∀ i : Fin 16, RST_OPT_STATUS ≠ RST_OPT i ∧ PAR_CFG ≠ RST_OPT i ∧ RST_OPT i ∉ pinRegs := by decide
  have hshown : (s.optShown b bad).on RST_OPT_STATUS_OPT_BAD = bad ∧ (s.optShown b bad).on RST_OPT_STATUS_FIRE_BLOCK = bad ∧
      (s.optShown b bad).on RST_OPT_STATUS_LOCK = bit (b.getD 6 0).toNat 0 ∧ (s.optShown b bad).on RST_OPT_STATUS_BOOT_SRC = bit (b.getD 3 0).toNat 0 ∧
      (s.optShown b bad).get PAR_CFG_ROLE = (b.getD 5 0).toNat ∧
      (∀ i : Fin 16, (s.optShown b bad).get (RST_OPT_DATA i) = leNat ((b.drop (4 * i)).take 4)) ∧ RstOnly s (s.optShown b bad) ∧
      Keeps s (s.optShown b bad) optRegs := by
    unfold State.optShown
    generalize s.optWords b = x at *
    have hkept : Keeps s x optRegs := hkeeps.mono (by decide)
    refine ⟨?_, ?_, ?_, ?_, ?_, fun i => ?_, ((((honly.putB _ _).putB _ _).putB _ _).putB _ _).put _ _,
      ((((hkept.putB _ _ (by decide)).putB _ _ (by decide)).putB _ _ (by decide)).putB _ _ (by decide)).put _ _ (by decide)⟩
    · simp (disch := decide) only [State.on_put_apart, State.on_putB_apart, State.on_putB_same]
    · simp (disch := decide) only [State.on_put_apart, State.on_putB_same]
    · simp (disch := decide) only [State.on_put_apart, State.on_putB_apart, State.on_putB_same]
    · simp (disch := decide) only [State.on_put_apart, State.on_putB_apart, State.on_putB_same]
    · rw [State.get_put_same _ _ _ rfl]
      exact Nat.mod_eq_of_lt hrole
    · obtain ⟨hstatus, hcfg, -⟩ := hne i
      rw [State.get_put_apart _ _ _ _ rfl (.inl hcfg), State.get_putB_apart _ _ _ _ rfl (.inl hstatus), State.get_putB_apart _ _ _ _ rfl (.inl hstatus),
        State.get_putB_apart _ _ _ _ rfl (.inl hstatus), State.get_putB_apart _ _ _ _ rfl (.inl hstatus), hwords]
  obtain ⟨hbad, hblock, hlock, hsrc, hrole', hwords', honly', hkeeps'⟩ := hshown
  unfold State.optTaken
  generalize s.optShown b bad = x at *
  have hkept := Keeps.optPins x (optPinDef b)
  have hpins := x.optPins_pins (optPinDef b)
  have hrst := RstOnly.optPins x (optPinDef b)
  generalize x.optPins (optPinDef b) = t at *
  exact ⟨(hkept.on _ (by decide)).trans hbad, (hkept.on _ (by decide)).trans hblock, (hkept.on _ (by decide)).trans hlock,
    (hkept.on _ (by decide)).trans hsrc, (hkept.get _ (by decide)).trans hrole', fun i => (hkept.get _ (hne i).2.2).trans (hwords' i), hpins,
    honly'.trans hrst, hkeeps'.trans (hkept.mono (by decide))⟩

theorem optFail_role (h : optFail b = none) : (b.getD 5 0).toNat ≤ 2 := by
  unfold optFail at h
  dsimp only at h
  split_ifs at h with h1 h2 h3 h4
  simp only [not_or] at h3
  omega

theorem optDefaults_shows : (optDefaults.getD 6 0).toNat = 0 ∧ (optDefaults.getD 3 0).toNat = 0 ∧ (optDefaults.getD 5 0).toNat = 0 := by decide

theorem State.passive_role (h : s.get PAR_CFG_ROLE = 0) : s.passive = false := by
  rw [State.passive, State.role, h]
  rfl

theorem State.optPassive_alone (h : s.get PAR_CFG_ROLE = 0) : s.optPassive = s := if_neg (by simp [State.passive_role h])

end Options

end Sys2Proof.Machine

namespace Sys2Proof.Machine

/-! ### Power-on (R498, R543, R554) -/

section PowerOn
variable {s x : State} {mode : Nat}

/-- Power-on with the straps as they are, before the release. -/
def State.powered (s : State) (mode : Nat) : State :=
  s.setRst { s.rst with strapHold := mode != 0, corePwr := true, asserted := [] }

theorem State.powerUp_plain (mode : Nat) (hasserted : s.rst.asserted = [1]) (hlatch : s.on RST_VBAT_CTRL_THERM_LATCH = false)
    (hvbat : s.rst.vbatGone = false) : s.powerUp mode = (s.powered mode).release 18 := by
  have hfilter : [1].filter (fun x => Nat.blt 1 x) = [] := rfl
  have hstands : ([1].contains 0 = true ∨ [1].contains 1 = true) := .inr rfl
  simp only [State.powerUp, if_pos hstands, hvbat, hlatch, Bool.false_eq_true, if_false, hasserted, hfilter, State.powered, State.releaseAll]

theorem State.passes_zero (s : State) : s.passes 0 := .inr (.inl rfl)

/-- The always-on island comes first in the release order, the DRAM controller's second (R498). -/
theorem State.releaseList_first (h0 : 0 ∈ s.rst.todo) (h12 : 12 ∈ s.rst.todo) : ∃ l, s.releaseList = 0 :: 12 :: l := by
  refine ⟨[1, 2, 3, 4, 5, 6, 7, 8, 9, 10, 11, 13, 14, 15, 16].filter (fun k => s.rst.todo.contains k), ?_⟩
  have hzero : s.rst.todo.contains 0 = true := List.contains_iff_mem.mpr h0
  have htwelve : s.rst.todo.contains 12 = true := List.contains_iff_mem.mpr h12
  rw [State.releaseList, releaseOrder, List.filter_cons_of_pos hzero, List.filter_cons_of_pos htwelve]

/-- The release stops at an island whose clock is not good. -/
theorem State.release_second (hasserted : s.rst.asserted = []) (h0 : 0 ∈ s.rst.todo) (h12 : 12 ∈ s.rst.todo) (hstrap : s.rst.strapHold = false)
    (hclk : s.on (RST_ISLAND_CLK_GOOD 12) = false) : s.release 18 = (s.releaseIsland 0).setIsland 12 2 := by
  obtain ⟨l, hlist⟩ := State.releaseList_first h0 h12
  have hview := s.releaseIsland_view 0
  rw [State.release_step hasserted hlist s.passes_zero]
  refine State.release_waits ((congrArg ResetView.asserted hview).trans hasserted) (State.releaseIsland_list hlist) ?_
  rw [State.passes_releaseIsland (by decide) (by decide)]
  have hheld : s.heldIsland 12 = false := by
    rw [State.heldIsland, hstrap, State.printHeld]
    simp
  simp [State.passes, hheld, hclk]

/-- After power-on with the straps at 0 the always-on island runs, and the next one waits for its clock. -/
theorem State.powerUp_waits (hasserted : s.rst.asserted = [1]) (hlatch : s.on RST_VBAT_CTRL_THERM_LATCH = false) (hvbat : s.rst.vbatGone = false)
    (h0 : 0 ∈ s.rst.todo) (h12 : 12 ∈ s.rst.todo) (hclk : s.on (RST_ISLAND_CLK_GOOD 12) = false) :
    let t := s.powerUp 0
    t.islandRuns 0 = true ∧ t.get (RST_ISLAND_RSTATE 12) = 2 ∧ RstOnly s t ∧ Keeps s t [RST_ISLAND 0, RST_ISLAND 12] ∧
      t.rst = { s.rst with strapHold := false, corePwr := true, asserted := [], todo := s.rst.todo.filter (fun x => x != 0) } := by
  have heff := State.release_second (s := s.powered 0) rfl h0 h12 rfl hclk
  rw [State.powerUp_plain 0 hasserted hlatch hvbat, heff]
  have hheld : (s.powered 0).heldIsland 0 = false := by simp [State.heldIsland, State.printHeld]
  have honly : RstOnly s ((s.powered 0).setRst { (s.powered 0).rst with todo := s.rst.todo.filter (fun x => x != 0) }) :=
    ((RstOnly.refl s).setRst _).setRst _
  have hrelease : (s.powered 0).releaseIsland 0 =
      ((s.powered 0).setRst { (s.powered 0).rst with todo := s.rst.todo.filter (fun x => x != 0) }).setIsland 0 0 := by
    rw [State.releaseIsland, hheld]
    rfl
  have hkeeps : Keeps s ((s.powered 0).setRst { (s.powered 0).rst with todo := s.rst.todo.filter (fun x => x != 0) }) [RST_ISLAND 0, RST_ISLAND 12] :=
    ((Keeps.refl s _).setRst _).setRst _
  have hrst : ((s.powered 0).setRst { (s.powered 0).rst with todo := s.rst.todo.filter (fun x => x != 0) }).rst =
      { s.rst with strapHold := false, corePwr := true, asserted := [], todo := s.rst.todo.filter (fun x => x != 0) } := rfl
  rw [hrelease]
  generalize State.setRst _ _ = y at *
  refine ⟨?_, ?_, ((((honly.put _ _).putB _ _).put _ _).putB _ _), (hkeeps.setIsland 0 0 (by decide)).setIsland 12 2 (by decide), ?_⟩
  · rw [State.islandRuns_eq, State.island_setIsland_ne _ _ (by decide), State.island_setIsland_same _ _ (by decide)]
    rfl
  · exact State.get_of_island (State.island_setIsland_same _ 12 (by decide))
  · rw [State.setIsland_rst, State.setIsland_rst, hrst]

/-- With another mode the other islands stay in reset, and the reset ends (R554). -/
theorem State.powerUp_strapped (hmode : mode ≠ 0) (hasserted : s.rst.asserted = [1]) (hlatch : s.on RST_VBAT_CTRL_THERM_LATCH = false)
    (hvbat : s.rst.vbatGone = false) (hcover : s.rst.cover ≠ []) (hall : ∀ k : Fin 17, k.val ∈ s.rst.todo) :
    let t := s.powerUp mode
    t.rst.strapHold = true ∧ t.rst.corePwr = true ∧ t.islandRuns 0 = true ∧ ∀ k : Fin 17, k.val ≠ 0 → t.get (RST_ISLAND_RSTATE k) = 1 := by
  have hstrap : (s.powered mode).rst.strapHold = true := by simpa [State.powered, State.rst_setRst] using hmode
  have hheld (k : Nat) (hk : k ≠ 0) : (s.powered mode).heldIsland k = true := by simp [State.heldIsland, hstrap, hk]
  have hzero : (s.powered mode).heldIsland 0 = false := by simp [State.heldIsland, State.printHeld]
  have hpasses : ∀ k ∈ (s.powered mode).releaseList, (s.powered mode).passes k := fun k _ => by
    by_cases hk : k = 0
    · exact .inr (.inl hk)
    · exact .inl (hheld k hk)
  have heff := State.release_passes (s := s.powered mode) rfl rfl hpasses (releaseList_length _)
  obtain ⟨hreleased, -, -, hview, -⟩ := (s.powered mode).released_shows
  have hview0 : (s.powered mode).resetView.cover = s.rst.cover := rfl
  have hpwr : (s.powered mode).resetView.corePwr = true := rfl
  have hstrap' : (s.powered mode).resetView.strapHold = true := hstrap
  rw [State.powerUp_plain mode hasserted hlatch hvbat, heff]
  generalize List.foldl State.releaseIsland _ _ = x at *
  have hcover' : x.rst.cover ≠ [] := fun h => hcover (hview0.symm.trans ((congrArg ResetView.cover hview).symm.trans h))
  rw [if_neg hcover']
  obtain ⟨hacts, hdone, -⟩ := x.resetDone_shows
  have hisland (k : Fin 17) : x.resetDone.island k = x.island k := State.island_of_rget (hacts.rget _ (island_not_done k))
  refine ⟨?_, ?_, ?_, fun k hk => ?_⟩
  · exact (congrArg ResetView.strapHold hdone).trans ((congrArg ResetView.strapHold hview).trans hstrap')
  · exact (congrArg ResetView.corePwr hdone).trans ((congrArg ResetView.corePwr hview).trans hpwr)
  · refine (State.islandRuns_of_island (hisland 0)).trans ?_
    rw [State.islandRuns_eq, hreleased 0 (hall 0)]
    simp [hzero]
  · refine (State.get_of_island ((hisland k).trans (hreleased k (hall k)))).trans ?_
    exact if_pos (hheld k hk)

end PowerOn

/-! ### Boot (R507) -/

section Boot
variable {s x : State} {entry : Nat}

/-- Boot data goes to SRAM. -/
theorem State.bootData_shows (s : State) (v : Nat) :
    let t := s.bootData v
    t.get RST_BOOT_ADDR_ADDR = (s.get RST_BOOT_ADDR_ADDR + 1) % 2 ^ 19 ∧ RstOnly s t ∧ Keeps s t [RST_BOOT_ADDR] ∧
      t.rst = { s.rst with sram := Mem.writes s.rst.sram (4 * s.get RST_BOOT_ADDR_ADDR) (leBytes 4 v) } := by
  refine ⟨?_, ((RstOnly.refl s).setRst _).put _ _, ((Keeps.refl s _).setRst _).put _ _ (by decide), State.put_rst _ _ _⟩
  refine (State.get_put_same _ _ _ rfl).trans ?_
  exact Nat.mod_mod _ _

/-- The core starts. -/
def State.bootStart (s : State) (entry : Nat) : State := (s.putB RST_BOOT_CTRL_DONE true).setRst { s.rst with entry := entry }

theorem State.bootEnd_starts (hrun : s.islandRuns 13 = true) (hsrc : s.on RST_OPT_STATUS_BOOT_SRC = true ∨ s.on RST_BOOT_CTRL_GO = true)
    (hdone : s.on RST_BOOT_CTRL_DONE = false) : s.bootEnd none entry = s.bootStart entry := by
  refine if_neg fun h => ?_
  rcases h with h | ⟨hno, hgo⟩ | h
  · simp [hrun] at h
  · rcases hsrc with hsrc | hsrc
    · simp [hsrc] at hno
    · simp [hsrc] at hgo
  · simp [hdone] at h

/-- A block whose signature or hash is wrong does not start the core under LOCK. -/
theorem State.bootEnd_fails {r : Nat} (hrun : s.islandRuns 13 = true) (hsrc : s.on RST_OPT_STATUS_BOOT_SRC = true ∨ s.on RST_BOOT_CTRL_GO = true)
    (hdone : s.on RST_BOOT_CTRL_DONE = false) (hr : r = 3 ∨ r = 4) (hlock : s.on RST_OPT_STATUS_LOCK = true) :
    s.bootEnd (some r) entry =
      ((s.putB RST_BOOT_CTRL_SIG_FAIL true).report Ev.BOOT_FAIL 0xFFFF [r] RST_IRQ_CAUSE_BOOT_FAIL).logEvent Ev.BOOT_FAIL [r] := by
  have hguard : ¬((!s.islandRuns 13) = true ∨ ((!s.on RST_OPT_STATUS_BOOT_SRC) = true ∧ (!s.on RST_BOOT_CTRL_GO) = true) ∨
      s.on RST_BOOT_CTRL_DONE = true) := by
    rcases hsrc with hsrc | hsrc <;> simp [hrun, hsrc, hdone]
  have hsig : (r == 3 || r == 4) = true := by rcases hr with rfl | rfl <;> rfl
  have hnot : ¬(r = 0 ∨ ((r == 3 || r == 4) = true ∧ (!s.on RST_OPT_STATUS_LOCK) = true)) := by
    rcases hr with rfl | rfl <;> simp [hlock]
  refine (if_neg hguard).trans ((if_neg hnot).trans ?_)
  rw [hsig]
  rfl

end Boot

/-! ### A new option block (R506) -/

section NewBlock
variable {s : State} {v : Nat} {b : List Byte}

/-- The staged block. -/
def State.optStaged (s : State) : List Byte := ((List.range 16).map (fun i => leBytes 4 (s.get (NVM_OPT_STAGE_DATA i)))).flatten

/-- The first reason against a staged block. -/
theorem State.optCmd_refused {why : Nat} (hkey : v % 256 = 0xC3) (hb : b = s.optStaged)
    (hwhy : why = if s.on RST_OPT_STATUS_LOCK = true then 1 else if leNat (b.drop 60) ≠ crc32c (b.take 60) then 2 else 3)
    (hbad : s.on RST_OPT_STATUS_LOCK = true ∨ leNat (b.drop 60) ≠ crc32c (b.take 60) ∨ s.on NVM_STATUS_IN_WINDOW = false) :
    s.optCmd v = s.report Ev.OPT_REFUSED 0xFFFF [why] NVM_IRQ_CAUSE_OPT_REFUSED := by
  subst hb
  refine (if_neg (not_not_intro hkey)).trans ?_
  by_cases hlock : s.on RST_OPT_STATUS_LOCK = true
  · rw [hwhy.trans (if_pos hlock)]
    exact if_pos hlock
  · have hwhy' := hwhy.trans (if_neg hlock)
    refine (if_neg hlock).trans ?_
    by_cases hcrc : leNat (s.optStaged.drop 60) ≠ crc32c (s.optStaged.take 60)
    · rw [hwhy'.trans (if_pos hcrc)]
      exact if_pos hcrc
    · have hwindow := (hbad.resolve_left hlock).resolve_left hcrc
      rw [hwhy'.trans (if_neg hcrc)]
      exact (if_neg hcrc).trans (if_pos (by simp [hwindow]))

/-- The block is in MRAM. -/
def State.withBlock (s : State) (b : List Byte) : State := { s with mram := Mem.writes s.mram 0x00700000 b }

/-- What the report of a written block shows. -/
theorem State.withBlock_shows (s : State) (b : List Byte) (c : Nat) (l : List Nat) (f : Fld) (hc : c ≠ Ev.EVT_LOST) :
    let t := (s.withBlock b).report c 0xFFFF l f
    Posts s t c 0xFFFF l ∧ t.hidden = (s.withBlock b).hidden ∧ Keeps s t ([f.off] ++ evtRegs) := by
  obtain ⟨hposts, -, hkeeps⟩ := (ParOnly.refl (s.withBlock b)).reported (Keeps.refl _ []) (by decide) c l f hc
  exact ⟨(Posts.of_event s (s.withBlock b) _ _ _ rfl rfl rfl hc).cause _, State.hidden_report _ _ _ _ _, hkeeps⟩

theorem State.optCmd_written (hkey : v % 256 = 0xC3) (hb : b = s.optStaged) (hlock : s.on RST_OPT_STATUS_LOCK = false)
    (hcrc : leNat (b.drop 60) = crc32c (b.take 60)) (hwindow : s.on NVM_STATUS_IN_WINDOW = true) :
    s.optCmd v = (s.withBlock b).report Ev.OPT_WRITTEN 0xFFFF [leNat (b.drop 60)]
      NVM_IRQ_CAUSE_OPT_WRITTEN := by
  subst hb
  exact (if_neg (not_not_intro hkey)).trans ((if_neg (by simp [hlock])).trans ((if_neg (not_not_intro hcrc)).trans (if_neg (by simp [hwindow]))))

end NewBlock

/-! ### A bad option block (R504, R505) -/

section BadBlock
variable {s : State} {f : Nat}

/-- The defaults are in force, and no one may fire. -/
def State.optBlocked (s : State) : State := (s.optTaken optDefaults true).putB PAR_STATUS_AUTH false

/-- A bad block: the defaults, reported and logged. -/
def State.optRefuted (s : State) (f : Nat) : State := (s.optBlocked.report Ev.OPT_BAD 0xFFFF [f] RST_IRQ_CAUSE_OPT_BAD).logEvent Ev.OPT_BAD [f]

/-- The registers of a bad block. -/
def badRegs : List Nat := optRegs ++ [PAR_STATUS, RST_IRQ_CAUSE, NVM_STATUS, NVM_LOG_HEAD, RST_VBAT_CTRL]

theorem State.optBlocked_shows (s : State) :
    let t := s.optBlocked
    t.on RST_OPT_STATUS_OPT_BAD = true ∧ t.on RST_OPT_STATUS_FIRE_BLOCK = true ∧ t.on PAR_STATUS_AUTH = false ∧ t.get PAR_CFG_ROLE = 0 ∧
      t.on RST_OPT_STATUS_LOCK = false ∧ t.on RST_OPT_STATUS_BOOT_SRC = false ∧ RstOnly s t ∧ Keeps s t (optRegs ++ [PAR_STATUS]) := by
  obtain ⟨hlockByte, hsrcByte, hroleByte⟩ := optDefaults_shows
  obtain ⟨hbad, hblock, hlock, hsrc, hrole, -, -, honly, hkeeps⟩ := s.optTaken_shows (b := optDefaults) true (by rw [hroleByte]; decide)
  rw [hlockByte] at hlock
  rw [hsrcByte] at hsrc
  unfold State.optBlocked
  generalize s.optTaken optDefaults true = x at *
  have hkept : Keeps x (x.putB PAR_STATUS_AUTH false) [PAR_STATUS] := (Keeps.refl x _).putB _ _ (by decide)
  exact ⟨(hkept.on _ (by decide)).trans hbad, (hkept.on _ (by decide)).trans hblock, State.on_putB_same _ _ _ rfl,
    (hkept.get _ (by decide)).trans (hrole.trans hroleByte), (hkept.on _ (by decide)).trans hlock, (hkept.on _ (by decide)).trans hsrc,
    honly.putB _ _, (hkeeps.mono (by simp +contextual)).putB _ _ (by decide)⟩

/-- Beside the log and MRAM, what does not show stays the same. -/
theorem hidden_congr_log {x y : State} (h : x.hidden = y.hidden) (m : Memory) (r : Rst) :
    { x with mram := m, rst := r }.hidden = { y with mram := m, rst := r }.hidden :=
  congrArg (fun z : State => { z with mram := m, rst := r }) h

/-- What a bad block shows and posts. -/
theorem State.optRefuted_shows (s : State) (f : Nat) :
    let t := s.optRefuted f
    t.on RST_OPT_STATUS_OPT_BAD = true ∧ t.on RST_OPT_STATUS_FIRE_BLOCK = true ∧ t.on PAR_STATUS_AUTH = false ∧ t.get PAR_CFG_ROLE = 0 ∧
      t.on RST_OPT_STATUS_LOCK = false ∧ t.on RST_OPT_STATUS_BOOT_SRC = false ∧ Posts s t Ev.OPT_BAD 0xFFFF [f] ∧
      t.hidden = { s with rst := t.rst, mram := t.mram }.hidden ∧ Keeps s t (badRegs ++ evtRegs) := by
  obtain ⟨hbad, hblock, hauth, hrole, hlock, hsrc, honly, hkeeps⟩ := s.optBlocked_shows
  unfold State.optRefuted
  generalize s.optBlocked = x at *
  have hposts : Posts s (x.report Ev.OPT_BAD 0xFFFF [f] RST_IRQ_CAUSE_OPT_BAD) Ev.OPT_BAD 0xFFFF [f] :=
    (Posts.of_event s x _ _ _ honly.hif honly.time (hkeeps _ (by decide)) (by decide)).cause _
  have hhidden := x.hidden_report Ev.OPT_BAD 0xFFFF [f] RST_IRQ_CAUSE_OPT_BAD
  have hreport : Keeps x (x.report Ev.OPT_BAD 0xFFFF [f] RST_IRQ_CAUSE_OPT_BAD) ([RST_IRQ_CAUSE] ++ evtRegs) := (Keeps.refl x _).report _ _ _ _ (by decide)
  generalize x.report Ev.OPT_BAD 0xFFFF [f] RST_IRQ_CAUSE_OPT_BAD = y at *
  have hlog := LogOnly.logEvent y Ev.OPT_BAD [f]
  have hkept := Keeps.logEvent y Ev.OPT_BAD [f]
  have hacts := Acts.logEvent y Ev.OPT_BAD [f]
  generalize y.logEvent Ev.OPT_BAD [f] = t at *
  have hall : Keeps x t ([RST_IRQ_CAUSE, NVM_STATUS, NVM_LOG_HEAD, RST_VBAT_CTRL] ++ evtRegs) := (hreport.mono (by decide)).trans (hkept.mono (by decide))
  refine ⟨(hall.on _ (by decide)).trans hbad, (hall.on _ (by decide)).trans hblock, (hall.on _ (by decide)).trans hauth,
    (hall.get _ (by decide)).trans hrole, (hall.on _ (by decide)).trans hlock, (hall.on _ (by decide)).trans hsrc, hposts.extends hacts.toExtends,
    ?_, (hkeeps.mono (by decide)).trans (hall.mono (by decide))⟩
  exact hlog.hidden.trans ((hidden_congr_log hhidden t.mram t.rst).trans (hidden_congr_log honly.hidden t.mram t.rst))

end BadBlock

/-- Settles O57: power-on is a release (`State.powerUp_waits`, `State.powerUp_strapped`); a block that is taken over shows what
`State.optTaken_shows` says; a new block is refused or written (`State.optCmd_refused`, `State.optCmd_written`). -/
theorem bootAndOptions : Obligations.BootAndOptions := by
  unfold Obligations.BootAndOptions
  refine ⟨?waits, ?strapped, ?alone, ?paired, ?bad, ?noKey, ?refused, ?written, ?data, ?go, ?starts, ?fails⟩
  case waits =>
    intro s hasserted hlatch hvbat h0 h12 hclk
    obtain ⟨hruns, hwait, honly, hkeeps, hrst⟩ := State.powerUp_waits hasserted hlatch hvbat h0 h12 hclk
    have hexec : exec (.powerOn 0) s = finish (s.powerUp 0) := rfl
    generalize s.powerUp 0 = t at *
    exact ⟨_, hexec, hruns, hwait, by rw [← hrst]; exact Alters.of_rstOnly honly hkeeps⟩
  case strapped =>
    intro s mode hmode hasserted hlatch hvbat hcover hall
    have hmode' : mode.val ≠ 0 := fun h => hmode (Fin.ext h)
    obtain ⟨hstrap, hpwr, hruns, hreset⟩ := State.powerUp_strapped hmode' hasserted hlatch hvbat hcover hall
    have hexec : exec (.powerOn mode) s = finish (s.powerUp mode) := rfl
    generalize s.powerUp mode = t at *
    exact ⟨_, hexec, hstrap, hpwr, hruns, hreset⟩
  case alone =>
    intro s b hb hgood hrole
    subst hb
    have heff := State.optLoad_good hgood
    obtain ⟨hbad, hblock, hlock, hsrc, hrole', hwords, hpins, honly, hkeeps⟩ :=
      s.optTaken_shows (b := Mem.reads s.mram 0x00700000 64) false (by rw [hrole]; decide)
    rw [State.optPassive_alone (hrole'.trans hrole)] at heff
    generalize s.optTaken _ false = t at *
    exact ⟨_, congrArg finish heff, hbad, hblock, hlock, hsrc, hrole'.trans hrole, hwords, hpins, Alters.of_rstOnly honly hkeeps⟩
  case paired =>
    intro s b hb hgood hrole hactive hyielding hruns
    subst hb
    have heff := State.optLoad_good hgood
    obtain ⟨-, -, -, -, hrole', -, -, -, hkeeps⟩ :=
      s.optTaken_shows (b := Mem.reads s.mram 0x00700000 64) false (by have := optFail_role hgood; omega)
    generalize s.optTaken _ false = x at *
    have hpstate : x.pstate = s.pstate := hkeeps.get PAR_STATUS_PSTATE (by decide)
    have hpassive : x.passive = true := by
      have hpaired : (x.role != 0) = true := by
        rw [State.role, hrole']
        simpa using Nat.ne_of_gt hrole
      rw [State.passive, hpaired, hpstate]
      simp [hactive, hyielding]
    have hruns' : x.islandRuns 2 = true := (State.islandRuns_congr _ _ _ (hkeeps _ (by decide))).trans hruns
    have hreset : x.optPassive = x.printReset := if_pos ⟨hpassive, hruns'⟩
    rw [hreset] at heff
    have hkept := (Acts.printReset x).get PAR_CFG_ROLE (not_passiveWrites (.inr (by decide)) (.inr (by decide)) (by decide) (by decide))
    have hshown := x.printReset_rstate
    generalize x.printReset = t at *
    exact ⟨_, congrArg finish heff, hkept.trans hrole', hshown⟩
  case bad =>
    intro s f hbad
    obtain ⟨hshown, hblock, hauth, hrole, hlock, hsrc, hposts, hhidden, hkeeps⟩ := s.optRefuted_shows f
    have heff : s.optLoad [] = s.optRefuted f := (State.optLoad_bad hbad).trans (State.optPassive_alone hrole)
    generalize s.optRefuted f = t at *
    exact ⟨_, congrArg finish heff, hshown, hblock, hauth, hrole, hlock, hsrc, hposts.trackIrq, hhidden, hkeeps⟩
  case noKey =>
    intro s req v hreq hrun hkey
    have heff := State.reqWrite_island (s := s) (fun s => s.optCmd v.toNat) (a := NVM_OPT_CMD) (by decide) hreq hrun
    exact ⟨_, congrArg finish (heff.trans (if_pos hkey)), Silent.refl s⟩
  case refused =>
    intro s req v b why hreq hrun hkey hb hwhy hbad
    have heff := State.reqWrite_island (s := s) (fun s => s.optCmd v.toNat) (a := NVM_OPT_CMD) (by decide) hreq hrun
    have hcmd := heff.trans (State.optCmd_refused hkey hb hwhy hbad)
    obtain ⟨hposts, hhidden, hkeeps⟩ := (ParOnly.refl s).reported (Keeps.refl s []) (by decide) Ev.OPT_REFUSED [why] NVM_IRQ_CAUSE_OPT_REFUSED (by decide)
    generalize s.report Ev.OPT_REFUSED 0xFFFF [why] NVM_IRQ_CAUSE_OPT_REFUSED = t at *
    exact ⟨_, congrArg finish hcmd, hposts.trackIrq, hhidden, hkeeps⟩
  case written =>
    intro s req v b hreq hrun hkey hb hlock hcrc hwindow
    have heff := State.reqWrite_island (s := s) (fun s => s.optCmd v.toNat) (a := NVM_OPT_CMD) (by decide) hreq hrun
    have hcmd := heff.trans (State.optCmd_written hkey hb hlock hcrc hwindow)
    obtain ⟨hposts, hhidden, hkeeps⟩ := s.withBlock_shows b Ev.OPT_WRITTEN [leNat (b.drop 60)] NVM_IRQ_CAUSE_OPT_WRITTEN (by decide)
    have hblock : (s.withBlock b).hidden = { s with mram := Mem.writes s.mram 0x00700000 b }.hidden := rfl
    generalize s.withBlock b = x at *
    generalize State.report _ Ev.OPT_WRITTEN 0xFFFF _ NVM_IRQ_CAUSE_OPT_WRITTEN = t at *
    exact ⟨_, congrArg finish hcmd, hposts.trackIrq, hhidden.trans hblock, hkeeps⟩
  case data =>
    intro s req v hreq hrun
    have heff := State.reqWrite_island (s := s) (fun s => s.bootData v.toNat) (a := RST_BOOT_DATA) (by decide) hreq hrun
    obtain ⟨haddr, honly, hkeeps, hrst⟩ := s.bootData_shows v.toNat
    generalize s.bootData v.toNat = t at *
    exact ⟨_, congrArg finish heff, haddr, by rw [← hrst]; exact Alters.of_rstOnly honly hkeeps⟩
  case go =>
    intro s req hreq hrun
    have heff := State.reqWrite_island (s := s) (fun s => s.bootGo) (a := RST_BOOT_CTRL) (by decide) hreq hrun
    exact nextPutB (congrArg finish heff) rfl
  case starts =>
    intro s entry hrun hsrc hdone
    have heff := State.bootEnd_starts (entry := entry.toNat) hrun hsrc hdone
    have hon : (s.bootStart entry.toNat).on RST_BOOT_CTRL_DONE = true := State.on_putB_same s _ _ rfl
    have honly : RstOnly s (s.bootStart entry.toNat) := ((RstOnly.refl s).putB _ _).setRst _
    have hkeeps : Keeps s (s.bootStart entry.toNat) [RST_BOOT_CTRL] := ((Keeps.refl s _).putB _ _ (by decide)).setRst _
    have hrst : (s.bootStart entry.toNat).rst = { s.rst with entry := entry.toNat } := rfl
    generalize s.bootStart entry.toNat = t at *
    exact ⟨_, congrArg finish heff, hon, by rw [← hrst]; exact Alters.of_rstOnly honly hkeeps⟩
  case fails =>
    intro s entry f hrun hsrc hdone hf hlock
    have hf' : f.val = 3 ∨ f.val = 4 := hf.imp (congrArg Fin.val) (congrArg Fin.val)
    have heff := State.bootEnd_fails (entry := entry.toNat) hrun hsrc hdone hf' hlock
    have hkeeps : Keeps s (s.putB RST_BOOT_CTRL_SIG_FAIL true) [RST_BOOT_CTRL] := (Keeps.refl s _).putB _ _ (by decide)
    have honly : ParOnly s (s.putB RST_BOOT_CTRL_SIG_FAIL true) := (ParOnly.refl s).putB _ _
    have hsig : (s.putB RST_BOOT_CTRL_SIG_FAIL true).on RST_BOOT_CTRL_SIG_FAIL = true := State.on_putB_same _ _ _ rfl
    have hdone' : (s.putB RST_BOOT_CTRL_SIG_FAIL true).on RST_BOOT_CTRL_DONE = false := (State.on_putB_apart _ _ _ _ rfl (.inr (by decide))).trans hdone
    generalize s.putB RST_BOOT_CTRL_SIG_FAIL true = x at *
    obtain ⟨hposts, -, -⟩ := honly.reported hkeeps (by decide) Ev.BOOT_FAIL [f] RST_IRQ_CAUSE_BOOT_FAIL (by decide)
    have hreport (k : Fld) (hk : k.off = RST_BOOT_CTRL) : (x.report Ev.BOOT_FAIL 0xFFFF [f] RST_IRQ_CAUSE_BOOT_FAIL).on k = x.on k :=
      State.on_eq_of_get _ _ _ (State.get_report _ _ _ _ rfl (by rw [hk]; decide) (by rw [hk]; decide))
    generalize x.report Ev.BOOT_FAIL 0xFFFF [f] RST_IRQ_CAUSE_BOOT_FAIL = y at *
    have hlog := Keeps.logEvent y Ev.BOOT_FAIL [f]
    have hacts := Acts.logEvent y Ev.BOOT_FAIL [f]
    generalize y.logEvent Ev.BOOT_FAIL [f] = t at *
    exact ⟨_, congrArg finish heff, (hlog.on _ (by decide)).trans ((hreport _ rfl).trans hdone'), (hlog.on _ (by decide)).trans ((hreport _ rfl).trans hsig),
      (hposts.extends hacts.toExtends).trackIrq⟩

end Sys2Proof.Machine

namespace Sys2Proof.Machine

/-! ### What a thermal event writes (R515 to R520) -/

/-- The registers outside those of the sensors, the levels and the status. -/
def levelWrites (a : Nat) : Prop := a < 0x20000 ∨ 0x20600 ≤ a

/-- Those without RST_ISLAND of the host's island, which only a release writes. -/
def shutWrites (a : Nat) : Prop := levelWrites a ∧ a ≠ RST_ISLAND 1

section Release
variable {s x : State} {k n : Nat}

/-- The end of a reset, or the release of an island, or the wait of one: what a release is made of. -/
theorem State.release_induct {P : State → State → Prop} (hrefl : ∀ y, P y y) (htrans : ∀ {y z w}, P y z → P z w → P y w)
    (hdone : ∀ y, P y y.resetDone) (hrelease : ∀ y k, k < 17 → P y (y.releaseIsland k)) (hwait : ∀ y k, k < 17 → P y (y.setIsland k 2)) (s : State) (n : Nat) :
    P s (s.release n) := by
  induction n generalizing s with
  | zero => exact hrefl s
  | succ n ih =>
    by_cases hasserted : s.rst.asserted = []
    · cases hlist : s.releaseList with
      | nil =>
        rw [State.release_end hasserted hlist]
        split
        · exact hrefl s
        · exact hdone s
      | cons k l =>
        have hlt : k < 17 := releaseList_lt (s := s) (hlist ▸ List.mem_cons_self)
        by_cases hpass : s.passes k
        · rw [State.release_step hasserted hlist hpass]
          exact htrans (hrelease s k hlt) (ih _)
        · rw [State.release_waits hasserted hlist hpass]
          exact hwait s k hlt
    · rw [State.release_asserted hasserted]
      exact hrefl s

theorem levelWrites_island (h : k < 17) : levelWrites (RST_ISLAND k) := by
  unfold levelWrites RST_ISLAND
  omega

theorem shutWrites_island (h : k < 17) (h1 : k ≠ 1) : shutWrites (RST_ISLAND k) := ⟨levelWrites_island h, rstIsland_ne h1⟩

theorem doneWrites_shut {a : Nat} (h : doneWrites a) : shutWrites a := by
  have hevt : ∀ a ∈ evtRegs, shutWrites a := by unfold shutWrites levelWrites; decide
  have hlog : ∀ a ∈ logRegs, shutWrites a := by unfold shutWrites levelWrites; decide
  rcases h with h | rfl | h | rfl | rfl
  · exact hevt a h
  · unfold shutWrites levelWrites; decide
  · exact hlog a h
  · unfold shutWrites levelWrites; decide
  · unfold shutWrites levelWrites; decide

theorem shutWrites_evt : ∀ a ∈ evtRegs, shutWrites a := fun _ h => doneWrites_shut (.inl h)

theorem Acts.setIsland {W : Nat → Prop} (h : Acts W s x) (k rs : Nat) (hw : W (RST_ISLAND k)) : Acts W s (x.setIsland k rs) :=
  (h.put (RST_ISLAND_RSTATE k) rs hw).putB (RST_ISLAND_FENCED k) _ hw

/-- A change that leaves the temperature record and writes only what `W` holds of. -/
structure LeavesThm (W : Nat → Prop) (s x : State) : Prop extends Acts W s x where
  thm : x.thm = s.thm

theorem LeavesThm.refl {W : Nat → Prop} (s : State) : LeavesThm W s s := ⟨Acts.refl s, rfl⟩
theorem LeavesThm.trans {W : Nat → Prop} {y : State} (h : LeavesThm W s x) (h' : LeavesThm W x y) : LeavesThm W s y :=
  ⟨h.toActs.trans h'.toActs, h'.thm.trans h.thm⟩
theorem LeavesThm.mono {W V : Nat → Prop} (h : LeavesThm W s x) (hWV : ∀ a, W a → V a) : LeavesThm V s x := ⟨h.toActs.mono hWV, h.thm⟩
theorem LeavesThm.put {W : Nat → Prop} (h : LeavesThm W s x) (f : Fld) (v : Nat) (hf : W f.off) : LeavesThm W s (x.put f v) :=
  ⟨h.toActs.put f v hf, (State.put_thm x f v).trans h.thm⟩
theorem LeavesThm.putB {W : Nat → Prop} (h : LeavesThm W s x) (f : Fld) (b : Bool) (hf : W f.off) : LeavesThm W s (x.putB f b) := h.put f _ hf
theorem LeavesThm.of_hidden {W : Nat → Prop} (hacts : Acts W s x) (h : x.hidden = s.hidden) : LeavesThm W s x :=
  ⟨hacts, State.hidden_congr s x h fun y => y.thm⟩
theorem LeavesThm.report {W : Nat → Prop} (h : LeavesThm W s x) (c u : Nat) (p : List Nat) (f : Fld) (hevt : ∀ a ∈ evtRegs, W a) (hf : W f.off) :
    LeavesThm W s (x.report c u p f) :=
  h.trans (LeavesThm.of_hidden ((Acts.refl x).report c u p f hevt hf) (x.hidden_report c u p f))

theorem LeavesThm.release (s : State) (n : Nat) : LeavesThm levelWrites s (s.release n) := by
  have hset (y : State) (k rs : Nat) (hk : k < 17) : LeavesThm levelWrites y (y.setIsland k rs) :=
    ((LeavesThm.refl y).put _ _ (levelWrites_island hk)).putB _ _ (levelWrites_island hk)
  refine State.release_induct (P := LeavesThm levelWrites) LeavesThm.refl LeavesThm.trans (fun y => ?_) (fun y k hk => ?_) (fun y k hk => hset y k 2 hk) s n
  · obtain ⟨hacts, -, -, hthm⟩ := y.resetDone_shows
    exact ⟨hacts.mono fun a h => (doneWrites_shut h).1, hthm⟩
  · have hrst : LeavesThm levelWrites y (y.setRst { y.rst with todo := y.rst.todo.filter (fun x => x != k) }) := ⟨Acts.of_records rfl rfl, rfl⟩
    exact hrst.trans (hset _ k _ hk)

theorem LeavesThm.deassertSource (s : State) (src : Nat) : LeavesThm levelWrites s (s.deassertSource src) := by
  have hrst : LeavesThm levelWrites s (s.setRst { s.rst with asserted := s.rst.asserted.filter (fun x => x != src) }) := ⟨Acts.of_records rfl rfl, rfl⟩
  exact hrst.trans (LeavesThm.release _ 18)

end Release

/-! ### Source 8 (R497, R518) -/

section Source
variable {s x : State} {k : Nat}

theorem State.scopeOf_thermal (s : State) : s.scopeOf 8 0 = (List.range 17).drop 2 := rfl

theorem noteWrites_shut {a : Nat} (h : noteWrites 8 a) : shutWrites a := by
  have hforce : ∀ a ∈ forceRegs, shutWrites a := by unfold shutWrites levelWrites; decide
  have hhost : hostWrites a → shutWrites a := fun h => by
    unfold hostWrites at h
    unfold shutWrites levelWrites RST_ISLAND
    omega
  rcases h with rfl | rfl | h | h
  · unfold shutWrites levelWrites; decide
  · unfold shutWrites levelWrites; decide
  · exact hforce a h
  · exact hhost h

theorem islandOf_thm {a : Nat} (h : 0x20000 ≤ a) (h' : a < 0x30000) : islandOf a = 0 := by
  have hblock : a / 65536 = 2 := by omega
  simp [islandOf, blockOf, hblock]

theorem resetWrites_shut {a : Nat} (hk : k < 17) (h2 : 2 ≤ k) (h : resetWrites k a) : shutWrites a := by
  have hweb : shutWrites MOT_WEB_STATUS := by unfold shutWrites levelWrites; decide
  have hpar : shutWrites PAR_STATUS := by unfold shutWrites levelWrites; decide
  rcases h with (⟨hisland, -⟩ | ⟨h1, -⟩ | ⟨-, rfl⟩ | ⟨-, rfl⟩) | rfl
  · refine ⟨?_, fun e => ?_⟩
    · by_contra hnot
      simp only [levelWrites, not_or, not_lt, not_le] at hnot
      have := islandOf_thm (a := a) (by omega) (by omega)
      omega
    · have hzero : islandOf (RST_ISLAND 1) = 0 := by decide
      rw [e, hzero] at hisland
      omega
  · omega
  · exact hweb
  · exact hpar
  · exact shutWrites_island hk (by omega)

theorem LeavesThm.resetIsland (s : State) (hk : k < 17) (h2 : 2 ≤ k) : LeavesThm shutWrites s (s.resetIsland false k) :=
  ⟨Acts.of_hif (s.hif_resetIsland (by omega)) fun _ ha => s.rget_resetIsland fun h => ha (resetWrites_shut hk h2 h), s.thm_resetIsland (by omega)⟩

theorem State.sourceNoted_thm (s : State) (src arg : Nat) : (s.sourceNoted src arg).thm = s.thm := by
  have hnoted : (s.noteSource src).thm = s.thm := rfl
  have hforced (y : State) : y.forceOutputs.thm = y.thm := by
    have h : WebOnly (y.putB PAR_STATUS_AUTH false) y.forceOutputs := ((WebOnly.refl _).withWeb _).refreshWebStop
    exact h.thm.trans (State.putB_thm ..)
  have hside (y : State) : (y.hidden.withFaults []).thm = y.thm := rfl
  have habort (y : State) : y.jobRingsAbort.thm = y.thm := (hside _).symm.trans ((congrArg State.thm y.jobRingsAbort_hidden).trans (hside y))
  unfold State.sourceNoted
  dsimp only
  split_ifs
  · rw [habort, hforced, hnoted]
  · rw [habort, hnoted]
  · rw [hforced, hnoted]
  · exact hnoted

theorem LeavesThm.assertThermal (s : State) : LeavesThm shutWrites s (s.assertSource 8 0) := by
  have hscope : ∀ k ∈ (List.range 17).drop 2, k < 17 ∧ 2 ≤ k := by decide
  have hnoted : LeavesThm shutWrites s (s.sourceNoted 8 0) := ⟨(Acts.sourceNoted s 8 0).mono fun _ h => noteWrites_shut h, s.sourceNoted_thm 8 0⟩
  have hreset : LeavesThm shutWrites (s.sourceNoted 8 0) (s.scopeReset 8 0) :=
    List.foldlRecOn (motive := LeavesThm shutWrites (s.sourceNoted 8 0)) _ _ (LeavesThm.refl _) fun y hy k hk =>
      hy.trans (LeavesThm.resetIsland y (hscope k hk).1 (hscope k hk).2)
  rw [State.assertSource_eq]
  exact (hnoted.trans hreset).trans ⟨Acts.of_records rfl rfl, rfl⟩

theorem LeavesThm.refreshWebStop (s : State) : LeavesThm shutWrites s s.refreshWebStop := by
  have hweb : WebOnly s s.refreshWebStop := (WebOnly.refl s).refreshWebStop
  have hkeeps : Keeps s s.refreshWebStop [MOT_WEB_STATUS, MOT_WEB_RATE] := Keeps.refreshWebStop (Keeps.refl s _) (by decide) (by decide)
  refine ⟨Acts.of_hif hweb.hif fun a ha => hkeeps a fun hm => ha (doneWrites_shut ?_), hweb.thm⟩
  rw [List.mem_cons, List.mem_singleton] at hm
  exact .inr (.inr (.inr hm))

theorem LeavesThm.logEvent (s : State) (c : Nat) (p : List Nat) : LeavesThm shutWrites s (s.logEvent c p) :=
  ⟨(Acts.logEvent s c p).mono fun _ h => doneWrites_shut h, (LogOnly.logEvent s c p).thm⟩

end Source

/-! ### Steps beside the reset record (R515 to R520) -/

/-- Only what `W` holds of is written, the reset's record stays, and the temperature record becomes `r`. -/
structure Quiet (W : Nat → Prop) (r : Thm) (s x : State) : Prop extends Acts W s x where
  view : x.resetView = s.resetView
  thm : x.thm = r

/-- The registers that a level, or the write window, shows and reports itself in. -/
def quietRegs : List Nat := [THM_STATUS, THM_IRQ_CAUSE, LDG_STATUS, LDG_PENDING_COUNT, LDG_IRQ_CAUSE] ++ logRegs ++ evtRegs

def quietWrites (a : Nat) : Prop := a ∈ quietRegs

section Quiet
variable {W V : Nat → Prop} {r r' : Thm} {s x y : State}

theorem quietWrites_evt : ∀ a ∈ evtRegs, quietWrites a := fun _ h => List.mem_append_right _ h
theorem quietWrites_log : ∀ a ∈ logRegs, quietWrites a := fun _ h => List.mem_append_left _ (List.mem_append_right _ h)

theorem Quiet.refl (s : State) : Quiet W s.thm s s := ⟨Acts.refl s, rfl, rfl⟩
theorem Quiet.trans (h : Quiet W r s x) (h' : Quiet W r' x y) : Quiet W r' s y := ⟨h.toActs.trans h'.toActs, h'.view.trans h.view, h'.thm⟩
theorem Quiet.mono (h : Quiet W r s x) (hWV : ∀ a, W a → V a) : Quiet V r s x := ⟨h.toActs.mono hWV, h.view, h.thm⟩
theorem Quiet.put (h : Quiet W r s x) (f : Fld) (v : Nat) (hf : W f.off) : Quiet W r s (x.put f v) :=
  ⟨h.toActs.put f v hf, h.view, (State.put_thm x f v).trans h.thm⟩
theorem Quiet.putB (h : Quiet W r s x) (f : Fld) (b : Bool) (hf : W f.off) : Quiet W r s (x.putB f b) := h.put f _ hf
theorem Quiet.putS (h : Quiet W r s x) (f : Fld) (v : Int) (hf : W f.off) : Quiet W r s (x.putS f v) := h.put f _ hf
theorem Quiet.setThm (h : Quiet W r s x) (r' : Thm) : Quiet W r' s (x.setThm r') := ⟨h.toActs.trans (Acts.of_records rfl rfl), h.view, rfl⟩
theorem Quiet.of_hidden (hacts : Acts W s x) (h : x.hidden = s.hidden) : Quiet W s.thm s x :=
  ⟨hacts, State.hidden_congr s x h State.resetView, State.hidden_congr s x h fun y => y.thm⟩
theorem Quiet.event (h : Quiet W r s x) (c u : Nat) (p : List Nat) (hevt : ∀ a ∈ evtRegs, W a) : Quiet W r s (x.event c u p) :=
  h.thm ▸ h.trans (Quiet.of_hidden ((Acts.refl x).event c u p hevt) (State.event_hidden ..))
theorem Quiet.report (h : Quiet W r s x) (c u : Nat) (p : List Nat) (f : Fld) (hevt : ∀ a ∈ evtRegs, W a) (hf : W f.off) :
    Quiet W r s (x.report c u p f) :=
  h.thm ▸ h.trans (Quiet.of_hidden ((Acts.refl x).report c u p f hevt hf) (x.hidden_report c u p f))

theorem Quiet.flushLog (s : State) : Quiet quietWrites s.thm s s.flushLog :=
  ⟨Acts.of_hif (LogOnly.flushLog s).hif fun a ha => Keeps.flushLog s a fun hm => ha (quietWrites_log a hm), (LogOnly.flushLog s).view,
    (LogOnly.flushLog s).thm⟩

theorem Quiet.showHeld (s : State) : Quiet quietWrites s.thm s s.showHeld := by
  unfold State.showHeld
  have hregs : quietWrites LDG_STATUS ∧ quietWrites LDG_PENDING_COUNT ∧ quietWrites LDG_IRQ_CAUSE := by
    unfold quietWrites
    decide
  obtain ⟨hstatus, hcount, hcause⟩ := hregs
  have hshown : Quiet quietWrites s.thm s ((s.putB LDG_STATUS_PENDING true).put LDG_PENDING_COUNT_WORDS s.ldg.dirty.length) :=
    ((Quiet.refl s).putB _ _ hstatus).put _ _ hcount
  split
  · exact Quiet.refl s
  · dsimp only
    generalize (s.putB LDG_STATUS_PENDING true).put LDG_PENDING_COUNT_WORDS s.ldg.dirty.length = y at *
    split
    · exact hshown
    · have hset : Quiet quietWrites y.thm y (y.setLdg { y.ldg with writeHeld := true }) := ⟨Acts.of_records rfl rfl, rfl, rfl⟩
      exact hshown.thm ▸ (hshown.trans hset).report _ _ _ _ quietWrites_evt hcause

/-- The write window opens or closes: what shows it, before the held writes. -/
def State.windowShown (s : State) (b : Bool) (t : Int) : State :=
  (((s.putB THM_STATUS_IN_WINDOW b).putB LDG_STATUS_IN_WINDOW b).putB NVM_STATUS_IN_WINDOW b).report Ev.MRAM_WINDOW 0xFFFF [b2n b, twos 16 t]
    THM_IRQ_CAUSE_WINDOW

theorem State.setWindow_eq (s : State) (b : Bool) (t : Int) : s.setWindow b t = (s.windowShown b t).flushLog.showHeld := rfl

theorem Quiet.windowShown (s : State) (b : Bool) (t : Int) : Quiet quietWrites s.thm s (s.windowShown b t) := by
  have hregs : quietWrites THM_STATUS ∧ quietWrites LDG_STATUS ∧ quietWrites NVM_STATUS ∧ quietWrites THM_IRQ_CAUSE := by
    unfold quietWrites
    decide
  obtain ⟨hthm, hldg, hnvm, hcause⟩ := hregs
  exact ((((Quiet.refl s).putB THM_STATUS_IN_WINDOW b hthm).putB LDG_STATUS_IN_WINDOW b hldg).putB NVM_STATUS_IN_WINDOW b hnvm).report _ _ _ _
    quietWrites_evt hcause

theorem Quiet.setWindow (s : State) (b : Bool) (t : Int) : Quiet quietWrites s.thm s (s.setWindow b t) := by
  have hshown := Quiet.windowShown s b t
  rw [State.setWindow_eq]
  generalize s.windowShown b t = x at *
  have hflush := Quiet.flushLog x
  generalize x.flushLog = y at *
  have hthm := hflush.thm.trans hshown.thm
  exact hthm ▸ (hshown.trans hflush).trans (Quiet.showHeld y)

theorem Quiet.evalWindow (s : State) (t : Int) : Quiet quietWrites s.thm s (s.evalWindow t) := by
  unfold State.evalWindow
  dsimp only
  split_ifs
  · exact Quiet.setWindow s true t
  · exact Quiet.setWindow s false t
  · exact Quiet.refl s

/-- The write window does not change the temperature shown. -/
theorem State.evalWindow_temp (s : State) (t : Int) : (s.evalWindow t).getS THM_STATUS_T_DIE = s.getS THM_STATUS_T_DIE := by
  have hset (b : Bool) : (s.setWindow b t).get THM_STATUS_T_DIE = s.get THM_STATUS_T_DIE := by
    have hshown : (s.windowShown b t).get THM_STATUS_T_DIE = s.get THM_STATUS_T_DIE := by
      unfold State.windowShown
      rw [State.get_report _ _ _ _ rfl (by decide) (by decide), State.get_putB_apart _ _ _ _ rfl (by decide), State.get_putB_apart _ _ _ _ rfl (by decide),
        State.get_putB_apart _ _ _ _ rfl (by decide)]
    rw [State.setWindow_eq, ← hshown]
    generalize s.windowShown b t = x
    have hnot : ¬ledgerWrites THM_STATUS := by unfold ledgerWrites; decide
    have hheld : x.flushLog.showHeld.get THM_STATUS_T_DIE = x.flushLog.get THM_STATUS_T_DIE :=
      State.get_eq_of_rget _ _ _ ((Extends.refl x.flushLog).showHeld.rget _ hnot)
    rw [hheld]
    exact (Keeps.flushLog x).get _ (by decide)
  unfold State.evalWindow
  dsimp only
  split_ifs
  · exact congrArg (sgn 16) (hset true)
  · exact congrArg (sgn 16) (hset false)
  · rfl

end Quiet

end Sys2Proof.Machine

namespace Sys2Proof.Machine

/-! ### The levels, step by step (R515 to R519) -/

section Levels
variable {s x : State} {i : Nat} {w h t lvl : Int}

/-- A level with its hysteresis: it is entered at the level, and left below the level less the hysteresis. -/
def latched (b : Bool) (lvl h t : Int) : Bool := if b = true then !decide (t < lvl - h) else decide (lvl ≤ t)

theorem latched_above (b : Bool) (hh : 0 ≤ h) (ht : lvl ≤ t) : latched b lvl h t = true := by
  cases b with
  | true =>
    have hnot : ¬t < lvl - h := by omega
    simp [latched, hnot]
  | false => simp [latched, ht]

theorem latched_stays (ht : lvl - h ≤ t) : latched true lvl h t = true := by
  have hnot : ¬t < lvl - h := by omega
  simp [latched, hnot]

/-- T_die is shown. -/
def State.levelShown (s : State) (t : Int) : State :=
  ((s.setThm { s.thm with lost := false }).putB THM_STATUS_SENSORS_LOST false).putS THM_STATUS_T_DIE t

/-- The WARN level. -/
def State.warnStep (s : State) (lvl h t : Int) (i : Nat) : State :=
  if !s.thm.warn ∧ lvl ≤ t then (s.setThm { s.thm with warn := true }).report Ev.THM_WARN 0xFFFF [twos 16 t, i] THM_IRQ_CAUSE_WARN
  else if s.thm.warn ∧ t < lvl - h then s.setThm { s.thm with warn := false } else s

/-- The THROTTLE level. -/
def State.throtStep (s : State) (lvl h t : Int) : State :=
  if !s.thm.throt ∧ lvl ≤ t then
    (s.setThm { s.thm with throt := true }).report Ev.THM_THROTTLE 0xFFFF [1, 1, twos 16 t] THM_IRQ_CAUSE_THROTTLE
  else if s.thm.throt ∧ t < lvl - h then
    (s.setThm { s.thm with throt := false }).report Ev.THM_THROTTLE 0xFFFF [0, 0, twos 16 t] THM_IRQ_CAUSE_THROTTLE
  else s

/-- The SHUT level. -/
def State.shutStep (s : State) (lvl t : Int) (i : Nat) : State := if !s.thm.shut ∧ lvl ≤ t then s.thermShut t i else s

/-- The hold of a shutdown before power-on ends. -/
def State.latchStep (s : State) (lvl h t : Int) : State :=
  if s.thm.latchHold ∧ t < lvl - h then (s.setThm { s.thm with latchHold := false }).deassertSource 8 else s

/-- The first two levels. -/
def State.twoLevels (s : State) (t : Int) (i : Nat) : State :=
  ((s.levelShown t).warnStep s.thrWarn s.thrHyst t i).throtStep s.thrThrottle s.thrHyst t

theorem State.evalLevels_some (ht : s.tDie = some t) : s.evalLevels i =
    (((((s.twoLevels t i).shutStep s.thrShut t i).latchStep s.thrShut s.thrHyst t).evalWindow t).showLevel) := by
  simp only [State.evalLevels, ht]
  rfl

/-- No sensor is valid. -/
def State.sensorsLost (s : State) : State :=
  ((s.setThm { s.thm with lost := true }).putB THM_STATUS_SENSORS_LOST true).report Ev.SENSORS_LOST 0xFFFF [] THM_IRQ_CAUSE_LOST

theorem State.evalLevels_none (ht : s.tDie = none) : s.evalLevels i = if s.thm.lost = true then s else s.sensorsLost := by
  simp only [State.evalLevels, ht]
  rfl

theorem quietWrites_thm : quietWrites THM_STATUS ∧ quietWrites THM_IRQ_CAUSE := by
  unfold quietWrites
  decide

theorem Quiet.levelShown (s : State) (t : Int) : Quiet quietWrites { s.thm with lost := false } s (s.levelShown t) :=
  (((Quiet.refl s).setThm _).putB _ _ quietWrites_thm.1).putS _ _ quietWrites_thm.1

theorem Quiet.sensorsLost (s : State) : Quiet quietWrites { s.thm with lost := true } s s.sensorsLost :=
  (((Quiet.refl s).setThm _).putB _ _ quietWrites_thm.1).report _ _ _ _ quietWrites_evt quietWrites_thm.2

theorem Quiet.warnStep (s : State) (lvl h t : Int) (i : Nat) :
    Quiet quietWrites { s.thm with warn := latched s.thm.warn lvl h t } s (s.warnStep lvl h t i) := by
  have hset (b : Bool) := (Quiet.refl (W := quietWrites) s).setThm { s.thm with warn := b }
  unfold State.warnStep latched
  cases hwarn : s.thm.warn with
  | false =>
    by_cases ht : lvl ≤ t
    · simpa [ht] using (hset true).report _ _ _ _ quietWrites_evt quietWrites_thm.2
    · simpa [ht, show { s.thm with warn := false } = s.thm by rw [← hwarn]] using Quiet.refl s
  | true =>
    by_cases ht : t < lvl - h
    · simpa [ht] using hset false
    · simpa [ht, show { s.thm with warn := true } = s.thm by rw [← hwarn]] using Quiet.refl s

theorem Quiet.throtStep (s : State) (lvl h t : Int) :
    Quiet quietWrites { s.thm with throt := latched s.thm.throt lvl h t } s (s.throtStep lvl h t) := by
  have hset (b : Bool) := (Quiet.refl (W := quietWrites) s).setThm { s.thm with throt := b }
  unfold State.throtStep latched
  cases hthrot : s.thm.throt with
  | false =>
    by_cases ht : lvl ≤ t
    · simpa [ht] using (hset true).report _ _ _ _ quietWrites_evt quietWrites_thm.2
    · simpa [ht, show { s.thm with throt := false } = s.thm by rw [← hthrot]] using Quiet.refl s
  | true =>
    by_cases ht : t < lvl - h
    · simpa [ht] using (hset false).report _ _ _ _ quietWrites_evt quietWrites_thm.2
    · simpa [ht, show { s.thm with throt := true } = s.thm by rw [← hthrot]] using Quiet.refl s

/-- What the levels below SHUT make of the record. -/
def Thm.two (r : Thm) (warn throt h t : Int) : Thm :=
  { r with lost := false, warn := latched r.warn warn h t, throt := latched r.throt throt h t }

theorem Quiet.twoLevels (s : State) (t : Int) (i : Nat) :
    Quiet quietWrites (s.thm.two s.thrWarn s.thrThrottle s.thrHyst t) s (s.twoLevels t i) := by
  have htemp := Quiet.levelShown s t
  unfold State.twoLevels
  generalize s.levelShown t = x at *
  have hwarn := Quiet.warnStep x s.thrWarn s.thrHyst t i
  rw [htemp.thm] at hwarn
  generalize x.warnStep s.thrWarn s.thrHyst t i = y at *
  have hthrot := Quiet.throtStep y s.thrThrottle s.thrHyst t
  rw [hwarn.thm] at hthrot
  exact (htemp.trans hwarn).trans hthrot

theorem State.warnStep_posts (hwarn : s.thm.warn = false) (ht : lvl ≤ t) : PostsSome s (s.warnStep lvl h t i) Ev.THM_WARN 0xFFFF := by
  have heff : s.warnStep lvl h t i = (s.setThm { s.thm with warn := true }).report Ev.THM_WARN 0xFFFF [twos 16 t, i] THM_IRQ_CAUSE_WARN :=
    if_pos ⟨by simp [hwarn], ht⟩
  have hset : HostStays s (s.setThm { s.thm with warn := true }) := HostStays.of_records rfl rfl
  rw [heff]
  exact PostsSome.of_event _ hset.toGoesOn hset.island (by decide) (State.cause_hif ..)

theorem State.twoLevels_posts (hwarn : s.thm.warn = false) (ht : s.thrWarn ≤ t) : PostsSome s (s.twoLevels t i) Ev.THM_WARN 0xFFFF := by
  have hshown := Quiet.levelShown s t
  have hisland : quietWrites (RST_ISLAND 1) → False := by unfold quietWrites; decide
  unfold State.twoLevels
  generalize s.levelShown t = x at *
  have hkept : x.islandRuns 1 = s.islandRuns 1 := State.islandRuns_congr _ _ _ (hshown.rget _ hisland)
  have hwarn' : x.thm.warn = false := (congrArg Thm.warn hshown.thm).trans hwarn
  have hposts := State.warnStep_posts (h := s.thrHyst) (i := i) hwarn' ht
  generalize x.warnStep s.thrWarn s.thrHyst t i = y at *
  exact (hposts.acts (Quiet.throtStep y s.thrThrottle s.thrHyst t).toActs).later hshown.toGoesOn fun hrun => hkept.trans hrun

theorem State.temp_congr (h : x.get THM_STATUS_T_DIE = s.get THM_STATUS_T_DIE) : x.getS THM_STATUS_T_DIE = s.getS THM_STATUS_T_DIE :=
  congrArg (sgn 16) h

theorem State.temp_report (s : State) (c u : Nat) (p : List Nat) (f : Fld) (hok : f.ok = true) (hf : f.off ≠ THM_STATUS) :
    (s.report c u p f).getS THM_STATUS_T_DIE = s.getS THM_STATUS_T_DIE :=
  State.temp_congr (State.get_report _ _ _ _ hok hf (by decide))

theorem State.twoLevels_temp (s : State) (v : BitVec 16) (i : Nat) : (s.twoLevels v.toInt i).getS THM_STATUS_T_DIE = v.toInt := by
  have hwarn (y : State) : (y.warnStep s.thrWarn s.thrHyst v.toInt i).getS THM_STATUS_T_DIE = y.getS THM_STATUS_T_DIE := by
    unfold State.warnStep
    split_ifs
    · exact State.temp_report _ _ _ _ _ rfl (by decide)
    · rfl
    · rfl
  have hthrot (y : State) : (y.throtStep s.thrThrottle s.thrHyst v.toInt).getS THM_STATUS_T_DIE = y.getS THM_STATUS_T_DIE := by
    unfold State.throtStep
    split_ifs
    · exact State.temp_report _ _ _ _ _ rfl (by decide)
    · exact State.temp_report _ _ _ _ _ rfl (by decide)
    · rfl
  rw [State.twoLevels, hthrot, hwarn, State.levelShown]
  exact (State.getS_putS_same _ _ _ rfl).trans (sgn_twos_toInt v)

end Levels

/-! ### The shutdown (R518) -/

section Shutdown
variable {s x : State} {i : Nat} {h t lvl : Int}

/-- The latch sets, and the web is held. -/
def State.shutLatched (s : State) : State :=
  let s1 := (s.setThm { s.thm with shut := true }).putB RST_VBAT_CTRL_THERM_LATCH true
  { s1 with web := { s1.web with thermStop := true } }

/-- The islands of the shutdown are in reset, and the web is held. -/
def State.shutForced (s : State) : State := (s.shutLatched.assertSource 8 0).refreshWebStop

theorem State.thermShut_eq (s : State) (t : Int) (i : Nat) : s.thermShut t i =
    (s.shutForced.report Ev.THM_SHUTDOWN 0xFFFF [twos 16 t, i, s.time.line, s.now] THM_IRQ_CAUSE_SHUT).logEvent Ev.THM_SHUTDOWN
      [twos 16 t, i, s.time.line, s.now] := rfl

theorem LeavesThm.shutForced (s : State) : Acts shutWrites s s.shutForced ∧ s.shutForced.thm = { s.thm with shut := true } := by
  have hctrl : shutWrites RST_VBAT_CTRL := by unfold shutWrites levelWrites; decide
  have hset : Acts shutWrites s (s.setThm { s.thm with shut := true }) := Acts.of_records rfl rfl
  have hlatched : Acts shutWrites s s.shutLatched := (hset.putB RST_VBAT_CTRL_THERM_LATCH true hctrl).trans (Acts.of_records rfl rfl)
  have hthm : s.shutLatched.thm = { s.thm with shut := true } := rfl
  unfold State.shutForced
  generalize s.shutLatched = x at *
  have hforced := (LeavesThm.assertThermal x).trans (LeavesThm.refreshWebStop _)
  exact ⟨hlatched.trans hforced.toActs, hforced.thm.trans hthm⟩

/-- What holds while the shutdown stands. -/
structure ShutDown (x : State) : Prop where
  asserted : 8 ∈ x.rst.asserted
  auth : x.on PAR_STATUS_AUTH = false
  stop : x.web.thermStop = true
  islands : ∀ k : Fin 17, 2 ≤ k.val → x.islandRuns k = false

theorem State.shutForced_shows (s : State) : ShutDown s.shutForced := by
  have hall : ∀ k : Fin 17, 2 ≤ k.val → k.val ∈ (List.range 17).drop 2 := by decide
  have hthermStop : s.shutLatched.web.thermStop = true := rfl
  unfold State.shutForced
  generalize s.shutLatched = x at *
  have hruns (k : Fin 17) := x.assertSource_runs (src := 8) (arg := 0) (by decide) k
  obtain ⟨-, hasserted, -, -, hstop, -, hany⟩ := x.assertSource_shows (src := 8) (arg := 0) (by decide)
  rw [State.scopeOf_thermal] at hany hruns
  generalize x.assertSource 8 0 = y at *
  have hkeeps : Keeps y y.refreshWebStop [MOT_WEB_STATUS, MOT_WEB_RATE] := Keeps.refreshWebStop (Keeps.refl y _) (by decide) (by decide)
  have hview := y.refreshWebStop_view
  generalize y.refreshWebStop = z at *
  have hasserted' : z.rst.asserted = y.rst.asserted := congrArg ResetView.asserted hview
  have hstop' : z.web.thermStop = y.web.thermStop := congrArg ResetView.thermStop hview
  have hnot : ∀ k : Fin 17, RST_ISLAND k ∉ [MOT_WEB_STATUS, MOT_WEB_RATE] := by decide
  refine ⟨hasserted' ▸ hasserted, (hkeeps.on _ (by decide)).trans (hany (by decide)).1, hstop'.trans (hstop.trans hthermStop), fun k hk => ?_⟩
  rw [State.islandRuns_congr _ _ _ (hkeeps _ (hnot k)), hruns k, decide_eq_true (hall k hk)]
  rfl

/-- Steps that leave the islands, the authority and the reset's record leave the shutdown. -/
theorem ShutDown.kept {W : Nat → Prop} {r : Thm} (h : ShutDown s) (hq : Quiet W r s x) (hauth : ¬W PAR_STATUS) (hisland : ∀ k : Fin 17, ¬W (RST_ISLAND k)) :
    ShutDown x := by
  have hasserted : x.rst.asserted = s.rst.asserted := congrArg ResetView.asserted hq.view
  have hstop : x.web.thermStop = s.web.thermStop := congrArg ResetView.thermStop hq.view
  exact ⟨hasserted ▸ h.asserted, (State.on_eq_of_get _ _ _ (hq.get PAR_STATUS_AUTH hauth)).trans h.auth, hstop.trans h.stop,
    fun k hk => (State.islandRuns_congr _ _ _ (hq.rget _ (hisland k))).trans (h.islands k hk)⟩

theorem State.thermShut_shows (s : State) (t : Int) (i : Nat) :
    let x := s.thermShut t i
    Acts shutWrites s x ∧ x.thm = { s.thm with shut := true } ∧ ShutDown x ∧ PostsSome s x Ev.THM_SHUTDOWN 0xFFFF := by
  obtain ⟨hacts, hthm⟩ := LeavesThm.shutForced s
  have hdown := s.shutForced_shows
  rw [State.thermShut_eq]
  generalize s.shutForced = y at *
  generalize [twos 16 t, i, s.time.line, s.now] = p at *
  have hreported : Quiet quietWrites y.thm y (y.report Ev.THM_SHUTDOWN 0xFFFF p THM_IRQ_CAUSE_SHUT) :=
    (Quiet.refl y).report _ _ _ _ quietWrites_evt quietWrites_thm.2
  have hposts : PostsSome s (y.report Ev.THM_SHUTDOWN 0xFFFF p THM_IRQ_CAUSE_SHUT) Ev.THM_SHUTDOWN 0xFFFF :=
    PostsSome.of_event p hacts.toGoesOn (hacts.rget _ fun h => h.2 rfl) (by decide) (State.cause_hif ..)
  have hcause : shutWrites THM_IRQ_CAUSE := by unfold shutWrites levelWrites; decide
  have hreport : Acts shutWrites y (y.report Ev.THM_SHUTDOWN 0xFFFF p THM_IRQ_CAUSE_SHUT) := (Acts.refl y).report _ _ _ _ shutWrites_evt hcause
  generalize y.report Ev.THM_SHUTDOWN 0xFFFF p THM_IRQ_CAUSE_SHUT = z at *
  have hlogged : Quiet quietWrites z.thm z (z.logEvent Ev.THM_SHUTDOWN p) :=
    ⟨Acts.of_hif (LogOnly.logEvent z _ p).hif fun a ha => Keeps.logEvent z _ p a fun hm => ha (quietWrites_log a hm), (LogOnly.logEvent z _ p).view,
      (LogOnly.logEvent z _ p).thm⟩
  have hauth : ¬quietWrites PAR_STATUS := by unfold quietWrites; decide
  have hisland : ∀ k : Fin 17, ¬quietWrites (RST_ISLAND k) := by unfold quietWrites; decide
  exact ⟨(hacts.trans hreport).trans (LeavesThm.logEvent z _ p).toActs, hlogged.thm.trans (hreported.thm.trans hthm),
    (hdown.kept hreported hauth hisland).kept hlogged hauth hisland, hposts.acts hlogged.toActs⟩

end Shutdown

/-! ### The evaluation of the levels, as a whole -/

section Evaluation
variable {s x : State} {i : Nat} {h t lvl : Int}

/-- The registers that an evaluation of the levels writes, and those that one without a release writes. -/
def tempWrites (a : Nat) : Prop := levelWrites a ∨ a = THM_STATUS
def heldWrites (a : Nat) : Prop := shutWrites a ∨ a = THM_STATUS

theorem shutWrites_held {a : Nat} (h : shutWrites a) : heldWrites a := .inl h
theorem levelWrites_temp {a : Nat} (h : levelWrites a) : tempWrites a := .inl h
theorem heldWrites_temp {a : Nat} (h : heldWrites a) : tempWrites a := h.imp_left And.left

theorem quietWrites_held {a : Nat} (h : quietWrites a) : heldWrites a := by
  have hall : ∀ a ∈ quietRegs, heldWrites a := by unfold heldWrites shutWrites levelWrites; decide
  exact hall a h

/-- SHUT and the hold of the latch. -/
def Thm.evaluated (r : Thm) (warn throt shut h t : Int) : Thm :=
  { r.two warn throt h t with shut := r.shut || decide (shut ≤ t), latchHold := r.latchHold && !decide (t < shut - h) }

theorem State.shutStep_acts (s : State) (lvl t : Int) (i : Nat) :
    Acts shutWrites s (s.shutStep lvl t i) ∧ (s.shutStep lvl t i).thm = { s.thm with shut := s.thm.shut || decide (lvl ≤ t) } := by
  unfold State.shutStep
  by_cases hshut : (!s.thm.shut) = true ∧ lvl ≤ t
  · obtain ⟨hacts, hthm, -⟩ := s.thermShut_shows t i
    rw [if_pos hshut]
    exact ⟨hacts, by rw [hthm]; simp [hshut.2]⟩
  · rw [if_neg hshut]
    refine ⟨Acts.refl s, ?_⟩
    cases hs : s.thm.shut with
    | true =>
      rw [Bool.true_or, ← hs]
    | false =>
      have hlvl : ¬lvl ≤ t := fun ht => hshut ⟨by simp [hs], ht⟩
      simp [hlvl, ← hs]

theorem State.latchStep_acts (s : State) (lvl h t : Int) : Acts levelWrites s (s.latchStep lvl h t) ∧
    (s.latchStep lvl h t).thm = { s.thm with latchHold := s.thm.latchHold && !decide (t < lvl - h) } := by
  unfold State.latchStep
  by_cases hheld : s.thm.latchHold = true ∧ t < lvl - h
  · have hset : Acts levelWrites s (s.setThm { s.thm with latchHold := false }) := Acts.of_records rfl rfl
    have hdeassert := LeavesThm.deassertSource (s.setThm { s.thm with latchHold := false }) 8
    rw [if_pos hheld]
    exact ⟨hset.trans hdeassert.toActs, by rw [hdeassert.thm]; simp [hheld.2, State.setThm]⟩
  · rw [if_neg hheld]
    refine ⟨Acts.refl s, ?_⟩
    cases hs : s.thm.latchHold with
    | true =>
      have hlvl : ¬t < lvl - h := fun ht => hheld ⟨hs, ht⟩
      simp [hlvl, ← hs]
    | false =>
      rw [Bool.false_and, ← hs]

/-- The window and LEVEL, which end an evaluation. -/
theorem Quiet.shown (s : State) (t : Int) : Quiet quietWrites s.thm s (s.evalWindow t).showLevel := by
  have h := Quiet.evalWindow s t
  exact h.put _ _ quietWrites_thm.1

theorem State.shown_temp (s : State) (t : Int) : (s.evalWindow t).showLevel.getS THM_STATUS_T_DIE = s.getS THM_STATUS_T_DIE := by
  have h := s.evalWindow_temp t
  generalize s.evalWindow t = x at *
  exact (State.temp_congr (State.get_put_apart _ _ _ _ rfl (.inr (by decide)))).trans h

/-- An evaluation without a valid sensor. -/
theorem State.evalLevels_lost (ht : s.tDie = none) (i : Nat) : Quiet quietWrites { s.thm with lost := true } s (s.evalLevels i) := by
  rw [State.evalLevels_none ht]
  split
  · next hlost =>
    have hthm : { s.thm with lost := true } = s.thm := by rw [← hlost]
    rw [hthm]
    exact Quiet.refl s
  · exact Quiet.sensorsLost s

/-- What an evaluation writes and makes of the record. -/
theorem State.evalLevels_acts (ht : s.tDie = some t) (i : Nat) :
    Acts tempWrites s (s.evalLevels i) ∧ (s.evalLevels i).thm = s.thm.evaluated s.thrWarn s.thrThrottle s.thrShut s.thrHyst t := by
  have htwo := Quiet.twoLevels s t i
  rw [State.evalLevels_some ht]
  generalize s.twoLevels t i = x at *
  obtain ⟨hshut, hthm⟩ := x.shutStep_acts s.thrShut t i
  generalize x.shutStep s.thrShut t i = y at *
  obtain ⟨hlatch, hthm'⟩ := y.latchStep_acts s.thrShut s.thrHyst t
  generalize y.latchStep s.thrShut s.thrHyst t = z at *
  have hshown := Quiet.shown z t
  have hacts := ((htwo.toActs.mono fun a h => heldWrites_temp (quietWrites_held h)).trans (hshut.mono fun a h => heldWrites_temp (shutWrites_held h))).trans
    (hlatch.mono fun a h => levelWrites_temp h)
  refine ⟨hacts.trans (hshown.toActs.mono fun a h => heldWrites_temp (quietWrites_held h)), ?_⟩
  rw [hshown.thm, hthm', hthm, htwo.thm]
  rfl

/-- Without a held latch nothing is released. -/
theorem State.evalLevels_held (ht : s.tDie = some t) (hlatch : s.thm.latchHold = false) (i : Nat) : Acts heldWrites s (s.evalLevels i) := by
  have htwo := Quiet.twoLevels s t i
  rw [State.evalLevels_some ht]
  generalize s.twoLevels t i = x at *
  obtain ⟨hshut, hthm⟩ := x.shutStep_acts s.thrShut t i
  generalize x.shutStep s.thrShut t i = y at *
  have hheld : y.thm.latchHold = false := by rw [hthm, htwo.thm]; exact hlatch
  have hstep : y.latchStep s.thrShut s.thrHyst t = y := if_neg (by simp [hheld])
  rw [hstep]
  exact ((htwo.toActs.mono fun a h => quietWrites_held h).trans (hshut.mono fun a h => shutWrites_held h)).trans
    ((Quiet.shown y t).toActs.mono fun a h => quietWrites_held h)

/-- While the shutdown stands an evaluation is quiet. -/
theorem State.evalLevels_quiet (ht : s.tDie = some t) (hlatch : s.thm.latchHold = false) (hshut : s.thm.shut = true) (i : Nat) :
    Quiet quietWrites (s.thm.two s.thrWarn s.thrThrottle s.thrHyst t) s (s.evalLevels i) := by
  have htwo := Quiet.twoLevels s t i
  rw [State.evalLevels_some ht]
  generalize s.twoLevels t i = x at *
  have hshut' : x.thm.shut = true := by rw [htwo.thm]; exact hshut
  have hlatch' : x.thm.latchHold = false := by rw [htwo.thm]; exact hlatch
  have hstep : x.shutStep s.thrShut t i = x := if_neg (by simp [hshut'])
  have hstep' : x.latchStep s.thrShut s.thrHyst t = x := if_neg (by simp [hlatch'])
  rw [hstep, hstep', ← htwo.thm]
  exact htwo.trans (Quiet.shown x t)

/-- T_die is shown, and WARN is posted, below SHUT. -/
theorem State.evalLevels_temp {v : BitVec 16} (ht : s.tDie = some v.toInt) (hbelow : v.toInt < s.thrShut) (i : Nat) :
    (s.evalLevels i).getS THM_STATUS_T_DIE = v.toInt := by
  have htemp := s.twoLevels_temp v i
  rw [State.evalLevels_some ht]
  generalize s.twoLevels v.toInt i = x at *
  have hstep : x.shutStep s.thrShut v.toInt i = x := if_neg (by simp [hbelow])
  obtain ⟨hlatch, -⟩ := x.latchStep_acts s.thrShut s.thrHyst v.toInt
  rw [hstep, State.shown_temp]
  exact (State.temp_congr (hlatch.get _ (by unfold levelWrites; decide))).trans htemp

theorem State.evalLevels_warns (ht : s.tDie = some t) (hwarn : s.thm.warn = false) (hlevel : s.thrWarn ≤ t) (hbelow : t < s.thrShut) (i : Nat) :
    PostsSome s (s.evalLevels i) Ev.THM_WARN 0xFFFF := by
  have hposts := State.twoLevels_posts (i := i) hwarn hlevel
  rw [State.evalLevels_some ht]
  generalize s.twoLevels t i = x at *
  have hstep : x.shutStep s.thrShut t i = x := if_neg (by simp [hbelow])
  obtain ⟨hlatch, -⟩ := x.latchStep_acts s.thrShut s.thrHyst t
  rw [hstep]
  exact (hposts.acts hlatch).acts (Quiet.shown _ t).toActs

/-- At SHUT the shutdown is forced and posted, and LEVEL shows it. -/
theorem State.evalLevels_shuts (ht : s.tDie = some t) (hshut : s.thm.shut = false) (hlatch : s.thm.latchHold = false) (hlevel : s.thrShut ≤ t) (i : Nat) :
    ShutDown (s.evalLevels i) ∧ (s.evalLevels i).get THM_STATUS_LEVEL = 3 ∧ PostsSome s (s.evalLevels i) Ev.THM_SHUTDOWN 0xFFFF := by
  have htwo := Quiet.twoLevels s t i
  rw [State.evalLevels_some ht]
  generalize s.twoLevels t i = x at *
  have hshut' : x.thm.shut = false := by rw [htwo.thm]; exact hshut
  have hlatch' : x.thm.latchHold = false := by rw [htwo.thm]; exact hlatch
  have hstep : x.shutStep s.thrShut t i = x.thermShut t i := if_pos ⟨by simp [hshut'], hlevel⟩
  obtain ⟨-, hthm, hdown, hposts⟩ := x.thermShut_shows t i
  rw [hstep]
  generalize x.thermShut t i = y at *
  have hheld : y.thm.latchHold = false := by rw [hthm]; exact hlatch'
  have hstep' : y.latchStep s.thrShut s.thrHyst t = y := if_neg (by simp [hheld])
  rw [hstep']
  have hwindow := Quiet.evalWindow y t
  have hshown := Quiet.shown y t
  have hnot : ¬quietWrites PAR_STATUS ∧ ¬quietWrites (RST_ISLAND 1) ∧ ∀ k : Fin 17, ¬quietWrites (RST_ISLAND k) := by unfold quietWrites; decide
  obtain ⟨hauth, hhost, hisland⟩ := hnot
  refine ⟨hdown.kept hshown hauth hisland, ?_, (hposts.later htwo.toGoesOn fun hrun => ?_).acts hshown.toActs⟩
  · have hshut : (y.evalWindow t).thm.shut = true := by rw [hwindow.thm, hthm]
    rw [State.showLevel, hshut]
    exact State.get_put_same _ _ _ rfl
  · exact (State.islandRuns_congr _ _ _ (htwo.rget _ hhost)).trans hrun

end Evaluation

end Sys2Proof.Machine

namespace Sys2Proof.Machine

/-! ### The highest temperature (R515) -/

section HighestTemperature
variable {s x : State} {v : Int} {k : Nat}

/-- Every sensor that was read shows `v`. -/
def State.AllRead (s : State) (v : Int) : Prop := ∀ k : Fin 24, (s.dieS k).seen = true → s.dieT k = v

theorem foldl_max_eq {f : Nat → Int} {l : List Nat} (h : ∀ k ∈ l, f k = v) : l.foldl (fun a k => max a (f k)) v = v := by
  induction l with
  | nil => rfl
  | cons k l ih =>
    rw [List.foldl_cons, h k List.mem_cons_self, max_self]
    exact ih fun j hj => h j (List.mem_cons_of_mem _ hj)

theorem State.tDie_read (hall : s.AllRead v) : s.tDie = none ∨ s.tDie = some v := by
  have hmem : ∀ k ∈ (List.range 24).filter (fun i => (s.dieS i).seen && !s.on (THM_DIE_BROKEN i)), s.dieT k = v := fun k hk => by
    obtain ⟨hrange, hvalid⟩ := List.mem_filter.mp hk
    exact hall ⟨k, List.mem_range.mp hrange⟩ (Bool.and_eq_true_iff.mp hvalid).1
  unfold State.tDie
  generalize (List.range 24).filter _ = l at *
  cases l with
  | nil => exact .inl rfl
  | cons i l =>
    refine .inr (congrArg some ?_)
    rw [hmem i List.mem_cons_self]
    exact foldl_max_eq fun k hk => hmem k (List.mem_cons_of_mem _ hk)

/-- With one of them valid, `v` is the highest temperature. -/
theorem State.tDie_valid (hall : s.AllRead v) (k : Fin 24) (hseen : (s.dieS k).seen = true) (hbroken : s.on (THM_DIE_BROKEN k) = false) :
    s.tDie = some v := by
  refine (State.tDie_read hall).resolve_left fun hnone => ?_
  have hmem : k.val ∈ (List.range 24).filter (fun i => (s.dieS i).seen && !s.on (THM_DIE_BROKEN i)) :=
    List.mem_filter.mpr ⟨List.mem_range.mpr k.isLt, by simp [hseen, hbroken]⟩
  unfold State.tDie at hnone
  split at hnone
  · next hnil => rw [hnil] at hmem; exact absurd hmem List.not_mem_nil
  · exact absurd hnone (by simp)

end HighestTemperature

/-! ### A reading of a die sensor, without the levels (R512, R514) -/

/-- Only registers and the temperature record differ. -/
def ThmOnly (s x : State) : Prop := x = { s with regs := x.regs, thm := x.thm }

section DieSensor
variable {s x y : State} {i : Nat} {v : Int} {changed slow : Bool}

theorem ThmOnly.refl (s : State) : ThmOnly s s := rfl
theorem ThmOnly.put (h : ThmOnly s x) (f : Fld) (v : Nat) : ThmOnly s (x.put f v) := by
  unfold ThmOnly at *
  rw [h]
  rfl
theorem ThmOnly.setThm (h : ThmOnly s x) (r : Thm) : ThmOnly s (x.setThm r) := by
  unfold ThmOnly at *
  rw [h]
  rfl
theorem ThmOnly.hif (h : ThmOnly s x) : x.hif = s.hif := by
  unfold ThmOnly at h
  rw [h]
theorem ThmOnly.time (h : ThmOnly s x) : x.time = s.time := by
  unfold ThmOnly at h
  rw [h]

theorem State.dieS_setDieS_ne (s : State) (d : DieS) {k : Nat} (h : k ≠ i) : (s.setDieS i d).dieS k = s.dieS k := by
  simp [State.dieS, State.setDieS, State.setThm, List.getD_eq_getElem?_getD, List.getElem?_set_ne (Ne.symm h)]
theorem State.dieS_setDieS_same (s : State) (d : DieS) (h : i < s.thm.die.length) : (s.setDieS i d).dieS i = d := by
  simp [State.dieS, State.setDieS, State.setThm, List.getD_eq_getElem?_getD, h]
theorem State.setDieS_length (s : State) (d : DieS) : (s.setDieS i d).thm.die.length = s.thm.die.length := List.length_set

/-- The registers that a reading of a die sensor writes, before the levels. -/
def dieWrites (i a : Nat) : Prop := a = THM_DIE i ∨ quietWrites a

/-- A step of a reading of sensor `i`: of the record, only the die sensors change, and only sensor `i` can become seen. -/
structure Sensed (i : Nat) (s x : State) : Prop extends Acts (dieWrites i) s x where
  view : x.resetView = s.resetView
  thm : x.thm = { s.thm with die := x.thm.die }
  length : x.thm.die.length = s.thm.die.length
  seen : ∀ k, k ≠ i → (x.dieS k).seen = (s.dieS k).seen
  own : (s.dieS i).seen = true → (x.dieS i).seen = true

theorem Sensed.refl (s : State) : Sensed i s s := ⟨Acts.refl s, rfl, rfl, rfl, fun _ _ => rfl, id⟩
theorem Sensed.trans (h : Sensed i s x) (h' : Sensed i x y) : Sensed i s y := by
  refine ⟨h.toActs.trans h'.toActs, h'.view.trans h.view, ?_, h'.length.trans h.length, fun k hk => (h'.seen k hk).trans (h.seen k hk),
    fun hs => h'.own (h.own hs)⟩
  rw [h'.thm, h.thm]

/-- A step that leaves the record. -/
theorem Sensed.of_quiet (h : Quiet (dieWrites i) s.thm s x) : Sensed i s x := by
  have hseen (k : Nat) : x.dieS k = s.dieS k := by rw [State.dieS, h.thm, State.dieS]
  exact ⟨h.toActs, h.view, by rw [h.thm], by rw [h.thm], fun k _ => congrArg DieS.seen (hseen k), fun hs => (congrArg DieS.seen (hseen i)).trans hs⟩

theorem Sensed.put (h : Sensed i s x) (f : Fld) (v : Nat) (hf : dieWrites i f.off) : Sensed i s (x.put f v) :=
  h.trans (Sensed.of_quiet ((Quiet.refl x).put f v hf))
theorem Sensed.putB (h : Sensed i s x) (f : Fld) (b : Bool) (hf : dieWrites i f.off) : Sensed i s (x.putB f b) := h.put f _ hf
theorem Sensed.report (h : Sensed i s x) (c u : Nat) (p : List Nat) : Sensed i s (x.report c u p THM_IRQ_CAUSE_BROKEN) :=
  h.trans (Sensed.of_quiet ((Quiet.refl x).report c u p _ (fun a ha => .inr (quietWrites_evt a ha)) (.inr quietWrites_thm.2)))

/-- A change of a sensor's record that leaves whether it was seen, or makes sensor `i` seen. -/
theorem Sensed.setDieS (h : Sensed i s x) (k : Nat) (d : DieS) (hd : d.seen = (x.dieS k).seen ∨ (k = i ∧ d.seen = true)) : Sensed i s (x.setDieS k d) := by
  have hset (j : Nat) : (x.setDieS k d).dieS j = x.dieS j ∨ (j = k ∧ (x.setDieS k d).dieS j = d) := by
    by_cases hj : j = k
    · subst hj
      by_cases hlen : j < x.thm.die.length
      · exact .inr ⟨rfl, x.dieS_setDieS_same d hlen⟩
      · refine .inl ?_
        rw [State.dieS, State.setDieS, State.setThm, State.dieS, List.set_eq_of_length_le (by omega)]
    · exact .inl (x.dieS_setDieS_ne d hj)
  refine h.trans ⟨Acts.of_records rfl rfl, rfl, rfl, x.setDieS_length d, fun j hj => ?_, fun hs => ?_⟩
  · rcases hset j with e | ⟨rfl, e⟩
    · rw [e]
    · rw [e]
      exact hd.resolve_right fun hk => hj hk.1
  · rcases hset i with e | ⟨rfl, e⟩
    · rwa [e]
    · rw [e]
      exact hd.elim (fun h => h.trans hs) And.right

/-- The sensors of the zone see the reading. -/
def State.dieZone (s : State) (i : Nat) (v : Int) : State :=
  [i / 3 * 3, i / 3 * 3 + 1, i / 3 * 3 + 2].foldl (fun (s : State) (k : Nat) =>
    let d := s.dieS k
    s.setDieS k { d with lo := if d.lo = [] then [] else d.lo.set (i % 3) (min v (d.lo.getD (i % 3) v))
                         hi := if d.hi = [] then [] else d.hi.set (i % 3) (max v (d.hi.getD (i % 3) v)) }) s

/-- A reading as the sensor's own watch keeps it. -/
def State.dieNow (s : State) (i : Nat) (old : DieS) (changed : Bool) (cyc : Nat) : DieS :=
  let now := [s.dieT (i / 3 * 3), s.dieT (i / 3 * 3 + 1), s.dieT (i / 3 * 3 + 2)]
  if changed then { seen := true, since := cyc, lo := now, hi := now, ok := old.ok } else { s.dieS i with seen := true }

/-- A sensor is read. -/
def State.dieTaken (s : State) (i : Nat) (v : Int) (changed : Bool) : State :=
  let s2 := (s.putS (THM_DIE_T i) v).dieZone i v
  s2.setDieS i (s2.dieNow i (s.dieS i) changed s.time.cyc)

/-- A sensor breaks. -/
def State.dieBreaks (s : State) (i r : Nat) : State :=
  ((s.putB (THM_DIE_BROKEN i) true).put (THM_DIE_REASON i) r).report Ev.SENSOR_BROKEN i [0, r] THM_IRQ_CAUSE_BROKEN

/-- The count of clean readings starts again, or goes on. -/
def State.dieReset (s : State) (i : Nat) : State := s.setDieS i { s.dieS i with ok := 0 }
def State.dieCounted (s : State) (i : Nat) : State := s.setDieS i { s.dieS i with ok := (s.dieS i).ok + 1 }

/-- A clean reading of a broken sensor. -/
def State.dieClean (s : State) (i : Nat) : State :=
  if 1000 ≤ (s.dieS i).ok + 1 then (((s.dieCounted i).dieReset i).putB (THM_DIE_BROKEN i) false).put (THM_DIE_REASON i) 0 else s.dieCounted i

/-- A sensor's reading is judged. -/
def State.dieJudged (slow : Bool) (s : State) (i : Nat) (changed : Bool) : State :=
  match s.dieCond i changed with
  | some r => if (s.dieReset i).on (THM_DIE_BROKEN i) then s.dieReset i else (s.dieReset i).dieBreaks i r
  | none => if !s.on (THM_DIE_BROKEN i) ∨ !slow then s else s.dieClean i

/-- The fast group. -/
def State.dieGroup (s : State) (i : Nat) (v : Int) : State :=
  let s5 := if s.thrThrottle - 320 ≤ v then s.putB (THM_DIE_FAST i) true
    else if v < s.thrThrottle - 448 then s.putB (THM_DIE_FAST i) false else s
  s5.putB THM_STATUS_FAST ((List.range 24).any (fun k => s5.on (THM_DIE_FAST k)))

/-- Does a reading change what the sensor shows? -/
def State.dieChanged (s : State) (i : Nat) (v : Int) : Bool := !(s.dieS i).seen || v != s.dieT i

/-- A reading, without the levels. -/
def State.dieRead (slow : Bool) (s : State) (i : Nat) (v : Int) : State :=
  ((s.dieTaken i v (s.dieChanged i v)).dieJudged slow i (s.dieChanged i v)).dieGroup i v

theorem State.readDie_eq (slow : Bool) (s : State) (e : BitVec 16 × Nat) :
    State.readDie slow s e = (s.dieRead slow e.2 e.1.toInt).evalLevels e.2 := rfl

theorem dieWrites_own (i : Nat) : dieWrites i (THM_DIE i) := .inl rfl
theorem dieWrites_status (i : Nat) : dieWrites i THM_STATUS := .inr quietWrites_thm.1

theorem Sensed.dieZone (h : Sensed i s x) (v : Int) : Sensed i s (x.dieZone i v) :=
  List.foldlRecOn (motive := Sensed i s) _ _ h fun _ hy k _ => hy.setDieS k _ (.inl rfl)

theorem ThmOnly.dieZone (h : ThmOnly s x) (i : Nat) (v : Int) : ThmOnly s (x.dieZone i v) :=
  List.foldlRecOn (motive := ThmOnly s) _ _ h fun _ hy _ _ => hy.setThm _

theorem State.rget_dieZone (s : State) (i : Nat) (v : Int) (a : Nat) : (s.dieZone i v).rget a = s.rget a :=
  List.foldlRecOn (motive := fun y : State => y.rget a = s.rget a) _ _ rfl fun _ hy _ _ => hy

theorem State.dieNow_seen (s : State) (old : DieS) (cyc : Nat) : (s.dieNow i old changed cyc).seen = true := by
  unfold State.dieNow
  cases changed <;> rfl

theorem Sensed.dieTaken (s : State) (i : Nat) (v : Int) (changed : Bool) : Sensed i s (s.dieTaken i v changed) :=
  (((Sensed.refl s).put _ _ (dieWrites_own i)).dieZone v).setDieS i _ (.inr ⟨rfl, State.dieNow_seen ..⟩)

theorem ThmOnly.dieTaken (s : State) (i : Nat) (v : Int) (changed : Bool) : ThmOnly s (s.dieTaken i v changed) :=
  (((ThmOnly.refl s).put _ _).dieZone i v).setThm _

theorem State.rget_dieTaken (s : State) (i : Nat) (v : Int) (changed : Bool) (a : Nat) : (s.dieTaken i v changed).rget a = (s.putS (THM_DIE_T i) v).rget a :=
  State.rget_dieZone _ i v a

theorem State.dieTaken_seen (changed : Bool) (v : Int) (h : i < s.thm.die.length) : ((s.dieTaken i v changed).dieS i).seen = true := by
  have hlen : i < ((s.putS (THM_DIE_T i) v).dieZone i v).thm.die.length := by
    exact h.trans_eq (Sensed.dieZone ((Sensed.refl s).put (THM_DIE_T i) (twos 16 v) (dieWrites_own i)) v).length.symm
  unfold State.dieTaken
  rw [State.dieS_setDieS_same _ _ hlen]
  exact State.dieNow_seen ..

theorem State.dieTaken_temp (s : State) (i : Nat) (w : BitVec 16) (changed : Bool) : (s.dieTaken i w.toInt changed).dieT i = w.toInt := by
  have hget : (s.dieTaken i w.toInt changed).get (THM_DIE_T i) = (s.putS (THM_DIE_T i) w.toInt).get (THM_DIE_T i) :=
    State.get_eq_of_rget _ _ _ (s.rget_dieTaken i w.toInt changed _)
  refine (congrArg (sgn 16) hget).trans ((State.getS_putS_same _ _ _ rfl).trans (sgn_twos_toInt w))

theorem State.dieTaken_broken (s : State) (i : Nat) (v : Int) (changed : Bool) :
    (s.dieTaken i v changed).on (THM_DIE_BROKEN i) = s.on (THM_DIE_BROKEN i) :=
  (State.on_eq_of_get _ _ _ (State.get_eq_of_rget _ _ _ (s.rget_dieTaken i v changed _))).trans
    (State.on_put_apart _ _ _ _ rfl (Fld.apart_of_bits rfl))

theorem Sensed.dieBreaks (h : Sensed i s x) (r : Nat) : Sensed i s (x.dieBreaks i r) :=
  ((h.putB _ _ (dieWrites_own i)).put _ _ (dieWrites_own i)).report _ _ _

theorem Sensed.dieReset (h : Sensed i s x) : Sensed i s (x.dieReset i) := h.setDieS i _ (.inl rfl)
theorem Sensed.dieCounted (h : Sensed i s x) : Sensed i s (x.dieCounted i) := h.setDieS i _ (.inl rfl)

theorem Sensed.dieClean (s : State) (i : Nat) : Sensed i s (s.dieClean i) := by
  unfold State.dieClean
  split
  · exact ((Sensed.refl s).dieCounted.dieReset.putB (THM_DIE_BROKEN i) _ (dieWrites_own i)).put (THM_DIE_REASON i) _ (dieWrites_own i)
  · exact (Sensed.refl s).dieCounted

theorem Sensed.dieJudged (slow : Bool) (s : State) (i : Nat) (changed : Bool) : Sensed i s (s.dieJudged slow i changed) := by
  unfold State.dieJudged
  split
  · split
    · exact (Sensed.refl s).dieReset
    · exact (Sensed.refl s).dieReset.dieBreaks _
  · split
    · exact Sensed.refl s
    · exact Sensed.dieClean s i

theorem Sensed.dieGroup (s : State) (i : Nat) (v : Int) : Sensed i s (s.dieGroup i v) := by
  unfold State.dieGroup
  dsimp only
  split_ifs
  · exact ((Sensed.refl s).putB _ _ (dieWrites_own i)).putB _ _ (dieWrites_status i)
  · exact ((Sensed.refl s).putB _ _ (dieWrites_own i)).putB _ _ (dieWrites_status i)
  · exact (Sensed.refl s).putB _ _ (dieWrites_status i)

theorem Sensed.dieRead (slow : Bool) (s : State) (i : Nat) (v : Int) : Sensed i s (s.dieRead slow i v) :=
  ((Sensed.dieTaken s i v _).trans (Sensed.dieJudged slow _ i _)).trans (Sensed.dieGroup _ i v)

theorem thmDie_ne_status (i : Nat) : THM_DIE i ≠ THM_STATUS := by
  unfold THM_DIE THM_STATUS
  omega

/-- The group's fields are beside the others of the sensor. -/
theorem State.get_dieGroup (s : State) (i : Nat) (v : Int) (f : Fld) (hoff : f.off = THM_DIE i) (hf : (THM_DIE_FAST i).apart f) :
    (s.dieGroup i v).get f = s.get f := by
  have hne : THM_STATUS ≠ f.off := fun e => thmDie_ne_status i (hoff ▸ e.symm)
  unfold State.dieGroup
  dsimp only
  rw [State.get_putB_apart _ _ _ _ rfl (.inl hne)]
  split_ifs
  · exact State.get_putB_apart _ _ _ _ rfl hf
  · exact State.get_putB_apart _ _ _ _ rfl hf
  · rfl

theorem thmDie_apart : ∀ i : Fin 24, THM_DIE i ∉ evtRegs ∧ THM_IRQ_CAUSE ≠ THM_DIE i := by decide

/-- A break shows in the sensor's register, beside its reading. -/
theorem State.dieBreaks_shows (s : State) (i : Fin 24) {r : Nat} (hr : r < 4) :
    (s.dieBreaks i r).get (THM_DIE_T i) = s.get (THM_DIE_T i) ∧ (s.dieBreaks i r).on (THM_DIE_BROKEN i) = true ∧
      (s.dieBreaks i r).get (THM_DIE_REASON i) = r := by
  obtain ⟨hevt, hcause⟩ := thmDie_apart i
  have hreport (y : State) (f : Fld) (hf : f.off = THM_DIE i) : (y.report Ev.SENSOR_BROKEN i [0, r] THM_IRQ_CAUSE_BROKEN).get f = y.get f :=
    State.get_report _ _ _ _ rfl (hf ▸ hcause) (hf ▸ hevt)
  unfold State.dieBreaks
  refine ⟨?_, ?_, ?_⟩
  · rw [hreport _ _ rfl, State.get_put_apart _ _ _ _ rfl (Fld.apart_of_bits rfl), State.get_putB_apart _ _ _ _ rfl (Fld.apart_of_bits rfl)]
  · rw [State.on_eq_of_get _ _ _ (hreport _ _ rfl), State.on_put_apart _ _ _ _ rfl (Fld.apart_of_bits rfl), State.on_putB_same _ _ _ rfl]
  · rw [hreport _ _ rfl, State.get_put_same _ _ _ rfl]
    exact Nat.mod_eq_of_lt hr

theorem State.dieCond_range (s : State) (i : Nat) (changed : Bool) {r : Nat} (h : s.dieCond i changed = some r) : r < 4 := by
  unfold State.dieCond at h
  dsimp only at h
  split_ifs at h
  · injection h with h
    omega
  · injection h with h
    omega
  · split at h
    · split_ifs at h
      injection h with h
      omega
    · cases h

/-- The reading stays while it is judged. -/
theorem State.dieJudged_temp (slow : Bool) (s : State) (i : Fin 24) (changed : Bool) : (s.dieJudged slow i changed).dieT i = s.dieT i := by
  have hset (y : State) (d : DieS) : (y.setDieS i d).get (THM_DIE_T i) = y.get (THM_DIE_T i) := rfl
  have hclean : (s.dieClean i).get (THM_DIE_T i) = s.get (THM_DIE_T i) := by
    unfold State.dieClean
    split
    · rw [State.get_put_apart _ _ _ _ rfl (Fld.apart_of_bits rfl), State.get_putB_apart _ _ _ _ rfl (Fld.apart_of_bits rfl), State.dieReset, hset,
        State.dieCounted, hset]
    · exact hset _ _
  refine congrArg (sgn 16) ?_
  unfold State.dieJudged
  split
  · next r hcond =>
    split
    · exact hset _ _
    · exact (State.dieBreaks_shows _ i (State.dieCond_range s i changed hcond)).1.trans (hset _ _)
  · split
    · rfl
    · exact hclean

theorem State.dieRead_temp (slow : Bool) (s : State) (i : Fin 24) (w : BitVec 16) : (s.dieRead slow i w.toInt).dieT i = w.toInt :=
  (congrArg (sgn 16) (State.get_dieGroup _ i _ (THM_DIE_T i) rfl (Fld.apart_of_bits rfl))).trans
    ((State.dieJudged_temp slow _ i _).trans (State.dieTaken_temp s i w _))

theorem State.dieRead_seen (slow : Bool) (v : Int) (h : i < s.thm.die.length) : ((s.dieRead slow i v).dieS i).seen = true :=
  ((Sensed.dieJudged slow _ i _).trans (Sensed.dieGroup _ i v)).own (State.dieTaken_seen _ v h)

/-- A reading out of range breaks its sensor (R514). -/
theorem State.dieRead_breaks (slow : Bool) (s : State) (i : Fin 24) (w : BitVec 16) (hrange : w.toInt < -3520 ∨ 9600 < w.toInt)
    (hbroken : s.on (THM_DIE_BROKEN i) = false) :
    let x := s.dieRead slow i w.toInt
    x.on (THM_DIE_BROKEN i) = true ∧ x.get (THM_DIE_REASON i) = 1 ∧ Posts s x Ev.SENSOR_BROKEN i [0, 1] ∧ PostsSome s x Ev.SENSOR_BROKEN i := by
  have htemp := s.dieTaken_temp i w (s.dieChanged i w.toInt)
  have hkept := s.dieTaken_broken i w.toInt (s.dieChanged i w.toInt)
  have honly := ThmOnly.dieTaken s i w.toInt (s.dieChanged i w.toInt)
  have hacts := (Sensed.dieTaken s i w.toInt (s.dieChanged i w.toInt)).toActs
  have hne : ∀ i : Fin 24, RST_ISLAND 1 ≠ THM_DIE i := by decide
  have hisland : ¬dieWrites i (RST_ISLAND 1) := fun h => h.elim (hne i) (by unfold quietWrites; decide)
  unfold State.dieRead
  generalize s.dieTaken i w.toInt (s.dieChanged i w.toInt) = y at *
  have hcond : y.dieCond i (s.dieChanged i w.toInt) = some 1 := if_pos (by rwa [htemp])
  have hreset : (y.dieReset i).on (THM_DIE_BROKEN i) = false := hkept.trans hbroken
  have hjudged : y.dieJudged slow i (s.dieChanged i w.toInt) = (y.dieReset i).dieBreaks i 1 := by
    simp only [State.dieJudged, hcond]
    exact if_neg (by simp [hreset])
  rw [hjudged]
  have hset : Sensed i y (y.dieReset i) := (Sensed.refl y).dieReset
  have honly' : ThmOnly s (y.dieReset i) := honly.setThm _
  generalize y.dieReset i = z at *
  obtain ⟨-, hon, hreason⟩ := z.dieBreaks_shows i (r := 1) (by decide)
  have hput : Acts (dieWrites i) z ((z.putB (THM_DIE_BROKEN i) true).put (THM_DIE_REASON i) 1) :=
    ((Acts.refl z).putB _ _ (dieWrites_own i)).put _ _ (dieWrites_own i)
  have hall : Acts (dieWrites i) s ((z.putB (THM_DIE_BROKEN i) true).put (THM_DIE_REASON i) 1) := (hacts.trans hset.toActs).trans hput
  have honly'' : ThmOnly s ((z.putB (THM_DIE_BROKEN i) true).put (THM_DIE_REASON i) 1) := (honly'.put _ _).put _ _
  have hposts : Posts s (z.dieBreaks i 1) Ev.SENSOR_BROKEN i [0, 1] :=
    (Posts.of_event s _ _ _ _ honly''.hif honly''.time (hall.rget _ hisland) (by decide)).cause _
  have hsome : PostsSome s (z.dieBreaks i 1) Ev.SENSOR_BROKEN i :=
    PostsSome.of_event _ hall.toGoesOn (hall.rget _ hisland) (by decide) (State.cause_hif ..)
  generalize z.dieBreaks i 1 = u at *
  have hgroup := (Sensed.dieGroup u i w.toInt).toActs
  exact ⟨(State.on_eq_of_get _ _ _ (State.get_dieGroup u i _ _ rfl (Fld.apart_of_bits rfl))).trans hon,
    (State.get_dieGroup u i _ _ rfl (Fld.apart_of_bits rfl)).trans hreason, hposts.extends hgroup.toExtends, hsome.acts hgroup⟩

/-- The first reading of sensor 0, in range, with the others unread, leaves it valid. -/
theorem State.dieRead_first (s : State) (w : BitVec 16) (hlo : -3520 ≤ w.toInt) (hhi : w.toInt ≤ 9600) (hseen : ∀ k : Fin 24, (s.dieS k).seen = false)
    (hbroken : s.on (THM_DIE_BROKEN 0) = false) : (s.dieRead true 0 w.toInt).on (THM_DIE_BROKEN 0) = false := by
  have htemp := s.dieTaken_temp 0 w true
  have hkept := s.dieTaken_broken 0 w.toInt true
  have hsensed := Sensed.dieTaken s 0 w.toInt true
  have hchanged : s.dieChanged 0 w.toInt = true := by
    have hunread : (s.dieS 0).seen = false := hseen 0
    simp [State.dieChanged, hunread]
  unfold State.dieRead
  rw [hchanged]
  generalize s.dieTaken 0 w.toInt true = y at *
  have hunseen : (y.dieS 1).seen = false := (hsensed.seen 1 (by decide)).trans (hseen 1)
  have hcond : y.dieCond 0 true = none := by
    have hrange : ¬(y.dieT 0 < -3520 ∨ 9600 < y.dieT 0) := by rw [htemp]; omega
    have hothers : [0, 1, 2].filter (fun k => k != 0) = [1, 2] := rfl
    simp [State.dieCond, hrange, hunseen]
  have hjudged : y.dieJudged true 0 true = y := by
    simp only [State.dieJudged, hcond]
    exact if_pos (.inl (by simp [hkept, hbroken]))
  rw [hjudged]
  exact (State.on_eq_of_get _ _ _ (State.get_dieGroup y 0 _ _ rfl (Fld.apart_of_bits rfl))).trans (hkept.trans hbroken)

end DieSensor

end Sys2Proof.Machine

namespace Sys2Proof.Machine

/-! ### A reading of a die sensor, as a whole (R512) -/

section Reading
variable {s x : State} {i : Nat} {v : Int}

/-- The registers that a reading writes, and those that one without a release writes. -/
def readWrites (i a : Nat) : Prop := a = THM_DIE i ∨ tempWrites a
def calmWrites (i a : Nat) : Prop := a = THM_DIE i ∨ heldWrites a

theorem dieWrites_calm {a : Nat} (h : dieWrites i a) : calmWrites i a := h.imp_right quietWrites_held
theorem calmWrites_read {a : Nat} (h : calmWrites i a) : readWrites i a := h.imp_right heldWrites_temp

theorem State.evalLevels_record (s : State) (i : Nat) :
    let t := s.evalLevels i
    Acts tempWrites s t ∧ t.thm.die = s.thm.die ∧ (s.thm.latchHold = false → Acts heldWrites s t ∧ t.thm.latchHold = false) := by
  cases ht : s.tDie with
  | none =>
    have hquiet := s.evalLevels_lost ht i
    have hheld := hquiet.toActs.mono fun _ h => quietWrites_held h
    refine ⟨hheld.mono fun _ h => heldWrites_temp h, by rw [hquiet.thm], fun hl => ⟨hheld, ?_⟩⟩
    rw [hquiet.thm]
    exact hl
  | some t =>
    obtain ⟨hacts, hthm⟩ := State.evalLevels_acts ht i
    refine ⟨hacts, by rw [hthm]; rfl, fun hl => ⟨State.evalLevels_held ht hl i, ?_⟩⟩
    rw [hthm, Thm.evaluated]
    simp [hl]

/-- What a reading leaves and makes of the record. -/
theorem State.readDie_record (slow : Bool) (s : State) (e : BitVec 16 × Nat) :
    let t := State.readDie slow s e
    Acts (readWrites e.2) s t ∧ t.thm.die.length = s.thm.die.length ∧ (∀ k, k ≠ e.2 → (t.dieS k).seen = (s.dieS k).seen) ∧
      (s.thm.latchHold = false → Acts (calmWrites e.2) s t ∧ t.thm.latchHold = false) := by
  have hsensed := Sensed.dieRead slow s e.2 e.1.toInt
  rw [State.readDie_eq]
  generalize s.dieRead slow e.2 e.1.toInt = y at *
  obtain ⟨hacts, hdie, hheld⟩ := y.evalLevels_record e.2
  have hcalm := hsensed.toActs.mono fun _ h => dieWrites_calm h
  refine ⟨(hcalm.mono fun _ h => calmWrites_read h).trans (hacts.mono fun _ h => .inr h), (congrArg List.length hdie).trans hsensed.length, fun k hk => ?_,
    fun hl => ?_⟩
  · rw [State.dieS, hdie]
    exact hsensed.seen k hk
  · have hl' : y.thm.latchHold = false := (congrArg Thm.latchHold hsensed.thm).trans hl
    exact ⟨hcalm.trans ((hheld hl').1.mono fun _ h => .inr h), (hheld hl').2⟩

/-- A register of a sensor is no level's. -/
theorem tempWrites_not_die (k : Fin 24) : ¬tempWrites (THM_DIE k) := by
  unfold tempWrites levelWrites THM_DIE THM_STATUS
  omega

theorem readWrites_not_die {i : Nat} (k : Fin 24) (h : k.val ≠ i) : ¬readWrites i (THM_DIE k) := by
  refine not_or.mpr ⟨fun e => h ?_, tempWrites_not_die k⟩
  unfold THM_DIE at e
  omega

theorem State.readDie_temp (slow : Bool) (s : State) (w : BitVec 16) (i : Fin 24) : (State.readDie slow s (w, i.val)).dieT i = w.toInt := by
  rw [State.readDie_eq]
  have htemp := State.dieRead_temp slow s i w
  obtain ⟨hacts, -⟩ := (s.dieRead slow i w.toInt).evalLevels_record i
  exact (congrArg (sgn 16) (hacts.get (THM_DIE_T i) (tempWrites_not_die i))).trans htemp

theorem State.readDie_other (slow : Bool) (s : State) (e : BitVec 16 × Nat) (k : Fin 24) (h : k.val ≠ e.2) :
    (State.readDie slow s e).dieT k = s.dieT k := by
  obtain ⟨hacts, -⟩ := State.readDie_record slow s e
  exact congrArg (sgn 16) (hacts.get (THM_DIE_T k) (readWrites_not_die k h))

/-- A reading keeps what all that were read show. -/
theorem State.AllRead.dieRead {w : BitVec 16} (h : s.AllRead w.toInt) (slow : Bool) (i : Fin 24) : (s.dieRead slow i w.toInt).AllRead w.toInt := by
  have hsensed := Sensed.dieRead slow s i w.toInt
  intro k hseen
  by_cases hk : k = i
  · rw [hk]
    exact State.dieRead_temp slow s i w
  · have hne : k.val ≠ i.val := fun e => hk (Fin.ext e)
    have hnot : ¬dieWrites i (THM_DIE k) := fun hd => readWrites_not_die k hne (calmWrites_read (dieWrites_calm hd))
    exact (congrArg (sgn 16) (hsensed.toActs.get (THM_DIE_T k) hnot)).trans (h k ((hsensed.seen k hne).symm.trans hseen))

theorem State.AllRead.evalLevels (h : s.AllRead v) (i : Nat) : (s.evalLevels i).AllRead v := by
  obtain ⟨hacts, hdie, -⟩ := s.evalLevels_record i
  intro k hseen
  rw [State.dieS, hdie] at hseen
  exact (congrArg (sgn 16) (hacts.get (THM_DIE_T k) (tempWrites_not_die k))).trans (h k hseen)

end Reading

/-! ### Rounds (R512) -/

section Rounds

/-- A projection that no step of a round changes. -/
theorem foldl_keeps_mem {α β γ : Type} (π : α → γ) {f : α → β → α} {l : List β} (h : ∀ y, ∀ e ∈ l, π (f y e) = π y) (a : α) : π (l.foldl f a) = π a :=
  List.foldlRecOn (motive := fun y => π y = π a) l f rfl fun y hy e he => (h y e he).trans hy

/-- A list with its indices, cut at one of them. -/
theorem zipIdx_split {α : Type} (l : List α) (k : Nat) (hk : k < l.length) :
    ∃ A B : List (α × Nat), l.zipIdx = A ++ (l[k], k) :: B ∧ (∀ e ∈ A, e.2 < k) ∧ (∀ e ∈ B, k < e.2) := by
  have hcut : l = l.take k ++ l[k] :: l.drop (k + 1) := by rw [List.getElem_cons_drop, List.take_append_drop]
  have hlen : (l.take k).length = k := List.length_take_of_le hk.le
  refine ⟨(l.take k).zipIdx, (l.drop (k + 1)).zipIdx (k + 1), ?_, fun e he => ?_, fun e he => ?_⟩
  · conv_lhs => rw [hcut]
    rw [List.zipIdx_append, List.zipIdx_cons, hlen, zero_add]
  · exact (List.snd_lt_of_mem_zipIdx he).trans_eq hlen
  · exact List.le_snd_of_mem_zipIdx he

end Rounds

/-! ### Thermistors and housekeeping inputs (R513, R514) -/

section Inputs
variable {s x y : State} {i : Nat}

/-- The registers that a round of one input writes. -/
def inputWrites (a0 a : Nat) : Prop := a = a0 ∨ a = THM_IRQ_CAUSE ∨ a ∈ evtRegs

/-- The record without the counts of the inputs. -/
def Thm.sansInputs (r : Thm) : Thm := { r with ext := [], hk := [] }

theorem Quiet.adcRound (s : State) (c : Nat × Nat) (bad : Bool) (fld : Fld) (kind i : Nat) :
    Quiet (inputWrites fld.off) s.thm s (s.adcRound c bad fld kind i).1 := by
  have hevt : ∀ a ∈ evtRegs, inputWrites fld.off a := fun _ h => .inr (.inr h)
  unfold State.adcRound
  dsimp only
  split_ifs
  · exact ((Quiet.refl s).putB fld true (.inl rfl)).report _ _ _ _ hevt (.inr (.inl rfl))
  · exact (Quiet.refl s).putB fld false (.inl rfl)
  · exact Quiet.refl s
  · exact ((Quiet.refl s).putB fld true (.inl rfl)).report _ _ _ _ hevt (.inr (.inl rfl))
  · exact (Quiet.refl s).putB fld false (.inl rfl)
  · exact Quiet.refl s

/-- A step of an input: the counts of the inputs are all that changes of the record. -/
structure InputStep (W : Nat → Prop) (s x : State) : Prop extends Acts W s x where
  thm : x.thm.sansInputs = s.thm.sansInputs

theorem InputStep.trans {W : Nat → Prop} (h : InputStep W s x) (h' : InputStep W x y) : InputStep W s y :=
  ⟨h.toActs.trans h'.toActs, h'.thm.trans h.thm⟩

theorem InputStep.die {W : Nat → Prop} (h : InputStep W s x) : x.thm.die = s.thm.die := by
  have hdie := congrArg Thm.die h.thm
  exact hdie

/-- The value that a thermistor's code gives. -/
def State.extValue (s : State) (i c : Nat) : Int :=
  let t := s.extTemp i c
  let v : Int := if f32Finite t then f32Round t 64 else Config.nonFinite 6 t
  if -32768 ≤ v ∧ v ≤ 32767 then v else Config.nonFinite 6 t

theorem State.readExt_eq (s : State) (e : BitVec 12 × Nat) : s.readExt e =
    let r := (s.putS (THM_EXT_T e.2) (s.extValue e.2 e.1.toNat)).adcRound (s.thm.ext.getD e.2 (0, 0)) (Nat.ble e.1.toNat 15 || Nat.ble 4080 e.1.toNat)
      (THM_EXT_BROKEN e.2) 1 e.2
    r.1.setThm { r.1.thm with ext := r.1.thm.ext.set e.2 r.2 } := rfl

theorem InputStep.readExt (s : State) (e : BitVec 12 × Nat) : InputStep (inputWrites (THM_EXT e.2)) s (s.readExt e) := by
  have hput : Quiet (inputWrites (THM_EXT e.2)) s.thm s (s.putS (THM_EXT_T e.2) (s.extValue e.2 e.1.toNat)) := (Quiet.refl s).putS _ _ (.inl rfl)
  rw [State.readExt_eq]
  generalize s.putS (THM_EXT_T e.2) (s.extValue e.2 e.1.toNat) = y at *
  have hround := Quiet.adcRound y (s.thm.ext.getD e.2 (0, 0)) (Nat.ble e.1.toNat 15 || Nat.ble 4080 e.1.toNat) (THM_EXT_BROKEN e.2) 1 e.2
  dsimp only
  generalize y.adcRound _ _ (THM_EXT_BROKEN e.2) 1 e.2 = r at *
  have hset : Acts (inputWrites (THM_EXT e.2)) r.1 (r.1.setThm { r.1.thm with ext := r.1.thm.ext.set e.2 r.2 }) := Acts.of_records rfl rfl
  refine ⟨(hput.toActs.trans hround.toActs).trans hset, ?_⟩
  rw [← hput.thm, ← hround.thm]
  rfl

theorem State.readHk_eq (s : State) (e : BitVec 12 × Nat) : s.readHk e =
    let r := (s.put (THM_HK_CODE e.2) e.1.toNat).adcRound (s.thm.hk.getD e.2 (0, 0)) (e.1.toNat == 0 || e.1.toNat == 4095) (THM_HK_BROKEN e.2) 2 e.2
    r.1.setThm { r.1.thm with hk := r.1.thm.hk.set e.2 r.2 } := rfl

theorem InputStep.readHk (s : State) (e : BitVec 12 × Nat) : InputStep (inputWrites (THM_HK e.2)) s (s.readHk e) := by
  have hput : Quiet (inputWrites (THM_HK e.2)) s.thm s (s.put (THM_HK_CODE e.2) e.1.toNat) := (Quiet.refl s).put _ _ (.inl rfl)
  rw [State.readHk_eq]
  generalize s.put (THM_HK_CODE e.2) e.1.toNat = y at *
  have hround := Quiet.adcRound y (s.thm.hk.getD e.2 (0, 0)) (e.1.toNat == 0 || e.1.toNat == 4095) (THM_HK_BROKEN e.2) 2 e.2
  dsimp only
  generalize y.adcRound _ _ (THM_HK_BROKEN e.2) 2 e.2 = r at *
  have hset : Acts (inputWrites (THM_HK e.2)) r.1 (r.1.setThm { r.1.thm with hk := r.1.thm.hk.set e.2 r.2 }) := Acts.of_records rfl rfl
  refine ⟨(hput.toActs.trans hround.toActs).trans hset, ?_⟩
  rw [← hput.thm, ← hround.thm]
  rfl

/-- The registers that the inputs write. -/
def inputsWrite (a : Nat) : Prop := (0x20200 ≤ a ∧ a < 0x20300) ∨ a = THM_IRQ_CAUSE ∨ a ∈ evtRegs

theorem inputWrites_ext (h : i < 32) {a : Nat} (ha : inputWrites (THM_EXT i) a) : inputsWrite a := by
  refine ha.imp_left fun e => ?_
  rw [e]
  unfold THM_EXT
  omega

theorem inputWrites_hk (h : i < 32) {a : Nat} (ha : inputWrites (THM_HK i) a) : inputsWrite a := by
  refine ha.imp_left fun e => ?_
  rw [e]
  unfold THM_HK
  omega

/-- The index of an input is in range. -/
theorem mem_zipIdx_take {α : Type} {l : List α} {n : Nat} {e : α × Nat} (h : e ∈ (l.take n).zipIdx) : e.2 < n :=
  (List.snd_lt_of_mem_zipIdx h).trans_le (List.length_take_le _ _)

theorem InputStep.foldl {α : Type} {f : State → α → State} {W : Nat → Prop} {l : List α} (hf : ∀ y, ∀ e ∈ l, InputStep W y (f y e)) (s : State) :
    InputStep W s (l.foldl f s) :=
  List.foldlRecOn (motive := InputStep W s) l f ⟨Acts.refl s, rfl⟩ fun _ hy e he => hy.trans (hf _ e he)

theorem InputStep.extRound (s : State) {l : List (BitVec 12 × Nat)} (hl : ∀ e ∈ l, e.2 < 32) : InputStep inputsWrite s (l.foldl State.readExt s) :=
  InputStep.foldl (fun y e he => ⟨(InputStep.readExt y e).toActs.mono fun _ h => inputWrites_ext (hl e he) h, (InputStep.readExt y e).thm⟩) s

theorem InputStep.hkRound (s : State) {l : List (BitVec 12 × Nat)} (hl : ∀ e ∈ l, e.2 < 32) : InputStep inputsWrite s (l.foldl State.readHk s) :=
  InputStep.foldl (fun y e he => ⟨(InputStep.readHk y e).toActs.mono fun _ h => inputWrites_hk (hl e he) h, (InputStep.readHk y e).thm⟩) s

/-- A housekeeping code shows. -/
theorem State.readHk_code (s : State) (w : BitVec 12) (i : Fin 32) : (s.readHk (w, i.val)).get (THM_HK_CODE i) = w.toNat := by
  have hregs : ∀ i : Fin 32, THM_HK i ∉ evtRegs ∧ THM_IRQ_CAUSE ≠ THM_HK i := by decide
  obtain ⟨hevt, hcause⟩ := hregs i
  have hround (y : State) (c : Nat × Nat) (bad : Bool) : (y.adcRound c bad (THM_HK_BROKEN i) 2 i).1.get (THM_HK_CODE i) = y.get (THM_HK_CODE i) := by
    have hbroken (b : Bool) : (y.putB (THM_HK_BROKEN i) b).get (THM_HK_CODE i) = y.get (THM_HK_CODE i) :=
      State.get_putB_apart _ _ _ _ rfl (Fld.apart_of_bits rfl)
    have hreport (n : Nat) : ((y.putB (THM_HK_BROKEN i) true).report Ev.SENSOR_BROKEN i [2, n] THM_IRQ_CAUSE_BROKEN).get (THM_HK_CODE i) =
        y.get (THM_HK_CODE i) := (State.get_report _ _ _ _ rfl hcause hevt).trans (hbroken true)
    unfold State.adcRound
    dsimp only
    split_ifs
    · exact hreport 1
    · exact hbroken false
    · rfl
    · exact hreport 1
    · exact hbroken false
    · rfl
  rw [State.readHk_eq]
  refine (hround _ _ _).trans ((State.get_put_same _ _ _ rfl).trans ?_)
  exact Nat.mod_eq_of_lt w.isLt

/-- The eighth bad round in succession of a thermistor breaks it. -/
theorem State.readExt_breaks (s : State) (w : BitVec 12) (hlen : (s.thm.ext.getD 0 (0, 0)).1 = 7) (hbad : w.toNat ≤ 15 ∨ 4080 ≤ w.toNat)
    (hbroken : s.on (THM_EXT_BROKEN 0) = false) :
    (s.readExt (w, 0)).on (THM_EXT_BROKEN 0) = true ∧ Posts s (s.readExt (w, 0)) Ev.SENSOR_BROKEN 0 [1, 1] := by
  have hbad' : (Nat.ble w.toNat 15 || Nat.ble 4080 w.toNat) = true := by simpa [Nat.ble_eq] using hbad
  have honly : ThmOnly s (s.putS (THM_EXT_T 0) (s.extValue 0 w.toNat)) := (ThmOnly.refl s).put _ _
  have hkeeps : Keeps s (s.putS (THM_EXT_T 0) (s.extValue 0 w.toNat)) [THM_EXT 0] := (Keeps.refl s _).put _ _ (by decide)
  have hkept : (s.putS (THM_EXT_T 0) (s.extValue 0 w.toNat)).on (THM_EXT_BROKEN 0) = false :=
    (State.on_put_apart _ _ _ _ rfl (by decide)).trans hbroken
  rw [State.readExt_eq, hbad']
  generalize s.putS (THM_EXT_T 0) (s.extValue 0 w.toNat) = y at *
  have heff : (y.adcRound (s.thm.ext.getD 0 (0, 0)) true (THM_EXT_BROKEN 0) 1 0).1 =
      (y.putB (THM_EXT_BROKEN 0) true).report Ev.SENSOR_BROKEN 0 [1, 1] THM_IRQ_CAUSE_BROKEN := by
    have hcount : 8 ≤ (s.thm.ext.getD 0 (0, 0)).1 + 1 := by omega
    exact congrArg Prod.fst (if_pos ⟨by simp [hkept], hcount⟩)
  have hposts : Posts s ((y.putB (THM_EXT_BROKEN 0) true).report Ev.SENSOR_BROKEN 0 [1, 1] THM_IRQ_CAUSE_BROKEN) Ev.SENSOR_BROKEN 0 [1, 1] :=
    (Posts.of_event s _ _ _ _ (honly.put _ _).hif (honly.put _ _).time ((hkeeps.putB (THM_EXT_BROKEN 0) true (by decide)) _ (by decide)) (by decide)).cause _
  have hon : ((y.putB (THM_EXT_BROKEN 0) true).report Ev.SENSOR_BROKEN 0 [1, 1] THM_IRQ_CAUSE_BROKEN).on (THM_EXT_BROKEN 0) = true :=
    (State.on_eq_of_get _ _ _ (State.get_report _ _ _ _ rfl (by decide) (by decide))).trans (State.on_putB_same _ _ _ rfl)
  rw [← heff] at hposts hon
  dsimp only
  generalize y.adcRound _ true (THM_EXT_BROKEN 0) 1 0 = r at *
  exact ⟨hon, hposts⟩

/-- The inputs of a round. -/
def State.inputsRead (s : State) (ext hk : List (BitVec 12)) : State :=
  (hk.take 32).zipIdx.foldl State.readHk ((ext.take 32).zipIdx.foldl State.readExt s)

theorem InputStep.inputsRead (s : State) (ext hk : List (BitVec 12)) : InputStep inputsWrite s (s.inputsRead ext hk) :=
  (InputStep.extRound s fun _ he => mem_zipIdx_take he).trans (InputStep.hkRound _ fun _ he => mem_zipIdx_take he)

theorem State.inputsRead_code (s : State) {ext hk : List (BitVec 12)} (hlen : hk.length = 32) (k : Fin 32) :
    (s.inputsRead ext hk).get (THM_HK_CODE k) = (hk.getD k 0).toNat := by
  have hk' : k.val < (hk.take 32).length := (List.length_take_of_le hlen.ge).symm ▸ k.isLt
  have hregs : ∀ k : Fin 32, THM_HK k ∉ evtRegs ∧ THM_HK k ≠ THM_IRQ_CAUSE := by decide
  obtain ⟨A, B, hcut, -, hB⟩ := zipIdx_split (hk.take 32) k hk'
  have hin : ∀ e ∈ B, e.2 < 32 := fun e he => by
    refine mem_zipIdx_take (l := hk) ?_
    rw [hcut]
    exact List.mem_append_right _ (List.mem_cons_of_mem _ he)
  have hcode : (hk.take 32)[k.val] = hk.getD k 0 := by
    rw [List.getElem_take, List.getD_eq_getElem _ _ (k.isLt.trans_eq hlen.symm)]
  unfold State.inputsRead
  rw [hcut, List.foldl_append, List.foldl_cons, hcode]
  have hread := State.readHk_code (A.foldl State.readHk ((ext.take 32).zipIdx.foldl State.readExt s)) (hk.getD k 0) k
  generalize State.readHk _ _ = y at *
  refine (foldl_keeps_mem (fun y : State => y.get (THM_HK_CODE k)) (fun y e he => ?_) y).trans hread
  refine (InputStep.readHk y e).toActs.get (THM_HK_CODE k) ?_
  have hlt := hB e he
  have hregs := hregs k
  refine not_or.mpr ⟨fun e' => ?_, not_or.mpr ⟨hregs.2, hregs.1⟩⟩
  unfold THM_HK_CODE THM_HK at e'
  dsimp only at e'
  omega

end Inputs

/-! ### The end of a round (R367, R516) -/

section RoundEnd
variable {s x : State}

/-- The registers of a bar's board. -/
def boardWrites (a : Nat) : Prop := 0x20600 ≤ a ∧ a ≠ PAR_STATUS

theorem boardWrites_bar (q : Fin 8) : boardWrites (LED_BOARD_T q) ∧ boardWrites (LED_BAR_STATUS q) := by
  unfold boardWrites
  revert q
  decide

theorem Quiet.boardTemp (s : State) (q : Fin 8) : Quiet boardWrites s.thm s (s.boardTemp q) := by
  obtain ⟨hboard, hbar⟩ := boardWrites_bar q
  have hevt : ∀ a ∈ evtRegs, boardWrites a := by unfold boardWrites; decide
  have hcause : boardWrites LED_IRQ_CAUSE := by unfold boardWrites; decide
  unfold State.boardTemp
  extract_lets i broken t was cut f s1 s2 s3
  have h1 : Quiet boardWrites s.thm s s1 := ((Quiet.refl s).putS (LED_BOARD_T_T q) t hboard).putB (LED_BAR_STATUS_CUTOFF q) cut hbar
  have h2 : Quiet boardWrites s.thm s s2 := by
    unfold s2
    split
    · exact h1
    · exact (h1.put (LED_BOARD_T_F_T q) _ hboard).putB (LED_BAR_STATUS_DERATE q) _ hbar
  have h3 : Quiet boardWrites s.thm s s3 := by
    unfold s3
    split_ifs
    · exact h2.report _ _ _ _ hevt hcause
    · exact h2.event _ _ _ hevt
    · exact h2
  exact h3.putB _ _ hcause

/-- The throttle counter and the boards end a round. -/
def State.roundEnd (s : State) : State :=
  let s4 := if s.thm.throt then s.addSat THM_THROTTLE_MS_MS 1 else s
  if s4.islandRuns 15 then (List.range 8).foldl (fun (s : State) (q : Nat) => s.boardTemp q) s4 else s4

/-- The registers of a round's end. -/
def endWrites (a : Nat) : Prop := boardWrites a ∨ a = THM_THROTTLE_MS

theorem Quiet.boards (s : State) : Quiet boardWrites s.thm s ((List.range 8).foldl (fun (s : State) (q : Nat) => s.boardTemp q) s) := by
  refine List.foldlRecOn (motive := fun x : State => Quiet boardWrites s.thm s x) _ _ (Quiet.refl s) fun y hy q hq => ?_
  have hboard := Quiet.boardTemp y ⟨q, List.mem_range.mp hq⟩
  rw [hy.thm] at hboard
  exact hy.trans hboard

theorem Quiet.roundEnd (s : State) : Quiet endWrites s.thm s s.roundEnd := by
  have hcount : Quiet endWrites s.thm s (if s.thm.throt then s.addSat THM_THROTTLE_MS_MS 1 else s) := by
    split
    · exact (Quiet.refl s).put _ _ (.inr rfl)
    · exact Quiet.refl s
  unfold State.roundEnd
  dsimp only
  generalize (if s.thm.throt then s.addSat THM_THROTTLE_MS_MS 1 else s) = y at *
  split
  · have hboards := (Quiet.boards y).mono (V := endWrites) fun _ h => .inl h
    rw [hcount.thm] at hboards
    exact hcount.trans hboards
  · exact hcount

/-- While the throttle level stands a round adds 1 to the counter (R516). -/
theorem State.roundEnd_throttled (hthrot : s.thm.throt = true) :
    s.roundEnd.get THM_THROTTLE_MS_MS = min (2 ^ 32 - 1) (s.get THM_THROTTLE_MS_MS + 1) := by
  have hcount : (s.addSat THM_THROTTLE_MS_MS 1).get THM_THROTTLE_MS_MS = min (2 ^ 32 - 1) (s.get THM_THROTTLE_MS_MS + 1) :=
    State.get_addSat_same _ _ _ rfl
  have hnot : ¬boardWrites THM_THROTTLE_MS := by unfold boardWrites; decide
  unfold State.roundEnd
  rw [if_pos hthrot]
  dsimp only
  generalize s.addSat THM_THROTTLE_MS_MS 1 = y at *
  split
  · exact ((Quiet.boards y).toActs.get THM_THROTTLE_MS_MS hnot).trans hcount
  · exact hcount

end RoundEnd

end Sys2Proof.Machine

namespace Sys2Proof.Machine

/-! ### Slow rounds and fast reads (R512, R514 to R516) -/

section SlowRound
variable {s x : State} {die : List (BitVec 16)} {ext hk : List (BitVec 12)} {l : List (BitVec 16 × Nat)} {slow : Bool} {a : Nat} {w : BitVec 16}

theorem State.slowRound_eq (s : State) (die : List (BitVec 16)) (ext hk : List (BitVec 12)) :
    s.slowRound die ext hk = ((die.take 24).zipIdx.foldl (State.readDie true) (s.inputsRead ext hk)).roundEnd := rfl

/-- Readings leave a register that none of them writes. -/
theorem Acts.readings (hl : ∀ e ∈ l, ¬readWrites e.2 a) (s : State) : Acts (fun b => b ≠ a) s (l.foldl (State.readDie slow) s) :=
  Acts.foldl l (fun y e he => (State.readDie_record slow y e).1.mono fun b h (hb : b = a) => hl e he (hb ▸ h)) s

theorem Acts.roundEnd_spares (s : State) (ha : ¬endWrites a) : Acts (fun b => b ≠ a) s s.roundEnd :=
  (Quiet.roundEnd s).toActs.mono fun _ h hb => ha (hb ▸ h)

theorem Acts.inputs_spares (s : State) (ha : ¬inputsWrite a) : Acts (fun b => b ≠ a) s (s.inputsRead ext hk) :=
  (InputStep.inputsRead s ext hk).toActs.mono fun _ h hb => ha (hb ▸ h)

theorem Acts.spares (h : Acts (fun b => b ≠ a) s x) : x.rget a = s.rget a := h.rget a fun hne => hne rfl

/-- The registers of the sensors, beside their own readings. -/
theorem thm_spared : (∀ k : Fin 24, ¬endWrites (THM_DIE k) ∧ ¬inputsWrite (THM_DIE k)) ∧ (∀ k : Fin 32, ¬endWrites (THM_HK k)) ∧
    ¬endWrites (THM_EXT 0) := by
  unfold endWrites boardWrites inputsWrite
  decide

theorem readWrites_not (h : 0x20000 ≤ a ∧ a < 0x20600) (hs : a ≠ THM_STATUS) (hd : ∀ k : Fin 24, a ≠ THM_DIE k) {i : Nat} (hi : i < 24) :
    ¬readWrites i a := by
  refine not_or.mpr ⟨hd ⟨i, hi⟩, ?_⟩
  unfold tempWrites levelWrites
  omega

/-- The readings of a round, cut at one sensor. -/
theorem dieRound_split (hlen : die.length = 24) (k : Fin 24) : ∃ A B : List (BitVec 16 × Nat),
    (die.take 24).zipIdx = A ++ (die.getD k 0, k.val) :: B ∧ (∀ e ∈ A, e.2 < k.val) ∧ (∀ e ∈ B, k.val < e.2 ∧ e.2 < 24) := by
  have htake : die.take 24 = die := List.take_of_length_le hlen.le
  have hk : k.val < die.length := k.isLt.trans_eq hlen.symm
  obtain ⟨A, B, hcut, hA, hB⟩ := zipIdx_split die k hk
  refine ⟨A, B, ?_, hA, fun e he => ⟨hB e he, ?_⟩⟩
  · rw [htake, hcut, List.getD_eq_getElem _ _ hk]
  · have hmem : e ∈ die.zipIdx := by
      rw [hcut]
      exact List.mem_append_right _ (List.mem_cons_of_mem _ he)
    exact (List.snd_lt_of_mem_zipIdx hmem).trans_eq hlen

/-- After its own reading nothing in a round changes a sensor's register. -/
theorem Acts.afterReading (k : Fin 24) (hl : ∀ e ∈ l, k.val < e.2) (s : State) : Acts (fun b => b ≠ THM_DIE k) s (l.foldl (State.readDie slow) s) :=
  Acts.readings (fun e he => readWrites_not_die k (hl e he).ne) s

theorem Acts.beforeReading (k : Fin 24) (hl : ∀ e ∈ l, e.2 < k.val) (s : State) : Acts (fun b => b ≠ THM_DIE k) s (l.foldl (State.readDie slow) s) :=
  Acts.readings (fun e he => readWrites_not_die k (hl e he).ne') s

/-- A round shows every reading (R512). -/
theorem State.slowRound_reads (s : State) (hdie : die.length = 24) (hhk : hk.length = 32) :
    let t := s.slowRound die ext hk
    (∀ k : Fin 24, t.dieT k = (die.getD k 0).toInt) ∧ ∀ k : Fin 32, t.get (THM_HK_CODE k) = (hk.getD k 0).toNat := by
  obtain ⟨hends, hcodes, -⟩ := thm_spared
  refine ⟨fun k => ?_, fun k => ?_⟩
  · obtain ⟨A, B, hcut, -, hB⟩ := dieRound_split hdie k
    rw [State.slowRound_eq, hcut, List.foldl_append, List.foldl_cons]
    have hread := State.readDie_temp true (A.foldl (State.readDie true) (s.inputsRead ext hk)) (die.getD k 0) k
    generalize State.readDie true _ _ = y at *
    have hafter := (Acts.afterReading (slow := true) k (fun e he => (hB e he).1) y).trans (Acts.roundEnd_spares _ (hends k).1)
    exact (congrArg (sgn 16) (State.get_eq_of_rget _ _ _ hafter.spares)).trans hread
  · have hrange : ∀ k : Fin 32, (0x20000 ≤ THM_HK k ∧ THM_HK k < 0x20600) ∧ THM_HK k ≠ THM_STATUS ∧ ∀ j : Fin 24, THM_HK k ≠ THM_DIE j := by decide
    obtain ⟨hrange, hstatus, hne⟩ := hrange k
    have hcode := s.inputsRead_code (ext := ext) hhk k
    rw [State.slowRound_eq]
    generalize s.inputsRead ext hk = y at *
    have hafter := (Acts.readings (slow := true) (fun e he => readWrites_not hrange hstatus hne (mem_zipIdx_take (l := die) he)) y).trans
      (Acts.roundEnd_spares _ (hcodes k))
    exact (State.get_eq_of_rget _ _ _ hafter.spares).trans hcode

/-- Readings without a held latch: it stays so, and RST_ISLAND of the host's island stays. -/
theorem State.calmReadings (hl : ∀ e ∈ l, e.2 < 24) (hlatch : s.thm.latchHold = false) :
    HostStays s (l.foldl (State.readDie slow) s) ∧ (l.foldl (State.readDie slow) s).thm.latchHold = false := by
  have hisland : ∀ i : Fin 24, ¬calmWrites i (RST_ISLAND 1) := by
    unfold calmWrites heldWrites shutWrites levelWrites
    decide
  refine List.foldlRecOn (motive := fun y => HostStays s y ∧ y.thm.latchHold = false) l _ ⟨HostStays.refl s, hlatch⟩ fun y hy e he => ?_
  obtain ⟨hacts, hlatch'⟩ := (State.readDie_record slow y e).2.2.2 hy.2
  exact ⟨hy.1.trans ⟨hacts.toGoesOn, hacts.rget _ (hisland ⟨e.2, hl e he⟩)⟩, hlatch'⟩

theorem HostStays.inputsRead (s : State) (ext hk : List (BitVec 12)) : HostStays s (s.inputsRead ext hk) := by
  have hisland : ¬inputsWrite (RST_ISLAND 1) := by unfold inputsWrite; decide
  have hacts := (InputStep.inputsRead s ext hk).toActs
  exact ⟨hacts.toGoesOn, hacts.rget _ hisland⟩

/-- An event of a command's later part is the command's. -/
theorem PostsSome.after {code u : Nat} {y : State} (h : PostsSome x y code u) (hstays : HostStays s x) : PostsSome s y code u :=
  h.later hstays.toGoesOn fun hrun => (State.islandRuns_congr _ _ _ hstays.island).trans hrun

/-- A reading out of range breaks its sensor in a round (R514). -/
theorem State.slowRound_breaks (s : State) (k : Fin 24) (hdie : die.length = 24)
    (hrange : (die.getD k 0).toInt < -3520 ∨ 9600 < (die.getD k 0).toInt) (hbroken : s.on (THM_DIE_BROKEN k) = false) (hlatch : s.thm.latchHold = false) :
    let t := s.slowRound die ext hk
    t.on (THM_DIE_BROKEN k) = true ∧ t.get (THM_DIE_REASON k) = 1 ∧ PostsSome s t Ev.SENSOR_BROKEN k := by
  obtain ⟨hspared, -, -⟩ := thm_spared
  obtain ⟨A, B, hcut, hA, hB⟩ := dieRound_split hdie k
  have hinputs := HostStays.inputsRead s ext hk
  have hlatch' : (s.inputsRead ext hk).thm.latchHold = false := (congrArg Thm.latchHold (InputStep.inputsRead s ext hk).thm).trans hlatch
  have hfirst : (s.inputsRead ext hk).rget (THM_DIE k) = s.rget (THM_DIE k) := (Acts.inputs_spares s (hspared k).2).spares
  rw [State.slowRound_eq, hcut, List.foldl_append, List.foldl_cons]
  generalize s.inputsRead ext hk = u at *
  have hbefore := (Acts.beforeReading (slow := true) k hA u).spares
  obtain ⟨hcalm, -⟩ := State.calmReadings (slow := true) (fun e he => (hA e he).trans k.isLt) hlatch'
  generalize A.foldl (State.readDie true) u = y at *
  have hbroken' : y.on (THM_DIE_BROKEN k) = false :=
    (State.on_eq_of_get _ _ _ (State.get_eq_of_rget _ _ (THM_DIE_BROKEN k) (hbefore.trans hfirst))).trans hbroken
  obtain ⟨hon, hreason, -, hposts⟩ := State.dieRead_breaks true y k (die.getD k 0) hrange hbroken'
  rw [State.readDie_eq]
  generalize y.dieRead true k (die.getD k 0).toInt = z at *
  have hlevels := (z.evalLevels_record k).1
  have hkept : Acts (fun b => b ≠ THM_DIE k) z (z.evalLevels k) := hlevels.mono fun _ h hb => tempWrites_not_die k (hb ▸ h)
  generalize z.evalLevels k = z' at *
  have hall := (hkept.trans (Acts.afterReading (slow := true) k (fun e he => (hB e he).1) z')).trans (Acts.roundEnd_spares _ (hspared k).1)
  exact ⟨(State.on_eq_of_get _ _ _ (State.get_eq_of_rget _ _ (THM_DIE_BROKEN k) hall.spares)).trans hon,
    (State.get_eq_of_rget _ _ (THM_DIE_REASON k) hall.spares).trans hreason, (hposts.acts hall).after (hinputs.trans hcalm)⟩

/-- The eighth bad round in succession breaks thermistor 0. -/
theorem State.slowRound_extBreaks (s : State) (hext : ext.length = 32) (hcount : (s.thm.ext.getD 0 (0, 0)).1 = 7)
    (hbad : (ext.getD 0 0).toNat ≤ 15 ∨ 4080 ≤ (ext.getD 0 0).toNat) (hbroken : s.on (THM_EXT_BROKEN 0) = false) :
    let t := s.slowRound die ext hk
    t.on (THM_EXT_BROKEN 0) = true ∧ Posts s t Ev.SENSOR_BROKEN 0 [1, 1] := by
  obtain ⟨-, -, hend⟩ := thm_spared
  have hlen : 0 < (ext.take 32).length := by rw [List.length_take_of_le hext.ge]; decide
  obtain ⟨A, B, hcut, hA, hB⟩ := zipIdx_split (ext.take 32) 0 hlen
  have hnil : A = [] := List.eq_nil_iff_forall_not_mem.mpr fun e he => absurd (hA e he) (Nat.not_lt_zero _)
  have hin : ∀ e ∈ B, e.2 < 32 := fun e he => by
    refine mem_zipIdx_take (l := ext) ?_
    rw [hcut]
    exact List.mem_append_right _ (List.mem_cons_of_mem _ he)
  have hhead : (ext.take 32)[0] = ext.getD 0 0 := by rw [List.getElem_take, List.getD_eq_getElem]
  have hrange : (0x20000 ≤ THM_EXT 0 ∧ THM_EXT 0 < 0x20600) ∧ THM_EXT 0 ≠ THM_STATUS ∧ ∀ j : Fin 24, THM_EXT 0 ≠ THM_DIE j := by decide
  have hregs : THM_EXT 0 ∉ evtRegs ∧ THM_EXT 0 ≠ THM_IRQ_CAUSE := by decide
  obtain ⟨hrange, hstatus, hne⟩ := hrange
  obtain ⟨hon, hposts⟩ := s.readExt_breaks (ext.getD 0 0) hcount hbad hbroken
  rw [State.slowRound_eq, State.inputsRead, hcut, hnil, List.nil_append, List.foldl_cons, hhead]
  generalize s.readExt (ext.getD 0 0, 0) = y at *
  have hexts : Acts (fun b => b ≠ THM_EXT 0) y (B.foldl State.readExt y) :=
    Acts.foldl B (fun z e he => (InputStep.readExt z e).toActs.mono fun b hb e' => by
      have hpos := hB e he
      have hlt := hin e he
      have hown : THM_EXT 0 ≠ THM_EXT e.2 := by unfold THM_EXT; omega
      subst e'
      exact hb.elim hown (fun h => h.elim hregs.2 hregs.1)) y
  have hhks : ∀ z, Acts (fun b => b ≠ THM_EXT 0) z ((hk.take 32).zipIdx.foldl State.readHk z) := fun z =>
    Acts.foldl _ (fun z e he => (InputStep.readHk z e).toActs.mono fun b hb e' => by
      have hlt := mem_zipIdx_take he
      have hown : THM_EXT 0 ≠ THM_HK e.2 := by unfold THM_EXT THM_HK; omega
      subst e'
      exact hb.elim hown (fun h => h.elim hregs.2 hregs.1)) z
  have hall := ((hexts.trans (hhks _)).trans (Acts.readings (slow := true) (l := (die.take 24).zipIdx)
    (fun e he => readWrites_not hrange hstatus hne (mem_zipIdx_take he)) _)).trans (Acts.roundEnd_spares _ hend)
  exact ⟨(State.on_eq_of_get _ _ _ (State.get_eq_of_rget _ _ (THM_EXT_BROKEN 0) hall.spares)).trans hon, hposts.extends hall.toExtends⟩

end SlowRound

end Sys2Proof.Machine

namespace Sys2Proof.Machine

/-! ### Rounds of one temperature (R515, R516, R518) -/

section OneTemperature
variable {s x u : State} {w : BitVec 16} {ext hk : List (BitVec 12)} {i : Nat}

/-- The levels of `x` are those of `s`. -/
structure SameLevels (s x : State) : Prop where
  level0 : x.rget THM_LEVEL0 = s.rget THM_LEVEL0
  level1 : x.rget THM_LEVEL1 = s.rget THM_LEVEL1

theorem SameLevels.refl (s : State) : SameLevels s s := ⟨rfl, rfl⟩
theorem SameLevels.warn (h : SameLevels s x) : x.thrWarn = s.thrWarn := congrArg (sgn 16) (State.get_eq_of_rget _ _ THM_LEVEL0_WARN h.level0)
theorem SameLevels.throttle (h : SameLevels s x) : x.thrThrottle = s.thrThrottle :=
  congrArg (sgn 16) (State.get_eq_of_rget _ _ THM_LEVEL0_THROTTLE h.level0)
theorem SameLevels.shut (h : SameLevels s x) : x.thrShut = s.thrShut := congrArg (sgn 16) (State.get_eq_of_rget _ _ THM_LEVEL1_SHUT h.level1)
theorem SameLevels.hyst (h : SameLevels s x) : x.thrHyst = s.thrHyst := congrArg (sgn 16) (State.get_eq_of_rget _ _ THM_LEVEL1_HYST h.level1)

theorem levels_spared : (∀ i : Fin 24, ¬readWrites i THM_LEVEL0 ∧ ¬readWrites i THM_LEVEL1 ∧ ¬readWrites i THM_THROTTLE_MS) ∧
    ¬inputsWrite THM_LEVEL0 ∧ ¬inputsWrite THM_LEVEL1 ∧ ¬inputsWrite THM_THROTTLE_MS := by
  unfold readWrites tempWrites levelWrites inputsWrite
  decide

theorem SameLevels.acts {W : Nat → Prop} {y : State} (h : SameLevels s x) (hacts : Acts W x y) (h0 : ¬W THM_LEVEL0) (h1 : ¬W THM_LEVEL1) : SameLevels s y :=
  ⟨(hacts.rget _ h0).trans h.level0, (hacts.rget _ h1).trans h.level1⟩

/-- A reading of a sensor, without the levels, keeps them. -/
theorem SameLevels.dieRead (h : SameLevels s x) (slow : Bool) (i : Fin 24) (v : Int) : SameLevels s (x.dieRead slow i v) := by
  obtain ⟨h0, h1, -⟩ := levels_spared.1 i
  exact h.acts (Sensed.dieRead slow x i v).toActs (fun hd => h0 (calmWrites_read (dieWrites_calm hd))) fun hd => h1 (calmWrites_read (dieWrites_calm hd))

theorem SameLevels.evalLevels (h : SameLevels s x) (i : Nat) : SameLevels s (x.evalLevels i) := by
  obtain ⟨h0, h1, -⟩ := levels_spared.1 0
  exact h.acts (x.evalLevels_record i).1 (fun hd => h0 (.inr hd)) fun hd => h1 (.inr hd)

/-- A round in which the throttle level stands: every sensor read so far shows the same temperature. -/
structure Throttled (s : State) (v : Int) (x : State) : Prop where
  levels : SameLevels s x
  all : x.AllRead v
  throt : x.thm.throt = true
  counter : x.rget THM_THROTTLE_MS = s.rget THM_THROTTLE_MS

theorem Throttled.read (h : Throttled s w.toInt x) (hlevel : s.thrThrottle - s.thrHyst ≤ w.toInt) (i : Fin 24) :
    Throttled s w.toInt (State.readDie true x (w, i.val)) := by
  obtain ⟨-, -, hms⟩ := levels_spared.1 i
  have hread := (State.readDie_record true x (w, i.val)).1.rget _ hms
  have hlevels := h.levels.dieRead true i w.toInt
  have hall := h.all.dieRead true i
  have hthrot : (x.dieRead true i w.toInt).thm.throt = true := (congrArg Thm.throt (Sensed.dieRead true x i w.toInt).thm).trans h.throt
  rw [State.readDie_eq] at hread ⊢
  dsimp only at hread ⊢
  generalize x.dieRead true i w.toInt = y at *
  refine ⟨hlevels.evalLevels i, hall.evalLevels i, ?_, hread.trans h.counter⟩
  rcases State.tDie_read hall with hnone | hsome
  · rw [(y.evalLevels_lost hnone i).thm]
    exact hthrot
  · obtain ⟨-, hthm⟩ := State.evalLevels_acts hsome i
    rw [hthm]
    show latched y.thm.throt y.thrThrottle y.thrHyst w.toInt = true
    rw [hthrot, hlevels.throttle, hlevels.hyst]
    exact latched_stays hlevel

/-- The readings of a round of one temperature. -/
theorem mem_replicate_zipIdx {e : BitVec 16 × Nat} (h : e ∈ ((List.replicate 24 w).take 24).zipIdx) : ∃ i : Fin 24, e = (w, i.val) := by
  have hval : e.1 ∈ (List.replicate 24 w).take 24 := List.fst_mem_of_mem_zipIdx h
  exact ⟨⟨e.2, mem_zipIdx_take h⟩, Prod.ext (List.eq_of_mem_replicate (List.mem_of_mem_take hval)) rfl⟩

/-- A predicate that readings of one temperature keep holds after them. -/
theorem readings_keep {P : State → Prop} {l : List (BitVec 16 × Nat)} (hl : ∀ e ∈ l, ∃ i : Fin 24, i.val ≠ 0 ∧ e = (w, i.val))
    (hP : ∀ y, P y → ∀ i : Fin 24, i.val ≠ 0 → P (State.readDie true y (w, i.val))) (hx : P x) : P (l.foldl (State.readDie true) x) :=
  List.foldlRecOn (motive := P) l _ hx fun y hy e he => by
    obtain ⟨i, hi, rfl⟩ := hl e he
    exact hP y hy i hi

theorem State.slowRound_throttles (s : State) (hthrot : s.thm.throt = true) (hseen : ∀ k : Fin 24, (s.dieS k).seen = false)
    (hlevel : s.thrThrottle - s.thrHyst ≤ w.toInt) :
    (s.slowRound (List.replicate 24 w) ext hk).get THM_THROTTLE_MS_MS = min (2 ^ 32 - 1) (s.get THM_THROTTLE_MS_MS + 1) := by
  obtain ⟨-, h0, h1, hms⟩ := levels_spared
  have hinputs := InputStep.inputsRead s ext hk
  have hstart : Throttled s w.toInt (s.inputsRead ext hk) := by
    refine ⟨(SameLevels.refl s).acts hinputs.toActs h0 h1, fun k hk' => ?_, (congrArg Thm.throt hinputs.thm).trans hthrot, hinputs.rget _ hms⟩
    have hdie : ((s.inputsRead ext hk).dieS k).seen = (s.dieS k).seen := by
      rw [State.dieS, hinputs.die, State.dieS]
    rw [hdie, hseen k] at hk'
    exact absurd hk' (by decide)
  rw [State.slowRound_eq]
  generalize s.inputsRead ext hk = u at *
  have hround := List.foldlRecOn (motive := Throttled s w.toInt) ((List.replicate 24 w).take 24).zipIdx (State.readDie true) hstart fun y hy e he => by
    obtain ⟨i, rfl⟩ := mem_replicate_zipIdx he
    exact hy.read hlevel i
  generalize List.foldl (State.readDie true) u _ = y at *
  rw [State.roundEnd_throttled hround.throt, State.get_eq_of_rget _ _ THM_THROTTLE_MS_MS hround.counter]

/-! ### The first sensor is read and valid -/

/-- Sensor 0 is valid, and every sensor read so far shows the same temperature. -/
structure Warm (v : Int) (x : State) : Prop where
  all : x.AllRead v
  seen : (x.dieS 0).seen = true
  valid : x.on (THM_DIE_BROKEN 0) = false

theorem Warm.tDie {v : Int} (h : Warm v x) : x.tDie = some v := State.tDie_valid h.all 0 h.seen h.valid

theorem Warm.dieRead (h : Warm w.toInt x) (i : Fin 24) (hi : i.val ≠ 0) : Warm w.toInt (x.dieRead true i w.toInt) := by
  have hsensed := Sensed.dieRead true x i w.toInt
  have hnot : ¬dieWrites i (THM_DIE 0) := fun hd => readWrites_not_die 0 (Ne.symm hi) (calmWrites_read (dieWrites_calm hd))
  exact ⟨h.all.dieRead true i, (hsensed.seen 0 (Ne.symm hi)).trans h.seen,
    (State.on_eq_of_get _ _ _ (hsensed.toActs.get (THM_DIE_BROKEN 0) hnot)).trans h.valid⟩

theorem Warm.evalLevels {v : Int} (h : Warm v x) (i : Nat) : Warm v (x.evalLevels i) := by
  obtain ⟨hacts, hdie, -⟩ := x.evalLevels_record i
  refine ⟨h.all.evalLevels i, ?_, (State.on_eq_of_get _ _ _ (hacts.get (THM_DIE_BROKEN 0) (tempWrites_not_die 0))).trans h.valid⟩
  rw [State.dieS, hdie]
  exact h.seen

/-- The round of one temperature: what the inputs leave, sensor 0, and the others. -/
theorem State.slowRound_warm (s : State) (ext hk : List (BitVec 12)) (hlen : s.thm.die.length = 24) (hseen : ∀ k : Fin 24, (s.dieS k).seen = false)
    (hbroken : s.on (THM_DIE_BROKEN 0) = false) (hlo : -3520 ≤ w.toInt) (hhi : w.toInt ≤ 9600) :
    ∃ (y : State) (l : List (BitVec 16 × Nat)), s.slowRound (List.replicate 24 w) ext hk = (l.foldl (State.readDie true) (y.evalLevels 0)).roundEnd ∧
      (∀ e ∈ l, ∃ i : Fin 24, i.val ≠ 0 ∧ e = (w, i.val)) ∧ Warm w.toInt y ∧ SameLevels s y ∧ HostStays s y ∧
      { y.thm with die := [] }.sansInputs = { s.thm with die := [] }.sansInputs := by
  obtain ⟨-, h0, h1, -⟩ := levels_spared
  obtain ⟨A, B, hcut, hA, hB⟩ := dieRound_split (die := List.replicate 24 w) rfl 0
  have hnil : A = [] := List.eq_nil_iff_forall_not_mem.mpr fun e he => absurd (hA e he) (Nat.not_lt_zero _)
  have hhead : (List.replicate 24 w).getD (0 : Fin 24) 0 = w := rfl
  have hsplit : s.slowRound (List.replicate 24 w) ext hk =
      (B.foldl (State.readDie true) (((s.inputsRead ext hk).dieRead true (0 : Fin 24) w.toInt).evalLevels 0)).roundEnd := by
    rw [State.slowRound_eq, hcut, hnil, List.nil_append, List.foldl_cons, hhead]
    rfl
  have hl : ∀ e ∈ B, ∃ i : Fin 24, i.val ≠ 0 ∧ e = (w, i.val) := fun e he => by
    obtain ⟨i, rfl⟩ := mem_replicate_zipIdx (w := w) (e := e) (hcut ▸ List.mem_append_right _ (List.mem_cons_of_mem _ he))
    exact ⟨i, (hB _ he).1.ne', rfl⟩
  have hinputs := InputStep.inputsRead s ext hk
  have hlevels := (SameLevels.refl s).acts hinputs.toActs h0 h1
  have hstays := HostStays.inputsRead s ext hk
  have hdies : (s.inputsRead ext hk).thm.die = s.thm.die := hinputs.die
  have hkept : (s.inputsRead ext hk).rget (THM_DIE 0) = s.rget (THM_DIE 0) := (Acts.inputs_spares s (thm_spared.1 0).2).spares
  have hthm := hinputs.thm
  refine ⟨_, B, hsplit, hl, ?_⟩
  generalize s.inputsRead ext hk = u at *
  have hlen' : (0 : Fin 24).val < u.thm.die.length := by rw [hdies, hlen]; decide
  have hunseen (k : Fin 24) : (u.dieS k).seen = false := by
    rw [State.dieS, hdies]
    exact hseen k
  have hall : u.AllRead w.toInt := fun k hk' => by
    rw [hunseen k] at hk'
    exact absurd hk' (by decide)
  have hvalid := u.dieRead_first w hlo hhi hunseen ((State.on_eq_of_get _ _ _ (State.get_eq_of_rget _ _ (THM_DIE_BROKEN 0) hkept)).trans hbroken)
  have hsensed := Sensed.dieRead true u (0 : Fin 24) w.toInt
  have hisland : ¬dieWrites (0 : Fin 24) (RST_ISLAND 1) := by
    unfold dieWrites quietWrites
    decide
  refine ⟨⟨hall.dieRead true 0, State.dieRead_seen true _ hlen', hvalid⟩, hlevels.dieRead true 0 _,
    hstays.trans ⟨hsensed.toGoesOn, hsensed.rget _ hisland⟩, ?_⟩
  rw [hsensed.thm]
  exact congrArg (fun r : Thm => { r with die := [] }) hthm

end OneTemperature

end Sys2Proof.Machine

namespace Sys2Proof.Machine

/-! ### A warm round (R515) and a hot one (R518) -/

section Thermal
variable {s x y : State} {w : BitVec 16} {die : List (BitVec 16)} {ext hk : List (BitVec 12)} {slow : Bool}

/-- A round at WARN, below SHUT. -/
structure Warned (s : State) (v : Int) (x : State) : Prop extends Warm v x where
  levels : SameLevels s x
  warn : x.thm.warn = true
  temp : x.getS THM_STATUS_T_DIE = v

/-- What an evaluation at WARN shows. -/
theorem Warned.of_eval (hwarm : Warm w.toInt x) (hlevels : SameLevels s x) (hlevel : s.thrWarn ≤ w.toInt) (hbelow : w.toInt < s.thrShut)
    (hhyst : 0 ≤ s.thrHyst) (i : Nat) : Warned s w.toInt (x.evalLevels i) := by
  obtain ⟨-, hthm⟩ := State.evalLevels_acts hwarm.tDie i
  refine ⟨hwarm.evalLevels i, hlevels.evalLevels i, ?_, State.evalLevels_temp hwarm.tDie (hlevels.shut ▸ hbelow) i⟩
  rw [hthm]
  show latched x.thm.warn x.thrWarn x.thrHyst w.toInt = true
  rw [hlevels.warn, hlevels.hyst]
  exact latched_above _ hhyst hlevel

theorem statusFields_end : ¬endWrites THM_STATUS → ∀ x : State, x.roundEnd.getS THM_STATUS_T_DIE = x.getS THM_STATUS_T_DIE ∧
    x.roundEnd.get THM_STATUS_LEVEL = x.get THM_STATUS_LEVEL := fun h x =>
  ⟨congrArg (sgn 16) ((Quiet.roundEnd x).toActs.get THM_STATUS_T_DIE h), (Quiet.roundEnd x).toActs.get THM_STATUS_LEVEL h⟩

theorem endWrites_not : ¬endWrites THM_STATUS ∧ ¬endWrites PAR_STATUS ∧ ∀ k : Fin 17, ¬endWrites (RST_ISLAND k) := by
  unfold endWrites boardWrites
  decide

/-- The readings of sensors beside 0 only add entries. -/
theorem Acts.restReadings {l : List (BitVec 16 × Nat)} (hl : ∀ e ∈ l, ∃ i : Fin 24, i.val ≠ 0 ∧ e = (w, i.val)) (s : State) :
    Acts (fun b => b ≠ THM_DIE 0) s (l.foldl (State.readDie slow) s) :=
  Acts.readings (fun e he => by
    obtain ⟨i, hi, rfl⟩ := hl e he
    exact readWrites_not_die 0 (Ne.symm hi)) s

theorem State.slowRound_warns (s : State) (hlen : s.thm.die.length = 24) (hseen : ∀ k : Fin 24, (s.dieS k).seen = false)
    (hbroken : s.on (THM_DIE_BROKEN 0) = false) (hwarn : s.thm.warn = false) (hlo : -3520 ≤ w.toInt) (hhi : w.toInt ≤ 9600)
    (hlevel : s.thrWarn ≤ w.toInt) (hbelow : w.toInt < s.thrShut) (hhyst : 0 ≤ s.thrHyst) :
    let t := s.slowRound (List.replicate 24 w) ext hk
    t.getS THM_STATUS_T_DIE = w.toInt ∧ t.thm.warn = true ∧ PostsSome s t Ev.THM_WARN 0xFFFF := by
  obtain ⟨y, l, heff, hl, hwarm, hlevels, hstays, hthm⟩ := s.slowRound_warm ext hk hlen hseen hbroken hlo hhi
  have hwarn' : y.thm.warn = false := (congrArg (fun r : Thm => r.warn) hthm).trans hwarn
  have hposts := State.evalLevels_warns hwarm.tDie hwarn' (hlevels.warn ▸ hlevel) (hlevels.shut ▸ hbelow) 0
  have hfirst := Warned.of_eval hwarm hlevels hlevel hbelow hhyst 0
  rw [heff]
  generalize y.evalLevels 0 = z at *
  have hround := readings_keep (P := Warned s w.toInt) hl
    (fun u hu i hi => Warned.of_eval (hu.toWarm.dieRead i hi) (hu.levels.dieRead true i _) hlevel hbelow hhyst i) hfirst
  have hacts := Acts.restReadings (slow := true) hl z
  generalize l.foldl (State.readDie true) z = u at *
  have hend := Quiet.roundEnd u
  refine ⟨(statusFields_end endWrites_not.1 u).1.trans hround.temp, ?_, ((hposts.after hstays).acts hacts).acts hend.toActs⟩
  rw [hend.thm]
  exact hround.warn

/-- A round after the shutdown. -/
structure Hot (v : Int) (x : State) : Prop extends Warm v x where
  shut : x.thm.shut = true
  latch : x.thm.latchHold = false
  level : x.get THM_STATUS_LEVEL = 3
  down : ShutDown x

/-- LEVEL shows the record. -/
theorem State.evalLevels_level {t : Int} (ht : s.tDie = some t) (hshut : (s.evalLevels i).thm.shut = true) : (s.evalLevels i).get THM_STATUS_LEVEL = 3 := by
  rw [State.evalLevels_some ht] at hshut ⊢
  generalize State.evalWindow _ t = x at *
  have hx : x.thm.shut = true := (congrArg Thm.shut (State.put_thm ..)).symm.trans hshut
  rw [State.showLevel, hx]
  exact State.get_put_same _ _ _ rfl

/-- The shutdown stays through a reading. -/
theorem Hot.read (h : Hot w.toInt x) (i : Fin 24) (hi : i.val ≠ 0) : Hot w.toInt (State.readDie true x (w, i.val)) := by
  have hwarm := h.toWarm.dieRead i hi
  have hsensed := Sensed.dieRead true x i w.toInt
  have hnot : (∀ i : Fin 24, ¬dieWrites i PAR_STATUS) ∧ ∀ (i : Fin 24) (k : Fin 17), ¬dieWrites i (RST_ISLAND k) := by
    unfold dieWrites quietWrites
    decide
  have hquiet : ¬quietWrites PAR_STATUS ∧ ∀ k : Fin 17, ¬quietWrites (RST_ISLAND k) := by unfold quietWrites; decide
  have hshut : (x.dieRead true i w.toInt).thm.shut = true := (congrArg Thm.shut hsensed.thm).trans h.shut
  have hlatch : (x.dieRead true i w.toInt).thm.latchHold = false := (congrArg Thm.latchHold hsensed.thm).trans h.latch
  have hdown : ShutDown (x.dieRead true i w.toInt) := h.down.kept ⟨hsensed.toActs, hsensed.view, rfl⟩ (hnot.1 i) (hnot.2 i)
  rw [State.readDie_eq]
  dsimp only
  generalize x.dieRead true i w.toInt = y at *
  have heval := State.evalLevels_quiet hwarm.tDie hlatch hshut i
  have hshut' : (y.evalLevels i).thm.shut = true := by rw [heval.thm]; exact hshut
  exact ⟨hwarm.evalLevels i, hshut', by rw [heval.thm]; exact hlatch, State.evalLevels_level hwarm.tDie hshut', hdown.kept heval hquiet.1 hquiet.2⟩

theorem State.slowRound_shuts (s : State) (hlen : s.thm.die.length = 24) (hseen : ∀ k : Fin 24, (s.dieS k).seen = false)
    (hbroken : s.on (THM_DIE_BROKEN 0) = false) (hshut : s.thm.shut = false) (hlatch : s.thm.latchHold = false) (hlo : -3520 ≤ w.toInt)
    (hhi : w.toInt ≤ 9600) (hlevel : s.thrShut ≤ w.toInt) :
    let t := s.slowRound (List.replicate 24 w) ext hk
    t.thm.shut = true ∧ t.get THM_STATUS_LEVEL = 3 ∧ ShutDown t ∧ PostsSome s t Ev.THM_SHUTDOWN 0xFFFF := by
  obtain ⟨y, l, heff, hl, hwarm, hlevels, hstays, hthm⟩ := s.slowRound_warm ext hk hlen hseen hbroken hlo hhi
  have hshut' : y.thm.shut = false := (congrArg (fun r : Thm => r.shut) hthm).trans hshut
  have hlatch' : y.thm.latchHold = false := (congrArg (fun r : Thm => r.latchHold) hthm).trans hlatch
  obtain ⟨hdown, hshown, hposts⟩ := State.evalLevels_shuts hwarm.tDie hshut' hlatch' (hlevels.shut ▸ hlevel) 0
  obtain ⟨-, hrecord⟩ := State.evalLevels_acts hwarm.tDie 0
  have hset : (y.evalLevels 0).thm.shut = true := by
    rw [hrecord]
    show (y.thm.shut || decide (y.thrShut ≤ w.toInt)) = true
    simp [hlevels.shut, hlevel]
  have hfirst : Hot w.toInt (y.evalLevels 0) := ⟨hwarm.evalLevels 0, hset, ((y.evalLevels_record 0).2.2 hlatch').2, hshown, hdown⟩
  rw [heff]
  generalize y.evalLevels 0 = z at *
  have hround := readings_keep (P := Hot w.toInt) hl (fun u hu i hi => hu.read i hi) hfirst
  have hacts := Acts.restReadings (slow := true) hl z
  generalize l.foldl (State.readDie true) z = u at *
  have hend := Quiet.roundEnd u
  obtain ⟨hstatus, hauth, hisland⟩ := endWrites_not
  refine ⟨?_, (statusFields_end hstatus u).2.trans hround.level, hround.down.kept hend hauth hisland, ((hposts.after hstays).acts hacts).acts hend.toActs⟩
  rw [hend.thm]
  exact hround.shut

/-! ### Fast reads (R512) -/

/-- Without a fast group nothing is read. -/
theorem State.fastRead_none (h : ∀ k : Fin 24, s.on (THM_DIE_FAST k) = false) : s.fastRead die = s := by
  have hnil : (die.take 24).zipIdx.filter (fun e => s.on (THM_DIE_FAST e.2)) = [] := List.filter_eq_nil_iff.mpr fun e he => by
    simp [h ⟨e.2, mem_zipIdx_take he⟩]
  rw [State.fastRead, hnil, List.foldl_nil]

/-- The sensors of the fast group are read, the others not. -/
theorem State.fastRead_reads (hdie : die.length = 24) (k : Fin 24) :
    (s.fastRead die).dieT k = if s.on (THM_DIE_FAST k) = true then (die.getD k 0).toInt else s.dieT k := by
  obtain ⟨A, B, hcut, hA, hB⟩ := dieRound_split hdie k
  have hother {l : List (BitVec 16 × Nat)} (hl : ∀ e ∈ l, k.val ≠ e.2) (y : State) : (l.foldl (State.readDie false) y).dieT k = y.dieT k :=
    foldl_keeps_mem (fun y : State => y.dieT k) (fun z e he => State.readDie_other false z e k (hl e he)) y
  have hA' : ∀ e ∈ A.filter (fun e => s.on (THM_DIE_FAST e.2)), k.val ≠ e.2 := fun e he => (hA e (List.mem_of_mem_filter he)).ne'
  have hB' : ∀ e ∈ B.filter (fun e => s.on (THM_DIE_FAST e.2)), k.val ≠ e.2 := fun e he => (hB e (List.mem_of_mem_filter he)).1.ne
  rw [State.fastRead, hcut, List.filter_append, List.foldl_append]
  split
  · next hfast =>
    rw [List.filter_cons_of_pos (p := fun e : BitVec 16 × Nat => s.on (THM_DIE_FAST e.2)) (a := (die.getD k 0, k.val)) hfast, List.foldl_cons]
    exact (hother hB' _).trans (State.readDie_temp false _ _ k)
  · next hfast =>
    rw [List.filter_cons_of_neg (p := fun e : BitVec 16 × Nat => s.on (THM_DIE_FAST e.2)) (a := (die.getD k 0, k.val)) hfast]
    exact (hother hB' _).trans (hother hA' s)

/-- A reading of sensor 0 out of range breaks it. -/
theorem State.fastRead_breaks (hdie : die.length = 24) (hfast : s.on (THM_DIE_FAST 0) = true)
    (hrange : (die.getD 0 0).toInt < -3520 ∨ 9600 < (die.getD 0 0).toInt) (hbroken : s.on (THM_DIE_BROKEN 0) = false) :
    let t := s.fastRead die
    t.on (THM_DIE_BROKEN 0) = true ∧ t.get (THM_DIE_REASON 0) = 1 ∧ Posts s t Ev.SENSOR_BROKEN 0 [0, 1] := by
  obtain ⟨A, B, hcut, hA, hB⟩ := dieRound_split hdie 0
  have hnil : A = [] := List.eq_nil_iff_forall_not_mem.mpr fun e he => absurd (hA e he) (Nat.not_lt_zero _)
  obtain ⟨hon, hreason, hposts, -⟩ := State.dieRead_breaks false s 0 (die.getD (0 : Fin 24) 0) hrange hbroken
  rw [State.fastRead, hcut, hnil, List.nil_append,
    List.filter_cons_of_pos (p := fun e : BitVec 16 × Nat => s.on (THM_DIE_FAST e.2)) (a := (die.getD (0 : Fin 24) 0, (0 : Fin 24).val)) hfast,
    List.foldl_cons, State.readDie_eq]
  dsimp only
  generalize s.dieRead false _ _ = y at *
  have hkept : Acts (fun b => b ≠ THM_DIE (0 : Fin 24)) y (y.evalLevels (0 : Fin 24)) :=
    (y.evalLevels_record _).1.mono fun _ h hb => tempWrites_not_die 0 (hb ▸ h)
  have hrest := Acts.afterReading (slow := false) (l := B.filter (fun e => s.on (THM_DIE_FAST e.2))) 0
    (fun e he => (hB e (List.mem_of_mem_filter he)).1) (y.evalLevels (0 : Fin 24))
  have hall := hkept.trans hrest
  exact ⟨(State.on_eq_of_get _ _ _ (State.get_eq_of_rget _ _ (THM_DIE_BROKEN 0) hall.spares)).trans hon,
    (State.get_eq_of_rget _ _ (THM_DIE_REASON 0) hall.spares).trans hreason, hposts.extends hall.toExtends⟩

/-! ### The levels, and the end of a shutdown (R516, R519) -/

/-- A command whose effect is a write of a register. -/
theorem nextRset {c : Instr} {a : Nat} {v : Word} (h : exec c s = finish (s.rset a v)) : ∃ t, exec c s = .next t ∧ t.rget a = v ∧ Silent s t [a] :=
  ⟨_, h, (State.rget_trackIrq _ _).trans (State.rget_rset_same ..), Silent.of_regsOnly ((RegsOnly.refl s).rset _ _) ((Keeps.refl s _).rset _ _ List.mem_cons_self)⟩

theorem State.levelWrite_locked (second : Bool) (v : Nat) (hlock : s.on THM_CTRL_LOCK = true) : s.levelWrite second v = s := if_pos hlock

theorem State.levelWrite_low {v : Nat} (hlock : s.on THM_CTRL_LOCK = false) (hwarn : sgn 16 v < sgn 16 (v / 65536)) (hthrot : sgn 16 (v / 65536) < s.thrShut)
    (hshut : s.thrShut ≤ 8320) (hlo : 64 ≤ s.thrHyst) (hhi : s.thrHyst ≤ 640) : s.levelWrite false v = s.rset THM_LEVEL0 (BitVec.ofNat 32 v) :=
  (if_neg (by simp [hlock])).trans (if_pos ⟨hwarn, hthrot, hshut, hlo, hhi⟩)

theorem State.levelWrite_high {v : Nat} (hlock : s.on THM_CTRL_LOCK = false) (hwarn : s.thrWarn < s.thrThrottle) (hthrot : s.thrThrottle < sgn 16 v)
    (hshut : sgn 16 v ≤ 8320) (hlo : 64 ≤ sgn 16 (v / 65536)) (hhi : sgn 16 (v / 65536) ≤ 640) :
    s.levelWrite true v = s.rset THM_LEVEL1 (BitVec.ofNat 32 v) :=
  (if_neg (by simp [hlock])).trans (if_pos ⟨hwarn, hthrot, hshut, hlo, hhi⟩)

theorem State.levelWrite_refused {v : Nat} (hlock : s.on THM_CTRL_LOCK = false)
    (hbad : s.thrThrottle ≥ sgn 16 v ∨ 8320 < sgn 16 v ∨ sgn 16 (v / 65536) < 64 ∨ 640 < sgn 16 (v / 65536)) :
    s.levelWrite true v = s.putB THM_CTRL_CMD_ERR true := by
  refine (if_neg (by simp [hlock])).trans (if_neg ?_)
  rintro ⟨-, hthrot, hshut, hlo, hhi⟩
  have hthrot' : s.thrThrottle < sgn 16 v := hthrot
  have hshut' : sgn 16 v ≤ 8320 := hshut
  have hlo' : 64 ≤ sgn 16 (v / 65536) := hlo
  have hhi' : sgn 16 (v / 65536) ≤ 640 := hhi
  omega

/-- What a release leaves of the reset's record. -/
theorem State.release_view (s : State) (n : Nat) : (s.release n).rst.asserted = s.rst.asserted ∧ (s.release n).rst.corePwr = s.rst.corePwr ∧
    (s.release n).web.thermStop = s.web.thermStop := by
  refine State.release_induct (P := fun y z => z.rst.asserted = y.rst.asserted ∧ z.rst.corePwr = y.rst.corePwr ∧ z.web.thermStop = y.web.thermStop)
    (fun y => ⟨rfl, rfl, rfl⟩) (fun h h' => ⟨h'.1.trans h.1, h'.2.1.trans h.2.1, h'.2.2.trans h.2.2⟩) (fun y => ?_) (fun y k _ => ?_) (fun y k _ => ?_) s n
  · obtain ⟨-, hview, -⟩ := y.resetDone_shows
    exact ⟨congrArg ResetView.asserted hview, congrArg ResetView.corePwr hview, congrArg ResetView.thermStop hview⟩
  · have hview := y.releaseIsland_view k
    exact ⟨congrArg ResetView.asserted hview, congrArg ResetView.corePwr hview, congrArg ResetView.thermStop hview⟩
  · have hview : (y.setIsland k 2).resetView = y.resetView := rfl
    exact ⟨congrArg ResetView.asserted hview, congrArg ResetView.corePwr hview, congrArg ResetView.thermStop hview⟩

/-- The shutdown is over: the supply is on again, and the web is free of it. -/
def State.shutOver (s : State) : State :=
  let s1 : State := (s.setThm { s.thm with shut := false }).setRst { s.rst with corePwr := true }
  { s1 with web := { s1.web with thermStop := false } }

theorem State.shutClr_hot {d : Int} (ht : s.tDie = some d) (habove : s.thrShut - s.thrHyst ≤ d) : s.shutClr = s.putB THM_CTRL_CMD_ERR true := by
  have hnot : ¬d < s.thrShut - s.thrHyst := by omega
  simp [State.shutClr, ht, hnot]

theorem State.shutClr_cool {d : Int} (ht : s.tDie = some d) (hbelow : d < s.thrShut - s.thrHyst) (hshut : s.thm.shut = true) :
    s.shutClr = ((s.shutOver.deassertSource 8).refreshWebStop).showLevel := by
  simp only [State.shutClr, ht, Option.map_some, Option.getD_some, hbelow, decide_true, Bool.not_true, Bool.false_eq_true, if_false, hshut]
  rfl

theorem State.shutClr_shows {d : Int} (ht : s.tDie = some d) (hbelow : d < s.thrShut - s.thrHyst) (hshut : s.thm.shut = true)
    (hasserted : s.rst.asserted = [8]) :
    let t := s.shutClr
    t.thm.shut = false ∧ t.rst.asserted = [] ∧ t.rst.corePwr = true ∧ t.web.thermStop = false := by
  rw [State.shutClr_cool ht hbelow hshut]
  have hover : s.shutOver.rst.asserted = [8] ∧ s.shutOver.rst.corePwr = true ∧ s.shutOver.web.thermStop = false ∧ s.shutOver.thm.shut = false :=
    ⟨hasserted, rfl, rfl, rfl⟩
  generalize s.shutOver = x at *
  obtain ⟨hasserted', hpwr, hstop, hthm⟩ := hover
  obtain ⟨hkept, hpwr', hstop'⟩ := (x.setRst { x.rst with asserted := x.rst.asserted.filter (fun y => y != 8) }).release_view 18
  have hleaves := (LeavesThm.deassertSource x 8).thm
  have hfilter : x.rst.asserted.filter (fun y => y != 8) = [] := by rw [hasserted']; rfl
  have hdeassert : (x.deassertSource 8).rst.asserted = [] ∧ (x.deassertSource 8).rst.corePwr = true ∧ (x.deassertSource 8).web.thermStop = false :=
    ⟨hkept.trans hfilter, hpwr'.trans hpwr, hstop'.trans hstop⟩
  generalize x.deassertSource 8 = y at *
  obtain ⟨hasserted, hpwr, hstop⟩ := hdeassert
  have hview := y.refreshWebStop_view
  have hweb := (LeavesThm.refreshWebStop y).thm
  generalize y.refreshWebStop = z at *
  exact ⟨(congrArg Thm.shut (State.put_thm ..)).trans ((congrArg Thm.shut (hweb.trans hleaves)).trans hthm), (congrArg ResetView.asserted hview).trans hasserted,
    (congrArg ResetView.corePwr hview).trans hpwr, (congrArg ResetView.thermStop hview).trans hstop⟩

end Thermal

/-- Settles O58: a round is the inputs, the readings one after the other, and its end; after its own reading nothing changes a sensor's register
(`Acts.afterReading`), and what a level does is what an evaluation does (`State.evalLevels_warns`, `State.evalLevels_shuts`). -/
theorem thermalShutdown : Obligations.ThermalShutdown := by
  unfold Obligations.ThermalShutdown
  refine ⟨?low, ?high, ?refused, ?locked, ?reads, ?breaks, ?extBreaks, ?throttles, ?warns, ?shuts, ?noFast, ?fast, ?power, ?hot, ?cool⟩
  case low =>
    intro s req v hreq hrun hlock hwarn hthrot hshut hlo hhi
    have heff := State.reqWrite_island (s := s) (fun s => s.levelWrite false v.toNat) (a := THM_LEVEL0) (by decide) hreq hrun
    have hset : s.levelWrite false v.toNat = s.rset THM_LEVEL0 v := (State.levelWrite_low hlock hwarn hthrot hshut hlo hhi).trans (by rw [BitVec.ofNat_toNat, BitVec.setWidth_eq])
    exact nextRset (congrArg finish (heff.trans hset))
  case high =>
    intro s req v hreq hrun hlock hwarn hthrot hshut hlo hhi
    have heff := State.reqWrite_island (s := s) (fun s => s.levelWrite true v.toNat) (a := THM_LEVEL1) (by decide) hreq hrun
    have hset : s.levelWrite true v.toNat = s.rset THM_LEVEL1 v := (State.levelWrite_high hlock hwarn hthrot hshut hlo hhi).trans (by rw [BitVec.ofNat_toNat, BitVec.setWidth_eq])
    exact nextRset (congrArg finish (heff.trans hset))
  case refused =>
    intro s req v hreq hrun hlock hbad
    have heff := State.reqWrite_island (s := s) (fun s => s.levelWrite true v.toNat) (a := THM_LEVEL1) (by decide) hreq hrun
    exact nextPutB (congrArg finish (heff.trans (State.levelWrite_refused hlock hbad))) rfl
  case locked =>
    intro s req second v hreq hrun hlock
    have hisland : islandOf (if second = true then THM_LEVEL1 else THM_LEVEL0) = 0 := by cases second <;> decide
    have heff := State.reqWrite_island (s := s) (fun s => s.levelWrite second v.toNat) hisland hreq hrun
    exact ⟨_, congrArg finish (heff.trans (State.levelWrite_locked second v.toNat hlock)), Silent.refl s⟩
  case reads =>
    intro s die ext hk hdie _ hhk
    obtain ⟨hdies, hcodes⟩ := s.slowRound_reads (ext := ext) hdie hhk
    have hexec : exec (.housekeepingSlowRound die ext hk) s = finish (s.slowRound die ext hk) := rfl
    generalize s.slowRound die ext hk = t at *
    exact ⟨_, hexec, hdies, hcodes⟩
  case breaks =>
    intro s die ext hk k hdie _ _ _ hrange hbroken hlatch
    obtain ⟨hon, hreason, hposts⟩ := s.slowRound_breaks (ext := ext) (hk := hk) k hdie hrange hbroken hlatch
    have hexec : exec (.housekeepingSlowRound die ext hk) s = finish (s.slowRound die ext hk) := rfl
    generalize s.slowRound die ext hk = t at *
    exact ⟨_, hexec, hon, hreason, hposts.trackIrq⟩
  case extBreaks =>
    intro s die ext hk _ hext _ _ hcount hbad hbroken
    obtain ⟨hon, hposts⟩ := s.slowRound_extBreaks (die := die) (hk := hk) hext hcount hbad hbroken
    have hexec : exec (.housekeepingSlowRound die ext hk) s = finish (s.slowRound die ext hk) := rfl
    generalize s.slowRound die ext hk = t at *
    exact ⟨_, hexec, hon, hposts.trackIrq⟩
  case throttles =>
    intro s v ext hk _ _ hthrot _ hseen hlevel
    have hcounter := s.slowRound_throttles (ext := ext) (hk := hk) hthrot hseen hlevel
    have hexec : exec (.housekeepingSlowRound (List.replicate 24 v) ext hk) s = finish (s.slowRound (List.replicate 24 v) ext hk) := rfl
    generalize s.slowRound (List.replicate 24 v) ext hk = t at *
    exact ⟨_, hexec, hcounter⟩
  case warns =>
    intro s v ext hk _ _ hlen hseen hbroken hwarn hlo hhi hlevel hbelow hhyst
    obtain ⟨htemp, hset, hposts⟩ := s.slowRound_warns (ext := ext) (hk := hk) hlen hseen hbroken hwarn hlo hhi hlevel hbelow hhyst
    have hexec : exec (.housekeepingSlowRound (List.replicate 24 v) ext hk) s = finish (s.slowRound (List.replicate 24 v) ext hk) := rfl
    generalize s.slowRound (List.replicate 24 v) ext hk = t at *
    exact ⟨_, hexec, htemp, hset, hposts.trackIrq⟩
  case shuts =>
    intro s v ext hk _ _ hlen hseen hbroken hshut hlatch hlo hhi hlevel
    obtain ⟨hset, hshown, hdown, hposts⟩ := s.slowRound_shuts (ext := ext) (hk := hk) hlen hseen hbroken hshut hlatch hlo hhi hlevel
    have hexec : exec (.housekeepingSlowRound (List.replicate 24 v) ext hk) s = finish (s.slowRound (List.replicate 24 v) ext hk) := rfl
    generalize s.slowRound (List.replicate 24 v) ext hk = t at *
    exact ⟨_, hexec, hset, hshown, hdown.asserted, hdown.auth, hdown.stop, hdown.islands, hposts.trackIrq⟩
  case noFast =>
    intro s die hnone
    exact ⟨_, congrArg finish (State.fastRead_none (die := die) hnone), Silent.refl s⟩
  case fast =>
    intro s die hdie _ hfast hrange hbroken
    obtain ⟨hon, hreason, hposts⟩ := State.fastRead_breaks hdie hfast hrange hbroken
    have hreads := State.fastRead_reads (s := s) hdie
    have hexec : exec (.dieFastRead die) s = finish (s.fastRead die) := rfl
    generalize s.fastRead die = t at *
    exact ⟨_, hexec, fun k hk => (hreads k).trans (if_pos hk), fun k hk => (hreads k).trans (if_neg (by simp [hk])), hon, hreason, hposts.trackIrq⟩
  case power =>
    intro s hshut
    have heff : exec .corePwrOffTimer s = finish (s.setRst { s.rst with corePwr := false }) := congrArg finish (if_pos hshut)
    exact ⟨_, heff, Alters.of_rstOnly ((RstOnly.refl s).setRst _) ((Keeps.refl s _).setRst _)⟩
  case hot =>
    intro s req d hreq hrun ht habove
    have heff := State.reqWrite_island (s := s) (fun s => s.shutClr) (a := THM_CTRL) (by decide) hreq hrun
    exact nextPutB (congrArg finish (heff.trans (State.shutClr_hot ht habove))) rfl
  case cool =>
    intro s req d hreq hrun ht hbelow hshut hasserted
    have heff := State.reqWrite_island (s := s) (fun s => s.shutClr) (a := THM_CTRL) (by decide) hreq hrun
    obtain ⟨hclr, hnone, hpwr, hstop⟩ := State.shutClr_shows ht hbelow hshut hasserted
    generalize s.shutClr = t at *
    exact ⟨_, congrArg finish heff, hclr, hnone, hpwr, hstop⟩

end Sys2Proof.Machine

namespace Sys2Proof.Machine

/-! ### Serial lanes: what a change of lanes leaves -/

/-- Only registers and the lanes' records differ. -/
def LaneOnly (s x : State) : Prop := x = { s with regs := x.regs, lanes := x.lanes }

section Lanes
variable {s x y : State} {l : Nat}

theorem LaneOnly.refl (s : State) : LaneOnly s s := rfl
theorem LaneOnly.put (h : LaneOnly s x) (f : Fld) (v : Nat) : LaneOnly s (x.put f v) := by
  unfold LaneOnly at *
  rw [h]
  rfl
theorem LaneOnly.putB (h : LaneOnly s x) (f : Fld) (b : Bool) : LaneOnly s (x.putB f b) := h.put f _
theorem LaneOnly.updLane (h : LaneOnly s x) (l : Nat) (f : Lane → Lane) : LaneOnly s (x.updLane l f) := by
  unfold LaneOnly at *
  rw [h]
  rfl
theorem LaneOnly.hif (h : LaneOnly s x) : x.hif = s.hif := by
  unfold LaneOnly at h
  rw [h]
theorem LaneOnly.time (h : LaneOnly s x) : x.time = s.time := by
  unfold LaneOnly at h
  rw [h]
theorem LaneOnly.hidden (h : LaneOnly s x) : x.hidden = { s with lanes := x.lanes }.hidden := by
  unfold LaneOnly at h
  rw [h]
  rfl

/-- A command that changes registers and lanes. -/
theorem Alters.of_laneOnly (h : LaneOnly s x) {offs : List Nat} (hk : Keeps s x offs) {lanes : List Lane} (hl : x.lanes = lanes) :
    Alters s x.trackIrq { s with lanes := lanes } offs := by
  subst hl
  refine Alters.of_regsOnly (rfl : ({ s with lanes := x.lanes } : State).hif = s.hif) ?_ hk
  unfold RegsOnly LaneOnly at *
  rw [h]

theorem Keeps.updLane {offs : List Nat} (h : Keeps s x offs) (l : Nat) (f : Lane → Lane) : Keeps s (x.updLane l f) offs := h
theorem State.get_updLane (s : State) (l : Nat) (f : Lane → Lane) (g : Fld) : (s.updLane l f).get g = s.get g := rfl
theorem State.on_updLane (s : State) (l : Nat) (f : Lane → Lane) (g : Fld) : (s.updLane l f).on g = s.on g := rfl
theorem State.lanes_updLane (s : State) (l : Nat) (f : Lane → Lane) : (s.updLane l f).lanes = s.lanes.set l (f (s.lane l)) := rfl

theorem State.lane_updLane_same (s : State) (f : Lane → Lane) (h : l < s.lanes.length) : (s.updLane l f).lane l = f (s.lane l) := by
  simp [State.lane, State.updLane, List.getD_eq_getElem?_getD, h]
theorem State.lane_updLane_ne (s : State) (f : Lane → Lane) {k : Nat} (h : k ≠ l) : (s.updLane l f).lane k = s.lane k := by
  simp [State.lane, State.updLane, List.getD_eq_getElem?_getD, List.getElem?_set_ne (Ne.symm h)]
theorem State.updLane_twice (s : State) (l : Nat) (f g : Lane → Lane) (h : l < s.lanes.length) : (s.updLane l f).updLane l g = s.updLane l (fun x => g (f x)) := by
  have hlane := s.lane_updLane_same f h
  have hlanes : ((s.updLane l f).updLane l g).lanes = (s.updLane l (fun x => g (f x))).lanes := by
    rw [State.lanes_updLane, hlane, State.lanes_updLane, State.lanes_updLane, List.set_set]
  exact congrArg (fun ls : List Lane => { s with lanes := ls }) hlanes

/-! ### The transmit FFE (R525) -/

theorem LaneOnly.setFfe (h : LaneOnly s x) (l : Nat) (c : List Nat) : LaneOnly s (x.setFfe l c) := ((h.put _ _).put _ _).put _ _
theorem Keeps.setFfe (s : State) (l : Nat) (c : List Nat) : Keeps s (s.setFfe l c) [SDS_TX_FFE l] :=
  (((Keeps.refl s _).put (SDS_TX_FFE_PRE l) _ List.mem_cons_self).put (SDS_TX_FFE_MAIN l) _ List.mem_cons_self).put (SDS_TX_FFE_POST l) _ List.mem_cons_self
theorem State.lanes_setFfe (s : State) (l : Nat) (c : List Nat) : (s.setFfe l c).lanes = s.lanes := by
  rw [State.setFfe, State.put_lanes, State.put_lanes, State.put_lanes]

/-- Coefficients that fit show. -/
theorem State.ffe_setFfe (s : State) (l : Nat) {a b c : Nat} (ha : a < 16) (hb : b < 64) (hc : c < 32) : (s.setFfe l [a, b, c]).ffe l = [a, b, c] := by
  have hpre : (s.setFfe l [a, b, c]).get (SDS_TX_FFE_PRE l) = a := by
    refine (State.get_put_apart _ _ _ _ rfl (Fld.apart_of_bits rfl)).trans ((State.get_put_apart _ _ _ _ rfl (Fld.apart_of_bits rfl)).trans ?_)
    exact (State.get_put_same _ _ _ rfl).trans (Nat.mod_eq_of_lt ha)
  have hmain : (s.setFfe l [a, b, c]).get (SDS_TX_FFE_MAIN l) = b := by
    refine (State.get_put_apart _ _ _ _ rfl (Fld.apart_of_bits rfl)).trans ?_
    exact (State.get_put_same _ _ _ rfl).trans (Nat.mod_eq_of_lt hb)
  have hpost : (s.setFfe l [a, b, c]).get (SDS_TX_FFE_POST l) = c := (State.get_put_same _ _ _ rfl).trans (Nat.mod_eq_of_lt hc)
  rw [State.ffe, hpre, hmain, hpost]

theorem State.ffe_lt (s : State) (l : Nat) : s.get (SDS_TX_FFE_PRE l) < 16 ∧ s.get (SDS_TX_FFE_MAIN l) < 64 ∧ s.get (SDS_TX_FFE_POST l) < 32 :=
  ⟨s.get_lt _, s.get_lt _, s.get_lt _⟩

/-! ### A TRAIN block of the mirror link (R525) -/

/-- The answer to the requests of a block: the coefficients and what STAT shows. -/
def State.answered (s : State) (l : Nat) (c stat : List Nat) : State := (s.setFfe l c).updLane l (fun x => { x with stat := stat })

theorem State.answered_shows (s : State) (l : Nat) {a b c : Nat} (stat : List Nat) (ha : a < 16) (hb : b < 64) (hc : c < 32) :
    let t := s.answered l [a, b, c] stat
    t.ffe l = [a, b, c] ∧ LaneOnly s t ∧ Keeps s t [SDS_TX_FFE l] ∧ t.lanes = s.lanes.set l { s.lane l with stat := stat } := by
  have hffe := s.ffe_setFfe l ha hb hc
  have honly := (LaneOnly.refl s).setFfe l [a, b, c]
  have hkeeps := Keeps.setFfe s l [a, b, c]
  have hlanes := s.lanes_setFfe l [a, b, c]
  unfold State.answered
  generalize s.setFfe l [a, b, c] = x at *
  refine ⟨hffe, honly.updLane l _, hkeeps.updLane l _, ?_⟩
  rw [State.lanes_updLane, State.lane, hlanes, State.lane]

/-- The preset (R525). -/
theorem State.applyReqs_preset (s : State) {l : Nat} (a b : Nat) (hstat : (s.lane l).stat ≠ [1, 1, 1]) :
    s.applyReqs l [a, b, 3] = s.answered l [3, 50, 10] [1, 1, 1] := by
  have hany : [a, b, 3].any (fun r => r == 3) = true := by simp
  unfold State.applyReqs
  dsimp only
  rw [if_pos hany, if_neg hstat]
  rfl

theorem State.applyReqs_hold (s : State) (l : Nat) : s.applyReqs l [0, 0, 0] = s.answered l (s.ffe l) [0, 0, 0] := rfl

/-- A request to raise the post-cursor. -/
theorem State.applyReqs_raise (s : State) {l : Nat} (hstat : (s.lane l).stat = [0, 0, 0]) (hpost : s.get (SDS_TX_FFE_POST l) < 31)
    (hsum : s.get (SDS_TX_FFE_PRE l) + s.get (SDS_TX_FFE_MAIN l) + s.get (SDS_TX_FFE_POST l) < 63) :
    s.applyReqs l [0, 0, 1] = s.answered l [s.get (SDS_TX_FFE_PRE l), s.get (SDS_TX_FFE_MAIN l), s.get (SDS_TX_FFE_POST l) + 1] [0, 0, 1] := by
  have hstep : ffeStep (s.ffe l) 2 1 = ([s.get (SDS_TX_FFE_PRE l), s.get (SDS_TX_FFE_MAIN l), s.get (SDS_TX_FFE_POST l) + 1], 1) := by
    have hlimit : ¬(s.get (SDS_TX_FFE_POST l) = 31 ∨ 63 < 0 + s.get (SDS_TX_FFE_PRE l) + s.get (SDS_TX_FFE_MAIN l) + s.get (SDS_TX_FFE_POST l) + 1) := by
      omega
    exact if_neg hlimit
  have hfold : (List.range 3).foldl (fun (a : List Nat × List Nat) i =>
      let q := [0, 0, 1].getD i 0
      if q = 0 then (a.1, a.2 ++ [0])
      else if (s.lane l).stat.getD i 0 ≠ 0 then (a.1, a.2 ++ [(s.lane l).stat.getD i 0])
      else ((ffeStep a.1 i q).1, a.2 ++ [(ffeStep a.1 i q).2])) (s.ffe l, []) =
      ([s.get (SDS_TX_FFE_PRE l), s.get (SDS_TX_FFE_MAIN l), s.get (SDS_TX_FFE_POST l) + 1], [0, 0, 1]) := by
    simp [List.range_succ, hstat, hstep]
  have hany : ¬[0, 0, 1].any (fun r => r == 3) = true := by decide
  unfold State.applyReqs
  dsimp only
  rw [if_neg hany, hfold]
  rfl

/-- A block that is no TRAIN block, and one of the mirror link whose check is wrong. -/
theorem State.trainBlock_other {v : Nat} (l : Nat) (hop : bits v 63 56 ≠ 0x2D) : s.trainBlock l v = s := by
  unfold State.trainBlock
  rw [if_pos hop]
theorem State.trainBlock_unchecked {v : Nat} (hl : 48 ≤ l) (hop : bits v 63 56 = 0x2D) (hcheck : State.trainBlock.frameCheck8' v ≠ bits v 7 0) :
    s.trainBlock l v = s := by
  have hlt : ¬l < 48 := by omega
  unfold State.trainBlock
  rw [if_neg (not_not_intro hop), if_pos hcheck, if_neg hlt]

/-- A whole TRAIN block of the mirror link while it trains: its requests are answered, when the lane does not adapt. -/
theorem State.trainBlock_answers {v : Nat} (hl : 48 ≤ l) (hop : bits v 63 56 = 0x2D) (hcheck : State.trainBlock.frameCheck8' v = bits v 7 0)
    (hzero : s.lanePhase0 l = true)
    (hquiet : (s.applyReqs l [bits (bits v 51 46) 5 4, bits (bits v 51 46) 3 2, bits (bits v 51 46) 1 0]).adapting l = false) :
    s.trainBlock l v = s.applyReqs l [bits (bits v 51 46) 5 4, bits (bits v 51 46) 3 2, bits (bits v 51 46) 1 0] := by
  have hlt : ¬l < 48 := by omega
  have htrains : s.ffeTrains l = true := (if_neg hlt).trans hzero
  unfold State.trainBlock
  rw [if_neg (not_not_intro hop), if_neg (not_not_intro hcheck)]
  dsimp only
  rw [if_pos htrains]
  generalize s.applyReqs l _ = x at *
  have hfar : (if x.adapting l = true then x.farStat l [bits (bits v 45 40) 5 4, bits (bits v 45 40) 3 2, bits (bits v 45 40) 1 0] else x) = x :=
    if_neg (by simp [hquiet])
  rw [hfar]
  exact if_neg fun h => hlt h.1

theorem LaneOnly.mirror (h : LaneOnly s x) : x.mirrorUnit = s.mirrorUnit := by
  unfold LaneOnly at h
  rw [h]

/-- The answer changes nothing that adaptation looks at. -/
theorem State.adapting_answered (s : State) {l : Nat} (c stat : List Nat) (hl : 48 ≤ l) : (s.answered l c stat).adapting l = s.adapting l := by
  have hlt : ¬l < 48 := by omega
  have hne : PAR_STATUS ≠ SDS_TX_FFE l := by
    unfold SDS_TX_FFE PAR_STATUS
    omega
  have honly : LaneOnly s (s.answered l c stat) := ((LaneOnly.refl s).setFfe l c).updLane l _
  have hkeeps : Keeps s (s.answered l c stat) [SDS_TX_FFE l] := (Keeps.setFfe s l c).updLane l _
  have hlane : ((s.answered l c stat).lane l).rxReady = (s.lane l).rxReady := by
    have hset : (s.setFfe l c).lane l = s.lane l := by rw [State.lane, State.lanes_setFfe, State.lane]
    rw [← hset, State.answered]
    by_cases hlen : l < (s.setFfe l c).lanes.length
    · rw [State.lane_updLane_same _ _ hlen]
    · rw [State.lane, State.lanes_updLane, List.set_eq_of_length_le (Nat.le_of_not_lt hlen), ← State.lane]
  have hup : (s.answered l c stat).on PAR_STATUS_MIRROR_UP = s.on PAR_STATUS_MIRROR_UP := hkeeps.on _ fun h => hne (List.mem_singleton.mp h)
  have hust : (s.answered l c stat).ust .mirror = s.ust .mirror := congrArg (fun w : Word => UState.ofCode (bits w.toNat 2 0)) honly.mirror
  simp only [State.adapting, State.lanePhase0, if_neg hlt, hlane, hup, hust]

/-- The requests of a block, by its REQ field. -/
theorem trainReqs : [bits 1 5 4, bits 1 3 2, bits 1 1 0] = [0, 0, 1] ∧ [bits 3 5 4, bits 3 3 2, bits 3 1 0] = [0, 0, 3] ∧
    [bits 0 5 4, bits 0 3 2, bits 0 1 0] = [0, 0, 0] := by decide

/-- A block of the mirror link that is answered with coefficients. -/
theorem State.trainBlock_mirror {v r : Nat} {c stat : List Nat} (hl : 48 ≤ l) (hop : bits v 63 56 = 0x2D)
    (hcheck : State.trainBlock.frameCheck8' v = bits v 7 0) (hzero : s.lanePhase0 l = true) (hadapt : s.adapting l = false) (hreq : bits v 51 46 = r)
    (hanswer : s.applyReqs l [bits r 5 4, bits r 3 2, bits r 1 0] = s.answered l c stat) : s.trainBlock l v = s.answered l c stat := by
  subst hreq
  rw [State.trainBlock_answers hl hop hcheck hzero (by rw [hanswer, State.adapting_answered s c stat hl, hadapt]), hanswer]

theorem State.ffe_trackIrq (s : State) (l : Nat) : s.trackIrq.ffe l = s.ffe l := rfl

/-- The preset of a block. -/
theorem State.trainBlock_preset {v : Nat} (hl : 48 ≤ l) (hop : bits v 63 56 = 0x2D) (hcheck : State.trainBlock.frameCheck8' v = bits v 7 0)
    (hzero : s.lanePhase0 l = true) (hadapt : s.adapting l = false) (hreq : bits v 51 46 = 3) (hstat : (s.lane l).stat ≠ [1, 1, 1]) :
    s.trainBlock l v = s.answered l [3, 50, 10] [1, 1, 1] :=
  State.trainBlock_mirror hl hop hcheck hzero hadapt hreq ((congrArg (s.applyReqs l) trainReqs.2.1).trans (s.applyReqs_preset 0 0 hstat))

end Lanes

/-! ### Receiver searches (R528, R529) -/

section Search
variable {s : State} {l : Nat} {e : Eq} {fom : Nat}

/-- A first search: the best so far, and a request to raise the post-cursor. -/
def Lane.firstSearch (x : Lane) (e : Eq) (fom : Nat) : Lane :=
  { x with searched := true, best := e, bestFom := fom, fom := fom, tap := 0, inc := true }.ask 1 false

theorem State.searchDone_first (hadapt : s.adapting l = true) (hreq : (s.lane l).req = 0) (hsearched : (s.lane l).searched = false)
    (hreqs : (s.lane l).reqs < s.maxReq) (hlen : l < s.lanes.length) : s.searchDone l e fom = s.updLane l (fun x => x.firstSearch e fom) := by
  unfold State.searchDone
  dsimp only
  rw [if_pos hadapt, if_neg (not_not_intro hreq), if_pos hsearched, if_neg (Nat.not_le.mpr hreqs), State.updLane_twice _ _ _ _ hlen]
  rfl

/-- A search of a lane that a run covers is kept for it, while another one has no result. -/
theorem State.searchDone_run {k : Nat} (hadapt : s.adapting l = false) (hcovered : (s.lane l).covered = true) (hrun : s.runState chLANE = rsRUNNING)
    (hk : k < 52) (hne : k ≠ l) (hother : (s.lane k).covered = true) (hnone : (s.lane k).result = none) :
    s.searchDone l e fom = s.updLane l (fun x => { x with result := some (e, fom) }) := by
  unfold State.searchDone
  dsimp only
  rw [if_neg (by simp [hadapt]), if_pos ⟨hcovered, hrun⟩]
  generalize hx : s.updLane l (fun x => { x with result := some (e, fom) }) = x
  have hlane : x.lane k = s.lane k := by rw [← hx, State.lane_updLane_ne _ _ hne]
  refine if_pos (.inr (List.any_eq_true.mpr ⟨k, ?_, by rw [hlane, hnone]; rfl⟩))
  exact List.mem_filter.mpr ⟨List.mem_range.mpr hk, by rw [hlane, hother]⟩

end Search

/-- Settles O60: a block is dropped, or answered with coefficients and STAT (`State.answered`); a search is the best so far, or kept for the run. -/
theorem laneTraining : Obligations.LaneTraining := by
  unfold Obligations.LaneTraining
  refine ⟨?other, ?check, ?raise, ?preset, ?hold, ?port, ?first, ?run⟩
  case other =>
    intro s l v hop
    exact ⟨_, congrArg finish (State.trainBlock_other l.val hop), Silent.refl s⟩
  case check =>
    intro s l v hl hop hcheck
    exact ⟨_, congrArg finish (State.trainBlock_unchecked hl hop hcheck), Silent.refl s⟩
  case raise =>
    intro s l v hl hop hcheck hzero hadapt hreq hstat hpost hsum
    have heff := State.trainBlock_mirror hl hop hcheck hzero hadapt hreq ((congrArg (s.applyReqs l) trainReqs.1).trans (s.applyReqs_raise hstat hpost hsum))
    obtain ⟨hpre, hmain, -⟩ := s.ffe_lt l
    obtain ⟨hffe, honly, hkeeps, hlanes⟩ := s.answered_shows l [0, 0, 1] hpre hmain (show s.get (SDS_TX_FFE_POST l) + 1 < 32 by omega)
    generalize s.answered l _ [0, 0, 1] = t at *
    exact ⟨_, congrArg finish heff, (State.ffe_trackIrq _ _).trans hffe, Alters.of_laneOnly honly hkeeps hlanes⟩
  case preset =>
    intro s l v hl hop hcheck hzero hadapt hreq hstat
    have heff := State.trainBlock_preset hl hop hcheck hzero hadapt hreq hstat
    obtain ⟨hffe, honly, hkeeps, hlanes⟩ := s.answered_shows l (a := 3) (b := 50) (c := 10) [1, 1, 1] (by decide) (by decide) (by decide)
    generalize s.answered l [3, 50, 10] [1, 1, 1] = t at *
    exact ⟨_, congrArg finish heff, (State.ffe_trackIrq _ _).trans hffe, Alters.of_laneOnly honly hkeeps hlanes⟩
  case hold =>
    intro s l v hl hop hcheck hzero hadapt hreq
    have heff := State.trainBlock_mirror hl hop hcheck hzero hadapt hreq ((congrArg (s.applyReqs l) trainReqs.2.2).trans (s.applyReqs_hold l))
    obtain ⟨hpre, hmain, hpost⟩ := s.ffe_lt l
    obtain ⟨hffe, honly, hkeeps, hlanes⟩ := s.answered_shows l [0, 0, 0] hpre hmain hpost
    rw [State.ffe] at heff
    generalize s.answered l _ [0, 0, 0] = t at *
    exact ⟨_, congrArg finish heff, Alters.of_laneOnly honly hkeeps hlanes, (State.ffe_trackIrq _ _).trans hffe⟩
  case port =>
    intro s l v hl hop hcheck hphase hrate
    have hnot : (s.get (HLK_PORT_STATUS_PHASE (l / 2)) == 2) = false := by simpa using hphase
    have htrains : s.ffeTrains l = false := (if_pos hl).trans (by rw [hnot, Bool.and_false])
    have hadapt : s.adapting l = false := by rw [State.adapting, if_pos hl, hnot, Bool.and_false, Bool.and_false]
    have heff : s.trainBlock l v.toNat = s := by
      unfold State.trainBlock
      rw [if_neg (not_not_intro hop), if_neg (not_not_intro hcheck)]
      simp [htrains, hadapt, hrate]
    exact ⟨_, congrArg finish heff, Silent.refl s⟩
  case first =>
    intro s l c taps fom hadapt hreq hsearched hreqs hlen
    have hl : l.val < s.lanes.length := l.isLt.trans_eq hlen.symm
    have heff := State.searchDone_first (e := { ctle := c.val, taps := taps }) (fom := fom.toNat) hadapt hreq hsearched hreqs hl
    have hlane := s.lane_updLane_same (fun x => x.firstSearch { ctle := c.val, taps := taps } fom.toNat) hl
    have honly := (LaneOnly.refl s).updLane l (fun x => x.firstSearch { ctle := c.val, taps := taps } fom.toNat)
    have hlanes := s.lanes_updLane l (fun x => x.firstSearch { ctle := c.val, taps := taps } fom.toNat)
    have hkeeps : Keeps s (s.updLane l (fun x => x.firstSearch { ctle := c.val, taps := taps } fom.toNat)) [] := Keeps.refl s _
    rw [← hlane] at hlanes
    generalize s.updLane l _ = t at *
    exact ⟨_, congrArg finish heff, congrArg Lane.best hlane, congrArg Lane.bestFom hlane, congrArg Lane.req hlane, congrArg Lane.tap hlane,
      congrArg Lane.reqs hlane, Alters.of_laneOnly honly hkeeps hlanes⟩
  case run =>
    intro s l k c taps fom hadapt hcovered hrun hne hother hnone
    have heff := State.searchDone_run (e := { ctle := c.val, taps := taps }) (fom := fom.toNat) hadapt hcovered hrun k.isLt (fun h => hne (Fin.ext h)) hother hnone
    exact ⟨_, congrArg finish heff, Alters.of_laneOnly ((LaneOnly.refl s).updLane l _) (Keeps.refl s _) (s.lanes_updLane l _)⟩

end Sys2Proof.Machine

namespace Sys2Proof.Machine

/-! ### Equaliser steps (R530) -/

section Equaliser
variable {s : State} {l : Nat}

/-- A tap that fits the register. -/
def tapFits (a : Int) : Prop := -32 ≤ a ∧ a < 32

theorem twos_tap (a : Int) : ((twos 6 a : Nat) : Int) = a % 64 ∧ twos 6 a < 64 := by
  unfold twos
  norm_num
  omega

theorem sgn_tap {n : Nat} (hn : n < 64) : sgn 6 n = if n < 32 then (n : Int) else (n : Int) - 64 := by
  unfold sgn
  norm_num
  rw [Nat.mod_eq_of_lt hn]
  split_ifs <;> omega

theorem sgn_twos_tap {a : Int} (h : tapFits a) : sgn 6 (twos 6 a) = a := by
  obtain ⟨hval, hlt⟩ := twos_tap a
  unfold tapFits at h
  rw [sgn_tap hlt]
  split_ifs <;> omega

theorem tapFits_sgn (n : Nat) : tapFits (sgn 6 n) := by
  unfold tapFits sgn
  norm_num
  split_ifs <;> omega

/-- A register of taps shows them. -/
theorem dfeTaps_dfeWord {a b c d e : Int} (ha : tapFits a) (hb : tapFits b) (hc : tapFits c) (hd : tapFits d) (he : tapFits e) :
    dfeTaps (BitVec.ofNat 32 (dfeWord [a, b, c, d, e])).toNat = [a, b, c, d, e] := by
  have hword : dfeWord [a, b, c, d, e] = twos 6 a + 64 * twos 6 b + 4096 * twos 6 c + 262144 * twos 6 d + 16777216 * twos 6 e := by
    simp [dfeWord, List.range_succ]
  obtain ⟨-, ha'⟩ := twos_tap a
  obtain ⟨-, hb'⟩ := twos_tap b
  obtain ⟨-, hc'⟩ := twos_tap c
  obtain ⟨-, hd'⟩ := twos_tap d
  obtain ⟨-, he'⟩ := twos_tap e
  have hbits : (BitVec.ofNat 32 (dfeWord [a, b, c, d, e])).toNat = dfeWord [a, b, c, d, e] := by
    rw [BitVec.toNat_ofNat, hword]
    omega
  have hcut : bits (dfeWord [a, b, c, d, e]) 5 0 = twos 6 a ∧ bits (dfeWord [a, b, c, d, e]) 11 6 = twos 6 b ∧
      bits (dfeWord [a, b, c, d, e]) 17 12 = twos 6 c ∧ bits (dfeWord [a, b, c, d, e]) 23 18 = twos 6 d ∧
      bits (dfeWord [a, b, c, d, e]) 29 24 = twos 6 e := by
    rw [hword]
    unfold bits
    norm_num
    omega
  obtain ⟨h0, h1, h2, h3, h4⟩ := hcut
  rw [hbits]
  simp [dfeTaps, List.range_succ, h0, h1, h2, h3, h4, sgn_twos_tap ha, sgn_twos_tap hb, sgn_twos_tap hc, sgn_twos_tap hd, sgn_twos_tap he]

theorem stepInt_fits {a b : Int} (ha : tapFits a) (hb : tapFits b) : tapFits (stepInt a b) := by
  unfold tapFits stepInt at *
  split_ifs <;> omega

theorem dfeTaps_fits (w i : Nat) : tapFits ((dfeTaps w).getD i 0) := by
  by_cases hi : i < 5
  · have hlen : i < (dfeTaps w).length := by simpa [dfeTaps] using hi
    rw [List.getD_eq_getElem _ _ hlen]
    simp only [dfeTaps, List.getElem_map]
    exact tapFits_sgn _
  · have hlen : (dfeTaps w).length ≤ i := by simpa [dfeTaps] using hi
    rw [List.getD_eq_default _ _ hlen]
    unfold tapFits
    omega

/-- The live values one step on. -/
def State.nextEq (s : State) (l : Nat) : Eq :=
  { ctle := stepTo (s.get (SDS_RX_CTLE_LIVE l)) (s.get (SDS_RX_CTLE_TARGET l)) 1
    taps := (List.range 5).map (fun i => stepInt ((s.eqLive l).taps.getD i 0) ((s.eqTarget l).taps.getD i 0)) }

theorem State.eqStep_eq (s : State) (l : Nat) : s.eqStep l = s.setLiveEq l (s.nextEq l) := rfl

theorem Keeps.setLiveEq (s : State) (l : Nat) (e : Eq) : Keeps s (s.setLiveEq l e) [SDS_RX_CTLE l, SDS_RX_DFE_LIVE l] :=
  ((Keeps.refl s _).put (SDS_RX_CTLE_LIVE l) _ List.mem_cons_self).rset _ _ (List.mem_cons_of_mem _ List.mem_cons_self)

theorem sdsEq_ne (l : Nat) : SDS_RX_DFE_LIVE l ≠ SDS_RX_CTLE l := by
  unfold SDS_RX_DFE_LIVE SDS_RX_CTLE
  omega

theorem State.setLiveEq_shows (s : State) (l : Nat) (e : Eq) :
    (s.setLiveEq l e).get (SDS_RX_CTLE_LIVE l) = e.ctle % 16 ∧ (s.setLiveEq l e).get (SDS_RX_CTLE_TARGET l) = s.get (SDS_RX_CTLE_TARGET l) ∧
      (s.setLiveEq l e).rget (SDS_RX_DFE_LIVE l) = BitVec.ofNat 32 (dfeWord e.taps) := by
  refine ⟨?_, ?_, State.rget_rset_same ..⟩
  · exact (State.get_eq_of_rget _ _ (SDS_RX_CTLE_LIVE l) (State.rget_rset_ne _ _ _ _ (sdsEq_ne l))).trans (State.get_put_same _ _ _ rfl)
  · exact (State.get_eq_of_rget _ _ (SDS_RX_CTLE_TARGET l) (State.rget_rset_ne _ _ _ _ (sdsEq_ne l))).trans
      (State.get_put_apart _ _ _ _ rfl (Fld.apart_of_bits rfl))

/-- What a step shows. -/
theorem State.eqStep_shows (s : State) (l : Nat) :
    let t := s.eqStep l
    t.get (SDS_RX_CTLE_LIVE l) = stepTo (s.get (SDS_RX_CTLE_LIVE l)) (s.get (SDS_RX_CTLE_TARGET l)) 1 ∧
      t.get (SDS_RX_CTLE_TARGET l) = s.get (SDS_RX_CTLE_TARGET l) ∧
      (∀ i : Fin 5, (t.eqLive l).taps.getD i 0 = stepInt ((s.eqLive l).taps.getD i 0) ((s.eqTarget l).taps.getD i 0)) ∧
      RegsOnly s t ∧ Keeps s t [SDS_RX_CTLE l, SDS_RX_DFE_LIVE l] := by
  have hlive : s.get (SDS_RX_CTLE_LIVE l) < 16 := s.get_lt _
  have htarget : s.get (SDS_RX_CTLE_TARGET l) < 16 := s.get_lt _
  obtain ⟨hctle, hkept, htaps⟩ := s.setLiveEq_shows l (s.nextEq l)
  have hkeeps := Keeps.setLiveEq s l (s.nextEq l)
  have honly : RegsOnly s (s.setLiveEq l (s.nextEq l)) := ((RegsOnly.refl s).put _ _).rset _ _
  have hnext : (s.nextEq l).ctle = stepTo (s.get (SDS_RX_CTLE_LIVE l)) (s.get (SDS_RX_CTLE_TARGET l)) 1 := rfl
  rw [State.eqStep_eq]
  generalize s.setLiveEq l (s.nextEq l) = t at *
  refine ⟨?_, hkept, fun i => ?_, honly, hkeeps⟩
  · rw [hctle, hnext]
    unfold stepTo
    split_ifs <;> omega
  · have hfits (i : Nat) : tapFits (stepInt ((s.eqLive l).taps.getD i 0) ((s.eqTarget l).taps.getD i 0)) :=
      stepInt_fits (dfeTaps_fits _ i) (dfeTaps_fits _ i)
    have hlist : (s.nextEq l).taps = [stepInt ((s.eqLive l).taps.getD 0 0) ((s.eqTarget l).taps.getD 0 0),
        stepInt ((s.eqLive l).taps.getD 1 0) ((s.eqTarget l).taps.getD 1 0), stepInt ((s.eqLive l).taps.getD 2 0) ((s.eqTarget l).taps.getD 2 0),
        stepInt ((s.eqLive l).taps.getD 3 0) ((s.eqTarget l).taps.getD 3 0), stepInt ((s.eqLive l).taps.getD 4 0) ((s.eqTarget l).taps.getD 4 0)] := rfl
    have hshown : (t.eqLive l).taps = (s.nextEq l).taps := by
      rw [State.eqLive, htaps, hlist]
      exact dfeTaps_dfeWord (hfits 0) (hfits 1) (hfits 2) (hfits 3) (hfits 4)
    rw [hshown, State.nextEq]
    simp [List.getD_eq_getElem?_getD]

end Equaliser

/-! ### The eye in service (R527, R531) -/

section Eye
variable {s x : State} {l w h : Nat}

/-- The eye is shown, and the lane's figure of merit kept. -/
def State.eyeShown (s : State) (l w h f : Nat) (low : Bool) : State :=
  (((s.put (SDS_EYE_W l) w).put (SDS_EYE_H l) h).put (SDS_EYE_FOM l) f).updLane l (fun x => { x with fom := f, low := low })

theorem State.fomCheck_low (hup : s.laneUp l = true) (hcovered : (s.lane l).covered = false) (hlow : (s.lane l).low = false)
    (hbelow : fomOf w h < s.get SDS_ADAPT_CFG_FOM_MIN) : s.fomCheck l w h =
      ((s.eyeShown l w h (fomOf w h) true).showLow.report Ev.LOW_FOM l [fomOf w h, s.get SDS_ADAPT_CFG_FOM_MIN, w, h] SDS_IRQ_CAUSE_LOW_FOM).calTrigger chLANE 3 0 := by
  have hblt : Nat.blt (fomOf w h) (s.get SDS_ADAPT_CFG_FOM_MIN) = true := Nat.blt_eq.mpr hbelow
  unfold State.fomCheck
  rw [if_neg (by simp [hup, hcovered])]
  dsimp only
  rw [if_pos ⟨hbelow, by simp [hlow]⟩, hblt]
  rfl

theorem State.fomCheck_good (hup : s.laneUp l = true) (hcovered : (s.lane l).covered = false) (hgood : s.get SDS_ADAPT_CFG_FOM_MIN ≤ fomOf w h) :
    s.fomCheck l w h = (s.eyeShown l w h (fomOf w h) false).showLow := by
  have hblt : Nat.blt (fomOf w h) (s.get SDS_ADAPT_CFG_FOM_MIN) = false := by
    rw [Bool.eq_false_iff, ne_eq, Nat.blt_eq]
    omega
  unfold State.fomCheck
  rw [if_neg (by simp [hup, hcovered])]
  dsimp only
  rw [if_neg (fun h' => absurd h'.1 (Nat.not_lt.mpr hgood)), hblt]
  rfl

/-- What the shown eye shows. -/
theorem State.eyeShown_shows (s : State) (l : Nat) {w h f : Nat} (low : Bool) (hw : w < 128) (hh : h < 128) (hf : f < 256) :
    let t := s.eyeShown l w h f low
    t.get (SDS_EYE_W l) = w ∧ t.get (SDS_EYE_H l) = h ∧ t.get (SDS_EYE_FOM l) = f ∧ LaneOnly s t ∧ Keeps s t [SDS_EYE l] ∧
      t.lanes = s.lanes.set l { s.lane l with fom := f, low := low } := by
  have hkeeps : Keeps s (((s.put (SDS_EYE_W l) w).put (SDS_EYE_H l) h).put (SDS_EYE_FOM l) f) [SDS_EYE l] :=
    (((Keeps.refl s _).put (SDS_EYE_W l) _ List.mem_cons_self).put (SDS_EYE_H l) _ List.mem_cons_self).put (SDS_EYE_FOM l) _ List.mem_cons_self
  have honly : LaneOnly s (((s.put (SDS_EYE_W l) w).put (SDS_EYE_H l) h).put (SDS_EYE_FOM l) f) := (((LaneOnly.refl s).put _ _).put _ _).put _ _
  have hlanes : (((s.put (SDS_EYE_W l) w).put (SDS_EYE_H l) h).put (SDS_EYE_FOM l) f).lanes = s.lanes := by
    rw [State.put_lanes, State.put_lanes, State.put_lanes]
  have hget : (((s.put (SDS_EYE_W l) w).put (SDS_EYE_H l) h).put (SDS_EYE_FOM l) f).get (SDS_EYE_W l) = w ∧
      (((s.put (SDS_EYE_W l) w).put (SDS_EYE_H l) h).put (SDS_EYE_FOM l) f).get (SDS_EYE_H l) = h ∧
      (((s.put (SDS_EYE_W l) w).put (SDS_EYE_H l) h).put (SDS_EYE_FOM l) f).get (SDS_EYE_FOM l) = f := by
    refine ⟨?_, ?_, (State.get_put_same _ _ _ rfl).trans (Nat.mod_eq_of_lt hf)⟩
    · rw [State.get_put_apart _ _ _ _ rfl (Fld.apart_of_bits rfl), State.get_put_apart _ _ _ _ rfl (Fld.apart_of_bits rfl), State.get_put_same _ _ _ rfl]
      exact Nat.mod_eq_of_lt hw
    · rw [State.get_put_apart _ _ _ _ rfl (Fld.apart_of_bits rfl), State.get_put_same _ _ _ rfl]
      exact Nat.mod_eq_of_lt hh
  unfold State.eyeShown
  generalize ((s.put (SDS_EYE_W l) w).put (SDS_EYE_H l) h).put (SDS_EYE_FOM l) f = x at *
  refine ⟨(State.get_updLane ..).trans hget.1, (State.get_updLane ..).trans hget.2.1, (State.get_updLane ..).trans hget.2.2, honly.updLane l _, hkeeps.updLane l _, ?_⟩
  rw [State.lanes_updLane, State.lane, hlanes, State.lane]

theorem fomOf_lt (w h : Nat) : fomOf w h < 256 := by
  unfold fomOf
  omega

theorem sdsEye_ne (l : Fin 52) : SDS_EYE l ≠ SDS_IRQ_CAUSE ∧ SDS_EYE l ≠ PAR_STATUS ∧ SDS_EYE l ∉ evtRegs ∧ SDS_EYE l ≠ CAL_CH_STATUS chLANE ∧
    SDS_EYE l ≠ CAL_IRQ_CAUSE := by
  revert l
  decide

/-- A trigger writes the channel's status and cause, and entries. -/
def triggerWrites (c a : Nat) : Prop := a = CAL_CH_STATUS c ∨ a = CAL_IRQ_CAUSE ∨ a ∈ evtRegs

theorem Acts.calTrigger (s : State) (c code move : Nat) : Acts (triggerWrites c) s (s.calTrigger c code move) := by
  have hevt : ∀ a ∈ evtRegs, triggerWrites c a := fun _ ha => .inr (.inr ha)
  unfold State.calTrigger
  split_ifs
  · exact ((((Acts.refl s).put _ _ (.inl rfl)).putB _ _ (.inl rfl)).event _ _ _ hevt).cause _ (.inr (.inl rfl))
  · exact ((Acts.refl s).putB _ _ (.inl rfl)).putB _ _ (.inl rfl)
  · exact Acts.refl s

theorem State.laneUp_keeps {offs : List Nat} (hk : Keeps s x offs) (hport : HLK_PORT_STATUS (l / 2) ∉ offs) (hpar : PAR_STATUS ∉ offs) : x.laneUp l = s.laneUp l := by
  have hstate : x.get (HLK_PORT_STATUS_STATE (l / 2)) = s.get (HLK_PORT_STATUS_STATE (l / 2)) := hk.get _ hport
  have hphase : x.get (HLK_PORT_STATUS_PHASE (l / 2)) = s.get (HLK_PORT_STATUS_PHASE (l / 2)) := hk.get _ hport
  have hmirror : x.on PAR_STATUS_MIRROR_UP = s.on PAR_STATUS_MIRROR_UP := hk.on _ hpar
  rw [State.laneUp, State.laneUp, State.portUp, State.portUp, hstate, hphase, hmirror]

/-- A lane below the minimum, for the first time. -/
def State.eyeLow (s : State) (l w h : Nat) : State :=
  ((s.eyeShown l w h (fomOf w h) true).showLow.report Ev.LOW_FOM l [fomOf w h, s.get SDS_ADAPT_CFG_FOM_MIN, w, h] SDS_IRQ_CAUSE_LOW_FOM).calTrigger
    chLANE 3 0

/-- What a lane below the minimum shows and posts. -/
theorem State.eyeLow_shows (s : State) (l : Fin 52) {w h : Nat} (hw : w < 128) (hh : h < 128) (hup : s.laneUp l = true) (hlen : s.lanes.length = 52) :
    let t := s.eyeLow l w h
    t.get (SDS_EYE_W l) = w ∧ t.get (SDS_EYE_H l) = h ∧ t.get (SDS_EYE_FOM l) = fomOf w h ∧ t.on SDS_IRQ_CAUSE_LOW_NOW = true ∧
      (t.lane l).low = true ∧ Posts s t Ev.LOW_FOM l [fomOf w h, s.get SDS_ADAPT_CFG_FOM_MIN, w, h] := by
  have hports : ∀ l : Fin 52, HLK_PORT_STATUS (l / 2) ≠ SDS_EYE l ∧ RST_ISLAND 1 ≠ SDS_EYE l := by decide
  obtain ⟨hirq, hpar, hevt, hcal, hcalIrq⟩ := sdsEye_ne l
  obtain ⟨hshowW, hshowH, hshowF, honly, hkeeps, hlanes⟩ := s.eyeShown_shows l true hw hh (fomOf_lt w h)
  unfold State.eyeLow
  generalize s.eyeShown l w h (fomOf w h) true = x at *
  have hlow : (x.lane l).low = true := by
    rw [State.lane, hlanes, List.getD_eq_getElem?_getD, List.getElem?_set_self (by rw [hlen]; exact l.isLt)]
    rfl
  have hup' : x.laneUp l = true :=
    (State.laneUp_keeps hkeeps (by simpa using (hports l).1) (by simpa using Ne.symm hpar)).trans hup
  have hany : (List.range 52).any (fun k => x.laneUp k && (x.lane k).low) = true :=
    List.any_eq_true.mpr ⟨l, List.mem_range.mpr l.isLt, by rw [hup', hlow]; rfl⟩
  have hshown : x.showLow = x.putB SDS_IRQ_CAUSE_LOW_NOW true := by rw [State.showLow, hany]
  have hnow : (x.putB SDS_IRQ_CAUSE_LOW_NOW true).on SDS_IRQ_CAUSE_LOW_NOW = true := State.on_putB_same _ _ _ rfl
  have hkept : Keeps x (x.putB SDS_IRQ_CAUSE_LOW_NOW true) [SDS_IRQ_CAUSE] := (Keeps.refl x _).putB _ _ (by decide)
  have honly' : LaneOnly s (x.putB SDS_IRQ_CAUSE_LOW_NOW true) := honly.putB _ _
  have hlanes' : (x.putB SDS_IRQ_CAUSE_LOW_NOW true).lanes = x.lanes := State.putB_lanes _ _ _
  rw [hshown]
  generalize x.putB SDS_IRQ_CAUSE_LOW_NOW true = y at *
  have hisland : y.rget (RST_ISLAND 1) = s.rget (RST_ISLAND 1) :=
    (hkept _ (by decide)).trans (hkeeps _ (by simpa using (hports l).2))
  generalize hp : [fomOf w h, s.get SDS_ADAPT_CFG_FOM_MIN, w, h] = p at *
  have hposts : Posts s (y.report Ev.LOW_FOM l p SDS_IRQ_CAUSE_LOW_FOM) Ev.LOW_FOM l p :=
    (Posts.of_event s y _ _ _ honly'.hif honly'.time hisland (by decide)).cause _
  have hhidden := y.hidden_report Ev.LOW_FOM l p SDS_IRQ_CAUSE_LOW_FOM
  have hreport (f : Fld) (hoff : f.off = SDS_EYE l) : (y.report Ev.LOW_FOM l p SDS_IRQ_CAUSE_LOW_FOM).get f = y.get f :=
    State.get_report _ _ _ _ rfl (hoff ▸ Ne.symm hirq) (hoff ▸ hevt)
  have hnow' : (y.report Ev.LOW_FOM l p SDS_IRQ_CAUSE_LOW_FOM).on SDS_IRQ_CAUSE_LOW_NOW = true := by
    rw [State.report, State.on_cause_apart _ _ _ rfl (by decide), State.on_event _ _ _ _ _ (by decide)]
    exact hnow
  generalize y.report Ev.LOW_FOM l p SDS_IRQ_CAUSE_LOW_FOM = z at *
  have hacts := Acts.calTrigger z chLANE 3 0
  have hhidden' := (Touches.calTrigger z chLANE 3 0).1
  generalize z.calTrigger chLANE 3 0 = t at *
  have heye : ¬triggerWrites chLANE (SDS_EYE l) := not_or.mpr ⟨hcal, not_or.mpr ⟨hcalIrq, hevt⟩⟩
  have hcause : ¬triggerWrites chLANE SDS_IRQ_CAUSE := by unfold triggerWrites; decide
  have hget (f : Fld) (hoff : f.off = SDS_EYE l) : t.get f = x.get f :=
    (hacts.get f (hoff ▸ heye)).trans ((hreport f hoff).trans (hkept.get f (by rw [hoff]; simpa using hirq)))
  have hlane : t.lanes = x.lanes :=
    (congrArg State.lanes hhidden').trans ((congrArg State.lanes hhidden).trans hlanes')
  refine ⟨(hget _ rfl).trans hshowW, (hget _ rfl).trans hshowH, (hget _ rfl).trans hshowF, ?_, ?_, hposts.extends hacts.toExtends⟩
  · exact (State.on_eq_of_get _ _ _ (hacts.get SDS_IRQ_CAUSE_LOW_NOW hcause)).trans hnow'
  · rw [State.lane, hlane]
    exact hlow

end Eye

/-! ### Power states, loopbacks and the checker (R532, R534 to R536) -/

section Loops
variable {s x : State} {errors mbits : Nat}

theorem laneUnit_val (l : Fin 52) : laneUnit l = .lane l := by
  rw [laneUnit, Fin.ofNat_val_eq_self]

/-- A signal shows, and a test is abandoned. -/
def State.signalShown (s : State) (l : Nat) : State := (s.putB (SDS_LANE_STATUS_SIG_DET l) true).updLane l (fun x => { x with testing := false })

/-- The lanes of a port go to power state ON. -/
def State.lanePowered (s : State) (k : Nat) : State := if s.ust (laneUnit k) = .on then s.put (SDS_LANE_STATUS_PWR k) 0 else s

theorem State.signalDetect_eq (s : State) {l : Nat} (hzero : s.lanePhase0 l = true) :
    s.signalDetect l = (portLanes l).foldl State.lanePowered (s.signalShown l) := if_pos hzero

theorem LaneOnly.lanePowered (h : LaneOnly s x) (k : Nat) : LaneOnly s (x.lanePowered k) := by
  unfold State.lanePowered
  split
  · exact h.put _ _
  · exact h

theorem portLanes_nodup : ∀ l : Fin 52, (portLanes l).Nodup ∧ l.val ∈ portLanes l ∧ ∀ k ∈ portLanes l, k < 52 := by decide

theorem State.get_lanePowered (s : State) (k : Nat) (f : Fld) (h : (SDS_LANE_STATUS_PWR k).apart f) : (s.lanePowered k).get f = s.get f := by
  unfold State.lanePowered
  split
  · exact State.get_put_apart _ _ _ _ rfl h
  · rfl

theorem State.lanes_lanePowered (s : State) (k : Nat) : (s.lanePowered k).lanes = s.lanes := by
  unfold State.lanePowered
  split
  · exact State.put_lanes _ _ _
  · rfl

theorem sdsStatus_ne {i j : Nat} (h : i ≠ j) : SDS_LANE_STATUS i ≠ SDS_LANE_STATUS j := by
  unfold SDS_LANE_STATUS
  omega

theorem State.signalDetect_shows (s : State) (l : Fin 52) (hust : s.ust (.lane l) = .on) :
    let t := (portLanes l).foldl State.lanePowered (s.signalShown l)
    t.on (SDS_LANE_STATUS_SIG_DET l) = true ∧ t.get (SDS_LANE_STATUS_PWR l) = 0 ∧ LaneOnly s t ∧ Keeps s t ((portLanes l).map SDS_LANE_STATUS) ∧
      t.lanes = s.lanes.set l { s.lane l with testing := false } := by
  obtain ⟨hnodup, hmem, -⟩ := portLanes_nodup l
  have hsig : (s.signalShown l).on (SDS_LANE_STATUS_SIG_DET l) = true := by
    rw [State.signalShown, State.on_updLane]
    exact State.on_putB_same _ _ _ rfl
  have hstate : (s.signalShown l).get (SDS_LANE_STATUS_STATE l) = s.get (SDS_LANE_STATUS_STATE l) := by
    rw [State.signalShown, State.get_updLane]
    exact State.get_putB_apart _ _ _ _ rfl (Fld.apart_of_bits rfl)
  have honly : LaneOnly s (s.signalShown l) := ((LaneOnly.refl s).putB _ _).updLane l _
  have hown : SDS_LANE_STATUS l ∈ (portLanes l).map SDS_LANE_STATUS := List.mem_map_of_mem hmem
  have hkeeps : Keeps s (s.signalShown l) ((portLanes l).map SDS_LANE_STATUS) := by
    unfold State.signalShown
    exact ((Keeps.refl s _).putB (SDS_LANE_STATUS_SIG_DET l) true hown).updLane l _
  have hlanes : (s.signalShown l).lanes = s.lanes.set l { s.lane l with testing := false } := by
    rw [State.signalShown, State.lanes_updLane, State.lane, State.putB_lanes, State.lane]
  generalize s.signalShown l = x at *
  have hust' : x.ust (.lane l) = .on := (congrArg UState.ofCode hstate).trans hust
  have hpwr := foldl_at (π := fun y : State => y.get (SDS_LANE_STATUS_PWR l)) (f := State.lanePowered) (g := fun _ => 0) (L := portLanes l) (j := l)
    (P := fun y => y.ust (.lane l) = .on)
    (fun y k _ hk => y.get_lanePowered k _ (.inl (sdsStatus_ne hk)))
    (fun y hy => by
      rw [State.lanePowered, laneUnit_val, if_pos hy]
      exact State.get_put_same _ _ _ rfl)
    (fun y k _ hy => (congrArg UState.ofCode (y.get_lanePowered k (SDS_LANE_STATUS_STATE l) (by
      by_cases hk : k = l.val
      · subst hk
        exact Fld.apart_of_bits rfl
      · exact .inl (sdsStatus_ne hk)))).trans hy) hnodup x hust'
  have hsig' : ((portLanes l).foldl State.lanePowered x).get (SDS_LANE_STATUS_SIG_DET l) = x.get (SDS_LANE_STATUS_SIG_DET l) :=
    foldl_keeps_mem (fun y : State => y.get (SDS_LANE_STATUS_SIG_DET l)) (fun y k _ => y.get_lanePowered k _ (by
      by_cases hk : k = l.val
      · subst hk
        exact Fld.apart_of_bits rfl
      · exact .inl (sdsStatus_ne hk))) x
  refine ⟨(State.on_eq_of_get _ _ _ hsig').trans hsig, hpwr.trans (if_pos hmem), ?_, ?_, ?_⟩
  · exact List.foldlRecOn (motive := LaneOnly s) _ _ honly fun y hy k _ => hy.lanePowered k
  · refine List.foldlRecOn (motive := fun y => Keeps s y ((portLanes l).map SDS_LANE_STATUS)) _ _ hkeeps fun y hy k hk => ?_
    unfold State.lanePowered
    have hlane : SDS_LANE_STATUS k ∈ (portLanes l).map SDS_LANE_STATUS := List.mem_map_of_mem hk
    split
    · exact hy.put (SDS_LANE_STATUS_PWR k) 0 hlane
    · exact hy
  · exact (foldl_keeps_mem (fun y : State => y.lanes) (fun y k _ => y.lanes_lanePowered k) x).trans hlanes

/-- The checker loses lock: what it counted, and the loss. -/
def State.prbsLost (s : State) (l errors mbits : Nat) : State :=
  ((((s.addSat (SDS_ERR_COUNT_COUNT l) errors).addSat (SDS_BITS_CHECKED_COUNT l) mbits).putB (SDS_LANE_STATUS_PRBS_LOCK l) false).addSat
    (SDS_LOCK_LOSS_COUNT_COUNT l) 1)

theorem State.prbs_lost {l : Nat} (hchk : s.on (SDS_PRBS_CFG_CHK_EN l) = true) (hlock : s.on (SDS_LANE_STATUS_PRBS_LOCK l) = true) :
    s.prbs l false errors mbits = s.prbsLost l errors mbits := by
  unfold State.prbs
  rw [if_neg (by simp [hchk])]
  dsimp only
  rw [hlock, if_pos rfl, if_pos ⟨rfl, by decide⟩]
  rfl

theorem State.prbs_locks {l : Nat} (hchk : s.on (SDS_PRBS_CFG_CHK_EN l) = true) (hlock : s.on (SDS_LANE_STATUS_PRBS_LOCK l) = false) :
    s.prbs l true errors mbits = s.putB (SDS_LANE_STATUS_PRBS_LOCK l) true := by
  unfold State.prbs
  rw [if_neg (by simp [hchk])]
  dsimp only
  rw [hlock]
  rfl

theorem sdsCounters_ne (l : Nat) : SDS_ERR_COUNT l ≠ SDS_BITS_CHECKED l ∧ SDS_ERR_COUNT l ≠ SDS_LANE_STATUS l ∧ SDS_ERR_COUNT l ≠ SDS_LOCK_LOSS_COUNT l ∧
    SDS_BITS_CHECKED l ≠ SDS_LANE_STATUS l ∧ SDS_BITS_CHECKED l ≠ SDS_LOCK_LOSS_COUNT l ∧ SDS_LANE_STATUS l ≠ SDS_LOCK_LOSS_COUNT l := by
  unfold SDS_ERR_COUNT SDS_BITS_CHECKED SDS_LANE_STATUS SDS_LOCK_LOSS_COUNT
  omega

theorem State.prbsLost_shows (s : State) (l errors mbits : Nat) :
    let t := s.prbsLost l errors mbits
    t.on (SDS_LANE_STATUS_PRBS_LOCK l) = false ∧ t.get (SDS_ERR_COUNT_COUNT l) = min (2 ^ 32 - 1) (s.get (SDS_ERR_COUNT_COUNT l) + errors) ∧
      t.get (SDS_BITS_CHECKED_COUNT l) = min (2 ^ 32 - 1) (s.get (SDS_BITS_CHECKED_COUNT l) + mbits) ∧
      t.get (SDS_LOCK_LOSS_COUNT_COUNT l) = min (2 ^ 32 - 1) (s.get (SDS_LOCK_LOSS_COUNT_COUNT l) + 1) ∧
      RegsOnly s t ∧ Keeps s t [SDS_LANE_STATUS l, SDS_ERR_COUNT l, SDS_BITS_CHECKED l, SDS_LOCK_LOSS_COUNT l] := by
  obtain ⟨heb, hes, hel, hbs, hbl, hsl⟩ := sdsCounters_ne l
  have hregs : RegsOnly s (s.prbsLost l errors mbits) := ((((RegsOnly.refl s).addSat _ _).addSat _ _).putB _ _).addSat _ _
  have hkeeps : Keeps s (s.prbsLost l errors mbits) [SDS_LANE_STATUS l, SDS_ERR_COUNT l, SDS_BITS_CHECKED l, SDS_LOCK_LOSS_COUNT l] :=
    ((((Keeps.refl s _).addSat (SDS_ERR_COUNT_COUNT l) _ (by simp [SDS_ERR_COUNT_COUNT])).addSat (SDS_BITS_CHECKED_COUNT l) _
      (by simp [SDS_BITS_CHECKED_COUNT])).putB (SDS_LANE_STATUS_PRBS_LOCK l) _ (by simp [SDS_LANE_STATUS_PRBS_LOCK])).addSat (SDS_LOCK_LOSS_COUNT_COUNT l) _
      (by simp [SDS_LOCK_LOSS_COUNT_COUNT])
  refine ⟨?_, ?_, ?_, ?_, hregs, hkeeps⟩
  · rw [State.prbsLost, State.on_eq_of_get _ _ _ (State.get_addSat_apart _ _ (SDS_LANE_STATUS_PRBS_LOCK l) _ rfl (.inl hsl.symm))]
    exact State.on_putB_same _ _ _ rfl
  · rw [State.prbsLost, State.get_addSat_apart _ _ _ _ rfl (.inl hel.symm), State.get_putB_apart _ _ _ _ rfl (.inl hes.symm),
      State.get_addSat_apart _ _ _ _ rfl (.inl heb.symm), State.get_addSat_same _ _ _ rfl]
    rfl
  · rw [State.prbsLost, State.get_addSat_apart _ _ _ _ rfl (.inl hbl.symm), State.get_putB_apart _ _ _ _ rfl (.inl hbs.symm),
      State.get_addSat_same _ _ _ rfl, State.get_addSat_apart _ _ _ _ rfl (.inl heb)]
    rfl
  · rw [State.prbsLost, State.get_addSat_same _ _ _ rfl, State.get_putB_apart _ _ _ _ rfl (.inl hsl), State.get_addSat_apart _ _ _ _ rfl (.inl hbl),
      State.get_addSat_apart _ _ _ _ rfl (.inl hel)]
    rfl

/-! ### Standby loopback tests (R536) -/

/-- A test ends with a result: the lane's, and that of all lanes. -/
def State.loopJudged (s : State) (l : Nat) (bad ok : Bool) : State :=
  { s with lanes := s.lanes.set l { s.lane l with testing := false, loopBad := bad }, par := { s.par with loopOk := ok } }

theorem State.loopTestEnd_stops {l : Nat} (htesting : (s.lane l).testing = true) (hquiet : s.loopQuiet l = false) :
    s.loopTestEnd l errors mbits = s.updLane l (fun x => { x with testing := false }) := by
  unfold State.loopTestEnd
  rw [if_neg (by simp [htesting]), if_pos hquiet]

theorem State.loopTestEnd_judges {l : Nat} {bad : Bool} (htesting : (s.lane l).testing = true) (hquiet : s.loopQuiet l = true)
    (hbad : (List.range 52).any (fun k => ((s.updLane l (fun x => { x with testing := false, loopBad := errors != 0 })).lane k).loopBad) = bad) :
    s.loopTestEnd l errors mbits = if errors = 0 then s.loopJudged l (errors != 0) (!bad)
      else ((s.loopJudged l (errors != 0) (!bad)).report Ev.LOOP_FAIL l [1, errors, mbits] SDS_IRQ_CAUSE_LOOP_FAIL).notReady := by
  subst hbad
  unfold State.loopTestEnd
  rw [if_neg (by simp [htesting]), if_neg (by simp [hquiet])]
  rfl

/-- READY of PAR_HEALTH falls. -/
theorem State.notReady_shows (s : State) : let t := s.notReady
    t.on PAR_HEALTH_READY = false ∧ t.hidden = s.hidden ∧ Keeps s t ([PAR_HEALTH, PAR_IRQ_CAUSE] ++ evtRegs) ∧
      Acts (fun a => a ∈ [PAR_HEALTH, PAR_IRQ_CAUSE] ++ evtRegs) s t ∧ (s.on PAR_HEALTH_READY = true → PostsSome s t Ev.HEALTH_CHANGE 0xFFFF) := by
  have hready := State.on_putB_same s PAR_HEALTH_READY false rfl
  have hregs : RegsOnly s (s.putB PAR_HEALTH_READY false) := (RegsOnly.refl s).putB _ _
  have hkeeps : Keeps s (s.putB PAR_HEALTH_READY false) ([PAR_HEALTH, PAR_IRQ_CAUSE] ++ evtRegs) := (Keeps.refl s _).putB _ _ (by decide)
  have hacts : Acts (fun a => a ∈ [PAR_HEALTH, PAR_IRQ_CAUSE] ++ evtRegs) s (s.putB PAR_HEALTH_READY false) := (Acts.refl s).putB _ _ (by decide)
  have hisland : (s.putB PAR_HEALTH_READY false).rget (RST_ISLAND 1) = s.rget (RST_ISLAND 1) := State.rget_putB_ne _ _ _ _ (by decide)
  by_cases hon : s.on PAR_HEALTH_READY = true
  · have heff : s.notReady = (s.putB PAR_HEALTH_READY false).report Ev.HEALTH_CHANGE 0xFFFF [((s.putB PAR_HEALTH_READY false).rget PAR_HEALTH).toNat, 0]
        PAR_IRQ_CAUSE_HEALTH := if_pos hon
    rw [heff]
    generalize s.putB PAR_HEALTH_READY false = x at *
    exact ⟨(State.on_eq_of_get _ _ _ (State.get_report _ _ _ _ rfl (by decide) (by decide))).trans hready, (x.hidden_report ..).trans hregs.hidden,
      hkeeps.report _ _ _ _ (by decide), hacts.report _ _ _ _ (fun a h => List.mem_append_right _ h) (by decide),
      fun _ => PostsSome.of_event _ hacts.toGoesOn hisland (by decide) (State.cause_hif ..)⟩
  · have heff : s.notReady = s := if_neg hon
    rw [heff]
    exact ⟨Bool.eq_false_iff.mpr hon, rfl, Keeps.refl s _, Acts.refl s, fun h => absurd h hon⟩

/-- A test that fails: READY falls, and LOOP_FAIL is posted. -/
theorem State.loopFails_shows (s u : State) (l : Nat) (p : List Nat) (hhif : u.hif = s.hif) (htime : u.time = s.time) (hregs : u.regs = s.regs) :
    let t := (u.report Ev.LOOP_FAIL l p SDS_IRQ_CAUSE_LOOP_FAIL).notReady
    t.on PAR_HEALTH_READY = false ∧ Posts s t Ev.LOOP_FAIL l p ∧ (s.on PAR_HEALTH_READY = true → PostsSome s t Ev.HEALTH_CHANGE 0xFFFF) ∧
      t.hidden = u.hidden ∧ Keeps s t ([SDS_IRQ_CAUSE, PAR_HEALTH, PAR_IRQ_CAUSE] ++ evtRegs) := by
  have hrget (a : Nat) : u.rget a = s.rget a := by rw [State.rget, hregs, ← State.rget]
  have hposts : Posts s (u.report Ev.LOOP_FAIL l p SDS_IRQ_CAUSE_LOOP_FAIL) Ev.LOOP_FAIL l p :=
    (Posts.of_event s u _ _ _ hhif htime (hrget _) (by decide)).cause _
  have hacts : HostStays s (u.report Ev.LOOP_FAIL l p SDS_IRQ_CAUSE_LOOP_FAIL) := (HostStays.of_records hregs hhif).report _ _ _ _ (by decide)
  have hhidden := u.hidden_report Ev.LOOP_FAIL l p SDS_IRQ_CAUSE_LOOP_FAIL
  have hsame : Keeps s u ([SDS_IRQ_CAUSE, PAR_HEALTH, PAR_IRQ_CAUSE] ++ evtRegs) := fun a _ => hrget a
  have hkeeps : Keeps s (u.report Ev.LOOP_FAIL l p SDS_IRQ_CAUSE_LOOP_FAIL) ([SDS_IRQ_CAUSE, PAR_HEALTH, PAR_IRQ_CAUSE] ++ evtRegs) :=
    hsame.report _ _ _ _ (by decide)
  have hready : (u.report Ev.LOOP_FAIL l p SDS_IRQ_CAUSE_LOOP_FAIL).on PAR_HEALTH_READY = s.on PAR_HEALTH_READY :=
    (State.on_eq_of_get _ _ _ (State.get_report _ _ _ _ rfl (by decide) (by decide))).trans
      (State.on_eq_of_get _ _ _ (State.get_eq_of_rget _ _ PAR_HEALTH_READY (hrget _)))
  generalize u.report Ev.LOOP_FAIL l p SDS_IRQ_CAUSE_LOOP_FAIL = x at *
  obtain ⟨hoff, hhidden', hkeeps', hacts', hchange⟩ := x.notReady_shows
  generalize x.notReady = t at *
  exact ⟨hoff, hposts.extends hacts'.toExtends, fun h => (hchange (hready.trans h)).after hacts, hhidden'.trans hhidden,
    hkeeps.trans (hkeeps'.mono (by decide))⟩

end Loops

/-- Settles O59: what a command shows of a lane, case by case; a lane's own record changes through `State.updLane` alone. -/
theorem laneSettings : Obligations.LaneSettings := by
  unfold Obligations.LaneSettings
  refine ⟨?step, ?covered, ?low, ?good, ?idle, ?wake, ?signal, ?loop, ?refused, ?locks, ?lost, ?passes, ?fails, ?stops⟩
  case step =>
    intro s l
    obtain ⟨hlive, htarget, htaps, hregs, hkeeps⟩ := s.eqStep_shows l
    have hexec : exec (.laneEqStep l) s = finish (s.eqStep l) := rfl
    generalize s.eqStep l = t at *
    refine ⟨_, hexec, fun h => hlive.trans ?_, fun h => hlive.trans ?_, fun h => hlive.trans ?_, htarget, htaps, Silent.of_regsOnly hregs hkeeps⟩
    · unfold stepTo
      split_ifs <;> omega
    · unfold stepTo
      split_ifs <;> omega
    · unfold stepTo
      split_ifs <;> omega
  case covered =>
    intro s l w h hnot
    exact ⟨_, congrArg finish (if_pos hnot), Silent.refl s⟩
  case low =>
    intro s l w h hup hcovered hlen hbelow hlow
    have heff := State.fomCheck_low (w := w.val) (h := h.val) hup hcovered hlow hbelow
    obtain ⟨hw, hh, hf, hnow, hset, hposts⟩ := s.eyeLow_shows l w.isLt h.isLt hup hlen
    unfold State.eyeLow at hw hh hf hnow hset hposts
    generalize State.calTrigger _ chLANE 3 0 = t at *
    exact ⟨_, congrArg finish heff, hw, hh, hf, hnow, hset, hposts.trackIrq⟩
  case good =>
    intro s l w h hup hcovered hgood
    have heff := State.fomCheck_good (w := w.val) (h := h.val) hup hcovered hgood
    obtain ⟨hirq, -⟩ := sdsEye_ne l
    obtain ⟨-, -, hf, honly, hkeeps, hlanes⟩ := s.eyeShown_shows l false w.isLt h.isLt (fomOf_lt w h)
    generalize s.eyeShown l w h (fomOf w h) false = x at *
    have hf' : x.showLow.get (SDS_EYE_FOM l) = fomOf w h := (State.get_putB_apart _ _ _ _ rfl (.inl (Ne.symm hirq))).trans hf
    have honly' : LaneOnly s x.showLow := honly.putB _ _
    have hkeeps' : Keeps s x.showLow [SDS_EYE l, SDS_IRQ_CAUSE] := (hkeeps.mono (by simp +contextual)).putB _ _ (by simp [SDS_IRQ_CAUSE_LOW_NOW])
    have hlanes' : x.showLow.lanes = x.lanes := State.putB_lanes _ _ _
    generalize x.showLow = t at *
    exact ⟨_, congrArg finish heff, hf', Alters.of_laneOnly honly' hkeeps' (hlanes'.trans hlanes)⟩
  case idle =>
    intro s l hzero hust hall hpwr
    have hunit : s.ust (laneUnit l) = .on := laneUnit_val l ▸ hust
    have heff : s.idleEntry l = s.put (SDS_LANE_STATUS_PWR l) (min 2 (s.get (SDS_LANE_CFG_IDLE_PWR l))) :=
      if_pos ⟨hzero, hunit, hall, by omega⟩
    obtain ⟨t, hexec, hget, hsilent⟩ := nextPut (c := .laneIdleEntry l) (congrArg finish heff) rfl
    refine ⟨t, hexec, hget.trans (Nat.mod_eq_of_lt ?_), hsilent⟩
    exact (Nat.min_le_left _ _).trans_lt (show 2 < 2 ^ 2 by decide)
  case wake =>
    intro s l hzero hust hpwr
    have hunit : s.ust (laneUnit l) = .on := laneUnit_val l ▸ hust
    have heff : s.idleWake l = s.put (SDS_LANE_STATUS_PWR l) 0 := if_pos ⟨hzero, hunit, hpwr⟩
    exact nextPut (c := .laneIdleWake l) (congrArg finish heff) rfl
  case signal =>
    intro s l hzero hust
    have heff := s.signalDetect_eq hzero
    obtain ⟨hsig, hpwr, honly, hkeeps, hlanes⟩ := s.signalDetect_shows l hust
    generalize List.foldl State.lanePowered _ _ = t at *
    exact ⟨_, congrArg finish heff, hsig, hpwr, Alters.of_laneOnly honly hkeeps hlanes⟩
  case loop =>
    intro s req l v hreq hrun hok
    have hisland : ∀ l : Fin 52, islandOf (SDS_LANE_CFG l) = 11 := by decide
    have heff := State.reqWrite_island (s := s) (fun s => s.loopWrite l v) (hisland l) hreq hrun
    obtain ⟨t, hexec, hget, hsilent⟩ := nextPut (c := .loopWrite req l v) (congrArg finish (heff.trans (if_pos hok))) rfl
    exact ⟨t, hexec, hget.trans (Nat.mod_eq_of_lt (Nat.mod_lt _ (by decide))), hsilent⟩
  case refused =>
    intro s req l v hreq hrun hv htest
    have hisland : ∀ l : Fin 52, islandOf (SDS_LANE_CFG l) = 11 := by decide
    have heff := State.reqWrite_island (s := s) (fun s => s.loopWrite l v) (hisland l) hreq hrun
    have hnot : ¬(bits v.toNat 5 4 = 0 ∨ s.testOn l = true) := by simp [hv, htest]
    exact nextPutB (c := .loopWrite req l v) (congrArg finish (heff.trans (if_neg hnot))) rfl
  case locks =>
    intro s l errors mbits hchk hlock
    exact nextPutB (c := .prbsCheckerLock l true errors mbits) (congrArg finish (State.prbs_locks hchk hlock)) rfl
  case lost =>
    intro s l errors mbits hchk hlock
    have heff := State.prbs_lost (errors := errors) (mbits := mbits) hchk hlock
    obtain ⟨hoff, herr, hbits, hloss, hregs, hkeeps⟩ := s.prbsLost_shows l errors mbits
    generalize s.prbsLost l errors mbits = t at *
    exact ⟨_, congrArg finish heff, hoff, herr, hbits, hloss, Silent.of_regsOnly hregs hkeeps⟩
  case passes =>
    intro s l mbits htesting hquiet hothers hlen
    have hl : l.val < s.lanes.length := l.isLt.trans_eq hlen.symm
    have hgood : (List.range 52).any (fun k => ((s.updLane l (fun x => { x with testing := false, loopBad := 0 != 0 })).lane k).loopBad) = false := by
      refine List.any_eq_false.mpr fun k hk => ?_
      by_cases h : k = l.val
      · rw [h, s.lane_updLane_same _ hl]
        exact Bool.false_ne_true
      · rw [s.lane_updLane_ne _ h, hothers ⟨k, List.mem_range.mp hk⟩ fun e => h (congrArg Fin.val e)]
        exact Bool.false_ne_true
    have heff := (State.loopTestEnd_judges (mbits := mbits) htesting hquiet hgood).trans (if_pos rfl)
    exact ⟨_, congrArg finish heff, Alters.of_regsOnly rfl (RegsOnly.refl _) fun _ _ => rfl⟩
  case fails =>
    intro s l errors mbits htesting hquiet herrors hlen
    have hl : l.val < s.lanes.length := l.isLt.trans_eq hlen.symm
    have hne : (errors != 0) = true := by simpa using Nat.ne_of_gt herrors
    have hbad : (List.range 52).any (fun k => ((s.updLane l (fun x => { x with testing := false, loopBad := errors != 0 })).lane k).loopBad) = true :=
      List.any_eq_true.mpr ⟨l, List.mem_range.mpr l.isLt, by rw [s.lane_updLane_same _ hl]; exact hne⟩
    have heff := (State.loopTestEnd_judges (mbits := mbits) htesting hquiet hbad).trans (if_neg (Nat.ne_of_gt herrors))
    rw [hne] at heff
    have hjudged : (s.loopJudged l true (!true)).hidden =
        { s with lanes := s.lanes.set l { s.lane l with testing := false, loopBad := true }, par := { s.par with loopOk := false } }.hidden := rfl
    obtain ⟨hoff, hposts, hchange, hhidden, hkeeps⟩ := s.loopFails_shows (s.loopJudged l true (!true)) l [1, errors, mbits] rfl rfl rfl
    generalize s.loopJudged l true (!true) = u at *
    generalize State.notReady _ = t at *
    exact ⟨_, congrArg finish heff, hoff, hposts.trackIrq, fun h => (hchange h).trackIrq, hhidden.trans hjudged, hkeeps⟩
  case stops =>
    intro s l errors mbits htesting hquiet
    have heff := State.loopTestEnd_stops (errors := errors) (mbits := mbits) htesting hquiet
    exact ⟨_, congrArg finish heff, Alters.of_laneOnly ((LaneOnly.refl s).updLane l _) (Keeps.refl s _) (s.lanes_updLane l _)⟩

end Sys2Proof.Machine

namespace Sys2Proof.Machine

/-! ### Changes of the light bars that may report (R359 to R372) -/

/-- The registers that `W` holds of change, the bars change, and entries are only added. -/
structure LedActs (W : Nat → Prop) (s x : State) : Prop extends Acts W s x where
  hidden : x.hidden = { s with bars := x.bars }.hidden

section LedActs
variable {W V : Nat → Prop} {s x y : State}

theorem LedActs.refl (s : State) : LedActs W s s := ⟨Acts.refl s, rfl⟩

theorem LedActs.trans (h : LedActs W s x) (h' : LedActs W x y) : LedActs W s y := by
  refine ⟨h.toActs.trans h'.toActs, h'.hidden.trans ?_⟩
  have hbars : ({ x.hidden with bars := y.bars } : State) = { ({ s with bars := x.bars } : State).hidden with bars := y.bars } := by rw [h.hidden]
  exact hbars

theorem LedActs.mono (h : LedActs W s x) (hWV : ∀ a, W a → V a) : LedActs V s x := ⟨h.toActs.mono hWV, h.hidden⟩

theorem LedActs.foldl {α : Type} {f : State → α → State} (l : List α) (hf : ∀ y, ∀ a ∈ l, LedActs W y (f y a)) (s : State) :
    LedActs W s (l.foldl f s) :=
  List.foldlRecOn (motive := LedActs W s) l f (LedActs.refl s) fun y hy a ha => hy.trans (hf y a ha)

/-- A change that leaves the bars too. -/
theorem LedActs.of_hidden (hacts : Acts W s x) (h : x.hidden = s.hidden) : LedActs W s x := by
  have hbars : x.bars = s.bars := State.hidden_congr s x h State.bars
  refine ⟨hacts, h.trans ?_⟩
  rw [hbars]

theorem LedActs.rset (h : LedActs W s x) (a : Nat) (v : Word) (ha : W a) : LedActs W s (x.rset a v) :=
  h.trans (LedActs.of_hidden (Acts.of_hif rfl fun _ hb => State.rget_rset_ne _ _ _ _ fun e => hb (e ▸ ha)) (x.rset_hidden a v))

theorem LedActs.put (h : LedActs W s x) (f : Fld) (v : Nat) (hf : W f.off) : LedActs W s (x.put f v) := h.rset _ _ hf
theorem LedActs.putB (h : LedActs W s x) (f : Fld) (b : Bool) (hf : W f.off) : LedActs W s (x.putB f b) := h.put f _ hf
theorem LedActs.putS (h : LedActs W s x) (f : Fld) (v : Int) (hf : W f.off) : LedActs W s (x.putS f v) := h.put f _ hf
theorem LedActs.addSat (h : LedActs W s x) (f : Fld) (n : Nat) (hf : W f.off) : LedActs W s (x.addSat f n) := h.put f _ hf

theorem LedActs.event (h : LedActs W s x) (c u : Nat) (p : List Nat) (hevt : ∀ a ∈ evtRegs, W a) : LedActs W s (x.event c u p) :=
  h.trans (LedActs.of_hidden ((Acts.refl x).event c u p hevt) (x.event_hidden c u p))

theorem LedActs.report (h : LedActs W s x) (c u : Nat) (p : List Nat) (f : Fld) (hevt : ∀ a ∈ evtRegs, W a) (hf : W f.off) :
    LedActs W s (x.report c u p f) := (h.event c u p hevt).putB f true hf

theorem LedActs.setBar (h : LedActs W s x) (q : Nat) (b : Bar) : LedActs W s (x.setBar q b) := h.trans ⟨Acts.of_records rfl rfl, rfl⟩

/-- A command that leaves such a change. -/
theorem LedActs.alters {offs : List Nat} (h : LedActs (· ∈ offs ++ evtRegs) s x) : AltersPosting s x.trackIrq { s with bars := x.trackIrq.bars } offs :=
  ⟨h.hidden, fun a ha => (x.rget_trackIrq a).trans (h.rget a ha)⟩

theorem LedActs.enc (h : LedActs W s x) : x.enc = s.enc := by
  have he := congrArg State.enc h.hidden
  exact he
theorem LedActs.press (h : LedActs W s x) : x.press = s.press := by
  have hp := congrArg State.press h.hidden
  exact hp
theorem LedActs.time (h : LedActs W s x) : x.time = s.time := by
  have ht := congrArg State.time h.hidden
  exact ht

/-- Registers of the light bars and of events are not those that the web's speed is measured with (R412). -/
def spareWeb (a : Nat) : Prop := a < 0x110000 ∧ a ≠ PGP_WEB_SCALE

theorem LedActs.webV (h : LedActs W s x) (hW : ∀ a, W a → spareWeb a) : x.webV = s.webV := by
  have hstatus (m : Nat) : ¬W (ENC_M_STATUS m) := fun hm => by
    have := (hW _ hm).1
    unfold ENC_M_STATUS at this
    omega
  have hcfg (m : Nat) : ¬W (ENC_M_CFG m) := fun hm => by
    have := (hW _ hm).1
    unfold ENC_M_CFG at this
    omega
  have hstill (m : Nat) : x.on (ENC_M_STATUS_STANDSTILL m) = s.on (ENC_M_STATUS_STANDSTILL m) := h.on _ (hstatus m)
  have hlocked (m : Nat) : x.on (ENC_M_STATUS_LOCKED m) = s.on (ENC_M_STATUS_LOCKED m) := h.on _ (hstatus m)
  have hkind (m : Nat) : x.get (ENC_M_CFG_REF_KIND m) = s.get (ENC_M_CFG_REF_KIND m) := h.get _ (hcfg m)
  have hgap (m : Nat) : x.get (ENC_M_CFG_GAP m) = s.get (ENC_M_CFG_GAP m) := h.get _ (hcfg m)
  have hteeth (m : Nat) : x.get (ENC_M_CFG_TEETH m) = s.get (ENC_M_CFG_TEETH m) := h.get _ (hcfg m)
  have hscale : x.get PGP_WEB_SCALE_SCALE = s.get PGP_WEB_SCALE_SCALE := h.get _ fun hm => (hW _ hm).2 rfl
  have hexpect (m : Nat) (y : MasterIn) (b : Bool) : x.expectK m y b = s.expectK m y b := by
    rw [State.expectK, State.expectK, State.refKind, State.refKind, State.gapOf, State.gapOf, State.teeth, State.teeth, hkind, hgap, hteeth]
  have hminp (m : Nat) : x.minp m = s.minp m := State.minp_of_enc h.enc m
  have hpitch (m : Nat) : x.nextPitch m = s.nextPitch m := by rw [State.nextPitch, State.nextPitch, hlocked, hexpect, hminp]
  have hmaster (m : Nat) : x.masterV m = s.masterV m := by
    rw [State.masterV, State.masterV, hstill, hpitch, hminp, State.now, State.now, h.time]
  have hsel : x.masterSel = s.masterSel := congrArg Enc.sel h.enc
  rw [State.webV, State.webV, hmaster, hsel, h.press, hscale]

end LedActs

/-! ### The parts of an update of a bar (R360, R361) -/

section Update
variable {s x : State} {q : Fin 8} {xa xb : Int}

/-- The registers that an update of a bar without gaps and misses writes. -/
def updateRegs (q : Nat) : List Nat :=
  LED_BOARD_T q :: LED_BAR_STATUS q :: LED_DOSE_MARK q :: LED_IRQ_CAUSE :: (List.range 16).map (LED_DC_ACTIVE q)

/-- An update writes these and what events write. -/
def updateWrites (q a : Nat) : Prop := a ∈ updateRegs q ++ evtRegs

theorem updateWrites_evt (q : Nat) : ∀ a ∈ evtRegs, updateWrites q a := fun _ h => List.mem_append_right _ h

theorem updateWrites_board (q : Nat) : updateWrites q (LED_BOARD_T q) ∧ updateWrites q (LED_BAR_STATUS q) ∧ updateWrites q (LED_DOSE_MARK q) ∧
    updateWrites q LED_IRQ_CAUSE := by
  simp [updateWrites, updateRegs]

theorem updateWrites_dc (q : Nat) {i : Nat} (h : i < 16) : updateWrites q (LED_DC_ACTIVE q i) := by
  have hmem : LED_DC_ACTIVE q i ∈ (List.range 16).map (LED_DC_ACTIVE q) := List.mem_map_of_mem (List.mem_range.mpr h)
  simp [updateWrites, updateRegs, hmem]

theorem updateWrites_spareWeb (q : Fin 8) {a : Nat} (h : updateWrites q a) : spareWeb a := by
  have hall : ∀ q : Fin 8, ∀ a ∈ updateRegs q ++ evtRegs, spareWeb a := by unfold spareWeb; decide
  exact hall q a h

theorem LedActs.boardTemp (s : State) (q : Nat) : LedActs (updateWrites q) s (s.boardTemp q) := by
  obtain ⟨hboard, hbar, -, hcause⟩ := updateWrites_board q
  have hevt := updateWrites_evt q
  unfold State.boardTemp
  extract_lets i broken t was cut f s1 s2 s3
  have h1 : LedActs (updateWrites q) s s1 := ((LedActs.refl s).putS (LED_BOARD_T_T q) t hboard).putB (LED_BAR_STATUS_CUTOFF q) cut hbar
  have h2 : LedActs (updateWrites q) s s2 := by
    unfold s2
    split
    · exact h1
    · exact (h1.put (LED_BOARD_T_F_T q) _ hboard).putB (LED_BAR_STATUS_DERATE q) _ hbar
  have h3 : LedActs (updateWrites q) s s3 := by
    unfold s3
    split_ifs
    · exact h2.report _ _ _ _ hevt hcause
    · exact h2.event _ _ _ hevt
    · exact h2
  exact h3.putB _ _ hcause

theorem State.boardTemp_bars (s : State) (q : Nat) : (s.boardTemp q).bars = s.bars := by
  have hevent (y : State) (c u : Nat) (p : List Nat) : (y.event c u p).bars = y.bars := State.hidden_congr _ _ (y.event_hidden c u p) State.bars
  have hreport (y : State) (c u : Nat) (p : List Nat) (f : Fld) : (y.report c u p f).bars = y.bars :=
    State.hidden_congr _ _ (y.hidden_report c u p f) State.bars
  unfold State.boardTemp
  extract_lets i broken t was cut f s1 s2 s3
  have h2 : s2.bars = s.bars := by unfold s2; split <;> rfl
  have h3 : s3.bars = s.bars := by
    unfold s3
    split_ifs
    · exact (hreport ..).trans h2
    · exact (hevent ..).trans h2
    · exact h2
  exact h3

/-- What a step of the dot correction leaves of a bar. -/
structure Bar.SameLight (b c : Bar) : Prop where
  gs : c.gs = b.gs
  k : c.k = b.k
  misses : c.misses = b.misses
  mark : c.mark = b.mark
  dark : c.drivers.map Driver.dark = b.drivers.map Driver.dark

/-- The dot corrections in force step towards their targets. -/
def State.dcSteps (s : State) (q : Nat) : State :=
  (List.range 64).foldl (fun s z =>
    s.rset (LED_DC_ACTIVE q (z / 4)) (BitVec.ofNat 32 (setBits (s.rget (LED_DC_ACTIVE q (z / 4))).toNat (8 * (z % 4) + 6) (8 * (z % 4))
      (stepTo (bits (s.rget (LED_DC_ACTIVE q (z / 4))).toNat (8 * (z % 4) + 6) (8 * (z % 4)))
        (bits (s.rget (LED_DC q (z / 4))).toNat (8 * (z % 4) + 6) (8 * (z % 4))) 1)))) s

/-- The driver takes the dot corrections in force. -/
def State.dcDriver (s : State) (q : Nat) (e : Driver × Nat) : Driver :=
  { e.1 with pend := { e.1.pend with dc := (List.range 16).map (fun ch =>
    bits (s.rget (LED_DC_ACTIVE q ((16 * e.2 + ch) / 4))).toNat (8 * (ch % 4) + 6) (8 * (ch % 4))) } }

theorem State.dcStep_eq (s : State) (q : Nat) : s.dcStep q = if s.time.cyc < (s.bar q).dcAt + 25000000 then s else
    (s.dcSteps q).setBar q { (s.dcSteps q).bar q with dcAt := s.time.cyc, drivers := ((s.dcSteps q).bar q).drivers.zipIdx.map ((s.dcSteps q).dcDriver q) } := rfl

theorem LedActs.dcSteps (s : State) (q : Nat) : LedActs (updateWrites q) s (s.dcSteps q) :=
  LedActs.foldl _ (fun y z hz => (LedActs.refl y).rset _ _ (updateWrites_dc q (by have := List.mem_range.mp hz; omega))) s

theorem LedActs.dcStep (s : State) (q : Nat) : LedActs (updateWrites q) s (s.dcStep q) := by
  rw [State.dcStep_eq]
  split
  · exact LedActs.refl s
  · exact (LedActs.dcSteps s q).setBar q _

theorem State.dcSteps_bars (s : State) (q : Nat) : (s.dcSteps q).bars = s.bars := foldl_keeps State.bars (fun _ _ => State.rset_bars ..) _ s

theorem State.dcStep_sameLight (h : s.bars.length = 8) : (s.bar q).SameLight ((s.dcStep q).bar q) ∧ (s.dcStep q).bars.length = 8 := by
  rw [State.dcStep_eq]
  split
  · exact ⟨⟨rfl, rfl, rfl, rfl, rfl⟩, h⟩
  · have hbar : (s.dcSteps q).bar q = s.bar q := State.bar_of_bars (s.dcSteps_bars q) q
    have hlen : (s.dcSteps q).bars.length = 8 := by rw [State.dcSteps_bars, h]
    rw [State.bar_setBar_same hlen, hbar]
    refine ⟨⟨rfl, rfl, rfl, rfl, ?_⟩, (List.length_set ..).trans hlen⟩
    rw [List.map_map]
    exact zipIdx_map_eq_map fun _ _ => rfl

/-- The bar at the start of an update: its temperature is taken and its dot correction stepped. -/
def State.readied (s : State) (q : Nat) : State := (s.boardTemp q).dcStep q

theorem LedActs.readied (s : State) (q : Nat) : LedActs (updateWrites q) s (s.readied q) := (LedActs.boardTemp s q).trans (LedActs.dcStep _ q)

theorem State.readied_sameLight (h : s.bars.length = 8) : (s.bar q).SameLight ((s.readied q).bar q) ∧ (s.readied q).bars.length = 8 := by
  have hbars := s.boardTemp_bars q
  have hstep := State.dcStep_sameLight (s := s.boardTemp q) (q := q) (by rw [hbars, h])
  rwa [State.bar_of_bars hbars] at hstep

/-- A driver with a clock takes greyscales and a SYNC. -/
def Driver.taking (gs : List Nat) (e : Driver × Nat) : Driver :=
  if e.1.dark then e.1 else { e.1 with synced := true, pend := { e.1.pend with gs := (List.range 64).map (fun i => gs.getD (64 * e.2 + i) 0) } }

/-- A bar whose drivers take a block. -/
def Bar.sent (b : Bar) (gs : List Nat) : Bar := { b with gs := gs, misses := 0, drivers := b.drivers.zipIdx.map (Driver.taking gs) }

theorem Bar.sent_shows (b : Bar) (gs : List Nat) : let c := b.sent gs
    c.gs = gs ∧ c.k = b.k ∧ c.misses = 0 ∧ c.mark = b.mark ∧ c.drivers = b.drivers.zipIdx.map (Driver.taking gs) := ⟨rfl, rfl, rfl, rfl, rfl⟩

theorem State.sendGs_bar (gs : List Nat) (h : s.bars.length = 8) : (s.sendGs q gs).bar q = (s.bar q).sent gs :=
  State.bar_setBar_same h

theorem LedActs.sendGs (s : State) (q : Nat) (gs : List Nat) : LedActs (updateWrites q) s (s.sendGs q gs) := (LedActs.refl s).setBar q _

/-- A bar at the end of an update. -/
def Bar.ended (b : Bar) (mark : Option Int) (cov : AMap (List Nat)) : Bar := { b with mark := mark, k := b.k + 1, cov := cov }

theorem Bar.ended_shows (b : Bar) (mark : Option Int) (cov : AMap (List Nat)) : let c := b.ended mark cov
    c.gs = b.gs ∧ c.k = b.k + 1 ∧ c.misses = b.misses ∧ c.mark = mark ∧ c.drivers = b.drivers := ⟨rfl, rfl, rfl, rfl, rfl⟩

/-- The end of an update: the mark, the coverage still to come, and the status. -/
def State.marked (s : State) (q : Nat) (mark : Option Int) (cov : AMap (List Nat)) (blank : Bool) (dose : Word) : State :=
  (((s.setBar q ((s.bar q).ended mark cov)).putB (LED_BAR_STATUS_EMIT q)
    ((s.bar q).gs.any (fun g => g != 0))).putB (LED_BAR_STATUS_SPEED_BLANK q) blank).rset (LED_DOSE_MARK q) dose

variable {mark : Option Int} {cov : AMap (List Nat)} {blank : Bool} {dose : Word}

theorem LedActs.marked (s : State) (q : Nat) : LedActs (updateWrites q) s (s.marked q mark cov blank dose) := by
  obtain ⟨-, hbar, hmark, -⟩ := updateWrites_board q
  exact ((((LedActs.refl s).setBar q _).putB (LED_BAR_STATUS_EMIT q) _ hbar).putB (LED_BAR_STATUS_SPEED_BLANK q) _ hbar).rset _ _ hmark

theorem State.marked_bar (h : s.bars.length = 8) :
    (s.marked q mark cov blank dose).bar q = (s.bar q).ended mark cov :=
  State.bar_setBar_same h

theorem State.marked_emit (s : State) (q : Fin 8) :
    (s.marked q mark cov blank dose).on (LED_BAR_STATUS_EMIT q) = (s.bar q).gs.any (fun g => g != 0) := by
  have hapart : (LED_BAR_STATUS_SPEED_BLANK q).bitsApart (LED_BAR_STATUS_EMIT q) = true ∧ LED_DOSE_MARK q ≠ LED_BAR_STATUS q := by
    revert q
    decide
  unfold State.marked
  rw [State.on_eq_of_get _ _ _ (State.get_rset_ne _ _ _ (LED_BAR_STATUS_EMIT q) hapart.2), State.on_putB_bits _ _ _ _ rfl hapart.1]
  exact State.on_putB_same _ _ _ rfl

theorem State.chainErrors_zero (s : State) (q : Nat) : s.chainErrors q 0 = s := if_pos rfl

theorem State.lightGap_noJob {c : Nat} (h : s.press.job = none) : s.lightGap q xa xb c = s := by simp only [State.lightGap, h]

/-- A match on an option is its elimination, whatever the branches. -/
theorem match_eq_elim {α β : Type} {m : Option α → (α → β) → (Unit → β) → β} (hsome : ∀ f g c, m (some c) f g = f c)
    (hnone : ∀ f g, m none f g = g ()) (o : Option α) (f : α → β) (g : Unit → β) : m o f g = o.elim (g ()) f := by
  cases o with
  | none => exact hnone f g
  | some c => exact hsome f g c

/-- A gap is noted when there is one. -/
def State.gapNoted (s : State) (q : Nat) (xa xb : Int) (missed : Bool) : State :=
  (s.gapCause q xa xb (s.updateGs q xa xb) missed).elim s (fun c => s.lightGap q xa xb c)

theorem State.gapNoted_noJob {missed : Bool} (h : s.press.job = none) : s.gapNoted q xa xb missed = s := by
  unfold State.gapNoted
  cases s.gapCause q xa xb (s.updateGs q xa xb) missed with
  | none => rw [Option.elim_none]
  | some c => rw [Option.elim_some, State.lightGap_noJob h]

theorem State.gapNoted_still {missed : Bool} (h : s.webV.1 ≤ 0) : s.gapNoted q xa xb missed = s := by
  have hnone : s.gapCause q xa xb (s.updateGs q xa xb) missed = none := if_pos (.inl h)
  rw [State.gapNoted, hnone, Option.elim_none]

/-- The mark of a bar after an update: it moves on while the bar emits. -/
def State.newMark (s : State) (q : Nat) (xb : Int) : Option Int :=
  let emit := (s.bar q).gs.any (fun g => g != 0) && s.blankHigh
  let b := s.bar q
  if emit ∧ b.doseMark < xb then some xb else b.mark

theorem State.newMark_dark {q : Nat} (h : (s.bar q).gs.any (fun g => g != 0) = false) : s.newMark q xb = (s.bar q).mark := by
  unfold State.newMark
  rw [h, Bool.false_and]
  exact if_neg fun hlit => Bool.false_ne_true hlit.1

/-- What an update does after its block, at a bar whose state was `z` at its start. -/
def State.afterBlock (s z : State) (q : Nat) (xa xb : Int) (r : Nat × Bool × Bool) : State :=
  let mark := s.newMark q xb
  let s3 := s.marked q mark ((s.bar q).cov.filter (fun e => decide (z.litLine q 3 xa ≤ (e.1 : Int)))) (z.belowVmin q || decide (z.webV.1 < 0))
    (BitVec.ofNat 32 (twos 32 (mark.getD 0 / 65536)))
  let s4 := if r.2.1 then s3 else s3.syncMissed q
  s4.chainErrors q r.1

theorem State.ledOn_eq (s : State) (q : Nat) (xa xb : Int) (reply : ChainReply) : s.ledOn q xa xb reply =
    let z := s.readied q
    let r := replyOf q (z.bar q).k reply
    let s1 := z.gapNoted q xa xb (!r.2.1)
    (if r.2.2 then s1.sendGs q (z.updateGs q xa xb) else s1).afterBlock z q xa xb r := by
  unfold State.ledOn
  extract_lets s0 gs r cause s1 s2 emit b mark s3 s4 z r' s1'
  have hblock : s4.chainErrors q r.1 = s2.afterBlock s0 q xa xb r := rfl
  have hmatch : s1 = s1' := match_eq_elim (fun _ _ _ => rfl) (fun _ _ => rfl) cause (fun c => s0.lightGap q xa xb c) (fun _ => s0)
  rw [hblock]
  unfold s2
  rw [hmatch]
  rfl

/-- A block that is confirmed, without a gap that concerns a page. -/
theorem State.ledOn_confirmed (hgap : (s.readied q).press.job = none ∨ (s.readied q).webV.1 ≤ 0) : s.ledOn q xa xb (.confirmed 0) =
    ((s.readied q).sendGs q ((s.readied q).updateGs q xa xb)).afterBlock (s.readied q) q xa xb (0, true, true) := by
  have hnoted : (s.readied q).gapNoted q xa xb (!true) = s.readied q := hgap.elim State.gapNoted_noJob State.gapNoted_still
  rw [State.ledOn_eq]
  dsimp only [replyOf]
  rw [hnoted, if_pos rfl]

/-- A block that could not be confirmed. -/
theorem State.ledOn_unconfirmed (hjob : (s.readied q).press.job = none) : s.ledOn q xa xb (.unconfirmed 0) =
    (s.readied q).afterBlock (s.readied q) q xa xb (0, false, false) := by
  rw [State.ledOn_eq]
  dsimp only [replyOf]
  rw [State.gapNoted_noJob hjob, if_neg Bool.false_ne_true]

end Update

end Sys2Proof.Machine

namespace Sys2Proof.Machine

/-! ### The SYNC of an update and what it shows (R360, R361) -/

section Blocks
variable {s x z : State} {q : Fin 8} {xa xb : Int}

theorem State.afterBlock_sent (s z : State) (q : Nat) (xa xb : Int) : ∃ cov blank dose,
    s.afterBlock z q xa xb (0, true, true) = s.marked q (s.newMark q xb) cov blank dose :=
  ⟨_, _, _, (State.chainErrors_zero ..).trans (if_pos rfl)⟩

theorem State.afterBlock_missed (s z : State) (q : Nat) (xa xb : Int) : ∃ cov blank dose,
    s.afterBlock z q xa xb (0, false, false) = (s.marked q (s.newMark q xb) cov blank dose).syncMissed q :=
  ⟨_, _, _, (State.chainErrors_zero ..).trans (if_neg Bool.false_ne_true)⟩

/-- A bar that missed a SYNC. -/
def Bar.missed (b : Bar) : Bar := { b with misses := b.misses + 1 }

theorem Bar.missed_shows (b : Bar) : b.missed.gs = b.gs ∧ b.missed.misses = b.misses + 1 := ⟨rfl, rfl⟩

/-- A missed SYNC is counted. -/
def State.missCounted (s : State) (q : Nat) : State :=
  (s.setBar q (s.bar q).missed).addSat (LED_SYNC_MISS_COUNT q) 1

/-- A SYNC that is the first to be missed is counted and reported. -/
def State.firstMiss (s : State) (q : Nat) : State :=
  (s.missCounted q).report Ev.SYNC_MISSED q [(s.bar q).k, (s.bar q).misses + 1] LED_IRQ_CAUSE_SYNC_MISSED

theorem Keeps.missCounted (s : State) (q : Nat) : Keeps s (s.missCounted q) [LED_SYNC_MISS q] :=
  Keeps.addSat ((Keeps.refl s _).setBar q _) _ _ List.mem_cons_self

theorem State.syncMissed_first (h : (s.bar q).misses = 0) : s.syncMissed q = s.firstMiss q := by
  unfold State.syncMissed
  dsimp only
  rw [if_neg (by rw [h]; decide)]
  rfl

theorem missRegs_apart (q : Fin 8) : LED_IRQ_CAUSE ≠ LED_SYNC_MISS q ∧ LED_SYNC_MISS q ∉ evtRegs ∧ ¬updateWrites q (LED_SYNC_MISS q) ∧
    ¬updateWrites q (RST_ISLAND 1) := by
  unfold updateWrites
  revert q
  decide

theorem State.firstMiss_shows (h : s.bars.length = 8) :
    let t := s.firstMiss q
    t.bar q = (s.bar q).missed ∧
      t.get (LED_SYNC_MISS_COUNT q) = min (2 ^ 32 - 1) (s.get (LED_SYNC_MISS_COUNT q) + 1) ∧ PostsSome s t Ev.SYNC_MISSED q := by
  obtain ⟨hcause, hevt, -, -⟩ := missRegs_apart q
  refine ⟨?_, ?_, ?_⟩
  · have hbars : (s.firstMiss q).bars = (s.missCounted q).bars :=
      State.hidden_congr _ _ (State.hidden_report _ Ev.SYNC_MISSED q _ LED_IRQ_CAUSE_SYNC_MISSED) State.bars
    exact (State.bar_of_bars hbars q).trans (State.bar_setBar_same h)
  · rw [State.firstMiss, State.get_report _ _ _ _ rfl hcause hevt]
    exact State.get_addSat_same _ _ _ rfl
  · have hne : LED_SYNC_MISS q ≠ RST_ISLAND 1 := by
      revert q
      decide
    have hgo : GoesOn s (s.missCounted q) := GoesOn.of_hif rfl
    exact PostsSome.since hgo (Keeps.missCounted s q _ (by simpa using hne.symm))
      (PostsSome.report (s.missCounted q) Ev.SYNC_MISSED q _ LED_IRQ_CAUSE_SYNC_MISSED (by decide))

/-- A driver takes the greyscales of its chain. -/
theorem Driver.taking_shows {d : Driver} (gs : List Nat) (pos : Nat) (hdark : d.dark = false) :
    (Driver.taking gs (d, pos)).synced = true ∧
      (Driver.taking gs (d, pos)).pend.gs = (List.range 64).map (fun i => gs.getD (64 * pos + i) 0) := by
  rw [Driver.taking, if_neg (by simp [hdark])]
  exact ⟨rfl, rfl⟩

theorem getD_map_dark {l : List Driver} {i : Nat} (h : i < l.length) : (l.map Driver.dark).getD i false = (l.getD i Driver.reset).dark := by
  simp [List.getD_eq_getElem?_getD, h]

/-- The driver at a position takes the block of the bar at which its chain had a clock. -/
theorem Bar.SameLight.takes {b c : Bar} (h : b.SameLight c) (gs : List Nat) {pos : Nat} (hdark : (b.drivers.getD pos Driver.reset).dark = false)
    (hpos : pos < b.drivers.length) : let d := (c.drivers.zipIdx.map (Driver.taking gs)).getD pos Driver.reset
      d.synced = true ∧ d.pend.gs = (List.range 64).map (fun i => gs.getD (64 * pos + i) 0) := by
  have hlen : c.drivers.length = b.drivers.length := by
    have hmap := congrArg List.length h.dark
    rwa [List.length_map, List.length_map] at hmap
  have hpos' : pos < c.drivers.length := hlen.symm ▸ hpos
  have hclock : c.drivers[pos].dark = false := by
    have hget := getD_map_dark hpos'
    rw [h.dark, getD_map_dark hpos, hdark, List.getD_eq_getElem _ _ hpos'] at hget
    exact hget.symm
  have hd : (c.drivers.zipIdx.map (Driver.taking gs)).getD pos Driver.reset = Driver.taking gs (c.drivers[pos], pos) := by
    rw [List.getD_eq_getElem?_getD, zipIdx_map_getElem?, List.getElem?_eq_getElem hpos']
    rfl
  rw [hd]
  exact Driver.taking_shows gs pos hclock

/-- While the web stands an update gives only zeros. -/
theorem State.updateGs_still (h : s.webV.1 ≤ 0) : s.updateGs q xa xb = List.replicate 256 0 := by
  have hzero (z r : Nat) : s.ledGs q z r xa xb = 0 := if_pos (.inr h)
  unfold State.updateGs
  split
  · rfl
  · simp only [hzero, List.map_const', List.length_range]

end Blocks

/-! ### A bar enters FAULT (R361, R370) -/

section BarFault
variable {s : State} {q : Fin 8}

/-- The status of a bar that enters FAULT, before its event. -/
def State.barFaulted (s : State) (q : Fin 8) (reason : Nat) : State :=
  ((s.setUst (.bar q) .fault).setPend (.bar q) false).put (LED_BAR_STATUS_REASON q) reason

theorem barUnit_val (q : Fin 8) : barUnit q = .bar q := by rw [barUnit, Fin.ofNat_val_eq_self]

theorem State.barFault_eq (reason pos : Nat) (h : s.ust (.bar q) = .on) : s.barFault q reason pos =
    ((s.barFaulted q reason).report Ev.BAR_FAULT q [reason, pos] LED_IRQ_CAUSE_BAR_FAULT).putB (LED_BAR_STATUS_EMIT q) false := by
  rw [State.barFault, barUnit_val, State.faultUnit_starting_or_on _ _ (.inr h)]
  rfl

theorem barStatus_apart (q : Fin 8) : LED_BAR_STATUS q ∉ evtRegs ∧ LED_IRQ_CAUSE ≠ LED_BAR_STATUS q ∧ RST_ISLAND 1 ∉ [LED_BAR_STATUS q] := by
  revert q
  decide

theorem State.get_barFault (reason pos : Nat) (h : s.ust (.bar q) = .on) (g : Fld) (hoff : g.off = LED_BAR_STATUS q)
    (hbits : (LED_BAR_STATUS_EMIT q).bitsApart g = true) : (s.barFault q reason pos).get g = (s.barFaulted q reason).get g := by
  obtain ⟨hevt, hcause, -⟩ := barStatus_apart q
  rw [State.barFault_eq reason pos h, State.get_putB_bits _ _ _ _ rfl hbits]
  exact State.get_report _ _ _ _ rfl (hoff ▸ hcause) (hoff ▸ hevt)

/-- A bar that is ON and faults shows its reason, goes dark and posts BAR_FAULT. -/
theorem State.barFault_shows (reason pos : Nat) (hr : reason < 16) (h : s.ust (.bar q) = .on) :
    let t := (s.barFault q reason pos).trackIrq
    t.ust (.bar q) = .fault ∧ t.get (LED_BAR_STATUS_REASON q) = reason ∧ t.on (LED_BAR_STATUS_EMIT q) = false ∧
      Posts s t Ev.BAR_FAULT q [reason, pos] ∧ Touches s t [LED_BAR_STATUS q, LED_IRQ_CAUSE] := by
  obtain ⟨hevt, hcause, hisland⟩ := barStatus_apart q
  have hregs : RegsOnly s (s.barFaulted q reason) := (((RegsOnly.refl s).setUst _ _ (by simp)).setPend _ _ (by simp)).put _ _
  have hkeeps : Keeps s (s.barFaulted q reason) [LED_BAR_STATUS q] :=
    (((Keeps.refl s _).setUst (.bar q) _ List.mem_cons_self).setPend (.bar q) _ List.mem_cons_self).put _ _ List.mem_cons_self
  refine ⟨?_, ?_, ?_, ?_, ?_⟩
  · show UState.ofCode ((s.barFault q reason pos).get (LED_BAR_STATUS_STATE q)) = .fault
    rw [State.get_barFault reason pos h _ rfl rfl, State.barFaulted, State.get_put_bits _ _ _ _ rfl rfl]
    have hpend : ((s.setUst (.bar q) .fault).setPend (.bar q) false).get (LED_BAR_STATUS_STATE q) = (s.setUst (.bar q) .fault).get (LED_BAR_STATUS_STATE q) :=
      State.get_putB_bits _ _ _ _ rfl rfl
    rw [hpend]
    exact congrArg UState.ofCode (State.get_put_same _ _ _ rfl)
  · rw [State.get_trackIrq, State.get_barFault reason pos h _ rfl rfl]
    exact (State.get_put_same _ _ _ rfl).trans (Nat.mod_eq_of_lt hr)
  · rw [State.on_trackIrq, State.barFault_eq reason pos h]
    exact State.on_putB_same _ _ _ rfl
  · rw [State.barFault_eq reason pos h]
    refine ((Posts.of_event s _ _ _ _ ?_ ?_ (hkeeps _ hisland) (by decide)).cause _).putB _ _ |>.trackIrq
    · rw [hregs]
    · rw [hregs]
  · rw [State.barFault_eq reason pos h]
    refine Touches.mk' ?_ ?_
    · rw [State.putB_hidden, State.hidden_report, hregs.hidden]
    · exact (((hkeeps.mono (by simp)).event _ _ _ (evtRegs_sub_right _)).cause _ (by simp [LED_IRQ_CAUSE_BAR_FAULT])).putB (LED_BAR_STATUS_EMIT q) _
        (by simp [LED_BAR_STATUS_EMIT])

end BarFault

end Sys2Proof.Machine

namespace Sys2Proof.Machine

/-! ### Status reads (R368) -/

section Status
variable {s x y : State} {q : Fin 8}

theorem add_two_pow_div {v i : Nat} (h : v / 2 ^ i % 2 = 0) : (v + 2 ^ i) / 2 ^ (i + 1) = v / 2 ^ (i + 1) := by
  rw [pow_succ, ← Nat.div_div_eq_div_mul, ← Nat.div_div_eq_div_mul, Nat.add_div_right _ (Nat.two_pow_pos i)]
  omega

/-- Adding the weight of a clear bit leaves the others as they were. -/
theorem testBit_add_two_pow {v i j : Nat} (hclear : v.testBit i = false) (hij : j ≠ i) : (v + 2 ^ i).testBit j = v.testBit j := by
  rcases Nat.lt_or_gt_of_ne hij with h | h
  · rw [Nat.add_comm, Nat.testBit_two_pow_add_gt h]
  · obtain ⟨k, rfl⟩ : ∃ k, j = k + (i + 1) := ⟨j - (i + 1), by omega⟩
    have hzero : v / 2 ^ i % 2 = 0 := by
      rw [Nat.testBit_eq_decide_div_mod_eq, decide_eq_false_iff_not] at hclear
      omega
    rw [← Nat.testBit_div_two_pow, ← Nat.testBit_div_two_pow, add_two_pow_div hzero]

/-- LED_OPEN and LED_SHORT: the register of a kind of fault. -/
def faultReg (kind q i : Nat) : Nat := if kind = 1 then LED_OPEN q i else LED_SHORT q i

/-- Is a fault of a zone and row shown? -/
def State.shown (s : State) (kind q i b : Nat) : Bool := bit (s.rget (faultReg kind q i)).toNat b

theorem State.shown_open (s : State) (q i b : Nat) : s.shown 1 q i b = bit (s.trackIrq.rget (LED_OPEN q i)).toNat b := rfl
theorem State.shown_short (s : State) (q i b : Nat) : s.shown 2 q i b = bit (s.trackIrq.rget (LED_SHORT q i)).toNat b := rfl
theorem State.bar_trackIrq (s : State) (q : Nat) : s.trackIrq.bar q = s.bar q := rfl

/-- A new fault is shown and posted. -/
def State.faultSeen (s : State) (q pos r kind ch : Nat) : State :=
  (s.rset (faultReg kind q (2 * r + (16 * pos + ch) / 32)) (BitVec.ofNat 32
    ((s.rget (faultReg kind q (2 * r + (16 * pos + ch) / 32))).toNat + 2 ^ ((16 * pos + ch) % 32)))).report Ev.LED_FAULT q
      [16 * pos + ch, r, kind] LED_IRQ_CAUSE_LED_FAULT

/-- One channel of a status read. -/
def State.faultStep (q pos r kind mask : Nat) (s : State) (ch : Nat) : State :=
  if bit mask ch = true ∧ s.shown kind q (2 * r + (16 * pos + ch) / 32) ((16 * pos + ch) % 32) = false then s.faultSeen q pos r kind ch else s

/-- The registers that a status read of a bar writes. -/
def statusRegs (q : Nat) : List Nat := LED_IRQ_CAUSE :: ((List.range 8).map (LED_OPEN q) ++ (List.range 8).map (LED_SHORT q))

def statusWrites (q a : Nat) : Prop := a ∈ statusRegs q ++ evtRegs

theorem statusWrites_evt (q : Nat) : ∀ a ∈ evtRegs, statusWrites q a := fun _ h => List.mem_append_right _ h
theorem statusWrites_cause (q : Nat) : statusWrites q LED_IRQ_CAUSE := by simp [statusWrites, statusRegs]

theorem statusWrites_fault (kind q : Nat) {i : Nat} (h : i < 8) : statusWrites q (faultReg kind q i) := by
  have hopen : LED_OPEN q i ∈ (List.range 8).map (LED_OPEN q) := List.mem_map_of_mem (List.mem_range.mpr h)
  have hshort : LED_SHORT q i ∈ (List.range 8).map (LED_SHORT q) := List.mem_map_of_mem (List.mem_range.mpr h)
  unfold faultReg
  split
  · simp [statusWrites, statusRegs, hopen]
  · simp [statusWrites, statusRegs, hshort]

/-- Registers of faults are told apart from each other and from what reports write. -/
theorem faultReg_apart (kind : Nat) {i : Nat} (h : i < 8) (q : Fin 8) : LED_IRQ_CAUSE ≠ faultReg kind q i ∧ faultReg kind q i ∉ evtRegs := by
  have hopen : ∀ (i q : Fin 8), LED_IRQ_CAUSE ≠ LED_OPEN q i ∧ LED_OPEN q i ∉ evtRegs := by decide
  have hshort : ∀ (i q : Fin 8), LED_IRQ_CAUSE ≠ LED_SHORT q i ∧ LED_SHORT q i ∉ evtRegs := by decide
  unfold faultReg
  split
  · exact hopen ⟨i, h⟩ q
  · exact hshort ⟨i, h⟩ q

/-- What a status read leaves: the drivers, and every fault shown. -/
structure StatusStep (q : Fin 8) (s x : State) : Prop extends LedActs (statusWrites q) s x where
  drivers : (x.bar q).drivers = (s.bar q).drivers
  shown : ∀ kind i b, i < 8 → b < 32 → s.shown kind q i b = true → x.shown kind q i b = true

theorem StatusStep.refl (s : State) : StatusStep q s s := ⟨LedActs.refl s, rfl, fun _ _ _ _ _ h => h⟩
theorem StatusStep.trans (h : StatusStep q s x) (h' : StatusStep q x y) : StatusStep q s y :=
  ⟨h.toLedActs.trans h'.toLedActs, h'.drivers.trans h.drivers, fun k i b hi hb hs => h'.shown k i b hi hb (h.shown k i b hi hb hs)⟩

theorem StatusStep.foldl {α : Type} {f : State → α → State} (l : List α) (hf : ∀ y, ∀ a ∈ l, StatusStep q y (f y a)) (s : State) :
    StatusStep q s (l.foldl f s) :=
  List.foldlRecOn (motive := StatusStep q s) l f (StatusStep.refl s) fun y hy a ha => hy.trans (hf y a ha)

/-- A step of a run that sets what it should, after which it stays. -/
theorem StatusStep.foldl_shows {α : Type} {f : State → α → State} {l : List α} {a : α} (hf : ∀ y, ∀ a ∈ l, StatusStep q y (f y a)) (ha : a ∈ l)
    {kind i b : Nat} (hi : i < 8) (hb : b < 32) (hset : ∀ y, StatusStep q s y → (f y a).shown kind q i b = true) :
    (l.foldl f s).shown kind q i b = true := by
  obtain ⟨l1, l2, rfl⟩ := List.append_of_mem ha
  rw [List.foldl_append, List.foldl_cons]
  have hbefore : StatusStep q s (l1.foldl f s) := StatusStep.foldl l1 (fun y e he => hf y e (List.mem_append_left _ he)) s
  have hafter := StatusStep.foldl (q := q) l2 (fun y e he => hf y e (List.mem_append_right _ (List.mem_cons_of_mem _ he))) (f (l1.foldl f s) a)
  exact hafter.shown kind i b hi hb (hset _ hbefore)

variable {pos r kind ch : Nat}

theorem zone_lt (hpos : pos < 4) (hr : r < 4) (hch : ch < 16) : 2 * r + (16 * pos + ch) / 32 < 8 := by omega

theorem State.rget_faultSeen (s : State) (q : Fin 8) (kind : Nat) {a : Nat} (hcause : LED_IRQ_CAUSE ≠ a) (hevt : a ∉ evtRegs) :
    (s.faultSeen q pos r kind ch).rget a = (s.rset (faultReg kind q (2 * r + (16 * pos + ch) / 32)) (BitVec.ofNat 32
      ((s.rget (faultReg kind q (2 * r + (16 * pos + ch) / 32))).toNat + 2 ^ ((16 * pos + ch) % 32)))).rget a :=
  State.rget_report _ _ _ _ hcause hevt

theorem State.shown_faultSeen (s : State) (q : Fin 8) (hpos : pos < 4) (hr : r < 4) (hch : ch < 16)
    (hnew : s.shown kind q (2 * r + (16 * pos + ch) / 32) ((16 * pos + ch) % 32) = false) :
    (s.faultSeen q pos r kind ch).shown kind q (2 * r + (16 * pos + ch) / 32) ((16 * pos + ch) % 32) = true := by
  obtain ⟨hcause, hevt⟩ := faultReg_apart kind (zone_lt hpos hr hch) q
  rw [State.shown, s.rget_faultSeen q kind hcause hevt, State.rget_rset_same, BitVec.toNat_ofNat]
  exact bit_add_two_pow (Nat.mod_lt _ (by decide)) hnew

theorem State.shown_faultSeen_keeps (s : State) (q : Fin 8)
    (hnew : s.shown kind q (2 * r + (16 * pos + ch) / 32) ((16 * pos + ch) % 32) = false) {k i b : Nat} (hi : i < 8) (hb : b < 32)
    (hs : s.shown k q i b = true) : (s.faultSeen q pos r kind ch).shown k q i b = true := by
  obtain ⟨hcause, hevt⟩ := faultReg_apart k hi q
  rw [State.shown, s.rget_faultSeen q kind hcause hevt]
  by_cases ha : faultReg kind q (2 * r + (16 * pos + ch) / 32) = faultReg k q i
  · unfold State.shown at hs hnew
    rw [← ha] at hs ⊢
    rw [State.rget_rset_same, BitVec.toNat_ofNat, bit_eq_testBit, Nat.testBit_mod_two_pow]
    rw [bit_eq_testBit] at hs hnew
    have hne : b ≠ (16 * pos + ch) % 32 := fun e => by
      rw [e, hnew] at hs
      exact Bool.false_ne_true hs
    rw [testBit_add_two_pow hnew hne, hs, decide_eq_true hb]
    rfl
  · rw [State.rget_rset_ne _ _ _ _ ha]
    exact hs

theorem StatusStep.faultStep (q : Fin 8) (hpos : pos < 4) (hr : r < 4) (kind mask : Nat) (s : State) (hch : ch < 16) :
    StatusStep q s (s.faultStep q pos r kind mask ch) := by
  unfold State.faultStep
  split
  case isTrue h =>
    have hacts : LedActs (statusWrites q) s (s.faultSeen q pos r kind ch) :=
      ((LedActs.refl s).rset _ _ (statusWrites_fault kind q (zone_lt hpos hr hch))).report _ _ _ _ (statusWrites_evt q) (statusWrites_cause q)
    have hbars : (s.faultSeen q pos r kind ch).bars = s.bars := State.hidden_congr _ _
      (State.hidden_report _ Ev.LED_FAULT q [16 * pos + ch, r, kind] LED_IRQ_CAUSE_LED_FAULT) State.bars
    exact ⟨hacts, by rw [State.bar_of_bars hbars], fun k i b hi hb hs => s.shown_faultSeen_keeps q h.2 hi hb hs⟩
  case isFalse => exact StatusStep.refl s

theorem StatusStep.ledFaults (s : State) (q : Fin 8) (hpos : pos < 4) (hr : r < 4) (kind mask : Nat) :
    StatusStep q s (s.ledFaults q pos r kind mask) :=
  StatusStep.foldl _ (fun y _ h => StatusStep.faultStep q hpos hr kind mask y (List.mem_range.mp h)) s

/-- A fault that a driver latched is shown when its row is read. -/
theorem State.ledFaults_shows (s : State) (q : Fin 8) (hpos : pos < 4) (hr : r < 4) {kind mask : Nat} (hch : ch < 16) (hbit : bit mask ch = true) :
    (s.ledFaults q pos r kind mask).shown kind q (2 * r + (16 * pos + ch) / 32) ((16 * pos + ch) % 32) = true := by
  refine StatusStep.foldl_shows (fun y _ h => StatusStep.faultStep q hpos hr kind mask y (List.mem_range.mp h)) (List.mem_range.mpr hch)
    (zone_lt hpos hr hch) (Nat.mod_lt _ (by decide)) fun y _ => ?_
  by_cases hold : y.shown kind q (2 * r + (16 * pos + ch) / 32) ((16 * pos + ch) % 32) = false
  · rw [State.faultStep, if_pos ⟨hbit, hold⟩]
    exact y.shown_faultSeen q hpos hr hch hold
  · rw [State.faultStep, if_neg fun h => hold h.2]
    exact Bool.not_eq_false _ ▸ hold

/-- The latches of one row of a driver are read. -/
def State.rowStatus (q pos : Nat) (d : Driver) (s : State) (r : Nat) : State :=
  (s.ledFaults q pos r 1 (d.opens.getD r 0)).ledFaults q pos r 2 (d.shorts.getD r 0)

theorem StatusStep.rowStatus (q : Fin 8) (hpos : pos < 4) (d : Driver) (s : State) (hr : r < 4) : StatusStep q s (s.rowStatus q pos d r) :=
  (StatusStep.ledFaults s q hpos hr 1 _).trans (StatusStep.ledFaults _ q hpos hr 2 _)

/-- The own limit of a driver is reported once. -/
def State.otStatus (s : State) (q pos : Nat) (d : Driver) : State :=
  let b := s.bar q
  if d.ot ∧ b.otLost.getD pos false = false then
    let z := (pickOf ((List.range 16).map (fun ch => 16 * pos + ch))).getD (16 * pos)
    let r := (pickOf [0, 1, 2, 3]).getD 0
    (s.setBar q { b with otLost := b.otLost.set pos true }).report Ev.LED_FAULT q [z, r, 3] LED_IRQ_CAUSE_LED_FAULT
  else s

theorem State.driverStatus_eq (s : State) (q pos : Nat) : s.driverStatus q pos =
    let d := (s.bar q).drivers.getD pos Driver.reset
    ((List.range 4).foldl (State.rowStatus q pos d) s).otStatus q pos d := rfl

theorem State.drivers_setBar (s : State) (q : Nat) {b : Bar} (h : b.drivers = (s.bar q).drivers) :
    ((s.setBar q b).bar q).drivers = (s.bar q).drivers := by
  by_cases hq : q < s.bars.length
  · simp [State.bar, State.setBar, List.getD_eq_getElem?_getD, hq] at h ⊢
    exact h
  · simp [State.bar, State.setBar, List.getD_eq_getElem?_getD, hq]

theorem StatusStep.otStatus (s : State) (q : Fin 8) (pos : Nat) (d : Driver) : StatusStep q s (s.otStatus q pos d) := by
  unfold State.otStatus
  extract_lets b z r
  split
  · have hbar : StatusStep q s (s.setBar q { b with otLost := b.otLost.set pos true }) :=
      ⟨(LedActs.refl s).setBar q _, s.drivers_setBar q rfl, fun _ _ _ _ _ h => h⟩
    generalize s.setBar q { b with otLost := b.otLost.set pos true } = y at *
    have hacts : LedActs (statusWrites q) y (y.report Ev.LED_FAULT q [z, r, 3] LED_IRQ_CAUSE_LED_FAULT) :=
      (LedActs.refl y).report _ _ _ _ (statusWrites_evt q) (statusWrites_cause q)
    have hbars : (y.report Ev.LED_FAULT q [z, r, 3] LED_IRQ_CAUSE_LED_FAULT).bars = y.bars := State.hidden_congr _ _
      (y.hidden_report Ev.LED_FAULT q [z, r, 3] LED_IRQ_CAUSE_LED_FAULT) State.bars
    refine hbar.trans ⟨hacts, by rw [State.bar_of_bars hbars], fun k i b hi _ hs => ?_⟩
    obtain ⟨hcause, hevt⟩ := faultReg_apart k hi q
    rw [State.shown, State.rget_report _ _ _ _ hcause hevt]
    exact hs
  · exact StatusStep.refl s

theorem StatusStep.rows (q : Fin 8) (hpos : pos < 4) (d : Driver) (s : State) :
    StatusStep q s ((List.range 4).foldl (State.rowStatus q pos d) s) :=
  StatusStep.foldl _ (fun y _ h => StatusStep.rowStatus q hpos d y (List.mem_range.mp h)) s

theorem StatusStep.driverStatus (q : Fin 8) (hpos : pos < 4) (s : State) : StatusStep q s (s.driverStatus q pos) := by
  rw [State.driverStatus_eq]
  exact (StatusStep.rows q hpos _ s).trans (StatusStep.otStatus _ q pos _)

/-- The latches of a driver: OPEN and SHORT of a row. -/
def Driver.latch (d : Driver) (kind r : Nat) : Nat := if kind = 1 then d.opens.getD r 0 else d.shorts.getD r 0

/-- The faults that a driver latched are shown when its status is read. -/
theorem State.driverStatus_shows (s : State) (q : Fin 8) (hpos : pos < 4) (hr : r < 4) (hch : ch < 16) (hkind : kind = 1 ∨ kind = 2)
    (hbit : bit (((s.bar q).drivers.getD pos Driver.reset).latch kind r) ch = true) :
    (s.driverStatus q pos).shown kind q (2 * r + (16 * pos + ch) / 32) ((16 * pos + ch) % 32) = true := by
  have hi := zone_lt hpos hr hch
  have hb : (16 * pos + ch) % 32 < 32 := Nat.mod_lt _ (by decide)
  rw [State.driverStatus_eq]
  generalize (s.bar q).drivers.getD pos Driver.reset = d at *
  refine (StatusStep.otStatus _ q pos d).shown kind _ _ hi hb ?_
  refine StatusStep.foldl_shows (fun y _ h => StatusStep.rowStatus q hpos d y (List.mem_range.mp h)) (List.mem_range.mpr hr) hi hb fun y _ => ?_
  rcases hkind with rfl | rfl
  · exact (StatusStep.ledFaults _ q hpos hr 2 _).shown 1 _ _ hi hb (y.ledFaults_shows q hpos hr hch hbit)
  · exact State.ledFaults_shows _ q hpos hr hch hbit

theorem StatusStep.ledStatus (s : State) (q : Fin 8) : StatusStep q s ((List.range 4).foldl (fun s pos => s.driverStatus q pos) s) :=
  StatusStep.foldl _ (fun y _ h => StatusStep.driverStatus q (List.mem_range.mp h) y) s

/-- A status read of a bar that is ON shows what its drivers latched. -/
theorem State.ledStatus_shows (s : State) (q : Fin 8) (hpos : pos < 4) (hr : r < 4) (hch : ch < 16) (hkind : kind = 1 ∨ kind = 2)
    (hbit : bit (((s.bar q).drivers.getD pos Driver.reset).latch kind r) ch = true) :
    ((List.range 4).foldl (fun s pos => s.driverStatus q pos) s).shown kind q (2 * r + (16 * pos + ch) / 32) ((16 * pos + ch) % 32) = true := by
  refine StatusStep.foldl_shows (fun y _ h => StatusStep.driverStatus q (List.mem_range.mp h) y) (List.mem_range.mpr hpos) (zone_lt hpos hr hch)
    (Nat.mod_lt _ (by decide)) fun y hy => ?_
  refine y.driverStatus_shows q hpos hr hch hkind ?_
  rw [hy.drivers]
  exact hbit

end Status

end Sys2Proof.Machine

namespace Sys2Proof.Machine

/-! ### CLEAR of a bar (R368) -/

section Clear
variable {s x y : State} {q : Fin 8}

/-- The fault registers at an index are cleared. -/
def State.faultsCleared (q : Nat) (s : State) (i : Nat) : State := (s.rset (LED_OPEN q i) 0).rset (LED_SHORT q i) 0

theorem State.barClear_eq (s : State) (q : Nat) : s.barClear q = (List.range 8).foldl (State.faultsCleared q)
    (s.setBar q { s.bar q with otLost := List.replicate 4 false, drivers := (s.bar q).drivers.map (fun d => if d.dark then d else d.clear 15) }) := rfl

/-- The registers that CLEAR writes. -/
def clearRegs (q : Nat) : List Nat := (List.range 8).map (LED_OPEN q) ++ (List.range 8).map (LED_SHORT q)

theorem faultRegs_apart : ∀ (i j q : Fin 8), LED_OPEN q i ≠ LED_SHORT q j := by
  intro i j q
  unfold LED_OPEN LED_SHORT
  omega

/-- Only registers of CLEAR change, and none of them gets a fault. -/
structure ClearStep (q : Fin 8) (s x : State) : Prop where
  regs : RegsOnly s x
  keeps : Keeps s x (clearRegs q)
  zero : ∀ a, s.rget a = 0 → x.rget a = 0

theorem ClearStep.refl (s : State) : ClearStep q s s := ⟨RegsOnly.refl s, Keeps.refl s _, fun _ h => h⟩

theorem State.rget_rset_zero (s : State) (a b : Nat) (h : s.rget b = 0) : (s.rset a 0).rget b = 0 := by
  by_cases hab : a = b
  · rw [hab, State.rget_rset_same]
  · rw [State.rget_rset_ne _ _ _ _ hab, h]

theorem ClearStep.step (h : ClearStep q s x) {i : Nat} (hi : i < 8) : ClearStep q s (x.faultsCleared q i) := by
  have hopen : LED_OPEN q i ∈ clearRegs q := List.mem_append_left _ (List.mem_map_of_mem (List.mem_range.mpr hi))
  have hshort : LED_SHORT q i ∈ clearRegs q := List.mem_append_right _ (List.mem_map_of_mem (List.mem_range.mpr hi))
  exact ⟨(h.regs.rset _ _).rset _ _, (h.keeps.rset _ _ hopen).rset _ _ hshort,
    fun a ha => State.rget_rset_zero _ _ _ (State.rget_rset_zero _ _ _ (h.zero a ha))⟩

theorem ClearStep.foldl (q : Fin 8) {l : List Nat} (hl : ∀ i ∈ l, i < 8) (s : State) : ClearStep q s (l.foldl (State.faultsCleared q) s) :=
  List.foldlRecOn (motive := ClearStep q s) l _ (ClearStep.refl s) fun _ hy i hi => hy.step (hl i hi)

theorem State.faultsCleared_zero (s : State) (q i : Fin 8) : (s.faultsCleared q i).rget (LED_OPEN q i) = 0 ∧ (s.faultsCleared q i).rget (LED_SHORT q i) = 0 := by
  refine ⟨?_, State.rget_rset_same _ _ _⟩
  unfold State.faultsCleared
  rw [State.rget_rset_ne _ _ _ _ (faultRegs_apart i i q).symm, State.rget_rset_same]

theorem State.allCleared (s : State) (q i : Fin 8) : let t := (List.range 8).foldl (State.faultsCleared q) s
    t.rget (LED_OPEN q i) = 0 ∧ t.rget (LED_SHORT q i) = 0 := by
  obtain ⟨l1, l2, hl⟩ := List.append_of_mem (List.mem_range.mpr i.isLt)
  dsimp only
  rw [hl, List.foldl_append, List.foldl_cons]
  have hrest := ClearStep.foldl (q := q) (l := l2)
    (fun j hj => List.mem_range.mp (hl ▸ List.mem_append_right _ (List.mem_cons_of_mem _ hj))) ((l1.foldl (State.faultsCleared q) s).faultsCleared q i)
  obtain ⟨hopen, hshort⟩ := State.faultsCleared_zero (l1.foldl (State.faultsCleared q) s) q i
  exact ⟨hrest.zero _ hopen, hrest.zero _ hshort⟩

/-- CLEAR with every bit set. -/
theorem Driver.clear_all (d : Driver) : d.clear 15 =
    { d with opens := List.replicate 4 0, shorts := List.replicate 4 0, ot := d.hot, crcErr := false } := rfl

theorem State.barClear_shows (h : s.bars.length = 8) :
    let t := (s.barClear q).trackIrq
    (∀ i : Fin 8, t.rget (LED_OPEN q i) = 0 ∧ t.rget (LED_SHORT q i) = 0) ∧ (t.bar q).otLost = List.replicate 4 false ∧
      (t.bar q).drivers = (s.bar q).drivers.map (fun d => if d.dark = true then d else
        { d with opens := List.replicate 4 0, shorts := List.replicate 4 0, ot := d.hot, crcErr := false }) ∧
      Alters s t { s with bars := t.bars } (clearRegs q) := by
  rw [State.barClear_eq]
  have hbar := State.bar_setBar_same (s := s) (q := q) (b := { s.bar q with
    otLost := List.replicate 4 false, drivers := (s.bar q).drivers.map (fun d => if d.dark then d else d.clear 15) }) h
  have hbars : BarsOnly s (s.setBar q { s.bar q with
    otLost := List.replicate 4 false, drivers := (s.bar q).drivers.map (fun d => if d.dark then d else d.clear 15) }) := (BarsOnly.refl s).setBar q _
  have hkeeps : Keeps s (s.setBar q { s.bar q with
    otLost := List.replicate 4 false, drivers := (s.bar q).drivers.map (fun d => if d.dark then d else d.clear 15) }) (clearRegs q) :=
    (Keeps.refl s _).setBar q _
  generalize s.setBar q _ = y at *
  have hclear := ClearStep.foldl q (fun i hi => List.mem_range.mp hi) y
  have hall := fun i => State.allCleared y q i
  generalize (List.range 8).foldl (State.faultsCleared q) y = z at *
  have hzbars : z.bars = y.bars := by rw [hclear.regs]
  have hzbar : z.trackIrq.bar q = y.bar q := State.bar_of_bars hzbars q
  refine ⟨hall, ?_, ?_, ?_⟩
  · rw [hzbar, hbar]
  · rw [hzbar, hbar]
    exact List.map_congr_left fun d _ => by rw [Driver.clear_all]
  · have honly : BarsOnly s z := by
      unfold BarsOnly RegsOnly at *
      rw [hclear.regs, hbars]
    exact Alters.of_regsOnly rfl honly fun a ha => (hclear.keeps a ha).trans (hkeeps a ha)

end Clear

/-! ### SENSE during a LED run (R372) -/

section Sense
variable {s : State} {q r : Fin 8}

/-- One SENSE register is added to the sums, when it holds samples. -/
def senseAdd (pos : Nat) (m : AMap (Nat × Nat)) (v : (Nat × Nat) × Nat) : AMap (Nat × Nat) :=
  if v.1.2 = 0 then m
  else m.set (64 * pos + v.2) ((m.get (64 * pos + v.2) (0, 0)).1 + v.1.1, (m.get (64 * pos + v.2) (0, 0)).2 + v.1.2)

/-- The SENSE registers of one driver are added. -/
def driverAdd (m : AMap (Nat × Nat)) (e : Driver × Nat) : AMap (Nat × Nat) := e.1.sense.zipIdx.foldl (senseAdd e.2) m

/-- A bar after its SENSE registers are read. -/
def Bar.sensed (b : Bar) : Bar :=
  { b with sums := b.drivers.zipIdx.foldl driverAdd b.sums, drivers := b.drivers.map (fun d => { d with sense := List.replicate 64 (0, 0) }) }

theorem Bar.sensed_drivers (b : Bar) : b.sensed.drivers = b.drivers.map (fun d => { d with sense := List.replicate 64 (0, 0) }) := rfl

theorem senseAdd_other (pos k : Nat) (m : AMap (Nat × Nat)) (v : (Nat × Nat) × Nat) (h : 64 * pos + v.2 ≠ k) :
    AMap.get (senseAdd pos m v) k (0, 0) = m.get k (0, 0) := by
  unfold senseAdd
  split
  · rfl
  · exact AMap.get_set_ne _ _ _ _ _ h

/-- Additions of other registers leave a sum. -/
theorem foldl_senseAdd_other {pos k : Nat} {l : List ((Nat × Nat) × Nat)} (h : ∀ v ∈ l, 64 * pos + v.2 ≠ k) (m : AMap (Nat × Nat)) :
    AMap.get (l.foldl (senseAdd pos) m) k (0, 0) = m.get k (0, 0) :=
  foldl_keeps_mem (fun m => AMap.get m k (0, 0)) (fun m v hv => senseAdd_other pos k m v (h v hv)) m

/-- A driver adds its register to the sum of its zone and row. -/
theorem driverAdd_same (m : AMap (Nat × Nat)) {d : Driver} {pos i v n : Nat} (hget : d.sense[i]? = some (v, n)) (hn : n ≠ 0) :
    AMap.get (driverAdd m (d, pos)) (64 * pos + i) (0, 0) =
      ((m.get (64 * pos + i) (0, 0)).1 + v, (m.get (64 * pos + i) (0, 0)).2 + n) := by
  obtain ⟨hi, hval⟩ := List.getElem?_eq_some_iff.mp hget
  obtain ⟨l1, l2, hl, hbefore, hafter⟩ := zipIdx_split d.sense i hi
  have hother1 : ∀ e ∈ l1, 64 * pos + e.2 ≠ 64 * pos + i := fun e he => by have := hbefore e he; omega
  have hother2 : ∀ e ∈ l2, 64 * pos + e.2 ≠ 64 * pos + i := fun e he => by have := hafter e he; omega
  unfold driverAdd
  rw [hl, List.foldl_append, List.foldl_cons, foldl_senseAdd_other hother2, hval]
  have hold := foldl_senseAdd_other hother1 m
  unfold senseAdd at hold ⊢
  rw [if_neg hn, AMap.get_set_same, hold]

theorem driverAdd_other {k : Nat} (m : AMap (Nat × Nat)) (e : Driver × Nat) (hlen : e.1.sense.length ≤ 64) (h : k / 64 ≠ e.2) :
    AMap.get (driverAdd m e) k (0, 0) = m.get k (0, 0) := by
  refine foldl_senseAdd_other (fun v hv => ?_) m
  have hv' : v.2 < e.1.sense.length := List.snd_lt_of_mem_zipIdx hv
  omega

/-- The sum of a zone and row takes the register of its driver. -/
theorem Bar.sensed_sum {b : Bar} {pos i v n : Nat} (hpos : pos < b.drivers.length) (hi : i < 64)
    (hget : (b.drivers.getD pos Driver.reset).sense[i]? = some (v, n)) (hn : n ≠ 0) (hlen : ∀ d ∈ b.drivers, d.sense.length ≤ 64) :
    b.sensed.sums.get (64 * pos + i) (0, 0) = ((b.sums.get (64 * pos + i) (0, 0)).1 + v, (b.sums.get (64 * pos + i) (0, 0)).2 + n) := by
  obtain ⟨l1, l2, hl, hbefore, hafter⟩ := zipIdx_split b.drivers pos hpos
  have hdiv : (64 * pos + i) / 64 = pos := by omega
  have hmem : ∀ e ∈ l1 ++ (b.drivers[pos], pos) :: l2, e.1.sense.length ≤ 64 := fun e he => hlen _ (List.fst_mem_of_mem_zipIdx (hl ▸ he))
  have hkeep1 := foldl_keeps_mem (f := driverAdd) (l := l1) (fun m => AMap.get m (64 * pos + i) (0, 0))
    (fun m e he => driverAdd_other m e (hmem e (List.mem_append_left _ he)) (by have := hbefore e he; omega)) b.sums
  have hkeep2 := foldl_keeps_mem (f := driverAdd) (l := l2) (fun m => AMap.get m (64 * pos + i) (0, 0))
    (fun m e he => driverAdd_other m e (hmem e (List.mem_append_right _ (List.mem_cons_of_mem _ he))) (by have := hafter e he; omega))
  unfold Bar.sensed
  dsimp only
  rw [hl, List.foldl_append, List.foldl_cons]
  rw [List.getD_eq_getElem _ _ hpos] at hget
  exact (hkeep2 _).trans ((driverAdd_same _ hget hn).trans (by rw [hkeep1]))

theorem State.bar_setBar_ne {b : Bar} {q r : Nat} (h : r ≠ q) : (s.setBar q b).bar r = s.bar r := by
  simp [State.bar, State.setBar, List.getD_eq_getElem?_getD, List.getElem?_set_ne (Ne.symm h)]

theorem State.ledDone_setBar {b : Bar} {q r : Nat} (h : r ≠ q) : (s.setBar q b).ledDone r = s.ledDone r := by
  have hrget (a : Nat) : (s.setBar q b).rget a = s.rget a := rfl
  simp only [State.ledDone, State.rowGood, State.bar_setBar_ne h, hrget]

/-- A read of SENSE while another covered bar still needs samples. -/
theorem State.senseRead_shows (hrun : s.runState chLED = rsRUNNING) (hcov : s.ledCovered q = true) (hr : r ≠ q) (hcovr : s.ledCovered r = true)
    (hdone : s.ledDone r = false) : s.senseRead q = s.setBar q (s.bar q).sensed := by
  have hopen : ((List.range 8).filter (fun k => (s.setBar q (s.bar q).sensed).ledCovered k)).all
      (fun k => (s.setBar q (s.bar q).sensed).ledDone k) = false := by
    refine List.all_eq_false.mpr ⟨r, List.mem_filter.mpr ⟨List.mem_range.mpr r.isLt, hcovr⟩, ?_⟩
    rw [State.ledDone_setBar fun e => hr (Fin.ext e), hdone]
    exact Bool.false_ne_true
  unfold State.senseRead
  rw [if_neg (by simp [hrun, hcov])]
  exact if_neg (by rw [Bool.not_eq_true]; exact hopen)

end Sense

end Sys2Proof.Machine

namespace Sys2Proof.Machine

/-! ### LED_SCAN (R359, R360) -/

section Scan
variable {s : State} {v : Word}

/-- A right scan is stored and U shown. -/
def State.scanStored (s : State) (v : Word) : State := (s.put LED_SCAN_FREQ (bits v.toNat 15 0)).put LED_SCAN_KERF (bits v.toNat 25 16)

theorem State.ledScanWrite_ok (hoff : ∀ q : Fin 8, s.ust (.bar q) = .off) (hf : 2000 ≤ bits v.toNat 15 0) (hf' : bits v.toNat 15 0 ≤ 32000)
    (hk : 50 ≤ bits v.toNat 25 16) (hk' : bits v.toNat 25 16 ≤ 800) (hslot : 2 * bits v.toNat 25 16 + 200 ≤ slotTicks (bits v.toNat 15 0)) :
    s.ledScanWrite v = (s.scanStored v).showU := by
  have hall : (List.range 8).all (fun q => s.ust (barUnit q) == .off) = true := by
    refine List.all_eq_true.mpr fun q hq => ?_
    have hq' := hoff ⟨q, List.mem_range.mp hq⟩
    rw [← barUnit_val] at hq'
    exact beq_iff_eq.mpr hq'
  have hok : ((List.range 8).all (fun q => s.ust (barUnit q) == .off) && Nat.ble 2000 (bits v.toNat 15 0) && Nat.ble (bits v.toNat 15 0) 32000 &&
      Nat.ble 50 (bits v.toNat 25 16) && Nat.ble (bits v.toNat 25 16) 800 &&
      Nat.ble (2 * bits v.toNat 25 16 + 200) (slotTicks (bits v.toNat 15 0))) = true := by
    rw [hall, Nat.ble_eq.mpr hf, Nat.ble_eq.mpr hf', Nat.ble_eq.mpr hk, Nat.ble_eq.mpr hk', Nat.ble_eq.mpr hslot]
    rfl
  exact if_pos hok

theorem State.ledScanWrite_busy {q : Fin 8} (hq : s.ust (.bar q) ≠ .off) : s.ledScanWrite v = s.cause LED_IRQ_CAUSE_SCAN_ERR := by
  have hall : (List.range 8).all (fun q => s.ust (barUnit q) == .off) = false := by
    refine List.all_eq_false.mpr ⟨q, List.mem_range.mpr q.isLt, ?_⟩
    rw [barUnit_val]
    simpa using hq
  refine if_neg ?_
  rw [hall]
  exact Bool.false_ne_true

/-- U is at most 15 for a frame rate in range. -/
theorem ledU_lt {m f : Nat} (hm : m < 16) (hf : f ≤ 32000) : max (max 1 m) (ceilDiv (7572 * f) 100000000) < 16 := by
  have hceil : ceilDiv (7572 * f) 100000000 < 16 := by
    unfold ceilDiv
    omega
  omega

theorem State.scanStored_shows (hf : bits v.toNat 15 0 ≤ 32000) :
    let t := (s.scanStored v).showU.trackIrq
    t.get LED_SCAN_FREQ = bits v.toNat 15 0 ∧ t.get LED_SCAN_KERF = bits v.toNat 25 16 ∧
      t.get LED_UPDATE_U = max (max 1 (s.get LED_UPDATE_MIN)) (ceilDiv (7572 * bits v.toNat 15 0) 100000000) ∧
      Silent s t [LED_SCAN, LED_UPDATE] := by
  have hfreq : (s.scanStored v).get LED_SCAN_FREQ = bits v.toNat 15 0 := by
    rw [State.scanStored, State.get_put_bits _ _ _ _ rfl rfl, State.get_put_same _ _ _ rfl]
    exact Nat.mod_eq_of_lt (Nat.mod_lt _ (by decide))
  have hkerf : (s.scanStored v).get LED_SCAN_KERF = bits v.toNat 25 16 :=
    (State.get_put_same _ _ _ rfl).trans (Nat.mod_eq_of_lt (Nat.mod_lt _ (by decide)))
  have hregs : RegsOnly s (s.scanStored v) := ((RegsOnly.refl s).put _ _).put _ _
  have hkeeps : Keeps s (s.scanStored v) [LED_SCAN] := ((Keeps.refl s _).put _ _ List.mem_cons_self).put _ _ List.mem_cons_self
  have hmin : (s.scanStored v).get LED_UPDATE_MIN = s.get LED_UPDATE_MIN := hkeeps.get _ (by decide)
  generalize s.scanStored v = y at *
  have hu : y.ledU = max (max 1 (s.get LED_UPDATE_MIN)) (ceilDiv (7572 * bits v.toNat 15 0) 100000000) := by rw [State.ledU, hmin, hfreq]
  refine ⟨?_, ?_, ?_, Silent.of_regsOnly (hregs.put _ _) ((hkeeps.mono (by simp)).put _ _ (by decide))⟩
  · rw [State.get_trackIrq, State.showU, State.get_put_apart _ _ _ _ rfl (.inl (by decide)), hfreq]
  · rw [State.get_trackIrq, State.showU, State.get_put_apart _ _ _ _ rfl (.inl (by decide)), hkerf]
  · rw [State.get_trackIrq, State.showU, State.get_put_same _ _ _ rfl, hu]
    exact Nat.mod_eq_of_lt (ledU_lt (s.get_lt LED_UPDATE_MIN) hf)

end Scan

/-! ### Updates, as a whole (R360, R361, R365, R366) -/

section Updates
variable {s : State} {q : Fin 8} {xa xb : Int}

theorem State.ledUpdate_on (reply : ChainReply) (h : s.ust (.bar q) = .on) : s.ledUpdate q xa xb reply = s.ledOn q xa xb reply := by
  rw [State.ledUpdate, barUnit_val, h]
  rfl

/-- A confirmed block: greyscales, drivers, mark and status. -/
theorem State.confirmed_shows (hlen : s.bars.length = 8) (hgap : s.press.job = none ∨ s.webV.1 ≤ 0) :
    let t := s.ledOn q xa xb (.confirmed 0)
    (t.bar q).gs = (s.readied q).updateGs q xa xb ∧ (t.bar q).k = (s.bar q).k + 1 ∧ (t.bar q).misses = 0 ∧
      ((t.bar q).gs.any (fun g => g != 0) = false → (t.bar q).mark = (s.bar q).mark) ∧
      (t.bar q).drivers = ((s.readied q).bar q).drivers.zipIdx.map (Driver.taking ((s.readied q).updateGs q xa xb)) ∧
      t.on (LED_BAR_STATUS_EMIT q) = (t.bar q).gs.any (fun g => g != 0) ∧ LedActs (updateWrites q) s t := by
  have hacts := LedActs.readied s q
  obtain ⟨hlight, hlen'⟩ := State.readied_sameLight (q := q) hlen
  have hgap' : (s.readied q).press.job = none ∨ (s.readied q).webV.1 ≤ 0 := by
    rw [hacts.press, hacts.webV fun a => updateWrites_spareWeb q]
    exact hgap
  dsimp only
  rw [State.ledOn_confirmed hgap']
  generalize s.readied q = z at *
  have hsend := z.sendGs_bar (q := q) (z.updateGs q xa xb) hlen'
  have hsent := LedActs.sendGs z q (z.updateGs q xa xb)
  have hlen'' : (z.sendGs q (z.updateGs q xa xb)).bars.length = 8 := (List.length_set ..).trans hlen'
  generalize z.updateGs q xa xb = gs at *
  generalize z.sendGs q gs = y at *
  obtain ⟨cov, blank, dose, hend⟩ := y.afterBlock_sent z q xa xb
  have hbar := State.marked_bar (q := q) (mark := y.newMark q xb) (cov := cov) (blank := blank) (dose := dose) hlen''
  have hemit := State.marked_emit (mark := y.newMark q xb) (cov := cov) (blank := blank) (dose := dose) y q
  have hmarked := LedActs.marked (mark := y.newMark q xb) (cov := cov) (blank := blank) (dose := dose) y q
  rw [hend]
  generalize y.marked q (y.newMark q xb) cov blank dose = t at *
  obtain ⟨hgs, hk, hmisses, hmark, hdrivers⟩ := Bar.ended_shows (y.bar q) (y.newMark q xb) cov
  obtain ⟨hgs', hk', hmisses', hmark', hdrivers'⟩ := Bar.sent_shows (z.bar q) gs
  rw [hbar, hgs, hk, hmisses, hmark, hdrivers, hemit, hsend, hgs', hk', hmisses', hdrivers', hlight.k]
  refine ⟨rfl, rfl, rfl, fun hdark => ?_, rfl, rfl, (hacts.trans hsent).trans hmarked⟩
  have hstays := State.newMark_dark (s := y) (q := q) (xb := xb) (by rw [hsend, hgs', hdark])
  rw [hstays, hsend, hmark', hlight.mark]

/-- The first block that is not confirmed. -/
theorem State.missed_shows (hlen : s.bars.length = 8) (hjob : s.press.job = none) (hfirst : (s.bar q).misses = 0) :
    let t := s.ledOn q xa xb (.unconfirmed 0)
    (t.bar q).gs = (s.bar q).gs ∧ (t.bar q).misses = 1 ∧
      t.get (LED_SYNC_MISS_COUNT q) = min (2 ^ 32 - 1) (s.get (LED_SYNC_MISS_COUNT q) + 1) ∧ PostsSome s t Ev.SYNC_MISSED q := by
  have hacts := LedActs.readied s q
  obtain ⟨hlight, hlen'⟩ := State.readied_sameLight (q := q) hlen
  obtain ⟨-, -, hcount, hisland⟩ := missRegs_apart q
  dsimp only
  rw [State.ledOn_unconfirmed ((congrArg Press.job hacts.press).trans hjob)]
  generalize s.readied q = z at *
  obtain ⟨cov, blank, dose, hend⟩ := z.afterBlock_missed z q xa xb
  have hbar := State.marked_bar (q := q) (mark := z.newMark q xb) (cov := cov) (blank := blank) (dose := dose) hlen'
  have hmarked := hacts.trans (LedActs.marked (mark := z.newMark q xb) (cov := cov) (blank := blank) (dose := dose) z q)
  have hlen'' : (z.marked q (z.newMark q xb) cov blank dose).bars.length = 8 := (List.length_set ..).trans hlen'
  rw [hend]
  generalize z.marked q (z.newMark q xb) cov blank dose = y at *
  obtain ⟨hgs, -, hmisses, -, -⟩ := Bar.ended_shows (z.bar q) (z.newMark q xb) cov
  have hmisses : (y.bar q).misses = 0 := by rw [hbar, hmisses, hlight.misses, hfirst]
  obtain ⟨hbar', hget, hposts⟩ := State.firstMiss_shows (q := q) hlen''
  rw [State.syncMissed_first hmisses]
  obtain ⟨hgs', hmissed⟩ := Bar.missed_shows (y.bar q)
  refine ⟨?_, ?_, ?_, PostsSome.since hmarked.toGoesOn (hmarked.rget _ hisland) hposts⟩
  · rw [hbar', hgs', hbar, hgs, hlight.gs]
  · rw [hbar', hmissed, hmisses]
  · rw [hget, hmarked.get (LED_SYNC_MISS_COUNT q) hcount]

end Updates

theorem islandOf_scan : islandOf LED_SCAN = 15 := by decide
theorem islandOf_barCmd : ∀ q : Fin 8, islandOf (LED_BAR_CMD q) = 15 := by decide

/-- Settles O43: every update is its parts in turn, read off the bar at its start; status reads only add to the faults shown, and the rest
writes what it names. -/
theorem lightBars : Obligations.LightBars := by
  unfold Obligations.LightBars
  refine ⟨?scan, ?busy, ?update, ?still, ?missed, ?status, ?lost, ?clear, ?sense⟩
  case scan =>
    intro s req v hreq hrun hoff hf hf' hk hk' hslot
    have heff := (s.reqWrite_island (fun s => s.ledScanWrite v) islandOf_scan hreq hrun).trans (State.ledScanWrite_ok hoff hf hf' hk hk' hslot)
    exact ⟨_, congrArg finish heff, State.scanStored_shows hf'⟩
  case busy =>
    intro s req v q hreq hrun hq
    have heff := (s.reqWrite_island (fun s => s.ledScanWrite v) islandOf_scan hreq hrun).trans (State.ledScanWrite_busy hq)
    exact nextPutB (f := LED_IRQ_CAUSE_SCAN_ERR) (congrArg finish heff) rfl
  case update =>
    intro s q xa xb hon hjob hlen
    obtain ⟨hgs, hk, hmisses, -, hdrivers, -, hacts⟩ := State.confirmed_shows (q := q) (xa := xa) (xb := xb) hlen (.inl hjob)
    obtain ⟨hlight, -⟩ := State.readied_sameLight (q := q) hlen
    have heff := State.ledUpdate_on (xa := xa) (xb := xb) (.confirmed 0) hon
    generalize s.ledOn q xa xb (.confirmed 0) = t at *
    refine ⟨_, congrArg finish heff, ?_⟩
    rw [State.bar_trackIrq]
    refine ⟨hgs, hk, hmisses, fun pos hdark hpos => ?_, hacts.alters⟩
    have htakes := hlight.takes ((s.readied q).updateGs q xa xb) hdark hpos
    rw [← hdrivers, ← hgs] at htakes
    exact htakes
  case still =>
    intro s q xa xb hon hlen hweb
    have hweb' : (s.readied q).webV.1 ≤ 0 := by rwa [(LedActs.readied s q).webV fun a => updateWrites_spareWeb q]
    obtain ⟨hgs, -, -, hmark, -, hemit, -⟩ := State.confirmed_shows (q := q) (xa := xa) (xb := xb) hlen (.inr hweb)
    have heff := State.ledUpdate_on (xa := xa) (xb := xb) (.confirmed 0) hon
    generalize s.ledOn q xa xb (.confirmed 0) = t at *
    rw [State.updateGs_still hweb'] at hgs
    have hdark : (t.bar q).gs.any (fun g => g != 0) = false := by
      rw [hgs, List.any_replicate]
      rfl
    refine ⟨_, congrArg finish heff, ?_⟩
    rw [State.bar_trackIrq, State.on_trackIrq]
    exact ⟨hgs, hmark hdark, hemit.trans hdark⟩
  case missed =>
    intro s q xa xb hon hjob hlen hfirst
    obtain ⟨hgs, hmisses, hcount, hposts⟩ := State.missed_shows (q := q) (xa := xa) (xb := xb) hlen hjob hfirst
    have heff := State.ledUpdate_on (xa := xa) (xb := xb) (.unconfirmed 0) hon
    generalize s.ledOn q xa xb (.unconfirmed 0) = t at *
    refine ⟨_, congrArg finish heff, ?_⟩
    rw [State.bar_trackIrq, State.get_trackIrq]
    exact ⟨hgs, hmisses, hcount, hposts.trackIrq⟩
  case status =>
    intro s q hon
    have heff : s.ledStatus q true = (List.range 4).foldl (fun s pos => s.driverStatus q pos) s := by
      rw [State.ledStatus, barUnit_val, hon]
      rfl
    have hacts := (StatusStep.ledStatus s q).toLedActs
    have hopens (pos r : Fin 4) (ch : Fin 16) := s.ledStatus_shows (kind := 1) q pos.isLt r.isLt ch.isLt (.inl rfl)
    have hshorts (pos r : Fin 4) (ch : Fin 16) := s.ledStatus_shows (kind := 2) q pos.isLt r.isLt ch.isLt (.inr rfl)
    generalize (List.range 4).foldl (fun s pos => s.driverStatus q pos) s = t at *
    simp only [State.shown_open, State.shown_short] at hopens hshorts
    exact ⟨_, congrArg finish heff, hopens, hshorts, hacts.alters⟩
  case lost =>
    intro s q hon
    have heff : s.ledStatus q false = s.barFault q 2 0xFF := by
      rw [State.ledStatus, barUnit_val, hon]
      rfl
    exact ⟨_, congrArg finish heff, State.barFault_shows 2 0xFF (by decide) hon⟩
  case clear =>
    intro s req q hreq hrun hlen
    exact ⟨_, congrArg finish (s.reqWrite_island (fun s => s.barClear q) (islandOf_barCmd q) hreq hrun), State.barClear_shows hlen⟩
  case sense =>
    intro s q r hrun hcov hr hcovr hdone hlen
    have heff := State.senseRead_shows hrun hcov (fun e => hr e) hcovr hdone
    have hbar : (s.setBar q (s.bar q).sensed).trackIrq.bar q = (s.bar q).sensed := State.bar_setBar_same hlen
    have halters := Alters.setBar s q (s.bar q).sensed
    generalize s.setBar q (s.bar q).sensed = t at *
    refine ⟨_, congrArg finish heff, by rw [hbar, Bar.sensed_drivers], fun pos i v n hfour hget hn hsense => ?_, halters⟩
    rw [hbar]
    exact Bar.sensed_sum (pos.isLt.trans_eq hfour.symm) i.isLt hget hn hsense

end Sys2Proof.Machine

namespace Sys2Proof.Machine

/-! ### A change of one record that is reported (R74) -/

section Reported
variable {s u y : State} {f : Fld} {offs : List Nat}

theorem AltersPosting.of_hidden (hh : y.hidden = u.hidden) (hk : Keeps s y (offs ++ evtRegs)) : AltersPosting s y.trackIrq u offs := ⟨hh, hk⟩

/-- A state that differs from `u` in registers alone reports. -/
theorem RegsOnly.reported (h : RegsOnly u y) (hu : u.hif = s.hif) (ht : u.time = s.time) (hk : Keeps s y offs) (hisland : RST_ISLAND 1 ∉ offs)
    (hf : f.off ∈ offs) {c : Nat} (hc : c ≠ Ev.EVT_LOST) (unit : Nat) (p : List Nat) :
    let t := (y.report c unit p f).trackIrq
    Posts s t c unit p ∧ AltersPosting s t u offs := by
  have hhif : y.hif = s.hif := by rw [h, ← hu]
  have htime : y.time = s.time := by rw [h, ← ht]
  refine ⟨((Posts.of_event s y c unit p hhif htime (hk _ hisland) hc).cause f).trackIrq, ?_, ?_⟩
  · exact (y.hidden_report c unit p f).trans h.hidden
  · exact ((hk.mono fun a ha => List.mem_append_left _ ha).event _ _ _ (evtRegs_sub_right _)).cause f (List.mem_append_left _ hf)

end Reported

/-! ### Bring-up of the DRAM (R457) -/

section BringUp
variable {s : State} {f : Fld}

theorem dmcRegs_ne : DMC_IRQ_CAUSE ≠ DMC_STATUS ∧ DMC_STATUS ∉ evtRegs ∧ RST_ISLAND 1 ∉ [DMC_STATUS, DMC_IRQ_CAUSE] := by decide

/-- A report of the controller leaves what DMC_STATUS shows. -/
theorem State.get_dmcReport (s : State) {c : Nat} {p : List Nat} (hok : f.ok = true) (hf : f.off = DMC_IRQ_CAUSE) {g : Fld} (hg : g.off = DMC_STATUS) :
    (s.report c 0xFFFF p f).trackIrq.get g = s.get g :=
  (State.get_trackIrq ..).trans (State.get_report _ _ _ _ hok (by rw [hf, hg]; decide) (by rw [hg]; decide))

theorem State.on_dmcReport (s : State) {c : Nat} {p : List Nat} (hok : f.ok = true) (hf : f.off = DMC_IRQ_CAUSE) {g : Fld} (hg : g.off = DMC_STATUS) :
    (s.report c 0xFFFF p f).trackIrq.on g = s.on g := State.on_eq_of_get _ _ _ (s.get_dmcReport hok hf hg)

/-- A change of the controller's record with writes of DMC_STATUS is reported. -/
theorem RegsOnly.dmcReported {u y : State} (h : RegsOnly u y) (hu : u.hif = s.hif) (ht : u.time = s.time) (hk : Keeps s y [DMC_STATUS])
    (hf : f.off = DMC_IRQ_CAUSE) {c : Nat} (hc : c ≠ Ev.EVT_LOST) (p : List Nat) :
    let t := (y.report c 0xFFFF p f).trackIrq
    Posts s t c 0xFFFF p ∧ AltersPosting s t u [DMC_STATUS, DMC_IRQ_CAUSE] :=
  h.reported hu ht (hk.mono (by simp)) dmcRegs_ne.2.2 (by simp [hf]) hc 0xFFFF p

/-! INIT. -/

theorem State.dmcInit_starts (hbusy : s.dmc.initBusy = false) (hdone : s.on DMC_STATUS_INIT_DONE = false) :
    s.dmcInit = ({ s with dmc := { s.dmc with cfg := some (s.rget DMC_CFG), initBusy := true } } : State).put DMC_STATUS_INIT_ERR 0 :=
  if_neg (by simp [hbusy, hdone])

/-- The controller after bring-up step 2. -/
def Dmc.stepped (d : Dmc) (sup : Bool) : Dmc := { d with initBusy := false, rfmSupported := sup }

/-- What DMC_STATUS shows after a bring-up that was right. -/
def State.initShown (s : State) (sup rq : Bool) : State :=
  (({ s with dmc := s.dmc.stepped sup } : State).putB DMC_STATUS_INIT_DONE true).putB DMC_STATUS_RFM_REQ rq

/-- What DMC_STATUS shows after one that failed. -/
def State.initErr (s : State) (sup : Bool) (err : Nat) : State := ({ s with dmc := s.dmc.stepped sup } : State).put DMC_STATUS_INIT_ERR err

theorem State.dramInitDone_ok {sup rq : Bool} {dev : Nat} (hbusy : s.dmc.initBusy = true) (hvalid : cfgValid s.dmcCfg = true) :
    s.dramInitDone 0 sup rq dev = (s.initShown sup rq).report Ev.DRAM_INIT_DONE 0xFFFF [b2n rq, dev] DMC_IRQ_CAUSE_INIT := by
  unfold State.dramInitDone
  rw [if_neg (by simp [hbusy])]
  dsimp only
  rw [if_neg (by simp [hvalid])]
  rfl

theorem State.dramInitDone_fails {fail : Nat} {sup rq : Bool} {dev : Nat} (hbusy : s.dmc.initBusy = true) (hvalid : cfgValid s.dmcCfg = true)
    (hfail : fail = 2 ∨ fail = 3) : s.dramInitDone fail sup rq dev = (s.initErr sup fail).report Ev.INIT_FAIL 0xFFFF [fail] DMC_IRQ_CAUSE_INIT := by
  have herr : (if ¬cfgValid s.dmcCfg = true then 1 else if fail = 2 ∨ fail = 3 then fail else 0) = fail := by
    rw [if_neg (by simp [hvalid]), if_pos hfail]
  have hne : fail ≠ 0 := by omega
  unfold State.dramInitDone
  rw [if_neg (by simp [hbusy])]
  dsimp only
  rw [herr, if_pos hne]
  rfl

theorem State.initShown_shows (s : State) (sup rq : Bool) {dev : Nat} :
    let t := ((s.initShown sup rq).report Ev.DRAM_INIT_DONE 0xFFFF [b2n rq, dev] DMC_IRQ_CAUSE_INIT).trackIrq
    t.on DMC_STATUS_INIT_DONE = true ∧ t.on DMC_STATUS_RFM_REQ = rq ∧ Posts s t Ev.DRAM_INIT_DONE 0xFFFF [b2n rq, dev] ∧
      AltersPosting s t { s with dmc := s.dmc.stepped sup } [DMC_STATUS, DMC_IRQ_CAUSE] := by
  have hregs : RegsOnly { s with dmc := s.dmc.stepped sup } (s.initShown sup rq) := ((RegsOnly.refl _).putB _ _).putB _ _
  have hkeeps : Keeps s (s.initShown sup rq) [DMC_STATUS] :=
    ((Keeps.of_regs (s := s) (x := { s with dmc := s.dmc.stepped sup }) rfl).putB DMC_STATUS_INIT_DONE _ List.mem_cons_self).putB
      DMC_STATUS_RFM_REQ _ List.mem_cons_self
  refine ⟨?_, ?_, hregs.dmcReported rfl rfl hkeeps rfl (by decide) _⟩
  · rw [State.on_dmcReport _ rfl rfl rfl, State.initShown, State.on_putB_bits _ _ _ _ rfl rfl]
    exact State.on_putB_same _ _ _ rfl
  · rw [State.on_dmcReport _ rfl rfl rfl]
    exact State.on_putB_same _ _ _ rfl

theorem State.initErr_shows (s : State) (sup : Bool) {err : Nat} (herr : err < 16) :
    let t := ((s.initErr sup err).report Ev.INIT_FAIL 0xFFFF [err] DMC_IRQ_CAUSE_INIT).trackIrq
    t.get DMC_STATUS_INIT_ERR = err ∧ t.on DMC_STATUS_INIT_DONE = s.on DMC_STATUS_INIT_DONE ∧ Posts s t Ev.INIT_FAIL 0xFFFF [err] ∧
      AltersPosting s t { s with dmc := s.dmc.stepped sup } [DMC_STATUS, DMC_IRQ_CAUSE] := by
  have hregs : RegsOnly { s with dmc := s.dmc.stepped sup } (s.initErr sup err) := (RegsOnly.refl _).put _ _
  have hkeeps : Keeps s (s.initErr sup err) [DMC_STATUS] :=
    (Keeps.of_regs (s := s) (x := { s with dmc := s.dmc.stepped sup }) rfl).put _ _ List.mem_cons_self
  refine ⟨?_, ?_, hregs.dmcReported rfl rfl hkeeps rfl (by decide) _⟩
  · rw [State.get_dmcReport _ rfl rfl rfl, State.initErr, State.get_put_same _ _ _ rfl]
    exact Nat.mod_eq_of_lt herr
  · rw [State.on_dmcReport _ rfl rfl rfl, State.initErr, State.on_put_bits _ _ _ _ rfl rfl]
    rfl

/-! OPEN. -/

theorem State.dmcOpen_ready (hdone : s.on DMC_STATUS_INIT_DONE = true) (hready : s.on DMC_STATUS_READY = false) (hfill : s.on DMC_STATUS_FILLING = false)
    (hzero : s.on DMC_CTRL_ZERO_FILL = false) : s.dmcOpen = s.dramOpenDone 0 := by
  unfold State.dmcOpen
  rw [if_neg (by simp [hdone, hready, hfill]), if_neg (by simp [hzero])]

theorem State.dmcOpen_fills (hdone : s.on DMC_STATUS_INIT_DONE = true) (hready : s.on DMC_STATUS_READY = false) (hfill : s.on DMC_STATUS_FILLING = false)
    (hzero : s.on DMC_CTRL_ZERO_FILL = true) : s.dmcOpen = s.putB DMC_STATUS_FILLING true := by
  unfold State.dmcOpen
  rw [if_neg (by simp [hdone, hready, hfill]), if_pos hzero]

/-- READY and SIZE are shown. -/
def State.openShown (s : State) : State :=
  ((s.putB DMC_STATUS_FILLING false).putB DMC_STATUS_READY true).put DMC_STATUS_SIZE (cfgGiB s.dmcCfg)

theorem State.dramOpenDone_eq (s : State) (ms : Nat) :
    s.dramOpenDone ms = s.openShown.report Ev.DRAM_READY 0xFFFF [cfgGiB s.dmcCfg, ms] DMC_IRQ_CAUSE_READY := rfl

theorem cfgGiB_lt (c : Nat) : cfgGiB c < 256 := by
  unfold cfgGiB
  split_ifs <;> decide

theorem cfgGiB_fits (c : Nat) : cfgGiB c < 2 ^ (DMC_STATUS_SIZE.hi - DMC_STATUS_SIZE.lo + 1) := cfgGiB_lt c

/-- The DRAM is ready: `s` is the state before the fill, which leaves the registers. -/
theorem State.dramOpenDone_shows {u : State} (ms : Nat) (hhif : u.hif = s.hif) (htime : u.time = s.time) (hregs : u.regs = s.regs) (hdmc : u.dmc = s.dmc) :
    let t := (u.dramOpenDone ms).trackIrq
    t.on DMC_STATUS_READY = true ∧ t.on DMC_STATUS_FILLING = false ∧ t.get DMC_STATUS_SIZE = cfgGiB s.dmcCfg ∧
      Posts s t Ev.DRAM_READY 0xFFFF [cfgGiB s.dmcCfg, ms] ∧ AltersPosting s t u [DMC_STATUS, DMC_IRQ_CAUSE] := by
  have hcfg : u.dmcCfg = s.dmcCfg := by rw [State.dmcCfg, State.dmcCfg, State.rget, State.rget, hdmc, hregs]
  have honly : RegsOnly u u.openShown := (((RegsOnly.refl u).putB _ _).putB _ _).put _ _
  have hkeeps : Keeps s u.openShown [DMC_STATUS] :=
    (((Keeps.of_regs hregs).putB DMC_STATUS_FILLING _ List.mem_cons_self).putB DMC_STATUS_READY _ List.mem_cons_self).put DMC_STATUS_SIZE _
      List.mem_cons_self
  dsimp only
  rw [State.dramOpenDone_eq, ← hcfg]
  refine ⟨?_, ?_, ?_, honly.dmcReported hhif htime hkeeps rfl (by decide) _⟩
  · rw [State.on_dmcReport _ rfl rfl rfl, State.openShown, State.on_put_bits _ _ _ _ rfl rfl]
    exact State.on_putB_same _ _ _ rfl
  · rw [State.on_dmcReport _ rfl rfl rfl, State.openShown, State.on_put_bits _ _ _ _ rfl rfl, State.on_putB_bits _ _ _ _ rfl rfl]
    exact State.on_putB_same _ _ _ rfl
  · rw [State.get_dmcReport _ rfl rfl rfl, State.openShown, State.get_put_same _ _ _ rfl]
    exact Nat.mod_eq_of_lt (cfgGiB_fits u.dmcCfg)

/-! MR4 (R439). -/

/-- Rank 0 begins to be hot: what the controller keeps. -/
def Dmc.rankHot (d : Dmc) : Dmc := { d with hot := [true, false] }

theorem State.mr4Poll_hot (s : State) {c : Nat} (hcold : s.dmc.hot.getD 0 false = false) : s.mr4Poll [(c, true)] =
    ({ s.report Ev.DRAM_HOT 0xFFFF [0, c] DMC_IRQ_CAUSE_HOT with
      dmc := (s.report Ev.DRAM_HOT 0xFFFF [0, c] DMC_IRQ_CAUSE_HOT).dmc.rankHot } : State).putB DMC_STATUS_HOT true := by
  have hone : (List.range [(c, true)].length).foldl (fun (s : State) r =>
      if ([(c, true)].getD r (0, false)).2 ∧ ¬ s.dmc.hot.getD r false then
        (s.event' Ev.DRAM_HOT [r, ([(c, true)].getD r (0, false)).1]).cause DMC_IRQ_CAUSE_HOT
      else s) s = s.report Ev.DRAM_HOT 0xFFFF [0, c] DMC_IRQ_CAUSE_HOT := if_pos ⟨rfl, Bool.eq_false_iff.mp hcold⟩
  unfold State.mr4Poll
  dsimp only
  rw [hone]
  rfl

theorem State.mr4Poll_shows (s : State) {c : Nat} (hcold : s.dmc.hot.getD 0 false = false) :
    let t := (s.mr4Poll [(c, true)]).trackIrq
    t.on DMC_STATUS_HOT = true ∧ Posts s t Ev.DRAM_HOT 0xFFFF [0, c] ∧
      AltersPosting s t { s with dmc := s.dmc.rankHot } [DMC_STATUS, DMC_IRQ_CAUSE] := by
  have hposts : Posts s (s.report Ev.DRAM_HOT 0xFFFF [0, c] DMC_IRQ_CAUSE_HOT) Ev.DRAM_HOT 0xFFFF [0, c] :=
    (Posts.of_event s s _ _ _ rfl rfl rfl (by decide)).cause _
  have hhidden := s.hidden_report Ev.DRAM_HOT 0xFFFF [0, c] DMC_IRQ_CAUSE_HOT
  have hkeeps : Keeps s (s.report Ev.DRAM_HOT 0xFFFF [0, c] DMC_IRQ_CAUSE_HOT) ([DMC_STATUS, DMC_IRQ_CAUSE] ++ evtRegs) :=
    ((Keeps.refl s _).event _ _ _ (evtRegs_sub_right _)).cause _ (by decide)
  rw [State.mr4Poll_hot s hcold]
  generalize s.report Ev.DRAM_HOT 0xFFFF [0, c] DMC_IRQ_CAUSE_HOT = y at *
  have hdmc : y.dmc = s.dmc := State.hidden_congr _ _ hhidden State.dmc
  refine ⟨(State.on_trackIrq ..).trans (State.on_putB_same _ _ _ rfl), (hposts.after fun _ h => h).trackIrq, AltersPosting.of_hidden ?_ ?_⟩
  · have hset : ({ y.hidden with dmc := y.dmc.rankHot } : State) = { s.hidden with dmc := s.dmc.rankHot } := by rw [hhidden, hdmc]
    rw [State.putB_hidden]
    exact hset
  · have hmem : DMC_STATUS_HOT.off ∈ [DMC_STATUS, DMC_IRQ_CAUSE] ++ evtRegs := by decide
    exact Keeps.putB (Keeps.trans hkeeps (Keeps.of_regs rfl)) DMC_STATUS_HOT true hmem

end BringUp

end Sys2Proof.Machine

namespace Sys2Proof.Machine

/-! ### The end of a sweep of one point (R459) -/

section Sweep
variable {s x : State} {a kind : Nat} {es : List Nat}

theorem widestRun_one (b : Bool) : widestRun [b] = if b = true then some (0, 1) else none := by
  cases b with
  | false => rfl
  | true => simp [widestRun, runsOf, Nat.mod_one]

theorem State.sweepPoints_one (h : s.get DMC_SWEEP_RANGE_START = s.get DMC_SWEEP_RANGE_STOP) : s.sweepPoints = [s.get DMC_SWEEP_RANGE_START] := by
  simp [State.sweepPoints, ← h]

/-- The eye of a lane of a sweep of one point. -/
def State.laneEye (s : State) (a l : Nat) (good : Bool) : State :=
  if good = true then ((s.put (DMC_EYE_FIRST l) a).put (DMC_EYE_LAST l) a).putB (DMC_EYE_VALID l) true else s.putB (DMC_EYE_VALID l) false

/-- The errors and the eye of a lane that a sweep covers. -/
def State.laneSwept (kind a : Nat) (es : List Nat) (s : State) (l : Nat) : State :=
  if s.sweepLane kind l = true then (s.put (DMC_LANE_ERR_ERR l) (es.getD l 0)).laneEye a l (es.getD l 0 == 0) else s

/-- The swept settings stay at the last point. -/
def State.pointKept (kind a : Nat) (s : State) (l : Nat) : State :=
  if s.laneSel l = true then
    s.dlySet (dlyKey kind (s.get DMC_SWEEP_CFG_SUBCH) (s.get DMC_SWEEP_CFG_RANK) l)
      { s.dlyGet (dlyKey kind (s.get DMC_SWEEP_CFG_SUBCH) (s.get DMC_SWEEP_CFG_RANK) l) with live := a }
  else s

/-- A sweep is over. -/
def State.sweepOver (s : State) (a : Nat) : State :=
  ((({ s with dmc := { s.dmc with sweepAbort := false } } : State).putB DMC_SWEEP_STATUS_BUSY false).putB DMC_SWEEP_STATUS_DONE true).put
    DMC_SWEEP_STATUS_POINT a

theorem State.sweepDone_one (p : SweepPoint) (hbusy : s.on DMC_SWEEP_STATUS_BUSY = true) (ha : s.get DMC_SWEEP_RANGE_START = a)
    (hstop : s.get DMC_SWEEP_RANGE_STOP = a) (hkind : s.get DMC_SWEEP_CFG_KIND = kind) :
    s.sweepDone [p] = (((List.range (dlyCount kind)).foldl (State.pointKept kind a)
      ((List.range 40).foldl (State.laneSwept kind a (s.pointErrs p)) s)).sweepOver a).cause DMC_IRQ_CAUSE_SWEEP := by
  have hpts : s.sweepPoints = [a] := by rw [State.sweepPoints_one (ha.trans hstop.symm), ha]
  unfold State.sweepDone
  extract_lets pts n kind' errs last s1 s2
  have hn : n = 1 := by
    unfold n pts
    rw [hpts]
    rfl
  have hlen : pts.length = 1 := congrArg List.length hpts
  have herrs : errs = [s.pointErrs p] := by
    unfold errs
    rw [hn]
    rfl
  have hlast : last = a := by
    unfold last pts
    rw [hpts, hn]
    rfl
  have hzero (d : Nat) : pts.getD 0 d = a := by
    unfold pts
    rw [hpts]
    rfl
  have hs1 : s1 = (List.range 40).foldl (State.laneSwept kind a (s.pointErrs p)) s := by
    refine List.foldl_ext _ _ _ fun y l _ => ?_
    have hrun : widestRun (errs.map (fun p => p.getD l 0 == 0)) = if (s.pointErrs p).getD l 0 == 0 then some (0, 1) else none := by
      rw [herrs]
      exact widestRun_one _
    unfold State.laneSwept
    by_cases hcov : y.sweepLane kind l = true
    · have hcov' : ¬(¬y.sweepLane kind' l = true ∨ n = 0) := by simp [kind', hkind, hcov, hn]
      rw [if_pos hcov, if_neg hcov', hrun, hn, herrs]
      cases hgood : (s.pointErrs p).getD l 0 == 0 with
      | true =>
        dsimp only
        rw [if_pos rfl]
        dsimp only
        rw [hzero]
        rfl
      | false => rfl
    · have hcov' : ¬y.sweepLane kind' l = true ∨ n = 0 := .inl (by simpa [kind', hkind] using hcov)
      rw [if_neg hcov, if_pos hcov']
  have hs2 : s2 = (List.range (dlyCount kind)).foldl (State.pointKept kind a) s1 := by
    have hk : kind' = kind := hkind
    unfold s2
    rw [hk]
    refine List.foldl_ext _ _ _ fun y l _ => ?_
    unfold State.pointKept
    dsimp only
    rw [hlast]
    by_cases hsel : y.laneSel l = true
    · rw [if_pos hsel, if_pos ⟨hsel, by rw [hn]; decide⟩]
    · rw [if_neg hsel, if_neg fun h => hsel h.1]
  rw [if_neg (by rw [hn, hlen]; simp [hbusy]), hlast, ← hs1, ← hs2]
  rfl

end Sweep

end Sys2Proof.Machine

namespace Sys2Proof.Machine

/-! ### What a sweep shows (R459) -/

section Shown
variable {s x y : State} {a kind : Nat} {es : List Nat}

/-- The registers of a lane's errors and eye. -/
def laneRegs (l : Nat) : List Nat := [DMC_LANE_ERR l, DMC_EYE l]

theorem laneRegs_apart {k l : Nat} (hk : k < 40) (hl : l < 40) (h : k ≠ l) : DMC_LANE_ERR l ∉ laneRegs k ∧ DMC_EYE l ∉ laneRegs k := by
  simp only [laneRegs, DMC_LANE_ERR, DMC_EYE, List.mem_cons, List.not_mem_nil, or_false]
  omega

theorem laneRegs_mask {k : Nat} (hk : k < 40) : DMC_LANE_MASK_LO ∉ laneRegs k ∧ DMC_LANE_MASK_HI ∉ laneRegs k := by
  simp only [laneRegs, DMC_LANE_ERR, DMC_EYE, DMC_LANE_MASK_LO, DMC_LANE_MASK_HI, List.mem_cons, List.not_mem_nil, or_false]
  omega

theorem Keeps.laneSwept (s : State) (kind a : Nat) (es : List Nat) (l : Nat) : Keeps s (s.laneSwept kind a es l) (laneRegs l) := by
  have herr : (DMC_LANE_ERR_ERR l).off ∈ laneRegs l := List.mem_cons_self
  have heye : DMC_EYE l ∈ laneRegs l := List.mem_cons_of_mem _ List.mem_cons_self
  have hput := (Keeps.refl s (laneRegs l)).put (DMC_LANE_ERR_ERR l) (es.getD l 0) herr
  unfold State.laneSwept State.laneEye
  split_ifs
  · exact ((hput.put (DMC_EYE_FIRST l) _ heye).put (DMC_EYE_LAST l) _ heye).putB (DMC_EYE_VALID l) _ heye
  · exact hput.putB (DMC_EYE_VALID l) _ heye
  · exact Keeps.refl s _

/-- The mask is as it was. -/
def SameMask (s x : State) : Prop := x.rget DMC_LANE_MASK_LO = s.rget DMC_LANE_MASK_LO ∧ x.rget DMC_LANE_MASK_HI = s.rget DMC_LANE_MASK_HI

theorem SameMask.sweepLane (h : SameMask s x) (kind l : Nat) : x.sweepLane kind l = s.sweepLane kind l := by
  simp only [State.sweepLane, State.laneSel, h.1, h.2]

theorem SameMask.laneSwept (h : SameMask s y) {k : Nat} (hk : k < 40) : SameMask s (y.laneSwept kind a es k) := by
  obtain ⟨hlo, hhi⟩ := laneRegs_mask hk
  have hkeeps := Keeps.laneSwept y kind a es k
  exact ⟨(hkeeps _ hlo).trans h.1, (hkeeps _ hhi).trans h.2⟩

/-- What is shown of a lane. -/
structure LaneShows where
  err : Nat
  valid : Bool
  first : Nat
  last : Nat

def State.laneShows (s : State) (l : Nat) : LaneShows :=
  ⟨s.get (DMC_LANE_ERR_ERR l), s.on (DMC_EYE_VALID l), s.get (DMC_EYE_FIRST l), s.get (DMC_EYE_LAST l)⟩

/-- What a sweep of the point `a` with `e` errors shows. -/
def LaneShows.swept (a e : Nat) (v : LaneShows) : LaneShows := if e = 0 then ⟨e, true, a, a⟩ else ⟨e, false, v.first, v.last⟩

theorem LaneShows.swept_shows (a e : Nat) (v : LaneShows) : (v.swept a e).err = e ∧ (v.swept a e).valid = (e == 0) ∧
    (e = 0 → (v.swept a e).first = a ∧ (v.swept a e).last = a) := by
  unfold LaneShows.swept
  by_cases h : e = 0
  · rw [if_pos h]
    exact ⟨rfl, (beq_iff_eq.mpr h).symm, fun _ => ⟨rfl, rfl⟩⟩
  · rw [if_neg h]
    exact ⟨rfl, (beq_eq_false_iff_ne.mpr h).symm, fun h0 => absurd h0 h⟩

theorem Keeps.laneShows {r : List Nat} {l : Nat} (h : Keeps s x r) (herr : DMC_LANE_ERR l ∉ r) (heye : DMC_EYE l ∉ r) : x.laneShows l = s.laneShows l := by
  simp only [State.laneShows, h.get (DMC_LANE_ERR_ERR l) herr, h.on (DMC_EYE_VALID l) heye, h.get (DMC_EYE_FIRST l) heye, h.get (DMC_EYE_LAST l) heye]

theorem laneErr_ne_eye {l : Nat} (hl : l < 40) : DMC_LANE_ERR l ≠ DMC_EYE l := by
  have herr : DMC_LANE_ERR l < 0x130700 := by
    unfold DMC_LANE_ERR
    exact Nat.add_lt_add_left (Nat.mul_lt_mul_of_pos_left hl (by decide)) 0x130600 |>.trans (by decide)
  exact (herr.trans_le (Nat.le_add_right ..)).ne

theorem State.laneShows_swept (s : State) {l : Nat} (hl : l < 40) (hcov : s.sweepLane kind l = true) (ha : a < 512) (he : es.getD l 0 < 65536) :
    (s.laneSwept kind a es l).laneShows l = (s.laneShows l).swept a (es.getD l 0) := by
  have hne := laneErr_ne_eye hl
  have herr : (s.put (DMC_LANE_ERR_ERR l) (es.getD l 0)).get (DMC_LANE_ERR_ERR l) = es.getD l 0 :=
    (State.get_put_same _ _ _ rfl).trans (Nat.mod_eq_of_lt he)
  have hfirst : (s.put (DMC_LANE_ERR_ERR l) (es.getD l 0)).get (DMC_EYE_FIRST l) = s.get (DMC_EYE_FIRST l) :=
    State.get_put_apart _ _ _ _ rfl (.inl hne)
  have hlast : (s.put (DMC_LANE_ERR_ERR l) (es.getD l 0)).get (DMC_EYE_LAST l) = s.get (DMC_EYE_LAST l) :=
    State.get_put_apart _ _ _ _ rfl (.inl hne)
  rw [State.laneSwept, if_pos hcov]
  generalize s.put (DMC_LANE_ERR_ERR l) (es.getD l 0) = y at *
  unfold LaneShows.swept State.laneEye State.laneShows
  by_cases h : es.getD l 0 = 0
  · rw [if_pos h, if_pos (beq_iff_eq.mpr h), State.get_putB_apart _ _ _ _ rfl (.inl hne.symm), State.get_put_apart _ _ _ _ rfl (.inl hne.symm),
      State.get_put_apart _ _ _ _ rfl (.inl hne.symm), herr, State.on_putB_same _ _ _ rfl, State.get_putB_bits _ _ _ _ rfl rfl,
      State.get_put_bits _ _ _ _ rfl rfl, State.get_put_same _ _ _ rfl, State.get_putB_bits _ _ _ _ rfl rfl, State.get_put_same _ _ _ rfl]
    rw [show a % 2 ^ ((DMC_EYE_FIRST l).hi - (DMC_EYE_FIRST l).lo + 1) = a from Nat.mod_eq_of_lt ha,
      show a % 2 ^ ((DMC_EYE_LAST l).hi - (DMC_EYE_LAST l).lo + 1) = a from Nat.mod_eq_of_lt ha]
  · rw [if_neg h, if_neg (by simpa using h), State.get_putB_apart _ _ _ _ rfl (.inl hne.symm), herr, State.on_putB_same _ _ _ rfl,
      State.get_putB_bits _ _ _ _ rfl rfl, State.get_putB_bits _ _ _ _ rfl rfl, hfirst, hlast]

/-- All lanes after a sweep of one point. -/
def State.lanesSwept (s : State) (kind a : Nat) (es : List Nat) : State := (List.range 40).foldl (State.laneSwept kind a es) s

theorem State.lanesSwept_shows (s : State) {l : Nat} (hl : l < 40) (hcov : s.sweepLane kind l = true) (ha : a < 512) (he : es.getD l 0 < 65536) :
    (s.lanesSwept kind a es).laneShows l = (s.laneShows l).swept a (es.getD l 0) := by
  have hat := foldl_at (π := fun y => State.laneShows y l) (f := State.laneSwept kind a es) (g := LaneShows.swept a (es.getD l 0)) (P := SameMask s)
    (L := List.range 40) (j := l)
    (fun y k hk hne => by
      obtain ⟨herr, heye⟩ := laneRegs_apart (List.mem_range.mp hk) hl hne
      exact (Keeps.laneSwept y kind a es k).laneShows herr heye)
    (fun y hy => y.laneShows_swept hl ((hy.sweepLane kind l).trans hcov) ha he)
    (fun y k hk hy => hy.laneSwept (List.mem_range.mp hk)) List.nodup_range s ⟨rfl, rfl⟩
  exact hat.trans (if_pos (List.mem_range.mpr hl))

theorem State.lanesSwept_other (s : State) {l : Nat} (hl : l < 40) (hcov : s.sweepLane kind l = false) {b : Nat} (hb : b ∈ laneRegs l) :
    (s.lanesSwept kind a es).rget b = s.rget b := by
  have hat := foldl_at (π := fun y => State.rget y b) (f := State.laneSwept kind a es) (g := id) (P := SameMask s) (L := List.range 40) (j := l)
    (fun y k hk hne => by
      obtain ⟨herr, heye⟩ := laneRegs_apart (List.mem_range.mp hk) hl hne
      refine Keeps.laneSwept y kind a es k b ?_
      rcases List.mem_cons.mp hb with rfl | hb'
      · exact herr
      · rcases List.mem_singleton.mp hb' with rfl
        exact heye)
    (fun y hy => by
      have hnot : ¬y.sweepLane kind l = true := by simp [hy.sweepLane kind l, hcov]
      rw [State.laneSwept, if_neg hnot]
      rfl)
    (fun y k hk hy => hy.laneSwept (List.mem_range.mp hk)) List.nodup_range s ⟨rfl, rfl⟩
  refine hat.trans ?_
  rw [id, ite_self]

theorem State.pointsKept_regs (s : State) (l : List Nat) : (l.foldl (State.pointKept kind a) s).regs = s.regs :=
  foldl_keeps State.regs (fun y k => by
    unfold State.pointKept
    split_ifs
    · rfl
    · rfl) l s

/-- The status of the sweep after its end, and its cause. -/
theorem State.sweepOver_shows (s : State) (ha : a < 512) :
    let t := ((s.sweepOver a).cause DMC_IRQ_CAUSE_SWEEP).trackIrq
    t.on DMC_SWEEP_STATUS_BUSY = false ∧ t.on DMC_SWEEP_STATUS_DONE = true ∧ t.get DMC_SWEEP_STATUS_POINT = a ∧
      t.on DMC_IRQ_CAUSE_SWEEP = true ∧ Keeps s t [DMC_SWEEP_STATUS, DMC_IRQ_CAUSE] := by
  have hne : DMC_IRQ_CAUSE ≠ DMC_SWEEP_STATUS := by decide
  have hstatus : DMC_SWEEP_STATUS ∈ [DMC_SWEEP_STATUS, DMC_IRQ_CAUSE] := List.mem_cons_self
  have hcause : DMC_IRQ_CAUSE ∈ [DMC_SWEEP_STATUS, DMC_IRQ_CAUSE] := List.mem_cons_of_mem _ List.mem_cons_self
  have hset : Keeps s { s with dmc := { s.dmc with sweepAbort := false } } [DMC_SWEEP_STATUS, DMC_IRQ_CAUSE] := Keeps.of_regs rfl
  refine ⟨?_, ?_, ?_, (State.on_trackIrq ..).trans (State.on_cause_same _ _ rfl), ?_⟩
  · rw [State.on_trackIrq, State.on_cause_apart _ _ _ rfl (.inl hne), State.sweepOver, State.on_put_bits _ _ _ _ rfl rfl, State.on_putB_bits _ _ _ _ rfl rfl]
    exact State.on_putB_same _ _ _ rfl
  · rw [State.on_trackIrq, State.on_cause_apart _ _ _ rfl (.inl hne), State.sweepOver, State.on_put_bits _ _ _ _ rfl rfl]
    exact State.on_putB_same _ _ _ rfl
  · rw [State.get_trackIrq, State.get_cause_apart _ _ _ rfl (.inl hne), State.sweepOver, State.get_put_same _ _ _ rfl]
    exact Nat.mod_eq_of_lt ha
  · have hover : Keeps s ((s.sweepOver a).cause DMC_IRQ_CAUSE_SWEEP) [DMC_SWEEP_STATUS, DMC_IRQ_CAUSE] :=
      (((hset.putB DMC_SWEEP_STATUS_BUSY _ hstatus).putB DMC_SWEEP_STATUS_DONE _ hstatus).put DMC_SWEEP_STATUS_POINT _ hstatus).cause
        DMC_IRQ_CAUSE_SWEEP hcause
    exact fun b hb => (State.rget_trackIrq _ b).trans (hover b hb)

theorem laneRegs_over (l : Fin 40) : DMC_LANE_ERR l ∉ [DMC_SWEEP_STATUS, DMC_IRQ_CAUSE] ∧ DMC_EYE l ∉ [DMC_SWEEP_STATUS, DMC_IRQ_CAUSE] := by
  revert l
  decide

theorem pointErrs_lt (s : State) (p : SweepPoint) (l : Nat) : (s.pointErrs p).getD l 0 < 65536 := by
  have hmin (f : Nat → Nat) : ((List.range 40).map (fun l => min 0xFFFF (f l))).getD l 0 < 65536 := by
    rw [List.getD_eq_getElem?_getD, List.getElem?_map]
    cases (List.range 40)[l]? with
    | none => exact Nat.succ_pos _
    | some k => exact Nat.lt_succ_of_le (Nat.min_le_left _ _)
  unfold State.pointErrs
  split
  · exact hmin _
  · exact hmin _

end Shown

end Sys2Proof.Machine

namespace Sys2Proof.Machine

/-! ### Delays and drift (R459, R461, R462) -/

section Delays
variable {s x : State}

theorem State.sweepGo_starts (hhold : bit (s.get DMC_TRAIN_CTRL_HOLD) (s.get DMC_SWEEP_CFG_SUBCH) = true) (hbusy : s.on DMC_SWEEP_STATUS_BUSY = false) :
    s.sweepGo = (({ s with dmc := { s.dmc with sweepAbort := false } } : State).putB DMC_SWEEP_STATUS_BUSY true).put DMC_SWEEP_STATUS_POINT
      (s.get DMC_SWEEP_RANGE_START) := if_pos ⟨hhold, by simp [hbusy]⟩

theorem State.sweepGo_ignored (hhold : bit (s.get DMC_TRAIN_CTRL_HOLD) (s.get DMC_SWEEP_CFG_SUBCH) = false) : s.sweepGo = s :=
  if_neg fun h => by simp [hhold] at h

theorem State.dlyWrite_sel {key : Nat} (v : Word) (hsel : s.dlySel = some key) (hinc : s.on DMC_DLY_SEL_AUTO_INC = false) :
    s.dlyWrite v = s.dlySet key ⟨bits v.toNat 8 0,
      if bit (s.get DMC_TRAIN_CTRL_HOLD) (s.get DMC_DLY_SEL_SUBCH) = true then bits v.toNat 24 16 else (s.dlyGet key).live⟩ := by
  simp only [State.dlyWrite, hsel]
  exact if_neg (by rw [Bool.not_eq_true]; exact hinc)

theorem State.dlyGet_set_same (s : State) (key : Nat) (d : DlySet) : (s.dlySet key d).trackIrq.dlyGet key = d := AMap.get_set_same ..
theorem State.dlyGet_set_ne (s : State) {key k : Nat} (d : DlySet) (h : k ≠ key) : (s.dlySet key d).trackIrq.dlyGet k = s.dlyGet k :=
  AMap.get_set_ne _ _ _ _ _ (Ne.symm h)

/-- A live value moves towards its target. -/
def DlySet.moved (d : DlySet) : DlySet := { d with live := (stepTowards d.live d.target).toNat }

theorem State.liveStep_adopting (hadopt : s.dmc.adopting = true) (hdrift : s.dmc.drift = [none, none]) : s.liveStep = { s with dmc :=
    { s.dmc with dly := s.dmc.dly.map (fun e => (e.1, e.2.moved))
                 adopting := (s.dmc.dly.map (fun e => (e.1, e.2.moved))).any (fun e => e.2.live != e.2.target) } } := by
  have hmoved : s.dmc.dly.map (fun e =>
      if e.1 / 512 = 3 ∧ (s.dmc.drift.getD (e.1 / 64 % 2) none).isSome ∧ s.on DMC_CTRL_DRIFT_EN ∧
         ¬ bit (s.get DMC_TRAIN_CTRL_HOLD) (e.1 / 128 % 4) then
        (e.1, { e.2 with live := (stepTowards e.2.live ((e.2.target : Int) + ((s.dmc.drift.getD (e.1 / 64 % 2) none).getD 0))).toNat })
      else if s.dmc.adopting then (e.1, { e.2 with live := (stepTowards e.2.live e.2.target).toNat })
      else e) = s.dmc.dly.map (fun e => (e.1, e.2.moved)) := by
    refine List.map_congr_left fun e _ => ?_
    have hnone : s.dmc.drift.getD (e.1 / 64 % 2) none = none := by
      rw [hdrift]
      rcases Nat.mod_two_eq_zero_or_one (e.1 / 64) with h | h
      · rw [h]; rfl
      · rw [h]; rfl
    rw [if_neg (by rw [hnone]; simp), if_pos hadopt]
    rfl
  unfold State.liveStep
  rw [hmoved, hadopt]
  dsimp only
  rw [Bool.true_and]

/-- Only the settings of the delays and registers differ. -/
def DlyOnly (s x : State) : Prop := x = { s with dmc := { s.dmc with dly := x.dmc.dly } }

theorem DlyOnly.refl (s : State) : DlyOnly s s := rfl
theorem DlyOnly.dlySet (h : DlyOnly s x) (key : Nat) (d : DlySet) : DlyOnly s (x.dlySet key d) := by
  unfold DlyOnly at *
  rw [h]
  rfl

theorem DlyOnly.listLevelling (s : State) (rank : Nat) : DlyOnly s (s.listLevelling rank) :=
  List.foldlRecOn (motive := DlyOnly s) _ _ (DlyOnly.refl s) fun _ hy _ _ =>
    List.foldlRecOn (motive := DlyOnly s) _ _ hy fun _ hz _ _ => hz.dlySet _ _

/-- A drift check that may run. -/
theorem exec_driftCheck {c : Nat} (hen : s.on DMC_CTRL_DRIFT_EN = true) (hhold : s.get DMC_TRAIN_CTRL_HOLD = 0) (hdone : s.on DMC_STATUS_INIT_DONE = true) :
    exec (.driftCheck [c]) s = finish (s.driftCheck [c]) := congrArg finish (if_pos ⟨hen, hhold, hdone⟩)

theorem State.driftCheck_base {c : Nat} (hbase : s.dmc.oscBase = [none, none]) :
    s.driftCheck [c] = { s with dmc := { s.dmc with oscBase := [some c, none] } } := by
  have hnone : s.dmc.oscBase.getD 0 none = none := by rw [hbase]; rfl
  have hset : s.dmc.oscBase.set 0 (some c) = [some c, none] := by rw [hbase]; rfl
  simp only [State.driftCheck, List.length_singleton, Nat.min_eq_right (by decide : 1 ≤ 2), List.range_one, List.foldl_cons, List.foldl_nil, hnone]
  exact congrArg (fun l => ({ s with dmc := { s.dmc with oscBase := l } } : State)) hset

/-- The drift of rank 0 after a move of more than one tap. -/
def State.drifted (s : State) (m : Int) : State :=
  { s.listLevelling 0 with dmc := { (s.listLevelling 0).dmc with drift := (s.listLevelling 0).dmc.drift.set 0 (some m) } }

theorem State.driftCheck_moved {b c : Nat} (hbase : s.dmc.oscBase = [some b, none]) :
    s.driftCheck [c] = if (Config.oscTaps b c).natAbs ≤ 1 then s else s.drifted (Config.oscTaps b c) := by
  have hsome : s.dmc.oscBase.getD 0 none = some b := by rw [hbase]; rfl
  simp only [State.driftCheck, List.length_singleton, Nat.min_eq_right (by decide : 1 ≤ 2), List.range_one, List.foldl_cons, List.foldl_nil, hsome]
  rfl

theorem State.drifted_shows (s : State) (m : Int) (hlen : s.dmc.drift.length = 2) : let t := (s.drifted m).trackIrq
    t.dmc.drift.getD 0 none = some m ∧ Alters s t { s with dmc := { s.dmc with dly := t.dmc.dly, drift := t.dmc.drift } } [] := by
  have honly : s.listLevelling 0 = { s with dmc := { s.dmc with dly := (s.listLevelling 0).dmc.dly } } := DlyOnly.listLevelling s 0
  unfold State.drifted
  generalize s.listLevelling 0 = y at *
  rw [honly]
  refine ⟨?_, Alters.of_regsOnly rfl (RegsOnly.refl _) (Keeps.of_regs rfl)⟩
  show (s.dmc.drift.set 0 (some m)).getD 0 none = some m
  simp [List.getD_eq_getElem?_getD, hlen]

end Delays

/-! ### The controller as a whole -/

theorem islandOf_dmc : islandOf DMC_CTRL = 12 ∧ islandOf DMC_SWEEP_CMD = 12 ∧ islandOf DMC_DLY_DATA = 12 := by decide

/-- Settles O51, step by step: each branch of bring-up writes DMC_STATUS and reports, a sweep of one point is one step per lane, and the
slow work changes the settings alone. -/
theorem dramBringUp : Obligations.DramBringUp := by
  unfold Obligations.DramBringUp
  obtain ⟨hctrl, hsweep, hdly⟩ := islandOf_dmc
  refine ⟨?init, ?done, ?fails, ?opens, ?fills, ?ready, ?hot, ?go, ?ignored, ?abort, ?swept, ?delay, ?live, ?base, ?drift⟩
  case init =>
    intro s req hreq hrun hbusy hdone
    have heff := (s.reqWrite_island State.dmcInit hctrl hreq hrun).trans (State.dmcInit_starts hbusy hdone)
    refine ⟨_, congrArg finish heff, ?_, ?_⟩
    · exact (State.get_trackIrq ..).trans (State.get_put_same _ _ _ rfl)
    · exact Alters.of_regsOnly rfl ((RegsOnly.refl _).put _ _) ((Keeps.of_regs (s := s) rfl).put DMC_STATUS_INIT_ERR _ List.mem_cons_self)
  case done =>
    intro s sup rq dev hbusy hvalid
    exact ⟨_, congrArg finish (State.dramInitDone_ok hbusy hvalid), State.initShown_shows s sup rq⟩
  case fails =>
    intro s fail sup rq dev hbusy hvalid hfail
    have hfail' : fail.val = 2 ∨ fail.val = 3 := hfail.imp (congrArg Fin.val) (congrArg Fin.val)
    exact ⟨_, congrArg finish (State.dramInitDone_fails hbusy hvalid hfail'), State.initErr_shows s sup (by omega)⟩
  case opens =>
    intro s req hreq hrun hdone hready hfill hzero
    have heff := (s.reqWrite_island State.dmcOpen hctrl hreq hrun).trans (State.dmcOpen_ready hdone hready hfill hzero)
    obtain ⟨hready', -, hsize, hposts, halters⟩ := State.dramOpenDone_shows (s := s) (u := s) 0 rfl rfl rfl rfl
    exact ⟨_, congrArg finish heff, hready', hsize, hposts, halters⟩
  case fills =>
    intro s req hreq hrun hdone hready hfill hzero
    have heff := (s.reqWrite_island State.dmcOpen hctrl hreq hrun).trans (State.dmcOpen_fills hdone hready hfill hzero)
    refine ⟨_, congrArg finish heff, ?_, ?_, Silent.put s DMC_STATUS_FILLING 1⟩
    · exact (State.on_trackIrq ..).trans (State.on_putB_same _ _ _ rfl)
    · rw [State.on_trackIrq, State.on_putB_bits _ _ _ _ rfl rfl, hready]
  case ready =>
    intro s ms hfill
    exact ⟨_, congrArg finish (if_pos hfill), State.dramOpenDone_shows (s := s) (u := { s with dram := [], poison := [] }) ms rfl rfl rfl rfl⟩
  case hot =>
    intro s c hdone hcold
    exact ⟨_, congrArg finish (if_pos hdone), s.mr4Poll_shows hcold⟩
  case go =>
    intro s req hreq hrun hhold hbusy
    have heff := (s.reqWrite_island State.sweepGo hsweep hreq hrun).trans (State.sweepGo_starts hhold hbusy)
    have hstatus : DMC_SWEEP_STATUS ∈ [DMC_SWEEP_STATUS] := List.mem_cons_self
    refine ⟨_, congrArg finish heff, ?_, ?_, ?_⟩
    · rw [State.on_trackIrq, State.on_put_bits _ _ _ _ rfl rfl]
      exact State.on_putB_same _ _ _ rfl
    · exact (State.get_trackIrq ..).trans ((State.get_put_same _ _ _ rfl).trans (Nat.mod_eq_of_lt (s.get_lt DMC_SWEEP_RANGE_START)))
    · exact Alters.of_regsOnly rfl (((RegsOnly.refl _).putB _ _).put _ _)
        (((Keeps.of_regs (s := s) rfl).putB DMC_SWEEP_STATUS_BUSY _ hstatus).put DMC_SWEEP_STATUS_POINT _ hstatus)
  case ignored =>
    intro s req hreq hrun hhold
    exact ⟨_, congrArg finish ((s.reqWrite_island State.sweepGo hsweep hreq hrun).trans (State.sweepGo_ignored hhold)), Silent.refl s⟩
  case abort =>
    intro s req hreq hrun hbusy
    have heff := (s.reqWrite_island State.sweepAbortNow hsweep hreq hrun).trans (if_pos hbusy)
    exact ⟨_, congrArg finish heff, Alters.of_regsOnly rfl (RegsOnly.refl _) (Keeps.of_regs rfl)⟩
  case swept =>
    intro s p hbusy hstop
    have ha : s.get DMC_SWEEP_RANGE_START < 512 := s.get_lt DMC_SWEEP_RANGE_START
    have heff := State.sweepDone_one p hbusy rfl hstop.symm rfl
    have hlane (l : Fin 40) (hcov : s.sweepLane (s.get DMC_SWEEP_CFG_KIND) l = true) :=
      s.lanesSwept_shows (es := s.pointErrs p) l.isLt hcov ha (pointErrs_lt s p l)
    have hother (l : Fin 40) (hcov : s.sweepLane (s.get DMC_SWEEP_CFG_KIND) l = false) (b : Nat) (hb : b ∈ laneRegs l) :=
      s.lanesSwept_other (a := s.get DMC_SWEEP_RANGE_START) (es := s.pointErrs p) l.isLt hcov hb
    rw [← State.lanesSwept] at heff
    generalize s.lanesSwept (s.get DMC_SWEEP_CFG_KIND) (s.get DMC_SWEEP_RANGE_START) (s.pointErrs p) = y at *
    have hregs := y.pointsKept_regs (kind := s.get DMC_SWEEP_CFG_KIND) (a := s.get DMC_SWEEP_RANGE_START)
      (List.range (dlyCount (s.get DMC_SWEEP_CFG_KIND)))
    generalize (List.range (dlyCount (s.get DMC_SWEEP_CFG_KIND))).foldl (State.pointKept _ _) y = z at *
    obtain ⟨hidle, hdone, hpoint, hcause, hkeeps⟩ := z.sweepOver_shows ha
    have hkept : Keeps y (((z.sweepOver (s.get DMC_SWEEP_RANGE_START)).cause DMC_IRQ_CAUSE_SWEEP).trackIrq) [DMC_SWEEP_STATUS, DMC_IRQ_CAUSE] :=
      Keeps.trans (Keeps.of_regs hregs) hkeeps
    generalize ((z.sweepOver (s.get DMC_SWEEP_RANGE_START)).cause DMC_IRQ_CAUSE_SWEEP) = t at *
    refine ⟨_, congrArg finish heff, hidle, hdone, hpoint, hcause, fun l hcov => ?_, fun l hcov => ?_⟩
    · obtain ⟨herr, heye⟩ := laneRegs_over l
      obtain ⟨hcount, hvalid, hedges⟩ := LaneShows.swept_shows (s.get DMC_SWEEP_RANGE_START) ((s.pointErrs p).getD l 0) (s.laneShows l)
      rw [← hlane l hcov, ← hkept.laneShows herr heye] at hcount hvalid hedges
      exact ⟨hcount, hvalid, hedges⟩
    · obtain ⟨herr, heye⟩ := laneRegs_over l
      exact ⟨(hkept _ herr).trans (hother l hcov _ List.mem_cons_self),
        (hkept _ heye).trans (hother l hcov _ (List.mem_cons_of_mem _ List.mem_cons_self))⟩
  case delay =>
    intro s req v key hreq hrun hsel hinc
    have heff := (s.reqWrite_island (fun s => s.dlyWrite v) hdly hreq hrun).trans (State.dlyWrite_sel v hsel hinc)
    exact ⟨_, congrArg finish heff, s.dlyGet_set_same key _, fun k hk => s.dlyGet_set_ne _ hk,
      Alters.of_regsOnly rfl (RegsOnly.refl _) (Keeps.of_regs rfl)⟩
  case live =>
    intro s hadopt hdrift
    exact ⟨_, congrArg finish (State.liveStep_adopting hadopt hdrift), rfl, rfl, Alters.of_regsOnly rfl (RegsOnly.refl _) (Keeps.of_regs rfl)⟩
  case base =>
    intro s c hen hhold hdone hbase
    have heff := State.driftCheck_base (c := c) hbase
    exact ⟨_, (exec_driftCheck hen hhold hdone).trans (congrArg finish heff), Alters.of_regsOnly rfl (RegsOnly.refl _) (Keeps.of_regs rfl)⟩
  case drift =>
    intro s b c hen hhold hdone hbase hlen
    have heff := State.driftCheck_moved (c := c) hbase
    have hexec := exec_driftCheck (c := c) hen hhold hdone
    by_cases hsmall : (Config.oscTaps b c).natAbs ≤ 1
    · rw [if_pos hsmall] at heff ⊢
      exact ⟨_, hexec.trans (congrArg finish heff), rfl, Alters.of_regsOnly rfl (RegsOnly.refl _) (Keeps.of_regs rfl)⟩
    · rw [if_neg hsmall] at heff ⊢
      exact ⟨_, hexec.trans (congrArg finish heff), s.drifted_shows _ hlen⟩

end Sys2Proof.Machine

namespace Sys2Proof.Machine

/-! ### A short PTP message grows when it is corrected (R486, R487) -/

section Forward
variable {s : State} {p : Fin 2} {f g : List Byte}

/-- A frame that is not for firmware is forwarded as the transparent clock leaves it. -/
theorem State.netReceive_forwards {tIn tEg : Nat} {rt : Int} (hup : s.netUp p = true) (hlen : f.length ≤ 1518) (hways : s.bridges f = (false, true))
    (hrt : ((tEg / 8 * 8 : Nat) : Int) + s.get (NET_PORT_LAT_TX_LAT (1 - p : Fin 2)) - ((tIn / 8 * 8 : Nat) - s.get (NET_PORT_LAT_RX_LAT p) : Int) = rt) :
    s.netReceive p f true tIn tEg =
      ((s.addSat (NET_RX_COUNT_COUNT p) 1).transparent f rt).1.egress (1 - p) tEg ((s.addSat (NET_RX_COUNT_COUNT p) 1).transparent f rt).2 := by
  have hok : ¬((!true) = true ∨ 1518 < f.length) := by simp [hlen]
  unfold State.netReceive
  dsimp only
  rw [if_neg (by simp [hup]), if_neg hok, hways, hrt]
  rfl

theorem ptpAt_direct (htype : beAt f 12 2 = 0x88F7) : ptpAt f = .direct 14 := by
  unfold ptpAt
  simp [htype]

theorem State.transparent_corrects {o : Nat} {rt : Int} (hen : s.on NET_TC_CTRL_EN = true) (hptp : ptpAt f = .direct o)
    (hcorrect : correctAt f o rt = (some g, false)) : s.transparent f rt = (s.addSat NET_TC_COUNT_COUNT 1, g) := by
  unfold State.transparent
  rw [if_neg (by simp [hen])]
  dsimp only
  rw [hptp]
  dsimp only
  rw [hcorrect]

/-- A frame for which the queue of its port has no room is dropped and counted. -/
theorem State.egress_full {t : Nat} (hfull : 32768 < s.egressBytes p + f.length) : s.egress p t f = s.addSat (NET_DROP_COUNT_COUNT p) 1 :=
  if_pos (.inr hfull)

end Forward

/-! ### The counterexample to O55 -/

/-- Both ports are ON with their links up and the transparent clock is enabled; a frame of 32,744 bytes waits on port 1. -/
def crowdedNet : State :=
  { ((State.reset.rset (NET_PORT_STATUS 0) 0x12).rset (NET_PORT_STATUS 1) 0x12).rset NET_TC_CTRL 1 with
    net := { Net.reset with out := [(1, 1, List.replicate 32744 0)] } }

/-- A Sync message that ends in its correctionField: 24 bytes. -/
def shortSync : List Byte := [2, 0, 0, 0, 0, 0, 0, 0, 0, 0, 0, 0, 0x88, 0xF7, 0, 0, 0, 0, 0, 0, 0, 0, 0, 0]

/-- The message after its correction: 30 bytes. -/
def longSync : List Byte := setAt shortSync 22 (beBytes 8 0)

theorem crowdedNet_up : crowdedNet.netUp 0 = true ∧ crowdedNet.netUp 1 = true ∧ crowdedNet.on NET_TC_CTRL_EN = true ∧
    crowdedNet.get (NET_PORT_LAT_TX_LAT 1) = 0 ∧ crowdedNet.get (NET_PORT_LAT_RX_LAT 0) = 0 := by decide +kernel

theorem shortSync_ptp : shortSync.take 6 ≠ crowdedNet.mac ∧ bit (beAt shortSync 0 1) 0 = false ∧ beAt shortSync 12 2 = 0x88F7 ∧
    beAt shortSync 14 1 % 16 ≤ 1 ∧ sgn 64 (beAt shortSync 22 8) = 0 ∧ crowdedNet.bridges shortSync = (false, true) ∧
    correctAt shortSync 14 0 = (some longSync, false) ∧ shortSync.length = 24 ∧ longSync.length = 30 := by decide +kernel

theorem crowdedNet_waiting : crowdedNet.net.out.filter (fun e => Nat.blt crowdedNet.now e.2.1) = crowdedNet.net.out := rfl

/-- The queue has room for the message as it came in, and none for it after its correction. -/
theorem crowdedNet_bytes : crowdedNet.egressBytes 1 = 32744 := by
  have hfilter : crowdedNet.net.out.filter (fun (e : Nat × Nat × List Byte) => e.1 == 1 && Nat.blt crowdedNet.now e.2.1) =
      [(1, 1, List.replicate 32744 0)] := rfl
  rw [State.egressBytes, hfilter, List.foldl_cons, List.foldl_nil, List.length_replicate]

section Overflow
variable {s : State} {f g : List Byte}

/-- A message that enters and leaves at the time 0 has no residence time, where the port latencies are 0. -/
theorem residence_zero (htx : s.get (NET_PORT_LAT_TX_LAT 1) = 0) (hrx : s.get (NET_PORT_LAT_RX_LAT 0) = 0) :
    (((0 : BitVec 64).toNat / 8 * 8 : Nat) : Int) + s.get (NET_PORT_LAT_TX_LAT (1 - 0 : Fin 2)) -
      (((0 : BitVec 64).toNat / 8 * 8 : Nat) - s.get (NET_PORT_LAT_RX_LAT (0 : Fin 2)) : Int) = 0 := by
  have htx' : s.get (NET_PORT_LAT_TX_LAT (1 - 0 : Fin 2)) = 0 := htx
  have hrx' : s.get (NET_PORT_LAT_RX_LAT (0 : Fin 2)) = 0 := hrx
  rw [htx', hrx']
  norm_num

/-- A forwarded message whose corrected form has no room on port 1 is lost: the network block stays. -/
theorem State.netReceive_overflow (hup : s.netUp 0 = true) (hen : s.on NET_TC_CTRL_EN = true) (htx : s.get (NET_PORT_LAT_TX_LAT 1) = 0)
    (hrx : s.get (NET_PORT_LAT_RX_LAT 0) = 0) (hways : s.bridges f = (false, true)) (htype : beAt f 12 2 = 0x88F7)
    (hcorrect : correctAt f 14 0 = (some g, false)) (hlen : f.length ≤ 1518) (hfull : 32768 < s.egressBytes 1 + g.length) :
    (s.netReceive 0 f true (0 : BitVec 64).toNat (0 : BitVec 64).toNat).net = s.net := by
  have hcorrected : (s.addSat (NET_RX_COUNT_COUNT 0) 1).transparent f 0 = ((s.addSat (NET_RX_COUNT_COUNT 0) 1).addSat NET_TC_COUNT_COUNT 1, g) :=
    State.transparent_corrects ((State.on_eq_of_get _ _ _ (State.get_put_apart _ _ _ _ rfl (.inl (by decide)))).trans hen) (ptpAt_direct htype) hcorrect
  have hforward := State.netReceive_forwards (p := 0) hup hlen hways (residence_zero htx hrx)
  have hdrop : ((s.addSat (NET_RX_COUNT_COUNT 0) 1).addSat NET_TC_COUNT_COUNT 1).egress 1 (0 : BitVec 64).toNat g =
      ((s.addSat (NET_RX_COUNT_COUNT 0) 1).addSat NET_TC_COUNT_COUNT 1).addSat (NET_DROP_COUNT_COUNT 1) 1 := State.egress_full hfull
  have hlost := congrArg (fun z : State × List Byte => (z.1.egress 1 (0 : BitVec 64).toNat z.2).net) hcorrected
  exact (congrArg State.net hforward).trans (hlost.trans ((congrArg State.net hdrop).trans rfl))

end Overflow

/-- Refutes O55 in its sixth clause: a PTP event message that ends inside its correctionField (24 to 29 bytes) is longer after the correction.
In `crowdedNet` the queue of port 1 holds 32,744 bytes, so `shortSync` fits and its corrected form of 30 bytes does not: it is dropped. -/
theorem not_networkAndTime : ¬ Obligations.NetworkAndTime := by
  rintro ⟨-, -, -, -, -, hforward, -⟩
  obtain ⟨hup, hup', hen, htx, hrx⟩ := crowdedNet_up
  obtain ⟨hmac, hbit, htype, hkind, hcorrection, hways, hcorrect, hlen, hgrown⟩ := shortSync_ptp
  have hbytes := crowdedNet_bytes
  have hwaiting := crowdedNet_waiting
  generalize crowdedNet = s at *
  generalize longSync = g at *
  generalize shortSync = f at *
  have hlost := s.netReceive_overflow hup hen htx hrx hways htype hcorrect (by omega) (by omega)
  have hroom : s.egressBytes ((1 - 0 : Fin 2) : Nat) + f.length ≤ 32768 := by
    have hport : s.egressBytes ((1 - 0 : Fin 2) : Nat) = 32744 := hbytes
    omega
  obtain ⟨t, hexec, -, hstate, -⟩ := hforward s 0 f 0 0 0 hup (by omega) hmac hbit hen hup' hroom (by omega) htype hkind
    (residence_zero htx hrx).symm (by rw [hcorrection]; decide) (by rw [hcorrection]; decide)
  obtain rfl : (s.netReceive 0 f true (0 : BitVec 64).toNat (0 : BitVec 64).toNat).trackIrq = t := Host.Outcome.next.inj hexec
  have hout := congrArg (fun y => y.net.out.length) hstate
  have hsame : (s.netReceive 0 f true (0 : BitVec 64).toNat (0 : BitVec 64).toNat).trackIrq.net = s.net := hlost
  dsimp only at hout
  rw [hsame, hwaiting, List.length_append, List.length_singleton] at hout
  omega

end Sys2Proof.Machine

namespace Sys2Proof.Machine

/-! ### The web axis: what its stop line and its plans show (R395, R399) -/

section WebLine
variable {s x y : State} {offs : List Nat}

theorem islandOf_web : islandOf MOT_WEB_TARGET = 15 ∧ islandOf MOT_WEB_CTRL = 15 ∧ islandOf MOT_WEB_SCALE = 15 := by decide

theorem WebOnly.trans (h : WebOnly s x) (h' : WebOnly x y) : WebOnly s y := by
  unfold WebOnly at *
  rw [h', h]

theorem WebOnly.putS (h : WebOnly s x) (f : Fld) (v : Int) : WebOnly s (x.putS f v) := h.put _ _

theorem WebOnly.showWeb (h : WebOnly s x) : WebOnly s x.showWeb := ((h.withWeb _).putS _ _).putB _ _

theorem WebOnly.evtEntries (h : WebOnly s x) : x.evtEntries = s.evtEntries := by rw [h]; rfl

theorem WebOnly.posts {c u : Nat} {p : List Nat} (h : WebOnly x y) (hp : Posts s x c u p) : Posts s y c u p := hp.congr h.evtEntries

theorem WebOnly.hidden (h : WebOnly s x) : x.hidden = ({ s with web := x.web } : State).hidden := by
  conv_lhs => rw [h]
  rfl

theorem Keeps.showWeb (h : Keeps s x offs) (hrate : MOT_WEB_RATE ∈ offs) (hstatus : MOT_WEB_STATUS ∈ offs) : Keeps s x.showWeb offs :=
  ((h.withWeb _).putS MOT_WEB_RATE_RATE _ hrate).putB MOT_WEB_STATUS_STANDSTILL _ hstatus

/-- A change of the web axis and its registers, without an event. -/
theorem Alters.of_web {w : Web} (h : WebOnly s x) (hw : x.web = w) (hk : Keeps s x offs) : Alters s x.trackIrq { s with web := w } offs :=
  hw ▸ Alters.of_webOnly h hk

/-- A plan shows its mode. -/
theorem State.webPlan_mode (s : State) (p : WebPlan) {m : Nat} (hm : m < 8) : (s.webPlan m p).get MOT_WEB_STATUS_WMODE = m :=
  (State.get_put_same _ _ _ (by decide)).trans (Nat.mod_eq_of_lt hm)

/-- A plan leaves the fields beside WMODE. -/
theorem State.webPlan_get (s : State) (m : Nat) (p : WebPlan) {g : Fld} (hg : MOT_WEB_STATUS_WMODE.apart g) : (s.webPlan m p).get g = s.get g :=
  State.get_put_apart _ _ _ _ (by decide) hg

/-- The web held by WEB_STOP. -/
def State.webHeld (s : State) : State :=
  ((({ s with web := { s.web with fresh := true, traj := none, vel := 0, mot := { s.web.mot with v := 0, a := 0 } } } : State).putB
    MOT_WEB_STATUS_WEB_STOP true).put MOT_WEB_RATE_RATE 0).putB MOT_WEB_STATUS_STANDSTILL true

theorem State.webHeld_shows (s : State) :
    let t := s.webHeld
    t.on MOT_WEB_STATUS_WEB_STOP = true ∧ t.on MOT_WEB_STATUS_STANDSTILL = true ∧ t.get MOT_WEB_RATE_RATE = 0 ∧
      t.web.mot = { p := s.web.mot.p, v := 0, a := 0 } ∧ t.web.traj = none := by
  refine ⟨?_, State.on_putB_same _ _ _ (by decide), ?_, rfl, rfl⟩
  · exact (State.on_putB_bits _ _ _ _ (by decide) (by decide)).trans ((State.on_put_apart _ _ _ _ (by decide) (by decide)).trans
      (State.on_putB_same _ _ _ (by decide)))
  · exact (State.get_put_apart _ _ _ _ (by decide) (by decide)).trans ((State.get_put_same _ _ _ (by decide)).trans (Nat.zero_mod _))

theorem State.webHeld_get (s : State) {g : Fld} (hstop : MOT_WEB_STATUS_WEB_STOP.apart g) (hrate : MOT_WEB_RATE_RATE.apart g)
    (hstill : MOT_WEB_STATUS_STANDSTILL.apart g) : s.webHeld.get g = s.get g :=
  (State.get_put_apart _ _ _ _ (by decide) hstill).trans ((State.get_put_apart _ _ _ _ (by decide) hrate).trans
    (State.get_put_apart _ _ _ _ (by decide) hstop))

/-- Asserted, WEB_STOP holds the web, whose plan it may have ended. -/
theorem State.refreshWebStop_asserted (h : s.webStopNow = true) : s.refreshWebStop = s.webHeld ∨ s.refreshWebStop = (s.webPlan 0 .idle).webHeld := by
  obtain ⟨b, heff⟩ : ∃ b : Bool, s.refreshWebStop = (if b then s.webPlan 0 .idle else s).webHeld := ⟨_, if_pos h⟩
  cases b with
  | false => exact .inl heff
  | true => exact .inr heff

theorem State.refreshWebStop_shows (h : s.webStopNow = true) :
    let t := s.refreshWebStop
    t.on MOT_WEB_STATUS_WEB_STOP = true ∧ t.on MOT_WEB_STATUS_STANDSTILL = true ∧ t.get MOT_WEB_RATE_RATE = 0 ∧
      t.web.mot = { p := s.web.mot.p, v := 0, a := 0 } ∧ t.web.traj = none := by
  dsimp only
  rcases State.refreshWebStop_asserted h with heff | heff <;> rw [heff]
  · exact s.webHeld_shows
  · exact (s.webPlan 0 .idle).webHeld_shows

/-- Asserting WEB_STOP leaves the other fields of MOT_WEB_STATUS, and every other register but the rate. -/
theorem State.refreshWebStop_get (h : s.webStopNow = true) {g : Fld} (hmode : MOT_WEB_STATUS_WMODE.apart g) (hstop : MOT_WEB_STATUS_WEB_STOP.apart g)
    (hrate : MOT_WEB_RATE_RATE.apart g) (hstill : MOT_WEB_STATUS_STANDSTILL.apart g) : s.refreshWebStop.get g = s.get g := by
  rcases State.refreshWebStop_asserted h with heff | heff <;> rw [heff, State.webHeld_get _ hstop hrate hstill]
  exact s.webPlan_get 0 .idle hmode

theorem State.refreshWebStop_released (h : s.webStopNow = false) : s.refreshWebStop = s.putB MOT_WEB_STATUS_WEB_STOP false :=
  if_neg (by simp [h])

end WebLine

/-! ### Commands of the web axis (R384, R398 to R400) -/

section WebCommands
variable {s : State} {req : Fin 6}

/-- A firmware move to a position. -/
def State.firmwareMove (s : State) (g : Int) : State :=
  ({ s with web := { s.web with limitPosted := false } } : State).webPlan 4 (.firmware g)

theorem exec_motWebTarget (hreq : req ≠ 5) (hrun : s.islandRuns 15 = true) (v : Word) :
    exec (.motWebTargetWrite req v) s = finish (s.webTarget v.toInt) :=
  congrArg finish (State.reqWrite_island (fun s => s.webTarget v.toInt) islandOf_web.1 hreq hrun)

theorem State.webTarget_moves (hidle : s.get PGP_SCHED_STATUS_JOB_STATE = jsIdle) (hon : s.ust .web = .on) (lines : Int) :
    s.webTarget lines = s.firmwareMove (s.web.mot.p + lines * (s.get MOT_WEB_SCALE_SCALE : Int) * 256) := if_pos ⟨hidle, hon⟩

theorem State.firmwareMove_shows (s : State) (g : Int) :
    let t := (s.firmwareMove g).trackIrq
    t.web = { s.web with limitPosted := false, plan := .firmware g, fresh := true, traj := none } ∧
      t.get MOT_WEB_STATUS_WMODE = 4 ∧ Alters s t { s with web := t.web } [MOT_WEB_STATUS] := by
  have honly : WebOnly s (s.firmwareMove g) := ((WebOnly.refl s).withWeb _).webPlan 4 _
  have hkeeps : Keeps s (s.firmwareMove g) [MOT_WEB_STATUS] := ((Keeps.refl s _).withWeb _).webPlan 4 _ List.mem_cons_self
  exact ⟨rfl, (State.get_trackIrq ..).trans (State.webPlan_mode _ (.firmware g) (by decide)), Alters.of_webOnly honly hkeeps⟩

theorem exec_jogStop (hreq : req ≠ 5) (hrun : s.islandRuns 15 = true) : exec (.jogStop req) s = finish s.webJogStop :=
  congrArg finish (State.reqWrite_island (fun s => s.webJogStop) islandOf_web.2.1 hreq hrun)

theorem State.webJogStop_firmware {g : Int} (h : s.web.plan = .firmware g) : s.webJogStop = s.webPlan 4 .decel := by
  unfold State.webJogStop
  rw [h]

theorem exec_forceStop (hreq : req ≠ 5) (hrun : s.islandRuns 15 = true) (b : Bool) :
    exec (.forceStopWrite req b) s = finish (s.forceStop b) :=
  congrArg finish (State.reqWrite_island (fun s => s.forceStop b) islandOf_web.2.1 hreq hrun)

/-- FORCE_STOP asserts WEB_STOP by itself. -/
theorem State.forceStop_asserts (s : State) : (s.putB MOT_WEB_CTRL_FORCE_STOP true).webStopNow = true := by
  unfold State.webStopNow
  rw [State.on_putB_same _ _ _ (by decide), Bool.or_true]

theorem State.forceStop_shows (s : State) :
    let t := (s.forceStop true).trackIrq
    t.on MOT_WEB_CTRL_FORCE_STOP = true ∧ t.on MOT_WEB_STATUS_WEB_STOP = true ∧
      t.on MOT_WEB_STATUS_STANDSTILL = true ∧ t.get MOT_WEB_RATE_RATE = 0 ∧ t.web.mot = { p := s.web.mot.p, v := 0, a := 0 } ∧ t.web.traj = none ∧
      Alters s t { s with web := t.web } [MOT_WEB_CTRL, MOT_WEB_STATUS, MOT_WEB_RATE] := by
  obtain ⟨hstop, hstill, hrate, hmot, htraj⟩ := State.refreshWebStop_shows s.forceStop_asserts
  have hforce : (s.forceStop true).get MOT_WEB_CTRL_FORCE_STOP = (s.putB MOT_WEB_CTRL_FORCE_STOP true).get MOT_WEB_CTRL_FORCE_STOP :=
    State.refreshWebStop_get s.forceStop_asserts (by decide) (by decide) (by decide) (by decide)
  refine ⟨(State.on_eq_of_get _ _ _ hforce).trans (State.on_putB_same _ _ _ (by decide)), hstop, hstill, hrate, hmot, htraj, ?_⟩
  exact Alters.of_webOnly ((WebOnly.refl s).putB _ _).refreshWebStop
    (((Keeps.refl s _).putB MOT_WEB_CTRL_FORCE_STOP _ (by simp [MOT_WEB_CTRL_FORCE_STOP])).refreshWebStop (by simp) (by simp))

/-- Released, WEB_STOP falls where nothing else asserts it. -/
theorem State.forceStop_releases (hclk : s.clk ≠ clkHalted) (hreset : s.web.resetStop = false) (htherm : s.web.thermStop = false)
    (hon : s.ust .web = .on) : s.forceStop false = (s.putB MOT_WEB_CTRL_FORCE_STOP false).putB MOT_WEB_STATUS_WEB_STOP false := by
  refine State.refreshWebStop_released ?_
  have hust : (s.putB MOT_WEB_CTRL_FORCE_STOP false).ust .web = .on :=
    (State.ust_of_rget s _ .web (by decide) (State.rget_put_ne _ _ _ _ (by decide))).trans hon
  have hclk' : (s.putB MOT_WEB_CTRL_FORCE_STOP false).clk ≠ clkHalted := by rwa [State.clk_putB _ _ _ (by decide)]
  have hreset' : (s.putB MOT_WEB_CTRL_FORCE_STOP false).web.resetStop = false := hreset
  have htherm' : (s.putB MOT_WEB_CTRL_FORCE_STOP false).web.thermStop = false := htherm
  unfold State.webStopNow
  rw [State.on_putB_same _ _ _ (by decide), hust, hreset', htherm', beq_eq_false_iff_ne.mpr hclk']
  rfl

theorem State.forceStop_release_shows (s : State) :
    let t := ((s.putB MOT_WEB_CTRL_FORCE_STOP false).putB MOT_WEB_STATUS_WEB_STOP false).trackIrq
    t.on MOT_WEB_CTRL_FORCE_STOP = false ∧ t.on MOT_WEB_STATUS_WEB_STOP = false ∧ Silent s t [MOT_WEB_CTRL, MOT_WEB_STATUS] := by
  have hforce : (s.putB MOT_WEB_CTRL_FORCE_STOP false).on MOT_WEB_CTRL_FORCE_STOP = false := State.on_putB_same _ _ _ (by decide)
  have hkeeps : Keeps s (s.putB MOT_WEB_CTRL_FORCE_STOP false) [MOT_WEB_CTRL, MOT_WEB_STATUS] :=
    (Keeps.refl s _).putB MOT_WEB_CTRL_FORCE_STOP _ List.mem_cons_self
  have honly : RegsOnly s (s.putB MOT_WEB_CTRL_FORCE_STOP false) := (RegsOnly.refl s).putB _ _
  generalize s.putB MOT_WEB_CTRL_FORCE_STOP false = x at *
  exact ⟨(State.on_trackIrq ..).trans ((State.on_putB_apart _ _ _ _ (by decide) (by decide)).trans hforce),
    (State.on_trackIrq ..).trans (State.on_putB_same _ _ _ (by decide)),
    Silent.of_regsOnly (honly.putB _ _) (hkeeps.putB MOT_WEB_STATUS_WEB_STOP _ (List.mem_cons_of_mem _ List.mem_cons_self))⟩

theorem exec_motWebParam (hreq : req ≠ 5) (hrun : s.islandRuns 15 = true) (w : WebParam) (v : Word) :
    exec (.motWebParamWrite req w v) s = finish (s.webParam w v.toNat) :=
  congrArg finish (State.reqWrite_island (fun s => s.webParam w v.toNat) islandOf_web.2.2 hreq hrun)

/-- A planned motion follows the new value at the next tick (R384). -/
def State.webRenewed (s x : State) : State := if s.web.traj.isSome then { x with web := { x.web with fresh := true } } else x

theorem State.webRenewed_regs (s x : State) : (s.webRenewed x).regs = x.regs := by
  unfold State.webRenewed
  split <;> rfl

theorem Alters.webRenewed {x : State} {offs : List Nat} (h : RegsOnly s x) (hk : Keeps s x offs) :
    Alters s (s.webRenewed x).trackIrq { s with web := { s.web with fresh := s.web.fresh || s.web.traj.isSome } } offs := by
  have hweb : x.web = s.web := by rw [h]
  have honly : WebOnly s x := by
    unfold WebOnly
    rw [hweb]
    exact h
  unfold State.webRenewed
  split
  next hplanned =>
    refine Alters.of_web (honly.withWeb _) ?_ (hk.withWeb _)
    rw [hweb, hplanned, Bool.or_true]
  next hplanned =>
    refine Alters.of_web honly ?_ hk
    rw [hweb, Bool.eq_false_iff.mpr hplanned, Bool.or_false]

/-- A value other than 0, and any value while the axis is OFF, is stored. -/
theorem State.webParamFld_stores {f : Fld} {v : Nat} (h : v ≠ 0 ∨ s.ust .web = .off) : s.webParamFld f v = s.put f v :=
  if_neg (by rintro ⟨hzero, hon⟩; exact h.elim (· hzero) hon)

end WebCommands

end Sys2Proof.Machine

namespace Sys2Proof.Machine

/-! ### SCALE and the ramp registers (R384, R400) -/

section WebParams
variable {s x : State} {offs : List Nat}

theorem State.rget_webRenewed (s x : State) (a : Nat) : (s.webRenewed x).trackIrq.rget a = x.rget a := by
  rw [State.rget_trackIrq, State.rget, State.webRenewed_regs, ← State.rget]

theorem State.get_webRenewed (s x : State) (f : Fld) : (s.webRenewed x).trackIrq.get f = x.get f :=
  State.get_eq_of_rget _ _ _ (s.rget_webRenewed x _)

theorem Silent.webRenewed_put (s : State) (f : Fld) (v : Nat) :
    Alters s (s.webRenewed (s.put f v)).trackIrq { s with web := { s.web with fresh := s.web.fresh || s.web.traj.isSome } } [f.off] :=
  Alters.webRenewed ((RegsOnly.refl s).put _ _) ((Keeps.refl s _).put f _ List.mem_cons_self)

theorem State.webParam_scale {v : Nat} (h : v ≠ 0) : s.webParam .scale v = s.webRenewed (s.put MOT_WEB_SCALE_SCALE v) :=
  congrArg s.webRenewed (State.webParamFld_stores (.inl h))

theorem State.webParam_rampJ (v : Nat) (h : s.ust .web = .off) : s.webParam .rampJ v = s.webRenewed (s.put MOT_WEB_RAMP_J_JERK (v % 65536)) :=
  congrArg s.webRenewed (State.webParamFld_stores (.inr h))

theorem State.webParam_backV (v : Nat) (h : s.ust .web = .off) : s.webParam .backV v = s.webRenewed (s.put MOT_WEB_BACK_V_MMPS (v % 65536)) :=
  congrArg s.webRenewed (State.webParamFld_stores (.inr h))

/-- The two halves of MOT_WEB_RAMP_A. -/
def State.rampAPut (s : State) (v : Nat) : State := (s.put MOT_WEB_RAMP_A_ACC (v % 65536)).put MOT_WEB_RAMP_A_DEC (v / 65536)

theorem State.webParam_rampA (v : Nat) (h : s.ust .web = .off) : s.webParam .rampA v = s.webRenewed (s.rampAPut v) := by
  have hoff : (s.put MOT_WEB_RAMP_A_ACC (v % 65536)).ust .web = .off :=
    (State.ust_of_rget s _ .web (by decide) (State.rget_put_ne _ _ _ _ (by decide))).trans h
  refine congrArg s.webRenewed ?_
  dsimp only
  rw [State.webParamFld_stores (.inr h), State.webParamFld_stores (.inr hoff)]
  rfl

/-- A word is put together from its halves. -/
theorem setBits_halves {r v : Nat} (hr : r < 2 ^ 32) (hv : v < 2 ^ 32) : setBits (setBits r 15 0 (v % 65536)) 31 16 (v / 65536) = v := by
  refine Nat.eq_of_testBit_eq fun i => ?_
  rw [setBits_testBit, setBits_testBit, show 65536 = 2 ^ 16 from rfl, Nat.testBit_mod_two_pow, Nat.testBit_div_two_pow]
  split
  next hhigh => rw [Nat.sub_add_cancel hhigh.1]
  next hhigh =>
    split
    next hlow =>
      rw [Nat.sub_zero, decide_eq_true (by omega : i < 16), Bool.true_and]
    next hlow =>
      have hpow : 2 ^ 32 ≤ 2 ^ i := Nat.pow_le_pow_right (by decide) (by omega)
      rw [Nat.testBit_lt_two_pow (hr.trans_le hpow), Nat.testBit_lt_two_pow (hv.trans_le hpow)]

theorem State.rget_rampAPut (s : State) (v : Word) : (s.rampAPut v.toNat).rget MOT_WEB_RAMP_A = v := by
  refine BitVec.eq_of_toNat_eq ?_
  have hdec : ((s.rampAPut v.toNat).rget MOT_WEB_RAMP_A).toNat = _ := State.toNat_put _ MOT_WEB_RAMP_A_DEC _ (by decide)
  have hacc : ((s.put MOT_WEB_RAMP_A_ACC (v.toNat % 65536)).rget MOT_WEB_RAMP_A).toNat = _ := State.toNat_put _ MOT_WEB_RAMP_A_ACC _ (by decide)
  rw [hdec]
  exact (congrArg (fun r => setBits r 31 16 (v.toNat / 65536)) hacc).trans (setBits_halves (s.rget _).isLt v.isLt)

theorem Alters.rampAPut (s : State) (v : Nat) :
    Alters s (s.webRenewed (s.rampAPut v)).trackIrq { s with web := { s.web with fresh := s.web.fresh || s.web.traj.isSome } } [MOT_WEB_RAMP_A] :=
  Alters.webRenewed (((RegsOnly.refl s).put _ _).put _ _)
    (((Keeps.refl s _).put MOT_WEB_RAMP_A_ACC _ List.mem_cons_self).put MOT_WEB_RAMP_A_DEC _ List.mem_cons_self)

/-- A SCALE of 0 is refused while the axis is not OFF. -/
theorem State.webParam_zero (h : s.ust .web ≠ .off) : s.webParam .scale 0 = s.webRenewed (s.putB MOT_WEB_STATUS_CMD_ERR true) :=
  congrArg s.webRenewed (if_pos ⟨rfl, h⟩)

end WebParams

/-! ### A recovery or job-end move at standstill (R397) -/

section Standstill
variable {s x : State} {xb : Int}

/-- The web at standstill where its profile leaves it. -/
def State.webRest (s : State) : State :=
  ({ s with web := { s.web with traj := none, fresh := false, mot := match s.web.traj with
    | some t => ⟨t.stop s.web.mot, 0, 0⟩ | none => ⟨s.web.mot.p, 0, 0⟩ } } : State).showWeb

/-- The web at standstill with its park error shown. -/
def State.webParkShown (s : State) (err : Int) : State := s.webRest.putS MOT_WEB_PARK_ERR_ERR (roundDiv err 256)

theorem State.webStandstill_parked (hplan : s.web.plan = .park xb) (hjob : s.press.job = none)
    (hin : 4 * (s.webXAt s.now - xb).natAbs ≤ 65536 * s.get PGP_RECOV_MARGIN_LINES) :
    s.webStandstill = ((s.webParkShown (s.webXAt s.now - xb)).webPlan 0 .idle).event' Ev.WEB_PARKED
      [twos 32 (xb / 65536), twos 32 (roundDiv (s.webXAt s.now - xb) 65536)] := by
  unfold State.webStandstill
  dsimp only
  rw [hplan]
  dsimp only
  rw [if_pos hin, hjob]
  rfl

theorem State.webStandstill_corrects (hplan : s.web.plan = .park xb)
    (hout : 65536 * s.get PGP_RECOV_MARGIN_LINES < 4 * (s.webXAt s.now - xb).natAbs) (htries : s.get MOT_WEB_STATUS_PARK_TRIES < 4) :
    s.webStandstill = ((s.webParkShown (s.webXAt s.now - xb)).webPlan 3 (.park xb)).put MOT_WEB_STATUS_PARK_TRIES
      (s.get MOT_WEB_STATUS_PARK_TRIES + 1) := by
  unfold State.webStandstill
  dsimp only
  rw [hplan]
  dsimp only
  rw [if_neg (Nat.not_le.mpr hout), if_pos htries]
  rfl

theorem State.webStandstill_fails (hplan : s.web.plan = .park xb)
    (hout : 65536 * s.get PGP_RECOV_MARGIN_LINES < 4 * (s.webXAt s.now - xb).natAbs) (htries : 4 ≤ s.get MOT_WEB_STATUS_PARK_TRIES) :
    s.webStandstill = ((s.webParkShown (s.webXAt s.now - xb)).webPlan 0 .idle).report Ev.WEB_PARK_FAIL 16
      [twos 32 (xb / 65536), twos 32 (roundDiv (s.webXAt s.now - xb) 256)] MOT_IRQ_CAUSE_WEB_PARK_FAIL := by
  unfold State.webStandstill
  dsimp only
  rw [hplan]
  dsimp only
  rw [if_neg (Nat.not_le.mpr hout), if_neg (Nat.not_lt.mpr htries)]
  rfl

theorem parkRegs_apart : MOT_WEB_PARK_ERR ≠ MOT_WEB_STATUS ∧ MOT_WEB_PARK_ERR ∉ evtRegs ∧ MOT_WEB_STATUS ∉ evtRegs ∧
    RST_ISLAND 1 ∉ [MOT_WEB_RATE, MOT_WEB_STATUS, MOT_WEB_PARK_ERR] ∧ PAR_STATUS ∉ [MOT_WEB_RATE, MOT_WEB_STATUS, MOT_WEB_PARK_ERR] ++ evtRegs ∧
    PAR_CFG ∉ [MOT_WEB_RATE, MOT_WEB_STATUS, MOT_WEB_PARK_ERR] ++ evtRegs := by decide

theorem twos_lt (w : Nat) (x : Int) : twos w x < 2 ^ w := by
  have hpos : (0 : Int) < ((2 ^ w : Nat) : Int) := by exact_mod_cast Nat.two_pow_pos w
  have hlt := Int.emod_lt_of_pos x hpos
  have hnonneg := Int.emod_nonneg x hpos.ne'
  unfold twos
  omega

theorem WebOnly.webParkShown (s : State) (err : Int) : WebOnly s (s.webParkShown err) := (((WebOnly.refl s).withWeb _).showWeb).putS _ _

theorem Keeps.webParkShown (s : State) (err : Int) : Keeps s (s.webParkShown err) [MOT_WEB_RATE, MOT_WEB_STATUS, MOT_WEB_PARK_ERR] :=
  (Keeps.showWeb ((Keeps.refl s _).withWeb _) (by simp) (by simp)).putS MOT_WEB_PARK_ERR_ERR _ (by simp [MOT_WEB_PARK_ERR_ERR])

theorem State.webParkShown_shows (s : State) (err : Int) :
    let t := s.webParkShown err
    t.web.traj = none ∧ t.web.mot.v = 0 ∧ t.get MOT_WEB_PARK_ERR_ERR = twos 32 (roundDiv err 256) := by
  refine ⟨rfl, ?_, ?_⟩
  · have hmot : (s.webParkShown err).web.mot = (match s.web.traj with | some t => ⟨t.stop s.web.mot, 0, 0⟩ | none => ⟨s.web.mot.p, 0, 0⟩) := rfl
    rw [hmot]
    cases s.web.traj <;> rfl
  · exact (State.get_put_same _ _ _ (by decide)).trans (Nat.mod_eq_of_lt (twos_lt 32 _))

theorem State.parked_noJob (h : s.press.job = none) : s.parked = s := by
  unfold State.parked
  rw [h]

theorem State.journals_of_regs (hstatus : x.rget PAR_STATUS = s.rget PAR_STATUS) (hcfg : x.rget PAR_CFG = s.rget PAR_CFG) :
    x.journals = s.journals := by
  have hrole : x.role = s.role := State.get_eq_of_rget _ _ _ hcfg
  have hpstate : x.pstate = s.pstate := State.get_eq_of_rget _ _ _ hstatus
  have hup : x.on PAR_STATUS_MIRROR_UP = s.on PAR_STATUS_MIRROR_UP := State.on_eq_of_get _ _ _ (State.get_eq_of_rget _ _ _ hstatus)
  rw [State.journals, hrole, hpstate, hup, ← State.journals]

/-- Without a job, a journal or a handover the standstill of the web is all that happens. -/
theorem exec_webMoveStandstill {offs : List Nat} (heff : s.webStandstill = x) (hh : x.hidden = ({ s with web := x.web } : State).hidden)
    (hk : Keeps s x offs) (hstatus : PAR_STATUS ∉ offs) (hcfg : PAR_CFG ∉ offs)
    (hjob : s.press.job = none) (hjrn : s.journals = false) (hhand : s.par.handover = false) : exec .webMoveStandstill s = finish x := by
  have hjob' : x.press.job = none := (congrArg (fun y : State => y.press.job) hh).trans hjob
  have hhand' : x.par.handover = false := (congrArg (fun y : State => y.par.handover) hh).trans hhand
  have hjrn' : x.journals = false := (State.journals_of_regs (hk _ hstatus) (hk _ hcfg)).trans hjrn
  have hquiet : x.jrn x.axisRecord = x := if_neg (by simp [hjrn'])
  refine (congrArg (fun y : State => finish (((y.jrn y.axisRecord).parked).handoverCheck)) heff).trans (congrArg finish ?_)
  rw [hquiet, State.parked_noJob hjob', State.handoverCheck_idle hhand']

/-- A park move that is done, or given up, leaves no plan, and reports it. -/
theorem State.webParkEnded_shows (h : WebOnly s x) (hk : Keeps s x [MOT_WEB_RATE, MOT_WEB_STATUS, MOT_WEB_PARK_ERR]) {c : Nat} (hc : c ≠ Ev.EVT_LOST)
    (u : Nat) (p : List Nat) :
    let y := (x.webPlan 0 .idle).event c u p
    y.web = { x.web with plan := .idle, fresh := true, traj := none } ∧ y.get MOT_WEB_PARK_ERR_ERR = x.get MOT_WEB_PARK_ERR_ERR ∧
      Posts s y c u p ∧ y.hidden = ({ s with web := y.web } : State).hidden ∧
      Keeps s y ([MOT_WEB_RATE, MOT_WEB_STATUS, MOT_WEB_PARK_ERR] ++ evtRegs) := by
  obtain ⟨herr, hevt, -, hisland, -, -⟩ := parkRegs_apart
  have honly : WebOnly s (x.webPlan 0 .idle) := h.webPlan 0 .idle
  have hkeeps : Keeps s (x.webPlan 0 .idle) [MOT_WEB_RATE, MOT_WEB_STATUS, MOT_WEB_PARK_ERR] := hk.webPlan 0 .idle (by simp)
  have hhif : (x.webPlan 0 .idle).hif = s.hif := by rw [honly]
  have htime : (x.webPlan 0 .idle).time = s.time := by rw [honly]
  have hhidden : ((x.webPlan 0 .idle).event c u p).hidden = (x.webPlan 0 .idle).hidden := State.event_hidden ..
  have hweb : ((x.webPlan 0 .idle).event c u p).web = (x.webPlan 0 .idle).web := (congrArg State.web hhidden).trans rfl
  refine ⟨hweb, ?_, ?_, ?_, ?_⟩
  · exact (State.get_event _ _ _ _ _ hevt).trans (x.webPlan_get 0 .idle (.inl (Ne.symm herr)))
  · exact Posts.of_event s _ c u p hhif htime (hkeeps _ hisland) hc
  · rw [hweb, State.event_hidden]
    exact honly.hidden
  · exact (hkeeps.mono (fun a ha => List.mem_append_left _ ha)).event _ _ _ (fun a ha => List.mem_append_right _ ha)

end Standstill

end Sys2Proof.Machine

namespace Sys2Proof.Machine

/-! ### DRIVE_READY and the fault of the web axis (R400, R401) -/

section DriveReady
variable {s x : State}

theorem State.driveReady_ready (h : s.web.rdy ≠ s.on MOT_WEB_CFG_RDY_POL) : s.driveReady = s.putB MOT_WEB_STATUS_DRIVE_READY true := by
  have hready : (s.web.rdy != s.on MOT_WEB_CFG_RDY_POL) = true := bne_iff_ne.mpr h
  unfold State.driveReady
  dsimp only
  rw [hready, if_neg (by simp)]

/-- The level is lost while the clock does not run: a fault alone. -/
theorem State.driveReady_lost (h : s.web.rdy = s.on MOT_WEB_CFG_RDY_POL) (hwas : s.on MOT_WEB_STATUS_DRIVE_READY = true) (hon : s.ust .web = .on)
    (hrunning : s.clk ≠ clkRunning) (hlocking : s.clk ≠ clkLocking) : s.driveReady = (s.putB MOT_WEB_STATUS_DRIVE_READY false).webFault 3 := by
  have hready : (s.web.rdy != s.on MOT_WEB_CFG_RDY_POL) = false := bne_eq_false_iff_eq.mpr h
  unfold State.driveReady
  dsimp only
  rw [hready, if_pos (by simp [hwas, hon]), if_neg (by simp [hrunning, hlocking])]

/-- The web axis in FAULT, before the fault is reported. -/
def State.webFaulted (s : State) (reason : Nat) : State :=
  ((s.put MOT_WEB_STATUS_STATE UState.fault.code).putB MOT_WEB_STATUS_PEND false).put MOT_WEB_STATUS_REASON reason

/-- The fault, reported. -/
def State.webFaultReported (s : State) (reason : Nat) : State :=
  (s.webFaulted reason).report Ev.AXIS_FAULT 16 [reason, twos 32 (s.web.mot.p / 4294967296), twos 32 (s.press.webPos / 1048576)]
    MOT_IRQ_CAUSE_AXIS_FAULT

theorem State.webFault_on (h : s.ust .web = .on) (reason : Nat) : s.webFault reason = (s.webFaultReported reason).refreshWebStop :=
  State.faultUnit_starting_or_on reason _ (.inr h)

theorem webStatus_apart : MOT_IRQ_CAUSE ≠ MOT_WEB_STATUS ∧ MOT_WEB_STATUS ∉ evtRegs ∧ RST_ISLAND 1 ∉ [MOT_WEB_STATUS] := by decide

theorem State.webFaultReported_get (s : State) (reason : Nat) {g : Fld} (hg : g.off = MOT_WEB_STATUS) :
    (s.webFaultReported reason).get g = (s.webFaulted reason).get g :=
  State.get_report _ _ _ _ (by decide) (by rw [hg]; exact webStatus_apart.1) (by rw [hg]; exact webStatus_apart.2.1)

theorem State.webFaultReported_ust (s : State) (reason : Nat) : (s.webFaultReported reason).ust .web = .fault := by
  have hstate : (s.webFaultReported reason).get MOT_WEB_STATUS_STATE = UState.fault.code :=
    (s.webFaultReported_get reason rfl).trans ((State.get_put_bits _ _ _ _ (by decide) (by decide)).trans
      ((State.get_putB_bits _ _ _ _ (by decide) (by decide)).trans ((State.get_put_same _ _ _ (by decide)).trans rfl)))
  exact (congrArg UState.ofCode hstate).trans (UState.ofCode_code .fault)

/-- A fault of the axis asserts WEB_STOP. -/
theorem State.webFaultReported_stops (s : State) (reason : Nat) : (s.webFaultReported reason).webStopNow = true := by
  unfold State.webStopNow
  rw [s.webFaultReported_ust reason]
  simp

theorem State.webFaultReported_posts (h : WebOnly s x) (hk : Keeps s x [MOT_WEB_STATUS]) (reason : Nat) :
    Posts s (x.webFaultReported reason) Ev.AXIS_FAULT 16 [reason, twos 32 (x.web.mot.p / 4294967296), twos 32 (x.press.webPos / 1048576)] ∧
      (x.webFaultReported reason).hidden = ({ s with web := x.web } : State).hidden ∧
      Keeps s (x.webFaultReported reason) ([MOT_WEB_STATUS, MOT_WEB_RATE, MOT_IRQ_CAUSE] ++ evtRegs) := by
  have honly : WebOnly s (x.webFaulted reason) := ((h.put _ _).putB _ _).put _ _
  have hkeeps : Keeps s (x.webFaulted reason) [MOT_WEB_STATUS] :=
    ((hk.put MOT_WEB_STATUS_STATE _ List.mem_cons_self).putB MOT_WEB_STATUS_PEND _ List.mem_cons_self).put MOT_WEB_STATUS_REASON _ List.mem_cons_self
  have hweb : (x.webFaulted reason).web = x.web := rfl
  unfold State.webFaultReported
  generalize x.webFaulted reason = y at *
  have hhif : y.hif = s.hif := by rw [honly]
  have htime : y.time = s.time := by rw [honly]
  refine ⟨(Posts.of_event s y _ _ _ hhif htime (hkeeps _ webStatus_apart.2.2) (by decide)).cause _, ?_, ?_⟩
  · rw [State.hidden_report, honly.hidden, hweb]
  · have hall : Keeps s y ([MOT_WEB_STATUS, MOT_WEB_RATE, MOT_IRQ_CAUSE] ++ evtRegs) := hkeeps.mono (by simp)
    exact (hall.event _ _ _ (evtRegs_sub_right _)).cause MOT_IRQ_CAUSE_AXIS_FAULT (by simp [MOT_IRQ_CAUSE_AXIS_FAULT])

/-- What the fault shows once WEB_STOP is asserted. -/
theorem State.webFault_shows (h : WebOnly s x) (hk : Keeps s x [MOT_WEB_STATUS]) (hready : x.on MOT_WEB_STATUS_DRIVE_READY = false)
    (hon : x.ust .web = .on) :
    let t := (x.webFault 3).trackIrq
    t.on MOT_WEB_STATUS_DRIVE_READY = false ∧ t.ust .web = .fault ∧ t.get MOT_WEB_STATUS_REASON = 3 ∧ t.on MOT_WEB_STATUS_WEB_STOP = true ∧
      Posts s t Ev.AXIS_FAULT 16 [3, twos 32 (x.web.mot.p / 4294967296), twos 32 (x.press.webPos / 1048576)] ∧
      AltersPosting s t { s with web := t.web } [MOT_WEB_STATUS, MOT_WEB_RATE, MOT_IRQ_CAUSE] := by
  obtain ⟨hposts, hhidden, hkeeps⟩ := State.webFaultReported_posts h hk 3
  have hasserted := x.webFaultReported_stops 3
  have hready' : (x.webFaultReported 3).get MOT_WEB_STATUS_DRIVE_READY = x.get MOT_WEB_STATUS_DRIVE_READY :=
    (x.webFaultReported_get 3 rfl).trans ((State.get_put_bits _ _ _ _ (by decide) (by decide)).trans
      ((State.get_putB_bits _ _ _ _ (by decide) (by decide)).trans (State.get_put_bits _ _ _ _ (by decide) (by decide))))
  have hreason : (x.webFaultReported 3).get MOT_WEB_STATUS_REASON = 3 :=
    (x.webFaultReported_get 3 rfl).trans ((State.get_put_same _ _ _ (by decide)).trans rfl)
  have hfault : (x.webFaultReported 3).ust .web = .fault := x.webFaultReported_ust 3
  rw [State.webFault_on hon]
  generalize x.webFaultReported 3 = y at *
  obtain ⟨hstop, -⟩ := State.refreshWebStop_shows hasserted
  have honly : WebOnly y y.refreshWebStop := (WebOnly.refl y).refreshWebStop
  have hkeeps' := hkeeps.refreshWebStop (by simp) (by simp)
  have hget : ∀ {g : Fld}, MOT_WEB_STATUS_WMODE.apart g → MOT_WEB_STATUS_WEB_STOP.apart g → MOT_WEB_RATE_RATE.apart g →
      MOT_WEB_STATUS_STANDSTILL.apart g → y.refreshWebStop.get g = y.get g := fun h1 h2 h3 h4 => State.refreshWebStop_get hasserted h1 h2 h3 h4
  generalize y.refreshWebStop = z at *
  refine ⟨?_, ?_, ?_, (State.on_trackIrq ..).trans hstop, (honly.posts hposts).trackIrq, ?_⟩
  · exact (State.on_trackIrq ..).trans ((State.on_eq_of_get _ _ _ ((hget (by decide) (by decide) (by decide) (by decide)).trans hready')).trans hready)
  · exact (State.ust_trackIrq ..).trans ((congrArg UState.ofCode (hget (g := MOT_WEB_STATUS_STATE) (by decide) (by decide) (by decide) (by decide))).trans hfault)
  · exact (State.get_trackIrq ..).trans ((hget (by decide) (by decide) (by decide) (by decide)).trans hreason)
  · refine AltersPosting.of_hidden (honly.hidden.trans ?_) hkeeps'
    exact congrArg (fun u : State => ({ u with web := z.web } : State)) hhidden

/-- A park move that is corrected once more. -/
theorem State.webCorrected_shows (h : WebOnly s x) (hk : Keeps s x [MOT_WEB_RATE, MOT_WEB_STATUS, MOT_WEB_PARK_ERR]) (xb : Int) {n : Nat} (hn : n < 4) :
    let y := (x.webPlan 3 (.park xb)).put MOT_WEB_STATUS_PARK_TRIES (n + 1)
    y.web.plan = .park xb ∧ y.web.fresh = true ∧ WebOnly s y ∧ Keeps s y [MOT_WEB_RATE, MOT_WEB_STATUS, MOT_WEB_PARK_ERR] ∧ y.get MOT_WEB_STATUS_PARK_TRIES = n + 1 := by
  have hlt : n + 1 < 2 ^ 3 := by omega
  exact ⟨rfl, rfl, (h.webPlan 3 _).put _ _, (hk.webPlan 3 _ (by simp)).put MOT_WEB_STATUS_PARK_TRIES _ (by simp [MOT_WEB_STATUS_PARK_TRIES]),
    (State.get_put_same _ _ _ (by decide)).trans (Nat.mod_eq_of_lt hlt)⟩

/-- What a command shows that plans the park move once more. -/
theorem nextCorrected {c : Instr} {xb : Int} {n : Nat} (h : exec c s = finish x) (hplan : x.web.plan = .park xb) (hfresh : x.web.fresh = true)
    (htries : x.get MOT_WEB_STATUS_PARK_TRIES = n) (honly : WebOnly s x) (hk : Keeps s x [MOT_WEB_RATE, MOT_WEB_STATUS, MOT_WEB_PARK_ERR]) :
    ∃ t, exec c s = .next t ∧ t.web.plan = .park xb ∧ t.web.fresh = true ∧ t.get MOT_WEB_STATUS_PARK_TRIES = n ∧
      Alters s t { s with web := t.web } [MOT_WEB_RATE, MOT_WEB_STATUS, MOT_WEB_PARK_ERR] :=
  ⟨_, h, hplan, hfresh, (State.get_trackIrq ..).trans htries, Alters.of_webOnly honly hk⟩

end DriveReady

/-- Settles O47: each clause is the one branch of its command that its premises leave. -/
theorem webAxis : Obligations.WebAxis := by
  unfold Obligations.WebAxis
  refine ⟨?_, ?_, ?_, ?_, ?_, ?_, ?_, ?_, ?_, ?_, ?_, ?_, ?_, ?_, ?_⟩
  · intro s req v hreq hrun hidle hon
    have heff := (exec_motWebTarget hreq hrun v).trans (congrArg finish (State.webTarget_moves hidle hon v.toInt))
    exact ⟨_, heff, s.firmwareMove_shows _⟩
  · intro s req v hreq hrun hactive
    have heff : s.webTarget v.toInt = s.putB MOT_WEB_STATUS_CMD_ERR true := if_neg (fun h => hactive h.1)
    exact nextPutB ((exec_motWebTarget hreq hrun v).trans (congrArg finish heff)) (by decide)
  · intro s req g hreq hrun hplan
    have heff := (exec_jogStop hreq hrun).trans (congrArg finish (State.webJogStop_firmware hplan))
    refine ⟨_, heff, (State.get_trackIrq ..).trans (State.webPlan_mode _ _ (by decide)), ?_⟩
    exact Alters.of_web ((WebOnly.refl s).webPlan 4 _) rfl ((Keeps.refl s _).webPlan 4 _ List.mem_cons_self)
  · intro s req hreq hrun
    exact ⟨_, exec_forceStop hreq hrun true, s.forceStop_shows⟩
  · intro s req hreq hrun hclk hreset htherm hon
    have heff := (exec_forceStop hreq hrun false).trans (congrArg finish (State.forceStop_releases hclk hreset htherm hon))
    exact ⟨_, heff, s.forceStop_release_shows⟩
  · intro s req v hreq hrun hv
    have hv' : v.toNat ≠ 0 := fun h => hv (BitVec.eq_of_toNat_eq h)
    have heff := (exec_motWebParam hreq hrun .scale v).trans (congrArg finish (State.webParam_scale hv'))
    exact ⟨_, heff, (s.rget_webRenewed _ _).trans (s.rget_put_word MOT_WEB_SCALE v), Silent.webRenewed_put s MOT_WEB_SCALE_SCALE _⟩
  · intro s req v hreq hrun hoff
    have heff := (exec_motWebParam hreq hrun .rampA v).trans (congrArg finish (State.webParam_rampA v.toNat hoff))
    exact ⟨_, heff, (s.rget_webRenewed _ _).trans (s.rget_rampAPut v), Alters.rampAPut s _⟩
  · intro s req v hreq hrun hoff
    have heff := (exec_motWebParam hreq hrun .rampJ v).trans (congrArg finish (State.webParam_rampJ v.toNat hoff))
    refine ⟨_, heff, (s.get_webRenewed _ _).trans ((State.get_put_same _ _ _ (by decide)).trans (Nat.mod_mod _ _)), ?_⟩
    exact Silent.webRenewed_put s MOT_WEB_RAMP_J_JERK _
  · intro s req v hreq hrun hoff
    have heff := (exec_motWebParam hreq hrun .backV v).trans (congrArg finish (State.webParam_backV v.toNat hoff))
    refine ⟨_, heff, (s.get_webRenewed _ _).trans ((State.get_put_same _ _ _ (by decide)).trans (Nat.mod_mod _ _)), ?_⟩
    exact Silent.webRenewed_put s MOT_WEB_BACK_V_MMPS _
  · intro s req hreq hrun hon
    have heff := (exec_motWebParam hreq hrun .scale 0).trans (congrArg finish (State.webParam_zero hon))
    refine ⟨_, heff, ?_, ?_⟩
    · exact (State.on_eq_of_get _ _ _ (s.get_webRenewed _ _)).trans (State.on_putB_same _ _ _ (by decide))
    · exact (s.rget_webRenewed _ _).trans (State.rget_put_ne _ _ _ _ (by decide))
  · intro s xb hplan hjob hjrn hhand hin
    have heff := State.webStandstill_parked hplan hjob hin
    obtain ⟨htraj, hv, herr⟩ := s.webParkShown_shows (s.webXAt s.now - xb)
    obtain ⟨hweb, herr', hposts, hhidden, hkeeps⟩ := State.webParkEnded_shows (WebOnly.webParkShown s (s.webXAt s.now - xb))
      (Keeps.webParkShown s (s.webXAt s.now - xb)) (c := Ev.WEB_PARKED) (by decide) 0xFFFF
      [twos 32 (xb / 65536), twos 32 (roundDiv (s.webXAt s.now - xb) 65536)]
    have hexec := exec_webMoveStandstill heff hhidden hkeeps parkRegs_apart.2.2.2.2.1 parkRegs_apart.2.2.2.2.2 hjob hjrn hhand
    generalize s.webParkShown (s.webXAt s.now - xb) = x at *
    refine ⟨_, hexec, congrArg Web.plan hweb, congrArg Web.traj hweb, (congrArg (fun w : Web => w.mot.v) hweb).trans hv,
      (State.get_trackIrq ..).trans (herr'.trans herr), hposts.trackIrq, AltersPosting.of_hidden hhidden hkeeps⟩
  · intro s xb hplan hjob hjrn hhand hout htries
    have heff := State.webStandstill_corrects hplan hout htries
    obtain ⟨hplan', hfresh, honly, hkeeps, hshown⟩ := State.webCorrected_shows (WebOnly.webParkShown s (s.webXAt s.now - xb)) (Keeps.webParkShown s _) xb htries
    have hexec := exec_webMoveStandstill heff honly.hidden hkeeps (by decide) (by decide) hjob hjrn hhand
    exact nextCorrected hexec hplan' hfresh hshown honly hkeeps
  · intro s xb hplan hjob hjrn hhand hout htries
    have heff := State.webStandstill_fails hplan hout htries
    obtain ⟨hweb, -, hposts, hhidden, hkeeps⟩ := State.webParkEnded_shows (WebOnly.webParkShown s (s.webXAt s.now - xb))
      (Keeps.webParkShown s (s.webXAt s.now - xb)) (c := Ev.WEB_PARK_FAIL) (by decide) 16
      [twos 32 (xb / 65536), twos 32 (roundDiv (s.webXAt s.now - xb) 256)]
    have hkeeps' := (hkeeps.mono (fun a ha => List.mem_cons_of_mem MOT_IRQ_CAUSE ha)).cause MOT_IRQ_CAUSE_WEB_PARK_FAIL List.mem_cons_self
    have hexec := exec_webMoveStandstill heff ((State.cause_hidden _ _).trans hhidden) hkeeps' (by decide) (by decide) hjob hjrn hhand
    exact ⟨_, hexec, congrArg Web.plan hweb, (State.on_trackIrq ..).trans (State.on_cause_same _ _ (by decide)), (hposts.cause _).trackIrq⟩
  · intro s level hlevel
    have heff := State.driveReady_ready (s := { s with web := { s.web with rdy := level } }) hlevel
    refine ⟨_, congrArg finish heff, (State.on_trackIrq ..).trans (State.on_putB_same _ _ _ (by decide)), ?_⟩
    exact Alters.of_web (((WebOnly.refl s).withWeb _).putB _ _) rfl (((Keeps.refl s _).withWeb _).putB MOT_WEB_STATUS_DRIVE_READY _ List.mem_cons_self)
  · intro s level hlevel hwas hon hrunning hlocking
    have heff := State.driveReady_lost (s := { s with web := { s.web with rdy := level } }) hlevel hwas hon hrunning hlocking
    have hon' : (({ s with web := { s.web with rdy := level } } : State).putB MOT_WEB_STATUS_DRIVE_READY false).ust .web = .on :=
      (congrArg UState.ofCode (State.get_putB_bits _ _ MOT_WEB_STATUS_STATE _ (by decide) (by decide))).trans hon
    exact ⟨_, congrArg finish heff, State.webFault_shows (((WebOnly.refl s).withWeb _).putB _ _)
      (((Keeps.refl s _).withWeb _).putB MOT_WEB_STATUS_DRIVE_READY _ List.mem_cons_self) (State.on_putB_same _ _ _ (by decide)) hon'⟩

end Sys2Proof.Machine

namespace Sys2Proof.Machine

/-! ### The rules of a stepper axis's record and registers -/

/-- Nothing but registers and the axes changes. -/
def AxesOnly (s x : State) : Prop := x = { s with regs := x.regs, axes := x.axes }

section AxisRules
variable {s x y : State} {a : Fin 16} {offs : List Nat} {f : Axis → Axis}

theorem AxesOnly.refl (s : State) : AxesOnly s s := rfl

theorem AxesOnly.trans (h : AxesOnly s x) (h' : AxesOnly x y) : AxesOnly s y := by
  unfold AxesOnly at *
  rw [h', h]

theorem AxesOnly.put (h : AxesOnly s x) (g : Fld) (v : Nat) : AxesOnly s (x.put g v) := by
  unfold AxesOnly at *
  rw [h]
  rfl

theorem AxesOnly.putB (h : AxesOnly s x) (g : Fld) (b : Bool) : AxesOnly s (x.putB g b) := h.put _ _
theorem AxesOnly.putS (h : AxesOnly s x) (g : Fld) (v : Int) : AxesOnly s (x.putS g v) := h.put _ _

theorem AxesOnly.setAxis (h : AxesOnly s x) (b : Nat) (z : Axis) : AxesOnly s (x.setAxis b z) := by
  unfold AxesOnly at *
  rw [h]
  rfl

theorem AxesOnly.showAxis (h : AxesOnly s x) (b : Nat) : AxesOnly s (x.showAxis b) :=
  (((((h.putS _ _).putS _ _).putB _ _).put _ _).put _ _).putS _ _

theorem AxesOnly.updAxis (h : AxesOnly s x) (b : Nat) (f : Axis → Axis) : AxesOnly s (x.updAxis b f) := (h.setAxis b _).showAxis b

theorem AxesOnly.hidden (h : AxesOnly s x) : x.hidden = ({ s with axes := x.axes } : State).hidden := by
  conv_lhs => rw [h]
  rfl

theorem Keeps.setAxis (h : Keeps s x offs) (b : Nat) (z : Axis) : Keeps s (x.setAxis b z) offs := h

/-- The registers in which an axis is shown. -/
def axisRegs (a : Nat) : List Nat := [MOT_AX_POS a, MOT_AX_VEL a, MOT_AX_STATUS a, MOT_AX_GEAR_OFS a]

theorem Keeps.showAxis (h : Keeps s x offs) (b : Nat) (hsub : ∀ r ∈ axisRegs b, r ∈ offs) : Keeps s (x.showAxis b) offs := by
  have hpos := hsub (MOT_AX_POS b) (by simp [axisRegs])
  have hvel := hsub (MOT_AX_VEL b) (by simp [axisRegs])
  have hstatus := hsub (MOT_AX_STATUS b) (by simp [axisRegs])
  have hofs := hsub (MOT_AX_GEAR_OFS b) (by simp [axisRegs])
  exact (((((h.putS (MOT_AX_POS_POS b) _ hpos).putS (MOT_AX_VEL_VEL b) _ hvel).putB (MOT_AX_STATUS_STANDSTILL b) _ hstatus).put
    (MOT_AX_STATUS_QDEPTH b) _ hstatus).put (MOT_AX_STATUS_GDEPTH b) _ hstatus).putS (MOT_AX_GEAR_OFS_OFS b) _ hofs

theorem Keeps.updAxis (h : Keeps s x offs) (b : Nat) (f : Axis → Axis) (hsub : ∀ r ∈ axisRegs b, r ∈ offs) : Keeps s (x.updAxis b f) offs :=
  (h.setAxis b _).showAxis b hsub

theorem State.axis_setAxis_same (hlen : s.axes.length = 16) (z : Axis) : (s.setAxis a z).axis a = z := by
  have hlt : a.val < (s.axes.set a z).length := by
    rw [List.length_set, hlen]
    exact a.isLt
  rw [State.axis, State.setAxis_axes, List.getD_eq_getElem _ _ hlt, List.getElem_set_self]

theorem State.axis_of_axes (h : x.axes = s.axes) (b : Nat) : x.axis b = s.axis b := by rw [State.axis, h, ← State.axis]

theorem State.showAxis_axes (s : State) (b : Nat) : (s.showAxis b).axes = s.axes := by
  unfold State.showAxis
  dsimp only
  rw [State.putS_axes, State.put_axes, State.put_axes, State.putB_axes, State.putS_axes, State.putS_axes]

theorem State.updAxis_axes (s : State) (b : Nat) (f : Axis → Axis) : (s.updAxis b f).axes = s.axes.set b (f (s.axis b)) :=
  (State.showAxis_axes _ b).trans (State.setAxis_axes ..)

theorem State.axis_set_same (hlen : s.axes.length = 16) {z : Axis} (hx : x.axes = s.axes.set a z) : x.axis a = z :=
  (State.axis_of_axes (s := s.setAxis a z) hx a).trans (State.axis_setAxis_same hlen z)

/-- A change of one axis and of registers, without an event. -/
theorem Alters.of_axis (h : AxesOnly s x) (hk : Keeps s x offs) (hlen : s.axes.length = 16) {z : Axis} (hx : x.axes = s.axes.set a z) :
    Alters s x.trackIrq { s with axes := s.axes.set a (x.trackIrq.axis a) } offs := by
  have haxis : x.trackIrq.axis a = z := State.axis_set_same hlen hx
  refine ⟨?_, hk⟩
  rw [haxis, ← hx]
  simp only [State.trackIrq]
  rw [h]

theorem State.axisChanged_shows (h : AxesOnly s x) (hk : Keeps s x offs) (hlen : s.axes.length = 16) {z : Axis} (hx : x.axes = s.axes.set a z) :
    x.trackIrq.axis a = z ∧ Alters s x.trackIrq { s with axes := s.axes.set a (x.trackIrq.axis a) } offs :=
  ⟨State.axis_set_same hlen hx, Alters.of_axis h hk hlen hx⟩

theorem Keeps.updAxis_self (s : State) (b : Nat) (f : Axis → Axis) : Keeps s (s.updAxis b f) (axisRegs b) :=
  (Keeps.refl s _).updAxis b f fun _ hr => hr

/-! What is shown. -/

theorem axisRegs_apart (a : Fin 16) : MOT_AX_POS a ≠ MOT_AX_VEL a ∧ MOT_AX_POS a ≠ MOT_AX_STATUS a ∧ MOT_AX_POS a ≠ MOT_AX_GEAR_OFS a ∧
    MOT_AX_VEL a ≠ MOT_AX_STATUS a ∧ MOT_AX_STATUS a ≠ MOT_AX_GEAR_OFS a := by revert a; decide

theorem State.showAxis_pos (s : State) (a : Fin 16) : (s.showAxis a).get (MOT_AX_POS_POS a) = twos 32 (s.axis a).pos := by
  obtain ⟨hvel, hstatus, hofs, -, -⟩ := axisRegs_apart a
  exact (State.get_put_apart _ _ _ _ rfl (.inl hofs.symm)).trans ((State.get_put_apart _ _ _ _ rfl (.inl hstatus.symm)).trans
    ((State.get_put_apart _ _ _ _ rfl (.inl hstatus.symm)).trans ((State.get_put_apart _ _ _ _ rfl (.inl hstatus.symm)).trans
      ((State.get_put_apart _ _ _ _ rfl (.inl hvel.symm)).trans ((State.get_put_same _ _ _ rfl).trans (Nat.mod_eq_of_lt (twos_lt 32 _)))))))

theorem State.showAxis_gdepth (s : State) (a : Fin 16) : (s.showAxis a).get (MOT_AX_STATUS_GDEPTH a) = (s.axis a).gears.length % 16 :=
  (State.get_put_apart _ _ _ _ rfl (.inl (axisRegs_apart a).2.2.2.2.symm)).trans (State.get_put_same _ _ _ rfl)

theorem State.showAxis_qdepth (s : State) (a : Fin 16) : (s.showAxis a).get (MOT_AX_STATUS_QDEPTH a) = (s.axis a).moves.length % 64 :=
  (State.get_put_apart _ _ _ _ rfl (.inl (axisRegs_apart a).2.2.2.2.symm)).trans
    ((State.get_put_bits _ _ _ _ rfl rfl).trans (State.get_put_same _ _ _ rfl))

/-- The fields of MOT_AX_STATUS beside the three that are shown stay. -/
theorem State.showAxis_get (s : State) (a : Fin 16) {g : Fld} (hg : g.off = MOT_AX_STATUS a) (hstill : (MOT_AX_STATUS_STANDSTILL a).bitsApart g = true)
    (hq : (MOT_AX_STATUS_QDEPTH a).bitsApart g = true) (hgears : (MOT_AX_STATUS_GDEPTH a).bitsApart g = true) : (s.showAxis a).get g = s.get g := by
  obtain ⟨-, hpos, -, hvel, hofs⟩ := axisRegs_apart a
  exact (State.get_put_apart _ _ _ _ rfl (.inl (by rw [hg]; exact hofs.symm))).trans ((State.get_put_bits _ _ _ _ rfl hgears).trans
    ((State.get_put_bits _ _ _ _ rfl hq).trans ((State.get_put_bits _ _ _ _ rfl hstill).trans
      ((State.get_put_apart _ _ _ _ rfl (.inl (by rw [hg]; exact hvel))).trans (State.get_put_apart _ _ _ _ rfl (.inl (by rw [hg]; exact hpos)))))))

end AxisRules

end Sys2Proof.Machine

namespace Sys2Proof.Machine

/-! ### Commands of an axis (R378 to R385, R393) -/

section AxisCommands
variable {s x : State} {a : Fin 16} {req : Fin 6}

theorem islandOf_axis (a : Fin 16) : islandOf (MOT_AX_CMD a) = 15 ∧ islandOf (MOT_AX_TARGET a) = 15 ∧ islandOf (MOT_AX_CFG a) = 15 := by
  revert a; decide

theorem islandOf_limit (a : Fin 16) (w : AxisLimit) : islandOf (limitFld a w).off = 15 := by
  cases w <;> (revert a; decide)

theorem State.axMode_on {m : Nat} (h : s.axMode a m = true) : s.ust (.axis a) = .on ∧ s.get (MOT_AX_CFG_MODE a) = m := by
  simpa [State.axMode] using h

/-- A refused command shows CMD_ERR alone. -/
theorem nextCmdErr {c : Instr} (h : exec c s = finish (s.axCmdErr a)) :
    ∃ t, exec c s = .next t ∧ t.on (MOT_AX_STATUS_CMD_ERR a) = true ∧ Silent s t [MOT_AX_STATUS a] := nextPutB h rfl

/-! Stops (R385, R386). -/

/-- An axis whose plan is `tr`, with empty queues. -/
def Axis.parked (x : Axis) (tr : Option Traj) : Axis := { x with traj := tr, replan := .no, moves := [], gears := [] }

/-- The position at which a plan ends. -/
def Axis.endsAt (x : Axis) (tr : Option Traj) : Int := match tr with | some t => t.stop x.mot / 4294967296 | none => x.pos

/-- The registers that a stop writes. -/
def parkedRegs (a : Nat) : List Nat :=
  [MOT_AX_POS a, MOT_AX_VEL a, MOT_AX_STATUS a, MOT_AX_GEAR_OFS a, MOT_AX_CFG a, MOT_AX_TARGET a]

theorem State.closeOver_none (h : (s.axis a).excess = none) : s.closeOver a = s := by
  unfold State.closeOver
  rw [h]

theorem State.parkAxis_plain (h : (s.axis a).excess = none) (tr : Option Traj) :
    s.parkAxis a tr = ((s.updAxis a (fun x => x.parked tr)).put (MOT_AX_CFG_MODE a) 1).putS (MOT_AX_TARGET_TARGET a) ((s.axis a).endsAt tr) := by
  unfold State.parkAxis
  dsimp only
  rw [State.closeOver_none h]
  cases tr <;> rfl

theorem parkedRegs_apart (a : Fin 16) : MOT_AX_CFG a ≠ MOT_AX_TARGET a ∧ MOT_AX_CFG a ≠ MOT_AX_STATUS a ∧ MOT_AX_TARGET a ≠ MOT_AX_STATUS a := by
  revert a; decide

/-- An update followed by writes of MODE and TARGET. -/
theorem State.modeAndTarget_shows (h : AxesOnly s x) (hk : Keeps s x (axisRegs a)) (m : Fin 4) (p : Int) :
    let y := (x.put (MOT_AX_CFG_MODE a) m).putS (MOT_AX_TARGET_TARGET a) p
    AxesOnly s y ∧ Keeps s y (parkedRegs a) ∧ y.axes = x.axes ∧ y.get (MOT_AX_CFG_MODE a) = m ∧ y.get (MOT_AX_TARGET_TARGET a) = twos 32 p ∧
      ∀ g : Fld, g.off = MOT_AX_STATUS a → y.get g = x.get g := by
  obtain ⟨hmt, hms, hts⟩ := parkedRegs_apart a
  have hk' : Keeps s x (parkedRegs a) := hk.mono (by simp [axisRegs, parkedRegs])
  refine ⟨(h.put _ _).putS _ _, ?_, ?_, ?_, ?_, ?_⟩
  · exact (hk'.put (MOT_AX_CFG_MODE a) _ (by simp [parkedRegs, MOT_AX_CFG_MODE])).putS (MOT_AX_TARGET_TARGET a) _ (by simp [parkedRegs, MOT_AX_TARGET_TARGET])
  · rw [State.putS_axes, State.put_axes]
  · exact (State.get_put_apart _ _ _ _ rfl (.inl hmt.symm)).trans ((State.get_put_same _ _ _ rfl).trans (Nat.mod_eq_of_lt m.isLt))
  · exact (State.get_put_same _ _ _ rfl).trans (Nat.mod_eq_of_lt (twos_lt 32 p))
  · intro g hg
    exact (State.get_put_apart _ _ _ _ rfl (.inl (by rw [hg]; exact hts))).trans (State.get_put_apart _ _ _ _ rfl (.inl (by rw [hg]; exact hms)))

theorem State.parkAxis_shows (h : (s.axis a).excess = none) (tr : Option Traj) :
    let y := s.parkAxis a tr
    AxesOnly s y ∧ Keeps s y (parkedRegs a) ∧ y.axes = s.axes.set a ((s.axis a).parked tr) ∧ y.get (MOT_AX_CFG_MODE a) = 1 ∧
      y.get (MOT_AX_TARGET_TARGET a) = twos 32 ((s.axis a).endsAt tr) ∧
      ∀ g : Fld, g.off = MOT_AX_STATUS a → (MOT_AX_STATUS_STANDSTILL a).bitsApart g = true → (MOT_AX_STATUS_QDEPTH a).bitsApart g = true →
        (MOT_AX_STATUS_GDEPTH a).bitsApart g = true → y.get g = s.get g := by
  obtain ⟨honly, hkeeps, haxes, hmode, htarget, hstatus⟩ := State.modeAndTarget_shows (a := a) ((AxesOnly.refl s).updAxis a (fun x => x.parked tr))
    (Keeps.updAxis_self s a _) 1 ((s.axis a).endsAt tr)
  rw [State.parkAxis_plain h]
  refine ⟨honly, hkeeps, haxes.trans (s.updAxis_axes a _), hmode, htarget, fun g hg h1 h2 h3 => ?_⟩
  exact (hstatus g hg).trans (State.showAxis_get _ a hg h1 h2 h3)

theorem exec_stop (hreq : req ≠ 5) (hrun : s.islandRuns 15 = true) : exec (.stop req a) s = finish (s.axisStopCmd a) :=
  congrArg finish (State.reqWrite_island (fun s => s.axisStopCmd a) (islandOf_axis a).1 hreq hrun)

theorem State.axisDecel_still {dec : Nat} (hv : (s.axis a).mot.v = 0) (ha : (s.axis a).mot.a = 0) : s.axisDecel a dec = none := if_pos ⟨hv, ha⟩

theorem State.endsAt_still {dec : Nat} (hv : (s.axis a).mot.v = 0) (ha : (s.axis a).mot.a = 0) :
    twos 32 ((s.axis a).endsAt (s.axisDecel a dec)) = twos 32 (s.axis a).pos := by
  rw [State.axisDecel_still hv ha]
  rfl

/-- An axis with a new plan and empty queues. -/
theorem State.axisStopped_shows {offs : List Nat} {tr : Option Traj} (h : AxesOnly s x) (hk : Keeps s x offs) (hlen : s.axes.length = 16)
    (hx : x.axes = s.axes.set a ((s.axis a).parked tr)) :
    let t := x.trackIrq
    (t.axis a).moves = [] ∧ (t.axis a).gears = [] ∧ (t.axis a).mot = (s.axis a).mot ∧ (t.axis a).traj = tr ∧
      Alters s t { s with axes := s.axes.set a (t.axis a) } offs := by
  obtain ⟨haxis, halters⟩ := State.axisChanged_shows h hk hlen hx
  exact ⟨congrArg Axis.moves haxis, congrArg Axis.gears haxis, (congrArg Axis.mot haxis).trans rfl, congrArg Axis.traj haxis, halters⟩

/-! PUSH and GEAR_PUSH (R379, R393). -/

theorem exec_push (hreq : req ≠ 5) (hrun : s.islandRuns 15 = true) : exec (.push req a) s = finish (s.axisPush a) :=
  congrArg finish (State.reqWrite_island (fun s => s.axisPush a) (islandOf_axis a).1 hreq hrun)

/-- An axis with one more queued move. -/
def Axis.queued (x : Axis) (m : Int × Nat) : Axis := { x with moves := x.moves ++ [m] }

theorem State.axisPush_queues (hmode : s.axMode a 0 = true) (hroom : (s.axis a).moves.length < 32) (htraj : (s.axis a).traj = none)
    (hnew : s.getS (MOT_AX_Q_TARGET_TARGET a) ≠ ((s.axis a).moves.getLast?.map (fun m => m.1)).getD (s.axis a).pos) :
    s.axisPush a = s.updAxis a (fun x => x.queued (s.getS (MOT_AX_Q_TARGET_TARGET a), min (s.get (MOT_AX_Q_VEL_VEL a)) (s.get (MOT_AX_VMAX_VMAX a)))) := by
  unfold State.axisPush
  dsimp only
  rw [if_neg (by simp [hmode, Nat.ble_eq, hroom]), htraj]
  refine (if_neg fun heq => hnew (heq.trans ?_)).trans rfl
  cases (s.axis a).moves.getLast? <;> rfl

theorem State.axisQueued_shows (hlen : s.axes.length = 16) (m : Int × Nat) (hroom : (s.axis a).moves.length < 32) :
    let t := (s.updAxis a (fun x => x.queued m)).trackIrq
    t.axis a = (s.axis a).queued m ∧ Alters s t { s with axes := s.axes.set a (t.axis a) } (axisRegs a) ∧
      t.get (MOT_AX_STATUS_QDEPTH a) = (s.axis a).moves.length + 1 := by
  have hdepth : (s.updAxis a (fun x => x.queued m)).get (MOT_AX_STATUS_QDEPTH a) = (s.axis a).moves.length + 1 := by
    refine (State.showAxis_qdepth _ a).trans ?_
    rw [State.axis_setAxis_same hlen]
    change ((s.axis a).moves ++ [m]).length % 64 = _
    rw [List.length_append, List.length_singleton]
    omega
  obtain ⟨haxis, halters⟩ := State.axisChanged_shows ((AxesOnly.refl s).updAxis a fun x => x.queued m) (Keeps.updAxis_self s a _) hlen (s.updAxis_axes a _)
  exact ⟨haxis, halters, (State.get_trackIrq ..).trans hdepth⟩

theorem State.axisPush_refused (hmode : s.axMode a 0 = false) : s.axisPush a = s.axCmdErr a := if_pos (by simp [hmode])

theorem exec_gearPush (hreq : req ≠ 5) (hrun : s.islandRuns 15 = true) : exec (.gearPush req a) s = finish (s.axisGearPush a) :=
  congrArg finish (State.reqWrite_island (fun s => s.axisGearPush a) (islandOf_axis a).1 hreq hrun)

theorem State.axisGearPush_queues (hon : s.ust (.axis a) = .on) (hroom : (s.axis a).gears.length < 8) :
    s.axisGearPush a = s.updAxis a (fun x => { x with gears := x.gears ++ [(s.get (MOT_AX_GEAR_POS_P a), s.getS (MOT_AX_GEAR_RATIO_RATIO a))] }) :=
  if_neg (by simp [hon, hroom])

theorem State.axisGeared_shows (hlen : s.axes.length = 16) (g : Nat × Int) (hroom : (s.axis a).gears.length < 8) :
    let t := (s.updAxis a (fun x => { x with gears := x.gears ++ [g] })).trackIrq
    t.axis a = { s.axis a with gears := (s.axis a).gears ++ [g] } ∧ Alters s t { s with axes := s.axes.set a (t.axis a) } (axisRegs a) ∧
      t.get (MOT_AX_STATUS_GDEPTH a) = (s.axis a).gears.length + 1 := by
  have hdepth : (s.updAxis a (fun x => { x with gears := x.gears ++ [g] })).get (MOT_AX_STATUS_GDEPTH a) = (s.axis a).gears.length + 1 := by
    refine (State.showAxis_gdepth _ a).trans ?_
    rw [State.axis_setAxis_same hlen, List.length_append, List.length_singleton]
    omega
  obtain ⟨haxis, halters⟩ := State.axisChanged_shows ((AxesOnly.refl s).updAxis a fun x => { x with gears := x.gears ++ [g] })
    (Keeps.updAxis_self s a _) hlen (s.updAxis_axes a _)
  exact ⟨haxis, halters, (State.get_trackIrq ..).trans hdepth⟩

/-! SET_POS (R385, R391). -/

theorem axisRegs_notMem_cfg (a : Fin 16) : MOT_AX_CFG a ∉ axisRegs a := by revert a; decide


theorem exec_setPos (hreq : req ≠ 5) (hrun : s.islandRuns 15 = true) : exec (.setPos req a) s = finish (s.axisSetPos a) :=
  congrArg finish (State.reqWrite_island (fun s => s.axisSetPos a) (islandOf_axis a).1 hreq hrun)

/-- An axis moved to a position without a motion. -/
def Axis.placed (x : Axis) (p : Int) : Axis := { x with mot := { x.mot with p := fx p } }

theorem Axis.placed_pos (x : Axis) (p : Int) : (x.placed p).pos = p := Int.mul_ediv_cancel p (by decide)

theorem State.axisSetPos_still (hstill : (s.axis a).still = true) (hmode : s.get (MOT_AX_CFG_MODE a) ≠ 2) :
    s.axisSetPos a = (s.updAxis a (fun x => x.placed (s.getS (MOT_AX_SETPOS_POS a)))).referEnc a := by
  unfold State.axisSetPos
  dsimp only
  rw [if_pos hstill, if_neg hmode]
  rfl

theorem State.axisSetPos_moving (hstill : (s.axis a).still = false) : s.axisSetPos a = s.axCmdErr a := if_neg (by simp [hstill])

theorem State.encCount_setAxis (s : State) (b c : Nat) (z : Axis) : (s.setAxis b z).encCount c = s.encCount c := rfl

/-- An axis whose encoder has just been referenced stands at its commanded position. -/
theorem State.axisE_referEnc (hlen : s.axes.length = 16) (hsrc : s.get (MOT_AX_CFG_ENC_SRC a) ≠ 0) :
    (s.referEnc a).trackIrq.axisE a = (s.axis a).pos := by
  have haxis : (s.referEnc a).axis a = { s.axis a with e0 := (s.axis a).pos, cnt0 := s.encCount a } := State.axis_setAxis_same hlen _
  have hcount : (s.referEnc a).encCount a = s.encCount a := s.encCount_setAxis a a _
  have hsrc' : ¬(s.referEnc a).get (MOT_AX_CFG_ENC_SRC a) = 0 := hsrc
  have heq : (s.referEnc a).trackIrq.axisE a = (s.referEnc a).axisE a := rfl
  rw [heq]
  unfold State.axisE
  rw [if_neg hsrc', haxis, hcount]
  simp [sgn, twos, roundAway]

theorem sgn_twos_getS (s : State) (g : Fld) (hw : g.hi - g.lo = 31) : sgn 32 (twos 32 (s.getS g)) = s.getS g := by
  have hlt := s.get_lt g
  rw [hw] at hlt
  have hgetS : s.getS g = sgn 32 (s.get g) := by rw [State.getS, hw]
  rw [hgetS]
  simp only [sgn, twos]
  split <;> omega

/-- An axis at a position, whose encoder is then referenced to it. -/
theorem State.axisReferred_shows {z : Axis} {p : Int} (h : AxesOnly s x) (hk : Keeps s x (axisRegs a)) (hlen : s.axes.length = 16)
    (hx : x.axes = s.axes.set a z) (hz : z.pos = p) (hshown : x.get (MOT_AX_POS_POS a) = twos 32 p) (hp : sgn 32 (twos 32 p) = p)
    (hsrc : s.get (MOT_AX_CFG_ENC_SRC a) ≠ 0) :
    let t := (x.referEnc a).trackIrq
    (t.axis a).pos = p ∧ t.axisE a = p ∧ t.getS (MOT_AX_POS_POS a) = p ∧ Alters s t { s with axes := s.axes.set a (t.axis a) } (axisRegs a) := by
  have haxis : x.axis a = z := State.axis_set_same hlen hx
  have hlen' : x.axes.length = 16 := by rw [hx, List.length_set, hlen]
  have hsrc' : x.get (MOT_AX_CFG_ENC_SRC a) ≠ 0 := by rwa [hk.get _ (axisRegs_notMem_cfg a)]
  have hset : (x.referEnc a).axes = s.axes.set a { x.axis a with e0 := (x.axis a).pos, cnt0 := x.encCount a } := by
    rw [State.referEnc, State.setAxis_axes, hx, List.set_set]
  obtain ⟨haxis', halters⟩ := State.axisChanged_shows (h.setAxis a _) (hk.setAxis a _) hlen hset
  refine ⟨?_, (State.axisE_referEnc hlen' hsrc').trans (by rw [haxis, hz]), ?_, halters⟩
  · exact (congrArg Axis.pos haxis').trans ((congrArg Axis.pos haxis).trans hz)
  · have hpos : (x.referEnc a).trackIrq.getS (MOT_AX_POS_POS a) = sgn 32 (x.get (MOT_AX_POS_POS a)) := rfl
    rw [hpos, hshown, hp]

theorem State.placed_shown (hlen : s.axes.length = 16) (p : Int) :
    (s.updAxis a (fun x => x.placed p)).get (MOT_AX_POS_POS a) = twos 32 p := by
  refine (State.showAxis_pos _ a).trans ?_
  rw [State.axis_setAxis_same hlen, Axis.placed_pos]

theorem State.axisPlaced_shows (hlen : s.axes.length = 16) (hsrc : s.get (MOT_AX_CFG_ENC_SRC a) ≠ 0) :
    let t := ((s.updAxis a (fun x => x.placed (s.getS (MOT_AX_SETPOS_POS a)))).referEnc a).trackIrq
    (t.axis a).pos = s.getS (MOT_AX_SETPOS_POS a) ∧ t.axisE a = s.getS (MOT_AX_SETPOS_POS a) ∧
      t.getS (MOT_AX_POS_POS a) = s.getS (MOT_AX_SETPOS_POS a) ∧ Alters s t { s with axes := s.axes.set a (t.axis a) } (axisRegs a) :=
  State.axisReferred_shows ((AxesOnly.refl s).updAxis a _) (Keeps.updAxis_self s a _) hlen (s.updAxis_axes a _) (Axis.placed_pos _ _)
    (State.placed_shown hlen _) (sgn_twos_getS s _ rfl) hsrc

/-! Writes of TARGET, MODE and the limits (R378, R383, R384). -/

theorem twos_toInt (v : Word) : twos 32 v.toInt = v.toNat := by
  have hlt := v.isLt
  rw [twos, BitVec.toInt_eq_toNat_cond]
  split <;> omega

theorem State.rget_putS_word (s : State) (g : Nat) (v : Word) : (s.putS ⟨g, 31, 0⟩ v.toInt).rget g = v :=
  (congrArg (fun n => (s.put ⟨g, 31, 0⟩ n).rget g) (twos_toInt v)).trans (s.rget_put_word g v)

theorem exec_axisTarget (hreq : req ≠ 5) (hrun : s.islandRuns 15 = true) (v : Word) :
    exec (.motAxTargetWrite req a v) s = finish (s.axisTarget a v.toInt) :=
  congrArg finish (State.reqWrite_island (fun s => s.axisTarget a v.toInt) (islandOf_axis a).2.1 hreq hrun)

theorem exec_axisMode (hreq : req ≠ 5) (hrun : s.islandRuns 15 = true) (m : Fin 4) :
    exec (.motAxModeWrite req a m) s = finish (s.axisMode a m) :=
  congrArg finish (State.reqWrite_island (fun s => s.axisMode a m) (islandOf_axis a).2.2 hreq hrun)

theorem exec_axisLimit (hreq : req ≠ 5) (hrun : s.islandRuns 15 = true) (w : AxisLimit) (v : Word) :
    exec (.axisLimitWrite req a w v) s = finish (s.axisLimitWrite a w v.toNat) :=
  congrArg finish (State.reqWrite_island (fun s => s.axisLimitWrite a w v.toNat) (islandOf_limit a w) hreq hrun)

/-- An axis that may be marked for a new plan. -/
def State.replanMarked (s : State) (a : Nat) (b : Bool) (r : Replan) : State := if b then s.setAxis a { s.axis a with replan := r } else s

theorem State.rget_replanMarked (s : State) (a : Nat) (b : Bool) (r : Replan) (g : Nat) : (s.replanMarked a b r).trackIrq.rget g = s.rget g := by
  unfold State.replanMarked
  split <;> rfl

/-- A register write that marks the axis. -/
theorem Alters.replanMarked (s : State) (g : Fld) (v a : Nat) (b : Bool) (r : Replan) :
    Alters s ((s.put g v).replanMarked a b r).trackIrq { s with axes := if b then s.axes.set a { s.axis a with replan := r } else s.axes } [g.off] := by
  have hkeeps : Keeps s (s.put g v) [g.off] := (Keeps.refl s _).put g v List.mem_cons_self
  cases b with
  | false => exact ⟨rfl, hkeeps⟩
  | true => exact ⟨rfl, hkeeps⟩

theorem State.axisTarget_marks (s : State) (a : Fin 16) (p : Int) :
    s.axisTarget a p = (s.putS (MOT_AX_TARGET_TARGET a) p).replanMarked a (s.axMode a 1) .target := rfl

theorem State.axisLimitWrite_marks (s : State) (a : Fin 16) (w : AxisLimit) (v : Nat) :
    s.axisLimitWrite a w v = (s.put (limitFld a w) v).replanMarked a
      (decide (s.axMode a 1 = true ∧ (s.axis a).traj.isSome = true ∧ (s.axis a).replan = .no)) .limit := by
  unfold State.axisLimitWrite State.replanMarked
  dsimp only
  split
  next h => rw [if_pos (decide_eq_true h)]
  next h => rw [if_neg (by simpa using h)]

theorem limitFld_ok (a : Nat) (w : AxisLimit) : (limitFld a w).ok = true := by cases w <;> rfl

theorem limitFld_max (a : Nat) (w : AxisLimit) : (limitFld a w).max + 1 = 2 ^ ((limitFld a w).hi - (limitFld a w).lo + 1) :=
  Nat.sub_add_cancel Nat.one_le_two_pow

theorem State.axisMode_off {m : Fin 4} (hoff : s.ust (.axis a) = .off) (hm : m ≠ 3) :
    s.axisMode a m = s ∧ s.get (MOT_AX_CFG_MODE a) = m ∨ s.axisMode a m = s.put (MOT_AX_CFG_MODE a) m := by
  have hm' : m.val ≠ 3 := fun h => hm (Fin.ext h)
  unfold State.axisMode
  dsimp only
  by_cases hsame : m.val = s.get (MOT_AX_CFG_MODE a)
  · exact .inl ⟨if_pos hsame, hsame.symm⟩
  · rw [if_neg hsame, if_neg hm', if_pos hoff]
    exact .inr rfl

/-- An axis whose queue is dropped for a new plan. -/
def Axis.replanned (x : Axis) : Axis := { x with moves := [], replan := .target }

theorem State.axisMode_replans (h : s.axMode a 0 = true) : s.axisMode a 1 = (s.put (MOT_AX_CFG_MODE a) 1).updAxis a Axis.replanned := by
  obtain ⟨hon, hmode⟩ := State.axMode_on h
  unfold State.axisMode
  dsimp only
  rw [hmode, if_neg (by decide), if_neg (by decide), if_neg (by simp [hon])]
  rfl

theorem State.axisReplanned_shows (hlen : s.axes.length = 16) :
    let t := ((s.put (MOT_AX_CFG_MODE a) 1).updAxis a Axis.replanned).trackIrq
    t.axis a = (s.axis a).replanned ∧ t.get (MOT_AX_CFG_MODE a) = 1 ∧
      Alters s t { s with axes := s.axes.set a (t.axis a) } (MOT_AX_CFG a :: axisRegs a) := by
  have honly : AxesOnly s (s.put (MOT_AX_CFG_MODE a) 1) := (AxesOnly.refl s).put _ _
  have hkeeps : Keeps s (s.put (MOT_AX_CFG_MODE a) 1) (MOT_AX_CFG a :: axisRegs a) := (Keeps.refl s _).put (MOT_AX_CFG_MODE a) _ List.mem_cons_self
  have hmode : (s.put (MOT_AX_CFG_MODE a) 1).get (MOT_AX_CFG_MODE a) = 1 := (State.get_put_same _ _ _ rfl).trans rfl
  have haxes : (s.put (MOT_AX_CFG_MODE a) 1).axes = s.axes := State.put_axes ..
  generalize s.put (MOT_AX_CFG_MODE a) 1 = y at *
  have hset : (y.updAxis a Axis.replanned).axes = s.axes.set a (s.axis a).replanned := by
    rw [State.updAxis_axes, haxes, State.axis_of_axes haxes]
  obtain ⟨haxis, halters⟩ := State.axisChanged_shows (honly.updAxis a _) (hkeeps.updAxis a _ fun _ hr => List.mem_cons_of_mem _ hr) hlen hset
  exact ⟨haxis, (State.get_trackIrq ..).trans (((Keeps.updAxis_self y a _).get _ (axisRegs_notMem_cfg a)).trans hmode), halters⟩

theorem State.axisMode_refused (h : s.axMode a 0 = true) (hstill : (s.axis a).still = false) {m : Fin 4} (hm : m = 2 ∨ m = 3) :
    s.axisMode a m = s.axCmdErr a := by
  obtain ⟨hon, hmode⟩ := State.axMode_on h
  unfold State.axisMode
  dsimp only
  rw [hmode]
  rcases hm with rfl | rfl
  · rw [if_neg (by decide), if_neg (by decide), if_neg (by simp [hon])]
    exact if_neg (by simp [hstill])
  · rw [if_neg (by decide), if_pos (by decide)]

end AxisCommands

/-- Settles O45: each clause is the one branch of its command that its premises leave. -/
theorem axisCommands : Obligations.AxisCommands := by
  unfold Obligations.AxisCommands
  refine ⟨?_, ?_, ?_, ?_, ?_, ?_, ?_, ?_, ?_, ?_, ?_⟩
  · intro s req a hreq hrun hlen hmode hroom htraj hnew
    have heff := (exec_push hreq hrun).trans (congrArg finish (State.axisPush_queues hmode hroom htraj hnew))
    obtain ⟨haxis, halters, hdepth⟩ := State.axisQueued_shows hlen
      (s.getS (MOT_AX_Q_TARGET_TARGET a), min (s.get (MOT_AX_Q_VEL_VEL a)) (s.get (MOT_AX_VMAX_VMAX a))) hroom
    exact ⟨_, heff, haxis, hdepth, halters⟩
  · intro s req a hreq hrun hmode
    exact nextCmdErr ((exec_push hreq hrun).trans (congrArg finish (State.axisPush_refused hmode)))
  · intro s req a hreq hrun hlen hexcess
    obtain ⟨honly, hkeeps, haxes, hmode, htarget, -⟩ := State.parkAxis_shows hexcess (s.axisDecel a (s.get (MOT_AX_DMAX_A a)))
    have heff : exec (.stop req a) s = finish (s.parkAxis a (s.axisDecel a (s.get (MOT_AX_DMAX_A a)))) := exec_stop hreq hrun
    have hstopped := State.axisStopped_shows honly hkeeps hlen haxes
    refine ⟨_, heff, hstopped.1, hstopped.2.1, hstopped.2.2.1, hstopped.2.2.2.1, (State.get_trackIrq ..).trans hmode, fun hv ha => ?_, hstopped.2.2.2.2⟩
    exact (State.get_trackIrq ..).trans (htarget.trans (State.endsAt_still hv ha))
  · intro s req a hreq hrun hlen hstill hmode hsrc
    have heff := (exec_setPos hreq hrun).trans (congrArg finish (State.axisSetPos_still hstill hmode))
    exact ⟨_, heff, State.axisPlaced_shows hlen hsrc⟩
  · intro s req a hreq hrun hstill
    exact nextCmdErr ((exec_setPos hreq hrun).trans (congrArg finish (State.axisSetPos_moving hstill)))
  · intro s req a hreq hrun hlen hon hroom
    have heff := (exec_gearPush hreq hrun).trans (congrArg finish (State.axisGearPush_queues hon hroom))
    obtain ⟨haxis, halters, hdepth⟩ := State.axisGeared_shows hlen (s.get (MOT_AX_GEAR_POS_P a), s.getS (MOT_AX_GEAR_RATIO_RATIO a)) hroom
    exact ⟨_, heff, haxis, hdepth, halters⟩
  · intro s req a v hreq hrun
    have heff := (exec_axisTarget hreq hrun v).trans (congrArg finish (s.axisTarget_marks a v.toInt))
    exact ⟨_, heff, (State.rget_replanMarked ..).trans (s.rget_putS_word _ v), Alters.replanMarked s (MOT_AX_TARGET_TARGET a) _ a _ _⟩
  · intro s req a m hreq hrun hoff hm
    rcases State.axisMode_off hoff hm with ⟨heff, hmode⟩ | heff
    · exact ⟨_, (exec_axisMode hreq hrun m).trans (congrArg finish heff), hmode, Silent.of_regsOnly (RegsOnly.refl s) (Keeps.refl s _)⟩
    · refine ⟨_, (exec_axisMode hreq hrun m).trans (congrArg finish heff), ?_, Silent.put s (MOT_AX_CFG_MODE a) m⟩
      exact (State.get_trackIrq ..).trans ((State.get_put_same _ _ _ rfl).trans (Nat.mod_eq_of_lt m.isLt))
  · intro s req a hreq hrun hlen hmode
    have heff := (exec_axisMode hreq hrun 1).trans (congrArg finish (State.axisMode_replans hmode))
    obtain ⟨haxis, hmode', halters⟩ := State.axisReplanned_shows (a := a) hlen
    exact ⟨_, heff, hmode', haxis, halters⟩
  · intro s req a m hreq hrun hmode hstill hm
    exact nextCmdErr ((exec_axisMode hreq hrun m).trans (congrArg finish (State.axisMode_refused hmode hstill hm)))
  · intro s req a w v hreq hrun
    have heff := (exec_axisLimit hreq hrun w v).trans (congrArg finish (s.axisLimitWrite_marks a w v.toNat))
    refine ⟨_, heff, ?_, ?_⟩
    · refine (State.get_eq_of_rget _ _ _ (State.rget_replanMarked ..)).trans ?_
      rw [State.get_put_same _ _ _ (limitFld_ok a w), limitFld_max]
    · have halters := Alters.replanMarked s (limitFld a w) v.toNat a
        (decide (s.axMode a 1 = true ∧ (s.axis a).traj.isSome = true ∧ (s.axis a).replan = .no)) .limit
      simpa only [decide_eq_true_eq] using halters

end Sys2Proof.Machine

namespace Sys2Proof.Machine

/-! ### Phases and the chopper (R375 to R377) -/

section Chopper
variable {s x : State} {a : Fin 16}

theorem Phase.endOn_longs (p : Phase) (now : Nat) : (p.endOn now).longs ≤ p.longs + 1 := by
  unfold Phase.endOn
  split
  · dsimp only
    split <;> omega
  · omega

/-- A new reference ends at most one on time. -/
theorem Phase.refer_longs (p : Phase) (code : Nat) (neg : Bool) (now : Nat) : (p.refer code neg now).longs ≤ p.longs + 1 := by
  have hend := p.endOn_longs now
  unfold Phase.refer
  split
  · exact hend
  · split
    · exact hend
    · exact Nat.le_succ _

theorem State.windingCheck_ok (hA : (s.axis a).phA.longs < 16) (hB : (s.axis a).phB.longs < 16) : s.windingCheck a = s := if_neg (by omega)

theorem State.setAxis_self (hlen : s.axes.length = 16) : s.setAxis a (s.axis a) = s := by
  have hlt : a.val < s.axes.length := hlen.symm ▸ a.isLt
  rw [State.setAxis, State.axis, List.getD_eq_getElem _ _ hlt, List.set_getElem_self]

theorem State.setAxis_setAxis (s : State) (b : Nat) (y z : Axis) : (s.setAxis b y).setAxis b z = s.setAxis b z := by
  simp only [State.setAxis, List.set_set]

/-- An on time that ends. -/
def Phase.ended (p : Phase) (t0 now : Nat) : Phase := { p with chop := .offTime now, longs := if 100000 < now - t0 then p.longs + 1 else 0 }

theorem Phase.ended_longs (p : Phase) (t0 now : Nat) : (p.ended t0 now).longs ≤ p.longs + 1 := by
  unfold Phase.ended
  dsimp only
  split <;> omega

theorem Phase.trip_after {p : Phase} {t0 now blank : Nat} (hchop : p.chop = .onTime t0) (hblank : t0 + blank ≤ now) : p.trip now blank = p.ended t0 now := by
  unfold Phase.trip
  rw [hchop]
  dsimp only
  rw [if_neg (Nat.not_lt.mpr hblank), Phase.endOn, hchop]
  rfl

theorem Phase.trip_blank {p : Phase} {t0 now blank : Nat} (hchop : p.chop = .onTime t0) (hblank : now < t0 + blank) : p.trip now blank = p := by
  unfold Phase.trip
  rw [hchop]
  exact if_pos hblank

theorem Phase.offEnd_starts {p : Phase} {t0 now : Nat} (hchop : p.chop = .offTime t0) : p.offEnd now = { p with chop := .onTime now } := by
  unfold Phase.offEnd
  rw [hchop]

/-- A command that changes one axis's record alone. -/
theorem nextSetAxis {c : Instr} {z : Axis} (hlen : s.axes.length = 16) (h : exec c s = finish (s.setAxis a z)) :
    ∃ t, exec c s = .next t ∧ t.axis a = z ∧ Alters s t { s with axes := s.axes.set a (t.axis a) } [] := by
  obtain ⟨haxis, halters⟩ := State.axisChanged_shows ((AxesOnly.refl s).setAxis a z) (Keeps.setAxis (Keeps.refl s []) a z) hlen (s.setAxis_axes a z)
  exact ⟨_, h, haxis, halters⟩

end Chopper

/-! ### A planner tick (R380 to R384, R392) -/

section Tick
variable {s x : State} {a : Fin 16} {z : Axis}

theorem foldl_fixed_of_mem {α β : Type} {f : α → β → α} {u : α} : ∀ {l : List β}, (∀ b ∈ l, f u b = u) → l.foldl f u = u
  | [], _ => rfl
  | b :: l, h => by
    rw [List.foldl_cons, h b List.mem_cons_self]
    exact foldl_fixed_of_mem fun c hc => h c (List.mem_cons_of_mem _ hc)

theorem State.axisTick_idle {b : Fin 16} (h : s.driven b = false) : s.axisTick b = s := if_pos (by simp [h])

theorem axisRegs_others (a : Fin 16) : ∀ b : Fin 16, b ≠ a → MOT_AX_STATUS b ∉ axisRegs a := by revert a; decide

theorem axisRegs_notMem_web (a : Fin 16) : MOT_WEB_STATUS ∉ axisRegs a := by revert a; decide

theorem State.driven_of_keeps {b : Fin 16} (hk : Keeps s x (axisRegs a)) (hb : b ≠ a) : x.driven b = s.driven b := by
  have hust : x.ust (.axis b) = s.ust (.axis b) := State.ust_of_rget s x (.axis b) nofun (hk _ (axisRegs_others a b hb))
  rw [State.driven, hust, ← State.driven]

/-- Where one axis is driven and the web axis is OFF, a tick is that axis's. -/
theorem exec_plannerTick (hother : ∀ b : Fin 16, b ≠ a → s.driven b = false) (hweb : s.ust .web = .off) (hx : s.axisTick a = x)
    (hk : Keeps s x (axisRegs a)) : exec .plannerTick s = finish x := by
  obtain ⟨l, r, hsplit⟩ := List.append_of_mem (List.mem_finRange a)
  have hnodup := List.nodup_finRange 16
  rw [hsplit, List.nodup_append] at hnodup
  obtain ⟨-, hright, hdisjoint⟩ := hnodup
  have hbefore : l.foldl (fun s b => s.axisTick b) s = s := foldl_fixed_of_mem fun b hb =>
    State.axisTick_idle (hother b fun h => hdisjoint b hb a List.mem_cons_self h)
  have hafter : r.foldl (fun s b => s.axisTick b) x = x := foldl_fixed_of_mem fun b hb =>
    have hne : b ≠ a := fun h => (List.nodup_cons.mp hright).1 (h ▸ hb)
    State.axisTick_idle ((State.driven_of_keeps hk hne).trans (hother b hne))
  have hticks : (List.finRange 16).foldl (fun s b => s.axisTick b) s = x := by
    rw [hsplit, List.foldl_append, hbefore, List.foldl_cons, hx, hafter]
  have hoff : x.ust .web = .off := (State.ust_of_rget s x .web nofun (hk _ (axisRegs_notMem_web a))).trans hweb
  have hwebTick : x.webTick = x := if_pos (.inr (by simp [hoff]))
  exact (congrArg (fun y : State => finish y.webTick) hticks).trans (congrArg finish hwebTick)

theorem State.encBad_none (henc : s.get (MOT_AX_CFG_ENC_SRC a) = 0) : s.encBad a = false := by
  unfold State.encBad
  rw [henc]
  rfl

theorem State.stallCheck_none (henc : s.get (MOT_AX_CFG_ENC_SRC a) = 0) : s.stallCheck a = s := if_pos (.inl henc)

/-- An axis after a tick: moved and shown, with new phase references. -/
def State.axisMoved (s : State) (a : Nat) (z : Axis) (pA pB : Phase) : State := ((s.setAxis a z).showAxis a).setAxis a { z with phA := pA, phB := pB }

theorem State.axisTick_moved (hlen : s.axes.length = 16) (hdriven : s.driven a = true) (henc : s.get (MOT_AX_CFG_ENC_SRC a) = 0)
    (hlim : ¬(s.limActive a true = true ∧ s.limActive a false = true)) (hA : z.phA.longs < 15) (hB : z.phB.longs < 15)
    (hmove : s.moveTick a = s.setAxis a z) : ∃ pA pB, s.axisTick a = s.axisMoved a z pA pB := by
  have hstall : (s.setAxis a z).stallCheck a = s.setAxis a z := State.stallCheck_none henc
  have hshown : ((s.setAxis a z).showAxis a).axis a = z := (State.axis_of_axes (State.showAxis_axes _ a) a).trans (State.axis_setAxis_same hlen z)
  have hlen' : ((s.setAxis a z).showAxis a).axes.length = 16 := by rw [State.showAxis_axes, State.setAxis_axes, List.length_set, hlen]
  have hdriven' : ((s.setAxis a z).showAxis a).driven a = true := by
    have hstate : ((s.setAxis a z).showAxis a).get (MOT_AX_STATUS_STATE a) = s.get (MOT_AX_STATUS_STATE a) := State.showAxis_get _ a rfl rfl rfl rfl
    have hust : ((s.setAxis a z).showAxis a).ust (.axis a) = s.ust (.axis a) := congrArg UState.ofCode hstate
    rwa [State.driven, hust, ← State.driven]
  have hticks : s.axisTick a = (((s.setAxis a z).showAxis a).phaseRefs a).windingCheck a := by
    unfold State.axisTick
    rw [if_neg (by simp [hdriven]), if_neg (by simp [State.encBad_none henc]), if_neg hlim, hmove, hstall]
    exact if_pos hdriven'
  unfold State.axisMoved
  generalize (s.setAxis a z).showAxis a = y at *
  obtain ⟨pA, pB, hrefs, hlongA, hlongB⟩ : ∃ pA pB, y.phaseRefs a = y.setAxis a { y.axis a with phA := pA, phB := pB } ∧
      pA.longs ≤ (y.axis a).phA.longs + 1 ∧ pB.longs ≤ (y.axis a).phB.longs + 1 :=
    ⟨_, _, rfl, Phase.refer_longs _ _ _ _, Phase.refer_longs _ _ _ _⟩
  rw [hshown] at hrefs hlongA hlongB
  have haxis : (y.setAxis a { z with phA := pA, phB := pB }).axis a = { z with phA := pA, phB := pB } := State.axis_setAxis_same hlen' _
  refine ⟨pA, pB, hticks.trans ?_⟩
  rw [hrefs]
  exact State.windingCheck_ok (by rw [haxis]; exact Nat.lt_of_le_of_lt hlongA (by omega)) (by rw [haxis]; exact Nat.lt_of_le_of_lt hlongB (by omega))

theorem State.get_setAxis (s : State) (b : Nat) (y : Axis) (g : Fld) : (s.setAxis b y).get g = s.get g := rfl

theorem State.axisMoved_shows (hlen : s.axes.length = 16) (z : Axis) (pA pB : Phase) :
    let y := s.axisMoved a z pA pB
    AxesOnly s y ∧ Keeps s y (axisRegs a) ∧ y.axes = s.axes.set a { z with phA := pA, phB := pB } ∧ y.get (MOT_AX_POS_POS a) = twos 32 z.pos := by
  have hset : ((s.setAxis a z).showAxis a).axes = s.axes.set a z := by rw [State.showAxis_axes, State.setAxis_axes]
  have hpos : ((s.setAxis a z).showAxis a).get (MOT_AX_POS_POS a) = twos 32 z.pos := by rw [State.showAxis_pos, State.axis_setAxis_same hlen]
  have honly : AxesOnly s ((s.setAxis a z).showAxis a) := ((AxesOnly.refl s).setAxis a z).showAxis a
  have hkeeps : Keeps s ((s.setAxis a z).showAxis a) (axisRegs a) := (Keeps.setAxis (Keeps.refl s _) a z).showAxis a fun _ hr => hr
  unfold State.axisMoved
  exact ⟨honly.setAxis a _, hkeeps.setAxis a _, by rw [State.setAxis_axes, hset, List.set_set], (State.get_setAxis ..).trans hpos⟩

/-- What a command that moves the axis so shows. -/
theorem nextMoved {c : Instr} {pA pB : Phase} (h : AxesOnly s x) (hk : Keeps s x (axisRegs a)) (hlen : s.axes.length = 16)
    (hx : x.axes = s.axes.set a { z with phA := pA, phB := pB }) (hpos : x.get (MOT_AX_POS_POS a) = twos 32 z.pos) (hexec : exec c s = finish x) :
    ∃ t, exec c s = .next t ∧ (∃ pA pB, t.axis a = { z with phA := pA, phB := pB }) ∧ t.get (MOT_AX_POS_POS a) = twos 32 z.pos ∧
      Alters s t { s with axes := s.axes.set a (t.axis a) } (axisRegs a) := by
  obtain ⟨haxis, halters⟩ := State.axisChanged_shows h hk hlen hx
  exact ⟨_, hexec, ⟨pA, pB, haxis⟩, (State.get_trackIrq ..).trans hpos, halters⟩

/-- A tick of the one axis driven. -/
theorem plannerTick_moves (hlen : s.axes.length = 16) (hother : ∀ b : Fin 16, b ≠ a → s.driven b = false) (hdriven : s.driven a = true)
    (henc : s.get (MOT_AX_CFG_ENC_SRC a) = 0) (hlim : ¬(s.limActive a true = true ∧ s.limActive a false = true)) (hA : z.phA.longs < 15)
    (hB : z.phB.longs < 15) (hweb : s.ust .web = .off) (hmove : s.moveTick a = s.setAxis a z) :
    ∃ t, exec .plannerTick s = .next t ∧ (∃ pA pB, t.axis a = { z with phA := pA, phB := pB }) ∧ t.get (MOT_AX_POS_POS a) = twos 32 z.pos ∧
      Alters s t { s with axes := s.axes.set a (t.axis a) } (axisRegs a) := by
  obtain ⟨pA, pB, htick⟩ := State.axisTick_moved hlen hdriven henc hlim hA hB hmove
  obtain ⟨honly, hkeeps, haxes, hpos⟩ := State.axisMoved_shows (a := a) hlen z pA pB
  exact nextMoved honly hkeeps hlen haxes hpos (exec_plannerTick hother hweb htick hkeeps)

end Tick

end Sys2Proof.Machine

namespace Sys2Proof.Machine

/-! ### What one tick does to an axis (R380 to R383, R392) -/

section MoveTick
variable {s : State} {a : Fin 16} {tr : Traj}

theorem State.driven_of_axMode {m : Nat} (h : s.axMode a m = true) : s.driven a = true := by
  rw [State.driven, (State.axMode_on h).1]
  rfl

/-- An axis moved along its profile by one tick; a move of a queue that has ended leaves it. -/
def Axis.ticked (x : Axis) (tr : Traj) (queued : Bool) (now : Nat) : Axis :=
  { x with
    mot := (tr.tick x.mot).2
    traj := (tr.tick x.mot).1
    moves := if (tr.tick x.mot).1.isNone && queued then x.moves.drop 1 else x.moves
    stillAt := if (tr.tick x.mot).1.isNone && decide ((tr.tick x.mot).2.v = 0) then some now else x.stillAt }

theorem State.planDue_none (h : (s.axis a).replan = .no) : s.planDue a = s := if_pos h

/-- In re-plan mode an axis without a new plan goes on along its profile. -/
theorem State.moveTick_follows (hmode : s.axMode a 1 = true) (hreplan : (s.axis a).replan = .no) (htraj : (s.axis a).traj = some tr) :
    s.moveTick a = s.setAxis a ((s.axis a).ticked tr false s.now) := by
  obtain ⟨hon, hone⟩ := State.axMode_on hmode
  have hdue : (if (s.ust (.axis a) == .on && s.get (MOT_AX_CFG_MODE a) == 1) = true then s.planDue a else s) = s := by
    rw [State.planDue_none hreplan, ite_self]
  have hqueued : (s.ust (.axis a) == .on && s.get (MOT_AX_CFG_MODE a) == 0) = false := by simp [hone]
  unfold State.moveTick
  dsimp only
  rw [hdue, if_neg (by simp [htraj]), htraj]
  dsimp only
  rw [hqueued]
  rfl

/-- A target is not limited while no limit input is active. -/
theorem State.clipTarget_free (hpos : s.limActive a true = false) (hneg : s.limActive a false = false) (t : Int) : s.clipTarget a t = t :=
  if_neg (by simp [hpos, hneg])

theorem jointSpeed_last (l : Lim) (p : Int) (m : Int × Nat) : jointSpeed l p m [] = 0 := if_neg fun h => h.2 h.1

/-- The limits of a move from those of its start. -/
def moveLim (v : Nat) (lim : Nat × Nat × Nat) : Lim :=
  { v := v * 2 ^ 32, acc := max 1 lim.1 * 2 ^ 32, dec := max 1 lim.2.1 * 2 ^ 32, j := max 1 lim.2.2 * 2 ^ 32 }

/-- The last move of a queue is planned to standstill at its target. -/
theorem State.planMove_last {m : Int × Nat} (hmoves : (s.axis a).moves = [m]) (hpos : s.limActive a true = false) (hneg : s.limActive a false = false) :
    s.planMove a = s.setAxis a { s.axis a with traj := some (planTo (moveLim m.2 (s.axis a).lim) (s.axis a).mot (fx m.1) 0) } := by
  unfold State.planMove
  dsimp only
  rw [hmoves]
  dsimp only
  rw [State.clipTarget_free hpos hneg, List.map_nil, jointSpeed_last]
  rfl

/-- The limits in force when a move starts. -/
def State.limitsNow (s : State) (a : Nat) : Nat × Nat × Nat := (s.get (MOT_AX_AMAX_A a), s.get (MOT_AX_DMAX_A a), s.get (MOT_AX_JMAX_J a) * 256)

/-- An axis with the limits of its move. -/
def Axis.limited (x : Axis) (lim : Nat × Nat × Nat) : Axis := { x with lim := lim }

/-- An axis with a profile. -/
def Axis.planned (x : Axis) (tr : Traj) : Axis := { x with traj := some tr }

/-- The profile of the move that an axis starts with the limits of the moment. -/
def State.startTraj (s : State) (a : Nat) (m : Int × Nat) : Traj := planTo (moveLim m.2 (s.limitsNow a)) (s.axis a).mot (fx m.1) 0

theorem State.limActive_setAxis (hlen : s.axes.length = 16) {z : Axis} (hpos : z.posLevel = (s.axis a).posLevel) (hneg : z.negLevel = (s.axis a).negLevel)
    (b : Bool) : (s.setAxis a z).limActive a b = s.limActive a b := by
  have haxis : (s.setAxis a z).axis a = z := State.axis_setAxis_same hlen z
  unfold State.limActive
  rw [haxis, hpos, hneg]
  rfl

theorem State.startMove_plans {m : Int × Nat} (hlen : s.axes.length = 16) (hmoves : (s.axis a).moves = [m]) (hpos : s.limActive a true = false)
    (hneg : s.limActive a false = false) : (s.setAxis a ((s.axis a).limited (s.limitsNow a))).planMove a =
      s.setAxis a (((s.axis a).limited (s.limitsNow a)).planned (s.startTraj a m)) := by
  have hlim : (s.setAxis a ((s.axis a).limited (s.limitsNow a))).axis a = (s.axis a).limited (s.limitsNow a) := State.axis_setAxis_same hlen _
  have hfree : ∀ b, (s.setAxis a ((s.axis a).limited (s.limitsNow a))).limActive a b = s.limActive a b := State.limActive_setAxis hlen rfl rfl
  rw [State.planMove_last (by rw [hlim]; exact hmoves) (by rw [hfree, hpos]) (by rw [hfree, hneg]), State.setAxis_setAxis, hlim]
  rfl

/-- In queue mode a standing axis starts the one move of its queue. -/
theorem State.moveTick_starts {m : Int × Nat} (hlen : s.axes.length = 16) (hmode : s.axMode a 0 = true) (htraj : (s.axis a).traj = none)
    (hmoves : (s.axis a).moves = [m]) (hpos : s.limActive a true = false) (hneg : s.limActive a false = false) :
    s.moveTick a = s.setAxis a ((((s.axis a).limited (s.limitsNow a)).planned (s.startTraj a m)).ticked (s.startTraj a m) true s.now) := by
  obtain ⟨hon, hzero⟩ := State.axMode_on hmode
  have hplans := State.startMove_plans hlen hmoves hpos hneg
  generalize hz : ((s.axis a).limited (s.limitsNow a)).planned (s.startTraj a m) = z at hplans ⊢
  have hztraj : z.traj = some (s.startTraj a m) := by rw [← hz]; rfl
  have hqueued : ((s.ust (.axis a) == .on) && (s.setAxis a z).get (MOT_AX_CFG_MODE a) == 0) = true := by
    rw [State.get_setAxis, hon, hzero]
    rfl
  unfold State.moveTick
  extract_lets +onlyGivenNames on s0 x0 s1 x
  have hs0 : s0 = s := if_neg (by simp [hzero])
  have hs1 : s1 = s.setAxis a z := by
    unfold s1 x0
    rw [hs0]
    exact (if_pos ⟨by simp [on, hon], hzero, htraj, by simp [hmoves]⟩).trans hplans
  have hx : x = z := by
    unfold x
    rw [hs1]
    exact State.axis_setAxis_same hlen z
  rw [hx, hs1, hztraj]
  dsimp only
  unfold on
  rw [hqueued, State.setAxis_setAxis]
  rfl

/-- An axis moved by the gear rule. -/
def Axis.geared (x : Axis) (p v m : Int) : Axis := { x with mot := { p := p, v := v, a := 0 }, mLast := m }

/-- An axis with the time of its standstill. -/
def Axis.stoppedAt (x : Axis) (stop : Option Nat) : Axis := { x with stillAt := stop }

/-- The position of the gear rule, and its speed. -/
def State.gearPos (s : State) (a : Nat) : Int :=
  fx ((s.axis a).ofs + roundAway (s.getS (MOT_AX_GEAR_NOW_RATIO a) * (s.masterPos a - (s.axis a).mRef)) 4294967296)
def State.gearVel (s : State) (a : Nat) : Int := s.getS (MOT_AX_GEAR_NOW_RATIO a) * (s.masterPos a - (s.axis a).mLast) * 500000

theorem State.gearChange_none (hgears : (s.axis a).gears = []) (m : Int) : ∀ n, s.gearChange a m n = s
  | 0 => rfl
  | n + 1 => by
    unfold State.gearChange
    dsimp only
    rw [hgears]

/-- Without a gear change or a limit, and within VMAX, a follower moves by the gear rule. -/
theorem State.gearTick_follows (hlen : s.axes.length = 16) (hgears : (s.axis a).gears = []) (hexcess : (s.axis a).excess = none)
    (hpos : s.limActive a true = false) (hneg : s.limActive a false = false) (hspeed : (s.gearVel a).natAbs ≤ s.get (MOT_AX_VMAX_VMAX a) * 2 ^ 32) :
    s.gearTick a = s.setAxis a ((s.axis a).geared (s.gearPos a) (s.gearVel a) (s.masterPos a)) := by
  have hset : (s.setAxis a ((s.axis a).geared (s.gearPos a) (s.gearVel a) (s.masterPos a))).axis a = _ := State.axis_setAxis_same hlen _
  unfold State.gearTick
  extract_lets +onlyGivenNames m s1 x r p v sp s2
  have hs1 : s1 = s := State.gearChange_none hgears m 8
  have hp : p = s.gearPos a := by
    unfold p x r
    rw [hs1]
    exact State.clipTarget_free hpos hneg _
  have hv : v = s.gearVel a := by
    unfold v x r
    rw [hs1]
    exact if_neg (by simp [hpos, hneg])
  have hs2 : s2 = s.setAxis a ((s.axis a).geared (s.gearPos a) (s.gearVel a) (s.masterPos a)) := by
    unfold s2 x
    rw [hs1, hp, hv]
    rfl
  rw [hv, hs2, hs1, if_neg (Nat.not_lt.mpr hspeed)]
  exact State.closeOver_none (by rw [hset]; exact hexcess)

/-- In gear mode an axis without a profile follows its master; when it comes to a stop the time is noted. -/
theorem State.moveTick_gears (hlen : s.axes.length = 16) (hmode : s.axMode a 2 = true) (htraj : (s.axis a).traj = none)
    (hgears : (s.axis a).gears = []) (hexcess : (s.axis a).excess = none) (hpos : s.limActive a true = false) (hneg : s.limActive a false = false)
    (hspeed : (s.gearVel a).natAbs ≤ s.get (MOT_AX_VMAX_VMAX a) * 2 ^ 32) :
    ∃ stop, s.moveTick a = s.setAxis a (((s.axis a).geared (s.gearPos a) (s.gearVel a) (s.masterPos a)).stoppedAt stop) := by
  obtain ⟨hon, htwo⟩ := State.axMode_on hmode
  have hgear := State.gearTick_follows hlen hgears hexcess hpos hneg hspeed
  generalize hz : (s.axis a).geared (s.gearPos a) (s.gearVel a) (s.masterPos a) = z at hgear ⊢
  have haxis : (s.setAxis a z).axis a = z := State.axis_setAxis_same hlen z
  unfold State.moveTick
  extract_lets +onlyGivenNames on s0 x0 s1 x
  have hs0 : s0 = s := if_neg (by simp [htwo])
  have hs1 : s1 = s := by
    unfold s1
    rw [hs0]
    exact if_neg (by simp [htwo])
  have hx : x = s.axis a := by
    unfold x
    rw [hs1]
  rw [hx, hs1, htraj]
  dsimp only
  rw [if_pos ⟨by simp [on, hon], htwo⟩, hgear, haxis]
  split
  · exact ⟨_, State.setAxis_setAxis ..⟩
  · exact ⟨z.stillAt, rfl⟩

end MoveTick

end Sys2Proof.Machine

namespace Sys2Proof.Machine

/-! ### Limit inputs (R386, R387) -/

section Limits
variable {s x y : State} {a : Fin 16} {z : Axis}

/-- The levels of the limit inputs, shown. -/
def State.levelsShown (s : State) (a : Nat) : State :=
  (s.putB (MOT_AX_STATUS_LIM_NEG a) (s.axis a).negLevel).putB (MOT_AX_STATUS_LIM_POS a) (s.axis a).posLevel

/-- An axis with one level of its limit inputs. -/
def Axis.atLimit (x : Axis) (positive level : Bool) : Axis := if positive then { x with posLevel := level } else { x with negLevel := level }

theorem limitRegs_apart (a : Fin 16) : MOT_AX_LIM a ≠ MOT_AX_STATUS a ∧ MOT_AX_LIM_DMAX a ∉ [MOT_AX_STATUS a] := by
  revert a; decide

theorem Keeps.levelsShown (s : State) (a : Nat) : Keeps s (s.levelsShown a) [MOT_AX_STATUS a] :=
  ((Keeps.refl s _).putB (MOT_AX_STATUS_LIM_NEG a) _ List.mem_cons_self).putB (MOT_AX_STATUS_LIM_POS a) _ List.mem_cons_self

theorem State.levelsShown_axes (s : State) (a : Nat) : (s.levelsShown a).axes = s.axes := by rw [State.levelsShown, State.putB_axes, State.putB_axes]

/-- Whether a limit input is active follows from its settings and its level. -/
theorem State.limActive_congr {b : Bool} (hreg : x.rget (MOT_AX_LIM a) = s.rget (MOT_AX_LIM a))
    (hlevel : (if b then (x.axis a).posLevel else (x.axis a).negLevel) = if b then (s.axis a).posLevel else (s.axis a).negLevel) :
    x.limActive a b = s.limActive a b := by
  have hon : ∀ g : Fld, g.off = MOT_AX_LIM a → x.on g = s.on g := fun g hg => State.on_eq_of_get _ _ _ (State.get_eq_of_rget _ _ _ (by rw [hg, hreg]))
  cases b with
  | true => exact congrArg₂ (· && ·) (hon _ rfl) (congrArg₂ (· == ·) hlevel (hon _ rfl))
  | false => exact congrArg₂ (· && ·) (hon _ rfl) (congrArg₂ (· == ·) hlevel (hon _ rfl))

/-- The event of a limit stop, with its cause and its count. -/
def State.limitReported (s : State) (a : Fin 16) (positive hard : Bool) : State :=
  ((s.event Ev.LIMIT_STOP a [b2n positive, b2n hard, s.get (MOT_AX_TARGET_TARGET a)]).cause MOT_IRQ_CAUSE_LIMIT_STOP).addSat
    (MOT_AX_LIMIT_COUNT_COUNT a) 1

/-- A limit input in the direction of motion decelerates the axis. -/
theorem State.limitHit_soft {positive : Bool} (hboth : ¬(s.limActive a true = true ∧ s.limActive a false = true))
    (htowards : (if positive then decide (0 < (s.axis a).mot.v) else decide ((s.axis a).mot.v < 0)) = true)
    (hhard : (if positive then s.on (MOT_AX_LIM_POS_HARD a) else s.on (MOT_AX_LIM_NEG_HARD a)) = false) :
    s.limitHit a positive = ((s.putB (MOT_AX_STATUS_LIM_HIT a) true).parkAxis a
      ((s.putB (MOT_AX_STATUS_LIM_HIT a) true).axisDecel a (s.get (MOT_AX_LIM_DMAX_A a)))).limitReported a positive false := by
  unfold State.limitHit
  dsimp only
  rw [if_neg (fun h => hboth ⟨h.1, h.2.1⟩), htowards, if_pos rfl, hhard]
  rfl

/-- An axis stopped at once. -/
def Axis.halted (x : Axis) : Axis := { x with mot := { x.mot with v := 0, a := 0 }, traj := none, stillAt := none }

/-- A hard limit input in the direction of motion stops the axis at once. -/
theorem State.limitHit_hard {positive : Bool} (hboth : ¬(s.limActive a true = true ∧ s.limActive a false = true))
    (htowards : (if positive then decide (0 < (s.axis a).mot.v) else decide ((s.axis a).mot.v < 0)) = true)
    (hhard : (if positive then s.on (MOT_AX_LIM_POS_HARD a) else s.on (MOT_AX_LIM_NEG_HARD a)) = true) :
    s.limitHit a positive = (((s.putB (MOT_AX_STATUS_LIM_HIT a) true).updAxis a Axis.halted).parkAxis a none).limitReported a positive true := by
  unfold State.limitHit
  dsimp only
  rw [if_neg (fun h => hboth ⟨h.1, h.2.1⟩), htowards, if_pos rfl, hhard]
  rfl

theorem State.limitsChanged_positive {old : State} (hneg : (s.levelsShown a).limActive a false = false) (hpos : (s.levelsShown a).limActive a true = true)
    (hold : old.limActive a true = false) : State.limitsChanged old s a = (s.levelsShown a).limitHit a true := by
  unfold State.limitsChanged
  extract_lets +onlyGivenNames s0 s1
  have hs1 : s1 = s.levelsShown a := if_neg (by rw [show s0 = s.levelsShown a from rfl, hneg]; simp)
  rw [hs1, hpos, hold]
  rfl

theorem State.limitsChanged_negative {old : State} (hneg : (s.levelsShown a).limActive a false = true) (hold : old.limActive a false = false)
    (hpos : ((s.levelsShown a).limitHit a false).limActive a true = false) :
    State.limitsChanged old s a = (s.levelsShown a).limitHit a false := by
  unfold State.limitsChanged
  extract_lets +onlyGivenNames s0 s1
  have hs1 : s1 = (s.levelsShown a).limitHit a false := if_pos (by rw [show s0 = s.levelsShown a from rfl, hneg, hold]; rfl)
  rw [hs1, hpos]
  exact if_neg (by simp)

theorem axisDecel_congr {dec : Nat} (hlim : x.axisLim a = s.axisLim a) (hmot : (x.axis a).mot = (s.axis a).mot) : x.axisDecel a dec = s.axisDecel a dec := by
  unfold State.axisDecel
  dsimp only
  rw [hlim, hmot]

theorem axisLimRegs_apart (a : Fin 16) : MOT_AX_VMAX a ∉ [MOT_AX_STATUS a] ∧ MOT_AX_AMAX a ∉ [MOT_AX_STATUS a] ∧ MOT_AX_DMAX a ∉ [MOT_AX_STATUS a] ∧
    MOT_AX_JMAX a ∉ [MOT_AX_STATUS a] := by revert a; decide

theorem State.axisLim_of_keeps (hk : Keeps s x [MOT_AX_STATUS a]) : x.axisLim a = s.axisLim a := by
  obtain ⟨hv, ha, hd, hj⟩ := axisLimRegs_apart a
  have hvmax : x.get (MOT_AX_VMAX_VMAX a) = s.get (MOT_AX_VMAX_VMAX a) := hk.get _ hv
  have hamax : x.get (MOT_AX_AMAX_A a) = s.get (MOT_AX_AMAX_A a) := hk.get _ ha
  have hdmax : x.get (MOT_AX_DMAX_A a) = s.get (MOT_AX_DMAX_A a) := hk.get _ hd
  have hjmax : x.get (MOT_AX_JMAX_J a) = s.get (MOT_AX_JMAX_J a) := hk.get _ hj
  unfold State.axisLim
  rw [hvmax, hamax, hdmax, hjmax]

/-- The registers that a limit stop writes. -/
def limitStopRegs (a : Nat) : List Nat := parkedRegs a ++ [MOT_AX_LIMIT_COUNT a, MOT_IRQ_CAUSE]

theorem limitCount_apart (a : Fin 16) : MOT_AX_LIMIT_COUNT a ≠ MOT_IRQ_CAUSE ∧ MOT_AX_LIMIT_COUNT a ∉ evtRegs ∧ MOT_AX_LIMIT_COUNT a ∉ parkedRegs a ∧
    RST_ISLAND 1 ∉ parkedRegs a ∧ MOT_AX_LIM a ∉ limitStopRegs a ++ evtRegs := by revert a; decide

theorem parkedRegs_unreported (a : Fin 16) : ∀ r ∈ parkedRegs a, MOT_IRQ_CAUSE ≠ r ∧ MOT_AX_LIMIT_COUNT a ≠ r ∧ r ∉ evtRegs := by revert a; decide

/-- What a limit stop shows and posts. -/
theorem State.limitStop_shows (h : AxesOnly s y) (hk : Keeps s y (parkedRegs a)) (hlen : s.axes.length = 16) (hy : y.axes = s.axes.set a z)
    (positive hard : Bool) :
    let t := (y.limitReported a positive hard).trackIrq
    t.axis a = z ∧ (∀ g : Fld, g.off ∈ parkedRegs a → t.get g = y.get g) ∧ t.on MOT_IRQ_CAUSE_LIMIT_STOP = true ∧
      t.get (MOT_AX_LIMIT_COUNT_COUNT a) = min (2 ^ 32 - 1) (s.get (MOT_AX_LIMIT_COUNT_COUNT a) + 1) ∧
      Posts s t Ev.LIMIT_STOP a [b2n positive, b2n hard, y.get (MOT_AX_TARGET_TARGET a)] ∧
      AltersPosting s t { s with axes := s.axes.set a (t.axis a) } (limitStopRegs a) := by
  obtain ⟨hcause, hcount, hnotMem, hisland, -⟩ := limitCount_apart a
  have hhif : y.hif = s.hif := by rw [h]
  have htime : y.time = s.time := by rw [h]
  have hhidden : (y.limitReported a positive hard).hidden = y.hidden :=
    (State.addSat_hidden _ _ _).trans ((State.cause_hidden _ _).trans (State.event_hidden _ _ _ _))
  have haxes : (y.limitReported a positive hard).axes = s.axes.set a z := ((congrArg State.axes hhidden).trans rfl).trans hy
  have haxis : (y.limitReported a positive hard).trackIrq.axis a = z := State.axis_set_same hlen haxes
  have hshown : ∀ g : Fld, MOT_AX_LIMIT_COUNT a ≠ g.off → MOT_IRQ_CAUSE ≠ g.off → g.off ∉ evtRegs →
      (y.limitReported a positive hard).get g = y.get g := fun g h1 h2 h3 =>
    (State.get_addSat_apart _ _ _ _ rfl (.inl h1)).trans (State.get_report _ _ _ _ rfl h2 h3)
  refine ⟨haxis, fun g hg => ?_, ?_, ?_, ?_, ?_, ?_⟩
  · obtain ⟨h1, h2, h3⟩ := parkedRegs_unreported a _ hg
    exact (State.get_trackIrq ..).trans (hshown g h2 h1 h3)
  · refine (State.on_trackIrq ..).trans ((State.on_eq_of_get _ _ _ (State.get_addSat_apart _ _ _ _ rfl (.inl hcause))).trans ?_)
    exact State.on_cause_same _ _ (by decide)
  · have hget : ((y.event Ev.LIMIT_STOP a [b2n positive, b2n hard, y.get (MOT_AX_TARGET_TARGET a)]).cause MOT_IRQ_CAUSE_LIMIT_STOP).get
        (MOT_AX_LIMIT_COUNT_COUNT a) = s.get (MOT_AX_LIMIT_COUNT_COUNT a) :=
      (State.get_report _ _ _ _ rfl hcause.symm hcount).trans (hk.get _ hnotMem)
    refine (State.get_trackIrq ..).trans ((State.get_addSat_same _ _ _ rfl).trans ?_)
    rw [hget]
    rfl
  · exact (((Posts.of_event s y _ _ _ hhif htime (hk _ hisland) (by decide)).cause _).addSat _ _).trackIrq
  · rw [haxis, State.trackIrq_hidden, hhidden, h.hidden, hy]
  · have hkeeps : Keeps s y (limitStopRegs a ++ evtRegs) := hk.mono fun r hr => List.mem_append_left _ (List.mem_append_left _ hr)
    exact ((hkeeps.event _ _ _ (evtRegs_sub_right _)).cause MOT_IRQ_CAUSE_LIMIT_STOP (by simp [limitStopRegs, MOT_IRQ_CAUSE_LIMIT_STOP])).addSat
      (MOT_AX_LIMIT_COUNT_COUNT a) _ (by simp [limitStopRegs, MOT_AX_LIMIT_COUNT_COUNT])

end Limits

end Sys2Proof.Machine

namespace Sys2Proof.Machine

/-! ### The two ways in which a limit input stops an axis (R386) -/

section LimitStop
variable {s w : State} {a : Fin 16} {z : Axis} {level : Bool}

/-- The axis's record after a change of level, its registers as the levels are shown. -/
theorem State.levelSeen_shows (hlen : s.axes.length = 16) (z : Axis) :
    let w := (s.setAxis a z).levelsShown a
    AxesOnly s w ∧ Keeps s w [MOT_AX_STATUS a] ∧ w.axes = s.axes.set a z ∧ w.axis a = z ∧ w.on (MOT_AX_STATUS_LIM_POS a) = z.posLevel := by
  have haxes : ((s.setAxis a z).levelsShown a).axes = s.axes.set a z := ((s.setAxis a z).levelsShown_axes a).trans (s.setAxis_axes a z)
  refine ⟨(((AxesOnly.refl s).setAxis a z).putB _ _).putB _ _, (Keeps.refl s _).trans (Keeps.levelsShown (s.setAxis a z) a), haxes,
    State.axis_set_same hlen haxes, ?_⟩
  refine (State.on_putB_same _ _ _ rfl).trans ?_
  rw [State.axis_setAxis_same hlen]

/-- A level as its register's polarity makes an enabled input active. -/
theorem State.limActive_of_level {positive : Bool} (haxis : w.axis a = (s.axis a).atLimit positive level)
    (hen : w.on (if positive then MOT_AX_LIM_POS_EN a else MOT_AX_LIM_NEG_EN a) = true)
    (hpol : level = w.on (if positive then MOT_AX_LIM_POS_POL a else MOT_AX_LIM_NEG_POL a)) : w.limActive a positive = true := by
  cases positive with
  | true =>
    refine (congrArg₂ (· && ·) hen (beq_iff_eq.mpr ?_)).trans (Bool.true_and _)
    rw [haxis]
    exact hpol
  | false =>
    refine (congrArg₂ (· && ·) hen (beq_iff_eq.mpr ?_)).trans (Bool.true_and _)
    rw [haxis]
    exact hpol

/-- The axis with LIM_HIT shown. -/
theorem State.limHit_shows (hlen : s.axes.length = 16) (h : AxesOnly s w) (hk : Keeps s w [MOT_AX_STATUS a]) (hw : w.axes = s.axes.set a z) :
    let v := w.putB (MOT_AX_STATUS_LIM_HIT a) true
    AxesOnly s v ∧ Keeps s v [MOT_AX_STATUS a] ∧ v.axes = s.axes.set a z ∧ v.axis a = z ∧ v.on (MOT_AX_STATUS_LIM_HIT a) = true ∧
      v.on (MOT_AX_STATUS_LIM_POS a) = w.on (MOT_AX_STATUS_LIM_POS a) := by
  have haxes : (w.putB (MOT_AX_STATUS_LIM_HIT a) true).axes = s.axes.set a z := (State.putB_axes ..).trans hw
  exact ⟨h.putB _ _, hk.putB (MOT_AX_STATUS_LIM_HIT a) _ List.mem_cons_self, haxes, State.axis_set_same hlen haxes, State.on_putB_same _ _ _ rfl,
    State.on_putB_bits _ _ _ _ rfl rfl⟩

theorem parkedRegs_status (a : Fin 16) : MOT_AX_STATUS a ∈ parkedRegs a ∧ MOT_AX_CFG a ∈ parkedRegs a ∧ MOT_AX_TARGET a ∈ parkedRegs a := by
  simp [parkedRegs]

/-- A deceleration by a limit input leaves LIM_HIT and the level shown. -/
theorem State.softStop_shows (hlen : s.axes.length = 16) (h : AxesOnly s w) (hk : Keeps s w [MOT_AX_STATUS a]) (hw : w.axes = s.axes.set a z)
    (haxis : w.axis a = z) (hexcess : z.excess = none) (tr : Option Traj) (positive hard : Bool) :
    let t := ((w.parkAxis a tr).limitReported a positive hard).trackIrq
    t.axis a = z.parked tr ∧ t.on (MOT_AX_STATUS_LIM_POS a) = w.on (MOT_AX_STATUS_LIM_POS a) ∧
      t.on (MOT_AX_STATUS_LIM_HIT a) = w.on (MOT_AX_STATUS_LIM_HIT a) ∧ t.get (MOT_AX_CFG_MODE a) = 1 ∧ t.on MOT_IRQ_CAUSE_LIMIT_STOP = true ∧
      t.get (MOT_AX_LIMIT_COUNT_COUNT a) = min (2 ^ 32 - 1) (s.get (MOT_AX_LIMIT_COUNT_COUNT a) + 1) ∧
      t.get (MOT_AX_TARGET_TARGET a) = twos 32 (z.endsAt tr) ∧
      Posts s t Ev.LIMIT_STOP a [b2n positive, b2n hard, t.get (MOT_AX_TARGET_TARGET a)] ∧
      AltersPosting s t { s with axes := s.axes.set a (t.axis a) } (limitStopRegs a) := by
  obtain ⟨hstatus, hcfg, htgt⟩ := parkedRegs_status a
  obtain ⟨honly, hkeeps, haxes, hmode, htarget, hshown⟩ := State.parkAxis_shows (s := w) (a := a) (by rw [haxis]; exact hexcess) tr
  rw [haxis] at haxes htarget
  have hk' : Keeps s (w.parkAxis a tr) (parkedRegs a) := (hk.mono (by simpa using hstatus)).trans hkeeps
  have hset : (w.parkAxis a tr).axes = s.axes.set a (z.parked tr) := by rw [haxes, hw, List.set_set]
  obtain ⟨haxis', hget, hcause, hcount, hposts, halters⟩ := State.limitStop_shows (h.trans honly) hk' hlen hset positive hard
  have hon : ∀ g : Fld, g.off = MOT_AX_STATUS a → (MOT_AX_STATUS_STANDSTILL a).bitsApart g = true → (MOT_AX_STATUS_QDEPTH a).bitsApart g = true →
      (MOT_AX_STATUS_GDEPTH a).bitsApart g = true → (((w.parkAxis a tr).limitReported a positive hard).trackIrq).on g = w.on g :=
    fun g hg h1 h2 h3 => State.on_eq_of_get _ _ _ ((hget g (by rw [hg]; exact hstatus)).trans (hshown g hg h1 h2 h3))
  have htgt' := hget (MOT_AX_TARGET_TARGET a) htgt
  exact ⟨haxis', hon _ rfl rfl rfl rfl, hon _ rfl rfl rfl rfl, (hget _ hcfg).trans hmode, hcause, hcount, htgt'.trans htarget,
    htgt'.symm ▸ hposts, halters⟩

/-- An axis that is stopped at once, with its queues dropped. -/
theorem State.hardStop_shows (hlen : s.axes.length = 16) (h : AxesOnly s w) (hk : Keeps s w [MOT_AX_STATUS a]) (hw : w.axes = s.axes.set a z)
    (haxis : w.axis a = z) (hexcess : z.excess = none) (positive : Bool) :
    let t := (((w.updAxis a Axis.halted).parkAxis a none).limitReported a positive true).trackIrq
    t.axis a = z.halted.parked none ∧ t.get (MOT_AX_TARGET_TARGET a) = twos 32 z.pos ∧
      Posts s t Ev.LIMIT_STOP a [b2n positive, 1, twos 32 z.pos] ∧ t.rget (MOT_AX_LIM a) = s.rget (MOT_AX_LIM a) := by
  have honly : AxesOnly s (w.updAxis a Axis.halted) := h.updAxis a _
  have hkeeps : Keeps s (w.updAxis a Axis.halted) (parkedRegs a) :=
    (hk.mono (by simpa using (parkedRegs_status a).1)).updAxis a _ (by simp [axisRegs, parkedRegs])
  have hset : (w.updAxis a Axis.halted).axes = s.axes.set a z.halted := by rw [State.updAxis_axes, haxis, hw, List.set_set]
  have haxis' : (w.updAxis a Axis.halted).axis a = z.halted := State.axis_set_same hlen hset
  generalize w.updAxis a Axis.halted = x at *
  obtain ⟨honly', hkeeps', haxes, -, htarget, -⟩ := State.parkAxis_shows (s := x) (a := a) (by rw [haxis']; exact hexcess) none
  rw [haxis'] at haxes htarget
  have htarget' : (x.parkAxis a none).get (MOT_AX_TARGET_TARGET a) = twos 32 z.pos := htarget
  have hset' : (x.parkAxis a none).axes = s.axes.set a (z.halted.parked none) := by rw [haxes, hset, List.set_set]
  obtain ⟨hax, hget, -, -, hposts, halters⟩ := State.limitStop_shows (honly.trans honly') (hkeeps.trans hkeeps') hlen hset' positive true
  rw [htarget'] at hposts
  exact ⟨hax, (hget _ (parkedRegs_status a).2.2).trans htarget', hposts, halters.2 _ (limitCount_apart a).2.2.2.2⟩

end LimitStop

end Sys2Proof.Machine

namespace Sys2Proof.Machine

/-! ### The comparator (R376, R377) -/

section Comparator
variable {s : State} {a : Fin 16} {t0 : Nat}

/-- After TBLANK the comparator ends the on time. -/
theorem exec_tripEnds (hlen : s.axes.length = 16) (hdriven : s.driven a = true) (hchop : (s.axis a).phA.chop = .onTime t0)
    (hblank : t0 + s.get (MOT_AX_CHOP_TBLANK a) * 250 ≤ s.now) (hA : (s.axis a).phA.longs < 15) (hB : (s.axis a).phB.longs < 16) :
    exec (.comparatorTrip a false) s = finish (s.setAxis a { s.axis a with phA := (s.axis a).phA.ended t0 s.now }) := by
  have hlongs := (s.axis a).phA.ended_longs t0 s.now
  have haxis := State.axis_setAxis_same (a := a) hlen { s.axis a with phA := (s.axis a).phA.ended t0 s.now }
  have htrip : s.setAxis a { s.axis a with phA := (s.axis a).phA.trip s.now (s.get (MOT_AX_CHOP_TBLANK a) * 250) } =
      s.setAxis a { s.axis a with phA := (s.axis a).phA.ended t0 s.now } := by rw [Phase.trip_after hchop hblank]
  refine congrArg finish ((if_pos hdriven).trans ((congrArg (fun x : State => x.windingCheck a) htrip).trans (State.windingCheck_ok ?_ ?_)))
  · rw [haxis]
    exact Nat.lt_of_le_of_lt hlongs (by omega)
  · rw [haxis]
    exact hB

/-- Before it the comparator does nothing. -/
theorem exec_tripBlanked (hlen : s.axes.length = 16) (hdriven : s.driven a = true) (hchop : (s.axis a).phB.chop = .onTime t0)
    (hblank : s.now < t0 + s.get (MOT_AX_CHOP_TBLANK a) * 250) (hA : (s.axis a).phA.longs < 16) (hB : (s.axis a).phB.longs < 16) :
    exec (.comparatorTrip a true) s = finish s := by
  have htrip : s.setAxis a { s.axis a with phB := (s.axis a).phB.trip s.now (s.get (MOT_AX_CHOP_TBLANK a) * 250) } = s := by
    rw [Phase.trip_blank hchop hblank]
    exact State.setAxis_self hlen
  exact congrArg finish ((if_pos hdriven).trans ((congrArg (fun x : State => x.windingCheck a) htrip).trans (State.windingCheck_ok hA hB)))

end Comparator

section LimitInput
variable {s : State} {a : Fin 16} {level : Bool}

/-- The state in which a changed level is shown, and LIM_HIT. -/
def State.levelIn (s : State) (a : Fin 16) (positive level : Bool) : State := (s.setAxis a ((s.axis a).atLimit positive level)).levelsShown a

theorem State.levelIn_shows (hlen : s.axes.length = 16) (positive level : Bool) :
    let w := s.levelIn a positive level
    AxesOnly s w ∧ Keeps s w [MOT_AX_STATUS a] ∧ w.axes = s.axes.set a ((s.axis a).atLimit positive level) ∧ w.axis a = (s.axis a).atLimit positive level ∧
      w.on (MOT_AX_STATUS_LIM_POS a) = ((s.axis a).atLimit positive level).posLevel := State.levelSeen_shows hlen _

theorem State.limActive_trackIrq (s : State) (b : Nat) (c : Bool) : s.trackIrq.limActive b c = s.limActive b c := rfl

theorem State.limActive_positive {x : State} (hreg : x.rget (MOT_AX_LIM a) = s.rget (MOT_AX_LIM a))
    (hlevel : (x.axis a).posLevel = (s.axis a).posLevel) : x.limActive a true = s.limActive a true := State.limActive_congr (b := true) hreg hlevel

theorem Axis.halted_posLevel (x : Axis) (tr : Option Traj) (level : Bool) : ((x.atLimit false level).halted.parked tr).posLevel = x.posLevel := rfl

theorem State.levelIn_settings (hlen : s.axes.length = 16) (positive level : Bool) {g : Fld} (hg : g.off = MOT_AX_LIM a) :
    (s.levelIn a positive level).on g = s.on g :=
  (State.levelIn_shows hlen _ _).2.1.on g (by rw [hg]; simpa using (limitRegs_apart a).1)

theorem State.levelIn_active (hlen : s.axes.length = 16) {positive : Bool} (hen : s.on (if positive then MOT_AX_LIM_POS_EN a else MOT_AX_LIM_NEG_EN a) = true)
    (hpol : level = s.on (if positive then MOT_AX_LIM_POS_POL a else MOT_AX_LIM_NEG_POL a)) : (s.levelIn a positive level).limActive a positive = true := by
  refine State.limActive_of_level (State.levelIn_shows hlen _ _).2.2.2.1 ?_ ?_
  · exact (State.levelIn_settings hlen positive level (by cases positive <;> rfl)).trans hen
  · exact hpol.trans (State.levelIn_settings hlen positive level (by cases positive <;> rfl)).symm

/-- The other limit input is as active as it was. -/
theorem State.levelIn_other (hlen : s.axes.length = 16) (positive level : Bool) :
    (s.levelIn a positive level).limActive a (!positive) = s.limActive a (!positive) := by
  obtain ⟨-, hk, -, haxis, -⟩ := State.levelIn_shows (s := s) (a := a) hlen positive level
  refine State.limActive_congr (hk _ (by simpa using (limitRegs_apart a).1)) ?_
  rw [haxis]
  cases positive <;> rfl

theorem Axis.atLimit_mot (x : Axis) (positive level : Bool) : (x.atLimit positive level).mot = x.mot := by cases positive <;> rfl

theorem Axis.atLimit_excess (x : Axis) (positive level : Bool) : (x.atLimit positive level).excess = x.excess := by cases positive <;> rfl

theorem State.levelIn_mot (hlen : s.axes.length = 16) (positive level : Bool) : ((s.levelIn a positive level).axis a).mot = (s.axis a).mot := by
  rw [(State.levelIn_shows hlen _ _).2.2.2.1, Axis.atLimit_mot]

/-- The positive input becomes active in the direction of motion, without HARD. -/
theorem exec_limitSoft (hlen : s.axes.length = 16) (hen : s.on (MOT_AX_LIM_POS_EN a) = true) (hpol : level = s.on (MOT_AX_LIM_POS_POL a))
    (hpos : s.limActive a true = false) (hneg : s.limActive a false = false) (hv : 0 < (s.axis a).mot.v) (hhard : s.on (MOT_AX_LIM_POS_HARD a) = false) :
    exec (.limitInputChange a true level) s = finish ((((s.levelIn a true level).putB (MOT_AX_STATUS_LIM_HIT a) true).parkAxis a
      (s.axisDecel a (s.get (MOT_AX_LIM_DMAX_A a)))).limitReported a true false) := by
  obtain ⟨honly, hk, haxes, haxis, -⟩ := State.levelIn_shows (s := s) (a := a) hlen true level
  have hnone := (State.levelIn_other (a := a) hlen true level).trans hneg
  have hdmax : (s.levelIn a true level).get (MOT_AX_LIM_DMAX_A a) = s.get (MOT_AX_LIM_DMAX_A a) := hk.get _ (limitRegs_apart a).2
  have hhit := State.limitHit_soft (s := s.levelIn a true level) (a := a) (positive := true) (fun h => absurd (hnone.symm.trans h.2) (by decide))
    (by simpa [State.levelIn_mot hlen] using hv) ((State.levelIn_settings hlen true level rfl).trans hhard)
  obtain ⟨-, hk', -, haxis', -, -⟩ := State.limHit_shows hlen honly hk haxes
  have hdecel : ((s.levelIn a true level).putB (MOT_AX_STATUS_LIM_HIT a) true).axisDecel a ((s.levelIn a true level).get (MOT_AX_LIM_DMAX_A a)) =
      s.axisDecel a (s.get (MOT_AX_LIM_DMAX_A a)) := by
    rw [hdmax]
    exact axisDecel_congr (State.axisLim_of_keeps hk') ((congrArg Axis.mot haxis').trans (Axis.atLimit_mot _ _ _))
  rw [hdecel] at hhit
  exact congrArg finish ((State.limitsChanged_positive hnone (State.levelIn_active hlen hen hpol) hpos).trans hhit)

/-- The negative input becomes active in the direction of motion, with HARD. -/
theorem exec_limitHard (hlen : s.axes.length = 16) (hen : s.on (MOT_AX_LIM_NEG_EN a) = true) (hpol : level = s.on (MOT_AX_LIM_NEG_POL a))
    (hpos : s.limActive a true = false) (hneg : s.limActive a false = false) (hv : (s.axis a).mot.v < 0) (hexcess : (s.axis a).excess = none)
    (hhard : s.on (MOT_AX_LIM_NEG_HARD a) = true) :
    exec (.limitInputChange a false level) s = finish (((((s.levelIn a false level).putB (MOT_AX_STATUS_LIM_HIT a) true).updAxis a Axis.halted).parkAxis a
      none).limitReported a false true) := by
  obtain ⟨honly, hk, haxes, haxis, -⟩ := State.levelIn_shows (s := s) (a := a) hlen false level
  have hnone := (State.levelIn_other (a := a) hlen false level).trans hpos
  have hhit := State.limitHit_hard (s := s.levelIn a false level) (a := a) (positive := false) (fun h => absurd (hnone.symm.trans h.1) (by decide))
    (by simpa [State.levelIn_mot hlen] using hv) ((State.levelIn_settings hlen false level rfl).trans hhard)
  obtain ⟨honly', hk', haxes', haxis', -, -⟩ := State.limHit_shows hlen honly hk haxes
  obtain ⟨hax, -, -, hlim⟩ := State.hardStop_shows hlen honly' hk' haxes' haxis' ((Axis.atLimit_excess _ _ _).trans hexcess) false
  have hstill : ((s.levelIn a false level).limitHit a false).limActive a true = false := by
    rw [hhit]
    exact (State.limActive_trackIrq ..).symm.trans ((State.limActive_positive hlim ((congrArg Axis.posLevel hax).trans (Axis.halted_posLevel _ _ _))).trans hpos)
  exact congrArg finish ((State.limitsChanged_negative (State.levelIn_active hlen hen hpol) hneg hstill).trans hhit)

end LimitInput

/-- Settles O46: the ticks by the one axis driven, whose `moveTick` is one change of its record; the limit stops by `parkAxis`. -/
theorem axisMotion : Obligations.AxisMotion := by
  unfold Obligations.AxisMotion
  refine ⟨?_, ?_, ?_, ?_, ?_, ?_, ?_, ?_⟩
  · intro s a tr hlen hother hmode henc hlim hreplan htraj hA hB hweb
    obtain ⟨t, hexec, ⟨pA, pB, haxis⟩, hpos, halters⟩ := plannerTick_moves hlen hother (State.driven_of_axMode hmode) henc
      (fun h => absurd (hlim.symm.trans h.1) (by decide)) (z := (s.axis a).ticked tr false s.now) hA hB hweb
      (State.moveTick_follows hmode hreplan htraj)
    exact ⟨t, hexec, congrArg Axis.mot haxis, congrArg Axis.traj haxis, hpos, halters⟩
  · intro s a m hlen hother hmode henc hlim hlim' htraj hmoves hA hB hweb
    obtain ⟨t, hexec, ⟨pA, pB, haxis⟩, -, halters⟩ := plannerTick_moves hlen hother (State.driven_of_axMode hmode) henc
      (fun h => absurd (hlim.symm.trans h.1) (by decide))
      (z := (((s.axis a).limited (s.limitsNow a)).planned (s.startTraj a m)).ticked (s.startTraj a m) true s.now) hA hB hweb
      (State.moveTick_starts hlen hmode htraj hmoves hlim hlim')
    exact ⟨t, hexec, congrArg Axis.lim haxis, congrArg Axis.mot haxis, halters⟩
  · intro s a hlen hother hmode henc hlim hlim' htraj hgears hexcess hspeed hA hB hweb
    obtain ⟨stop, hmove⟩ := State.moveTick_gears hlen hmode htraj hgears hexcess hlim hlim' hspeed
    obtain ⟨t, hexec, ⟨pA, pB, haxis⟩, -, halters⟩ := plannerTick_moves hlen hother (State.driven_of_axMode hmode) henc
      (fun h => absurd (hlim.symm.trans h.1) (by decide))
      (z := ((s.axis a).geared (s.gearPos a) (s.gearVel a) (s.masterPos a)).stoppedAt stop) hA hB hweb hmove
    exact ⟨t, hexec, congrArg Axis.mot haxis, congrArg Axis.mLast haxis, halters⟩
  · intro s a t0 hlen hdriven hchop hblank hA hB
    exact nextSetAxis hlen (exec_tripEnds hlen hdriven hchop hblank hA hB)
  · intro s a t0 hlen hdriven hchop hblank hA hB
    exact ⟨_, exec_tripBlanked hlen hdriven hchop hblank hA hB, Silent.refl s⟩
  · intro s a t0 hlen hdriven hchop
    exact nextSetAxis hlen (congrArg finish ((if_pos hdriven).trans (congrArg (fun p => s.setAxis a { s.axis a with phB := p }) (Phase.offEnd_starts hchop))))
  · intro s a level hlen hen hpol hpos hneg hv hexcess hhard
    have hexec := exec_limitSoft hlen hen hpol hpos hneg hv hhard
    obtain ⟨honly, hk, haxes, haxis, hshown⟩ := State.levelIn_shows (s := s) (a := a) hlen true level
    obtain ⟨honly', hk', haxes', haxis', hhit, hlevel⟩ := State.limHit_shows hlen honly hk haxes
    obtain ⟨hax, hon, hon', hmode, hcause, hcount, -, hposts, halters⟩ := State.softStop_shows hlen honly' hk' haxes' haxis' hexcess
      (s.axisDecel a (s.get (MOT_AX_LIM_DMAX_A a))) true false
    have hdecel : s.axisDecel a (s.get (MOT_AX_LIM_DMAX_A a)) = some _ := if_neg (fun h => absurd h.1 (by omega))
    exact ⟨_, hexec, hon.trans (hlevel.trans hshown), hon'.trans hhit, ((congrArg Axis.traj hax).trans rfl).trans hdecel, congrArg Axis.moves hax, hmode, hcause, hcount,
      hposts, halters⟩
  · intro s a level hlen hen hpol hpos hneg hv hexcess hhard
    have hexec := exec_limitHard hlen hen hpol hpos hneg hv hexcess hhard
    obtain ⟨honly, hk, haxes, haxis, -⟩ := State.levelIn_shows (s := s) (a := a) hlen false level
    obtain ⟨honly', hk', haxes', haxis', -, -⟩ := State.limHit_shows hlen honly hk haxes
    obtain ⟨hax, htarget, hposts, -⟩ := State.hardStop_shows hlen honly' hk' haxes' haxis' hexcess false
    exact ⟨_, hexec, congrArg Axis.mot hax, congrArg Axis.traj hax, htarget, hposts⟩

end Sys2Proof.Machine
